-- ==== Sys2Proof/Word.lean ====
section
/-! DEFINITION. The words the model is written in: bytes, 64-bit register words, and the plain reading of a
bit field and of little-endian bytes (spec/00_scope.md R4). -/

namespace Sys2Proof

/-- A byte. -/
abbrev Byte := BitVec 8

/-- A 64-bit register word. -/
abbrev Word := BitVec 64

/-- Bits `hi` to `lo` of a number (R4: bit 0 is the least significant). -/
def bits (x hi lo : Nat) : Nat := (x >>> lo) % 2 ^ (hi + 1 - lo)

/-- Bit `i` of a number. -/
def bit (x i : Nat) : Bool := (x >>> i) % 2 == 1

/-- A truth value as a number. -/
def b2n (b : Bool) : Nat := if b then 1 else 0

/-- A number in two's complement on `n` bits, read as an integer. -/
def sext (n x : Nat) : Int := if x % 2 ^ n < 2 ^ (n - 1) then (x % 2 ^ n : Nat) else ((x % 2 ^ n : Nat) : Int) - 2 ^ n

/-- An integer in two's complement on `n` bits. -/
def twos (n : Nat) (x : Int) : Nat := (x % 2 ^ n).toNat

/-- The low `n` bytes of a number, least significant first (R4). -/
def leBytes : Nat → Nat → List Byte
  | 0, _ => []
  | n + 1, x => BitVec.ofNat 8 x :: leBytes n (x / 256)

/-- The number that bytes hold, least significant first (R4). -/
def leNat : List Byte → Nat
  | [] => 0
  | b :: bs => b.toNat + 256 * leNat bs

/-- Ceiling division. -/
def cdiv (a b : Nat) : Nat := (a + b - 1) / b

end Sys2Proof
end

