-- ==== Sys2Proof/Syntax.lean ====
section
/-! DEFINITION. The commands the block takes: one constructor of `Instr` for each row of the opcode table,
with the operands that the spec's text gives the row. -/

namespace Sys2Proof

/-- A half of the module: A is half 0, B is half 1 (R11). -/
inductive HalfId where
  | a
  | b
deriving DecidableEq, Repr

/-- A task of a live graph: its half, its graph ID and its TASK_INDEX. -/
structure TaskRef where
  half : HalfId
  graph : Nat
  task : Nat
deriving DecidableEq, Repr

/-- An Efing packet: the four header words of R316 and the payload. -/
structure Packet where
  w0 : Word
  w1 : Word
  w2 : Word
  w3 : Word
  payload : List Byte
deriving DecidableEq, Repr

/-- The channel a Zilsy command arrives through (R445): the mailbox, or one connection of the management port. -/
inductive Channel where
  | mailbox
  | port (conn : Nat)
deriving DecidableEq, Repr

/-- The envelope of a Zilsy command message (R446). Whether each signature verifies is an outcome the sender
supplies: the signature schemes are other standards. -/
structure Envelope where
  channel : Channel
  serial : Nat
  nonce : Nat
  keyId : Nat
  ed25519Ok : Bool
  mlDsaOk : Bool
deriving DecidableEq, Repr

/-- How a register write or a command reaches the module: by the host through BAR0 (R402), or in a signed Zilsy
command (R446). -/
inductive Path where
  | host
  | zilsy (m : Envelope)
deriving DecidableEq, Repr

/-- A function that can be disabled (R50): KIND and INDEX of SAF_FUNC_CMD (R54). -/
inductive FuncId where
  | core (n : Fin 80)
  | harbour (p : Fin 54)
  | port (p : Fin 18)
  | slot (k : Fin 16)
deriving DecidableEq, Repr

/-- The source of a graph (R26): a submission queue, an Efing endpoint or a launching task. -/
inductive SourceId where
  | queue (q : Nat)
  | efing (endpoint : Nat)
  | launch (t : TaskRef)
deriving DecidableEq, Repr

/-- A request destination (R224); a Cove window, which R15 lets a request reach, is one of its own (DESIGN CHOICE, log entry 58). -/
inductive Destination where
  | cove (n : Nat)
  | shelf (h : HalfId) (ch : Nat)
  | bay (h : HalfId) (ch : Nat)
  | endpoint (e : Nat)
  | mainland
deriving DecidableEq, Repr

/-- An upset that a read met: none, one the code corrects, one it cannot, or a parity error of an on-die data path, which leaves memory as it is
(R227). -/
inductive Upset where
  | none
  | corrected
  | uncorrectable
  | parity
deriving DecidableEq, Repr

/-- One sample of the tray and slot straps (R484): the 13 strap bits. -/
structure StrapSample where
  tray : Fin 2048
  slot : Fin 4
deriving DecidableEq, Repr

/-- The eye of a Bay channel at one training attempt (R241): the smallest over every DQ pin in both directions, its width in thousandths of the
unit interval and its height in mV. -/
structure BayEye where
  width : Nat
  height : Nat
deriving DecidableEq, Repr

/-- The outcome of training the 64 Bay channels, half A's first (R241, R245): each channel's eye at 9,600 MT/s, alone at 8,533 MT/s, and at
8,533 MT/s with every channel, as far as those attempts are made; and the channels whose test of step 8 miscompares. -/
structure BayTraining where
  fast : List BayEye
  alone : List BayEye
  slow : List BayEye
  miscompares : List (Fin 64)
deriving DecidableEq, Repr

/-- The outcome of bonding and training Shelf (R246): for each half one entry per failed bond, its channel (0-127 logical, 128-131 the
spares of layers 0-3) and its bond group, and the smallest eye height of each logical channel, in mV. -/
structure ShelfTraining where
  faultsA : List (Nat × Nat)
  faultsB : List (Nat × Nat)
  eyesA : List Nat
  eyesB : List Nat
deriving DecidableEq, Repr

/-- A failed wire of the Isthmus at training (R14): direction, group of 32 and wire. -/
structure WireFault where
  dir : HalfId
  group : Fin 32
  wire : Fin 33
deriving DecidableEq, Repr

/-- The rate of the host link (R400). -/
inductive LinkRate where
  | gt16
  | gt32
  | gt64
deriving DecidableEq, Repr

/-- The width of the host link (R400). -/
inductive LinkWidth where
  | x1
  | x4
  | x8
  | x16
deriving DecidableEq, Repr

/-- A read (`data = none`) or a write of bytes at a Shelf or Bay controller (R199, R224), the upset its read met, and the transfer errors of
its bursts that Bay's link ECC corrected (R239). -/
structure LineRequest where
  linkCe : Nat
  addr : Nat
  len : Nat
  data : Option (List Byte)
  task : Option TaskRef
  upset : Upset
deriving DecidableEq, Repr

/-- A memory-side adder request (R226): operation 0 add, 1 max, 2 min, the FORMAT code and the elements' bytes. -/
structure AddRequest where
  addr : Nat
  op : Nat
  format : Nat
  data : List Byte
  task : Option TaskRef
  upset : Upset
deriving DecidableEq, Repr

/-- A parity error in an accumulator bank entry (R79): the core, by number in its half, and the bank. -/
structure BankUpset where
  core : Fin 40
  bank : Fin 4
deriving DecidableEq, Repr

/-- One stall count of a core's engine (R53): engine 0 matrix, 1 vector, 2 gather; cause 0-15, 16 IDLE. -/
structure StallCount where
  core : Fin 80
  engine : Fin 3
  cause : Fin 17
  cycles : Nat
deriving DecidableEq, Repr

/-- Where an array stood when it reached the group boundary (R111). -/
structure HaltPoint where
  tile : Nat
  group : Nat
deriving DecidableEq, Repr

/-- The fields of a vector-program instruction (R146). -/
structure VecFields where
  etype : Nat
  dst : Fin 32
  srcA : Fin 32
  srcB : Fin 32
  srcC : Fin 32
  imm : BitVec 32
deriving DecidableEq, Repr

/-- What a traffic-generator run found in a line (R248, R252): the line within the channel, the first failing 32-bit word of it, the XOR of
that word, and in mode 1 what the line's code said. -/
structure TgLine where
  line : Nat
  word : Fin 16
  xor : BitVec 32
  upset : Upset
deriving DecidableEq, Repr

/-- The result of a traffic-generator run (R248): the lines that failed, in ascending order. -/
structure TgResult where
  lines : List TgLine
deriving DecidableEq, Repr

/-- A received codeword group (R309, R310): its control word, whether every lane's codeword was correctable, how
many had corrected symbols, and the packets whose last unit it carries. -/
structure LinkGroup where
  control : Word
  correctable : Bool
  corrected : Nat
  packets : List Packet
deriving DecidableEq, Repr

/-- An object that a staging applies (R448): whether its own signatures verify, and for firmware the SVN and the FLAGS bit of its header
(R449), whose places in the header the spec does not give. -/
structure StagedObject where
  ed25519Ok : Bool
  mlDsaOk : Bool
  svn : Nat
  raiseFloor : Bool
deriving DecidableEq, Repr

/-- The body of KEY_ENROL (R444). -/
structure KeyBody where
  role : Nat
  ed25519 : List Byte
  mlDsa : List Byte
deriving DecidableEq, Repr

/-- The activity of one 2 µs window, as the counters show it (R456, R461, R468): the 48 activity counters of each core; for each uncore block
its traffic, as (job slot, step, amount), a slot of 16 for traffic of no job; and the fraction of issue slots that the arrays used, in 64ths. -/
structure PowerSample where
  core : List (List Nat)
  uncore : List (List (Nat × Nat × Nat))
  issued : Nat
deriving DecidableEq, Repr

/-- The readings of one millisecond (R436): input voltage in 10 mV, current in mA and power in 0.1 W; and of each rail its mV and 10 mA. -/
structure MeterSample where
  vin : Nat
  iin : Nat
  pin : Nat
  rails : List (Nat × Nat)
deriving DecidableEq, Repr

/-- A row of the translation tables that a bind copies (R40, R41, R202): its VA in 2 MiB units, the device address it maps to, and its
attributes; `big` for a 1 GiB page. No rule says where the tables of a job come from, so the sender supplies them (log entry 18). -/
structure PageRow where
  va : Nat
  target : Nat
  big : Bool
  writable : Bool
  noPrefetch : Bool
deriving DecidableEq, Repr

/-- The commands: one constructor for each row of spec/opcode_table.json, in its order. -/
inductive Instr where
  /-- VIN_APPLIED (R477). -/
  | vinApplied
  /-- POWER_GOOD (R477). -/
  | powerGood (s0 s1 s2 : StrapSample)
  /-- VIN_LOSS (R466). -/
  | vinLoss
  /-- ZILSY_BOOT (R450). -/
  | zilsyBoot
  /-- IMAGE_SELECT (R426). -/
  | imageSelect
  /-- BAY_TRAINING_DONE (R245). -/
  | bayTrainingDone (r : BayTraining)
  /-- SHELF_TRAINING_DONE (R246). -/
  | shelfTrainingDone (r : ShelfTraining)
  /-- ISTHMUS_TRAINING_DONE (R14). -/
  | isthmusTrainingDone (faults : List WireFault)
  /-- SELF_TEST_DONE (R413). -/
  | selfTestDone (failing : List (Fin 80))
  /-- READY (R413). -/
  | ready
  /-- CONFIG_REQUEST (R412). -/
  | configRequest (dword : Fin 1024) (value : Option (BitVec 32))
  /-- PCIE_LINK_UP (R400). -/
  | pcieLinkUp (rate : LinkRate) (width : LinkWidth) (partnerFlit : Bool)
  /-- PERST (R411). -/
  | perst
  /-- HOT_RESET (R411). -/
  | hotReset
  /-- LINK_DOWN (R411). -/
  | linkDown
  /-- FLR (R411). -/
  | flr
  /-- BAR2_READ (R403). -/
  | bar2Read (offset : Nat) (len : Nat)
  /-- BAR2_WRITE (R403). -/
  | bar2Write (offset : Nat) (data : List Byte) (poisoned : Bool)
  /-- REGISTER_WRITE (R6). -/
  | registerWrite (p : Path) (addr : Nat) (value : Word)
  /-- QUEUE_PAIR_CREATE (R404). -/
  | queuePairCreate (q : Fin 64) (value : Word)
  /-- QUEUE_PAIR_DESTROY (R404). -/
  | queuePairDestroy (q : Fin 64)
  /-- SQ_DOORBELL (R414). -/
  | sqDoorbell (q : Fin 64) (tail : BitVec 32) (hostWrote : List (Nat × Byte))
  /-- SQ_FETCH (R406). -/
  | sqFetch (q : Fin 64)
  /-- SUBMIT_GRAPH (R406). -/
  | submitGraph (q : Fin 64)
  /-- NO_OP (R406). -/
  | noOp (q : Fin 64)
  /-- CQ_HEAD_WRITE (R407). -/
  | cqHeadWrite (q : Fin 64) (head : BitVec 32)
  /-- GRAPH_HEAD_WRITE (R48). -/
  | graphHeadWrite (h : HalfId) (g : Fin 4096) (head : Word)
  /-- COALESCE_TIMER (R408). -/
  | coalesceTimer (q : Fin 64)
  /-- GRAPH_SUBMIT (R318). -/
  | graphSubmit (h : HalfId) (p : Packet)
  /-- GRAPH_ADMIT (R29). -/
  | graphAdmit (h : HalfId) (src : SourceId) (gid : Fin 4096)
  /-- TOKEN (R36). -/
  | token (t : TaskRef)
  /-- CANCELLATION (R49). -/
  | cancellation (t : TaskRef) (origin : Nat)
  /-- FNB_TIDE_REACHED (R36). -/
  | fnbTideReached (t : TaskRef)
  /-- AGE_LIMIT_EXPIRY (R38). -/
  | ageLimitExpiry (t : TaskRef)
  /-- TASK_FIRE (R37). -/
  | taskFire (t : TaskRef) (cores : List (Fin 40)) (upset : Upset)
  /-- TASK_END (R46). -/
  | taskEnd (t : TaskRef) (stalls : List StallCount)
  /-- RECORD_WRITE (R48). -/
  | recordWrite (t : TaskRef)
  /-- TAG_GRANT (R225). -/
  | tagGrant (h : HalfId) (dest : Destination)
  /-- HOME_REQUEST (R224). -/
  | homeRequest (h : HalfId) (r : LineRequest)
  /-- MEMORY_ADD (R226). -/
  | memoryAdd (h : HalfId) (r : AddRequest)
  /-- REQUEST_RESPONSE (R216). -/
  | requestResponse (h : HalfId) (tag : Nat) (status : Nat) (data : List Byte)
  /-- FAR_DEADLINE_EXPIRY (R216). -/
  | farDeadlineExpiry (h : HalfId) (tag : Nat)
  /-- JOB_SLOT_BIND (R41). -/
  | jobSlotBind (p : Path) (k : Fin 16) (job : Fin 4096) (tables : List PageRow)
  /-- JOB_SLOT_DISABLE (R50). -/
  | jobSlotDisable (p : Path) (k : Fin 16)
  /-- FUNC_DISABLE (R50). -/
  | funcDisable (p : Path) (f : FuncId)
  /-- FUNC_ENABLE (R51). -/
  | funcEnable (p : Path) (f : FuncId)
  /-- DRAIN_DEADLINE (R50). -/
  | drainDeadline (f : FuncId)
  /-- DRAIN_COMPLETE (R50). -/
  | drainComplete (f : FuncId)
  /-- STALL_CLEAR (R54). -/
  | stallClear (p : Path) (h : HalfId) (value : Word)
  /-- DBG_HALT (R111). -/
  | dbgHalt (p : Path) (core : Fin 80)
  /-- DBG_HALT_REACHED (R111). -/
  | dbgHaltReached (core : Fin 80) (at_ : HaltPoint)
  /-- DBG_RESUME (R111). -/
  | dbgResume (p : Path) (core : Fin 80)
  /-- MATRIX (R90). -/
  | matrix (t : TaskRef) (parity : Option BankUpset)
  /-- VECTOR_PROGRAM (R143). -/
  | vectorProgram (t : TaskRef)
  /-- LD (R147). -/
  | ld (core : Fin 80) (f : VecFields)
  /-- ST (R151). -/
  | st (core : Fin 80) (f : VecFields)
  /-- LDI (R147). -/
  | ldi (core : Fin 80) (f : VecFields)
  /-- IOTA (R147). -/
  | iota (core : Fin 80) (f : VecFields)
  /-- ADD (R148). -/
  | add (core : Fin 80) (f : VecFields)
  /-- SUB (R148). -/
  | sub (core : Fin 80) (f : VecFields)
  /-- MUL (R148). -/
  | mul (core : Fin 80) (f : VecFields)
  /-- FMA (R148). -/
  | fma (core : Fin 80) (f : VecFields)
  /-- MAX (R148). -/
  | max (core : Fin 80) (f : VecFields)
  /-- MIN (R148). -/
  | min (core : Fin 80) (f : VecFields)
  /-- ABS (R147). -/
  | abs (core : Fin 80) (f : VecFields)
  /-- NEG (R147). -/
  | neg (core : Fin 80) (f : VecFields)
  /-- DIV (R148). -/
  | div (core : Fin 80) (f : VecFields)
  /-- SQRT (R148). -/
  | sqrt (core : Fin 80) (f : VecFields)
  /-- CMP (R147). -/
  | cmp (core : Fin 80) (f : VecFields)
  /-- SEL (R147). -/
  | sel (core : Fin 80) (f : VecFields)
  /-- EXP2 (R150). -/
  | exp2 (core : Fin 80) (f : VecFields)
  /-- LOG2 (R150). -/
  | log2 (core : Fin 80) (f : VecFields)
  /-- RCP (R150). -/
  | rcp (core : Fin 80) (f : VecFields)
  /-- RSQRT (R150). -/
  | rsqrt (core : Fin 80) (f : VecFields)
  /-- TANH (R150). -/
  | tanh (core : Fin 80) (f : VecFields)
  /-- IADD (R149). -/
  | iadd (core : Fin 80) (f : VecFields)
  /-- ISUB (R149). -/
  | isub (core : Fin 80) (f : VecFields)
  /-- IMUL (R149). -/
  | imul (core : Fin 80) (f : VecFields)
  /-- IMAX (R149). -/
  | imax (core : Fin 80) (f : VecFields)
  /-- IMIN (R149). -/
  | imin (core : Fin 80) (f : VecFields)
  /-- SHL (R149). -/
  | shl (core : Fin 80) (f : VecFields)
  /-- SHR (R149). -/
  | shr (core : Fin 80) (f : VecFields)
  /-- SRA (R149). -/
  | sra (core : Fin 80) (f : VecFields)
  /-- AND (R147). -/
  | and (core : Fin 80) (f : VecFields)
  /-- OR (R147). -/
  | or (core : Fin 80) (f : VecFields)
  /-- XOR (R147). -/
  | xor (core : Fin 80) (f : VecFields)
  /-- NOT (R147). -/
  | not (core : Fin 80) (f : VecFields)
  /-- ICMP (R147). -/
  | icmp (core : Fin 80) (f : VecFields)
  /-- CVT (R147). -/
  | cvt (core : Fin 80) (f : VecFields)
  /-- RSUM (R153). -/
  | rsum (core : Fin 80) (f : VecFields)
  /-- RMAX (R153). -/
  | rmax (core : Fin 80) (f : VecFields)
  /-- RMIN (R153). -/
  | rmin (core : Fin 80) (f : VecFields)
  /-- RMEAN (R154). -/
  | rmean (core : Fin 80) (f : VecFields)
  /-- GAP (R154). -/
  | gap (core : Fin 80) (f : VecFields)
  /-- ROUTE (R130). -/
  | route (t : TaskRef)
  /-- COMBINE (R137). -/
  | combine (t : TaskRef)
  /-- KV_WRITE (R172). -/
  | kvWrite (t : TaskRef)
  /-- ATTN_FORWARD (R162). -/
  | attnForward (t : TaskRef) (parity : Option BankUpset)
  /-- ATTN_FORWARD_PARTIAL (R163). -/
  | attnForwardPartial (t : TaskRef) (parity : Option BankUpset)
  /-- ATTN_COMBINE (R164). -/
  | attnCombine (t : TaskRef)
  /-- ATTN_BACKWARD_DKDV (R166). -/
  | attnBackwardDkDv (t : TaskRef) (parity : Option BankUpset)
  /-- ATTN_BACKWARD_DQ (R166). -/
  | attnBackwardDq (t : TaskRef) (parity : Option BankUpset)
  /-- KV_INVAL (R170). -/
  | kvInval (p : Path) (h : HalfId) (k : Fin 16)
  /-- CONV_FORWARD (R183). -/
  | convForward (t : TaskRef) (parity : Option BankUpset)
  /-- CONV_BACKWARD_DATA (R184). -/
  | convBackwardData (t : TaskRef) (parity : Option BankUpset)
  /-- CONV_BACKWARD_FILTER (R183). -/
  | convBackwardFilter (t : TaskRef) (parity : Option BankUpset)
  /-- BOX_DECODE (R192). -/
  | boxDecode (t : TaskRef)
  /-- NMS (R193). -/
  | nms (t : TaskRef)
  /-- ROWS_READY (R187). -/
  | rowsReady (t : TaskRef) (rows : Nat)
  /-- GATHER (R222). -/
  | gather (t : TaskRef)
  /-- SCATTER (R222). -/
  | scatter (t : TaskRef)
  /-- SCATTER_ADD (R223). -/
  | scatterAdd (t : TaskRef)
  /-- SCATTER_MAX (R223). -/
  | scatterMax (t : TaskRef)
  /-- SCATTER_MIN (R223). -/
  | scatterMin (t : TaskRef)
  /-- COPY (R220). -/
  | copy (t : TaskRef)
  /-- MAP (R205). -/
  | map (t : TaskRef)
  /-- UNMAP (R206). -/
  | unmap (t : TaskRef)
  /-- FILL (R215). -/
  | fill (t : TaskRef)
  /-- DROP (R215). -/
  | drop (t : TaskRef)
  /-- QUERY (R220). -/
  | query (t : TaskRef)
  /-- SETPIN (R220). -/
  | setPin (t : TaskRef)
  /-- PUBLISH (R212). -/
  | publish (t : TaskRef)
  /-- RETIRE (R220). -/
  | retire (t : TaskRef)
  /-- PENDING_REAP (R212). -/
  | pendingReap (h : HalfId) (job : Fin 4096) (object version : Nat)
  /-- MAIN_REGISTER (R214). -/
  | mainRegister (p : Path) (h : HalfId) (job : Fin 4096) (hostWrote : List (Nat × Byte))
  /-- MAIN_RETIRE (R214). -/
  | mainRetire (p : Path) (h : HalfId) (job : Fin 4096)
  /-- LEND_REVOKE (R218). -/
  | lendRevoke (p : Path) (h : HalfId)
  /-- LEND_EN_CLEAR (R218). -/
  | lendEnClear (p : Path) (h : HalfId) (gib : Fin 256)
  /-- REVOCATION_END (R218). -/
  | revocationEnd (h : HalfId)
  /-- REVOCATION_DONE (R218). -/
  | revocationDone (h : HalfId)
  /-- REFRESH_DUE (R236). -/
  | refreshDue (h : HalfId) (chan : Fin 128) (bank : Fin 16)
  /-- REFRESH_BAND_RELAX (R236). -/
  | refreshBandRelax (h : HalfId)
  /-- SCRUB_READ (R237). -/
  | scrubRead (h : HalfId) (upsets : List (Fin 64 × Upset))
  /-- TG_WRITE_READ (R248). -/
  | tgWriteRead (p : Path) (h : HalfId) (ch : Fin 160)
  /-- TG_READ_SWEEP (R248). -/
  | tgReadSweep (p : Path) (h : HalfId) (ch : Fin 160)
  /-- TG_STOP (R252). -/
  | tgStop (p : Path) (h : HalfId) (ch : Fin 160)
  /-- TG_DONE (R248). -/
  | tgDone (h : HalfId) (ch : Fin 160) (r : TgResult)
  /-- CONTEXT_OPEN (R257). -/
  | contextOpen (t : TaskRef)
  /-- CONTEXT_CLOSE (R257). -/
  | contextClose (t : TaskRef)
  /-- DECODE (R273). -/
  | decode (t : TaskRef)
  /-- ENCODE (R274). -/
  | encode (t : TaskRef)
  /-- FRAME_WATCHDOG (R265). -/
  | frameWatchdog (t : TaskRef) (picture : Nat) (rowsWritten : Nat)
  /-- IMAGE_DECODE (R302). -/
  | imageDecode (t : TaskRef)
  /-- AUDIO_DECODE (R302). -/
  | audioDecode (t : TaskRef)
  /-- TOKENISE_AND_PACK (R295). -/
  | tokeniseAndPack (t : TaskRef)
  /-- TABLE_LOAD (R294). -/
  | tableLoad (t : TaskRef)
  /-- CROP_AND_RESIZE (R191). -/
  | cropAndResize (t : TaskRef)
  /-- BATCH_ASSEMBLE (R299). -/
  | batchAssemble (t : TaskRef)
  /-- SAMPLE_DONE (R299). -/
  | sampleDone (t : TaskRef)
  /-- RESIZE (R297). -/
  | resize (t : TaskRef)
  /-- FLIP (R297). -/
  | flip (t : TaskRef)
  /-- JITTER (R297). -/
  | jitter (t : TaskRef)
  /-- NORM (R297). -/
  | norm (t : TaskRef)
  /-- GAIN (R297). -/
  | gain (t : TaskRef)
  /-- FMASK (R297). -/
  | fmask (t : TaskRef)
  /-- TMASK (R297). -/
  | tmask (t : TaskRef)
  /-- HOST_SIGNAL (R409). -/
  | hostSignal (t : TaskRef)
  /-- SUB_GRAPH_LAUNCH (R33). -/
  | subGraphLaunch (t : TaskRef)
  /-- SUB_GRAPH_DONE (R33). -/
  | subGraphDone (t : TaskRef)
  /-- TIDE_WAIT (R33). -/
  | tideWait (t : TaskRef)
  /-- POWER_HINT (R460). -/
  | powerHint (t : TaskRef)
  /-- HINT_WINDOW_OPEN (R461). -/
  | hintWindowOpen
  /-- UPDATE_GATE_CHECK (R376). -/
  | updateGateCheck (t : TaskRef)
  /-- UPDATE_GATE_CHECKPOINT (R390). -/
  | updateGateCheckpoint (t : TaskRef)
  /-- ALL_REDUCE (R346). -/
  | allReduce (t : TaskRef)
  /-- REDUCE_SCATTER (R346). -/
  | reduceScatter (t : TaskRef)
  /-- ALL_GATHER (R361). -/
  | allGather (t : TaskRef)
  /-- EXPERT_DISPATCH (R133). -/
  | expertDispatch (t : TaskRef)
  /-- EXPERT_RECEIVE (R134). -/
  | expertReceive (t : TaskRef)
  /-- EXPERT_RETURN (R135). -/
  | expertReturn (t : TaskRef)
  /-- EXPERT_RETURN_RECEIVE (R135). -/
  | expertReturnReceive (t : TaskRef)
  /-- SEND_TO_PEER (R362). -/
  | sendToPeer (t : TaskRef)
  /-- RECEIVE_FROM_PEER (R362). -/
  | receiveFromPeer (t : TaskRef)
  /-- VERDICT_REDUCTION (R378). -/
  | verdictReduction (t : TaskRef)
  /-- EBB (R353). -/
  | ebb (h : HalfId) (p : Packet)
  /-- FLOOD (R355). -/
  | flood (h : HalfId) (p : Packet)
  /-- STEP_REPEAT_READMIT (R381). -/
  | stepRepeatReadmit (h : HalfId) (k : Fin 16)
  /-- COLL_READY (R350). -/
  | collReady (h : HalfId) (p : Packet)
  /-- CREDIT (R350). -/
  | credit (h : HalfId) (p : Packet)
  /-- END (R362). -/
  | collEnd (h : HalfId) (p : Packet)
  /-- LATE_NOTICE (R372). -/
  | lateNotice (h : HalfId) (p : Packet)
  /-- SEND_BLOCK (R362). -/
  | sendBlock (h : HalfId) (p : Packet)
  /-- COLLECTIVE_DEADLINE (R371). -/
  | collectiveDeadline (t : TaskRef)
  /-- LATE_WAIT_EXPIRY (R372). -/
  | lateWaitExpiry (t : TaskRef)
  /-- LENIENT_WAIT_EXPIRY (R373). -/
  | lenientWaitExpiry (t : TaskRef)
  /-- RESOLVE_EXPIRY (R378). -/
  | resolveExpiry (t : TaskRef)
  /-- TOKEN_ROW (R134). -/
  | tokenRow (h : HalfId) (p : Packet)
  /-- END_RECORD (R133). -/
  | endRecord (h : HalfId) (p : Packet)
  /-- TRAVEL_READY (R134). -/
  | travelReady (h : HalfId) (p : Packet)
  /-- READ_REQUEST (R318). -/
  | readRequest (h : HalfId) (p : Packet)
  /-- WRITE_REQUEST (R318). -/
  | writeRequest (h : HalfId) (p : Packet)
  /-- ADDER_REQUEST (R318). -/
  | adderRequest (h : HalfId) (p : Packet)
  /-- FAR_READ (R318). -/
  | farRead (h : HalfId) (p : Packet)
  /-- FAR_RESERVE (R212). -/
  | farReserve (h : HalfId) (p : Packet)
  /-- FAR_WRITE (R212). -/
  | farWrite (h : HalfId) (p : Packet)
  /-- FAR_COMMIT (R213). -/
  | farCommit (h : HalfId) (p : Packet)
  /-- FAR_ABORT (R212). -/
  | farAbort (h : HalfId) (p : Packet)
  /-- FAR_QUERY (R318). -/
  | farQuery (h : HalfId) (p : Packet)
  /-- FAR_RETIRE (R220). -/
  | farRetire (h : HalfId) (p : Packet)
  /-- RESPONSE (R318). -/
  | response (h : HalfId) (p : Packet)
  /-- LINK_GROUP (R312). -/
  | linkGroup (h : HalfId) (x : Fin 10) (g : LinkGroup)
  /-- PACKET_FORWARD (R321). -/
  | packetForward (h : HalfId) (p : Packet)
  /-- ACK_TIMEOUT (R312). -/
  | ackTimeout (h : HalfId) (x : Fin 10)
  /-- NAK_LIMIT (R313). -/
  | nakLimit (h : HalfId) (port : Fin 9)
  /-- LANE_CLOCK_LOSS (R313). -/
  | laneClockLoss (h : HalfId) (port : Fin 9) (lane : Fin 5)
  /-- PORT_RETRAIN_DONE (R313). -/
  | portRetrainDone (h : HalfId) (port : Fin 9) (passing : List (Fin 5)) (asym : Int)
  /-- PORT_TRAINING_DONE (R308). -/
  | portTrainingDone (h : HalfId) (port : Fin 9) (passing : List (Fin 5)) (asym : Int)
  /-- TRAIN_RETRY (R308). -/
  | trainRetry (h : HalfId) (port : Fin 9)
  /-- HOP_TIMEOUT (R320). -/
  | hopTimeout (h : HalfId) (x : Fin 10)
  /-- ROUTE_HOLD_EXPIRY (R322). -/
  | routeHoldExpiry (h : HalfId) (dest : Fin 16384)
  /-- IDENTITY (R323). -/
  | identity (h : HalfId) (port : Fin 9) (p : Packet)
  /-- TIDE_EXCHANGE (R327). -/
  | tideExchange (h : HalfId)
  /-- SYNC (R327). -/
  | sync (h : HalfId) (x : Fin 10) (t1 : Nat)
  /-- ECHO (R327). -/
  | echo (h : HalfId) (x : Fin 10) (t1 t2 t3 : Nat) (locked : Bool) (depth : Nat)
  /-- PARENT_SWITCH (R330). -/
  | parentSwitch (h : HalfId)
  /-- HOLDOVER_EXPIRY (R330). -/
  | holdoverExpiry (h : HalfId)
  /-- PPS_EDGE (R331). -/
  | ppsEdge (h : HalfId)
  /-- CLK10M_LOCK (R331). -/
  | clk10mLock (h : HalfId)
  /-- PTP_TIME (R331). -/
  | ptpTime (h : HalfId) (ns : Nat)
  /-- REFERENCE_LOSS (R331). -/
  | referenceLoss (h : HalfId)
  /-- REF_EDGE_TIMEOUT (R425). -/
  | refEdgeTimeout
  /-- LEASE_CLAIM (R333). -/
  | leaseClaim
  /-- LEASE (R333). -/
  | lease (h : HalfId) (p : Packet)
  /-- LEASE_RENEWAL (R333). -/
  | leaseRenewal
  /-- LEASE_LAPSE (R333). -/
  | leaseLapse
  /-- READY_REPORT (R334). -/
  | readyReport (h : HalfId) (p : Packet)
  /-- CENSUS_DEADLINE (R335). -/
  | censusDeadline
  /-- CENSUS_RESULT (R335). -/
  | censusResult (h : HalfId) (p : Packet)
  /-- REVOCATION_NOTICE (R218). -/
  | revocationNotice (h : HalfId) (p : Packet)
  /-- HEARTBEAT_SEND (R384). -/
  | heartbeatSend
  /-- HEARTBEAT (R384). -/
  | heartbeat (h : HalfId) (p : Packet)
  /-- TRAY_HEARTBEAT (R385). -/
  | trayHeartbeat (h : HalfId) (p : Packet)
  /-- HEARTBEAT_TIMEOUT (R385). -/
  | heartbeatTimeout (tray : Fin 2048)
  /-- JOURNAL_APPEND (R386). -/
  | journalAppend (h : HalfId) (p : Packet)
  /-- JOURNAL_ACKNOWLEDGEMENT (R386). -/
  | journalAcknowledgement (h : HalfId) (p : Packet)
  /-- VERDICT_QUERY (R378). -/
  | verdictQuery (h : HalfId) (p : Packet)
  /-- VERDICT_ANSWER (R378). -/
  | verdictAnswer (h : HalfId) (p : Packet)
  /-- RECOVERY_LOST (R392). -/
  | recoveryLost (h : HalfId) (p : Packet)
  /-- RECOVERY_ABORT (R392). -/
  | recoveryAbort (h : HalfId) (p : Packet)
  /-- RECOVERY_SUBST (R393). -/
  | recoverySubst (h : HalfId) (p : Packet)
  /-- RECOVERY_RESUME (R392). -/
  | recoveryResume (h : HalfId) (p : Packet)
  /-- CHECKPOINT_REPORT (R390). -/
  | checkpointReport (h : HalfId) (p : Packet)
  /-- LATE_REPORT (R378). -/
  | lateReport (h : HalfId) (p : Packet)
  /-- REVOCATION_REPORT (R391). -/
  | revocationReport (h : HalfId) (p : Packet)
  /-- NO_UP_PORT_TIMEOUT (R392). -/
  | noUpPortTimeout
  /-- SLACK_ENTER (R415). -/
  | slackEnter (p : Path)
  /-- SLACK_IDLE_TIMER (R415). -/
  | slackIdleTimer
  /-- SLACK_ENTRY_DONE (R416). -/
  | slackEntryDone
  /-- SLACK_WAKE (R417). -/
  | slackWake (p : Path)
  /-- WAKE_READY (R417). -/
  | wakeReady
  /-- NONCE (R446). -/
  | nonce (c : Channel) (value : Nat)
  /-- NONCE_EXPIRY (R446). -/
  | nonceExpiry (value : Nat)
  /-- READ (R447). -/
  | read (m : Envelope) (addrs : List Nat)
  /-- WRITE (R447). -/
  | write (m : Envelope) (addr : Nat) (value : Word)
  /-- READ_LOG (R439). -/
  | readLog (m : Envelope) (seq : Nat) (count : Fin 256)
  /-- READ_AUDIT (R447). -/
  | readAudit (m : Envelope) (seq : Nat) (count : Fin 256)
  /-- ATTEST (R453). -/
  | attest (m : Envelope) (verifier : Nat)
  /-- POWER_CAP (R458). -/
  | powerCap (p : Path) (value : Word)
  /-- RESET_MODULE (R447). -/
  | resetModule (m : Envelope) (force : Bool)
  /-- COMMIT (R431). -/
  | commit (m : Envelope)
  /-- CONFIG_WRITE_DONE (R427). -/
  | configWriteDone (verified : Bool)
  /-- STAGE_BEGIN (R448). -/
  | stageBegin (m : Envelope) (object : Nat) (length : Nat)
  /-- STAGE_DATA (R448). -/
  | stageData (c : Channel) (offset : Nat) (data : List Byte)
  /-- STAGE_APPLY (R448). -/
  | stageApply (m : Envelope) (o : StagedObject)
  /-- STAGING_IDLE (R448). -/
  | stagingIdle
  /-- KEY_ENROL (R444). -/
  | keyEnrol (m : Envelope) (k : KeyBody)
  /-- KEY_REVOKE (R444). -/
  | keyRevoke (m : Envelope) (keyId : Nat)
  /-- REPAIR_CLEAR (R447). -/
  | repairClear (m : Envelope) (channels : List (Fin 320))
  /-- DIAG (R486). -/
  | diag (m : Envelope) (mode : Nat)
  /-- LOCKSTEP_MISMATCH (R434). -/
  | lockstepMismatch
  /-- ZILSY_RESTART (R435). -/
  | zilsyRestart
  /-- LOG_MERGE_FLUSH (R439). -/
  | logMergeFlush
  /-- POWER_WINDOW (R459). -/
  | powerWindow (w : PowerSample)
  /-- METER_CORRECTION (R457). -/
  | meterCorrection (m : MeterSample)
  /-- TJ_SAMPLE (R462). -/
  | tjSample (temps : List Int) (channels : List Int) (coolant : Option Int)
  /-- THERMAL_RECOVER_STEP (R462). -/
  | thermalRecoverStep
  /-- MARGIN_TRIM (R464). -/
  | marginTrim (h : HalfId) (above : Bool)
  /-- MARGIN_ALARM (R465). -/
  | marginAlarm (h : HalfId)
  /-- LEND_EN_SET (R218). -/
  | lendEnSet (m : Envelope) (h : HalfId) (gib : Fin 256)
  /-- BORROWER_DROP (R218). -/
  | borrowerDrop (h : HalfId) (lender : Nat)
  /-- PERST_DEASSERTION (R412). -/
  | perstDeassertion
  /-- HINT_WINDOW_CLOSE (R461). -/
  | hintWindowClose
  /-- IMAGE_WATCHDOG (R287). -/
  | imageWatchdog (t : TaskRef) (rowsWritten : Nat)
deriving DecidableEq, Repr

end Sys2Proof
end

