-- ==== Sys2Proof/Config.lean ====
section
/-! DEFINITION. What the spec leaves open: free values, opaque constants with no body. Nothing can evaluate one, and a
claim about one holds whatever it is. -/

namespace Sys2Proof.Config

/-- A fresh open value (log entry 6): the step draws the next one by its counter. -/
opaque freeValue : Nat → Nat

/-- The byte a far-tier address holds where no response brought it (log entry 8). -/
opaque farByte : Nat → Byte

/-- What becomes of a far read at admission or firing, where the model waits for no response: served, refused by its tier, or late. By device
address and Tide (log entry 8). -/
opaque farAnswer : Nat → Nat → Nat

/-- The byte of host memory at an IOVA that the host has not announced and the module has not written (log entry 8). -/
opaque hostByte : Nat → Byte

/-- SEVERITY of a log record: no rule of the spec gives it (log entry 10). -/
opaque logSeverity : Nat → Nat

/-- ARG2 of a log record: R440 names ARG0 and ARG1 alone (log entry 10). -/
opaque logArg2 : Nat → Nat

/-- CHAIN of the first audit record, which has none before it (log entry 11). -/
opaque firstChain : Nat

/-- EVENT of the record that logs a sequence gap: R440 lists no code for it (log entry 16). -/
opaque gapEvent : Nat

/-- The configuration-space word that holds the Resizable BAR control of BAR2: the PCI Express standard lets a function place it, and no
rule of the spec does (log entry 20). -/
opaque barWord : Nat

/-- The CRC-64 of a configuration slot that a write made, by its GEN and its layers' bytes: no rule gives the slot header's layout (log
entry 23). -/
opaque slotCrc : Nat → List Byte → Nat

/-- EVENT of the record that logs a stray token-travel packet (R139): R440 lists no code for it (log entry 16). -/
opaque strayEvent : Nat

/-- The CRC-32C that a ready packet carries of the values R347 lists: no rule gives how they are laid out as bytes (log entry 52). -/
opaque paramCrc : List Nat → Nat

/-- What a verdict block answered from the journal holds beyond its words 0 and 1 and its loss scale: R387 journals those two words alone (log
entry 51). By draw and offset. -/
opaque journalByte : Nat → Nat → Byte

/-- EVENT of the record that logs a destination without a route (R430): R440 lists no code for it (log entry 16). -/
opaque routeEvent : Nat

/-- How θ and δ of an exchange round an odd sum (R327 gives no rounding): half a nanosecond up, or down (log entry 49). -/
opaque halfUp : Bool

/-- EVENT of the record that logs a tray's joining the spare pool (R335): R440 lists no code for it (log entry 16). -/
opaque poolEvent : Nat

/-- OLD, NEW, TARGET and DETAIL of an audit record where R441 gives the KIND none: by KIND and field number (log entry 25). -/
opaque auditOpen : Nat → Nat → Nat

/-- The 32-bit words of the PRBS31 test pattern, by seed and index: R248 gives neither the tap order nor the bit order (log entry 28). -/
opaque prbs31 : Nat → Nat → Nat

/-- Where a selection key that is not a number ranks (R130 orders numbers alone), by token and expert: a mantissa at 2^-149 (log entry 36). -/
opaque nanKey : Nat → Nat → Int

/-- The expert and slot fields of a dropped route record where R132 gives none, by token and rank (log entry 36). -/
opaque droppedField : Nat → Nat → Nat

/-- How many run-aheads a paged task dropped (R171): timing decides it (log entry 37). -/
opaque runAheads : Nat → Nat

/-- The entries of an accumulator bank that an attention or convolution task used: no rule says how its values stand in the bank (log entry 32). By draw
and cell. -/
opaque bankEntry : Nat → Nat → Nat

/-! ## Power (spec/18_power_heat_and_supply.md)

The weights of the estimate are fixed in the running firmware (R456); no rule gives them, nor the static term, so they are open values (log
entry 53). Energies are in nJ. -/

/-- The energy of one count of a core's activity counter, by SVN and counter. -/
opaque coreWeight : Nat → Nat → Nat

/-- The engine whose activity a core's counter counts, modulo 3: 0 matrix, 1 vector, 2 gather. By SVN and counter. -/
opaque counterEngine : Nat → Nat → Nat

/-- The energy of one count of an uncore block's traffic counter, by SVN and block. -/
opaque uncoreWeight : Nat → Nat → Nat

/-- The static energy of a window, from the rail voltages and the hottest Tj of each half. -/
opaque staticEnergy : List Nat → Int → Int → Nat

/-- The matrix energy of a window at full issue for the mix of formats that the counters show (P_mx of R459), by SVN. -/
opaque fullIssue : Nat → List (List Nat) → Nat

/-- T of R459 in a window whose P_mx is zero. -/
opaque idleTarget : Nat

/-- How an inexact quotient of a power or heat computation is rounded, where no rule says: up, or down. By numerator and denominator. -/
opaque roundUp : Int → Int → Bool

/-- EVENT of the record that logs a margin alarm (R465): R440 lists no code for it (log entry 16). -/
opaque marginEvent : Nat

/-! ## The formats of other standards (spec/10_harbour_video.md, spec/11_harbour_images_audio_text.md)

HEVC, AVC, AV1, JPEG, PNG, Opus, AAC, FLAC, WAVE and the Unicode tables are other standards. What they make of bytes is an open value of
the bytes (R259, R301); what the spec itself does with it is modelled (log entry 41). -/

/-- A profile that a sequence's syntax names, among those of R253. -/
inductive Profile where
  | hevcMain
  | hevcMain10
  | hevcMainStill
  | avcHigh
  | avcMain
  | avcConstrainedBaseline
  | av1Main
  | other
deriving DecidableEq, Repr, Inhabited

/-- A chroma format. -/
inductive Chroma where
  | monochrome
  | c420
  | c422
  | c444
deriving DecidableEq, Repr, Inhabited

/-- A parameter set or sequence header of a stream: its identity, where it stands in the input, and where its syntax is in error. -/
structure ParamSet where
  id : Nat
  offset : Nat
  error : Option Nat
deriving DecidableEq, Repr, Inhabited

/-- What makes a syntax error (R265, R266). -/
inductive SyntaxFault where
  | outOfRange
  | setMissing
  | endBits
  | shortData
  | pastEnd
deriving DecidableEq, Repr, Inhabited

/-- Where decoding resumes after a syntax error (R266). -/
inductive Resume where
  | sliceStart
  | entryPoint
  | tile
  | obu
  | nextPicture
deriving DecidableEq, Repr, Inhabited

/-- A syntax error: what it is, its input offset, where decoding resumes, and the blocks not decoded between, the block in error included. -/
structure SyntaxError where
  fault : SyntaxFault
  offset : Nat
  resume : Resume
  blocks : List Nat
deriving DecidableEq, Repr, Inhabited

/-- A slice or tile of a picture: its offset, the parameter set it refers to, its blocks, each with the end of its syntax in the input,
and its syntax errors. -/
structure Slice where
  offset : Nat
  set : Nat
  blocks : List (Nat × Nat)
  errors : List SyntaxError
deriving DecidableEq, Repr, Inhabited

/-- One picture of a video stream, in decode order, as its standard reads it. Pictures are named by their number in the context. -/
structure PicSyntax where
  /-- the bytes of its access unit or temporal unit -/
  start : Nat
  stop : Nat
  /-- what its sequence-level syntax names; the level is ten times the level's number -/
  profile : Profile
  level : Nat
  depth : Nat
  chroma : Chroma
  /-- it names a tool that R253 lists as not supported, film grain synthesis apart -/
  foreignTool : Bool
  width : Nat
  height : Nat
  /-- declared reference and reorder needs (limit 0x15) -/
  needs : Nat
  /-- a random-access point with its parameter sets; a CRA picture; for an HEVC RASL picture, the offset of its random-access point -/
  rap : Bool
  cra : Bool
  raslOf : Option Nat
  /-- it is output, at this place in output order -/
  shown : Bool
  order : Nat
  /-- the references its lists name, LAST_FRAME first for AV1 -/
  refs : List Nat
  /-- the references that stay marked short-term and long-term after it, itself included -/
  shorts : List Nat
  longs : List Nat
  /-- two field pictures, output as one frame; an MBAFF frame -/
  fields : Bool
  mbaff : Bool
  /-- luma size of a CTB or superblock; the first luma line of each tile row below the first -/
  unit : Nat
  tileRows : List Nat
  /-- its slices or tiles in order; the blocks predicted from reference `i` of `refs` -/
  slices : List Slice
  predicted : List (List Nat)
  /-- the sample writes, by plane, column and line, that its syntax directs away from the samples of its own blocks -/
  strays : List (Nat × Nat × Nat)
  grain : Bool
  key : Bool
  matrix : Nat
  fullRange : Bool
deriving DecidableEq, Repr, Inhabited

/-- Samples of ten bits. -/
def PicSyntax.tenBit (p : PicSyntax) : Bool := p.depth = 10

/-- A video clip as its standard reads it: its parameter sets and its pictures. -/
structure ClipSyntax where
  sets : List ParamSet
  pics : List PicSyntax
deriving DecidableEq, Repr, Inhabited

/-- The syntax of a clip, by codec, the bytes the context has taken before, and the clip's bytes. -/
opaque clip : Nat → List Byte → List Byte → ClipSyntax

/-- What a decoded sample depends on (R259): the codec, the bytes before, the clip's bytes, the picture and plane, the field (0 the whole
frame, 1 and 2 its two fields), the position in it, its references' planes and its undecoded blocks, which the in-loop filters leave out
(R267). -/
structure SampleQuery where
  codec : Nat
  before : List Byte
  bytes : List Byte
  picture : Nat
  plane : Nat
  field : Nat
  pos : Nat
  refs : List (List (List Nat))
  undecoded : List Nat
deriving DecidableEq, Repr

/-- A decoded sample. -/
opaque sample : SampleQuery → Nat

/-- The sample that a co-located copy takes where the reference has no such position: R267 gives none. By plane, column and line. -/
opaque beyondReference : Nat → Nat → Nat → Nat

/-- What an encode task took in: the picture size, the sample bytes of its frames, and PARAMS (R254). -/
structure EncodeInput where
  width : Nat
  height : Nat
  bytes : List Byte
  params : List Nat
deriving DecidableEq, Repr

/-- What an encoded picture depends on (R254): the codec and bit depth, everything the context has taken, the picture's number in the
context, whether it is an I picture, its quantiser, and how many previous reconstructed pictures it may refer to. -/
structure EncodeQuery where
  codec : Nat
  bit10 : Bool
  inputs : List EncodeInput
  picture : Nat
  intra : Bool
  qp : Nat
  refs : Nat
deriving DecidableEq, Repr

/-- The payloads of the parameter sets before an I picture: VPS, SPS and PPS for HEVC, the sequence header for AV1. -/
opaque encodedSets : EncodeQuery → List (List Byte)

/-- The payload of an encoded picture. -/
opaque encodedPicture : EncodeQuery → List Byte

/-- Bytes of a frame buffer or a scratch region, whose layout no rule gives: by draw and offset. -/
opaque poolByte : Nat → Nat → Byte

/-- An image as its standard reads it. -/
structure ImageSyntax where
  /-- its signature and every option it uses are in R284 or R286 -/
  known : Bool
  png : Bool
  width : Nat
  height : Nat
  /-- components and bytes per sample as R283 counts them -/
  comps : Nat
  depth : Nat
  /-- stored components: 1 grey, 2 grey and alpha, 3 colour, 4 colour and alpha, palettes applied -/
  stored : Nat
  progressive : Bool
  /-- chroma subsampling, horizontal and vertical -/
  subX : Nat
  subY : Nat
  chunks : Nat
  longChunk : Bool
  /-- where damage was detected, and the rows written before it or before the chunk that passes limit 0x0A -/
  error : Option Nat
  rows : Nat
deriving DecidableEq, Repr, Inhabited

/-- The syntax of an image's bytes. -/
opaque image : List Byte → ImageSyntax

/-- A stored sample of an image: component, column, row of the component. -/
opaque imageSample : List Byte → Nat → Nat → Nat → Nat

/-- One frame of an audio stream: samples per channel, the bytes before and through it, and whether it is damaged. -/
structure AudioFrame where
  samples : Nat
  start : Nat
  stop : Nat
  damaged : Bool
deriving DecidableEq, Repr, Inhabited

/-- An audio stream as its standard reads it; `kind` 0: 16-bit integers, 1: 24-bit integers, 2: floats. -/
structure AudioSyntax where
  known : Bool
  channels : Nat
  rate : Nat
  kind : Nat
  declared : Nat
  frames : List AudioFrame
deriving DecidableEq, Repr, Inhabited

/-- The syntax of an audio stream's bytes. -/
opaque audio : List Byte → AudioSyntax

/-- A decoded sample of a channel: its 16 or 24 bits, or its FP32 bits. -/
opaque audioSample : List Byte → Nat → Nat → Nat

/-- The weight of mel filter `b` at bin `k` inside its triangle, FP32 bits: R291 gives the filters' points and not their shape between them
(log entry 44). By rate, transform length, FMIN, FMAX and count. -/
opaque melWeight : List Nat → Nat → Nat → Nat

/-- The class of a code point (R293): 0 letter, 1 number, 2 whitespace, 3 other. -/
opaque unicodeClass : Nat → Nat

/-- The KIND of an item, by bits 63:32 of its word 0: R295 does not place the field (log entry 45). -/
opaque itemKind : Nat → Nat

/-- A sample of RESIZE whose rounded position falls outside the image (log entry 46). -/
opaque resizeOutside : Nat

/-- The device identity private keys, made at manufacture: no command reads them (R437; log entry 56). -/
opaque identityKeys : List Byte

/-- A byte of the device certificate: SERIAL, the identity keys and the maker's signatures, made at manufacture (R452; log entry 56). -/
opaque certificateByte : Nat → Nat

/-- A byte of the identity keys' two signatures over an attestation report (R453; log entry 56). -/
opaque attestSignatureByte : List Byte → Nat → Nat

end Sys2Proof.Config
end

