-- ==== Sys2Proof/Machine/State.lean ====
section
/-! DEFINITION. The state of the module: plain data, holding every piece of state that the spec names (INVENTORY.md,
`## State`). Tables are lists of keyed entries in one canonical form: keys strictly rising, no entry equal to what an
unlisted key reads as. Registers live in `Block.regs`, by local address, unless other state shows them (a view). -/

namespace Sys2Proof.Machine

/-- A sparse table: key and value, keys strictly rising. -/
abbrev Tab (α : Type) := List (Nat × α)

/-! ## Saffron (spec/02_saffron_task_graphs.md) -/

/-- An operand slot of a task descriptor (R31). -/
structure OperandSlot where
  role : Nat
  bound : Nat
  tdesc : Nat
deriving DecidableEq, Repr

/-- A task descriptor as Saffron copies it at admission (R31, R39). -/
structure TaskDesc where
  index : Nat
  job : Nat
  operands : Nat
  gated : Bool
  fnbValid : Bool
  cls : Nat
  type : Nat
  fnbTide : Nat
  outList : Nat
  outCount : Nat
  inTokens : Nat
  shapeOutCount : Nat
  shapeOutBase : Nat
  shapeInBase : Nat
  coveUnits : Nat
  banks : Nat
  clusterMask : Nat
  cores : Nat
  slots : List OperandSlot
  params : List Word
deriving DecidableEq, Repr

/-- Where a task stands between admission and its record (R36, R37, R46, R48). -/
inductive TaskPhase where
  /-- tokens, Tide, verdict or slot are awaited -/
  | waiting
  /-- every condition of R36 holds -/
  | ready
  /-- fired; it holds its cores and a firing slot -/
  | running
  /-- its status is fixed; its record is not written -/
  | ended
  /-- its record waits for ring space or a writable page (R48) -/
  | recordWait
  /-- its record is written and its tokens or cancellations are sent -/
  | recorded
deriving DecidableEq, Repr

/-- A value: a NaN, an infinity, or the exact finite number (-1)^neg × m × 2^e; m = 0 is a signed zero. -/
inductive Val where
  | nan
  | inf (neg : Bool)
  | fin (neg : Bool) (m : Nat) (e : Int)
deriving DecidableEq, Repr

/-- Counts of a conversion, for the statistics unit (R66, R71). -/
structure ConvStats where
  maxAbs : Nat
  nonzero : Nat
  underflow : Nat
  underflow5 : Nat
  nf : Nat
  ovf : Nat
deriving DecidableEq, Repr

/-- No counts. -/
def ConvStats.zero : ConvStats := { maxAbs := 0, nonzero := 0, underflow := 0, underflow5 := 0, nf := 0, ovf := 0 }

/-- A statistics record captured by a task, merged into its slot when the task ends (R70-R72). -/
structure StatCapture where
  slot : Fin 4096
  words : List Word
deriving DecidableEq, Repr

/-- A block on its way out of a collective task: the position it goes to (for token travel, the endpoint), Flood or Ebb (for travel, an end
record or a row), its sub-shard by owner, the block's number, its bytes as they travel, and the origin named for it (R354). -/
structure CollOut where
  dest : Nat
  flood : Bool
  shard : Nat
  block : Nat
  bytes : List Byte
  origin : Nat
deriving DecidableEq, Repr

/-- The state of a collective task between its packets (R346-R365, R371-R374, R378). -/
structure CollState where
  /-- its slots are read and its chains begun -/
  started : Bool
  /-- a lenient task that fired after DEADLINE (R374) -/
  late : Bool
  /-- positions, or for token travel endpoints, whose ready it holds -/
  readies : List Nat
  /-- credits in blocks that each position has granted and not used -/
  credits : Tab Nat
  /-- its own contribution, block by block, as it travels -/
  own : List (List Byte)
  /-- level-1 results under 2B and incoming level-2 partials under 2B + 1, with their origins; a receive's blocks under B -/
  partials : Tab (List Byte × Nat)
  /-- final blocks that have landed -/
  landed : List Nat
  /-- blocks whose level-1 link (2B) or level-2 link (2B + 1) is done; the rows that a return receive expects -/
  passed : List Nat
  queue : List CollOut
  /-- packets that came before it was started -/
  inbox : List Packet
  /-- successors that a lenient channel skips; Flood blocks owed to them; the wait for them is over -/
  skip : Nat
  served : List CollOut
  waited : Bool
  /-- lowest origin among the non-finite blocks that landed (R356) -/
  origin : Nat
  /-- a send's byte count (key 0), or the counts of end records by pair (R133, R362) -/
  ends : Tab Nat
  /-- chunks of rows that have landed (R134) -/
  rows : List Nat
  /-- blocks of a send already sent -/
  sent : Nat
  /-- late endpoints that OP 9 has reported -/
  reported : List Nat
  /-- the verdict an owner has decided, not durable yet -/
  verdict : Option (List Byte)
  /-- the Tide of the last verdict query (R378) -/
  queried : Option Nat
deriving DecidableEq, Repr

/-- Where a batch task stands (R299): the unit that its sample was handed to, the position and attempt, the index that attempt decodes, the planned sample's status and DETAIL, the
last attempt's, and, once a sample is decoded and its augmentation records are applied, the record that comes next and the sample: an
image's channels, width, height and FP32 values (channel fastest), or a clip's mono waveform, with the frames' masks (bins or frames, start,
width). -/
structure BatchWork where
  unit : Option Nat
  pos : Nat
  attempt : Nat
  index : Nat
  firstStatus : Nat
  firstDetail : Nat
  lastStatus : Nat
  lastDetail : Nat
  augment : Bool
  op : Nat
  chans : Nat
  width : Nat
  height : Nat
  values : List Nat
  masks : List (Bool × Nat × Nat)
deriving DecidableEq, Repr

/-- What a task with paged keys keeps until it ends (R170): the page list's address and LENGTH of each sequence-table entry it has read; the page-list entries it
has demanded, by core, sequence and list index; and the demands each of its cores has made. -/
structure KvHeld where
  seqs : Tab (Nat × Nat)
  pages : Tab Nat
  made : Tab Nat
deriving DecidableEq, Repr

/-- A task that holds none. -/
def KvHeld.none : KvHeld := { seqs := [], pages := [], made := [] }

/-- A task context (R31, R36-R39, R46). -/
structure TaskCtx where
  desc : TaskDesc
  /-- the task indices its output tokens fire, as copied at admission -/
  outs : List Nat
  received : Nat
  cancels : Nat
  origin : Option Nat
  phase : TaskPhase
  /-- it has been granted its resources (R37); a task cancelled before firing never is -/
  fired : Bool
  readyTide : Nat
  aged : Bool
  /-- the Tide at which it aged -/
  agedTide : Nat
  /-- cores granted, by module core number -/
  cores : List Nat
  fireTide : Nat
  endTide : Nat
  /-- extents of each operand at firing (R42) -/
  exts : List (List Nat)
  /-- the raw tensor descriptors read at firing (R35) -/
  tdescs : List (List Word)
  status : Nat
  detail : Nat
  emptyRed : Bool
  /-- values for the shape registers named by SHAPE_OUT (R46) -/
  shapeOut : List Nat
  /-- rows published to rows-ready consumers (R187) -/
  rowsReady : Nat
  /-- a matrix task's row mask as read at firing (R99): the rows of C it computes; all of them past the list's end -/
  rowMask : List Bool
  /-- a vector task's program as read at firing (R146), its stored lanes whose block of 64 is not complete, by slot, row and lane, and the
  counts of its captured stores (R151) -/
  prog : List Word
  lanes : Tab Val
  counts : ConvStats
  /-- what a task with paged keys keeps (R170) -/
  kv : KvHeld
  /-- steps of a task that runs over several commands already done -/
  stage : Nat
  /-- far requests the task has sent, and those answered -/
  sent : Nat
  acked : Nat
  /-- bytes that answered far requests of the task, by device address -/
  farBuf : Tab Byte
  /-- handles of cache objects the task holds a reference on (R208) -/
  refs : List Nat
  /-- what a run counts once, however often it is resumed, has been counted (R204, R222) -/
  noted : Bool
  stats : List StatCapture
  coll : Option CollState
  /-- rows written of a frame or an image when its watchdog expired (R265, R287), by picture -/
  watchdogs : Tab Nat
  batch : Option BatchWork
deriving DecidableEq, Repr

/-- A live graph (R27, R29, R33, R48). -/
structure Graph where
  job : Nat
  slot : Fin 16
  step : Nat
  source : SourceId
  header : Nat
  depth : Nat
  launcher : Option TaskRef
  /-- the completion queue its ring is bound to, if any -/
  queue : Option (Fin 64)
  ringBase : Nat
  ringLog2 : Nat
  /-- home-tier ring: next index to write, phase bit, records unreleased, head -/
  tail : Nat
  phase : Bool
  held : Nat
  head : Nat
  /-- the once-only log record of an unwritable ring is written (R48) -/
  ringFaultLogged : Bool
  tasks : List TaskCtx
deriving DecidableEq, Repr

/-- A graph that waits at its source: for contexts and an ID, or behind an earlier graph of the source (R29). -/
structure WaitingGraph where
  source : SourceId
  graph : Graph
  tag : Nat
  sqIndex : Nat
  seq : Nat
  /-- re-admitted by a repeated step: its submitter is not told again (R381) -/
  again : Bool
  /-- it has passed the checks of R28; until then its graph names its header, job and depth alone, and an earlier graph of its source waits -/
  checked : Bool
deriving DecidableEq, Repr

/-- A token or a cancellation between two tasks of a graph (R46, R49). -/
structure TokenMsg where
  graph : Nat
  task : Nat
  cancel : Option Nat
deriving DecidableEq, Repr

/-- The state of a function that can be disabled (R50): 0 enabled, 1 Draining, 2 Disabled. -/
structure FuncState where
  st : Nat
  deadline : Nat
  aborted : Nat
  /-- failed the self-test (R413), or fenced: no enable before the next start -/
  failed : Bool
deriving DecidableEq, Repr

/-! ## Tiers (spec/08_cove_shelf_bay_offshore_mainland.md) -/

/-- A mapped page (R202): its device address and attributes; `big` for a 1 GiB page. -/
structure Page where
  target : Nat
  big : Bool
  writable : Bool
  noPrefetch : Bool
  handle : Nat
deriving DecidableEq, Repr

/-- A cache object (R208, R215). -/
structure CacheObject where
  job : Nat
  object : Nat
  version : Nat
  tier : Nat
  far : Nat
  length : Nat
  frames : List Nat
  pin : Bool
  lastUse : Nat
  refs : List TaskRef
  /-- mappings: job slot, VA and whether 1 GiB pages are used -/
  mappings : List (Nat × Nat)
  /-- the task whose FILL is in progress -/
  filling : Option TaskRef
deriving DecidableEq, Repr

/-- A far directory entry (R211): state 1 Pending, 2 Committed, 3 Retired. -/
structure FarEntry where
  job : Nat
  object : Nat
  version : Nat
  base : Nat
  length : Nat
  st : Nat
  lastActive : Nat
deriving DecidableEq, Repr

/-- The lending window of a half (R217, R218): 0 none, 1 advertised, 2 revoking, 3 revoked. -/
structure LendWindow where
  st : Nat
  frames : List Nat
  tEnd : Nat
  dir : List FarEntry
deriving DecidableEq, Repr

/-- A request that holds a tag, or waits for one (R224, R225). -/
structure Request where
  dest : Destination
  task : Option TaskRef
  op : Nat
  addr : Nat
  len : Nat
  issued : Nat
  data : List Byte
  upset : Upset
deriving DecidableEq, Repr

/-- The tier state of one half. -/
structure Tiers where
  /-- frames allocated, by local address: the owner slot + 1, 0x100 for the lending window, 0x200 + slot for cache objects -/
  frames : Tab Nat
  cursor : Nat
  objects : Tab CacheObject
  window : LendWindow
  /-- windows being revoked, by lender endpoint: T_end -/
  revoking : Tab Nat
  mainland : List FarEntry
  tags : Tab Request
  nextTag : Nat
  waiting : List Request
deriving DecidableEq, Repr

/-- A job slot (R40, R41): 0 Disabled, 1 Active, 2 Draining. -/
structure JobSlot where
  st : Nat
  job : Nat
  deadline : Nat
  aborted : Nat
  /-- page entries by VA in 2 MiB units (R202) -/
  pages : Tab Page
  /-- expert home table per half: home and copies of each expert, as copied (R128) -/
  experts : List (List Word)
  /-- rank table per half: endpoint of each rank (R343) -/
  ranks : List (List Nat)
  /-- plan table per half, as copied (R343) -/
  plans : List (List Word)
deriving DecidableEq, Repr

/-! ## The rest of a half -/

/-- A vector register: the type that wrote it and its lanes' bits (R142). -/
structure VecReg where
  etype : Nat
  lanes : List Nat
deriving DecidableEq, Repr

/-- Where a core's vector engine stands in its program (R142-R145, R152, R153): the strip or group of the core's run, the instruction
within it, the registers written (an unlisted one holds all-zero bits), the sums by output element, and the values of a tree that is not
complete. -/
structure VecCore where
  unit : Nat
  pc : Nat
  regs : Tab VecReg
  acc : Tab (Nat × Nat)
  piece : List Nat
deriving DecidableEq, Repr

/-- A vector engine before its first instruction. -/
def VecCore.reset : VecCore := { unit := 0, pc := 0, regs := [], acc := [], piece := [] }

/-- An accumulator bank (R77, R112): the batch index, tile row and column of its tile, the groups added, and its 64-bit entries, row by row. A cell that no row
lists holds 0: one beyond the tile's extents, or of a masked row (DESIGN CHOICE, log entry 70). With `fill` the entries are those an attention or convolution
task left, which are open. -/
structure BankTile where
  batch : Nat
  mt : Nat
  nt : Nat
  done : Nat
  rows : List (List Nat)
  fill : Option Nat
deriving DecidableEq, Repr

/-- A bank at reset: every entry 0 (DESIGN CHOICE, log entry 70). -/
def BankTile.reset : BankTile := { batch := 0, mt := 0, nt := 0, done := 0, rows := [], fill := none }

/-- The entry of cell (i, j) of a bank, at 128 i + j. -/
def BankTile.entry (x : BankTile) (cell : Nat) : Nat :=
  match x.fill with
  | some n => Config.bankEntry n cell % 2 ^ 64
  | none => (x.rows.getD (cell / 128) []).getD (cell % 128) 0

/-- The engines of one core (R77, R110-R112, R142, R170). -/
structure CoreEngines where
  /-- banks 0-3 (R77, R112) -/
  banks : List BankTile
  vec : VecCore
  haltRequested : Bool
  halted : Bool
  /-- the Tide at which the array halted (R113) -/
  haltTide : Nat
  /-- KV look-aside entries: job slot, sequence, page index, device page -/
  lab : List (Nat × Nat × Nat × Nat)
deriving DecidableEq, Repr

/-- A core's engines at reset. -/
def CoreEngines.reset : CoreEngines :=
  { banks := List.replicate 4 BankTile.reset, vec := VecCore.reset, haltRequested := false, halted := false, haltTide := 0, lab := [] }

/-- A picture that a stream context holds (R261): its planes (luma, Cb, Cr), its number in decode order, its place in output order, its
mark (0 unused, 1 short-term, 2 long-term) and OUTPUT_PENDING. -/
structure Picture where
  width : Nat
  height : Nat
  tenBit : Bool
  planes : List (List Nat)
  number : Nat
  order : Nat
  mark : Nat
  waiting : Bool
deriving DecidableEq, Repr

/-- A decoded picture as its frame record needs it (R272). -/
structure Shown where
  pic : Picture
  fraction : Nat
  start : Nat
  resyncs : Nat
  missing : Nat
  watchdog : Bool
  grain : Bool
  key : Bool
  matrix : Nat
  fullRange : Bool
deriving DecidableEq, Repr

/-- A video stream context (R257, R258, R260, R261, R275): its active parameter sets, the buffers of its pool, its output queue, the most
recent picture decoded, the input bytes its coding state comes from, what an encoder took in, its previous source luma and its motion
vectors, and the tasks that name it in order of firing. -/
structure StreamCtx where
  job : Nat
  codec : Nat
  encoder : Bool
  maxW : Nat
  maxH : Nat
  bit10 : Bool
  fbBase : Nat
  fbCount : Nat
  live : Bool
  sets : List Config.ParamSet
  buffers : List (Option Picture)
  output : List Shown
  last : Option Picture
  pictures : Nat
  history : List Byte
  inputs : List Config.EncodeInput
  source : Option (List Nat)
  vectors : List (Int × Int)
  queue : List TaskRef
deriving DecidableEq, Repr

/-- The Harbour of one half. -/
structure Harbour where
  streams : Tab StreamCtx
  /-- tasks in each unit's queue, by unit number (R258, R281) -/
  units : Tab (List TaskRef)
  /-- merge store: job, TABLE and COUNT of the table held, its entries (LEFT, RIGHT), and the tasks using it (R294) -/
  mergeKey : Option (Nat × Nat × Nat)
  mergeTable : List (Nat × Nat)
  mergeUsers : List TaskRef
deriving DecidableEq, Repr

/-- A group sent and not acknowledged (R312): its SEQ, when it was last sent, how often it was replayed, and its packets. -/
structure SentGroup where
  seq : Nat
  tide : Nat
  replays : Nat
  packets : List Packet
deriving DecidableEq, Repr

/-- One link of a half: a port or the Isthmus (R308-R314, R323, R339). -/
structure Port where
  /-- 0 untrained, 1 training, 2 Up, 3 Slack, 4 Draining, 5 Disabled -/
  st : Nat
  cause : Nat
  linkClass : Nat
  spareUsed : Bool
  spareFor : Nat
  nbrEndpoint : Nat
  nbrPort : Nat
  /-- the asymmetry correction that training measured (R326) -/
  asym : Int
  /-- a training attempt has ended (R334) -/
  attempted : Bool
  /-- training has passed; the identity packet is awaited (R323) -/
  trained : Bool
  retraining : Bool
  replay : List SentGroup
  sendSeq : Nat
  /-- the SEQ awaited next from the far end -/
  recvSeq : Nat
  credits : List Nat
  /-- packets waiting for the link, each with the Tide at which it entered (R320) -/
  queue : List (Nat × Packet)
  /-- neighbour's Tide lock and depth, as its ECHO shows (R328) -/
  nbrLocked : Bool
  nbrDepth : Nat
deriving DecidableEq, Repr

/-- A packet in a link's receive buffer (R314): the link, the Tide of its arrival, and the packet. -/
structure Arrived where
  exit : Nat
  tide : Nat
  packet : Packet
deriving DecidableEq, Repr

/-- A destination whose exit changed (R322). -/
structure RouteHold where
  until_ : Nat
  /-- the exit of time and management packets changed too -/
  all : Bool
  packets : List Packet
deriving DecidableEq, Repr

/-- The Efing router of one half (R316-R322, R336). -/
structure Efing where
  ports : List Port
  holds : Tab RouteHold
  arrived : List Arrived
  seqTx : Tab Nat
  seqRx : Tab Nat
  gapLogged : List Nat
  /-- parts of a census result received (R335) -/
  parts : Tab (List Byte)
  /-- EF_STAT.CENSUS: 0 not begun, 1 gathering, 2 complete, 3 this endpoint absent -/
  census : Nat
deriving DecidableEq, Repr

/-- The Tide clock of one half (R326-R331). -/
structure TideClock where
  now : Nat
  /-- the part of the next nanosecond, in parts per 10^9 -/
  frac : Nat
  /-- Tide has started here: the root's start, or the first exchange with a parent -/
  running : Bool
  /-- rate correction applied, in parts per 10^9, within 200 ppm -/
  slew : Int
  /-- consecutive exchanges within 10 ns -/
  good : Nat
  lastExchange : Nat
  /-- it has been Locked since the start: it never steps again -/
  everLocked : Bool
  /-- the link to its parent, and whether an exchange with it has set or steered the counter -/
  parent : Option Nat
  synced : Bool
  holdoverFrom : Option Nat
  clk10m : Bool
deriving DecidableEq, Repr

/-- A half's record of one step of a job slot (R370, R379, R381): undecided while it has no verdict. -/
structure StepRecord where
  slot : Nat
  step : Nat
  nonFinite : Bool
  nfOrigin : Nat
  fail : Bool
  late : Bool
  lateEp : Nat
  /-- positions skipped by this half's lenient collectives of the step (R373) -/
  skips : Nat
  /-- COMB_FIRST of the step's CHECK task (R379) -/
  comb : Nat
  /-- addresses of hold headers that the step wrote (false), or folded or dropped (true) (R374) -/
  holds : List (Nat × Bool)
  /-- the verdict that released its gated tasks: 1 OPEN, 2 CLOSED -/
  verdict : Option Nat
  repeats : Nat
  /-- a REPEAT has arrived and the graphs are still to be re-admitted -/
  repeating : Bool
deriving DecidableEq, Repr

/-- One half. -/
structure Half where
  graphs : Tab Graph
  waiting : List WaitingGraph
  submitted : Nat
  tokens : List TokenMsg
  /-- core, Harbour and port functions, by 64 × KIND + local index -/
  funcs : Tab FuncState
  /-- shape registers of all job slots, by 4,096 × slot + register -/
  shapes : Tab Nat
  tiers : Tiers
  engines : Tab CoreEngines
  harbour : Harbour
  efing : Efing
  tide : TideClock
  steps : List StepRecord
  /-- headers of graphs of undecided steps, in admission order (R381) -/
  repeatHeaders : List WaitingGraph
  /-- collective ready packets that came before their task fired (R371; log entry 52) -/
  early : List Packet
  /-- the row that each Shelf bank refreshes next, by 16 × channel + bank (R236) -/
  refresh : Tab Nat
  /-- for the bounds of 65, 85 and 100 °C: the time since which Tj has stayed 3 °C below it (R236) -/
  cool : List (Option Nat)
deriving DecidableEq, Repr

/-! ## The module -/

/-- A queue pair (R404-R408, R421). -/
structure QueuePair where
  enabled : Bool
  job : Nat
  vec : Fin 256
  sqLog2 : Nat
  cqLog2 : Nat
  coalUs : Nat
  coalCount : Nat
  sqHead : Nat
  sqTail : Nat
  cqTail : Nat
  cqPhase : Bool
  cqHeld : Nat
  cqHead : Nat
  /-- the entry fetched and not yet processed: its index and 64 bytes -/
  fetched : Option (Nat × List Byte)
  /-- a host-link reset disabled it: tasks that wait on its full queue wait for its re-creation (R419) -/
  held : Bool
  unsignalled : Nat
  firstUnsignalled : Nat
deriving DecidableEq, Repr

/-- A log record (R438). -/
structure LogRecord where
  seq : Nat
  tide : Nat
  event : Nat
  source : Nat
  job : Nat
  severity : Nat
  unlocked : Bool
  count : Nat
  graph : Nat
  task : Nat
  status : Nat
  taskValid : Bool
  arg0 : Nat
  arg1 : Nat
  arg2 : Nat
deriving DecidableEq, Repr

/-- An audit record (R441). -/
structure AuditRecord where
  seq : Nat
  tide : Nat
  kind : Nat
  role : Nat
  viaPcie : Bool
  recovered : Bool
  target : Nat
  keyId : Nat
  old : Nat
  new : Nat
  detail : Nat
  chain : Nat
deriving DecidableEq, Repr

/-- A firmware slot (R449). -/
structure FirmwareSlot where
  gen : Nat
  /-- both signatures of the maker verify: an outcome, the schemes are other standards -/
  signed : Bool
  svn : Nat
  raiseFloor : Bool
  image : List Byte
deriving DecidableEq, Repr

/-- A layer of the configuration image (R424). -/
structure Layer where
  keyId : Nat
  /-- bytes 16-63 of its header, reserved -/
  reserved : List Byte
  records : List (Nat × List Byte)
  signature : List Byte
  /-- both signatures verify: an outcome, the schemes are other standards -/
  verifies : Bool
deriving DecidableEq, Repr

/-- A configuration slot (R423). -/
structure ConfigSlot where
  gen : Nat
  /-- the CRC-64 of the slot's bytes: where they stand in the slot header no rule says, so the slot carries it (log entry 23) -/
  crc : Nat
  headerOk : Bool
  factory : Option Layer
  installer : Option Layer
  operator : Option Layer
deriving DecidableEq, Repr

/-- A commit record (R426). -/
structure CommitRecord where
  seq : Nat
  slotB : Bool
  slotCrc : Nat
  tide : Nat
deriving DecidableEq, Repr

/-- A key-store entry (R444): ROLE 1 operator, 2 installer; STATE 0xFF active, 0x00 revoked. -/
structure KeyEntry where
  keyId : Nat
  role : Nat
  active : Bool
  ed25519 : List Byte
  mlDsa : List Byte
deriving DecidableEq, Repr

/-- The flash (R422, R423, R437). NOR: commit sectors at 0x000_0000 and 0x000_1000, configuration slots at 0x010_0000 and 0x040_0000, firmware
slots at 0x070_0000 and 0x0B0_0000 of 4 MiB, the key store at 0x0F0_0000 (512 entries of 2 KiB), the audit area at 0x100_0000 (65,536 records of
64 bytes) and the event log at 0x200_0000 (524,288 records of 64 bytes); the other ranges are reserved, and no command writes them. Protected
flash: the identity private keys, the device certificate, the memory repair list and the rail trims. -/
structure Flash where
  firmwareA : Option FirmwareSlot
  firmwareB : Option FirmwareSlot
  slotA : Option ConfigSlot
  slotB : Option ConfigSlot
  commit0 : Option CommitRecord
  commit1 : Option CommitRecord
  keys : List KeyEntry
  /-- the event log, records by SEQ -/
  log : List LogRecord
  /-- what UART_TX has printed: each record as it was written, in order (R486); a transcript outside the module, so no sector's erasure and no
  loss of power takes from it -/
  printed : List LogRecord
  audit : List AuditRecord
  /-- memory repair list: channel (0-319, 160 × half + channel) and cause -/
  repair : List (Nat × Nat)
  /-- the device identity private keys, Ed25519 and then ML-DSA-65; no command reads them (R437) -/
  identity : List Byte
  /-- the device certificate (R437, R453) -/
  certificate : List Byte
  /-- stored rail trims of the two halves, mV below nominal (R464) -/
  trimA : Nat
  trimB : Nat
deriving DecidableEq, Repr

/-- An open staging (R448). -/
structure Staging where
  object : Nat
  keyId : Nat
  channel : Channel
  length : Nat
  data : Tab Byte
  lastActive : Nat
  /-- SVN of the firmware slot that the staging erased, if it held one (R441, R448) -/
  oldSvn : Option Nat
deriving DecidableEq, Repr

/-- A configuration write in progress or queued (R427, R431, R432). -/
structure ConfigWrite where
  /-- the layer that changes: 1 factory, 2 installer, 3 operator -/
  which : Nat
  layer : Layer
  /-- DISABLED as it stood at the COMMIT; 0 for another write -/
  disabled : Nat
  keyId : Nat
  role : Nat
  viaPcie : Bool
  started : Nat
deriving DecidableEq, Repr

/-- Zilsy (spec/17_zilsy_management_and_roles.md). -/
structure Zilsy where
  up : Bool
  /-- time of Zilsy's last start -/
  started : Nat
  resets : Nat
  fwSlotB : Bool
  lost : Nat
  /-- records pending for merging, with the time each was created (R439) -/
  merging : List (Nat × LogRecord)
  /-- records queued by the half controllers while Zilsy does not answer (R435) -/
  queuedA : List LogRecord
  queuedB : List LogRecord
  /-- nonces outstanding, oldest first, with the time of issue (R446) -/
  nonces : List (Nat × Nat)
  staging : Option Staging
  configWrite : Option ConfigWrite
  configQueue : List ConfigWrite
  /-- the configuration slot in use as N of R427, and its commit SEQ -/
  currentB : Bool
  jtag : Bool
deriving DecidableEq, Repr

/-- What the module holds of the configuration image besides registers (R428). -/
structure Image where
  serial : Nat
  diagAccess : Bool
  powerLimitW : Nat
  spareUe : Nat
  spareCe : Nat
  bayRate : Nat
  slackIdleMs : Nat
  tideRef : Nat
  tideStartNs : Nat
  domainEpoch : Nat
  clkSpread : Bool
  /-- the TOPOLOGY value; none: the built-in topology (R425) -/
  topology : Option (List Byte)
  /-- the DISABLED field's bits -/
  disabled : Nat
  calVoltage : List Byte
  calSensors : List Byte
  /-- the O fields' values the installer layer gives, against which COMMIT compares (R431) -/
  installerValues : Tab Nat
deriving DecidableEq, Repr

/-- Supply, start and Slack (spec/15, 18, 19). -/
structure Sys where
  vin : Bool
  powerGood : Bool
  standby : Bool
  faultPin : Bool
  /-- ns since power good -/
  upNs : Nat
  perst : Bool
  /-- the size of BAR2 as the host programmed it: 2^bar2Log2 bytes, 30-36 (R403) -/
  bar2Log2 : Nat
  /-- the start step that runs, 1-6; 7 once Ready; 0 before power good or after a failed step -/
  startStep : Nat
  ready : Bool
  readyAt : Nat
  /-- PCI_SLACK.STATE: 0 awake, 1 entering, 2 Slack, 3 waking -/
  slack : Nat
  slackTide : Nat
  wakePending : Bool
  slackRefused : Bool
  /-- the host link was reset, and neither pair 0 nor the events' vector has been enabled since (R419) -/
  resumeOwed : Bool
  /-- Tide from which the module has been idle, for SLACK_IDLE_MS -/
  idleFrom : Option Nat
  noUpPortFrom : Option Nat
deriving DecidableEq, Repr

/-- A registered hint window, in Tide of the half that fired it, its LEVEL, and whether it is open (R460, R461). -/
structure HintWindow where
  half : HalfId
  start : Nat
  stop : Nat
  level : Nat
  opened : Bool
deriving DecidableEq, Repr

/-- Power and heat besides the registers (spec/18_power_heat_and_supply.md). Energies are in nJ; a window's mean power of 1 mW is 2 nJ. -/
structure Power where
  /-- the correction of the static term (R457), in nJ of a window -/
  correction : Int
  hints : List HintWindow
  /-- the running remainder of L (R459), a fraction -/
  remNum : Nat
  remDen : Nat
  /-- R of R461, in 64ths, and the time since its last step in ns -/
  ramp : Nat
  rampNs : Nat
  /-- the sum of EST_W and the number of windows since the last meter comparison -/
  estSum : Nat
  estCount : Nat
  /-- metered input energy in 0.1 mJ, and energy attributed to no job -/
  meter : Nat
  idle : Nat
  /-- energy of undecided steps by 2^32 × slot + step, and of the last decided step by slot (R468) -/
  cur : Tab Nat
  last : Tab (Nat × Nat)
  /-- the time at which THROTTLING was set, and the throttled time before it -/
  throttleSince : Option Nat
  throttleNs : Nat
  /-- the time of the last rise of the thermal limit, or from which Tj has been below 98 °C -/
  coolFrom : Option Nat
  tripAt : Option Nat
  /-- a Tj or a coolant reading has been taken since power good, so that PEAK holds one -/
  seenTj : Bool
  seenCoolant : Bool
  /-- the time of a half's last margin alarm (R465) -/
  alarmA : Option Nat
  alarmB : Option Nat
deriving DecidableEq, Repr

/-- A checkpoint report that the leader accepted (R390). -/
structure CkptReport where
  job : Nat
  step : Nat
  endpoint : Nat
  mark : Nat
  copy0 : Nat
  copy1 : Nat
deriving DecidableEq, Repr

/-- What the module knows of the domain, and the coordinator's, a replica's and the leader's own state (R333-R335, R383-R392). -/
structure Domain where
  /-- rank of the lease holder last heard, 15 none; Tide of its last lease packet -/
  leaseRank : Nat
  leaseHeard : Nat
  /-- Tide of the last lease packet from a candidate of lower rank than the module's own -/
  lowHeard : Nat
  /-- Tide at which both halves were first Locked -/
  lockedAt : Nat
  tL : Option Nat
  holder : Bool
  /-- the module that holds the lease, as last heard -/
  coord : Option Nat
  /-- Tide of the holder's last renewal -/
  renewed : Nat
  /-- the module's own ready report has gone -/
  reported : Bool
  /-- ready reports held, by module number: the payload -/
  reports : Tab (List Byte)
  /-- trays that became ready after the census, in order -/
  latePool : List Nat
  /-- trays of the roster -/
  roster : List Nat
  /-- trays that this module's endpoints have marked lost -/
  lost : List Nat
  /-- journal replica: records by SEQ -/
  journal : Tab (List Byte)
  /-- at the leader: the modules that hold each record -/
  held : Tab (List Nat)
  nextJournal : Nat
  /-- a takeover waits for these replicas to be read -/
  reading : Option (List Nat)
  /-- Tide from which the leader may answer a query with a new REPEAT (R388) -/
  leadsFrom : Nat
  /-- at the leader: the endpoints that have acknowledged an action record -/
  acks : Tab (List Nat)
  /-- at the leader: endpoints owed a message when a record is durable: its SEQ, the endpoint, and the message's OP + 256 × the run -/
  owed : List (Nat × Nat × Nat)
  /-- Tide of the module's last heartbeat -/
  beatSent : Nat
  /-- at the leader: Tide of the last tray heartbeat, by tray -/
  trayBeat : Tab Nat
  /-- at the tray reporter: the last heartbeat of each module of the tray, with its Tide -/
  moduleBeat : Tab (Nat × List Byte)
  /-- at the leader: the jobs bound on each tray, as heartbeats told -/
  trayJobs : Tab (List Nat)
  failedTrays : List Nat
  revokingLenders : List Nat
  /-- at the leader: records not acted on yet, for want of a second replica or of their turn (R386) -/
  unacted : List Nat
  checkpoints : List CkptReport
  /-- job, step and lowest endpoint named in late reports -/
  lateReports : List (Nat × Nat × Nat)
  /-- ABORT records that wait for a slot to be Disabled: slot, half and record -/
  aborting : List (Nat × HalfId × List Byte)
deriving DecidableEq, Repr

/-- Something that has left the module. -/
inductive Out where
  /-- a packet by an exit of a half: 0-8 ports, 9 Isthmus, 14 this half's own endpoint -/
  | packet (h : HalfId) (exit : Nat) (p : Packet)
  /-- a PCIe read of host memory, for a Mainland object or its commit record -/
  | hostRead (addr len : Nat)
  /-- an MSI-X message -/
  | msix (vec : Nat)
  /-- a link control word that returns an ACK or a NAK, or asks for a retrain -/
  | control (h : HalfId) (exit : Nat) (w : Word)
  /-- the completion of a configuration or BAR2 read; none: Completer Abort -/
  | completion (data : Option (List Byte))
  /-- the response to a Zilsy command -/
  | reply (c : Channel) (status detail : Nat) (data : List Byte)
deriving DecidableEq, Repr

/-- The block's state: everything but the queue of waiting commands. -/
structure Block where
  halfA : Half
  halfB : Half
  regs : Tab Word
  /-- the bytes of the local space that are not what an unlisted address reads as, each as its difference from it (Block.rest) -/
  mem : List Host.Cell
  /-- frames of Bay whose unlisted bytes hold the pattern of the test that training ends with, by their first address (R245); the listed
  bytes of `mem` are the difference from it -/
  fill : List Nat
  /-- granules that hold an uncorrectable error (R228), by their first address -/
  bad : Tab Nat
  /-- host memory by IOVA, as far as the module wrote it or the host announced it -/
  hostMem : List Host.Cell
  slots : List JobSlot
  pairs : List QueuePair
  sys : Sys
  image : Image
  flash : Flash
  zilsy : Zilsy
  power : Power
  domain : Domain
  out : List Out
  /-- the model's own field, not the spec's: which free value is drawn next (log entry 6) -/
  freeCounter : Nat
deriving DecidableEq, Repr

/-- The state of the model: the block and the queue of waiting commands, first in first out. -/
structure State where
  block : Block
  pending : List Instr
deriving DecidableEq, Repr


/-! ## Reset (the Reset columns of spec/, INVENTORY.md; the choices are log entries 1 and 2) -/

/-- The tiers of a half at reset: nothing allocated. -/
def Tiers.reset : Tiers :=
  { frames := [], cursor := 0, objects := [], window := { st := 0, frames := [], tEnd := 0, dir := [] }, revoking := [],
    mainland := [], tags := [], nextTag := 0, waiting := [] }

/-- An untrained link. -/
def Port.reset : Port :=
  { st := 0, cause := 0, linkClass := 0, spareUsed := false, spareFor := 0, nbrEndpoint := 0, nbrPort := 0, asym := 0,
    attempted := false, trained := false, retraining := false, replay := [], sendSeq := 0, recvSeq := 0,
    credits := [0, 0, 0, 0, 0, 0], queue := [], nbrLocked := false, nbrDepth := 0 }

/-- A half at reset. -/
def Half.reset : Half :=
  { graphs := [], waiting := [], submitted := 0, tokens := [], funcs := [], shapes := [], tiers := Tiers.reset,
    engines := [],
    harbour := { streams := [], units := [], mergeKey := none, mergeTable := [], mergeUsers := [] },
    efing := { ports := List.replicate 10 Port.reset, holds := [], arrived := [], seqTx := [], seqRx := [], gapLogged := [], parts := [], census := 0 },
    tide := { now := 0, frac := 0, running := false, slew := 0, good := 0, lastExchange := 0, everLocked := false, parent := none, synced := false,
              holdoverFrom := none, clk10m := false },
    steps := [], repeatHeaders := [], early := [], refresh := [], cool := [none, none, none] }

/-- A Disabled job slot. -/
def JobSlot.reset : JobSlot :=
  { st := 0, job := 0, deadline := 0, aborted := 0, pages := [], experts := [[], []], ranks := [[], []], plans := [[], []] }

/-- A disabled queue pair. -/
def QueuePair.reset : QueuePair :=
  { enabled := false, job := 0, vec := 0, sqLog2 := 0, cqLog2 := 0, coalUs := 0, coalCount := 0, sqHead := 0, sqTail := 0,
    cqTail := 0, cqPhase := true, cqHeld := 0, cqHead := 0, fetched := none, held := false, unsignalled := 0, firstUnsignalled := 0 }

/-- The flash as manufactured (DESIGN CHOICE, log entry 2): one firmware image in slot A, one configuration slot with
a factory layer alone, its commit record, no keys but the maker's, empty log and audit area. -/
def Flash.reset : Flash :=
  { firmwareA := some { gen := 0, signed := true, svn := 0, raiseFloor := false, image := [] }, firmwareB := none,
    slotA := some { gen := 1, crc := 0, headerOk := true,
                    factory := some { keyId := 0xFFFFFFFFFFFFFFFF, reserved := List.replicate 48 0,
                                      records := [(0x0101, List.replicate 15 0 ++ [1]), (0x0104, List.replicate 112 0)],
                                      signature := List.replicate 3373 0, verifies := true },
                    installer := none, operator := none },
    slotB := none, commit0 := none, commit1 := some { seq := 1, slotB := false, slotCrc := 0, tide := 0 }, keys := [], log := [], printed := [], audit := [], repair := [],
    identity := Config.identityKeys, certificate := (List.range 5373).map (fun i => BitVec.ofNat 8 (Config.certificateByte i)), trimA := 0, trimB := 0 }

/-- The module with no supply. -/
def Block.reset : Block :=
  { halfA := Half.reset, halfB := Half.reset, regs := [], mem := [], fill := [], bad := [], hostMem := [],
    slots := List.replicate 16 JobSlot.reset, pairs := List.replicate 64 QueuePair.reset,
    sys := { vin := false, powerGood := false, standby := false, faultPin := false, upNs := 0, perst := false, bar2Log2 := 30,
             startStep := 0, ready := false, readyAt := 0, slack := 0, slackTide := 0, wakePending := false,
             slackRefused := false, resumeOwed := false, idleFrom := none, noUpPortFrom := none },
    image := { serial := 0, diagAccess := false, powerLimitW := 1800, spareUe := 1, spareCe := 4096, bayRate := 0,
               slackIdleMs := 0, tideRef := 0, tideStartNs := 0, domainEpoch := 0, clkSpread := true, topology := none, disabled := 0,
               calVoltage := [], calSensors := [], installerValues := [] },
    flash := Flash.reset,
    zilsy := { up := false, started := 0, resets := 0, fwSlotB := false, lost := 0, merging := [],
               queuedA := [], queuedB := [], nonces := [], staging := none, configWrite := none, configQueue := [],
               currentB := false, jtag := false },
    power := { correction := 0, hints := [], remNum := 0, remDen := 1, ramp := 0, rampNs := 0, estSum := 0, estCount := 0, meter := 0,
               idle := 0, cur := [], last := [], throttleSince := none, throttleNs := 0, coolFrom := none, tripAt := none, seenTj := false,
               seenCoolant := false, alarmA := none, alarmB := none },
    domain := { leaseRank := 15, leaseHeard := 0, lowHeard := 0, lockedAt := 0, tL := none, holder := false, coord := none, renewed := 0, reported := false,
                reports := [], latePool := [], roster := [], lost := [], journal := [], held := [], nextJournal := 0, reading := none,
                leadsFrom := 0, acks := [], owed := [], beatSent := 0, trayBeat := [], moduleBeat := [], trayJobs := [], failedTrays := [],
                revokingLenders := [], unacted := [], checkpoints := [], lateReports := [], aborting := [] },
    out := [], freeCounter := 0 }

/-- The module right after reset: no supply, every register at its Reset column, no command waiting. -/
def State.reset : State := { block := Block.reset, pending := [] }

/-- Why a step stops with a fault. No meaning of this model raises one: the spec gives every command an effect. -/
inductive Fault where
  /-- an access to a local address that the spec says holds no memory (R198), made by a command that no rule lets
  fail otherwise; safe -/
  | noMemory (addr : Nat)
deriving DecidableEq, Repr

/-- Why a command is refused. -/
inductive Refusal where
  /-- the command has no meaning yet; safe -/
  | notModelled (mnemonic : String)
deriving DecidableEq, Repr

end Sys2Proof.Machine
end

