-- ==== Sys2Proof/Machine/Ops.lean ====
section
/-! DEFINITION. The named operations over tables, registers and memory that every meaning shares. -/

namespace Sys2Proof.Machine

/-! ## Tables -/

/-- The value listed at a key. -/
def tabFind {α : Type} : Tab α → Nat → Option α
  | [], _ => none
  | (k, v) :: t, i => if k = i then some v else tabFind t i

/-- The value at a key, or the default that an unlisted key reads as. -/
def tabGet {α : Type} (d : α) (t : Tab α) (i : Nat) : α := (tabFind t i).getD d

/-- List a value at a key, in order. -/
def tabPut {α : Type} : Tab α → Nat → α → Tab α
  | [], i, x => [(i, x)]
  | (k, v) :: t, i, x => if k = i then (i, x) :: t else if i < k then (i, x) :: (k, v) :: t else (k, v) :: tabPut t i x

/-- Unlist a key. -/
def tabDel {α : Type} (t : Tab α) (i : Nat) : Tab α := t.filter (fun e => !(e.1 == i))

/-- Set a key, keeping the canonical form: a value equal to the default is not listed. -/
def tabSet {α : Type} [DecidableEq α] (d : α) (t : Tab α) (i : Nat) (x : α) : Tab α :=
  if x = d then tabDel t i else tabPut t i x

/-- The canonical form of a table: keys strictly rising, no entry equal to the default. -/
def tabWf {α : Type} [DecidableEq α] (d : α) : Tab α → Bool
  | [] => true
  | [(_, v)] => decide (v ≠ d)
  | (k, v) :: (k', v') :: t => decide (v ≠ d) && decide (k < k') && tabWf d ((k', v') :: t)

/-- The first key from `lo` up that a table does not list, looking at most `fuel` keys on. -/
def tabFree {α : Type} (t : Tab α) : Nat → Nat → Option Nat
  | 0, _ => none
  | fuel + 1, i => match tabFind t i with
    | none => some i
    | some _ => tabFree t fuel (i + 1)

/-- Apply a function to the element at an index of a list. -/
def listMod {α : Type} (l : List α) (i : Nat) (f : α → α) : List α :=
  match l, i with
  | [], _ => []
  | x :: xs, 0 => f x :: xs
  | x :: xs, i + 1 => x :: listMod xs i f

/-- An element placed in a sorted list, before the first that it may stand before. -/
def insertBy {α : Type} (le : α → α → Bool) (x : α) : List α → List α
  | [] => [x]
  | y :: ys => if le x y then x :: y :: ys else y :: insertBy le x ys

/-- A list sorted. -/
def sortBy {α : Type} (le : α → α → Bool) : List α → List α
  | [] => []
  | x :: xs => insertBy le x (sortBy le xs)

/-! ## Fields -/

/-- The mask of bits `hi` to `lo`. -/
def mask (hi lo : Nat) : Nat := (2 ^ (hi + 1 - lo) - 1) <<< lo

/-- Bits `hi` to `lo` of a word. -/
def fld (w : Word) (hi lo : Nat) : Nat := bits w.toNat hi lo

/-- A word with bits `hi` to `lo` replaced by `v`. -/
def setFld (w : Word) (hi lo v : Nat) : Word :=
  let m : Word := BitVec.ofNat 64 (mask hi lo)
  (w &&& ~~~ m) ||| (BitVec.ofNat 64 (v <<< lo) &&& m)

/-- A count in bits `hi` to `lo` raised by `n`, saturating. -/
def satAdd (w : Word) (hi lo n : Nat) : Word :=
  let top := 2 ^ (hi + 1 - lo) - 1
  setFld w hi lo (if fld w hi lo + n > top then top else fld w hi lo + n)

/-! ## Halves -/

/-- A half's number (R11). -/
def halfNum : HalfId → Nat
  | .a => 0
  | .b => 1

/-- The half of a number. -/
def halfOf (n : Nat) : HalfId := if n % 2 = 0 then .a else .b

/-- The other half. -/
def otherHalf : HalfId → HalfId
  | .a => .b
  | .b => .a

/-- A half's state. -/
def Block.half (b : Block) : HalfId → Half
  | .a => b.halfA
  | .b => b.halfB

/-- A block with a half replaced. -/
def Block.setHalf (b : Block) (h : HalfId) (x : Half) : Block :=
  match h with
  | .a => { b with halfA := x }
  | .b => { b with halfB := x }

/-- A block with one half changed. -/
def Block.modHalf (b : Block) (h : HalfId) (f : Half → Half) : Block := b.setHalf h (f (b.half h))

/-- A block with its supply and start changed. -/
def Block.setSys (b : Block) (x : Sys) : Block := { b with sys := x }

/-- A block with its image settings changed. -/
def Block.setImage (b : Block) (x : Image) : Block := { b with image := x }

/-- A block with its flash changed. -/
def Block.setFlash (b : Block) (x : Flash) : Block := { b with flash := x }

/-- A block with its Zilsy changed. -/
def Block.setZilsy (b : Block) (x : Zilsy) : Block := { b with zilsy := x }

/-- A block with its power state changed. -/
def Block.setPower (b : Block) (x : Power) : Block := { b with power := x }

/-- A block with what it knows of the domain changed. -/
def Block.setDomain (b : Block) (x : Domain) : Block := { b with domain := x }

/-- The half's Tide value (R8, R326). -/
def Block.tide (b : Block) (h : HalfId) : Nat := (b.half h).tide.now

/-! ## Register addresses -/

/-- B_h (R76). -/
def regBase (h : HalfId) : Nat := 0x40000000 + halfNum h * 0x2000000

/-- A Saffron register of a half (R54). -/
def safReg (h : HalfId) (off : Nat) : Nat := regBase h + 0x100000 + off

/-- A matrix register of core `n` (R113, R141, R196). -/
def mxReg (n off : Nat) : Nat := 0x61000000 + n * 0x1000 + off

/-- A vector or attention register of core `n` (R176). -/
def vxReg (n off : Nat) : Nat := 0x65000000 + n * 0x1000 + off

/-- A stall counter (R55): engine 0 matrix, 1 vector, 2 gather; cause 0-15, 16 IDLE. -/
def stallReg (n e c : Nat) : Nat := 0x60000000 + n * 0x1000 + e * 0x100 + 8 * c

/-- A KV register of a half (R176). -/
def kvReg (h : HalfId) (off : Nat) : Nat := regBase h + 0x1C20000 + off

/-- A tier register of a half (R232). -/
def tierReg (h : HalfId) (off : Nat) : Nat := regBase h + 0x1C40000 + off

/-- A Shelf register of a half (R250). -/
def shelfReg (h : HalfId) (off : Nat) : Nat := regBase h + 0x1C50000 + off

/-- A Bay register of a half (R251). -/
def bayReg (h : HalfId) (off : Nat) : Nat := regBase h + 0x1C60000 + off

/-- A per-channel register of a half (R252): 0-127 Shelf, 128-159 Bay. -/
def chanReg (h : HalfId) (ch off : Nat) : Nat := regBase h + 0x1D00000 + ch * 0x100 + off

/-- A video register of a half (R279). -/
def vidReg (h : HalfId) (off : Nat) : Nat := regBase h + 0x1C70000 + off

/-- An image, sound or text register of a half (R305). -/
def inReg (h : HalfId) (off : Nat) : Nat := regBase h + 0x1C80000 + off

/-- An Efing register of a half (R339). -/
def efReg (h : HalfId) (off : Nat) : Nat := regBase h + 0x1C90000 + off

/-- A Tide register of a half (R340). -/
def tideReg (h : HalfId) (off : Nat) : Nat := regBase h + 0x1CA0000 + off

/-- A collective register of a half (R367). -/
def colReg (h : HalfId) (off : Nat) : Nat := regBase h + 0x1CB0000 + off

/-- A gate register of a half (R398). -/
def gateReg (h : HalfId) (off : Nat) : Nat := regBase h + 0x1CC0000 + off

/-- A PCI_ register (R401, R420). -/
def pciReg (off : Nat) : Nat := 0x44000000 + off

/-- A register of queue pair `q` (R421). -/
def pairReg (q off : Nat) : Nat := 0x44001000 + 0x40 * q + off

/-- A doorbell of queue pair `q` (R421). -/
def doorbell (q off : Nat) : Nat := 0x44010000 + q * 0x1000 + off

/-- A configuration register (R433). -/
def cfgReg (off : Nat) : Nat := 0x45000000 + off

/-- A Zilsy register (R455, R488). -/
def zilReg (off : Nat) : Nat := 0x46000000 + off

/-- A power register (R473). -/
def pwrReg (off : Nat) : Nat := 0x47000000 + off

/-! ## Register rows -/

/-- A run of registers of one kind: `count` of them, `stride` apart, `copies` runs `copyStride` apart (halves, cores or
slots). The four masks are the bits of each access code (R6), `maker` says that the maker role alone writes it, and
`noMaker` that the maker role does not (R7, R443). `ranges` are the field ranges a write must respect. -/
structure RegRow where
  base : Nat
  copies : Nat
  copyStride : Nat
  count : Nat
  stride : Nat
  reset : Word
  rw : Nat
  w1c : Nat
  rwi : Nat
  wo : Nat
  ranges : List (Nat × Nat × Nat × Nat)
deriving DecidableEq, Repr

/-- Whether a row holds the register at an address. -/
def RegRow.has (r : RegRow) (a : Nat) : Bool :=
  decide (r.base ≤ a) && (let o := a - r.base
    (decide (o / r.copyStride < r.copies)) && (let p := o % r.copyStride
      decide (p % r.stride = 0) && decide (p / r.stride < r.count)))

/-- A read-only row. -/
def roRow (base copies copyStride count stride : Nat) (reset : Word := 0) : RegRow :=
  { base := base, copies := copies, copyStride := copyStride, count := count, stride := stride, reset := reset,
    rw := 0, w1c := 0, rwi := 0, wo := 0, ranges := [] }

/-- A row of registers that are the same on both halves but for the base. -/
def halfRow (off count stride : Nat) (reset : Word) (rw w1c rwi wo : Nat) (ranges : List (Nat × Nat × Nat × Nat) := []) :
    RegRow :=
  { base := 0x40000000 + off, copies := 2, copyStride := 0x2000000, count := count, stride := stride, reset := reset,
    rw := rw, w1c := w1c, rwi := rwi, wo := wo, ranges := ranges }

/-- A row of one module register. -/
def modRow (base count stride : Nat) (reset : Word) (rw w1c rwi wo : Nat) (ranges : List (Nat × Nat × Nat × Nat) := []) :
    RegRow :=
  { base := base, copies := 1, copyStride := 0x1000000, count := count, stride := stride, reset := reset,
    rw := rw, w1c := w1c, rwi := rwi, wo := wo, ranges := ranges }

/-- The whole word. -/
def all64 : Nat := 0xFFFFFFFFFFFFFFFF

/-- The Saffron registers (R54) and stall counters (R55). The shape registers are `Half.shapes`. -/
def safRows : List RegRow :=
  [ halfRow 0x100000 1 8 0x80000 0 0 0 0,
    halfRow 0x100008 1 8 0x4C4B40 (mask 29 0) 0 0 0 [(29, 0, 100000, 1000000000)],
    halfRow 0x100010 1 8 0xF4240 (mask 29 0) 0 0 0,
    halfRow 0x100018 2 8 0 0 all64 0 0,
    halfRow 0x100028 1 8 0 0 0 0 (mask 16 0),
    halfRow 0x100030 1 8 0 0 0 0 1,
    halfRow 0x100040 64 8 0 (mask 19 0) 0 0 0,
    halfRow 0x100300 2 8 0 0 0 0 0,
    halfRow 0x100400 16 16 0 (mask 12 0) 0 0 0,
    halfRow 0x100408 16 16 0 0 0 0 0,
    halfRow 0x100600 16 8 0 all64 0 0 0,
    halfRow 0x108000 4096 8 0 (mask 19 0) 0 0 0,
    roRow 0x60000000 80 0x1000 17 8, roRow 0x60000100 80 0x1000 17 8, roRow 0x60000200 80 0x1000 17 8 ]

/-- Statistics, policy, matrix, expert, vector, KV and convolution registers (R76, R113, R141, R176, R196). -/
def engineRows : List RegRow :=
  [ halfRow 0x1000000 524288 8 0 0 0 0 0,
    halfRow 0x1800000 65536 16 0 all64 0 0 0,
    halfRow 0x1800008 65536 16 0x80010 (mask 23 8 ||| 0x1F) 0 0 0,
    halfRow 0x1C00000 1 8 0 0 all64 0 0,
    roRow 0x61000000 80 0x1000 3 8,
    { roRow 0x61000018 80 0x1000 1 8 with wo := 3 },
    roRow 0x61000020 80 0x1000 2 8,
    roRow 0x61000030 80 0x1000 2 8,
    roRow 0x61000040 80 0x1000 4 8,
    roRow 0x61000060 80 0x1000 2 8,
    halfRow 0x1C10000 16 16 0 (mask 63 12 ||| 1) 0 0 0,
    halfRow 0x1C10008 16 16 0 0 0 0 0,
    halfRow 0x1C10100 1 8 0 0 all64 0 0,
    roRow 0x65000000 80 0x1000 6 8,
    halfRow 0x1C20000 16 16 0 (mask 47 16) 0 0 0,
    halfRow 0x1C20008 16 16 0 (mask 55 0) 0 0 0,
    halfRow 0x1C20100 1 8 0 0 0 0 0xF,
    halfRow 0x1C20108 1 8 0 0 all64 0 0,
    halfRow 0x1C20110 1 8 4 0xF 0 0 0,
    halfRow 0x1C30000 1 8 0 0 (mask 31 0) 0 0,
    halfRow 0x1C30100 1 8 0 0 all64 0 0 ]

/-- The tier, Shelf, Bay and channel registers (R232, R250-R252). -/
def tierRows : List RegRow :=
  [ halfRow 0x1C40000 1 8 0 0 0 3 0,
    halfRow 0x1C40008 1 8 0 0 0 0 0,
    halfRow 0x1C40010 1 8 0x30D40 (mask 26 0) 0 0 0 [(26, 0, 10000, 100000000)],
    halfRow 0x1C40018 1 8 0x400 (mask 12 0) 0 0 0 [(12, 0, 256, 4096)],
    halfRow 0x1C40020 1 8 0x400000000000 0 0 0 0,
    halfRow 0x1C40028 2 8 0 0 all64 0 0,
    halfRow 0x1C40038 1 8 0x100 (mask 15 0) 0 0 0,
    halfRow 0x1C40040 1 8 0 0 0 (mask 8 0) 0,
    halfRow 0x1C40048 1 8 0 0 0 0 1,
    halfRow 0x1C40050 1 8 0 0 0 0 0,
    halfRow 0x1C40058 1 8 0 0 all64 0 0,
    halfRow 0x1C40080 16 8 0 (mask 48 32 ||| mask 11 0) 0 0 0 [(48, 32, 0, 126976), (11, 0, 0, 4014)],
    halfRow 0x1C40100 16 8 0 0 0 0 0,
    halfRow 0x1C40200 1 8 0 (mask 59 0) 0 0 0,
    halfRow 0x1C40208 1 8 0 (mask 47 0) 0 0 0,
    halfRow 0x1C40210 1 8 0 all64 0 0 0,
    halfRow 0x1C40218 1 8 0 0 0 0 (mask 13 0),
    halfRow 0x1C50000 1 8 0 0 0 0 0,
    halfRow 0x1C50008 1 8 0x100000E10 (mask 32 0) 0 0 0 [(31, 0, 60, 86400)],
    halfRow 0x1C50010 1 8 0 0 0 0 0,
    halfRow 0x1C60000 2 8 0 0 0 0 0,
    halfRow 0x1C60010 1 8 0 0 all64 0 0,
    halfRow 0x1C60018 1 8 0x402 0 0 (mask 15 0) 0 [(15, 8, 0, 8), (7, 0, 1, 255)],
    halfRow 0x1D00000 160 256 0 0 0 0 7,
    halfRow 0x1D00008 160 256 0 (mask 63 28) 0 0 0,
    halfRow 0x1D00010 160 256 0 (mask 59 0) 0 0 0,
    halfRow 0x1D00018 160 256 0 0 0 0 0,
    halfRow 0x1D00020 160 256 0 0 0 0 0,
    halfRow 0x1D00028 160 256 0 0 (mask 63 48 ||| mask 31 0) 0 0,
    halfRow 0x1D00030 160 256 0 0 0 0 0,
    halfRow 0x1D00038 160 256 0 0 0 0 0 ]

/-- The Harbour, Efing, Tide, collective and gate registers (R279, R305, R339, R340, R367, R368, R398). -/
def linkRows : List RegRow :=
  [ halfRow 0x1C70000 1 8 0 0 0 0 0,
    halfRow 0x1C70008 3 8 0x20002000 0 0 (mask 29 16 ||| mask 13 0) 0 [(29, 16, 16, 8192), (13, 0, 16, 8192)],
    halfRow 0x1C70020 2 8 0 0 all64 0 0,
    halfRow 0x1C70100 9 8 0 0 0 0 0,
    halfRow 0x1C71000 512 8 0 0 0 0 0,
    halfRow 0x1C80000 2 8 0x20002000 0 0 (mask 29 16 ||| mask 13 0) 0 [(29, 16, 1, 8192), (13, 0, 1, 8192)],
    halfRow 0x1C80010 1 8 0x258 0 0 (mask 15 0) 0 [(15, 0, 1, 65535)],
    halfRow 0x1C80018 1 8 0x1000000 0 0 (mask 26 0) 0 [(26, 0, 1, 67108864)],
    halfRow 0x1C80020 1 8 0 0 all64 0 0,
    halfRow 0x1C80028 1 8 0 0 0 0 0,
    halfRow 0x1C80100 18 8 0 0 0 0 0,
    halfRow 0x1C90000 1 8 0 0 0 0 0,
    halfRow 0x1C90008 1 8 0x800004E20 (mask 39 0) 0 0 0 [(39, 32, 1, 255), (31, 0, 5000, 1000000)],
    halfRow 0x1C90010 1 8 0xF4240 (mask 29 0) 0 0 0 [(29, 0, 100000, 10000000)],
    halfRow 0x1C90018 2 8 0 0 all64 0 0,
    halfRow 0x1C90040 6 8 0 0 0 0 0,
    halfRow 0x1C90100 9 0x20 0 0 0 0 0,
    halfRow 0x1C90108 9 0x20 0 0 all64 0 0,
    halfRow 0x1C98000 16384 1 0xFF 0 0 0 0,
    halfRow 0x1CA0000 3 8 0 0 0 0 0,
    halfRow 0x1CA0018 1 8 0x5F5E100 (mask 29 0) 0 0 0 [(29, 0, 10000000, 1000000000)],
    halfRow 0x1CA0020 3 8 0 0 0 0 0,
    halfRow 0x1CB0000 32 8 0 (mask 63 50 ||| mask 48 12) 0 0 0,
    halfRow 0x1CB0100 16 8 0 0 0 0 0,
    halfRow 0x1CB0180 16 8 2 (mask 63 52 ||| 0xF) 0 0 0 [(63, 52, 1, 4095), (3, 0, 1, 8)],
    halfRow 0x1CB0200 1 8 0 0 all64 0 0,
    halfRow 0x1CB0208 1 8 0 0 0 0 0,
    halfRow 0x1CB0240 6 8 0 0 0 0 0,
    halfRow 0x1400000 65536 8 0 0 0 0 0,
    halfRow 0x1CC0000 1 8 0x30D4003E8138800 (mask 63 8) 0 0 0
      [(63, 40, 1000, 10000000), (39, 24, 100, 60000), (23, 8, 100, 60000)],
    halfRow 0x1CC0008 1 8 0 0 all64 0 0,
    halfRow 0x1CC0010 1 8 0 0 0 0 0,
    halfRow 0x1CC0080 16 8 1 7 0 0 0 [(2, 0, 1, 4)],
    halfRow 0x1CC0100 16 16 0x4780000018000000 (mask 63 16 ||| 1) 0 0 0,
    halfRow 0x1CC0108 16 16 0x7D00000 (mask 31 0) 0 0 0 [(31, 16, 1, 65535)],
    halfRow 0x1CC0200 16 8 0xFFFF00 0 0 0 0,
    halfRow 0x1CC0300 64 8 0 0 0 0 0 ]

/-- The module registers: host link, queue pairs, MSI-X, configuration, Zilsy and power (R401, R420, R421, R433, R455,
R473, R488). The MSI-X entries are masked at reset (PRESUMED, log entry 5). -/
def moduleRows : List RegRow :=
  [ modRow 0x44000000 1 8 1 0 0 0 0,
    modRow 0x44000008 2 8 0 0 0 0 0,
    modRow 0x44000018 1 8 0 (mask 9 0) 0 0 0,
    modRow 0x44000020 1 8 0x200000000 (mask 47 30) 0 0 0,
    modRow 0x44000028 1 8 0 (mask 55 48) (mask 5 0) 0 0,
    modRow 0x44000030 1 8 0 0 0 0 3,
    modRow 0x44000038 2 8 0 0 0 0 0,
    modRow 0x44000048 1 8 0 0 all64 0 0,
    modRow 0x44001000 64 0x40 0 (mask 59 12) 0 0 0,
    modRow 0x44001008 64 0x40 0 (mask 59 12) 0 0 0,
    modRow 0x44001010 64 0x40 0 (bits all64 63 63 <<< 63 ||| mask 55 0) 0 0 0,
    modRow 0x44001018 64 0x40 0 0 0 0 0,
    modRow 0x44002000 256 16 0 all64 0 0 0,
    modRow 0x44002008 256 16 0x100000000 (mask 32 0) 0 0 0,
    modRow 0x44003000 4 8 0 0 0 0 0,
    modRow 0x44010000 64 0x1000 0 0 0 0 (mask 15 0),
    modRow 0x44010008 64 0x1000 0 0 0 0 (mask 19 0),
    modRow 0x45000000 2 8 0 0 0 0 0,
    modRow 0x46000000 4 8 0 0 0 0 0,
    modRow 0x46000020 1 8 0 0 0 0 (mask 16 0),
    modRow 0x46000028 4 8 0 0 0 0 0,
    modRow 0x46000100 16 8 0 0 0 0 0,
    modRow 0x46000200 128 8 0 0 0 0 0,
    modRow 0x46010000 2048 8 0 all64 0 0 0,
    modRow 0x47000000 1 8 0x708 (mask 10 0) 0 0 0,
    modRow 0x47000008 1 8 0x400000000000 0 0 0 0,
    modRow 0x47000010 1 8 0x10000000000 0 0 0 0,
    modRow 0x47000018 1 8 0 0 0 0 0,
    modRow 0x47000020 1 8 0x640000_07D000FA all64 0 0 0 [(31, 16, 250, 20000), (15, 0, 250, 20000)],
    modRow 0x47000028 2 8 0 0 0 0 0,
    modRow 0x47000100 16 0x20 0 0 0 0 0,
    modRow 0x47000108 16 0x20 0 0 0 0 0,
    modRow 0x47000110 16 0x20 0 0 0 0 0 ]

/-- Every register row. -/
def regRows : List RegRow := safRows ++ engineRows ++ tierRows ++ linkRows ++ moduleRows

/-- The row that holds an address, if a register stands there. -/
def regRow (a : Nat) : Option RegRow := regRows.find? (fun r => r.has a)

/-- The value of a register at reset (its Reset column); 0 where no register stands. -/
def regReset (a : Nat) : Word := ((regRow a).map (fun r => r.reset)).getD 0

/-- The stored value of a register. -/
def Block.reg (b : Block) (a : Nat) : Word := tabGet (regReset a) b.regs a

/-- A block with a register's stored value set. -/
def Block.setReg (b : Block) (a : Nat) (v : Word) : Block := { b with regs := tabSet (regReset a) b.regs a v }

/-- A block with a register's stored value changed. -/
def Block.modReg (b : Block) (a : Nat) (f : Word → Word) : Block := b.setReg a (f (b.reg a))

/-- A count in a register's bits `hi` to `lo` raised by `n`, saturating. -/
def Block.count (b : Block) (a hi lo n : Nat) : Block := b.modReg a (fun w => satAdd w hi lo n)

/-- A field of a register's stored value. -/
def Block.regFld (b : Block) (a hi lo : Nat) : Nat := fld (b.reg a) hi lo

/-- A block with a register's field set. -/
def Block.setRegFld (b : Block) (a hi lo v : Nat) : Block := b.modReg a (fun w => setFld w hi lo v)

/-! ## Check codes (R489) -/

/-- `n` steps of a shift register, most significant bit first: CRC-64, ECMA-182 form. -/
def crc64Bits : Nat → BitVec 64 → BitVec 64
  | 0, c => c
  | n + 1, c => crc64Bits n (if c.msb then (c <<< 1) ^^^ 0x42F0E1EBA9EA3693#64 else c <<< 1)

/-- CRC-64 of bytes, from an initial value. -/
def crc64From : BitVec 64 → List Byte → BitVec 64
  | c, [] => c
  | c, x :: xs => crc64From (crc64Bits 8 (c ^^^ (x.setWidth 64 <<< 56))) xs

/-- CRC-64 of bytes (R489). -/
def crc64 (l : List Byte) : Nat := (crc64From 0 l).toNat

/-- `n` steps of the reflected CRC-32C register. -/
def crc32Bits : Nat → BitVec 32 → BitVec 32
  | 0, c => c
  | n + 1, c => crc32Bits n (if c.getLsbD 0 then (c >>> 1) ^^^ 0x82F63B78#32 else c >>> 1)

/-- CRC-32C of bytes, from a register value. -/
def crc32From : BitVec 32 → List Byte → BitVec 32
  | c, [] => c
  | c, x :: xs => crc32From (crc32Bits 8 (c ^^^ x.setWidth 32)) xs

/-- CRC-32C of bytes (R489). -/
def crc32c (l : List Byte) : Nat := (crc32From 0xFFFFFFFF#32 l ^^^ 0xFFFFFFFF#32).toNat

/-! ## The local space (R198-R200) -/

/-- What a local address holds. -/
inductive Region where
  | cove (core : Nat)
  | control
  | shelf (h : HalfId)
  | store (h : HalfId)
  | bay (h : HalfId) (ch : Nat)
  | hole
deriving DecidableEq, Repr

/-- The region of a local address, before channels are retired (R198, R200). -/
def regionOf (a : Nat) : Region :=
  if a < 0x28000000 then
    (if a % 0x800000 < 0x600000 then .cove (a / 0x800000) else .hole)
  else if a < 0x40000000 then .hole
  else if a < 0x80000000 then .control
  else if a < 0x200000000 then .hole
  else if a < 0x600000000 then
    (let h := halfOf ((a - 0x200000000) / 0x200000000)
     if (a - 0x200000000) % 0x200000000 < 0x1F5C00000 then .shelf h else .store h)
  else if a < 0x8000000000 then .hole
  else if a < 0x10000000000 then
    (let c := (a - 0x8000000000) / 0x200000000
     if (a - 0x8000000000) % 0x200000000 < 0x1F0000000 then .bay (halfOf (c / 32)) (c % 32) else .hole)
  else .hole

/-- Whether Bay channel `ch` of a half is live (BAY_STAT.LIVE). -/
def Block.bayLive (b : Block) (h : HalfId) (ch : Nat) : Bool := bit (b.reg (bayReg h 0)).toNat (32 + ch)

/-- Whether a local address holds memory now: a retired channel's quarter is a hole (R198). -/
def Block.holds (b : Block) (a : Nat) : Bool :=
  match regionOf a with
  | .cove _ => true
  | .shelf _ => true
  | .store _ => true
  | .bay h ch => b.bayLive h ch
  | .control => false
  | .hole => false

/-- The tier number of a local address (R201). -/
def tierOf (a : Nat) : Nat :=
  match regionOf a with
  | .cove _ => 0
  | .shelf _ => 1
  | .store _ => 1
  | .bay _ _ => 2
  | .control => 0
  | .hole => 0

/-- The half whose memory a local address is. -/
def homeOf (a : Nat) : HalfId :=
  match regionOf a with
  | .cove n => halfOf (n / 40)
  | .shelf h => h
  | .store h => h
  | .bay h _ => h
  | .control => .a
  | .hole => .a

/-- The offset of a local Shelf address from its half's Shelf base. -/
def shelfOffset (a : Nat) : Nat := (a - 0x200000000) % 0x200000000

/-- The Shelf channel of a local Shelf address (R199). -/
def shelfChannel (a : Nat) : Nat := ((shelfOffset a >>> 9) ^^^ (shelfOffset a >>> 16)) % 128

/-- The bank and the row, within its channel, of a local Shelf address (R233). -/
def shelfBank (a : Nat) : Nat := bits (shelfOffset a) 19 16
def shelfRow (a : Nat) : Nat := shelfOffset a / 2 ^ 20

/-- Where a Bay channel keeps the byte at an offset of its quarter (R240). -/
structure BayPlace where
  column : Nat
  bankGroup : Nat
  bank : Nat
  rank : Nat
  row : Nat
deriving DecidableEq, Repr

/-- The device location of a local Bay address (R240). -/
def bayPlace (a : Nat) : BayPlace :=
  let o := a % 0x200000000
  { column := bits o 10 6, bankGroup := bits o 12 11 ^^^ bits o 22 21, bank := bits o 14 13 ^^^ bits o 24 23,
    rank := bits o 15 15 ^^^ bits o 25 25, row := bits o 32 16 }

/-- The local address of the 2 bytes of check bits of a Bay line (R240): they lie in the channel's inline-check area, which no request
reaches. A controller's cache of check lines shows nowhere: it holds what this area holds. -/
def bayCheck (a : Nat) : Nat := a / 0x200000000 * 0x200000000 + 0x1F0000000 + a % 0x200000000 / 64 * 2

/-- The size of the protected word that an address lies in (R227): 4 bytes in Cove, 8 in Shelf, a 64-byte line in Bay. -/
def granule (a : Nat) : Nat :=
  match regionOf a with
  | .cove _ => 4
  | .bay _ _ => 64
  | .shelf _ => 8
  | .store _ => 8
  | .control => 8
  | .hole => 8

/-- The first address of the protected word that an address lies in. -/
def granuleBase (a : Nat) : Nat := a / granule a * granule a

/-- A 32-bit word of a test pattern (R248): the line, counted within the channel, and the word within it; `first` is the first line of the
range. -/
def patternWord (w : Word) (first line i : Nat) : Nat :=
  match fld w 31 28 with
  | 0 => Config.prbs31 (if fld w 63 32 = 0 then 1 else fld w 63 32) (16 * (line - first) + i) % 2 ^ 32
  | 1 => 2 ^ ((line + i) % 32)
  | 2 => if line % 2 = 0 then 0x55555555 else 0xAAAAAAAA
  | _ => (line + i) % 2 ^ 32

/-- The 64 bytes of a line of a test pattern. -/
def patternLine (w : Word) (first line : Nat) : List Byte := (List.range 16).flatMap (fun i => leBytes 4 (patternWord w first line i))

/-- A byte of the pattern that step 8 of Bay training leaves (R245): the one that TG_PATTERN selects at reset (DEDUCED, log entry 28). -/
def trainedByte (a : Nat) : Byte := (leBytes 4 (patternWord 0 0 (a % 0x200000000 / 64) (a % 64 / 4))).getD (a % 4) 0

/-- What an unlisted local byte reads as: the pattern that training left in Bay, elsewhere 0 (DESIGN CHOICE, log entry 9). -/
def Block.rest (b : Block) (a : Nat) : Byte :=
  if a < 0x8000000000 then 0 else if b.fill.contains (a / 0x200000 * 0x200000) then trainedByte a else 0

/-- The byte at a local address. -/
def Block.byte (b : Block) (a : Nat) : Byte := tabGet 0 b.mem a ^^^ b.rest a

/-- The `n` bytes from a local address. -/
def Block.bytes (b : Block) (a n : Nat) : List Byte := (List.range n).map (fun i => b.byte (a + i))

/-- Whether any protected word that `n` bytes from `a` touch holds an uncorrectable error. -/
def Block.rangeBad (b : Block) (a n : Nat) : Bool :=
  (List.range n).any (fun i => (tabFind b.bad (granuleBase (a + i))).isSome)

/-- One byte written, keeping the canonical form. -/
def memPut (m : List Host.Cell) (a : Nat) (x : Byte) : List Host.Cell := tabSet 0 m a x

/-- Bytes written in order from an address, over what unlisted bytes read as. -/
def memPutList (rest : Nat → Byte) (m : List Host.Cell) (a : Nat) : List Byte → List Host.Cell
  | [] => m
  | x :: xs => memPutList rest (memPut m a (x ^^^ rest a)) (a + 1) xs

/-- The protected words that a write of `n` bytes from `a` overwrites whole become good (R228). -/
def heal (bad : Tab Nat) (a n : Nat) : Tab Nat :=
  bad.filter (fun e => !(decide (a ≤ e.1) && decide (e.1 + granule e.1 ≤ a + n)))

/-- Bytes stored at a local address. -/
def Block.store (b : Block) (a : Nat) (l : List Byte) : Block :=
  { b with mem := memPutList b.rest b.mem a l, bad := heal b.bad a l.length }

/-- Bytes stored one by one at the addresses given with them, in order. -/
def Block.storeCells (b : Block) : List Host.Cell → Block
  | [] => b
  | c :: cs => (b.store c.1 [c.2]).storeCells cs

/-- A table whose keys strictly rise. -/
def tabSorted {α : Type} : Tab α → Bool
  | [] => true
  | [_] => true
  | (k, _) :: (k', v') :: t => decide (k < k') && tabSorted ((k', v') :: t)

/-- The canonical form of memory holds: local memory lists no zero, and both lists rise. -/
def Block.memWf (b : Block) : Bool := tabWf 0 b.mem && tabSorted b.hostMem

/-- A byte of host memory: the module knows what it wrote and what the host announced; any other byte is a free value
(log entry 8). -/
def Block.hostByte (b : Block) (a : Nat) : Byte := (tabFind b.hostMem a).getD (Config.hostByte a)

/-- The `n` bytes of host memory from an IOVA. -/
def Block.hostBytes (b : Block) (a n : Nat) : List Byte := (List.range n).map (fun i => b.hostByte (a + i))

/-- Host bytes listed in order from an address. -/
def hostPutList (m : List Host.Cell) (a : Nat) : List Byte → List Host.Cell
  | [] => m
  | x :: xs => hostPutList (tabPut m a x) (a + 1) xs

/-- Bytes written to host memory. -/
def Block.hostStore (b : Block) (a : Nat) (l : List Byte) : Block := { b with hostMem := hostPutList b.hostMem a l }

/-- The bytes that the host is known to have written. -/
def Block.hostAnnounce (b : Block) (l : List (Nat × Byte)) : Block :=
  { b with hostMem := l.foldl (fun m c => tabPut m c.1 c.2) b.hostMem }

/-! ## The event log (R438-R440) -/

/-- Whether a half is Locked (TIDE_STAT.LOCKED). -/
def Block.locked (b : Block) (h : HalfId) : Bool := bit (b.reg (tideReg h 8)).toNat 63

/-- An event to be logged: EVENT, the half, SOURCE's kind and index, and the rest of R438. -/
structure Event where
  event : Nat
  half : HalfId := .a
  kind : Nat := 0
  index : Nat := 0
  job : Nat := 0
  task : Option (Nat × Nat) := none
  status : Nat := 0
  arg0 : Nat := 0
  arg1 : Nat := 0
  severity : Option Nat := none
deriving DecidableEq, Repr

/-- The record of an event, before Zilsy gives it its SEQ. SEVERITY, but where R462 and R463 give it, and ARG2 are given by no rule: free
values of the event code (log entry 10). -/
def Block.eventRecord (b : Block) (e : Event) : LogRecord :=
  { seq := 0, tide := if b.locked e.half then b.tide e.half else b.sys.upNs / 1000000, event := e.event,
    source := halfNum e.half * 0x8000 + e.kind * 0x800 + e.index % 0x800, job := e.job,
    severity := e.severity.getD (Config.logSeverity e.event), unlocked := !(b.locked e.half), count := 1,
    graph := (e.task.map (fun t => t.1)).getD 0, task := (e.task.map (fun t => t.2)).getD 0, status := e.status,
    taskValid := e.task.isSome, arg0 := e.arg0 % 2 ^ 64, arg1 := e.arg1 % 2 ^ 64, arg2 := Config.logArg2 e.event }

/-- The SEQ of the next log record. -/
def Flash.nextLogSeq (f : Flash) : Nat := (f.log.getLast?.map (fun r => r.seq + 1)).getD 0

/-- Append a record to the log: the 64-record sector it opens is erased first (R439), and the UART prints the record (R486). -/
def Flash.appendLog (f : Flash) (r : LogRecord) : Flash :=
  let n := f.nextLogSeq
  let kept := if n % 64 = 0 ∧ 524288 ≤ n then f.log.filter (fun o => decide (n - 524288 + 64 ≤ o.seq)) else f.log
  { f with log := kept ++ [{ r with seq := n }], printed := f.printed ++ [{ r with seq := n }] }

/-- Whether a pending record takes an event's record (R439): the same EVENT, SOURCE and JOB_ID, created within the
preceding second. -/
def merges (now : Nat) (r : LogRecord) (p : Nat × LogRecord) : Bool :=
  decide (p.2.event = r.event) && decide (p.2.source = r.source) && decide (p.2.job = r.job) && decide (now ≤ p.1 + 1000000000)

/-- Raise the first pending record that takes the record; none when none does. -/
def mergeInto (now : Nat) (r : LogRecord) : List (Nat × LogRecord) → Option (List (Nat × LogRecord))
  | [] => none
  | p :: ps => if merges now r p then some ((p.1, { p.2 with count := min (p.2.count + 1) 32767 }) :: ps)
    else (mergeInto now r ps).map (fun q => p :: q)

/-- Zilsy takes a record: one with a task is written at once, another merges or waits out its second (R439). -/
def Block.zilsyLog (b : Block) (r : LogRecord) : Block :=
  if r.taskValid then b.setFlash (b.flash.appendLog r)
  else match mergeInto b.sys.upNs r b.zilsy.merging with
    | some l => b.setZilsy { b.zilsy with merging := l }
    | none => b.setZilsy { b.zilsy with merging := b.zilsy.merging ++ [(b.sys.upNs, r)] }

/-- Log an event (R17, R440). While Zilsy does not answer the half queues up to 1,024 records and loses the rest (R435). -/
def Block.log (b : Block) (e : Event) : Block :=
  let r := b.eventRecord e
  if b.zilsy.up then b.zilsyLog r
  else
    let q := match e.half with
      | .a => b.zilsy.queuedA
      | .b => b.zilsy.queuedB
    if q.length < 1024 then
      b.setZilsy (match e.half with
          | .a => { b.zilsy with queuedA := q ++ [r] }
          | .b => { b.zilsy with queuedB := q ++ [r] })
    else b.setZilsy { b.zilsy with lost := min (b.zilsy.lost + 1) 0xFFFFFF }

/-! ## Status codes (R56) -/

abbrev stOk : Nat := 0x0000
abbrev stOkEmpty : Nat := 0x0001
abbrev stShapeOver : Nat := 0x0101
abbrev stAborted : Nat := 0x0102
abbrev stCancelled : Nat := 0x0103
abbrev stAdmission : Nat := 0x0104
abbrev stDataError : Nat := 0x0201
abbrev stFarLate : Nat := 0x0202
abbrev stFarFail : Nat := 0x0203
abbrev stXlate : Nat := 0x0204
abbrev stKvUnmapped : Nat := 0x0205
abbrev stQuota : Nat := 0x0206
abbrev stStepRepeat : Nat := 0x0301
abbrev stGateClosed : Nat := 0x0302
abbrev stDeadlineLate : Nat := 0x0303
abbrev stInputLimit : Nat := 0x0401
abbrev stInputCorrupt : Nat := 0x0402
abbrev stConcealed : Nat := 0x0403
abbrev stEndpointLost : Nat := 0x0501
abbrev stPermission : Nat := 0x0601
abbrev stSignature : Nat := 0x0602

/-- Whether a status fires the task's tokens (R56). -/
def firesTokens (st : Nat) : Bool := st = stOk || st = stOkEmpty || st = stGateClosed || st = stConcealed

/-- Whether a task's status always has a matching log record (R18). -/
def loggedStatus (st : Nat) : Bool := st = stDataError || st = stEndpointLost || st = stPermission || st = stSignature

/-! ## Roles and refusals (R7, R443) -/

/-- Who makes a change: role 1 operator, 2 installer, 3 maker; the key; whether it came unsigned from the host. -/
structure Actor where
  role : Nat
  keyId : Nat
  viaPcie : Bool
deriving DecidableEq, Repr

/-- The host's requests through BAR0 and BAR2 carry the operator role (R402). -/
def hostActor : Actor := { role := 1, keyId := 0, viaPcie := true }

/-- A refusal for want of a right: logged with ST_PERMISSION (R6, R440). -/
def Block.logPermission (b : Block) (needed keyId : Nat) (job : Nat := 0) : Block :=
  b.log { event := 0x0050, kind := 9, job := job, status := stPermission, arg0 := needed, arg1 := keyId }

/-- A command or write refused or ignored because of state or range (R440, EVENT 0x0003). -/
def Block.logRefused (b : Block) (h : HalfId) (what value : Nat) (status : Nat := 0) (kind index job : Nat := 0) : Block :=
  b.log { event := 0x0003, half := h, kind := kind, index := index, job := job, status := status, arg0 := what, arg1 := value }

/-! ## The audit area (R441, R442) -/

/-- The first 60 bytes of an audit record. -/
def AuditRecord.head (r : AuditRecord) : List Byte :=
  leBytes 8 r.seq ++ leBytes 8 r.tide ++
  leBytes 8 (r.kind * 2 ^ 56 + r.role * 2 ^ 54 + b2n r.viaPcie * 2 ^ 53 + b2n r.recovered * 2 ^ 52 + r.target % 2 ^ 48) ++
  leBytes 8 r.keyId ++ leBytes 8 r.old ++ leBytes 8 r.new ++ leBytes 8 r.detail ++ leBytes 4 r.chain

/-- The 64 bytes of an audit record. -/
def AuditRecord.bytes (r : AuditRecord) : List Byte := r.head ++ leBytes 4 (crc32c r.head)

/-- The first 60 bytes of a log record (R438). -/
def LogRecord.head (r : LogRecord) : List Byte :=
  leBytes 8 r.seq ++ leBytes 8 r.tide ++
  leBytes 8 (r.event % 65536 * 2 ^ 48 + r.source % 65536 * 2 ^ 32 + r.job % 4096 * 2 ^ 20 + r.severity % 16 * 2 ^ 16 +
    b2n r.unlocked * 2 ^ 15 + r.count % 32768) ++
  leBytes 8 (r.graph % 4096 * 2 ^ 52 + r.task % 2 ^ 20 * 2 ^ 32 + r.status % 65536 * 2 ^ 16 + b2n r.taskValid * 2 ^ 15) ++
  leBytes 8 r.arg0 ++ leBytes 8 r.arg1 ++ leBytes 8 r.arg2 ++ leBytes 4 0

/-- The 64 bytes of a log record. -/
def LogRecord.bytes (r : LogRecord) : List Byte := r.head ++ leBytes 4 (crc32c r.head)

/-- CHAIN of the next audit record: CRC-32C of the last one's 64 bytes; no rule gives the first record's (log entry 11). -/
def Flash.auditChain (f : Flash) : Nat := (f.audit.getLast?.map (fun r => crc32c r.bytes)).getD Config.firstChain

/-- A change to be audited. -/
structure Change where
  kind : Nat
  target : Nat := 0
  old : Nat := 0
  new : Nat := 0
  detail : Nat := 0
deriving DecidableEq, Repr

/-- What the audit area says of a change (R442). -/
inductive AuditAnswer where
  | record
  | actLogged
  | refuse
deriving DecidableEq, Repr

/-- Whether a change gets its record, acts with a log record alone, or is refused (R442). -/
def Flash.auditAnswer (f : Flash) (a : Actor) (c : Change) : AuditAnswer :=
  if f.audit.length < 64512 then .record
  else if 0x20 ≤ c.kind ∧ c.kind ≤ 0x23 ∧ a.role = 3 ∧ f.audit.length < 65536 then .record
  else if (c.kind = 0x02 ∧ bit c.new 16) ∨ (c.kind = 0x03 ∧ c.new < c.old) ∨ (c.kind = 0x04 ∧ c.new = 1) ∨ c.kind = 0x05
    then .actLogged
  else .refuse

/-- Write an audit record. -/
def Block.appendAudit (b : Block) (a : Actor) (c : Change) (recovered : Bool := false) : Block :=
  let r : AuditRecord :=
    { seq := b.flash.audit.length, tide := if b.locked .a then b.tide .a else b.sys.upNs / 1000000, kind := c.kind, role := a.role,
      viaPcie := a.viaPcie, recovered := recovered, target := c.target % 2 ^ 48, keyId := a.keyId, old := c.old, new := c.new,
      detail := c.detail, chain := b.flash.auditChain }
  b.setFlash { b.flash with audit := b.flash.audit ++ [r] }

/-- The opcode of the command that makes an audited change of KINDs 0x02 to 0x05 (R447): FUNC 0x0010, POWER_CAP 0x0011, SLACK 0x0012,
RESET_MODULE 0x0013. EVENT 0x0061 names it by whichever path the change comes (DEDUCED from R440, log entry 25). -/
def Change.command (c : Change) : Nat := 0x0E + c.kind

/-- Make an audited change: the record first, the change only after it (R442). The second part says whether it acted. -/
def Block.audited (b : Block) (a : Actor) (c : Change) (f : Block → Block) : Block × Bool :=
  match b.flash.auditAnswer a c with
  | .record => (f (b.appendAudit a c), true)
  | .actLogged => (f (b.log { event := 0x0061, kind := 9, arg0 := c.command }), true)
  | .refuse => (b.logPermission 0 a.keyId, false)

/-! ## What leaves the module -/

/-- Something leaves the module. -/
def Block.emit (b : Block) (o : Out) : Block := { b with out := b.out ++ [o] }

/-- Raise an MSI-X vector; a masked one sets its pending bit (R408). -/
def Block.raise (b : Block) (vec : Nat) : Block :=
  if bit (b.reg (pciReg (0x2008 + 16 * vec))).toNat 32 then
    b.modReg (pciReg (0x3000 + 8 * (vec / 64))) (fun w => w ||| BitVec.ofNat 64 (2 ^ (vec % 64)))
  else b.emit (.msix vec)

/-- Raise a module event: its bit of PCI_EVENT and the events' vector (R408, R420). -/
def Block.moduleEvent (b : Block) (i : Nat) : Block :=
  (b.modReg (pciReg 0x28) (fun w => w ||| BitVec.ofNat 64 (2 ^ i))).raise (b.regFld (pciReg 0x28) 55 48)

/-- Draw the next free value. -/
def Block.fresh (b : Block) : Nat × Block := (Config.freeValue b.freeCounter, { b with freeCounter := b.freeCounter + 1 })

/-- One nanosecond of its oscillator passes in a half: its Tide counter advances at its corrected rate (R326). -/
def TideClock.advance (t : TideClock) : TideClock :=
  let n := t.frac + ((1000000000 : Int) + t.slew).toNat
  { t with now := t.now + n / 1000000000, frac := n % 1000000000 }

/-- One nanosecond passes: while power is good the Tide counters advance, and so does the time since power good. -/
def Block.tick (b : Block) : Block :=
  let adv (x : Half) : Half := if b.sys.powerGood then { x with tide := x.tide.advance } else x
  { b with halfA := adv b.halfA, halfB := adv b.halfB, sys := { b.sys with upNs := b.sys.upNs + b2n (b.sys.powerGood || b.sys.standby) } }

/-- The outcome of a meaning: the effect on the block, the queue as it is. -/
def State.act (s : State) (f : Block → Block) : Host.Outcome State Fault Refusal := .next { s with block := f s.block }

end Sys2Proof.Machine
end

