-- ==== Sys2Proof/Machine/Authority.lean ====
section
/-! DEFINITION. Who may act: keys, nonces, command messages and their answers
(spec/17_zilsy_management_and_roles.md R443-R447; spec/15_host_link_start_and_slack.md R402). -/

namespace Sys2Proof.Machine

/-- The maker's KEY_ID (R444). -/
def makerKey : Nat := 0xFFFFFFFFFFFFFFFF

/-- The role of a signing key: 1 operator, 2 installer, 3 maker; none for a key that is unknown or revoked (R444). -/
def Block.keyRole (b : Block) (keyId : Nat) : Option Nat :=
  if keyId = makerKey then some 3
  else ((b.flash.keys.find? (fun k => k.keyId = keyId && k.active)).map (fun k => k.role))

/-- Whether a message came through the mailbox. -/
def isMailbox : Channel → Bool
  | .mailbox => true
  | .port _ => false

/-- Who a message's key makes its sender: KEY_ID 0 is the operator, through the mailbox alone (R446). -/
def Block.sender (b : Block) (m : Envelope) : Option Actor :=
  if m.keyId = 0 then (if isMailbox m.channel then some hostActor else none)
  else (b.keyRole m.keyId).map (fun r => { role := r, keyId := m.keyId, viaPcie := false })

/-- Whether a nonce is outstanding and at most 10 s old (R446). -/
def Block.nonceLive (b : Block) (n : Nat) : Bool := b.zilsy.nonces.any (fun p => p.1 = n && decide (b.sys.upNs ≤ p.2 + 10000000000))

/-- The sender of a message that passes R446; none for a message that fails. -/
def Block.verify (b : Block) (m : Envelope) : Option Actor :=
  if m.serial = b.image.serial ∧ b.nonceLive m.nonce ∧ (m.keyId = 0 ∨ (m.ed25519Ok ∧ m.mlDsaOk)) then b.sender m else none

/-- A nonce serves one command (R446). -/
def Block.useNonce (b : Block) (n : Nat) : Block :=
  b.setZilsy { b.zilsy with nonces := b.zilsy.nonces.filter (fun p => p.1 ≠ n) }

/-- An answer to a command. -/
structure Answer where
  block : Block
  status : Nat
  detail : Nat := 0
  data : List Byte := []
deriving DecidableEq, Repr

/-- Words stored from a register address. -/
def Block.setWords (b : Block) (a : Nat) : List Word → Block
  | [] => b
  | w :: ws => (b.setReg a w).setWords (a + 8) ws

/-- Bytes as 64-bit words, the last padded with zeros. -/
def toWords : Nat → List Byte → List Word
  | 0, _ => []
  | n + 1, l => if l.isEmpty then [] else BitVec.ofNat 64 (leNat (l.take 8)) :: toWords n (l.drop 8)

/-- Answer a command: the response leaves by its channel; a mailbox response stands in ZIL_MBOX_BUF and ZIL_MBOX_STAT reads done
(R455). How a response is laid out there the spec does not say: the data bytes alone (DESIGN CHOICE, log entry 17). -/
def Block.reply (b : Block) (c : Channel) (status detail : Nat) (data : List Byte) : Block :=
  let b1 := b.emit (.reply c status detail data)
  if isMailbox c then
    (b1.setWords (zilReg 0x10000) (toWords 2048 data)).setReg (zilReg 0x28)
      (BitVec.ofNat 64 (2 * 2 ^ 62 + status % 65536 * 2 ^ 32 + data.length % 2 ^ 17))
  else b1

/-- The answer that leaves. -/
def Answer.sent (a : Answer) (c : Channel) : Block := a.block.reply c a.status a.detail a.data

/-- A refusal by the module's state or a value's range: ST_PERMISSION, logged with EVENT 0x0003 (R447). -/
def Block.refuse (b : Block) (what value : Nat) (detail : Nat := 0) : Answer :=
  { block := b.log { event := 0x0003, kind := 9, status := stPermission, arg0 := what, arg1 := value }, status := stPermission, detail := detail }

/-- A refusal for want of a right (R446, R440). -/
def Block.refuseRole (b : Block) (needed keyId : Nat) : Answer := { block := b.logPermission needed keyId, status := stPermission }

/-- An accepted command with nothing to say but that. -/
def Block.accept (b : Block) : Answer := { block := b, status := stOk }

/-- Whether Zilsy takes a message from a channel (R435, R445): it answers, and the host has given the mailbox its GO (R455 STATE 1), which
executes the message that stands in ZIL_MBOX_BUF. The sender hands that message over parsed (log entry 17). -/
def Block.hears (b : Block) (c : Channel) : Bool := b.zilsy.up && (!(isMailbox c) || b.regFld (zilReg 0x28) 63 62 = 1)

/-- A signed command message (R446): while Zilsy does not take it nothing happens; a message that fails is answered with
ST_SIGNATURE and logged; one whose role lacks the right with ST_PERMISSION; any other is carried out. -/
def Block.command (b : Block) (m : Envelope) (roles : List Nat) (needed : Nat) (f : Actor → Block → Answer) : Block :=
  if ¬ b.hears m.channel then b
  else match b.verify m with
    | none => (b.log { event := 0x0051, kind := 9, status := stSignature, arg0 := 0, arg1 := m.keyId }).reply m.channel stSignature 0 []
    | some a =>
      let b1 := b.useNonce m.nonce
      if roles.contains a.role then (f a b1).sent m.channel else (b1.refuseRole needed a.keyId).sent m.channel

/-- A change that arrives by the host's BAR0 or in a signed command (R402, R446). A BAR0 request carries the operator role; one that
the operator may not make is ignored and logged, and before Ready every write is ignored (R412). -/
def Block.byPath (b : Block) (p : Path) (roles : List Nat) (needed : Nat) (f : Actor → Block → Answer) : Block :=
  match p with
  | .host => if ¬ b.sys.ready then b else if roles.contains 1 then (f hostActor b).block else b.logPermission needed 0
  | .zilsy m => b.command m roles needed f

/-- An audited change as an answer (R442). -/
def Block.auditedAnswer (b : Block) (a : Actor) (c : Change) (f : Block → Block) : Answer :=
  let r := b.audited a c f
  { block := r.1, status := if r.2 then stOk else stPermission }

end Sys2Proof.Machine
end

