-- ==== Sys2Proof/Machine/Errors.lean ====
section
/-! DEFINITION. Errors that a request or a scrub meets: the counts and thresholds of
spec/08_cove_shelf_bay_offshore_mainland.md R227 and spec/09_shelf_and_bay_hardware.md R238, R243, R244, R252. -/

namespace Sys2Proof.Machine

/-- The channel of a local address as R252 numbers it: 0-127 Shelf, 128-159 Bay; none in Cove. -/
def channelOf (a : Nat) : Option (HalfId × Nat) :=
  match regionOf a with
  | .shelf h => some (h, shelfChannel a)
  | .store h => some (h, shelfChannel a)
  | .bay h c => some (h, 128 + c)
  | .cove _ => none
  | .control => none
  | .hole => none

/-- The row and the 64-bit word (Shelf, R233) or line (Bay, R240) of a local address within its channel, packed as
row × 2^32 + word (DESIGN CHOICE, log entry 14). -/
def rowWord (a : Nat) : Nat :=
  match regionOf a with
  | .bay _ _ => (bayPlace a).row * 2 ^ 32 + (bayPlace a).column
  | .shelf _ => shelfRow a * 2 ^ 32 + bits a 8 3
  | .store _ => shelfRow a * 2 ^ 32 + bits a 8 3
  | .cove _ => a / 4
  | .control => 0
  | .hole => 0

/-- The live Bay channels of a half that are not retire-pending, ascending: the L of R205. -/
def Block.placeable (b : Block) (h : HalfId) : List Nat :=
  (List.range 32).filter (fun c => b.bayLive h c && !(bit (b.reg (bayReg h 8)).toNat c))

/-- BAY_CAP.USABLE_FRAMES follows the placeable channels (R244). -/
def Block.setUsable (b : Block) (h : HalfId) : Block := b.setRegFld (bayReg h 8) 48 32 (3968 * (b.placeable h).length)

/-- A channel becomes repair-pending or retire-pending: it is listed and the event logged (R238, R243). Cause 1 names
uncorrectable errors, 2 corrected ones (DESIGN CHOICE, log entry 14). A Shelf channel that runs on its layer's spare becomes repair-pending
like any other (R249). -/
def Block.pendChannel (b : Block) (h : HalfId) (ch cause : Nat) : Block :=
  if b.regFld (chanReg h ch 0x30) 63 62 ≠ 0 ∧ ¬ (ch < 128 ∧ b.regFld (chanReg h ch 0x30) 63 62 = 2) then b
  else
    let n := 160 * halfNum h + ch
    let b1 := b.setRegFld (chanReg h ch 0x30) 63 62 1
    let b2 := if b1.flash.repair.any (fun e => e.1 = n) then b1
      else b1.setFlash { b1.flash with repair := b1.flash.repair ++ [(n, cause)] }
    let b3 := if ch < 128 then b2
      else (b2.modReg (bayReg h 8) (fun w => w ||| BitVec.ofNat 64 (2 ^ (ch - 128)))).setUsable h
    b3.log { event := 0x0022, half := h, kind := if ch < 128 then 5 else 6, index := if ch < 128 then ch else ch - 128,
             arg0 := ch, arg1 := cause }

/-- The thresholds of a channel's totals (R238, R243). -/
def Block.checkChannel (b : Block) (h : HalfId) (ch : Nat) : Block :=
  let ue := b.regFld (chanReg h ch 0x38) 63 48
  let ce := b.regFld (chanReg h ch 0x38) 31 0
  if ch < 128 then
    (if b.image.spareUe ≤ ue then b.pendChannel h ch 1 else if b.image.spareCe ≤ ce then b.pendChannel h ch 2 else b)
  else if b.regFld (bayReg h 0x18) 7 0 ≤ ue then b.pendChannel h ch 1 else b

/-- A request or a scrub read met an uncorrectable word: its detection is counted (R227). -/
def Block.noteUe (b : Block) (a : Nat) : Block :=
  let b1 := b.count (tierReg (homeOf a) 0x30) 15 0 1
  match channelOf a with
  | none => b1
  | some (h, ch) => ((b1.count (chanReg h ch 0x28) 63 48 1).count (chanReg h ch 0x38) 63 48 1).checkChannel h ch

/-- The lowest bit of a tier's corrected-error count in TIER_ECC_STAT. -/
def ceLow : Nat → Nat
  | 0 => 48
  | 1 => 32
  | _ => 16

/-- A corrected error of a tier of a half is counted, and logged when the count crosses TIER_ECC_THRESH (R17, R227). -/
def Block.noteTierCe (b : Block) (h : HalfId) (tier : Nat) : Block :=
  let lo := ceLow tier
  let old := b.regFld (tierReg h 0x30) (lo + 15) lo
  let b1 := b.count (tierReg h 0x30) (lo + 15) lo 1
  let new := b1.regFld (tierReg h 0x30) (lo + 15) lo
  let th := b1.regFld (tierReg h 0x38) 15 0
  if old < th ∧ th ≤ new then b1.log { event := 0x0020, half := h, arg0 := tier, arg1 := new } else b1

/-- A read met and corrected an error (R227). -/
def Block.noteCe (b : Block) (a : Nat) : Block :=
  let b2 := b.noteTierCe (homeOf a) (tierOf a)
  match channelOf a with
  | none => b2
  | some (h, ch) => ((b2.count (chanReg h ch 0x28) 31 0 1).count (chanReg h ch 0x38) 31 0 1).checkChannel h ch

end Sys2Proof.Machine
end

