-- ==== Sys2Proof/Machine/Float.lean ====
section
/-! DEFINITION. Numbers: exact values, the element formats, rounding and conversion (spec/03_number_formats_and_rounding.md).
Every finite value is an exact dyadic number; a result is formed exactly and rounded once. -/

namespace Sys2Proof.Machine

/-! ## Exact values -/

/-- The integer mantissa of a finite value at exponent `q`, which must not exceed its own. -/
def scaled (neg : Bool) (m : Nat) (e q : Int) : Int :=
  let n : Int := ((m <<< (e - q).toNat : Nat) : Int)
  if neg then -n else n

/-- The finite value of an integer mantissa at exponent `q`; a zero takes the sign given. -/
def ofScaled (n q : Int) (zeroNeg : Bool) : Val :=
  if n = 0 then .fin zeroNeg 0 0 else .fin (decide (n < 0)) n.natAbs q

/-- The value of an integer. -/
def ofInt (n : Int) : Val := ofScaled n 0 false

/-- The exact sum: a zero sum of two negative zeros is -0, any other zero sum +0. -/
def addV : Val → Val → Val
  | .nan, _ => .nan
  | _, .nan => .nan
  | .inf s, .inf t => if s = t then .inf s else .nan
  | .inf s, .fin _ _ _ => .inf s
  | .fin _ _ _, .inf t => .inf t
  | .fin s m e, .fin t n f =>
    let q := if m = 0 then f else if n = 0 then e else min e f
    ofScaled ((if m = 0 then 0 else scaled s m e q) + (if n = 0 then 0 else scaled t n f q)) q (s && t && m = 0 && n = 0)

/-- The sign inverted. -/
def negV : Val → Val
  | .nan => .nan
  | .inf s => .inf (!s)
  | .fin s m e => .fin (!s) m e

/-- The sign cleared. -/
def absV : Val → Val
  | .nan => .nan
  | .inf _ => .inf false
  | .fin _ m e => .fin false m e

/-- The exact product; an infinity times zero is a NaN. -/
def mulV : Val → Val → Val
  | .nan, _ => .nan
  | _, .nan => .nan
  | .inf s, .inf t => .inf (s != t)
  | .inf s, .fin t n _ => if n = 0 then .nan else .inf (s != t)
  | .fin s m _, .inf t => if m = 0 then .nan else .inf (s != t)
  | .fin s m e, .fin t n f => .fin (s != t) (m * n) (e + f)

/-- Whether a value is finite and zero. -/
def Val.isZero : Val → Bool
  | .fin _ m _ => m = 0
  | .nan => false
  | .inf _ => false

/-- Whether a value is finite. -/
def Val.isFinite : Val → Bool
  | .fin _ _ _ => true
  | .nan => false
  | .inf _ => false

/-- The sign bit of a value. -/
def Val.neg : Val → Bool
  | .fin s _ _ => s
  | .inf s => s
  | .nan => false

/-- The order of two values neither of which is a NaN; zeros of either sign are equal. -/
def ltV : Val → Val → Bool
  | .inf s, .inf t => s && !t
  | .inf s, .fin _ _ _ => s
  | .fin _ _ _, .inf t => !t
  | .fin s m e, .fin t n f =>
    let q := min e f
    decide (scaled s m e q < scaled t n f q)
  | .nan, _ => false
  | _, .nan => false

/-- Equality of two values neither of which is a NaN; zeros of either sign are equal. -/
def eqV (x y : Val) : Bool :=
  match x, y with
  | .nan, _ => false
  | _, .nan => false
  | .inf s, .inf t => s = t
  | .inf _, .fin _ _ _ => false
  | .fin _ _ _, .inf _ => false
  | .fin _ _ _, .fin _ _ _ => !(ltV x y) && !(ltV y x)

/-- The larger of two values (R148): a NaN if either is one; of two zeros, +0 if either is. -/
def maxV (x y : Val) : Val :=
  if x = .nan ∨ y = .nan then .nan else if ltV x y then y else if ltV y x then x else if x.neg then y else x

/-- The smaller of two values (R148): a NaN if either is one; of two zeros, -0 if either is. -/
def minV (x y : Val) : Val :=
  if x = .nan ∨ y = .nan then .nan else if ltV x y then x else if ltV y x then y else if x.neg then x else y

/-! ## Element formats (R57, R58) -/

/-- How a float format spends its top codes: infinities and NaNs, a NaN code alone, or neither. -/
inductive TopCodes where
  | ieee
  | nanOnly
  | none
deriving DecidableEq, Repr

/-- A float element format: exponent bits, mantissa bits, bias, top codes and canonical NaN (R58). -/
structure FloatFmt where
  eb : Nat
  mb : Nat
  bias : Nat
  top : TopCodes
  nan : Nat
deriving DecidableEq, Repr

def fmtF32 : FloatFmt := { eb := 8, mb := 23, bias := 127, top := .ieee, nan := 0x7FC00000 }
def fmtBF16 : FloatFmt := { eb := 8, mb := 7, bias := 127, top := .ieee, nan := 0x7FC0 }
def fmtF16 : FloatFmt := { eb := 5, mb := 10, bias := 15, top := .ieee, nan := 0x7E00 }
def fmtE4M3 : FloatFmt := { eb := 4, mb := 3, bias := 7, top := .nanOnly, nan := 0x7F }
def fmtE5M2 : FloatFmt := { eb := 5, mb := 2, bias := 15, top := .ieee, nan := 0x7E }
def fmtE3M2 : FloatFmt := { eb := 3, mb := 2, bias := 3, top := .none, nan := 0 }
def fmtE2M3 : FloatFmt := { eb := 2, mb := 3, bias := 1, top := .none, nan := 0 }
def fmtE2M1 : FloatFmt := { eb := 2, mb := 1, bias := 1, top := .none, nan := 0 }

/-- The float format of a FORMAT code, scaled or not (R57). -/
def floatFmt : Nat → Option FloatFmt
  | 0x00 => some fmtF32
  | 0x01 => some fmtBF16
  | 0x02 => some fmtF16
  | 0x03 => some fmtE4M3
  | 0x04 => some fmtE5M2
  | 0x05 => some fmtE3M2
  | 0x06 => some fmtE2M3
  | 0x07 => some fmtE2M1
  | _ => none

/-- Element bits of a FORMAT code; 0 for a code that names no element (R57). -/
def elemBits : Nat → Nat
  | 0x00 => 32
  | 0x01 => 16
  | 0x02 => 16
  | 0x03 => 8
  | 0x04 => 8
  | 0x05 => 6
  | 0x06 => 6
  | 0x07 => 4
  | 0x08 => 8
  | 0x09 => 4
  | 0x0A => 32
  | 0x0B => 64
  | 0x0C => 8
  | 0x0D => 16
  | 0x0E => 16
  | _ => 0

/-- Whether a FORMAT code is an MX format, with an E8M0 scale per 32 elements. -/
def isMx (f : Nat) : Bool := decide (0x03 ≤ f) && decide (f ≤ 0x07)

/-- Whether a FORMAT code has a block-scale region. -/
def hasScale (f : Nat) : Bool := isMx f || f == 0x0E

/-- The range of an integer FORMAT code (R58). -/
def intRange : Nat → Option (Int × Int)
  | 0x08 => some (-128, 127)
  | 0x09 => some (-8, 7)
  | 0x0A => some (-2147483648, 2147483647)
  | 0x0B => some (-9223372036854775808, 9223372036854775807)
  | 0x0C => some (0, 255)
  | 0x0D => some (0, 65535)
  | _ => none

/-- Whether a FORMAT code is listed and not reserved (R57). -/
def knownFormat (f : Nat) : Bool := decide (f ≤ 0x0E) || f == 0x1F

/-- The integer an element of an integer format holds. -/
def intElem (f x : Nat) : Int :=
  match f with
  | 0x08 => sext 8 x
  | 0x09 => sext 4 x
  | 0x0A => sext 32 x
  | 0x0B => sext 64 x
  | 0x0C => (x % 256 : Nat)
  | _ => (x % 65536 : Nat)

/-- The value a float element's bits hold (R58). -/
def decodeF (f : FloatFmt) (x : Nat) : Val :=
  let neg := bit x (f.eb + f.mb)
  let ex := bits x (f.eb + f.mb - 1) f.mb
  let man := x % 2 ^ f.mb
  let allOnes := 2 ^ f.eb - 1
  if f.top = .ieee ∧ ex = allOnes then (if man = 0 then .inf neg else .nan)
  else if f.top = .nanOnly ∧ ex = allOnes ∧ man = 2 ^ f.mb - 1 then .nan
  else if ex = 0 then .fin neg man (1 - (f.bias : Int) - f.mb)
  else .fin neg (2 ^ f.mb + man) ((ex : Int) - f.bias - f.mb)

/-- The code of the largest finite magnitude. -/
def FloatFmt.maxCode (f : FloatFmt) : Nat :=
  match f.top with
  | .ieee => (2 ^ f.eb - 1) * 2 ^ f.mb - 1
  | .nanOnly => 2 ^ (f.eb + f.mb) - 2
  | .none => 2 ^ (f.eb + f.mb) - 1

/-- The rounding rule: to nearest even (R67), or stochastic with its 32-bit draw (R68). -/
inductive Rounding where
  | nearest
  | stochastic (r : Nat)
deriving DecidableEq, Repr

/-- `m` divided by 2^d, rounded by the rule. -/
def roundShift (rule : Rounding) (m d : Nat) : Nat :=
  let n := m >>> d
  let rem := m % 2 ^ d
  match rule with
  | .nearest => if 2 * rem > 2 ^ d ∨ (2 * rem = 2 ^ d ∧ n % 2 = 1) then n + 1 else n
  | .stochastic r => if r < (rem * 2 ^ 32) >>> d then n + 1 else n

/-- The magnitude code of a positive m × 2^e in a format, with no upper bound: a code above `maxCode` is an overflow. -/
def roundMag (f : FloatFmt) (rule : Rounding) (m : Nat) (e : Int) : Nat :=
  if m = 0 then 0
  else
    let top : Int := (Nat.log2 m : Int) + e
    let qmin : Int := 1 - (f.bias : Int) - f.mb
    let q : Int := max (top - f.mb) qmin
    let n := if q ≤ e then m <<< (e - q).toNat else roundShift rule m (q - e).toNat
    n + (q - qmin).toNat * 2 ^ f.mb

/-- The sign bit of a format, set when `neg`. -/
def FloatFmt.sign (f : FloatFmt) (neg : Bool) : Nat := b2n neg * 2 ^ (f.eb + f.mb)

/-- The infinity code of an IEEE-like format. -/
def FloatFmt.infCode (f : FloatFmt) : Nat := (2 ^ f.eb - 1) * 2 ^ f.mb

/-- A value rounded once into FP32, to nearest even; overflow gives an infinity, a NaN the canonical one (R59). -/
def toF32 : Val → Nat
  | .nan => 0x7FC00000
  | .inf s => b2n s * 2 ^ 31 + 0x7F800000
  | .fin s m e => b2n s * 2 ^ 31 + min (roundMag fmtF32 .nearest m e) 0x7F800000

/-- The value of FP32 bits. -/
def f32 (x : Nat) : Val := decodeF fmtF32 x

/-- FP32 operations: exact, then rounded once (R64). -/
def addF (x y : Nat) : Nat := toF32 (addV (f32 x) (f32 y))
def subF (x y : Nat) : Nat := toF32 (addV (f32 x) (negV (f32 y)))
def mulF (x y : Nat) : Nat := toF32 (mulV (f32 x) (f32 y))
def fmaF (x y z : Nat) : Nat := toF32 (addV (mulV (f32 x) (f32 y)) (f32 z))

/-- A quotient of positive mantissas rounded once: enough quotient bits, and a sticky bit for what is left. -/
def divMag (m n : Nat) (e f : Int) : Nat × Int :=
  let k := 64 + Nat.log2 n - Nat.log2 m + 32
  let a := m <<< k
  (2 * (a / n) + b2n (a % n != 0), e - f - k - 1)

/-- The exact quotient to well beyond any format's precision, its last bit sticky. -/
def divV : Val → Val → Val
  | .nan, _ => .nan
  | _, .nan => .nan
  | .inf _, .inf _ => .nan
  | .inf s, .fin t _ _ => .inf (s != t)
  | .fin s _ _, .inf t => .fin (s != t) 0 0
  | .fin s m e, .fin t n f =>
    if n = 0 then (if m = 0 then .nan else .inf (s != t))
    else if m = 0 then .fin (s != t) 0 0
    else let r := divMag m n e f; .fin (s != t) r.1 r.2

/-- The integer square root by bisection on `k` bits. -/
def isqrtLoop (x : Nat) : Nat → Nat → Nat
  | 0, r => r
  | k + 1, r => let r' := r + 2 ^ k; if r' * r' ≤ x then isqrtLoop x k r' else isqrtLoop x k r

/-- The integer square root. -/
def isqrt (x : Nat) : Nat := isqrtLoop x (Nat.log2 x / 2 + 1) 0

/-- The square root, its last bit sticky; of -0 it is -0, of another negative value a NaN. -/
def sqrtV : Val → Val
  | .nan => .nan
  | .inf s => if s then .nan else .inf false
  | .fin s m e =>
    if m = 0 then .fin s 0 0
    else if s then .nan
    else
      let e2 : Int := if e % 2 = 0 then e else e - 1
      let m2 := if e % 2 = 0 then m else 2 * m
      let a := m2 <<< 160
      let r := isqrt a
      .fin false (2 * r + b2n (r * r != a)) (e2 / 2 - 81)

/-! ## Conversion out of FP32 (R62-R65, R67, R68, R490) -/

/-- Two counts merged: the larger magnitude, the sums (R72). -/
def ConvStats.add (a b : ConvStats) : ConvStats :=
  { maxAbs := max a.maxAbs b.maxAbs, nonzero := a.nonzero + b.nonzero, underflow := a.underflow + b.underflow,
    underflow5 := a.underflow5 + b.underflow5, nf := a.nf + b.nf, ovf := a.ovf + b.ovf }

/-- What one source element adds, given that it converts to a zero or not and overflows or not (R71). -/
def countVal (v : Val) (toZero excess : Bool) : ConvStats :=
  match v with
  | .fin _ m _ => { maxAbs := toF32 (absV v), nonzero := b2n (m != 0), underflow := b2n (m != 0 && toZero), underflow5 := 0, nf := 0,
                    ovf := b2n excess }
  | .nan => { ConvStats.zero with nf := 1 }
  | .inf _ => { ConvStats.zero with nf := 1 }

/-- What the widening of an MX or W16 element adds to a capturing task's counts (R63, R64, R66): a non-finite one, or one beyond the FP32 range. -/
def widenCount (fmt : Nat) (v : Val) : ConvStats :=
  if fmt = 0x0E ∨ isMx fmt then
    { ConvStats.zero with nf := b2n (!v.isFinite), ovf := b2n (v.isFinite && !(f32 (toF32 v)).isFinite) }
  else ConvStats.zero

/-- A value converted into FP32, BF16 or FP16: the code, and whether it overflowed (R65). -/
def toPlain (f : FloatFmt) (nfSat : Bool) (rule : Rounding) (v : Val) : Nat × Bool :=
  match v with
  | .nan => (f.nan, false)
  | .inf s => (f.sign s + if nfSat then f.maxCode else f.infCode, false)
  | .fin s m e =>
    let c := roundMag f rule m e
    if c > f.maxCode then (f.sign s + if nfSat then f.maxCode else f.infCode, true) else (f.sign s + c, false)

/-- A value rounded to an integer by nearest even. -/
def roundInt : Val → Int
  | .fin s m e =>
    let n := if 0 ≤ e then m <<< e.toNat else roundShift .nearest m (-e).toNat
    if s then -(n : Int) else n
  | .nan => 0
  | .inf _ => 0

/-- A value converted into an integer range: NaN gives 0, an infinity or an overflow the range's end (R65; DEDUCED that
the negative end is the format's lowest, log entry 12). -/
def toIntSat (lo hi : Int) : Val → Int × Bool
  | .nan => (0, false)
  | .inf s => (if s then lo else hi, false)
  | .fin s m e =>
    let n := roundInt (.fin s m e)
    if n < lo then (lo, true) else if hi < n then (hi, true) else (n, false)

/-- ⌊log2⌋ of the largest magnitude among the finite elements of a block; none when every one is zero. -/
def amaxLog (vs : List Val) : Option Int :=
  vs.foldl (fun a v => match v with
    | .fin _ m e => if m = 0 then a else (match a with
      | none => some ((Nat.log2 m : Int) + e)
      | some x => some (max x ((Nat.log2 m : Int) + e)))
    | .nan => a
    | .inf _ => a) none

/-- emax of the MX element formats (R62). -/
def mxEmax : Nat → Int
  | 0x03 => 8
  | 0x04 => 15
  | 0x05 => 4
  | _ => 2

/-- The shared exponent X of a block for an emax (R62), unclamped above. -/
def sharedExponent (emax : Int) (vs : List Val) : Int :=
  match amaxLog vs with
  | none => -127
  | some a => max (-127) (a - emax)

/-- A converted block: element codes, the scale (E8M0 byte, or E and flags of W16), and per element whether it became zero
and whether it overflowed. -/
structure Block32 where
  elems : List Nat
  scale : Nat
  zero : List Bool
  excess : List Bool
deriving DecidableEq, Repr

/-- One element of an MX block: `v` divided by 2^X, rounded, clamped to the largest finite value (R62, R65). -/
def mxElem (f : FloatFmt) (nfSat : Bool) (rule : Rounding) (X : Int) (v : Val) : Nat :=
  match v with
  | .nan => f.nan
  | .inf s => if nfSat then f.sign s + f.maxCode else if f.top = .ieee then f.sign s + f.infCode else f.nan
  | .fin s m e => f.sign s + min (roundMag f rule m (e - X)) f.maxCode

/-- A block of values converted into an MX format (R62, R65). Elements past the extent are not in `vs`; the caller pads with zeros. -/
def toMx (code : Nat) (nfSat : Bool) (rules : List Rounding) (vs : List Val) : Block32 :=
  match floatFmt code with
  | none => { elems := [], scale := 0, zero := [], excess := [] }
  | some f =>
    let X := sharedExponent (mxEmax code) vs
    let badNan := (code = 0x05 ∨ code = 0x06 ∨ code = 0x07) ∧
      vs.any (fun v => match v with
        | .nan => true
        | .inf _ => !nfSat
        | .fin _ _ _ => false)
    let excess := decide (X > 127)
    let overs := vs.map (fun v => excess && v.isFinite && !v.isZero)
    if badNan ∨ (excess ∧ ¬ nfSat) then
      { elems := vs.map (fun _ => 0), scale := 0xFF, zero := vs.map (fun _ => false), excess := overs }
    else
      let X' := min X 127
      let es := (vs.zip (rules ++ List.replicate vs.length .nearest)).map (fun p => mxElem f nfSat p.2 X' p.1)
      { elems := es, scale := (X' + 127).toNat, zero := es.map (fun c => decide (c % 2 ^ (f.eb + f.mb) = 0)), excess := overs }

/-- Mantissas of a block at exponent E (R352): each value divided by 2^(E-141), rounded to nearest even. -/
def w16Mantissas (xs : List Val) (E : Nat) : List Int :=
  xs.map (fun v => match v with
    | .fin s m e => roundInt (.fin s m (e - ((E : Int) - 141)))
    | .nan => 0
    | .inf _ => 0)

/-- Pack values from exponent E up (R352): E rises by one while any mantissa would exceed 32,767; none past 254. The second
part counts the raises. -/
def w16Pack (xs : List Val) : Nat → Nat → Nat → Option (List Int × Nat × Nat)
  | 0, _, _ => none
  | fuel + 1, E, raises =>
    if 254 < E then none
    else
      let ms := w16Mantissas xs E
      if ms.any (fun m => decide (m.natAbs > 32767)) then w16Pack xs fuel (E + 1) (raises + 1) else some (ms, E, raises)

/-- E_BASE of a largest magnitude (R351, R490). -/
def eBase : Option Int → Nat
  | none => 0
  | some a => (min 254 (max 0 (a + 127))).toNat

/-- A block of 32 values converted into W16 outside a reduction (R490); the scale holds E and the flags byte. Of a block whose exponent would pass 254 every element
counts as an overflow, its zeros too: R65 defines overflow for other formats alone (DESIGN CHOICE, log entry 79). -/
def toW16 (vs : List Val) : Block32 :=
  let bad : Block32 := { elems := vs.map (fun _ => 0), scale := 0x80FF, zero := vs.map (fun _ => false), excess := vs.map (fun _ => false) }
  if vs.any (fun v => !v.isFinite) then bad
  else if vs.all (fun v => v.isZero) then
    { elems := vs.map (fun _ => 0), scale := 0, zero := vs.map (fun _ => true), excess := vs.map (fun _ => false) }
  else match w16Pack vs 256 (eBase (amaxLog vs)) 0 with
    | none => { bad with excess := vs.map (fun _ => true) }
    | some (ms, E, _) => { elems := ms.map (fun m => twos 16 m), scale := E, zero := ms.map (fun m => decide (m = 0)), excess := vs.map (fun _ => false) }

/-! ## Widening (R61, R63, R64) -/

/-- The value of a scaled MX element; a scale of 0xFF makes every element a NaN (R65). -/
def mxValue (code scale x : Nat) : Val :=
  if scale = 0xFF then .nan
  else match (floatFmt code).map (fun f => decodeF f x) with
    | some (.fin s m e) => .fin s m (e + ((scale : Int) - 127))
    | some v => v
    | none => .nan

/-- The value of a W16 element of a block with exponent E and flags byte, given whether the block holds a mantissa of
-32,768 (R63). -/
def w16Value (scale x : Nat) (badBlock : Bool) : Val :=
  if bit scale 15 || badBlock then .nan
  else let m := sext 16 x; .fin (decide (m < 0)) m.natAbs (((scale % 256 : Nat) : Int) - 141)

/-! ## Philox-4x32-10 (R69) -/

/-- One Philox round. -/
def philoxRound (c : Nat × Nat × Nat × Nat) (k : Nat × Nat) : Nat × Nat × Nat × Nat :=
  let p0 := 0xD2511F53 * c.1
  let p1 := 0xCD9E8D57 * c.2.2.1
  ((p1 / 2 ^ 32) ^^^ c.2.1 ^^^ k.1, p1 % 2 ^ 32, (p0 / 2 ^ 32) ^^^ c.2.2.2 ^^^ k.2, p0 % 2 ^ 32)

/-- `n` Philox rounds, the key raised between them. -/
def philoxRounds : Nat → (Nat × Nat × Nat × Nat) → (Nat × Nat) → Nat × Nat × Nat × Nat
  | 0, c, _ => c
  | n + 1, c, k => philoxRounds n (philoxRound c k) ((k.1 + 0x9E3779B9) % 2 ^ 32, (k.2 + 0xBB67AE85) % 2 ^ 32)

/-- Output word `i` of Philox-4x32-10 for a counter and a 64-bit key. -/
def philox (key c0 c1 c2 c3 i : Nat) : Nat :=
  let o := philoxRounds 10 (c0, c1, c2, c3) (key % 2 ^ 32, key / 2 ^ 32 % 2 ^ 32)
  match i with
  | 0 => o.1
  | 1 => o.2.1
  | 2 => o.2.2.1
  | _ => o.2.2.2

/-- The draw for element `e` of a tensor (R69). -/
def srDraw (seed tensorId step e : Nat) : Nat :=
  let q := e / 4
  philox seed (q % 2 ^ 32) (q / 2 ^ 32 % 2 ^ 32) tensorId step (e % 4)

end Sys2Proof.Machine
end

