-- ==== Sys2Proof/Machine/Operands.lean ====
section
/-! DEFINITION. Every operand form: job-virtual addresses and their translation (spec/08_cove_shelf_bay_offshore_mainland.md
R197-R209), task descriptors (R31), tensor descriptors (R34, R35) and the elements and rows of a tensor (R57-R63). -/

namespace Sys2Proof.Machine

/-! ## Why an access does not complete -/

/-- An access ends its task with a status and a DETAIL, meets an uncorrectable word, or needs bytes of a far tier that no
response has brought yet. -/
inductive Stop where
  | ended (status detail : Nat)
  | bad (addr : Nat)
  | need (addr len : Nat)
deriving DecidableEq, Repr

abbrev Res (α : Type) := Except Stop α

/-- Map a partial function over a list, left to right. -/
def mapRes {α β : Type} (f : α → Res β) : List α → Res (List β)
  | [] => .ok []
  | x :: xs => match f x with
    | .error e => .error e
    | .ok y => match mapRes f xs with
      | .error e => .error e
      | .ok ys => .ok (y :: ys)

/-! ## Far addresses and directories (R197, R211) -/

/-- The tier of a far device address. -/
def farTier (a : Nat) : Nat := a / 2 ^ 60

/-- Whether a directory serves a far read of a job: its whole range in one Committed entry of the job (R211). -/
def dirServes (d : List FarEntry) (job base len : Nat) : Bool :=
  d.any (fun e => e.job = job && e.st = 2 && decide (e.base ≤ base) && decide (base + len ≤ e.base + e.length))

/-! ## Translation (R202, R203) -/

/-- The page that maps a job-virtual address: its first VA and the page. -/
def findPage (pages : Tab Page) (va : Nat) : Option (Nat × Page) :=
  match tabFind pages (va / 0x200000) with
  | some p => some (if p.big then va / 0x40000000 * 0x40000000 else va / 0x200000 * 0x200000, p)
  | none => match tabFind pages (va / 0x40000000 * 512) with
    | some p => if p.big then some (va / 0x40000000 * 0x40000000, p) else none
    | none => none

/-- The job slot of a number. -/
def Block.slot (b : Block) (k : Nat) : JobSlot := b.slots.getD k JobSlot.reset

/-- A block with one job slot changed. -/
def Block.modSlot (b : Block) (k : Nat) (f : JobSlot → JobSlot) : Block := { b with slots := listMod b.slots k f }

/-- The device address of a job-virtual address, with its page. -/
def Block.translate (b : Block) (k va : Nat) : Option (Nat × Page) :=
  (findPage (b.slot k).pages va).map (fun p => (p.2.target + (va - p.1), p.2))

/-- The job slot bound to a job (R40): at most one. -/
def slotOfJobFrom (job : Nat) : List JobSlot → Nat → Option Nat
  | [], _ => none
  | s :: ss, i => if s.st ≠ 0 ∧ s.job = job then some i else slotOfJobFrom job ss (i + 1)

/-- The job slot bound to a job. -/
def Block.slotOfJob (b : Block) (job : Nat) : Option Nat := slotOfJobFrom job b.slots 0

/-- What a task brings to its accesses: its slot, its half, the far bytes it has received, and how it draws bits (R69). -/
structure Access where
  half : HalfId
  slot : Nat
  far : Tab Byte
  seed : Nat
  step : Nat
deriving DecidableEq, Repr

/-- A DETAIL that names a tier (R56). -/
def tierDetail (t : Nat) : Nat := t * 2 ^ 28

/-- One byte read through a job-virtual address; `who` is the operand slot, or 8 for an access on the task's own account
(R203). -/
def Block.rd (b : Block) (a : Access) (who va : Nat) : Res Byte :=
  match b.translate a.slot va with
  | none => .error (.ended stXlate who)
  | some (d, _) =>
    if d / 2 ^ 60 = 0 then
      if (tabFind b.bad (granuleBase d)).isSome then .error (.bad d) else .ok (b.byte d)
    else match tabFind a.far d with
      | some x => .ok x
      | none => .error (.need d 1)

/-- One byte of `left` bytes that stand in a row: a far byte that is missing asks for those up to the end of its 4 KiB block, and for no byte
beyond them (R211, R318). -/
def Block.rdOf (b : Block) (a : Access) (who va left : Nat) : Res Byte :=
  match b.rd a who va with
  | .error (.need d _) => .error (.need d (min left (4096 - d % 4096)))
  | r => r

/-- `n` bytes read. -/
def Block.rdN (b : Block) (a : Access) (who va n : Nat) : Res (List Byte) :=
  mapRes (fun i => b.rdOf a who (va + i) (n - i)) (List.range n)

/-- One byte read at admission or firing, where no response is waited for: a far byte is served, or the read fails as R211 and R216 say (log
entry 8). -/
def Block.rdNow (b : Block) (a : Access) (who va : Nat) : Res Byte :=
  match b.rd a who va with
  | .error (.need d _) =>
    if farTier d = 3 ∧ b.domain.lost.contains (bits d 59 44 / 8) then .error (.ended stEndpointLost (bits d 59 44))
    else if farTier d = 4 ∧ ¬ dirServes (b.half a.half).tiers.mainland (b.slot a.slot).job (d % 2 ^ 60) 1 then .error (.ended stFarFail (tierDetail 4))
    else match Config.farAnswer d (b.tide a.half) % 3 with
      | 0 => .ok (Config.farByte d)
      | 1 => .error (.ended stFarFail (tierDetail (farTier d)))
      | _ => .error (.ended stFarLate (tierDetail (farTier d)))
  | r => r

/-- The number that `n` bytes hold. -/
def Block.rdNat (b : Block) (a : Access) (who va n : Nat) : Res Nat :=
  match b.rdN a who va n with
  | .error e => .error e
  | .ok l => .ok (leNat l)

/-- The local address that a byte written at a job-virtual address lands at; a far page or one without WRITABLE faults. -/
def Block.wr (b : Block) (a : Access) (who va : Nat) : Res Nat :=
  match b.translate a.slot va with
  | none => .error (.ended stXlate who)
  | some (d, p) => if d / 2 ^ 60 = 0 ∧ p.writable then .ok d else .error (.ended stXlate who)

/-- The cells that bytes written from a job-virtual address become. -/
def Block.wrCells (b : Block) (a : Access) (who va : Nat) (l : List Byte) : Res (List Host.Cell) :=
  mapRes (fun p => match b.wr a who (va + p.2) with
    | .error e => .error e
    | .ok d => .ok (d, p.1)) (l.zip (List.range l.length))

/-- Concatenate the results of a partial function. -/
def concatRes {α β : Type} (f : α → Res (List β)) (l : List α) : Res (List β) :=
  match mapRes f l with
  | .error e => .error e
  | .ok ls => .ok ls.flatten

/-! ## Task descriptors (R31) -/

/-- Eight bytes of a list as a number. -/
def u64At (l : List Byte) (off : Nat) : Nat := leNat ((l.drop off).take 8)

/-- The task descriptor that 128 bytes hold. -/
def parseTask (l : List Byte) : TaskDesc :=
  let w0 := u64At l 0
  let w2 := u64At l 16
  let w3 := u64At l 24
  { index := bits w0 51 32, job := bits w0 27 16, operands := bits w0 15 12, gated := bit w0 11, fnbValid := bit w0 10,
    cls := bits w0 9 8, type := bits w0 7 0, fnbTide := u64At l 8, outList := bits w2 63 32, outCount := bits w2 31 16,
    inTokens := bits w2 15 0, shapeOutCount := bits w3 50 48, shapeOutBase := bits w3 47 36, shapeInBase := bits w3 35 24,
    coveUnits := bits w3 20 14, banks := bits w3 13 11, clusterMask := bits w3 10 6, cores := bits w3 5 0,
    slots := (List.range 8).map (fun s => let w := u64At l (32 + 8 * s)
      { role := bits w 50 48, bound := bits w 47 43, tdesc := bits w 42 0 * 32 }),
    params := (List.range 4).map (fun i => BitVec.ofNat 64 (u64At l (96 + 8 * i))) }

/-- Word `i` of a task's PARAMS, offset 96 + 8i. -/
def TaskDesc.param (d : TaskDesc) (i : Nat) : Word := d.params.getD i 0

/-- Bits of a PARAMS word. -/
def TaskDesc.pf (d : TaskDesc) (i hi lo : Nat) : Nat := fld (d.param i) hi lo

/-! ## Tensor descriptors (R34) -/

/-- A tensor: its descriptor's fields, and its extents at firing (R35, R42). -/
structure Tensor where
  slot : Nat
  va : Nat
  base : Nat
  fmt : Nat
  comp : Nat
  nfSat : Bool
  sround : Bool
  scaleOff : Nat
  metaOff : Nat
  caps : List Nat
  strides : List Nat
  exts : List Nat
deriving DecidableEq, Repr

/-- The tensor that 32 bytes of a descriptor describe, with its static extents. -/
def parseTensor (slot va : Nat) (w : List Word) : Tensor :=
  let w0 := (w.getD 0 0).toNat
  let w1 := (w.getD 1 0).toNat
  let w2 := (w.getD 2 0).toNat
  let w3 := (w.getD 3 0).toNat
  let caps := [bits w1 17 0, bits w1 35 18, bits w1 53 36, bits w2 17 0, bits w2 35 18]
  { slot := slot, va := va, base := bits w0 41 0 * 64, fmt := bits w0 46 42, comp := bits w0 49 47, nfSat := bit w0 50,
    sround := bit w0 51, scaleOff := bits w0 63 52 * 0x100000, metaOff := bits w2 63 54 * 0x400000, caps := caps,
    strides := [0, bits w2 53 36 * 64, bits w3 19 0 * 4096, bits w3 39 20 * 4096, bits w3 59 40 * 4096], exts := caps }

/-- Whether a reserved bit of a tensor descriptor is set (R34). -/
def tensorReserved (w : List Word) : Option Nat :=
  if bits (w.getD 1 0).toNat 63 54 ≠ 0 then some 14
  else if bits (w.getD 3 0).toNat 63 60 ≠ 0 then some 31
  else none

/-- Extent `d` of a tensor. -/
def Tensor.ext (t : Tensor) (d : Nat) : Nat := t.exts.getD d 1

/-- Capacity `d` of a tensor. -/
def Tensor.cap (t : Tensor) (d : Nat) : Nat := t.caps.getD d 1

/-- The number of elements at a tensor's extents. -/
def Tensor.count (t : Tensor) : Nat := t.ext 0 * t.ext 1 * t.ext 2 * t.ext 3 * t.ext 4

/-- A row of a tensor: its indices along dimensions 1 to 4. -/
abbrev Row := Nat × Nat × Nat × Nat

/-- The rows of a tensor in ascending order, dimension 1 fastest. -/
def Tensor.rows (t : Tensor) : List Row :=
  (List.range (t.ext 1 * t.ext 2 * t.ext 3 * t.ext 4)).map (fun i =>
    (i % t.ext 1, i / t.ext 1 % t.ext 2, i / (t.ext 1 * t.ext 2) % t.ext 3, i / (t.ext 1 * t.ext 2 * t.ext 3)))

/-- The job-virtual address of a row's first element. -/
def Tensor.rowVa (t : Tensor) (r : Row) : Nat :=
  t.base + r.1 * t.strides.getD 1 0 + r.2.1 * t.strides.getD 2 0 + r.2.2.1 * t.strides.getD 3 0 + r.2.2.2 * t.strides.getD 4 0

/-- The index of a row counted densely by capacity (R61). -/
def Tensor.rowByCap (t : Tensor) (r : Row) : Nat := r.1 + t.cap 1 * (r.2.1 + t.cap 2 * (r.2.2.1 + t.cap 3 * r.2.2.2))

/-- The job-virtual address of the scale of block `b` of a row: one byte for an MX format (R61), two for W16 (R63). -/
def Tensor.scaleVa (t : Tensor) (r : Row) (blk : Nat) : Nat :=
  t.base + t.scaleOff + (if t.fmt = 0x0E then 2 else 1) * (blk + cdiv (t.cap 0) 32 * t.rowByCap r)

/-- The index of an element in the order of the destination's extents (R69). -/
def Tensor.elemIndex (t : Tensor) (i0 : Nat) (r : Row) : Nat :=
  i0 + t.ext 0 * (r.1 + t.ext 1 * (r.2.1 + t.ext 2 * (r.2.2.1 + t.ext 3 * r.2.2.2)))

/-- The bytes of a row that hold `n` elements of `eb` bits: whole groups for 6-bit elements (R60). -/
def rowBytes (eb n : Nat) : Nat := if eb = 6 then cdiv n 4 * 3 else cdiv (n * eb) 8

/-- Codes packed in dimension-0 order (R60). -/
def packCodes (eb : Nat) (codes : List Nat) : Nat :=
  match codes with
  | [] => 0
  | c :: cs => c % 2 ^ eb + 2 ^ eb * packCodes eb cs

/-- The slot of a chunk of 64 elements of a zero-run compressed row (R190). -/
def Tensor.zrSlot (t : Tensor) (r : Row) (c : Nat) : Nat :=
  t.base + (if elemBits t.fmt = 16 then 160 else 96) * (c + cdiv (t.cap 0) 64 * t.rowByCap r)

/-- The code of element `i0` of a zero-run compressed row (R190): 0 where the mask has none. -/
def Block.zrCode (b : Block) (a : Access) (t : Tensor) (i0 : Nat) (r : Row) : Res Nat :=
  let s := t.zrSlot r (i0 / 64)
  match b.rdNat a t.slot s 8 with
  | .error e => .error e
  | .ok m =>
    if bit m (i0 % 64) then
      let n := elemBits t.fmt / 8
      b.rdNat a t.slot (s + 8 + n * ((List.range (i0 % 64)).filter (fun i => bit m i)).length) n
    else .ok 0

/-- The code of element `i0` of a row, stored plain or zero-run compressed. -/
def Block.elemCode (b : Block) (a : Access) (t : Tensor) (i0 : Nat) (r : Row) : Res Nat :=
  let eb := elemBits t.fmt
  let p := i0 * eb
  if t.comp = 6 then b.zrCode a t i0 r
  else match b.rdNat a t.slot (t.rowVa r + p / 8) ((p % 8 + eb + 7) / 8) with
    | .error e => .error e
    | .ok x => .ok (x / 2 ^ (p % 8) % 2 ^ eb)

/-- Whether a COMP is one of the fixed-rate lossy modes (R188). -/
def lossy (c : Nat) : Bool := decide (2 ≤ c) && decide (c ≤ 5)

/-- Width, largest mantissa, emax and bytes per block of a lossy mode (R188). -/
def lossyWidth (c : Nat) : Nat := if c % 2 = 0 then 7 else 3
def lossyMax (c : Nat) : Nat := if c % 2 = 0 then 63 else 3
def lossyEmax (c : Nat) : Int := if c % 2 = 0 then 5 else 1
def lossyBytes (c : Nat) : Nat := if c % 2 = 0 then 64 else 32

/-- The first byte of the lossy block that holds an element (R188). -/
def Tensor.lossyBlock (t : Tensor) (a b : Nat) (r : Row) : Nat :=
  let p := r.2.1 + t.cap 2 * (r.2.2.1 + t.cap 3 * r.2.2.2)
  t.base + lossyBytes t.comp * ((p * cdiv (t.cap 1) 8 + b) * cdiv (t.cap 0) 8 + a)

/-- The value of an element of a lossy block (R188). Within a block dimension 0 is fastest (DEDUCED, log entry 33). -/
def Block.lossyVal (b : Block) (a : Access) (t : Tensor) (i0 : Nat) (r : Row) : Res Val :=
  let s := t.lossyBlock (i0 / 8) (r.1 / 8) r
  let w := lossyWidth t.comp
  let p := (i0 % 8 + 8 * (r.1 % 8)) * w
  match b.rdNat a t.slot s 1 with
  | .error e => .error e
  | .ok v =>
    if v = 0xFF then .ok .nan
    else match b.rdNat a t.slot (s + 1 + p / 8) ((p % 8 + w + 7) / 8) with
      | .error e => .error e
      | .ok x => let m := sext w (x / 2 ^ (p % 8)); .ok (.fin (decide (m < 0)) m.natAbs ((v : Int) - 127))

/-- The compressed rows of a 2:4 tensor, as a tensor of kept values (R115). -/
def Tensor.kept (t : Tensor) : Tensor := { t with caps := t.cap 0 / 2 :: t.caps.drop 1, exts := t.cap 0 / 2 :: t.exts.drop 1 }

/-- The address of a block's bit in a zero-block bitmap: its byte (R122). -/
def Tensor.zbByte (t : Tensor) (batch r : Nat) (c : Nat) : Nat :=
  t.base + t.metaOff + (batch * cdiv (t.cap 1) 128 + r) * cdiv (t.cap 0) 256 + c / 8

/-- The batch index of R122. -/
def Tensor.zbBatch (t : Tensor) (r : Row) : Nat := r.2.1 + t.cap 2 * (r.2.2.1 + t.cap 3 * r.2.2.2)

/-- Where a row's stored elements and block scales lie: pieces of address and length (R60, R61, R63). -/
def Tensor.storedPieces (t : Tensor) (r : Row) : List (Nat × Nat) :=
  (t.rowVa r, rowBytes (elemBits t.fmt) (t.ext 0)) ::
    (if hasScale t.fmt then [(t.scaleVa r 0, (if t.fmt = 0x0E then 2 else 1) * cdiv (t.ext 0) 32)] else [])

/-- Where a row lies, by its COMP: the plain row; the kept values and indices of a 2:4 row (R115, R116); lossy blocks (R188); zero-run slots
(R190); the plain row and its bits of the occupancy bitmap (R122). -/
def Tensor.rowPieces (t : Tensor) (r : Row) : List (Nat × Nat) :=
  match t.comp with
  | 0 => t.storedPieces r
  | 1 => t.kept.storedPieces r ++ [(t.base + t.metaOff + t.cap 0 / 8 * t.rowByCap r, t.cap 0 / 8)]
  | 6 => (List.range (cdiv (t.ext 0) 64)).map (fun c => (t.zrSlot r c, if elemBits t.fmt = 16 then 160 else 96))
  | 7 => t.storedPieces r ++ [(t.zbByte (t.zbBatch r) (r.1 / 128) 0, cdiv (t.ext 0) 256)]
  | _ => (List.range (cdiv (t.ext 0) 8)).map (fun a => (t.lossyBlock a (r.1 / 8) r, lossyBytes t.comp))

/-- Where a tensor's extents lie. -/
def Tensor.pieces (t : Tensor) : List (Nat × Nat) := (t.rows.map (fun r => t.rowPieces r)).flatten

/-- The first address in each frame that a piece touches. -/
def pieceFrames (p : Nat × Nat) : List Nat :=
  (List.range (cdiv (p.1 % 0x200000 + p.2) 0x200000)).map (fun i => max p.1 (p.1 / 0x200000 * 0x200000 + i * 0x200000))

/-- Whether the pages under a tensor lie in Shelf (R186, R361). -/
def Block.inShelf (b : Block) (k : Nat) (t : Tensor) : Bool :=
  (t.pieces.flatMap pieceFrames).all (fun va => match b.translate k va with
    | some (d, _) => decide (d / 2 ^ 60 = 0) && decide (tierOf d = 1)
    | none => false)

/-- The codes of a block of up to 32 elements of a row, those past the extent as 0. -/
def Block.blockCodes (b : Block) (a : Access) (t : Tensor) (blk : Nat) (r : Row) : Res (List Nat) :=
  mapRes (fun j => if 32 * blk + j < t.ext 0 then b.elemCode a t (32 * blk + j) r else .ok 0) (List.range 32)

/-- The value of element `i0` of a row of a float tensor, exact (R64, R82), decoded from COMP 2-6 (R188-R190); an integer element as its
integer. -/
def Block.elemVal (b : Block) (a : Access) (t : Tensor) (i0 : Nat) (r : Row) : Res Val :=
  if lossy t.comp then b.lossyVal a t i0 r
  else match b.elemCode a t i0 r with
  | .error e => .error e
  | .ok x =>
    if isMx t.fmt then match b.rdNat a t.slot (t.scaleVa r (i0 / 32)) 1 with
      | .error e => .error e
      | .ok s => .ok (mxValue t.fmt s x)
    else if t.fmt = 0x0E then match b.rdNat a t.slot (t.scaleVa r (i0 / 32)) 2 with
      | .error e => .error e
      | .ok s => match b.blockCodes a t (i0 / 32) r with
        | .error e => .error e
        | .ok cs => .ok (w16Value s x (cs.any (fun c => c == 0x8000)))
    else match floatFmt t.fmt with
      | some f => .ok (decodeF f x)
      | none => .ok (ofInt (intElem t.fmt x))

/-- The values of a row's elements. -/
def Block.rowVals (b : Block) (a : Access) (t : Tensor) (r : Row) : Res (List Val) :=
  mapRes (fun i => b.elemVal a t i r) (List.range (t.ext 0))

/-- An element as a load or a conversion takes it (R64): an integer as it is, any other widened to FP32. -/
def Tensor.widen (t : Tensor) (v : Val) : Val := if (intRange t.fmt).isSome then v else f32 (toF32 v)

/-- The FP32 bits of a row's elements, widened (R64): an element beyond the FP32 range becomes an infinity. -/
def Block.rowF32 (b : Block) (a : Access) (t : Tensor) (r : Row) : Res (List Nat) :=
  match b.rowVals a t r with
  | .error e => .error e
  | .ok vs => .ok (vs.map toF32)

/-! ## Rows converted and written -/

/-- A converted row: element codes, block scales, and its counts. -/
structure RowOut where
  codes : List Nat
  scales : List Nat
  stats : ConvStats
deriving DecidableEq, Repr

/-- Split a list into pieces of `n`. -/
def chunks {α : Type} (n : Nat) : Nat → List α → List (List α)
  | 0, _ => []
  | fuel + 1, l => if l.isEmpty then [] else l.take n :: chunks n fuel (l.drop n)

/-- The rounding rule of element `i0` of a row (R67-R69): integers, FP32 and W16 always round to nearest. -/
def Tensor.rule (t : Tensor) (a : Access) (i0 : Nat) (r : Row) : Rounding :=
  if t.sround ∧ t.fmt ≠ 0 ∧ t.fmt ≤ 7 then .stochastic (srDraw a.seed (t.va / 32 % 2 ^ 32) a.step (t.elemIndex i0 r)) else .nearest

/-- Values converted into a tensor's format, from a block boundary on, each by its rounding rule (R62-R68, R490), with their counts. NF_SAT
does not act on FP32, which R65 does not list. -/
def convWith (t : Tensor) (rules : List Rounding) (vs : List Val) : RowOut :=
  let ix := vs.zip rules
  if t.fmt = 0x0E ∨ isMx t.fmt then
    let bs := (chunks 32 (vs.length + 1) ix).map (fun c =>
      if t.fmt = 0x0E then toW16 (c.map (fun p => p.1) ++ List.replicate (32 - c.length) (.fin false 0 0))
      else
        let blk := toMx t.fmt t.nfSat (c.map (fun p => p.2)) (c.map (fun p => p.1))
        { blk with elems := blk.elems ++ List.replicate (32 - c.length) 0 })
    let zs := (bs.map (fun q => q.zero)).flatten
    let os := (bs.map (fun q => q.excess)).flatten
    { codes := (bs.map (fun q => q.elems)).flatten, scales := bs.map (fun q => q.scale),
      stats := ((vs.zip (zs.zip os)).map (fun p => countVal p.1 p.2.1 p.2.2)).foldl ConvStats.add ConvStats.zero }
  else match floatFmt t.fmt with
    | some f =>
      let cs := ix.map (fun p => toPlain f (t.nfSat && t.fmt ≠ 0) p.2 p.1)
      { codes := cs.map (fun c => c.1), scales := [],
        stats := ((vs.zip cs).map (fun p => countVal p.1 (decide (p.2.1 % 2 ^ (f.eb + f.mb) = 0)) p.2.2)).foldl ConvStats.add
          ConvStats.zero }
    | none =>
      let rg := (intRange t.fmt).getD (0, 0)
      let cs := vs.map (toIntSat rg.1 rg.2)
      { codes := cs.map (fun c => twos (elemBits t.fmt) c.1), scales := [],
        stats := ((vs.zip cs).map (fun p => countVal p.1 (decide (p.2.1 = 0)) p.2.2)).foldl ConvStats.add ConvStats.zero }

/-- Values of a row converted, from element `start` on (a multiple of 32). -/
def convVals (a : Access) (t : Tensor) (r : Row) (start : Nat) (vs : List Val) : RowOut :=
  convWith t ((List.range vs.length).map (fun i => t.rule a (start + i) r)) vs

/-- A whole row of FP32 bits converted. -/
def convRow (a : Access) (t : Tensor) (r : Row) (xs : List Nat) : RowOut := convVals a t r 0 (xs.map f32)

/-- A row of integers converted into an integer format: each saturates (R65, R103). -/
def convRowInt (t : Tensor) (xs : List Int) : RowOut :=
  let rg := (intRange t.fmt).getD (0, 0)
  let cs := xs.map (fun n => if n < rg.1 then (rg.1, true) else if rg.2 < n then (rg.2, true) else (n, false))
  { codes := cs.map (fun c => twos (elemBits t.fmt) c.1), scales := [],
    stats := { ConvStats.zero with
      maxAbs := (xs.map (fun n => toF32 (absV (ofInt n)))).foldl max 0,
      nonzero := (xs.filter (fun n => n ≠ 0)).length,
      ovf := (cs.filter (fun c => c.2)).length } }

/-- The cells that codes and scales become from element `i0` of a row on (a multiple of 64): elements, then scales, in ascending address
(R60, R61). -/
def Block.rowCellsAt (b : Block) (a : Access) (t : Tensor) (r : Row) (i0 : Nat) (o : RowOut) : Res (List Host.Cell) :=
  let eb := elemBits t.fmt
  match b.wrCells a t.slot (t.rowVa r + i0 * eb / 8) (leBytes (rowBytes eb o.codes.length) (packCodes eb o.codes)) with
  | .error e => .error e
  | .ok cs =>
    if hasScale t.fmt then
      match b.wrCells a t.slot (t.scaleVa r (i0 / 32)) ((o.scales.map (fun s => leBytes (if t.fmt = 0x0E then 2 else 1) s)).flatten) with
      | .error e => .error e
      | .ok ss => .ok (cs ++ ss)
    else .ok cs

/-- The cells of a whole row. -/
def Block.rowCells (b : Block) (a : Access) (t : Tensor) (r : Row) (o : RowOut) : Res (List Host.Cell) := b.rowCellsAt a t r 0 o

/-- The protected words that the cells write in part while they hold an uncorrectable error (R228). -/
def Block.badHits (b : Block) (cells : List Host.Cell) : List Nat :=
  (b.bad.filter (fun e => cells.any (fun c => granuleBase c.1 == e.1) &&
    !((List.range (granule e.1)).all (fun i => cells.any (fun c => c.1 == e.1 + i))))).map (fun e => e.1)

/-- The first of them. -/
def Block.badWrite (b : Block) (cells : List Host.Cell) : Option Nat := (b.badHits cells).head?

/-- Words that the cells overwrite whole become good (R228). -/
def healCells (bad : Tab Nat) (cells : List Host.Cell) : Tab Nat :=
  bad.filter (fun e => !((List.range (granule e.1)).all (fun i => cells.any (fun c => c.1 == e.1 + i))))

/-- The cells written in order, up to the first line that a partial write finds bad: it is left unchanged (R228), and its word is answered. -/
def Block.landCells (b : Block) (cells : List Host.Cell) : Block × Option Nat :=
  let hits := b.badHits cells
  let good := cells.takeWhile (fun c => !(hits.any (fun g => g / 64 == c.1 / 64)))
  ({ b with mem := good.foldl (fun m c => memPut m c.1 (c.2 ^^^ b.rest c.1)) b.mem, bad := healCells b.bad good }, hits.head?)

/-- The cells of requests to one line each, written in order: a line that a partial write finds bad is left unchanged (R228), and the first
such word is answered. -/
def Block.landLines (b : Block) (cells : List Host.Cell) : Block × Option Nat :=
  let hits := b.badHits cells
  let good := cells.filter (fun c => !(hits.any (fun g => g / 64 == c.1 / 64)))
  ({ b with mem := good.foldl (fun m c => memPut m c.1 (c.2 ^^^ b.rest c.1)) b.mem, bad := healCells b.bad good }, hits.head?)

end Sys2Proof.Machine
end

