-- ==== Sys2Proof/Machine/Frames.lean ====
section
/-! DEFINITION. Home frames, mappings and cache objects (spec/08_cove_shelf_bay_offshore_mainland.md R202, R205-R209, R215,
R217). A frame is named by its first local address; `Tiers.frames` lists the frames in use with their owner: a job slot's own
page is k + 1, a cache object's 0x200 + k, the lending window's 0x100. -/

namespace Sys2Proof.Machine

/-- 2 MiB. -/
def frameSize : Nat := 0x200000

/-- The first Shelf frame of a half (R198). -/
def shelfBase (h : HalfId) : Nat := 0x200000000 + halfNum h * 0x200000000

/-- The first address of a Bay channel's quarter (R200). -/
def bayBase (h : HalfId) (c : Nat) : Nat := 0x8000000000 + (32 * halfNum h + c) * 0x200000000

/-- A block with a half's tiers changed. -/
def Block.modTiers (b : Block) (h : HalfId) (f : Tiers → Tiers) : Block := b.modHalf h (fun x => { x with tiers := f x.tiers })

/-- The tiers of a half. -/
def Block.tiers (b : Block) (h : HalfId) : Tiers := (b.half h).tiers

/-- The frames of a tier that a half's table lists with an owner that `p` accepts. -/
def framesHeld (fr : Tab Nat) (tier : Nat) (p : Nat → Bool) : Nat := (fr.filter (fun e => tierOf e.1 = tier && p e.2)).length

/-- Frames that a job slot holds of a tier: its pages and its cache objects (TIER_USAGE_k). -/
def usage (fr : Tab Nat) (tier k : Nat) : Nat := framesHeld fr tier (fun o => o = k + 1 || o = 0x200 + k)

/-- Frames free in a tier of a half (TIER_FREE): live, not retire-pending channels alone in Bay (R243). -/
def Block.freeFramesOf (b : Block) (h : HalfId) (tier : Nat) : Nat :=
  let fr := (b.tiers h).frames
  if tier = 1 then 4014 - framesHeld fr 1 (fun _ => true)
  else ((b.placeable h).map (fun c => 3968 -
    (fr.filter (fun e => decide (bayBase h c ≤ e.1) && decide (e.1 < bayBase h c + 0x200000000))).length)).sum

/-! ## Placement (R205) -/

/-- The lowest free frame from a base, among `n`. -/
def lowestFree (fr : Tab Nat) (base n : Nat) : Option Nat :=
  ((List.range n).find? (fun i => (tabFind fr (base + i * frameSize)).isNone)).map (fun i => base + i * frameSize)

/-- Take `n` Shelf frames, each the lowest free one. -/
def placeShelf (owner base : Nat) : Nat → Tab Nat → Option (List Nat × Tab Nat)
  | 0, fr => some ([], fr)
  | n + 1, fr => match lowestFree fr base 4014 with
    | none => none
    | some f => (placeShelf owner base n (tabPut fr f owner)).map (fun r => (f :: r.1, r.2))

/-- The 512 frames of a 1 GiB region. -/
def regionFrames (base : Nat) : List Nat := (List.range 512).map (fun i => base + i * frameSize)

/-- Take `n` aligned 1 GiB regions of Shelf, each the lowest free one: the first address of each. -/
def placeRegions (owner base : Nat) : Nat → Tab Nat → Option (List Nat × Tab Nat)
  | 0, fr => some ([], fr)
  | n + 1, fr =>
    match (List.range 7).find? (fun g => (regionFrames (base + g * 0x40000000)).all (fun f => (tabFind fr f).isNone)) with
    | none => none
    | some g =>
      let r := base + g * 0x40000000
      (placeRegions owner base n ((regionFrames r).foldl (fun t f => tabPut t f owner) fr)).map (fun q => (r :: q.1, q.2))

/-- The lowest free frame of the first channel with one, from a place in the list of live channels on. -/
def placeIn (fr : Tab Nat) (h : HalfId) (live : List Nat) (i : Nat) : Option (Nat × Nat) :=
  ((List.range live.length).map (fun j => live.getD ((i + j) % live.length) 0)).findSome? (fun c =>
    (lowestFree fr (bayBase h c) 3968).map (fun f => (c, f)))

/-- Take Bay frames i to i + n - 1 of an allocation: frame i goes to live channel (n0 + i) mod L, or the next with a free
frame. Answers the frames, the table and the last channel used. -/
def placeBay (owner : Nat) (h : HalfId) (live : List Nat) (n0 : Nat) : Nat → Nat → Nat → Tab Nat → Option (List Nat × Tab Nat × Nat)
  | 0, _, last, fr => some ([], fr, last)
  | n + 1, i, _, fr => match placeIn fr h live (n0 + i) with
    | none => none
    | some (c, f) => match placeBay owner h live n0 n (i + 1) c (tabPut fr f owner) with
      | none => none
      | some r => some (f :: r.1, r.2)

/-- The position, among the live channels, of the cursor's channel, or of the next live one after it (R205). -/
def cursorPlace (live : List Nat) (cursor : Nat) : Nat := ((live.zip (List.range live.length)).find? (fun p => decide (cursor ≤ p.1))).map (fun p => p.2) |>.getD 0

/-- Frames taken in a tier of a half for an owner: their addresses and the tiers after, or none (R205). -/
def Block.place (b : Block) (h : HalfId) (tier : Nat) (big : Bool) (owner n : Nat) : Option (List Nat × Tiers) :=
  let t := b.tiers h
  if tier = 1 then
    match (if big then placeRegions owner (shelfBase h) n t.frames else placeShelf owner (shelfBase h) n t.frames) with
    | none => none
    | some r => some (r.1, { t with frames := r.2 })
  else
    let live := b.placeable h
    let n0 := cursorPlace live t.cursor
    match placeBay owner h live n0 n 0 t.cursor t.frames with
    | none => none
    | some r =>
      let next := live.getD ((cursorPlace live r.2.2 + 1) % live.length) 0
      some (r.1, { t with frames := r.2.1, cursor := if n = 0 then t.cursor else next })

/-- A frame's bytes become zero (R205). -/
def Block.zeroFrame (b : Block) (f size : Nat) : Block :=
  { b with mem := b.mem.filter (fun c => !(decide (f ≤ c.1) && decide (c.1 < f + size))),
           fill := b.fill.filter (fun x => !(decide (f ≤ x) && decide (x < f + size))),
           bad := b.bad.filter (fun c => !(decide (f ≤ c.1) && decide (c.1 < f + size))) }

/-- Frames zeroed one after another. -/
def Block.zeroFrames (b : Block) (size : Nat) : List Nat → Block
  | [] => b
  | f :: fs => (b.zeroFrame f size).zeroFrames size fs

/-- A half's frame freed. -/
def Block.freeFrame (b : Block) (f : Nat) : Block := b.modTiers (homeOf f) (fun t => { t with frames := tabDel t.frames f })

/-- Frames freed one after another. -/
def Block.freeFrames (b : Block) : List Nat → Block
  | [] => b
  | f :: fs => (b.freeFrame f).freeFrames fs

/-! ## Mappings (R202, R206) -/

/-- The page bases, in 2 MiB units, of the pages a slot maps in [va, va + len), or none when some page there is unmapped. -/
def pagesIn (pages : Tab Page) (va len : Nat) : Option (List Nat) :=
  let units := (List.range (len / frameSize)).map (fun i => va + i * frameSize)
  if units.all (fun v => (findPage pages v).isSome) then
    some (units.filterMap (fun v => (findPage pages v).bind (fun p => if p.1 = v ∨ v = va then some (p.1 / frameSize) else none)))
  else none

/-- Whether any page of [va, va + len) is mapped. -/
def anyMapped (pages : Tab Page) (va len : Nat) : Bool :=
  (List.range (len / frameSize)).any (fun i => (findPage pages (va + i * frameSize)).isSome)

/-- The frames behind a page. -/
def Page.frames (p : Page) : List Nat := if p.big then regionFrames p.target else [p.target]

/-- One page removed from a slot's translation. -/
def Block.removePage (b : Block) (k key : Nat) : Block := b.modSlot k (fun s => { s with pages := tabDel s.pages key })

/-- Pages removed one after another. -/
def Block.removePages (b : Block) (k : Nat) : List Nat → Block
  | [] => b
  | p :: ps => (b.removePage k p).removePages k ps

/-- Pages entered in a slot's translation. -/
def Block.addPages (b : Block) (k : Nat) : List (Nat × Page) → Block
  | [] => b
  | p :: ps => (b.modSlot k (fun s => { s with pages := tabPut s.pages p.1 p.2 })).addPages k ps

/-- The entries of the translation stores in use by every slot (R202). -/
def Block.entriesUsed (b : Block) : Nat := (b.slots.map (fun s => s.pages.length)).sum

/-! ## Cache objects (R208, R215) -/

/-- A handle names the half in its top bit, so a page's handle finds its object. -/
def handleOf (h : HalfId) (i : Nat) : Nat := halfNum h * 0x10000 + i + 1

/-- A cache object by its handle. -/
def Block.object (b : Block) (handle : Nat) : Option CacheObject :=
  tabFind (b.tiers (halfOf ((handle - 1) / 0x10000))).objects handle

/-- A block with a cache object changed. -/
def Block.modObject (b : Block) (handle : Nat) (f : CacheObject → CacheObject) : Block :=
  match b.object handle with
  | none => b
  | some o => b.modTiers (halfOf ((handle - 1) / 0x10000)) (fun t => { t with objects := tabPut t.objects handle (f o) })

/-- The pages that hold a mapping of an object at a VA. -/
def CacheObject.pageKeys (o : CacheObject) (va : Nat) : List Nat := (List.range o.frames.length).map (fun i => va / frameSize + i)

/-- A cache object leaves: its frames are free. -/
def Block.freeObject (b : Block) (handle : Nat) : Block :=
  match b.object handle with
  | none => b
  | some o => (b.freeFrames o.frames).modTiers (halfOf ((handle - 1) / 0x10000)) (fun t => { t with objects := tabDel t.objects handle })

/-- An object with no mapping, no reference and no fill in progress leaves (R215). -/
def Block.reapObject (b : Block) (handle : Nat) : Block :=
  match b.object handle with
  | none => b
  | some o => if o.mappings = [] ∧ o.refs = [] ∧ o.filling = none then b.freeObject handle else b

/-- Objects reaped one after another. -/
def Block.reapObjects (b : Block) : List Nat → Block
  | [] => b
  | i :: is => (b.reapObject i).reapObjects is

/-- One mapping of an object removed: its pages, then the object if nothing holds it (R215). -/
def Block.dropMapping (b : Block) (handle : Nat) (m : Nat × Nat) : Block :=
  match b.object handle with
  | none => b
  | some o => ((b.removePages m.1 (o.pageKeys m.2)).modObject handle (fun o => { o with mappings := o.mappings.erase m })).reapObject handle

/-- Every mapping of an object removed. -/
def Block.dropMappings (b : Block) (handle : Nat) : List (Nat × Nat) → Block
  | [] => b
  | m :: ms => (b.dropMapping handle m).dropMappings handle ms

/-- An object unmapped everywhere; its frames are freed once no reference remains (R206, R218). -/
def Block.unmapObject (b : Block) (handle : Nat) : Block :=
  match b.object handle with
  | none => b
  | some o => b.dropMappings handle o.mappings

/-- The object that eviction takes next in a tier of a half (R208): unpinned, unreferenced, filled, of least LAST_USE, a tie
to the lower handle. -/
def Block.evictee (b : Block) (h : HalfId) (tier : Nat) : Option Nat :=
  ((b.tiers h).objects.filter (fun p => p.2.tier = tier && !p.2.pin && p.2.refs.isEmpty && p.2.filling.isNone)).foldl
    (fun best p => match best with
      | none => some (p.2.lastUse, p.1)
      | some q => if p.2.lastUse < q.1 then some (p.2.lastUse, p.1) else some q) none |>.map (fun q => q.2)

/-- The outcome of an allocation: the frames and the block, or the reason of R209. -/
inductive Allocation where
  | ok (frames : List Nat) (b : Block)
  | failed (reason : Nat)
deriving DecidableEq, Repr

/-- Allocate in pool mode, evicting whole objects until the allocation fits (R207, R208). -/
def Block.allocPool (b : Block) (h : HalfId) (tier : Nat) (big : Bool) (owner n : Nat) : Nat → Allocation
  | 0 => .failed (if big then 3 else 2)
  | fuel + 1 => match b.place h tier big owner n with
    | some r => .ok r.1 (b.modTiers h (fun _ => r.2))
    | none => match b.evictee h tier with
      | none => .failed (if big ∧ 512 * n ≤ b.freeFramesOf h tier then 3 else 2)
      | some i => (b.unmapObject i).allocPool h tier big owner n fuel

/-- Allocate frames for no job: in pool mode with eviction, in quota mode without (R207). -/
def Block.allocFrames (b : Block) (h : HalfId) (tier : Nat) (big : Bool) (owner n : Nat) : Allocation :=
  if bit (b.reg (tierReg h 0)).toNat (tier - 1) then
    match b.place h tier big owner n with
    | some r => .ok r.1 (b.modTiers h (fun _ => r.2))
    | none => .failed 2
  else b.allocPool h tier big owner n ((b.tiers h).objects.length + 1)

/-- Allocate `n` pages for a job slot in a tier of a half by its accounting mode (R207, R209). An allocation that fails evicts
nothing. -/
def Block.allocate (b : Block) (h : HalfId) (tier k : Nat) (big : Bool) (owner n : Nat) : Allocation :=
  let frames := if big then 512 * n else n
  let quota := if tier = 1 then b.regFld (tierReg h (0x80 + 8 * k)) 11 0 else b.regFld (tierReg h (0x80 + 8 * k)) 48 32
  if bit (b.reg (tierReg h 0)).toNat (tier - 1) then
    if quota < usage (b.tiers h).frames tier k + frames then .failed 1
    else match b.place h tier big owner n with
      | some r => .ok r.1 (b.modTiers h (fun _ => r.2))
      | none => .failed (if big ∧ frames ≤ b.freeFramesOf h tier then 3 else 2)
  else b.allocPool h tier big owner n ((b.tiers h).objects.length + 1)

/-- A task takes a reference on an object: at its first, LAST_USE is the Tide (R208). -/
def Block.refObject (b : Block) (t : TaskRef) (handle : Nat) : Block :=
  b.modObject handle (fun o => if o.refs.contains t then o else { o with refs := o.refs ++ [t], lastUse := b.tide t.half })

/-- References taken one after another. -/
def Block.refObjects (b : Block) (t : TaskRef) : List Nat → Block
  | [] => b
  | i :: is => (b.refObject t i).refObjects t is

/-- The handles of every object of the module. -/
def Block.handles (b : Block) : List Nat := (b.halfA.tiers.objects.map (fun p => p.1)) ++ (b.halfB.tiers.objects.map (fun p => p.1))

/-- References on cache objects that a task holds are given back once its status is fixed (R208); an object with no mapping
left leaves. -/
def Block.dropRefs (b : Block) (t : TaskRef) : Block :=
  let held := b.handles.filter (fun i => match b.object i with
    | some o => o.refs.contains t
    | none => false)
  (held.foldl (fun x i => x.modObject i (fun o => { o with refs := o.refs.filter (fun r => r ≠ t) })) b).reapObjects held

end Sys2Proof.Machine
end

