-- ==== Sys2Proof/Machine/Rings.lean ====
section
/-! DEFINITION. Task contexts, completion rings, records, tokens and the end of a task
(spec/02_saffron_task_graphs.md R46-R49, spec/15_host_link_start_and_slack.md R406-R408). -/

namespace Sys2Proof.Machine

/-! ## Finding and changing a task -/

/-- The live graph of an ID. -/
def Block.graph (b : Block) (h : HalfId) (g : Nat) : Option Graph := tabFind (b.half h).graphs g

/-- The context of a task. -/
def Block.task (b : Block) (t : TaskRef) : Option TaskCtx :=
  match b.graph t.half t.graph with
  | none => none
  | some g => g.tasks[t.task]?

/-- A block with a live graph changed. -/
def Block.modGraph (b : Block) (h : HalfId) (i : Nat) (f : Graph → Graph) : Block :=
  match b.graph h i with
  | none => b
  | some g => b.modHalf h (fun x => { x with graphs := tabPut x.graphs i (f g) })

/-- A block with a task's context changed. -/
def Block.modTask (b : Block) (t : TaskRef) (f : TaskCtx → TaskCtx) : Block :=
  b.modGraph t.half t.graph (fun g => { g with tasks := listMod g.tasks t.task f })

/-- Every task of a half with its reference, in ascending graph ID and index. -/
def Block.tasksOf (b : Block) (h : HalfId) : List (TaskRef × Graph × TaskCtx) :=
  ((b.half h).graphs.map (fun p => (p.2.tasks.zip (List.range p.2.tasks.length)).map (fun q =>
    ({ half := h, graph := p.1, task := q.2 }, p.2, q.1)))).flatten

/-- What a task brings to its accesses. -/
def Block.access (b : Block) (h : HalfId) (k step : Nat) (far : Tab Byte) : Access :=
  { half := h, slot := k, far := far, seed := (b.reg (safReg h (0x600 + 8 * k))).toNat, step := step }

/-- The access of a task of a graph. -/
def Block.taskAccess (b : Block) (h : HalfId) (g : Graph) (c : TaskCtx) : Access := b.access h g.slot g.step c.farBuf

/-- A task holds its firing slot from firing until its record is written (R37). -/
def TaskCtx.holdsFiring (c : TaskCtx) : Bool := c.fired && (c.phase != .recorded)

/-- The engines of its cores that a type's task holds: 0 matrix array, 1 vector engine, 2 gather engine (R53, R113, R176; log entry 54). -/
def enginesOf : Nat → List Nat
  | 0x01 => [0]
  | 0x02 => [1]
  | 0x03 => [0, 1]
  | 0x04 => [0]
  | 0x05 => [2]
  | _ => []

/-- A task holds its cores, banks and Cove until its writes are visible (R37, R109). -/
def TaskCtx.holdsCores (c : TaskCtx) : Bool := c.fired && (c.phase = .running || c.phase = .ended)

/-! ## A task's status -/

/-- Fix a task's status (R47 END_TIDE): only a task whose status is not fixed takes one. A status that R18 names is logged
with the same job, task and Tide. -/
def Block.fix (b : Block) (t : TaskRef) (status detail : Nat) : Block :=
  match b.graph t.half t.graph, b.task t with
  | some g, some c =>
    if c.phase = .waiting ∨ c.phase = .ready ∨ c.phase = .running then
      let b1 := (b.modTask t (fun c => { c with phase := .ended, status := status, detail := detail % 2 ^ 32, endTide := b.tide t.half })).dropRefs t
      if loggedStatus status then
        b1.log { event := 0x0010, half := t.half, kind := 0, job := g.job, task := some (t.graph, t.task), status := status,
                 arg0 := if status = stEndpointLost then detail else detail / 2 ^ 28, arg1 := detail }
      else b1
    else b
  | _, _ => b

/-- Fix a running task's status from a stop of one of its accesses; a far access whose bytes are still to come leaves it
running. -/
def Block.fixStop (b : Block) (t : TaskRef) : Stop → Block
  | .ended st d => b.fix t st d
  | .bad a => (b.noteUe a).fix t stDataError (tierDetail (tierOf a))
  | .need _ _ => b

/-! ## Completion queues (R406-R408) -/

/-- A queue pair. -/
def Block.pair (b : Block) (q : Nat) : QueuePair := b.pairs.getD q QueuePair.reset

/-- A block with a queue pair changed. -/
def Block.modPair (b : Block) (q : Nat) (f : QueuePair → QueuePair) : Block := { b with pairs := listMod b.pairs q f }

/-- Raise a queue's vector and clear its unsignalled count. -/
def Block.signalQueue (b : Block) (q : Nat) : Block :=
  (b.modPair q (fun p => { p with unsignalled := 0 })).raise (b.pair q).vec

/-- Count one more unsignalled entry; the vector is raised when COAL_COUNT are pending (0: every entry) or COAL_US is 0
(R408). -/
def Block.coalesce (b : Block) (q : Nat) : Block :=
  let p := b.pair q
  let b1 := b.modPair q (fun p => { p with unsignalled := p.unsignalled + 1,
                                           firstUnsignalled := if p.unsignalled = 0 then b.tide .a else p.firstUnsignalled })
  if p.coalCount ≤ p.unsignalled + 1 ∨ p.coalUs = 0 then b1.signalQueue q else b1

/-- Write a 32-byte entry into a completion queue: none when the queue is full or its pair disabled. The entry is given its
PHASE. -/
def Block.cqPush (b : Block) (q : Nat) (entry : Bool → List Byte) (atOnce : Bool) : Option Block :=
  let p := b.pair q
  if ¬ p.enabled ∨ 2 ^ p.cqLog2 ≤ p.cqHeld then none
  else
    let n := 2 ^ p.cqLog2
    let base := b.regFld (pairReg q 8) 59 12 * 4096
    let b1 := b.hostStore (base + 32 * p.cqTail) (entry p.cqPhase)
    let b2 := b1.modPair q (fun p => { p with cqTail := (p.cqTail + 1) % n, cqHeld := p.cqHeld + 1,
                                              cqPhase := if p.cqTail + 1 = n then !p.cqPhase else p.cqPhase })
    some (if atOnce then b2.signalQueue q else b2.coalesce q)

/-! ## Completion records (R47, R48) -/

/-- A task's completion record with its PHASE (R47). -/
def recordBytes (gid : Nat) (g : Graph) (c : TaskCtx) (phase : Bool) : List Byte :=
  leBytes 4 (gid % 4096 * 2 ^ 20 + c.desc.index) ++
  leBytes 4 (b2n phase * 2 ^ 31 + g.job % 4096 * 2 ^ 16 + c.status) ++
  leBytes 8 c.fireTide ++ leBytes 8 c.endTide ++ leBytes 4 c.detail ++
  leBytes 4 (b2n c.emptyRed * 2 ^ 24 + (c.cores.foldl min 0x7F) * 2 ^ 16 + g.step % 65536)

/-- Write a record into a home-tier ring as a write request of the graph's job: the local addresses, or why not (R48). A job that no slot holds any more
maps nothing. -/
def Block.ringCells (b : Block) (h : HalfId) (g : Graph) (l : List Byte) : Res (List Host.Cell) :=
  match b.slotOfJob g.job with
  | none => .error (.ended stXlate 8)
  | some k => match b.wrCells (b.access h k g.step []) 8 (g.ringBase + 32 * g.tail) l with
    | .error e => .error e
    | .ok cs => match b.badWrite cs with
      | some a => .error (.bad a)
      | none => .ok cs

/-- What became of a record. -/
inductive RecordWrite where
  | written (b : Block)
  | full
  | fault (status : Nat)
deriving DecidableEq, Repr

/-- Try to write a task's record into its ring (R48). -/
def Block.tryRecord (b : Block) (t : TaskRef) : RecordWrite :=
  match b.graph t.half t.graph, b.task t with
  | some g, some c =>
    match g.queue with
    | some q => match b.cqPush q (recordBytes t.graph g c) false with
      | some b1 => .written b1
      | none => .full
    | none =>
      let n := 2 ^ g.ringLog2
      if n ≤ g.held then .full
      else match b.ringCells t.half g (recordBytes t.graph g c g.phase) with
        | .error (.ended st _) => .fault st
        | .error (.bad _) => .fault stDataError
        | .error (.need _ _) => .fault stXlate
        | .ok cs =>
          .written ((b.storeCells cs).modGraph t.half t.graph (fun g =>
            { g with tail := (g.tail + 1) % n, held := g.held + 1, phase := if g.tail + 1 = n then !g.phase else g.phase }))
  | _, _ => .full

/-! ## Shape registers -/

/-- Shape register `i` of job slot `k` on a half. -/
def Block.shape (b : Block) (h : HalfId) (k i : Nat) : Nat := tabGet 0 (b.half h).shapes (4096 * k + i)

/-- A block with a shape register set. -/
def Block.setShape (b : Block) (h : HalfId) (k i v : Nat) : Block :=
  b.modHalf h (fun x => { x with shapes := tabSet 0 x.shapes (4096 * k + i) (v % 2 ^ 32) })

/-- Shape registers set in order from `i`. -/
def Block.setShapes (b : Block) (h : HalfId) (k i : Nat) : List Nat → Block
  | [] => b
  | v :: vs => (b.setShape h k i v).setShapes h k (i + 1) vs

/-- The counts of an expert receive's pairs, each into two registers of its sixteen (R134). -/
def Block.setPairShapes (b : Block) (h : HalfId) (k base : Nat) : List Nat → Block
  | [] => b
  | v :: vs => ((b.setShape h k (base + 1) v).setShape h k (base + 11) v).setPairShapes h k (base + 16) vs

/-- The shape registers that a task's end writes (R43, R46): zeros for ST_OK_EMPTY, its own values for another status that
fires tokens, none for ST_GATE_CLOSED or a failing status. -/
def Block.writeShapes (b : Block) (t : TaskRef) (g : Graph) (c : TaskCtx) : Block :=
  if c.desc.type = 0x08 ∧ c.desc.pf 0 63 60 = 4 ∧ c.status = stOk then b.setPairShapes t.half g.slot c.desc.shapeOutBase c.shapeOut else
  if c.status = stOkEmpty then b.setShapes t.half g.slot c.desc.shapeOutBase (List.replicate c.desc.shapeOutCount 0)
  else if c.status = stOk ∨ c.status = stConcealed then b.setShapes t.half g.slot c.desc.shapeOutBase (c.shapeOut.take c.desc.shapeOutCount)
  else b

/-! ## Statistics (R71, R72) -/

/-- Register address of word `w` of statistics record `i` of slot `k` (R76). -/
def statReg (h : HalfId) (k i w : Nat) : Nat := regBase h + 0x1000000 + k * 0x40000 + i * 0x40 + 8 * w

/-- Merge a capture into its record (R72). The capture's words are laid out as the record's, with VALID set. -/
def Block.mergeStat (b : Block) (h : HalfId) (k : Nat) (s : StatCapture) : Block :=
  let w (i : Nat) : Nat := (s.words.getD i 0).toNat
  let r (i : Nat) : Nat := (b.reg (statReg h k s.slot i)).toNat
  let put (x : Block) (i v : Nat) : Block := x.setReg (statReg h k s.slot i) (BitVec.ofNat 64 (min v (2 ^ 64 - 1)))
  let valid := bit (r 6) 0
  let recStep := bits (r 0) 63 32
  let capStep := bits (w 0) 63 32
  if ¬ valid ∨ recStep < capStep then
    (List.range 8).foldl (fun x i => put x i (w i)) b
  else if capStep < recStep then b.count (regBase h + 0x1C00000) 31 0 1
  else
    let recPost := bit (r 6) 1
    let capPost := bit (w 6) 1
    let origin := if capPost then (if recPost then min (bits (r 6) 31 16) (bits (w 6) 31 16) else bits (w 6) 31 16) else bits (r 6) 31 16
    let b1 := put b 0 (recStep * 2 ^ 32 + max (bits (r 0) 31 0) (bits (w 0) 31 0))
    let b2 := [1, 2, 3, 4, 5, 7].foldl (fun x i => put x i (r i + w i)) b1
    put b2 6 (origin * 65536 + (r 6 ||| w 6) % 8)

/-- A task's captures merged, when its status is ST_OK or ST_OK_EMPTY (R72). -/
def Block.mergeStats (b : Block) (t : TaskRef) (g : Graph) (c : TaskCtx) : Block :=
  if c.status = stOk ∨ c.status = stOkEmpty then c.stats.foldl (fun x s => x.mergeStat t.half g.slot s) b else b

/-! ## Tokens and the end (R46, R49) -/

/-- The log record that matches the first ST_ABORTED_DISABLE of a disable (R18). -/
def Block.logAborted (b : Block) (detail : Nat) (t : TaskRef) : Block :=
  b.log { event := 0x0010, half := t.half, job := ((b.graph t.half t.graph).map (fun g => g.job)).getD 0, task := some (t.graph, t.task),
          status := stAborted, arg1 := detail }

/-- The origin that a failed task's cancellations carry: the one it was cancelled with, or its own index. -/
def TaskCtx.failOrigin (c : TaskCtx) : Nat :=
  if c.status = stCancelled then c.origin.getD c.desc.index else c.desc.index

/-- The tokens, or the cancellations, of a task go out (R46 step 4). -/
def Block.sendTokens (b : Block) (t : TaskRef) (c : TaskCtx) : Block :=
  let m := c.outs.map (fun i => ({ graph := t.graph, task := i, cancel := if firesTokens c.status then none else some c.failOrigin } : TokenMsg))
  b.modHalf t.half (fun x => { x with tokens := x.tokens ++ m })

/-- What a launch task that waits for its graph takes (R33): a task that runs no more, or that waits for another graph, is left alone. -/
def Block.tellLauncher (b : Block) (l : TaskRef) (gid stage : Nat) : Block :=
  b.modTask l (fun c => if c.phase = .running ∧ c.desc.type = 0x0B ∧ c.stage = 1 ∧ c.detail = gid then { c with stage := stage } else c)

/-- A half's Harbour with no task of a graph in its queues: the graph's ID may be used again (R29, R258). -/
def Harbour.forget (x : Harbour) (gid : Nat) : Harbour :=
  { x with units := x.units.map (fun q => (q.1, q.2.filter (fun t => t.graph ≠ gid))),
           streams := x.streams.map (fun q => (q.1, { q.2 with queue := q.2.queue.filter (fun t => t.graph ≠ gid) })),
           mergeUsers := x.mergeUsers.filter (fun t => t.graph ≠ gid) }

/-- A graph whose every task has its record leaves; its launcher learns whether every record fired tokens (R33). -/
def Block.closeGraph (b : Block) (h : HalfId) (gid : Nat) : Block :=
  match b.graph h gid with
  | none => b
  | some g =>
    if g.tasks.all (fun c => c.phase = .recorded) then
      let b1 := b.modHalf h (fun x => { x with graphs := tabDel x.graphs gid, tokens := x.tokens.filter (fun m => m.graph ≠ gid),
                                               harbour := x.harbour.forget gid })
      match g.launcher with
      | some l => b1.tellLauncher l gid (if g.tasks.all (fun c => firesTokens c.status) then 2 else 3)
      | none => b1
    else b

/-- A task's record is in its ring: its tokens or cancellations follow, and its graph may be complete. -/
def Block.afterRecord (b : Block) (t : TaskRef) (c : TaskCtx) : Block :=
  ((b.modTask t (fun c => { c with phase := .recorded })).sendTokens t c).closeGraph t.half t.graph

/-- Write a task's record and let its tokens follow; on a full ring or a faulting page the task waits, and a faulting page is
logged once (R48). -/
def Block.finishRecord (b : Block) (t : TaskRef) : Block :=
  match b.graph t.half t.graph, b.task t with
  | some g, some c =>
    match b.tryRecord t with
    | .written b1 => b1.afterRecord t c
    | .full => b.modTask t (fun c => { c with phase := .recordWait })
    | .fault st =>
      let b1 := (b.modTask t (fun c => { c with phase := .recordWait })).modGraph t.half t.graph (fun g => { g with ringFaultLogged := true })
      if g.ringFaultLogged then b1 else b1.log { event := 0x0010, half := t.half, job := g.job, status := st, arg1 := g.ringBase }
  | _, _ => b

/-- The Tide cycles of 1.8 GHz in a span of nanoseconds. -/
def cyclesOf (ns : Nat) : Nat := ns * 9 / 5

end Sys2Proof.Machine
end

