-- ==== Sys2Proof/Machine/Net.lean ====
section
/-! DEFINITION. Packets and the router (spec/12_efing_and_tide.md R309-R322): the header's fields, the exit of a
destination, and a packet's way out through a link's credits and replay buffer. -/

namespace Sys2Proof.Machine

/-! ## The header (R316) -/

def pkDest (p : Packet) : Nat := fld p.w0 63 48
def pkSrc (p : Packet) : Nat := fld p.w0 47 32
def pkJob (p : Packet) : Nat := fld p.w0 31 20
def pkClass (p : Packet) : Nat := fld p.w0 19 16
def pkLength (p : Packet) : Nat := fld p.w0 12 0
def pkSeq (p : Packet) : Nat := fld p.w1 63 32
def pkHops (p : Packet) : Nat := fld p.w1 31 29
def pkOp (p : Packet) : Nat := fld p.w1 23 16
def pkTag (p : Packet) : Nat := fld p.w1 13 0
def pkBlock (p : Packet) : Nat := fld p.w3 63 40
def pkCrc (p : Packet) : Nat := fld p.w3 31 0
def pkStep (p : Packet) : Nat := fld p.w2 63 32
def pkPhase (p : Packet) : Nat := fld p.w2 31 16
def pkOrigin (p : Packet) : Nat := fld p.w2 15 0

/-- The CRC of a packet (R316): over the header with the field zero, then the payload. -/
def packetCrc (p : Packet) : Nat :=
  crc32c (leBytes 8 p.w0.toNat ++ leBytes 8 p.w1.toNat ++ leBytes 8 p.w2.toNat ++ leBytes 8 (setFld p.w3 31 0 0).toNat ++ p.payload)

/-- The endpoint number of a half (R12). -/
def Block.endpoint (b : Block) (h : HalfId) : Nat := b.regFld (zilReg 0x40) 63 51 * 2 + halfNum h

/-- The endpoints of the roster's trays (R335). -/
def Block.rosterEndpoints (b : Block) : List Nat := (b.domain.roster.map (fun y => (List.range 8).map (fun i => 8 * y + i))).flatten

/-- Where messages to the leader go: half A of its module, when a leader is known (R389, R398; DESIGN CHOICE, log entry 48). -/
def Block.leaderEp (b : Block) (h : HalfId) : Option Nat :=
  if b.regFld (gateReg h 0x10) 47 47 = 1 then some (2 * b.regFld (gateReg h 0x10) 63 51) else none

/-- The module number (R12). -/
def Block.moduleNo (b : Block) : Nat := b.regFld (zilReg 0x40) 63 51

/-- A packet's largest payload by class (R317). -/
def classMax : Nat → Nat
  | 0 => 4096
  | 1 => 4096
  | 2 => 4096
  | 3 => 4096
  | 4 => 224
  | 5 => 224
  | _ => 0

/-- The 32-byte units of a packet (R311). -/
def pkUnits (p : Packet) : Nat := 1 + cdiv p.payload.length 32

/-- A packet of a half, numbered from its end-to-end sequence (R316). -/
def Block.makePacket (b : Block) (h : HalfId) (dest job cls op tag : Nat) (w2 : Nat) (block : Nat) (payload : List Byte) :
    Packet × Block :=
  let key := dest * 16 + cls
  let seq := tabGet 0 (b.half h).efing.seqTx key
  let p0 : Packet :=
    { w0 := BitVec.ofNat 64 (dest % 65536 * 2 ^ 48 + b.endpoint h * 2 ^ 32 + job % 4096 * 2 ^ 20 + cls * 2 ^ 16 + payload.length),
      w1 := BitVec.ofNat 64 (seq % 2 ^ 32 * 2 ^ 32 + op % 256 * 2 ^ 16 + tag % 16384), w2 := BitVec.ofNat 64 w2,
      w3 := BitVec.ofNat 64 (block % 2 ^ 24 * 2 ^ 40), payload := payload }
  ({ p0 with w3 := setFld p0.w3 31 0 (packetCrc p0) },
   b.modHalf h (fun x => { x with efing := { x.efing with seqTx := tabPut x.efing.seqTx key ((seq + 1) % 2 ^ 32) } }))

/-! ## Links -/

/-- Link `x` of a half: 0-8 ports, 9 the Isthmus. -/
def Block.port (b : Block) (h : HalfId) (x : Nat) : Port := (b.half h).efing.ports.getD x Port.reset

/-- A block with one link changed. -/
def Block.modPort (b : Block) (h : HalfId) (x : Nat) (f : Port → Port) : Block :=
  b.modHalf h (fun y => { y with efing := { y.efing with ports := listMod y.efing.ports x f } })

/-- The route byte of a destination (R321). -/
def Block.routeByte (b : Block) (h : HalfId) (dest : Nat) : Nat := (b.reg (efReg h (0x8000 + dest))).toNat % 256

/-- Whether an exit carries a packet of a class now: an Up link, or a link in Slack for time and management (R337). -/
def Block.exitOpen (b : Block) (h : HalfId) (x cls : Nat) : Bool :=
  if x = 0xE then true
  else if x ≤ 9 then (b.port h x).st = 2 || ((b.port h x).st = 3 && (cls = 4 || cls = 5))
  else false

/-- The exit of a destination: the primary when open, else the alternate when open (R321). -/
def Block.exitFor (b : Block) (h : HalfId) (dest cls : Nat) : Option Nat :=
  let r := b.routeByte h dest
  if b.exitOpen h (r / 16) cls then some (r / 16)
  else if b.exitOpen h (r % 16) cls then some (r % 16)
  else none

/-- One link sends what its credits and its replay buffer allow: a packet leaves in a codeword group of its own, which stays
in the replay buffer until an ACK covers it (R312, R314). -/
def Port.canSend (x : Port) (p : Packet) : Bool :=
  decide (x.replay.length < 128) && decide (pkUnits p ≤ x.credits.getD (pkClass p) 0)

/-- The control word of a group (R310). -/
def controlWord (seq ack kind cr0c cr0n cr1c cr1n lstate : Nat) : Word :=
  BitVec.ofNat 64 (seq % 4096 * 2 ^ 52 + ack % 4096 * 2 ^ 40 + kind % 4 * 2 ^ 38 + cr0c % 8 * 2 ^ 35 + cr0n % 1024 * 2 ^ 25 +
    cr1c % 8 * 2 ^ 22 + cr1n % 1024 * 2 ^ 12 + lstate % 16 * 2 ^ 8)

/-- Put a packet on a link, or behind those that wait for it. -/
def Block.linkSend (b : Block) (h : HalfId) (x : Nat) (p : Packet) : Block :=
  let l := b.port h x
  if l.queue.isEmpty && l.canSend p then
    (b.modPort h x (fun l => { l with
      replay := l.replay ++ [{ seq := l.sendSeq, tide := b.tide h, replays := 0, packets := [p] }], sendSeq := (l.sendSeq + 1) % 4096,
      credits := listMod l.credits (pkClass p) (fun c => c - pkUnits p) })).emit (.packet h x p)
  else b.modPort h x (fun l => { l with queue := l.queue ++ [(b.tide h, p)] })

/-- Send what a link's queue holds, as far as its credits and replay buffer allow. -/
def Block.drainLink (b : Block) (h : HalfId) (x : Nat) : Nat → Block
  | 0 => b
  | fuel + 1 =>
    let l := b.port h x
    match l.queue with
    | [] => b
    | p :: rest =>
      if l.canSend p.2 then
        ((b.modPort h x (fun l => { l with queue := [] })).linkSend h x p.2 |>.modPort h x (fun l => { l with queue := rest })).drainLink h x fuel
      else b

/-- Send a packet by an exit. -/
def Block.sendBy (b : Block) (h : HalfId) (x : Nat) (p : Packet) : Block :=
  if x = 0xE then b.emit (.packet h 0xE p) else b.linkSend h x p

/-- The hold that a packet of a class falls under (R322). -/
def Block.holdFor (b : Block) (h : HalfId) (dest cls : Nat) : Option RouteHold :=
  (tabFind (b.half h).efing.holds dest).bind (fun q => if cls < 4 ∨ q.all then some q else none)

/-- Route a packet out of a half: held while its destination's exit is changing (R322), else by its exit; an unroutable one
is discarded and counted (R321). -/
def Block.routeOut (b : Block) (h : HalfId) (p : Packet) : Block :=
  match b.holdFor h (pkDest p) (pkClass p) with
  | some hold => b.modHalf h (fun x => { x with efing := { x.efing with
      holds := tabPut x.efing.holds (pkDest p) { hold with packets := hold.packets ++ [p] } } })
  | none => match b.exitFor h (pkDest p) (pkClass p) with
    | some x => b.sendBy h x p
    | none => b.count (efReg h 0x18) 47 32 1

/-- The router holds new packets for a destination whose exit has changed, for 10 × EF_HOP_TIMEOUT (R322). `old` is the half
before the change; at a port's first rise (`again` false) a destination that had no exit is not held. -/
def Block.holdDest (b old : Block) (h : HalfId) (again : Bool) (dest : Nat) : Block :=
  let moved (cls : Nat) : Bool := match old.exitFor h dest cls, b.exitFor h dest cls with
    | some x, some y => x ≠ y
    | none, some _ => again
    | some _, none => false
    | none, none => false
  if moved 0 || moved 5 then
    b.modHalf h (fun x => { x with efing := { x.efing with
      holds := tabPut x.efing.holds dest
        { until_ := b.tide h + 10 * b.regFld (efReg h 0x10) 29 0, all := moved 5,
          packets := ((tabFind x.efing.holds dest).map (fun q => q.packets)).getD [] } } })
  else b

/-- Destinations held one after another. -/
def Block.holdDests (b old : Block) (h : HalfId) (again : Bool) : List Nat → Block
  | [] => b
  | d :: ds => (b.holdDest old h again d).holdDests old h again ds

/-- The routes of a half after a link left Up or rose (R322). -/
def Block.rerouted (b old : Block) (h : HalfId) (again : Bool) : Block := b.holdDests old h again (List.range 16384)

/-- Whether a half can route a packet of a class to a destination: otherwise its task ends with ST_ENDPOINT_LOST (R321). -/
def Block.routable (b : Block) (h : HalfId) (dest cls : Nat) : Bool :=
  (b.holdFor h dest cls).isSome || (b.exitFor h dest cls).isSome

/-- Make and send a packet. -/
def Block.send (b : Block) (h : HalfId) (dest job cls op tag w2 block : Nat) (payload : List Byte) : Block :=
  let r := b.makePacket h dest job cls op tag w2 block payload
  r.2.routeOut h r.1

/-- Answer a request packet with a response: the request's OP, TAG and JOB_ID, a status, and data with ST_OK alone (R318). -/
def Block.respond (b : Block) (h : HalfId) (p : Packet) (status : Nat) (data : List Byte) : Block :=
  b.send h (pkSrc p) (pkJob p) 1 (pkOp p) (pkTag p) status 0 (if status = stOk then data else [])

/-- Send a management packet. -/
def Block.manage (b : Block) (h : HalfId) (dest op : Nat) (payload : List Byte) : Block := b.send h dest 0 5 op 0 0 0 payload

/-- Send the leader a message, when a leader is known. -/
def Block.tellLeader (b : Block) (h : HalfId) (op : Nat) (payload : List Byte) : Block :=
  match b.leaderEp h with
  | some e => b.manage h e op payload
  | none => b

/-- The bytes COL_CUT_BYTES_c counts, with the class of the exit taken (R344, R367). -/
def Block.countCut (b : Block) (h : HalfId) (cut dest n : Nat) : Block :=
  match b.exitFor h dest 2 with
  | none => b
  | some 0xE => b
  | some x =>
    let cls := if x = 9 then 0 else (b.port h x).linkClass
    b.modReg (colReg h (0x240 + 8 * cut)) (fun w => setFld (setFld w 61 0 (fld w 61 0 + n)) 63 62 cls)

/-- A collective COLL word (R317). -/
def collWord (step phase origin : Nat) : Nat := step % 2 ^ 32 * 2 ^ 32 + phase % 65536 * 65536 + origin % 65536

/-! ## Arrival (R320) -/

/-- Whether a packet is malformed at a half (R316, R317, R320). -/
def malformed (p : Packet) : Bool :=
  let c := pkClass p
  decide (5 < c) || decide (classMax c < pkLength p) || decide (p.payload.length ≠ pkLength p) || decide (fld p.w0 15 13 ≠ 0) ||
    decide (fld p.w1 28 24 ≠ 0) || decide (fld p.w1 15 14 ≠ 0) || decide (fld p.w3 39 32 ≠ 0) ||
    (c ≠ 2 && c ≠ 3 && decide (pkBlock p ≠ 0)) || (c = 1 && decide (fld p.w2 63 16 ≠ 0)) || (c = 4 && decide (pkHops p ≠ 0))

/-- The sequence number of a packet is taken: a gap is counted, and the first from a source is logged (R320). -/
def Block.takeSeq (b : Block) (h : HalfId) (p : Packet) : Block :=
  let key := pkSrc p * 16 + pkClass p
  let b1 := b.modHalf h (fun x => { x with efing := { x.efing with seqRx := tabPut x.efing.seqRx key ((pkSeq p + 1) % 2 ^ 32) } })
  if pkSeq p = tabGet 0 (b.half h).efing.seqRx key then b1
  else
    let b2 := b1.count (efReg h 0x20) 63 32 1
    if (b2.half h).efing.gapLogged.contains (pkSrc p) then b2
    else (b2.modHalf h (fun x => { x with efing := { x.efing with gapLogged := x.efing.gapLogged ++ [pkSrc p] } })).log
      { event := Config.gapEvent, half := h, arg0 := pkSrc p, arg1 := pkSeq p }

/-- A control word of a link with nothing of its own to carry (R310): the next SEQ, the last SEQ taken in order, and what is asked. -/
def Block.control (b : Block) (h : HalfId) (x kind cls n lstate : Nat) : Block :=
  let l := b.port h x
  b.emit (.control h x (controlWord l.sendSeq (l.recvSeq + 4095) kind cls n 0 0 lstate))

/-- A packet leaves its receive buffer, and its credits return to the sender (R314). -/
def Block.unbuffer (b : Block) (h : HalfId) (p : Packet) : Block :=
  match (b.half h).efing.arrived.find? (fun a => a.packet = p) with
  | none => b
  | some a => (b.modHalf h (fun x => { x with efing := { x.efing with arrived := x.efing.arrived.erase a } })).control h a.exit 1 (pkClass p) (pkUnits p) 0

/-- A packet reaches its destination half (R320, R336): a malformed one, one whose CRC fails, and one of a class that the roster
does not admit are discarded and counted; any other is delivered. -/
def Block.receive (b : Block) (h : HalfId) (p : Packet) (cls : Nat) (ops : List Nat) (f : Block → Block) : Block :=
  if pkDest p ≠ b.endpoint h ∨ pkClass p ≠ cls ∨ ¬ ops.contains (pkOp p) then b
  else
    let b := b.unbuffer h p
    if malformed p then b.count (efReg h 0x18) 63 48 1
    else if cls < 4 ∧ ¬ ((b.half h).efing.census = 2 ∧ b.domain.roster.contains (pkSrc p / 8)) then b.count (efReg h 0x20) 31 0 1
    else if packetCrc p ≠ pkCrc p then b.count (efReg h 0x18) 15 0 1
    else f (b.takeSeq h p)

end Sys2Proof.Machine
end

