-- ==== Sys2Proof/Machine/Steps.lean ====
section
/-! DEFINITION. Step records (spec/14_when_a_step_fails.md R370, R398): what a half notes of each step of a job until its verdict. -/

namespace Sys2Proof.Machine

/-- A fresh record of a step. -/
def StepRecord.fresh (k step : Nat) : StepRecord :=
  { slot := k, step := step, nonFinite := false, nfOrigin := 0xFFFF, fail := false, late := false, lateEp := 0xFFFF, skips := 0, comb := 0,
    holds := [], verdict := none, repeats := 0, repeating := false }

/-- A half's record of a step of a slot. -/
def Block.stepRecord (b : Block) (h : HalfId) (k step : Nat) : Option StepRecord := (b.half h).steps.find? (fun r => r.slot = k && r.step = step)

/-- The undecided records of a slot. -/
def Block.undecided (b : Block) (h : HalfId) (k : Nat) : List StepRecord := (b.half h).steps.filter (fun r => r.slot = k && r.verdict.isNone)

/-- GATE_STEP_k follows the records (R398): the lowest undecided step, its REPEATS and LATE_EP. With none undecided STEP is the step after the
last decided one (DEDUCED, log entry 50). -/
def Block.syncStep (b : Block) (h : HalfId) (k : Nat) : Block :=
  let put (step rep ep : Nat) : Block :=
    ((b.setRegFld (gateReg h (0x200 + 8 * k)) 63 32 step).setRegFld (gateReg h (0x200 + 8 * k)) 31 28 (min rep 15)).setRegFld
      (gateReg h (0x200 + 8 * k)) 23 8 ep
  match b.undecided h k with
  | [] => match (b.half h).steps.filter (fun r => r.slot = k) with
    | [] => b
    | l => put ((l.map (fun r => r.step)).foldl max 0 + 1) 0 0xFFFF
  | r :: rs =>
    let m := rs.foldl (fun x y => if y.step < x.step then y else x) r
    put m.step m.repeats m.lateEp

/-- A half's record of a step changed. -/
def Block.modStep (b : Block) (h : HalfId) (k step : Nat) (f : StepRecord → StepRecord) : Block :=
  (b.modHalf h (fun x => { x with steps := x.steps.map (fun r => if r.slot = k ∧ r.step = step then f r else r) })).syncStep h k

/-- Whether a graph of a step may be admitted: its step has a record, or fewer than four are undecided (R370). -/
def Block.stepRoom (b : Block) (h : HalfId) (k step : Nat) : Bool := (b.stepRecord h k step).isSome || decide ((b.undecided h k).length < 4)

/-- A step's record, made if there is none. -/
def Block.openStep (b : Block) (h : HalfId) (k step : Nat) : Block :=
  if (b.stepRecord h k step).isSome then b
  else (b.modHalf h (fun x => { x with steps := x.steps ++ [StepRecord.fresh k step] })).syncStep h k

/-- PWR_JOB_k is cleared (R473). -/
def Block.clearEnergy (b : Block) (k : Nat) : Block :=
  b.setPower { b.power with cur := b.power.cur.filter (fun e => e.1 / 2 ^ 32 ≠ k), last := b.power.last.filter (fun e => e.1 ≠ k) }

/-- The energy of a decided step moves from CUR_MJ to LAST_MJ of its slot (R468); what the other half's tasks used after that is added when
the verdict reaches that half. -/
def Block.closeEnergy (b : Block) (k step : Nat) : Block :=
  let e := tabGet 0 b.power.cur (2 ^ 32 * k + step)
  let old := tabGet (0, 0) b.power.last k
  b.setPower { b.power with cur := tabDel b.power.cur (2 ^ 32 * k + step),
                                   last := tabSet (0, 0) b.power.last k (step, if old.1 = step then old.2 + e else e) }

/-- A task of a step has ended (R370): FAIL, or LATE and LATE_EP. -/
def Block.noteEnd (b : Block) (h : HalfId) (k step status detail : Nat) : Block :=
  if firesTokens status ∨ status = stStepRepeat then b
  else if status = stDeadlineLate then
    b.modStep h k step (fun r => { r with late := true, lateEp := if detail % 65536 = 0xFFFF then r.lateEp else min r.lateEp (detail % 65536) })
  else b.modStep h k step (fun r => { r with fail := true })

/-- A collective of a step met a non-finite block (R370). -/
def Block.noteNf (b : Block) (h : HalfId) (k step origin : Nat) : Block :=
  b.modStep h k step (fun r => { r with nonFinite := true, nfOrigin := min r.nfOrigin origin })

/-- The graph headers of a slot that a repeat would re-admit (R381): at most 1,024. -/
def Block.headersHeld (b : Block) (h : HalfId) (k : Nat) : Nat := ((b.half h).repeatHeaders.filter (fun w => w.graph.slot = k)).length

/-- Whether a graph came from PCIe or Efing (R381). -/
def fromOutside : SourceId → Bool
  | .queue _ => true
  | .efing _ => true
  | .launch _ => false

/-- Whether a waiting graph may be admitted as far as its step goes: R370's records, and room for its header (R381). -/
def Block.stepAdmits (b : Block) (h : HalfId) (w : WaitingGraph) : Bool :=
  b.stepRoom h w.graph.slot w.graph.step && (!(fromOutside w.source) || w.again || decide (b.headersHeld h w.graph.slot < 1024))

/-- A graph's step is opened and its header kept while the step is undecided. -/
def Block.stepAdmit (b : Block) (h : HalfId) (w : WaitingGraph) : Block :=
  let b1 := b.openStep h w.graph.slot w.graph.step
  if fromOutside w.source ∧ ¬ w.again ∧ ((b1.stepRecord h w.graph.slot w.graph.step).map (fun r => r.verdict.isNone)).getD false then
    b1.modHalf h (fun x => { x with repeatHeaders := x.repeatHeaders ++ [w] })
  else b1

end Sys2Proof.Machine
end

