-- ==== Sys2Proof/Machine/Saffron.lean ====
section
/-! DEFINITION. Saffron (spec/02_saffron_task_graphs.md): admission, tokens, readiness, records, launches and the disable
sequence. Firing stands in Fire.lean, after the families whose check-1 rules it runs. -/

namespace Sys2Proof.Machine

/-! ## Reporting offsets (R492) -/

/-- An offset: WHERE, STRUCT and DESC_OFF. -/
def r492 (where_ struct descOff : Nat) : Nat := where_ % 2 ^ 20 * 4096 + struct % 8 * 256 + descOff % 256

/-- A field of the task descriptor at byte `off`. -/
def offDesc (off : Nat) : Nat := r492 0 0 off

/-- A field of the tensor descriptor of operand slot `s`, at byte `w` of it. -/
def offTensor (s w : Nat) : Nat := r492 w 1 (32 + 8 * s)

/-- A field of a table or list that the PARAMS word at byte `off` names, in entry `i`. -/
def offTable (off i : Nat) : Nat := r492 i 6 off

/-- An admission that fails: the status, the offending task and offset (R28, R492). -/
structure AdmFail where
  status : Nat
  task : Nat
  offset : Nat
deriving DecidableEq, Repr

/-- The task index that names a fault of the graph header or the submission entry. -/
def headerTask : Nat := 0xFFFFF

/-! ## Reading a graph -/

/-- A byte read for admission. -/
def Block.rdGraph (b : Block) (a : Access) (va : Nat) : Res Byte := b.rdNow a 8 va

/-- `n` bytes read for admission, from `va`: the status of the first that fails and its place among them. -/
def Block.rdGraphN (b : Block) (a : Access) (va : Nat) : Nat → Nat → Except (Nat × Nat) (List Byte)
  | 0, _ => .ok []
  | n + 1, i => match b.rdGraph a (va + i) with
    | .error (.ended st _) => .error (st, i)
    | .error (.bad _) => .error (stDataError, i)
    | .error (.need _ _) => .error (stXlate, i)
    | .ok x => match b.rdGraphN a va n (i + 1) with
      | .error e => .error e
      | .ok xs => .ok (x :: xs)

/-- A graph header's fields (R27). -/
structure Header where
  tasks : Nat
  tokens : Nat
  taskCount : Nat
  tokenCount : Nat
  job : Nat
  step : Nat
  ring : Nat
  ringLog2 : Nat
deriving DecidableEq, Repr

/-- A header that names a job alone: what is reported of a graph whose own header was refused. -/
def Header.empty (job : Nat) : Header :=
  { tasks := 0, tokens := 0, taskCount := 0, tokenCount := 0, job := job, step := 0, ring := 0, ringLog2 := 0 }

/-- The header that 64 bytes hold. -/
def parseHeader (l : List Byte) : Header :=
  { tasks := u64At l 0, tokens := u64At l 8, taskCount := bits (u64At l 16) 19 0, tokenCount := bits (u64At l 16) 63 32,
    job := bits (u64At l 24) 11 0, step := bits (u64At l 24) 63 32, ring := u64At l 32, ringLog2 := bits (u64At l 40) 4 0 }

/-- The first header field that check 4 faults (R27, R28), by its byte. R28 lists no fault for a field outside the ranges of R27's table (TASK_COUNT, the
alignment of TASKS and TOKENS, RING_LOG2, a RING in another space): ST_ADMISSION is the model's choice (DESIGN CHOICE, log entry 64). -/
def headerFault (l : List Byte) : Option Nat :=
  let h := parseHeader l
  if bits (u64At l 16) 31 20 ≠ 0 then some 18
  else if bits (u64At l 24) 31 12 ≠ 0 then some 25
  else if bits (u64At l 40) 31 5 ≠ 0 then some 40
  else if bits (u64At l 40) 63 32 ≠ 0 ∨ u64At l 48 ≠ 0 ∨ u64At l 56 ≠ 0 then some 44
  else if h.taskCount = 0 ∨ 524288 < h.taskCount then some 16
  else if h.tasks % 128 ≠ 0 ∨ 2 ^ 48 ≤ h.tasks then some 0
  else if h.tokens % 4 ≠ 0 ∨ 2 ^ 48 ≤ h.tokens then some 8
  else if h.ring / 2 ^ 60 = 0xF then (if bits h.ring 59 6 ≠ 0 then some 32 else none)
  else if 2 ^ 48 ≤ h.ring then some 32
  else if h.ringLog2 < 6 ∨ 20 < h.ringLog2 then some 40
  else none

/-- Bits 63:60 of offset 96: MODE or OP of most types. -/
def TaskDesc.mode4 (d : TaskDesc) : Nat := d.pf 0 63 60

/-- The PARAMS bits that a tier move task's mode uses (R219, R220). -/
def moveMasks (d : TaskDesc) : List Nat :=
  let m := mask 63 60
  match d.mode4 with
  | 0 => [m, 0, 0, 0]
  | 1 => [mask 63 56 ||| mask 54 53 ||| mask 47 0, mask 47 0, if 3 ≤ d.pf 0 59 57 then all64 else 0, 0]
  | 2 => [m ||| mask 47 0, mask 47 0, 0, 0]
  | 3 => [mask 63 57 ||| mask 55 53 ||| mask 47 0, mask 47 0, all64, all64]
  | 4 => [m, mask 47 0, 0, 0]
  | 5 => [m, 0, all64, all64]
  | 6 => [m ||| mask 55 55, mask 47 0, 0, 0]
  | _ => [all64, all64, all64, all64]

/-- The PARAMS bits that a collective's OP uses (R345). -/
def collMasks (d : TaskDesc) : List Nat :=
  let op := d.mode4
  [mask 63 19 ||| mask 15 0, all64,
   mask 63 52 ||| (if op ≤ 1 then (if d.pf 0 31 30 = 1 then mask 51 44 else 0)
     else if op = 2 then mask 43 43 ||| (if d.pf 2 43 43 = 1 then mask 42 32 else 0)
     else if op ≤ 6 then mask 51 7 else if op ≤ 8 then mask 31 18 else 0),
   if op = 4 ∨ op = 5 then mask 63 56 else 0]

/-- The PARAMS bits that a media task's OP uses (R270, R274, R281, R294, R298, R302). -/
def mediaMasks (d : TaskDesc) : List Nat :=
  let w := mask 63 47
  let op := mask 63 56
  match d.pf 0 63 56 with
  | 1 => [w ||| 2 ^ 46 ||| mask 31 8, mask 63 48, mask 47 0, 0]
  | 2 => [w ||| 2 ^ 46, mask 63 14, 0, 0]
  | 3 => [w ||| mask 46 43, mask 63 30, mask 47 0, 0]
  | 4 => [w, 0, 0, 0]
  | 0x10 => [op ||| 2 ^ 52, 0, 0, 0]
  | 0x11 => [op, 0, mask 47 0, 0]
  | 0x12 => [op ||| mask 55 50, mask 63 26, mask 47 0, mask 63 45]
  | 0x13 => [op, mask 63 32, 0, 0]
  | 0x14 => match d.pf 0 55 53 with
    | 0 => [op ||| mask 55 52 ||| mask 50 32, all64, mask 47 0, mask 63 52 ||| mask 47 0]
    | 1 => [op ||| mask 55 53 ||| mask 50 48, all64, mask 47 0, 0]
    | 2 => [op ||| mask 55 53 ||| mask 50 32 ||| mask 31 23, all64, mask 47 0, mask 63 40]
    | 3 => [op ||| mask 55 53 ||| mask 51 48, all64, mask 47 0, 0]
    | _ => [all64, all64, all64, all64]
  | _ => [all64, all64, all64, all64]

/-- The PARAMS bits that a task's type and mode use, word by word; every other bit is reserved (R33, R90, R143, R155-R157, R172, R177-R179,
R192, R193, R219-R221, R345, R375, R409, R460). A reserved mode, which fails at firing, has none here. -/
def allowedParams (d : TaskDesc) : List Nat :=
  match d.type with
  | 0x01 => [mask 63 17, mask 31 0, 0, 0]
  | 0x02 => match d.mode4 with
    | 0 => [mask 63 31, mask 63 56 ||| mask 51 0, 0, 0]
    | 1 => [mask 63 31, mask 63 6, 0, 0]
    | 2 => [mask 63 31, mask 63 30, 0, 0]
    | 3 => [mask 63 31, mask 63 54, 0, 0]
    | _ => [all64, all64, all64, all64]
  | 0x03 => [mask 63 26, mask 63 12, all64, mask 63 28]
  | 0x04 => match d.mode4 with
    | 3 => [mask 63 48 ||| 2 ^ 35, all64, all64, mask 63 32]
    | 4 => [mask 63 48 ||| 2 ^ 35, all64, mask 63 46, 0]
    | _ => [mask 63 6, mask 63 6, mask 63 28, all64]
  | 0x05 => [mask 63 59, 0, 0, 0]
  | 0x06 => moveMasks d
  | 0x07 => if d.mode4 = 0 then [mask 63 60 ||| mask 47 0, mask 47 0, all64, all64] else [mask 63 60, 0, all64, all64]
  | 0x08 => collMasks d
  | 0x09 => mediaMasks d
  | 0x0A => [mask 63 58, all64, 0, 0]
  | 0x0B => [all64, 0, 0, 0]
  | 0x0C => [0, 0, 0, 0]
  | 0x0D => if d.mode4 = 1 then [mask 63 60, mask 63 32, all64, 0] else [mask 63 16, 0, 0, 0]
  | 0x0E => [all64, mask 63 41, 0, 0]
  | _ => [all64, all64, all64, all64]

/-- Whether every bit of a PARAMS word is reserved. -/
def wholeReserved (l : List Nat) (w : Nat) : Bool := l.getD w 0 = 0

/-- The lowest bits of the fields of a PARAMS word that some modes use and others leave reserved (R219, R345, R375). -/
def fieldStarts (type op w : Nat) : List Nat :=
  if type = 0x06 ∨ type = 0x07 then [[0, 48, 53, 54, 55, 56, 57, 60], [0, 48], [0], [0, 32]].getD w []
  else if type = 0x0D then [[16, 17, 18, 24, 36, 48], [32, 48], [0], []].getD w []
  else if type = 0x08 then [[], [], if 3 ≤ op ∧ op ≤ 6 then [] else [18, 32, 43, 44], [56]].getD w []
  else []

/-- The lowest bit of the field, or of the run of reserved bits, within a word that holds bit `i`. -/
def runStart (used : Nat) (starts : List Nat) : Nat → Nat
  | 0 => 0
  | i + 1 => if starts.contains (i + 1) || bit used i then i + 1 else runStart used starts i

/-- The byte that holds the lowest bit of the reserved field of PARAMS in which bit `i` of word `w` lies (R492): a run of reserved bits within
a word, or wholly reserved words that follow each other (DEDUCED, log entry 57). -/
def reservedByte (l : List Nat) (starts : Nat → List Nat) : Nat → Nat → Nat
  | 0, i => 96 + runStart (l.getD 0 0) (starts 0) i / 8
  | w + 1, i =>
    if wholeReserved l (w + 1) && wholeReserved l w && (starts (w + 1)).isEmpty then reservedByte l starts w 0
    else 96 + 8 * (w + 1) + runStart (l.getD (w + 1) 0) (starts (w + 1)) i / 8

/-- The first reserved field of a task's PARAMS with a bit set (R5, R28): what is reserved follows the type and its mode (DEDUCED, log entry 57). -/
def paramsFault (d : TaskDesc) : Option Nat :=
  let l := allowedParams d
  (List.range 4).findSome? (fun w =>
    (List.range 64).findSome? (fun i => if bit ((d.params.getD w 0).toNat) i && !(bit (l.getD w 0) i) then some (reservedByte l (fieldStarts d.type d.mode4) w i)
      else none))

/-- The range of CORES of a type (R32); none for a TYPE outside the table. -/
def coresRange : Nat → Option (Nat × Nat)
  | 0x01 => some (1, 40)
  | 0x02 => some (1, 40)
  | 0x03 => some (1, 40)
  | 0x04 => some (1, 40)
  | 0x05 => some (1, 40)
  | 0x06 => some (0, 0)
  | 0x07 => some (0, 0)
  | 0x08 => some (1, 40)
  | 0x09 => some (0, 0)
  | 0x0A => some (0, 0)
  | 0x0B => some (0, 0)
  | 0x0C => some (0, 0)
  | 0x0D => some (0, 0)
  | 0x0E => some (0, 0)
  | _ => none

/-- The fault of a task descriptor on its own (R28 check 4, R31-R33), in the order of the list: the byte of the field. Where several fields share a fault, the
model names OUT_LIST for a range beyond TOKEN_COUNT and SHAPE_IN_BASE for a register above 4,095 (DESIGN CHOICE, log entry 13). -/
def descFault (l : List Byte) (i : Nat) (job tokenCount : Nat) : Option Nat :=
  let d := parseTask l
  let w0 := u64At l 0
  let w3 := u64At l 24
  let slotBad := (List.range d.operands).findSome? (fun s => if bits (u64At l (32 + 8 * s)) 63 51 ≠ 0 then some (32 + 8 * s + 6) else none)
  let roleBad := (List.range d.operands).findSome? (fun s => if 3 ≤ bits (u64At l (32 + 8 * s)) 50 48 then some (32 + 8 * s + 6) else none)
  if bits w0 63 52 ≠ 0 then some 6
  else if bits w0 31 28 ≠ 0 then some 3
  else if bits w3 63 51 ≠ 0 then some 30
  else if bits w3 23 21 ≠ 0 then some 26
  else if d.operands ≤ 8 ∧ slotBad.isSome then slotBad
  else if (paramsFault d).isSome then paramsFault d
  else if d.index ≠ i then some 4
  else if d.job ≠ job then some 2
  else if (coresRange d.type).isNone then some 0
  else if 8 < d.operands then some 1
  else if roleBad.isSome then roleBad
  else if tokenCount < d.outList + d.outCount then some 20
  else if (match coresRange d.type with
    | some r => decide (d.cores < r.1) || decide (r.2 < d.cores)
    | none => true) then some 24
  else if (List.range d.operands).any (fun s => (List.range 5).any (fun e =>
      bit ((d.slots.getD s { role := 0, bound := 0, tdesc := 0 }).bound) e && decide (4095 < d.shapeInBase + 5 * s + e))) then some 27
  else if d.shapeOutCount ≠ 0 ∧ 4095 < d.shapeOutBase + d.shapeOutCount - 1 then some 28
  else if d.type = 0x0C ∧ ¬ d.fnbValid then some 1
  else none

/-- The first descriptor with a fault of its own. -/
def descsFault (job tokenCount : Nat) : List (List Byte) → Nat → Option (Nat × Nat)
  | [], _ => none
  | l :: ls, i => match descFault l i job tokenCount with
    | some off => some (i, off)
    | none => descsFault job tokenCount ls (i + 1)

/-- The row sources that a convolution task of modes 0-2 names (R178): each with the byte of its field. -/
def TaskDesc.rowSources (d : TaskDesc) : List (Nat × Nat) :=
  if d.type = 0x04 ∧ d.pf 0 63 60 ≤ 2 then
    [(d.pf 3 60 60, d.pf 3 59 40, 125), (d.pf 3 61 61, d.pf 3 39 20, 122), (d.pf 3 62 62, d.pf 3 19 0, 120)].filterMap
      (fun p => if p.1 = 1 then some p.2 else none)
  else []

/-- Whether a task is a row source (R186). -/
def TaskDesc.isRowSource (d : TaskDesc) : Bool := d.type = 0x04 && decide (d.pf 0 63 60 ≤ 2) && d.pf 3 63 63 = 1

/-- The first named row source that is not one (R187). -/
def sourceFault (ds : List TaskDesc) : Option (Nat × Nat) :=
  (ds.zip (List.range ds.length)).findSome? (fun p => p.1.rowSources.findSome? (fun s =>
    match ds[s.1]? with
    | some e => if e.isRowSource then none else some (p.2, offDesc s.2)
    | none => some (p.2, offDesc s.2)))

/-- Each task's output tokens and the row consumers that name it: the edges of the cycle check (R28, R187). -/
def graphEdges (ds : List TaskDesc) (entries : List (List Nat)) : List (List Nat) :=
  (entries.zip (List.range ds.length)).map (fun p =>
    p.1 ++ (List.range ds.length).filter (fun i => ((ds[i]?.map (fun d => d.rowSources.any (fun s => s.1 = p.2))).getD false)))

/-- The tasks that no remaining task names: one round of peeling. -/
def peel (outs : List (List Nat)) (left : List Nat) : List Nat :=
  left.filter (fun i => left.any (fun j => (outs.getD j []).contains i))

/-- The tasks left after `n` rounds of peeling: empty exactly when the token lists hold no cycle and `n` covers them. -/
def peelN (outs : List (List Nat)) : Nat → List Nat → List Nat
  | 0, left => left
  | n + 1, left => peelN outs n (peel outs left)

/-- The fault of a graph's token lists (R28 check 4): a bad entry, an IN_TOKENS that differs from the entries naming the
task, or a cycle (DESIGN CHOICE on the field named for a cycle, log entry 13). -/
def tokenFault (ds : List TaskDesc) (entries : List (List Nat)) : Option (Nat × Nat) :=
  let n := ds.length
  let badEntry := ((entries.zip (List.range n)).findSome? (fun p =>
    ((p.1.zip (List.range p.1.length)).findSome? (fun e =>
      if n ≤ e.1 then some (p.2, r492 (4 * e.2) 3 16) else none))))
  match badEntry with
  | some f => some f
  | none =>
    match (ds.zip (List.range n)).findSome? (fun p =>
        if (entries.map (fun l => (l.filter (fun t => t = p.2)).length)).sum ≠ p.1.inTokens then some (p.2, offDesc 16) else none) with
    | some f => some f
    | none => match sourceFault ds with
      | some f => some f
      | none => match peelN (graphEdges ds entries) n (List.range n) with
        | [] => none
        | i :: _ => some (i, r492 0 3 16)

/-! ## Admission (R26-R29) -/

/-- Check 2 of R28: the binding of the header's job. A submitter is a member of the job it names: a queue of the job its pair is bound to, an Efing source of its
packet's JOB_ID (DEDUCED, log entry 63), a launch of its own graph's, which R33 requires to be the same: another ends with ST_PERMISSION like any
submitter that is no member (DESIGN CHOICE, log entry 65). -/
def Block.bindingFault (b : Block) (job member : Nat) : Option AdmFail :=
  match b.slotOfJob job with
  | none => some { status := stPermission, task := headerTask, offset := r492 24 4 0 }
  | some k =>
    if job ≠ member then some { status := stPermission, task := headerTask, offset := r492 24 4 0 }
    else if (b.slot k).st = 2 then some { status := stAborted, task := headerTask, offset := r492 24 4 0 }
    else none

/-- Check 2 for a graph whose records go to a completion queue: its pair must be enabled for the job (R407). -/
def Block.queueFault (b : Block) (hd : Header) : Option AdmFail :=
  if hd.ring / 2 ^ 60 = 0xF ∧ ¬ ((b.pair (hd.ring % 64)).enabled ∧ (b.pair (hd.ring % 64)).job = hd.job) then
    some { status := stPermission, task := headerTask, offset := r492 32 4 0 }
  else none

/-- Check 3 of R28: the descriptors are read. -/
def Block.readDescs (b : Block) (a : Access) (va : Nat) : Nat → Nat → Except AdmFail (List (List Byte))
  | 0, _ => .ok []
  | n + 1, i => match b.rdGraphN a (va + 128 * i) 128 0 with
    | .error (st, j) => .error { status := st, task := i, offset := r492 0 0 j }
    | .ok l => match b.readDescs a va n (i + 1) with
      | .error e => .error e
      | .ok ls => .ok (l :: ls)

/-- The token entries of one task's output range, as far as the token list goes. -/
def Block.readEntries (b : Block) (a : Access) (tokens tokenCount i : Nat) (d : TaskDesc) : Nat → Nat → Except AdmFail (List Nat)
  | 0, _ => .ok []
  | n + 1, j =>
    if tokenCount ≤ d.outList + j then .ok []
    else match b.rdGraphN a (tokens + 4 * (d.outList + j)) 4 0 with
      | .error (st, _) => .error { status := st, task := i, offset := r492 (4 * j) 3 16 }
      | .ok l => match b.readEntries a tokens tokenCount i d n (j + 1) with
        | .error e => .error e
        | .ok ls => .ok (leNat l :: ls)

/-- The token entries of every task. -/
def Block.readTokens (b : Block) (a : Access) (tokens tokenCount : Nat) : List TaskDesc → Nat → Except AdmFail (List (List Nat))
  | [], _ => .ok []
  | d :: ds, i => match b.readEntries a tokens tokenCount i d d.outCount 0 with
    | .error e => .error e
    | .ok l => match b.readTokens a tokens tokenCount ds (i + 1) with
      | .error e => .error e
      | .ok ls => .ok (l :: ls)

/-- A fresh context of an admitted task. -/
def freshCtx (d : TaskDesc) (outs : List Nat) : TaskCtx :=
  { desc := d, outs := outs, received := 0, cancels := 0, origin := none, phase := .waiting, fired := false, readyTide := 0,
    aged := false, agedTide := 0, cores := [], fireTide := 0, endTide := 0, exts := [], tdescs := [], status := 0, detail := 0, emptyRed := false,
    shapeOut := [], rowsReady := 0, rowMask := [], prog := [], lanes := [], counts := ConvStats.zero, kv := KvHeld.none, stage := 0, sent := 0,
    acked := 0, farBuf := [], refs := [], noted := false, stats := [], coll := none, watchdogs := [], batch := none }

/-- The graph that a checked header, its descriptors and its token entries make. -/
def makeGraph (k : Nat) (hd : Header) (va : Nat) (ds : List TaskDesc) (entries : List (List Nat)) (src : SourceId) (depth : Nat)
    (launcher : Option TaskRef) : Graph :=
  { job := hd.job, slot := Fin.ofNat 16 k, step := hd.step, source := src, header := va, depth := depth, launcher := launcher,
    queue := if hd.ring / 2 ^ 60 = 0xF then some (Fin.ofNat 64 hd.ring) else none, ringBase := hd.ring, ringLog2 := hd.ringLog2,
    tail := 0, phase := true, held := 0, head := 0, ringFaultLogged := false,
    tasks := (ds.zip entries).map (fun p => freshCtx p.1 (p.2.map (fun e => e % 2 ^ 20))) }

/-- The four checks of R28 in order, on the graph whose header lies at `va` in the submitter's job. Of several faults of check 4 the header's is reported, then
the first descriptor's in list order, then the token lists' (DESIGN CHOICE, log entry 13). -/
def Block.checkGraph (b : Block) (h : HalfId) (member va : Nat) (src : SourceId) (depth : Nat) (launcher : Option TaskRef) :
    Except AdmFail Graph :=
  match b.slotOfJob member with
  | none => .error { status := stPermission, task := headerTask, offset := r492 24 4 0 }
  | some k =>
    let a := b.access h k 0 []
    match b.rdGraphN a va 64 0 with
    | .error (st, i) => .error { status := st, task := headerTask, offset := r492 i 4 0 }
    | .ok l =>
      let hd := parseHeader l
      match b.bindingFault hd.job member with
      | some f => .error f
      | none => match b.queueFault hd with
        | some f => .error f
        | none => match b.readDescs a hd.tasks (if hd.taskCount ≤ 524288 then hd.taskCount else 0) 0 with
          | .error f => .error f
          | .ok raw =>
            let ds := raw.map parseTask
            match b.readTokens a hd.tokens hd.tokenCount ds 0 with
            | .error f => .error f
            | .ok entries => match headerFault l with
              | some off => .error { status := stAdmission, task := headerTask, offset := r492 off 4 0 }
              | none => match descsFault hd.job hd.tokenCount raw 0 with
                | some (i, off) => .error { status := stAdmission, task := i, offset := offDesc off }
                | none => match tokenFault ds entries with
                  | some (i, off) => .error { status := stAdmission, task := i, offset := off }
                  | none =>
                    if 8 < depth then .error { status := stAdmission, task := headerTask, offset := offDesc 96 }
                    else .ok (makeGraph k hd va ds entries src depth launcher)

/-- The contexts in use on a half (R29, R30). -/
def Block.contextsUsed (b : Block) (h : HalfId) : Nat := ((b.half h).graphs.map (fun p => p.2.tasks.length)).sum

/-- The status of a ready-to-be check: whether a gated task's verdict has arrived (R36): 1 OPEN, 2 CLOSED. -/
def Block.verdictOf (b : Block) (h : HalfId) (k step : Nat) : Option Nat := (b.stepRecord h k step).bind (fun r => r.verdict)

/-- Whether a CHECK task, exempt from cancellation (R376). -/
def TaskDesc.cancelExempt (d : TaskDesc) : Bool := d.type = 0x0D && d.pf 0 63 60 = 0

/-- A waiting task becomes ready once R36 holds; one whose inputs are complete with a cancellation among them ends (R49). -/
def Block.settle (b : Block) (t : TaskRef) : Block :=
  match b.graph t.half t.graph, b.task t with
  | some g, some c =>
    if c.phase = .waiting ∧ c.desc.inTokens ≤ c.received then
      if 0 < c.cancels ∧ ¬ c.desc.cancelExempt then b.fix t stCancelled (c.origin.getD 0)
      else if (¬ c.desc.fnbValid ∨ c.desc.fnbTide ≤ b.tide t.half) ∧
          (¬ c.desc.gated ∨ (b.verdictOf t.half g.slot g.step).isSome) ∧ (b.slot g.slot).st = 1 then
        b.modTask t (fun c => { c with phase := .ready, readyTide := b.tide t.half })
      else b
    else b
  | _, _ => b

/-- Settle tasks one after another. -/
def Block.settleAll (b : Block) : List TaskRef → Block
  | [] => b
  | t :: ts => (b.settle t).settleAll ts

/-- The references of a graph's tasks. -/
def taskRefs (h : HalfId) (gid n : Nat) : List TaskRef := (List.range n).map (fun i => { half := h, graph := gid, task := i })

/-- A graph becomes live under an ID: SAF_GRAPH_HEAD_g is 0, and its tasks with no input token may be ready (R29, R36, R48). -/
def Block.admitTo (b : Block) (h : HalfId) (gid : Nat) (g : Graph) : Block :=
  (b.modHalf h (fun x => { x with graphs := tabPut x.graphs gid g })).settleAll (taskRefs h gid g.tasks.length)

/-- The 32-byte submission completion of a fetched entry (R406). -/
def submissionEntry (gid half job status tag q sqHead badTask badOffset : Nat) (phase : Bool) : List Byte :=
  leBytes 4 (gid % 4096 * 2 ^ 20 + 0xFFFFF) ++
  leBytes 4 (b2n phase * 2 ^ 31 + half % 2 * 2 ^ 28 + job % 4096 * 2 ^ 16 + status) ++
  leBytes 8 (tag % 2 ^ 32 * 2 ^ 32 + q % 64 * 2 ^ 16 + sqHead % 65536) ++
  leBytes 8 (badTask % 2 ^ 20 * 2 ^ 44 + badOffset % 2 ^ 32) ++ leBytes 8 0

/-- A launch task that waits for its graph to be admitted ends with the status that refused it (R33); the first ST_ABORTED_DISABLE of its slot's disable is logged,
and all are counted (R18). -/
def Block.endLaunch (b : Block) (t : TaskRef) (status detail : Nat) : Block :=
  match b.graph t.half t.graph with
  | none => b
  | some g =>
    let b1 := b.fix t status detail
    if status = stAborted then
      (if (b.slot g.slot).aborted = 0 then b1.logAborted detail t else b1).modSlot g.slot (fun x => { x with aborted := x.aborted + 1 })
    else b1

/-- Whether a task is the launch task whose graph waits under a number. -/
def Block.awaits (b : Block) (t : TaskRef) (seq : Nat) : Bool :=
  match b.task t with
  | some c => c.phase = .running && c.desc.type = 0x0B && c.stage = 4 && c.sent = seq + 1
  | none => false

/-- Report an admission's outcome to its submitter (R28): a queue completion, a response packet, or the launch task. A refused GRAPH_SUBMIT's response carries
BAD_TASK and BAD_OFFSET (R28, R318's table; log entry 66). None when the submitter's completion queue has no space. -/
def Block.report (b : Block) (h : HalfId) (w : WaitingGraph) (status gid badTask badOffset : Nat) : Option Block :=
  match w.source with
  | .queue q =>
    if (b.pair q).enabled then
      b.cqPush q (submissionEntry gid (halfNum h) (b.pair q).job status w.tag q w.sqIndex badTask badOffset) false
    else some b
  | .efing e =>
    some (b.send h e w.graph.job 1 0x20 w.tag status 0 (leBytes 8 gid ++ leBytes 8 (badTask % 2 ^ 20 * 2 ^ 32 + badOffset % 2 ^ 32)))
  | .launch t =>
    if ¬ b.awaits t w.seq then some b
    else if status = stOk then some (b.modTask t (fun c => { c with stage := 1, detail := gid }))
    else some (b.endLaunch t status (if badTask = headerTask ∧ badOffset = 96 then 96 else badOffset + 2048))

/-- A graph joins those that wait on a half. -/
def Block.enqueue (b : Block) (h : HalfId) (w : WaitingGraph) : Block :=
  b.modHalf h (fun x => { x with waiting := x.waiting ++ [w], submitted := w.seq + 1 })

/-- A graph is submitted. Behind an earlier graph of its source it waits unchecked (R29). Else it is checked at once: a refusal is reported, a checked graph waits
(R26-R29). None when a refusal's completion has no space yet. -/
def Block.submit (b : Block) (h : HalfId) (member va : Nat) (src : SourceId) (depth : Nat) (launcher : Option TaskRef)
    (tag sqIndex : Nat) : Option Block :=
  let w : WaitingGraph := { source := src, graph := makeGraph 0 (Header.empty member) va [] [] src depth launcher, tag := tag,
                            sqIndex := sqIndex, seq := (b.half h).submitted, again := false, checked := false }
  if (b.half h).waiting.any (fun v => v.source = src) then some (b.enqueue h w)
  else match b.checkGraph h member va src depth launcher with
    | .ok g => some (b.enqueue h { w with graph := g, checked := true })
    | .error f => b.report h w f.status 0 f.task f.offset

/-- A waiting graph leaves. -/
def Block.dequeue (b : Block) (h : HalfId) (w : WaitingGraph) : Block :=
  b.modHalf h (fun x => { x with waiting := x.waiting.filter (fun v => v.seq ≠ w.seq) })

/-- The graph at the head of a source is checked once no earlier one waits before it; a refused one is reported and leaves, and the next is checked. -/
def Block.checkSource (b : Block) (h : HalfId) (src : SourceId) : Nat → Block
  | 0 => b
  | fuel + 1 => match (b.half h).waiting.find? (fun w => w.source = src) with
    | none => b
    | some w =>
      if w.checked then b
      else match b.checkGraph h w.graph.job w.graph.header src w.graph.depth w.graph.launcher with
        | .ok g => b.modHalf h (fun x => { x with waiting := x.waiting.map (fun v => if v.seq = w.seq then { v with graph := g, checked := true } else v) })
        | .error f => match (b.dequeue h w).report h w f.status 0 f.task f.offset with
          | some b1 => b1.checkSource h src fuel
          | none => b

/-- The same with every graph that waits as fuel. -/
def Block.checkHead (b : Block) (h : HalfId) (src : SourceId) : Block := b.checkSource h src ((b.half h).waiting.length + 1)

/-- A checked graph at the head of its source takes an ID once the half has that ID and contexts free, and its step has room (R29, R370, R381). One whose slot
is no longer Active fails its binding check (R28). -/
def Block.admitHead (b : Block) (h : HalfId) (w : WaitingGraph) (gid : Nat) : Block :=
  match b.bindingFault w.graph.job w.graph.job with
  | some f => if w.again then b.dequeue h w else ((b.dequeue h w).report h w f.status 0 f.task f.offset).getD b
  | none =>
    if (b.graph h gid).isSome ∨ 524288 < b.contextsUsed h + w.graph.tasks.length ∨ ¬ b.stepAdmits h w then b
    else
      let b1 := ((b.dequeue h w).stepAdmit h w).admitTo h gid w.graph
      if w.again then b1 else (b1.report h w stOk gid 0 0).getD b

/-- GRAPH_ADMIT (R29): the graph at the head of a source is admitted under the ID given; the next of its source is checked then. -/
def execGraphAdmit (h : HalfId) (src : SourceId) (gid : Fin 4096) (s : State) : Host.Outcome State Fault Refusal :=
  s.act (fun b0 =>
    let b := b0.checkHead h src
    match (b.half h).waiting.find? (fun w => w.source = src) with
    | none => b
    | some w => if w.checked then (b.admitHead h w gid.val).checkHead h src else b)

/-- GRAPH_SUBMIT (R26, R318): request OP 0x20 names a header in the receiving endpoint's job-virtual space. -/
def execGraphSubmit (h : HalfId) (p : Packet) (s : State) : Host.Outcome State Fault Refusal :=
  s.act (fun b => b.receive h p 0 [0x20] (fun b =>
    if p.payload ≠ [] then b.respond h p stAdmission []
    else (b.submit h (pkJob p) p.w2.toNat (.efing (pkSrc p)) 1 none (pkTag p) 0).getD b))

/-! ## Tokens (R36, R39, R49) -/

/-- Take the first message in flight that matches. -/
def takeToken (l : List TokenMsg) (m : TokenMsg) : List TokenMsg := l.erase m

/-- A token or a cancellation is added to its task's context; one beyond a complete count is discarded and counted (R39). -/
def Block.deliver (b : Block) (t : TaskRef) (cancel : Option Nat) : Block :=
  let b1 := b.modHalf t.half (fun x => { x with tokens := takeToken x.tokens { graph := t.graph, task := t.task, cancel := cancel } })
  match b1.task t with
  | none => b1
  | some c =>
    if c.desc.inTokens ≤ c.received then b1.modReg (safReg t.half 0x18) (fun w => satAdd w 63 0 1)
    else
      (b1.modTask t (fun c => { c with
        received := c.received + 1, cancels := c.cancels + b2n cancel.isSome,
        origin := match cancel, c.origin with
          | some o, some p => some (min o p)
          | some o, none => some o
          | none, p => p })).settle t

/-- TOKEN (R36). -/
def execToken (t : TaskRef) (s : State) : Host.Outcome State Fault Refusal := s.act (fun b => b.deliver t none)

/-- CANCELLATION (R49): a cancellation counts as a token and carries the origin's index. -/
def execCancellation (t : TaskRef) (origin : Nat) (s : State) : Host.Outcome State Fault Refusal :=
  s.act (fun b => b.deliver t (some origin))

/-- FNB_TIDE_REACHED (R36): the Tide counter may make the task ready. -/
def execFnbTideReached (t : TaskRef) (s : State) : Host.Outcome State Fault Refusal := s.act (fun b => b.settle t)

/-- AGE_LIMIT_EXPIRY (R38): a ready task that has waited SAF_AGE_LIMIT counts as one class higher, once; 0 disables ageing. -/
def execAgeLimitExpiry (t : TaskRef) (s : State) : Host.Outcome State Fault Refusal :=
  s.act (fun b =>
    let age := b.regFld (safReg t.half 0x10) 29 0
    match b.task t with
    | none => b
    | some c =>
      if c.phase = .ready ∧ ¬ c.aged ∧ age ≠ 0 ∧ c.readyTide + age ≤ b.tide t.half then
        b.modTask t (fun c => { c with aged := true, agedTide := b.tide t.half })
      else b)

/-! ## The end of a task (R46, R48) -/

/-- Add stall cycles to a core's counters (R53, R55). -/
def Block.addStalls (b : Block) : List StallCount → Block
  | [] => b
  | x :: xs => (b.modReg (stallReg x.core.val x.engine.val x.cause.val) (fun w => satAdd w 63 0 x.cycles)).addStalls xs

/-- The row sources that a task names, as their contexts stand. -/
def sourcesOf (g : Graph) (c : TaskCtx) : List TaskCtx := c.desc.rowSources.filterMap (fun s => g.tasks[s.1]?)

/-- Whether a task's status is fixed. -/
def TaskCtx.fixed (c : TaskCtx) : Bool := c.phase = .ended || c.phase = .recordWait || c.phase = .recorded

/-- The lowest origin of the row sources of a task that ended with a non-firing status (R49, R187). -/
def failedSource (srcs : List TaskCtx) : Option Nat := ((srcs.filter (fun s => s.fixed && !(firesTokens s.status))).map (fun s => s.failOrigin)).min?

/-- A running row consumer whose source has failed issues no more: once every source's status is fixed it ends cancelled, with the source's origin (R187). -/
def Block.endConsumer (b : Block) (t : TaskRef) : Block :=
  match b.graph t.half t.graph, b.task t with
  | some g, some c =>
    let srcs := sourcesOf g c
    match failedSource srcs with
    | some o =>
      if c.phase = .running ∧ srcs.all (fun s => s.fixed) then
        (b.modTask t (fun c => { c with origin := some o })).fix t stCancelled o
      else b
    | none => b
  | _, _ => b

/-- The row consumers of a task that has ended (R187). -/
def Block.failConsumers (b : Block) (t : TaskRef) (g : Graph) : Block :=
  ((List.range g.tasks.length).filter (fun i => match g.tasks[i]? with
      | some x => x.desc.rowSources.any (fun s => s.1 = t.task)
      | none => false)).foldl (fun x i => x.endConsumer { t with task := i }) b

/-- Whether every task that a task depends on, by a token or as a row source, has its record: no record appears before those (R44 O2, R187). -/
def Graph.inputsRecorded (g : Graph) (i : Nat) : Bool :=
  g.tasks.all (fun c => !(c.outs.contains i) || c.phase = .recorded) &&
    ((g.tasks[i]?).map (fun c => (sourcesOf g c).all (fun s => s.phase = .recorded))).getD true

/-- TASK_END (R46): a task whose status is fixed gives its writes, its shape registers, its statistics, its record and its
tokens in order, after the records of all it depends on. The stall cycles of its run are an outcome of timing that the sender supplies (log entry 7). -/
def execTaskEnd (t : TaskRef) (stalls : List StallCount) (s : State) : Host.Outcome State Fault Refusal :=
  s.act (fun b =>
    match b.graph t.half t.graph, b.task t with
    | some g, some c =>
      if c.phase = .ended ∧ g.inputsRecorded t.task then
        (((((b.addStalls stalls).failConsumers t g).noteEnd t.half g.slot g.step c.status c.detail).writeShapes t g c).mergeStats t g c).finishRecord t
      else b
    | _, _ => b)

/-- Retry one waiting record. Its waiting cycles, from its END_TIDE on, enter SAF_RING_FULL when it is written: R48 gives no moment (DESIGN CHOICE, log entry
67). -/
def Block.retryRecord (b : Block) (t : TaskRef) : Block :=
  match b.task t with
  | none => b
  | some c =>
    if c.phase = .recordWait then
      match b.tryRecord t with
      | .written b1 => (b1.modReg (safReg t.half 0x20) (fun w => satAdd w 63 0 (cyclesOf (b.tide t.half - c.endTide)))).afterRecord t c
      | .full => b
      | .fault _ => b
    else b

/-- Retry waiting records one after another. -/
def Block.retryRecords (b : Block) : List TaskRef → Block
  | [] => b
  | t :: ts => (b.retryRecord t).retryRecords ts

/-- The tasks whose records wait, in the order their status was fixed (R46). -/
def Block.waitingRecords (b : Block) (h : HalfId) : List (Nat × TaskRef) :=
  (b.tasksOf h).filterMap (fun p => if p.2.2.phase = .recordWait then some (p.2.2.endTide, p.1) else none)

/-- RECORD_WRITE (R48): a waiting record is written once its ring has space or its page is writable. -/
def execRecordWrite (t : TaskRef) (s : State) : Host.Outcome State Fault Refusal := s.act (fun b => b.retryRecord t)

/-- A head write to a ring of `n` records: the new head and records held, or none when it is ignored (R48). -/
def headWrite (n head held h : Nat) : Option (Nat × Nat) :=
  if n ≤ h then none
  else
    let k := (h + n - head) % n
    if held < k then none else some (h, held - k)

/-- A SAF_GRAPH_HEAD_g write (R48, R54). -/
def Block.writeGraphHead (b : Block) (h : HalfId) (gid v : Nat) : Block :=
  match b.graph h gid with
  | none => b
  | some g =>
    if g.queue.isSome then b
    else
      let b1 := match headWrite (2 ^ g.ringLog2) g.head g.held (v % 2 ^ 20) with
        | none => b.logRefused h (safReg h (0x8000 + 8 * gid)) v
        | some (hd, n) => b.modGraph h gid (fun g => { g with head := hd, held := n })
      b1.retryRecords (((b1.waitingRecords h).filter (fun p => p.2.graph = gid)).map (fun p => p.2))

/-- GRAPH_HEAD_WRITE. The host and the operator and installer roles hold the write right (R7); the command stands for an
accepted request. -/
def execGraphHeadWrite (h : HalfId) (g : Fin 4096) (head : Word) (s : State) : Host.Outcome State Fault Refusal :=
  s.act (fun b => b.writeGraphHead h g.val head.toNat)

/-! ## Launches, Tide waits (R33) -/

/-- Run a body for a running task of a type; any other task is left alone. -/
def Block.onRunning (b : Block) (t : TaskRef) (ty : Nat) (f : Graph → TaskCtx → Block) : Block :=
  match b.graph t.half t.graph, b.task t with
  | some g, some c => if c.phase = .running ∧ c.desc.type = ty then f g c else b
  | _, _ => b

/-- SUB_GRAPH_LAUNCH (R33): a running launch task submits the graph its PARAMS name, nested one deeper. -/
def execSubGraphLaunch (t : TaskRef) (s : State) : Host.Outcome State Fault Refusal :=
  s.act (fun b => b.onRunning t 0x0B (fun g c =>
    if c.stage ≠ 0 then b
    else ((b.modTask t (fun c => { c with stage := 4, sent := (b.half t.half).submitted + 1 })).submit t.half g.job (c.desc.param 0).toNat (.launch t)
      (g.depth + 1) (some t) 0 0).getD b))

/-- SUB_GRAPH_DONE (R33): every task of the launched graph has its record. -/
def execSubGraphDone (t : TaskRef) (s : State) : Host.Outcome State Fault Refusal :=
  s.act (fun b => b.onRunning t 0x0B (fun _ c =>
    if c.stage = 2 then b.fix t stOk 0
    else if c.stage = 3 then b.fix t stCancelled c.detail
    else b))

/-- TIDE_WAIT (R33): a Tide wait task completes with ST_OK at the moment it fires. -/
def execTideWait (t : TaskRef) (s : State) : Host.Outcome State Fault Refusal :=
  s.act (fun b => b.onRunning t 0x0C (fun _ _ => b.fix t stOk 0))

end Sys2Proof.Machine
end

