-- ==== Sys2Proof/Machine/Far.lean ====
section
/-! DEFINITION. Requests and their tags, the memory-side adders, far-tier directories and the packets that serve them
(spec/08_cove_shelf_bay_offshore_mainland.md R210-R218, R224-R228; spec/12_efing_and_tide.md R318). -/

namespace Sys2Proof.Machine

/-! ## Far directories (R211, R212) -/

abbrev farPending : Nat := 1
abbrev farCommitted : Nat := 2
abbrev farRetired : Nat := 3

/-- The entry of a job's object version. -/
def dirFind (d : List FarEntry) (job obj ver : Nat) : Option FarEntry :=
  d.find? (fun e => e.job = job && e.object = obj && e.version = ver)

/-- Whether two ranges meet. -/
def meets (a n c m : Nat) : Bool := decide (a < c + m) && decide (c < a + n)

/-- The directory as a reserve finds it: a Retired entry whose range or place is wanted has gone, unless a request to it is still outstanding
(R220; DEDUCED, log entry 15). -/
def dirReclaim (busy : FarEntry → Bool) (d : List FarEntry) (base len : Nat) : List FarEntry :=
  let gone (e : FarEntry) : Bool := e.st = farRetired && !(busy e)
  let l := d.filter (fun e => !(gone e && meets e.base e.length base len))
  if 16384 ≤ l.length then l.filter (fun e => !(gone e)) else l

/-- A new entry in a directory: ST_FAR_FAIL for an overlap or a known version, ST_QUOTA reason 5 for a full directory. -/
def dirAdd (busy : FarEntry → Bool) (d : List FarEntry) (e : FarEntry) : Except (Nat × Nat) (List FarEntry) :=
  let l := dirReclaim busy d e.base e.length
  if (dirFind l e.job e.object e.version).isSome ∨ l.any (fun o => meets o.base o.length e.base e.length) then .error (stFarFail, 0)
  else if 16384 ≤ l.length then .error (stQuota, 5)
  else .ok (l ++ [e])

/-- Whether a read of a Mainland entry still holds a tag of a half (R220). A lender answers each request as it comes: its entries never are. -/
def Tiers.reading (t : Tiers) (e : FarEntry) : Bool :=
  t.tags.any (fun p => p.2.dest = .mainland && p.2.op = 0x10 && meets e.base e.length (p.2.addr % 2 ^ 60) p.2.len)

/-- Whether a Committed entry of an object version holds a whole range (R215). -/
def dirHolds (d : List FarEntry) (job obj ver base len : Nat) : Bool :=
  match dirFind d job obj ver with
  | some e => e.st = farCommitted && decide (e.base ≤ base) && decide (base + len ≤ e.base + e.length)
  | none => false

/-- An entry's state changed; `none` deletes it. -/
def dirSet (d : List FarEntry) (job obj ver : Nat) (st : Option Nat) (now : Nat) : List FarEntry :=
  d.filterMap (fun e => if e.job = job ∧ e.object = obj ∧ e.version = ver then st.map (fun x => { e with st := x, lastActive := now }) else some e)

/-- The state code that a query answers (R220). -/
def dirState (d : List FarEntry) (job obj ver base : Nat) : Nat :=
  match dirFind d job obj ver with
  | some e => if e.base = base then e.st else 0
  | none => 0

/-! ## Memory-side adders (R226) -/

/-- The bytes of an element of an adder format: FP32, BF16, INT32, INT64; none for another code. -/
def adderBytes : Nat → Option Nat
  | 0x00 => some 4
  | 0x01 => some 2
  | 0x0A => some 4
  | 0x0B => some 8
  | _ => none

/-- One element combined: operation 0 add, 1 max, 2 min. A float add rounds the exact sum once, to nearest even; an integer
add wraps. -/
def adderElem (op fmt old x : Nat) : Nat :=
  let n := elemBits fmt
  if fmt = 0x00 ∨ fmt = 0x01 then
    let f := if fmt = 0x00 then fmtF32 else fmtBF16
    let u := decodeF f old
    let v := decodeF f x
    (toPlain f false .nearest (if op = 0 then addV u v else if op = 1 then maxV u v else minV u v)).1
  else
    let u := sext n old
    let v := sext n x
    twos n (if op = 0 then u + v else if op = 1 then max u v else min u v)

/-- Elements combined in order from an address: the bytes they become. -/
def adderList (op fmt eb : Nat) (old x : List Byte) : Nat → List Byte
  | 0 => []
  | n + 1 => leBytes eb (adderElem op fmt (leNat (old.take eb)) (leNat (x.take eb))) ++ adderList op fmt eb (old.drop eb) (x.drop eb) n

/-! ## Requests at a home controller (R224, R226-R228) -/

/-- The upset a request's read met, before its code is checked. -/
def Block.applyUpset (b : Block) (a : Nat) : Upset → Block
  | .none => b
  | .corrected => b.noteCe a
  | .uncorrectable => { b with bad := tabPut b.bad (granuleBase a) 0 }
  | .parity => b

/-- What a home request comes to: its data, or the uncorrectable word it met. -/
inductive Served where
  | done (b : Block) (data : List Byte)
  | failed (b : Block) (addr : Nat)
deriving DecidableEq, Repr

/-- The first bad protected word among `n` bytes from `a`. -/
def Block.firstBad (b : Block) (a n : Nat) : Option Nat :=
  (List.range n).findSome? (fun i => if (tabFind b.bad (granuleBase (a + i))).isSome then some (granuleBase (a + i)) else none)

/-- A read, a write or an adder request at its controller (op 1, 2, 3 as R318 codes them). -/
def Block.serve (b : Block) (r : Request) : Served :=
  let b0 := b.applyUpset r.addr r.upset
  if r.upset = .parity then .failed b r.addr
  else if r.op = 1 then
    match b0.firstBad r.addr r.len with
    | some a => .failed (b0.noteUe a) a
    | none => .done b0 (b0.bytes r.addr r.len)
  else if r.op = 2 then
    let w := b0.landCells ((r.data.zip (List.range r.data.length)).map (fun p => (r.addr + p.2, p.1)))
    match w.2 with
    | some a => .failed (b0.noteUe a) a
    | none => .done w.1 []
  else
    let op := bits (leNat (r.data.take 8)) 1 0
    let fmt := bits (leNat (r.data.take 8)) 12 8
    let x := r.data.drop 8
    let eb := (adderBytes fmt).getD 4
    match b0.firstBad r.addr x.length with
    | some a => .failed (b0.noteUe a) a
    | none => .done (b0.store r.addr (adderList op fmt eb (b0.bytes r.addr x.length) x (x.length / eb))) []

/-! ## Tags (R224, R225) -/

/-- Tags that a destination holds on a half. -/
def Tiers.tagsAt (t : Tiers) (d : Destination) : Nat := (t.tags.filter (fun p => p.2.dest = d)).length

/-- The job of a request's task. -/
def Block.requestJob (b : Block) (r : Request) : Nat :=
  ((r.task.bind (fun t => b.graph t.half t.graph)).map (fun g => g.job)).getD 0

/-- The bytes of a response reach the task that asked for them, by device address. -/
def Block.deliverFar (b : Block) (t : TaskRef) (addr : Nat) (l : List Byte) : Block :=
  b.modTask t (fun c => { c with farBuf := (l.zip (List.range l.length)).foldl (fun m p => tabPut m (addr + p.2) p.1) c.farBuf })

/-- A half's tags with one more held. -/
def Block.holdTag (b : Block) (h : HalfId) (tag : Nat) (r : Request) : Block :=
  b.modTiers h (fun t => { t with tags := tabPut t.tags tag { r with issued := b.tide h }, nextTag := (tag + 1) % 16384 })

/-- A request that its own half's controller serves: it holds its tag until its response, or ends at a bad word. -/
def Block.serveHere (b : Block) (h : HalfId) (tag : Nat) (r : Request) : Block :=
  match b.serve r with
  | .failed b1 a => match r.task with
    | some t => b1.fix t stDataError (tierDetail (tierOf a))
    | none => b1.log { event := 0x0021, half := homeOf a, arg0 := ((channelOf a).map (fun c => c.2)).getD 0, arg1 := rowWord a }
  | .done b1 data => b1.holdTag h tag { r with data := data }

/-- A request to the other half's memory: it keeps its tag here and crosses the Isthmus as a request packet (R15, R318). The upset it meets
strikes the word at its far end. -/
def Block.cross (b : Block) (h : HalfId) (tag : Nat) (r : Request) : Block :=
  ((b.applyUpset r.addr r.upset).holdTag h tag r).send h (b.endpoint (otherHalf h)) (b.requestJob r) 0 r.op tag r.addr 0
    (if r.op = 1 then leBytes 8 r.len else r.data)

/-- A request to Shelf, Bay or a Cove window: served here, or across the Isthmus. -/
def Block.launchHome (b : Block) (h : HalfId) (tag : Nat) (r : Request) : Block :=
  if homeOf r.addr = h ∨ r.upset = .parity then b.serveHere h tag r else b.cross h tag r

/-- A request takes a tag and goes out: to its controller, across the Isthmus, into Efing, or to the host. -/
def Block.launch (b : Block) (h : HalfId) (tag : Nat) (r : Request) : Block :=
  match r.dest with
  | .endpoint e => (b.holdTag h tag r).send h e (b.requestJob r) 0 r.op tag (r.addr % 2 ^ 44) 0 r.data
  | .mainland => (b.holdTag h tag r).emit (.hostRead (r.addr % 2 ^ 60) r.len)
  | .cove _ => b.launchHome h tag r
  | .shelf _ _ => b.launchHome h tag r
  | .bay _ _ => b.launchHome h tag r

/-- A free tag of a half. -/
def Tiers.freeTag (t : Tiers) : Option Nat :=
  match tabFree t.tags (16384 - t.nextTag) t.nextTag with
  | some i => if i < 16384 then some i else none
  | none => match tabFree t.tags t.nextTag 0 with
    | some i => if i < 16384 then some i else none
    | none => none

/-- Whether Shelf and Bay take requests: not in Slack, nor in the first 3 ms of a wake (R247; DESIGN CHOICE, log entry 60). -/
def Block.memoriesServe (b : Block) : Bool :=
  b.sys.slack ≠ 2 && !(b.sys.slack = 3 && decide (b.tide .a < b.sys.slackTide + 3000000))

/-- Whether a destination takes requests. -/
def Block.destServes (b : Block) : Destination → Bool
  | .cove _ => true
  | .shelf _ _ => b.memoriesServe
  | .bay _ _ => b.memoriesServe
  | .endpoint _ => true
  | .mainland => true

/-- A request joins those that wait at a half. -/
def Block.await (b : Block) (h : HalfId) (r : Request) : Block := b.modTiers h (fun t => { t with waiting := t.waiting ++ [r] })

/-- A request takes a tag and is issued; or it waits at its issuer while its destination holds TIER_TAG_CAP tags, which is counted (R225),
behind an older request to the destination (R224), or while its destination takes none. -/
def Block.grant (b : Block) (h : HalfId) (r : Request) : Block :=
  let t := b.tiers h
  if b.regFld (tierReg h 0x18) 12 0 ≤ t.tagsAt r.dest then (b.count (tierReg h 0x28) 63 40 1).await h r
  else if t.waiting.any (fun q => q.dest = r.dest) || !(b.destServes r.dest) then b.await h r
  else match t.freeTag with
    | some i => b.launch h i r
    | none => b.await h r

/-! ## A task that fails in a far tier (R212, R215, R216) -/

/-- The fields of a tier move's or a publication's PARAMS (R219). -/
def TaskDesc.moveMode (d : TaskDesc) : Nat := d.pf 0 63 60
def TaskDesc.moveTier (d : TaskDesc) : Nat := d.pf 0 59 57
def TaskDesc.moveHalf (d : TaskDesc) : HalfId := halfOf (d.pf 0 53 53)
def TaskDesc.moveLength (d : TaskDesc) : Nat := d.pf 0 47 0
def TaskDesc.moveVa (d : TaskDesc) : Nat := d.pf 1 47 0
def TaskDesc.moveFar (d : TaskDesc) : Nat := (d.param 2).toNat
def TaskDesc.moveObject (d : TaskDesc) : Nat := d.pf 3 63 32
def TaskDesc.moveVersion (d : TaskDesc) : Nat := d.pf 3 31 0

/-- The destination of a far device address. -/
def farDest (a : Nat) : Destination := if a / 2 ^ 60 = 3 then .endpoint (bits a 59 44) else .mainland

/-- The payload that names an object version (R318). -/
def versionWord (obj ver : Nat) : List Byte := leBytes 8 (obj * 2 ^ 32 + ver)

/-- A request of a task to a far destination. -/
def farRequest (t : Option TaskRef) (op addr len : Nat) (data : List Byte) : Request :=
  { dest := farDest addr, task := t, op := op, addr := addr, len := len, issued := 0, data := data, upset := .none }

/-- A publication that fails after its reserve deletes its Pending entry (R212). -/
def Block.abortPublication (b : Block) (h : HalfId) (job : Nat) (d : TaskDesc) : Block :=
  if farTier d.moveFar = 4 then
    b.modTiers h (fun t => { t with mainland := t.mainland.filter (fun e =>
      !(e.job = job && e.object = d.moveObject && e.version = d.moveVersion && e.st = farPending)) })
  else if b.routable h (bits d.moveFar 59 44) 0 then
    b.grant h (farRequest none 0x14 d.moveFar 0 (versionWord d.moveObject d.moveVersion))
  else b

/-- Running FILL tasks that wait on a cache object, or fill it. -/
def Block.fillTasks (b : Block) (handle : Nat) : List TaskRef :=
  ((b.tasksOf .a ++ b.tasksOf .b).filter (fun p => p.2.2.phase = .running && p.2.2.desc.type = 6 && p.2.2.refs.contains handle)).map
    (fun p => p.1)

/-- Tasks ended one after another with one status. -/
def Block.fixAll (b : Block) (st det : Nat) : List TaskRef → Block
  | [] => b
  | t :: ts => (b.fix t st det).fixAll st det ts

/-- A task that has fired ends with a failing status: an abandoned publication is aborted, an abandoned fill frees its frames,
and those that share it end as it does (R212, R215, R216). -/
def Block.fail (b : Block) (t : TaskRef) (st det : Nat) : Block :=
  match b.graph t.half t.graph, b.task t with
  | some g, some c =>
    let b1 := b.fix t st det
    if c.phase ≠ .running then b1
    else if c.desc.type = 7 ∧ c.desc.moveMode = 0 ∧ 2 ≤ c.stage then b1.abortPublication t.half g.job c.desc
    else if c.desc.type = 6 ∧ c.desc.moveMode = 3 ∧ 1 ≤ c.stage then
      match c.refs with
      | [] => b1
      | i :: _ =>
        if ((b1.object i).bind (fun o => o.filling)) = some t then (b1.fixAll st det (b1.fillTasks i)).freeObject i else b1
    else b1
  | _, _ => b

/-- A running task fails by a stop of one of its accesses. -/
def Block.failStop (b : Block) (t : TaskRef) : Stop → Block
  | .ended st d => b.fail t st d
  | .bad a => (b.noteUe a).fail t stDataError (tierDetail (tierOf a))
  | .need _ _ => b

/-- Whether a request may be issued as its far directory stands: a read of Mainland lies in one Committed entry of its job (R211). -/
def Block.mayIssue (b : Block) (h : HalfId) (r : Request) : Bool :=
  !(r.dest = .mainland && r.op = 0x10) || dirServes (b.tiers h).mainland (b.requestJob r) (r.addr % 2 ^ 60) r.len

/-- The task of a Mainland read that no Committed entry serves fails: the read has its error response at once (R211, R216). -/
def Block.refuseIssue (b : Block) (r : Request) : Block :=
  match r.task with
  | some t => b.fail t stFarFail (tierDetail 4)
  | none => b

/-- A request takes a tag and is issued, or waits (R225). One that its own half cannot route, or to an endpoint that is marked lost, is never sent: its
task ends with ST_ENDPOINT_LOST (R321, R392). -/
def Block.issue (b : Block) (h : HalfId) (r : Request) : Block :=
  match r.dest with
  | .endpoint e =>
    if b.routable h e 0 ∧ ¬ b.domain.lost.contains (e / 8) then b.grant h r
    else match r.task with
      | some t => b.fail t stEndpointLost e
      | none => b
  | .cove _ => b.grant h r
  | .shelf _ _ => b.grant h r
  | .bay _ _ => b.grant h r
  | .mainland => if b.mayIssue h r then b.grant h r else b.refuseIssue r

/-- Whether a task runs. -/
def Block.isRunning (b : Block) (t : TaskRef) : Bool := ((b.task t).map (fun c => decide (c.phase = .running))).getD false

/-- Requests issued one after another while their task runs. -/
def Block.issueAll (b : Block) (h : HalfId) : List Request → Block
  | [] => b
  | r :: rs => if r.task.all (fun t => b.isRunning t) then (b.issue h r).issueAll h rs else b

/-- A far read of a task. -/
def farRead (t : TaskRef) (addr len : Nat) : Request := farRequest (some t) 0x10 addr len (if farTier addr = 4 then [] else leBytes 8 len)

/-- A task asks for the far bytes an access needs, unless a request for them is under way; the device address is served or not by
the tier (R211, R216). -/
def Block.askFar (b : Block) (t : TaskRef) (addr len : Nat) : Block :=
  let x := b.tiers t.half
  if (x.tags.map (fun p => p.2) ++ x.waiting).any (fun r => r.task = some t && r.addr = addr) then b
  else b.issue t.half (farRead t addr len)

/-- A running task stops at an access: it asks for far bytes, or fails. -/
def Block.stop (b : Block) (t : TaskRef) : Stop → Block
  | .need a n => b.askFar t a n
  | .ended st d => b.fail t st d
  | .bad a => (b.noteUe a).fail t stDataError (tierDetail (tierOf a))

/-! ## A cache object's fill (R215) -/

/-- The pages that map an object at a VA of a slot. -/
def objectPages (handle va : Nat) (noPf : Bool) (frames : List Nat) : List (Nat × Page) :=
  (frames.zip (List.range frames.length)).map (fun p =>
    (va / frameSize + p.2, { target := p.1, big := false, writable := false, noPrefetch := noPf, handle := handle }))

/-- A FILL task maps its VA to a filled object and ends (R215). -/
def Block.mapObject (b : Block) (t : TaskRef) (handle : Nat) : Block :=
  match b.graph t.half t.graph, b.task t, b.object handle with
  | some g, some c, some o =>
    let va := c.desc.moveVa
    if anyMapped (b.slot g.slot).pages va (o.frames.length * frameSize) then b.fail t stXlate 8
    else if 4194304 < b.entriesUsed + o.frames.length then b.fail t stQuota (tierDetail o.tier + 4)
    else
      ((b.addPages g.slot (objectPages handle va (c.desc.pf 0 54 54 = 1) o.frames)).modObject handle (fun o => { o with
        mappings := o.mappings ++ [(g.slot.val, va)] })).fix t stOk 0
  | _, _, _ => b

/-- FILL tasks mapped one after another. -/
def Block.mapAll (b : Block) (handle : Nat) : List TaskRef → Block
  | [] => b
  | t :: ts => (b.mapObject t handle).mapAll handle ts

/-- The last byte of a fill has landed: the filling task maps, then those that share. -/
def Block.fillDone (b : Block) (t : TaskRef) (handle : Nat) : Block :=
  let others := (b.fillTasks handle).filter (fun u => u ≠ t)
  (((b.modObject handle (fun o => { o with filling := none })).mapObject t handle).mapAll handle others).reapObject handle

/-- The cache objects of which a slot maps a page among addresses. -/
def Block.objectsIn (b : Block) (k va len : Nat) : List Nat :=
  b.handles.filter (fun i => match b.object i with
    | some o => o.mappings.any (fun m => m.1 = k && meets m.2 (o.frames.length * frameSize) va len)
    | none => false)

/-! ## A publication's steps (R212-R214) -/

/-- The commit record of a Mainland publication (R214). -/
def commitRecord (job obj ver len crc tide : Nat) : List Byte :=
  leBytes 4 job ++ leBytes 4 obj ++ leBytes 4 ver ++ leBytes 8 len ++ leBytes 8 crc ++ leBytes 8 tide ++ List.replicate 28 0

/-- A far range cut at the 4 KiB blocks of its address, in ascending offset: each piece's offset and length (R212, R215, R318). -/
def farPieces (far len : Nat) : List (Nat × Nat) :=
  if len = 0 then []
  else (List.range (cdiv (far % 4096 + len) 4096)).map (fun i =>
    let lo := if i = 0 then 0 else 4096 * i - far % 4096
    (lo, min len (4096 * (i + 1) - far % 4096) - lo))

/-- The writes of a publication: up to 4,096 bytes each, in ascending offset. -/
def publishWrites (t : TaskRef) (far : Nat) (data : List Byte) : List Request :=
  (farPieces far data.length).map (fun p => farRequest (some t) 0x12 (far + p.1) p.2 ((data.drop p.1).take p.2))

/-- Step 2 of a publication: its data goes out. The Mainland writes are posted, and its commit record and the read of it follow
at once. -/
def Block.publishData (b : Block) (t : TaskRef) : Block :=
  match b.graph t.half t.graph, b.task t with
  | some g, some c =>
    let d := c.desc
    match b.rdN (b.taskAccess t.half g c) 8 d.moveVa d.moveLength with
    | .error e => b.failStop t e
    | .ok data =>
      let b := b.refObjects t (b.objectsIn g.slot d.moveVa d.moveLength)
      if farTier d.moveFar = 4 then
        let base := d.moveFar % 2 ^ 60
        let b1 := (b.hostStore base data).hostStore (base + d.moveLength)
          (commitRecord g.job d.moveObject d.moveVersion d.moveLength (crc64 data) (b.tide t.half))
        (b1.modTask t (fun c => { c with stage := 4 })).issue t.half (farRequest (some t) 0x13 (d.moveFar + d.moveLength) 64 [])
      else
        let ws := publishWrites t d.moveFar data
        (b.modTask t (fun c => { c with stage := 3, sent := ws.length, acked := 0 })).issueAll t.half ws
  | _, _ => b

/-- The range of a far page that a publication or a fill names. -/
def Block.publishCommit (b : Block) (t : TaskRef) (d : TaskDesc) : Block :=
  (b.modTask t (fun c => { c with stage := 4 })).issue t.half
    (farRequest (some t) 0x13 d.moveFar 0 (versionWord d.moveObject d.moveVersion))

/-- A positive response reaches the running task that sent the request: a publication takes its next step, a fill lands bytes, a
query writes its answer, and any other task has its bytes (R212, R215, R220). -/
def Block.answered (b : Block) (r : Request) (t : TaskRef) (data : List Byte) : Block :=
  match b.graph t.half t.graph, b.task t with
  | some g, some c =>
    let d := c.desc
    if c.phase ≠ .running then b
    else if d.type = 7 ∧ d.moveMode = 0 then
      if c.stage = 1 then (b.modTask t (fun c => { c with stage := 2 })).publishData t
      else if c.stage = 3 then
        let b1 := b.modTask t (fun c => { c with acked := c.acked + 1 })
        if c.acked + 1 = c.sent then b1.publishCommit t d else b1
      else if c.stage = 4 then
        let b1 := if farTier d.moveFar = 4 then b.modTiers t.half (fun x => { x with
          mainland := dirSet x.mainland g.job d.moveObject d.moveVersion (some farCommitted) (b.tide t.half) }) else b
        b1.fix t stOk 0
      else b
    else if d.type = 7 then b.fix t stOk 0
    else if d.type = 6 ∧ d.moveMode = 3 then
      match c.refs.head?.bind (fun i => (b.object i).map (fun o => (i, o))) with
      | none => b
      | some (i, o) =>
        let off := r.addr - d.moveFar
        let b1 := (b.store (o.frames.getD (off / frameSize) 0 + off % frameSize) data).modTask t (fun c => { c with acked := c.acked + 1 })
        if c.acked + 1 = c.sent then b1.fillDone t i else b1
    else if d.type = 6 ∧ d.moveMode = 5 then b.deliverFar t r.addr data
    else b.deliverFar t r.addr data
  | _, _ => b

/-- An error response, or one that did not come: the issuing task alone ends (R216). A refused reserve for space is ST_QUOTA
with reason 2 or 5: which of them the response does not say, so it is a free value (log entry 15). -/
def Block.refused (b : Block) (r : Request) (t : TaskRef) (status : Nat) : Block :=
  if r.op = 0x11 ∧ status = stQuota then
    let n := b.fresh
    n.2.fail t stQuota (tierDetail 3 + (if n.1 % 2 = 0 then 2 else 5))
  else b.fail t stFarFail (tierDetail (farTier r.addr))

/-- A home request ends: its data reaches its task; across the Isthmus, the response's, or its error ends the task (R15, R228). -/
def Block.homeAnswered (b : Block) (h : HalfId) (r : Request) (t : TaskRef) (status : Nat) (data : List Byte) : Block :=
  if homeOf r.addr = h then b.deliverFar t r.addr r.data
  else if status = stOk then b.deliverFar t r.addr data
  else b.fail t status (if status = stDataError then tierDetail (tierOf r.addr) else 0)

/-- A response returns a request's tag, and waiting requests may be granted (R216, R224). -/
def Block.completeRequest (b : Block) (h : HalfId) (tag status : Nat) (data : List Byte) : Block :=
  match tabFind (b.tiers h).tags tag with
  | none => b
  | some r =>
    let b1 := b.modTiers h (fun t => { t with tags := tabDel t.tags tag })
    match r.task with
    | none => b1
    | some t => match r.dest with
      | .cove _ => b1.homeAnswered h r t status data
      | .shelf _ _ => b1.homeAnswered h r t status data
      | .bay _ _ => b1.homeAnswered h r t status data
      | .endpoint _ => if status = stOk then b1.answered r t data else b1.refused r t status
      | .mainland => if status = stOk then b1.answered r t data else b1.refused r t status

/-- TAG_GRANT (R225): the oldest request that waits for a destination takes a tag, once the destination takes requests and holds fewer than
the cap. -/
def execTagGrant (h : HalfId) (dest : Destination) (s : State) : Host.Outcome State Fault Refusal :=
  s.act (fun b =>
    let t := b.tiers h
    match t.waiting.find? (fun r => r.dest = dest) with
    | none => b
    | some r =>
      let b1 := b.modTiers h (fun t => { t with waiting := t.waiting.erase r })
      if ¬ b.mayIssue h r then b1.refuseIssue r
      else if b.regFld (tierReg h 0x18) 12 0 ≤ t.tagsAt dest ∨ ¬ b.destServes dest then b
      else match t.freeTag with
        | none => b
        | some i => b1.launch h i r)

/-- The destination of a local address. -/
def homeDest (a : Nat) : Option Destination :=
  match regionOf a with
  | .shelf h => some (.shelf h (shelfChannel a))
  | .store h => some (.shelf h (shelfChannel a))
  | .bay h c => some (.bay h c)
  | .cove n => some (.cove n)
  | .control => none
  | .hole => none

/-- Link errors that a Bay request's transfer corrected are counted by its direction (R239, R251). -/
def Block.countLink (b : Block) (d : Destination) (write : Bool) (n : Nat) : Block :=
  match d with
  | .bay h _ => if write then b.count (bayReg h 0x10) 31 0 n else b.count (bayReg h 0x10) 63 32 n
  | .cove _ => b
  | .shelf _ _ => b
  | .endpoint _ => b
  | .mainland => b

/-- Whether a request is one that a home controller takes: 64 to 512 bytes within one 512-byte row of Shelf (R199, R233), up to 64 within one
64-byte line of Bay or Cove. -/
def homeShape (addr n : Nat) : Bool :=
  if tierOf addr = 1 then decide (64 ≤ n) && decide (addr % 512 + n ≤ 512) else decide (0 < n) && decide (addr % 64 + n ≤ 64)

/-- HOME_REQUEST (R15, R199, R200, R224): one request to a controller or a Cove window of either half; any other length or address is no
request of a controller. -/
def execHomeRequest (h : HalfId) (r : LineRequest) (s : State) : Host.Outcome State Fault Refusal :=
  s.act (fun b =>
    let n := match r.data with
      | some l => l.length
      | none => r.len
    match homeDest r.addr with
    | none => b
    | some d =>
      if b.holds r.addr ∧ homeShape r.addr n then
        (b.countLink d r.data.isSome r.linkCe).issue h { dest := d, task := r.task, op := if r.data.isSome then 2 else 1, addr := r.addr, len := n,
                                                         issued := 0, data := r.data.getD [], upset := r.upset }
      else b)

/-- Whether an adder request is well formed (R226, R318): a known operation and format, 1 to 64 bytes of whole, naturally
aligned elements within one 64-byte line. -/
def adderOk (addr op fmt n : Nat) : Bool :=
  match adderBytes fmt with
  | none => false
  | some eb => decide (op < 3) && decide (0 < n) && decide (n ≤ 64) && decide (n % eb = 0) && decide (addr % eb = 0) &&
      decide (addr / 64 = (addr + n - 1) / 64)

/-- MEMORY_ADD (R226): only Shelf and Bay controllers have adders. -/
def execMemoryAdd (h : HalfId) (r : AddRequest) (s : State) : Host.Outcome State Fault Refusal :=
  s.act (fun b =>
    match homeDest r.addr with
    | none => b
    | some d =>
      if b.holds r.addr ∧ tierOf r.addr ≠ 0 ∧ adderOk r.addr r.op r.format r.data.length then
        b.issue h { dest := d, task := r.task, op := 3, addr := r.addr, len := r.data.length, issued := 0,
                    data := leBytes 8 (r.op + r.format * 256) ++ r.data, upset := r.upset }
      else b)

/-- REQUEST_RESPONSE (R216). A completion whose tag has returned is discarded as unexpected and counted (R410). -/
def execRequestResponse (h : HalfId) (tag status : Nat) (data : List Byte) (s : State) : Host.Outcome State Fault Refusal :=
  s.act (fun b => match tabFind (b.tiers h).tags tag with
    | none => b.count (pciReg 0x48) 31 16 1
    | some _ => b.completeRequest h tag status data)

/-- FAR_DEADLINE_EXPIRY (R216): a far request with no response TIER_FAR_DEADLINE after its issue. -/
def execFarDeadlineExpiry (h : HalfId) (tag : Nat) (s : State) : Host.Outcome State Fault Refusal :=
  s.act (fun b =>
    match tabFind (b.tiers h).tags tag with
    | none => b
    | some r =>
      if 3 ≤ farTier r.addr ∧ r.issued + b.regFld (tierReg h 0x10) 26 0 ≤ b.tide h then
        let b1 := b.modTiers h (fun t => { t with tags := tabDel t.tags tag })
        match r.task with
        | some t => b1.fail t stFarLate (tierDetail (farTier r.addr))
        | none => b1
      else b)

end Sys2Proof.Machine
end

