-- ==== Sys2Proof/Machine/Engine.lean ====
section
/-! DEFINITION. What every engine shares: a task's operands at firing, the references it takes, the landing of its writes and
the fixing of its status (spec/02_saffron_task_graphs.md R42, R46; spec/08_cove_shelf_bay_offshore_mainland.md R208). -/

namespace Sys2Proof.Machine

/-- Byte offsets in a task descriptor, as R492 names them: an operand slot's TDESC and ROLE, OPERANDS. -/
def offSlot (s : Nat) : Nat := 32 + 8 * s
def offRole (s : Nat) : Nat := 38 + 8 * s
def offOperands : Nat := 1

/-- Byte offsets in a tensor descriptor: SCALE_OFF, SROUND, COMP and FORMAT, capacity d, stride d. -/
def tOffScale : Nat := 6
def tOffRound : Nat := 6
def tOffFormat : Nat := 5
def tOffCap (d : Nat) : Nat := [8, 10, 12, 16, 18].getD d 8
def tOffStride (d : Nat) : Nat := [0, 20, 24, 26, 29].getD d 20

/-- Operand slot `s` of a fired task as a tensor, at its extents (R35, R42). -/
def TaskCtx.tensor (c : TaskCtx) (s : Nat) : Tensor :=
  { parseTensor s ((c.desc.slots.getD s { role := 0, bound := 0, tdesc := 0 }).tdesc) (c.tdescs.getD s []) with exts := c.exts.getD s [] }

/-- Whether a task uses an operand slot: below OPERANDS, with a TDESC (R91). -/
def TaskDesc.uses (d : TaskDesc) (s : Nat) : Bool :=
  decide (s < d.operands) && decide ((d.slots.getD s { role := 0, bound := 0, tdesc := 0 }).tdesc ≠ 0)

/-- The ROLE of an operand slot. -/
def TaskDesc.role (d : TaskDesc) (s : Nat) : Nat := (d.slots.getD s { role := 0, bound := 0, tdesc := 0 }).role

/-- The operand slots a task uses. -/
def TaskDesc.used (d : TaskDesc) : List Nat := (List.range 8).filter (fun s => d.uses s)

/-- The first of a list of checks that fails. -/
def firstFault : List (Option Nat) → Option Nat
  | [] => none
  | some x :: _ => some x
  | none :: l => firstFault l

/-- A check: `off` is reported when `bad` holds. -/
def faultIf (bad : Bool) (off : Nat) : Option Nat := if bad then some off else none

/-- The task uses exactly the slots below `n`, with the roles listed (R91 and its like). -/
def slotsAre (d : TaskDesc) (roles : List Nat) : Option Nat :=
  firstFault (faultIf (d.operands ≠ roles.length) offOperands ::
    (roles.zip (List.range roles.length)).map (fun p => firstFault [
      faultIf (!(d.uses p.2)) (offSlot p.2), faultIf (d.role p.2 ≠ p.1) (offRole p.2)]))

/-- A slot's tensor has one of the formats listed. -/
def formatIn (t : Tensor) (l : List Nat) : Option Nat := faultIf (!(l.contains t.fmt)) (offTensor t.slot tOffFormat)

/-- A slot's tensor has one of the compressions listed. -/
def compIn (t : Tensor) (l : List Nat) : Option Nat := faultIf (!(l.contains t.comp)) (offTensor t.slot tOffFormat)

/-- Two tensors' extents agree in a dimension of each; the higher slot is reported. -/
def extEq (t u : Tensor) (d e : Nat) : Option Nat :=
  faultIf (t.ext d ≠ u.ext e) (if t.slot < u.slot then offTensor u.slot (tOffCap e) else offTensor t.slot (tOffCap d))

/-- A tensor's extents from dimension `d` up are 1. -/
def flatFrom (t : Tensor) (d : Nat) : Option Nat :=
  firstFault ((List.range 5).map (fun i => faultIf (decide (d ≤ i) && decide (t.ext i ≠ 1)) (offTensor t.slot (tOffCap i))))

/-- A tensor's extents 1 to 3. -/
def rowsAre (t : Tensor) (e1 e2 e3 : Nat) : Option Nat :=
  firstFault [faultIf (t.ext 1 ≠ e1) (offTensor t.slot (tOffCap 1)), faultIf (t.ext 2 ≠ e2) (offTensor t.slot (tOffCap 2)),
    faultIf (t.ext 3 ≠ e3) (offTensor t.slot (tOffCap 3))]

/-- The first zero extent of a task's operands: slot × 8 + dimension (R42 check 4, R56). -/
def TaskCtx.emptyDetail (c : TaskCtx) : Option Nat :=
  c.desc.used.findSome? (fun s => (List.range 5).findSome? (fun d => if (c.exts.getD s []).getD d 1 = 0 then some (8 * s + d) else none))

/-- A task's demand accesses to pieces of memory take a reference on each cache object under them (R208). -/
def Block.touchPieces (b : Block) (t : TaskRef) (k : Nat) (ps : List (Nat × Nat)) : Block :=
  ps.foldl (fun x p => x.refObjects t (x.objectsIn k p.1 p.2)) b

/-- Whether a run-ahead access at a virtual address is dropped (R204): an unmapped page, one with NO_PREFETCH, a failed far check, an
uncorrectable error in its line, or a destination at its tag cap. -/
def Block.dropsAhead (b : Block) (h : HalfId) (k va : Nat) : Bool :=
  match b.translate k va with
  | none => true
  | some (d, p) =>
    p.noPrefetch ||
    (if d / 2 ^ 60 = 0 then b.bad.any (fun e => e.1 / 64 = d / 64)
     else (farTier d = 4 && !(dirServes (b.tiers h).mainland (b.slot k).job (d % 2 ^ 60) 1)) ||
       decide (b.regFld (tierReg h 0x18) 12 0 ≤ (b.tiers h).tagsAt (farDest d)))

/-- A task's engines may have run ahead at pieces of memory where a run-ahead is dropped: how many did, timing decides, so it is a free value up
to the lines there (R204; log entry 61). -/
def Block.noteAhead (b : Block) (h : HalfId) (k : Nat) (ps : List (Nat × Nat)) : Block :=
  let n := ((ps.map (fun p => (List.range (cdiv (p.1 % 64 + p.2) 64)).filter (fun i => b.dropsAhead h k (p.1 / 64 * 64 + 64 * i)))).flatten).length
  if n = 0 then b
  else
    let r := b.fresh
    r.2.count (tierReg h 0x28) 39 16 (r.1 % (n + 1))

/-- The pieces that a task's operands of some slots cover. -/
def TaskCtx.piecesOf (c : TaskCtx) (slots : List Nat) : List (Nat × Nat) := (slots.map (fun s => (c.tensor s).pieces)).flatten

/-- A task's demand accesses to its operands take their references (R208), and what it ran ahead at is counted once, before its first access
(R204). -/
def Block.touchSlots (b : Block) (t : TaskRef) (g : Graph) (c : TaskCtx) (slots : List Nat) : Block :=
  let b1 := if c.noted then b
    else (b.noteAhead t.half g.slot (c.piecesOf (slots.filter (fun s => c.desc.role s ≠ 1)))).modTask t (fun c => { c with noted := true })
  b1.touchPieces t g.slot (c.piecesOf slots)

/-- The same of every operand. -/
def Block.touch (b : Block) (t : TaskRef) (g : Graph) (c : TaskCtx) : Block := b.touchSlots t g c c.desc.used

/-- Land a task's writes and fix its status; a write of part of a bad word fails it (R228). -/
def Block.land (b : Block) (t : TaskRef) (cells : List Host.Cell) (status detail : Nat) : Block :=
  let r := b.landCells cells
  match r.2 with
  | some a => r.1.failStop t (.bad a)
  | none => r.1.fix t status detail

/-- Finish an engine's run: its writes land, or its access stops it. -/
def Block.finish (b : Block) (t : TaskRef) (r : Res (List Host.Cell)) (status detail : Nat) : Block :=
  match r with
  | .ok cells => b.land t cells status detail
  | .error e => b.stop t e

/-! ## Runs that stop part of the way (R52, R108, R109, R173) -/

/-- A piece of a run's writes, in the order a core makes them: its cells, or why they cannot be made. If it is where the run stops, the first `sure` pieces
of its core are written. -/
structure Piece where
  out : Res (List Host.Cell)
  sure : Nat
deriving DecidableEq, Repr

/-- The pieces of a sequence that writes each one before it begins the next. -/
def seqPieces (l : List (Res (List Host.Cell))) : List Piece := (l.zip (List.range l.length)).map (fun p => { out := p.1, sure := p.2 })

/-- Why a piece stops its run: what it reads, where it writes, or a bad word it would write in part (R228). -/
def Block.pieceStop (b : Block) (p : Piece) : Option Stop :=
  match p.out with
  | .error e => some e
  | .ok cs => (b.badWrite cs).map (fun a => .bad a)

/-- A piece's cells land, up to the first bad word. -/
def Block.landPiece (b : Block) (p : Piece) : Block :=
  match p.out with
  | .error _ => b
  | .ok cs => (b.landCells cs).1

/-- Pieces land one after another. -/
def Block.landPieces (b : Block) (ps : List Piece) : Block := ps.foldl (fun x p => x.landPiece p) b

/-- Of the first `hi` pieces at least `lo` land: how many, timing decides, so it is a free value (log entry 73). -/
def Block.landFree (b : Block) (ps : List Piece) (lo hi : Nat) : Block :=
  let r := b.fresh
  r.2.landPieces (ps.take (lo + r.1 % (hi - lo + 1)))

/-- The pieces of a core before the first that stops. -/
def Block.goodCount (b : Block) (ps : List Piece) : Nat := (ps.takeWhile (fun p => (b.pieceStop p).isNone)).length

/-- Each core lands some of its pieces: what stays of a run that is broken off. -/
def Block.landSome (b : Block) (shares : List (List Piece)) : Block := shares.foldl (fun x ps => x.landFree ps 0 (b.goodCount ps)) b

/-- Every core's writes. A run that waits for far bytes has written nothing yet; one that fails keeps what its cores had written. The stop that is reported is
that of the lowest core that stops (DESIGN CHOICE, log entry 73). -/
def Block.landRun (b : Block) (shares : List (List Piece)) : Block × Option Stop :=
  let ix := shares.zip (List.range shares.length)
  match ix.findSome? (fun s => (s.1.findSome? (fun p => b.pieceStop p)).map (fun e => (s.2, e))) with
  | none => (b.landPieces shares.flatten, none)
  | some (_, Stop.need a n) => (b, some (Stop.need a n))
  | some (k, e) => (ix.foldl (fun x s =>
      let hi := b.goodCount s.1
      if s.2 = k then (x.landFree s.1 ((s.1[hi]?.map (fun p => p.sure)).getD hi) hi).landPieces ((s.1.drop hi).take 1)
      else x.landFree s.1 0 hi) b, some e)

/-- Finish an engine's run: its writes land and its status is fixed, or it stops. -/
def Block.finishRun (b : Block) (t : TaskRef) (shares : List (List Piece)) (status detail : Nat) : Block :=
  let r := b.landRun shares
  match r.2 with
  | some e => r.1.stop t e
  | none => r.1.fix t status detail

/-- Run a body for a running task of a type and mode (PARAMS bits 63:60 of offset 96); any other is left alone. -/
def Block.onMode (b : Block) (t : TaskRef) (ty mode : Nat) (f : Graph → TaskCtx → Block) : Block :=
  b.onRunning t ty (fun g c => if c.desc.pf 0 63 60 = mode then f g c else b)

/-- Raw codes and scales of a row. -/
def Block.rawRow (b : Block) (a : Access) (t : Tensor) (r : Row) : Res RowOut :=
  match mapRes (fun i => b.elemCode a t i r) (List.range (t.ext 0)) with
  | .error e => .error e
  | .ok cs =>
    if hasScale t.fmt then
      let n := if t.fmt = 0x0E then 2 else 1
      match mapRes (fun j => b.rdNat a t.slot (t.scaleVa r j) n) (List.range (cdiv (t.ext 0) 32)) with
      | .error e => .error e
      | .ok ss => .ok { codes := cs ++ List.replicate (cdiv cs.length 32 * 32 - cs.length) 0, scales := ss, stats := ConvStats.zero }
    else .ok { codes := cs, scales := [], stats := ConvStats.zero }

/-- A row of zeros of a tensor. -/
def zeroRow (t : Tensor) : RowOut :=
  if hasScale t.fmt then
    { codes := List.replicate (cdiv (t.ext 0) 32 * 32) 0, scales := List.replicate (cdiv (t.ext 0) 32) 0, stats := ConvStats.zero }
  else { codes := List.replicate (t.ext 0) 0, scales := [], stats := ConvStats.zero }

/-- The rank of the core that takes position `i` of `n` shared out as consecutive runs among `cores` (R95). -/
def coreOf (n cores i : Nat) : Nat :=
  let q := n / cores
  let r := n % cores
  if i < r * (q + 1) then i / (q + 1) else r + (i - r * (q + 1)) / q

end Sys2Proof.Machine
end

