-- ==== Sys2Proof/Machine/Packing.lean ====
section
/-! DEFINITION. What is stored in compressed form: 2:4 values and indices (spec/05_sparse_operands_and_experts.md R115-R118) and the feature
maps of COMP 2-6 (spec/07_convolution_and_vision_ops.md R188-R190). -/

namespace Sys2Proof.Machine

/-- What a store becomes: cells and counts. -/
structure Stored where
  cells : List Host.Cell
  stats : ConvStats
deriving DecidableEq, Repr

/-- Stores one after another. -/
def Stored.join (l : List Stored) : Stored :=
  { cells := (l.map (fun x => x.cells)).flatten, stats := (l.map (fun x => x.stats)).foldl ConvStats.add ConvStats.zero }

/-! ## 2:4 (R118) -/

/-- Whether a value ranks above another by magnitude; a NaN ranks above every other value. -/
def ranksAbove (v w : Val) : Bool :=
  if w = .nan then false else if v = .nan then true else ltV (absV w) (absV v)

/-- The positions of the values that a group of 4 keeps, ascending: the two of largest magnitude, a tie to the lower position. -/
def keepPair (vs : List Val) : List Nat :=
  (List.range 4).filter (fun i =>
    let beats (j : Nat) : Bool :=
      let v := vs.getD j (.fin false 0 0)
      let w := vs.getD i (.fin false 0 0)
      ranksAbove v w || (decide (j < i) && !ranksAbove w v)
    decide (((List.range 4).filter beats).length < 2))

/-- Values compressed from element `i0` of a row on (a multiple of 64): the kept values converted, and each group's four index bits. -/
def compress24 (a : Access) (t : Tensor) (r : Row) (i0 : Nat) (vs : List Val) : RowOut × List Nat :=
  let gs := (chunks 4 (vs.length + 1) vs).map (fun g => (g, keepPair g))
  let ix := (gs.zip (List.range gs.length)).flatMap (fun p => p.1.2.map (fun i => (i0 + 4 * p.2 + i, p.1.1.getD i (.fin false 0 0))))
  let o := convWith t (ix.map (fun p => t.rule a p.1 r)) (ix.map (fun p => p.2))
  let pruned := gs.map (fun g => ((g.1.zip (List.range 4)).filter (fun p => !(g.2.contains p.2) && !p.1.isFinite)).length)
  ({ o with stats := { o.stats with nf := o.stats.nf + pruned.sum } }, gs.map (fun g => g.2.getD 0 0 + 4 * g.2.getD 1 0))

/-- Two groups' index bits to a byte (R116). -/
def nibbleBytes : Nat → List Nat → List Byte
  | 0, _ => []
  | fuel + 1, l => if l.isEmpty then [] else BitVec.ofNat 8 (l.getD 0 0 + 16 * l.getD 1 0) :: nibbleBytes fuel (l.drop 2)

/-- A block stored at 2:4 sparsity. -/
def Block.sparseCells (b : Block) (a : Access) (t : Tensor) (r : Row) (i0 : Nat) (vs : List Val) : Res Stored :=
  let o := compress24 a t r i0 vs
  match b.rowCellsAt a t.kept r (i0 / 2) o.1 with
  | .error e => .error e
  | .ok cs => match b.wrCells a t.slot (t.base + t.metaOff + t.cap 0 / 8 * t.rowByCap r + i0 / 8) (nibbleBytes (o.2.length + 1) o.2) with
    | .error e => .error e
    | .ok ms => .ok { cells := cs ++ ms, stats := o.1.stats }

/-! ## Zero runs (R190) -/

/-- The bytes of a chunk: its mask and its non-zero elements. -/
def zrBytes (n : Nat) (codes : List Nat) : List Byte :=
  leBytes 8 (((codes.zip (List.range 64)).map (fun p => b2n (p.1 != 0) * 2 ^ p.2)).sum) ++
    (codes.filter (fun c => c != 0)).flatMap (fun c => leBytes n c)

/-- A row stored as zero runs. -/
def Block.zrCells (b : Block) (a : Access) (t : Tensor) (r : Row) (o : RowOut) : Res (List Host.Cell) :=
  let cs := chunks 64 (t.ext 0 + 1) (o.codes.take (t.ext 0))
  match concatRes (fun p => b.wrCells a t.slot (t.zrSlot r p.2) (zrBytes (elemBits t.fmt / 8) p.1)) (cs.zip (List.range cs.length)) with
  | .error e => .error e
  | .ok l =>
    if hasScale t.fmt then
      match b.wrCells a t.slot (t.scaleVa r 0) ((o.scales.map (fun s => leBytes (if t.fmt = 0x0E then 2 else 1) s)).flatten) with
      | .error e => .error e
      | .ok ss => .ok (l ++ ss)
    else .ok l

/-! ## Fixed-rate lossy blocks (R188) -/

/-- A block's scale and mantissas. -/
def lossyPack (comp : Nat) (nfSat : Bool) (vs : List Val) : Nat × List Int :=
  let top : Int := lossyMax comp
  if vs.any (fun v => match v with
      | .nan => true
      | .inf _ => !nfSat
      | .fin _ _ _ => false) then (0xFF, vs.map (fun _ => 0))
  else
    let X := min 127 (sharedExponent (lossyEmax comp) vs)
    ((X + 127).toNat, vs.map (fun v => match v with
      | .nan => 0
      | .inf s => if s then -top else top
      | .fin s m e => max (-top) (min top (roundInt (.fin s m (e - X))))))

/-- A block's bytes: the scale and the packed mantissas. -/
def lossyBlockBytes (comp : Nat) (p : Nat × List Int) : List Byte :=
  let w := lossyWidth comp
  BitVec.ofNat 8 p.1 :: leBytes (8 * w) (packCodes w (p.2.map (twos w)))

/-- The block at (a, b) of a plane of a lossy tensor, from its rows. -/
def Block.lossyCells (b : Block) (a : Access) (t : Tensor) (rows : List (Row × List Val)) (i j : Nat) (r : Row) : Res Stored :=
  let at_ (x y : Nat) : Option Val :=
    if t.ext 0 ≤ 8 * i + x then none
    else (rows.find? (fun p => p.1 = (8 * j + y, r.2.1, r.2.2.1, r.2.2.2))).map (fun p => p.2.getD (8 * i + x) (.fin false 0 0))
  let cells := (List.range 64).map (fun k => at_ (k % 8) (k / 8))
  let p := lossyPack t.comp t.nfSat (cells.map (fun v => v.getD (.fin false 0 0)))
  match b.wrCells a t.slot (t.lossyBlock i j r) (lossyBlockBytes t.comp p) with
  | .error e => .error e
  | .ok cs => .ok { cells := cs, stats := ((cells.zip p.2).filterMap (fun q => q.1.map (fun v =>
      countVal v (decide (p.1 ≠ 0xFF) && decide (q.2 = 0)) false))).foldl ConvStats.add ConvStats.zero }

/-- Rows of a feature map stored by its COMP (R188-R190), or plainly: block by block, or row by row. -/
def Block.mapParts (b : Block) (a : Access) (t : Tensor) (rows : List (Row × List Val)) : List (Res Stored) :=
  if lossy t.comp then
    ((rows.filter (fun p => p.1.1 % 8 = 0)).flatMap (fun p => (List.range (cdiv (t.ext 0) 8)).map (fun i => (i, p.1)))).map
      (fun q => b.lossyCells a t rows q.1 (q.2.1 / 8) q.2)
  else rows.map (fun p =>
    let o := convVals a t p.1 0 p.2
    (if t.comp = 6 then b.zrCells a t p.1 o else b.rowCells a t p.1 o).map (fun cs => { cells := cs, stats := o.stats }))

/-- Parts of a run's writes that cores make in any order. -/
def partShares (l : List (Res Stored)) : List (List Piece) := l.map (fun r => [{ out := r.map (fun x => x.cells), sure := 0 }])

/-- The counts of the parts that were made. -/
def partStats (l : List (Res Stored)) : ConvStats := (l.filterMap (fun r => r.toOption.map (fun x => x.stats))).foldl ConvStats.add ConvStats.zero

/-- Rows that were made, and those that were not: of a lossy map, a block is made when its rows are. -/
def Block.mapTried (b : Block) (a : Access) (t : Tensor) (rows : List (Row × Res (List Val))) : List (Res Stored) :=
  let bad := rows.filter (fun p => p.2.toOption.isNone)
  let kept := if lossy t.comp then
      rows.filter (fun p => !(bad.any (fun q => q.1.1 / 8 = p.1.1 / 8 && q.1.2 = p.1.2)))
    else rows
  b.mapParts a t (kept.filterMap (fun p => p.2.toOption.map (fun v => (p.1, v)))) ++
    bad.filterMap (fun p => match p.2 with
      | .ok _ => none
      | .error e => some (.error e))

/-- A tensor's FORMAT suits its COMP: BF16 or FP16 for COMP 2-5 (R188), 8 or 16 bits, as a policy's format is too, for COMP 6 (R190), CAP0 a multiple of 64 for COMP 1
(R114). -/
def compFormat (t : Tensor) : Option Nat :=
  if lossy t.comp then formatIn t [0x01, 0x02]
  else if t.comp = 6 then faultIf (t.fmt ≠ 0x1F && elemBits t.fmt ≠ 8 && elemBits t.fmt ≠ 16) (offTensor t.slot tOffFormat)
  else if t.comp = 1 then faultIf (t.cap 0 % 64 ≠ 0) (offTensor t.slot (tOffCap 0))
  else none

end Sys2Proof.Machine
end

