-- ==== Sys2Proof/Machine/VecMath.lean ====
section
/-! DEFINITION. The correctly rounded functions of the vector engine (spec/06_vector_engine_and_attention.md R148, R150). Each value is
formed in 256-bit fixed point, with its last bit sticky, and rounded once; that 256 bits decide every FP32 rounding is PRESUMED (log
entry 29). -/

namespace Sys2Proof.Machine

/-- Bits of fraction. -/
def fixBits : Nat := 256

/-- One, in fixed point. -/
def fixOne : Nat := 2 ^ fixBits

/-- ln 2 in fixed point, rounded down. -/
def fixLn2 : Nat := 0xb17217f7d1cf79abc9e3b39803f2f6af40f343267298b62d8a0d175b8baafa2b

/-- The terms y^k / k! of the exponential from the one given on, summed. -/
def expTerms (y : Nat) : Nat → Nat → Nat → Nat
  | 0, _, _ => 0
  | fuel + 1, k, term => term + expTerms y fuel (k + 1) (term * y / fixOne / (k + 1))

/-- e^y for 0 ≤ y < 1, in fixed point. -/
def fixExp (y : Nat) : Nat := expTerms y 64 0 fixOne

/-- The terms z^(2k+1) / (2k+1) from the power given on, summed. -/
def atanhTerms (z2 : Nat) : Nat → Nat → Nat → Nat
  | 0, _, _ => 0
  | fuel + 1, k, p => p / (2 * k + 1) + atanhTerms z2 fuel (k + 1) (p * z2 / fixOne)

/-- log2 of m, for 1 < m < 2 in fixed point: 2 atanh((m - 1) / (m + 1)) / ln 2. -/
def fixLog2 (m : Nat) : Nat :=
  let z := (m - fixOne) * fixOne / (m + fixOne)
  2 * atanhTerms (z * z / fixOne) 90 0 z * fixOne / fixLn2

/-- 2^x, exact at an integer, its last bit sticky elsewhere. -/
def exp2V : Val → Val
  | .nan => .nan
  | .inf s => if s then .fin false 0 0 else .inf false
  | .fin s m e =>
    if m = 0 then .fin false 1 0
    else if 9 < (Nat.log2 m : Int) + e then (if s then .fin false 0 0 else .inf false)
    else if (Nat.log2 m : Int) + e < -200 then .fin false 1 0
    else
      let n : Int := scaled s m (e + 256) 0
      let k : Int := n / (fixOne : Int)
      let f := (n % (fixOne : Int)).toNat
      if f = 0 then .fin false 1 k
      else .fin false (2 * fixExp (f * fixLn2 / fixOne) + 1) (k - 257)

/-- log2 of a value. -/
def log2V : Val → Val
  | .nan => .nan
  | .inf s => if s then .nan else .inf false
  | .fin s m e =>
    if m = 0 then .inf true
    else if s then .nan
    else
      let k := Nat.log2 m
      let E : Int := (k : Int) + e
      if m = 2 ^ k then ofInt E
      else ofScaled (2 * (E * fixOne + fixLog2 (m * fixOne / 2 ^ k)) + 1) (-257) false

/-- 1 / x, its last bit sticky. -/
def rcpV (x : Val) : Val := divV (.fin false 1 0) x

/-- 1 / √x, its last bit sticky. -/
def rsqrtV : Val → Val
  | .nan => .nan
  | .inf s => if s then .nan else .fin false 0 0
  | .fin s m e =>
    if m = 0 then .inf s
    else if s then .nan
    else
      let m2 := if e % 2 = 0 then m else 2 * m
      let e2 : Int := if e % 2 = 0 then e else e - 1
      let top := 2 ^ (2 * (128 + Nat.log2 m2))
      let r := isqrt (top / m2)
      .fin false (2 * r + b2n (r * r * m2 != top)) (-(e2 / 2) - (128 + (Nat.log2 m2 : Int)) - 1)

/-- tanh of a value: below 2^-13 it rounds as its argument does, and from 16 up to 1. -/
def tanhV : Val → Val
  | .nan => .nan
  | .inf s => .fin s 1 0
  | .fin s m e =>
    if m = 0 then .fin s 0 0
    else
      let top : Int := (Nat.log2 m : Int) + e
      if top < -13 then .fin s m e
      else if 4 ≤ top then .fin s 1 0
      else
        let y := (scaled false m (e + 257) 0).toNat
        let k := y / fixLn2
        let E := fixExp (y % fixLn2) * 2 ^ k
        .fin s (2 * ((E - fixOne) * fixOne / (E + fixOne)) + 1) (-257)

/-- The five transcendentals on FP32 bits (R150). -/
def exp2F (x : Nat) : Nat := toF32 (exp2V (f32 x))
def log2F (x : Nat) : Nat := toF32 (log2V (f32 x))
def rcpF (x : Nat) : Nat := toF32 (rcpV (f32 x))
def rsqrtF (x : Nat) : Nat := toF32 (rsqrtV (f32 x))
def tanhF (x : Nat) : Nat := toF32 (tanhV (f32 x))

/-- The larger and the smaller of two FP32 values (R148). -/
def maxF (x y : Nat) : Nat := toF32 (maxV (f32 x) (f32 y))
def minF (x y : Nat) : Nat := toF32 (minV (f32 x) (f32 y))

/-- The sign of FP32 bits inverted; a NaN is canonical. -/
def negF (x : Nat) : Nat := toF32 (negV (f32 x))

/-- FP32 constants: log2 e (R162), and of R102 0.044715 and √(2/π). -/
def cLog2e : Nat := 0x3FB8AA3B
def cGelu : Nat := 0x3D372713
def cRoot2OverPi : Nat := 0x3F4C422A

/-- One step of the compensated sum, or of the plain one (R85): sum and compensation. -/
def sumStep (plain : Bool) (sc : Nat × Nat) (x : Nat) : Nat × Nat :=
  if plain then (addF sc.1 x, 0)
  else
    let y := subF x sc.2
    let t := addF sc.1 y
    if (f32 y).isFinite ∧ (f32 t).isFinite then (t, subF (subF t sc.1) y) else (t, 0)

/-- The value at the end of a sum (R85). -/
def sumEnd (sc : Nat × Nat) : Nat := subF sc.1 sc.2

end Sys2Proof.Machine
end

