-- ==== Sys2Proof/Machine/Matrix.lean ====
section
/-! DEFINITION. The matrix arrays (spec/04_matrix_arrays.md), with the 2:4 weight operand and the zero blocks of
spec/05_sparse_operands_and_experts.md R114-R125. -/

namespace Sys2Proof.Machine

/-! ## PARAMS (R90) -/

def TaskDesc.mxStatSlot (d : TaskDesc) : Nat := d.pf 0 63 52
def TaskDesc.mxStatEn (d : TaskDesc) : Bool := d.pf 0 39 39 = 1
def TaskDesc.mxPlain (d : TaskDesc) : Bool := d.pf 0 38 38 = 1
def TaskDesc.mxAccIn (d : TaskDesc) : Bool := d.pf 0 37 37 = 1
def TaskDesc.mxZbOut (d : TaskDesc) : Bool := d.pf 0 36 36 = 1
def TaskDesc.mxAct (d : TaskDesc) : Nat := d.pf 0 35 33
def TaskDesc.mxScaleMode (d : TaskDesc) : Nat := d.pf 0 32 30
def TaskDesc.mxBiasMode (d : TaskDesc) : Nat := d.pf 0 29 28
def TaskDesc.mxMask (d : TaskDesc) : Nat := d.pf 0 27 26
def TaskDesc.mxAT (d : TaskDesc) : Bool := d.pf 0 25 25 = 1
def TaskDesc.mxBT (d : TaskDesc) : Bool := d.pf 0 24 24 = 1
def TaskDesc.mxTileOrder (d : TaskDesc) : Nat := d.pf 0 23 23
def TaskDesc.mxGroupM (d : TaskDesc) : Nat := d.pf 0 22 20
def TaskDesc.mxGroupN (d : TaskDesc) : Nat := d.pf 0 19 17

/-! ## Pairings (R80) -/

/-- The column of R80 that a FORMAT stands in: 0 FP32, 1 BF16 and FP16, 2 MXFP8, 3 MXFP6, 4 MXFP4, 5 INT8, 6 INT4. -/
def pairClass : Nat → Option Nat
  | 0x00 => some 0
  | 0x01 => some 1
  | 0x02 => some 1
  | 0x03 => some 2
  | 0x04 => some 2
  | 0x05 => some 3
  | 0x06 => some 3
  | 0x07 => some 4
  | 0x08 => some 5
  | 0x09 => some 6
  | _ => none

/-- A pairing: the group size P, whether the accumulator is INT64, and whether a group takes 4 cycles. -/
structure Pairing where
  p : Nat
  ints : Bool
  slow : Bool
deriving DecidableEq, Repr

/-- The pairing of two FORMATs (R80). -/
def pairing (fa fb : Nat) : Option Pairing :=
  match pairClass fa, pairClass fb with
  | some x, some y =>
    let lo := min x y
    let hi := max x y
    if lo = 0 ∧ hi ≤ 4 then some { p := 1, ints := false, slow := true }
    else if lo = 1 ∧ hi ≤ 4 then some { p := 1, ints := false, slow := false }
    else if 2 ≤ lo ∧ lo ≤ 3 ∧ hi ≤ 4 then some { p := 2, ints := false, slow := false }
    else if lo = 4 ∧ hi = 4 then some { p := 4, ints := false, slow := false }
    else if lo = 5 then some { p := 2, ints := true, slow := false }
    else if lo = 6 then some { p := 4, ints := true, slow := false }
    else none
  | _, _ => none

/-! ## Check 1 (R89-R93, R114) -/

/-- The byte that holds the lowest bit of BANKS, and of COVE_UNITS (R31). -/
def offBanks : Nat := 25
def offCove : Nat := 25

/-- A slot below OPERANDS that the task does not use is all zero (R91). -/
def unusedSlot (d : TaskDesc) (s : Nat) : Option Nat :=
  let o := d.slots.getD s { role := 0, bound := 0, tdesc := 0 }
  firstFault [faultIf (o.tdesc ≠ 0) (offSlot s), faultIf (o.role ≠ 0) (offRole s), faultIf (o.bound ≠ 0) (offSlot s + 5)]

/-- Fixed slots: each with whether it is used and its ROLE; OPERANDS is one more than the highest used (R91). -/
def fixedSlots (d : TaskDesc) (l : List (Bool × Nat)) : Option Nat :=
  let ix := l.zip (List.range l.length)
  let top := (ix.filter (fun p => p.1.1)).foldl (fun m p => max m (p.2 + 1)) 0
  firstFault (faultIf (d.operands ≠ top) offOperands ::
    (ix.filter (fun p => decide (p.2 < top))).map (fun p =>
      if p.1.1 then firstFault [faultIf (!(d.uses p.2)) (offSlot p.2), faultIf (d.role p.2 ≠ p.1.2) (offRole p.2)] else unusedSlot d p.2))

/-- M, N and K of a matrix task (R92). -/
def TaskCtx.mxM (c : TaskCtx) : Nat := (c.tensor 2).ext 1
def TaskCtx.mxN (c : TaskCtx) : Nat := (c.tensor 2).ext 0
def TaskCtx.mxK (c : TaskCtx) : Nat := (c.tensor 0).ext (if c.desc.mxAT then 1 else 0)

/-- A tensor's extents in dimensions 2 and 3 are C's, or, when `one`, both 1 (R92). -/
def batchExt (t z : Tensor) (one : Bool) : Option Nat :=
  if one ∧ t.ext 2 = 1 ∧ t.ext 3 = 1 then none else firstFault [extEq t z 2 2, extEq t z 3 3]

/-- A tensor's extents in dimensions 0 and 1 are the ones given. -/
def extsAre (t : Tensor) (e0 e1 : Nat) : Option Nat :=
  firstFault [faultIf (t.ext 0 ≠ e0) (offTensor t.slot (tOffCap 0)), faultIf (t.ext 1 ≠ e1) (offTensor t.slot (tOffCap 1))]

/-- A check made only when it applies. -/
def whenOn (on : Bool) (x : Option Nat) : Option Nat := if on then x else none

/-- Check 1 of a matrix task. Where several faults stand together the model reports the first in this order (DESIGN CHOICE, log entry
30). A slot that R91 gives no COMP takes 0 (DEDUCED, log entry 30). -/
def matrixCheck (c : TaskCtx) : Option Nat :=
  let d := c.desc
  let a := c.tensor 0
  let w := c.tensor 1
  let z := c.tensor 2
  let m := c.mxM
  let n := c.mxN
  let sv := decide (d.mxScaleMode = 1) || decide (d.mxScaleMode = 2)
  let bv := decide (d.mxBiasMode ≠ 0)
  let mv := decide (d.mxMask ≠ 0)
  let ints := ((pairing a.fmt w.fmt).map (fun p => p.ints)).getD false
  firstFault [
    faultIf (d.banks ≠ 4) offBanks, faultIf (decide (d.coveUnits < 7)) offCove,
    faultIf (decide (5 ≤ d.mxAct)) 100, faultIf (decide (4 ≤ d.mxScaleMode)) 99, faultIf (d.mxBiasMode = 3) 99, faultIf (d.mxMask = 3) 99,
    faultIf (d.mxGroupM = 0) 98,
    fixedSlots d [(true, 0), (true, 0), (true, 1), (sv, 0), (bv, 0), (mv, 0), (d.mxAccIn, 0)],
    faultIf ([0x0B, 0x0C, 0x0D, 0x0E].contains z.fmt) (offTensor 2 tOffFormat),
    compIn a [0, 7], compIn w [0, 1], compIn z [0, 7],
    whenOn sv (firstFault [formatIn (c.tensor 3) [0x00, 0x01], compIn (c.tensor 3) [0]]),
    whenOn bv (firstFault [formatIn (c.tensor 4) [0x00, 0x01], compIn (c.tensor 4) [0]]),
    whenOn mv (firstFault [formatIn (c.tensor 5) [0x0C], compIn (c.tensor 5) [0]]),
    faultIf (pairing a.fmt w.fmt).isNone (offTensor 1 tOffFormat),
    whenOn d.mxAccIn (firstFault [formatIn (c.tensor 6) (if ints then [0x0A] else [0x00, 0x01]), compIn (c.tensor 6) [0]]),
    whenOn (w.comp = 1) (faultIf (w.cap 0 % 64 ≠ 0) (offTensor 1 (tOffCap 0))),
    if d.mxAT then extEq a z 0 1 else extEq a z 1 1,
    extEq a w (if d.mxAT then 1 else 0) (if d.mxBT then 1 else 0),
    extEq w z (if d.mxBT then 0 else 1) 0,
    batchExt a z false, batchExt w z false, flatFrom a 4, flatFrom w 4, flatFrom z 4,
    whenOn sv (firstFault [extsAre (c.tensor 3) (if d.mxScaleMode = 1 then m else n) 1, batchExt (c.tensor 3) z true, flatFrom (c.tensor 3) 4]),
    whenOn bv (firstFault [extsAre (c.tensor 4) (if d.mxBiasMode = 2 then m else n) 1, batchExt (c.tensor 4) z true, flatFrom (c.tensor 4) 4]),
    whenOn mv (firstFault [extsAre (c.tensor 5) (if d.mxMask = 1 then cdiv m 8 else cdiv (cdiv m 128) 8) 1, flatFrom (c.tensor 5) 2]),
    whenOn d.mxAccIn (firstFault [extsAre (c.tensor 6) n m, batchExt (c.tensor 6) z false, flatFrom (c.tensor 6) 4]),
    faultIf (decide (65535 < z.ext 2 * z.ext 3)) (offTensor 2 (tOffCap 2)),
    faultIf (mv && d.mxZbOut) 100, faultIf (d.mxZbOut && z.comp ≠ 7) 100 ]

/-! ## Operand elements (R82, R114-R117, R122-R124) -/

/-- The kept values that stand at a position of a 2:4 row, first-stored first (R116, R117). -/
def Block.sparseAt (b : Block) (a : Access) (t : Tensor) (i0 : Nat) (r : Row) : Res (List Val) :=
  let g := i0 / 4
  match b.rdNat a t.slot (t.base + t.metaOff + t.cap 0 / 8 * t.rowByCap r + g / 2) 1 with
  | .error e => .error e
  | .ok x =>
    let nib := x / 16 ^ (g % 2) % 16
    mapRes (fun j => b.elemVal a t.kept (2 * g + j) r) ((if nib % 4 = i0 % 4 then [0] else []) ++ (if nib / 4 = i0 % 4 then [1] else []))

/-- The values that stand at a position of a weight operand: one, or the kept values of a 2:4 tensor there. -/
def Block.weightAt (b : Block) (a : Access) (t : Tensor) (i0 : Nat) (r : Row) : Res (List Val) :=
  if t.comp = 1 then b.sparseAt a t i0 r
  else match b.elemVal a t i0 r with
    | .error e => .error e
    | .ok v => .ok [v]

/-- The bits of a tile row's blocks of A: all set unless the task skips zero blocks (R123). -/
def Block.zeroBits (b : Block) (a : Access) (c : TaskCtx) (r : Row) (tileRow : Nat) : Res (List Bool) :=
  let t := c.tensor 0
  let n := cdiv c.mxK 32
  if t.comp = 7 ∧ ¬ c.desc.mxAT then
    mapRes (fun j => match b.rdNat a 0 (t.zbByte (t.zbBatch r) tileRow j) 1 with
      | .error e => .error e
      | .ok x => .ok (bit x (j % 8))) (List.range n)
  else .ok (List.replicate n true)

/-! ## Sums (R81-R86) -/

/-- A product: a zero factor makes it zero (R82). -/
def mulZ (x y : Val) : Val := if x.isZero ∨ y.isZero then .fin false 0 0 else mulV x y

/-- The group value of products: none when all are zero (R83). -/
def groupValue (ps : List Val) : Option Nat :=
  if ps.all (fun p => p.isZero) then none else some (toF32 (ps.foldl addV (.fin false 0 0)))

/-- Add a group value, if there is one. -/
def addGroup (plain : Bool) (sc : Nat × Nat) (ps : List Val) : Nat × Nat :=
  match groupValue ps with
  | none => sc
  | some x => sumStep plain sc x

/-- The products of a group with the kept values of rank `j` at each position. -/
def rankProducts (j : Nat) (xs : List (Val × List Val)) : List Val := xs.filterMap (fun p => (p.2[j]?).map (fun w => mulZ p.1 w))

/-- Groups of P positions added in ascending order (R84, R85). Where two kept values stand at one position the second ones form a group
value of their own, after the first (R117; DESIGN CHOICE, log entry 31). -/
def sumGroups (plain : Bool) (p : Nat) : Nat → List (Val × List Val) → Nat × Nat → Nat × Nat
  | 0, _, sc => sc
  | fuel + 1, xs, sc =>
    let g := xs.take p
    sumGroups plain p fuel (xs.drop p) (addGroup plain (addGroup plain sc (rankProducts 0 g)) (rankProducts 1 g))

/-- The integer a value is. -/
def valInt : Val → Int
  | .fin s m e => scaled s m e 0
  | .nan => 0
  | .inf _ => 0

/-- Every product added exactly (R86). -/
def sumInts (xs : List (Val × List Val)) (init : Int) : Int :=
  xs.foldl (fun n p => p.2.foldl (fun n w => n + valInt p.1 * valInt w) n) init

/-- The 64-bit bank entry of a cell after `limit` groups (R77): compensation and sum, or the INT64 sum. -/
def cellEntry (q : Pairing) (plain : Bool) (xs : List (Val × List Val)) (limit : Nat) (init : Val) : Nat :=
  if q.ints then twos 64 (sumInts (xs.take (limit * q.p)) (valInt init))
  else
    let sc := sumGroups plain q.p limit xs (toF32 init, 0)
    sc.2 * 2 ^ 32 + sc.1

/-! ## Tiles and cores (R94-R96, R99) -/

/-- G_N in force (R94). -/
def TaskCtx.mxGN (c : TaskCtx) : Nat := if c.desc.mxGroupN = 0 then cdiv c.mxN 128 else c.desc.mxGroupN

/-- Whether a matrix task runs in reordered form (R96). -/
def TaskCtx.mxReordered (c : TaskCtx) : Bool :=
  decide (4 < c.desc.mxGroupM * c.mxGN) || decide (c.desc.coveUnits < 2 * (c.desc.mxGroupM + c.mxGN) + 3)

/-- Whether a task expands its 2:4 operand (R121). -/
def TaskCtx.mxExpanded (c : TaskCtx) : Bool := (c.tensor 1).comp = 1 && (c.desc.mxBT || (c.tensor 0).fmt = 0x00)

/-- Whether a task issues at the sparse rate (R121). -/
def TaskCtx.mxSparseRate (c : TaskCtx) : Bool := (c.tensor 1).comp = 1 && !c.mxExpanded && !c.mxReordered && decide (2 ≤ c.mxGN)

/-- A tile: batch indices of dimensions 2 and 3, tile row and tile column. -/
structure MxTile where
  i2 : Nat
  i3 : Nat
  m : Nat
  n : Nat
deriving DecidableEq, Repr

/-- The groups of a task in order, each with its tiles in order (R94, R95). -/
def TaskCtx.mxGroups (c : TaskCtx) : List (List MxTile) :=
  let z := c.tensor 2
  let tm := cdiv c.mxM 128
  let tn := cdiv c.mxN 128
  let gm := c.desc.mxGroupM
  let gn := c.mxGN
  let us := List.range (cdiv tm gm)
  let ws := List.range (cdiv tn gn)
  let uw := if c.desc.mxTileOrder = 0 then us.flatMap (fun u => ws.map (fun w => (u, w))) else ws.flatMap (fun w => us.map (fun u => (u, w)))
  (List.range (z.ext 2 * z.ext 3)).flatMap (fun i => uw.map (fun p =>
    ((List.range gm).flatMap (fun x => (List.range gn).map (fun y =>
      ({ i2 := i % z.ext 2, i3 := i / z.ext 2, m := gm * p.1 + x, n := gn * p.2 + y } : MxTile)))).filter
        (fun t => decide (t.m < tm) && decide (t.n < tn))))

/-- The groups that the core of a rank takes (R95). -/
def TaskCtx.mxShare (c : TaskCtx) (rank : Nat) : List (List MxTile) :=
  let gs := c.mxGroups
  ((gs.zip (List.range gs.length)).filter (fun p => coreOf gs.length c.cores.length p.2 = rank)).map (fun p => p.1)

/-! ## One tile -/

/-- The rows and the columns of a tile that lie within C. -/
def TaskCtx.tileRows (c : TaskCtx) (x : MxTile) : List Nat := ((List.range 128).map (fun r => 128 * x.m + r)).filter (fun r => decide (r < c.mxM))
def TaskCtx.tileCols (c : TaskCtx) (x : MxTile) : List Nat := ((List.range 128).map (fun r => 128 * x.n + r)).filter (fun r => decide (r < c.mxN))

/-- The rows of C that a task computes, as its row mask says when it fires (R99): none listed where there is no mask. -/
def Block.liveRows (b : Block) (a : Access) (c : TaskCtx) : Res (List Bool) :=
  let t := c.tensor 5
  if c.desc.mxMask = 0 then .ok []
  else mapRes (fun i =>
    let k := if c.desc.mxMask = 1 then i else i / 128
    match b.rdNow a 5 (t.base + k / 8) with
    | .error e => .error e
    | .ok x => .ok (bit x.toNat (k % 8))) (List.range c.mxM)

/-- Whether a row of C is computed, and whether a tile has a row to compute (R99). -/
def TaskCtx.liveRow (c : TaskCtx) (i : Nat) : Bool := c.rowMask.getD i true
def TaskCtx.liveTile (c : TaskCtx) (x : MxTile) : Bool := (c.tileRows x).any (fun i => c.liveRow i)

/-- Where (x, k) of an operand stands, stored with x along dimension 0 or not: the dimension-0 index and the row. -/
def mxIndex (t : Bool) (x k i2 i3 : Nat) : Nat × Row := if t then (x, (k, i2, i3, 0)) else (k, (x, i2, i3, 0))

/-- What a tile needs: its block bits, its rows of A, its columns of B, and the initial values of the rows it computes (R85, R86). -/
structure MxIn where
  bits : List Bool
  rows : List (List Val)
  cols : List (List (List Val))
  init : List (List Val)
deriving DecidableEq, Repr

/-- The initial values of a row of a tile (R85, R86): none of a row that is not computed. -/
def Block.mxInit (b : Block) (a : Access) (c : TaskCtx) (x : MxTile) (i : Nat) : Res (List Val) :=
  if ¬ c.liveRow i then .ok []
  else if c.desc.mxAccIn then mapRes (fun j => b.elemVal a (c.tensor 6) j (i, x.i2, x.i3, 0)) (c.tileCols x)
  else .ok ((c.tileCols x).map (fun _ => .fin false 0 0))

/-- Read what a tile needs; a skipped block of K is not read (R123). -/
def Block.mxTileIn (b : Block) (a : Access) (c : TaskCtx) (x : MxTile) : Res MxIn :=
  match b.zeroBits a c (0, x.i2, x.i3, 0) x.m with
  | .error e => .error e
  | .ok bits =>
    let on (k : Nat) : Bool := bits.getD (k / 32) false
    match mapRes (fun i => mapRes (fun k => if on k then
        (let p := mxIndex c.desc.mxAT i k x.i2 x.i3; b.elemVal a (c.tensor 0) p.1 p.2) else .ok (.fin false 0 0)) (List.range c.mxK)) (c.tileRows x) with
    | .error e => .error e
    | .ok rows =>
      match mapRes (fun j => mapRes (fun k => if on k then
          (let p := mxIndex c.desc.mxBT j k x.i2 x.i3; b.weightAt a (c.tensor 1) p.1 p.2) else .ok []) (List.range c.mxK)) (c.tileCols x) with
      | .error e => .error e
      | .ok cols => match mapRes (fun i => b.mxInit a c x i) (c.tileRows x) with
        | .error e => .error e
        | .ok init => .ok { bits := bits, rows := rows, cols := cols, init := init }

/-- The bank entries of a tile after `limit` groups, row by row: none of a row that is not computed. -/
def tileEntries (q : Pairing) (plain : Bool) (y : MxIn) (limit : Nat) : List (List Nat) :=
  (y.rows.zip y.init).map (fun r => (y.cols.zip r.2).map (fun p => cellEntry q plain (r.1.zip p.1) limit p.2))

/-! ## The epilogue (R101-R105) -/

/-- ReLU of FP32 bits. -/
def reluF (x : Nat) : Nat :=
  match f32 x with
  | .nan => 0x7FC00000
  | v => if ltV (.fin false 0 0) v then x else 0

/-- v3 from v2 (R102). -/
def actF (act x : Nat) : Nat :=
  match act with
  | 1 => reluF x
  | 2 => let r := reluF x; mulF r r
  | 3 =>
    match f32 x with
    | .nan => 0x7FC00000
    | .inf s => if s then 0x80000000 else 0x7F800000
    | .fin _ _ _ =>
      let u := mulF (mulF x x) x
      let t := tanhF (mulF (fmaF cGelu u x) cRoot2OverPi)
      let h := mulF 0x3F000000 x
      fmaF h t h
  | 4 =>
    match f32 x with
    | .nan => 0x7FC00000
    | .inf s => if s then 0x80000000 else 0x7F800000
    | .fin _ _ _ => mulF x (rcpF (addF 0x3F800000 (exp2F (mulF (negF x) cLog2e))))
  | _ => x

/-- The value of a scale or bias vector, batched or shared (R92). -/
def Block.vectorAt (b : Block) (a : Access) (t : Tensor) (i i2 i3 : Nat) : Res Val :=
  b.elemVal a t i (0, if t.ext 2 = 1 then 0 else i2, if t.ext 3 = 1 then 0 else i3, 0)

/-- sc of an element (R101). -/
def Block.mxScale (b : Block) (a : Access) (c : TaskCtx) (i j i2 i3 : Nat) : Res Val :=
  match c.desc.mxScaleMode with
  | 1 => b.vectorAt a (c.tensor 3) i i2 i3
  | 2 => b.vectorAt a (c.tensor 3) j i2 i3
  | 3 => .ok (f32 (c.desc.pf 1 31 0))
  | _ => .ok (.fin false 1 0)

/-- b of an element (R101). -/
def Block.mxBias (b : Block) (a : Access) (c : TaskCtx) (i j i2 i3 : Nat) : Res Val :=
  match c.desc.mxBiasMode with
  | 1 => b.vectorAt a (c.tensor 4) j i2 i3
  | 2 => b.vectorAt a (c.tensor 4) i i2 i3
  | _ => .ok (.fin true 0 0)

/-- Whether a task takes the integer path (R103). -/
def TaskCtx.mxIntPath (c : TaskCtx) (q : Pairing) : Bool :=
  q.ints && [0x08, 0x09, 0x0A].contains (c.tensor 2).fmt && c.desc.mxScaleMode = 0 && c.desc.mxBiasMode = 0 && decide (c.desc.mxAct ≤ 1)

/-- v of a bank entry as FP32 bits (R85, R101). -/
def entryF (q : Pairing) (x : Nat) : Nat := if q.ints then toF32 (ofInt (sext 64 x)) else sumEnd (x % 2 ^ 32, x / 2 ^ 32)

/-- What is written of a row, from the bank entries of a tile whose first column is `j0`. A non-finite v whose v3 is finite counts as non-finite (R105). -/
def Block.mxRow (b : Block) (a : Access) (c : TaskCtx) (q : Pairing) (i j0 i2 i3 : Nat) (es : List Nat) : Res RowOut :=
  let z := c.tensor 2
  if c.mxIntPath q then .ok (convRowInt z (es.map (fun x => if c.desc.mxAct = 1 then max 0 (sext 64 x) else sext 64 x)))
  else match mapRes (fun p => match b.mxScale a c i p.2 i2 i3 with
      | .error e => .error e
      | .ok sc => match b.mxBias a c i p.2 i2 i3 with
        | .error e => .error e
        | .ok bi => .ok (entryF q p.1, actF c.desc.mxAct (toF32 (addV (mulV (f32 (entryF q p.1)) sc) bi)))) (es.zip ((List.range es.length).map (fun j => j0 + j))) with
    | .error e => .error e
    | .ok vs =>
      let o := convVals a z (i, i2, i3, 0) j0 (vs.map (fun p => f32 p.2))
      let hidden := (vs.filter (fun p => !(f32 p.1).isFinite && (f32 p.2).isFinite)).length
      .ok { o with stats := { o.stats with nf := o.stats.nf + hidden } }

/-- Whether a written element is non-zero or NaN (R105). -/
def elemSet (t : Tensor) (o : RowOut) (j : Nat) : Bool :=
  (isMx t.fmt && decide (o.scales.getD (j / 32) 0 = 0xFF)) ||
    (let x := o.codes.getD j 0
     if (intRange t.fmt).isSome then x ≠ 0 else x % 2 ^ (elemBits t.fmt - 1) ≠ 0)

/-- A row of a tensor's occupancy bitmap for written rows: its bytes (R105, R122): bits beyond the extents are 0. -/
def Block.bitmapRow (b : Block) (a : Access) (t : Tensor) (rows : List (Row × RowOut)) (k : Nat) : Res (List Host.Cell) :=
  let batch := k / cdiv (t.cap 1) 128
  let r := k % cdiv (t.cap 1) 128
  let mine := rows.filter (fun p => t.zbBatch p.1 = batch && p.1.1 / 128 = r)
  b.wrCells a t.slot (t.zbByte batch r 0) ((List.range (cdiv (t.cap 0) 256)).map (fun y =>
    BitVec.ofNat 8 (((List.range 8).map (fun x =>
      b2n (mine.any (fun p => (List.range 32).any (fun e => decide (32 * (8 * y + x) + e < t.ext 0) && elemSet t p.2 (32 * (8 * y + x) + e)))) * 2 ^ x)).sum)))

/-- The rows of a tensor's occupancy bitmap, and all of its bytes. -/
def Tensor.bitmapRows (t : Tensor) : List Nat := List.range (cdiv (t.cap 1) 128 * t.cap 2 * t.cap 3 * t.cap 4)
def Block.bitmapCells (b : Block) (a : Access) (t : Tensor) (rows : List (Row × RowOut)) : Res (List Host.Cell) :=
  concatRes (fun k => b.bitmapRow a t rows k) t.bitmapRows

/-! ## The run -/

/-- The words of a capture (R72, R76): not a post-reduction one. -/
def captureWords (step : Nat) (st : ConvStats) (empty : Bool) : List Word :=
  [step % 2 ^ 32 * 2 ^ 32 + st.maxAbs, st.nonzero, st.underflow, st.underflow5, st.nf, st.ovf, b2n empty * 4 + 1, 1].map (fun x => BitVec.ofNat 64 x)

/-- A tile that ran: its block bits and the rows it writes. -/
structure MxOut where
  tile : MxTile
  bits : List Bool
  rows : List (Row × RowOut)
deriving DecidableEq, Repr

/-- Run a tile over its whole K, with its epilogue (R81-R105). -/
def Block.mxTile (b : Block) (a : Access) (c : TaskCtx) (q : Pairing) (x : MxTile) : Res MxOut :=
  match b.mxTileIn a c x with
  | .error e => .error e
  | .ok y =>
    let es := (c.tileRows x).zip (tileEntries q c.desc.mxPlain y (cdiv c.mxK q.p))
    match mapRes (fun p => (b.mxRow a c q p.1 (128 * x.n) x.i2 x.i3 p.2).map (fun o => ((p.1, x.i2, x.i3, 0), o)))
        (es.filter (fun p => c.liveRow p.1)) with
    | .error e => .error e
    | .ok rows => .ok { tile := x, bits := y.bits, rows := rows }

/-- A task's whole run: per core by rank and group, the tiles it does not skip (R95, R96, R99). Either form of R96 makes the same tiles (R97). -/
def Block.mxRun (b : Block) (a : Access) (c : TaskCtx) (q : Pairing) : List (List (List (Res MxOut))) :=
  (List.range c.cores.length).map (fun rank => (c.mxShare rank).map (fun g => (g.filter (fun x => c.liveTile x)).map (fun x => b.mxTile a c q x)))

/-- The tiles of a run that were made, by rank. -/
def mxMade (l : List (List (List (Res MxOut)))) : List (List MxOut) := l.map (fun gs => gs.flatten.filterMap (fun r => r.toOption))

/-- The writes of one core, in tile order with ascending rows within a tile (R106). Where an operand of a tile cannot be read, a task in reordered form
has written the tiles before it; any other the groups before the tile's own, since the tiles of a group run together (R95, R96). -/
def Block.mxPieces (b : Block) (a : Access) (c : TaskCtx) (groups : List (List (Res MxOut))) : List Piece :=
  groups.foldl (fun ps g =>
    let start := ps.length
    g.foldl (fun ps r => match r with
      | .error e => ps ++ [{ out := .error e, sure := if c.mxReordered then ps.length else start }]
      | .ok o => o.rows.foldl (fun ps p => ps ++ [{ out := b.rowCellsAt a (c.tensor 2) p.1 (128 * o.tile.n) p.2, sure := ps.length }]) ps) ps) []

/-- The whole rows of a tensor that pieces of rows make, in the order of their columns. -/
def joinRows (rows : List (Row × RowOut)) : List (Row × RowOut) :=
  ((rows.map (fun p => p.1)).eraseDups).map (fun r =>
    let mine := rows.filter (fun p => p.1 = r)
    (r, { codes := (mine.map (fun p => p.2.codes)).flatten, scales := (mine.map (fun p => p.2.scales)).flatten, stats := ConvStats.zero }))

/-- Every core's writes, and C's occupancy bitmap after them (R105). -/
def Block.mxWrites (b : Block) (a : Access) (c : TaskCtx) (run : List (List (List (Res MxOut)))) : List (List Piece) :=
  let z := c.tensor 2
  let rows := joinRows ((mxMade run).flatten.flatMap (fun o => o.rows))
  run.map (fun gs => b.mxPieces a c gs) ++ [if c.desc.mxZbOut then seqPieces (z.bitmapRows.map (fun k => b.bitmapRow a z rows k)) else []]

/-- The counts of a run's conversions into C. -/
def mxStats (run : List (List (List (Res MxOut)))) : ConvStats :=
  ((mxMade run).flatten.flatMap (fun o => o.rows.map (fun p => p.2.stats))).foldl ConvStats.add ConvStats.zero

/-! ## Counters and banks (R98, R112, R113, R121, R125) -/

/-- The engines of a core. -/
def Block.core (b : Block) (n : Nat) : CoreEngines := tabGet CoreEngines.reset (b.half (halfOf (n / 40))).engines (n % 40)

/-- A block with a core's engines changed. -/
def Block.modCore (b : Block) (n : Nat) (f : CoreEngines → CoreEngines) : Block :=
  b.modHalf (halfOf (n / 40)) (fun h => { h with engines := tabSet CoreEngines.reset h.engines (n % 40) (f (b.core n)) })

/-- What a core's banks hold after a task that no rule gives the last contents of: values that are free (log entry 32). -/
def Block.clearBanks (b : Block) (n : Nat) : Block :=
  let r := b.fresh
  r.2.modCore n (fun e => { e with banks := (List.range 4).map (fun k => { BankTile.reset with fill := some (4 * r.1 + k) }) })

/-- A parity error in an entry of a bank that a task uses (R79): logged with the core and the bank, and the task ends with ST_DATA_ERROR, tier 0. -/
def Block.bankError (b : Block) (t : TaskRef) (u : BankUpset) : Block :=
  (b.log { event := 0x0021, half := t.half, kind := 1, index := 40 * halfNum t.half + u.core.val,
           arg0 := 40 * halfNum t.half + u.core.val, arg1 := u.bank.val }).fix t stDataError (tierDetail 0)

/-- A parity error that strikes a task: on one of its cores. -/
def TaskCtx.struck (c : TaskCtx) (h : HalfId) (u : Option BankUpset) : Option BankUpset :=
  u.bind (fun x => if c.cores.contains (40 * halfNum h + x.core.val) then some x else none)

/-- The blocks of K that a tile issues, by their widths. -/
def blockWidths (k : Nat) (bits : List Bool) : List Nat :=
  ((bits.zip (List.range bits.length)).filter (fun p => p.1)).map (fun p => min 32 (k - 32 * p.2))

/-- The cycles in which the array issues for a tile (R100, R119, R125). -/
def TaskCtx.tileCycles (c : TaskCtx) (q : Pairing) (bits : List Bool) : Nat :=
  ((blockWidths c.mxK bits).map (fun w => cdiv w (if c.mxSparseRate then 2 * q.p else q.p))).sum * (if q.slow then 4 else 1)

/-- The batch that a tile belongs to. -/
def TaskCtx.batchOf (c : TaskCtx) (x : MxTile) : Nat := x.i2 + (c.tensor 2).ext 2 * x.i3

/-- A tile's bank contents after `limit` groups; free ones, under the number given, where its operands cannot be read. -/
def Block.bankTile (b : Block) (a : Access) (c : TaskCtx) (q : Pairing) (x : MxTile) (limit free : Nat) : BankTile :=
  let y : BankTile := { batch := c.batchOf x, mt := x.m, nt := x.n, done := limit, rows := [], fill := none }
  match b.mxTileIn a c x with
  | .error _ => { y with fill := some free }
  | .ok i => { y with rows := tileEntries q c.desc.mxPlain i limit }

/-- The tiles of a group that hold a bank, each with its bank: tile t of the group in bank t, and in reordered form, which no rule says it of, the tiles one
after another in bank 0 (R95, R96, R99; DEDUCED, log entry 32). -/
def TaskCtx.groupBanks (c : TaskCtx) (g : List MxTile) : List (Nat × MxTile) :=
  ((g.zip (List.range g.length)).filter (fun p => c.liveTile p.1)).map (fun p => (if c.mxReordered then 0 else p.2, p.1))

/-- What a core's banks hold after a run: the last tile that each held, or what it held before. -/
def Block.lastTiles (b : Block) (a : Access) (c : TaskCtx) (q : Pairing) (rank n : Nat) : List BankTile :=
  let tiles := ((c.mxShare rank).flatMap (fun g => c.groupBanks g)).reverse
  (List.range 4).map (fun k => match tiles.find? (fun p => p.1 = k) with
    | some p => b.bankTile a c q p.2 (cdiv c.mxK q.p) (Config.freeValue b.freeCounter)
    | none => (b.core n).banks.getD k BankTile.reset)

/-- Cycles that a core's array issued and blocks that it skipped. -/
def Block.addIssued (b : Block) (n issued skipped : Nat) : Block :=
  (b.modReg (mxReg n 8) (fun w => w + BitVec.ofNat 64 issued)).modReg (mxReg n 0x30) (fun w => w + BitVec.ofNat 64 skipped)

/-- One core's counts and banks after a matrix task. -/
def Block.mxCount (b : Block) (a : Access) (c : TaskCtx) (q : Pairing) (made : List MxOut) (rank n : Nat) : Block :=
  let banks := b.lastTiles a c q rank n
  (b.addIssued n (made.map (fun o => c.tileCycles q o.bits)).sum (made.map (fun o => (o.bits.filter (fun y => !y)).length)).sum).modCore n
    (fun e => { e with banks := banks })

/-- Every granted core's counts. -/
def Block.mxCountAll (b : Block) (a : Access) (c : TaskCtx) (q : Pairing) (run : List (List (List (Res MxOut)))) : Block :=
  (c.cores.zip ((mxMade run).zip (List.range run.length))).foldl (fun x p => x.mxCount a c q p.2.1 p.2.2 p.1) b

/-- A core's counts after a run that was broken off: how far it had come, timing decides, so they are free values up to those of a whole run, and so are its
banks, whose live tiles are discarded (R108; log entry 73). -/
def Block.mxCountPart (b : Block) (c : TaskCtx) (q : Pairing) (rank n : Nat) : Block :=
  let tiles := ((c.mxShare rank).flatten.filter (fun x => c.liveTile x)).length
  let blocks := cdiv c.mxK 32
  let x := b.fresh
  let y := x.2.fresh
  (y.2.addIssued n (x.1 % (tiles * c.tileCycles q (List.replicate blocks true) + 1))
    (if (c.tensor 0).comp = 7 ∧ ¬ c.desc.mxAT then y.1 % (tiles * blocks + 1) else 0)).clearBanks n

/-- The same of every granted core. -/
def Block.mxCountParts (b : Block) (c : TaskCtx) (q : Pairing) : Block :=
  (c.cores.zip (List.range c.cores.length)).foldl (fun x p => x.mxCountPart c q p.2 p.1) b

/-- Whether an array of the task is halted (R111). -/
def Block.anyHalted (b : Block) (c : TaskCtx) : Bool := c.cores.any (fun n => (b.core n).halted)

/-- A matrix task starts (R96, R98, R99, R121): its row mask is read, and each of its cores counts it if it is in reordered form, or if it expands its 2:4 operand. -/
def Block.startMatrix (b : Block) (t : TaskRef) (g : Graph) (c : TaskCtx) : Block :=
  match b.liveRows (b.taskAccess t.half g c) c with
  | .error e => b.fixStop t e
  | .ok live => c.cores.foldl (fun x n =>
      let y := if c.mxReordered then x.count (mxReg n 0x10) 31 0 1 else x
      if c.mxExpanded then y.count (mxReg n 0x38) 31 0 1 else y) (b.modTask t (fun c => { c with rowMask := live }))

/-- Whether a matrix task has no output element (R107). -/
def TaskCtx.mxNone (c : TaskCtx) : Bool := c.mxM = 0 || c.mxN = 0 || (c.tensor 2).ext 2 * (c.tensor 2).ext 3 = 0

/-- What a matrix task ends with once its writes are made: ST_OK, or with K = 0 ST_OK_EMPTY; its statistics are captured (R105, R107). -/
def Block.mxEnd (b : Block) (t : TaskRef) (g : Graph) (c : TaskCtx) (st : ConvStats) : Block :=
  let empty := c.emptyDetail
  let words := captureWords g.step (if empty.isSome then ConvStats.zero else st) empty.isSome
  let b1 := if c.desc.mxStatEn then b.modTask t (fun c => { c with stats := [{ slot := Fin.ofNat 4096 c.desc.mxStatSlot, words := words }] }) else b
  match empty with
  | some det => b1.fix t stOkEmpty det
  | none => b1.fix t stOk 0

/-- MATRIX (R90-R108): the products, the epilogue and the writes; with no output element nothing is read or written (R107). While one of its arrays is
halted it goes no further. A parity error ends it part of the way (R79). -/
def execMatrix (t : TaskRef) (parity : Option BankUpset) (s : State) : Host.Outcome State Fault Refusal :=
  s.act (fun b => b.onRunning t 0x01 (fun g c =>
    let a := b.taskAccess t.half g c
    match pairing (c.tensor 0).fmt (c.tensor 1).fmt with
    | none => b
    | some q =>
      if b.anyHalted c then b
      else if c.mxNone then b.mxEnd t g c ConvStats.zero
      else
        let b0 := b.touch t g c
        let run := b0.mxRun a c q
        let shares := b0.mxWrites a c run
        match c.struck t.half parity with
        | some u => ((b0.landSome shares).mxCountParts c q).bankError t u
        | none =>
          let r := b0.landRun shares
          match r.2 with
          | some (.need d n) => r.1.stop t (.need d n)
          | some e => (r.1.mxCountParts c q).stop t e
          | none => ((b0.mxCountAll a c q run).landRun shares).1.mxEnd t g c (mxStats run)))

/-! ## The debug window (R110-R113) -/

/-- A change of MX_DBG_CTRL (R110, R441 KIND 0x06): with DIAG_ACCESS set alone. OLD, NEW and DETAIL are open (log entry 25). -/
def Block.debugAnswer (b : Block) (a : Actor) (n : Nat) (f : Block → Block) : Answer :=
  if ¬ b.image.diagAccess then b.refuseRole 3 a.keyId
  else b.auditedAnswer a { kind := 0x06, target := mxReg n 0x18, old := Config.auditOpen 6 1, new := Config.auditOpen 6 2, detail := Config.auditOpen 6 3 } f

/-- A change of MX_DBG_CTRL, which is the maker's alone (R110). -/
def Block.debugWrite (b0 : Block) (p : Path) (n : Nat) (f : Block → Block) : Block := b0.byPath p [3] 3 (fun a b => b.debugAnswer a n f)

/-- HALT (R111): the array is to stop at the next group boundary. -/
def Block.requestHalt (b : Block) (n : Nat) : Block := b.modCore n (fun e => { e with haltRequested := true })

/-- DBG_HALT (R111): the array is to stop at the next group boundary. -/
def execDbgHalt (p : Path) (core : Fin 80) (s : State) : Host.Outcome State Fault Refusal :=
  s.act (fun b => b.debugWrite p core.val (fun b => b.requestHalt core.val))

/-- The matrix task that holds a core's array. -/
def Block.matrixOn (b : Block) (n : Nat) : Option (TaskRef × Graph × TaskCtx) :=
  (b.tasksOf (halfOf (n / 40))).find? (fun p => p.2.2.desc.type = 0x01 && p.2.2.phase = .running && p.2.2.cores.contains n)

/-- K groups of one 64 KiB panel: 512 bytes of K (R88). The stager's copies in Cove are not held: no rule lets anything see them (log entry 72). -/
def panelGroups (fmt p : Nat) : Nat := 4096 / elemBits fmt / p

/-- The live tiles of a halted array, each with its bank and the groups it has added (R88, R95): of the tiles that the group runs, tile `j` is in progress at group
`g`; in reordered form it stands alone, and else the tiles before it have finished its panel and those after it have not begun it. A panel's K length is taken from
A's FORMAT (DESIGN CHOICE, log entry 71). -/
def haltedTiles (c : TaskCtx) (q : Pairing) (group : List (Nat × MxTile)) (j g : Nat) : List (Nat × MxTile × Nat) :=
  let total := cdiv c.mxK q.p
  let pg := panelGroups (c.tensor 0).fmt q.p
  let start := g / pg * pg
  (group.zip (List.range group.length)).filterMap (fun p =>
    if p.2 = j then some (p.1.1, p.1.2, min g total)
    else if c.mxReordered then none
    else if p.2 < j then some (p.1.1, p.1.2, min (start + pg) total)
    else if start = 0 then none
    else some (p.1.1, p.1.2, start))

/-- MX_DBG_BANK of a bank (R113). -/
def bankWord : Option BankTile → Nat
  | none => 0
  | some x => 2 ^ 63 + x.batch % 65536 * 2 ^ 47 + x.mt % 2048 * 2 ^ 36 + x.nt % 2048 * 2 ^ 25 + x.done % 2 ^ 18

/-- The live banks of an array that stops at a point of its matrix task: `at_.tile` counts the tiles that its core runs. -/
def Block.haltBanks (b : Block) (t : TaskRef × Graph × TaskCtx) (n : Nat) (at_ : HaltPoint) (free : Nat) : List (Option BankTile) :=
  let c := t.2.2
  let a := b.taskAccess t.1.half t.2.1 c
  match pairing (c.tensor 0).fmt (c.tensor 1).fmt with
  | none => [none, none, none, none]
  | some q =>
    let rank := (c.cores.filter (fun m => decide (m < n))).length
    let groups := (c.mxShare rank).map (fun g => c.groupBanks g)
    let before (i : Nat) : Nat := ((groups.take i).map (fun g => g.length)).sum
    match (List.range groups.length).find? (fun i => decide (before i ≤ at_.tile) && decide (at_.tile < before (i + 1))) with
    | none => [none, none, none, none]
    | some i =>
      let tiles := haltedTiles c q (groups.getD i []) (at_.tile - before i) at_.group
      (List.range 4).map (fun k => (tiles.find? (fun p => p.1 = k)).map (fun p => b.bankTile a c q p.2.1 p.2.2 (4 * free + k)))

/-- DBG_HALT_REACHED (R111, R113): the array stands halted, its live banks and the next group of its tile in view. -/
def execDbgHaltReached (core : Fin 80) (at_ : HaltPoint) (s : State) : Host.Outcome State Fault Refusal :=
  s.act (fun b =>
    let n := core.val
    let e := b.core n
    if ¬ e.haltRequested ∨ e.halted then b
    else
      let r := b.fresh
      let live := match b.matrixOn n with
        | some t => b.haltBanks t n at_ r.1
        | none => [none, none, none, none]
      let ix := live.zip (List.range 4)
      let b1 := r.2.modCore n (fun e => { e with haltRequested := false, halted := true, haltTide := b.tide (halfOf (n / 40)),
                                                 banks := (live.zip e.banks).map (fun p => p.1.getD p.2) })
      let b2 := ix.foldl (fun x p => x.setReg (mxReg n (0x40 + 8 * p.2)) (BitVec.ofNat 64 (bankWord p.1))) b1
      b2.setReg (mxReg n 0x20) (BitVec.ofNat 64 (2 ^ 32 + (ix.map (fun p => b2n p.1.isSome * 2 ^ (28 + p.2))).sum +
        (if (b.matrixOn n).isSome then at_.group % 2 ^ 18 else 0))))

/-- A halted array runs again: the cycles since it halted are counted, and no bank is shown live (R111, R113). -/
def Block.unhalt (b : Block) (n : Nat) : Block :=
  if (b.core n).halted then
    let cycles := cyclesOf (b.tide (halfOf (n / 40)) - (b.core n).haltTide)
    let b1 := (b.modCore n (fun e => { e with haltRequested := false, halted := false })).modReg (mxReg n 0x28) (fun w => w + BitVec.ofNat 64 cycles)
    (List.range 4).foldl (fun x q => x.setReg (mxReg n (0x40 + 8 * q)) 0) (b1.setReg (mxReg n 0x20) 0)
  else b.modCore n (fun e => { e with haltRequested := false })

/-- DBG_RESUME (R111). -/
def execDbgResume (p : Path) (core : Fin 80) (s : State) : Host.Outcome State Fault Refusal :=
  s.act (fun b => b.debugWrite p core.val (fun b => b.unhalt core.val))

end Sys2Proof.Machine
end

