-- ==== Sys2Proof/Machine/VecOps.lean ====
section
/-! DEFINITION. The vector engine's operations on lanes (spec/06_vector_engine_and_attention.md R142, R146-R150). A lane is the bits of one
element in the type that its register was written in. -/

namespace Sys2Proof.Machine

/-! ## Instructions (R146) -/

/-- OPCODE of an instruction word. -/
def vecOpcode (w : Word) : Nat := fld w 63 56

/-- The fields of an instruction word. -/
def vecFields (w : Word) : VecFields :=
  { etype := fld w 55 52, dst := Fin.ofNat 32 (fld w 51 47), srcA := Fin.ofNat 32 (fld w 46 42), srcB := Fin.ofNat 32 (fld w 41 37),
    srcC := Fin.ofNat 32 (fld w 36 32), imm := BitVec.ofNat 32 w.toNat }

/-- IMM as a number. -/
def immN (f : VecFields) : Nat := f.imm.toNat

/-! ## Types (R146) -/

/-- Bytes of an ETYPE. -/
def eWidth : Nat → Nat
  | 0 => 4
  | 1 => 2
  | 2 => 2
  | 3 => 1
  | 4 => 4
  | 5 => 8
  | 6 => 1
  | _ => 2

/-- The float format of an ETYPE. -/
def eFloat : Nat → Option FloatFmt
  | 0 => some fmtF32
  | 1 => some fmtBF16
  | 2 => some fmtF16
  | _ => none

/-- Whether an integer ETYPE is signed. -/
def eSigned (e : Nat) : Bool := decide (3 ≤ e) && decide (e ≤ 5)

/-- The range of an integer ETYPE. -/
def eRange (e : Nat) : Int × Int :=
  let n := 8 * eWidth e
  if eSigned e then (-2 ^ (n - 1), 2 ^ (n - 1) - 1) else (0, 2 ^ n - 1)

/-- The integer that a lane of an integer ETYPE holds. -/
def laneInt (e x : Nat) : Int := if eSigned e then sext (8 * eWidth e) x else ((x % 2 ^ (8 * eWidth e) : Nat) : Int)

/-- The value that a lane holds. -/
def laneVal (e x : Nat) : Val :=
  match eFloat e with
  | some f => decodeF f x
  | none => ofInt (laneInt e x)

/-- A value converted into a lane (R64, R65, R67): nearest even. An integer saturates, and so does a float where `sat` says so. -/
def laneCvt (sat : Bool) (e : Nat) (v : Val) : Nat :=
  match eFloat e with
  | some f => (toPlain f sat .nearest v).1
  | none => twos (8 * eWidth e) (toIntSat (eRange e).1 (eRange e).2 v).1

/-- The result of an operation as a lane: a float overflows to an infinity (R148). -/
def laneOf (e : Nat) (v : Val) : Nat := laneCvt false e v

/-- Whether an ETYPE holds every value of a plain FORMAT or of an MX or W16 one, as FP32 alone does (R144). -/
def eHolds (e fmt : Nat) : Bool := e = 0 || (e = 1 && fmt = 0x01) || (e = 2 && fmt = 0x02)

/-! ## Operations (R147-R150) -/

/-- A float operation of two values: exact, then rounded once (R148). -/
def lane2 (op : Val → Val → Val) (e x y : Nat) : Nat := laneOf e (op (laneVal e x) (laneVal e y))

/-- A float operation of one value. -/
def lane1 (op : Val → Val) (e x : Nat) : Nat := laneOf e (op (laneVal e x))

/-- A transcendental: correctly rounded in FP32, and once more to a narrower ETYPE (R150). -/
def laneT (op : Nat → Nat) (e x : Nat) : Nat := laneOf e (f32 (op (toF32 (laneVal e x))))

/-- An integer operation: wrapped, or saturated (R149). -/
def laneI (op : Int → Int → Int) (sat : Bool) (e x y : Nat) : Nat :=
  let n := op (laneInt e x) (laneInt e y)
  twos (8 * eWidth e) (if sat then max (eRange e).1 (min (eRange e).2 n) else n)

/-- Shifts, by B modulo the width (R147, R149). -/
def laneShl (e x y : Nat) : Nat := (x <<< (y % (8 * eWidth e))) % 2 ^ (8 * eWidth e)
def laneShr (e x y : Nat) : Nat := (x % 2 ^ (8 * eWidth e)) >>> (y % (8 * eWidth e))
def laneSra (e x y : Nat) : Nat := twos (8 * eWidth e) (sext (8 * eWidth e) x / (2 : Int) ^ (y % (8 * eWidth e)))

/-- CMP of two values: 0 EQ, 1 LT, 2 LE, 3 NE, 4 unordered. -/
def cmpV (code : Nat) (x y : Val) : Bool :=
  match code with
  | 0 => eqV x y
  | 1 => ltV x y
  | 2 => ltV x y || eqV x y
  | 3 => !(eqV x y)
  | _ => decide (x = .nan) || decide (y = .nan)

/-- LDI's lane. -/
def laneImm (e imm : Nat) : Nat :=
  match eFloat e with
  | some _ => laneOf e (f32 imm)
  | none => twos (8 * eWidth e) (sext 32 imm)

/-- The lane that a register operation writes, from the lanes of A, B and C. -/
def laneOp (op e imm x y z : Nat) : Nat :=
  match op with
  | 0x10 => lane2 addV e x y
  | 0x11 => lane2 (fun v w => addV v (negV w)) e x y
  | 0x12 => lane2 mulV e x y
  | 0x13 => laneOf e (addV (mulV (laneVal e x) (laneVal e y)) (laneVal e z))
  | 0x14 => lane2 maxV e x y
  | 0x15 => lane2 minV e x y
  | 0x16 => lane1 absV e x
  | 0x17 => lane1 negV e x
  | 0x18 => lane2 divV e x y
  | 0x19 => lane1 sqrtV e x
  | 0x1A => b2n (cmpV imm (laneVal e x) (laneVal e y))
  | 0x1B => if z % 2 ^ 32 ≠ 0 then x else y
  | 0x20 => laneT exp2F e x
  | 0x21 => laneT log2F e x
  | 0x22 => laneT rcpF e x
  | 0x23 => laneT rsqrtF e x
  | 0x24 => laneT tanhF e x
  | 0x30 => laneI (fun a b => a + b) (imm % 2 = 1) e x y
  | 0x31 => laneI (fun a b => a - b) (imm % 2 = 1) e x y
  | 0x32 => laneI (fun a b => a * b) (imm % 2 = 1) e x y
  | 0x33 => laneI (fun a b => max a b) false e x y
  | 0x34 => laneI (fun a b => min a b) false e x y
  | 0x35 => laneShl e x y
  | 0x36 => laneShr e x y
  | 0x37 => laneSra e x y
  | 0x38 => x &&& y
  | 0x39 => x ||| y
  | 0x3A => x ^^^ y
  | 0x3B => 2 ^ (8 * eWidth e) - 1 - x % 2 ^ (8 * eWidth e)
  | 0x3C => b2n (cmpV imm (laneVal e x) (laneVal e y))
  | 0x40 => laneCvt (decide (e ≠ 0 ∧ imm % 16 ≠ e)) e (laneVal (imm % 16) x)
  | _ => 0

/-! ## What an opcode takes (R142, R147) -/

/-- The ETYPEs an opcode lists; none outside the table. -/
def opTypes (op : Nat) : Option (List Nat) :=
  if op = 0x01 ∨ op = 0x02 ∨ op = 0x03 ∨ op = 0x1B ∨ op = 0x40 ∨ (0x50 ≤ op ∧ op ≤ 0x54) then some [0, 1, 2, 3, 4, 5, 6, 7]
  else if op = 0x04 then some [4]
  else if (0x10 ≤ op ∧ op ≤ 0x1A) ∨ (0x20 ≤ op ∧ op ≤ 0x24) then some [0, 1, 2]
  else if 0x30 ≤ op ∧ op ≤ 0x3C then some [3, 4, 5, 6, 7]
  else none

/-- Whether an opcode is a reduction. -/
def isRed (op : Nat) : Bool := decide (0x50 ≤ op) && decide (op ≤ 0x54)

/-- How many of A, B and C an opcode reads. -/
def opReads (op : Nat) : Nat :=
  if op = 0x01 ∨ op = 0x03 ∨ op = 0x04 then 0
  else if op = 0x13 ∨ op = 0x1B then 3
  else if op = 0x02 ∨ op = 0x16 ∨ op = 0x17 ∨ op = 0x19 ∨ (0x20 ≤ op ∧ op ≤ 0x24) ∨ op = 0x3B ∨ op = 0x40 ∨ isRed op then 1
  else 2

/-- The type that an opcode reads source `i` (0 A, 1 B, 2 C) as. -/
def srcType (op : Nat) (f : VecFields) (i : Nat) : Nat :=
  if op = 0x40 then immN f % 16 else if op = 0x1B ∧ i = 2 then 4 else f.etype

/-- The type that an opcode writes. -/
def dstType (op : Nat) (f : VecFields) : Nat :=
  if op = 0x1A ∨ op = 0x3C ∨ op = 0x04 then 4 else if isRed op then 0 else f.etype

/-- The cycles that an instruction takes on `n` lanes (R142). -/
def opCycles (op n : Nat) : Nat := if op = 0x18 ∨ op = 0x19 ∨ (0x20 ≤ op ∧ op ≤ 0x24) then cdiv n 64 else 1

/-! ## Reductions (R152-R154) -/

/-- The operation of a reduction: 0 a sum, 1 a maximum, 2 a minimum, 3 a mean. -/
def redKind (op : Nat) : Nat := if op = 0x50 then 0 else if op = 0x51 then 1 else if op = 0x52 then 2 else 3

/-- The identity of a reduction. -/
def redIdentity (k : Nat) : Nat := if k = 1 then 0xFF800000 else if k = 2 then 0x7F800000 else 0

/-- One step of a reduction's tree. -/
def redCombine (k x y : Nat) : Nat := if k = 1 then maxF x y else if k = 2 then minF x y else addF x y

/-- One level of a tree. -/
def treeLevel (k : Nat) : List Nat → List Nat
  | x :: y :: l => redCombine k x y :: treeLevel k l
  | [x] => [x]
  | [] => []

/-- `n` levels of a tree. -/
def treeLevels (k : Nat) : Nat → List Nat → List Nat
  | 0, l => l
  | n + 1, l => treeLevels k n (treeLevel k l)

/-- The 8-level tree over up to 256 values, tail positions the identity (R153). -/
def tree256 (k : Nat) (xs : List Nat) : Nat :=
  (treeLevels k 8 (xs ++ List.replicate (256 - xs.length) (redIdentity k))).headD (redIdentity k)

/-- One value or tree result enters an accumulator (R153, R154). -/
def redStep (k : Nat) (plain : Bool) (sc : Nat × Nat) (x : Nat) : Nat × Nat :=
  if k = 1 ∨ k = 2 then (redCombine k sc.1 x, 0) else sumStep plain sc x

/-- The result of a reduction of `n` elements (R153, R154): a sum is s - c, a mean is divided once by the count. -/
def redEnd (k n : Nat) (sc : Nat × Nat) : Nat :=
  if k = 1 ∨ k = 2 then sc.1
  else if k = 3 ∧ n ≠ 0 then toF32 (divV (f32 (sumEnd sc)) (ofInt n)) else sumEnd sc

end Sys2Proof.Machine
end

