-- ==== Sys2Proof/Machine/Vector.lean ====
section
/-! DEFINITION. Vector programs (spec/06_vector_engine_and_attention.md R142-R154): check 1, the strips and groups of a core, one
instruction on a strip, and the whole task. -/

namespace Sys2Proof.Machine

/-! ## PARAMS (R143) -/

def TaskDesc.vxStatSlot (d : TaskDesc) : Nat := d.pf 0 59 48
def TaskDesc.vxStatEn (d : TaskDesc) : Bool := d.pf 0 35 35 = 1
def TaskDesc.vxStatOp (d : TaskDesc) : Nat := d.pf 0 34 32
def TaskDesc.vxPlain (d : TaskDesc) : Bool := d.pf 0 31 31 = 1
def TaskDesc.vxRdim (d : TaskDesc) : Nat := d.pf 1 63 59
def TaskDesc.vxShape (d : TaskDesc) : Nat := d.pf 1 58 56
def TaskDesc.vxCount (d : TaskDesc) : Nat := d.pf 1 51 45
def TaskDesc.vxProg (d : TaskDesc) : Nat := d.pf 1 44 0 * 8

/-! ## The program (R142, R146, R147, R152) -/

/-- The instructions up to and including the reduction, or all of them. -/
def vecPre (prog : List Word) : List Word :=
  match prog.findIdx? (fun w => isRed (vecOpcode w)) with
  | some i => prog.take (i + 1)
  | none => prog

/-- The instructions after the reduction. -/
def vecPost (prog : List Word) : List Word :=
  match prog.findIdx? (fun w => isRed (vecOpcode w)) with
  | some i => prog.drop (i + 1)
  | none => []

/-- The reduction of a program. -/
def vecRed (prog : List Word) : Option Word := prog.find? (fun w => isRed (vecOpcode w))

/-- L: 1,024 divided by the largest element size of any type the program names (R142). -/
def vecLen (prog : List Word) : Nat :=
  1024 / (prog.map (fun w => max (eWidth (vecFields w).etype) (if vecOpcode w = 0x40 then eWidth (immN (vecFields w) % 16) else 1))).foldl max 1

/-- A field of instruction `j` at byte `off` (R492). -/
def offInstr (j off : Nat) : Nat := r492 (8 * j + off) 2 104

/-- The sources an instruction reads: register, type and the byte of its field. -/
def vecSources (op : Nat) (f : VecFields) : List (Nat × Nat × Nat) :=
  [(f.srcA.val, srcType op f 0, 5), (f.srcB.val, srcType op f 1, 4), (f.srcC.val, srcType op f 2, 4)].take (opReads op)

/-- Check 1 on one instruction, given the width last written to each register (R142, R147). -/
def instrFault (c : TaskCtx) (j : Nat) (w : Word) (widths : Tab Nat) : Option Nat :=
  let op := vecOpcode w
  let f := vecFields w
  let n := immN f
  match opTypes op with
  | none => some (offInstr j 7)
  | some l => firstFault [
    faultIf (!(l.contains f.etype)) (offInstr j 6),
    faultIf ((op = 0x01 || op = 0x02) && !(c.desc.uses (n % 8))) (offInstr j 0),
    faultIf (op = 0x02 && c.desc.role (n % 8) = 0) (offInstr j 0),
    faultIf (op = 0x1A && decide (4 < n)) (offInstr j 0), faultIf (op = 0x3C && decide (3 < n)) (offInstr j 0),
    faultIf (op = 0x04 && decide (4 < n % 8)) (offInstr j 0), faultIf (op = 0x40 && decide (8 ≤ n % 16)) (offInstr j 0),
    (vecSources op f).findSome? (fun s => match tabFind widths s.1 with
      | some x => if x ≠ eWidth s.2.1 then some (offInstr j s.2.2) else none
      | none => none) ]

/-- Check 1 on the instructions in order. After the reduction only its destination is a written register (R152; DEDUCED, log entry 35). -/
def programFault (c : TaskCtx) : List Word → Nat → Tab Nat → Option Nat
  | [], _, _ => none
  | w :: ws, j, widths =>
    match instrFault c j w widths with
    | some x => some x
    | none =>
      let op := vecOpcode w
      let f := vecFields w
      programFault c ws (j + 1)
        (if op = 0x02 then widths else if isRed op then [(f.dst.val, 4)] else tabPut widths f.dst.val (eWidth (dstType op f)))

/-! ## The iteration space (R145, R152) -/

/-- The extents of the iteration space. -/
def TaskCtx.vxExt (c : TaskCtx) (d : Nat) : Nat := (c.tensor c.desc.vxShape).ext d

/-- The extents of the reduced results. -/
def TaskCtx.vxOutExt (c : TaskCtx) (d : Nat) : Nat := if bit c.desc.vxRdim d then 1 else c.vxExt d

/-- The extents that a store must match, after the reduction or not. -/
def TaskCtx.vxStoreExt (c : TaskCtx) (after : Bool) (d : Nat) : Nat := if after then c.vxOutExt d else c.vxExt d

/-- The extents of the slots the task uses, against the iteration space (R145). -/
def extentFault (c : TaskCtx) : Option Nat :=
  c.desc.used.findSome? (fun s => (List.range 5).findSome? (fun d =>
    let t := c.tensor s
    if t.ext d ≠ c.vxExt d ∧ t.ext d ≠ 1 then some (offTensor (max s c.desc.vxShape) (tOffCap d)) else none))

/-- The extents of the slots that the program stores into (R145, R152). -/
def storeFault (c : TaskCtx) (prog : List Word) : Option Nat :=
  let stores (l : List Word) (after : Bool) : Option Nat :=
    (l.filter (fun w => vecOpcode w = 0x02)).findSome? (fun w =>
      let s := immN (vecFields w) % 8
      (List.range 5).findSome? (fun d =>
        if (c.tensor s).ext d ≠ c.vxStoreExt after d then some (offTensor (max s c.desc.vxShape) (tOffCap d)) else none))
  firstFault [stores (vecPre prog) false, stores (vecPost prog) true]

/-- Check 1 of a vector program (R143-R147, R152, R154, R175). -/
def vectorCheck (c : TaskCtx) (prog : List Word) : Option Nat :=
  let d := c.desc
  let reds := prog.filter (fun w => isRed (vecOpcode w))
  firstFault [
    faultIf (d.banks ≠ 0) offBanks, faultIf (decide (d.coveUnits < 4)) offCove,
    faultIf (d.vxCount = 0 || decide (64 < d.vxCount)) 109, faultIf (!(d.uses d.vxShape)) 111,
    d.used.findSome? (fun s =>
      let t := c.tensor s
      firstFault [
        faultIf (t.fmt = 0x1F && d.role s = 0) (offTensor s tOffFormat),
        compIn t (if d.role s = 0 then [0, 2, 3, 4, 5, 6, 7] else if d.role s = 1 then [0, 1, 7] else [0, 7]), compFormat t ]),
    programFault c prog 0 [],
    faultIf (decide (1 < reds.length)) (offInstr (prog.length - 1 - (prog.reverse.findIdx (fun w => isRed (vecOpcode w)))) 7),
    faultIf (reds.isEmpty != (d.vxRdim = 0)) 111,
    faultIf (reds.any (fun w => vecOpcode w = 0x54) && d.vxRdim ≠ 0b00110) 111,
    extentFault c, storeFault c prog ]

/-- A linear index's coordinates along five extents, dimension 0 first. -/
def coordsOf (e : Nat → Nat) (i : Nat) : Nat × Row :=
  (i % e 0, (i / e 0 % e 1, i / (e 0 * e 1) % e 2, i / (e 0 * e 1 * e 2) % e 3, i / (e 0 * e 1 * e 2 * e 3)))

/-- The linear index of coordinates. -/
def linearOf (e : Nat → Nat) (i0 : Nat) (r : Row) : Nat := i0 + e 0 * (r.1 + e 1 * (r.2.1 + e 2 * (r.2.2.1 + e 3 * r.2.2.2)))

/-- The count of rows, of results, and of elements each reduces. -/
def TaskCtx.vxRows (c : TaskCtx) : Nat := c.vxExt 1 * c.vxExt 2 * c.vxExt 3 * c.vxExt 4
def TaskCtx.vxOuts (c : TaskCtx) : Nat := c.vxOutExt 0 * c.vxOutExt 1 * c.vxOutExt 2 * c.vxOutExt 3 * c.vxOutExt 4
def TaskCtx.vxReduced (c : TaskCtx) : Nat :=
  ((List.range 5).map (fun d => if bit c.desc.vxRdim d then c.vxExt d else 1)).foldl (fun x y => x * y) 1

/-- The result that an element enters. -/
def TaskCtx.vxOutOf (c : TaskCtx) (i0 : Nat) (r : Row) : Nat :=
  let z (d x : Nat) : Nat := if bit c.desc.vxRdim d then 0 else x
  linearOf c.vxOutExt (z 0 i0) (z 1 r.1, z 2 r.2.1, z 3 r.2.2.1, z 4 r.2.2.2)

/-! ## Strips and groups (R142, R145, R152) -/

/-- What a core's program runs on: a strip of a row, or a group of reduced results. -/
inductive VecUnit where
  | strip (i0 : Nat) (r : Row)
  | group (first n : Nat)
deriving DecidableEq, Repr

/-- Whether the work is shared out by output element: a reduction that includes dimension 1 or higher. -/
def TaskCtx.vxByOut (c : TaskCtx) : Bool := decide (2 ≤ c.desc.vxRdim)

/-- Whether the core of a rank computes an element. -/
def TaskCtx.vxOwns (c : TaskCtx) (rank i0 : Nat) (r : Row) : Bool :=
  if c.vxByOut then coreOf c.vxOuts c.cores.length (c.vxOutOf i0 r) = rank
  else coreOf c.vxRows c.cores.length (linearOf c.vxExt 0 r / c.vxExt 0) = rank

/-- The strips of a row. -/
def TaskCtx.vxStrips (c : TaskCtx) : List (Nat × Row) :=
  let n := vecLen c.prog
  (List.range c.vxRows).flatMap (fun i =>
    let r := (coordsOf c.vxExt (i * c.vxExt 0)).2
    (List.range (cdiv (c.vxExt 0) n)).map (fun j => (j * n, r)))

/-- The strips, then the groups, of the core of a rank, in order. -/
def TaskCtx.vxUnits (c : TaskCtx) (rank : Nat) : List VecUnit :=
  let n := vecLen c.prog
  let strips := (c.vxStrips.filter (fun p => (List.range n).any (fun j => decide (p.1 + j < c.vxExt 0) && c.vxOwns rank (p.1 + j) p.2))).map
    (fun p => VecUnit.strip p.1 p.2)
  let mine := if (vecPost c.prog).isEmpty then [] else (List.range c.vxOuts).filter (fun e => coreOf c.vxOuts c.cores.length e = rank)
  strips ++ (chunks 256 (mine.length + 1) mine).map (fun g => VecUnit.group (g.headD 0) g.length)

/-- The lanes of a unit: each element's coordinates, and whether the lane holds one. -/
def TaskCtx.vxLanes (c : TaskCtx) : VecUnit → List (Nat × Row × Bool)
  | .strip i0 r => (List.range (vecLen c.prog)).map (fun j => (i0 + j, r, decide (i0 + j < c.vxExt 0)))
  | .group first n => (List.range 256).map (fun j => let p := coordsOf c.vxOutExt (first + j); (p.1, p.2, decide (j < n)))

/-- The instructions that run on a unit. -/
def vecSegment (prog : List Word) : VecUnit → List Word
  | .strip _ _ => vecPre prog
  | .group _ _ => vecPost prog

/-- The identity of a program's reduction, and its operation. -/
def vecKind (prog : List Word) : Nat := match vecRed prog with
  | some w => redKind (vecOpcode w)
  | none => 0

/-- A result, from the sums of its core. -/
def TaskCtx.vxResult (c : TaskCtx) (v : VecCore) (e : Nat) : Nat :=
  redEnd (vecKind c.prog) c.vxReduced ((tabFind v.acc e).getD (redIdentity (vecKind c.prog), 0))

/-- The registers at the start of a unit: all-zero bits, but a reduction's results (R142, R152). -/
def TaskCtx.vxStart (c : TaskCtx) (v : VecCore) : VecUnit → Tab VecReg
  | .strip _ _ => []
  | .group first n => match vecRed c.prog with
    | none => []
    | some w => [((vecFields w).dst.val,
        { etype := 0, lanes := (List.range 256).map (fun j => if j < n then c.vxResult v (first + j) else 0) })]

/-! ## One instruction (R147-R153) -/

/-- Where a core stands: its task, its rank, the unit, and the instruction next. -/
structure VecPlace where
  t : TaskRef
  g : Graph
  c : TaskCtx
  v : VecCore
  rank : Nat
  unit : VecUnit
  word : Word
deriving DecidableEq, Repr

/-- The rank of a core among those a task holds (R95). -/
def TaskCtx.rankOf (c : TaskCtx) (n : Nat) : Nat := (c.cores.filter (fun m => decide (m < n))).length

/-- The vector program that runs on a core's engine. -/
def Block.programOn (b : Block) (n : Nat) : Option (TaskRef × Graph × TaskCtx) :=
  (b.tasksOf (halfOf (n / 40))).find? (fun p =>
    p.2.2.phase = .running && p.2.2.desc.type = 0x02 && p.2.2.desc.pf 0 63 60 = 0 && p.2.2.cores.contains n)

/-- Where a core's vector engine stands; none when it has nothing left to run. -/
def Block.vecPlace (b : Block) (n : Nat) : Option VecPlace :=
  match b.programOn n with
  | none => none
  | some p =>
    let c := p.2.2
    let v := (b.core n).vec
    let rank := c.rankOf n
    match (c.vxUnits rank)[v.unit]? with
    | none => none
    | some u => ((vecSegment c.prog u)[v.pc]?).map (fun w => { t := p.1, g := p.2.1, c := c, v := v, rank := rank, unit := u, word := w })

/-- What an instruction does to its core and its task. -/
structure VecEffect where
  regs : Tab VecReg
  acc : Tab (Nat × Nat)
  piece : List Nat
  lanes : Tab Val
  cells : List Host.Cell
  counts : ConvStats
deriving DecidableEq, Repr

/-- The effect of an instruction that does nothing yet. -/
def VecPlace.idle (p : VecPlace) : VecEffect :=
  { regs := p.v.regs, acc := p.v.acc, piece := p.v.piece, lanes := p.c.lanes, cells := [], counts := p.c.counts }

/-- A register's lanes: all-zero bits if the program has not written it (R142). -/
def VecPlace.read (p : VecPlace) (r : Nat) : List Nat :=
  match tabFind p.v.regs r with
  | some x => x.lanes
  | none => (p.c.vxLanes p.unit).map (fun _ => 0)

/-- The effect of writing a register. -/
def VecPlace.write (p : VecPlace) (r e : Nat) (lanes : List Nat) : VecEffect :=
  { p.idle with regs := tabPut p.v.regs r { etype := e, lanes := lanes } }

/-- The coordinates of a lane in an operand: extent 1 broadcasts (R145). -/
def Tensor.laneIn (t : Tensor) (i0 : Nat) (r : Row) : Nat × Row :=
  let z (d x : Nat) : Nat := if t.ext d = 1 then 0 else x
  (z 0 i0, (z 1 r.1, z 2 r.2.1, z 3 r.2.2.1, z 4 r.2.2.2))

/-- LD: each lane of the slot, brought to ETYPE: widened, or converted nearest even and saturating (R144). A capturing task counts what the widening of an MX
or W16 element meets (R63, R64, R66), once for each lane that holds an element, on the core that computes it (DESIGN CHOICE, log entry 74). -/
def VecPlace.load (p : VecPlace) (b : Block) (f : VecFields) : Res VecEffect :=
  let t := p.c.tensor (immN f % 8)
  let a := b.taskAccess p.t.half p.g p.c
  match mapRes (fun l => if l.2.2 then (let q := t.laneIn l.1 l.2.1; b.elemVal a t q.1 q.2) else .ok (.fin false 0 0)) (p.c.vxLanes p.unit) with
  | .error e => .error e
  | .ok vs =>
    let mine (l : Nat × Row × Bool) : Bool := l.2.2 && (match p.unit with
      | .strip _ _ => p.c.vxOwns p.rank l.1 l.2.1
      | .group _ _ => true)
    let met := (((p.c.vxLanes p.unit).zip vs).filter (fun l => mine l.1)).map (fun l => widenCount t.fmt l.2)
    let x := p.write f.dst.val f.etype (vs.map (fun v => laneCvt (!(eHolds f.etype t.fmt)) f.etype (t.widen v)))
    .ok (if p.c.desc.vxStatEn then { x with counts := met.foldl ConvStats.add x.counts } else x)

/-- The key of a stored lane that waits for its block. -/
def laneKey (t : Tensor) (i0 : Nat) (r : Row) : Nat := t.slot * 2 ^ 120 + linearOf t.ext 0 r / t.ext 0 * 2 ^ 20 + i0

/-- One block of 64 lanes, if every lane of it is there. -/
def Block.storeBlock (b : Block) (a : Access) (t : Tensor) (lanes : Tab Val) (r : Row) (i0 : Nat) : Res (Option Stored) :=
  let vs := ((List.range 64).filter (fun j => decide (i0 + j < t.ext 0))).map (fun j => tabFind lanes (laneKey t (i0 + j) r))
  if vs.any (fun v => v.isNone) then .ok none
  else
    let vs := vs.map (fun v => v.getD (.fin false 0 0))
    if t.comp = 1 then (b.sparseCells a t r i0 vs).map some
    else
      let o := convVals a t r i0 vs
      (b.rowCellsAt a t r i0 o).map (fun cs => some { cells := cs, stats := o.stats })

/-- ST: the lanes that hold an element go to the slot; each block of 64 along dimension 0 lands once all its lanes are there (R151, R64-R68,
R118), and the stores into STAT_OPSLOT are counted. Of the cores that run one strip, the one that computes its first element stores. -/
def VecPlace.store (p : VecPlace) (b : Block) (f : VecFields) : Res VecEffect :=
  let s := immN f % 8
  let t := p.c.tensor s
  let a := b.taskAccess p.t.half p.g p.c
  let mine := match p.unit with
    | .strip i0 r => p.c.vxOwns p.rank i0 r
    | .group _ _ => true
  if mine = false then .ok p.idle
  else
    let ls := (((p.c.vxLanes p.unit).zip (p.read f.srcA.val)).filter (fun l => l.1.2.2)).map (fun l => (t.laneIn l.1.1 l.1.2.1, laneVal f.etype l.2))
    let lanes := ls.foldl (fun m l => tabPut m (laneKey t l.1.1 l.1.2) l.2) p.c.lanes
    let blocks := (ls.map (fun l => (l.1.2, l.1.1 / 64 * 64))).eraseDups
    match mapRes (fun k => (b.storeBlock a t lanes k.1 k.2).map (fun x => (k, x))) blocks with
    | .error e => .error e
    | .ok xs =>
      let st := Stored.join (xs.filterMap (fun x => x.2))
      let full := (xs.filter (fun x => x.2.isSome)).map (fun x => x.1)
      let left := full.foldl (fun m k => (List.range 64).foldl (fun m j => tabDel m (laneKey t (k.2 + j) k.1)) m) lanes
      .ok { p.idle with lanes := left, cells := st.cells,
                        counts := if p.c.desc.vxStatEn && s = p.c.desc.vxStatOp then p.c.counts.add st.stats else p.c.counts }

/-- Values enter the accumulator of a result, one after another. -/
def redAll (k : Nat) (plain : Bool) (acc : Tab (Nat × Nat)) (e : Nat) (xs : List Nat) : Tab (Nat × Nat) :=
  tabPut acc e (xs.foldl (redStep k plain) ((tabFind acc e).getD (redIdentity k, 0)))

/-- A reduction on a strip (R153, R154): with dimension 0, the values gather into trees of 256 along the row, each entering the result in
order; without it each lane is its own result. -/
def VecPlace.reduce (p : VecPlace) (op : Nat) (f : VecFields) : VecEffect :=
  let k := redKind op
  let plain := p.c.desc.vxPlain
  let ls := ((p.c.vxLanes p.unit).zip (p.read f.srcA.val)).filter (fun l => l.1.2.2 && p.c.vxOwns p.rank l.1.1 l.1.2.1)
  let xs := ls.map (fun l => ((l.1.1, l.1.2.1), toF32 (laneVal f.etype l.2)))
  if bit p.c.desc.vxRdim 0 then
    match p.unit with
    | .group _ _ => p.idle
    | .strip i0 r =>
      let all := p.v.piece ++ xs.map (fun x => x.2)
      let last := decide (p.c.vxExt 0 ≤ i0 + vecLen p.c.prog)
      let whole := if last then all else all.take (all.length / 256 * 256)
      let trees := (chunks 256 (whole.length + 1) whole).map (tree256 k)
      { p.idle with acc := redAll k plain p.v.acc (p.c.vxOutOf i0 r) trees, piece := if last then [] else all.drop whole.length }
  else { p.idle with acc := xs.foldl (fun m x => redAll k plain m (p.c.vxOutOf x.1.1 x.1.2) [x.2]) p.v.acc }

/-- The effect of the instruction that a core stands at (R147). -/
def VecPlace.effect (p : VecPlace) (b : Block) : Res VecEffect :=
  let op := vecOpcode p.word
  let f := vecFields p.word
  let ls := p.c.vxLanes p.unit
  if op = 0x01 then p.load b f
  else if op = 0x02 then p.store b f
  else if op = 0x03 then .ok (p.write f.dst.val f.etype (ls.map (fun _ => laneImm f.etype (immN f))))
  else if op = 0x04 then
    .ok (p.write f.dst.val 4 (ls.map (fun l => [l.1, l.2.1.1, l.2.1.2.1, l.2.1.2.2.1, l.2.1.2.2.2].getD (immN f % 8) 0)))
  else if isRed op then .ok (p.reduce op f)
  else
    let x := p.read f.srcA.val
    let y := p.read f.srcB.val
    let z := p.read f.srcC.val
    .ok (p.write f.dst.val (dstType op f) ((x.zip (y.zip z)).map (fun l => laneOp op f.etype (immN f) l.1 l.2.1 l.2.2)))

/-- The engine after an instruction: the next one of the unit, or the start of the next unit. -/
def VecPlace.advance (p : VecPlace) (e : VecEffect) : VecCore :=
  if p.v.pc + 1 < (vecSegment p.c.prog p.unit).length then
    { unit := p.v.unit, pc := p.v.pc + 1, regs := e.regs, acc := e.acc, piece := e.piece }
  else
    let v : VecCore := { unit := p.v.unit + 1, pc := 0, regs := [], acc := e.acc, piece := e.piece }
    match (p.c.vxUnits p.rank)[p.v.unit + 1]? with
    | none => v
    | some u => { v with regs := p.c.vxStart v u }

/-- One instruction of the program that a core runs: its effect, its issuing cycles (R142, R176), and the engine moved on. The second part
says whether it got through. -/
def Block.vecStep (b : Block) (n : Nat) (p : VecPlace) : Block × Bool :=
  match p.effect b with
  | .error e => (b.stop p.t e, false)
  | .ok x =>
    let b1 := (b.landCells x.cells).1
    match (b.landCells x.cells).2 with
    | some a => (b1.failStop p.t (.bad a), false)
    | none =>
      let b2 := b1.modTask p.t (fun c => { c with lanes := x.lanes, counts := x.counts })
      let b3 := b2.modCore n (fun e => { e with vec := p.advance x })
      let cycles := opCycles (vecOpcode p.word) (p.c.vxLanes p.unit).length
      (b3.modReg (vxReg n 8) (fun w => w + BitVec.ofNat 64 cycles), true)

/-- An instruction command: the instruction that the core's engine stands at, if it is this one. -/
def Block.vecOp (b : Block) (n op : Nat) (f : VecFields) : Block :=
  match b.vecPlace n with
  | some p => if vecOpcode p.word = op ∧ vecFields p.word = f then (b.vecStep n p).1 else b
  | none => b

/-! ## The instructions (R147), each on the strip that its core stands at -/

def execLd (core : Fin 80) (f : VecFields) (s : State) : Host.Outcome State Fault Refusal := s.act (fun b => b.vecOp core.val 0x01 f)
def execSt (core : Fin 80) (f : VecFields) (s : State) : Host.Outcome State Fault Refusal := s.act (fun b => b.vecOp core.val 0x02 f)
def execLdi (core : Fin 80) (f : VecFields) (s : State) : Host.Outcome State Fault Refusal := s.act (fun b => b.vecOp core.val 0x03 f)
def execIota (core : Fin 80) (f : VecFields) (s : State) : Host.Outcome State Fault Refusal := s.act (fun b => b.vecOp core.val 0x04 f)
def execAdd (core : Fin 80) (f : VecFields) (s : State) : Host.Outcome State Fault Refusal := s.act (fun b => b.vecOp core.val 0x10 f)
def execSub (core : Fin 80) (f : VecFields) (s : State) : Host.Outcome State Fault Refusal := s.act (fun b => b.vecOp core.val 0x11 f)
def execMul (core : Fin 80) (f : VecFields) (s : State) : Host.Outcome State Fault Refusal := s.act (fun b => b.vecOp core.val 0x12 f)
def execFma (core : Fin 80) (f : VecFields) (s : State) : Host.Outcome State Fault Refusal := s.act (fun b => b.vecOp core.val 0x13 f)
def execMax (core : Fin 80) (f : VecFields) (s : State) : Host.Outcome State Fault Refusal := s.act (fun b => b.vecOp core.val 0x14 f)
def execMin (core : Fin 80) (f : VecFields) (s : State) : Host.Outcome State Fault Refusal := s.act (fun b => b.vecOp core.val 0x15 f)
def execAbs (core : Fin 80) (f : VecFields) (s : State) : Host.Outcome State Fault Refusal := s.act (fun b => b.vecOp core.val 0x16 f)
def execNeg (core : Fin 80) (f : VecFields) (s : State) : Host.Outcome State Fault Refusal := s.act (fun b => b.vecOp core.val 0x17 f)
def execDiv (core : Fin 80) (f : VecFields) (s : State) : Host.Outcome State Fault Refusal := s.act (fun b => b.vecOp core.val 0x18 f)
def execSqrt (core : Fin 80) (f : VecFields) (s : State) : Host.Outcome State Fault Refusal := s.act (fun b => b.vecOp core.val 0x19 f)
def execCmp (core : Fin 80) (f : VecFields) (s : State) : Host.Outcome State Fault Refusal := s.act (fun b => b.vecOp core.val 0x1A f)
def execSel (core : Fin 80) (f : VecFields) (s : State) : Host.Outcome State Fault Refusal := s.act (fun b => b.vecOp core.val 0x1B f)
def execExp2 (core : Fin 80) (f : VecFields) (s : State) : Host.Outcome State Fault Refusal := s.act (fun b => b.vecOp core.val 0x20 f)
def execLog2 (core : Fin 80) (f : VecFields) (s : State) : Host.Outcome State Fault Refusal := s.act (fun b => b.vecOp core.val 0x21 f)
def execRcp (core : Fin 80) (f : VecFields) (s : State) : Host.Outcome State Fault Refusal := s.act (fun b => b.vecOp core.val 0x22 f)
def execRsqrt (core : Fin 80) (f : VecFields) (s : State) : Host.Outcome State Fault Refusal := s.act (fun b => b.vecOp core.val 0x23 f)
def execTanh (core : Fin 80) (f : VecFields) (s : State) : Host.Outcome State Fault Refusal := s.act (fun b => b.vecOp core.val 0x24 f)
def execIadd (core : Fin 80) (f : VecFields) (s : State) : Host.Outcome State Fault Refusal := s.act (fun b => b.vecOp core.val 0x30 f)
def execIsub (core : Fin 80) (f : VecFields) (s : State) : Host.Outcome State Fault Refusal := s.act (fun b => b.vecOp core.val 0x31 f)
def execImul (core : Fin 80) (f : VecFields) (s : State) : Host.Outcome State Fault Refusal := s.act (fun b => b.vecOp core.val 0x32 f)
def execImax (core : Fin 80) (f : VecFields) (s : State) : Host.Outcome State Fault Refusal := s.act (fun b => b.vecOp core.val 0x33 f)
def execImin (core : Fin 80) (f : VecFields) (s : State) : Host.Outcome State Fault Refusal := s.act (fun b => b.vecOp core.val 0x34 f)
def execShl (core : Fin 80) (f : VecFields) (s : State) : Host.Outcome State Fault Refusal := s.act (fun b => b.vecOp core.val 0x35 f)
def execShr (core : Fin 80) (f : VecFields) (s : State) : Host.Outcome State Fault Refusal := s.act (fun b => b.vecOp core.val 0x36 f)
def execSra (core : Fin 80) (f : VecFields) (s : State) : Host.Outcome State Fault Refusal := s.act (fun b => b.vecOp core.val 0x37 f)
def execAnd (core : Fin 80) (f : VecFields) (s : State) : Host.Outcome State Fault Refusal := s.act (fun b => b.vecOp core.val 0x38 f)
def execOr (core : Fin 80) (f : VecFields) (s : State) : Host.Outcome State Fault Refusal := s.act (fun b => b.vecOp core.val 0x39 f)
def execXor (core : Fin 80) (f : VecFields) (s : State) : Host.Outcome State Fault Refusal := s.act (fun b => b.vecOp core.val 0x3A f)
def execNot (core : Fin 80) (f : VecFields) (s : State) : Host.Outcome State Fault Refusal := s.act (fun b => b.vecOp core.val 0x3B f)
def execIcmp (core : Fin 80) (f : VecFields) (s : State) : Host.Outcome State Fault Refusal := s.act (fun b => b.vecOp core.val 0x3C f)
def execCvt (core : Fin 80) (f : VecFields) (s : State) : Host.Outcome State Fault Refusal := s.act (fun b => b.vecOp core.val 0x40 f)
def execRsum (core : Fin 80) (f : VecFields) (s : State) : Host.Outcome State Fault Refusal := s.act (fun b => b.vecOp core.val 0x50 f)
def execRmax (core : Fin 80) (f : VecFields) (s : State) : Host.Outcome State Fault Refusal := s.act (fun b => b.vecOp core.val 0x51 f)
def execRmin (core : Fin 80) (f : VecFields) (s : State) : Host.Outcome State Fault Refusal := s.act (fun b => b.vecOp core.val 0x52 f)
def execRmean (core : Fin 80) (f : VecFields) (s : State) : Host.Outcome State Fault Refusal := s.act (fun b => b.vecOp core.val 0x53 f)
def execGap (core : Fin 80) (f : VecFields) (s : State) : Host.Outcome State Fault Refusal := s.act (fun b => b.vecOp core.val 0x54 f)

/-- The vector engines' issuing cycles of a task that is no program (R176): no rule says how many they are, so they are free values (log entry 75). -/
def Block.vxIssuedFree (b : Block) (c : TaskCtx) : Block :=
  c.cores.foldl (fun x n => let r := x.fresh; r.2.modReg (vxReg n 8) (fun w => w + BitVec.ofNat 64 r.1)) b

/-- A run that stops: unless it only waits, its engines had issued. -/
def Block.stopIssued (b : Block) (t : TaskRef) (c : TaskCtx) (e : Stop) : Block :=
  match e with
  | .need a n => b.stop t (.need a n)
  | e => (b.vxIssuedFree c).stop t e

/-! ## The task (R143) -/

/-- A core's program run on, by at most `fuel` instructions. -/
def Block.vecRun (b : Block) (n : Nat) : Nat → Block × Bool
  | 0 => (b, true)
  | fuel + 1 => match b.vecPlace n with
    | none => (b, true)
    | some p => let r := b.vecStep n p; if r.2 then r.1.vecRun n fuel else r

/-- Every core of a task run to its end, or until one stops. -/
def Block.vecRunAll (b : Block) (c : TaskCtx) : List Nat → Block × Bool
  | [] => (b, true)
  | n :: ns =>
    let r := b.vecRun n ((c.vxUnits (c.rankOf n)).map (fun u => (vecSegment c.prog u).length)).sum
    if r.2 then r.1.vecRunAll c ns else r

/-- The occupancy bitmaps of the stored slots with COMP 7, from their elements as they stand (R122, R151). -/
def Block.vecBitmaps (b : Block) (a : Access) (c : TaskCtx) (slots : List Nat) : Res (List Host.Cell) :=
  concatRes (fun s =>
    let t := c.tensor s
    if t.comp ≠ 7 then .ok []
    else match mapRes (fun r => (b.rawRow a t r).map (fun o => (r, o))) t.rows with
      | .error e => .error e
      | .ok rows => b.bitmapCells a t rows) slots

/-- A vector task ends: its bitmaps, its capture, its status. A mean over an empty extent is flagged (R43). -/
def Block.vecEnd (b : Block) (t : TaskRef) (g : Graph) (c : TaskCtx) (status detail : Nat) : Block :=
  let slots := ((c.prog.filter (fun w => vecOpcode w = 0x02)).map (fun w => immN (vecFields w) % 8)).eraseDups
  let words := captureWords g.step (if status = stOkEmpty then ConvStats.zero else c.counts) (status = stOkEmpty)
  let stats : List StatCapture := if c.desc.vxStatEn then [{ slot := Fin.ofNat 4096 c.desc.vxStatSlot, words := words }] else []
  let mean := status = stOkEmpty && vecKind c.prog = 3 && c.vxReduced = 0
  (b.modTask t (fun c => { c with stats := stats, emptyRed := mean })).finish t
    (b.vecBitmaps (b.taskAccess t.half g c) c slots) status detail

/-- The identity stored into every slot that a store after an empty reduction names (R43, R152). -/
def Block.emptyStores (b : Block) (a : Access) (c : TaskCtx) : Res (List Host.Cell) :=
  concatRes (fun w =>
    let t := c.tensor (immN (vecFields w) % 8)
    concatRes (fun r =>
      let vs := List.replicate (t.ext 0) (f32 (redIdentity (vecKind c.prog)))
      if t.comp = 1 then
        concatRes (fun i => (b.sparseCells a t r (64 * i) ((vs.drop (64 * i)).take 64)).map (fun s => s.cells)) (List.range (cdiv (t.ext 0) 64))
      else b.rowCells a t r (convVals a t r 0 vs)) t.rows) ((vecPost c.prog).filter (fun w => vecOpcode w = 0x02))

/-- VECTOR_PROGRAM (R143, R145): every granted core runs what is left of its strips and groups; then the task ends. -/
def execVectorProgram (t : TaskRef) (s : State) : Host.Outcome State Fault Refusal :=
  s.act (fun b => b.onMode t 0x02 0 (fun g c =>
    let b0 := b.touch t g c
    match c.emptyDetail with
    | some det =>
      match b0.emptyStores (b0.taskAccess t.half g c) c with
      | .error e => b0.stop t e
      | .ok cells =>
        let r := b0.landCells cells
        match r.2 with
        | some a => r.1.failStop t (.bad a)
        | none => r.1.vecEnd t g c stOkEmpty det
    | none =>
      let r := b0.vecRunAll c c.cores
      if r.2 then r.1.onMode t 0x02 0 (fun g c => r.1.vecEnd t g c stOk 0) else r.1))

end Sys2Proof.Machine
end

