-- ==== Sys2Proof/Machine/Route.lean ====
section
/-! DEFINITION. The route and combine modes of a vector task (spec/05_sparse_operands_and_experts.md R127-R132, R137, R140;
spec/06_vector_engine_and_attention.md R155, R156). -/

namespace Sys2Proof.Machine

/-- A row stored into an output of a vector task (R144, R151): its cells and counts, and the row as the tensor holds it, if it is not compressed. -/
def Block.storeRow (b : Block) (a : Access) (t : Tensor) (r : Row) (vs : List Val) : Res (Stored × Option (Row × RowOut)) :=
  if t.comp = 1 then
    (mapRes (fun i => b.sparseCells a t r (64 * i) ((vs.drop (64 * i)).take 64)) (List.range (cdiv (t.ext 0) 64))).map (fun l => (Stored.join l, none))
  else
    let o := convVals a t r 0 vs
    (b.rowCells a t r o).map (fun cs => ({ cells := cs, stats := o.stats }, some (r, o)))

/-- Rows stored one after another, by core, as pieces. -/
def storedPieces (l : List (List (Res (Stored × Option (Row × RowOut))))) : List (List Piece) :=
  l.map (fun rs => seqPieces (rs.map (fun r => r.map (fun x => x.1.cells))))

/-- The counts of rows stored. -/
def storedStats (l : List (List (Res (Stored × Option (Row × RowOut))))) : ConvStats :=
  (l.flatten.filterMap (fun r => r.toOption.map (fun x => x.1.stats))).foldl ConvStats.add ConvStats.zero

/-- The occupancy bitmap of an output with COMP 7, from its stored rows, as pieces (R122, R151). -/
def Block.storedBitmap (b : Block) (a : Access) (t : Tensor) (l : List (List (Res (Stored × Option (Row × RowOut))))) : List Piece :=
  if t.comp = 7 then seqPieces (t.bitmapRows.map (fun k => b.bitmapRow a t (l.flatten.filterMap (fun r => r.toOption.bind (fun x => x.2))) k)) else []

/-- The rows of `n` that each of a task's cores takes (R95, R145). -/
def TaskCtx.rowShares (c : TaskCtx) (n : Nat) : List (List Nat) :=
  (List.range c.cores.length).map (fun rank => (List.range n).filter (fun i => coreOf n c.cores.length i = rank))

/-- Slots that a task reads or writes with the roles given; other slots are as they are. -/
def slotsRead (d : TaskDesc) (l : List (Bool × Nat)) : Option Nat :=
  (l.zip (List.range l.length)).findSome? (fun p =>
    if p.1.1 then firstFault [faultIf (!(d.uses p.2)) (offSlot p.2), faultIf (d.role p.2 ≠ p.1.2) (offRole p.2)] else none)

/-- The COMP rules of a vector task's slots (R144). -/
def vecComps (c : TaskCtx) (slots : List Nat) : Option Nat :=
  slots.findSome? (fun s =>
    let t := c.tensor s
    firstFault [compIn t (if c.desc.role s = 0 then [0, 2, 3, 4, 5, 6, 7] else [0, 1, 7]), compFormat t])

/-! ## The expert home table (R127-R129) -/

/-- A job slot's expert home table on a half. -/
def Block.experts (b : Block) (h : HalfId) (k : Nat) : List Word := (b.slot k).experts.getD (halfNum h) []

/-- The fields of an entry: HOME, VALID and LOCAL. -/
def exHome (w : Word) : Nat := fld w 31 16
def exValid (w : Word) : Bool := fld w 15 15 = 1
def exLocal (w : Word) : Nat := fld w 9 0

/-- R129: the layer's entries lie in the table and are valid. `off` is the PARAMS word that holds FIRST_EXPERT, in its top 16 bits. -/
def expertFault (table : List Word) (off first n : Nat) : Option Nat :=
  if table.length < first + n then some (off + 6)
  else (List.range n).findSome? (fun e => if exValid (table.getD (first + e) 0) then none else some (offTable off (first + e)))

/-! ## Route (R130-R132, R155) -/

def TaskDesc.rtFirst (d : TaskDesc) : Nat := d.pf 1 63 48
def TaskDesc.rtE (d : TaskDesc) : Nat := d.pf 1 47 37
def TaskDesc.rtK (d : TaskDesc) : Nat := d.pf 1 36 33
def TaskDesc.rtCap (d : TaskDesc) : Nat := d.pf 1 32 15
def TaskDesc.rtSpill (d : TaskDesc) : Nat := d.pf 1 14 11
def TaskDesc.rtScore (d : TaskDesc) : Nat := d.pf 1 10 9
def TaskDesc.rtNorm (d : TaskDesc) : Bool := d.pf 1 8 8 = 1
def TaskDesc.rtNext (d : TaskDesc) : Bool := d.pf 1 7 7 = 1
def TaskDesc.rtBias (d : TaskDesc) : Bool := d.pf 1 6 6 = 1

/-- Check 1 of a route task (R129, R140, R144, R155). -/
def routeCheck (c : TaskCtx) (table : List Word) : Option Nat :=
  let d := c.desc
  let l := c.tensor 0
  let m := l.ext 1
  firstFault [
    faultIf (d.banks ≠ 0) offBanks, faultIf (decide (d.coveUnits < 4)) offCove,
    faultIf (!d.vxStatEn) 100,
    faultIf (d.rtE = 0 || decide (1024 < d.rtE)) 108, faultIf (d.rtK = 0 || decide (8 < d.rtK)) 108, faultIf (d.rtCap = 0) 105,
    faultIf (d.rtScore = 3) 105,
    whenOn d.rtNext (faultIf (d.rtSpill = 0 || decide (8 < d.rtSpill) || decide (d.rtE < d.rtK + d.rtSpill)) 105),
    slotsRead d [(true, 0), (d.rtBias, 0), (true, 1), (true, 1), (true, 1)],
    formatIn l [0x00], whenOn d.rtBias (formatIn (c.tensor 1) [0x00]), formatIn (c.tensor 2) [0x0B], formatIn (c.tensor 3) [0x0A],
    formatIn (c.tensor 4) [0x0A],
    vecComps c ([0, 2, 3, 4] ++ (if d.rtBias then [1] else [])),
    faultIf (l.ext 0 ≠ d.rtE) (offTensor 0 (tOffCap 0)), flatFrom l 2,
    whenOn d.rtBias (firstFault [extsAre (c.tensor 1) d.rtE 1, flatFrom (c.tensor 1) 2]), extsAre (c.tensor 2) d.rtK m, flatFrom (c.tensor 2) 2,
    extsAre (c.tensor 3) d.rtE 1, flatFrom (c.tensor 3) 2, extsAre (c.tensor 4) 1 1, flatFrom (c.tensor 4) 2,
    expertFault table 104 d.rtFirst d.rtE ]

/-- One token's scores: FP32 bits by expert (R130). For SCORE = 1 they are taken over the set given. -/
def tokenScores (score : Nat) (l : List Nat) (set : List Nat) : List Nat :=
  if score = 2 then l.map (fun x => rcpF (addF 0x3F800000 (exp2F (mulF (negF x) cLog2e))))
  else
    let mx := l.foldl maxF 0xFF800000
    let p := l.map (fun x => exp2F (mulF (subF x mx) cLog2e))
    let S := (set.map (fun e => p.getD e 0)).foldl addF 0
    p.map (fun x => mulF x (rcpF S))

/-- A token's selection keys (R130). -/
def tokenKeys (d : TaskDesc) (t : Nat) (l : List Nat) (bias : Option (List Nat)) : List Val :=
  let s := if d.rtScore = 1 then l else tokenScores d.rtScore l (List.range l.length)
  (s.zip (List.range s.length)).map (fun p =>
    match f32 (addF p.1 (match bias with
      | some w => w.getD p.2 0
      | none => 0)) with
    | .nan => ofScaled (Config.nanKey t p.2) (-149) false
    | v => v)

/-- The experts in descending key, a tie to the lower expert. -/
def rankExperts (keys : List Val) : List Nat :=
  sortBy (fun i j =>
    let x := keys.getD i .nan
    let y := keys.getD j .nan
    if ltV y x then true else if ltV x y then false else decide (i ≤ j)) (List.range keys.length)

/-- An entry of the route: its expert, whether it is assigned, whether it spilled, and its slot. -/
structure RouteEntry where
  e : Nat
  assigned : Bool
  spilled : Bool
  slot : Nat
deriving DecidableEq, Repr

/-- The route in progress: counts by expert, and entries by token × 8 + rank. -/
structure RouteState where
  counts : List Nat
  entries : Tab RouteEntry
deriving DecidableEq, Repr

/-- An entry takes the next slot of an expert with room. -/
def RouteState.take (s : RouteState) (t r e : Nat) (spilled : Bool) : RouteState :=
  { counts := listMod s.counts e (fun n => n + 1),
    entries := tabPut s.entries (8 * t + r) { e := e, assigned := true, spilled := spilled, slot := s.counts.getD e 0 } }

/-- Passes (R131): rank by rank, token by token. -/
def routePass (cap : Nat) (choices : List (List Nat)) (s : RouteState) (r t : Nat) : RouteState :=
  match (choices.getD t [])[r]? with
  | none => s
  | some e => if s.counts.getD e 0 < cap then s.take t r e false else s

/-- Spill (R131): the next ranked choices, in order, that the token has not been assigned and that have room. -/
def routeSpill (cap k spill : Nat) (choices : List (List Nat)) (s : RouteState) (t r : Nat) : RouteState :=
  if (tabFind s.entries (8 * t + r)).isSome then s
  else
    let has (e : Nat) : Bool := (List.range k).any (fun q => ((tabFind s.entries (8 * t + q)).map (fun x => x.e)) == some e)
    match (((choices.getD t []).drop k).take spill).find? (fun e => !(has e) && decide (s.counts.getD e 0 < cap)) with
    | none => s
    | some e => s.take t r e true

/-- Every assignment of the route. -/
def routeAll (d : TaskDesc) (choices : List (List Nat)) : RouteState :=
  let ts := List.range choices.length
  let rs := List.range d.rtK
  let s1 := (rs.flatMap (fun r => ts.map (fun t => (r, t)))).foldl (fun s p => routePass d.rtCap choices s p.1 p.2)
    { counts := List.replicate d.rtE 0, entries := [] }
  if d.rtNext then
    ((ts.filter (fun t => choices.getD t [] ≠ [])).flatMap (fun t => rs.map (fun r => (t, r)))).foldl
      (fun s p => routeSpill d.rtCap d.rtK d.rtSpill choices s p.1 p.2) s1
  else s1

/-- A token's route records (R130, R132). A dropped entry keeps the expert it chose, if it chose one; its other open fields are free (log
entry 36). -/
def tokenRecords (d : TaskDesc) (s : RouteState) (t : Nat) (l : List Nat) (choices : List Nat) : List Int :=
  let rs := List.range d.rtK
  let es := rs.filterMap (fun r => tabFind s.entries (8 * t + r))
  let set := (List.range d.rtE).filter (fun e => es.any (fun x => x.e = e))
  let sc := tokenScores d.rtScore l (if d.rtScore = 1 then set else List.range d.rtE)
  let total := (es.map (fun x => sc.getD x.e 0)).foldl addF 0
  rs.map (fun r =>
    match tabFind s.entries (8 * t + r) with
    | some x =>
      let w := if d.rtNorm then mulF (sc.getD x.e 0) (rcpF total) else sc.getD x.e 0
      sext 64 (w * 2 ^ 32 + x.e % 1024 * 2 ^ 22 + 2 ^ 21 + b2n x.spilled * 2 ^ 20 + x.slot % 2 ^ 18)
    | none =>
      let f := Config.droppedField t r
      (((choices[r]?.getD (f / 2 ^ 18)) % 1024 * 2 ^ 22 + f % 2 ^ 18 : Nat) : Int))

/-- What a route writes: rows of its record, count and drop tensors; and the count of non-finite logits (R130-R132). A token whose logits hold a non-finite
value is assigned to no expert, and E is added to NF_COUNT. -/
def Block.rtRun (b : Block) (a : Access) (c : TaskCtx) : Res (List (Nat × Row × List Val) × Nat) :=
  let d := c.desc
  let l := c.tensor 0
  let m := l.ext 1
  match mapRes (fun i => b.rowF32 a l (i, 0, 0, 0)) (List.range m) with
  | .error e => .error e
  | .ok logits => match (if d.rtBias then (b.rowF32 a (c.tensor 1) (0, 0, 0, 0)).map some else .ok none) with
    | .error e => .error e
    | .ok bias =>
      let bad (x : List Nat) : Bool := x.any (fun v => !(f32 v).isFinite)
      let choices := (logits.zip (List.range m)).map (fun p => if bad p.1 then [] else rankExperts (tokenKeys d p.2 p.1 bias))
      let st := routeAll d choices
      let recs := ((logits.zip choices).zip (List.range m)).map (fun p => (p.2, tokenRecords d st p.2 p.1.1 p.1.2))
      let dropped := m * d.rtK - st.entries.length
      .ok (recs.map (fun p => (2, (p.1, 0, 0, 0), p.2.map ofInt)) ++
        [(3, (0, 0, 0, 0), st.counts.map (fun n => ofInt (Int.ofNat n))), (4, (0, 0, 0, 0), [ofInt dropped])], (logits.filter bad).length * d.rtE)

/-- The writes of a route: its rows in order, then the bitmaps of its outputs. -/
def Block.rtWrites (b : Block) (a : Access) (c : TaskCtx) (rows : List (Nat × Row × List Val)) : List Piece :=
  let out (s : Nat) : List (Res (Stored × Option (Row × RowOut))) :=
    (rows.filter (fun p => p.1 = s)).map (fun p => b.storeRow a (c.tensor s) p.2.1 p.2.2)
  (storedPieces [out 2 ++ out 3 ++ out 4]).flatten ++ [2, 3, 4].flatMap (fun s => b.storedBitmap a (c.tensor s) [out s])

/-- ROUTE (R130-R132): the record, count and drop tensors are written, and NF_COUNT is captured. -/
def execRoute (t : TaskRef) (s : State) : Host.Outcome State Fault Refusal :=
  s.act (fun b => b.onMode t 0x02 1 (fun g c =>
    let a := b.taskAccess t.half g c
    let b0 := b.touch t g c
    match b0.rtRun a c with
    | .error e => b0.stopIssued t c e
    | .ok r =>
      let words := captureWords g.step { ConvStats.zero with nf := r.2 } false
      let b1 := (b0.vxIssuedFree c).modTask t (fun c => { c with stats := [{ slot := Fin.ofNat 4096 c.desc.vxStatSlot, words := words }] })
      b1.finishRun t [b0.rtWrites a c r.1] stOk 0))

/-! ## Combine (R137, R156) -/

def TaskDesc.cbE (d : TaskDesc) : Nat := d.pf 1 63 53
def TaskDesc.cbK (d : TaskDesc) : Nat := d.pf 1 52 49
def TaskDesc.cbCap (d : TaskDesc) : Nat := d.pf 1 48 31
def TaskDesc.cbResid (d : TaskDesc) : Bool := d.pf 1 30 30 = 1

/-- Check 1 of a combine task (R140, R144, R156). -/
def combineCheck (c : TaskCtx) : Option Nat :=
  let d := c.desc
  let y := c.tensor 2
  firstFault [
    faultIf (d.banks ≠ 0) offBanks, faultIf (decide (d.coveUnits < 4)) offCove,
    faultIf (d.cbE = 0 || decide (1024 < d.cbE)) 110, faultIf (d.cbK = 0 || decide (8 < d.cbK)) 110, faultIf (d.cbCap = 0) 107,
    slotsRead d [(true, 0), (true, 0), (true, 1), (d.cbResid, 0)],
    formatIn (c.tensor 0) [0x0B], vecComps c ([0, 1, 2] ++ (if d.cbResid then [3] else [])),
    extsAre (c.tensor 0) d.cbK (y.ext 1), flatFrom (c.tensor 0) 2,
    extEq (c.tensor 1) y 0 0, faultIf ((c.tensor 1).ext 1 ≠ d.cbE * d.cbCap) (offTensor 1 (tOffCap 1)), flatFrom (c.tensor 1) 2,
    flatFrom y 2,
    whenOn d.cbResid (firstFault [extEq (c.tensor 3) y 0 0, extEq (c.tensor 3) y 1 1, flatFrom (c.tensor 3) 2]) ]

/-- A row as a conversion takes it: FP32 bits, and what its widening counts (R63, R64, R66). -/
def Block.rowWide (b : Block) (a : Access) (t : Tensor) (r : Row) : Res (List Nat × ConvStats) :=
  (b.rowVals a t r).map (fun vs => (vs.map toF32, (vs.map (widenCount t.fmt)).foldl ConvStats.add ConvStats.zero))

/-- One token of a combine: its returned rows, weighted and added in rank order (R137), and what their widening counts. -/
def Block.combineToken (b : Block) (a : Access) (c : TaskCtx) (i : Nat) : Res (List Nat × ConvStats) :=
  let d := c.desc
  match mapRes (fun r => b.elemCode a (c.tensor 0) r (i, 0, 0, 0)) (List.range d.cbK) with
  | .error e => .error e
  | .ok recs => match (if d.cbResid then b.rowWide a (c.tensor 3) (i, 0, 0, 0)
      else .ok (List.replicate ((c.tensor 2).ext 0) 0, ConvStats.zero)) with
    | .error e => .error e
    | .ok init => match mapRes (fun x => (b.rowWide a (c.tensor 1) (bits x 31 22 * d.cbCap + bits x 17 0, 0, 0, 0)).map (fun o => (x, o)))
        (recs.filter (fun x => bit x 21)) with
      | .error e => .error e
      | .ok rows => .ok (rows.foldl (fun acc p => ((acc.1.zip p.2.1).map (fun q => fmaF (bits p.1 63 32) q.2 q.1), acc.2.add p.2.2)) init)

/-- A combine's stores, by core (R137, R145): each token's weighted sum. -/
def Block.cbRun (b : Block) (a : Access) (c : TaskCtx) : List (List (Res (Stored × Option (Row × RowOut)))) :=
  (c.rowShares ((c.tensor 2).ext 1)).map (fun is => is.map (fun i => match b.combineToken a c i with
    | .error e => .error e
    | .ok x => (b.storeRow a (c.tensor 2) (i, 0, 0, 0) (x.1.map f32)).map (fun o => ({ o.1 with stats := x.2.add o.1.stats }, o.2))))

/-- COMBINE (R137). -/
def execCombine (t : TaskRef) (s : State) : Host.Outcome State Fault Refusal :=
  s.act (fun b => b.onMode t 0x02 2 (fun g c =>
    let a := b.taskAccess t.half g c
    let b0 := b.touch t g c
    let run := b0.cbRun a c
    let words := captureWords g.step (storedStats run) false
    let stats : List StatCapture := if c.desc.vxStatEn then [{ slot := Fin.ofNat 4096 c.desc.vxStatSlot, words := words }] else []
    let r := b0.landRun (storedPieces run ++ [b0.storedBitmap a (c.tensor 2) run])
    match r.2 with
    | some e => r.1.stopIssued t c e
    | none => ((r.1.vxIssuedFree c).modTask t (fun c => { c with stats := stats })).fix t stOk 0))

end Sys2Proof.Machine
end

