-- ==== Sys2Proof/Machine/Kv.lean ====
section
/-! DEFINITION. KV pages: sequence tables, page lists, the look-aside buffers and KV_WRITE (spec/06_vector_engine_and_attention.md R168-R172,
R175, R176). -/

namespace Sys2Proof.Machine

/-- A sequence-table entry as a task keeps it: the page list's address and LENGTH (R169, R170). -/
structure KvSeq where
  list : Nat
  length : Nat
deriving DecidableEq, Repr

/-- The stop of a demand that meets an invalid entry (R171). -/
def kvUnmapped (q : Nat) : Stop := .ended stKvUnmapped q

/-- A sequence-table entry of a job slot (R169): one past LAST, or not VALID, is invalid. -/
def Block.kvSeq (b : Block) (a : Access) (q : Nat) : Res KvSeq :=
  let w := b.reg (kvReg a.half (16 * a.slot + 8))
  if fld w 55 36 < q then .error (kvUnmapped q)
  else match b.rdNat a 8 (fld w 35 0 * 4096 + 16 * q) 8 with
    | .error e => .error e
    | .ok x => match b.rdNat a 8 (fld w 35 0 * 4096 + 16 * q + 8) 8 with
      | .error e => .error e
      | .ok y => if bit x 63 then .ok { list := bits x 47 3 * 8, length := bits y 31 0 } else .error (kvUnmapped q)

/-- A page-list entry (R169). -/
def Block.kvEntry (b : Block) (a : Access) (q : Nat) (s : KvSeq) (i : Nat) : Res Nat :=
  match b.rdNat a 8 (s.list + 4 * i) 4 with
  | .error e => .error e
  | .ok x => if bit x 31 then .ok (bits x 21 0) else .error (kvUnmapped q)

/-- The look-aside entries of a core: slot, sequence, list index and page number. -/
abbrev KvLab := List (Nat × Nat × Nat × Nat)

/-- A task's walk: what it holds, the demands each core comes to, each core's buffer, and its hits and misses. -/
structure KvWalk where
  held : KvHeld
  come : Tab Nat
  labs : Tab KvLab
  hits : Tab Nat
  misses : Tab Nat
deriving DecidableEq, Repr

/-- The walk of a run of a task: its earlier runs have left what the task holds. -/
def TaskCtx.kvStart (c : TaskCtx) : KvWalk := { held := c.kv, come := [], labs := [], hits := [], misses := [] }

/-- One more of a count by core. -/
def tabUp (m : Tab Nat) (k : Nat) : Tab Nat := tabPut m k ((tabFind m k).getD 0 + 1)

/-- The key of a page-list entry that a task holds for a core. -/
def kvKey (core q i : Nat) : Nat := (core * 2 ^ 20 + q) * 2 ^ 32 + i

/-- A sequence-table entry that a task holds. -/
def KvHeld.seq (x : KvHeld) (q : Nat) : KvSeq :=
  let s := (tabFind x.seqs q).getD (0, 0)
  { list := s.1, length := s.2 }

/-- A task reads a sequence-table entry at its first use and keeps it (R170). -/
def Block.kvUse (b : Block) (a : Access) (w : KvWalk) (q : Nat) : KvWalk × Option Stop :=
  match tabFind w.held.seqs q with
  | some _ => (w, none)
  | none => match b.kvSeq a q with
    | .error e => (w, some e)
    | .ok s => ({ w with held := { w.held with seqs := tabPut w.held.seqs q (s.list, s.length) } }, none)

/-- A core holds a page-list entry that it has demanded. -/
def KvWalk.hold (w : KvWalk) (core q i p : Nat) : KvWalk :=
  { w with held := { w.held with pages := tabPut w.held.pages (kvKey core q i) p, made := tabUp w.held.made core } }

/-- A demand for a page of a sequence on a core (R170): from the core's buffer, or walked and entered; a full buffer gives up its oldest
entry (DESIGN CHOICE, log entry 37). One that an earlier run of the task made is not made again. A walk that fails is counted; one that waits for far bytes is
counted when it ends. -/
def Block.kvDemand (b : Block) (a : Access) (w : KvWalk) (core q i : Nat) : KvWalk × Option Stop :=
  let n := (tabFind w.come core).getD 0
  let w := { w with come := tabUp w.come core }
  if n < (tabFind w.held.made core).getD 0 then (w, none)
  else
    let lab := (tabFind w.labs core).getD (b.core core).lab
    match lab.find? (fun e => e.1 = a.slot && e.2.1 = q && e.2.2.1 = i) with
    | some e => ({ w with hits := tabUp w.hits core }.hold core q i e.2.2.2, none)
    | none => match b.kvEntry a q (w.held.seq q) i with
      | .error (.need d n) => (w, some (.need d n))
      | .error e => ({ w with misses := tabUp w.misses core }, some e)
      | .ok p =>
        ({ w with labs := tabPut w.labs core ((if lab.length < 64 then lab else lab.drop 1) ++ [(a.slot, q, i, p)]),
                  misses := tabUp w.misses core }.hold core q i p, none)

/-- Demands for pages of a sequence in order, up to the first that stops. -/
def Block.kvDemands (b : Block) (a : Access) (core q : Nat) : KvWalk → List Nat → KvWalk × Option Stop
  | w, [] => (w, none)
  | w, i :: is => match b.kvDemand a w core q i with
    | (w, some e) => (w, some e)
    | (w, none) => b.kvDemands a core q w is

/-- A sequence's entry, then pages of it. -/
def Block.kvPages (b : Block) (a : Access) (w : KvWalk) (core q : Nat) (is : List Nat) : KvWalk × Option Stop :=
  match b.kvUse a w q with
  | (w, some e) => (w, some e)
  | (w, none) => b.kvDemands a core q w is

/-- The buffers and their counts as a walk left them, and what the task holds. -/
def Block.kvWalked (b : Block) (t : TaskRef) (w : KvWalk) : Block :=
  let b1 := w.labs.foldl (fun x p => x.modCore p.1 (fun e => { e with lab := p.2 })) b
  let b2 := w.hits.foldl (fun x p => x.count (vxReg p.1 0x28) 63 32 p.2) b1
  (w.misses.foldl (fun x p => x.count (vxReg p.1 0x28) 31 0 p.2) b2).modTask t (fun c => { c with kv := w.held })

/-- The job-virtual address of a page; a pool that lies in neither Shelf nor Bay faults (R169). -/
def Block.kvPageVa (b : Block) (a : Access) (p : Nat) : Res Nat :=
  let va := b.regFld (kvReg a.half (16 * a.slot)) 47 16 * 65536 + p * 65536
  match b.translate a.slot va with
  | none => .error (.ended stXlate 8)
  | some (d, _) => if d / 2 ^ 60 = 0 ∧ (tierOf d = 1 ∨ tierOf d = 2) then .ok va else .error (.ended stXlate 8)

/-- The byte of a page that holds element `d` of head `g` of a token, K or V (R168). -/
def kvByte (D token g d : Nat) (value : Bool) : Nat := token * 2048 + g * 2 * D + 2 * d + (if value then 32768 else 0)

/-- Whether a run-ahead at a list entry is dropped (R171): the entry is invalid, or its page does not translate. -/
def Block.kvDrops (b : Block) (a : Access) (q : Nat) (s : KvSeq) (i : Nat) : Bool :=
  match b.kvEntry a q s i with
  | .error _ => true
  | .ok p => match b.kvPageVa a p with
    | .error _ => true
    | .ok _ => false

/-- Run-aheads (R171): with KV_RA_DEPTH non-zero and an entry in reach of a demand where one is dropped, how many were dropped is open (log entry 37). -/
def Block.kvRunAhead (b : Block) (a : Access) (x : KvHeld) : Block :=
  let depth := b.regFld (kvReg a.half 0x110) 3 0
  if x.pages.any (fun p => (List.range depth).any (fun j =>
      let q := p.1 / 2 ^ 32 % 2 ^ 20
      b.kvDrops a q (x.seq q) (p.1 % 2 ^ 32 + 1 + j))) then
    { b with freeCounter := b.freeCounter + 1 }.count (kvReg a.half 0x108) 63 32 (Config.runAheads b.freeCounter)
  else b

/-- A task with paged keys stops: its demand fault is counted (R176), and, unless it only waits, its run-aheads. -/
def Block.kvStop (b : Block) (t : TaskRef) (a : Access) (c : TaskCtx) (e : Stop) : Block :=
  match e with
  | .need d n => b.stop t (.need d n)
  | .bad d => ((b.kvRunAhead a c.kv).vxIssuedFree c).stop t (.bad d)
  | .ended st q =>
    ((if st = stKvUnmapped then (b.kvRunAhead a c.kv).count (kvReg t.half 0x108) 31 0 1 else b.kvRunAhead a c.kv).vxIssuedFree c).stop t (.ended st q)

/-! ## KV_WRITE (R172) -/

def TaskDesc.kvFmt (d : TaskDesc) : Nat := if d.pf 1 63 62 = 0 then 0x01 else 0x02
def TaskDesc.kvD (d : TaskDesc) : Nat := d.pf 1 61 54

/-- A head dimension in range (R175). -/
def headDim (D : Nat) : Bool := decide (16 ≤ D) && decide (D ≤ 128) && decide (D % 16 = 0)

/-- Check 1 of a KV write (R144, R172, R175). -/
def kvWriteCheck (c : TaskCtx) : Option Nat :=
  let d := c.desc
  let k := c.tensor 0
  let n := k.ext 2
  firstFault [
    faultIf (d.banks ≠ 0) offBanks, faultIf (decide (d.coveUnits < 4)) offCove,
    faultIf (decide (2 ≤ d.pf 1 63 62)) 111, faultIf (!(headDim d.kvD)) 110,
    slotsRead d [(true, 0), (true, 0), (true, 0), (true, 0)],
    vecComps c [0, 1, 2, 3], formatIn (c.tensor 2) [0x0A], formatIn (c.tensor 3) [0x0A],
    extsAre k d.kvD (1024 / d.kvD), flatFrom k 3,
    extsAre (c.tensor 1) d.kvD (1024 / d.kvD), extEq k (c.tensor 1) 2 2, flatFrom (c.tensor 1) 3,
    extsAre (c.tensor 2) n 1, flatFrom (c.tensor 2) 2, extsAre (c.tensor 3) n 1, flatFrom (c.tensor 3) 2 ]

/-- The values of a slot's head row converted to KV_FMT, each rounded once (R64-R68; SROUND and NF_SAT are 0, no rule gives a page either, log entry 38), with
their counts. -/
def Block.kvBytes (b : Block) (a : Access) (t : Tensor) (fmt g r : Nat) : Res (List Byte × ConvStats) :=
  (b.rowVals a t (g, r, 0, 0)).map (fun vs =>
    let ws := vs.map (fun v => t.widen v)
    let o := convWith { parseTensor 0 0 [] with fmt := fmt } (ws.map (fun _ => .nearest)) ws
    (o.codes.flatMap (fun x => leBytes 2 x), (vs.map (fun v => { widenCount t.fmt v with nf := 0 })).foldl ConvStats.add o.stats))

/-- The cells of one token's K and V rows in its page, with their counts. -/
def Block.kvTokenCells (b : Block) (a : Access) (c : TaskCtx) (r pos page : Nat) : Res Stored :=
  let D := c.desc.kvD
  match b.kvPageVa a page with
  | .error e => .error e
  | .ok va => (mapRes (fun p => match b.kvBytes a (c.tensor p.2) c.desc.kvFmt p.1 r with
      | .error e => .error e
      | .ok l => (b.wrCells a 8 (va + kvByte D (pos % 16) p.1 0 (p.2 = 1)) l.1).map (fun cs => ({ cells := cs, stats := l.2 } : Stored)))
      ((List.range (1024 / D)).flatMap (fun g => [(g, 0), (g, 1)]))).map Stored.join

/-- One row of a KV write on a core (R172): it goes to token position mod 16 of the list entry position div 16 of its sequence. -/
def Block.kvRow (b : Block) (a : Access) (c : TaskCtx) (w : KvWalk) (core r : Nat) : KvWalk × Res Stored :=
  match b.elemCode a (c.tensor 2) r (0, 0, 0, 0), b.elemCode a (c.tensor 3) r (0, 0, 0, 0) with
  | .error e, _ => (w, .error e)
  | _, .error e => (w, .error e)
  | .ok pos, .ok q => match b.kvPages a w core q [pos / 16] with
    | (w, some e) => (w, .error e)
    | (w, none) => (w, b.kvTokenCells a c r pos ((tabFind w.held.pages (kvKey core q (pos / 16))).getD 0))

/-- The rows of a core in order, up to the first that stops. -/
def Block.kvRows (b : Block) (a : Access) (c : TaskCtx) (core : Nat) : KvWalk → List Nat → KvWalk × List (Res Stored)
  | w, [] => (w, [])
  | w, r :: rs => match b.kvRow a c w core r with
    | (w, .error e) => (w, [.error e])
    | (w, .ok st) =>
      let x := b.kvRows a c core w rs
      (x.1, .ok st :: x.2)

/-- Every core's part of a task that walks. -/
def walkCores {α β : Type} (f : KvWalk → Nat → α → KvWalk × β) : KvWalk → List (Nat × α) → KvWalk × List β
  | w, [] => (w, [])
  | w, p :: ps =>
    let x := f w p.1 p.2
    let y := walkCores f x.1 ps
    (y.1, x.2 :: y.2)

/-- A KV write's walk and its stores, by core (R172, R145). -/
def Block.kvRun (b : Block) (a : Access) (c : TaskCtx) : KvWalk × List (List (Res Stored)) :=
  walkCores (fun w core rs => b.kvRows a c core w rs) c.kvStart (c.cores.zip (c.rowShares ((c.tensor 0).ext 2)))

/-- KV_WRITE (R172). -/
def execKvWrite (t : TaskRef) (s : State) : Host.Outcome State Fault Refusal :=
  s.act (fun b => b.onMode t 0x02 3 (fun g c =>
    let a := b.taskAccess t.half g c
    let b0 := b.touch t g c
    let run := b0.kvRun a c
    let r := (b0.kvWalked t run.1).landRun (run.2.map (fun rs => seqPieces (rs.map (fun x => x.map (fun st => st.cells)))))
    let st := (run.2.flatten.filterMap (fun x => x.toOption.map (fun y => y.stats))).foldl ConvStats.add ConvStats.zero
    let stats : List StatCapture := if c.desc.vxStatEn then [{ slot := Fin.ofNat 4096 c.desc.vxStatSlot, words := captureWords g.step st false }] else []
    match r.2 with
    | some e => r.1.kvStop t a { c with kv := run.1.held } e
    | none => (((r.1.kvRunAhead a run.1.held).vxIssuedFree c).modTask t (fun c => { c with stats := stats })).fix t stOk 0))

end Sys2Proof.Machine
end

