-- ==== Sys2Proof/Machine/Attention.lean ====
section
/-! DEFINITION. Attention tasks (spec/06_vector_engine_and_attention.md R157-R167, R173, R175). -/

namespace Sys2Proof.Machine

/-! ## PARAMS and extents (R157, R158) -/

def TaskDesc.atMode (d : TaskDesc) : Nat := d.pf 0 63 60
def TaskDesc.atStatSlot (d : TaskDesc) : Nat := d.pf 0 59 48
def TaskDesc.atStatEn (d : TaskDesc) : Bool := d.pf 0 47 47 = 1
def TaskDesc.atPlain (d : TaskDesc) : Bool := d.pf 0 46 46 = 1
def TaskDesc.atCausal (d : TaskDesc) : Bool := d.pf 0 45 45 = 1
def TaskDesc.atSeg (d : TaskDesc) : Bool := d.pf 0 44 44 = 1
def TaskDesc.atBias (d : TaskDesc) : Bool := d.pf 0 43 43 = 1
def TaskDesc.atPaged (d : TaskDesc) : Bool := d.pf 0 42 42 = 1
def TaskDesc.atKvFmt (d : TaskDesc) : Nat := if d.pf 0 41 41 = 0 then 0x01 else 0x02
def TaskDesc.atD (d : TaskDesc) : Nat := d.pf 0 40 33
def TaskDesc.atGroup (d : TaskDesc) : Nat := d.pf 0 32 26
def TaskDesc.atScale (d : TaskDesc) : Nat := d.pf 1 63 32
def TaskDesc.atWindow (d : TaskDesc) : Nat := d.pf 1 31 12
def TaskDesc.atQPos (d : TaskDesc) : Nat := d.pf 2 63 32
def TaskDesc.atKPos (d : TaskDesc) : Nat := d.pf 2 31 0
def TaskDesc.atTable (d : TaskDesc) : Nat := d.pf 3 63 28 * 4096

/-- Lq, H, B and Lk of a task (R158): in mode 2 they come from the partial outputs. -/
def TaskCtx.atLq (c : TaskCtx) : Nat := (c.tensor 0).ext 1
def TaskCtx.atH (c : TaskCtx) : Nat := (c.tensor 0).ext 2
def TaskCtx.atB (c : TaskCtx) : Nat := (c.tensor 0).ext 3
def TaskCtx.atS (c : TaskCtx) : Nat := (c.tensor 0).ext 4
def TaskCtx.atLk (c : TaskCtx) : Nat := (c.tensor 1).ext 1

/-- The FORMATs of Q, K, V and dO. -/
def TaskCtx.atFQ (c : TaskCtx) : Nat := (c.tensor 0).fmt
def TaskCtx.atFK (c : TaskCtx) : Nat := if c.desc.atPaged then c.desc.atKvFmt else (c.tensor 1).fmt
def TaskCtx.atFV (c : TaskCtx) : Nat := if c.desc.atPaged then c.desc.atKvFmt else (c.tensor 2).fmt
def TaskCtx.atFdO (c : TaskCtx) : Nat := (c.tensor 3).fmt

/-- P of a pairing (R80). -/
def pairP (x y : Nat) : Nat := ((pairing x y).map (fun q => q.p)).getD 1

/-- The number of KV heads. -/
def TaskCtx.atHkv (c : TaskCtx) : Nat := c.atH / c.desc.atGroup

/-- A unit of the work: batch, head (a KV head in mode 3) and 128-row tile. -/
structure AtUnit where
  bat : Nat
  h : Nat
  tile : Nat
deriving DecidableEq, Repr

/-- The units in order: by b, then h, then tile (R159). -/
def TaskCtx.atUnits (c : TaskCtx) : List AtUnit :=
  let nh := if c.desc.atMode = 3 then c.atHkv else c.atH
  let nt := cdiv (if c.desc.atMode = 3 then c.atLk else c.atLq) 128
  (List.range c.atB).flatMap (fun x => (List.range nh).flatMap (fun h => (List.range nt).map (fun i => { bat := x, h := h, tile := i })))

/-- The units of the core of a rank (R95). -/
def TaskCtx.atShare (c : TaskCtx) (rank cores : Nat) : List AtUnit :=
  let us := c.atUnits
  ((us.zip (List.range us.length)).filter (fun p => coreOf us.length cores p.2 = rank)).map (fun p => p.1)

/-! ## Check 1 (R158, R159, R175) -/

/-- A slot's FP32 tensor whose dimension 0 is planned in multiples of 16 (R158; the capacity, DEDUCED, log entry 39). -/
def fp32By16 (t : Tensor) : Option Nat := firstFault [formatIn t [0x00], faultIf (t.cap 0 % 16 ≠ 0) (offTensor t.slot (tOffCap 0))]

/-- A tensor (D, L, heads, B). -/
def headsAre (t : Tensor) (D l h n : Nat) : Option Nat :=
  firstFault [faultIf (t.ext 0 ≠ D) (offTensor t.slot (tOffCap 0)), rowsAre t l h n, flatFrom t 4]

/-- The formats of an output: any float but W16 (R158). -/
def atOutFormats : List Nat := [0x00, 0x01, 0x02, 0x03, 0x04, 0x05, 0x06, 0x07]

/-- The formats of Q, K, V and dO. -/
def atInFormats : List Nat := [0x01, 0x02, 0x03, 0x04]

/-- The slots of each mode: whether each is required, and its ROLE (R158). -/
def atSlots (mode : Nat) (paged : Bool) : List (Bool × Nat) :=
  match mode with
  | 2 => [(true, 0), (true, 0), (false, 0), (true, 1), (true, 1)]
  | 3 => [(true, 0), (true, 0), (true, 0), (true, 0), (true, 0), (false, 0), (true, 1), (true, 1)]
  | 4 => [(true, 0), (true, 0), (true, 0), (true, 0), (true, 0), (false, 0), (true, 1)]
  | _ => [(true, 0), (true, 0), (!paged, 0), (true, 1), (true, 1)]

/-- The extents and formats of a mode's slots. -/
def atSlotFault (c : TaskCtx) : Option Nat :=
  let d := c.desc
  let D := d.atD
  let q := c.tensor 0
  let lq := c.atLq
  let lk := c.atLk
  let h := c.atH
  let n := c.atB
  match d.atMode with
  | 2 => firstFault [
      formatIn q [0x00], faultIf (q.ext 0 ≠ D) (offTensor 0 (tOffCap 0)), faultIf (c.atS = 0 || decide (64 < c.atS)) (offTensor 0 (tOffCap 4)),
      fp32By16 (c.tensor 1), faultIf ((c.tensor 1).ext 0 ≠ lq) (offTensor 1 (tOffCap 0)), rowsAre (c.tensor 1) 2 h n,
      faultIf ((c.tensor 1).ext 4 ≠ c.atS) (offTensor 1 (tOffCap 4)),
      formatIn (c.tensor 3) atOutFormats, headsAre (c.tensor 3) D lq h n,
      fp32By16 (c.tensor 4), headsAre (c.tensor 4) lq 1 h n]
  | _ => firstFault [
      formatIn q atInFormats, headsAre q D lq h n,
      if d.atPaged then firstFault [formatIn (c.tensor 1) [0x0A], extsAre (c.tensor 1) (c.atHkv / (1024 / D)) n, flatFrom (c.tensor 1) 2]
        else firstFault [formatIn (c.tensor 1) atInFormats, headsAre (c.tensor 1) D lk c.atHkv n, formatIn (c.tensor 2) atInFormats,
          headsAre (c.tensor 2) D lk c.atHkv n],
      faultIf (pairing c.atFQ c.atFK).isNone (offTensor 1 tOffFormat),
      if d.atMode ≤ 1 then firstFault [
          formatIn (c.tensor 3) (if d.atMode = 0 then atOutFormats else [0x00]), headsAre (c.tensor 3) D lq h n,
          fp32By16 (c.tensor 4), headsAre (c.tensor 4) lq (if d.atMode = 0 then 1 else 2) h n]
        else firstFault [
          formatIn (c.tensor 3) atInFormats, headsAre (c.tensor 3) D lq h n, fp32By16 (c.tensor 4), headsAre (c.tensor 4) lq 2 h n,
          formatIn (c.tensor 6) atOutFormats, if d.atMode = 3 then headsAre (c.tensor 6) D lk c.atHkv n else headsAre (c.tensor 6) D lq h n,
          whenOn (d.atMode = 3) (firstFault [formatIn (c.tensor 7) atOutFormats, headsAre (c.tensor 7) D lk c.atHkv n])],
      whenOn (d.uses 5) (firstFault [formatIn (c.tensor 5) [0x0A], faultIf (d.role 5 ≠ 0) (offRole 5), rowsAre (c.tensor 5) 4 1 n,
        flatFrom (c.tensor 5) 4,
        faultIf (if d.atPaged then decide ((c.tensor 5).ext 0 < lq) else (c.tensor 5).ext 0 ≠ max lq lk) (offTensor 5 (tOffCap 0))])]

/-- Check 1 of an attention task. -/
def attentionCheck (c : TaskCtx) : Option Nat :=
  let d := c.desc
  let paged := d.atPaged
  firstFault [
    faultIf (d.banks ≠ 4) offBanks, faultIf (decide (d.coveUnits < (if d.atMode ≤ 2 then 16 else 24))) offCove,
    faultIf (decide (5 ≤ d.atMode)) 103, faultIf (paged && decide (2 ≤ d.atMode)) 101, faultIf (!(headDim d.atD)) 100,
    faultIf (d.atGroup = 0 || decide (64 < d.atGroup) || c.atH % d.atGroup ≠ 0) 99,
    slotsRead d (atSlots d.atMode paged), d.used.findSome? (fun s => compIn (c.tensor s) [0]),
    faultIf (paged && d.uses 2) (offSlot 2), faultIf (d.atSeg && d.atMode ≠ 2 && !(d.uses 5)) 101,
    atSlotFault c,
    faultIf ((List.range d.cores).any (fun r => decide (4 < ((c.atShare r d.cores).map (fun u => (u.bat, u.h))).eraseDups.length))) 24 ]

/-! ## Positions, masks, scores (R160, R161) -/

/-- A position or segment of the aux slot: plane 0 q position, 1 q segment, 2 k position, 3 k segment. -/
def Block.atAux (b : Block) (a : Access) (c : TaskCtx) (plane i bat : Nat) : Res Int :=
  if c.desc.uses 5 then (b.elemCode a (c.tensor 5) i (plane, 0, bat, 0)).map (fun x => sext 32 x)
  else .ok (match plane with
    | 0 => (c.desc.atQPos + i : Nat)
    | 2 => (c.desc.atKPos + i : Nat)
    | _ => 0)

/-- The positions and segments of `n` indices from `lo`. -/
def Block.atPlaces (b : Block) (a : Access) (c : TaskCtx) (plane lo n bat : Nat) : Res (List (Int × Int)) :=
  mapRes (fun i => match b.atAux a c plane (lo + i) bat with
    | .error e => .error e
    | .ok p => (b.atAux a c (plane + 1) (lo + i) bat).map (fun s => (p, s))) (List.range n)

/-- Whether a pair is masked (R161), beyond the keys' end. -/
def atMasked (d : TaskDesc) (q k : Int × Int) : Bool :=
  (d.atCausal && decide (q.1 < k.1)) || (d.atSeg && q.2 ≠ k.2) || (d.atWindow ≠ 0 && decide ((d.atWindow : Int) ≤ (q.1 - k.1).natAbs))

/-- The distance bucket (R160). -/
def distBucket (delta : Int) : Nat :=
  let a := delta.natAbs
  let x := if a < 64 then a else let e := Nat.log2 a; min 511 (64 + 16 * (e - 6) + a >>> (e - 4) % 16)
  if 0 ≤ delta then x else 512 + x

/-- A distance bias as a value; -0 without one. -/
def Block.atBiasOf (b : Block) (a : Access) (c : TaskCtx) (h : Nat) (q k : Int) : Res Val :=
  if c.desc.atBias then (b.rdNat a 8 (c.desc.atTable + h * 4096 + 4 * distBucket (k - q)) 4).map f32 else .ok (.fin true 0 0)

/-- A sum of products of two rows as R81-R85 forms it. -/
def dotF (plain : Bool) (p : Nat) (xs ys : List Val) : Nat :=
  sumEnd (sumGroups plain p (xs.length + 1) (xs.zip (ys.map (fun y => [y]))) (0, 0))

/-- A score: t = v × SCALE + bias, rounded once (R160). -/
def atScore (d : TaskDesc) (p : Nat) (q k : List Val) (bias : Val) : Nat :=
  toF32 (addV (mulV (f32 (dotF d.atPlain p q k)) (f32 d.atScale)) bias)

/-- Weights rounded to an element format: MX scales over 32 keys (R162, R62; in backward along the keys too, DEDUCED, log entry 39). -/
def roundWeights (fmt : Nat) (ps : List Nat) : List Val :=
  let t := parseTensor 0 0 []
  let o := convWith { t with fmt := fmt } (ps.map (fun _ => .nearest)) (ps.map f32)
  (List.range ps.length).map (fun j =>
    if isMx fmt then mxValue fmt (o.scales.getD (j / 32) 0) (o.codes.getD j 0)
    else match floatFmt fmt with
      | some f => decodeF f (o.codes.getD j 0)
      | none => .nan)

/-! ## Keys, paged or not -/

/-- What the keys of a (batch, KV head) are on a core: their count and where K and V lie: in slots 1 and 2, or in the pages of a sequence that the task
holds. -/
structure AtKeys where
  bat : Nat
  hk : Nat
  len : Nat
  core : Nat
  seq : Option Nat
  pages : Tab Nat
deriving DecidableEq, Repr

/-- A key's row, of K or V. -/
def Block.atKeyRow (b : Block) (a : Access) (c : TaskCtx) (ks : AtKeys) (value : Bool) (j : Nat) : Res (List Val) :=
  match ks.seq with
  | none => b.rowVals a (c.tensor (if value then 2 else 1)) (j, ks.hk, ks.bat, 0)
  | some q => match tabFind ks.pages (kvKey ks.core q (j / 16)) with
    | none => .error (kvUnmapped q)
    | some p => match b.kvPageVa a p with
      | .error e => .error e
      | .ok va => mapRes (fun d => (b.rdNat a 8 (va + kvByte c.desc.atD (j % 16) (ks.hk % (1024 / c.desc.atD)) d value) 2).map (fun x =>
          match floatFmt c.desc.atKvFmt with
          | some f => decodeF f x
          | none => .nan)) (List.range c.desc.atD)

/-- A key row that some query uses; a key that none uses is not read (R161). -/
def Block.atKeyUsed (b : Block) (a : Access) (c : TaskCtx) (ks : AtKeys) (value : Bool) (used : List Bool) (lo : Nat) : Res (List (List Val)) :=
  mapRes (fun p => if p.1 then b.atKeyRow a c ks value (lo + p.2) else .ok []) (used.zip (List.range used.length))

/-! ## Forward (R162, R163) -/

/-- A query row in progress: m, l.s and l.c, O.s and O.c, whether it is marked NaN, and its rescales. -/
structure AtRow where
  m : Nat
  l : Nat × Nat
  o : List (Nat × Nat)
  nan : Bool
  rescales : Nat
deriving DecidableEq, Repr

/-- A row before its first block. -/
def AtRow.start (D : Nat) : AtRow := { m := 0xFF800000, l := (0, 0), o := List.replicate D (0, 0), nan := false, rescales := 0 }

/-- One block of 128 keys enters a row (R162): `ts` are its scores, a masked key's -∞, and `vs` the value rows. m changes only where the block raises it. -/
def AtRow.block (r : AtRow) (d : TaskDesc) (fv : Nat) (ts : List Nat) (vs : List (List Val)) : AtRow :=
  if r.nan then r
  else
    let mn := maxF r.m (tree256 1 ts)
    if f32 mn = .nan then { r with nan := true }
    else if mn = 0xFF800000 then r
    else
      let up := ltV (f32 r.m) (f32 mn)
      let alpha := exp2F (mulF (subF r.m mn) cLog2e)
      let scale (x : Nat × Nat) : Nat × Nat := if up then (mulF x.1 alpha, mulF x.2 alpha) else x
      let m := if up then mn else r.m
      let pr := roundWeights fv (ts.map (fun t => exp2F (mulF (subF t m) cLog2e)))
      let l := sumStep d.atPlain (scale r.l) (tree256 0 (pr.map toF32))
      let o := (r.o.zip (List.range r.o.length)).map (fun x =>
        sumGroups d.atPlain (pairP fv fv) (pr.length + 1) (pr.zip (vs.map (fun v => [v.getD x.2 (.fin false 0 0)]))) (scale x.1))
      { m := m, l := l, o := o, nan := false, rescales := r.rescales + b2n up }

/-- What a unit's run gives: rows by index, blocks skipped, blocks issued, and pages demanded. -/
structure AtTile where
  rows : List (Nat × AtRow)
  skipped : Nat
  issued : Nat
deriving DecidableEq, Repr

/-- The masks of a (query tile, key block) pair: by query row, by key. -/
def atMasks (d : TaskDesc) (len lo : Nat) (qs ks : List (Int × Int)) : List (List Bool) :=
  qs.map (fun q => (ks.zip (List.range ks.length)).map (fun k => decide (len ≤ lo + k.2) || atMasked d q k.1))

/-- The keys of a block that some query of the tile uses. -/
def usedKeys (masks : List (List Bool)) (n : Nat) : List Bool := (List.range n).map (fun j => masks.any (fun r => !(r.getD j true)))

/-- The scores of a query row over a block. -/
def Block.atScores (b : Block) (a : Access) (c : TaskCtx) (h : Nat) (q : List Val) (pq : Int) (mask : List Bool) (ks : List (List Val))
    (pk : List (Int × Int)) : Res (List (Option Nat)) :=
  mapRes (fun x => if x.1 then .ok none
    else (b.atBiasOf a c h pq x.2.2.1).map (fun w => some (atScore c.desc (pairP c.atFQ c.atFK) q x.2.1 w))) (mask.zip (ks.zip pk))

/-- One key block of a forward tile. -/
def Block.atForwardBlock (b : Block) (a : Access) (c : TaskCtx) (u : AtUnit) (ks : AtKeys) (qs : List (List Val)) (pq : List (Int × Int))
    (x : AtTile) (blk : Nat) : Res AtTile :=
  let lo := 128 * blk
  let n := min 128 (ks.len - lo)
  match b.atPlaces a c 2 lo n u.bat with
  | .error e => .error e
  | .ok pk =>
    let masks := atMasks c.desc ks.len lo pq pk
    let used := usedKeys masks n
    if used.all (fun y => !y) then .ok { x with skipped := x.skipped + 1 }
    else match b.atKeyUsed a c ks false used lo with
      | .error e => .error e
      | .ok kr => match b.atKeyUsed a c ks true used lo with
        | .error e => .error e
        | .ok vr => match mapRes (fun p => (b.atScores a c u.h p.2.1 p.2.2.1.1 p.2.2.2 kr pk).map (fun ts =>
              (p.1.1, p.1.2.block c.desc c.atFV (ts.map (fun t => t.getD 0xFF800000)) vr)))
            (x.rows.zip (qs.zip (pq.zip masks))) with
          | .error e => .error e
          | .ok rows => .ok { x with rows := rows, issued := x.issued + 1 }

/-- Blocks one after another. -/
def foldRes {α β : Type} (f : β → α → Res β) : β → List α → Res β
  | y, [] => .ok y
  | y, x :: xs => match f y x with
    | .error e => .error e
    | .ok z => foldRes f z xs

/-- The keys of a (batch, query head) that no pages hold. -/
def TaskCtx.atKeysOf (c : TaskCtx) (bat h : Nat) : AtKeys :=
  { bat := bat, hk := h / c.desc.atGroup, len := c.atLk, core := 0, seq := none, pages := [] }

/-- The rows of a query tile. -/
def TaskCtx.atTileRows (c : TaskCtx) (u : AtUnit) : List Nat :=
  ((List.range 128).map (fun i => 128 * u.tile + i)).filter (fun i => decide (i < c.atLq))

/-- The list entries of a sequence that a query tile demands: those of the pages that hold a key some query of the tile uses. No page of a skipped block is among
them (R161, R171; DEDUCED, log entry 39). -/
def Block.atPages (b : Block) (a : Access) (c : TaskCtx) (u : AtUnit) (len : Nat) : Res (List Nat) :=
  match b.atPlaces a c 0 (128 * u.tile) (c.atTileRows u).length u.bat with
  | .error e => .error e
  | .ok pq => concatRes (fun blk =>
      let lo := 128 * blk
      let n := min 128 (len - lo)
      (b.atPlaces a c 2 lo n u.bat).map (fun pk =>
        let used := usedKeys (atMasks c.desc len lo pq pk) n
        ((List.range 8).filter (fun i => ((used.drop (16 * i)).take 16).any (fun x => x))).map (fun i => 8 * blk + i))) (List.range (cdiv len 128))

/-- The keys of a forward tile: of a paged task, its sequence's entry and pages, demanded where the task does not hold them (R170, R171). -/
def Block.atDemand (b : Block) (a : Access) (c : TaskCtx) (w : KvWalk) (core : Nat) (u : AtUnit) : KvWalk × Res AtKeys :=
  let ks := c.atKeysOf u.bat u.h
  if c.desc.atPaged then
    match b.elemCode a (c.tensor 1) (ks.hk / (1024 / c.desc.atD)) (u.bat, 0, 0, 0) with
    | .error e => (w, .error e)
    | .ok q => match b.kvUse a w q with
      | (w, some e) => (w, .error e)
      | (w, none) =>
        let len := (w.held.seq q).length
        match b.atPages a c u len with
        | .error e => (w, .error e)
        | .ok is => match b.kvDemands a core q w is with
          | (w, some e) => (w, .error e)
          | (w, none) => (w, .ok { ks with len := len, core := core, seq := some q, pages := w.held.pages })
  else (w, .ok ks)

/-- A forward tile (R162). -/
def Block.atForwardTile (b : Block) (a : Access) (c : TaskCtx) (ks : AtKeys) (u : AtUnit) : Res AtTile :=
  let is := c.atTileRows u
  match mapRes (fun i => b.rowVals a (c.tensor 0) (i, u.h, u.bat, 0)) is with
  | .error e => .error e
  | .ok qs => match b.atPlaces a c 0 (128 * u.tile) is.length u.bat with
    | .error e => .error e
    | .ok pq => foldRes (b.atForwardBlock a c u ks qs pq)
        { rows := is.map (fun i => (i, AtRow.start c.desc.atD)), skipped := 0, issued := 0 } (List.range (cdiv ks.len 128))

/-- A finished row's outputs: O's values, and what goes to LSE, or m and L (R163). The last part says whether the row is empty. -/
def AtRow.outputs (r : AtRow) (mode : Nat) : List Nat × List Nat × Bool :=
  let L := sumEnd r.l
  if r.nan then (r.o.map (fun _ => 0x7FC00000), if mode = 0 then [0x7FC00000] else [0x7FC00000, 0x7FC00000], false)
  else if mode = 1 then (r.o.map sumEnd, [r.m, L], (f32 L).isZero)
  else if (f32 L).isZero then (r.o.map (fun _ => 0), [0xFF800000], true)
  else (r.o.map (fun x => mulF (sumEnd x) (rcpF L)), [addF (mulF r.m cLog2e) (log2F L)], false)

/-- A row converted into a tensor, or stored as it is into an FP32 one. -/
def Block.atRowOut (b : Block) (a : Access) (t : Tensor) (r : Row) (xs : List Nat) : Res Stored :=
  let o := convRow a t r xs
  (b.rowCells a t r o).map (fun cs => { cells := cs, stats := o.stats })

/-- One value along dimension 0 of an FP32 tensor. -/
def Block.atPut (b : Block) (a : Access) (t : Tensor) (i : Nat) (r : Row) (x : Nat) : Res (List Host.Cell) :=
  b.wrCells a t.slot (t.rowVa r + 4 * i) (leBytes 4 x)

/-- The stores of a query row (R163). -/
def Block.atForwardOut (b : Block) (a : Access) (c : TaskCtx) (u : AtUnit) (i : Nat) (o : List Nat × List Nat) : Res Stored :=
  match b.atRowOut a (c.tensor 3) (i, u.h, u.bat, 0) o.1 with
  | .error e => .error e
  | .ok st => match concatRes (fun p => b.atPut a (c.tensor 4) i (p.2, u.h, u.bat, 0) p.1) (o.2.zip (List.range o.2.length)) with
    | .error e => .error e
    | .ok cs => .ok { st with cells := st.cells ++ cs }

/-! ## The run -/

/-- What a unit's run gives: its rows, those of dV beside them in mode 3, and its counts: rescales, skipped blocks, empty rows, issuing cycles. -/
structure AtRun where
  rows : List (Res Stored)
  second : List (Res Stored)
  rescales : Nat
  skipped : Nat
  empties : Nat
  issued : Nat
deriving DecidableEq, Repr

/-- A core's units in order, up to the first that stops. -/
def atUnitsRun (f : KvWalk → AtUnit → KvWalk × Res AtRun) : KvWalk → List AtUnit → KvWalk × List (Res AtRun)
  | w, [] => (w, [])
  | w, u :: us => match f w u with
    | (w, .error e) => (w, [.error e])
    | (w, .ok x) =>
      let y := atUnitsRun f w us
      (y.1, .ok x :: y.2)

/-- Every unit on its core. -/
def TaskCtx.atRunAll (c : TaskCtx) (f : KvWalk → Nat → AtUnit → KvWalk × Res AtRun) : KvWalk × List (List (Res AtRun)) :=
  walkCores (fun w core us => atUnitsRun (fun w u => f w core u) w us) c.kvStart
    (c.cores.zip ((List.range c.cores.length).map (fun rank => c.atShare rank c.cores.length)))

/-- The units of a run that were made, by core. -/
def atMade (l : List (List (Res AtRun))) : List (List AtRun) := l.map (fun us => us.filterMap (fun r => r.toOption))

/-- The counts of rows stored. -/
def rowStats (l : List (Res Stored)) : ConvStats := (l.filterMap (fun r => r.toOption.map (fun x => x.stats))).foldl ConvStats.add ConvStats.zero

/-- The writes of a core: a unit's rows when it finishes (R173). Where a unit stops, those before it that no longer stood beside it are written: in modes 0 and 1 a
core keeps two units live (R159). -/
def TaskCtx.atPieces (c : TaskCtx) (l : List (Res AtRun)) : List Piece :=
  (l.foldl (fun (x : List Piece × List Nat) r =>
    let starts := x.2 ++ [x.1.length]
    match r with
    | .error e => (x.1 ++ [{ out := .error e, sure := starts.getD (starts.length - (if c.desc.atMode ≤ 1 then 2 else 1)) 0 }], starts)
    | .ok o => ((o.rows ++ o.second).foldl (fun ps y => ps ++ [{ out := y.map (fun st => st.cells), sure := ps.length }]) x.1, starts))
    (([] : List Piece), ([] : List Nat))).1

/-- The array cycles of a block: its products, each as long as its sum over P (R167). -/
def atCycles (l : List (Nat × Nat)) : Nat := (l.map (fun p => cdiv p.1 p.2)).sum

/-- A forward unit on a core (R162, R163, R170). -/
def Block.atForwardUnit (b : Block) (a : Access) (c : TaskCtx) (w : KvWalk) (core : Nat) (u : AtUnit) : KvWalk × Res AtRun :=
  match b.atDemand a c w core u with
  | (w, .error e) => (w, .error e)
  | (w, .ok ks) => (w, (b.atForwardTile a c ks u).map (fun x =>
      let outs := x.rows.map (fun r => (r.1, r.2.outputs c.desc.atMode))
      let cycles := atCycles [(c.desc.atD, pairP c.atFQ c.atFK), (128, pairP c.atFV c.atFV)]
      { rows := outs.map (fun r => b.atForwardOut a c u r.1 (r.2.1, r.2.2.1)), second := [], rescales := (x.rows.map (fun r => r.2.rescales)).sum,
        skipped := x.skipped, empties := (outs.filter (fun r => r.2.2.2)).length, issued := x.issued * cycles }))

/-- A register that counts up, wrapping. -/
def Block.addReg (b : Block) (r n : Nat) : Block := b.modReg r (fun w => w + BitVec.ofNat 64 n)

/-- A core's counters after a run (R112, R161-R163, R176); what its banks hold is free (log entry 32). -/
def Block.atCount (b : Block) (n : Nat) (l : List AtRun) : Block :=
  ((((b.addReg (vxReg n 0x10) (l.map (fun x => x.rescales)).sum).addReg (vxReg n 0x18) (l.map (fun x => x.skipped)).sum).addReg
    (vxReg n 0x20) (l.map (fun x => x.empties)).sum).addReg (mxReg n 8) (l.map (fun x => x.issued)).sum).clearBanks n

/-- The same of every core. -/
def Block.atCounts (b : Block) (c : TaskCtx) (l : List (List (Res AtRun))) : Block :=
  ((c.cores.zip (atMade l)).foldl (fun x p => x.atCount p.1 p.2) b).vxIssuedFree c

/-- The counters of a core whose run was broken off: how far it had come, timing decides, so they are free values (log entry 73). -/
def Block.atCountParts (b : Block) (c : TaskCtx) : Block :=
  c.cores.foldl (fun x n =>
    ([vxReg n 0x10, vxReg n 0x18, vxReg n 0x20, mxReg n 8].foldl (fun y r => let f := y.fresh; f.2.addReg r f.1) x).clearBanks n) b

/-- An attention task's end: captures and status. -/
def Block.atEnd (b : Block) (t : TaskRef) (g : Graph) (c : TaskCtx) (l : List AtRun) : Block :=
  let d := c.desc
  let empty := c.emptyDetail
  let words (x : List (Res Stored)) : List Word := captureWords g.step (if empty.isSome then ConvStats.zero else rowStats x) empty.isSome
  let caps : List StatCapture :=
    if ¬ d.atStatEn ∨ d.atMode = 1 then []
    else { slot := Fin.ofNat 4096 d.atStatSlot, words := words (l.flatMap (fun x => x.rows)) } ::
      (if d.atMode = 3 then [{ slot := Fin.ofNat 4096 (d.atStatSlot + 1), words := words (l.flatMap (fun x => x.second)) }] else [])
  let b1 := b.modTask t (fun c => { c with stats := caps })
  match empty with
  | some det => b1.fix t stOkEmpty det
  | none => b1.fix t stOk 0

/-- The landing of an attention task's run, and its end (R173); a parity error of a bank ends it part of the way (R79). -/
def Block.atLand (b : Block) (t : TaskRef) (g : Graph) (c : TaskCtx) (parity : Option BankUpset) (run : KvWalk × List (List (Res AtRun))) : Block :=
  let a := b.taskAccess t.half g c
  let shares := run.2.map (fun l => c.atPieces l)
  let b0 := b.kvWalked t run.1
  match c.struck t.half parity with
  | some u => (((b0.landSome shares).atCountParts c).vxIssuedFree c).bankError t u
  | none =>
    let r := b0.landRun shares
    match r.2 with
    | some (.need d n) => r.1.kvStop t a c (.need d n)
    | some e => (r.1.atCountParts c).kvStop t a { c with kv := run.1.held } e
    | none => ((r.1.atCounts c run.2).kvRunAhead a run.1.held).atEnd t g c (atMade run.2).flatten

/-- A command of an attention mode: while one of the task's arrays is halted it goes no further (R111). -/
def Block.attention (b : Block) (t : TaskRef) (mode : Nat) (parity : Option BankUpset)
    (f : Block → Access → TaskCtx → KvWalk → Nat → AtUnit → KvWalk × Res AtRun) : Block :=
  b.onMode t 0x03 mode (fun g c =>
    let a := b.taskAccess t.half g c
    if b.anyHalted c then b
    else
      let b0 := b.touch t g c
      b0.atLand t g c parity (c.atRunAll (f b0 a c)))

/-- ATTN_FORWARD (R162, R163). -/
def execAttnForward (t : TaskRef) (parity : Option BankUpset) (s : State) : Host.Outcome State Fault Refusal :=
  s.act (fun b => b.attention t 0 parity (fun b a c => b.atForwardUnit a c))

/-- ATTN_FORWARD_PARTIAL (R163): the partial O, m and L, unconverted. -/
def execAttnForwardPartial (t : TaskRef) (parity : Option BankUpset) (s : State) : Host.Outcome State Fault Refusal :=
  s.act (fun b => b.attention t 1 parity (fun b a c => b.atForwardUnit a c))

/-! ## Combine (R164) -/

/-- A row from its partials: O's values, lse2, and whether it is empty. -/
def combineRow (ms ls : List Nat) (os : List (List Nat)) (D : Nat) : List Nat × List Nat × Bool :=
  let mx := ms.foldl maxF 0xFF800000
  if f32 mx = .nan then (List.replicate D 0x7FC00000, [0x7FC00000], false)
  else if mx = 0xFF800000 then (List.replicate D 0, [0xFF800000], true)
  else
    let acc := ((ms.zip (ls.zip os)).filter (fun p => p.1 ≠ 0xFF800000)).foldl (fun (x : List Nat × Nat) p =>
      let alpha := exp2F (mulF (subF p.1 mx) cLog2e)
      ((x.1.zip p.2.2).map (fun q => fmaF alpha q.2 q.1), fmaF alpha p.2.1 x.2)) (List.replicate D 0, 0)
    (acc.1.map (fun o => mulF o (rcpF acc.2)), [addF (mulF mx cLog2e) (log2F acc.2)], false)

/-- A query tile of a combine. -/
def Block.atCombineUnit (b : Block) (a : Access) (c : TaskCtx) (u : AtUnit) : Res AtRun :=
  let ss := List.range c.atS
  (mapRes (fun i =>
    match mapRes (fun s => (b.elemCode a (c.tensor 1) i (0, u.h, u.bat, s))) ss with
    | .error e => .error e
    | .ok ms => match mapRes (fun s => (b.elemCode a (c.tensor 1) i (1, u.h, u.bat, s))) ss with
      | .error e => .error e
      | .ok ls => (mapRes (fun s => b.rowF32 a (c.tensor 0) (i, u.h, u.bat, s)) ss).map (fun os => (i, combineRow ms ls os c.desc.atD)))
    (c.atTileRows u)).map (fun outs =>
      { rows := outs.map (fun r => b.atForwardOut a c u r.1 (r.2.1, r.2.2.1)), second := [], rescales := 0, skipped := 0,
        empties := (outs.filter (fun r => r.2.2.2)).length, issued := 0 })

/-- ATTN_COMBINE (R164): the array issues nothing. -/
def execAttnCombine (t : TaskRef) (s : State) : Host.Outcome State Fault Refusal :=
  s.act (fun b => b.attention t 2 none (fun b a c w _ u => (w, b.atCombineUnit a c u)))

/-! ## Backward (R166) -/

/-- What a (query tile, key block) pair of a backward task gives: for each query row, pr and dsr by key; none where masked. -/
structure AtBack where
  is : List Nat
  pr : List (List Val)
  dsr : List (List Val)
  dos : List (List Val)
  qs : List (List Val)
  ks : List (List Val)
deriving DecidableEq, Repr

/-- One row's pr and dsr over a block. -/
def backRow (c : TaskCtx) (ts : List (Option Nat)) (lse delta : Nat) (dov : List Val) (vs : List (List Val)) : List Val × List Val :=
  let ps := ts.map (fun t => match t with
    | none => 0
    | some t => if lse = 0xFF800000 then 0 else exp2F (subF (mulF t cLog2e) lse))
  let ds := ((ts.zip ps).zip vs).map (fun x => match x.1.1 with
    | none => 0
    | some _ => mulF x.1.2 (subF (dotF c.desc.atPlain (pairP c.atFdO c.atFV) dov x.2) delta))
  (roundWeights c.atFdO ps, roundWeights c.atFQ ds)

/-- A (query tile, key block) pair of a query head: none when it is skipped. -/
def Block.atBackBlock (b : Block) (a : Access) (c : TaskCtx) (bat h qt kb : Nat) : Res (Option AtBack) :=
  let u : AtUnit := { bat := bat, h := h, tile := qt }
  let is := c.atTileRows u
  let ks := c.atKeysOf bat h
  let lo := 128 * kb
  let n := min 128 (ks.len - lo)
  match b.atPlaces a c 0 (128 * qt) is.length bat with
  | .error e => .error e
  | .ok pq => match b.atPlaces a c 2 lo n bat with
    | .error e => .error e
    | .ok pk =>
      let masks := atMasks c.desc ks.len lo pq pk
      let used := usedKeys masks n
      if used.all (fun y => !y) then .ok none
      else match b.atKeyUsed a c ks false used lo with
        | .error e => .error e
        | .ok kr => match b.atKeyUsed a c ks true used lo with
          | .error e => .error e
          | .ok vr => match mapRes (fun p =>
              match b.rowVals a (c.tensor 0) (p.1, h, bat, 0) with
              | .error e => .error e
              | .ok q => match b.rowVals a (c.tensor 3) (p.1, h, bat, 0) with
                | .error e => .error e
                | .ok dov => match b.elemCode a (c.tensor 4) p.1 (0, h, bat, 0) with
                  | .error e => .error e
                  | .ok lse => match b.elemCode a (c.tensor 4) p.1 (1, h, bat, 0) with
                    | .error e => .error e
                    | .ok delta => (b.atScores a c h q p.2.1.1 p.2.2 kr pk).map (fun ts =>
                        (q, dov, backRow c ts lse delta dov vr))) (is.zip (pq.zip masks)) with
            | .error e => .error e
            | .ok rows =>
              let x : AtBack :=
                { is := is, pr := rows.map (fun r => r.2.2.1), dsr := rows.map (fun r => r.2.2.2), dos := rows.map (fun r => r.2.1),
                  qs := rows.map (fun r => r.1), ks := kr }
              .ok (some x)

/-- Additions over a list of weights and rows, per element of D. -/
def addRows (d : TaskDesc) (p : Nat) (ws : List Val) (rows : List (List Val)) (acc : List (Nat × Nat)) : List (Nat × Nat) :=
  (acc.zip (List.range acc.length)).map (fun x =>
    sumGroups d.atPlain p (ws.length + 1) (ws.zip (rows.map (fun r => [r.getD x.2 (.fin false 0 0)]))) x.1)

/-- A key tile of mode 3: dV and dK of its keys, over the query heads of the group and their rows, ascending. -/
def Block.atBackKeyUnit (b : Block) (a : Access) (c : TaskCtx) (u : AtUnit) : Res AtRun :=
  let d := c.desc
  let js := ((List.range 128).map (fun j => 128 * u.tile + j)).filter (fun j => decide (j < c.atLk))
  let zero : List (List (Nat × Nat)) := js.map (fun _ => List.replicate d.atD (0, 0))
  let pairs := (List.range d.atGroup).flatMap (fun x => (List.range (cdiv c.atLq 128)).map (fun t => (u.h * d.atGroup + x, t)))
  match mapRes (fun p => b.atBackBlock a c u.bat p.1 p.2 u.tile) pairs with
  | .error e => .error e
  | .ok bs =>
    let live := bs.filterMap (fun x => x)
    let col (l : List (List Val)) (j : Nat) : List Val := l.map (fun r => r.getD j (.fin false 0 0))
    let ix := zero.zip (List.range js.length)
    let dv := ix.map (fun x => live.foldl (fun acc y => addRows d (pairP c.atFdO c.atFdO) (col y.pr x.2) y.dos acc) x.1)
    let dk := ix.map (fun x => live.foldl (fun acc y => addRows d (pairP c.atFQ c.atFQ) (col y.dsr x.2) y.qs acc) x.1)
    let at_ (j : Nat) : Row := (j, u.h, u.bat, 0)
    let cycles := atCycles [(d.atD, pairP c.atFQ c.atFK), (d.atD, pairP c.atFdO c.atFV), (128, pairP c.atFdO c.atFdO), (128, pairP c.atFQ c.atFQ)]
    .ok { rows := (js.zip dk).map (fun p => b.atRowOut a (c.tensor 6) (at_ p.1) (p.2.map (fun x => mulF (sumEnd x) d.atScale))),
          second := (js.zip dv).map (fun p => b.atRowOut a (c.tensor 7) (at_ p.1) (p.2.map sumEnd)),
          rescales := 0, skipped := bs.length - live.length, empties := 0, issued := live.length * cycles }

/-- ATTN_BACKWARD_DKDV (R166). With no query there is nothing to add, and no key tile runs. -/
def execAttnBackwardDkDv (t : TaskRef) (parity : Option BankUpset) (s : State) : Host.Outcome State Fault Refusal :=
  s.act (fun b => b.attention t 3 parity (fun b a c w _ u =>
    (w, if c.atLq = 0 then .ok { rows := [], second := [], rescales := 0, skipped := 0, empties := 0, issued := 0 } else b.atBackKeyUnit a c u)))

/-- A query tile of mode 4: dQ of its rows, over the keys ascending. -/
def Block.atBackQueryUnit (b : Block) (a : Access) (c : TaskCtx) (u : AtUnit) : Res AtRun :=
  let d := c.desc
  let is := c.atTileRows u
  (mapRes (fun kb => b.atBackBlock a c u.bat u.h u.tile kb) (List.range (cdiv c.atLk 128))).map (fun bs =>
    let live := bs.filterMap (fun x => x)
    let dq := (is.zip (List.range is.length)).map (fun p => (p.1, live.foldl (fun acc y =>
      addRows d (pairP c.atFQ c.atFK) (y.dsr.getD p.2 []) y.ks acc) (List.replicate d.atD (0, 0))))
    { rows := dq.map (fun p => b.atRowOut a (c.tensor 6) (p.1, u.h, u.bat, 0) (p.2.map (fun x => mulF (sumEnd x) d.atScale))), second := [],
      rescales := 0, skipped := bs.length - live.length, empties := 0,
      issued := live.length * atCycles [(d.atD, pairP c.atFQ c.atFK), (d.atD, pairP c.atFdO c.atFV), (128, pairP c.atFQ c.atFK)] })

/-- ATTN_BACKWARD_DQ (R166). -/
def execAttnBackwardDq (t : TaskRef) (parity : Option BankUpset) (s : State) : Host.Outcome State Fault Refusal :=
  s.act (fun b => b.attention t 4 parity (fun b a c w _ u => (w, b.atBackQueryUnit a c u)))

end Sys2Proof.Machine
end

