-- ==== Sys2Proof/Machine/Gate.lean ====
section
/-! DEFINITION. The update gate (spec/14_when_a_step_fails.md R369-R382; spec/03_number_formats_and_rounding.md R74; spec/13_ebb_and_flood.md
R351): the verdict's block, what a verdict does, CHECK and CHECKPOINT tasks, and the repeat of a step. -/

namespace Sys2Proof.Machine

/-! ## The verdict block (R377) -/

/-- A verdict block's words. -/
structure Verdict where
  w0 : Nat
  w1 : Nat
  w2 : Nat
  w3 : Nat
  recs : List (List Nat)
deriving DecidableEq, Repr

/-- The eight words of 64 bytes. -/
def recordWords (l : List Byte) : List Nat := (List.range 8).map (fun i => u64At l (8 * i))

/-- The block that bytes hold. -/
def parseVerdict (l : List Byte) : Verdict :=
  { w0 := u64At l 0, w1 := u64At l 8, w2 := u64At l 16, w3 := u64At l 24,
    recs := (List.range ((l.length - 32) / 64)).map (fun j => recordWords (l.drop (32 + 64 * j))) }

/-- The bytes of a block. -/
def Verdict.bytes (v : Verdict) : List Byte :=
  leBytes 8 v.w0 ++ leBytes 8 v.w1 ++ leBytes 8 v.w2 ++ leBytes 8 v.w3 ++ (v.recs.map (fun r => (r.map (fun w => leBytes 8 w)).flatten)).flatten

def Verdict.step (v : Verdict) : Nat := bits v.w0 63 32
/-- 0 OPEN, 1 CLOSED, 2 REPEAT -/
def Verdict.code (v : Verdict) : Nat := bits v.w0 31 30
def Verdict.lateEp (v : Verdict) : Nat := bits v.w1 63 48

/-- Two statistics records of one step combined by the equal-step row of R72; an all-zero record is absent. -/
def combineRecords (x y : List Nat) : List Nat :=
  if x.all (fun w => w = 0) then y
  else if y.all (fun w => w = 0) then x
  else
    let g (l : List Nat) (i : Nat) : Nat := l.getD i 0
    let sat (n : Nat) : Nat := min n (2 ^ 64 - 1)
    let origin := if bit (g y 6) 1 then (if bit (g x 6) 1 then min (bits (g x 6) 31 16) (bits (g y 6) 31 16) else bits (g y 6) 31 16)
      else bits (g x 6) 31 16
    [bits (g x 0) 63 32 * 2 ^ 32 + max (bits (g x 0) 31 0) (bits (g y 0) 31 0), sat (g x 1 + g y 1), sat (g x 2 + g y 2), sat (g x 3 + g y 3),
     sat (g x 4 + g y 4), sat (g x 5 + g y 5), origin * 65536 + (g x 6 ||| g y 6) % 8, sat (g x 7 + g y 7)]

/-- Two contributions combined at a chain link (R377). -/
def Verdict.combine (x y : Verdict) : Verdict :=
  { w0 := x.w0 ||| (y.w0 % 16),
    w1 := min (bits x.w1 63 48) (bits y.w1 63 48) * 2 ^ 48 + min (bits x.w1 47 32) (bits y.w1 47 32) * 2 ^ 32 +
      (bits x.w1 31 0 + bits y.w1 31 0) % 2 ^ 32,
    w2 := (bits x.w2 63 32 + bits y.w2 63 32) % 2 ^ 32 * 2 ^ 32, w3 := x.w3,
    recs := (x.recs.zip y.recs).map (fun p => combineRecords p.1 p.2) }

/-! ## Loss scaling (R380) -/

/-- 2^e in FP32, for an 8-bit two's complement e. -/
def pow2F (e : Nat) : Nat := toF32 (.fin false 1 (sext 8 e))

/-- SCALE and RUN after a verdict that is not REPEAT. -/
def nextScale (w0 w1 : Word) (closed : Bool) : Nat × Nat :=
  let scale := fld w0 63 32
  let run := fld w1 15 0
  if fld w0 0 0 = 0 then (scale, run)
  else if closed then (toF32 (maxV (f32 (pow2F (fld w0 23 16))) (f32 (mulF scale 0x3F000000))), 0)
  else if fld w1 31 16 ≤ run + 1 then (toF32 (minV (f32 (pow2F (fld w0 31 24))) (f32 (mulF scale 0x40000000))), 0)
  else (scale, run + 1)

/-- The SCALE that a verdict of this code leaves, which the verdict's LOSS_SCALE carries. -/
def Block.scaleAfter (b : Block) (h : HalfId) (k code : Nat) : Nat :=
  (nextScale (b.reg (gateReg h (0x100 + 16 * k))) (b.reg (gateReg h (0x108 + 16 * k))) (code = 1)).1

/-- A verdict updates GATE_LSCALE_k. -/
def Block.updateScale (b : Block) (h : HalfId) (k : Nat) (closed : Bool) : Block :=
  let r := nextScale (b.reg (gateReg h (0x100 + 16 * k))) (b.reg (gateReg h (0x108 + 16 * k))) closed
  (b.setRegFld (gateReg h (0x100 + 16 * k)) 63 32 r.1).setRegFld (gateReg h (0x108 + 16 * k)) 15 0 r.2

/-! ## The format policy (R74) and the exponent latch (R351) -/

/-- Word `w` of a policy entry. -/
def policyReg (h : HalfId) (k i w : Nat) : Nat := regBase h + 0x1800000 + (k * 4096 + i) * 16 + 8 * w

/-- A latch register (R368). -/
def latchReg (h : HalfId) (k i : Nat) : Nat := regBase h + 0x1400000 + k * 0x8000 + i * 8

/-- A statistics record's words. -/
def Block.statWords (b : Block) (h : HalfId) (k i : Nat) : List Nat := (List.range 8).map (fun w => (b.reg (statReg h k i w)).toNat)

/-- Whether a record is VALID and POST_RED and of a step. -/
def postRecord (r : List Nat) (step : Nat) : Bool := bit (r.getD 6 0) 0 && bit (r.getD 6 0) 1 && decide (bits (r.getD 0 0) 63 32 = step)

/-- CURRENT and RUN after a decision of an unlocked entry. -/
def policyChoice (w0 w1 : Word) (r : List Nat) (step : Nat) : Nat × Nat :=
  let cur := fld w1 1 0
  let run := fld w1 15 8
  if ¬ postRecord r step then (cur, run)
  else if 0 < r.getD 4 0 then (0, 0)
  else if r.getD 1 0 = 0 then (cur, run)
  else
    let u4 := r.getD 2 0 * 65536 / r.getD 1 0
    let u5 := r.getD 3 0 * 65536 / r.getD 1 0
    let cand := if fld w1 3 3 = 1 ∧ u4 ≤ fld w0 31 16 then 2 else if fld w1 2 2 = 1 ∧ u5 ≤ fld w0 15 0 then 1 else 0
    if cand ≤ cur then (cand, 0)
    else
      let n := min (run + 1) 255
      if fld w1 23 16 ≠ 0 ∧ fld w1 23 16 ≤ n then (cand, 0) else (cur, n)

/-- The decision of one entry for a step: an entry whose NEXT_STEP is another is left alone. -/
def Block.policyEntry (b : Block) (h : HalfId) (k step i : Nat) : Block :=
  let w0 := b.reg (policyReg h k i 0)
  let w1 := b.reg (policyReg h k i 1)
  if fld w0 63 32 ≠ step then b
  else
    let r := if fld w1 4 4 = 1 then (fld w1 1 0, 0) else policyChoice w0 w1 (b.statWords h k i) step
    ((b.setRegFld (policyReg h k i 1) 1 0 r.1).setRegFld (policyReg h k i 1) 15 8 r.2).setRegFld (policyReg h k i 0) 63 32 ((step + 1) % 2 ^ 32)

/-- The latch of one record (R351). -/
def Block.latchEntry (b : Block) (h : HalfId) (k step i : Nat) : Block :=
  let r := b.statWords h k i
  if ¬ postRecord r step then b
  else
    let v := match amaxLog [f32 (bits (r.getD 0 0) 31 0)] with
      | some e => step * 2 ^ 32 + 2 ^ 16 + twos 16 (e + 127)
      | none => step * 2 ^ 32
    b.setReg (latchReg h k i) (BitVec.ofNat 64 v)

/-- Every entry and latch of a slot for a decided step. -/
def Block.decideFormats (b : Block) (h : HalfId) (k step : Nat) : Block :=
  let b1 := (List.range 4096).foldl (fun x i => x.policyEntry h k step i) b
  (List.range 4096).foldl (fun x i => x.latchEntry h k step i) b1

/-! ## Holds (R374) -/

/-- A hold header's VALID cleared, in memory. -/
def Block.dropHold (b : Block) (k va : Nat) : Block :=
  match b.translate k va with
  | some (d, p) => if d / 2 ^ 60 = 0 ∧ p.writable then b.store d [b.byte d &&& 0xFE] else b
  | none => b

/-- The holds of a step that a verdict invalidates: those consumed, or those the step wrote. -/
def Block.dropHolds (b : Block) (h : HalfId) (k step : Nat) (consumed : Bool) : Block :=
  match b.stepRecord h k step with
  | none => b
  | some r => ((r.holds.filter (fun p => p.2 = consumed)).map (fun p => p.1)).foldl (fun x va => x.dropHold k va) b

/-! ## The repeat of a step (R381) -/

/-- A verdict reduction that has its result, and only passes it on: it ends with ST_OK (R378). -/
def TaskCtx.hasVerdict (c : TaskCtx) : Bool :=
  c.desc.type = 0x08 && c.desc.pf 0 63 60 = 9 && ((c.coll.map (fun x => !x.landed.isEmpty)).getD false)

/-- The tasks of a slot's graphs of a step or later that a REPEAT ends. -/
def Block.tasksFrom (b : Block) (h : HalfId) (k step : Nat) : List TaskRef :=
  ((b.tasksOf h).filter (fun p => p.2.1.slot = k && decide (step ≤ p.2.1.step) && !p.2.2.hasVerdict)).map (fun p => p.1)

/-- VALID cleared in every record of a slot whose STEP is a step (R72). -/
def Block.clearStats (b : Block) (h : HalfId) (k step : Nat) : Block :=
  (List.range 4096).foldl (fun x i =>
    if fld (x.reg (statReg h k i 0)) 63 32 = step ∧ fld (x.reg (statReg h k i 6)) 0 0 = 1 then x.setRegFld (statReg h k i 6) 0 0 0 else x) b

/-- Tasks end with ST_STEP_REPEAT one after another. -/
def Block.failAllSteps (b : Block) (det : Nat) : List TaskRef → Block
  | [] => b
  | t :: ts => Block.failAllSteps (b.fail t stStepRepeat det) det ts

/-- A REPEAT verdict on a half (R369, R381 step 1): tasks of the step or later end with ST_STEP_REPEAT, and what their records noted is
forgotten. Ready packets held for those steps go too (log entry 52). -/
def Block.repeatStep (b : Block) (h : HalfId) (k step : Nat) : Block :=
  let n := ((b.stepRecord h k step).map (fun r => min r.repeats 15)).getD 0
  let job := (b.slot k).job
  let b1 := (((b.count (gateReg h 8) 47 32 1).clearStats h k step).dropHolds h k step false).failAllSteps (n + 1) (b.tasksFrom h k step)
  let b2 := b1.modHalf h (fun x => { x with
    early := x.early.filter (fun p => !(pkJob p = job && decide (step ≤ pkStep p))),
    steps := x.steps.map (fun r => if r.slot = k ∧ step ≤ r.step then
      { StepRecord.fresh k r.step with repeats := if r.step = step then r.repeats else 0, repeating := r.step = step } else r) })
  (b2.setRegFld (gateReg h (0x200 + 8 * k)) 27 26 3).syncStep h k

/-- The graphs of a slot that a repeat re-admits, read again from their headers, in their original admission order. -/
def Block.readmitted (b : Block) (h : HalfId) (k step n : Nat) : List WaitingGraph :=
  let l := (b.half h).repeatHeaders.filter (fun w => w.graph.slot = k && decide (step ≤ w.graph.step))
  (l.zip (List.range l.length)).filterMap (fun p =>
    match b.checkGraph h p.1.graph.job p.1.graph.header p.1.source 1 none with
    | .ok g => some { p.1 with graph := g, again := true, checked := true, seq := n + p.2 }
    | .error _ => none)

/-- STEP_REPEAT_READMIT (R381 steps 2 and 3): once every graph of the repeated steps has its records, REPEATS rises and they wait for
admission again, before the graphs that wait already. -/
def execStepRepeatReadmit (h : HalfId) (k : Fin 16) (s : State) : Host.Outcome State Fault Refusal :=
  s.act (fun b => match (b.half h).steps.find? (fun r => r.slot = k.val && r.repeating) with
    | none => b
    | some r =>
      if (b.half h).graphs.any (fun p => p.2.slot = k.val && decide (r.step ≤ p.2.step)) then b
      else
        let n := (b.half h).submitted
        let l := b.readmitted h k.val r.step n
        (b.modHalf h (fun x => { x with waiting := l ++ x.waiting, submitted := n + l.length })).modStep h k.val r.step
          (fun r => { r with repeats := r.repeats + 1, repeating := false }))

/-! ## What a verdict does (R369, R379) -/

/-- Each combined record that is not absent goes into its statistics slot. -/
def Block.writeRecords (b : Block) (h : HalfId) (k first : Nat) : List (List Nat) → Nat → Block
  | [], _ => b
  | r :: rs, j =>
    let b1 := if r.all (fun w => w = 0) ∨ 4096 ≤ first + j then b
      else (r.zip (List.range 8)).foldl (fun x p => x.setReg (statReg h k (first + j) p.2) (BitVec.ofNat 64 p.1)) b
    b1.writeRecords h k first rs (j + 1)

/-- A verdict that is not REPEAT on a half (R379). -/
def Block.decideStep (b : Block) (h : HalfId) (k : Nat) (v : Verdict) : Block :=
  let closed := v.code = 1
  let first := ((b.stepRecord h k v.step).map (fun r => r.comb)).getD 0
  let b0 := b.openStep h k v.step
  let b1 := (((b0.writeRecords h k first v.recs 0).decideFormats h k v.step).updateScale h k closed).dropHolds h k v.step true
  let b2 := if closed then b1.count (gateReg h 8) 63 48 1 else b1
  let b3 := b2.modHalf h (fun x => { x with repeatHeaders := x.repeatHeaders.filter (fun w => !(w.graph.slot = k && w.graph.step = v.step)) })
  let b4 := (b3.modStep h k v.step (fun r => { r with verdict := some (if closed then 2 else 1) })).setRegFld (gateReg h (0x200 + 8 * k)) 27 26
    (if closed then 2 else 1)
  b4.settleAll (((b4.tasksOf h).filter (fun p => p.2.1.slot = k && p.2.1.step = v.step && p.2.2.desc.gated)).map (fun p => p.1))

/-- A half takes a verdict (R379, R381). VERDICT 3 is reserved; no command makes it, and it acts as REPEAT. -/
def Block.applyVerdict (b : Block) (h : HalfId) (k : Nat) (v : Verdict) : Block :=
  if v.code ≤ 1 then (b.decideStep h k v).closeEnergy k v.step else b.repeatStep h k v.step

/-! ## The update gate task (R375, R376, R390) -/

def TaskDesc.gateMode (d : TaskDesc) : Nat := d.pf 0 63 60
def TaskDesc.statFirst (d : TaskDesc) : Nat := d.pf 0 59 48
def TaskDesc.statCount (d : TaskDesc) : Nat := d.pf 0 47 36
def TaskDesc.combFirst (d : TaskDesc) : Nat := d.pf 0 35 24
def TaskDesc.combCount (d : TaskDesc) : Nat := d.pf 0 23 18
def TaskDesc.vetoEn (d : TaskDesc) : Bool := d.pf 0 17 17 = 1
def TaskDesc.ovfCloses (d : TaskDesc) : Bool := d.pf 0 16 16 = 1

/-- Check 1 of an update gate task (R375). -/
def gateCheck (c : TaskCtx) : Option Nat :=
  let d := c.desc
  let z := c.tensor 0
  let v := c.tensor 1
  let whole (t : Tensor) (n : Nat) : Option Nat := firstFault [faultIf (t.ext 0 ≠ n) (offTensor t.slot (tOffCap 0)), flatFrom t 1]
  match d.gateMode with
  | 0 => firstFault [slotsAre d (if d.vetoEn ∨ d.operands = 2 then [if d.role 0 = 2 then 2 else 1, if d.role 1 = 2 then 2 else 0]
      else [if d.role 0 = 2 then 2 else 1]), formatIn z [0x0C], compIn z [0], whole z (32 + 64 * d.combCount),
      if d.vetoEn then firstFault [formatIn v [0x0A], compIn v [0], whole v 1] else none]
  | 1 => firstFault [faultIf (d.operands ≠ 0) offOperands, faultIf (!d.gated) 1]
  | _ => some 103

/-- The statistics slots that a CHECK task examines; none stands past 4,095 (DEDUCED, log entry 50). -/
def TaskDesc.examined (d : TaskDesc) : List Nat := ((List.range d.statCount).map (fun i => d.statFirst + i)).filter (fun i => decide (i < 4096))

/-- The contribution that a CHECK task writes (R376, R377). -/
def Block.contribution (b : Block) (h : HalfId) (g : Graph) (c : TaskCtx) (veto : Bool) : Verdict :=
  let d := c.desc
  let r := (b.stepRecord h g.slot g.step).getD (StepRecord.fresh g.slot g.step)
  let open_ (w : List Nat) : Bool := bit (w.getD 6 0) 0 && decide (bits (w.getD 0 0) 63 32 = g.step)
  let bad := d.examined.any (fun i => let w := b.statWords h g.slot i
    open_ w && (decide (0 < w.getD 4 0) || (d.ovfCloses && decide (0 < w.getD 5 0))))
  { w0 := g.step * 2 ^ 32 + b2n r.late * 8 + b2n (r.fail || decide (0 < c.cancels)) * 4 + b2n veto * 2 + b2n (r.nonFinite || bad),
    w1 := r.lateEp * 2 ^ 48 + r.nfOrigin * 2 ^ 32 + 1, w2 := r.skips % 2 ^ 32 * 2 ^ 32, w3 := 0,
    recs := (List.range d.combCount).map (fun j => let w := b.statWords h g.slot (d.combFirst + j)
      if d.combFirst + j < 4096 ∧ postRecord w g.step then w else List.replicate 8 0) }

/-- UPDATE_GATE_CHECK (R376): the endpoint's contribution goes into slot 0 and the task ends with ST_OK. -/
def execUpdateGateCheck (t : TaskRef) (s : State) : Host.Outcome State Fault Refusal :=
  s.act (fun b => b.onMode t 0x0D 0 (fun g c =>
    let a := b.taskAccess t.half g c
    let row : Row := (0, 0, 0, 0)
    match (if c.desc.vetoEn then b.rdNat a 1 (c.tensor 1).base 4 else .ok 0) with
    | .error e => b.stop t e
    | .ok veto =>
      let v := b.contribution t.half g c (veto ≠ 0)
      let codes := v.bytes.map (fun x => x.toNat)
      ((b.touch t g c).modStep t.half g.slot g.step (fun r => { r with comb := c.desc.combFirst })).finish t
        (b.rowCells a (c.tensor 0) row { codes := codes, scales := [], stats := ConvStats.zero }) stOk 0))

/-- The ranks that a half's table names: the job's participants (R341, R390). -/
def JobSlot.participants (s : JobSlot) (h : HalfId) : Nat := ((s.ranks.getD (halfNum h) []).filter (fun e => e ≠ 0xFFFF)).length

/-- UPDATE_GATE_CHECKPOINT (R390): the report goes to the leader and the task ends with ST_OK. Its layout is the model's (DESIGN CHOICE, log
entry 48). -/
def execUpdateGateCheckpoint (t : TaskRef) (s : State) : Host.Outcome State Fault Refusal :=
  s.act (fun b => b.onMode t 0x0D 1 (fun g c =>
    let d := c.desc
    (b.tellLeader t.half 0x17 (leBytes 4 g.job ++ leBytes 4 g.step ++ leBytes 8 (d.param 2).toNat ++ leBytes 2 (d.pf 1 63 48) ++
      leBytes 2 (d.pf 1 47 32) ++ leBytes 4 ((b.slot g.slot).participants t.half))).fix t stOk 0))

end Sys2Proof.Machine
end

