-- ==== Sys2Proof/Machine/CollBlocks.lean ====
section
/-! DEFINITION. Collectives: plans, shards, check 1 and the blocks that travel (spec/13_ebb_and_flood.md R341-R360, R366;
spec/05_sparse_operands_and_experts.md R127-R134, R140). -/

namespace Sys2Proof.Machine

/-! ## PARAMS (R345) -/

def TaskDesc.coOp (d : TaskDesc) : Nat := d.pf 0 63 60
def TaskDesc.coStatSlot (d : TaskDesc) : Nat := d.pf 0 59 48
def TaskDesc.coPolicy (d : TaskDesc) : Nat := d.pf 0 47 36
def TaskDesc.coStatEn (d : TaskDesc) : Bool := d.pf 0 35 35 = 1
def TaskDesc.coLenientBit (d : TaskDesc) : Bool := d.pf 0 34 34 = 1
def TaskDesc.coWire (d : TaskDesc) : Nat := d.pf 0 33 32
def TaskDesc.coClove (d : TaskDesc) : Nat := d.pf 0 31 30
def TaskDesc.coHeadroom (d : TaskDesc) : Nat := d.pf 0 29 27
def TaskDesc.coInitE (d : TaskDesc) : Nat := d.pf 0 26 19
def TaskDesc.coPhase (d : TaskDesc) : Nat := d.pf 0 15 0
def TaskDesc.coDeadline (d : TaskDesc) : Nat := (d.param 1).toNat
def TaskDesc.coPlan (d : TaskDesc) : Nat := d.pf 2 63 52
def TaskDesc.coTopK (d : TaskDesc) : Nat := d.pf 2 51 44
def TaskDesc.coWin (d : TaskDesc) : Bool := d.pf 2 43 43 = 1
def TaskDesc.coWinLayer (d : TaskDesc) : Nat := d.pf 2 42 32
def TaskDesc.coPeer (d : TaskDesc) : Nat := d.pf 2 31 18
def TaskDesc.coFirst (d : TaskDesc) : Nat := d.pf 2 51 36
def TaskDesc.coE (d : TaskDesc) : Nat := d.pf 2 35 25
def TaskDesc.coCap (d : TaskDesc) : Nat := d.pf 2 24 7
def TaskDesc.coX (d : TaskDesc) : Nat := d.pf 3 63 56

/-- Whether a task is a collective of one of the operations listed. -/
def TaskDesc.isColl (d : TaskDesc) (ops : List Nat) : Bool := d.type = 0x08 && ops.contains d.coOp

/-- A lenient channel (R373): OPs 0 and 1 alone have a hold buffer (DEDUCED, log entry 52). -/
def TaskDesc.lenient (d : TaskDesc) : Bool := d.coLenientBit && decide (d.coOp ≤ 1)

/-! ## Plans and shards (R341, R342, R348, R349) -/

/-- A plan as a task on this endpoint uses it: participants, group size, its own position, the positions' endpoints, the CUT. -/
structure Plan where
  n : Nat
  g : Nat
  own : Nat
  eps : List Nat
  cut : Nat
deriving DecidableEq, Repr

/-- Plan `i` of a job slot on a half, or none when R342 refuses it; a reserved bit or CUT refuses it too (DEDUCED from R5, log entry 52). Groups
of one make the ring of R348. -/
def Block.plan (b : Block) (h : HalfId) (k i : Nat) : Option Plan :=
  match (((b.slot k).plans.getD (halfNum h) [])[i]?) with
  | none => none
  | some w =>
    let n := fld w 35 22 + 1
    let g := fld w 21 8 + 1
    let ranks := (b.slot k).ranks.getD (halfNum h) []
    let rs := (List.range n).map (fun j => (fld w 63 50 + j * fld w 49 36) % 16384)
    let eps := rs.map (fun r => ranks.getD r 0xFFFF)
    let me := b.endpoint h
    if fld w 4 0 ≠ 0 ∨ 5 < fld w 7 5 ∨ n % g ≠ 0 ∨ rs.eraseDups.length ≠ n ∨ eps.contains 0xFFFF ∨
        (eps.filter (fun e => e = me)).length ≠ 1 then none
    else some { n := n, g := if g = 1 then n else g, own := eps.idxOf me, eps := eps, cut := fld w 7 5 }

/-- Groups, own place and own group. -/
def Plan.h (p : Plan) : Nat := p.n / p.g
def Plan.place (p : Plan) : Nat := p.own % p.g
def Plan.group (p : Plan) : Nat := p.own / p.g

/-- The position `d` places after this one in its group, and the one in the next group (R348, R349). -/
def Plan.next1 (p : Plan) (d : Nat) : Nat := p.group * p.g + (p.place + d) % p.g
def Plan.next2 (p : Plan) : Nat := (p.group + 1) % p.h * p.g + p.place

/-- The position `d` places before this one in its group, and `d` groups before. -/
def Plan.prev1 (p : Plan) (d : Nat) : Nat := p.group * p.g + (p.place + (p.g - d % p.g)) % p.g
def Plan.prev2 (p : Plan) (d : Nat) : Nat := (p.group + (p.h - d % p.h)) % p.h * p.g + p.place

/-- The successors of this position in each ring it belongs to. -/
def Plan.successors (p : Plan) : List Nat := (if 1 < p.g then [p.next1 1] else []) ++ (if 1 < p.h then [p.next2] else [])

/-- Positions to which a task sends its ready at firing (R371): the predecessor in each ring, and on a lenient channel the three before it. -/
def Plan.readyTo (p : Plan) (lenient : Bool) : List Nat :=
  let ds := if lenient then [1, 2, 3, 4] else [1]
  (((if 1 < p.g then ds.map p.prev1 else []) ++ (if 1 < p.h then ds.map p.prev2 else [])).filter (fun i => i ≠ p.own)).eraseDups

/-- The shard of `n` that holds block `i` of `nb` (R348). -/
def shardOf (nb n i : Nat) : Nat := ((List.range n).find? (fun q => decide (i < (q + 1) * nb / n))).getD 0

/-- Where a block lies: its place and group (owner q of group u), and the first block of its sub-shard (R349). -/
structure BlockPlace where
  q : Nat
  u : Nat
  first : Nat
deriving DecidableEq, Repr

def Plan.locate (p : Plan) (nb i : Nat) : BlockPlace :=
  let q := shardOf nb p.g i
  let lo := q * nb / p.g
  let len := (q + 1) * nb / p.g - lo
  let u := shardOf len p.h (i - lo)
  { q := q, u := u, first := lo + u * len / p.h }

/-- The owner's position of a block. -/
def Plan.owner (p : Plan) (x : BlockPlace) : Nat := x.u * p.g + x.q

/-! ## Raw data -/

/-- Element bytes, and with scales all bytes, of a tensor without gaps, at extents or capacities (R346; that scales follow the elements is
the model's choice, log entry 52). -/
def Tensor.elemTotal (t : Tensor) (e : List Nat) : Nat := rowBytes (elemBits t.fmt) (e.getD 0 1) * (e.getD 1 1 * e.getD 2 1 * e.getD 3 1 * e.getD 4 1)
def Tensor.scaleTotal (t : Tensor) (e : List Nat) : Nat :=
  if hasScale t.fmt then (if t.fmt = 0x0E then 2 else 1) * cdiv (e.getD 0 1) 32 * (e.getD 1 1 * e.getD 2 1 * e.getD 3 1 * e.getD 4 1) else 0
def Tensor.rawTotal (t : Tensor) (e : List Nat) : Nat := t.elemTotal e + t.scaleTotal e

/-- Whether a tensor's strides leave no gaps (R346). -/
def Tensor.gapless (t : Tensor) : Bool :=
  let r := rowBytes (elemBits t.fmt) (t.ext 0)
  let ok (d size : Nat) : Bool := decide (t.ext d ≤ 1) || decide (t.strides.getD d 0 = size)
  ok 1 r && ok 2 (r * t.ext 1) && ok 3 (r * t.ext 1 * t.ext 2) && ok 4 (r * t.ext 1 * t.ext 2 * t.ext 3)

/-- The job-virtual address of raw byte `i` of a tensor. -/
def Tensor.rawVa (t : Tensor) (i : Nat) : Nat := if i < t.elemTotal t.exts then t.base + i else t.base + t.scaleOff + (i - t.elemTotal t.exts)

/-- Raw bytes read, and the cells that raw bytes become. -/
def Block.rdRaw (b : Block) (a : Access) (t : Tensor) (start n : Nat) : Res (List Byte) :=
  mapRes (fun i => b.rd a t.slot (t.rawVa (start + i))) (List.range n)
def Block.wrRaw (b : Block) (a : Access) (t : Tensor) (start : Nat) (l : List Byte) : Res (List Host.Cell) :=
  mapRes (fun p => match b.wr a t.slot (t.rawVa (start + p.2)) with
    | .error e => .error e
    | .ok d => .ok (d, p.1)) (l.zip (List.range l.length))

/-- A row of a tensor by its number, in ascending order. -/
def Tensor.rowNo (t : Tensor) (i : Nat) : Row :=
  (i % t.ext 1, i / t.ext 1 % t.ext 2, i / (t.ext 1 * t.ext 2) % t.ext 3, i / (t.ext 1 * t.ext 2 * t.ext 3))

/-- The bytes of a row with its scales, and the address of each (R133; the scales' place is the model's choice, log entry 52). -/
def Tensor.wholeRow (t : Tensor) : Nat :=
  rowBytes (elemBits t.fmt) (t.ext 0) + (if hasScale t.fmt then (if t.fmt = 0x0E then 2 else 1) * cdiv (t.ext 0) 32 else 0)
def Tensor.wholeRowVa (t : Tensor) (r : Row) (i : Nat) : Nat :=
  let e := rowBytes (elemBits t.fmt) (t.ext 0)
  if i < e then t.rowVa r + i else t.scaleVa r 0 + (i - e)

/-! ## Blocks (R348, R350, R352-R360) -/

/-- Elements to a block. -/
def TaskDesc.coUnit (d : TaskDesc) : Nat := if d.coClove = 0 then 32 else 256

/-- Whether a task's blocks are raw bytes: OPs 7, 8 and 9, and WIRE = 2 (R346, R362, R378). -/
def TaskDesc.coRaw (d : TaskDesc) : Bool := d.coWire = 2 || decide (7 ≤ d.coOp)

/-- NB: the blocks of slot 0 (R348). The verdict is one raw block (R378). -/
def TaskCtx.coNb (c : TaskCtx) : Nat :=
  let t := c.tensor 0
  if c.desc.coRaw then cdiv (t.rawTotal t.exts) 4096 else cdiv (t.ext 0) c.desc.coUnit * (t.ext 1 * t.ext 2 * t.ext 3 * t.ext 4)

/-- Bytes that a staged block takes: the largest form of a block of the wire (R350). -/
def TaskDesc.coBytes (d : TaskDesc) : Nat :=
  if d.coRaw then 4096 else if d.coWire = 1 then 64 else if d.coClove = 1 then 516 else if d.coClove = 2 then 40 else 66

/-- A block of values in the shared form: mantissas, exponent, NONFINITE, RESCALES (R63, R352). -/
structure Shared where
  ms : List Int
  e : Nat
  nf : Bool
  rescales : Nat
deriving DecidableEq, Repr

/-- Values packed (R352), and whether a raise was made. -/
def packShared (xs : List Nat) (E R : Nat) : Shared × Bool :=
  let bad : Shared := { ms := xs.map (fun _ => 0), e := 255, nf := true, rescales := min 63 R }
  let vs := xs.map f32
  if vs.any (fun v => !v.isFinite) then (bad, false)
  else match w16Pack vs 256 E 0 with
    | none => (bad, false)
    | some (ms, E', r) => ({ ms := ms, e := E', nf := false, rescales := min 63 (R + b2n (decide (0 < r))) }, decide (0 < r))

/-- The FP32 value of a mantissa. -/
def sharedF32 (E : Nat) (m : Int) : Nat := toF32 (.fin (decide (m < 0)) m.natAbs ((E : Int) - 141))

/-- E and flags as two bytes; `dense` is bit 6 of a top-k group (R63, R359). -/
def sharedFlags (x : Shared) (dense : Bool) : List Byte :=
  [BitVec.ofNat 8 x.e, BitVec.ofNat 8 (b2n x.nf * 128 + b2n dense * 64 + min 63 x.rescales)]

/-- A W16 block as it travels: 32 mantissas, E, flags. -/
def w16Bytes (x : Shared) : List Byte := (x.ms.map (fun m => leBytes 2 (twos 16 m))).flatten ++ sharedFlags x false

/-- 16-bit mantissas. -/
def readMantissas (l : List Byte) (n : Nat) : List Int := (List.range n).map (fun i => sext 16 (leNat ((l.drop (2 * i)).take 2)))

/-- A W16 block read: one that holds a mantissa of -32,768 counts as NONFINITE (R63). -/
def parseW16 (l : List Byte) : Shared :=
  let f := (l.getD 65 0).toNat
  let ms := readMantissas l 32
  { ms := ms, e := (l.getD 64 0).toNat, nf := bit f 7 || ms.any (fun m => m = -32768), rescales := f % 64 }

/-- A chain link of two W16 blocks (R353). -/
def linkW16 (x y : Shared) : Shared × Bool :=
  if x.nf ∨ y.nf then ({ ms := x.ms.map (fun _ => 0), e := 255, nf := true, rescales := min 63 (x.rescales + y.rescales) }, false)
  else packShared ((x.ms.zip y.ms).map (fun p => addF (sharedF32 x.e p.1) (sharedF32 y.e p.2))) (max x.e y.e) (x.rescales + y.rescales)

/-- A top-k group (R359): its entries by ascending index, with the exponent and flags. -/
structure TopK where
  entries : List (Nat × Int)
  e : Nat
  nf : Bool
  rescales : Nat
deriving DecidableEq, Repr

/-- A top-k group's bytes. A NONFINITE group carries no entries (DESIGN CHOICE, log entry 52). -/
def TopK.bytes (x : TopK) : List Byte :=
  let dense := decide (171 ≤ x.entries.length)
  let hd := sharedFlags { ms := [], e := x.e, nf := x.nf, rescales := x.rescales } dense ++ leBytes 2 x.entries.length
  if dense then hd ++ ((List.range 256).map (fun i => leBytes 2 (twos 16 (((x.entries.find? (fun p => p.1 = i)).map (fun p => p.2)).getD 0)))).flatten
  else
    let l := (x.entries.map (fun p => leBytes 1 p.1 ++ leBytes 2 (twos 16 p.2))).flatten
    hd ++ l ++ List.replicate (cdiv l.length 4 * 4 - l.length) 0

/-- The length of the top-k group that stands first in a list of bytes. -/
def topKLength (l : List Byte) : Nat :=
  if bit (l.getD 1 0).toNat 6 then 516 else 4 + cdiv (3 * leNat ((l.drop 2).take 2)) 4 * 4

/-- A top-k group read. -/
def parseTopK (l : List Byte) : TopK :=
  let f := (l.getD 1 0).toNat
  let n := leNat ((l.drop 2).take 2)
  { e := (l.getD 0 0).toNat, nf := bit f 7, rescales := f % 64,
    entries := if bit f 6 then (((List.range 256).zip (readMantissas (l.drop 4) 256)).filter (fun p => p.2 ≠ 0))
      else (List.range n).map (fun i => ((l.getD (4 + 3 * i) 0).toNat, sext 16 (leNat ((l.drop (5 + 3 * i)).take 2)))) }

/-- A link of two top-k groups (R359). -/
def linkTopK (x y : TopK) : TopK × Bool :=
  if x.nf ∨ y.nf then ({ entries := [], e := 255, nf := true, rescales := min 63 (x.rescales + y.rescales) }, false)
  else
    let val (z : TopK) (i : Nat) : Option Nat := (z.entries.find? (fun p => p.1 = i)).map (fun p => sharedF32 z.e p.2)
    let l := (List.range 256).filterMap (fun i => match val x i, val y i with
      | some p, some q => some (i, addF p q)
      | some p, none => some (i, p)
      | none, some q => some (i, q)
      | none, none => none)
    let r := packShared (l.map (fun p => p.2)) (max x.e y.e) (x.rescales + y.rescales)
    ({ entries := if r.1.nf then [] else ((l.map (fun p => p.1)).zip r.1.ms).filter (fun p => p.2 ≠ 0), e := r.1.e, nf := r.1.nf,
       rescales := r.1.rescales }, r.2)

/-- The kept elements of a group at its origin: the `k` largest magnitudes, NaN highest, a tie to the lower index; ascending (R359). -/
def keepTop (k : Nat) (vs : List Val) : List Nat :=
  let best := (sortBy (fun i j =>
    let x := vs.getD i .nan
    let y := vs.getD j .nan
    if ranksAbove x y then true else if ranksAbove y x then false else decide (i ≤ j)) (List.range vs.length)).take k
  (List.range vs.length).filter (fun i => best.contains i)

/-- A sign group (R360). -/
structure SignGroup where
  negs : List Bool
  s : Nat
  nf : Bool
deriving DecidableEq, Repr

/-- A sign group's bytes. -/
def SignGroup.bytes (x : SignGroup) : List Byte :=
  leBytes 32 (((x.negs.zip (List.range 256)).map (fun p => b2n p.1 * 2 ^ p.2)).sum) ++ leBytes 4 x.s ++ [BitVec.ofNat 8 (b2n x.nf * 128), 0, 0, 0]

/-- A sign group of `n` elements read. -/
def parseSign (n : Nat) (l : List Byte) : SignGroup :=
  let m := leNat (l.take 32)
  { negs := (List.range n).map (fun i => bit m i), s := leNat ((l.drop 32).take 4), nf := bit (l.getD 36 0).toNat 7 }

/-- FP32 values compressed to signs (R360). A non-finite value or scale makes the group NONFINITE, with no signs and a scale of +0 (DESIGN
CHOICE, log entry 52). -/
def packSign (xs : List Nat) : SignGroup :=
  let s := mulF (rcpF (toF32 (ofInt xs.length))) (tree256 0 (xs.map (fun x => x % 2 ^ 31)))
  if (s :: xs).any (fun x => !(f32 x).isFinite) then { negs := xs.map (fun _ => false), s := 0, nf := true }
  else { negs := xs.map (fun x => decide (x ≠ 0x80000000) && bit x 31), s := s, nf := false }

/-- The FP32 values of a sign group. -/
def SignGroup.values (x : SignGroup) : List Nat := x.negs.map (fun n => if n then negF x.s else x.s)

/-- A link of two sign groups. -/
def linkSign (x y : SignGroup) : SignGroup :=
  if x.nf ∨ y.nf then { negs := x.negs.map (fun _ => false), s := 0, nf := true }
  else packSign ((x.values.zip y.values).map (fun p => addF p.1 p.2))

/-- BF16 elements (R357). -/
def toBf16 (x : Nat) : Nat := (toPlain fmtBF16 false .nearest (f32 x)).1
def parseBf16 (l : List Byte) : List Nat := (List.range 32).map (fun i => leNat ((l.drop (2 * i)).take 2))
def bf16F32 (x : Nat) : Nat := x * 65536

/-- Whether a block on the wire is non-finite (R354, R357). -/
def TaskDesc.coNf (d : TaskDesc) (l : List Byte) : Bool :=
  if d.coRaw then false
  else if d.coWire = 1 then (parseBf16 l).any (fun x => bits x 14 7 = 255)
  else if d.coClove = 1 then (parseTopK l).nf
  else if d.coClove = 2 then (parseSign 0 l).nf
  else (parseW16 l).nf

/-- The FP32 values of a final block of `n` elements (R355, R359, R360). -/
def TaskDesc.coValues (d : TaskDesc) (n : Nat) (l : List Byte) : List Val :=
  if d.coNf l && d.coWire = 0 then List.replicate n .nan
  else if d.coWire = 1 then ((parseBf16 l).take n).map (fun x => f32 (bf16F32 x))
  else if d.coClove = 1 then
    let x := parseTopK l
    (List.range n).map (fun i => f32 (((x.entries.find? (fun p => p.1 = i)).map (fun p => sharedF32 x.e p.2)).getD 0))
  else if d.coClove = 2 then (parseSign n l).values.map f32
  else
    let x := parseW16 l
    (x.ms.take n).map (fun m => .fin (decide (m < 0)) m.natAbs ((x.e : Int) - 141))

/-- A block made: its bytes, and whether a raise was made. -/
abbrev Made := List Byte × Bool

/-- A chain link (R353, R357, R359, R360; R377 for the verdict). `n` is the block's elements. -/
def TaskDesc.coLink (d : TaskDesc) (n : Nat) (x y : List Byte) : Made :=
  if d.coRaw then ((parseVerdict x).combine (parseVerdict y) |>.bytes, false)
  else if d.coWire = 1 then
    ((((parseBf16 x).zip (parseBf16 y)).map (fun p => leBytes 2 (toBf16 (addF (bf16F32 p.1) (bf16F32 p.2))))).flatten, false)
  else if d.coClove = 1 then let r := linkTopK (parseTopK x) (parseTopK y); (r.1.bytes, r.2)
  else if d.coClove = 2 then ((linkSign (parseSign n x) (parseSign n y)).bytes, false)
  else let r := linkW16 (parseW16 x) (parseW16 y); (w16Bytes r.1, r.2)

/-- An endpoint's own contribution packed from FP32 values (R352, R357, R359, R360), with what was sent of each element: none where
nothing was. -/
def TaskDesc.coPack (d : TaskDesc) (E : Nat) (xs : List Nat) : Made × List (Option Nat) :=
  if d.coWire = 1 then (((xs ++ List.replicate (32 - xs.length) 0).flatMap (fun x => leBytes 2 (toBf16 x)), false), [])
  else if d.coClove = 1 then
    let ix := keepTop d.coTopK (xs.map f32)
    let r := packShared (ix.map (fun i => xs.getD i 0)) E 0
    let es := if r.1.nf then [] else ix.zip r.1.ms
    ((({ entries := es, e := r.1.e, nf := r.1.nf, rescales := r.1.rescales } : TopK).bytes, r.2),
     (List.range xs.length).map (fun i => (es.find? (fun p => p.1 = i)).map (fun p => sharedF32 r.1.e p.2)))
  else if d.coClove = 2 then
    let g := packSign xs
    ((g.bytes, false), if g.nf then xs.map (fun _ => none) else g.values.map some)
  else
    let r := packShared (xs ++ List.replicate (32 - xs.length) 0) E 0
    ((w16Bytes r.1, r.2), [])

/-- The residual left at the origin (R358). -/
def residual (v : Nat) (sent : Option Nat) : Nat :=
  if !(f32 v).isFinite then 0 else match sent with
    | some s => subF v s
    | none => v

/-- E_init (R351). -/
def Block.coInit (b : Block) (h : HalfId) (g : Graph) (d : TaskDesc) : Nat :=
  let w := b.reg (latchReg h g.slot d.coStatSlot)
  if fld w 16 16 = 1 ∧ fld w 63 32 + 1 = g.step then (min 254 (max 0 (sext 16 (fld w 15 0) + (d.coHeadroom : Int)))).toNat else d.coInitE

/-- Where block `i` of a tensor lies: its row and its first element (R348). -/
def TaskDesc.coRow (d : TaskDesc) (t : Tensor) (i : Nat) : Row × Nat :=
  let per := cdiv (t.ext 0) d.coUnit
  (t.rowNo (i / per), i % per * d.coUnit)

/-- The elements of block `i` of a tensor. -/
def TaskDesc.coCount (d : TaskDesc) (t : Tensor) (i : Nat) : Nat := min d.coUnit (t.ext 0 - (d.coRow t i).2)

/-- The FP32 values of block `i` of a slot. -/
def Block.coVals (b : Block) (a : Access) (d : TaskDesc) (t : Tensor) (i : Nat) : Res (List Nat) :=
  let r := d.coRow t i
  mapRes (fun j => (b.elemVal a t (r.2 + j) r.1).map toF32) (List.range (d.coCount t i))

/-- The values that R347's CRC covers. For a send and its receive, which may differ in extents (R362), the extents and slot 1 are left out
(DEDUCED, log entry 52). -/
def TaskCtx.coParams (c : TaskCtx) (step : Nat) : List Nat :=
  let d := c.desc
  [d.coPlan, d.coPhase, d.coWire, d.coClove, if d.coOp ≤ 1 ∧ d.coClove = 1 then d.coTopK else 0, d.coHeadroom, d.coInitE, b2n d.coLenientBit,
   d.coDeadline, step, (c.tensor 0).fmt] ++
  (if 7 ≤ d.coOp ∧ d.coOp ≤ 8 then [] else (List.range 5).map (fun i => (c.tensor 0).ext i) ++ [(c.tensor 1).fmt, b2n (c.tensor 1).nfSat])

/-- The CRC of a ready packet. -/
def TaskCtx.coCrc (c : TaskCtx) (step : Nat) : Nat := Config.paramCrc (c.coParams step) % 2 ^ 32

/-! ## Check 1 (R342, R345, R346, R361, R363, R366, R373, R378, R129, R134, R140) -/

/-- Slots that a task uses: each with whether it is written. -/
def coSlots (d : TaskDesc) (l : List (Nat × Bool)) : Option Nat :=
  l.findSome? (fun p => firstFault [faultIf (!(d.uses p.1)) (offSlot p.1), faultIf (decide (d.role p.1 ≠ 0) != p.2) (offRole p.1)])

/-- A slot has slot 0's extents. -/
def sameExts (c : TaskCtx) (s : Nat) : Option Nat :=
  firstFault ((List.range 5).map (fun i => faultIf ((c.tensor s).ext i ≠ (c.tensor 0).ext i) (offTensor s (tOffCap i))))

/-- The rules of raw data for a slot (R346). -/
def rawSlot (t : Tensor) : Option Nat :=
  firstFault [faultIf (t.fmt = 0x1F) (offTensor t.slot tOffFormat), compIn t [0], faultIf (!t.gapless) (offTensor t.slot (tOffStride 1))]

/-- The window of an all-gather (R361): its shift, or none when the window is not allowed (it must lie in Shelf whole). -/
def Block.coWindow (b : Block) (h : HalfId) (k : Nat) (c : TaskCtx) : Option Nat :=
  let w := b.reg (colReg h (0x180 + 8 * k))
  let depth := fld w 3 0
  let mib := fld w 63 52
  if depth = 0 ∨ 8 < depth ∨ mib = 0 then none
  else
    let off := c.desc.coWinLayer % depth * mib * 0x100000
    let t := c.tensor 1
    if b.inShelf k { t with base := t.base + off } then some off else none

/-- The rules of OPs 0, 1, 2 and 9 on their slots. -/
def Block.coReduceCheck (b : Block) (h : HalfId) (g : Graph) (t : Nat) (c : TaskCtx) : Option Nat :=
  let d := c.desc
  let z := c.tensor 0
  let o := c.tensor 1
  let fl := [0x00, 0x01, 0x0E, 0x1F]
  let nb := c.coNb
  firstFault [
    coSlots d ([(0, false), (1, true)] ++ (if d.coClove ≠ 0 then [(2, false), (3, true)] else []) ++ (if d.lenient then [(4, true)] else [])),
    (if d.coRaw then firstFault [rawSlot z, rawSlot o, faultIf (z.fmt ≠ o.fmt) (offTensor 1 tOffFormat)]
     else firstFault [formatIn z fl, compIn z [0], formatIn o fl, compIn o [0], faultIf (o.sround && decide (d.coOp ≤ 1)) (offTensor 1 tOffRound)]),
    sameExts c 1,
    whenOn (d.coClove ≠ 0) (firstFault [formatIn (c.tensor 2) [0x00], compIn (c.tensor 2) [0], sameExts c 2, formatIn (c.tensor 3) [0x00],
      compIn (c.tensor 3) [0], sameExts c 3]),
    whenOn d.lenient (firstFault [formatIn (c.tensor 4) [0x0E], compIn (c.tensor 4) [0], sameExts c 4]),
    whenOn (d.coOp = 9) (firstFault [formatIn z [0x0C], faultIf (decide (z.ext 0 < 32) || (z.ext 0 - 32) % 64 != 0 || decide (4064 < z.ext 0))
      (offTensor 0 (tOffCap 0)), flatFrom z 1,
      faultIf (g.tasks.any (fun x => x.outs.contains t && !(x.desc.type = 0x0D && x.desc.gateMode = 0))) (offDesc 16)]),
    faultIf (nb = 0 || decide (16777215 < nb)) (offTensor 0 (tOffCap 0)),
    whenOn (d.coOp = 2 && d.coWin) (faultIf ((b.coWindow h g.slot c).isNone) 117) ]

/-- The rules of the expert operations (R129, R133-R135, R140). The token rows, receive and return buffers have COMP 0 and no POLICY: R133-R135 name neither, and
another is refused (DESIGN CHOICE, log entry 78). -/
def Block.coExpertCheck (b : Block) (h : HalfId) (g : Graph) (p : Plan) (c : TaskCtx) : Option Nat :=
  let d := c.desc
  let buf := if d.coOp = 3 ∨ d.coOp = 6 then c.tensor 1 else c.tensor 0
  let rows := buf.ext 1 * buf.ext 2 * buf.ext 3 * buf.ext 4
  let by_ := buf.wholeRow
  let table := b.experts h g.slot
  firstFault [
    faultIf (d.coE = 0 || decide (1024 < d.coE)) 115, faultIf (d.coCap = 0) 112,
    (match d.coOp with
     | 3 => coSlots d [(0, false), (1, false)]
     | 4 => coSlots d [(0, true)]
     | 5 => coSlots d [(0, false)]
     | _ => coSlots d [(0, false), (1, true)]),
    whenOn (d.coOp = 3 || d.coOp = 6) (firstFault [formatIn (c.tensor 0) [0x0B], compIn (c.tensor 0) [0], flatFrom (c.tensor 0) 2]),
    compIn buf [0], faultIf (buf.fmt = 0x1F) (offTensor buf.slot tOffFormat),
    faultIf (by_ = 0 || decide (65536 < by_)) (offTensor buf.slot (tOffCap 0)),
    faultIf (decide (16777214 < d.coE * d.coCap * cdiv by_ 4096)) 112,
    whenOn (d.coOp = 3) (firstFault [flatFrom buf 2, faultIf ((c.tensor 0).ext 1 ≠ buf.ext 1) (offTensor 1 (tOffCap 1)),
      (if table.length < d.coFirst + d.coE then some 116
       else (List.range d.coE).findSome? (fun e => if exValid (table.getD (d.coFirst + e) 0) then none else some (offTable 112 (d.coFirst + e))))]),
    whenOn (d.coOp = 4 || d.coOp = 5) (firstFault [faultIf (d.coX = 0 || decide (255 < d.coX * p.n)) 127, faultIf (decide (64 < p.n)) (offTable 112 d.coPlan),
      faultIf (decide (rows < d.coX * p.n * d.coCap)) (offTensor 0 (tOffCap 1))]),
    whenOn (d.coOp = 4) (firstFault [faultIf (d.shapeOutCount ≠ 0) 30, faultIf (decide (4095 < d.shapeOutBase + 16 * (d.coX * p.n - 1) + 11)) 28]),
    whenOn (d.coOp = 5) (faultIf (decide (4095 < d.shapeInBase + 16 * (d.coX * p.n - 1) + 1)) 27),
    whenOn (d.coOp = 6) (faultIf (decide (rows < d.coE * d.coCap)) (offTensor 1 (tOffCap 1))) ]

/-- Check 1 of a collective task. -/
def Block.collCheck (b : Block) (h : HalfId) (g : Graph) (t : Nat) (c : TaskCtx) : Option Nat :=
  let d := c.desc
  let op := d.coOp
  match firstFault [
    faultIf (d.banks ≠ 0) offBanks, faultIf (decide (d.coveUnits < 8) || decide (96 < d.coveUnits)) offCove,
    faultIf (decide (9 < op)) 103, faultIf (d.coWire = 3) 100, faultIf (d.coClove = 3) 99, faultIf (decide (254 < d.coInitE)) 98,
    faultIf (decide (d.coClove ≠ 0) && (decide (d.coWire ≠ 0) || decide (1 < op) || d.coLenientBit)) 99,
    faultIf (d.coStatEn && decide (1 < op)) 100,
    faultIf (op = 9 && (decide (d.coWire ≠ 2) || d.coLenientBit)) 100,
    faultIf (decide (op ≤ 1) && decide (d.coWire = 2)) 100,
    faultIf ((op ≤ 2 || op = 9) && d.coDeadline = 0) 104,
    faultIf (decide (op ≤ 1) && d.coClove = 1 && (d.coTopK = 0 || decide (170 < d.coTopK))) 117 ] with
  | some off => some off
  | none => match b.plan h g.slot d.coPlan with
    | none => some (offTable 112 d.coPlan)
    | some p =>
      if op ≤ 2 ∨ op = 9 then b.coReduceCheck h g t c
      else if op ≤ 6 then b.coExpertCheck h g p c
      else firstFault [faultIf (decide (p.n ≤ d.coPeer) || d.coPeer = p.own) 114, coSlots d [(0, op = 8)], rawSlot (c.tensor 0),
        faultIf (decide (16777215 < c.coNb)) (offTensor 0 (tOffCap 0))]

end Sys2Proof.Machine
end

