-- ==== Sys2Proof/Machine/Collective.lean ====
section
/-! DEFINITION. The collective engine (spec/13_ebb_and_flood.md R346-R365; spec/14_when_a_step_fails.md R371-R374, R378): readies and credits,
Ebb, Flood, lateness, sends and receives, and the verdict's reduction. -/

namespace Sys2Proof.Machine

/-! ## A fired collective -/

/-- A collective that has just fired. -/
def CollState.fresh (late : Bool) : CollState :=
  { started := false, late := late, readies := [], credits := [], own := [], partials := [], landed := [], passed := [], queue := [], inbox := [],
    skip := 0, served := [], waited := false, origin := 0xFFFF, ends := [], rows := [], sent := 0, reported := [], verdict := none, queried := none }

/-- Run a body for a running collective of one of the operations listed, with its plan. -/
def Block.onColl (b : Block) (t : TaskRef) (ops : List Nat) (f : Graph → TaskCtx → CollState → Plan → Block) : Block :=
  match b.graph t.half t.graph, b.task t with
  | some g, some c =>
    if c.phase = .running ∧ c.desc.isColl ops then
      match c.coll, b.plan t.half g.slot c.desc.coPlan with
      | some x, some p => f g c x p
      | _, _ => b
    else b
  | _, _ => b

/-- A block with a collective's state changed. -/
def Block.modColl (b : Block) (t : TaskRef) (f : CollState → CollState) : Block := b.modTask t (fun c => { c with coll := c.coll.map f })

/-- Count a packet that matches no fired task (R350). -/
def Block.countStray (b : Block) (h : HalfId) : Block := b.count (colReg h 0x200) 63 32 1

/-- The fired, running collective that a packet matches by JOB_ID, STEP and PHASE (R350). -/
def Block.collMatch (b : Block) (h : HalfId) (p : Packet) (ops : List Nat) : Option TaskRef :=
  ((b.tasksOf h).find? (fun x => x.2.1.job = pkJob p && x.2.1.step = pkStep p && x.2.2.phase = .running && x.2.2.coll.isSome &&
    x.2.2.desc.isColl ops && x.2.2.desc.coPhase = pkPhase p)).map (fun x => x.1)

/-- Whether a task that a packet would match has fired and ended already, in a step that is not about to be repeated. -/
def Block.collOver (b : Block) (h : HalfId) (p : Packet) : Bool :=
  (b.tasksOf h).any (fun x => x.2.1.job = pkJob p && x.2.1.step = pkStep p && x.2.2.fired && x.2.2.phase ≠ .running && x.2.2.desc.type = 0x08 &&
    x.2.2.desc.coPhase = pkPhase p && !((b.half h).steps.any (fun r => r.slot = x.2.1.slot && decide (r.step ≤ x.2.1.step) && r.repeating)))

/-- Send a collective or token-travel packet of a task; an endpoint that cannot be reached ends it (R321). -/
def Block.collSend (b : Block) (t : TaskRef) (g : Graph) (d : TaskDesc) (p : Plan) (ep cls op origin block : Nat) (payload : List Byte) : Block :=
  if b.routable t.half ep cls then
    (b.countCut t.half p.cut ep payload.length).send t.half ep g.job cls op 0 (collWord g.step d.coPhase origin) block payload
  else b.fail t stEndpointLost ep

/-! ## Readies and credits (R350, R371, R373) -/

/-- The blocks that a task's Cove units stage. -/
def TaskCtx.coStage (c : TaskCtx) : Nat := c.desc.coveUnits * 65536 * c.cores.length / c.desc.coBytes

/-- Readies sent one after another: 8 bytes of CRC and credit, or for token travel none (DESIGN CHOICE, log entry 52). -/
def Block.sendReadies (b : Block) (t : TaskRef) (g : Graph) (c : TaskCtx) (p : Plan) (n : Nat) : List Nat → Block
  | [] => b
  | ep :: l =>
    let x := if c.desc.coOp = 4 ∨ c.desc.coOp = 6 then b.collSend t g c.desc p ep 3 3 (b.endpoint t.half) 0 []
      else b.collSend t g c.desc p ep 2 3 0xFFFF 0 (leBytes 4 (c.coCrc g.step) ++ leBytes 4 n)
    x.sendReadies t g c p n l

/-- A ready from a position, or from an endpoint for token travel: one whose CRC differs ends the task (R347). -/
def Block.takeReady (b : Block) (t : TaskRef) (q : Packet) : Block :=
  b.onColl t [0, 1, 2, 3, 5, 7, 9] (fun g c _ p =>
    if pkClass q = 3 then b.modColl t (fun x => { x with readies := x.readies ++ [pkSrc q] })
    else
      let i := p.eps.idxOf (pkSrc q)
      if p.n ≤ i ∨ (c.desc.coOp = 7 ∧ i ≠ c.desc.coPeer) then b.countStray t.half
      else if q.payload.length ≠ 8 then b.count (efReg t.half 0x18) 63 48 1
      else if leNat (q.payload.take 4) ≠ c.coCrc g.step then (b.count (colReg t.half 0x200) 15 0 1).fail t stAdmission 96
      else b.modColl t (fun x => { x with
        readies := x.readies ++ [i], credits := tabPut x.credits i (tabGet 0 x.credits i + leNat (q.payload.drop 4)),
        queue := x.queue ++ x.served.filter (fun o => o.dest = i), served := x.served.filter (fun o => o.dest ≠ i) }))

/-- Readies taken one after another. -/
def Block.takeReadies (b : Block) (t : TaskRef) : List Packet → Block
  | [] => b
  | q :: l => (b.takeReady t q).takeReadies t l

/-- Whether a half holds an early ready for a task. -/
def earlyFor (g : Graph) (d : TaskDesc) (q : Packet) : Bool :=
  pkJob q = g.job && pkStep q = g.step && pkPhase q = d.coPhase && pkClass q = (if d.coOp = 3 || d.coOp = 5 then 3 else 2)

/-- A collective task has fired (R350, R371-R373): a strict participant that fires after DEADLINE ends at once; any other sends its readies
and takes those that came before it. -/
def Block.collFire (b : Block) (t : TaskRef) : Block :=
  match b.graph t.half t.graph, b.task t with
  | some g, some c =>
    match b.plan t.half g.slot c.desc.coPlan with
    | none => b
    | some p =>
      let d := c.desc
      let late := d.coDeadline ≠ 0 && decide (d.coDeadline < c.fireTide)
      if late ∧ ¬ d.lenient ∧ (d.coOp ≤ 2 ∨ d.coOp = 7 ∨ d.coOp = 8) then b.fail t stDeadlineLate (b.endpoint t.half)
      else
        let b1 := b.modTask t (fun c => { c with coll := some (CollState.fresh (late && d.lenient)) })
        let to_ := if d.coOp ≤ 2 ∨ d.coOp = 9 then (p.readyTo d.lenient).map (fun i => p.eps.getD i 0)
          else if d.coOp = 8 then [p.eps.getD d.coPeer 0] else if d.coOp = 4 ∨ d.coOp = 6 then p.eps else []
        let b2 := b1.sendReadies t g c p (c.coStage / max 1 to_.length) to_
        let early := (b2.half t.half).early.filter (earlyFor g d)
        if d.coOp = 4 ∨ d.coOp = 6 ∨ d.coOp = 8 then b2
        else (b2.modHalf t.half (fun x => { x with early := x.early.filter (fun q => !(earlyFor g d q)) })).takeReadies t early
  | _, _ => b

/-! ## Sending (R350) -/

/-- The blocks at the head of a destination's queue that make one packet: blocks of one shard, as many as a packet holds. -/
def packetBlocks (d : TaskDesc) (first : Nat) : List CollOut → List CollOut
  | [] => []
  | o :: l =>
    let per := if d.coRaw then 1 else if d.coWire = 1 then 64 else if d.coClove = 2 then 102 else 62
    let rec more (n size prev : Nat) : List CollOut → List CollOut
      | [] => []
      | x :: xs =>
        if x.shard = o.shard ∧ x.flood = o.flood ∧ x.block = prev + 1 ∧
            (if d.coClove = 1 then size + x.bytes.length ≤ 4096 else (o.block - first) / per = (x.block - first) / per) ∧ n < 4096 then
          x :: more (n + 1) (size + x.bytes.length) x.block xs
        else []
    o :: more 1 o.bytes.length o.block l

/-- The first destination whose next packet its credits allow. -/
def CollState.sendable (x : CollState) (d : TaskDesc) (p : Plan) (nb : Nat) : Option (List CollOut) :=
  ((x.queue.map (fun o => o.dest)).eraseDups).findSome? (fun i =>
    let l := x.queue.filter (fun o => o.dest = i)
    match l with
    | [] => none
    | o :: _ =>
      let k := packetBlocks d (p.locate nb o.block).first l
      if k.length ≤ tabGet 0 x.credits i then some k else none)

/-- A task sends what its credits allow (R350). -/
def Block.collPump (b : Block) (t : TaskRef) : Nat → Block
  | 0 => b
  | fuel + 1 => b.onColl t [0, 1, 2, 9] (fun g c x p =>
    match x.sendable c.desc p c.coNb with
    | none => b
    | some k => match k with
      | [] => b
      | o :: _ =>
        let org := (k.map (fun y => y.origin)).foldl min 0xFFFF
        let b1 := b.modColl t (fun y => { y with
          queue := y.queue.filter (fun z => !(k.contains z)), credits := tabPut y.credits o.dest (tabGet 0 y.credits o.dest - k.length) })
        (b1.collSend t g c.desc p (p.eps.getD o.dest 0) 2 (if o.flood then 2 else 1) org o.block ((k.map (fun y => y.bytes)).flatten)).collPump t fuel)

/-- Whether everything of a task that this position owes is sent, and what it needs has landed (R355, R372, R373, R378). -/
def collComplete (c : TaskCtx) (x : CollState) (p : Plan) : Bool :=
  let nb := c.coNb
  let mine (i : Nat) : Bool :=
    let y := p.locate nb i
    let away := (y.q + p.g - p.place) % p.g
    (y.u = p.group && away = 0) || (p.h = 1 && decide (away ≤ x.skip))
  let need := if c.desc.coOp = 1 then (List.range nb).filter mine else List.range nb
  let links := if c.desc.coOp ≤ 1 ∧ ¬ x.late then
      (List.range nb).all (fun i => x.passed.contains (2 * i) && ((p.locate nb i).q ≠ p.place || p.h = 1 || x.passed.contains (2 * i + 1)))
    else true
  let skipped := (List.range x.skip).map (fun i => p.next1 (i + 1))
  x.started && need.all (fun i => x.landed.contains i) && links && x.queue.isEmpty &&
    (x.skip = 0 || x.waited || (x.served.isEmpty && skipped.all (fun i => x.readies.contains i)))

/-- A collective that is complete merges its capture and ends with ST_OK (R356, R378). -/
def Block.collFinish (b : Block) (t : TaskRef) : Block :=
  b.onColl t [0, 1, 2, 9] (fun g c x p =>
    if collComplete c x p then
      let st := c.counts
      let words : List Word := [g.step % 2 ^ 32 * 2 ^ 32 + st.maxAbs, st.nonzero, st.underflow, st.underflow5, st.nf, st.ovf, x.origin * 65536 + 3, 1].map
        (fun w => BitVec.ofNat 64 w)
      (b.modTask t (fun c => { c with stats := if c.desc.coStatEn then [{ slot := Fin.ofNat 4096 c.desc.coStatSlot, words := words }] else [] })).fix t stOk 0
    else b)

/-- Send what can be sent, then end if complete. -/
def Block.collGo (b : Block) (t : TaskRef) : Block :=
  (b.collPump t (((b.task t).bind (fun c => c.coll)).map (fun x => x.queue.length + 1) |>.getD 0)).collFinish t

/-! ## A block's way (R348, R349, R353, R355) -/

/-- Counts of a post-reduction capture (R71): underflow is tried in MXFP8 E4M3 and E5M2, block by block. -/
def postStats (vs : List Val) (ovf : Nat) : ConvStats :=
  let one (c : List Val) : ConvStats :=
    let z4 := (toMx 0x03 false [] c).zero
    let z5 := (toMx 0x04 false [] c).zero
    ((c.zip (z4.zip z5)).map (fun q =>
      let s := countVal q.1 q.2.1 false
      { s with underflow5 := (countVal q.1 q.2.2 false).underflow })).foldl ConvStats.add ConvStats.zero
  { ((chunks 32 (vs.length + 1) vs).map one).foldl ConvStats.add ConvStats.zero with ovf := ovf }

/-- Slot 1 of a task, shifted into its window (R361). -/
def Block.coDest (b : Block) (h : HalfId) (k : Nat) (c : TaskCtx) : Tensor :=
  let t := c.tensor 1
  if c.desc.coOp = 2 ∧ c.desc.coWin then { t with base := t.base + (b.coWindow h k c).getD 0 } else t

/-- Final bytes of a block written into slot 1 (R355). -/
def Block.coLandCells (b : Block) (a : Access) (k : Nat) (c : TaskCtx) (i : Nat) (l : List Byte) : Res Stored :=
  let d := c.desc
  let t := b.coDest a.half k c
  if d.coRaw then (b.wrRaw a t (4096 * i) l).map (fun cs => { cells := cs, stats := ConvStats.zero })
  else
    let r := d.coRow t i
    let vs := d.coValues (d.coCount t i) l
    if d.coWire = 0 ∧ d.coClove = 0 ∧ t.fmt = 0x0E then
      (b.rowCellsAt a t r.1 r.2 { codes := (readMantissas l 32).map (twos 16), scales := [leNat (l.drop 64)], stats := ConvStats.zero }).map
        (fun cs => { cells := cs, stats := postStats vs 0 })
    else
      let o := convVals a t r.1 r.2 vs
      (b.rowCellsAt a t r.1 r.2 o).map (fun cs => { cells := cs, stats := postStats vs o.stats.ovf })

/-- A final block lands in slot 1 and is noted. -/
def Block.coLand (b : Block) (t : TaskRef) (i : Nat) (l : List Byte) (origin : Nat) : Block :=
  b.onColl t [0, 1, 2, 9] (fun g c _ _ =>
    match b.coLandCells (b.taskAccess t.half g c) g.slot c i l with
    | .error e => b.stop t e
    | .ok st =>
      let r := b.landCells st.cells
      match r.2 with
      | some a => r.1.failStop t (.bad a)
      | none => (r.1.modTask t (fun c => { c with counts := c.counts.add st.stats })).modColl t (fun x => { x with
          landed := x.landed ++ [i], origin := min x.origin origin }))

/-- A final block goes on in Flood (R349, R355, R373): from its owner (`mine`), or forwarded. -/
def Block.floodOn (b : Block) (t : TaskRef) (i : Nat) (l : List Byte) (origin : Nat) (mine : Bool) : Block :=
  b.onColl t [0, 2, 9] (fun _ c x p =>
    let y := p.locate c.coNb i
    let out (to_ : Nat) : CollOut := { dest := to_, flood := true, shard := p.owner y, block := i, bytes := l, origin := origin }
    let step := 1 + x.skip
    let away := (y.q + p.g - p.place) % p.g
    let two := if 1 < p.h ∧ y.q = p.place ∧ (mine ∨ (p.group + 1) % p.h ≠ y.u) then [out p.next2] else []
    let on := if mine then decide (step < p.g) else if away = 0 then true else decide (step < away)
    let one := if 1 < p.g ∧ on then [out (p.next1 step)] else []
    let skips := (List.range x.skip).map (fun j => out (p.next1 (j + 1)))
    if x.late then b
    else b.modColl t (fun x => { x with
      queue := x.queue ++ two ++ one ++ skips.filter (fun o => x.readies.contains o.dest),
      served := x.served ++ skips.filter (fun o => !(x.readies.contains o.dest)) }))

/-- The verdict that a combined block gives (R378 step 1, R380). -/
def Block.decideVerdict (b : Block) (h : HalfId) (k n : Nat) (l : List Byte) : List Byte :=
  let v := parseVerdict l
  let code := if bit v.w0 3 ∨ bit v.w0 2 ∨ bits v.w1 31 0 ≠ n then 2 else if bit v.w0 0 ∨ bit v.w0 1 then 1 else 0
  ({ v with w0 := v.w0 + code * 2 ^ 30, w3 := if code = 2 then 0 else b.scaleAfter h k code * 2 ^ 32 } : Verdict).bytes

/-- A journal record's first fields (R387); the leader fills SEQ, TIDE and CRC. -/
def journalDraft (kind job step arg0 arg1 : Nat) : List Byte :=
  leBytes 8 0 ++ leBytes 8 (kind * 2 ^ 56 + job % 4096 * 2 ^ 44 + step % 2 ^ 32) ++ leBytes 8 arg0 ++ leBytes 8 arg1 ++ List.replicate 32 0

/-- The run of a step that a half is in (R381). -/
def Block.runOf (b : Block) (h : HalfId) (k step : Nat) : Nat := ((b.stepRecord h k step).map (fun r => r.repeats)).getD 0

/-- The owner sends the header words of its verdict to the leader (R378 step 2), with the run of the step (DESIGN CHOICE, log entry 48). -/
def Block.appendVerdict (b : Block) (t : TaskRef) : Block :=
  b.onColl t [9] (fun g _ x _ => match x.verdict with
    | none => b
    | some l =>
      let v := parseVerdict l
      b.tellLeader t.half 0x12 (journalDraft 1 g.job g.step v.w0 v.w1 ++ leBytes 8 (1 + 256 * b.runOf t.half g.slot g.step)))

/-- A block is final at its owner. -/
def Block.ownFinal (b : Block) (t : TaskRef) (i : Nat) (l : List Byte) (origin : Nat) : Block :=
  b.onColl t [0, 1, 2, 9] (fun g c _ p =>
    if c.desc.coOp = 9 then
      (b.modColl t (fun x => { x with verdict := some (b.decideVerdict t.half g.slot p.n l) })).appendVerdict t
    else (b.coLand t i l origin).floodOn t i l origin true)

/-- A non-finite block was made or received (R354, R367, R370). -/
def Block.noteBlock (b : Block) (t : TaskRef) (g : Graph) (origin : Nat) (made : Bool) : Block :=
  let b1 := b.noteNf t.half g.slot g.step origin
  if made then b1.count (colReg t.half 0x200) 31 16 1 else b1

/-- A level-2 link's output (R349). -/
def Block.emit2 (b : Block) (t : TaskRef) (i : Nat) (l : List Byte) (origin : Nat) : Block :=
  b.onColl t [0, 1, 9] (fun _ c _ p =>
    let y := p.locate c.coNb i
    let b1 := b.modColl t (fun x => { x with passed := x.passed ++ [2 * i + 1] })
    if y.u = p.group then b1.ownFinal t i l origin
    else b1.modColl t (fun x => { x with queue := x.queue ++
      [{ dest := p.next2, flood := false, shard := p.owner y, block := i, bytes := l, origin := origin }] }))

/-- One chain link: `x` comes in with its origin, `y` is this position's with its own. The output is noted (R353, R354). -/
def Block.collLink (b : Block) (t : TaskRef) (i : Nat) (x y : List Byte × Nat) : (List Byte × Nat) × Block :=
  match b.graph t.half t.graph, b.task t with
  | some g, some c =>
    let d := c.desc
    let r := d.coLink (d.coCount (c.tensor 0) i) x.1 y.1
    let nx := d.coNf x.1
    let ny := d.coNf y.1
    let origin := if d.coNf r.1 then
        (if nx ∨ ny then min (if nx then x.2 else 0xFFFF) (if ny then y.2 else 0xFFFF) else b.endpoint t.half) else 0xFFFF
    let b1 := if r.2 then b.modReg (colReg t.half 0x208) (fun w => satAdd w 63 0 1) else b
    ((r.1, origin), if d.coNf r.1 then b1.noteBlock t g origin (!nx && !ny) else b1)
  | _, _ => (x, b)

/-- A level-1 result enters level 2 (R349): the ring of one group is done with it. -/
def Block.levelOne (b : Block) (t : TaskRef) (i : Nat) (l : List Byte) (origin : Nat) : Block :=
  b.onColl t [0, 1, 9] (fun _ c x p =>
    let y := p.locate c.coNb i
    if p.h = 1 then b.ownFinal t i l origin
    else if (y.u + 1) % p.h = p.group then b.emit2 t i l origin
    else match tabFind x.partials (2 * i + 1) with
      | some z =>
        let r := b.collLink t i z (l, origin)
        (r.2.modColl t (fun x => { x with partials := tabDel x.partials (2 * i + 1) })).emit2 t i r.1.1 r.1.2
      | none => b.modColl t (fun x => { x with partials := tabPut x.partials (2 * i) (l, origin) }))

/-- A level-1 link's output: sent on, or, at its owner or one that stands in for a skipped owner, the level-1 result (R348, R373). -/
def Block.emit1 (b : Block) (t : TaskRef) (i : Nat) (l : List Byte) (origin : Nat) : Block :=
  b.onColl t [0, 1, 9] (fun _ c x p =>
    let y := p.locate c.coNb i
    let away := (y.q + p.g - p.place) % p.g
    let b1 := b.modColl t (fun x => { x with passed := x.passed ++ [2 * i] })
    if away = 0 ∨ away ≤ x.skip then b1.levelOne t i l origin
    else b1.modColl t (fun z => { z with queue := z.queue ++
      [{ dest := p.next1 (1 + x.skip), flood := false, shard := p.owner y, block := i, bytes := l, origin := origin }] }))

/-- This position's own contribution to a block, with its origin. -/
def Block.ownBlock (b : Block) (h : HalfId) (d : TaskDesc) (x : CollState) (i : Nat) : List Byte × Nat :=
  let l := x.own.getD i []
  (l, if d.coNf l then b.endpoint h else 0xFFFF)

/-- The chains of shard `q` begin here (R348, R373). -/
def Block.startChain (b : Block) (t : TaskRef) (q : Nat) : List Nat → Block
  | [] => b
  | i :: l =>
    (b.onColl t [0, 1, 9] (fun _ c x p =>
      if (p.locate c.coNb i).q = q ∧ ¬ x.passed.contains (2 * i) then
        let o := b.ownBlock t.half c.desc x i
        b.emit1 t i o.1 o.2
      else b)).startChain t q l

/-! ## Beginning (R352, R358, R374) -/

/-- The address of a hold header: after slot 4's last exponent-and-flags pair (R374). -/
def holdVa (t : Tensor) : Nat := t.base + t.scaleOff + 2 * (cdiv (t.cap 0) 32 * (t.cap 1 * t.cap 2 * t.cap 3 * t.cap 4))

/-- What a half does with a hold (R374). -/
inductive HoldUse where
  | fold
  | drop
  | ignore
deriving DecidableEq, Repr

/-- The use of a hold whose header is `w` at a step. -/
def Block.holdUse (b : Block) (h : HalfId) (k step w : Nat) : HoldUse :=
  let held := bits w 63 32
  if ¬ bit w 0 ∨ step ≤ held then .ignore
  else if step - held ≤ b.regFld (gateReg h (0x80 + 8 * k)) 2 0 then .fold else .drop

/-- The FP32 values of a block before packing: slot 0, with a hold folded in, with the residual added (R352, R358, R374). -/
def Block.coSource (b : Block) (a : Access) (c : TaskCtx) (fold : Bool) (i : Nat) : Res (List Nat) :=
  let d := c.desc
  match b.coVals a d (c.tensor 0) i with
  | .error e => .error e
  | .ok xs =>
    match (if fold then (b.coVals a d (c.tensor 4) i).map (fun ys => (ys.zip xs).map (fun p => addF p.1 p.2)) else .ok xs) with
    | .error e => .error e
    | .ok ys =>
      if d.coClove ≠ 0 then (b.coVals a d (c.tensor 2) i).map (fun rs => (ys.zip rs).map (fun p => addF p.1 p.2)) else .ok ys

/-- What a task makes of its slots at its beginning. -/
structure Contribution where
  own : List (List Byte)
  raises : Nat
  /-- residuals, or a late task's hold -/
  cells : List Host.Cell
deriving DecidableEq, Repr

/-- One block of a contribution. -/
def Block.contribute1 (b : Block) (a : Access) (c : TaskCtx) (E : Nat) (fold late : Bool) (i : Nat) : Res (Made × List Host.Cell) :=
  let d := c.desc
  if d.coRaw then
    let t := c.tensor 0
    (b.rdRaw a t (4096 * i) (min 4096 (t.rawTotal t.exts - 4096 * i))).map (fun l => ((l, false), []))
  else if d.coOp = 2 ∧ d.coWire = 0 ∧ (c.tensor 0).fmt = 0x0E then
    let t := c.tensor 0
    let r := d.coRow t i
    match mapRes (fun j => if r.2 + j < t.ext 0 then b.elemCode a t (r.2 + j) r.1 else .ok 0) (List.range 32) with
    | .error e => .error e
    | .ok cs => (b.rdNat a 0 (t.scaleVa r.1 (r.2 / 32)) 2).map (fun s =>
      let l := (cs.map (fun x => leBytes 2 x)).flatten ++ leBytes 2 s
      ((if (parseW16 l).nf ∧ ¬ bit s 15 then w16Bytes { ms := List.replicate 32 0, e := 255, nf := true, rescales := bits s 13 8 } else l, false), []))
  else match b.coSource a c fold i with
    | .error e => .error e
    | .ok xs =>
      let m := d.coPack E xs
      if late then
        let t := c.tensor 4
        let r := d.coRow t i
        (b.rowCellsAt a t r.1 r.2 { codes := (readMantissas m.1.1 32).map (twos 16), scales := [leNat (m.1.1.drop 64)], stats := ConvStats.zero }).map
          (fun cs => (m.1, cs))
      else if d.coClove ≠ 0 then
        let t := c.tensor 3
        let r := d.coRow t i
        (b.rowCellsAt a t r.1 r.2 { codes := (xs.zip m.2).map (fun p => residual p.1 p.2), scales := [], stats := ConvStats.zero }).map (fun cs => (m.1, cs))
      else .ok (m.1, [])

/-- A whole contribution: every block, or for an all-gather those of this position's shard (R346). -/
def Block.contribute (b : Block) (a : Access) (c : TaskCtx) (p : Plan) (E : Nat) (fold late : Bool) : Res Contribution :=
  match mapRes (fun i => if c.desc.coOp = 2 ∧ p.owner (p.locate c.coNb i) ≠ p.own then .ok (([], false), [])
      else b.contribute1 a c E fold late i) (List.range c.coNb) with
  | .error e => .error e
  | .ok l => .ok { own := l.map (fun x => x.1.1), raises := (l.filter (fun x => x.1.2)).length, cells := (l.map (fun x => x.2)).flatten }

/-- Own blocks that are non-finite are noted (R354). -/
def Block.noteOwn (b : Block) (t : TaskRef) (g : Graph) (d : TaskDesc) : List (List Byte) → Block
  | [] => b
  | l :: ls => (if d.coNf l then b.noteBlock t g (b.endpoint t.half) true else b).noteOwn t g d ls

/-- Blocks of an all-gather's own shard go out. -/
def Block.startFlood (b : Block) (t : TaskRef) : List Nat → Block
  | [] => b
  | i :: l =>
    (b.onColl t [2] (fun _ c x p =>
      if p.owner (p.locate c.coNb i) = p.own then
        let o := b.ownBlock t.half c.desc x i
        b.ownFinal t i o.1 o.2
      else b)).startFlood t l

/-- The chains that begin at this position. -/
def Block.startChains (b : Block) (t : TaskRef) : Block :=
  b.onColl t [0, 1, 2, 9] (fun _ c x p =>
    let is := List.range c.coNb
    if x.late then b
    else if c.desc.coOp = 2 then b.startFlood t is
    else b.startChain t ((p.place + p.g - 1) % p.g) is)

/-- A lenient task's hold header is read (R374): what becomes of it, and the header. -/
def Block.readHold (b : Block) (a : Access) (g : Graph) (c : TaskCtx) : Res (HoldUse × Nat) :=
  if c.desc.lenient then (b.rdNat a 4 (holdVa (c.tensor 4)) 8).map (fun w => (b.holdUse a.half g.slot g.step w, w)) else .ok (.ignore, 0)

/-- What becomes of a hold is counted and noted for the verdict (R374). -/
def Block.noteHold (b : Block) (t : TaskRef) (g : Graph) (c : TaskCtx) (late : Bool) (u : HoldUse) (w : Nat) : Block :=
  let va := holdVa (c.tensor 4)
  let note (b : Block) (used : Bool) : Block := b.modStep t.half g.slot g.step (fun r => { r with holds := r.holds ++ [(va, used)] })
  if ¬ c.desc.lenient then b
  else if late then note (if bit w 0 then b.count (gateReg t.half 8) 7 0 1 else b) false
  else match u with
    | .fold => note (b.count (gateReg t.half 8) 15 8 1) true
    | .drop => note (b.count (gateReg t.half 8) 7 0 1) true
    | .ignore => b

/-- A collective begins: its slots are read, its residual or hold is written, and the chains that begin here go out (R352, R358, R374).
Packets that came first follow in `Block.collBegin`. -/
def Block.collStart (b : Block) (t : TaskRef) : Block :=
  b.onColl t [0, 1, 2, 9] (fun g c x p =>
    if x.started then b
    else
      let a := b.taskAccess t.half g c
      match b.readHold a g c with
      | .error e => b.stop t e
      | .ok (u, w) =>
        let E := b.coInit t.half g c.desc
        match b.contribute a c p E (u = .fold && !x.late) x.late with
        | .error e => b.stop t e
        | .ok r =>
          let hd := if x.late then b.wrCells a 4 (holdVa (c.tensor 4)) (leBytes 8 (g.step * 2 ^ 32 + 1) ++ leBytes 8 0) else .ok []
          match hd with
          | .error e => b.stop t e
          | .ok hs =>
            let q := (b.touch t g c).landCells (r.cells ++ hs)
            match q.2 with
            | some addr => q.1.failStop t (.bad addr)
            | none =>
              let b1 := (q.1.modReg (colReg t.half 0x208) (fun v => satAdd v 63 0 r.raises)).noteOwn t g c.desc r.own
              (((b1.noteHold t g c x.late u w).modColl t (fun y => { y with started := true, own := r.own })).startChains t))

/-! ## Ebb and Flood arrive -/

/-- The blocks that a packet carries: none when its payload is not whole blocks. -/
def packetParts (d : TaskDesc) (first : Nat) : Nat → List Byte → Option (List (Nat × List Byte))
  | 0, l => if l.isEmpty then some [] else none
  | fuel + 1, l =>
    if l.isEmpty then some []
    else
      let n := if d.coRaw then l.length else if d.coClove = 1 then topKLength l else d.coBytes
      if l.length < n ∨ n = 0 then none else (packetParts d (first + 1) fuel (l.drop n)).map (fun r => (first, l.take n) :: r)

/-- One Ebb block arrives (R353). -/
def Block.ebbBlock (b : Block) (t : TaskRef) (two : Bool) (origin i : Nat) (l : List Byte) : Block :=
  b.onColl t [0, 1, 9] (fun g c x _ =>
    let b0 := if c.desc.coNf l then b.noteBlock t g origin false else b
    let inc := (l, if c.desc.coNf l then origin else 0xFFFF)
    if two then
      if x.passed.contains (2 * i + 1) then b0
      else match tabFind x.partials (2 * i) with
        | some z =>
          let r := b0.collLink t i inc z
          (r.2.modColl t (fun x => { x with partials := tabDel x.partials (2 * i) })).emit2 t i r.1.1 r.1.2
        | none => b0.modColl t (fun x => { x with partials := tabPut x.partials (2 * i + 1) inc })
    else if x.passed.contains (2 * i) then b0
    else
      let r := b0.collLink t i inc (b0.ownBlock t.half c.desc x i)
      r.2.emit1 t i r.1.1 r.1.2)

/-- Ebb blocks arrive in order. -/
def Block.ebbBlocks (b : Block) (t : TaskRef) (two : Bool) (origin : Nat) : List (Nat × List Byte) → Block
  | [] => b
  | x :: l => (b.ebbBlock t two origin x.1 x.2).ebbBlocks t two origin l

/-- The chains that skipped positions would have begun begin here (R373). -/
def Block.startSkipped (b : Block) (t : TaskRef) (nb place g : Nat) : List Nat → Block
  | [] => b
  | j :: l => (b.startChain t ((place + 2 * g - j - 1) % g) (List.range nb)).startSkipped t nb place g l

/-- A flooded block arrives (R355). The verdict's block waits for `Block.verdictLands`. -/
def Block.floodBlock (b : Block) (t : TaskRef) (origin i : Nat) (l : List Byte) : Block :=
  b.onColl t [0, 2] (fun g c x _ =>
    if x.landed.contains i then b
    else
      let nf := c.desc.coNf l
      let o := if nf then origin else 0xFFFF
      ((if nf then b.noteBlock t g origin false else b).coLand t i l o).floodOn t i l o false)

/-- Flooded blocks arrive in order. -/
def Block.floodBlocks (b : Block) (t : TaskRef) (origin : Nat) : List (Nat × List Byte) → Block
  | [] => b
  | x :: l => (b.floodBlock t origin x.1 x.2).floodBlocks t origin l

/-- The result of OP 9 reaches this endpoint (R378, R379): slot 1 is written, the block goes on, the task ends with ST_OK, and the half acts on
the verdict. `mine` at the owner; `on` is false for a leader's answer. -/
def Block.verdictLands (b : Block) (t : TaskRef) (l : List Byte) (mine on : Bool) : Block :=
  b.onColl t [9] (fun g _ x _ =>
    if x.landed.contains 0 then b
    else
      let b1 := b.coLand t 0 l 0xFFFF
      let b2 := if on then b1.floodOn t 0 l 0xFFFF mine else b1.modColl t (fun x => { x with started := true, queue := [] })
      if b1.isRunning t then ((b2.modColl t (fun x => { x with verdict := none })).collGo t).applyVerdict t.half g.slot (parseVerdict l) else b1)

/-- An Ebb or Flood packet of a started task. -/
def Block.takeBlocks (b : Block) (t : TaskRef) (q : Packet) : Block :=
  b.onColl t [0, 1, 2, 9] (fun g c x p =>
    let i := p.eps.idxOf (pkSrc q)
    let away := (p.own + p.n - i) % p.n
    let ring := p.h = 1
    let near := ring && (away = 1 || (c.desc.lenient && decide (1 < away) && decide (away ≤ 4)))
    let two := !ring && i / p.g ≠ p.group
    match packetParts c.desc (pkBlock q) 4096 q.payload with
    | none => b.countStray t.half
    | some parts =>
      if p.n ≤ i ∨ i = p.own ∨ (ring ∧ ¬ near) ∨ (¬ ring ∧ (if two then i ≠ p.prev2 1 else i ≠ p.prev1 1)) ∨
          parts.any (fun x => decide (c.coNb ≤ x.1)) ∨ (pkOp q = 1 ∧ c.desc.coOp = 2) ∨ (pkOp q = 2 ∧ c.desc.coOp = 1) then b.countStray t.half
      else
        let b1 := b.collSend t g c.desc p (pkSrc q) 2 4 0xFFFF 0 (leBytes 4 parts.length)
        let b2 := if ring ∧ 1 < away ∧ c.desc.coOp ≤ 1 ∧ ¬ x.late then b1.startSkipped t c.coNb p.place p.g ((List.range (away - 1)).map (fun j => j + 1)) else b1
        if pkOp q = 1 then b2.ebbBlocks t two (pkOrigin q) parts
        else if c.desc.coOp = 9 then (match parts with
          | x :: _ => b2.verdictLands t x.2 false true
          | [] => b2)
        else b2.floodBlocks t (pkOrigin q) parts)

/-- An Ebb or Flood packet of a task: kept until the task has begun. -/
def Block.collTake (b : Block) (t : TaskRef) (q : Packet) : Block :=
  b.onColl t [0, 1, 2, 9] (fun _ _ x _ =>
    if x.started then (b.takeBlocks t q).collGo t else b.modColl t (fun x => { x with inbox := x.inbox ++ [q] }))

/-- Kept packets taken in order. -/
def Block.collDrain (b : Block) (t : TaskRef) : List Packet → Block
  | [] => b
  | q :: l => (b.collTake t q).collDrain t l

/-- A collective task runs: it begins, and takes what came before. -/
def Block.collBegin (b : Block) (t : TaskRef) : Block :=
  let b1 := b.collStart t
  b1.onColl t [0, 1, 2, 9] (fun _ _ x _ =>
    if x.started then ((b1.modColl t (fun y => { y with inbox := [] })).collDrain t x.inbox).collGo t else b1)

/-- ALL_REDUCE (R346): collective OP 0. -/
def execAllReduce (t : TaskRef) (s : State) : Host.Outcome State Fault Refusal := s.act (fun b => b.onMode t 0x08 0 (fun _ _ => b.collBegin t))

/-- REDUCE_SCATTER (R346): collective OP 1. -/
def execReduceScatter (t : TaskRef) (s : State) : Host.Outcome State Fault Refusal := s.act (fun b => b.onMode t 0x08 1 (fun _ _ => b.collBegin t))

/-- ALL_GATHER (R346, R361): collective OP 2. -/
def execAllGather (t : TaskRef) (s : State) : Host.Outcome State Fault Refusal := s.act (fun b => b.onMode t 0x08 2 (fun _ _ => b.collBegin t))

/-- VERDICT_REDUCTION (R378): collective OP 9. -/
def execVerdictReduction (t : TaskRef) (s : State) : Host.Outcome State Fault Refusal :=
  s.act (fun b => b.onMode t 0x08 9 (fun _ _ => b.collBegin t))

/-- EBB (R353): partial blocks are added to the local contribution and sent on, or owned at the chain's end. -/
def execEbb (h : HalfId) (p : Packet) (s : State) : Host.Outcome State Fault Refusal :=
  s.act (fun b => b.receive h p 2 [1] (fun b => match b.collMatch h p [0, 1, 2, 9] with
    | some t => b.collTake t p
    | none => b.countStray h))

/-- FLOOD (R355): final blocks are written into slot 1 and forwarded. -/
def execFlood (h : HalfId) (p : Packet) (s : State) : Host.Outcome State Fault Refusal :=
  s.act (fun b => b.receive h p 2 [2] (fun b => match b.collMatch h p [0, 1, 2, 9] with
    | some t => b.collTake t p
    | none => b.countStray h))

/-! ## Send and receive (R362) -/

/-- A send's blocks go out as its credits allow, then its end packet, and the task ends. -/
def Block.peerPump (b : Block) (t : TaskRef) : Nat → Block
  | 0 => b
  | fuel + 1 => b.onColl t [7] (fun g c x p =>
    let d := c.desc
    let z := c.tensor 0
    let total := if z.count = 0 then 0 else z.rawTotal z.exts
    let ep := p.eps.getD d.coPeer 0
    if ¬ x.started ∨ ¬ x.readies.contains d.coPeer then b
    else if 4096 * x.sent < total then
      if tabGet 0 x.credits d.coPeer = 0 then b
      else match b.rdRaw (b.taskAccess t.half g c) z (4096 * x.sent) (min 4096 (total - 4096 * x.sent)) with
        | .error e => b.stop t e
        | .ok l =>
          let b1 := b.modColl t (fun y => { y with sent := y.sent + 1, credits := tabPut y.credits d.coPeer (tabGet 0 y.credits d.coPeer - 1) })
          (b1.collSend t g d p ep 2 7 0xFFFF x.sent l).peerPump t fuel
    else
      (b.collSend t g d p ep 2 5 0xFFFF 0 (leBytes 8 total)).fix t (if total = 0 then stOkEmpty else stOk) (if total = 0 then c.emptyDetail.getD 0 else 0))

/-- Fuel for a send. -/
def Block.peerGo (b : Block) (t : TaskRef) : Block := b.peerPump t (((b.task t).map (fun c => c.coNb + 1)).getD 0)

/-- SEND_TO_PEER (R362): collective OP 7. -/
def execSendToPeer (t : TaskRef) (s : State) : Host.Outcome State Fault Refusal :=
  s.act (fun b => b.onMode t 0x08 7 (fun g c => ((b.touch t g c).modColl t (fun x => { x with started := true })).peerGo t))

/-- A receive ends once its end packet and every block have come (R362). -/
def Block.peerEnd (b : Block) (t : TaskRef) : Block :=
  b.onColl t [8] (fun g c x _ =>
    let z := c.tensor 0
    match tabFind x.ends 0 with
    | none => b
    | some n =>
      if z.rawTotal z.caps < n then b.fail t stShapeOver (n % 2 ^ 24 * 256)
      else if n = 0 then b.fix t stOkEmpty 0
      else if ¬ x.started ∨ ¬ (List.range (cdiv n 4096)).all (fun i => (tabFind x.partials i).isSome) then b
      else
        let l := (((List.range (cdiv n 4096)).map (fun i => ((tabFind x.partials i).map (fun p => p.1)).getD [])).flatten).take n
        (b.modTask t (fun c => { c with shapeOut := [n] })).finish t (b.wrRaw (b.taskAccess t.half g c) z 0 l) stOk 0)

/-- RECEIVE_FROM_PEER (R362): collective OP 8. -/
def execReceiveFromPeer (t : TaskRef) (s : State) : Host.Outcome State Fault Refusal :=
  s.act (fun b => b.onMode t 0x08 8 (fun g c => ((b.touch t g c).modColl t (fun x => { x with started := true })).peerEnd t))

/-- SEND_BLOCK (R362): one block of a send is staged, and its credit returns. -/
def execSendBlock (h : HalfId) (p : Packet) (s : State) : Host.Outcome State Fault Refusal :=
  s.act (fun b => b.receive h p 2 [7] (fun b => match b.collMatch h p [8] with
    | none => b.countStray h
    | some t => b.onColl t [8] (fun g c _ q =>
      if q.eps.getD c.desc.coPeer 0 ≠ pkSrc p then b.countStray h
      else ((b.modColl t (fun x => { x with partials := tabPut x.partials (pkBlock p) (p.payload, 0xFFFF) })).collSend t g c.desc q (pkSrc p) 2 4 0xFFFF 0
        (leBytes 4 1)).peerEnd t)))

/-- END (R362): a send's byte count completes its receive. -/
def execCollEnd (h : HalfId) (p : Packet) (s : State) : Host.Outcome State Fault Refusal :=
  s.act (fun b => b.receive h p 2 [5] (fun b => match b.collMatch h p [8] with
    | none => b.countStray h
    | some t => b.onColl t [8] (fun _ c _ q =>
      if q.eps.getD c.desc.coPeer 0 ≠ pkSrc p then b.countStray h
      else (b.modColl t (fun x => { x with ends := tabPut x.ends 0 (leNat (p.payload.take 8)) })).peerEnd t)))

/-! ## Token travel (R133-R136, R139) -/

/-- What a dispatch and a return have to send goes out to each destination whose ready has come; then the task ends. -/
def Block.travelPump (b : Block) (t : TaskRef) : Nat → Block
  | 0 => b
  | fuel + 1 => b.onColl t [3, 5] (fun g c x p =>
    if ¬ x.started then b
    else match x.queue.find? (fun o => x.readies.contains o.dest) with
      | none => if x.queue.isEmpty then b.fix t stOk 0 else b
      | some o =>
        ((b.modColl t (fun y => { y with queue := y.queue.erase o })).collSend t g c.desc p o.dest 3 (if o.flood then 2 else 1) (b.endpoint t.half) o.block
          o.bytes).travelPump t fuel)

/-- Fuel for token travel. -/
def Block.travelGo (b : Block) (t : TaskRef) : Block :=
  b.travelPump t (((b.task t).bind (fun c => c.coll)).map (fun x => x.queue.length + 1) |>.getD 0)

/-- The packets of one row: its chunks, numbered from `key` × n (R133, R135). -/
def Block.rowChunks (b : Block) (a : Access) (t : Tensor) (r : Row) (dest key : Nat) : Res (List CollOut) :=
  let n := t.wholeRow
  let k := cdiv n 4096
  mapRes (fun i => (mapRes (fun j => b.rd a t.slot (t.wholeRowVa r (4096 * i + j))) (List.range (min 4096 (n - 4096 * i)))).map (fun l =>
    ({ dest := dest, flood := false, shard := 0, block := key * k + i, bytes := l, origin := 0xFFFF } : CollOut))) (List.range k)

/-- A route record's fields (R132). -/
def recE (w : Nat) : Nat := bits w 31 22
def recAssigned (w : Nat) : Bool := bit w 21
def recSlot (w : Nat) : Nat := bits w 17 0

/-- The route records of slot 0: each token with its words. -/
def Block.readRecords (b : Block) (a : Access) (t : Tensor) : Res (List (Nat × Nat)) :=
  (mapRes (fun i => (mapRes (fun j => b.elemCode a t j (i, 0, 0, 0)) (List.range (t.ext 0))).map (fun l => l.map (fun w => (i, w)))) (List.range (t.ext 1))).map
    (fun l => l.flatten)

/-- What a dispatch sends (R133): each assigned row to its expert's home, then an end record for every expert. A record that names an expert at or above E is not
sent (DESIGN CHOICE, log entry 78). -/
def Block.dispatchList (b : Block) (a : Access) (k : Nat) (c : TaskCtx) : Res (List CollOut) :=
  let d := c.desc
  let home (e : Nat) : Nat := exHome ((b.experts a.half k).getD (d.coFirst + e) 0)
  match b.readRecords a (c.tensor 0) with
  | .error e => .error e
  | .ok rs =>
    let live := rs.filter (fun p => recAssigned p.2 && decide (recE p.2 < d.coE))
    match concatRes (fun p => b.rowChunks a (c.tensor 1) (p.1, 0, 0, 0) (home (recE p.2)) (recE p.2 * d.coCap + recSlot p.2)) live with
    | .error e => .error e
    | .ok l =>
      let count (e : Nat) : List Byte := leBytes 4 e ++ leBytes 4 (live.filter (fun p => recE p.2 = e)).length
      let last (e : Nat) : CollOut := { dest := home e, flood := true, shard := 0, block := 0xFFFFFF, bytes := count e, origin := 0xFFFF }
      .ok (l ++ (List.range d.coE).map last)

/-- EXPERT_DISPATCH (R133): collective OP 3. -/
def execExpertDispatch (t : TaskRef) (s : State) : Host.Outcome State Fault Refusal :=
  s.act (fun b => b.onMode t 0x08 3 (fun g c =>
    if (c.coll.map (fun x => x.started)).getD true then b.travelGo t
    else match b.dispatchList (b.taskAccess t.half g c) g.slot c with
      | .error e => b.stop t e
      | .ok l => ((b.touch t g c).modColl t (fun x => { x with started := true, queue := l })).travelGo t))

/-- The layer's experts that this endpoint holds, each with its LOCAL, below X. -/
def Block.localExperts (b : Block) (h : HalfId) (k : Nat) (d : TaskDesc) : List (Nat × Nat) :=
  (List.range d.coE).filterMap (fun e =>
    let w := (b.experts h k).getD (d.coFirst + e) 0
    if exValid w ∧ exHome w = b.endpoint h ∧ exLocal w < d.coX then some (e, exLocal w) else none)

/-- What a return sends (R135, R136): each pair's rows, as many as the shape register names that the pair's receive wrote (DESIGN CHOICE: at
SHAPE_IN_BASE + 16p + 1, log entry 52), to their source. -/
def Block.returnList (b : Block) (a : Access) (k : Nat) (c : TaskCtx) (p : Plan) : Res (List CollOut) :=
  let d := c.desc
  let z := c.tensor 0
  concatRes (fun q =>
    let s := q.2
    let e := q.1.1
    let pair := q.1.2 * p.n + s
    concatRes (fun i => b.rowChunks a z (z.rowNo (pair * d.coCap + i)) (p.eps.getD s 0) (e * d.coCap + i))
      (List.range (min d.coCap (b.shape a.half k (d.shapeInBase + 16 * pair + 1)))))
    ((b.localExperts a.half k d).flatMap (fun x => (List.range p.n).map (fun s => (x, s))))

/-- EXPERT_RETURN (R135): collective OP 5. -/
def execExpertReturn (t : TaskRef) (s : State) : Host.Outcome State Fault Refusal :=
  s.act (fun b => b.onMode t 0x08 5 (fun g c =>
    if (c.coll.map (fun x => x.started)).getD true then b.travelGo t
    else b.onColl t [5] (fun _ _ _ p => match b.returnList (b.taskAccess t.half g c) g.slot c p with
      | .error e => b.stop t e
      | .ok l => ((b.touch t g c).modColl t (fun x => { x with started := true, queue := l })).travelGo t)))

/-- Chunks to a row of a receive. -/
def TaskCtx.coChunks (c : TaskCtx) : Nat := cdiv ((if c.desc.coOp = 6 then c.tensor 1 else c.tensor 0).wholeRow) 4096

/-- Pairs (expert, local, source) of a receive whose end record or rows have not all come. -/
def Block.missingPairs (b : Block) (h : HalfId) (k : Nat) (c : TaskCtx) (x : CollState) (p : Plan) : List Nat :=
  ((b.localExperts h k c.desc).flatMap (fun e => (List.range p.n).map (fun s => (e.2 * p.n + s, s)))).filterMap (fun q =>
    match tabFind x.ends q.1 with
    | none => some q.2
    | some n => if (List.range (n * c.coChunks)).all (fun i => x.rows.contains (q.1 * c.desc.coCap * c.coChunks + i)) then none else some q.2)

/-- A receive that holds everything ends, with a count for each pair (R134); a return receive once every expected row is there (R135). -/
def Block.travelEnd (b : Block) (t : TaskRef) : Block :=
  b.onColl t [4, 6] (fun g c x p =>
    if ¬ x.started then b
    else if c.desc.coOp = 4 then
      if (b.missingPairs t.half g.slot c x p).isEmpty then
        (b.modTask t (fun c => { c with shapeOut := (List.range (c.desc.coX * p.n)).map (fun i => tabGet 0 x.ends i) })).fix t stOk 0
      else b
    else if x.passed.all (fun r => (List.range c.coChunks).all (fun i => x.rows.contains (r * c.coChunks + i))) then b.fix t stOk 0
    else b)

/-- EXPERT_RECEIVE (R134): collective OP 4. -/
def execExpertReceive (t : TaskRef) (s : State) : Host.Outcome State Fault Refusal :=
  s.act (fun b => b.onMode t 0x08 4 (fun g c => ((b.touch t g c).modColl t (fun x => { x with started := true })).travelEnd t))

/-- A token-travel packet that is discarded (R139). -/
def Block.strayRow (b : Block) (h : HalfId) (p : Packet) : Block :=
  (b.count (regBase h + 0x1C10100) 63 32 1).log { event := Config.strayEvent, half := h, job := pkJob p, arg0 := pkSrc p, arg1 := pkBlock p }

/-- A row's chunk lands at row `r` of a slot, under key `key` (R134, R135): one that came before is discarded. -/
def Block.landChunk (b : Block) (t : TaskRef) (g : Graph) (c : TaskCtx) (x : CollState) (z : Tensor) (r chunk key : Nat) (l : List Byte) : Block :=
  if x.rows.contains key then b.count (regBase t.half + 0x1C10100) 31 0 1
  else
    let a := b.taskAccess t.half g c
    match mapRes (fun q => (b.wr a z.slot (z.wholeRowVa (z.rowNo r) (4096 * chunk + q.2))).map (fun d => ((d, q.1) : Host.Cell))) (l.zip (List.range l.length)) with
    | .error e => b.stop t e
    | .ok cells =>
      let q := b.landCells cells
      match q.2 with
      | some addr => q.1.failStop t (.bad addr)
      | none => (q.1.modColl t (fun x => { x with rows := x.rows ++ [key] })).travelEnd t

/-- A row's chunk arrives at a receive or a return receive (R134, R135, R139). -/
def Block.takeRow (b : Block) (t : TaskRef) (q : Packet) : Block :=
  b.onColl t [4, 6] (fun g c x p =>
    let d := c.desc
    let n := c.coChunks
    let e := pkBlock q / n / d.coCap
    let slot := pkBlock q / n % d.coCap
    let chunk := pkBlock q % n
    let z := if d.coOp = 6 then c.tensor 1 else c.tensor 0
    if q.payload.length ≠ min 4096 (z.wholeRow - 4096 * chunk) then b.strayRow t.half q
    else if d.coOp = 4 then
      let s := p.eps.idxOf (pkOrigin q)
      match (b.localExperts t.half g.slot d).find? (fun y => y.1 = e) with
      | none => b.strayRow t.half q
      | some y =>
        let pair := y.2 * p.n + s
        if p.n ≤ s ∨ ((tabFind x.ends pair).map (fun m => decide (m ≤ slot))).getD false then b.strayRow t.half q
        else b.landChunk t g c x z (pair * d.coCap + slot) chunk ((pair * d.coCap + slot) * n + chunk) q.payload
    else if ¬ x.started then b.modColl t (fun x => { x with inbox := x.inbox ++ [q] })
    else if ¬ x.passed.contains (e * d.coCap + slot) then b.strayRow t.half q
    else b.landChunk t g c x z (e * d.coCap + slot) chunk (pkBlock q) q.payload)

/-- Rows kept until a return receive began, taken in order. -/
def Block.takeRows (b : Block) (t : TaskRef) : List Packet → Block
  | [] => b
  | q :: l => (b.takeRow t q).takeRows t l

/-- EXPERT_RETURN_RECEIVE (R135): collective OP 6. It expects a row for each assigned record. -/
def execExpertReturnReceive (t : TaskRef) (s : State) : Host.Outcome State Fault Refusal :=
  s.act (fun b => b.onMode t 0x08 6 (fun g c =>
    match c.coll with
    | none => b
    | some x =>
      if x.started then b.travelEnd t
      else match b.readRecords (b.taskAccess t.half g c) (c.tensor 0) with
        | .error e => b.stop t e
        | .ok rs =>
          let want := ((rs.filter (fun p => recAssigned p.2 && decide (recE p.2 < c.desc.coE))).map (fun p => recE p.2 * c.desc.coCap + recSlot p.2)).eraseDups
          (((b.touch t g c).modColl t (fun y => { y with started := true, passed := want, inbox := [] })).takeRows t x.inbox).travelEnd t))

/-- A token-travel packet of a job whose slot is Draining is discarded (R139). -/
def Block.travelOpen (b : Block) (p : Packet) : Bool := ((b.slotOfJob (pkJob p)).map (fun k => decide ((b.slot k).st ≠ 2))).getD true

/-- TOKEN_ROW (R134): a row chunk lands at its slot in the receive buffer. -/
def execTokenRow (h : HalfId) (p : Packet) (s : State) : Host.Outcome State Fault Refusal :=
  s.act (fun b => b.receive h p 3 [1] (fun b =>
    if ¬ b.travelOpen p then b
    else match b.collMatch h p [4, 6] with
      | none => b.countStray h
      | some t => b.takeRow t p))

/-- END_RECORD (R133, R139): a source's count for an expert; a count above C ends the receive. -/
def execEndRecord (h : HalfId) (p : Packet) (s : State) : Host.Outcome State Fault Refusal :=
  s.act (fun b => b.receive h p 3 [2] (fun b =>
    if ¬ b.travelOpen p then b
    else match b.collMatch h p [4] with
      | none => b.countStray h
      | some t => b.onColl t [4] (fun g c _ q =>
        let e := leNat (p.payload.take 2)
        let n := leNat ((p.payload.drop 4).take 4)
        let i := q.eps.idxOf (pkOrigin p)
        match (b.localExperts h g.slot c.desc).find? (fun y => y.1 = e) with
        | none => b.strayRow h p
        | some y =>
          if q.n ≤ i then b.strayRow h p
          else if c.desc.coCap < n then b.fail t stShapeOver (n % 2 ^ 24 * 256 + 1)
          else (b.modColl t (fun x => { x with ends := tabPut x.ends (y.2 * q.n + i) n })).travelEnd t)))

/-! ## Readies and credits arrive -/

/-- A ready for which no task has fired yet is kept (log entry 52); one whose task has ended, or of no bound job, is a stray.
While a step is about to be repeated, a ready is one of the next run. -/
def Block.keepReady (b : Block) (h : HalfId) (p : Packet) : Block :=
  if b.collOver h p ∨ (b.slotOfJob (pkJob p)).isNone then b.countStray h
  else b.modHalf h (fun x => { x with early := x.early ++ [p] })

/-- COLL_READY (R347, R350): credits and the parameters' CRC. -/
def execCollReady (h : HalfId) (p : Packet) (s : State) : Host.Outcome State Fault Refusal :=
  s.act (fun b => b.receive h p 2 [3] (fun b => match b.collMatch h p [0, 1, 2, 7, 9] with
    | none => b.keepReady h p
    | some t => ((b.takeReady t p).collGo t).peerGo t))

/-- TRAVEL_READY (R134): rows may go to this destination. -/
def execTravelReady (h : HalfId) (p : Packet) (s : State) : Host.Outcome State Fault Refusal :=
  s.act (fun b => b.receive h p 3 [3] (fun b =>
    if ¬ b.travelOpen p then b
    else match b.collMatch h p [3, 5] with
      | none => b.keepReady h p
      | some t => (b.takeReady t p).travelGo t))

/-- CREDIT (R350): further blocks granted. -/
def execCredit (h : HalfId) (p : Packet) (s : State) : Host.Outcome State Fault Refusal :=
  s.act (fun b => b.receive h p 2 [4] (fun b => match b.collMatch h p [0, 1, 2, 7, 9] with
    | none => b.countStray h
    | some t => b.onColl t [0, 1, 2, 7, 9] (fun _ _ _ q =>
      let i := q.eps.idxOf (pkSrc p)
      if q.n ≤ i then b.countStray h
      else
        let n := leNat (p.payload.take 4)
        ((b.modColl t (fun x => { x with credits := tabPut x.credits i (tabGet 0 x.credits i + n) })).collGo t).peerGo t)))

/-! ## Lateness (R371-R373, R378) -/

/-- Late notices sent one after another. -/
def Block.sendNotices (b : Block) (t : TaskRef) (g : Graph) (d : TaskDesc) (p : Plan) (late : Nat) : List Nat → Block
  | [] => b
  | i :: l => (b.collSend t g d p (p.eps.getD i 0) 2 6 0xFFFF 0 (leBytes 2 late)).sendNotices t g d p late l

/-- The successors that a position holds no ready of, each with its own successor in the same ring. -/
def Plan.lateOnes (p : Plan) (readies : List Nat) : List (Nat × Nat) :=
  ((if 1 < p.g then [(p.next1 1, p.next1 2)] else []) ++
   (if 1 < p.h then [(p.next2, (p.group + 2) % p.h * p.g + p.place)] else [])).filter (fun q => !(readies.contains q.1))

/-- A strict position finds a successor late (R372). -/
def Block.detectLate (b : Block) (t : TaskRef) (g : Graph) (d : TaskDesc) (p : Plan) (l : List (Nat × Nat)) : Block :=
  match l with
  | [] => b
  | _ =>
    let b1 := l.foldl (fun x q => if q.2 = p.own then x else x.sendNotices t g d p (p.eps.getD q.1 0) [q.2]) b
    b1.fail t stDeadlineLate ((l.map (fun q => p.eps.getD q.1 0)).foldl min 0xFFFF)

/-- Ebb blocks for a skipped owner are final here; others go to the next position; Flood blocks go to it and are owed to the skipped (R373). -/
def Block.redirect (b : Block) (t : TaskRef) (old : Nat) : List CollOut → Block
  | [] => b
  | o :: l =>
    (b.onColl t [0, 1] (fun _ c x p =>
      if o.dest ≠ old then b.modColl t (fun y => { y with queue := y.queue ++ [o] })
      else
        let q := (p.locate c.coNb o.block).q
        let away := (q + p.g - p.place) % p.g
        if o.flood then b.floodOn t o.block o.bytes o.origin (away = 0)
        else if away ≤ x.skip then b.levelOne t o.block o.bytes o.origin
        else b.modColl t (fun y => { y with queue := y.queue ++ [{ o with dest := p.next1 (1 + x.skip) }] }))).redirect t old l

/-- A lenient position skips `n` successors (R373). -/
def Block.skipOver (b : Block) (t : TaskRef) (g : Graph) (n : Nat) : Block :=
  b.onColl t [0, 1] (fun _ _ x p =>
    let b1 := (b.count (gateReg t.half 8) 31 16 n).modStep t.half g.slot g.step (fun r => { r with skips := r.skips + n })
    (((b1.modColl t (fun y => { y with skip := n, queue := [] })).redirect t (p.next1 1) x.queue)).collGo t)

/-- COLLECTIVE_DEADLINE (R139, R371-R373, R378): at DEADLINE a missing ready marks a late successor. -/
def execCollectiveDeadline (t : TaskRef) (s : State) : Host.Outcome State Fault Refusal :=
  s.act (fun b => b.onColl t [0, 1, 2, 4, 6, 9] (fun g c x p =>
    let d := c.desc
    if d.coDeadline = 0 ∨ b.tide t.half < d.coDeadline then b
    else if d.coOp = 4 then
      match (b.missingPairs t.half g.slot c x p).map (fun i => p.eps.getD i 0) with
      | [] => b
      | l => b.fail t stDeadlineLate (l.foldl min 0xFFFF)
    else if d.coOp = 6 then
      match (x.passed.filter (fun r => !((List.range c.coChunks).all (fun i => x.rows.contains (r * c.coChunks + i))))).map (fun r =>
          exHome ((b.experts t.half g.slot).getD (d.coFirst + r / d.coCap) 0)) with
      | [] => b
      | l => b.fail t stDeadlineLate (l.foldl min 0xFFFF)
    else
      let late := p.lateOnes x.readies
      if d.coOp = 9 then
        late.foldl (fun y q =>
          let ep := p.eps.getD q.1 0
          if x.reported.contains ep then y
          else (y.modColl t (fun z => { z with reported := z.reported ++ [ep] })).tellLeader t.half 0x18 (leBytes 4 g.job ++ leBytes 4 g.step ++ leBytes 2 ep)) b
      else if ¬ d.lenient then b.detectLate t g d p late
      else if late.isEmpty ∨ x.skip ≠ 0 ∨ x.late then b
      else match (if p.h = 1 then ([1, 2, 3].find? (fun j => decide (j + 1 < p.g) && x.readies.contains (p.next1 (j + 1)))) else none) with
        | some n => b.skipOver t g n
        | none => b.detectLate t g d p late))

/-- LATE_NOTICE (R372): forwarded once to each ring successor, and the collective ends. -/
def execLateNotice (h : HalfId) (p : Packet) (s : State) : Host.Outcome State Fault Refusal :=
  s.act (fun b => b.receive h p 2 [6] (fun b => match b.collMatch h p [0, 1, 2] with
    | none => b.countStray h
    | some t => b.onColl t [0, 1, 2] (fun g c _ q =>
      let late := leNat (p.payload.take 2)
      (b.sendNotices t g c.desc q late q.successors).fail t stDeadlineLate late)))

/-- LATE_WAIT_EXPIRY (R372): a strict collective still incomplete at DEADLINE + LATE_WAIT_US ends. -/
def execLateWaitExpiry (t : TaskRef) (s : State) : Host.Outcome State Fault Refusal :=
  s.act (fun b => b.onColl t [0, 1, 2, 7, 8] (fun _ c _ _ =>
    let d := c.desc
    if d.coDeadline = 0 ∨ d.lenient ∨ b.tide t.half < d.coDeadline + 1000 * b.regFld (gateReg t.half 0) 63 40 then b
    else b.fail t stDeadlineLate 0xFFFF))

/-- LENIENT_WAIT_EXPIRY (R373): a skipping position need wait no longer; a late position that still lacks a Flood block ends. -/
def execLenientWaitExpiry (t : TaskRef) (s : State) : Host.Outcome State Fault Refusal :=
  s.act (fun b => b.onColl t [0, 1] (fun _ c x p =>
    let d := c.desc
    if ¬ d.lenient ∨ b.tide t.half < d.coDeadline + 1000 * b.regFld (gateReg t.half 0) 23 8 then b
    else if x.late then
      (if collComplete c x p then b.collFinish t else b.fail t stDeadlineLate (b.endpoint t.half))
    else
      let owed (o : CollOut) : Bool := (List.range x.skip).any (fun j => o.dest = p.next1 (j + 1))
      (b.modColl t (fun y => { y with waited := true, served := [], queue := y.queue.filter (fun o => !(owed o)) })).collGo t))

/-- RESOLVE_EXPIRY (R378 step 4, R388): a participant without a result asks the leader; an owner repeats its append. -/
def execResolveExpiry (t : TaskRef) (s : State) : Host.Outcome State Fault Refusal :=
  s.act (fun b => b.onColl t [9] (fun g c x _ =>
    let wait := 1000 * b.regFld (gateReg t.half 0) 39 24
    if x.landed ≠ [] ∨ b.tide t.half < x.queried.getD c.desc.coDeadline + wait then b
    else
      let b1 := b.modColl t (fun y => { y with queried := some (b.tide t.half) })
      if x.verdict.isSome then b1.appendVerdict t
      else b1.tellLeader t.half 0x14 (leBytes 4 g.job ++ leBytes 4 g.step ++ leBytes 4 (b.runOf t.half g.slot g.step))))

/-! ## A participant is lost (R364, R139) -/

/-- The endpoints that a collective task needs. -/
def Block.collNeeds (b : Block) (h : HalfId) (g : Graph) (c : TaskCtx) (p : Plan) : List Nat :=
  let d := c.desc
  if d.coOp = 3 then (List.range d.coE).map (fun e => exHome ((b.experts h g.slot).getD (d.coFirst + e) 0))
  else if 7 ≤ d.coOp ∧ d.coOp ≤ 8 then [p.eps.getD d.coPeer 0]
  else p.eps

/-- A running collective that needs one of some endpoints ends with ST_ENDPOINT_LOST, naming the lowest. -/
def Block.collLost (b : Block) (t : TaskRef) (lost : List Nat) : Block :=
  b.onColl t [0, 1, 2, 3, 4, 5, 6, 7, 8, 9] (fun g c _ p =>
    match (b.collNeeds t.half g c p).filter (fun e => lost.contains e) with
    | [] => b
    | l => b.fail t stEndpointLost (l.foldl min 0xFFFF))

end Sys2Proof.Machine
end

