-- ==== Sys2Proof/Machine/Tiers.lean ====
section
/-! DEFINITION. Tier moves, publications and gathers (spec/08_cove_shelf_bay_offshore_mainland.md R205-R223), and the packets
that the lending window and the local memory serve (R212, R218; spec/12_efing_and_tide.md R318). -/

namespace Sys2Proof.Machine

/-! ## Check 1 of R42 -/

/-- The page size a MAP names. -/
def TaskDesc.pageSize (d : TaskDesc) : Nat := if d.pf 0 56 56 = 1 then 0x40000000 else frameSize

/-- A device address in PARAMS names a far space (R197). -/
def farField (d : TaskDesc) : Option Nat := faultIf (farTier d.moveFar ≠ 3 && farTier d.moveFar ≠ 4) 112

/-- Check 1 of a COPY (R220): slot 0 to slot 1, the same FORMAT and extents, COMP 0. -/
def copyCheck (c : TaskCtx) : Option Nat :=
  let a := c.tensor 0
  let z := c.tensor 1
  firstFault [slotsAre c.desc [0, if c.desc.role 1 = 2 then 2 else 1], compIn a [0], compIn z [0],
    faultIf (a.fmt ≠ z.fmt || z.fmt = 0x1F) (offTensor 1 tOffFormat), extEq a z 0 0, extEq a z 1 1, extEq a z 2 2, extEq a z 3 3, extEq a z 4 4]

/-- Check 1 of a tier move task (R197, R205, R206, R219, R220, R231). -/
def tierMoveCheck (c : TaskCtx) : Option Nat :=
  let d := c.desc
  let noOps := faultIf (d.operands ≠ 0) offOperands
  let vaLen := fun size => firstFault [faultIf (d.moveVa % size ≠ 0) 104, faultIf (d.moveLength % size ≠ 0 || decide (2 ^ 48 < d.moveVa + d.moveLength)) 96]
  match d.moveMode with
  | 0 => firstFault [copyCheck c]
  | 1 => firstFault [noOps, faultIf (decide (d.moveTier = 0) || decide (4 < d.moveTier) || (d.moveTier = 2 && d.pf 0 56 56 = 1)) 103,
      vaLen d.pageSize,
      if 3 ≤ d.moveTier then faultIf (farTier d.moveFar ≠ d.moveTier || d.moveFar % d.pageSize ≠ 0) 112 else none]
  | 2 => firstFault [noOps, vaLen frameSize]
  | 3 => firstFault [noOps, faultIf (d.moveTier ≠ 1 && d.moveTier ≠ 2) 103, faultIf (d.moveVa % frameSize ≠ 0) 104,
      faultIf (decide (2 ^ 48 < d.moveVa + d.moveLength)) 96, farField d]
  | 4 => firstFault [noOps]
  | 5 => firstFault [slotsAre d [if d.role 0 = 2 then 2 else 1], formatIn (c.tensor 0) [0x0A], compIn (c.tensor 0) [0],
      flatFrom (c.tensor 0) 0, farField d]
  | 6 => firstFault [noOps]
  | _ => some 103

/-- Check 1 of a publication task (R212, R219, R220, R231). -/
def publicationCheck (c : TaskCtx) : Option Nat :=
  let d := c.desc
  match d.moveMode with
  | 0 => firstFault [faultIf (d.operands ≠ 0) offOperands,
      faultIf (decide (d.moveLength < 64) || decide (0x400000000 < d.moveLength) || d.moveLength % 64 ≠ 0) 96, faultIf (d.moveVa % 64 ≠ 0) 104, farField d]
  | 1 => firstFault [faultIf (d.operands ≠ 0) offOperands, farField d]
  | _ => some 103

/-- Check 1 of a gather task (R221, R231). -/
def gatherCheck (c : TaskCtx) : Option Nat :=
  let d := c.desc
  let mode := d.pf 0 63 60
  let table := c.tensor 0
  let idx := c.tensor 1
  let rows := c.tensor 2
  firstFault [faultIf (decide (4 < mode)) 103, slotsAre d [if mode = 0 then 0 else 2, 0, if mode = 0 then (if d.role 2 = 2 then 2 else 1) else 0],
    compIn table [0], compIn idx [0], compIn rows [0], formatIn idx [0x0A, 0x0B],
    faultIf (table.fmt ≠ rows.fmt || rows.fmt = 0x1F) (offTensor 2 tOffFormat), if 2 ≤ mode then formatIn table [0x00, 0x01, 0x0A, 0x0B] else none,
    extEq table rows 0 0, extEq idx rows 0 1, flatFrom table 2, flatFrom idx 1, flatFrom rows 2]

/-! ## Tier moves -/

/-- COPY (R220): rows of slot 0 to slot 1, bit for bit. -/
def Block.copyCells (b : Block) (a : Access) (src dst : Tensor) : Res (List Host.Cell) :=
  concatRes (fun r => match b.rawRow a src r with
    | .error e => .error e
    | .ok o => b.rowCells a dst r o) dst.rows

/-- COPY. -/
def execCopy (t : TaskRef) (s : State) : Host.Outcome State Fault Refusal :=
  s.act (fun b => b.onMode t 0x06 0 (fun g c => (b.touch t g c).finish t (b.copyCells (b.taskAccess t.half g c) (c.tensor 0) (c.tensor 1)) stOk 0))

/-- At the end of each MAP or UNMAP of a job its waiting records are tried again (R48). -/
def Block.retryJob (b : Block) (job : Nat) : Block :=
  let due (h : HalfId) : List TaskRef := ((b.tasksOf h).filter (fun p => p.2.1.job = job && p.2.2.phase = .recordWait)).map (fun p => p.1)
  (b.retryRecords (due .a)).retryRecords (due .b)

/-- The pages of a far MAP (R205). -/
def farPages (d : TaskDesc) (n : Nat) : List (Nat × Page) :=
  (List.range n).map (fun i => ((d.moveVa + i * d.pageSize) / frameSize,
    { target := d.moveFar + i * d.pageSize, big := d.pf 0 56 56 = 1, writable := false, noPrefetch := d.pf 0 54 54 = 1, handle := 0 }))

/-- The pages of a home MAP. -/
def homePages (d : TaskDesc) (frames : List Nat) : List (Nat × Page) :=
  (frames.zip (List.range frames.length)).map (fun p => ((d.moveVa + p.2 * d.pageSize) / frameSize,
    { target := p.1, big := d.pf 0 56 56 = 1, writable := true, noPrefetch := d.pf 0 54 54 = 1, handle := 0 }))

/-- A MAP, all or nothing (R205, R207, R209). -/
def Block.doMap (b : Block) (t : TaskRef) (g : Graph) (c : TaskCtx) : Block :=
  let d := c.desc
  let n := d.moveLength / d.pageSize
  if anyMapped (b.slot g.slot).pages d.moveVa d.moveLength then b.fix t stXlate 8
  else if 4194304 < b.entriesUsed + n then b.fix t stQuota (tierDetail d.moveTier + 4)
  else if 3 ≤ d.moveTier then (b.addPages g.slot (farPages d n)).fix t stOk 0
  else match b.allocate d.moveHalf d.moveTier g.slot (d.pf 0 56 56 = 1) (g.slot.val + 1) n with
    | .failed r => b.fix t stQuota (tierDetail d.moveTier + r)
    | .ok frames b1 => ((b1.zeroFrames d.pageSize frames).addPages g.slot (homePages d frames)).fix t stOk 0

/-- MAP. -/
def execMap (t : TaskRef) (s : State) : Host.Outcome State Fault Refusal :=
  s.act (fun b => b.onMode t 0x06 1 (fun g c => (b.doMap t g c).retryJob g.job))

/-- Pages removed with what stands behind them: a job's own frames are freed, and a cache object's mapping goes whole. -/
def Block.unmapPages (b : Block) (k : Nat) : List Nat → Block
  | [] => b
  | key :: ks =>
    match tabFind (b.slot k).pages key with
    | none => b.unmapPages k ks
    | some p =>
      if p.handle = 0 then
        ((b.removePage k key).freeFrames (if p.target / 2 ^ 60 = 0 then p.frames else [])).unmapPages k ks
      else
        let m := ((b.object p.handle).bind (fun o => o.mappings.find? (fun m => m.1 = k && decide (m.2 ≤ key * frameSize) &&
          decide (key * frameSize < m.2 + o.frames.length * frameSize)))).getD (k, key * frameSize)
        ((b.dropMapping p.handle m).removePage k key).unmapPages k ks

/-- An UNMAP, all or nothing (R206): a range that cuts a 1 GiB page is a partial page. -/
def Block.doUnmap (b : Block) (t : TaskRef) (g : Graph) (c : TaskCtx) : Block :=
  let d := c.desc
  let pages := (b.slot g.slot).pages
  match pagesIn pages d.moveVa d.moveLength with
  | none => b.fix t stXlate 8
  | some keys =>
    let size (key : Nat) : Nat := if ((tabFind pages key).map (fun p => p.big)).getD false then 0x40000000 else frameSize
    if keys.any (fun k => decide (k * frameSize < d.moveVa)) then b.fix t stAdmission 104
    else if keys.any (fun k => decide (d.moveVa + d.moveLength < k * frameSize + size k)) then b.fix t stAdmission 96
    else (b.unmapPages g.slot keys).fix t stOk 0

/-- UNMAP. -/
def execUnmap (t : TaskRef) (s : State) : Host.Outcome State Fault Refusal :=
  s.act (fun b => b.onMode t 0x06 2 (fun g c => (b.doUnmap t g c).retryJob g.job))

/-- The reads of a FILL: 4,096 bytes each, cut at the blocks of FAR (R215, R318). -/
def fillReads (t : TaskRef) (far len : Nat) : List Request := (farPieces far len).map (fun p => farRead t (far + p.1) p.2)

/-- The live or filling cache object that a FILL shares (R215). -/
def Block.sharedObject (b : Block) (h : HalfId) (job obj ver tier : Nat) : Option (Nat × CacheObject) :=
  (b.tiers h).objects.find? (fun p => p.2.job = job && p.2.object = obj && p.2.version = ver && p.2.tier = tier)

/-- A new cache object's handle index on a half. -/
def Block.newHandle (b : Block) (h : HalfId) : Nat := (tabFree (b.tiers h).objects 65537 (handleOf h 0)).getD (handleOf h 0)

/-- A FILL that shares nothing: frames, an object, and its reads (R215). -/
def Block.startFill (b : Block) (t : TaskRef) (g : Graph) (d : TaskDesc) : Block :=
  let h := d.moveHalf
  let n := cdiv d.moveLength frameSize
  if anyMapped (b.slot g.slot).pages d.moveVa (n * frameSize) then b.fix t stXlate 8
  else if farTier d.moveFar = 4 ∧
      ¬ dirHolds (b.tiers t.half).mainland g.job d.moveObject d.moveVersion (d.moveFar % 2 ^ 60) d.moveLength then
    b.fix t stFarFail (tierDetail 4)
  else if 65536 ≤ (b.tiers h).objects.length then b.fix t stQuota (tierDetail d.moveTier + 2)
  else match b.allocate h d.moveTier g.slot false (0x200 + g.slot.val) n with
    | .failed r => b.fix t stQuota (tierDetail d.moveTier + r)
    | .ok frames b1 =>
      let i := b1.newHandle h
      let o : CacheObject :=
        { job := g.job, object := d.moveObject, version := d.moveVersion, tier := d.moveTier, far := d.moveFar, length := d.moveLength,
          frames := frames, pin := d.pf 0 55 55 = 1, lastUse := b.tide t.half, refs := [], mappings := [], filling := some t }
      let reads := fillReads t d.moveFar d.moveLength
      let b2 := ((b1.zeroFrames frameSize frames).modTiers h (fun x => { x with objects := tabPut x.objects i o })).modTask t (fun c => { c with
        stage := 1, sent := reads.length, acked := 0, refs := [i] })
      if reads.isEmpty then b2.fillDone t i else b2.issueAll t.half reads

/-- FILL (R215). -/
def execFill (t : TaskRef) (s : State) : Host.Outcome State Fault Refusal :=
  s.act (fun b => b.onMode t 0x06 3 (fun g c =>
    let d := c.desc
    if c.stage ≠ 0 then b
    else match b.sharedObject d.moveHalf g.job d.moveObject d.moveVersion d.moveTier with
      | some (i, o) => if o.filling.isSome then b.modTask t (fun c => { c with stage := 1, refs := [i] }) else b.mapObject t i
      | none => b.startFill t g d))

/-- The cache object and the mapping of a slot under a VA. -/
def Block.mappingAt (b : Block) (k va : Nat) : Option (Nat × (Nat × Nat)) :=
  match findPage (b.slot k).pages va with
  | none => none
  | some (_, p) =>
    if p.handle = 0 then none
    else (b.object p.handle).bind (fun o => (o.mappings.find? (fun m => m.1 = k && decide (m.2 ≤ va) &&
      decide (va < m.2 + o.frames.length * frameSize))).map (fun m => (p.handle, m)))

/-- DROP (R215): a VA under no cache object is unmapped (R203). -/
def execDrop (t : TaskRef) (s : State) : Host.Outcome State Fault Refusal :=
  s.act (fun b => b.onMode t 0x06 4 (fun g c => match b.mappingAt g.slot c.desc.moveVa with
    | none => b.fix t stXlate 8
    | some (i, m) => (b.dropMapping i m).fix t stOk 0))

/-- A query's answer, written into slot 0 (R220). -/
def Block.writeQuery (b : Block) (t : TaskRef) (g : Graph) (c : TaskCtx) (v : Nat) : Block :=
  let z := c.tensor 0
  b.finish t (b.rowCells (b.taskAccess t.half g c) z (0, 0, 0, 0) { codes := [v], scales := [], stats := ConvStats.zero }) stOk 0

/-- QUERY (R220): a Mainland version is looked up in the half's directory; an Offshore one is asked of its lender, and the command
writes the answer once it is in. -/
def execQuery (t : TaskRef) (s : State) : Host.Outcome State Fault Refusal :=
  s.act (fun b => b.onMode t 0x06 5 (fun g c =>
    let d := c.desc
    if farTier d.moveFar = 4 then b.writeQuery t g c (dirState (b.tiers t.half).mainland g.job d.moveObject d.moveVersion (d.moveFar % 2 ^ 60))
    else match tabFind c.farBuf d.moveFar with
      | some x => b.writeQuery t g c x.toNat
      | none =>
        if c.stage ≠ 0 then b
        else (b.modTask t (fun c => { c with stage := 1 })).issue t.half (farRequest (some t) 0x15 d.moveFar 4 (versionWord d.moveObject d.moveVersion))))

/-- SETPIN (R220). -/
def execSetPin (t : TaskRef) (s : State) : Host.Outcome State Fault Refusal :=
  s.act (fun b => b.onMode t 0x06 6 (fun g c => match b.mappingAt g.slot c.desc.moveVa with
    | none => b.fix t stXlate 8
    | some (i, _) => (b.modObject i (fun o => { o with pin := c.desc.pf 0 55 55 = 1 })).fix t stOk 0))

/-! ## Publications -/

/-- Whether every page of a source is of a home tier (R212, R220). -/
def Block.homeSource (b : Block) (k va len : Nat) : Bool :=
  (List.range (cdiv (va % frameSize + len) frameSize)).all (fun i => match findPage (b.slot k).pages (va / frameSize * frameSize + i * frameSize) with
    | some (_, p) => p.target / 2 ^ 60 = 0
    | none => true)

/-- PUBLISH (R212): step 1 reserves; the responses drive the steps after it. -/
def execPublish (t : TaskRef) (s : State) : Host.Outcome State Fault Refusal :=
  s.act (fun b => b.onMode t 0x07 0 (fun g c =>
    let d := c.desc
    if c.stage ≠ 0 then b
    else if ¬ b.homeSource g.slot d.moveVa d.moveLength then b.fix t stAdmission 104
    else if farTier d.moveFar = 4 then
      let e : FarEntry := { job := g.job, object := d.moveObject, version := d.moveVersion, base := d.moveFar % 2 ^ 60, length := d.moveLength,
                            st := farPending, lastActive := b.tide t.half }
      match dirAdd (b.tiers t.half).reading (b.tiers t.half).mainland e with
      | .error (st, reason) => b.fix t st (tierDetail 4 + reason)
      | .ok l => ((b.modTiers t.half (fun x => { x with mainland := l })).modTask t (fun c => { c with stage := 2 })).publishData t
    else (b.modTask t (fun c => { c with stage := 1 })).issue t.half
      (farRequest (some t) 0x11 d.moveFar 0 (versionWord d.moveObject d.moveVersion ++ leBytes 8 d.moveLength))))

/-- RETIRE (R220). -/
def execRetire (t : TaskRef) (s : State) : Host.Outcome State Fault Refusal :=
  s.act (fun b => b.onMode t 0x07 1 (fun g c =>
    let d := c.desc
    if c.stage ≠ 0 then b
    else if farTier d.moveFar = 4 then
      (if dirState (b.tiers t.half).mainland g.job d.moveObject d.moveVersion (d.moveFar % 2 ^ 60) = farCommitted then
        (b.modTiers t.half (fun x => { x with
          mainland := dirSet x.mainland g.job d.moveObject d.moveVersion (some farRetired) (b.tide t.half) })).fix t stOk 0
       else b.fix t stFarFail (tierDetail 4))
    else (b.modTask t (fun c => { c with stage := 1 })).issue t.half
      (farRequest (some t) 0x16 d.moveFar 0 (versionWord d.moveObject d.moveVersion))))

/-! ## Gathers (R221-R223) -/

/-- The indices of a gather task. -/
def Block.gatherIndices (b : Block) (a : Access) (t : Tensor) : Res (List Int) :=
  match mapRes (fun i => b.elemCode a t i (0, 0, 0, 0)) (List.range (t.ext 0)) with
  | .error e => .error e
  | .ok cs => .ok (cs.map (fun x => intElem t.fmt x))

/-- Whether an index names a row of the table. -/
def inTable (table : Tensor) (i : Int) : Bool := decide (0 ≤ i) && decide (i < (table.ext 1 : Int))

/-- Out-of-range indices are counted (R222). -/
def Block.countOob (b : Block) (h : HalfId) (table : Tensor) (is : List Int) : Block :=
  b.count (tierReg h 0x28) 15 0 (is.filter (fun i => !(inTable table i))).length

/-- The cells of a gather: each row of slot 2 is the table's, or zeros (R222). -/
def Block.gatherCells (b : Block) (a : Access) (table rows : Tensor) (is : List Int) : Res (List Host.Cell) :=
  concatRes (fun p => if inTable table p.1 then
      (match b.rawRow a table (p.1.toNat, 0, 0, 0) with
        | .error e => .error e
        | .ok o => b.rowCells a rows (p.2, 0, 0, 0) o)
    else b.rowCells a rows (p.2, 0, 0, 0) (zeroRow rows)) (is.zip (List.range is.length))

/-- The cells of a scatter: each row of slot 2 goes to the table row its index names; others are skipped. -/
def Block.scatterCells (b : Block) (a : Access) (table rows : Tensor) (is : List Int) : Res (List Host.Cell) :=
  concatRes (fun p => if inTable table p.1 then
      (match b.rawRow a rows (p.2, 0, 0, 0) with
        | .error e => .error e
        | .ok o => b.rowCells a table (p.1.toNat, 0, 0, 0) o)
    else .ok []) (is.zip (List.range is.length))

/-- One row sent to the memory-side adders of its elements' controllers. -/
def Block.adderRow (b : Block) (a : Access) (op : Nat) (table rows : Tensor) (i j : Nat) : Except (Block × Nat × Stop) Block :=
  match b.rawRow a table (i, 0, 0, 0), b.rawRow a rows (j, 0, 0, 0) with
  | .error e, _ => .error (b, j, e)
  | .ok _, .error e => .error (b, j, e)
  | .ok o, .ok x =>
    match b.rowCells a table (i, 0, 0, 0) { o with codes := (o.codes.zip x.codes).map (fun p => adderElem op table.fmt p.1 p.2) } with
    | .error e => .error (b, j, e)
    | .ok cells => match b.landCells cells with
      | (b1, some w) => .error (b1, j, .bad w)
      | (b1, none) => .ok b1

/-- Rows sent to the adders in ascending index position (R222, O6); one that stops is named by its position. -/
def Block.adderRows (b : Block) (a : Access) (op : Nat) (table rows : Tensor) : List (Int × Nat) → Except (Block × Nat × Stop) Block
  | [] => .ok b
  | p :: ps =>
    if inTable table p.1 then
      match b.adderRow a op table rows p.1.toNat p.2 with
      | .error e => .error e
      | .ok b1 => b1.adderRows a op table rows ps
    else b.adderRows a op table rows ps

/-- Rows of the table that two cores add to: their float sums depend on an order that nothing fixes (R223). -/
def contested (cores : Nat) (is : List Int) : List Int :=
  let ps := (is.zip (List.range is.length)).map (fun p => (p.1, coreOf is.length cores p.2))
  is.filter (fun i => ps.any (fun p => ps.any (fun q => p.1 = i && q.1 = i && p.2 ≠ q.2)))

/-- `n` fresh open values. -/
def Block.freshList (b : Block) : Nat → List Nat × Block
  | 0 => ([], b)
  | n + 1 => let r := b.fresh; let q := r.2.freshList n; (r.1 :: q.1, q.2)

/-- Rows whose sums no order fixes take free values (log entry 6). -/
def Block.freeRows (b : Block) (a : Access) (table : Tensor) : List Int → Block
  | [] => b
  | i :: is =>
    if inTable table i then
      let r := b.freshList (table.ext 0)
      match r.2.rowCells a table (i.toNat, 0, 0, 0) { codes := r.1, scales := [], stats := ConvStats.zero } with
      | .error _ => r.2.freeRows a table is
      | .ok cells => (r.2.landCells cells).1.freeRows a table is
    else b.freeRows a table is

/-- The pieces of the table rows that indices name. -/
def tablePieces (table : Tensor) (is : List Int) : List (Nat × Nat) :=
  ((is.filter (fun i => inTable table i)).map (fun i => table.rowPieces (i.toNat, 0, 0, 0))).flatten

/-- The references of a gather's demanded rows; what it ran ahead at and its out-of-range indices are counted once (R204, R208, R222). -/
def Block.startGather (b : Block) (t : TaskRef) (g : Graph) (c : TaskCtx) (is : List Int) : Block :=
  let rows := tablePieces (c.tensor 0) is
  let b1 := if c.noted then b
    else (b.countOob t.half (c.tensor 0) is).noteAhead t.half g.slot rows
  (b1.touchSlots t g c [1, 2]).touchPieces t g.slot rows

/-- A gather task of a mode: OOB = 1 reads every index first and ends at the first out of range (R222). -/
def Block.runGather (b : Block) (t : TaskRef) (mode : Nat) (body : Graph → TaskCtx → Access → List Int → Block → Block) : Block :=
  b.onMode t 0x05 mode (fun g c =>
    let a := b.taskAccess t.half g c
    let b0 := b.touchPieces t g.slot (c.tensor 1).pieces
    match b0.gatherIndices a (c.tensor 1) with
    | .error e => b0.stop t e
    | .ok is => match (if c.desc.pf 0 59 59 = 1 then is.find? (fun i => !(inTable (c.tensor 0) i)) else none) with
      | some i => b0.fix t stShapeOver (8 + twos 24 i * 256)
      | none => body g c a is (b0.startGather t g c is))

/-- GATHER (R222). -/
def execGather (t : TaskRef) (s : State) : Host.Outcome State Fault Refusal :=
  s.act (fun b => b.runGather t 0 (fun _ c a is b1 => b1.finish t (b1.gatherCells a (c.tensor 0) (c.tensor 2) is) stOk 0))

/-- SCATTER (R222). -/
def execScatter (t : TaskRef) (s : State) : Host.Outcome State Fault Refusal :=
  s.act (fun b => b.runGather t 1 (fun _ c a is b1 => b1.finish t (b1.scatterCells a (c.tensor 0) (c.tensor 2) is) stOk 0))

/-- A scatter through the memory-side adders (R223). Float sums into a row that two cores reach are free values. A run that waits for far bytes
resumes at the row that needs them: no row is added twice. -/
def Block.runAdders (b : Block) (t : TaskRef) (mode op : Nat) : Block :=
  b.runGather t mode (fun _ c a is b1 =>
    match b1.adderRows a op (c.tensor 0) (c.tensor 2) ((is.zip (List.range is.length)).drop c.stage) with
    | .error (b2, j, e) => (b2.modTask t (fun c => { c with stage := j })).stop t e
    | .ok b2 =>
      let floats := (c.tensor 0).fmt = 0x00 ∨ (c.tensor 0).fmt = 0x01
      (if op = 0 ∧ floats ∧ 1 < c.desc.cores then b2.freeRows a (c.tensor 0) (contested c.desc.cores is) else b2).fix t stOk 0)

/-- SCATTER_ADD (R223). -/
def execScatterAdd (t : TaskRef) (s : State) : Host.Outcome State Fault Refusal := s.act (fun b => b.runAdders t 2 0)

/-- SCATTER_MAX (R223). -/
def execScatterMax (t : TaskRef) (s : State) : Host.Outcome State Fault Refusal := s.act (fun b => b.runAdders t 3 1)

/-- SCATTER_MIN (R223). -/
def execScatterMin (t : TaskRef) (s : State) : Host.Outcome State Fault Refusal := s.act (fun b => b.runAdders t 4 2)

/-! ## The lender's side (R211, R212, R217, R218) -/

/-- The lending window of a half. -/
def Block.window (b : Block) (h : HalfId) : LendWindow := (b.tiers h).window

/-- A block with a half's window changed. -/
def Block.modWindow (b : Block) (h : HalfId) (f : LendWindow → LendWindow) : Block := b.modTiers h (fun t => { t with window := f t.window })

/-- Whether a window still serves reads, writes and commits: advertised, or revoking before T_end. -/
def Block.windowServes (b : Block) (h : HalfId) : Bool :=
  (b.window h).st = 1 || ((b.window h).st = 2 && decide (b.tide h < (b.window h).tEnd))

/-- The local address of a window offset. -/
def LendWindow.addr (w : LendWindow) (o : Nat) : Nat := w.frames.getD (o / frameSize) 0 + o % frameSize

/-- The local addresses of a range of a window. -/
def LendWindow.addrs (w : LendWindow) (o n : Nat) : List Nat := (List.range n).map (fun i => w.addr (o + i))

/-- The window offset that a far-tier packet names. -/
def pkAddr (p : Packet) : Nat := p.w2.toNat

/-- The byte count of a READ-like packet, if its payload keeps the row of R318. -/
def readCount (p : Packet) : Option Nat :=
  let n := bits (leNat p.payload) 12 0
  if p.payload.length = 8 ∧ leNat p.payload < 8192 ∧ 1 ≤ n ∧ n ≤ 4096 ∧ pkAddr p / 4096 = (pkAddr p + n - 1) / 4096 then some n else none

/-- Whether a WRITE-like packet's payload keeps the row of R318. -/
def writeOk (p : Packet) : Bool :=
  decide (1 ≤ p.payload.length) && decide (p.payload.length ≤ 4096) && decide (pkAddr p / 4096 = (pkAddr p + p.payload.length - 1) / 4096)

/-- OBJECT and VERSION of a packet's payload. -/
def pkObject (p : Packet) : Nat := bits (leNat (p.payload.take 8)) 63 32
def pkVersion (p : Packet) : Nat := bits (leNat (p.payload.take 8)) 31 0

/-- FAR_READ (R211, R218, R318): served only within one Committed entry of the packet's job. -/
def execFarRead (h : HalfId) (p : Packet) (s : State) : Host.Outcome State Fault Refusal :=
  s.act (fun b0 => b0.receive h p 0 [0x10] (fun b => match readCount p with
    | none => b.respond h p stAdmission []
    | some n =>
      let w := b.window h
      if b.windowServes h ∧ dirServes w.dir (pkJob p) (pkAddr p) n then
        match (w.addrs (pkAddr p) n).find? (fun a => (tabFind b.bad (granuleBase a)).isSome) with
        | some a => ((b.noteUe a).log { event := 0x0021, half := h, arg0 := ((channelOf a).map (fun c => c.2)).getD 0, arg1 := rowWord a }).respond
            h p stFarFail []
        | none => b.respond h p stOk ((w.addrs (pkAddr p) n).map (fun a => b.byte a))
      else b.respond h p stFarFail []))

/-- The Pending entry that a reserve packet makes. -/
def reservedEntry (p : Packet) (len now : Nat) : FarEntry :=
  { job := pkJob p, object := pkObject p, version := pkVersion p, base := pkAddr p, length := len, st := farPending, lastActive := now }

/-- FAR_RESERVE (R212): the window is advertised, the range lies in it and is free, and the version is new. -/
def execFarReserve (h : HalfId) (p : Packet) (s : State) : Host.Outcome State Fault Refusal :=
  s.act (fun b0 => b0.receive h p 0 [0x11] (fun b =>
    let len := leNat (p.payload.drop 8)
    let w := b.window h
    if p.payload.length ≠ 16 then b.respond h p stAdmission []
    else if w.st ≠ 1 then b.respond h p stFarFail []
    else if w.frames.length * frameSize < pkAddr p + len then b.respond h p stQuota []
    else match dirAdd (fun _ => false) w.dir (reservedEntry p len (b.tide h)) with
      | .error (st, _) => b.respond h p st []
      | .ok l => (b.modWindow h (fun w => { w with dir := l })).respond h p stOk []))

/-- FAR_WRITE (R210, R212): into a Pending entry of the job alone. -/
def execFarWrite (h : HalfId) (p : Packet) (s : State) : Host.Outcome State Fault Refusal :=
  s.act (fun b0 => b0.receive h p 0 [0x12] (fun b =>
    let w := b.window h
    let hit (e : FarEntry) : Bool := e.job = pkJob p && e.st = farPending && decide (e.base ≤ pkAddr p) &&
      decide (pkAddr p + p.payload.length ≤ e.base + e.length)
    if ¬ writeOk p then b.respond h p stAdmission []
    else if b.windowServes h ∧ w.dir.any hit then
      match b.landCells ((w.addrs (pkAddr p) p.payload.length).zip p.payload) with
      | (b1, some a) => ((b1.noteUe a).log { event := 0x0021, half := h, arg0 := ((channelOf a).map (fun c => c.2)).getD 0, arg1 := rowWord a }).respond
          h p stFarFail []
      | (b1, none) => (b1.modWindow h (fun w => { w with dir := w.dir.map (fun e => if hit e then { e with lastActive := b.tide h } else e) })).respond
          h p stOk []
    else b.respond h p stFarFail []))

/-- A packet that names one entry by its version and window offset, in a state that `ok` accepts, moves it to a state (R212, R213,
R220). -/
def Block.entryPacket (b : Block) (h : HalfId) (p : Packet) (ok : Nat → Bool) (st : Option Nat) : Block :=
  if p.payload.length ≠ 8 then b.respond h p stAdmission []
  else if b.windowServes h ∧ ok (dirState (b.window h).dir (pkJob p) (pkObject p) (pkVersion p) (pkAddr p)) then
    (b.modWindow h (fun w => { w with dir := dirSet w.dir (pkJob p) (pkObject p) (pkVersion p) st (b.tide h) })).respond h p stOk []
  else b.respond h p stFarFail []

/-- FAR_COMMIT (R213): the version becomes readable. -/
def execFarCommit (h : HalfId) (p : Packet) (s : State) : Host.Outcome State Fault Refusal :=
  s.act (fun b => b.receive h p 0 [0x13] (fun b => b.entryPacket h p (fun st => st = farPending) (some farCommitted)))

/-- FAR_ABORT (R212): the Pending entry is deleted. -/
def execFarAbort (h : HalfId) (p : Packet) (s : State) : Host.Outcome State Fault Refusal :=
  s.act (fun b => b.receive h p 0 [0x14] (fun b => b.entryPacket h p (fun st => st = farPending) none))

/-- FAR_RETIRE (R220). -/
def execFarRetire (h : HalfId) (p : Packet) (s : State) : Host.Outcome State Fault Refusal :=
  s.act (fun b => b.receive h p 0 [0x16] (fun b => b.entryPacket h p (fun st => st = farCommitted) (some farRetired)))

/-- FAR_QUERY (R220, R318). -/
def execFarQuery (h : HalfId) (p : Packet) (s : State) : Host.Outcome State Fault Refusal :=
  s.act (fun b => b.receive h p 0 [0x15] (fun b =>
    if p.payload.length ≠ 8 then b.respond h p stAdmission []
    else if b.windowServes h then b.respond h p stOk (leBytes 4 (dirState (b.window h).dir (pkJob p) (pkObject p) (pkVersion p) (pkAddr p)))
    else b.respond h p stFarFail []))

/-- PENDING_REAP (R212): a Pending entry that has seen no write or commit for 100 ms is deleted and counted. -/
def execPendingReap (h : HalfId) (job : Fin 4096) (object version : Nat) (s : State) : Host.Outcome State Fault Refusal :=
  s.act (fun b => match dirFind (b.window h).dir job.val object version with
    | none => b
    | some e =>
      if e.st = farPending ∧ e.lastActive + 100000000 ≤ b.tide h then
        (b.modWindow h (fun w => { w with dir := dirSet w.dir job.val object version none 0 })).count (tierReg h 0x58) 31 0 1
      else b)

/-- The lending window is reserved and advertised (R217), with eviction in pool mode alone (R207); frames the pool cannot supply leave it
unadvertised, and that is logged. -/
def Block.reserveWindow (b : Block) (h : HalfId) : Block :=
  let gib := b.regFld (tierReg h 0x40) 7 0
  match b.allocFrames h 2 false 0x100 (gib * 512) with
  | .failed _ => b.log { event := 0x0003, half := h, arg0 := tierReg h 0x40, arg1 := gib }
  | .ok frames b1 => (b1.zeroFrames frameSize frames).modWindow h (fun _ => { st := 1, frames := frames, tEnd := 0, dir := [] })

/-- Management packets to each endpoint of a list but this one. -/
def Block.sendAll (b : Block) (h : HalfId) (op w2 : Nat) (payload : List Byte) : List Nat → Block
  | [] => b
  | e :: es => (if e = b.endpoint h then b else b.send h e 0 5 op 0 w2 0 payload).sendAll h op w2 payload es

/-- A revocation starts (R218, R391): the window enters Revoking, a notice carries T_end to every endpoint of the domain, the half's own among them,
and the leader is told. -/
def Block.revoke (b : Block) (h : HalfId) : Block :=
  if (b.window h).st = 1 then
    let tEnd := b.tide h + 10000000
    let b1 := b.modTiers h (fun t => { t with window := { t.window with st := 2, tEnd := tEnd }, revoking := tabPut t.revoking (b.endpoint h) tEnd })
    (b1.sendAll h 0x05 0 (leBytes 8 tEnd) b.rosterEndpoints).tellLeader h 0x19 (leBytes 8 tEnd)
  else b

/-- REVOCATION_END (R218 step 3): at T_end every entry is deleted. -/
def execRevocationEnd (h : HalfId) (s : State) : Host.Outcome State Fault Refusal :=
  s.act (fun b => if (b.window h).st = 2 ∧ (b.window h).tEnd ≤ b.tide h then b.modWindow h (fun w => { w with dir := [] }) else b)

/-- REVOCATION_DONE (R218 step 4): the frames return to the pool and the window is Revoked. -/
def execRevocationDone (h : HalfId) (s : State) : Host.Outcome State Fault Refusal :=
  s.act (fun b =>
    let w := b.window h
    if w.st = 2 ∧ w.tEnd ≤ b.tide h ∧ w.dir = [] then (b.freeFrames w.frames).modWindow h (fun w => { w with st := 3, frames := [] }) else b)

/-- REVOCATION_NOTICE (R218): a borrower learns the lender's T_end. -/
def execRevocationNotice (h : HalfId) (p : Packet) (s : State) : Host.Outcome State Fault Refusal :=
  s.act (fun b => b.receive h p 5 [0x05] (fun b =>
    b.modTiers h (fun t => { t with revoking := tabPut t.revoking (pkSrc p) (leNat (p.payload.take 8)) })))

/-- Cache objects dropped one after another, each counted. -/
def Block.dropObjects (b : Block) (h : HalfId) : List Nat → Block
  | [] => b
  | i :: is => ((b.unmapObject i).count (tierReg h 0x58) 63 32 1).dropObjects h is

/-- BORROWER_DROP (R218 step 3): at T_end a half unmaps every cache object filled from the lender's window. -/
def execBorrowerDrop (h : HalfId) (lender : Nat) (s : State) : Host.Outcome State Fault Refusal :=
  s.act (fun b => match tabFind (b.tiers h).revoking lender with
    | none => b
    | some tEnd =>
      if tEnd ≤ b.tide h then
        let hit := ((b.tiers h).objects.filter (fun p => p.2.filling.isNone && farTier p.2.far = 3 && bits p.2.far 59 44 = lender)).map (fun p => p.1)
        (b.dropObjects h hit).modTiers h (fun t => { t with revoking := tabDel t.revoking lender })
      else b)

/-! ## Packets to local memory (R15, R318) -/

/-- The endpoint of the other half of the module. -/
def Block.otherEndpoint (b : Block) (h : HalfId) : Nat := b.endpoint (otherHalf h)

/-- A local address range of a half that holds memory. -/
def Block.localRange (b : Block) (h : HalfId) (a n : Nat) : Bool :=
  decide (a / 2 ^ 60 = 0) && (List.range n).all (fun i => b.holds (a + i) && decide (homeOf (a + i) = h))

/-- A local packet: only the module's other half may send it (R318). -/
def Block.localPacket (b : Block) (h : HalfId) (p : Packet) (ok : Bool) (n : Nat) (f : Block → Block) : Block :=
  if pkSrc p ≠ b.otherEndpoint h then b.respond h p stPermission []
  else if ¬ ok ∨ ¬ b.localRange h (pkAddr p) n then b.respond h p stAdmission []
  else f b

/-- READ_REQUEST (R318 OP 0x01). -/
def execReadRequest (h : HalfId) (p : Packet) (s : State) : Host.Outcome State Fault Refusal :=
  s.act (fun b => b.receive h p 0 [0x01] (fun b =>
    let n := (readCount p).getD 1
    b.localPacket h p (readCount p).isSome n (fun b => match b.firstBad (pkAddr p) n with
      | some a => (b.noteUe a).respond h p stDataError []
      | none => b.respond h p stOk (b.bytes (pkAddr p) n))))

/-- WRITE_REQUEST (R318 OP 0x02). -/
def execWriteRequest (h : HalfId) (p : Packet) (s : State) : Host.Outcome State Fault Refusal :=
  s.act (fun b => b.receive h p 0 [0x02] (fun b => b.localPacket h p (writeOk p) p.payload.length (fun b =>
    match b.landCells ((p.payload.zip (List.range p.payload.length)).map (fun q => (pkAddr p + q.2, q.1))) with
    | (b1, some a) => (b1.noteUe a).respond h p stDataError []
    | (b1, none) => b1.respond h p stOk [])))

/-- ADDER_REQUEST (R318 OP 0x03, R226). -/
def execAdderRequest (h : HalfId) (p : Packet) (s : State) : Host.Outcome State Fault Refusal :=
  s.act (fun b => b.receive h p 0 [0x03] (fun b =>
    let w := leNat (p.payload.take 8)
    let n := p.payload.length - 8
    let ok := decide (8 < p.payload.length) && adderOk (pkAddr p) (bits w 1 0) (bits w 12 8) n && decide (w < 8192) && decide (bits w 7 2 = 0)
    b.localPacket h p ok n (fun b => match b.serve { dest := .mainland, task := none, op := 3, addr := pkAddr p, len := n, issued := 0,
                                                     data := p.payload, upset := .none } with
      | .failed b1 _ => b1.respond h p stDataError []
      | .done b1 _ => b1.respond h p stOk [])))

/-- The endpoint that answers a request of a half: its destination, or the other half for one that crossed the Isthmus (R15). -/
def Block.answerer (b : Block) (h : HalfId) (r : Request) : Option Nat :=
  match r.dest with
  | .endpoint e => some e
  | .mainland => none
  | .cove _ => if homeOf r.addr = h then none else some (b.otherEndpoint h)
  | .shelf _ _ => if homeOf r.addr = h then none else some (b.otherEndpoint h)
  | .bay _ _ => if homeOf r.addr = h then none else some (b.otherEndpoint h)

/-- RESPONSE (R15, R216, R318): a response packet returns its request's tag; one that matches no request is late and is discarded. -/
def execResponse (h : HalfId) (p : Packet) (s : State) : Host.Outcome State Fault Refusal :=
  s.act (fun b => b.receive h p 1 [0x01, 0x02, 0x03, 0x10, 0x11, 0x12, 0x13, 0x14, 0x15, 0x16] (fun b => match tabFind (b.tiers h).tags (pkTag p) with
    | none => b
    | some r => if b.answerer h r = some (pkSrc p) ∧ r.op = pkOp p then b.completeRequest h (pkTag p) (fld p.w2 15 0) p.payload else b))

end Sys2Proof.Machine
end

