-- ==== Sys2Proof/Machine/HostLink.lean ====
section
/-! DEFINITION. The host link (spec/15_host_link_start_and_slack.md R399-R411, R414, R419-R421): queue pairs, submission entries,
head writes, host signals, BAR2 and the link's own resets. -/

namespace Sys2Proof.Machine

/-! ## Idleness (R415) -/

/-- Whether every job slot is Disabled. -/
def Block.allDisabled (b : Block) : Bool := b.slots.all (fun s => s.st = 0)

/-- Whether the module is idle: Ready, every job slot Disabled and no submission entry pending (R415). -/
def Block.idle (b : Block) : Bool :=
  b.sys.ready && b.halfA.tide.running && b.sys.slack = 0 && b.allDisabled && b.pairs.all (fun p => !p.enabled || (p.sqHead = p.sqTail && p.fetched.isNone))

/-- The idle timer runs from the Tide at which the module became idle (R415, R417). -/
def Block.idleCheck (b : Block) : Block :=
  b.setSys { b.sys with idleFrom := if b.idle then (if b.sys.idleFrom.isSome then b.sys.idleFrom else some (b.tide .a)) else none }

/-! ## The function -/

/-- The census as PCI_PHASE.CENSUS shows it (R420). -/
def Block.census (b : Block) : Nat := b.halfA.efing.census

/-- The value of a configuration-space word. Vendor and Device ID, class code and Subsystem IDs are the spec's (R399); the rest is the
PCI Express standard's, and free here (log entry 20). -/
def Block.configWord (b : Block) (i : Nat) : Nat × Block :=
  let n := b.fresh
  if i = 0 then ((b.regFld (pciReg 0x10) 47 32) * 65536 + b.regFld (pciReg 0x10) 63 48, b)
  else if i = 2 then (0x120000 * 256 + n.1 % 256, n.2)
  else if i = 11 then ((b.regFld (pciReg 0x10) 15 0) * 65536 + b.regFld (pciReg 0x10) 31 16, b)
  else (n.1 % 2 ^ 32, n.2)

/-- A size that BAR2 may have, as its logarithm (R403). -/
def barSize (n : Nat) : Nat := if n < 30 then 30 else if 36 < n then 36 else n

/-- CONFIG_REQUEST (R412): answered once power is good and PERST# is released. A write of the Resizable BAR control word sets BAR2's
size (log entry 20). -/
def execConfigRequest (dword : Fin 1024) (value : Option (BitVec 32)) (s : State) : Host.Outcome State Fault Refusal :=
  s.act (fun b =>
    if ¬ b.sys.powerGood ∨ b.sys.perst then b
    else match value with
      | none => let r := b.configWord dword.val; r.2.emit (.completion (some (leBytes 4 r.1)))
      | some v =>
        if dword.val = Config.barWord then
          (b.setSys { b.sys with bar2Log2 := barSize (bits v.toNat 13 8 + 20) }).emit (.completion (some []))
        else b.emit (.completion (some [])))

/-- RATE and WIDTH of PCI_LINK (R400, R420). -/
def rateCode : LinkRate → Nat
  | .gt16 => 4
  | .gt32 => 5
  | .gt64 => 6

/-- The lanes of a width. -/
def widthLanes : LinkWidth → Nat
  | .x1 => 1
  | .x4 => 4
  | .x8 => 8
  | .x16 => 16

/-- PCIE_LINK_UP (R400): 64 GT/s runs in FLIT mode, a lower rate when the partner supports it. -/
def execPcieLinkUp (rate : LinkRate) (width : LinkWidth) (partnerFlit : Bool) (s : State) : Host.Outcome State Fault Refusal :=
  s.act (fun b =>
    if ¬ b.sys.powerGood ∨ b.sys.perst then b
    else b.setReg (pciReg 8) (BitVec.ofNat 64 (b2n (rateCode rate = 6 || partnerFlit) * 512 + rateCode rate * 64 + widthLanes width)))

/-- Whether a PCI_ register mirrors state that a host-link reset leaves alone: PCI_PHASE, PCI_ID, PCI_RESUME (R411, R412, R419; DEDUCED,
log entry 21). -/
def mirrors (a : Nat) : Bool := a = pciReg 0 || a = pciReg 0x10 || a = pciReg 0x38 || a = pciReg 0x40

/-- The host link resets (R411): every PCI_ register to its reset value, every pair disabled with its unfetched entries dropped; nothing
else changes. -/
def Block.resetLink (b : Block) : Block :=
  ({ b with
    regs := b.regs.filter (fun e => !(decide (pciReg 0 ≤ e.1) && decide (e.1 < pciReg 0x50000)) || mirrors e.1),
    pairs := b.pairs.map (fun (p : QueuePair) => { QueuePair.reset with held := p.enabled || p.held }),
    sys := { b.sys with bar2Log2 := 30, slackRefused := false, resumeOwed := true } }).idleCheck

/-- PERST (R411, R487). -/
def execPerst (s : State) : Host.Outcome State Fault Refusal :=
  s.act (fun b => b.resetLink.setSys { b.resetLink.sys with perst := true })

/-- HOT_RESET (R411). -/
def execHotReset (s : State) : Host.Outcome State Fault Refusal := s.act Block.resetLink

/-- LINK_DOWN (R411). -/
def execLinkDown (s : State) : Host.Outcome State Fault Refusal := s.act Block.resetLink

/-- FLR (R411): the link itself stays trained. -/
def execFlr (s : State) : Host.Outcome State Fault Refusal := s.act (fun b => b.resetLink.setReg (pciReg 8) (b.reg (pciReg 8)))

/-- PERST_DEASSERTION (R412). -/
def execPerstDeassertion (s : State) : Host.Outcome State Fault Refusal :=
  s.act (fun b => b.setSys { b.sys with perst := false })

/-! ## BAR2 (R403, R418) -/

/-- Whether BAR2 may reach a local address: Shelf below the stores, or live Bay data. -/
def Block.barReaches (b : Block) (a : Nat) : Bool :=
  match regionOf a with
  | .shelf _ => true
  | .bay h ch => b.bayLive h ch
  | .cove _ => false
  | .control => false
  | .store _ => false
  | .hole => false

/-- The local address of a BAR2 access that is not refused. -/
def Block.barAddr (b : Block) (offset len : Nat) : Option Nat :=
  let a := b.regFld (pciReg 0x20) 47 30 * 2 ^ 30 + offset
  if b.sys.ready ∧ b.sys.slack = 0 ∧ 0 < len ∧ offset + len ≤ 2 ^ b.sys.bar2Log2 ∧ (List.range len).all (fun i => b.barReaches (a + i)) then
    some a
  else none

/-- BAR2_READ (R403). -/
def execBar2Read (offset len : Nat) (s : State) : Host.Outcome State Fault Refusal :=
  s.act (fun b => match b.barAddr offset len with
    | none => (b.count (pciReg 0x48) 63 32 1).emit (.completion none)
    | some a => match b.firstBad a len with
      | some w => (b.noteUe w).emit (.completion none)
      | none => b.emit (.completion (some (b.bytes a len))))

/-- BAR2_WRITE (R403, R410): a poisoned write is discarded and counted; a line that a write finds bad stays as it is. -/
def execBar2Write (offset : Nat) (data : List Byte) (poisoned : Bool) (s : State) : Host.Outcome State Fault Refusal :=
  s.act (fun b =>
    if poisoned then b.count (pciReg 0x48) 15 0 1
    else match b.barAddr offset data.length with
      | none => b.count (pciReg 0x48) 63 32 1
      | some a => match b.landLines ((data.zip (List.range data.length)).map (fun p => (a + p.2, p.1))) with
        | (b1, some w) => b1.noteUe w
        | (b1, none) => b1)

/-! ## Completion queues (R406-R408, R411) -/

/-- The records of a half that wait for a completion queue, with the Tide at which their status was fixed. -/
def Block.queueWaiters (b : Block) (h : HalfId) (q : Nat) : List (Nat × TaskRef) :=
  (b.waitingRecords h).filter (fun p => ((b.graph h p.2.graph).bind (fun g => g.queue)).map (fun x => x.val) = some q)

/-- Waiting records of a completion queue are written in R46 order, as far as it has space (R48, R411). -/
def Block.releaseQueue (b : Block) (q : Nat) : Block :=
  b.retryRecords ((sortBy (fun x y => decide (x.1 ≤ y.1)) (b.queueWaiters .a q ++ b.queueWaiters .b q)).map (fun p => p.2))

/-- SAF_RING_HEAD_q of both halves takes a value (R407). -/
def Block.copyHead (b : Block) (q v : Nat) : Block :=
  (b.setReg (safReg .a (0x40 + 8 * q)) (BitVec.ofNat 64 v)).setReg (safReg .b (0x40 + 8 * q)) (BitVec.ofNat 64 v)

/-- A head write to a completion queue (R48, R407): ignored and logged for a disabled pair, a head beyond the queue, or more records
than it holds. -/
def Block.writeQueueHead (b : Block) (q v addr : Nat) : Block :=
  let p := b.pair q
  match (if p.enabled then headWrite (2 ^ p.cqLog2) p.cqHead p.cqHeld v else none) with
  | none => b.logRefused .a addr v
  | some (hd, n) => ((b.modPair q (fun p => { p with cqHead := hd, cqHeld := n })).copyHead q hd).releaseQueue q

/-- CQ_HEAD_WRITE (R407, R412, R421). -/
def execCqHeadWrite (q : Fin 64) (head : BitVec 32) (s : State) : Host.Outcome State Fault Refusal :=
  s.act (fun b => if b.sys.ready then b.writeQueueHead q.val (head.toNat % 2 ^ 20) (doorbell q.val 8) else b)

/-- COALESCE_TIMER (R408): COAL_US of Tide have passed since the first unsignalled entry. -/
def execCoalesceTimer (q : Fin 64) (s : State) : Host.Outcome State Fault Refusal :=
  s.act (fun b =>
    let p := b.pair q.val
    if p.enabled ∧ 0 < p.unsignalled ∧ p.firstUnsignalled + p.coalUs * 1000 ≤ b.tide .a then b.signalQueue q.val else b)

/-! ## Submission (R404-R406, R414) -/

/-- The first faulty field of a submission entry, by its byte (R405, R406): reserved bits, then OPCODE, then HEADER. -/
def entryFault (l : List Byte) : Option Nat :=
  let w := u64At l 8
  match (List.range 23).find? (fun i => bit w (i + 1)) with
  | some i => some (8 + (i + 1) / 8)
  | none => match (List.range 48).find? (fun i => l.getD (16 + i) 0 ≠ 0) with
    | some i => some (16 + i)
    | none =>
      if bits w 31 24 ≠ 1 ∧ bits w 31 24 ≠ 2 then some 11
      else if bits w 31 24 = 1 ∧ u64At l 0 % 64 ≠ 0 then some 0
      else none

/-- The submission completion of an entry that reaches no admission (R406). -/
def Block.entryDone (b : Block) (q i : Nat) (l : List Byte) (status badTask badOffset : Nat) : Option Block :=
  b.cqPush q (submissionEntry 0 (b2n (bit (u64At l 8) 0)) (b.pair q).job status (bits (u64At l 8) 63 32) q i badTask badOffset) false

/-- A fetched entry is processed: its graph is submitted, or a no-op completes (R406). -/
def Block.processEntry (b : Block) (q : Nat) (op : Nat) : Block :=
  match (b.pair q).fetched with
  | none => b
  | some (i, l) =>
    if bits (u64At l 8) 31 24 ≠ op then b
    else
      let r := if op = 2 then b.entryDone q i l stOk 0 0
        else b.submit (halfOf (b2n (bit (u64At l 8) 0))) (b.pair q).job (u64At l 0) (.queue q) 1 none (bits (u64At l 8) 63 32) i
      match r with
      | none => b
      | some b1 => b1.modPair q (fun p => { p with fetched := none })

/-- A write of PCI_SQ_TAIL_q (R421): a tail beyond the queue, or of a disabled pair, is ignored and logged. -/
def Block.writeTail (b : Block) (q v : Nat) : Block :=
  let p := b.pair q
  if p.enabled ∧ v < 2 ^ p.sqLog2 then (b.modPair q (fun p => { p with sqTail := v })).idleCheck else b.logRefused .a (doorbell q 0) v

/-- SQ_DOORBELL (R412, R418, R421): what the host is known to have written stands in host memory. -/
def execSqDoorbell (q : Fin 64) (tail : BitVec 32) (hostWrote : List (Nat × Byte)) (s : State) : Host.Outcome State Fault Refusal :=
  s.act (fun b0 =>
    let b := b0.hostAnnounce hostWrote
    if ¬ b.sys.ready then b else b.writeTail q.val (tail.toNat % 65536))

/-- Whether a pair may fetch (R406, R414, R416). -/
def Block.mayFetch (b : Block) (q : Nat) : Bool :=
  let p := b.pair q
  p.enabled && p.sqHead ≠ p.sqTail && p.fetched.isNone && decide (p.cqHeld < 2 ^ p.cqLog2) && b.sys.ready && b.sys.slack = 0 &&
    (b.census = 2 || b.census = 3)

/-- SQ_FETCH (R405, R406, R414): one entry is fetched. A malformed one completes at once with ST_ADMISSION; with the module absent every
one completes with ST_ENDPOINT_LOST. -/
def execSqFetch (q : Fin 64) (s : State) : Host.Outcome State Fault Refusal :=
  s.act (fun b =>
    if ¬ b.mayFetch q.val then b
    else
      let i := (b.pair q.val).sqHead
      let l := b.hostBytes (b.regFld (pairReg q.val 0) 59 12 * 4096 + 64 * i) 64
      let b1 := b.modPair q.val (fun p => { p with sqHead := (p.sqHead + 1) % 2 ^ p.sqLog2 })
      (if b.census = 3 then (b1.entryDone q.val i l stEndpointLost 0 (b.endpoint .a)).getD b1
       else match entryFault l with
        | some off => (b1.entryDone q.val i l stAdmission headerTask (r492 off 5 0)).getD b1
        | none => b1.modPair q.val (fun p => { p with fetched := some (i, l) })).idleCheck)

/-- SUBMIT_GRAPH (R406). -/
def execSubmitGraph (q : Fin 64) (s : State) : Host.Outcome State Fault Refusal := s.act (fun b => (b.processEntry q.val 1).idleCheck)

/-- NO_OP (R406). -/
def execNoOp (q : Fin 64) (s : State) : Host.Outcome State Fault Refusal := s.act (fun b => (b.processEntry q.val 2).idleCheck)

/-! ## Queue pairs (R404, R421) -/

/-- The bits of PCI_QP_CTRL_q that a write keeps. -/
def pairMask : Nat := 2 ^ 63 + mask 55 0

/-- A pair is destroyed (R404, R419): an entry already fetched completes normally, the rest are dropped. -/
def Block.destroyPair (b : Block) (q : Nat) : Block :=
  (((b.processEntry q 1).processEntry q 2).modPair q (fun _ => QueuePair.reset)).idleCheck

/-- A pair is created (R404, R411, R421): it starts at index 0 with PHASE 1 and receives the records that wait for its queue. Sizes out of
range are ignored and logged, and so is a new job or size for an enabled pair. -/
def Block.createPair (b : Block) (q : Nat) (v : Word) : Block :=
  let w := v &&& BitVec.ofNat 64 pairMask
  let p := b.pair q
  let old := b.reg (pairReg q 0x10)
  let sq := fld w 35 32
  let cq := fld w 31 27
  if p.enabled then
    if fld w 47 27 ≠ fld old 47 27 then b.logRefused .a (pairReg q 0x10) v.toNat
    else (b.setReg (pairReg q 0x10) w).modPair q (fun p => { p with vec := Fin.ofNat 256 (fld w 55 48), coalUs := fld w 26 16, coalCount := fld w 15 0 })
  else if sq < 6 ∨ 15 < sq ∨ cq < 6 ∨ 20 < cq then b.logRefused .a (pairReg q 0x10) v.toNat
  else
    ((((b.setReg (pairReg q 0x10) w).modPair q (fun _ => { QueuePair.reset with
      enabled := true, job := fld w 47 36, vec := Fin.ofNat 256 (fld w 55 48), sqLog2 := sq, cqLog2 := cq, coalUs := fld w 26 16,
      coalCount := fld w 15 0 })).copyHead q 0).releaseQueue q).idleCheck

/-- A write of PCI_QP_CTRL_q (R404). A pair bound to a job is the only member of that job among the queues. -/
def Block.writePair (b : Block) (q : Nat) (v : Word) : Block :=
  if bit v.toNat 63 then b.createPair q v
  else if (b.pair q).enabled then (b.destroyPair q).setReg (pairReg q 0x10) (v &&& BitVec.ofNat 64 pairMask)
  else b.setReg (pairReg q 0x10) (v &&& BitVec.ofNat 64 pairMask)

/-- The host's event report is raised again once pair 0 or the event vector is enabled anew (R419). -/
def Block.resumeAgain (b : Block) : Block :=
  if ¬ b.sys.resumeOwed then b
  else
    let b1 := b.setSys { b.sys with resumeOwed := false }
    if bit (b1.reg (pciReg 0x38)).toNat 0 then b1.moduleEvent 5 else b1

/-- A write of PCI_QP_CTRL_q, with R419's report when pair 0 is enabled anew after a host-link reset. -/
def Block.pairWrite (b : Block) (q : Nat) (v : Word) : Block :=
  let b1 := b.writePair q v
  if q = 0 ∧ (b1.pair 0).enabled then b1.resumeAgain else b1

/-- QUEUE_PAIR_CREATE (R404, R412, R419). -/
def execQueuePairCreate (q : Fin 64) (value : Word) (s : State) : Host.Outcome State Fault Refusal :=
  s.act (fun b => if b.sys.ready then b.pairWrite q.val (value ||| BitVec.ofNat 64 (2 ^ 63)) else b)

/-- QUEUE_PAIR_DESTROY (R404, R412). -/
def execQueuePairDestroy (q : Fin 64) (s : State) : Host.Outcome State Fault Refusal :=
  s.act (fun b => if b.sys.ready then b.writePair q.val (setFld (b.reg (pairReg q.val 0x10)) 63 63 0) else b)

/-! ## Host signals (R409) -/

/-- A signal entry with its PHASE (R409). -/
def signalBytes (half gid : Nat) (g : Graph) (c : TaskCtx) (phase : Bool) : List Byte :=
  leBytes 4 (gid % 4096 * 2 ^ 20 + 0xFFFFE) ++
  leBytes 4 (b2n phase * 2 ^ 31 + half % 2 * 2 ^ 28 + g.job % 4096 * 2 ^ 16 + stOk) ++
  leBytes 8 (c.desc.param 1).toNat ++ leBytes 8 c.fireTide ++ leBytes 8 (c.desc.index % 2 ^ 20)

/-- HOST_SIGNAL (R409, R419): the entry is written and read back, and its vector raised at once. A full queue holds the task; a queue
disabled or bound to another job ends it with ST_PERMISSION, but a task that already waited when a reset disabled its queue waits for its
re-creation. -/
def execHostSignal (t : TaskRef) (s : State) : Host.Outcome State Fault Refusal :=
  s.act (fun b => b.onRunning t 0x0A (fun g c =>
    let q := c.desc.pf 0 63 58
    let p := b.pair q
    if ¬ p.enabled then (if p.held ∧ c.stage = 1 then b else b.fix t stPermission 0)
    else if p.job ≠ g.job then b.fix t stPermission 0
    else match b.cqPush q (signalBytes (halfNum t.half) t.graph g c) true with
      | some b1 => b1.fix t stOk 0
      | none => b.modTask t (fun c => { c with stage := 1 })))

/-! ## Slack (R415-R419, R247, R337) -/

/-- Whether Slack entry is refused (R415, R419): not Ready, a job slot not Disabled, or a Slack change under way. -/
def Block.slackRefuses (b : Block) : Bool := !b.sys.ready || b.sys.slack ≠ 0 || b.sys.wakePending || !b.allDisabled

/-- Slack entry starts (R416 step 1): fetching stops, and an advertised lending window is revoked. -/
def Block.startSlack (b : Block) : Block :=
  let b1 := b.setSys { b.sys with slack := 1, slackTide := b.tide .a, slackRefused := false, idleFrom := none }
  (b1.revoke .a).revoke .b

/-- A command to enter Slack (R415, R441): an audited change. -/
def Block.enterSlack (b : Block) (a : Actor) : Answer :=
  if b.slackRefuses then (b.setSys { b.sys with slackRefused := true }).refuse (pciReg 0x30) 1
  else b.auditedAnswer a { kind := 0x04, old := b.sys.slack, new := 1 } Block.startSlack

/-- SLACK_ENTER (R415, R441, R447). -/
def execSlackEnter (p : Path) (s : State) : Host.Outcome State Fault Refusal :=
  s.act (fun b0 => b0.byPath p [1, 2] 1 (fun a b => b.enterSlack a))

/-- SLACK_IDLE_TIMER (R415): SLACK_IDLE_MS of Tide in which the module was idle. -/
def execSlackIdleTimer (s : State) : Host.Outcome State Fault Refusal :=
  s.act (fun b => match b.sys.idleFrom with
    | none => b
    | some t => if b.image.slackIdleMs ≠ 0 ∧ b.idle ∧ t + b.image.slackIdleMs * 1000000 ≤ b.tide .a then b.startSlack else b)

/-- Every Up port of a half keeps lane 0 alone, and says so by LSTATE 3 (R337), or takes its lanes back. -/
def Block.portsFromTo (b : Block) (h : HalfId) (x y : Nat) : Block :=
  let hit := (List.range 9).filter (fun i => (b.port h i).st = x)
  (hit.foldl (fun z i => (z.modPort h i (fun l => { l with st := y })).control h i 0 0 0 (if y = 3 then 3 else 0)) b).rerouted b h true

/-- The 64-byte lines of a channel's data: 64 MiB of a Shelf channel, 3,968 frames of a Bay quarter (R233, R252). -/
def channelLines (ch : Nat) : Nat := if ch < 128 then 0x100000 else 0x7C00000

/-- The local address of a line of a channel (R199, R200, R248). -/
def lineAddr (h : HalfId) (ch l : Nat) : Nat :=
  if ch < 128 then 0x200000000 + halfNum h * 0x200000000 + l / 8 * 0x10000 + (ch ^^^ (l / 8 % 128)) * 0x200 + l % 8 * 0x40
  else 0x8000000000 + (32 * halfNum h + (ch - 128)) * 0x200000000 + l * 0x40

/-- The lines that TG_RANGE names, first and count; 0 lines means to the end of the channel, and a range that leaves the channel ends there
(DESIGN CHOICE, log entry 28). -/
def Block.testRange (b : Block) (h : HalfId) (ch : Nat) : Nat × Nat :=
  let w := (b.reg (chanReg h ch 0x10)).toNat
  let rest := channelLines ch - bits w 27 0
  (bits w 27 0, if bits w 59 32 = 0 then rest else min (bits w 59 32) rest)

/-- A running test stops (R248, R252): how far it came, what it counted with the first of it, and what a stopped mode 0 test left in its
range, are free values (log entry 28). -/
def Block.stopTest (b : Block) (h : HalfId) (ch : Nat) : Block :=
  if b.regFld (chanReg h ch 0x18) 63 62 ≠ 1 then b
  else
    let r := b.testRange h ch
    let x := b.fresh
    let y := x.2.fresh
    let z := y.2.fresh
    let done := x.1 % (r.2 + 1)
    let b0 := z.2.setReg (chanReg h ch 0x18) (BitVec.ofNat 64 (3 * 2 ^ 62 + done * 2 ^ 32 + y.1 % (done + 1)))
    let b1 := if y.1 % (done + 1) = 0 then b0 else b0.setReg (chanReg h ch 0x20) (BitVec.ofNat 64 z.1)
    if b1.regFld (chanReg h ch 0) 2 1 ≠ 0 then b1
    else (List.range r.2).foldl (fun z i =>
      let f := z.freshList 64
      f.2.store (lineAddr h ch (r.1 + i)) (f.1.map (fun n => BitVec.ofNat 8 n))) b1

/-- Every running traffic generator of a half stops (R249). -/
def Block.stopTests (b : Block) (h : HalfId) : Block := (List.range 160).foldl (fun x ch => x.stopTest h ch) b

/-- A wake starts at T_w (R417). -/
def Block.startWake (b : Block) : Block := b.setSys { b.sys with slack := 3, slackTide := b.tide .a, wakePending := false }

/-- Whether a half's controllers have answered every request that was issued to Shelf or Bay (R247). -/
def Block.homeQuiet (b : Block) (h : HalfId) : Bool := (b.tiers h).tags.all (fun p => match p.2.dest with
  | .shelf _ _ => false
  | .bay _ _ => false
  | .cove _ => true
  | .endpoint _ => true
  | .mainland => true)

/-- SLACK_ENTRY_DONE (R247, R416): once no window is being revoked and every request issued is answered, tests stop, ports keep lane 0 and the module is in Slack; a WAKE met on the
way in starts its wake at this Tide (R419). -/
def execSlackEntryDone (s : State) : Host.Outcome State Fault Refusal :=
  s.act (fun b =>
    if b.sys.slack = 1 ∧ (b.window .a).st ≠ 2 ∧ (b.window .b).st ≠ 2 ∧ b.homeQuiet .a ∧ b.homeQuiet .b then
      let b1 := ((((b.stopTests .a).stopTests .b).portsFromTo .a 2 3).portsFromTo .b 2 3)
      let b2 := (b1.setSys { b1.sys with slack := 2 }).moduleEvent 3
      if b2.sys.wakePending then b2.startWake else b2
    else b)

/-- A command to wake (R417, R419, R441): in Slack a wake starts; during entry it waits for step 4; at any other time it is ignored. -/
def Block.wake (b : Block) (a : Actor) : Answer :=
  if b.sys.slack = 2 then b.auditedAnswer a { kind := 0x04, old := 2, new := 0 } Block.startWake
  else if b.sys.slack = 1 ∧ ¬ b.sys.wakePending then
    b.auditedAnswer a { kind := 0x04, old := 1, new := 0 } (fun b => b.setSys { b.sys with wakePending := true })
  else b.accept

/-- SLACK_WAKE (R417, R419, R441). -/
def execSlackWake (p : Path) (s : State) : Host.Outcome State Fault Refusal :=
  s.act (fun b0 => b0.byPath p [1, 2] 1 (fun a b => b.wake a))

/-- WAKE_READY (R417): at T_w + 30 ms of Tide the module is Ready again. -/
def execWakeReady (s : State) : Host.Outcome State Fault Refusal :=
  s.act (fun b =>
    if b.sys.slack = 3 ∧ b.sys.slackTide + 30000000 ≤ b.tide .a then
      let b1 := (b.portsFromTo .a 3 2).portsFromTo .b 3 2
      ((b1.setSys { b1.sys with slack := 0 }).moduleEvent 4).idleCheck
    else b)

end Sys2Proof.Machine
end

