-- ==== Sys2Proof/Machine/Image.lean ====
section
/-! DEFINITION. The configuration image (spec/16_configuration_image.md): layers and records, the field catalogue, verification, the
topology table and the routes computed from it. -/

namespace Sys2Proof.Machine

/-! ## The topology table (R429) -/

/-- A 16-bit number in a list of bytes. -/
def u16At (l : List Byte) (off : Nat) : Nat := leNat ((l.drop off).take 2)

/-- A 32-bit number in a list of bytes. -/
def u32At (l : List Byte) (off : Nat) : Nat := leNat ((l.drop off).take 4)

def topoRoot (t : List Byte) : Nat := u16At t 0
def topoBackup (t : List Byte) : Nat := u16At t 2
def topoRepeat (t : List Byte) : Nat := (t.getD 4 0).toNat

/-- The candidates in rank order: rank and module number. -/
def topoCands (t : List Byte) : List (Nat × Nat) :=
  ((List.range 8).map (fun i => (i, u16At t (8 + 2 * i)))).filter (fun p => p.2 ≠ 0xFFFF)

/-- ROLE of a tray: 0 absent, 1 active, 2 spare. -/
def topoRole (t : List Byte) (tray : Nat) : Nat := bits (u16At t (4096 + 2 * tray)) 15 14

/-- POOL_ORDER of a tray. -/
def topoOrder (t : List Byte) (tray : Nat) : Nat := bits (u16At t (4096 + 2 * tray)) 10 0

/-- The entry of a module port. -/
def topoEntry (t : List Byte) (m port : Nat) : Nat := u32At t (8192 + 80 * m + 4 * port)

def entryModule (e : Nat) : Nat := bits e 31 19
def entryPort (e : Nat) : Nat := bits e 18 14
def entryClass (e : Nat) : Nat := bits e 13 12

/-- The Tide parent codes of a half of a module, most preferred first. -/
def topoParents (t : List Byte) (m half : Nat) : List Nat :=
  let w := u16At t (8192 + 80 * m + 72 + 2 * half)
  [bits w 11 8, bits w 7 4, bits w 3 0]

/-- Whether a module's record keeps the table's rules: a connected port is named back with its class, and no parent code names an
unconnected port. -/
def moduleOk (t : List Byte) (m : Nat) : Bool :=
  (List.range 18).all (fun p =>
    let e := topoEntry t m p
    bits e 11 0 = 0 && (entryClass e = 0 || (decide (entryPort e < 18) &&
      (let f := topoEntry t (entryModule e) (entryPort e)
       entryClass f = entryClass e && entryModule f = m && entryPort f = p)))) &&
  u32At t (8192 + 80 * m + 76) = 0 &&
  (List.range 2).all (fun h =>
    bits (u16At t (8192 + 80 * m + 72 + 2 * h)) 15 12 = 0 &&
    (topoRole t (m / 4) = 0 || (topoParents t m h).all (fun c => c = 9 || c = 0xF || (decide (c < 9) && entryClass (topoEntry t m (9 * h + c)) ≠ 0))))

/-- Whether the table keeps its rules (R425, R429). -/
def topoOk (t : List Byte) : Bool :=
  decide (1 ≤ topoRepeat t) && decide (topoRepeat t ≤ 15) &&
  (((t.drop 5).take 3 ++ (t.drop 24).take 4072).all (fun x => x = 0)) &&
  (List.range 2048).all (fun y => topoRole t y ≠ 3 && bits (u16At t (4096 + 2 * y)) 13 11 = 0) &&
  (List.range 8192).all (fun m => moduleOk t m) &&
  (topoCands t).all (fun c => topoRole t (c.2 / 4) = 1) &&
  decide (((topoCands t).map (fun c => c.2 / 4)).Nodup) &&
  decide ((((List.range 2048).filter (fun y => topoRole t y = 2)).map (fun y => topoOrder t y)).Nodup)

/-! ## The table in use, or the built-in topology (R425) -/

/-- The entry of one of this module's ports: unconnected under the built-in topology. -/
def Block.entry (b : Block) (m port : Nat) : Nat := (b.image.topology.map (fun t => topoEntry t m port)).getD 0

/-- The module port of a half's local port. -/
def modulePort (h : HalfId) (i : Nat) : Nat := 9 * halfNum h + i

/-- The candidates in rank order; the built-in topology has this module alone. -/
def Block.cands (b : Block) : List (Nat × Nat) := (b.image.topology.map topoCands).getD [(0, b.regFld (zilReg 0x40) 63 51)]


/-- The root endpoint. -/
def Block.rootEp (b : Block) : Nat := (b.image.topology.map topoRoot).getD (2 * b.regFld (zilReg 0x40) 63 51)

/-- The Tide parent codes of a half: under the built-in topology half B takes the Isthmus alone. -/
def Block.parents (b : Block) (h : HalfId) : List Nat :=
  match b.image.topology with
  | some t => topoParents t (b.regFld (zilReg 0x40) 63 51) (halfNum h)
  | none => match h with
    | .a => [0xF, 0xF, 0xF]
    | .b => [9, 0xF, 0xF]

/-- ROLE of a tray: under the built-in topology this module's tray alone is active. -/
def Block.trayRole (b : Block) (tray : Nat) : Nat :=
  match b.image.topology with
  | some t => topoRole t tray
  | none => if tray = b.regFld (zilReg 0x40) 50 40 then 1 else 0

/-- REPEAT_LIMIT: under the built-in topology, which gives none, the field's default of R383 (DEDUCED, log entry 24). -/
def Block.repeatLimit (b : Block) : Nat := (b.image.topology.map topoRepeat).getD 3

/-! ## Routes (R430) -/

/-- The endpoints one link away from an endpoint, by exit code. -/
def Block.linkTo (b : Block) (e exit : Nat) : Option Nat :=
  if exit = 9 then some (if e % 2 = 0 then e + 1 else e - 1)
  else
    let x := b.entry (e / 2) (9 * (e % 2) + exit)
    if entryClass x = 0 then none else some (2 * entryModule x + (if 9 ≤ entryPort x then 1 else 0))

/-- The endpoints one link away. -/
def Block.neighbours (b : Block) (e : Nat) : List Nat := (List.range 10).filterMap (fun x => b.linkTo e x)

/-- Distances by breadth: `seen` lists each endpoint reached with its distance. -/
def Block.spread (b : Block) : Nat → Nat → List Nat → Tab Nat → Tab Nat
  | 0, _, _, seen => seen
  | fuel + 1, d, front, seen =>
    let next := ((front.map (fun e => b.neighbours e)).flatten.filter (fun e => (tabFind seen e).isNone)).eraseDups
    if next.isEmpty then seen else b.spread fuel (d + 1) next (next.foldl (fun t e => tabPut t e (d + 1)) seen)

/-- Link distances from an endpoint, as far as a route may reach. -/
def Block.distances (b : Block) (e : Nat) : Tab Nat := b.spread 7 0 [e] [(e, 0)]

/-- The exits of a half with the distances from each one's neighbour. -/
def Block.exitTables (b : Block) (h : HalfId) : List (Nat × Tab Nat) :=
  let e := 2 * b.regFld (zilReg 0x40) 63 51 + halfNum h
  (List.range 10).filterMap (fun x => (b.linkTo e x).map (fun n => (x, b.distances n)))

/-- The costs of a destination by exit. -/
def exitCosts (tables : List (Nat × Tab Nat)) (d : Nat) : List (Nat × Nat) :=
  tables.filterMap (fun t => (tabFind t.2 d).map (fun n => (t.1, n + 1)))

/-- The route byte of a destination (R430). -/
def routeOf (costs : List (Nat × Nat)) : Nat :=
  match costs.foldl (fun best c => match best with
      | none => some c
      | some m => if c.2 < m.2 then some c else some m) none with
  | none => 0xFF
  | some p =>
    if 7 < p.2 then 0xFF
    else 16 * p.1 + ((costs.find? (fun c => c.1 ≠ p.1 && decide (c.2 ≤ p.2 + 1))).map (fun c => c.1)).getD 0xF

/-- The destinations of a half with their route bytes, but those that have none. -/
def Block.routes (b : Block) (h : HalfId) : List (Nat × Nat) :=
  let e := 2 * b.regFld (zilReg 0x40) 63 51 + halfNum h
  let tables := b.exitTables h
  let known := ((tables.map (fun t => t.2.map (fun p => p.1))).flatten).eraseDups
  ((known.filter (fun d => d ≠ e)).map (fun d => (d, routeOf (exitCosts tables d)))).filter (fun p => p.2 ≠ 0xFF) ++ [(e, 0xEF)]

/-! ## Fields (R428) -/

/-- The bytes of a field's value. Where the catalogue gives a count of bits or a table it is that; elsewhere 4 bytes (DESIGN CHOICE, log
entry 22). -/
def fieldLength : Nat → Option Nat
  | 0x0101 => some 16
  | 0x0102 => some 4
  | 0x0103 => some 4
  | 0x0104 => some 112
  | 0x0105 => some 256
  | 0x0201 => some 4
  | 0x0202 => some 663552
  | 0x0203 => some 4
  | 0x0204 => some 4
  | 0x0205 => some 4
  | 0x0206 => some 4
  | 0x0207 => some 4
  | 0x0208 => some 4
  | 0x0209 => some 4
  | 0x020A => some 12
  | 0x020B => some 4
  | 0x020C => some 8
  | 0x020D => some 8
  | 0x020E => some 12
  | 0x020F => some 8
  | 0x0210 => some 4
  | 0x0211 => some 4
  | 0x0212 => some 4
  | 0x0301 => some 4
  | 0x0302 => some 4
  | 0x0303 => some 4
  | 0x0304 => some 4
  | 0x0305 => some 4
  | 0x0306 => some 4
  | 0x0307 => some 4
  | 0x0308 => some 4
  | 0x0309 => some 8
  | 0x0401 => some 4
  | 0x0402 => some 19
  | _ => none

/-- The range of a field that is one number. -/
def fieldRange : Nat → Nat × Nat
  | 0x0103 => (0, 1)
  | 0x0203 => (400, 1800)
  | 0x0204 => (0, 3)
  | 0x0206 => (0, 2)
  | 0x0208 => (1, 65535)
  | 0x0209 => (1, 4294967295)
  | 0x020B => (0, 1)
  | 0x0210 => (1, 65535)
  | 0x0211 => (1, 67108864)
  | 0x0212 => (0, 1)
  | 0x0301 => (100000, 1000000000)
  | 0x0302 => (0, 1073741823)
  | 0x0303 => (10000, 100000000)
  | 0x0304 => (256, 4096)
  | 0x0305 => (1, 65535)
  | 0x0306 => (60, 86400)
  | 0x0307 => (0, 86400000)
  | 0x0308 => (10000000, 1000000000)
  | 0x0401 => (400, 1800)
  | _ => (0, 2 ^ 152)

/-- The default of a field that is one number. -/
def fieldDefault : Nat → Nat
  | 0x0203 => 1800
  | 0x0207 => 0x0402
  | 0x0208 => 1
  | 0x0209 => 4096
  | 0x0210 => 600
  | 0x0211 => 16777216
  | 0x0212 => 1
  | 0x0301 => 5000000
  | 0x0302 => 1000000
  | 0x0303 => 200000
  | 0x0304 => 1024
  | 0x0305 => 256
  | 0x0306 => 3600
  | 0x0308 => 100000000
  | 0x0309 => 0x30D4003E8138800
  | _ => 0

/-- Whether a layer (1 factory, 2 installer, 3 operator) may hold a field. -/
def fieldLayer (id layer : Nat) : Bool :=
  match id / 256 with
  | 1 => layer = 1
  | 2 => layer = 2
  | 3 => layer = 2 || layer = 3
  | 4 => layer = 3
  | _ => false

/-- The classes' default credits (R315). -/
def creditDefaults : List Nat := [2048, 4096, 5888, 3584, 256, 512]

/-- The classes' reserved credits (R315). -/
def creditFloors : List Nat := [1032, 1032, 1032, 1032, 64, 64]

/-- Words of `n` bytes in a value. -/
def wordsOf (n count : Nat) (v : List Byte) : List Nat := (List.range count).map (fun i => leNat ((v.drop (n * i)).take n))

/-- A size word of R279 and R305: two 14-bit fields of at least `lo` and at most 8,192, the rest reserved. -/
def sizeWordOk (lo w : Nat) : Bool :=
  bits w 31 30 = 0 && bits w 15 14 = 0 && decide (lo ≤ bits w 29 16) && decide (bits w 29 16 ≤ 8192) && decide (lo ≤ bits w 13 0) &&
    decide (bits w 13 0 ≤ 8192)

/-- An entry of CAL_VOLTAGE (R457). -/
def railOk (r w : Nat) : Bool := bits w 15 0 = 0 && (decide (r < 2) || bits w 47 32 = bits w 63 48)

/-- Whether a field's value lies in its range with no reserved bit set (R425, R428). -/
def valueOk (id : Nat) (v : List Byte) : Bool :=
  let n := leNat v
  match id with
  | 0x0101 => true
  | 0x0102 => true
  | 0x0104 => ((wordsOf 8 14 v).zip (List.range 14)).all (fun p => railOk p.2 p.1)
  | 0x0105 => true
  | 0x0201 => true
  | 0x0202 => topoOk v
  | 0x0205 => bits n 31 9 = 0 && decide (bits n 7 0 ≤ 128) && (!(bit n 8) || decide (1 ≤ bits n 7 0))
  | 0x0207 => bits n 31 16 = 0 && decide (bits n 15 8 ≤ 8) && decide (1 ≤ bits n 7 0)
  | 0x020A => ((wordsOf 2 6 v).zip creditFloors).all (fun p => decide (p.2 ≤ p.1)) && (wordsOf 2 6 v).sum = 16384
  | 0x020C => true
  | 0x020D => true
  | 0x020E => (wordsOf 4 3 v).all (fun w => sizeWordOk 16 w)
  | 0x020F => (wordsOf 4 2 v).all (fun w => sizeWordOk 1 w)
  | 0x0309 => bits n 7 0 = 0 && decide (1000 ≤ bits n 63 40) && decide (bits n 63 40 ≤ 10000000) && decide (100 ≤ bits n 39 24) &&
      decide (bits n 39 24 ≤ 60000) && decide (100 ≤ bits n 23 8) && decide (bits n 23 8 ≤ 60000)
  | 0x0402 => true
  | _ => decide ((fieldRange id).1 ≤ n) && decide (n ≤ (fieldRange id).2)

/-! ## Layers and slots (R423-R425) -/

/-- A layer's value of a field. -/
def Layer.find (l : Layer) (id : Nat) : Option (List Byte) := (l.records.find? (fun r => r.1 = id)).map (fun r => r.2)

/-- The bytes of a record: ID, length, value, padded to a multiple of 8. -/
def recordSize (r : Nat × List Byte) : Nat := cdiv (4 + r.2.length) 8 * 8

/-- The size of a layer. -/
def Layer.size (l : Layer) : Nat := 64 + (l.records.map recordSize).sum + 3373

/-- The largest size of a layer (R423). -/
def layerMax : Nat → Nat
  | 1 => 0x40000
  | 2 => 0x200000
  | _ => 0x10000

/-- Whether field IDs strictly rise: none repeats or stands out of order. -/
def idsRise : List (Nat × List Byte) → Bool
  | [] => true
  | [_] => true
  | x :: y :: l => decide (x.1 < y.1) && idsRise (y :: l)

/-- Whether a layer keeps R425, its signature apart; the reserved bytes of its header are zero (R5, R424). -/
def Layer.wellFormed (l : Layer) (n : Nat) : Bool :=
  decide (l.size ≤ layerMax n) && l.reserved.all (fun x => x = 0) && idsRise l.records &&
    l.records.all (fun r => fieldLayer r.1 n && fieldLength r.1 = some r.2.length && valueOk r.1 r.2)

/-- A slot's layers with their numbers. -/
def ConfigSlot.layers (c : ConfigSlot) : List (Nat × Layer) :=
  [(1, c.factory), (2, c.installer), (3, c.operator)].filterMap (fun p => p.2.map (fun l => (p.1, l)))

/-- A field's value in a slot: the operator layer's, else the installer's, else the factory's (R428, R430). -/
def ConfigSlot.value (c : ConfigSlot) (id : Nat) : Option (List Byte) :=
  match c.operator.bind (fun l => l.find id) with
  | some v => some v
  | none => match c.installer.bind (fun l => l.find id) with
    | some v => some v
    | none => c.factory.bind (fun l => l.find id)

/-- A field that is one number, with its default. -/
def ConfigSlot.number (c : ConfigSlot) (id : Nat) : Nat := ((c.value id).map leNat).getD (fieldDefault id)

/-- The same without the operator layer. -/
def ConfigSlot.installerNumber (c : ConfigSlot) (id : Nat) : Nat := ((c.installer.bind (fun l => l.find id)).map leNat).getD (fieldDefault id)

/-- Whether a layer's signer is the one R425 names: the maker, an active installer key, the device identity. -/
def Block.layerSigned (b : Block) (p : Nat × Layer) : Bool :=
  p.2.verifies && (if p.1 = 1 then p.2.keyId = 0xFFFFFFFFFFFFFFFF
    else if p.1 = 2 then b.flash.keys.any (fun k => k.keyId = p.2.keyId && k.role = 2 && k.active)
    else true)

/-- Whether a slot verifies (R425): the factory layer's SERIAL and CAL_VOLTAGE are required. -/
def Block.slotVerifies (b : Block) (c : ConfigSlot) : Bool :=
  c.headerOk && c.layers.all (fun p => p.2.wellFormed p.1 && b.layerSigned p) &&
    (c.factory.bind (fun l => l.find 0x0101)).isSome && (c.factory.bind (fun l => l.find 0x0104)).isSome &&
    decide ((c.operator.bind (fun l => l.find 0x0401)).all (fun v => decide (leNat v ≤ c.number 0x0203)))

/-- A slot of the flash: false A, true B. -/
def Flash.slot (f : Flash) (isB : Bool) : Option ConfigSlot := if isB then f.slotB else f.slotA

/-- A flash with a slot replaced. -/
def Flash.setSlot (f : Flash) (isB : Bool) (c : Option ConfigSlot) : Flash := if isB then { f with slotB := c } else { f with slotA := c }

/-- The commit records, highest SEQ first (R426). -/
def Flash.commits (f : Flash) : List CommitRecord :=
  match f.commit0, f.commit1 with
  | some x, some y => if y.seq ≤ x.seq then [x, y] else [y, x]
  | some x, none => [x]
  | none, some y => [y]
  | none, none => []

/-- The verified slot of a commit record. -/
def Block.committed (b : Block) (r : CommitRecord) : Option (Bool × ConfigSlot × Nat) :=
  match b.flash.slot r.slotB with
  | some c => if c.crc = r.slotCrc ∧ b.slotVerifies c then some (r.slotB, c, r.seq) else none
  | none => none

/-- A slot that verifies on its own, with its GEN for want of a SEQ. -/
def Block.verified (b : Block) (isB : Bool) : Option (Bool × ConfigSlot × Nat) :=
  match b.flash.slot isB with
  | some c => if b.slotVerifies c then some (isB, c, c.gen) else none
  | none => none

/-- The slot a start uses, with the commit SEQ that CFG_STAT shows (R426): by the commit records, else the verified slot of higher
GEN. -/
def Block.chooseSlot (b : Block) : Option (Bool × ConfigSlot × Nat) :=
  match b.flash.commits.findSome? (fun r => b.committed r) with
  | some x => some x
  | none => match b.verified false, b.verified true with
    | some x, some y => if x.2.2 < y.2.2 then some y else some x
    | some x, none => some x
    | none, y => y

/-- Whether a start falls back: it uses a slot other than the one the highest record names (R426, R432). -/
def Block.fallsBack (b : Block) (isB : Bool) : Bool := (b.flash.commits.head?.map (fun r => r.slotB != isB)).getD true

/-! ## Pushing the fields down (R428, R431) -/

/-- Registers that take one value on both halves. -/
def Block.setBoth (b : Block) (f : HalfId → Nat) (v : Nat) : Block := (b.setReg (f .a) (BitVec.ofNat 64 v)).setReg (f .b) (BitVec.ofNat 64 v)

/-- Registers that take a list of values on both halves, 8 bytes apart. -/
def Block.setBothList (b : Block) (f : HalfId → Nat) : List Nat → Nat → Block
  | [], _ => b
  | v :: vs, i => (b.setBoth (fun h => f h + 8 * i) v).setBothList f vs (i + 1)

/-- The words of a field that holds several, or its default words. -/
def ConfigSlot.list (c : ConfigSlot) (id n count : Nat) (d : List Nat) : List Nat := ((c.value id).map (fun v => wordsOf n count v)).getD d

/-- The O fields (R428). -/
def overrideIds : List Nat := [0x0301, 0x0302, 0x0303, 0x0304, 0x0305, 0x0306, 0x0307, 0x0308, 0x0309]

/-- The image's values reach the registers of both halves and the module's own settings (R428). The mask ROM's own IDs are 0 (log entry
4). -/
def Block.push (b : Block) (c : ConfigSlot) : Block :=
  let n := fun id => c.number id
  let b1 := b.setReg (pciReg 0x10) (BitVec.ofNat 64 (n 0x0102 * 2 ^ 32 + n 0x0201))
  let b2 := ((((b1.setBoth (fun h => tierReg h 0) (n 0x0204)).setBoth (fun h => tierReg h 0x40) (n 0x0205)).setBoth (fun h => bayReg h 0x18)
    (n 0x0207)).setBothList (fun h => efReg h 0x40) (c.list 0x020A 2 6 creditDefaults) 0).setBothList (fun h => vidReg h 8)
    (c.list 0x020E 4 3 [0x20002000, 0x20002000, 0x20002000]) 0
  let b3 := ((b2.setBothList (fun h => inReg h 0) (c.list 0x020F 4 2 [0x20002000, 0x20002000]) 0).setBoth (fun h => inReg h 0x10)
    (n 0x0210)).setBoth (fun h => inReg h 0x18) (n 0x0211)
  let b4 := ((b3.setBoth (fun h => safReg h 8) (n 0x0301)).setBoth (fun h => safReg h 0x10) (n 0x0302)).setBoth (fun h => tierReg h 0x10)
    (n 0x0303)
  let b5 := ((b4.setBoth (fun h => tierReg h 0x18) (n 0x0304)).setBoth (fun h => tierReg h 0x38) (n 0x0305)).setBoth (fun h => shelfReg h 8)
    (2 ^ 32 + n 0x0306)
  let b6 := ((b5.setBoth (fun h => tideReg h 0x18) (n 0x0308)).setBoth (fun h => gateReg h 0) (n 0x0309)).setReg (pwrReg 0)
    (BitVec.ofNat 64 (((c.value 0x0401).map leNat).getD (n 0x0203)))
  let topo := c.installer.bind (fun l => l.find 0x0202)
  let b7 := match topo with
    | some t => b6.setReg (cfgReg 8) (BitVec.ofNat 64 (crc64 t))
    | none => b6
  b7.setImage
      { serial := n 0x0101, diagAccess := n 0x0103 = 1, powerLimitW := n 0x0203, spareUe := n 0x0208, spareCe := n 0x0209,
        bayRate := n 0x0206, slackIdleMs := n 0x0307, tideRef := n 0x020B, tideStartNs := n 0x020C, domainEpoch := n 0x020D,
        clkSpread := n 0x0212 = 1, topology := topo, disabled := n 0x0402, calVoltage := (c.value 0x0104).getD [],
        calSensors := (c.value 0x0105).getD (List.replicate 256 0),
        installerValues := overrideIds.map (fun id => (id, c.installerNumber id)) }

end Sys2Proof.Machine
end

