-- ==== Sys2Proof/Machine/Start.lean ====
section
/-! DEFINITION. From input power to Ready (spec/15_host_link_start_and_slack.md R412, R413; spec/09_shelf_and_bay_hardware.md R234-R246;
spec/16_configuration_image.md R426-R431; spec/17_zilsy_management_and_roles.md R449-R451; spec/18, 19 R466, R467, R477, R484). -/

namespace Sys2Proof.Machine

/-! ## Supply -/

/-- What outlives a loss of power: the flash; and the host's memory and what has left the module, which are not its own (R467). -/
def Block.cold (b : Block) : Block :=
  { Block.reset with flash := b.flash, hostMem := b.hostMem, out := b.out, freeCounter := b.freeCounter }

/-- VIN_APPLIED (R477, R487): FAULT# stays as it was until power good (R483). -/
def execVinApplied (s : State) : Host.Outcome State Fault Refusal :=
  s.act (fun b => if b.sys.vin then b else b.cold.setSys { b.cold.sys with vin := true, faultPin := b.sys.faultPin })

/-- What a configuration or firmware write that the supply cuts short leaves: the slot it wrote is erased (R427, R454, R467). -/
def Block.tornWrites (b : Block) : Block :=
  if b.zilsy.configWrite.isSome then b.setFlash (b.flash.setSlot (!b.zilsy.currentB) none) else b

/-- VIN_LOSS (R466, R467). -/
def execVinLoss (s : State) : Host.Outcome State Fault Refusal :=
  s.act (fun b => b.tornWrites.cold.setSys { b.tornWrites.cold.sys with faultPin := b.sys.faultPin })

/-- The majority of three samples of a strap field, bit by bit (R471, R484). -/
def majority (x y z : Nat) : Nat := (x &&& y) ||| (y &&& z) ||| (x &&& z)

/-- ZIL_STRAPS as latched (R488). -/
def strapsWord (tray slot : Nat) : Nat := (tray * 4 + slot) * 2 ^ 51 + tray * 2 ^ 40 + slot * 2 ^ 38 + 1

/-- PCI_PHASE takes a code: ELAPSED_MS is the time of its entry, and the PHASE event is raised when the code changes (R413, R420). -/
def Block.setPhase (b : Block) (code detail : Nat) : Block :=
  let old := b.regFld (pciReg 0) 7 0
  let b1 := b.setReg (pciReg 0) (BitVec.ofNat 64 (min (b.sys.upNs / 1000000) 65535 * 2 ^ 48 + b.census * 2 ^ 40 + detail * 256 + code))
  if old = code then b1 else b1.moduleEvent 0

/-- Start step `n` runs: PHASE is its number. -/
def Block.enterStep (b : Block) (n : Nat) : Block := (b.setSys { b.sys with startStep := n }).setPhase n 0

/-- A start step fails: PHASE is its failure code, and the module never reaches Ready. -/
def Block.failStep (b : Block) (code detail : Nat) : Block := (b.setSys { b.sys with startStep := 0 }).setPhase code detail

/-- The start begins at step 1, with the straps and trims it starts from (R413, R464). -/
def Block.startUp (b : Block) (straps upNs : Nat) : Block :=
  let c := b.cold
  (((c.setSys { c.sys with vin := true, powerGood := true, upNs := upNs, perst := b.sys.perst }).setReg (zilReg 0x40)
    (BitVec.ofNat 64 straps)).setReg (pwrReg 0x18) (BitVec.ofNat 64 (b.flash.trimB * 2 ^ 40 + b.flash.trimA * 2 ^ 32))).enterStep 1

/-- POWER_GOOD (R477, R471, R484, R12): the straps are latched, and the start begins. FAULT# is released (R483). -/
def execPowerGood (s0 s1 s2 : StrapSample) (s : State) : Host.Outcome State Fault Refusal :=
  s.act (fun b =>
    if b.sys.vin ∧ ¬ b.sys.powerGood ∧ ¬ b.sys.standby then
      b.startUp (strapsWord (majority s0.tray.val s1.tray.val s2.tray.val) (majority s0.slot.val s1.slot.val s2.slot.val)) 0
    else b)

/-! ## Step 1: Zilsy (R449-R451) -/

/-- The security floor (R449). -/
def Flash.floor (f : Flash) : Nat := ((f.audit.filter (fun r => r.kind = 0x21)).map (fun r => r.new)).foldl max 0

/-- A firmware slot that may boot (R450). -/
def Flash.bootable (f : Flash) (x : Option FirmwareSlot) : Option FirmwareSlot := x.bind (fun y => if y.signed ∧ f.floor ≤ y.svn then some y else none)

/-- The firmware slot that boots: the valid one of higher GEN. -/
def Flash.bootSlot (f : Flash) : Option (Bool × FirmwareSlot) :=
  match f.bootable f.firmwareA, f.bootable f.firmwareB with
  | some x, some y => if x.gen < y.gen then some (true, y) else some (false, x)
  | some x, none => some (false, x)
  | none, some y => some (true, y)
  | none, none => none

/-- Slots that fail a signature are logged once Zilsy runs (R450). ARG0 is the staging object number of firmware, 3 (log entry 17). -/
def Block.logUnsigned (b : Block) (x : Option FirmwareSlot) : Block :=
  match x with
  | none => b
  | some y => if y.signed then b else b.log { event := 0x0051, kind := 9, status := stSignature, arg0 := 3, arg1 := 0xFFFFFFFFFFFFFFFF }

/-- Booted firmware raises the floor (R451): a KIND 0x21 record with the maker's role and KEY_ID, OLD the floor and NEW the SVN. Once all
65,536 records are used the floor, which the records hold, stays (R437, R442). -/
def Block.raiseFloor (b : Block) (x : FirmwareSlot) : Block :=
  if x.raiseFloor ∧ b.flash.floor < x.svn then
    (b.audited { role := 3, keyId := 0xFFFFFFFFFFFFFFFF, viaPcie := false } { kind := 0x21, old := b.flash.floor, new := x.svn } (fun b => b)).1
  else b

/-- The records that the half controllers queued reach Zilsy (R435). -/
def Block.flushQueues (b : Block) : Block :=
  (b.zilsy.queuedA ++ b.zilsy.queuedB).foldl (fun x r => x.zilsyLog r) (b.setZilsy { b.zilsy with queuedA := [], queuedB := [] })

/-- Zilsy runs from a firmware slot. -/
def Block.bootZilsy (b : Block) (isB : Bool) (x : FirmwareSlot) : Block :=
  let b1 := b.setZilsy { b.zilsy with up := true, started := b.sys.upNs, fwSlotB := isB }
  (((b1.flushQueues.logUnsigned b1.flash.firmwareA).logUnsigned b1.flash.firmwareB)).raiseFloor x

/-- ZILSY_BOOT (R413 step 1, R450). -/
def execZilsyBoot (s : State) : Host.Outcome State Fault Refusal :=
  s.act (fun b =>
    if b.sys.startStep ≠ 1 then b
    else match b.flash.bootSlot with
      | none => b.failStep 0x81 0
      | some (isB, x) => (b.bootZilsy isB x).enterStep 2)

/-! ## Step 2: the configuration image (R426) -/

/-- Layers whose signature fails are logged (R425). -/
def Block.logLayers (b : Block) (c : Option ConfigSlot) : Block :=
  match c with
  | none => b
  | some x => (x.layers.filter (fun p => !(b.layerSigned p))).foldl (fun y p =>
      y.log { event := 0x0051, kind := 10, status := stSignature, arg0 := p.1, arg1 := p.2.keyId }) b

/-- Whether the audit area holds a commit's KIND 0x10 record: DETAIL of such a record is the commit's SEQ (DEDUCED, log entry 25). -/
def Flash.commitAudited (f : Flash) (seq : Nat) : Bool := f.audit.any (fun r => r.kind = 0x10 && r.detail = seq)

/-- A commit record of RECOVERED = 1, while the area has room for its KIND. -/
def Block.recoverAs (b : Block) (isB : Bool) (c : ConfigSlot) (seq role keyId : Nat) : Block :=
  let a : Actor := { role := role, keyId := keyId, viaPcie := false }
  let old := ((b.flash.commits.find? (fun r => decide (r.seq < seq))).map (fun r => r.slotCrc)).getD (Config.auditOpen 0x10 1)
  let ch : Change := { kind := 0x10, target := b2n isB, old := old, new := c.crc, detail := seq }
  if b.flash.auditAnswer a ch = .record then b.appendAudit a ch true else b

/-- A commit SEQ that the audit area does not hold is recorded at the start that finds it, under the operator or installer layer's KEY_ID
(R442). Records 64,512 and up take no such record. -/
def Block.recoverCommit (b : Block) (isB : Bool) (c : ConfigSlot) (seq : Nat) : Block :=
  if b.flash.commitAudited seq then b
  else match c.operator, c.installer with
    | some l, _ => b.recoverAs isB c seq 1 l.keyId
    | none, some l => b.recoverAs isB c seq 2 l.keyId
    | none, none => b

/-- IMAGE_SELECT (R413 step 2, R426, R428, R433). -/
def execImageSelect (s : State) : Host.Outcome State Fault Refusal :=
  s.act (fun b0 =>
    if b0.sys.startStep ≠ 2 then b0
    else
      let b := (b0.logLayers b0.flash.slotA).logLayers b0.flash.slotB
      match b.chooseSlot with
      | none => b.failStep 0x82 0
      | some (isB, c, seq) =>
        let back := b.fallsBack isB
        let b1 := if back then b.log { event := 0x0060, kind := 10, arg0 := b2n isB } else b
        let b2 := ((b1.setZilsy { b1.zilsy with currentB := isB }).push c).recoverCommit isB c seq
        (b2.setReg (cfgReg 0) (BitVec.ofNat 64 (seq % 2 ^ 32 * 2 ^ 32 + b2n c.installer.isSome * 16 + b2n c.operator.isSome * 4 +
          b2n back * 2 + b2n isB))).enterStep 3)

/-! ## Step 3: Bay (R241-R245) -/

/-- Whether a channel is on the memory repair list. -/
def Block.listed (b : Block) (n : Nat) : Bool := b.flash.repair.any (fun e => e.1 = n)

/-- The number of a Bay channel of a half in the repair list. -/
def bayNumber (h : HalfId) (c : Nat) : Nat := 160 * halfNum h + 128 + c

/-- The margin check (R241): an eye of at least 15% of the unit interval and 40 mV. -/
def marginOk (e : BayEye) : Bool := decide (150 ≤ e.width) && decide (40 ≤ e.height)

/-- A channel's eye in a list of attempts; one not measured is shut. -/
def eyeAt (l : List BayEye) (i : Nat) : BayEye := l.getD i { width := 0, height := 0 }

/-- Whether the module runs at 8,533 MT/s (R241): forced, or in auto mode some channel that fails at 9,600 MT/s passes at 8,533 MT/s
alone. -/
def Block.slowBay (b : Block) (r : BayTraining) : Bool :=
  if b.image.bayRate = 0 then (List.range 64).any (fun i =>
    !(b.listed (bayNumber (halfOf (i / 32)) (i % 32))) && !(marginOk (eyeAt r.fast i)) && marginOk (eyeAt r.alone i))
  else b.image.bayRate = 2

/-- Whether a channel is live after training (R241, R242, R245): not listed, its margin met at the rate the module runs at, and no miscompare
in the test of step 8. A channel that met it at 9,600 MT/s alone fails with the module at 8,533 MT/s (DEDUCED, log entry 59). -/
def Block.bayPasses (b : Block) (r : BayTraining) (slow : Bool) (i : Nat) : Bool :=
  !(b.listed (bayNumber (halfOf (i / 32)) (i % 32))) && marginOk (eyeAt (if slow then r.slow else r.fast) i) &&
    !(r.miscompares.any (fun c => c.val = i))

/-- The smallest eye height measured in the attempts made on a channel (R241, R252). -/
def Block.eyeMv (b : Block) (r : BayTraining) (slow : Bool) (i : Nat) : Nat :=
  let made := if b.image.bayRate = 1 then [r.fast] else if b.image.bayRate ≠ 0 then [r.slow]
    else [r.fast] ++ (if marginOk (eyeAt r.fast i) then [] else [r.alone]) ++ (if slow then [r.slow] else [])
  (made.map (fun l => (eyeAt l i).height)).foldl min 65535

/-- The registers of one Bay channel after training. -/
def Block.trainedBay (b : Block) (r : BayTraining) (slow : Bool) (h : HalfId) (c : Nat) : Block :=
  let i := 32 * halfNum h + c
  let live := b.bayPasses r slow i
  let b1 := (b.setRegFld (chanReg h (128 + c) 0x30) 63 62 (if live then 0 else 2)).setRegFld (chanReg h (128 + c) 0x30) 15 0 (b.eyeMv r slow i)
  if live then b1.modReg (bayReg h 0) (fun w => w ||| BitVec.ofNat 64 (2 ^ (32 + c)))
  else b1.log { event := 0x0023, half := h, kind := 6, index := c, arg0 := 128 + c }

/-- One half's Bay after training. -/
def Block.trainBay (b : Block) (r : BayTraining) (slow : Bool) (h : HalfId) : Block :=
  let b1 := b.setReg (bayReg h 0) (BitVec.ofNat 64 (b2n slow * 2 + 1))
  ((List.range 32).foldl (fun x c => x.trainedBay r slow h c) b1).setUsable h

/-- The channels of a half that training retires. -/
def Block.retired (b : Block) (r : BayTraining) (slow : Bool) (h : HalfId) : List Nat :=
  (List.range 32).filter (fun c => !(b.bayPasses r slow (32 * halfNum h + c)))

/-- The frames of the first 64 MiB of each channel that training leaves live. -/
def Block.testedFrames (b : Block) (r : BayTraining) (slow : Bool) : List Nat :=
  ((List.range 64).filter (fun i => b.bayPasses r slow i)).flatMap (fun i =>
    (List.range 32).map (fun f => 0x8000000000 + i * 0x200000000 + f * 0x200000))

/-- The test of step 8 leaves its pattern in frames (R245, R248). -/
def Block.testFill (b : Block) (l : List Nat) : Block :=
  { b with mem := b.mem.filter (fun c => !(l.contains (c.1 / 0x200000 * 0x200000))), fill := l }

/-- Channels that failed training in a half that cannot start (R252 STATE 3). -/
def Block.markFailed (b : Block) (h : HalfId) (l : List Nat) : Block := l.foldl (fun x ch => x.setRegFld (chanReg h ch 0x30) 63 62 3) b

/-- BAY_TRAINING_DONE (R241-R245): more retired channels on a half than RETIRE_MAX is a failure. -/
def execBayTrainingDone (r : BayTraining) (s : State) : Host.Outcome State Fault Refusal :=
  s.act (fun b =>
    if b.sys.startStep ≠ 3 then b
    else
      let slow := b.slowBay r
      let excess (h : HalfId) : Bool := decide (b.regFld (bayReg h 0x18) 15 8 < (b.retired r slow h).length)
      let mark (h : HalfId) (x : Block) : Block := if excess h then x.markFailed h ((b.retired r slow h).map (fun c => 128 + c)) else x
      if excess .a ∨ excess .b then (mark .b (mark .a b)).failStep 0x83 (b2n (!(excess .a)))
      else (((b.trainBay r slow .a).trainBay r slow .b).testFill (b.testedFrames r slow)).enterStep 4)

/-! ## Step 4: Shelf and the Isthmus (R234, R235, R246, R14) -/

/-- The bond groups of a half that have exactly one failed bond: each switches its spare in (R234). -/
def swapped (l : List (Nat × Nat)) : List (Nat × Nat) := l.filter (fun g => (l.filter (fun x => x = g)).length = 1)

/-- Each spare bond switched in is logged: its channel, and the group it serves (R17, R440). -/
def Block.logSpares (b : Block) (h : HalfId) : List (Nat × Nat) → Block
  | [] => b
  | g :: gs => (b.log { event := 0x0023, half := h, kind := 5, index := g.1, arg0 := g.1, arg1 := g.2 }).logSpares h gs

/-- Whether a channel fails: a group of it has two failed bonds, or it is listed (R234, R238). -/
def Block.shelfFails (b : Block) (h : HalfId) (l : List (Nat × Nat)) (ch : Nat) : Bool :=
  l.any (fun g => g.1 = ch && decide (2 ≤ (l.filter (fun x => x = g)).length)) || (decide (ch < 128) && b.listed (160 * halfNum h + ch))

/-- The failed logical channels of a layer. -/
def Block.layerFailed (b : Block) (h : HalfId) (l : List (Nat × Nat)) (layer : Nat) : List Nat :=
  ((List.range 32).map (fun i => 32 * layer + i)).filter (fun ch => b.shelfFails h l ch)

/-- Whether a half's Shelf cannot start (R235). -/
def Block.shelfDead (b : Block) (h : HalfId) (l : List (Nat × Nat)) : Bool :=
  (List.range 4).any (fun y => decide (2 ≤ (b.layerFailed h l y).length) || ((b.layerFailed h l y).length = 1 && b.shelfFails h l (128 + y)))

/-- A layer's spare takes over its failed channel (R235). -/
def Block.useSpare (b : Block) (h : HalfId) (l : List (Nat × Nat)) (layer : Nat) : Block :=
  match b.layerFailed h l layer with
  | [] => b
  | ch :: _ =>
    (((b.modReg (shelfReg h 0) (fun w => w ||| BitVec.ofNat 64 (2 ^ (52 + layer)))).setRegFld (shelfReg h 0) (36 + 5 * layer) (32 + 5 * layer)
      (ch % 32)).setRegFld (chanReg h ch 0x30) 63 62 2).log { event := 0x0023, half := h, kind := 5, index := ch, arg0 := ch, arg1 := ch % 32 }

/-- The bytes of a half's Shelf become zero (R237, R246 step 5). -/
def Block.clearShelf (b : Block) (h : HalfId) : Block :=
  let base := 0x200000000 + halfNum h * 0x200000000
  { b with mem := b.mem.filter (fun c => !(decide (base ≤ c.1) && decide (c.1 < base + 0x200000000))),
           bad := b.bad.filter (fun c => !(decide (base ≤ c.1) && decide (c.1 < base + 0x200000000))) }

/-- The highest Tj of a half's 64 sensors, in 1/16 °C (R236, R455). -/
def Block.hottest (b : Block) (h : HalfId) : Int :=
  ((List.range 64).map (fun i => sext 16 (b.regFld (zilReg (0x200 + 0x200 * halfNum h + 8 * i)) 15 0))).foldl max (-32768)

/-- The lower bounds of refresh bands 1 to 3, in 1/16 °C (R236). -/
def bandBounds : List Int := [1040, 1360, 1600]

/-- The refresh band of a temperature: 0 for the longest window (R236). -/
def bandOf (t : Int) : Nat := (bandBounds.filter (fun x => decide (x ≤ t))).length

/-- One half's Shelf after training (R246). -/
def Block.trainShelf (b : Block) (h : HalfId) (l : List (Nat × Nat)) (eyes : List Nat) : Block :=
  let b1 := ((((b.setRegFld (shelfReg h 0) 31 16 (swapped l).length).setRegFld (shelfReg h 0) 1 1 1).setRegFld (shelfReg h 0) 3 2
    (bandOf (b.hottest h))).clearShelf h).logSpares h (swapped l)
  let b2 := (List.range 4).foldl (fun x y => x.useSpare h l y) b1
  (List.range 128).foldl (fun x ch => x.setRegFld (chanReg h ch 0x30) 15 0 (eyes.getD ch 0)) b2

/-- Step 4 ends when Shelf and the Isthmus have both trained. -/
def Block.joinStep4 (b : Block) : Block :=
  if b.sys.startStep = 4 ∧ b.regFld (shelfReg .a 0) 1 1 = 1 ∧ b.regFld (shelfReg .b 0) 1 1 = 1 ∧ (b.port .a 9).st = 2 then b.enterStep 5 else b

/-- One half's outcome of Shelf training: trained, or FAILED with its failed channels marked (R235, R250, R252). -/
def Block.endShelf (b : Block) (h : HalfId) (l : List (Nat × Nat)) (eyes : List Nat) : Block :=
  if b.shelfDead h l then
    (b.setRegFld (shelfReg h 0) 0 0 1).markFailed h ((List.range 4).flatMap (fun y => b.layerFailed h l y))
  else b.trainShelf h l eyes

/-- SHELF_TRAINING_DONE (R234, R235, R237, R246): both halves train at once, and either one's failure ends the start. -/
def execShelfTrainingDone (r : ShelfTraining) (s : State) : Host.Outcome State Fault Refusal :=
  s.act (fun b =>
    if b.sys.startStep ≠ 4 then b
    else
      let b1 := (b.endShelf .a r.faultsA r.eyesA).endShelf .b r.faultsB r.eyesB
      if b.shelfDead .a r.faultsA ∨ b.shelfDead .b r.faultsB then b1.failStep 0x84 (b2n (!(b.shelfDead .a r.faultsA)))
      else b1.joinStep4)

/-- The credits of every class (R314, R315). -/
def Block.linkCredits (b : Block) (h : HalfId) : List Nat := (List.range 6).map (fun c => b.regFld (efReg h (0x40 + 8 * c)) 13 0)

/-- A group of wires with two or more failed wires cannot be repaired (R14). -/
def wiresDead (l : List WireFault) : Bool := l.any (fun x => l.any (fun y => x.dir = y.dir && x.group = y.group && x.wire ≠ y.wire))

/-- ISTHMUS_TRAINING_DONE (R14). -/
def execIsthmusTrainingDone (faults : List WireFault) (s : State) : Host.Outcome State Fault Refusal :=
  s.act (fun b =>
    if b.sys.startStep ≠ 4 then b
    else if wiresDead faults then b.failStep 0x85 0
    else
      let up (h : HalfId) (x : Block) : Block := x.modPort h 9 (fun _ => { Port.reset with
        st := 2, attempted := true, credits := x.linkCredits h, nbrEndpoint := x.endpoint (otherHalf h) })
      (up .b (up .a b)).joinStep4)

/-! ## Steps 5 and 6 (R413, R430, R217) -/

/-- A function that starts Disabled, which is logged (R17, R440): its key in its half's table, and KIND and INDEX of R54. -/
def Block.startDisabled (b : Block) (h : HalfId) (key kind index : Nat) (failed : Bool) : Block :=
  let b1 := b.modHalf h (fun x => { x with funcs := tabPut x.funcs key { st := 2, deadline := 0, aborted := 0, failed := failed } })
  if (tabFind (b.half h).funcs key).isSome then b1
  else b1.log { event := 0x0002, half := h, kind := kind + 1, index := index, arg0 := index * 16 + kind }

/-- The functions that the image's DISABLED names (R428): 80 core bits, 2 × 27 Harbour bits, 18 port bits. -/
def Block.applyDisabled (b : Block) : Block :=
  let d := b.image.disabled
  let b1 := (List.range 80).foldl (fun x n => if bit d n then x.startDisabled (halfOf (n / 40)) (n % 40) 0 n false else x) b
  let b2 := (List.range 54).foldl (fun x p => if bit d (80 + p) then x.startDisabled (halfOf (p / 27)) (64 + p % 27) 1 (32 * (p / 27) + p % 27) false else x) b1
  (List.range 18).foldl (fun x p =>
    if bit d (134 + p) then
      ((x.startDisabled (halfOf (p / 9)) (128 + p % 9) 2 p false).modPort (halfOf (p / 9)) (p % 9) (fun y => { y with st := 5, cause := 5 })).log
        { event := 0x0040, half := halfOf (p / 9), kind := 3, index := p, arg0 := p, arg1 := 5 }
    else x) b2

/-- Cores that failed the self-test are Disabled (R413, R54). -/
def Block.failCores (b : Block) : List (Fin 80) → Block
  | [] => b
  | n :: ns =>
    let h := halfOf (n.val / 40)
    ((b.startDisabled h (n.val % 40) 0 n.val true).modReg (safReg h 0x308) (fun w => w ||| BitVec.ofNat 64 (2 ^ (n.val % 40)))).failCores ns

/-- A record merged from `n` like events (R439). -/
def Block.logTimes (b : Block) (e : Event) (n : Nat) : Block :=
  if n = 0 then b
  else
    let b1 := b.log e
    b1.setZilsy { b1.zilsy with merging := b1.zilsy.merging.map (fun p =>
        if merges b1.sys.upNs (b1.eventRecord e) p then (p.1, { p.2 with count := min (p.2.count + (n - 1)) 32767 }) else p) }

/-- A half's route table is loaded, the destinations without a route are logged (R430), and GATE_LEADER takes the table's REPEAT_LIMIT
(R398). -/
def Block.loadRoutes (b : Block) (h : HalfId) : Block :=
  let l := b.routes h
  ((l.foldl (fun x p => x.setReg (efReg h (0x8000 + p.1)) (BitVec.ofNat 64 p.2)) b).setRegFld (gateReg h 0x10) 46 43 b.repeatLimit).logTimes { event := Config.routeEvent, half := h, kind := 10 } (16384 - l.length)

/-- SELF_TEST_DONE (R413 step 5). -/
def execSelfTestDone (failing : List (Fin 80)) (s : State) : Host.Outcome State Fault Refusal :=
  s.act (fun b =>
    if b.sys.startStep ≠ 5 then b
    else ((((b.applyDisabled).failCores failing).loadRoutes .a).loadRoutes .b).enterStep 6)

/-- A half's connected ports begin to train (R308, R332 stage 2), each with its class. -/
def Block.trainPorts (b : Block) (h : HalfId) : Block :=
  (List.range 9).foldl (fun x i =>
    let c := entryClass (x.entry x.moduleNo (modulePort h i))
    x.modPort h i (fun y => { y with linkClass := c, st := if c ≠ 0 ∧ y.st = 0 then 1 else y.st })) b

/-- The lending window that LEND_EN asks for (R217). -/
def Block.lendAtStart (b : Block) (h : HalfId) : Block := if b.regFld (tierReg h 0x40) 8 8 = 1 then b.reserveWindow h else b

/-- READY (R413 step 6, R332). -/
def execReady (s : State) : Host.Outcome State Fault Refusal :=
  s.act (fun b =>
    if b.sys.startStep ≠ 6 then b
    else
      let b1 := (((b.lendAtStart .a).lendAtStart .b).trainPorts .a).trainPorts .b
      ((b1.setSys { b1.sys with startStep := 7, ready := true, readyAt := b1.sys.upNs }).moduleEvent 1).idleCheck)

end Sys2Proof.Machine
end

