-- ==== Sys2Proof/Machine/Zilsy.lean ====
section
/-! DEFINITION. Zilsy's commands and its own events (spec/17_zilsy_management_and_roles.md R435-R451; spec/16_configuration_image.md R427,
R431, R432; spec/19_module_connectors_and_ratings.md R486). -/

namespace Sys2Proof.Machine

/-! ## Nonces (R446) -/

/-- NONCE (R446): a nonce is issued to anyone; a sixty-fifth discards the oldest. -/
def execNonce (c : Channel) (value : Nat) (s : State) : Host.Outcome State Fault Refusal :=
  s.act (fun b =>
    if ¬ b.hears c then b
    else
      let kept := if b.zilsy.nonces.length < 64 then b.zilsy.nonces else b.zilsy.nonces.drop (b.zilsy.nonces.length - 63)
      (b.setZilsy { b.zilsy with nonces := kept ++ [(value, b.sys.upNs)] }).reply c stOk 0 (leBytes 16 value))

/-- NONCE_EXPIRY (R446): a nonce older than 10 s serves nothing. -/
def execNonceExpiry (value : Nat) (s : State) : Host.Outcome State Fault Refusal :=
  s.act (fun b => b.setZilsy { b.zilsy with
    nonces := b.zilsy.nonces.filter (fun p => p.1 ≠ value || decide (b.sys.upNs ≤ p.2 + 10000000000)) })

/-! ## Reading the log and the audit area (R439, R447) -/

/-- READ_LOG (R439): from SEQ, or from the oldest record held. -/
def execReadLog (m : Envelope) (seq : Nat) (count : Fin 256) (s : State) : Host.Outcome State Fault Refusal :=
  s.act (fun b0 => b0.command m [1, 2, 3] 1 (fun _ b =>
    { block := b, status := stOk,
      data := (((b.flash.log.filter (fun r => decide (seq ≤ r.seq))).take count.val).map LogRecord.bytes).flatten }))

/-- READ_AUDIT (R447). -/
def execReadAudit (m : Envelope) (seq : Nat) (count : Fin 256) (s : State) : Host.Outcome State Fault Refusal :=
  s.act (fun b0 => b0.command m [1, 2, 3] 1 (fun _ b =>
    { block := b, status := stOk,
      data := (((b.flash.audit.filter (fun r => decide (seq ≤ r.seq))).take count.val).map AuditRecord.bytes).flatten }))

/-! ## The power cap (R458) -/

/-- The cap written (R441, R458): a cap outside 400 W to POWER_LIMIT_W is refused. -/
def Block.writeCap (b : Block) (a : Actor) (v : Nat) : Answer :=
  if v < 400 ∨ b.image.powerLimitW < v then b.refuse (pwrReg 0) v
  else b.auditedAnswer a { kind := 0x03, target := pwrReg 0, old := b.regFld (pwrReg 0) 10 0, new := v } (fun b => b.setRegFld (pwrReg 0) 10 0 v)

/-- POWER_CAP (R441, R447, R458): a write of PWR_CAP drops the bits above CAP_W; the command's value has none. -/
def execPowerCap (p : Path) (value : Word) (s : State) : Host.Outcome State Fault Refusal :=
  s.act (fun b0 => b0.byPath p [1, 2] 1 (fun a b => b.writeCap a (match p with
    | .host => value.toNat % 2048
    | .zilsy _ => value.toNat)))

/-! ## Module reset (R447, R463) -/

/-- Every record that waits for merging is written (R439). -/
def Block.flushMerging (b : Block) : Block :=
  b.zilsy.merging.foldl (fun x p => x.setFlash (x.flash.appendLog p.2)) (b.setZilsy { b.zilsy with merging := [] })

/-- The registers that hold a peak since power good (R455). -/
def peakRegs : List Nat := (List.range 128).map (fun i => zilReg (0x200 + 8 * i)) ++ [zilReg 0x38]

/-- PEAK fields copied from another block, register after register. -/
def Block.copyPeaks (b old : Block) : List Nat → Block
  | [] => b
  | a :: l => (b.setRegFld a 31 16 (old.regFld a 31 16)).copyPeaks old l

/-- Telemetry that counts since power good outlives a module reset: the peaks of the sensors and the metered energy (R455, R473). -/
def Block.keepPeaks (old b : Block) : Block :=
  let b1 := b.copyPeaks old peakRegs
  b1.setPower { b1.power with meter := old.power.meter, seenTj := old.power.seenTj, seenCoolant := old.power.seenCoolant }

/-- The module restarts from step 1 (R413, R447). After a trip the regulators turn on again, and the start follows power good (R463). -/
def Block.restart (b0 : Block) : Block :=
  let b := b0.flushMerging.tornWrites
  if b.sys.powerGood then
    let c := b.startUp (b.reg (zilReg 0x40)).toNat b.sys.upNs
    b.keepPeaks (c.setZilsy { c.zilsy with resets := b.zilsy.resets })
  else b.setSys { b.sys with standby := false }

/-- Whether a trip happened within the last 60 s (R463). -/
def Block.recentTrip (b : Block) : Bool := b.power.tripAt.any (fun t => decide (b.sys.upNs < t + 60000000000))

/-- RESET_MODULE (R447, R463): refused within 60 s of a trip, and while a job slot is not Disabled unless an installer forces it. It is
answered before the restart. -/
def execResetModule (m : Envelope) (force : Bool) (s : State) : Host.Outcome State Fault Refusal :=
  s.act (fun b0 =>
    if ¬ b0.hears m.channel then b0
    else
      let go (a : Actor) (b : Block) : Bool := !b.recentTrip && (b.allDisabled || (force && a.role = 2)) &&
        b.flash.auditAnswer a { kind := 0x05, detail := b2n force } != .refuse
      let b1 := b0.command m [1, 2] 1 (fun a b =>
        if b.recentTrip ∨ ¬ (b.allDisabled ∨ (force ∧ a.role = 2)) then b.refuse 0x0013 (b2n force)
        else b.auditedAnswer a { kind := 0x05, detail := b2n force } (fun b => b))
      match b0.verify m with
      | none => b1
      | some a => if (a.role = 1 ∨ a.role = 2) ∧ go a (b0.useNonce m.nonce) then b1.restart else b1)

/-! ## Configuration writes (R427, R431, R432) -/

/-- The highest commit SEQ. -/
def Flash.commitSeq (f : Flash) : Nat := (f.commits.head?.map (fun r => r.seq)).getD 0

/-- WRITE_BUSY of CFG_STAT. -/
def Block.writeBusy (b : Block) (x : Bool) : Block := b.setRegFld (cfgReg 0) 3 3 (b2n x)

/-- Whether an installer-layer staging is open: a COMMIT waits for its APPLY (R432, R454). -/
def Block.installerStaging (b : Block) : Bool := b.zilsy.staging.any (fun x => x.object = 1)

/-- The current value of an O field (R431). A field that sets a register on both halves is read from half A (DESIGN CHOICE, log entry
27). -/
def Block.overrideNow (b : Block) (id : Nat) : Nat :=
  match id with
  | 0x0301 => b.regFld (safReg .a 8) 29 0
  | 0x0302 => b.regFld (safReg .a 0x10) 29 0
  | 0x0303 => b.regFld (tierReg .a 0x10) 26 0
  | 0x0304 => b.regFld (tierReg .a 0x18) 12 0
  | 0x0305 => b.regFld (tierReg .a 0x38) 15 0
  | 0x0306 => b.regFld (shelfReg .a 8) 31 0
  | 0x0307 => b.image.slackIdleMs
  | 0x0308 => b.regFld (tideReg .a 0x18) 29 0
  | _ => (b.reg (gateReg .a 0)).toNat

/-- Whether a function is Disabled or Draining, by half and key. -/
def Block.notEnabled (b : Block) (h : HalfId) (key : Nat) : Bool := ((tabFind (b.half h).funcs key).map (fun f => f.st != 0)).getD false

/-- DISABLED as it stands (R428, R431). -/
def Block.disabledNow (b : Block) : Nat :=
  ((List.range 80).map (fun n => b2n (b.notEnabled (halfOf (n / 40)) (n % 40)) * 2 ^ n) ++
   (List.range 54).map (fun p => b2n (b.notEnabled (halfOf (p / 27)) (64 + p % 27)) * 2 ^ (80 + p)) ++
   (List.range 18).map (fun p => b2n (b.notEnabled (halfOf (p / 9)) (128 + p % 9)) * 2 ^ (134 + p))).sum

/-- The value of an O field in the installer layer of the current slot (R427, R431). -/
def Block.installerNow (b : Block) (id : Nat) : Nat :=
  ((b.flash.slot b.zilsy.currentB).map (fun c => c.installerNumber id)).getD (tabGet 0 b.image.installerValues id)

/-- The operator layer that a COMMIT writes (R431): the O fields whose register differs from the installer layer that the write copies, and
DISABLED as it stood at the command. -/
def Block.operatorLayer (b : Block) (keyId disabled : Nat) : Layer :=
  let excess := (overrideIds.filter (fun id => b.overrideNow id ≠ b.installerNow id)).map (fun id =>
    (id, leBytes ((fieldLength id).getD 4) (b.overrideNow id)))
  let cap := b.regFld (pwrReg 0) 10 0
  let power := if cap ≠ b.image.powerLimitW then [(0x0401, leBytes 4 cap)] else []
  let dis := if disabled ≠ 0 then [(0x0402, leBytes 19 disabled)] else []
  { keyId := keyId, reserved := List.replicate 48 0, records := excess ++ power ++ dis, signature := [], verifies := true }

/-- A write starts: S′ is erased (R427 step 1). A COMMIT takes the registers as they stand now, beside the slot that is current now (R431,
R432). -/
def Block.startWrite (b : Block) (w : ConfigWrite) : Block :=
  let l := if w.which = 3 then b.operatorLayer w.keyId w.disabled else w.layer
  ((b.setFlash (b.flash.setSlot (!b.zilsy.currentB) none)).setZilsy
    { b.zilsy with configWrite := some { w with layer := l, started := b.sys.upNs } }).writeBusy true

/-- The next queued write starts, once none runs and no installer staging is open. -/
def Block.nextWrite (b : Block) : Block :=
  if b.zilsy.configWrite.isSome ∨ b.installerStaging then b
  else match b.zilsy.configQueue with
    | [] => b
    | w :: ws => (b.setZilsy { b.zilsy with configQueue := ws }).startWrite w

/-- The slot that a write makes: the changed layer new, the others copied from N (R427 step 2). -/
def Block.writeTarget (b : Block) (w : ConfigWrite) : ConfigSlot :=
  let n := b.flash.slot b.zilsy.currentB
  let gen := b.flash.commitSeq + 1
  let f := if w.which = 1 then some w.layer else n.bind (fun c => c.factory)
  let i := if w.which = 2 then some w.layer else n.bind (fun c => c.installer)
  let o := if w.which = 3 then some w.layer else n.bind (fun c => c.operator)
  let body (l : Option Layer) : List Byte := (l.map (fun x => (x.records.map (fun r => leBytes 2 r.1 ++ r.2)).flatten ++ x.signature)).getD []
  { gen := gen, crc := Config.slotCrc gen (body f ++ body i ++ body o), headerOk := true, factory := f, installer := i, operator := o }

/-- A configuration write is abandoned (R427, R440): slot and step are logged, and S′ holds nothing that verifies. -/
def Block.abandonWrite (b : Block) (step : Nat) : Block :=
  (((b.setFlash (b.flash.setSlot (!b.zilsy.currentB) none)).setZilsy { b.zilsy with configWrite := none }).writeBusy false).log
    { event := 0x0060, kind := 10, arg0 := b2n (!b.zilsy.currentB), arg1 := step }

/-- CFG_STAT shows a slot as the one in use (R427 step 6, R433); FALLBACK stays what it was at start (DEDUCED, log entry 27). -/
def Block.showSlot (b : Block) (isB : Bool) (c : ConfigSlot) (seq : Nat) : Block :=
  b.setReg (cfgReg 0) (BitVec.ofNat 64 (seq % 2 ^ 32 * 2 ^ 32 + b2n c.installer.isSome * 16 + b2n c.operator.isSome * 4 +
    b.regFld (cfgReg 0) 1 1 * 2 + b2n isB))

/-- Steps 4 to 6 of R427: the record SEQ + 1 goes to the sector without the highest SEQ, the audit record is written, CFG_STAT shows S′, and
S′ becomes N. An audit area that filled up since the change was accepted refuses it before the record is written (R442). -/
def Block.commitWrite (b : Block) (w : ConfigWrite) (c : ConfigSlot) : Block :=
  let isB := !b.zilsy.currentB
  let r : CommitRecord := { seq := b.flash.commitSeq + 1, slotB := isB, slotCrc := c.crc, tide := if b.locked .a then b.tide .a else 0 }
  let newest0 : Bool := match b.flash.commit0, b.flash.commit1 with
    | some x, some y => decide (y.seq < x.seq)
    | some _, none => true
    | none, _ => false
  let old := ((b.flash.slot b.zilsy.currentB).map (fun x => x.crc)).getD 0
  let f := if newest0 then { b.flash with commit1 := some r } else { b.flash with commit0 := some r }
  let b1 : Block := b.setFlash (f.setSlot isB (some c))
  let a : Actor := { role := w.role, keyId := if w.viaPcie then 0 else w.keyId, viaPcie := w.viaPcie }
  let ch : Change := { kind := 0x10, target := b2n isB, old := old, new := c.crc, detail := r.seq }
  if b.flash.auditAnswer a ch = .record then
    (let b2 := b1.appendAudit a ch
     (b2.setZilsy { b2.zilsy with configWrite := none, currentB := isB }).showSlot isB c r.seq)
  else (b.abandonWrite 4).logPermission 0 w.keyId

/-- CONFIG_WRITE_DONE (R427): the written slot reads back and verifies under R425, or it does not. -/
def execConfigWriteDone (verified : Bool) (s : State) : Host.Outcome State Fault Refusal :=
  s.act (fun b => match b.zilsy.configWrite with
    | none => b
    | some w =>
      let c := b.writeTarget w
      (if verified && b.slotVerifies c then b.commitWrite w c else b.abandonWrite 3).nextWrite)

/-- COMMIT (R431, R432): a new operator layer is written by R427, after the write that runs and after an open installer staging. With the
audit area full it is refused (R442). -/
def execCommit (m : Envelope) (s : State) : Host.Outcome State Fault Refusal :=
  s.act (fun b0 => b0.command m [1, 2] 1 (fun a b =>
    if b.flash.auditAnswer a { kind := 0x10 } = .refuse then { block := b.logPermission 0 a.keyId, status := stPermission }
    else
      let dis := b.disabledNow
      let w : ConfigWrite := { which := 3, layer := b.operatorLayer a.keyId dis, disabled := dis, keyId := a.keyId, role := a.role,
                               viaPcie := a.viaPcie, started := 0 }
      (b.setZilsy { b.zilsy with configQueue := b.zilsy.configQueue ++ [w] }).nextWrite.accept))

/-! ## Staging (R448, R450, R454) -/

/-- The roles that may stage an object. -/
def stagingRoles : Nat → List Nat
  | 1 => [2]
  | 2 => [3]
  | 3 => [2, 3]
  | _ => [1, 2, 3]

/-- The largest object: a layer's bound (R423), or a firmware slot's bytes. -/
def stagingMax : Nat → Nat
  | 1 => 0x200000
  | 2 => 0x40000
  | 3 => 0x400000
  | _ => 0

/-- The firmware slot not running. -/
def Block.otherFirmware (b : Block) : Option FirmwareSlot := if b.zilsy.fwSlotB then b.flash.firmwareA else b.flash.firmwareB

/-- The firmware slot not running, replaced. -/
def Block.setOtherFirmware (b : Block) (x : Option FirmwareSlot) : Block :=
  b.setFlash (if b.zilsy.fwSlotB then { b.flash with firmwareA := x } else { b.flash with firmwareB := x })

/-- The running firmware. -/
def Block.runningFirmware (b : Block) : Option FirmwareSlot := if b.zilsy.fwSlotB then b.flash.firmwareB else b.flash.firmwareA

/-- An open staging ends; a COMMIT that waited for it may run. -/
def Block.closeStaging (b : Block) : Block := (b.setZilsy { b.zilsy with staging := none }).nextWrite

/-- STAGE_BEGIN (R448): a second one is refused with the holder's KEY_ID. A firmware staging erases the slot not running. -/
def execStageBegin (m : Envelope) (object length : Nat) (s : State) : Host.Outcome State Fault Refusal :=
  s.act (fun b0 => b0.command m (stagingRoles object) (if object = 1 then 2 else if object = 2 then 3 else 2) (fun a b =>
    match b.zilsy.staging with
    | some x => b.refuse 0x0020 object x.keyId
    | none =>
      if stagingMax object < length ∨ stagingMax object = 0 then b.refuse 0x0020 object
      else
        let st : Staging := { object := object, keyId := a.keyId, channel := m.channel, length := length, data := [], lastActive := b.sys.upNs,
                              oldSvn := if object = 3 then b.otherFirmware.map (fun x => x.svn) else none }
        let b1 := if object = 3 then b.setOtherFirmware none else b
        (b1.setZilsy { b1.zilsy with staging := some st }).accept))

/-- STAGE_DATA (R448): at most 16,320 bytes, unsigned, from the channel that began. -/
def execStageData (c : Channel) (offset : Nat) (data : List Byte) (s : State) : Host.Outcome State Fault Refusal :=
  s.act (fun b =>
    if ¬ b.hears c then b
    else match b.zilsy.staging with
      | none => (b.refuse 0x0021 offset).sent c
      | some x =>
        if x.channel ≠ c ∨ 16320 < data.length ∨ x.length < offset + data.length then (b.refuse 0x0021 offset).sent c
        else (b.setZilsy { b.zilsy with staging := some { x with data := hostPutList x.data offset data, lastActive := b.sys.upNs } }).reply c
          stOk 0 [])

/-- The staged bytes; a byte that no chunk brought reads 0. -/
def Staging.bytes (x : Staging) : List Byte := (List.range x.length).map (fun i => tabGet 0 x.data i)

/-- The records of a layer's bytes (R424): ID, length and value, padded to a multiple of 8. The 16-bit length cannot hold TOPOLOGY's; the
model takes 663,552 (log entry 22). -/
def parseRecords : Nat → List Byte → List (Nat × List Byte)
  | 0, _ => []
  | fuel + 1, l =>
    if l.length < 4 then []
    else
      let id := u16At l 0
      let n := if id = 0x0202 then 663552 else u16At l 2
      (id, (l.drop 4).take n) :: parseRecords fuel (l.drop (cdiv (4 + n) 8 * 8))

/-- A staged layer, when its header names the layer it is staged as. -/
def parseLayer (which : Nat) (l : List Byte) (ok : Bool) : Option Layer :=
  let n := u32At l 4
  if (l.getD 0 0).toNat ≠ which ∨ l.length ≠ 64 + n + 3373 then none
  else some { keyId := leNat ((l.drop 8).take 8), reserved := (l.drop 16).take 48, records := parseRecords n ((l.drop 64).take n), signature := l.drop (64 + n), verifies := ok }

/-- A staged layer whose signature fails R425, or does not (R448). -/
def Block.applyLayer (b : Block) (a : Actor) (x : Staging) (which : Nat) (ok : Bool) : Answer :=
  match parseLayer which x.bytes ok with
  | none => (b.closeStaging).refuse 0x0022 x.object
  | some l =>
    if ¬ b.layerSigned (which, l) then
      { block := (b.closeStaging).log { event := 0x0051, kind := 10, status := stSignature, arg0 := x.object, arg1 := l.keyId },
        status := stSignature }
    else if b.flash.auditAnswer a { kind := 0x10 } = .refuse then
      { block := (b.closeStaging).logPermission 0 a.keyId, status := stPermission }
    else
      let w : ConfigWrite := { which := which, layer := l, disabled := 0, keyId := a.keyId, role := a.role, viaPcie := a.viaPcie, started := 0 }
      (b.setZilsy { b.zilsy with configQueue := w :: b.zilsy.configQueue }).closeStaging.accept

/-- The firmware slot that a staging makes. -/
def Block.newFirmware (b : Block) (x : Staging) (o : StagedObject) : FirmwareSlot :=
  { gen := (b.runningFirmware.map (fun (y : FirmwareSlot) => y.gen)).getD 0 + 1, signed := true, svn := o.svn, raiseFloor := o.raiseFloor,
    image := x.bytes }

/-- Staged firmware (R448, R450): both signatures, then SVN against the floor, then the slot record with GEN one above the running one. -/
def Block.applyFirmware (b : Block) (a : Actor) (x : Staging) (o : StagedObject) : Answer :=
  let b1 := b.setZilsy { b.zilsy with staging := none }
  if ¬ (o.ed25519Ok ∧ o.mlDsaOk) then
    { block := (b1.log { event := 0x0051, kind := 9, status := stSignature, arg0 := 3, arg1 := makerKey }).nextWrite, status := stSignature }
  else if o.svn < b.flash.floor then b1.nextWrite.refuse 0x0022 o.svn
  else b1.nextWrite.auditedAnswer a
    { kind := 0x20, target := b2n (!b.zilsy.fwSlotB), old := x.oldSvn.getD (Config.auditOpen 0x20 1), new := o.svn, detail := Config.auditOpen 0x20 3 }
    (fun b => b.setOtherFirmware (some (b.newFirmware x o)))

/-- STAGE_APPLY (R448). -/
def execStageApply (m : Envelope) (o : StagedObject) (s : State) : Host.Outcome State Fault Refusal :=
  s.act (fun b0 =>
    let object := (b0.zilsy.staging.map (fun x => x.object)).getD 0
    b0.command m (stagingRoles object) (if object = 2 then 3 else 2) (fun a b => match b.zilsy.staging with
      | none => b.refuse 0x0022 0
      | some x =>
        if x.object = 3 then b.applyFirmware a x o
        else b.applyLayer a x (if x.object = 1 then 2 else 1) (o.ed25519Ok && o.mlDsaOk)))

/-- STAGING_IDLE (R448): 60 s without a command of the staging. -/
def execStagingIdle (s : State) : Host.Outcome State Fault Refusal :=
  s.act (fun b => if b.zilsy.up ∧ b.zilsy.staging.any (fun x => decide (x.lastActive + 60000000000 ≤ b.sys.upNs)) then b.closeStaging else b)

/-! ## Keys (R444, R454) -/

/-- The active keys of a role. -/
def Block.activeKeys (b : Block) (role : Nat) : Nat := (b.flash.keys.filter (fun k => k.active && k.role = role)).length

/-- The KEY_ID of a pair of public keys (R444). -/
def keyIdOf (ed ml : List Byte) : Nat := leNat ((sha384 (ed ++ ml)).take 8)

/-- KEY_ENROL (R443, R444). -/
def execKeyEnrol (m : Envelope) (k : KeyBody) (s : State) : Host.Outcome State Fault Refusal :=
  s.act (fun b0 => b0.command m (if k.role = 1 then [2] else [2, 3]) 2 (fun a b =>
    if (k.role ≠ 1 ∧ k.role ≠ 2) ∨ (if k.role = 1 then 256 else 16) ≤ b.activeKeys k.role ∨ 512 ≤ b.flash.keys.length then b.refuse 0x0023 k.role
    else
      let id := keyIdOf k.ed25519 k.mlDsa
      b.auditedAnswer a { kind := 0x11, target := id, old := Config.auditOpen 0x11 1, new := Config.auditOpen 0x11 2, detail := Config.auditOpen 0x11 3 }
        (fun b => b.setFlash { b.flash with
          keys := b.flash.keys ++ [{ keyId := id, role := k.role, active := true, ed25519 := k.ed25519, mlDsa := k.mlDsa }] })))

/-- A revoked key's staging is abandoned (R448, R454). -/
def Block.revokeKey (b : Block) (keyId : Nat) : Block :=
  let b1 := b.setFlash { b.flash with keys := b.flash.keys.map (fun (k : KeyEntry) => if k.keyId = keyId then { k with active := false } else k) }
  if b1.zilsy.staging.any (fun (x : Staging) => x.keyId = keyId) then b1.closeStaging else b1

/-- KEY_REVOKE (R443, R444): the last active installer key stays. -/
def execKeyRevoke (m : Envelope) (keyId : Nat) (s : State) : Host.Outcome State Fault Refusal :=
  s.act (fun b0 =>
    let role := ((b0.flash.keys.find? (fun k => k.keyId = keyId && k.active)).map (fun k => k.role)).getD 0
    b0.command m (if role = 1 then [2] else [2, 3]) 2 (fun a b =>
      if role = 0 ∨ (role = 2 ∧ b.activeKeys 2 ≤ 1) then b.refuse 0x0024 keyId
      else b.auditedAnswer a
        { kind := 0x12, target := keyId, old := Config.auditOpen 0x12 1, new := Config.auditOpen 0x12 2, detail := Config.auditOpen 0x12 3 }
        (fun b => b.revokeKey keyId)))

/-! ## The maker's commands (R443, R447, R486) -/

/-- REPAIR_CLEAR (R238, R243, R447): channels leave the memory repair list. -/
def execRepairClear (m : Envelope) (channels : List (Fin 320)) (s : State) : Host.Outcome State Fault Refusal :=
  s.act (fun b0 => b0.command m [3] 3 (fun a b => b.auditedAnswer a
    { kind := 0x22, target := Config.auditOpen 0x22 0, old := Config.auditOpen 0x22 1, new := Config.auditOpen 0x22 2, detail := Config.auditOpen 0x22 3 }
    (fun b => b.setFlash { b.flash with repair := b.flash.repair.filter (fun e => !(channels.any (fun c => c.val = e.1))) })))

/-- DIAG (R110, R447, R486): with DIAG_ACCESS set, it opens the JTAG port. -/
def execDiag (m : Envelope) (mode : Nat) (s : State) : Host.Outcome State Fault Refusal :=
  s.act (fun b0 => b0.command m [3] 3 (fun a b =>
    if ¬ b.image.diagAccess then b.refuse 0x0031 mode
    else b.auditedAnswer a
      { kind := 0x23, target := Config.auditOpen 0x23 0, old := Config.auditOpen 0x23 1, new := Config.auditOpen 0x23 2, detail := Config.auditOpen 0x23 3 }
      (fun b => b.setZilsy { b.zilsy with jtag := true })))

/-! ## Zilsy's own events -/

/-- ZILSY_RESTART (R435, R450): Zilsy answers again, writes what the halves queued, and logs ZILSY_RESET. -/
def execZilsyRestart (s : State) : Host.Outcome State Fault Refusal :=
  s.act (fun b =>
    if b.zilsy.up ∨ b.zilsy.resets = 0 ∨ b.sys.startStep = 1 then b
    else match b.flash.bootSlot with
      | none => b.setPhase 0x81 0
      | some (isB, x) =>
        let b1 := b.bootZilsy isB x
        b1.log { event := 0x0070, kind := 9, arg0 := b1.zilsy.resets, arg1 := b1.zilsy.lost })

/-- LOG_MERGE_FLUSH (R439): a pending record is written when its second ends. -/
def execLogMergeFlush (s : State) : Host.Outcome State Fault Refusal :=
  s.act (fun b =>
    if ¬ b.zilsy.up then b
    else
      let due := b.zilsy.merging.filter (fun p => decide (p.1 + 1000000000 ≤ b.sys.upNs))
      due.foldl (fun x p => x.setFlash (x.flash.appendLog p.2))
        (b.setZilsy { b.zilsy with merging := b.zilsy.merging.filter (fun p => decide (b.sys.upNs < p.1 + 1000000000)) }))

end Sys2Proof.Machine
end

