-- ==== Sys2Proof/Machine/Census.lean ====
section
/-! DEFINITION. Ready reports and the census (spec/12_efing_and_tide.md R334-R336). The layout of the management payloads is the model's
(DESIGN CHOICE, log entry 48). -/

namespace Sys2Proof.Machine

/-! ## Ready reports (R334) -/

/-- Whether both halves are Locked. -/
def Block.bothLocked (b : Block) : Bool := b.locked .a && b.locked .b

/-- The cores of a half that are neither Draining nor Disabled, by bit (R54). -/
def Block.coreMask (b : Block) (h : HalfId) : Nat :=
  ((List.range 40).map (fun n => if ((tabFind (b.half h).funcs n).map (fun f => f.st)).getD 0 = 0 then 2 ^ n else 0)).sum

/-- The Harbour units of a half that are Disabled, by bit. -/
def Block.harbourMask (b : Block) (h : HalfId) : Nat :=
  ((List.range 27).map (fun n => if ((tabFind (b.half h).funcs (64 + n)).map (fun f => f.st)).getD 0 = 2 then 2 ^ n else 0)).sum

/-- A module's ready report: its number, what the packet is (0 report, 1 tray report, 2 request), its topology hash, its ports' states and
its capacity registers (R2). -/
def Block.readyReport (b : Block) : List Byte :=
  leBytes 2 b.moduleNo ++ leBytes 6 0 ++ leBytes 8 (b.reg (cfgReg 8)).toNat ++
  (List.range 18).map (fun i => BitVec.ofNat 8 (b.port (halfOf (i / 9)) (i % 9)).st) ++ leBytes 6 0 ++
  leBytes 8 (b.reg (bayReg .a 8)).toNat ++ leBytes 8 (b.reg (bayReg .b 8)).toNat ++
  leBytes 8 (b.reg (bayReg .a 0)).toNat ++ leBytes 8 (b.reg (bayReg .b 0)).toNat ++
  leBytes 8 (b.coreMask .a) ++ leBytes 8 (b.coreMask .b) ++
  leBytes 8 (b.reg (safReg .a 0x308)).toNat ++ leBytes 8 (b.reg (safReg .b 0x308)).toNat ++
  leBytes 8 (b.harbourMask .a) ++ leBytes 8 (b.harbourMask .b)

def reportModule (l : List Byte) : Nat := leNat (l.take 2)
def reportKind (l : List Byte) : Nat := leNat ((l.drop 2).take 1)

/-- A report with another kind. -/
def setReportKind (l : List Byte) (k : Nat) : List Byte := l.take 2 ++ leBytes 1 k ++ l.drop 3

/-- Whether every port of a module is Up, fenced, unconnected, or has failed one training attempt (R334). -/
def Block.portsSettled (b : Block) : Bool :=
  (List.range 18).all (fun i => let l := b.port (halfOf (i / 9)) (i % 9)
    l.linkClass = 0 || l.st = 2 || l.st = 3 || l.st = 5 || l.attempted)

/-- The Locked modules of this module's tray that it knows of: itself, and neighbours whose ECHO says so (DEDUCED, log entry 49). -/
def Block.trayLocked (b : Block) : List Nat :=
  let m := b.moduleNo
  (if b.bothLocked then [m] else []) ++
  ((List.range 18).filterMap (fun i => let l := b.port (halfOf (i / 9)) (i % 9)
    if (l.st = 2 ∨ l.st = 3) ∧ l.nbrLocked ∧ l.nbrEndpoint / 8 = m / 4 then some (l.nbrEndpoint / 2) else none))

/-- The tray reporter: the lowest-numbered Locked module of the tray (R334). -/
def Block.trayReporter (b : Block) : Option Nat :=
  match b.trayLocked with
  | [] => none
  | x :: xs => some (xs.foldl min x)

/-- Whether a tray is fully reported; under the built-in topology this module alone is awaited (R425). -/
def Block.trayReported (b : Block) (tray : Nat) : Bool :=
  if b.image.topology.isNone then (tabFind b.domain.reports b.moduleNo).isSome
  else (List.range 4).all (fun i => (tabFind b.domain.reports (4 * tray + i)).isSome)

/-! ## The census (R335) -/

/-- A field of TIDE_CENSUS on both halves. -/
def Block.setCensusFld (b : Block) (hi lo v : Nat) : Block := (b.setRegFld (tideReg .a 0x20) hi lo v).setRegFld (tideReg .b 0x20) hi lo v

/-- A half's census state, as EF_STAT, TIDE_CENSUS and, for half A, PCI_PHASE show it; a change raises the CENSUS event (R414). -/
def Block.setCensus (b : Block) (h : HalfId) (st : Nat) : Block :=
  if (b.half h).efing.census = st then b
  else
    let b1 := (b.modHalf h (fun x => { x with efing := { x.efing with census := st } })).setRegFld (tideReg h 0x20) 63 62 st
    match h with
    | .a => b1.moduleEvent 2
    | .b => b1

/-- A half that gathers (R339): a lease is known and no result yet. -/
def Block.startCensus (b : Block) (h : HalfId) : Block := if (b.half h).efing.census = 0 then b.setCensus h 1 else b

/-- The leader that both halves know (R386, R398). -/
def Block.setLeader (b : Block) (m rank : Nat) : Block :=
  let one (x : Block) (h : HalfId) : Block := ((x.setRegFld (gateReg h 0x10) 63 51 m).setRegFld (gateReg h 0x10) 50 48 rank).setRegFld (gateReg h 0x10) 47 47 1
  let b1 := one (one b .a) .b
  b1.setDomain { b1.domain with coord := some m }

/-- The rank of a candidate module; 15 for another. -/
def Block.rankOf (b : Block) (m : Nat) : Nat := ((b.cands.find? (fun c => c.2 = m)).map (fun c => c.1)).getD 15

/-- The active trays. -/
def Block.activeTrays (b : Block) : List Nat := (List.range 2048).filter (fun y => b.trayRole y = 1)

/-- The ready trays of the spare pool, in the pool's order; trays that joined after the census follow. -/
def Block.sparePool (b : Block) : List Nat :=
  sortBy (fun x y => decide ((b.image.topology.map (fun t => topoOrder t x)).getD 0 ≤ (b.image.topology.map (fun t => topoOrder t y)).getD 0))
    ((List.range 2048).filter (fun y => b.trayRole y = 2 && b.trayReported y)) ++ b.domain.latePool

/-- The entries of a census result: each absent tray in ascending order with its spare, 0xFFFF for none. -/
def assignSpares : List Nat → List Nat → Nat → List (Nat × Nat)
  | [], _, _ => []
  | t :: ts, s :: ss, n + 1 => (t, s) :: assignSpares ts ss n
  | t :: ts, ss, n => (t, 0xFFFF) :: assignSpares ts ss n

/-- The parts of a census result: completion Tide; part, count and flags; up to 48 entries. -/
def censusParts (done : Nat) (relay : Bool) (es : List (Nat × Nat)) : List (List Byte) :=
  let n := max 1 (cdiv es.length 48)
  (List.range n).map (fun i =>
    leBytes 8 done ++ leBytes 8 (i + n * 256 + b2n relay * 2 ^ 16) ++
    (((es.drop (48 * i)).take 48).map (fun e => leBytes 2 e.1 ++ leBytes 2 e.2)).flatten)

/-- The entries that a part holds. -/
def partEntries (l : List Byte) : List (Nat × Nat) :=
  (List.range ((l.length - 16) / 4)).map (fun i => (leNat ((l.drop (16 + 4 * i)).take 2), leNat ((l.drop (18 + 4 * i)).take 2)))

/-- GATE_SUBST entries filled from entry `i` with SEQ 0 (R335 step 4). -/
def Block.fillSubst (b : Block) (h : HalfId) : List (Nat × Nat) → Nat → Block
  | [], _ => b
  | e :: es, i => (b.setReg (gateReg h (0x300 + 8 * i)) (BitVec.ofNat 64 (2 ^ 63 + e.1 % 2048 * 2 ^ 52 + e.2 % 2048 * 2 ^ 41))).fillSubst h es (i + 1)

/-- A half takes the census result (R335 step 4, R336): the end-to-end sequences start at 0. -/
def Block.applyCensus (b : Block) (h : HalfId) (done : Nat) (es : List (Nat × Nat)) : Block :=
  let spared := es.filter (fun e => e.2 ≠ 0xFFFF)
  let absent := es.map (fun e => e.1)
  let roster := (b.activeTrays.filter (fun y => !(absent.contains y))) ++ spared.map (fun e => e.2)
  let b1 := b.modHalf h (fun x => { x with efing := { x.efing with seqTx := [], seqRx := [], parts := [] } })
  let b2 := (b1.setDomain { b1.domain with roster := roster }).fillSubst h spared 0
  let b3 := (((b2.setRegFld (tideReg h 0x20) 31 20 absent.length).setRegFld (tideReg h 0x20) 19 8 spared.length).setRegFld (tideReg h 0x20) 7 7
    (b2n (decide (spared.length < absent.length)))).setReg (tideReg h 0x30) (BitVec.ofNat 64 done)
  b3.setCensus h (if absent.contains (b3.moduleNo / 4) then 3 else 2)

/-- Packets to one endpoint, one after another. -/
def Block.manageAll (b : Block) (h : HalfId) (dest op : Nat) : List (List Byte) → Block
  | [] => b
  | p :: ps => (b.manage h dest op p).manageAll h dest op ps

/-- The census completes at its holder (R335): spares are assigned, the result goes down the tray reporters, and both halves take it. -/
def Block.completeCensus (b : Block) : Block :=
  let now := b.tide .a
  let absent := b.activeTrays.filter (fun y => !(b.trayReported y))
  let es := assignSpares absent b.sparePool 64
  let own := b.moduleNo / 4
  let trays := (b.domain.reports.map (fun p => p.1 / 4)).eraseDups
  let heads := trays.filterMap (fun y => (b.domain.reports.find? (fun p => p.1 / 4 = y && p.1 ≠ b.moduleNo)).map (fun p => (y, p.1)))
  let b1 := heads.foldl (fun x p => x.manageAll .a (2 * p.2) 0x04 (censusParts now (p.1 ≠ own || p.2 ≠ b.moduleNo) es)) b
  let sent := b1.applyCensus .a now es
  sent.applyCensus .b now es

/-- Whether every active tray is fully reported. -/
def Block.censusFull (b : Block) : Bool := b.activeTrays.all (fun y => b.trayReported y)

/-- The holder looks whether the census is complete. -/
def Block.censusCheck (b : Block) : Block :=
  if b.domain.holder ∧ b.census = 1 ∧ b.censusFull then b.completeCensus else b

/-- A report of a tray is held at the lease holder; a tray that becomes full after the census joins the spare pool (a spare tray by its
role, an active one behind the pool), and that is logged (R335; no code is given for it, log entry 16). -/
def Block.holderTakes (b : Block) (l : List Byte) : Block :=
  let m := reportModule l
  let full := b.trayReported (m / 4)
  let b1 := b.setDomain { b.domain with reports := tabPut b.domain.reports m l }
  if b.census = 1 then b1.censusCheck
  else if ¬ full ∧ b1.trayReported (m / 4) ∧ ¬ b1.domain.roster.contains (m / 4) then
    (if b.trayRole (m / 4) = 1 then b1.setDomain { b1.domain with latePool := b1.domain.latePool ++ [m / 4] } else b1).log
      { event := Config.poolEvent, arg0 := m / 4 }
  else b1

/-- The reports of a tray that a module holds, as tray reports. -/
def Block.trayReports (b : Block) (tray : Nat) : List (List Byte) :=
  (b.domain.reports.filter (fun p => p.1 / 4 = tray)).map (fun p => setReportKind p.2 1)

/-- A module's report reaches its tray reporter: once all four have reported, the holder is sent the tray's (R334). -/
def Block.reporterTakes (b : Block) (l : List Byte) : Block :=
  let b1 := b.setDomain { b.domain with reports := tabPut b.domain.reports (reportModule l) l }
  let tray := reportModule l / 4
  if b1.domain.holder then b1.holderTakes l
  else if b1.trayReported tray then
    match b1.domain.coord with
    | some m => b1.manageAll .a (2 * m) 0x03 (b1.trayReports tray)
    | none => b1
  else b1

/-- The module sends its ready report once R334's conditions hold. -/
def Block.reportReady (b : Block) : Block :=
  if ¬ b.domain.reported ∧ b.sys.ready ∧ b.bothLocked ∧ b.portsSettled then
    match b.trayReporter with
    | none => b
    | some m =>
      let b1 := b.setDomain { b.domain with reported := true }
      if m = b.moduleNo then b1.reporterTakes b1.readyReport else b1.manage .a (2 * m) 0x03 b1.readyReport
  else b

/-- READY_REPORT (R334): a report, a tray report, or a holder's request for the reports held. -/
def execReadyReport (h : HalfId) (p : Packet) (s : State) : Host.Outcome State Fault Refusal :=
  s.act (fun b => b.receive h p 5 [0x03] (fun b =>
    if reportKind p.payload = 2 then
      let m := reportModule p.payload
      let b1 := (b.setLeader m (b.rankOf m)).setCensusFld 55 43 m
      b1.manageAll .a (pkSrc p) 0x03 (if b1.trayReported (b1.moduleNo / 4) then b1.trayReports (b1.moduleNo / 4) else [])
    else if reportKind p.payload = 1 then (if b.domain.holder then b.holderTakes p.payload else b)
    else b.reporterTakes p.payload))

/-- CENSUS_DEADLINE (R335): at T_L + 60 s the census completes with what has been reported. -/
def execCensusDeadline (s : State) : Host.Outcome State Fault Refusal :=
  s.act (fun b => match b.domain.tL with
    | none => b
    | some t => if b.domain.holder ∧ b.census = 1 ∧ t + 60000000000 ≤ b.tide .a then b.completeCensus else b)

/-- The other endpoints of a module's tray. -/
def Block.trayOthers (b : Block) (h : HalfId) : List Nat := ((List.range 8).map (fun i => 8 * (b.moduleNo / 4) + i)).filter (fun e => e ≠ b.endpoint h)

/-- CENSUS_RESULT (R335): a tray reporter passes each part on to its tray; a half that holds every part takes the result. -/
def execCensusResult (h : HalfId) (p : Packet) (s : State) : Host.Outcome State Fault Refusal :=
  s.act (fun b0 => b0.receive h p 5 [0x04] (fun b =>
    let w := leNat ((p.payload.drop 8).take 8)
    let n := bits w 15 8
    let plain := p.payload.take 8 ++ leBytes 8 (w % 2 ^ 16) ++ p.payload.drop 16
    let b1 := if bit w 16 then b.sendAll h 0x04 0 plain (b.trayOthers h) else b
    if 2 ≤ (b1.half h).efing.census then b1
    else
      let b2 := b1.modHalf h (fun x => { x with efing := { x.efing with parts := tabPut x.efing.parts (w % 256) plain } })
      let ps := (b2.half h).efing.parts
      if n ≤ ps.length then b2.applyCensus h (leNat (p.payload.take 8)) (ps.map (fun q => partEntries q.2)).flatten else b2))

end Sys2Proof.Machine
end

