-- ==== Sys2Proof/Machine/Efing.lean ====
section
/-! DEFINITION. Efing's links (spec/12_efing_and_tide.md R308-R324): training, codeword groups, retry, credits, forwarding, neighbours and
fences. -/

namespace Sys2Proof.Machine

/-- Port error register of a link (R339); the Isthmus has none. -/
def portErr (h : HalfId) (x : Nat) : Nat := efReg h (0x108 + 0x20 * x)

/-- A count of a port's error register. -/
def Block.countPort (b : Block) (h : HalfId) (x hi lo n : Nat) : Block := if x < 9 ∧ n ≠ 0 then b.count (portErr h x) hi lo n else b

/-! ## A port leaves Up, or rises (R313, R322-R324) -/

/-- Since when the module has had no Up port, if its topology connects one (R392). -/
def Block.watchPorts (b : Block) : Block :=
  let ports := (List.range 18).map (fun i => b.port (halfOf (i / 9)) (i % 9))
  let from_ := if ports.all (fun l => l.linkClass = 0) ∨ ports.any (fun l => l.st = 2) then none
    else if b.sys.noUpPortFrom.isSome then b.sys.noUpPortFrom else some b.sys.upNs
  b.setSys { b.sys with noUpPortFrom := from_ }

/-- A port leaves Up, or training: what is queued is discarded and counted, its replay buffer goes, and routes change (R313). -/
def Block.dropLink (b : Block) (h : HalfId) (x st cause : Nat) (retraining : Bool) : Block :=
  let n := (b.port h x).queue.length
  let b1 := b.modPort h x (fun l => { l with st := st, cause := cause, retraining := retraining, trained := false, queue := [], replay := [] })
  ((b1.countPort h x 15 4 n).rerouted b h true).watchPorts

/-- A port is fenced: Disabled, with its cause recorded and logged, and the far end told (R310, R323, R324). -/
def Block.fencePort (b : Block) (h : HalfId) (x cause : Nat) : Block :=
  ((((b.dropLink h x 5 cause false).startDisabled h (128 + x) 2 (modulePort h x) false).modPort h x (fun l => { l with attempted := true })).control h x 0 0 0 2).log
    { event := 0x0040, half := h, kind := 3, index := modulePort h x, arg0 := modulePort h x, arg1 := cause }

/-- A port retrains (R313): it asks the far end to. -/
def Block.retrain (b : Block) (h : HalfId) (x : Nat) : Block :=
  if x < 9 ∧ ((b.port h x).st = 2 ∨ (b.port h x).st = 3) then ((b.dropLink h x 1 0 true).countPort h x 3 0 1).control h x 0 0 0 1 else b

/-- The four lanes that carry traffic: the lowest-numbered that pass (R308). -/
def lanesOf (passing : List (Fin 5)) : List Nat := ((List.range 5).filter (fun n => passing.any (fun f => f.val = n))).take 4

/-- A port's lanes and asymmetry after training: the spare is lane 4. -/
def Port.withLanes (l : Port) (passing : List (Fin 5)) (asym : Int) : Port :=
  let ls := lanesOf passing
  let lost := if ls.contains 4 then ((List.range 4).find? (fun n => !(ls.contains n))).getD 0 else 0
  { l with spareUsed := ls.contains 4, spareFor := lost, asym := asym }

/-- A port becomes Up with fresh credits and sequence numbers. -/
def Block.riseLink (b : Block) (h : HalfId) (x : Nat) (again : Bool) : Block :=
  let up (l : Port) : Port :=
    { l with st := 2, cause := 0, trained := false, retraining := false, sendSeq := 0, recvSeq := 0, replay := [], credits := b.linkCredits h }
  ((b.modPort h x up).rerouted b h again).watchPorts

/-! ## Training (R308, R323) -/

/-- An identity payload: module, half, module port, product serial number and topology hash (DESIGN CHOICE on the layout, log entry 48). -/
def Block.identityOf (b : Block) (h : HalfId) (x : Nat) : List Byte :=
  leBytes 2 b.moduleNo ++ leBytes 1 (halfNum h) ++ leBytes 1 (modulePort h x) ++ leBytes 4 0 ++ leBytes 16 b.image.serial ++
    leBytes 8 (b.reg (cfgReg 8)).toNat

/-- An identity packet leaves by the port alone, before it is Up. -/
def Block.sendIdentity (b : Block) (h : HalfId) (x : Nat) : Block :=
  let e := b.entry b.moduleNo (modulePort h x)
  let r := b.makePacket h (2 * entryModule e + entryPort e / 9) 0 5 0x01 0 0 0 (b.identityOf h x)
  r.2.emit (.packet h x r.1)

/-- PORT_TRAINING_DONE (R308): fewer than four passing lanes fence the port; otherwise each end sends its identity. -/
def execPortTrainingDone (h : HalfId) (port : Fin 9) (passing : List (Fin 5)) (asym : Int) (s : State) : Host.Outcome State Fault Refusal :=
  s.act (fun b =>
    let l := b.port h port.val
    if l.st ≠ 1 ∨ l.retraining ∨ l.trained then b
    else if (lanesOf passing).length < 4 then (b.fencePort h port.val 1).reportReady
    else (b.modPort h port.val (fun l => { l.withLanes passing asym with trained := true })).sendIdentity h port.val)

/-- TRAIN_RETRY (R308): a port whose far end never started repeats step 1 until the census is complete, and after that on command
alone. -/
def execTrainRetry (h : HalfId) (port : Fin 9) (s : State) : Host.Outcome State Fault Refusal :=
  s.act (fun b =>
    let l := b.port h port.val
    if l.st ≠ 1 ∨ l.retraining ∨ l.trained then b
    else (b.modPort h port.val (fun l => { l with attempted := true, st := if 2 ≤ (b.half h).efing.census then 0 else 1 })).reportReady)

/-- PORT_RETRAIN_DONE (R313): the port returns to Up, with the spare switched in for a failed lane, or is fenced. -/
def execPortRetrainDone (h : HalfId) (port : Fin 9) (passing : List (Fin 5)) (asym : Int) (s : State) : Host.Outcome State Fault Refusal :=
  s.act (fun b =>
    let l := b.port h port.val
    if l.st ≠ 1 ∨ ¬ l.retraining then b
    else if (lanesOf passing).length < 4 then b.fencePort h port.val 2
    else (b.modPort h port.val (fun l => l.withLanes passing asym)).riseLink h port.val true)

/-- IDENTITY (R323): equal hashes and the neighbour that the table names make the port Up; otherwise it is fenced. -/
def execIdentity (h : HalfId) (port : Fin 9) (p : Packet) (s : State) : Host.Outcome State Fault Refusal :=
  s.act (fun b =>
    let l := b.port h port.val
    if l.st ≠ 1 ∨ ¬ l.trained then b
    else if malformed p ∨ pkClass p ≠ 5 ∨ pkOp p ≠ 0x01 ∨ pkHops p ≠ 0 then b.count (efReg h 0x18) 63 48 1
    else if packetCrc p ≠ pkCrc p then b.count (efReg h 0x18) 15 0 1
    else
      let m := leNat (p.payload.take 2)
      let half := leNat ((p.payload.drop 2).take 1)
      let far := leNat ((p.payload.drop 3).take 1)
      let hash := leNat ((p.payload.drop 24).take 8)
      let e := b.entry b.moduleNo (modulePort h port.val)
      let b1 := b.modPort h port.val (fun l => { l with nbrEndpoint := 2 * m + half % 2, nbrPort := far })
      if hash ≠ (b.reg (cfgReg 8)).toNat then (b1.fencePort h port.val 3).reportReady
      else if entryModule e ≠ m ∨ entryPort e ≠ far ∨ half ≠ far / 9 then (b1.fencePort h port.val 4).reportReady
      else (b1.riseLink h port.val false).reportReady)

/-! ## Codeword groups (R309-R314) -/

/-- Whether an ACK of SEQ `ack` covers a group. -/
def covers (ack seq : Nat) : Bool := decide ((ack + 4096 - seq) % 4096 < 2048)

/-- Packets leave a link again. -/
def Block.emitAll (b : Block) (h : HalfId) (x : Nat) : List Packet → Block
  | [] => b
  | p :: ps => (b.emit (.packet h x p)).emitAll h x ps

/-- The sender replays every group it holds, in order (R312). -/
def Block.replayLink (b : Block) (h : HalfId) (x : Nat) : Block :=
  let gs := (b.port h x).replay
  (b.modPort h x (fun l => { l with replay := gs.map (fun g => { g with tide := b.tide h, replays := g.replays + 1 }) })).emitAll h x
    (gs.map (fun g => g.packets)).flatten

/-- A control word's ACK or NAK acts on the replay buffer. -/
def Block.takeAck (b : Block) (h : HalfId) (x kind ack : Nat) : Block :=
  let freed := b.modPort h x (fun l => { l with replay := l.replay.filter (fun g => !(covers ack g.seq)) })
  if kind = 1 then freed else if kind = 2 then freed.replayLink h x else b

/-- Credits return to a link, and what waits for them goes (R314). -/
def Block.takeCredits (b : Block) (h : HalfId) (x cls n : Nat) : Block :=
  if n = 0 then b else b.modPort h x (fun l => { l with credits := listMod l.credits cls (fun c => c + n) })

/-- Whether some row of the opcode table takes a packet at its destination (R318, R319). -/
def hasRow (p : Packet) : Bool :=
  let o := pkOp p
  match pkClass p with
  | 0 => [0x01, 0x02, 0x03, 0x10, 0x11, 0x12, 0x13, 0x14, 0x15, 0x16, 0x20].contains o
  | 1 => true
  | 2 => decide (1 ≤ o) && decide (o ≤ 7)
  | 3 => decide (1 ≤ o) && decide (o ≤ 3)
  | 4 => decide (1 ≤ o) && decide (o ≤ 2)
  | 5 => (decide (1 ≤ o) && decide (o ≤ 5)) || (decide (0x10 ≤ o) && decide (o ≤ 0x19))
  | _ => false

/-- A packet for this half whose OP no row takes (R318-R320): a request is answered with ST_ADMISSION, any other is malformed. -/
def Block.orphan (b : Block) (h : HalfId) (p : Packet) : Block :=
  if pkClass p = 0 then b.receive h p 0 [pkOp p] (fun b => b.respond h p stAdmission [])
  else (b.unbuffer h p).count (efReg h 0x18) 63 48 1

/-- A packet of a group enters the receive buffer; what no row takes is disposed of at once. -/
def Block.arrive (b : Block) (h : HalfId) (x : Nat) : List Packet → Block
  | [] => b
  | p :: ps =>
    let b1 := b.modHalf h (fun y => { y with efing := { y.efing with arrived := y.efing.arrived ++ [{ exit := x, tide := b.tide h, packet := p }] } })
    let b2 := if hasRow p || (pkDest p ≠ b.endpoint h && decide (pkClass p < 6)) then b1 else b1.orphan h p
    b2.arrive h x ps

/-- The far end's LSTATE (R310, R337): 3 puts the port in Slack, 0 takes it back unless this module is in Slack itself. -/
def Block.takeLstate (b : Block) (h : HalfId) (x ls : Nat) : Block :=
  let l := b.port h x
  if ls = 3 ∧ l.st = 2 then ((b.modPort h x (fun l => { l with st := 3 })).rerouted b h true).watchPorts
  else if ls = 0 ∧ l.st = 3 ∧ b.sys.slack = 0 then ((b.modPort h x (fun l => { l with st := 2 })).rerouted b h true).watchPorts
  else b

/-- The effects of a group's control word: credits, then a retrain request, which wins over a NAK (R338), or the ACK and LSTATE. -/
def Block.takeControl (b : Block) (h : HalfId) (x : Nat) (w : Word) : Block :=
  let b1 := (b.takeCredits h x (fld w 37 35) (fld w 34 25)).takeCredits h x (fld w 24 22) (fld w 21 12)
  if fld w 11 8 = 1 then b1.retrain h x
  else
    let b2 := (b1.takeAck h x (fld w 39 38) (fld w 51 40)).takeLstate h x (fld w 11 8)
    b2.drainLink h x (b2.port h x).queue.length

/-- LINK_GROUP (R312): groups are delivered in SEQ order alone; a group that cannot be corrected, and every group after it, is discarded
and a NAK sent. A group that carries no packet acts by its control word whatever its SEQ (log entry 47). -/
def execLinkGroup (h : HalfId) (x : Fin 10) (g : LinkGroup) (s : State) : Host.Outcome State Fault Refusal :=
  s.act (fun b0 =>
    let l := b0.port h x.val
    if l.st < 2 ∨ 4 < l.st then b0
    else
      let b := b0.countPort h x.val 63 32 g.corrected
      let seq := fld g.control 63 52
      if ¬ g.correctable then (b.countPort h x.val 31 16 1).control h x.val 2 0 0 0
      else if g.packets = [] then b.takeControl h x.val g.control
      else if seq ≠ l.recvSeq then
        (if covers (l.recvSeq + 4095) seq then b.control h x.val 1 0 0 0 else (b.countPort h x.val 31 16 1).control h x.val 2 0 0 0)
      else
        ((((b.modPort h x.val (fun l => { l with recvSeq := (l.recvSeq + 1) % 4096 })).control h x.val 1 0 0 0).arrive h x.val g.packets).takeControl h
          x.val g.control))

/-- ACK_TIMEOUT (R312): the oldest group not acknowledged has waited EF_RETRY_CFG.ACK_TIMEOUT_NS. -/
def execAckTimeout (h : HalfId) (x : Fin 10) (s : State) : Host.Outcome State Fault Refusal :=
  s.act (fun b => match (b.port h x.val).replay with
    | [] => b
    | g :: _ => if g.tide + b.regFld (efReg h 8) 31 0 ≤ b.tide h then b.replayLink h x.val else b)

/-- NAK_LIMIT (R313): a group has been replayed NAK_LIMIT times. -/
def execNakLimit (h : HalfId) (port : Fin 9) (s : State) : Host.Outcome State Fault Refusal :=
  s.act (fun b =>
    if (b.port h port.val).replay.any (fun g => decide (b.regFld (efReg h 8) 39 32 ≤ g.replays)) then b.retrain h port.val else b)

/-- LANE_CLOCK_LOSS (R313): the port of the lane retrains. -/
def execLaneClockLoss (h : HalfId) (port : Fin 9) (_lane : Fin 5) (s : State) : Host.Outcome State Fault Refusal :=
  s.act (fun b => b.retrain h port.val)

/-! ## The router (R320-R322) -/

/-- HOP_TIMEOUT (R320): packets that have waited in this router's buffers longer than EF_HOP_TIMEOUT are discarded as stale. Packets that
R322 holds wait ten times as long, so they are not counted among them (DEDUCED, log entry 47). -/
def execHopTimeout (h : HalfId) (x : Fin 10) (s : State) : Host.Outcome State Fault Refusal :=
  s.act (fun b =>
    let old (t : Nat) : Bool := decide (t + b.regFld (efReg h 0x10) 29 0 < b.tide h)
    let l := b.port h x.val
    let late := (b.half h).efing.arrived.filter (fun a => a.exit = x.val && old a.tide)
    let b1 := b.modPort h x.val (fun l => { l with queue := l.queue.filter (fun p => !(old p.1)) })
    let b2 := late.foldl (fun y a => y.unbuffer h a.packet) b1
    b2.count (efReg h 0x18) 31 16 ((l.queue.filter (fun p => old p.1)).length + late.length))

/-- Packets routed out one after another. -/
def Block.routeAll (b : Block) (h : HalfId) : List Packet → Block
  | [] => b
  | p :: ps => (b.routeOut h p).routeAll h ps

/-- ROUTE_HOLD_EXPIRY (R322): the packets held for a destination go by its new exit. -/
def execRouteHoldExpiry (h : HalfId) (dest : Fin 16384) (s : State) : Host.Outcome State Fault Refusal :=
  s.act (fun b => match tabFind (b.half h).efing.holds dest.val with
    | none => b
    | some q =>
      if q.until_ ≤ b.tide h then
        (b.modHalf h (fun x => { x with efing := { x.efing with holds := tabDel x.efing.holds dest.val } })).routeAll h q.packets
      else b)

/-- A packet one link on: HOPS rises, and its CRC follows the change alone (R314, R316; DEDUCED, log entry 47). -/
def hopOn (p : Packet) : Packet :=
  let q := { p with w1 := setFld p.w1 31 29 (pkHops p + 1) }
  { q with w3 := setFld q.w3 31 0 (pkCrc p ^^^ packetCrc p ^^^ packetCrc q) }

/-- PACKET_FORWARD (R314, R320, R321, R336): a packet not for this half goes on by its exit. -/
def execPacketForward (h : HalfId) (p : Packet) (s : State) : Host.Outcome State Fault Refusal :=
  s.act (fun b0 =>
    if pkDest p = b0.endpoint h then b0
    else
      let b := b0.unbuffer h p
      if malformed p ∨ pkHops p = 7 ∨ pkClass p = 4 then b.count (efReg h 0x18) 63 48 1
      else if pkClass p < 4 ∧ ¬ ((b.half h).efing.census = 2 ∧ b.domain.roster.contains (pkSrc p / 8)) then b.count (efReg h 0x20) 31 0 1
      else b.routeOut h (hopOn p))

end Sys2Proof.Machine
end

