-- ==== Sys2Proof/Machine/Video.lean ====
section
/-! DEFINITION. The Harbour's units and video engines (spec/10_harbour_video.md R253-R279). What a stream's standard makes of its bytes is
an open value of those bytes (`Config.clip`, `Config.sample`, log entry 41); the limits, the reference pool, concealment, statuses, records
and motion statistics are the spec's own. A clip is decoded or encoded by one command (DESIGN CHOICE, log entry 42). -/

namespace Sys2Proof.Machine

/-! ## Units (R255, R258, R280, R281) -/

/-- A half's Harbour. -/
def Block.harbour (b : Block) (h : HalfId) : Harbour := (b.half h).harbour

/-- A block with a half's Harbour changed. -/
def Block.modHarbour (b : Block) (h : HalfId) (f : Harbour → Harbour) : Block := b.modHalf h (fun x => { x with harbour := f x.harbour })

/-- The OP of a media task. -/
def TaskDesc.mediaOp (d : TaskDesc) : Nat := d.pf 0 63 56

/-- The key of a half's Harbour pipeline among its functions. -/
def harbourKey (p : Nat) : Nat := 64 + p

/-- The state of a pipeline: 0 enabled, 1 Draining, 2 Disabled. -/
def Block.pipeState (b : Block) (h : HalfId) (p : Nat) : Nat := ((tabFind (b.half h).funcs (harbourKey p)).map (fun f => f.st)).getD 0

/-- The tasks of a unit's queue whose status is not fixed, in order of assignment. -/
def Block.unitTasks (b : Block) (h : HalfId) (p : Nat) : List TaskRef :=
  (tabGet [] (b.harbour h).units p).filter (fun t => b.isRunning t)

/-- The enabled unit among `ps` with the fewest assigned tasks, the lowest on a tie (R258, R281). -/
def Block.pickUnit (b : Block) (h : HalfId) (ps : List Nat) : Option Nat :=
  ((ps.filter (fun p => b.pipeState h p = 0)).foldl (fun best p =>
    let n := (b.unitTasks h p).length
    match best with
    | none => some (n, p)
    | some q => if n < q.1 then some (n, p) else some q) (none : Option (Nat × Nat))).map (fun q => q.2)

/-- A task assigned to a unit. -/
def Block.assignUnit (b : Block) (t : TaskRef) (p : Nat) : Block :=
  b.modHarbour t.half (fun x => { x with units := tabSet [] x.units p (b.unitTasks t.half p ++ [t]) })

/-- The unit that a task is assigned to. -/
def Block.unitOf (b : Block) (t : TaskRef) : Option Nat := (List.range 27).find? (fun p => (tabGet [] (b.harbour t.half).units p).contains t)

/-- A completed-work counter of a unit: HB_VID_PIPE_p.FRAMES for p below 9, HB_UNIT_q.SAMPLES above (R279, R305). -/
def unitCounter (h : HalfId) (p : Nat) : Nat := if p < 9 then vidReg h (0x100 + 8 * p) else inReg h (0x100 + 8 * (p - 9))

/-- Frames or samples completed on a unit. -/
def Block.countPipe (b : Block) (h : HalfId) (p n : Nat) : Block := b.modReg (unitCounter h p) (fun w => setFld w 47 0 (fld w 47 0 + n))

/-- Frames or samples completed on the task's unit. -/
def Block.countUnit (b : Block) (t : TaskRef) (n : Nat) : Block :=
  match b.unitOf t with
  | some p => b.countPipe t.half p n
  | none => b

/-! ## Stream contexts (R257, R258, R260) -/

/-- CTX of a video task. -/
def TaskDesc.ctxNo (d : TaskDesc) : Nat := d.pf 0 55 47

/-- A stream context. -/
def Block.stream (b : Block) (h : HalfId) (i : Nat) : Option StreamCtx := tabFind (b.harbour h).streams i

/-- A block with a stream context set. -/
def Block.setStream (b : Block) (h : HalfId) (i : Nat) (x : StreamCtx) : Block :=
  b.modHarbour h (fun y => { y with streams := tabPut y.streams i x })

/-- A block with a stream context changed. -/
def Block.modStream (b : Block) (h : HalfId) (i : Nat) (f : StreamCtx → StreamCtx) : Block :=
  match b.stream h i with
  | some x => b.setStream h i (f x)
  | none => b

/-- A context with no decoded picture (R257). -/
def StreamCtx.fresh (x : StreamCtx) : StreamCtx :=
  { x with live := false, sets := [], buffers := List.replicate x.fbCount none, output := [], last := none, pictures := 0, history := [],
           inputs := [], source := none, vectors := [] }

/-- The task that holds a context: the first named in it whose status is not fixed (R258). -/
def Block.holder (b : Block) (h : HalfId) (i : Nat) : Option TaskRef := (b.stream h i).bind (fun x => x.queue.find? (fun t => b.isRunning t))

/-- A media task that names a context is queued behind those that hold it. -/
def Block.joinStream (b : Block) (t : TaskRef) (i : Nat) : Block :=
  b.modStream t.half i (fun x => { x with queue := x.queue.filter (fun u => b.isRunning u && u ≠ t) ++ [t] })

/-- FB_SIZE (R260). -/
def fbSize (maxW maxH : Nat) (bit10 : Bool) : Nat :=
  let wh := cdiv maxW 128 * 128 * (cdiv maxH 128 * 128)
  cdiv (wh * 3 * (if bit10 then 2 else 1) / 2 + wh / 16) 65536 * 65536

/-- The bytes of a context's pool. -/
def StreamCtx.poolBytes (x : StreamCtx) : Nat := x.fbCount * fbSize x.maxW x.maxH x.bit10

/-- Whether every page of a range is mapped WRITABLE in Shelf or Bay (R260, R285). -/
def Block.scratchOk (b : Block) (k va len : Nat) : Bool :=
  (List.range (len / 0x200000 + 2)).all (fun i =>
    let v := min (va + i * 0x200000) (va + len - 1)
    match b.translate k v with
    | some (d, p) => p.writable && d / 2 ^ 60 = 0 && (tierOf d = 1 || tierOf d = 2)
    | none => len = 0)

/-- Check 1 of the video operations (R257, R270-R274). The number of frames F of a decode is taken from dimension 2 of slot 1, where R271's
list (W, H, F) places it, and CAP3 of that slot, which the rule's last sentence names, is not looked at (DEDUCED, log entry 42). -/
def Block.videoCheck (b : Block) (h : HalfId) (g : Graph) (c : TaskCtx) : Option Nat :=
  let d := c.desc
  let x := b.stream h d.ctxNo
  let own := (x.map (fun y => decide (y.job = g.job))).getD false
  match d.mediaOp with
  | 1 =>
    let y := c.tensor 1
    let u := c.tensor 2
    firstFault [
      faultIf (d.pf 0 15 8 = 0) 97,
      slotsRead d [(true, 0), (true, 1), (true, 1), (true, 1)],
      formatIn (c.tensor 0) [0x0C], formatIn y [0x0C, 0x0D], formatIn u [y.fmt], formatIn (c.tensor 3) [0x0B],
      flatFrom (c.tensor 0) 1, faultIf (u.cap 0 ≠ 2) (offTensor 2 (tOffCap 0)), faultIf (u.cap 1 ≠ cdiv (y.cap 0) 2) (offTensor 2 (tOffCap 1)),
      faultIf (u.cap 2 ≠ cdiv (y.cap 1) 2) (offTensor 2 (tOffCap 2)), faultIf (u.cap 3 ≠ y.cap 2) (offTensor 2 (tOffCap 3)),
      faultIf ((c.tensor 3).cap 0 ≠ 4) (offTensor 3 (tOffCap 0)), faultIf ((c.tensor 3).cap 1 ≠ y.cap 2) (offTensor 3 (tOffCap 1)),
      faultIf (!own || (x.map (fun y => y.encoder)).getD true) 101 ]
  | 2 =>
    let y := c.tensor 0
    let u := c.tensor 1
    let hevc := (x.map (fun y => decide (y.codec = 0))).getD false
    firstFault [
      faultIf (hevc && decide (51 < d.pf 1 63 56)) 111, faultIf (hevc && decide (51 < d.pf 1 55 48)) 110,
      slotsRead d [(true, 0), (true, 0), (d.pf 0 46 46 = 0, 1), (true, 1), (true, 1)],
      formatIn y [0x0C, 0x0D], formatIn u [y.fmt], (if d.pf 0 46 46 = 0 then formatIn (c.tensor 2) [0x0C] else none),
      formatIn (c.tensor 3) [0x0B], formatIn (c.tensor 4) [0x0B],
      faultIf (y.ext 0 < 64 || 4096 < y.ext 0 || y.ext 0 % 8 ≠ 0) (offTensor 0 (tOffCap 0)),
      faultIf (y.ext 1 < 64 || 2304 < y.ext 1 || y.ext 1 % 8 ≠ 0) (offTensor 0 (tOffCap 1)),
      flatFrom y 3, faultIf (u.ext 0 ≠ 2) (offTensor 1 (tOffCap 0)), faultIf (u.ext 1 ≠ y.ext 0 / 2) (offTensor 1 (tOffCap 1)),
      faultIf (u.ext 2 ≠ y.ext 1 / 2) (offTensor 1 (tOffCap 2)), faultIf (u.ext 3 ≠ y.ext 2) (offTensor 1 (tOffCap 3)),
      faultIf ((c.tensor 3).ext 0 ≠ cdiv (y.ext 0) 16) (offTensor 3 (tOffCap 0)), faultIf ((c.tensor 3).ext 1 ≠ cdiv (y.ext 1) 16) (offTensor 3 (tOffCap 1)),
      faultIf ((c.tensor 3).ext 2 ≠ y.ext 2) (offTensor 3 (tOffCap 2)), faultIf ((c.tensor 4).ext 0 ≠ 4) (offTensor 4 (tOffCap 0)),
      faultIf ((c.tensor 4).ext 1 ≠ y.ext 2) (offTensor 4 (tOffCap 1)),
      faultIf (!own || !(x.map (fun y => y.encoder)).getD false) 101,
      faultIf ((x.map (fun y => decide (y.fbCount < d.pf 1 47 46 + 2))).getD true) 109 ]
  | 3 =>
    firstFault [
      faultIf (decide (2 < d.pf 0 46 44)) 101, faultIf (d.pf 0 46 44 = 1 && d.pf 0 43 43 = 1) 101,
      faultIf (decide (d.pf 1 63 50 < 16) || decide (8192 < d.pf 1 63 50)) 110, faultIf (decide (d.pf 1 49 36 < 16) || decide (8192 < d.pf 1 49 36)) 108,
      faultIf (decide (d.pf 1 34 30 < 2) || decide (24 < d.pf 1 34 30)) 107, faultIf (d.pf 2 47 0 % 65536 ≠ 0) 112,
      faultIf x.isSome 101 ]
  | 4 => firstFault [faultIf (!own) 101]
  | _ => some 103

/-! ## Opening and closing (R257, R260, R274) -/

/-- CONTEXT_OPEN (R257, R260): every page of the pool is checked. -/
def execContextOpen (t : TaskRef) (s : State) : Host.Outcome State Fault Refusal :=
  s.act (fun b => b.onRunning t 0x09 (fun g c =>
    let d := c.desc
    let x : StreamCtx :=
      { job := g.job, codec := d.pf 0 46 44, encoder := d.pf 0 43 43 = 1, maxW := d.pf 1 63 50, maxH := d.pf 1 49 36, bit10 := d.pf 1 35 35 = 1,
        fbBase := d.pf 2 47 0, fbCount := d.pf 1 34 30, live := false, sets := [], buffers := List.replicate (d.pf 1 34 30) none, output := [],
        last := none, pictures := 0, history := [], inputs := [], source := none, vectors := [], queue := [] }
    if d.mediaOp ≠ 3 then b
    else if (b.stream t.half d.ctxNo).isSome then b.fix t stAdmission (offDesc 101)
    else if b.scratchOk g.slot x.fbBase x.poolBytes then (b.setStream t.half d.ctxNo x).fix t stOk 0
    else b.fix t stXlate 8))

/-- CONTEXT_CLOSE (R257, R258): a close of a held context waits its turn. -/
def execContextClose (t : TaskRef) (s : State) : Host.Outcome State Fault Refusal :=
  s.act (fun b => b.onRunning t 0x09 (fun g c =>
    let i := c.desc.ctxNo
    if c.desc.mediaOp ≠ 4 then b
    else match b.stream t.half i with
      | none => b.fix t stAdmission (offDesc 101)
      | some x =>
        if x.job ≠ g.job then b.fix t stAdmission (offDesc 101)
        else if b.holder t.half i ≠ some t then b
        else (b.modHarbour t.half (fun y => { y with streams := tabDel y.streams i })).fix t stOk 0))

/-- Every context of a job closes when its slot reaches Disabled (R257). -/
def Block.closeStreams (b : Block) (job : Nat) : Block :=
  let drop (x : Half) : Half := { x with harbour := { x.harbour with streams := x.harbour.streams.filter (fun p => p.2.job ≠ job) } }
  { b with halfA := drop b.halfA, halfB := drop b.halfB }

/-! ## The reference pool (R261, R262) -/

/-- A clip in progress: the context, the pictures output so far and those pending, the counts of HB_VID_EVENTS, twice the sum D of R264,
whether a random-access point has been decoded, the offset of a first syntax error, the largest fraction, whether a fraction was above
CONCEAL_MAX, and how decoding ended. -/
structure Clip where
  ctx : StreamCtx
  out : List Shown
  pending : List Shown
  resyncs : Nat
  missing : Nat
  bumps : Nat
  watchdogs : Nat
  oob : Nat
  sum : Nat
  entered : Bool
  error : Option Nat
  decoded : Nat
  largest : Nat
  corrupt : Bool
  claimed : List Nat
  stop : Option (Nat × Nat)
deriving DecidableEq, Repr

/-- The first free buffer: it holds no picture that is a reference or OUTPUT_PENDING. -/
def StreamCtx.freeBuffer (x : StreamCtx) : Option Nat :=
  (List.range x.fbCount).find? (fun i => match x.buffers.getD i none with
    | none => true
    | some p => p.mark = 0 && !p.waiting)

/-- A context with each picture it holds changed. -/
def StreamCtx.mapPics (x : StreamCtx) (f : Picture → Picture) : StreamCtx := { x with buffers := x.buffers.map (fun o => o.map f) }

/-- Output the pending picture earliest in output order. -/
def Clip.outputOne (k : Clip) : Clip :=
  match sortBy (fun u v => decide (u.pic.order ≤ v.pic.order)) k.pending with
  | [] => k
  | p :: ps => { k with out := k.out ++ [p], pending := ps,
                        ctx := k.ctx.mapPics (fun q => if q.number = p.pic.number then { q with waiting := false } else q) }

/-- Output every pending picture, in output order. -/
def Clip.flush : Nat → Clip → Clip
  | 0, k => k
  | n + 1, k => if k.pending.isEmpty then k else (k.outputOne).flush n

/-- Claim the lowest free buffer, making one free first when there is none (R261). -/
def Clip.claim : Nat → Clip → Nat × Clip
  | 0, k => (0, k)
  | n + 1, k => match k.ctx.freeBuffer with
    | some i => (i, k)
    | none =>
      if k.pending.isEmpty then
        match sortBy (fun u v => decide (u.number ≤ v.number)) ((k.ctx.buffers.filterMap id).filter (fun p => p.mark = 1)) with
        | [] => (0, k)
        | p :: _ => Clip.claim n { k with bumps := k.bumps + 1,
                                          ctx := k.ctx.mapPics (fun q => if q.number = p.number then { q with mark := 0 } else q) }
      else Clip.claim n k.outputOne

/-- A plane of mid-grey (R262). -/
def greyPlanes (w h : Nat) (tenBit : Bool) : List (List Nat) :=
  let v := if tenBit then 512 else 128
  let cw := cdiv w 2 * cdiv h 2
  [List.replicate (w * h) v, List.replicate cw v, List.replicate cw v]

/-- The reference that a list names, or its replacement: the most recent picture decoded, or mid-grey (R262). The second part says that it
was replaced. -/
def StreamCtx.reference (x : StreamCtx) (w h : Nat) (tenBit : Bool) (n : Nat) : Picture × Bool :=
  match (x.buffers.filterMap id).find? (fun p => p.number = n && p.mark ≠ 0) with
  | some p => (p, false)
  | none => ((x.last).getD { width := w, height := h, tenBit := tenBit, planes := greyPlanes w h tenBit, number := 0, order := 0, mark := 0,
                             waiting := false }, true)

/-! ## Concealment (R265, R267, R268) -/

/-- The width and height of plane `i` of a picture. -/
def planeDims (w h i : Nat) : Nat × Nat := if i = 0 then (w, h) else (cdiv w 2, cdiv h 2)

/-- The value of a DC block (R267): the floor of the mean of the samples above and left within the picture. -/
def dcValue (plane : List Nat) (pw ph x0 y0 n : Nat) (tenBit : Bool) : Nat :=
  let above := if y0 = 0 then [] else ((List.range n).filter (fun i => decide (x0 + i < pw))).map (fun i => plane.getD ((y0 - 1) * pw + x0 + i) 0)
  let left := if x0 = 0 then [] else ((List.range n).filter (fun i => decide (y0 + i < ph))).map (fun i => plane.getD ((y0 + i) * pw + x0 - 1) 0)
  let l := above ++ left
  if l.isEmpty then (if tenBit then 512 else 128) else l.sum / l.length

/-- A rectangle of a plane replaced, sample by sample. -/
def fillRect (plane : List Nat) (pw x0 y0 n : Nat) (f : Nat → Nat) : List Nat :=
  (plane.zip (List.range plane.length)).map (fun p =>
    let x := p.2 % pw
    let y := p.2 / pw
    if x0 ≤ x ∧ x < x0 + n ∧ y0 ≤ y ∧ y < y0 + n then f p.2 else p.1)

/-- The sample of a reference at a position of a plane: an open value where the reference has no such position (R267). -/
def Picture.colocated (p : Picture) (plane x y : Nat) : Nat :=
  let d := planeDims p.width p.height plane
  if x < d.1 ∧ y < d.2 then (p.planes.getD plane []).getD (y * d.1 + x) 0 else Config.beyondReference plane x y % (if p.tenBit then 1024 else 256)

/-- One block of one plane concealed: a co-located copy, or DC (R267). -/
def concealBlock (w h : Nat) (tenBit : Bool) (near : Option Picture) (unit i blk : Nat) (plane : List Nat) : List Nat :=
  let n := if i = 0 then unit else unit / 2
  let cols := cdiv w unit
  let d := planeDims w h i
  let x0 := blk % cols * n
  let y0 := blk / cols * n
  match near with
  | some p => fillRect plane d.1 x0 y0 n (fun j => p.colocated i (j % d.1) (j / d.1))
  | none => let v := dcValue plane d.1 d.2 x0 y0 n tenBit; fillRect plane d.1 x0 y0 n (fun _ => v)

/-- The luma size of a coding block: a macroblock of AVC, a CTB or a superblock else. -/
def blockUnit (codec : Nat) (p : Config.PicSyntax) : Nat := if codec = 1 then 16 else p.unit

/-- The row of R256 that a luma line lies in: a tile row of a tiled picture; a row of macroblock pairs of an MBAFF frame; else a row of
macroblocks, CTBs or superblocks. -/
def rowOf (codec : Nat) (p : Config.PicSyntax) (line : Nat) : Nat :=
  if p.tileRows.isEmpty then line / (if codec = 1 && p.mbaff then 32 else blockUnit codec p)
  else (p.tileRows.filter (fun y => decide (y ≤ line))).length

/-- The blocks of a picture that lie in rows not written when its watchdog expired (R265). -/
def lateBlocks (codec : Nat) (p : Config.PicSyntax) (rows : Nat) : List Nat :=
  let n := blockUnit codec p
  (List.range (cdiv p.width n * cdiv p.height n)).filter (fun blk => decide (rows ≤ rowOf codec p (blk / cdiv p.width n * n)))

/-- The luma samples of a picture that lie in a block. -/
def blockSamples (w h unit blk : Nat) : Nat :=
  let cols := cdiv w unit
  (min w ((blk % cols + 1) * unit) - blk % cols * unit) * (min h ((blk / cols + 1) * unit) - blk / cols * unit)

/-- The nearest reference (R267): the smallest distance in output order, a tie to the earlier; for AV1 the LAST_FRAME slot. -/
def nearest (codec order : Nat) (refs : List Picture) : Option Picture :=
  if codec = 2 then refs.head?
  else (sortBy (fun p q =>
    let dp := ((p.order : Int) - order).natAbs
    let dq := ((q.order : Int) - order).natAbs
    decide (dp < dq) || (decide (dp = dq) && decide (p.order ≤ q.order))) refs).head?

/-! ## Syntax errors (R265, R266) -/

/-- Whether a slice's parameter set is absent or was discarded: the last set of that identity before the slice decides (DEDUCED, log
entry 41). A set that contains a syntax error is discarded. -/
def setHeld (sets : List Config.ParamSet) (s : Config.Slice) : Bool :=
  match (sets.filter (fun q => decide (q.id = s.set) && decide (q.offset ≤ s.offset))).getLast? with
  | some q => q.error.isNone
  | none => false

/-- The syntax errors of a slice: one where its parameter set is not held; else its own, and one at the end of the input where its syntax
would be read past that end. -/
def sliceErrors (sets : List Config.ParamSet) (bytes : Nat) (s : Config.Slice) : List Config.SyntaxError :=
  if !setHeld sets s then [{ fault := .setMissing, offset := s.offset, resume := .sliceStart, blocks := s.blocks.map (fun q => q.1) }]
  else
    let past := s.blocks.filter (fun q => decide (bytes < q.2))
    s.errors ++ (if past.isEmpty then [] else [{ fault := .pastEnd, offset := bytes, resume := .nextPicture, blocks := past.map (fun q => q.1) }])

/-- The syntax errors of a picture. -/
def picErrors (sets : List Config.ParamSet) (bytes : Nat) (p : Config.PicSyntax) : List Config.SyntaxError :=
  p.slices.flatMap (sliceErrors sets bytes)

/-- The lower of two offsets that may be absent. -/
def firstOffset (a : Option Nat) (l : List Nat) : Option Nat := l.foldl (fun m n => some (min (m.getD n) n)) a

/-- The writes outside a picture's planes: each is discarded and counted (R265). -/
def strayWrites (p : Config.PicSyntax) : Nat :=
  (p.strays.filter (fun q => !(decide (q.1 < 3) && decide (q.2.1 < (planeDims p.width p.height q.1).1) &&
    decide (q.2.2 < (planeDims p.width p.height q.1).2)))).length

/-! ## One picture (R261-R268) -/

/-- Whether profile, bit depth, chroma format and tools lie within the table of R253. -/
def formatFits (codec : Nat) (p : Config.PicSyntax) : Bool :=
  !p.foreignTool &&
  (match codec with
  | 0 => [Config.Profile.hevcMain, .hevcMain10, .hevcMainStill].contains p.profile && [8, 10].contains p.depth && decide (p.chroma = .c420)
  | 1 => [Config.Profile.avcHigh, .avcMain, .avcConstrainedBaseline].contains p.profile && decide (p.depth = 8) && decide (p.chroma = .c420)
  | _ => decide (p.profile = .av1Main) && [8, 10].contains p.depth && [Config.Chroma.c420, .monochrome].contains p.chroma)

/-- Ten times the highest level of a codec (R253). -/
def topLevel (codec : Nat) : Nat := if codec = 1 then 62 else 61

/-- The reference and reorder needs that a picture's stream declares: eight slots for AV1 (R263). -/
def declaredNeeds (codec : Nat) (p : Config.PicSyntax) : Nat := if codec = 2 then 8 else p.needs

/-- Twice the bytes that a picture adds to D (R264). -/
def pictureCost (p : Config.PicSyntax) : Nat := p.width * p.height * 3 * (if p.tenBit then 2 else 1)

/-- The limit that a picture violates (R263, R264), given whether it is the input's first random-access point, twice the sum of D before
it, and the bytes of C through it. Of several limits the lowest number is taken (DESIGN CHOICE, log entry 41). -/
def picLimit (x : StreamCtx) (uint8 : Bool) (maxW maxH : Nat) (p : Config.PicSyntax) (firstRap : Bool) (sum bytes : Nat) : Option Nat :=
  if !formatFits x.codec p then some 0x10
  else if topLevel x.codec < p.level then some 0x11
  else if maxW < p.width ∨ maxH < p.height then some 0x12
  else if 8192 < p.width ∨ 8192 < p.height ∨ 35389440 < p.width * p.height then some 0x13
  else if x.maxW < p.width ∨ x.maxH < p.height ∨ (p.tenBit ∧ (¬ x.bit10 ∨ uint8)) then some 0x14
  else if x.fbCount - 1 < declaredNeeds x.codec p then some 0x15
  else if 2 * (1024 * bytes) + pictureCost p < sum + pictureCost p then some 0x16
  else if firstRap ∧ 0x4000000 < p.start then some 0x17
  else none

/-- The mark that a picture's syntax leaves on picture `n` (R261): for AV1 the buffers that the eight slots name are short-term; at most
sixteen buffers are marked. -/
def markOf (codec : Nat) (p : Config.PicSyntax) (n : Nat) : Nat :=
  if codec = 2 then b2n ((p.shorts.take 8).contains n)
  else if ((p.longs ++ p.shorts).take 16).contains n then (if p.longs.contains n then 2 else 1) else 0

/-- The raw samples of a plane: a monochrome stream's chroma is half the range, and the lines of two field pictures are interleaved
(R253). -/
def rawPlane (x : StreamCtx) (bytes : List Byte) (picture : Nat) (p : Config.PicSyntax) (refs : List Picture) (blocks : List Nat) (pl : Nat) : List Nat :=
  let d := planeDims p.width p.height pl
  let query (field pos : Nat) : Nat := Config.sample
    { codec := x.codec, before := x.history, bytes := bytes, picture := picture, plane := pl, field := field, pos := pos,
      refs := refs.map (fun q => q.planes), undecoded := blocks } % 2 ^ p.depth
  (List.range (d.1 * d.2)).map (fun pos =>
    if p.chroma = .monochrome ∧ pl ≠ 0 then 2 ^ (p.depth - 1)
    else if p.fields then query (1 + pos / d.1 % 2) (pos / d.1 / 2 * d.1 + pos % d.1)
    else query 0 pos)

/-- What a clip's pictures are decoded with: the bytes, the limits of its codec, its outputs, and the watchdogs that expired. -/
structure ClipParams where
  bytes : List Byte
  uint8 : Bool
  maxW : Nat
  maxH : Nat
  capW : Nat
  capH : Nat
  slot : Nat
  concealMax : Nat
  watchdogs : Tab Nat
deriving DecidableEq, Repr

/-- Decode one picture that passed its limits. A RASL picture that is hidden counts as no damage (R269). -/
def Clip.decodePic (a : ClipParams) (k : Clip) (hidden : Bool) (p : Config.PicSyntax) : Clip :=
  let r := Clip.claim (2 * k.ctx.fbCount + 2) k
  let i := r.1
  let k1 := r.2
  let x := k1.ctx
  let refs := p.refs.map (fun n => x.reference p.width p.height p.tenBit n)
  let wd := tabFind a.watchdogs k.decoded
  let late := match wd with
    | some rows => lateBlocks x.codec p rows
    | none => []
  let unit := blockUnit x.codec p
  let all := List.range (cdiv p.width unit * cdiv p.height unit)
  let errors := picErrors x.sets a.bytes.length p
  let lost := errors.flatMap (fun e => e.blocks)
  let blocks := all.filter (fun n => lost.contains n || late.contains n)
  let near := nearest x.codec p.order (refs.map (fun q => q.1))
  let planes := [0, 1, 2].map (fun pl =>
    blocks.foldl (fun m n => concealBlock p.width p.height p.tenBit near unit pl n m)
      (rawPlane x a.bytes k.decoded p (refs.map (fun q => q.1)) blocks pl))
  let missing := (refs.filter (fun q => q.2)).length
  let replaced := ((refs.zip p.predicted).filter (fun q => q.1.2)).flatMap (fun q => q.2)
  let bad := all.filter (fun n => blocks.contains n || replaced.contains n)
  let s := (bad.map (fun n => blockSamples p.width p.height unit n)).sum
  let fraction := min 65535 (65536 * s / (p.width * p.height))
  let n := x.pictures
  let waiting := p.shown && !hidden
  let mark (m : Nat) : Nat := markOf x.codec p m
  let pic : Picture :=
    { width := p.width, height := p.height, tenBit := p.tenBit, planes := planes, number := n, order := p.order, mark := mark n, waiting := waiting }
  let x1 := x.mapPics (fun q => { q with mark := mark q.number })
  let shown : Shown :=
    { pic := pic, fraction := fraction, start := p.start, resyncs := min errors.length 65535, missing := min missing 15, watchdog := wd.isSome,
      grain := p.grain, key := p.key, matrix := p.matrix % 8, fullRange := p.fullRange }
  { k1 with
    ctx := { x1 with buffers := listMod x1.buffers i (fun _ => some pic), last := some pic, pictures := n + 1, live := true },
    pending := if waiting then k1.pending ++ [shown] else k1.pending,
    resyncs := k1.resyncs + (if hidden then 0 else errors.length), missing := k1.missing + (if hidden then 0 else missing),
    watchdogs := k1.watchdogs + b2n wd.isSome, oob := k1.oob + strayWrites p,
    error := if hidden then k1.error else firstOffset k1.error (errors.map (fun e => e.offset)),
    decoded := k1.decoded + 1, largest := if hidden then k1.largest else max k1.largest fraction,
    corrupt := k1.corrupt || (!hidden && decide (a.concealMax < fraction)), claimed := k1.claimed ++ [i] }

/-- One picture of a clip: its limits, then the output capacity, then its decoding (R263, R271, R278). `first` is the offset of the task's
first access unit, and `cra` that of the CRA picture that a Fresh context entered at, whose RASL pictures are hidden (R269). -/
def Clip.step (a : ClipParams) (first : Nat) (cra : Option Nat) (k : Clip) (p : Config.PicSyntax) : Clip :=
  if k.stop.isSome then k
  else
    match picLimit k.ctx a.uint8 a.maxW a.maxH p (p.rap && !k.entered) k.sum (p.stop - first) with
    | some n => { k with stop := some (stInputLimit, n) }
    | none =>
      if a.capW < p.width then { k with stop := some (stShapeOver, p.width % 2 ^ 24 * 256 + a.slot * 8) }
      else if a.capH < p.height then { k with stop := some (stShapeOver, p.height % 2 ^ 24 * 256 + a.slot * 8 + 1) }
      else ({ k with sum := k.sum + pictureCost p, entered := k.entered || p.rap }).decodePic a (p.raslOf.isSome && decide (p.raslOf = cra)) p

/-- The pictures that a Fresh context decodes: those from the first random-access point on (R269). -/
def fromAccess (live : Bool) (l : List Config.PicSyntax) : List Config.PicSyntax := if live then l else l.dropWhile (fun p => !p.rap)

/-- Decode a clip of a context (R263-R269): its parameter sets join the context's, its output queue goes on, and when the input ends every
picture in the queue is output (DEDUCED from R271 and R273, log entry 42). -/
def decodeClip (a : ClipParams) (x : StreamCtx) : Clip :=
  let syn := Config.clip x.codec x.history a.bytes
  let k : Clip :=
    { ctx := { x with sets := x.sets.map (fun q => { q with offset := 0 }) ++ syn.sets }, out := [], pending := x.output, resyncs := 0, missing := 0,
      bumps := 0, watchdogs := 0, oob := 0, sum := 0, entered := false, error := firstOffset none (syn.sets.filterMap (fun q => q.error)), decoded := 0,
      largest := 0, corrupt := false, claimed := [], stop := none }
  let l := fromAccess x.live syn.pics
  let cra := if x.live then none else l.head?.bind (fun p => if p.cra then some p.start else none)
  let r := l.foldl (Clip.step a ((syn.pics.head?.map (fun p => p.start)).getD 0) cra) k
  let r1 := r.flush (r.pending.length + 1)
  { r1 with ctx := { r1.ctx with history := r1.ctx.history ++ a.bytes, output := r1.pending } }

/-- The output pictures that are written: STEP-th ones after SKIP, at most F, each with its INDEX. -/
def Clip.written (k : Clip) (skip step most : Nat) : List (Nat × Shown) :=
  (((List.range k.out.length).zip k.out).filter (fun p => decide (skip ≤ p.1) && decide ((p.1 - skip) % step = 0))).take most

/-- The status of a decode by R273, and whether the context stays Live. -/
def Clip.status (k : Clip) (written extent : Nat) : Nat × Nat × Bool :=
  match k.stop with
  | some (st, d) => (st, d, false)
  | none =>
    if written = 0 ∨ k.corrupt then (stInputCorrupt, k.error.getD extent, false)
    else if 0 < k.largest then (stConcealed, k.largest, true)
    else (stOk, 0, true)

/-! ## Writing a clip (R271, R272) -/

/-- The 32 bytes of a frame record. -/
def Shown.record (u : Shown) (index concealMax : Nat) : List Byte :=
  let st := if u.fraction = 0 then stOk else if u.fraction ≤ concealMax then stConcealed else stInputCorrupt
  leBytes 8 (index % 2 ^ 32 * 2 ^ 32 + st * 65536 + u.fraction) ++ leBytes 8 u.start ++
    leBytes 8 (u.resyncs * 2 ^ 48 + u.missing * 2 ^ 44 + b2n u.watchdog * 2 ^ 43 + b2n u.grain * 2 ^ 42 + b2n u.key * 2 ^ 41 + u.matrix * 2 ^ 38 +
      b2n u.fullRange * 2 ^ 37) ++ leBytes 8 0

/-- A run of codes as a row to be written. -/
def codesRow (cs : List Nat) : RowOut := { codes := cs, scales := [], stats := ConvStats.zero }

/-- The cells of a picture at frame `f` (and batch position `p`) of a luma and a chroma tensor. -/
def Block.pictureCells (b : Block) (a : Access) (y u : Tensor) (f p : Nat) (pic : Picture) : Res (List Host.Cell) :=
  let cw := cdiv pic.width 2
  let plane (i : Nat) : List Nat := pic.planes.getD i []
  match concatRes (fun r => b.rowCells a y (r, f, p, 0) (codesRow ((plane 0).drop (r * pic.width) |>.take pic.width))) (List.range pic.height) with
  | .error e => .error e
  | .ok cs =>
    match concatRes (fun i => b.rowCells a u (i % cw, i / cw, f, p) (codesRow [(plane 1).getD i 0, (plane 2).getD i 0])) (List.range (cw * cdiv pic.height 2)) with
    | .error e => .error e
    | .ok ds => .ok (cs ++ ds)

/-- The bytes of the buffers that a clip claimed become open values: no rule gives their layout (log entry 41). -/
def Block.poolCells (b : Block) (a : Access) (x : StreamCtx) (draw : Nat) (claimed : List Nat) : Res (List Host.Cell) :=
  let n := fbSize x.maxW x.maxH x.bit10
  concatRes (fun i => b.wrCells a 8 (x.fbBase + i * n) ((List.range n).map (fun j => Config.poolByte draw (i * n + j)))) claimed.eraseDups

/-- The counts of HB_VID_EVENTS that a clip adds. -/
def Block.countClip (b : Block) (h : HalfId) (k : Clip) : Block :=
  ((((b.count (vidReg h 0x20) 63 48 k.watchdogs).count (vidReg h 0x20) 47 32 k.resyncs).count (vidReg h 0x20) 31 16 k.missing).count
    (vidReg h 0x20) 15 8 k.bumps).count (vidReg h 0x20) 7 0 k.oob

/-- The counts of HB_VID_LIMIT_STAT that a clip's status adds. -/
def Block.countStatus (b : Block) (h : HalfId) (st : Nat) : Block :=
  if st = stInputLimit then b.count (vidReg h 0x28) 63 32 1 else if st = stInputCorrupt then b.count (vidReg h 0x28) 31 0 1 else b

/-- HB_VID_MAX_c. -/
def Block.vidMax (b : Block) (h : HalfId) (codec : Nat) : Nat × Nat :=
  (b.regFld (vidReg h (8 + 8 * codec)) 29 16, b.regFld (vidReg h (8 + 8 * codec)) 13 0)

/-- A task that holds a context stops at an access: a far byte is awaited, and any failure leaves the context Fresh (R278). -/
def Block.stopStream (b : Block) (t : TaskRef) (i : Nat) (e : Stop) : Block :=
  match e with
  | .need _ _ => b.stop t e
  | .ended _ _ => (b.modStream t.half i (fun x => x.fresh)).stop t e
  | .bad _ => (b.modStream t.half i (fun x => x.fresh)).stop t e

/-- What a decode task's end needs: its clip, the pictures written, its status and DETAIL and whether its context stays Live. -/
def Block.endDecode (b : Block) (t : TaskRef) (g : Graph) (c : TaskCtx) (k : Clip) (n : Nat) (r : Nat × Nat × Bool) (cells : List Host.Cell) : Block :=
  let i := c.desc.ctxNo
  let dims := (k.ctx.last.map (fun p => (p.width, p.height))).getD (0, 0)
  let b1 := (((b.setStream t.half i (if r.2.2 then k.ctx else k.ctx.fresh)).countClip t.half k).countStatus t.half r.1).countUnit t k.decoded
  let b2 := b1.modTask t (fun c => { c with shapeOut := [dims.1, dims.2, n] })
  if c.desc.pf 0 46 46 = 1 ∧ (r.1 = stInputLimit ∨ r.1 = stInputCorrupt ∨ r.1 = stConcealed) then
    let a := b2.taskAccess t.half g c
    match b2.wrCells a 8 (c.desc.pf 2 47 0 + 20) (leBytes 2 r.1), b2.wrCells a 8 (c.desc.pf 2 47 0 + 28) (leBytes 4 r.2.1) with
    | .ok m, .ok d => b2.land t (cells ++ m ++ d) stOk 0
    | .error e, _ => (b2.landCells cells).1.stop t e
    | .ok _, .error e => (b2.landCells cells).1.stop t e
  else b2.land t cells r.1 r.2.1

/-- What a clip decode gives (R273): the clip, the pictures written, its status, and its stores. -/
structure DecodeRun where
  clip : Clip
  frames : Nat
  status : Nat × Nat × Bool
  cells : List Host.Cell
deriving DecidableEq, Repr

/-- A clip decoded into its tensors, its records and the pool (R273, R257). -/
def Block.decodeRun (b : Block) (t : TaskRef) (g : Graph) (c : TaskCtx) (x : StreamCtx) (draw : Nat) : Res DecodeRun :=
  let d := c.desc
  let a := b.taskAccess t.half g c
  match b.rdN a 0 (c.tensor 0).base ((c.tensor 0).ext 0) with
  | .error e => .error e
  | .ok bytes =>
    if b.scratchOk g.slot x.fbBase x.poolBytes = false then .error (.ended stXlate 8)
    else
      let lim := b.vidMax t.half x.codec
      let y := c.tensor 1
      let k := decodeClip { bytes := bytes, uint8 := decide (y.fmt = 0x0C), maxW := lim.1, maxH := lim.2, capW := y.cap 0, capH := y.cap 1, slot := 1,
                            concealMax := d.pf 1 63 48, watchdogs := c.watchdogs } x
      let ws := k.written (d.pf 0 31 16) (d.pf 0 15 8) (y.cap 2)
      match concatRes (fun p => match b.pictureCells a y (c.tensor 2) p.1 0 p.2.2.pic with
          | .error e => .error e
          | .ok cs => (b.wrCells a 3 ((c.tensor 3).rowVa (p.1, 0, 0, 0)) (p.2.2.record p.2.1 (d.pf 1 63 48))).map (fun rs => cs ++ rs))
          ((List.range ws.length).zip ws) with
      | .error e => .error e
      | .ok cells => (b.poolCells a x draw k.claimed).map (fun pool =>
          { clip := k, frames := ws.length, status := k.status ws.length bytes.length,
            cells := pool ++ cells })

/-- DECODE (R273): the clip at the head of its context. -/
def execDecode (t : TaskRef) (s : State) : Host.Outcome State Fault Refusal :=
  s.act (fun b => b.onRunning t 0x09 (fun g c =>
    let i := c.desc.ctxNo
    if c.desc.mediaOp ≠ 1 then b
    else match b.stream t.half i with
      | none => b.fix t stAdmission (offDesc 101)
      | some x =>
        if b.holder t.half i ≠ some t then b
        else
          let n := (b.touch t g c).fresh
          match n.2.decodeRun t g c x n.1 with
          | .error e => n.2.stopStream t i e
          | .ok r => n.2.endDecode t g c r.clip r.frames r.status r.cells))

/-- FRAME_WATCHDOG (R265): the rows of the clip's picture not yet written are concealed. -/
def execFrameWatchdog (t : TaskRef) (picture rowsWritten : Nat) (s : State) : Host.Outcome State Fault Refusal :=
  s.act (fun b => b.onRunning t 0x09 (fun _ c =>
    if c.desc.mediaOp = 1 ∨ c.desc.mediaOp = 0x14 then b.modTask t (fun c => { c with watchdogs := tabPut c.watchdogs picture rowsWritten }) else b))

/-! ## Motion statistics (R275, R276) -/

/-- A luma picture: its size, bit depth and samples. -/
structure Luma where
  w : Nat
  h : Nat
  depth : Nat
  px : List Nat
deriving DecidableEq, Repr

/-- A sample, the nearest edge's beyond the picture. -/
def Luma.at (l : Luma) (x y : Int) : Nat :=
  let cx := (max 0 (min x ((l.w : Int) - 1))).toNat
  let cy := (max 0 (min y ((l.h : Int) - 1))).toNat
  l.px.getD (cy * l.w + cx) 0

/-- The HEVC luma interpolation taps of a quarter-sample phase (PRESUMED, ITU-T H.265, log entry 43). -/
def lumaTaps : Nat → List Int
  | 0 => [0, 0, 0, 64, 0, 0, 0, 0]
  | 1 => [-1, 4, -10, 58, 17, -5, 1, 0]
  | 2 => [-1, 4, -11, 40, 40, -11, 4, -1]
  | _ => [0, 1, -5, 17, 58, -10, 4, -1]

/-- A weighted sum of eight values. -/
def tapSum (ts : List Int) (f : Nat → Int) : Int := ((ts.zip (List.range 8)).map (fun p => p.1 * f p.2)).sum

/-- The sample at a quarter-pel position (PRESUMED, ITU-T H.265, log entry 43): rows first, then columns, then rounding to the depth. -/
def Luma.quarter (l : Luma) (qx qy : Int) : Nat :=
  let ix := qx / 4
  let iy := qy / 4
  let fx := (qx % 4).toNat
  let fy := (qy % 4).toNat
  if fx = 0 ∧ fy = 0 then l.at ix iy
  else
    let row (y : Int) : Int := tapSum (lumaTaps fx) (fun i => (l.at (ix + i - 3) y : Int)) / 2 ^ (l.depth - 8)
    let v := if fy = 0 then row iy
      else if fx = 0 then tapSum (lumaTaps fy) (fun i => (l.at ix (iy + i - 3) : Int)) / 2 ^ (l.depth - 8)
      else tapSum (lumaTaps fy) (fun i => row (iy + i - 3)) / 64
    let sh := 14 - l.depth
    (max 0 (min ((v + 2 ^ (sh - 1)) / 2 ^ sh) (2 ^ l.depth - 1 : Int))).toNat

/-- A motion vector in quarter-pel. -/
abbrev Mv := Int × Int

/-- The sum of absolute differences of a block at a vector. -/
def sadAt (cur prev : Luma) (bx by_ : Nat) (v : Mv) : Nat :=
  ((List.range 256).map (fun (i : Nat) =>
    let x : Int := (16 * bx + i % 16 : Nat)
    let y : Int := (16 * by_ + i / 16 : Nat)
    ((cur.at x y : Int) - (prev.quarter (4 * x + v.1) (4 * y + v.2) : Int)).natAbs)).sum

/-- The median of three. -/
def median3 (a b c : Int) : Int := max (min a b) (min (max a b) c)

/-- A vector rounded to integer-pel, in quarter-pel (R275). -/
def roundMv (v : Mv) : Mv := ((v.1 + 2) / 4 * 4, (v.2 + 2) / 4 * 4)

/-- The horizontal and vertical clamps of a block: ±512, ±256 and the padded picture. -/
def mvBounds (w h bx by_ : Nat) : (Int × Int) × (Int × Int) :=
  ((max (-512) (-(4 * (16 * (bx : Int) + 64))), min 512 (4 * ((w : Int) + 64 - 16 * bx - 16))),
   (max (-256) (-(4 * (16 * (by_ : Int) + 64))), min 256 (4 * ((h : Int) + 64 - 16 * by_ - 16))))

/-- A vector clamped. -/
def clampMv (bd : (Int × Int) × (Int × Int)) (v : Mv) : Mv := (max bd.1.1 (min v.1 bd.1.2), max bd.2.1 (min v.2 bd.2.2))

/-- Whether a vector lies within the clamps. -/
def inBounds (bd : (Int × Int) × (Int × Int)) (v : Mv) : Bool :=
  decide (bd.1.1 ≤ v.1) && decide (v.1 ≤ bd.1.2) && decide (bd.2.1 ≤ v.2) && decide (v.2 ≤ bd.2.2)

/-- The cost J of a vector (R275). -/
def mvCost (lambda : Nat) (p v : Mv) (sad : Nat) : Nat := sad + lambda * ((v.1 - p.1).natAbs + (v.2 - p.2).natAbs) / 256

/-- The best of a list of vectors by a cost, and the first where costs tie. -/
def bestMv (cost : Mv → Nat) : List (Mv × Nat) → Option (Mv × Nat × Nat)
  | [] => none
  | (v, g) :: l =>
    let j := cost v
    match bestMv cost l with
    | none => some (v, g, j)
    | some r => if r.2.2 < j then some r else some (v, g, j)

/-- One pass over positions around a vector: the lowest cost, if strictly better. -/
def refineMv (bd : (Int × Int) × (Int × Int)) (cost : Mv → Nat) (offs : List Mv) (v : Mv) (j : Nat) : Option (Mv × Nat) :=
  match bestMv cost (((offs.map (fun o => (v.1 + o.1, v.2 + o.2))).filter (fun u => inBounds bd u)).map (fun u => (u, 0))) with
  | none => none
  | some r => if r.2.2 < j then some (r.1, r.2.2) else none

/-- Integer refinement: up to `n` moves. -/
def refineInt (bd : (Int × Int) × (Int × Int)) (cost : Mv → Nat) : Nat → Mv → Nat → Mv × Nat
  | 0, v, j => (v, j)
  | n + 1, v, j => match refineMv bd cost [(-4, 0), (4, 0), (0, -4), (0, 4)] v j with
    | none => (v, j)
    | some r => refineInt bd cost n r.1 r.2

/-- The eight positions around a vector at a step, in order. -/
def around (s : Int) : List Mv := [(-s, -s), (0, -s), (s, -s), (-s, 0), (s, 0), (-s, s), (0, s), (s, s)]

/-- The candidates of a block, each with its group (R275, R276): vectors not above an earlier equal. -/
def dedupMv : List (Mv × Nat) → List Mv → List (Mv × Nat)
  | [], _ => []
  | p :: l, seen => if seen.contains p.1 then dedupMv l seen else p :: dedupMv l (p.1 :: seen)

/-- The final vector, group and SAD of a block. -/
def searchBlock (cur prev : Luma) (lambda : Nat) (prevMvs done : List Mv) (global : Mv) (cols i : Nat) : Mv × Nat × Nat :=
  let bx := i % cols
  let by_ := i / cols
  let bd := mvBounds cur.w cur.h bx by_
  let have_ (ok : Bool) (j : Nat) : Mv := if ok then done.getD j (0, 0) else (0, 0)
  let left := have_ (0 < bx) (i - 1)
  let above := have_ (0 < by_) (i - cols)
  let rightIn := decide (bx + 1 < cols)
  let aboveRight := have_ (decide (0 < by_) && rightIn) (i + 1 - cols)
  let aboveLeft := have_ (decide (0 < by_) && decide (0 < bx)) (i - 1 - cols)
  let p : Mv := (median3 left.1 above.1 aboveRight.1, median3 left.2 above.2 aboveRight.2)
  let cost (v : Mv) : Nat := mvCost lambda p v (sadAt cur prev bx by_ v)
  let cands := [((0, 0), 0), (left, 1), (above, 1), (if rightIn then aboveRight else aboveLeft, 1), (prevMvs.getD i (0, 0), 2), (global, 3)]
  match bestMv cost (dedupMv (cands.map (fun q => (clampMv bd (roundMv q.1), q.2))) []) with
  | none => ((0, 0), 0, 0)
  | some r =>
    let a := refineInt bd cost 32 r.1 r.2.2
    let b := (refineMv bd cost (around 2) a.1 a.2).getD a
    let c := (refineMv bd cost (around 1) b.1 b.2).getD b
    (c.1, r.2.1, sadAt cur prev bx by_ c.1)

/-- Every block of a picture in raster order. -/
def searchAll (cur prev : Luma) (lambda : Nat) (prevMvs : List Mv) (global : Mv) (cols : Nat) : Nat → Nat → List (Mv × Nat × Nat) → List (Mv × Nat × Nat)
  | 0, _, acc => acc
  | n + 1, i, acc => searchAll cur prev lambda prevMvs global cols n (i + 1)
      (acc ++ [searchBlock cur prev lambda prevMvs (acc.map (fun q => q.1)) global cols i])

/-- The lower median of a list of integers. -/
def lowerMedian (l : List Int) : Int := (sortBy (fun a b => decide (a ≤ b)) l).getD ((l.length - 1) / 2) 0

/-- The global vector of the previous picture's final vectors (R275). -/
def globalMv (l : List Mv) : Mv := if l.isEmpty then (0, 0) else roundMv (lowerMedian (l.map (fun v => v.1)), lowerMedian (l.map (fun v => v.2)))

/-- The 8-byte motion record of a block (R276). -/
def motionRecord (r : Mv × Nat × Nat) : Nat := twos 16 r.1.1 * 2 ^ 48 + twos 16 r.1.2 * 2 ^ 32 + r.2.1 * 2 ^ 28 + r.2.2 % 2 ^ 18

/-- The samples of a block. -/
def Luma.block (l : Luma) (bx by_ : Nat) : List Nat := (List.range 256).map (fun i => l.at (16 * bx + i % 16 : Nat) (16 * by_ + i / 16 : Nat))

/-- The motion records and the complexity record of a picture, and its final vectors (R275, R276). -/
def motionOf (cur : Luma) (prev : Option Luma) (prevMvs : List Mv) (lambda : Nat) : List Nat × List Byte × List Mv :=
  let cols := cdiv cur.w 16
  let n := cols * cdiv cur.h 16
  let global := if prev.isSome then globalMv prevMvs else (0, 0)
  let rs := match prev with
    | none => List.replicate n (((0, 0) : Mv), 0, 0)
    | some p => searchAll cur p lambda prevMvs global cols n 0 []
  let means := (List.range n).map (fun i => (cur.block (i % cols) (i / cols)).sum / 256)
  let act := ((List.range n).map (fun i => ((cur.block (i % cols) (i / cols)).map (fun (s : Nat) => ((s : Int) - (means.getD i 0 : Nat)).natAbs)).sum)).sum
  (rs.map motionRecord,
   leBytes 8 ((rs.map (fun r => r.2.2)).sum) ++ leBytes 8 act ++ leBytes 8 (n * 2 ^ 32 + means.sum / n % 65536 * 65536 + b2n prev.isNone) ++
     leBytes 8 (twos 16 global.1 * 65536 + twos 16 global.2),
   rs.map (fun r => r.1))

/-- The records of a run of frames, and the source picture and vectors after it. -/
def motionAll (lambda : Nat) : List Luma → Option Luma → List Mv → List (List Nat × List Byte) × Option Luma × List Mv
  | [], p, v => ([], p, v)
  | l :: ls, p, v =>
    let m := motionOf l p v lambda
    let r := motionAll lambda ls (some l) m.2.2
    ((m.1, m.2.1) :: r.1, r.2)

/-- The frames whose bytes fit in the output, whole. -/
def fitFrames (cap : Nat) : List (List Byte) → Nat → Nat × Nat
  | [], n => (0, n)
  | f :: fs, n => if cap < n + f.length then (0, n + f.length) else let r := fitFrames cap fs (n + f.length); (r.1 + 1, r.2)

/-- Whether picture `n` of a context is an I picture (R274): the context's first, and every I_PERIOD-th after it. -/
def TaskDesc.encodesIntra (d : TaskDesc) (n : Nat) : Bool := n = 0 || (d.pf 1 45 30 ≠ 0 && decide (n % d.pf 1 45 30 = 0))

/-- An HEVC NAL unit of the Annex B byte stream (PRESUMED, ITU-T H.265 Annex B, log entry 43). -/
def annexB (payload : List Byte) : List Byte := leBytes 4 0x01000000 ++ payload

/-- The bytes of an encoded picture (R254): HEVC puts VPS, SPS and PPS before each I picture, each a NAL unit; AV1 puts a temporal
delimiter before each frame and a sequence header before each key frame. The delimiter's bytes are PRESUMED (AV1, log entry 43). -/
def frameBytes (q : Config.EncodeQuery) : List Byte :=
  let sets := if q.intra then Config.encodedSets q else []
  if q.codec = 0 then (sets.flatMap annexB) ++ annexB (Config.encodedPicture q)
  else leBytes 2 0x0012 ++ sets.flatten ++ Config.encodedPicture q

/-- The query of picture `n` of a context that has taken `inputs`: its type, its quantiser, and its references, each a previous
reconstructed picture (R254, R274). -/
def StreamCtx.encodeQuery (x : StreamCtx) (d : TaskDesc) (inputs : List Config.EncodeInput) (n : Nat) : Config.EncodeQuery :=
  let intra := d.encodesIntra n
  { codec := x.codec, bit10 := x.bit10, inputs := inputs, picture := n, intra := intra, qp := if intra then d.pf 1 63 56 else d.pf 1 55 48,
    refs := if intra then 0 else min (d.pf 1 47 46 + 1) n }

/-- What an encode gives (R274-R276): the context after it, the pictures and bytes that fit, whether a picture did not, and its stores. -/
structure EncodeRun where
  ctx : StreamCtx
  frames : Nat
  bytes : Nat
  excess : Bool
  cells : List Host.Cell
deriving DecidableEq, Repr

/-- Pictures encoded into a bitstream, with their motion and complexity statistics (R274-R276). -/
def Block.encodeRun (b : Block) (t : TaskRef) (g : Graph) (c : TaskCtx) (x : StreamCtx) : Res EncodeRun :=
  let d := c.desc
  let a := b.taskAccess t.half g c
  let y := c.tensor 0
  let u := c.tensor 1
  match mapRes (fun r => mapRes (fun j => b.elemCode a y j r) (List.range (y.ext 0))) y.rows,
      mapRes (fun r => mapRes (fun j => b.elemCode a u j r) (List.range 2)) u.rows with
  | .error e, _ => .error e
  | .ok _, .error e => .error e
  | .ok ys, .ok us =>
    if b.scratchOk g.slot x.fbBase x.poolBytes = false then .error (.ended stXlate 8)
    else
      let f := y.ext 2
      let wide := if x.bit10 then 10 else 8
      let frames := (List.range f).map (fun j => ({ w := y.ext 0, h := y.ext 1, depth := wide, px := ((ys.drop (j * y.ext 1)).take (y.ext 1)).flatten } : Luma))
      let input : Config.EncodeInput :=
        { width := y.ext 0, height := y.ext 1, bytes := ((ys ++ us).flatten).flatMap (fun v => leBytes 2 v), params := d.params.map (fun w => w.toNat) }
      let analysis := d.pf 0 46 46 = 1
      let streams := if analysis then [] else (List.range f).map (fun j => frameBytes (x.encodeQuery d (x.inputs ++ [input]) (x.pictures + j)))
      let fit := fitFrames ((c.tensor 2).cap 0) streams 0
      let m := motionAll (d.pf 1 29 14) frames (x.source.map (fun p => ({ w := y.ext 0, h := y.ext 1, depth := wide, px := p } : Luma))) x.vectors
      let x1 := { x with live := true, pictures := x.pictures + f, inputs := x.inputs ++ [input], source := m.2.1.map (fun l => l.px), vectors := m.2.2 }
      let excess := !analysis && decide (fit.1 < f)
      match (if analysis then .ok [] else b.wrCells a 2 (c.tensor 2).base ((streams.take fit.1).flatten)),
          concatRes (fun p => match b.wrCells a 4 ((c.tensor 4).rowVa (p.1, 0, 0, 0)) p.2.2 with
            | .error e => .error e
            | .ok cs => (concatRes (fun r => b.wrCells a 3 ((c.tensor 3).rowVa (r, p.1, 0, 0))
                (((p.2.1.drop (r * cdiv (y.ext 0) 16)).take (cdiv (y.ext 0) 16)).flatMap (fun v => leBytes 8 v))) (List.range (cdiv (y.ext 1) 16))).map (fun rs => cs ++ rs))
            ((List.range f).zip m.1) with
      | .error e, _ => .error e
      | .ok _, .error e => .error e
      | .ok bs, .ok rs =>
        .ok { ctx := if excess then x1.fresh else x1, frames := if excess then fit.1 else f, bytes := fit.2, excess := excess, cells := bs ++ rs }

/-- ENCODE (R274). -/
def execEncode (t : TaskRef) (s : State) : Host.Outcome State Fault Refusal :=
  s.act (fun b => b.onRunning t 0x09 (fun g c =>
    let i := c.desc.ctxNo
    if c.desc.mediaOp ≠ 2 then b
    else match b.stream t.half i with
      | none => b.fix t stAdmission (offDesc 101)
      | some x =>
        if b.holder t.half i ≠ some t then b
        else
          let b0 := b.touch t g c
          match b0.encodeRun t g c x with
          | .error e => b0.stopStream t i e
          | .ok r =>
            let b1 := ((b0.setStream t.half i r.ctx).countUnit t r.frames).modTask t (fun c => { c with shapeOut := [r.bytes] })
            if r.excess then b1.land t r.cells stShapeOver (r.bytes % 2 ^ 24 * 256 + 16) else b1.land t r.cells stOk 0))

end Sys2Proof.Machine
end

