-- ==== Sys2Proof/Machine/Sound.lean ====
section
/-! DEFINITION. The arithmetic of sound: resampling and log-mel frames (spec/11_harbour_images_audio_text.md R290, R291). A value that a
rule evaluates in FP64 is formed to 256 bits and rounded once to FP64, then to FP32 (DEDUCED, log entry 44). -/

namespace Sys2Proof.Machine

/-- π in fixed point, rounded down. -/
def fixPi : Nat := 0x3243f6a8885a308d313198a2e03707344a4093822299f31d0082efa98ec4e6c89

/-- The alternating terms of the sine series from the one given on, summed. -/
def sinTerms (y2 : Int) : Nat → Nat → Int → Int
  | 0, _, _ => 0
  | n + 1, k, term => term + sinTerms y2 n (k + 1) (-(term * y2 / (fixOne : Int)) / ((2 * k + 2) * (2 * k + 3) : Nat))

/-- The sine of (π / 2)(r / d), for 0 ≤ r ≤ d, in fixed point. -/
def sinQuarter (r d : Nat) : Int :=
  let y : Int := (fixPi * r / (2 * d) : Nat)
  sinTerms (y * y / (fixOne : Int)) 48 0 y

/-- The sine of 2π a / d. -/
def sinTurn (a d : Nat) : Int :=
  let x := a % d
  let q := 4 * x / d
  let r := 4 * x - q * d
  match q with
  | 0 => sinQuarter r d
  | 1 => sinQuarter (d - r) d
  | 2 => -sinQuarter r d
  | _ => -sinQuarter (d - r) d

/-- The cosine of 2π a / d. -/
def cosTurn (a d : Nat) : Int := sinTurn (4 * a + d) (4 * d)

/-- FP64. -/
def fmtF64 : FloatFmt := { eb := 11, mb := 52, bias := 1023, top := .ieee, nan := 0x7FF8000000000000 }

/-- A fixed-point number as a value. -/
def fixV (x : Int) : Val := ofScaled x (-256) false

/-- A value rounded to FP64, then to FP32. -/
def via64 (v : Val) : Nat := toF32 (decodeF fmtF64 (toPlain fmtF64 false .nearest v).1)

/-! ## Resampling (R290) -/

/-- The terms t^k / (k!)² summed: I0 of 2√t, in fixed point. -/
def besselTerms (t : Nat) : Nat → Nat → Nat → Nat
  | 0, _, _ => 0
  | n + 1, k, term => term + besselTerms t n (k + 1) (term * t / fixOne / ((k + 1) * (k + 1)))

/-- The tap weight h(x), FP32 bits, at x = q / 256 (R290): 2f_c · sinc(2f_c x) × Kaiser(8, 16), 2f_c being 18 m / 20 R of the lower and the
source rate. -/
def tapWeight (low src q : Nat) : Nat :=
  let a := 18 * low * q
  let d := 5120 * src
  let sinc : Int := if a = 0 then (fixOne : Int) else sinTurn a (2 * d) * (fixOne : Int) * (d : Int) / ((fixPi * a : Nat) : Int)
  let t := 16 * (4096 * 4096 - q * q) * fixOne / (4096 * 4096)
  let k : Int := ((besselTerms t 90 0 fixOne * fixOne / besselTerms (16 * fixOne) 90 0 fixOne : Nat) : Int)
  via64 (fixV (sinc * k / (fixOne : Int) * (18 * low : Nat) / (20 * src : Nat)))

/-- A distance p / d in source samples, in units of 1/256, rounded to nearest, ties down. -/
def quantTap (p : Int) (d : Nat) : Int := (512 * p + (d : Int) - 1) / (2 * d : Nat)

/-- Output sample `n` at a rate (R290): 32 taps around n × src / dst, from 15 below its floor on (DEDUCED, log entry 44). -/
def resampleAt (xs : List Nat) (src dst n : Nat) : Nat :=
  let base : Int := ((n * src / dst : Nat) : Int) - 15
  (List.range 32).foldl (fun (acc j : Nat) =>
    let i : Int := base + j
    let x := if 0 ≤ i then xs.getD i.toNat 0 else 0
    fmaF (tapWeight (min src dst) src (quantTap (((n * src : Nat) : Int) - i * dst) dst).natAbs) x acc) 0

/-- A waveform at a rate; ⌈N × dst / src⌉ samples (DEDUCED, log entry 44). -/
def resample (xs : List Nat) (src dst : Nat) : List Nat :=
  if src = dst then xs else (List.range (cdiv (xs.length * dst) src)).map (fun n => resampleAt xs src dst n)

/-! ## Log-mel frames (R291) -/

/-- An audio profile. -/
structure AudioProfile where
  rate : Nat
  mels : Nat
  win : Nat
  hop : Nat
  concealMax : Nat
  fmin : Nat
  fmax : Nat
  floor : Nat
  scale : Nat
deriving DecidableEq, Repr

/-- The profile that 32 bytes hold. -/
def parseProfile (l : List Byte) : AudioProfile :=
  let w0 := u64At l 0
  { rate := [16000, 24000, 48000, 0].getD (bits w0 63 62) 0, mels := bits w0 61 53, win := bits w0 52 40, hop := bits w0 39 28,
    concealMax := bits w0 27 12, fmin := bits (u64At l 8) 63 32, fmax := bits (u64At l 8) 31 0, floor := bits (u64At l 16) 63 32,
    scale := bits (u64At l 16) 31 0 }

/-- Whether a profile keeps the ranges of R291. -/
def profileOk (l : List Byte) : Bool :=
  let p := parseProfile l
  decide (p.rate ≠ 0) && decide (1 ≤ p.mels) && decide (p.mels ≤ 256) && decide (16 ≤ p.win) && decide (p.win ≤ 4096) && decide (1 ≤ p.hop) &&
    decide (bits (u64At l 0) 11 0 = 0) && decide (u64At l 24 = 0) && !(ltV (f32 p.fmin) (.fin false 0 0)) && ltV (f32 p.fmin) (f32 p.fmax) &&
    !(ltV (ofInt (p.rate / 2 : Nat)) (f32 p.fmax))

/-- The Hann window value w[n] (R291 step 1). -/
def hann (n win : Nat) : Nat := via64 (fixV (((fixOne : Int) - cosTurn n win) / 2))

/-- The elements of a list at even places, and at odd ones. -/
def evens {α : Type} : List α → List α
  | [] => []
  | [x] => [x]
  | x :: _ :: l => x :: evens l

/-- A butterfly's twiddle times a value (R291 step 3). -/
def twiddleMul (k n : Nat) (x : Nat × Nat) : Nat × Nat :=
  let wr := toF32 (fixV (cosTurn k n))
  let wi := toF32 (negV (fixV (sinTurn k n)))
  (fmaF wr x.1 (negF (mulF wi x.2)), fmaF wr x.2 (mulF wi x.1))

/-- The radix-2 decimation-in-time transform of 2^m values: the halves of bit-reversed input, joined in ascending span. -/
def fft : Nat → List (Nat × Nat) → List (Nat × Nat)
  | 0, l => l
  | m + 1, l =>
    let e := fft m (evens l)
    let o := fft m (evens (l.drop 1))
    let ts := (o.zip (List.range o.length)).map (fun p => twiddleMul p.2 (2 * o.length) p.1)
    (e.zip ts).map (fun p => (addF p.1.1 p.2.1, addF p.1.2 p.2.2)) ++ (e.zip ts).map (fun p => (subF p.1.1 p.2.1, subF p.1.2 p.2.2))

/-- The least power of two not below a window. -/
def fftLog (win : Nat) : Nat := if 2 ^ Nat.log2 win = win then Nat.log2 win else Nat.log2 win + 1

/-- The value that a masked bin takes (R297), and the least value of a frame. -/
def melFloorOut (p : AudioProfile) : Nat := mulF (log2F p.floor) p.scale

/-- A frequency plus 700, at exponent -149: HTK's mel of it grows as its logarithm (R291). -/
def mel700 (f : Nat) : Nat := 700 * 2 ^ 149 + match f32 f with
  | .fin s m e => (scaled s m e (-149)).toNat
  | _ => 0

/-- Whether bin `k` of an `n`-point transform lies inside filter `b`, between its outer points, compared exactly: point `i` of N_MELS + 2, evenly
spaced in m, stands where (f + 700)^(N_MELS + 1) is the product of FMIN + 700 and FMAX + 700 to the powers N_MELS + 1 - i and i. -/
def melInside (p : AudioProfile) (n b k : Nat) : Bool :=
  let c := p.mels + 1
  let point (i : Nat) : Nat := mel700 p.fmin ^ (c - i) * mel700 p.fmax ^ i
  let bin := (700 * 2 ^ 149 + k * p.rate * 2 ^ 149 / n) ^ c
  decide (point b < bin) && decide (bin < point (b + 2))

/-- The weight of filter `b` at bin `k`: +0 outside its triangle. -/
def melWeight (p : AudioProfile) (n b k : Nat) : Nat :=
  if melInside p n b k then Config.melWeight [p.rate, n, p.fmin, p.fmax, p.mels] b k else 0

/-- Frame `t` of a clip: its N_MELS values (R291). -/
def melFrame (p : AudioProfile) (xs : List Nat) (t : Nat) : List Nat :=
  let m := fftLog p.win
  let n := 2 ^ m
  let frame := (List.range n).map (fun i => if i < p.win then (mulF (xs.getD (t * p.hop + i) 0) (hann i p.win), 0) else (0, 0))
  let power := ((fft m frame).take (n / 2 + 1)).map (fun z => fmaF z.1 z.1 (mulF z.2 z.2))
  (List.range p.mels).map (fun b =>
    let mel := (power.zip (List.range power.length)).foldl (fun acc q => fmaF (melWeight p n b q.2) q.1 acc) 0
    mulF (log2F (maxF mel p.floor)) p.scale)

/-- The log-mel frames of a waveform. -/
def melFrames (p : AudioProfile) (xs : List Nat) : List (List Nat) := (List.range (cdiv xs.length p.hop)).map (fun t => melFrame p xs t)

end Sys2Proof.Machine
end

