-- ==== Sys2Proof/Machine/Text.lean ====
section
/-! DEFINITION. Text: UTF-8 validation, byte-pair encoding and packing (spec/11_harbour_images_audio_text.md R292-R295). -/

namespace Sys2Proof.Machine

/-! ## Validation (R292) -/

/-- The range of the second byte that may follow a lead byte, and the length of the sequence, by the well-formedness table of the Unicode
Standard (PRESUMED, log entry 45). -/
def utf8Lead (x : Nat) : Option (Nat × Nat × Nat) :=
  if 0xC2 ≤ x ∧ x ≤ 0xDF then some (0x80, 0xBF, 2)
  else if x = 0xE0 then some (0xA0, 0xBF, 3)
  else if x = 0xED then some (0x80, 0x9F, 3)
  else if 0xE1 ≤ x ∧ x ≤ 0xEF then some (0x80, 0xBF, 3)
  else if x = 0xF0 then some (0x90, 0xBF, 4)
  else if 0xF1 ≤ x ∧ x ≤ 0xF3 then some (0x80, 0xBF, 4)
  else if x = 0xF4 then some (0x80, 0x8F, 4)
  else none

/-- How many further bytes of a sequence stand in their ranges, up to `n`. -/
def utf8Tail (lo hi : Nat) : Nat → List Nat → Nat
  | 0, _ => 0
  | _, [] => 0
  | n + 1, x :: xs => if lo ≤ x ∧ x ≤ hi then 1 + utf8Tail 0x80 0xBF n xs else 0

/-- The code point of a well-formed sequence. -/
def codePoint (l : List Nat) : Nat :=
  match l with
  | [a] => a
  | [a, b] => a % 32 * 64 + b % 64
  | [a, b, c] => a % 16 * 4096 + b % 64 * 64 + c % 64
  | [a, b, c, d] => a % 8 * 262144 + b % 64 * 4096 + c % 64 * 64 + d % 64
  | _ => 0

/-- The first character of bytes: the code point, or none for a maximal ill-formed subpart, and its length. -/
def utf8Next (l : List Nat) : Option Nat × Nat :=
  match l with
  | [] => (none, 0)
  | x :: xs =>
    if x < 0x80 then (some x, 1)
    else match utf8Lead x with
      | none => (none, 1)
      | some (lo, hi, n) =>
        let k := utf8Tail lo hi (n - 1) xs
        if k = n - 1 then (some (codePoint (l.take n)), n) else (none, 1 + k)

/-- A character of a validated document: its code point and its bytes. -/
abbrev TextChar := Nat × List Nat

/-- Validate bytes: the characters, whether one was replaced, or the offset of the first ill-formed byte. -/
def utf8All (stop : Bool) : Nat → Nat → List Nat → List TextChar → Bool → Except Nat (List TextChar × Bool)
  | 0, _, _, acc, r => .ok (acc.reverse, r)
  | _, _, [], acc, r => .ok (acc.reverse, r)
  | fuel + 1, off, l, acc, r =>
    match utf8Next l with
    | (some cp, n) => utf8All stop fuel (off + n) (l.drop n) ((cp, l.take n) :: acc) r
    | (none, n) => if stop then .error off else utf8All stop fuel (off + n) (l.drop n) ((0xFFFD, [0xEF, 0xBF, 0xBD]) :: acc) true

/-- A document validated. -/
def validate (stop : Bool) (l : List Byte) : Except Nat (List TextChar × Bool) :=
  utf8All stop (l.length + 1) 0 (l.map (fun x => x.toNat)) [] false

/-! ## Pieces (R293) -/

/-- Runs of one class. -/
def runsOf : List TextChar → List (Nat × List TextChar)
  | [] => []
  | c :: l =>
    let k := Config.unicodeClass c.1 % 4
    match runsOf l with
    | [] => [(k, [c])]
    | (j, r) :: rs => if j = k then (k, c :: r) :: rs else (k, [c]) :: (j, r) :: rs

/-- One U+0020 that stands immediately before a letter or number run joins it (DEDUCED of a longer whitespace run, log entry 45); `carry`
says that one joins the first run. -/
def joinSpaces : Bool → List (Nat × List TextChar) → List (Nat × List TextChar)
  | _, [] => []
  | carry, (k, r) :: rs =>
    let full := if carry then (0x20, [0x20]) :: r else r
    let gives := k = 2 && (r.getLast?.map (fun c => c.1)) = some 0x20 && ((rs.head?.map (fun q => decide (q.1 < 2))).getD false)
    if gives then (if r.length = 1 then [] else [(k, r.dropLast)]) ++ joinSpaces true rs else (k, full) :: joinSpaces false rs

/-- The bytes of each piece of a document. -/
def piecesOf (presplit : Bool) (l : List TextChar) : List (List Nat) :=
  if presplit then (joinSpaces false (runsOf l)).map (fun r => r.2.flatMap (fun c => c.2)) else [l.flatMap (fun c => c.2)]

/-- The lowest entry that names a pair. -/
def mergeIndex (table : List (Nat × Nat)) (a c : Nat) : Option Nat :=
  ((table.zip (List.range table.length)).find? (fun p => p.1.1 = a && p.1.2 = c)).map (fun p => p.2)

/-- The lowest entry that names an adjacent pair, and the pair's leftmost place. -/
def lowestMerge (table : List (Nat × Nat)) : List Nat → Nat → Option (Nat × Nat)
  | [], _ => none
  | [_], _ => none
  | a :: c :: l, i =>
    match mergeIndex table a c, lowestMerge table (c :: l) (i + 1) with
    | none, r => r
    | some x, none => some (x, i)
    | some x, some (y, j) => if x ≤ y then some (x, i) else some (y, j)

/-- A piece merged until no entry names an adjacent pair. -/
def mergePiece (table : List (Nat × Nat)) : Nat → List Nat → List Nat
  | 0, l => l
  | fuel + 1, l => match lowestMerge table l 0 with
    | none => l
    | some (x, i) => mergePiece table fuel (l.take i ++ (256 + x) :: l.drop (i + 2))

/-- The tokens of a document. -/
def tokensOf (table : List (Nat × Nat)) (presplit : Bool) (l : List TextChar) : List Nat :=
  (piecesOf presplit l).flatMap (fun p => mergePiece table p.length p)

/-! ## Packing (R295) -/

/-- An item to be packed: a document's tokens, a media span, or a break. -/
inductive PackItem where
  | doc (tokens : List Nat)
  | span (id len : Nat)
  | brk
deriving DecidableEq, Repr

/-- A piece of an item in a sequence. -/
structure PackPiece where
  seq : Nat
  start : Nat
  item : Nat
  cont : Bool
  itemPos : Nat
  tokens : List Nat
deriving DecidableEq, Repr

/-- Where packing stands: the sequence and the place in it. -/
structure Packer where
  seq : Nat
  pos : Nat
  pieces : List PackPiece
deriving DecidableEq, Repr

/-- The next sequence, when the present one holds anything. -/
def Packer.next (p : Packer) : Packer := if p.pos = 0 then p else { p with seq := p.seq + 1, pos := 0 }

/-- A piece placed. -/
def Packer.put (p : Packer) (item : Nat) (cont : Bool) (itemPos : Nat) (ts : List Nat) : Packer :=
  if ts.isEmpty then p
  else { p with pos := p.pos + ts.length,
                pieces := p.pieces ++ [{ seq := p.seq, start := p.pos, item := item, cont := cont, itemPos := itemPos, tokens := ts }] }

/-- A document that continues from sequence to sequence (PACK 0). -/
def Packer.flow (n item : Nat) : Nat → Packer → Nat → List Nat → Packer
  | 0, p, _, _ => p
  | fuel + 1, p, done, ts =>
    if ts.isEmpty then p
    else
      let q := if p.pos = n then p.next else p
      let room := n - q.pos
      Packer.flow n item fuel (q.put item (decide (0 < done)) done (ts.take room)) (done + (ts.take room).length) (ts.drop room)

/-- A whole item that is never split: it starts the next sequence when it does not fit. -/
def Packer.whole (n item : Nat) (p : Packer) (ts : List Nat) : Option Packer :=
  if n < ts.length then none
  else if p.pos + ts.length ≤ n then some (p.put item false 0 ts)
  else some (p.next.put item false 0 ts)

/-- What packing comes to: the pieces, or the DETAIL of ST_SHAPE_OVER. -/
def packItems (n : Nat) (pack1 : Bool) : List (Nat × PackItem) → Packer → Except Nat Packer
  | [], p => .ok p
  | (_, .brk) :: l, p => packItems n pack1 l p.next
  | (i, .span id len) :: l, p => match Packer.whole n i p (List.replicate len id) with
    | none => .error (len % 2 ^ 24 * 256 + 16)
    | some q => packItems n pack1 l q
  | (i, .doc ts) :: l, p =>
    if pack1 then match Packer.whole n i p ts with
      | none => .error (ts.length % 2 ^ 24 * 256 + 16)
      | some q => packItems n pack1 l q
    else packItems n pack1 l (Packer.flow n i (ts.length + 2) p 0 ts)

/-- The piece that holds a place of a sequence. -/
def pieceAt (ps : List PackPiece) (s j : Nat) : Option (Nat × PackPiece) :=
  (((ps.filter (fun p => p.seq = s)).zip (List.range ps.length)).find? (fun p => decide (p.1.start ≤ j) && decide (j < p.1.start + p.1.tokens.length))).map
    (fun p => (p.2, p.1))

/-- The 16-byte boundary record of a piece. -/
def PackPiece.record (p : PackPiece) : List Byte :=
  leBytes 8 (p.seq * 2 ^ 32 + p.start) ++ leBytes 8 (p.item * 2 ^ 32 + b2n p.cont * 2 ^ 31 + p.tokens.length % 2 ^ 31)

end Sys2Proof.Machine
end

