-- ==== Sys2Proof/Machine/Media.lean ====
section
/-! DEFINITION. Images, single-sample media tasks, crop-and-resize, and batches with their augmentation
(spec/07_convolution_and_vision_ops.md R191, spec/11_harbour_images_audio_text.md R280-R305). What a format's standard makes of a sample's
bytes is an open value of those bytes (`Config.image`, `Config.audio`, log entry 41). -/

namespace Sys2Proof.Machine

/-! ## Sampling (R191) -/

/-- FP32 bits of a natural number. -/
def natF (n : Nat) : Nat := toF32 (ofInt (n : Int))

/-- FP32 division, rounded once. -/
def divF (x y : Nat) : Nat := toF32 (divV (f32 x) (f32 y))

/-- The coordinate of output row `i` of `oh` between corners, over an extent (R191). -/
def sampleCoord (lo hi extent oh i : Nat) : Nat :=
  let top := natF (extent - 1)
  if oh = 1 then mulF (mulF (addF lo hi) 0x3F000000) top
  else addF (mulF lo top) (mulF (natF i) (divF (mulF (subF hi lo) top) (natF (oh - 1))))

/-- The floor of a finite value. -/
def floorV : Val → Int
  | .fin s m e =>
    let q := scaled s m e (min e 0)
    q / (2 ^ (-(min e 0)).toNat : Nat)
  | .nan => 0
  | .inf _ => 0

/-- Whether a coordinate lies within 0 to extent - 1. -/
def coordIn (y extent : Nat) : Bool :=
  (f32 y).isFinite && !(ltV (f32 y) (.fin false 0 0)) && !(ltV (ofInt ((extent : Int) - 1)) (f32 y))

/-- A bilinear sample of a map's channel at FP32 coordinates; outside the map it is `out`. A neighbour past the last row or column, whose
weight is 0, is taken at the edge (DEDUCED, log entry 46). -/
def bilinear (get : Nat → Nat → Nat) (w h y x out : Nat) : Nat :=
  if coordIn y h && coordIn x w then
    let y0 := (floorV (f32 y)).toNat
    let x0 := (floorV (f32 x)).toNat
    let fy := subF y (natF y0)
    let fx := subF x (natF x0)
    let x1 := min (x0 + 1) (w - 1)
    let y1 := min (y0 + 1) (h - 1)
    let top := fmaF fx (subF (get x1 y0) (get x0 y0)) (get x0 y0)
    let bottom := fmaF fx (subF (get x1 y1) (get x0 y1)) (get x0 y1)
    fmaF fy (subF bottom top) top
  else out

/-! ## Images (R282-R287) -/

/-- A decoded image, or why there is none: pixels are channel-fastest; a damaged image keeps the rows written, and so does a PNG whose chunks
pass limit 0x0A while it is decoded (R282). -/
inductive ImageResult where
  | ok (w h chans : Nat) (pixels : List Nat)
  | limit (n w chans : Nat) (rows : List Nat)
  | corrupt (off w chans : Nat) (rows : List Nat)
deriving DecidableEq, Repr

/-- An 8-bit value clamped. -/
def clamp8 (x : Int) : Nat := (max 0 (min x 255)).toNat

/-- 16-bit fixed point rounded to nearest, ties away from zero. -/
def round16 (x : Int) : Int := if 0 ≤ x then (x + 32768) / 65536 else -((-x + 32768) / 65536)

/-- YCbCr to RGB by the full-range BT.601 matrix in 16-bit fixed point (R284; the coefficients are BT.601's, PRESUMED, log entry 43). -/
def ycc (y cb cr : Nat) : List Nat :=
  let u : Int := (cb : Int) - 128
  let v : Int := (cr : Int) - 128
  [clamp8 (y + round16 (91881 * v)), clamp8 (y + round16 (-22554 * u - 46802 * v)), clamp8 (y + round16 (116130 * u))]

/-- A stored PNG sample as 8 bits (R286). -/
def png8 (depth v : Nat) : Nat := if depth = 2 then (v % 65536 + 128) / 257 else v % 256

/-- The pixel of an image at a place, RGB or RGBA. -/
def imagePixel (l : List Byte) (x : Config.ImageSyntax) (alpha : Bool) (px py : Nat) : List Nat :=
  let g (c : Nat) : Nat := Config.imageSample l c px py
  let rgb := if x.png then
      (if x.stored ≤ 2 then List.replicate 3 (png8 x.depth (g 0)) else [png8 x.depth (g 0), png8 x.depth (g 1), png8 x.depth (g 2)])
    else if x.stored = 1 then List.replicate 3 (g 0 % 256)
    else ycc (g 0 % 256) (Config.imageSample l 1 (px / x.subX) (py / x.subY) % 256) (Config.imageSample l 2 (px / x.subX) (py / x.subY) % 256)
  let a := if x.png ∧ (x.stored = 2 ∨ x.stored = 4) then png8 x.depth (g (x.stored - 1)) else 255
  if alpha then rgb ++ [a] else rgb

/-- Coefficient bytes of a progressive image: 2 for each coefficient of each plane in whole 8 × 8 blocks (R285). -/
def coefBytes (x : Config.ImageSyntax) : Nat :=
  let plane (w h : Nat) : Nat := cdiv w 8 * 8 * (cdiv h 8 * 8) * 2
  if x.stored = 1 then plane x.width x.height else plane x.width x.height + 2 * plane (cdiv x.width x.subX) (cdiv x.height x.subY)

/-- The limit that an image's headers violate (R282, R283). -/
def imageLimit (x : Config.ImageSyntax) (length maxW maxH stride : Nat) : Option Nat :=
  if !x.known then some 0x01
  else if maxW < x.width ∨ maxH < x.height then some 0x02
  else if 8192 < x.width ∨ 8192 < x.height then some 0x03
  else if 1024 * length < x.width * x.height * x.comps * x.depth then some 0x04
  else if x.progressive ∧ stride < coefBytes x then some 0x05
  else if x.png ∧ (4096 < x.chunks ∨ x.longChunk) then some 0x0A
  else none

/-- HB_IMG_MAX_f of an image. -/
def Block.imgMax (b : Block) (h : HalfId) (png : Bool) : Nat × Nat :=
  (b.regFld (inReg h (8 * b2n png)) 29 16, b.regFld (inReg h (8 * b2n png)) 13 0)

/-- An image decoded from its bytes; `watchdog` gives the rows written when its watchdog expired, at a byte offset that no rule gives. -/
def decodeImage (l : List Byte) (alpha : Bool) (maxJ maxP : Nat × Nat) (stride : Nat) (watchdog : Option Nat) (free : Nat) : ImageResult :=
  let x := Config.image l
  let m := if x.png then maxP else maxJ
  let chans := if alpha then 4 else 3
  let rows (n : Nat) : List Nat := (List.range (n * x.width)).flatMap (fun i => imagePixel l x alpha (i % x.width) (i / x.width))
  match imageLimit x l.length m.1 m.2 stride with
  | some n => .limit n x.width chans (if n = 0x0A then rows (min x.rows x.height) else [])
  | none => match watchdog, x.error with
    | some r, _ => .corrupt (free % 2 ^ 32) x.width chans (rows (min r x.height))
    | none, some off => .corrupt off x.width chans (rows (min x.rows x.height))
    | none, none => .ok x.width x.height chans (rows x.height)

/-- The scratch region of a progressive image: its claim, or nothing for another image. -/
def Block.scratchCells (b : Block) (a : Access) (l : List Byte) (va draw : Nat) : Res (List Host.Cell) :=
  let x := Config.image l
  if x.progressive then
    if b.scratchOk a.slot va (coefBytes x) then b.wrCells a 8 va ((List.range (coefBytes x)).map (fun i => Config.poolByte draw i))
    else .error (.ended stXlate 8)
  else .ok []

/-! ## Sound (R288, R289) -/

/-- A decoded clip: a limit, damage above CONCEAL_MAX, or the mono waveform at the profile's rate with its concealed fraction. -/
inductive AudioResult where
  | limit (n : Nat)
  | corrupt (off : Nat)
  | ok (fraction : Nat) (xs : List Nat)
deriving DecidableEq, Repr

/-- A decoded sample widened to FP32 (R288). -/
def widenSample (kind v : Nat) : Nat :=
  if kind = 0 then toF32 (.fin (decide (sext 16 v < 0)) (sext 16 v).natAbs (-15))
  else if kind = 1 then toF32 (.fin (decide (sext 24 v < 0)) (sext 24 v).natAbs (-23))
  else v % 2 ^ 32

/-- The samples of a stream before frame `n`, per channel. -/
def samplesBefore (fs : List Config.AudioFrame) (n : Nat) : Nat := ((fs.take n).map (fun f => f.samples)).sum

/-- The limit that a stream violates (R282, R283), and the most frames an output takes. -/
def audioLimit (x : Config.AudioSyntax) (maxS rate hop most : Nat) : Option Nat :=
  let total := samplesBefore x.frames x.frames.length
  if !x.known then some 0x01
  else if x.channels = 0 ∨ 8 < x.channels ∨ x.rate < 8000 ∨ 192000 < x.rate then some 0x06
  else if maxS * x.rate < max x.declared total then some 0x07
  else if (List.range x.frames.length).any (fun i =>
      let f := x.frames.getD i default
      let s := samplesBefore x.frames (i + 1) * x.channels
      decide (1024 * f.stop + f.samples * x.channels * 4 < s * 4)) then some 0x08
  else if most < cdiv (if x.rate = rate then total else cdiv (total * rate) x.rate) hop then some 0x08
  else none

/-- The mono samples of a stream: each channel's sum in ascending order times the FP32 value nearest 1 / channels; a damaged frame is zeros
(R288, R289). -/
def monoOf (l : List Byte) (x : Config.AudioSyntax) : List Nat :=
  let inv := divF 0x3F800000 (natF x.channels)
  (List.range x.frames.length).flatMap (fun i =>
    let f := x.frames.getD i default
    (List.range f.samples).map (fun j =>
      if f.damaged then 0
      else
        let at_ (c : Nat) : Nat := widenSample x.kind (Config.audioSample l c (samplesBefore x.frames i + j))
        if x.channels = 1 then at_ 0 else mulF ((List.range (x.channels - 1)).foldl (fun acc c => addF acc (at_ (c + 1))) (at_ 0)) inv))

/-- A clip decoded from its bytes (R288-R290). The fraction counts decoded samples (DEDUCED, log entry 44). -/
def decodeAudio (l : List Byte) (p : AudioProfile) (maxS most : Nat) : AudioResult :=
  let x := Config.audio l
  match audioLimit x maxS p.rate p.hop most with
  | some n => .limit n
  | none =>
    let bad := x.frames.filter (fun f => f.damaged)
    let total := samplesBefore x.frames x.frames.length
    let fraction := if total = 0 then 0 else min 65535 (65536 * (bad.map (fun f => f.samples)).sum / total)
    if bad.length = x.frames.length ∨ p.concealMax < fraction then .corrupt ((bad.head?.map (fun f => f.start)).getD 0)
    else .ok fraction (resample (monoOf l x) x.rate p.rate)

/-! ## Check 1 (R281, R298, R302) -/

/-- Stream context for each position of a video batch. -/
def TaskDesc.ctxBase (d : TaskDesc) : Nat := d.pf 0 31 23

/-- Every operand slot that a media operation uses is stored plain: COMP 1 is the matrix task's slot 1 alone, and 2-7 are named for no slot of it (R91, R114, R118,
R140; DEDUCED for 2-7, log entry 30). -/
def plainSlots (c : TaskCtx) : Option Nat := c.desc.used.findSome? (fun s => compIn (c.tensor s) [0])

/-- Check 1 of the media operations. -/
def Block.mediaCheck (b : Block) (h : HalfId) (g : Graph) (c : TaskCtx) : Option Nat :=
  let d := c.desc
  firstFault [plainSlots c, match d.mediaOp with
  | 0x10 => firstFault [
      slotsRead d [(true, 0), (true, 1)], formatIn (c.tensor 0) [0x0C], formatIn (c.tensor 1) [0x0C],
      flatFrom (c.tensor 0) 1,
      faultIf ((c.tensor 1).cap 0 ≠ 3 + d.pf 0 52 52) (offTensor 1 (tOffCap 0)) ]
  | 0x11 => firstFault [
      slotsRead d [(true, 0), (true, 1), (d.uses 2, 1)], formatIn (c.tensor 0) [0x0C],
      formatIn (c.tensor 1) [0x00, 0x01], (if d.uses 2 then formatIn (c.tensor 2) [0x00] else none),
      flatFrom (c.tensor 0) 1 ]
  | 0x12 => firstFault [
      faultIf (decide (1 < d.pf 0 55 54)) 102,
      faultIf (decide (262143 < d.pf 3 63 45)) 125,
      slotsRead d [(true, 0), (true, 0), (true, 1), (true, 1), (d.pf 0 50 50 = 1, 1)],
      formatIn (c.tensor 0) [0x0C], formatIn (c.tensor 1) [0x0B], formatIn (c.tensor 2) [0x0A], formatIn (c.tensor 3) [0x0B],
      (if d.pf 0 50 50 = 1 then firstFault [formatIn (c.tensor 4) [0x0A], faultIf ((c.tensor 4).ext 0 ≠ (c.tensor 2).ext 0) (offTensor 4 (tOffCap 0)),
        faultIf ((c.tensor 4).ext 1 ≠ 4) (offTensor 4 (tOffCap 1)), faultIf ((c.tensor 4).ext 3 ≠ (c.tensor 2).ext 1) (offTensor 4 (tOffCap 3))] else none),
      flatFrom (c.tensor 0) 1, faultIf ((c.tensor 1).ext 0 ≠ 2) (offTensor 1 (tOffCap 0)), flatFrom (c.tensor 1) 2, flatFrom (c.tensor 2) 2,
      faultIf ((c.tensor 3).cap 0 ≠ 2) (offTensor 3 (tOffCap 0)) ]
  | 0x13 => firstFault [
      slotsRead d [(true, 0), (true, 0), (true, 0), (true, 1)],
      formatIn (c.tensor 0) [0x0C, 0x01, 0x02, 0x00], formatIn (c.tensor 1) [0x00], formatIn (c.tensor 2) [0x0A], formatIn (c.tensor 3) [0x00, 0x01],
      faultIf ((c.tensor 1).ext 0 ≠ 4) (offTensor 1 (tOffCap 0)), flatFrom (c.tensor 1) 2,
      faultIf (decide (4096 < (c.tensor 1).ext 1)) (offTensor 1 (tOffCap 1)),
      faultIf ((c.tensor 0).ext 0 = 0 || decide (4096 < (c.tensor 0).ext 0)) (offTensor 0 (tOffCap 0)),
      [1, 2].findSome? (fun i => firstFault [
        faultIf ((c.tensor 0).ext i = 0 || decide (8192 < (c.tensor 0).ext i)) (offTensor 0 (tOffCap i)),
        faultIf ((c.tensor 3).ext i = 0 || decide (64 < (c.tensor 3).ext i)) (offTensor 3 (tOffCap i))]),
      faultIf ((c.tensor 2).ext 0 ≠ (c.tensor 1).ext 1) (offTensor 2 (tOffCap 0)), flatFrom (c.tensor 2) 1,
      extEq (c.tensor 0) (c.tensor 3) 0 0, faultIf ((c.tensor 3).ext 3 ≠ (c.tensor 1).ext 1) (offTensor 3 (tOffCap 3)), flatFrom (c.tensor 0) 4,
      flatFrom (c.tensor 3) 4 ]
  | 0x14 =>
    let kind := d.pf 0 55 53
    let bn := (c.tensor 0).ext 0
    let out := c.tensor 4
    firstFault [
      faultIf (decide (3 < kind)) 102, faultIf (d.pf 1 63 32 = 0xFFFFFFFF) 108, faultIf (kind = 2 && d.pf 3 47 40 = 0) 125,
      slotsRead d [(true, 0), (true, 0), (true, 0), (true, 0), (true, 1), (kind = 1 || kind = 2, 1), (true, 1), (true, 1)],
      [0, 1, 3, 7].findSome? (fun s => formatIn (c.tensor s) [0x0B]), formatIn (c.tensor 2) [0x0C], formatIn (c.tensor 6) [0x00],
      (if kind = 3 then formatIn out [0x0B] else if kind = 2 then formatIn out [0x0C, 0x0D] else none),
      (if kind = 1 then formatIn (c.tensor 5) [0x0A] else if kind = 2 then formatIn (c.tensor 5) [out.fmt] else none),
      faultIf ((c.tensor 1).ext 0 ≠ 2) (offTensor 1 (tOffCap 0)), flatFrom (c.tensor 0) 1, flatFrom (c.tensor 2) 1, flatFrom (c.tensor 3) 1,
      faultIf ((c.tensor 6).ext 0 ≠ bn) (offTensor 6 (tOffCap 0)), faultIf ((c.tensor 7).ext 0 ≠ 4) (offTensor 7 (tOffCap 0)),
      faultIf ((c.tensor 7).ext 1 ≠ bn) (offTensor 7 (tOffCap 1)),
      (if kind = 0 then firstFault [faultIf (out.ext 0 ≠ 3 + d.pf 0 52 52) (offTensor 4 (tOffCap 0)), faultIf (out.ext 3 ≠ bn) (offTensor 4 (tOffCap 3))]
       else if kind = 1 then firstFault [faultIf (out.ext 2 ≠ bn) (offTensor 4 (tOffCap 2)), faultIf ((c.tensor 5).ext 0 ≠ bn) (offTensor 5 (tOffCap 0))]
       else if kind = 2 then faultIf (out.ext 3 ≠ bn) (offTensor 4 (tOffCap 3))
       else firstFault [faultIf (out.ext 0 ≠ 2) (offTensor 4 (tOffCap 0)), faultIf (out.ext 1 ≠ bn) (offTensor 4 (tOffCap 1))]),
      (if kind = 2 then faultIf ((List.range bn).any (fun p => !(((b.stream h (d.ctxBase + p)).map (fun x => x.job = g.job && !x.encoder)).getD false))) 98 else none) ]
  | _ => b.videoCheck h g c]

/-- The kind of unit that a media task is assigned to at firing (R258, R281); none for an open or a close. -/
def mediaUnits (d : TaskDesc) (png : Bool) : Option (List Nat) :=
  match d.mediaOp with
  | 1 => some (List.range 8)
  | 2 => some [8]
  | 0x10 => some (if png then [17, 18] else [9, 10, 11, 12, 13, 14, 15, 16])
  | 0x11 => some [19, 20, 21, 22]
  | 0x12 => some [23, 24]
  | 0x13 => some [25]
  | 0x14 => some [26]
  | _ => none

/-- Whether a task is at the front of its unit's queue, which serves in order of assignment (R281). -/
def Block.served (b : Block) (t : TaskRef) : Bool :=
  match b.unitOf t with
  | some p => (b.unitTasks t.half p).head? = some t
  | none => true

/-- The counts of HB_IN_STAT that a sample's status adds. -/
def Block.countSample (b : Block) (h : HalfId) (st : Nat) : Block :=
  if st = stInputLimit then b.count (inReg h 0x20) 63 48 1 else if st = stInputCorrupt then b.count (inReg h 0x20) 47 32 1 else b

/-! ## Single samples (R302) -/

/-- The cells of an image's rows in a tensor at position `p` of dimension 3. -/
def Block.pixelCells (b : Block) (a : Access) (o : Tensor) (p w chans : Nat) (pixels : List Nat) : Res (List Host.Cell) :=
  concatRes (fun i => b.rowCells a o (i % w, i / w, p, 0) (codesRow ((pixels.drop (i * chans)).take chans))) (List.range (pixels.length / chans))

/-- A single-sample task ends with its sample's status. -/
def Block.endSample (b : Block) (t : TaskRef) (cells : List Host.Cell) (shapes : List Nat) (st det : Nat) : Block :=
  (((b.countSample t.half st).countUnit t 1).modTask t (fun c => { c with shapeOut := shapes })).land t cells st det

/-- What one sample gives (R302): its stores, its shape registers, its status and detail. -/
structure SampleRun where
  cells : List Host.Cell
  shapes : List Nat
  status : Nat
  detail : Nat
deriving DecidableEq, Repr

/-- A sample that ends without an output. -/
def SampleRun.ended (status detail : Nat) : SampleRun := { cells := [], shapes := [], status := status, detail := detail }

/-- An image decoded into its tensor (R282-R287). -/
def Block.imageRun (b : Block) (t : TaskRef) (a : Access) (c : TaskCtx) (draw : Nat) : Res SampleRun :=
  match b.rdN a 0 (c.tensor 0).base ((c.tensor 0).ext 0) with
  | .error e => .error e
  | .ok l =>
    let o := c.tensor 1
    let stride := if c.desc.uses 2 then (c.tensor 2).count else 0
    match decodeImage l (c.desc.pf 0 52 52 = 1) (b.imgMax t.half false) (b.imgMax t.half true) stride (tabFind c.watchdogs 0) draw with
    | .limit k w ch px =>
      if o.cap 1 < w ∨ o.cap 2 < (Config.image l).height then .ok (SampleRun.ended stInputLimit k)
      else (b.pixelCells a o 0 w ch px).map (fun cells => { cells := cells, shapes := [], status := stInputLimit, detail := k })
    | .corrupt off w ch px =>
      if o.cap 1 < w then .ok (SampleRun.ended stShapeOver (w % 2 ^ 24 * 256 + 9))
      else if o.cap 2 < (Config.image l).height then .ok (SampleRun.ended stShapeOver ((Config.image l).height % 2 ^ 24 * 256 + 10))
      else match b.scratchCells a l (c.tensor 2).base draw with
        | .error e => .error e
        | .ok sc => (b.pixelCells a o 0 w ch px).map (fun cells => { cells := sc ++ cells, shapes := [], status := stInputCorrupt, detail := off })
    | .ok w h ch px =>
      if o.cap 1 < w then .ok (SampleRun.ended stShapeOver (w % 2 ^ 24 * 256 + 9))
      else if o.cap 2 < h then .ok (SampleRun.ended stShapeOver (h % 2 ^ 24 * 256 + 10))
      else match b.scratchCells a l (c.tensor 2).base draw with
        | .error e => .error e
        | .ok sc => (b.pixelCells a o 0 w ch px).map (fun cells => { cells := sc ++ cells, shapes := [w, h], status := stOk, detail := 0 })

/-- IMAGE_DECODE (R282-R287, R302). -/
def execImageDecode (t : TaskRef) (s : State) : Host.Outcome State Fault Refusal :=
  s.act (fun b => b.onRunning t 0x09 (fun g c =>
    if c.desc.mediaOp ≠ 0x10 ∨ b.served t = false then b
    else
      let n := (b.touch t g c).fresh
      match n.2.imageRun t (b.taskAccess t.half g c) c n.1 with
      | .error e => n.2.stop t e
      | .ok r => n.2.endSample t r.cells r.shapes r.status r.detail))

/-- IMAGE_WATCHDOG (R287): the image sample in progress ends damaged; its written rows stay. -/
def execImageWatchdog (t : TaskRef) (rowsWritten : Nat) (s : State) : Host.Outcome State Fault Refusal :=
  s.act (fun b => b.onRunning t 0x09 (fun _ c =>
    if c.desc.mediaOp = 0x10 ∨ c.desc.mediaOp = 0x14 then b.modTask t (fun c => { c with watchdogs := tabPut c.watchdogs 0 rowsWritten }) else b))

/-- The cells of log-mel frames at position `p` of dimension 2. -/
def Block.melCells (b : Block) (a : Access) (o : Tensor) (p : Nat) (frames : List (List Nat)) : Res (List Host.Cell) :=
  concatRes (fun q => b.rowCells a o (q.2, p, 0, 0) (convRow a o (q.2, p, 0, 0) q.1)) (frames.zip (List.range frames.length))

/-- A sound decoded, resampled and turned into log-mel frames by a profile (R288-R291). -/
def Block.audioRun (b : Block) (t : TaskRef) (a : Access) (c : TaskCtx) (p : AudioProfile) : Res SampleRun :=
  match b.rdN a 0 (c.tensor 0).base ((c.tensor 0).ext 0) with
  | .error e => .error e
  | .ok l =>
    let o := c.tensor 1
    match decodeAudio l p (b.regFld (inReg t.half 0x10) 15 0) (2 ^ 40) with
    | .limit n => .ok (SampleRun.ended stInputLimit n)
    | .corrupt off => .ok (SampleRun.ended stInputCorrupt off)
    | .ok fraction xs =>
      let frames := melFrames p xs
      if o.cap 0 < p.mels then .ok (SampleRun.ended stShapeOver (p.mels * 256 + 8))
      else if o.cap 1 < frames.length then .ok (SampleRun.ended stShapeOver (frames.length % 2 ^ 24 * 256 + 9))
      else if c.desc.uses 2 ∧ (c.tensor 2).cap 0 < xs.length then .ok (SampleRun.ended stShapeOver (xs.length % 2 ^ 24 * 256 + 16))
      else match b.melCells a o 0 frames, (if c.desc.uses 2 then b.rowCells a (c.tensor 2) (0, 0, 0, 0) (codesRow xs) else .ok []) with
        | .error e, _ => .error e
        | .ok _, .error e => .error e
        | .ok cs, .ok ps =>
          .ok { cells := cs ++ ps, shapes := [frames.length], status := if 0 < fraction then stConcealed else stOk, detail := fraction }

/-- AUDIO_DECODE (R288-R291, R302). -/
def execAudioDecode (t : TaskRef) (s : State) : Host.Outcome State Fault Refusal :=
  s.act (fun b => b.onRunning t 0x09 (fun g c =>
    let a := b.taskAccess t.half g c
    if c.desc.mediaOp ≠ 0x11 ∨ b.served t = false then b
    else
      let b0 := b.touch t g c
      match b0.rdN a 8 (c.desc.pf 2 47 0) 32 with
      | .error e => b0.stop t e
      | .ok pf =>
        if profileOk pf = false then b0.fix t stAdmission (r492 0 6 112)
        else match b0.audioRun t a c (parseProfile pf) with
          | .error e => b0.stop t e
          | .ok r => b0.endSample t r.cells r.shapes r.status r.detail))

/-! ## Text tasks (R294, R295) -/

/-- TABLE and COUNT of a tokenise task. -/
def TaskDesc.mergeKey (d : TaskDesc) (job : Nat) : Nat × Nat × Nat := (job, d.pf 2 47 0, d.pf 3 63 45 + 1)

/-- The first faulty entry of a merge table: a reserved bit, or a forward reference. -/
def mergeFault (ws : List Nat) : Option Nat :=
  (List.range ws.length).find? (fun i =>
    let w := ws.getD i 0
    decide (bits w 63 51 ≠ 0) || decide (bits w 31 19 ≠ 0) || decide (256 + i ≤ bits w 50 32) || decide (256 + i ≤ bits w 18 0))

/-- TABLE_LOAD (R294): once no running task holds the store, a task whose key differs loads its table. -/
def execTableLoad (t : TaskRef) (s : State) : Host.Outcome State Fault Refusal :=
  s.act (fun b => b.onRunning t 0x09 (fun g c =>
    let d := c.desc
    let key := d.mergeKey g.job
    let x := b.harbour t.half
    if d.mediaOp ≠ 0x12 ∨ b.served t = false ∨ x.mergeKey = some key ∨ x.mergeUsers.any (fun u => b.isRunning u) then b
    else
      let b0 := b.touch t g c
      match mapRes (fun i => b0.rdNat (b0.taskAccess t.half g c) 8 (d.pf 2 47 0 + 8 * i) 8) (List.range key.2.2) with
      | .error e => b0.stop t e
      | .ok ws =>
        let b1 := b0.setRegFld (inReg t.half 0x28) 63 32 0
        match mergeFault ws with
        | some i => (b1.modHarbour t.half (fun y => { y with mergeKey := none, mergeTable := [], mergeUsers := [] })).fix t stAdmission (r492 i 6 112)
        | none =>
          let b2 := b1.modHarbour t.half (fun y => { y with
            mergeKey := some key, mergeTable := ws.map (fun w => (bits w 50 32, bits w 18 0)), mergeUsers := [t] })
          ((b2.setRegFld (inReg t.half 0x28) 63 52 g.job).setRegFld (inReg t.half 0x28) 51 32 (key.2.2 * 2 + 1)).count (inReg t.half 0x28) 31 0 1))

/-- What reading a task's items comes to: the items to pack and the documents with a replacement, or a document's status. -/
inductive TextItems where
  | items (l : List (Nat × PackItem)) (replaced : Nat)
  | failed (st det : Nat)
deriving DecidableEq, Repr

/-- A document's bytes tokenised (R292, R293). -/
def tokeniseDoc (d : TaskDesc) (table : List (Nat × Nat)) (maxBytes : Nat) (l : List Byte) : Except (Nat × Nat) (List Nat × Bool) :=
  if maxBytes < l.length then .error (stInputLimit, 9)
  else match validate (d.pf 0 51 51 = 1) l with
    | .error off => .error (stInputCorrupt, off)
    | .ok (cs, r) => .ok (tokensOf table (d.pf 0 53 53 = 1) cs ++ (if d.pf 0 52 52 = 1 then [d.pf 1 63 45] else []), r)

/-- Read and tokenise the items from `i` on. -/
def Block.textItems (b : Block) (a : Access) (c : TaskCtx) (table : List (Nat × Nat)) (maxBytes : Nat) : Nat → Nat → Res TextItems
  | 0, _ => .ok (.items [] 0)
  | n + 1, i =>
    match b.rdNat a 1 ((c.tensor 1).rowVa (i, 0, 0, 0)) 8, b.rdNat a 1 ((c.tensor 1).rowVa (i, 0, 0, 0) + 8) 8 with
    | .error e, _ => .error e
    | .ok _, .error e => .error e
    | .ok w0, .ok w1 =>
      let rest (x : PackItem) (r : Nat) : Res TextItems := match b.textItems a c table maxBytes n (i + 1) with
        | .error e => .error e
        | .ok (.failed st d) => .ok (.failed st d)
        | .ok (.items l k) => .ok (.items ((i, x) :: l) (k + r))
      match Config.itemKind (w0 / 2 ^ 32) with
      | 0 =>
        if (c.tensor 0).ext 0 < w1 + w0 % 2 ^ 32 then .ok (.failed stInputCorrupt w1)
        else match b.rdN a 0 ((c.tensor 0).base + w1) (w0 % 2 ^ 32) with
          | .error e => .error e
          | .ok l => match tokeniseDoc c.desc table maxBytes l with
            | .error f => .ok (.failed f.1 f.2)
            | .ok (ts, r) => rest (.doc ts) (b2n r)
      | 1 => rest (.span (w1 % 2 ^ 32) (w0 % 2 ^ 32)) 0
      | 2 => rest .brk 0
      | _ => .ok (.failed stAdmission (offTensor 1 0))

/-- The cells of a tokenise task's outputs: tokens with padding, boundary records, and the aux planes. -/
def Block.packCells (b : Block) (a : Access) (c : TaskCtx) (ps : List PackPiece) : Res (List Host.Cell) :=
  let d := c.desc
  let n := (c.tensor 2).ext 0
  let aux (s j plane : Nat) : Nat := match pieceAt ps s j with
    | none => if plane % 2 = 1 then 0xFFFFFFFF else 0
    | some (k, p) => if plane % 2 = 1 then k else p.itemPos + (j - p.start)
  let token (s j : Nat) : Nat := match pieceAt ps s j with
    | none => d.pf 1 44 26
    | some (_, p) => p.tokens.getD (j - p.start) 0
  let seqs := List.range ((c.tensor 2).ext 1)
  match concatRes (fun s => b.rowCells a (c.tensor 2) (s, 0, 0, 0) (codesRow ((List.range n).map (token s)))) seqs with
  | .error e => .error e
  | .ok ts => match concatRes (fun q => b.wrCells a 3 ((c.tensor 3).rowVa (q.2, 0, 0, 0)) q.1.record) (ps.zip (List.range ps.length)) with
    | .error e => .error e
    | .ok rs =>
      if d.pf 0 50 50 = 1 then
        match concatRes (fun s => concatRes (fun plane => b.rowCells a (c.tensor 4) (plane, 0, s, 0) (codesRow ((List.range n).map (fun j => aux s j plane)))) (List.range 4)) seqs with
        | .error e => .error e
        | .ok xs => .ok (ts ++ rs ++ xs)
      else .ok (ts ++ rs)

/-- Items tokenised and packed into sequences (R295): the stores and the count of replaced characters, or the status and detail that ends the
task. -/
def Block.textRun (b : Block) (a : Access) (c : TaskCtx) (table : List (Nat × Nat)) (maxBytes : Nat) :
    Res (Except (Nat × Nat) (List Host.Cell × Nat)) :=
  match b.textItems a c table maxBytes ((c.tensor 1).ext 1) 0 with
  | .error e => .error e
  | .ok (.failed st det) => .ok (.error (st, det))
  | .ok (.items l r) => match packItems ((c.tensor 2).ext 0) (c.desc.pf 0 55 54 = 1) l { seq := 0, pos := 0, pieces := [] } with
    | .error det => .ok (.error (stShapeOver, det))
    | .ok p =>
      let used := (p.pieces.map (fun q => q.seq + 1)).foldl max 0
      if (c.tensor 2).ext 1 < used then .ok (.error (stShapeOver, used % 2 ^ 24 * 256 + 17))
      else if (c.tensor 3).cap 1 < p.pieces.length then .ok (.error (stShapeOver, p.pieces.length % 2 ^ 24 * 256 + 25))
      else (b.packCells a c p.pieces).map (fun cells => .ok (cells, r))

/-- TOKENISE_AND_PACK (R292-R295). -/
def execTokeniseAndPack (t : TaskRef) (s : State) : Host.Outcome State Fault Refusal :=
  s.act (fun b => b.onRunning t 0x09 (fun g c =>
    let x := b.harbour t.half
    if c.desc.mediaOp ≠ 0x12 ∨ b.served t = false ∨ x.mergeKey ≠ some (c.desc.mergeKey g.job) then b
    else
      let b0 := (b.touch t g c).modHarbour t.half (fun y => { y with mergeUsers := y.mergeUsers.filter (fun u => u ≠ t) ++ [t] })
      match (b.touch t g c).textRun (b.taskAccess t.half g c) c x.mergeTable (b.regFld (inReg t.half 0x18) 26 0) with
      | .error e => b0.stop t e
      | .ok (.error f) => (b0.countSample t.half f.1).fix t f.1 f.2
      | .ok (.ok r) => ((b0.count (inReg t.half 0x20) 7 0 r.2).countUnit t 1).land t r.1 stOk 0))

/-! ## Crop-and-resize (R191) -/

/-- One output row of a box: the channels of its columns, or the value that a bad box takes. -/
def Block.cropRows (b : Block) (a : Access) (c : TaskCtx) (k : Nat) (box : List Nat) (idx : Int) : Res (List (Row × List Nat)) :=
  let m := c.tensor 0
  let o := c.tensor 3
  let ex := c.desc.pf 1 63 32
  let w := m.ext 1
  let h := m.ext 2
  let at_ (i : Nat) : Nat := box.getD i 0
  let places := (List.range (o.ext 1 * o.ext 2)).map (fun i => (i % o.ext 1, i / o.ext 1))
  if box.any (fun v => !(f32 v).isFinite) then .ok (places.map (fun p => ((p.1, p.2, k, 0), List.replicate (m.ext 0) 0x7FC00000)))
  else if idx < 0 ∨ (m.ext 3 : Int) ≤ idx then .ok (places.map (fun p => ((p.1, p.2, k, 0), List.replicate (m.ext 0) ex)))
  else
    mapRes (fun p =>
      let y := sampleCoord (at_ 0) (at_ 2) h (o.ext 2) p.2
      let x := sampleCoord (at_ 1) (at_ 3) w (o.ext 1) p.1
      if coordIn y h && coordIn x w then
        let y0 := (floorV (f32 y)).toNat
        let x0 := (floorV (f32 x)).toNat
        let x1 := min (x0 + 1) (w - 1)
        let y1 := min (y0 + 1) (h - 1)
        match b.rowF32 a m (x0, y0, idx.toNat, 0), b.rowF32 a m (x1, y0, idx.toNat, 0), b.rowF32 a m (x0, y1, idx.toNat, 0), b.rowF32 a m (x1, y1, idx.toNat, 0) with
        | .ok r00, .ok r10, .ok r01, .ok r11 =>
          .ok ((p.1, p.2, k, 0), (List.range (m.ext 0)).map (fun ch => bilinear (fun px py =>
            if py = y0 then (if px = x0 then r00.getD ch 0 else r10.getD ch 0) else (if px = x0 then r01.getD ch 0 else r11.getD ch 0)) w h y x ex))
        | .error e, _, _, _ => .error e
        | _, .error e, _, _ => .error e
        | _, _, .error e, _ => .error e
        | _, _, _, .error e => .error e
      else .ok ((p.1, p.2, k, 0), List.replicate (m.ext 0) ex)) places

/-- What a crop gives (R191): its stores, and the boxes with an index outside the maps and with a coordinate that is not finite. -/
structure CropRun where
  cells : List Host.Cell
  badIndices : Nat
  badBoxes : Nat
deriving DecidableEq, Repr

/-- Boxes of a map sampled (R191). -/
def Block.cropRun (b : Block) (a : Access) (c : TaskCtx) : Res CropRun :=
  match mapRes (fun k => match b.rowF32 a (c.tensor 1) (k, 0, 0, 0), b.elemCode a (c.tensor 2) k (0, 0, 0, 0) with
      | .error e, _ => .error e
      | .ok _, .error e => .error e
      | .ok box, .ok i => .ok (k, box, sext 32 i)) (List.range ((c.tensor 1).ext 1)) with
  | .error e => .error e
  | .ok boxes =>
    let badBox (q : Nat × List Nat × Int) : Bool := q.2.1.any (fun v => !(f32 v).isFinite)
    let badIdx (q : Nat × List Nat × Int) : Bool := decide (q.2.2 < 0) || decide (((c.tensor 0).ext 3 : Int) ≤ q.2.2)
    match concatRes (fun q => b.cropRows a c q.1 q.2.1 q.2.2) boxes with
    | .error e => .error e
    | .ok rows => (concatRes (fun r => b.rowCells a (c.tensor 3) r.1 (convRow a (c.tensor 3) r.1 r.2)) rows).map (fun cells =>
        { cells := cells, badIndices := (boxes.filter badIdx).length, badBoxes := (boxes.filter badBox).length })

/-- CROP_AND_RESIZE (R191). -/
def execCropAndResize (t : TaskRef) (s : State) : Host.Outcome State Fault Refusal :=
  s.act (fun b => b.onRunning t 0x09 (fun g c =>
    if c.desc.mediaOp ≠ 0x13 ∨ b.served t = false then b
    else
      let b0 := b.touch t g c
      match b0.cropRun (b.taskAccess t.half g c) c with
      | .error e => b0.stop t e
      | .ok r =>
        let reg := regBase t.half + 0x1C30100
        (((b0.count reg 63 32 r.badIndices).count reg 31 0 r.badBoxes).countUnit t 1).land t r.cells stOk 0))

end Sys2Proof.Machine
end

