-- ==== Sys2Proof/Machine/Functions.lean ====
section
/-! DEFINITION. Functions that can be disabled, and the job slots (spec/02_saffron_task_graphs.md R40, R41, R50-R55;
spec/05_sparse_operands_and_experts.md R128; spec/13_ebb_and_flood.md R343; spec/14_when_a_step_fails.md R393). -/

namespace Sys2Proof.Machine

/-! ## Functions (R50, R54, R255, R280) -/

/-- The half of a function; half A governs a job slot (R491). -/
def funcHalf : FuncId → HalfId
  | .core n => halfOf (n.val / 40)
  | .harbour p => halfOf (p.val / 27)
  | .port p => halfOf (p.val / 9)
  | .slot _ => .a

/-- KIND of SAF_FUNC_CMD. -/
def funcKind : FuncId → Nat
  | .core _ => 0
  | .harbour _ => 1
  | .port _ => 2
  | .slot _ => 3

/-- INDEX of SAF_FUNC_CMD: unit p of half h is Harbour pipeline 32h + p. -/
def funcIndex : FuncId → Nat
  | .core n => n.val
  | .harbour p => 32 * (p.val / 27) + p.val % 27
  | .port p => p.val
  | .slot k => k.val

/-- The key of a function in its half's table. -/
def funcKey : FuncId → Nat
  | .core n => n.val % 40
  | .harbour p => 64 + p.val % 27
  | .port p => 128 + p.val % 9
  | .slot k => 192 + k.val

/-- Bits 15:0 of a SAF_FUNC_CMD word. -/
def funcWord (f : FuncId) : Nat := funcIndex f * 16 + funcKind f

/-- DETAIL of a task that a function's disable aborts (R56). -/
def funcDetail (f : FuncId) : Nat := funcKind f * 2 ^ 28 + funcIndex f

/-- What a function's table entry says; an unlisted function is enabled. -/
def Block.func (b : Block) (f : FuncId) : FuncState :=
  match f with
  | .slot k => { st := match (b.slot k.val).st with
                   | 1 => 0
                   | 2 => 1
                   | _ => 2,
                 deadline := (b.slot k.val).deadline, aborted := (b.slot k.val).aborted, failed := false }
  | .core _ => (tabFind (b.half (funcHalf f)).funcs (funcKey f)).getD { st := 0, deadline := 0, aborted := 0, failed := false }
  | .harbour _ => (tabFind (b.half (funcHalf f)).funcs (funcKey f)).getD { st := 0, deadline := 0, aborted := 0, failed := false }
  | .port _ => (tabFind (b.half (funcHalf f)).funcs (funcKey f)).getD { st := 0, deadline := 0, aborted := 0, failed := false }

/-- A function's table entry set; a job slot's stands in the slot. -/
def Block.setFunc (b : Block) (f : FuncId) (x : FuncState) : Block :=
  match f with
  | .slot k => b.modSlot k.val (fun s => { s with st := match x.st with
                                                    | 0 => 1
                                                    | 1 => 2
                                                    | _ => 0,
                                                  deadline := x.deadline, aborted := x.aborted })
  | .core _ => b.modHalf (funcHalf f) (fun h => { h with funcs := tabPut h.funcs (funcKey f) x })
  | .harbour _ => b.modHalf (funcHalf f) (fun h => { h with funcs := tabPut h.funcs (funcKey f) x })
  | .port _ => b.modHalf (funcHalf f) (fun h => { h with funcs := tabPut h.funcs (funcKey f) x })

/-- The job whose slot a function is; 0 for another function. -/
def Block.funcJob (b : Block) : FuncId → Nat
  | .slot k => (b.slot k.val).job
  | .core _ => 0
  | .harbour _ => 0
  | .port _ => 0

/-- A log record about a function (R438, R440). -/
def Block.funcLog (b : Block) (f : FuncId) (event arg1 : Nat) : Block :=
  b.log { event := event, half := funcHalf f, kind := funcKind f + 1, index := funcIndex f, job := b.funcJob f, arg0 := funcWord f, arg1 := arg1 }

/-- A command about a function that is refused or ignored, and logged (R20, R41, R51). -/
def Block.funcRefused (b : Block) (f : FuncId) (what value : Nat) (status : Nat := 0) : Block :=
  b.logRefused (funcHalf f) what value status (funcKind f + 1) (funcIndex f) (b.funcJob f)

/-- A port of a function, by half and index. -/
def funcPort : FuncId → Option (HalfId × Nat)
  | .port p => some (halfOf (p.val / 9), p.val % 9)
  | .core _ => none
  | .harbour _ => none
  | .slot _ => none

/-- Step 1 of R50: an enabled function enters Draining; a port's routes move to their alternates (R324). Any other state is left alone
(R51). -/
def Block.startDrain (b : Block) (f : FuncId) : Block :=
  if (b.func f).st ≠ 0 then b
  else
    let h := funcHalf f
    let b1 := b.setFunc f { st := 1, deadline := b.tide h + b.regFld (safReg h 8) 29 0, aborted := 0, failed := false }
    let b2 := match funcPort f with
      | some (h, x) => (((b1.modPort h x (fun l => { l with st := 4 })).rerouted b1 h true).watchPorts).control h x 0 0 0 4
      | none => b1
    (b2.funcLog f 0x0001 0).idleCheck

/-- A disable command (R50, R51). It is audited when it acts (R441 KIND 0x02). -/
def Block.disableFunc (b : Block) (a : Actor) (f : FuncId) : Answer :=
  if (b.func f).st ≠ 0 then b.accept
  else b.auditedAnswer a { kind := 0x02, target := funcWord f, old := 0, new := 2 ^ 16 + funcWord f } (fun b => b.startDrain f)

/-- A port that is enabled trains from step 1 again (R308, R324); one that nothing connects stays untrained. -/
def Block.enablePort (b : Block) (h : HalfId) (x : Nat) : Block :=
  b.modPort h x (fun l => { l with st := if l.linkClass = 0 then 0 else 1, cause := 0, trained := false, retraining := false })

/-- An enable command (R20, R51, R54, R324): a Disabled function is enabled; anything else is refused and logged, and so is a core that
failed its self-test, and a job slot, which is bound alone. -/
def Block.enableFunc (b : Block) (a : Actor) (f : FuncId) (what : Nat) : Answer :=
  let x := b.func f
  let refused : Answer := { block := b.funcRefused f what (funcWord f), status := stPermission }
  match f with
  | .slot _ => refused
  | .core _ =>
    if x.st ≠ 2 ∨ x.failed then refused
    else b.auditedAnswer a { kind := 0x02, target := funcWord f, old := 2, new := funcWord f } (fun b =>
      b.modHalf (funcHalf f) (fun h => { h with funcs := tabDel h.funcs (funcKey f) }))
  | .harbour _ =>
    if x.st ≠ 2 then refused
    else b.auditedAnswer a { kind := 0x02, target := funcWord f, old := 2, new := funcWord f } (fun b =>
      b.modHalf (funcHalf f) (fun h => { h with funcs := tabDel h.funcs (funcKey f) }))
  | .port p =>
    if x.st ≠ 2 then refused
    else b.auditedAnswer a { kind := 0x02, target := funcWord f, old := 2, new := funcWord f } (fun b =>
      (b.modHalf (funcHalf f) (fun h => { h with funcs := tabDel h.funcs (funcKey f) })).enablePort (halfOf (p.val / 9)) (p.val % 9))

/-- What a refused function command names in the log: the register, or the Zilsy command (R440). -/
def funcWhat (p : Path) (h : HalfId) : Nat :=
  match p with
  | .host => safReg h 0x28
  | .zilsy _ => 0x0010

/-- FUNC_DISABLE (R50, R447 0x0010). -/
def execFuncDisable (p : Path) (f : FuncId) (s : State) : Host.Outcome State Fault Refusal :=
  s.act (fun b0 => b0.byPath p [1, 2] 1 (fun a b => b.disableFunc a f))

/-- FUNC_ENABLE (R51, R447 0x0010). -/
def execFuncEnable (p : Path) (f : FuncId) (s : State) : Host.Outcome State Fault Refusal :=
  s.act (fun b0 => b0.byPath p [1, 2] 1 (fun a b => b.enableFunc a f (funcWhat p (funcHalf f))))

/-! ## The drain (R50-R52) -/

/-- Whether a task uses a function: a core it was granted, the Harbour unit it is assigned to or that holds a sample of its batch (R304), the
slot of its job. -/
def Block.usesFunc (b : Block) (f : FuncId) (t : TaskRef) (g : Graph) (c : TaskCtx) : Bool :=
  match f with
  | .core n => c.phase = .running && c.cores.contains n.val
  | .harbour p => c.phase = .running && decide (t.half = halfOf (p.val / 27)) &&
      (b.unitOf t = some (p.val % 27) || c.batch.bind (fun w => w.unit) = some (p.val % 27))
  | .port _ => false
  | .slot k => g.slot = k.val && (c.phase = .waiting || c.phase = .ready || c.phase = .running)

/-- The tasks that still use a function, in ascending half, graph ID and index. -/
def Block.usersOf (b : Block) (f : FuncId) : List TaskRef :=
  ((b.tasksOf .a ++ b.tasksOf .b).filter (fun p => b.usesFunc f p.1 p.2.1 p.2.2)).map (fun p => p.1)

/-- The context that an aborted video task held becomes Fresh (R278). -/
def Block.freshContext (b : Block) (t : TaskRef) : Block :=
  match b.task t with
  | none => b
  | some c =>
    if c.desc.type = 0x09 ∧ (c.desc.mediaOp = 1 ∨ c.desc.mediaOp = 2) ∧ b.holder t.half c.desc.ctxNo = some t then
      b.modStream t.half c.desc.ctxNo StreamCtx.fresh
    else b

/-- Tasks end with ST_ABORTED_DISABLE one after another. -/
def Block.abortAll (b : Block) (detail : Nat) : List TaskRef → Block
  | [] => b
  | t :: ts => ((b.freshContext t).fail t stAborted detail).abortAll detail ts

/-- Tasks aborted for a function: the first of its disable is logged, and the count kept. -/
def Block.abortFor (b : Block) (f : FuncId) (ts : List TaskRef) : Block :=
  match ts with
  | [] => b
  | t :: _ =>
    let x := b.func f
    let b1 := b.abortAll (funcDetail f) ts
    let b2 := if x.aborted = 0 then b1.logAborted (funcDetail f) t else b1
    b2.setFunc f { x with aborted := x.aborted + ts.length }

/-- The packets queued for a port are discarded at D (R324), and counted (R339). -/
def Block.flushPort (b : Block) (h : HalfId) (x : Nat) : Block :=
  let n := (b.port h x).queue.length
  (b.modPort h x (fun l => { l with queue := [] })).countPort h x 15 4 n

/-- Whether a function is Draining and its D has come. -/
def Block.drainDue (b : Block) (f : FuncId) : Bool := (b.func f).st = 1 && decide ((b.func f).deadline ≤ b.tide (funcHalf f))

/-- The halted arrays of tasks run again (R109). -/
def Block.freeArrays (b : Block) (ts : List TaskRef) : Block :=
  ((ts.flatMap (fun t => ((b.task t).map (fun c => c.cores)).getD [])).filter (fun n => (b.core n).halted)).foldl (fun x n => x.unhalt n) b

/-- DRAIN_DEADLINE (R50 step 3): the tasks that still use the function end, and a debug halt of theirs is released (R109). -/
def execDrainDeadline (f : FuncId) (s : State) : Host.Outcome State Fault Refusal :=
  s.act (fun b =>
    if b.drainDue f then
      let b1 := (b.abortFor f (b.usersOf f)).freeArrays (b.usersOf f)
      match funcPort f with
      | some (h, x) => b1.flushPort h x
      | none => b1
    else b)

/-! ## Disabled (R50 step 5, R51, R230) -/

/-- The enabled cores of a half in a CLUSTER_MASK (R31): 0 means any. -/
def Block.coresIn (b : Block) (h : HalfId) (cm : Nat) : List Nat :=
  (List.range 40).filter (fun n => bit (b.coreMask h) n && (cm = 0 || bit cm (n / 8)))

/-- The unfired tasks of a half that can never fire with the cores left (R51). -/
def Block.stranded (b : Block) (h : HalfId) : List TaskRef :=
  ((b.tasksOf h).filter (fun p => (p.2.2.phase = .waiting || p.2.2.phase = .ready) &&
    decide ((b.coresIn h p.2.2.desc.clusterMask).length < p.2.2.desc.cores))).map (fun p => p.1)

/-- The mappings of cache objects by a slot, over every handle. -/
def Block.slotMappings (b : Block) (k : Nat) : List (Nat × (Nat × Nat)) :=
  b.handles.flatMap (fun i => ((b.object i).map (fun o => (o.mappings.filter (fun m => m.1 = k)).map (fun m => (i, m)))).getD [])

/-- Every mapping of a slot is removed and its frames freed (R230); its far entries stay (R214). -/
def Block.releaseSlot (b : Block) (k : Nat) : Block :=
  let b1 := (b.slotMappings k).foldl (fun x m => x.dropMapping m.1 m.2) b
  let free (x : Tiers) : Tiers := { x with frames := x.frames.filter (fun e => e.2 ≠ k + 1) }
  ((b1.modTiers .a free).modTiers .b free).modSlot k (fun _ => JobSlot.reset)

/-- Packets to endpoints, one after another. -/
def Block.manageTo (b : Block) (h : HalfId) (op : Nat) (l : List (Nat × List Byte)) : Block :=
  match l with
  | [] => b
  | (e, x) :: ls => (b.manage h e op x).manageTo h op ls

/-- The ABORT records that waited for a slot are acknowledged to the leader (R392; tag 1, log entry 48). -/
def Block.ackAborts (b : Block) (k : Nat) : Block :=
  let due := b.domain.aborting.filter (fun x => x.1 = k)
  due.foldl (fun x r => x.tellLeader r.2.1 0x13 (r.2.2 ++ leBytes 8 1))
    (b.setDomain { b.domain with aborting := b.domain.aborting.filter (fun x => x.1 ≠ k) })

/-- A slot becomes Disabled (R50, R230, R257): its tables, mappings and contexts go. -/
def Block.closeSlot (b : Block) (k : Nat) : Block :=
  let job := (b.slot k).job
  let early (x : Half) : Half := { x with early := x.early.filter (fun p => pkJob p ≠ job) }
  ((((b.closeStreams job).modHalf .a early).modHalf .b early).releaseSlot k).ackAborts k

/-- A port becomes fenced by command (R324): cause 5. -/
def Block.closePort (b : Block) (h : HalfId) (x : Nat) : Block :=
  ((b.dropLink h x 5 5 false).control h x 0 0 0 2).log { event := 0x0040, half := h, kind := 3, index := modulePort h x, arg0 := modulePort h x, arg1 := 5 }

/-- DRAIN_COMPLETE (R50 step 5): from D on, once no task uses the function, it is Disabled. -/
def execDrainComplete (f : FuncId) (s : State) : Host.Outcome State Fault Refusal :=
  s.act (fun b =>
    if ¬ b.drainDue f ∨ b.usersOf f ≠ [] then b
    else
      let b1 := match f with
        | .core _ => b.abortFor f (b.stranded (funcHalf f))
        | .harbour _ => b
        | .port _ => b
        | .slot _ => b
      let b2 := b1.funcLog f 0x0002 (b1.func f).aborted
      match f with
      | .slot k => (b2.closeSlot k.val).idleCheck
      | .port p => (b2.setFunc f { b2.func f with st := 2 }).closePort (halfOf (p.val / 9)) (p.val % 9)
      | .core _ => b2.setFunc f { b2.func f with st := 2 }
      | .harbour _ => b2.setFunc f { b2.func f with st := 2 })

/-! ## Binding a slot (R41) -/

/-- One endpoint rewritten by the valid GATE_SUBST entry of its tray, again until none matches (R393). -/
def Block.substEp (b : Block) (h : HalfId) : Nat → Nat → Nat
  | 0, x => x
  | fuel + 1, x =>
    match (List.range 64).find? (fun i => b.regFld (gateReg h (0x300 + 8 * i)) 63 63 = 1 && b.regFld (gateReg h (0x300 + 8 * i)) 62 52 = x / 8) with
    | none => x
    | some i => b.substEp h fuel (b.regFld (gateReg h (0x300 + 8 * i)) 51 41 * 8 + x % 8)

/-- A table of `n` entries of `size` bytes read through a slot's translation: its entries, or the status of the read that fails. -/
def Block.readTable (b : Block) (h : HalfId) (k va size n : Nat) : Except Nat (List Nat) :=
  match b.rdGraphN (b.access h k 0 []) va (size * n) 0 with
  | .error (st, _) => .error st
  | .ok l => .ok ((List.range n).map (fun i => leNat ((l.drop (size * i)).take size)))

/-- A half's expert home table as a bind copies it (R128, R393). -/
def Block.copyExperts (b : Block) (h : HalfId) (k : Nat) : Except Nat (List Nat) :=
  let w := b.reg (regBase h + 0x1C10000 + 16 * k)
  if fld w 0 0 = 0 then .ok []
  else match b.readTable h k (fld w 47 12 * 4096) 4 (fld w 63 48 + 1) with
    | .error st => .error st
    | .ok l => .ok (l.map (fun e => b.substEp h 65 (bits e 31 16) * 2 ^ 16 + e % 2 ^ 16))

/-- A half's rank table (R343, R393). -/
def Block.copyRanks (b : Block) (h : HalfId) (k : Nat) : Except Nat (List Nat) :=
  let w := b.reg (colReg h (16 * k))
  if fld w 48 48 = 0 then .ok []
  else match b.readTable h k (fld w 47 12 * 4096) 2 (fld w 63 50 + 1) with
    | .error st => .error st
    | .ok l => .ok (l.map (fun e => if e = 0xFFFF then e else b.substEp h 65 e))

/-- A half's plan table (R343). -/
def Block.copyPlans (b : Block) (h : HalfId) (k : Nat) : Except Nat (List Nat) :=
  let w := b.reg (colReg h (16 * k + 8))
  if fld w 48 48 = 0 then .ok []
  else b.readTable h k (fld w 47 12 * 4096) 8 (fld w 63 50 + 1)

/-- The quotas of every bound slot and of slot `k` fit a half's frames, in the tiers that account by quota (R207). -/
def Block.quotaFits (b : Block) (h : HalfId) (k : Nat) : Bool :=
  let bound := (List.range 16).filter (fun i => i = k || (b.slot i).st ≠ 0)
  let total (hi lo : Nat) : Nat := (bound.map (fun i => b.regFld (tierReg h (0x80 + 8 * i)) hi lo)).sum
  let acct := (b.reg (tierReg h 0)).toNat
  (!(bit acct 0) || decide (total 11 0 ≤ 4014)) && (!(bit acct 1) || decide (total 48 32 ≤ 3968 * (b.placeable h).length))

/-- The copies of one half at a bind: experts, ranks and plans; then its quota check (R41). -/
def Block.copyHalf (b : Block) (h : HalfId) (k : Nat) : Except Nat (List Nat × List Nat × List Nat) :=
  match b.copyExperts h k with
  | .error st => .error st
  | .ok e => match b.copyRanks h k with
    | .error st => .error st
    | .ok r => match b.copyPlans h k with
      | .error st => .error st
      | .ok p => if b.quotaFits h k then .ok (e, r, p) else .error stQuota

/-- Whether a page row names memory that a job may map (R198, R201, R202): aligned, in Shelf or Bay, or a read-only far range. -/
def Block.rowMaps (b : Block) (r : PageRow) : Bool :=
  let size := if r.big then 0x40000000 else frameSize
  decide (r.target % size = 0) && decide (r.va < 2 ^ 27) && (!r.big || decide (r.va % 512 = 0)) &&
    (if r.target / 2 ^ 60 = 0 then
      (List.range (size / frameSize)).all (fun i => let f := r.target + i * frameSize
        b.holds f && (match regionOf f with
          | .shelf _ => true
          | .bay _ _ => true
          | .cove _ => false
          | .control => false
          | .store _ => false
          | .hole => false))
     else !r.writable && (r.target / 2 ^ 60 = 3 || r.target / 2 ^ 60 = 4))

/-- One row of a job's translation tables enters its slot: its frames become the slot's (log entry 18). -/
def Block.addRow (b : Block) (k : Nat) (r : PageRow) : Except Nat Block :=
  let frames := if r.target / 2 ^ 60 = 0 then (if r.big then regionFrames r.target else [r.target]) else []
  if ¬ b.rowMaps r ∨ anyMapped (b.slot k).pages (r.va * frameSize) (if r.big then 0x40000000 else frameSize) ∨
      frames.any (fun f => (tabFind (b.tiers (homeOf f)).frames f).isSome) then .error stXlate
  else if 4194304 ≤ b.entriesUsed then .error stQuota
  else
    let b1 := frames.foldl (fun x f => x.modTiers (homeOf f) (fun t => { t with frames := tabPut t.frames f (k + 1) })) b
    .ok (b1.addPages k [(r.va, { target := r.target, big := r.big, writable := r.writable, noPrefetch := r.noPrefetch, handle := 0 })])

/-- A job's translation tables copied row by row. -/
def Block.addRows (b : Block) (k : Nat) : List PageRow → Except Nat Block
  | [] => .ok b
  | r :: rs => match b.addRow k r with
    | .error st => .error st
    | .ok b1 => b1.addRows k rs

/-- Registers of a range at their reset values again. -/
def Block.clearRegs (b : Block) (lo hi : Nat) : Block := { b with regs := b.regs.filter (fun p => !(decide (lo ≤ p.1) && decide (p.1 < hi))) }

/-- What a bind clears on a half: the slot's statistics records (R72), exponent latches (R368), step records, and what it held for repeats. -/
def Block.clearSlot (b : Block) (h : HalfId) (k : Nat) : Block :=
  (((b.clearRegs (regBase h + 0x1000000 + k * 0x40000) (regBase h + 0x1000000 + (k + 1) * 0x40000)).clearRegs
    (regBase h + 0x1400000 + k * 0x8000) (regBase h + 0x1400000 + (k + 1) * 0x8000)).clearRegs (gateReg h (0x200 + 8 * k)) (gateReg h (0x208 + 8 * k))).modHalf h
      (fun x => { x with steps := x.steps.filter (fun r => r.slot ≠ k), repeatHeaders := x.repeatHeaders.filter (fun w => w.graph.slot ≠ k) })

/-- The hashes of a half's copied tables (R128, R343). -/
def Block.setHashes (b : Block) (h : HalfId) (k : Nat) (x : List Nat × List Nat × List Nat) : Block :=
  (b.setReg (regBase h + 0x1C10008 + 16 * k) (BitVec.ofNat 64 (crc64 (x.1.flatMap (leBytes 4))))).setReg (colReg h (0x100 + 8 * k))
    (BitVec.ofNat 64 (crc64 (x.2.1.flatMap (leBytes 2) ++ x.2.2.flatMap (leBytes 8))))

/-- A half's expert table store (R128): slot k's table at k × 256 KiB of it (DEDUCED, log entry 77). A bind writes the entries it has copied. -/
def Block.storeExperts (b : Block) (h : HalfId) (k : Nat) (l : List Nat) : Block :=
  b.store (match h with
    | .a => 0x3F9C00000 + k * 0x40000
    | .b => 0x5F9C00000 + k * 0x40000) (l.flatMap (leBytes 4))

/-- The checks and copies of a bind, in R41's order: the block with the slot Active, or the first failure's status. -/
def Block.bind (b : Block) (k job : Nat) (tables : List PageRow) : Except Nat Block :=
  if (b.slotOfJob job).isSome ∨ [HalfId.a, .b].any (fun h => (List.range 160).any (fun ch =>
      b.regFld (chanReg h ch 0x18) 63 62 = 1 && b.regFld (chanReg h ch 0) 2 1 = 0)) then .error stPermission
  else match b.addRows k tables with
    | .error st => .error st
    | .ok b1 => match b1.copyHalf .a k with
      | .error st => .error st
      | .ok xa => match b1.copyHalf .b k with
        | .error st => .error st
        | .ok xb =>
          let words (l : List Nat) : List Word := l.map (BitVec.ofNat 64)
          let es := [words xa.1, words xb.1]
          let ranks := [xa.2.1, xb.2.1]
          let plans := [words xa.2.2, words xb.2.2]
          let b2 := ((b1.storeExperts .a k xa.1).storeExperts .b k xb.1).modSlot k (fun s =>
            { s with st := 1, job := job, deadline := 0, aborted := 0, experts := es, ranks := ranks, plans := plans })
          .ok (((((b2.clearSlot .a k).clearSlot .b k).setHashes .a k xa).setHashes .b k xb).clearEnergy k)

/-- A SAF_JOB_SLOT_CTRL_k write with ENABLE = 1 (R41). -/
def Block.bindWrite (b : Block) (k job : Nat) (tables : List PageRow) : Answer :=
  let what := safReg .a (0x400 + 16 * k)
  let refused (st : Nat) : Answer :=
    { block := b.logRefused .a what (4096 + job) st 4 k (if (b.slot k).st = 0 then 0 else (b.slot k).job), status := if st = 0 then stPermission else st }
  if (b.slot k).st ≠ 0 then refused 0
  else match b.bind k job tables with
    | .error st => refused st
    | .ok b1 => b1.idleCheck.accept

/-- JOB_SLOT_BIND (R41). -/
def execJobSlotBind (p : Path) (k : Fin 16) (job : Fin 4096) (tables : List PageRow) (s : State) : Host.Outcome State Fault Refusal :=
  s.act (fun b0 => b0.byPath p [1, 2] 1 (fun _ b => b.bindWrite k.val job.val tables))

/-- JOB_SLOT_DISABLE (R41, R50): SAF_JOB_SLOT_CTRL_k with ENABLE = 0; it does nothing to a slot that is not Active. -/
def execJobSlotDisable (p : Path) (k : Fin 16) (s : State) : Host.Outcome State Fault Refusal :=
  s.act (fun b0 => b0.byPath p [1, 2] 1 (fun _ b => (b.startDrain (.slot k)).accept))

/-! ## Clearing (R54, R55, R170) -/

/-- A write of SAF_STALL_CLEAR. -/
def Block.clearStalls (b : Block) (h : HalfId) (v : Word) : Block :=
  if v.getLsbD 0 then b.clearRegs (0x60000000 + 40 * halfNum h * 0x1000) (0x60000000 + (40 * halfNum h + 40) * 0x1000) else b

/-- The look-aside entries of a slot go on every core of a half. -/
def Block.invalidateKv (b : Block) (h : HalfId) (k : Nat) : Block :=
  (List.range 40).foldl (fun x n => x.modCore (40 * halfNum h + n) (fun e => { e with lab := e.lab.filter (fun r => r.1 ≠ k) })) b

/-- STALL_CLEAR (R54): bit 0 clears every stall and IDLE counter of the half's cores. -/
def execStallClear (p : Path) (h : HalfId) (value : Word) (s : State) : Host.Outcome State Fault Refusal :=
  s.act (fun b0 => b0.byPath p [1, 2] 1 (fun _ b => (b.clearStalls h value).accept))

/-- KV_INVAL (R170): the slot's look-aside entries go on every core of the half. -/
def execKvInval (p : Path) (h : HalfId) (k : Fin 16) (s : State) : Host.Outcome State Fault Refusal :=
  s.act (fun b0 => b0.byPath p [1, 2] 1 (fun _ b => (b.invalidateKv h k.val).accept))

end Sys2Proof.Machine
end

