-- ==== Sys2Proof/Machine/Tide.lean ====
section
/-! DEFINITION. Tide (spec/12_efing_and_tide.md R326-R331, spec/16_configuration_image.md R425): exchanges, parents, lock, holdover and the
root's reference. -/

namespace Sys2Proof.Machine

/-- A half's Tide clock changed. -/
def Block.modTide (b : Block) (h : HalfId) (f : TideClock → TideClock) : Block := b.modHalf h (fun x => { x with tide := f x.tide })

/-- A field of TIDE_STAT. -/
def Block.setTideStat (b : Block) (h : HalfId) (hi lo v : Nat) : Block := b.setRegFld (tideReg h 8) hi lo v

/-- Whether a half is at depth 0: the topology's root, or a backup that has taken over (R328, R331). -/
def Block.isRoot (b : Block) (h : HalfId) : Bool := b.endpoint h = b.rootEp || b.regFld (tideReg h 8) 61 61 = 1

/-- Whether a half may take a reference: the root, or the topology's backup root. -/
def Block.mayReference (b : Block) (h : HalfId) : Bool :=
  b.isRoot h || ((b.image.topology.map (fun t => decide (topoBackup t = b.endpoint h))).getD false)

/-- A rate correction within 200 ppm: how much a half slews is no rule's (log entry 49). -/
def Block.slewed (b : Block) (h : HalfId) : Block :=
  let r := b.fresh
  r.2.modTide h (fun t => { t with slew := ((r.1 % 400001 : Nat) : Int) - 200000 })

/-- A half becomes Locked; when both are, the module's lease timer starts and its ready report may go (R333, R334). -/
def Block.lockTide (b : Block) (h : HalfId) : Block :=
  let b1 := (b.setTideStat h 63 63 1).modTide h (fun t => { t with everLocked := true })
  let b2 := if b1.bothLocked ∧ ¬ b.bothLocked ∧ b.domain.lockedAt = 0 then b1.setDomain { b1.domain with lockedAt := b1.tide .a } else b1
  b2.reportReady

/-! ## Exchanges (R327, R328) -/

/-- Whether a link carries time packets: Up, or Slack. -/
def Port.timed (l : Port) : Bool := l.st = 2 || l.st = 3

/-- A time packet on a link. -/
def Block.sendTime (b : Block) (h : HalfId) (x op tx : Nat) (payload : List Byte) : Block :=
  let r := b.makePacket h (b.port h x).nbrEndpoint 0 4 op 0 tx 0 payload
  r.2.linkSend h x r.1

/-- A SYNC on every link that carries time. -/
def Block.syncLinks (b : Block) (h : HalfId) : List Nat → Block
  | [] => b
  | x :: xs => (if (b.port h x).timed then b.sendTime h x 0x01 (b.tide h) [] else b).syncLinks h xs

/-- TIDE_EXCHANGE (R327): once per 1 ms of Tide. -/
def execTideExchange (h : HalfId) (s : State) : Host.Outcome State Fault Refusal :=
  s.act (fun b =>
    let t := (b.half h).tide
    if t.lastExchange + 1000000 ≤ t.now then (b.modTide h (fun t => { t with lastExchange := t.now })).syncLinks h (List.range 10) else b)

/-- A time packet that the command brings leaves the link's receive buffer, where it came in a codeword group (R314). -/
def Block.unbufferTime (b : Block) (h : HalfId) (x op : Nat) : Block :=
  match (b.half h).efing.arrived.find? (fun a => a.exit = x && pkClass a.packet = 4 && pkOp a.packet = op) with
  | none => b
  | some a => b.unbuffer h a.packet

/-- SYNC (R327): the parent's side stamps its arrival as t2 and answers with ECHO. -/
def execSync (h : HalfId) (x : Fin 10) (t1 : Nat) (s : State) : Host.Outcome State Fault Refusal :=
  s.act (fun b0 =>
    let b := b0.unbufferTime h x.val 0x01
    if (b.port h x.val).timed then b.sendTime h x.val 0x02 (b.tide h) (leBytes 8 t1 ++ leBytes 8 (b.tide h)) else b)

/-- Half of a sum, in nanoseconds. -/
def halfOfSum (x : Int) : Int := (x + (if Config.halfUp then 1 else 0)) / 2

/-- Whether a link leads to an eligible parent: it carries time, and its neighbour is Locked and not too deep (R328). -/
def Block.eligible (b : Block) (h : HalfId) (x : Nat) : Bool :=
  decide (x < 10) && (b.port h x).timed && (b.port h x).nbrLocked && decide ((b.port h x).nbrDepth < 15)

/-- The first of a half's listed ports that leads to an eligible parent. -/
def Block.firstParent (b : Block) (h : HalfId) : Option Nat := (b.parents h).find? (fun x => b.eligible h x)

/-- A half takes a parent: it keeps Locked, and leaves holdover (R330). -/
def Block.takeParent (b : Block) (h : HalfId) (x : Nat) : Block :=
  ((((b.modTide h (fun t => { t with parent := some x, synced := false, holdoverFrom := none })).setTideStat h 62 62 0).setTideStat h 59 56
    ((b.port h x).nbrDepth + 1)).setTideStat h 55 52 x)

/-- A half has no eligible parent: a Locked one runs free in holdover (R330). -/
def Block.loseParent (b : Block) (h : HalfId) : Block :=
  let b1 := (b.modTide h (fun t => { t with parent := none, synced := false, good := 0 })).setTideStat h 55 52 0xF
  if b.locked h then
    (b1.modTide h (fun t => { t with holdoverFrom := if t.holdoverFrom.isSome then t.holdoverFrom else some t.now })).setTideStat h 62 62 1
  else b1

/-- An exchange with the parent steers the counter (R326-R328): a half that was never Locked sets it at its first exchange with a parent;
then, and always once it has been Locked, it slews. 32 consecutive exchanges within 10 ns lock it. -/
def Block.steer (b : Block) (h : HalfId) (x t1 t2 t3 : Nat) : Block :=
  let t := (b.half h).tide
  let there : Int := (t2 : Int) - t1
  let back : Int := (t.now : Int) - t3
  let theta := halfOfSum (there - back - (b.port h x).asym)
  let delta := halfOfSum (there + back)
  let b1 := (b.setReg (tideReg h 0x10) (BitVec.ofNat 64 (twos 32 theta * 2 ^ 32 + twos 32 delta))).setTideStat h 59 56 ((b.port h x).nbrDepth + 1)
  if ¬ t.everLocked ∧ ¬ t.synced then
    b1.modTide h (fun t => { t with now := ((t3 : Int) + delta).toNat, frac := 0, running := true, synced := true, good := 0,
                                    lastExchange := ((t3 : Int) + delta).toNat })
  else
    let good := if -10 ≤ theta ∧ theta ≤ 10 then t.good + 1 else 0
    let b2 := (b1.slewed h).modTide h (fun t => { t with synced := true, good := good })
    if 32 ≤ good ∧ ¬ b.locked h ∧ (b.port h x).nbrDepth + 1 ≤ 15 then b2.lockTide h else b2

/-- ECHO (R327, R328, R330): the child takes t4 as it arrives. Exchanges on other links are recorded for parent selection. That the ECHO
tells the neighbour's lock and depth is the model's (DESIGN CHOICE, log entry 49). -/
def execEcho (h : HalfId) (x : Fin 10) (t1 t2 t3 : Nat) (locked : Bool) (depth : Nat) (s : State) : Host.Outcome State Fault Refusal :=
  s.act (fun b0 =>
    let b := b0.unbufferTime h x.val 0x02
    if ¬ (b.port h x.val).timed then b
    else
      let b1 := b.modPort h x.val (fun l => { l with nbrLocked := locked, nbrDepth := depth })
      if b1.isRoot h then b1
      else
        let b2 := if (b1.half h).tide.parent.isNone then
            (match b1.firstParent h with
             | some y => b1.takeParent h y
             | none => b1)
          else b1
        if (b2.half h).tide.parent = some x.val ∧ b2.eligible h x.val then b2.steer h x.val t1 t2 t3 else b2.reportReady)

/-- PARENT_SWITCH (R330): the parent's port has left Up, or the parent has lost lock. -/
def execParentSwitch (h : HalfId) (s : State) : Host.Outcome State Fault Refusal :=
  s.act (fun b => match (b.half h).tide.parent with
    | none => b
    | some x =>
      if b.isRoot h ∨ b.eligible h x then b
      else match b.firstParent h with
        | some y => b.takeParent h y
        | none => b.loseParent h)

/-- HOLDOVER_EXPIRY (R330): without a parent for TIDE_HOLDOVER_MAX, LOCKED clears and the event is logged. -/
def execHoldoverExpiry (h : HalfId) (s : State) : Host.Outcome State Fault Refusal :=
  s.act (fun b => match (b.half h).tide.holdoverFrom with
    | none => b
    | some t =>
      if b.locked h ∧ t + b.regFld (tideReg h 0x18) 29 0 ≤ b.tide h then
        (b.setTideStat h 63 63 0).log { event := 0x0041, half := h, arg0 := b.regFld (tideReg h 8) 59 56, arg1 := 1 }
      else b)

/-! ## The root's reference (R331, R425) -/

/-- The root starts Tide at a value and is Locked. -/
def Block.startRoot (b : Block) (h : HalfId) (now ref : Nat) : Block :=
  let b1 := b.modTide h (fun t => { t with now := now, frac := 0, running := true, lastExchange := now })
  (((((b1.setTideStat h 61 61 1).setTideStat h 59 56 0).setTideStat h 55 52 0xF).setTideStat h 51 50 ref).lockTide h)

/-- The root meets its reference: it starts Tide, or slews to it. -/
def Block.reference (b : Block) (h : HalfId) (now ref : Nat) : Block :=
  if ¬ b.isRoot h then b
  else if ¬ (b.half h).tide.running then b.startRoot h now ref
  else ((b.slewed h).setTideStat h 51 50 ref).setTideStat h 60 60 0

/-- CLK10M_LOCK (R331). -/
def execClk10mLock (h : HalfId) (s : State) : Host.Outcome State Fault Refusal :=
  s.act (fun b => if b.mayReference h ∧ b.image.tideRef = 0 then b.modTide h (fun t => { t with clk10m := true }) else b)

/-- PPS_EDGE (R331, R485, R488): PPS_SEEN is set; the root does not start Tide until it has locked to the 10 MHz input. -/
def execPpsEdge (h : HalfId) (s : State) : Host.Outcome State Fault Refusal :=
  s.act (fun b0 =>
    let b := if b0.sys.powerGood then b0.setRegFld (zilReg 0x40) 2 2 1 else b0
    if b.image.tideRef = 0 ∧ (b.half h).tide.clk10m then b.reference h b.image.tideStartNs 1 else b)

/-- PTP_TIME (R331): IEEE 1588 time reaches the root through Zilsy, less DOMAIN_EPOCH. -/
def execPtpTime (h : HalfId) (ns : Nat) (s : State) : Host.Outcome State Fault Refusal :=
  s.act (fun b => if b.image.tideRef = 1 ∧ b.zilsy.up then b.reference h (ns - b.image.domainEpoch) 2 else b)

/-- The root's reference is lost (R331): it runs free. Cause 2 in the record is the model's (log entry 14). -/
def Block.loseReference (b : Block) (h : HalfId) : Block :=
  if b.isRoot h ∧ b.regFld (tideReg h 8) 51 50 ≠ 0 ∧ b.regFld (tideReg h 8) 60 60 = 0 then
    (((b.modTide h (fun t => { t with clk10m := false })).setTideStat h 60 60 1)).log { event := 0x0041, half := h, arg0 := 0, arg1 := 2 }
  else b

/-- REFERENCE_LOSS (R331). -/
def execReferenceLoss (h : HalfId) (s : State) : Host.Outcome State Fault Refusal := s.act (fun b => b.loseReference h)

/-- REF_EDGE_TIMEOUT (R425): under the built-in topology, half A starts Tide at 0 when no reference edge has come within 1 s of Ready;
REF_LOST is set, and the event logged as R331 says of a lost reference. -/
def execRefEdgeTimeout (s : State) : Host.Outcome State Fault Refusal :=
  s.act (fun b =>
    if b.image.topology.isNone ∧ b.sys.ready ∧ ¬ b.halfA.tide.running ∧ b.sys.readyAt + 1000000000 ≤ b.sys.upNs then
      ((b.startRoot .a 0 0).setTideStat .a 60 60 1).log { event := 0x0041, half := .a, arg0 := 0, arg1 := 2 }
    else b)

end Sys2Proof.Machine
end

