-- ==== Sys2Proof/Machine/Lease.lean ====
section
/-! DEFINITION. The coordinator lease and the recovery journal (spec/12_efing_and_tide.md R333; spec/14_when_a_step_fails.md R378, R383,
R386-R391). The layout of the messages is the model's (DESIGN CHOICE, log entries 48, 51). -/

namespace Sys2Proof.Machine

/-- A block with the domain's state changed. -/
def Block.modDomain (b : Block) (f : Domain → Domain) : Block := b.setDomain (f b.domain)

/-- The module's own rank; 15 when it is no candidate. -/
def Block.ownRank (b : Block) : Nat := b.rankOf b.moduleNo

/-- The candidate modules in rank order. -/
def Block.candModules (b : Block) : List Nat := (sortBy (fun x y => decide (x.1 ≤ y.1)) b.cands).map (fun c => c.2)

/-! ## Records (R387, R388) -/

def recSeq (l : List Byte) : Nat := u64At l 0
def recKind (l : List Byte) : Nat := bits (u64At l 8) 63 56
def recJob (l : List Byte) : Nat := bits (u64At l 8) 55 44
def recStep (l : List Byte) : Nat := bits (u64At l 8) 31 0
def recArg0 (l : List Byte) : Nat := u64At l 16
def recArg1 (l : List Byte) : Nat := u64At l 24

/-- A record as the leader appends it: SEQ, the draft's fields, TIDE and CRC. -/
def sealRecord (seq tide : Nat) (draft : List Byte) : List Byte :=
  let head := leBytes 8 seq ++ (draft.drop 8).take 24 ++ leBytes 8 tide ++ List.replicate 20 0
  head ++ leBytes 4 (crc32c head)

/-- The journal's records in SEQ order. -/
def Block.records (b : Block) : List (List Byte) := b.domain.journal.map (fun p => p.2)

/-- A record stands in the module's replica, a ring of 65,536 records. -/
def Block.keepRecord (b : Block) (l : List Byte) : Block :=
  b.modDomain (fun d => { d with journal := (tabPut d.journal (recSeq l) l).filter (fun p => decide (recSeq l < p.1 + 65536)),
                                 nextJournal := max d.nextJournal (recSeq l + 1) })

/-- The replicas of the journal (R386): the leader and the next two live candidates in rank order. -/
def Block.replicas (b : Block) : List Nat :=
  b.moduleNo :: ((b.candModules.filter (fun m => m ≠ b.moduleNo && !(b.domain.failedTrays.contains (m / 4)))).take 2)

/-- Whether a record is durable: two of the replicas hold it, or the only one. -/
def Block.durable (b : Block) (seq : Nat) : Bool :=
  let r := b.replicas
  decide (min 2 r.length ≤ (r.filter (fun m => (tabGet [] b.domain.held seq).contains m)).length)

/-- A record sent to replicas: tag 0 (log entry 48). -/
def Block.sendRecord (b : Block) (l : List Byte) : List Nat → Block
  | [] => b
  | m :: ms => (if m = b.moduleNo then b else b.manage .a (2 * m) 0x12 (l ++ leBytes 8 0)).sendRecord l ms

/-- The leader appends a record. -/
def Block.appendRecord (b : Block) (draft : List Byte) : Block :=
  let l := sealRecord b.domain.nextJournal (b.tide .a) draft
  let b1 := (b.keepRecord l).modDomain (fun d => { d with held := tabPut d.held (recSeq l) [b.moduleNo], unacted := d.unacted ++ [recSeq l] })
  b1.sendRecord l b1.replicas

/-! ## Verdicts in the journal (R378, R383, R397) -/

/-- The VERDICT records of a job's step since the job's last RESUME. -/
def Block.verdicts (b : Block) (job step : Nat) : List (List Byte) :=
  let mine := b.records.filter (fun l => recJob l = job && (recKind l = 1 || recKind l = 6))
  ((mine.reverse.takeWhile (fun l => recKind l = 1)).reverse).filter (fun l => recStep l = step)

/-- Whether a VERDICT record is a REPEAT. -/
def recRepeat (l : List Byte) : Bool := bits (recArg0 l) 31 30 = 2

/-- The verdict that the journal holds for a run of a step: each REPEAT ends a run (log entry 50). -/
def Block.journaled (b : Block) (job step run : Nat) : Option (List Byte) :=
  let l := b.verdicts job step
  match l[run]? with
  | some x => some x
  | none => match l.getLast? with
    | some x => if recRepeat x then none else some x
    | none => none

/-- LATE_EP of a VERDICT record. -/
def recLateEp (l : List Byte) : Nat := bits (recArg1 l) 63 48

/-- How many of a step's latest REPEATs in a row name the same laggard (R383): the laggard and the count. -/
def Block.laggard (b : Block) (job step : Nat) : Option (Nat × Nat) :=
  match ((b.verdicts job step).filter (fun l => recRepeat l && recLateEp l ≠ 0xFFFF)).reverse with
  | [] => none
  | l :: ls => some (recLateEp l, 1 + (ls.takeWhile (fun x => recLateEp x = recLateEp l)).length)

/-- A verdict answer: job, step, run, and words 0 and 1. -/
def answerBytes (l : List Byte) (run : Nat) : List Byte :=
  leBytes 4 (recJob l) ++ leBytes 4 (recStep l) ++ leBytes 4 run ++ leBytes 8 (recArg0 l) ++ leBytes 8 (recArg1 l)

/-- What an endpoint is owed for a durable verdict: the owner's acknowledgement, tag 2 with the run, or the answer to a query. -/
def Block.payOwed (b : Block) (l : List Byte) (ep word : Nat) : Block :=
  if word % 256 = 0x13 then b.manage .a ep 0x13 (l ++ leBytes 8 (2 + word / 256 * 256))
  else b.manage .a ep 0x15 (answerBytes l (word / 256))

/-- Everything owed for a record is sent. -/
def Block.payAll (b : Block) (l : List Byte) : Block :=
  let due := b.domain.owed.filter (fun o => o.1 = recSeq l)
  due.foldl (fun x o => x.payOwed l o.2.1 o.2.2) (b.modDomain (fun d => { d with owed := d.owed.filter (fun o => o.1 ≠ recSeq l) }))

/-! ## The leader's actions (R383, R385, R388, R392) -/

/-- The endpoints that take part now: the roster's trays that are not failed; under the built-in topology this module's two. -/
def Block.liveEndpoints (b : Block) : List Nat :=
  if b.image.topology.isNone then [b.endpoint .a, b.endpoint .b]
  else b.rosterEndpoints.filter (fun e => !(b.domain.failedTrays.contains (e / 8)))

/-- A record sent to every live endpoint as a recovery command. -/
def Block.orderAll (b : Block) (l : List Byte) : Block := b.manageTo .a 0x16 (b.liveEndpoints.map (fun e => (e, l)))

/-- A tray is declared failed (R385): its LOST record is appended, and a candidate that joins the replicas receives the whole journal (R386). -/
def Block.declareLost (b : Block) (tray cause : Nat) : Block :=
  if b.domain.failedTrays.contains tray then b
  else
    let b1 := b.modDomain (fun d => { d with failedTrays := d.failedTrays ++ [tray] })
    let fresh := b1.replicas.filter (fun m => !(b.replicas.contains m))
    let b2 := b1.records.foldl (fun x l => x.sendRecord l fresh) b1
    b2.appendRecord (journalDraft 3 0 0 tray cause)

/-- The jobs known to be bound on a tray (R384). -/
def Block.jobsOn (b : Block) (tray : Nat) : List Nat := tabGet [] b.domain.trayJobs tray

/-- The SEQ of a tray's LOST record, if it has one. -/
def Block.lostRecord (b : Block) (tray : Nat) : Option Nat :=
  ((b.records.filter (fun l => recKind l = 3 && recArg0 l = tray)).getLast?).map recSeq

/-- The ABORT records of a LOST record. -/
def Block.abortsOf (b : Block) (seq : Nat) : List (List Byte) := b.records.filter (fun l => recKind l = 4 && recArg0 l = seq)

/-- Whether an action record has been acknowledged by all. -/
def Block.finished (b : Block) (seq : Nat) : Bool := !(b.domain.unacted.contains seq) && (tabFind b.domain.acks seq).isNone

/-- Whether a failed tray has its SUBST or SHORTFALL record. -/
def Block.substituted (b : Block) (tray seq : Nat) : Bool :=
  b.records.any (fun l => (recKind l = 5 || recKind l = 7) && recArg0 l = tray && decide (seq < recSeq l))

/-- The first ready tray of the spare pool that is not in use and not failed (R392). -/
def Block.spareTray (b : Block) : Option Nat :=
  b.sparePool.find? (fun y => !(b.domain.roster.contains y) && !(b.domain.failedTrays.contains y))

/-- A GATE_SUBST entry of a half that is not in use. -/
def Block.freeSubst (b : Block) (h : HalfId) : Option Nat := (List.range 64).find? (fun i => b.regFld (gateReg h (0x300 + 8 * i)) 63 63 = 0)

/-- The failed trays that wait for a spare, in ascending order, each with its LOST record. -/
def Block.unsubstituted (b : Block) : List (Nat × Nat) :=
  (sortBy (fun x y => decide (x ≤ y)) b.domain.failedTrays).filterMap (fun t => match b.lostRecord t with
    | some s => if b.substituted t s then none else some (t, s)
    | none => none)

/-- SUBST or SHORTFALL for the lowest failed tray, once its LOST and its ABORTs are done (R392 step 5, R397). -/
def Block.trySubst (b : Block) : Block :=
  match b.unsubstituted with
  | [] => b
  | (t, s) :: _ =>
    if b.finished s ∧ (b.abortsOf s).all (fun l => b.finished (recSeq l)) then
      match b.spareTray, b.freeSubst .a with
      | some y, some _ => b.appendRecord (journalDraft 5 0 0 t y)
      | _, _ => b.appendRecord (journalDraft 7 0 0 t 0)
    else b

/-- Whether a lender may still serve a copy (R391). -/
def Block.lenderLives (b : Block) (e : Nat) : Bool := !(b.domain.failedTrays.contains (e / 8)) && !(b.domain.revokingLenders.contains e)

/-- The latest checkpoint of a job in which every endpoint has a live copy (R391): as far as the reports this leader accepted and the record's
own copies tell (DEDUCED, log entry 51). -/
def Block.checkpointFor (b : Block) (job : Nat) : Option (List Byte) :=
  (b.records.filter (fun l => recKind l = 2 && recJob l = job)).reverse.find? (fun l =>
    (b.lenderLives (bits (recArg1 l) 63 48) || b.lenderLives (bits (recArg1 l) 47 32)) &&
    (b.domain.checkpoints.filter (fun r => r.job = job && r.step = recStep l)).all (fun r => b.lenderLives r.copy0 || b.lenderLives r.copy1))

/-- RESUME for each job that a tray's failure aborted (R392 step 6). A job without a checkpoint stays Disabled (log entry 51). -/
def Block.resumeJobs (b : Block) (tray : Nat) : Block :=
  match b.lostRecord tray with
  | none => b
  | some s => (b.abortsOf s).foldl (fun x l => match x.checkpointFor (recJob l) with
    | some c => x.appendRecord (journalDraft 6 (recJob l) (recStep c) (recArg0 c) 0)
    | none => x) b

/-- The leader acts on a durable record. An action is DONE once every live endpoint has acknowledged it. -/
def Block.actOn (b : Block) (l : List Byte) : Block :=
  let command (x : Block) : Block := (x.modDomain (fun d => { d with acks := tabPut d.acks (recSeq l) [] })).orderAll l
  match recKind l with
  | 1 =>
    let b1 := b.payAll l
    match (if recRepeat l then b1.laggard (recJob l) (recStep l) else none) with
    | some (ep, n) => if b1.repeatLimit < n ∧ recLateEp l = ep then b1.declareLost (ep / 8) 3 else b1
    | none => b1
  | 3 => (b.jobsOn (recArg0 l)).foldl (fun x j =>
      if (x.abortsOf (recSeq l)).any (fun a => recJob a = j) then x else x.appendRecord (journalDraft 4 j 0 (recSeq l) 0)) (command b)
  | 4 => command b
  | 5 => command b
  | 6 => command b
  | _ => b

/-- The action records that every live endpoint has acknowledged, and that are not DONE. -/
def Block.completed (b : Block) : Option Nat :=
  (b.domain.acks.find? (fun p => b.liveEndpoints.all (fun e => p.2.contains e))).map (fun p => p.1)

/-- An action is DONE: what follows it is appended (R392). -/
def Block.complete (b : Block) (seq : Nat) : Block :=
  let b1 := (b.modDomain (fun d => { d with acks := tabDel d.acks seq })).appendRecord (journalDraft 0x0F 0 0 seq 0)
  match tabFind b1.domain.journal seq with
  | none => b1
  | some l => match recKind l with
    | 3 => b1.trySubst
    | 4 => b1.trySubst
    | 5 => (b1.resumeJobs (recArg0 l)).trySubst
    | _ => b1

/-- The leader acts on every record that is durable, in SEQ order, and completes what is acknowledged. -/
def Block.pump (b : Block) : Nat → Block
  | 0 => b
  | fuel + 1 =>
    match b.domain.unacted.find? (fun s => b.durable s) with
    | some s =>
      let b1 := b.modDomain (fun d => { d with unacted := d.unacted.erase s })
      ((match tabFind b.domain.journal s with
        | some l => b1.actOn l
        | none => b1).pump fuel)
    | none => match b.completed with
      | some s => (b.complete s).pump fuel
      | none => b

/-- Rounds that cover every chain of actions one message can start. -/
def pumpFuel : Nat := 100000

/-- The leader goes on, when this module leads and has read the replicas. -/
def Block.lead (b : Block) : Block := if b.domain.holder ∧ b.domain.reading.isNone then b.pump pumpFuel else b

/-! ## Taking over (R388) -/

/-- The action records that have no DONE. -/
def Block.openActions (b : Block) : List Nat :=
  ((b.records.filter (fun l => decide (3 ≤ recKind l) && decide (recKind l ≤ 6) &&
    !(b.records.any (fun d => recKind d = 0x0F && recArg0 d = recSeq l)))).map recSeq)

/-- The replicas are read: LEASE is appended, open actions are redone, and new REPEATs wait RESOLVE_US. -/
def Block.takeLead (b : Block) : Block :=
  let now := b.tide .a
  let lost := ((b.records.filter (fun l => recKind l = 3)).map recArg0).eraseDups
  let acts := b.openActions
  let b1 := b.modDomain (fun d => { d with
    reading := none, failedTrays := lost, unacted := acts, acks := [], owed := [], held := acts.map (fun s => (s, [b.moduleNo])),
    leadsFrom := now + 1000 * b.regFld (gateReg .a 0) 39 24, trayBeat := (sortBy (fun x y => decide (x ≤ y)) d.roster).map (fun y => (y, now)) })
  let b2 := acts.foldl (fun x s => match tabFind x.domain.journal s with
    | some l => x.sendRecord l x.replicas
    | none => x) b1
  (b2.appendRecord (journalDraft 8 0 0 b.moduleNo b.ownRank)).lead

/-- A new leader asks every other candidate that is not lost for its replica: append with tag 2 (log entry 48). -/
def Block.readReplicas (b : Block) (old : Option Nat) : Block :=
  let ms := b.candModules.filter (fun m => m ≠ b.moduleNo && some m ≠ old && !(b.domain.lost.contains (m / 4)))
  if ms.isEmpty then b.takeLead
  else (b.modDomain (fun d => { d with reading := some ms })).manageTo .a 0x12 (ms.map (fun m => (2 * m, List.replicate 64 0 ++ leBytes 8 2)))

/-- A replica is read, or will not answer. -/
def Block.readDone (b : Block) (gone : Nat → Bool) : Block :=
  match b.domain.reading with
  | none => b
  | some ms =>
    let left := ms.filter (fun m => !(gone m))
    if left.isEmpty then b.takeLead else b.modDomain (fun d => { d with reading := some left })

/-! ## The lease (R333) -/

/-- A lease packet's payload: rank, T_L and module. -/
def Block.leaseBytes (b : Block) : List Byte := leBytes 8 b.ownRank ++ leBytes 8 (b.domain.tL.getD 0) ++ leBytes 8 b.moduleNo

/-- The lease as TIDE_CENSUS and TIDE_CENSUS_DEADLINE show it. -/
def Block.showLease (b : Block) (rank m t : Nat) : Block :=
  (((b.setCensusFld 59 56 rank).setCensusFld 55 43 m).setBoth (fun h => tideReg h 0x28) (t + 60000000000))

/-- The holder tells every other candidate. -/
def Block.sendLease (b : Block) : Block :=
  b.manageTo .a 0x02 ((b.candModules.filter (fun m => m ≠ b.moduleNo)).map (fun m => (2 * m, b.leaseBytes)))

/-- Whether a candidate may claim: Locked, and for 2 s since then no lease packet heard from a lower rank; candidate 0 at once. -/
def Block.mayClaim (b : Block) : Bool :=
  decide (b.ownRank < 15) && b.zilsy.up && b.sys.ready && b.bothLocked && !b.domain.holder &&
    (b.ownRank = 0 || decide (max b.domain.lowHeard b.domain.lockedAt + 2000000000 ≤ b.tide .a))

/-- The modules whose trays the topology gives a role. -/
def Block.rosterModules (b : Block) : List Nat :=
  if b.image.topology.isNone then [b.moduleNo]
  else (List.range 8192).filter (fun m => b.trayRole (m / 4) ≠ 0)

/-- A lease that the module holds or heeds is no longer in force: no leader is known. -/
def Block.dropLease (b : Block) : Block :=
  (((b.modDomain (fun d => { d with holder := false, leaseRank := 15, reading := none })).setCensusFld 59 56 0xF).setRegFld (gateReg .a 0x10) 47 47 0).setRegFld
    (gateReg .b 0x10) 47 47 0

/-- LEASE_CLAIM (R333, R334, R388). Before the census the holder asks for the reports held; after it, every endpoint of the roster learns the
new leader. -/
def execLeaseClaim (s : State) : Host.Outcome State Fault Refusal :=
  s.act (fun b0 =>
    if ¬ b0.mayClaim then b0
    else
      let now := b0.tide .a
      let old := b0.domain.coord
      let b := b0.modDomain (fun d => { d with holder := true, leaseRank := b0.ownRank, leaseHeard := 0, renewed := now, tL := some (d.tL.getD now) })
      let b1 := ((((b.showLease b.ownRank b.moduleNo (b.domain.tL.getD 0)).startCensus .a).startCensus .b).setLeader b.moduleNo b.ownRank).sendLease
      if b1.census = 1 then
        let ask := (b1.rosterModules.filter (fun m => m ≠ b1.moduleNo)).map (fun m => (2 * m, setReportKind b1.readyReport 2))
        ((b1.manageTo .a 0x03 ask).censusCheck.appendRecord (journalDraft 8 0 0 b1.moduleNo b1.ownRank)).lead
      else (b1.manageTo .a 0x02 ((b1.liveEndpoints.filter (fun e => e / 2 ≠ b1.moduleNo)).map (fun e => (e, b1.leaseBytes)))).readReplicas
        (if old = some b1.moduleNo then none else old))

/-- The owners whose verdict is not durable repeat their appends to a new leader (R397). -/
def Block.reappend (b : Block) : Block := ((b.tasksOf .a ++ b.tasksOf .b).filter (fun p => p.2.2.phase = .running && p.2.2.desc.type = 8)).foldl
  (fun x p => x.appendVerdict p.1) b

/-- A lease is taken note of. -/
def Block.hearLease (b : Block) (rank t m : Nat) : Block :=
  let b1 := b.modDomain (fun d => { d with
    holder := false, leaseRank := rank, leaseHeard := b.tide .a, lowHeard := (if rank < b.ownRank then b.tide .a else d.lowHeard),
    tL := some (d.tL.getD t), reading := none })
  let b2 := ((((b1.showLease rank m (b1.domain.tL.getD 0)).startCensus .a).startCensus .b)).setLeader m rank
  if b.domain.coord = some m then b2 else b2.reappend

/-- LEASE (R333): a holder yields to a lower rank; a higher rank than the lease in force is not heeded. -/
def execLease (h : HalfId) (p : Packet) (s : State) : Host.Outcome State Fault Refusal :=
  s.act (fun b0 => b0.receive h p 5 [0x02] (fun b =>
    let rank := u64At p.payload 0
    if rank ≤ (if b.domain.holder then b.ownRank - 1 else b.domain.leaseRank) ∧ (¬ b.domain.holder ∨ rank < b.ownRank) then
      b.hearLease rank (u64At p.payload 8) (u64At p.payload 16)
    else b))

/-- LEASE_RENEWAL (R333): every 500 ms. -/
def execLeaseRenewal (s : State) : Host.Outcome State Fault Refusal :=
  s.act (fun b =>
    if b.domain.holder ∧ b.domain.renewed + 500000000 ≤ b.tide .a then (b.modDomain (fun d => { d with renewed := b.tide .a })).sendLease else b)

/-- LEASE_LAPSE (R333): 2 s without a renewal. A module that is no candidate hears none, so its note of the holder stays. -/
def execLeaseLapse (s : State) : Host.Outcome State Fault Refusal :=
  s.act (fun b =>
    let d := b.domain
    if d.leaseRank ≠ 15 ∧ b.ownRank < 15 ∧ (if d.holder then d.renewed else d.leaseHeard) + 2000000000 ≤ b.tide .a then
      b.dropLease
    else b)

/-! ## Heartbeats (R384, R385) -/

/-- A module's heartbeat: its number, LOCKED of each half and Ready, and its job IDs, 0xFFFF for an unbound slot. -/
def Block.heartbeatBytes (b : Block) : List Byte :=
  leBytes 2 b.moduleNo ++ leBytes 6 (b2n (b.locked .a) + 2 * b2n (b.locked .b) + 4 * b2n b.sys.ready) ++
    (List.range 16).flatMap (fun k => leBytes 2 (if (b.slot k).st = 0 then 0xFFFF else (b.slot k).job))

/-- A tray heartbeat: for each module of the tray, the Tide of the last heartbeat received, and the heartbeat. -/
def Block.trayHeartbeatBytes (b : Block) : List Byte :=
  (List.range 4).flatMap (fun i => match tabFind b.domain.moduleBeat (4 * (b.moduleNo / 4) + i) with
    | some (t, l) => leBytes 8 t ++ (l ++ List.replicate 40 0).take 40
    | none => List.replicate 48 0)

/-- HEARTBEAT_SEND (R384): every 10 ms of Tide a module tells its tray reporter, and the reporter tells the leader. -/
def execHeartbeatSend (s : State) : Host.Outcome State Fault Refusal :=
  s.act (fun b =>
    if ¬ (b.sys.ready ∧ b.halfA.tide.running ∧ b.domain.beatSent + 10000000 ≤ b.tide .a) then b
    else
      let b1 := b.modDomain (fun d => { d with beatSent := b.tide .a })
      match b1.trayReporter with
      | none => b1
      | some m =>
        if m = b1.moduleNo then
          let b2 := b1.modDomain (fun d => { d with moduleBeat := tabPut d.moduleBeat m (b1.tide .a, b1.heartbeatBytes) })
          b2.tellLeader .a 0x11 b2.trayHeartbeatBytes
        else b1.manage .a (2 * m) 0x10 b1.heartbeatBytes)

/-- HEARTBEAT (R384). -/
def execHeartbeat (h : HalfId) (p : Packet) (s : State) : Host.Outcome State Fault Refusal :=
  s.act (fun b0 => b0.receive h p 5 [0x10] (fun b =>
    b.modDomain (fun d => { d with moduleBeat := tabPut d.moduleBeat (leNat (p.payload.take 2)) (b.tide .a, p.payload) })))

/-- The module entries of a tray heartbeat: the Tide, the flags and the jobs. -/
def beatEntries (l : List Byte) : List (Nat × Nat × List Nat) :=
  (List.range 4).map (fun i =>
    let e := (l.drop (48 * i)).take 48
    (u64At e 0, leNat ((e.drop 10).take 6), ((List.range 16).map (fun k => u16At e (16 + 2 * k))).filter (fun j => j ≠ 0xFFFF)))

/-- Why a tray heartbeat shows its tray failed (R385): 1 a module without a heartbeat for 30 ms, 2 a half with LOCKED clear. A module that has
sent none is judged from the census on. -/
def Block.beatFault (b : Block) (es : List (Nat × Nat × List Nat)) : Option Nat :=
  let done := (b.reg (tideReg .a 0x30)).toNat
  if es.any (fun e => decide ((if e.1 = 0 then done else e.1) + 30000000 ≤ b.tide .a)) then some 1
  else if es.any (fun e => e.1 ≠ 0 && e.2.1 % 4 ≠ 3) then some 2
  else none

/-- Whether this module judges trays: it leads, and the census is complete. -/
def Block.judges (b : Block) (tray : Nat) : Bool :=
  b.domain.holder && b.census = 2 && b.domain.roster.contains tray && !b.image.topology.isNone

/-- TRAY_HEARTBEAT (R385). -/
def execTrayHeartbeat (h : HalfId) (p : Packet) (s : State) : Host.Outcome State Fault Refusal :=
  s.act (fun b0 => b0.receive h p 5 [0x11] (fun b =>
    let tray := pkSrc p / 8
    let es := beatEntries p.payload
    if ¬ b.domain.holder then b
    else
      let b1 := b.modDomain (fun d => { d with trayBeat := tabPut d.trayBeat tray (b.tide .a),
                                               trayJobs := tabSet [] d.trayJobs tray (es.flatMap (fun e => e.2.2)).eraseDups })
      match (if b1.judges tray ∧ b1.domain.reading.isNone then b1.beatFault es else none) with
      | some cause => (b1.declareLost tray cause).lead
      | none => b1))

/-- HEARTBEAT_TIMEOUT (R385): 30 ms without a tray heartbeat. While the replicas are read, a silent candidate is waited for no longer. -/
def execHeartbeatTimeout (tray : Fin 2048) (s : State) : Host.Outcome State Fault Refusal :=
  s.act (fun b =>
    if b.judges tray.val ∧ max (tabGet 0 b.domain.trayBeat tray.val) (b.reg (tideReg .a 0x30)).toNat + 30000000 ≤ b.tide .a then
      (if b.domain.reading.isSome then b.readDone (fun m => m / 4 = tray.val) else (b.declareLost tray.val 1).lead)
    else b)

/-! ## The journal's messages (R386-R389) -/

/-- An owner's append at the leader (R378): the verdict the journal holds for that run, or a new record; it is acknowledged once durable. -/
def Block.takeVerdict (b : Block) (l : List Byte) (ep run : Nat) : Block :=
  let owe (x : Block) (seq : Nat) : Block := x.modDomain (fun d => { d with owed := d.owed ++ [(seq, ep, 0x13 + 256 * run)] })
  match b.journaled (recJob l) (recStep l) run with
  | some r => if b.domain.unacted.contains (recSeq r) then owe b (recSeq r) else b.payOwed r ep (0x13 + 256 * run)
  | none => owe (b.appendRecord l) b.domain.nextJournal

/-- JOURNAL_APPEND (R386, R389): at a replica, a record from the leader, acknowledged; at a new leader, a replica's record; at the leader, an
owner's verdict; at a candidate, a new leader's request for its replica. While Zilsy does not answer nothing takes it (R435). -/
def execJournalAppend (h : HalfId) (p : Packet) (s : State) : Host.Outcome State Fault Refusal :=
  s.act (fun b0 => b0.receive h p 5 [0x12] (fun b =>
    let l := p.payload.take 64
    let tag := u64At p.payload 64
    if p.payload.length ≠ 72 then b.count (efReg h 0x18) 63 48 1
    else if ¬ b.zilsy.up then b
    else match tag % 256 with
      | 0 => if b.domain.holder then (if b.domain.reading.isSome then b.keepRecord l else b)
             else (b.keepRecord l).manage h (pkSrc p) 0x13 (l ++ leBytes 8 0)
      | 1 => if b.domain.holder ∧ b.domain.reading.isNone then (b.takeVerdict l (pkSrc p) (tag / 256)).lead else b
      | 2 => (b.records.foldl (fun x r => x.manage h (pkSrc p) 0x12 (r ++ leBytes 8 0)) b).manage h (pkSrc p) 0x13 (List.replicate 64 0 ++ leBytes 8 3)
      | _ => b))

/-- The verdict block that a record's words make for a task (R377, R378): all zero beyond words 0 and 1 for a REPEAT; for another verdict the
loss scale follows R380, and the rest is open (log entry 51). -/
def Block.answerBlock (b : Block) (h : HalfId) (g : Graph) (c : TaskCtx) (w0 w1 : Nat) : List Byte × Block :=
  let n := (c.tensor 1).ext 0
  let head := leBytes 8 w0 ++ leBytes 8 w1
  if bits w0 31 30 = 2 then (head ++ List.replicate (n - 16) 0, b)
  else
    let r := b.fresh
    let free (lo m : Nat) : List Byte := (List.range m).map (fun i => Config.journalByte r.1 (lo + i))
    (head ++ free 16 8 ++ leBytes 8 (b.scaleAfter h g.slot (bits w0 31 30) * 2 ^ 32) ++ free 32 (n - 32), r.2)

/-- The running verdict reductions of a half for a step of a job, in its run `run`. -/
def Block.verdictTasks (b : Block) (h : HalfId) (job step run : Nat) : List (TaskRef × Graph × TaskCtx) :=
  (b.tasksOf h).filter (fun p => p.2.2.phase = .running && p.2.2.desc.type = 8 && p.2.2.desc.pf 0 63 60 = 9 && p.2.1.job = job && p.2.1.step = step &&
    b.runOf h p.2.1.slot step = run)

/-- The acknowledgement of an owner's append (R378 step 3): its own block, or the leader's REPEAT in its place, is flooded. -/
def Block.ownerAck (b : Block) (h : HalfId) (l : List Byte) (run : Nat) : Block :=
  match b.verdictTasks h (recJob l) (recStep l) run with
  | [] => b
  | (t, g, c) :: _ => match c.coll.bind (fun x => x.verdict) with
    | none => b
    | some own =>
      let v := parseVerdict own
      if v.w0 = recArg0 l ∧ v.w1 = recArg1 l then b.verdictLands t own true true
      else
        let r := b.answerBlock h g c (recArg0 l) (recArg1 l)
        r.2.verdictLands t r.1 true true

/-- JOURNAL_ACKNOWLEDGEMENT (R386, R388, R389). -/
def execJournalAcknowledgement (h : HalfId) (p : Packet) (s : State) : Host.Outcome State Fault Refusal :=
  s.act (fun b0 => b0.receive h p 5 [0x13] (fun b =>
    let l := p.payload.take 64
    let tag := u64At p.payload 64
    let seq := recSeq l
    if p.payload.length ≠ 72 then b.count (efReg h 0x18) 63 48 1
    else match tag % 256 with
      | 0 => if b.domain.holder then (b.modDomain (fun d => { d with held := match tabFind d.held seq with
          | some ms => tabPut d.held seq (ms ++ [pkSrc p / 2]).eraseDups
          | none => d.held })).lead else b
      | 1 => if b.domain.holder then (b.modDomain (fun d => { d with acks := match tabFind d.acks seq with
          | some es => tabPut d.acks seq (es ++ [pkSrc p]).eraseDups
          | none => d.acks })).lead else b
      | 2 => b.ownerAck h l (tag / 256)
      | 3 => b.readDone (fun m => m = pkSrc p / 2)
      | _ => b))

/-- The leader's own REPEAT for a step (R378 step 5), LATE_EP the lowest endpoint named in late reports. -/
def Block.leaderRepeat (b : Block) (job step : Nat) : Block :=
  let ep := ((b.domain.lateReports.find? (fun r => r.1 = job && r.2.1 = step)).map (fun r => r.2.2)).getD 0xFFFF
  (b.modDomain (fun d => { d with lateReports := d.lateReports.filter (fun r => !(r.1 = job && r.2.1 = step)) })).appendRecord
    (journalDraft 1 job step (step * 2 ^ 32 + 2 * 2 ^ 30 + 2 ^ 29) (ep * 2 ^ 48))

/-- VERDICT_QUERY (R378 step 5, R388). -/
def execVerdictQuery (h : HalfId) (p : Packet) (s : State) : Host.Outcome State Fault Refusal :=
  s.act (fun b0 => b0.receive h p 5 [0x14] (fun b =>
    let job := u32At p.payload 0
    let step := u32At p.payload 4
    let run := u32At p.payload 8
    let owe (x : Block) (seq : Nat) : Block := x.modDomain (fun d => { d with owed := d.owed ++ [(seq, pkSrc p, 0x15 + 256 * run)] })
    if ¬ b.domain.holder ∨ b.domain.reading.isSome then b
    else match b.journaled job step run with
      | some r => if b.domain.unacted.contains (recSeq r) then owe b (recSeq r) else b.payOwed r (pkSrc p) (0x15 + 256 * run)
      | none => if b.tide .a < b.domain.leadsFrom then b else (owe (b.leaderRepeat job step) b.domain.nextJournal).lead))

/-- Each verdict reduction of a list takes an answer. -/
def Block.answerTasks (b : Block) (h : HalfId) (w0 w1 : Nat) : List (TaskRef × Graph × TaskCtx) → Block
  | [] => b
  | (t, g, c) :: ts =>
    let r := b.answerBlock h g c w0 w1
    (r.2.verdictLands t r.1 false false).answerTasks h w0 w1 ts

/-- VERDICT_ANSWER (R378 step 5). -/
def execVerdictAnswer (h : HalfId) (p : Packet) (s : State) : Host.Outcome State Fault Refusal :=
  s.act (fun b0 => b0.receive h p 5 [0x15] (fun b =>
    b.answerTasks h (u64At p.payload 12) (u64At p.payload 20) (b.verdictTasks h (u32At p.payload 0) (u32At p.payload 4) (u32At p.payload 8))))

/-! ## Reports to the leader (R378, R390, R391) -/

/-- The accepted reports of a job's step. -/
def Block.ckptReports (b : Block) (job step : Nat) : List CkptReport := b.domain.checkpoints.filter (fun r => r.job = job && r.step = step)

/-- CHECKPOINT_REPORT (R390): refused, and logged, when the copies share a tray or one lies on the reporter's own; CKPT once n endpoints have
reported. -/
def execCheckpointReport (h : HalfId) (p : Packet) (s : State) : Host.Outcome State Fault Refusal :=
  s.act (fun b0 => b0.receive h p 5 [0x17] (fun b =>
    let e := pkSrc p
    let r : CkptReport := { job := u32At p.payload 0, step := u32At p.payload 4, endpoint := e, mark := u64At p.payload 8,
                            copy0 := u16At p.payload 16, copy1 := u16At p.payload 18 }
    if ¬ b.domain.holder then b
    else if r.copy0 / 8 = r.copy1 / 8 ∨ r.copy0 / 8 = e / 8 ∨ r.copy1 / 8 = e / 8 then b.logRefused h 0x17 e 0 0 0 r.job
    else
      let before := (b.ckptReports r.job r.step).length
      let b1 := b.modDomain (fun d => { d with checkpoints :=
        (d.checkpoints.filter (fun x => !(x.job = r.job && x.step = r.step && x.endpoint = e))) ++ [r] })
      let l := b1.ckptReports r.job r.step
      if before < l.length ∧ l.length = u32At p.payload 20 then
        let low := l.foldl (fun x y => if y.endpoint < x.endpoint then y else x) r
        (b1.appendRecord (journalDraft 2 r.job r.step low.mark (low.copy0 * 2 ^ 48 + low.copy1 * 2 ^ 32))).lead
      else b1))

/-- LATE_REPORT (R378): the lowest endpoint named for a step is kept. -/
def execLateReport (h : HalfId) (p : Packet) (s : State) : Host.Outcome State Fault Refusal :=
  s.act (fun b0 => b0.receive h p 5 [0x18] (fun b =>
    let job := u32At p.payload 0
    let step := u32At p.payload 4
    let ep := u16At p.payload 8
    if ¬ b.domain.holder then b
    else
      let old := ((b.domain.lateReports.find? (fun r => r.1 = job && r.2.1 = step)).map (fun r => r.2.2)).getD 0xFFFF
      b.modDomain (fun d => { d with lateReports := (d.lateReports.filter (fun r => !(r.1 = job && r.2.1 = step))) ++ [(job, step, min old ep)] })))

/-- REVOCATION_REPORT (R391): the lender's copies count as lost. -/
def execRevocationReport (h : HalfId) (p : Packet) (s : State) : Host.Outcome State Fault Refusal :=
  s.act (fun b0 => b0.receive h p 5 [0x19] (fun b =>
    if b.domain.holder then b.modDomain (fun d => { d with revokingLenders := (d.revokingLenders ++ [pkSrc p]).eraseDups }) else b))

/-! ## Recovery commands at an endpoint (R388, R392, R393) -/

/-- Acknowledge an action to the leader: tag 1. -/
def Block.ackAction (b : Block) (h : HalfId) (p : Packet) : Block := b.manage h (pkSrc p) 0x13 (p.payload.take 64 ++ leBytes 8 1)

/-- The highest SEQ applied on a half (R398). -/
def Block.applied (b : Block) (h : HalfId) : Nat := b.regFld (gateReg h 0x10) 39 0

/-- Run a recovery command of a kind that this half has not applied yet; one it has is acknowledged alone (R388). SEQ 0 counts as not applied
while the half has applied none. -/
def Block.recovery (b0 : Block) (h : HalfId) (p : Packet) (kind : Nat) (f : Block → List Byte → Block) : Block :=
  let l := p.payload.take 64
  if recKind l ≠ kind then b0
  else b0.receive h p 5 [0x16] (fun b =>
    if p.payload.length ≠ 64 then b.count (efReg h 0x18) 63 48 1
    else if recSeq l ≤ b.applied h ∧ b.applied h ≠ 0 then
      (if b.domain.aborting.any (fun x => x.2.1 = h && x.2.2 = l) then b else b.ackAction h p)
    else f (b.setRegFld (gateReg h 0x10) 39 0 (recSeq l)) l)

/-- A half's ports to a tray are fenced, with cause commanded (R392 step 2). -/
def Block.fenceTray (b : Block) (h : HalfId) (tray : Nat) : Block :=
  (List.range 9).foldl (fun x i => let l := x.port h i
    if l.nbrEndpoint / 8 = tray ∧ (l.st = 2 ∨ l.st = 3 ∨ l.st = 4 ∨ (l.st = 1 ∧ (l.retraining ∨ l.trained))) then x.fencePort h i 5 else x) b

/-- The tasks of a half that wait on a request to a tray end with ST_ENDPOINT_LOST, and so do the collectives that need one of its endpoints. -/
def Block.loseTray (b : Block) (h : HalfId) (tray : Nat) : Block :=
  let x := b.tiers h
  let hit (r : Request) : Option (TaskRef × Nat) := match r.dest, r.task with
    | .endpoint e, some t => if e / 8 = tray then some (t, e) else none
    | _, _ => none
  let far := (x.tags.map (fun p => p.2) ++ x.waiting).filterMap hit
  let b1 := far.foldl (fun y q => y.fail q.1 stEndpointLost q.2) b
  let colls := ((b1.tasksOf h).filter (fun p => p.2.2.phase = .running && p.2.2.desc.type = 8)).map (fun p => p.1)
  colls.foldl (fun y t => y.collLost t ((List.range 8).map (fun i => 8 * tray + i))) b1

/-- The backup root becomes depth 0 from its own counter when the root is lost (R331). -/
def Block.backUpRoot (b : Block) (h : HalfId) (tray : Nat) : Block :=
  if b.rootEp / 8 = tray ∧ b.mayReference h ∧ ¬ b.isRoot h ∧ (b.half h).tide.running then
    ((((b.modTide h (fun t => { t with parent := none, holdoverFrom := none })).setTideStat h 62 61 1).setTideStat h 59 56 0).setTideStat h 55 52 0xF).lockTide h
  else b

/-- RECOVERY_LOST (R392 step 2, R440 EVENT 0x0042). -/
def execRecoveryLost (h : HalfId) (p : Packet) (s : State) : Host.Outcome State Fault Refusal :=
  s.act (fun b0 => b0.recovery h p 3 (fun b l =>
    let tray := recArg0 l
    let b1 := b.modDomain (fun d => { d with lost := (d.lost ++ [tray]).eraseDups })
    ((((b1.fenceTray h tray).loseTray h tray).backUpRoot h tray).log { event := 0x0042, half := h, arg0 := tray, arg1 := recArg1 l }).ackAction h p))

/-- RECOVERY_ABORT (R392 step 3): the job's slot drains, and the acknowledgement waits for Disabled. -/
def execRecoveryAbort (h : HalfId) (p : Packet) (s : State) : Host.Outcome State Fault Refusal :=
  s.act (fun b0 => b0.recovery h p 4 (fun b l => match b.slotOfJob (recJob l) with
    | none => b.ackAction h p
    | some k => (b.modDomain (fun d => { d with aborting := d.aborting ++ [(k, h, l)] })).startDrain (.slot (Fin.ofNat 16 k))))

/-- RECOVERY_SUBST (R392 step 5, R393): a GATE_SUBST entry, and the spare joins the roster. -/
def execRecoverySubst (h : HalfId) (p : Packet) (s : State) : Host.Outcome State Fault Refusal :=
  s.act (fun b0 => b0.recovery h p 5 (fun b l =>
    let b1 := match b.freeSubst h with
      | some i => b.setReg (gateReg h (0x300 + 8 * i)) (BitVec.ofNat 64 (2 ^ 63 + recArg0 l % 2048 * 2 ^ 52 + recArg1 l % 2048 * 2 ^ 41 + recSeq l % 2 ^ 40))
      | none => b
    (b1.modDomain (fun d => { d with roster := (d.roster ++ [recArg1 l]).eraseDups })).ackAction h p))

/-- RECOVERY_RESUME (R392 step 6, R420): Zilsy reports it to the host once a module. -/
def execRecoveryResume (h : HalfId) (p : Packet) (s : State) : Host.Outcome State Fault Refusal :=
  s.act (fun b0 => b0.recovery h p 6 (fun b l =>
    let b1 := match h with
      | .a => ((b.setReg (pciReg 0x38) (BitVec.ofNat 64 (recStep l * 2 ^ 32 + recJob l * 2 ^ 16 + 1))).setReg (pciReg 0x40) (BitVec.ofNat 64 (recArg0 l))).moduleEvent 5
      | .b => b
    b1.ackAction h p))

/-- Job slots disabled one after another. -/
def Block.drainSlots (b : Block) : List Nat → Block
  | [] => b
  | k :: ks => (b.startDrain (.slot (Fin.ofNat 16 k))).drainSlots ks

/-- NO_UP_PORT_TIMEOUT (R392): 100 ms with connected ports and none Up disables every job slot; each disable logs the event. -/
def execNoUpPortTimeout (s : State) : Host.Outcome State Fault Refusal :=
  s.act (fun b => match b.sys.noUpPortFrom with
    | none => b
    | some t => if t + 100000000 ≤ b.sys.upNs then b.drainSlots (List.range 16) else b)

end Sys2Proof.Machine
end

