-- ==== Sys2Proof/Machine/TierRegs.lean ====
section
/-! DEFINITION. The tier registers whose writes act: host registration in Mainland and the lending window's controls
(spec/08_cove_shelf_bay_offshore_mainland.md R207, R214, R217, R218, R232). -/

namespace Sys2Proof.Machine

/-! ## Mainland registration (R214, R232) -/

/-- A GO write of TIER_MAIN_REG3: the entry of words 0 to 2 is recorded as Committed, or retired; a refusal is logged and changes
nothing. -/
def Block.mainGo (b : Block) (h : HalfId) (job : Nat) (retire : Bool) : Answer :=
  let base := b.regFld (tierReg h 0x200) 59 0
  let len := b.regFld (tierReg h 0x208) 47 0
  let obj := b.regFld (tierReg h 0x210) 63 32
  let ver := b.regFld (tierReg h 0x210) 31 0
  let d := (b.tiers h).mainland
  let refused (st : Nat) : Answer := { block := b.logRefused h (tierReg h 0x218) obj st 0 0 job, status := st }
  if retire then
    (if dirState d job obj ver base = farCommitted then
      (b.modTiers h (fun x => { x with mainland := dirSet d job obj ver (some farRetired) (b.tide h) })).accept
     else refused stFarFail)
  else match dirAdd (b.tiers h).reading d { job := job, object := obj, version := ver, base := base, length := len, st := farCommitted, lastActive := b.tide h } with
    | .error (st, _) => refused st
    | .ok l => (b.modTiers h (fun x => { x with mainland := l })).accept

/-- MAIN_REGISTER (R214): the host finished writing the object before GO. -/
def execMainRegister (p : Path) (h : HalfId) (job : Fin 4096) (hostWrote : List (Nat × Byte)) (s : State) : Host.Outcome State Fault Refusal :=
  s.act (fun b0 => (b0.hostAnnounce hostWrote).byPath p [1, 2] 1 (fun _ b => b.mainGo h job.val false))

/-- MAIN_RETIRE (R214, R232). -/
def execMainRetire (p : Path) (h : HalfId) (job : Fin 4096) (s : State) : Host.Outcome State Fault Refusal :=
  s.act (fun b0 => b0.byPath p [1, 2] 1 (fun _ b => b.mainGo h job.val true))

/-! ## Lending (R217, R218) -/

/-- LEND_REVOKE (R218). -/
def execLendRevoke (p : Path) (h : HalfId) (s : State) : Host.Outcome State Fault Refusal :=
  s.act (fun b0 => b0.byPath p [1, 2] 1 (fun _ b => (b.revoke h).accept))

/-- A write of TIER_LEND_CTRL by the installer (R6, R218, R441): clearing LEND_EN revokes the window, and setting it again advertises one
anew. -/
def Block.writeLend (b : Block) (a : Actor) (h : HalfId) (v : Nat) : Answer :=
  let gib := bits v 7 0
  let on := bit v 8
  let old := b.reg (tierReg h 0x40)
  if 128 < gib ∨ (on = true ∧ gib = 0) then b.refuse (tierReg h 0x40) v
  else b.auditedAnswer a { kind := 0x01, target := tierReg h 0x40, old := old.toNat, new := v }
    (fun b =>
      let b1 := b.setReg (tierReg h 0x40) (BitVec.ofNat 64 (bits v 8 0))
      if ¬ on then b1.revoke h
      else if fld old 8 8 = 0 ∧ (b.window h).st ≠ 1 ∧ (b.window h).st ≠ 2 then b1.reserveWindow h
      else b1)

/-- LEND_EN_CLEAR (R218): an RWI field, so BAR0 cannot. -/
def execLendEnClear (p : Path) (h : HalfId) (gib : Fin 256) (s : State) : Host.Outcome State Fault Refusal :=
  s.act (fun b0 => b0.byPath p [2] 2 (fun a b => b.writeLend a h gib.val))

/-- LEND_EN_SET (R218). -/
def execLendEnSet (m : Envelope) (h : HalfId) (gib : Fin 256) (s : State) : Host.Outcome State Fault Refusal :=
  s.act (fun b0 => b0.command m [2] 2 (fun a b => b.writeLend a h (256 + gib.val)))

end Sys2Proof.Machine
end

