-- ==== Sys2Proof/Machine/ShelfBay.lean ====
section
/-! DEFINITION. Refresh, patrol scrub and the traffic generators (spec/09_shelf_and_bay_hardware.md R236, R237, R248, R249, R252). -/

namespace Sys2Proof.Machine

/-! ## Refresh (R236) -/

/-- Whether a half's Shelf has trained. -/
def Block.shelfTrained (b : Block) (h : HalfId) : Bool := b.regFld (shelfReg h 0) 1 1 = 1

/-- REFRESH_DUE (R236, R247): the bank's next row of 8,192 is refreshed; data stays as it is. -/
def execRefreshDue (h : HalfId) (chan : Fin 128) (bank : Fin 16) (s : State) : Host.Outcome State Fault Refusal :=
  s.act (fun b =>
    if b.shelfTrained h then
      let i := 16 * chan.val + bank.val
      b.modHalf h (fun x => { x with refresh := tabSet 0 x.refresh i ((tabGet 0 x.refresh i + 1) % 8192) })
    else b)

/-- REFRESH_BAND_RELAX (R236): Tj has stayed 3 °C below the band's lower bound for 100 ms. -/
def execRefreshBandRelax (h : HalfId) (s : State) : Host.Outcome State Fault Refusal :=
  s.act (fun b =>
    let band := b.regFld (shelfReg h 0) 3 2
    if band = 0 then b
    else match (b.half h).cool.getD (band - 1) none with
      | none => b
      | some t => if t + 100000000 ≤ b.sys.upNs then b.setRegFld (shelfReg h 0) 3 2 (band - 1) else b)

/-! ## Patrol scrub (R237) -/

/-- The scrub meets the uncorrectable words of a row: each is logged and counted, and left as it is. -/
def Block.scrubBad (b : Block) (h : HalfId) : List Nat → Block
  | [] => b
  | a :: as =>
    ((b.log { event := 0x0021, half := h, kind := 5, index := shelfChannel a, arg0 := shelfChannel a, arg1 := rowWord a }).noteUe a).scrubBad h as

/-- What the read of a word met for the first time: a corrected error is counted and the word written back, an uncorrectable one stays. -/
def Block.scrubUpset (b : Block) (a : Nat) : Upset → Block
  | .none => b
  | .corrected => if (tabFind b.bad a).isSome then b else b.noteCe a
  | .uncorrectable => { b with bad := tabPut b.bad a 1 }
  | .parity => b

/-- SCRUB_READ (R237, R247, R249): the next row of 512 bytes is read; `upsets` are what the reads of its words met for the first
time. A pass ends after the last row of the half's 8 GiB. -/
def execScrubRead (h : HalfId) (upsets : List (Fin 64 × Upset)) (s : State) : Host.Outcome State Fault Refusal :=
  s.act (fun b =>
    if ¬ b.shelfTrained h ∨ b.regFld (shelfReg h 8) 32 32 = 0 ∨ b.sys.slack = 2 ∨ b.sys.slack = 3 then b
    else
      let pos := b.regFld (shelfReg h 0x10) 23 0
      let base := 0x200000000 + halfNum h * 0x200000000 + pos * 512
      let b1 := upsets.foldl (fun x u => x.scrubUpset (base + 8 * u.1.val) u.2) b
      let hit := ((List.range 64).map (fun i => base + 8 * i)).filter (fun x => (tabFind b1.bad x).isSome)
      let b2 := b1.scrubBad h hit
      if pos + 1 < 0x1000000 then b2.setRegFld (shelfReg h 0x10) 23 0 (pos + 1)
      else b2.setReg (shelfReg h 0x10) (BitVec.ofNat 64 ((b2.regFld (shelfReg h 0x10) 63 32 + 1) % 2 ^ 32 * 2 ^ 32)))

/-! ## The traffic generators (R248, R252) -/

/-- Whether a channel is a retired Bay channel. -/
def Block.retiredBay (b : Block) (h : HalfId) (ch : Nat) : Bool := decide (128 ≤ ch) && b.regFld (chanReg h ch 0x30) 63 62 = 2

/-- The roles that may act on a generator: mode 0 takes the installer or the maker, and a retired Bay channel the maker alone (R7,
R248). -/
def Block.testRoles (b : Block) (h : HalfId) (ch mode : Nat) : List Nat :=
  if b.retiredBay h ch then [3] else if mode = 0 then [2, 3] else [1, 2]

/-- The role that a refusal names as needed. -/
def neededRole : List Nat → Nat
  | [] => 0
  | r :: _ => r

/-- A GO write of TG_CTRL (R248, R252). Mode 0 needs every job slot unbound; mode 3 is reserved. -/
def Block.testGo (b : Block) (h : HalfId) (ch mode : Nat) : Answer :=
  if mode = 0 ∧ ¬ b.allDisabled then b.refuse (chanReg h ch 0) 1
  else if mode = 3 then b.refuse (chanReg h ch 0) 7
  else if mode = 2 then (b.stopTest h ch).accept
  else (((b.setRegFld (chanReg h ch 0) 2 1 mode).setReg (chanReg h ch 0x18) (BitVec.ofNat 64 (2 ^ 62))).setReg (chanReg h ch 0x20) 0).accept

/-- TG_WRITE_READ (R248). -/
def execTgWriteRead (p : Path) (h : HalfId) (ch : Fin 160) (s : State) : Host.Outcome State Fault Refusal :=
  s.act (fun b0 => b0.byPath p (b0.testRoles h ch.val 0) (neededRole (b0.testRoles h ch.val 0)) (fun _ b => b.testGo h ch.val 0))

/-- TG_READ_SWEEP (R248). -/
def execTgReadSweep (p : Path) (h : HalfId) (ch : Fin 160) (s : State) : Host.Outcome State Fault Refusal :=
  s.act (fun b0 => b0.byPath p (b0.testRoles h ch.val 1) (neededRole (b0.testRoles h ch.val 1)) (fun _ b => b.testGo h ch.val 1))

/-- TG_STOP (R252). -/
def execTgStop (p : Path) (h : HalfId) (ch : Fin 160) (s : State) : Host.Outcome State Fault Refusal :=
  s.act (fun b0 => b0.byPath p (b0.testRoles h ch.val 2) (neededRole (b0.testRoles h ch.val 2)) (fun _ b => b.testGo h ch.val 2))

/-- The first 32-bit word of a line that lies in a word known to be uncorrectable. -/
def Block.badWord (b : Block) (a : Nat) : Option Nat :=
  (List.range 16).find? (fun i => (tabFind b.bad (granuleBase (a + 4 * i))).isSome)

/-- What a finished run reports, line after line (R248): in mode 0 the lines that differ, in mode 1 those whose code corrects or fails,
the ones known to be uncorrectable among them. TG_FIRST_FAIL of each. -/
def Block.testFails (b : Block) (h : HalfId) (ch mode : Nat) (r : TgResult) (first n : Nat) : List Nat :=
  (List.range n).filterMap (fun i =>
    let line := first + i
    let found := r.lines.find? (fun x => x.line = line && (if mode = 0 then x.xor ≠ 0 else x.upset ≠ .none))
    let known := if mode = 0 then none else b.badWord (lineAddr h ch line)
    match found, known with
    | some x, some w => some (min x.word.val w * 2 ^ 60 + line * 2 ^ 32)
    | some x, none => some (x.word.val * 2 ^ 60 + line * 2 ^ 32 + (if mode = 0 then x.xor.toNat else 0))
    | none, some w => some (w * 2 ^ 60 + line * 2 ^ 32)
    | none, none => none)

/-- The lines that a read sweep finds uncorrectable stay so for every later read (R228, R249). -/
def Block.sweepBad (b : Block) (h : HalfId) (ch first n : Nat) : List TgLine → Block
  | [] => b
  | x :: xs =>
    let b1 := if first ≤ x.line ∧ x.line < first + n ∧ x.upset = .uncorrectable then
        { b with bad := tabPut b.bad (granuleBase (lineAddr h ch x.line + 4 * x.word.val)) 2 }
      else b
    b1.sweepBad h ch first n xs

/-- TG_DONE (R248, R252): mode 0 leaves its pattern in the range; mode 1 changes no data. MISCOMPARES counts the failing lines, and
TG_FIRST_FAIL holds the first. -/
def execTgDone (h : HalfId) (ch : Fin 160) (r : TgResult) (s : State) : Host.Outcome State Fault Refusal :=
  s.act (fun b =>
    if b.regFld (chanReg h ch.val 0x18) 63 62 ≠ 1 ∨ b.sys.slack = 2 ∨ b.sys.slack = 3 then b
    else
      let x := b.testRange h ch.val
      let mode := b.regFld (chanReg h ch.val 0) 2 1
      let fails := b.testFails h ch.val mode r x.1 x.2
      let b1 := if mode = 0 then
          (List.range x.2).foldl (fun z i => z.store (lineAddr h ch.val (x.1 + i)) (patternLine (b.reg (chanReg h ch.val 8)) x.1 (x.1 + i))) b
        else b.sweepBad h ch.val x.1 x.2 r.lines
      let b2 := b1.setReg (chanReg h ch.val 0x18) (BitVec.ofNat 64 (2 * 2 ^ 62 + x.2 * 2 ^ 32 + min fails.length 0xFFFFFFFF))
      match fails with
      | [] => b2
      | w :: _ => b2.setReg (chanReg h ch.val 0x20) (BitVec.ofNat 64 w))

end Sys2Proof.Machine
end

