-- ==== Sys2Proof/Machine/Batch.lean ====
section
/-! DEFINITION. Batch assembly and augmentation (spec/11_harbour_images_audio_text.md R296-R301). BATCH_ASSEMBLE starts a task; each SAMPLE_DONE
resolves one attempt of its position; each augmentation record of an accepted sample is one command, and the position is filled after the
last (DESIGN CHOICE on the cut into commands, log entry 42). -/

namespace Sys2Proof.Machine

/-! ## Draws (R296) -/

/-- Draw `d` of operation `o` of the sample with index `i`: an FP32 value in [0, 1). -/
def drawU (seed epoch o i d : Nat) : Nat :=
  let r := philox seed (i % 2 ^ 32) (i / 2 ^ 32 % 2 ^ 32) epoch (o * 65536 + d / 4) (d % 4)
  toF32 (.fin false (r / 256) (-24))

/-- The reserve place of attempt `a` of a position (R299). -/
def reservePlace (seed epoch pos a nres : Nat) : Nat := philox seed (pos % 2 ^ 32) epoch 0xFFFFFFFF a 0 * nres / 2 ^ 32

/-! ## Records (R297) -/

/-- An augmentation record: its CODE and parameters. -/
structure AugRecord where
  code : Nat
  reserved : Nat
  p : List Nat
deriving DecidableEq, Repr

/-- The record that 32 bytes hold. -/
def parseAug (l : List Byte) : AugRecord :=
  { code := leNat (l.take 1), reserved := leNat ((l.drop 1).take 3), p := (List.range 7).map (fun i => leNat ((l.drop (4 + 4 * i)).take 4)) }

/-- A parameter. -/
def AugRecord.at (r : AugRecord) (i : Nat) : Nat := r.p.getD i 0

/-- The codes of a KIND's records: images 1-4, sound 5-7; a video or text task applies none (DEDUCED, log entry 46). -/
def augOk (kind : Nat) (r : AugRecord) : Bool :=
  decide (r.reserved = 0) && (if kind = 0 then decide (1 ≤ r.code) && decide (r.code ≤ 4) else if kind = 1 then decide (5 ≤ r.code) && decide (r.code ≤ 7) else true)

/-- Where a task's records stand: at AUG_LIST, or after the profile of an audio task (DESIGN CHOICE, log entry 46). -/
def TaskDesc.augBase (d : TaskDesc) : Nat := d.pf 2 47 0 + (if d.pf 0 55 53 = 1 then 32 else 0)

/-- A task's records. -/
def Block.augList (b : Block) (a : Access) (d : TaskDesc) : Res (List AugRecord) :=
  mapRes (fun i => (b.rdN a 8 (d.augBase + 32 * i) 32).map parseAug) (List.range (d.pf 0 50 48))

/-! ## The operations on images (R297) -/

/-- FP32 1, 2, -0.5 and 0.5. -/
def cOne : Nat := 0x3F800000
def cTwo : Nat := 0x40000000
def cMinusHalf : Nat := 0xBF000000
def cHalf : Nat := 0x3F000000

/-- P(2u - 1), each operation rounded. -/
def spread (p u : Nat) : Nat := mulF p (subF (mulF cTwo u) cOne)

/-- The value of a sample's pixel. -/
def BatchWork.px (w : BatchWork) (ch x y : Nat) : Nat := w.values.getD ((y * w.width + x) * w.chans + ch) 0

/-- The first try of RESIZE that fits: (x, y, w, h); else the centred square. -/
def cropTries (u : Nat → Nat) (r : AugRecord) (W H : Nat) : Nat → Nat → Nat × Nat × Nat × Nat
  | 0, _ => let m := min W H; ((W - m) / 2, (H - m) / 2, m, m)
  | fuel + 1, t =>
    let area := mulF (mulF (natF W) (natF H)) (addF (r.at 0) (mulF (u (4 * t)) (subF (r.at 1) (r.at 0))))
    let aspect := exp2F (spread (r.at 2) (u (4 * t + 1)))
    let w := roundInt (f32 (toF32 (sqrtV (f32 (mulF area aspect)))))
    let h := roundInt (f32 (toF32 (sqrtV (f32 (divF area aspect)))))
    let ok (x : Int) (top : Nat) : Bool := decide (0 < x) && decide (x ≤ top)
    if ok w W && ok h H then
      ((floorV (f32 (mulF (u (4 * t + 2)) (natF (W - w.toNat + 1))))).toNat, (floorV (f32 (mulF (u (4 * t + 3)) (natF (H - h.toNat + 1))))).toNat,
       w.toNat, h.toNat)
    else cropTries u r W H fuel (t + 1)

/-- A corner of a crop, normalised; 0 when the extent is 1. -/
def cornerOf (x extent : Nat) : Nat := if extent = 1 then 0 else divF (natF x) (natF (extent - 1))

/-- A crop of an image resized by the sampling arithmetic of R191. -/
def BatchWork.resized (w : BatchWork) (x y cw ch ow oh : Nat) : BatchWork :=
  let y1 := cornerOf y w.height
  let y2 := cornerOf (y + ch - 1) w.height
  let x1 := cornerOf x w.width
  let x2 := cornerOf (x + cw - 1) w.width
  { w with
    width := ow, height := oh,
    values := (List.range (ow * oh)).flatMap (fun i =>
      let cy := sampleCoord y1 y2 w.height oh (i / ow)
      let cx := sampleCoord x1 x2 w.width ow (i % ow)
      (List.range w.chans).map (fun k => bilinear (fun px py => w.px k px py) w.width w.height cy cx Config.resizeOutside)) }

/-- RESIZE. -/
def BatchWork.applyResize (w : BatchWork) (u : Nat → Nat) (r : AugRecord) (ow oh : Nat) : BatchWork :=
  let c := cropTries u r w.width w.height 10 0
  w.resized c.1 c.2.1 c.2.2.1 c.2.2.2 ow oh

/-- FLIP: the columns mirrored when u0 < P0. -/
def BatchWork.applyFlip (w : BatchWork) (u : Nat → Nat) (r : AugRecord) : BatchWork :=
  if ltV (f32 (u 0)) (f32 (r.at 0)) then
    { w with values := (List.range (w.width * w.height)).flatMap (fun i =>
        (List.range w.chans).map (fun k => w.px k (w.width - 1 - i % w.width) (i / w.width))) }
  else w

/-- Each colour value of an image changed; alpha is left alone (DEDUCED, log entry 46). -/
def BatchWork.mapColour (w : BatchWork) (f : Nat → Nat → Nat) : BatchWork :=
  { w with values := (w.values.zip (List.range w.values.length)).map (fun p => if p.2 % w.chans < 3 then f (p.2 % w.chans) p.1 else p.1) }

/-- JITTER. -/
def BatchWork.applyJitter (w : BatchWork) (u : Nat → Nat) (r : AugRecord) : BatchWork :=
  let br := addF cOne (spread (r.at 0) (u 0))
  let co := addF cOne (spread (r.at 1) (u 1))
  w.mapColour (fun _ x => maxF 0 (minF (fmaF co (subF (mulF x br) cHalf) cHalf) cOne))

/-- NORM. -/
def BatchWork.applyNorm (w : BatchWork) (r : AugRecord) : BatchWork := w.mapColour (fun ch x => mulF (subF x (r.at ch)) (r.at (ch + 3)))

/-- GAIN, on the waveform. -/
def BatchWork.applyGain (w : BatchWork) (u : Nat → Nat) (r : AugRecord) : BatchWork :=
  let k := exp2F (spread (r.at 0) (u 0))
  { w with values := w.values.map (fun x => mulF x k) }

/-- FMASK and TMASK: a random run of `n` bins or frames masked. -/
def BatchWork.applyMask (w : BatchWork) (u : Nat → Nat) (r : AugRecord) (freq : Bool) (n : Nat) : BatchWork :=
  let width := (floorV (f32 (mulF (u 0) (addF (r.at 0) cOne)))).toNat
  let start := (floorV (f32 (mulF (u 1) (natF (n + 1 - width))))).toNat
  { w with masks := w.masks ++ [(freq, start, width)] }

/-! ## Starting (R298, R299) -/

/-- The INT64 elements of a one-dimensional operand. -/
def Block.indices (b : Block) (a : Access) (t : Tensor) : Res (List Nat) := mapRes (fun i => b.elemCode a t i (0, 0, 0, 0)) (List.range (t.ext 0))

/-- The index that an attempt takes. -/
def attemptIndex (plan reserve : List Nat) (seed epoch posBase pos a : Nat) : Nat :=
  if a = 0 then plan.getD pos 0 else reserve.getD (reservePlace seed epoch (posBase + pos) a reserve.length) 0

/-- A position's first attempt. -/
def BatchWork.start (pos index : Nat) : BatchWork :=
  { unit := none, pos := pos, attempt := 0, index := index, firstStatus := 0, firstDetail := 0, lastStatus := 0, lastDetail := 0, augment := false, op := 0, chans := 0,
    width := 0, height := 0, values := [], masks := [] }

/-- The checks of a batch's plan, reserve, augmentation list and sound profile (R299): the first index planned, or the status and detail that
ends the task. -/
def Block.batchStart (b : Block) (a : Access) (c : TaskCtx) : Res (Except (Nat × Nat) Nat) :=
  let d := c.desc
  match b.indices a (c.tensor 0), b.indices a (c.tensor 3) with
  | .error e, _ => .error e
  | .ok _, .error e => .error e
  | .ok plan, .ok reserve =>
    let ndir := (c.tensor 1).ext 1
    match plan.find? (fun i => decide (ndir ≤ i)), reserve.find? (fun i => decide (ndir ≤ i)) with
    | some i, _ => .ok (.error (stShapeOver, i % 2 ^ 24 * 256))
    | none, some i => .ok (.error (stShapeOver, i % 2 ^ 24 * 256 + 24))
    | none, none => match b.augList a d, (if d.pf 0 55 53 = 1 then b.rdN a 8 (d.pf 2 47 0) 32 else .ok []) with
      | .error e, _ => .error e
      | .ok _, .error e => .error e
      | .ok augs, .ok pf =>
        match (List.range augs.length).find? (fun i => !(augOk (d.pf 0 55 53) (augs.getD i { code := 0, reserved := 0, p := [] }))) with
        | some i => .ok (.error (stAdmission, r492 i 6 112))
        | none =>
          if d.pf 0 55 53 = 1 ∧ profileOk pf = false then .ok (.error (stAdmission, r492 0 6 112))
          else .ok (.ok (plan.getD 0 0))

/-- The units that serve a batch task's samples: the JPEG decoders or the PNG units for an image, by what its bytes are. -/
def TaskDesc.sampleUnits (d : TaskDesc) (l : List Byte) : List Nat :=
  match d.pf 0 55 53 with
  | 0 => if (Config.image l).png then [17, 18] else [9, 10, 11, 12, 13, 14, 15, 16]
  | 1 => [19, 20, 21, 22]
  | 2 => List.range 8
  | _ => [23, 24]

/-- What a sample of a batch is read from (R299): its bytes, the augmentation list and the sound profile; none when its directory entry lies
outside the source, at an offset. -/
def Block.sampleInput (b : Block) (a : Access) (c : TaskCtx) (w : BatchWork) : Res (Nat × Option (List Byte × List AugRecord × List Byte)) :=
  match b.elemCode a (c.tensor 1) 0 (w.index, 0, 0, 0), b.elemCode a (c.tensor 1) 1 (w.index, 0, 0, 0) with
  | .error e, _ => .error e
  | .ok _, .error e => .error e
  | .ok off, .ok len =>
    if (c.tensor 2).ext 0 < off + len then .ok (off, none)
    else match b.rdN a 2 ((c.tensor 2).base + off) len, b.augList a c.desc, (if c.desc.pf 0 55 53 = 1 then b.rdN a 8 (c.desc.pf 2 47 0) 32 else .ok []) with
      | .error e, _, _ => .error e
      | .ok _, .error e, _ => .error e
      | .ok _, .ok _, .error e => .error e
      | .ok l, .ok augs, .ok pf => .ok (off, some (l, augs, pf))

/-- A sample is handed to the enabled unit of its kind with the fewest tasks, as soon as its bytes are at hand (R281, R299). -/
def Block.handOver (b : Block) (h : HalfId) (a : Access) (c : TaskCtx) (w : BatchWork) : BatchWork :=
  match b.sampleInput a c w with
  | .ok (_, some x) => { w with unit := b.pickUnit h (c.desc.sampleUnits x.1) }
  | .ok (_, none) => w
  | .error _ => w

/-- The unit that completes a sample: the one that holds it, else one it is handed to now; none where every unit of its kind is off. -/
def Block.sampleUnit (b : Block) (h : HalfId) (d : TaskDesc) (w : BatchWork) (l : List Byte) : Option Nat :=
  match w.unit with
  | some p => some p
  | none => b.pickUnit h (d.sampleUnits l)

/-- BATCH_ASSEMBLE (R298, R299): every plan and reserve index is checked before any sample is read, and the list and profile with them. -/
def execBatchAssemble (t : TaskRef) (s : State) : Host.Outcome State Fault Refusal :=
  s.act (fun b => b.onRunning t 0x09 (fun g c =>
    if c.desc.mediaOp ≠ 0x14 ∨ b.served t = false ∨ c.batch.isSome then b
    else
      let b0 := b.touch t g c
      match b0.batchStart (b.taskAccess t.half g c) c with
      | .error e => b0.stop t e
      | .ok (.error f) => b0.fix t f.1 f.2
      | .ok (.ok i) => b0.modTask t (fun d => { d with batch := some (b0.handOver t.half (b.taskAccess t.half g c) c (BatchWork.start 0 i)) })))

/-! ## One attempt -/

/-- What an attempt's sample comes to: a status that fails it, or one that is accepted with the sample to augment or the cells of the
position's output. -/
inductive Attempt where
  | failed (st det : Nat)
  | sample (st det chans width height : Nat) (values : List Nat)
  | cells (st det : Nat) (l : List Host.Cell) (decoded : Nat)
  | ended (st det : Nat)
deriving DecidableEq, Repr

/-- An attempt with its changes to the block, and the samples or frames that its unit completed. -/
structure AttemptOut where
  block : Block
  done : Nat
  res : Attempt
deriving DecidableEq, Repr

/-- The values that an image's augmentation starts from: RGB times the FP32 value nearest 1/255. -/
def imageValues (px : List Nat) : List Nat := px.map (fun v => mulF (natF v) 0x3B808081)

/-- An image attempt. -/
def Block.tryImage (b : Block) (t : TaskRef) (a : Access) (c : TaskCtx) (unit : Nat) (l : List Byte) (draw : Nat) : Res AttemptOut :=
  let d := c.desc
  let stride := d.pf 3 63 52 * 0x100000
  let scratch := b.scratchCells a l (d.pf 3 47 0 + (unit - 9) * stride) draw
  match decodeImage l (d.pf 0 52 52 = 1) (b.imgMax t.half false) (b.imgMax t.half true) stride (tabFind c.watchdogs 0) draw with
  | .limit n _ _ _ => .ok { block := b, done := 1, res := .failed stInputLimit n }
  | .corrupt off _ _ _ => scratch.map (fun sc => { block := (b.landCells sc).1, done := 1, res := .failed stInputCorrupt off })
  | .ok w h ch px => scratch.map (fun sc => { block := (b.landCells sc).1, done := 1, res := .sample stOk 0 ch w h (imageValues px) })

/-- A sound attempt. -/
def Block.tryAudio (b : Block) (t : TaskRef) (c : TaskCtx) (l pf : List Byte) : AttemptOut :=
  let p := parseProfile pf
  match decodeAudio l p (b.regFld (inReg t.half 0x10) 15 0) ((c.tensor 4).cap 1) with
  | .limit n => { block := b, done := 1, res := .failed stInputLimit n }
  | .corrupt off => { block := b, done := 1, res := .failed stInputCorrupt off }
  | .ok fraction xs =>
    { block := b, done := 1, res := .sample (if 0 < fraction then stConcealed else stOk) fraction 1 p.mels (cdiv xs.length p.hop) xs }

/-- A text attempt: the document is validated, and its item record is its place in slot 2. -/
def Block.tryText (b : Block) (t : TaskRef) (c : TaskCtx) (l : List Byte) : AttemptOut :=
  if b.regFld (inReg t.half 0x18) 26 0 < l.length then { block := b, done := 1, res := .failed stInputLimit 9 }
  else match validate (c.desc.pf 0 51 51 = 1) l with
    | .error off => { block := b, done := 1, res := .failed stInputCorrupt off }
    | .ok (_, r) => { block := b.count (inReg t.half 0x20) 7 0 (b2n r), done := 1, res := .cells stOk 0 [] 0 }

/-- A video attempt: its context is set Fresh first, and decoded as R270-R273 give. Frames past the last written are open values. -/
def Block.tryVideo (b : Block) (t : TaskRef) (g : Graph) (c : TaskCtx) (p : Nat) (l : List Byte) (draw : Nat) : Res AttemptOut :=
  let d := c.desc
  let i := d.ctxBase + p
  let a := b.taskAccess t.half g c
  match b.stream t.half i with
  | none => .ok { block := b, done := 0, res := .ended stAdmission (offDesc 98) }
  | some x0 =>
    let x := x0.fresh
    if b.scratchOk g.slot x.fbBase x.poolBytes = false then .error (.ended stXlate 8)
    else
      let lim := b.vidMax t.half x.codec
      let y := c.tensor 4
      let k := decodeClip { bytes := l, uint8 := decide (y.fmt = 0x0C), maxW := lim.1, maxH := lim.2, capW := y.cap 0, capH := y.cap 1, slot := 4,
                            concealMax := d.pf 0 47 32, watchdogs := c.watchdogs } x
      let ws := k.written (d.pf 3 63 48) (d.pf 3 47 40) (y.ext 2)
      let r := k.status ws.length l.length
      match concatRes (fun q => b.pictureCells a y (c.tensor 5) q.1 p q.2.2.pic) ((List.range ws.length).zip ws), b.poolCells a x draw k.claimed with
      | .error e, _ => .error e
      | .ok _, .error e => .error e
      | .ok cells, .ok pool =>
        let b1 := (((b.setStream t.half i (if r.2.2 then k.ctx else k.ctx.fresh)).countClip t.half k).countStatus t.half r.1).landCells pool
        .ok { block := b1.1, done := k.decoded, res :=
          if r.1 = stShapeOver then .ended r.1 r.2.1 else if r.1 = stInputLimit ∨ r.1 = stInputCorrupt then .failed r.1 r.2.1 else .cells r.1 r.2.1 cells ws.length }

/-! ## Filling a position (R299, R300) -/

/-- The manifest entry of a position. -/
def manifestEntry (w : BatchWork) (planned posBase : Nat) (empty : Bool) : List Byte :=
  leBytes 8 planned ++ leBytes 8 (if empty then 0xFFFFFFFFFFFFFFFF else w.index) ++
    leBytes 8 (w.firstStatus * 2 ^ 48 + w.lastStatus * 2 ^ 32 + w.firstDetail % 2 ^ 32) ++
    leBytes 8 (w.lastDetail % 2 ^ 32 * 2 ^ 32 + w.attempt * 2 ^ 29 + b2n empty * 2 ^ 28 + (posBase + w.pos) % 2 ^ 28)

/-- +0 in every element of a position's output, `dim` being the dimension of positions. -/
def Block.zeroCells (b : Block) (a : Access) (o : Tensor) (dim p : Nat) : Res (List Host.Cell) :=
  concatRes (fun r => b.rowCells a o r (zeroRow o)) (o.rows.filter (fun r =>
    (if dim = 1 then r.1 else if dim = 2 then r.2.1 else if dim = 3 then r.2.2.1 else r.2.2.2) = p))

/-- The frames of an audio position: log-mel values with their masks; frames past the clip's are open values (log entry 46). -/
def Block.soundCells (b : Block) (a : Access) (o : Tensor) (p : Nat) (pf : AudioProfile) (w : BatchWork) (draw : Nat) : Res (List Host.Cell) :=
  let frames := melFrames pf w.values
  let masked (t k : Nat) : Bool := w.masks.any (fun m => let i := if m.1 then k else t; decide (m.2.1 ≤ i) && decide (i < m.2.1 + m.2.2))
  let row (t : Nat) : List Nat :=
    if t < frames.length then ((frames.getD t []).zip (List.range pf.mels)).map (fun q => if masked t q.2 then melFloorOut pf else q.1)
    else (List.range (o.ext 0)).map (fun k => leNat ((List.range 4).map (fun i => Config.poolByte draw ((t * 256 + k) * 4 + i))))
  concatRes (fun t => b.rowCells a o (t, p, 0, 0) (convRow a o (t, p, 0, 0) (row t))) (List.range (o.ext 1))

/-- The cells of a position's output, weight and manifest entry once its sample is accepted. -/
def Block.filledCells (b : Block) (a : Access) (c : TaskCtx) (w : BatchWork) (planned : Nat) (own : List Host.Cell) (draw : Nat) (pf : List Byte)
    (entry : Nat × Nat) : Res (List Host.Cell) :=
  let d := c.desc
  let o := c.tensor 4
  let p := w.pos
  let out := match d.pf 0 55 53 with
    | 0 => concatRes (fun i => let r : Row := (i % w.width, i / w.width, p, 0)
        b.rowCells a o r (convRow a o r ((w.values.drop (i * w.chans)).take w.chans))) (List.range (w.width * w.height))
    | 1 => match b.soundCells a o p (parseProfile pf) w draw with
      | .error e => .error e
      | .ok cs => (b.wrCells a 5 ((c.tensor 5).base + 4 * p) (leBytes 4 w.height)).map (fun n => cs ++ n)
    | 2 => .ok own
    | _ => b.wrCells a 4 (o.rowVa (p, 0, 0, 0)) (leBytes 8 entry.2 ++ leBytes 8 entry.1)
  match out, b.wrCells a 6 ((c.tensor 6).base + 4 * p) (leBytes 4 cOne), b.wrCells a 7 ((c.tensor 7).rowVa (p, 0, 0, 0)) (manifestEntry w planned (d.pf 1 31 0) false) with
  | .error e, _, _ => .error e
  | .ok _, .error e, _ => .error e
  | .ok _, .ok _, .error e => .error e
  | .ok x, .ok y, .ok z => .ok (x ++ y ++ z)

/-- The cells of an EMPTY position. -/
def Block.emptyCells (b : Block) (a : Access) (c : TaskCtx) (w : BatchWork) (planned : Nat) : Res (List Host.Cell) :=
  let d := c.desc
  let p := w.pos
  let out := match d.pf 0 55 53 with
    | 0 => b.zeroCells a (c.tensor 4) 3 p
    | 1 => match b.zeroCells a (c.tensor 4) 2 p with
      | .error e => .error e
      | .ok cs => (b.wrCells a 5 ((c.tensor 5).base + 4 * p) (leBytes 4 0)).map (fun n => cs ++ n)
    | 2 => match b.zeroCells a (c.tensor 4) 3 p with
      | .error e => .error e
      | .ok cs => (b.zeroCells a (c.tensor 5) 4 p).map (fun n => cs ++ n)
    | _ => b.zeroCells a (c.tensor 4) 1 p
  match out, b.wrCells a 6 ((c.tensor 6).base + 4 * p) (leBytes 4 0), b.wrCells a 7 ((c.tensor 7).rowVa (p, 0, 0, 0)) (manifestEntry w planned (d.pf 1 31 0) true) with
  | .error e, _, _ => .error e
  | .ok _, .error e, _ => .error e
  | .ok _, .ok _, .error e => .error e
  | .ok x, .ok y, .ok z => .ok (x ++ y ++ z)

/-- A position is resolved: its cells land, and the next position starts, or the task ends (R299, R301). -/
def Block.nextPosition (b : Block) (t : TaskRef) (a : Access) (c : TaskCtx) (w : BatchWork) (cells : List Host.Cell) : Block :=
  let b1 := ((b.count (inReg t.half 0x20) 31 16 (b2n (decide (0 < w.attempt) && decide (w.lastStatus ≠ stInputLimit) && decide (w.lastStatus ≠ stInputCorrupt)))).count
    (inReg t.half 0x20) 15 8 (b2n (decide (w.lastStatus = stInputLimit) || decide (w.lastStatus = stInputCorrupt)))).countUnit t 1
  if w.pos + 1 < (c.tensor 0).ext 0 then
    let r := b1.landCells cells
    match r.2 with
    | some x => r.1.failStop t (.bad x)
    | none => match r.1.elemCode a (c.tensor 0) (w.pos + 1) (0, 0, 0, 0) with
      | .error e => r.1.stop t e
      | .ok i => r.1.modTask t (fun d => { d with watchdogs := [], batch := some (r.1.handOver t.half a c (BatchWork.start (w.pos + 1) i)) })
  else b1.land t cells stOk 0

/-- The stores of a filled position (R299, R300). -/
def Block.positionCells (b : Block) (a : Access) (c : TaskCtx) (w : BatchWork) (own : List Host.Cell) (draw : Nat) : Res (List Host.Cell) :=
  match b.elemCode a (c.tensor 0) w.pos (0, 0, 0, 0), (if c.desc.pf 0 55 53 = 1 then b.rdN a 8 (c.desc.pf 2 47 0) 32 else .ok []),
      b.elemCode a (c.tensor 1) 0 (w.index, 0, 0, 0), b.elemCode a (c.tensor 1) 1 (w.index, 0, 0, 0) with
  | .ok planned, .ok pf, .ok off, .ok len => b.filledCells a c w planned own draw pf (off, len)
  | .error e, _, _, _ => .error e
  | _, .error e, _, _ => .error e
  | _, _, .error e, _ => .error e
  | _, _, _, .error e => .error e

/-- An accepted sample fills its position. -/
def Block.fillPosition (b : Block) (t : TaskRef) (a : Access) (c : TaskCtx) (w : BatchWork) (own : List Host.Cell) : Block :=
  let n := b.fresh
  match n.2.positionCells a c w own n.1 with
  | .error e => n.2.stop t e
  | .ok cells => n.2.nextPosition t a c w cells

/-- The status of an attempt noted. -/
def BatchWork.note (w : BatchWork) (st det : Nat) : BatchWork :=
  { w with lastStatus := st, lastDetail := det, firstStatus := if w.attempt = 0 then st else w.firstStatus,
           firstDetail := if w.attempt = 0 then det else w.firstDetail }

/-- An attempt failed: the next substitute, or an EMPTY position after attempt 4 (R299). -/
def Block.failAttempt (b : Block) (t : TaskRef) (a : Access) (c : TaskCtx) (w : BatchWork) (st det : Nat) : Block :=
  let w1 := w.note st det
  let b1 := b.countSample t.half st
  match b1.indices a (c.tensor 0), b1.indices a (c.tensor 3) with
  | .error e, _ => b.stop t e
  | .ok _, .error e => b.stop t e
  | .ok plan, .ok reserve =>
    if w.attempt < 4 then
      let i := attemptIndex plan reserve a.seed (c.desc.pf 1 63 32) (c.desc.pf 1 31 0) w.pos (w.attempt + 1)
      let w2 := b1.handOver t.half a c { w1 with unit := none, attempt := w.attempt + 1, index := i }
      b1.modTask t (fun c => { c with watchdogs := [], batch := some w2 })
    else match b1.emptyCells a c w1 (plan.getD w.pos 0) with
      | .error e => b.stop t e
      | .ok cells => b1.nextPosition t a c w1 cells

/-- An image list without RESIZE is resized whole first (R297). -/
def Block.enterList (c : TaskCtx) (augs : List AugRecord) (w : BatchWork) : BatchWork :=
  if c.desc.pf 0 55 53 = 0 ∧ (augs.any (fun r => r.code = 1)) = false then w.resized 0 0 w.width w.height ((c.tensor 4).ext 1) ((c.tensor 4).ext 2) else w

/-- An attempt at a position of a batch on unit `u`, by its domain: an image, a sound, a clip or a text (R299); the unit counts it. -/
def Block.tryDomain (b : Block) (t : TaskRef) (g : Graph) (c : TaskCtx) (w : BatchWork) (u : Nat) (l pf : List Byte) (draw : Nat) : Res AttemptOut :=
  let r : Res AttemptOut := match c.desc.pf 0 55 53 with
    | 0 => b.tryImage t (b.taskAccess t.half g c) c u l draw
    | 1 => .ok (b.tryAudio t c l pf)
    | 2 => b.tryVideo t g c w.pos l draw
    | _ => .ok (b.tryText t c l)
  r.map (fun x => { x with block := x.block.countPipe t.half u x.done })

/-- SAMPLE_DONE (R299): the unit is done with the attempt's sample. With no enabled unit of its kind the sample waits (R281, R304). -/
def execSampleDone (t : TaskRef) (s : State) : Host.Outcome State Fault Refusal :=
  s.act (fun b => b.onRunning t 0x09 (fun g c =>
    let a := b.taskAccess t.half g c
    match c.batch with
    | none => b
    | some w =>
      if c.desc.mediaOp ≠ 0x14 ∨ w.augment then b
      else match b.sampleInput a c w with
        | .error e => b.stop t e
        | .ok (off, none) => b.failAttempt t a c w stInputCorrupt off
        | .ok (_, some (l, augs, pf)) =>
          let n := b.fresh
          match b.sampleUnit t.half c.desc w l with
          | none => b
          | some u => match n.2.tryDomain t g c w u l pf n.1 with
            | .error e => n.2.stop t e
            | .ok r => match r.res with
              | .failed st det => r.block.failAttempt t a c w st det
              | .ended st det => r.block.fail t st det
              | .cells st det cells _ => r.block.fillPosition t a c (w.note st det) cells
              | .sample st det ch wd ht vs =>
                let w1 := Block.enterList c augs { w.note st det with unit := none, chans := ch, width := wd, height := ht, values := vs, augment := true }
                if augs.isEmpty then r.block.fillPosition t a c w1 []
                else r.block.modTask t (fun c => { c with batch := some w1 })))

/-! ## Augmentation commands (R297) -/

/-- Run an augmentation record of a code on a task's accepted sample; after the last the position is filled. -/
def Block.onAugment (b : Block) (t : TaskRef) (code : Nat) (f : TaskCtx → BatchWork → (Nat → Nat) → AugRecord → BatchWork) : Block :=
  b.onRunning t 0x09 (fun g c =>
    let a := b.taskAccess t.half g c
    match c.batch with
    | none => b
    | some w =>
      if c.desc.mediaOp ≠ 0x14 ∨ w.augment = false then b
      else match b.augList a c.desc with
        | .error e => b.stop t e
        | .ok augs => match augs[w.op]? with
          | none => b
          | some r =>
            if r.code ≠ code then b
            else
              let w1 := { f c w (fun k => drawU a.seed (c.desc.pf 1 63 32) w.op w.index k) r with op := w.op + 1 }
              if w.op + 1 = augs.length then b.fillPosition t a c w1 []
              else b.modTask t (fun c => { c with batch := some w1 }))

/-- RESIZE (R297). -/
def execResize (t : TaskRef) (s : State) : Host.Outcome State Fault Refusal :=
  s.act (fun b => b.onAugment t 1 (fun c w u r => w.applyResize u r ((c.tensor 4).ext 1) ((c.tensor 4).ext 2)))

/-- FLIP (R297). -/
def execFlip (t : TaskRef) (s : State) : Host.Outcome State Fault Refusal := s.act (fun b => b.onAugment t 2 (fun _ w u r => w.applyFlip u r))

/-- JITTER (R297). -/
def execJitter (t : TaskRef) (s : State) : Host.Outcome State Fault Refusal := s.act (fun b => b.onAugment t 3 (fun _ w u r => w.applyJitter u r))

/-- NORM (R297). -/
def execNorm (t : TaskRef) (s : State) : Host.Outcome State Fault Refusal := s.act (fun b => b.onAugment t 4 (fun _ w _ r => w.applyNorm r))

/-- GAIN (R297). -/
def execGain (t : TaskRef) (s : State) : Host.Outcome State Fault Refusal := s.act (fun b => b.onAugment t 5 (fun _ w u r => w.applyGain u r))

/-- FMASK (R297). -/
def execFmask (t : TaskRef) (s : State) : Host.Outcome State Fault Refusal :=
  s.act (fun b => b.onAugment t 6 (fun _ w u r => w.applyMask u r true w.width))

/-- TMASK (R297). -/
def execTmask (t : TaskRef) (s : State) : Host.Outcome State Fault Refusal :=
  s.act (fun b => b.onAugment t 7 (fun _ w u r => w.applyMask u r false w.height))

end Sys2Proof.Machine
end

