-- ==== Sys2Proof/Machine/Conv.lean ====
section
/-! DEFINITION. Convolution tasks, modes 0-2 (spec/07_convolution_and_vision_ops.md R177-R187). -/

namespace Sys2Proof.Machine

/-! ## PARAMS (R178) -/

def TaskDesc.cvMode (d : TaskDesc) : Nat := d.pf 0 63 60
def TaskDesc.cvStatSlot (d : TaskDesc) : Nat := d.pf 0 59 48
def TaskDesc.cvStatEn (d : TaskDesc) : Bool := d.pf 0 35 35 = 1
def TaskDesc.cvPlain (d : TaskDesc) : Bool := d.pf 0 34 34 = 1
def TaskDesc.cvAccIn (d : TaskDesc) : Bool := d.pf 0 33 33 = 1
def TaskDesc.cvAct (d : TaskDesc) : Nat := d.pf 0 32 30
def TaskDesc.cvBias (d : TaskDesc) : Nat := d.pf 0 29 28
def TaskDesc.cvPad (d : TaskDesc) : Nat := d.pf 0 27 26
def TaskDesc.cvKH (d : TaskDesc) : Nat := d.pf 0 25 20
def TaskDesc.cvKW (d : TaskDesc) : Nat := d.pf 0 19 14
def TaskDesc.cvSH (d : TaskDesc) : Nat := d.pf 0 13 10 + 1
def TaskDesc.cvSW (d : TaskDesc) : Nat := d.pf 0 9 6 + 1
def TaskDesc.cvPT (d : TaskDesc) : Nat := d.pf 1 63 56
def TaskDesc.cvPB (d : TaskDesc) : Nat := d.pf 1 55 48
def TaskDesc.cvPL (d : TaskDesc) : Nat := d.pf 1 47 40
def TaskDesc.cvPR (d : TaskDesc) : Nat := d.pf 1 39 32
def TaskDesc.cvDH (d : TaskDesc) : Nat := d.pf 1 31 28 + 1
def TaskDesc.cvDW (d : TaskDesc) : Nat := d.pf 1 27 24 + 1
def TaskDesc.cvGroups (d : TaskDesc) : Nat := d.pf 1 23 6
def TaskDesc.cvLo (d : TaskDesc) : Nat := d.pf 2 63 46
def TaskDesc.cvHi (d : TaskDesc) : Nat := d.pf 2 45 28
def TaskDesc.cvRowsOut (d : TaskDesc) : Bool := d.pf 3 63 63 = 1

/-! ## Extents (R179, R180) -/

/-- An output extent (R180). -/
def convExtent (e pa pb k stride dil : Nat) : Nat :=
  (((e + pa + pb : Nat) - ((dil * (k - 1) + 1 : Nat) : Int)) / (stride : Int) + 1).toNat

/-- The feature map that H, W and C are taken from: X in modes 0 and 2, dX in mode 1. -/
def TaskCtx.cvMap (c : TaskCtx) : Tensor := c.tensor (if c.desc.cvMode = 1 then 2 else 0)

def TaskCtx.cvWo (c : TaskCtx) : Nat := convExtent (c.cvMap.ext 1) c.desc.cvPL c.desc.cvPR c.desc.cvKW c.desc.cvSW c.desc.cvDW
def TaskCtx.cvHo (c : TaskCtx) : Nat := convExtent (c.cvMap.ext 2) c.desc.cvPT c.desc.cvPB c.desc.cvKH c.desc.cvSH c.desc.cvDH

/-- C, and Cout. -/
def TaskCtx.cvC (c : TaskCtx) : Nat := c.cvMap.ext 0
def TaskCtx.cvCout (c : TaskCtx) : Nat := if c.desc.cvMode = 0 then (c.tensor 2).ext 0 else if c.desc.cvMode = 1 then (c.tensor 0).ext 0 else (c.tensor 1).ext 0

/-- C_g and Cout_g. -/
def TaskCtx.cvCg (c : TaskCtx) : Nat := c.cvC / c.desc.cvGroups
def TaskCtx.cvCoutg (c : TaskCtx) : Nat := c.cvCout / c.desc.cvGroups

/-- The rows of the output that the task computes (R186): the stripe of a row source, or all. -/
def TaskCtx.cvRowLo (c : TaskCtx) : Nat := if c.desc.cvRowsOut then c.desc.cvLo else 0
def TaskCtx.cvRowHi (c : TaskCtx) : Nat :=
  let n := (c.tensor 2).ext 2
  if c.desc.cvRowsOut && c.desc.cvHi ≠ 0 then min c.desc.cvHi n else n

/-! ## Check 1 (R178, R179, R186, R189, R195) -/

/-- Check 1 of modes 0-2. -/
def Block.convCheck (b : Block) (k : Nat) (c : TaskCtx) : Option Nat :=
  let d := c.desc
  let x := c.tensor 0
  let f := c.tensor 1
  let z := c.tensor 2
  let bv := decide (d.cvBias = 1)
  let ints := ((pairing x.fmt f.fmt).map (fun p => p.ints)).getD false
  let names := !d.rowSources.isEmpty
  let filter (t : Tensor) : Option Nat := firstFault [
    faultIf (t.ext 0 ≠ c.cvCg) (offTensor t.slot (tOffCap 0)), rowsAre t d.cvKW d.cvKH c.cvCout, flatFrom t 4]
  let outMap (t : Tensor) (n : Nat) : Option Nat := firstFault [
    faultIf (t.ext 0 ≠ c.cvCout) (offTensor t.slot (tOffCap 0)), rowsAre t c.cvWo c.cvHo n, flatFrom t 4]
  firstFault [
    faultIf (d.banks ≠ 4) offBanks, faultIf (decide (d.coveUnits < 16)) offCove,
    faultIf (decide (5 ≤ d.cvAct) || (d.cvMode ≠ 0 && d.cvAct ≠ 0)) 99, faultIf (decide (2 ≤ d.cvBias) || (d.cvMode ≠ 0 && d.cvBias ≠ 0)) 99,
    faultIf (d.cvAccIn && d.cvMode = 1) 100,
    faultIf (d.cvPad = 3 || (d.cvMode = 1 && d.cvPad ≠ 0)) 99, faultIf (d.cvKH = 0) 98, faultIf (d.cvKW = 0) 97,
    faultIf (d.cvGroups = 0) 104, faultIf (d.cvLo % 8 ≠ 0) 117, faultIf (d.cvHi % 8 ≠ 0) 115,
    fixedSlots d ([(true, 0), (true, 0), (true, 1)] ++ (if d.cvMode = 1 then [] else [(bv, 0), (d.cvAccIn, 0)])),
    faultIf ([0x0B, 0x0C, 0x0D, 0x0E].contains z.fmt) (offTensor 2 tOffFormat),
    compIn x [0, 2, 3, 4, 5, 6, 7], compIn f [0, 2, 3, 4, 5, 6, 7], compIn z (if d.cvMode = 0 then [0, 2, 3, 4, 5, 6] else [0, 4, 5, 6]),
    compFormat x, compFormat f, compFormat z,
    faultIf (pairing x.fmt f.fmt).isNone (offTensor 1 tOffFormat),
    whenOn bv (firstFault [formatIn (c.tensor 3) [0x00, 0x01], compIn (c.tensor 3) [0], extsAre (c.tensor 3) c.cvCout 1, flatFrom (c.tensor 3) 2]),
    faultIf (d.cvGroups ≠ 0 && (c.cvC % d.cvGroups ≠ 0 || c.cvCout % d.cvGroups ≠ 0)) 104,
    (match d.cvMode with
    | 0 => firstFault [filter f, outMap z (x.ext 3), flatFrom x 4]
    | 1 => firstFault [outMap x (z.ext 3), filter f, flatFrom z 4]
    | _ => firstFault [outMap f (x.ext 3), filter z, flatFrom x 4]),
    whenOn d.cvAccIn (firstFault [formatIn (c.tensor 4) (if ints then [0x0A] else [0x00, 0x01]), compIn (c.tensor 4) [0],
      (List.range 5).findSome? (fun i => extEq z (c.tensor 4) i i)]),
    whenOn (d.cvRowsOut || names) (faultIf ((if d.cvMode = 1 then z else x).ext 3 ≠ 1) (offTensor (if d.cvMode = 1 then 2 else 0) (tOffCap 3))),
    whenOn d.cvRowsOut (faultIf (!(b.inShelf k z)) (offTensor 2 0)) ]

/-! ## Taps (R182, R184) -/

/-- The index that a position reads along an extent (R182): none where it reads zero. -/
def padIndex (pad e : Nat) (x : Int) : Option Nat :=
  if 0 ≤ x ∧ x < e then some x.toNat
  else if pad = 0 ∨ e = 0 then none
  else if pad = 2 ∨ e = 1 then some (max 0 (min ((e : Int) - 1) x)).toNat
  else
    let p : Int := 2 * ((e : Int) - 1)
    let y := x % p
    some (if y < e then y else p - y).toNat

/-- An element of slot 0 or 1 as the stager hands it on: with COMP 7 a block whose occupancy bit is 0 reads as zero (R122, R124, R179). -/
def Block.convVal (b : Block) (a : Access) (t : Tensor) (i0 : Nat) (r : Row) : Res Val :=
  if t.comp = 7 then
    match b.rdNat a t.slot (t.zbByte (t.zbBatch r) (r.1 / 128) (i0 / 32)) 1 with
    | .error e => .error e
    | .ok x => if bit x (i0 / 32 % 8) then b.elemVal a t i0 r else .ok (.fin false 0 0)
  else b.elemVal a t i0 r

/-- An element of a map at a padded position. -/
def Block.convTap (b : Block) (a : Access) (t : Tensor) (pad ch n : Nat) (x y : Int) : Res Val :=
  match padIndex pad (t.ext 1) x, padIndex pad (t.ext 2) y with
  | some i, some j => b.convVal a t ch (i, j, n, 0)
  | _, _ => .ok (.fin false 0 0)

/-- The output index whose tap reads a position (R184, mode 1): none where no output does. -/
def backIndex (i pad r dil stride e : Nat) : Option Nat :=
  if i + pad < r * dil then none
  else if (i + pad - r * dil) % stride ≠ 0 then none
  else if (i + pad - r * dil) / stride < e then some ((i + pad - r * dil) / stride) else none

/-! ## The K sequence (R183) -/

/-- The passes of a filter: its rows and columns in runs of at most 7. -/
def passes (k : Nat) : List (List Nat) := (List.range (cdiv k 7)).map (fun a => (List.range (min 7 (k - 7 * a))).map (fun i => 7 * a + i))

/-- The runs of (r, s, channel) of modes 0 and 1, channel fastest. -/
def convRuns (kh kw chans : Nat) : List (List (Nat × Nat × Nat)) :=
  (passes kh).flatMap (fun rs => (passes kw).map (fun ss => rs.flatMap (fun r => ss.flatMap (fun s => (List.range chans).map (fun ch => (r, s, ch))))))

/-- The pairs of an element of mode 0. -/
def Block.convForwardPairs (b : Block) (a : Access) (c : TaskCtx) (oc : Nat) (r : Row) : Res (List (List (Val × List Val))) :=
  let d := c.desc
  let g := oc / c.cvCoutg
  mapRes (mapRes (fun p =>
    match b.convTap a (c.tensor 0) d.cvPad (g * c.cvCg + p.2.2) r.2.2.1 ((r.1 * d.cvSW + p.2.1 * d.cvDW : Nat) - (d.cvPL : Int))
        ((r.2.1 * d.cvSH + p.1 * d.cvDH : Nat) - (d.cvPT : Int)) with
    | .error e => .error e
    | .ok x => (b.convVal a (c.tensor 1) p.2.2 (p.2.1, p.1, oc, 0)).map (fun w => (x, [w])))) (convRuns d.cvKH d.cvKW c.cvCg)

/-- The pairs of an element of mode 1: taps that do not contribute are zero factors. -/
def Block.convBackPairs (b : Block) (a : Access) (c : TaskCtx) (ic : Nat) (r : Row) : Res (List (List (Val × List Val))) :=
  let d := c.desc
  let g := ic / c.cvCg
  mapRes (mapRes (fun p =>
    match backIndex r.1 d.cvPL p.2.1 d.cvDW d.cvSW c.cvWo, backIndex r.2.1 d.cvPT p.1 d.cvDH d.cvSH c.cvHo with
    | some ox, some oy => match b.convVal a (c.tensor 0) (g * c.cvCoutg + p.2.2) (ox, oy, r.2.2.1, 0) with
      | .error e => .error e
      | .ok y => (b.convVal a (c.tensor 1) (ic % c.cvCg) (p.2.1, p.1, g * c.cvCoutg + p.2.2, 0)).map (fun w => (y, [w]))
    | _, _ => .ok (.fin false 0 0, []))) (convRuns d.cvKH d.cvKW c.cvCoutg)

/-- The pairs of an element of mode 2: one run over (n, oy, ox). -/
def Block.convFilterPairs (b : Block) (a : Access) (c : TaskCtx) (cg : Nat) (r : Row) : Res (List (List (Val × List Val))) :=
  let d := c.desc
  let oc := r.2.2.1
  let ch := oc / c.cvCoutg * c.cvCg + cg
  let places := (List.range ((c.tensor 0).ext 3)).flatMap (fun n => (List.range c.cvHo).flatMap (fun oy => (List.range c.cvWo).map (fun ox => (n, oy, ox))))
  (mapRes (fun p =>
    match b.convTap a (c.tensor 0) d.cvPad ch p.1 ((p.2.2 * d.cvSW + r.1 * d.cvDW : Nat) - (d.cvPL : Int))
        ((p.2.1 * d.cvSH + r.2.1 * d.cvDH : Nat) - (d.cvPT : Int)) with
    | .error e => .error e
    | .ok x => (b.convVal a (c.tensor 1) oc (p.2.2, p.2.1, p.1, 0)).map (fun y => (x, [y]))) places).map (fun l => [l])

/-- The pairs of an element, run by run. -/
def Block.convPairs (b : Block) (a : Access) (c : TaskCtx) (i0 : Nat) (r : Row) : Res (List (List (Val × List Val))) :=
  match c.desc.cvMode with
  | 0 => b.convForwardPairs a c i0 r
  | 1 => b.convBackPairs a c i0 r
  | _ => b.convFilterPairs a c i0 r

/-! ## Elements (R83-R86, R101-R103, R183) -/

/-- The bank entry of an element: its runs added in order, each padded to whole groups. -/
def convEntry (q : Pairing) (plain : Bool) (runs : List (List (Val × List Val))) (init : Val) : Nat :=
  if q.ints then twos 64 (runs.foldl (fun n l => sumInts l n) (valInt init))
  else
    let sc := runs.foldl (fun sc l => sumGroups plain q.p (l.length + 1) l sc) (toF32 init, 0)
    sc.2 * 2 ^ 32 + sc.1

/-- Whether the integer path applies (R103). -/
def TaskCtx.cvIntPath (c : TaskCtx) (q : Pairing) : Bool :=
  q.ints && [0x08, 0x09, 0x0A].contains (c.tensor 2).fmt && c.desc.cvBias = 0 && decide (c.desc.cvAct ≤ 1)

/-- An element: its value as it goes to the conversion, and whether a non-finite sum became finite (R105). -/
def Block.convElem (b : Block) (a : Access) (c : TaskCtx) (q : Pairing) (i0 : Nat) (r : Row) : Res (Val × Bool) :=
  match (if c.desc.cvAccIn then b.elemVal a (c.tensor 4) i0 r else .ok (.fin false 0 0)) with
  | .error e => .error e
  | .ok init => match b.convPairs a c i0 r with
    | .error e => .error e
    | .ok runs =>
      let x := convEntry q c.desc.cvPlain runs init
      if c.cvIntPath q then .ok (ofInt (if c.desc.cvAct = 1 then max 0 (sext 64 x) else sext 64 x), false)
      else match (if c.desc.cvBias = 1 then b.elemVal a (c.tensor 3) i0 (0, 0, 0, 0) else .ok (.fin true 0 0)) with
        | .error e => .error e
        | .ok bi =>
          let v := f32 (entryF q x)
          let v3 := f32 (actF c.desc.cvAct (toF32 (addV v bi)))
          .ok (v3, !v.isFinite && v3.isFinite)

/-- The output rows of dimension 2 from `lo` to `hi`, stored, and the non-finite sums that became finite. -/
def Block.convRows (b : Block) (a : Access) (c : TaskCtx) (q : Pairing) (lo hi : Nat) : List (Res Stored) × Nat :=
  let z := c.tensor 2
  let rows := (z.rows.filter (fun r => decide (lo ≤ r.2.1) && decide (r.2.1 < hi))).map (fun r =>
    (r, mapRes (fun i => b.convElem a c q i r) (List.range (z.ext 0))))
  (b.mapTried a z (rows.map (fun p => (p.1, p.2.map (fun l => l.map (fun x => x.1))))),
    (rows.map (fun p => match p.2 with
      | .ok l => (l.filter (fun x => x.2)).length
      | .error _ => 0)).sum)

/-! ## Row sources and consumers (R186, R187) -/

/-- The input rows that an output row reads. -/
def TaskCtx.cvInputRows (c : TaskCtx) (y : Nat) : List Nat :=
  let d := c.desc
  let ks := List.range d.cvKH
  match d.cvMode with
  | 0 => ks.filterMap (fun r => padIndex d.cvPad ((c.tensor 0).ext 2) ((y * d.cvSH + r * d.cvDH : Nat) - (d.cvPT : Int)))
  | 1 => ks.filterMap (fun r => backIndex y d.cvPT r d.cvDH d.cvSH c.cvHo)
  | _ => List.range ((c.tensor 0).ext 2)

/-- Whether an input row may be read: no source's stripe holds it, or that source's count exceeds it. -/
def rowOpen (srcs : List TaskCtx) (y : Nat) : Bool :=
  srcs.all (fun s => !(decide (s.cvRowLo ≤ y) && decide (y < s.cvRowHi)) || decide (y < s.rowsReady))

/-- The first output row, from `lo`, that a consumer cannot compute yet, up to `hi`. -/
def rowsOpen (c : TaskCtx) (srcs : List TaskCtx) (lo hi : Nat) : Bool :=
  (List.range (hi - lo)).all (fun i => (c.cvInputRows (lo + i)).all (rowOpen srcs))

/-! ## Counters (R112, R185, R196) -/

/-- Whether a task uses the diagonal mapping (R185). -/
def TaskCtx.cvDiag (c : TaskCtx) : Bool := decide (1 < c.desc.cvGroups) && decide (c.cvCoutg ≤ 64)

/-- The tile columns of each group, each with its issuing cycles; a tile column crosses no group. In the diagonal mapping, which stands as one group, a tile of Q groups
takes Q × ⌈K_g/P⌉ cycles, K_g = KH·KW·C_g, as R185 says it of every mode (log entry 40). -/
def TaskCtx.cvTileCols (c : TaskCtx) (q : Pairing) : List (List Nat) :=
  let d := c.desc
  let slow := if q.slow then 4 else 1
  if c.cvDiag then
    let Q := 128 / max 1 c.cvCoutg
    [List.replicate (cdiv d.cvGroups Q) (Q * cdiv (d.cvKH * d.cvKW * c.cvCg) q.p * slow)]
  else
    let chans := if d.cvMode = 1 then c.cvCoutg else c.cvCg
    let runs := if d.cvMode = 2 then [c.cvWo * c.cvHo * (c.tensor 0).ext 3] else (convRuns d.cvKH d.cvKW chans).map (fun l => l.length)
    let width := if d.cvMode = 0 then c.cvCoutg else if d.cvMode = 1 then c.cvCg else c.cvCg * d.cvKW * d.cvKH
    List.replicate d.cvGroups (List.replicate (cdiv width 128) ((runs.map (fun n => cdiv n q.p)).sum * slow))

/-- The tile rows of a task. -/
def TaskCtx.cvTileRows (c : TaskCtx) : Nat :=
  let z := c.tensor 2
  if c.desc.cvMode = 2 then cdiv c.cvCoutg 128 else cdiv (z.ext 1 * (c.cvRowHi - c.cvRowLo) * z.ext 3) 128

/-- The units of a task, group-major (R185): up to 4 tiles of one tile row (as the worked example of patch embedding shares them; DEDUCED, log entry
40). -/
def TaskCtx.cvUnits (c : TaskCtx) (q : Pairing) : List (List Nat) :=
  (c.cvTileCols q).flatMap (fun g => (List.range c.cvTileRows).flatMap (fun _ => chunks 4 (g.length + 1) g))

/-- The counts of each core after a run; what its banks hold is free (log entry 32). -/
def Block.convCount (b : Block) (c : TaskCtx) (q : Pairing) : Block :=
  let us := c.cvUnits q
  let np := if c.desc.cvMode = 2 then 1 else cdiv c.desc.cvKH 7 * cdiv c.desc.cvKW 7
  (c.cores.zip (List.range c.cores.length)).foldl (fun x p =>
    let mine := ((us.zip (List.range us.length)).filter (fun u => coreOf us.length c.cores.length u.2 = p.2)).map (fun u => u.1)
    ((x.modReg (mxReg p.1 8) (fun w => w + BitVec.ofNat 64 (mine.map (fun l => l.sum)).sum)).modReg (mxReg p.1 0x68)
      (fun w => w + BitVec.ofNat 64 ((mine.map (fun l => l.length)).sum * np))).clearBanks p.1) b

/-- The counts of each core after a run that was broken off: free values (log entry 73). -/
def Block.convCountParts (b : Block) (c : TaskCtx) : Block :=
  c.cores.foldl (fun x n =>
    let y := x.fresh
    let z := y.2.fresh
    ((z.2.modReg (mxReg n 8) (fun w => w + BitVec.ofNat 64 y.1)).modReg (mxReg n 0x68) (fun w => w + BitVec.ofNat 64 z.1)).clearBanks n) b

/-- A convolution starts (R185): each of its cores counts it if it uses the diagonal mapping. -/
def Block.startConv (b : Block) (c : TaskCtx) : Block :=
  if c.desc.cvMode ≤ 2 ∧ c.cvDiag then c.cores.foldl (fun x n => x.count (mxReg n 0x60) 31 0 1) b else b

/-! ## The task -/

/-- A run of a convolution lands: what is done with the block and the run's counts once it has, or its stop (R108); a parity error ends it part of the way (R79). -/
def Block.convLand (b : Block) (t : TaskRef) (c : TaskCtx) (parity : Option BankUpset) (run : List (Res Stored) × Nat) (f : Block → ConvStats → Block) : Block :=
  let shares := partShares run.1
  match c.struck t.half parity with
  | some u => ((b.landSome shares).convCountParts c).bankError t u
  | none =>
    let r := b.landRun shares
    match r.2 with
    | some (.need d n) => r.1.stop t (.need d n)
    | some e => (r.1.convCountParts c).stop t e
    | none =>
      let st := partStats run.1
      f r.1 { st with nf := st.nf + run.2 }

/-- A convolution runs to its end once its sources let it: its rows left land, and its status is fixed after every source's (R186, R187). One whose source failed
issues no more. -/
def Block.convTask (b : Block) (t : TaskRef) (g : Graph) (c : TaskCtx) (parity : Option BankUpset) : Block :=
  let srcs := sourcesOf g c
  match failedSource srcs with
  | some _ => b.endConsumer t
  | none =>
    match pairing (c.tensor 0).fmt (c.tensor 1).fmt with
    | none => b
    | some q =>
      let lo := max c.cvRowLo c.rowsReady
      if b.anyHalted c ∨ srcs.any (fun s => !s.fixed) ∨ rowsOpen c srcs lo c.cvRowHi = false then b
      else
        let b0 := b.touch t g c
        b0.convLand t c parity (b0.convRows (b0.taskAccess t.half g c) c q lo c.cvRowHi) (fun b1 st =>
          let empty := c.emptyDetail
          let words := captureWords g.step (if empty.isSome then ConvStats.zero else c.counts.add st) empty.isSome
          let caps : List StatCapture := if c.desc.cvStatEn then [{ slot := Fin.ofNat 4096 c.desc.cvStatSlot, words := words }] else []
          let shapes := [c.cvWo, c.cvHo]
          let hi := c.cvRowHi
          ((b1.convCount c q).modTask t (fun c => { c with stats := caps, shapeOut := shapes, rowsReady := hi })).fix t
            (if empty.isSome then stOkEmpty else stOk) (empty.getD 0))

/-- CONV_FORWARD (R183, mode 0). -/
def execConvForward (t : TaskRef) (parity : Option BankUpset) (s : State) : Host.Outcome State Fault Refusal :=
  s.act (fun b => b.onMode t 0x04 0 (fun g c => b.convTask t g c parity))

/-- CONV_BACKWARD_DATA (R184, mode 1). -/
def execConvBackwardData (t : TaskRef) (parity : Option BankUpset) (s : State) : Host.Outcome State Fault Refusal :=
  s.act (fun b => b.onMode t 0x04 1 (fun g c => b.convTask t g c parity))

/-- CONV_BACKWARD_FILTER (R183, mode 2). -/
def execConvBackwardFilter (t : TaskRef) (parity : Option BankUpset) (s : State) : Host.Outcome State Fault Refusal :=
  s.act (fun b => b.onMode t 0x04 2 (fun g c => b.convTask t g c parity))

/-- ROWS_READY (R186): a running row source has written its rows below `rows`, a multiple of 8 or its stripe's end, and its count rises to
it. -/
def execRowsReady (t : TaskRef) (rows : Nat) (s : State) : Host.Outcome State Fault Refusal :=
  s.act (fun b => b.onRunning t 0x04 (fun g c =>
    let lo := max c.cvRowLo c.rowsReady
    let srcs := sourcesOf g c
    match pairing (c.tensor 0).fmt (c.tensor 1).fmt with
    | none => b
    | some q =>
      if c.desc.isRowSource ∧ lo < rows ∧ rows ≤ c.cvRowHi ∧ (rows % 8 = 0 ∨ rows = c.cvRowHi) ∧ rowsOpen c srcs lo rows ∧
          srcs.all (fun s => !s.fixed || firesTokens s.status) ∧ b.anyHalted c = false then
        let b0 := b.touch t g c
        b0.convLand t c none (b0.convRows (b0.taskAccess t.half g c) c q lo rows) (fun b1 st =>
          b1.modTask t (fun c => { c with rowsReady := rows, counts := c.counts.add st }))
      else b))

end Sys2Proof.Machine
end

