-- ==== Sys2Proof/Machine/Detect.lean ====
section
/-! DEFINITION. The detection operators: box decoding and non-maximum suppression (spec/07_convolution_and_vision_ops.md R192, R193). -/

namespace Sys2Proof.Machine

/-! ## Box decoding (R192) -/

/-- Check 1 of a box decode (R178, R179, R192). -/
def boxCheck (c : TaskCtx) : Option Nat :=
  let d := c.desc
  let t := c.tensor 0
  firstFault [
    faultIf (d.banks ≠ 4) offBanks, faultIf (decide (d.coveUnits < 16)) offCove,
    slotsRead d [(true, 0), (true, 0), (true, 1)],
    [0, 1, 2].findSome? (fun s => firstFault [formatIn (c.tensor s) [0x00], compIn (c.tensor s) [0],
      faultIf ((c.tensor s).ext 0 ≠ 4) (offTensor s (tOffCap 0))]),
    extEq t (c.tensor 1) 1 1, flatFrom (c.tensor 1) 2, extEq t (c.tensor 2) 1 1, extEq t (c.tensor 2) 2 2, flatFrom t 3,
    flatFrom (c.tensor 2) 3 ]

/-- A box from its deltas and its anchor: (y1, x1, y2, x2). -/
def boxOf (d : TaskDesc) (dl an : List Nat) : List Nat :=
  let g (l : List Nat) (i : Nat) : Nat := l.getD i 0
  let vy := d.pf 1 63 32
  let vx := d.pf 1 31 0
  let clip := d.pf 3 63 32
  let dh := minF (mulF (g dl 2) (d.pf 2 63 32)) clip
  let dw := minF (mulF (g dl 3) (d.pf 2 31 0)) clip
  let cy := fmaF (mulF (g dl 0) vy) (g an 2) (g an 0)
  let cx := fmaF (mulF (g dl 1) vx) (g an 3) (g an 1)
  let h := mulF (exp2F (mulF dh cLog2e)) (g an 2)
  let w := mulF (exp2F (mulF dw cLog2e)) (g an 3)
  [fmaF 0xBF000000 h cy, fmaF 0xBF000000 w cx, fmaF 0x3F000000 h cy, fmaF 0x3F000000 w cx]

/-- A box decode's stores (R192): each box from its deltas and its anchor. -/
def Block.bxRun (b : Block) (a : Access) (c : TaskCtx) : List (Res Stored) :=
  b.mapTried a (c.tensor 2) ((c.tensor 2).rows.map (fun r => (r, match b.rowF32 a (c.tensor 0) r with
    | .error e => .error e
    | .ok dl => (b.rowF32 a (c.tensor 1) (r.1, 0, 0, 0)).map (fun an => (boxOf c.desc dl an).map f32))))

/-- BOX_DECODE (R192). -/
def execBoxDecode (t : TaskRef) (s : State) : Host.Outcome State Fault Refusal :=
  s.act (fun b => b.onMode t 0x04 3 (fun g c =>
    let b0 := b.touch t g c
    let run := b0.bxRun (b.taskAccess t.half g c) c
    let words := captureWords g.step (partStats run) false
    let caps : List StatCapture := if c.desc.cvStatEn then [{ slot := Fin.ofNat 4096 c.desc.cvStatSlot, words := words }] else []
    (b0.modTask t (fun c => { c with stats := caps })).finishRun t (partShares run) stOk 0))

/-! ## Non-maximum suppression (R193) -/

def TaskDesc.nmsMax (d : TaskDesc) : Nat := d.pf 2 63 46

/-- Check 1 of a suppression (R178, R179, R193, R195). -/
def nmsCheck (c : TaskCtx) : Option Nat :=
  let d := c.desc
  let bx := c.tensor 0
  let sc := c.tensor 1
  firstFault [
    faultIf (d.banks ≠ 4) offBanks, faultIf (decide (d.coveUnits < 16)) offCove,
    faultIf (d.nmsMax = 0 || decide (16384 < d.nmsMax)) 117,
    slotsRead d [(true, 0), (true, 0), (true, 1), (true, 1)],
    formatIn bx [0x00], formatIn sc [0x00], formatIn (c.tensor 2) [0x0A], formatIn (c.tensor 3) [0x0A],
    [0, 1, 2, 3].findSome? (fun s => compIn (c.tensor s) [0]),
    faultIf (bx.ext 0 ≠ 4) (offTensor 0 (tOffCap 0)), flatFrom bx 3, extEq bx sc 1 1, extEq bx sc 2 2, flatFrom sc 3,
    faultIf ((c.tensor 2).ext 0 ≠ d.nmsMax) (offTensor 2 (tOffCap 0)), extEq sc (c.tensor 2) 0 1, extEq sc (c.tensor 2) 2 2, flatFrom (c.tensor 2) 3,
    extEq sc (c.tensor 3) 0 0, extEq sc (c.tensor 3) 2 1, flatFrom (c.tensor 3) 2 ]

/-- A candidate: its index, score and corners (y1, x1, y2, x2), as FP32 bits. -/
structure Candidate where
  i : Nat
  score : Nat
  box : List Nat
deriving DecidableEq, Repr

/-- A corner. -/
def Candidate.at (x : Candidate) (k : Nat) : Nat := x.box.getD k 0

/-- Whether a candidate is dropped as non-finite: a NaN score or a non-finite coordinate. -/
def Candidate.bad (x : Candidate) : Bool := decide (f32 x.score = .nan) || x.box.any (fun v => !(f32 v).isFinite)

/-- A box's area. -/
def Candidate.area (x : Candidate) : Nat := mulF (maxF 0 (subF (x.at 2) (x.at 0))) (maxF 0 (subF (x.at 3) (x.at 1)))

/-- Whether a kept candidate suppresses another. -/
def suppresses (thr : Nat) (a x : Candidate) : Bool :=
  let pos (v : Nat) : Bool := ltV (.fin false 0 0) (f32 v)
  let ih := subF (minF (a.at 2) (x.at 2)) (maxF (a.at 0) (x.at 0))
  let iw := subF (minF (a.at 3) (x.at 3)) (maxF (a.at 1) (x.at 1))
  let inter := if pos ih && pos iw then mulF ih iw else 0
  let union := subF (addF a.area x.area) inter
  pos union && ltV (f32 (mulF thr union)) (f32 inter)

/-- Greedy suppression over candidates in order, at most `most` kept. -/
def greedy (thr most : Nat) : List Candidate → List Candidate → List Candidate
  | [], kept => kept
  | x :: xs, kept =>
    if most ≤ kept.length then kept
    else if kept.any (fun a => suppresses thr a x) then greedy thr most xs kept
    else greedy thr most xs (kept ++ [x])

/-- The candidates of a unit that are kept, in keep order. -/
def nmsUnit (d : TaskDesc) (l : List Candidate) : List Candidate :=
  let live := l.filter (fun x => !x.bad && ltV (f32 (d.pf 1 31 0)) (f32 x.score))
  greedy (d.pf 1 63 32) d.nmsMax (sortBy (fun x y =>
    if ltV (f32 y.score) (f32 x.score) then true else if ltV (f32 x.score) (f32 y.score) then false else decide (x.i ≤ y.i)) live) []

/-- What a unit gives: its (class, image), the indices kept, the candidates dropped as non-finite and their non-finite values. -/
structure NmsOut where
  k : Nat
  n : Nat
  kept : List Nat
  dropped : Nat
  values : Nat
deriving DecidableEq, Repr

/-- One (class, image) unit. -/
def Block.nmsOne (b : Block) (a : Access) (c : TaskCtx) (k n : Nat) : Res NmsOut :=
  (mapRes (fun i => match b.rowF32 a (c.tensor 0) (i, n, 0, 0) with
    | .error e => .error e
    | .ok bx => (b.elemCode a (c.tensor 1) k (i, n, 0, 0)).map (fun s => ({ i := i, score := s, box := bx } : Candidate)))
    (List.range ((c.tensor 0).ext 1))).map (fun l =>
      let bad := l.filter (fun x => x.bad)
      { k := k, n := n, kept := (nmsUnit c.desc l).map (fun x => x.i), dropped := bad.length,
        values := (bad.map (fun x => b2n (decide (f32 x.score = .nan)) + (x.box.filter (fun v => !(f32 v).isFinite)).length)).sum })

/-- The cells of a unit: the kept indices as far as the count, and the count. -/
def Block.nmsCells (b : Block) (a : Access) (c : TaskCtx) (o : NmsOut) : Res (List Host.Cell) :=
  match b.wrCells a 2 ((c.tensor 2).rowVa (o.k, o.n, 0, 0)) (o.kept.flatMap (fun i => leBytes 4 i)) with
  | .error e => .error e
  | .ok cs => (b.wrCells a 3 ((c.tensor 3).rowVa (o.n, 0, 0, 0) + 4 * o.k) (leBytes 4 o.kept.length)).map (fun x => cs ++ x)

/-- A suppression's units (R193), class by class of each image. -/
def Block.nmsRun (b : Block) (a : Access) (c : TaskCtx) : List (Res NmsOut) :=
  ((List.range ((c.tensor 1).ext 2)).flatMap (fun n => (List.range ((c.tensor 1).ext 0)).map (fun k => (k, n)))).map (fun u => b.nmsOne a c u.1 u.2)

/-- The writes of its units. -/
def Block.nmsShares (b : Block) (a : Access) (c : TaskCtx) (run : List (Res NmsOut)) : List (List Piece) :=
  run.map (fun r => [{ out := r.bind (fun o => b.nmsCells a c o), sure := 0 }])

/-- NMS (R193): the boxes kept are written, their largest count goes to the shape register, and the dropped candidates are counted: of a run that stops, how many of them
is free (log entry 73). NF_COUNT takes each non-finite value, MX_NMS_STAT each candidate dropped for one (DEDUCED, log entry 76). -/
def execNms (t : TaskRef) (s : State) : Host.Outcome State Fault Refusal :=
  s.act (fun b => b.onMode t 0x04 4 (fun g c =>
    let a := b.taskAccess t.half g c
    let b0 := b.touch t g c
    let run := b0.nmsRun a c
    let outs := run.filterMap (fun r => r.toOption)
    let dropped := (outs.map (fun o => o.dropped)).sum
    let r := b0.landRun (b0.nmsShares a c run)
    match r.2 with
    | some (.need d n) => r.1.stop t (.need d n)
    | some e =>
      let f := r.1.fresh
      (f.2.count (regBase t.half + 0x1C30000) 31 0 (f.1 % (dropped + 1))).stop t e
    | none =>
      let words := captureWords g.step { ConvStats.zero with nf := (outs.map (fun o => o.values)).sum } false
      let caps : List StatCapture := if c.desc.cvStatEn then [{ slot := Fin.ofNat 4096 c.desc.cvStatSlot, words := words }] else []
      let shapes := [(outs.map (fun o => o.kept.length)).foldl max 0]
      ((r.1.count (regBase t.half + 0x1C30000) 31 0 dropped).modTask t (fun c => { c with stats := caps, shapeOut := shapes })).fix t stOk 0))

end Sys2Proof.Machine
end

