-- ==== Sys2Proof/Machine/Fire.lean ====
section
/-! DEFINITION. Firing (spec/02_saffron_task_graphs.md R35-R38, R42, R43; R73, R180, R187): which ready task fires on which cores, and the
checks in order. -/

namespace Sys2Proof.Machine

/-! ## What a firing task reads (R35, R42, R146) -/

/-- A byte read at firing. -/
def Block.rdFire (b : Block) (a : Access) (who va : Nat) : Res Byte := b.rdNow a who va

/-- `n` 64-bit words read at firing. -/
def Block.wordsFire (b : Block) (a : Access) (who va n : Nat) : Res (List Word) :=
  mapRes (fun j => (mapRes (fun i => b.rdFire a who (va + 8 * j + i)) (List.range 8)).map (fun l => BitVec.ofNat 64 (leNat l))) (List.range n)

/-- The tensor descriptors of the slots a task uses; the others hold nothing. -/
def Block.readTensors (b : Block) (a : Access) (d : TaskDesc) : Res (List (List Word)) :=
  mapRes (fun s => if d.uses s then b.wordsFire a s ((d.slots.getD s { role := 0, bound := 0, tdesc := 0 }).tdesc) 4 else .ok []) (List.range 8)

/-- The extents of a slot at firing: each from its shape register or its descriptor (R31, R35). -/
def Block.extsOf (b : Block) (h : HalfId) (k : Nat) (d : TaskDesc) (s : Nat) (t : Tensor) : List Nat :=
  let x := d.slots.getD s { role := 0, bound := 0, tdesc := 0 }
  (List.range 5).map (fun e => if bit x.bound e then b.shape h k (d.shapeInBase + 5 * s + e) else t.cap e)

/-- A context with its descriptors and extents as firing reads them; a mode-0 convolution's output map takes its computed extents (R180). -/
def Block.loadCtx (b : Block) (h : HalfId) (k : Nat) (c : TaskCtx) (ts : List (List Word)) : TaskCtx :=
  let d := c.desc
  let exts := (List.range 8).map (fun s => if d.uses s then b.extsOf h k d s (parseTensor s 0 (ts.getD s [])) else [])
  let c1 := { c with tdescs := ts, exts := exts }
  if d.type = 0x04 ∧ d.mode4 = 0 ∧ d.uses 2 then
    { c1 with exts := listMod c1.exts 2 (fun l => (l.set 1 c1.cvWo).set 2 c1.cvHo) }
  else c1

/-! ## The checks of R42 -/

/-- The slots whose FORMAT the policy may give: those that a task of a type with a POLICY_ENTRY writes, and slot 0 of a collective (R73, R90, R143, R178, R345, R346).
POLICY in any other slot is refused (DEDUCED, log entry 69). -/
def TaskDesc.takesPolicy (d : TaskDesc) (s : Nat) : Bool := ([0x01, 0x02, 0x04, 0x08].contains d.type && d.role s ≠ 0) || (d.type = 0x08 && s = 0)

/-- Check 1 of one slot: reserved bits, FORMAT, and a stride of 0 on a written dimension (R34, R35). COMP 2-6 ignore strides (R188, R190). -/
def TaskCtx.slotFault (c : TaskCtx) (s : Nat) : Option Nat :=
  let t := c.tensor s
  firstFault [
    (tensorReserved (c.tdescs.getD s [])).map (fun w => offTensor s w),
    faultIf (!(knownFormat t.fmt) || (t.fmt = 0x1F && !(c.desc.takesPolicy s))) (offTensor s tOffFormat),
    if c.desc.role s = 0 ∨ (2 ≤ t.comp ∧ t.comp ≤ 6) then none
    else [1, 2, 3, 4].findSome? (fun d => faultIf (t.strides.getD d 0 = 0 && decide (1 < t.ext d)) (offTensor s (tOffStride d))) ]

/-- The check-1 rules of a task's type. -/
def Block.typeCheck (b : Block) (t : TaskRef) (g : Graph) (c : TaskCtx) : Option Nat :=
  let d := c.desc
  match d.type with
  | 0x01 => matrixCheck c
  | 0x02 => match d.mode4 with
    | 0 => vectorCheck c c.prog
    | 1 => routeCheck c (b.experts t.half g.slot)
    | 2 => combineCheck c
    | 3 => kvWriteCheck c
    | _ => some 103
  | 0x03 => attentionCheck c
  | 0x04 => match d.mode4 with
    | 3 => boxCheck c
    | 4 => nmsCheck c
    | m => if m ≤ 2 then b.convCheck g.slot c else some 103
  | 0x05 => gatherCheck c
  | 0x06 => tierMoveCheck c
  | 0x07 => publicationCheck c
  | 0x08 => b.collCheck t.half g t.task c
  | 0x09 => b.mediaCheck t.half g c
  | 0x0D => gateCheck c
  | 0x0E => firstFault [faultIf (d.pf 1 47 41 = 0 || decide (64 < d.pf 1 47 41)) 109, faultIf (d.pf 1 63 48 = 0) 110]
  | _ => none

/-- Check 1. -/
def Block.check1 (b : Block) (t : TaskRef) (g : Graph) (c : TaskCtx) : Option Nat :=
  firstFault [c.desc.used.findSome? (fun s => c.slotFault s), b.typeCheck t g c]

/-- Check 2: the first extent above its capacity, with its DETAIL (R56); a suppression's candidates are at most 16,384 (R193). -/
def TaskCtx.check2 (c : TaskCtx) : Option Nat :=
  firstFault [
    c.desc.used.findSome? (fun s => (List.range 5).findSome? (fun d =>
      faultIf (decide ((c.tensor s).cap d < (c.tensor s).ext d)) (8 * s + d + (c.tensor s).ext d % 2 ^ 24 * 256))),
    faultIf (c.desc.type = 0x04 && c.desc.mode4 = 4 && decide (16384 < (c.tensor 0).ext 1)) (1 + (c.tensor 0).ext 1 % 2 ^ 24 * 256) ]

/-- Types whose own meaning writes what an empty task writes (R43, R107, R163, R362); any other ends at check 4 with nothing written. -/
def TaskDesc.runsEmpty (d : TaskDesc) : Bool :=
  d.type = 0x01 || (d.type = 0x02 && d.mode4 = 0) || d.type = 0x03 || (d.type = 0x04 && decide (d.mode4 ≤ 2)) ||
    (d.type = 0x08 && (d.coOp = 7 || d.coOp = 8))

/-- What an empty task of another type or mode captures with STAT_EN set: the EMPTY flag alone, after a reduction with no origin (R71, R72). -/
def TaskCtx.emptyCapture (c : TaskCtx) (g : Graph) : List StatCapture :=
  let words := captureWords g.step ConvStats.zero true
  if (c.desc.type = 0x02 ∨ c.desc.type = 0x04) ∧ c.desc.vxStatEn then [{ slot := Fin.ofNat 4096 c.desc.vxStatSlot, words := words }]
  else if c.desc.type = 0x08 ∧ c.desc.coStatEn then
    [{ slot := Fin.ofNat 4096 c.desc.coStatSlot, words := words.set 6 (words.getD 6 0 ||| BitVec.ofNat 64 (0xFFFF * 65536 + 2)) }]
  else []

/-! ## Format policy (R73) -/

/-- The policy entry that a task names (R90, R143, R178, R345). -/
def TaskDesc.policyIndex (d : TaskDesc) : Nat := if d.type = 0x01 then d.pf 0 51 40 else d.pf 0 47 36

/-- The formats of CURRENT: BF16, MXFP8-E5M2, MXFP8-E4M3. -/
def policyFormat : Nat → Nat
  | 0 => 0x01
  | 1 => 0x04
  | _ => 0x03

/-- Whether such a slot has FORMAT = POLICY. -/
def TaskCtx.namesPolicy (c : TaskCtx) : Bool := c.desc.used.any (fun s => c.desc.takesPolicy s && (c.tensor s).fmt = 0x1F)

/-- Whether the policy entry is decided for the step. -/
def Block.policyOpen (b : Block) (h : HalfId) (g : Graph) (c : TaskCtx) : Bool :=
  let i := c.desc.policyIndex
  b.regFld (policyReg h g.slot i 1) 4 4 = 1 || decide (g.step ≤ b.regFld (policyReg h g.slot i 0) 63 32)

/-- POLICY in such a slot becomes the entry's format for the whole run. -/
def Block.resolvePolicy (b : Block) (h : HalfId) (g : Graph) (c : TaskCtx) : TaskCtx :=
  let f := policyFormat (b.regFld (policyReg h g.slot c.desc.policyIndex 1) 1 0)
  { c with tdescs := (c.tdescs.zip (List.range 8)).map (fun p =>
      if c.desc.takesPolicy p.2 ∧ (c.tensor p.2).fmt = 0x1F then p.1.set 0 (setFld (p.1.getD 0 0) 46 42 f) else p.1) }

/-! ## Resources (R37, R38) -/

/-- The tasks of a half that hold a core. -/
def Block.onCore (b : Block) (h : HalfId) (n : Nat) : List TaskDesc :=
  ((b.tasksOf h).filter (fun p => p.2.2.holdsCores && p.2.2.cores.contains n)).map (fun p => p.2.2.desc)

/-- Whether a core has the banks, the Cove and the engines that a task needs (R37; engines DEDUCED, log entry 54). A task that asks for more Cove or more banks than a
core has (COVE_UNITS 97-127, BANKS 5-7) and that no check refuses never fires: R31 gives it no outcome (DESIGN CHOICE, log entry 68). -/
def Block.coreFits (b : Block) (h : HalfId) (d : TaskDesc) (n : Nat) : Bool :=
  let l := b.onCore h n
  decide ((l.map (fun x => x.banks)).sum + d.banks ≤ 4) && decide ((l.map (fun x => x.coveUnits)).sum + d.coveUnits ≤ 96) &&
    (enginesOf d.type).all (fun e => l.all (fun x => !((enginesOf x.type).contains e)))

/-- The enabled cores of a half, by module number, that a task could use. -/
def Block.fits (b : Block) (h : HalfId) (d : TaskDesc) : List Nat :=
  ((b.coresIn h d.clusterMask).map (fun n => 40 * halfNum h + n)).filter (fun n => b.coreFits h d n)

/-- Firing slots held on a half. -/
def Block.firingHeld (b : Block) (h : HalfId) : Nat := ((b.tasksOf h).filter (fun p => p.2.2.holdsFiring)).length

/-- A task's class after ageing (R38). -/
def TaskCtx.effClass (c : TaskCtx) : Nat := c.desc.cls - b2n c.aged

/-- Whether one ready task is chosen before another (R38). -/
def firesBefore (x y : TaskRef × Graph × TaskCtx) : Bool :=
  decide (x.2.2.effClass < y.2.2.effClass) || (x.2.2.effClass = y.2.2.effClass &&
    (decide (x.2.2.readyTide < y.2.2.readyTide) || (x.2.2.readyTide = y.2.2.readyTide &&
      (decide (x.1.graph < y.1.graph) || (x.1.graph = y.1.graph && decide (x.1.task ≤ y.1.task))))))

/-- The unit kinds of a media task, by what its sample is: PNG or not (R281). -/
def Block.unitsFor (b : Block) (h : HalfId) (g : Graph) (c : TaskCtx) : Option (List Nat) :=
  let png := c.desc.mediaOp = 0x10 && (match b.rdN (b.taskAccess h g c) 0 (c.tensor 0).base ((c.tensor 0).ext 0) with
    | .ok l => (Config.image l).png
    | .error _ => false)
  mediaUnits c.desc png

/-- What holds a ready task back besides resources: a slot no longer Active (R36, R50), an undecided policy entry (R73), a row source that has not fired (R187), or no enabled
unit of its kind (R258, R281). -/
def Block.held (b : Block) (t : TaskRef) (g : Graph) (c : TaskCtx) : Bool :=
  decide ((b.slot g.slot).st ≠ 1) || (c.namesPolicy && !(b.policyOpen t.half g c)) ||
  (sourcesOf g c).any (fun s => !(s.fired || s.fixed)) ||
  (c.desc.type = 0x09 && (match b.unitsFor t.half g c with
    | some ps => (b.pickUnit t.half ps).isNone
    | none => false))

/-- A ready task's context as it would fire; as it is where its descriptors cannot be read. -/
def Block.preview (b : Block) (t : TaskRef) (g : Graph) (c : TaskCtx) : TaskCtx :=
  match b.readTensors (b.taskAccess t.half g c) c.desc with
  | .ok ts => b.loadCtx t.half g.slot c ts
  | .error _ => c

/-- The cores that a task may take where others are reserved: reserved by class, only for a lower class (R38). -/
def unreserved (reserved : List (Nat × Nat)) (cls : Nat) (l : List Nat) : List Nat :=
  l.filter (fun n => reserved.all (fun r => r.1 ≠ n || decide (cls < r.2)))

/-- The Tide from which a task holds its place in its class: its ageing, or its becoming ready. -/
def TaskCtx.classTide (c : TaskCtx) : Nat := if c.aged then c.agedTide else c.readyTide

/-- Whether one ready task reserves cores before another: by class, and within a class by when each came into it, so that a task which ages into a class takes no
core that a task of the class has reserved (R38). -/
def reservesBefore (x y : TaskRef × Graph × TaskCtx) : Bool :=
  decide (x.2.2.effClass < y.2.2.effClass) || (x.2.2.effClass = y.2.2.effClass &&
    (decide (x.2.2.classTide < y.2.2.classTide) || (x.2.2.classTide = y.2.2.classTide && firesBefore x y)))

/-- The ready tasks that stand before a task, in the order of their reservations: none as soon as one that is chosen before it could fire; else the cores they
reserve, each with its reserver's class. One that could fire reserves nothing. -/
def Block.ahead (b : Block) (me : TaskRef × Graph × TaskCtx) : List (TaskRef × Graph × TaskCtx) → List (Nat × Nat) → Option (List (Nat × Nat))
  | [], r => some r
  | x :: xs, r =>
    let c := x.2.2
    let l := unreserved r c.effClass (b.fits me.1.half c.desc)
    if b.held x.1 x.2.1 (b.preview x.1 x.2.1 c) then b.ahead me xs r
    else if c.desc.cores ≤ l.length then (if firesBefore x me then none else b.ahead me xs r)
    else b.ahead me xs (if c.effClass ≤ 1 then r ++ l.map (fun n => (n, c.effClass)) else r)

/-- Whether a ready task may fire on the cores given: its turn, a firing slot, and cores that fit and are not reserved (R37, R38). -/
def Block.mayFire (b : Block) (t : TaskRef) (g : Graph) (c : TaskCtx) (cores : List Nat) : Bool :=
  let me := (t, g, c)
  let before := (b.tasksOf t.half).filter (fun p => p.2.2.phase = .ready && p.1 ≠ t && (firesBefore p me || reservesBefore p me))
  match b.ahead me (sortBy reservesBefore before) [] with
  | none => false
  | some r =>
    let l := unreserved r c.effClass (b.fits t.half c.desc)
    decide (b.firingHeld t.half < 2048) && decide (cores.length = c.desc.cores) && cores.all (fun n => l.contains n)

/-! ## Firing -/

/-- A task that passed its checks starts: a vector engine at its first instruction, a media task in its unit's queue, a collective with its
ready packets. -/
def Block.startTask (b : Block) (t : TaskRef) (g : Graph) (c : TaskCtx) : Block :=
  match c.desc.type with
  | 0x01 => b.startMatrix t g c
  | 0x04 => b.startConv c
  | 0x02 => c.cores.foldl (fun x n => x.modCore n (fun e => { e with vec := VecCore.reset })) b
  | 0x08 => (b.collFire t).collLost t (b.domain.lost.flatMap (fun y => (List.range 8).map (fun i => 8 * y + i)))
  | 0x09 =>
    let b1 := match (b.unitsFor t.half g c).bind (fun ps => b.pickUnit t.half ps) with
      | some p => b.assignUnit t p
      | none => b
    if c.desc.mediaOp ≤ 2 ∨ c.desc.mediaOp = 4 then b1.joinStream t c.desc.ctxNo
    else if c.desc.mediaOp = 0x14 ∧ c.desc.pf 0 55 53 = 2 then
      (List.range ((c.tensor 0).ext 0)).foldl (fun x p => x.joinStream t (c.desc.ctxBase + p)) b1
    else b1
  | _ => b

/-- The checks of R42 on a task that has fired. -/
def Block.checkFired (b : Block) (t : TaskRef) (g : Graph) (c : TaskCtx) : Block :=
  match b.check1 t g c with
  | some off => b.fix t stAdmission off
  | none => match c.check2 with
    | some det => b.fix t stShapeOver det
    | none =>
      if c.desc.gated ∧ b.verdictOf t.half g.slot g.step = some 2 then b.fix t stGateClosed 0
      else
        let c1 := b.resolvePolicy t.half g c
        let b1 := b.modTask t (fun _ => c1)
        match c1.emptyDetail with
        | some det => if c.desc.runsEmpty then b1.startTask t g c1 else (b1.modTask t (fun c => { c with stats := c1.emptyCapture g })).fix t stOkEmpty det
        | none => b1.startTask t g c1

/-- What the read of a firing task's context, or of its Harbour buffers, met (R227): a corrected error is counted; an uncorrectable one is counted and
ends the task. -/
def Block.contextUpset (b : Block) (h : HalfId) : Upset → Block
  | .none => b
  | .corrected => b.noteTierCe h 1
  | .uncorrectable => b.count (tierReg h 0x30) 15 0 1
  | .parity => b

/-- TASK_FIRE (R35-R38, R42, R43): the ready task takes a firing slot and the cores given, its descriptors, program and extents are read, and
the checks run in order. A read that fails ends it. -/
def execTaskFire (t : TaskRef) (cores : List (Fin 40)) (upset : Upset) (s : State) : Host.Outcome State Fault Refusal :=
  s.act (fun b => match b.graph t.half t.graph, b.task t with
    | some g, some c =>
      let ns := sortBy (fun x y => decide (x ≤ y)) ((cores.map (fun n => 40 * halfNum t.half + n.val)).eraseDups)
      if c.phase = .ready ∧ cores.length = ns.length ∧ b.mayFire t g c ns ∧ b.held t g (b.preview t g c) = false then
        let a := b.taskAccess t.half g c
        let c1 := { c with phase := .running, fired := true, cores := ns, fireTide := b.tide t.half }
        let b1 := (b.modTask t (fun _ => c1)).contextUpset t.half upset
        if upset = .uncorrectable ∨ upset = .parity then b1.fix t stDataError (tierDetail 1)
        else match b.readTensors a c.desc with
        | .error e => b1.fixStop t e
        | .ok ts =>
          let n := c.desc.vxCount
          match (if c.desc.type = 0x02 ∧ c.desc.mode4 = 0 ∧ n ≠ 0 ∧ n ≤ 64 then b.wordsFire a 8 c.desc.vxProg n else .ok []) with
          | .error e => b1.fixStop t e
          | .ok prog =>
            let c2 := { b.loadCtx t.half g.slot c1 ts with prog := prog }
            (b1.modTask t (fun _ => c2)).checkFired t g c2
      else b
    | _, _ => b)

end Sys2Proof.Machine
end

