-- ==== Sys2Proof/Machine/Power.lean ====
section
/-! DEFINITION. Power, heat and the supply (spec/18_power_heat_and_supply.md R456-R468, R472, R473; spec/17_zilsy_management_and_roles.md
R436; spec/09_shelf_and_bay_hardware.md R236). -/

namespace Sys2Proof.Machine

/-- A quotient by a positive number, rounded to a neighbouring integer: which, no rule says (log entry 53). -/
def roundDiv (n d : Int) : Int := n / d + (if n % d = 0 then 0 else b2n (Config.roundUp n d))

/-! ## The estimate (R456) -/

/-- The SVN of the running firmware. -/
def Block.svn (b : Block) : Nat := (b.runningFirmware.map (fun (x : FirmwareSlot) => x.svn)).getD 0

/-- The energy that a core's counters show, of the counters that `p` takes. -/
def coreEnergy (svn : Nat) (p : Nat → Bool) (counts : List Nat) : Nat :=
  ((counts.zip (List.range counts.length)).map (fun q => if p q.2 then Config.coreWeight svn q.2 * q.1 else 0)).sum

/-- Word `r` of CAL_VOLTAGE. -/
def Block.calWord (b : Block) (r : Nat) : Nat := leNat ((b.image.calVoltage.drop (8 * r)).take 8)

/-- The regulator losses of the rails over a window (R456): LOSS_MA mW per A of the rail's current, which reads in 10 mA. -/
def Block.railLoss (b : Block) : Int :=
  ((List.range 14).map (fun r => roundDiv ((b.regFld (zilReg (0x100 + 8 * r)) 47 24 * bits (b.calWord r) 31 16 : Nat) : Int) 50)).sum

/-- Static and regulator energy of a window, with Zilsy's correction (R456, R457). -/
def Block.staticEnergy (b : Block) : Int :=
  (Config.staticEnergy ((List.range 14).map (fun r => b.regFld (zilReg (0x100 + 8 * r)) 63 48)) (b.hottest .a) (b.hottest .b) : Int) +
    b.railLoss + b.power.correction

/-! ## The limiter (R459, R461) -/

/-- The fraction n / d added to a running remainder that is below 1: the carry, and the remainder in lowest terms. -/
def addRemainder (rn rd n d : Nat) : Nat × Nat × Nat :=
  let num := rn * d + n * rd
  let den := rd * d
  let c := num / den
  let r := num % den
  let g := Nat.gcd r den
  (c, r / g, den / g)

/-- L before the thermal limit, and the running remainder: T of R459 by the window's energies, ⌊T⌋ or ⌊T⌋ + 1, clamped to 1-64. -/
def Power.target (p : Power) (cap other full : Int) : Nat × Nat × Nat :=
  if full ≤ 0 then (max 1 (min 64 Config.idleTarget), p.remNum, p.remDen)
  else if cap ≤ other then (1, p.remNum, p.remDen)
  else
    let n := (64 * (cap - other)).toNat
    let d := full.toNat
    if 64 * d ≤ n then (64, p.remNum, p.remDen)
    else
      let r := addRemainder p.remNum p.remDen (n % d) d
      (max 1 (min 64 (n / d + r.1)), r.2.1, r.2.2)

/-- The largest LEVEL of the open hint windows: what the regulators' phases carry; 0 with none open (R460, R461). -/
def Power.level (p : Power) : Nat := ((p.hints.filter (fun w => w.opened)).map (fun w => w.level)).foldl max 0

/-- R of R461 after a window: from the fraction issued in it, one step per NORMAL_NS or HINTED_NS. -/
def Block.rampUp (b : Block) (issued : Nat) : Block :=
  let ns := if 0 < b.power.level then b.regFld (pwrReg 0x20) 15 0 else b.regFld (pwrReg 0x20) 31 16
  let t := b.power.rampNs + 2000
  b.setPower { b.power with ramp := min 64 (min issued 64 + t / max 1 ns), rampNs := t % max 1 ns }

/-- The limiter's registers after a window (R459, R473): THERMAL when the thermal limit is the lower, CAP when the cap limits; CAP_UNMET when a
window that ran at L = 1 stays above the cap, until one meets it. -/
def Block.limit (b : Block) (est want : Nat) : Block :=
  let cap := b.regFld (pwrReg 0) 10 0
  let therm := b.regFld (pwrReg 0x10) 40 34
  let was := b.regFld (pwrReg 8) 34 34 = 1
  let unmet := decide (cap < est) && (decide was || b.regFld (pwrReg 8) 46 40 = 1)
  let b1 := ((((b.setRegFld (pwrReg 8) 63 48 (min est 0xFFFF)).setRegFld (pwrReg 8) 46 40 (min want therm)).setRegFld (pwrReg 8) 34 34
    (b2n unmet)).setRegFld (pwrReg 8) 33 33 (b2n (decide (therm < want)))).setRegFld (pwrReg 8) 32 32 (b2n (decide (want < 64) && decide (want ≤ therm)))
  if unmet ∧ ¬ was then b1.log { event := 0x0031, arg0 := cap, arg1 := est } else b1

/-! ## Energy per job (R468) -/

/-- Energy of a step of a slot, or of no job (slot 16). -/
def Power.charge (p : Power) (e : Nat × Nat × Nat) : Power :=
  if e.1 < 16 then { p with cur := tabSet 0 p.cur (2 ^ 32 * e.1 + e.2.1) (tabGet 0 p.cur (2 ^ 32 * e.1 + e.2.1) + e.2.2) }
  else { p with idle := p.idle + e.2.2 }

/-- Charges one after another. -/
def Power.charges (p : Power) : List (Nat × Nat × Nat) → Power
  | [] => p
  | e :: es => (p.charge e).charges es

/-- The slot and step of the task that holds an engine of a core; slot 16 for none. -/
def Block.engineHolder (b : Block) (n e : Nat) : Nat × Nat :=
  match (b.tasksOf (halfOf (n / 40))).find? (fun p => p.2.2.holdsCores && p.2.2.cores.contains n && (enginesOf p.2.2.desc.type).contains e) with
  | none => (16, 0)
  | some p => (p.2.1.slot, p.2.1.step)

/-- The engine and uncore energies of a window, by slot and step. -/
def Block.usedEnergy (b : Block) (w : PowerSample) : List (Nat × Nat × Nat) :=
  (w.core.zip (List.range w.core.length)).flatMap (fun q => [0, 1, 2].map (fun e =>
    let t := b.engineHolder q.2 e
    (t.1, t.2, coreEnergy b.svn (fun i => Config.counterEngine b.svn i % 3 = e) q.1))) ++
  ((w.uncore.zip (List.range w.uncore.length)).map (fun q => q.1.map (fun u => (u.1, u.2.1, Config.uncoreWeight b.svn q.2 * u.2.2)))).flatten

/-- The shares of the static energy: in proportion to what jobs used, or to no job where none used the module. -/
def shares (used : List (Nat × Nat × Nat)) (fixed : Int) : List (Nat × Nat × Nat) :=
  let jobs := used.filter (fun e => decide (e.1 < 16))
  let total := (jobs.map (fun e => e.2.2)).sum
  if total = 0 then [(16, 0, fixed.toNat)]
  else jobs.map (fun e => (e.1, e.2.1, (roundDiv (fixed * e.2.2) total).toNat))

/-- POWER_WINDOW (R456, R459, R461, R468): 2 µs of Tide have passed. -/
def execPowerWindow (w : PowerSample) (s : State) : Host.Outcome State Fault Refusal :=
  s.act (fun b =>
    if ¬ b.sys.powerGood then b
    else
      let used := b.usedEnergy w
      let fixed := b.staticEnergy
      let total : Int := ((used.map (fun e => e.2.2)).sum : Nat) + fixed
      let est := (total / 2000).toNat
      let matrix : Nat := (w.core.map (fun c => coreEnergy b.svn (fun i => Config.counterEngine b.svn i % 3 = 0) c)).sum
      let t := b.power.target (2000 * (b.regFld (pwrReg 0) 10 0 : Nat)) (total - matrix) (Config.fullIssue b.svn w.core)
      let p := ({ b.power with remNum := t.2.1, remDen := t.2.2, estSum := b.power.estSum + min est 0xFFFF, estCount := b.power.estCount + 1 }).charges
        (used ++ shares used fixed)
      ((b.setPower p).rampUp w.issued).limit est t.1)

/-! ## The meter and the rails (R436, R457) -/

/-- A rail's reading. -/
def Block.setRail (b : Block) (r : Nat) (x : Nat × Nat) : Block :=
  b.setReg (zilReg (0x100 + 8 * r)) (BitVec.ofNat 64 (x.1 % 65536 * 2 ^ 48 + x.2 % 2 ^ 24 * 2 ^ 24 + 1))

/-- METER_CORRECTION (R436, R457, R473): the readings of a millisecond; while Zilsy answers, an eighth of the difference between the meter and
the mean estimate goes to the static term. -/
def execMeterCorrection (m : MeterSample) (s : State) : Host.Outcome State Fault Refusal :=
  s.act (fun b =>
    if ¬ b.sys.powerGood then b
    else
      let b1 := ((m.rails.take 14).zip (List.range 14)).foldl (fun x q => x.setRail q.2 q.1) b
      let b2 := b1.setReg (zilReg 0x30) (BitVec.ofNat 64 (m.vin % 65536 * 2 ^ 48 + m.iin % 2 ^ 24 * 2 ^ 24 + m.pin % 2 ^ 24))
      let p := b2.power
      let corr := if b2.zilsy.up ∧ 0 < p.estCount then
          p.correction + roundDiv (100 * (m.pin : Int) * p.estCount - 1000 * (p.estSum : Int)) (4 * (p.estCount : Int))
        else p.correction
      (b2.setPower { p with correction := corr, meter := p.meter + m.pin, estSum := 0, estCount := 0 }))

/-! ## Hints (R460, R461) -/

/-- A window opens once its start has come. -/
def Block.openHint (b : Block) (w : HintWindow) : HintWindow := if w.start ≤ b.tide w.half then { w with opened := true } else w

/-- The windows that are due open, and HINT_ACTIVE follows. -/
def Block.openHints (b : Block) : Block :=
  let b1 := b.setPower { b.power with hints := b.power.hints.map (b.openHint) }
  b1.setRegFld (pwrReg 8) 35 35 (b2n (b1.power.hints.any (fun w => w.opened)))

/-- POWER_HINT (R460): the task registers its window and ends; a window already past does nothing, and one already begun applies at once. -/
def execPowerHint (t : TaskRef) (s : State) : Host.Outcome State Fault Refusal :=
  s.act (fun b => b.onRunning t 0x0E (fun _ c =>
    let d := c.desc
    let at_ := d.pf 0 63 0
    let w : HintWindow := { half := t.half, start := at_ - 1000 * b.regFld (pwrReg 0x20) 63 48, stop := at_ + 1000 * d.pf 1 63 48,
                            level := d.pf 1 47 41, opened := false }
    let b1 := if w.stop < b.tide t.half then b else (b.setPower { b.power with hints := b.power.hints ++ [w] }).openHints
    b1.fix t stOk 0))

/-- HINT_WINDOW_OPEN (R461). -/
def execHintWindowOpen (s : State) : Host.Outcome State Fault Refusal := s.act (fun b => b.openHints)

/-- HINT_WINDOW_CLOSE (R461): windows whose end has come go; HINT_ACTIVE clears with the last. -/
def execHintWindowClose (s : State) : Host.Outcome State Fault Refusal :=
  s.act (fun b =>
    let b1 := b.setPower { b.power with hints := b.power.hints.filter (fun w => decide (b.tide w.half < w.stop)) }
    b1.setRegFld (pwrReg 8) 35 35 (b2n (b1.power.hints.any (fun w => w.opened))))

/-! ## Heat (R236, R462, R463) -/

/-- A temperature register takes a reading: TEMP, and PEAK when it is the highest. -/
def Block.setTemp (b : Block) (a : Nat) (seen : Bool) (t : Int) : Block :=
  let peak := sext 16 (b.regFld a 31 16)
  let p := if seen then max peak t else t
  (b.setRegFld a 15 0 (BitVec.ofInt 16 t).toNat).setRegFld a 31 16 (BitVec.ofInt 16 p).toNat

/-- A Tj reading with its CAL_SENSORS offset, which is in 0.01 °C (R428, R436). -/
def Block.calibrated (b : Block) (i : Nat) (t : Int) : Int := roundDiv (100 * t + 16 * sext 16 (leNat ((b.image.calSensors.drop (2 * i)).take 2))) 100

/-- The sensors' readings go to ZIL_TJ. -/
def Block.setTemps (b : Block) : List Int → Nat → Block
  | [], _ => b
  | t :: ts, i => (b.setTemp (zilReg (0x200 + 8 * i)) b.power.seenTj (b.calibrated i t)).setTemps ts (i + 1)

/-- The channels' temperatures go to CH_STAT (R252). -/
def Block.setChannels (b : Block) : List Int → Nat → Block
  | [], _ => b
  | t :: ts, i => (b.setRegFld (chanReg (halfOf (i / 160)) (i % 160) 0x30) 23 16 (BitVec.ofInt 8 t).toNat).setChannels ts (i + 1)

/-- A half's refresh band after a sample (R236): up at once; how long Tj has been 3 °C below each bound is noted. -/
def Block.followBand (b : Block) (h : HalfId) : Block :=
  let t := b.hottest h
  let b1 := b.modHalf h (fun x => { x with cool := (bandBounds.zip x.cool).map (fun p =>
    if t ≤ p.1 - 48 then some (p.2.getD b.sys.upNs) else none) })
  if b.regFld (shelfReg h 0) 1 1 = 1 ∧ b.regFld (shelfReg h 0) 3 2 < bandOf t then b1.setRegFld (shelfReg h 0) 3 2 (bandOf t) else b1

/-- The sensor that reads the hottest Tj, 0-127. -/
def Block.hotSensor (b : Block) (t : Int) : Nat :=
  ((List.range 128).find? (fun i => sext 16 (b.regFld (zilReg (0x200 + 8 * i)) 15 0) = t)).getD 0

/-- A thermal threshold is logged (R440, R462). -/
def Block.logThermal (b : Block) (t : Int) (severity : Nat) : Block :=
  let i := b.hotSensor t
  b.log { event := 0x0030, half := halfOf (i / 64), kind := 7, index := i % 64, arg0 := i, arg1 := (BitVec.ofInt 16 t).toNat, severity := some severity }

/-- The trip (R463): every regulator but VZIL's turns off. What they supplied is lost; Zilsy, its flash and its sensor block stay. -/
def Block.trip (b : Block) : Block :=
  let kept := b.regs.filter (fun e => decide (0x45000000 ≤ e.1))
  ({ b.cold with regs := kept, image := b.image, zilsy := b.zilsy, power := { b.power with tripAt := some b.sys.upNs, hints := [] },
                 sys := { Block.reset.sys with vin := b.sys.vin, standby := true, faultPin := true, upNs := b.sys.upNs, perst := b.sys.perst } }).setRegFld
    (pwrReg 0x10) 33 33 1

/-- The thermal limit after a sample of 100 °C or more (R462). -/
def Block.throttle (b : Block) (t : Int) : Block :=
  let l := b.regFld (pwrReg 0x10) 40 34
  let l1 := if 1760 ≤ t then min l 16 else l
  let b1 := b.setRegFld (pwrReg 0x10) 40 34 (max 1 (l1 - 1))
  if b.regFld (pwrReg 0x10) 32 32 = 1 then b1
  else ((b1.setRegFld (pwrReg 0x10) 32 32 1).setPower { b1.power with throttleSince := some b.sys.upNs }).logThermal t 2

/-- What the hottest Tj of a sample does (R462, R463), `was` the one before. -/
def Block.heat (b : Block) (was t : Int) : Block :=
  let b0 := b.setRegFld (pwrReg 0x10) 63 48 (BitVec.ofInt 16 t).toNat
  let b1 := if was < 1520 ∧ 1520 ≤ t then b0.logThermal t 1 else b0
  let b2 := b1.setPower { b1.power with coolFrom := if t < 1568 then some (b1.power.coolFrom.getD b1.sys.upNs) else none }
  let b3 := if 1600 ≤ t then b2.throttle t else b2
  if 1840 ≤ t then (b3.logThermal t 3).trip else b3

/-- TJ_SAMPLE (R236, R436, R462, R463). The readings are in 1/16 °C before calibration, the channels' in °C. -/
def execTjSample (temps channels : List Int) (coolant : Option Int) (s : State) : Host.Outcome State Fault Refusal :=
  s.act (fun b =>
    if ¬ b.sys.powerGood then b
    else
      let was := sext 16 (b.regFld (pwrReg 0x10) 63 48)
      let b1 := (b.setTemps (temps.take 128) 0).setChannels (channels.take 320) 0
      let b2 := match coolant with
        | none => b1
        | some t => b1.setTemp (zilReg 0x38) b.power.seenCoolant t
      let b3 := b2.setPower { b2.power with seenTj := b.power.seenTj || !temps.isEmpty, seenCoolant := b.power.seenCoolant || coolant.isSome }
      ((b3.followBand .a).followBand .b).heat was (max (b3.hottest .a) (b3.hottest .b)))

/-- THERMAL_RECOVER_STEP (R462): below 98 °C for 1 ms since the last step, the limit rises by one; at 64 THROTTLING clears. -/
def execThermalRecoverStep (s : State) : Host.Outcome State Fault Refusal :=
  s.act (fun b =>
    let l := b.regFld (pwrReg 0x10) 40 34
    if ¬ b.sys.powerGood ∨ 64 ≤ l then b
    else match b.power.coolFrom with
      | none => b
      | some t =>
        if b.sys.upNs < t + 1000000 then b
        else
          let b1 := (b.setPower { b.power with coolFrom := some b.sys.upNs }).setRegFld (pwrReg 0x10) 40 34 (l + 1)
          if l + 1 < 64 then b1
          else (b1.setRegFld (pwrReg 0x10) 32 32 0).setPower { b1.power with
                   throttleNs := b1.power.throttleNs + ((b1.power.throttleSince.map (fun x => b1.sys.upNs - x)).getD 0), throttleSince := none })

/-! ## Margin trim (R464, R465) -/

/-- The time of a half's last margin alarm. -/
def Power.alarm (p : Power) : HalfId → Option Nat
  | .a => p.alarmA
  | .b => p.alarmB

/-- The low bit of a half's trim in PWR_TRIM (R473). -/
def trimBit : HalfId → Nat
  | .a => 32
  | .b => 40

/-- The deepest trim of a half's core rail (R464): 30 mV, and not below FLOOR_MV. -/
def Block.maxTrim (b : Block) (h : HalfId) : Nat := min 30 (bits (b.calWord (halfNum h)) 63 48 - bits (b.calWord (halfNum h)) 47 32)

/-- MARGIN_TRIM (R464, R465): an hour of powered time has passed, `above` when the smallest margin stayed above the guard band. Zilsy stores
the trim. -/
def execMarginTrim (h : HalfId) (above : Bool) (s : State) : Host.Outcome State Fault Refusal :=
  s.act (fun b =>
    if ¬ b.sys.powerGood then b
    else
      let lo := trimBit h
      let x := b.regFld (pwrReg 0x18) (lo + 7) lo
      let held := (b.power.alarm h).any (fun t => decide (b.sys.upNs < t + 86400000000000))
      let y := if above ∧ ¬ held ∧ x < b.maxTrim h then x + 1 else x
      let b1 := b.setRegFld (pwrReg 0x18) (lo + 7) lo y
      if b1.zilsy.up then
        b1.setFlash (match h with
            | .a => { b1.flash with trimA := y }
            | .b => { b1.flash with trimB := y })
      else b1)

/-- MARGIN_ALARM (R465): the half's core rail returns to NOM_MV; the alarm is counted and logged. -/
def execMarginAlarm (h : HalfId) (s : State) : Host.Outcome State Fault Refusal :=
  s.act (fun b =>
    if ¬ b.sys.powerGood then b
    else
      let b1 := ((b.setRegFld (pwrReg 0x18) (trimBit h + 7) (trimBit h) 0).count (pwrReg 0x18) 31 0 1).log
        { event := Config.marginEvent, half := h, kind := 8, index := halfNum h }
      (b1.setPower (match h with
          | .a => { b1.power with alarmA := some b1.sys.upNs }
          | .b => { b1.power with alarmB := some b1.sys.upNs })))

end Sys2Proof.Machine
end

