-- ==== Sys2Proof/Machine/Views.lean ====
section
/-! DEFINITION. What a read of a register returns (spec/00_scope.md R6): its stored value, or, for a register that shows other state, that
state's view. -/

namespace Sys2Proof.Machine

/-- A word from its value. -/
def word (n : Nat) : Word := BitVec.ofNat 64 n

/-! ## Saffron (R54) -/

/-- SAF_STATUS: a graph leaves with its last record, so every listed graph has an unresolved task. -/
def Block.safStatus (b : Block) (h : HalfId) : Nat :=
  (b.half h).graphs.length * 2 ^ 44 + b.firingHeld h * 2 ^ 32 + (524288 - b.contextsUsed h)

/-- SAF_JOB_SLOT_CTRL_k: the slot's state, not the last value written. -/
def JobSlot.ctrl (s : JobSlot) : Nat := b2n (s.st = 1) * 4096 + (if s.st = 0 then 0 else s.job)

/-- SAF_JOB_SLOT_STAT_k of a half. -/
def Block.slotStat (b : Block) (h : HalfId) (k : Nat) : Nat :=
  let gs := (b.half h).graphs.filter (fun p => p.2.slot = k)
  gs.length * 2 ^ 36 + (gs.map (fun p => p.2.tasks.length)).sum * 2 ^ 16 + (b.slot k).st

/-- SAF_GRAPH_HEAD_g: the head of a live graph's own ring. -/
def Block.graphHead (b : Block) (h : HalfId) (g : Nat) : Nat :=
  match b.graph h g with
  | some x => if x.queue.isSome then 0 else x.head
  | none => 0

/-! ## The cores (R112, R113, R176) -/

/-- The task that holds an engine of a core: 0 the array, 1 the vector engine. -/
def Block.engineTask (b : Block) (n e : Nat) : Option (TaskRef × Graph × TaskCtx) :=
  (b.tasksOf (halfOf (n / 40))).find? (fun p => p.2.2.holdsCores && p.2.2.cores.contains n && (enginesOf p.2.2.desc.type).contains e)

/-- The fields that name a task in MX_CORE_STAT and VX_CORE_STAT. -/
def taskFields (p : TaskRef × Graph × TaskCtx) : Nat := p.1.graph * 2 ^ 40 + p.2.2.desc.index * 2 ^ 20 + p.2.1.job

/-- MX_CORE_STAT. -/
def Block.mxCoreStat (b : Block) (n : Nat) : Nat :=
  b2n (b.core n).halted * 2 ^ 61 + (match b.matrixOn n with
    | some p => 2 ^ 63 + b2n p.2.2.mxReordered * 2 ^ 62 + taskFields p
    | none => 0)

/-- VX_CORE_STAT. -/
def Block.vxCoreStat (b : Block) (n : Nat) : Nat :=
  match b.engineTask n 1 with
  | some p => 2 ^ 63 + b2n (p.2.2.desc.type = 0x03) * 2 ^ 62 + taskFields p
  | none => 0

/-- A word of MX_DBG_WIN (R112): zero while the array is not halted. -/
def Block.debugWindow (b : Block) (a : Nat) : Nat :=
  let o := a - 0x62000000
  let e := b.core (o / 0x80000)
  let cell := o % 0x20000 / 8
  if e.halted then
    (e.banks.getD (o % 0x80000 / 0x20000) BankTile.reset).entry cell
  else 0

/-! ## Tiers (R232) -/

/-- TIER_FREE: zero until Ready. -/
def Block.tierFree (b : Block) (h : HalfId) : Nat :=
  if b.sys.ready then b.freeFramesOf h 2 * 2 ^ 32 + b.freeFramesOf h 1 else 0

/-- TIER_USAGE_k. -/
def Block.tierUsage (b : Block) (h : HalfId) (k : Nat) : Nat :=
  usage (b.tiers h).frames 2 k * 2 ^ 32 + usage (b.tiers h).frames 1 k

/-- TIER_TAG_STAT. -/
def Block.tagStat (b : Block) (h : HalfId) : Nat :=
  let t := b.tiers h
  let full := ((t.tags.map (fun p => p.2.dest)).eraseDups).filter (fun d => decide (b.regFld (tierReg h 0x18) 12 0 ≤ t.tagsAt d))
  (16384 - t.tags.length) * 2 ^ 32 + full.length

/-- TIER_LEND_STAT. -/
def Block.lendStat (b : Block) (h : HalfId) : Nat := (b.window h).dir.length * 2 ^ 32 + (b.window h).st

/-! ## Harbour (R279, R305) -/

/-- The task whose work is in progress on a unit. -/
def Block.unitTask (b : Block) (h : HalfId) (p : Nat) : Option TaskRef := (b.unitTasks h p).find? (fun t => b.isRunning t)

/-- Whether a batch's sample is in progress on a unit. -/
def Block.holdsSample (b : Block) (h : HalfId) (p : Nat) : Bool :=
  (b.tasksOf h).any (fun q => b.isRunning q.1 && q.2.2.batch.bind (fun w => w.unit) = some p)

/-- Whether work is in progress on a unit. -/
def Block.unitBusy (b : Block) (h : HalfId) (p : Nat) : Bool := (b.unitTask h p).isSome || b.holdsSample h p

/-- HB_VID_STAT. -/
def Block.vidStat (b : Block) (h : HalfId) : Nat :=
  (b.harbour h).streams.length * 2 ^ 32 + ((List.range 9).map (fun p => b2n (b.unitBusy h p) * 2 ^ p)).sum

/-- HB_VID_PIPE_p, and HB_UNIT_q, which names no context. -/
def Block.unitStat (b : Block) (h : HalfId) (p : Nat) : Nat :=
  let ctx := match b.unitTask h p with
    | some t => if p < 9 then ((b.task t).map (fun c => c.desc.ctxNo)).getD 0 else 0
    | none => 0
  b2n (b.unitBusy h p) * 2 ^ 63 + b.pipeState h p * 2 ^ 61 + ctx * 2 ^ 48 + b.regFld (unitCounter h p) 47 0

/-- HB_VID_CTX_c. -/
def Block.ctxStat (b : Block) (h : HalfId) (c : Nat) : Nat :=
  match b.stream h c with
  | none => 0
  | some x => (if x.live then 2 else 1) * 2 ^ 62 + b2n (b.holder h c).isSome * 2 ^ 61 + b2n x.encoder * 2 ^ 60 + x.codec * 2 ^ 57 +
      x.job * 2 ^ 36 + ((x.buffers.filterMap id).filter (fun p => p.mark ≠ 0)).length * 2 ^ 31 + x.fbCount * 2 ^ 26

/-! ## Efing and Tide (R339, R340) -/

/-- EF_STAT. A fenced port is one that is Disabled with a cause (R324). -/
def Block.efStat (b : Block) (h : HalfId) : Nat :=
  b.endpoint h * 2 ^ 48 + (b.half h).efing.census * 2 ^ 40 +
  ((List.range 9).map (fun i => b2n ((b.port h i).st = 5 && (b.port h i).cause ≠ 0) * 2 ^ (9 + i) + b2n ((b.port h i).st = 2) * 2 ^ i)).sum

/-- EF_PORT_i. -/
def Port.stat (l : Port) : Nat :=
  l.st * 2 ^ 61 + l.cause * 2 ^ 58 + l.linkClass * 2 ^ 56 + b2n l.spareUsed * 2 ^ 55 + l.spareFor * 2 ^ 52 + l.nbrEndpoint * 2 ^ 32 + l.nbrPort * 2 ^ 27

/-- Eight bytes of EF_ROUTE from destination `d`. -/
def Block.routeWord (b : Block) (h : HalfId) (d : Nat) : Nat :=
  ((List.range 8).map (fun i => if d + i < 16384 then b.routeByte h (d + i) * 2 ^ (8 * i) else 0)).sum

/-! ## The module (R420, R421, R455, R473, R488) -/

/-- PCI_QP_STAT_q. -/
def Block.pairStat (b : Block) (q : Nat) : Nat :=
  let p := b.pair q
  let st := if ¬ p.enabled then 0 else if b.census < 2 then 2 else if 2 ^ p.cqLog2 ≤ p.cqHeld then 3 else 1
  st * 2 ^ 62 + p.sqHead * 2 ^ 32 + p.cqTail

/-- ZIL_STAT. -/
def Block.zilStat (b : Block) : Nat :=
  b2n b.zilsy.up * 2 ^ 63 + min b.zilsy.resets 255 * 2 ^ 48 + b2n b.zilsy.fwSlotB * 2 ^ 32 + (b.sys.upNs - b.zilsy.started) / 1000000000 % 2 ^ 32

/-- ZIL_SVN: nothing before Zilsy has booted. -/
def Block.zilSvn (b : Block) : Nat :=
  if b.zilsy.up ∨ b.zilsy.resets ≠ 0 then
    b.flash.floor * 2 ^ 48 + ((b.runningFirmware.map (fun x => x.svn)).getD 0) * 2 ^ 32 +
      ((b.flash.bootable b.otherFirmware).map (fun x => x.svn)).getD 0xFFFF * 2 ^ 16
  else 0

/-- ZIL_STRAPS: the latched straps, with FAULT and CLK10M_LOCK as they stand. -/
def Block.strapStat (b : Block) : Nat :=
  (b.reg (zilReg 0x40)).toNat ||| (b2n (b.halfA.tide.clk10m || b.halfB.tide.clk10m) * 8 + b2n b.sys.faultPin * 2)

/-- THROTTLE_MS: the time spent with THROTTLING set. -/
def Block.throttleMs (b : Block) : Nat :=
  min ((b.power.throttleNs + (b.power.throttleSince.map (fun t => b.sys.upNs - t)).getD 0) / 1000000) 0xFFFFFFFF

/-- A word of PWR_JOB_k. -/
def Block.jobEnergy (b : Block) (k w : Nat) : Nat :=
  let last := tabGet (0, 0) b.power.last k
  if w = 0 then last.1 * 2 ^ 32
  else if w = 1 then last.2 / 1000000
  else ((b.power.cur.filter (fun e => e.1 / 2 ^ 32 = k)).map (fun e => e.2)).sum / 1000000

/-! ## A read (R6, R402) -/

/-- The value of a register that shows other state, by its offset in the control space of a half; none for a register that is stored. -/
def Block.halfView (b : Block) (h : HalfId) (o : Nat) : Option Nat :=
  if o < 0x100000 then none
  else if o < 0x140000 then
    (let p := o - 0x100000
     if p = 0 then some (b.safStatus h)
     else if p = 0x300 then some (if b.sys.ready then b.coreMask h else 0)
     else if 0x400 ≤ p ∧ p < 0x500 then some (if p % 16 = 0 then (b.slot ((p - 0x400) / 16)).ctrl else b.slotStat h ((p - 0x400) / 16))
     else if 0x8000 ≤ p ∧ p < 0x10000 then some (b.graphHead h ((p - 0x8000) / 8))
     else none)
  else if o < 0x180000 then some (b.shape h ((o - 0x140000) / 0x4000) ((o - 0x140000) % 0x4000 / 4))
  else if o < 0x1C40000 then none
  else if o < 0x1C50000 then
    (let p := o - 0x1C40000
     if p = 8 then some (b.tierFree h)
     else if p = 0x20 then some (b.tagStat h)
     else if p = 0x50 then some (b.lendStat h)
     else if 0x100 ≤ p ∧ p < 0x180 then some (b.tierUsage h ((p - 0x100) / 8))
     else none)
  else if o < 0x1C70000 then none
  else if o < 0x1C80000 then
    (let p := o - 0x1C70000
     if p = 0 then some (b.vidStat h)
     else if 0x100 ≤ p ∧ p < 0x148 then some (b.unitStat h ((p - 0x100) / 8))
     else if 0x1000 ≤ p ∧ p < 0x2000 then some (b.ctxStat h ((p - 0x1000) / 8))
     else none)
  else if o < 0x1C90000 then
    (let p := o - 0x1C80000
     if 0x100 ≤ p ∧ p < 0x190 then some (b.unitStat h (9 + (p - 0x100) / 8)) else none)
  else if o < 0x1CA0000 then
    (let p := o - 0x1C90000
     if p = 0 then some (b.efStat h)
     else if 0x100 ≤ p ∧ p < 0x220 ∧ p % 0x20 = 0 then some (b.port h ((p - 0x100) / 0x20)).stat
     else if 0x8000 ≤ p ∧ p < 0xC000 then some (b.routeWord h (p - 0x8000))
     else none)
  else if o = 0x1CA0000 then some (b.tide h)
  else none

/-- The same for a register of a core or of the module, by its address. -/
def Block.moduleView (b : Block) (a : Nat) : Option Nat :=
  if a = pciReg 0 then some (setFld (b.reg a) 41 40 b.census).toNat
  else if a = pciReg 0x30 then some (b.sys.slack * 4 + b2n b.sys.slackRefused * 2)
  else if pairReg 0 0 ≤ a ∧ a < pairReg 64 0 ∧ a % 0x40 = 0x18 then some (b.pairStat ((a - pairReg 0 0) / 0x40))
  else if a = zilReg 0 then some b.zilStat
  else if a = zilReg 8 then some b.zilSvn
  else if a = zilReg 0x10 then some (b.flash.nextLogSeq % 2 ^ 40 * 2 ^ 24 + b.zilsy.lost)
  else if a = zilReg 0x18 then some (b.flash.audit.length * 2 ^ 47 + b2n (decide (64512 ≤ b.flash.audit.length)) * 2 ^ 46)
  else if a = zilReg 0x28 ∧ ¬ b.zilsy.up ∧ b.zilsy.resets ≠ 0 then some (3 * 2 ^ 62)
  else if a = zilReg 0x40 then some b.strapStat
  else if a = pwrReg 0x10 then some (setFld (b.reg a) 31 0 b.throttleMs).toNat
  else if a = pwrReg 0x28 then some (b.power.meter / 10)
  else if a = pwrReg 0x30 then some (b.power.idle / 1000000)
  else if pwrReg 0x100 ≤ a ∧ a < pwrReg 0x300 ∧ a % 0x20 < 0x18 then some (b.jobEnergy ((a - pwrReg 0x100) / 0x20) (a % 0x20 / 8))
  else if mxReg 0 0 ≤ a ∧ a < mxReg 80 0 ∧ a % 0x1000 = 0 then some (b.mxCoreStat ((a - mxReg 0 0) / 0x1000))
  else if vxReg 0 0 ≤ a ∧ a < vxReg 80 0 ∧ a % 0x1000 = 0 then some (b.vxCoreStat ((a - vxReg 0 0) / 0x1000))
  else if 0x62000000 ≤ a ∧ a < 0x64800000 then some (b.debugWindow a)
  else none

/-- What a register's stored value reads as: write-only bits read zero, and an address with no register reads zero (R6, R402). -/
def Block.readStored (b : Block) (a : Nat) : Word :=
  match regRow a with
  | some r => b.reg a &&& ~~~ (word r.wo)
  | none => 0

/-- The address of a register: a multiple of 8, of 4 for a shape register, any byte of EF_ROUTE. -/
def regAligned (a : Nat) : Bool :=
  let o := (a - 0x40000000) % 0x2000000
  a % 8 = 0 || (decide (0x40000000 ≤ a) && decide (a < 0x44000000) &&
    ((a % 4 = 0 && decide (0x140000 ≤ o) && decide (o < 0x180000)) || (decide (0x1C98000 ≤ o) && decide (o < 0x1C9C000))))

/-- A read of a control address (R6, R402). -/
def Block.readReg (b : Block) (a : Nat) : Word :=
  let v := if ¬ regAligned a then none
    else if 0x40000000 ≤ a ∧ a < 0x44000000 then b.halfView (halfOf ((a - 0x40000000) / 0x2000000)) ((a - 0x40000000) % 0x2000000)
    else b.moduleView a
  match v with
  | some x => word x
  | none => b.readStored a

/-- READ (R447): registers and sensors, eight bytes for each address, in order (log entry 17). -/
def execRead (m : Envelope) (addrs : List Nat) (s : State) : Host.Outcome State Fault Refusal :=
  s.act (fun b0 => b0.command m [1, 2, 3] 1 (fun _ b =>
    { block := b, status := stOk, data := (addrs.map (fun a => leBytes 8 (b.readReg a).toNat)).flatten }))

end Sys2Proof.Machine
end

