-- ==== Sys2Proof/Machine/RegWrite.lean ====
section
/-! DEFINITION. A write of a register (spec/00_scope.md R5-R7; spec/15_host_link_start_and_slack.md R402; spec/17_zilsy_management_and_roles.md
R443, R447): the writer's right, the value's range, the access codes, and the registers whose writes act. -/

namespace Sys2Proof.Machine

/-- A write that is ignored and logged (R6, R54, R447). The record carries ST_PERMISSION where the rule says so, and for a signed command, which
answers it. -/
def Block.ignoreWrite (b : Block) (a : Actor) (addr : Nat) (v : Word) (perm : Bool) : Answer :=
  let h := if 0x40000000 ≤ addr ∧ addr < 0x44000000 then halfOf ((addr - 0x40000000) / 0x2000000) else .a
  { block := b.logRefused h addr v.toNat (if perm || !a.viaPcie then stPermission else 0), status := stPermission }

/-! ## What an address names -/

/-- The half of a control address of a half. -/
def addrHalf (a : Nat) : HalfId := halfOf ((a - 0x40000000) / 0x2000000)

/-- The offset of a control address from B_h; none outside the halves' space. -/
def addrOff (a : Nat) : Option Nat := if 0x40000000 ≤ a ∧ a < 0x44000000 then some ((a - 0x40000000) % 0x2000000) else none

/-- Whether a control address lies from offset `lo` up to `hi` of a half. -/
def offIn (a lo hi : Nat) : Bool :=
  match addrOff a with
  | some o => decide (lo ≤ o) && decide (o < hi)
  | none => false

/-- The offset of an address of a half within a block of registers. -/
def offFrom (a lo : Nat) : Nat := (a - 0x40000000) % 0x2000000 - lo

/-- The job slot whose registers are written while it is Disabled alone: COL_POLICY (R75), COL_EXP_TABLE (R128), KV_POOL and KV_SEQ (R169),
TIER_QUOTA (R232), COL_RANKS and COL_PLANS (R343), GATE_JOB_CFG and GATE_LSCALE (R398). -/
def slotOnly (a : Nat) : Option Nat :=
  if offIn a 0x1800000 0x1900000 then some (offFrom a 0x1800000 / 0x10000)
  else if offIn a 0x1C10000 0x1C10100 then some (offFrom a 0x1C10000 / 16)
  else if offIn a 0x1C20000 0x1C20100 then some (offFrom a 0x1C20000 / 16)
  else if offIn a 0x1C40080 0x1C40100 then some (offFrom a 0x1C40080 / 8)
  else if offIn a 0x1CB0000 0x1CB0100 then some (offFrom a 0x1CB0000 / 16)
  else if offIn a 0x1CC0080 0x1CC0100 then some (offFrom a 0x1CC0080 / 8)
  else if offIn a 0x1CC0100 0x1CC0200 then some (offFrom a 0x1CC0100 / 16)
  else none

/-- Whether an address is a traffic generator's TG_CTRL. -/
def isTest (a : Nat) : Bool := offIn a 0x1D00000 0x1D0A000 && offFrom a 0x1D00000 % 0x100 = 0

/-- Whether an address is an MX_DBG_CTRL. -/
def isDebug (a : Nat) : Bool := decide (mxReg 0 0 ≤ a) && decide (a < mxReg 80 0) && a % 0x1000 = 0x18

/-- Whether an address is a TIER_ACCT. -/
def isAcct (a : Nat) : Bool := offIn a 0x1C40000 0x1C40008

/-- The roles that hold a register's write right (R7, R207, R443). No rule names the right of an address that holds no register, or one that
is read-only: the write does nothing. -/
def Block.writeRoles (b : Block) (a : Nat) (v : Word) : List Nat :=
  if isDebug a then [3]
  else if isTest a then b.testRoles (addrHalf a) (offFrom a 0x1D00000 / 0x100) (fld v 2 1)
  else if isAcct a then [1, 2, 3]
  else match regRow a with
    | none => [1, 2, 3]
    | some r => if r.rwi ≠ 0 then [2] else if r.rw = 0 ∧ r.w1c = 0 ∧ r.wo = 0 then [1, 2, 3] else [1, 2]

/-! ## The access codes (R5, R6) -/

/-- A value applied by the access codes: RW and RWI bits take it, RW1C bits clear where it is 1, reserved bits stay. -/
def applyCodes (r : RegRow) (old v : Word) : Word :=
  let m := word (r.rw ||| r.rwi)
  ((old &&& ~~~ m) ||| (v &&& m)) &&& ~~~ (v &&& word r.w1c)

/-- Whether every field of a value is within its range. -/
def inRanges (r : RegRow) (v : Word) : Bool := r.ranges.all (fun x => decide (x.2.2.1 ≤ fld v x.1 x.2.1) && decide (fld v x.1 x.2.1 ≤ x.2.2.2))

/-- What a COL_POLICY entry, a COL_PLANS register or PCI_BAR2_BASE makes of a value besides (R76, R367, R420): the value to apply, or none for
one that is out of range. -/
def Block.fitValue (b : Block) (a : Nat) (v : Word) : Option Word :=
  if offIn a 0x1800000 0x1900000 ∧ a % 16 = 8 ∧ fld v 1 0 = 3 then some (setFld v 1 0 (b.regFld a 1 0))
  else if offIn a 0x1CB0000 0x1CB0100 ∧ a % 16 = 8 ∧ 4095 < fld v 63 50 then none
  else if a = pciReg 0x20 ∧ fld v 47 30 * 2 ^ 30 % 2 ^ b.sys.bar2Log2 ≠ 0 then none
  else some v

/-- A job's seed is one value for the slot: the copies on both halves take a write (R40, R54; DEDUCED, log entry 55). -/
def seedTwin (a : Nat) : Option Nat :=
  if offIn a 0x100600 0x100680 then some (safReg (otherHalf (addrHalf a)) (offFrom a 0x100000)) else none

/-- A value stored by a register's access codes; a change of an RWI field is audited (R441 KIND 0x01). -/
def Block.storeReg (b : Block) (a : Actor) (r : RegRow) (addr : Nat) (v : Word) : Answer :=
  match (if inRanges r v then b.fitValue addr v else none) with
  | none => b.ignoreWrite a addr v false
  | some w =>
    let put (b : Block) : Block := b.modReg addr (fun old => applyCodes r old w)
    if r.rwi ≠ 0 then b.auditedAnswer a { kind := 0x01, target := addr, old := (b.reg addr).toNat, new := v.toNat } put
    else match seedTwin addr with
      | some t => ((put b).setReg t w).accept
      | none => (put b).accept

/-! ## Registers whose writes act -/

/-- The function that a SAF_FUNC_CMD word names; none for one that does not exist (R54, R255, R280). -/
def funcOf (v : Nat) : Option FuncId :=
  let i := bits v 15 4
  match bits v 3 0 with
  | 0 => if h : i < 80 then some (.core ⟨i, h⟩) else none
  | 1 => if h : i % 32 < 27 ∧ i < 64 then some (.harbour ⟨27 * (i / 32) + i % 32, by omega⟩) else none
  | 2 => if h : i < 18 then some (.port ⟨i, h⟩) else none
  | 3 => if h : i < 16 then some (.slot ⟨i, h⟩) else none
  | _ => none

/-- A write of SAF_FUNC_CMD (R50, R51, R54). -/
def Block.funcCommand (b : Block) (a : Actor) (addr : Nat) (v : Word) : Answer :=
  match funcOf v.toNat with
  | none => b.ignoreWrite a addr v false
  | some f => if v.getLsbD 16 then b.disableFunc a f else b.enableFunc a f addr

/-- A write of SAF_JOB_SLOT_CTRL_k (R41). Its translation tables come with JOB_SLOT_BIND alone (log entry 18). -/
def Block.slotCommand (b : Block) (k : Nat) (v : Word) : Answer :=
  if v.getLsbD 12 then b.bindWrite k (fld v 11 0) []
  else match (if h : k < 16 then some (FuncId.slot ⟨k, h⟩) else none) with
    | some f => (b.startDrain f).accept
    | none => b.accept

/-- A write of MX_DBG_CTRL (R110, R111): RESUME is taken before HALT (log entry 55). One that names neither changes nothing and is not audited. -/
def Block.debugCommand (b : Block) (a : Actor) (n : Nat) (v : Word) : Answer :=
  let resume (b : Block) : Block := if v.getLsbD 1 then b.unhalt n else b
  let halt (b : Block) : Block := if v.getLsbD 0 then b.requestHalt n else b
  if b.image.diagAccess ∧ fld v 1 0 = 0 then b.accept else b.debugAnswer a n (fun b => halt (resume b))

/-- A write of PCI_SLACK (R415, R417): WAKE is taken before ENTER (log entry 55). -/
def Block.slackCommand (b : Block) (a : Actor) (v : Word) : Answer :=
  if v.getLsbD 1 then b.wake a else if v.getLsbD 0 then b.enterSlack a else b.accept

/-- A write of an MSI-X entry's second word (R408, R419): a vector unmasked sends what was pending, and RESUME is reported again when it is
the events' vector. -/
def Block.maskWrite (b : Block) (vec : Nat) (r : RegRow) (v : Word) : Block :=
  let addr := pciReg (0x2008 + 16 * vec)
  let was := bit (b.reg addr).toNat 32
  let b1 := b.modReg addr (fun old => applyCodes r old v)
  if was ∧ ¬ bit v.toNat 32 then
    let pend := pciReg (0x3000 + 8 * (vec / 64))
    let b2 := if bit (b1.reg pend).toNat (vec % 64) then
        (b1.modReg pend (fun w => w &&& ~~~ (word (2 ^ (vec % 64))))).raise vec
      else b1
    if b2.regFld (pciReg 0x28) 55 48 = vec then b2.resumeAgain else b2
  else b1

/-- A write of ZIL_MBOX_CTRL (R455): GO is ignored while the mailbox is busy, and while Zilsy does not answer (R435). -/
def Block.mailboxGo (b : Block) (a : Actor) (v : Word) : Answer :=
  if ¬ v.getLsbD 0 ∨ ¬ b.zilsy.up ∨ b.regFld (zilReg 0x28) 63 62 = 1 then b.accept
  else if fld v 16 1 < 64 ∨ 16384 < fld v 16 1 then b.ignoreWrite a (zilReg 0x20) v false
  else (b.setReg (zilReg 0x28) (word (2 ^ 62))).accept

/-- A write of a queue pair's registers (R404, R421): bases are ignored and logged while the pair is enabled. -/
def Block.pairCommand (b : Block) (a : Actor) (q off : Nat) (r : RegRow) (v : Word) : Answer :=
  if off = 0x10 then (b.pairWrite q v).accept
  else if (b.pair q).enabled then b.ignoreWrite a (pairReg q off) v false
  else (b.modReg (pairReg q off) (fun old => applyCodes r old v)).accept

/-- A write of a register of a half whose writes act; none for a register that a write changes alone. -/
def Block.halfCommand (b : Block) (a : Actor) (addr : Nat) (v : Word) : Option Answer :=
  let h := addrHalf addr
  if offIn addr 0x100028 0x100030 then some (b.funcCommand a addr v)
  else if offIn addr 0x100030 0x100038 then some (b.clearStalls h v).accept
  else if offIn addr 0x100040 0x100240 then some (b.writeQueueHead (offFrom addr 0x100040 / 8) (fld v 19 0) addr).accept
  else if offIn addr 0x100400 0x100500 ∧ addr % 16 = 0 then some (b.slotCommand (offFrom addr 0x100400 / 16) v)
  else if offIn addr 0x108000 0x110000 then some (b.writeGraphHead h (offFrom addr 0x108000 / 8) v.toNat).accept
  else if offIn addr 0x1C20100 0x1C20108 then some (b.invalidateKv h (fld v 3 0)).accept
  else if isAcct addr then some (b.ignoreWrite a addr v true)
  else if offIn addr 0x1C40040 0x1C40048 then some (b.writeLend a h (fld v 8 0))
  else if offIn addr 0x1C40048 0x1C40050 then some (if v.getLsbD 0 then (b.revoke h).accept else b.accept)
  else if offIn addr 0x1C40218 0x1C40220 then some (if v.getLsbD 12 then b.mainGo h (fld v 11 0) (v.getLsbD 13) else b.accept)
  else if isTest addr then some (if v.getLsbD 0 then b.testGo h (offFrom addr 0x1D00000 / 0x100) (fld v 2 1) else b.accept)
  else none

/-- The same for a register of a core or of the module. -/
def Block.moduleCommand (b : Block) (a : Actor) (addr : Nat) (r : RegRow) (v : Word) : Option Answer :=
  if isDebug addr then some (b.debugCommand a ((addr - mxReg 0 0) / 0x1000) v)
  else if addr = pciReg 0x30 then some (b.slackCommand a v)
  else if pairReg 0 0 ≤ addr ∧ addr < pairReg 64 0 ∧ addr % 0x40 ≠ 0x18 then
    some (b.pairCommand a ((addr - pairReg 0 0) / 0x40) (addr % 0x40) r v)
  else if pciReg 0x2000 ≤ addr ∧ addr < pciReg 0x3000 ∧ addr % 16 = 8 then some (b.maskWrite ((addr - pciReg 0x2000) / 16) r v).accept
  else if doorbell 0 0 ≤ addr ∧ addr < doorbell 64 0 then
    some (if addr % 0x1000 = 0 then (b.writeTail ((addr - doorbell 0 0) / 0x1000) (fld v 15 0)).accept
      else (b.writeQueueHead ((addr - doorbell 0 0) / 0x1000) (fld v 19 0) addr).accept)
  else if addr = zilReg 0x20 then some (b.mailboxGo a v)
  else if addr = pwrReg 0 then some (b.writeCap a (fld v 10 0))
  else none

/-- A write of a shape register (R42, R54): 32 bits, for the tasks that fire after it. -/
def Block.shapeWrite (b : Block) (addr : Nat) (v : Word) : Answer :=
  let o := offFrom addr 0x140000
  (b.setShape (addrHalf addr) (o / 0x4000) (o % 0x4000 / 4) (fld v 31 0)).accept

/-- A write of a register, by its access code and the writer's right (R5-R7, R402): a write of a read-only register or of an address that
holds none does nothing. -/
def Block.writeReg (b : Block) (a : Actor) (addr : Nat) (v : Word) : Answer :=
  let roles := b.writeRoles addr v
  let isShape := offIn addr 0x140000 0x180000 && addr % 4 = 0
  if isShape then (if a.role = 3 then b.refuseRole 1 a.keyId else b.shapeWrite addr v)
  else if ¬ (b.sys.powerGood ∨ cfgReg 0 ≤ addr) then b.accept
  else if ¬ roles.contains a.role then b.refuseRole (neededRole roles) a.keyId
  else match regRow addr with
    | none => b.accept
    | some r =>
      if ((slotOnly addr).map (fun k => decide ((b.slot k).st ≠ 0))).getD false ∧ (r.rw ≠ 0) then b.ignoreWrite a addr v true
      else match (if (addrOff addr).isSome then b.halfCommand a addr v else b.moduleCommand a addr r v) with
        | some x => x
        | none => if r.rw = 0 ∧ r.w1c = 0 ∧ r.rwi = 0 then b.accept else b.storeReg a r addr v

/-! ## The commands -/

/-- Whether BAR0 reaches a control address: the PCI_ block, or the register window (R401, R402). -/
def Block.windowReaches (b : Block) (addr : Nat) : Bool :=
  let base := 0x40000000 + b.regFld (pciReg 0x18) 9 0 * 0x100000
  (decide (pciReg 0 ≤ addr) && decide (addr < pciReg 0x50000)) || (decide (base ≤ addr) && decide (addr < base + 0xF00000))

/-- REGISTER_WRITE (R6, R7, R42, R402): by BAR0 and its window, or by Zilsy. -/
def execRegisterWrite (p : Path) (addr : Nat) (value : Word) (s : State) : Host.Outcome State Fault Refusal :=
  s.act (fun b0 =>
    match p with
    | .host => if b0.windowReaches addr then b0.byPath p [1] 1 (fun a b => b.writeReg a addr value) else b0
    | .zilsy m => b0.command m [1, 2, 3] 1 (fun a b => b.writeReg a addr value))

/-- WRITE (R447 0x0003): one register, by its access code. -/
def execWrite (m : Envelope) (addr : Nat) (value : Word) (s : State) : Host.Outcome State Fault Refusal :=
  s.act (fun b0 => b0.command m [1, 2, 3] 1 (fun a b => b.writeReg a addr value))

end Sys2Proof.Machine
end

