-- ==== Sys2Proof/Machine/Attest.lean ====
section
/-! DEFINITION. Attestation, and the lockstep reset of Zilsy (spec/17_zilsy_management_and_roles.md R434, R435, R452-R454). -/

namespace Sys2Proof.Machine

/-! ## Attestation (R453) -/

/-- The Efing ports that a test holds for, by module port. -/
def Block.portBits (b : Block) (f : Port → Bool) : Nat :=
  ((List.range 18).map (fun i => b2n (f (b.port (halfOf (i / 9)) (i % 9))) * 2 ^ i)).sum

/-- The 320 bytes of an attestation report. The hashes of the rank and plan tables are half A's (R491; log entry 56). -/
def Block.attestReport (b : Block) (verifier : Nat) : List Byte :=
  leBytes 4 0x5A494C41 ++ leBytes 4 1 ++ leBytes 32 verifier ++ leBytes 16 b.image.serial ++
  leBytes 8 (if b.locked .a then b.tide .a else b.sys.upNs / 1000000) ++
  leBytes 2 ((b.runningFirmware.map (fun x => x.svn)).getD 0) ++ leBytes 2 b.flash.floor ++ leBytes 4 (b.regFld (cfgReg 0) 63 32) ++
  sha384 ((b.runningFirmware.map (fun x => x.image)).getD []) ++
  leBytes 8 (((b.flash.slot b.zilsy.currentB).map (fun x => x.crc)).getD 0) ++ leBytes 8 (b.reg (cfgReg 8)).toNat ++
  leBytes 16 (if b.sys.ready then b.coreMask .a + b.coreMask .b * 2 ^ 40 else 0) ++
  leBytes 8 (b.regFld (bayReg .a 0) 63 32 + b.regFld (bayReg .b 0) 63 32 * 2 ^ 32) ++
  leBytes 8 (b.portBits (fun l => l.st = 2) + b.portBits (fun l => l.st = 5 && l.cause ≠ 0) * 2 ^ 32) ++
  (List.range 16).flatMap (fun k => leBytes 8 (if (b.slot k).st = 0 then 0 else (b.reg (colReg .a (0x100 + 8 * k))).toNat)) ++
  leBytes 24 0

/-- ATTEST (R447, R453): the report, the device certificate of 5,373 bytes, and the identity keys' signatures of 64 and 3,309 bytes. -/
def execAttest (m : Envelope) (verifier : Nat) (s : State) : Host.Outcome State Fault Refusal :=
  s.act (fun b0 => b0.command m [1, 2, 3] 1 (fun _ b =>
    let r := b.attestReport verifier
    { block := b, status := stOk,
      data := r ++ b.flash.certificate ++
        (List.range 3373).map (fun i => BitVec.ofNat 8 (Config.attestSignatureByte r i)) }))

/-! ## The lockstep reset (R434, R435, R454) -/

/-- What the module gives up of the domain: its journal replica, and the lease if it holds it (R435, R386, R333). -/
def Block.leaveDomain (b : Block) : Block :=
  let b1 := b.modDomain (fun d => { d with journal := [], held := [], owed := [], acks := [], unacted := [] })
  if b1.domain.holder then b1.dropLease else b1

/-- What Zilsy's reset loses: nonces, an open staging and queued writes; a running configuration write is abandoned and logged, at a step
that no rule gives, and a mailbox message under way is never answered: the mailbox is idle again (log entry 56). -/
def Block.resetZilsy (b : Block) : Block :=
  let b0 := if b.regFld (zilReg 0x28) 63 62 = 1 then b.setReg (zilReg 0x28) 0 else b
  let b1 := b0.setZilsy { b0.zilsy with up := false, resets := min (b.zilsy.resets + 1) 255, nonces := [], staging := none, configQueue := [] }
  if b1.zilsy.configWrite.isSome then (let x := b1.fresh; x.2.abandonWrite x.1) else b1

/-- LOCKSTEP_MISMATCH (R434, R435, R454): Zilsy alone resets, and the halves run on. -/
def execLockstepMismatch (s : State) : Host.Outcome State Fault Refusal :=
  s.act (fun b =>
    if ¬ b.zilsy.up then b
    else
      let b1 := b.resetZilsy.leaveDomain
      (if b.regFld (tideReg .a 8) 51 50 = 2 then b1.loseReference .a else b1) |> fun x =>
        if b.regFld (tideReg .b 8) 51 50 = 2 then x.loseReference .b else x)

end Sys2Proof.Machine
end

