-- ==== Sys2Proof/Machine/Dispatch.lean ====
section
/-! DEFINITION. The dispatch of a command to its meaning: one arm per constructor. -/

namespace Sys2Proof.Machine

def exec (i : Instr) (s : State) : Host.Outcome State Fault Refusal :=
  match i with
  | .vinApplied => Sys2Proof.Machine.execVinApplied s
  | .powerGood s0 s1 s2 => Sys2Proof.Machine.execPowerGood s0 s1 s2 s
  | .vinLoss => Sys2Proof.Machine.execVinLoss s
  | .zilsyBoot => Sys2Proof.Machine.execZilsyBoot s
  | .imageSelect => Sys2Proof.Machine.execImageSelect s
  | .bayTrainingDone r => Sys2Proof.Machine.execBayTrainingDone r s
  | .shelfTrainingDone r => Sys2Proof.Machine.execShelfTrainingDone r s
  | .isthmusTrainingDone faults => Sys2Proof.Machine.execIsthmusTrainingDone faults s
  | .selfTestDone failing => Sys2Proof.Machine.execSelfTestDone failing s
  | .ready => Sys2Proof.Machine.execReady s
  | .configRequest dword value => Sys2Proof.Machine.execConfigRequest dword value s
  | .pcieLinkUp rate width partnerFlit => Sys2Proof.Machine.execPcieLinkUp rate width partnerFlit s
  | .perst => Sys2Proof.Machine.execPerst s
  | .hotReset => Sys2Proof.Machine.execHotReset s
  | .linkDown => Sys2Proof.Machine.execLinkDown s
  | .flr => Sys2Proof.Machine.execFlr s
  | .bar2Read offset len => Sys2Proof.Machine.execBar2Read offset len s
  | .bar2Write offset data poisoned => Sys2Proof.Machine.execBar2Write offset data poisoned s
  | .registerWrite p addr value => Sys2Proof.Machine.execRegisterWrite p addr value s
  | .queuePairCreate q value => Sys2Proof.Machine.execQueuePairCreate q value s
  | .queuePairDestroy q => Sys2Proof.Machine.execQueuePairDestroy q s
  | .sqDoorbell q tail hostWrote => Sys2Proof.Machine.execSqDoorbell q tail hostWrote s
  | .sqFetch q => Sys2Proof.Machine.execSqFetch q s
  | .submitGraph q => Sys2Proof.Machine.execSubmitGraph q s
  | .noOp q => Sys2Proof.Machine.execNoOp q s
  | .cqHeadWrite q head => Sys2Proof.Machine.execCqHeadWrite q head s
  | .graphHeadWrite h g head => Sys2Proof.Machine.execGraphHeadWrite h g head s
  | .coalesceTimer q => Sys2Proof.Machine.execCoalesceTimer q s
  | .graphSubmit h p => Sys2Proof.Machine.execGraphSubmit h p s
  | .graphAdmit h src gid => Sys2Proof.Machine.execGraphAdmit h src gid s
  | .token t => Sys2Proof.Machine.execToken t s
  | .cancellation t origin => Sys2Proof.Machine.execCancellation t origin s
  | .fnbTideReached t => Sys2Proof.Machine.execFnbTideReached t s
  | .ageLimitExpiry t => Sys2Proof.Machine.execAgeLimitExpiry t s
  | .taskFire t cores upset => Sys2Proof.Machine.execTaskFire t cores upset s
  | .taskEnd t stalls => Sys2Proof.Machine.execTaskEnd t stalls s
  | .recordWrite t => Sys2Proof.Machine.execRecordWrite t s
  | .tagGrant h dest => Sys2Proof.Machine.execTagGrant h dest s
  | .homeRequest h r => Sys2Proof.Machine.execHomeRequest h r s
  | .memoryAdd h r => Sys2Proof.Machine.execMemoryAdd h r s
  | .requestResponse h tag status data => Sys2Proof.Machine.execRequestResponse h tag status data s
  | .farDeadlineExpiry h tag => Sys2Proof.Machine.execFarDeadlineExpiry h tag s
  | .jobSlotBind p k job tables => Sys2Proof.Machine.execJobSlotBind p k job tables s
  | .jobSlotDisable p k => Sys2Proof.Machine.execJobSlotDisable p k s
  | .funcDisable p f => Sys2Proof.Machine.execFuncDisable p f s
  | .funcEnable p f => Sys2Proof.Machine.execFuncEnable p f s
  | .drainDeadline f => Sys2Proof.Machine.execDrainDeadline f s
  | .drainComplete f => Sys2Proof.Machine.execDrainComplete f s
  | .stallClear p h value => Sys2Proof.Machine.execStallClear p h value s
  | .dbgHalt p core => Sys2Proof.Machine.execDbgHalt p core s
  | .dbgHaltReached core at_ => Sys2Proof.Machine.execDbgHaltReached core at_ s
  | .dbgResume p core => Sys2Proof.Machine.execDbgResume p core s
  | .matrix t parity => Sys2Proof.Machine.execMatrix t parity s
  | .vectorProgram t => Sys2Proof.Machine.execVectorProgram t s
  | .ld core f => Sys2Proof.Machine.execLd core f s
  | .st core f => Sys2Proof.Machine.execSt core f s
  | .ldi core f => Sys2Proof.Machine.execLdi core f s
  | .iota core f => Sys2Proof.Machine.execIota core f s
  | .add core f => Sys2Proof.Machine.execAdd core f s
  | .sub core f => Sys2Proof.Machine.execSub core f s
  | .mul core f => Sys2Proof.Machine.execMul core f s
  | .fma core f => Sys2Proof.Machine.execFma core f s
  | .max core f => Sys2Proof.Machine.execMax core f s
  | .min core f => Sys2Proof.Machine.execMin core f s
  | .abs core f => Sys2Proof.Machine.execAbs core f s
  | .neg core f => Sys2Proof.Machine.execNeg core f s
  | .div core f => Sys2Proof.Machine.execDiv core f s
  | .sqrt core f => Sys2Proof.Machine.execSqrt core f s
  | .cmp core f => Sys2Proof.Machine.execCmp core f s
  | .sel core f => Sys2Proof.Machine.execSel core f s
  | .exp2 core f => Sys2Proof.Machine.execExp2 core f s
  | .log2 core f => Sys2Proof.Machine.execLog2 core f s
  | .rcp core f => Sys2Proof.Machine.execRcp core f s
  | .rsqrt core f => Sys2Proof.Machine.execRsqrt core f s
  | .tanh core f => Sys2Proof.Machine.execTanh core f s
  | .iadd core f => Sys2Proof.Machine.execIadd core f s
  | .isub core f => Sys2Proof.Machine.execIsub core f s
  | .imul core f => Sys2Proof.Machine.execImul core f s
  | .imax core f => Sys2Proof.Machine.execImax core f s
  | .imin core f => Sys2Proof.Machine.execImin core f s
  | .shl core f => Sys2Proof.Machine.execShl core f s
  | .shr core f => Sys2Proof.Machine.execShr core f s
  | .sra core f => Sys2Proof.Machine.execSra core f s
  | .and core f => Sys2Proof.Machine.execAnd core f s
  | .or core f => Sys2Proof.Machine.execOr core f s
  | .xor core f => Sys2Proof.Machine.execXor core f s
  | .not core f => Sys2Proof.Machine.execNot core f s
  | .icmp core f => Sys2Proof.Machine.execIcmp core f s
  | .cvt core f => Sys2Proof.Machine.execCvt core f s
  | .rsum core f => Sys2Proof.Machine.execRsum core f s
  | .rmax core f => Sys2Proof.Machine.execRmax core f s
  | .rmin core f => Sys2Proof.Machine.execRmin core f s
  | .rmean core f => Sys2Proof.Machine.execRmean core f s
  | .gap core f => Sys2Proof.Machine.execGap core f s
  | .route t => Sys2Proof.Machine.execRoute t s
  | .combine t => Sys2Proof.Machine.execCombine t s
  | .kvWrite t => Sys2Proof.Machine.execKvWrite t s
  | .attnForward t parity => Sys2Proof.Machine.execAttnForward t parity s
  | .attnForwardPartial t parity => Sys2Proof.Machine.execAttnForwardPartial t parity s
  | .attnCombine t => Sys2Proof.Machine.execAttnCombine t s
  | .attnBackwardDkDv t parity => Sys2Proof.Machine.execAttnBackwardDkDv t parity s
  | .attnBackwardDq t parity => Sys2Proof.Machine.execAttnBackwardDq t parity s
  | .kvInval p h k => Sys2Proof.Machine.execKvInval p h k s
  | .convForward t parity => Sys2Proof.Machine.execConvForward t parity s
  | .convBackwardData t parity => Sys2Proof.Machine.execConvBackwardData t parity s
  | .convBackwardFilter t parity => Sys2Proof.Machine.execConvBackwardFilter t parity s
  | .boxDecode t => Sys2Proof.Machine.execBoxDecode t s
  | .nms t => Sys2Proof.Machine.execNms t s
  | .rowsReady t rows => Sys2Proof.Machine.execRowsReady t rows s
  | .gather t => Sys2Proof.Machine.execGather t s
  | .scatter t => Sys2Proof.Machine.execScatter t s
  | .scatterAdd t => Sys2Proof.Machine.execScatterAdd t s
  | .scatterMax t => Sys2Proof.Machine.execScatterMax t s
  | .scatterMin t => Sys2Proof.Machine.execScatterMin t s
  | .copy t => Sys2Proof.Machine.execCopy t s
  | .map t => Sys2Proof.Machine.execMap t s
  | .unmap t => Sys2Proof.Machine.execUnmap t s
  | .fill t => Sys2Proof.Machine.execFill t s
  | .drop t => Sys2Proof.Machine.execDrop t s
  | .query t => Sys2Proof.Machine.execQuery t s
  | .setPin t => Sys2Proof.Machine.execSetPin t s
  | .publish t => Sys2Proof.Machine.execPublish t s
  | .retire t => Sys2Proof.Machine.execRetire t s
  | .pendingReap h job object version => Sys2Proof.Machine.execPendingReap h job object version s
  | .mainRegister p h job hostWrote => Sys2Proof.Machine.execMainRegister p h job hostWrote s
  | .mainRetire p h job => Sys2Proof.Machine.execMainRetire p h job s
  | .lendRevoke p h => Sys2Proof.Machine.execLendRevoke p h s
  | .lendEnClear p h gib => Sys2Proof.Machine.execLendEnClear p h gib s
  | .revocationEnd h => Sys2Proof.Machine.execRevocationEnd h s
  | .revocationDone h => Sys2Proof.Machine.execRevocationDone h s
  | .refreshDue h chan bank => Sys2Proof.Machine.execRefreshDue h chan bank s
  | .refreshBandRelax h => Sys2Proof.Machine.execRefreshBandRelax h s
  | .scrubRead h upsets => Sys2Proof.Machine.execScrubRead h upsets s
  | .tgWriteRead p h ch => Sys2Proof.Machine.execTgWriteRead p h ch s
  | .tgReadSweep p h ch => Sys2Proof.Machine.execTgReadSweep p h ch s
  | .tgStop p h ch => Sys2Proof.Machine.execTgStop p h ch s
  | .tgDone h ch r => Sys2Proof.Machine.execTgDone h ch r s
  | .contextOpen t => Sys2Proof.Machine.execContextOpen t s
  | .contextClose t => Sys2Proof.Machine.execContextClose t s
  | .decode t => Sys2Proof.Machine.execDecode t s
  | .encode t => Sys2Proof.Machine.execEncode t s
  | .frameWatchdog t picture rowsWritten => Sys2Proof.Machine.execFrameWatchdog t picture rowsWritten s
  | .imageDecode t => Sys2Proof.Machine.execImageDecode t s
  | .audioDecode t => Sys2Proof.Machine.execAudioDecode t s
  | .tokeniseAndPack t => Sys2Proof.Machine.execTokeniseAndPack t s
  | .tableLoad t => Sys2Proof.Machine.execTableLoad t s
  | .cropAndResize t => Sys2Proof.Machine.execCropAndResize t s
  | .batchAssemble t => Sys2Proof.Machine.execBatchAssemble t s
  | .sampleDone t => Sys2Proof.Machine.execSampleDone t s
  | .resize t => Sys2Proof.Machine.execResize t s
  | .flip t => Sys2Proof.Machine.execFlip t s
  | .jitter t => Sys2Proof.Machine.execJitter t s
  | .norm t => Sys2Proof.Machine.execNorm t s
  | .gain t => Sys2Proof.Machine.execGain t s
  | .fmask t => Sys2Proof.Machine.execFmask t s
  | .tmask t => Sys2Proof.Machine.execTmask t s
  | .hostSignal t => Sys2Proof.Machine.execHostSignal t s
  | .subGraphLaunch t => Sys2Proof.Machine.execSubGraphLaunch t s
  | .subGraphDone t => Sys2Proof.Machine.execSubGraphDone t s
  | .tideWait t => Sys2Proof.Machine.execTideWait t s
  | .powerHint t => Sys2Proof.Machine.execPowerHint t s
  | .hintWindowOpen => Sys2Proof.Machine.execHintWindowOpen s
  | .updateGateCheck t => Sys2Proof.Machine.execUpdateGateCheck t s
  | .updateGateCheckpoint t => Sys2Proof.Machine.execUpdateGateCheckpoint t s
  | .allReduce t => Sys2Proof.Machine.execAllReduce t s
  | .reduceScatter t => Sys2Proof.Machine.execReduceScatter t s
  | .allGather t => Sys2Proof.Machine.execAllGather t s
  | .expertDispatch t => Sys2Proof.Machine.execExpertDispatch t s
  | .expertReceive t => Sys2Proof.Machine.execExpertReceive t s
  | .expertReturn t => Sys2Proof.Machine.execExpertReturn t s
  | .expertReturnReceive t => Sys2Proof.Machine.execExpertReturnReceive t s
  | .sendToPeer t => Sys2Proof.Machine.execSendToPeer t s
  | .receiveFromPeer t => Sys2Proof.Machine.execReceiveFromPeer t s
  | .verdictReduction t => Sys2Proof.Machine.execVerdictReduction t s
  | .ebb h p => Sys2Proof.Machine.execEbb h p s
  | .flood h p => Sys2Proof.Machine.execFlood h p s
  | .stepRepeatReadmit h k => Sys2Proof.Machine.execStepRepeatReadmit h k s
  | .collReady h p => Sys2Proof.Machine.execCollReady h p s
  | .credit h p => Sys2Proof.Machine.execCredit h p s
  | .collEnd h p => Sys2Proof.Machine.execCollEnd h p s
  | .lateNotice h p => Sys2Proof.Machine.execLateNotice h p s
  | .sendBlock h p => Sys2Proof.Machine.execSendBlock h p s
  | .collectiveDeadline t => Sys2Proof.Machine.execCollectiveDeadline t s
  | .lateWaitExpiry t => Sys2Proof.Machine.execLateWaitExpiry t s
  | .lenientWaitExpiry t => Sys2Proof.Machine.execLenientWaitExpiry t s
  | .resolveExpiry t => Sys2Proof.Machine.execResolveExpiry t s
  | .tokenRow h p => Sys2Proof.Machine.execTokenRow h p s
  | .endRecord h p => Sys2Proof.Machine.execEndRecord h p s
  | .travelReady h p => Sys2Proof.Machine.execTravelReady h p s
  | .readRequest h p => Sys2Proof.Machine.execReadRequest h p s
  | .writeRequest h p => Sys2Proof.Machine.execWriteRequest h p s
  | .adderRequest h p => Sys2Proof.Machine.execAdderRequest h p s
  | .farRead h p => Sys2Proof.Machine.execFarRead h p s
  | .farReserve h p => Sys2Proof.Machine.execFarReserve h p s
  | .farWrite h p => Sys2Proof.Machine.execFarWrite h p s
  | .farCommit h p => Sys2Proof.Machine.execFarCommit h p s
  | .farAbort h p => Sys2Proof.Machine.execFarAbort h p s
  | .farQuery h p => Sys2Proof.Machine.execFarQuery h p s
  | .farRetire h p => Sys2Proof.Machine.execFarRetire h p s
  | .response h p => Sys2Proof.Machine.execResponse h p s
  | .linkGroup h x g => Sys2Proof.Machine.execLinkGroup h x g s
  | .packetForward h p => Sys2Proof.Machine.execPacketForward h p s
  | .ackTimeout h x => Sys2Proof.Machine.execAckTimeout h x s
  | .nakLimit h port => Sys2Proof.Machine.execNakLimit h port s
  | .laneClockLoss h port lane => Sys2Proof.Machine.execLaneClockLoss h port lane s
  | .portRetrainDone h port passing asym => Sys2Proof.Machine.execPortRetrainDone h port passing asym s
  | .portTrainingDone h port passing asym => Sys2Proof.Machine.execPortTrainingDone h port passing asym s
  | .trainRetry h port => Sys2Proof.Machine.execTrainRetry h port s
  | .hopTimeout h x => Sys2Proof.Machine.execHopTimeout h x s
  | .routeHoldExpiry h dest => Sys2Proof.Machine.execRouteHoldExpiry h dest s
  | .identity h port p => Sys2Proof.Machine.execIdentity h port p s
  | .tideExchange h => Sys2Proof.Machine.execTideExchange h s
  | .sync h x t1 => Sys2Proof.Machine.execSync h x t1 s
  | .echo h x t1 t2 t3 locked depth => Sys2Proof.Machine.execEcho h x t1 t2 t3 locked depth s
  | .parentSwitch h => Sys2Proof.Machine.execParentSwitch h s
  | .holdoverExpiry h => Sys2Proof.Machine.execHoldoverExpiry h s
  | .ppsEdge h => Sys2Proof.Machine.execPpsEdge h s
  | .clk10mLock h => Sys2Proof.Machine.execClk10mLock h s
  | .ptpTime h ns => Sys2Proof.Machine.execPtpTime h ns s
  | .referenceLoss h => Sys2Proof.Machine.execReferenceLoss h s
  | .refEdgeTimeout => Sys2Proof.Machine.execRefEdgeTimeout s
  | .leaseClaim => Sys2Proof.Machine.execLeaseClaim s
  | .lease h p => Sys2Proof.Machine.execLease h p s
  | .leaseRenewal => Sys2Proof.Machine.execLeaseRenewal s
  | .leaseLapse => Sys2Proof.Machine.execLeaseLapse s
  | .readyReport h p => Sys2Proof.Machine.execReadyReport h p s
  | .censusDeadline => Sys2Proof.Machine.execCensusDeadline s
  | .censusResult h p => Sys2Proof.Machine.execCensusResult h p s
  | .revocationNotice h p => Sys2Proof.Machine.execRevocationNotice h p s
  | .heartbeatSend => Sys2Proof.Machine.execHeartbeatSend s
  | .heartbeat h p => Sys2Proof.Machine.execHeartbeat h p s
  | .trayHeartbeat h p => Sys2Proof.Machine.execTrayHeartbeat h p s
  | .heartbeatTimeout tray => Sys2Proof.Machine.execHeartbeatTimeout tray s
  | .journalAppend h p => Sys2Proof.Machine.execJournalAppend h p s
  | .journalAcknowledgement h p => Sys2Proof.Machine.execJournalAcknowledgement h p s
  | .verdictQuery h p => Sys2Proof.Machine.execVerdictQuery h p s
  | .verdictAnswer h p => Sys2Proof.Machine.execVerdictAnswer h p s
  | .recoveryLost h p => Sys2Proof.Machine.execRecoveryLost h p s
  | .recoveryAbort h p => Sys2Proof.Machine.execRecoveryAbort h p s
  | .recoverySubst h p => Sys2Proof.Machine.execRecoverySubst h p s
  | .recoveryResume h p => Sys2Proof.Machine.execRecoveryResume h p s
  | .checkpointReport h p => Sys2Proof.Machine.execCheckpointReport h p s
  | .lateReport h p => Sys2Proof.Machine.execLateReport h p s
  | .revocationReport h p => Sys2Proof.Machine.execRevocationReport h p s
  | .noUpPortTimeout => Sys2Proof.Machine.execNoUpPortTimeout s
  | .slackEnter p => Sys2Proof.Machine.execSlackEnter p s
  | .slackIdleTimer => Sys2Proof.Machine.execSlackIdleTimer s
  | .slackEntryDone => Sys2Proof.Machine.execSlackEntryDone s
  | .slackWake p => Sys2Proof.Machine.execSlackWake p s
  | .wakeReady => Sys2Proof.Machine.execWakeReady s
  | .nonce c value => Sys2Proof.Machine.execNonce c value s
  | .nonceExpiry value => Sys2Proof.Machine.execNonceExpiry value s
  | .read m addrs => Sys2Proof.Machine.execRead m addrs s
  | .write m addr value => Sys2Proof.Machine.execWrite m addr value s
  | .readLog m seq count => Sys2Proof.Machine.execReadLog m seq count s
  | .readAudit m seq count => Sys2Proof.Machine.execReadAudit m seq count s
  | .attest m verifier => Sys2Proof.Machine.execAttest m verifier s
  | .powerCap p value => Sys2Proof.Machine.execPowerCap p value s
  | .resetModule m force => Sys2Proof.Machine.execResetModule m force s
  | .commit m => Sys2Proof.Machine.execCommit m s
  | .configWriteDone verified => Sys2Proof.Machine.execConfigWriteDone verified s
  | .stageBegin m object length => Sys2Proof.Machine.execStageBegin m object length s
  | .stageData c offset data => Sys2Proof.Machine.execStageData c offset data s
  | .stageApply m o => Sys2Proof.Machine.execStageApply m o s
  | .stagingIdle => Sys2Proof.Machine.execStagingIdle s
  | .keyEnrol m k => Sys2Proof.Machine.execKeyEnrol m k s
  | .keyRevoke m keyId => Sys2Proof.Machine.execKeyRevoke m keyId s
  | .repairClear m channels => Sys2Proof.Machine.execRepairClear m channels s
  | .diag m mode => Sys2Proof.Machine.execDiag m mode s
  | .lockstepMismatch => Sys2Proof.Machine.execLockstepMismatch s
  | .zilsyRestart => Sys2Proof.Machine.execZilsyRestart s
  | .logMergeFlush => Sys2Proof.Machine.execLogMergeFlush s
  | .powerWindow w => Sys2Proof.Machine.execPowerWindow w s
  | .meterCorrection m => Sys2Proof.Machine.execMeterCorrection m s
  | .tjSample temps channels coolant => Sys2Proof.Machine.execTjSample temps channels coolant s
  | .thermalRecoverStep => Sys2Proof.Machine.execThermalRecoverStep s
  | .marginTrim h above => Sys2Proof.Machine.execMarginTrim h above s
  | .marginAlarm h => Sys2Proof.Machine.execMarginAlarm h s
  | .lendEnSet m h gib => Sys2Proof.Machine.execLendEnSet m h gib s
  | .borrowerDrop h lender => Sys2Proof.Machine.execBorrowerDrop h lender s
  | .perstDeassertion => Sys2Proof.Machine.execPerstDeassertion s
  | .hintWindowClose => Sys2Proof.Machine.execHintWindowClose s
  | .imageWatchdog t rowsWritten => Sys2Proof.Machine.execImageWatchdog t rowsWritten s

end Sys2Proof.Machine
end

