-- ==== Sys2Proof/Safety.lean ====
section
/-! DEFINITION. What counts as a safe run of the module, and the properties of a block that the claims speak of. -/

namespace Sys2Proof.Machine

/-- A step that neither faults nor refuses. -/
def Safe (s : State) : Prop := ∃ t, step s = .next t

/-- Every key-store entry stays in its place with its key and its role, and a revoked one stays revoked (R444). -/
def KeysKept (x y : List KeyEntry) : Prop :=
  ∀ (i : Nat) (k : KeyEntry), x[i]? = some k → ∃ l : KeyEntry, y[i]? = some l ∧ l.keyId = k.keyId ∧ l.role = k.role ∧
    l.ed25519 = k.ed25519 ∧ l.mlDsa = k.mlDsa ∧ (k.active = false → l.active = false)

/-- The audit records are numbered from 0 in their order (R437, R441). -/
def Numbered (l : List AuditRecord) : Prop := ∀ (i : Nat) (r : AuditRecord), l[i]? = some r → r.seq = i

/-- No two slots are bound to one job (R40); a slot is its state and its job. -/
def OneSlot (l : List (Nat × Nat)) : Prop :=
  ∀ i j, (l.getD i (0, 0)).1 ≠ 0 → (l.getD j (0, 0)).1 ≠ 0 → (l.getD i (0, 0)).2 = (l.getD j (0, 0)).2 → i = j

/-- A request by a path is let in (R402, R446): through BAR0 once the module is Ready, where the list of roles names the operator; or in a
command that Zilsy takes and verifies, from a role of the list. `a` is who makes it and `x` the block it acts on, its nonce used. -/
def Arrives (b : Block) (p : Path) (roles : List Nat) (a : Actor) (x : Block) : Prop :=
  match p with
  | .host => b.sys.ready = true ∧ 1 ∈ roles ∧ a = hostActor ∧ x = b
  | .zilsy m => b.hears m.channel = true ∧ b.verify m = some a ∧ a.role ∈ roles ∧ x = b.useNonce m.nonce

/-- The last thing that left the module is the answer to a command by its path, with a status; BAR0 answers nothing (R402, R447). -/
def Answers (t : Block) (p : Path) (status : Nat) : Prop :=
  match p with
  | .host => True
  | .zilsy m => ∃ d l, t.out.getLast? = some (.reply m.channel status d l)

/-- The registers that an answer through the mailbox writes (R455). -/
def mailboxReg (a : Nat) : Prop := a = zilReg 0x28 ∨ (zilReg 0x10000 ≤ a ∧ a < zilReg 0x14000)

/-- A task that runs, of a type, with its graph and context (R37). -/
def Runs (b : Block) (t : TaskRef) (ty : Nat) (g : Graph) (c : TaskCtx) : Prop :=
  b.graph t.half t.graph = some g ∧ b.task t = some c ∧ c.phase = .running ∧ c.desc.type = ty

/-- A task whose status is fixed (R46, R47). -/
def Ended (b : Block) (t : TaskRef) (status : Nat) : Prop := ∃ c, b.task t = some c ∧ c.phase = .ended ∧ c.status = status

/-- The memory after bytes have landed: each address holds the last byte landed there, or what it held (R46). -/
def Landed (s t : Block) (cells : List Host.Cell) : Prop :=
  ∀ a, t.byte a = ((cells.reverse.find? (fun c => decide (c.1 = a))).map (fun c => c.2)).getD (s.byte a)

/-- A task's run lands its bytes and fixes its status; nothing waits that did not. -/
def Lands (s t : State) (k : TaskRef) (cells : List Host.Cell) (status : Nat) : Prop :=
  t.pending = s.pending ∧ Ended t.block k status ∧ Landed s.block t.block cells

/-- The pieces of a run can all be made and none meets a bad word; `cells` are what they write, in order. -/
def Whole (b : Block) (shares : List (List Piece)) (cells : List Host.Cell) : Prop :=
  (∀ ps ∈ shares, ∀ p ∈ ps, b.pieceStop p = none) ∧ cells = shares.flatten.flatMap (fun p => p.out.toOption.getD [])

/-- Of the registers outside the cores' own, the half's count of dropped run-aheads (R204) alone may differ. -/
def CoresOnly (s t : Block) (h : HalfId) : Prop := ∀ a, a < 0x60000000 → a ≠ tierReg h 0x28 → t.reg a = s.reg a

/-- The status of a task whose operands may be empty (R42). -/
def emptyOr (c : TaskCtx) : Nat := if c.emptyDetail.isSome then stOkEmpty else stOk

/-- The registers of a half's media units (R279, R305). -/
def mediaReg (h : HalfId) (a : Nat) : Prop := regBase h + 0x1C70000 ≤ a ∧ a < regBase h + 0x1C90000

/-- A destination grants a half's next request at once, under a tag: it holds fewer tags than the cap, no older request waits for it, and it
takes requests (R224, R225, R247). -/
def Grants (b : Block) (h : HalfId) (d : Destination) (i : Nat) : Prop :=
  (b.tiers h).tagsAt d < b.regFld (tierReg h 0x18) 12 0 ∧ (∀ q ∈ (b.tiers h).waiting, q.dest ≠ d) ∧ b.destServes d = true ∧
    (b.tiers h).freeTag = some i

/-- No graph of a source waits on a half (R29). -/
def NoneWaits (b : Block) (h : HalfId) (src : SourceId) : Prop := ∀ w ∈ (b.half h).waiting, w.source ≠ src

/-- A request that its half has issued under a tag, or that waits for one (R216, R225). -/
def Asked (b : Block) (h : HalfId) (r : Request) : Prop :=
  (∃ tag x, tabFind (b.tiers h).tags tag = some x ∧ { x with issued := r.issued } = r) ∨ r ∈ (b.tiers h).waiting

/-- No record of a job waits to be written (R48). -/
def NoRecordWaits (b : Block) (job : Nat) : Prop :=
  ∀ h, ∀ p ∈ b.tasksOf h, p.2.1.job = job → p.2.2.phase ≠ .recordWait

/-- A packet that its half takes: addressed to it, of a class and one of the operations given, well formed, of the roster where its class asks
for that, and with its CRC (R316, R317, R320, R336). -/
def Admits (b : Block) (h : HalfId) (p : Packet) (cls : Nat) (ops : List Nat) : Prop :=
  pkDest p = b.endpoint h ∧ pkClass p = cls ∧ pkOp p ∈ ops ∧ malformed p = false ∧
    (cls < 4 → (b.half h).efing.census = 2 ∧ pkSrc p / 8 ∈ b.domain.roster) ∧ packetCrc p = pkCrc p

/-- The lists whose lengths the hardware fixes: 16 job slots, 64 queue pairs and 10 links for each half. -/
def Shaped (b : Block) : Prop :=
  b.slots.length = 16 ∧ b.pairs.length = 64 ∧ b.halfA.efing.ports.length = 10 ∧ b.halfB.efing.ports.length = 10

end Sys2Proof.Machine
end

