-- ==== Sys2Proof/Certificates/Slice0/Obligations.lean ====
section
/-! DEFINITION. The statements for the provers. -/

open Sys2Proof Sys2Proof.Machine

/-- A step with a command in front is `exec` of that command, the queue's rest standing. -/
def Obligations.StepRunsFrontCommand : Prop :=
  ∀ (c : Instr) (s : State), step { s with pending := c :: s.pending } = exec c s

/-- No command faults or is refused, and none reads or changes the queue. -/
def Obligations.EveryCommandAnswers : Prop :=
  (∀ c : Instr, ∃ f : Block → Block, ∀ s : State, exec c s = .next { s with block := f s.block }) ∧ ∀ s : State, Safe s

/-- The idle tick (log entry 3): time passes, and nothing else happens. -/
def Obligations.EmptyQueueTick : Prop :=
  ∀ s : State, s.pending = [] → ∃ t, step s = .next t ∧ t.pending = [] ∧ t.block.regs = s.block.regs ∧ t.block.mem = s.block.mem ∧
    t.block.slots = s.block.slots ∧ t.block.flash = s.block.flash ∧ t.block.domain = s.block.domain ∧ t.block.out = s.block.out ∧
    (s.block.sys.powerGood = true → t.block.sys = { s.block.sys with upNs := s.block.sys.upNs + 1 } ∧
      ∀ h, (t.block.half h).tide.now = (s.block.half h).tide.now +
        ((s.block.half h).tide.frac + (1000000000 + (s.block.half h).tide.slew).toNat) / 1000000000) ∧
    (s.block.sys.powerGood = false → s.block.sys.standby = false → t = s)

/-- The state after reset; log entries 2 and 9 name what the spec leaves open of it. -/
def Obligations.ResetState : Prop :=
  State.reset.pending = [] ∧ State.reset.block.mem = [] ∧ State.reset.block.hostMem = [] ∧ (∀ a, State.reset.block.byte a = 0) ∧
    State.reset.block.flash.audit = [] ∧ State.reset.block.flash.keys = [] ∧ (∀ h, (State.reset.block.half h).graphs = []) ∧
    (∀ k, k < 16 → (State.reset.block.func (.slot (Fin.ofNat 16 k))).st = 2) ∧ (∀ a, State.reset.block.reg a = regReset a) ∧
    (∀ h, State.reset.block.reg (efReg h 8) = 0x0000000800004E20 ∧ State.reset.block.reg (efReg h 0x10) = 0xF4240 ∧
      (∀ d, d < 16384 → State.reset.block.reg (efReg h (0x8000 + d)) = 0xFF)) ∧
    State.reset.block.regFld (pwrReg 0) 10 0 = 1800

/-- R12. -/
def Obligations.EndpointNumbersFollowStraps : Prop :=
  ∀ (s : State) (p : StrapSample), s.block.sys.vin = true → s.block.sys.powerGood = false → s.block.sys.standby = false →
    ∃ t, exec (.powerGood p p p) s = .next t ∧ t.pending = s.pending ∧ t.block.moduleNo = p.tray.val * 4 + p.slot.val ∧
      t.block.moduleNo ≤ 8191 ∧
      (∀ h, t.block.endpoint h = t.block.moduleNo * 2 + halfNum h ∧ t.block.endpoint h ≤ 16383 ∧ bits (t.block.endpoint h) 15 14 = 0)

/-- R412, R413, R426, R450, R466, R467, R477, R484: the commands of the start, each in the states in which its step runs and does not
fail. -/
def Obligations.StartCommands : Prop :=
  (∀ s : State, s.block.sys.vin = false → ∃ t, exec .vinApplied s = .next t ∧ t.pending = s.pending ∧ t.block.sys.vin = true ∧
    t.block.sys.powerGood = false ∧ t.block.flash = s.block.flash ∧ t.block.mem = [] ∧ ∀ a, t.block.reg a = regReset a) ∧
  (∀ (s : State) (s0 s1 s2 : StrapSample), s.block.sys.vin = true → s.block.sys.powerGood = false → s.block.sys.standby = false →
    ∃ t, exec (.powerGood s0 s1 s2) s = .next t ∧ t.pending = s.pending ∧ t.block.sys.powerGood = true ∧ t.block.sys.startStep = 1 ∧
      t.block.flash = s.block.flash ∧ t.block.mem = [] ∧ t.block.regFld (pciReg 0) 7 0 = 1 ∧
      t.block.regFld (zilReg 0x40) 50 40 = majority s0.tray.val s1.tray.val s2.tray.val ∧
      t.block.regFld (zilReg 0x40) 39 38 = majority s0.slot.val s1.slot.val s2.slot.val) ∧
  (∀ s : State, ∃ t, exec .vinLoss s = .next t ∧ t.pending = s.pending ∧ t.block.sys.vin = false ∧
    (s.block.zilsy.configWrite = none → t.block.flash = s.block.flash) ∧ t.block.mem = [] ∧ ∀ a, t.block.reg a = regReset a) ∧
  (∀ (s : State) (isB : Bool) (x : FirmwareSlot), s.block.sys.startStep = 1 → s.block.flash.bootSlot = some (isB, x) →
    ∃ t, exec .zilsyBoot s = .next t ∧ t.pending = s.pending ∧ t.block.zilsy.up = true ∧ t.block.zilsy.fwSlotB = isB ∧
      t.block.sys.startStep = 2 ∧ t.block.regFld (pciReg 0) 7 0 = 2 ∧ t.block.mem = s.block.mem) ∧
  (∀ (s : State) (isB : Bool) (c : ConfigSlot) (n : Nat), s.block.sys.startStep = 2 → s.block.chooseSlot = some (isB, c, n) →
    ∃ t, exec .imageSelect s = .next t ∧ t.pending = s.pending ∧ t.block.zilsy.currentB = isB ∧ t.block.sys.startStep = 3 ∧
      t.block.image.serial = c.number 0x0101 ∧ (∀ h, t.block.reg (safReg h 8) = BitVec.ofNat 64 (c.number 0x0301)) ∧
      t.block.regFld (pciReg 0) 7 0 = 3) ∧
  (∀ (s : State) (r : BayTraining), s.block.sys.startStep = 3 →
    (∀ h, (s.block.retired r (s.block.slowBay r) h).length ≤ s.block.regFld (bayReg h 0x18) 15 8) →
    ∃ t, exec (.bayTrainingDone r) s = .next t ∧ t.pending = s.pending ∧ t.block.sys.startStep = 4 ∧
      ∀ h c, c < 32 → t.block.bayLive h c = s.block.bayPasses r (s.block.slowBay r) (32 * halfNum h + c)) ∧
  (∀ (s : State) (r : ShelfTraining), s.block.sys.startStep = 4 → s.block.shelfDead .a r.faultsA = false →
    s.block.shelfDead .b r.faultsB = false →
    ∃ t, exec (.shelfTrainingDone r) s = .next t ∧ t.pending = s.pending ∧ (∀ h, t.block.regFld (shelfReg h 0) 1 1 = 1) ∧
      (∀ a, 0x200000000 ≤ a → a < 0x600000000 → t.block.byte a = 0) ∧
      (∀ a, a < 0x200000000 ∨ 0x600000000 ≤ a → t.block.byte a = s.block.byte a) ∧
      ((s.block.port .a 9).st = 2 → t.block.sys.startStep = 5)) ∧
  (∀ (s : State) (faults : List WireFault), s.block.sys.startStep = 4 → wiresDead faults = false → (∀ h, 10 ≤ (s.block.half h).efing.ports.length) →
    ∃ t, exec (.isthmusTrainingDone faults) s = .next t ∧ t.pending = s.pending ∧
      (∀ h, (t.block.port h 9).st = 2 ∧ (t.block.port h 9).nbrEndpoint = s.block.endpoint (otherHalf h)) ∧ t.block.mem = s.block.mem) ∧
  (∀ (s : State) (failing : List (Fin 80)), s.block.sys.startStep = 5 →
    ∃ t, exec (.selfTestDone failing) s = .next t ∧ t.pending = s.pending ∧ t.block.sys.startStep = 6 ∧ t.block.mem = s.block.mem ∧
      ∀ n ∈ failing, (t.block.func (.core n)).st = 2 ∧
        (t.block.func (.core n)).failed = true ∧
        bit (t.block.reg (safReg (halfOf (n.val / 40)) 0x308)).toNat (n.val % 40) = true) ∧
  (∀ s : State, s.block.sys.startStep = 6 →
    ∃ t, exec .ready s = .next t ∧ t.pending = s.pending ∧ t.block.sys.ready = true ∧ t.block.sys.startStep = 7 ∧
      t.block.sys.readyAt = s.block.sys.upNs ∧ bit (t.block.reg (pciReg 0x28)).toNat 1 = true ∧
      ((∀ h, s.block.regFld (tierReg h 0x40) 8 8 = 0) → t.block.mem = s.block.mem))

/-- R399, R400, R403, R410, R411, R412: the host link's own commands where they are not turned away. -/
def Obligations.HostLinkCommands : Prop :=
  (∀ (s : State) (d : Fin 1024), s.block.sys.powerGood = true → s.block.sys.perst = false →
    ∃ t l, exec (.configRequest d none) s = .next t ∧ t.pending = s.pending ∧ t.block.out = s.block.out ++ [.completion (some l)] ∧
      l.length = 4 ∧ (d.val = 2 → leNat l / 256 = 0x120000) ∧ t.block.regs = s.block.regs ∧ t.block.mem = s.block.mem) ∧
  (∀ (s : State) (d : Fin 1024) (v : BitVec 32), s.block.sys.powerGood = true → s.block.sys.perst = false →
    ∃ t, exec (.configRequest d (some v)) s = .next t ∧ t.pending = s.pending ∧ t.block.out = s.block.out ++ [.completion (some [])] ∧
      (d.val ≠ Config.barWord → t.block.sys = s.block.sys) ∧
      (d.val = Config.barWord → 30 ≤ t.block.sys.bar2Log2 ∧ t.block.sys.bar2Log2 ≤ 36) ∧ t.block.regs = s.block.regs) ∧
  (∀ (s : State) (r : LinkRate) (w : LinkWidth) (f : Bool), s.block.sys.powerGood = true → s.block.sys.perst = false →
    ∃ t, exec (.pcieLinkUp r w f) s = .next t ∧ t.pending = s.pending ∧ t.block.regFld (pciReg 8) 9 9 = b2n (r = .gt64 || f) ∧
      t.block.regFld (pciReg 8) 8 6 = rateCode r ∧ t.block.regFld (pciReg 8) 5 0 = widthLanes w ∧
      (∀ a, a ≠ pciReg 8 → t.block.reg a = s.block.reg a) ∧ t.block.mem = s.block.mem) ∧
  (∀ (s : State) (c : Instr), c = .perst ∨ c = .hotReset ∨ c = .linkDown ∨ c = .flr →
    ∃ t, exec c s = .next t ∧ t.pending = s.pending ∧
      (∀ a, pciReg 0 ≤ a → a < pciReg 0x50000 → mirrors a = false → ¬ (c = .flr ∧ a = pciReg 8) → t.block.reg a = regReset a) ∧
      (∀ a, a < pciReg 0 ∨ pciReg 0x50000 ≤ a → t.block.reg a = s.block.reg a) ∧
      (∀ q, (t.block.pair q).enabled = false ∧ (t.block.pair q).sqHead = 0 ∧ (t.block.pair q).sqTail = 0 ∧ (t.block.pair q).cqPhase = true) ∧
      t.block.halfA = s.block.halfA ∧ t.block.halfB = s.block.halfB ∧ t.block.mem = s.block.mem ∧ t.block.slots = s.block.slots ∧
      (c = .perst → t.block.sys.perst = true) ∧ (c = .flr → t.block.reg (pciReg 8) = s.block.reg (pciReg 8))) ∧
  (∀ s : State, ∃ t, exec .perstDeassertion s = .next t ∧ t.pending = s.pending ∧ t.block.sys.perst = false ∧
    t.block.regs = s.block.regs ∧ t.block.mem = s.block.mem ∧ t.block.pairs = s.block.pairs) ∧
  (∀ (s : State) (offset len a : Nat), s.block.barAddr offset len = some a → s.block.firstBad a len = none →
    ∃ t, exec (.bar2Read offset len) s = .next t ∧ t.pending = s.pending ∧
      t.block.out = s.block.out ++ [.completion (some (s.block.bytes a len))] ∧ t.block.mem = s.block.mem ∧ t.block.regs = s.block.regs) ∧
  (∀ (s : State) (offset a : Nat) (data : List Byte) (cells : List Host.Cell), s.block.barAddr offset data.length = some a →
    cells = (data.zip (List.range data.length)).map (fun p => (a + p.2, p.1)) →
    ∃ t, exec (.bar2Write offset data false) s = .next t ∧ t.pending = s.pending ∧
      (∀ i, i < data.length → t.block.byte (a + i) =
        if (s.block.badHits cells).any (fun g => g / 64 == (a + i) / 64) then s.block.byte (a + i) else data.getD i 0) ∧
      (∀ x, x < a ∨ a + data.length ≤ x → t.block.byte x = s.block.byte x) ∧
      (s.block.badHits cells = [] → t.block.regs = s.block.regs)) ∧
  (∀ (s : State) (offset : Nat) (data : List Byte),
    ∃ t, exec (.bar2Write offset data true) s = .next t ∧ t.pending = s.pending ∧ t.block.mem = s.block.mem ∧
      t.block.regFld (pciReg 0x48) 15 0 = min (s.block.regFld (pciReg 0x48) 15 0 + 1) 65535) ∧
  (∀ (s : State) (offset len : Nat) (data : List Byte), s.block.barAddr offset len = none → data.length = len →
    (∃ t, exec (.bar2Read offset len) s = .next t ∧ t.block.out = s.block.out ++ [.completion none] ∧ t.block.mem = s.block.mem ∧
      t.block.regFld (pciReg 0x48) 63 32 = min (s.block.regFld (pciReg 0x48) 63 32 + 1) (2 ^ 32 - 1)) ∧
    ∃ t, exec (.bar2Write offset data false) s = .next t ∧ t.block.out = s.block.out ∧ t.block.mem = s.block.mem ∧
      t.block.regFld (pciReg 0x48) 63 32 = min (s.block.regFld (pciReg 0x48) 63 32 + 1) (2 ^ 32 - 1))

/-- R5, R6, R7, R402, R447: a write of a register that a write changes alone. -/
def Obligations.PlainRegisterWrites : Prop :=
  ∀ (s : State) (p : Path) (c : Instr) (addr : Nat) (v w : Word) (a : Actor) (x : Block) (r : RegRow),
    (c = .registerWrite p addr v ∨ ∃ m, p = .zilsy m ∧ c = .write m addr v) →
    Arrives s.block p [1, 2, 3] a x → s.block.sys.powerGood = true → (p = .host → s.block.windowReaches addr = true) →
    regRow addr = some r → (r.rw ≠ 0 ∨ r.w1c ≠ 0) → r.rwi = 0 → addr < zilReg 0 →
    (offIn addr 0x140000 0x180000 && addr % 4 = 0) = false → a.role ∈ x.writeRoles addr v →
    (∀ k, slotOnly addr = some k → (x.slot k).st = 0) → x.halfCommand a addr v = none → x.moduleCommand a addr r v = none →
    inRanges r v = true → x.fitValue addr v = some w →
    ∃ t, exec c s = .next t ∧ t.pending = s.pending ∧ t.block.reg addr = applyCodes r (s.block.reg addr) w ∧
      (∀ a', a' ≠ addr → seedTwin addr ≠ some a' → ¬ mailboxReg a' → t.block.reg a' = s.block.reg a') ∧
      (∀ a', t.block.byte a' = s.block.byte a') ∧ t.block.halfA = s.block.halfA ∧ t.block.halfB = s.block.halfB ∧ Answers t.block p stOk

/-- R6, the row of RWI: what any role but the installer's writes is ignored and logged with ST_PERMISSION; what the installer writes is
taken, but in TIER_ACCT, which no role writes once it is read at start (R207), and in the lending control, whose writes act. -/
def Obligations.InstallerFieldsRefuseOthers : Prop :=
  (∀ (s : State) (p : Path) (addr : Nat) (v : Word) (a : Actor) (x : Block) (r : RegRow),
    Arrives s.block p [1, 2, 3] a x → s.block.sys.powerGood = true → (p = .host → s.block.windowReaches addr = true) →
    regRow addr = some r → r.rwi ≠ 0 → a.role ≠ 2 →
    ∃ t, exec (.registerWrite p addr v) s = .next t ∧ t.pending = s.pending ∧
      (∀ a', ¬ mailboxReg a' → t.block.reg a' = s.block.reg a') ∧ (∀ a', t.block.byte a' = s.block.byte a') ∧
      (∃ e : Event, e.status = stPermission ∧ t.block.flash = (x.log e).flash ∧ t.block.zilsy = (x.log e).zilsy) ∧
      Answers t.block p stPermission) ∧
  (∀ (s : State) (m : Envelope) (addr : Nat) (v w : Word) (a : Actor) (x : Block) (r : RegRow),
    Arrives s.block (.zilsy m) [1, 2, 3] a x → s.block.sys.powerGood = true → regRow addr = some r → r.rwi ≠ 0 → a.role = 2 →
    x.halfCommand a addr v = none → inRanges r v = true → x.fitValue addr v = some w → s.block.flash.audit.length < 64512 →
    ∃ t, exec (.registerWrite (.zilsy m) addr v) s = .next t ∧ t.block.reg addr = applyCodes r (s.block.reg addr) w ∧
      t.block.flash.audit.length = s.block.flash.audit.length + 1 ∧ Answers t.block (.zilsy m) stOk)

/-- R6, R446, R447: READ. Where the values stand in the answer no rule says: log entry 17. -/
def Obligations.ReadAnswersRegisters : Prop :=
  (∀ (s : State) (m : Envelope) (addrs : List Nat) (a : Actor) (x : Block), Arrives s.block (.zilsy m) [1, 2, 3] a x →
    ∃ t, exec (.read m addrs) s = .next t ∧ t.pending = s.pending ∧
      t.block.out = s.block.out ++ [.reply m.channel stOk 0 ((addrs.map (fun y => leBytes 8 (x.readReg y).toNat)).flatten)] ∧
      (∀ y, ¬ (m.channel = .mailbox ∧ zilReg 0x28 ≤ y) → t.block.reg y = s.block.reg y) ∧ t.block.mem = s.block.mem ∧
      t.block.halfA = s.block.halfA ∧ t.block.halfB = s.block.halfB ∧ t.block.nonceLive m.nonce = false) ∧
  (∀ (s : State) (m : Envelope) (addrs : List Nat), s.block.hears m.channel = true → s.block.verify m = none →
    ∃ t, exec (.read m addrs) s = .next t ∧ t.block.out = s.block.out ++ [.reply m.channel stSignature 0 []] ∧ t.block.mem = s.block.mem)

/-- R404-R408, R414, R421: the commands of a queue pair. -/
def Obligations.QueuePairCommands : Prop :=
  (∀ (s : State) (q : Fin 64) (v : Word), Shaped s.block → s.block.sys.ready = true → (s.block.pair q.val).enabled = false →
    6 ≤ fld v 35 32 → fld v 35 32 ≤ 15 → 6 ≤ fld v 31 27 → fld v 31 27 ≤ 20 →
    ∃ t, exec (.queuePairCreate q v) s = .next t ∧ t.pending = s.pending ∧ (t.block.pair q.val).enabled = true ∧
      (t.block.pair q.val).job = fld v 47 36 ∧ (t.block.pair q.val).vec.val = fld v 55 48 ∧ (t.block.pair q.val).sqLog2 = fld v 35 32 ∧
      (t.block.pair q.val).cqLog2 = fld v 31 27 ∧ (t.block.pair q.val).sqHead = 0 ∧ (t.block.pair q.val).sqTail = 0 ∧
      (t.block.pair q.val).cqHead = 0) ∧
  (∀ (s : State) (q : Fin 64), s.block.sys.ready = true → (s.block.pair q.val).enabled = true → (s.block.pair q.val).fetched = none →
    ∃ t, exec (.queuePairDestroy q) s = .next t ∧ t.pending = s.pending ∧ t.block.pair q.val = QueuePair.reset ∧
      (∀ r, r ≠ q.val → t.block.pair r = s.block.pair r) ∧ t.block.regFld (pairReg q.val 0x10) 63 63 = 0 ∧ t.block.mem = s.block.mem ∧
      t.block.hostMem = s.block.hostMem) ∧
  (∀ (s : State) (q : Fin 64) (tail : BitVec 32) (w : List (Nat × Byte)), s.block.sys.ready = true → (s.block.pair q.val).enabled = true →
    tail.toNat % 65536 < 2 ^ (s.block.pair q.val).sqLog2 →
    ∃ t, exec (.sqDoorbell q tail w) s = .next t ∧ t.pending = s.pending ∧ (t.block.pair q.val).sqTail = tail.toNat % 65536 ∧
      (∀ r, r ≠ q.val → t.block.pair r = s.block.pair r) ∧ t.block.hostMem = (s.block.hostAnnounce w).hostMem ∧ t.block.mem = s.block.mem ∧
      t.block.regs = s.block.regs) ∧
  (∀ (s : State) (q : Fin 64) (l : List Byte), s.block.mayFetch q.val = true → s.block.census = 2 →
    l = s.block.hostBytes (s.block.regFld (pairReg q.val 0) 59 12 * 4096 + 64 * (s.block.pair q.val).sqHead) 64 → entryFault l = none →
    ∃ t, exec (.sqFetch q) s = .next t ∧ t.pending = s.pending ∧ (t.block.pair q.val).fetched = some ((s.block.pair q.val).sqHead, l) ∧
      (t.block.pair q.val).sqHead = ((s.block.pair q.val).sqHead + 1) % 2 ^ (s.block.pair q.val).sqLog2 ∧
      t.block.hostMem = s.block.hostMem ∧ t.block.mem = s.block.mem) ∧
  (∀ (s : State) (q : Fin 64) (i : Nat) (l : List Byte) (h : HalfId) (g : Graph), (s.block.pair q.val).fetched = some (i, l) →
    bits (u64At l 8) 31 24 = 1 → h = halfOf (b2n (bit (u64At l 8) 0)) →
    NoneWaits s.block h (.queue q.val) → s.block.checkGraph h (s.block.pair q.val).job (u64At l 0) (.queue q.val) 1 none = .ok g →
    ∃ t w, exec (.submitGraph q) s = .next t ∧ t.pending = s.pending ∧ (t.block.pair q.val).fetched = none ∧
      (t.block.half h).waiting = (s.block.half h).waiting ++ [w] ∧ w.graph = g ∧ w.source = .queue q.val ∧ w.tag = bits (u64At l 8) 63 32 ∧
      w.checked = true ∧ t.block.mem = s.block.mem) ∧
  (∀ (s : State) (q : Fin 64) (i : Nat) (l : List Byte) (h : HalfId), (s.block.pair q.val).fetched = some (i, l) →
    bits (u64At l 8) 31 24 = 1 → h = halfOf (b2n (bit (u64At l 8) 0)) → ¬ NoneWaits s.block h (.queue q.val) →
    ∃ t w, exec (.submitGraph q) s = .next t ∧ t.pending = s.pending ∧ (t.block.pair q.val).fetched = none ∧
      (t.block.half h).waiting = (s.block.half h).waiting ++ [w] ∧ w.source = .queue q.val ∧ w.checked = false ∧ w.graph.header = u64At l 0 ∧
      t.block.mem = s.block.mem) ∧
  (∀ (s : State) (q : Fin 64) (i : Nat) (l : List Byte), (s.block.pair q.val).fetched = some (i, l) → bits (u64At l 8) 31 24 = 2 →
    (s.block.pair q.val).enabled = true → (s.block.pair q.val).cqHeld < 2 ^ (s.block.pair q.val).cqLog2 →
    ∃ t, exec (.noOp q) s = .next t ∧ t.pending = s.pending ∧ (t.block.pair q.val).fetched = none ∧
      (t.block.pair q.val).cqHeld = (s.block.pair q.val).cqHeld + 1 ∧
      t.block.hostMem = hostPutList s.block.hostMem (s.block.regFld (pairReg q.val 8) 59 12 * 4096 + 32 * (s.block.pair q.val).cqTail)
        (submissionEntry 0 (b2n (bit (u64At l 8) 0)) (s.block.pair q.val).job stOk (bits (u64At l 8) 63 32) q.val i 0 0
          (s.block.pair q.val).cqPhase) ∧ t.block.mem = s.block.mem) ∧
  (∀ (s : State) (q : Fin 64) (head : BitVec 32) (hd n : Nat), s.block.sys.ready = true → (s.block.pair q.val).enabled = true →
    headWrite (2 ^ (s.block.pair q.val).cqLog2) (s.block.pair q.val).cqHead (s.block.pair q.val).cqHeld (head.toNat % 2 ^ 20) = some (hd, n) →
    ∃ t, exec (.cqHeadWrite q head) s = .next t ∧ t.pending = s.pending ∧ (t.block.pair q.val).cqHead = head.toNat % 2 ^ 20 ∧
      (∀ h, t.block.reg (safReg h (0x40 + 8 * q.val)) = BitVec.ofNat 64 (head.toNat % 2 ^ 20)) ∧
      (s.block.queueWaiters .a q.val = [] → s.block.queueWaiters .b q.val = [] → (t.block.pair q.val).cqHeld = n)) ∧
  (∀ (s : State) (q : Fin 64), (s.block.pair q.val).enabled = true → 0 < (s.block.pair q.val).unsignalled →
    (s.block.pair q.val).firstUnsignalled + (s.block.pair q.val).coalUs * 1000 ≤ s.block.tide .a →
    ∃ t, exec (.coalesceTimer q) s = .next t ∧ t.pending = s.pending ∧ (t.block.pair q.val).unsignalled = 0 ∧
      (bit (s.block.reg (pciReg (0x2008 + 16 * (s.block.pair q.val).vec))).toNat 32 = false →
        t.block.out = s.block.out ++ [.msix (s.block.pair q.val).vec]) ∧
      (bit (s.block.reg (pciReg (0x2008 + 16 * (s.block.pair q.val).vec))).toNat 32 = true →
        bit (t.block.reg (pciReg (0x3000 + 8 * ((s.block.pair q.val).vec / 64)))).toNat ((s.block.pair q.val).vec % 64) = true) ∧
      t.block.mem = s.block.mem ∧ t.block.hostMem = s.block.hostMem)

/-- R26, R28, R29, R33, R36, R38, R39, R48, R49, R318: graphs and tokens. -/
def Obligations.GraphAndTokenCommands : Prop :=
  (∀ (s : State) (h : HalfId) (p : Packet) (g : Graph), Admits s.block h p 0 [0x20] → p.payload = [] →
    NoneWaits s.block h (.efing (pkSrc p)) →
    ((s.block.unbuffer h p).takeSeq h p).checkGraph h (pkJob p) p.w2.toNat (.efing (pkSrc p)) 1 none = .ok g →
    ∃ t w, exec (.graphSubmit h p) s = .next t ∧ t.pending = s.pending ∧ (t.block.half h).waiting = (s.block.half h).waiting ++ [w] ∧
      w.graph = g ∧ w.source = .efing (pkSrc p) ∧ w.tag = pkTag p ∧ w.checked = true ∧ t.block.mem = s.block.mem) ∧
  (∀ (s : State) (h : HalfId) (src : SourceId) (gid : Fin 4096) (w : WaitingGraph),
    (s.block.half h).waiting.find? (fun w => w.source = src) = some w → w.checked = true → s.block.bindingFault w.graph.job w.graph.job = none →
    s.block.graph h gid.val = none → s.block.contextsUsed h + w.graph.tasks.length ≤ 524288 → s.block.stepAdmits h w = true →
    (∀ q, src = .queue q → (s.block.pair q).enabled = true → (s.block.pair q).cqHeld < 2 ^ (s.block.pair q).cqLog2) →
    ∃ t g, exec (.graphAdmit h src gid) s = .next t ∧ t.pending = s.pending ∧ t.block.graph h gid.val = some g ∧ g.job = w.graph.job ∧
      g.tasks.length = w.graph.tasks.length ∧ (∀ v ∈ (t.block.half h).waiting, v.seq ≠ w.seq) ∧ t.block.mem = s.block.mem) ∧
  (∀ (s : State) (k : TaskRef) (cancel : Option Nat) (c : TaskCtx) (i : Instr),
    i = (match cancel with
      | none => .token k
      | some o => .cancellation k o) →
    s.block.task k = some c → c.received < c.desc.inTokens →
    ∃ t d, exec i s = .next t ∧ t.pending = s.pending ∧ t.block.task k = some d ∧ d.received = c.received + 1 ∧
      d.cancels = c.cancels + b2n cancel.isSome ∧ t.block.mem = s.block.mem ∧
      (c.phase = .waiting → c.received + 1 = c.desc.inTokens → 0 < d.cancels → c.desc.cancelExempt = false →
        d.phase = .ended ∧ d.status = stCancelled) ∧
      (∀ g, s.block.graph k.half k.graph = some g → c.phase = .waiting → c.received + 1 = c.desc.inTokens → d.cancels = 0 →
        c.desc.fnbValid = false → c.desc.gated = false → (s.block.slot g.slot).st = 1 → d.phase = .ready ∧ d.readyTide = s.block.tide k.half)) ∧
  (∀ (s : State) (k : TaskRef) (c : TaskCtx) (i : Instr), (i = .token k ∨ ∃ o, i = .cancellation k o) → s.block.task k = some c →
    c.desc.inTokens ≤ c.received →
    ∃ t, exec i s = .next t ∧ t.block.task k = some c ∧
      (t.block.reg (safReg k.half 0x18)).toNat = min ((s.block.reg (safReg k.half 0x18)).toNat + 1) (2 ^ 64 - 1)) ∧
  (∀ (s : State) (k : TaskRef) (g : Graph) (c : TaskCtx), s.block.graph k.half k.graph = some g → s.block.task k = some c →
    c.phase = .waiting → c.desc.inTokens ≤ c.received → c.cancels = 0 → c.desc.fnbTide ≤ s.block.tide k.half →
    (c.desc.gated = false ∨ (s.block.verdictOf k.half g.slot g.step).isSome = true) → (s.block.slot g.slot).st = 1 →
    ∃ t, exec (.fnbTideReached k) s = .next t ∧ t.pending = s.pending ∧
      t.block.task k = some { c with phase := .ready, readyTide := s.block.tide k.half } ∧ t.block.mem = s.block.mem) ∧
  (∀ (s : State) (k : TaskRef) (c : TaskCtx), s.block.task k = some c → c.phase = .ready →
    s.block.regFld (safReg k.half 0x10) 29 0 ≠ 0 → c.readyTide + s.block.regFld (safReg k.half 0x10) 29 0 ≤ s.block.tide k.half →
    ∃ t, exec (.ageLimitExpiry k) s = .next t ∧ t.pending = s.pending ∧
      t.block.task k = some (if c.aged then c else { c with aged := true, agedTide := s.block.tide k.half }) ∧
      t.block.regs = s.block.regs ∧ t.block.mem = s.block.mem) ∧
  (∀ (s : State) (h : HalfId) (gid : Fin 4096) (v : Word) (g : Graph) (hd n : Nat), s.block.graph h gid.val = some g → g.queue = none →
    headWrite (2 ^ g.ringLog2) g.head g.held (v.toNat % 2 ^ 20) = some (hd, n) →
    ∃ t, exec (.graphHeadWrite h gid v) s = .next t ∧ t.pending = s.pending ∧
      (∀ g', t.block.graph h gid.val = some g' → g'.head = v.toNat % 2 ^ 20) ∧
      ((∀ c ∈ g.tasks, c.phase ≠ .recordWait) → t.block.graph h gid.val = some { g with head := hd, held := n } ∧ t.block.mem = s.block.mem)) ∧
  (∀ (s : State) (k : TaskRef) (g n : Graph) (c d : TaskCtx), Runs s.block k 0x0B g c → c.stage = 0 → NoneWaits s.block k.half (.launch k) →
    d = { c with stage := 4, sent := (s.block.half k.half).submitted + 1 } →
    (s.block.modTask k (fun _ => d)).checkGraph k.half g.job (c.desc.param 0).toNat (.launch k) (g.depth + 1) (some k) = .ok n →
    ∃ t w, exec (.subGraphLaunch k) s = .next t ∧ t.pending = s.pending ∧
      (t.block.half k.half).waiting = (s.block.half k.half).waiting ++ [w] ∧ w.graph = n ∧ w.source = .launch k ∧ w.checked = true ∧
      w.seq = (s.block.half k.half).submitted ∧ t.block.task k = some d) ∧
  (∀ (s : State) (k : TaskRef) (g : Graph) (c : TaskCtx), Runs s.block k 0x0B g c → c.stage = 2 ∨ c.stage = 3 →
    ∃ t, exec (.subGraphDone k) s = .next t ∧ t.pending = s.pending ∧ Ended t.block k (if c.stage = 2 then stOk else stCancelled) ∧
      t.block.mem = s.block.mem) ∧
  (∀ (s : State) (k : TaskRef) (g : Graph) (c : TaskCtx), Runs s.block k 0x0C g c →
    ∃ t, exec (.tideWait k) s = .next t ∧ t.pending = s.pending ∧ Ended t.block k stOk ∧ t.block.mem = s.block.mem ∧
      t.block.regs = s.block.regs)

/-- R35-R37, R42, R46-R48, R53: firing, the end of a task, and a record that waited. A task that fires and meets the five checks of R42
runs; what the start of a matrix or a collective task does besides is the rules' of its type. -/
def Obligations.TaskLifeCommands : Prop :=
  (∀ (s : State) (k : TaskRef) (cores : List (Fin 40)) (u : Upset) (ns : List Nat) (g : Graph) (c c1 c2 c3 : TaskCtx) (ts : List (List Word))
    (prog : List Word) (b1 b2 : Block), s.block.graph k.half k.graph = some g → s.block.task k = some c → c.phase = .ready →
    ns = sortBy (fun x y => decide (x ≤ y)) ((cores.map (fun n => 40 * halfNum k.half + n.val)).eraseDups) → cores.length = ns.length →
    s.block.mayFire k g c ns = true → s.block.held k g (s.block.preview k g c) = false → u ≠ .uncorrectable → u ≠ .parity →
    s.block.readTensors (s.block.taskAccess k.half g c) c.desc = .ok ts →
    (if c.desc.type = 0x02 ∧ c.desc.mode4 = 0 ∧ c.desc.vxCount ≠ 0 ∧ c.desc.vxCount ≤ 64 then
      s.block.wordsFire (s.block.taskAccess k.half g c) 8 c.desc.vxProg c.desc.vxCount else .ok []) = .ok prog →
    c1 = { c with phase := .running, fired := true, cores := ns, fireTide := s.block.tide k.half } →
    c2 = { s.block.loadCtx k.half g.slot c1 ts with prog := prog } → b1 = (s.block.modTask k (fun _ => c1)).contextUpset k.half u →
    b2 = b1.modTask k (fun _ => c2) → b2.check1 k g c2 = none → c2.check2 = none →
    (c2.desc.gated = false ∨ b2.verdictOf k.half g.slot g.step ≠ some 2) → c3 = b2.resolvePolicy k.half g c2 → c3.emptyDetail = none →
    ∃ t, exec (.taskFire k cores u) s = .next t ∧ t.pending = s.pending ∧ t.block = (b2.modTask k (fun _ => c3)).startTask k g c3 ∧
      c3.phase = .running ∧ c3.fired = true ∧ c3.cores = ns ∧ c3.fireTide = s.block.tide k.half ∧
      (c3.desc.type ∉ [0x01, 0x08] → t.block.task k = some c3) ∧
      (∀ live, c3.desc.type = 0x01 → (b2.modTask k (fun _ => c3)).liveRows ((b2.modTask k (fun _ => c3)).taskAccess k.half g c3) c3 = .ok live →
        t.block.task k = some { c3 with rowMask := live })) ∧
  (∀ (s : State) (k : TaskRef) (cores : List (Fin 40)) (u : Upset) (ns : List Nat) (g : Graph) (c : TaskCtx),
    s.block.graph k.half k.graph = some g → s.block.task k = some c → c.phase = .ready →
    ns = sortBy (fun x y => decide (x ≤ y)) ((cores.map (fun n => 40 * halfNum k.half + n.val)).eraseDups) → cores.length = ns.length →
    s.block.mayFire k g c ns = true → s.block.held k g (s.block.preview k g c) = false →
    ∃ t d, exec (.taskFire k cores u) s = .next t ∧ t.pending = s.pending ∧ t.block.task k = some d ∧ d.fired = true ∧ d.cores = ns ∧
      d.fireTide = s.block.tide k.half ∧ (d.phase = .running ∨ d.phase = .ended)) ∧
  (∀ (s : State) (k : TaskRef) (stalls : List StallCount) (g : Graph) (c : TaskCtx) (q : Fin 64), s.block.graph k.half k.graph = some g →
    s.block.task k = some c → c.phase = .ended → g.inputsRecorded k.task = true → g.queue = some q → (s.block.pair q.val).enabled = true →
    (s.block.pair q.val).cqHeld < 2 ^ (s.block.pair q.val).cqLog2 →
    ∃ t, exec (.taskEnd k stalls) s = .next t ∧ t.pending = s.pending ∧
      t.block.hostMem = hostPutList s.block.hostMem (s.block.regFld (pairReg q.val 8) 59 12 * 4096 + 32 * (s.block.pair q.val).cqTail)
        (recordBytes k.graph g c (s.block.pair q.val).cqPhase) ∧ (t.block.pair q.val).cqHeld = (s.block.pair q.val).cqHeld + 1 ∧
      (∀ d, t.block.task k = some d → d.phase = .recorded) ∧ t.block.mem = s.block.mem ∧
      (∀ x, stalls = [x] → t.block.reg (stallReg x.core.val x.engine.val x.cause.val) =
        satAdd (s.block.reg (stallReg x.core.val x.engine.val x.cause.val)) 63 0 x.cycles)) ∧
  (∀ (s : State) (k : TaskRef) (stalls : List StallCount) (g : Graph) (c : TaskCtx) (cells : List Host.Cell),
    s.block.graph k.half k.graph = some g → s.block.task k = some c → c.phase = .ended → g.inputsRecorded k.task = true → g.queue = none →
    g.held < 2 ^ g.ringLog2 → s.block.ringCells k.half g (recordBytes k.graph g c g.phase) = .ok cells →
    ∃ t, exec (.taskEnd k stalls) s = .next t ∧ t.pending = s.pending ∧ t.block.mem = (s.block.storeCells cells).mem ∧
      t.block.hostMem = s.block.hostMem ∧ (∀ d, t.block.task k = some d → d.phase = .recorded) ∧
      (∀ x, stalls = [x] → t.block.reg (stallReg x.core.val x.engine.val x.cause.val) =
        satAdd (s.block.reg (stallReg x.core.val x.engine.val x.cause.val)) 63 0 x.cycles)) ∧
  (∀ (s : State) (k : TaskRef) (g : Graph) (c : TaskCtx) (q : Fin 64), s.block.graph k.half k.graph = some g →
    s.block.task k = some c → c.phase = .recordWait → g.queue = some q → (s.block.pair q.val).enabled = true →
    (s.block.pair q.val).cqHeld < 2 ^ (s.block.pair q.val).cqLog2 →
    ∃ t, exec (.recordWrite k) s = .next t ∧ t.pending = s.pending ∧
      t.block.hostMem = hostPutList s.block.hostMem (s.block.regFld (pairReg q.val 8) 59 12 * 4096 + 32 * (s.block.pair q.val).cqTail)
        (recordBytes k.graph g c (s.block.pair q.val).cqPhase) ∧ (t.block.pair q.val).cqHeld = (s.block.pair q.val).cqHeld + 1 ∧
      (∀ d, t.block.task k = some d → d.phase = .recorded) ∧ t.block.mem = s.block.mem) ∧
  (∀ (s : State) (k : TaskRef) (g : Graph) (c : TaskCtx) (cells : List Host.Cell), s.block.graph k.half k.graph = some g →
    s.block.task k = some c → c.phase = .recordWait → g.queue = none → g.held < 2 ^ g.ringLog2 →
    s.block.ringCells k.half g (recordBytes k.graph g c g.phase) = .ok cells →
    ∃ t, exec (.recordWrite k) s = .next t ∧ t.block.mem = (s.block.storeCells cells).mem ∧ t.block.hostMem = s.block.hostMem ∧
      (∀ d, t.block.task k = some d → d.phase = .recorded))

/-- R216, R224-R228, R410: requests. -/
def Obligations.RequestCommands : Prop :=
  (∀ (s : State) (h : HalfId) (r : LineRequest) (d : Destination) (i : Nat), homeDest r.addr = some d → s.block.holds r.addr = true →
    r.data = none → homeShape r.addr r.len = true → homeOf r.addr = h → r.upset ≠ .uncorrectable → r.upset ≠ .parity →
    s.block.firstBad r.addr r.len = none → Grants s.block h d i →
    ∃ t q, exec (.homeRequest h r) s = .next t ∧ t.pending = s.pending ∧ tabFind (t.block.tiers h).tags i = some q ∧
      q.data = s.block.bytes r.addr r.len ∧ q.task = r.task ∧ t.block.mem = s.block.mem) ∧
  (∀ (s : State) (h : HalfId) (r : LineRequest) (l : List Byte) (d : Destination) (i : Nat), homeDest r.addr = some d →
    s.block.holds r.addr = true → r.data = some l → homeShape r.addr l.length = true → homeOf r.addr = h →
    r.upset = .none → s.block.badHits ((l.zip (List.range l.length)).map (fun p => (r.addr + p.2, p.1))) = [] → Grants s.block h d i →
    ∃ t q, exec (.homeRequest h r) s = .next t ∧ t.pending = s.pending ∧ tabFind (t.block.tiers h).tags i = some q ∧
      (∀ j, j < l.length → t.block.byte (r.addr + j) = l.getD j 0) ∧
      (∀ a, a < r.addr ∨ r.addr + l.length ≤ a → t.block.byte a = s.block.byte a) ∧
      (∀ a, a ≠ bayReg .a 0x10 → a ≠ bayReg .b 0x10 → t.block.reg a = s.block.reg a)) ∧
  (∀ (s : State) (h : HalfId) (r : LineRequest) (l : List Byte) (d : Destination) (i : Nat), homeDest r.addr = some d →
    s.block.holds r.addr = true → l = r.data.getD [] → homeShape r.addr (if r.data.isSome then l.length else r.len) = true →
    homeOf r.addr ≠ h → r.upset = .none → Grants s.block h d i →
    ∃ (t : State) (y : Block) (q : Request), exec (.homeRequest h r) s = .next t ∧ t.pending = s.pending ∧ tabFind (y.tiers h).tags i = some q ∧
      q.dest = d ∧ q.addr = r.addr ∧ y.mem = s.block.mem ∧
      t.block = y.send h (y.endpoint (otherHalf h)) (y.requestJob q) 0 (if r.data.isSome then 2 else 1) i r.addr 0
        (if r.data.isSome then l else leBytes 8 r.len)) ∧
  (∀ (s : State) (h : HalfId) (r : AddRequest) (d : Destination) (i eb : Nat), homeDest r.addr = some d → s.block.holds r.addr = true →
    tierOf r.addr ≠ 0 → homeOf r.addr = h → adderOk r.addr r.op r.format r.data.length = true → adderBytes r.format = some eb →
    r.upset ≠ .uncorrectable → r.upset ≠ .parity → s.block.firstBad r.addr r.data.length = none → Grants s.block h d i →
    ∃ t q, exec (.memoryAdd h r) s = .next t ∧ t.pending = s.pending ∧ tabFind (t.block.tiers h).tags i = some q ∧
      (∀ j, j < r.data.length → t.block.byte (r.addr + j) =
        (adderList r.op r.format eb (s.block.bytes r.addr r.data.length) r.data (r.data.length / eb)).getD j 0) ∧
      (∀ a, a < r.addr ∨ r.addr + r.data.length ≤ a → t.block.byte a = s.block.byte a)) ∧
  (∀ (s : State) (h : HalfId) (r : LineRequest) (d : Destination), homeDest r.addr = some d → s.block.holds r.addr = true →
    r.data = none → homeShape r.addr r.len = true →
    (s.block.regFld (tierReg h 0x18) 12 0 ≤ (s.block.tiers h).tagsAt d ∨ s.block.destServes d = false ∨ ∃ q ∈ (s.block.tiers h).waiting, q.dest = d) →
    ∃ t q, exec (.homeRequest h r) s = .next t ∧ (t.block.tiers h).waiting = (s.block.tiers h).waiting ++ [q] ∧ q.dest = d ∧ q.addr = r.addr ∧
      (t.block.tiers h).tags = (s.block.tiers h).tags ∧ t.block.mem = s.block.mem) ∧
  (∀ (s : State) (h : HalfId) (d : Destination) (r : Request) (i : Nat), (s.block.tiers h).waiting.find? (fun r => r.dest = d) = some r →
    s.block.mayIssue h r = true → (s.block.tiers h).tagsAt d < s.block.regFld (tierReg h 0x18) 12 0 → s.block.destServes d = true →
    (s.block.tiers h).freeTag = some i → (d = .mainland ∨ (∃ e, d = .endpoint e) ∨ homeOf r.addr ≠ h ∧ r.upset ≠ .parity) →
    ∃ t q, exec (.tagGrant h d) s = .next t ∧ t.pending = s.pending ∧ tabFind (t.block.tiers h).tags i = some q ∧
      q.addr = r.addr ∧ q.issued = s.block.tide h ∧ (t.block.tiers h).waiting = (s.block.tiers h).waiting.erase r ∧
      t.block.mem = s.block.mem) ∧
  (∀ (s : State) (h : HalfId) (d : Destination) (r : Request) (i : Nat), (s.block.tiers h).waiting.find? (fun r => r.dest = d) = some r →
    ((∃ n, d = .cove n) ∨ (∃ x ch, d = .shelf x ch) ∨ ∃ x ch, d = .bay x ch) →
    (s.block.tiers h).tagsAt d < s.block.regFld (tierReg h 0x18) 12 0 → s.block.destServes d = true → (s.block.tiers h).freeTag = some i →
    homeOf r.addr = h → ∀ (y : Block) (l : List Byte), (s.block.modTiers h (fun x => { x with waiting := x.waiting.erase r })).serve r = .done y l →
      ∃ t q, exec (.tagGrant h d) s = .next t ∧ t.pending = s.pending ∧ t.block.mem = y.mem ∧ tabFind (t.block.tiers h).tags i = some q ∧
        q.data = l ∧ q.addr = r.addr ∧ q.issued = s.block.tide h ∧ (t.block.tiers h).waiting = (s.block.tiers h).waiting.erase r) ∧
  (∀ (s : State) (h : HalfId) (tag st : Nat) (l : List Byte) (r : Request) (k : TaskRef) (c : TaskCtx), tabFind (s.block.tiers h).tags tag = some r →
    r.task = some k → ((∃ x ch, r.dest = .shelf x ch) ∨ (∃ x ch, r.dest = .bay x ch) ∨ ∃ n, r.dest = .cove n) → homeOf r.addr = h →
    s.block.task k = some c →
    ∃ t d, exec (.requestResponse h tag st l) s = .next t ∧ t.pending = s.pending ∧ tabFind (t.block.tiers h).tags tag = none ∧
      t.block.task k = some d ∧ (∀ j, j < r.data.length → tabFind d.farBuf (r.addr + j) = some (r.data.getD j 0)) ∧
      t.block.mem = s.block.mem) ∧
  (∀ (s : State) (h : HalfId) (tag st e : Nat) (l : List Byte) (r : Request) (k : TaskRef) (g : Graph) (c : TaskCtx),
    tabFind (s.block.tiers h).tags tag = some r → r.task = some k → r.dest = .endpoint e → st ≠ stOk → st ≠ stQuota →
    s.block.graph k.half k.graph = some g → s.block.task k = some c → c.phase = .running →
    ∃ t, exec (.requestResponse h tag st l) s = .next t ∧ t.pending = s.pending ∧ Ended t.block k stFarFail) ∧
  (∀ (s : State) (h : HalfId) (tag st : Nat) (l : List Byte), tabFind (s.block.tiers h).tags tag = none →
    ∃ t, exec (.requestResponse h tag st l) s = .next t ∧
      t.block.regFld (pciReg 0x48) 31 16 = min (s.block.regFld (pciReg 0x48) 31 16 + 1) 65535 ∧ t.block.mem = s.block.mem) ∧
  (∀ (s : State) (h : HalfId) (tag : Nat) (r : Request) (k : TaskRef) (g : Graph) (c : TaskCtx), tabFind (s.block.tiers h).tags tag = some r →
    3 ≤ farTier r.addr → r.issued + s.block.regFld (tierReg h 0x10) 26 0 ≤ s.block.tide h → r.task = some k →
    s.block.graph k.half k.graph = some g → s.block.task k = some c → c.phase = .running →
    ∃ t, exec (.farDeadlineExpiry h tag) s = .next t ∧ t.pending = s.pending ∧ Ended t.block k stFarLate)

/-- R20, R40, R41, R50-R52, R54, R170: job slots, functions and clears. -/
def Obligations.SlotAndFunctionCommands : Prop :=
  (∀ (s : State) (p : Path) (k : Fin 16) (job : Fin 4096) (rows : List PageRow) (a : Actor) (x y : Block), Shaped s.block →
    Arrives s.block p [1, 2] a x → (x.slot k.val).st = 0 → x.bind k.val job.val rows = .ok y →
    ∃ t, exec (.jobSlotBind p k job rows) s = .next t ∧ t.pending = s.pending ∧ (t.block.slot k.val).st = 1 ∧
      (t.block.slot k.val).job = job.val ∧ (∀ i, i ≠ k.val → (t.block.slot i).st = (s.block.slot i).st ∧ (t.block.slot i).job = (s.block.slot i).job ∧
        ((t.block.slot i).st ≠ 0 → i < 16 → (t.block.slot i).job ≠ job.val)) ∧
      (∀ z, (∀ h, ¬ (0x3F9C00000 + halfNum h * 0x200000000 + k.val * 0x40000 ≤ z ∧
        z < 0x3F9C00000 + halfNum h * 0x200000000 + (k.val + 1) * 0x40000)) → t.block.byte z = s.block.byte z) ∧ Answers t.block p stOk) ∧
  (∀ (s : State) (p : Path) (k : Fin 16) (a : Actor) (x : Block), Shaped s.block → Arrives s.block p [1, 2] a x → (s.block.slot k.val).st = 1 →
    ∃ t, exec (.jobSlotDisable p k) s = .next t ∧ t.pending = s.pending ∧ (t.block.slot k.val).st = 2 ∧
      (t.block.slot k.val).deadline = s.block.tide .a + s.block.regFld (safReg .a 8) 29 0 ∧
      (∀ i, i ≠ k.val → t.block.slot i = s.block.slot i) ∧ t.block.mem = s.block.mem ∧ Answers t.block p stOk) ∧
  (∀ (s : State) (p : Path) (f : FuncId) (a : Actor) (x : Block), Shaped s.block → Arrives s.block p [1, 2] a x → (s.block.func f).st = 0 →
    s.block.flash.audit.length < 64512 →
    ∃ t, exec (.funcDisable p f) s = .next t ∧ t.pending = s.pending ∧ (t.block.func f).st = 1 ∧
      (t.block.func f).deadline = s.block.tide (funcHalf f) + s.block.regFld (safReg (funcHalf f) 8) 29 0 ∧
      t.block.flash.audit.length = s.block.flash.audit.length + 1 ∧ t.block.mem = s.block.mem ∧ Answers t.block p stOk) ∧
  (∀ (s : State) (p : Path) (f : FuncId) (a : Actor) (x : Block), Arrives s.block p [1, 2] a x → (s.block.func f).st = 2 →
    (s.block.func f).failed = false → (∀ k, f ≠ .slot k) → s.block.flash.audit.length < 64512 →
    ∃ t, exec (.funcEnable p f) s = .next t ∧ t.pending = s.pending ∧ (t.block.func f).st = 0 ∧
      t.block.flash.audit.length = s.block.flash.audit.length + 1 ∧ t.block.mem = s.block.mem ∧ Answers t.block p stOk) ∧
  (∀ (s : State) (p : Path) (k : Fin 16) (a : Actor) (x : Block), Arrives s.block p [1, 2] a x →
    ∃ t, exec (.funcEnable p (.slot k)) s = .next t ∧ t.block.slots = s.block.slots ∧ t.block.flash.audit = s.block.flash.audit ∧
      Answers t.block p stPermission) ∧
  (∀ (s : State) (f : FuncId), s.block.drainDue f = true →
    ∃ t, exec (.drainDeadline f) s = .next t ∧ t.pending = s.pending ∧
      ∀ k g c, s.block.graph k.half k.graph = some g → s.block.task k = some c → s.block.usesFunc f k g c = true → Ended t.block k stAborted) ∧
  (∀ (s : State) (f : FuncId), Shaped s.block → s.block.drainDue f = true → s.block.usersOf f = [] →
    ∃ t, exec (.drainComplete f) s = .next t ∧ t.pending = s.pending ∧ (t.block.func f).st = 2 ∧
      (∀ k, f = .slot k → t.block.slot k.val = JobSlot.reset)) ∧
  (∀ (s : State) (p : Path) (h : HalfId) (v : Word) (a : Actor) (x : Block), Arrives s.block p [1, 2] a x →
    ∃ t, exec (.stallClear p h v) s = .next t ∧ t.pending = s.pending ∧
      (v.getLsbD 0 = true → ∀ n e c, n < 40 → e < 3 → c < 17 → t.block.reg (stallReg (40 * halfNum h + n) e c) = 0) ∧
      (v.getLsbD 0 = false → ∀ n e c, n < 80 → e < 3 → c < 17 → t.block.reg (stallReg n e c) = s.block.reg (stallReg n e c)) ∧
      t.block.mem = s.block.mem ∧ Answers t.block p stOk) ∧
  (∀ (s : State) (p : Path) (h : HalfId) (k : Fin 16) (a : Actor) (x : Block), Arrives s.block p [1, 2] a x →
    ∃ t, exec (.kvInval p h k) s = .next t ∧ t.pending = s.pending ∧
      (∀ n, n < 40 → ∀ e ∈ (t.block.core (40 * halfNum h + n)).lab, e.1 ≠ k.val) ∧
      (∀ n, n < 40 → ∀ e ∈ (s.block.core (40 * halfNum h + n)).lab, e.1 ≠ k.val → e ∈ (t.block.core (40 * halfNum h + n)).lab) ∧
      t.block.mem = s.block.mem ∧ Answers t.block p stOk)

/-- R110-R113: the debug control of a core's array. -/
def Obligations.DebugCommands : Prop :=
  (∀ (s : State) (p : Path) (n : Fin 80) (a : Actor) (x : Block), Arrives s.block p [3] a x → s.block.image.diagAccess = true →
    s.block.flash.audit.length < 64512 →
    ∃ t, exec (.dbgHalt p n) s = .next t ∧ t.pending = s.pending ∧ (t.block.core n.val).haltRequested = true ∧
      (t.block.core n.val).halted = (s.block.core n.val).halted ∧ t.block.flash.audit.length = s.block.flash.audit.length + 1 ∧
      t.block.mem = s.block.mem ∧ Answers t.block p stOk) ∧
  (∀ (s : State) (n : Fin 80) (at_ : HaltPoint), (s.block.core n.val).haltRequested = true → (s.block.core n.val).halted = false →
    ∃ t, exec (.dbgHaltReached n at_) s = .next t ∧ t.pending = s.pending ∧ (t.block.core n.val).halted = true ∧
      (t.block.core n.val).haltRequested = false ∧ t.block.regFld (mxReg n.val 0x20) 32 32 = 1 ∧
      (t.block.core n.val).vec = (s.block.core n.val).vec ∧ t.block.mem = s.block.mem) ∧
  (∀ (s : State) (p : Path) (n : Fin 80) (a : Actor) (x : Block), Arrives s.block p [3] a x → s.block.image.diagAccess = true →
    s.block.flash.audit.length < 64512 → (s.block.core n.val).halted = true →
    ∃ t, exec (.dbgResume p n) s = .next t ∧ t.pending = s.pending ∧ (t.block.core n.val).halted = false ∧
      (t.block.core n.val).haltRequested = false ∧ t.block.reg (mxReg n.val 0x20) = 0 ∧
      t.block.reg (mxReg n.val 0x28) = s.block.reg (mxReg n.val 0x28) + BitVec.ofNat 64 (cyclesOf (s.block.tide (halfOf (n.val / 40)) - (s.block.core n.val).haltTide)) ∧ t.block.mem = s.block.mem ∧
      t.block.flash.audit.length = s.block.flash.audit.length + 1 ∧ Answers t.block p stOk) ∧
  (∀ (s : State) (p : Path) (n : Fin 80) (a : Actor) (x : Block) (c : Instr), Arrives s.block p [1, 2, 3] a x → (a.role ≠ 3 ∨ s.block.image.diagAccess = false) →
    (c = .dbgHalt p n ∨ c = .dbgResume p n) →
    ∃ t, exec c s = .next t ∧ t.block.core n.val = s.block.core n.val ∧ t.block.flash.audit = s.block.flash.audit ∧ t.block.mem = s.block.mem ∧
      Answers t.block p stPermission)

/-- R42, R46, R79, R90, R106-R108, R111, R130, R137, R183, R184, R187, R192, R193: the matrix, expert, convolution and detection tasks. -/
def Obligations.EngineTasks : Prop :=
  (∀ (s : State) (k : TaskRef) (par : Option BankUpset) (g : Graph) (c : TaskCtx) (q : Pairing) (b0 : Block) (a : Access) (cells : List Host.Cell),
    Runs s.block k 0x01 g c → pairing (c.tensor 0).fmt (c.tensor 1).fmt = some q → s.block.anyHalted c = false → c.mxNone = false →
    c.struck k.half par = none → b0 = s.block.touch k g c → a = s.block.taskAccess k.half g c →
    Whole b0 (b0.mxWrites a c (b0.mxRun a c q)) cells →
    ∃ t, exec (.matrix k par) s = .next t ∧ Lands s t k cells (emptyOr c) ∧ CoresOnly s.block t.block k.half) ∧
  (∀ (s : State) (k : TaskRef) (par : Option BankUpset) (g : Graph) (c : TaskCtx) (q : Pairing), Runs s.block k 0x01 g c →
    pairing (c.tensor 0).fmt (c.tensor 1).fmt = some q → s.block.anyHalted c = false → c.mxNone = true →
    ∃ t, exec (.matrix k par) s = .next t ∧ Lands s t k [] (emptyOr c) ∧ t.block.regs = s.block.regs) ∧
  (∀ (s : State) (k : TaskRef) (u : BankUpset) (g : Graph) (c : TaskCtx) (q : Pairing), Runs s.block k 0x01 g c →
    pairing (c.tensor 0).fmt (c.tensor 1).fmt = some q → s.block.anyHalted c = false → c.mxNone = false →
    c.cores.contains (40 * halfNum k.half + u.core.val) = true →
    ∃ t, exec (.matrix k (some u)) s = .next t ∧ t.pending = s.pending ∧ Ended t.block k stDataError) ∧
  (∀ (s : State) (k : TaskRef) (g : Graph) (c : TaskCtx) (b0 : Block) (a : Access) (r : List (Nat × Row × List Val) × Nat) (cells : List Host.Cell),
    Runs s.block k 0x02 g c → c.desc.pf 0 63 60 = 1 → b0 = s.block.touch k g c → a = s.block.taskAccess k.half g c → b0.rtRun a c = .ok r →
    Whole b0 [b0.rtWrites a c r.1] cells →
    ∃ t, exec (.route k) s = .next t ∧ Lands s t k cells stOk ∧ CoresOnly s.block t.block k.half) ∧
  (∀ (s : State) (k : TaskRef) (g : Graph) (c : TaskCtx) (b0 : Block) (a : Access) (cells : List Host.Cell), Runs s.block k 0x02 g c →
    c.desc.pf 0 63 60 = 2 → b0 = s.block.touch k g c → a = s.block.taskAccess k.half g c →
    Whole b0 (storedPieces (b0.cbRun a c) ++ [b0.storedBitmap a (c.tensor 2) (b0.cbRun a c)]) cells →
    ∃ t, exec (.combine k) s = .next t ∧ Lands s t k cells stOk ∧ CoresOnly s.block t.block k.half) ∧
  (∀ (s : State) (k : TaskRef) (par : Option BankUpset) (g : Graph) (c : TaskCtx) (q : Pairing) (b0 : Block) (cells : List Host.Cell) (i : Instr),
    Runs s.block k 0x04 g c →
    (i = .convForward k par ∧ c.desc.pf 0 63 60 = 0 ∨ i = .convBackwardData k par ∧ c.desc.pf 0 63 60 = 1 ∨
      i = .convBackwardFilter k par ∧ c.desc.pf 0 63 60 = 2) →
    (sourcesOf g c).all (fun x => x.fixed && firesTokens x.status) = true → pairing (c.tensor 0).fmt (c.tensor 1).fmt = some q →
    s.block.anyHalted c = false → rowsOpen c (sourcesOf g c) (max c.cvRowLo c.rowsReady) c.cvRowHi = true → c.struck k.half par = none →
    b0 = s.block.touch k g c →
    Whole b0 (partShares (b0.convRows (b0.taskAccess k.half g c) c q (max c.cvRowLo c.rowsReady) c.cvRowHi).1) cells →
    ∃ t, exec i s = .next t ∧ Lands s t k cells (emptyOr c) ∧ CoresOnly s.block t.block k.half) ∧
  (∀ (s : State) (k : TaskRef) (par : Option BankUpset) (g : Graph) (c : TaskCtx) (o : Nat) (i : Instr), Runs s.block k 0x04 g c →
    (i = .convForward k par ∧ c.desc.pf 0 63 60 = 0 ∨ i = .convBackwardData k par ∧ c.desc.pf 0 63 60 = 1 ∨
      i = .convBackwardFilter k par ∧ c.desc.pf 0 63 60 = 2) →
    failedSource (sourcesOf g c) = some o → (sourcesOf g c).all (fun x => x.fixed) = true →
    ∃ t, exec i s = .next t ∧ Lands s t k [] stCancelled ∧ t.block.regs = s.block.regs) ∧
  (∀ (s : State) (k : TaskRef) (g : Graph) (c : TaskCtx) (b0 : Block) (cells : List Host.Cell), Runs s.block k 0x04 g c → c.desc.pf 0 63 60 = 3 →
    b0 = s.block.touch k g c → Whole b0 (partShares (b0.bxRun (s.block.taskAccess k.half g c) c)) cells →
    ∃ t, exec (.boxDecode k) s = .next t ∧ Lands s t k cells stOk ∧ CoresOnly s.block t.block k.half) ∧
  (∀ (s : State) (k : TaskRef) (g : Graph) (c : TaskCtx) (b0 : Block) (a : Access) (cells : List Host.Cell), Runs s.block k 0x04 g c →
    c.desc.pf 0 63 60 = 4 → b0 = s.block.touch k g c → a = s.block.taskAccess k.half g c →
    Whole b0 (b0.nmsShares a c (b0.nmsRun a c)) cells →
    ∃ t, exec (.nms k) s = .next t ∧ Lands s t k cells stOk ∧
      (∃ d, t.block.task k = some d ∧
        d.shapeOut = [(((b0.nmsRun a c).filterMap (fun r => r.toOption)).map (fun o => o.kept.length)).foldl max 0]) ∧
      ∀ a, a ≠ regBase k.half + 0x1C30000 → a ≠ tierReg k.half 0x28 → t.block.reg a = s.block.reg a) ∧
  (∀ (s : State) (k : TaskRef) (rows : Nat) (g : Graph) (c : TaskCtx) (q : Pairing) (b0 : Block) (run : List (Res Stored) × Nat)
    (cells : List Host.Cell), Runs s.block k 0x04 g c → pairing (c.tensor 0).fmt (c.tensor 1).fmt = some q → c.desc.isRowSource = true →
    max c.cvRowLo c.rowsReady < rows → rows ≤ c.cvRowHi → (rows % 8 = 0 ∨ rows = c.cvRowHi) →
    rowsOpen c (sourcesOf g c) (max c.cvRowLo c.rowsReady) rows = true →
    (sourcesOf g c).all (fun x => !x.fixed || firesTokens x.status) = true → s.block.anyHalted c = false → b0 = s.block.touch k g c →
    run = b0.convRows (b0.taskAccess k.half g c) c q (max c.cvRowLo c.rowsReady) rows → Whole b0 (partShares run.1) cells →
    ∃ t d, exec (.rowsReady k rows) s = .next t ∧ t.pending = s.pending ∧ Landed s.block t.block cells ∧ t.block.task k = some d ∧
      d.phase = .running ∧ d.rowsReady = rows ∧ d.counts = c.counts.add { partStats run.1 with nf := (partStats run.1).nf + run.2 } ∧
      ∀ a, a ≠ tierReg k.half 0x28 → t.block.reg a = s.block.reg a)

/-- R46, R79, R111, R162, R163, R164, R166, R170, R172, R173, R176: the attention tasks and the KV write. -/
def Obligations.AttentionTasks : Prop :=
  (∀ (s : State) (k : TaskRef) (par : Option BankUpset) (g : Graph) (c : TaskCtx) (b0 : Block) (a : Access) (run : KvWalk × List (List (Res AtRun)))
    (cells : List Host.Cell) (i : Instr), Runs s.block k 0x03 g c → b0 = s.block.touch k g c → a = s.block.taskAccess k.half g c →
    (i = .attnForward k par ∧ c.desc.pf 0 63 60 = 0 ∧ run = c.atRunAll (b0.atForwardUnit a c) ∨
      i = .attnForwardPartial k par ∧ c.desc.pf 0 63 60 = 1 ∧ run = c.atRunAll (b0.atForwardUnit a c) ∨
      i = .attnCombine k ∧ par = none ∧ c.desc.pf 0 63 60 = 2 ∧ run = c.atRunAll (fun w _ u => (w, b0.atCombineUnit a c u)) ∨
      i = .attnBackwardDkDv k par ∧ c.desc.pf 0 63 60 = 3 ∧ c.atLq ≠ 0 ∧ run = c.atRunAll (fun w _ u => (w, b0.atBackKeyUnit a c u)) ∨
      i = .attnBackwardDkDv k par ∧ c.desc.pf 0 63 60 = 3 ∧ c.atLq = 0 ∧ run = c.atRunAll (fun w _ _ =>
        (w, .ok { rows := [], second := [], rescales := 0, skipped := 0, empties := 0, issued := 0 })) ∨
      i = .attnBackwardDq k par ∧ c.desc.pf 0 63 60 = 4 ∧ run = c.atRunAll (fun w _ u => (w, b0.atBackQueryUnit a c u))) →
    s.block.anyHalted c = false → c.struck k.half par = none → Whole (b0.kvWalked k run.1) (run.2.map (fun l => c.atPieces l)) cells →
    ∃ t, exec i s = .next t ∧ Lands s t k cells (emptyOr c) ∧
      ∀ y, y < 0x60000000 → y ≠ tierReg k.half 0x28 → y ≠ kvReg k.half 0x108 → t.block.reg y = s.block.reg y) ∧
  (∀ (s : State) (k : TaskRef) (u : BankUpset) (g : Graph) (c : TaskCtx) (i : Instr), Runs s.block k 0x03 g c →
    (i, c.desc.pf 0 63 60) ∈ [(Instr.attnForward k (some u), 0), (.attnForwardPartial k (some u), 1), (.attnBackwardDkDv k (some u), 3),
      (.attnBackwardDq k (some u), 4)] →
    s.block.anyHalted c = false → c.cores.contains (40 * halfNum k.half + u.core.val) = true →
    ∃ t, exec i s = .next t ∧ t.pending = s.pending ∧ Ended t.block k stDataError) ∧
  (∀ (s : State) (k : TaskRef) (g : Graph) (c : TaskCtx) (par : Option BankUpset) (i : Instr), Runs s.block k 0x03 g c →
    (i, c.desc.pf 0 63 60) ∈ [(Instr.attnForward k par, 0), (.attnForwardPartial k par, 1), (.attnCombine k, 2), (.attnBackwardDkDv k par, 3),
      (.attnBackwardDq k par, 4)] →
    s.block.anyHalted c = true → exec i s = .next s) ∧
  (∀ (s : State) (k : TaskRef) (g : Graph) (c : TaskCtx) (b0 : Block) (a : Access) (run : KvWalk × List (List (Res Stored)))
    (cells : List Host.Cell), Runs s.block k 0x02 g c → c.desc.pf 0 63 60 = 3 → b0 = s.block.touch k g c → a = s.block.taskAccess k.half g c →
    run = b0.kvRun a c →
    Whole (b0.kvWalked k run.1) (run.2.map (fun rs => seqPieces (rs.map (fun x => x.map (fun st => st.cells))))) cells →
    ∃ t, exec (.kvWrite k) s = .next t ∧ Lands s t k cells stOk ∧
      ∀ y, y < 0x60000000 → y ≠ tierReg k.half 0x28 → y ≠ kvReg k.half 0x108 → t.block.reg y = s.block.reg y) ∧
  (∀ (s : State) (k : TaskRef) (g : Graph) (c : TaskCtx) (b0 : Block) (a : Access) (run : KvWalk × List (List (Res Stored))) (d : Nat),
    Runs s.block k 0x02 g c → c.desc.pf 0 63 60 = 3 → b0 = s.block.touch k g c → a = s.block.taskAccess k.half g c → run = b0.kvRun a c →
    ((b0.kvWalked k run.1).landRun (run.2.map (fun rs => seqPieces (rs.map (fun x => x.map (fun st => st.cells)))))).2 =
      some (.ended stKvUnmapped d) →
    ∃ t, exec (.kvWrite k) s = .next t ∧ t.pending = s.pending ∧ Ended t.block k stKvUnmapped ∧
      t.block.regFld (kvReg k.half 0x108) 31 0 = min (s.block.regFld (kvReg k.half 0x108) 31 0 + 1) (2 ^ 32 - 1))

/-- R142, R145, R147-R150, R176: the instructions that write a vector register from registers and constants. -/
def Obligations.VectorLaneInstructions : Prop :=
  ∀ (s : State) (n : Fin 80) (f : VecFields) (p : VecPlace) (i : Instr) (op : Nat) (out : List Nat),
    s.block.vecPlace n.val = some p → vecOpcode p.word = op → vecFields p.word = f →
    (i, op, out) ∈ [
      (Instr.ldi n f, 0x03, (p.c.vxLanes p.unit).map (fun _ => laneImm f.etype (immN f))),
      (Instr.iota n f, 0x04, (p.c.vxLanes p.unit).map (fun l => [l.1, l.2.1.1, l.2.1.2.1, l.2.1.2.2.1, l.2.1.2.2.2].getD (immN f % 8) 0))] ++
      [(Instr.add n f, 0x10), (Instr.sub n f, 0x11), (Instr.mul n f, 0x12), (Instr.fma n f, 0x13), (Instr.max n f, 0x14), (Instr.min n f, 0x15),
        (Instr.abs n f, 0x16), (Instr.neg n f, 0x17), (Instr.div n f, 0x18), (Instr.sqrt n f, 0x19), (Instr.cmp n f, 0x1A),
        (Instr.sel n f, 0x1B), (Instr.exp2 n f, 0x20), (Instr.log2 n f, 0x21), (Instr.rcp n f, 0x22), (Instr.rsqrt n f, 0x23),
        (Instr.tanh n f, 0x24), (Instr.iadd n f, 0x30), (Instr.isub n f, 0x31), (Instr.imul n f, 0x32), (Instr.imax n f, 0x33),
        (Instr.imin n f, 0x34), (Instr.shl n f, 0x35), (Instr.shr n f, 0x36), (Instr.sra n f, 0x37), (Instr.and n f, 0x38),
        (Instr.or n f, 0x39), (Instr.xor n f, 0x3A), (Instr.not n f, 0x3B), (Instr.icmp n f, 0x3C), (Instr.cvt n f, 0x40)].map
        (fun e => (e.1, e.2, ((p.read f.srcA.val).zip ((p.read f.srcB.val).zip (p.read f.srcC.val))).map
          (fun l => laneOp e.2 f.etype (immN f) l.1 l.2.1 l.2.2))) →
    ∃ t, exec i s = .next t ∧ t.pending = s.pending ∧ t.block.mem = s.block.mem ∧
      (t.block.core n.val).vec = p.advance (p.write f.dst.val (dstType op f) out) ∧
      t.block.reg (vxReg n.val 8) = s.block.reg (vxReg n.val 8) + BitVec.ofNat 64 (opCycles op (p.c.vxLanes p.unit).length) ∧
      ∀ a, a ≠ vxReg n.val 8 → t.block.reg a = s.block.reg a

/-- R144, R147, R151-R154: the instructions that read or write memory, and the reductions. -/
def Obligations.VectorMemoryAndReductionInstructions : Prop :=
  (∀ (s : State) (n : Fin 80) (f : VecFields) (p : VecPlace) (x : VecEffect), s.block.vecPlace n.val = some p → vecOpcode p.word = 0x01 →
    vecFields p.word = f → p.load s.block f = .ok x →
    ∃ t, exec (.ld n f) s = .next t ∧ t.pending = s.pending ∧ t.block.mem = s.block.mem ∧ (t.block.core n.val).vec = p.advance x ∧
      (∃ lanes, tabFind x.regs f.dst.val = some { etype := f.etype, lanes := lanes }) ∧
      ∀ a, a ≠ vxReg n.val 8 → t.block.reg a = s.block.reg a) ∧
  (∀ (s : State) (n : Fin 80) (f : VecFields) (p : VecPlace) (x : VecEffect), s.block.vecPlace n.val = some p → vecOpcode p.word = 0x02 →
    vecFields p.word = f → p.store s.block f = .ok x → s.block.badHits x.cells = [] →
    ∃ t, exec (.st n f) s = .next t ∧ t.pending = s.pending ∧ Landed s.block t.block x.cells ∧
      (t.block.core n.val).vec = p.advance p.idle ∧ ∀ a, a ≠ vxReg n.val 8 → t.block.reg a = s.block.reg a) ∧
  (∀ (s : State) (n : Fin 80) (f : VecFields) (p : VecPlace) (i : Instr) (op : Nat), s.block.vecPlace n.val = some p → vecOpcode p.word = op →
    vecFields p.word = f →
    (i, op) ∈ [(Instr.rsum n f, 0x50), (Instr.rmax n f, 0x51), (Instr.rmin n f, 0x52), (Instr.rmean n f, 0x53), (Instr.gap n f, 0x54)] →
    ∃ t, exec i s = .next t ∧ t.pending = s.pending ∧ t.block.mem = s.block.mem ∧
      (t.block.core n.val).vec = p.advance (p.reduce op f) ∧ ∀ a, a ≠ vxReg n.val 8 → t.block.reg a = s.block.reg a)

/-- R42, R46, R143, R145, R152: VECTOR_PROGRAM. -/
def Obligations.VectorProgramCompletes : Prop :=
  (∀ (s : State) (k : TaskRef) (g g' : Graph) (c c' : TaskCtx) (b : Block) (cells : List Host.Cell), Runs s.block k 0x02 g c →
    c.desc.pf 0 63 60 = 0 → c.emptyDetail = none → (s.block.touch k g c).vecRunAll c c.cores = (b, true) →
    Runs b k 0x02 g' c' → c'.desc.pf 0 63 60 = 0 →
    b.vecBitmaps (b.taskAccess k.half g' c') c' ((c'.prog.filter (fun w => vecOpcode w = 0x02)).map (fun w => immN (vecFields w) % 8)).eraseDups =
      .ok cells → b.badHits cells = [] →
    ∃ t, exec (.vectorProgram k) s = .next t ∧ t.pending = s.pending ∧ Ended t.block k stOk ∧ Landed b t.block cells ∧
      t.block.regs = b.regs) ∧
  (∀ (s : State) (k : TaskRef) (g : Graph) (c : TaskCtx) (d : Nat) (cells : List Host.Cell), Runs s.block k 0x02 g c →
    c.desc.pf 0 63 60 = 0 → c.emptyDetail = some d → (∀ i, (c.tensor i).comp ≠ 7) →
    (s.block.touch k g c).emptyStores (s.block.taskAccess k.half g c) c = .ok cells → s.block.badHits cells = [] →
    ∃ t, exec (.vectorProgram k) s = .next t ∧ Lands s t k cells stOkEmpty ∧ ∀ a, a ≠ tierReg k.half 0x28 → t.block.reg a = s.block.reg a)

/-- R149. -/
def Obligations.IntegerLanesFollowTwosComplement : Prop :=
  ∀ e imm x y z, 3 ≤ e → e ≤ 7 →
    (imm % 2 = 0 → laneOp 0x30 e imm x y z = (x + y) % 2 ^ (8 * eWidth e) ∧
      ((laneOp 0x31 e imm x y z : Nat) : Int) = ((x : Int) - (y : Int)) % 2 ^ (8 * eWidth e) ∧
      laneOp 0x32 e imm x y z = x * y % 2 ^ (8 * eWidth e)) ∧
    (imm % 2 = 1 →
      laneInt e (laneOp 0x30 e imm x y z) = max (eRange e).1 (min (eRange e).2 (laneInt e x + laneInt e y)) ∧
      laneInt e (laneOp 0x31 e imm x y z) = max (eRange e).1 (min (eRange e).2 (laneInt e x - laneInt e y)) ∧
      laneInt e (laneOp 0x32 e imm x y z) = max (eRange e).1 (min (eRange e).2 (laneInt e x * laneInt e y))) ∧
    laneInt e (laneOp 0x33 e imm x y z) = max (laneInt e x) (laneInt e y) ∧
    laneInt e (laneOp 0x34 e imm x y z) = min (laneInt e x) (laneInt e y) ∧
    laneOp 0x36 e imm x y z = x % 2 ^ (8 * eWidth e) / 2 ^ (y % (8 * eWidth e)) ∧
    sext (8 * eWidth e) (laneOp 0x37 e imm x y z) = sext (8 * eWidth e) x / (2 : Int) ^ (y % (8 * eWidth e)) ∧
    (eSigned e = true → -(2 : Int) ^ (8 * eWidth e - 1) ≤ laneInt e x ∧ laneInt e x < 2 ^ (8 * eWidth e - 1)) ∧
    (laneInt e x - (x : Int)) % 2 ^ (8 * eWidth e) = 0

/-- R46, R221-R223, R226: the gather tasks. -/
def Obligations.GatherTasks : Prop :=
  (∀ (s : State) (k : TaskRef) (g : Graph) (c : TaskCtx) (is : List Int) (cells : List Host.Cell) (i : Instr), Runs s.block k 0x05 g c →
    (s.block.touchPieces k g.slot (c.tensor 1).pieces).gatherIndices (s.block.taskAccess k.half g c) (c.tensor 1) = .ok is →
    (c.desc.pf 0 59 59 = 1 → is.all (fun x => inTable (c.tensor 0) x) = true) →
    (i = .gather k ∧ c.desc.pf 0 63 60 = 0 ∧ ((s.block.touchPieces k g.slot (c.tensor 1).pieces).startGather k g c is).gatherCells
        (s.block.taskAccess k.half g c) (c.tensor 0) (c.tensor 2) is = .ok cells ∨
      i = .scatter k ∧ c.desc.pf 0 63 60 = 1 ∧ ((s.block.touchPieces k g.slot (c.tensor 1).pieces).startGather k g c is).scatterCells
        (s.block.taskAccess k.half g c) (c.tensor 0) (c.tensor 2) is = .ok cells) →
    s.block.badHits cells = [] →
    ∃ t, exec i s = .next t ∧ Lands s t k cells stOk ∧ (∀ a, a ≠ tierReg k.half 0x28 → t.block.reg a = s.block.reg a)) ∧
  (∀ (s : State) (k : TaskRef) (g : Graph) (c : TaskCtx) (is : List Int) (b : Block) (i : Instr) (op : Nat), Runs s.block k 0x05 g c →
    (s.block.touchPieces k g.slot (c.tensor 1).pieces).gatherIndices (s.block.taskAccess k.half g c) (c.tensor 1) = .ok is →
    (c.desc.pf 0 59 59 = 1 → is.all (fun x => inTable (c.tensor 0) x) = true) →
    (i = .scatterAdd k ∧ c.desc.pf 0 63 60 = 2 ∧ op = 0 ∨
      i = .scatterMax k ∧ c.desc.pf 0 63 60 = 3 ∧ op = 1 ∨ i = .scatterMin k ∧ c.desc.pf 0 63 60 = 4 ∧ op = 2) →
    ((s.block.touchPieces k g.slot (c.tensor 1).pieces).startGather k g c is).adderRows (s.block.taskAccess k.half g c) op (c.tensor 0)
      (c.tensor 2) ((is.zip (List.range is.length)).drop c.stage) = .ok b →
    ∃ t, exec i s = .next t ∧ t.pending = s.pending ∧ Ended t.block k stOk ∧
      t.block.mem = (if op = 0 ∧ ((c.tensor 0).fmt = 0x00 ∨ (c.tensor 0).fmt = 0x01) ∧ 1 < c.desc.cores then
        b.freeRows (s.block.taskAccess k.half g c) (c.tensor 0) (contested c.desc.cores is) else b).mem ∧
      (∀ a, a ≠ tierReg k.half 0x28 → t.block.reg a = s.block.reg a)) ∧
  (∀ (s : State) (k : TaskRef) (g : Graph) (c : TaskCtx) (is : List Int) (x : Int) (i : Instr), Runs s.block k 0x05 g c →
    (s.block.touchPieces k g.slot (c.tensor 1).pieces).gatherIndices (s.block.taskAccess k.half g c) (c.tensor 1) = .ok is → c.desc.pf 0 59 59 = 1 →
    is.find? (fun x => !(inTable (c.tensor 0) x)) = some x →
    (i, c.desc.pf 0 63 60) ∈ [(Instr.gather k, 0), (.scatter k, 1), (.scatterAdd k, 2), (.scatterMax k, 3), (.scatterMin k, 4)] →
    ∃ t, exec i s = .next t ∧ t.pending = s.pending ∧ Ended t.block k stShapeOver ∧ t.block.mem = s.block.mem ∧ t.block.regs = s.block.regs)

/-- R48, R203, R205-R207, R209, R215, R219, R220: the tier moves. -/
def Obligations.TierMoveTasks : Prop :=
  (∀ (s : State) (k : TaskRef) (g : Graph) (c : TaskCtx) (cells : List Host.Cell), Runs s.block k 0x06 g c → c.desc.moveMode = 0 →
    (s.block.touch k g c).copyCells (s.block.taskAccess k.half g c) (c.tensor 0) (c.tensor 1) = .ok cells → s.block.badHits cells = [] →
    ∃ t, exec (.copy k) s = .next t ∧ Lands s t k cells stOk ∧ (∀ a, a ≠ tierReg k.half 0x28 → t.block.reg a = s.block.reg a)) ∧
  (∀ (s : State) (k : TaskRef) (g : Graph) (c : TaskCtx) (i : Nat), Runs s.block k 0x06 g c → c.desc.moveMode = 1 → Shaped s.block →
    NoRecordWaits s.block g.job → anyMapped (s.block.slot g.slot).pages c.desc.moveVa c.desc.moveLength = false →
    s.block.entriesUsed + c.desc.moveLength / c.desc.pageSize ≤ 4194304 → 3 ≤ c.desc.moveTier → i < c.desc.moveLength / c.desc.pageSize →
    ∃ t, exec (.map k) s = .next t ∧ t.pending = s.pending ∧ Ended t.block k stOk ∧
      tabFind (t.block.slot g.slot).pages ((c.desc.moveVa + i * c.desc.pageSize) / frameSize) =
        some { target := c.desc.moveFar + i * c.desc.pageSize, big := decide (c.desc.pf 0 56 56 = 1), writable := false,
               noPrefetch := decide (c.desc.pf 0 54 54 = 1), handle := 0 } ∧
      t.block.mem = s.block.mem ∧ t.block.regs = s.block.regs) ∧
  (∀ (s : State) (k : TaskRef) (g : Graph) (c : TaskCtx) (frames : List Nat) (b : Block), Runs s.block k 0x06 g c → c.desc.moveMode = 1 →
    Shaped s.block → NoRecordWaits s.block g.job → anyMapped (s.block.slot g.slot).pages c.desc.moveVa c.desc.moveLength = false →
    s.block.entriesUsed + c.desc.moveLength / c.desc.pageSize ≤ 4194304 → c.desc.moveTier < 3 →
    s.block.allocate c.desc.moveHalf c.desc.moveTier g.slot (c.desc.pf 0 56 56 = 1) (g.slot.val + 1) (c.desc.moveLength / c.desc.pageSize) =
      .ok frames b → Runs b k 0x06 g c → NoRecordWaits b g.job → Shaped b →
    ∃ t, exec (.map k) s = .next t ∧ t.pending = s.pending ∧ Ended t.block k stOk ∧
      (∀ p ∈ homePages c.desc frames, tabFind (t.block.slot g.slot).pages p.1 = some p.2) ∧
      (∀ f ∈ frames, ∀ a, f ≤ a → a < f + c.desc.pageSize → t.block.byte a = 0) ∧
      (∀ a, (∀ f ∈ frames, ¬(f ≤ a ∧ a < f + c.desc.pageSize)) → t.block.byte a = s.block.byte a)) ∧
  (∀ (s : State) (k : TaskRef) (g : Graph) (c : TaskCtx) (keys : List Nat), Runs s.block k 0x06 g c → c.desc.moveMode = 2 →
    NoRecordWaits s.block g.job → pagesIn (s.block.slot g.slot).pages c.desc.moveVa c.desc.moveLength = some keys →
    (∀ key ∈ keys, c.desc.moveVa ≤ key * frameSize ∧ ∃ p, tabFind (s.block.slot g.slot).pages key = some p ∧
      key * frameSize + (if p.big then 0x40000000 else frameSize) ≤ c.desc.moveVa + c.desc.moveLength) →
    ∃ t, exec (.unmap k) s = .next t ∧ t.pending = s.pending ∧ Ended t.block k stOk ∧
      (∀ key ∈ keys, tabFind (t.block.slot g.slot).pages key = none) ∧ t.block.mem = s.block.mem ∧ t.block.regs = s.block.regs) ∧
  (∀ (s : State) (k : TaskRef) (g : Graph) (c : TaskCtx) (i : Nat) (o : CacheObject), Runs s.block k 0x06 g c → c.desc.moveMode = 3 →
    c.stage = 0 → Shaped s.block →
    s.block.sharedObject c.desc.moveHalf g.job c.desc.moveObject c.desc.moveVersion c.desc.moveTier = some (i, o) → o.filling = none →
    s.block.object i = some o → anyMapped (s.block.slot g.slot).pages c.desc.moveVa (o.frames.length * frameSize) = false →
    s.block.entriesUsed + o.frames.length ≤ 4194304 →
    ∃ t, exec (.fill k) s = .next t ∧ t.pending = s.pending ∧ Ended t.block k stOk ∧
      (∀ p ∈ objectPages i c.desc.moveVa (c.desc.pf 0 54 54 = 1) o.frames, tabFind (t.block.slot g.slot).pages p.1 = some p.2) ∧
      (∃ x, t.block.object i = some x ∧ x.mappings = o.mappings ++ [(g.slot.val, c.desc.moveVa)] ∧ x.frames = o.frames) ∧
      t.block.mem = s.block.mem ∧ t.block.regs = s.block.regs) ∧
  (∀ (s : State) (k : TaskRef) (g : Graph) (c : TaskCtx) (frames : List Nat) (b : Block), Runs s.block k 0x06 g c → c.desc.moveMode = 3 →
    c.stage = 0 → s.block.sharedObject c.desc.moveHalf g.job c.desc.moveObject c.desc.moveVersion c.desc.moveTier = none →
    anyMapped (s.block.slot g.slot).pages c.desc.moveVa (cdiv c.desc.moveLength frameSize * frameSize) = false →
    (farTier c.desc.moveFar = 4 ∧ c.desc.moveFar % 2 ^ 60 + c.desc.moveLength ≤ 2 ^ 60 ∧ dirHolds (s.block.tiers k.half).mainland g.job
        c.desc.moveObject c.desc.moveVersion (c.desc.moveFar % 2 ^ 60) c.desc.moveLength = true ∨
      farTier c.desc.moveFar = 3 ∧ c.desc.moveFar % 2 ^ 44 + c.desc.moveLength ≤ 2 ^ 44 ∧
        s.block.routable k.half (bits c.desc.moveFar 59 44) 0 = true ∧ ¬ s.block.domain.lost.contains (bits c.desc.moveFar 59 44 / 8)) →
    (s.block.tiers c.desc.moveHalf).objects.length < 65536 → 0 < c.desc.moveLength →
    s.block.allocate c.desc.moveHalf c.desc.moveTier g.slot false (0x200 + g.slot.val) (cdiv c.desc.moveLength frameSize) = .ok frames b →
    b.task k = some c →
    ∃ t o, exec (.fill k) s = .next t ∧ t.pending = s.pending ∧
      tabFind (t.block.tiers c.desc.moveHalf).objects (b.newHandle c.desc.moveHalf) = some o ∧ o.frames = frames ∧ o.filling = some k ∧
      o.job = g.job ∧ o.object = c.desc.moveObject ∧ o.version = c.desc.moveVersion ∧ o.length = c.desc.moveLength ∧
      t.block.task k = some { c with stage := 1, sent := (fillReads k c.desc.moveFar c.desc.moveLength).length, acked := 0,
                                               refs := [b.newHandle c.desc.moveHalf] } ∧
      ∀ r ∈ fillReads k c.desc.moveFar c.desc.moveLength, Asked t.block k.half r) ∧
  (∀ (s : State) (k : TaskRef) (g : Graph) (c : TaskCtx) (i : Nat) (m : Nat × Nat) (o : CacheObject), Runs s.block k 0x06 g c →
    c.desc.moveMode = 4 → s.block.mappingAt g.slot c.desc.moveVa = some (i, m) → s.block.object i = some o →
    ∃ t, exec (.drop k) s = .next t ∧ t.pending = s.pending ∧ Ended t.block k stOk ∧
      (∀ key ∈ o.pageKeys m.2, tabFind (t.block.slot g.slot).pages key = none) ∧ t.block.mem = s.block.mem ∧ t.block.regs = s.block.regs) ∧
  (∀ (s : State) (k : TaskRef) (g : Graph) (c : TaskCtx) (v : Nat) (cells : List Host.Cell), Runs s.block k 0x06 g c → c.desc.moveMode = 5 →
    (farTier c.desc.moveFar = 4 ∧ v = dirState (s.block.tiers k.half).mainland g.job c.desc.moveObject c.desc.moveVersion (c.desc.moveFar % 2 ^ 60) ∨
      farTier c.desc.moveFar ≠ 4 ∧ ∃ x : Byte, tabFind c.farBuf c.desc.moveFar = some x ∧ v = x.toNat) →
    s.block.rowCells (s.block.taskAccess k.half g c) (c.tensor 0) (0, 0, 0, 0) { codes := [v], scales := [], stats := ConvStats.zero } = .ok cells →
    s.block.badHits cells = [] →
    ∃ t, exec (.query k) s = .next t ∧ Lands s t k cells stOk ∧ t.block.regs = s.block.regs) ∧
  (∀ (s : State) (k : TaskRef) (g : Graph) (c : TaskCtx) (i : Nat) (m : Nat × Nat) (o : CacheObject), Runs s.block k 0x06 g c →
    c.desc.moveMode = 6 → s.block.mappingAt g.slot c.desc.moveVa = some (i, m) → s.block.object i = some o →
    ∃ t x, exec (.setPin k) s = .next t ∧ t.pending = s.pending ∧ Ended t.block k stOk ∧ t.block.object i = some x ∧
      x.pin = decide (c.desc.pf 0 55 55 = 1) ∧ x.frames = o.frames ∧ x.mappings = o.mappings ∧ t.block.mem = s.block.mem ∧
      t.block.regs = s.block.regs) ∧
  (∀ (s : State) (k : TaskRef) (g : Graph) (c : TaskCtx) (i : Instr), Runs s.block k 0x06 g c →
    (i = .drop k ∧ c.desc.moveMode = 4 ∨ i = .setPin k ∧ c.desc.moveMode = 6) → s.block.mappingAt g.slot c.desc.moveVa = none →
    ∃ t, exec i s = .next t ∧ t.pending = s.pending ∧ Ended t.block k stXlate ∧ t.block.mem = s.block.mem)

/-- R212, R214, R216, R220: publications. -/
def Obligations.PublicationTasks : Prop :=
  (∀ (s : State) (k : TaskRef) (g : Graph) (c : TaskCtx) (i : Instr) (op n : Nat) (data : List Byte),
    c.stage = 0 → farTier c.desc.moveFar = 3 →
    (i = .publish k ∧ Runs s.block k 0x07 g c ∧ c.desc.moveMode = 0 ∧ op = 0x11 ∧ n = 0 ∧
        s.block.homeSource g.slot c.desc.moveVa c.desc.moveLength = true ∧
        data = versionWord c.desc.moveObject c.desc.moveVersion ++ leBytes 8 c.desc.moveLength ∨
      i = .retire k ∧ Runs s.block k 0x07 g c ∧ c.desc.moveMode = 1 ∧ op = 0x16 ∧ n = 0 ∧
        data = versionWord c.desc.moveObject c.desc.moveVersion ∨
      i = .query k ∧ Runs s.block k 0x06 g c ∧ c.desc.moveMode = 5 ∧ tabFind c.farBuf c.desc.moveFar = none ∧ op = 0x15 ∧ n = 4 ∧
        data = versionWord c.desc.moveObject c.desc.moveVersion) →
    s.block.routable k.half (bits c.desc.moveFar 59 44) 0 = true → ¬ s.block.domain.lost.contains (bits c.desc.moveFar 59 44 / 8) →
    ∃ t, exec i s = .next t ∧ t.pending = s.pending ∧ t.block.task k = some { c with stage := 1 } ∧
      Asked t.block k.half (farRequest (some k) op c.desc.moveFar n data) ∧ t.block.mem = s.block.mem) ∧
  (∀ (s : State) (k : TaskRef) (g : Graph) (c : TaskCtx) (l : List FarEntry) (data : List Byte), Runs s.block k 0x07 g c →
    c.desc.moveMode = 0 → c.stage = 0 → farTier c.desc.moveFar = 4 → farTier (c.desc.moveFar + c.desc.moveLength) = 4 →
    s.block.homeSource g.slot c.desc.moveVa c.desc.moveLength = true →
    dirAdd (s.block.tiers k.half).reading (s.block.tiers k.half).mainland
      { job := g.job, object := c.desc.moveObject, version := c.desc.moveVersion, base := c.desc.moveFar % 2 ^ 60,
        length := c.desc.moveLength, st := farPending, lastActive := s.block.tide k.half } = .ok l →
    s.block.rdN (s.block.taskAccess k.half g c) 8 c.desc.moveVa c.desc.moveLength = .ok data →
    ∃ t, exec (.publish k) s = .next t ∧ t.pending = s.pending ∧ t.block.task k = some { c with stage := 4 } ∧
      (t.block.tiers k.half).mainland = l ∧ t.block.mem = s.block.mem ∧
      t.block.hostMem = hostPutList (hostPutList s.block.hostMem (c.desc.moveFar % 2 ^ 60) data) (c.desc.moveFar % 2 ^ 60 + c.desc.moveLength)
        (commitRecord g.job c.desc.moveObject c.desc.moveVersion c.desc.moveLength (crc64 data) (s.block.tide k.half)) ∧
      Asked t.block k.half (farRequest (some k) 0x13 (c.desc.moveFar + c.desc.moveLength) 64 [])) ∧
  (∀ (s : State) (k : TaskRef) (g : Graph) (c : TaskCtx), Runs s.block k 0x07 g c → c.desc.moveMode = 1 → c.stage = 0 →
    farTier c.desc.moveFar = 4 →
    dirState (s.block.tiers k.half).mainland g.job c.desc.moveObject c.desc.moveVersion (c.desc.moveFar % 2 ^ 60) = farCommitted →
    ∃ t, exec (.retire k) s = .next t ∧ t.pending = s.pending ∧ Ended t.block k stOk ∧
      dirState (t.block.tiers k.half).mainland g.job c.desc.moveObject c.desc.moveVersion (c.desc.moveFar % 2 ^ 60) = farRetired ∧
      t.block.mem = s.block.mem ∧ t.block.regs = s.block.regs) ∧
  (∀ (s : State) (k : TaskRef) (g : Graph) (c : TaskCtx) (h : HalfId) (tag : Nat) (r : Request) (l : List Byte), Runs s.block k 0x07 g c →
    c.desc.moveMode = 0 → c.stage = 4 → tabFind (s.block.tiers h).tags tag = some r → r.task = some k →
    (r.dest = .mainland ∨ ∃ e, r.dest = .endpoint e) →
    ∃ t, exec (.requestResponse h tag stOk l) s = .next t ∧ t.pending = s.pending ∧ Ended t.block k stOk ∧
      tabFind (t.block.tiers h).tags tag = none ∧ t.block.mem = s.block.mem ∧
      (farTier c.desc.moveFar = 4 → (t.block.tiers k.half).mainland = dirSet (s.block.tiers k.half).mainland g.job c.desc.moveObject
        c.desc.moveVersion (some farCommitted) (s.block.tide k.half)))

/-- R207, R214, R217, R218, R391: lending. -/
def Obligations.LendingCommands : Prop :=
  (∀ (s : State) (p : Path) (h : HalfId) (job : Fin 4096) (w : List (Nat × Byte)) (a : Actor) (x : Block) (l : List FarEntry),
    Arrives (s.block.hostAnnounce w) p [1, 2] a x →
    dirAdd (s.block.tiers h).reading (s.block.tiers h).mainland
      { job := job.val, object := s.block.regFld (tierReg h 0x210) 63 32, version := s.block.regFld (tierReg h 0x210) 31 0,
        base := s.block.regFld (tierReg h 0x200) 59 0, length := s.block.regFld (tierReg h 0x208) 47 0, st := farCommitted,
        lastActive := s.block.tide h } = .ok l →
    ∃ t, exec (.mainRegister p h job w) s = .next t ∧ t.pending = s.pending ∧ (t.block.tiers h).mainland = l ∧ t.block.mem = s.block.mem ∧
      (∀ y, ¬ mailboxReg y → t.block.reg y = s.block.reg y) ∧ Answers t.block p stOk) ∧
  (∀ (s : State) (p : Path) (h : HalfId) (job : Fin 4096) (a : Actor) (x : Block), Arrives s.block p [1, 2] a x →
    dirState (s.block.tiers h).mainland job.val (s.block.regFld (tierReg h 0x210) 63 32) (s.block.regFld (tierReg h 0x210) 31 0)
      (s.block.regFld (tierReg h 0x200) 59 0) = farCommitted →
    ∃ t, exec (.mainRetire p h job) s = .next t ∧ t.pending = s.pending ∧
      dirState (t.block.tiers h).mainland job.val (s.block.regFld (tierReg h 0x210) 63 32) (s.block.regFld (tierReg h 0x210) 31 0)
        (s.block.regFld (tierReg h 0x200) 59 0) = farRetired ∧
      t.block.mem = s.block.mem ∧ (∀ y, ¬ mailboxReg y → t.block.reg y = s.block.reg y) ∧ Answers t.block p stOk) ∧
  (∀ (s : State) (p : Path) (h : HalfId) (a : Actor) (x : Block), Arrives s.block p [1, 2] a x → (s.block.window h).st = 1 →
    ∃ t, exec (.lendRevoke p h) s = .next t ∧ t.pending = s.pending ∧
      t.block.window h = { s.block.window h with st := 2, tEnd := s.block.tide h + 10000000 } ∧ t.block.mem = s.block.mem ∧
      Answers t.block p stOk) ∧
  (∀ (s : State) (m : Envelope) (h : HalfId) (gib : Fin 256) (a : Actor) (x : Block), Arrives s.block (.zilsy m) [2] a x → gib.val ≤ 128 →
    s.block.flash.audit.length < 64512 →
    ∃ t, exec (.lendEnClear (.zilsy m) h gib) s = .next t ∧ t.pending = s.pending ∧
      t.block.reg (tierReg h 0x40) = BitVec.ofNat 64 gib.val ∧
      (t.block.window h).st = (if (s.block.window h).st = 1 then 2 else (s.block.window h).st) ∧
      t.block.flash.audit.length = s.block.flash.audit.length + 1 ∧ t.block.mem = s.block.mem ∧ Answers t.block (.zilsy m) stOk) ∧
  (∀ (s : State) (m : Envelope) (h : HalfId) (gib : Fin 256) (a : Actor) (x y : Block) (frames : List Nat) (z : Block),
    Arrives s.block (.zilsy m) [2] a x → 0 < gib.val → gib.val ≤ 128 → s.block.regFld (tierReg h 0x40) 8 8 = 0 →
    (s.block.window h).st ≠ 1 → (s.block.window h).st ≠ 2 →
    x.audited a { kind := 0x01, target := tierReg h 0x40, old := (s.block.reg (tierReg h 0x40)).toNat, new := 256 + gib.val }
      (fun b => b.setReg (tierReg h 0x40) (BitVec.ofNat 64 (256 + gib.val))) = (y, true) →
    y.allocFrames h 2 false 0x100 (gib.val * 512) = .ok frames z →
    ∃ t, exec (.lendEnSet m h gib) s = .next t ∧ t.pending = s.pending ∧
      t.block.reg (tierReg h 0x40) = BitVec.ofNat 64 (256 + gib.val) ∧
      t.block.window h = { st := 1, frames := frames, tEnd := 0, dir := [] } ∧
      (∀ f ∈ frames, ∀ i, f ≤ i → i < f + frameSize → t.block.byte i = 0) ∧ Answers t.block (.zilsy m) stOk) ∧
  (∀ (s : State) (h : HalfId), (s.block.window h).st = 2 → (s.block.window h).tEnd ≤ s.block.tide h →
    ∃ t, exec (.revocationEnd h) s = .next t ∧ t.pending = s.pending ∧ t.block.window h = { s.block.window h with dir := [] } ∧
      t.block.mem = s.block.mem ∧ t.block.regs = s.block.regs) ∧
  (∀ (s : State) (h : HalfId), (s.block.window h).st = 2 → (s.block.window h).tEnd ≤ s.block.tide h → (s.block.window h).dir = [] →
    ∃ t, exec (.revocationDone h) s = .next t ∧ t.pending = s.pending ∧
      t.block.window h = { s.block.window h with st := 3, frames := [] } ∧
      (∀ f ∈ (s.block.window h).frames, tabFind (t.block.tiers (homeOf f)).frames f = none) ∧ t.block.mem = s.block.mem ∧
      t.block.regs = s.block.regs) ∧
  (∀ (s : State) (h : HalfId) (p : Packet), Admits s.block h p 5 [0x05] →
    ∃ t, exec (.revocationNotice h p) s = .next t ∧ t.pending = s.pending ∧
      tabFind (t.block.tiers h).revoking (pkSrc p) = some (leNat (p.payload.take 8)) ∧ t.block.mem = s.block.mem) ∧
  (∀ (s : State) (h : HalfId) (lender tEnd : Nat) (hit : List Nat), tabFind (s.block.tiers h).revoking lender = some tEnd →
    tEnd ≤ s.block.tide h →
    hit = ((s.block.tiers h).objects.filter (fun p => p.2.filling.isNone && farTier p.2.far = 3 && bits p.2.far 59 44 = lender)).map (fun p => p.1) →
    ∃ t, exec (.borrowerDrop h lender) s = .next t ∧ t.pending = s.pending ∧ tabFind (t.block.tiers h).revoking lender = none ∧
      (∀ i ∈ hit, ∀ o, t.block.object i = some o → o.mappings = []) ∧
      t.block.regFld (tierReg h 0x58) 63 32 = min (s.block.regFld (tierReg h 0x58) 63 32 + hit.length) (2 ^ 32 - 1) ∧
      (∀ y, y ≠ tierReg h 0x58 → t.block.reg y = s.block.reg y) ∧ t.block.mem = s.block.mem) ∧
  (∀ (s : State) (h : HalfId) (job : Fin 4096) (obj ver : Nat) (e : FarEntry), dirFind (s.block.window h).dir job.val obj ver = some e →
    e.st = farPending → e.lastActive + 100000000 ≤ s.block.tide h →
    ∃ t, exec (.pendingReap h job obj ver) s = .next t ∧ t.pending = s.pending ∧ dirFind (t.block.window h).dir job.val obj ver = none ∧
      t.block.regFld (tierReg h 0x58) 31 0 = min (s.block.regFld (tierReg h 0x58) 31 0 + 1) (2 ^ 32 - 1) ∧
      (∀ y, y ≠ tierReg h 0x58 → t.block.reg y = s.block.reg y) ∧ t.block.mem = s.block.mem)

/-- R210-R213, R218, R220, R318: the lender's packets. -/
def Obligations.FarPackets : Prop :=
  (∀ (s : State) (h : HalfId) (p : Packet) (n : Nat), Admits s.block h p 0 [0x10] → readCount p = some n → s.block.windowServes h = true →
    dirServes (s.block.window h).dir (pkJob p) (pkAddr p) n = true →
    (∀ a ∈ (s.block.window h).addrs (pkAddr p) n, tabFind s.block.bad (granuleBase a) = none) →
    ∃ t, exec (.farRead h p) s = .next t ∧ t.pending = s.pending ∧ t.block.mem = s.block.mem ∧
      t.block = ((s.block.unbuffer h p).takeSeq h p).respond h p stOk (((s.block.window h).addrs (pkAddr p) n).map (fun a => s.block.byte a))) ∧
  (∀ (s : State) (h : HalfId) (p : Packet) (n : Nat), Admits s.block h p 0 [0x10] → readCount p = some n →
    (s.block.windowServes h = false ∨ dirServes (s.block.window h).dir (pkJob p) (pkAddr p) n = false) →
    ∃ t, exec (.farRead h p) s = .next t ∧ t.pending = s.pending ∧
      t.block = ((s.block.unbuffer h p).takeSeq h p).respond h p stFarFail []) ∧
  (∀ (s : State) (h : HalfId) (p : Packet) (l : List FarEntry), Admits s.block h p 0 [0x11] → p.payload.length = 16 →
    (s.block.window h).st = 1 → pkAddr p + leNat (p.payload.drop 8) ≤ (s.block.window h).frames.length * frameSize →
    dirAdd (fun _ => false) (s.block.window h).dir
      { job := pkJob p, object := pkObject p, version := pkVersion p, base := pkAddr p, length := leNat (p.payload.drop 8), st := farPending,
        lastActive := s.block.tide h } = .ok l →
    ∃ (t : State) (y : Block), exec (.farReserve h p) s = .next t ∧ t.pending = s.pending ∧ t.block = y.respond h p stOk [] ∧
      y.window h = { s.block.window h with dir := l } ∧ (t.block.window h).dir = l ∧ t.block.mem = s.block.mem) ∧
  (∀ (s : State) (h : HalfId) (p : Packet) (e : FarEntry), Admits s.block h p 0 [0x12] → writeOk p = true → s.block.windowServes h = true →
    e ∈ (s.block.window h).dir → e.job = pkJob p → e.st = farPending → e.base ≤ pkAddr p → pkAddr p + p.payload.length ≤ e.base + e.length →
    s.block.badHits (((s.block.window h).addrs (pkAddr p) p.payload.length).zip p.payload) = [] →
    ∃ (t : State) (y : Block), exec (.farWrite h p) s = .next t ∧ t.pending = s.pending ∧ t.block = y.respond h p stOk [] ∧
      Landed s.block t.block (((s.block.window h).addrs (pkAddr p) p.payload.length).zip p.payload)) ∧
  (∀ (s : State) (h : HalfId) (p : Packet) (i : Instr) (op st : Nat), Admits s.block h p 0 [op] → p.payload.length = 8 →
    s.block.windowServes h = true →
    (i = .farCommit h p ∧ op = 0x13 ∧ st = farCommitted ∧
        dirState (s.block.window h).dir (pkJob p) (pkObject p) (pkVersion p) (pkAddr p) = farPending ∨
      i = .farRetire h p ∧ op = 0x16 ∧ st = farRetired ∧
        dirState (s.block.window h).dir (pkJob p) (pkObject p) (pkVersion p) (pkAddr p) = farCommitted) →
    ∃ (t : State) (y : Block), exec i s = .next t ∧ t.pending = s.pending ∧ t.block = y.respond h p stOk [] ∧
      dirState (t.block.window h).dir (pkJob p) (pkObject p) (pkVersion p) (pkAddr p) = st ∧ t.block.mem = s.block.mem) ∧
  (∀ (s : State) (h : HalfId) (p : Packet), Admits s.block h p 0 [0x14] → p.payload.length = 8 → s.block.windowServes h = true →
    dirState (s.block.window h).dir (pkJob p) (pkObject p) (pkVersion p) (pkAddr p) = farPending →
    ∃ (t : State) (y : Block), exec (.farAbort h p) s = .next t ∧ t.pending = s.pending ∧ t.block = y.respond h p stOk [] ∧
      dirFind (t.block.window h).dir (pkJob p) (pkObject p) (pkVersion p) = none ∧ t.block.mem = s.block.mem) ∧
  (∀ (s : State) (h : HalfId) (p : Packet), Admits s.block h p 0 [0x15] → p.payload.length = 8 → s.block.windowServes h = true →
    ∃ t, exec (.farQuery h p) s = .next t ∧ t.pending = s.pending ∧
      t.block = ((s.block.unbuffer h p).takeSeq h p).respond h p stOk
        (leBytes 4 (dirState (s.block.window h).dir (pkJob p) (pkObject p) (pkVersion p) (pkAddr p)))) ∧
  (∀ (s : State) (h : HalfId) (p : Packet) (i : Instr) (op : Nat), Admits s.block h p 0 [op] → p.payload.length = 8 →
    s.block.windowServes h = false → (i, op) ∈ [(Instr.farCommit h p, 0x13), (.farAbort h p, 0x14), (.farQuery h p, 0x15), (.farRetire h p, 0x16)] →
    ∃ t, exec i s = .next t ∧ t.pending = s.pending ∧ t.block = ((s.block.unbuffer h p).takeSeq h p).respond h p stFarFail []) ∧
  (∀ (s : State) (h : HalfId) (p : Packet) (i : Instr), 
    (i = .farReserve h p ∧ Admits s.block h p 0 [0x11] ∧ p.payload.length = 16 ∧ (s.block.window h).st ≠ 1 ∨
      i = .farWrite h p ∧ Admits s.block h p 0 [0x12] ∧ writeOk p = true ∧ s.block.windowServes h = false) →
    ∃ t, exec i s = .next t ∧ t.pending = s.pending ∧ t.block = ((s.block.unbuffer h p).takeSeq h p).respond h p stFarFail [])

/-- R15, R216, R226, R228, R318: local packets and responses. -/
def Obligations.LocalMemoryPackets : Prop :=
  (∀ (s : State) (h : HalfId) (p : Packet) (n : Nat), Admits s.block h p 0 [0x01] → pkSrc p = s.block.otherEndpoint h → readCount p = some n →
    s.block.localRange h (pkAddr p) n = true → s.block.firstBad (pkAddr p) n = none →
    ∃ t, exec (.readRequest h p) s = .next t ∧ t.pending = s.pending ∧ t.block.mem = s.block.mem ∧
      t.block = ((s.block.unbuffer h p).takeSeq h p).respond h p stOk (s.block.bytes (pkAddr p) n)) ∧
  (∀ (s : State) (h : HalfId) (p : Packet), Admits s.block h p 0 [0x02] → pkSrc p = s.block.otherEndpoint h → writeOk p = true →
    s.block.localRange h (pkAddr p) p.payload.length = true →
    s.block.badHits ((p.payload.zip (List.range p.payload.length)).map (fun q => (pkAddr p + q.2, q.1))) = [] →
    ∃ (t : State) (y : Block), exec (.writeRequest h p) s = .next t ∧ t.pending = s.pending ∧ t.block = y.respond h p stOk [] ∧
      (∀ j, j < p.payload.length → t.block.byte (pkAddr p + j) = p.payload.getD j 0) ∧
      (∀ a, a < pkAddr p ∨ pkAddr p + p.payload.length ≤ a → t.block.byte a = s.block.byte a)) ∧
  (∀ (s : State) (h : HalfId) (p : Packet) (w n eb : Nat), Admits s.block h p 0 [0x03] → pkSrc p = s.block.otherEndpoint h →
    w = leNat (p.payload.take 8) → w < 8192 → bits w 7 2 = 0 → 8 < p.payload.length → n = p.payload.length - 8 →
    adderOk (pkAddr p) (bits w 1 0) (bits w 12 8) n = true → adderBytes (bits w 12 8) = some eb →
    s.block.localRange h (pkAddr p) n = true → s.block.firstBad (pkAddr p) n = none →
    ∃ (t : State) (y : Block), exec (.adderRequest h p) s = .next t ∧ t.pending = s.pending ∧ t.block = y.respond h p stOk [] ∧
      (∀ j, j < n → t.block.byte (pkAddr p + j) =
        (adderList (bits w 1 0) (bits w 12 8) eb (s.block.bytes (pkAddr p) n) (p.payload.drop 8) (n / eb)).getD j 0) ∧
      (∀ a, a < pkAddr p ∨ pkAddr p + n ≤ a → t.block.byte a = s.block.byte a)) ∧
  (∀ (s : State) (h : HalfId) (p : Packet) (i : Instr) (op : Nat), Admits s.block h p 0 [op] → pkSrc p ≠ s.block.otherEndpoint h →
    (i, op) ∈ [(Instr.readRequest h p, 0x01), (.writeRequest h p, 0x02), (.adderRequest h p, 0x03)] →
    ∃ t, exec i s = .next t ∧ t.pending = s.pending ∧ t.block = ((s.block.unbuffer h p).takeSeq h p).respond h p stPermission [] ∧
      t.block.mem = s.block.mem) ∧
  (∀ (s : State) (h : HalfId) (p : Packet) (r : Request) (k : TaskRef) (g : Graph) (c : TaskCtx),
    Admits s.block h p 1 [0x01, 0x02, 0x03, 0x10, 0x11, 0x12, 0x13, 0x14, 0x15, 0x16] → tabFind (s.block.tiers h).tags (pkTag p) = some r →
    s.block.answerer h r = some (pkSrc p) → r.op = pkOp p → r.task = some k → fld p.w2 15 0 = stOk → s.block.graph k.half k.graph = some g →
    s.block.task k = some c → c.phase = .running → (c.desc.type ≠ 6 ∨ c.desc.moveMode ≠ 3) → c.desc.type ≠ 7 →
    ∃ t d, exec (.response h p) s = .next t ∧ t.pending = s.pending ∧ tabFind (t.block.tiers h).tags (pkTag p) = none ∧
      t.block.task k = some d ∧ (∀ j, j < p.payload.length → tabFind d.farBuf (r.addr + j) = some (p.payload.getD j 0)) ∧
      t.block.mem = s.block.mem) ∧
  (∀ (s : State) (h : HalfId) (p : Packet) (r : Request) (k : TaskRef) (g : Graph) (c : TaskCtx),
    Admits s.block h p 1 [0x10, 0x11, 0x12, 0x13, 0x14, 0x15, 0x16] → tabFind (s.block.tiers h).tags (pkTag p) = some r →
    r.dest = .endpoint (pkSrc p) → r.op = pkOp p → r.task = some k → fld p.w2 15 0 = stOk → Runs s.block k 0x06 g c →
    c.desc.moveMode = 3 → c.acked + 1 ≠ c.sent → ∀ (j : Nat) (o : CacheObject) (off : Nat), c.refs.head? = some j → s.block.object j = some o →
    off = r.addr - c.desc.moveFar →
    ∃ t, exec (.response h p) s = .next t ∧ t.pending = s.pending ∧ tabFind (t.block.tiers h).tags (pkTag p) = none ∧
      t.block.task k = some { c with acked := c.acked + 1 } ∧
      t.block.mem = (s.block.store (o.frames.getD (off / frameSize) 0 + off % frameSize) p.payload).mem) ∧
  (∀ (s : State) (h : HalfId) (p : Packet) (r : Request) (k : TaskRef) (g : Graph) (c : TaskCtx) (st : Nat),
    Admits s.block h p 1 [0x01, 0x02, 0x03, 0x10, 0x11, 0x12, 0x13, 0x14, 0x15, 0x16] → tabFind (s.block.tiers h).tags (pkTag p) = some r →
    s.block.answerer h r = some (pkSrc p) → r.op = pkOp p → r.task = some k → fld p.w2 15 0 ≠ stOk → fld p.w2 15 0 ≠ stQuota →
    st = (match r.dest with | .endpoint _ => stFarFail | _ => fld p.w2 15 0) →
    s.block.graph k.half k.graph = some g → s.block.task k = some c → c.phase = .running →
    ∃ t, exec (.response h p) s = .next t ∧ t.pending = s.pending ∧ tabFind (t.block.tiers h).tags (pkTag p) = none ∧
      Ended t.block k st ∧ t.block.mem = s.block.mem)

/-- R236, R237, R247-R249, R252: refresh, scrub and the traffic generators. -/
def Obligations.RefreshScrubAndTestCommands : Prop :=
  (∀ (s : State) (h : HalfId) (ch : Fin 128) (bank : Fin 16), s.block.shelfTrained h = true →
    ∃ t, exec (.refreshDue h ch bank) s = .next t ∧ t.pending = s.pending ∧
      tabGet 0 (t.block.half h).refresh (16 * ch.val + bank.val) = (tabGet 0 (s.block.half h).refresh (16 * ch.val + bank.val) + 1) % 8192 ∧
      t.block.mem = s.block.mem ∧ t.block.bad = s.block.bad ∧ t.block.regs = s.block.regs) ∧
  (∀ (s : State) (h : HalfId) (since : Nat), s.block.regFld (shelfReg h 0) 3 2 ≠ 0 →
    (s.block.half h).cool.getD (s.block.regFld (shelfReg h 0) 3 2 - 1) none = some since → since + 100000000 ≤ s.block.sys.upNs →
    ∃ t, exec (.refreshBandRelax h) s = .next t ∧ t.pending = s.pending ∧
      t.block.regFld (shelfReg h 0) 3 2 = s.block.regFld (shelfReg h 0) 3 2 - 1 ∧
      (∀ a, a ≠ shelfReg h 0 → t.block.reg a = s.block.reg a) ∧ t.block.mem = s.block.mem) ∧
  (∀ (s : State) (h : HalfId) (upsets : List (Fin 64 × Upset)), s.block.shelfTrained h = true → s.block.regFld (shelfReg h 8) 32 32 ≠ 0 →
    s.block.sys.slack ≠ 2 → s.block.sys.slack ≠ 3 →
    ∃ t, exec (.scrubRead h upsets) s = .next t ∧ t.pending = s.pending ∧ t.block.mem = s.block.mem ∧
      (s.block.regFld (shelfReg h 0x10) 23 0 + 1 < 2 ^ 24 →
        t.block.regFld (shelfReg h 0x10) 23 0 = s.block.regFld (shelfReg h 0x10) 23 0 + 1 ∧
        t.block.regFld (shelfReg h 0x10) 63 32 = s.block.regFld (shelfReg h 0x10) 63 32) ∧
      (s.block.regFld (shelfReg h 0x10) 23 0 + 1 = 2 ^ 24 →
        t.block.regFld (shelfReg h 0x10) 23 0 = 0 ∧
        t.block.regFld (shelfReg h 0x10) 63 32 = (s.block.regFld (shelfReg h 0x10) 63 32 + 1) % 2 ^ 32) ∧
      (∀ word, (word, Upset.uncorrectable) ∈ upsets →
        (tabFind t.block.bad (0x200000000 + halfNum h * 0x200000000 + s.block.regFld (shelfReg h 0x10) 23 0 * 512 + 8 * word.val)).isSome = true)) ∧
  (∀ (s : State) (p : Path) (h : HalfId) (ch : Fin 160) (a : Actor) (x : Block) (i : Instr) (mode : Nat),
    (i = .tgWriteRead p h ch ∧ mode = 0 ∧ s.block.allDisabled = true ∨ i = .tgReadSweep p h ch ∧ mode = 1) →
    Arrives s.block p (s.block.testRoles h ch.val mode) a x →
    ∃ t, exec i s = .next t ∧ t.pending = s.pending ∧ t.block.regFld (chanReg h ch.val 0) 2 1 = mode ∧
      t.block.regFld (chanReg h ch.val 0x18) 63 62 = 1 ∧ t.block.reg (chanReg h ch.val 0x20) = 0 ∧ t.block.mem = s.block.mem ∧
      Answers t.block p stOk) ∧
  (∀ (s : State) (p : Path) (h : HalfId) (ch : Fin 160) (a : Actor) (x : Block), Arrives s.block p (s.block.testRoles h ch.val 2) a x →
    ∃ t, exec (.tgStop p h ch) s = .next t ∧ t.pending = s.pending ∧ Answers t.block p stOk ∧
      (s.block.regFld (chanReg h ch.val 0x18) 63 62 = 1 → t.block.regFld (chanReg h ch.val 0x18) 63 62 = 3) ∧
      (s.block.regFld (chanReg h ch.val 0x18) 63 62 ≠ 1 → t.block.reg (chanReg h ch.val 0x18) = s.block.reg (chanReg h ch.val 0x18)) ∧
      (∀ a, (∀ n, n < (s.block.testRange h ch.val).2 → ∀ j, j < 64 → a ≠ lineAddr h ch.val ((s.block.testRange h ch.val).1 + n) + j) →
        t.block.byte a = s.block.byte a)) ∧
  (∀ (s : State) (h : HalfId) (ch : Fin 160) (r : TgResult), s.block.regFld (chanReg h ch.val 0x18) 63 62 = 1 → s.block.sys.slack ≠ 2 →
    s.block.sys.slack ≠ 3 →
    ∃ t, exec (.tgDone h ch r) s = .next t ∧ t.pending = s.pending ∧ t.block.regFld (chanReg h ch.val 0x18) 63 62 = 2 ∧
      (s.block.regFld (chanReg h ch.val 0) 2 1 ≠ 0 → t.block.mem = s.block.mem) ∧
      (s.block.regFld (chanReg h ch.val 0) 2 1 = 0 → ∀ n, n < (s.block.testRange h ch.val).2 → ∀ j, j < 64 →
        t.block.byte (lineAddr h ch.val ((s.block.testRange h ch.val).1 + n) + j) =
          (patternLine (s.block.reg (chanReg h ch.val 8)) (s.block.testRange h ch.val).1 ((s.block.testRange h ch.val).1 + n)).getD j 0) ∧
      (∀ a, (∀ n, n < (s.block.testRange h ch.val).2 → ∀ j, j < 64 → a ≠ lineAddr h ch.val ((s.block.testRange h ch.val).1 + n) + j) →
        t.block.byte a = s.block.byte a) ∧
      (∀ a, a ≠ chanReg h ch.val 0x18 → a ≠ chanReg h ch.val 0x20 → t.block.reg a = s.block.reg a))

/-- R191, R257, R265, R273, R274, R281, R287, R294, R295, R302: media tasks. -/
def Obligations.MediaTasks : Prop :=
  (∀ (s : State) (k : TaskRef) (g : Graph) (c : TaskCtx), Runs s.block k 0x09 g c → c.desc.mediaOp = 3 →
    s.block.stream k.half c.desc.ctxNo = none →
    (∀ x : StreamCtx, x.fbCount = c.desc.pf 1 34 30 → x.maxW = c.desc.pf 1 63 50 → x.maxH = c.desc.pf 1 49 36 →
      x.bit10 = decide (c.desc.pf 1 35 35 = 1) → s.block.scratchOk g.slot (c.desc.pf 2 47 0) x.poolBytes = true) →
    ∃ t x, exec (.contextOpen k) s = .next t ∧ t.pending = s.pending ∧ Ended t.block k stOk ∧
      t.block.stream k.half c.desc.ctxNo = some x ∧ x.job = g.job ∧ x.codec = c.desc.pf 0 46 44 ∧ x.encoder = decide (c.desc.pf 0 43 43 = 1) ∧
      x.maxW = c.desc.pf 1 63 50 ∧ x.maxH = c.desc.pf 1 49 36 ∧ x.fbBase = c.desc.pf 2 47 0 ∧ x.fbCount = c.desc.pf 1 34 30 ∧
      x.live = false ∧ x.queue = [] ∧ t.block.mem = s.block.mem ∧ t.block.regs = s.block.regs) ∧
  (∀ (s : State) (k : TaskRef) (g : Graph) (c : TaskCtx) (x : StreamCtx), Runs s.block k 0x09 g c → c.desc.mediaOp = 4 →
    s.block.stream k.half c.desc.ctxNo = some x → x.job = g.job → s.block.holder k.half c.desc.ctxNo = some k →
    ∃ t, exec (.contextClose k) s = .next t ∧ t.pending = s.pending ∧ Ended t.block k stOk ∧ t.block.stream k.half c.desc.ctxNo = none ∧
      t.block.mem = s.block.mem ∧ t.block.regs = s.block.regs) ∧
  (∀ (s : State) (k : TaskRef) (g : Graph) (c : TaskCtx) (i : Instr),
    Runs s.block k 0x09 g c → (i = .contextClose k ∧ c.desc.mediaOp = 4 ∨ i = .decode k ∧ c.desc.mediaOp = 1 ∨ i = .encode k ∧ c.desc.mediaOp = 2) →
    s.block.stream k.half c.desc.ctxNo = none →
    ∃ t, exec i s = .next t ∧ t.pending = s.pending ∧ Ended t.block k stAdmission ∧ t.block.mem = s.block.mem ∧ t.block.regs = s.block.regs) ∧
  (∀ (s : State) (k : TaskRef) (g : Graph) (c : TaskCtx) (x : StreamCtx) (r : DecodeRun) (cells m d : List Host.Cell) (st : Nat),
    Runs s.block k 0x09 g c → c.desc.mediaOp = 1 →
    s.block.stream k.half c.desc.ctxNo = some x → s.block.holder k.half c.desc.ctxNo = some k →
    (s.block.touch k g c).fresh.2.decodeRun k g c x (s.block.touch k g c).fresh.1 = .ok r →
    (¬ (c.desc.pf 0 46 46 = 1 ∧ r.status.1 ∈ [stInputLimit, stInputCorrupt, stConcealed]) ∧ cells = r.cells ∧ st = r.status.1 ∨
      (c.desc.pf 0 46 46 = 1 ∧ r.status.1 ∈ [stInputLimit, stInputCorrupt, stConcealed]) ∧ cells = r.cells ++ m ++ d ∧ st = stOk ∧
        s.block.wrCells (s.block.taskAccess k.half g c) 8 (c.desc.pf 2 47 0 + 20) (leBytes 2 r.status.1) = .ok m ∧
        s.block.wrCells (s.block.taskAccess k.half g c) 8 (c.desc.pf 2 47 0 + 28) (leBytes 4 r.status.2.1) = .ok d) →
    s.block.badHits cells = [] →
    ∃ t, exec (.decode k) s = .next t ∧ Lands s t k cells st ∧
      t.block.stream k.half c.desc.ctxNo = some (if r.status.2.2 then r.clip.ctx else r.clip.ctx.fresh) ∧
      ∀ a, ¬ mediaReg k.half a → a ≠ tierReg k.half 0x28 → t.block.reg a = s.block.reg a) ∧
  (∀ (s : State) (k : TaskRef) (g : Graph) (c : TaskCtx) (x : StreamCtx) (r : EncodeRun), Runs s.block k 0x09 g c → c.desc.mediaOp = 2 →
    s.block.stream k.half c.desc.ctxNo = some x → s.block.holder k.half c.desc.ctxNo = some k →
    (s.block.touch k g c).encodeRun k g c x = .ok r → s.block.badHits r.cells = [] →
    ∃ t, exec (.encode k) s = .next t ∧ Lands s t k r.cells (if r.excess then stShapeOver else stOk) ∧
      t.block.stream k.half c.desc.ctxNo = some r.ctx ∧ ∀ a, ¬ mediaReg k.half a → a ≠ tierReg k.half 0x28 → t.block.reg a = s.block.reg a) ∧
  (∀ (s : State) (k : TaskRef) (picture rows : Nat) (g : Graph) (c : TaskCtx) (i : Instr) (key : Nat), Runs s.block k 0x09 g c →
    (i = .frameWatchdog k picture rows ∧ key = picture ∧ (c.desc.mediaOp = 1 ∨ c.desc.mediaOp = 0x14) ∨
      i = .imageWatchdog k rows ∧ key = 0 ∧ (c.desc.mediaOp = 0x10 ∨ c.desc.mediaOp = 0x14)) →
    ∃ t, exec i s = .next t ∧ t.pending = s.pending ∧
      t.block.task k = some { c with watchdogs := tabPut c.watchdogs key rows } ∧ t.block.mem = s.block.mem ∧ t.block.regs = s.block.regs) ∧
  (∀ (s : State) (k : TaskRef) (g : Graph) (c : TaskCtx) (r : SampleRun) (i : Instr), Runs s.block k 0x09 g c → s.block.served k = true →
    (i = .imageDecode k ∧ c.desc.mediaOp = 0x10 ∧
        (s.block.touch k g c).fresh.2.imageRun k (s.block.taskAccess k.half g c) c (s.block.touch k g c).fresh.1 = .ok r ∨
      i = .audioDecode k ∧ c.desc.mediaOp = 0x11 ∧ ∃ pf, (s.block.touch k g c).rdN (s.block.taskAccess k.half g c) 8 (c.desc.pf 2 47 0) 32 = .ok pf ∧
        profileOk pf = true ∧ (s.block.touch k g c).audioRun k (s.block.taskAccess k.half g c) c (parseProfile pf) = .ok r) →
    s.block.badHits r.cells = [] →
    ∃ t, exec i s = .next t ∧ Lands s t k r.cells r.status ∧ (∃ d, t.block.task k = some d ∧ d.shapeOut = r.shapes) ∧
      ∀ a, ¬ mediaReg k.half a → a ≠ tierReg k.half 0x28 → t.block.reg a = s.block.reg a) ∧
  (∀ (s : State) (k : TaskRef) (g : Graph) (c : TaskCtx) (r : List Host.Cell × Nat), Runs s.block k 0x09 g c → c.desc.mediaOp = 0x12 →
    s.block.served k = true → (s.block.harbour k.half).mergeKey = some (c.desc.mergeKey g.job) →
    (s.block.touch k g c).textRun (s.block.taskAccess k.half g c) c (s.block.harbour k.half).mergeTable (s.block.regFld (inReg k.half 0x18) 26 0) =
      .ok (.ok r) → s.block.badHits r.1 = [] →
    ∃ t, exec (.tokeniseAndPack k) s = .next t ∧ Lands s t k r.1 stOk ∧ ∀ a, ¬ mediaReg k.half a → a ≠ tierReg k.half 0x28 → t.block.reg a = s.block.reg a) ∧
  (∀ (s : State) (k : TaskRef) (g : Graph) (c : TaskCtx) (ws : List Nat), Runs s.block k 0x09 g c → c.desc.mediaOp = 0x12 →
    s.block.served k = true → (s.block.harbour k.half).mergeKey ≠ some (c.desc.mergeKey g.job) →
    (∀ u ∈ (s.block.harbour k.half).mergeUsers, s.block.isRunning u = false) →
    mapRes (fun i => (s.block.touch k g c).rdNat ((s.block.touch k g c).taskAccess k.half g c) 8 (c.desc.pf 2 47 0 + 8 * i) 8)
      (List.range (c.desc.mergeKey g.job).2.2) = .ok ws → mergeFault ws = none →
    ∃ t, exec (.tableLoad k) s = .next t ∧ t.pending = s.pending ∧ (t.block.harbour k.half).mergeKey = some (c.desc.mergeKey g.job) ∧
      (t.block.harbour k.half).mergeTable = ws.map (fun w => (bits w 50 32, bits w 18 0)) ∧ t.block.task k = some { c with noted := true } ∧
      t.block.mem = s.block.mem ∧ ∀ a, a ≠ inReg k.half 0x28 → a ≠ tierReg k.half 0x28 → t.block.reg a = s.block.reg a) ∧
  (∀ (s : State) (k : TaskRef) (g : Graph) (c : TaskCtx) (r : CropRun), Runs s.block k 0x09 g c → c.desc.mediaOp = 0x13 →
    s.block.served k = true → (s.block.touch k g c).cropRun (s.block.taskAccess k.half g c) c = .ok r → s.block.badHits r.cells = [] →
    ∃ t, exec (.cropAndResize k) s = .next t ∧ Lands s t k r.cells stOk ∧
      ∀ a, ¬ mediaReg k.half a → a ≠ tierReg k.half 0x28 → a ≠ regBase k.half + 0x1C30100 → t.block.reg a = s.block.reg a)

/-- R297-R300: batches. -/
def Obligations.BatchCommands : Prop :=
  (∀ (s : State) (k : TaskRef) (g : Graph) (c : TaskCtx) (i : Nat), Runs s.block k 0x09 g c → c.desc.mediaOp = 0x14 → s.block.served k = true →
    c.batch = none → (s.block.touch k g c).batchStart (s.block.taskAccess k.half g c) c = .ok (.ok i) →
    ∃ t, exec (.batchAssemble k) s = .next t ∧ t.pending = s.pending ∧ t.block.task k = some { c with
        noted := true, batch := some ((s.block.touch k g c).handOver k.half (s.block.taskAccess k.half g c) c (BatchWork.start 0 i)) } ∧
      t.block.mem = s.block.mem ∧ ∀ a, a ≠ tierReg k.half 0x28 → t.block.reg a = s.block.reg a) ∧
  (∀ (s : State) (k : TaskRef) (g : Graph) (c : TaskCtx) (f : Nat × Nat), Runs s.block k 0x09 g c → c.desc.mediaOp = 0x14 →
    s.block.served k = true → c.batch = none → (s.block.touch k g c).batchStart (s.block.taskAccess k.half g c) c = .ok (.error f) →
    ∃ t, exec (.batchAssemble k) s = .next t ∧ t.pending = s.pending ∧ Ended t.block k f.1 ∧ t.block.mem = s.block.mem ∧
      ∀ a, a ≠ tierReg k.half 0x28 → t.block.reg a = s.block.reg a) ∧
  (∀ (s : State) (k : TaskRef) (g : Graph) (c d : TaskCtx) (w : BatchWork) (off : Nat) (l pf : List Byte) (augs : List AugRecord)
      (b : Block) (st det ch wd ht n u : Nat) (vs : List Nat), Runs s.block k 0x09 g c → c.desc.mediaOp = 0x14 → c.batch = some w → w.augment = false →
    s.block.sampleInput (s.block.taskAccess k.half g c) c w = .ok (off, some (l, augs, pf)) → augs ≠ [] →
    s.block.sampleUnit k.half c.desc w l = some u →
    s.block.fresh.2.tryDomain k g c w u l pf s.block.fresh.1 = .ok { block := b, done := n, res := .sample st det ch wd ht vs } → b.task k = some d →
    ∃ t, exec (.sampleDone k) s = .next t ∧ t.pending = s.pending ∧ t.block.mem = b.mem ∧
      t.block.task k = some { d with batch := some (Block.enterList c augs
        { w.note st det with unit := none, chans := ch, width := wd, height := ht, values := vs, augment := true }) }) ∧
  (∀ (s : State) (k : TaskRef) (g : Graph) (c : TaskCtx) (w : BatchWork) (off : Nat) (plan reserve : List Nat), Runs s.block k 0x09 g c →
    c.desc.mediaOp = 0x14 → c.batch = some w → w.augment = false →
    s.block.sampleInput (s.block.taskAccess k.half g c) c w = .ok (off, none) → w.attempt < 4 →
    (s.block.countSample k.half stInputCorrupt).indices (s.block.taskAccess k.half g c) (c.tensor 0) = .ok plan →
    (s.block.countSample k.half stInputCorrupt).indices (s.block.taskAccess k.half g c) (c.tensor 3) = .ok reserve →
    ∃ t, exec (.sampleDone k) s = .next t ∧ t.pending = s.pending ∧ t.block.mem = s.block.mem ∧
      t.block.task k = some { c with watchdogs := [], batch := some ((s.block.countSample k.half stInputCorrupt).handOver k.half
        (s.block.taskAccess k.half g c) c { w.note stInputCorrupt off with
          unit := none, attempt := w.attempt + 1,
          index := attemptIndex plan reserve (s.block.taskAccess k.half g c).seed (c.desc.pf 1 63 32) (c.desc.pf 1 31 0) w.pos (w.attempt + 1) }) } ∧
      ∀ a, ¬ mediaReg k.half a → a ≠ tierReg k.half 0x28 → t.block.reg a = s.block.reg a) ∧
  (∀ (s : State) (k : TaskRef) (g : Graph) (c : TaskCtx) (w : BatchWork) (off n m st det u : Nat) (l pf : List Byte) (augs : List AugRecord)
      (b : Block) (own cells : List Host.Cell), Runs s.block k 0x09 g c → c.desc.mediaOp = 0x14 → c.batch = some w → w.augment = false →
    s.block.sampleInput (s.block.taskAccess k.half g c) c w = .ok (off, some (l, augs, pf)) →
    s.block.sampleUnit k.half c.desc w l = some u →
    s.block.fresh.2.tryDomain k g c w u l pf s.block.fresh.1 = .ok { block := b, done := m, res := .cells st det own n } →
    Runs b k 0x09 g c → b.fresh.2.positionCells (s.block.taskAccess k.half g c) c (w.note st det) own b.fresh.1 = .ok cells →
    (c.tensor 0).ext 0 ≤ w.pos + 1 → b.badHits cells = [] →
    ∃ t, exec (.sampleDone k) s = .next t ∧ t.pending = s.pending ∧ Ended t.block k stOk ∧ Landed b t.block cells) ∧
  (∀ (s : State) (k : TaskRef) (g : Graph) (c : TaskCtx) (w : BatchWork) (augs : List AugRecord) (r : AugRecord) (i : Instr) (u : Nat → Nat)
      (w' : BatchWork), Runs s.block k 0x09 g c → c.desc.mediaOp = 0x14 → c.batch = some w → w.augment = true →
    s.block.augList (s.block.taskAccess k.half g c) c.desc = .ok augs → augs[w.op]? = some r →
    u = (fun n => drawU (s.block.taskAccess k.half g c).seed (c.desc.pf 1 63 32) w.op w.index n) →
    (i, r.code, w') ∈ [(Instr.resize k, 1, w.applyResize u r ((c.tensor 4).ext 1) ((c.tensor 4).ext 2)), (.flip k, 2, w.applyFlip u r),
      (.jitter k, 3, w.applyJitter u r), (.norm k, 4, w.applyNorm r), (.gain k, 5, w.applyGain u r),
      (.fmask k, 6, w.applyMask u r true w.width), (.tmask k, 7, w.applyMask u r false w.height)] →
    (w.op + 1 ≠ augs.length →
      ∃ t, exec i s = .next t ∧ t.pending = s.pending ∧ t.block.task k = some { c with batch := some { w' with op := w.op + 1 } } ∧
        t.block.mem = s.block.mem ∧ t.block.regs = s.block.regs) ∧
    (w.op + 1 = augs.length → (c.tensor 0).ext 0 ≤ w'.pos + 1 → ∀ cells,
      s.block.fresh.2.positionCells (s.block.taskAccess k.half g c) c { w' with op := w.op + 1 } [] s.block.fresh.1 = .ok cells →
      s.block.badHits cells = [] →
      ∃ t, exec i s = .next t ∧ Lands s t k cells stOk ∧ ∀ a, ¬ mediaReg k.half a → a ≠ tierReg k.half 0x28 → t.block.reg a = s.block.reg a))

/-- R376, R377, R390, R409, R460, R461. The layout of the checkpoint report is the model's (log entry 48). -/
def Obligations.HostSignalHintAndGateTasks : Prop :=
  (∀ (s : State) (k : TaskRef) (g : Graph) (c : TaskCtx) (q : Nat), Runs s.block k 0x0A g c → q = c.desc.pf 0 63 58 → Shaped s.block →
    (s.block.pair q).enabled = true → (s.block.pair q).job = g.job → (s.block.pair q).cqHeld < 2 ^ (s.block.pair q).cqLog2 →
    ∃ t, exec (.hostSignal k) s = .next t ∧ t.pending = s.pending ∧ Ended t.block k stOk ∧
      (∀ j, j < 32 → tabFind t.block.hostMem (s.block.regFld (pairReg q 8) 59 12 * 4096 + 32 * (s.block.pair q).cqTail + j) =
        some ((signalBytes (halfNum k.half) k.graph g c (s.block.pair q).cqPhase).getD j 0)) ∧
      (t.block.pair q).cqHeld = (s.block.pair q).cqHeld + 1 ∧
      (t.block.pair q).cqTail = ((s.block.pair q).cqTail + 1) % 2 ^ (s.block.pair q).cqLog2 ∧ t.block.mem = s.block.mem) ∧
  (∀ (s : State) (k : TaskRef) (g : Graph) (c : TaskCtx) (q : Nat), Runs s.block k 0x0A g c → q = c.desc.pf 0 63 58 →
    ((s.block.pair q).enabled = false ∧ c.stage = 0 ∨ (s.block.pair q).enabled = true ∧ (s.block.pair q).job ≠ g.job) →
    ∃ t, exec (.hostSignal k) s = .next t ∧ t.pending = s.pending ∧ Ended t.block k stPermission ∧ t.block.mem = s.block.mem ∧
      t.block.hostMem = s.block.hostMem) ∧
  (∀ (s : State) (k : TaskRef) (g : Graph) (c : TaskCtx), Runs s.block k 0x0E g c →
    ∃ t, exec (.powerHint k) s = .next t ∧ t.pending = s.pending ∧ Ended t.block k stOk ∧ t.block.mem = s.block.mem ∧
      (s.block.tide k.half ≤ c.desc.pf 0 63 0 + 1000 * c.desc.pf 1 63 48 →
        ∃ w, t.block.power.hints.getLast? = some w ∧ w.half = k.half ∧ w.stop = c.desc.pf 0 63 0 + 1000 * c.desc.pf 1 63 48 ∧
          w.start = c.desc.pf 0 63 0 - 1000 * s.block.regFld (pwrReg 0x20) 63 48 ∧ w.level = c.desc.pf 1 47 41 ∧
          w.opened = decide (w.start ≤ s.block.tide k.half)) ∧
      (c.desc.pf 0 63 0 + 1000 * c.desc.pf 1 63 48 < s.block.tide k.half → t.block.power = s.block.power) ∧
      ∀ a, a ≠ pwrReg 8 → t.block.reg a = s.block.reg a) ∧
  (∀ (s : State) (k : TaskRef) (g : Graph) (c : TaskCtx) (veto : Nat) (cells : List Host.Cell), Runs s.block k 0x0D g c →
    c.desc.pf 0 63 60 = 0 →
    (if c.desc.vetoEn then s.block.rdNat (s.block.taskAccess k.half g c) 1 (c.tensor 1).base 4 else .ok 0) = .ok veto →
    s.block.rowCells (s.block.taskAccess k.half g c) (c.tensor 0) (0, 0, 0, 0)
      { codes := (s.block.contribution k.half g c (decide (veto ≠ 0))).bytes.map (fun x => x.toNat), scales := [], stats := ConvStats.zero } =
      .ok cells → s.block.badHits cells = [] →
    ∃ t, exec (.updateGateCheck k) s = .next t ∧ Lands s t k cells stOk ∧
      ∀ a, a ≠ gateReg k.half (0x200 + 8 * g.slot.val) → a ≠ tierReg k.half 0x28 → t.block.reg a = s.block.reg a) ∧
  (∀ (s : State) (k : TaskRef) (g : Graph) (c : TaskCtx) (e : Nat), Runs s.block k 0x0D g c → c.desc.pf 0 63 60 = 1 →
    s.block.leaderEp k.half = some e →
    ∃ t, exec (.updateGateCheckpoint k) s = .next t ∧ t.pending = s.pending ∧ Ended t.block k stOk ∧ t.block.mem = s.block.mem ∧
      t.block = (s.block.manage k.half e 0x17 (leBytes 4 g.job ++ leBytes 4 g.step ++ leBytes 8 (c.desc.param 2).toNat ++
        leBytes 2 (c.desc.pf 1 63 48) ++ leBytes 2 (c.desc.pf 1 47 32) ++ leBytes 4 ((s.block.slot g.slot).participants k.half))).fix k stOk 0)

/-- R436, R456, R457, R459, R461-R465, R468, R473: power and heat. Weights and roundings are free (log entry 53). -/
def Obligations.PowerCommands : Prop :=
  (∀ (s : State) (w : PowerSample) (total : Int), s.block.sys.powerGood = true →
    total = (((s.block.usedEnergy w).map (fun e => e.2.2)).sum : Nat) + s.block.staticEnergy →
    ∃ t, exec (.powerWindow w) s = .next t ∧ t.pending = s.pending ∧ t.block.mem = s.block.mem ∧
      t.block.regFld (pwrReg 8) 63 48 = min (total / 2000).toNat 0xFFFF ∧
      t.block.regFld (pwrReg 8) 46 40 = min
        (s.block.power.target (2000 * (s.block.regFld (pwrReg 0) 10 0 : Nat))
          (total - ((w.core.map (fun c => coreEnergy s.block.svn (fun i => Config.counterEngine s.block.svn i % 3 = 0) c)).sum : Nat))
          (Config.fullIssue s.block.svn w.core)).1 (s.block.regFld (pwrReg 0x10) 40 34) ∧
      t.block.power.estCount = s.block.power.estCount + 1 ∧ t.block.halfA = s.block.halfA ∧ t.block.halfB = s.block.halfB) ∧
  (∀ (s : State) (m : MeterSample), s.block.sys.powerGood = true →
    ∃ t, exec (.meterCorrection m) s = .next t ∧ t.pending = s.pending ∧ t.block.mem = s.block.mem ∧
      (∀ r x, r < 14 → m.rails[r]? = some x →
        t.block.reg (zilReg (0x100 + 8 * r)) = BitVec.ofNat 64 (x.1 % 65536 * 2 ^ 48 + x.2 % 2 ^ 24 * 2 ^ 24 + 1)) ∧
      t.block.reg (zilReg 0x30) = BitVec.ofNat 64 (m.vin % 65536 * 2 ^ 48 + m.iin % 2 ^ 24 * 2 ^ 24 + m.pin % 2 ^ 24) ∧
      t.block.power.meter = s.block.power.meter + m.pin ∧ t.block.power.estCount = 0 ∧ t.block.power.estSum = 0 ∧
      (s.block.zilsy.up = false → t.block.power.correction = s.block.power.correction)) ∧
  (∀ (s : State) (temps chans : List Int) (coolant : Option Int), s.block.sys.powerGood = true →
    ∃ t, exec (.tjSample temps chans coolant) s = .next t ∧ t.pending = s.pending ∧
      (∀ i x, i < 128 → temps[i]? = some x →
        t.block.regFld (zilReg (0x200 + 8 * i)) 15 0 = (BitVec.ofInt 16 (s.block.calibrated i x)).toNat) ∧
      ((∃ i, i < 128 ∧ 1840 ≤ sext 16 (t.block.regFld (zilReg (0x200 + 8 * i)) 15 0)) →
        t.block.sys.powerGood = false ∧ t.block.sys.faultPin = true ∧ t.block.regFld (pwrReg 0x10) 33 33 = 1) ∧
      ((∀ i, i < 128 → sext 16 (t.block.regFld (zilReg (0x200 + 8 * i)) 15 0) < 1840) →
        t.block.mem = s.block.mem ∧ t.block.sys = s.block.sys)) ∧
  (∀ (s : State) (since : Nat), s.block.sys.powerGood = true → s.block.regFld (pwrReg 0x10) 40 34 < 64 → s.block.power.coolFrom = some since →
    since + 1000000 ≤ s.block.sys.upNs →
    ∃ t, exec .thermalRecoverStep s = .next t ∧ t.pending = s.pending ∧
      t.block.regFld (pwrReg 0x10) 40 34 = s.block.regFld (pwrReg 0x10) 40 34 + 1 ∧
      (s.block.regFld (pwrReg 0x10) 40 34 = 63 → t.block.regFld (pwrReg 0x10) 32 32 = 0) ∧
      (∀ a, a ≠ pwrReg 0x10 → t.block.reg a = s.block.reg a) ∧ t.block.mem = s.block.mem) ∧
  (∀ s : State,
    ∃ t, exec .hintWindowOpen s = .next t ∧ t.pending = s.pending ∧
      t.block.power.hints = s.block.power.hints.map (fun w => if w.start ≤ s.block.tide w.half then { w with opened := true } else w) ∧
      (t.block.regFld (pwrReg 8) 35 35 = 1 ↔ ∃ w ∈ t.block.power.hints, w.opened = true) ∧
      (∀ a, a ≠ pwrReg 8 → t.block.reg a = s.block.reg a) ∧ t.block.mem = s.block.mem) ∧
  (∀ s : State,
    ∃ t, exec .hintWindowClose s = .next t ∧ t.pending = s.pending ∧
      (∀ w, w ∈ t.block.power.hints ↔ w ∈ s.block.power.hints ∧ s.block.tide w.half < w.stop) ∧
      (t.block.regFld (pwrReg 8) 35 35 = 1 ↔ ∃ w ∈ t.block.power.hints, w.opened = true) ∧
      (∀ a, a ≠ pwrReg 8 → t.block.reg a = s.block.reg a) ∧ t.block.mem = s.block.mem) ∧
  (∀ (s : State) (h : HalfId) (above : Bool), s.block.sys.powerGood = true →
    ∃ t, exec (.marginTrim h above) s = .next t ∧ t.pending = s.pending ∧
      t.block.regFld (pwrReg 0x18) (trimBit h + 7) (trimBit h) = s.block.regFld (pwrReg 0x18) (trimBit h + 7) (trimBit h) +
        b2n (above && decide (s.block.regFld (pwrReg 0x18) (trimBit h + 7) (trimBit h) < s.block.maxTrim h) &&
          !(s.block.power.alarm h).any (fun x => decide (s.block.sys.upNs < x + 86400000000000))) ∧
      (∀ a, a ≠ pwrReg 0x18 → t.block.reg a = s.block.reg a) ∧ t.block.mem = s.block.mem ∧ t.block.power = s.block.power) ∧
  (∀ (s : State) (h : HalfId), s.block.sys.powerGood = true →
    ∃ t, exec (.marginAlarm h) s = .next t ∧ t.pending = s.pending ∧
      t.block.regFld (pwrReg 0x18) (trimBit h + 7) (trimBit h) = 0 ∧
      t.block.regFld (pwrReg 0x18) 31 0 = min (s.block.regFld (pwrReg 0x18) 31 0 + 1) (2 ^ 32 - 1) ∧
      t.block.power.alarm h = some s.block.sys.upNs ∧ t.block.mem = s.block.mem)

/-- R346, R348, R350, R352, R353, R355, R358, R374, R378: a reduction begins. -/
def Obligations.ReductionTasks : Prop :=
  (∀ (s : State) (k : TaskRef) (g : Graph) (c : TaskCtx) (x : CollState) (p : Plan) (u : HoldUse) (w : Nat) (r : Contribution) (i : Instr)
      (op : Nat), (i, op) ∈ [(Instr.allReduce k, 0), (.reduceScatter k, 1), (.verdictReduction k, 9)] → Runs s.block k 0x08 g c →
    c.desc.coOp = op → c.coll = some x → s.block.plan k.half g.slot c.desc.coPlan = some p → p.h = 1 → 2 ≤ p.g → p.place < p.g →
    x = CollState.fresh false → 0 < c.coNb → s.block.readHold (s.block.taskAccess k.half g c) g c = .ok (u, w) →
    s.block.contribute (s.block.taskAccess k.half g c) c p (s.block.coInit k.half g c.desc) (decide (u = .fold)) false = .ok r →
    s.block.badHits r.cells = [] →
    ∃ t y, exec i s = .next t ∧ t.pending = s.pending ∧ Landed s.block t.block r.cells ∧ t.block.task k = some { c with noted := true, coll := some y } ∧
      y.started = true ∧ y.own = r.own ∧ y.landed = [] ∧
      y.queue = ((List.range c.coNb).filter (fun j => decide ((p.locate c.coNb j).q = (p.place + p.g - 1) % p.g))).map (fun j =>
        { dest := p.next1 1, flood := false, shard := p.owner (p.locate c.coNb j), block := j, bytes := r.own.getD j [],
          origin := if c.desc.coNf (r.own.getD j []) then s.block.endpoint k.half else 0xFFFF })) ∧
  (∀ (s : State) (k : TaskRef) (g : Graph) (c : TaskCtx) (x : CollState) (p : Plan) (r : Contribution) (j : Nat) (st : Stored),
    Runs s.block k 0x08 g c → c.desc.coOp = 2 → c.coll = some x → s.block.plan k.half g.slot c.desc.coPlan = some p → p.h = 1 → 2 ≤ p.g →
    p.place < p.g → x = CollState.fresh false →
    s.block.contribute (s.block.taskAccess k.half g c) c p (s.block.coInit k.half g c.desc) false false = .ok r → r.cells = [] →
    (List.range c.coNb).filter (fun j => decide (p.owner (p.locate c.coNb j) = p.own)) = [j] → (p.locate c.coNb j).q = p.place →
    s.block.coLandCells (s.block.taskAccess k.half g c) g.slot c j (r.own.getD j []) = .ok st → s.block.badHits st.cells = [] →
    ∃ t d y, exec (.allGather k) s = .next t ∧ t.pending = s.pending ∧ Landed s.block t.block st.cells ∧ t.block.task k = some d ∧
      d.phase = .running ∧ d.coll = some y ∧ y.started = true ∧ y.own = r.own ∧ y.landed = [j] ∧
      y.queue = [{ dest := p.next1 1, flood := true, shard := p.owner (p.locate c.coNb j), block := j, bytes := r.own.getD j [],
                   origin := if c.desc.coNf (r.own.getD j []) then s.block.endpoint k.half else 0xFFFF }])

/-- R347, R350, R353, R355, R362, R381: packets of a reduction, and a repeat. -/
def Obligations.ReductionPackets : Prop :=
  (∀ (s : State) (h : HalfId) (p : Packet) (k : TaskRef) (g : Graph) (c : TaskCtx) (x : CollState) (pl : Plan) (i : Instr) (op : Nat),
    (i, op) ∈ [(Instr.ebb h p, 1), (.flood h p, 2)] → Admits s.block h p 2 [op] → s.block.collMatch h p [0, 1, 2, 9] = some k →
    Runs s.block k 0x08 g c → c.desc.isColl [0, 1, 2, 9] = true → c.coll = some x → s.block.plan k.half g.slot c.desc.coPlan = some pl →
    x.started = false →
    ∃ t, exec i s = .next t ∧ t.pending = s.pending ∧ t.block.task k = some { c with coll := some { x with inbox := x.inbox ++ [p] } } ∧
      t.block.mem = s.block.mem) ∧
  (∀ (s : State) (h : HalfId) (p : Packet) (k : TaskRef) (g : Graph) (c : TaskCtx) (x : CollState) (pl : Plan) (j : Nat) (l : List Byte),
    Admits s.block h p 2 [1] → s.block.collMatch h p [0, 1, 2, 9] = some k → Runs s.block k 0x08 g c → c.desc.isColl [0, 1] = true →
    c.coll = some x → s.block.plan k.half g.slot c.desc.coPlan = some pl → pl.h = 1 → 2 ≤ pl.g → pl.eps.idxOf (pkSrc p) < pl.n →
    (pl.own + pl.n - pl.eps.idxOf (pkSrc p)) % pl.n = 1 → pl.eps.idxOf (pkSrc p) ≠ pl.own → x.started = true → x.late = false → x.skip = 0 →
    x.credits = [] → x.queue = [] → ¬ x.passed.contains (2 * j) → packetParts c.desc (pkBlock p) 4096 p.payload = some [(j, l)] → j < c.coNb →
    ((pl.locate c.coNb j).q + pl.g - pl.place) % pl.g ≠ 0 → s.block.routable k.half (pkSrc p) 2 = true →
    ∃ t y o, exec (.ebb h p) s = .next t ∧ t.pending = s.pending ∧ t.block.task k = some { c with coll := some y } ∧ y.queue = [o] ∧
      y.passed = x.passed ++ [2 * j] ∧ o.dest = pl.next1 1 ∧ o.flood = false ∧ o.block = j ∧
      o.bytes = (c.desc.coLink (c.desc.coCount (c.tensor 0) j) l (x.own.getD j [])).1 ∧ t.block.mem = s.block.mem) ∧
  (∀ (s : State) (h : HalfId) (p : Packet) (k : TaskRef) (g : Graph) (c : TaskCtx) (x : CollState) (pl : Plan) (j : Nat) (l : List Byte)
      (st : Stored), Admits s.block h p 2 [2] → s.block.collMatch h p [0, 1, 2, 9] = some k → Runs s.block k 0x08 g c →
    c.desc.isColl [0, 2] = true → c.coll = some x → s.block.plan k.half g.slot c.desc.coPlan = some pl → pl.h = 1 → 2 ≤ pl.g →
    pl.eps.idxOf (pkSrc p) < pl.n → (pl.own + pl.n - pl.eps.idxOf (pkSrc p)) % pl.n = 1 → pl.eps.idxOf (pkSrc p) ≠ pl.own →
    x.started = true → x.credits = [] → ¬ x.landed.contains j → packetParts c.desc (pkBlock p) 4096 p.payload = some [(j, l)] → j < c.coNb →
    s.block.routable k.half (pkSrc p) 2 = true →
    s.block.coLandCells (s.block.taskAccess k.half g c) g.slot c j l = .ok st → s.block.badHits st.cells = [] →
    ∃ t d y, exec (.flood h p) s = .next t ∧ t.pending = s.pending ∧ Landed s.block t.block st.cells ∧ t.block.task k = some d ∧
      d.coll = some y ∧ y.landed = x.landed ++ [j]) ∧
  (∀ (s : State) (h : HalfId) (p : Packet) (k : TaskRef) (g : Graph) (c : TaskCtx) (x : CollState) (pl : Plan), Admits s.block h p 2 [3] →
    s.block.collMatch h p [0, 1, 2, 7, 9] = some k → Runs s.block k 0x08 g c → c.desc.isColl [0, 1, 2, 7, 9] = true → c.coll = some x →
    s.block.plan k.half g.slot c.desc.coPlan = some pl → pl.eps.idxOf (pkSrc p) < pl.n →
    (c.desc.coOp = 7 → pl.eps.idxOf (pkSrc p) = c.desc.coPeer) → p.payload.length = 8 → leNat (p.payload.take 4) = c.coCrc g.step →
    x.started = false → x.queue = [] → x.served = [] →
    ∃ t, exec (.collReady h p) s = .next t ∧ t.pending = s.pending ∧ t.block.mem = s.block.mem ∧
      t.block.task k = some { c with coll := some { x with
        readies := x.readies ++ [pl.eps.idxOf (pkSrc p)],
        credits := tabPut x.credits (pl.eps.idxOf (pkSrc p)) (tabGet 0 x.credits (pl.eps.idxOf (pkSrc p)) + leNat (p.payload.drop 4)) } }) ∧
  (∀ (s : State) (h : HalfId) (p : Packet) (k : TaskRef) (g : Graph) (c : TaskCtx) (x : CollState) (pl : Plan), Admits s.block h p 2 [4] →
    s.block.collMatch h p [0, 1, 2, 7, 9] = some k → Runs s.block k 0x08 g c → c.desc.isColl [0, 1, 2, 7, 9] = true → c.coll = some x →
    s.block.plan k.half g.slot c.desc.coPlan = some pl → pl.eps.idxOf (pkSrc p) < pl.n → x.started = false → x.queue = [] →
    ∃ t, exec (.credit h p) s = .next t ∧ t.pending = s.pending ∧ t.block.mem = s.block.mem ∧
      t.block.task k = some { c with coll := some { x with
        credits := tabPut x.credits (pl.eps.idxOf (pkSrc p)) (tabGet 0 x.credits (pl.eps.idxOf (pkSrc p)) + leNat (p.payload.take 4)) } }) ∧
  (∀ (s : State) (h : HalfId) (p : Packet) (k : TaskRef) (g : Graph) (c : TaskCtx) (x : CollState) (pl : Plan), Admits s.block h p 3 [3] →
    s.block.travelOpen p = true → s.block.collMatch h p [3, 5] = some k → Runs s.block k 0x08 g c → c.desc.isColl [3, 5] = true →
    c.coll = some x → s.block.plan k.half g.slot c.desc.coPlan = some pl → x.started = false →
    ∃ t, exec (.travelReady h p) s = .next t ∧ t.pending = s.pending ∧ t.block.mem = s.block.mem ∧
      t.block.task k = some { c with coll := some { x with readies := x.readies ++ [pkSrc p] } }) ∧
  (∀ (s : State) (h : HalfId) (p : Packet) (i : Instr) (op : Nat), Admits s.block h p 2 [op] →
    (i, op) ∈ [(Instr.ebb h p, 1), (.flood h p, 2), (.credit h p, 4), (.collEnd h p, 5), (.lateNotice h p, 6), (.sendBlock h p, 7)] →
    s.block.collMatch h p (if op ≤ 2 then [0, 1, 2, 9] else if op = 4 then [0, 1, 2, 7, 9] else if op = 6 then [0, 1, 2] else [8]) = none →
    ∃ t, exec i s = .next t ∧ t.pending = s.pending ∧ t.block.mem = s.block.mem ∧
      t.block.regFld (colReg h 0x200) 63 32 = min (s.block.regFld (colReg h 0x200) 63 32 + 1) (2 ^ 32 - 1)) ∧
  (∀ (s : State) (h : HalfId) (k : Fin 16) (r : StepRecord), (s.block.half h).steps.find? (fun r => r.slot = k.val && r.repeating) = some r →
    (s.block.half h).graphs.any (fun p => p.2.slot = k.val && decide (r.step ≤ p.2.step)) = false →
    ∃ t, exec (.stepRepeatReadmit h k) s = .next t ∧ t.pending = s.pending ∧ t.block.mem = s.block.mem ∧
      (t.block.half h).waiting = s.block.readmitted h k.val r.step (s.block.half h).submitted ++ (s.block.half h).waiting ∧
      (∀ y ∈ (s.block.half h).steps, y.slot = k.val → y.step = r.step →
        { y with repeats := y.repeats + 1, repeating := false } ∈ (t.block.half h).steps))

/-- R133-R136, R139, R362: sends, receives and token travel. -/
def Obligations.PeerAndExpertTasks : Prop :=
  (∀ (s : State) (k : TaskRef) (g : Graph) (c : TaskCtx) (x : CollState) (p : Plan) (total : Nat) (l : List Byte), Runs s.block k 0x08 g c →
    c.desc.coOp = 7 → c.coll = some x → s.block.plan k.half g.slot c.desc.coPlan = some p → x.readies.contains c.desc.coPeer = true →
    x.sent = 0 → 0 < (c.tensor 0).count → total = (c.tensor 0).rawTotal (c.tensor 0).exts → 0 < total → total ≤ 4096 → 1 ≤ c.coNb →
    0 < tabGet 0 x.credits c.desc.coPeer → s.block.rdRaw (s.block.taskAccess k.half g c) (c.tensor 0) 0 total = .ok l →
    s.block.routable k.half (p.eps.getD c.desc.coPeer 0) 2 = true →
    ∃ t, exec (.sendToPeer k) s = .next t ∧ t.pending = s.pending ∧ Ended t.block k stOk ∧ t.block.mem = s.block.mem ∧
      t.block = (((((s.block.touch k g c).modColl k (fun y => { y with started := true })).modColl k (fun y => { y with
          sent := 1, credits := tabPut y.credits c.desc.coPeer (tabGet 0 y.credits c.desc.coPeer - 1) })).collSend k g c.desc p
            (p.eps.getD c.desc.coPeer 0) 2 7 0xFFFF 0 l).collSend k g c.desc p (p.eps.getD c.desc.coPeer 0) 2 5 0xFFFF 0 (leBytes 8 total)).fix k stOk 0) ∧
  (∀ (s : State) (k : TaskRef) (g : Graph) (c : TaskCtx) (x : CollState) (p : Plan), Runs s.block k 0x08 g c →
    c.desc.coOp = 7 → c.coll = some x → s.block.plan k.half g.slot c.desc.coPlan = some p → x.readies.contains c.desc.coPeer = true →
    (c.tensor 0).count = 0 → s.block.routable k.half (p.eps.getD c.desc.coPeer 0) 2 = true →
    ∃ t, exec (.sendToPeer k) s = .next t ∧ t.pending = s.pending ∧ Ended t.block k stOkEmpty ∧ t.block.mem = s.block.mem ∧
      t.block = (((s.block.touch k g c).modColl k (fun y => { y with started := true })).collSend k g c.desc p (p.eps.getD c.desc.coPeer 0) 2 5 0xFFFF 0
        (leBytes 8 0)).fix k stOkEmpty (c.emptyDetail.getD 0)) ∧
  (∀ (s : State) (k : TaskRef) (g : Graph) (c : TaskCtx) (x : CollState) (p : Plan) (n : Nat) (cells : List Host.Cell),
    Runs s.block k 0x08 g c → c.desc.coOp = 8 → c.coll = some x → s.block.plan k.half g.slot c.desc.coPlan = some p →
    tabFind x.ends 0 = some n → 0 < n → n ≤ (c.tensor 0).rawTotal (c.tensor 0).caps →
    (∀ i, i < cdiv n 4096 → (tabFind x.partials i).isSome = true) →
    s.block.wrRaw (s.block.taskAccess k.half g c) (c.tensor 0) 0
      ((((List.range (cdiv n 4096)).map (fun i => ((tabFind x.partials i).map (fun p => p.1)).getD [])).flatten).take n) = .ok cells →
    s.block.badHits cells = [] →
    ∃ t, exec (.receiveFromPeer k) s = .next t ∧ Lands s t k cells stOk ∧ (∀ a, a ≠ tierReg k.half 0x28 → t.block.reg a = s.block.reg a)) ∧
  (∀ (s : State) (h : HalfId) (p : Packet) (k : TaskRef) (g : Graph) (c : TaskCtx) (x : CollState) (pl : Plan), Admits s.block h p 2 [7] →
    s.block.collMatch h p [8] = some k → Runs s.block k 0x08 g c → c.desc.coOp = 8 → c.coll = some x →
    s.block.plan k.half g.slot c.desc.coPlan = some pl → pl.eps.getD c.desc.coPeer 0 = pkSrc p → tabFind x.ends 0 = none →
    s.block.routable k.half (pkSrc p) 2 = true →
    ∃ t, exec (.sendBlock h p) s = .next t ∧ t.pending = s.pending ∧ t.block.mem = s.block.mem ∧
      t.block.task k = some { c with coll := some { x with partials := tabPut x.partials (pkBlock p) (p.payload, 0xFFFF) } }) ∧
  (∀ (s : State) (h : HalfId) (p : Packet) (k : TaskRef) (g : Graph) (c : TaskCtx) (x : CollState) (pl : Plan), Admits s.block h p 2 [5] →
    s.block.collMatch h p [8] = some k → Runs s.block k 0x08 g c → c.desc.coOp = 8 → c.coll = some x →
    s.block.plan k.half g.slot c.desc.coPlan = some pl → pl.eps.getD c.desc.coPeer 0 = pkSrc p → x.started = false →
    0 < leNat (p.payload.take 8) → leNat (p.payload.take 8) ≤ (c.tensor 0).rawTotal (c.tensor 0).caps →
    ∃ t, exec (.collEnd h p) s = .next t ∧ t.pending = s.pending ∧ t.block.mem = s.block.mem ∧
      t.block.task k = some { c with coll := some { x with ends := tabPut x.ends 0 (leNat (p.payload.take 8)) } }) ∧
  (∀ (s : State) (k : TaskRef) (g : Graph) (c : TaskCtx) (x : CollState) (p : Plan) (l : List CollOut) (i : Instr), Runs s.block k 0x08 g c →
    (i = .expertDispatch k ∧ c.desc.coOp = 3 ∧ s.block.dispatchList (s.block.taskAccess k.half g c) g.slot c = .ok l ∨
      i = .expertReturn k ∧ c.desc.coOp = 5 ∧ s.block.returnList (s.block.taskAccess k.half g c) g.slot c p = .ok l) →
    c.coll = some x → s.block.plan k.half g.slot c.desc.coPlan = some p → x.started = false →
    (l ≠ [] → (∀ o ∈ l, ¬ x.readies.contains o.dest) →
      ∃ t, exec i s = .next t ∧ t.pending = s.pending ∧ t.block.mem = s.block.mem ∧
        t.block.task k = some { c with noted := true, coll := some { x with started := true, queue := l } }) ∧
    ((∀ o ∈ l, x.readies.contains o.dest = true ∧ s.block.routable k.half o.dest 3 = true) →
      ∃ t, exec i s = .next t ∧ t.pending = s.pending ∧ t.block.mem = s.block.mem ∧ Ended t.block k stOk)) ∧
  (∀ (s : State) (k : TaskRef) (g : Graph) (c : TaskCtx) (x : CollState) (p : Plan), Runs s.block k 0x08 g c → c.desc.coOp = 4 →
    c.coll = some x → s.block.plan k.half g.slot c.desc.coPlan = some p →
    (s.block.missingPairs k.half g.slot c { x with started := true } p = [] →
      ∃ t d, exec (.expertReceive k) s = .next t ∧ Lands s t k [] stOk ∧ t.block.task k = some d ∧
        d.shapeOut = (List.range (c.desc.coX * p.n)).map (fun i => tabGet 0 x.ends i) ∧
        ∀ a, a ≠ tierReg k.half 0x28 → t.block.reg a = s.block.reg a) ∧
    (s.block.missingPairs k.half g.slot c { x with started := true } p ≠ [] →
      ∃ t, exec (.expertReceive k) s = .next t ∧ t.pending = s.pending ∧ t.block.mem = s.block.mem ∧
        t.block.task k = some { c with noted := true, coll := some { x with started := true } })) ∧
  (∀ (s : State) (k : TaskRef) (g : Graph) (c : TaskCtx) (x : CollState) (p : Plan) (rs : List (Nat × Nat)) (want : List Nat),
    Runs s.block k 0x08 g c → c.desc.coOp = 6 → c.coll = some x → s.block.plan k.half g.slot c.desc.coPlan = some p → x.started = false →
    x.inbox = [] → s.block.readRecords (s.block.taskAccess k.half g c) (c.tensor 0) = .ok rs →
    want = ((rs.filter (fun p => recAssigned p.2 && decide (recE p.2 < c.desc.coE))).map (fun p => recE p.2 * c.desc.coCap + recSlot p.2)).eraseDups →
    (want = [] → ∃ t, exec (.expertReturnReceive k) s = .next t ∧ Lands s t k [] stOk ∧
      ∀ a, a ≠ tierReg k.half 0x28 → t.block.reg a = s.block.reg a) ∧
    (want ≠ [] → x.rows = [] → 0 < c.coChunks →
      ∃ t, exec (.expertReturnReceive k) s = .next t ∧ t.pending = s.pending ∧ t.block.mem = s.block.mem ∧
        t.block.task k = some { c with noted := true, coll := some { x with started := true, passed := want, inbox := [] } })) ∧
  (∀ (s : State) (h : HalfId) (p : Packet) (k : TaskRef) (g : Graph) (c : TaskCtx) (x : CollState) (pl : Plan) (e : Nat × Nat) (cells : List Host.Cell),
    Admits s.block h p 3 [1] → s.block.travelOpen p = true → s.block.collMatch h p [4, 6] = some k → Runs s.block k 0x08 g c →
    c.desc.coOp = 4 → c.coll = some x → s.block.plan k.half g.slot c.desc.coPlan = some pl → x.started = false →
    p.payload.length = min 4096 ((c.tensor 0).wholeRow - 4096 * (pkBlock p % c.coChunks)) →
    (s.block.localExperts k.half g.slot c.desc).find? (fun y => y.1 = pkBlock p / c.coChunks / c.desc.coCap) = some e →
    pl.eps.idxOf (pkOrigin p) < pl.n → tabFind x.ends (e.2 * pl.n + pl.eps.idxOf (pkOrigin p)) = none →
    ¬ x.rows.contains (((e.2 * pl.n + pl.eps.idxOf (pkOrigin p)) * c.desc.coCap + pkBlock p / c.coChunks % c.desc.coCap) * c.coChunks +
      pkBlock p % c.coChunks) →
    mapRes (fun q => (s.block.wr (s.block.taskAccess k.half g c) (c.tensor 0).slot ((c.tensor 0).wholeRowVa ((c.tensor 0).rowNo
        ((e.2 * pl.n + pl.eps.idxOf (pkOrigin p)) * c.desc.coCap + pkBlock p / c.coChunks % c.desc.coCap))
        (4096 * (pkBlock p % c.coChunks) + q.2))).map (fun d => ((d, q.1) : Host.Cell)))
      (p.payload.zip (List.range p.payload.length)) = .ok cells → s.block.badHits cells = [] →
    ∃ t, exec (.tokenRow h p) s = .next t ∧ t.pending = s.pending ∧ Landed s.block t.block cells ∧
      t.block.task k = some { c with coll := some { x with
        rows := x.rows ++ [((e.2 * pl.n + pl.eps.idxOf (pkOrigin p)) * c.desc.coCap + pkBlock p / c.coChunks % c.desc.coCap) * c.coChunks +
          pkBlock p % c.coChunks] } }) ∧
  (∀ (s : State) (h : HalfId) (p : Packet) (k : TaskRef) (g : Graph) (c : TaskCtx) (x : CollState) (pl : Plan) (r : Nat) (cells : List Host.Cell),
    Admits s.block h p 3 [1] → s.block.travelOpen p = true → s.block.collMatch h p [4, 6] = some k → Runs s.block k 0x08 g c →
    c.desc.coOp = 6 → c.coll = some x → s.block.plan k.half g.slot c.desc.coPlan = some pl → x.started = true →
    p.payload.length = min 4096 ((c.tensor 1).wholeRow - 4096 * (pkBlock p % c.coChunks)) →
    r = pkBlock p / c.coChunks / c.desc.coCap * c.desc.coCap + pkBlock p / c.coChunks % c.desc.coCap → x.passed.contains r = true →
    ¬ x.rows.contains (pkBlock p) →
    mapRes (fun q => (s.block.wr (s.block.taskAccess k.half g c) (c.tensor 1).slot ((c.tensor 1).wholeRowVa ((c.tensor 1).rowNo r)
        (4096 * (pkBlock p % c.coChunks) + q.2))).map (fun d => ((d, q.1) : Host.Cell))) (p.payload.zip (List.range p.payload.length)) = .ok cells →
    s.block.badHits cells = [] →
    (x.passed.all (fun r => (List.range c.coChunks).all (fun i => (x.rows ++ [pkBlock p]).contains (r * c.coChunks + i))) = true →
      ∃ t, exec (.tokenRow h p) s = .next t ∧ Lands s t k cells stOk) ∧
    (x.passed.all (fun r => (List.range c.coChunks).all (fun i => (x.rows ++ [pkBlock p]).contains (r * c.coChunks + i))) = false →
      ∃ t, exec (.tokenRow h p) s = .next t ∧ t.pending = s.pending ∧ Landed s.block t.block cells ∧
        t.block.task k = some { c with coll := some { x with rows := x.rows ++ [pkBlock p] } })) ∧
  (∀ (s : State) (h : HalfId) (p : Packet) (k : TaskRef) (g : Graph) (c : TaskCtx) (x : CollState) (pl : Plan) (e : Nat × Nat) (n : Nat),
    Admits s.block h p 3 [2] → s.block.travelOpen p = true → s.block.collMatch h p [4] = some k → Runs s.block k 0x08 g c →
    c.desc.coOp = 4 → c.coll = some x → s.block.plan k.half g.slot c.desc.coPlan = some pl → x.started = false →
    (s.block.localExperts k.half g.slot c.desc).find? (fun y => y.1 = leNat (p.payload.take 2)) = some e → pl.eps.idxOf (pkOrigin p) < pl.n →
    n = leNat ((p.payload.drop 4).take 4) →
    (n ≤ c.desc.coCap →
      ∃ t, exec (.endRecord h p) s = .next t ∧ t.pending = s.pending ∧ t.block.mem = s.block.mem ∧
        t.block.task k = some { c with coll := some { x with ends := tabPut x.ends (e.2 * pl.n + pl.eps.idxOf (pkOrigin p)) n } }) ∧
    (c.desc.coCap < n →
      ∃ t, exec (.endRecord h p) s = .next t ∧ t.pending = s.pending ∧ t.block.mem = s.block.mem ∧ Ended t.block k stShapeOver))

/-- R371-R373, R378, R388: lateness. -/
def Obligations.LatenessCommands : Prop :=
  (∀ (s : State) (k : TaskRef) (g : Graph) (c : TaskCtx) (x : CollState) (p : Plan), Runs s.block k 0x08 g c → c.desc.coOp ≤ 2 →
    c.coll = some x → s.block.plan k.half g.slot c.desc.coPlan = some p → c.desc.lenient = false → c.desc.coDeadline ≠ 0 →
    c.desc.coDeadline ≤ s.block.tide k.half → p.lateOnes x.readies ≠ [] → (∀ e ∈ p.eps, e ≠ s.block.endpoint k.half → s.block.routable k.half e 2 = true) →
    ∃ t, exec (.collectiveDeadline k) s = .next t ∧ t.pending = s.pending ∧ Ended t.block k stDeadlineLate ∧ t.block.mem = s.block.mem) ∧
  (∀ (s : State) (k : TaskRef) (g : Graph) (c : TaskCtx) (x : CollState) (p : Plan), Runs s.block k 0x08 g c →
    c.desc.isColl [0, 1, 2, 4, 6, 9] = true → c.coll = some x → s.block.plan k.half g.slot c.desc.coPlan = some p →
    s.block.tide k.half < c.desc.coDeadline →
    ∃ t, exec (.collectiveDeadline k) s = .next t ∧ t = s) ∧
  (∀ (s : State) (k : TaskRef) (g : Graph) (c : TaskCtx) (x : CollState) (p : Plan), Runs s.block k 0x08 g c → c.desc.coOp = 9 →
    c.coll = some x → s.block.plan k.half g.slot c.desc.coPlan = some p → c.desc.coDeadline ≠ 0 → c.desc.coDeadline ≤ s.block.tide k.half →
    ∃ t y, exec (.collectiveDeadline k) s = .next t ∧ t.pending = s.pending ∧ t.block.task k = some { c with coll := some y } ∧
      (∀ q ∈ p.lateOnes x.readies, y.reported.contains (p.eps.getD q.1 0) = true) ∧ t.block.mem = s.block.mem) ∧
  (∀ (s : State) (h : HalfId) (q : Packet) (k : TaskRef) (g : Graph) (c : TaskCtx) (x : CollState) (p : Plan), Admits s.block h q 2 [6] →
    s.block.collMatch h q [0, 1, 2] = some k → Runs s.block k 0x08 g c → c.desc.isColl [0, 1, 2] = true → c.coll = some x →
    s.block.plan k.half g.slot c.desc.coPlan = some p → (∀ e ∈ p.eps, e ≠ s.block.endpoint k.half → s.block.routable k.half e 2 = true) →
    ∃ t, exec (.lateNotice h q) s = .next t ∧ t.pending = s.pending ∧ Ended t.block k stDeadlineLate ∧ t.block.mem = s.block.mem) ∧
  (∀ (s : State) (k : TaskRef) (g : Graph) (c : TaskCtx) (x : CollState) (p : Plan), Runs s.block k 0x08 g c →
    c.desc.isColl [0, 1, 2, 7, 8] = true → c.coll = some x → s.block.plan k.half g.slot c.desc.coPlan = some p → c.desc.coDeadline ≠ 0 →
    c.desc.lenient = false → c.desc.coDeadline + 1000 * s.block.regFld (gateReg k.half 0) 63 40 ≤ s.block.tide k.half →
    ∃ t d, exec (.lateWaitExpiry k) s = .next t ∧ t.pending = s.pending ∧ Ended t.block k stDeadlineLate ∧ t.block.task k = some d ∧
      d.detail = 0xFFFF ∧ t.block.mem = s.block.mem ∧ t.block.regs = s.block.regs) ∧
  (∀ (s : State) (k : TaskRef) (g : Graph) (c : TaskCtx) (x : CollState) (p : Plan), Runs s.block k 0x08 g c → c.desc.isColl [0, 1] = true →
    c.coll = some x → s.block.plan k.half g.slot c.desc.coPlan = some p → c.desc.lenient = true →
    c.desc.coDeadline + 1000 * s.block.regFld (gateReg k.half 0) 23 8 ≤ s.block.tide k.half →
    (x.late = true → collComplete c x p = false →
      ∃ t, exec (.lenientWaitExpiry k) s = .next t ∧ t.pending = s.pending ∧ Ended t.block k stDeadlineLate ∧ t.block.mem = s.block.mem) ∧
    (x.late = false →
      ∃ t d y, exec (.lenientWaitExpiry k) s = .next t ∧ t.pending = s.pending ∧ t.block.task k = some d ∧ d.coll = some y ∧
        y.waited = true ∧ y.served = [] ∧ t.block.mem = s.block.mem)) ∧
  (∀ (s : State) (k : TaskRef) (g : Graph) (c : TaskCtx) (x : CollState) (p : Plan), Runs s.block k 0x08 g c → c.desc.coOp = 9 →
    c.coll = some x → s.block.plan k.half g.slot c.desc.coPlan = some p → x.landed = [] → x.verdict = none →
    x.queried.getD c.desc.coDeadline + 1000 * s.block.regFld (gateReg k.half 0) 39 24 ≤ s.block.tide k.half →
    ∃ t, exec (.resolveExpiry k) s = .next t ∧ t.pending = s.pending ∧
      t.block.task k = some { c with coll := some { x with queried := some (s.block.tide k.half) } } ∧ t.block.mem = s.block.mem ∧
      t.block = (s.block.modColl k (fun y => { y with queried := some (s.block.tide k.half) })).tellLeader k.half 0x14
        (leBytes 4 g.job ++ leBytes 4 g.step ++ leBytes 4 (s.block.runOf k.half g.slot g.step)))

/-- R308, R312, R313, R323, R324: what a port's training and retry do. The layout of the identity payload and what retrains without a new
identity are the model's (log entries 47, 48). -/
def Obligations.PortCommands : Prop :=
  ∀ (s : State) (h : HalfId) (x : Fin 9), Shaped s.block → s.block.domain.reported = true →
    (∀ (lanes : List (Fin 5)) (asym : Int), (s.block.port h x).st = 1 → (s.block.port h x).retraining = false →
      (s.block.port h x).trained = false → 4 ≤ (lanesOf lanes).length →
      ∃ t p, exec (.portTrainingDone h x lanes asym) s = .next t ∧ t.pending = s.pending ∧ t.block.mem = s.block.mem ∧
        t.block.regs = s.block.regs ∧ t.block.port h x = { (s.block.port h x).withLanes lanes asym with trained := true } ∧
        t.block.out = s.block.out ++ [.packet h x p] ∧ p.payload = s.block.identityOf h x) ∧
    (∀ (lanes : List (Fin 5)) (asym : Int), (s.block.port h x).st = 1 → (s.block.port h x).retraining = false →
      (s.block.port h x).trained = false → (lanesOf lanes).length < 4 →
      ∃ t, exec (.portTrainingDone h x lanes asym) s = .next t ∧ t.pending = s.pending ∧ t.block.mem = s.block.mem ∧
        (t.block.port h x).st = 5 ∧ (t.block.port h x).cause = 1 ∧ (t.block.port h x).queue = []) ∧
    ((s.block.port h x).st = 1 → (s.block.port h x).retraining = false → (s.block.port h x).trained = false →
      ∃ t, exec (.trainRetry h x) s = .next t ∧ t.pending = s.pending ∧ t.block.mem = s.block.mem ∧ t.block.regs = s.block.regs ∧
        t.block.out = s.block.out ∧ (t.block.port h x).attempted = true ∧
        (t.block.port h x).st = if 2 ≤ (s.block.half h).efing.census then 0 else 1) ∧
    (∀ (p : Packet) (m half far hash : Nat), (s.block.port h x).st = 1 → (s.block.port h x).trained = true → malformed p = false →
      pkClass p = 5 → pkOp p = 1 → pkHops p = 0 → packetCrc p = pkCrc p → m = leNat (p.payload.take 2) →
      half = leNat ((p.payload.drop 2).take 1) → far = leNat ((p.payload.drop 3).take 1) → hash = leNat ((p.payload.drop 24).take 8) →
      ∃ t, exec (.identity h x p) s = .next t ∧ t.pending = s.pending ∧ t.block.mem = s.block.mem ∧
        (t.block.port h x).nbrEndpoint = 2 * m + half % 2 ∧ (t.block.port h x).nbrPort = far ∧
        (hash = (s.block.reg (cfgReg 8)).toNat → entryModule (s.block.entry s.block.moduleNo (modulePort h x)) = m →
          entryPort (s.block.entry s.block.moduleNo (modulePort h x)) = far → half = far / 9 →
          (t.block.port h x).st = 2 ∧ (t.block.port h x).credits = s.block.linkCredits h ∧ (t.block.port h x).sendSeq = 0 ∧
            (t.block.port h x).recvSeq = 0) ∧
        (hash ≠ (s.block.reg (cfgReg 8)).toNat → (t.block.port h x).st = 5 ∧ (t.block.port h x).cause = 3) ∧
        (hash = (s.block.reg (cfgReg 8)).toNat → (entryModule (s.block.entry s.block.moduleNo (modulePort h x)) ≠ m ∨
          entryPort (s.block.entry s.block.moduleNo (modulePort h x)) ≠ far ∨ half ≠ far / 9) →
          (t.block.port h x).st = 5 ∧ (t.block.port h x).cause = 4)) ∧
    (∀ (y : Fin 10) (g : SentGroup) (gs : List SentGroup), (s.block.port h y).replay = g :: gs →
      g.tide + s.block.regFld (efReg h 8) 31 0 ≤ s.block.tide h →
      ∃ t, exec (.ackTimeout h y) s = .next t ∧ t.pending = s.pending ∧ t.block.mem = s.block.mem ∧ t.block.regs = s.block.regs ∧
        (t.block.port h y).replay = (g :: gs).map (fun g => { g with tide := s.block.tide h, replays := g.replays + 1 }) ∧
        t.block.out = s.block.out ++ (((g :: gs).map (fun g => g.packets)).flatten).map (fun p => Out.packet h y p)) ∧
    (∀ (i : Instr) (lane : Fin 5), (s.block.port h x).st = 2 ∨ (s.block.port h x).st = 3 →
      i = .laneClockLoss h x lane ∨
        (i = .nakLimit h x ∧ ∃ g ∈ (s.block.port h x).replay, s.block.regFld (efReg h 8) 39 32 ≤ g.replays) →
      ∃ t, exec i s = .next t ∧ t.pending = s.pending ∧ t.block.mem = s.block.mem ∧ (t.block.port h x).st = 1 ∧
        (t.block.port h x).retraining = true ∧ (t.block.port h x).replay = [] ∧ (t.block.port h x).queue = [] ∧
        t.block.regFld (portErr h x) 15 4 = min (s.block.regFld (portErr h x) 15 4 + (s.block.port h x).queue.length) 4095 ∧
        t.block.regFld (portErr h x) 3 0 = min (s.block.regFld (portErr h x) 3 0 + 1) 15 ∧
        ∃ w, t.block.out = s.block.out ++ [.control h x w] ∧ fld w 11 8 = 1) ∧
    (∀ (lanes : List (Fin 5)) (asym : Int), (s.block.port h x).st = 1 → (s.block.port h x).retraining = true →
      ∃ t, exec (.portRetrainDone h x lanes asym) s = .next t ∧ t.pending = s.pending ∧ t.block.mem = s.block.mem ∧
        (4 ≤ (lanesOf lanes).length → (t.block.port h x).st = 2 ∧ (t.block.port h x).replay = [] ∧
          (t.block.port h x).credits = s.block.linkCredits h ∧ (t.block.port h x).spareUsed = (lanesOf lanes).contains 4 ∧
          t.block.regs = s.block.regs) ∧
        ((lanesOf lanes).length < 4 → (t.block.port h x).st = 5 ∧ (t.block.port h x).cause = 2))

/-- R312, R314, R316, R320-R322, R336: link groups and the router. -/
def Obligations.LinkAndRouterCommands : Prop :=
  (∀ (s : State) (h : HalfId) (x : Fin 10) (g : LinkGroup), Shaped s.block → 2 ≤ (s.block.port h x).st → (s.block.port h x).st ≤ 4 →
    g.correctable = true → g.packets ≠ [] → (∀ p ∈ g.packets, hasRow p = true) → fld g.control 63 52 = (s.block.port h x).recvSeq →
    ∃ t, exec (.linkGroup h x g) s = .next t ∧ t.pending = s.pending ∧ t.block.mem = s.block.mem ∧
      (t.block.port h x).recvSeq = ((s.block.port h x).recvSeq + 1) % 4096 ∧
      (t.block.half h).efing.arrived = (s.block.half h).efing.arrived ++
        g.packets.map (fun p => { exit := x, tide := s.block.tide h, packet := p })) ∧
  (∀ (s : State) (h : HalfId) (x : Fin 9) (g : LinkGroup), 2 ≤ (s.block.port h x).st → (s.block.port h x).st ≤ 4 → g.correctable = false →
    ∃ t w, exec (.linkGroup h ⟨x.val, Nat.lt_succ_of_lt x.isLt⟩ g) s = .next t ∧ t.pending = s.pending ∧ t.block.mem = s.block.mem ∧
      t.block.half h = s.block.half h ∧
      t.block.regFld (portErr h x) 31 16 = min (s.block.regFld (portErr h x) 31 16 + 1) 65535 ∧
      t.block.out = s.block.out ++ [.control h x w] ∧ fld w 39 38 = 2 ∧
      fld w 51 40 = ((s.block.port h x).recvSeq + 4095) % 4096) ∧
  (∀ (s : State) (h : HalfId) (p : Packet), pkDest p ≠ s.block.endpoint h →
    ∃ t, exec (.packetForward h p) s = .next t ∧ t.pending = s.pending ∧ t.block.mem = s.block.mem ∧
      (malformed p = false → pkHops p < 7 → pkClass p ≠ 4 →
        (pkClass p < 4 → (s.block.half h).efing.census = 2 ∧ pkSrc p / 8 ∈ s.block.domain.roster) →
        t.block = (s.block.unbuffer h p).routeOut h (hopOn p) ∧ pkHops (hopOn p) = pkHops p + 1 ∧
          (packetCrc p = pkCrc p → packetCrc (hopOn p) = pkCrc (hopOn p))) ∧
      (malformed p = false → pkHops p < 7 → pkClass p < 4 →
        ¬ ((s.block.half h).efing.census = 2 ∧ pkSrc p / 8 ∈ s.block.domain.roster) →
        t.block.regFld (efReg h 0x20) 31 0 = min (s.block.regFld (efReg h 0x20) 31 0 + 1) (2 ^ 32 - 1)) ∧
      (pkHops p = 7 → t.block.regFld (efReg h 0x18) 63 48 = min (s.block.regFld (efReg h 0x18) 63 48 + 1) 65535)) ∧
  (∀ (s : State) (h : HalfId) (x : Fin 10), Shaped s.block →
    ∃ t, exec (.hopTimeout h x) s = .next t ∧ t.pending = s.pending ∧ t.block.mem = s.block.mem ∧
      (t.block.port h x).queue = (s.block.port h x).queue.filter
        (fun p => decide (s.block.tide h ≤ p.1 + s.block.regFld (efReg h 0x10) 29 0)) ∧
      t.block.regFld (efReg h 0x18) 31 16 = min (s.block.regFld (efReg h 0x18) 31 16 +
        ((s.block.port h x).queue.filter (fun p => decide (p.1 + s.block.regFld (efReg h 0x10) 29 0 < s.block.tide h))).length +
        ((s.block.half h).efing.arrived.filter
          (fun a => a.exit = x.val && decide (a.tide + s.block.regFld (efReg h 0x10) 29 0 < s.block.tide h))).length) 65535) ∧
  (∀ (s : State) (h : HalfId) (d : Fin 16384) (q : RouteHold), tabFind (s.block.half h).efing.holds d = some q →
    q.until_ ≤ s.block.tide h →
    ∃ t, exec (.routeHoldExpiry h d) s = .next t ∧ t.pending = s.pending ∧ t.block.mem = s.block.mem ∧
      t.block = (s.block.modHalf h (fun x => { x with efing := { x.efing with holds := tabDel x.efing.holds d } })).routeAll h q.packets)

/-- R326-R328, R330: Tide. That an ECHO tells the neighbour's lock and depth, and the roundings, are the model's (log entry 49). -/
def Obligations.TideExchangesAndParents : Prop :=
  ∀ (s : State) (h : HalfId), Shaped s.block → s.block.domain.reported = true →
    ((s.block.half h).tide.lastExchange + 1000000 ≤ (s.block.half h).tide.now →
      ∃ t, exec (.tideExchange h) s = .next t ∧ t.pending = s.pending ∧ t.block.mem = s.block.mem ∧ t.block.regs = s.block.regs ∧
        (t.block.half h).tide = { (s.block.half h).tide with lastExchange := (s.block.half h).tide.now } ∧
        (∀ x, x < 10 → (s.block.port h x).timed = false → t.block.port h x = s.block.port h x) ∧
        (∀ x, x < 10 → (s.block.port h x).timed = true → (∀ y, y < 10 → y ≠ x → (s.block.port h y).timed = false) →
          t.block = (s.block.modTide h (fun t => { t with lastExchange := t.now })).sendTime h x 0x01 (s.block.tide h) [])) ∧
    (∀ (x : Fin 10) (t1 : Nat), (s.block.port h x).timed = true →
      ∃ t, exec (.sync h x t1) s = .next t ∧ t.pending = s.pending ∧ t.block.mem = s.block.mem ∧ t.block.regs = s.block.regs ∧
        (t.block.half h).tide = (s.block.half h).tide ∧
        t.block = (s.block.unbufferTime h x 0x01).sendTime h x 0x02 (s.block.tide h) (leBytes 8 t1 ++ leBytes 8 (s.block.tide h))) ∧
    (∀ (x : Fin 10) (t1 t2 t3 depth : Nat) (locked : Bool) (theta delta : Int), (s.block.port h x).timed = true → s.block.isRoot h = false →
      theta = halfOfSum ((t2 : Int) - t1 - ((s.block.tide h : Int) - t3) - (s.block.port h x).asym) →
      delta = halfOfSum ((t2 : Int) - t1 + ((s.block.tide h : Int) - t3)) →
      ∃ t, exec (.echo h x t1 t2 t3 locked depth) s = .next t ∧ t.pending = s.pending ∧ t.block.mem = s.block.mem ∧
        (t.block.port h x).nbrLocked = locked ∧ (t.block.port h x).nbrDepth = depth ∧
        ((s.block.half h).tide.parent = some x.val → locked = true → depth < 15 →
          ((s.block.half h).tide.everLocked = false → (s.block.half h).tide.synced = false →
            (s.block.half h).tide.parent = (t.block.half h).tide.parent ∧ (t.block.half h).tide.running = true ∧
              (t.block.half h).tide.synced = true ∧ t.block.tide h = ((t3 : Int) + delta).toNat) ∧
          ((s.block.half h).tide.everLocked = true ∨ (s.block.half h).tide.synced = true →
            t.block.tide h = s.block.tide h ∧ -200000 ≤ (t.block.half h).tide.slew ∧ (t.block.half h).tide.slew ≤ 200000 ∧
              (t.block.half h).tide.good = (if -10 ≤ theta ∧ theta ≤ 10 then (s.block.half h).tide.good + 1 else 0) ∧
              (s.block.locked h = true → t.block.locked h = true) ∧
              (s.block.locked h = false → (t.block.locked h = true ↔ -10 ≤ theta ∧ theta ≤ 10 ∧ 31 ≤ (s.block.half h).tide.good)))) ∧
        (∀ y, (s.block.half h).tide.parent = some y → y ≠ x.val →
          (t.block.half h).tide = (s.block.half h).tide ∧ t.block.regs = s.block.regs)) ∧
    (∀ x, (s.block.half h).tide.parent = some x → s.block.isRoot h = false → s.block.eligible h x = false →
      ∃ t, exec (.parentSwitch h) s = .next t ∧ t.pending = s.pending ∧ t.block.mem = s.block.mem ∧ t.block.tide h = s.block.tide h ∧
        t.block.locked h = s.block.locked h ∧
        (∀ y, s.block.firstParent h = some y →
          (t.block.half h).tide.parent = some y ∧ (t.block.half h).tide.holdoverFrom = none ∧ t.block.regFld (tideReg h 8) 62 62 = 0 ∧
            t.block.regFld (tideReg h 8) 59 56 = (s.block.port h y).nbrDepth + 1 ∧ t.block.regFld (tideReg h 8) 55 52 = y) ∧
        (s.block.firstParent h = none →
          (t.block.half h).tide.parent = none ∧ t.block.regFld (tideReg h 8) 55 52 = 15 ∧
            (s.block.locked h = true → t.block.regFld (tideReg h 8) 62 62 = 1 ∧ (t.block.half h).tide.holdoverFrom.isSome = true))) ∧
    (∀ n, (s.block.half h).tide.holdoverFrom = some n → s.block.locked h = true →
      n + s.block.regFld (tideReg h 0x18) 29 0 ≤ s.block.tide h →
      ∃ t, exec (.holdoverExpiry h) s = .next t ∧ t.pending = s.pending ∧ t.block.mem = s.block.mem ∧ t.block.locked h = false ∧
        t.block.half h = s.block.half h)

/-- R326, R331, R425: the root's reference. -/
def Obligations.TideReferenceCommands : Prop :=
  ∀ (s : State) (h : HalfId), s.block.domain.reported = true →
    (s.block.mayReference h = true → s.block.image.tideRef = 0 →
      ∃ t, exec (.clk10mLock h) s = .next t ∧ t.pending = s.pending ∧ t.block.mem = s.block.mem ∧ t.block.regs = s.block.regs ∧
        (t.block.half h).tide = { (s.block.half h).tide with clk10m := true }) ∧
    (∀ (i : Instr) (now ref : Nat), s.block.isRoot h = true →
      (i = .ppsEdge h ∧ s.block.image.tideRef = 0 ∧ (s.block.half h).tide.clk10m = true ∧ now = s.block.image.tideStartNs ∧ ref = 1) ∨
        (∃ ns, i = .ptpTime h ns ∧ s.block.image.tideRef = 1 ∧ s.block.zilsy.up = true ∧ now = ns - s.block.image.domainEpoch ∧ ref = 2) →
      ∃ t, exec i s = .next t ∧ t.pending = s.pending ∧ t.block.mem = s.block.mem ∧ t.block.regFld (tideReg h 8) 51 50 = ref ∧
        ((s.block.half h).tide.running = false → t.block.tide h = now ∧ (t.block.half h).tide.running = true ∧ t.block.locked h = true ∧
          t.block.regFld (tideReg h 8) 61 61 = 1 ∧ t.block.regFld (tideReg h 8) 59 56 = 0) ∧
        ((s.block.half h).tide.running = true → t.block.tide h = s.block.tide h ∧ t.block.regFld (tideReg h 8) 60 60 = 0 ∧
          -200000 ≤ (t.block.half h).tide.slew ∧ (t.block.half h).tide.slew ≤ 200000)) ∧
    (s.block.sys.powerGood = true →
      ∃ t, exec (.ppsEdge h) s = .next t ∧ t.pending = s.pending ∧ t.block.mem = s.block.mem ∧ t.block.regFld (zilReg 0x40) 2 2 = 1) ∧
    (s.block.isRoot h = true → s.block.regFld (tideReg h 8) 51 50 ≠ 0 → s.block.regFld (tideReg h 8) 60 60 = 0 →
      ∃ t, exec (.referenceLoss h) s = .next t ∧ t.pending = s.pending ∧ t.block.mem = s.block.mem ∧ t.block.tide h = s.block.tide h ∧
        t.block.locked h = s.block.locked h ∧ t.block.regFld (tideReg h 8) 60 60 = 1) ∧
    (s.block.image.topology = none → s.block.sys.ready = true → s.block.halfA.tide.running = false →
      s.block.sys.readyAt + 1000000000 ≤ s.block.sys.upNs →
      ∃ t, exec .refEdgeTimeout s = .next t ∧ t.pending = s.pending ∧ t.block.mem = s.block.mem ∧ t.block.tide .a = 0 ∧
        t.block.halfA.tide.running = true ∧ t.block.locked .a = true ∧ t.block.regFld (tideReg .a 8) 60 60 = 1)

/-- R333-R336, R388: the lease and the census. The messages' layout is the model's (log entry 48). -/
def Obligations.LeaseAndCensusCommands : Prop :=
  (∀ (s : State), s.block.mayClaim = true →
    ∃ t, exec .leaseClaim s = .next t ∧ t.pending = s.pending ∧ t.block.mem = s.block.mem ∧ t.block.domain.holder = true ∧
      t.block.domain.tL = some (s.block.domain.tL.getD (s.block.tide .a))) ∧
  (∀ (s : State) (h : HalfId) (p : Packet) (rank : Nat), Admits s.block h p 5 [2] → rank = u64At p.payload 0 →
    (s.block.domain.coord = some (u64At p.payload 16) ∨ ∀ k, ∀ q ∈ s.block.tasksOf k, q.2.2.desc.type ≠ 8) →
    ∃ t, exec (.lease h p) s = .next t ∧ t.pending = s.pending ∧ t.block.mem = s.block.mem ∧
      ((s.block.domain.holder = false → rank ≤ s.block.domain.leaseRank) → (s.block.domain.holder = true → rank < s.block.ownRank) →
        t.block.domain = { s.block.domain with
          holder := false, leaseRank := rank, leaseHeard := s.block.tide .a,
          lowHeard := if rank < s.block.ownRank then s.block.tide .a else s.block.domain.lowHeard, tL := some (s.block.domain.tL.getD (u64At p.payload 8)),
          reading := none, coord := some (u64At p.payload 16) } ∧
        ∀ k, t.block.reg (tideReg k 0x28) = BitVec.ofNat 64 (s.block.domain.tL.getD (u64At p.payload 8) + 60000000000)) ∧
      ((s.block.domain.holder = false ∧ s.block.domain.leaseRank < rank) ∨ (s.block.domain.holder = true ∧ s.block.ownRank ≤ rank) →
        t.block.domain = s.block.domain)) ∧
  (∀ (s : State), s.block.domain.holder = true → s.block.domain.renewed + 500000000 ≤ s.block.tide .a →
    ∃ t, exec .leaseRenewal s = .next t ∧ t.pending = s.pending ∧ t.block.mem = s.block.mem ∧
      t.block.domain = { s.block.domain with renewed := s.block.tide .a } ∧
      t.block = (s.block.modDomain (fun d => { d with renewed := s.block.tide .a })).manageTo .a 0x02
        ((s.block.candModules.filter (fun m => m ≠ s.block.moduleNo)).map (fun m => (2 * m, s.block.leaseBytes)))) ∧
  (∀ (s : State), s.block.domain.leaseRank ≠ 15 → s.block.ownRank < 15 →
    (if s.block.domain.holder then s.block.domain.renewed else s.block.domain.leaseHeard) + 2000000000 ≤ s.block.tide .a →
    ∃ t, exec .leaseLapse s = .next t ∧ t.pending = s.pending ∧ t.block.mem = s.block.mem ∧ t.block.halfA = s.block.halfA ∧
      t.block.halfB = s.block.halfB ∧ t.block.domain = { s.block.domain with holder := false, leaseRank := 15, reading := none } ∧
      ∀ k, t.block.regFld (tideReg k 0x20) 59 56 = 15 ∧ t.block.regFld (gateReg k 0x10) 47 47 = 0) ∧
  (∀ (s : State) (h : HalfId) (p : Packet), Admits s.block h p 5 [3] →
    ∃ t, exec (.readyReport h p) s = .next t ∧ t.pending = s.pending ∧ t.block.mem = s.block.mem ∧
      (reportKind p.payload = 2 → t.block.domain = { s.block.domain with coord := some (reportModule p.payload) }) ∧
      (reportKind p.payload = 1 → s.block.domain.holder = true →
        tabFind t.block.domain.reports (reportModule p.payload) = some p.payload) ∧
      (reportKind p.payload = 1 → s.block.domain.holder = false → t.block.domain = s.block.domain) ∧
      (reportKind p.payload = 0 → tabFind t.block.domain.reports (reportModule p.payload) = some p.payload)) ∧
  (∀ (s : State) (n : Nat), s.block.domain.tL = some n → s.block.domain.holder = true → s.block.halfA.efing.census = 1 →
    s.block.halfB.efing.census = 1 → n + 60000000000 ≤ s.block.tide .a →
    ∃ t, exec .censusDeadline s = .next t ∧ t.pending = s.pending ∧ t.block.mem = s.block.mem ∧
      (∀ k, (t.block.half k).efing.census =
        (if s.block.trayRole (s.block.moduleNo / 4) = 1 ∧ s.block.moduleNo / 4 < 2048 ∧ s.block.trayReported (s.block.moduleNo / 4) = false
          then 3 else 2) ∧ t.block.reg (tideReg k 0x30) = BitVec.ofNat 64 (s.block.tide .a)) ∧
      (∀ y, y < 2048 → s.block.trayRole y = 1 → s.block.trayReported y = true → y ∈ t.block.domain.roster)) ∧
  (∀ (s : State) (h : HalfId) (p : Packet), Admits s.block h p 5 [4] → 16 ≤ p.payload.length → (s.block.half h).efing.census < 2 →
    bits (u64At p.payload 8) 16 16 = 0 → bits (u64At p.payload 8) 15 8 = 1 → (s.block.half h).efing.parts = [] →
    ∃ t, exec (.censusResult h p) s = .next t ∧ t.pending = s.pending ∧ t.block.mem = s.block.mem ∧
      (t.block.half h).efing.census =
        (if ((partEntries p.payload).map (fun e => e.1)).contains (s.block.moduleNo / 4) then 3 else 2) ∧
      t.block.reg (tideReg h 0x30) = BitVec.ofNat 64 (u64At p.payload 0) ∧ (t.block.half h).efing.seqTx = [] ∧
      (t.block.half h).efing.seqRx = [])

/-- R378, R384-R386, R388-R391: heartbeats and the journal. -/
def Obligations.HeartbeatAndJournalCommands : Prop :=
  (∀ (s : State) (m : Nat), s.block.sys.ready = true → s.block.halfA.tide.running = true →
    s.block.domain.beatSent + 10000000 ≤ s.block.tide .a → s.block.trayReporter = some m →
    ∃ t, exec .heartbeatSend s = .next t ∧ t.pending = s.pending ∧ t.block.mem = s.block.mem ∧
      (m ≠ s.block.moduleNo → t.block = (s.block.modDomain (fun d => { d with beatSent := s.block.tide .a })).manage .a (2 * m) 0x10
        s.block.heartbeatBytes) ∧
      (m = s.block.moduleNo → t.block.domain = { s.block.domain with
        beatSent := s.block.tide .a,
        moduleBeat := tabPut s.block.domain.moduleBeat m (s.block.tide .a, s.block.heartbeatBytes) })) ∧
  (∀ (s : State) (h : HalfId) (p : Packet), Admits s.block h p 5 [0x10] →
    ∃ t, exec (.heartbeat h p) s = .next t ∧ t.pending = s.pending ∧ t.block.mem = s.block.mem ∧
      t.block.domain = { s.block.domain with
        moduleBeat := tabPut s.block.domain.moduleBeat (leNat (p.payload.take 2)) (s.block.tide .a, p.payload) }) ∧
  (∀ (s : State) (h : HalfId) (p : Packet) (tray : Nat), Admits s.block h p 5 [0x11] → tray = pkSrc p / 8 → s.block.domain.holder = true →
    ∃ t, exec (.trayHeartbeat h p) s = .next t ∧ t.pending = s.pending ∧ t.block.mem = s.block.mem ∧
      tabFind t.block.domain.trayBeat tray = some (s.block.tide .a) ∧
      (s.block.judges tray = true → s.block.domain.reading = none → s.block.beatFault (beatEntries p.payload) ≠ none →
        tray ∈ t.block.domain.failedTrays) ∧
      (s.block.judges tray = false ∨ s.block.beatFault (beatEntries p.payload) = none →
        t.block.domain.failedTrays = s.block.domain.failedTrays)) ∧
  (∀ (s : State) (tray : Fin 2048), s.block.judges tray = true → s.block.domain.reading = none →
    max (tabGet 0 s.block.domain.trayBeat tray) (s.block.reg (tideReg .a 0x30)).toNat + 30000000 ≤ s.block.tide .a →
    ∃ t, exec (.heartbeatTimeout tray) s = .next t ∧ t.pending = s.pending ∧ t.block.mem = s.block.mem ∧
      tray.val ∈ t.block.domain.failedTrays) ∧
  (∀ (s : State) (h : HalfId) (p : Packet), Admits s.block h p 5 [0x12] → p.payload.length = 72 → s.block.zilsy.up = true →
    u64At p.payload 64 = 0 → s.block.domain.holder = false →
    ∃ t, exec (.journalAppend h p) s = .next t ∧ t.pending = s.pending ∧ t.block.mem = s.block.mem ∧
      t.block = (((s.block.unbuffer h p).takeSeq h p).keepRecord (p.payload.take 64)).manage h (pkSrc p) 0x13
        (p.payload.take 64 ++ leBytes 8 0) ∧
      tabFind t.block.domain.journal (recSeq p.payload) = some (p.payload.take 64)) ∧
  (∀ (s : State) (h : HalfId) (p : Packet) (l : List Byte) (tag : Nat), Admits s.block h p 5 [0x13] → p.payload.length = 72 →
    l = p.payload.take 64 → tag = u64At p.payload 64 →
    ∃ t, exec (.journalAcknowledgement h p) s = .next t ∧ t.pending = s.pending ∧
      (tag = 0 → s.block.domain.holder = true → s.block.domain.unacted = [] → s.block.domain.acks = [] → ∀ ms,
        tabFind s.block.domain.held (recSeq l) = some ms →
        t.block.domain = { s.block.domain with held := tabPut s.block.domain.held (recSeq l) (ms ++ [pkSrc p / 2]).eraseDups } ∧
          t.block.mem = s.block.mem) ∧
      (tag = 1 → s.block.domain.holder = true → s.block.domain.reading = none → s.block.domain.unacted = [] → ∀ es e,
        s.block.domain.acks = [(recSeq l, es)] → e ∈ s.block.liveEndpoints → e ∉ es → e ≠ pkSrc p →
        t.block.domain = { s.block.domain with acks := [(recSeq l, (es ++ [pkSrc p]).eraseDups)] } ∧ t.block.mem = s.block.mem) ∧
      (tag % 256 = 2 → t.block = ((s.block.unbuffer h p).takeSeq h p).ownerAck h l (tag / 256))) ∧
  (∀ (s : State) (h : HalfId) (p : Packet) (r : List Byte), Admits s.block h p 5 [0x14] → s.block.domain.holder = true →
    s.block.domain.reading = none → s.block.journaled (u32At p.payload 0) (u32At p.payload 4) (u32At p.payload 8) = some r →
    recSeq r ∉ s.block.domain.unacted →
    ∃ t, exec (.verdictQuery h p) s = .next t ∧ t.pending = s.pending ∧ t.block.mem = s.block.mem ∧
      t.block = ((s.block.unbuffer h p).takeSeq h p).manage .a (pkSrc p) 0x15 (answerBytes r (u32At p.payload 8))) ∧
  (∀ (s : State) (h : HalfId) (p : Packet), Admits s.block h p 5 [0x15] →
    ∃ t, exec (.verdictAnswer h p) s = .next t ∧ t.pending = s.pending ∧
      (s.block.verdictTasks h (u32At p.payload 0) (u32At p.payload 4) (u32At p.payload 8) = [] → t.block.mem = s.block.mem ∧
        t.block = (s.block.unbuffer h p).takeSeq h p) ∧
      (∀ k g c, s.block.verdictTasks h (u32At p.payload 0) (u32At p.payload 4) (u32At p.payload 8) = [(k, g, c)] →
        bits (u64At p.payload 12) 31 30 = 2 →
        t.block = ((s.block.unbuffer h p).takeSeq h p).verdictLands k
          (leBytes 8 (u64At p.payload 12) ++ leBytes 8 (u64At p.payload 20) ++ List.replicate ((c.tensor 1).ext 0 - 16) 0) false false)) ∧
  (∀ (s : State) (h : HalfId) (p : Packet) (e c0 c1 : Nat) (r : CkptReport), Admits s.block h p 5 [0x17] → s.block.domain.holder = true →
    e = pkSrc p → c0 = u16At p.payload 16 → c1 = u16At p.payload 18 →
    r = { job := u32At p.payload 0, step := u32At p.payload 4, endpoint := e, mark := u64At p.payload 8, copy0 := c0, copy1 := c1 } →
    ∃ t, exec (.checkpointReport h p) s = .next t ∧ t.pending = s.pending ∧ t.block.mem = s.block.mem ∧
      (c0 / 8 = c1 / 8 ∨ c0 / 8 = e / 8 ∨ c1 / 8 = e / 8 → t.block.domain = s.block.domain) ∧
      (c0 / 8 ≠ c1 / 8 → c0 / 8 ≠ e / 8 → c1 / 8 ≠ e / 8 → r ∈ t.block.domain.checkpoints)) ∧
  (∀ (s : State) (h : HalfId) (p : Packet), Admits s.block h p 5 [0x18] → s.block.domain.holder = true →
    ∃ t, exec (.lateReport h p) s = .next t ∧ t.pending = s.pending ∧ t.block.mem = s.block.mem ∧
      (u32At p.payload 0, u32At p.payload 4,
        min (((s.block.domain.lateReports.find? (fun r => r.1 = u32At p.payload 0 && r.2.1 = u32At p.payload 4)).map
          (fun r => r.2.2)).getD 0xFFFF) (u16At p.payload 8)) ∈ t.block.domain.lateReports) ∧
  (∀ (s : State) (h : HalfId) (p : Packet), Admits s.block h p 5 [0x19] → s.block.domain.holder = true →
    ∃ t, exec (.revocationReport h p) s = .next t ∧ t.pending = s.pending ∧ t.block.mem = s.block.mem ∧
      t.block.domain = { s.block.domain with revokingLenders := (s.block.domain.revokingLenders ++ [pkSrc p]).eraseDups })

/-- R324, R331, R388, R391-R393, R398, R420: recovery commands. -/
def Obligations.RecoveryCommands : Prop :=
  (∀ (s : State) (h : HalfId) (p : Packet) (i : Instr) (kind : Nat),
    (i, kind) ∈ [(Instr.recoveryLost h p, 3), (.recoveryAbort h p, 4), (.recoverySubst h p, 5), (.recoveryResume h p, 6)] →
    Admits s.block h p 5 [0x16] → p.payload.length = 64 → recKind p.payload = kind → recSeq p.payload ≤ s.block.applied h →
    s.block.applied h ≠ 0 → s.block.domain.aborting = [] →
    ∃ t, exec i s = .next t ∧ t.pending = s.pending ∧ t.block.mem = s.block.mem ∧
      t.block = ((s.block.unbuffer h p).takeSeq h p).manage h (pkSrc p) 0x13 (p.payload ++ leBytes 8 1)) ∧
  (∀ (s : State) (h : HalfId) (p : Packet), Shaped s.block → Admits s.block h p 5 [0x16] → p.payload.length = 64 → recKind p.payload = 3 →
    (s.block.applied h < recSeq p.payload ∨ s.block.applied h = 0) → recSeq p.payload < 2 ^ 40 →
    ∃ t, exec (.recoveryLost h p) s = .next t ∧ t.pending = s.pending ∧ t.block.applied h = recSeq p.payload ∧
      recArg0 p.payload ∈ t.block.domain.lost ∧
      (∀ x, x < 9 → (s.block.port h x).nbrEndpoint / 8 = recArg0 p.payload → (s.block.port h x).st = 2 ∨ (s.block.port h x).st = 3 →
        (t.block.port h x).st = 5 ∧ (t.block.port h x).cause = 5)) ∧
  (∀ (s : State) (h : HalfId) (p : Packet), Shaped s.block → Admits s.block h p 5 [0x16] → p.payload.length = 64 → recKind p.payload = 4 →
    (s.block.applied h < recSeq p.payload ∨ s.block.applied h = 0) → recSeq p.payload < 2 ^ 40 →
    ∃ t, exec (.recoveryAbort h p) s = .next t ∧ t.pending = s.pending ∧ t.block.mem = s.block.mem ∧ t.block.applied h = recSeq p.payload ∧
      (∀ k, s.block.slotOfJob (recJob p.payload) = some k → (s.block.slot k).st ≤ 2 → (t.block.slot k).st = 2 ∧
        t.block.domain.aborting = s.block.domain.aborting ++ [(k, h, p.payload)]) ∧
      (s.block.slotOfJob (recJob p.payload) = none → t.block.slots = s.block.slots ∧ t.block.domain = s.block.domain)) ∧
  (∀ (s : State) (h : HalfId) (p : Packet) (n : Nat), Admits s.block h p 5 [0x16] → p.payload.length = 64 → recKind p.payload = 5 →
    (s.block.applied h < recSeq p.payload ∨ s.block.applied h = 0) → recSeq p.payload < 2 ^ 40 → s.block.freeSubst h = some n →
    ∃ t, exec (.recoverySubst h p) s = .next t ∧ t.pending = s.pending ∧ t.block.mem = s.block.mem ∧ t.block.applied h = recSeq p.payload ∧
      t.block.reg (gateReg h (0x300 + 8 * n)) = BitVec.ofNat 64 (2 ^ 63 + recArg0 p.payload % 2048 * 2 ^ 52 +
        recArg1 p.payload % 2048 * 2 ^ 41 + recSeq p.payload) ∧
      t.block.domain = { s.block.domain with roster := (s.block.domain.roster ++ [recArg1 p.payload]).eraseDups }) ∧
  (∀ (s : State) (p : Packet), Admits s.block .a p 5 [0x16] → p.payload.length = 64 → recKind p.payload = 6 →
    (s.block.applied .a < recSeq p.payload ∨ s.block.applied .a = 0) → recSeq p.payload < 2 ^ 40 →
    ∃ t, exec (.recoveryResume .a p) s = .next t ∧ t.pending = s.pending ∧ t.block.mem = s.block.mem ∧
      t.block.applied .a = recSeq p.payload ∧
      t.block.reg (pciReg 0x38) = BitVec.ofNat 64 (recStep p.payload * 2 ^ 32 + recJob p.payload * 2 ^ 16 + 1) ∧
      t.block.reg (pciReg 0x40) = BitVec.ofNat 64 (recArg0 p.payload) ∧ bit (t.block.reg (pciReg 0x28)).toNat 5 = true) ∧
  (∀ (s : State) (n : Nat), Shaped s.block → s.block.sys.noUpPortFrom = some n → n + 100000000 ≤ s.block.sys.upNs →
    ∃ t, exec .noUpPortTimeout s = .next t ∧ t.pending = s.pending ∧ t.block.mem = s.block.mem ∧
      ∀ k, k < 16 → (t.block.slot k).st = if (s.block.slot k).st = 1 then 2 else (s.block.slot k).st)

/-- R337, R415-R417, R419, R441: Slack. -/
def Obligations.SlackCommands : Prop :=
  (∀ (s : State) (p : Path) (a : Actor) (x : Block), Arrives s.block p [1, 2] a x →
    ∃ t, exec (.slackEnter p) s = .next t ∧ t.pending = s.pending ∧ t.block.mem = s.block.mem ∧
      (s.block.slackRefuses = false → t.block.sys.slack = 1 ∧ t.block.sys.slackTide = s.block.tide .a ∧ Answers t.block p stOk ∧
        (∀ h, (s.block.window h).st = 1 → (t.block.window h).st = 2 ∧ (t.block.window h).tEnd = s.block.tide h + 10000000) ∧
        (s.block.flash.audit.length < 64512 → t.block.flash.audit.length = s.block.flash.audit.length + 1)) ∧
      (s.block.slackRefuses = true → t.block.sys = { s.block.sys with slackRefused := true } ∧ t.block.flash.audit = s.block.flash.audit ∧
        Answers t.block p stPermission)) ∧
  (∀ (s : State) (n : Nat), s.block.sys.idleFrom = some n → s.block.image.slackIdleMs ≠ 0 → s.block.idle = true →
    n + s.block.image.slackIdleMs * 1000000 ≤ s.block.tide .a →
    ∃ t, exec .slackIdleTimer s = .next t ∧ t.pending = s.pending ∧ t.block.mem = s.block.mem ∧ t.block.sys.slack = 1 ∧
      t.block.sys.slackTide = s.block.tide .a ∧ t.block.flash = s.block.flash) ∧
  (∀ (s : State), Shaped s.block → s.block.sys.slack = 1 → (∀ h, (s.block.window h).st ≠ 2) → (∀ h, s.block.homeQuiet h = true) →
    ∃ t, exec .slackEntryDone s = .next t ∧ t.pending = s.pending ∧
      t.block.sys.slack = (if s.block.sys.wakePending then 3 else 2) ∧ t.block.sys.wakePending = false ∧
      (∀ h x, x < 9 → (t.block.port h x).st = if (s.block.port h x).st = 2 then 3 else (s.block.port h x).st) ∧
      bit (t.block.reg (pciReg 0x28)).toNat 3 = true ∧
      ((∀ h ch, ch < 160 → s.block.regFld (chanReg h ch 0x18) 63 62 ≠ 1) → t.block.mem = s.block.mem)) ∧
  (∀ (s : State) (p : Path) (a : Actor) (x : Block), Arrives s.block p [1, 2] a x → s.block.flash.audit.length < 64512 →
    ∃ t, exec (.slackWake p) s = .next t ∧ t.pending = s.pending ∧ t.block.mem = s.block.mem ∧ Answers t.block p stOk ∧
      (s.block.sys.slack = 2 → t.block.sys = { s.block.sys with slack := 3, slackTide := s.block.tide .a, wakePending := false } ∧
        t.block.flash.audit.length = s.block.flash.audit.length + 1) ∧
      (s.block.sys.slack = 1 → s.block.sys.wakePending = false → t.block.sys = { s.block.sys with wakePending := true } ∧
        t.block.flash.audit.length = s.block.flash.audit.length + 1) ∧
      (s.block.sys.slack = 0 ∨ s.block.sys.slack = 3 → t.block.sys = s.block.sys ∧ t.block.flash.audit = s.block.flash.audit)) ∧
  (∀ (s : State), Shaped s.block → s.block.sys.slack = 3 → s.block.sys.slackTide + 30000000 ≤ s.block.tide .a →
    ∃ t, exec .wakeReady s = .next t ∧ t.pending = s.pending ∧ t.block.mem = s.block.mem ∧ t.block.sys.slack = 0 ∧
      (∀ h x, x < 9 → (t.block.port h x).st = if (s.block.port h x).st = 3 then 2 else (s.block.port h x).st) ∧
      bit (t.block.reg (pciReg 0x28)).toNat 4 = true)

/-- R434, R435, R439, R441, R446-R448, R453, R454, R458, R463: Zilsy. The layout of answers and of the report's version word is the model's
(log entries 17, 56). -/
def Obligations.ZilsyCommands : Prop :=
  (∀ (s : State) (c : Channel) (v : Nat), s.block.hears c = true →
    ∃ t, exec (.nonce c v) s = .next t ∧ t.pending = s.pending ∧ t.block.mem = s.block.mem ∧
      t.block.out = s.block.out ++ [.reply c stOk 0 (leBytes 16 v)] ∧
      (s.block.zilsy.nonces.length < 64 → t.block.zilsy = { s.block.zilsy with nonces := s.block.zilsy.nonces ++ [(v, s.block.sys.upNs)] }) ∧
      (s.block.zilsy.nonces.length = 64 → t.block.zilsy.nonces = s.block.zilsy.nonces.drop 1 ++ [(v, s.block.sys.upNs)]) ∧
      (∀ y, ¬ mailboxReg y → t.block.reg y = s.block.reg y)) ∧
  (∀ (s : State) (v : Nat), ∃ t, exec (.nonceExpiry v) s = .next t ∧ t.pending = s.pending ∧
    t.block = s.block.setZilsy { s.block.zilsy with nonces := t.block.zilsy.nonces } ∧
    ∀ n at_, (n, at_) ∈ t.block.zilsy.nonces ↔ (n, at_) ∈ s.block.zilsy.nonces ∧ (n ≠ v ∨ s.block.sys.upNs ≤ at_ + 10000000000)) ∧
  (∀ (s : State) (m : Envelope) (seq : Nat) (n : Fin 256) (a : Actor) (x : Block), Arrives s.block (.zilsy m) [1, 2, 3] a x →
    (∃ t, exec (.readLog m seq n) s = .next t ∧ t.pending = s.pending ∧ t.block.mem = s.block.mem ∧ t.block.flash = s.block.flash ∧
      (∀ y, ¬ mailboxReg y → t.block.reg y = s.block.reg y) ∧ t.block.out = s.block.out ++ [.reply m.channel stOk 0
        (((s.block.flash.log.filter (fun r => decide (seq ≤ r.seq))).take n).map LogRecord.bytes).flatten]) ∧
    (∃ t, exec (.readAudit m seq n) s = .next t ∧ t.pending = s.pending ∧ t.block.mem = s.block.mem ∧ t.block.flash = s.block.flash ∧
      (∀ y, ¬ mailboxReg y → t.block.reg y = s.block.reg y) ∧ t.block.out = s.block.out ++ [.reply m.channel stOk 0
        (((s.block.flash.audit.filter (fun r => decide (seq ≤ r.seq))).take n).map AuditRecord.bytes).flatten]) ∧
    (∃ t d, exec (.attest m seq) s = .next t ∧ t.pending = s.pending ∧ t.block.mem = s.block.mem ∧ t.block.flash = s.block.flash ∧
      (∀ y, ¬ mailboxReg y → t.block.reg y = s.block.reg y) ∧ (s.block.attestReport seq).length = 320 ∧
      t.block.out = s.block.out ++ [.reply m.channel stOk 0 (s.block.attestReport seq ++ s.block.flash.certificate ++ d)] ∧
      d.length = 64 + 3309)) ∧
  (∀ (s : State) (p : Path) (v : Word) (a : Actor) (x : Block), Arrives s.block p [1, 2] a x → v.toNat < 2048 →
    ∃ t, exec (.powerCap p v) s = .next t ∧ t.pending = s.pending ∧ t.block.mem = s.block.mem ∧
      (400 ≤ v.toNat → v.toNat ≤ s.block.image.powerLimitW → s.block.flash.audit.length < 64512 →
        t.block.regFld (pwrReg 0) 10 0 = v.toNat ∧ t.block.flash.audit.length = s.block.flash.audit.length + 1 ∧ Answers t.block p stOk ∧
          (∀ y, ¬ mailboxReg y → y ≠ pwrReg 0 → t.block.reg y = s.block.reg y)) ∧
      (v.toNat < 400 ∨ s.block.image.powerLimitW < v.toNat →
        (∀ y, ¬ mailboxReg y → t.block.reg y = s.block.reg y) ∧ t.block.flash.audit = s.block.flash.audit ∧ Answers t.block p stPermission)) ∧
  (∀ (s : State) (m : Envelope) (force : Bool) (a : Actor) (x : Block), Arrives s.block (.zilsy m) [1, 2] a x →
    ∃ t, exec (.resetModule m force) s = .next t ∧ t.pending = s.pending ∧
      (s.block.recentTrip = false → (s.block.allDisabled = true ∨ (force = true ∧ a.role = 2)) →
        (s.block.sys.powerGood = true → t.block.sys.startStep = 1 ∧ t.block.sys.ready = false ∧ t.block.mem = [] ∧
          t.block.regFld (pciReg 0) 7 0 = 1) ∧
        (s.block.sys.powerGood = false → t.block.sys.standby = false) ∧
        (s.block.flash.audit.length < 64512 → t.block.flash.audit.length = s.block.flash.audit.length + 1)) ∧
      (s.block.recentTrip = true ∨ (s.block.allDisabled = false ∧ ¬ (force = true ∧ a.role = 2)) →
        t.block.sys = s.block.sys ∧ t.block.mem = s.block.mem ∧ t.block.flash.audit = s.block.flash.audit ∧
          Answers t.block (.zilsy m) stPermission)) ∧
  (∀ (s : State), s.block.zilsy.up = true →
    ∃ t, exec .lockstepMismatch s = .next t ∧ t.pending = s.pending ∧ t.block.mem = s.block.mem ∧ t.block.slots = s.block.slots ∧
      t.block.zilsy.up = false ∧ t.block.zilsy.resets = min (s.block.zilsy.resets + 1) 255 ∧ t.block.zilsy.nonces = [] ∧
      t.block.zilsy.staging = none ∧ t.block.zilsy.configQueue = [] ∧ t.block.zilsy.configWrite = none ∧ t.block.domain.journal = [] ∧
      t.block.domain.holder = false ∧ t.block.halfA.graphs = s.block.halfA.graphs ∧ t.block.halfB.graphs = s.block.halfB.graphs) ∧
  (∀ (s : State) (isB : Bool) (x : FirmwareSlot), s.block.zilsy.up = false → s.block.zilsy.resets ≠ 0 → s.block.sys.startStep ≠ 1 →
    s.block.flash.bootSlot = some (isB, x) →
    ∃ t, exec .zilsyRestart s = .next t ∧ t.pending = s.pending ∧ t.block.mem = s.block.mem ∧ t.block.zilsy.up = true ∧
      t.block.zilsy.fwSlotB = isB ∧ t.block.zilsy.started = s.block.sys.upNs ∧ t.block.halfA = s.block.halfA ∧ t.block.halfB = s.block.halfB) ∧
  (∀ (s : State) (n : Nat) (r : LogRecord), s.block.zilsy.up = true → s.block.zilsy.merging = [(n, r)] →
    ∃ t, exec .logMergeFlush s = .next t ∧ t.pending = s.pending ∧ t.block.mem = s.block.mem ∧
      (n + 1000000000 ≤ s.block.sys.upNs → t.block.zilsy.merging = [] ∧ t.block.flash = s.block.flash.appendLog r) ∧
      (s.block.sys.upNs < n + 1000000000 → t.block.zilsy = s.block.zilsy ∧ t.block.flash = s.block.flash))

/-- R427, R431, R432, R441, R443, R444, R447, R448, R450, R454: configuration, staging and keys. -/
def Obligations.ConfigurationCommands : Prop :=
  (∀ (s : State) (m : Envelope) (a : Actor) (x : Block), Arrives s.block (.zilsy m) [1, 2] a x →
    ∃ t, exec (.commit m) s = .next t ∧ t.pending = s.pending ∧ t.block.mem = s.block.mem ∧
      (s.block.flash.audit.length < 64512 → s.block.zilsy.configWrite = none → s.block.zilsy.configQueue = [] →
        s.block.installerStaging = false →
        t.block.zilsy.configWrite = some
          { which := 3, layer := s.block.operatorLayer a.keyId s.block.disabledNow, disabled := s.block.disabledNow, keyId := a.keyId, role := a.role, viaPcie := a.viaPcie,
            started := s.block.sys.upNs } ∧
        t.block.flash = s.block.flash.setSlot (!s.block.zilsy.currentB) none ∧ t.block.regFld (cfgReg 0) 3 3 = 1 ∧
        Answers t.block (.zilsy m) stOk) ∧
      (s.block.flash.audit.length < 64512 → s.block.zilsy.configWrite.isSome = true →
        t.block.zilsy.configQueue.length = s.block.zilsy.configQueue.length + 1 ∧ t.block.zilsy.configWrite = s.block.zilsy.configWrite ∧
        t.block.flash = s.block.flash ∧ Answers t.block (.zilsy m) stOk) ∧
      (64512 ≤ s.block.flash.audit.length → t.block.zilsy.configQueue = s.block.zilsy.configQueue ∧
        Answers t.block (.zilsy m) stPermission)) ∧
  (∀ (s : State) (ok : Bool) (w : ConfigWrite), s.block.zilsy.configWrite = some w → s.block.zilsy.configQueue = [] →
    ∃ t, exec (.configWriteDone ok) s = .next t ∧ t.pending = s.pending ∧ t.block.mem = s.block.mem ∧ t.block.zilsy.configWrite = none ∧
      t.block.regFld (cfgReg 0) 3 3 = 0 ∧
      (ok = true → s.block.slotVerifies (s.block.writeTarget w) = true → s.block.flash.audit.length < 64512 → t.block.zilsy.currentB = (!s.block.zilsy.currentB) ∧
        t.block.flash.slot (!s.block.zilsy.currentB) = some (s.block.writeTarget w) ∧
        t.block.flash.slot s.block.zilsy.currentB = s.block.flash.slot s.block.zilsy.currentB ∧
        (∃ c, (t.block.flash.commit0 = some c ∨ t.block.flash.commit1 = some c) ∧ c.seq = s.block.flash.commitSeq + 1 ∧
          c.slotB = !s.block.zilsy.currentB) ∧
        t.block.flash.audit.length = s.block.flash.audit.length + 1) ∧
      (ok = false ∨ s.block.slotVerifies (s.block.writeTarget w) = false ∨ 64512 ≤ s.block.flash.audit.length → t.block.zilsy.currentB = s.block.zilsy.currentB ∧
        t.block.flash.slot s.block.zilsy.currentB = s.block.flash.slot s.block.zilsy.currentB ∧
        t.block.flash.slot (!s.block.zilsy.currentB) = none ∧ t.block.flash.audit = s.block.flash.audit)) ∧
  (∀ (s : State) (m : Envelope) (object length : Nat) (a : Actor) (x : Block), Arrives s.block (.zilsy m) (stagingRoles object) a x →
    object ∈ [1, 2, 3] →
    ∃ t, exec (.stageBegin m object length) s = .next t ∧ t.pending = s.pending ∧ t.block.mem = s.block.mem ∧
      (s.block.zilsy.staging = none → length ≤ stagingMax object → Answers t.block (.zilsy m) stOk ∧
        (∃ y, t.block.zilsy.staging = some y ∧ y.object = object ∧ y.keyId = a.keyId ∧ y.length = length ∧ y.data = [] ∧
          y.lastActive = s.block.sys.upNs ∧ y.channel = m.channel) ∧
        (object = 3 → t.block.otherFirmware = none ∧ t.block.runningFirmware = s.block.runningFirmware) ∧
        (object ≠ 3 → t.block.flash = s.block.flash)) ∧
      (∀ y, s.block.zilsy.staging = some y → t.block.zilsy.staging = some y ∧
        t.block.out.getLast? = some (.reply m.channel stPermission y.keyId []))) ∧
  (∀ (s : State) (c : Channel) (off : Nat) (data : List Byte) (y : Staging), s.block.hears c = true → s.block.zilsy.staging = some y →
    ∃ t, exec (.stageData c off data) s = .next t ∧ t.pending = s.pending ∧ t.block.mem = s.block.mem ∧ t.block.flash = s.block.flash ∧
      (y.channel = c → data.length ≤ 16320 → off + data.length ≤ y.length →
        t.block.zilsy = { s.block.zilsy with
          staging := some { y with data := hostPutList y.data off data, lastActive := s.block.sys.upNs } } ∧
        t.block.out = s.block.out ++ [.reply c stOk 0 []]) ∧
      (y.channel ≠ c ∨ 16320 < data.length ∨ y.length < off + data.length → t.block.zilsy.staging = some y ∧
        t.block.out.getLast? = some (.reply c stPermission 0 []))) ∧
  (∀ (s : State) (m : Envelope) (o : StagedObject) (a : Actor) (x : Block) (y : Staging), s.block.zilsy.staging = some y → y.object = 3 →
    Arrives s.block (.zilsy m) [2, 3] a x → s.block.zilsy.configQueue = [] →
    ∃ t, exec (.stageApply m o) s = .next t ∧ t.pending = s.pending ∧ t.block.mem = s.block.mem ∧ t.block.zilsy.staging = none ∧
      t.block.runningFirmware = s.block.runningFirmware ∧
      (o.ed25519Ok = true → o.mlDsaOk = true → s.block.flash.floor ≤ o.svn → s.block.flash.audit.length < 64512 →
        t.block.otherFirmware = some (s.block.newFirmware y o) ∧ t.block.flash.audit.length = s.block.flash.audit.length + 1 ∧
        Answers t.block (.zilsy m) stOk) ∧
      (o.ed25519Ok = false ∨ o.mlDsaOk = false → t.block.otherFirmware = s.block.otherFirmware ∧ Answers t.block (.zilsy m) stSignature) ∧
      (o.ed25519Ok = true → o.mlDsaOk = true → o.svn < s.block.flash.floor → t.block.otherFirmware = s.block.otherFirmware ∧
        Answers t.block (.zilsy m) stPermission)) ∧
  (∀ (s : State) (m : Envelope) (o : StagedObject) (a : Actor) (x : Block) (y : Staging) (l : Layer), s.block.zilsy.staging = some y →
    y.object = 1 → Arrives s.block (.zilsy m) [2] a x → s.block.zilsy.configWrite = none → s.block.flash.audit.length < 64512 →
    parseLayer 2 y.bytes (o.ed25519Ok && o.mlDsaOk) = some l → s.block.layerSigned (2, l) = true →
    ∃ t, exec (.stageApply m o) s = .next t ∧ t.pending = s.pending ∧ t.block.mem = s.block.mem ∧ t.block.zilsy.staging = none ∧
      t.block.zilsy.configWrite = some
        { which := 2, layer := l, disabled := 0, keyId := a.keyId, role := a.role, viaPcie := a.viaPcie, started := s.block.sys.upNs } ∧
      t.block.zilsy.configQueue = s.block.zilsy.configQueue ∧ Answers t.block (.zilsy m) stOk) ∧
  (∀ (s : State) (y : Staging), s.block.zilsy.up = true → s.block.zilsy.staging = some y → s.block.zilsy.configQueue = [] →
    ∃ t, exec .stagingIdle s = .next t ∧ t.pending = s.pending ∧ t.block.mem = s.block.mem ∧ t.block.flash = s.block.flash ∧
      t.block.zilsy = { s.block.zilsy with
        staging := if y.lastActive + 60000000000 ≤ s.block.sys.upNs then none else some y }) ∧
  (∀ (s : State) (m : Envelope) (k : KeyBody) (a : Actor) (x : Block),
    Arrives s.block (.zilsy m) (if k.role = 1 then [2] else [2, 3]) a x → s.block.flash.audit.length < 64512 →
    ∃ t, exec (.keyEnrol m k) s = .next t ∧ t.pending = s.pending ∧ t.block.mem = s.block.mem ∧
      (k.role = 1 ∨ k.role = 2 → s.block.activeKeys k.role < (if k.role = 1 then 256 else 16) → s.block.flash.keys.length < 512 →
        t.block.flash.keys = s.block.flash.keys ++
          [{ keyId := leNat ((sha384 (k.ed25519 ++ k.mlDsa)).take 8), role := k.role, active := true, ed25519 := k.ed25519, mlDsa := k.mlDsa }] ∧
        t.block.flash.audit.length = s.block.flash.audit.length + 1 ∧ Answers t.block (.zilsy m) stOk) ∧
      ((if k.role = 1 then 256 else 16) ≤ s.block.activeKeys k.role ∨ 512 ≤ s.block.flash.keys.length →
        t.block.flash.keys = s.block.flash.keys ∧ t.block.flash.audit = s.block.flash.audit ∧ Answers t.block (.zilsy m) stPermission)) ∧
  (∀ (s : State) (m : Envelope) (id : Nat) (k : KeyEntry) (a : Actor) (x : Block),
    s.block.flash.keys.find? (fun k => k.keyId = id && k.active) = some k → k.role = 1 ∨ k.role = 2 →
    Arrives s.block (.zilsy m) (if k.role = 1 then [2] else [2, 3]) a x → s.block.flash.audit.length < 64512 →
    ∃ t, exec (.keyRevoke m id) s = .next t ∧ t.pending = s.pending ∧ t.block.mem = s.block.mem ∧
      (k.role = 1 ∨ 1 < s.block.activeKeys 2 →
        t.block.flash.keys = s.block.flash.keys.map (fun k => if k.keyId = id then { k with active := false } else k) ∧
        t.block.flash.audit.length = s.block.flash.audit.length + 1 ∧ Answers t.block (.zilsy m) stOk ∧
        (∀ y, t.block.zilsy.staging = some y → y.keyId ≠ id)) ∧
      (k.role = 2 → s.block.activeKeys 2 ≤ 1 → t.block.flash.keys = s.block.flash.keys ∧ t.block.flash.audit = s.block.flash.audit ∧
        Answers t.block (.zilsy m) stPermission)) ∧
  (∀ (s : State) (m : Envelope) (l : List (Fin 320)) (a : Actor) (x : Block), Arrives s.block (.zilsy m) [3] a x →
    s.block.flash.audit.length < 64512 →
    ∃ t, exec (.repairClear m l) s = .next t ∧ t.pending = s.pending ∧ t.block.mem = s.block.mem ∧
      (∀ c, c ∈ t.block.flash.repair ↔ c ∈ s.block.flash.repair ∧ ¬ ∃ n ∈ l, n.val = c.1) ∧
      t.block.flash.audit.length = s.block.flash.audit.length + 1 ∧ Answers t.block (.zilsy m) stOk) ∧
  (∀ (s : State) (m : Envelope) (mode : Nat) (a : Actor) (x : Block), Arrives s.block (.zilsy m) [3] a x →
    s.block.flash.audit.length < 64512 →
    ∃ t, exec (.diag m mode) s = .next t ∧ t.pending = s.pending ∧ t.block.mem = s.block.mem ∧
      (s.block.image.diagAccess = true → t.block.zilsy.jtag = true ∧ t.block.flash.audit.length = s.block.flash.audit.length + 1 ∧
        Answers t.block (.zilsy m) stOk) ∧
      (s.block.image.diagAccess = false → t.block.zilsy.jtag = s.block.zilsy.jtag ∧ t.block.flash.audit = s.block.flash.audit ∧
        Answers t.block (.zilsy m) stPermission))

/-- The invariants hold at reset. -/
def Obligations.ResetMeetsInvariants : Prop :=
  State.reset.block.memWf = true ∧ Shaped State.reset.block ∧ Numbered State.reset.block.flash.audit ∧
    OneSlot (State.reset.block.slots.map (fun x => (x.st, x.job)))

/-- The canonical form of both memories lasts (log entries 8, 9). -/
def Obligations.MemoryStaysCanonical : Prop :=
  ∀ s t : State, s.block.memWf = true → step s = .next t → t.block.memWf = true

/-- R437: the audit area is appended to in SEQ order and never overwritten. -/
def Obligations.AuditRecordsAreNeverOverwritten : Prop :=
  ∀ s t : State, step s = .next t → s.block.flash.audit <+: t.block.flash.audit ∧
    (Numbered s.block.flash.audit → Numbered t.block.flash.audit)

/-- R451. -/
def Obligations.FloorNeverFalls : Prop :=
  (∀ (s : State) (i : Instr) (isB : Bool) (x : FirmwareSlot),
    (i = .zilsyBoot ∧ s.block.sys.startStep = 1) ∨
      (i = .zilsyRestart ∧ s.block.zilsy.up = false ∧ s.block.zilsy.resets ≠ 0 ∧ s.block.sys.startStep ≠ 1) →
    s.block.flash.bootSlot = some (isB, x) → x.raiseFloor = true → s.block.flash.floor < x.svn →
    s.block.flash.audit.length < 65536 →
    ∃ t r, exec i s = .next t ∧ t.pending = s.pending ∧ t.block.flash.audit = s.block.flash.audit ++ [r] ∧ r.kind = 0x21 ∧ r.role = 3 ∧
      r.keyId = 0xFFFFFFFFFFFFFFFF ∧ r.old = s.block.flash.floor ∧ r.new = x.svn ∧ t.block.flash.floor = x.svn) ∧
  (∀ s t : State, step s = .next t → s.block.flash.floor ≤ t.block.flash.floor ∧
    (s.block.flash.floor < t.block.flash.floor → ∃ i rest isB x, s.pending = i :: rest ∧ (i = .zilsyBoot ∨ i = .zilsyRestart) ∧
      s.block.flash.bootSlot = some (isB, x) ∧ x.signed = true ∧ x.raiseFloor = true ∧ t.block.flash.floor = x.svn))

/-- R444: entries keep their slots, and revocation lasts. -/
def Obligations.KeyEntriesKeepTheirSlots : Prop :=
  ∀ s t : State, step s = .next t → KeysKept s.block.flash.keys t.block.flash.keys

/-- R40: a job is bound to at most one slot. -/
def Obligations.JobsHoldOneSlot : Prop :=
  ∀ s t : State, s.block.slots.length = 16 → OneSlot (s.block.slots.map (fun x => (x.st, x.job))) → step s = .next t →
    t.block.slots.length = 16 ∧ OneSlot (t.block.slots.map (fun x => (x.st, x.job)))

/-- R326: after lock a counter never decreases. -/
def Obligations.TideNeverDecreases : Prop :=
  ∀ (s t : State) (h : HalfId), step s = .next t → (s.block.half h).tide.everLocked = true → (s.block.half h).tide.running = true →
    (t.block.half h).tide.everLocked = true → s.block.tide h ≤ t.block.tide h ∧ (t.block.half h).tide.running = true

/-- R40, R306, R404: how many of each there are. -/
def Obligations.BlockKeepsItsShape : Prop :=
  ∀ s t : State, Shaped s.block → step s = .next t → Shaped t.block
end

