-- ==== Sys2Proof/Laws/Lasting.lean ====
section
/-! SUPPORT. The lasting state of the module: memory, host memory, the audit area, the key store, and which job each slot is bound to. Most
operations leave all five alone; for those one equation says so. -/

namespace Sys2Proof.Machine

/-- The five parts, as far as the invariants of this package speak of them. -/
structure Lasting where
  mem : List Host.Cell
  hostMem : List Host.Cell
  audit : List AuditRecord
  keys : List KeyEntry
  /-- of each job slot, its state and its job -/
  slots : List (Nat × Nat)

/-- The lasting state of a block. -/
def Block.lasting (b : Block) : Lasting :=
  { mem := b.mem, hostMem := b.hostMem, audit := b.flash.audit, keys := b.flash.keys, slots := b.slots.map (fun s => (s.st, s.job)) }

@[simp] theorem lasting_update (e : Block) (hA hB regs fill bad pairs sys image zilsy power domain out n) :
    Block.lasting ⟨hA, hB, regs, e.mem, fill, bad, e.hostMem, e.slots, pairs, sys, image, e.flash, zilsy, power, domain, out, n⟩ = e.lasting := rfl

@[simp] theorem lasting_flash (e : Block) (hA hB regs fill bad pairs sys image zilsy power domain out n fa fb sa sb c0 c1 log prt rep ident cert ta tb) :
    Block.lasting ⟨hA, hB, regs, e.mem, fill, bad, e.hostMem, e.slots, pairs, sys, image, ⟨fa, fb, sa, sb, c0, c1, e.flash.keys, log, prt, e.flash.audit, rep, ident, cert, ta, tb⟩, zilsy, power, domain, out, n⟩ = e.lasting := rfl

@[simp] theorem lasting_appendLog (e : Block) (hA hB regs fill bad pairs sys image zilsy power domain out n r) :
    Block.lasting ⟨hA, hB, regs, e.mem, fill, bad, e.hostMem, e.slots, pairs, sys, image, e.flash.appendLog r, zilsy, power, domain, out, n⟩ = e.lasting := rfl

@[simp] theorem Block.setSys_lasting (b : Block) (x : Sys) : (b.setSys x).lasting = b.lasting := by rfl

@[simp] theorem Block.setImage_lasting (b : Block) (x : Image) : (b.setImage x).lasting = b.lasting := by rfl

@[simp] theorem Block.setZilsy_lasting (b : Block) (x : Zilsy) : (b.setZilsy x).lasting = b.lasting := by rfl

@[simp] theorem Block.setPower_lasting (b : Block) (x : Power) : (b.setPower x).lasting = b.lasting := by rfl

@[simp] theorem Block.setDomain_lasting (b : Block) (x : Domain) : (b.setDomain x).lasting = b.lasting := by rfl

/-- A flash of the same audit area and keys. -/
theorem Block.setFlash_lasting (b : Block) (x : Flash) (ha : x.audit = b.flash.audit) (hk : x.keys = b.flash.keys) :
    (b.setFlash x).lasting = b.lasting := by
  simp [Block.setFlash, Block.lasting, ha, hk]

@[simp] theorem Block.setFlash_fields_lasting (e : Block) (fa fb sa sb c0 c1 log prt rep ident cert ta tb) :
    (e.setFlash ⟨fa, fb, sa, sb, c0, c1, e.flash.keys, log, prt, e.flash.audit, rep, ident, cert, ta, tb⟩).lasting = e.lasting := by rfl

@[simp] theorem Block.setFlash_appendLog_lasting (e : Block) (r) : (e.setFlash (e.flash.appendLog r)).lasting = e.lasting := by rfl

@[simp] theorem Block.lasting_ite (p : Prop) [Decidable p] (x y : Block) : (if p then x else y).lasting = if p then x.lasting else y.lasting := by
  split <;> rfl

@[simp] theorem Block.lasting_foldl {α : Type} (f : Block → α → Block) (hf : ∀ b x, (f b x).lasting = b.lasting) (l : List α) (b : Block) :
    (l.foldl f b).lasting = b.lasting := by
  induction l generalizing b with
  | nil => rfl
  | cons x xs ih => rw [List.foldl_cons, ih, hf]

@[simp] theorem Block.setHalf_lasting (b : Block) (h x) : (b.setHalf h x).lasting = b.lasting := by
  cases h <;> rfl

@[simp] theorem Block.modHalf_lasting (b : Block) (h f) : (b.modHalf h f).lasting = b.lasting := Block.setHalf_lasting b h _

theorem listMod_map {α β : Type} (g : α → β) (f : α → α) (hf : ∀ x, g (f x) = g x) (l : List α) (i : Nat) : (listMod l i f).map g = l.map g := by
  induction l generalizing i with
  | nil => rfl
  | cons x xs ih => cases i <;> simp [listMod, hf, ih]

theorem Block.modSlot_lasting (b : Block) (k : Nat) (f : JobSlot → JobSlot) (hf : ∀ s, (f s).st = s.st ∧ (f s).job = s.job) :
    (b.modSlot k f).lasting = b.lasting := by
  simp [Block.modSlot, Block.lasting, listMod_map (fun s : JobSlot => (s.st, s.job)) f (fun s => Prod.ext (hf s).1 (hf s).2)]

@[simp] theorem Block.removePage_lasting (b : Block) (k key : Nat) : (b.removePage k key).lasting = b.lasting :=
  b.modSlot_lasting k _ (fun _ => ⟨rfl, rfl⟩)

@[simp] theorem Block.addPages_lasting (b : Block) (k : Nat) (l : List (Nat × Page)) : (b.addPages k l).lasting = b.lasting := by
  induction l generalizing b with
  | nil => rfl
  | cons p ps ih => rw [Block.addPages, ih]; exact b.modSlot_lasting k _ (fun _ => ⟨rfl, rfl⟩)

end Sys2Proof.Machine
end

