-- ==== Sys2Proof/Laws/LastingSaffron.lean ====
section
/-! SUPPORT. Each operation of Saffron and what stands below it that leaves the lasting state alone (Laws/Lasting.lean): one lemma for each. -/

namespace Sys2Proof.Machine

@[simp] theorem Block.setReg_lasting (b : Block) (a : Nat) (v : Word) : (b.setReg a v).lasting = b.lasting := by
  simp [Block.setReg]

@[simp] theorem Block.modReg_lasting (b : Block) (a : Nat) (f : Word → Word) : (b.modReg a f).lasting = b.lasting := by
  simp [Block.modReg]

@[simp] theorem Block.count_lasting (b : Block) (a : Nat) (hi : Nat) (lo : Nat) (n : Nat) : (b.count a hi lo n).lasting = b.lasting := by
  simp [Block.count]

@[simp] theorem Block.setRegFld_lasting (b : Block) (a : Nat) (hi : Nat) (lo : Nat) (v : Nat) : (b.setRegFld a hi lo v).lasting = b.lasting := by
  simp [Block.setRegFld]

@[simp] theorem Block.zilsyLog_lasting (b : Block) (r : LogRecord) : (b.zilsyLog r).lasting = b.lasting := by
  simp only [Block.zilsyLog]; (repeat' split) <;> simp

@[simp] theorem Block.log_lasting (b : Block) (e : Event) : (b.log e).lasting = b.lasting := by
  simp [Block.log]

@[simp] theorem Block.logPermission_lasting (b : Block) (needed : Nat) (keyId : Nat) (job : Nat) :
    (b.logPermission needed keyId job).lasting = b.lasting := by
  simp [Block.logPermission]

@[simp] theorem Block.logRefused_lasting (b : Block) (h : HalfId) (what : Nat) (value : Nat) (status : Nat) (kind : Nat) (index : Nat) (job : Nat) :
    (b.logRefused h what value status kind index job).lasting = b.lasting := by
  simp [Block.logRefused]

@[simp] theorem Block.emit_lasting (b : Block) (o : Out) : (b.emit o).lasting = b.lasting := by
  simp [Block.emit]

@[simp] theorem Block.raise_lasting (b : Block) (vec : Nat) : (b.raise vec).lasting = b.lasting := by
  simp [Block.raise]

@[simp] theorem Block.moduleEvent_lasting (b : Block) (i : Nat) : (b.moduleEvent i).lasting = b.lasting := by
  simp [Block.moduleEvent]

@[simp] theorem Block.fresh_lasting (b : Block) : (b.fresh ).2.lasting = b.lasting := by
  simp [Block.fresh]

@[simp] theorem Block.tick_lasting (b : Block) : (b.tick ).lasting = b.lasting := by
  simp [Block.tick]

@[simp] theorem Block.setUsable_lasting (b : Block) (h : HalfId) : (b.setUsable h).lasting = b.lasting := by
  simp [Block.setUsable]

@[simp] theorem Block.pendChannel_lasting (b : Block) (h : HalfId) (ch : Nat) (cause : Nat) : (b.pendChannel h ch cause).lasting = b.lasting := by
  simp [Block.pendChannel]

@[simp] theorem Block.checkChannel_lasting (b : Block) (h : HalfId) (ch : Nat) : (b.checkChannel h ch).lasting = b.lasting := by
  simp [Block.checkChannel]

@[simp] theorem Block.noteUe_lasting (b : Block) (a : Nat) : (b.noteUe a).lasting = b.lasting := by
  simp only [Block.noteUe]; (repeat' split) <;> simp

@[simp] theorem Block.noteTierCe_lasting (b : Block) (h : HalfId) (tier : Nat) : (b.noteTierCe h tier).lasting = b.lasting := by
  simp [Block.noteTierCe]

@[simp] theorem Block.noteCe_lasting (b : Block) (a : Nat) : (b.noteCe a).lasting = b.lasting := by
  simp only [Block.noteCe]; (repeat' split) <;> simp

@[simp] theorem Block.modTiers_lasting (b : Block) (h : HalfId) (f : Tiers → Tiers) : (b.modTiers h f).lasting = b.lasting := by
  simp [Block.modTiers]

@[simp] theorem Block.freeFrame_lasting (b : Block) (f : Nat) : (b.freeFrame f).lasting = b.lasting := by
  simp [Block.freeFrame]

@[simp] theorem Block.freeFrames_lasting (b : Block) (l : List Nat) : (b.freeFrames l).lasting = b.lasting := by
  induction l generalizing b  <;> simp_all [Block.freeFrames]

@[simp] theorem Block.removePages_lasting (b : Block) (k : Nat) (l : List Nat) : (b.removePages k l).lasting = b.lasting := by
  induction l generalizing b k  <;> simp_all [Block.removePages]

@[simp] theorem Block.modObject_lasting (b : Block) (handle : Nat) (f : CacheObject → CacheObject) : (b.modObject handle f).lasting = b.lasting := by
  simp only [Block.modObject]; (repeat' split) <;> simp

@[simp] theorem Block.freeObject_lasting (b : Block) (handle : Nat) : (b.freeObject handle).lasting = b.lasting := by
  simp only [Block.freeObject]; (repeat' split) <;> simp

@[simp] theorem Block.reapObject_lasting (b : Block) (handle : Nat) : (b.reapObject handle).lasting = b.lasting := by
  simp only [Block.reapObject]; (repeat' split) <;> simp

@[simp] theorem Block.reapObjects_lasting (b : Block) (l : List Nat) : (b.reapObjects l).lasting = b.lasting := by
  induction l generalizing b  <;> simp_all [Block.reapObjects]

@[simp] theorem Block.dropMapping_lasting (b : Block) (handle : Nat) (m : Nat × Nat) : (b.dropMapping handle m).lasting = b.lasting := by
  simp only [Block.dropMapping]; (repeat' split) <;> simp

@[simp] theorem Block.dropMappings_lasting (b : Block) (handle : Nat) (l : List (Nat × Nat)) : (b.dropMappings handle l).lasting = b.lasting := by
  induction l generalizing b handle  <;> simp_all [Block.dropMappings]

@[simp] theorem Block.unmapObject_lasting (b : Block) (handle : Nat) : (b.unmapObject handle).lasting = b.lasting := by
  simp only [Block.unmapObject]; (repeat' split) <;> simp

@[simp] theorem Block.refObject_lasting (b : Block) (t : TaskRef) (handle : Nat) : (b.refObject t handle).lasting = b.lasting := by
  simp [Block.refObject]

@[simp] theorem Block.refObjects_lasting (b : Block) (t : TaskRef) (l : List Nat) : (b.refObjects t l).lasting = b.lasting := by
  induction l generalizing b t  <;> simp_all [Block.refObjects]

@[simp] theorem Block.dropRefs_lasting (b : Block) (t : TaskRef) : (b.dropRefs t).lasting = b.lasting := by
  simp [Block.dropRefs]

@[simp] theorem Block.modGraph_lasting (b : Block) (h : HalfId) (i : Nat) (f : Graph → Graph) : (b.modGraph h i f).lasting = b.lasting := by
  simp only [Block.modGraph]; (repeat' split) <;> simp

@[simp] theorem Block.modTask_lasting (b : Block) (t : TaskRef) (f : TaskCtx → TaskCtx) : (b.modTask t f).lasting = b.lasting := by
  simp [Block.modTask]

@[simp] theorem Block.fix_lasting (b : Block) (t : TaskRef) (status : Nat) (detail : Nat) : (b.fix t status detail).lasting = b.lasting := by
  simp only [Block.fix]; (repeat' split) <;> simp

@[simp] theorem Block.fixStop_lasting (b : Block) (t : TaskRef) (l : Stop) : (b.fixStop t l).lasting = b.lasting := by
  induction l generalizing b t  <;> simp_all [Block.fixStop]

@[simp] theorem Block.modPair_lasting (b : Block) (q : Nat) (f : QueuePair → QueuePair) : (b.modPair q f).lasting = b.lasting := by
  simp [Block.modPair]

@[simp] theorem Block.signalQueue_lasting (b : Block) (q : Nat) : (b.signalQueue q).lasting = b.lasting := by
  simp [Block.signalQueue]

@[simp] theorem Block.coalesce_lasting (b : Block) (q : Nat) : (b.coalesce q).lasting = b.lasting := by
  simp [Block.coalesce]

@[simp] theorem Block.setShape_lasting (b : Block) (h : HalfId) (k : Nat) (i : Nat) (v : Nat) : (b.setShape h k i v).lasting = b.lasting := by
  simp [Block.setShape]

@[simp] theorem Block.setShapes_lasting (b : Block) (h : HalfId) (k : Nat) (i : Nat) (l : List Nat) : (b.setShapes h k i l).lasting = b.lasting := by
  induction l generalizing b h k i  <;> simp_all [Block.setShapes]

@[simp] theorem Block.setPairShapes_lasting (b : Block) (h : HalfId) (k : Nat) (base : Nat) (l : List Nat) :
    (b.setPairShapes h k base l).lasting = b.lasting := by
  induction l generalizing b h k base  <;> simp_all [Block.setPairShapes]

@[simp] theorem Block.writeShapes_lasting (b : Block) (t : TaskRef) (g : Graph) (c : TaskCtx) : (b.writeShapes t g c).lasting = b.lasting := by
  simp [Block.writeShapes]

@[simp] theorem Block.mergeStat_lasting (b : Block) (h : HalfId) (k : Nat) (s : StatCapture) : (b.mergeStat h k s).lasting = b.lasting := by
  simp [Block.mergeStat]

@[simp] theorem Block.mergeStats_lasting (b : Block) (t : TaskRef) (g : Graph) (c : TaskCtx) : (b.mergeStats t g c).lasting = b.lasting := by
  simp [Block.mergeStats]

@[simp] theorem Block.logAborted_lasting (b : Block) (detail : Nat) (t : TaskRef) : (b.logAborted detail t).lasting = b.lasting := by
  simp [Block.logAborted]

@[simp] theorem Block.sendTokens_lasting (b : Block) (t : TaskRef) (c : TaskCtx) : (b.sendTokens t c).lasting = b.lasting := by
  simp [Block.sendTokens]

@[simp] theorem Block.tellLauncher_lasting (b : Block) (l : TaskRef) (gid : Nat) (stage : Nat) :
    (b.tellLauncher l gid stage).lasting = b.lasting := by
  simp [Block.tellLauncher]

@[simp] theorem Block.closeGraph_lasting (b : Block) (h : HalfId) (gid : Nat) : (b.closeGraph h gid).lasting = b.lasting := by
  simp only [Block.closeGraph]; (repeat' split) <;> simp

@[simp] theorem Block.afterRecord_lasting (b : Block) (t : TaskRef) (c : TaskCtx) : (b.afterRecord t c).lasting = b.lasting := by
  simp [Block.afterRecord]

@[simp] theorem Block.makePacket_lasting (b : Block) (h : HalfId) (dest : Nat) (job : Nat) (cls : Nat) (op : Nat) (tag : Nat) (w2 : Nat) (block : Nat) (payload : List Byte) :
    (b.makePacket h dest job cls op tag w2 block payload).2.lasting = b.lasting := by
  simp [Block.makePacket]

@[simp] theorem Block.modPort_lasting (b : Block) (h : HalfId) (x : Nat) (f : Port → Port) : (b.modPort h x f).lasting = b.lasting := by
  simp [Block.modPort]

@[simp] theorem Block.linkSend_lasting (b : Block) (h : HalfId) (x : Nat) (p : Packet) : (b.linkSend h x p).lasting = b.lasting := by
  simp [Block.linkSend]

@[simp] theorem Block.drainLink_lasting (b : Block) (h : HalfId) (x : Nat) (l : Nat) : (b.drainLink h x l).lasting = b.lasting := by
  fun_induction Block.drainLink <;> simp_all

@[simp] theorem Block.sendBy_lasting (b : Block) (h : HalfId) (x : Nat) (p : Packet) : (b.sendBy h x p).lasting = b.lasting := by
  simp [Block.sendBy]

@[simp] theorem Block.routeOut_lasting (b : Block) (h : HalfId) (p : Packet) : (b.routeOut h p).lasting = b.lasting := by
  simp only [Block.routeOut]; (repeat' split) <;> simp

@[simp] theorem Block.holdDest_lasting (b : Block) (old : Block) (h : HalfId) (again : Bool) (dest : Nat) :
    (b.holdDest old h again dest).lasting = b.lasting := by
  simp [Block.holdDest]

@[simp] theorem Block.holdDests_lasting (b : Block) (old : Block) (h : HalfId) (again : Bool) (l : List Nat) :
    (b.holdDests old h again l).lasting = b.lasting := by
  fun_induction Block.holdDests <;> simp_all

@[simp] theorem Block.rerouted_lasting (b : Block) (old : Block) (h : HalfId) (again : Bool) : (b.rerouted old h again).lasting = b.lasting := by
  simp [Block.rerouted]

@[simp] theorem Block.send_lasting (b : Block) (h : HalfId) (dest : Nat) (job : Nat) (cls : Nat) (op : Nat) (tag : Nat) (w2 : Nat) (block : Nat) (payload : List Byte) :
    (b.send h dest job cls op tag w2 block payload).lasting = b.lasting := by
  simp [Block.send]

@[simp] theorem Block.respond_lasting (b : Block) (h : HalfId) (p : Packet) (status : Nat) (data : List Byte) :
    (b.respond h p status data).lasting = b.lasting := by
  simp [Block.respond]

@[simp] theorem Block.manage_lasting (b : Block) (h : HalfId) (dest : Nat) (op : Nat) (payload : List Byte) :
    (b.manage h dest op payload).lasting = b.lasting := by
  simp [Block.manage]

@[simp] theorem Block.tellLeader_lasting (b : Block) (h : HalfId) (op : Nat) (payload : List Byte) :
    (b.tellLeader h op payload).lasting = b.lasting := by
  simp only [Block.tellLeader]; (repeat' split) <;> simp

@[simp] theorem Block.countCut_lasting (b : Block) (h : HalfId) (cut : Nat) (dest : Nat) (n : Nat) :
    (b.countCut h cut dest n).lasting = b.lasting := by
  simp only [Block.countCut]; (repeat' split) <;> simp

@[simp] theorem Block.takeSeq_lasting (b : Block) (h : HalfId) (p : Packet) : (b.takeSeq h p).lasting = b.lasting := by
  simp [Block.takeSeq]

@[simp] theorem Block.control_lasting (b : Block) (h : HalfId) (x : Nat) (kind : Nat) (cls : Nat) (n : Nat) (lstate : Nat) :
    (b.control h x kind cls n lstate).lasting = b.lasting := by
  simp [Block.control]

@[simp] theorem Block.unbuffer_lasting (b : Block) (h : HalfId) (p : Packet) : (b.unbuffer h p).lasting = b.lasting := by
  simp only [Block.unbuffer]; (repeat' split) <;> simp

@[simp] theorem Block.receive_lasting (b : Block) (h : HalfId) (p : Packet) (cls : Nat) (ops : List Nat) (f : Block → Block) (hf : ∀ x : Block, (f x).lasting = x.lasting) :
    (b.receive h p cls ops f).lasting = b.lasting := by
  unfold Block.receive; (repeat' split) <;> simp_all

@[simp] theorem Block.syncStep_lasting (b : Block) (h : HalfId) (k : Nat) : (b.syncStep h k).lasting = b.lasting := by
  simp only [Block.syncStep]; (repeat' split) <;> simp

@[simp] theorem Block.modStep_lasting (b : Block) (h : HalfId) (k : Nat) (step : Nat) (f : StepRecord → StepRecord) :
    (b.modStep h k step f).lasting = b.lasting := by
  simp [Block.modStep]

@[simp] theorem Block.openStep_lasting (b : Block) (h : HalfId) (k : Nat) (step : Nat) : (b.openStep h k step).lasting = b.lasting := by
  simp [Block.openStep]

@[simp] theorem Block.clearEnergy_lasting (b : Block) (k : Nat) : (b.clearEnergy k).lasting = b.lasting := by
  simp [Block.clearEnergy]

@[simp] theorem Block.closeEnergy_lasting (b : Block) (k : Nat) (step : Nat) : (b.closeEnergy k step).lasting = b.lasting := by
  simp [Block.closeEnergy]

@[simp] theorem Block.noteEnd_lasting (b : Block) (h : HalfId) (k : Nat) (step : Nat) (status : Nat) (detail : Nat) :
    (b.noteEnd h k step status detail).lasting = b.lasting := by
  simp only [Block.noteEnd]; (repeat' split) <;> simp

@[simp] theorem Block.noteNf_lasting (b : Block) (h : HalfId) (k : Nat) (step : Nat) (origin : Nat) :
    (b.noteNf h k step origin).lasting = b.lasting := by
  simp [Block.noteNf]

@[simp] theorem Block.stepAdmit_lasting (b : Block) (h : HalfId) (w : WaitingGraph) : (b.stepAdmit h w).lasting = b.lasting := by
  simp [Block.stepAdmit]

@[simp] theorem Block.settle_lasting (b : Block) (t : TaskRef) : (b.settle t).lasting = b.lasting := by
  simp only [Block.settle]; (repeat' split) <;> simp

@[simp] theorem Block.settleAll_lasting (b : Block) (l : List TaskRef) : (b.settleAll l).lasting = b.lasting := by
  induction l generalizing b  <;> simp_all [Block.settleAll]

@[simp] theorem Block.admitTo_lasting (b : Block) (h : HalfId) (gid : Nat) (g : Graph) : (b.admitTo h gid g).lasting = b.lasting := by
  simp [Block.admitTo]

@[simp] theorem Block.endLaunch_lasting (b : Block) (t : TaskRef) (status : Nat) (detail : Nat) :
    (b.endLaunch t status detail).lasting = b.lasting := by
  simp only [Block.endLaunch]
  split
  · rfl
  · split
    · refine (Block.modSlot_lasting _ _ _ ?_).trans ?_
      · exact fun _ => ⟨rfl, rfl⟩
      · split <;> simp
    · simp

@[simp] theorem Block.enqueue_lasting (b : Block) (h : HalfId) (w : WaitingGraph) : (b.enqueue h w).lasting = b.lasting := by
  simp [Block.enqueue]

@[simp] theorem Block.dequeue_lasting (b : Block) (h : HalfId) (w : WaitingGraph) : (b.dequeue h w).lasting = b.lasting := by
  simp [Block.dequeue]

@[simp] theorem Block.deliver_lasting (b : Block) (t : TaskRef) (cancel : Option Nat) : (b.deliver t cancel).lasting = b.lasting := by
  simp only [Block.deliver]; (repeat' split) <;> simp

@[simp] theorem Block.addStalls_lasting (b : Block) (l : List StallCount) : (b.addStalls l).lasting = b.lasting := by
  induction l generalizing b  <;> simp_all [Block.addStalls]

@[simp] theorem Block.endConsumer_lasting (b : Block) (t : TaskRef) : (b.endConsumer t).lasting = b.lasting := by
  simp only [Block.endConsumer]; (repeat' split) <;> simp

@[simp] theorem Block.failConsumers_lasting (b : Block) (t : TaskRef) (g : Graph) : (b.failConsumers t g).lasting = b.lasting := by
  simp [Block.failConsumers]

@[simp] theorem Block.onRunning_lasting (b : Block) (t : TaskRef) (ty : Nat) (f : Graph → TaskCtx → Block) (hf : ∀ g c, (f g c).lasting = b.lasting) :
    (b.onRunning t ty f).lasting = b.lasting := by
  grind [Block.onRunning]

end Sys2Proof.Machine
end

