-- ==== Sys2Proof/Laws/LastingEngines.lean ====
section
/-! SUPPORT. Each operation of the engines and the tiers that leaves the lasting state alone (Laws/Lasting.lean): one lemma for each. -/

namespace Sys2Proof.Machine

@[simp] theorem Block.applyUpset_lasting (b : Block) (a : Nat) (l : Upset) : (b.applyUpset a l).lasting = b.lasting := by
  induction l generalizing b a  <;> simp_all [Block.applyUpset]

@[simp] theorem Block.deliverFar_lasting (b : Block) (t : TaskRef) (addr : Nat) (l : List Byte) : (b.deliverFar t addr l).lasting = b.lasting := by
  simp [Block.deliverFar]

@[simp] theorem Block.holdTag_lasting (b : Block) (h : HalfId) (tag : Nat) (r : Request) : (b.holdTag h tag r).lasting = b.lasting := by
  simp [Block.holdTag]

@[simp] theorem Block.cross_lasting (b : Block) (h : HalfId) (tag : Nat) (r : Request) : (b.cross h tag r).lasting = b.lasting := by
  simp [Block.cross]

@[simp] theorem Block.await_lasting (b : Block) (h : HalfId) (r : Request) : (b.await h r).lasting = b.lasting := by
  simp [Block.await]

@[simp] theorem Block.fixAll_lasting (b : Block) (st : Nat) (det : Nat) (l : List TaskRef) : (b.fixAll st det l).lasting = b.lasting := by
  induction l generalizing b st det  <;> simp_all [Block.fixAll]

@[simp] theorem Block.countLink_lasting (b : Block) (d : Destination) (write : Bool) (n : Nat) : (b.countLink d write n).lasting = b.lasting := by
  simp only [Block.countLink]; (repeat' split) <;> simp

@[simp] theorem Block.touchPieces_lasting (b : Block) (t : TaskRef) (k : Nat) (ps : List (Nat × Nat)) :
    (b.touchPieces t k ps).lasting = b.lasting := by
  simp [Block.touchPieces]

@[simp] theorem Block.noteAhead_lasting (b : Block) (h : HalfId) (k : Nat) (ps : List (Nat × Nat)) : (b.noteAhead h k ps).lasting = b.lasting := by
  simp [Block.noteAhead]

@[simp] theorem Block.touchSlots_lasting (b : Block) (t : TaskRef) (g : Graph) (c : TaskCtx) (slots : List Nat) :
    (b.touchSlots t g c slots).lasting = b.lasting := by
  simp [Block.touchSlots]

@[simp] theorem Block.touch_lasting (b : Block) (t : TaskRef) (g : Graph) (c : TaskCtx) : (b.touch t g c).lasting = b.lasting := by
  simp [Block.touch]

@[simp] theorem Block.onMode_lasting (b : Block) (t : TaskRef) (ty : Nat) (mode : Nat) (f : Graph → TaskCtx → Block) (hf : ∀ g c, (f g c).lasting = b.lasting) :
    (b.onMode t ty mode f).lasting = b.lasting := by
  exact b.onRunning_lasting t ty _ (fun g c => by split <;> simp [hf])

@[simp] theorem Block.modCore_lasting (b : Block) (n : Nat) (f : CoreEngines → CoreEngines) : (b.modCore n f).lasting = b.lasting := by
  simp [Block.modCore]

@[simp] theorem Block.clearBanks_lasting (b : Block) (n : Nat) : (b.clearBanks n).lasting = b.lasting := by
  simp [Block.clearBanks]

@[simp] theorem Block.bankError_lasting (b : Block) (t : TaskRef) (u : BankUpset) : (b.bankError t u).lasting = b.lasting := by
  simp [Block.bankError]

@[simp] theorem Block.addIssued_lasting (b : Block) (n : Nat) (issued : Nat) (skipped : Nat) :
    (b.addIssued n issued skipped).lasting = b.lasting := by
  simp [Block.addIssued]

@[simp] theorem Block.mxCount_lasting (b : Block) (a : Access) (c : TaskCtx) (q : Pairing) (made : List MxOut) (rank : Nat) (n : Nat) :
    (b.mxCount a c q made rank n).lasting = b.lasting := by
  simp [Block.mxCount]

@[simp] theorem Block.mxCountAll_lasting (b : Block) (a : Access) (c : TaskCtx) (q : Pairing) (run : List (List (List (Res MxOut)))) :
    (b.mxCountAll a c q run).lasting = b.lasting := by
  simp [Block.mxCountAll]

@[simp] theorem Block.mxCountPart_lasting (b : Block) (c : TaskCtx) (q : Pairing) (rank : Nat) (n : Nat) :
    (b.mxCountPart c q rank n).lasting = b.lasting := by
  simp [Block.mxCountPart]

@[simp] theorem Block.mxCountParts_lasting (b : Block) (c : TaskCtx) (q : Pairing) : (b.mxCountParts c q).lasting = b.lasting := by
  simp [Block.mxCountParts]

@[simp] theorem Block.startMatrix_lasting (b : Block) (t : TaskRef) (g : Graph) (c : TaskCtx) : (b.startMatrix t g c).lasting = b.lasting := by
  simp only [Block.startMatrix]; (repeat' split) <;> simp

@[simp] theorem Block.mxEnd_lasting (b : Block) (t : TaskRef) (g : Graph) (c : TaskCtx) (st : ConvStats) :
    (b.mxEnd t g c st).lasting = b.lasting := by
  simp only [Block.mxEnd]; (repeat' split) <;> simp

@[simp] theorem Block.requestHalt_lasting (b : Block) (n : Nat) : (b.requestHalt n).lasting = b.lasting := by
  simp [Block.requestHalt]

@[simp] theorem Block.unhalt_lasting (b : Block) (n : Nat) : (b.unhalt n).lasting = b.lasting := by
  simp [Block.unhalt]

@[simp] theorem Block.vxIssuedFree_lasting (b : Block) (c : TaskCtx) : (b.vxIssuedFree c).lasting = b.lasting := by
  simp [Block.vxIssuedFree]

@[simp] theorem Block.kvWalked_lasting (b : Block) (t : TaskRef) (w : KvWalk) : (b.kvWalked t w).lasting = b.lasting := by
  simp [Block.kvWalked]

@[simp] theorem Block.kvRunAhead_lasting (b : Block) (a : Access) (x : KvHeld) : (b.kvRunAhead a x).lasting = b.lasting := by
  simp [Block.kvRunAhead]

@[simp] theorem Block.addReg_lasting (b : Block) (r : Nat) (n : Nat) : (b.addReg r n).lasting = b.lasting := by
  simp [Block.addReg]

@[simp] theorem Block.atCount_lasting (b : Block) (n : Nat) (l : List AtRun) : (b.atCount n l).lasting = b.lasting := by
  simp [Block.atCount]

@[simp] theorem Block.atCounts_lasting (b : Block) (c : TaskCtx) (l : List (List (Res AtRun))) : (b.atCounts c l).lasting = b.lasting := by
  simp [Block.atCounts]

@[simp] theorem Block.atCountParts_lasting (b : Block) (c : TaskCtx) : (b.atCountParts c).lasting = b.lasting := by
  simp [Block.atCountParts]

@[simp] theorem Block.atEnd_lasting (b : Block) (t : TaskRef) (g : Graph) (c : TaskCtx) (l : List AtRun) : (b.atEnd t g c l).lasting = b.lasting := by
  simp only [Block.atEnd]; (repeat' split) <;> simp

@[simp] theorem Block.convCount_lasting (b : Block) (c : TaskCtx) (q : Pairing) : (b.convCount c q).lasting = b.lasting := by
  simp [Block.convCount]

@[simp] theorem Block.convCountParts_lasting (b : Block) (c : TaskCtx) : (b.convCountParts c).lasting = b.lasting := by
  simp [Block.convCountParts]

@[simp] theorem Block.startConv_lasting (b : Block) (c : TaskCtx) : (b.startConv c).lasting = b.lasting := by
  simp [Block.startConv]

@[simp] theorem Block.countOob_lasting (b : Block) (h : HalfId) (table : Tensor) (is : List Int) : (b.countOob h table is).lasting = b.lasting := by
  simp [Block.countOob]

@[simp] theorem Block.freshList_lasting (b : Block) (l : Nat) : (b.freshList l).2.lasting = b.lasting := by
  induction l generalizing b  <;> simp_all [Block.freshList]

@[simp] theorem Block.startGather_lasting (b : Block) (t : TaskRef) (g : Graph) (c : TaskCtx) (is : List Int) :
    (b.startGather t g c is).lasting = b.lasting := by
  simp [Block.startGather]

@[simp] theorem Block.modWindow_lasting (b : Block) (h : HalfId) (f : LendWindow → LendWindow) : (b.modWindow h f).lasting = b.lasting := by
  simp [Block.modWindow]

@[simp] theorem Block.entryPacket_lasting (b : Block) (h : HalfId) (p : Packet) (ok : Nat → Bool) (st : Option Nat) :
    (b.entryPacket h p ok st).lasting = b.lasting := by
  simp [Block.entryPacket]

@[simp] theorem Block.sendAll_lasting (b : Block) (h : HalfId) (op : Nat) (w2 : Nat) (payload : List Byte) (l : List Nat) :
    (b.sendAll h op w2 payload l).lasting = b.lasting := by
  induction l generalizing b h op w2 payload  <;> simp_all [Block.sendAll]

@[simp] theorem Block.revoke_lasting (b : Block) (h : HalfId) : (b.revoke h).lasting = b.lasting := by
  simp [Block.revoke]

@[simp] theorem Block.dropObjects_lasting (b : Block) (h : HalfId) (l : List Nat) : (b.dropObjects h l).lasting = b.lasting := by
  induction l generalizing b h  <;> simp_all [Block.dropObjects]

@[simp] theorem Block.localPacket_lasting (b : Block) (h : HalfId) (p : Packet) (ok : Bool) (n : Nat) (f : Block → Block) (hf : ∀ x : Block, (f x).lasting = x.lasting) :
    (b.localPacket h p ok n f).lasting = b.lasting := by
  unfold Block.localPacket; (repeat' split) <;> simp_all

end Sys2Proof.Machine
end

