-- ==== Sys2Proof/Laws/LastingModule.lean ====
section
/-! SUPPORT. Each operation of the host link, Zilsy, the start and the Harbour that leaves the lasting state alone (Laws/Lasting.lean): one lemma for each. -/

namespace Sys2Proof.Machine

@[simp] theorem Block.setFlash_setSlot_lasting (e : Block) (i c) : (e.setFlash (e.flash.setSlot i c)).lasting = e.lasting := by
  cases i <;> rfl

@[simp] theorem Block.flushMerging_lasting (b : Block) : b.flushMerging.lasting = b.lasting := by
  exact (Block.lasting_foldl (fun (x : Block) (p : Nat × LogRecord) => x.setFlash (x.flash.appendLog p.2)) (fun _ _ => rfl) _ _).trans (by simp)

@[simp] theorem Block.copyPeaks_lasting (b old : Block) (l : List Nat) : (b.copyPeaks old l).lasting = b.lasting := by
  induction l generalizing b <;> simp_all [Block.copyPeaks]

@[simp] theorem Block.keepPeaks_lasting (old b : Block) : (old.keepPeaks b).lasting = b.lasting := by
  simp [Block.keepPeaks]

@[simp] theorem Block.useNonce_lasting (b : Block) (n : Nat) : (b.useNonce n).lasting = b.lasting := by
  simp [Block.useNonce]

@[simp] theorem Block.setWords_lasting (b : Block) (a : Nat) (l : List Word) : (b.setWords a l).lasting = b.lasting := by
  induction l generalizing b a  <;> simp_all [Block.setWords]

@[simp] theorem Block.reply_lasting (b : Block) (c : Channel) (status : Nat) (detail : Nat) (data : List Byte) :
    (b.reply c status detail data).lasting = b.lasting := by
  simp [Block.reply]

@[simp] theorem Answer.sent_lasting (a : Answer) (c : Channel) : (a.sent c).lasting = a.block.lasting := by
  simp [Answer.sent]

@[simp] theorem Block.refuse_lasting (b : Block) (what : Nat) (value : Nat) (detail : Nat) :
    (b.refuse what value detail).block.lasting = b.lasting := by
  simp [Block.refuse]

@[simp] theorem Block.refuseRole_lasting (b : Block) (needed : Nat) (keyId : Nat) : (b.refuseRole needed keyId).block.lasting = b.lasting := by
  simp [Block.refuseRole]

@[simp] theorem Block.accept_lasting (b : Block) : (b.accept ).block.lasting = b.lasting := by
  simp [Block.accept]

@[simp] theorem Block.command_lasting (b : Block) (m : Envelope) (roles : List Nat) (needed : Nat) (f : Actor → Block → Answer) (hf : ∀ a (x : Block), (f a x).block.lasting = x.lasting) :
    (b.command m roles needed f).lasting = b.lasting := by
  unfold Block.command; (repeat' split) <;> simp_all

@[simp] theorem Block.byPath_lasting (b : Block) (p : Path) (roles : List Nat) (needed : Nat) (f : Actor → Block → Answer) (hf : ∀ a (x : Block), (f a x).block.lasting = x.lasting) :
    (b.byPath p roles needed f).lasting = b.lasting := by
  unfold Block.byPath; (repeat' split) <;> simp_all

@[simp] theorem Block.idleCheck_lasting (b : Block) : (b.idleCheck ).lasting = b.lasting := by
  simp [Block.idleCheck]

@[simp] theorem Block.configWord_lasting (b : Block) (i : Nat) : (b.configWord i).2.lasting = b.lasting := by
  simp only [Block.configWord]; (repeat' split) <;> simp

@[simp] theorem Block.resetLink_lasting (b : Block) : (b.resetLink ).lasting = b.lasting := by
  simp [Block.resetLink]

@[simp] theorem Block.copyHead_lasting (b : Block) (q : Nat) (v : Nat) : (b.copyHead q v).lasting = b.lasting := by
  simp [Block.copyHead]

@[simp] theorem Block.writeTail_lasting (b : Block) (q : Nat) (v : Nat) : (b.writeTail q v).lasting = b.lasting := by
  simp [Block.writeTail]

@[simp] theorem Block.resumeAgain_lasting (b : Block) : (b.resumeAgain ).lasting = b.lasting := by
  simp [Block.resumeAgain]

@[simp] theorem Block.startSlack_lasting (b : Block) : (b.startSlack ).lasting = b.lasting := by
  simp [Block.startSlack]

@[simp] theorem Block.portsFromTo_lasting (b : Block) (h : HalfId) (x : Nat) (y : Nat) : (b.portsFromTo h x y).lasting = b.lasting := by
  simp [Block.portsFromTo]

@[simp] theorem Block.startWake_lasting (b : Block) : (b.startWake ).lasting = b.lasting := by
  simp [Block.startWake]

@[simp] theorem Block.setBoth_lasting (b : Block) (f : HalfId → Nat) (v : Nat) : (b.setBoth f v).lasting = b.lasting := by
  simp [Block.setBoth]

@[simp] theorem Block.setBothList_lasting (b : Block) (f : HalfId → Nat) (l : List Nat) (l1 : Nat) : (b.setBothList f l l1).lasting = b.lasting := by
  induction l generalizing b l1 <;> simp_all [Block.setBothList]

@[simp] theorem Block.tornWrites_lasting (b : Block) : (b.tornWrites ).lasting = b.lasting := by
  simp [Block.tornWrites]

@[simp] theorem Block.setPhase_lasting (b : Block) (code : Nat) (detail : Nat) : (b.setPhase code detail).lasting = b.lasting := by
  simp [Block.setPhase]

@[simp] theorem Block.enterStep_lasting (b : Block) (n : Nat) : (b.enterStep n).lasting = b.lasting := by
  simp [Block.enterStep]

@[simp] theorem Block.failStep_lasting (b : Block) (code : Nat) (detail : Nat) : (b.failStep code detail).lasting = b.lasting := by
  simp [Block.failStep]

@[simp] theorem Block.logUnsigned_lasting (b : Block) (x : Option FirmwareSlot) : (b.logUnsigned x).lasting = b.lasting := by
  simp only [Block.logUnsigned]; (repeat' split) <;> simp

@[simp] theorem Block.flushQueues_lasting (b : Block) : (b.flushQueues ).lasting = b.lasting := by
  simp [Block.flushQueues]

@[simp] theorem Block.logLayers_lasting (b : Block) (c : Option ConfigSlot) : (b.logLayers c).lasting = b.lasting := by
  simp only [Block.logLayers]; (repeat' split) <;> simp

@[simp] theorem Block.trainedBay_lasting (b : Block) (r : BayTraining) (slow : Bool) (h : HalfId) (c : Nat) :
    (b.trainedBay r slow h c).lasting = b.lasting := by
  simp [Block.trainedBay]

@[simp] theorem Block.trainBay_lasting (b : Block) (r : BayTraining) (slow : Bool) (h : HalfId) : (b.trainBay r slow h).lasting = b.lasting := by
  simp [Block.trainBay]

@[simp] theorem Block.markFailed_lasting (b : Block) (h : HalfId) (l : List Nat) : (b.markFailed h l).lasting = b.lasting := by
  simp [Block.markFailed]

@[simp] theorem Block.logSpares_lasting (b : Block) (h : HalfId) (l : List (Nat × Nat)) : (b.logSpares h l).lasting = b.lasting := by
  induction l generalizing b h  <;> simp_all [Block.logSpares]

@[simp] theorem Block.useSpare_lasting (b : Block) (h : HalfId) (l : List (Nat × Nat)) (layer : Nat) :
    (b.useSpare h l layer).lasting = b.lasting := by
  simp only [Block.useSpare]; (repeat' split) <;> simp

@[simp] theorem Block.joinStep4_lasting (b : Block) : (b.joinStep4 ).lasting = b.lasting := by
  simp [Block.joinStep4]

@[simp] theorem Block.startDisabled_lasting (b : Block) (h : HalfId) (key : Nat) (kind : Nat) (index : Nat) (failed : Bool) :
    (b.startDisabled h key kind index failed).lasting = b.lasting := by
  simp [Block.startDisabled]

@[simp] theorem Block.applyDisabled_lasting (b : Block) : (b.applyDisabled ).lasting = b.lasting := by
  simp [Block.applyDisabled]

@[simp] theorem Block.failCores_lasting (b : Block) (l : List (Fin 80)) : (b.failCores l).lasting = b.lasting := by
  induction l generalizing b  <;> simp_all [Block.failCores]

@[simp] theorem Block.logTimes_lasting (b : Block) (e : Event) (n : Nat) : (b.logTimes e n).lasting = b.lasting := by
  simp [Block.logTimes]

@[simp] theorem Block.loadRoutes_lasting (b : Block) (h : HalfId) : (b.loadRoutes h).lasting = b.lasting := by
  simp [Block.loadRoutes]

@[simp] theorem Block.trainPorts_lasting (b : Block) (h : HalfId) : (b.trainPorts h).lasting = b.lasting := by
  simp [Block.trainPorts]

@[simp] theorem Block.writeBusy_lasting (b : Block) (x : Bool) : (b.writeBusy x).lasting = b.lasting := by
  simp [Block.writeBusy]

@[simp] theorem Block.startWrite_lasting (b : Block) (w : ConfigWrite) : (b.startWrite w).lasting = b.lasting := by
  simp [Block.startWrite]

@[simp] theorem Block.nextWrite_lasting (b : Block) : (b.nextWrite ).lasting = b.lasting := by
  simp only [Block.nextWrite]; (repeat' split) <;> simp

@[simp] theorem Block.abandonWrite_lasting (b : Block) (step : Nat) : (b.abandonWrite step).lasting = b.lasting := by
  simp [Block.abandonWrite]

@[simp] theorem Block.showSlot_lasting (b : Block) (isB : Bool) (c : ConfigSlot) (seq : Nat) : (b.showSlot isB c seq).lasting = b.lasting := by
  simp [Block.showSlot]

@[simp] theorem Block.setOtherFirmware_lasting (b : Block) (x : Option FirmwareSlot) : (b.setOtherFirmware x).lasting = b.lasting := by
  simp only [Block.setOtherFirmware]; (repeat' split) <;> simp

@[simp] theorem Block.closeStaging_lasting (b : Block) : (b.closeStaging ).lasting = b.lasting := by
  simp [Block.closeStaging]

@[simp] theorem Block.applyLayer_lasting (b : Block) (a : Actor) (x : Staging) (which : Nat) (ok : Bool) :
    (b.applyLayer a x which ok).block.lasting = b.lasting := by
  simp only [Block.applyLayer]; (repeat' split) <;> simp

@[simp] theorem Block.mainGo_lasting (b : Block) (h : HalfId) (job : Nat) (retire : Bool) : (b.mainGo h job retire).block.lasting = b.lasting := by
  simp only [Block.mainGo]; (repeat' split) <;> simp

@[simp] theorem Block.scrubBad_lasting (b : Block) (h : HalfId) (l : List Nat) : (b.scrubBad h l).lasting = b.lasting := by
  induction l generalizing b h  <;> simp_all [Block.scrubBad]

@[simp] theorem Block.scrubUpset_lasting (b : Block) (a : Nat) (l : Upset) : (b.scrubUpset a l).lasting = b.lasting := by
  induction l generalizing b a  <;> simp_all [Block.scrubUpset]

@[simp] theorem Block.sweepBad_lasting (b : Block) (h : HalfId) (ch : Nat) (first : Nat) (n : Nat) (l : List TgLine) :
    (b.sweepBad h ch first n l).lasting = b.lasting := by
  induction l generalizing b h ch first n  <;> simp_all [Block.sweepBad]

@[simp] theorem Block.modHarbour_lasting (b : Block) (h : HalfId) (f : Harbour → Harbour) : (b.modHarbour h f).lasting = b.lasting := by
  simp [Block.modHarbour]

@[simp] theorem Block.assignUnit_lasting (b : Block) (t : TaskRef) (p : Nat) : (b.assignUnit t p).lasting = b.lasting := by
  simp [Block.assignUnit]

@[simp] theorem Block.countPipe_lasting (b : Block) (h : HalfId) (p : Nat) (n : Nat) : (b.countPipe h p n).lasting = b.lasting := by
  simp [Block.countPipe]

@[simp] theorem Block.countUnit_lasting (b : Block) (t : TaskRef) (n : Nat) : (b.countUnit t n).lasting = b.lasting := by
  simp only [Block.countUnit]; (repeat' split) <;> simp

@[simp] theorem Block.setStream_lasting (b : Block) (h : HalfId) (i : Nat) (x : StreamCtx) : (b.setStream h i x).lasting = b.lasting := by
  simp [Block.setStream]

@[simp] theorem Block.modStream_lasting (b : Block) (h : HalfId) (i : Nat) (f : StreamCtx → StreamCtx) : (b.modStream h i f).lasting = b.lasting := by
  simp only [Block.modStream]; (repeat' split) <;> simp

@[simp] theorem Block.joinStream_lasting (b : Block) (t : TaskRef) (i : Nat) : (b.joinStream t i).lasting = b.lasting := by
  simp [Block.joinStream]

@[simp] theorem Block.closeStreams_lasting (b : Block) (job : Nat) : (b.closeStreams job).lasting = b.lasting := by
  simp [Block.closeStreams]

@[simp] theorem Block.countClip_lasting (b : Block) (h : HalfId) (k : Clip) : (b.countClip h k).lasting = b.lasting := by
  simp [Block.countClip]

@[simp] theorem Block.countStatus_lasting (b : Block) (h : HalfId) (st : Nat) : (b.countStatus h st).lasting = b.lasting := by
  simp [Block.countStatus]

@[simp] theorem Block.countSample_lasting (b : Block) (h : HalfId) (st : Nat) : (b.countSample h st).lasting = b.lasting := by
  simp [Block.countSample]

@[simp] theorem Block.tryAudio_lasting (b : Block) (t : TaskRef) (c : TaskCtx) (l : List Byte) (pf : List Byte) :
    (b.tryAudio t c l pf).block.lasting = b.lasting := by
  simp only [Block.tryAudio]; (repeat' split) <;> simp

@[simp] theorem Block.tryText_lasting (b : Block) (t : TaskRef) (c : TaskCtx) (l : List Byte) : (b.tryText t c l).block.lasting = b.lasting := by
  simp only [Block.tryText]; (repeat' split) <;> simp

end Sys2Proof.Machine
end

