-- ==== Sys2Proof/Laws/LastingDomain.lean ====
section
/-! SUPPORT. Each operation of the links, the collectives, the domain and the registers that leaves the lasting state alone (Laws/Lasting.lean): one lemma for each. -/

namespace Sys2Proof.Machine

@[simp] theorem Block.setCensusFld_lasting (b : Block) (hi : Nat) (lo : Nat) (v : Nat) : (b.setCensusFld hi lo v).lasting = b.lasting := by
  simp [Block.setCensusFld]

@[simp] theorem Block.setCensus_lasting (b : Block) (h : HalfId) (st : Nat) : (b.setCensus h st).lasting = b.lasting := by
  simp only [Block.setCensus]; (repeat' split) <;> simp

@[simp] theorem Block.startCensus_lasting (b : Block) (h : HalfId) : (b.startCensus h).lasting = b.lasting := by
  simp [Block.startCensus]

@[simp] theorem Block.setLeader_lasting (b : Block) (m : Nat) (rank : Nat) : (b.setLeader m rank).lasting = b.lasting := by
  simp [Block.setLeader]

@[simp] theorem Block.fillSubst_lasting (b : Block) (h : HalfId) (l : List (Nat × Nat)) (l1 : Nat) : (b.fillSubst h l l1).lasting = b.lasting := by
  induction l generalizing b h l1 <;> simp_all [Block.fillSubst]

@[simp] theorem Block.applyCensus_lasting (b : Block) (h : HalfId) (done : Nat) (es : List (Nat × Nat)) :
    (b.applyCensus h done es).lasting = b.lasting := by
  simp [Block.applyCensus]

@[simp] theorem Block.manageAll_lasting (b : Block) (h : HalfId) (dest : Nat) (op : Nat) (l : List (List Byte)) :
    (b.manageAll h dest op l).lasting = b.lasting := by
  induction l generalizing b h dest op  <;> simp_all [Block.manageAll]

@[simp] theorem Block.completeCensus_lasting (b : Block) : (b.completeCensus ).lasting = b.lasting := by
  simp [Block.completeCensus]

@[simp] theorem Block.censusCheck_lasting (b : Block) : (b.censusCheck ).lasting = b.lasting := by
  simp [Block.censusCheck]

@[simp] theorem Block.holderTakes_lasting (b : Block) (l : List Byte) : (b.holderTakes l).lasting = b.lasting := by
  simp [Block.holderTakes]

@[simp] theorem Block.reporterTakes_lasting (b : Block) (l : List Byte) : (b.reporterTakes l).lasting = b.lasting := by
  simp only [Block.reporterTakes]; (repeat' split) <;> simp

@[simp] theorem Block.reportReady_lasting (b : Block) : (b.reportReady ).lasting = b.lasting := by
  simp only [Block.reportReady]; (repeat' split) <;> simp

@[simp] theorem Block.countPort_lasting (b : Block) (h : HalfId) (x : Nat) (hi : Nat) (lo : Nat) (n : Nat) :
    (b.countPort h x hi lo n).lasting = b.lasting := by
  simp [Block.countPort]

@[simp] theorem Block.watchPorts_lasting (b : Block) : (b.watchPorts ).lasting = b.lasting := by
  simp [Block.watchPorts]

@[simp] theorem Block.dropLink_lasting (b : Block) (h : HalfId) (x : Nat) (st : Nat) (cause : Nat) (retraining : Bool) :
    (b.dropLink h x st cause retraining).lasting = b.lasting := by
  simp [Block.dropLink]

@[simp] theorem Block.fencePort_lasting (b : Block) (h : HalfId) (x : Nat) (cause : Nat) : (b.fencePort h x cause).lasting = b.lasting := by
  simp [Block.fencePort]

@[simp] theorem Block.retrain_lasting (b : Block) (h : HalfId) (x : Nat) : (b.retrain h x).lasting = b.lasting := by
  simp [Block.retrain]

@[simp] theorem Block.riseLink_lasting (b : Block) (h : HalfId) (x : Nat) (again : Bool) : (b.riseLink h x again).lasting = b.lasting := by
  simp [Block.riseLink]

@[simp] theorem Block.sendIdentity_lasting (b : Block) (h : HalfId) (x : Nat) : (b.sendIdentity h x).lasting = b.lasting := by
  simp [Block.sendIdentity]

@[simp] theorem Block.emitAll_lasting (b : Block) (h : HalfId) (x : Nat) (l : List Packet) : (b.emitAll h x l).lasting = b.lasting := by
  induction l generalizing b h x  <;> simp_all [Block.emitAll]

@[simp] theorem Block.replayLink_lasting (b : Block) (h : HalfId) (x : Nat) : (b.replayLink h x).lasting = b.lasting := by
  simp [Block.replayLink]

@[simp] theorem Block.takeAck_lasting (b : Block) (h : HalfId) (x : Nat) (kind : Nat) (ack : Nat) : (b.takeAck h x kind ack).lasting = b.lasting := by
  simp [Block.takeAck]

@[simp] theorem Block.takeCredits_lasting (b : Block) (h : HalfId) (x : Nat) (cls : Nat) (n : Nat) :
    (b.takeCredits h x cls n).lasting = b.lasting := by
  simp [Block.takeCredits]

@[simp] theorem Block.orphan_lasting (b : Block) (h : HalfId) (p : Packet) : (b.orphan h p).lasting = b.lasting := by
  simp [Block.orphan]

@[simp] theorem Block.arrive_lasting (b : Block) (h : HalfId) (x : Nat) (l : List Packet) : (b.arrive h x l).lasting = b.lasting := by
  induction l generalizing b h x  <;> simp_all [Block.arrive]

@[simp] theorem Block.takeLstate_lasting (b : Block) (h : HalfId) (x : Nat) (ls : Nat) : (b.takeLstate h x ls).lasting = b.lasting := by
  simp [Block.takeLstate]

@[simp] theorem Block.takeControl_lasting (b : Block) (h : HalfId) (x : Nat) (w : Word) : (b.takeControl h x w).lasting = b.lasting := by
  simp [Block.takeControl]

@[simp] theorem Block.routeAll_lasting (b : Block) (h : HalfId) (l : List Packet) : (b.routeAll h l).lasting = b.lasting := by
  induction l generalizing b h  <;> simp_all [Block.routeAll]

@[simp] theorem Block.modTide_lasting (b : Block) (h : HalfId) (f : TideClock → TideClock) : (b.modTide h f).lasting = b.lasting := by
  simp [Block.modTide]

@[simp] theorem Block.setTideStat_lasting (b : Block) (h : HalfId) (hi : Nat) (lo : Nat) (v : Nat) :
    (b.setTideStat h hi lo v).lasting = b.lasting := by
  simp [Block.setTideStat]

@[simp] theorem Block.slewed_lasting (b : Block) (h : HalfId) : (b.slewed h).lasting = b.lasting := by
  simp [Block.slewed]

@[simp] theorem Block.lockTide_lasting (b : Block) (h : HalfId) : (b.lockTide h).lasting = b.lasting := by
  simp [Block.lockTide]

@[simp] theorem Block.sendTime_lasting (b : Block) (h : HalfId) (x : Nat) (op : Nat) (tx : Nat) (payload : List Byte) :
    (b.sendTime h x op tx payload).lasting = b.lasting := by
  simp [Block.sendTime]

@[simp] theorem Block.syncLinks_lasting (b : Block) (h : HalfId) (l : List Nat) : (b.syncLinks h l).lasting = b.lasting := by
  induction l generalizing b h  <;> simp_all [Block.syncLinks]

@[simp] theorem Block.unbufferTime_lasting (b : Block) (h : HalfId) (x : Nat) (op : Nat) : (b.unbufferTime h x op).lasting = b.lasting := by
  simp only [Block.unbufferTime]; (repeat' split) <;> simp

@[simp] theorem Block.takeParent_lasting (b : Block) (h : HalfId) (x : Nat) : (b.takeParent h x).lasting = b.lasting := by
  simp [Block.takeParent]

@[simp] theorem Block.loseParent_lasting (b : Block) (h : HalfId) : (b.loseParent h).lasting = b.lasting := by
  simp [Block.loseParent]

@[simp] theorem Block.steer_lasting (b : Block) (h : HalfId) (x : Nat) (t1 : Nat) (t2 : Nat) (t3 : Nat) :
    (b.steer h x t1 t2 t3).lasting = b.lasting := by
  simp [Block.steer]

@[simp] theorem Block.startRoot_lasting (b : Block) (h : HalfId) (now : Nat) (ref : Nat) : (b.startRoot h now ref).lasting = b.lasting := by
  simp [Block.startRoot]

@[simp] theorem Block.reference_lasting (b : Block) (h : HalfId) (now : Nat) (ref : Nat) : (b.reference h now ref).lasting = b.lasting := by
  simp [Block.reference]

@[simp] theorem Block.loseReference_lasting (b : Block) (h : HalfId) : (b.loseReference h).lasting = b.lasting := by
  simp [Block.loseReference]

@[simp] theorem Block.updateScale_lasting (b : Block) (h : HalfId) (k : Nat) (closed : Bool) : (b.updateScale h k closed).lasting = b.lasting := by
  simp [Block.updateScale]

@[simp] theorem Block.policyEntry_lasting (b : Block) (h : HalfId) (k : Nat) (step : Nat) (i : Nat) :
    (b.policyEntry h k step i).lasting = b.lasting := by
  simp [Block.policyEntry]

@[simp] theorem Block.latchEntry_lasting (b : Block) (h : HalfId) (k : Nat) (step : Nat) (i : Nat) :
    (b.latchEntry h k step i).lasting = b.lasting := by
  simp [Block.latchEntry]

@[simp] theorem Block.decideFormats_lasting (b : Block) (h : HalfId) (k : Nat) (step : Nat) : (b.decideFormats h k step).lasting = b.lasting := by
  simp [Block.decideFormats]

@[simp] theorem Block.clearStats_lasting (b : Block) (h : HalfId) (k : Nat) (step : Nat) : (b.clearStats h k step).lasting = b.lasting := by
  simp [Block.clearStats]

@[simp] theorem Block.writeRecords_lasting (b : Block) (h : HalfId) (k : Nat) (first : Nat) (l : List (List Nat)) (l1 : Nat) :
    (b.writeRecords h k first l l1).lasting = b.lasting := by
  induction l generalizing b h k first l1 <;> simp_all [Block.writeRecords]

@[simp] theorem Block.onColl_lasting (b : Block) (t : TaskRef) (ops : List Nat) (f : Graph → TaskCtx → CollState → Plan → Block) (hf : ∀ g c x p, (f g c x p).lasting = b.lasting) :
    (b.onColl t ops f).lasting = b.lasting := by
  grind [Block.onColl]

@[simp] theorem Block.modColl_lasting (b : Block) (t : TaskRef) (f : CollState → CollState) : (b.modColl t f).lasting = b.lasting := by
  simp [Block.modColl]

@[simp] theorem Block.countStray_lasting (b : Block) (h : HalfId) : (b.countStray h).lasting = b.lasting := by
  simp [Block.countStray]

@[simp] theorem Block.collFinish_lasting (b : Block) (t : TaskRef) : (b.collFinish t).lasting = b.lasting := by
  simp [Block.collFinish]

@[simp] theorem Block.floodOn_lasting (b : Block) (t : TaskRef) (i : Nat) (l : List Byte) (origin : Nat) (mine : Bool) :
    (b.floodOn t i l origin mine).lasting = b.lasting := by
  simp [Block.floodOn]

@[simp] theorem Block.appendVerdict_lasting (b : Block) (t : TaskRef) : (b.appendVerdict t).lasting = b.lasting := by
  exact b.onColl_lasting t [9] _ (fun g c x p => by dsimp only; split <;> simp)

@[simp] theorem Block.noteBlock_lasting (b : Block) (t : TaskRef) (g : Graph) (origin : Nat) (made : Bool) :
    (b.noteBlock t g origin made).lasting = b.lasting := by
  simp [Block.noteBlock]

@[simp] theorem Block.collLink_lasting (b : Block) (t : TaskRef) (i : Nat) (x : List Byte × Nat) (y : List Byte × Nat) :
    (b.collLink t i x y).2.lasting = b.lasting := by
  simp only [Block.collLink]; (repeat' split) <;> simp

@[simp] theorem Block.noteOwn_lasting (b : Block) (t : TaskRef) (g : Graph) (d : TaskDesc) (l : List (List Byte)) :
    (b.noteOwn t g d l).lasting = b.lasting := by
  induction l generalizing b t g d  <;> simp_all [Block.noteOwn]

@[simp] theorem Block.noteHold_lasting (b : Block) (t : TaskRef) (g : Graph) (c : TaskCtx) (late : Bool) (u : HoldUse) (w : Nat) :
    (b.noteHold t g c late u w).lasting = b.lasting := by
  simp only [Block.noteHold]; (repeat' split) <;> simp

@[simp] theorem Block.travelEnd_lasting (b : Block) (t : TaskRef) : (b.travelEnd t).lasting = b.lasting := by
  simp [Block.travelEnd]

@[simp] theorem Block.strayRow_lasting (b : Block) (h : HalfId) (p : Packet) : (b.strayRow h p).lasting = b.lasting := by
  simp [Block.strayRow]

@[simp] theorem Block.keepReady_lasting (b : Block) (h : HalfId) (p : Packet) : (b.keepReady h p).lasting = b.lasting := by
  simp [Block.keepReady]

@[simp] theorem Block.funcLog_lasting (b : Block) (f : FuncId) (event : Nat) (arg1 : Nat) : (b.funcLog f event arg1).lasting = b.lasting := by
  simp [Block.funcLog]

@[simp] theorem Block.funcRefused_lasting (b : Block) (f : FuncId) (what : Nat) (value : Nat) (status : Nat) :
    (b.funcRefused f what value status).lasting = b.lasting := by
  simp [Block.funcRefused]

@[simp] theorem Block.enablePort_lasting (b : Block) (h : HalfId) (x : Nat) : (b.enablePort h x).lasting = b.lasting := by
  simp [Block.enablePort]

@[simp] theorem Block.freshContext_lasting (b : Block) (t : TaskRef) : (b.freshContext t).lasting = b.lasting := by
  simp only [Block.freshContext]; (repeat' split) <;> simp

@[simp] theorem Block.flushPort_lasting (b : Block) (h : HalfId) (x : Nat) : (b.flushPort h x).lasting = b.lasting := by
  simp [Block.flushPort]

@[simp] theorem Block.freeArrays_lasting (b : Block) (ts : List TaskRef) : (b.freeArrays ts).lasting = b.lasting := by
  simp [Block.freeArrays]

@[simp] theorem Block.manageTo_lasting (b : Block) (h : HalfId) (op : Nat) (l : List (Nat × List Byte)) :
    (b.manageTo h op l).lasting = b.lasting := by
  induction l generalizing b with
  | nil => rfl
  | cons x xs ih => rw [Block.manageTo, ih, Block.manage_lasting]

@[simp] theorem Block.ackAborts_lasting (b : Block) (k : Nat) : (b.ackAborts k).lasting = b.lasting := by
  simp [Block.ackAborts]

@[simp] theorem Block.closePort_lasting (b : Block) (h : HalfId) (x : Nat) : (b.closePort h x).lasting = b.lasting := by
  simp [Block.closePort]

@[simp] theorem Block.clearRegs_lasting (b : Block) (lo : Nat) (hi : Nat) : (b.clearRegs lo hi).lasting = b.lasting := by
  simp [Block.clearRegs]

@[simp] theorem Block.clearSlot_lasting (b : Block) (h : HalfId) (k : Nat) : (b.clearSlot h k).lasting = b.lasting := by
  simp [Block.clearSlot]

@[simp] theorem Block.setHashes_lasting (b : Block) (h : HalfId) (k : Nat) (x : List Nat × List Nat × List Nat) :
    (b.setHashes h k x).lasting = b.lasting := by
  simp [Block.setHashes]

@[simp] theorem Block.clearStalls_lasting (b : Block) (h : HalfId) (v : Word) : (b.clearStalls h v).lasting = b.lasting := by
  simp [Block.clearStalls]

@[simp] theorem Block.invalidateKv_lasting (b : Block) (h : HalfId) (k : Nat) : (b.invalidateKv h k).lasting = b.lasting := by
  simp [Block.invalidateKv]

@[simp] theorem Block.modDomain_lasting (b : Block) (f : Domain → Domain) : (b.modDomain f).lasting = b.lasting := by
  simp [Block.modDomain]

@[simp] theorem Block.keepRecord_lasting (b : Block) (l : List Byte) : (b.keepRecord l).lasting = b.lasting := by
  simp [Block.keepRecord]

@[simp] theorem Block.sendRecord_lasting (b : Block) (l : List Byte) (qs : List Nat) : (b.sendRecord l qs).lasting = b.lasting := by
  induction qs generalizing b <;> simp_all [Block.sendRecord]

@[simp] theorem Block.appendRecord_lasting (b : Block) (draft : List Byte) : (b.appendRecord draft).lasting = b.lasting := by
  simp [Block.appendRecord]

@[simp] theorem Block.payOwed_lasting (b : Block) (l : List Byte) (ep : Nat) (word : Nat) : (b.payOwed l ep word).lasting = b.lasting := by
  simp [Block.payOwed]

@[simp] theorem Block.payAll_lasting (b : Block) (l : List Byte) : (b.payAll l).lasting = b.lasting := by
  simp [Block.payAll]

@[simp] theorem Block.orderAll_lasting (b : Block) (l : List Byte) : (b.orderAll l).lasting = b.lasting := by
  simp [Block.orderAll]

@[simp] theorem Block.declareLost_lasting (b : Block) (tray : Nat) (cause : Nat) : (b.declareLost tray cause).lasting = b.lasting := by
  unfold Block.declareLost
  split
  · rfl
  · simp only [Block.appendRecord_lasting]
    rw [Block.lasting_foldl _ (fun x l => Block.sendRecord_lasting x l _), Block.modDomain_lasting]

@[simp] theorem Block.trySubst_lasting (b : Block) : (b.trySubst ).lasting = b.lasting := by
  simp only [Block.trySubst]; (repeat' split) <;> simp

@[simp] theorem Block.resumeJobs_lasting (b : Block) (tray : Nat) : (b.resumeJobs tray).lasting = b.lasting := by
  unfold Block.resumeJobs
  split
  · rfl
  · exact Block.lasting_foldl _ (fun _ _ => by split <;> simp) _ _

@[simp] theorem Block.actOn_lasting (b : Block) (l : List Byte) : (b.actOn l).lasting = b.lasting := by
  simp only [Block.actOn]; (repeat' split) <;> simp

@[simp] theorem Block.complete_lasting (b : Block) (seq : Nat) : (b.complete seq).lasting = b.lasting := by
  simp only [Block.complete]; (repeat' split) <;> simp

@[simp] theorem Block.pump_lasting (b : Block) (l : Nat) : (b.pump l).lasting = b.lasting := by
  induction l generalizing b with
  | zero => rfl
  | succ n ih =>
    rw [Block.pump]
    split
    · simp only [ih]; split <;> simp
    · split <;> simp [ih]

@[simp] theorem Block.lead_lasting (b : Block) : (b.lead ).lasting = b.lasting := by
  simp [Block.lead]

@[simp] theorem Block.takeLead_lasting (b : Block) : (b.takeLead ).lasting = b.lasting := by
  unfold Block.takeLead
  simp only [Block.lead_lasting, Block.appendRecord_lasting]
  rw [Block.lasting_foldl _ (fun _ _ => by split <;> simp), Block.modDomain_lasting]

@[simp] theorem Block.readReplicas_lasting (b : Block) (old : Option Nat) : (b.readReplicas old).lasting = b.lasting := by
  simp [Block.readReplicas]

@[simp] theorem Block.readDone_lasting (b : Block) (gone : Nat → Bool) : (b.readDone gone).lasting = b.lasting := by
  simp only [Block.readDone]; (repeat' split) <;> simp

@[simp] theorem Block.showLease_lasting (b : Block) (rank : Nat) (m : Nat) (t : Nat) : (b.showLease rank m t).lasting = b.lasting := by
  simp [Block.showLease]

@[simp] theorem Block.sendLease_lasting (b : Block) : (b.sendLease ).lasting = b.lasting := by
  simp [Block.sendLease]

@[simp] theorem Block.dropLease_lasting (b : Block) : (b.dropLease ).lasting = b.lasting := by
  simp [Block.dropLease]

@[simp] theorem Block.reappend_lasting (b : Block) : (b.reappend ).lasting = b.lasting := by
  simp [Block.reappend]

@[simp] theorem Block.hearLease_lasting (b : Block) (rank : Nat) (t : Nat) (m : Nat) : (b.hearLease rank t m).lasting = b.lasting := by
  simp only [Block.hearLease]; (repeat' split) <;> simp

@[simp] theorem Block.takeVerdict_lasting (b : Block) (l : List Byte) (ep : Nat) (run : Nat) : (b.takeVerdict l ep run).lasting = b.lasting := by
  simp only [Block.takeVerdict]; (repeat' split) <;> simp

@[simp] theorem Block.answerBlock_lasting (b : Block) (h : HalfId) (g : Graph) (c : TaskCtx) (w0 : Nat) (w1 : Nat) :
    (b.answerBlock h g c w0 w1).2.lasting = b.lasting := by
  simp only [Block.answerBlock]; (repeat' split) <;> simp

@[simp] theorem Block.leaderRepeat_lasting (b : Block) (job : Nat) (step : Nat) : (b.leaderRepeat job step).lasting = b.lasting := by
  simp [Block.leaderRepeat]

@[simp] theorem Block.ackAction_lasting (b : Block) (h : HalfId) (p : Packet) : (b.ackAction h p).lasting = b.lasting := by
  simp [Block.ackAction]

@[simp] theorem Block.recovery_lasting (b0 : Block) (h : HalfId) (p : Packet) (kind : Nat) (f : Block → List Byte → Block) (hf : ∀ (x : Block) l, (f x l).lasting = x.lasting) :
    (b0.recovery h p kind f).lasting = b0.lasting := by
  unfold Block.recovery; (repeat' split) <;> simp_all

@[simp] theorem Block.fenceTray_lasting (b : Block) (h : HalfId) (tray : Nat) : (b.fenceTray h tray).lasting = b.lasting := by
  simp [Block.fenceTray]

@[simp] theorem Block.backUpRoot_lasting (b : Block) (h : HalfId) (tray : Nat) : (b.backUpRoot h tray).lasting = b.lasting := by
  simp [Block.backUpRoot]

@[simp] theorem Block.rampUp_lasting (b : Block) (issued : Nat) : (b.rampUp issued).lasting = b.lasting := by
  simp [Block.rampUp]

@[simp] theorem Block.limit_lasting (b : Block) (est : Nat) (want : Nat) : (b.limit est want).lasting = b.lasting := by
  simp [Block.limit]

@[simp] theorem Block.setRail_lasting (b : Block) (r : Nat) (x : Nat × Nat) : (b.setRail r x).lasting = b.lasting := by
  simp [Block.setRail]

@[simp] theorem Block.openHints_lasting (b : Block) : (b.openHints ).lasting = b.lasting := by
  simp [Block.openHints]

@[simp] theorem Block.setTemp_lasting (b : Block) (a : Nat) (seen : Bool) (t : Int) : (b.setTemp a seen t).lasting = b.lasting := by
  simp [Block.setTemp]

@[simp] theorem Block.setTemps_lasting (b : Block) (l : List Int) (l1 : Nat) : (b.setTemps l l1).lasting = b.lasting := by
  induction l generalizing b l1 <;> simp_all [Block.setTemps]

@[simp] theorem Block.setChannels_lasting (b : Block) (l : List Int) (l1 : Nat) : (b.setChannels l l1).lasting = b.lasting := by
  induction l generalizing b l1 <;> simp_all [Block.setChannels]

@[simp] theorem Block.followBand_lasting (b : Block) (h : HalfId) : (b.followBand h).lasting = b.lasting := by
  simp [Block.followBand]

@[simp] theorem Block.logThermal_lasting (b : Block) (t : Int) (severity : Nat) : (b.logThermal t severity).lasting = b.lasting := by
  simp [Block.logThermal]

@[simp] theorem Block.throttle_lasting (b : Block) (t : Int) : (b.throttle t).lasting = b.lasting := by
  simp [Block.throttle]

@[simp] theorem Block.contextUpset_lasting (b : Block) (h : HalfId) (l : Upset) : (b.contextUpset h l).lasting = b.lasting := by
  induction l generalizing b h  <;> simp_all [Block.contextUpset]

@[simp] theorem Block.ignoreWrite_lasting (b : Block) (a : Actor) (addr : Nat) (v : Word) (perm : Bool) :
    (b.ignoreWrite a addr v perm).block.lasting = b.lasting := by
  simp [Block.ignoreWrite]

@[simp] theorem Block.maskWrite_lasting (b : Block) (vec : Nat) (r : RegRow) (v : Word) : (b.maskWrite vec r v).lasting = b.lasting := by
  simp [Block.maskWrite]

@[simp] theorem Block.mailboxGo_lasting (b : Block) (a : Actor) (v : Word) : (b.mailboxGo a v).block.lasting = b.lasting := by
  simp only [Block.mailboxGo]; (repeat' split) <;> simp

@[simp] theorem Block.shapeWrite_lasting (b : Block) (addr : Nat) (v : Word) : (b.shapeWrite addr v).block.lasting = b.lasting := by
  simp [Block.shapeWrite]

@[simp] theorem Block.leaveDomain_lasting (b : Block) : (b.leaveDomain ).lasting = b.lasting := by
  simp [Block.leaveDomain]

@[simp] theorem Block.resetZilsy_lasting (b : Block) : (b.resetZilsy ).lasting = b.lasting := by
  simp [Block.resetZilsy]

end Sys2Proof.Machine
end

