-- ==== Sys2Proof/Laws/Tables.lean ====
section
/-! SUPPORT. Tables in canonical form: what a table's operations keep, and what a key reads as after them. From these follow the laws of local
memory and host memory: a byte written reads back, every other byte is as it was, and the canonical form stays. -/

namespace Sys2Proof.Machine

/-- The keys of a table strictly rise. -/
abbrev Rising {α : Type} (t : Tab α) : Prop := t.Pairwise (fun x y => x.1 < y.1)

theorem tabSorted_iff {α : Type} (t : Tab α) : tabSorted t = true ↔ Rising t := by
  induction t with
  | nil => simp [tabSorted]
  | cons x xs ih =>
    cases xs with
    | nil => simp [tabSorted]
    | cons y ys =>
      simp only [tabSorted, Bool.and_eq_true, decide_eq_true_eq, ih, Rising, List.pairwise_cons, List.mem_cons]
      refine ⟨fun h => ⟨?_, h.2⟩, fun h => ⟨h.1 y (.inl rfl), h.2⟩⟩
      rintro z (rfl | hz)
      · exact h.1
      · exact lt_trans h.1 (h.2.1 z hz)

theorem tabWf_iff {α : Type} [DecidableEq α] (d : α) (t : Tab α) : tabWf d t = true ↔ (∀ e ∈ t, e.2 ≠ d) ∧ Rising t := by
  induction t with
  | nil => simp [tabWf]
  | cons x xs ih =>
    cases xs with
    | nil => simp [tabWf]
    | cons y ys =>
      simp only [tabWf, Bool.and_eq_true, decide_eq_true_eq, ih, Rising, List.pairwise_cons, List.mem_cons]
      refine ⟨fun h => ⟨?_, ?_, h.2.2⟩, fun h => ⟨⟨h.1 x (.inl rfl), h.2.1 y (.inl rfl)⟩, fun e he => h.1 e (.inr he), h.2.2⟩⟩
      · rintro e (rfl | he)
        · exact h.1.1
        · exact h.2.1 e he
      · rintro z (rfl | hz)
        · exact h.1.2
        · exact lt_trans h.1.2 (h.2.2.1 z hz)

theorem mem_tabPut {α : Type} (t : Tab α) (i : Nat) (x : α) (e : Nat × α) (h : e ∈ tabPut t i x) : e = (i, x) ∨ e ∈ t := by
  induction t with
  | nil => simp_all [tabPut]
  | cons y ys ih =>
    rcases y with ⟨k, v⟩
    simp only [tabPut] at h
    split at h
    · simp_all; tauto
    · split at h
      · simp_all
      · simp_all; tauto

theorem rising_tabPut {α : Type} (t : Tab α) (i : Nat) (x : α) (h : Rising t) : Rising (tabPut t i x) := by
  induction t with
  | nil => simp [tabPut]
  | cons y ys ih =>
    rcases y with ⟨k, v⟩
    simp only [Rising, List.pairwise_cons] at h
    simp only [tabPut]
    split
    · next e => subst e; exact List.pairwise_cons.2 ⟨fun z hz => h.1 z hz, h.2⟩
    · split
      · next hlt =>
        refine List.pairwise_cons.2 ⟨fun z hz => ?_, List.pairwise_cons.2 h⟩
        rcases List.mem_cons.1 hz with rfl | hz
        · exact hlt
        · exact lt_trans hlt (h.1 z hz)
      · refine List.pairwise_cons.2 ⟨fun z hz => ?_, ih h.2⟩
        rcases mem_tabPut ys i x z hz with rfl | hz
        · show k < i; omega
        · exact h.1 z hz

theorem tabDel_sublist {α : Type} (t : Tab α) (i : Nat) : (tabDel t i).Sublist t := List.filter_sublist

theorem tabWf_sublist {α : Type} [DecidableEq α] (d : α) (s t : Tab α) (hs : s.Sublist t) (h : tabWf d t = true) : tabWf d s = true := by
  rw [tabWf_iff] at *
  exact ⟨fun e he => h.1 e (hs.subset he), h.2.sublist hs⟩

/-- Setting a key keeps the canonical form. -/
theorem tabWf_tabSet {α : Type} [DecidableEq α] (d : α) (t : Tab α) (i : Nat) (x : α) (h : tabWf d t = true) : tabWf d (tabSet d t i x) = true := by
  unfold tabSet
  split
  · exact tabWf_sublist d _ _ (tabDel_sublist t i) h
  · next hx =>
    rw [tabWf_iff] at *
    refine ⟨fun e he => ?_, rising_tabPut t i x h.2⟩
    rcases mem_tabPut t i x e he with rfl | he
    · exact hx
    · exact h.1 e he

theorem tabSorted_tabPut {α : Type} (t : Tab α) (i : Nat) (x : α) (h : tabSorted t = true) : tabSorted (tabPut t i x) = true := by
  rw [tabSorted_iff] at *
  exact rising_tabPut t i x h

/-- A key that was put is found. -/
@[simp] theorem tabFind_tabPut_same {α : Type} (t : Tab α) (i : Nat) (x : α) : tabFind (tabPut t i x) i = some x := by
  induction t with
  | nil => simp [tabPut, tabFind]
  | cons y ys ih =>
    rcases y with ⟨k, v⟩
    simp only [tabPut]
    split
    · simp [tabFind]
    · split
      · simp [tabFind]
      · simp only [tabFind]
        rw [if_neg ‹¬k = i›, ih]

/-- Another key is found as before. -/
theorem tabFind_tabPut_other {α : Type} (t : Tab α) (i j : Nat) (x : α) (hij : j ≠ i) : tabFind (tabPut t i x) j = tabFind t j := by
  induction t with
  | nil => simp [tabPut, tabFind, Ne.symm hij]
  | cons y ys ih =>
    rcases y with ⟨k, v⟩
    simp only [tabPut]
    split
    · next e => subst e; simp [tabFind, Ne.symm hij]
    · split
      · simp [tabFind, Ne.symm hij]
      · simp only [tabFind, ih]

/-- A key that was unlisted is not found. -/
@[simp] theorem tabFind_tabDel_same {α : Type} (t : Tab α) (i : Nat) : tabFind (tabDel t i) i = none := by
  induction t with
  | nil => rfl
  | cons y ys ih =>
    rcases y with ⟨k, v⟩
    by_cases hk : k = i
    · subst hk; simpa [tabDel] using ih
    · have : tabDel ((k, v) :: ys) i = (k, v) :: tabDel ys i := by simp [tabDel, hk]
      rw [this, tabFind, if_neg hk, ih]

/-- Every other key is found as before. -/
theorem tabFind_tabDel_other {α : Type} (t : Tab α) (i j : Nat) (hij : j ≠ i) : tabFind (tabDel t i) j = tabFind t j := by
  induction t with
  | nil => rfl
  | cons y ys ih =>
    rcases y with ⟨k, v⟩
    by_cases hk : k = i
    · subst hk
      have : tabDel ((k, v) :: ys) k = tabDel ys k := by simp [tabDel]
      rw [this, ih, tabFind, if_neg (Ne.symm hij)]
    · have : tabDel ((k, v) :: ys) i = (k, v) :: tabDel ys i := by simp [tabDel, hk]
      rw [this, tabFind, tabFind, ih]

/-- A key that was set reads as what was set. -/
@[simp] theorem tabGet_tabSet_same {α : Type} [DecidableEq α] (d : α) (t : Tab α) (i : Nat) (x : α) : tabGet d (tabSet d t i x) i = x := by
  unfold tabGet tabSet
  split
  · next e => rw [tabFind_tabDel_same]; exact e.symm
  · simp

/-- Every other key reads as before. -/
theorem tabGet_tabSet_other {α : Type} [DecidableEq α] (d e : α) (t : Tab α) (i j : Nat) (x : α) (hij : j ≠ i) :
    tabGet e (tabSet d t i x) j = tabGet e t j := by
  unfold tabGet tabSet
  split
  · rw [tabFind_tabDel_other t i j hij]
  · rw [tabFind_tabPut_other t i j x hij]

/-! ## Local memory -/

theorem memPut_wf (m : List Host.Cell) (a : Nat) (x : Byte) (h : tabWf 0 m = true) : tabWf 0 (memPut m a x) = true := tabWf_tabSet 0 m a x h

theorem memPutList_wf (rest : Nat → Byte) (m : List Host.Cell) (a : Nat) (l : List Byte) (h : tabWf 0 m = true) :
    tabWf 0 (memPutList rest m a l) = true := by
  induction l generalizing m a with
  | nil => exact h
  | cons x xs ih => exact ih _ _ (memPut_wf m a _ h)

theorem memPutCells_wf (f : Host.Cell → Byte) (m l : List Host.Cell) (h : tabWf 0 m = true) :
    tabWf 0 (l.foldl (fun m c => memPut m c.1 (f c)) m) = true := by
  induction l generalizing m with
  | nil => exact h
  | cons c cs ih => exact ih _ (memPut_wf m c.1 _ h)

theorem hostPutList_sorted (m : List Host.Cell) (a : Nat) (l : List Byte) (h : tabSorted m = true) : tabSorted (hostPutList m a l) = true := by
  induction l generalizing m a with
  | nil => exact h
  | cons x xs ih => exact ih _ _ (tabSorted_tabPut m a x h)

theorem hostPutCells_sorted (m : List Host.Cell) (l : List (Nat × Byte)) (h : tabSorted m = true) :
    tabSorted (l.foldl (fun m c => tabPut m c.1 c.2) m) = true := by
  induction l generalizing m with
  | nil => exact h
  | cons c cs ih => exact ih _ (tabSorted_tabPut m c.1 c.2 h)

/-- What memory lists at an address after bytes were put from `a` on: each as its difference from what the address reads as unlisted. -/
theorem memPutList_get (rest : Nat → Byte) (m : List Host.Cell) (a : Nat) (l : List Byte) (j : Nat) :
    tabGet 0 (memPutList rest m a l) j = if a ≤ j ∧ j < a + l.length then l.getD (j - a) 0 ^^^ rest j else tabGet 0 m j := by
  induction l generalizing m a with
  | nil =>
    have : ¬ (a ≤ j ∧ j < a) := by omega
    simp [memPutList, this]
  | cons x xs ih =>
    rw [memPutList, ih]
    by_cases hj : j = a
    · subst hj
      rw [if_neg (by omega), if_pos (by simp), memPut, tabGet_tabSet_same]
      simp
    · rw [memPut, tabGet_tabSet_other 0 0 m a j _ hj]
      by_cases hin : a + 1 ≤ j ∧ j < a + 1 + xs.length
      · rw [if_pos hin, if_pos (by simp; omega)]
        obtain ⟨n, rfl⟩ : ∃ n, j = a + 1 + n := ⟨j - (a + 1), by omega⟩
        have e1 : a + 1 + n - (a + 1) = n := by omega
        have e2 : a + 1 + n - a = n + 1 := by omega
        rw [e1, e2]; rfl
      · rw [if_neg hin, if_neg (by simp; omega)]

/-- What a store does to memory: the bytes stored, and no other, change. -/
theorem Block.store_byte (b : Block) (a : Nat) (l : List Byte) (j : Nat) :
    (b.store a l).byte j = if a ≤ j ∧ j < a + l.length then l.getD (j - a) 0 else b.byte j := by
  show tabGet 0 (memPutList b.rest b.mem a l) j ^^^ b.rest j = _
  rw [memPutList_get]
  split
  · rw [BitVec.xor_assoc, BitVec.xor_self, BitVec.xor_zero]
  · rfl

/-- Cells put in order leave every address that none names as it was. -/
theorem memPutCells_get (f : Host.Cell → Byte) (m l : List Host.Cell) (j : Nat) (hj : ∀ c ∈ l, c.1 ≠ j) :
    tabGet 0 (l.foldl (fun m c => memPut m c.1 (f c)) m) j = tabGet 0 m j := by
  induction l generalizing m with
  | nil => rfl
  | cons c cs ih =>
    rw [List.foldl_cons, ih _ (fun e he => hj e (List.mem_cons_of_mem _ he)), memPut,
      tabGet_tabSet_other 0 0 m c.1 j _ (hj c List.mem_cons_self).symm]

/-- What landing cells does to memory: an address that no cell names reads as before. -/
theorem Block.landCells_byte (b : Block) (cells : List Host.Cell) (j : Nat) (hj : ∀ c ∈ cells, c.1 ≠ j) :
    (b.landCells cells).1.byte j = b.byte j := by
  show tabGet 0 (List.foldl (fun (m : List Host.Cell) (c : Host.Cell) => memPut m c.1 (c.2 ^^^ b.rest c.1)) b.mem _) j ^^^ b.rest j = _
  rw [memPutCells_get (fun c => c.2 ^^^ b.rest c.1) b.mem _ j (fun c hc => hj c (List.takeWhile_sublist _ |>.subset hc))]
  rfl

/-! ## Registers -/

/-- A register that was set reads as what was set. -/
@[simp] theorem Block.reg_setReg_same (b : Block) (a : Nat) (v : Word) : (b.setReg a v).reg a = v :=
  tabGet_tabSet_same (regReset a) b.regs a v

/-- Every other register reads as before. -/
theorem Block.reg_setReg_other (b : Block) (a c : Nat) (v : Word) (hc : c ≠ a) : (b.setReg a v).reg c = b.reg c :=
  tabGet_tabSet_other (regReset a) (regReset c) b.regs a c v hc

end Sys2Proof.Machine
end

