-- ==== Sys2Proof/Laws/Kept.lean ====
section
/-! SUPPORT. What every change of the lasting state keeps: the canonical form of both memories, the audit area's records and their numbers, the
key store's entries, and that no job has two slots. Each operation that reaches the lasting state has one lemma here or in Laws/Kept*.lean. -/

namespace Sys2Proof.Machine

/-- What a change of the lasting state from `x` to `y` keeps. -/
structure Kept (x y : Lasting) : Prop where
  mem : tabWf 0 x.mem = true → tabWf 0 y.mem = true
  host : tabSorted x.hostMem = true → tabSorted y.hostMem = true
  audit : x.audit <+: y.audit
  numbered : Numbered x.audit → Numbered y.audit
  keys : KeysKept x.keys y.keys
  slots : OneSlot x.slots → OneSlot y.slots

theorem KeysKept.refl (x : List KeyEntry) : KeysKept x x := fun _ k h => ⟨k, h, rfl, rfl, rfl, rfl, fun h => h⟩

theorem KeysKept.trans {x y z : List KeyEntry} (h : KeysKept x y) (g : KeysKept y z) : KeysKept x z := by
  intro i k hk
  obtain ⟨l, hl, h1, h2, h3, h4, h5⟩ := h i k hk
  obtain ⟨m, hm, g1, g2, g3, g4, g5⟩ := g i l hl
  exact ⟨m, hm, g1.trans h1, g2.trans h2, g3.trans h3, g4.trans h4, fun e => g5 (h5 e)⟩

@[simp] theorem Kept.refl (x : Lasting) : Kept x x :=
  ⟨fun h => h, fun h => h, List.prefix_refl _, fun h => h, KeysKept.refl _, fun h => h⟩

theorem Kept.trans {x y z : Lasting} (h : Kept x y) (g : Kept y z) : Kept x z :=
  ⟨fun e => g.mem (h.mem e), fun e => g.host (h.host e), h.audit.trans g.audit, fun e => g.numbered (h.numbered e), h.keys.trans g.keys,
    fun e => g.slots (h.slots e)⟩

/-! ## The changes themselves -/

/-- A change of local memory alone. -/
theorem Kept.ofMem {x : Lasting} {b c : Block} (h : Kept x b.lasting) (hm : tabWf 0 b.mem = true → tabWf 0 c.mem = true)
    (e1 : c.hostMem = b.hostMem) (e2 : c.flash = b.flash) (e3 : c.slots = b.slots) : Kept x c.lasting := by
  refine h.trans ⟨hm, ?_, ?_, ?_, ?_, ?_⟩ <;> simp only [Block.lasting, e1, e2, e3]
  · exact fun h => h
  · exact List.prefix_refl _
  · exact fun h => h
  · exact KeysKept.refl _
  · exact fun h => h

/-- A change of host memory alone. -/
theorem Kept.ofHost {x : Lasting} {b c : Block} (h : Kept x b.lasting) (hm : tabSorted b.hostMem = true → tabSorted c.hostMem = true)
    (e1 : c.mem = b.mem) (e2 : c.flash = b.flash) (e3 : c.slots = b.slots) : Kept x c.lasting := by
  refine h.trans ⟨?_, hm, ?_, ?_, ?_, ?_⟩ <;> simp only [Block.lasting, e1, e2, e3]
  · exact fun h => h
  · exact List.prefix_refl _
  · exact fun h => h
  · exact KeysKept.refl _
  · exact fun h => h

/-- A change of the slots alone. -/
theorem Kept.ofSlots {x : Lasting} {b c : Block} (h : Kept x b.lasting)
    (hs : OneSlot (b.slots.map (fun s => (s.st, s.job))) → OneSlot (c.slots.map (fun s => (s.st, s.job))))
    (e1 : c.mem = b.mem) (e2 : c.flash = b.flash) (e3 : c.hostMem = b.hostMem) : Kept x c.lasting := by
  refine h.trans ⟨?_, ?_, ?_, ?_, ?_, hs⟩ <;> simp only [Block.lasting, e1, e2, e3]
  · exact fun h => h
  · exact fun h => h
  · exact List.prefix_refl _
  · exact fun h => h
  · exact KeysKept.refl _

variable {x : Lasting} {b : Block}

@[simp] theorem Block.store_kept (a : Nat) (l : List Byte) (h : Kept x b.lasting) : Kept x (b.store a l).lasting :=
  h.ofMem (memPutList_wf b.rest b.mem a l) rfl rfl rfl

@[simp] theorem Block.storeCells_kept (l : List Host.Cell) (h : Kept x b.lasting) : Kept x (b.storeCells l).lasting := by
  induction l generalizing b with
  | nil => exact h
  | cons c cs ih => exact ih (Block.store_kept c.1 [c.2] h)

@[simp] theorem Block.landCells_kept (l : List Host.Cell) (h : Kept x b.lasting) : Kept x (b.landCells l).1.lasting :=
  h.ofMem (memPutCells_wf _ b.mem _) rfl rfl rfl

@[simp] theorem Block.hostStore_kept (a : Nat) (l : List Byte) (h : Kept x b.lasting) : Kept x (b.hostStore a l).lasting :=
  h.ofHost (hostPutList_sorted b.hostMem a l) rfl rfl rfl

@[simp] theorem Block.hostAnnounce_kept (l : List (Nat × Byte)) (h : Kept x b.lasting) : Kept x (b.hostAnnounce l).lasting :=
  h.ofHost (hostPutCells_sorted b.hostMem l) rfl rfl rfl

@[simp] theorem Block.zeroFrame_kept (f size : Nat) (h : Kept x b.lasting) : Kept x (b.zeroFrame f size).lasting :=
  h.ofMem (tabWf_sublist 0 _ _ List.filter_sublist) rfl rfl rfl

@[simp] theorem Block.clearShelf_kept (i : HalfId) (h : Kept x b.lasting) : Kept x (b.clearShelf i).lasting :=
  h.ofMem (tabWf_sublist 0 _ _ List.filter_sublist) rfl rfl rfl

@[simp] theorem Block.testFill_kept (i : List Nat) (h : Kept x b.lasting) : Kept x (b.testFill i).lasting :=
  h.ofMem (tabWf_sublist 0 _ _ List.filter_sublist) rfl rfl rfl

@[simp] theorem Block.appendAudit_kept (a : Actor) (c : Change) (r : Bool) (h : Kept x b.lasting) : Kept x (b.appendAudit a c r).lasting := by
  refine h.trans ⟨fun h => h, fun h => h, List.prefix_append _ _, ?_, KeysKept.refl _, fun h => h⟩
  intro hn i y hy
  simp only [Block.lasting, Block.appendAudit, Block.setFlash] at hn hy
  rw [List.getElem?_append] at hy
  split at hy
  · exact hn i y hy
  · next hi =>
    have e : i - b.flash.audit.length = 0 := by
      rcases Nat.eq_zero_or_pos (i - b.flash.audit.length) with e | e
      · exact e
      · rw [List.getElem?_eq_none (by simp; omega)] at hy; simp at hy
    rw [e] at hy
    simp only [List.getElem?_cons_zero, Option.some.injEq] at hy
    subst hy
    simp only; omega

/-- Entries of a list that a change leaves out, or whose slot was bound before as now, keep a job's one slot. -/
theorem OneSlot.mono {l m : List (Nat × Nat)} (hl : OneSlot l)
    (hm : ∀ i, (m.getD i (0, 0)).1 ≠ 0 → (l.getD i (0, 0)).1 ≠ 0 ∧ (m.getD i (0, 0)).2 = (l.getD i (0, 0)).2) : OneSlot m :=
  fun i j hi hj e => hl i j (hm i hi).1 (hm j hj).1 ((hm i hi).2 ▸ (hm j hj).2 ▸ e)

theorem getD_listMod {α : Type} (l : List α) (k i : Nat) (f : α → α) (d : α) :
    (listMod l k f).getD i d = if i = k ∧ i < l.length then f (l.getD i d) else l.getD i d := by
  induction l generalizing k i with
  | nil => simp [listMod]
  | cons y ys ih =>
    cases k with
    | zero => cases i <;> simp [listMod]
    | succ k =>
      cases i with
      | zero => simp [listMod]
      | succ i => simpa [listMod] using ih k i

theorem getD_slots (l : List JobSlot) (i : Nat) :
    (l.map (fun s => (s.st, s.job))).getD i (0, 0) = ((l.getD i JobSlot.reset).st, (l.getD i JobSlot.reset).job) := by
  simp only [List.getD_eq_getElem?_getD, List.getElem?_map]
  cases l[i]? <;> rfl

/-- A slot changed so that it is bound only if it was, and then to the same job. -/
theorem Block.modSlot_kept (k : Nat) (f : JobSlot → JobSlot) (hf : ∀ s, (f s).st ≠ 0 → s.st ≠ 0 ∧ (f s).job = s.job) (h : Kept x b.lasting) :
    Kept x (b.modSlot k f).lasting := by
  refine h.ofSlots (fun hs => hs.mono ?_) rfl rfl rfl
  intro i
  rw [getD_slots, getD_slots]
  simp only [Block.modSlot, getD_listMod]
  split
  · exact fun hi => hf _ hi
  · exact fun hi => ⟨hi, rfl⟩

theorem Kept.ofLasting {y z : Block} (h : Kept x y.lasting) (e : z.lasting = y.lasting) : Kept x z.lasting := e ▸ h

/-- Losing the supply keeps what the flash and the host hold (R467). -/
@[simp] theorem Block.cold_kept (h : Kept x b.lasting) : Kept x b.cold.lasting := by
  refine h.trans ⟨fun _ => rfl, fun h => h, List.prefix_refl _, fun h => h, KeysKept.refl _, fun _ => ?_⟩
  intro i j hi
  exfalso
  apply hi
  have e : ((b.cold.slots).map (fun s => (s.st, s.job))) = List.replicate 16 (0, 0) := rfl
  simp only [Block.lasting, e, List.getD_eq_getElem?_getD, List.getElem?_replicate]
  split <;> rfl

/-- Programming a key's STATE to revoked keeps the store (R444). -/
@[simp] theorem Block.revokeKey_kept (keyId : Nat) (h : Kept x b.lasting) : Kept x (b.revokeKey keyId).lasting := by
  have hk (c : Block) : Kept c.lasting ({ c with flash := { c.flash with
      keys := c.flash.keys.map (fun (k : KeyEntry) => if k.keyId = keyId then { k with active := false } else k) } } : Block).lasting := by
    refine ⟨fun h => h, fun h => h, List.prefix_refl _, fun h => h, ?_, fun h => h⟩
    intro i k hk
    refine ⟨if k.keyId = keyId then { k with active := false } else k, ?_, ?_⟩
    · simp only [Block.lasting] at hk ⊢; rw [List.getElem?_map, hk]; rfl
    · split <;> simp
  unfold Block.revokeKey
  dsimp only
  split
  · exact (h.trans (hk b)).ofLasting (Block.closeStaging_lasting _)
  · exact h.trans (hk b)

/-- Enrolling a key keeps the store's entries (R444). -/
theorem Kept.enrol (e : KeyEntry) (h : Kept x b.lasting) :
    Kept x ({ b with flash := { b.flash with keys := b.flash.keys ++ [e] } } : Block).lasting := by
  refine h.trans ⟨fun h => h, fun h => h, List.prefix_refl _, fun h => h, ?_, fun h => h⟩
  intro i k hk
  refine ⟨k, ?_, rfl, rfl, rfl, rfl, fun h => h⟩
  simp only [Block.lasting] at hk ⊢
  rw [List.getElem?_append_left (by
    rcases Nat.lt_or_ge i b.flash.keys.length with hi | hi
    · exact hi
    · rw [List.getElem?_eq_none hi] at hk; cases hk), hk]

@[simp] theorem Block.setFunc_kept (f : FuncId) (y : FuncState)
    (hy : ∀ k : Fin 16, f = .slot k → (y.st = 0 ∨ y.st = 1) → (b.slot k.val).st ≠ 0) (h : Kept x b.lasting) : Kept x (b.setFunc f y).lasting := by
  cases f with
  | slot k =>
    refine h.ofSlots (fun hs => hs.mono ?_) rfl rfl rfl
    intro i
    rw [getD_slots, getD_slots]
    simp only [Block.setFunc, Block.modSlot, getD_listMod]
    split
    · next hi =>
      intro hst
      refine ⟨?_, rfl⟩
      have := hy k rfl
      rw [hi.1]
      apply this
      simp only at hst
      split at hst
      · left; assumption
      · right; assumption
      · exact absurd rfl hst
    · exact fun hi => ⟨hi, rfl⟩
  | core n => exact h.ofLasting (by simp [Block.setFunc])
  | harbour n => exact h.ofLasting (by simp [Block.setFunc])
  | port n => exact h.ofLasting (by simp [Block.setFunc])

/-- A fold of steps that each keep. -/
@[simp] theorem Block.kept_foldl {α : Type} (f : Block → α → Block) (hf : ∀ (c : Block) y, Kept x c.lasting → Kept x (f c y).lasting) (l : List α)
    (h : Kept x b.lasting) : Kept x (l.foldl f b).lasting := by
  induction l generalizing b with
  | nil => exact h
  | cons y ys ih => exact ih (hf b y h)

end Sys2Proof.Machine
end

