-- ==== Sys2Proof/Laws/KeptSaffron.lean ====
section
/-! SUPPORT. Each operation of Saffron and the requests that reaches the lasting state keeps it (Laws/Kept.lean): one lemma for each. -/

namespace Sys2Proof.Machine

variable {x : Lasting}

@[simp] theorem Block.audited_kept (b : Block) (a : Actor) (c : Change) (f : Block → Block) (hf : ∀ c : Block, Kept x c.lasting → Kept x (f c).lasting) (hk : Kept x b.lasting) :
    Kept x (b.audited a c f).1.lasting := by
  simp only [Block.audited]; (repeat' split) <;> simp [*]

@[simp] theorem Block.zeroFrames_kept (b : Block) (size : Nat) (l : List Nat) (hk : Kept x b.lasting) : Kept x (b.zeroFrames size l).lasting := by
  induction l generalizing b size  <;> simp_all [Block.zeroFrames]

theorem Block.cqPush_kept (b : Block) (q : Nat) (entry : Bool → List Byte) (atOnce : Bool) (hk : Kept x b.lasting) :
    ∀ z, (b.cqPush q entry atOnce) = some z → Kept x z.lasting := by
  simp [Block.cqPush, hk]

theorem Block.tryRecord_kept (b : Block) (t : TaskRef) (hk : Kept x b.lasting) : ∀ z, (b.tryRecord t) = .written z → Kept x z.lasting := by
  simp only [Block.tryRecord]; (repeat' split) <;> (try simp_all) <;> grind [Block.tryRecord, Block.cqPush_kept, Block.modGraph_lasting, Block.storeCells_kept]

@[simp] theorem Block.finishRecord_kept (b : Block) (t : TaskRef) (hk : Kept x b.lasting) : Kept x (b.finishRecord t).lasting := by
  simp only [Block.finishRecord]; (repeat' split) <;> (try simp_all) <;> grind [Block.finishRecord, Block.afterRecord_lasting, Block.log_lasting, Block.modGraph_lasting, Block.modTask_lasting, Block.tryRecord_kept]

@[simp] theorem Block.receive_kept (b : Block) (h : HalfId) (p : Packet) (cls : Nat) (ops : List Nat) (f : Block → Block) (hf : ∀ c : Block, Kept x c.lasting → Kept x (f c).lasting) (hk : Kept x b.lasting) :
    Kept x (b.receive h p cls ops f).lasting := by
  simp only [Block.receive]; (repeat' split) <;> simp [*]

theorem Block.report_kept (b : Block) (h : HalfId) (w : WaitingGraph) (status : Nat) (gid : Nat) (badTask : Nat) (badOffset : Nat) (hk : Kept x b.lasting) :
    ∀ z, (b.report h w status gid badTask badOffset) = some z → Kept x z.lasting := by
  intro z e
  unfold Block.report at e
  split at e
  · split at e
    · exact Block.cqPush_kept b _ _ _ hk z e
    · cases e; exact hk
  · cases e; simpa using hk
  · split at e
    · cases e; exact hk
    · split at e <;> cases e <;> simpa using hk

theorem Block.submit_kept (b : Block) (h : HalfId) (member : Nat) (va : Nat) (src : SourceId) (depth : Nat) (launcher : Option TaskRef) (tag : Nat) (sqIndex : Nat) (hk : Kept x b.lasting) :
    ∀ z, (b.submit h member va src depth launcher tag sqIndex) = some z → Kept x z.lasting := by
  simp only [Block.submit]; (repeat' split) <;> (try simp_all) <;> grind [Block.submit, Block.report_kept]

@[simp] theorem Block.checkSource_kept (b : Block) (h : HalfId) (src : SourceId) (l : Nat) (hk : Kept x b.lasting) :
    Kept x (b.checkSource h src l).lasting := by
  induction l generalizing b with
  | zero => exact hk
  | succ n ih =>
    unfold Block.checkSource
    split
    · exact hk
    · split
      · exact hk
      · split
        · simpa using hk
        · split
          · next e => exact ih _ (Block.report_kept _ _ _ _ _ _ _ (by simpa using hk) _ e)
          · exact hk

@[simp] theorem Block.checkHead_kept (b : Block) (h : HalfId) (src : SourceId) (hk : Kept x b.lasting) : Kept x (b.checkHead h src).lasting := by
  simp [Block.checkHead, hk]

@[simp] theorem Block.admitHead_kept (b : Block) (h : HalfId) (w : WaitingGraph) (gid : Nat) (hk : Kept x b.lasting) :
    Kept x (b.admitHead h w gid).lasting := by
  unfold Block.admitHead
  split
  · split
    · simpa using hk
    · cases e : (b.dequeue h w).report h w _ 0 _ _ with
      | none => exact hk
      | some z => exact Block.report_kept _ _ _ _ _ _ _ (by simpa using hk) _ e
  · split
    · exact hk
    · dsimp only
      split
      · simpa using hk
      · cases e : (((b.dequeue h w).stepAdmit h w).admitTo h gid w.graph).report h w stOk gid 0 0 with
        | none => exact hk
        | some z => exact Block.report_kept _ _ _ _ _ _ _ (by simpa using hk) _ e

@[simp] theorem Block.retryRecord_kept (b : Block) (t : TaskRef) (hk : Kept x b.lasting) : Kept x (b.retryRecord t).lasting := by
  simp only [Block.retryRecord]; (repeat' split) <;> (try simp_all) <;> grind [Block.retryRecord, Block.afterRecord_lasting, Block.modReg_lasting, Block.tryRecord_kept]

@[simp] theorem Block.retryRecords_kept (b : Block) (l : List TaskRef) (hk : Kept x b.lasting) : Kept x (b.retryRecords l).lasting := by
  induction l generalizing b  <;> simp_all [Block.retryRecords]

@[simp] theorem Block.writeGraphHead_kept (b : Block) (h : HalfId) (gid : Nat) (v : Nat) (hk : Kept x b.lasting) :
    Kept x (b.writeGraphHead h gid v).lasting := by
  simp only [Block.writeGraphHead]; (repeat' split) <;> simp [*]

@[simp] theorem Block.onRunning_kept (b : Block) (t : TaskRef) (ty : Nat) (f : Graph → TaskCtx → Block) (hf : ∀ g c, Kept x (f g c).lasting) (hk : Kept x b.lasting) :
    Kept x (b.onRunning t ty f).lasting := by
  simp only [Block.onRunning]; (repeat' split) <;> simp [*]

theorem Block.serve_kept (b : Block) (r : Request) (hk : Kept x b.lasting) :
    (∀ z l, (b.serve r) = .done z l → Kept x z.lasting) ∧ (∀ z l, (b.serve r) = .failed z l → Kept x z.lasting) := by
  simp only [Block.serve]; (repeat' split) <;> simp [*]

@[simp] theorem Block.serveHere_kept (b : Block) (h : HalfId) (tag : Nat) (r : Request) (hk : Kept x b.lasting) :
    Kept x (b.serveHere h tag r).lasting := by
  unfold Block.serveHere
  split
  · next e =>
    split
    · simpa using (Block.serve_kept b r hk).2 _ _ e
    · simpa using (Block.serve_kept b r hk).2 _ _ e
  · next e => simpa using (Block.serve_kept b r hk).1 _ _ e

@[simp] theorem Block.launchHome_kept (b : Block) (h : HalfId) (tag : Nat) (r : Request) (hk : Kept x b.lasting) :
    Kept x (b.launchHome h tag r).lasting := by
  simp only [Block.launchHome]; (repeat' split) <;> simp [*]

@[simp] theorem Block.launch_kept (b : Block) (h : HalfId) (tag : Nat) (r : Request) (hk : Kept x b.lasting) : Kept x (b.launch h tag r).lasting := by
  simp only [Block.launch]; (repeat' split) <;> simp [*]

@[simp] theorem Block.grant_kept (b : Block) (h : HalfId) (r : Request) (hk : Kept x b.lasting) : Kept x (b.grant h r).lasting := by
  simp only [Block.grant]; (repeat' split) <;> simp [*]

@[simp] theorem Block.abortPublication_kept (b : Block) (h : HalfId) (job : Nat) (d : TaskDesc) (hk : Kept x b.lasting) :
    Kept x (b.abortPublication h job d).lasting := by
  simp only [Block.abortPublication]; (repeat' split) <;> simp [*]

@[simp] theorem Block.fail_kept (b : Block) (t : TaskRef) (st : Nat) (det : Nat) (hk : Kept x b.lasting) : Kept x (b.fail t st det).lasting := by
  simp only [Block.fail]; (repeat' split) <;> simp [*]

@[simp] theorem Block.failStop_kept (b : Block) (t : TaskRef) (l : Stop) (hk : Kept x b.lasting) : Kept x (b.failStop t l).lasting := by
  induction l generalizing b t  <;> simp_all [Block.failStop]

@[simp] theorem Block.refuseIssue_kept (b : Block) (r : Request) (hk : Kept x b.lasting) : Kept x (b.refuseIssue r).lasting := by
  simp only [Block.refuseIssue]; (repeat' split) <;> simp [*]

@[simp] theorem Block.issue_kept (b : Block) (h : HalfId) (r : Request) (hk : Kept x b.lasting) : Kept x (b.issue h r).lasting := by
  simp only [Block.issue]; (repeat' split) <;> simp [*]

@[simp] theorem Block.issueAll_kept (b : Block) (h : HalfId) (l : List Request) (hk : Kept x b.lasting) : Kept x (b.issueAll h l).lasting := by
  induction l generalizing b h  <;> grind [Block.issueAll, Block.issue_kept]

@[simp] theorem Block.askFar_kept (b : Block) (t : TaskRef) (addr : Nat) (len : Nat) (hk : Kept x b.lasting) :
    Kept x (b.askFar t addr len).lasting := by
  simp only [Block.askFar]; (repeat' split) <;> simp [*]

@[simp] theorem Block.stop_kept (b : Block) (t : TaskRef) (l : Stop) (hk : Kept x b.lasting) : Kept x (b.stop t l).lasting := by
  induction l generalizing b t  <;> simp_all [Block.stop]

@[simp] theorem Block.mapObject_kept (b : Block) (t : TaskRef) (handle : Nat) (hk : Kept x b.lasting) : Kept x (b.mapObject t handle).lasting := by
  simp only [Block.mapObject]; (repeat' split) <;> simp [*]

@[simp] theorem Block.mapAll_kept (b : Block) (handle : Nat) (l : List TaskRef) (hk : Kept x b.lasting) : Kept x (b.mapAll handle l).lasting := by
  induction l generalizing b handle  <;> simp_all [Block.mapAll]

@[simp] theorem Block.fillDone_kept (b : Block) (t : TaskRef) (handle : Nat) (hk : Kept x b.lasting) : Kept x (b.fillDone t handle).lasting := by
  simp [Block.fillDone, hk]

@[simp] theorem Block.publishData_kept (b : Block) (t : TaskRef) (hk : Kept x b.lasting) : Kept x (b.publishData t).lasting := by
  simp only [Block.publishData]; (repeat' split) <;> (try simp_all) <;> grind [Block.publishData, Block.failStop_kept, Block.hostStore_kept, Block.issue_kept, Block.issueAll_kept, Block.modTask_lasting, Block.refObjects_lasting]

@[simp] theorem Block.publishCommit_kept (b : Block) (t : TaskRef) (d : TaskDesc) (hk : Kept x b.lasting) : Kept x (b.publishCommit t d).lasting := by
  simp [Block.publishCommit, hk]

@[simp] theorem Block.answered_kept (b : Block) (r : Request) (t : TaskRef) (data : List Byte) (hk : Kept x b.lasting) :
    Kept x (b.answered r t data).lasting := by
  simp only [Block.answered]; (repeat' split) <;> simp [*]

@[simp] theorem Block.refused_kept (b : Block) (r : Request) (t : TaskRef) (status : Nat) (hk : Kept x b.lasting) :
    Kept x (b.refused r t status).lasting := by
  simp only [Block.refused]; (repeat' split) <;> simp [*]

@[simp] theorem Block.homeAnswered_kept (b : Block) (h : HalfId) (r : Request) (t : TaskRef) (status : Nat) (data : List Byte) (hk : Kept x b.lasting) :
    Kept x (b.homeAnswered h r t status data).lasting := by
  simp only [Block.homeAnswered]; (repeat' split) <;> simp [*]

@[simp] theorem Block.completeRequest_kept (b : Block) (h : HalfId) (tag : Nat) (status : Nat) (data : List Byte) (hk : Kept x b.lasting) :
    Kept x (b.completeRequest h tag status data).lasting := by
  simp only [Block.completeRequest]; (repeat' split) <;> simp [*]

@[simp] theorem Block.land_kept (b : Block) (t : TaskRef) (cells : List Host.Cell) (status : Nat) (detail : Nat) (hk : Kept x b.lasting) :
    Kept x (b.land t cells status detail).lasting := by
  simp only [Block.land]; (repeat' split) <;> simp [*]

@[simp] theorem Block.finish_kept (b : Block) (t : TaskRef) (r : Res (List Host.Cell)) (status : Nat) (detail : Nat) (hk : Kept x b.lasting) :
    Kept x (b.finish t r status detail).lasting := by
  simp only [Block.finish]; (repeat' split) <;> simp [*]

@[simp] theorem Block.landPiece_kept (b : Block) (p : Piece) (hk : Kept x b.lasting) : Kept x (b.landPiece p).lasting := by
  simp only [Block.landPiece]; (repeat' split) <;> simp [*]

@[simp] theorem Block.landPieces_kept (b : Block) (ps : List Piece) (hk : Kept x b.lasting) : Kept x (b.landPieces ps).lasting := by
  unfold Block.landPieces; (repeat' split) <;> simp_all

@[simp] theorem Block.landFree_kept (b : Block) (ps : List Piece) (lo : Nat) (hi : Nat) (hk : Kept x b.lasting) :
    Kept x (b.landFree ps lo hi).lasting := by
  simp [Block.landFree, hk]

@[simp] theorem Block.landSome_kept (b : Block) (shares : List (List Piece)) (hk : Kept x b.lasting) : Kept x (b.landSome shares).lasting := by
  unfold Block.landSome; (repeat' split) <;> simp_all

@[simp] theorem Block.landRun_kept (b : Block) (shares : List (List Piece)) (hk : Kept x b.lasting) : Kept x (b.landRun shares).1.lasting := by
  unfold Block.landRun
  dsimp only
  split
  · exact Block.landPieces_kept _ _ hk
  · exact hk
  · refine Block.kept_foldl _ (fun c s hc => ?_) _ hk
    split
    · exact Block.landPieces_kept _ _ (Block.landFree_kept _ _ _ _ hc)
    · exact Block.landFree_kept _ _ _ _ hc

@[simp] theorem Block.finishRun_kept (b : Block) (t : TaskRef) (shares : List (List Piece)) (status : Nat) (detail : Nat) (hk : Kept x b.lasting) :
    Kept x (b.finishRun t shares status detail).lasting := by
  simp only [Block.finishRun]; (repeat' split) <;> simp [*]

@[simp] theorem Block.onMode_kept (b : Block) (t : TaskRef) (ty : Nat) (mode : Nat) (f : Graph → TaskCtx → Block) (hf : ∀ g c, Kept x (f g c).lasting) (hk : Kept x b.lasting) :
    Kept x (b.onMode t ty mode f).lasting := by
  simp only [Block.onMode]; (repeat' split) <;> (try simp_all) <;> grind [Block.onMode, Block.onRunning_kept, Block.onRunning_lasting]

end Sys2Proof.Machine
end

