-- ==== Sys2Proof/Laws/State.lean ====
section
/-! SUPPORT. What each update of the state leaves alone: one lemma for each field and update. -/

namespace Sys2Proof.Machine

theorem Block.half_eq {b c : Block} (hA : b.halfA = c.halfA) (hB : b.halfB = c.halfB) (h : HalfId) : b.half h = c.half h := by
  cases h
  · exact hA
  · exact hB

theorem Block.reg_eq {b c : Block} (h : b.regs = c.regs) (a : Nat) : b.reg a = c.reg a := by
  simp [Block.reg, h]

theorem Block.byte_eq {b c : Block} (h : b.mem = c.mem) (g : b.fill = c.fill) (a : Nat) : b.byte a = c.byte a := by
  simp [Block.byte, Block.rest, h, g]

@[simp] theorem Block.setReg_halfA (b : Block) (a : Nat) (v : Word) : (b.setReg a v).halfA = b.halfA := by rfl
@[simp] theorem Block.setReg_halfB (b : Block) (a : Nat) (v : Word) : (b.setReg a v).halfB = b.halfB := by rfl
@[simp] theorem Block.setReg_mem (b : Block) (a : Nat) (v : Word) : (b.setReg a v).mem = b.mem := by rfl
@[simp] theorem Block.setReg_fill (b : Block) (a : Nat) (v : Word) : (b.setReg a v).fill = b.fill := by rfl
@[simp] theorem Block.setReg_bad (b : Block) (a : Nat) (v : Word) : (b.setReg a v).bad = b.bad := by rfl
@[simp] theorem Block.setReg_hostMem (b : Block) (a : Nat) (v : Word) : (b.setReg a v).hostMem = b.hostMem := by rfl
@[simp] theorem Block.setReg_slots (b : Block) (a : Nat) (v : Word) : (b.setReg a v).slots = b.slots := by rfl
@[simp] theorem Block.setReg_pairs (b : Block) (a : Nat) (v : Word) : (b.setReg a v).pairs = b.pairs := by rfl
@[simp] theorem Block.setReg_sys (b : Block) (a : Nat) (v : Word) : (b.setReg a v).sys = b.sys := by rfl
@[simp] theorem Block.setReg_image (b : Block) (a : Nat) (v : Word) : (b.setReg a v).image = b.image := by rfl
@[simp] theorem Block.setReg_flash (b : Block) (a : Nat) (v : Word) : (b.setReg a v).flash = b.flash := by rfl
@[simp] theorem Block.setReg_zilsy (b : Block) (a : Nat) (v : Word) : (b.setReg a v).zilsy = b.zilsy := by rfl
@[simp] theorem Block.setReg_power (b : Block) (a : Nat) (v : Word) : (b.setReg a v).power = b.power := by rfl
@[simp] theorem Block.setReg_domain (b : Block) (a : Nat) (v : Word) : (b.setReg a v).domain = b.domain := by rfl
@[simp] theorem Block.setReg_out (b : Block) (a : Nat) (v : Word) : (b.setReg a v).out = b.out := by rfl
@[simp] theorem Block.setReg_freeCounter (b : Block) (a : Nat) (v : Word) : (b.setReg a v).freeCounter = b.freeCounter := by rfl
@[simp] theorem Block.setReg_half (b : Block) (a : Nat) (v : Word) (g : HalfId) : (b.setReg a v).half g = b.half g := Block.half_eq (b.setReg_halfA a v) (b.setReg_halfB a v) g
@[simp] theorem Block.setReg_byte (b : Block) (a : Nat) (v : Word) (c : Nat) : (b.setReg a v).byte c = b.byte c := Block.byte_eq (b.setReg_mem a v) (b.setReg_fill a v) c

@[simp] theorem Block.modReg_halfA (b : Block) (a : Nat) (f : Word → Word) : (b.modReg a f).halfA = b.halfA := by rfl
@[simp] theorem Block.modReg_halfB (b : Block) (a : Nat) (f : Word → Word) : (b.modReg a f).halfB = b.halfB := by rfl
@[simp] theorem Block.modReg_mem (b : Block) (a : Nat) (f : Word → Word) : (b.modReg a f).mem = b.mem := by rfl
@[simp] theorem Block.modReg_fill (b : Block) (a : Nat) (f : Word → Word) : (b.modReg a f).fill = b.fill := by rfl
@[simp] theorem Block.modReg_bad (b : Block) (a : Nat) (f : Word → Word) : (b.modReg a f).bad = b.bad := by rfl
@[simp] theorem Block.modReg_hostMem (b : Block) (a : Nat) (f : Word → Word) : (b.modReg a f).hostMem = b.hostMem := by rfl
@[simp] theorem Block.modReg_slots (b : Block) (a : Nat) (f : Word → Word) : (b.modReg a f).slots = b.slots := by rfl
@[simp] theorem Block.modReg_pairs (b : Block) (a : Nat) (f : Word → Word) : (b.modReg a f).pairs = b.pairs := by rfl
@[simp] theorem Block.modReg_sys (b : Block) (a : Nat) (f : Word → Word) : (b.modReg a f).sys = b.sys := by rfl
@[simp] theorem Block.modReg_image (b : Block) (a : Nat) (f : Word → Word) : (b.modReg a f).image = b.image := by rfl
@[simp] theorem Block.modReg_flash (b : Block) (a : Nat) (f : Word → Word) : (b.modReg a f).flash = b.flash := by rfl
@[simp] theorem Block.modReg_zilsy (b : Block) (a : Nat) (f : Word → Word) : (b.modReg a f).zilsy = b.zilsy := by rfl
@[simp] theorem Block.modReg_power (b : Block) (a : Nat) (f : Word → Word) : (b.modReg a f).power = b.power := by rfl
@[simp] theorem Block.modReg_domain (b : Block) (a : Nat) (f : Word → Word) : (b.modReg a f).domain = b.domain := by rfl
@[simp] theorem Block.modReg_out (b : Block) (a : Nat) (f : Word → Word) : (b.modReg a f).out = b.out := by rfl
@[simp] theorem Block.modReg_freeCounter (b : Block) (a : Nat) (f : Word → Word) : (b.modReg a f).freeCounter = b.freeCounter := by rfl
@[simp] theorem Block.modReg_half (b : Block) (a : Nat) (f : Word → Word) (g : HalfId) : (b.modReg a f).half g = b.half g := Block.half_eq (b.modReg_halfA a f) (b.modReg_halfB a f) g
@[simp] theorem Block.modReg_byte (b : Block) (a : Nat) (f : Word → Word) (c : Nat) : (b.modReg a f).byte c = b.byte c := Block.byte_eq (b.modReg_mem a f) (b.modReg_fill a f) c

@[simp] theorem Block.setRegFld_halfA (b : Block) (a hi lo v : Nat) : (b.setRegFld a hi lo v).halfA = b.halfA := by rfl
@[simp] theorem Block.setRegFld_halfB (b : Block) (a hi lo v : Nat) : (b.setRegFld a hi lo v).halfB = b.halfB := by rfl
@[simp] theorem Block.setRegFld_mem (b : Block) (a hi lo v : Nat) : (b.setRegFld a hi lo v).mem = b.mem := by rfl
@[simp] theorem Block.setRegFld_fill (b : Block) (a hi lo v : Nat) : (b.setRegFld a hi lo v).fill = b.fill := by rfl
@[simp] theorem Block.setRegFld_bad (b : Block) (a hi lo v : Nat) : (b.setRegFld a hi lo v).bad = b.bad := by rfl
@[simp] theorem Block.setRegFld_hostMem (b : Block) (a hi lo v : Nat) : (b.setRegFld a hi lo v).hostMem = b.hostMem := by rfl
@[simp] theorem Block.setRegFld_slots (b : Block) (a hi lo v : Nat) : (b.setRegFld a hi lo v).slots = b.slots := by rfl
@[simp] theorem Block.setRegFld_pairs (b : Block) (a hi lo v : Nat) : (b.setRegFld a hi lo v).pairs = b.pairs := by rfl
@[simp] theorem Block.setRegFld_sys (b : Block) (a hi lo v : Nat) : (b.setRegFld a hi lo v).sys = b.sys := by rfl
@[simp] theorem Block.setRegFld_image (b : Block) (a hi lo v : Nat) : (b.setRegFld a hi lo v).image = b.image := by rfl
@[simp] theorem Block.setRegFld_flash (b : Block) (a hi lo v : Nat) : (b.setRegFld a hi lo v).flash = b.flash := by rfl
@[simp] theorem Block.setRegFld_zilsy (b : Block) (a hi lo v : Nat) : (b.setRegFld a hi lo v).zilsy = b.zilsy := by rfl
@[simp] theorem Block.setRegFld_power (b : Block) (a hi lo v : Nat) : (b.setRegFld a hi lo v).power = b.power := by rfl
@[simp] theorem Block.setRegFld_domain (b : Block) (a hi lo v : Nat) : (b.setRegFld a hi lo v).domain = b.domain := by rfl
@[simp] theorem Block.setRegFld_out (b : Block) (a hi lo v : Nat) : (b.setRegFld a hi lo v).out = b.out := by rfl
@[simp] theorem Block.setRegFld_freeCounter (b : Block) (a hi lo v : Nat) : (b.setRegFld a hi lo v).freeCounter = b.freeCounter := by rfl
@[simp] theorem Block.setRegFld_half (b : Block) (a hi lo v : Nat) (g : HalfId) : (b.setRegFld a hi lo v).half g = b.half g := Block.half_eq (b.setRegFld_halfA a hi lo v) (b.setRegFld_halfB a hi lo v) g
@[simp] theorem Block.setRegFld_byte (b : Block) (a hi lo v : Nat) (c : Nat) : (b.setRegFld a hi lo v).byte c = b.byte c := Block.byte_eq (b.setRegFld_mem a hi lo v) (b.setRegFld_fill a hi lo v) c

@[simp] theorem Block.count_halfA (b : Block) (a hi lo n : Nat) : (b.count a hi lo n).halfA = b.halfA := by rfl
@[simp] theorem Block.count_halfB (b : Block) (a hi lo n : Nat) : (b.count a hi lo n).halfB = b.halfB := by rfl
@[simp] theorem Block.count_mem (b : Block) (a hi lo n : Nat) : (b.count a hi lo n).mem = b.mem := by rfl
@[simp] theorem Block.count_fill (b : Block) (a hi lo n : Nat) : (b.count a hi lo n).fill = b.fill := by rfl
@[simp] theorem Block.count_bad (b : Block) (a hi lo n : Nat) : (b.count a hi lo n).bad = b.bad := by rfl
@[simp] theorem Block.count_hostMem (b : Block) (a hi lo n : Nat) : (b.count a hi lo n).hostMem = b.hostMem := by rfl
@[simp] theorem Block.count_slots (b : Block) (a hi lo n : Nat) : (b.count a hi lo n).slots = b.slots := by rfl
@[simp] theorem Block.count_pairs (b : Block) (a hi lo n : Nat) : (b.count a hi lo n).pairs = b.pairs := by rfl
@[simp] theorem Block.count_sys (b : Block) (a hi lo n : Nat) : (b.count a hi lo n).sys = b.sys := by rfl
@[simp] theorem Block.count_image (b : Block) (a hi lo n : Nat) : (b.count a hi lo n).image = b.image := by rfl
@[simp] theorem Block.count_flash (b : Block) (a hi lo n : Nat) : (b.count a hi lo n).flash = b.flash := by rfl
@[simp] theorem Block.count_zilsy (b : Block) (a hi lo n : Nat) : (b.count a hi lo n).zilsy = b.zilsy := by rfl
@[simp] theorem Block.count_power (b : Block) (a hi lo n : Nat) : (b.count a hi lo n).power = b.power := by rfl
@[simp] theorem Block.count_domain (b : Block) (a hi lo n : Nat) : (b.count a hi lo n).domain = b.domain := by rfl
@[simp] theorem Block.count_out (b : Block) (a hi lo n : Nat) : (b.count a hi lo n).out = b.out := by rfl
@[simp] theorem Block.count_freeCounter (b : Block) (a hi lo n : Nat) : (b.count a hi lo n).freeCounter = b.freeCounter := by rfl
@[simp] theorem Block.count_half (b : Block) (a hi lo n : Nat) (g : HalfId) : (b.count a hi lo n).half g = b.half g := Block.half_eq (b.count_halfA a hi lo n) (b.count_halfB a hi lo n) g
@[simp] theorem Block.count_byte (b : Block) (a hi lo n : Nat) (c : Nat) : (b.count a hi lo n).byte c = b.byte c := Block.byte_eq (b.count_mem a hi lo n) (b.count_fill a hi lo n) c

@[simp] theorem Block.setHalf_regs (b : Block) (h : HalfId) (x : Half) : (b.setHalf h x).regs = b.regs := by cases h <;> rfl
@[simp] theorem Block.setHalf_mem (b : Block) (h : HalfId) (x : Half) : (b.setHalf h x).mem = b.mem := by cases h <;> rfl
@[simp] theorem Block.setHalf_fill (b : Block) (h : HalfId) (x : Half) : (b.setHalf h x).fill = b.fill := by cases h <;> rfl
@[simp] theorem Block.setHalf_bad (b : Block) (h : HalfId) (x : Half) : (b.setHalf h x).bad = b.bad := by cases h <;> rfl
@[simp] theorem Block.setHalf_hostMem (b : Block) (h : HalfId) (x : Half) : (b.setHalf h x).hostMem = b.hostMem := by cases h <;> rfl
@[simp] theorem Block.setHalf_slots (b : Block) (h : HalfId) (x : Half) : (b.setHalf h x).slots = b.slots := by cases h <;> rfl
@[simp] theorem Block.setHalf_pairs (b : Block) (h : HalfId) (x : Half) : (b.setHalf h x).pairs = b.pairs := by cases h <;> rfl
@[simp] theorem Block.setHalf_sys (b : Block) (h : HalfId) (x : Half) : (b.setHalf h x).sys = b.sys := by cases h <;> rfl
@[simp] theorem Block.setHalf_image (b : Block) (h : HalfId) (x : Half) : (b.setHalf h x).image = b.image := by cases h <;> rfl
@[simp] theorem Block.setHalf_flash (b : Block) (h : HalfId) (x : Half) : (b.setHalf h x).flash = b.flash := by cases h <;> rfl
@[simp] theorem Block.setHalf_zilsy (b : Block) (h : HalfId) (x : Half) : (b.setHalf h x).zilsy = b.zilsy := by cases h <;> rfl
@[simp] theorem Block.setHalf_power (b : Block) (h : HalfId) (x : Half) : (b.setHalf h x).power = b.power := by cases h <;> rfl
@[simp] theorem Block.setHalf_domain (b : Block) (h : HalfId) (x : Half) : (b.setHalf h x).domain = b.domain := by cases h <;> rfl
@[simp] theorem Block.setHalf_out (b : Block) (h : HalfId) (x : Half) : (b.setHalf h x).out = b.out := by cases h <;> rfl
@[simp] theorem Block.setHalf_freeCounter (b : Block) (h : HalfId) (x : Half) : (b.setHalf h x).freeCounter = b.freeCounter := by cases h <;> rfl
@[simp] theorem Block.setHalf_reg (b : Block) (h : HalfId) (x : Half) (c : Nat) : (b.setHalf h x).reg c = b.reg c := Block.reg_eq (b.setHalf_regs h x) c
@[simp] theorem Block.setHalf_byte (b : Block) (h : HalfId) (x : Half) (c : Nat) : (b.setHalf h x).byte c = b.byte c := Block.byte_eq (b.setHalf_mem h x) (b.setHalf_fill h x) c

@[simp] theorem Block.modHalf_regs (b : Block) (h : HalfId) (f : Half → Half) : (b.modHalf h f).regs = b.regs := by cases h <;> rfl
@[simp] theorem Block.modHalf_mem (b : Block) (h : HalfId) (f : Half → Half) : (b.modHalf h f).mem = b.mem := by cases h <;> rfl
@[simp] theorem Block.modHalf_fill (b : Block) (h : HalfId) (f : Half → Half) : (b.modHalf h f).fill = b.fill := by cases h <;> rfl
@[simp] theorem Block.modHalf_bad (b : Block) (h : HalfId) (f : Half → Half) : (b.modHalf h f).bad = b.bad := by cases h <;> rfl
@[simp] theorem Block.modHalf_hostMem (b : Block) (h : HalfId) (f : Half → Half) : (b.modHalf h f).hostMem = b.hostMem := by cases h <;> rfl
@[simp] theorem Block.modHalf_slots (b : Block) (h : HalfId) (f : Half → Half) : (b.modHalf h f).slots = b.slots := by cases h <;> rfl
@[simp] theorem Block.modHalf_pairs (b : Block) (h : HalfId) (f : Half → Half) : (b.modHalf h f).pairs = b.pairs := by cases h <;> rfl
@[simp] theorem Block.modHalf_sys (b : Block) (h : HalfId) (f : Half → Half) : (b.modHalf h f).sys = b.sys := by cases h <;> rfl
@[simp] theorem Block.modHalf_image (b : Block) (h : HalfId) (f : Half → Half) : (b.modHalf h f).image = b.image := by cases h <;> rfl
@[simp] theorem Block.modHalf_flash (b : Block) (h : HalfId) (f : Half → Half) : (b.modHalf h f).flash = b.flash := by cases h <;> rfl
@[simp] theorem Block.modHalf_zilsy (b : Block) (h : HalfId) (f : Half → Half) : (b.modHalf h f).zilsy = b.zilsy := by cases h <;> rfl
@[simp] theorem Block.modHalf_power (b : Block) (h : HalfId) (f : Half → Half) : (b.modHalf h f).power = b.power := by cases h <;> rfl
@[simp] theorem Block.modHalf_domain (b : Block) (h : HalfId) (f : Half → Half) : (b.modHalf h f).domain = b.domain := by cases h <;> rfl
@[simp] theorem Block.modHalf_out (b : Block) (h : HalfId) (f : Half → Half) : (b.modHalf h f).out = b.out := by cases h <;> rfl
@[simp] theorem Block.modHalf_freeCounter (b : Block) (h : HalfId) (f : Half → Half) : (b.modHalf h f).freeCounter = b.freeCounter := by cases h <;> rfl
@[simp] theorem Block.modHalf_reg (b : Block) (h : HalfId) (f : Half → Half) (c : Nat) : (b.modHalf h f).reg c = b.reg c := Block.reg_eq (b.modHalf_regs h f) c
@[simp] theorem Block.modHalf_byte (b : Block) (h : HalfId) (f : Half → Half) (c : Nat) : (b.modHalf h f).byte c = b.byte c := Block.byte_eq (b.modHalf_mem h f) (b.modHalf_fill h f) c

@[simp] theorem Block.setSys_halfA (b : Block) (x : Sys) : (b.setSys x).halfA = b.halfA := by rfl
@[simp] theorem Block.setSys_halfB (b : Block) (x : Sys) : (b.setSys x).halfB = b.halfB := by rfl
@[simp] theorem Block.setSys_regs (b : Block) (x : Sys) : (b.setSys x).regs = b.regs := by rfl
@[simp] theorem Block.setSys_mem (b : Block) (x : Sys) : (b.setSys x).mem = b.mem := by rfl
@[simp] theorem Block.setSys_fill (b : Block) (x : Sys) : (b.setSys x).fill = b.fill := by rfl
@[simp] theorem Block.setSys_bad (b : Block) (x : Sys) : (b.setSys x).bad = b.bad := by rfl
@[simp] theorem Block.setSys_hostMem (b : Block) (x : Sys) : (b.setSys x).hostMem = b.hostMem := by rfl
@[simp] theorem Block.setSys_slots (b : Block) (x : Sys) : (b.setSys x).slots = b.slots := by rfl
@[simp] theorem Block.setSys_pairs (b : Block) (x : Sys) : (b.setSys x).pairs = b.pairs := by rfl
@[simp] theorem Block.setSys_image (b : Block) (x : Sys) : (b.setSys x).image = b.image := by rfl
@[simp] theorem Block.setSys_flash (b : Block) (x : Sys) : (b.setSys x).flash = b.flash := by rfl
@[simp] theorem Block.setSys_zilsy (b : Block) (x : Sys) : (b.setSys x).zilsy = b.zilsy := by rfl
@[simp] theorem Block.setSys_power (b : Block) (x : Sys) : (b.setSys x).power = b.power := by rfl
@[simp] theorem Block.setSys_domain (b : Block) (x : Sys) : (b.setSys x).domain = b.domain := by rfl
@[simp] theorem Block.setSys_out (b : Block) (x : Sys) : (b.setSys x).out = b.out := by rfl
@[simp] theorem Block.setSys_freeCounter (b : Block) (x : Sys) : (b.setSys x).freeCounter = b.freeCounter := by rfl
@[simp] theorem Block.setSys_half (b : Block) (x : Sys) (g : HalfId) : (b.setSys x).half g = b.half g := Block.half_eq (b.setSys_halfA x) (b.setSys_halfB x) g
@[simp] theorem Block.setSys_reg (b : Block) (x : Sys) (c : Nat) : (b.setSys x).reg c = b.reg c := Block.reg_eq (b.setSys_regs x) c
@[simp] theorem Block.setSys_byte (b : Block) (x : Sys) (c : Nat) : (b.setSys x).byte c = b.byte c := Block.byte_eq (b.setSys_mem x) (b.setSys_fill x) c

@[simp] theorem Block.setImage_halfA (b : Block) (x : Image) : (b.setImage x).halfA = b.halfA := by rfl
@[simp] theorem Block.setImage_halfB (b : Block) (x : Image) : (b.setImage x).halfB = b.halfB := by rfl
@[simp] theorem Block.setImage_regs (b : Block) (x : Image) : (b.setImage x).regs = b.regs := by rfl
@[simp] theorem Block.setImage_mem (b : Block) (x : Image) : (b.setImage x).mem = b.mem := by rfl
@[simp] theorem Block.setImage_fill (b : Block) (x : Image) : (b.setImage x).fill = b.fill := by rfl
@[simp] theorem Block.setImage_bad (b : Block) (x : Image) : (b.setImage x).bad = b.bad := by rfl
@[simp] theorem Block.setImage_hostMem (b : Block) (x : Image) : (b.setImage x).hostMem = b.hostMem := by rfl
@[simp] theorem Block.setImage_slots (b : Block) (x : Image) : (b.setImage x).slots = b.slots := by rfl
@[simp] theorem Block.setImage_pairs (b : Block) (x : Image) : (b.setImage x).pairs = b.pairs := by rfl
@[simp] theorem Block.setImage_sys (b : Block) (x : Image) : (b.setImage x).sys = b.sys := by rfl
@[simp] theorem Block.setImage_flash (b : Block) (x : Image) : (b.setImage x).flash = b.flash := by rfl
@[simp] theorem Block.setImage_zilsy (b : Block) (x : Image) : (b.setImage x).zilsy = b.zilsy := by rfl
@[simp] theorem Block.setImage_power (b : Block) (x : Image) : (b.setImage x).power = b.power := by rfl
@[simp] theorem Block.setImage_domain (b : Block) (x : Image) : (b.setImage x).domain = b.domain := by rfl
@[simp] theorem Block.setImage_out (b : Block) (x : Image) : (b.setImage x).out = b.out := by rfl
@[simp] theorem Block.setImage_freeCounter (b : Block) (x : Image) : (b.setImage x).freeCounter = b.freeCounter := by rfl
@[simp] theorem Block.setImage_half (b : Block) (x : Image) (g : HalfId) : (b.setImage x).half g = b.half g := Block.half_eq (b.setImage_halfA x) (b.setImage_halfB x) g
@[simp] theorem Block.setImage_reg (b : Block) (x : Image) (c : Nat) : (b.setImage x).reg c = b.reg c := Block.reg_eq (b.setImage_regs x) c
@[simp] theorem Block.setImage_byte (b : Block) (x : Image) (c : Nat) : (b.setImage x).byte c = b.byte c := Block.byte_eq (b.setImage_mem x) (b.setImage_fill x) c

@[simp] theorem Block.setFlash_halfA (b : Block) (x : Flash) : (b.setFlash x).halfA = b.halfA := by rfl
@[simp] theorem Block.setFlash_halfB (b : Block) (x : Flash) : (b.setFlash x).halfB = b.halfB := by rfl
@[simp] theorem Block.setFlash_regs (b : Block) (x : Flash) : (b.setFlash x).regs = b.regs := by rfl
@[simp] theorem Block.setFlash_mem (b : Block) (x : Flash) : (b.setFlash x).mem = b.mem := by rfl
@[simp] theorem Block.setFlash_fill (b : Block) (x : Flash) : (b.setFlash x).fill = b.fill := by rfl
@[simp] theorem Block.setFlash_bad (b : Block) (x : Flash) : (b.setFlash x).bad = b.bad := by rfl
@[simp] theorem Block.setFlash_hostMem (b : Block) (x : Flash) : (b.setFlash x).hostMem = b.hostMem := by rfl
@[simp] theorem Block.setFlash_slots (b : Block) (x : Flash) : (b.setFlash x).slots = b.slots := by rfl
@[simp] theorem Block.setFlash_pairs (b : Block) (x : Flash) : (b.setFlash x).pairs = b.pairs := by rfl
@[simp] theorem Block.setFlash_sys (b : Block) (x : Flash) : (b.setFlash x).sys = b.sys := by rfl
@[simp] theorem Block.setFlash_image (b : Block) (x : Flash) : (b.setFlash x).image = b.image := by rfl
@[simp] theorem Block.setFlash_zilsy (b : Block) (x : Flash) : (b.setFlash x).zilsy = b.zilsy := by rfl
@[simp] theorem Block.setFlash_power (b : Block) (x : Flash) : (b.setFlash x).power = b.power := by rfl
@[simp] theorem Block.setFlash_domain (b : Block) (x : Flash) : (b.setFlash x).domain = b.domain := by rfl
@[simp] theorem Block.setFlash_out (b : Block) (x : Flash) : (b.setFlash x).out = b.out := by rfl
@[simp] theorem Block.setFlash_freeCounter (b : Block) (x : Flash) : (b.setFlash x).freeCounter = b.freeCounter := by rfl
@[simp] theorem Block.setFlash_half (b : Block) (x : Flash) (g : HalfId) : (b.setFlash x).half g = b.half g := Block.half_eq (b.setFlash_halfA x) (b.setFlash_halfB x) g
@[simp] theorem Block.setFlash_reg (b : Block) (x : Flash) (c : Nat) : (b.setFlash x).reg c = b.reg c := Block.reg_eq (b.setFlash_regs x) c
@[simp] theorem Block.setFlash_byte (b : Block) (x : Flash) (c : Nat) : (b.setFlash x).byte c = b.byte c := Block.byte_eq (b.setFlash_mem x) (b.setFlash_fill x) c

@[simp] theorem Block.setZilsy_halfA (b : Block) (x : Zilsy) : (b.setZilsy x).halfA = b.halfA := by rfl
@[simp] theorem Block.setZilsy_halfB (b : Block) (x : Zilsy) : (b.setZilsy x).halfB = b.halfB := by rfl
@[simp] theorem Block.setZilsy_regs (b : Block) (x : Zilsy) : (b.setZilsy x).regs = b.regs := by rfl
@[simp] theorem Block.setZilsy_mem (b : Block) (x : Zilsy) : (b.setZilsy x).mem = b.mem := by rfl
@[simp] theorem Block.setZilsy_fill (b : Block) (x : Zilsy) : (b.setZilsy x).fill = b.fill := by rfl
@[simp] theorem Block.setZilsy_bad (b : Block) (x : Zilsy) : (b.setZilsy x).bad = b.bad := by rfl
@[simp] theorem Block.setZilsy_hostMem (b : Block) (x : Zilsy) : (b.setZilsy x).hostMem = b.hostMem := by rfl
@[simp] theorem Block.setZilsy_slots (b : Block) (x : Zilsy) : (b.setZilsy x).slots = b.slots := by rfl
@[simp] theorem Block.setZilsy_pairs (b : Block) (x : Zilsy) : (b.setZilsy x).pairs = b.pairs := by rfl
@[simp] theorem Block.setZilsy_sys (b : Block) (x : Zilsy) : (b.setZilsy x).sys = b.sys := by rfl
@[simp] theorem Block.setZilsy_image (b : Block) (x : Zilsy) : (b.setZilsy x).image = b.image := by rfl
@[simp] theorem Block.setZilsy_flash (b : Block) (x : Zilsy) : (b.setZilsy x).flash = b.flash := by rfl
@[simp] theorem Block.setZilsy_power (b : Block) (x : Zilsy) : (b.setZilsy x).power = b.power := by rfl
@[simp] theorem Block.setZilsy_domain (b : Block) (x : Zilsy) : (b.setZilsy x).domain = b.domain := by rfl
@[simp] theorem Block.setZilsy_out (b : Block) (x : Zilsy) : (b.setZilsy x).out = b.out := by rfl
@[simp] theorem Block.setZilsy_freeCounter (b : Block) (x : Zilsy) : (b.setZilsy x).freeCounter = b.freeCounter := by rfl
@[simp] theorem Block.setZilsy_half (b : Block) (x : Zilsy) (g : HalfId) : (b.setZilsy x).half g = b.half g := Block.half_eq (b.setZilsy_halfA x) (b.setZilsy_halfB x) g
@[simp] theorem Block.setZilsy_reg (b : Block) (x : Zilsy) (c : Nat) : (b.setZilsy x).reg c = b.reg c := Block.reg_eq (b.setZilsy_regs x) c
@[simp] theorem Block.setZilsy_byte (b : Block) (x : Zilsy) (c : Nat) : (b.setZilsy x).byte c = b.byte c := Block.byte_eq (b.setZilsy_mem x) (b.setZilsy_fill x) c

@[simp] theorem Block.setPower_halfA (b : Block) (x : Power) : (b.setPower x).halfA = b.halfA := by rfl
@[simp] theorem Block.setPower_halfB (b : Block) (x : Power) : (b.setPower x).halfB = b.halfB := by rfl
@[simp] theorem Block.setPower_regs (b : Block) (x : Power) : (b.setPower x).regs = b.regs := by rfl
@[simp] theorem Block.setPower_mem (b : Block) (x : Power) : (b.setPower x).mem = b.mem := by rfl
@[simp] theorem Block.setPower_fill (b : Block) (x : Power) : (b.setPower x).fill = b.fill := by rfl
@[simp] theorem Block.setPower_bad (b : Block) (x : Power) : (b.setPower x).bad = b.bad := by rfl
@[simp] theorem Block.setPower_hostMem (b : Block) (x : Power) : (b.setPower x).hostMem = b.hostMem := by rfl
@[simp] theorem Block.setPower_slots (b : Block) (x : Power) : (b.setPower x).slots = b.slots := by rfl
@[simp] theorem Block.setPower_pairs (b : Block) (x : Power) : (b.setPower x).pairs = b.pairs := by rfl
@[simp] theorem Block.setPower_sys (b : Block) (x : Power) : (b.setPower x).sys = b.sys := by rfl
@[simp] theorem Block.setPower_image (b : Block) (x : Power) : (b.setPower x).image = b.image := by rfl
@[simp] theorem Block.setPower_flash (b : Block) (x : Power) : (b.setPower x).flash = b.flash := by rfl
@[simp] theorem Block.setPower_zilsy (b : Block) (x : Power) : (b.setPower x).zilsy = b.zilsy := by rfl
@[simp] theorem Block.setPower_domain (b : Block) (x : Power) : (b.setPower x).domain = b.domain := by rfl
@[simp] theorem Block.setPower_out (b : Block) (x : Power) : (b.setPower x).out = b.out := by rfl
@[simp] theorem Block.setPower_freeCounter (b : Block) (x : Power) : (b.setPower x).freeCounter = b.freeCounter := by rfl
@[simp] theorem Block.setPower_half (b : Block) (x : Power) (g : HalfId) : (b.setPower x).half g = b.half g := Block.half_eq (b.setPower_halfA x) (b.setPower_halfB x) g
@[simp] theorem Block.setPower_reg (b : Block) (x : Power) (c : Nat) : (b.setPower x).reg c = b.reg c := Block.reg_eq (b.setPower_regs x) c
@[simp] theorem Block.setPower_byte (b : Block) (x : Power) (c : Nat) : (b.setPower x).byte c = b.byte c := Block.byte_eq (b.setPower_mem x) (b.setPower_fill x) c

@[simp] theorem Block.setDomain_halfA (b : Block) (x : Domain) : (b.setDomain x).halfA = b.halfA := by rfl
@[simp] theorem Block.setDomain_halfB (b : Block) (x : Domain) : (b.setDomain x).halfB = b.halfB := by rfl
@[simp] theorem Block.setDomain_regs (b : Block) (x : Domain) : (b.setDomain x).regs = b.regs := by rfl
@[simp] theorem Block.setDomain_mem (b : Block) (x : Domain) : (b.setDomain x).mem = b.mem := by rfl
@[simp] theorem Block.setDomain_fill (b : Block) (x : Domain) : (b.setDomain x).fill = b.fill := by rfl
@[simp] theorem Block.setDomain_bad (b : Block) (x : Domain) : (b.setDomain x).bad = b.bad := by rfl
@[simp] theorem Block.setDomain_hostMem (b : Block) (x : Domain) : (b.setDomain x).hostMem = b.hostMem := by rfl
@[simp] theorem Block.setDomain_slots (b : Block) (x : Domain) : (b.setDomain x).slots = b.slots := by rfl
@[simp] theorem Block.setDomain_pairs (b : Block) (x : Domain) : (b.setDomain x).pairs = b.pairs := by rfl
@[simp] theorem Block.setDomain_sys (b : Block) (x : Domain) : (b.setDomain x).sys = b.sys := by rfl
@[simp] theorem Block.setDomain_image (b : Block) (x : Domain) : (b.setDomain x).image = b.image := by rfl
@[simp] theorem Block.setDomain_flash (b : Block) (x : Domain) : (b.setDomain x).flash = b.flash := by rfl
@[simp] theorem Block.setDomain_zilsy (b : Block) (x : Domain) : (b.setDomain x).zilsy = b.zilsy := by rfl
@[simp] theorem Block.setDomain_power (b : Block) (x : Domain) : (b.setDomain x).power = b.power := by rfl
@[simp] theorem Block.setDomain_out (b : Block) (x : Domain) : (b.setDomain x).out = b.out := by rfl
@[simp] theorem Block.setDomain_freeCounter (b : Block) (x : Domain) : (b.setDomain x).freeCounter = b.freeCounter := by rfl
@[simp] theorem Block.setDomain_half (b : Block) (x : Domain) (g : HalfId) : (b.setDomain x).half g = b.half g := Block.half_eq (b.setDomain_halfA x) (b.setDomain_halfB x) g
@[simp] theorem Block.setDomain_reg (b : Block) (x : Domain) (c : Nat) : (b.setDomain x).reg c = b.reg c := Block.reg_eq (b.setDomain_regs x) c
@[simp] theorem Block.setDomain_byte (b : Block) (x : Domain) (c : Nat) : (b.setDomain x).byte c = b.byte c := Block.byte_eq (b.setDomain_mem x) (b.setDomain_fill x) c

@[simp] theorem Block.emit_halfA (b : Block) (o : Out) : (b.emit o).halfA = b.halfA := by rfl
@[simp] theorem Block.emit_halfB (b : Block) (o : Out) : (b.emit o).halfB = b.halfB := by rfl
@[simp] theorem Block.emit_regs (b : Block) (o : Out) : (b.emit o).regs = b.regs := by rfl
@[simp] theorem Block.emit_mem (b : Block) (o : Out) : (b.emit o).mem = b.mem := by rfl
@[simp] theorem Block.emit_fill (b : Block) (o : Out) : (b.emit o).fill = b.fill := by rfl
@[simp] theorem Block.emit_bad (b : Block) (o : Out) : (b.emit o).bad = b.bad := by rfl
@[simp] theorem Block.emit_hostMem (b : Block) (o : Out) : (b.emit o).hostMem = b.hostMem := by rfl
@[simp] theorem Block.emit_slots (b : Block) (o : Out) : (b.emit o).slots = b.slots := by rfl
@[simp] theorem Block.emit_pairs (b : Block) (o : Out) : (b.emit o).pairs = b.pairs := by rfl
@[simp] theorem Block.emit_sys (b : Block) (o : Out) : (b.emit o).sys = b.sys := by rfl
@[simp] theorem Block.emit_image (b : Block) (o : Out) : (b.emit o).image = b.image := by rfl
@[simp] theorem Block.emit_flash (b : Block) (o : Out) : (b.emit o).flash = b.flash := by rfl
@[simp] theorem Block.emit_zilsy (b : Block) (o : Out) : (b.emit o).zilsy = b.zilsy := by rfl
@[simp] theorem Block.emit_power (b : Block) (o : Out) : (b.emit o).power = b.power := by rfl
@[simp] theorem Block.emit_domain (b : Block) (o : Out) : (b.emit o).domain = b.domain := by rfl
@[simp] theorem Block.emit_freeCounter (b : Block) (o : Out) : (b.emit o).freeCounter = b.freeCounter := by rfl
@[simp] theorem Block.emit_half (b : Block) (o : Out) (g : HalfId) : (b.emit o).half g = b.half g := Block.half_eq (b.emit_halfA o) (b.emit_halfB o) g
@[simp] theorem Block.emit_reg (b : Block) (o : Out) (c : Nat) : (b.emit o).reg c = b.reg c := Block.reg_eq (b.emit_regs o) c
@[simp] theorem Block.emit_byte (b : Block) (o : Out) (c : Nat) : (b.emit o).byte c = b.byte c := Block.byte_eq (b.emit_mem o) (b.emit_fill o) c

@[simp] theorem Block.modSlot_halfA (b : Block) (k : Nat) (f : JobSlot → JobSlot) : (b.modSlot k f).halfA = b.halfA := by rfl
@[simp] theorem Block.modSlot_halfB (b : Block) (k : Nat) (f : JobSlot → JobSlot) : (b.modSlot k f).halfB = b.halfB := by rfl
@[simp] theorem Block.modSlot_regs (b : Block) (k : Nat) (f : JobSlot → JobSlot) : (b.modSlot k f).regs = b.regs := by rfl
@[simp] theorem Block.modSlot_mem (b : Block) (k : Nat) (f : JobSlot → JobSlot) : (b.modSlot k f).mem = b.mem := by rfl
@[simp] theorem Block.modSlot_fill (b : Block) (k : Nat) (f : JobSlot → JobSlot) : (b.modSlot k f).fill = b.fill := by rfl
@[simp] theorem Block.modSlot_bad (b : Block) (k : Nat) (f : JobSlot → JobSlot) : (b.modSlot k f).bad = b.bad := by rfl
@[simp] theorem Block.modSlot_hostMem (b : Block) (k : Nat) (f : JobSlot → JobSlot) : (b.modSlot k f).hostMem = b.hostMem := by rfl
@[simp] theorem Block.modSlot_pairs (b : Block) (k : Nat) (f : JobSlot → JobSlot) : (b.modSlot k f).pairs = b.pairs := by rfl
@[simp] theorem Block.modSlot_sys (b : Block) (k : Nat) (f : JobSlot → JobSlot) : (b.modSlot k f).sys = b.sys := by rfl
@[simp] theorem Block.modSlot_image (b : Block) (k : Nat) (f : JobSlot → JobSlot) : (b.modSlot k f).image = b.image := by rfl
@[simp] theorem Block.modSlot_flash (b : Block) (k : Nat) (f : JobSlot → JobSlot) : (b.modSlot k f).flash = b.flash := by rfl
@[simp] theorem Block.modSlot_zilsy (b : Block) (k : Nat) (f : JobSlot → JobSlot) : (b.modSlot k f).zilsy = b.zilsy := by rfl
@[simp] theorem Block.modSlot_power (b : Block) (k : Nat) (f : JobSlot → JobSlot) : (b.modSlot k f).power = b.power := by rfl
@[simp] theorem Block.modSlot_domain (b : Block) (k : Nat) (f : JobSlot → JobSlot) : (b.modSlot k f).domain = b.domain := by rfl
@[simp] theorem Block.modSlot_out (b : Block) (k : Nat) (f : JobSlot → JobSlot) : (b.modSlot k f).out = b.out := by rfl
@[simp] theorem Block.modSlot_freeCounter (b : Block) (k : Nat) (f : JobSlot → JobSlot) : (b.modSlot k f).freeCounter = b.freeCounter := by rfl
@[simp] theorem Block.modSlot_half (b : Block) (k : Nat) (f : JobSlot → JobSlot) (g : HalfId) : (b.modSlot k f).half g = b.half g := Block.half_eq (b.modSlot_halfA k f) (b.modSlot_halfB k f) g
@[simp] theorem Block.modSlot_reg (b : Block) (k : Nat) (f : JobSlot → JobSlot) (c : Nat) : (b.modSlot k f).reg c = b.reg c := Block.reg_eq (b.modSlot_regs k f) c
@[simp] theorem Block.modSlot_byte (b : Block) (k : Nat) (f : JobSlot → JobSlot) (c : Nat) : (b.modSlot k f).byte c = b.byte c := Block.byte_eq (b.modSlot_mem k f) (b.modSlot_fill k f) c

@[simp] theorem Block.modPair_halfA (b : Block) (q : Nat) (f : QueuePair → QueuePair) : (b.modPair q f).halfA = b.halfA := by rfl
@[simp] theorem Block.modPair_halfB (b : Block) (q : Nat) (f : QueuePair → QueuePair) : (b.modPair q f).halfB = b.halfB := by rfl
@[simp] theorem Block.modPair_regs (b : Block) (q : Nat) (f : QueuePair → QueuePair) : (b.modPair q f).regs = b.regs := by rfl
@[simp] theorem Block.modPair_mem (b : Block) (q : Nat) (f : QueuePair → QueuePair) : (b.modPair q f).mem = b.mem := by rfl
@[simp] theorem Block.modPair_fill (b : Block) (q : Nat) (f : QueuePair → QueuePair) : (b.modPair q f).fill = b.fill := by rfl
@[simp] theorem Block.modPair_bad (b : Block) (q : Nat) (f : QueuePair → QueuePair) : (b.modPair q f).bad = b.bad := by rfl
@[simp] theorem Block.modPair_hostMem (b : Block) (q : Nat) (f : QueuePair → QueuePair) : (b.modPair q f).hostMem = b.hostMem := by rfl
@[simp] theorem Block.modPair_slots (b : Block) (q : Nat) (f : QueuePair → QueuePair) : (b.modPair q f).slots = b.slots := by rfl
@[simp] theorem Block.modPair_sys (b : Block) (q : Nat) (f : QueuePair → QueuePair) : (b.modPair q f).sys = b.sys := by rfl
@[simp] theorem Block.modPair_image (b : Block) (q : Nat) (f : QueuePair → QueuePair) : (b.modPair q f).image = b.image := by rfl
@[simp] theorem Block.modPair_flash (b : Block) (q : Nat) (f : QueuePair → QueuePair) : (b.modPair q f).flash = b.flash := by rfl
@[simp] theorem Block.modPair_zilsy (b : Block) (q : Nat) (f : QueuePair → QueuePair) : (b.modPair q f).zilsy = b.zilsy := by rfl
@[simp] theorem Block.modPair_power (b : Block) (q : Nat) (f : QueuePair → QueuePair) : (b.modPair q f).power = b.power := by rfl
@[simp] theorem Block.modPair_domain (b : Block) (q : Nat) (f : QueuePair → QueuePair) : (b.modPair q f).domain = b.domain := by rfl
@[simp] theorem Block.modPair_out (b : Block) (q : Nat) (f : QueuePair → QueuePair) : (b.modPair q f).out = b.out := by rfl
@[simp] theorem Block.modPair_freeCounter (b : Block) (q : Nat) (f : QueuePair → QueuePair) : (b.modPair q f).freeCounter = b.freeCounter := by rfl
@[simp] theorem Block.modPair_half (b : Block) (q : Nat) (f : QueuePair → QueuePair) (g : HalfId) : (b.modPair q f).half g = b.half g := Block.half_eq (b.modPair_halfA q f) (b.modPair_halfB q f) g
@[simp] theorem Block.modPair_reg (b : Block) (q : Nat) (f : QueuePair → QueuePair) (c : Nat) : (b.modPair q f).reg c = b.reg c := Block.reg_eq (b.modPair_regs q f) c
@[simp] theorem Block.modPair_byte (b : Block) (q : Nat) (f : QueuePair → QueuePair) (c : Nat) : (b.modPair q f).byte c = b.byte c := Block.byte_eq (b.modPair_mem q f) (b.modPair_fill q f) c

@[simp] theorem Block.store_halfA (b : Block) (a : Nat) (l : List Byte) : (b.store a l).halfA = b.halfA := by rfl
@[simp] theorem Block.store_halfB (b : Block) (a : Nat) (l : List Byte) : (b.store a l).halfB = b.halfB := by rfl
@[simp] theorem Block.store_regs (b : Block) (a : Nat) (l : List Byte) : (b.store a l).regs = b.regs := by rfl
@[simp] theorem Block.store_fill (b : Block) (a : Nat) (l : List Byte) : (b.store a l).fill = b.fill := by rfl
@[simp] theorem Block.store_hostMem (b : Block) (a : Nat) (l : List Byte) : (b.store a l).hostMem = b.hostMem := by rfl
@[simp] theorem Block.store_slots (b : Block) (a : Nat) (l : List Byte) : (b.store a l).slots = b.slots := by rfl
@[simp] theorem Block.store_pairs (b : Block) (a : Nat) (l : List Byte) : (b.store a l).pairs = b.pairs := by rfl
@[simp] theorem Block.store_sys (b : Block) (a : Nat) (l : List Byte) : (b.store a l).sys = b.sys := by rfl
@[simp] theorem Block.store_image (b : Block) (a : Nat) (l : List Byte) : (b.store a l).image = b.image := by rfl
@[simp] theorem Block.store_flash (b : Block) (a : Nat) (l : List Byte) : (b.store a l).flash = b.flash := by rfl
@[simp] theorem Block.store_zilsy (b : Block) (a : Nat) (l : List Byte) : (b.store a l).zilsy = b.zilsy := by rfl
@[simp] theorem Block.store_power (b : Block) (a : Nat) (l : List Byte) : (b.store a l).power = b.power := by rfl
@[simp] theorem Block.store_domain (b : Block) (a : Nat) (l : List Byte) : (b.store a l).domain = b.domain := by rfl
@[simp] theorem Block.store_out (b : Block) (a : Nat) (l : List Byte) : (b.store a l).out = b.out := by rfl
@[simp] theorem Block.store_freeCounter (b : Block) (a : Nat) (l : List Byte) : (b.store a l).freeCounter = b.freeCounter := by rfl
@[simp] theorem Block.store_half (b : Block) (a : Nat) (l : List Byte) (g : HalfId) : (b.store a l).half g = b.half g := Block.half_eq (b.store_halfA a l) (b.store_halfB a l) g
@[simp] theorem Block.store_reg (b : Block) (a : Nat) (l : List Byte) (c : Nat) : (b.store a l).reg c = b.reg c := Block.reg_eq (b.store_regs a l) c

@[simp] theorem Block.hostStore_halfA (b : Block) (a : Nat) (l : List Byte) : (b.hostStore a l).halfA = b.halfA := by rfl
@[simp] theorem Block.hostStore_halfB (b : Block) (a : Nat) (l : List Byte) : (b.hostStore a l).halfB = b.halfB := by rfl
@[simp] theorem Block.hostStore_regs (b : Block) (a : Nat) (l : List Byte) : (b.hostStore a l).regs = b.regs := by rfl
@[simp] theorem Block.hostStore_mem (b : Block) (a : Nat) (l : List Byte) : (b.hostStore a l).mem = b.mem := by rfl
@[simp] theorem Block.hostStore_fill (b : Block) (a : Nat) (l : List Byte) : (b.hostStore a l).fill = b.fill := by rfl
@[simp] theorem Block.hostStore_bad (b : Block) (a : Nat) (l : List Byte) : (b.hostStore a l).bad = b.bad := by rfl
@[simp] theorem Block.hostStore_slots (b : Block) (a : Nat) (l : List Byte) : (b.hostStore a l).slots = b.slots := by rfl
@[simp] theorem Block.hostStore_pairs (b : Block) (a : Nat) (l : List Byte) : (b.hostStore a l).pairs = b.pairs := by rfl
@[simp] theorem Block.hostStore_sys (b : Block) (a : Nat) (l : List Byte) : (b.hostStore a l).sys = b.sys := by rfl
@[simp] theorem Block.hostStore_image (b : Block) (a : Nat) (l : List Byte) : (b.hostStore a l).image = b.image := by rfl
@[simp] theorem Block.hostStore_flash (b : Block) (a : Nat) (l : List Byte) : (b.hostStore a l).flash = b.flash := by rfl
@[simp] theorem Block.hostStore_zilsy (b : Block) (a : Nat) (l : List Byte) : (b.hostStore a l).zilsy = b.zilsy := by rfl
@[simp] theorem Block.hostStore_power (b : Block) (a : Nat) (l : List Byte) : (b.hostStore a l).power = b.power := by rfl
@[simp] theorem Block.hostStore_domain (b : Block) (a : Nat) (l : List Byte) : (b.hostStore a l).domain = b.domain := by rfl
@[simp] theorem Block.hostStore_out (b : Block) (a : Nat) (l : List Byte) : (b.hostStore a l).out = b.out := by rfl
@[simp] theorem Block.hostStore_freeCounter (b : Block) (a : Nat) (l : List Byte) : (b.hostStore a l).freeCounter = b.freeCounter := by rfl
@[simp] theorem Block.hostStore_half (b : Block) (a : Nat) (l : List Byte) (g : HalfId) : (b.hostStore a l).half g = b.half g := Block.half_eq (b.hostStore_halfA a l) (b.hostStore_halfB a l) g
@[simp] theorem Block.hostStore_reg (b : Block) (a : Nat) (l : List Byte) (c : Nat) : (b.hostStore a l).reg c = b.reg c := Block.reg_eq (b.hostStore_regs a l) c
@[simp] theorem Block.hostStore_byte (b : Block) (a : Nat) (l : List Byte) (c : Nat) : (b.hostStore a l).byte c = b.byte c := Block.byte_eq (b.hostStore_mem a l) (b.hostStore_fill a l) c

@[simp] theorem Block.raise_halfA (b : Block) (v : Nat) : (b.raise v).halfA = b.halfA := by simp only [Block.raise]; split <;> rfl
@[simp] theorem Block.raise_halfB (b : Block) (v : Nat) : (b.raise v).halfB = b.halfB := by simp only [Block.raise]; split <;> rfl
@[simp] theorem Block.raise_mem (b : Block) (v : Nat) : (b.raise v).mem = b.mem := by simp only [Block.raise]; split <;> rfl
@[simp] theorem Block.raise_fill (b : Block) (v : Nat) : (b.raise v).fill = b.fill := by simp only [Block.raise]; split <;> rfl
@[simp] theorem Block.raise_bad (b : Block) (v : Nat) : (b.raise v).bad = b.bad := by simp only [Block.raise]; split <;> rfl
@[simp] theorem Block.raise_hostMem (b : Block) (v : Nat) : (b.raise v).hostMem = b.hostMem := by simp only [Block.raise]; split <;> rfl
@[simp] theorem Block.raise_slots (b : Block) (v : Nat) : (b.raise v).slots = b.slots := by simp only [Block.raise]; split <;> rfl
@[simp] theorem Block.raise_pairs (b : Block) (v : Nat) : (b.raise v).pairs = b.pairs := by simp only [Block.raise]; split <;> rfl
@[simp] theorem Block.raise_sys (b : Block) (v : Nat) : (b.raise v).sys = b.sys := by simp only [Block.raise]; split <;> rfl
@[simp] theorem Block.raise_image (b : Block) (v : Nat) : (b.raise v).image = b.image := by simp only [Block.raise]; split <;> rfl
@[simp] theorem Block.raise_flash (b : Block) (v : Nat) : (b.raise v).flash = b.flash := by simp only [Block.raise]; split <;> rfl
@[simp] theorem Block.raise_zilsy (b : Block) (v : Nat) : (b.raise v).zilsy = b.zilsy := by simp only [Block.raise]; split <;> rfl
@[simp] theorem Block.raise_power (b : Block) (v : Nat) : (b.raise v).power = b.power := by simp only [Block.raise]; split <;> rfl
@[simp] theorem Block.raise_domain (b : Block) (v : Nat) : (b.raise v).domain = b.domain := by simp only [Block.raise]; split <;> rfl
@[simp] theorem Block.raise_freeCounter (b : Block) (v : Nat) : (b.raise v).freeCounter = b.freeCounter := by simp only [Block.raise]; split <;> rfl
@[simp] theorem Block.raise_half (b : Block) (v : Nat) (g : HalfId) : (b.raise v).half g = b.half g := Block.half_eq (b.raise_halfA v) (b.raise_halfB v) g
@[simp] theorem Block.raise_byte (b : Block) (v : Nat) (c : Nat) : (b.raise v).byte c = b.byte c := Block.byte_eq (b.raise_mem v) (b.raise_fill v) c

@[simp] theorem Block.moduleEvent_halfA (b : Block) (i : Nat) : (b.moduleEvent i).halfA = b.halfA := by simp [Block.moduleEvent]
@[simp] theorem Block.moduleEvent_halfB (b : Block) (i : Nat) : (b.moduleEvent i).halfB = b.halfB := by simp [Block.moduleEvent]
@[simp] theorem Block.moduleEvent_mem (b : Block) (i : Nat) : (b.moduleEvent i).mem = b.mem := by simp [Block.moduleEvent]
@[simp] theorem Block.moduleEvent_fill (b : Block) (i : Nat) : (b.moduleEvent i).fill = b.fill := by simp [Block.moduleEvent]
@[simp] theorem Block.moduleEvent_bad (b : Block) (i : Nat) : (b.moduleEvent i).bad = b.bad := by simp [Block.moduleEvent]
@[simp] theorem Block.moduleEvent_hostMem (b : Block) (i : Nat) : (b.moduleEvent i).hostMem = b.hostMem := by simp [Block.moduleEvent]
@[simp] theorem Block.moduleEvent_slots (b : Block) (i : Nat) : (b.moduleEvent i).slots = b.slots := by simp [Block.moduleEvent]
@[simp] theorem Block.moduleEvent_pairs (b : Block) (i : Nat) : (b.moduleEvent i).pairs = b.pairs := by simp [Block.moduleEvent]
@[simp] theorem Block.moduleEvent_sys (b : Block) (i : Nat) : (b.moduleEvent i).sys = b.sys := by simp [Block.moduleEvent]
@[simp] theorem Block.moduleEvent_image (b : Block) (i : Nat) : (b.moduleEvent i).image = b.image := by simp [Block.moduleEvent]
@[simp] theorem Block.moduleEvent_flash (b : Block) (i : Nat) : (b.moduleEvent i).flash = b.flash := by simp [Block.moduleEvent]
@[simp] theorem Block.moduleEvent_zilsy (b : Block) (i : Nat) : (b.moduleEvent i).zilsy = b.zilsy := by simp [Block.moduleEvent]
@[simp] theorem Block.moduleEvent_power (b : Block) (i : Nat) : (b.moduleEvent i).power = b.power := by simp [Block.moduleEvent]
@[simp] theorem Block.moduleEvent_domain (b : Block) (i : Nat) : (b.moduleEvent i).domain = b.domain := by simp [Block.moduleEvent]
@[simp] theorem Block.moduleEvent_freeCounter (b : Block) (i : Nat) : (b.moduleEvent i).freeCounter = b.freeCounter := by simp [Block.moduleEvent]
@[simp] theorem Block.moduleEvent_half (b : Block) (i : Nat) (g : HalfId) : (b.moduleEvent i).half g = b.half g := Block.half_eq (b.moduleEvent_halfA i) (b.moduleEvent_halfB i) g
@[simp] theorem Block.moduleEvent_byte (b : Block) (i : Nat) (c : Nat) : (b.moduleEvent i).byte c = b.byte c := Block.byte_eq (b.moduleEvent_mem i) (b.moduleEvent_fill i) c

@[simp] theorem Block.zilsyLog_halfA (b : Block) (r : LogRecord) : (b.zilsyLog r).halfA = b.halfA := by simp only [Block.zilsyLog]; split; rfl; split <;> rfl
@[simp] theorem Block.zilsyLog_halfB (b : Block) (r : LogRecord) : (b.zilsyLog r).halfB = b.halfB := by simp only [Block.zilsyLog]; split; rfl; split <;> rfl
@[simp] theorem Block.zilsyLog_regs (b : Block) (r : LogRecord) : (b.zilsyLog r).regs = b.regs := by simp only [Block.zilsyLog]; split; rfl; split <;> rfl
@[simp] theorem Block.zilsyLog_mem (b : Block) (r : LogRecord) : (b.zilsyLog r).mem = b.mem := by simp only [Block.zilsyLog]; split; rfl; split <;> rfl
@[simp] theorem Block.zilsyLog_fill (b : Block) (r : LogRecord) : (b.zilsyLog r).fill = b.fill := by simp only [Block.zilsyLog]; split; rfl; split <;> rfl
@[simp] theorem Block.zilsyLog_bad (b : Block) (r : LogRecord) : (b.zilsyLog r).bad = b.bad := by simp only [Block.zilsyLog]; split; rfl; split <;> rfl
@[simp] theorem Block.zilsyLog_hostMem (b : Block) (r : LogRecord) : (b.zilsyLog r).hostMem = b.hostMem := by simp only [Block.zilsyLog]; split; rfl; split <;> rfl
@[simp] theorem Block.zilsyLog_slots (b : Block) (r : LogRecord) : (b.zilsyLog r).slots = b.slots := by simp only [Block.zilsyLog]; split; rfl; split <;> rfl
@[simp] theorem Block.zilsyLog_pairs (b : Block) (r : LogRecord) : (b.zilsyLog r).pairs = b.pairs := by simp only [Block.zilsyLog]; split; rfl; split <;> rfl
@[simp] theorem Block.zilsyLog_sys (b : Block) (r : LogRecord) : (b.zilsyLog r).sys = b.sys := by simp only [Block.zilsyLog]; split; rfl; split <;> rfl
@[simp] theorem Block.zilsyLog_image (b : Block) (r : LogRecord) : (b.zilsyLog r).image = b.image := by simp only [Block.zilsyLog]; split; rfl; split <;> rfl
@[simp] theorem Block.zilsyLog_power (b : Block) (r : LogRecord) : (b.zilsyLog r).power = b.power := by simp only [Block.zilsyLog]; split; rfl; split <;> rfl
@[simp] theorem Block.zilsyLog_domain (b : Block) (r : LogRecord) : (b.zilsyLog r).domain = b.domain := by simp only [Block.zilsyLog]; split; rfl; split <;> rfl
@[simp] theorem Block.zilsyLog_out (b : Block) (r : LogRecord) : (b.zilsyLog r).out = b.out := by simp only [Block.zilsyLog]; split; rfl; split <;> rfl
@[simp] theorem Block.zilsyLog_freeCounter (b : Block) (r : LogRecord) : (b.zilsyLog r).freeCounter = b.freeCounter := by simp only [Block.zilsyLog]; split; rfl; split <;> rfl
@[simp] theorem Block.zilsyLog_half (b : Block) (r : LogRecord) (g : HalfId) : (b.zilsyLog r).half g = b.half g := Block.half_eq (b.zilsyLog_halfA r) (b.zilsyLog_halfB r) g
@[simp] theorem Block.zilsyLog_reg (b : Block) (r : LogRecord) (c : Nat) : (b.zilsyLog r).reg c = b.reg c := Block.reg_eq (b.zilsyLog_regs r) c
@[simp] theorem Block.zilsyLog_byte (b : Block) (r : LogRecord) (c : Nat) : (b.zilsyLog r).byte c = b.byte c := Block.byte_eq (b.zilsyLog_mem r) (b.zilsyLog_fill r) c

@[simp] theorem Block.log_halfA (b : Block) (e : Event) : (b.log e).halfA = b.halfA := by simp only [Block.log]; split; simp; (repeat' split) <;> rfl
@[simp] theorem Block.log_halfB (b : Block) (e : Event) : (b.log e).halfB = b.halfB := by simp only [Block.log]; split; simp; (repeat' split) <;> rfl
@[simp] theorem Block.log_regs (b : Block) (e : Event) : (b.log e).regs = b.regs := by simp only [Block.log]; split; simp; (repeat' split) <;> rfl
@[simp] theorem Block.log_mem (b : Block) (e : Event) : (b.log e).mem = b.mem := by simp only [Block.log]; split; simp; (repeat' split) <;> rfl
@[simp] theorem Block.log_fill (b : Block) (e : Event) : (b.log e).fill = b.fill := by simp only [Block.log]; split; simp; (repeat' split) <;> rfl
@[simp] theorem Block.log_bad (b : Block) (e : Event) : (b.log e).bad = b.bad := by simp only [Block.log]; split; simp; (repeat' split) <;> rfl
@[simp] theorem Block.log_hostMem (b : Block) (e : Event) : (b.log e).hostMem = b.hostMem := by simp only [Block.log]; split; simp; (repeat' split) <;> rfl
@[simp] theorem Block.log_slots (b : Block) (e : Event) : (b.log e).slots = b.slots := by simp only [Block.log]; split; simp; (repeat' split) <;> rfl
@[simp] theorem Block.log_pairs (b : Block) (e : Event) : (b.log e).pairs = b.pairs := by simp only [Block.log]; split; simp; (repeat' split) <;> rfl
@[simp] theorem Block.log_sys (b : Block) (e : Event) : (b.log e).sys = b.sys := by simp only [Block.log]; split; simp; (repeat' split) <;> rfl
@[simp] theorem Block.log_image (b : Block) (e : Event) : (b.log e).image = b.image := by simp only [Block.log]; split; simp; (repeat' split) <;> rfl
@[simp] theorem Block.log_power (b : Block) (e : Event) : (b.log e).power = b.power := by simp only [Block.log]; split; simp; (repeat' split) <;> rfl
@[simp] theorem Block.log_domain (b : Block) (e : Event) : (b.log e).domain = b.domain := by simp only [Block.log]; split; simp; (repeat' split) <;> rfl
@[simp] theorem Block.log_out (b : Block) (e : Event) : (b.log e).out = b.out := by simp only [Block.log]; split; simp; (repeat' split) <;> rfl
@[simp] theorem Block.log_freeCounter (b : Block) (e : Event) : (b.log e).freeCounter = b.freeCounter := by simp only [Block.log]; split; simp; (repeat' split) <;> rfl
@[simp] theorem Block.log_half (b : Block) (e : Event) (g : HalfId) : (b.log e).half g = b.half g := Block.half_eq (b.log_halfA e) (b.log_halfB e) g
@[simp] theorem Block.log_reg (b : Block) (e : Event) (c : Nat) : (b.log e).reg c = b.reg c := Block.reg_eq (b.log_regs e) c
@[simp] theorem Block.log_byte (b : Block) (e : Event) (c : Nat) : (b.log e).byte c = b.byte c := Block.byte_eq (b.log_mem e) (b.log_fill e) c

@[simp] theorem Block.logRefused_halfA (b : Block) (h : HalfId) (x v st k i j : Nat) : (b.logRefused h x v st k i j).halfA = b.halfA := Block.log_halfA b _
@[simp] theorem Block.logRefused_halfB (b : Block) (h : HalfId) (x v st k i j : Nat) : (b.logRefused h x v st k i j).halfB = b.halfB := Block.log_halfB b _
@[simp] theorem Block.logRefused_regs (b : Block) (h : HalfId) (x v st k i j : Nat) : (b.logRefused h x v st k i j).regs = b.regs := Block.log_regs b _
@[simp] theorem Block.logRefused_mem (b : Block) (h : HalfId) (x v st k i j : Nat) : (b.logRefused h x v st k i j).mem = b.mem := Block.log_mem b _
@[simp] theorem Block.logRefused_fill (b : Block) (h : HalfId) (x v st k i j : Nat) : (b.logRefused h x v st k i j).fill = b.fill := Block.log_fill b _
@[simp] theorem Block.logRefused_bad (b : Block) (h : HalfId) (x v st k i j : Nat) : (b.logRefused h x v st k i j).bad = b.bad := Block.log_bad b _
@[simp] theorem Block.logRefused_hostMem (b : Block) (h : HalfId) (x v st k i j : Nat) : (b.logRefused h x v st k i j).hostMem = b.hostMem := Block.log_hostMem b _
@[simp] theorem Block.logRefused_slots (b : Block) (h : HalfId) (x v st k i j : Nat) : (b.logRefused h x v st k i j).slots = b.slots := Block.log_slots b _
@[simp] theorem Block.logRefused_pairs (b : Block) (h : HalfId) (x v st k i j : Nat) : (b.logRefused h x v st k i j).pairs = b.pairs := Block.log_pairs b _
@[simp] theorem Block.logRefused_sys (b : Block) (h : HalfId) (x v st k i j : Nat) : (b.logRefused h x v st k i j).sys = b.sys := Block.log_sys b _
@[simp] theorem Block.logRefused_image (b : Block) (h : HalfId) (x v st k i j : Nat) : (b.logRefused h x v st k i j).image = b.image := Block.log_image b _
@[simp] theorem Block.logRefused_power (b : Block) (h : HalfId) (x v st k i j : Nat) : (b.logRefused h x v st k i j).power = b.power := Block.log_power b _
@[simp] theorem Block.logRefused_domain (b : Block) (h : HalfId) (x v st k i j : Nat) : (b.logRefused h x v st k i j).domain = b.domain := Block.log_domain b _
@[simp] theorem Block.logRefused_out (b : Block) (h : HalfId) (x v st k i j : Nat) : (b.logRefused h x v st k i j).out = b.out := Block.log_out b _
@[simp] theorem Block.logRefused_freeCounter (b : Block) (h : HalfId) (x v st k i j : Nat) : (b.logRefused h x v st k i j).freeCounter = b.freeCounter := Block.log_freeCounter b _
@[simp] theorem Block.logRefused_half (b : Block) (h : HalfId) (x v st k i j : Nat) (g : HalfId) : (b.logRefused h x v st k i j).half g = b.half g := Block.half_eq (b.logRefused_halfA h x v st k i j) (b.logRefused_halfB h x v st k i j) g
@[simp] theorem Block.logRefused_reg (b : Block) (h : HalfId) (x v st k i j : Nat) (c : Nat) : (b.logRefused h x v st k i j).reg c = b.reg c := Block.reg_eq (b.logRefused_regs h x v st k i j) c
@[simp] theorem Block.logRefused_byte (b : Block) (h : HalfId) (x v st k i j : Nat) (c : Nat) : (b.logRefused h x v st k i j).byte c = b.byte c := Block.byte_eq (b.logRefused_mem h x v st k i j) (b.logRefused_fill h x v st k i j) c

@[simp] theorem Block.logPermission_halfA (b : Block) (n k j : Nat) : (b.logPermission n k j).halfA = b.halfA := Block.log_halfA b _
@[simp] theorem Block.logPermission_halfB (b : Block) (n k j : Nat) : (b.logPermission n k j).halfB = b.halfB := Block.log_halfB b _
@[simp] theorem Block.logPermission_regs (b : Block) (n k j : Nat) : (b.logPermission n k j).regs = b.regs := Block.log_regs b _
@[simp] theorem Block.logPermission_mem (b : Block) (n k j : Nat) : (b.logPermission n k j).mem = b.mem := Block.log_mem b _
@[simp] theorem Block.logPermission_fill (b : Block) (n k j : Nat) : (b.logPermission n k j).fill = b.fill := Block.log_fill b _
@[simp] theorem Block.logPermission_bad (b : Block) (n k j : Nat) : (b.logPermission n k j).bad = b.bad := Block.log_bad b _
@[simp] theorem Block.logPermission_hostMem (b : Block) (n k j : Nat) : (b.logPermission n k j).hostMem = b.hostMem := Block.log_hostMem b _
@[simp] theorem Block.logPermission_slots (b : Block) (n k j : Nat) : (b.logPermission n k j).slots = b.slots := Block.log_slots b _
@[simp] theorem Block.logPermission_pairs (b : Block) (n k j : Nat) : (b.logPermission n k j).pairs = b.pairs := Block.log_pairs b _
@[simp] theorem Block.logPermission_sys (b : Block) (n k j : Nat) : (b.logPermission n k j).sys = b.sys := Block.log_sys b _
@[simp] theorem Block.logPermission_image (b : Block) (n k j : Nat) : (b.logPermission n k j).image = b.image := Block.log_image b _
@[simp] theorem Block.logPermission_power (b : Block) (n k j : Nat) : (b.logPermission n k j).power = b.power := Block.log_power b _
@[simp] theorem Block.logPermission_domain (b : Block) (n k j : Nat) : (b.logPermission n k j).domain = b.domain := Block.log_domain b _
@[simp] theorem Block.logPermission_out (b : Block) (n k j : Nat) : (b.logPermission n k j).out = b.out := Block.log_out b _
@[simp] theorem Block.logPermission_freeCounter (b : Block) (n k j : Nat) : (b.logPermission n k j).freeCounter = b.freeCounter := Block.log_freeCounter b _
@[simp] theorem Block.logPermission_half (b : Block) (n k j : Nat) (g : HalfId) : (b.logPermission n k j).half g = b.half g := Block.half_eq (b.logPermission_halfA n k j) (b.logPermission_halfB n k j) g
@[simp] theorem Block.logPermission_reg (b : Block) (n k j : Nat) (c : Nat) : (b.logPermission n k j).reg c = b.reg c := Block.reg_eq (b.logPermission_regs n k j) c
@[simp] theorem Block.logPermission_byte (b : Block) (n k j : Nat) (c : Nat) : (b.logPermission n k j).byte c = b.byte c := Block.byte_eq (b.logPermission_mem n k j) (b.logPermission_fill n k j) c

@[simp] theorem Block.fresh_halfA (b : Block) : b.fresh.2.halfA = b.halfA := by rfl
@[simp] theorem Block.fresh_halfB (b : Block) : b.fresh.2.halfB = b.halfB := by rfl
@[simp] theorem Block.fresh_regs (b : Block) : b.fresh.2.regs = b.regs := by rfl
@[simp] theorem Block.fresh_mem (b : Block) : b.fresh.2.mem = b.mem := by rfl
@[simp] theorem Block.fresh_fill (b : Block) : b.fresh.2.fill = b.fill := by rfl
@[simp] theorem Block.fresh_bad (b : Block) : b.fresh.2.bad = b.bad := by rfl
@[simp] theorem Block.fresh_hostMem (b : Block) : b.fresh.2.hostMem = b.hostMem := by rfl
@[simp] theorem Block.fresh_slots (b : Block) : b.fresh.2.slots = b.slots := by rfl
@[simp] theorem Block.fresh_pairs (b : Block) : b.fresh.2.pairs = b.pairs := by rfl
@[simp] theorem Block.fresh_sys (b : Block) : b.fresh.2.sys = b.sys := by rfl
@[simp] theorem Block.fresh_image (b : Block) : b.fresh.2.image = b.image := by rfl
@[simp] theorem Block.fresh_flash (b : Block) : b.fresh.2.flash = b.flash := by rfl
@[simp] theorem Block.fresh_zilsy (b : Block) : b.fresh.2.zilsy = b.zilsy := by rfl
@[simp] theorem Block.fresh_power (b : Block) : b.fresh.2.power = b.power := by rfl
@[simp] theorem Block.fresh_domain (b : Block) : b.fresh.2.domain = b.domain := by rfl
@[simp] theorem Block.fresh_out (b : Block) : b.fresh.2.out = b.out := by rfl

@[simp] theorem Block.half_setHalf_same (b : Block) (h : HalfId) (x : Half) : (b.setHalf h x).half h = x := by cases h <;> rfl

theorem Block.half_setHalf_other (b : Block) (h k : HalfId) (x : Half) (hk : k ≠ h) : (b.setHalf h x).half k = b.half k := by
  cases h <;> cases k <;> first | rfl | exact absurd rfl hk

@[simp] theorem Block.half_modHalf_same (b : Block) (h : HalfId) (f : Half → Half) : (b.modHalf h f).half h = f (b.half h) :=
  Block.half_setHalf_same b h _

theorem Block.half_modHalf_other (b : Block) (h k : HalfId) (f : Half → Half) (hk : k ≠ h) : (b.modHalf h f).half k = b.half k :=
  Block.half_setHalf_other b h k _ hk

@[simp] theorem Block.setSys_sys (b : Block) (x : Sys) : (b.setSys x).sys = x := by rfl
@[simp] theorem Block.setImage_image (b : Block) (x : Image) : (b.setImage x).image = x := by rfl
@[simp] theorem Block.setFlash_flash (b : Block) (x : Flash) : (b.setFlash x).flash = x := by rfl
@[simp] theorem Block.setZilsy_zilsy (b : Block) (x : Zilsy) : (b.setZilsy x).zilsy = x := by rfl
@[simp] theorem Block.setPower_power (b : Block) (x : Power) : (b.setPower x).power = x := by rfl
@[simp] theorem Block.setDomain_domain (b : Block) (x : Domain) : (b.setDomain x).domain = x := by rfl
@[simp] theorem Block.emit_out (b : Block) (o : Out) : (b.emit o).out = b.out ++ [o] := by rfl

end Sys2Proof.Machine
end

