-- ==== Sys2Proof/Laws/Regs.lean ====
section
/-! SUPPORT. Reading a register's stored value and its fields after a write of it, of one of its fields, or of another register. -/

namespace Sys2Proof.Machine

/-! ## Fields of a word -/

theorem bits_lt (x hi lo : Nat) : bits x hi lo < 2 ^ (hi + 1 - lo) := Nat.mod_lt _ (Nat.two_pow_pos _)

theorem testBit_bits (x hi lo i : Nat) : (bits x hi lo).testBit i = (decide (i < hi + 1 - lo) && x.testBit (lo + i)) := by
  simp [bits, Nat.testBit_mod_two_pow, Nat.testBit_shiftRight]

theorem testBit_mask (hi lo i : Nat) : (mask hi lo).testBit i = (decide (lo ≤ i) && decide (i < hi + 1)) := by
  simp only [mask, Nat.testBit_shiftLeft, Nat.testBit_two_pow_sub_one]
  by_cases h : lo ≤ i
  · have : (i - lo < hi + 1 - lo) = (i < hi + 1) := by simp; omega
    simp [h, this]
  · simp [h]

theorem getLsbD_setFld (w : Word) (hi lo v i : Nat) :
    (setFld w hi lo v).getLsbD i = (decide (i < 64) && if lo ≤ i ∧ i ≤ hi then v.testBit (i - lo) else w.getLsbD i) := by
  simp only [setFld, BitVec.getLsbD_or, BitVec.getLsbD_and, BitVec.getLsbD_not, BitVec.getLsbD_ofNat, testBit_mask, Nat.testBit_shiftLeft]
  by_cases h64 : i < 64
  · by_cases h1 : lo ≤ i <;> by_cases h2 : i ≤ hi <;> simp [h64, h1, h2]
  · have : w.getLsbD i = false := BitVec.getLsbD_of_ge w i (by omega)
    simp [h64]

/-- A field just written reads as written, cut to its width. -/
theorem fld_setFld_same (w : Word) (hi lo v : Nat) (h : hi < 64) : fld (setFld w hi lo v) hi lo = v % 2 ^ (hi + 1 - lo) := by
  refine Nat.eq_of_testBit_eq fun i => ?_
  simp only [fld, testBit_bits, Nat.testBit_mod_two_pow, BitVec.testBit_toNat, getLsbD_setFld]
  by_cases hi' : i < hi + 1 - lo
  · have h1 : lo + i < 64 := by omega
    have h2 : lo + i ≤ hi := by omega
    simp [hi', h1, h2]
  · simp [hi']

/-- Another field of the word is as before. -/
theorem fld_setFld_other (w : Word) (hi lo v hi' lo' : Nat) (h : hi' < lo ∨ hi < lo') : fld (setFld w hi lo v) hi' lo' = fld w hi' lo' := by
  refine Nat.eq_of_testBit_eq fun i => ?_
  simp only [fld, testBit_bits, BitVec.testBit_toNat, getLsbD_setFld]
  by_cases hi1 : i < hi' + 1 - lo'
  · have h1 : ¬ (lo ≤ lo' + i ∧ lo' + i ≤ hi) := by omega
    by_cases h64 : lo' + i < 64
    · simp [hi1, h1, h64]
    · simp [hi1, h64, BitVec.getLsbD_of_ge w (lo' + i) (by omega)]
  · simp [hi1]

/-- A field of a word given as a number. -/
theorem fld_ofNat (n hi lo : Nat) (h : hi < 64) : fld (BitVec.ofNat 64 n) hi lo = bits n hi lo := by
  refine Nat.eq_of_testBit_eq fun i => ?_
  simp only [fld, testBit_bits, BitVec.testBit_toNat, BitVec.getLsbD_ofNat]
  by_cases hi1 : i < hi + 1 - lo
  · have h1 : lo + i < 64 := by omega
    simp [h1]
  · simp [hi1]

theorem bit_eq (x i : Nat) : bit x i = x.testBit i := by
  simp [bit, Nat.testBit, Nat.one_and_eq_mod_two, bne, beq_eq_decide]

/-! ## Registers -/

@[simp] theorem Block.reg_modReg_same (b : Block) (a : Nat) (f : Word → Word) : (b.modReg a f).reg a = f (b.reg a) :=
  Block.reg_setReg_same b a _

theorem Block.reg_modReg_other (b : Block) (a c : Nat) (f : Word → Word) (h : c ≠ a) : (b.modReg a f).reg c = b.reg c :=
  Block.reg_setReg_other b a c _ h

theorem Block.reg_setRegFld_other (b : Block) (a hi lo v c : Nat) (h : c ≠ a) : (b.setRegFld a hi lo v).reg c = b.reg c :=
  Block.reg_modReg_other b a c _ h

theorem Block.regFld_setRegFld_same (b : Block) (a hi lo v : Nat) (h : hi < 64) :
    (b.setRegFld a hi lo v).regFld a hi lo = v % 2 ^ (hi + 1 - lo) := by
  simp [Block.regFld, Block.setRegFld, fld_setFld_same _ _ _ _ h]

theorem Block.count_reg_other (b : Block) (a hi lo n c : Nat) (h : c ≠ a) : (b.count a hi lo n).reg c = b.reg c :=
  Block.reg_modReg_other b a c _ h

end Sys2Proof.Machine
end

