-- ==== Sys2Proof/WellFormed.lean ====
section
/-! DEFINITION. Which commands are well formed: every operand within the width or the count that the spec gives it. An outcome that a command
carries (a training result, a sample, a verdict on a signature) has the shape that its rule gives. The meanings are total and do not rest on
it. -/

namespace Sys2Proof

/-- A graph ID of 12 bits and a TASK_INDEX of 20 (R29, R31). -/
def TaskRef.wf (t : TaskRef) : Bool := decide (t.graph < 4096) && decide (t.task < 2 ^ 20)

/-- A payload of at most 4,096 bytes (R316, R318). -/
def Packet.wf (p : Packet) : Bool := decide (p.payload.length ≤ 4096)

/-- SERIAL and NONCE of 16 bytes, KEY_ID of 8 (R446). -/
def Envelope.wf (m : Envelope) : Bool := decide (m.serial < 2 ^ 128) && decide (m.nonce < 2 ^ 128) && decide (m.keyId < 2 ^ 64)

/-- A signed path has a well-formed envelope. -/
def Path.wf : Path → Bool
  | .host => true
  | .zilsy m => m.wf

/-- Queue pair 0-63, endpoint 0-16,383, or a task (R26). -/
def SourceId.wf : SourceId → Bool
  | .queue q => decide (q < 64)
  | .efing e => decide (e < 16384)
  | .launch t => t.wf

/-- Core 0-79, Shelf channel 0-127, Bay channel 0-31, endpoint 0-16,383 (R224). -/
def Destination.wf : Destination → Bool
  | .cove n => decide (n < 80)
  | .shelf _ ch => decide (ch < 128)
  | .bay _ ch => decide (ch < 32)
  | .endpoint e => decide (e < 16384)
  | .mainland => true

/-- 64 channels, each with its eye at each attempt, and no channel named twice (R241, R245). -/
def BayTraining.wf (r : BayTraining) : Bool :=
  decide (r.fast.length = 64) && decide (r.alone.length = 64) && decide (r.slow.length = 64) && decide r.miscompares.Nodup

/-- Failed bonds of channels 0-131, and 128 eyes for each half (R235, R246). -/
def ShelfTraining.wf (r : ShelfTraining) : Bool :=
  (r.faultsA ++ r.faultsB).all (fun x => decide (x.1 < 132)) && decide (r.eyesA.length = 128) && decide (r.eyesB.length = 128)

/-- A request of 64 to 512 bytes within one 512-byte unit of Shelf, elsewhere within one 64-byte line; a write carries its bytes (R199,
R224, R233). -/
def LineRequest.wf (r : LineRequest) : Bool :=
  (if 0x200000000 ≤ r.addr ∧ r.addr < 0x600000000 then decide (64 ≤ r.len) && decide (r.addr % 512 + r.len ≤ 512)
   else decide (0 < r.len) && decide (r.addr % 64 + r.len ≤ 64)) &&
    (r.data.map (fun l => decide (l.length = r.len))).getD true && (r.task.map TaskRef.wf).getD true

/-- An operation 0-2 on the elements of one line (R226). -/
def AddRequest.wf (r : AddRequest) : Bool :=
  decide (r.op < 3) && decide (0 < r.data.length) && decide (r.addr % 64 + r.data.length ≤ 64) && (r.task.map TaskRef.wf).getD true

/-- A group index of 18 bits (R113). -/
def HaltPoint.wf (x : HaltPoint) : Bool := decide (x.group < 2 ^ 18)

/-- A type code of 4 bits (R146). -/
def VecFields.wf (f : VecFields) : Bool := decide (f.etype < 16)

/-- Lines of 28 bits in ascending order (R252). -/
def TgResult.wf (r : TgResult) : Bool :=
  r.lines.all (fun x => decide (x.line < 2 ^ 28)) && decide ((r.lines.map (fun x => x.line)).Pairwise (fun x y => x < y))

/-- Packets that are well formed themselves (R309). -/
def LinkGroup.wf (g : LinkGroup) : Bool := g.packets.all Packet.wf

/-- An SVN of 16 bits (R449). -/
def StagedObject.wf (o : StagedObject) : Bool := decide (o.svn < 2 ^ 16)

/-- Keys of 32 and 1,952 bytes (R444). -/
def KeyBody.wf (k : KeyBody) : Bool := decide (k.role < 256) && decide (k.ed25519.length = 32) && decide (k.mlDsa.length = 1952)

/-- 48 counters of each of 80 cores, slots up to 16 for the uncore's traffic, and a share of 64 (R456). -/
def PowerSample.wf (w : PowerSample) : Bool :=
  decide (w.core.length = 80) && w.core.all (fun l => decide (l.length = 48)) && w.uncore.all (fun l => l.all (fun x => decide (x.1 ≤ 16))) &&
    decide (w.issued ≤ 64)

/-- The fields of ZIL_INPUT and of 16 rails (R436, R455). -/
def MeterSample.wf (m : MeterSample) : Bool :=
  decide (m.vin < 2 ^ 16) && decide (m.iin < 2 ^ 24) && decide (m.pin < 2 ^ 24) && decide (m.rails.length ≤ 16) &&
    m.rails.all (fun x => decide (x.1 < 2 ^ 16) && decide (x.2 < 2 ^ 24))

/-- A page number of a 48-bit VA, and a device address (R202). -/
def PageRow.wf (r : PageRow) : Bool := decide (r.va < 2 ^ 27) && decide (r.target < 2 ^ 64)

/-- A byte of host memory at an IOVA of 60 bits (R210). -/
def hostCellWf (c : Nat × Byte) : Bool := decide (c.1 < 2 ^ 60)

/-- The well-formed commands. -/
def Instr.wf : Instr → Bool
  | .vinApplied => true
  | .powerGood _ _ _ => true
  | .vinLoss => true
  | .zilsyBoot => true
  | .imageSelect => true
  | .bayTrainingDone r => r.wf
  | .shelfTrainingDone r => r.wf
  | .isthmusTrainingDone faults => decide faults.Nodup
  | .selfTestDone failing => decide failing.Nodup
  | .ready => true
  | .configRequest _ _ => true
  | .pcieLinkUp _ _ _ => true
  | .perst => true
  | .hotReset => true
  | .linkDown => true
  | .flr => true
  | .bar2Read offset len => decide (offset + len ≤ 2 ^ 36) && decide (0 < len) && decide (len ≤ 4096)
  | .bar2Write offset data _ => decide (offset + data.length ≤ 2 ^ 36) && decide (0 < data.length) && decide (data.length ≤ 4096)
  | .registerWrite p addr _ => p.wf && decide (0x40000000 ≤ addr) && decide (addr < 0x80000000)
  | .queuePairCreate _ _ => true
  | .queuePairDestroy _ => true
  | .sqDoorbell _ _ hostWrote => hostWrote.all hostCellWf
  | .sqFetch _ => true
  | .submitGraph _ => true
  | .noOp _ => true
  | .cqHeadWrite _ _ => true
  | .graphHeadWrite _ _ _ => true
  | .coalesceTimer _ => true
  | .graphSubmit _ p => p.wf
  | .graphAdmit _ src _ => src.wf
  | .token t => t.wf
  | .cancellation t origin => t.wf && decide (origin < 2 ^ 20)
  | .fnbTideReached t => t.wf
  | .ageLimitExpiry t => t.wf
  | .taskFire t cores _ => t.wf && decide cores.Nodup
  | .taskEnd t stalls => t.wf && stalls.all (fun x => decide (x.cycles < 2 ^ 64))
  | .recordWrite t => t.wf
  | .tagGrant _ dest => dest.wf
  | .homeRequest _ r => r.wf
  | .memoryAdd _ r => r.wf
  | .requestResponse _ tag status data => decide (tag < 16384) && decide (status < 2 ^ 16) && decide (data.length ≤ 4096)
  | .farDeadlineExpiry _ tag => decide (tag < 16384)
  | .jobSlotBind p _ _ tables => p.wf && tables.all PageRow.wf
  | .jobSlotDisable p _ => p.wf
  | .funcDisable p _ => p.wf
  | .funcEnable p _ => p.wf
  | .drainDeadline _ => true
  | .drainComplete _ => true
  | .stallClear p _ _ => p.wf
  | .dbgHalt p _ => p.wf
  | .dbgHaltReached _ at_ => at_.wf
  | .dbgResume p _ => p.wf
  | .matrix t _ => t.wf
  | .vectorProgram t => t.wf
  | .ld _ f => f.wf
  | .st _ f => f.wf
  | .ldi _ f => f.wf
  | .iota _ f => f.wf
  | .add _ f => f.wf
  | .sub _ f => f.wf
  | .mul _ f => f.wf
  | .fma _ f => f.wf
  | .max _ f => f.wf
  | .min _ f => f.wf
  | .abs _ f => f.wf
  | .neg _ f => f.wf
  | .div _ f => f.wf
  | .sqrt _ f => f.wf
  | .cmp _ f => f.wf
  | .sel _ f => f.wf
  | .exp2 _ f => f.wf
  | .log2 _ f => f.wf
  | .rcp _ f => f.wf
  | .rsqrt _ f => f.wf
  | .tanh _ f => f.wf
  | .iadd _ f => f.wf
  | .isub _ f => f.wf
  | .imul _ f => f.wf
  | .imax _ f => f.wf
  | .imin _ f => f.wf
  | .shl _ f => f.wf
  | .shr _ f => f.wf
  | .sra _ f => f.wf
  | .and _ f => f.wf
  | .or _ f => f.wf
  | .xor _ f => f.wf
  | .not _ f => f.wf
  | .icmp _ f => f.wf
  | .cvt _ f => f.wf
  | .rsum _ f => f.wf
  | .rmax _ f => f.wf
  | .rmin _ f => f.wf
  | .rmean _ f => f.wf
  | .gap _ f => f.wf
  | .route t => t.wf
  | .combine t => t.wf
  | .kvWrite t => t.wf
  | .attnForward t _ => t.wf
  | .attnForwardPartial t _ => t.wf
  | .attnCombine t => t.wf
  | .attnBackwardDkDv t _ => t.wf
  | .attnBackwardDq t _ => t.wf
  | .kvInval p _ _ => p.wf
  | .convForward t _ => t.wf
  | .convBackwardData t _ => t.wf
  | .convBackwardFilter t _ => t.wf
  | .boxDecode t => t.wf
  | .nms t => t.wf
  | .rowsReady t rows => t.wf && decide (rows < 2 ^ 32)
  | .gather t => t.wf
  | .scatter t => t.wf
  | .scatterAdd t => t.wf
  | .scatterMax t => t.wf
  | .scatterMin t => t.wf
  | .copy t => t.wf
  | .map t => t.wf
  | .unmap t => t.wf
  | .fill t => t.wf
  | .drop t => t.wf
  | .query t => t.wf
  | .setPin t => t.wf
  | .publish t => t.wf
  | .retire t => t.wf
  | .pendingReap _ _ object version => decide (object < 2 ^ 32) && decide (version < 2 ^ 32)
  | .mainRegister p _ _ hostWrote => p.wf && hostWrote.all hostCellWf
  | .mainRetire p _ _ => p.wf
  | .lendRevoke p _ => p.wf
  | .lendEnClear p _ _ => p.wf
  | .revocationEnd _ => true
  | .revocationDone _ => true
  | .refreshDue _ _ _ => true
  | .refreshBandRelax _ => true
  | .scrubRead _ upsets => decide ((upsets.map (fun u => u.1)).Nodup)
  | .tgWriteRead p _ _ => p.wf
  | .tgReadSweep p _ _ => p.wf
  | .tgStop p _ _ => p.wf
  | .tgDone _ _ r => r.wf
  | .contextOpen t => t.wf
  | .contextClose t => t.wf
  | .decode t => t.wf
  | .encode t => t.wf
  | .frameWatchdog t picture rowsWritten => t.wf && decide (picture < 2 ^ 16) && decide (rowsWritten ≤ 8192)
  | .imageDecode t => t.wf
  | .audioDecode t => t.wf
  | .tokeniseAndPack t => t.wf
  | .tableLoad t => t.wf
  | .cropAndResize t => t.wf
  | .batchAssemble t => t.wf
  | .sampleDone t => t.wf
  | .resize t => t.wf
  | .flip t => t.wf
  | .jitter t => t.wf
  | .norm t => t.wf
  | .gain t => t.wf
  | .fmask t => t.wf
  | .tmask t => t.wf
  | .hostSignal t => t.wf
  | .subGraphLaunch t => t.wf
  | .subGraphDone t => t.wf
  | .tideWait t => t.wf
  | .powerHint t => t.wf
  | .hintWindowOpen => true
  | .updateGateCheck t => t.wf
  | .updateGateCheckpoint t => t.wf
  | .allReduce t => t.wf
  | .reduceScatter t => t.wf
  | .allGather t => t.wf
  | .expertDispatch t => t.wf
  | .expertReceive t => t.wf
  | .expertReturn t => t.wf
  | .expertReturnReceive t => t.wf
  | .sendToPeer t => t.wf
  | .receiveFromPeer t => t.wf
  | .verdictReduction t => t.wf
  | .ebb _ p => p.wf
  | .flood _ p => p.wf
  | .stepRepeatReadmit _ _ => true
  | .collReady _ p => p.wf
  | .credit _ p => p.wf
  | .collEnd _ p => p.wf
  | .lateNotice _ p => p.wf
  | .sendBlock _ p => p.wf
  | .collectiveDeadline t => t.wf
  | .lateWaitExpiry t => t.wf
  | .lenientWaitExpiry t => t.wf
  | .resolveExpiry t => t.wf
  | .tokenRow _ p => p.wf
  | .endRecord _ p => p.wf
  | .travelReady _ p => p.wf
  | .readRequest _ p => p.wf
  | .writeRequest _ p => p.wf
  | .adderRequest _ p => p.wf
  | .farRead _ p => p.wf
  | .farReserve _ p => p.wf
  | .farWrite _ p => p.wf
  | .farCommit _ p => p.wf
  | .farAbort _ p => p.wf
  | .farQuery _ p => p.wf
  | .farRetire _ p => p.wf
  | .response _ p => p.wf
  | .linkGroup _ _ g => g.wf
  | .packetForward _ p => p.wf
  | .ackTimeout _ _ => true
  | .nakLimit _ _ => true
  | .laneClockLoss _ _ _ => true
  | .portRetrainDone _ _ passing _ => decide passing.Nodup
  | .portTrainingDone _ _ passing _ => decide passing.Nodup
  | .trainRetry _ _ => true
  | .hopTimeout _ _ => true
  | .routeHoldExpiry _ _ => true
  | .identity _ _ p => p.wf
  | .tideExchange _ => true
  | .sync _ _ t1 => decide (t1 < 2 ^ 64)
  | .echo _ _ t1 t2 t3 _ depth => decide (t1 < 2 ^ 64) && decide (t2 < 2 ^ 64) && decide (t3 < 2 ^ 64) && decide (depth < 16)
  | .parentSwitch _ => true
  | .holdoverExpiry _ => true
  | .ppsEdge _ => true
  | .clk10mLock _ => true
  | .ptpTime _ ns => decide (ns < 2 ^ 64)
  | .referenceLoss _ => true
  | .refEdgeTimeout => true
  | .leaseClaim => true
  | .lease _ p => p.wf
  | .leaseRenewal => true
  | .leaseLapse => true
  | .readyReport _ p => p.wf
  | .censusDeadline => true
  | .censusResult _ p => p.wf
  | .revocationNotice _ p => p.wf
  | .heartbeatSend => true
  | .heartbeat _ p => p.wf
  | .trayHeartbeat _ p => p.wf
  | .heartbeatTimeout _ => true
  | .journalAppend _ p => p.wf
  | .journalAcknowledgement _ p => p.wf
  | .verdictQuery _ p => p.wf
  | .verdictAnswer _ p => p.wf
  | .recoveryLost _ p => p.wf
  | .recoveryAbort _ p => p.wf
  | .recoverySubst _ p => p.wf
  | .recoveryResume _ p => p.wf
  | .checkpointReport _ p => p.wf
  | .lateReport _ p => p.wf
  | .revocationReport _ p => p.wf
  | .noUpPortTimeout => true
  | .slackEnter p => p.wf
  | .slackIdleTimer => true
  | .slackEntryDone => true
  | .slackWake p => p.wf
  | .wakeReady => true
  | .nonce _ value => decide (value < 2 ^ 128)
  | .nonceExpiry value => decide (value < 2 ^ 128)
  | .read m addrs => m.wf && addrs.all (fun a => decide (0x40000000 ≤ a) && decide (a < 0x80000000))
  | .write m addr _ => m.wf && decide (0x40000000 ≤ addr) && decide (addr < 0x80000000)
  | .readLog m seq _ => m.wf && decide (seq < 2 ^ 64)
  | .readAudit m seq _ => m.wf && decide (seq < 2 ^ 64)
  | .attest m verifier => m.wf && decide (verifier < 2 ^ 256)
  | .powerCap p _ => p.wf
  | .resetModule m _ => m.wf
  | .commit m => m.wf
  | .configWriteDone _ => true
  | .stageBegin m object length => m.wf && decide (object < 2 ^ 32) && decide (length < 2 ^ 32)
  | .stageData _ offset data => decide (offset < 2 ^ 32) && decide (data.length ≤ 16320)
  | .stageApply m o => m.wf && o.wf
  | .stagingIdle => true
  | .keyEnrol m k => m.wf && k.wf
  | .keyRevoke m keyId => m.wf && decide (keyId < 2 ^ 64)
  | .repairClear m channels => m.wf && decide channels.Nodup
  | .diag m mode => m.wf && decide (mode < 2 ^ 32)
  | .lockstepMismatch => true
  | .zilsyRestart => true
  | .logMergeFlush => true
  | .powerWindow w => w.wf
  | .meterCorrection m => m.wf
  | .tjSample temps channels _ => decide (temps.length = 128) && decide (channels.length = 320)
  | .thermalRecoverStep => true
  | .marginTrim _ _ => true
  | .marginAlarm _ => true
  | .lendEnSet m _ _ => m.wf
  | .borrowerDrop _ lender => decide (lender < 16384)
  | .perstDeassertion => true
  | .hintWindowClose => true
  | .imageWatchdog t rowsWritten => t.wf && decide (rowsWritten ≤ 8192)

end Sys2Proof
end

