-- ==== Sys2Proof/Tests/Slice0.lean ====
section
/-! SUPPORT. Tests of this package: the well-formedness checks, what the spec's tables and worked examples fix, and for every statement a
state and operands that meet its hypotheses. -/

namespace Sys2Proof.Tests

set_option Elab.async false
set_option maxRecDepth 100000
set_option linter.unusedVariables false

open Sys2Proof Sys2Proof.Machine

/-! ## Small states -/

/-- A state with a block and an empty queue. -/
def on (b : Block) : State := { block := b, pending := [] }

/-- The state that a command leaves. -/
def nx (c : Instr) (s : State) : State :=
  match exec c s with
  | .next t => t
  | _ => s

/-- A Ready module under power, Zilsy answering, with an installer's key 5, an operator's key 6, a maker's key 4 and the nonce 7. -/
def live : Block :=
  { Block.reset with
    sys := { Block.reset.sys with vin := true, powerGood := true, startStep := 7, ready := true },
    flash := { Flash.reset with keys := [{ keyId := 5, role := 2, active := true, ed25519 := [], mlDsa := [] },
                                         { keyId := 6, role := 1, active := true, ed25519 := [], mlDsa := [] },
                                         { keyId := 4, role := 3, active := true, ed25519 := [], mlDsa := [] }] },
    zilsy := { Block.reset.zilsy with up := true, nonces := [(7, 0)] } }

/-- The value of an option that has one. -/
def the {α : Type} (o : Option α) (h : o.isSome = true) : α := o.get h

theorem the_eq {α : Type} (o : Option α) (h : o.isSome = true) : o = some (the o h) := by simp [the]

/-- The value of a computation that has one. -/
def okThe {ε α : Type} (e : Except ε α) (h : e.toOption.isSome = true) : α := e.toOption.get h

theorem okThe_eq {ε α : Type} (e : Except ε α) (h : e.toOption.isSome = true) : e = .ok (okThe e h) := by
  cases e with
  | error x => simp [Except.toOption] at h
  | ok x => rfl

/-- A signed command message. -/
def msg (key : Nat) : Envelope := { channel := .port 0, serial := 0, nonce := 7, keyId := key, ed25519Ok := true, mlDsaOk := true }

/-- Who signs with a key. -/
def who (role key : Nat) : Actor := { role := role, keyId := key, viaPcie := false }

/-- Words as bytes. -/
def words (l : List Nat) : List Byte := l.flatMap (leBytes 8)

/-- Bytes put in memory. -/
def put (b : Block) (a : Nat) (l : List Byte) : Block := { b with mem := memPutList b.rest b.mem a l }

/-- Slot 0 bound to job 9, whose first 2 MiB lie at the start of half A's Shelf. -/
def bound : Block :=
  { live with slots := { JobSlot.reset with
                           st := 1, job := 9,
                           pages := [(0, { target := 0x200000000, big := false, writable := true, noPrefetch := false, handle := 0 })] } ::
                       List.replicate 15 JobSlot.reset }

/-- A half's links with its census complete and its Isthmus Up. -/
def linked (e : Efing) (other : Nat) : Efing :=
  { e with census := 2, ports := List.replicate 9 Port.reset ++ [{ Port.reset with st := 2, nbrEndpoint := other }] }

/-- The module bound to job 9 in a domain of modules 0 and 1 whose censuses are complete. -/
def net : Block :=
  { bound with halfA := { bound.halfA with efing := linked bound.halfA.efing 1 },
               halfB := { bound.halfB with efing := linked bound.halfB.efing 0 },
               domain := { bound.domain with roster := [0, 1] }, regs := [(efReg .a 0x8001, 0x9F), (efReg .b 0x8000, 0x9F)] }

/-- A packet from half B to half A for job 9, as half B makes it. -/
def pk (cls op tag w2 : Nat) (l : List Byte) : Packet := (net.makePacket .b 0 9 cls op tag w2 0 l).1

/-- A graph of one task in memory: its header at VA 0x1000, its descriptor at 0x2000, its ring of 64 records at 0x10000. -/
def withGraph (b : Block) (desc : List Nat) : Block :=
  put (put b 0x200001000 (words [0x2000, 0x3000, 1, 9, 0x10000, 6, 0, 0])) 0x200002000 (words desc)

/-- A task descriptor of job 9 with no operands. -/
def desc (type : Nat) (params : List Word) : TaskDesc :=
  { index := 0, job := 9, operands := 0, gated := false, fnbValid := false, cls := 0, type := type, fnbTide := 0, outList := 0, outCount := 0,
    inTokens := 0, shapeOutCount := 0, shapeOutBase := 0, shapeInBase := 0, coveUnits := 0, banks := 0, clusterMask := 0, cores := 0,
    slots := [], params := params }

/-- A live graph of job 9 with its ring of 64 records at VA 0x10000. -/
def graphOf (cs : List TaskCtx) : Graph :=
  { makeGraph 0 (Header.empty 9) 0x1000 [] [] (.queue 0) 1 none with tasks := cs, ringBase := 0x10000, ringLog2 := 6 }

/-- A block whose half A holds a graph under ID 0. -/
def hosting (b : Block) (g : Graph) : Block := { b with halfA := { b.halfA with graphs := [(0, g)] } }

/-- Task 0 of that graph. -/
def task0 : TaskRef := { half := .a, graph := 0, task := 0 }

/-- A block whose half A holds one task, in a phase. -/
def holding (b : Block) (p : TaskPhase) (d : TaskDesc) : Block := hosting b (graphOf [{ freshCtx d [] with phase := p, fired := true }])

/-- A queue pair of 64 entries each way, enabled for job 9, its queues at IOVA 0x100000 and 0x200000. -/
def paired (b : Block) (p : QueuePair) : Block :=
  { b with pairs := p :: List.replicate 63 QueuePair.reset, regs := [(pairReg 0 0, 0x100000), (pairReg 0 8, 0x200000)] ++ b.regs }

/-- Such a pair. -/
def pair6 : QueuePair := { QueuePair.reset with enabled := true, job := 9, sqLog2 := 6, cqLog2 := 6 }

/-- A tensor's descriptor words and extents: rows of 64 bytes, planes of 4 KiB. -/
def ten (fmt base : Nat) (e : List Nat) : List Word × List Nat :=
  ([BitVec.ofNat 64 (base / 64 + fmt * 2 ^ 42), BitVec.ofNat 64 (e.getD 0 1 + e.getD 1 1 * 2 ^ 18 + e.getD 2 1 * 2 ^ 36),
    BitVec.ofNat 64 (e.getD 3 1 + e.getD 4 1 * 2 ^ 18 + 2 ^ 36), BitVec.ofNat 64 (1 + 4 * 2 ^ 20 + 16 * 2 ^ 40)],
    [0, 1, 2, 3, 4].map (fun i => e.getD i 1))

/-- A running task of a type with its parameters, cores and tensors. -/
def running (type : Nat) (params : List Word) (cores : List Nat) (ts : List (List Word × List Nat)) : TaskCtx :=
  { freshCtx { desc type params with operands := ts.length, cores := cores.length,
                                     slots := ts.map (fun _ => { role := 0, bound := 0, tdesc := 0x8000 }) } [] with
    phase := .running, fired := true, cores := cores, tdescs := ts.map (fun t => t.1), exts := ts.map (fun t => t.2) }

/-- A block whose half A runs such a task over bytes at VA 0x20000. -/
def runs (c : TaskCtx) (l : List Byte) : Block := put (hosting net (graphOf [c])) 0x200020000 l

/-- FP32 codes as bytes. -/
def fp32s (l : List Nat) : List Byte := l.flatMap (leBytes 4)

theorem wholeOf {b : Block} {shares : List (List Piece)} (h : ∀ ps ∈ shares, ∀ p ∈ ps, b.pieceStop p = none) :
    Whole b shares (shares.flatten.flatMap (fun p => p.out.toOption.getD [])) := ⟨h, rfl⟩

/-- The frames of an allocation that succeeds, and the block that it leaves. -/
theorem allocated {x : Allocation} (h : (match x with
    | .ok _ _ => true
    | .failed _ => false) = true) : x = .ok (match x with
    | .ok f _ => f
    | .failed _ => []) (match x with
    | .ok _ b => b
    | .failed _ => live) := by
  cases x with
  | ok f b => rfl
  | failed n => cases h

/-- A request of 64 bytes that task 0 waits for. -/
def reqTo (d : Destination) (a : Nat) : Request :=
  { dest := d, task := some task0, op := 1, addr := a, len := 64, issued := 0, data := List.replicate 64 7, upset := .none }

/-- A slot that a task does not have reads as stored plain. -/
theorem no_slot {c : TaskCtx} {i : Nat} (h : c.tdescs.length ≤ i) : (c.tensor i).comp ≠ 7 := by
  have e : c.tdescs.getD i [] = [] := List.getD_eq_default _ _ h
  simp only [TaskCtx.tensor, e, parseTensor]
  decide

/-! ## Witnesses: steps, the start, the host link and the registers -/

/-- A module under power at a step of its start. -/
def starting (n : Nat) : Block :=
  { Block.reset with sys := { Block.reset.sys with vin := true, powerGood := true, startStep := n } }

/-- A module under VIN alone. -/
def supplied : Block := { Block.reset with sys := { Block.reset.sys with vin := true } }

/-- Every Bay channel passes at 9,600 MT/s. -/
def bayFine : BayTraining :=
  { fast := List.replicate 64 { width := 200, height := 60 }, alone := [], slow := [], miscompares := [] }

/-- Shelf bonds without a fault. -/
def shelfFine : ShelfTraining := { faultsA := [], faultsB := [], eyesA := List.replicate 128 40, eyesB := List.replicate 128 40 }

/-- The module with BAR0's window over half A's engine registers. -/
def windowed : Block := { live with regs := [(pciReg 0x18, 0x1C)] }

theorem witness_EmptyQueueTick : ∃ (s : State), s.pending = [] :=
  ⟨on live, by decide +kernel⟩

theorem witness_EmptyQueueTick_off : ∃ (s : State), s.pending = [] :=
  ⟨State.reset, by decide +kernel⟩

theorem witness_EndpointNumbersFollowStraps : ∃ (s : State) (p : StrapSample), s.block.sys.vin = true ∧ s.block.sys.powerGood = false ∧ s.block.sys.standby = false :=
  ⟨on supplied, ⟨2047, 3⟩, by decide +kernel, by decide +kernel, by decide +kernel⟩

theorem witness_StartCommands_vin : ∃ (s : State), s.block.sys.vin = false :=
  ⟨State.reset, by decide +kernel⟩

theorem witness_StartCommands_powerGood : ∃ (s : State) (s0 : StrapSample) (s1 : StrapSample) (s2 : StrapSample), s.block.sys.vin = true ∧ s.block.sys.powerGood = false ∧ s.block.sys.standby = false :=
  ⟨on supplied, ⟨2047, 3⟩, ⟨2047, 0⟩, ⟨5, 3⟩, by decide +kernel, by decide +kernel, by decide +kernel⟩

theorem witness_StartCommands_zilsyBoot : ∃ (s : State) (isB : Bool) (x : FirmwareSlot), s.block.sys.startStep = 1 ∧ s.block.flash.bootSlot = some (isB, x) :=
  ⟨on (starting 1), (the (starting 1).flash.bootSlot (h := by decide +kernel)).1, (the (starting 1).flash.bootSlot (h := by decide +kernel)).2, by decide +kernel, the_eq _ (by decide +kernel)⟩

theorem witness_StartCommands_imageSelect : ∃ (s : State) (isB : Bool) (c : ConfigSlot) (n : Nat), s.block.sys.startStep = 2 ∧ s.block.chooseSlot = some (isB, c, n) :=
  ⟨on (starting 2), (the (starting 2).chooseSlot (h := by decide +kernel)).1, (the (starting 2).chooseSlot (h := by decide +kernel)).2.1, (the (starting 2).chooseSlot (h := by decide +kernel)).2.2, by decide +kernel, the_eq _ (by decide +kernel)⟩

theorem witness_StartCommands_bay : ∃ (s : State) (r : BayTraining), s.block.sys.startStep = 3 ∧ ((∀ h, (s.block.retired r (s.block.slowBay r) h).length ≤ s.block.regFld (bayReg h 0x18) 15 8)) :=
  ⟨on (starting 3), bayFine, by decide +kernel, by intro h; cases h <;> decide +kernel⟩

theorem witness_StartCommands_shelf : ∃ (s : State) (r : ShelfTraining), s.block.sys.startStep = 4 ∧ s.block.shelfDead .a r.faultsA = false ∧ s.block.shelfDead .b r.faultsB = false :=
  ⟨on (starting 4), shelfFine, by decide +kernel, by decide +kernel, by decide +kernel⟩

theorem witness_StartCommands_isthmus : ∃ (s : State) (faults : List WireFault), s.block.sys.startStep = 4 ∧ wiresDead faults = false ∧ ((∀ h, 10 ≤ (s.block.half h).efing.ports.length)) :=
  ⟨on (starting 4), [], by decide +kernel, by decide +kernel, by intro h; cases h <;> decide +kernel⟩

theorem witness_StartCommands_selfTest : ∃ (s : State) (failing : List (Fin 80)), s.block.sys.startStep = 5 :=
  ⟨on (starting 5), [0, 41, 79], by decide +kernel⟩

theorem witness_StartCommands_ready : ∃ (s : State), s.block.sys.startStep = 6 :=
  ⟨on (starting 6), by decide +kernel⟩

theorem witness_HostLinkCommands_read : ∃ (s : State) (d : Fin 1024), s.block.sys.powerGood = true ∧ s.block.sys.perst = false :=
  ⟨on live, 2, by decide +kernel, by decide +kernel⟩

theorem witness_HostLinkCommands_write : ∃ (s : State) (d : Fin 1024) (v : BitVec 32), s.block.sys.powerGood = true ∧ s.block.sys.perst = false :=
  ⟨on live, Fin.ofNat 1024 Config.barWord, 0xFFFFFFFF, by decide +kernel, by decide +kernel⟩

theorem witness_HostLinkCommands_linkUp : ∃ (s : State) (r : LinkRate) (w : LinkWidth) (f : Bool), s.block.sys.powerGood = true ∧ s.block.sys.perst = false :=
  ⟨on live, .gt64, .x16, false, by decide +kernel, by decide +kernel⟩

theorem witness_HostLinkCommands_flr : ∃ (s : State) (c : Instr), (c = .perst ∨ c = .hotReset ∨ c = .linkDown ∨ c = .flr) :=
  ⟨on { live with regs := [(pciReg 8, 5), (pciReg 0x20, 3), (pciReg 0x28, 9)] }, .flr, by decide +kernel⟩

theorem witness_HostLinkCommands_perst : ∃ (s : State) (c : Instr), (c = .perst ∨ c = .hotReset ∨ c = .linkDown ∨ c = .flr) :=
  ⟨on { live with regs := [(pciReg 8, 5), (pciReg 0x20, 3), (pciReg 0x28, 9)] }, .perst, by decide +kernel⟩

theorem witness_HostLinkCommands_bar2Read : ∃ (s : State) (offset : Nat) (len : Nat) (a : Nat), s.block.barAddr offset len = some a ∧ s.block.firstBad a len = none :=
  ⟨on live, 0x3FFFFFFF, 1, 0x23FFFFFFF, by decide +kernel, by decide +kernel⟩

theorem witness_HostLinkCommands_bar2Write : ∃ (s : State) (offset : Nat) (a : Nat) (data : List Byte) (cells : List Host.Cell), s.block.barAddr offset data.length = some a ∧ cells = (data.zip (List.range data.length)).map (fun p => (a + p.2, p.1)) :=
  ⟨on live, 0x3FFFFFFF, 0x23FFFFFFF, [5], _, by decide +kernel, rfl⟩

theorem witness_HostLinkCommands_unreached : ∃ (s : State) (offset : Nat) (len : Nat) (data : List Byte), s.block.barAddr offset len = none ∧ data.length = len :=
  ⟨on live, 0x3FFFFFFF, 2, [5, 6], by decide +kernel, by decide +kernel⟩

theorem witness_PlainRegisterWrites : ∃ (s : State) (p : Path) (c : Instr) (addr : Nat) (v : Word) (w : Word) (a : Actor) (x : Block) (r : RegRow), ((c = .registerWrite p addr v ∨ ∃ m, p = .zilsy m ∧ c = .write m addr v)) ∧ Arrives s.block p [1, 2, 3] a x ∧ s.block.sys.powerGood = true ∧ ((p = .host → s.block.windowReaches addr = true)) ∧ regRow addr = some r ∧ ((r.rw ≠ 0 ∨ r.w1c ≠ 0)) ∧ r.rwi = 0 ∧ addr < zilReg 0 ∧ (offIn addr 0x140000 0x180000 && addr % 4 = 0) = false ∧ a.role ∈ x.writeRoles addr v ∧ ((∀ k, slotOnly addr = some k → (x.slot k).st = 0)) ∧ x.halfCommand a addr v = none ∧ x.moduleCommand a addr r v = none ∧ inRanges r v = true ∧ x.fitValue addr v = some w :=
  ⟨on windowed, .host, .registerWrite .host (efReg .a 8) 0xFFFFFF0100001388, efReg .a 8, 0xFFFFFF0100001388, the (windowed.fitValue (efReg .a 8) 0xFFFFFF0100001388) (by decide +kernel), hostActor, windowed, the (regRow (efReg .a 8)) (by decide +kernel), .inl rfl, ⟨by decide, by decide, rfl, rfl⟩, by decide +kernel, by decide +kernel, the_eq _ _, by decide +kernel, by decide +kernel, by decide +kernel, by decide +kernel, by decide +kernel, by decide +kernel, by decide +kernel, by decide +kernel, by decide +kernel, the_eq _ _⟩

theorem witness_InstallerFieldsRefuseOthers : ∃ (s : State) (p : Path) (addr : Nat) (v : Word) (a : Actor) (x : Block) (r : RegRow), Arrives s.block p [1, 2, 3] a x ∧ s.block.sys.powerGood = true ∧ ((p = .host → s.block.windowReaches addr = true)) ∧ regRow addr = some r ∧ r.rwi ≠ 0 ∧ a.role ≠ 2 :=
  ⟨on windowed, .host, bayReg .a 0x18, 0x402, hostActor, windowed, the (regRow (bayReg .a 0x18)) (by decide +kernel), ⟨by decide, by decide, rfl, rfl⟩, by decide +kernel, by decide +kernel, the_eq _ _, by decide +kernel, by decide +kernel⟩

theorem witness_InstallerFieldsRefuseOthers_taken : ∃ (s : State) (m : Envelope) (addr : Nat) (v : Word) (w : Word) (a : Actor) (x : Block) (r : RegRow), Arrives s.block (.zilsy m) [1, 2, 3] a x ∧ s.block.sys.powerGood = true ∧ regRow addr = some r ∧ r.rwi ≠ 0 ∧ a.role = 2 ∧ x.halfCommand a addr v = none ∧ inRanges r v = true ∧ x.fitValue addr v = some w ∧ s.block.flash.audit.length < 64512 :=
  ⟨on live, msg 5, bayReg .a 0x18, 0x8FF, the ((live.useNonce 7).fitValue (bayReg .a 0x18) 0x8FF) (by decide +kernel), who 2 5, live.useNonce 7, the (regRow (bayReg .a 0x18)) (by decide +kernel), ⟨by decide +kernel, by decide +kernel, by decide +kernel, rfl⟩, by decide +kernel, the_eq _ _, by decide +kernel, by decide +kernel, by decide +kernel, by decide +kernel, the_eq _ _, by decide +kernel⟩

theorem witness_ReadAnswersRegisters : ∃ (s : State) (m : Envelope) (addrs : List Nat) (a : Actor) (x : Block), Arrives s.block (.zilsy m) [1, 2, 3] a x :=
  ⟨on live, msg 6, [efReg .a 8], who 1 6, live.useNonce 7, ⟨by decide +kernel, by decide +kernel, by decide +kernel, rfl⟩⟩

theorem witness_ReadAnswersRegisters_unverified : ∃ (s : State) (m : Envelope) (addrs : List Nat), s.block.hears m.channel = true ∧ s.block.verify m = none :=
  ⟨on live, msg 8, [efReg .a 8], by decide +kernel, by decide +kernel⟩

/-! ## Well-formedness: an ill-formed term for each check, which the check refuses -/

/-- A well-formed envelope, and tasks whose numbers are too wide. -/
def env0 : Envelope := { channel := .mailbox, serial := 0, nonce := 0, keyId := 0, ed25519Ok := true, mlDsaOk := true }
def wideGraph : TaskRef := { half := .a, graph := 4096, task := 0 }
def wideTask : TaskRef := { half := .a, graph := 0, task := 2 ^ 20 }

/-- A packet of 4,097 bytes of payload. -/
def longPacket : Packet := { w0 := 0, w1 := 0, w2 := 0, w3 := 0, payload := List.replicate 4097 0 }

/-- A line request and an adder request that are well formed, and outcomes that are. -/
def line0 : LineRequest := { linkCe := 0, addr := 0x200000000, len := 64, data := none, task := none, upset := .none }
def add0 : AddRequest := { addr := 0, op := 0, format := 0, data := [0, 0, 0, 0], task := none, upset := .none }
def eyes64 : List BayEye := List.replicate 64 { width := 200, height := 50 }
def bay0 : BayTraining := { fast := eyes64, alone := eyes64, slow := eyes64, miscompares := [] }
def shelf0 : ShelfTraining := { faultsA := [], faultsB := [], eyesA := List.replicate 128 40, eyesB := List.replicate 128 40 }
def power0 : PowerSample := { core := List.replicate 80 (List.replicate 48 0), uncore := [], issued := 0 }
def meter0 : MeterSample := { vin := 0, iin := 0, pin := 0, rails := [] }
def key0 : KeyBody := { role := 1, ed25519 := List.replicate 32 0, mlDsa := List.replicate 1952 0 }
def tgLine (n : Nat) : TgLine := { line := n, word := 0, xor := 1, upset := .none }
def lanes0 : VecFields := { etype := 16, dst := 0, srcA := 0, srcB := 0, srcC := 0, imm := 0 }

theorem wf_accepts : (Instr.token task0).wf = true ∧ env0.wf = true ∧ line0.wf = true ∧ add0.wf = true ∧ bay0.wf = true ∧ shelf0.wf = true ∧
    power0.wf = true ∧ meter0.wf = true ∧ key0.wf = true := by decide +kernel

theorem wf_task : (Instr.token wideGraph).wf = false ∧ (Instr.matrix wideTask none).wf = false ∧
    (Instr.cancellation task0 (2 ^ 20)).wf = false := by decide

theorem wf_packet : (Instr.ebb .a longPacket).wf = false ∧
    (Instr.linkGroup .a 0 { control := 0, correctable := true, corrected := 0, packets := [longPacket] }).wf = false := by decide +kernel

theorem wf_envelope : (Instr.commit { env0 with serial := 2 ^ 128 }).wf = false ∧ (Instr.commit { env0 with nonce := 2 ^ 128 }).wf = false ∧
    (Instr.slackWake (.zilsy { env0 with keyId := 2 ^ 64 })).wf = false := by decide +kernel

theorem wf_source : (Instr.graphAdmit .a (.queue 64) 0).wf = false ∧ (Instr.graphAdmit .a (.efing 16384) 0).wf = false ∧
    (Instr.graphAdmit .a (.launch wideGraph) 0).wf = false := by decide

theorem wf_destination : (Instr.tagGrant .a (.cove 80)).wf = false ∧ (Instr.tagGrant .a (.shelf .a 128)).wf = false ∧
    (Instr.tagGrant .a (.bay .b 32)).wf = false ∧ (Instr.tagGrant .a (.endpoint 16384)).wf = false := by decide

theorem wf_bay_training : (Instr.bayTrainingDone { bay0 with fast := [] }).wf = false ∧ (Instr.bayTrainingDone { bay0 with alone := [] }).wf = false ∧
    (Instr.bayTrainingDone { bay0 with slow := [] }).wf = false ∧ (Instr.bayTrainingDone { bay0 with miscompares := [3, 3] }).wf = false := by
  decide +kernel

theorem wf_shelf_training : (Instr.shelfTrainingDone { shelf0 with faultsB := [(132, 0)] }).wf = false ∧
    (Instr.shelfTrainingDone { shelf0 with eyesA := [] }).wf = false ∧ (Instr.shelfTrainingDone { shelf0 with eyesB := [] }).wf = false := by
  decide +kernel

theorem wf_distinct : (Instr.isthmusTrainingDone [{ dir := .a, group := 0, wire := 0 }, { dir := .a, group := 0, wire := 0 }]).wf = false ∧
    (Instr.selfTestDone [1, 1]).wf = false ∧ (Instr.taskFire task0 [1, 1] .none).wf = false ∧
    (Instr.portTrainingDone .a 0 [2, 2] 0).wf = false ∧ (Instr.portRetrainDone .a 0 [2, 2] 0).wf = false ∧
    (Instr.scrubRead .a [(0, .corrected), (0, .corrected)]).wf = false ∧ (Instr.repairClear env0 [1, 1]).wf = false := by decide +kernel

theorem wf_shelf_request : (Instr.homeRequest .a { line0 with len := 32 }).wf = false ∧
    (Instr.homeRequest .a { line0 with addr := 0x200000040, len := 512 }).wf = false ∧
    (Instr.homeRequest .a { line0 with data := some [0] }).wf = false ∧
    (Instr.homeRequest .a { line0 with task := some wideGraph }).wf = false := by decide +kernel

theorem wf_line_request : (Instr.homeRequest .a { line0 with addr := 0x8000000000, len := 0 }).wf = false ∧
    (Instr.homeRequest .a { line0 with addr := 0x8000000001, len := 64 }).wf = false := by decide +kernel

theorem wf_adder : (Instr.memoryAdd .a { add0 with op := 3 }).wf = false ∧ (Instr.memoryAdd .a { add0 with data := [] }).wf = false ∧
    (Instr.memoryAdd .a { add0 with addr := 62 }).wf = false ∧ (Instr.memoryAdd .a { add0 with task := some wideTask }).wf = false := by
  decide +kernel

theorem wf_bar2 : (Instr.bar2Read (2 ^ 36) 1).wf = false ∧ (Instr.bar2Read 0 0).wf = false ∧ (Instr.bar2Read 0 4097).wf = false ∧
    (Instr.bar2Write (2 ^ 36) [0] false).wf = false ∧ (Instr.bar2Write 0 [] false).wf = false ∧
    (Instr.bar2Write 0 (List.replicate 4097 0) false).wf = false := by decide +kernel

theorem wf_register : (Instr.registerWrite .host 0x3FFFFFF8 0).wf = false ∧ (Instr.registerWrite .host 0x80000000 0).wf = false ∧
    (Instr.write env0 0 0).wf = false ∧ (Instr.write env0 0x80000000 0).wf = false ∧ (Instr.read env0 [0]).wf = false ∧
    (Instr.read env0 [0x80000000]).wf = false := by decide +kernel

theorem wf_tag : (Instr.requestResponse .a 16384 0 []).wf = false ∧ (Instr.requestResponse .a 0 65536 []).wf = false ∧
    (Instr.requestResponse .a 0 0 (List.replicate 4097 0)).wf = false ∧ (Instr.farDeadlineExpiry .a 16384).wf = false := by decide +kernel

theorem wf_rows : (Instr.jobSlotBind .host 0 9 [{ va := 2 ^ 27, target := 0, big := false, writable := true, noPrefetch := false }]).wf = false ∧
    (Instr.jobSlotBind .host 0 9 [{ va := 0, target := 2 ^ 64, big := false, writable := true, noPrefetch := false }]).wf = false ∧
    (Instr.sqDoorbell 0 0 [(2 ^ 60, 0)]).wf = false := by decide +kernel

theorem wf_engines : (Instr.taskEnd task0 [{ core := 0, engine := 0, cause := 0, cycles := 2 ^ 64 }]).wf = false ∧
    (Instr.dbgHaltReached 0 { tile := 0, group := 2 ^ 18 }).wf = false ∧ (Instr.add 0 lanes0).wf = false ∧
    (Instr.rowsReady task0 (2 ^ 32)).wf = false := by decide +kernel

theorem wf_generator : (Instr.tgDone .a 0 { lines := [tgLine (2 ^ 28)] }).wf = false ∧
    (Instr.tgDone .a 0 { lines := [tgLine 5, tgLine 4] }).wf = false := by decide +kernel

theorem wf_pending : (Instr.pendingReap .a 9 (2 ^ 32) 0).wf = false ∧ (Instr.pendingReap .a 9 0 (2 ^ 32)).wf = false ∧
    (Instr.borrowerDrop .a 16384).wf = false := by decide +kernel

theorem wf_watchdogs : (Instr.frameWatchdog task0 65536 0).wf = false ∧ (Instr.frameWatchdog task0 0 8193).wf = false ∧
    (Instr.imageWatchdog task0 8193).wf = false := by decide +kernel

theorem wf_times : (Instr.sync .a 0 (2 ^ 64)).wf = false ∧ (Instr.echo .a 0 (2 ^ 64) 0 0 true 0).wf = false ∧
    (Instr.echo .a 0 0 (2 ^ 64) 0 true 0).wf = false ∧ (Instr.echo .a 0 0 0 (2 ^ 64) true 0).wf = false ∧
    (Instr.echo .a 0 0 0 0 true 16).wf = false ∧ (Instr.ptpTime .a (2 ^ 64)).wf = false := by decide +kernel

theorem wf_zilsy : (Instr.nonce .mailbox (2 ^ 128)).wf = false ∧ (Instr.nonceExpiry (2 ^ 128)).wf = false ∧
    (Instr.readLog env0 (2 ^ 64) 0).wf = false ∧ (Instr.readAudit env0 (2 ^ 64) 0).wf = false ∧ (Instr.attest env0 (2 ^ 256)).wf = false ∧
    (Instr.keyRevoke env0 (2 ^ 64)).wf = false ∧ (Instr.diag env0 (2 ^ 32)).wf = false := by decide +kernel

theorem wf_staging : (Instr.stageBegin env0 (2 ^ 32) 0).wf = false ∧ (Instr.stageBegin env0 1 (2 ^ 32)).wf = false ∧
    (Instr.stageData .mailbox (2 ^ 32) []).wf = false ∧ (Instr.stageData .mailbox 0 (List.replicate 16321 0)).wf = false ∧
    (Instr.stageApply env0 { ed25519Ok := true, mlDsaOk := true, svn := 2 ^ 16, raiseFloor := false }).wf = false := by decide +kernel

theorem wf_key : (Instr.keyEnrol env0 { key0 with role := 256 }).wf = false ∧ (Instr.keyEnrol env0 { key0 with ed25519 := [] }).wf = false ∧
    (Instr.keyEnrol env0 { key0 with mlDsa := [] }).wf = false := by decide +kernel

theorem wf_power : (Instr.powerWindow { power0 with core := [] }).wf = false ∧ (Instr.powerWindow { power0 with core := List.replicate 80 [] }).wf = false ∧
    (Instr.powerWindow { power0 with uncore := [[(17, 0, 0)]] }).wf = false ∧ (Instr.powerWindow { power0 with issued := 65 }).wf = false := by
  decide +kernel

theorem wf_meter : (Instr.meterCorrection { meter0 with vin := 2 ^ 16 }).wf = false ∧ (Instr.meterCorrection { meter0 with iin := 2 ^ 24 }).wf = false ∧
    (Instr.meterCorrection { meter0 with pin := 2 ^ 24 }).wf = false ∧
    (Instr.meterCorrection { meter0 with rails := List.replicate 17 (0, 0) }).wf = false ∧
    (Instr.meterCorrection { meter0 with rails := [(2 ^ 16, 0)] }).wf = false ∧
    (Instr.meterCorrection { meter0 with rails := [(0, 2 ^ 24)] }).wf = false := by decide +kernel

theorem wf_temperatures : (Instr.tjSample [] (List.replicate 320 0) none).wf = false ∧ (Instr.tjSample (List.replicate 128 0) [] none).wf = false := by
  decide +kernel

/-! ## The spec's worked examples -/

/-- 04, four small addends: 1.0 and four times 2^-24, with compensation 1 + 2^-22, without it 1.0. -/
theorem test_four_small_addends :
    sumEnd ((List.replicate 4 0x33800000).foldl (sumStep false) (0x3F800000, 0)) = 0x3F800002 ∧
      sumEnd ((List.replicate 4 0x33800000).foldl (sumStep true) (0x3F800000, 0)) = 0x3F800000 := by decide +kernel

/-- 04, the compensations after its first three groups: -2^-24, 0, 2^-24. -/
theorem test_four_small_addends_compensations :
    [1, 2, 3].map (fun n => ((List.replicate n 0x33800000).foldl (sumStep false) (0x3F800000, 0)).2) = [0xB3800000, 0, 0x33800000] := by
  decide +kernel

/-- 13, one block, four ranks: the block at positions 0 and 3. -/
theorem test_one_block_four_ranks :
    let p (x : Nat) : Shared := (packShared [x, 0] 130 0).1
    let b0 := (packShared [0x41180000, 0x3B200000] 130 0).1
    let b3 := (linkW16 (linkW16 (linkW16 b0 (p 0x40E80000)).1 (p 0x40C00000)).1 (p 0xC0400000)).1
    b0.ms = [19456, 5] ∧ b3 = { ms := [20224, 2], e := 131, nf := false, rescales := 1 } := by decide +kernel

/-- 05, ranked choices of four tokens over four experts of two slots: the counts without and with SPILL = 1. -/
theorem test_routing_spills :
    let choices := [[2, 0, 1], [2, 1, 3], [2, 3, 0], [0, 2, 1]]
    let d (next : Nat) := desc 0x03 [0, BitVec.ofNat 64 (4 * 2 ^ 37 + 2 * 2 ^ 33 + 2 * 2 ^ 15 + 2 ^ 11 + next * 2 ^ 7)]
    (routeAll (d 0) choices).counts = [2, 1, 2, 1] ∧ (routeAll (d 1) choices).counts = [2, 2, 2, 1] ∧
      tabFind (routeAll (d 1) choices).entries (8 * 3 + 1) = some { e := 1, assigned := true, spilled := true, slot := 1 } ∧
      tabFind (routeAll (d 1) choices).entries (8 * 2 + 0) = none := by decide +kernel

/-! ## Witnesses: queue pairs, graphs and the life of a task -/

/-- The graph of one Tide wait, in memory. -/
def sub : Block := withGraph net [0x9040C]

/-- A submission entry of that graph. -/
def subEntry : List Byte := words [0x1000, 0x0000000500000000 + 0x1000000, 0, 0, 0, 0, 0, 0]

/-- A no-op entry. -/
def nopEntry : List Byte := words [0, 0x0000000500000000 + 0x2000000, 0, 0, 0, 0, 0, 0]

/-- The graph, checked and waiting. -/
def waiter : WaitingGraph :=
  { source := .efing 1, graph := graphOf [freshCtx (desc 0x0C []) []], tag := 5, sqIndex := 0, seq := 0, again := false, checked := true }

/-- A block with that graph waiting on half A. -/
def waits : Block := { net with halfA := { net.halfA with waiting := [waiter], submitted := 1 } }

theorem witness_QueuePairCommands_create : ∃ (s : State) (q : Fin 64) (v : Word), Shaped s.block ∧ s.block.sys.ready = true ∧ (s.block.pair q.val).enabled = false ∧ 6 ≤ fld v 35 32 ∧ fld v 35 32 ≤ 15 ∧ 6 ≤ fld v 31 27 ∧ fld v 31 27 ≤ 20 :=
  ⟨on net, 0, 0x0000000660000000#64 ||| (0x0000900000000000 <<< 0), by simp only [Shaped]; decide +kernel, by decide +kernel, by decide +kernel, by decide +kernel, by decide +kernel, by decide +kernel, by decide +kernel⟩

theorem witness_QueuePairCommands_destroy : ∃ (s : State) (q : Fin 64), s.block.sys.ready = true ∧ (s.block.pair q.val).enabled = true ∧ (s.block.pair q.val).fetched = none :=
  ⟨on (paired net pair6), 0, by decide +kernel, by decide +kernel, by decide +kernel⟩

theorem witness_QueuePairCommands_doorbell : ∃ (s : State) (q : Fin 64) (tail : BitVec 32) (w : List (Nat × Byte)), s.block.sys.ready = true ∧ (s.block.pair q.val).enabled = true ∧ tail.toNat % 65536 < 2 ^ (s.block.pair q.val).sqLog2 :=
  ⟨on (paired net pair6), 0, 63, [(0x100000, 7)], by decide +kernel, by decide +kernel, by decide +kernel⟩

theorem witness_QueuePairCommands_fetch : ∃ (s : State) (q : Fin 64) (l : List Byte), s.block.mayFetch q.val = true ∧ s.block.census = 2 ∧ l = s.block.hostBytes (s.block.regFld (pairReg q.val 0) 59 12 * 4096 + 64 * (s.block.pair q.val).sqHead) 64 ∧ entryFault l = none :=
  ⟨on { paired net { pair6 with sqTail := 1 } with hostMem := hostPutList [] 0x100000 nopEntry }, 0, _, by decide +kernel, by decide +kernel, rfl, by decide +kernel⟩

theorem witness_QueuePairCommands_submit : ∃ (s : State) (q : Fin 64) (i : Nat) (l : List Byte) (h : HalfId) (g : Graph), (s.block.pair q.val).fetched = some (i, l) ∧ bits (u64At l 8) 31 24 = 1 ∧ h = halfOf (b2n (bit (u64At l 8) 0)) ∧ NoneWaits s.block h (.queue q.val) ∧ s.block.checkGraph h (s.block.pair q.val).job (u64At l 0) (.queue q.val) 1 none = .ok g :=
  ⟨on (paired sub { pair6 with fetched := some (3, subEntry) }), 0, 3, subEntry, .a, okThe ((paired sub { pair6 with fetched := some (3, subEntry) }).checkGraph .a 9 0x1000 (.queue 0) 1 none) (by decide +kernel), by decide +kernel, by decide +kernel, by decide +kernel, by simp only [NoneWaits]; decide +kernel, okThe_eq _ _⟩

theorem witness_QueuePairCommands_behind : ∃ (s : State) (q : Fin 64) (i : Nat) (l : List Byte) (h : HalfId), (s.block.pair q.val).fetched = some (i, l) ∧ bits (u64At l 8) 31 24 = 1 ∧ h = halfOf (b2n (bit (u64At l 8) 0)) ∧ ¬ NoneWaits s.block h (.queue q.val) :=
  ⟨on (paired { waits with halfA := { waits.halfA with waiting := [{ waiter with source := .queue 0 }] } } { pair6 with fetched := some (3, subEntry) }), 0, 3, subEntry, .a, by decide +kernel, by decide +kernel, by decide +kernel, by intro h; exact h { waiter with source := .queue 0 } (List.mem_singleton.2 rfl) rfl⟩

theorem witness_QueuePairCommands_noOp : ∃ (s : State) (q : Fin 64) (i : Nat) (l : List Byte), (s.block.pair q.val).fetched = some (i, l) ∧ bits (u64At l 8) 31 24 = 2 ∧ (s.block.pair q.val).enabled = true ∧ (s.block.pair q.val).cqHeld < 2 ^ (s.block.pair q.val).cqLog2 :=
  ⟨on (paired net { pair6 with fetched := some (3, nopEntry), cqHeld := 63 }), 0, 3, nopEntry, by decide +kernel, by decide +kernel, by decide +kernel, by decide +kernel⟩

theorem witness_QueuePairCommands_head : ∃ (s : State) (q : Fin 64) (head : BitVec 32) (hd : Nat) (n : Nat), s.block.sys.ready = true ∧ (s.block.pair q.val).enabled = true ∧ headWrite (2 ^ (s.block.pair q.val).cqLog2) (s.block.pair q.val).cqHead (s.block.pair q.val).cqHeld (head.toNat % 2 ^ 20) = some (hd, n) :=
  ⟨on (paired net { pair6 with cqHeld := 2, cqHead := 62, cqTail := 0 }), 0, 63, 63, 1, by decide +kernel, by decide +kernel, by decide +kernel⟩

theorem witness_QueuePairCommands_timer : ∃ (s : State) (q : Fin 64), (s.block.pair q.val).enabled = true ∧ 0 < (s.block.pair q.val).unsignalled ∧ (s.block.pair q.val).firstUnsignalled + (s.block.pair q.val).coalUs * 1000 ≤ s.block.tide .a :=
  ⟨on (paired net { pair6 with unsignalled := 1 }), 0, by decide +kernel, by decide +kernel, by decide +kernel⟩

theorem witness_GraphAndTokenCommands_submit : ∃ (s : State) (h : HalfId) (p : Packet) (g : Graph), Admits s.block h p 0 [0x20] ∧ p.payload = [] ∧ NoneWaits s.block h (.efing (pkSrc p)) ∧ ((s.block.unbuffer h p).takeSeq h p).checkGraph h (pkJob p) p.w2.toNat (.efing (pkSrc p)) 1 none = .ok g :=
  ⟨on sub, .a, pk 0 0x20 5 0x1000 [], okThe (((sub.unbuffer .a (pk 0 0x20 5 0x1000 [])).takeSeq .a (pk 0 0x20 5 0x1000 [])).checkGraph .a 9 0x1000 (.efing 1) 1 none) (by decide +kernel), by simp only [Admits]; decide +kernel, by decide +kernel, by simp only [NoneWaits]; decide +kernel, okThe_eq _ _⟩

theorem witness_GraphAndTokenCommands_admit : ∃ (s : State) (h : HalfId) (src : SourceId) (gid : Fin 4096) (w : WaitingGraph), (s.block.half h).waiting.find? (fun w => w.source = src) = some w ∧ w.checked = true ∧ s.block.bindingFault w.graph.job w.graph.job = none ∧ s.block.graph h gid.val = none ∧ s.block.contextsUsed h + w.graph.tasks.length ≤ 524288 ∧ s.block.stepAdmits h w = true ∧ ((∀ q, src = .queue q → (s.block.pair q).enabled = true → (s.block.pair q).cqHeld < 2 ^ (s.block.pair q).cqLog2)) :=
  ⟨on waits, .a, .efing 1, 4095, waiter, by decide +kernel, by decide +kernel, by decide +kernel, by decide +kernel, by decide +kernel, by decide +kernel, by intro q h; cases h⟩

theorem witness_GraphAndTokenCommands_token : ∃ (s : State) (k : TaskRef) (cancel : Option Nat) (c : TaskCtx) (i : Instr), i = (match cancel with | none => .token k | some o => .cancellation k o) ∧ s.block.task k = some c ∧ c.received < c.desc.inTokens :=
  ⟨on (holding net .waiting { desc 0x0C [] with inTokens := 1 }), task0, none, the ((holding net .waiting { desc 0x0C [] with inTokens := 1 }).task task0) (by decide +kernel), .token task0, by decide +kernel, the_eq _ _, by decide +kernel⟩

theorem witness_GraphAndTokenCommands_cancel : ∃ (s : State) (k : TaskRef) (cancel : Option Nat) (c : TaskCtx) (i : Instr), i = (match cancel with | none => .token k | some o => .cancellation k o) ∧ s.block.task k = some c ∧ c.received < c.desc.inTokens :=
  ⟨on (holding net .waiting { desc 0x0C [] with inTokens := 1 }), task0, some 7, the ((holding net .waiting { desc 0x0C [] with inTokens := 1 }).task task0) (by decide +kernel), .cancellation task0 7, by decide +kernel, the_eq _ _, by decide +kernel⟩

theorem witness_GraphAndTokenCommands_excess : ∃ (s : State) (k : TaskRef) (c : TaskCtx) (i : Instr), ((i = .token k ∨ ∃ o, i = .cancellation k o)) ∧ s.block.task k = some c ∧ c.desc.inTokens ≤ c.received :=
  ⟨on (holding net .waiting (desc 0x0C [])), task0, the ((holding net .waiting (desc 0x0C [])).task task0) (by decide +kernel), .token task0, .inl rfl, the_eq _ _, by decide +kernel⟩

theorem witness_GraphAndTokenCommands_fnb : ∃ (s : State) (k : TaskRef) (g : Graph) (c : TaskCtx), s.block.graph k.half k.graph = some g ∧ s.block.task k = some c ∧ c.phase = .waiting ∧ c.desc.inTokens ≤ c.received ∧ c.cancels = 0 ∧ c.desc.fnbTide ≤ s.block.tide k.half ∧ ((c.desc.gated = false ∨ (s.block.verdictOf k.half g.slot g.step).isSome = true)) ∧ (s.block.slot g.slot).st = 1 :=
  ⟨on (holding net .waiting { desc 0x0C [] with fnbValid := true }), task0, the ((holding net .waiting { desc 0x0C [] with fnbValid := true }).graph .a 0) (by decide +kernel), the ((holding net .waiting { desc 0x0C [] with fnbValid := true }).task task0) (by decide +kernel), the_eq _ _, the_eq _ _, by decide +kernel, by decide +kernel, by decide +kernel, by decide +kernel, by decide +kernel, by decide +kernel⟩

theorem witness_GraphAndTokenCommands_age : ∃ (s : State) (k : TaskRef) (c : TaskCtx), s.block.task k = some c ∧ c.phase = .ready ∧ s.block.regFld (safReg k.half 0x10) 29 0 ≠ 0 ∧ c.readyTide + s.block.regFld (safReg k.half 0x10) 29 0 ≤ s.block.tide k.half :=
  ⟨on { holding net .ready (desc 0x0C []) with halfA := { (holding net .ready (desc 0x0C [])).halfA with tide := { net.halfA.tide with now := 0x3FFFFFFF } } }, task0, the ((holding net .ready (desc 0x0C [])).task task0) (by decide +kernel), the_eq _ _, by decide +kernel, by decide +kernel, by decide +kernel⟩

theorem witness_GraphAndTokenCommands_head : ∃ (s : State) (h : HalfId) (gid : Fin 4096) (v : Word) (g : Graph) (hd : Nat) (n : Nat), s.block.graph h gid.val = some g ∧ g.queue = none ∧ headWrite (2 ^ g.ringLog2) g.head g.held (v.toNat % 2 ^ 20) = some (hd, n) :=
  ⟨on (hosting net { graphOf [] with held := 3, head := 62 }), .a, 0, 1, { graphOf [] with held := 3, head := 62 }, 1, 0, by decide +kernel, by decide +kernel, by decide +kernel⟩

theorem witness_GraphAndTokenCommands_launch : ∃ (s : State) (k : TaskRef) (g : Graph) (n : Graph) (c : TaskCtx) (d : TaskCtx), Runs s.block k 0x0B g c ∧ c.stage = 0 ∧ NoneWaits s.block k.half (.launch k) ∧ d = { c with stage := 4, sent := (s.block.half k.half).submitted + 1 } ∧ (s.block.modTask k (fun _ => d)).checkGraph k.half g.job (c.desc.param 0).toNat (.launch k) (g.depth + 1) (some k) = .ok n :=
  ⟨on (holding sub .running (desc 0x0B [0x1000])), task0, the ((holding sub .running (desc 0x0B [0x1000])).graph .a 0) (by decide +kernel), okThe (((holding sub .running (desc 0x0B [0x1000])).modTask task0 (fun c => { c with stage := 4, sent := 1 })).checkGraph .a 9 0x1000 (.launch task0) 2 (some task0)) (by decide +kernel), the ((holding sub .running (desc 0x0B [0x1000])).task task0) (by decide +kernel), _, by simp only [Runs]; decide +kernel, by decide +kernel, by simp only [NoneWaits]; decide +kernel, rfl, okThe_eq _ _⟩

theorem witness_GraphAndTokenCommands_done : ∃ (s : State) (k : TaskRef) (g : Graph) (c : TaskCtx), Runs s.block k 0x0B g c ∧ (c.stage = 2 ∨ c.stage = 3) :=
  ⟨on (hosting net (graphOf [{ freshCtx (desc 0x0B [0x1000]) [] with phase := .running, fired := true, stage := 3 }])), task0, the ((hosting net (graphOf [{ freshCtx (desc 0x0B [0x1000]) [] with phase := .running, fired := true, stage := 3 }])).graph .a 0) (by decide +kernel), the ((hosting net (graphOf [{ freshCtx (desc 0x0B [0x1000]) [] with phase := .running, fired := true, stage := 3 }])).task task0) (by decide +kernel), by simp only [Runs]; decide +kernel, by decide +kernel⟩

theorem witness_GraphAndTokenCommands_tideWait : ∃ (s : State) (k : TaskRef) (g : Graph) (c : TaskCtx), Runs s.block k 0x0C g c :=
  ⟨on (holding net .running (desc 0x0C [])), task0, the ((holding net .running (desc 0x0C [])).graph .a 0) (by decide +kernel), the ((holding net .running (desc 0x0C [])).task task0) (by decide +kernel), by simp only [Runs]; decide +kernel⟩

theorem witness_TaskLifeCommands_fire : ∃ (s : State) (k : TaskRef) (cores : List (Fin 40)) (u : Upset) (ns : List Nat) (g : Graph) (c : TaskCtx) (c1 : TaskCtx) (c2 : TaskCtx) (c3 : TaskCtx) (ts : List (List Word)) (prog : List Word) (b1 : Block) (b2 : Block), s.block.graph k.half k.graph = some g ∧ s.block.task k = some c ∧ c.phase = .ready ∧ ns = sortBy (fun x y => decide (x ≤ y)) ((cores.map (fun n => 40 * halfNum k.half + n.val)).eraseDups) ∧ cores.length = ns.length ∧ s.block.mayFire k g c ns = true ∧ s.block.held k g (s.block.preview k g c) = false ∧ u ≠ .uncorrectable ∧ u ≠ .parity ∧ s.block.readTensors (s.block.taskAccess k.half g c) c.desc = .ok ts ∧ (if c.desc.type = 0x02 ∧ c.desc.mode4 = 0 ∧ c.desc.vxCount ≠ 0 ∧ c.desc.vxCount ≤ 64 then s.block.wordsFire (s.block.taskAccess k.half g c) 8 c.desc.vxProg c.desc.vxCount else .ok []) = .ok prog ∧ c1 = { c with phase := .running, fired := true, cores := ns, fireTide := s.block.tide k.half } ∧ c2 = { s.block.loadCtx k.half g.slot c1 ts with prog := prog } ∧ b1 = (s.block.modTask k (fun _ => c1)).contextUpset k.half u ∧ b2 = b1.modTask k (fun _ => c2) ∧ b2.check1 k g c2 = none ∧ c2.check2 = none ∧ ((c2.desc.gated = false ∨ b2.verdictOf k.half g.slot g.step ≠ some 2)) ∧ c3 = b2.resolvePolicy k.half g c2 ∧ c3.emptyDetail = none :=
  ⟨on (holding net .ready (desc 0x0C [])), task0, [], .none, [], the ((holding net .ready (desc 0x0C [])).graph .a 0) (by decide +kernel), the ((holding net .ready (desc 0x0C [])).task task0) (by decide +kernel), _, _, _, List.replicate 8 [], [], _, _, the_eq _ _, the_eq _ _, by decide +kernel, by decide +kernel, by decide +kernel, by decide +kernel, by decide +kernel, by decide +kernel, by decide +kernel, by decide +kernel, by decide +kernel, rfl, rfl, rfl, rfl, by decide +kernel, by decide +kernel, by decide +kernel, rfl, by decide +kernel⟩

theorem witness_TaskLifeCommands_fires : ∃ (s : State) (k : TaskRef) (cores : List (Fin 40)) (u : Upset) (ns : List Nat) (g : Graph) (c : TaskCtx), s.block.graph k.half k.graph = some g ∧ s.block.task k = some c ∧ c.phase = .ready ∧ ns = sortBy (fun x y => decide (x ≤ y)) ((cores.map (fun n => 40 * halfNum k.half + n.val)).eraseDups) ∧ cores.length = ns.length ∧ s.block.mayFire k g c ns = true ∧ s.block.held k g (s.block.preview k g c) = false :=
  ⟨on (holding net .ready (desc 0x0C [])), task0, [], .none, [], the ((holding net .ready (desc 0x0C [])).graph .a 0) (by decide +kernel), the ((holding net .ready (desc 0x0C [])).task task0) (by decide +kernel), the_eq _ _, the_eq _ _, by decide +kernel, by decide +kernel, by decide +kernel, by decide +kernel, by decide +kernel⟩

theorem witness_TaskLifeCommands_endQueue : ∃ (s : State) (k : TaskRef) (stalls : List StallCount) (g : Graph) (c : TaskCtx) (q : Fin 64), s.block.graph k.half k.graph = some g ∧ s.block.task k = some c ∧ c.phase = .ended ∧ g.inputsRecorded k.task = true ∧ g.queue = some q ∧ (s.block.pair q.val).enabled = true ∧ (s.block.pair q.val).cqHeld < 2 ^ (s.block.pair q.val).cqLog2 :=
  ⟨on (paired (hosting net { graphOf [{ freshCtx (desc 0x0C []) [] with phase := .ended }] with queue := some 0 }) { pair6 with cqHeld := 63 }), task0, [{ core := 79, engine := 2, cause := 16, cycles := 7 }], { graphOf [{ freshCtx (desc 0x0C []) [] with phase := .ended }] with queue := some 0 }, { freshCtx (desc 0x0C []) [] with phase := .ended }, 0, by decide +kernel, by decide +kernel, by decide +kernel, by decide +kernel, by decide +kernel, by decide +kernel, by decide +kernel⟩

theorem witness_TaskLifeCommands_endRing : ∃ (s : State) (k : TaskRef) (stalls : List StallCount) (g : Graph) (c : TaskCtx) (cells : List Host.Cell), s.block.graph k.half k.graph = some g ∧ s.block.task k = some c ∧ c.phase = .ended ∧ g.inputsRecorded k.task = true ∧ g.queue = none ∧ g.held < 2 ^ g.ringLog2 ∧ s.block.ringCells k.half g (recordBytes k.graph g c g.phase) = .ok cells :=
  ⟨on (hosting net { graphOf [{ freshCtx (desc 0x0C []) [] with phase := .ended }] with held := 63 }), task0, [{ core := 0, engine := 0, cause := 0, cycles := 7 }], { graphOf [{ freshCtx (desc 0x0C []) [] with phase := .ended }] with held := 63 }, { freshCtx (desc 0x0C []) [] with phase := .ended }, okThe (net.ringCells .a { graphOf [{ freshCtx (desc 0x0C []) [] with phase := .ended }] with held := 63 } (recordBytes 0 { graphOf [{ freshCtx (desc 0x0C []) [] with phase := .ended }] with held := 63 } { freshCtx (desc 0x0C []) [] with phase := .ended } true)) (by decide +kernel), by decide +kernel, by decide +kernel, by decide +kernel, by decide +kernel, by decide +kernel, by decide +kernel, okThe_eq _ _⟩

theorem witness_TaskLifeCommands_writeQueue : ∃ (s : State) (k : TaskRef) (g : Graph) (c : TaskCtx) (q : Fin 64), s.block.graph k.half k.graph = some g ∧ s.block.task k = some c ∧ c.phase = .recordWait ∧ g.queue = some q ∧ (s.block.pair q.val).enabled = true ∧ (s.block.pair q.val).cqHeld < 2 ^ (s.block.pair q.val).cqLog2 :=
  ⟨on (paired (hosting net { graphOf [{ freshCtx (desc 0x0C []) [] with phase := .recordWait }] with queue := some 0 }) { pair6 with cqHeld := 63 }), task0, { graphOf [{ freshCtx (desc 0x0C []) [] with phase := .recordWait }] with queue := some 0 }, { freshCtx (desc 0x0C []) [] with phase := .recordWait }, 0, by decide +kernel, by decide +kernel, by decide +kernel, by decide +kernel, by decide +kernel, by decide +kernel⟩

theorem witness_TaskLifeCommands_writeRing : ∃ (s : State) (k : TaskRef) (g : Graph) (c : TaskCtx) (cells : List Host.Cell), s.block.graph k.half k.graph = some g ∧ s.block.task k = some c ∧ c.phase = .recordWait ∧ g.queue = none ∧ g.held < 2 ^ g.ringLog2 ∧ s.block.ringCells k.half g (recordBytes k.graph g c g.phase) = .ok cells :=
  ⟨on (hosting net (graphOf [{ freshCtx (desc 0x0C []) [] with phase := .recordWait }])), task0, graphOf [{ freshCtx (desc 0x0C []) [] with phase := .recordWait }], { freshCtx (desc 0x0C []) [] with phase := .recordWait }, okThe (net.ringCells .a (graphOf [{ freshCtx (desc 0x0C []) [] with phase := .recordWait }]) (recordBytes 0 (graphOf [{ freshCtx (desc 0x0C []) [] with phase := .recordWait }]) { freshCtx (desc 0x0C []) [] with phase := .recordWait } true)) (by decide +kernel), by decide +kernel, by decide +kernel, by decide +kernel, by decide +kernel, by decide +kernel, okThe_eq _ _⟩

/-! ## Witnesses: requests, slots, functions and the debug control -/

/-- A read of 64 bytes at an address. -/
def read64 (a : Nat) : LineRequest := { linkCe := 0, addr := a, len := 64, data := none, task := none, upset := .none }

/-- A block whose half A runs task 0, with requests that wait and tags that are held. -/
def asking (w : List Request) (tags : Tab Request) : Block :=
  let b := holding net .running (desc 0x0C [])
  { b with halfA := { b.halfA with tiers := { b.halfA.tiers with waiting := w, tags := tags } } }

/-- Every destination of a half takes one request at a time. -/
def oneTag (b : Block) : Block := { b with regs := (tierReg .a 0x18, 1) :: b.regs }

/-- A bound slot 0 and a free slot 1 of a Ready module. -/
def drained : Block := { live with slots := { JobSlot.reset with st := 2, job := 9 } :: List.replicate 15 JobSlot.reset }

theorem witness_RequestCommands_read : ∃ (s : State) (h : HalfId) (r : LineRequest) (d : Destination) (i : Nat), homeDest r.addr = some d ∧ s.block.holds r.addr = true ∧ r.data = none ∧ homeShape r.addr r.len = true ∧ homeOf r.addr = h ∧ r.upset ≠ .uncorrectable ∧ r.upset ≠ .parity ∧ s.block.firstBad r.addr r.len = none ∧ Grants s.block h d i :=
  ⟨on net, .a, read64 0x200001FC0, .shelf .a (shelfChannel 0x200001FC0), 0, by decide +kernel, by decide +kernel, by decide +kernel, by decide +kernel, by decide +kernel, by decide +kernel, by decide +kernel, by decide +kernel, by simp only [Grants]; decide +kernel⟩

theorem witness_RequestCommands_write : ∃ (s : State) (h : HalfId) (r : LineRequest) (l : List Byte) (d : Destination) (i : Nat), homeDest r.addr = some d ∧ s.block.holds r.addr = true ∧ r.data = some l ∧ homeShape r.addr l.length = true ∧ homeOf r.addr = h ∧ r.upset = .none ∧ s.block.badHits ((l.zip (List.range l.length)).map (fun p => (r.addr + p.2, p.1))) = [] ∧ Grants s.block h d i :=
  ⟨on net, .a, { read64 0x200001FC0 with data := some (List.replicate 64 5) }, List.replicate 64 5, .shelf .a (shelfChannel 0x200001FC0), 0, by decide +kernel, by decide +kernel, by decide +kernel, by decide +kernel, by decide +kernel, by decide +kernel, by decide +kernel, by simp only [Grants]; decide +kernel⟩

theorem witness_RequestCommands_cross : ∃ (s : State) (h : HalfId) (r : LineRequest) (l : List Byte) (d : Destination) (i : Nat), homeDest r.addr = some d ∧ s.block.holds r.addr = true ∧ l = r.data.getD [] ∧ homeShape r.addr (if r.data.isSome then l.length else r.len) = true ∧ homeOf r.addr ≠ h ∧ r.upset = .none ∧ Grants s.block h d i :=
  ⟨on net, .a, read64 0x400000000, [], .shelf .b (shelfChannel 0x400000000), 0, by decide +kernel, by decide +kernel, by decide +kernel, by decide +kernel, by decide +kernel, by decide +kernel, by simp only [Grants]; decide +kernel⟩

theorem witness_RequestCommands_add : ∃ (s : State) (h : HalfId) (r : AddRequest) (d : Destination) (i : Nat) (eb : Nat), homeDest r.addr = some d ∧ s.block.holds r.addr = true ∧ tierOf r.addr ≠ 0 ∧ homeOf r.addr = h ∧ adderOk r.addr r.op r.format r.data.length = true ∧ adderBytes r.format = some eb ∧ r.upset ≠ .uncorrectable ∧ r.upset ≠ .parity ∧ s.block.firstBad r.addr r.data.length = none ∧ Grants s.block h d i :=
  ⟨on net, .a, { addr := 0x200000000, op := 0, format := 0, data := List.replicate 64 1, task := none, upset := .none }, .shelf .a (shelfChannel 0x200000000), 0, the (adderBytes 0) (by decide +kernel), by decide +kernel, by decide +kernel, by decide +kernel, by decide +kernel, by decide +kernel, the_eq _ _, by decide +kernel, by decide +kernel, by decide +kernel, by simp only [Grants]; decide +kernel⟩

theorem witness_RequestCommands_waits : ∃ (s : State) (h : HalfId) (r : LineRequest) (d : Destination), homeDest r.addr = some d ∧ s.block.holds r.addr = true ∧ r.data = none ∧ homeShape r.addr r.len = true ∧ ((s.block.regFld (tierReg h 0x18) 12 0 ≤ (s.block.tiers h).tagsAt d ∨ s.block.destServes d = false ∨ ∃ q ∈ (s.block.tiers h).waiting, q.dest = d)) :=
  ⟨on (oneTag (asking [] [(0, reqTo (.shelf .a (shelfChannel 0x200000000)) 0x200000000)])), .a, read64 0x200000000, .shelf .a (shelfChannel 0x200000000), by decide +kernel, by decide +kernel, by decide +kernel, by decide +kernel, .inl (by decide +kernel)⟩

theorem witness_RequestCommands_far : ∃ (s : State) (h : HalfId) (d : Destination) (r : Request) (i : Nat), (s.block.tiers h).waiting.find? (fun r => r.dest = d) = some r ∧ s.block.mayIssue h r = true ∧ (s.block.tiers h).tagsAt d < s.block.regFld (tierReg h 0x18) 12 0 ∧ s.block.destServes d = true ∧ (s.block.tiers h).freeTag = some i ∧ ((d = .mainland ∨ (∃ e, d = .endpoint e) ∨ homeOf r.addr ≠ h ∧ r.upset ≠ .parity)) :=
  ⟨on (asking [reqTo (.endpoint 16) 0x3000000000000040] []), .a, .endpoint 16, reqTo (.endpoint 16) 0x3000000000000040, 0, by decide +kernel, by decide +kernel, by decide +kernel, by decide +kernel, by decide +kernel, .inr (.inl ⟨16, rfl⟩)⟩

theorem witness_RequestCommands_home : ∃ (s : State) (h : HalfId) (d : Destination) (r : Request) (i : Nat) (y : Block) (l : List Byte), (s.block.tiers h).waiting.find? (fun r => r.dest = d) = some r ∧ (((∃ n, d = .cove n) ∨ (∃ x ch, d = .shelf x ch) ∨ ∃ x ch, d = .bay x ch)) ∧ (s.block.tiers h).tagsAt d < s.block.regFld (tierReg h 0x18) 12 0 ∧ s.block.destServes d = true ∧ (s.block.tiers h).freeTag = some i ∧ homeOf r.addr = h ∧ (s.block.modTiers h (fun x => { x with waiting := x.waiting.erase r })).serve r = .done y l :=
  ⟨on (asking [reqTo (.shelf .a (shelfChannel 0x200000000)) 0x200000000] []), .a, .shelf .a (shelfChannel 0x200000000), reqTo (.shelf .a (shelfChannel 0x200000000)) 0x200000000, 0, _, _, by decide +kernel, .inr (.inl ⟨_, _, rfl⟩), by decide +kernel, by decide +kernel, by decide +kernel, by decide +kernel, rfl⟩

theorem witness_RequestCommands_response : ∃ (s : State) (h : HalfId) (tag : Nat) (st : Nat) (l : List Byte) (r : Request) (k : TaskRef) (c : TaskCtx), tabFind (s.block.tiers h).tags tag = some r ∧ r.task = some k ∧ (((∃ x ch, r.dest = .shelf x ch) ∨ (∃ x ch, r.dest = .bay x ch) ∨ ∃ n, r.dest = .cove n)) ∧ homeOf r.addr = h ∧ s.block.task k = some c :=
  ⟨on (asking [] [(3, reqTo (.shelf .a 0) 0x200000000)]), .a, 3, stOk, [], reqTo (.shelf .a 0) 0x200000000, task0, the ((asking [] []).task task0) (by decide +kernel), by decide +kernel, by decide +kernel, .inl ⟨_, _, rfl⟩, by decide +kernel, the_eq _ _⟩

theorem witness_RequestCommands_farFail : ∃ (s : State) (h : HalfId) (tag : Nat) (st : Nat) (e : Nat) (l : List Byte) (r : Request) (k : TaskRef) (g : Graph) (c : TaskCtx), tabFind (s.block.tiers h).tags tag = some r ∧ r.task = some k ∧ r.dest = .endpoint e ∧ st ≠ stOk ∧ st ≠ stQuota ∧ s.block.graph k.half k.graph = some g ∧ s.block.task k = some c ∧ c.phase = .running :=
  ⟨on (asking [] [(3, reqTo (.endpoint 16) 0x3000000000000040)]), .a, 3, stDataError, 16, [], reqTo (.endpoint 16) 0x3000000000000040, task0, the ((asking [] []).graph .a 0) (by decide +kernel), the ((asking [] []).task task0) (by decide +kernel), by decide +kernel, by decide +kernel, by decide +kernel, by decide +kernel, by decide +kernel, the_eq _ _, the_eq _ _, by decide +kernel⟩

theorem witness_RequestCommands_noTag : ∃ (s : State) (h : HalfId) (tag : Nat) (st : Nat) (l : List Byte), tabFind (s.block.tiers h).tags tag = none :=
  ⟨on net, .a, 16383, 0, [], by decide +kernel⟩

theorem witness_RequestCommands_deadline : ∃ (s : State) (h : HalfId) (tag : Nat) (r : Request) (k : TaskRef) (g : Graph) (c : TaskCtx), tabFind (s.block.tiers h).tags tag = some r ∧ 3 ≤ farTier r.addr ∧ r.issued + s.block.regFld (tierReg h 0x10) 26 0 ≤ s.block.tide h ∧ r.task = some k ∧ s.block.graph k.half k.graph = some g ∧ s.block.task k = some c ∧ c.phase = .running :=
  ⟨on { asking [] [(3, reqTo (.endpoint 16) 0x3000000000000040)] with halfA := { (asking [] [(3, reqTo (.endpoint 16) 0x3000000000000040)]).halfA with tide := { net.halfA.tide with now := 0x7FFFFFFF } } }, .a, 3, reqTo (.endpoint 16) 0x3000000000000040, task0, the ((asking [] []).graph .a 0) (by decide +kernel), the ((asking [] []).task task0) (by decide +kernel), by decide +kernel, by decide +kernel, by decide +kernel, by decide +kernel, the_eq _ _, the_eq _ _, by decide +kernel⟩

theorem witness_SlotAndFunctionCommands_bind : ∃ (s : State) (p : Path) (k : Fin 16) (job : Fin 4096) (rows : List PageRow) (a : Actor) (x : Block) (y : Block), Shaped s.block ∧ Arrives s.block p [1, 2] a x ∧ (x.slot k.val).st = 0 ∧ x.bind k.val job.val rows = .ok y :=
  ⟨on live, .zilsy (msg 6), 15, 4095, [{ va := 0, target := 0x200000000, big := false, writable := true, noPrefetch := false }], who 1 6, live.useNonce 7, okThe ((live.useNonce 7).bind 15 4095 [{ va := 0, target := 0x200000000, big := false, writable := true, noPrefetch := false }]) (by decide +kernel), by simp only [Shaped]; decide +kernel, ⟨by decide +kernel, by decide +kernel, by decide +kernel, rfl⟩, by decide +kernel, okThe_eq _ _⟩

theorem witness_SlotAndFunctionCommands_disable : ∃ (s : State) (p : Path) (k : Fin 16) (a : Actor) (x : Block), Shaped s.block ∧ Arrives s.block p [1, 2] a x ∧ (s.block.slot k.val).st = 1 :=
  ⟨on bound, .zilsy (msg 6), 0, who 1 6, bound.useNonce 7, by simp only [Shaped]; decide +kernel, ⟨by decide +kernel, by decide +kernel, by decide +kernel, rfl⟩, by decide +kernel⟩

theorem witness_SlotAndFunctionCommands_disableCore : ∃ (s : State) (p : Path) (f : FuncId) (a : Actor) (x : Block), Shaped s.block ∧ Arrives s.block p [1, 2] a x ∧ (s.block.func f).st = 0 ∧ s.block.flash.audit.length < 64512 :=
  ⟨on live, .zilsy (msg 6), .core 79, who 1 6, live.useNonce 7, by simp only [Shaped]; decide +kernel, ⟨by decide +kernel, by decide +kernel, by decide +kernel, rfl⟩, by decide +kernel, by decide +kernel⟩

theorem witness_SlotAndFunctionCommands_enablePort : ∃ (s : State) (p : Path) (f : FuncId) (a : Actor) (x : Block), Arrives s.block p [1, 2] a x ∧ (s.block.func f).st = 2 ∧ (s.block.func f).failed = false ∧ ((∀ k, f ≠ .slot k)) ∧ s.block.flash.audit.length < 64512 :=
  ⟨on (live.setFunc (.port 17) { st := 2, deadline := 0, aborted := 0, failed := false }), .zilsy (msg 6), .port 17, who 1 6, _, ⟨by decide +kernel, by decide +kernel, by decide +kernel, rfl⟩, by decide +kernel, by decide +kernel, by decide +kernel, by decide +kernel⟩

theorem witness_SlotAndFunctionCommands_slotStays : ∃ (s : State) (p : Path) (k : Fin 16) (a : Actor) (x : Block), Arrives s.block p [1, 2] a x :=
  ⟨on live, .zilsy (msg 6), 15, who 1 6, live.useNonce 7, ⟨by decide +kernel, by decide +kernel, by decide +kernel, rfl⟩⟩

theorem witness_SlotAndFunctionCommands_drainDeadline : ∃ (s : State) (f : FuncId), s.block.drainDue f = true :=
  ⟨on drained, .slot 0, by decide +kernel⟩

theorem witness_SlotAndFunctionCommands_drainComplete : ∃ (s : State) (f : FuncId), Shaped s.block ∧ s.block.drainDue f = true ∧ s.block.usersOf f = [] :=
  ⟨on drained, .slot 0, by simp only [Shaped]; decide +kernel, by decide +kernel, by decide +kernel⟩

theorem witness_SlotAndFunctionCommands_stallClear : ∃ (s : State) (p : Path) (h : HalfId) (v : Word) (a : Actor) (x : Block), Arrives s.block p [1, 2] a x :=
  ⟨on live, .zilsy (msg 6), .b, 1, who 1 6, live.useNonce 7, ⟨by decide +kernel, by decide +kernel, by decide +kernel, rfl⟩⟩

theorem witness_SlotAndFunctionCommands_kvInval : ∃ (s : State) (p : Path) (h : HalfId) (k : Fin 16) (a : Actor) (x : Block), Arrives s.block p [1, 2] a x :=
  ⟨on live, .zilsy (msg 6), .b, 15, who 1 6, live.useNonce 7, ⟨by decide +kernel, by decide +kernel, by decide +kernel, rfl⟩⟩

theorem witness_DebugCommands_halt : ∃ (s : State) (p : Path) (n : Fin 80) (a : Actor) (x : Block), Arrives s.block p [3] a x ∧ s.block.image.diagAccess = true ∧ s.block.flash.audit.length < 64512 :=
  ⟨on { live with image := { live.image with diagAccess := true } }, .zilsy (msg 4), 79, who 3 4, _, ⟨by decide +kernel, by decide +kernel, by decide +kernel, rfl⟩, by decide +kernel, by decide +kernel⟩

theorem witness_DebugCommands_reached : ∃ (s : State) (n : Fin 80) (at_ : HaltPoint), (s.block.core n.val).haltRequested = true ∧ (s.block.core n.val).halted = false :=
  ⟨on ({ live with image := { live.image with diagAccess := true } }.modCore 79 (fun e => { e with haltRequested := true })), 79, { tile := 0, group := 0 }, by decide +kernel, by decide +kernel⟩

theorem witness_DebugCommands_resume : ∃ (s : State) (p : Path) (n : Fin 80) (a : Actor) (x : Block), Arrives s.block p [3] a x ∧ s.block.image.diagAccess = true ∧ s.block.flash.audit.length < 64512 ∧ (s.block.core n.val).halted = true :=
  ⟨on ({ live with image := { live.image with diagAccess := true } }.modCore 79 (fun e => { e with halted := true })), .zilsy (msg 4), 79, who 3 4, _, ⟨by decide +kernel, by decide +kernel, by decide +kernel, rfl⟩, by decide +kernel, by decide +kernel, by decide +kernel⟩

theorem witness_DebugCommands_denied : ∃ (s : State) (p : Path) (n : Fin 80) (a : Actor) (x : Block) (c : Instr), Arrives s.block p [1, 2, 3] a x ∧ ((a.role ≠ 3 ∨ s.block.image.diagAccess = false)) ∧ ((c = .dbgHalt p n ∨ c = .dbgResume p n)) :=
  ⟨on live, .zilsy (msg 6), 79, who 1 6, live.useNonce 7, .dbgHalt (.zilsy (msg 6)) 79, ⟨by decide +kernel, by decide +kernel, by decide +kernel, rfl⟩, by decide +kernel, by decide +kernel⟩

/-! ## Witnesses: the engines -/

/-- C = A × B, one element each, FP32: 1.0 × 2.0. -/
def matmul : TaskCtx := running 0x01 [0, 0, 0, 0] [0] [ten 0 0x20000 [1, 1], ten 0 0x20040 [1, 1], ten 0 0x20080 [1, 1]]

/-- The two operands in memory. -/
def product : Block := put (runs matmul (fp32s [0x3F800000])) 0x200020040 (fp32s [0x40000000])

/-- One token, two experts, one choice. -/
def router : TaskCtx :=
  running 0x02 [0x1000000000000000, 0x0000004200008000 ||| (2 <<< 37) ||| (1 <<< 33) ||| (1 <<< 15), 0, 0] [0]
    [ten 0 0x20000 [2, 1], ([], []), ten 0x0B 0x20040 [1, 1], ten 0x0A 0x20080 [2], ten 0x0A 0x200C0 [1]]

/-- A combination of one token of one element whose record is dropped. -/
def combiner : TaskCtx :=
  running 0x02 [0x2000000000000000, (1 <<< 53) ||| (1 <<< 49) ||| (1 <<< 31), 0, 0] [0]
    [ten 0x0B 0x20000 [1, 1], ten 0 0x20040 [1, 1], ten 0 0x20080 [1, 1]]

/-- A 1 × 1 convolution of one channel in a mode. -/
def conv (mode : Nat) : TaskCtx :=
  running 0x04 [BitVec.ofNat 64 (mode * 2 ^ 60 + 2 ^ 20 + 2 ^ 14), 2 ^ 6, 0, 0] [0]
    [ten 0 0x20000 [1, 1, 1, 1], ten 0 0x20040 [1, 1, 1, 1], ten 0 0x20080 [1, 1, 1, 1]]

/-- Box decode of one box. -/
def boxes : TaskCtx :=
  running 0x04 [0x3000000000000000, 0, 0, 0] [0] [ten 0 0x20000 [4, 1, 1], ten 0 0x20040 [4, 1], ten 0 0x20080 [4, 1, 1]]

/-- NMS of one box of one class, at most one kept. -/
def suppress : TaskCtx :=
  running 0x04 [0x4000000000000000, 0, 1 <<< 46, 0] [0]
    [ten 0 0x20000 [4, 1, 1], ten 0 0x20040 [1, 1, 1], ten 0x0A 0x20080 [1, 1, 1], ten 0x0A 0x200C0 [1, 1]]

/-- A convolution that publishes its rows. -/
def rowSource : TaskCtx :=
  running 0x04 [BitVec.ofNat 64 (2 ^ 20 + 2 ^ 14), 2 ^ 6, 0, 1 <<< 63] [0]
    [ten 0 0x20000 [1, 1, 16, 1], ten 0 0x30000 [1, 1, 1, 1], ten 0 0x40000 [1, 1, 16, 1]]

/-- A consumer of task 0's rows in a mode. -/
def consumer (mode : Nat) : TaskCtx :=
  { conv mode with desc := { (conv mode).desc with params := [BitVec.ofNat 64 (mode * 2 ^ 60 + 2 ^ 20 + 2 ^ 14), 2 ^ 6, 0, 1 <<< 60] } }

/-- It runs as task 1 behind a row source that ended with ST_DATA_ERROR. -/
def consuming (mode : Nat) : Graph := graphOf [{ rowSource with phase := .recorded, status := stDataError }, consumer mode]

/-- Task 1 of that graph. -/
def task1 : TaskRef := { half := .a, graph := 0, task := 1 }

/-- Attention of one query and one key of one element in a mode. -/
def attn (mode : Nat) (n : Nat) : TaskCtx :=
  running 0x03 [BitVec.ofNat 64 (mode * 2 ^ 60 + 2 ^ 33 + 2 ^ 26), 0x3F80000000000000, 0, 0] [0]
    ((List.range n).map (fun i => ten 1 (0x20000 + 0x100 * i) [1, 1, 1, 1, 1]))

/-- Combination of one part of one query of one element. -/
def attnMerge : TaskCtx :=
  running 0x03 [BitVec.ofNat 64 (2 * 2 ^ 60 + 2 ^ 33 + 2 ^ 26), 0x3F80000000000000, 0, 0] [0]
    [ten 0 0x20000 [1, 1, 1, 1, 1], ten 0 0x21000 [1, 2, 1, 1, 1], ([], []), ten 0 0x22000 [1, 1, 1, 1, 1]]

theorem witness_EngineTasks_matrix : ∃ (s : State) (k : TaskRef) (par : Option BankUpset) (g : Graph) (c : TaskCtx) (q : Pairing) (b0 : Block) (a : Access) (cells : List Host.Cell), Runs s.block k 0x01 g c ∧ pairing (c.tensor 0).fmt (c.tensor 1).fmt = some q ∧ s.block.anyHalted c = false ∧ c.mxNone = false ∧ c.struck k.half par = none ∧ b0 = s.block.touch k g c ∧ a = s.block.taskAccess k.half g c ∧ Whole b0 (b0.mxWrites a c (b0.mxRun a c q)) cells :=
  ⟨on product, task0, none, graphOf [matmul], matmul, the (pairing 0 0) (by decide +kernel), _, _, _, by simp only [Runs]; decide +kernel, the_eq _ _, by decide +kernel, by decide +kernel, by decide +kernel, rfl, rfl, wholeOf (by decide +kernel)⟩

theorem witness_EngineTasks_matrixNone : ∃ (s : State) (k : TaskRef) (par : Option BankUpset) (g : Graph) (c : TaskCtx) (q : Pairing), Runs s.block k 0x01 g c ∧ pairing (c.tensor 0).fmt (c.tensor 1).fmt = some q ∧ s.block.anyHalted c = false ∧ c.mxNone = true :=
  ⟨on (runs (running 0x01 [0, 0, 0, 0] [0] [ten 0 0x20000 [1, 0], ten 0 0x20040 [1, 1], ten 0 0x20080 [1, 0]]) []), task0, none, graphOf [running 0x01 [0, 0, 0, 0] [0] [ten 0 0x20000 [1, 0], ten 0 0x20040 [1, 1], ten 0 0x20080 [1, 0]]], running 0x01 [0, 0, 0, 0] [0] [ten 0 0x20000 [1, 0], ten 0 0x20040 [1, 1], ten 0 0x20080 [1, 0]], the (pairing 0 0) (by decide +kernel), by simp only [Runs]; decide +kernel, the_eq _ _, by decide +kernel, by decide +kernel⟩

theorem witness_EngineTasks_matrixParity : ∃ (s : State) (k : TaskRef) (u : BankUpset) (g : Graph) (c : TaskCtx) (q : Pairing), Runs s.block k 0x01 g c ∧ pairing (c.tensor 0).fmt (c.tensor 1).fmt = some q ∧ s.block.anyHalted c = false ∧ c.mxNone = false ∧ c.cores.contains (40 * halfNum k.half + u.core.val) = true :=
  ⟨on product, task0, { core := 0, bank := 3 }, graphOf [matmul], matmul, the (pairing 0 0) (by decide +kernel), by simp only [Runs]; decide +kernel, the_eq _ _, by decide +kernel, by decide +kernel, by decide +kernel⟩

theorem witness_EngineTasks_route : ∃ (s : State) (k : TaskRef) (g : Graph) (c : TaskCtx) (b0 : Block) (a : Access) (r : List (Nat × Row × List Val) × Nat) (cells : List Host.Cell), Runs s.block k 0x02 g c ∧ c.desc.pf 0 63 60 = 1 ∧ b0 = s.block.touch k g c ∧ a = s.block.taskAccess k.half g c ∧ b0.rtRun a c = .ok r ∧ Whole b0 [b0.rtWrites a c r.1] cells :=
  ⟨on (runs router (fp32s [0x3F800000, 0x40000000])), task0, graphOf [router], router, _, _, okThe (((runs router (fp32s [0x3F800000, 0x40000000])).touch task0 (graphOf [router]) router).rtRun ((runs router (fp32s [0x3F800000, 0x40000000])).taskAccess .a (graphOf [router]) router) router) (by decide +kernel), _, by simp only [Runs]; decide +kernel, by decide +kernel, rfl, rfl, okThe_eq _ _, wholeOf (by decide +kernel)⟩

theorem witness_EngineTasks_combine : ∃ (s : State) (k : TaskRef) (g : Graph) (c : TaskCtx) (b0 : Block) (a : Access) (cells : List Host.Cell), Runs s.block k 0x02 g c ∧ c.desc.pf 0 63 60 = 2 ∧ b0 = s.block.touch k g c ∧ a = s.block.taskAccess k.half g c ∧ Whole b0 (storedPieces (b0.cbRun a c) ++ [b0.storedBitmap a (c.tensor 2) (b0.cbRun a c)]) cells :=
  ⟨on (runs combiner []), task0, graphOf [combiner], combiner, _, _, _, by simp only [Runs]; decide +kernel, by decide +kernel, rfl, rfl, wholeOf (by decide +kernel)⟩

theorem witness_EngineTasks_conv0 : ∃ (s : State) (k : TaskRef) (par : Option BankUpset) (g : Graph) (c : TaskCtx) (q : Pairing) (b0 : Block) (cells : List Host.Cell) (i : Instr), Runs s.block k 0x04 g c ∧ ((i = .convForward k par ∧ c.desc.pf 0 63 60 = 0 ∨ i = .convBackwardData k par ∧ c.desc.pf 0 63 60 = 1 ∨ i = .convBackwardFilter k par ∧ c.desc.pf 0 63 60 = 2)) ∧ (sourcesOf g c).all (fun x => x.fixed && firesTokens x.status) = true ∧ pairing (c.tensor 0).fmt (c.tensor 1).fmt = some q ∧ s.block.anyHalted c = false ∧ rowsOpen c (sourcesOf g c) (max c.cvRowLo c.rowsReady) c.cvRowHi = true ∧ c.struck k.half par = none ∧ b0 = s.block.touch k g c ∧ Whole b0 (partShares (b0.convRows (b0.taskAccess k.half g c) c q (max c.cvRowLo c.rowsReady) c.cvRowHi).1) cells :=
  ⟨on (runs (conv 0) (fp32s [0x3F800000])), task0, none, graphOf [conv 0], conv 0, the (pairing 0 0) (by decide +kernel), _, _, .convForward task0 none, by simp only [Runs]; decide +kernel, .inl ⟨rfl, by decide +kernel⟩, by decide +kernel, the_eq _ _, by decide +kernel, by decide +kernel, by decide +kernel, rfl, wholeOf (by decide +kernel)⟩

theorem witness_EngineTasks_conv1 : ∃ (s : State) (k : TaskRef) (par : Option BankUpset) (g : Graph) (c : TaskCtx) (q : Pairing) (b0 : Block) (cells : List Host.Cell) (i : Instr), Runs s.block k 0x04 g c ∧ ((i = .convForward k par ∧ c.desc.pf 0 63 60 = 0 ∨ i = .convBackwardData k par ∧ c.desc.pf 0 63 60 = 1 ∨ i = .convBackwardFilter k par ∧ c.desc.pf 0 63 60 = 2)) ∧ (sourcesOf g c).all (fun x => x.fixed && firesTokens x.status) = true ∧ pairing (c.tensor 0).fmt (c.tensor 1).fmt = some q ∧ s.block.anyHalted c = false ∧ rowsOpen c (sourcesOf g c) (max c.cvRowLo c.rowsReady) c.cvRowHi = true ∧ c.struck k.half par = none ∧ b0 = s.block.touch k g c ∧ Whole b0 (partShares (b0.convRows (b0.taskAccess k.half g c) c q (max c.cvRowLo c.rowsReady) c.cvRowHi).1) cells :=
  ⟨on (runs (conv 1) (fp32s [0x3F800000])), task0, none, graphOf [conv 1], conv 1, the (pairing 0 0) (by decide +kernel), _, _, .convBackwardData task0 none, by simp only [Runs]; decide +kernel, .inr (.inl ⟨rfl, by decide +kernel⟩), by decide +kernel, the_eq _ _, by decide +kernel, by decide +kernel, by decide +kernel, rfl, wholeOf (by decide +kernel)⟩

theorem witness_EngineTasks_conv2 : ∃ (s : State) (k : TaskRef) (par : Option BankUpset) (g : Graph) (c : TaskCtx) (q : Pairing) (b0 : Block) (cells : List Host.Cell) (i : Instr), Runs s.block k 0x04 g c ∧ ((i = .convForward k par ∧ c.desc.pf 0 63 60 = 0 ∨ i = .convBackwardData k par ∧ c.desc.pf 0 63 60 = 1 ∨ i = .convBackwardFilter k par ∧ c.desc.pf 0 63 60 = 2)) ∧ (sourcesOf g c).all (fun x => x.fixed && firesTokens x.status) = true ∧ pairing (c.tensor 0).fmt (c.tensor 1).fmt = some q ∧ s.block.anyHalted c = false ∧ rowsOpen c (sourcesOf g c) (max c.cvRowLo c.rowsReady) c.cvRowHi = true ∧ c.struck k.half par = none ∧ b0 = s.block.touch k g c ∧ Whole b0 (partShares (b0.convRows (b0.taskAccess k.half g c) c q (max c.cvRowLo c.rowsReady) c.cvRowHi).1) cells :=
  ⟨on (runs (conv 2) (fp32s [0x3F800000])), task0, none, graphOf [conv 2], conv 2, the (pairing 0 0) (by decide +kernel), _, _, .convBackwardFilter task0 none, by simp only [Runs]; decide +kernel, .inr (.inr ⟨rfl, by decide +kernel⟩), by decide +kernel, the_eq _ _, by decide +kernel, by decide +kernel, by decide +kernel, rfl, wholeOf (by decide +kernel)⟩

theorem witness_EngineTasks_boxDecode : ∃ (s : State) (k : TaskRef) (g : Graph) (c : TaskCtx) (b0 : Block) (cells : List Host.Cell), Runs s.block k 0x04 g c ∧ c.desc.pf 0 63 60 = 3 ∧ b0 = s.block.touch k g c ∧ Whole b0 (partShares (b0.bxRun (s.block.taskAccess k.half g c) c)) cells :=
  ⟨on (runs boxes (fp32s [0, 0, 0, 0])), task0, graphOf [boxes], boxes, _, _, by simp only [Runs]; decide +kernel, by decide +kernel, rfl, wholeOf (by decide +kernel)⟩

theorem witness_EngineTasks_nms : ∃ (s : State) (k : TaskRef) (g : Graph) (c : TaskCtx) (b0 : Block) (a : Access) (cells : List Host.Cell), Runs s.block k 0x04 g c ∧ c.desc.pf 0 63 60 = 4 ∧ b0 = s.block.touch k g c ∧ a = s.block.taskAccess k.half g c ∧ Whole b0 (b0.nmsShares a c (b0.nmsRun a c)) cells :=
  ⟨on (runs suppress (fp32s [0, 0, 0x3F800000, 0x3F800000])), task0, graphOf [suppress], suppress, _, _, _, by simp only [Runs]; decide +kernel, by decide +kernel, rfl, rfl, wholeOf (by decide +kernel)⟩

theorem witness_EngineTasks_rowsReady : ∃ (s : State) (k : TaskRef) (rows : Nat) (g : Graph) (c : TaskCtx) (q : Pairing) (b0 : Block) (run : List (Res Stored) × Nat) (cells : List Host.Cell), Runs s.block k 0x04 g c ∧ pairing (c.tensor 0).fmt (c.tensor 1).fmt = some q ∧ c.desc.isRowSource = true ∧ max c.cvRowLo c.rowsReady < rows ∧ rows ≤ c.cvRowHi ∧ ((rows % 8 = 0 ∨ rows = c.cvRowHi)) ∧ rowsOpen c (sourcesOf g c) (max c.cvRowLo c.rowsReady) rows = true ∧ (sourcesOf g c).all (fun x => !x.fixed || firesTokens x.status) = true ∧ s.block.anyHalted c = false ∧ b0 = s.block.touch k g c ∧ run = b0.convRows (b0.taskAccess k.half g c) c q (max c.cvRowLo c.rowsReady) rows ∧ Whole b0 (partShares run.1) cells :=
  ⟨on (runs rowSource (fp32s [0x3F800000])), task0, 8, graphOf [rowSource], rowSource, the (pairing 0 0) (by decide +kernel), _, _, _, by simp only [Runs]; decide +kernel, the_eq _ _, by decide +kernel, by decide +kernel, by decide +kernel, by decide +kernel, by decide +kernel, by decide +kernel, by decide +kernel, rfl, rfl, wholeOf (by decide +kernel)⟩

theorem witness_EngineTasks_failed0 : ∃ (s : State) (k : TaskRef) (par : Option BankUpset) (g : Graph) (c : TaskCtx) (o : Nat) (i : Instr), Runs s.block k 0x04 g c ∧ ((i = .convForward k par ∧ c.desc.pf 0 63 60 = 0 ∨ i = .convBackwardData k par ∧ c.desc.pf 0 63 60 = 1 ∨ i = .convBackwardFilter k par ∧ c.desc.pf 0 63 60 = 2)) ∧ failedSource (sourcesOf g c) = some o ∧ (sourcesOf g c).all (fun x => x.fixed) = true :=
  ⟨on (hosting net (consuming 0)), task1, none, consuming 0, consumer 0, the (failedSource (sourcesOf (consuming 0) (consumer 0))) (by decide +kernel), .convForward task1 none, by simp only [Runs]; decide +kernel, .inl ⟨rfl, by decide +kernel⟩, the_eq _ _, by decide +kernel⟩

theorem witness_EngineTasks_failed1 : ∃ (s : State) (k : TaskRef) (par : Option BankUpset) (g : Graph) (c : TaskCtx) (o : Nat) (i : Instr), Runs s.block k 0x04 g c ∧ ((i = .convForward k par ∧ c.desc.pf 0 63 60 = 0 ∨ i = .convBackwardData k par ∧ c.desc.pf 0 63 60 = 1 ∨ i = .convBackwardFilter k par ∧ c.desc.pf 0 63 60 = 2)) ∧ failedSource (sourcesOf g c) = some o ∧ (sourcesOf g c).all (fun x => x.fixed) = true :=
  ⟨on (hosting net (consuming 1)), task1, none, consuming 1, consumer 1, the (failedSource (sourcesOf (consuming 1) (consumer 1))) (by decide +kernel), .convBackwardData task1 none, by simp only [Runs]; decide +kernel, .inr (.inl ⟨rfl, by decide +kernel⟩), the_eq _ _, by decide +kernel⟩

theorem witness_EngineTasks_failed2 : ∃ (s : State) (k : TaskRef) (par : Option BankUpset) (g : Graph) (c : TaskCtx) (o : Nat) (i : Instr), Runs s.block k 0x04 g c ∧ ((i = .convForward k par ∧ c.desc.pf 0 63 60 = 0 ∨ i = .convBackwardData k par ∧ c.desc.pf 0 63 60 = 1 ∨ i = .convBackwardFilter k par ∧ c.desc.pf 0 63 60 = 2)) ∧ failedSource (sourcesOf g c) = some o ∧ (sourcesOf g c).all (fun x => x.fixed) = true :=
  ⟨on (hosting net (consuming 2)), task1, none, consuming 2, consumer 2, the (failedSource (sourcesOf (consuming 2) (consumer 2))) (by decide +kernel), .convBackwardFilter task1 none, by simp only [Runs]; decide +kernel, .inr (.inr ⟨rfl, by decide +kernel⟩), the_eq _ _, by decide +kernel⟩

theorem witness_AttentionTasks_forward : ∃ (s : State) (k : TaskRef) (par : Option BankUpset) (g : Graph) (c : TaskCtx) (b0 : Block) (a : Access) (run : KvWalk × List (List (Res AtRun))) (cells : List Host.Cell) (i : Instr), Runs s.block k 0x03 g c ∧ b0 = s.block.touch k g c ∧ a = s.block.taskAccess k.half g c ∧ ((i = .attnForward k par ∧ c.desc.pf 0 63 60 = 0 ∧ run = c.atRunAll (b0.atForwardUnit a c) ∨ i = .attnForwardPartial k par ∧ c.desc.pf 0 63 60 = 1 ∧ run = c.atRunAll (b0.atForwardUnit a c) ∨ i = .attnCombine k ∧ par = none ∧ c.desc.pf 0 63 60 = 2 ∧ run = c.atRunAll (fun w _ u => (w, b0.atCombineUnit a c u)) ∨ i = .attnBackwardDkDv k par ∧ c.desc.pf 0 63 60 = 3 ∧ c.atLq ≠ 0 ∧ run = c.atRunAll (fun w _ u => (w, b0.atBackKeyUnit a c u)) ∨ i = .attnBackwardDkDv k par ∧ c.desc.pf 0 63 60 = 3 ∧ c.atLq = 0 ∧ run = c.atRunAll (fun w _ _ => (w, .ok { rows := [], second := [], rescales := 0, skipped := 0, empties := 0, issued := 0 })) ∨ i = .attnBackwardDq k par ∧ c.desc.pf 0 63 60 = 4 ∧ run = c.atRunAll (fun w _ u => (w, b0.atBackQueryUnit a c u)))) ∧ s.block.anyHalted c = false ∧ c.struck k.half par = none ∧ Whole (b0.kvWalked k run.1) (run.2.map (fun l => c.atPieces l)) cells :=
  ⟨on (runs (attn 0 8) []), task0, none, graphOf [attn 0 8], attn 0 8, _, _, (attn 0 8).atRunAll (((runs (attn 0 8) []).touch task0 (graphOf [attn 0 8]) (attn 0 8)).atForwardUnit ((runs (attn 0 8) []).taskAccess .a (graphOf [attn 0 8]) (attn 0 8)) (attn 0 8)), _, .attnForward task0 none, by simp only [Runs]; decide +kernel, rfl, rfl, .inl ⟨rfl, by decide +kernel, rfl⟩, by decide +kernel, by decide +kernel, wholeOf (by decide +kernel)⟩

theorem witness_AttentionTasks_partial : ∃ (s : State) (k : TaskRef) (par : Option BankUpset) (g : Graph) (c : TaskCtx) (b0 : Block) (a : Access) (run : KvWalk × List (List (Res AtRun))) (cells : List Host.Cell) (i : Instr), Runs s.block k 0x03 g c ∧ b0 = s.block.touch k g c ∧ a = s.block.taskAccess k.half g c ∧ ((i = .attnForward k par ∧ c.desc.pf 0 63 60 = 0 ∧ run = c.atRunAll (b0.atForwardUnit a c) ∨ i = .attnForwardPartial k par ∧ c.desc.pf 0 63 60 = 1 ∧ run = c.atRunAll (b0.atForwardUnit a c) ∨ i = .attnCombine k ∧ par = none ∧ c.desc.pf 0 63 60 = 2 ∧ run = c.atRunAll (fun w _ u => (w, b0.atCombineUnit a c u)) ∨ i = .attnBackwardDkDv k par ∧ c.desc.pf 0 63 60 = 3 ∧ c.atLq ≠ 0 ∧ run = c.atRunAll (fun w _ u => (w, b0.atBackKeyUnit a c u)) ∨ i = .attnBackwardDkDv k par ∧ c.desc.pf 0 63 60 = 3 ∧ c.atLq = 0 ∧ run = c.atRunAll (fun w _ _ => (w, .ok { rows := [], second := [], rescales := 0, skipped := 0, empties := 0, issued := 0 })) ∨ i = .attnBackwardDq k par ∧ c.desc.pf 0 63 60 = 4 ∧ run = c.atRunAll (fun w _ u => (w, b0.atBackQueryUnit a c u)))) ∧ s.block.anyHalted c = false ∧ c.struck k.half par = none ∧ Whole (b0.kvWalked k run.1) (run.2.map (fun l => c.atPieces l)) cells :=
  ⟨on (runs (attn 1 8) []), task0, none, graphOf [attn 1 8], attn 1 8, _, _, (attn 1 8).atRunAll (((runs (attn 1 8) []).touch task0 (graphOf [attn 1 8]) (attn 1 8)).atForwardUnit ((runs (attn 1 8) []).taskAccess .a (graphOf [attn 1 8]) (attn 1 8)) (attn 1 8)), _, .attnForwardPartial task0 none, by simp only [Runs]; decide +kernel, rfl, rfl, .inr (.inl ⟨rfl, by decide +kernel, rfl⟩), by decide +kernel, by decide +kernel, wholeOf (by decide +kernel)⟩

theorem witness_AttentionTasks_combine : ∃ (s : State) (k : TaskRef) (par : Option BankUpset) (g : Graph) (c : TaskCtx) (b0 : Block) (a : Access) (run : KvWalk × List (List (Res AtRun))) (cells : List Host.Cell) (i : Instr), Runs s.block k 0x03 g c ∧ b0 = s.block.touch k g c ∧ a = s.block.taskAccess k.half g c ∧ ((i = .attnForward k par ∧ c.desc.pf 0 63 60 = 0 ∧ run = c.atRunAll (b0.atForwardUnit a c) ∨ i = .attnForwardPartial k par ∧ c.desc.pf 0 63 60 = 1 ∧ run = c.atRunAll (b0.atForwardUnit a c) ∨ i = .attnCombine k ∧ par = none ∧ c.desc.pf 0 63 60 = 2 ∧ run = c.atRunAll (fun w _ u => (w, b0.atCombineUnit a c u)) ∨ i = .attnBackwardDkDv k par ∧ c.desc.pf 0 63 60 = 3 ∧ c.atLq ≠ 0 ∧ run = c.atRunAll (fun w _ u => (w, b0.atBackKeyUnit a c u)) ∨ i = .attnBackwardDkDv k par ∧ c.desc.pf 0 63 60 = 3 ∧ c.atLq = 0 ∧ run = c.atRunAll (fun w _ _ => (w, .ok { rows := [], second := [], rescales := 0, skipped := 0, empties := 0, issued := 0 })) ∨ i = .attnBackwardDq k par ∧ c.desc.pf 0 63 60 = 4 ∧ run = c.atRunAll (fun w _ u => (w, b0.atBackQueryUnit a c u)))) ∧ s.block.anyHalted c = false ∧ c.struck k.half par = none ∧ Whole (b0.kvWalked k run.1) (run.2.map (fun l => c.atPieces l)) cells :=
  ⟨on (runs attnMerge []), task0, none, graphOf [attnMerge], attnMerge, _, _, attnMerge.atRunAll (fun w _ u => (w, ((runs attnMerge []).touch task0 (graphOf [attnMerge]) attnMerge).atCombineUnit ((runs attnMerge []).taskAccess .a (graphOf [attnMerge]) attnMerge) attnMerge u)), _, .attnCombine task0, by simp only [Runs]; decide +kernel, rfl, rfl, .inr (.inr (.inl ⟨rfl, rfl, by decide +kernel, rfl⟩)), by decide +kernel, by decide +kernel, wholeOf (by decide +kernel)⟩

theorem witness_AttentionTasks_dkdv : ∃ (s : State) (k : TaskRef) (par : Option BankUpset) (g : Graph) (c : TaskCtx) (b0 : Block) (a : Access) (run : KvWalk × List (List (Res AtRun))) (cells : List Host.Cell) (i : Instr), Runs s.block k 0x03 g c ∧ b0 = s.block.touch k g c ∧ a = s.block.taskAccess k.half g c ∧ ((i = .attnForward k par ∧ c.desc.pf 0 63 60 = 0 ∧ run = c.atRunAll (b0.atForwardUnit a c) ∨ i = .attnForwardPartial k par ∧ c.desc.pf 0 63 60 = 1 ∧ run = c.atRunAll (b0.atForwardUnit a c) ∨ i = .attnCombine k ∧ par = none ∧ c.desc.pf 0 63 60 = 2 ∧ run = c.atRunAll (fun w _ u => (w, b0.atCombineUnit a c u)) ∨ i = .attnBackwardDkDv k par ∧ c.desc.pf 0 63 60 = 3 ∧ c.atLq ≠ 0 ∧ run = c.atRunAll (fun w _ u => (w, b0.atBackKeyUnit a c u)) ∨ i = .attnBackwardDkDv k par ∧ c.desc.pf 0 63 60 = 3 ∧ c.atLq = 0 ∧ run = c.atRunAll (fun w _ _ => (w, .ok { rows := [], second := [], rescales := 0, skipped := 0, empties := 0, issued := 0 })) ∨ i = .attnBackwardDq k par ∧ c.desc.pf 0 63 60 = 4 ∧ run = c.atRunAll (fun w _ u => (w, b0.atBackQueryUnit a c u)))) ∧ s.block.anyHalted c = false ∧ c.struck k.half par = none ∧ Whole (b0.kvWalked k run.1) (run.2.map (fun l => c.atPieces l)) cells :=
  ⟨on (runs (attn 3 8) []), task0, none, graphOf [attn 3 8], attn 3 8, _, _, (attn 3 8).atRunAll (fun w _ u => (w, ((runs (attn 3 8) []).touch task0 (graphOf [attn 3 8]) (attn 3 8)).atBackKeyUnit ((runs (attn 3 8) []).taskAccess .a (graphOf [attn 3 8]) (attn 3 8)) (attn 3 8) u)), _, .attnBackwardDkDv task0 none, by simp only [Runs]; decide +kernel, rfl, rfl, .inr (.inr (.inr (.inl ⟨rfl, by decide +kernel, by decide +kernel, rfl⟩))), by decide +kernel, by decide +kernel, wholeOf (by decide +kernel)⟩

theorem witness_AttentionTasks_dq : ∃ (s : State) (k : TaskRef) (par : Option BankUpset) (g : Graph) (c : TaskCtx) (b0 : Block) (a : Access) (run : KvWalk × List (List (Res AtRun))) (cells : List Host.Cell) (i : Instr), Runs s.block k 0x03 g c ∧ b0 = s.block.touch k g c ∧ a = s.block.taskAccess k.half g c ∧ ((i = .attnForward k par ∧ c.desc.pf 0 63 60 = 0 ∧ run = c.atRunAll (b0.atForwardUnit a c) ∨ i = .attnForwardPartial k par ∧ c.desc.pf 0 63 60 = 1 ∧ run = c.atRunAll (b0.atForwardUnit a c) ∨ i = .attnCombine k ∧ par = none ∧ c.desc.pf 0 63 60 = 2 ∧ run = c.atRunAll (fun w _ u => (w, b0.atCombineUnit a c u)) ∨ i = .attnBackwardDkDv k par ∧ c.desc.pf 0 63 60 = 3 ∧ c.atLq ≠ 0 ∧ run = c.atRunAll (fun w _ u => (w, b0.atBackKeyUnit a c u)) ∨ i = .attnBackwardDkDv k par ∧ c.desc.pf 0 63 60 = 3 ∧ c.atLq = 0 ∧ run = c.atRunAll (fun w _ _ => (w, .ok { rows := [], second := [], rescales := 0, skipped := 0, empties := 0, issued := 0 })) ∨ i = .attnBackwardDq k par ∧ c.desc.pf 0 63 60 = 4 ∧ run = c.atRunAll (fun w _ u => (w, b0.atBackQueryUnit a c u)))) ∧ s.block.anyHalted c = false ∧ c.struck k.half par = none ∧ Whole (b0.kvWalked k run.1) (run.2.map (fun l => c.atPieces l)) cells :=
  ⟨on (runs (attn 4 8) []), task0, none, graphOf [attn 4 8], attn 4 8, _, _, (attn 4 8).atRunAll (fun w _ u => (w, ((runs (attn 4 8) []).touch task0 (graphOf [attn 4 8]) (attn 4 8)).atBackQueryUnit ((runs (attn 4 8) []).taskAccess .a (graphOf [attn 4 8]) (attn 4 8)) (attn 4 8) u)), _, .attnBackwardDq task0 none, by simp only [Runs]; decide +kernel, rfl, rfl, .inr (.inr (.inr (.inr (.inr ⟨rfl, by decide +kernel, rfl⟩)))), by decide +kernel, by decide +kernel, wholeOf (by decide +kernel)⟩

theorem witness_AttentionTasks_parity : ∃ (s : State) (k : TaskRef) (u : BankUpset) (g : Graph) (c : TaskCtx) (i : Instr), Runs s.block k 0x03 g c ∧ (i, c.desc.pf 0 63 60) ∈ [(Instr.attnForward k (some u), 0), (.attnForwardPartial k (some u), 1), (.attnBackwardDkDv k (some u), 3), (.attnBackwardDq k (some u), 4)] ∧ s.block.anyHalted c = false ∧ c.cores.contains (40 * halfNum k.half + u.core.val) = true :=
  ⟨on (runs (attn 3 8) []), task0, { core := 0, bank := 0 }, graphOf [attn 3 8], attn 3 8, .attnBackwardDkDv task0 (some { core := 0, bank := 0 }), by simp only [Runs]; decide +kernel, by decide +kernel, by decide +kernel, by decide +kernel⟩

theorem witness_AttentionTasks_halted : ∃ (s : State) (k : TaskRef) (g : Graph) (c : TaskCtx) (par : Option BankUpset) (i : Instr), Runs s.block k 0x03 g c ∧ (i, c.desc.pf 0 63 60) ∈ [(Instr.attnForward k par, 0), (.attnForwardPartial k par, 1), (.attnCombine k, 2), (.attnBackwardDkDv k par, 3), (.attnBackwardDq k par, 4)] ∧ s.block.anyHalted c = true :=
  ⟨on ((runs (attn 0 8) []).modCore 0 (fun e => { e with halted := true })), task0, graphOf [attn 0 8], attn 0 8, none, .attnForward task0 none, by simp only [Runs]; decide +kernel, by decide +kernel, by decide +kernel⟩

/-! ## Witnesses: the key-value write and vector programs -/

/-- An instruction word of a vector program on unsigned 32-bit lanes. -/
def vw (op dst a b imm : Nat) : Word := BitVec.ofNat 64 (op * 2 ^ 56 + 5 * 2 ^ 52 + dst * 2 ^ 47 + a * 2 ^ 42 + b * 2 ^ 37 + imm)

/-- A vector task over two elements with a program. -/
def vecTask (prog : List Word) : TaskCtx := { running 0x02 [0, 0, 0, 0] [0] [ten 0x0A 0x20000 [2], ten 0x0A 0x20040 [2]] with prog := prog }

/-- It runs on core 0. -/
def vecRuns (prog : List Word) : Block := runs (vecTask prog) (leBytes 4 7 ++ leBytes 4 8)

/-- A task that writes no sequence's keys and values: no rows. -/
def kvTask : TaskCtx :=
  running 0x02 [0x3000000000000000, 0, 0, 0] [0]
    [ten 1 0x20000 [1, 1, 0], ten 1 0x20040 [1, 1, 0], ten 0x0A 0x20080 [0], ten 0x0A 0x200C0 [0]]

/-- A task that writes one sequence's key and value into a table none of whose pages is mapped. -/
def kvBad : TaskCtx :=
  running 0x02 [0x3000000000000000, 64 * 2 ^ 54, 0, 0] [0]
    [ten 1 0x20000 [1, 1, 1], ten 1 0x20040 [1, 1, 1], ten 0x0A 0x20080 [1], ten 0x0A 0x200C0 [1]]

theorem witness_AttentionTasks_kvWrite : ∃ (s : State) (k : TaskRef) (g : Graph) (c : TaskCtx) (b0 : Block) (a : Access) (run : KvWalk × List (List (Res Stored))) (cells : List Host.Cell), Runs s.block k 0x02 g c ∧ c.desc.pf 0 63 60 = 3 ∧ b0 = s.block.touch k g c ∧ a = s.block.taskAccess k.half g c ∧ run = b0.kvRun a c ∧ Whole (b0.kvWalked k run.1) (run.2.map (fun rs => seqPieces (rs.map (fun x => x.map (fun st => st.cells))))) cells :=
  ⟨on (runs kvTask []), task0, graphOf [kvTask], kvTask, _, _, _, _, by simp only [Runs]; decide +kernel, by decide +kernel, rfl, rfl, rfl, wholeOf (by decide +kernel)⟩

theorem witness_AttentionTasks_kvUnmapped : ∃ (s : State) (k : TaskRef) (g : Graph) (c : TaskCtx) (b0 : Block) (a : Access) (run : KvWalk × List (List (Res Stored))) (d : Nat), Runs s.block k 0x02 g c ∧ c.desc.pf 0 63 60 = 3 ∧ b0 = s.block.touch k g c ∧ a = s.block.taskAccess k.half g c ∧ run = b0.kvRun a c ∧ ((b0.kvWalked k run.1).landRun (run.2.map (fun rs => seqPieces (rs.map (fun x => x.map (fun st => st.cells)))))).2 = some (.ended stKvUnmapped d) :=
  ⟨on (runs kvBad []), task0, graphOf [kvBad], kvBad, _, _, _, 0, by simp only [Runs]; decide +kernel, by decide +kernel, rfl, rfl, rfl, by decide +kernel⟩

theorem witness_VectorLaneInstructions : ∃ (s : State) (n : Fin 80) (f : VecFields) (p : VecPlace) (i : Instr) (op : Nat) (out : List Nat), s.block.vecPlace n.val = some p ∧ vecOpcode p.word = op ∧ vecFields p.word = f ∧ (i, op, out) ∈ [ (Instr.ldi n f, 0x03, (p.c.vxLanes p.unit).map (fun _ => laneImm f.etype (immN f))), (Instr.iota n f, 0x04, (p.c.vxLanes p.unit).map (fun l => [l.1, l.2.1.1, l.2.1.2.1, l.2.1.2.2.1, l.2.1.2.2.2].getD (immN f % 8) 0))] ++ [(Instr.add n f, 0x10), (Instr.sub n f, 0x11), (Instr.mul n f, 0x12), (Instr.fma n f, 0x13), (Instr.max n f, 0x14), (Instr.min n f, 0x15), (Instr.abs n f, 0x16), (Instr.neg n f, 0x17), (Instr.div n f, 0x18), (Instr.sqrt n f, 0x19), (Instr.cmp n f, 0x1A), (Instr.sel n f, 0x1B), (Instr.exp2 n f, 0x20), (Instr.log2 n f, 0x21), (Instr.rcp n f, 0x22), (Instr.rsqrt n f, 0x23), (Instr.tanh n f, 0x24), (Instr.iadd n f, 0x30), (Instr.isub n f, 0x31), (Instr.imul n f, 0x32), (Instr.imax n f, 0x33), (Instr.imin n f, 0x34), (Instr.shl n f, 0x35), (Instr.shr n f, 0x36), (Instr.sra n f, 0x37), (Instr.and n f, 0x38), (Instr.or n f, 0x39), (Instr.xor n f, 0x3A), (Instr.not n f, 0x3B), (Instr.icmp n f, 0x3C), (Instr.cvt n f, 0x40)].map (fun e => (e.1, e.2, ((p.read f.srcA.val).zip ((p.read f.srcB.val).zip (p.read f.srcC.val))).map (fun l => laneOp e.2 f.etype (immN f) l.1 l.2.1 l.2.2))) :=
  ⟨on (vecRuns [vw 0x30 1 2 3 1]), 0, vecFields (vw 0x30 1 2 3 1), the ((vecRuns [vw 0x30 1 2 3 1]).vecPlace 0) (by decide +kernel), .iadd 0 (vecFields (vw 0x30 1 2 3 1)), 0x30, (((the ((vecRuns [vw 0x30 1 2 3 1]).vecPlace 0) (by decide +kernel)).read 2).zip (((the ((vecRuns [vw 0x30 1 2 3 1]).vecPlace 0) (by decide +kernel)).read 3).zip ((the ((vecRuns [vw 0x30 1 2 3 1]).vecPlace 0) (by decide +kernel)).read 0))).map (fun l => laneOp 0x30 5 1 l.1 l.2.1 l.2.2), the_eq _ _, by decide +kernel, by decide +kernel, by decide +kernel⟩

theorem witness_VectorMemoryAndReductionInstructions_ld : ∃ (s : State) (n : Fin 80) (f : VecFields) (p : VecPlace) (x : VecEffect), s.block.vecPlace n.val = some p ∧ vecOpcode p.word = 0x01 ∧ vecFields p.word = f ∧ p.load s.block f = .ok x :=
  ⟨on (vecRuns [vw 1 1 0 0 0]), 0, vecFields (vw 1 1 0 0 0), the ((vecRuns [vw 1 1 0 0 0]).vecPlace 0) (by decide +kernel), okThe ((the ((vecRuns [vw 1 1 0 0 0]).vecPlace 0) (by decide +kernel)).load (vecRuns [vw 1 1 0 0 0]) (vecFields (vw 1 1 0 0 0))) (by decide +kernel), the_eq _ _, by decide +kernel, by decide +kernel, okThe_eq _ _⟩

theorem witness_VectorMemoryAndReductionInstructions_st : ∃ (s : State) (n : Fin 80) (f : VecFields) (p : VecPlace) (x : VecEffect), s.block.vecPlace n.val = some p ∧ vecOpcode p.word = 0x02 ∧ vecFields p.word = f ∧ p.store s.block f = .ok x ∧ s.block.badHits x.cells = [] :=
  ⟨on (vecRuns [vw 2 0 1 0 1]), 0, vecFields (vw 2 0 1 0 1), the ((vecRuns [vw 2 0 1 0 1]).vecPlace 0) (by decide +kernel), okThe ((the ((vecRuns [vw 2 0 1 0 1]).vecPlace 0) (by decide +kernel)).store (vecRuns [vw 2 0 1 0 1]) (vecFields (vw 2 0 1 0 1))) (by decide +kernel), the_eq _ _, by decide +kernel, by decide +kernel, okThe_eq _ _, by decide +kernel⟩

theorem witness_VectorMemoryAndReductionInstructions_rsum : ∃ (s : State) (n : Fin 80) (f : VecFields) (p : VecPlace) (i : Instr) (op : Nat), s.block.vecPlace n.val = some p ∧ vecOpcode p.word = op ∧ vecFields p.word = f ∧ (i, op) ∈ [(Instr.rsum n f, 0x50), (Instr.rmax n f, 0x51), (Instr.rmin n f, 0x52), (Instr.rmean n f, 0x53), (Instr.gap n f, 0x54)] :=
  ⟨on (vecRuns [vw 0x50 1 2 0 0]), 0, vecFields (vw 0x50 1 2 0 0), the ((vecRuns [vw 0x50 1 2 0 0]).vecPlace 0) (by decide +kernel), .rsum 0 (vecFields (vw 0x50 1 2 0 0)), 0x50, the_eq _ _, by decide +kernel, by decide +kernel, by decide +kernel⟩

theorem witness_VectorProgramCompletes_run : ∃ (s : State) (k : TaskRef) (g : Graph) (g' : Graph) (c : TaskCtx) (c' : TaskCtx) (b : Block) (cells : List Host.Cell), Runs s.block k 0x02 g c ∧ c.desc.pf 0 63 60 = 0 ∧ c.emptyDetail = none ∧ (s.block.touch k g c).vecRunAll c c.cores = (b, true) ∧ Runs b k 0x02 g' c' ∧ c'.desc.pf 0 63 60 = 0 ∧ b.vecBitmaps (b.taskAccess k.half g' c') c' ((c'.prog.filter (fun w => vecOpcode w = 0x02)).map (fun w => immN (vecFields w) % 8)).eraseDups = .ok cells ∧ b.badHits cells = [] :=
  ⟨on (vecRuns [vw 1 1 0 0 0, vw 2 0 1 0 1]), task0, graphOf [vecTask [vw 1 1 0 0 0, vw 2 0 1 0 1]], the ((((vecRuns [vw 1 1 0 0 0, vw 2 0 1 0 1]).touch task0 (graphOf [vecTask [vw 1 1 0 0 0, vw 2 0 1 0 1]]) (vecTask [vw 1 1 0 0 0, vw 2 0 1 0 1])).vecRunAll (vecTask [vw 1 1 0 0 0, vw 2 0 1 0 1]) [0]).1.graph .a 0) (by decide +kernel), vecTask [vw 1 1 0 0 0, vw 2 0 1 0 1], the ((((vecRuns [vw 1 1 0 0 0, vw 2 0 1 0 1]).touch task0 (graphOf [vecTask [vw 1 1 0 0 0, vw 2 0 1 0 1]]) (vecTask [vw 1 1 0 0 0, vw 2 0 1 0 1])).vecRunAll (vecTask [vw 1 1 0 0 0, vw 2 0 1 0 1]) [0]).1.task task0) (by decide +kernel), (((vecRuns [vw 1 1 0 0 0, vw 2 0 1 0 1]).touch task0 (graphOf [vecTask [vw 1 1 0 0 0, vw 2 0 1 0 1]]) (vecTask [vw 1 1 0 0 0, vw 2 0 1 0 1])).vecRunAll (vecTask [vw 1 1 0 0 0, vw 2 0 1 0 1]) [0]).1, [], by simp only [Runs]; decide +kernel, by decide +kernel, by decide +kernel, Prod.ext rfl (by decide +kernel), by simp only [Runs]; decide +kernel, by decide +kernel, by decide +kernel, by decide +kernel⟩

theorem witness_VectorProgramCompletes_empty : ∃ (s : State) (k : TaskRef) (g : Graph) (c : TaskCtx) (d : Nat) (cells : List Host.Cell), Runs s.block k 0x02 g c ∧ c.desc.pf 0 63 60 = 0 ∧ c.emptyDetail = some d ∧ ((∀ i, (c.tensor i).comp ≠ 7)) ∧ (s.block.touch k g c).emptyStores (s.block.taskAccess k.half g c) c = .ok cells ∧ s.block.badHits cells = [] :=
  ⟨on (runs { running 0x02 [0, 0, 0, 0] [0] [ten 0x0A 0x20000 [0], ten 0x0A 0x20040 [0]] with prog := [vw 1 1 0 0 0, vw 2 0 1 0 1] } []), task0, graphOf [{ running 0x02 [0, 0, 0, 0] [0] [ten 0x0A 0x20000 [0], ten 0x0A 0x20040 [0]] with prog := [vw 1 1 0 0 0, vw 2 0 1 0 1] }], { running 0x02 [0, 0, 0, 0] [0] [ten 0x0A 0x20000 [0], ten 0x0A 0x20040 [0]] with prog := [vw 1 1 0 0 0, vw 2 0 1 0 1] }, the (({ running 0x02 [0, 0, 0, 0] [0] [ten 0x0A 0x20000 [0], ten 0x0A 0x20040 [0]] with prog := [vw 1 1 0 0 0, vw 2 0 1 0 1] } : TaskCtx).emptyDetail) (by decide +kernel), [], by simp only [Runs]; decide +kernel, by decide +kernel, the_eq _ _, (fun i => match i with | 0 => by decide +kernel | 1 => by decide +kernel | i + 2 => no_slot (Nat.le_add_left 2 i)), by decide +kernel, by decide +kernel⟩

theorem witness_IntegerLanesFollowTwosComplement : ∃ e imm : Nat, 3 ≤ e ∧ e ≤ 7 ∧ imm % 2 = 0 := ⟨3, 0, by decide⟩

theorem witness_IntegerLanesFollowTwosComplement_saturated : ∃ e imm : Nat, 3 ≤ e ∧ e ≤ 7 ∧ imm % 2 = 1 ∧ eSigned e = true :=
  ⟨4, 1, by decide⟩

/-! ## Witnesses: gathers, tier moves, publications -/

/-- A gather of one row of one element by index. -/
def gatherer (mode : Nat) (cores : List Nat) (idx : List Word × List Nat) (oob : Nat) : TaskCtx :=
  running 0x05 [BitVec.ofNat 64 (mode * 2 ^ 60 + oob * 2 ^ 59), 0, 0, 0] cores [ten 0x0A 0x20000 [1, 2], idx, ten 0x0A 0x20080 [1, 1]]

/-- Its indices: one INT32. -/
def oneIndex : List Word × List Nat := ten 0x0A 0x20040 [1]

/-- A tier move of a mode: tier, length, VA, far address, object and version 1. -/
def move (type mode tier len va far : Nat) : TaskCtx :=
  running type [BitVec.ofNat 64 (mode * 2 ^ 60 + tier * 2 ^ 57 + len), BitVec.ofNat 64 va, BitVec.ofNat 64 far, 0x0000000700000001] [] []

/-- A Mainland address. -/
def main0 : Nat := 4 * 2 ^ 60 + 0x100000

/-- An Offshore address of the other half's window. -/
def off1 : Nat := 3 * 2 ^ 60 + 2 ^ 44

/-- A cache object of version 1 of object 7 of job 9, its frame mapped at VA 0x400000. -/
def object7 : CacheObject :=
  { job := 9, object := 7, version := 1, tier := 2, far := main0, length := 0x200000, frames := [0x8000000000], pin := false, lastUse := 0,
    refs := [], mappings := [(0, 0x400000)], filling := none }

/-- Half A's tiers of a block changed. -/
def tiersA (b : Block) (f : Tiers → Tiers) : Block := { b with halfA := { b.halfA with tiers := f b.halfA.tiers } }

/-- A block that holds that object under its first handle, the page of its mapping, and a task. -/
def cached (c : TaskCtx) : Block :=
  tiersA { (runs c []) with
    slots := { (bound.slot 0) with pages := (bound.slot 0).pages ++
                 [(2, { target := 0x8000000000, big := false, writable := false, noPrefetch := false, handle := handleOf .a 0 })] } ::
             List.replicate 15 JobSlot.reset } (fun t => { t with objects := [(handleOf .a 0, object7)] })

/-- An entry of the object's version in a directory. -/
def entry (st base : Nat) : FarEntry := { job := 9, object := 7, version := 1, base := base, length := 0x200000, st := st, lastActive := 0 }

/-- A block that runs a task, the version registered in half A's Mainland. -/
def registered (c : TaskCtx) (st : Nat) : Block := tiersA (runs c []) (fun t => { t with mainland := [entry st 0x100000] })

theorem witness_GatherTasks_gather : ∃ (s : State) (k : TaskRef) (g : Graph) (c : TaskCtx) (is : List Int) (cells : List Host.Cell) (i : Instr), Runs s.block k 0x05 g c ∧ (s.block.touchPieces k g.slot (c.tensor 1).pieces).gatherIndices (s.block.taskAccess k.half g c) (c.tensor 1) = .ok is ∧ ((c.desc.pf 0 59 59 = 1 → is.all (fun x => inTable (c.tensor 0) x) = true)) ∧ ((i = .gather k ∧ c.desc.pf 0 63 60 = 0 ∧ ((s.block.touchPieces k g.slot (c.tensor 1).pieces).startGather k g c is).gatherCells (s.block.taskAccess k.half g c) (c.tensor 0) (c.tensor 2) is = .ok cells ∨ i = .scatter k ∧ c.desc.pf 0 63 60 = 1 ∧ ((s.block.touchPieces k g.slot (c.tensor 1).pieces).startGather k g c is).scatterCells (s.block.taskAccess k.half g c) (c.tensor 0) (c.tensor 2) is = .ok cells)) ∧ s.block.badHits cells = [] :=
  ⟨on (runs (gatherer 0 [0] oneIndex 0) []), task0, graphOf [gatherer 0 [0] oneIndex 0], gatherer 0 [0] oneIndex 0, okThe (((runs (gatherer 0 [0] oneIndex 0) []).touchPieces task0 0 (((gatherer 0 [0] oneIndex 0).tensor 1).pieces)).gatherIndices ((runs (gatherer 0 [0] oneIndex 0) []).taskAccess .a (graphOf [gatherer 0 [0] oneIndex 0]) (gatherer 0 [0] oneIndex 0)) ((gatherer 0 [0] oneIndex 0).tensor 1)) (by decide +kernel), _, .gather task0, by simp only [Runs]; decide +kernel, okThe_eq _ _, by decide +kernel, .inl ⟨rfl, by decide +kernel, okThe_eq _ (by decide +kernel)⟩, by decide +kernel⟩

theorem witness_GatherTasks_scatter : ∃ (s : State) (k : TaskRef) (g : Graph) (c : TaskCtx) (is : List Int) (cells : List Host.Cell) (i : Instr), Runs s.block k 0x05 g c ∧ (s.block.touchPieces k g.slot (c.tensor 1).pieces).gatherIndices (s.block.taskAccess k.half g c) (c.tensor 1) = .ok is ∧ ((c.desc.pf 0 59 59 = 1 → is.all (fun x => inTable (c.tensor 0) x) = true)) ∧ ((i = .gather k ∧ c.desc.pf 0 63 60 = 0 ∧ ((s.block.touchPieces k g.slot (c.tensor 1).pieces).startGather k g c is).gatherCells (s.block.taskAccess k.half g c) (c.tensor 0) (c.tensor 2) is = .ok cells ∨ i = .scatter k ∧ c.desc.pf 0 63 60 = 1 ∧ ((s.block.touchPieces k g.slot (c.tensor 1).pieces).startGather k g c is).scatterCells (s.block.taskAccess k.half g c) (c.tensor 0) (c.tensor 2) is = .ok cells)) ∧ s.block.badHits cells = [] :=
  ⟨on (runs (gatherer 1 [0] oneIndex 1) []), task0, graphOf [gatherer 1 [0] oneIndex 1], gatherer 1 [0] oneIndex 1, okThe (((runs (gatherer 1 [0] oneIndex 1) []).touchPieces task0 0 (((gatherer 1 [0] oneIndex 1).tensor 1).pieces)).gatherIndices ((runs (gatherer 1 [0] oneIndex 1) []).taskAccess .a (graphOf [gatherer 1 [0] oneIndex 1]) (gatherer 1 [0] oneIndex 1)) ((gatherer 1 [0] oneIndex 1).tensor 1)) (by decide +kernel), _, .scatter task0, by simp only [Runs]; decide +kernel, okThe_eq _ _, by decide +kernel, .inr ⟨rfl, by decide +kernel, okThe_eq _ (by decide +kernel)⟩, by decide +kernel⟩

theorem witness_GatherTasks_add : ∃ (s : State) (k : TaskRef) (g : Graph) (c : TaskCtx) (is : List Int) (b : Block) (i : Instr) (op : Nat), Runs s.block k 0x05 g c ∧ (s.block.touchPieces k g.slot (c.tensor 1).pieces).gatherIndices (s.block.taskAccess k.half g c) (c.tensor 1) = .ok is ∧ ((c.desc.pf 0 59 59 = 1 → is.all (fun x => inTable (c.tensor 0) x) = true)) ∧ ((i = .scatterAdd k ∧ c.desc.pf 0 63 60 = 2 ∧ op = 0 ∨ i = .scatterMax k ∧ c.desc.pf 0 63 60 = 3 ∧ op = 1 ∨ i = .scatterMin k ∧ c.desc.pf 0 63 60 = 4 ∧ op = 2)) ∧ ((s.block.touchPieces k g.slot (c.tensor 1).pieces).startGather k g c is).adderRows (s.block.taskAccess k.half g c) op (c.tensor 0) (c.tensor 2) ((is.zip (List.range is.length)).drop c.stage) = .ok b :=
  ⟨on (runs (gatherer 2 [0] oneIndex 0) []), task0, graphOf [gatherer 2 [0] oneIndex 0], gatherer 2 [0] oneIndex 0, okThe (((runs (gatherer 2 [0] oneIndex 0) []).touchPieces task0 0 (((gatherer 2 [0] oneIndex 0).tensor 1).pieces)).gatherIndices ((runs (gatherer 2 [0] oneIndex 0) []).taskAccess .a (graphOf [gatherer 2 [0] oneIndex 0]) (gatherer 2 [0] oneIndex 0)) ((gatherer 2 [0] oneIndex 0).tensor 1)) (by decide +kernel), _, .scatterAdd task0, 0, by simp only [Runs]; decide +kernel, okThe_eq _ _, by decide +kernel, .inl ⟨rfl, by decide +kernel, rfl⟩, okThe_eq _ (by decide +kernel)⟩

theorem witness_GatherTasks_min : ∃ (s : State) (k : TaskRef) (g : Graph) (c : TaskCtx) (is : List Int) (b : Block) (i : Instr) (op : Nat), Runs s.block k 0x05 g c ∧ (s.block.touchPieces k g.slot (c.tensor 1).pieces).gatherIndices (s.block.taskAccess k.half g c) (c.tensor 1) = .ok is ∧ ((c.desc.pf 0 59 59 = 1 → is.all (fun x => inTable (c.tensor 0) x) = true)) ∧ ((i = .scatterAdd k ∧ c.desc.pf 0 63 60 = 2 ∧ op = 0 ∨ i = .scatterMax k ∧ c.desc.pf 0 63 60 = 3 ∧ op = 1 ∨ i = .scatterMin k ∧ c.desc.pf 0 63 60 = 4 ∧ op = 2)) ∧ ((s.block.touchPieces k g.slot (c.tensor 1).pieces).startGather k g c is).adderRows (s.block.taskAccess k.half g c) op (c.tensor 0) (c.tensor 2) ((is.zip (List.range is.length)).drop c.stage) = .ok b :=
  ⟨on (runs (gatherer 4 [0] oneIndex 0) []), task0, graphOf [gatherer 4 [0] oneIndex 0], gatherer 4 [0] oneIndex 0, okThe (((runs (gatherer 4 [0] oneIndex 0) []).touchPieces task0 0 (((gatherer 4 [0] oneIndex 0).tensor 1).pieces)).gatherIndices ((runs (gatherer 4 [0] oneIndex 0) []).taskAccess .a (graphOf [gatherer 4 [0] oneIndex 0]) (gatherer 4 [0] oneIndex 0)) ((gatherer 4 [0] oneIndex 0).tensor 1)) (by decide +kernel), _, .scatterMin task0, 2, by simp only [Runs]; decide +kernel, okThe_eq _ _, by decide +kernel, .inr (.inr ⟨rfl, by decide +kernel, rfl⟩), okThe_eq _ (by decide +kernel)⟩

theorem witness_GatherTasks_trap : ∃ (s : State) (k : TaskRef) (g : Graph) (c : TaskCtx) (is : List Int) (x : Int) (i : Instr), Runs s.block k 0x05 g c ∧ (s.block.touchPieces k g.slot (c.tensor 1).pieces).gatherIndices (s.block.taskAccess k.half g c) (c.tensor 1) = .ok is ∧ c.desc.pf 0 59 59 = 1 ∧ is.find? (fun x => !(inTable (c.tensor 0) x)) = some x ∧ (i, c.desc.pf 0 63 60) ∈ [(Instr.gather k, 0), (.scatter k, 1), (.scatterAdd k, 2), (.scatterMax k, 3), (.scatterMin k, 4)] :=
  ⟨on (put (runs (gatherer 3 [0] oneIndex 1) []) 0x200020040 (leBytes 4 2)), task0, graphOf [gatherer 3 [0] oneIndex 1], gatherer 3 [0] oneIndex 1, [2], 2, .scatterMax task0, by simp only [Runs]; decide +kernel, by decide +kernel, by decide +kernel, by decide +kernel, by decide +kernel⟩

theorem witness_TierMoveTasks_copy : ∃ (s : State) (k : TaskRef) (g : Graph) (c : TaskCtx) (cells : List Host.Cell), Runs s.block k 0x06 g c ∧ c.desc.moveMode = 0 ∧ (s.block.touch k g c).copyCells (s.block.taskAccess k.half g c) (c.tensor 0) (c.tensor 1) = .ok cells ∧ s.block.badHits cells = [] :=
  ⟨on (runs (running 0x06 [0, 0, 0, 0] [] [ten 0x0A 0x20000 [1], ten 0x0A 0x20040 [1]]) [7]), task0, graphOf [running 0x06 [0, 0, 0, 0] [] [ten 0x0A 0x20000 [1], ten 0x0A 0x20040 [1]]], running 0x06 [0, 0, 0, 0] [] [ten 0x0A 0x20000 [1], ten 0x0A 0x20040 [1]], okThe (((runs (running 0x06 [0, 0, 0, 0] [] [ten 0x0A 0x20000 [1], ten 0x0A 0x20040 [1]]) [7]).touch task0 (graphOf [running 0x06 [0, 0, 0, 0] [] [ten 0x0A 0x20000 [1], ten 0x0A 0x20040 [1]]]) (running 0x06 [0, 0, 0, 0] [] [ten 0x0A 0x20000 [1], ten 0x0A 0x20040 [1]])).copyCells ((runs (running 0x06 [0, 0, 0, 0] [] [ten 0x0A 0x20000 [1], ten 0x0A 0x20040 [1]]) [7]).taskAccess .a (graphOf [running 0x06 [0, 0, 0, 0] [] [ten 0x0A 0x20000 [1], ten 0x0A 0x20040 [1]]]) (running 0x06 [0, 0, 0, 0] [] [ten 0x0A 0x20000 [1], ten 0x0A 0x20040 [1]])) ((running 0x06 [0, 0, 0, 0] [] [ten 0x0A 0x20000 [1], ten 0x0A 0x20040 [1]]).tensor 0) ((running 0x06 [0, 0, 0, 0] [] [ten 0x0A 0x20000 [1], ten 0x0A 0x20040 [1]]).tensor 1)) (by decide +kernel), by simp only [Runs]; decide +kernel, by decide +kernel, okThe_eq _ _, by decide +kernel⟩

theorem witness_TierMoveTasks_mapFar : ∃ (s : State) (k : TaskRef) (g : Graph) (c : TaskCtx) (i : Nat), Runs s.block k 0x06 g c ∧ c.desc.moveMode = 1 ∧ Shaped s.block ∧ NoRecordWaits s.block g.job ∧ anyMapped (s.block.slot g.slot).pages c.desc.moveVa c.desc.moveLength = false ∧ s.block.entriesUsed + c.desc.moveLength / c.desc.pageSize ≤ 4194304 ∧ 3 ≤ c.desc.moveTier ∧ i < c.desc.moveLength / c.desc.pageSize :=
  ⟨on (runs (move 6 1 4 0x200000 0x400000 main0) []), task0, graphOf [move 6 1 4 0x200000 0x400000 main0], move 6 1 4 0x200000 0x400000 main0, 0, by simp only [Runs]; decide +kernel, by decide +kernel, by simp only [Shaped]; decide +kernel, by intro h; cases h <;> decide +kernel, by decide +kernel, by decide +kernel, by decide +kernel, by decide +kernel⟩

theorem witness_TierMoveTasks_mapHome : ∃ (s : State) (k : TaskRef) (g : Graph) (c : TaskCtx) (frames : List Nat) (b : Block), Runs s.block k 0x06 g c ∧ c.desc.moveMode = 1 ∧ Shaped s.block ∧ NoRecordWaits s.block g.job ∧ anyMapped (s.block.slot g.slot).pages c.desc.moveVa c.desc.moveLength = false ∧ s.block.entriesUsed + c.desc.moveLength / c.desc.pageSize ≤ 4194304 ∧ c.desc.moveTier < 3 ∧ s.block.allocate c.desc.moveHalf c.desc.moveTier g.slot (c.desc.pf 0 56 56 = 1) (g.slot.val + 1) (c.desc.moveLength / c.desc.pageSize) = .ok frames b ∧ Runs b k 0x06 g c ∧ NoRecordWaits b g.job ∧ Shaped b :=
  ⟨on (runs (move 6 1 1 0x200000 0x400000 0) []), task0, graphOf [move 6 1 1 0x200000 0x400000 0], move 6 1 1 0x200000 0x400000 0, _, _, by simp only [Runs]; decide +kernel, by decide +kernel, by simp only [Shaped]; decide +kernel, by intro h; cases h <;> decide +kernel, by decide +kernel, by decide +kernel, by decide +kernel, allocated (by decide +kernel), by simp only [Runs]; decide +kernel, by intro h; cases h <;> decide +kernel, by simp only [Shaped]; decide +kernel⟩

theorem witness_TierMoveTasks_unmap : ∃ (s : State) (k : TaskRef) (g : Graph) (c : TaskCtx) (keys : List Nat), Runs s.block k 0x06 g c ∧ c.desc.moveMode = 2 ∧ NoRecordWaits s.block g.job ∧ pagesIn (s.block.slot g.slot).pages c.desc.moveVa c.desc.moveLength = some keys ∧ ((∀ key ∈ keys, c.desc.moveVa ≤ key * frameSize ∧ ∃ p, tabFind (s.block.slot g.slot).pages key = some p ∧ key * frameSize + (if p.big then 0x40000000 else frameSize) ≤ c.desc.moveVa + c.desc.moveLength)) :=
  ⟨on (runs (move 6 2 0 0x200000 0 0) []), task0, graphOf [move 6 2 0 0x200000 0 0], move 6 2 0 0x200000 0 0, [0], by simp only [Runs]; decide +kernel, by decide +kernel, by intro h; cases h <;> decide +kernel, by decide +kernel, by intro key h; rw [List.mem_singleton.1 h]; exact ⟨by decide +kernel, _, the_eq _ (by decide +kernel), by decide +kernel⟩⟩

theorem witness_TierMoveTasks_fillShared : ∃ (s : State) (k : TaskRef) (g : Graph) (c : TaskCtx) (i : Nat) (o : CacheObject), Runs s.block k 0x06 g c ∧ c.desc.moveMode = 3 ∧ c.stage = 0 ∧ Shaped s.block ∧ s.block.sharedObject c.desc.moveHalf g.job c.desc.moveObject c.desc.moveVersion c.desc.moveTier = some (i, o) ∧ o.filling = none ∧ s.block.object i = some o ∧ anyMapped (s.block.slot g.slot).pages c.desc.moveVa (o.frames.length * frameSize) = false ∧ s.block.entriesUsed + o.frames.length ≤ 4194304 :=
  ⟨on (cached (move 6 3 2 0x200000 0x600000 main0)), task0, graphOf [move 6 3 2 0x200000 0x600000 main0], move 6 3 2 0x200000 0x600000 main0, handleOf .a 0, object7, by simp only [Runs]; decide +kernel, by decide +kernel, by decide +kernel, by simp only [Shaped]; decide +kernel, by decide +kernel, by decide +kernel, by decide +kernel, by decide +kernel, by decide +kernel⟩

theorem witness_TierMoveTasks_fill : ∃ (s : State) (k : TaskRef) (g : Graph) (c : TaskCtx) (frames : List Nat) (b : Block), Runs s.block k 0x06 g c ∧ c.desc.moveMode = 3 ∧ c.stage = 0 ∧ s.block.sharedObject c.desc.moveHalf g.job c.desc.moveObject c.desc.moveVersion c.desc.moveTier = none ∧ anyMapped (s.block.slot g.slot).pages c.desc.moveVa (cdiv c.desc.moveLength frameSize * frameSize) = false ∧ ((farTier c.desc.moveFar = 4 ∧ c.desc.moveFar % 2 ^ 60 + c.desc.moveLength ≤ 2 ^ 60 ∧ dirHolds (s.block.tiers k.half).mainland g.job c.desc.moveObject c.desc.moveVersion (c.desc.moveFar % 2 ^ 60) c.desc.moveLength = true ∨ farTier c.desc.moveFar = 3 ∧ c.desc.moveFar % 2 ^ 44 + c.desc.moveLength ≤ 2 ^ 44 ∧ s.block.routable k.half (bits c.desc.moveFar 59 44) 0 = true ∧ ¬ s.block.domain.lost.contains (bits c.desc.moveFar 59 44 / 8))) ∧ (s.block.tiers c.desc.moveHalf).objects.length < 65536 ∧ 0 < c.desc.moveLength ∧ s.block.allocate c.desc.moveHalf c.desc.moveTier g.slot false (0x200 + g.slot.val) (cdiv c.desc.moveLength frameSize) = .ok frames b ∧ b.task k = some c :=
  ⟨on (registered (move 6 3 1 0x200000 0x600000 main0) farCommitted), task0, graphOf [move 6 3 1 0x200000 0x600000 main0], move 6 3 1 0x200000 0x600000 main0, _, _, by simp only [Runs]; decide +kernel, by decide +kernel, by decide +kernel, by decide +kernel, by decide +kernel, .inl (by decide +kernel), by decide +kernel, by decide +kernel, allocated (by decide +kernel), by decide +kernel⟩

theorem witness_TierMoveTasks_drop : ∃ (s : State) (k : TaskRef) (g : Graph) (c : TaskCtx) (i : Nat) (m : Nat × Nat) (o : CacheObject), Runs s.block k 0x06 g c ∧ c.desc.moveMode = 4 ∧ s.block.mappingAt g.slot c.desc.moveVa = some (i, m) ∧ s.block.object i = some o :=
  ⟨on (cached (move 6 4 0 0 0x400000 0)), task0, graphOf [move 6 4 0 0 0x400000 0], move 6 4 0 0 0x400000 0, handleOf .a 0, (0, 0x400000), object7, by simp only [Runs]; decide +kernel, by decide +kernel, by decide +kernel, by decide +kernel⟩

theorem witness_TierMoveTasks_query : ∃ (s : State) (k : TaskRef) (g : Graph) (c : TaskCtx) (v : Nat) (cells : List Host.Cell), Runs s.block k 0x06 g c ∧ c.desc.moveMode = 5 ∧ ((farTier c.desc.moveFar = 4 ∧ v = dirState (s.block.tiers k.half).mainland g.job c.desc.moveObject c.desc.moveVersion (c.desc.moveFar % 2 ^ 60) ∨ farTier c.desc.moveFar ≠ 4 ∧ ∃ x : Byte, tabFind c.farBuf c.desc.moveFar = some x ∧ v = x.toNat)) ∧ s.block.rowCells (s.block.taskAccess k.half g c) (c.tensor 0) (0, 0, 0, 0) { codes := [v], scales := [], stats := ConvStats.zero } = .ok cells ∧ s.block.badHits cells = [] :=
  ⟨on (registered { running 0x06 [0x5000000000000000, 0, BitVec.ofNat 64 main0, 0x0000000700000001] [] [ten 0x0A 0x20000 [1]] with stage := 0 } farCommitted), task0, graphOf [{ running 0x06 [0x5000000000000000, 0, BitVec.ofNat 64 main0, 0x0000000700000001] [] [ten 0x0A 0x20000 [1]] with stage := 0 }], { running 0x06 [0x5000000000000000, 0, BitVec.ofNat 64 main0, 0x0000000700000001] [] [ten 0x0A 0x20000 [1]] with stage := 0 }, 2, okThe ((registered { running 0x06 [0x5000000000000000, 0, BitVec.ofNat 64 main0, 0x0000000700000001] [] [ten 0x0A 0x20000 [1]] with stage := 0 } farCommitted).rowCells ((registered { running 0x06 [0x5000000000000000, 0, BitVec.ofNat 64 main0, 0x0000000700000001] [] [ten 0x0A 0x20000 [1]] with stage := 0 } farCommitted).taskAccess .a (graphOf [{ running 0x06 [0x5000000000000000, 0, BitVec.ofNat 64 main0, 0x0000000700000001] [] [ten 0x0A 0x20000 [1]] with stage := 0 }]) { running 0x06 [0x5000000000000000, 0, BitVec.ofNat 64 main0, 0x0000000700000001] [] [ten 0x0A 0x20000 [1]] with stage := 0 }) (({ running 0x06 [0x5000000000000000, 0, BitVec.ofNat 64 main0, 0x0000000700000001] [] [ten 0x0A 0x20000 [1]] with stage := 0 } : TaskCtx).tensor 0) (0, 0, 0, 0) { codes := [2], scales := [], stats := ConvStats.zero }) (by decide +kernel), by simp only [Runs]; decide +kernel, by decide +kernel, .inl (by decide +kernel), okThe_eq _ _, by decide +kernel⟩

theorem witness_TierMoveTasks_setPin : ∃ (s : State) (k : TaskRef) (g : Graph) (c : TaskCtx) (i : Nat) (m : Nat × Nat) (o : CacheObject), Runs s.block k 0x06 g c ∧ c.desc.moveMode = 6 ∧ s.block.mappingAt g.slot c.desc.moveVa = some (i, m) ∧ s.block.object i = some o :=
  ⟨on (cached (move 6 6 0 0 0x400000 0)), task0, graphOf [move 6 6 0 0 0x400000 0], move 6 6 0 0 0x400000 0, handleOf .a 0, (0, 0x400000), object7, by simp only [Runs]; decide +kernel, by decide +kernel, by decide +kernel, by decide +kernel⟩

theorem witness_TierMoveTasks_unmapped : ∃ (s : State) (k : TaskRef) (g : Graph) (c : TaskCtx) (i : Instr), Runs s.block k 0x06 g c ∧ ((i = .drop k ∧ c.desc.moveMode = 4 ∨ i = .setPin k ∧ c.desc.moveMode = 6)) ∧ s.block.mappingAt g.slot c.desc.moveVa = none :=
  ⟨on (runs (move 6 4 0 0 0x400000 0) []), task0, graphOf [move 6 4 0 0 0x400000 0], move 6 4 0 0 0x400000 0, .drop task0, by simp only [Runs]; decide +kernel, .inl (by decide +kernel), by decide +kernel⟩

theorem witness_PublicationTasks_reserve : ∃ (s : State) (k : TaskRef) (g : Graph) (c : TaskCtx) (i : Instr) (op : Nat) (n : Nat) (data : List Byte), c.stage = 0 ∧ farTier c.desc.moveFar = 3 ∧ ((i = .publish k ∧ Runs s.block k 0x07 g c ∧ c.desc.moveMode = 0 ∧ op = 0x11 ∧ n = 0 ∧ s.block.homeSource g.slot c.desc.moveVa c.desc.moveLength = true ∧ data = versionWord c.desc.moveObject c.desc.moveVersion ++ leBytes 8 c.desc.moveLength ∨ i = .retire k ∧ Runs s.block k 0x07 g c ∧ c.desc.moveMode = 1 ∧ op = 0x16 ∧ n = 0 ∧ data = versionWord c.desc.moveObject c.desc.moveVersion ∨ i = .query k ∧ Runs s.block k 0x06 g c ∧ c.desc.moveMode = 5 ∧ tabFind c.farBuf c.desc.moveFar = none ∧ op = 0x15 ∧ n = 4 ∧ data = versionWord c.desc.moveObject c.desc.moveVersion)) ∧ s.block.routable k.half (bits c.desc.moveFar 59 44) 0 = true ∧ ¬ s.block.domain.lost.contains (bits c.desc.moveFar 59 44 / 8) :=
  ⟨on (runs (move 7 0 0 0x1000 0 off1) []), task0, graphOf [move 7 0 0 0x1000 0 off1], move 7 0 0 0x1000 0 off1, .publish task0, 0x11, 0, _, by decide +kernel, by decide +kernel, .inl ⟨rfl, by simp only [Runs]; decide +kernel, by decide +kernel, rfl, rfl, by decide +kernel, rfl⟩, by decide +kernel, by decide +kernel⟩

theorem witness_PublicationTasks_retire : ∃ (s : State) (k : TaskRef) (g : Graph) (c : TaskCtx) (i : Instr) (op : Nat) (n : Nat) (data : List Byte), c.stage = 0 ∧ farTier c.desc.moveFar = 3 ∧ ((i = .publish k ∧ Runs s.block k 0x07 g c ∧ c.desc.moveMode = 0 ∧ op = 0x11 ∧ n = 0 ∧ s.block.homeSource g.slot c.desc.moveVa c.desc.moveLength = true ∧ data = versionWord c.desc.moveObject c.desc.moveVersion ++ leBytes 8 c.desc.moveLength ∨ i = .retire k ∧ Runs s.block k 0x07 g c ∧ c.desc.moveMode = 1 ∧ op = 0x16 ∧ n = 0 ∧ data = versionWord c.desc.moveObject c.desc.moveVersion ∨ i = .query k ∧ Runs s.block k 0x06 g c ∧ c.desc.moveMode = 5 ∧ tabFind c.farBuf c.desc.moveFar = none ∧ op = 0x15 ∧ n = 4 ∧ data = versionWord c.desc.moveObject c.desc.moveVersion)) ∧ s.block.routable k.half (bits c.desc.moveFar 59 44) 0 = true ∧ ¬ s.block.domain.lost.contains (bits c.desc.moveFar 59 44 / 8) :=
  ⟨on (runs (move 7 1 0 0x1000 0 off1) []), task0, graphOf [move 7 1 0 0x1000 0 off1], move 7 1 0 0x1000 0 off1, .retire task0, 0x16, 0, _, by decide +kernel, by decide +kernel, .inr (.inl ⟨rfl, by simp only [Runs]; decide +kernel, by decide +kernel, rfl, rfl, rfl⟩), by decide +kernel, by decide +kernel⟩

theorem witness_PublicationTasks_query : ∃ (s : State) (k : TaskRef) (g : Graph) (c : TaskCtx) (i : Instr) (op : Nat) (n : Nat) (data : List Byte), c.stage = 0 ∧ farTier c.desc.moveFar = 3 ∧ ((i = .publish k ∧ Runs s.block k 0x07 g c ∧ c.desc.moveMode = 0 ∧ op = 0x11 ∧ n = 0 ∧ s.block.homeSource g.slot c.desc.moveVa c.desc.moveLength = true ∧ data = versionWord c.desc.moveObject c.desc.moveVersion ++ leBytes 8 c.desc.moveLength ∨ i = .retire k ∧ Runs s.block k 0x07 g c ∧ c.desc.moveMode = 1 ∧ op = 0x16 ∧ n = 0 ∧ data = versionWord c.desc.moveObject c.desc.moveVersion ∨ i = .query k ∧ Runs s.block k 0x06 g c ∧ c.desc.moveMode = 5 ∧ tabFind c.farBuf c.desc.moveFar = none ∧ op = 0x15 ∧ n = 4 ∧ data = versionWord c.desc.moveObject c.desc.moveVersion)) ∧ s.block.routable k.half (bits c.desc.moveFar 59 44) 0 = true ∧ ¬ s.block.domain.lost.contains (bits c.desc.moveFar 59 44 / 8) :=
  ⟨on (runs (move 6 5 0 0x1000 0 off1) []), task0, graphOf [move 6 5 0 0x1000 0 off1], move 6 5 0 0x1000 0 off1, .query task0, 0x15, 4, _, by decide +kernel, by decide +kernel, .inr (.inr ⟨rfl, by simp only [Runs]; decide +kernel, by decide +kernel, by decide +kernel, rfl, rfl, rfl⟩), by decide +kernel, by decide +kernel⟩

theorem witness_PublicationTasks_mainland : ∃ (s : State) (k : TaskRef) (g : Graph) (c : TaskCtx) (l : List FarEntry) (data : List Byte), Runs s.block k 0x07 g c ∧ c.desc.moveMode = 0 ∧ c.stage = 0 ∧ farTier c.desc.moveFar = 4 ∧ farTier (c.desc.moveFar + c.desc.moveLength) = 4 ∧ s.block.homeSource g.slot c.desc.moveVa c.desc.moveLength = true ∧ dirAdd (s.block.tiers k.half).reading (s.block.tiers k.half).mainland { job := g.job, object := c.desc.moveObject, version := c.desc.moveVersion, base := c.desc.moveFar % 2 ^ 60, length := c.desc.moveLength, st := farPending, lastActive := s.block.tide k.half } = .ok l ∧ s.block.rdN (s.block.taskAccess k.half g c) 8 c.desc.moveVa c.desc.moveLength = .ok data :=
  ⟨on (runs (move 7 0 0 8 0x20000 main0) [7]), task0, graphOf [move 7 0 0 8 0x20000 main0], move 7 0 0 8 0x20000 main0, [{ entry farPending 0x100000 with length := 8 }], [7, 0, 0, 0, 0, 0, 0, 0], by simp only [Runs]; decide +kernel, by decide +kernel, by decide +kernel, by decide +kernel, by decide +kernel, by decide +kernel, by decide +kernel, by decide +kernel⟩

theorem witness_PublicationTasks_retireMainland : ∃ (s : State) (k : TaskRef) (g : Graph) (c : TaskCtx), Runs s.block k 0x07 g c ∧ c.desc.moveMode = 1 ∧ c.stage = 0 ∧ farTier c.desc.moveFar = 4 ∧ dirState (s.block.tiers k.half).mainland g.job c.desc.moveObject c.desc.moveVersion (c.desc.moveFar % 2 ^ 60) = farCommitted :=
  ⟨on (registered (move 7 1 0 0 0 main0) farCommitted), task0, graphOf [move 7 1 0 0 0 main0], move 7 1 0 0 0 main0, by simp only [Runs]; decide +kernel, by decide +kernel, by decide +kernel, by decide +kernel, by decide +kernel⟩

theorem witness_PublicationTasks_committed : ∃ (s : State) (k : TaskRef) (g : Graph) (c : TaskCtx) (h : HalfId) (tag : Nat) (r : Request) (l : List Byte), Runs s.block k 0x07 g c ∧ c.desc.moveMode = 0 ∧ c.stage = 4 ∧ tabFind (s.block.tiers h).tags tag = some r ∧ r.task = some k ∧ ((r.dest = .mainland ∨ ∃ e, r.dest = .endpoint e)) :=
  ⟨on (tiersA (registered { move 7 0 0 0x200000 0 main0 with stage := 4 } farPending) (fun t => { t with tags := [(5, reqTo .mainland main0)] })), task0, graphOf [{ move 7 0 0 0x200000 0 main0 with stage := 4 }], { move 7 0 0 0x200000 0 main0 with stage := 4 }, .a, 5, reqTo .mainland main0, [], by simp only [Runs]; decide +kernel, by decide +kernel, by decide +kernel, by decide +kernel, by decide +kernel, .inl rfl⟩

/-! ## Witnesses: the far directories, the lending window and what serves it -/

/-- Half A's lending window of one frame, with its directory. -/
def lender (st tEnd : Nat) (d : List FarEntry) : Block :=
  tiersA net (fun t => { t with window := { st := st, frames := [0x8000000000], tEnd := tEnd, dir := d } })

/-- Half A's registers of one version of object 7 in Mainland: base 0x100000, length 0x1000, version 1. -/
def mainRegs : Tab Word :=
  [(tierReg .a 0x200, BitVec.ofNat 64 main0), (tierReg .a 0x208, 0x1000), (tierReg .a 0x210, 0x0000000700000001)]

/-- The version word of object 7, version 1. -/
def v71 : List Byte := versionWord 7 1

/-- A module whose half A has 32 live Bay channels, with a signed command on its way. -/
def withBay : Block := { live with regs := [(bayReg .a 0, BitVec.ofNat 64 (2 ^ 64 - 2 ^ 32))] ++ live.regs }

/-- What the audited write of TIER_LEND_CTRL makes of it. -/
def lendSet : Block :=
  ((withBay.useNonce 7).audited (who 2 5) { kind := 0x01, target := tierReg .a 0x40, old := 0, new := 257 }
    (fun b => b.setReg (tierReg .a 0x40) 257)).1

theorem tabPut_length {α : Type} (t : Tab α) (k : Nat) (v : α) : (tabPut t k v).length ≤ t.length + 1 := by
  induction t with
  | nil => simp [tabPut]
  | cons x t ih =>
    obtain ⟨a, b⟩ := x
    simp only [tabPut]
    repeat' split
    all_goals simp only [List.length_cons]; omega

theorem tabFind_mem {α : Type} {t : Tab α} {k : Nat} (h : (tabFind t k).isSome = true) : k ∈ t.map (fun p => p.1) := by
  induction t with
  | nil => simp [tabFind] at h
  | cons x t ih =>
    obtain ⟨a, b⟩ := x
    simp only [tabFind] at h
    split at h
    · next e => simp [e]
    · exact List.mem_cons_of_mem _ (ih h)

theorem lowestFree_isSome {fr : Tab Nat} {base n : Nat} (h : fr.length < n) : (lowestFree fr base n).isSome = true := by
  simp only [lowestFree, Option.isSome_map]
  by_contra hc
  have hn : ∀ i, i < n → (tabFind fr (base + i * frameSize)).isSome = true := by
    simpa [Option.isSome_iff_ne_none] using hc
  have hs : (List.range n).map (fun i => base + i * frameSize) ⊆ fr.map (fun p => p.1) := by
    intro x hx
    obtain ⟨i, hi, rfl⟩ := List.mem_map.1 hx
    exact tabFind_mem (hn i (List.mem_range.1 hi))
  have hd : ((List.range n).map (fun i => base + i * frameSize)).Nodup := by
    refine List.Nodup.map ?_ List.nodup_range
    intro i j e
    have e' : base + i * frameSize = base + j * frameSize := e
    exact Nat.eq_of_mul_eq_mul_right (by decide : 0 < frameSize) (Nat.add_left_cancel e')
  have := (hd.subperm hs).length_le
  simp at this
  omega

theorem placeBay_isSome (owner : Nat) (h : HalfId) (c : Nat) (live : List Nat) (n0 n : Nat) : ∀ (i last : Nat) (fr : Tab Nat), fr.length + n ≤ 3968 →
    (placeBay owner h (c :: live) n0 n i last fr).isSome = true := by
  induction n with
  | zero => intro i last fr _; rfl
  | succ n ih =>
    intro i last fr hl
    have h1 : (placeIn fr h (c :: live) (n0 + i)).isSome = true := by
      simp only [placeIn, List.findSome?_isSome_iff]
      exact ⟨_, List.mem_map.2 ⟨0, by simp, rfl⟩, by
        rw [Option.isSome_map]; exact lowestFree_isSome (by omega)⟩
    obtain ⟨q, hq⟩ := Option.isSome_iff_exists.1 h1
    obtain ⟨c', f⟩ := q
    have h2 := ih (i + 1) c' (tabPut fr f owner) (by have := tabPut_length fr f owner; omega)
    obtain ⟨r, hr⟩ := Option.isSome_iff_exists.1 h2
    simp only [placeBay, hq, hr, Option.isSome_some]

theorem pooled {b : Block} {h : HalfId} {owner n c : Nat} {live : List Nat} (hb : bit (b.reg (tierReg h 0)).toNat 1 = false)
    (hl : b.placeable h = c :: live) (hn : (b.tiers h).frames.length + n ≤ 3968) :
    ∃ f z, b.allocFrames h 2 false owner n = .ok f z := by
  obtain ⟨r, hr⟩ := Option.isSome_iff_exists.1
    (placeBay_isSome owner h c live (cursorPlace (c :: live) (b.tiers h).cursor) n 0 (b.tiers h).cursor (b.tiers h).frames hn)
  have hp : ∃ x, b.place h 2 false owner n = some x := by
    simp only [Block.place, hl, hr]
    exact ⟨_, rfl⟩
  obtain ⟨x, hx⟩ := hp
  refine ⟨x.1, b.modTiers h (fun _ => x.2), ?_⟩
  simp only [Block.allocFrames, hb, Block.allocPool, hx]
  rfl

theorem witness_LendingCommands_register : ∃ (s : State) (p : Path) (h : HalfId) (job : Fin 4096) (w : List (Nat × Byte)) (a : Actor) (x : Block) (l : List FarEntry), Arrives (s.block.hostAnnounce w) p [1, 2] a x ∧ dirAdd (s.block.tiers h).reading (s.block.tiers h).mainland { job := job.val, object := s.block.regFld (tierReg h 0x210) 63 32, version := s.block.regFld (tierReg h 0x210) 31 0, base := s.block.regFld (tierReg h 0x200) 59 0, length := s.block.regFld (tierReg h 0x208) 47 0, st := farCommitted, lastActive := s.block.tide h } = .ok l :=
  ⟨on { net with regs := mainRegs }, .zilsy (msg 6), .a, 9, [], who 1 6, _, _, ⟨by decide +kernel, by decide +kernel, by decide +kernel, rfl⟩, rfl⟩

theorem witness_LendingCommands_retire : ∃ (s : State) (p : Path) (h : HalfId) (job : Fin 4096) (a : Actor) (x : Block), Arrives s.block p [1, 2] a x ∧ dirState (s.block.tiers h).mainland job.val (s.block.regFld (tierReg h 0x210) 63 32) (s.block.regFld (tierReg h 0x210) 31 0) (s.block.regFld (tierReg h 0x200) 59 0) = farCommitted :=
  ⟨on { (tiersA net (fun t => { t with mainland := [{ entry farCommitted 0x100000 with length := 0x1000 }] })) with regs := mainRegs }, .zilsy (msg 6), .a, 9, who 1 6, _, ⟨by decide +kernel, by decide +kernel, by decide +kernel, rfl⟩, by decide +kernel⟩

theorem witness_LendingCommands_revoke : ∃ (s : State) (p : Path) (h : HalfId) (a : Actor) (x : Block), Arrives s.block p [1, 2] a x ∧ (s.block.window h).st = 1 :=
  ⟨on (lender 1 0 []), .host, .a, hostActor, _, ⟨by decide, by decide, rfl, rfl⟩, by decide +kernel⟩

theorem witness_LendingCommands_clear : ∃ (s : State) (m : Envelope) (h : HalfId) (gib : Fin 256) (a : Actor) (x : Block), Arrives s.block (.zilsy m) [2] a x ∧ gib.val ≤ 128 ∧ s.block.flash.audit.length < 64512 :=
  ⟨on (lender 1 0 []), msg 5, .a, 128, who 2 5, _, ⟨by decide +kernel, by decide +kernel, by decide +kernel, rfl⟩, by decide +kernel, by decide +kernel⟩

theorem witness_LendingCommands_set : ∃ (s : State) (m : Envelope) (h : HalfId) (gib : Fin 256) (a : Actor) (x : Block) (y : Block) (frames : List Nat) (z : Block), Arrives s.block (.zilsy m) [2] a x ∧ 0 < gib.val ∧ gib.val ≤ 128 ∧ s.block.regFld (tierReg h 0x40) 8 8 = 0 ∧ (s.block.window h).st ≠ 1 ∧ (s.block.window h).st ≠ 2 ∧ x.audited a { kind := 0x01, target := tierReg h 0x40, old := (s.block.reg (tierReg h 0x40)).toNat, new := 256 + gib.val } (fun b => b.setReg (tierReg h 0x40) (BitVec.ofNat 64 (256 + gib.val))) = (y, true) ∧ y.allocFrames h 2 false 0x100 (gib.val * 512) = .ok frames z := by
  obtain ⟨f, z, e⟩ := pooled (b := lendSet) (h := .a) (owner := 0x100) (n := 512) (c := 0) (live := (List.range 31).map (· + 1))
    (by decide +kernel) (by decide +kernel) (by decide +kernel)
  exact ⟨on withBay, msg 5, .a, 1, who 2 5, _, lendSet, f, z, ⟨by decide +kernel, by decide +kernel, by decide +kernel, rfl⟩, by decide +kernel, by decide +kernel, by decide +kernel, by decide +kernel, by decide +kernel, rfl, e⟩

theorem witness_LendingCommands_end : ∃ (s : State) (h : HalfId), (s.block.window h).st = 2 ∧ (s.block.window h).tEnd ≤ s.block.tide h :=
  ⟨on (lender 2 0 [entry farCommitted 0]), .a, by decide +kernel, by decide +kernel⟩

theorem witness_LendingCommands_done : ∃ (s : State) (h : HalfId), (s.block.window h).st = 2 ∧ (s.block.window h).tEnd ≤ s.block.tide h ∧ (s.block.window h).dir = [] :=
  ⟨on (lender 2 0 []), .a, by decide +kernel, by decide +kernel, by decide +kernel⟩

theorem witness_LendingCommands_notice : ∃ (s : State) (h : HalfId) (p : Packet), Admits s.block h p 5 [0x05] :=
  ⟨on net, .a, pk 5 0x05 0 0 (leBytes 8 77), by simp only [Admits]; decide +kernel⟩

theorem witness_LendingCommands_drop : ∃ (s : State) (h : HalfId) (lender : Nat) (tEnd : Nat) (hit : List Nat), tabFind (s.block.tiers h).revoking lender = some tEnd ∧ tEnd ≤ s.block.tide h ∧ hit = ((s.block.tiers h).objects.filter (fun p => p.2.filling.isNone && farTier p.2.far = 3 && bits p.2.far 59 44 = lender)).map (fun p => p.1) :=
  ⟨on (tiersA (cached (move 6 4 0 0 0x400000 0)) (fun t => { t with revoking := [(1, 0)], objects := [(handleOf .a 0, { object7 with far := off1 })] })), .a, 1, 0, [handleOf .a 0], by decide +kernel, by decide +kernel, by decide +kernel⟩

theorem witness_LendingCommands_reap : ∃ (s : State) (h : HalfId) (job : Fin 4096) (obj : Nat) (ver : Nat) (e : FarEntry), dirFind (s.block.window h).dir job.val obj ver = some e ∧ e.st = farPending ∧ e.lastActive + 100000000 ≤ s.block.tide h :=
  ⟨on { (lender 1 0 [entry farPending 0]) with halfA := { (lender 1 0 [entry farPending 0]).halfA with tide := { now := 100000000, frac := 0, running := true, slew := 0, good := 0, lastExchange := 0, everLocked := false, parent := none, synced := false, holdoverFrom := none, clk10m := false } } }, .a, 9, 7, 1, entry farPending 0, by decide +kernel, by decide +kernel, by decide +kernel⟩

theorem witness_FarPackets_read : ∃ (s : State) (h : HalfId) (p : Packet) (n : Nat), Admits s.block h p 0 [0x10] ∧ readCount p = some n ∧ s.block.windowServes h = true ∧ dirServes (s.block.window h).dir (pkJob p) (pkAddr p) n = true ∧ ((∀ a ∈ (s.block.window h).addrs (pkAddr p) n, tabFind s.block.bad (granuleBase a) = none)) :=
  ⟨on (lender 1 0 [entry farCommitted 0]), .a, pk 0 0x10 5 0x40 (leBytes 8 64), 64, by simp only [Admits]; decide +kernel, by decide +kernel, by decide +kernel, by decide +kernel, by decide +kernel⟩

theorem witness_FarPackets_pending : ∃ (s : State) (h : HalfId) (p : Packet) (n : Nat), Admits s.block h p 0 [0x10] ∧ readCount p = some n ∧ ((s.block.windowServes h = false ∨ dirServes (s.block.window h).dir (pkJob p) (pkAddr p) n = false)) :=
  ⟨on (lender 1 0 [entry farPending 0]), .a, pk 0 0x10 5 0x40 (leBytes 8 1), 1, by simp only [Admits]; decide +kernel, by decide +kernel, .inr (by decide +kernel)⟩

theorem witness_FarPackets_revoked : ∃ (s : State) (h : HalfId) (p : Packet) (n : Nat), Admits s.block h p 0 [0x10] ∧ readCount p = some n ∧ ((s.block.windowServes h = false ∨ dirServes (s.block.window h).dir (pkJob p) (pkAddr p) n = false)) :=
  ⟨on (lender 3 0 []), .a, pk 0 0x10 5 0x40 (leBytes 8 4032), 4032, by simp only [Admits]; decide +kernel, by decide +kernel, .inl (by decide +kernel)⟩

theorem witness_FarPackets_reserve : ∃ (s : State) (h : HalfId) (p : Packet) (l : List FarEntry), Admits s.block h p 0 [0x11] ∧ p.payload.length = 16 ∧ (s.block.window h).st = 1 ∧ pkAddr p + leNat (p.payload.drop 8) ≤ (s.block.window h).frames.length * frameSize ∧ dirAdd (fun _ => false) (s.block.window h).dir { job := pkJob p, object := pkObject p, version := pkVersion p, base := pkAddr p, length := leNat (p.payload.drop 8), st := farPending, lastActive := s.block.tide h } = .ok l :=
  ⟨on (lender 1 0 []), .a, pk 0 0x11 5 0x1000 (v71 ++ leBytes 8 0x1000), _, by simp only [Admits]; decide +kernel, by decide +kernel, by decide +kernel, by decide +kernel, rfl⟩

theorem witness_FarPackets_write : ∃ (s : State) (h : HalfId) (p : Packet) (e : FarEntry), Admits s.block h p 0 [0x12] ∧ writeOk p = true ∧ s.block.windowServes h = true ∧ e ∈ (s.block.window h).dir ∧ e.job = pkJob p ∧ e.st = farPending ∧ e.base ≤ pkAddr p ∧ pkAddr p + p.payload.length ≤ e.base + e.length ∧ s.block.badHits (((s.block.window h).addrs (pkAddr p) p.payload.length).zip p.payload) = [] :=
  ⟨on (lender 1 0 [entry farPending 0]), .a, pk 0 0x12 5 0x40 [1, 2, 3], entry farPending 0, by simp only [Admits]; decide +kernel, by decide +kernel, by decide +kernel, by decide +kernel, by decide +kernel, by decide +kernel, by decide +kernel, by decide +kernel, by decide +kernel⟩

theorem witness_FarPackets_commit : ∃ (s : State) (h : HalfId) (p : Packet) (i : Instr) (op : Nat) (st : Nat), Admits s.block h p 0 [op] ∧ p.payload.length = 8 ∧ s.block.windowServes h = true ∧ ((i = .farCommit h p ∧ op = 0x13 ∧ st = farCommitted ∧ dirState (s.block.window h).dir (pkJob p) (pkObject p) (pkVersion p) (pkAddr p) = farPending ∨ i = .farRetire h p ∧ op = 0x16 ∧ st = farRetired ∧ dirState (s.block.window h).dir (pkJob p) (pkObject p) (pkVersion p) (pkAddr p) = farCommitted)) :=
  ⟨on (lender 1 0 [entry farPending 0]), .a, pk 0 0x13 5 0 v71, .farCommit .a (pk 0 0x13 5 0 v71), 0x13, farCommitted, by simp only [Admits]; decide +kernel, by decide +kernel, by decide +kernel, .inl ⟨rfl, rfl, rfl, by decide +kernel⟩⟩

theorem witness_FarPackets_retire : ∃ (s : State) (h : HalfId) (p : Packet) (i : Instr) (op : Nat) (st : Nat), Admits s.block h p 0 [op] ∧ p.payload.length = 8 ∧ s.block.windowServes h = true ∧ ((i = .farCommit h p ∧ op = 0x13 ∧ st = farCommitted ∧ dirState (s.block.window h).dir (pkJob p) (pkObject p) (pkVersion p) (pkAddr p) = farPending ∨ i = .farRetire h p ∧ op = 0x16 ∧ st = farRetired ∧ dirState (s.block.window h).dir (pkJob p) (pkObject p) (pkVersion p) (pkAddr p) = farCommitted)) :=
  ⟨on (lender 1 0 [entry farCommitted 0]), .a, pk 0 0x16 5 0 v71, .farRetire .a (pk 0 0x16 5 0 v71), 0x16, farRetired, by simp only [Admits]; decide +kernel, by decide +kernel, by decide +kernel, .inr ⟨rfl, rfl, rfl, by decide +kernel⟩⟩

theorem witness_FarPackets_abort : ∃ (s : State) (h : HalfId) (p : Packet), Admits s.block h p 0 [0x14] ∧ p.payload.length = 8 ∧ s.block.windowServes h = true ∧ dirState (s.block.window h).dir (pkJob p) (pkObject p) (pkVersion p) (pkAddr p) = farPending :=
  ⟨on (lender 1 0 [entry farPending 0]), .a, pk 0 0x14 5 0 v71, by simp only [Admits]; decide +kernel, by decide +kernel, by decide +kernel, by decide +kernel⟩

theorem witness_FarPackets_query : ∃ (s : State) (h : HalfId) (p : Packet), Admits s.block h p 0 [0x15] ∧ p.payload.length = 8 ∧ s.block.windowServes h = true :=
  ⟨on (lender 1 0 [entry farPending 0]), .a, pk 0 0x15 5 0 v71, by simp only [Admits]; decide +kernel, by decide +kernel, by decide +kernel⟩

theorem witness_FarPackets_refusedCommit : ∃ (s : State) (h : HalfId) (p : Packet) (i : Instr) (op : Nat), Admits s.block h p 0 [op] ∧ p.payload.length = 8 ∧ s.block.windowServes h = false ∧ (i, op) ∈ [(Instr.farCommit h p, 0x13), (.farAbort h p, 0x14), (.farQuery h p, 0x15), (.farRetire h p, 0x16)] :=
  ⟨on (lender 3 0 []), .a, pk 0 0x13 5 0 v71, .farCommit .a (pk 0 0x13 5 0 v71), 0x13, by simp only [Admits]; decide +kernel, by decide +kernel, by decide +kernel, by decide +kernel⟩

theorem witness_FarPackets_refusedQuery : ∃ (s : State) (h : HalfId) (p : Packet) (i : Instr) (op : Nat), Admits s.block h p 0 [op] ∧ p.payload.length = 8 ∧ s.block.windowServes h = false ∧ (i, op) ∈ [(Instr.farCommit h p, 0x13), (.farAbort h p, 0x14), (.farQuery h p, 0x15), (.farRetire h p, 0x16)] :=
  ⟨on (lender 3 0 []), .a, pk 0 0x15 5 0 v71, .farQuery .a (pk 0 0x15 5 0 v71), 0x15, by simp only [Admits]; decide +kernel, by decide +kernel, by decide +kernel, by decide +kernel⟩

theorem witness_FarPackets_refusedReserve : ∃ (s : State) (h : HalfId) (p : Packet) (i : Instr), ((i = .farReserve h p ∧ Admits s.block h p 0 [0x11] ∧ p.payload.length = 16 ∧ (s.block.window h).st ≠ 1 ∨ i = .farWrite h p ∧ Admits s.block h p 0 [0x12] ∧ writeOk p = true ∧ s.block.windowServes h = false)) :=
  ⟨on (lender 2 0 []), .a, pk 0 0x11 5 0x1000 (v71 ++ leBytes 8 0x1000), .farReserve .a (pk 0 0x11 5 0x1000 (v71 ++ leBytes 8 0x1000)), .inl ⟨rfl, by simp only [Admits]; decide +kernel, rfl, by decide +kernel⟩⟩

theorem witness_FarPackets_refusedWrite : ∃ (s : State) (h : HalfId) (p : Packet) (i : Instr), ((i = .farReserve h p ∧ Admits s.block h p 0 [0x11] ∧ p.payload.length = 16 ∧ (s.block.window h).st ≠ 1 ∨ i = .farWrite h p ∧ Admits s.block h p 0 [0x12] ∧ writeOk p = true ∧ s.block.windowServes h = false)) :=
  ⟨on (lender 3 0 []), .a, pk 0 0x12 5 0x40 [1], .farWrite .a (pk 0 0x12 5 0x40 [1]), .inr ⟨rfl, by simp only [Admits]; decide +kernel, by decide +kernel, by decide +kernel⟩⟩

/-! ## Witnesses: local packets, refresh, scrub and the traffic generators -/

/-- A fill of object 7 from the other half's window that waits for two answers. -/
def filler : TaskCtx := { move 6 3 2 0x200000 0x600000 off1 with stage := 1, sent := 2, refs := [handleOf .a 0] }

/-- Half A holds a tag 5 for a request. -/
def tagged (b : Block) (r : Request) : Block := tiersA b (fun t => { t with tags := [(5, r)] })

/-- The block whose half A runs that fill. -/
def filling : Block := tagged (tiersA (runs filler []) (fun t => { t with objects := [(handleOf .a 0, { object7 with far := off1, mappings := [], filling := some task0 })] }))
  { reqTo (.endpoint 1) off1 with op := 0x10 }

/-- A module whose Shelf is trained and cool, its bands at 1. -/
def cooled : Block :=
  { net with regs := [(shelfReg .a 0, 6)] ++ net.regs, sys := { net.sys with upNs := 100000000 },
             halfA := { net.halfA with cool := [some 0, none, none] } }

/-- A packet to half A for job 9 from any endpoint. -/
def pkFrom (src cls op tag w2 : Nat) (l : List Byte) : Packet :=
  let p := { pk cls op tag w2 l with w0 := setFld (pk cls op tag w2 l).w0 47 32 src, w3 := 0 }
  { p with w3 := setFld p.w3 31 0 (packetCrc p) }

/-- A register of a block set. -/
def withReg (b : Block) (a v : Nat) : Block := { b with regs := (a, BitVec.ofNat 64 v) :: b.regs }

theorem witness_LocalMemoryPackets_read : ∃ (s : State) (h : HalfId) (p : Packet) (n : Nat), Admits s.block h p 0 [0x01] ∧ pkSrc p = s.block.otherEndpoint h ∧ readCount p = some n ∧ s.block.localRange h (pkAddr p) n = true ∧ s.block.firstBad (pkAddr p) n = none :=
  ⟨on net, .a, pk 0 0x01 5 0x200000FC0 (leBytes 8 64), 64, by simp only [Admits]; decide +kernel, by decide +kernel, by decide +kernel, by decide +kernel, by decide +kernel⟩

theorem witness_LocalMemoryPackets_write : ∃ (s : State) (h : HalfId) (p : Packet), Admits s.block h p 0 [0x02] ∧ pkSrc p = s.block.otherEndpoint h ∧ writeOk p = true ∧ s.block.localRange h (pkAddr p) p.payload.length = true ∧ s.block.badHits ((p.payload.zip (List.range p.payload.length)).map (fun q => (pkAddr p + q.2, q.1))) = [] :=
  ⟨on net, .a, pk 0 0x02 5 0x200000000 [1, 2], by simp only [Admits]; decide +kernel, by decide +kernel, by decide +kernel, by decide +kernel, by decide +kernel⟩

theorem witness_LocalMemoryPackets_add : ∃ (s : State) (h : HalfId) (p : Packet) (w : Nat) (n : Nat) (eb : Nat), Admits s.block h p 0 [0x03] ∧ pkSrc p = s.block.otherEndpoint h ∧ w = leNat (p.payload.take 8) ∧ w < 8192 ∧ bits w 7 2 = 0 ∧ 8 < p.payload.length ∧ n = p.payload.length - 8 ∧ adderOk (pkAddr p) (bits w 1 0) (bits w 12 8) n = true ∧ adderBytes (bits w 12 8) = some eb ∧ s.block.localRange h (pkAddr p) n = true ∧ s.block.firstBad (pkAddr p) n = none :=
  ⟨on net, .a, pk 0 0x03 5 0x200000000 (leBytes 8 0 ++ leBytes 8 1), 0, 8, the (adderBytes 0) (by decide +kernel), by simp only [Admits]; decide +kernel, by decide +kernel, by decide +kernel, by decide +kernel, by decide +kernel, by decide +kernel, by decide +kernel, by decide +kernel, the_eq _ _, by decide +kernel, by decide +kernel⟩

theorem witness_LocalMemoryPackets_stranger : ∃ (s : State) (h : HalfId) (p : Packet) (i : Instr) (op : Nat), Admits s.block h p 0 [op] ∧ pkSrc p ≠ s.block.otherEndpoint h ∧ (i, op) ∈ [(Instr.readRequest h p, 0x01), (.writeRequest h p, 0x02), (.adderRequest h p, 0x03)] :=
  ⟨on { net with domain := { net.domain with roster := [0, 1] } }, .a, (pkFrom 3 0 0x01 5 0x200000000 (leBytes 8 64)), .readRequest .a (pkFrom 3 0 0x01 5 0x200000000 (leBytes 8 64)), 1, by simp only [Admits]; decide +kernel, by decide +kernel, by decide +kernel⟩

theorem witness_LocalMemoryPackets_response : ∃ (s : State) (h : HalfId) (p : Packet) (r : Request) (k : TaskRef) (g : Graph) (c : TaskCtx), Admits s.block h p 1 [0x01, 0x02, 0x03, 0x10, 0x11, 0x12, 0x13, 0x14, 0x15, 0x16] ∧ tabFind (s.block.tiers h).tags (pkTag p) = some r ∧ s.block.answerer h r = some (pkSrc p) ∧ r.op = pkOp p ∧ r.task = some k ∧ fld p.w2 15 0 = stOk ∧ s.block.graph k.half k.graph = some g ∧ s.block.task k = some c ∧ c.phase = .running ∧ ((c.desc.type ≠ 6 ∨ c.desc.moveMode ≠ 3)) ∧ c.desc.type ≠ 7 :=
  ⟨on (tagged (holding net .running (desc 0x05 [])) { reqTo (.shelf .b 0) 0x400000000 with op := 1 }), .a, pk 1 0x01 5 0 [1, 2, 3], { reqTo (.shelf .b 0) 0x400000000 with op := 1 }, task0, graphOf [{ freshCtx (desc 0x05 []) [] with phase := .running, fired := true }], { freshCtx (desc 0x05 []) [] with phase := .running, fired := true }, by simp only [Admits]; decide +kernel, by decide +kernel, by decide +kernel, by decide +kernel, by decide +kernel, by decide +kernel, by decide +kernel, by decide +kernel, by decide +kernel, .inl (by decide), by decide +kernel⟩

theorem witness_LocalMemoryPackets_fill : ∃ (s : State) (h : HalfId) (p : Packet) (r : Request) (k : TaskRef) (g : Graph) (c : TaskCtx) (j : Nat) (o : CacheObject) (off : Nat), Admits s.block h p 1 [0x10, 0x11, 0x12, 0x13, 0x14, 0x15, 0x16] ∧ tabFind (s.block.tiers h).tags (pkTag p) = some r ∧ r.dest = .endpoint (pkSrc p) ∧ r.op = pkOp p ∧ r.task = some k ∧ fld p.w2 15 0 = stOk ∧ Runs s.block k 0x06 g c ∧ c.desc.moveMode = 3 ∧ c.acked + 1 ≠ c.sent ∧ c.refs.head? = some j ∧ s.block.object j = some o ∧ off = r.addr - c.desc.moveFar :=
  ⟨on filling, .a, pk 1 0x10 5 0 [1, 2, 3], { reqTo (.endpoint 1) off1 with op := 0x10 }, task0, graphOf [filler], filler, handleOf .a 0, { object7 with far := off1, mappings := [], filling := some task0 }, 0, by simp only [Admits]; decide +kernel, by decide +kernel, by decide +kernel, by decide +kernel, by decide +kernel, by decide +kernel, by simp only [Runs]; decide +kernel, by decide +kernel, by decide +kernel, by decide +kernel, by decide +kernel, by decide +kernel⟩

theorem witness_LocalMemoryPackets_failed : ∃ (s : State) (h : HalfId) (p : Packet) (r : Request) (k : TaskRef) (g : Graph) (c : TaskCtx) (st : Nat), Admits s.block h p 1 [0x01, 0x02, 0x03, 0x10, 0x11, 0x12, 0x13, 0x14, 0x15, 0x16] ∧ tabFind (s.block.tiers h).tags (pkTag p) = some r ∧ s.block.answerer h r = some (pkSrc p) ∧ r.op = pkOp p ∧ r.task = some k ∧ fld p.w2 15 0 ≠ stOk ∧ fld p.w2 15 0 ≠ stQuota ∧ st = (match r.dest with | .endpoint _ => stFarFail | _ => fld p.w2 15 0) ∧ s.block.graph k.half k.graph = some g ∧ s.block.task k = some c ∧ c.phase = .running :=
  ⟨on (tagged (holding net .running (desc 0x05 [])) { reqTo (.shelf .b 0) 0x400000000 with op := 1 }), .a, pk 1 0x01 5 stDataError [], { reqTo (.shelf .b 0) 0x400000000 with op := 1 }, task0, graphOf [{ freshCtx (desc 0x05 []) [] with phase := .running, fired := true }], { freshCtx (desc 0x05 []) [] with phase := .running, fired := true }, stDataError, by simp only [Admits]; decide +kernel, by decide +kernel, by decide +kernel, by decide +kernel, by decide +kernel, by decide +kernel, by decide +kernel, by decide +kernel, by decide +kernel, by decide +kernel, by decide +kernel⟩

theorem witness_RefreshScrubAndTestCommands_due : ∃ (s : State) (h : HalfId) (ch : Fin 128) (bank : Fin 16), s.block.shelfTrained h = true :=
  ⟨on cooled, .a, 127, 15, by decide +kernel⟩

theorem witness_RefreshScrubAndTestCommands_relax : ∃ (s : State) (h : HalfId) (since : Nat), s.block.regFld (shelfReg h 0) 3 2 ≠ 0 ∧ (s.block.half h).cool.getD (s.block.regFld (shelfReg h 0) 3 2 - 1) none = some since ∧ since + 100000000 ≤ s.block.sys.upNs :=
  ⟨on cooled, .a, 0, by decide +kernel, by decide +kernel, by decide +kernel⟩

theorem witness_RefreshScrubAndTestCommands_scrub : ∃ (s : State) (h : HalfId) (upsets : List (Fin 64 × Upset)), s.block.shelfTrained h = true ∧ s.block.regFld (shelfReg h 8) 32 32 ≠ 0 ∧ s.block.sys.slack ≠ 2 ∧ s.block.sys.slack ≠ 3 :=
  ⟨on cooled, .a, [(63, .uncorrectable), (0, .uncorrectable)], by decide +kernel, by decide +kernel, by decide +kernel, by decide +kernel⟩

theorem witness_RefreshScrubAndTestCommands_pass : ∃ (s : State) (h : HalfId) (upsets : List (Fin 64 × Upset)), s.block.shelfTrained h = true ∧ s.block.regFld (shelfReg h 8) 32 32 ≠ 0 ∧ s.block.sys.slack ≠ 2 ∧ s.block.sys.slack ≠ 3 :=
  ⟨on (withReg cooled (shelfReg .a 0x10) (2 ^ 24 - 1)), .a, [], by decide +kernel, by decide +kernel, by decide +kernel, by decide +kernel⟩

theorem witness_RefreshScrubAndTestCommands_writeRead : ∃ (s : State) (p : Path) (h : HalfId) (ch : Fin 160) (a : Actor) (x : Block) (i : Instr) (mode : Nat), ((i = .tgWriteRead p h ch ∧ mode = 0 ∧ s.block.allDisabled = true ∨ i = .tgReadSweep p h ch ∧ mode = 1)) ∧ Arrives s.block p (s.block.testRoles h ch.val mode) a x :=
  ⟨on live, .zilsy (msg 5), .a, 0, who 2 5, _, .tgWriteRead (.zilsy (msg 5)) .a 0, 0, .inl ⟨rfl, rfl, by decide +kernel⟩, ⟨by decide +kernel, by decide +kernel, by decide +kernel, rfl⟩⟩

theorem witness_RefreshScrubAndTestCommands_readSweep : ∃ (s : State) (p : Path) (h : HalfId) (ch : Fin 160) (a : Actor) (x : Block) (i : Instr) (mode : Nat), ((i = .tgWriteRead p h ch ∧ mode = 0 ∧ s.block.allDisabled = true ∨ i = .tgReadSweep p h ch ∧ mode = 1)) ∧ Arrives s.block p (s.block.testRoles h ch.val mode) a x :=
  ⟨on live, .zilsy (msg 6), .b, 0, who 1 6, _, .tgReadSweep (.zilsy (msg 6)) .b 0, 1, .inr ⟨rfl, rfl⟩, ⟨by decide +kernel, by decide +kernel, by decide +kernel, rfl⟩⟩

theorem witness_RefreshScrubAndTestCommands_stop : ∃ (s : State) (p : Path) (h : HalfId) (ch : Fin 160) (a : Actor) (x : Block), Arrives s.block p (s.block.testRoles h ch.val 2) a x :=
  ⟨on (withReg live (chanReg .a 0 0x18) (2 ^ 62)), .zilsy (msg 6), .a, 0, who 1 6, _, ⟨by decide +kernel, by decide +kernel, by decide +kernel, rfl⟩⟩

theorem witness_RefreshScrubAndTestCommands_done : ∃ (s : State) (h : HalfId) (ch : Fin 160) (r : TgResult), s.block.regFld (chanReg h ch.val 0x18) 63 62 = 1 ∧ s.block.sys.slack ≠ 2 ∧ s.block.sys.slack ≠ 3 :=
  ⟨on (withReg (withReg live (chanReg .a 0 0x18) (2 ^ 62)) (chanReg .a 0 0x10) 1), .a, 0, { lines := [] }, by decide +kernel, by decide +kernel, by decide +kernel⟩

/-! ## Witnesses: media tasks and batches -/

/-- A running media task: its operation, its parameters and tensors. -/
def media (op : Nat) (params : List Nat) (ts : List (List Word × List Nat)) : TaskCtx :=
  running 0x09 ((BitVec.ofNat 64 (op * 2 ^ 56 + params.headD 0)) :: (params.drop 1).map (BitVec.ofNat 64)) [] ts

/-- An open context of job 9 for pictures of 64 by 64, its pool of one buffer at VA 0x40000, held by task 0. -/
def stream0 (encoder : Bool) : StreamCtx :=
  { job := 9, codec := 0, encoder := encoder, maxW := 64, maxH := 64, bit10 := false, fbBase := 0x40000, fbCount := 1, live := false, sets := [],
    buffers := [none], output := [], last := none, pictures := 0, history := [], inputs := [], source := none, vectors := [], queue := [task0] }

/-- A block whose half A has that context. -/
def streaming (b : Block) (x : StreamCtx) : Block := { b with halfA := { b.halfA with harbour := { b.halfA.harbour with streams := [(0, x)] } } }

/-- A decode of an empty input into no frames, of a context without a pool. -/
def decoder (errOk : Nat) : TaskCtx :=
  media 1 [errOk * 2 ^ 46 + 256, 0, 0x30000] [ten 0x0C 0x20000 [0], ten 0x0C 0x21000 [2, 2, 0], ten 0x0C 0x22000 [2, 1, 1, 0], ten 0x0C 0x23000 [32, 0]]

/-- An analysis of one picture of 2 by 2. -/
def analyser : TaskCtx :=
  media 2 [2 ^ 46, 0, 0x30000] [ten 0x0C 0x20000 [2, 2, 1], ten 0x0C 0x21000 [2, 1, 1, 1], ten 0x0C 0x22000 [1], ten 0x0B 0x23000 [1, 1, 1],
    ten 0x0C 0x24000 [32, 1]]

theorem mapRes_nil {α β : Type} {f : α → Res (List β)} (h : ∀ x, f x = .ok []) (l : List α) : concatRes f l = .ok [] := by
  have e : ∃ ls, mapRes f l = .ok ls ∧ ls.flatten = [] := by
    induction l with
    | nil => exact ⟨[], rfl, rfl⟩
    | cons x l ih =>
      obtain ⟨ls, e, n⟩ := ih
      exact ⟨[] :: ls, by simp only [mapRes, h x, e], by simp [n]⟩
  obtain ⟨ls, e, n⟩ := e
  simp only [concatRes, e, n]

/-- A decode into no frames, of a context without a pool, writes nothing. -/
theorem decode_of {b : Block} {t : TaskRef} {g : Graph} {c : TaskCtx} {x : StreamCtx} {draw : Nat} {l : List Byte}
    (h0 : b.rdN (b.taskAccess t.half g c) 0 (c.tensor 0).base ((c.tensor 0).ext 0) = .ok l)
    (hs : b.scratchOk g.slot x.fbBase x.poolBytes = true) (hy : (c.tensor 1).cap 2 = 0) (hn : fbSize x.maxW x.maxH x.bit10 = 0) :
    ∃ r, b.decodeRun t g c x draw = .ok r ∧ r.cells = [] := by
  have hp : ∀ k : List Nat, b.poolCells (b.taskAccess t.half g c) x draw k = .ok [] := fun k =>
    mapRes_nil (fun i => by simp only [hn]; rfl) k.eraseDups
  simp only [Block.decodeRun, h0, hs, hy, Clip.written, List.take_zero, hp]
  exact ⟨_, rfl, rfl⟩

/-- That decode's block and context. -/
def decoding : Block := streaming (runs (decoder 0) []) { stream0 false with maxW := 0, maxH := 0 }

theorem witness_MediaTasks_open : ∃ (s : State) (k : TaskRef) (g : Graph) (c : TaskCtx), Runs s.block k 0x09 g c ∧ c.desc.mediaOp = 3 ∧ s.block.stream k.half c.desc.ctxNo = none ∧ ((∀ x : StreamCtx, x.fbCount = c.desc.pf 1 34 30 → x.maxW = c.desc.pf 1 63 50 → x.maxH = c.desc.pf 1 49 36 → x.bit10 = decide (c.desc.pf 1 35 35 = 1) → s.block.scratchOk g.slot (c.desc.pf 2 47 0) x.poolBytes = true)) :=
  ⟨on (runs (media 3 [0, 64 * 2 ^ 50 + 64 * 2 ^ 36 + 2 ^ 30, 0x40000] []) []), task0, graphOf [media 3 [0, 64 * 2 ^ 50 + 64 * 2 ^ 36 + 2 ^ 30, 0x40000] []], media 3 [0, 64 * 2 ^ 50 + 64 * 2 ^ 36 + 2 ^ 30, 0x40000] [], by simp only [Runs]; decide +kernel, by decide +kernel, by decide +kernel, (by intro x h1 h2 h3 h4; simp only [StreamCtx.poolBytes, h1, h2, h3, h4]; decide +kernel)⟩

theorem witness_MediaTasks_close : ∃ (s : State) (k : TaskRef) (g : Graph) (c : TaskCtx) (x : StreamCtx), Runs s.block k 0x09 g c ∧ c.desc.mediaOp = 4 ∧ s.block.stream k.half c.desc.ctxNo = some x ∧ x.job = g.job ∧ s.block.holder k.half c.desc.ctxNo = some k :=
  ⟨on (streaming (runs (media 4 [] []) []) (stream0 false)), task0, graphOf [media 4 [] []], media 4 [] [], stream0 false, by simp only [Runs]; decide +kernel, by decide +kernel, by decide +kernel, by decide +kernel, by decide +kernel⟩

theorem witness_MediaTasks_closeUnopened : ∃ (s : State) (k : TaskRef) (g : Graph) (c : TaskCtx) (i : Instr), Runs s.block k 0x09 g c ∧ ((i = .contextClose k ∧ c.desc.mediaOp = 4 ∨ i = .decode k ∧ c.desc.mediaOp = 1 ∨ i = .encode k ∧ c.desc.mediaOp = 2)) ∧ s.block.stream k.half c.desc.ctxNo = none :=
  ⟨on (runs (media 4 [] []) []), task0, graphOf [media 4 [] []], media 4 [] [], .contextClose task0, by simp only [Runs]; decide +kernel, .inl ⟨rfl, by decide +kernel⟩, by decide +kernel⟩

theorem witness_MediaTasks_decode : ∃ (s : State) (k : TaskRef) (g : Graph) (c : TaskCtx) (i : Instr), Runs s.block k 0x09 g c ∧ ((i = .contextClose k ∧ c.desc.mediaOp = 4 ∨ i = .decode k ∧ c.desc.mediaOp = 1 ∨ i = .encode k ∧ c.desc.mediaOp = 2)) ∧ s.block.stream k.half c.desc.ctxNo = none :=
  ⟨on (runs (media 1 [] []) []), task0, graphOf [media 1 [] []], media 1 [] [], .decode task0, by simp only [Runs]; decide +kernel, .inr (.inl ⟨rfl, by decide +kernel⟩), by decide +kernel⟩

theorem witness_MediaTasks_encode : ∃ (s : State) (k : TaskRef) (g : Graph) (c : TaskCtx) (i : Instr), Runs s.block k 0x09 g c ∧ ((i = .contextClose k ∧ c.desc.mediaOp = 4 ∨ i = .decode k ∧ c.desc.mediaOp = 1 ∨ i = .encode k ∧ c.desc.mediaOp = 2)) ∧ s.block.stream k.half c.desc.ctxNo = none :=
  ⟨on (runs (media 2 [] []) []), task0, graphOf [media 2 [] []], media 2 [] [], .encode task0, by simp only [Runs]; decide +kernel, .inr (.inr ⟨rfl, by decide +kernel⟩), by decide +kernel⟩

theorem witness_MediaTasks_analyse : ∃ (s : State) (k : TaskRef) (g : Graph) (c : TaskCtx) (x : StreamCtx) (r : EncodeRun), Runs s.block k 0x09 g c ∧ c.desc.mediaOp = 2 ∧ s.block.stream k.half c.desc.ctxNo = some x ∧ s.block.holder k.half c.desc.ctxNo = some k ∧ (s.block.touch k g c).encodeRun k g c x = .ok r ∧ s.block.badHits r.cells = [] :=
  ⟨on (streaming (runs analyser [1, 2]) (stream0 true)), task0, graphOf [analyser], analyser, stream0 true, okThe (((streaming (runs analyser [1, 2]) (stream0 true)).touch task0 (graphOf [analyser]) analyser).encodeRun task0 (graphOf [analyser]) analyser (stream0 true)) (by decide +kernel), by simp only [Runs]; decide +kernel, by decide +kernel, by decide +kernel, by decide +kernel, okThe_eq _ _, by decide +kernel⟩

theorem witness_MediaTasks_frame : ∃ (s : State) (k : TaskRef) (picture : Nat) (rows : Nat) (g : Graph) (c : TaskCtx) (i : Instr) (key : Nat), Runs s.block k 0x09 g c ∧ ((i = .frameWatchdog k picture rows ∧ key = picture ∧ (c.desc.mediaOp = 1 ∨ c.desc.mediaOp = 0x14) ∨ i = .imageWatchdog k rows ∧ key = 0 ∧ (c.desc.mediaOp = 0x10 ∨ c.desc.mediaOp = 0x14))) :=
  ⟨on (runs (media 1 [] []) []), task0, 3, 5, graphOf [media 1 [] []], media 1 [] [], .frameWatchdog task0 3 5, 3, by simp only [Runs]; decide +kernel, .inl ⟨rfl, rfl, .inl (by decide +kernel)⟩⟩

theorem witness_MediaTasks_image : ∃ (s : State) (k : TaskRef) (picture : Nat) (rows : Nat) (g : Graph) (c : TaskCtx) (i : Instr) (key : Nat), Runs s.block k 0x09 g c ∧ ((i = .frameWatchdog k picture rows ∧ key = picture ∧ (c.desc.mediaOp = 1 ∨ c.desc.mediaOp = 0x14) ∨ i = .imageWatchdog k rows ∧ key = 0 ∧ (c.desc.mediaOp = 0x10 ∨ c.desc.mediaOp = 0x14))) :=
  ⟨on (runs (media 0x14 [] []) []), task0, 0, 5, graphOf [media 0x14 [] []], media 0x14 [] [], .imageWatchdog task0 5, 0, by simp only [Runs]; decide +kernel, .inr ⟨rfl, rfl, .inr (by decide +kernel)⟩⟩

theorem witness_MediaTasks_decodes : ∃ (s : State) (k : TaskRef) (g : Graph) (c : TaskCtx) (x : StreamCtx) (r : DecodeRun) (cells : List Host.Cell) (m : List Host.Cell) (d : List Host.Cell) (st : Nat), Runs s.block k 0x09 g c ∧ c.desc.mediaOp = 1 ∧ s.block.stream k.half c.desc.ctxNo = some x ∧ s.block.holder k.half c.desc.ctxNo = some k ∧ (s.block.touch k g c).fresh.2.decodeRun k g c x (s.block.touch k g c).fresh.1 = .ok r ∧ ((¬ (c.desc.pf 0 46 46 = 1 ∧ r.status.1 ∈ [stInputLimit, stInputCorrupt, stConcealed]) ∧ cells = r.cells ∧ st = r.status.1 ∨ (c.desc.pf 0 46 46 = 1 ∧ r.status.1 ∈ [stInputLimit, stInputCorrupt, stConcealed]) ∧ cells = r.cells ++ m ++ d ∧ st = stOk ∧ s.block.wrCells (s.block.taskAccess k.half g c) 8 (c.desc.pf 2 47 0 + 20) (leBytes 2 r.status.1) = .ok m ∧ s.block.wrCells (s.block.taskAccess k.half g c) 8 (c.desc.pf 2 47 0 + 28) (leBytes 4 r.status.2.1) = .ok d)) ∧ s.block.badHits cells = [] := by
  obtain ⟨r, hr, hc⟩ := decode_of (b := (decoding.touch task0 (graphOf [decoder 0]) (decoder 0)).fresh.2) (t := task0) (g := graphOf [decoder 0])
    (c := decoder 0) (x := { stream0 false with maxW := 0, maxH := 0 }) (draw := (decoding.touch task0 (graphOf [decoder 0]) (decoder 0)).fresh.1)
    (l := []) rfl (by decide +kernel) (by decide +kernel) (by decide +kernel)
  exact ⟨on decoding, task0, graphOf [decoder 0], decoder 0, { stream0 false with maxW := 0, maxH := 0 }, r, [], [], [], r.status.1, by simp only [Runs]; decide +kernel, by decide +kernel, by decide +kernel, by decide +kernel, hr, .inl ⟨fun h => absurd h.1 (by decide +kernel), hc.symm, rfl⟩, rfl⟩

theorem noPixels {b : Block} {a : Access} {o : Tensor} {p w ch : Nat} : b.pixelCells a o p w ch [] = .ok [] := by
  simp [Block.pixelCells, concatRes, mapRes]

theorem noCoef {x : Config.ImageSyntax} (hw : x.width = 0) (hh : x.height = 0) : coefBytes x = 0 := by
  have h : ∀ s, cdiv 0 s = 0 := by
    intro s
    simp only [cdiv]
    cases s with
    | zero => rfl
    | succ s => exact Nat.div_eq_of_lt (by omega)
  simp [coefBytes, hw, hh, h]

/-- A decode of an image into an array without width and height writes nothing, whatever the image is. -/
theorem image_of {b : Block} {t : TaskRef} {a : Access} {c : TaskCtx} {draw : Nat} {l : List Byte}
    (h0 : b.rdN a 0 (c.tensor 0).base ((c.tensor 0).ext 0) = .ok l) (h1 : (c.tensor 1).cap 1 = 0) (h2 : (c.tensor 1).cap 2 = 0)
    (h3 : c.desc.uses 2 = false) (hs : b.scratchOk a.slot (c.tensor 2).base 0 = true) :
    ∃ r, b.imageRun t a c draw = .ok r ∧ r.cells = [] := by
  simp only [Block.imageRun, h0, h1, h2, h3, decodeImage, Bool.false_eq_true, if_false]
  generalize hx : Config.image l = x
  generalize imageLimit x l.length _ _ 0 = n
  rcases n with _ | n
  · rcases Nat.eq_zero_or_pos x.width with hw | hw <;> rcases Nat.eq_zero_or_pos x.height with hh | hh <;>
      rcases tabFind c.watchdogs 0 with _ | r <;> rcases x.error with _ | off <;>
      simp only [hw, hh, Nat.mul_zero, List.range_zero, List.flatMap_nil, noPixels, Nat.lt_irrefl, if_false, if_true, Block.scratchCells, hx, noCoef, hs] <;>
      first | exact ⟨_, rfl, rfl⟩ | skip
    all_goals (cases x.progressive <;> exact ⟨_, rfl, rfl⟩)
  · rcases Nat.eq_zero_or_pos x.width with hw | hw <;> rcases Nat.eq_zero_or_pos x.height with hh | hh <;> by_cases hn : n = 0x0A <;>
      simp only [hn, hw, hh, Nat.mul_zero, Nat.zero_mul, Nat.min_zero, List.range_zero, List.flatMap_nil, noPixels, Nat.lt_irrefl, or_self, or_true, true_or,
        if_false, if_true, Except.map] <;>
      exact ⟨_, rfl, rfl⟩

/-- An audio decode into an array that cannot hold a mel vector writes nothing, whatever the sound is. -/
theorem audio_of {b : Block} {t : TaskRef} {a : Access} {c : TaskCtx} {p : AudioProfile} {l : List Byte}
    (h0 : b.rdN a 0 (c.tensor 0).base ((c.tensor 0).ext 0) = .ok l) (h1 : (c.tensor 1).cap 0 < p.mels) :
    ∃ r, b.audioRun t a c p = .ok r ∧ r.cells = [] := by
  simp only [Block.audioRun, h0, h1, if_true]
  rcases decodeAudio l p _ _ with _ | _ | _ <;> exact ⟨_, rfl, rfl⟩

/-- What the bytes of a PNG image of one pixel say. -/
def onePixel : Config.ImageSyntax :=
  { known := true, png := true, width := 1, height := 1, comps := 3, depth := 1, stored := 3, progressive := false, subX := 1, subY := 1,
    chunks := 1, longChunk := false, error := none, rows := 1 }

/-- An attempt on an image of one pixel without scratch keeps the sample, whatever the image's samples are. -/
theorem sample_of {b : Block} {t : TaskRef} {a : Access} {c : TaskCtx} {l : List Byte} {u draw : Nat} (h : Config.image l = onePixel)
    (hl : 0 < l.length) (hm : ¬ (b.imgMax t.half true).1 < 1 ∧ ¬ (b.imgMax t.half true).2 < 1)
    (hc : c.desc.pf 0 52 52 = 0) (hw : tabFind c.watchdogs 0 = none) :
    ∃ vs, b.tryImage t a c u l draw = .ok { block := (b.landCells []).1, done := 1, res := .sample stOk 0 3 1 1 vs } := by
  have h4 : ¬ 1024 * l.length < 3 := by omega
  simp [Block.tryImage, Except.map, Block.scratchCells, decodeImage, imageLimit, h, onePixel, hc, hw, hm.1, hm.2, h4]

/-- A decode of an image of one byte into no room. -/
def imager : TaskCtx := media 0x10 [] [ten 0x0C 0x20000 [1], ten 0x00 0x21000 [3, 0, 0]]

/-- An audio profile: 16 kHz, one mel band from 0 to 8 kHz, windows of 16 at steps of 16. -/
def profile16 : List Byte := words [2 ^ 53 + 16 * 2 ^ 40 + 16 * 2 ^ 28, 0x45FA0000, 0, 0]

/-- A decode of a sound of one byte into no room, its profile at VA 0x30000. -/
def sounder : TaskCtx := media 0x11 [0, 0, 0x30000] [ten 0x0C 0x20000 [1], ten 0x00 0x21000 [0, 1]]

/-- A tokenise task without items, its table of one entry at VA 0x30000. -/
def texter : TaskCtx :=
  media 0x12 [0, 0, 0x30000, 0] [ten 0x0C 0x20000 [1], ten 0x0B 0x21000 [2, 0], ten 0x0A 0x22000 [4, 0], ten 0x0C 0x23000 [32, 1]]

/-- A block whose half A's merge store holds that table. -/
def merging (b : Block) : Block :=
  { b with halfA := { b.halfA with harbour := { b.halfA.harbour with mergeKey := some (9, 0x30000, 1), mergeTable := [(0, 1)] } } }

/-- A crop of one box of a map of 2 by 2. -/
def cropper : TaskCtx :=
  media 0x13 [] [ten 0x00 0x20000 [1, 2, 2, 1], ten 0x00 0x24000 [4, 1], ten 0x0A 0x25000 [1], ten 0x00 0x26000 [1, 1, 1, 1]]

/-- A batch task of a domain with one position, its directory of one entry, and as many augmentation records as given at VA 0x30000. -/
def batch (domain augs len : Nat) : TaskCtx :=
  media 0x14 [domain * 2 ^ 53 + augs * 2 ^ 48, 0, 0x30000] [ten 0x0A 0x20000 [1], ten 0x0B 0x20040 [2, 1], ten 0x0C 0x20080 [len], ten 0x0A 0x200C0 [0],
    ten 0x00 0x21000 [3, 1, 1, 1], ten 0x00 0x22000 [1], ten 0x00 0x23000 [1], ten 0x0C 0x24000 [32, 1]]

/-- Its memory: the plan names entry `i`; the entry is `len` bytes at 0. -/
def batchMem (c : TaskCtx) (i len : Nat) : Block := put (put (runs c (leBytes 4 i)) 0x200020040 (words [0, len])) 0x200020080 [0x41]

/-- A task at its first position. -/
def first (c : TaskCtx) : TaskCtx := { c with batch := some (BatchWork.start 0 0) }

/-- A sample of one pixel whose augmentation begins. -/
def augmenting (c : TaskCtx) : TaskCtx :=
  { c with batch := some { BatchWork.start 0 0 with augment := true, chans := 3, width := 1, height := 1, values := [0, 0, 0] } }

/-- The block with augmentation records in memory: KIND 2 (FLIP), no parameters. -/
def withFlips (b : Block) : Block := put b 0x200030000 (leBytes 8 2 ++ List.replicate 24 0 ++ leBytes 8 2 ++ List.replicate 24 0)

/-- That decode's block. -/
def sounding : Block := put (runs sounder [1]) 0x200030000 profile16

/-- The block of a text batch at its position, and the block after its attempt. -/
def texting : Block := batchMem (first (batch 3 0 1)) 0 1
def counted : Block := (texting.fresh.2.count (inReg .a 0x20) 7 0 0).countPipe .a 23 1

/-- The block of an image batch at its position. -/
def picturing : Block := withFlips (batchMem (first (batch 0 1 1)) 0 1)

/-- An attempt on an image is counted by its unit. -/
theorem domain_of {b : Block} {t : TaskRef} {g : Graph} {c : TaskCtx} {w : BatchWork} {u : Nat} {l pf : List Byte} {draw : Nat} {r : AttemptOut}
    (h : c.desc.pf 0 55 53 = 0) (hr : b.tryImage t (b.taskAccess t.half g c) c u l draw = .ok r) :
    b.tryDomain t g c w u l pf draw = .ok { r with block := r.block.countPipe t.half u r.done } := by
  simp only [Block.tryDomain, h, hr, Except.map]

theorem text_of {b : Block} {t : TaskRef} {g : Graph} {c : TaskCtx} {w : BatchWork} {u : Nat} {l pf : List Byte} {draw n : Nat}
    (h : c.desc.pf 0 55 53 = 3 ∧ ¬ b.regFld (inReg t.half 0x18) 26 0 < l.length ∧
      (validate (c.desc.pf 0 51 51 = 1) l).toOption.map (fun x => b2n x.2) = some n) :
    b.tryDomain t g c w u l pf draw = .ok { block := (b.count (inReg t.half 0x20) 7 0 n).countPipe t.half u 1, done := 1, res := .cells stOk 0 [] 0 } := by
  obtain ⟨h1, h2, h3⟩ := h
  cases e : validate (c.desc.pf 0 51 51 = 1) l with
  | error x => rw [e] at h3; cases h3
  | ok x =>
    rw [e] at h3
    simp only [Except.toOption, Option.map_some, Option.some.injEq] at h3
    simp only [Block.tryDomain, h1, Block.tryText, h2, if_false, e, h3, Except.map]

theorem witness_MediaTasks_imageRun : ∃ (s : State) (k : TaskRef) (g : Graph) (c : TaskCtx) (r : SampleRun) (i : Instr), Runs s.block k 0x09 g c ∧ s.block.served k = true ∧ ((i = .imageDecode k ∧ c.desc.mediaOp = 0x10 ∧ (s.block.touch k g c).fresh.2.imageRun k (s.block.taskAccess k.half g c) c (s.block.touch k g c).fresh.1 = .ok r ∨ i = .audioDecode k ∧ c.desc.mediaOp = 0x11 ∧ ∃ pf, (s.block.touch k g c).rdN (s.block.taskAccess k.half g c) 8 (c.desc.pf 2 47 0) 32 = .ok pf ∧ profileOk pf = true ∧ (s.block.touch k g c).audioRun k (s.block.taskAccess k.half g c) c (parseProfile pf) = .ok r)) ∧ s.block.badHits r.cells = [] := by
  obtain ⟨r, hr, hc⟩ := image_of (b := ((runs imager [1]).touch task0 (graphOf [imager]) imager).fresh.2) (t := task0)
    (a := (runs imager [1]).taskAccess .a (graphOf [imager]) imager) (c := imager)
    (draw := ((runs imager [1]).touch task0 (graphOf [imager]) imager).fresh.1) (l := [1])
    (by decide +kernel) (by decide +kernel) (by decide +kernel) (by decide +kernel) (by decide +kernel)
  exact ⟨on (runs imager [1]), task0, graphOf [imager], imager, r, .imageDecode task0, by simp only [Runs]; decide +kernel, by decide +kernel, .inl ⟨rfl, by decide +kernel, hr⟩, (by rw [hc]; rfl)⟩

theorem witness_MediaTasks_audio : ∃ (s : State) (k : TaskRef) (g : Graph) (c : TaskCtx) (r : SampleRun) (i : Instr), Runs s.block k 0x09 g c ∧ s.block.served k = true ∧ ((i = .imageDecode k ∧ c.desc.mediaOp = 0x10 ∧ (s.block.touch k g c).fresh.2.imageRun k (s.block.taskAccess k.half g c) c (s.block.touch k g c).fresh.1 = .ok r ∨ i = .audioDecode k ∧ c.desc.mediaOp = 0x11 ∧ ∃ pf, (s.block.touch k g c).rdN (s.block.taskAccess k.half g c) 8 (c.desc.pf 2 47 0) 32 = .ok pf ∧ profileOk pf = true ∧ (s.block.touch k g c).audioRun k (s.block.taskAccess k.half g c) c (parseProfile pf) = .ok r)) ∧ s.block.badHits r.cells = [] := by
  obtain ⟨r, hr, hc⟩ := audio_of (b := sounding.touch task0 (graphOf [sounder]) sounder) (t := task0)
    (a := sounding.taskAccess .a (graphOf [sounder]) sounder) (c := sounder) (p := parseProfile profile16) (l := [1])
    (by decide +kernel) (by decide +kernel)
  exact ⟨on sounding, task0, graphOf [sounder], sounder, r, .audioDecode task0, by simp only [Runs]; decide +kernel, by decide +kernel, .inr ⟨rfl, by decide +kernel, profile16, by decide +kernel, by decide +kernel, hr⟩, (by rw [hc]; rfl)⟩

theorem witness_MediaTasks_tokenise : ∃ (s : State) (k : TaskRef) (g : Graph) (c : TaskCtx) (r : List Host.Cell × Nat), Runs s.block k 0x09 g c ∧ c.desc.mediaOp = 0x12 ∧ s.block.served k = true ∧ (s.block.harbour k.half).mergeKey = some (c.desc.mergeKey g.job) ∧ (s.block.touch k g c).textRun (s.block.taskAccess k.half g c) c (s.block.harbour k.half).mergeTable (s.block.regFld (inReg k.half 0x18) 26 0) = .ok (.ok r) ∧ s.block.badHits r.1 = [] :=
  ⟨on (merging (runs texter [])), task0, graphOf [texter], texter, ([], 0), by simp only [Runs]; decide +kernel, by decide +kernel, by decide +kernel, by decide +kernel, by decide +kernel, by decide +kernel⟩

theorem witness_MediaTasks_load : ∃ (s : State) (k : TaskRef) (g : Graph) (c : TaskCtx) (ws : List Nat), Runs s.block k 0x09 g c ∧ c.desc.mediaOp = 0x12 ∧ s.block.served k = true ∧ (s.block.harbour k.half).mergeKey ≠ some (c.desc.mergeKey g.job) ∧ ((∀ u ∈ (s.block.harbour k.half).mergeUsers, s.block.isRunning u = false)) ∧ mapRes (fun i => (s.block.touch k g c).rdNat ((s.block.touch k g c).taskAccess k.half g c) 8 (c.desc.pf 2 47 0 + 8 * i) 8) (List.range (c.desc.mergeKey g.job).2.2) = .ok ws ∧ mergeFault ws = none :=
  ⟨on (put (runs texter []) 0x200030000 (words [0x100000000 * 65 + 66])), task0, graphOf [texter], texter, [0x100000000 * 65 + 66], by simp only [Runs]; decide +kernel, by decide +kernel, by decide +kernel, by decide +kernel, by decide +kernel, by decide +kernel, by decide +kernel⟩

theorem witness_MediaTasks_crop : ∃ (s : State) (k : TaskRef) (g : Graph) (c : TaskCtx) (r : CropRun), Runs s.block k 0x09 g c ∧ c.desc.mediaOp = 0x13 ∧ s.block.served k = true ∧ (s.block.touch k g c).cropRun (s.block.taskAccess k.half g c) c = .ok r ∧ s.block.badHits r.cells = [] :=
  ⟨on (put (put (runs cropper (fp32s [0x3F800000])) 0x200024000 (fp32s [0, 0, 0x3F800000, 0x3F800000])) 0x200025000 [0]), task0, graphOf [cropper], cropper, okThe (((put (put (runs cropper (fp32s [0x3F800000])) 0x200024000 (fp32s [0, 0, 0x3F800000, 0x3F800000])) 0x200025000 [0]).touch task0 (graphOf [cropper]) cropper).cropRun ((put (put (runs cropper (fp32s [0x3F800000])) 0x200024000 (fp32s [0, 0, 0x3F800000, 0x3F800000])) 0x200025000 [0]).taskAccess .a (graphOf [cropper]) cropper) cropper) (by decide +kernel), by simp only [Runs]; decide +kernel, by decide +kernel, by decide +kernel, okThe_eq _ _, by decide +kernel⟩

theorem witness_BatchCommands_start : ∃ (s : State) (k : TaskRef) (g : Graph) (c : TaskCtx) (i : Nat), Runs s.block k 0x09 g c ∧ c.desc.mediaOp = 0x14 ∧ s.block.served k = true ∧ c.batch = none ∧ (s.block.touch k g c).batchStart (s.block.taskAccess k.half g c) c = .ok (.ok i) :=
  ⟨on (batchMem (batch 3 0 1) 0 1), task0, graphOf [batch 3 0 1], batch 3 0 1, 0, by simp only [Runs]; decide +kernel, by decide +kernel, by decide +kernel, by decide +kernel, by decide +kernel⟩

theorem witness_BatchCommands_refused : ∃ (s : State) (k : TaskRef) (g : Graph) (c : TaskCtx) (f : Nat × Nat), Runs s.block k 0x09 g c ∧ c.desc.mediaOp = 0x14 ∧ s.block.served k = true ∧ c.batch = none ∧ (s.block.touch k g c).batchStart (s.block.taskAccess k.half g c) c = .ok (.error f) :=
  ⟨on (batchMem (batch 3 0 1) 5 1), task0, graphOf [batch 3 0 1], batch 3 0 1, (stShapeOver, 5 * 256), by simp only [Runs]; decide +kernel, by decide +kernel, by decide +kernel, by decide +kernel, by decide +kernel⟩

theorem witness_BatchCommands_failed : ∃ (s : State) (k : TaskRef) (g : Graph) (c : TaskCtx) (w : BatchWork) (off : Nat) (plan : List Nat) (reserve : List Nat), Runs s.block k 0x09 g c ∧ c.desc.mediaOp = 0x14 ∧ c.batch = some w ∧ w.augment = false ∧ s.block.sampleInput (s.block.taskAccess k.half g c) c w = .ok (off, none) ∧ w.attempt < 4 ∧ (s.block.countSample k.half stInputCorrupt).indices (s.block.taskAccess k.half g c) (c.tensor 0) = .ok plan ∧ (s.block.countSample k.half stInputCorrupt).indices (s.block.taskAccess k.half g c) (c.tensor 3) = .ok reserve :=
  ⟨on (batchMem (first (batch 3 0 1)) 0 9), task0, graphOf [first (batch 3 0 1)], first (batch 3 0 1), BatchWork.start 0 0, 0, [0], [], by simp only [Runs]; decide +kernel, by decide +kernel, by decide +kernel, by decide +kernel, by decide +kernel, by decide +kernel, by decide +kernel, by decide +kernel⟩

theorem witness_BatchCommands_text : ∃ (s : State) (k : TaskRef) (g : Graph) (c : TaskCtx) (w : BatchWork) (off : Nat) (n : Nat) (m : Nat) (st : Nat) (det : Nat) (u : Nat) (l : List Byte) (pf : List Byte) (augs : List AugRecord) (b : Block) (own : List Host.Cell) (cells : List Host.Cell), Runs s.block k 0x09 g c ∧ c.desc.mediaOp = 0x14 ∧ c.batch = some w ∧ w.augment = false ∧ s.block.sampleInput (s.block.taskAccess k.half g c) c w = .ok (off, some (l, augs, pf)) ∧ s.block.sampleUnit k.half c.desc w l = some u ∧ s.block.fresh.2.tryDomain k g c w u l pf s.block.fresh.1 = .ok { block := b, done := m, res := .cells st det own n } ∧ Runs b k 0x09 g c ∧ b.fresh.2.positionCells (s.block.taskAccess k.half g c) c (w.note st det) own b.fresh.1 = .ok cells ∧ (c.tensor 0).ext 0 ≤ w.pos + 1 ∧ b.badHits cells = [] :=
  ⟨on texting, task0, graphOf [first (batch 3 0 1)], first (batch 3 0 1), BatchWork.start 0 0, 0, 0, 1, stOk, 0, 23, [0x41], [], [], counted, [], okThe (counted.fresh.2.positionCells (texting.taskAccess .a (graphOf [first (batch 3 0 1)]) (first (batch 3 0 1))) (first (batch 3 0 1)) ((BatchWork.start 0 0).note stOk 0) [] counted.fresh.1) (by decide +kernel), by simp only [Runs]; decide +kernel, by decide +kernel, by decide +kernel, by decide +kernel, by decide +kernel, by decide +kernel, text_of (by decide +kernel), by simp only [Runs]; decide +kernel, okThe_eq _ _, by decide +kernel, by decide +kernel⟩

theorem witness_BatchCommands_flip : ∃ (s : State) (k : TaskRef) (g : Graph) (c : TaskCtx) (w : BatchWork) (augs : List AugRecord) (r : AugRecord) (i : Instr) (u : Nat → Nat) (w' : BatchWork), Runs s.block k 0x09 g c ∧ c.desc.mediaOp = 0x14 ∧ c.batch = some w ∧ w.augment = true ∧ s.block.augList (s.block.taskAccess k.half g c) c.desc = .ok augs ∧ augs[w.op]? = some r ∧ u = (fun n => drawU (s.block.taskAccess k.half g c).seed (c.desc.pf 1 63 32) w.op w.index n) ∧ (i, r.code, w') ∈ [(Instr.resize k, 1, w.applyResize u r ((c.tensor 4).ext 1) ((c.tensor 4).ext 2)), (.flip k, 2, w.applyFlip u r), (.jitter k, 3, w.applyJitter u r), (.norm k, 4, w.applyNorm r), (.gain k, 5, w.applyGain u r), (.fmask k, 6, w.applyMask u r true w.width), (.tmask k, 7, w.applyMask u r false w.height)] :=
  ⟨on (withFlips (runs (augmenting (batch 0 2 1)) [])), task0, graphOf [augmenting (batch 0 2 1)], augmenting (batch 0 2 1), { BatchWork.start 0 0 with augment := true, chans := 3, width := 1, height := 1, values := [0, 0, 0] }, [parseAug (leBytes 8 2 ++ List.replicate 24 0), parseAug (leBytes 8 2 ++ List.replicate 24 0)], parseAug (leBytes 8 2 ++ List.replicate 24 0), .flip task0, _, _, by simp only [Runs]; decide +kernel, by decide +kernel, by decide +kernel, by decide +kernel, by decide +kernel, by decide +kernel, rfl, .tail _ (.head _)⟩

theorem witness_BatchCommands_image (hx : Config.image [0x41] = onePixel) : ∃ (s : State) (k : TaskRef) (g : Graph) (c : TaskCtx) (d : TaskCtx) (w : BatchWork) (off : Nat) (l : List Byte) (pf : List Byte) (augs : List AugRecord) (b : Block) (st : Nat) (det : Nat) (ch : Nat) (wd : Nat) (ht : Nat) (n : Nat) (u : Nat) (vs : List Nat), Runs s.block k 0x09 g c ∧ c.desc.mediaOp = 0x14 ∧ c.batch = some w ∧ w.augment = false ∧ s.block.sampleInput (s.block.taskAccess k.half g c) c w = .ok (off, some (l, augs, pf)) ∧ augs ≠ [] ∧ s.block.sampleUnit k.half c.desc w l = some u ∧ s.block.fresh.2.tryDomain k g c w u l pf s.block.fresh.1 = .ok { block := b, done := n, res := .sample st det ch wd ht vs } ∧ b.task k = some d := by
  obtain ⟨vs, hv⟩ := sample_of (b := picturing.fresh.2) (t := task0) (a := picturing.fresh.2.taskAccess .a (graphOf [first (batch 0 1 1)]) (first (batch 0 1 1)))
    (c := first (batch 0 1 1)) (u := 17) (draw := picturing.fresh.1) hx (by decide) (by decide +kernel) (by decide +kernel) (by decide +kernel)
  exact ⟨on picturing, task0, graphOf [first (batch 0 1 1)], first (batch 0 1 1), first (batch 0 1 1), BatchWork.start 0 0, 0, [0x41], [], [parseAug (leBytes 8 2 ++ List.replicate 24 0)], (picturing.fresh.2.landCells []).1.countPipe .a 17 1, stOk, 0, 3, 1, 1, 1, 17, vs, by simp only [Runs]; decide +kernel, by decide +kernel, by decide +kernel, by decide +kernel, by decide +kernel, by decide +kernel, (by simp only [Block.sampleUnit, TaskDesc.sampleUnits, hx]; decide +kernel), (domain_of (by decide +kernel) hv), by decide +kernel⟩

/-! ## Witnesses: host tasks, power and heat -/

/-- A host signal to a queue pair. -/
def signal (q : Nat) : TaskCtx := running 0x0A [BitVec.ofNat 64 (q * 2 ^ 58), 7, 8] [] []

/-- A block whose half A runs that signal, pair 0 enabled for job 9. -/
def signalling (q : Nat) : Block := paired (runs (signal q) []) pair6

/-- A power hint: its Tide, its length of 10 µs and its level. -/
def hint (tide : Nat) : TaskCtx := running 0x0E [BitVec.ofNat 64 tide, BitVec.ofNat 64 (10 * 2 ^ 48 + 30 * 2 ^ 41)] [] []

/-- A gate check without veto, records or examined entries, its contribution into tensor 0. -/
def gateCheck : TaskCtx := running 0x0D [0, 0, 0, 0] [] [ten 0x0C 0x20000 [32]]

/-- A report of a checkpoint of job 9. -/
def gateReport : TaskCtx := running 0x0D [BitVec.ofNat 64 (2 ^ 60), BitVec.ofNat 64 (3 * 2 ^ 48 + 4 * 2 ^ 32), 5, 0] [] []

/-- A block with two hint windows, of which one is due. -/
def hinted : Block :=
  { live with power := { live.power with hints := [{ half := .a, start := 0, stop := 5, level := 30, opened := false },
                                                   { half := .a, start := 10 ^ 9, stop := 2 * 10 ^ 9, level := 30, opened := false }] } }

/-- A block that has been cool for two milliseconds, its thermal limit at 63. -/
def recovering : Block :=
  { withReg live (pwrReg 0x10) (63 * 2 ^ 34 + 2 ^ 32) with
    power := { live.power with coolFrom := some 1 }, sys := { live.sys with upNs := 2000000 } }

theorem witness_HostSignalHintAndGateTasks_signal : ∃ (s : State) (k : TaskRef) (g : Graph) (c : TaskCtx) (q : Nat), Runs s.block k 0x0A g c ∧ q = c.desc.pf 0 63 58 ∧ Shaped s.block ∧ (s.block.pair q).enabled = true ∧ (s.block.pair q).job = g.job ∧ (s.block.pair q).cqHeld < 2 ^ (s.block.pair q).cqLog2 :=
  ⟨on (signalling 0), task0, graphOf [signal 0], signal 0, 0, by simp only [Runs]; decide +kernel, by decide +kernel, by simp only [Shaped]; decide +kernel, by decide +kernel, by decide +kernel, by decide +kernel⟩

theorem witness_HostSignalHintAndGateTasks_disabled : ∃ (s : State) (k : TaskRef) (g : Graph) (c : TaskCtx) (q : Nat), Runs s.block k 0x0A g c ∧ q = c.desc.pf 0 63 58 ∧ (((s.block.pair q).enabled = false ∧ c.stage = 0 ∨ (s.block.pair q).enabled = true ∧ (s.block.pair q).job ≠ g.job)) :=
  ⟨on (runs (signal 3) []), task0, graphOf [signal 3], signal 3, 3, by simp only [Runs]; decide +kernel, by decide +kernel, by decide +kernel⟩

theorem witness_HostSignalHintAndGateTasks_otherJob : ∃ (s : State) (k : TaskRef) (g : Graph) (c : TaskCtx) (q : Nat), Runs s.block k 0x0A g c ∧ q = c.desc.pf 0 63 58 ∧ (((s.block.pair q).enabled = false ∧ c.stage = 0 ∨ (s.block.pair q).enabled = true ∧ (s.block.pair q).job ≠ g.job)) :=
  ⟨on (paired (runs (signal 0) []) { pair6 with job := 8 }), task0, graphOf [signal 0], signal 0, 0, by simp only [Runs]; decide +kernel, by decide +kernel, by decide +kernel⟩

theorem witness_HostSignalHintAndGateTasks_hint : ∃ (s : State) (k : TaskRef) (g : Graph) (c : TaskCtx), Runs s.block k 0x0E g c :=
  ⟨on (runs (hint 1000000) []), task0, graphOf [hint 1000000], hint 1000000, by simp only [Runs]; decide +kernel⟩

theorem witness_HostSignalHintAndGateTasks_check : ∃ (s : State) (k : TaskRef) (g : Graph) (c : TaskCtx) (veto : Nat) (cells : List Host.Cell), Runs s.block k 0x0D g c ∧ c.desc.pf 0 63 60 = 0 ∧ (if c.desc.vetoEn then s.block.rdNat (s.block.taskAccess k.half g c) 1 (c.tensor 1).base 4 else .ok 0) = .ok veto ∧ s.block.rowCells (s.block.taskAccess k.half g c) (c.tensor 0) (0, 0, 0, 0) { codes := (s.block.contribution k.half g c (decide (veto ≠ 0))).bytes.map (fun x => x.toNat), scales := [], stats := ConvStats.zero } = .ok cells ∧ s.block.badHits cells = [] :=
  ⟨on (runs gateCheck []), task0, graphOf [gateCheck], gateCheck, 0, okThe ((runs gateCheck []).rowCells ((runs gateCheck []).taskAccess .a (graphOf [gateCheck]) gateCheck) (gateCheck.tensor 0) (0, 0, 0, 0) { codes := ((runs gateCheck []).contribution .a (graphOf [gateCheck]) gateCheck false).bytes.map (fun x => x.toNat), scales := [], stats := ConvStats.zero }) (by decide +kernel), by simp only [Runs]; decide +kernel, by decide +kernel, by decide +kernel, okThe_eq _ _, by decide +kernel⟩

theorem witness_HostSignalHintAndGateTasks_report : ∃ (s : State) (k : TaskRef) (g : Graph) (c : TaskCtx) (e : Nat), Runs s.block k 0x0D g c ∧ c.desc.pf 0 63 60 = 1 ∧ s.block.leaderEp k.half = some e :=
  ⟨on (withReg (runs gateReport []) (gateReg .a 0x10) (2 ^ 47)), task0, graphOf [gateReport], gateReport, 0, by simp only [Runs]; decide +kernel, by decide +kernel, by decide +kernel⟩

theorem witness_PowerCommands_window : ∃ (s : State) (w : PowerSample) (total : Int), s.block.sys.powerGood = true ∧ total = (((s.block.usedEnergy w).map (fun e => e.2.2)).sum : Nat) + s.block.staticEnergy :=
  ⟨on live, { core := [], uncore := [], issued := 0 }, _, by decide +kernel, rfl⟩

theorem witness_PowerCommands_meter : ∃ (s : State) (m : MeterSample), s.block.sys.powerGood = true :=
  ⟨on live, { vin := 4800, iin := 100, pin := 50, rails := [(750, 5)] }, by decide +kernel⟩

theorem witness_PowerCommands_readings : ∃ (s : State) (temps : List Int) (chans : List Int) (coolant : Option Int), s.block.sys.powerGood = true :=
  ⟨on live, [25], [], none, by decide +kernel⟩

theorem witness_PowerCommands_last : ∃ (s : State) (since : Nat), s.block.sys.powerGood = true ∧ s.block.regFld (pwrReg 0x10) 40 34 < 64 ∧ s.block.power.coolFrom = some since ∧ since + 1000000 ≤ s.block.sys.upNs :=
  ⟨on recovering, 1, by decide +kernel, by decide +kernel, by decide +kernel, by decide +kernel⟩

theorem witness_PowerCommands_lower : ∃ (s : State) (h : HalfId) (above : Bool), s.block.sys.powerGood = true :=
  ⟨on live, .a, true, by decide +kernel⟩

theorem witness_PowerCommands_alarm : ∃ (s : State) (h : HalfId), s.block.sys.powerGood = true :=
  ⟨on (withReg live (pwrReg 0x18) (5 * 2 ^ 32)), .a, by decide +kernel⟩

/-! ## Witnesses: collectives -/

/-- A ring of the two halves in position order. -/
def ring : Plan := { n := 2, g := 2, own := 0, eps := [0, 1], cut := 0 }

/-- A block whose slot 0 holds that ring as plan 0 of both halves. -/
def ringed (b : Block) : Block :=
  { b with slots := { b.slot 0 with plans := [[BitVec.ofNat 64 (2 ^ 36 + 2 ^ 22)], [BitVec.ofNat 64 (2 ^ 36 + 2 ^ 22)]], ranks := [[0, 1], [0, 1]] } ::
                    List.replicate 15 JobSlot.reset }

/-- A running collective over BF16 blocks: its operation, flags, deadline and state, two rows of one FP32 value in tensor 0 and room for as many in tensor 1. -/
def coll (op flags deadline : Nat) (x : CollState) : TaskCtx :=
  { running 0x08 [BitVec.ofNat 64 (op * 2 ^ 60 + 2 ^ 32 + flags), BitVec.ofNat 64 deadline, 0, 0] []
      [ten 0x00 0x20000 [1, 2], ten 0x00 0x21000 [1, 2]] with coll := some x }

/-- A block whose half A runs that collective in that ring. -/
def rings (c : TaskCtx) : Block := ringed (runs c (fp32s [0x3F800000]))

/-- The state of a collective that has not begun, and of one that has, its own blocks being ones. -/
def idleColl : CollState := CollState.fresh false
def begunColl : CollState := { idleColl with started := true, own := List.replicate 2 ((List.replicate 32 (leBytes 2 0x3F80)).flatten) }

/-- A collective packet from half B for step 0. -/
def pc (cls op block : Nat) (l : List Byte) : Packet := (net.makePacket .b 0 9 cls op 0 0 block l).1

theorem witness_ReductionTasks_reduce : ∃ (s : State) (k : TaskRef) (g : Graph) (c : TaskCtx) (x : CollState) (p : Plan) (u : HoldUse) (w : Nat) (r : Contribution) (i : Instr) (op : Nat), (i, op) ∈ [(Instr.allReduce k, 0), (.reduceScatter k, 1), (.verdictReduction k, 9)] ∧ Runs s.block k 0x08 g c ∧ c.desc.coOp = op ∧ c.coll = some x ∧ s.block.plan k.half g.slot c.desc.coPlan = some p ∧ p.h = 1 ∧ 2 ≤ p.g ∧ p.place < p.g ∧ x = CollState.fresh false ∧ 0 < c.coNb ∧ s.block.readHold (s.block.taskAccess k.half g c) g c = .ok (u, w) ∧ s.block.contribute (s.block.taskAccess k.half g c) c p (s.block.coInit k.half g c.desc) (decide (u = .fold)) false = .ok r ∧ s.block.badHits r.cells = [] :=
  ⟨on (rings (coll 0 0 0 idleColl)), task0, graphOf [coll 0 0 0 idleColl], coll 0 0 0 idleColl, idleColl, ring, .ignore, 0, okThe ((rings (coll 0 0 0 idleColl)).contribute ((rings (coll 0 0 0 idleColl)).taskAccess .a (graphOf [coll 0 0 0 idleColl]) (coll 0 0 0 idleColl)) (coll 0 0 0 idleColl) ring ((rings (coll 0 0 0 idleColl)).coInit .a (graphOf [coll 0 0 0 idleColl]) (coll 0 0 0 idleColl).desc) false false) (by decide +kernel), .allReduce task0, 0, by decide +kernel, by simp only [Runs]; decide +kernel, by decide +kernel, by decide +kernel, by decide +kernel, by decide +kernel, by decide +kernel, by decide +kernel, by decide +kernel, by decide +kernel, by decide +kernel, okThe_eq _ _, by decide +kernel⟩

theorem witness_ReductionTasks_gather : ∃ (s : State) (k : TaskRef) (g : Graph) (c : TaskCtx) (x : CollState) (p : Plan) (r : Contribution) (j : Nat) (st : Stored), Runs s.block k 0x08 g c ∧ c.desc.coOp = 2 ∧ c.coll = some x ∧ s.block.plan k.half g.slot c.desc.coPlan = some p ∧ p.h = 1 ∧ 2 ≤ p.g ∧ p.place < p.g ∧ x = CollState.fresh false ∧ s.block.contribute (s.block.taskAccess k.half g c) c p (s.block.coInit k.half g c.desc) false false = .ok r ∧ r.cells = [] ∧ (List.range c.coNb).filter (fun j => decide (p.owner (p.locate c.coNb j) = p.own)) = [j] ∧ (p.locate c.coNb j).q = p.place ∧ s.block.coLandCells (s.block.taskAccess k.half g c) g.slot c j (r.own.getD j []) = .ok st ∧ s.block.badHits st.cells = [] :=
  ⟨on (rings (coll 2 0 0 idleColl)), task0, graphOf [coll 2 0 0 idleColl], coll 2 0 0 idleColl, idleColl, ring, okThe ((rings (coll 2 0 0 idleColl)).contribute ((rings (coll 2 0 0 idleColl)).taskAccess .a (graphOf [coll 2 0 0 idleColl]) (coll 2 0 0 idleColl)) (coll 2 0 0 idleColl) ring ((rings (coll 2 0 0 idleColl)).coInit .a (graphOf [coll 2 0 0 idleColl]) (coll 2 0 0 idleColl).desc) false false) (by decide +kernel), 0, _, by simp only [Runs]; decide +kernel, by decide +kernel, by decide +kernel, by decide +kernel, by decide +kernel, by decide +kernel, by decide +kernel, by decide +kernel, okThe_eq _ _, by decide +kernel, by decide +kernel, by decide +kernel, okThe_eq _ (by decide +kernel), by decide +kernel⟩

theorem witness_ReductionPackets_ebb : ∃ (s : State) (h : HalfId) (p : Packet) (k : TaskRef) (g : Graph) (c : TaskCtx) (x : CollState) (pl : Plan) (i : Instr) (op : Nat), (i, op) ∈ [(Instr.ebb h p, 1), (.flood h p, 2)] ∧ Admits s.block h p 2 [op] ∧ s.block.collMatch h p [0, 1, 2, 9] = some k ∧ Runs s.block k 0x08 g c ∧ c.desc.isColl [0, 1, 2, 9] = true ∧ c.coll = some x ∧ s.block.plan k.half g.slot c.desc.coPlan = some pl ∧ x.started = false :=
  ⟨on (rings (coll 0 0 0 idleColl)), .a, pc 2 1 1 (List.replicate 64 0), task0, graphOf [coll 0 0 0 idleColl], coll 0 0 0 idleColl, idleColl, ring, .ebb .a (pc 2 1 1 (List.replicate 64 0)), 1, by decide +kernel, by simp only [Admits]; decide +kernel, by decide +kernel, by simp only [Runs]; decide +kernel, by decide +kernel, by decide +kernel, by decide +kernel, by decide +kernel⟩

theorem witness_ReductionPackets_flood : ∃ (s : State) (h : HalfId) (p : Packet) (k : TaskRef) (g : Graph) (c : TaskCtx) (x : CollState) (pl : Plan) (i : Instr) (op : Nat), (i, op) ∈ [(Instr.ebb h p, 1), (.flood h p, 2)] ∧ Admits s.block h p 2 [op] ∧ s.block.collMatch h p [0, 1, 2, 9] = some k ∧ Runs s.block k 0x08 g c ∧ c.desc.isColl [0, 1, 2, 9] = true ∧ c.coll = some x ∧ s.block.plan k.half g.slot c.desc.coPlan = some pl ∧ x.started = false :=
  ⟨on (rings (coll 2 0 0 idleColl)), .a, pc 2 2 1 (List.replicate 64 0), task0, graphOf [coll 2 0 0 idleColl], coll 2 0 0 idleColl, idleColl, ring, .flood .a (pc 2 2 1 (List.replicate 64 0)), 2, by decide +kernel, by simp only [Admits]; decide +kernel, by decide +kernel, by simp only [Runs]; decide +kernel, by decide +kernel, by decide +kernel, by decide +kernel, by decide +kernel⟩

theorem witness_ReductionPackets_link : ∃ (s : State) (h : HalfId) (p : Packet) (k : TaskRef) (g : Graph) (c : TaskCtx) (x : CollState) (pl : Plan) (j : Nat) (l : List Byte), Admits s.block h p 2 [1] ∧ s.block.collMatch h p [0, 1, 2, 9] = some k ∧ Runs s.block k 0x08 g c ∧ c.desc.isColl [0, 1] = true ∧ c.coll = some x ∧ s.block.plan k.half g.slot c.desc.coPlan = some pl ∧ pl.h = 1 ∧ 2 ≤ pl.g ∧ pl.eps.idxOf (pkSrc p) < pl.n ∧ (pl.own + pl.n - pl.eps.idxOf (pkSrc p)) % pl.n = 1 ∧ pl.eps.idxOf (pkSrc p) ≠ pl.own ∧ x.started = true ∧ x.late = false ∧ x.skip = 0 ∧ x.credits = [] ∧ x.queue = [] ∧ ¬ x.passed.contains (2 * j) ∧ packetParts c.desc (pkBlock p) 4096 p.payload = some [(j, l)] ∧ j < c.coNb ∧ ((pl.locate c.coNb j).q + pl.g - pl.place) % pl.g ≠ 0 ∧ s.block.routable k.half (pkSrc p) 2 = true :=
  ⟨on (rings (coll 0 0 0 begunColl)), .a, pc 2 1 1 (List.replicate 64 0), task0, graphOf [coll 0 0 0 begunColl], coll 0 0 0 begunColl, begunColl, ring, 1, List.replicate 64 0, by simp only [Admits]; decide +kernel, by decide +kernel, by simp only [Runs]; decide +kernel, by decide +kernel, by decide +kernel, by decide +kernel, by decide +kernel, by decide +kernel, by decide +kernel, by decide +kernel, by decide +kernel, by decide +kernel, by decide +kernel, by decide +kernel, by decide +kernel, by decide +kernel, by decide +kernel, by decide +kernel, by decide +kernel, by decide +kernel, by decide +kernel⟩

theorem witness_ReductionPackets_land : ∃ (s : State) (h : HalfId) (p : Packet) (k : TaskRef) (g : Graph) (c : TaskCtx) (x : CollState) (pl : Plan) (j : Nat) (l : List Byte) (st : Stored), Admits s.block h p 2 [2] ∧ s.block.collMatch h p [0, 1, 2, 9] = some k ∧ Runs s.block k 0x08 g c ∧ c.desc.isColl [0, 2] = true ∧ c.coll = some x ∧ s.block.plan k.half g.slot c.desc.coPlan = some pl ∧ pl.h = 1 ∧ 2 ≤ pl.g ∧ pl.eps.idxOf (pkSrc p) < pl.n ∧ (pl.own + pl.n - pl.eps.idxOf (pkSrc p)) % pl.n = 1 ∧ pl.eps.idxOf (pkSrc p) ≠ pl.own ∧ x.started = true ∧ x.credits = [] ∧ ¬ x.landed.contains j ∧ packetParts c.desc (pkBlock p) 4096 p.payload = some [(j, l)] ∧ j < c.coNb ∧ s.block.routable k.half (pkSrc p) 2 = true ∧ s.block.coLandCells (s.block.taskAccess k.half g c) g.slot c j l = .ok st ∧ s.block.badHits st.cells = [] :=
  ⟨on (rings (coll 2 0 0 begunColl)), .a, pc 2 2 1 (List.replicate 64 0), task0, graphOf [coll 2 0 0 begunColl], coll 2 0 0 begunColl, begunColl, ring, 1, List.replicate 64 0, okThe ((rings (coll 2 0 0 begunColl)).coLandCells ((rings (coll 2 0 0 begunColl)).taskAccess .a (graphOf [coll 2 0 0 begunColl]) (coll 2 0 0 begunColl)) 0 (coll 2 0 0 begunColl) 1 (List.replicate 64 0)) (by decide +kernel), by simp only [Admits]; decide +kernel, by decide +kernel, by simp only [Runs]; decide +kernel, by decide +kernel, by decide +kernel, by decide +kernel, by decide +kernel, by decide +kernel, by decide +kernel, by decide +kernel, by decide +kernel, by decide +kernel, by decide +kernel, by decide +kernel, by decide +kernel, by decide +kernel, by decide +kernel, okThe_eq _ _, by decide +kernel⟩

theorem witness_ReductionPackets_ready (hc : (coll 0 0 0 idleColl).coCrc 0 = 7) : ∃ (s : State) (h : HalfId) (p : Packet) (k : TaskRef) (g : Graph) (c : TaskCtx) (x : CollState) (pl : Plan), Admits s.block h p 2 [3] ∧ s.block.collMatch h p [0, 1, 2, 7, 9] = some k ∧ Runs s.block k 0x08 g c ∧ c.desc.isColl [0, 1, 2, 7, 9] = true ∧ c.coll = some x ∧ s.block.plan k.half g.slot c.desc.coPlan = some pl ∧ pl.eps.idxOf (pkSrc p) < pl.n ∧ ((c.desc.coOp = 7 → pl.eps.idxOf (pkSrc p) = c.desc.coPeer)) ∧ p.payload.length = 8 ∧ leNat (p.payload.take 4) = c.coCrc g.step ∧ x.started = false ∧ x.queue = [] ∧ x.served = [] :=
  ⟨on (rings (coll 0 0 0 idleColl)), .a, pc 2 3 0 (leBytes 4 7 ++ leBytes 4 2), task0, graphOf [coll 0 0 0 idleColl], coll 0 0 0 idleColl, idleColl, ring, by simp only [Admits]; decide +kernel, by decide +kernel, by simp only [Runs]; decide +kernel, by decide +kernel, by decide +kernel, by decide +kernel, by decide +kernel, by decide +kernel, by decide +kernel, (by rw [show (graphOf [coll 0 0 0 idleColl]).step = 0 from rfl, hc]; decide +kernel), by decide +kernel, by decide +kernel, by decide +kernel⟩

theorem witness_ReductionPackets_credit : ∃ (s : State) (h : HalfId) (p : Packet) (k : TaskRef) (g : Graph) (c : TaskCtx) (x : CollState) (pl : Plan), Admits s.block h p 2 [4] ∧ s.block.collMatch h p [0, 1, 2, 7, 9] = some k ∧ Runs s.block k 0x08 g c ∧ c.desc.isColl [0, 1, 2, 7, 9] = true ∧ c.coll = some x ∧ s.block.plan k.half g.slot c.desc.coPlan = some pl ∧ pl.eps.idxOf (pkSrc p) < pl.n ∧ x.started = false ∧ x.queue = [] :=
  ⟨on (rings (coll 0 0 0 idleColl)), .a, pc 2 4 0 (leBytes 4 2), task0, graphOf [coll 0 0 0 idleColl], coll 0 0 0 idleColl, idleColl, ring, by simp only [Admits]; decide +kernel, by decide +kernel, by simp only [Runs]; decide +kernel, by decide +kernel, by decide +kernel, by decide +kernel, by decide +kernel, by decide +kernel, by decide +kernel⟩

theorem witness_ReductionPackets_travel : ∃ (s : State) (h : HalfId) (p : Packet) (k : TaskRef) (g : Graph) (c : TaskCtx) (x : CollState) (pl : Plan), Admits s.block h p 3 [3] ∧ s.block.travelOpen p = true ∧ s.block.collMatch h p [3, 5] = some k ∧ Runs s.block k 0x08 g c ∧ c.desc.isColl [3, 5] = true ∧ c.coll = some x ∧ s.block.plan k.half g.slot c.desc.coPlan = some pl ∧ x.started = false :=
  ⟨on (rings (coll 3 0 0 idleColl)), .a, pc 3 3 0 [], task0, graphOf [coll 3 0 0 idleColl], coll 3 0 0 idleColl, idleColl, ring, by simp only [Admits]; decide +kernel, by decide +kernel, by decide +kernel, by simp only [Runs]; decide +kernel, by decide +kernel, by decide +kernel, by decide +kernel, by decide +kernel⟩

theorem witness_ReductionPackets_stray : ∃ (s : State) (h : HalfId) (p : Packet) (i : Instr) (op : Nat), Admits s.block h p 2 [op] ∧ (i, op) ∈ [(Instr.ebb h p, 1), (.flood h p, 2), (.credit h p, 4), (.collEnd h p, 5), (.lateNotice h p, 6), (.sendBlock h p, 7)] ∧ s.block.collMatch h p (if op ≤ 2 then [0, 1, 2, 9] else if op = 4 then [0, 1, 2, 7, 9] else if op = 6 then [0, 1, 2] else [8]) = none :=
  ⟨on net, .a, pc 2 5 0 (leBytes 8 0), .collEnd .a (pc 2 5 0 (leBytes 8 0)), 5, by simp only [Admits]; decide +kernel, by decide +kernel, by decide +kernel⟩

theorem witness_ReductionPackets_repeat : ∃ (s : State) (h : HalfId) (k : Fin 16) (r : StepRecord), (s.block.half h).steps.find? (fun r => r.slot = k.val && r.repeating) = some r ∧ (s.block.half h).graphs.any (fun p => p.2.slot = k.val && decide (r.step ≤ p.2.step)) = false :=
  ⟨on { net with halfA := { net.halfA with steps := [{ StepRecord.fresh 0 1 with repeating := true }] } }, .a, 0, { StepRecord.fresh 0 1 with repeating := true }, by decide +kernel, by decide +kernel⟩

/-- A running collective with parameter words 2 and 3, peer 1, and one FP32 value in its tensors. -/
def peerColl (op p2 p3 : Nat) (ts : List (List Word × List Nat)) (x : CollState) : TaskCtx :=
  { running 0x08 [BitVec.ofNat 64 (op * 2 ^ 60), 0, BitVec.ofNat 64 p2, BitVec.ofNat 64 p3] [] ts with coll := some x }

/-- A send of one FP32 value to half B, which has granted one block; the same with nothing to send; a receive of one value. -/
def sender (n : Nat) : TaskCtx := peerColl 7 (2 ^ 18) 0 [ten 0x00 0x20000 [n]] { idleColl with readies := [1], credits := [(1, 1)] }
def receiver (x : CollState) : TaskCtx := peerColl 8 (2 ^ 18) 0 [ten 0x00 0x20000 [1]] x

/-- A block whose half A's Tide stands at a second. -/
def timed (b : Block) : Block := { b with halfA := { b.halfA with tide := { b.halfA.tide with now := 10 ^ 9 } } }

/-- Token travel of one expert of capacity 1, one local. -/
def traveller (op : Nat) (x : CollState) (ts : List (List Word × List Nat)) : TaskCtx :=
  peerColl op (2 ^ 25 + 2 ^ 7) (2 ^ 56) ts x

/-- A block whose half A runs such a task over one record, the expert at `home`. -/
def travels (home : Nat) (c : TaskCtx) (record : Nat) : Block :=
  let b := ringed (runs c (fp32s [record]))
  { b with slots := { b.slot 0 with experts := [[BitVec.ofNat 64 (home * 2 ^ 16 + 2 ^ 15)], [BitVec.ofNat 64 (home * 2 ^ 16 + 2 ^ 15)]] } ::
                    List.replicate 15 JobSlot.reset }

/-- A token travel packet from half B, which is also its origin, for step 0. -/
def pkR (op block : Nat) (l : List Byte) : Packet := (net.makePacket .b 0 9 3 op 0 1 block l).1

/-- The tensors of a dispatch: one record for one token row. -/
def records1 : List (List Word × List Nat) := [ten 0x0A 0x20000 [1, 1], ten 0x00 0x21000 [1, 1]]

theorem witness_PeerAndExpertTasks_send : ∃ (s : State) (k : TaskRef) (g : Graph) (c : TaskCtx) (x : CollState) (p : Plan) (total : Nat) (l : List Byte), Runs s.block k 0x08 g c ∧ c.desc.coOp = 7 ∧ c.coll = some x ∧ s.block.plan k.half g.slot c.desc.coPlan = some p ∧ x.readies.contains c.desc.coPeer = true ∧ x.sent = 0 ∧ 0 < (c.tensor 0).count ∧ total = (c.tensor 0).rawTotal (c.tensor 0).exts ∧ 0 < total ∧ total ≤ 4096 ∧ 1 ≤ c.coNb ∧ 0 < tabGet 0 x.credits c.desc.coPeer ∧ s.block.rdRaw (s.block.taskAccess k.half g c) (c.tensor 0) 0 total = .ok l ∧ s.block.routable k.half (p.eps.getD c.desc.coPeer 0) 2 = true :=
  ⟨on (rings (sender 1)), task0, graphOf [sender 1], sender 1, { idleColl with readies := [1], credits := [(1, 1)] }, ring, 4, [0x00, 0x00, 0x80, 0x3F], by simp only [Runs]; decide +kernel, by decide +kernel, by decide +kernel, by decide +kernel, by decide +kernel, by decide +kernel, by decide +kernel, by decide +kernel, by decide +kernel, by decide +kernel, by decide +kernel, by decide +kernel, by decide +kernel, by decide +kernel⟩

theorem witness_PeerAndExpertTasks_empty : ∃ (s : State) (k : TaskRef) (g : Graph) (c : TaskCtx) (x : CollState) (p : Plan), Runs s.block k 0x08 g c ∧ c.desc.coOp = 7 ∧ c.coll = some x ∧ s.block.plan k.half g.slot c.desc.coPlan = some p ∧ x.readies.contains c.desc.coPeer = true ∧ (c.tensor 0).count = 0 ∧ s.block.routable k.half (p.eps.getD c.desc.coPeer 0) 2 = true :=
  ⟨on (rings (sender 0)), task0, graphOf [sender 0], sender 0, { idleColl with readies := [1], credits := [(1, 1)] }, ring, by simp only [Runs]; decide +kernel, by decide +kernel, by decide +kernel, by decide +kernel, by decide +kernel, by decide +kernel, by decide +kernel⟩

theorem witness_PeerAndExpertTasks_receive : ∃ (s : State) (k : TaskRef) (g : Graph) (c : TaskCtx) (x : CollState) (p : Plan) (n : Nat) (cells : List Host.Cell), Runs s.block k 0x08 g c ∧ c.desc.coOp = 8 ∧ c.coll = some x ∧ s.block.plan k.half g.slot c.desc.coPlan = some p ∧ tabFind x.ends 0 = some n ∧ 0 < n ∧ n ≤ (c.tensor 0).rawTotal (c.tensor 0).caps ∧ ((∀ i, i < cdiv n 4096 → (tabFind x.partials i).isSome = true)) ∧ s.block.wrRaw (s.block.taskAccess k.half g c) (c.tensor 0) 0 ((((List.range (cdiv n 4096)).map (fun i => ((tabFind x.partials i).map (fun p => p.1)).getD [])).flatten).take n) = .ok cells ∧ s.block.badHits cells = [] :=
  ⟨on (rings (receiver { idleColl with ends := [(0, 4)], partials := [(0, ([1, 2, 3, 4], 0xFFFF))] })), task0, graphOf [receiver { idleColl with ends := [(0, 4)], partials := [(0, ([1, 2, 3, 4], 0xFFFF))] }], receiver { idleColl with ends := [(0, 4)], partials := [(0, ([1, 2, 3, 4], 0xFFFF))] }, { idleColl with ends := [(0, 4)], partials := [(0, ([1, 2, 3, 4], 0xFFFF))] }, ring, 4, [(0x200020000, 1), (0x200020001, 2), (0x200020002, 3), (0x200020003, 4)], by simp only [Runs]; decide +kernel, by decide +kernel, by decide +kernel, by decide +kernel, by decide +kernel, by decide +kernel, by decide +kernel, by decide +kernel, by decide +kernel, by decide +kernel⟩

theorem witness_PeerAndExpertTasks_staged : ∃ (s : State) (h : HalfId) (p : Packet) (k : TaskRef) (g : Graph) (c : TaskCtx) (x : CollState) (pl : Plan), Admits s.block h p 2 [7] ∧ s.block.collMatch h p [8] = some k ∧ Runs s.block k 0x08 g c ∧ c.desc.coOp = 8 ∧ c.coll = some x ∧ s.block.plan k.half g.slot c.desc.coPlan = some pl ∧ pl.eps.getD c.desc.coPeer 0 = pkSrc p ∧ tabFind x.ends 0 = none ∧ s.block.routable k.half (pkSrc p) 2 = true :=
  ⟨on (rings (receiver idleColl)), .a, pc 2 7 0 [1, 2, 3, 4], task0, graphOf [receiver idleColl], receiver idleColl, idleColl, ring, by simp only [Admits]; decide +kernel, by decide +kernel, by simp only [Runs]; decide +kernel, by decide +kernel, by decide +kernel, by decide +kernel, by decide +kernel, by decide +kernel, by decide +kernel⟩

theorem witness_PeerAndExpertTasks_counted : ∃ (s : State) (h : HalfId) (p : Packet) (k : TaskRef) (g : Graph) (c : TaskCtx) (x : CollState) (pl : Plan), Admits s.block h p 2 [5] ∧ s.block.collMatch h p [8] = some k ∧ Runs s.block k 0x08 g c ∧ c.desc.coOp = 8 ∧ c.coll = some x ∧ s.block.plan k.half g.slot c.desc.coPlan = some pl ∧ pl.eps.getD c.desc.coPeer 0 = pkSrc p ∧ x.started = false ∧ 0 < leNat (p.payload.take 8) ∧ leNat (p.payload.take 8) ≤ (c.tensor 0).rawTotal (c.tensor 0).caps :=
  ⟨on (rings (receiver idleColl)), .a, pc 2 5 0 (leBytes 8 4), task0, graphOf [receiver idleColl], receiver idleColl, idleColl, ring, by simp only [Admits]; decide +kernel, by decide +kernel, by simp only [Runs]; decide +kernel, by decide +kernel, by decide +kernel, by decide +kernel, by decide +kernel, by decide +kernel, by decide +kernel, by decide +kernel⟩

theorem witness_PeerAndExpertTasks_dispatchWaits : ∃ (s : State) (k : TaskRef) (g : Graph) (c : TaskCtx) (x : CollState) (p : Plan) (l : List CollOut) (i : Instr), Runs s.block k 0x08 g c ∧ ((i = .expertDispatch k ∧ c.desc.coOp = 3 ∧ s.block.dispatchList (s.block.taskAccess k.half g c) g.slot c = .ok l ∨ i = .expertReturn k ∧ c.desc.coOp = 5 ∧ s.block.returnList (s.block.taskAccess k.half g c) g.slot c p = .ok l)) ∧ c.coll = some x ∧ s.block.plan k.half g.slot c.desc.coPlan = some p ∧ x.started = false ∧ l ≠ [] ∧ (∀ o ∈ l, ¬ x.readies.contains o.dest) :=
  ⟨on (travels 1 (traveller 3 idleColl records1) (2 ^ 21)), task0, graphOf [traveller 3 idleColl records1], traveller 3 idleColl records1, idleColl, ring, okThe ((travels 1 (traveller 3 idleColl records1) (2 ^ 21)).dispatchList ((travels 1 (traveller 3 idleColl records1) (2 ^ 21)).taskAccess .a (graphOf [traveller 3 idleColl records1]) (traveller 3 idleColl records1)) 0 (traveller 3 idleColl records1)) (by decide +kernel), .expertDispatch task0, by simp only [Runs]; decide +kernel, .inl ⟨rfl, by decide +kernel, okThe_eq _ (by decide +kernel)⟩, by decide +kernel, by decide +kernel, by decide +kernel, by decide +kernel, by decide +kernel⟩

theorem witness_PeerAndExpertTasks_dispatchEnds : ∃ (s : State) (k : TaskRef) (g : Graph) (c : TaskCtx) (x : CollState) (p : Plan) (l : List CollOut) (i : Instr), Runs s.block k 0x08 g c ∧ ((i = .expertDispatch k ∧ c.desc.coOp = 3 ∧ s.block.dispatchList (s.block.taskAccess k.half g c) g.slot c = .ok l ∨ i = .expertReturn k ∧ c.desc.coOp = 5 ∧ s.block.returnList (s.block.taskAccess k.half g c) g.slot c p = .ok l)) ∧ c.coll = some x ∧ s.block.plan k.half g.slot c.desc.coPlan = some p ∧ x.started = false ∧ (∀ o ∈ l, x.readies.contains o.dest = true ∧ s.block.routable k.half o.dest 3 = true) ∧ 2 ≤ l.length :=
  ⟨on (travels 1 (traveller 3 { idleColl with readies := [1] } records1) (2 ^ 21)), task0, graphOf [traveller 3 { idleColl with readies := [1] } records1], traveller 3 { idleColl with readies := [1] } records1, { idleColl with readies := [1] }, ring, okThe ((travels 1 (traveller 3 { idleColl with readies := [1] } records1) (2 ^ 21)).dispatchList ((travels 1 (traveller 3 { idleColl with readies := [1] } records1) (2 ^ 21)).taskAccess .a (graphOf [traveller 3 { idleColl with readies := [1] } records1]) (traveller 3 { idleColl with readies := [1] } records1)) 0 (traveller 3 { idleColl with readies := [1] } records1)) (by decide +kernel), .expertDispatch task0, by simp only [Runs]; decide +kernel, .inl ⟨rfl, by decide +kernel, okThe_eq _ (by decide +kernel)⟩, by decide +kernel, by decide +kernel, by decide +kernel, by decide +kernel, by decide +kernel⟩

theorem witness_PeerAndExpertTasks_return : ∃ (s : State) (k : TaskRef) (g : Graph) (c : TaskCtx) (x : CollState) (p : Plan) (l : List CollOut) (i : Instr), Runs s.block k 0x08 g c ∧ ((i = .expertDispatch k ∧ c.desc.coOp = 3 ∧ s.block.dispatchList (s.block.taskAccess k.half g c) g.slot c = .ok l ∨ i = .expertReturn k ∧ c.desc.coOp = 5 ∧ s.block.returnList (s.block.taskAccess k.half g c) g.slot c p = .ok l)) ∧ c.coll = some x ∧ s.block.plan k.half g.slot c.desc.coPlan = some p ∧ x.started = false ∧ (∀ o ∈ l, x.readies.contains o.dest = true ∧ s.block.routable k.half o.dest 3 = true) :=
  ⟨on (travels 0 (traveller 5 { idleColl with readies := [1] } records1) 0), task0, graphOf [traveller 5 { idleColl with readies := [1] } records1], traveller 5 { idleColl with readies := [1] } records1, { idleColl with readies := [1] }, ring, okThe ((travels 0 (traveller 5 { idleColl with readies := [1] } records1) 0).returnList ((travels 0 (traveller 5 { idleColl with readies := [1] } records1) 0).taskAccess .a (graphOf [traveller 5 { idleColl with readies := [1] } records1]) (traveller 5 { idleColl with readies := [1] } records1)) 0 (traveller 5 { idleColl with readies := [1] } records1) ring) (by decide +kernel), .expertReturn task0, by simp only [Runs]; decide +kernel, .inr ⟨rfl, by decide +kernel, okThe_eq _ (by decide +kernel)⟩, by decide +kernel, by decide +kernel, by decide +kernel, by decide +kernel⟩

theorem witness_PeerAndExpertTasks_none : ∃ (s : State) (k : TaskRef) (g : Graph) (c : TaskCtx) (x : CollState) (p : Plan), Runs s.block k 0x08 g c ∧ c.desc.coOp = 4 ∧ c.coll = some x ∧ s.block.plan k.half g.slot c.desc.coPlan = some p ∧ s.block.missingPairs k.half g.slot c { x with started := true } p = [] :=
  ⟨on (travels 1 (traveller 4 idleColl records1) 0), task0, graphOf [traveller 4 idleColl records1], traveller 4 idleColl records1, idleColl, ring, by simp only [Runs]; decide +kernel, by decide +kernel, by decide +kernel, by decide +kernel, by decide +kernel⟩

theorem witness_PeerAndExpertTasks_missing : ∃ (s : State) (k : TaskRef) (g : Graph) (c : TaskCtx) (x : CollState) (p : Plan), Runs s.block k 0x08 g c ∧ c.desc.coOp = 4 ∧ c.coll = some x ∧ s.block.plan k.half g.slot c.desc.coPlan = some p ∧ s.block.missingPairs k.half g.slot c { x with started := true } p ≠ [] :=
  ⟨on (travels 0 (traveller 4 idleColl records1) 0), task0, graphOf [traveller 4 idleColl records1], traveller 4 idleColl records1, idleColl, ring, by simp only [Runs]; decide +kernel, by decide +kernel, by decide +kernel, by decide +kernel, by decide +kernel⟩

theorem witness_PeerAndExpertTasks_nothing : ∃ (s : State) (k : TaskRef) (g : Graph) (c : TaskCtx) (x : CollState) (p : Plan) (rs : List (Nat × Nat)) (want : List Nat), Runs s.block k 0x08 g c ∧ c.desc.coOp = 6 ∧ c.coll = some x ∧ s.block.plan k.half g.slot c.desc.coPlan = some p ∧ x.started = false ∧ x.inbox = [] ∧ s.block.readRecords (s.block.taskAccess k.half g c) (c.tensor 0) = .ok rs ∧ want = ((rs.filter (fun p => recAssigned p.2 && decide (recE p.2 < c.desc.coE))).map (fun p => recE p.2 * c.desc.coCap + recSlot p.2)).eraseDups :=
  ⟨on (travels 1 (traveller 6 idleColl records1) 0), task0, graphOf [traveller 6 idleColl records1], traveller 6 idleColl records1, idleColl, ring, [(0, 0)], [], by simp only [Runs]; decide +kernel, by decide +kernel, by decide +kernel, by decide +kernel, by decide +kernel, by decide +kernel, by decide +kernel, by decide +kernel⟩

theorem witness_PeerAndExpertTasks_rows : ∃ (s : State) (k : TaskRef) (g : Graph) (c : TaskCtx) (x : CollState) (p : Plan) (rs : List (Nat × Nat)) (want : List Nat), Runs s.block k 0x08 g c ∧ c.desc.coOp = 6 ∧ c.coll = some x ∧ s.block.plan k.half g.slot c.desc.coPlan = some p ∧ x.started = false ∧ x.inbox = [] ∧ s.block.readRecords (s.block.taskAccess k.half g c) (c.tensor 0) = .ok rs ∧ want = ((rs.filter (fun p => recAssigned p.2 && decide (recE p.2 < c.desc.coE))).map (fun p => recE p.2 * c.desc.coCap + recSlot p.2)).eraseDups ∧ want ≠ [] ∧ x.rows = [] ∧ 0 < c.coChunks :=
  ⟨on (travels 1 (traveller 6 idleColl records1) (2 ^ 21)), task0, graphOf [traveller 6 idleColl records1], traveller 6 idleColl records1, idleColl, ring, [(0, 2 ^ 21)], [0], by simp only [Runs]; decide +kernel, by decide +kernel, by decide +kernel, by decide +kernel, by decide +kernel, by decide +kernel, by decide +kernel, by decide +kernel, by decide +kernel, by decide +kernel, by decide +kernel⟩

theorem witness_PeerAndExpertTasks_row : ∃ (s : State) (h : HalfId) (p : Packet) (k : TaskRef) (g : Graph) (c : TaskCtx) (x : CollState) (pl : Plan) (e : Nat × Nat) (cells : List Host.Cell), Admits s.block h p 3 [1] ∧ s.block.travelOpen p = true ∧ s.block.collMatch h p [4, 6] = some k ∧ Runs s.block k 0x08 g c ∧ c.desc.coOp = 4 ∧ c.coll = some x ∧ s.block.plan k.half g.slot c.desc.coPlan = some pl ∧ x.started = false ∧ p.payload.length = min 4096 ((c.tensor 0).wholeRow - 4096 * (pkBlock p % c.coChunks)) ∧ (s.block.localExperts k.half g.slot c.desc).find? (fun y => y.1 = pkBlock p / c.coChunks / c.desc.coCap) = some e ∧ pl.eps.idxOf (pkOrigin p) < pl.n ∧ tabFind x.ends (e.2 * pl.n + pl.eps.idxOf (pkOrigin p)) = none ∧ ¬ x.rows.contains (((e.2 * pl.n + pl.eps.idxOf (pkOrigin p)) * c.desc.coCap + pkBlock p / c.coChunks % c.desc.coCap) * c.coChunks + pkBlock p % c.coChunks) ∧ mapRes (fun q => (s.block.wr (s.block.taskAccess k.half g c) (c.tensor 0).slot ((c.tensor 0).wholeRowVa ((c.tensor 0).rowNo ((e.2 * pl.n + pl.eps.idxOf (pkOrigin p)) * c.desc.coCap + pkBlock p / c.coChunks % c.desc.coCap)) (4096 * (pkBlock p % c.coChunks) + q.2))).map (fun d => ((d, q.1) : Host.Cell))) (p.payload.zip (List.range p.payload.length)) = .ok cells ∧ s.block.badHits cells = [] :=
  ⟨on (travels 0 (traveller 4 idleColl records1) 0), .a, pkR 1 0 (List.replicate 4 1), task0, graphOf [traveller 4 idleColl records1], traveller 4 idleColl records1, idleColl, ring, (0, 0), okThe (mapRes (fun q => ((travels 0 (traveller 4 idleColl records1) 0).wr ((travels 0 (traveller 4 idleColl records1) 0).taskAccess .a (graphOf [traveller 4 idleColl records1]) (traveller 4 idleColl records1)) ((traveller 4 idleColl records1).tensor 0).slot (((traveller 4 idleColl records1).tensor 0).wholeRowVa (((traveller 4 idleColl records1).tensor 0).rowNo 1) q.2)).map (fun d => ((d, q.1) : Host.Cell))) ((List.replicate 4 1).zip (List.range 4))) (by decide +kernel), by simp only [Admits]; decide +kernel, by decide +kernel, by decide +kernel, by simp only [Runs]; decide +kernel, by decide +kernel, by decide +kernel, by decide +kernel, by decide +kernel, by decide +kernel, by decide +kernel, by decide +kernel, by decide +kernel, by decide +kernel, okThe_eq _ _, by decide +kernel⟩

theorem witness_PeerAndExpertTasks_last : ∃ (s : State) (h : HalfId) (p : Packet) (k : TaskRef) (g : Graph) (c : TaskCtx) (x : CollState) (pl : Plan) (r : Nat) (cells : List Host.Cell), Admits s.block h p 3 [1] ∧ s.block.travelOpen p = true ∧ s.block.collMatch h p [4, 6] = some k ∧ Runs s.block k 0x08 g c ∧ c.desc.coOp = 6 ∧ c.coll = some x ∧ s.block.plan k.half g.slot c.desc.coPlan = some pl ∧ x.started = true ∧ p.payload.length = min 4096 ((c.tensor 1).wholeRow - 4096 * (pkBlock p % c.coChunks)) ∧ r = pkBlock p / c.coChunks / c.desc.coCap * c.desc.coCap + pkBlock p / c.coChunks % c.desc.coCap ∧ x.passed.contains r = true ∧ ¬ x.rows.contains (pkBlock p) ∧ mapRes (fun q => (s.block.wr (s.block.taskAccess k.half g c) (c.tensor 1).slot ((c.tensor 1).wholeRowVa ((c.tensor 1).rowNo r) (4096 * (pkBlock p % c.coChunks) + q.2))).map (fun d => ((d, q.1) : Host.Cell))) (p.payload.zip (List.range p.payload.length)) = .ok cells ∧ s.block.badHits cells = [] ∧ x.passed.all (fun r => (List.range c.coChunks).all (fun i => (x.rows ++ [pkBlock p]).contains (r * c.coChunks + i))) = true :=
  ⟨on (travels 1 (traveller 6 { idleColl with started := true, passed := [0] } records1) 0), .a, pkR 1 0 (List.replicate 4 1), task0, graphOf [traveller 6 { idleColl with started := true, passed := [0] } records1], traveller 6 { idleColl with started := true, passed := [0] } records1, { idleColl with started := true, passed := [0] }, ring, 0, okThe (mapRes (fun q => ((travels 1 (traveller 6 { idleColl with started := true, passed := [0] } records1) 0).wr ((travels 1 (traveller 6 { idleColl with started := true, passed := [0] } records1) 0).taskAccess .a (graphOf [traveller 6 { idleColl with started := true, passed := [0] } records1]) (traveller 6 { idleColl with started := true, passed := [0] } records1)) ((traveller 6 { idleColl with started := true, passed := [0] } records1).tensor 1).slot (((traveller 6 { idleColl with started := true, passed := [0] } records1).tensor 1).wholeRowVa (((traveller 6 { idleColl with started := true, passed := [0] } records1).tensor 1).rowNo 0) q.2)).map (fun d => ((d, q.1) : Host.Cell))) ((List.replicate 4 1).zip (List.range 4))) (by decide +kernel), by simp only [Admits]; decide +kernel, by decide +kernel, by decide +kernel, by simp only [Runs]; decide +kernel, by decide +kernel, by decide +kernel, by decide +kernel, by decide +kernel, by decide +kernel, by decide +kernel, by decide +kernel, by decide +kernel, okThe_eq _ _, by decide +kernel, by decide +kernel⟩

theorem witness_PeerAndExpertTasks_notLast : ∃ (s : State) (h : HalfId) (p : Packet) (k : TaskRef) (g : Graph) (c : TaskCtx) (x : CollState) (pl : Plan) (r : Nat) (cells : List Host.Cell), Admits s.block h p 3 [1] ∧ s.block.travelOpen p = true ∧ s.block.collMatch h p [4, 6] = some k ∧ Runs s.block k 0x08 g c ∧ c.desc.coOp = 6 ∧ c.coll = some x ∧ s.block.plan k.half g.slot c.desc.coPlan = some pl ∧ x.started = true ∧ p.payload.length = min 4096 ((c.tensor 1).wholeRow - 4096 * (pkBlock p % c.coChunks)) ∧ r = pkBlock p / c.coChunks / c.desc.coCap * c.desc.coCap + pkBlock p / c.coChunks % c.desc.coCap ∧ x.passed.contains r = true ∧ ¬ x.rows.contains (pkBlock p) ∧ mapRes (fun q => (s.block.wr (s.block.taskAccess k.half g c) (c.tensor 1).slot ((c.tensor 1).wholeRowVa ((c.tensor 1).rowNo r) (4096 * (pkBlock p % c.coChunks) + q.2))).map (fun d => ((d, q.1) : Host.Cell))) (p.payload.zip (List.range p.payload.length)) = .ok cells ∧ s.block.badHits cells = [] ∧ x.passed.all (fun r => (List.range c.coChunks).all (fun i => (x.rows ++ [pkBlock p]).contains (r * c.coChunks + i))) = false :=
  ⟨on (travels 1 (traveller 6 { idleColl with started := true, passed := [0, 1] } records1) 0), .a, pkR 1 0 (List.replicate 4 1), task0, graphOf [traveller 6 { idleColl with started := true, passed := [0, 1] } records1], traveller 6 { idleColl with started := true, passed := [0, 1] } records1, { idleColl with started := true, passed := [0, 1] }, ring, 0, okThe (mapRes (fun q => ((travels 1 (traveller 6 { idleColl with started := true, passed := [0, 1] } records1) 0).wr ((travels 1 (traveller 6 { idleColl with started := true, passed := [0, 1] } records1) 0).taskAccess .a (graphOf [traveller 6 { idleColl with started := true, passed := [0, 1] } records1]) (traveller 6 { idleColl with started := true, passed := [0, 1] } records1)) ((traveller 6 { idleColl with started := true, passed := [0, 1] } records1).tensor 1).slot (((traveller 6 { idleColl with started := true, passed := [0, 1] } records1).tensor 1).wholeRowVa (((traveller 6 { idleColl with started := true, passed := [0, 1] } records1).tensor 1).rowNo 0) q.2)).map (fun d => ((d, q.1) : Host.Cell))) ((List.replicate 4 1).zip (List.range 4))) (by decide +kernel), by simp only [Admits]; decide +kernel, by decide +kernel, by decide +kernel, by simp only [Runs]; decide +kernel, by decide +kernel, by decide +kernel, by decide +kernel, by decide +kernel, by decide +kernel, by decide +kernel, by decide +kernel, by decide +kernel, okThe_eq _ _, by decide +kernel, by decide +kernel⟩

theorem witness_PeerAndExpertTasks_end : ∃ (s : State) (h : HalfId) (p : Packet) (k : TaskRef) (g : Graph) (c : TaskCtx) (x : CollState) (pl : Plan) (e : Nat × Nat) (n : Nat), Admits s.block h p 3 [2] ∧ s.block.travelOpen p = true ∧ s.block.collMatch h p [4] = some k ∧ Runs s.block k 0x08 g c ∧ c.desc.coOp = 4 ∧ c.coll = some x ∧ s.block.plan k.half g.slot c.desc.coPlan = some pl ∧ x.started = false ∧ (s.block.localExperts k.half g.slot c.desc).find? (fun y => y.1 = leNat (p.payload.take 2)) = some e ∧ pl.eps.idxOf (pkOrigin p) < pl.n ∧ n = leNat ((p.payload.drop 4).take 4) ∧ n ≤ c.desc.coCap :=
  ⟨on (travels 0 (traveller 4 idleColl records1) 0), .a, pkR 2 0 (leBytes 4 0 ++ leBytes 4 1), task0, graphOf [traveller 4 idleColl records1], traveller 4 idleColl records1, idleColl, ring, (0, 0), 1, by simp only [Admits]; decide +kernel, by decide +kernel, by decide +kernel, by simp only [Runs]; decide +kernel, by decide +kernel, by decide +kernel, by decide +kernel, by decide +kernel, by decide +kernel, by decide +kernel, by decide +kernel, by decide +kernel⟩

theorem witness_PeerAndExpertTasks_tooMany : ∃ (s : State) (h : HalfId) (p : Packet) (k : TaskRef) (g : Graph) (c : TaskCtx) (x : CollState) (pl : Plan) (e : Nat × Nat) (n : Nat), Admits s.block h p 3 [2] ∧ s.block.travelOpen p = true ∧ s.block.collMatch h p [4] = some k ∧ Runs s.block k 0x08 g c ∧ c.desc.coOp = 4 ∧ c.coll = some x ∧ s.block.plan k.half g.slot c.desc.coPlan = some pl ∧ x.started = false ∧ (s.block.localExperts k.half g.slot c.desc).find? (fun y => y.1 = leNat (p.payload.take 2)) = some e ∧ pl.eps.idxOf (pkOrigin p) < pl.n ∧ n = leNat ((p.payload.drop 4).take 4) ∧ c.desc.coCap < n :=
  ⟨on (travels 0 (traveller 4 idleColl records1) 0), .a, pkR 2 0 (leBytes 4 0 ++ leBytes 4 2), task0, graphOf [traveller 4 idleColl records1], traveller 4 idleColl records1, idleColl, ring, (0, 0), 2, by simp only [Admits]; decide +kernel, by decide +kernel, by decide +kernel, by simp only [Runs]; decide +kernel, by decide +kernel, by decide +kernel, by decide +kernel, by decide +kernel, by decide +kernel, by decide +kernel, by decide +kernel, by decide +kernel⟩

theorem witness_LatenessCommands_deadline : ∃ (s : State) (k : TaskRef) (g : Graph) (c : TaskCtx) (x : CollState) (p : Plan), Runs s.block k 0x08 g c ∧ c.desc.coOp ≤ 2 ∧ c.coll = some x ∧ s.block.plan k.half g.slot c.desc.coPlan = some p ∧ c.desc.lenient = false ∧ c.desc.coDeadline ≠ 0 ∧ c.desc.coDeadline ≤ s.block.tide k.half ∧ p.lateOnes x.readies ≠ [] ∧ ((∀ e ∈ p.eps, e ≠ s.block.endpoint k.half → s.block.routable k.half e 2 = true)) :=
  ⟨on (timed (rings (coll 0 0 1 idleColl))), task0, graphOf [coll 0 0 1 idleColl], coll 0 0 1 idleColl, idleColl, ring, by simp only [Runs]; decide +kernel, by decide +kernel, by decide +kernel, by decide +kernel, by decide +kernel, by decide +kernel, by decide +kernel, by decide +kernel, by decide +kernel⟩

theorem witness_LatenessCommands_before : ∃ (s : State) (k : TaskRef) (g : Graph) (c : TaskCtx) (x : CollState) (p : Plan), Runs s.block k 0x08 g c ∧ c.desc.isColl [0, 1, 2, 4, 6, 9] = true ∧ c.coll = some x ∧ s.block.plan k.half g.slot c.desc.coPlan = some p ∧ s.block.tide k.half < c.desc.coDeadline :=
  ⟨on (rings (coll 0 0 (10 ^ 12) idleColl)), task0, graphOf [coll 0 0 (10 ^ 12) idleColl], coll 0 0 (10 ^ 12) idleColl, idleColl, ring, by simp only [Runs]; decide +kernel, by decide +kernel, by decide +kernel, by decide +kernel, by decide +kernel⟩

theorem witness_LatenessCommands_verdict : ∃ (s : State) (k : TaskRef) (g : Graph) (c : TaskCtx) (x : CollState) (p : Plan), Runs s.block k 0x08 g c ∧ c.desc.coOp = 9 ∧ c.coll = some x ∧ s.block.plan k.half g.slot c.desc.coPlan = some p ∧ c.desc.coDeadline ≠ 0 ∧ c.desc.coDeadline ≤ s.block.tide k.half :=
  ⟨on (timed (rings (coll 9 0 1 idleColl))), task0, graphOf [coll 9 0 1 idleColl], coll 9 0 1 idleColl, idleColl, ring, by simp only [Runs]; decide +kernel, by decide +kernel, by decide +kernel, by decide +kernel, by decide +kernel, by decide +kernel⟩

theorem witness_LatenessCommands_notice : ∃ (s : State) (h : HalfId) (q : Packet) (k : TaskRef) (g : Graph) (c : TaskCtx) (x : CollState) (p : Plan), Admits s.block h q 2 [6] ∧ s.block.collMatch h q [0, 1, 2] = some k ∧ Runs s.block k 0x08 g c ∧ c.desc.isColl [0, 1, 2] = true ∧ c.coll = some x ∧ s.block.plan k.half g.slot c.desc.coPlan = some p ∧ ((∀ e ∈ p.eps, e ≠ s.block.endpoint k.half → s.block.routable k.half e 2 = true)) :=
  ⟨on (rings (coll 0 0 0 idleColl)), .a, pc 2 6 0 (leBytes 8 0), task0, graphOf [coll 0 0 0 idleColl], coll 0 0 0 idleColl, idleColl, ring, by simp only [Admits]; decide +kernel, by decide +kernel, by simp only [Runs]; decide +kernel, by decide +kernel, by decide +kernel, by decide +kernel, by decide +kernel⟩

theorem witness_LatenessCommands_wait : ∃ (s : State) (k : TaskRef) (g : Graph) (c : TaskCtx) (x : CollState) (p : Plan), Runs s.block k 0x08 g c ∧ c.desc.isColl [0, 1, 2, 7, 8] = true ∧ c.coll = some x ∧ s.block.plan k.half g.slot c.desc.coPlan = some p ∧ c.desc.coDeadline ≠ 0 ∧ c.desc.lenient = false ∧ c.desc.coDeadline + 1000 * s.block.regFld (gateReg k.half 0) 63 40 ≤ s.block.tide k.half :=
  ⟨on (timed (rings (coll 0 0 1 idleColl))), task0, graphOf [coll 0 0 1 idleColl], coll 0 0 1 idleColl, idleColl, ring, by simp only [Runs]; decide +kernel, by decide +kernel, by decide +kernel, by decide +kernel, by decide +kernel, by decide +kernel, by decide +kernel⟩

theorem witness_LatenessCommands_lenientLate : ∃ (s : State) (k : TaskRef) (g : Graph) (c : TaskCtx) (x : CollState) (p : Plan), Runs s.block k 0x08 g c ∧ c.desc.isColl [0, 1] = true ∧ c.coll = some x ∧ s.block.plan k.half g.slot c.desc.coPlan = some p ∧ c.desc.lenient = true ∧ c.desc.coDeadline + 1000 * s.block.regFld (gateReg k.half 0) 23 8 ≤ s.block.tide k.half ∧ x.late = true ∧ collComplete c x p = false :=
  ⟨on (timed (rings (coll 0 (2 ^ 34) 1 { idleColl with late := true }))), task0, graphOf [coll 0 (2 ^ 34) 1 { idleColl with late := true }], coll 0 (2 ^ 34) 1 { idleColl with late := true }, { idleColl with late := true }, ring, by simp only [Runs]; decide +kernel, by decide +kernel, by decide +kernel, by decide +kernel, by decide +kernel, by decide +kernel, by decide +kernel, by decide +kernel⟩

theorem witness_LatenessCommands_lenient : ∃ (s : State) (k : TaskRef) (g : Graph) (c : TaskCtx) (x : CollState) (p : Plan), Runs s.block k 0x08 g c ∧ c.desc.isColl [0, 1] = true ∧ c.coll = some x ∧ s.block.plan k.half g.slot c.desc.coPlan = some p ∧ c.desc.lenient = true ∧ c.desc.coDeadline + 1000 * s.block.regFld (gateReg k.half 0) 23 8 ≤ s.block.tide k.half ∧ x.late = false :=
  ⟨on (timed (rings (coll 0 (2 ^ 34) 1 idleColl))), task0, graphOf [coll 0 (2 ^ 34) 1 idleColl], coll 0 (2 ^ 34) 1 idleColl, idleColl, ring, by simp only [Runs]; decide +kernel, by decide +kernel, by decide +kernel, by decide +kernel, by decide +kernel, by decide +kernel, by decide +kernel⟩

theorem witness_LatenessCommands_resolve : ∃ (s : State) (k : TaskRef) (g : Graph) (c : TaskCtx) (x : CollState) (p : Plan), Runs s.block k 0x08 g c ∧ c.desc.coOp = 9 ∧ c.coll = some x ∧ s.block.plan k.half g.slot c.desc.coPlan = some p ∧ x.landed = [] ∧ x.verdict = none ∧ x.queried.getD c.desc.coDeadline + 1000 * s.block.regFld (gateReg k.half 0) 39 24 ≤ s.block.tide k.half :=
  ⟨on (timed (rings (coll 9 0 1 idleColl))), task0, graphOf [coll 9 0 1 idleColl], coll 9 0 1 idleColl, idleColl, ring, by simp only [Runs]; decide +kernel, by decide +kernel, by decide +kernel, by decide +kernel, by decide +kernel, by decide +kernel, by decide +kernel⟩

/-! ## Witnesses: links and Tide -/

/-- Half A's port 0 as given, the others untrained, the Isthmus Up; the module's ready report is out. -/
def portA (p : Port) : Block :=
  { net with halfA := { net.halfA with efing := { net.halfA.efing with ports := p :: net.halfA.efing.ports.drop 1 } },
             domain := { net.domain with reported := true } }

/-- A port that trains, one that awaits an identity, and one that is Up. -/
def training : Port := { Port.reset with st := 1 }
def awaiting : Port := { training with trained := true }
def upPort : Port := { Port.reset with st := 2, nbrEndpoint := 9, credits := List.replicate 6 4 }

/-- A packet of the neighbour's. -/
def identityPacket (hash far half : Nat) : Packet :=
  pk 5 1 0 0 (leBytes 2 0 ++ leBytes 1 half ++ leBytes 1 far ++ List.replicate 20 0 ++ leBytes 8 hash)

/-- A group sent once and not acknowledged. -/
def sentGroup (replays : Nat) : SentGroup := { seq := 0, packets := [pk 0 1 0 0 [1]], replays := replays, tide := 0 }

/-- A half's Tide changed. -/
def tideA (b : Block) (f : TideClock → TideClock) : Block := { b with halfA := { b.halfA with tide := f b.halfA.tide } }

/-- Half B follows half A across the Isthmus. -/
def follower (b : Block) (synced : Bool) : Block :=
  { b with halfB := { b.halfB with tide := { b.halfB.tide with parent := some 9, synced := synced } } }

/-- Half A's Efing changed. -/
def efingA (b : Block) (f : Efing → Efing) : Block := { b with halfA := { b.halfA with efing := f b.halfA.efing } }

theorem witness_PortCommands_trained : ∃ (s : State) (h : HalfId) (x : Fin 9) (lanes : List (Fin 5)), Shaped s.block ∧ s.block.domain.reported = true ∧ (s.block.port h x).st = 1 ∧ (s.block.port h x).retraining = false ∧ (s.block.port h x).trained = false ∧ 4 ≤ (lanesOf lanes).length :=
  ⟨on (portA training), .a, 0, [0, 1, 2, 3], by simp only [Shaped]; decide +kernel, by decide +kernel, by decide +kernel, by decide +kernel, by decide +kernel, by decide +kernel⟩

theorem witness_PortCommands_tooFew : ∃ (s : State) (h : HalfId) (x : Fin 9) (lanes : List (Fin 5)), Shaped s.block ∧ s.block.domain.reported = true ∧ (s.block.port h x).st = 1 ∧ (s.block.port h x).retraining = false ∧ (s.block.port h x).trained = false ∧ (lanesOf lanes).length < 4 :=
  ⟨on (portA training), .a, 0, [0, 1, 2], by simp only [Shaped]; decide +kernel, by decide +kernel, by decide +kernel, by decide +kernel, by decide +kernel, by decide +kernel⟩

theorem witness_PortCommands_identityUp : ∃ (s : State) (h : HalfId) (x : Fin 9) (p : Packet), Shaped s.block ∧ s.block.domain.reported = true ∧ (s.block.port h x).st = 1 ∧ (s.block.port h x).trained = true ∧ malformed p = false ∧ pkClass p = 5 ∧ pkOp p = 1 ∧ pkHops p = 0 ∧ packetCrc p = pkCrc p ∧ leNat ((p.payload.drop 24).take 8) = (s.block.reg (cfgReg 8)).toNat ∧ entryModule (s.block.entry s.block.moduleNo (modulePort h x)) = leNat (p.payload.take 2) ∧ entryPort (s.block.entry s.block.moduleNo (modulePort h x)) = leNat ((p.payload.drop 3).take 1) ∧ leNat ((p.payload.drop 2).take 1) = leNat ((p.payload.drop 3).take 1) / 9 :=
  ⟨on (portA awaiting), .a, 0, identityPacket (net.reg (cfgReg 8)).toNat 0 0, by simp only [Shaped]; decide +kernel, by decide +kernel, by decide +kernel, by decide +kernel, by decide +kernel, by decide +kernel, by decide +kernel, by decide +kernel, by decide +kernel, by decide +kernel, by decide +kernel, by decide +kernel, by decide +kernel⟩

theorem witness_PortCommands_identityHash : ∃ (s : State) (h : HalfId) (x : Fin 9) (p : Packet), Shaped s.block ∧ s.block.domain.reported = true ∧ (s.block.port h x).st = 1 ∧ (s.block.port h x).trained = true ∧ malformed p = false ∧ pkClass p = 5 ∧ pkOp p = 1 ∧ pkHops p = 0 ∧ packetCrc p = pkCrc p ∧ leNat ((p.payload.drop 24).take 8) ≠ (s.block.reg (cfgReg 8)).toNat :=
  ⟨on (portA awaiting), .a, 0, identityPacket 5 0 0, by simp only [Shaped]; decide +kernel, by decide +kernel, by decide +kernel, by decide +kernel, by decide +kernel, by decide +kernel, by decide +kernel, by decide +kernel, by decide +kernel, by decide +kernel⟩

theorem witness_PortCommands_identityNeighbour : ∃ (s : State) (h : HalfId) (x : Fin 9) (p : Packet), Shaped s.block ∧ s.block.domain.reported = true ∧ (s.block.port h x).st = 1 ∧ (s.block.port h x).trained = true ∧ malformed p = false ∧ packetCrc p = pkCrc p ∧ leNat ((p.payload.drop 24).take 8) = (s.block.reg (cfgReg 8)).toNat ∧ entryPort (s.block.entry s.block.moduleNo (modulePort h x)) ≠ leNat ((p.payload.drop 3).take 1) :=
  ⟨on (portA awaiting), .a, 0, identityPacket (net.reg (cfgReg 8)).toNat 3 0, by simp only [Shaped]; decide +kernel, by decide +kernel, by decide +kernel, by decide +kernel, by decide +kernel, by decide +kernel, by decide +kernel, by decide +kernel⟩

theorem witness_PortCommands_ack : ∃ (s : State) (h : HalfId) (x : Fin 9) (g : SentGroup), Shaped s.block ∧ s.block.domain.reported = true ∧ (s.block.port h 0).replay = [g] :=
  ⟨on (portA { upPort with replay := [sentGroup 0] }), .a, 0, sentGroup 0, by simp only [Shaped]; decide +kernel, by decide +kernel, by decide +kernel⟩

theorem witness_PortCommands_nak : ∃ (s : State) (h : HalfId) (x : Fin 9) (g : SentGroup), Shaped s.block ∧ s.block.domain.reported = true ∧ (s.block.port h x).st = 2 ∧ g ∈ (s.block.port h x).replay ∧ s.block.regFld (efReg h 8) 39 32 ≤ g.replays :=
  ⟨on (portA { upPort with replay := [sentGroup 255] }), .a, 0, sentGroup 255, by simp only [Shaped]; decide +kernel, by decide +kernel, by decide +kernel, by decide +kernel, by decide +kernel⟩

theorem witness_PortCommands_retrained : ∃ (s : State) (h : HalfId) (x : Fin 9), Shaped s.block ∧ s.block.domain.reported = true ∧ (s.block.port h x).st = 1 ∧ (s.block.port h x).retraining = true :=
  ⟨on (portA { upPort with st := 1, retraining := true }), .a, 0, by simp only [Shaped]; decide +kernel, by decide +kernel, by decide +kernel, by decide +kernel⟩

theorem witness_LinkAndRouterCommands_group : ∃ (s : State) (h : HalfId) (x : Fin 10) (g : LinkGroup), Shaped s.block ∧ 2 ≤ (s.block.port h x).st ∧ (s.block.port h x).st ≤ 4 ∧ g.correctable = true ∧ g.packets ≠ [] ∧ ((∀ p ∈ g.packets, hasRow p = true)) ∧ fld g.control 63 52 = (s.block.port h x).recvSeq :=
  ⟨on (portA upPort), .a, 0, { control := 0, correctable := true, corrected := 0, packets := [pk 0 1 0 0 [1]] }, by simp only [Shaped]; decide +kernel, by decide +kernel, by decide +kernel, by decide +kernel, by decide +kernel, by decide +kernel, by decide +kernel⟩

theorem witness_LinkAndRouterCommands_bad : ∃ (s : State) (h : HalfId) (x : Fin 9) (g : LinkGroup), 2 ≤ (s.block.port h x).st ∧ (s.block.port h x).st ≤ 4 ∧ g.correctable = false :=
  ⟨on (portA upPort), .a, 0, { control := 0, correctable := false, corrected := 0, packets := [] }, by decide +kernel, by decide +kernel, by decide +kernel⟩

theorem witness_LinkAndRouterCommands_forward : ∃ (s : State) (h : HalfId) (p : Packet), pkDest p ≠ s.block.endpoint h ∧ malformed p = false ∧ pkHops p < 7 ∧ pkClass p < 4 ∧ (s.block.half h).efing.census = 2 ∧ pkSrc p / 8 ∈ s.block.domain.roster ∧ packetCrc p = pkCrc p :=
  ⟨on net, .b, pk 0 1 0 0 [1], by decide +kernel, by decide +kernel, by decide +kernel, by decide +kernel, by decide +kernel, by decide +kernel, by decide +kernel⟩

theorem witness_LinkAndRouterCommands_stranger : ∃ (s : State) (h : HalfId) (p : Packet), pkDest p ≠ s.block.endpoint h ∧ malformed p = false ∧ pkHops p < 7 ∧ pkClass p < 4 ∧ ¬ ((s.block.half h).efing.census = 2 ∧ pkSrc p / 8 ∈ s.block.domain.roster) :=
  ⟨on { net with domain := { net.domain with roster := [] } }, .b, pk 0 1 0 0 [1], by decide +kernel, by decide +kernel, by decide +kernel, by decide +kernel, by decide +kernel⟩

theorem witness_LinkAndRouterCommands_hops : ∃ (s : State) (h : HalfId) (p : Packet), pkDest p ≠ s.block.endpoint h ∧ pkHops p = 7 :=
  ⟨on net, .b, { pk 0 1 0 0 [1] with w1 := setFld (pk 0 1 0 0 [1]).w1 31 29 7 }, by decide +kernel, by decide +kernel⟩

theorem witness_LinkAndRouterCommands_queue : ∃ (s : State) (h : HalfId) (x : Fin 10), Shaped s.block :=
  ⟨on (portA { upPort with queue := [(0, pk 0 1 0 0 [1])] }), .a, 0, by simp only [Shaped]; decide +kernel⟩

theorem witness_LinkAndRouterCommands_hold : ∃ (s : State) (h : HalfId) (d : Fin 16384) (q : RouteHold), tabFind (s.block.half h).efing.holds d = some q ∧ q.until_ ≤ s.block.tide h :=
  ⟨on (efingA net (fun e => { e with holds := [(1, { until_ := 0, all := false, packets := [pk 0 1 0 0 [1]] })] })), .a, 1, { until_ := 0, all := false, packets := [pk 0 1 0 0 [1]] }, by decide +kernel, by decide +kernel⟩

theorem witness_TideExchangesAndParents_exchange : ∃ (s : State) (h : HalfId), Shaped s.block ∧ s.block.domain.reported = true ∧ (s.block.half h).tide.lastExchange + 1000000 ≤ (s.block.half h).tide.now ∧ (s.block.port h 0).timed = true :=
  ⟨on (tideA (portA upPort) (fun t => { t with now := 2000000 })), .a, by simp only [Shaped]; decide +kernel, by decide +kernel, by decide +kernel, by decide +kernel⟩

theorem witness_TideExchangesAndParents_echoSets : ∃ (s : State) (h : HalfId) (x : Fin 10), Shaped s.block ∧ s.block.domain.reported = true ∧ (s.block.port h x).timed = true ∧ s.block.isRoot h = false ∧ (s.block.half h).tide.parent = some x.val ∧ (s.block.half h).tide.everLocked = false ∧ (s.block.half h).tide.synced = false :=
  ⟨on (follower (portA upPort) false), .b, 9, by simp only [Shaped]; decide +kernel, by decide +kernel, by decide +kernel, by decide +kernel, by decide +kernel, by decide +kernel, by decide +kernel⟩

theorem witness_TideExchangesAndParents_echoSlews : ∃ (s : State) (h : HalfId) (x : Fin 10), Shaped s.block ∧ s.block.domain.reported = true ∧ (s.block.port h x).timed = true ∧ s.block.isRoot h = false ∧ (s.block.half h).tide.parent = some x.val ∧ (s.block.half h).tide.synced = true :=
  ⟨on (follower (portA upPort) true), .b, 9, by simp only [Shaped]; decide +kernel, by decide +kernel, by decide +kernel, by decide +kernel, by decide +kernel, by decide +kernel⟩

theorem witness_TideExchangesAndParents_parent : ∃ (s : State) (h : HalfId), Shaped s.block ∧ s.block.domain.reported = true ∧ (s.block.half h).tide.parent = some 9 ∧ s.block.isRoot h = false ∧ s.block.eligible h 9 = false :=
  ⟨on (follower { portA upPort with halfB := { net.halfB with efing := { net.halfB.efing with ports := List.replicate 10 Port.reset } } } true), .b, by simp only [Shaped]; decide +kernel, by decide +kernel, by decide +kernel, by decide +kernel, by decide +kernel⟩

theorem witness_TideExchangesAndParents_holdover : ∃ (s : State) (h : HalfId), Shaped s.block ∧ s.block.domain.reported = true ∧ (s.block.half h).tide.holdoverFrom = some 0 ∧ s.block.locked h = true ∧ s.block.regFld (tideReg h 0x18) 29 0 ≤ s.block.tide h :=
  ⟨on (withReg (tideA (portA Port.reset) (fun t => { t with holdoverFrom := some 0, now := 2 * 10 ^ 9 })) (tideReg .a 8) (2 ^ 63)), .a, by simp only [Shaped]; decide +kernel, by decide +kernel, by decide +kernel, by decide +kernel, by decide +kernel⟩

theorem witness_TideReferenceCommands_lock : ∃ (s : State) (h : HalfId), s.block.domain.reported = true ∧ s.block.mayReference h = true ∧ s.block.image.tideRef = 0 :=
  ⟨on (portA upPort), .a, by decide +kernel, by decide +kernel, by decide +kernel⟩

theorem witness_TideReferenceCommands_edge : ∃ (s : State) (h : HalfId), s.block.domain.reported = true ∧ s.block.isRoot h = true ∧ s.block.image.tideRef = 0 ∧ (s.block.half h).tide.clk10m = true ∧ (s.block.half h).tide.running = false ∧ s.block.sys.powerGood = true :=
  ⟨on (tideA (portA upPort) (fun t => { t with clk10m := true, running := false })), .a, by decide +kernel, by decide +kernel, by decide +kernel, by decide +kernel, by decide +kernel, by decide +kernel⟩

theorem witness_TideReferenceCommands_loss : ∃ (s : State) (h : HalfId), s.block.domain.reported = true ∧ s.block.isRoot h = true ∧ s.block.regFld (tideReg h 8) 51 50 ≠ 0 ∧ s.block.regFld (tideReg h 8) 60 60 = 0 :=
  ⟨on (withReg (portA upPort) (tideReg .a 8) (2 ^ 50)), .a, by decide +kernel, by decide +kernel, by decide +kernel, by decide +kernel⟩

theorem witness_TideReferenceCommands_free : ∃ (s : State) (h : HalfId), s.block.domain.reported = true ∧ s.block.image.topology = none ∧ s.block.sys.ready = true ∧ s.block.halfA.tide.running = false ∧ s.block.sys.readyAt + 1000000000 ≤ s.block.sys.upNs :=
  ⟨on { tideA (portA upPort) (fun t => { t with running := false }) with sys := { live.sys with upNs := 10 ^ 9 } }, .a, by decide +kernel, by decide +kernel, by decide +kernel, by decide +kernel, by decide +kernel⟩

/-! ## Witnesses: the domain, its journal, recovery and Slack -/

/-- The module as the leader of a domain of trays 0 and 1 whose topology names it at rank 0, at Tide `now`. -/
def leading (now : Nat) : Block :=
  let b := withReg (withReg (tideA net (fun t => { t with now := now, running := true })) (tideReg .a 8) (2 ^ 63)) (tideReg .b 8) (2 ^ 63)
  { b with image := { b.image with topology := some [] }, domain := { b.domain with holder := true, leaseRank := 0 } }

/-- The same module without the lease. -/
def following (now : Nat) : Block := { leading now with domain := { (leading now).domain with holder := false, leaseRank := 15 } }

/-- A domain of the leader changed. -/
def domainOf (b : Block) (f : Domain → Domain) : Block := { b with domain := f b.domain }

/-- A management packet from half B. -/
def pm (op : Nat) (l : List Byte) : Packet := pk 5 op 0 0 l

/-- A journal record: SEQ, KIND, job 9, step, ARG0 and ARG1. -/
def record (seq kind step arg0 arg1 : Nat) : List Byte := words [seq, kind * 2 ^ 56 + 9 * 2 ^ 44 + step, arg0, arg1, 0, 0, 0, 0]

/-- A module in Slack state `n` since Tide 0. -/
def slackened (n : Nat) (b : Block) : Block := { b with sys := { b.sys with slack := n, slackTide := 0 } }

theorem witness_LeaseAndCensusCommands_claim : ∃ (s : State), s.block.mayClaim = true :=
  ⟨on (following 0), by decide +kernel⟩

theorem witness_LeaseAndCensusCommands_heard : ∃ (s : State) (h : HalfId) (p : Packet) (rank : Nat), Admits s.block h p 5 [2] ∧ rank = u64At p.payload 0 ∧ ((s.block.domain.coord = some (u64At p.payload 16) ∨ ∀ k, ∀ q ∈ s.block.tasksOf k, q.2.2.desc.type ≠ 8)) ∧ s.block.domain.holder = false ∧ rank ≤ s.block.domain.leaseRank :=
  ⟨on (following 5), .a, pm 2 (words [1, 5, 3]), 1, by simp only [Admits]; decide +kernel, by decide +kernel, (.inr (by intro k; cases k <;> decide +kernel)), by decide +kernel, by decide +kernel⟩

theorem witness_LeaseAndCensusCommands_notHeeded : ∃ (s : State) (h : HalfId) (p : Packet) (rank : Nat), Admits s.block h p 5 [2] ∧ rank = u64At p.payload 0 ∧ ((s.block.domain.coord = some (u64At p.payload 16) ∨ ∀ k, ∀ q ∈ s.block.tasksOf k, q.2.2.desc.type ≠ 8)) ∧ s.block.domain.holder = true ∧ s.block.ownRank ≤ rank :=
  ⟨on (leading 5), .a, pm 2 (words [1, 5, 3]), 1, by simp only [Admits]; decide +kernel, by decide +kernel, (.inr (by intro k; cases k <;> decide +kernel)), by decide +kernel, by decide +kernel⟩

theorem witness_LeaseAndCensusCommands_renew : ∃ (s : State), s.block.domain.holder = true ∧ s.block.domain.renewed + 500000000 ≤ s.block.tide .a :=
  ⟨on (leading (10 ^ 9)), by decide +kernel, by decide +kernel⟩

theorem witness_LeaseAndCensusCommands_lapse : ∃ (s : State), s.block.domain.leaseRank ≠ 15 ∧ s.block.ownRank < 15 ∧ (if s.block.domain.holder then s.block.domain.renewed else s.block.domain.leaseHeard) + 2000000000 ≤ s.block.tide .a :=
  ⟨on (leading (3 * 10 ^ 9)), by decide +kernel, by decide +kernel, by decide +kernel⟩

theorem witness_LeaseAndCensusCommands_report : ∃ (s : State) (h : HalfId) (p : Packet), Admits s.block h p 5 [3] ∧ reportKind p.payload = 0 :=
  ⟨on (leading 0), .a, pm 3 (leBytes 2 1 ++ [0, 0]), by simp only [Admits]; decide +kernel, by decide +kernel⟩

theorem witness_LeaseAndCensusCommands_deadline : ∃ (s : State) (n : Nat), s.block.domain.tL = some n ∧ s.block.domain.holder = true ∧ s.block.halfA.efing.census = 1 ∧ s.block.halfB.efing.census = 1 ∧ n + 60000000000 ≤ s.block.tide .a :=
  ⟨on (domainOf { leading (61 * 10 ^ 9) with halfA := { (leading (61 * 10 ^ 9)).halfA with efing := { net.halfA.efing with census := 1 } }, halfB := { net.halfB with efing := { net.halfB.efing with census := 1 } } } (fun d => { d with tL := some 0 })), 0, by decide +kernel, by decide +kernel, by decide +kernel, by decide +kernel, by decide +kernel⟩

theorem witness_LeaseAndCensusCommands_result : ∃ (s : State) (h : HalfId) (p : Packet), Admits s.block h p 5 [4] ∧ 16 ≤ p.payload.length ∧ (s.block.half h).efing.census < 2 ∧ bits (u64At p.payload 8) 16 16 = 0 ∧ bits (u64At p.payload 8) 15 8 = 1 ∧ (s.block.half h).efing.parts = [] :=
  ⟨on (efingA (following 0) (fun e => { e with census := 1 })), .a, pm 4 (words [7, 256]), by simp only [Admits]; decide +kernel, by decide +kernel, by decide +kernel, by decide +kernel, by decide +kernel, by decide +kernel⟩

theorem witness_HeartbeatAndJournalCommands_beat : ∃ (s : State) (m : Nat), s.block.sys.ready = true ∧ s.block.halfA.tide.running = true ∧ s.block.domain.beatSent + 10000000 ≤ s.block.tide .a ∧ s.block.trayReporter = some m :=
  ⟨on (leading (10 ^ 9)), 0, by decide +kernel, by decide +kernel, by decide +kernel, by decide +kernel⟩

theorem witness_HeartbeatAndJournalCommands_heard : ∃ (s : State) (h : HalfId) (p : Packet), Admits s.block h p 5 [0x10] :=
  ⟨on (leading 0), .a, pm 0x10 (List.replicate 48 0), by simp only [Admits]; decide +kernel⟩

theorem witness_HeartbeatAndJournalCommands_tray : ∃ (s : State) (h : HalfId) (p : Packet) (tray : Nat), Admits s.block h p 5 [0x11] ∧ tray = pkSrc p / 8 ∧ s.block.domain.holder = true ∧ s.block.judges tray = true ∧ s.block.domain.reading = none ∧ s.block.beatFault (beatEntries p.payload) ≠ none :=
  ⟨on (leading (10 ^ 9)), .a, pm 0x11 (List.replicate 192 0), 0, by simp only [Admits]; decide +kernel, by decide +kernel, by decide +kernel, by decide +kernel, by decide +kernel, by decide +kernel⟩

theorem witness_HeartbeatAndJournalCommands_silent : ∃ (s : State) (tray : Fin 2048), s.block.judges tray = true ∧ s.block.domain.reading = none ∧ max (tabGet 0 s.block.domain.trayBeat tray) (s.block.reg (tideReg .a 0x30)).toNat + 30000000 ≤ s.block.tide .a :=
  ⟨on (leading (10 ^ 9)), 1, by decide +kernel, by decide +kernel, by decide +kernel⟩

theorem witness_HeartbeatAndJournalCommands_append : ∃ (s : State) (h : HalfId) (p : Packet), Admits s.block h p 5 [0x12] ∧ p.payload.length = 72 ∧ s.block.zilsy.up = true ∧ u64At p.payload 64 = 0 ∧ s.block.domain.holder = false :=
  ⟨on (following 0), .a, pm 0x12 (record 3 1 0 0 0 ++ leBytes 8 0), by simp only [Admits]; decide +kernel, by decide +kernel, by decide +kernel, by decide +kernel, by decide +kernel⟩

theorem witness_HeartbeatAndJournalCommands_ack : ∃ (s : State) (h : HalfId) (p : Packet) (l : List Byte) (tag : Nat), Admits s.block h p 5 [0x13] ∧ p.payload.length = 72 ∧ l = p.payload.take 64 ∧ tag = u64At p.payload 64 ∧ s.block.domain.holder = true ∧ s.block.domain.unacted = [] ∧ s.block.domain.acks = [] ∧ tabFind s.block.domain.held (recSeq l) = some [0] :=
  ⟨on (domainOf (leading 0) (fun d => { d with held := [(3, [0])] })), .a, pm 0x13 (record 3 1 0 0 0 ++ leBytes 8 0), record 3 1 0 0 0, 0, by simp only [Admits]; decide +kernel, by decide +kernel, by decide +kernel, by decide +kernel, by decide +kernel, by decide +kernel, by decide +kernel, by decide +kernel⟩

theorem witness_HeartbeatAndJournalCommands_action : ∃ (s : State) (h : HalfId) (p : Packet) (l : List Byte) (tag : Nat), Admits s.block h p 5 [0x13] ∧ p.payload.length = 72 ∧ l = p.payload.take 64 ∧ tag = u64At p.payload 64 ∧ s.block.domain.acks = [(recSeq l, [])] ∧ 0 ∈ s.block.liveEndpoints ∧ 0 ≠ pkSrc p :=
  ⟨on (domainOf (leading 0) (fun d => { d with acks := [(3, [])] })), .a, pm 0x13 (record 3 3 0 0 0 ++ leBytes 8 1), record 3 3 0 0 0, 1, by simp only [Admits]; decide +kernel, by decide +kernel, by decide +kernel, by decide +kernel, by decide +kernel, by decide +kernel, by decide +kernel⟩

theorem witness_HeartbeatAndJournalCommands_query : ∃ (s : State) (h : HalfId) (p : Packet) (r : List Byte), Admits s.block h p 5 [0x14] ∧ s.block.domain.holder = true ∧ s.block.domain.reading = none ∧ s.block.journaled (u32At p.payload 0) (u32At p.payload 4) (u32At p.payload 8) = some r ∧ recSeq r ∉ s.block.domain.unacted :=
  ⟨on (domainOf (leading 0) (fun d => { d with journal := [(3, record 3 1 2 0 0)] })), .a, pm 0x14 (leBytes 4 9 ++ leBytes 4 2 ++ leBytes 4 0), record 3 1 2 0 0, by simp only [Admits]; decide +kernel, by decide +kernel, by decide +kernel, by decide +kernel, by decide +kernel⟩

theorem witness_HeartbeatAndJournalCommands_answer : ∃ (s : State) (h : HalfId) (p : Packet), Admits s.block h p 5 [0x15] ∧ s.block.verdictTasks h (u32At p.payload 0) (u32At p.payload 4) (u32At p.payload 8) = [] :=
  ⟨on (leading 0), .a, pm 0x15 (leBytes 4 9 ++ leBytes 4 2 ++ leBytes 4 0 ++ List.replicate 16 0), by simp only [Admits]; decide +kernel, by decide +kernel⟩

theorem witness_HeartbeatAndJournalCommands_checkpoint : ∃ (s : State) (h : HalfId) (p : Packet) (e : Nat) (c0 : Nat) (c1 : Nat) (r : CkptReport), Admits s.block h p 5 [0x17] ∧ s.block.domain.holder = true ∧ e = pkSrc p ∧ c0 = u16At p.payload 16 ∧ c1 = u16At p.payload 18 ∧ r = { job := u32At p.payload 0, step := u32At p.payload 4, endpoint := e, mark := u64At p.payload 8, copy0 := c0, copy1 := c1 } :=
  ⟨on (leading 0), .a, pm 0x17 (leBytes 4 9 ++ leBytes 4 2 ++ leBytes 8 5 ++ leBytes 2 8 ++ leBytes 2 16), 1, 8, 16, { job := 9, step := 2, endpoint := 1, mark := 5, copy0 := 8, copy1 := 16 }, by simp only [Admits]; decide +kernel, by decide +kernel, by decide +kernel, by decide +kernel, by decide +kernel, by decide +kernel⟩

theorem witness_HeartbeatAndJournalCommands_late : ∃ (s : State) (h : HalfId) (p : Packet), Admits s.block h p 5 [0x18] ∧ s.block.domain.holder = true :=
  ⟨on (leading 0), .a, pm 0x18 (leBytes 4 9 ++ leBytes 4 2 ++ leBytes 2 1), by simp only [Admits]; decide +kernel, by decide +kernel⟩

theorem witness_HeartbeatAndJournalCommands_revocation : ∃ (s : State) (h : HalfId) (p : Packet), Admits s.block h p 5 [0x19] ∧ s.block.domain.holder = true :=
  ⟨on (leading 0), .a, pm 0x19 (leBytes 8 0), by simp only [Admits]; decide +kernel, by decide +kernel⟩

theorem witness_RecoveryCommands_again : ∃ (s : State) (h : HalfId) (p : Packet) (i : Instr) (kind : Nat), (i, kind) ∈ [(Instr.recoveryLost h p, 3), (.recoveryAbort h p, 4), (.recoverySubst h p, 5), (.recoveryResume h p, 6)] ∧ Admits s.block h p 5 [0x16] ∧ p.payload.length = 64 ∧ recKind p.payload = kind ∧ recSeq p.payload ≤ s.block.applied h ∧ s.block.applied h ≠ 0 ∧ s.block.domain.aborting = [] :=
  ⟨on (withReg (following 0) (gateReg .a 0x10) 7), .a, pm 0x16 (record 7 3 0 1 0), .recoveryLost .a (pm 0x16 (record 7 3 0 1 0)), 3, by decide +kernel, by simp only [Admits]; decide +kernel, by decide +kernel, by decide +kernel, by decide +kernel, by decide +kernel, by decide +kernel⟩

theorem witness_RecoveryCommands_lost : ∃ (s : State) (h : HalfId) (p : Packet), Shaped s.block ∧ Admits s.block h p 5 [0x16] ∧ p.payload.length = 64 ∧ recKind p.payload = 3 ∧ ((s.block.applied h < recSeq p.payload ∨ s.block.applied h = 0)) ∧ recSeq p.payload < 2 ^ 40 :=
  ⟨on (following 0), .a, pm 0x16 (record 7 3 0 1 0), by simp only [Shaped]; decide +kernel, by simp only [Admits]; decide +kernel, by decide +kernel, by decide +kernel, by decide +kernel, by decide +kernel⟩

theorem witness_RecoveryCommands_abort : ∃ (s : State) (h : HalfId) (p : Packet), Shaped s.block ∧ Admits s.block h p 5 [0x16] ∧ p.payload.length = 64 ∧ recKind p.payload = 4 ∧ ((s.block.applied h < recSeq p.payload ∨ s.block.applied h = 0)) ∧ recSeq p.payload < 2 ^ 40 :=
  ⟨on (following 0), .a, pm 0x16 (record 7 4 0 0 0), by simp only [Shaped]; decide +kernel, by simp only [Admits]; decide +kernel, by decide +kernel, by decide +kernel, by decide +kernel, by decide +kernel⟩

theorem witness_RecoveryCommands_subst : ∃ (s : State) (h : HalfId) (p : Packet) (n : Nat), Admits s.block h p 5 [0x16] ∧ p.payload.length = 64 ∧ recKind p.payload = 5 ∧ ((s.block.applied h < recSeq p.payload ∨ s.block.applied h = 0)) ∧ recSeq p.payload < 2 ^ 40 ∧ s.block.freeSubst h = some n :=
  ⟨on (following 0), .a, pm 0x16 (record 7 5 0 1 2), 0, by simp only [Admits]; decide +kernel, by decide +kernel, by decide +kernel, by decide +kernel, by decide +kernel, by decide +kernel⟩

theorem witness_RecoveryCommands_resume : ∃ (s : State) (p : Packet), Admits s.block .a p 5 [0x16] ∧ p.payload.length = 64 ∧ recKind p.payload = 6 ∧ ((s.block.applied .a < recSeq p.payload ∨ s.block.applied .a = 0)) ∧ recSeq p.payload < 2 ^ 40 :=
  ⟨on (following 0), pm 0x16 (record 7 6 4 5 0), by simp only [Admits]; decide +kernel, by decide +kernel, by decide +kernel, by decide +kernel, by decide +kernel⟩

theorem witness_RecoveryCommands_ports : ∃ (s : State) (n : Nat), Shaped s.block ∧ s.block.sys.noUpPortFrom = some n ∧ n + 100000000 ≤ s.block.sys.upNs :=
  ⟨on { net with sys := { net.sys with noUpPortFrom := some 0, upNs := 10 ^ 9 } }, 0, by simp only [Shaped]; decide +kernel, by decide +kernel, by decide +kernel⟩

theorem witness_SlackCommands_enter : ∃ (s : State) (p : Path) (a : Actor) (x : Block), Arrives s.block p [1, 2] a x ∧ s.block.slackRefuses = false :=
  ⟨on live, .zilsy (msg 6), who 1 6, live.useNonce 7, ⟨by decide +kernel, by decide +kernel, by decide +kernel, rfl⟩, by decide +kernel⟩

theorem witness_SlackCommands_refused : ∃ (s : State) (p : Path) (a : Actor) (x : Block), Arrives s.block p [1, 2] a x ∧ s.block.slackRefuses = true :=
  ⟨on bound, .zilsy (msg 6), who 1 6, bound.useNonce 7, ⟨by decide +kernel, by decide +kernel, by decide +kernel, rfl⟩, by decide +kernel⟩

theorem witness_SlackCommands_idle : ∃ (s : State) (n : Nat), s.block.sys.idleFrom = some n ∧ s.block.image.slackIdleMs ≠ 0 ∧ s.block.idle = true ∧ n + s.block.image.slackIdleMs * 1000000 ≤ s.block.tide .a :=
  ⟨on { leading (10 ^ 9) with slots := List.replicate 16 JobSlot.reset, sys := { net.sys with idleFrom := some 0 }, image := { net.image with slackIdleMs := 5 } }, 0, by decide +kernel, by decide +kernel, by decide +kernel, by decide +kernel⟩

theorem witness_SlackCommands_done : ∃ (s : State), Shaped s.block ∧ s.block.sys.slack = 1 ∧ ((∀ h, (s.block.window h).st ≠ 2)) ∧ ((∀ h, s.block.homeQuiet h = true)) :=
  ⟨on (slackened 1 net), by simp only [Shaped]; decide +kernel, by decide +kernel, (by intro h; cases h <;> decide +kernel), (by intro h; cases h <;> decide +kernel)⟩

theorem witness_SlackCommands_wake : ∃ (s : State) (p : Path) (a : Actor) (x : Block), Arrives s.block p [1, 2] a x ∧ s.block.flash.audit.length < 64512 :=
  ⟨on (slackened 2 live), .zilsy (msg 6), who 1 6, (slackened 2 live).useNonce 7, ⟨by decide +kernel, by decide +kernel, by decide +kernel, rfl⟩, by decide +kernel⟩

theorem witness_SlackCommands_ready : ∃ (s : State), Shaped s.block ∧ s.block.sys.slack = 3 ∧ s.block.sys.slackTide + 30000000 ≤ s.block.tide .a :=
  ⟨on (slackened 3 (leading (10 ^ 9))), by simp only [Shaped]; decide +kernel, by decide +kernel, by decide +kernel⟩

/-! ## Witnesses: Zilsy, configuration and the invariants -/

/-- Zilsy's state of a block changed. -/
def zilsyOf (b : Block) (f : Zilsy → Zilsy) : Block := { b with zilsy := f b.zilsy }

/-- A log record. -/
def logged : LogRecord :=
  { seq := 0, tide := 0, event := 0x10, source := 0, job := 9, severity := 1, unlocked := false, count := 1, graph := 0, task := 0, status := 0,
    taskValid := false, arg0 := 0, arg1 := 0, arg2 := 0 }

/-- A write of the operator layer by key 6 that is under way. -/
def writing : ConfigWrite :=
  { which := 3, layer := { keyId := 6, reserved := List.replicate 48 0, records := [], signature := [], verifies := true }, disabled := 0, keyId := 6, role := 1,
    viaPcie := false, started := 0 }

/-- A staging by port 0 of an object by its number, with key 5. -/
def staged (object length : Nat) (data : List (Nat × Byte)) : Staging :=
  { object := object, keyId := 5, channel := .port 0, length := length, data := data, lastActive := 0, oldSvn := none }

/-- A block with that staging. -/
def staging (y : Staging) : Block := zilsyOf live (fun z => { z with staging := some y })

/-- A block with one operator's key more. -/
def twoKeys : Block := { live with flash := { live.flash with keys := live.flash.keys ++ [{ keyId := 8, role := 2, active := true, ed25519 := [], mlDsa := [] }] } }

theorem oneSlot_head (p : Nat × Nat) : OneSlot (p :: List.replicate 15 (0, 0)) := by
  have h : ∀ n, ((List.replicate 15 ((0, 0) : Nat × Nat)).getD n (0, 0)).1 = 0 := by
    intro n
    rw [List.getD_eq_getElem?_getD, List.getElem?_replicate]
    split <;> rfl
  intro i j hi hj _
  cases i with
  | zero => cases j with
    | zero => rfl
    | succ j => exact absurd (h j) hj
  | succ i => exact absurd (h i) hi

/-- The bytes of an installer layer without records, signed with key 5. -/
def layerData : List (Nat × Byte) := [(0, 2), (8, 5)]

theorem witness_ZilsyCommands_nonce : ∃ (s : State) (c : Channel) (v : Nat), s.block.hears c = true ∧ s.block.zilsy.nonces.length < 64 :=
  ⟨on live, .port 0, 9, by decide +kernel, by decide +kernel⟩

theorem witness_ZilsyCommands_reads : ∃ (s : State) (m : Envelope) (seq : Nat) (n : Fin 256) (a : Actor) (x : Block), Arrives s.block (.zilsy m) [1, 2, 3] a x :=
  ⟨on live, msg 6, 0, 2, who 1 6, live.useNonce 7, ⟨by decide +kernel, by decide +kernel, by decide +kernel, rfl⟩⟩

theorem witness_ZilsyCommands_cap : ∃ (s : State) (p : Path) (v : Word) (a : Actor) (x : Block), Arrives s.block p [1, 2] a x ∧ v.toNat < 2048 ∧ 400 ≤ v.toNat ∧ v.toNat ≤ s.block.image.powerLimitW ∧ s.block.flash.audit.length < 64512 :=
  ⟨on { live with image := { live.image with powerLimitW := 1000 } }, .zilsy (msg 6), 500, who 1 6, { live with image := { live.image with powerLimitW := 1000 } }.useNonce 7, ⟨by decide +kernel, by decide +kernel, by decide +kernel, rfl⟩, by decide +kernel, by decide +kernel, by decide +kernel, by decide +kernel⟩

theorem witness_ZilsyCommands_reset : ∃ (s : State) (m : Envelope) (force : Bool) (a : Actor) (x : Block), Arrives s.block (.zilsy m) [1, 2] a x ∧ s.block.recentTrip = false ∧ s.block.allDisabled = true ∧ s.block.sys.powerGood = true :=
  ⟨on live, msg 5, true, who 2 5, live.useNonce 7, ⟨by decide +kernel, by decide +kernel, by decide +kernel, rfl⟩, by decide +kernel, by decide +kernel, by decide +kernel⟩

theorem witness_ZilsyCommands_refused : ∃ (s : State) (m : Envelope) (force : Bool) (a : Actor) (x : Block), Arrives s.block (.zilsy m) [1, 2] a x ∧ s.block.allDisabled = false :=
  ⟨on bound, msg 6, false, who 1 6, bound.useNonce 7, ⟨by decide +kernel, by decide +kernel, by decide +kernel, rfl⟩, by decide +kernel⟩

theorem witness_ZilsyCommands_mismatch : ∃ (s : State), s.block.zilsy.up = true :=
  ⟨on live, by decide +kernel⟩

theorem witness_ZilsyCommands_restart : ∃ (s : State) (isB : Bool) (x : FirmwareSlot), s.block.zilsy.up = false ∧ s.block.zilsy.resets ≠ 0 ∧ s.block.sys.startStep ≠ 1 ∧ s.block.flash.bootSlot = some (isB, x) :=
  ⟨on (zilsyOf live (fun z => { z with up := false, resets := 1 })), false, { gen := 0, signed := true, svn := 0, raiseFloor := false, image := [] }, by decide +kernel, by decide +kernel, by decide +kernel, by decide +kernel⟩

theorem witness_ZilsyCommands_flush : ∃ (s : State) (n : Nat) (r : LogRecord), s.block.zilsy.up = true ∧ s.block.zilsy.merging = [(n, r)] :=
  ⟨on { zilsyOf live (fun z => { z with merging := [(0, logged)] }) with sys := { live.sys with upNs := 2 * 10 ^ 9 } }, 0, logged, by decide +kernel, by decide +kernel⟩

theorem witness_ConfigurationCommands_commit : ∃ (s : State) (m : Envelope) (a : Actor) (x : Block), Arrives s.block (.zilsy m) [1, 2] a x ∧ s.block.flash.audit.length < 64512 ∧ s.block.zilsy.configWrite = none ∧ s.block.zilsy.configQueue = [] ∧ s.block.installerStaging = false :=
  ⟨on live, msg 6, who 1 6, live.useNonce 7, ⟨by decide +kernel, by decide +kernel, by decide +kernel, rfl⟩, by decide +kernel, by decide +kernel, by decide +kernel, by decide +kernel⟩

theorem witness_ConfigurationCommands_queued : ∃ (s : State) (m : Envelope) (a : Actor) (x : Block), Arrives s.block (.zilsy m) [1, 2] a x ∧ s.block.zilsy.configWrite.isSome = true :=
  ⟨on (zilsyOf live (fun z => { z with configWrite := some writing })), msg 6, who 1 6, (zilsyOf live (fun z => { z with configWrite := some writing })).useNonce 7, ⟨by decide +kernel, by decide +kernel, by decide +kernel, rfl⟩, by decide +kernel⟩

theorem witness_ConfigurationCommands_failed : ∃ (s : State) (ok : Bool) (w : ConfigWrite), s.block.zilsy.configWrite = some w ∧ s.block.zilsy.configQueue = [] :=
  ⟨on (zilsyOf live (fun z => { z with configWrite := some writing })), false, writing, by decide +kernel, by decide +kernel⟩

theorem witness_ConfigurationCommands_begin : ∃ (s : State) (m : Envelope) (object : Nat) (length : Nat) (a : Actor) (x : Block), Arrives s.block (.zilsy m) (stagingRoles object) a x ∧ object ∈ [1, 2, 3] ∧ s.block.zilsy.staging = none ∧ length ≤ stagingMax object :=
  ⟨on live, msg 5, 1, 100, who 2 5, live.useNonce 7, ⟨by decide +kernel, by decide +kernel, by decide +kernel, rfl⟩, by decide +kernel, by decide +kernel, by decide +kernel⟩

theorem witness_ConfigurationCommands_open : ∃ (s : State) (m : Envelope) (object : Nat) (length : Nat) (a : Actor) (x : Block), Arrives s.block (.zilsy m) (stagingRoles object) a x ∧ object ∈ [1, 2, 3] ∧ s.block.zilsy.staging.isSome = true :=
  ⟨on (staging (staged 1 100 [])), msg 5, 1, 100, who 2 5, (staging (staged 1 100 [])).useNonce 7, ⟨by decide +kernel, by decide +kernel, by decide +kernel, rfl⟩, by decide +kernel, by decide +kernel⟩

theorem witness_ConfigurationCommands_chunk : ∃ (s : State) (c : Channel) (off : Nat) (data : List Byte) (y : Staging), s.block.hears c = true ∧ s.block.zilsy.staging = some y ∧ y.channel = c ∧ off + data.length ≤ y.length :=
  ⟨on (staging (staged 1 100 [])), .port 0, 4, [1, 2], staged 1 100 [], by decide +kernel, by decide +kernel, by decide +kernel, by decide +kernel⟩

theorem witness_ConfigurationCommands_firmware : ∃ (s : State) (m : Envelope) (o : StagedObject) (a : Actor) (x : Block) (y : Staging), s.block.zilsy.staging = some y ∧ y.object = 3 ∧ Arrives s.block (.zilsy m) [2, 3] a x ∧ s.block.zilsy.configQueue = [] ∧ s.block.flash.floor ≤ o.svn :=
  ⟨on (staging (staged 3 4 [])), msg 5, { ed25519Ok := true, mlDsaOk := true, svn := 3, raiseFloor := false }, who 2 5, (staging (staged 3 4 [])).useNonce 7, staged 3 4 [], by decide +kernel, by decide +kernel, ⟨by decide +kernel, by decide +kernel, by decide +kernel, rfl⟩, by decide +kernel, by decide +kernel⟩

theorem witness_ConfigurationCommands_layer : ∃ (s : State) (m : Envelope) (o : StagedObject) (a : Actor) (x : Block) (y : Staging) (l : Layer), s.block.zilsy.staging = some y ∧ y.object = 1 ∧ Arrives s.block (.zilsy m) [2] a x ∧ s.block.zilsy.configWrite = none ∧ s.block.flash.audit.length < 64512 ∧ parseLayer 2 y.bytes (o.ed25519Ok && o.mlDsaOk) = some l ∧ s.block.layerSigned (2, l) = true :=
  ⟨on (staging (staged 1 3437 layerData)), msg 5, { ed25519Ok := true, mlDsaOk := true, svn := 0, raiseFloor := false }, who 2 5, (staging (staged 1 3437 layerData)).useNonce 7, staged 1 3437 layerData, the ((parseLayer 2 (staged 1 3437 layerData).bytes true)) (by decide +kernel), by decide +kernel, by decide +kernel, ⟨by decide +kernel, by decide +kernel, by decide +kernel, rfl⟩, by decide +kernel, by decide +kernel, the_eq _ (by decide +kernel), by decide +kernel⟩

theorem witness_ConfigurationCommands_idle : ∃ (s : State) (y : Staging), s.block.zilsy.up = true ∧ s.block.zilsy.staging = some y ∧ s.block.zilsy.configQueue = [] :=
  ⟨on (staging (staged 1 100 [])), staged 1 100 [], by decide +kernel, by decide +kernel, by decide +kernel⟩

theorem witness_ConfigurationCommands_enrol : ∃ (s : State) (m : Envelope) (k : KeyBody) (a : Actor) (x : Block), Arrives s.block (.zilsy m) (if k.role = 1 then [2] else [2, 3]) a x ∧ s.block.flash.audit.length < 64512 ∧ s.block.activeKeys k.role < 256 ∧ s.block.flash.keys.length < 512 :=
  ⟨on live, msg 5, { role := 1, ed25519 := [1], mlDsa := [2] }, who 2 5, live.useNonce 7, ⟨by decide +kernel, by decide +kernel, by decide +kernel, rfl⟩, by decide +kernel, by decide +kernel, by decide +kernel⟩

theorem witness_ConfigurationCommands_revoke : ∃ (s : State) (m : Envelope) (id : Nat) (k : KeyEntry) (a : Actor) (x : Block), s.block.flash.keys.find? (fun k => k.keyId = id && k.active) = some k ∧ (k.role = 1 ∨ k.role = 2) ∧ Arrives s.block (.zilsy m) (if k.role = 1 then [2] else [2, 3]) a x ∧ s.block.flash.audit.length < 64512 :=
  ⟨on live, msg 5, 6, { keyId := 6, role := 1, active := true, ed25519 := [], mlDsa := [] }, who 2 5, live.useNonce 7, by decide +kernel, by decide +kernel, ⟨by decide +kernel, by decide +kernel, by decide +kernel, rfl⟩, by decide +kernel⟩

theorem witness_ConfigurationCommands_last : ∃ (s : State) (m : Envelope) (id : Nat) (k : KeyEntry) (a : Actor) (x : Block), s.block.flash.keys.find? (fun k => k.keyId = id && k.active) = some k ∧ (k.role = 1 ∨ k.role = 2) ∧ Arrives s.block (.zilsy m) (if k.role = 1 then [2] else [2, 3]) a x ∧ s.block.flash.audit.length < 64512 ∧ s.block.activeKeys 2 ≤ 1 :=
  ⟨on live, msg 5, 5, { keyId := 5, role := 2, active := true, ed25519 := [], mlDsa := [] }, who 2 5, live.useNonce 7, by decide +kernel, by decide +kernel, ⟨by decide +kernel, by decide +kernel, by decide +kernel, rfl⟩, by decide +kernel, by decide +kernel⟩

theorem witness_ConfigurationCommands_repair : ∃ (s : State) (m : Envelope) (l : List (Fin 320)) (a : Actor) (x : Block), Arrives s.block (.zilsy m) [3] a x ∧ s.block.flash.audit.length < 64512 :=
  ⟨on { live with flash := { live.flash with repair := [(3, 1)] } }, msg 4, [3], who 3 4, { live with flash := { live.flash with repair := [(3, 1)] } }.useNonce 7, ⟨by decide +kernel, by decide +kernel, by decide +kernel, rfl⟩, by decide +kernel⟩

theorem witness_ConfigurationCommands_diag : ∃ (s : State) (m : Envelope) (mode : Nat) (a : Actor) (x : Block), Arrives s.block (.zilsy m) [3] a x ∧ s.block.flash.audit.length < 64512 ∧ s.block.image.diagAccess = true :=
  ⟨on { live with image := { live.image with diagAccess := true } }, msg 4, 0, who 3 4, { live with image := { live.image with diagAccess := true } }.useNonce 7, ⟨by decide +kernel, by decide +kernel, by decide +kernel, rfl⟩, by decide +kernel, by decide +kernel⟩

theorem witness_ConfigurationCommands_closed : ∃ (s : State) (m : Envelope) (mode : Nat) (a : Actor) (x : Block), Arrives s.block (.zilsy m) [3] a x ∧ s.block.flash.audit.length < 64512 ∧ s.block.image.diagAccess = false :=
  ⟨on live, msg 4, 0, who 3 4, live.useNonce 7, ⟨by decide +kernel, by decide +kernel, by decide +kernel, rfl⟩, by decide +kernel, by decide +kernel⟩

theorem witness_MemoryStaysCanonical : ∃ (s : State) (t : State), s.block.memWf = true ∧ step s = .next t :=
  ⟨{ block := net, pending := [.hintWindowOpen] }, nx .hintWindowOpen (on net), by decide +kernel, rfl⟩

theorem witness_AuditRecordsAreNeverOverwritten : ∃ (s : State) (t : State), step s = .next t :=
  ⟨{ block := net, pending := [.hintWindowOpen] }, nx .hintWindowOpen (on net), rfl⟩

theorem witness_FloorNeverFalls_boot : ∃ (s : State) (i : Instr) (isB : Bool) (x : FirmwareSlot), ((i = .zilsyBoot ∧ s.block.sys.startStep = 1) ∨ (i = .zilsyRestart ∧ s.block.zilsy.up = false ∧ s.block.zilsy.resets ≠ 0 ∧ s.block.sys.startStep ≠ 1)) ∧ s.block.flash.bootSlot = some (isB, x) ∧ x.raiseFloor = true ∧ s.block.flash.floor < x.svn ∧ s.block.flash.audit.length < 65536 :=
  ⟨on { Block.reset with flash := { Flash.reset with firmwareA := some { gen := 0, signed := true, svn := 3, raiseFloor := true, image := [] } }, sys := { Block.reset.sys with startStep := 1 } }, .zilsyBoot, false, { gen := 0, signed := true, svn := 3, raiseFloor := true, image := [] }, (.inl (by decide +kernel)), by decide +kernel, by decide +kernel, by decide +kernel, by decide +kernel⟩

theorem witness_FloorNeverFalls_restart : ∃ (s : State) (i : Instr) (isB : Bool) (x : FirmwareSlot), ((i = .zilsyBoot ∧ s.block.sys.startStep = 1) ∨ (i = .zilsyRestart ∧ s.block.zilsy.up = false ∧ s.block.zilsy.resets ≠ 0 ∧ s.block.sys.startStep ≠ 1)) ∧ s.block.flash.bootSlot = some (isB, x) ∧ x.raiseFloor = true ∧ s.block.flash.floor < x.svn ∧ s.block.flash.audit.length < 65536 :=
  ⟨on { zilsyOf live (fun z => { z with up := false, resets := 1 }) with flash := { live.flash with firmwareA := some { gen := 0, signed := true, svn := 3, raiseFloor := true, image := [] } } }, .zilsyRestart, false, { gen := 0, signed := true, svn := 3, raiseFloor := true, image := [] }, (.inr (by decide +kernel)), by decide +kernel, by decide +kernel, by decide +kernel, by decide +kernel⟩

theorem witness_FloorNeverFalls_step : ∃ (s : State) (t : State), step s = .next t :=
  ⟨{ block := net, pending := [.hintWindowOpen] }, nx .hintWindowOpen (on net), rfl⟩

theorem witness_KeyEntriesKeepTheirSlots : ∃ (s : State) (t : State), step s = .next t :=
  ⟨{ block := net, pending := [.hintWindowOpen] }, nx .hintWindowOpen (on net), rfl⟩

theorem witness_JobsHoldOneSlot : ∃ (s : State) (t : State), s.block.slots.length = 16 ∧ OneSlot (s.block.slots.map (fun x => (x.st, x.job))) ∧ step s = .next t :=
  ⟨{ block := net, pending := [.hintWindowOpen] }, nx .hintWindowOpen (on net), by decide +kernel, (by rw [show List.map (fun x => (x.st, x.job)) net.slots = (1, 9) :: List.replicate 15 (0, 0) from by decide +kernel]; exact oneSlot_head _), rfl⟩

theorem witness_TideNeverDecreases : ∃ (s : State) (t : State) (h : HalfId), step s = .next t ∧ (s.block.half h).tide.everLocked = true ∧ (s.block.half h).tide.running = true ∧ (t.block.half h).tide.everLocked = true :=
  ⟨{ block := { net with halfA := { net.halfA with tide := { net.halfA.tide with everLocked := true, running := true } } }, pending := [.hintWindowOpen] }, nx .hintWindowOpen (on { net with halfA := { net.halfA with tide := { net.halfA.tide with everLocked := true, running := true } } }), .a, rfl, by decide +kernel, by decide +kernel, by decide +kernel⟩

theorem witness_BlockKeepsItsShape : ∃ (s : State) (t : State), Shaped s.block ∧ step s = .next t :=
  ⟨{ block := net, pending := [.hintWindowOpen] }, nx .hintWindowOpen (on net), by simp only [Shaped]; decide +kernel, rfl⟩

end Sys2Proof.Tests
end

/-! PROOFS. Register writes and READ (spec/00_scope.md R5-R7; R402, R441, R442, R446, R447): what a message's answer and the write of a
register change and what they leave alone, and from these the three statements of this family. -/

namespace Sys2Proof.Machine

/-! ## Answers to a command (R447, R455) -/

theorem toWords_length_le (n : Nat) (l : List Byte) : (toWords n l).length ≤ n := by
  induction n generalizing l with
  | zero => simp [toWords]
  | succ n ih =>
    simp only [toWords]
    split
    · simp
    · simpa using ih _

/-- Storing words changes the registers alone. -/
theorem Block.setWords_eq (b : Block) (a : Nat) (ws : List Word) : b.setWords a ws = { b with regs := (b.setWords a ws).regs } := by
  induction ws generalizing b a with
  | nil => rfl
  | cons w ws ih => rw [Block.setWords, ih]; rfl

theorem Block.setWords_reg_outside (b : Block) (a c : Nat) (ws : List Word) (hc : c < a ∨ a + 8 * ws.length ≤ c) :
    (b.setWords a ws).reg c = b.reg c := by
  induction ws generalizing b a with
  | nil => rfl
  | cons w ws ih =>
    rw [List.length_cons] at hc
    rw [Block.setWords, ih _ _ (by omega), Block.reg_setReg_other _ _ _ _ (by omega)]

/-- An answer changes what has left the module and the registers alone. -/
theorem Block.reply_eq (b : Block) (c : Channel) (status detail : Nat) (data : List Byte) :
    b.reply c status detail data =
      { b with regs := (b.reply c status detail data).regs, out := b.out ++ [.reply c status detail data] } := by
  cases c with
  | port _ => rfl
  | mailbox =>
    simp only [Block.reply, isMailbox, if_true]
    rw [Block.setWords_eq]
    rfl

section
variable (b : Block) (c : Channel) (status detail : Nat) (data : List Byte)

@[simp] theorem Block.reply_out : (b.reply c status detail data).out = b.out ++ [.reply c status detail data] := by
  rw [Block.reply_eq]
@[simp] theorem Block.reply_halfA : (b.reply c status detail data).halfA = b.halfA := by rw [Block.reply_eq]
@[simp] theorem Block.reply_halfB : (b.reply c status detail data).halfB = b.halfB := by rw [Block.reply_eq]
@[simp] theorem Block.reply_mem : (b.reply c status detail data).mem = b.mem := by rw [Block.reply_eq]
@[simp] theorem Block.reply_fill : (b.reply c status detail data).fill = b.fill := by rw [Block.reply_eq]
@[simp] theorem Block.reply_sys : (b.reply c status detail data).sys = b.sys := by rw [Block.reply_eq]
@[simp] theorem Block.reply_flash : (b.reply c status detail data).flash = b.flash := by rw [Block.reply_eq]
@[simp] theorem Block.reply_zilsy : (b.reply c status detail data).zilsy = b.zilsy := by rw [Block.reply_eq]
@[simp] theorem Block.reply_byte (y : Nat) : (b.reply c status detail data).byte y = b.byte y :=
  Block.byte_eq (b.reply_mem c status detail data) (b.reply_fill c status detail data) y

/-- Of the registers an answer writes the mailbox's alone, and only when it leaves by the mailbox (R455). -/
theorem Block.reply_reg (y : Nat) (hy : ¬ (c = .mailbox ∧ mailboxReg y)) : (b.reply c status detail data).reg y = b.reg y := by
  cases c with
  | port _ => exact b.emit_reg _ y
  | mailbox =>
    have hlen := toWords_length_le 2048 data
    simp only [mailboxReg, zilReg, true_and] at hy
    simp only [Block.reply, isMailbox, if_true]
    rw [Block.reg_setReg_other _ _ _ _ (by simp only [zilReg]; omega),
      Block.setWords_reg_outside _ _ _ _ (by simp only [zilReg]; omega), Block.emit_reg]
end

/-! ## A request that is let in (R402, R446) -/

/-- What leaves the block of an answer: by BAR0 nothing, by Zilsy the answer to the message (R402, R447). -/
def Answer.leave (y : Answer) : Path → Block
  | .host => y.block
  | .zilsy m => y.sent m.channel

section
variable (y : Answer) (p : Path)

@[simp] theorem Answer.leave_halfA : (y.leave p).halfA = y.block.halfA := by cases p <;> simp [Answer.leave, Answer.sent]
@[simp] theorem Answer.leave_halfB : (y.leave p).halfB = y.block.halfB := by cases p <;> simp [Answer.leave, Answer.sent]
@[simp] theorem Answer.leave_flash : (y.leave p).flash = y.block.flash := by cases p <;> simp [Answer.leave, Answer.sent]
@[simp] theorem Answer.leave_zilsy : (y.leave p).zilsy = y.block.zilsy := by cases p <;> simp [Answer.leave, Answer.sent]
@[simp] theorem Answer.leave_byte (c : Nat) : (y.leave p).byte c = y.block.byte c := by cases p <;> simp [Answer.leave, Answer.sent]

theorem Answer.leave_reg (c : Nat) (hc : ¬ mailboxReg c) : (y.leave p).reg c = y.block.reg c := by
  cases p with
  | host => rfl
  | zilsy m => exact Block.reply_reg _ _ _ _ _ c (fun h => hc h.2)

/-- What leaves carries the answer's status. -/
theorem Answer.answers_leave {status : Nat} (h : y.status = status) : Answers (y.leave p) p status := by
  subst h
  cases p with
  | host => trivial
  | zilsy m => exact ⟨y.detail, y.data, by simp [Answer.leave, Answer.sent]⟩
end

/-- Below Zilsy's registers no register is the mailbox's. -/
theorem not_mailboxReg_of_lt {a : Nat} (h : a < zilReg 0) : ¬ mailboxReg a := by
  simp only [mailboxReg, zilReg] at *
  omega

/-- A request that is let in acts on a block that differs in Zilsy's state alone: its nonce is used (R446). -/
theorem Arrives.eq_setZilsy {b x : Block} {p : Path} {roles : List Nat} {a : Actor} (h : Arrives b p roles a x) :
    ∃ z, x = b.setZilsy z := by
  cases p with
  | host => obtain ⟨-, -, -, rfl⟩ := h; exact ⟨x.zilsy, rfl⟩
  | zilsy m => obtain ⟨-, -, -, rfl⟩ := h; exact ⟨_, rfl⟩

theorem Arrives.role_mem {b x : Block} {p : Path} {roles : List Nat} {a : Actor} (h : Arrives b p roles a x) : a.role ∈ roles := by
  cases p with
  | host => obtain ⟨-, hr, rfl, -⟩ := h; exact hr
  | zilsy m => obtain ⟨-, -, hr, -⟩ := h; exact hr

/-- A message that is let in is carried out and answered. -/
theorem Block.command_of_arrives {b x : Block} {m : Envelope} {roles : List Nat} {a : Actor} (h : Arrives b (.zilsy m) roles a x)
    (needed : Nat) (f : Actor → Block → Answer) : b.command m roles needed f = (f a x).sent m.channel := by
  obtain ⟨hears, hv, hr, rfl⟩ := h
  simp [Block.command, hears, hv, hr]

/-- A message that Zilsy takes and does not verify is logged and answered with ST_SIGNATURE. -/
theorem Block.command_unverified {b : Block} {m : Envelope} (hears : b.hears m.channel = true) (hv : b.verify m = none)
    (roles : List Nat) (needed : Nat) (f : Actor → Block → Answer) :
    b.command m roles needed f =
      (b.log { event := 0x0051, kind := 9, status := stSignature, arg0 := 0, arg1 := m.keyId }).reply m.channel stSignature 0 [] := by
  simp [Block.command, hears, hv]

theorem exec_registerWrite_of_arrives {s : State} {p : Path} {addr : Nat} {v : Word} {a : Actor} {x : Block}
    (h : Arrives s.block p [1, 2, 3] a x) (hw : p = .host → s.block.windowReaches addr = true) :
    exec (.registerWrite p addr v) s = .next { s with block := (x.writeReg a addr v).leave p } := by
  cases p with
  | host =>
    obtain ⟨hready, -, rfl, rfl⟩ := h
    simp [exec, execRegisterWrite, State.act, hw rfl, Block.byPath, hready, Answer.leave]
  | zilsy m => simp [exec, execRegisterWrite, State.act, Block.command_of_arrives h, Answer.leave]

theorem exec_write_of_arrives {s : State} {m : Envelope} {addr : Nat} {v : Word} {a : Actor} {x : Block}
    (h : Arrives s.block (.zilsy m) [1, 2, 3] a x) :
    exec (.write m addr v) s = .next { s with block := (x.writeReg a addr v).leave (.zilsy m) } := by
  simp [exec, execWrite, State.act, Block.command_of_arrives h, Answer.leave]

/-! ## READ (R447) -/

section
variable (b : Block) (n : Nat)

@[simp] theorem Block.useNonce_halfA : (b.useNonce n).halfA = b.halfA := rfl
@[simp] theorem Block.useNonce_halfB : (b.useNonce n).halfB = b.halfB := rfl
@[simp] theorem Block.useNonce_mem : (b.useNonce n).mem = b.mem := rfl
@[simp] theorem Block.useNonce_out : (b.useNonce n).out = b.out := rfl
@[simp] theorem Block.useNonce_reg (y : Nat) : (b.useNonce n).reg y = b.reg y := rfl
end

/-- A nonce that has served is no longer live (R446). -/
theorem Block.nonceLive_useNonce (b : Block) (n : Nat) : (b.useNonce n).nonceLive n = false := by
  simp only [Block.nonceLive, Block.useNonce, Block.setZilsy_zilsy, List.any_filter]
  grind

theorem Block.nonceLive_eq {b c : Block} (hz : b.zilsy = c.zilsy) (hs : b.sys = c.sys) (n : Nat) : b.nonceLive n = c.nonceLive n := by
  simp [Block.nonceLive, hz, hs]

theorem exec_read_of_arrives {s : State} {m : Envelope} {addrs : List Nat} {a : Actor} {x : Block}
    (h : Arrives s.block (.zilsy m) [1, 2, 3] a x) :
    exec (.read m addrs) s =
      .next { s with block := x.reply m.channel stOk 0 ((addrs.map (fun y => leBytes 8 (x.readReg y).toNat)).flatten) } := by
  simp only [exec, execRead, State.act, Block.command_of_arrives h, Answer.sent]

/-- Settles O10: a READ that is let in is its answer alone on the block whose nonce is used, and a message that fails only logs. -/
theorem readAnswersRegisters : Obligations.ReadAnswersRegisters := by
  unfold Obligations.ReadAnswersRegisters
  refine ⟨fun s m addrs a x h => ?_, fun s m addrs hears hv => ?_⟩
  · have hread := exec_read_of_arrives (addrs := addrs) h
    obtain ⟨-, -, -, rfl⟩ := h
    refine ⟨_, hread, rfl, by simp, fun y hy => ?_, by simp, by simp, by simp, ?_⟩
    · have hmail : ¬ (m.channel = .mailbox ∧ mailboxReg y) := by
        rintro ⟨hc, hm⟩
        exact hy ⟨hc, by simp only [mailboxReg, zilReg] at *; omega⟩
      simp [Block.reply_reg _ _ _ _ _ y hmail]
    · rw [Block.nonceLive_eq (Block.reply_zilsy _ _ _ _ _) (Block.reply_sys _ _ _ _ _), Block.nonceLive_useNonce]
  · refine ⟨_, rfl, ?_, ?_⟩ <;> simp [Block.command_unverified hears hv]

/-! ## A write by the access codes (R5, R6) -/

@[simp] theorem Block.accept_block (b : Block) : b.accept.block = b := rfl
@[simp] theorem Block.accept_status (b : Block) : b.accept.status = stOk := rfl

/-- A write by a role that holds the right, of a register that no bound slot locks, is its command or, where it has none, stores the
value. -/
theorem Block.writeReg_of_row {b : Block} {a : Actor} {addr : Nat} {v : Word} {r : RegRow}
    (hshape : (offIn addr 0x140000 0x180000 && addr % 4 = 0) = false) (hpower : b.sys.powerGood = true)
    (hrole : a.role ∈ b.writeRoles addr v) (hrow : regRow addr = some r)
    (hslot : r.rw = 0 ∨ ∀ k, slotOnly addr = some k → (b.slot k).st = 0) :
    b.writeReg a addr v = (if (addrOff addr).isSome then b.halfCommand a addr v else b.moduleCommand a addr r v).getD
      (if r.rw = 0 ∧ r.w1c = 0 ∧ r.rwi = 0 then b.accept else b.storeReg a r addr v) := by
  have hopen : ¬ (((slotOnly addr).map (fun k => decide ((b.slot k).st ≠ 0))).getD false = true ∧ r.rw ≠ 0) := by
    rintro ⟨hlocked, hrw⟩
    cases hk : slotOnly addr with
    | none => simp [hk] at hlocked
    | some k => simp [hk, hslot.resolve_left hrw k hk] at hlocked
  simp only [Block.writeReg, hshape, hpower, hrow, hopen, List.contains_iff_mem.mpr hrole, true_or, not_true_eq_false, if_false,
    Bool.false_eq_true]
  cases (if (addrOff addr).isSome then b.halfCommand a addr v else b.moduleCommand a addr r v) <;> rfl

/-- A write of a register without RWI fields stores the value by the access codes, and a job's seed on the other half too. -/
theorem Block.storeReg_plain {b : Block} {a : Actor} {addr : Nat} {v w : Word} {r : RegRow} (hrwi : r.rwi = 0)
    (hv : inRanges r v = true) (hw : b.fitValue addr v = some w) :
    b.storeReg a r addr v = ((seedTwin addr).elim (b.modReg addr (fun old => applyCodes r old w))
      (fun t => (b.modReg addr (fun old => applyCodes r old w)).setReg t w)).accept := by
  simp only [Block.storeReg, hv, hw, hrwi, if_true, ne_eq, not_true_eq_false, if_false]
  cases seedTwin addr <;> rfl

/-- An address lies in a range of offsets of a half. -/
theorem offIn_iff (a lo hi : Nat) : offIn a lo hi = true ↔
    (0x40000000 ≤ a ∧ a < 0x44000000) ∧ lo ≤ (a - 0x40000000) % 0x2000000 ∧ (a - 0x40000000) % 0x2000000 < hi := by
  by_cases h : 0x40000000 ≤ a ∧ a < 0x44000000 <;> simp [offIn, addrOff, h]

theorem regBase_otherHalf_ne (h : HalfId) : regBase (otherHalf h) ≠ regBase h := by
  cases h <;> decide

/-- An address of a half is its base and its offset. -/
theorem eq_regBase_add_offFrom {a lo hi : Nat} (h : offIn a lo hi = true) : a = regBase (addrHalf a) + lo + offFrom a lo := by
  obtain ⟨hctl, hlo, -⟩ := (offIn_iff _ _ _).mp h
  have hhalf : halfNum (addrHalf a) = (a - 0x40000000) / 0x2000000 := by
    unfold addrHalf halfOf
    split <;> simp only [halfNum] <;> omega
  rw [regBase, hhalf, offFrom]
  omega

/-- The other half's copy of a job's seed stands at another address. -/
theorem seedTwin_ne {addr t : Nat} (h : seedTwin addr = some t) : t ≠ addr := by
  obtain ⟨hin, rfl⟩ : offIn addr 0x100600 0x100680 = true ∧ safReg (otherHalf (addrHalf addr)) (offFrom addr 0x100000) = t := by
    simpa [seedTwin] using h
  have haddr := eq_regBase_add_offFrom hin
  have hne := regBase_otherHalf_ne (addrHalf addr)
  obtain ⟨-, hlo, -⟩ := (offIn_iff _ _ _).mp hin
  simp only [safReg, offFrom] at *
  omega

/-- After a plain write its register holds the value by the access codes; all others but the copy of a job's seed are as before. -/
theorem Block.storeReg_plain_reg {b : Block} {a : Actor} {addr : Nat} {v w : Word} {r : RegRow} (hrwi : r.rwi = 0)
    (hv : inRanges r v = true) (hw : b.fitValue addr v = some w) :
    (b.storeReg a r addr v).block.reg addr = applyCodes r (b.reg addr) w ∧
      ∀ c, c ≠ addr → seedTwin addr ≠ some c → (b.storeReg a r addr v).block.reg c = b.reg c := by
  rw [Block.storeReg_plain hrwi hv hw]
  cases ht : seedTwin addr with
  | none => exact ⟨by simp, fun c hc _ => by simp [Block.reg_modReg_other _ _ _ _ hc]⟩
  | some t =>
    refine ⟨?_, fun c hc hct => ?_⟩
    · simp [Block.reg_setReg_other _ _ _ _ (seedTwin_ne ht).symm]
    · simp [Block.reg_setReg_other _ t c _ (fun h => hct (h ▸ rfl)), Block.reg_modReg_other _ _ _ _ hc]

/-- Beside the registers a plain write changes nothing, and it is accepted. -/
theorem Block.storeReg_plain_frame {b : Block} {a : Actor} {addr : Nat} {v w : Word} {r : RegRow} (hrwi : r.rwi = 0)
    (hv : inRanges r v = true) (hw : b.fitValue addr v = some w) :
    (b.storeReg a r addr v).status = stOk ∧ ∃ l, (b.storeReg a r addr v).block = { b with regs := l } := by
  rw [Block.storeReg_plain hrwi hv hw]
  cases seedTwin addr <;> exact ⟨rfl, _, rfl⟩

/-- Settles O8: the write stores the value, and only the answer's mailbox changes beside. -/
theorem plainRegisterWrites : Obligations.PlainRegisterWrites := by
  unfold Obligations.PlainRegisterWrites
  intro s p c addr v w a x r hc harr hpower hwin hrow hsome hrwi hlow hshape hrole hslot hhalf hmodule hv hw
  have hexec : exec c s = .next { s with block := (x.writeReg a addr v).leave p } := by
    obtain rfl | ⟨m, rfl, rfl⟩ := hc
    · exact exec_registerWrite_of_arrives harr hwin
    · exact exec_write_of_arrives harr
  obtain ⟨z, hx⟩ := harr.eq_setZilsy
  have hstore : x.writeReg a addr v = x.storeReg a r addr v := by
    have hcodes : ¬ (r.rw = 0 ∧ r.w1c = 0 ∧ r.rwi = 0) := fun ⟨h1, h2, _⟩ => hsome.elim (· h1) (· h2)
    rw [Block.writeReg_of_row hshape (by simp [hx, hpower]) hrole hrow (.inr hslot), hhalf, hmodule, ite_self, Option.getD_none,
      if_neg hcodes]
  obtain ⟨hreg, hothers⟩ := Block.storeReg_plain_reg (a := a) hrwi hv hw
  obtain ⟨hstatus, l, hblock⟩ := Block.storeReg_plain_frame (a := a) hrwi hv hw
  rw [hstore] at hexec
  refine ⟨_, hexec, rfl, ?_, fun y hy htwin hmail => ?_, fun y => ?_, ?_, ?_, ?_⟩
  · rw [Answer.leave_reg _ _ _ (not_mailboxReg_of_lt hlow), hreg, hx, Block.setZilsy_reg]
  · rw [Answer.leave_reg _ _ _ hmail, hothers y hy htwin, hx, Block.setZilsy_reg]
  · rw [Answer.leave_byte, hblock, hx]; rfl
  · rw [Answer.leave_halfA, hblock, hx]; rfl
  · rw [Answer.leave_halfB, hblock, hx]; rfl
  · exact Answer.answers_leave _ p hstatus

/-! ## Registers of the installer (R6, R207) -/

/-- The registers with RWI fields stand in each half from TIER_ACCT on, below offset 0x1C80020, and none has RW bits (R232, R251, R279,
R305). -/
theorem rwi_rows : ∀ r ∈ regRows, r.rwi ≠ 0 → r.rw = 0 ∧ r.copies = 2 ∧ r.copyStride = 0x2000000 ∧ r.stride = 8 ∧
    0x41C40000 ≤ r.base ∧ r.base + 8 * r.count ≤ 0x41C80020 := by
  decide +kernel

theorem rw_eq_zero_of_rwi {addr : Nat} {r : RegRow} (hrow : regRow addr = some r) (hrwi : r.rwi ≠ 0) : r.rw = 0 :=
  (rwi_rows r (List.mem_of_find?_eq_some hrow) hrwi).1

theorem offIn_of_rwi {addr : Nat} {r : RegRow} (hrow : regRow addr = some r) (hrwi : r.rwi ≠ 0) :
    offIn addr 0x1C40000 0x1C80020 = true := by
  obtain ⟨-, hcopies, hcopy, hstride, hlo, hhi⟩ := rwi_rows r (List.mem_of_find?_eq_some hrow) hrwi
  have hhas := List.find?_some hrow
  simp only [RegRow.has, hcopies, hcopy, hstride, Bool.and_eq_true, decide_eq_true_eq] at hhas
  rw [offIn_iff]
  omega

/-- Ranges of offsets that lie apart share no address. -/
theorem offIn_eq_false_of_apart {addr lo hi lo' hi' : Nat} (h : offIn addr lo hi = true) (hapart : hi' ≤ lo ∨ hi ≤ lo') :
    offIn addr lo' hi' = false := by
  rw [Bool.eq_false_iff, ne_eq, offIn_iff]
  rw [offIn_iff] at h
  omega

section
variable {b : Block} {a : Actor} {addr : Nat} {v : Word} {r : RegRow}

theorem isShape_eq_false_of_rwi (hin : offIn addr 0x1C40000 0x1C80020 = true) :
    (offIn addr 0x140000 0x180000 && addr % 4 = 0) = false := by
  simp [offIn_eq_false_of_apart hin]

/-- TIER_ACCT lets every role through to its command; any other register with RWI fields is the installer's. -/
theorem Block.writeRoles_of_rwi (hrow : regRow addr = some r) (hrwi : r.rwi ≠ 0) :
    b.writeRoles addr v = if isAcct addr then [1, 2, 3] else [2] := by
  have hin := offIn_of_rwi hrow hrwi
  have hdebug : isDebug addr = false := by
    obtain ⟨⟨-, hhi⟩, -⟩ := (offIn_iff _ _ _).mp hin
    have hlow : ¬ mxReg 0 0 ≤ addr := by simp only [mxReg]; omega
    simp [isDebug, hlow]
  have htest : isTest addr = false := by simp [isTest, offIn_eq_false_of_apart hin]
  simp [Block.writeRoles, hdebug, htest, hrow, hrwi]

theorem addrOff_isSome_of_offIn {lo hi : Nat} (h : offIn addr lo hi = true) : (addrOff addr).isSome = true := by
  obtain ⟨hctl, -⟩ := (offIn_iff _ _ _).mp h
  simp [addrOff, hctl]

/-- A write of TIER_ACCT is ignored and logged with ST_PERMISSION, whoever makes it (R207). -/
theorem Block.halfCommand_acct (h : isAcct addr = true) : b.halfCommand a addr v = some (b.ignoreWrite a addr v true) := by
  have hin : offIn addr 0x1C40000 0x1C40008 = true := h
  simp (disch := omega) [Block.halfCommand, h, offIn_eq_false_of_apart hin]

/-- An answer that is one log record with ST_PERMISSION, and the status that goes with it. -/
def Answer.IsRefusal (y : Answer) (b : Block) : Prop :=
  y.status = stPermission ∧ ∃ e : Event, e.status = stPermission ∧ y.block = b.log e

/-- A write of a register with RWI fields by another role than the installer's is refused (R6). -/
theorem Block.writeReg_rwi_refused (hpower : b.sys.powerGood = true) (hrow : regRow addr = some r) (hrwi : r.rwi ≠ 0)
    (hknown : a.role ∈ [1, 2, 3]) (hrole : a.role ≠ 2) : (b.writeReg a addr v).IsRefusal b := by
  have hin := offIn_of_rwi hrow hrwi
  have hshape := isShape_eq_false_of_rwi hin
  have hroles := b.writeRoles_of_rwi (v := v) hrow hrwi
  cases hacct : isAcct addr with
  | true =>
    rw [Block.writeReg_of_row hshape hpower (by simpa [hroles, hacct] using hknown) hrow (.inl (rw_eq_zero_of_rwi hrow hrwi)),
      if_pos (addrOff_isSome_of_offIn hin), Block.halfCommand_acct hacct]
    exact ⟨rfl, _, rfl, rfl⟩
  | false =>
    have hrefuse : b.writeReg a addr v = b.refuseRole 2 a.keyId := by
      simp [Block.writeReg, hshape, hpower, hroles, hacct, hrole, neededRole]
    rw [hrefuse]
    exact ⟨rfl, { event := 0x0050, kind := 9, status := stPermission, arg0 := 2, arg1 := a.keyId }, rfl, rfl⟩

/-- A write of the installer that acts on nothing else is stored. -/
theorem Block.writeReg_rwi_stored (hpower : b.sys.powerGood = true) (hrow : regRow addr = some r) (hrwi : r.rwi ≠ 0)
    (hrole : a.role = 2) (hhalf : b.halfCommand a addr v = none) : b.writeReg a addr v = b.storeReg a r addr v := by
  have hin := offIn_of_rwi hrow hrwi
  have hright : a.role ∈ b.writeRoles addr v := by
    rw [Block.writeRoles_of_rwi hrow hrwi, hrole]
    split <;> simp
  rw [Block.writeReg_of_row (isShape_eq_false_of_rwi hin) hpower hright hrow (.inl (rw_eq_zero_of_rwi hrow hrwi)),
    if_pos (addrOff_isSome_of_offIn hin), hhalf, Option.getD_none, if_neg (fun h => hrwi h.2.2)]
end

/-! ## Audited changes (R442) -/

@[simp] theorem Block.appendAudit_reg (b : Block) (a : Actor) (c : Change) (recovered : Bool) (y : Nat) :
    (b.appendAudit a c recovered).reg y = b.reg y := rfl

@[simp] theorem Block.appendAudit_audit_length (b : Block) (a : Actor) (c : Change) (recovered : Bool) :
    (b.appendAudit a c recovered).flash.audit.length = b.flash.audit.length + 1 := by
  simp [Block.appendAudit]

/-- With room in the audit area a change is made after its record. -/
theorem Block.auditedAnswer_of_room {b : Block} (hroom : b.flash.audit.length < 64512) (a : Actor) (c : Change) (f : Block → Block) :
    b.auditedAnswer a c f = (f (b.appendAudit a c)).accept := by
  simp [Block.auditedAnswer, Block.audited, Flash.auditAnswer, hroom, Block.accept]

/-- With room in the audit area a value of an installer's register is stored after its record (R441, KIND 0x01). -/
theorem Block.storeReg_rwi {b : Block} {a : Actor} {addr : Nat} {v w : Word} {r : RegRow} (hrwi : r.rwi ≠ 0)
    (hv : inRanges r v = true) (hw : b.fitValue addr v = some w) (hroom : b.flash.audit.length < 64512) :
    b.storeReg a r addr v =
      ((b.appendAudit a { kind := 0x01, target := addr, old := (b.reg addr).toNat, new := v.toNat }).modReg addr
        (fun old => applyCodes r old w)).accept := by
  simp only [Block.storeReg, hv, hw, hrwi, if_true, ne_eq, not_false_eq_true]
  exact Block.auditedAnswer_of_room hroom _ _ _

/-- Settles O9: another role's write is its refusal's log record alone; the installer's is stored after its audit record. -/
theorem installerFieldsRefuseOthers : Obligations.InstallerFieldsRefuseOthers := by
  unfold Obligations.InstallerFieldsRefuseOthers
  refine ⟨fun s p addr v a x r harr hpower hwin hrow hrwi hrole => ?_,
    fun s m addr v w a x r harr hpower hrow hrwi hrole hhalf hv hw hroom => ?_⟩
  · obtain ⟨z, rfl⟩ := harr.eq_setZilsy
    obtain ⟨hstatus, e, he, hblock⟩ :=
      Block.writeReg_rwi_refused (b := s.block.setZilsy z) (v := v) hpower hrow hrwi harr.role_mem hrole
    refine ⟨_, exec_registerWrite_of_arrives harr hwin, rfl, fun y hy => ?_, fun y => ?_, ⟨e, he, ?_, ?_⟩, ?_⟩
    · simp [Answer.leave_reg _ _ _ hy, hblock]
    · simp [hblock]
    · simp [hblock]
    · simp [hblock]
    · exact Answer.answers_leave _ p hstatus
  · obtain ⟨z, rfl⟩ := harr.eq_setZilsy
    have hanswer := (Block.writeReg_rwi_stored (b := s.block.setZilsy z) hpower hrow hrwi hrole hhalf).trans
      (Block.storeReg_rwi hrwi hv hw hroom)
    have hmail : ¬ mailboxReg addr := by
      obtain ⟨⟨-, hhi⟩, -⟩ := (offIn_iff _ _ _).mp (offIn_of_rwi hrow hrwi)
      exact not_mailboxReg_of_lt (by simp only [zilReg]; omega)
    refine ⟨_, exec_registerWrite_of_arrives harr (fun h => nomatch h), ?_, ?_, ?_⟩
    · simp [Answer.leave_reg _ _ _ hmail, hanswer]
    · simp [hanswer]
    · exact Answer.answers_leave _ (.zilsy m) (congrArg Answer.status hanswer)

end Sys2Proof.Machine

/-! PROOFS. Two halves (spec/01_two_halves_two_hierarchies.md): the numbers that the straps give (R12), job slots and functions (R40, R41,
R50-R55), and a response that returns its tag (R15, R216, R224). From these the three statements of this family. -/

namespace Sys2Proof.Machine

/-! ## Straps and numbers (R12, R471) -/

theorem majority_self (x : Nat) : majority x x x = x := by
  simp [majority]

/-- ZIL_STRAPS latches the module number, tray × 4 + slot, in bits 63:51 (R488). -/
theorem bits_strapsWord {tray slot : Nat} (htray : tray < 2048) (hslot : slot < 4) : bits (strapsWord tray slot) 63 51 = tray * 4 + slot := by
  have hdiv : strapsWord tray slot / 2 ^ 51 = tray * 4 + slot := by
    simp only [strapsWord]
    omega
  rw [bits, Nat.shiftRight_eq_div_pow, hdiv]
  exact Nat.mod_eq_of_lt (by omega)

/-- A vector that is raised writes no register above the pending bits (R408). -/
theorem Block.raise_reg_of_gt (b : Block) {vec c : Nat} (hvec : vec < 256) (hc : pciReg 0x4000 ≤ c) : (b.raise vec).reg c = b.reg c := by
  have hne : c ≠ pciReg (0x3000 + 8 * (vec / 64)) := by simp only [pciReg] at *; omega
  rw [Block.raise]
  split
  · exact Block.reg_modReg_other _ _ _ _ hne
  · exact b.emit_reg _ c

theorem Block.moduleEvent_reg_of_gt (b : Block) (i : Nat) {c : Nat} (hc : pciReg 0x4000 ≤ c) : (b.moduleEvent i).reg c = b.reg c := by
  have hne : c ≠ pciReg 0x28 := by simp only [pciReg] at *; omega
  have hvec (w : Block) : w.regFld (pciReg 0x28) 55 48 < 256 := bits_lt _ 55 48
  rw [Block.moduleEvent, Block.raise_reg_of_gt _ (hvec b) hc, Block.reg_modReg_other _ _ _ _ hne]

/-- A new phase writes PCI registers alone (R420). -/
theorem Block.setPhase_reg_of_gt (b : Block) (code detail : Nat) {c : Nat} (hc : pciReg 0x4000 ≤ c) : (b.setPhase code detail).reg c = b.reg c := by
  have hne : c ≠ pciReg 0 := by simp only [pciReg] at *; omega
  simp only [Block.setPhase]
  split
  · exact Block.reg_setReg_other _ _ _ _ hne
  · rw [Block.moduleEvent_reg_of_gt _ _ hc, Block.reg_setReg_other _ _ _ _ hne]

/-- The start begins with the straps latched (R484). -/
theorem Block.startUp_straps (b : Block) (straps upNs : Nat) : (b.startUp straps upNs).reg (zilReg 0x40) = BitVec.ofNat 64 straps := by
  rw [Block.startUp, Block.enterStep, Block.setPhase_reg_of_gt _ _ _ (by decide), Block.setSys_reg,
    Block.reg_setReg_other _ _ _ _ (by decide), Block.reg_setReg_same]

/-- The module number is the straps' (R12). -/
theorem Block.startUp_moduleNo (b : Block) (straps upNs : Nat) : (b.startUp straps upNs).moduleNo = bits straps 63 51 := by
  rw [Block.moduleNo, Block.regFld, Block.startUp_straps, fld_ofNat _ _ _ (by decide)]

theorem halfNum_le_one (h : HalfId) : halfNum h ≤ 1 := by cases h <;> decide

theorem exec_powerGood_of_supplied {s : State} (s0 s1 s2 : StrapSample) (hvin : s.block.sys.vin = true)
    (hgood : s.block.sys.powerGood = false) (hstandby : s.block.sys.standby = false) :
    exec (.powerGood s0 s1 s2) s = .next { s with
      block := s.block.startUp
        (strapsWord (majority s0.tray.val s1.tray.val s2.tray.val) (majority s0.slot.val s1.slot.val s2.slot.val)) 0 } := by
  simp [exec, execPowerGood, State.act, hvin, hgood, hstandby]

/-- Settles O5: the latched straps are the module number, and the bounds are those of 13 strap bits. -/
theorem endpointNumbersFollowStraps : Obligations.EndpointNumbersFollowStraps := by
  unfold Obligations.EndpointNumbersFollowStraps
  intro s p hvin hgood hstandby
  have htray := p.tray.isLt
  have hslot := p.slot.isLt
  have hexec := exec_powerGood_of_supplied p p p hvin hgood hstandby
  simp only [majority_self] at hexec
  have hmodule := s.block.startUp_moduleNo (strapsWord p.tray.val p.slot.val) 0
  rw [bits_strapsWord htray hslot] at hmodule
  refine ⟨_, hexec, rfl, hmodule, hmodule.trans_le (by omega), fun h => ?_⟩
  have hhalf := halfNum_le_one h
  have hendpoint : (s.block.startUp (strapsWord p.tray.val p.slot.val) 0).endpoint h = (p.tray.val * 4 + p.slot.val) * 2 + halfNum h := by
    rw [← hmodule]; rfl
  rw [hendpoint, hmodule]
  exact ⟨rfl, by omega, by simp only [bits, Nat.shiftRight_eq_div_pow]; omega⟩

/-! ## The tables of tasks, functions and slots

Most operations leave alone the live graphs of both halves, their function tables and the job slots; for those one equation says so. -/

/-- Each half's live graphs and function table, and the job slots. -/
structure Tables where
  graphs : HalfId → Tab Graph
  funcs : HalfId → Tab FuncState
  slots : List JobSlot

/-- The tables of a block. -/
def Block.tables (b : Block) : Tables :=
  { graphs := fun h => (b.half h).graphs, funcs := fun h => (b.half h).funcs, slots := b.slots }

section
variable {b c : Block}

theorem Block.graph_eq_of_tables (h : b.tables = c.tables) (g : HalfId) (i : Nat) : b.graph g i = c.graph g i :=
  congrArg (fun x : Tables => tabFind (x.graphs g) i) h

theorem Block.task_eq_of_tables (h : b.tables = c.tables) (t : TaskRef) : b.task t = c.task t := by
  rw [Block.task, Block.task, Block.graph_eq_of_tables h]

theorem Block.slot_eq_of_tables (h : b.tables = c.tables) (k : Nat) : b.slot k = c.slot k :=
  congrArg (fun x : Tables => x.slots.getD k JobSlot.reset) h

theorem Block.funcs_eq_of_tables (h : b.tables = c.tables) (g : HalfId) : (b.half g).funcs = (c.half g).funcs :=
  congrArg (fun x : Tables => x.funcs g) h

theorem Block.func_eq_of_tables (h : b.tables = c.tables) (f : FuncId) : b.func f = c.func f := by
  cases f <;> simp only [Block.func, Block.slot_eq_of_tables h, Block.funcs_eq_of_tables h]

/-- The halves and the slots hold the tables. -/
theorem Block.tables_eq (hA : b.halfA = c.halfA) (hB : b.halfB = c.halfB) (hs : b.slots = c.slots) : b.tables = c.tables := by
  simp only [Block.tables, Block.half_eq hA hB, hs]
end

/-- A change of a half that keeps its graphs and functions. -/
theorem Block.modHalf_tables (b : Block) (h : HalfId) (f : Half → Half) (hg : ∀ x, (f x).graphs = x.graphs) (hf : ∀ x, (f x).funcs = x.funcs) :
    (b.modHalf h f).tables = b.tables := by
  have hhalf (g : HalfId) : ((b.modHalf h f).half g).graphs = (b.half g).graphs ∧ ((b.modHalf h f).half g).funcs = (b.half g).funcs := by
    by_cases hgh : g = h
    · subst hgh; simp [hg, hf]
    · simp [Block.half_modHalf_other _ _ _ _ hgh]
  simp only [Block.tables, hhalf, Block.modHalf_slots]

theorem Block.tables_ite {x y z : Block} (p : Prop) [Decidable p] (hx : x.tables = z.tables) (hy : y.tables = z.tables) :
    (if p then x else y).tables = z.tables := by
  split
  · exact hx
  · exact hy

theorem Block.tables_foldl {α : Type} (f : Block → α → Block) (hf : ∀ b x, (f b x).tables = b.tables) (l : List α) (b : Block) :
    (l.foldl f b).tables = b.tables := by
  induction l generalizing b with
  | nil => rfl
  | cons x xs ih => rw [List.foldl_cons, ih, hf]

section
variable (b : Block) (h : HalfId)

@[simp] theorem Block.setReg_tables (a : Nat) (v : Word) : (b.setReg a v).tables = b.tables := Block.tables_eq (by simp) (by simp) (by simp)
@[simp] theorem Block.modReg_tables (a : Nat) (f : Word → Word) : (b.modReg a f).tables = b.tables := b.setReg_tables a _
@[simp] theorem Block.count_tables (a hi lo n : Nat) : (b.count a hi lo n).tables = b.tables := b.modReg_tables a _
@[simp] theorem Block.setSys_tables (x : Sys) : (b.setSys x).tables = b.tables := Block.tables_eq (by simp) (by simp) (by simp)
@[simp] theorem Block.setZilsy_tables (x : Zilsy) : (b.setZilsy x).tables = b.tables := Block.tables_eq (by simp) (by simp) (by simp)
@[simp] theorem Block.setDomain_tables (x : Domain) : (b.setDomain x).tables = b.tables := Block.tables_eq (by simp) (by simp) (by simp)
@[simp] theorem Block.setFlash_tables (x : Flash) : (b.setFlash x).tables = b.tables := Block.tables_eq (by simp) (by simp) (by simp)
@[simp] theorem Block.emit_tables (o : Out) : (b.emit o).tables = b.tables := Block.tables_eq (by simp) (by simp) (by simp)
@[simp] theorem Block.log_tables (e : Event) : (b.log e).tables = b.tables := Block.tables_eq (by simp) (by simp) (by simp)
@[simp] theorem Block.appendAudit_tables (a : Actor) (c : Change) (r : Bool) : (b.appendAudit a c r).tables = b.tables := b.setFlash_tables _
@[simp] theorem Block.idleCheck_tables : b.idleCheck.tables = b.tables := b.setSys_tables _
@[simp] theorem Block.watchPorts_tables : b.watchPorts.tables = b.tables := b.setSys_tables _
@[simp] theorem Block.control_tables (x kind cls n lstate : Nat) : (b.control h x kind cls n lstate).tables = b.tables := b.emit_tables _
@[simp] theorem Block.funcLog_tables (f : FuncId) (event arg1 : Nat) : (b.funcLog f event arg1).tables = b.tables := b.log_tables _
@[simp] theorem Block.logAborted_tables (detail : Nat) (t : TaskRef) : (b.logAborted detail t).tables = b.tables := b.log_tables _

@[simp] theorem Block.modTiers_tables (f : Tiers → Tiers) : (b.modTiers h f).tables = b.tables :=
  b.modHalf_tables h _ (fun _ => rfl) (fun _ => rfl)

@[simp] theorem Block.modPort_tables (x : Nat) (f : Port → Port) : (b.modPort h x f).tables = b.tables :=
  b.modHalf_tables h _ (fun _ => rfl) (fun _ => rfl)

@[simp] theorem Block.modCore_tables (n : Nat) (f : CoreEngines → CoreEngines) : (b.modCore n f).tables = b.tables :=
  b.modHalf_tables _ _ (fun _ => rfl) (fun _ => rfl)

@[simp] theorem Block.setStream_tables (i : Nat) (x : StreamCtx) : (b.setStream h i x).tables = b.tables :=
  b.modHalf_tables h _ (fun _ => rfl) (fun _ => rfl)

@[simp] theorem Block.makePacket_tables (dest job cls op tag w2 block : Nat) (payload : List Byte) :
    (b.makePacket h dest job cls op tag w2 block payload).2.tables = b.tables :=
  b.modHalf_tables h _ (fun _ => rfl) (fun _ => rfl)

/-! ### Links -/

@[simp] theorem Block.linkSend_tables (x : Nat) (p : Packet) : (b.linkSend h x p).tables = b.tables := by
  simp only [Block.linkSend]
  split <;> simp

@[simp] theorem Block.sendBy_tables (x : Nat) (p : Packet) : (b.sendBy h x p).tables = b.tables := by
  rw [Block.sendBy]
  split <;> simp

@[simp] theorem Block.routeOut_tables (p : Packet) : (b.routeOut h p).tables = b.tables := by
  rw [Block.routeOut]
  split
  · exact b.modHalf_tables h _ (fun _ => rfl) (fun _ => rfl)
  · split <;> simp

@[simp] theorem Block.send_tables (dest job cls op tag w2 block : Nat) (payload : List Byte) :
    (b.send h dest job cls op tag w2 block payload).tables = b.tables := by
  simp [Block.send]

@[simp] theorem Block.tellLeader_tables (op : Nat) (payload : List Byte) : (b.tellLeader h op payload).tables = b.tables := by
  rw [Block.tellLeader]
  split
  · exact b.send_tables h _ _ _ _ _ _ _ _
  · rfl

@[simp] theorem Block.holdDest_tables (old : Block) (again : Bool) (dest : Nat) : (b.holdDest old h again dest).tables = b.tables := by
  exact Block.tables_ite _ (b.modHalf_tables h _ (fun _ => rfl) (fun _ => rfl)) rfl

theorem Block.holdDests_tables (old : Block) (again : Bool) (l : List Nat) : (b.holdDests old h again l).tables = b.tables := by
  induction l generalizing b with
  | nil => rfl
  | cons d ds ih => rw [Block.holdDests, ih, Block.holdDest_tables]

@[simp] theorem Block.rerouted_tables (old : Block) (again : Bool) : (b.rerouted old h again).tables = b.tables :=
  b.holdDests_tables h old again _

@[simp] theorem Block.countPort_tables (x hi lo n : Nat) : (b.countPort h x hi lo n).tables = b.tables := by
  rw [Block.countPort]
  split <;> simp

@[simp] theorem Block.flushPort_tables (x : Nat) : (b.flushPort h x).tables = b.tables := by
  simp [Block.flushPort]

@[simp] theorem Block.enablePort_tables (x : Nat) : (b.enablePort h x).tables = b.tables := b.modPort_tables h x _

@[simp] theorem Block.closePort_tables (x : Nat) : (b.closePort h x).tables = b.tables := by
  simp [Block.closePort, Block.dropLink]

@[simp] theorem Block.ackAborts_tables (k : Nat) : (b.ackAborts k).tables = b.tables := by
  rw [Block.ackAborts]
  refine (Block.tables_foldl _ (fun x r => ?_) _ _).trans (b.setDomain_tables _)
  exact x.tellLeader_tables r.2.1 _ _

/-! ### Cache objects and their frames -/

@[simp] theorem Block.freeFrames_tables (l : List Nat) : (b.freeFrames l).tables = b.tables := by
  induction l generalizing b with
  | nil => rfl
  | cons f fs ih => rw [Block.freeFrames, ih, Block.freeFrame, Block.modTiers_tables]

@[simp] theorem Block.modObject_tables (i : Nat) (f : CacheObject → CacheObject) : (b.modObject i f).tables = b.tables := by
  rw [Block.modObject]
  split <;> simp

@[simp] theorem Block.freeObject_tables (i : Nat) : (b.freeObject i).tables = b.tables := by
  rw [Block.freeObject]
  split <;> simp

@[simp] theorem Block.reapObjects_tables (l : List Nat) : (b.reapObjects l).tables = b.tables := by
  induction l generalizing b with
  | nil => rfl
  | cons i is ih =>
    have hone : (b.reapObject i).tables = b.tables := by
      rw [Block.reapObject]
      split
      · rfl
      · split <;> simp
    rw [Block.reapObjects, ih, hone]

@[simp] theorem Block.dropRefs_tables (t : TaskRef) : (b.dropRefs t).tables = b.tables := by
  rw [Block.dropRefs, Block.reapObjects_tables]
  exact Block.tables_foldl _ (fun x i => x.modObject_tables i _) _ b

/-! ### Far requests -/

/-- A request to another endpoint or to the host takes a tag and leaves. -/
theorem Block.launch_tables_of_far (tag : Nat) (r : Request) (hfar : (∃ e, r.dest = .endpoint e) ∨ r.dest = .mainland) :
    (b.launch h tag r).tables = b.tables := by
  obtain ⟨e, he⟩ | he := hfar <;> simp [Block.launch, he, Block.holdTag]

theorem farDest_cases (a : Nat) : (∃ e, farDest a = .endpoint e) ∨ farDest a = .mainland := by
  rw [farDest]
  split
  · exact .inl ⟨_, rfl⟩
  · exact .inr rfl

theorem Block.grant_tables_of_far (r : Request) (hfar : (∃ e, r.dest = .endpoint e) ∨ r.dest = .mainland) :
    (b.grant h r).tables = b.tables := by
  simp only [Block.grant]
  split
  · simp [Block.await]
  · split
    · simp [Block.await]
    · split
      · exact b.launch_tables_of_far h _ r hfar
      · simp [Block.await]

@[simp] theorem Block.abortPublication_tables (job : Nat) (d : TaskDesc) : (b.abortPublication h job d).tables = b.tables := by
  rw [Block.abortPublication]
  split
  · exact b.modTiers_tables h _
  · split
    · exact b.grant_tables_of_far h _ (farDest_cases _)
    · rfl

/-! ### Arrays and contexts -/

@[simp] theorem Block.unhalt_tables (n : Nat) : (b.unhalt n).tables = b.tables := by
  simp only [Block.unhalt]
  split
  · rw [Block.tables_foldl _ (fun x q => x.setReg_tables _ _)]
    simp
  · simp

@[simp] theorem Block.freeArrays_tables (ts : List TaskRef) : (b.freeArrays ts).tables = b.tables :=
  Block.tables_foldl _ (fun x n => x.unhalt_tables n) _ b

@[simp] theorem Block.freshContext_tables (t : TaskRef) : (b.freshContext t).tables = b.tables := by
  rw [Block.freshContext]
  split
  · rfl
  · split
    · rw [Block.modStream]
      split <;> simp
    · rfl
end

/-! ## A task's status (R46, R47) -/

/-- A task's status may still be fixed. -/
def TaskPhase.Open (p : TaskPhase) : Prop := p = .waiting ∨ p = .ready ∨ p = .running

/-- A task that has ended with a status, or can still end with it. -/
def Heads (b : Block) (t : TaskRef) (status : Nat) : Prop :=
  ∃ c, b.task t = some c ∧ (c.phase.Open ∨ c.phase = .ended ∧ c.status = status)

theorem Ended.of_tables {b c : Block} {t : TaskRef} {status : Nat} (h : Ended b t status) (hbc : c.tables = b.tables) : Ended c t status := by
  obtain ⟨x, hx, hend⟩ := h
  exact ⟨x, by rw [Block.task_eq_of_tables hbc, hx], hend⟩

theorem Heads.of_tables {b c : Block} {t : TaskRef} {status : Nat} (h : Heads b t status) (hbc : c.tables = b.tables) : Heads c t status := by
  obtain ⟨x, hx, hend⟩ := h
  exact ⟨x, by rw [Block.task_eq_of_tables hbc, hx], hend⟩

theorem getElem?_listMod {α : Type} (l : List α) (i j : Nat) (f : α → α) : (listMod l i f)[j]? = if j = i then l[j]?.map f else l[j]? := by
  induction l generalizing i j with
  | nil => simp [listMod]
  | cons x xs ih => cases i <;> cases j <;> simp [listMod, ih]

/-- A context that is changed reads as changed, and every other as before. -/
theorem Block.task_modTask (b : Block) (t u : TaskRef) (f : TaskCtx → TaskCtx) :
    (b.modTask t f).task u = if u = t then (b.task u).map f else b.task u := by
  cases hg : b.graph t.half t.graph with
  | none =>
    have hsame : b.modTask t f = b := by simp [Block.modTask, Block.modGraph, hg]
    rw [hsame]
    split
    · next hut => simp [hut, Block.task, hg]
    · rfl
  | some g =>
    have hgraph (k : HalfId) (i : Nat) : (b.modTask t f).graph k i =
        if k = t.half ∧ i = t.graph then some { g with tasks := listMod g.tasks t.task f } else b.graph k i := by
      simp only [Block.modTask, Block.modGraph, hg]
      by_cases hk : k = t.half
      · subst hk
        by_cases hi : i = t.graph
        · simp [Block.graph, hi]
        · simp [Block.graph, hi, tabFind_tabPut_other _ _ _ _ hi]
      · simp [Block.graph, hk, Block.half_modHalf_other _ _ _ _ hk]
    obtain ⟨uh, ug, ut⟩ := u
    obtain ⟨th, tg, tt⟩ := t
    simp only [Block.task, hgraph, TaskRef.mk.injEq] at hg ⊢
    by_cases hsame : uh = th ∧ ug = tg
    · obtain ⟨rfl, rfl⟩ := hsame
      simp [getElem?_listMod, hg]
    · have hne : ¬ (uh = th ∧ ug = tg ∧ ut = tt) := fun h => hsame ⟨h.1, h.2.1⟩
      simp [hsame, hne]

/-- Fixing a status changes the context of a task whose status is open, and no other table. -/
theorem Block.fix_tables (b : Block) (t : TaskRef) (status detail : Nat) :
    (b.fix t status detail).tables = b.tables ∧ (∀ c, b.task t = some c → ¬ c.phase.Open) ∨
      ∃ c f, b.task t = some c ∧ c.phase.Open ∧ (f c).phase = .ended ∧ (f c).status = status ∧
        (b.fix t status detail).tables = (b.modTask t f).tables := by
  cases hc : b.task t with
  | none => exact .inl ⟨by simp only [Block.fix, hc]; split <;> simp_all, fun c h => nomatch h⟩
  | some c =>
    obtain ⟨g, hg⟩ : ∃ g, b.graph t.half t.graph = some g := by
      cases hg : b.graph t.half t.graph with
      | none => simp [Block.task, hg] at hc
      | some g => exact ⟨g, rfl⟩
    by_cases hopen : c.phase.Open
    · refine .inr ⟨c, fun c => { c with phase := .ended, status := status, detail := detail % 2 ^ 32, endTide := b.tide t.half },
        rfl, hopen, rfl, rfl, ?_⟩
      have hopen' : c.phase = .waiting ∨ c.phase = .ready ∨ c.phase = .running := hopen
      simp only [Block.fix, hg, hc, hopen', if_true]
      split <;> simp
    · have hopen' : ¬ (c.phase = .waiting ∨ c.phase = .ready ∨ c.phase = .running) := hopen
      refine .inl ⟨by simp only [Block.fix, hg, hc, hopen', if_false], ?_⟩
      rintro d ⟨⟩
      exact hopen

/-- A task that heads for a status ends with it when that status is fixed. -/
theorem Heads.fix {b : Block} {t : TaskRef} {status : Nat} (h : Heads b t status) (detail : Nat) : Ended (b.fix t status detail) t status := by
  obtain ⟨c, hc, hphase⟩ := h
  obtain ⟨hsame, hclosed⟩ | ⟨d, f, hd, -, hend, hstatus, htables⟩ := b.fix_tables t status detail
  · exact Ended.of_tables ⟨c, hc, hphase.resolve_left (hclosed c hc)⟩ hsame
  · exact Ended.of_tables ⟨f d, by simp [Block.task_modTask, hd], hend, hstatus⟩ htables

/-- A task that has ended stays so, whatever is fixed next. -/
theorem Ended.fix {b : Block} {u : TaskRef} {status : Nat} (h : Ended b u status) (t : TaskRef) (status' detail : Nat) :
    Ended (b.fix t status' detail) u status := by
  obtain ⟨c, hc, hphase, hstatus⟩ := h
  obtain ⟨hsame, -⟩ | ⟨d, f, hd, hopen, -, -, htables⟩ := b.fix_tables t status' detail
  · exact Ended.of_tables ⟨c, hc, hphase, hstatus⟩ hsame
  · have hut : u ≠ t := by
      rintro rfl
      rw [hc, Option.some.injEq] at hd
      subst hd
      simp [TaskPhase.Open, hphase] at hopen
    exact Ended.of_tables ⟨c, by simp [Block.task_modTask, hut, hc], hphase, hstatus⟩ htables

theorem Ended.heads {b : Block} {t : TaskRef} {status : Nat} (h : Ended b t status) : Heads b t status := by
  obtain ⟨c, hc, hend⟩ := h
  exact ⟨c, hc, .inr hend⟩

/-- A task heads for a status still when another task takes that status. -/
theorem Heads.fix_other {b : Block} {u : TaskRef} {status : Nat} (h : Heads b u status) (t : TaskRef) (detail : Nat) :
    Heads (b.fix t status detail) u status := by
  by_cases hut : u = t
  · subst hut
    exact (h.fix detail).heads
  · obtain ⟨c, hc, hphase⟩ := h
    obtain ⟨hsame, -⟩ | ⟨d, f, -, -, -, -, htables⟩ := b.fix_tables t status detail
    · exact Heads.of_tables ⟨c, hc, hphase⟩ hsame
    · exact Heads.of_tables ⟨c, by simp [Block.task_modTask, hut, hc], hphase⟩ htables

section
variable {b : Block} {u : TaskRef} {status : Nat}

theorem Ended.fixAll (h : Ended b u status) (status' detail : Nat) (ts : List TaskRef) : Ended (b.fixAll status' detail ts) u status := by
  induction ts generalizing b with
  | nil => exact h
  | cons t ts ih => exact ih (h.fix t status' detail)

theorem Heads.fixAll (h : Heads b u status) (detail : Nat) (ts : List TaskRef) : Heads (b.fixAll status detail ts) u status := by
  induction ts generalizing b with
  | nil => exact h
  | cons t ts ih => exact ih (h.fix_other t detail)

/-- A task that fails has its status fixed; of the other tasks those that share its fill end as it does (R215). -/
theorem Block.fail_tables (b : Block) (t : TaskRef) (status detail : Nat) :
    ∃ ts, (b.fail t status detail).tables = ((b.fix t status detail).fixAll status detail ts).tables := by
  cases hg : b.graph t.half t.graph with
  | none => exact ⟨[], by simp [Block.fail, Block.fix, hg, Block.fixAll]⟩
  | some g =>
    cases hc : b.task t with
    | none => exact ⟨[], by simp [Block.fail, Block.fix, hg, hc, Block.fixAll]⟩
    | some c =>
      simp only [Block.fail, hg, hc]
      split
      · exact ⟨[], rfl⟩
      · split
        · exact ⟨[], by simp [Block.fixAll]⟩
        · split
          · split
            · exact ⟨[], rfl⟩
            · next i is _ =>
              split
              · exact ⟨(b.fix t status detail).fillTasks i, by simp⟩
              · exact ⟨[], rfl⟩
          · exact ⟨[], rfl⟩

theorem Heads.fail {t : TaskRef} (h : Heads b t status) (detail : Nat) : Ended (b.fail t status detail) t status := by
  obtain ⟨ts, hts⟩ := b.fail_tables t status detail
  exact Ended.of_tables ((h.fix detail).fixAll status detail ts) hts

theorem Ended.fail (h : Ended b u status) (t : TaskRef) (status' detail : Nat) : Ended (b.fail t status' detail) u status := by
  obtain ⟨ts, hts⟩ := b.fail_tables t status' detail
  exact Ended.of_tables ((h.fix t status' detail).fixAll status' detail ts) hts

theorem Heads.fail_other (h : Heads b u status) (t : TaskRef) (detail : Nat) : Heads (b.fail t status detail) u status := by
  obtain ⟨ts, hts⟩ := b.fail_tables t status detail
  exact Heads.of_tables ((h.fix_other t detail).fixAll detail ts) hts

theorem Ended.abortAll (h : Ended b u status) (detail : Nat) (ts : List TaskRef) : Ended (b.abortAll detail ts) u status := by
  induction ts generalizing b with
  | nil => exact h
  | cons t ts ih => exact ih ((h.of_tables (b.freshContext_tables t)).fail t stAborted detail)

/-- Of the tasks that a disable aborts each that can still end has ended with ST_ABORTED_DISABLE (R50). -/
theorem Heads.abortAll {ts : List TaskRef} (h : Heads b u stAborted) (hu : u ∈ ts) (detail : Nat) : Ended (b.abortAll detail ts) u stAborted := by
  induction ts generalizing b with
  | nil => cases hu
  | cons t ts ih =>
    have hfresh := h.of_tables (b.freshContext_tables t)
    by_cases hut : u = t
    · subst hut
      exact (hfresh.fail detail).abortAll detail ts
    · exact ih (hfresh.fail_other t detail) ((List.mem_cons.mp hu).resolve_left hut)
end

/-! ## A request by its path, and what leaves -/

/-- A request that is let in is carried out, and its answer leaves by its path (R402, R446). -/
theorem Block.byPath_of_arrives {b x : Block} {p : Path} {roles : List Nat} {a : Actor} (h : Arrives b p roles a x) (needed : Nat)
    (f : Actor → Block → Answer) : b.byPath p roles needed f = (f a x).leave p := by
  cases p with
  | host =>
    obtain ⟨hready, hrole, rfl, rfl⟩ := h
    simp [Block.byPath, hready, hrole, Answer.leave]
  | zilsy m => simp [Block.byPath, Block.command_of_arrives h, Answer.leave]

@[simp] theorem Block.reply_tables (b : Block) (c : Channel) (status detail : Nat) (data : List Byte) :
    (b.reply c status detail data).tables = b.tables := by
  rw [Block.reply_eq]
  exact Block.tables_eq rfl rfl rfl

@[simp] theorem Answer.leave_tables (y : Answer) (p : Path) : (y.leave p).tables = y.block.tables := by
  cases p <;> simp [Answer.leave, Answer.sent]

@[simp] theorem Answer.leave_mem (y : Answer) (p : Path) : (y.leave p).mem = y.block.mem := by
  cases p <;> simp [Answer.leave, Answer.sent]

@[simp] theorem Answer.leave_slot (y : Answer) (p : Path) (k : Nat) : (y.leave p).slot k = y.block.slot k :=
  Block.slot_eq_of_tables (y.leave_tables p) k

@[simp] theorem Answer.leave_slots (y : Answer) (p : Path) : (y.leave p).slots = y.block.slots :=
  congrArg Tables.slots (y.leave_tables p)

@[simp] theorem Answer.leave_func (y : Answer) (p : Path) (f : FuncId) : (y.leave p).func f = y.block.func f :=
  Block.func_eq_of_tables (y.leave_tables p) f

@[simp] theorem Answer.leave_core (y : Answer) (p : Path) (n : Nat) : (y.leave p).core n = y.block.core n := by
  rw [Block.core, Block.core, Block.half_eq (y.leave_halfA p) (y.leave_halfB p)]

theorem Block.mem_eq_of_lasting {b c : Block} (h : b.lasting = c.lasting) : b.mem = c.mem := congrArg Lasting.mem h

theorem Block.audit_eq_of_lasting {b c : Block} (h : b.lasting = c.lasting) : b.flash.audit = c.flash.audit := congrArg Lasting.audit h

/-! ## Job slots (R40) -/

@[simp] theorem Block.setZilsy_slot (b : Block) (z : Zilsy) (k : Nat) : (b.setZilsy z).slot k = b.slot k :=
  Block.slot_eq_of_tables (b.setZilsy_tables z) k

theorem Block.slot_modSlot (b : Block) (k i : Nat) (f : JobSlot → JobSlot) :
    (b.modSlot k f).slot i = if i = k ∧ i < b.slots.length then f (b.slot i) else b.slot i :=
  getD_listMod b.slots k i f JobSlot.reset

/-- A slot that is bound is one of the block's. -/
theorem Block.slot_lt_of_bound {b : Block} {k : Nat} (h : (b.slot k).st ≠ 0) : k < b.slots.length := by
  by_contra hk
  exact h (by rw [Block.slot, List.getD_eq_default _ _ (not_lt.mp hk)]; rfl)

theorem not_slotOfJobFrom {job : Nat} {l : List JobSlot} {n : Nat} (h : slotOfJobFrom job l n = none) :
    ∀ s ∈ l, s.st ≠ 0 → s.job ≠ job := by
  induction l generalizing n with
  | nil => simp
  | cons x xs ih =>
    rw [slotOfJobFrom] at h
    split at h
    · cases h
    · next hx =>
      rintro s (_ | hs) hst hjob
      · exact hx ⟨hst, hjob⟩
      · exact ih h s (by assumption) hst hjob

/-- A job with no slot is bound to none. -/
theorem Block.job_ne_of_slotOfJob_none {b : Block} {job k : Nat} (h : b.slotOfJob job = none) (hst : (b.slot k).st ≠ 0) :
    (b.slot k).job ≠ job := by
  have hk := Block.slot_lt_of_bound hst
  rw [Block.slot, List.getD_eq_getElem _ _ hk] at hst ⊢
  exact not_slotOfJobFrom h _ (List.getElem_mem hk) hst

/-! ## Functions (R50, R54) -/

/-- What a disable writes into its function's entry: Draining until DRAIN_NS of its half's Tide from now (R50 step 1). -/
def Block.draining (b : Block) (f : FuncId) : FuncState :=
  { st := 1, deadline := b.tide (funcHalf f) + b.regFld (safReg (funcHalf f) 8) 29 0, aborted := 0, failed := false }

section
variable (b : Block) (f : FuncId) (x : FuncState)

@[simp] theorem Block.setFunc_mem : (b.setFunc f x).mem = b.mem := by cases f <;> simp [Block.setFunc, Block.modSlot]
@[simp] theorem Block.setFunc_flash : (b.setFunc f x).flash = b.flash := by cases f <;> simp [Block.setFunc, Block.modSlot]

theorem Block.setFunc_graphs (h : HalfId) : ((b.setFunc f x).half h).graphs = (b.half h).graphs := by
  have hmod (g : HalfId) (u : Half → Half) (hu : ∀ y, (u y).graphs = y.graphs) : ((b.modHalf g u).half h).graphs = (b.half h).graphs := by
    by_cases hgh : h = g
    · subst hgh; simp [hu]
    · rw [Block.half_modHalf_other _ _ _ _ hgh]
  cases f with
  | slot k => cases h <;> rfl
  | core n => exact hmod _ _ (fun _ => rfl)
  | harbour n => exact hmod _ _ (fun _ => rfl)
  | port n => exact hmod _ _ (fun _ => rfl)

theorem Block.setFunc_task (t : TaskRef) : (b.setFunc f x).task t = b.task t := by
  simp only [Block.task, Block.graph, Block.setFunc_graphs]

/-- A function's entry reads as set. -/
theorem Block.func_setFunc (hx : x.st ≤ 2) (hslot : ∀ k, f = .slot k → k.val < b.slots.length) :
    ((b.setFunc f x).func f).st = x.st ∧ ((b.setFunc f x).func f).deadline = x.deadline := by
  cases f with
  | core n => simp [Block.setFunc, Block.func]
  | harbour n => simp [Block.setFunc, Block.func]
  | port n => simp [Block.setFunc, Block.func]
  | slot k =>
    have hst : x.st = 0 ∨ x.st = 1 ∨ x.st = 2 := by omega
    simp only [Block.setFunc, Block.func, Block.slot_modSlot, hslot k rfl, and_self, if_true, and_true]
    obtain h | h | h := hst <;> simp [h]

/-- A function whose entry is gone is enabled (R54). -/
theorem Block.func_of_deleted (hf : ∀ k, f ≠ .slot k) :
    ((b.modHalf (funcHalf f) (fun h => { h with funcs := tabDel h.funcs (funcKey f) })).func f).st = 0 := by
  cases f with
  | slot k => exact absurd rfl (hf k)
  | core n => simp [Block.func]
  | harbour n => simp [Block.func]
  | port n => simp [Block.func]

/-- An enabled job slot is bound. -/
theorem Block.slot_lt_of_enabled {k : Fin 16} (h : (b.func (.slot k)).st = 0) : k.val < b.slots.length := by
  refine Block.slot_lt_of_bound (fun h0 => ?_)
  simp [Block.func, h0] at h
end

section
variable {b : Block} {f : FuncId}

/-- A drain that starts changes its function's entry and, of the tables, nothing else. -/
theorem Block.startDrain_tables (h : (b.func f).st = 0) : (b.startDrain f).tables = (b.setFunc f (b.draining f)).tables := by
  cases f <;> simp [Block.startDrain, h, funcPort, Block.draining]

theorem Block.startDrain_lasting (h : (b.func f).st = 0) : (b.startDrain f).lasting = (b.setFunc f (b.draining f)).lasting := by
  cases f <;> simp [Block.startDrain, h, funcPort, Block.draining]

theorem Block.startDrain_mem (h : (b.func f).st = 0) : (b.startDrain f).mem = b.mem :=
  (Block.mem_eq_of_lasting (Block.startDrain_lasting h)).trans (b.setFunc_mem f _)

theorem Block.startDrain_audit (h : (b.func f).st = 0) : (b.startDrain f).flash.audit = b.flash.audit :=
  (Block.audit_eq_of_lasting (Block.startDrain_lasting h)).trans (congrArg Flash.audit (b.setFunc_flash f _))

/-- An enabled function that starts to drain is Draining until its deadline (R50). -/
theorem Block.func_startDrain (h : (b.func f).st = 0) :
    ((b.startDrain f).func f).st = 1 ∧ ((b.startDrain f).func f).deadline = b.tide (funcHalf f) + b.regFld (safReg (funcHalf f) 8) 29 0 := by
  rw [Block.func_eq_of_tables (Block.startDrain_tables h)]
  refine b.func_setFunc f (b.draining f) (Nat.le_succ 1) ?_
  rintro k rfl
  exact b.slot_lt_of_enabled h
end

/-! ## Audited function commands (R50, R51, R441) -/

section
variable (b : Block) (a : Actor) (c : Change) (r : Bool)

@[simp] theorem Block.appendAudit_mem : (b.appendAudit a c r).mem = b.mem := by simp [Block.appendAudit]
@[simp] theorem Block.appendAudit_half (h : HalfId) : (b.appendAudit a c r).half h = b.half h := by simp [Block.appendAudit]
@[simp] theorem Block.appendAudit_func (f : FuncId) : (b.appendAudit a c r).func f = b.func f :=
  Block.func_eq_of_tables (b.appendAudit_tables a c r) f
@[simp] theorem Block.setZilsy_func (z : Zilsy) (f : FuncId) : (b.setZilsy z).func f = b.func f :=
  Block.func_eq_of_tables (b.setZilsy_tables z) f
end

/-- A disable of an enabled function is its audit record and the start of the drain. -/
theorem Block.disableFunc_of_enabled {b : Block} {f : FuncId} (h : (b.func f).st = 0) (hroom : b.flash.audit.length < 64512) (a : Actor) :
    ∃ c, b.disableFunc a f = ((b.appendAudit a c).startDrain f).accept :=
  ⟨_, by rw [Block.disableFunc, if_neg (not_not_intro h), Block.auditedAnswer_of_room hroom]⟩

/-- FUNC_DISABLE of an enabled function that is let in (R50, R441). -/
theorem exec_funcDisable_of_enabled {s : State} {p : Path} {f : FuncId} {a : Actor} {x : Block} (harr : Arrives s.block p [1, 2] a x)
    (h : (s.block.func f).st = 0) (hroom : s.block.flash.audit.length < 64512) :
    ∃ t, exec (.funcDisable p f) s = .next t ∧ t.pending = s.pending ∧ (t.block.func f).st = 1 ∧
      (t.block.func f).deadline = s.block.tide (funcHalf f) + s.block.regFld (safReg (funcHalf f) 8) 29 0 ∧
      t.block.flash.audit.length = s.block.flash.audit.length + 1 ∧ t.block.mem = s.block.mem ∧ Answers t.block p stOk := by
  have hexec : exec (.funcDisable p f) s = .next { s with block := (x.disableFunc a f).leave p } := by
    simp only [exec, execFuncDisable, State.act, Block.byPath_of_arrives harr]
  obtain ⟨z, rfl⟩ := harr.eq_setZilsy
  obtain ⟨c, hc⟩ := Block.disableFunc_of_enabled (b := s.block.setZilsy z) (f := f) (by simpa using h) (by simpa using hroom) a
  have hdrain : (((s.block.setZilsy z).appendAudit a c).func f).st = 0 := by simpa using h
  obtain ⟨hst, hdeadline⟩ := Block.func_startDrain hdrain
  rw [hc] at hexec
  refine ⟨_, hexec, rfl, ?_, ?_, ?_, ?_, Answer.answers_leave _ p rfl⟩
  · simpa using hst
  · simpa [Block.tide, Block.regFld] using hdeadline
  · simp [Block.startDrain_audit hdrain]
  · simp [Block.startDrain_mem hdrain]

/-- The audited change of an enable that acts: the function's entry goes (R54), and a port trains again (R324). -/
def Block.undisable (b : Block) (f : FuncId) : Block :=
  let b1 := b.modHalf (funcHalf f) (fun h => { h with funcs := tabDel h.funcs (funcKey f) })
  match funcPort f with
  | some (h, x) => b1.enablePort h x
  | none => b1

theorem Block.undisable_tables (b : Block) (f : FuncId) :
    (b.undisable f).tables = (b.modHalf (funcHalf f) (fun h => { h with funcs := tabDel h.funcs (funcKey f) })).tables := by
  cases f <;> simp [Block.undisable, funcPort]

theorem Block.undisable_lasting (b : Block) (f : FuncId) : (b.undisable f).lasting = b.lasting := by
  cases f <;> simp [Block.undisable, funcPort]

/-- An enable of a Disabled function that has not failed is its audit record and the change. -/
theorem Block.enableFunc_of_disabled {b : Block} {f : FuncId} (h : (b.func f).st = 2) (hfailed : (b.func f).failed = false)
    (hslot : ∀ k, f ≠ .slot k) (hroom : b.flash.audit.length < 64512) (a : Actor) (what : Nat) :
    ∃ c, b.enableFunc a f what = ((b.appendAudit a c).undisable f).accept := by
  cases f with
  | slot k => exact absurd rfl (hslot k)
  | core n => exact ⟨_, by simp only [Block.enableFunc, h, hfailed]; exact Block.auditedAnswer_of_room hroom a _ _⟩
  | harbour n => exact ⟨_, by simp only [Block.enableFunc, h]; exact Block.auditedAnswer_of_room hroom a _ _⟩
  | port n => exact ⟨_, by simp only [Block.enableFunc, h]; exact Block.auditedAnswer_of_room hroom a _ _⟩

/-- FUNC_ENABLE of a Disabled function that is let in (R51, R54). -/
theorem exec_funcEnable_of_disabled {s : State} {p : Path} {f : FuncId} {a : Actor} {x : Block} (harr : Arrives s.block p [1, 2] a x)
    (h : (s.block.func f).st = 2) (hfailed : (s.block.func f).failed = false) (hslot : ∀ k, f ≠ .slot k)
    (hroom : s.block.flash.audit.length < 64512) :
    ∃ t, exec (.funcEnable p f) s = .next t ∧ t.pending = s.pending ∧ (t.block.func f).st = 0 ∧
      t.block.flash.audit.length = s.block.flash.audit.length + 1 ∧ t.block.mem = s.block.mem ∧ Answers t.block p stOk := by
  have hexec : exec (.funcEnable p f) s = .next { s with block := (x.enableFunc a f (funcWhat p (funcHalf f))).leave p } := by
    simp only [exec, execFuncEnable, State.act, Block.byPath_of_arrives harr]
  obtain ⟨z, rfl⟩ := harr.eq_setZilsy
  obtain ⟨c, hc⟩ := Block.enableFunc_of_disabled (b := s.block.setZilsy z) (f := f) (by simpa using h) (by simpa using hfailed) hslot
    (by simpa using hroom) a (funcWhat p (funcHalf f))
  have hlasting := ((s.block.setZilsy z).appendAudit a c).undisable_lasting f
  rw [hc] at hexec
  refine ⟨_, hexec, rfl, ?_, ?_, ?_, Answer.answers_leave _ p rfl⟩
  · simp [Block.func_eq_of_tables (Block.undisable_tables _ f), Block.func_of_deleted _ f hslot]
  · simp [Block.audit_eq_of_lasting hlasting]
  · simp [Block.mem_eq_of_lasting hlasting]

/-- An enable of a job slot is refused and logged (R41, R51). -/
theorem exec_funcEnable_slot {s : State} {p : Path} {k : Fin 16} {a : Actor} {x : Block} (harr : Arrives s.block p [1, 2] a x) :
    ∃ t, exec (.funcEnable p (.slot k)) s = .next t ∧ t.block.slots = s.block.slots ∧ t.block.flash.audit = s.block.flash.audit ∧
      Answers t.block p stPermission := by
  have hexec : exec (.funcEnable p (.slot k)) s = .next { s with block := (x.enableFunc a (.slot k) (funcWhat p .a)).leave p } := by
    simp only [exec, execFuncEnable, State.act, Block.byPath_of_arrives harr, funcHalf]
  obtain ⟨z, rfl⟩ := harr.eq_setZilsy
  refine ⟨_, hexec, ?_, ?_, Answer.answers_leave _ p rfl⟩
  · simp [Block.enableFunc, Block.funcRefused]
  · simp [Block.enableFunc, Block.audit_eq_of_lasting (Block.funcRefused_lasting _ _ _ _ _)]

/-- JOB_SLOT_DISABLE of an Active slot that is let in (R41, R50). -/
theorem exec_jobSlotDisable_of_active {s : State} {p : Path} {k : Fin 16} {a : Actor} {x : Block} (harr : Arrives s.block p [1, 2] a x)
    (h : (s.block.slot k.val).st = 1) :
    ∃ t, exec (.jobSlotDisable p k) s = .next t ∧ t.pending = s.pending ∧ (t.block.slot k.val).st = 2 ∧
      (t.block.slot k.val).deadline = s.block.tide .a + s.block.regFld (safReg .a 8) 29 0 ∧
      (∀ i, i ≠ k.val → t.block.slot i = s.block.slot i) ∧ t.block.mem = s.block.mem ∧ Answers t.block p stOk := by
  have hexec : exec (.jobSlotDisable p k) s = .next { s with block := ((x.startDrain (.slot k)).accept).leave p } := by
    simp only [exec, execJobSlotDisable, State.act, Block.byPath_of_arrives harr]
  obtain ⟨z, rfl⟩ := harr.eq_setZilsy
  have hdrain : ((s.block.setZilsy z).func (.slot k)).st = 0 := by simp [Block.func, h]
  have hk : k.val < s.block.slots.length := Block.slot_lt_of_bound (by simp [h])
  have hslot (i : Nat) := Block.slot_eq_of_tables (Block.startDrain_tables hdrain) i
  simp only [Block.setFunc, Block.slot_modSlot] at hslot
  refine ⟨_, hexec, rfl, ?_, ?_, fun i hi => ?_, ?_, Answer.answers_leave _ p rfl⟩
  · simp [hslot, hk, Block.draining]
  · simp [hslot, hk, Block.draining, funcHalf, Block.tide, Block.regFld]
  · simp [hslot, hi]
  · simp [Block.startDrain_mem hdrain]

/-! ## The drain (R50-R52) -/

theorem mem_of_tabFind {α : Type} {t : Tab α} {i : Nat} {v : α} (h : tabFind t i = some v) : (i, v) ∈ t := by
  induction t with
  | nil => cases h
  | cons e es ih =>
    rw [tabFind] at h
    split at h
    · next hk => exact List.mem_cons.mpr (.inl (by rw [← hk, ← Option.some.inj h]))
    · exact List.mem_cons_of_mem _ (ih h)

/-- A half's tasks are those of its live graphs. -/
theorem Block.mem_tasksOf {b : Block} {t : TaskRef} {g : Graph} {c : TaskCtx} (hg : b.graph t.half t.graph = some g)
    (hc : b.task t = some c) : (t, g, c) ∈ b.tasksOf t.half := by
  have hget : g.tasks[t.task]? = some c := by simpa [Block.task, hg] using hc
  obtain ⟨hlt, hval⟩ := List.getElem?_eq_some_iff.mp hget
  refine List.mem_flatten.mpr ⟨_, List.mem_map.mpr ⟨(t.graph, g), mem_of_tabFind hg, rfl⟩, List.mem_map.mpr ⟨(c, t.task), ?_, rfl⟩⟩
  exact List.mem_iff_getElem.mpr ⟨t.task, by simpa using hlt, by simp [hval]⟩

theorem Block.mem_usersOf {b : Block} {f : FuncId} {t : TaskRef} {g : Graph} {c : TaskCtx} (hg : b.graph t.half t.graph = some g)
    (hc : b.task t = some c) (huses : b.usesFunc f t g c = true) : t ∈ b.usersOf f := by
  have hmem := Block.mem_tasksOf hg hc
  have hboth : (t, g, c) ∈ b.tasksOf .a ++ b.tasksOf .b := by
    cases hh : t.half <;> simp [hh] at hmem ⊢ <;> simp [hmem]
  exact List.mem_map.mpr ⟨(t, g, c), List.mem_filter.mpr ⟨hboth, huses⟩, rfl⟩

/-- A task that uses a function can still end (R50). -/
theorem Block.open_of_usesFunc {b : Block} {f : FuncId} {t : TaskRef} {g : Graph} {c : TaskCtx} (huses : b.usesFunc f t g c = true) :
    c.phase.Open := by
  cases f <;> simp only [Block.usesFunc, Bool.and_eq_true, Bool.or_eq_true, decide_eq_true_eq, Bool.false_eq_true] at huses
  case core n => exact .inr (.inr huses.1)
  case harbour n => exact .inr (.inr huses.1.1)
  case slot k => exact or_assoc.mp huses.2

/-- Each task that a disable aborts has ended with ST_ABORTED_DISABLE. -/
theorem Heads.abortFor {b : Block} {u : TaskRef} (h : Heads b u stAborted) (f : FuncId) {ts : List TaskRef} (hu : u ∈ ts) :
    Ended (b.abortFor f ts) u stAborted := by
  cases ts with
  | nil => cases hu
  | cons t ts =>
    obtain ⟨c, hc, hend⟩ := h.abortAll hu (funcDetail f)
    refine ⟨c, ?_, hend⟩
    simp only [Block.abortFor, Block.setFunc_task]
    rw [← hc]
    split
    · exact Block.task_eq_of_tables (Block.logAborted_tables _ _ _) u
    · rfl

/-- At D the tasks that use the function are aborted; what follows touches no task (R50 step 3). -/
theorem exec_drainDeadline_of_due {s : State} {f : FuncId} (hdue : s.block.drainDue f = true) :
    ∃ y, exec (.drainDeadline f) s = .next { s with block := y } ∧ y.tables = (s.block.abortFor f (s.block.usersOf f)).tables := by
  refine ⟨_, rfl, ?_⟩
  simp only [hdue, if_true]
  split <;> simp

/-- DRAIN_DEADLINE at D: every task that uses the function has ended with ST_ABORTED_DISABLE (R50). -/
theorem exec_drainDeadline_ends_users {s : State} {f : FuncId} (hdue : s.block.drainDue f = true) :
    ∃ t, exec (.drainDeadline f) s = .next t ∧ t.pending = s.pending ∧
      ∀ k g c, s.block.graph k.half k.graph = some g → s.block.task k = some c → s.block.usesFunc f k g c = true → Ended t.block k stAborted := by
  obtain ⟨y, hexec, htables⟩ := exec_drainDeadline_of_due hdue
  refine ⟨_, hexec, rfl, fun k g c hg hc huses => ?_⟩
  have hheads : Heads s.block k stAborted := ⟨c, hc, .inl (Block.open_of_usesFunc huses)⟩
  exact (hheads.abortFor f (Block.mem_usersOf hg hc huses)).of_tables htables

/-- A closed slot is as at reset (R50, R230). -/
theorem Block.slot_closeSlot (b : Block) (k : Nat) : (b.closeSlot k).slot k = JobSlot.reset := by
  rw [Block.closeSlot, Block.slot_eq_of_tables (Block.ackAborts_tables _ k), Block.releaseSlot, Block.slot_modSlot]
  split
  · rfl
  · next hk => exact List.getD_eq_default _ _ (by simpa using hk)

/-- DRAIN_COMPLETE from D on with no user left: the function is Disabled, and a slot is free (R50 step 5). -/
theorem exec_drainComplete_of_unused {s : State} {f : FuncId} (hdue : s.block.drainDue f = true) (hunused : s.block.usersOf f = []) :
    ∃ t, exec (.drainComplete f) s = .next t ∧ t.pending = s.pending ∧ (t.block.func f).st = 2 ∧
      (∀ k, f = .slot k → t.block.slot k.val = JobSlot.reset) := by
  have hgo : ¬ (¬ s.block.drainDue f = true ∨ s.block.usersOf f ≠ []) := by simp [hdue, hunused]
  have hset (b : Block) (hf : ∀ k, f ≠ .slot k) : ((b.setFunc f { b.func f with st := 2 }).func f).st = 2 :=
    (b.func_setFunc f _ (le_refl 2) (fun k hk => absurd hk (hf k))).1
  refine ⟨_, rfl, rfl, ?_⟩
  simp only [hgo, if_false]
  cases f with
  | core n => exact ⟨hset _ (fun k => by simp), fun k hk => nomatch hk⟩
  | harbour n => exact ⟨hset _ (fun k => by simp), fun k hk => nomatch hk⟩
  | port n =>
    refine ⟨?_, fun k hk => nomatch hk⟩
    rw [Block.func_eq_of_tables (Block.closePort_tables _ _ _)]
    exact hset _ (fun k => by simp)
  | slot k =>
    have hreset (b : Block) : (b.closeSlot k.val).idleCheck.slot k.val = JobSlot.reset :=
      (Block.slot_eq_of_tables (Block.idleCheck_tables _) _).trans (b.slot_closeSlot k.val)
    refine ⟨by simp only [Block.func, hreset]; rfl, ?_⟩
    rintro j ⟨⟩
    exact hreset _

/-! ## Stall counters (R54, R55) -/

/-- Of a table whose entries were kept or dropped by their keys. -/
theorem tabFind_filter_key {α : Type} (t : Tab α) (q : Nat → Bool) (i : Nat) :
    tabFind (t.filter (fun e => q e.1)) i = if q i then tabFind t i else none := by
  induction t with
  | nil => simp [tabFind]
  | cons e es ih =>
    by_cases hei : e.1 = i
    · subst hei
      by_cases hq : q e.1 <;> simp [hq, tabFind, ih]
    · by_cases hq : q e.1 <;> simp [hq, tabFind, ih, hei]

/-- A register of the range is at its reset value, any other as before. -/
theorem Block.clearRegs_reg (b : Block) (lo hi c : Nat) :
    (b.clearRegs lo hi).reg c = if lo ≤ c ∧ c < hi then regReset c else b.reg c := by
  simp only [Block.reg, Block.clearRegs, tabGet, tabFind_filter_key b.regs (fun a => !(decide (lo ≤ a) && decide (a < hi)))]
  by_cases hin : lo ≤ c ∧ c < hi
  · simp [hin]
  · rw [if_pos (by simp; omega), if_neg hin]

/-- No register that resets to another value than 0 stands among the stall counters. -/
theorem nonzero_rows : ∀ r ∈ regRows, r.reset ≠ 0 → r.base + r.copies * r.copyStride ≤ 0x60000000 ∧ 0 < r.copyStride := by
  decide +kernel

theorem regReset_of_ge {a : Nat} (h : 0x60000000 ≤ a) : regReset a = 0 := by
  rw [regReset]
  cases hrow : regRow a with
  | none => rfl
  | some r =>
    by_contra hne
    obtain ⟨hlow, hpos⟩ := nonzero_rows r (List.mem_of_find?_eq_some hrow) hne
    have hhas := List.find?_some hrow
    simp only [RegRow.has, Bool.and_eq_true, decide_eq_true_eq] at hhas
    have hcopy := (Nat.div_lt_iff_lt_mul hpos).mp hhas.2.1
    omega

theorem not_mailboxReg_of_gt {a : Nat} (h : zilReg 0x14000 ≤ a) : ¬ mailboxReg a := by
  simp only [mailboxReg, zilReg] at *
  omega

theorem Block.clearStalls_eq (b : Block) (h : HalfId) (v : Word) :
    b.clearStalls h v = { b with regs := (b.clearStalls h v).regs } := by
  rw [Block.clearStalls]
  split <;> rfl

/-- STALL_CLEAR that is let in (R54, R55). -/
theorem exec_stallClear_of_arrives {s : State} {p : Path} {h : HalfId} {v : Word} {a : Actor} {x : Block}
    (harr : Arrives s.block p [1, 2] a x) :
    ∃ t, exec (.stallClear p h v) s = .next t ∧ t.pending = s.pending ∧
      (v.getLsbD 0 = true → ∀ n e c, n < 40 → e < 3 → c < 17 → t.block.reg (stallReg (40 * halfNum h + n) e c) = 0) ∧
      (v.getLsbD 0 = false → ∀ n e c, n < 80 → e < 3 → c < 17 → t.block.reg (stallReg n e c) = s.block.reg (stallReg n e c)) ∧
      t.block.mem = s.block.mem ∧ Answers t.block p stOk := by
  have hexec : exec (.stallClear p h v) s = .next { s with block := ((x.clearStalls h v).accept).leave p } := by
    simp only [exec, execStallClear, State.act, Block.byPath_of_arrives harr]
  obtain ⟨z, rfl⟩ := harr.eq_setZilsy
  have hmail (n e c : Nat) : ¬ mailboxReg (stallReg n e c) := not_mailboxReg_of_gt (by simp only [zilReg, stallReg]; omega)
  refine ⟨_, hexec, rfl, fun hv n e c hn he hc => ?_, fun hv n e c _ _ _ => ?_, ?_, Answer.answers_leave _ p rfl⟩
  · rw [Answer.leave_reg _ _ _ (hmail _ _ _), Block.accept_block, Block.clearStalls, if_pos hv, Block.clearRegs_reg,
      if_pos (by simp only [stallReg]; omega)]
    exact regReset_of_ge (by simp only [stallReg]; omega)
  · rw [Answer.leave_reg _ _ _ (hmail _ _ _), Block.accept_block, Block.clearStalls, hv, if_neg Bool.false_ne_true, Block.setZilsy_reg]
  · rw [Answer.leave_mem, Block.accept_block, Block.clearStalls_eq]; rfl

/-! ## Look-aside entries (R170) -/

/-- Of a core changed its engines read as changed, and every other core's as before. -/
theorem Block.core_modCore (b : Block) {n m : Nat} (hn : n < 80) (hm : m < 80) (f : CoreEngines → CoreEngines) :
    (b.modCore n f).core m = if m = n then f (b.core m) else b.core m := by
  simp only [Block.modCore, Block.core]
  by_cases hmn : m = n
  · subst hmn; simp
  · rw [if_neg hmn]
    by_cases hh : halfOf (m / 40) = halfOf (n / 40)
    · have hkey : m % 40 ≠ n % 40 := by
        have hnum := congrArg halfNum hh
        have hquot : m / 40 < 2 ∧ n / 40 < 2 := by omega
        simp only [halfOf] at hnum
        intro hmod
        have : m / 40 = n / 40 := by split at hnum <;> split at hnum <;> simp [halfNum] at hnum <;> omega
        omega
      rw [hh, Block.half_modHalf_same, tabGet_tabSet_other _ _ _ _ _ _ hkey]
    · rw [Block.half_modHalf_other _ _ _ _ hh]

/-- A core's engines without a slot's look-aside entries. -/
def CoreEngines.dropSlot (k : Nat) (e : CoreEngines) : CoreEngines := { e with lab := e.lab.filter (fun r => r.1 ≠ k) }

/-- The cores listed have lost the slot's look-aside entries; all others are as before. -/
theorem Block.core_foldl_dropSlot (b : Block) (h : HalfId) (k : Nat) {l : List Nat} (hl : ∀ n ∈ l, n < 40) {m : Nat} (hm : m < 40) :
    ((l.foldl (fun x n => x.modCore (40 * halfNum h + n) (CoreEngines.dropSlot k)) b).core (40 * halfNum h + m)).lab =
      if m ∈ l then ((b.core (40 * halfNum h + m)).dropSlot k).lab else (b.core (40 * halfNum h + m)).lab := by
  have hhalf := halfNum_le_one h
  induction l generalizing b with
  | nil => simp
  | cons n ns ih =>
    have hn : n < 40 := hl n List.mem_cons_self
    rw [List.foldl_cons, ih _ (fun i hi => hl i (List.mem_cons_of_mem _ hi)),
      b.core_modCore (n := 40 * halfNum h + n) (m := 40 * halfNum h + m) (by omega) (by omega)]
    by_cases hmn : m = n
    · subst hmn
      simp [CoreEngines.dropSlot]
    · simp [hmn]

theorem Block.invalidateKv_lab (b : Block) (h : HalfId) (k : Nat) {n : Nat} (hn : n < 40) :
    ((b.invalidateKv h k).core (40 * halfNum h + n)).lab = (b.core (40 * halfNum h + n)).lab.filter (fun r => r.1 ≠ k) := by
  have hfold := b.core_foldl_dropSlot h k (l := List.range 40) (fun i hi => List.mem_range.mp hi) hn
  rw [if_pos (List.mem_range.mpr hn)] at hfold
  exact hfold

/-- KV_INVAL that is let in (R170). -/
theorem exec_kvInval_of_arrives {s : State} {p : Path} {h : HalfId} {k : Fin 16} {a : Actor} {x : Block}
    (harr : Arrives s.block p [1, 2] a x) :
    ∃ t, exec (.kvInval p h k) s = .next t ∧ t.pending = s.pending ∧
      (∀ n, n < 40 → ∀ e ∈ (t.block.core (40 * halfNum h + n)).lab, e.1 ≠ k.val) ∧
      (∀ n, n < 40 → ∀ e ∈ (s.block.core (40 * halfNum h + n)).lab, e.1 ≠ k.val → e ∈ (t.block.core (40 * halfNum h + n)).lab) ∧
      t.block.mem = s.block.mem ∧ Answers t.block p stOk := by
  have hexec : exec (.kvInval p h k) s = .next { s with block := ((x.invalidateKv h k.val).accept).leave p } := by
    simp only [exec, execKvInval, State.act, Block.byPath_of_arrives harr]
  obtain ⟨z, rfl⟩ := harr.eq_setZilsy
  have hcore (n : Nat) : (s.block.setZilsy z).core n = s.block.core n := by simp only [Block.core, Block.setZilsy_half]
  have hlab (n : Nat) (hn : n < 40) : ((((s.block.setZilsy z).invalidateKv h k.val).accept.leave p).core (40 * halfNum h + n)).lab =
      (s.block.core (40 * halfNum h + n)).lab.filter (fun r => r.1 ≠ k.val) := by
    rw [Answer.leave_core, Block.accept_block, Block.invalidateKv_lab _ _ _ hn, hcore]
  refine ⟨_, hexec, rfl, fun n hn e he => ?_, fun n hn e he hek => ?_, ?_, Answer.answers_leave _ p rfl⟩
  · have hmem : e ∈ (s.block.core (40 * halfNum h + n)).lab.filter (fun r => r.1 ≠ k.val) := hlab n hn ▸ he
    exact of_decide_eq_true (List.mem_filter.mp hmem).2
  · exact hlab n hn ▸ List.mem_filter.mpr ⟨he, by simpa using hek⟩
  · rw [Answer.leave_mem, Block.accept_block, Block.mem_eq_of_lasting (Block.invalidateKv_lasting _ h k.val), Block.setZilsy_mem]

/-! ## Binding a slot (R40, R41) -/

/-- A block that differs from another in no byte of memory and in no slot but one. -/
structure OneSlotOff (b c : Block) (k : Nat) : Prop where
  mem : c.mem = b.mem
  fill : c.fill = b.fill
  length : c.slots.length = b.slots.length
  others : ∀ i, i ≠ k → c.slot i = b.slot i

theorem OneSlotOff.refl (b : Block) (k : Nat) : OneSlotOff b b k := ⟨rfl, rfl, rfl, fun _ _ => rfl⟩

theorem OneSlotOff.trans {b c d : Block} {k : Nat} (h : OneSlotOff b c k) (g : OneSlotOff c d k) : OneSlotOff b d k :=
  ⟨g.mem.trans h.mem, g.fill.trans h.fill, g.length.trans h.length, fun i hi => (g.others i hi).trans (h.others i hi)⟩

theorem listMod_length {α : Type} (l : List α) (k : Nat) (f : α → α) : (listMod l k f).length = l.length := by
  induction l generalizing k with
  | nil => rfl
  | cons x xs ih => cases k <;> simp [listMod, ih]

theorem Block.modSlot_oneSlotOff (b : Block) (k : Nat) (f : JobSlot → JobSlot) : OneSlotOff b (b.modSlot k f) k :=
  ⟨rfl, rfl, listMod_length _ _ _, fun i hi => by simp [Block.slot_modSlot, hi]⟩

theorem Block.addPages_oneSlotOff (b : Block) (k : Nat) (l : List (Nat × Page)) : OneSlotOff b (b.addPages k l) k := by
  induction l generalizing b with
  | nil => exact .refl b k
  | cons p ps ih => exact (b.modSlot_oneSlotOff k _).trans (ih _)

/-- Frames that become a slot's change the tiers alone. -/
theorem Block.takeFrames_oneSlotOff (b : Block) (k owner : Nat) (l : List Nat) :
    OneSlotOff b (l.foldl (fun x f => x.modTiers (homeOf f) (fun t => { t with frames := tabPut t.frames f owner })) b) k := by
  induction l generalizing b with
  | nil => exact .refl b k
  | cons f fs ih =>
    have hone (g : Tiers → Tiers) : OneSlotOff b (b.modTiers (homeOf f) g) k :=
      ⟨b.modHalf_mem _ _, b.modHalf_fill _ _, congrArg List.length (b.modHalf_slots _ _),
        fun i _ => Block.slot_eq_of_tables (b.modTiers_tables _ g) i⟩
    exact (hone _).trans (ih _)

theorem Block.addRow_oneSlotOff {b c : Block} {k : Nat} {r : PageRow} (h : b.addRow k r = .ok c) : OneSlotOff b c k := by
  simp only [Block.addRow] at h
  generalize (if r.target / 2 ^ 60 = 0 then (if r.big then regionFrames r.target else [r.target]) else []) = frames at h
  generalize (if r.big then 0x40000000 else frameSize) = size at h
  split at h
  · cases h
  · split at h
    · cases h
    · cases h
      exact (b.takeFrames_oneSlotOff k (k + 1) _).trans (Block.addPages_oneSlotOff _ k _)

theorem Block.addRows_oneSlotOff {b c : Block} {k : Nat} {rows : List PageRow} (h : b.addRows k rows = .ok c) : OneSlotOff b c k := by
  induction rows generalizing b with
  | nil => cases h; exact .refl _ _
  | cons r rs ih =>
    rw [Block.addRows] at h
    split at h
    · cases h
    · next b1 hrow => exact (Block.addRow_oneSlotOff hrow).trans (ih h)

/-! ### The expert table that a bind stores (R128) -/

/-- Where a half's expert table store keeps a slot's table (DESIGN CHOICE, log entry 77). -/
def expertTable (h : HalfId) (k : Nat) : Nat := 0x3F9C00000 + halfNum h * 0x200000000 + k * 0x40000

theorem Block.storeExperts_eq (b : Block) (h : HalfId) (k : Nat) (l : List Nat) :
    b.storeExperts h k l = b.store (expertTable h k) (l.flatMap (leBytes 4)) := by
  cases h <;> simp [Block.storeExperts, expertTable, halfNum]

theorem leBytes_length (n x : Nat) : (leBytes n x).length = n := by
  induction n generalizing x with
  | zero => rfl
  | succ n ih => simp [leBytes, ih]

theorem Block.storeExperts_byte (b : Block) {h : HalfId} {k z : Nat} {l : List Nat} (hl : l.length ≤ 65536)
    (hz : ¬ (expertTable h k ≤ z ∧ z < expertTable h k + 0x40000)) : (b.storeExperts h k l).byte z = b.byte z := by
  have hlength : (l.flatMap (leBytes 4)).length = l.length * 4 := by
    simp [List.length_flatMap, leBytes_length]
  rw [Block.storeExperts_eq, Block.store_byte, if_neg (by omega)]

theorem Block.storeExperts_slots (b : Block) (h : HalfId) (k : Nat) (l : List Nat) : (b.storeExperts h k l).slots = b.slots := by
  rw [Block.storeExperts_eq, Block.store_slots]

theorem Block.readTable_length {b : Block} {h : HalfId} {k va size n : Nat} {l : List Nat} (hl : b.readTable h k va size n = .ok l) :
    l.length = n := by
  rw [Block.readTable] at hl
  split at hl
  · cases hl
  · cases hl; simp

/-- A half's expert table has at most 65,536 entries. -/
theorem Block.copyExperts_length {b : Block} {h : HalfId} {k : Nat} {l : List Nat} (hl : b.copyExperts h k = .ok l) : l.length ≤ 65536 := by
  simp only [Block.copyExperts] at hl
  split at hl
  · cases hl; simp
  · split at hl
    · cases hl
    · next table htable =>
      cases hl
      rw [List.length_map, Block.readTable_length htable]
      exact bits_lt _ 63 48

theorem Block.copyHalf_experts {b : Block} {h : HalfId} {k : Nat} {x : List Nat × List Nat × List Nat} (hx : b.copyHalf h k = .ok x) :
    x.1.length ≤ 65536 := by
  rw [Block.copyHalf] at hx
  split at hx
  · cases hx
  · next e he =>
    split at hx
    · cases hx
    · split at hx
      · cases hx
      · split at hx <;> cases hx
        exact Block.copyExperts_length he

/-! ### What a bind does -/

section
variable (b : Block) (h : HalfId) (k : Nat)

theorem Block.clearSlot_slots : (b.clearSlot h k).slots = b.slots := by
  rw [Block.clearSlot, Block.modHalf_slots]; rfl

theorem Block.clearSlot_byte (z : Nat) : (b.clearSlot h k).byte z = b.byte z := by
  rw [Block.clearSlot, Block.modHalf_byte]; rfl

theorem Block.setHashes_slots (x : List Nat × List Nat × List Nat) : (b.setHashes h k x).slots = b.slots := by
  simp [Block.setHashes]

theorem Block.setHashes_byte (x : List Nat × List Nat × List Nat) (z : Nat) : (b.setHashes h k x).byte z = b.byte z := by
  simp [Block.setHashes]
end

/-- What a bind clears and hashes once the slot is Active: statistics, latches, step records and energy (R41, R72, R368, R473). -/
def Block.settleBind (b : Block) (k : Nat) (xa xb : List Nat × List Nat × List Nat) : Block :=
  ((((b.clearSlot .a k).clearSlot .b k).setHashes .a k xa).setHashes .b k xb).clearEnergy k

theorem Block.settleBind_slots (b : Block) (k : Nat) (xa xb : List Nat × List Nat × List Nat) : (b.settleBind k xa xb).slots = b.slots := by
  simp [Block.settleBind, Block.clearEnergy, Block.setHashes_slots, Block.clearSlot_slots]

theorem Block.settleBind_byte (b : Block) (k : Nat) (xa xb : List Nat × List Nat × List Nat) (z : Nat) :
    (b.settleBind k xa xb).byte z = b.byte z := by
  simp [Block.settleBind, Block.clearEnergy, Block.setHashes_byte, Block.clearSlot_byte]

/-- A bind that succeeds: the job had no slot, the rows and both halves' tables were copied, and the slot is Active for the job. -/
theorem Block.bind_ok {b y : Block} {k job : Nat} {rows : List PageRow} (h : b.bind k job rows = .ok y) :
    b.slotOfJob job = none ∧ ∃ b1 xa xb f, OneSlotOff b b1 k ∧ xa.1.length ≤ 65536 ∧ xb.1.length ≤ 65536 ∧
      (∀ s, (f s).st = 1 ∧ (f s).job = job) ∧
      y = (((b1.storeExperts .a k xa.1).storeExperts .b k xb.1).modSlot k f).settleBind k xa xb := by
  rw [Block.bind] at h
  split at h
  · cases h
  · next hfree =>
    split at h
    · cases h
    · next b1 hrows =>
      split at h
      · cases h
      · next xa hxa =>
        split at h
        · cases h
        · next xb hxb =>
          cases h
          refine ⟨by simpa using (not_or.mp hfree).1, b1, xa, xb, _, Block.addRows_oneSlotOff hrows, Block.copyHalf_experts hxa,
            Block.copyHalf_experts hxb, fun s => ⟨rfl, rfl⟩, rfl⟩

section
variable {b y : Block} {k job : Nat} {rows : List PageRow}

/-- After a bind its slot is Active for the job (R40). -/
theorem Block.bind_slot (hk : k < b.slots.length) (h : b.bind k job rows = .ok y) : (y.slot k).st = 1 ∧ (y.slot k).job = job := by
  obtain ⟨-, b1, xa, xb, f, hrows, -, -, hf, rfl⟩ := Block.bind_ok h
  have hk1 : k < b1.slots.length := by rw [hrows.length]; exact hk
  have hslot (c : Block) (hc : c.slots = b1.slots) : ((c.modSlot k f).settleBind k xa xb).slot k = f (c.slot k) := by
    rw [Block.slot, Block.settleBind_slots]
    exact (c.slot_modSlot k k f).trans (if_pos ⟨rfl, by rw [hc]; exact hk1⟩)
  rw [hslot _ (by rw [Block.storeExperts_slots, Block.storeExperts_slots])]
  exact hf _

/-- A bind leaves every other slot as it was. -/
theorem Block.bind_slot_other (h : b.bind k job rows = .ok y) {i : Nat} (hi : i ≠ k) : y.slot i = b.slot i := by
  obtain ⟨-, b1, xa, xb, f, hrows, -, -, -, rfl⟩ := Block.bind_ok h
  have hslot (c : Block) (hc : c.slots = b1.slots) : ((c.modSlot k f).settleBind k xa xb).slot i = b1.slot i := by
    rw [Block.slot, Block.settleBind_slots]
    exact (c.slot_modSlot k i f).trans ((if_neg (fun hik => hi hik.1)).trans (by rw [Block.slot, hc]; rfl))
  rw [hslot _ (by rw [Block.storeExperts_slots, Block.storeExperts_slots]), hrows.others i hi]

/-- Of memory a bind writes the slot's expert tables alone. -/
theorem Block.bind_byte (h : b.bind k job rows = .ok y) {z : Nat} (hz : ∀ g, ¬ (expertTable g k ≤ z ∧ z < expertTable g k + 0x40000)) :
    y.byte z = b.byte z := by
  obtain ⟨-, b1, xa, xb, f, hrows, hxa, hxb, -, rfl⟩ := Block.bind_ok h
  have hmod (c : Block) : (c.modSlot k f).byte z = c.byte z := rfl
  rw [Block.settleBind_byte, hmod, Block.storeExperts_byte _ hxb (hz .b), Block.storeExperts_byte _ hxa (hz .a),
    Block.byte_eq hrows.mem hrows.fill]
end

/-- JOB_SLOT_BIND that is let in, of a Disabled slot whose checks hold (R40, R41). -/
theorem exec_jobSlotBind_of_ok {s : State} {p : Path} {k : Fin 16} {job : Fin 4096} {rows : List PageRow} {a : Actor} {x y : Block}
    (hshaped : Shaped s.block) (harr : Arrives s.block p [1, 2] a x) (hst : (x.slot k.val).st = 0) (hbind : x.bind k.val job.val rows = .ok y) :
    ∃ t, exec (.jobSlotBind p k job rows) s = .next t ∧ t.pending = s.pending ∧ (t.block.slot k.val).st = 1 ∧
      (t.block.slot k.val).job = job.val ∧ (∀ i, i ≠ k.val → (t.block.slot i).st = (s.block.slot i).st ∧ (t.block.slot i).job = (s.block.slot i).job ∧
        ((t.block.slot i).st ≠ 0 → i < 16 → (t.block.slot i).job ≠ job.val)) ∧
      (∀ z, (∀ h, ¬ (0x3F9C00000 + halfNum h * 0x200000000 + k.val * 0x40000 ≤ z ∧
        z < 0x3F9C00000 + halfNum h * 0x200000000 + (k.val + 1) * 0x40000)) → t.block.byte z = s.block.byte z) ∧ Answers t.block p stOk := by
  have hanswer : x.bindWrite k.val job.val rows = y.idleCheck.accept := by
    rw [Block.bindWrite, if_neg (not_not_intro hst), hbind]
  have hexec : exec (.jobSlotBind p k job rows) s = .next { s with block := (y.idleCheck.accept).leave p } := by
    simp only [exec, execJobSlotBind, State.act, Block.byPath_of_arrives harr, hanswer]
  obtain ⟨z, rfl⟩ := harr.eq_setZilsy
  have hk : k.val < (s.block.setZilsy z).slots.length := by
    rw [Block.setZilsy_slots, hshaped.1]
    exact k.isLt
  have hslot (i : Nat) : ((y.idleCheck.accept).leave p).slot i = y.slot i := by
    rw [Answer.leave_slot, Block.accept_block, Block.slot_eq_of_tables (Block.idleCheck_tables y)]
  obtain ⟨hactive, hjob⟩ := Block.bind_slot hk hbind
  refine ⟨_, hexec, rfl, by rw [hslot]; exact hactive, by rw [hslot]; exact hjob, fun i hi => ?_, fun q hq => ?_,
    Answer.answers_leave _ p rfl⟩
  · have hother : ((y.idleCheck.accept).leave p).slot i = s.block.slot i := by
      rw [hslot, Block.bind_slot_other hbind hi, Block.setZilsy_slot]
    refine ⟨congrArg JobSlot.st hother, congrArg JobSlot.job hother, fun hbound _ => ?_⟩
    have hfree := (Block.bind_ok hbind).1
    rw [hother] at hbound ⊢
    exact Block.job_ne_of_slotOfJob_none (b := s.block.setZilsy z) (k := i) hfree (by simpa using hbound)
  · have hbyte := Block.bind_byte hbind (z := q) (fun h => by simp only [expertTable]; have := hq h; omega)
    rw [Answer.leave_byte, Block.accept_block]
    exact hbyte

/-! ## The statement -/

/-- Settles O15, one command after another. -/
theorem slotAndFunctionCommands : Obligations.SlotAndFunctionCommands := by
  unfold Obligations.SlotAndFunctionCommands
  exact ⟨fun _ _ _ _ _ _ _ _ hshaped harr hst hbind => exec_jobSlotBind_of_ok hshaped harr hst hbind,
    fun _ _ _ _ _ _ harr hst => exec_jobSlotDisable_of_active harr hst,
    fun _ _ _ _ _ _ harr hst hroom => exec_funcDisable_of_enabled harr hst hroom,
    fun _ _ _ _ _ harr hst hfailed hslot hroom => exec_funcEnable_of_disabled harr hst hfailed hslot hroom,
    fun _ _ _ _ _ harr => exec_funcEnable_slot harr,
    fun _ _ hdue => exec_drainDeadline_ends_users hdue,
    fun _ _ _ hdue hunused => exec_drainComplete_of_unused hdue hunused,
    fun _ _ _ _ _ _ harr => exec_stallClear_of_arrives harr,
    fun _ _ _ _ _ _ harr => exec_kvInval_of_arrives harr⟩

/-! ## A tag returned and issued again in one step (R212, R216, R224) -/

/-- The task that publishes: task 0 of half A's graph 0. -/
def publisher : TaskRef := { half := .a, graph := 0, task := 0 }

/-- A far address in the window that half B, endpoint 1, lends. -/
def lentAddr : Nat := 3 * 2 ^ 60 + 2 ^ 44

/-- The context of a publication of one block into that window, its reserve answered and its one write under way (R212). -/
def publishing : TaskCtx :=
  { freshCtx { index := 0, job := 9, operands := 0, gated := false, fnbValid := false, cls := 0, type := 7, fnbTide := 0, outList := 0,
               outCount := 0, inTokens := 0, shapeOutCount := 0, shapeOutBase := 0, shapeInBase := 0, coveUnits := 0, banks := 0,
               clusterMask := 0, cores := 0, slots := [], params := [0, 0, BitVec.ofNat 64 lentAddr, 0] } [] with
    phase := .running, fired := true, stage := 3, sent := 1 }

/-- Its graph. -/
def publishingGraph : Graph :=
  { job := 9, slot := 0, step := 0, source := .queue 0, header := 0, depth := 1, launcher := none, queue := none, ringBase := 0, ringLog2 := 6,
    tail := 0, phase := true, held := 0, head := 0, ringFaultLogged := false, tasks := [publishing] }

/-- Its write, which holds tag 5. -/
def publishingWrite : Request := farRequest (some publisher) 0x12 lentAddr 1 [0]

/-- A block whose half A runs that publication: the Isthmus is Up and routes to endpoint 1, the census is complete, and the tags that
half A issues have come round to tag 5, which the write holds still (R224). -/
def publishingBlock : Block :=
  { Block.reset with
    regs := [(efReg .a 0x8001, 0x99)]
    domain := { Block.reset.domain with roster := [0] }
    halfA := { Half.reset with
      graphs := [(0, publishingGraph)]
      tiers := { Tiers.reset with tags := [(5, publishingWrite)], nextTag := 5 }
      efing := { Half.reset.efing with census := 2, ports := List.replicate 9 Port.reset ++ [{ Port.reset with st := 2 }] } } }

/-- The lender's error response to the write, as half B makes it. -/
def writeRefused : Packet := (publishingBlock.makePacket .b 0 9 1 0x12 5 stFarFail 0 []).1

/-- The response returns tag 5, the publication fails, and the FAR_ABORT it owes its lender takes tag 5 (R212, R224). -/
theorem writeRefused_reissues_tag : ∀ t, exec (.response .a writeRefused) { block := publishingBlock, pending := [] } = .next t →
    (tabFind (t.block.tiers .a).tags (pkTag writeRefused)).isSome = true := by
  intro t ht
  rw [← Host.Outcome.next.inj ht]
  decide +kernel

/-- Refutes O28, in its last clause: the error response to a publication's write returns the write's tag, but in the same step the FAR_ABORT of
the failed publication takes that tag again, so that it is not free after the step. -/
theorem not_localMemoryPackets : ¬ Obligations.LocalMemoryPackets := by
  unfold Obligations.LocalMemoryPackets
  rintro ⟨-, -, -, -, -, -, hfailed⟩
  have hadmits : Admits publishingBlock .a writeRefused 1 [0x01, 0x02, 0x03, 0x10, 0x11, 0x12, 0x13, 0x14, 0x15, 0x16] := by
    simp only [Admits]; decide +kernel
  obtain ⟨t, hexec, -, hfree, -⟩ := hfailed { block := publishingBlock, pending := [] } .a writeRefused publishingWrite publisher
    publishingGraph publishing stFarFail hadmits (by decide +kernel) (by decide +kernel) (by decide +kernel) rfl (by decide +kernel)
    (by decide +kernel) rfl rfl rfl rfl
  have hheld := writeRefused_reissues_tag t hexec
  simp [hfree] at hheld

end Sys2Proof.Machine

/-! PROOFS. Slots, queue pairs and links (R40, R306, R404), and the reset state: what each of the model's operations does to a block's
layout, from these that every step keeps it but for a start anew, and the two invariants. The reset state (R339, R458, R489) is last. -/

namespace Sys2Proof.Machine

/-! ## A block's layout and the model's operations -/

/-- What nearly every step keeps of a block: of each job slot its state and its job, and how many queue pairs and links there are. -/
structure Layout where
  slots : List (Nat × Nat)
  pairs : Nat
  portsA : Nat
  portsB : Nat

/-- The layout of a block. -/
def Block.layout (b : Block) : Layout :=
  { slots := b.slots.map (fun s => (s.st, s.job)), pairs := b.pairs.length, portsA := b.halfA.efing.ports.length,
    portsB := b.halfB.efing.ports.length }

@[simp] theorem length_listMod {α : Type} (l : List α) (i : Nat) (f : α → α) : (listMod l i f).length = l.length := by
  induction l generalizing i with
  | nil => rfl
  | cons x xs ih => cases i <;> simp [listMod, ih]

/-- An update of none of the four parts. -/
@[simp] theorem layout_update (e : Block) (regs mem fill bad hostMem sys image flash zilsy power domain out n) :
    Block.layout ⟨e.halfA, e.halfB, regs, mem, fill, bad, hostMem, e.slots, e.pairs, sys, image, flash, zilsy, power, domain, out, n⟩ =
      e.layout := rfl

/-- A half of as many links. -/
@[simp] theorem Block.modHalf_layout (b : Block) (h : HalfId) (f : Half → Half)
    (hf : ∀ x, (f x).efing.ports.length = x.efing.ports.length) : (b.modHalf h f).layout = b.layout := by
  cases h <;> simp [Block.modHalf, Block.setHalf, Block.layout, Block.half, hf]

/-- Slots changed in neither state nor job. -/
theorem Block.modSlot_layout (b : Block) (k : Nat) (f : JobSlot → JobSlot) (hf : ∀ s, (f s).st = s.st ∧ (f s).job = s.job) :
    (b.modSlot k f).layout = b.layout := by
  simp [Block.modSlot, Block.layout, listMod_map (fun s : JobSlot => (s.st, s.job)) f (fun s => Prod.ext (hf s).1 (hf s).2)]

@[simp] theorem Block.layout_ite (p : Prop) [Decidable p] (x y : Block) : (if p then x else y).layout = if p then x.layout else y.layout := by
  split <;> rfl

@[simp] theorem Block.layout_foldl {α : Type} (f : Block → α → Block) (hf : ∀ b x, (f b x).layout = b.layout) (l : List α) (b : Block) :
    (l.foldl f b).layout = b.layout := by
  induction l generalizing b with
  | nil => rfl
  | cons x xs ih => rw [List.foldl_cons, ih, hf]

theorem Block.layout_of_ite {x y z : Block} {p : Prop} [Decidable p] (hx : x.layout = z.layout) (hy : y.layout = z.layout) :
    (if p then x else y).layout = z.layout := by
  split
  · exact hx
  · exact hy

/-! ### Ops -/

@[simp] theorem Block.setSys_layout (b : Block) (x : Sys) : (b.setSys x).layout = b.layout := by
  simp [Block.setSys]

@[simp] theorem Block.setImage_layout (b : Block) (x : Image) : (b.setImage x).layout = b.layout := by
  simp [Block.setImage]

@[simp] theorem Block.setFlash_layout (b : Block) (x : Flash) : (b.setFlash x).layout = b.layout := by
  simp [Block.setFlash]

@[simp] theorem Block.setZilsy_layout (b : Block) (x : Zilsy) : (b.setZilsy x).layout = b.layout := by
  simp [Block.setZilsy]

@[simp] theorem Block.setPower_layout (b : Block) (x : Power) : (b.setPower x).layout = b.layout := by
  simp [Block.setPower]

@[simp] theorem Block.setDomain_layout (b : Block) (x : Domain) : (b.setDomain x).layout = b.layout := by
  simp [Block.setDomain]

@[simp] theorem Block.setReg_layout (b : Block) (a : Nat) (v : Word) : (b.setReg a v).layout = b.layout := by
  simp [Block.setReg]

@[simp] theorem Block.modReg_layout (b : Block) (a : Nat) (f : Word → Word) : (b.modReg a f).layout = b.layout := by
  simp [Block.modReg]

@[simp] theorem Block.count_layout (b : Block) (a hi lo n : Nat) : (b.count a hi lo n).layout = b.layout := by
  simp [Block.count]

@[simp] theorem Block.setRegFld_layout (b : Block) (a hi lo v : Nat) : (b.setRegFld a hi lo v).layout = b.layout := by
  simp [Block.setRegFld]

@[simp] theorem Block.store_layout (b : Block) (a : Nat) (l : List Byte) : (b.store a l).layout = b.layout := by
  simp [Block.store]

@[simp] theorem Block.storeCells_layout (b : Block) (l : List Host.Cell) : (b.storeCells l).layout = b.layout := by
  induction l generalizing b <;> simp_all [Block.storeCells]

@[simp] theorem Block.hostStore_layout (b : Block) (a : Nat) (l : List Byte) : (b.hostStore a l).layout = b.layout := by
  simp [Block.hostStore]

@[simp] theorem Block.hostAnnounce_layout (b : Block) (l : List (Nat × Byte)) : (b.hostAnnounce l).layout = b.layout := by
  simp [Block.hostAnnounce]

@[simp] theorem Block.zilsyLog_layout (b : Block) (r : LogRecord) : (b.zilsyLog r).layout = b.layout := by
  simp only [Block.zilsyLog]
  (repeat' split) <;> simp

@[simp] theorem Block.log_layout (b : Block) (e : Event) : (b.log e).layout = b.layout := by
  simp [Block.log]

@[simp] theorem Block.logPermission_layout (b : Block) (needed keyId job : Nat) : (b.logPermission needed keyId job).layout = b.layout := by
  simp [Block.logPermission]

@[simp] theorem Block.logRefused_layout (b : Block) (h : HalfId) (what value status kind index job : Nat) :
    (b.logRefused h what value status kind index job).layout = b.layout := by
  simp [Block.logRefused]

@[simp] theorem Block.appendAudit_layout (b : Block) (a : Actor) (c : Change) (recovered : Bool) :
    (b.appendAudit a c recovered).layout = b.layout := by
  simp [Block.appendAudit]

@[simp] theorem Block.audited_layout (b : Block) (a : Actor) (c : Change) (f : Block → Block) (hf : ∀ x : Block, (f x).layout = x.layout) :
    (b.audited a c f).1.layout = b.layout := by
  unfold Block.audited
  (repeat' split) <;> simp_all

@[simp] theorem Block.emit_layout (b : Block) (o : Out) : (b.emit o).layout = b.layout := by
  simp [Block.emit]

@[simp] theorem Block.raise_layout (b : Block) (vec : Nat) : (b.raise vec).layout = b.layout := by
  simp [Block.raise]

@[simp] theorem Block.moduleEvent_layout (b : Block) (i : Nat) : (b.moduleEvent i).layout = b.layout := by
  simp [Block.moduleEvent]

@[simp] theorem Block.fresh_layout (b : Block) : (b.fresh).2.layout = b.layout := by
  simp [Block.fresh]

@[simp] theorem Block.tick_layout (b : Block) : (b.tick).layout = b.layout := by
  unfold Block.tick
  cases b.sys.powerGood <;> rfl

/-! ### Authority -/

@[simp] theorem Block.useNonce_layout (b : Block) (n : Nat) : (b.useNonce n).layout = b.layout := by
  simp [Block.useNonce]

@[simp] theorem Block.setWords_layout (b : Block) (a : Nat) (l : List Word) : (b.setWords a l).layout = b.layout := by
  induction l generalizing b a <;> simp_all [Block.setWords]

@[simp] theorem Block.reply_layout (b : Block) (c : Channel) (status detail : Nat) (data : List Byte) :
    (b.reply c status detail data).layout = b.layout := by
  simp [Block.reply]

@[simp] theorem Answer.sent_layout (a : Answer) (c : Channel) : (a.sent c).layout = a.block.layout := by
  simp [Answer.sent]

@[simp] theorem Block.refuse_layout (b : Block) (what value detail : Nat) : (b.refuse what value detail).block.layout = b.layout := by
  simp [Block.refuse]

@[simp] theorem Block.refuseRole_layout (b : Block) (needed keyId : Nat) : (b.refuseRole needed keyId).block.layout = b.layout := by
  simp [Block.refuseRole]

@[simp] theorem Block.accept_layout (b : Block) : (b.accept).block.layout = b.layout := by
  simp [Block.accept]

@[simp] theorem Block.command_layout (b : Block) (m : Envelope) (roles : List Nat) (needed : Nat) (f : Actor → Block → Answer) (hf : ∀ a
    (x : Block), (f a x).block.layout = x.layout) :
    (b.command m roles needed f).layout = b.layout := by
  unfold Block.command
  (repeat' split) <;> simp_all

@[simp] theorem Block.byPath_layout (b : Block) (p : Path) (roles : List Nat) (needed : Nat) (f : Actor → Block → Answer) (hf : ∀ a (x : Block),
    (f a x).block.layout = x.layout) :
    (b.byPath p roles needed f).layout = b.layout := by
  unfold Block.byPath
  (repeat' split) <;> simp_all

@[simp] theorem Block.auditedAnswer_layout (b : Block) (a : Actor) (c : Change) (f : Block → Block) (hf : ∀ x : Block, (f x).layout = x.layout) :
    (b.auditedAnswer a c f).block.layout = b.layout := by
  unfold Block.auditedAnswer
  simp_all

/-! ### Errors -/

@[simp] theorem Block.setUsable_layout (b : Block) (h : HalfId) : (b.setUsable h).layout = b.layout := by
  simp [Block.setUsable]

@[simp] theorem Block.pendChannel_layout (b : Block) (h : HalfId) (ch cause : Nat) : (b.pendChannel h ch cause).layout = b.layout := by
  simp [Block.pendChannel]

@[simp] theorem Block.checkChannel_layout (b : Block) (h : HalfId) (ch : Nat) : (b.checkChannel h ch).layout = b.layout := by
  simp [Block.checkChannel]

@[simp] theorem Block.noteUe_layout (b : Block) (a : Nat) : (b.noteUe a).layout = b.layout := by
  simp only [Block.noteUe]
  (repeat' split) <;> simp

@[simp] theorem Block.noteTierCe_layout (b : Block) (h : HalfId) (tier : Nat) : (b.noteTierCe h tier).layout = b.layout := by
  simp [Block.noteTierCe]

@[simp] theorem Block.noteCe_layout (b : Block) (a : Nat) : (b.noteCe a).layout = b.layout := by
  simp only [Block.noteCe]
  (repeat' split) <;> simp

/-! ### Operands -/

@[simp] theorem Block.landCells_layout (b : Block) (cells : List Host.Cell) : (b.landCells cells).1.layout = b.layout := by
  simp [Block.landCells]

@[simp] theorem Block.landLines_layout (b : Block) (cells : List Host.Cell) : (b.landLines cells).1.layout = b.layout := by
  simp [Block.landLines]

/-! ### Frames -/

@[simp] theorem Block.modTiers_layout (b : Block) (h : HalfId) (f : Tiers → Tiers) : (b.modTiers h f).layout = b.layout := by
  simp [Block.modTiers]

@[simp] theorem Block.zeroFrame_layout (b : Block) (f size : Nat) : (b.zeroFrame f size).layout = b.layout := by
  simp [Block.zeroFrame]

@[simp] theorem Block.zeroFrames_layout (b : Block) (size : Nat) (l : List Nat) : (b.zeroFrames size l).layout = b.layout := by
  induction l generalizing b size <;> simp_all [Block.zeroFrames]

@[simp] theorem Block.freeFrame_layout (b : Block) (f : Nat) : (b.freeFrame f).layout = b.layout := by
  simp [Block.freeFrame]

@[simp] theorem Block.freeFrames_layout (b : Block) (l : List Nat) : (b.freeFrames l).layout = b.layout := by
  induction l generalizing b <;> simp_all [Block.freeFrames]

@[simp] theorem Block.removePage_layout (b : Block) (k key : Nat) : (b.removePage k key).layout = b.layout :=
  b.modSlot_layout k _ (fun _ => ⟨rfl, rfl⟩)

@[simp] theorem Block.removePages_layout (b : Block) (k : Nat) (l : List Nat) : (b.removePages k l).layout = b.layout := by
  induction l generalizing b k <;> simp_all [Block.removePages]

@[simp] theorem Block.addPages_layout (b : Block) (k : Nat) (l : List (Nat × Page)) : (b.addPages k l).layout = b.layout := by
  induction l generalizing b with
  | nil => rfl
  | cons p ps ih => rw [Block.addPages, ih]; exact b.modSlot_layout k _ (fun _ => ⟨rfl, rfl⟩)

@[simp] theorem Block.modObject_layout (b : Block) (handle : Nat) (f : CacheObject → CacheObject) : (b.modObject handle f).layout = b.layout := by
  simp only [Block.modObject]
  (repeat' split) <;> simp

@[simp] theorem Block.freeObject_layout (b : Block) (handle : Nat) : (b.freeObject handle).layout = b.layout := by
  simp only [Block.freeObject]
  (repeat' split) <;> simp

@[simp] theorem Block.reapObject_layout (b : Block) (handle : Nat) : (b.reapObject handle).layout = b.layout := by
  simp only [Block.reapObject]
  (repeat' split) <;> simp

@[simp] theorem Block.reapObjects_layout (b : Block) (l : List Nat) : (b.reapObjects l).layout = b.layout := by
  induction l generalizing b <;> simp_all [Block.reapObjects]

@[simp] theorem Block.dropMapping_layout (b : Block) (handle : Nat) (m : Nat × Nat) : (b.dropMapping handle m).layout = b.layout := by
  simp only [Block.dropMapping]
  (repeat' split) <;> simp

@[simp] theorem Block.dropMappings_layout (b : Block) (handle : Nat) (l : List (Nat × Nat)) : (b.dropMappings handle l).layout = b.layout := by
  induction l generalizing b handle <;> simp_all [Block.dropMappings]

@[simp] theorem Block.unmapObject_layout (b : Block) (handle : Nat) : (b.unmapObject handle).layout = b.layout := by
  simp only [Block.unmapObject]
  (repeat' split) <;> simp

/-- Pages are allocated out of a half's pool, whose objects may be evicted. -/
theorem Block.allocPool_layout {b z : Block} {h : HalfId} {tier : Nat} {big : Bool} {owner n fuel : Nat} {frames : List Nat}
    (e : b.allocPool h tier big owner n fuel = .ok frames z) : z.layout = b.layout := by
  induction fuel generalizing b with
  | zero => cases e
  | succ k ih =>
    rw [Block.allocPool] at e
    split at e
    · cases e; simp
    · split at e
      · cases e
      · rw [ih e, Block.unmapObject_layout]

theorem Block.allocFrames_layout {b z : Block} {h : HalfId} {tier : Nat} {big : Bool} {owner n : Nat} {frames : List Nat}
    (e : b.allocFrames h tier big owner n = .ok frames z) : z.layout = b.layout := by
  rw [Block.allocFrames] at e
  split at e
  · split at e <;> cases e
    simp
  · exact Block.allocPool_layout e

theorem Block.allocate_layout {b z : Block} {h : HalfId} {tier k : Nat} {big : Bool} {owner n : Nat} {frames : List Nat}
    (e : b.allocate h tier k big owner n = .ok frames z) : z.layout = b.layout := by
  grind [Block.allocate, Block.allocPool_layout, Block.modTiers_layout]

@[simp] theorem Block.refObject_layout (b : Block) (t : TaskRef) (handle : Nat) : (b.refObject t handle).layout = b.layout := by
  simp [Block.refObject]

@[simp] theorem Block.refObjects_layout (b : Block) (t : TaskRef) (l : List Nat) : (b.refObjects t l).layout = b.layout := by
  induction l generalizing b t <;> simp_all [Block.refObjects]

@[simp] theorem Block.dropRefs_layout (b : Block) (t : TaskRef) : (b.dropRefs t).layout = b.layout := by
  simp [Block.dropRefs]

/-! ### Rings -/

@[simp] theorem Block.modGraph_layout (b : Block) (h : HalfId) (i : Nat) (f : Graph → Graph) : (b.modGraph h i f).layout = b.layout := by
  simp only [Block.modGraph]
  (repeat' split) <;> simp

@[simp] theorem Block.modTask_layout (b : Block) (t : TaskRef) (f : TaskCtx → TaskCtx) : (b.modTask t f).layout = b.layout := by
  simp [Block.modTask]

@[simp] theorem Block.fix_layout (b : Block) (t : TaskRef) (status detail : Nat) : (b.fix t status detail).layout = b.layout := by
  simp only [Block.fix]
  (repeat' split) <;> simp

@[simp] theorem Block.fixStop_layout (b : Block) (t : TaskRef) (l : Stop) : (b.fixStop t l).layout = b.layout := by
  simp only [Block.fixStop]
  (repeat' split) <;> simp

@[simp] theorem Block.modPair_layout (b : Block) (q : Nat) (f : QueuePair → QueuePair) : (b.modPair q f).layout = b.layout := by
  simp [Block.modPair, Block.layout]

@[simp] theorem Block.signalQueue_layout (b : Block) (q : Nat) : (b.signalQueue q).layout = b.layout := by
  simp [Block.signalQueue]

@[simp] theorem Block.coalesce_layout (b : Block) (q : Nat) : (b.coalesce q).layout = b.layout := by
  simp [Block.coalesce]

theorem Block.cqPush_layout (b : Block) (q : Nat) (entry : Bool → List Byte) (atOnce : Bool) :
    ∀ z, b.cqPush q entry atOnce = some z → z.layout = b.layout := by
  simp [Block.cqPush]

@[simp] theorem Block.setShape_layout (b : Block) (h : HalfId) (k i v : Nat) : (b.setShape h k i v).layout = b.layout := by
  simp [Block.setShape]

@[simp] theorem Block.setShapes_layout (b : Block) (h : HalfId) (k i : Nat) (l : List Nat) : (b.setShapes h k i l).layout = b.layout := by
  induction l generalizing b h k i <;> simp_all [Block.setShapes]

@[simp] theorem Block.setPairShapes_layout (b : Block) (h : HalfId) (k base : Nat) (l : List Nat) :
    (b.setPairShapes h k base l).layout = b.layout := by
  induction l generalizing b h k base <;> simp_all [Block.setPairShapes]

@[simp] theorem Block.writeShapes_layout (b : Block) (t : TaskRef) (g : Graph) (c : TaskCtx) : (b.writeShapes t g c).layout = b.layout := by
  simp [Block.writeShapes]

@[simp] theorem Block.mergeStat_layout (b : Block) (h : HalfId) (k : Nat) (s : StatCapture) : (b.mergeStat h k s).layout = b.layout := by
  simp [Block.mergeStat]

@[simp] theorem Block.mergeStats_layout (b : Block) (t : TaskRef) (g : Graph) (c : TaskCtx) : (b.mergeStats t g c).layout = b.layout := by
  simp [Block.mergeStats]

@[simp] theorem Block.logAborted_layout (b : Block) (detail : Nat) (t : TaskRef) : (b.logAborted detail t).layout = b.layout := by
  simp [Block.logAborted]

@[simp] theorem Block.sendTokens_layout (b : Block) (t : TaskRef) (c : TaskCtx) : (b.sendTokens t c).layout = b.layout := by
  simp [Block.sendTokens]

@[simp] theorem Block.tellLauncher_layout (b : Block) (l : TaskRef) (gid stage : Nat) : (b.tellLauncher l gid stage).layout = b.layout := by
  simp [Block.tellLauncher]

@[simp] theorem Block.closeGraph_layout (b : Block) (h : HalfId) (gid : Nat) : (b.closeGraph h gid).layout = b.layout := by
  simp only [Block.closeGraph]
  (repeat' split) <;> simp

@[simp] theorem Block.afterRecord_layout (b : Block) (t : TaskRef) (c : TaskCtx) : (b.afterRecord t c).layout = b.layout := by
  simp [Block.afterRecord]

theorem Block.tryRecord_layout (b : Block) (t : TaskRef) : ∀ z, b.tryRecord t = .written z → z.layout = b.layout := by
  intro z e
  unfold Block.tryRecord at e
  split at e
  · split at e
    · split at e
      · next hpush => cases e; exact Block.cqPush_layout _ _ _ _ _ hpush
      · cases e
    · dsimp only at e
      split at e
      · cases e
      · split at e <;> cases e
        simp
  · cases e

@[simp] theorem Block.finishRecord_layout (b : Block) (t : TaskRef) : (b.finishRecord t).layout = b.layout := by
  unfold Block.finishRecord
  split
  · split
    · next e => rw [Block.afterRecord_layout, Block.tryRecord_layout b t _ e]
    · simp
    · simp
  · rfl

/-! ### Net -/

@[simp] theorem Block.makePacket_layout (b : Block) (h : HalfId) (dest job cls op tag w2 block : Nat) (payload : List Byte) :
    (b.makePacket h dest job cls op tag w2 block payload).2.layout = b.layout := by
  simp [Block.makePacket]

@[simp] theorem Block.modPort_layout (b : Block) (h : HalfId) (x : Nat) (f : Port → Port) : (b.modPort h x f).layout = b.layout := by
  simp [Block.modPort]

@[simp] theorem Block.linkSend_layout (b : Block) (h : HalfId) (x : Nat) (p : Packet) : (b.linkSend h x p).layout = b.layout := by
  simp [Block.linkSend]

@[simp] theorem Block.drainLink_layout (b : Block) (h : HalfId) (x l : Nat) : (b.drainLink h x l).layout = b.layout := by
  fun_induction Block.drainLink <;> simp_all

@[simp] theorem Block.sendBy_layout (b : Block) (h : HalfId) (x : Nat) (p : Packet) : (b.sendBy h x p).layout = b.layout := by
  simp [Block.sendBy]

@[simp] theorem Block.routeOut_layout (b : Block) (h : HalfId) (p : Packet) : (b.routeOut h p).layout = b.layout := by
  simp only [Block.routeOut]
  (repeat' split) <;> simp

@[simp] theorem Block.holdDest_layout (b old : Block) (h : HalfId) (again : Bool) (dest : Nat) :
    (b.holdDest old h again dest).layout = b.layout := by
  simp [Block.holdDest]

@[simp] theorem Block.holdDests_layout (b old : Block) (h : HalfId) (again : Bool) (l : List Nat) :
    (b.holdDests old h again l).layout = b.layout := by
  fun_induction Block.holdDests <;> simp_all

@[simp] theorem Block.rerouted_layout (b old : Block) (h : HalfId) (again : Bool) : (b.rerouted old h again).layout = b.layout := by
  simp [Block.rerouted]

@[simp] theorem Block.send_layout (b : Block) (h : HalfId) (dest job cls op tag w2 block : Nat) (payload : List Byte) :
    (b.send h dest job cls op tag w2 block payload).layout = b.layout := by
  simp [Block.send]

@[simp] theorem Block.respond_layout (b : Block) (h : HalfId) (p : Packet) (status : Nat) (data : List Byte) :
    (b.respond h p status data).layout = b.layout := by
  simp [Block.respond]

@[simp] theorem Block.manage_layout (b : Block) (h : HalfId) (dest op : Nat) (payload : List Byte) :
    (b.manage h dest op payload).layout = b.layout := by
  simp [Block.manage]

@[simp] theorem Block.tellLeader_layout (b : Block) (h : HalfId) (op : Nat) (payload : List Byte) :
    (b.tellLeader h op payload).layout = b.layout := by
  simp only [Block.tellLeader]
  (repeat' split) <;> simp

@[simp] theorem Block.countCut_layout (b : Block) (h : HalfId) (cut dest n : Nat) : (b.countCut h cut dest n).layout = b.layout := by
  simp only [Block.countCut]
  (repeat' split) <;> simp

@[simp] theorem Block.takeSeq_layout (b : Block) (h : HalfId) (p : Packet) : (b.takeSeq h p).layout = b.layout := by
  simp [Block.takeSeq]

@[simp] theorem Block.control_layout (b : Block) (h : HalfId) (x kind cls n lstate : Nat) :
    (b.control h x kind cls n lstate).layout = b.layout := by
  simp [Block.control]

@[simp] theorem Block.unbuffer_layout (b : Block) (h : HalfId) (p : Packet) : (b.unbuffer h p).layout = b.layout := by
  simp only [Block.unbuffer]
  (repeat' split) <;> simp

@[simp] theorem Block.receive_layout (b : Block) (h : HalfId) (p : Packet) (cls : Nat) (ops : List Nat) (f : Block → Block) (hf : ∀ x : Block,
    (f x).layout = x.layout) :
    (b.receive h p cls ops f).layout = b.layout := by
  unfold Block.receive
  (repeat' split) <;> simp_all

/-! ### Steps -/

@[simp] theorem Block.syncStep_layout (b : Block) (h : HalfId) (k : Nat) : (b.syncStep h k).layout = b.layout := by
  simp only [Block.syncStep]
  (repeat' split) <;> simp

@[simp] theorem Block.modStep_layout (b : Block) (h : HalfId) (k step : Nat) (f : StepRecord → StepRecord) :
    (b.modStep h k step f).layout = b.layout := by
  simp [Block.modStep]

@[simp] theorem Block.openStep_layout (b : Block) (h : HalfId) (k step : Nat) : (b.openStep h k step).layout = b.layout := by
  simp [Block.openStep]

@[simp] theorem Block.clearEnergy_layout (b : Block) (k : Nat) : (b.clearEnergy k).layout = b.layout := by
  simp [Block.clearEnergy]

@[simp] theorem Block.closeEnergy_layout (b : Block) (k step : Nat) : (b.closeEnergy k step).layout = b.layout := by
  simp [Block.closeEnergy]

@[simp] theorem Block.noteEnd_layout (b : Block) (h : HalfId) (k step status detail : Nat) :
    (b.noteEnd h k step status detail).layout = b.layout := by
  simp [Block.noteEnd]

@[simp] theorem Block.noteNf_layout (b : Block) (h : HalfId) (k step origin : Nat) : (b.noteNf h k step origin).layout = b.layout := by
  simp [Block.noteNf]

@[simp] theorem Block.stepAdmit_layout (b : Block) (h : HalfId) (w : WaitingGraph) : (b.stepAdmit h w).layout = b.layout := by
  simp [Block.stepAdmit]

/-! ### Saffron -/

@[simp] theorem Block.settle_layout (b : Block) (t : TaskRef) : (b.settle t).layout = b.layout := by
  simp only [Block.settle]
  (repeat' split) <;> simp

@[simp] theorem Block.settleAll_layout (b : Block) (l : List TaskRef) : (b.settleAll l).layout = b.layout := by
  induction l generalizing b <;> simp_all [Block.settleAll]

@[simp] theorem Block.admitTo_layout (b : Block) (h : HalfId) (gid : Nat) (g : Graph) : (b.admitTo h gid g).layout = b.layout := by
  simp [Block.admitTo]

@[simp] theorem Block.endLaunch_layout (b : Block) (t : TaskRef) (status detail : Nat) : (b.endLaunch t status detail).layout = b.layout := by
  unfold Block.endLaunch
  split
  · rfl
  · split
    · refine (Block.modSlot_layout _ _ _ ?_).trans ?_
      · exact fun _ => ⟨rfl, rfl⟩
      · split <;> simp
    · simp

theorem Block.report_layout (b : Block) (h : HalfId) (w : WaitingGraph) (status gid badTask badOffset : Nat) :
    ∀ z, b.report h w status gid badTask badOffset = some z → z.layout = b.layout := by
  intro z e
  unfold Block.report at e
  split at e
  · split at e
    · exact Block.cqPush_layout b _ _ _ z e
    · cases e; rfl
  · cases e; simp
  · split at e
    · cases e; rfl
    · split at e <;> cases e <;> simp

@[simp] theorem Block.enqueue_layout (b : Block) (h : HalfId) (w : WaitingGraph) : (b.enqueue h w).layout = b.layout := by
  simp [Block.enqueue]

theorem Block.submit_layout (b : Block) (h : HalfId) (member va : Nat) (src : SourceId) (depth : Nat) (launcher : Option TaskRef)
    (tag sqIndex : Nat) :
    ∀ z, b.submit h member va src depth launcher tag sqIndex = some z → z.layout = b.layout := by
  intro z e
  simp only [Block.submit] at e
  split at e
  · cases e; simp
  · split at e
    · cases e; simp
    · exact Block.report_layout b _ _ _ _ _ _ z e

@[simp] theorem Block.dequeue_layout (b : Block) (h : HalfId) (w : WaitingGraph) : (b.dequeue h w).layout = b.layout := by
  simp [Block.dequeue]

@[simp] theorem Block.checkSource_layout (b : Block) (h : HalfId) (src : SourceId) (l : Nat) : (b.checkSource h src l).layout = b.layout := by
  induction l generalizing b with
  | zero => rfl
  | succ n ih =>
    unfold Block.checkSource
    split
    · rfl
    · split
      · rfl
      · split
        · simp
        · split
          · next e => rw [ih, Block.report_layout _ _ _ _ _ _ _ _ e, Block.dequeue_layout]
          · rfl

@[simp] theorem Block.checkHead_layout (b : Block) (h : HalfId) (src : SourceId) : (b.checkHead h src).layout = b.layout := by
  simp [Block.checkHead]

theorem Block.layout_getD {b c : Block} {x : Option Block} (hx : ∀ z, x = some z → z.layout = c.layout) (hc : c.layout = b.layout) :
    (x.getD b).layout = b.layout := by
  cases x with
  | none => rfl
  | some z => exact (hx z rfl).trans hc

@[simp] theorem Block.admitHead_layout (b : Block) (h : HalfId) (w : WaitingGraph) (gid : Nat) : (b.admitHead h w gid).layout = b.layout := by
  unfold Block.admitHead
  split
  · split
    · simp
    · exact (Block.layout_getD (Block.report_layout _ _ _ _ _ _ _) (by simp))
  · split
    · rfl
    · dsimp only
      split
      · simp
      · exact (Block.layout_getD (Block.report_layout _ _ _ _ _ _ _) (by simp))

@[simp] theorem Block.deliver_layout (b : Block) (t : TaskRef) (cancel : Option Nat) : (b.deliver t cancel).layout = b.layout := by
  simp only [Block.deliver]
  (repeat' split) <;> simp

@[simp] theorem Block.addStalls_layout (b : Block) (l : List StallCount) : (b.addStalls l).layout = b.layout := by
  induction l generalizing b <;> simp_all [Block.addStalls]

@[simp] theorem Block.endConsumer_layout (b : Block) (t : TaskRef) : (b.endConsumer t).layout = b.layout := by
  simp only [Block.endConsumer]
  (repeat' split) <;> simp

@[simp] theorem Block.failConsumers_layout (b : Block) (t : TaskRef) (g : Graph) : (b.failConsumers t g).layout = b.layout := by
  simp [Block.failConsumers]

@[simp] theorem Block.retryRecord_layout (b : Block) (t : TaskRef) : (b.retryRecord t).layout = b.layout := by
  unfold Block.retryRecord
  split
  · rfl
  · split
    · split
      · next e => rw [Block.afterRecord_layout, Block.modReg_layout, Block.tryRecord_layout b t _ e]
      · rfl
      · rfl
    · rfl

@[simp] theorem Block.retryRecords_layout (b : Block) (l : List TaskRef) : (b.retryRecords l).layout = b.layout := by
  induction l generalizing b <;> simp_all [Block.retryRecords]

@[simp] theorem Block.writeGraphHead_layout (b : Block) (h : HalfId) (gid v : Nat) : (b.writeGraphHead h gid v).layout = b.layout := by
  simp only [Block.writeGraphHead]
  (repeat' split) <;> simp

@[simp] theorem Block.onRunning_layout (b : Block) (t : TaskRef) (ty : Nat) (f : Graph → TaskCtx → Block) (hf : ∀ u0 u1,
    (f u0 u1).layout = b.layout) :
    (b.onRunning t ty f).layout = b.layout := by
  unfold Block.onRunning
  (repeat' split) <;> simp_all

/-! ### Far -/

@[simp] theorem Block.applyUpset_layout (b : Block) (a : Nat) (l : Upset) : (b.applyUpset a l).layout = b.layout := by
  simp only [Block.applyUpset]
  (repeat' split) <;> simp

@[simp] theorem Block.deliverFar_layout (b : Block) (t : TaskRef) (addr : Nat) (l : List Byte) : (b.deliverFar t addr l).layout = b.layout := by
  simp [Block.deliverFar]

@[simp] theorem Block.holdTag_layout (b : Block) (h : HalfId) (tag : Nat) (r : Request) : (b.holdTag h tag r).layout = b.layout := by
  simp [Block.holdTag]

theorem Block.serve_layout (b : Block) (r : Request) :
    (∀ z l, b.serve r = .done z l → z.layout = b.layout) ∧ ∀ z l, b.serve r = .failed z l → z.layout = b.layout := by
  simp only [Block.serve]
  (repeat' split) <;> simp

@[simp] theorem Block.serveHere_layout (b : Block) (h : HalfId) (tag : Nat) (r : Request) : (b.serveHere h tag r).layout = b.layout := by
  unfold Block.serveHere
  split
  · next e => split <;> simp [(Block.serve_layout b r).2 _ _ e]
  · next e => simp [(Block.serve_layout b r).1 _ _ e]

@[simp] theorem Block.cross_layout (b : Block) (h : HalfId) (tag : Nat) (r : Request) : (b.cross h tag r).layout = b.layout := by
  simp [Block.cross]

@[simp] theorem Block.launchHome_layout (b : Block) (h : HalfId) (tag : Nat) (r : Request) : (b.launchHome h tag r).layout = b.layout := by
  simp [Block.launchHome]

@[simp] theorem Block.launch_layout (b : Block) (h : HalfId) (tag : Nat) (r : Request) : (b.launch h tag r).layout = b.layout := by
  simp only [Block.launch]
  (repeat' split) <;> simp

@[simp] theorem Block.await_layout (b : Block) (h : HalfId) (r : Request) : (b.await h r).layout = b.layout := by
  simp [Block.await]

@[simp] theorem Block.grant_layout (b : Block) (h : HalfId) (r : Request) : (b.grant h r).layout = b.layout := by
  simp only [Block.grant]
  (repeat' split) <;> simp

@[simp] theorem Block.abortPublication_layout (b : Block) (h : HalfId) (job : Nat) (d : TaskDesc) :
    (b.abortPublication h job d).layout = b.layout := by
  simp [Block.abortPublication]

@[simp] theorem Block.fixAll_layout (b : Block) (st det : Nat) (l : List TaskRef) : (b.fixAll st det l).layout = b.layout := by
  induction l generalizing b st det <;> simp_all [Block.fixAll]

@[simp] theorem Block.fail_layout (b : Block) (t : TaskRef) (st det : Nat) : (b.fail t st det).layout = b.layout := by
  simp only [Block.fail]
  (repeat' split) <;> simp

@[simp] theorem Block.failStop_layout (b : Block) (t : TaskRef) (l : Stop) : (b.failStop t l).layout = b.layout := by
  simp only [Block.failStop]
  (repeat' split) <;> simp

@[simp] theorem Block.refuseIssue_layout (b : Block) (r : Request) : (b.refuseIssue r).layout = b.layout := by
  simp only [Block.refuseIssue]
  (repeat' split) <;> simp

@[simp] theorem Block.issue_layout (b : Block) (h : HalfId) (r : Request) : (b.issue h r).layout = b.layout := by
  simp only [Block.issue]
  (repeat' split) <;> simp

@[simp] theorem Block.issueAll_layout (b : Block) (h : HalfId) (l : List Request) : (b.issueAll h l).layout = b.layout := by
  induction l generalizing b h <;> simp_all [Block.issueAll]

@[simp] theorem Block.askFar_layout (b : Block) (t : TaskRef) (addr len : Nat) : (b.askFar t addr len).layout = b.layout := by
  simp [Block.askFar]

@[simp] theorem Block.stop_layout (b : Block) (t : TaskRef) (l : Stop) : (b.stop t l).layout = b.layout := by
  simp only [Block.stop]
  (repeat' split) <;> simp

@[simp] theorem Block.mapObject_layout (b : Block) (t : TaskRef) (handle : Nat) : (b.mapObject t handle).layout = b.layout := by
  simp only [Block.mapObject]
  (repeat' split) <;> simp

@[simp] theorem Block.mapAll_layout (b : Block) (handle : Nat) (l : List TaskRef) : (b.mapAll handle l).layout = b.layout := by
  induction l generalizing b handle <;> simp_all [Block.mapAll]

@[simp] theorem Block.fillDone_layout (b : Block) (t : TaskRef) (handle : Nat) : (b.fillDone t handle).layout = b.layout := by
  simp [Block.fillDone]

@[simp] theorem Block.publishData_layout (b : Block) (t : TaskRef) : (b.publishData t).layout = b.layout := by
  simp only [Block.publishData]
  (repeat' split) <;> simp

@[simp] theorem Block.publishCommit_layout (b : Block) (t : TaskRef) (d : TaskDesc) : (b.publishCommit t d).layout = b.layout := by
  simp [Block.publishCommit]

@[simp] theorem Block.answered_layout (b : Block) (r : Request) (t : TaskRef) (data : List Byte) : (b.answered r t data).layout = b.layout := by
  simp only [Block.answered]
  (repeat' split) <;> simp

@[simp] theorem Block.refused_layout (b : Block) (r : Request) (t : TaskRef) (status : Nat) : (b.refused r t status).layout = b.layout := by
  simp [Block.refused]

@[simp] theorem Block.homeAnswered_layout (b : Block) (h : HalfId) (r : Request) (t : TaskRef) (status : Nat) (data : List Byte) :
    (b.homeAnswered h r t status data).layout = b.layout := by
  simp [Block.homeAnswered]

@[simp] theorem Block.completeRequest_layout (b : Block) (h : HalfId) (tag status : Nat) (data : List Byte) :
    (b.completeRequest h tag status data).layout = b.layout := by
  simp only [Block.completeRequest]
  (repeat' split) <;> simp

@[simp] theorem Block.countLink_layout (b : Block) (d : Destination) (write : Bool) (n : Nat) : (b.countLink d write n).layout = b.layout := by
  simp only [Block.countLink]
  (repeat' split) <;> simp

/-! ### Engine -/

@[simp] theorem Block.touchPieces_layout (b : Block) (t : TaskRef) (k : Nat) (ps : List (Nat × Nat)) :
    (b.touchPieces t k ps).layout = b.layout := by
  simp [Block.touchPieces]

@[simp] theorem Block.noteAhead_layout (b : Block) (h : HalfId) (k : Nat) (ps : List (Nat × Nat)) : (b.noteAhead h k ps).layout = b.layout := by
  simp [Block.noteAhead]

@[simp] theorem Block.touchSlots_layout (b : Block) (t : TaskRef) (g : Graph) (c : TaskCtx) (slots : List Nat) :
    (b.touchSlots t g c slots).layout = b.layout := by
  simp [Block.touchSlots]

@[simp] theorem Block.touch_layout (b : Block) (t : TaskRef) (g : Graph) (c : TaskCtx) : (b.touch t g c).layout = b.layout := by
  simp [Block.touch]

@[simp] theorem Block.land_layout (b : Block) (t : TaskRef) (cells : List Host.Cell) (status detail : Nat) :
    (b.land t cells status detail).layout = b.layout := by
  simp only [Block.land]
  (repeat' split) <;> simp

@[simp] theorem Block.finish_layout (b : Block) (t : TaskRef) (r : Res (List Host.Cell)) (status detail : Nat) :
    (b.finish t r status detail).layout = b.layout := by
  simp only [Block.finish]
  (repeat' split) <;> simp

@[simp] theorem Block.landPiece_layout (b : Block) (p : Piece) : (b.landPiece p).layout = b.layout := by
  simp only [Block.landPiece]
  (repeat' split) <;> simp

@[simp] theorem Block.landPieces_layout (b : Block) (ps : List Piece) : (b.landPieces ps).layout = b.layout := by
  simp [Block.landPieces]

@[simp] theorem Block.landFree_layout (b : Block) (ps : List Piece) (lo hi : Nat) : (b.landFree ps lo hi).layout = b.layout := by
  simp [Block.landFree]

@[simp] theorem Block.landSome_layout (b : Block) (shares : List (List Piece)) : (b.landSome shares).layout = b.layout := by
  simp [Block.landSome]

@[simp] theorem Block.landRun_layout (b : Block) (shares : List (List Piece)) : (b.landRun shares).1.layout = b.layout := by
  simp only [Block.landRun]
  (repeat' split) <;> simp

@[simp] theorem Block.finishRun_layout (b : Block) (t : TaskRef) (shares : List (List Piece)) (status detail : Nat) :
    (b.finishRun t shares status detail).layout = b.layout := by
  simp only [Block.finishRun]
  (repeat' split) <;> simp

@[simp] theorem Block.onMode_layout (b : Block) (t : TaskRef) (ty mode : Nat) (f : Graph → TaskCtx → Block) (hf : ∀ u0 u1,
    (f u0 u1).layout = b.layout) :
    (b.onMode t ty mode f).layout = b.layout := by
  unfold Block.onMode
  simp_all

/-! ### Matrix -/

@[simp] theorem Block.modCore_layout (b : Block) (n : Nat) (f : CoreEngines → CoreEngines) : (b.modCore n f).layout = b.layout := by
  simp [Block.modCore]

@[simp] theorem Block.clearBanks_layout (b : Block) (n : Nat) : (b.clearBanks n).layout = b.layout := by
  simp [Block.clearBanks]

@[simp] theorem Block.bankError_layout (b : Block) (t : TaskRef) (u : BankUpset) : (b.bankError t u).layout = b.layout := by
  simp [Block.bankError]

@[simp] theorem Block.addIssued_layout (b : Block) (n issued skipped : Nat) : (b.addIssued n issued skipped).layout = b.layout := by
  simp [Block.addIssued]

@[simp] theorem Block.mxCount_layout (b : Block) (a : Access) (c : TaskCtx) (q : Pairing) (made : List MxOut) (rank n : Nat) :
    (b.mxCount a c q made rank n).layout = b.layout := by
  simp [Block.mxCount]

@[simp] theorem Block.mxCountAll_layout (b : Block) (a : Access) (c : TaskCtx) (q : Pairing) (run : List (List (List (Res MxOut)))) :
    (b.mxCountAll a c q run).layout = b.layout := by
  simp [Block.mxCountAll]

@[simp] theorem Block.mxCountPart_layout (b : Block) (c : TaskCtx) (q : Pairing) (rank n : Nat) : (b.mxCountPart c q rank n).layout = b.layout := by
  simp [Block.mxCountPart]

@[simp] theorem Block.mxCountParts_layout (b : Block) (c : TaskCtx) (q : Pairing) : (b.mxCountParts c q).layout = b.layout := by
  simp [Block.mxCountParts]

@[simp] theorem Block.startMatrix_layout (b : Block) (t : TaskRef) (g : Graph) (c : TaskCtx) : (b.startMatrix t g c).layout = b.layout := by
  simp only [Block.startMatrix]
  (repeat' split) <;> simp

@[simp] theorem Block.mxEnd_layout (b : Block) (t : TaskRef) (g : Graph) (c : TaskCtx) (st : ConvStats) : (b.mxEnd t g c st).layout = b.layout := by
  simp only [Block.mxEnd]
  (repeat' split) <;> simp

@[simp] theorem Block.debugAnswer_layout (b : Block) (a : Actor) (n : Nat) (f : Block → Block) (hf : ∀ x : Block, (f x).layout = x.layout) :
    (b.debugAnswer a n f).block.layout = b.layout := by
  unfold Block.debugAnswer
  (repeat' split) <;> simp_all

@[simp] theorem Block.debugWrite_layout (b0 : Block) (p : Path) (n : Nat) (f : Block → Block) (hf : ∀ x : Block, (f x).layout = x.layout) :
    (b0.debugWrite p n f).layout = b0.layout := by
  unfold Block.debugWrite
  simp_all

@[simp] theorem Block.requestHalt_layout (b : Block) (n : Nat) : (b.requestHalt n).layout = b.layout := by
  simp [Block.requestHalt]

@[simp] theorem Block.unhalt_layout (b : Block) (n : Nat) : (b.unhalt n).layout = b.layout := by
  simp [Block.unhalt]

/-! ### Vector -/

@[simp] theorem Block.vecStep_layout (b : Block) (n : Nat) (p : VecPlace) : (b.vecStep n p).1.layout = b.layout := by
  simp only [Block.vecStep]
  (repeat' split) <;> simp

@[simp] theorem Block.vecOp_layout (b : Block) (n op : Nat) (f : VecFields) : (b.vecOp n op f).layout = b.layout := by
  simp only [Block.vecOp]
  (repeat' split) <;> simp

@[simp] theorem Block.vxIssuedFree_layout (b : Block) (c : TaskCtx) : (b.vxIssuedFree c).layout = b.layout := by
  simp [Block.vxIssuedFree]

@[simp] theorem Block.stopIssued_layout (b : Block) (t : TaskRef) (c : TaskCtx) (e : Stop) : (b.stopIssued t c e).layout = b.layout := by
  simp only [Block.stopIssued]
  (repeat' split) <;> simp

@[simp] theorem Block.vecRun_layout (b : Block) (n l : Nat) : (b.vecRun n l).1.layout = b.layout := by
  induction l generalizing b with
  | zero => rfl
  | succ k ih =>
    unfold Block.vecRun
    split
    · rfl
    · dsimp only; split <;> simp [ih]

@[simp] theorem Block.vecRunAll_layout (b : Block) (c : TaskCtx) (l : List Nat) : (b.vecRunAll c l).1.layout = b.layout := by
  induction l generalizing b with
  | nil => rfl
  | cons k ks ih => unfold Block.vecRunAll; dsimp only; split <;> simp [ih]

@[simp] theorem Block.vecEnd_layout (b : Block) (t : TaskRef) (g : Graph) (c : TaskCtx) (status detail : Nat) :
    (b.vecEnd t g c status detail).layout = b.layout := by
  simp [Block.vecEnd]

/-! ### Kv -/

@[simp] theorem Block.kvWalked_layout (b : Block) (t : TaskRef) (w : KvWalk) : (b.kvWalked t w).layout = b.layout := by
  simp [Block.kvWalked]

@[simp] theorem Block.kvRunAhead_layout (b : Block) (a : Access) (x : KvHeld) : (b.kvRunAhead a x).layout = b.layout := by
  simp [Block.kvRunAhead]

@[simp] theorem Block.kvStop_layout (b : Block) (t : TaskRef) (a : Access) (c : TaskCtx) (e : Stop) : (b.kvStop t a c e).layout = b.layout := by
  simp only [Block.kvStop]
  (repeat' split) <;> simp

/-! ### Attention -/

@[simp] theorem Block.addReg_layout (b : Block) (r n : Nat) : (b.addReg r n).layout = b.layout := by
  simp [Block.addReg]

@[simp] theorem Block.atCount_layout (b : Block) (n : Nat) (l : List AtRun) : (b.atCount n l).layout = b.layout := by
  simp [Block.atCount]

@[simp] theorem Block.atCounts_layout (b : Block) (c : TaskCtx) (l : List (List (Res AtRun))) : (b.atCounts c l).layout = b.layout := by
  simp [Block.atCounts]

@[simp] theorem Block.atCountParts_layout (b : Block) (c : TaskCtx) : (b.atCountParts c).layout = b.layout := by
  simp [Block.atCountParts]

@[simp] theorem Block.atEnd_layout (b : Block) (t : TaskRef) (g : Graph) (c : TaskCtx) (l : List AtRun) : (b.atEnd t g c l).layout = b.layout := by
  simp only [Block.atEnd]
  (repeat' split) <;> simp

@[simp] theorem Block.atLand_layout (b : Block) (t : TaskRef) (g : Graph) (c : TaskCtx) (parity : Option BankUpset) (run : KvWalk × List (List
    (Res AtRun))) :
    (b.atLand t g c parity run).layout = b.layout := by
  simp only [Block.atLand]
  (repeat' split) <;> simp

@[simp] theorem Block.attention_layout (b : Block) (t : TaskRef) (mode : Nat) (parity : Option BankUpset)
    (f : Block → Access → TaskCtx → KvWalk → Nat → AtUnit → KvWalk × Res AtRun) :
    (b.attention t mode parity f).layout = b.layout := by
  simp [Block.attention]

/-! ### Gate -/

@[simp] theorem Block.updateScale_layout (b : Block) (h : HalfId) (k : Nat) (closed : Bool) : (b.updateScale h k closed).layout = b.layout := by
  simp [Block.updateScale]

@[simp] theorem Block.policyEntry_layout (b : Block) (h : HalfId) (k step i : Nat) : (b.policyEntry h k step i).layout = b.layout := by
  simp [Block.policyEntry]

@[simp] theorem Block.latchEntry_layout (b : Block) (h : HalfId) (k step i : Nat) : (b.latchEntry h k step i).layout = b.layout := by
  simp [Block.latchEntry]

@[simp] theorem Block.decideFormats_layout (b : Block) (h : HalfId) (k step : Nat) : (b.decideFormats h k step).layout = b.layout := by
  simp [Block.decideFormats]

@[simp] theorem Block.dropHold_layout (b : Block) (k va : Nat) : (b.dropHold k va).layout = b.layout := by
  simp only [Block.dropHold]
  (repeat' split) <;> simp

@[simp] theorem Block.dropHolds_layout (b : Block) (h : HalfId) (k step : Nat) (consumed : Bool) :
    (b.dropHolds h k step consumed).layout = b.layout := by
  simp only [Block.dropHolds]
  (repeat' split) <;> simp

@[simp] theorem Block.clearStats_layout (b : Block) (h : HalfId) (k step : Nat) : (b.clearStats h k step).layout = b.layout := by
  simp [Block.clearStats]

@[simp] theorem Block.failAllSteps_layout (b : Block) (det : Nat) (l : List TaskRef) : (b.failAllSteps det l).layout = b.layout := by
  induction l generalizing b det <;> simp_all [Block.failAllSteps]

@[simp] theorem Block.repeatStep_layout (b : Block) (h : HalfId) (k step : Nat) : (b.repeatStep h k step).layout = b.layout := by
  simp [Block.repeatStep]

@[simp] theorem Block.writeRecords_layout (b : Block) (h : HalfId) (k first : Nat) (l : List (List Nat)) (ms1 : Nat) :
    (b.writeRecords h k first l ms1).layout = b.layout := by
  induction l generalizing b h k first ms1 <;> simp_all [Block.writeRecords]

@[simp] theorem Block.decideStep_layout (b : Block) (h : HalfId) (k : Nat) (v : Verdict) : (b.decideStep h k v).layout = b.layout := by
  simp [Block.decideStep]

@[simp] theorem Block.applyVerdict_layout (b : Block) (h : HalfId) (k : Nat) (v : Verdict) : (b.applyVerdict h k v).layout = b.layout := by
  simp [Block.applyVerdict]

/-! ### Collective -/

@[simp] theorem Block.onColl_layout (b : Block) (t : TaskRef) (ops : List Nat) (f : Graph → TaskCtx → CollState → Plan → Block)
    (hf : ∀ u0 u1 u2 u3, (f u0 u1 u2 u3).layout = b.layout) :
    (b.onColl t ops f).layout = b.layout := by
  unfold Block.onColl
  (repeat' split) <;> simp_all

@[simp] theorem Block.modColl_layout (b : Block) (t : TaskRef) (f : CollState → CollState) : (b.modColl t f).layout = b.layout := by
  simp [Block.modColl]

@[simp] theorem Block.countStray_layout (b : Block) (h : HalfId) : (b.countStray h).layout = b.layout := by
  simp [Block.countStray]

@[simp] theorem Block.collSend_layout (b : Block) (t : TaskRef) (g : Graph) (d : TaskDesc) (p : Plan) (ep cls op origin block : Nat)
    (payload : List Byte) :
    (b.collSend t g d p ep cls op origin block payload).layout = b.layout := by
  simp [Block.collSend]

@[simp] theorem Block.sendReadies_layout (b : Block) (t : TaskRef) (g : Graph) (c : TaskCtx) (p : Plan) (n : Nat) (l : List Nat) :
    (b.sendReadies t g c p n l).layout = b.layout := by
  induction l generalizing b t g c p n <;> simp_all [Block.sendReadies]

@[simp] theorem Block.takeReady_layout (b : Block) (t : TaskRef) (q : Packet) : (b.takeReady t q).layout = b.layout := by
  simp [Block.takeReady]

@[simp] theorem Block.takeReadies_layout (b : Block) (t : TaskRef) (l : List Packet) : (b.takeReadies t l).layout = b.layout := by
  induction l generalizing b t <;> simp_all [Block.takeReadies]

@[simp] theorem Block.collFire_layout (b : Block) (t : TaskRef) : (b.collFire t).layout = b.layout := by
  simp only [Block.collFire]
  (repeat' split) <;> simp

@[simp] theorem Block.collPump_layout (b : Block) (t : TaskRef) (l : Nat) : (b.collPump t l).layout = b.layout := by
  induction l generalizing b with
  | zero => rfl
  | succ n ih =>
    rw [Block.collPump]
    refine b.onColl_layout t _ _ (fun g c x p => ?_)
    split
    · rfl
    · split <;> simp [ih]

@[simp] theorem Block.collFinish_layout (b : Block) (t : TaskRef) : (b.collFinish t).layout = b.layout := by
  simp [Block.collFinish]

@[simp] theorem Block.collGo_layout (b : Block) (t : TaskRef) : (b.collGo t).layout = b.layout := by
  simp [Block.collGo]

@[simp] theorem Block.coLand_layout (b : Block) (t : TaskRef) (i : Nat) (l : List Byte) (origin : Nat) :
    (b.coLand t i l origin).layout = b.layout := by
  refine b.onColl_layout t _ _ (fun g c x p => ?_)
  split
  · simp
  · dsimp only; split <;> simp

@[simp] theorem Block.floodOn_layout (b : Block) (t : TaskRef) (i : Nat) (l : List Byte) (origin : Nat) (mine : Bool) :
    (b.floodOn t i l origin mine).layout = b.layout := by
  simp [Block.floodOn]

@[simp] theorem Block.appendVerdict_layout (b : Block) (t : TaskRef) : (b.appendVerdict t).layout = b.layout := by
  refine b.onColl_layout t _ _ (fun g c x p => ?_)
  split <;> simp

@[simp] theorem Block.ownFinal_layout (b : Block) (t : TaskRef) (i : Nat) (l : List Byte) (origin : Nat) :
    (b.ownFinal t i l origin).layout = b.layout := by
  simp [Block.ownFinal]

@[simp] theorem Block.noteBlock_layout (b : Block) (t : TaskRef) (g : Graph) (origin : Nat) (made : Bool) :
    (b.noteBlock t g origin made).layout = b.layout := by
  simp [Block.noteBlock]

@[simp] theorem Block.emit2_layout (b : Block) (t : TaskRef) (i : Nat) (l : List Byte) (origin : Nat) :
    (b.emit2 t i l origin).layout = b.layout := by
  simp [Block.emit2]

@[simp] theorem Block.collLink_layout (b : Block) (t : TaskRef) (i : Nat) (x y : List Byte × Nat) : (b.collLink t i x y).2.layout = b.layout := by
  simp only [Block.collLink]
  (repeat' split) <;> simp

@[simp] theorem Block.levelOne_layout (b : Block) (t : TaskRef) (i : Nat) (l : List Byte) (origin : Nat) :
    (b.levelOne t i l origin).layout = b.layout := by
  refine b.onColl_layout t _ _ (fun g c x p => ?_)
  dsimp only
  split
  · simp
  · split
    · simp
    · split <;> simp

@[simp] theorem Block.emit1_layout (b : Block) (t : TaskRef) (i : Nat) (l : List Byte) (origin : Nat) :
    (b.emit1 t i l origin).layout = b.layout := by
  simp [Block.emit1]

@[simp] theorem Block.startChain_layout (b : Block) (t : TaskRef) (q : Nat) (l : List Nat) : (b.startChain t q l).layout = b.layout := by
  induction l generalizing b t q <;> simp_all [Block.startChain]

@[simp] theorem Block.noteOwn_layout (b : Block) (t : TaskRef) (g : Graph) (d : TaskDesc) (l : List (List Byte)) :
    (b.noteOwn t g d l).layout = b.layout := by
  induction l generalizing b t g d <;> simp_all [Block.noteOwn]

@[simp] theorem Block.startFlood_layout (b : Block) (t : TaskRef) (l : List Nat) : (b.startFlood t l).layout = b.layout := by
  induction l generalizing b t <;> simp_all [Block.startFlood]

@[simp] theorem Block.startChains_layout (b : Block) (t : TaskRef) : (b.startChains t).layout = b.layout := by
  simp [Block.startChains]

@[simp] theorem Block.noteHold_layout (b : Block) (t : TaskRef) (g : Graph) (c : TaskCtx) (late : Bool) (u : HoldUse) (w : Nat) :
    (b.noteHold t g c late u w).layout = b.layout := by
  simp only [Block.noteHold]
  (repeat' split) <;> simp

@[simp] theorem Block.collStart_layout (b : Block) (t : TaskRef) : (b.collStart t).layout = b.layout := by
  refine b.onColl_layout t _ _ (fun g c x p => ?_)
  dsimp only
  split
  · rfl
  · split
    · simp
    · split
      · simp
      · split
        · simp
        · split <;> simp

@[simp] theorem Block.ebbBlock_layout (b : Block) (t : TaskRef) (two : Bool) (origin i : Nat) (l : List Byte) :
    (b.ebbBlock t two origin i l).layout = b.layout := by
  refine b.onColl_layout t _ _ (fun g c x p => ?_)
  have hnote (p : Prop) [Decidable p] (origin : Nat) : (if p then b.noteBlock t g origin false else b).layout = b.layout := by
    split <;> simp
  dsimp only
  split
  · split
    · exact hnote _ _
    · split <;> simp
  · split
    · exact hnote _ _
    · simp

@[simp] theorem Block.ebbBlocks_layout (b : Block) (t : TaskRef) (two : Bool) (origin : Nat) (l : List (Nat × List Byte)) :
    (b.ebbBlocks t two origin l).layout = b.layout := by
  fun_induction Block.ebbBlocks <;> simp_all

@[simp] theorem Block.startSkipped_layout (b : Block) (t : TaskRef) (nb place g : Nat) (l : List Nat) :
    (b.startSkipped t nb place g l).layout = b.layout := by
  induction l generalizing b t nb place g <;> simp_all [Block.startSkipped]

@[simp] theorem Block.floodBlock_layout (b : Block) (t : TaskRef) (origin i : Nat) (l : List Byte) :
    (b.floodBlock t origin i l).layout = b.layout := by
  simp [Block.floodBlock]

@[simp] theorem Block.floodBlocks_layout (b : Block) (t : TaskRef) (origin : Nat) (l : List (Nat × List Byte)) :
    (b.floodBlocks t origin l).layout = b.layout := by
  induction l generalizing b t origin <;> simp_all [Block.floodBlocks]

@[simp] theorem Block.verdictLands_layout (b : Block) (t : TaskRef) (l : List Byte) (mine on : Bool) :
    (b.verdictLands t l mine on).layout = b.layout := by
  simp [Block.verdictLands]

@[simp] theorem Block.takeBlocks_layout (b : Block) (t : TaskRef) (q : Packet) : (b.takeBlocks t q).layout = b.layout := by
  refine b.onColl_layout t _ _ (fun g c x p => ?_)
  extract_lets i away ring near two
  split
  · simp
  · refine Block.layout_of_ite (by simp) ?_
    extract_lets b1 b2
    have hb2 : b2.layout = b.layout := Block.layout_of_ite (by simp [b1]) (by simp [b1])
    (repeat' split) <;> simp [hb2]

@[simp] theorem Block.collTake_layout (b : Block) (t : TaskRef) (q : Packet) : (b.collTake t q).layout = b.layout := by
  simp [Block.collTake]

@[simp] theorem Block.collDrain_layout (b : Block) (t : TaskRef) (l : List Packet) : (b.collDrain t l).layout = b.layout := by
  induction l generalizing b t <;> simp_all [Block.collDrain]

@[simp] theorem Block.collBegin_layout (b : Block) (t : TaskRef) : (b.collBegin t).layout = b.layout := by
  simp [Block.collBegin]

@[simp] theorem Block.peerPump_layout (b : Block) (t : TaskRef) (l : Nat) : (b.peerPump t l).layout = b.layout := by
  induction l generalizing b with
  | zero => rfl
  | succ n ih =>
    rw [Block.peerPump]
    refine b.onColl_layout t _ _ (fun g c x p => ?_)
    refine Block.layout_of_ite rfl (Block.layout_of_ite (Block.layout_of_ite rfl ?_) (by simp))
    split <;> simp [ih]

@[simp] theorem Block.peerGo_layout (b : Block) (t : TaskRef) : (b.peerGo t).layout = b.layout := by
  simp [Block.peerGo]

@[simp] theorem Block.peerEnd_layout (b : Block) (t : TaskRef) : (b.peerEnd t).layout = b.layout := by
  refine b.onColl_layout t _ _ (fun g c x p => ?_)
  dsimp only
  split
  · rfl
  · (repeat' split) <;> simp

@[simp] theorem Block.travelPump_layout (b : Block) (t : TaskRef) (l : Nat) : (b.travelPump t l).layout = b.layout := by
  induction l generalizing b with
  | zero => rfl
  | succ n ih =>
    rw [Block.travelPump]
    refine b.onColl_layout t _ _ (fun g c x p => ?_)
    split
    · rfl
    · split
      · split <;> simp
      · simp [ih]

@[simp] theorem Block.travelGo_layout (b : Block) (t : TaskRef) : (b.travelGo t).layout = b.layout := by
  simp [Block.travelGo]

@[simp] theorem Block.travelEnd_layout (b : Block) (t : TaskRef) : (b.travelEnd t).layout = b.layout := by
  simp [Block.travelEnd]

@[simp] theorem Block.strayRow_layout (b : Block) (h : HalfId) (p : Packet) : (b.strayRow h p).layout = b.layout := by
  simp [Block.strayRow]

@[simp] theorem Block.landChunk_layout (b : Block) (t : TaskRef) (g : Graph) (c : TaskCtx) (x : CollState) (z : Tensor) (r chunk key : Nat)
    (l : List Byte) :
    (b.landChunk t g c x z r chunk key l).layout = b.layout := by
  simp only [Block.landChunk]
  (repeat' split) <;> simp

@[simp] theorem Block.takeRow_layout (b : Block) (t : TaskRef) (q : Packet) : (b.takeRow t q).layout = b.layout := by
  refine b.onColl_layout t _ _ (fun g c x p => ?_)
  extract_lets d n e slot chunk z
  refine Block.layout_of_ite (by simp) (Block.layout_of_ite ?_ (Block.layout_of_ite (by simp) (Block.layout_of_ite (by simp) (by simp))))
  split
  · simp
  · exact Block.layout_of_ite (by simp) (by simp)

@[simp] theorem Block.takeRows_layout (b : Block) (t : TaskRef) (l : List Packet) : (b.takeRows t l).layout = b.layout := by
  induction l generalizing b t <;> simp_all [Block.takeRows]

@[simp] theorem Block.keepReady_layout (b : Block) (h : HalfId) (p : Packet) : (b.keepReady h p).layout = b.layout := by
  simp [Block.keepReady]

@[simp] theorem Block.sendNotices_layout (b : Block) (t : TaskRef) (g : Graph) (d : TaskDesc) (p : Plan) (late : Nat) (l : List Nat) :
    (b.sendNotices t g d p late l).layout = b.layout := by
  induction l generalizing b t g d p late <;> simp_all [Block.sendNotices]

@[simp] theorem Block.detectLate_layout (b : Block) (t : TaskRef) (g : Graph) (d : TaskDesc) (p : Plan) (l : List (Nat × Nat)) :
    (b.detectLate t g d p l).layout = b.layout := by
  simp only [Block.detectLate]
  (repeat' split) <;> simp

@[simp] theorem Block.redirect_layout (b : Block) (t : TaskRef) (old : Nat) (l : List CollOut) : (b.redirect t old l).layout = b.layout := by
  induction l generalizing b t old <;> simp_all [Block.redirect]

@[simp] theorem Block.skipOver_layout (b : Block) (t : TaskRef) (g : Graph) (n : Nat) : (b.skipOver t g n).layout = b.layout := by
  simp [Block.skipOver]

@[simp] theorem Block.collLost_layout (b : Block) (t : TaskRef) (lost : List Nat) : (b.collLost t lost).layout = b.layout := by
  refine b.onColl_layout t _ _ (fun g c x p => ?_)
  split <;> simp

/-! ### Tiers -/

@[simp] theorem Block.retryJob_layout (b : Block) (job : Nat) : (b.retryJob job).layout = b.layout := by
  simp [Block.retryJob]

@[simp] theorem Block.doMap_layout (b : Block) (t : TaskRef) (g : Graph) (c : TaskCtx) : (b.doMap t g c).layout = b.layout := by
  simp only [Block.doMap]
  (repeat' split) <;> simp
  next e => exact Block.allocate_layout e

@[simp] theorem Block.unmapPages_layout (b : Block) (k : Nat) (l : List Nat) : (b.unmapPages k l).layout = b.layout := by
  fun_induction Block.unmapPages <;> simp_all

@[simp] theorem Block.doUnmap_layout (b : Block) (t : TaskRef) (g : Graph) (c : TaskCtx) : (b.doUnmap t g c).layout = b.layout := by
  simp only [Block.doUnmap]
  (repeat' split) <;> simp

@[simp] theorem Block.startFill_layout (b : Block) (t : TaskRef) (g : Graph) (d : TaskDesc) : (b.startFill t g d).layout = b.layout := by
  simp only [Block.startFill]
  (repeat' split) <;> simp <;> exact Block.allocate_layout ‹_›

@[simp] theorem Block.writeQuery_layout (b : Block) (t : TaskRef) (g : Graph) (c : TaskCtx) (v : Nat) :
    (b.writeQuery t g c v).layout = b.layout := by
  simp [Block.writeQuery]

@[simp] theorem Block.countOob_layout (b : Block) (h : HalfId) (table : Tensor) (is : List Int) : (b.countOob h table is).layout = b.layout := by
  simp [Block.countOob]

theorem Block.adderRow_layout (b : Block) (a : Access) (op : Nat) (table rows : Tensor) (i j : Nat) :
    (∀ z, b.adderRow a op table rows i j = .ok z → z.layout = b.layout) ∧ ∀ z, b.adderRow a op table rows i j = .error z → z.1.layout = b.layout := by
  unfold Block.adderRow
  split
  · simp
  · simp
  · split
    · simp
    · next cells _ =>
      have hland := Block.landCells_layout b cells
      split <;> next e => simpa [e] using hland

theorem Block.adderRows_layout (b : Block) (a : Access) (op : Nat) (table rows : Tensor) (l : List (Int × Nat)) :
    (∀ z, b.adderRows a op table rows l = .ok z → z.layout = b.layout) ∧ ∀ z, b.adderRows a op table rows l = .error z → z.1.layout = b.layout := by
  induction l generalizing b with
  | nil => exact ⟨fun z e => by cases e; rfl, fun z e => (nomatch e)⟩
  | cons p ps ih =>
    unfold Block.adderRows
    split
    · split
      · next e1 => exact ⟨fun z e => (nomatch e), fun z e => by cases e; exact (Block.adderRow_layout _ _ _ _ _ _ _).2 _ e1⟩
      · next b1 e1 =>
        have hrow := (Block.adderRow_layout _ _ _ _ _ _ _).1 _ e1
        exact ⟨fun z e => ((ih b1).1 z e).trans hrow, fun z e => ((ih b1).2 z e).trans hrow⟩
    · exact ih b

@[simp] theorem Block.freshList_layout (b : Block) (l : Nat) : (b.freshList l).2.layout = b.layout := by
  induction l generalizing b <;> simp_all [Block.freshList]

@[simp] theorem Block.freeRows_layout (b : Block) (a : Access) (table : Tensor) (l : List Int) : (b.freeRows a table l).layout = b.layout := by
  induction l generalizing b with
  | nil => rfl
  | cons i is ih =>
    simp only [Block.freeRows]
    split
    · split <;> simp [ih]
    · exact ih b

@[simp] theorem Block.startGather_layout (b : Block) (t : TaskRef) (g : Graph) (c : TaskCtx) (is : List Int) :
    (b.startGather t g c is).layout = b.layout := by
  simp [Block.startGather]

@[simp] theorem Block.runGather_layout (b : Block) (t : TaskRef) (mode : Nat) (body : Graph → TaskCtx → Access → List Int → Block → Block)
    (hbody : ∀ u0 u1 u2 u3 (x : Block), (body u0 u1 u2 u3 x).layout = x.layout) :
    (b.runGather t mode body).layout = b.layout := by
  refine b.onMode_layout t _ _ _ (fun g c => ?_)
  dsimp only
  split
  · simp
  · split <;> simp [hbody]

@[simp] theorem Block.runAdders_layout (b : Block) (t : TaskRef) (mode op : Nat) : (b.runAdders t mode op).layout = b.layout := by
  refine b.runGather_layout t _ _ (fun g c a is x => ?_)
  dsimp only
  split
  · next e => simp [(Block.adderRows_layout _ _ _ _ _ _).2 _ e]
  · next e =>
    rw [Block.fix_layout, Block.layout_ite, Block.freeRows_layout, ite_self, (Block.adderRows_layout _ _ _ _ _ _).1 _ e]

@[simp] theorem Block.modWindow_layout (b : Block) (h : HalfId) (f : LendWindow → LendWindow) : (b.modWindow h f).layout = b.layout := by
  simp [Block.modWindow]

@[simp] theorem Block.entryPacket_layout (b : Block) (h : HalfId) (p : Packet) (ok : Nat → Bool) (st : Option Nat) :
    (b.entryPacket h p ok st).layout = b.layout := by
  simp [Block.entryPacket]

@[simp] theorem Block.reserveWindow_layout (b : Block) (h : HalfId) : (b.reserveWindow h).layout = b.layout := by
  simp only [Block.reserveWindow]
  split
  · simp
  · next e => simp [Block.allocFrames_layout e]

@[simp] theorem Block.sendAll_layout (b : Block) (h : HalfId) (op w2 : Nat) (payload : List Byte) (l : List Nat) :
    (b.sendAll h op w2 payload l).layout = b.layout := by
  induction l generalizing b h op w2 payload <;> simp_all [Block.sendAll]

@[simp] theorem Block.revoke_layout (b : Block) (h : HalfId) : (b.revoke h).layout = b.layout := by
  simp [Block.revoke]

@[simp] theorem Block.dropObjects_layout (b : Block) (h : HalfId) (l : List Nat) : (b.dropObjects h l).layout = b.layout := by
  induction l generalizing b h <;> simp_all [Block.dropObjects]

@[simp] theorem Block.localPacket_layout (b : Block) (h : HalfId) (p : Packet) (ok : Bool) (n : Nat) (f : Block → Block) (hf : ∀ x : Block,
    (f x).layout = x.layout) :
    (b.localPacket h p ok n f).layout = b.layout := by
  unfold Block.localPacket
  (repeat' split) <;> simp_all

/-! ### HostLink -/

@[simp] theorem Block.idleCheck_layout (b : Block) : (b.idleCheck).layout = b.layout := by
  simp [Block.idleCheck]

@[simp] theorem Block.configWord_layout (b : Block) (i : Nat) : (b.configWord i).2.layout = b.layout := by
  simp only [Block.configWord]
  (repeat' split) <;> simp

@[simp] theorem Block.resetLink_layout (b : Block) : (b.resetLink).layout = b.layout := by
  simp [Block.resetLink, Block.layout, Block.idleCheck]

@[simp] theorem Block.releaseQueue_layout (b : Block) (q : Nat) : (b.releaseQueue q).layout = b.layout := by
  simp [Block.releaseQueue]

@[simp] theorem Block.copyHead_layout (b : Block) (q v : Nat) : (b.copyHead q v).layout = b.layout := by
  simp [Block.copyHead]

@[simp] theorem Block.writeQueueHead_layout (b : Block) (q v addr : Nat) : (b.writeQueueHead q v addr).layout = b.layout := by
  simp only [Block.writeQueueHead]
  (repeat' split) <;> simp

theorem Block.entryDone_layout (b : Block) (q i : Nat) (l : List Byte) (status badTask badOffset : Nat) :
    ∀ z, b.entryDone q i l status badTask badOffset = some z → z.layout = b.layout :=
  Block.cqPush_layout b q _ _

@[simp] theorem Block.processEntry_layout (b : Block) (q op : Nat) : (b.processEntry q op).layout = b.layout := by
  unfold Block.processEntry
  split
  · rfl
  · split
    · rfl
    · dsimp only
      split
      · rfl
      · next e =>
        rw [Block.modPair_layout]
        split at e
        · exact Block.entryDone_layout _ _ _ _ _ _ _ _ e
        · exact Block.submit_layout _ _ _ _ _ _ _ _ _ _ e

@[simp] theorem Block.writeTail_layout (b : Block) (q v : Nat) : (b.writeTail q v).layout = b.layout := by
  simp [Block.writeTail]

@[simp] theorem Block.destroyPair_layout (b : Block) (q : Nat) : (b.destroyPair q).layout = b.layout := by
  simp [Block.destroyPair]

@[simp] theorem Block.createPair_layout (b : Block) (q : Nat) (v : Word) : (b.createPair q v).layout = b.layout := by
  simp [Block.createPair]

@[simp] theorem Block.writePair_layout (b : Block) (q : Nat) (v : Word) : (b.writePair q v).layout = b.layout := by
  simp [Block.writePair]

@[simp] theorem Block.resumeAgain_layout (b : Block) : (b.resumeAgain).layout = b.layout := by
  simp [Block.resumeAgain]

@[simp] theorem Block.pairWrite_layout (b : Block) (q : Nat) (v : Word) : (b.pairWrite q v).layout = b.layout := by
  simp [Block.pairWrite]

@[simp] theorem Block.startSlack_layout (b : Block) : (b.startSlack).layout = b.layout := by
  simp [Block.startSlack]

@[simp] theorem Block.enterSlack_layout (b : Block) (a : Actor) : (b.enterSlack a).block.layout = b.layout := by
  simp only [Block.enterSlack]
  (repeat' split) <;> simp

@[simp] theorem Block.portsFromTo_layout (b : Block) (h : HalfId) (x y : Nat) : (b.portsFromTo h x y).layout = b.layout := by
  simp [Block.portsFromTo]

@[simp] theorem Block.stopTest_layout (b : Block) (h : HalfId) (ch : Nat) : (b.stopTest h ch).layout = b.layout := by
  simp [Block.stopTest]

@[simp] theorem Block.stopTests_layout (b : Block) (h : HalfId) : (b.stopTests h).layout = b.layout := by
  simp [Block.stopTests]

@[simp] theorem Block.startWake_layout (b : Block) : (b.startWake).layout = b.layout := by
  simp [Block.startWake]

@[simp] theorem Block.wake_layout (b : Block) (a : Actor) : (b.wake a).block.layout = b.layout := by
  simp only [Block.wake]
  (repeat' split) <;> simp

/-! ### Image -/

@[simp] theorem Block.setBoth_layout (b : Block) (f : HalfId → Nat) (v : Nat) : (b.setBoth f v).layout = b.layout := by
  simp [Block.setBoth]

@[simp] theorem Block.setBothList_layout (b : Block) (f : HalfId → Nat) (l : List Nat) (ms1 : Nat) : (b.setBothList f l ms1).layout = b.layout := by
  induction l generalizing b f ms1 <;> simp_all [Block.setBothList]

@[simp] theorem Block.push_layout (b : Block) (c : ConfigSlot) : (b.push c).layout = b.layout := by
  simp only [Block.push, Block.setImage_layout]
  split <;> simp only [Block.setReg_layout, Block.setBoth_layout, Block.setBothList_layout]

/-! ### Start -/

@[simp] theorem Block.tornWrites_layout (b : Block) : (b.tornWrites).layout = b.layout := by
  simp [Block.tornWrites]

@[simp] theorem Block.setPhase_layout (b : Block) (code detail : Nat) : (b.setPhase code detail).layout = b.layout := by
  simp [Block.setPhase]

@[simp] theorem Block.enterStep_layout (b : Block) (n : Nat) : (b.enterStep n).layout = b.layout := by
  simp [Block.enterStep]

@[simp] theorem Block.failStep_layout (b : Block) (code detail : Nat) : (b.failStep code detail).layout = b.layout := by
  simp [Block.failStep]

@[simp] theorem Block.logUnsigned_layout (b : Block) (x : Option FirmwareSlot) : (b.logUnsigned x).layout = b.layout := by
  simp only [Block.logUnsigned]
  (repeat' split) <;> simp

@[simp] theorem Block.raiseFloor_layout (b : Block) (x : FirmwareSlot) : (b.raiseFloor x).layout = b.layout := by
  simp [Block.raiseFloor]

@[simp] theorem Block.flushQueues_layout (b : Block) : (b.flushQueues).layout = b.layout := by
  simp [Block.flushQueues]

@[simp] theorem Block.bootZilsy_layout (b : Block) (isB : Bool) (x : FirmwareSlot) : (b.bootZilsy isB x).layout = b.layout := by
  simp [Block.bootZilsy]

@[simp] theorem Block.logLayers_layout (b : Block) (c : Option ConfigSlot) : (b.logLayers c).layout = b.layout := by
  simp only [Block.logLayers]
  (repeat' split) <;> simp

@[simp] theorem Block.recoverAs_layout (b : Block) (isB : Bool) (c : ConfigSlot) (seq role keyId : Nat) :
    (b.recoverAs isB c seq role keyId).layout = b.layout := by
  simp [Block.recoverAs]

@[simp] theorem Block.recoverCommit_layout (b : Block) (isB : Bool) (c : ConfigSlot) (seq : Nat) :
    (b.recoverCommit isB c seq).layout = b.layout := by
  simp only [Block.recoverCommit]
  (repeat' split) <;> simp

@[simp] theorem Block.trainedBay_layout (b : Block) (r : BayTraining) (slow : Bool) (h : HalfId) (c : Nat) :
    (b.trainedBay r slow h c).layout = b.layout := by
  simp [Block.trainedBay]

@[simp] theorem Block.trainBay_layout (b : Block) (r : BayTraining) (slow : Bool) (h : HalfId) : (b.trainBay r slow h).layout = b.layout := by
  simp [Block.trainBay]

@[simp] theorem Block.testFill_layout (b : Block) (l : List Nat) : (b.testFill l).layout = b.layout := by
  simp [Block.testFill]

@[simp] theorem Block.markFailed_layout (b : Block) (h : HalfId) (l : List Nat) : (b.markFailed h l).layout = b.layout := by
  simp [Block.markFailed]

@[simp] theorem Block.logSpares_layout (b : Block) (h : HalfId) (l : List (Nat × Nat)) : (b.logSpares h l).layout = b.layout := by
  induction l generalizing b h <;> simp_all [Block.logSpares]

@[simp] theorem Block.useSpare_layout (b : Block) (h : HalfId) (l : List (Nat × Nat)) (layer : Nat) : (b.useSpare h l layer).layout = b.layout := by
  simp only [Block.useSpare]
  (repeat' split) <;> simp

@[simp] theorem Block.clearShelf_layout (b : Block) (h : HalfId) : (b.clearShelf h).layout = b.layout := by
  simp [Block.clearShelf]

@[simp] theorem Block.trainShelf_layout (b : Block) (h : HalfId) (l : List (Nat × Nat)) (eyes : List Nat) :
    (b.trainShelf h l eyes).layout = b.layout := by
  simp [Block.trainShelf]

@[simp] theorem Block.joinStep4_layout (b : Block) : (b.joinStep4).layout = b.layout := by
  simp [Block.joinStep4]

@[simp] theorem Block.endShelf_layout (b : Block) (h : HalfId) (l : List (Nat × Nat)) (eyes : List Nat) :
    (b.endShelf h l eyes).layout = b.layout := by
  simp [Block.endShelf]

@[simp] theorem Block.startDisabled_layout (b : Block) (h : HalfId) (key kind index : Nat) (failed : Bool) :
    (b.startDisabled h key kind index failed).layout = b.layout := by
  simp [Block.startDisabled]

@[simp] theorem Block.applyDisabled_layout (b : Block) : (b.applyDisabled).layout = b.layout := by
  simp [Block.applyDisabled]

@[simp] theorem Block.failCores_layout (b : Block) (l : List (Fin 80)) : (b.failCores l).layout = b.layout := by
  induction l generalizing b <;> simp_all [Block.failCores]

@[simp] theorem Block.logTimes_layout (b : Block) (e : Event) (n : Nat) : (b.logTimes e n).layout = b.layout := by
  simp [Block.logTimes]

@[simp] theorem Block.loadRoutes_layout (b : Block) (h : HalfId) : (b.loadRoutes h).layout = b.layout := by
  simp [Block.loadRoutes]

@[simp] theorem Block.trainPorts_layout (b : Block) (h : HalfId) : (b.trainPorts h).layout = b.layout := by
  simp [Block.trainPorts]

@[simp] theorem Block.lendAtStart_layout (b : Block) (h : HalfId) : (b.lendAtStart h).layout = b.layout := by
  simp [Block.lendAtStart]

/-! ### Zilsy -/

@[simp] theorem Block.writeCap_layout (b : Block) (a : Actor) (v : Nat) : (b.writeCap a v).block.layout = b.layout := by
  simp only [Block.writeCap]
  (repeat' split) <;> simp

@[simp] theorem Block.flushMerging_layout (b : Block) : (b.flushMerging).layout = b.layout := by
  simp [Block.flushMerging]

@[simp] theorem Block.copyPeaks_layout (b old : Block) (l : List Nat) : (b.copyPeaks old l).layout = b.layout := by
  induction l generalizing b old <;> simp_all [Block.copyPeaks]

@[simp] theorem Block.keepPeaks_layout (old b : Block) : (old.keepPeaks b).layout = b.layout := by
  simp [Block.keepPeaks]

@[simp] theorem Block.writeBusy_layout (b : Block) (x : Bool) : (b.writeBusy x).layout = b.layout := by
  simp [Block.writeBusy]

@[simp] theorem Block.startWrite_layout (b : Block) (w : ConfigWrite) : (b.startWrite w).layout = b.layout := by
  simp [Block.startWrite]

@[simp] theorem Block.nextWrite_layout (b : Block) : (b.nextWrite).layout = b.layout := by
  simp only [Block.nextWrite]
  (repeat' split) <;> simp

@[simp] theorem Block.abandonWrite_layout (b : Block) (step : Nat) : (b.abandonWrite step).layout = b.layout := by
  simp [Block.abandonWrite]

@[simp] theorem Block.showSlot_layout (b : Block) (isB : Bool) (c : ConfigSlot) (seq : Nat) : (b.showSlot isB c seq).layout = b.layout := by
  simp [Block.showSlot]

@[simp] theorem Block.commitWrite_layout (b : Block) (w : ConfigWrite) (c : ConfigSlot) : (b.commitWrite w c).layout = b.layout := by
  simp [Block.commitWrite]

@[simp] theorem Block.setOtherFirmware_layout (b : Block) (x : Option FirmwareSlot) : (b.setOtherFirmware x).layout = b.layout := by
  simp [Block.setOtherFirmware]

@[simp] theorem Block.closeStaging_layout (b : Block) : (b.closeStaging).layout = b.layout := by
  simp [Block.closeStaging]

@[simp] theorem Block.applyLayer_layout (b : Block) (a : Actor) (x : Staging) (which : Nat) (ok : Bool) :
    (b.applyLayer a x which ok).block.layout = b.layout := by
  simp only [Block.applyLayer]
  (repeat' split) <;> simp

@[simp] theorem Block.applyFirmware_layout (b : Block) (a : Actor) (x : Staging) (o : StagedObject) :
    (b.applyFirmware a x o).block.layout = b.layout := by
  simp only [Block.applyFirmware]
  (repeat' split) <;> simp

@[simp] theorem Block.revokeKey_layout (b : Block) (keyId : Nat) : (b.revokeKey keyId).layout = b.layout := by
  simp [Block.revokeKey]

/-! ### Census -/

@[simp] theorem Block.setCensusFld_layout (b : Block) (hi lo v : Nat) : (b.setCensusFld hi lo v).layout = b.layout := by
  simp [Block.setCensusFld]

@[simp] theorem Block.setCensus_layout (b : Block) (h : HalfId) (st : Nat) : (b.setCensus h st).layout = b.layout := by
  simp only [Block.setCensus]
  (repeat' split) <;> simp

@[simp] theorem Block.startCensus_layout (b : Block) (h : HalfId) : (b.startCensus h).layout = b.layout := by
  simp [Block.startCensus]

@[simp] theorem Block.setLeader_layout (b : Block) (m rank : Nat) : (b.setLeader m rank).layout = b.layout := by
  simp [Block.setLeader]

@[simp] theorem Block.fillSubst_layout (b : Block) (h : HalfId) (l : List (Nat × Nat)) (ms1 : Nat) : (b.fillSubst h l ms1).layout = b.layout := by
  induction l generalizing b h ms1 <;> simp_all [Block.fillSubst]

@[simp] theorem Block.applyCensus_layout (b : Block) (h : HalfId) (done : Nat) (es : List (Nat × Nat)) :
    (b.applyCensus h done es).layout = b.layout := by
  simp [Block.applyCensus]

@[simp] theorem Block.manageAll_layout (b : Block) (h : HalfId) (dest op : Nat) (l : List (List Byte)) :
    (b.manageAll h dest op l).layout = b.layout := by
  induction l generalizing b h dest op <;> simp_all [Block.manageAll]

@[simp] theorem Block.completeCensus_layout (b : Block) : (b.completeCensus).layout = b.layout := by
  simp [Block.completeCensus]

@[simp] theorem Block.censusCheck_layout (b : Block) : (b.censusCheck).layout = b.layout := by
  simp [Block.censusCheck]

@[simp] theorem Block.holderTakes_layout (b : Block) (l : List Byte) : (b.holderTakes l).layout = b.layout := by
  simp [Block.holderTakes]

@[simp] theorem Block.reporterTakes_layout (b : Block) (l : List Byte) : (b.reporterTakes l).layout = b.layout := by
  simp only [Block.reporterTakes]
  (repeat' split) <;> simp

@[simp] theorem Block.reportReady_layout (b : Block) : (b.reportReady).layout = b.layout := by
  simp only [Block.reportReady]
  (repeat' split) <;> simp

/-! ### Efing -/

@[simp] theorem Block.countPort_layout (b : Block) (h : HalfId) (x hi lo n : Nat) : (b.countPort h x hi lo n).layout = b.layout := by
  simp [Block.countPort]

@[simp] theorem Block.watchPorts_layout (b : Block) : (b.watchPorts).layout = b.layout := by
  simp [Block.watchPorts]

@[simp] theorem Block.dropLink_layout (b : Block) (h : HalfId) (x st cause : Nat) (retraining : Bool) :
    (b.dropLink h x st cause retraining).layout = b.layout := by
  simp [Block.dropLink]

@[simp] theorem Block.fencePort_layout (b : Block) (h : HalfId) (x cause : Nat) : (b.fencePort h x cause).layout = b.layout := by
  simp [Block.fencePort]

@[simp] theorem Block.retrain_layout (b : Block) (h : HalfId) (x : Nat) : (b.retrain h x).layout = b.layout := by
  simp [Block.retrain]

@[simp] theorem Block.riseLink_layout (b : Block) (h : HalfId) (x : Nat) (again : Bool) : (b.riseLink h x again).layout = b.layout := by
  simp [Block.riseLink]

@[simp] theorem Block.sendIdentity_layout (b : Block) (h : HalfId) (x : Nat) : (b.sendIdentity h x).layout = b.layout := by
  simp [Block.sendIdentity]

@[simp] theorem Block.emitAll_layout (b : Block) (h : HalfId) (x : Nat) (l : List Packet) : (b.emitAll h x l).layout = b.layout := by
  induction l generalizing b h x <;> simp_all [Block.emitAll]

@[simp] theorem Block.replayLink_layout (b : Block) (h : HalfId) (x : Nat) : (b.replayLink h x).layout = b.layout := by
  simp [Block.replayLink]

@[simp] theorem Block.takeAck_layout (b : Block) (h : HalfId) (x kind ack : Nat) : (b.takeAck h x kind ack).layout = b.layout := by
  simp [Block.takeAck]

@[simp] theorem Block.takeCredits_layout (b : Block) (h : HalfId) (x cls n : Nat) : (b.takeCredits h x cls n).layout = b.layout := by
  simp [Block.takeCredits]

@[simp] theorem Block.orphan_layout (b : Block) (h : HalfId) (p : Packet) : (b.orphan h p).layout = b.layout := by
  simp [Block.orphan]

@[simp] theorem Block.arrive_layout (b : Block) (h : HalfId) (x : Nat) (l : List Packet) : (b.arrive h x l).layout = b.layout := by
  induction l generalizing b h x <;> simp_all [Block.arrive]

@[simp] theorem Block.takeLstate_layout (b : Block) (h : HalfId) (x ls : Nat) : (b.takeLstate h x ls).layout = b.layout := by
  simp [Block.takeLstate]

@[simp] theorem Block.takeControl_layout (b : Block) (h : HalfId) (x : Nat) (w : Word) : (b.takeControl h x w).layout = b.layout := by
  simp [Block.takeControl]

@[simp] theorem Block.routeAll_layout (b : Block) (h : HalfId) (l : List Packet) : (b.routeAll h l).layout = b.layout := by
  induction l generalizing b h <;> simp_all [Block.routeAll]

/-! ### Video -/

@[simp] theorem Block.modHarbour_layout (b : Block) (h : HalfId) (f : Harbour → Harbour) : (b.modHarbour h f).layout = b.layout := by
  simp [Block.modHarbour]

@[simp] theorem Block.assignUnit_layout (b : Block) (t : TaskRef) (p : Nat) : (b.assignUnit t p).layout = b.layout := by
  simp [Block.assignUnit]

@[simp] theorem Block.countPipe_layout (b : Block) (h : HalfId) (p n : Nat) : (b.countPipe h p n).layout = b.layout := by
  simp [Block.countPipe]

@[simp] theorem Block.countUnit_layout (b : Block) (t : TaskRef) (n : Nat) : (b.countUnit t n).layout = b.layout := by
  simp only [Block.countUnit]
  (repeat' split) <;> simp

@[simp] theorem Block.setStream_layout (b : Block) (h : HalfId) (i : Nat) (x : StreamCtx) : (b.setStream h i x).layout = b.layout := by
  simp [Block.setStream]

@[simp] theorem Block.modStream_layout (b : Block) (h : HalfId) (i : Nat) (f : StreamCtx → StreamCtx) : (b.modStream h i f).layout = b.layout := by
  simp only [Block.modStream]
  (repeat' split) <;> simp

@[simp] theorem Block.joinStream_layout (b : Block) (t : TaskRef) (i : Nat) : (b.joinStream t i).layout = b.layout := by
  simp [Block.joinStream]

@[simp] theorem Block.closeStreams_layout (b : Block) (job : Nat) : (b.closeStreams job).layout = b.layout := rfl

@[simp] theorem Block.countClip_layout (b : Block) (h : HalfId) (k : Clip) : (b.countClip h k).layout = b.layout := by
  simp [Block.countClip]

@[simp] theorem Block.countStatus_layout (b : Block) (h : HalfId) (st : Nat) : (b.countStatus h st).layout = b.layout := by
  simp [Block.countStatus]

@[simp] theorem Block.stopStream_layout (b : Block) (t : TaskRef) (i : Nat) (e : Stop) : (b.stopStream t i e).layout = b.layout := by
  simp only [Block.stopStream]
  (repeat' split) <;> simp

@[simp] theorem Block.endDecode_layout (b : Block) (t : TaskRef) (g : Graph) (c : TaskCtx) (k : Clip) (n : Nat) (r : Nat × Nat × Bool)
    (cells : List Host.Cell) :
    (b.endDecode t g c k n r cells).layout = b.layout := by
  simp only [Block.endDecode]
  (repeat' split) <;> simp

/-! ### Media -/

@[simp] theorem Block.countSample_layout (b : Block) (h : HalfId) (st : Nat) : (b.countSample h st).layout = b.layout := by
  simp [Block.countSample]

@[simp] theorem Block.endSample_layout (b : Block) (t : TaskRef) (cells : List Host.Cell) (shapes : List Nat) (st det : Nat) :
    (b.endSample t cells shapes st det).layout = b.layout := by
  simp [Block.endSample]

/-! ### Functions -/

@[simp] theorem Block.funcLog_layout (b : Block) (f : FuncId) (event arg1 : Nat) : (b.funcLog f event arg1).layout = b.layout := by
  simp [Block.funcLog]

@[simp] theorem Block.funcRefused_layout (b : Block) (f : FuncId) (what value status : Nat) :
    (b.funcRefused f what value status).layout = b.layout := by
  simp [Block.funcRefused]

@[simp] theorem Block.enablePort_layout (b : Block) (h : HalfId) (x : Nat) : (b.enablePort h x).layout = b.layout := by
  simp [Block.enablePort]

@[simp] theorem Block.enableFunc_layout (b : Block) (a : Actor) (f : FuncId) (what : Nat) : (b.enableFunc a f what).block.layout = b.layout := by
  simp only [Block.enableFunc]
  (repeat' split) <;> simp

@[simp] theorem Block.freshContext_layout (b : Block) (t : TaskRef) : (b.freshContext t).layout = b.layout := by
  simp only [Block.freshContext]
  (repeat' split) <;> simp

@[simp] theorem Block.abortAll_layout (b : Block) (detail : Nat) (l : List TaskRef) : (b.abortAll detail l).layout = b.layout := by
  induction l generalizing b detail <;> simp_all [Block.abortAll]

@[simp] theorem Block.flushPort_layout (b : Block) (h : HalfId) (x : Nat) : (b.flushPort h x).layout = b.layout := by
  simp [Block.flushPort]

@[simp] theorem Block.freeArrays_layout (b : Block) (ts : List TaskRef) : (b.freeArrays ts).layout = b.layout := by
  simp [Block.freeArrays]

@[simp] theorem Block.manageTo_layout (b : Block) (h : HalfId) (op : Nat) (l : List (Nat × List Byte)) : (b.manageTo h op l).layout = b.layout := by
  induction l generalizing b h op <;> simp_all [Block.manageTo]

@[simp] theorem Block.ackAborts_layout (b : Block) (k : Nat) : (b.ackAborts k).layout = b.layout := by
  simp [Block.ackAborts]

@[simp] theorem Block.closePort_layout (b : Block) (h : HalfId) (x : Nat) : (b.closePort h x).layout = b.layout := by
  simp [Block.closePort]

theorem Block.addRow_layout (b : Block) (k : Nat) (r : PageRow) : ∀ z, b.addRow k r = .ok z → z.layout = b.layout := by
  simp only [Block.addRow]
  (repeat' split) <;> simp

theorem Block.addRows_layout (b : Block) (k : Nat) (l : List PageRow) : ∀ z, b.addRows k l = .ok z → z.layout = b.layout := by
  induction l generalizing b with
  | nil => rintro z ⟨⟩; rfl
  | cons r rs ih =>
    intro z e
    rw [Block.addRows] at e
    split at e
    · cases e
    · next e1 => rw [ih _ z e, Block.addRow_layout b k r _ e1]

@[simp] theorem Block.clearRegs_layout (b : Block) (lo hi : Nat) : (b.clearRegs lo hi).layout = b.layout := by
  simp [Block.clearRegs]

@[simp] theorem Block.clearSlot_layout (b : Block) (h : HalfId) (k : Nat) : (b.clearSlot h k).layout = b.layout := by
  simp [Block.clearSlot]

@[simp] theorem Block.setHashes_layout (b : Block) (h : HalfId) (k : Nat) (x : List Nat × List Nat × List Nat) :
    (b.setHashes h k x).layout = b.layout := by
  simp [Block.setHashes]

@[simp] theorem Block.storeExperts_layout (b : Block) (h : HalfId) (k : Nat) (l : List Nat) : (b.storeExperts h k l).layout = b.layout := by
  simp [Block.storeExperts]

@[simp] theorem Block.clearStalls_layout (b : Block) (h : HalfId) (v : Word) : (b.clearStalls h v).layout = b.layout := by
  simp [Block.clearStalls]

@[simp] theorem Block.invalidateKv_layout (b : Block) (h : HalfId) (k : Nat) : (b.invalidateKv h k).layout = b.layout := by
  simp [Block.invalidateKv]

/-! ### Tide -/

@[simp] theorem Block.modTide_layout (b : Block) (h : HalfId) (f : TideClock → TideClock) : (b.modTide h f).layout = b.layout := by
  simp [Block.modTide]

@[simp] theorem Block.setTideStat_layout (b : Block) (h : HalfId) (hi lo v : Nat) : (b.setTideStat h hi lo v).layout = b.layout := by
  simp [Block.setTideStat]

@[simp] theorem Block.slewed_layout (b : Block) (h : HalfId) : (b.slewed h).layout = b.layout := by
  simp [Block.slewed]

@[simp] theorem Block.lockTide_layout (b : Block) (h : HalfId) : (b.lockTide h).layout = b.layout := by
  simp [Block.lockTide]

@[simp] theorem Block.sendTime_layout (b : Block) (h : HalfId) (x op tx : Nat) (payload : List Byte) :
    (b.sendTime h x op tx payload).layout = b.layout := by
  simp [Block.sendTime]

@[simp] theorem Block.syncLinks_layout (b : Block) (h : HalfId) (l : List Nat) : (b.syncLinks h l).layout = b.layout := by
  induction l generalizing b h <;> simp_all [Block.syncLinks]

@[simp] theorem Block.unbufferTime_layout (b : Block) (h : HalfId) (x op : Nat) : (b.unbufferTime h x op).layout = b.layout := by
  simp only [Block.unbufferTime]
  (repeat' split) <;> simp

@[simp] theorem Block.takeParent_layout (b : Block) (h : HalfId) (x : Nat) : (b.takeParent h x).layout = b.layout := by
  simp [Block.takeParent]

@[simp] theorem Block.loseParent_layout (b : Block) (h : HalfId) : (b.loseParent h).layout = b.layout := by
  simp [Block.loseParent]

@[simp] theorem Block.steer_layout (b : Block) (h : HalfId) (x t1 t2 t3 : Nat) : (b.steer h x t1 t2 t3).layout = b.layout := by
  simp [Block.steer]

@[simp] theorem Block.startRoot_layout (b : Block) (h : HalfId) (now ref : Nat) : (b.startRoot h now ref).layout = b.layout := by
  simp [Block.startRoot]

@[simp] theorem Block.reference_layout (b : Block) (h : HalfId) (now ref : Nat) : (b.reference h now ref).layout = b.layout := by
  simp [Block.reference]

@[simp] theorem Block.loseReference_layout (b : Block) (h : HalfId) : (b.loseReference h).layout = b.layout := by
  simp [Block.loseReference]

/-! ### Lease -/

@[simp] theorem Block.modDomain_layout (b : Block) (f : Domain → Domain) : (b.modDomain f).layout = b.layout := by
  simp [Block.modDomain]

@[simp] theorem Block.keepRecord_layout (b : Block) (l : List Byte) : (b.keepRecord l).layout = b.layout := by
  simp [Block.keepRecord]

@[simp] theorem Block.sendRecord_layout (b : Block) (l : List Byte) (ms : List Nat) : (b.sendRecord l ms).layout = b.layout := by
  induction ms generalizing b <;> simp_all [Block.sendRecord]

@[simp] theorem Block.appendRecord_layout (b : Block) (draft : List Byte) : (b.appendRecord draft).layout = b.layout := by
  rw [Block.appendRecord, Block.sendRecord_layout, Block.modDomain_layout, Block.keepRecord_layout]

@[simp] theorem Block.payOwed_layout (b : Block) (l : List Byte) (ep word : Nat) : (b.payOwed l ep word).layout = b.layout := by
  simp [Block.payOwed]

@[simp] theorem Block.payAll_layout (b : Block) (l : List Byte) : (b.payAll l).layout = b.layout := by
  simp [Block.payAll]

@[simp] theorem Block.orderAll_layout (b : Block) (l : List Byte) : (b.orderAll l).layout = b.layout := by
  simp [Block.orderAll]

@[simp] theorem Block.declareLost_layout (b : Block) (tray cause : Nat) : (b.declareLost tray cause).layout = b.layout := by
  unfold Block.declareLost
  split
  · rfl
  · rw [Block.appendRecord_layout, Block.layout_foldl _ (fun x l => Block.sendRecord_layout x l _), Block.modDomain_layout]

@[simp] theorem Block.trySubst_layout (b : Block) : (b.trySubst).layout = b.layout := by
  simp only [Block.trySubst]
  (repeat' split) <;> simp

@[simp] theorem Block.resumeJobs_layout (b : Block) (tray : Nat) : (b.resumeJobs tray).layout = b.layout := by
  unfold Block.resumeJobs
  split
  · rfl
  · exact Block.layout_foldl _ (fun _ _ => by split <;> simp) _ _

@[simp] theorem Block.actOn_layout (b : Block) (l : List Byte) : (b.actOn l).layout = b.layout := by
  simp only [Block.actOn]
  (repeat' split) <;> simp

@[simp] theorem Block.complete_layout (b : Block) (seq : Nat) : (b.complete seq).layout = b.layout := by
  simp only [Block.complete]
  (repeat' split) <;> simp

@[simp] theorem Block.pump_layout (b : Block) (l : Nat) : (b.pump l).layout = b.layout := by
  induction l generalizing b with
  | zero => rfl
  | succ n ih =>
    rw [Block.pump]
    split
    · simp only [ih]; split <;> simp
    · split <;> simp [ih]

@[simp] theorem Block.lead_layout (b : Block) : (b.lead).layout = b.layout := by
  simp [Block.lead]

@[simp] theorem Block.takeLead_layout (b : Block) : (b.takeLead).layout = b.layout := by
  unfold Block.takeLead
  rw [Block.lead_layout, Block.appendRecord_layout, Block.layout_foldl _ (fun _ _ => by split <;> simp), Block.modDomain_layout]

@[simp] theorem Block.readReplicas_layout (b : Block) (old : Option Nat) : (b.readReplicas old).layout = b.layout := by
  simp [Block.readReplicas]

@[simp] theorem Block.readDone_layout (b : Block) (gone : Nat → Bool) : (b.readDone gone).layout = b.layout := by
  simp only [Block.readDone]
  (repeat' split) <;> simp

@[simp] theorem Block.showLease_layout (b : Block) (rank m t : Nat) : (b.showLease rank m t).layout = b.layout := by
  simp [Block.showLease]

@[simp] theorem Block.sendLease_layout (b : Block) : (b.sendLease).layout = b.layout := by
  simp [Block.sendLease]

@[simp] theorem Block.dropLease_layout (b : Block) : (b.dropLease).layout = b.layout := by
  simp [Block.dropLease]

@[simp] theorem Block.reappend_layout (b : Block) : (b.reappend).layout = b.layout := by
  simp [Block.reappend]

@[simp] theorem Block.hearLease_layout (b : Block) (rank t m : Nat) : (b.hearLease rank t m).layout = b.layout := by
  simp [Block.hearLease]

@[simp] theorem Block.takeVerdict_layout (b : Block) (l : List Byte) (ep run : Nat) : (b.takeVerdict l ep run).layout = b.layout := by
  simp only [Block.takeVerdict]
  (repeat' split) <;> simp

@[simp] theorem Block.answerBlock_layout (b : Block) (h : HalfId) (g : Graph) (c : TaskCtx) (w0 w1 : Nat) :
    (b.answerBlock h g c w0 w1).2.layout = b.layout := by
  simp only [Block.answerBlock]
  (repeat' split) <;> simp

@[simp] theorem Block.ownerAck_layout (b : Block) (h : HalfId) (l : List Byte) (run : Nat) : (b.ownerAck h l run).layout = b.layout := by
  simp only [Block.ownerAck]
  (repeat' split) <;> simp

@[simp] theorem Block.leaderRepeat_layout (b : Block) (job step : Nat) : (b.leaderRepeat job step).layout = b.layout := by
  simp [Block.leaderRepeat]

@[simp] theorem Block.answerTasks_layout (b : Block) (h : HalfId) (w0 w1 : Nat) (l : List (TaskRef × Graph × TaskCtx)) :
    (b.answerTasks h w0 w1 l).layout = b.layout := by
  induction l generalizing b h w0 w1 <;> simp_all [Block.answerTasks]

@[simp] theorem Block.ackAction_layout (b : Block) (h : HalfId) (p : Packet) : (b.ackAction h p).layout = b.layout := by
  simp [Block.ackAction]

@[simp] theorem Block.recovery_layout (b0 : Block) (h : HalfId) (p : Packet) (kind : Nat) (f : Block → List Byte → Block) (hf : ∀ (x : Block) u0,
    (f x u0).layout = x.layout) :
    (b0.recovery h p kind f).layout = b0.layout := by
  unfold Block.recovery
  (repeat' split) <;> simp_all

@[simp] theorem Block.fenceTray_layout (b : Block) (h : HalfId) (tray : Nat) : (b.fenceTray h tray).layout = b.layout := by
  simp [Block.fenceTray]

@[simp] theorem Block.loseTray_layout (b : Block) (h : HalfId) (tray : Nat) : (b.loseTray h tray).layout = b.layout := by
  simp [Block.loseTray]

@[simp] theorem Block.backUpRoot_layout (b : Block) (h : HalfId) (tray : Nat) : (b.backUpRoot h tray).layout = b.layout := by
  simp [Block.backUpRoot]

/-! ### TierRegs -/

@[simp] theorem Block.mainGo_layout (b : Block) (h : HalfId) (job : Nat) (retire : Bool) : (b.mainGo h job retire).block.layout = b.layout := by
  simp only [Block.mainGo]
  (repeat' split) <;> simp

@[simp] theorem Block.writeLend_layout (b : Block) (a : Actor) (h : HalfId) (v : Nat) : (b.writeLend a h v).block.layout = b.layout := by
  simp only [Block.writeLend]
  (repeat' split) <;> simp

/-! ### ShelfBay -/

@[simp] theorem Block.scrubBad_layout (b : Block) (h : HalfId) (l : List Nat) : (b.scrubBad h l).layout = b.layout := by
  induction l generalizing b h <;> simp_all [Block.scrubBad]

@[simp] theorem Block.scrubUpset_layout (b : Block) (a : Nat) (l : Upset) : (b.scrubUpset a l).layout = b.layout := by
  simp only [Block.scrubUpset]
  (repeat' split) <;> simp

@[simp] theorem Block.testGo_layout (b : Block) (h : HalfId) (ch mode : Nat) : (b.testGo h ch mode).block.layout = b.layout := by
  simp only [Block.testGo]
  (repeat' split) <;> simp

@[simp] theorem Block.sweepBad_layout (b : Block) (h : HalfId) (ch first n : Nat) (l : List TgLine) :
    (b.sweepBad h ch first n l).layout = b.layout := by
  induction l generalizing b h ch first n <;> simp_all [Block.sweepBad]

/-! ### Batch -/

@[simp] theorem Block.nextPosition_layout (b : Block) (t : TaskRef) (a : Access) (c : TaskCtx) (w : BatchWork) (cells : List Host.Cell) :
    (b.nextPosition t a c w cells).layout = b.layout := by
  simp only [Block.nextPosition]
  (repeat' split) <;> simp

@[simp] theorem Block.fillPosition_layout (b : Block) (t : TaskRef) (a : Access) (c : TaskCtx) (w : BatchWork) (own : List Host.Cell) :
    (b.fillPosition t a c w own).layout = b.layout := by
  simp only [Block.fillPosition]
  (repeat' split) <;> simp

@[simp] theorem Block.failAttempt_layout (b : Block) (t : TaskRef) (a : Access) (c : TaskCtx) (w : BatchWork) (st det : Nat) :
    (b.failAttempt t a c w st det).layout = b.layout := by
  simp only [Block.failAttempt]
  (repeat' split) <;> simp

@[simp] theorem Block.onAugment_layout (b : Block) (t : TaskRef) (code : Nat) (f : TaskCtx → BatchWork → (Nat → Nat) → AugRecord → BatchWork) :
    (b.onAugment t code f).layout = b.layout := by
  refine b.onRunning_layout t _ _ (fun g c => ?_)
  dsimp only
  (repeat' split) <;> simp

/-! ### Conv -/

@[simp] theorem Block.convCount_layout (b : Block) (c : TaskCtx) (q : Pairing) : (b.convCount c q).layout = b.layout := by
  simp [Block.convCount]

@[simp] theorem Block.convCountParts_layout (b : Block) (c : TaskCtx) : (b.convCountParts c).layout = b.layout := by
  simp [Block.convCountParts]

@[simp] theorem Block.startConv_layout (b : Block) (c : TaskCtx) : (b.startConv c).layout = b.layout := by
  simp [Block.startConv]

@[simp] theorem Block.convLand_layout (b : Block) (t : TaskRef) (c : TaskCtx) (parity : Option BankUpset) (run : List (Res Stored) × Nat)
    (f : Block → ConvStats → Block) (hf : ∀ (x : Block) u0, (f x u0).layout = x.layout) :
    (b.convLand t c parity run f).layout = b.layout := by
  simp only [Block.convLand]
  (repeat' split) <;> simp [hf]

@[simp] theorem Block.convTask_layout (b : Block) (t : TaskRef) (g : Graph) (c : TaskCtx) (parity : Option BankUpset) :
    (b.convTask t g c parity).layout = b.layout := by
  simp only [Block.convTask]
  (repeat' split) <;> simp

/-! ### Fire -/

@[simp] theorem Block.startTask_layout (b : Block) (t : TaskRef) (g : Graph) (c : TaskCtx) : (b.startTask t g c).layout = b.layout := by
  simp only [Block.startTask]
  (repeat' split) <;> simp

@[simp] theorem Block.checkFired_layout (b : Block) (t : TaskRef) (g : Graph) (c : TaskCtx) : (b.checkFired t g c).layout = b.layout := by
  simp only [Block.checkFired]
  (repeat' split) <;> simp

@[simp] theorem Block.contextUpset_layout (b : Block) (h : HalfId) (l : Upset) : (b.contextUpset h l).layout = b.layout := by
  simp only [Block.contextUpset]
  (repeat' split) <;> simp

/-! ### Power -/

@[simp] theorem Block.rampUp_layout (b : Block) (issued : Nat) : (b.rampUp issued).layout = b.layout := by
  simp [Block.rampUp]

@[simp] theorem Block.limit_layout (b : Block) (est want : Nat) : (b.limit est want).layout = b.layout := by
  simp [Block.limit]

@[simp] theorem Block.setRail_layout (b : Block) (r : Nat) (x : Nat × Nat) : (b.setRail r x).layout = b.layout := by
  simp [Block.setRail]

@[simp] theorem Block.openHints_layout (b : Block) : (b.openHints).layout = b.layout := by
  simp [Block.openHints]

@[simp] theorem Block.setTemp_layout (b : Block) (a : Nat) (seen : Bool) (t : Int) : (b.setTemp a seen t).layout = b.layout := by
  simp [Block.setTemp]

@[simp] theorem Block.setTemps_layout (b : Block) (l : List Int) (ms1 : Nat) : (b.setTemps l ms1).layout = b.layout := by
  induction l generalizing b ms1 <;> simp_all [Block.setTemps]

@[simp] theorem Block.setChannels_layout (b : Block) (l : List Int) (ms1 : Nat) : (b.setChannels l ms1).layout = b.layout := by
  induction l generalizing b ms1 <;> simp_all [Block.setChannels]

@[simp] theorem Block.followBand_layout (b : Block) (h : HalfId) : (b.followBand h).layout = b.layout := by
  simp [Block.followBand]

@[simp] theorem Block.logThermal_layout (b : Block) (t : Int) (severity : Nat) : (b.logThermal t severity).layout = b.layout := by
  simp [Block.logThermal]

@[simp] theorem Block.throttle_layout (b : Block) (t : Int) : (b.throttle t).layout = b.layout := by
  simp [Block.throttle]

/-! ### RegWrite -/

@[simp] theorem Block.ignoreWrite_layout (b : Block) (a : Actor) (addr : Nat) (v : Word) (perm : Bool) :
    (b.ignoreWrite a addr v perm).block.layout = b.layout := by
  simp [Block.ignoreWrite]

@[simp] theorem Block.storeReg_layout (b : Block) (a : Actor) (r : RegRow) (addr : Nat) (v : Word) :
    (b.storeReg a r addr v).block.layout = b.layout := by
  simp only [Block.storeReg]
  (repeat' split) <;> simp

@[simp] theorem Block.debugCommand_layout (b : Block) (a : Actor) (n : Nat) (v : Word) : (b.debugCommand a n v).block.layout = b.layout := by
  simp only [Block.debugCommand]
  (repeat' split) <;> simp

@[simp] theorem Block.slackCommand_layout (b : Block) (a : Actor) (v : Word) : (b.slackCommand a v).block.layout = b.layout := by
  simp only [Block.slackCommand]
  (repeat' split) <;> simp

@[simp] theorem Block.maskWrite_layout (b : Block) (vec : Nat) (r : RegRow) (v : Word) : (b.maskWrite vec r v).layout = b.layout := by
  simp [Block.maskWrite]

@[simp] theorem Block.mailboxGo_layout (b : Block) (a : Actor) (v : Word) : (b.mailboxGo a v).block.layout = b.layout := by
  simp only [Block.mailboxGo]
  (repeat' split) <;> simp

@[simp] theorem Block.pairCommand_layout (b : Block) (a : Actor) (q off : Nat) (r : RegRow) (v : Word) :
    (b.pairCommand a q off r v).block.layout = b.layout := by
  simp only [Block.pairCommand]
  (repeat' split) <;> simp

theorem Block.moduleCommand_layout (b : Block) (a : Actor) (addr : Nat) (r : RegRow) (v : Word) :
    ∀ z, b.moduleCommand a addr r v = some z → z.block.layout = b.layout := by
  simp only [Block.moduleCommand]
  (repeat' split) <;> simp

@[simp] theorem Block.shapeWrite_layout (b : Block) (addr : Nat) (v : Word) : (b.shapeWrite addr v).block.layout = b.layout := by
  simp [Block.shapeWrite]

/-! ### Attest -/

@[simp] theorem Block.leaveDomain_layout (b : Block) : (b.leaveDomain).layout = b.layout := by
  simp [Block.leaveDomain]

@[simp] theorem Block.resetZilsy_layout (b : Block) : (b.resetZilsy).layout = b.layout := by
  simp [Block.resetZilsy]

/-! ## What every step keeps of the layout -/

/-- 16 slots, 64 queue pairs and 10 links a half. -/
def Layout.Full (x : Layout) : Prop := x.slots.length = 16 ∧ x.pairs = 64 ∧ x.portsA = 10 ∧ x.portsB = 10

/-- What a change of the layout from `x` to `y` keeps. -/
structure LayoutKept (x y : Layout) : Prop where
  full : x.Full → y.Full
  length : x.slots.length = 16 → y.slots.length = 16
  oneSlot : x.slots.length = 16 → OneSlot x.slots → OneSlot y.slots

@[simp] theorem LayoutKept.refl (x : Layout) : LayoutKept x x := ⟨id, id, fun _ h => h⟩

theorem LayoutKept.ofEq {x y : Layout} (h : y = x) : LayoutKept x y := h ▸ LayoutKept.refl x

theorem LayoutKept.trans {x y z : Layout} (h : LayoutKept x y) (g : LayoutKept y z) : LayoutKept x z :=
  ⟨g.full ∘ h.full, g.length ∘ h.length, fun hl ho => g.oneSlot (h.length hl) (h.oneSlot hl ho)⟩

theorem oneSlot_unbound (n : Nat) : OneSlot (List.replicate n (0, 0)) := by
  intro i j hi
  simp only [List.getD_eq_getElem?_getD, List.getElem?_replicate] at hi
  split at hi <;> exact absurd rfl hi

@[simp] theorem LayoutKept.reset (x : Layout) : LayoutKept x Block.reset.layout :=
  ⟨fun _ => ⟨rfl, rfl, rfl, rfl⟩, fun _ => rfl, fun _ _ => oneSlot_unbound 16⟩

/-- A change of the slots alone, of as many slots. -/
theorem LayoutKept.ofSlots {x y : Layout} (hlen : y.slots.length = x.slots.length) (hs : OneSlot x.slots → OneSlot y.slots)
    (hp : y.pairs = x.pairs) (hA : y.portsA = x.portsA) (hB : y.portsB = x.portsB) : LayoutKept x y :=
  ⟨fun ⟨h1, h2, h3, h4⟩ => ⟨hlen.trans h1, hp.trans h2, hA.trans h3, hB.trans h4⟩, fun h => hlen.trans h, fun _ => hs⟩

section
variable {x : Layout} {b : Block}

/-- A slot changed so that it is bound only if it was, and then to the same job. -/
theorem Block.modSlot_layoutKept (k : Nat) (f : JobSlot → JobSlot)
    (hf : ((f (b.slot k)).st ≠ 0 → (b.slot k).st ≠ 0 ∧ (f (b.slot k)).job = (b.slot k).job)) (h : LayoutKept x b.layout) :
    LayoutKept x (b.modSlot k f).layout := by
  refine h.trans (.ofSlots (by simp [Block.layout, Block.modSlot]) (fun hs => hs.mono fun i => ?_) rfl rfl rfl)
  simp only [Block.layout, getD_slots, Block.modSlot, getD_listMod]
  split
  · next hi => rw [hi.1]; exact hf
  · exact fun hi => ⟨hi, rfl⟩

/-- A slot's state set: it is bound if it was. -/
theorem Block.setFunc_layoutKept (f : FuncId) (y : FuncState)
    (hy : ∀ k : Fin 16, f = .slot k → (y.st = 0 ∨ y.st = 1) → (b.slot k.val).st ≠ 0) (h : LayoutKept x b.layout) :
    LayoutKept x (b.setFunc f y).layout := by
  cases f with
  | slot k =>
    refine Block.modSlot_layoutKept _ _ (fun hst => ⟨hy k rfl ?_, rfl⟩) h
    simp only at hst
    split at hst
    · exact .inl ‹_›
    · exact .inr ‹_›
    · exact absurd rfl hst
  | core n => simpa [Block.setFunc] using h
  | harbour n => simpa [Block.setFunc] using h
  | port n => simpa [Block.setFunc] using h

/-- A bound slot's function is enabled or draining. -/
theorem Block.slot_bound_of_func {k : Fin 16} (h : (b.func (.slot k)).st ≠ 2) : (b.slot k.val).st ≠ 0 := by
  intro h0
  simp [Block.func, h0] at h

@[simp] theorem Block.startDrain_layoutKept (f : FuncId) (h : LayoutKept x b.layout) : LayoutKept x (b.startDrain f).layout := by
  unfold Block.startDrain
  split
  · exact h
  · next hst =>
    extract_lets g b1 b2
    have hb1 : LayoutKept x b1.layout := by
      refine Block.setFunc_layoutKept f _ (fun k hk _ => Block.slot_bound_of_func ?_) h
      subst hk; omega
    have hb2 : b2.layout = b1.layout := by
      simp only [b2]; split <;> simp
    simpa [hb2] using hb1

@[simp] theorem Block.audited_layoutKept (a : Actor) (c : Change) (f : Block → Block)
    (hf : ∀ c : Block, LayoutKept x c.layout → LayoutKept x (f c).layout) (h : LayoutKept x b.layout) :
    LayoutKept x (b.audited a c f).1.layout := by
  unfold Block.audited
  split
  · exact hf _ (by simpa using h)
  · exact hf _ (by simpa using h)
  · simpa using h

@[simp] theorem Block.auditedAnswer_layoutKept (a : Actor) (c : Change) (f : Block → Block)
    (hf : ∀ c : Block, LayoutKept x c.layout → LayoutKept x (f c).layout) (h : LayoutKept x b.layout) :
    LayoutKept x (b.auditedAnswer a c f).block.layout :=
  Block.audited_layoutKept a c f hf h

@[simp] theorem Block.command_layoutKept (m : Envelope) (roles : List Nat) (needed : Nat) (f : Actor → Block → Answer)
    (hf : ∀ a (c : Block), LayoutKept x c.layout → LayoutKept x (f a c).block.layout) (h : LayoutKept x b.layout) :
    LayoutKept x (b.command m roles needed f).layout := by
  unfold Block.command
  split
  · exact h
  · split
    · simpa using h
    · dsimp only
      split
      · simpa using hf _ _ (by simpa using h)
      · simpa using h

@[simp] theorem Block.byPath_layoutKept (p : Path) (roles : List Nat) (needed : Nat) (f : Actor → Block → Answer)
    (hf : ∀ a (c : Block), LayoutKept x c.layout → LayoutKept x (f a c).block.layout) (h : LayoutKept x b.layout) :
    LayoutKept x (b.byPath p roles needed f).layout := by
  unfold Block.byPath
  split
  · split
    · exact h
    · split
      · exact hf _ _ h
      · simpa using h
  · exact Block.command_layoutKept _ _ _ _ hf h

@[simp] theorem Block.disableFunc_layoutKept (a : Actor) (f : FuncId) (h : LayoutKept x b.layout) :
    LayoutKept x (b.disableFunc a f).block.layout := by
  unfold Block.disableFunc
  split
  · exact h
  · exact Block.auditedAnswer_layoutKept a _ _ (fun c hc => Block.startDrain_layoutKept f hc) h

/-- Slots of one layout have the same states. -/
theorem Block.slot_st_of_layout {b c : Block} (h : b.layout = c.layout) (k : Nat) : (b.slot k).st = (c.slot k).st := by
  have hk := congrArg (fun y : Layout => (y.slots.getD k (0, 0)).1) h
  simp only [Block.layout, getD_slots] at hk
  exact hk

@[simp] theorem Block.abortFor_layoutKept (f : FuncId) (ts : List TaskRef) (h : LayoutKept x b.layout) :
    LayoutKept x (b.abortFor f ts).layout := by
  unfold Block.abortFor
  split
  · exact h
  · next t _ =>
    extract_lets y b1 b2
    have hb2 : b2.layout = b.layout := by
      simp only [b2, b1]; split <;> simp
    refine Block.setFunc_layoutKept f _ (fun k hk hst => ?_) (hb2 ▸ h)
    rw [Block.slot_st_of_layout hb2]
    refine Block.slot_bound_of_func ?_
    subst hk
    simp only [y] at hst
    omega

@[simp] theorem Block.closeSlot_layoutKept (k : Nat) (h : LayoutKept x b.layout) : LayoutKept x (b.closeSlot k).layout := by
  simp only [Block.closeSlot, Block.releaseSlot, Block.ackAborts_layout]
  refine Block.modSlot_layoutKept _ _ (fun h0 => absurd rfl h0) ?_
  simpa using h

@[simp] theorem Block.drainSlots_layoutKept (ks : List Nat) (h : LayoutKept x b.layout) : LayoutKept x (b.drainSlots ks).layout := by
  induction ks generalizing b with
  | nil => exact h
  | cons k ks ih => exact ih (Block.startDrain_layoutKept _ h)

theorem Block.slot_job_of_layout {b c : Block} (h : b.layout = c.layout) (k : Nat) : (b.slot k).job = (c.slot k).job := by
  have hk := congrArg (fun y : Layout => (y.slots.getD k (0, 0)).2) h
  simp only [Block.layout, getD_slots] at hk
  exact hk

/-- A slot that takes a job which no slot holds. -/
theorem Block.modSlot_layoutKept_of_free (k : Nat) {f : JobSlot → JobSlot} {job : Nat} (hf : ∀ s, (f s).job = job)
    (hfree : ∀ i, (b.slot i).st ≠ 0 → (b.slot i).job ≠ job) (h : LayoutKept x b.layout) : LayoutKept x (b.modSlot k f).layout := by
  have hbound (n : Nat) (hn : ((b.modSlot k f).slot n).st ≠ 0) :
      n = k ∧ ((b.modSlot k f).slot n).job = job ∨ (b.slot n).st ≠ 0 ∧ ((b.modSlot k f).slot n).job = (b.slot n).job := by
    by_cases hnk : n = k ∧ n < b.slots.length
    · exact .inl ⟨hnk.1, by rw [Block.slot_modSlot, if_pos hnk, hf]⟩
    · rw [Block.slot_modSlot, if_neg hnk] at hn ⊢
      exact .inr ⟨hn, rfl⟩
  refine h.trans (.ofSlots (by simp [Block.layout, Block.modSlot]) (fun hone i j hi hj hij => ?_) rfl rfl rfl)
  simp only [Block.layout, getD_slots] at hi hj hij
  obtain ⟨hik, hi'⟩ | ⟨hi', hjob⟩ := hbound i hi <;> obtain ⟨hjk, hj'⟩ | ⟨hj', hjob'⟩ := hbound j hj
  · exact hik.trans hjk.symm
  · exact absurd (hjob'.symm.trans (hij.symm.trans hi')) (hfree j hj')
  · exact absurd (hjob.symm.trans (hij.trans hj')) (hfree i hi')
  · refine hone i j ?_ ?_ ?_ <;> simp only [Block.layout, getD_slots]
    · exact hi'
    · exact hj'
    · exact hjob.symm.trans (hij.trans hjob')

/-- A bind gives its slot a job that no slot holds (R40, R41). -/
theorem Block.bind_layoutKept {z : Block} {k job : Nat} {tables : List PageRow} (e : b.bind k job tables = .ok z) (h : LayoutKept x b.layout) :
    LayoutKept x z.layout := by
  unfold Block.bind at e
  split at e
  · cases e
  · next hfree =>
    split at e
    · cases e
    · next b1 hrows =>
      split at e
      · cases e
      · split at e
        · cases e
        · next xa _ _ xb _ =>
          cases e
          have hjob : b.slotOfJob job = none := by simpa using fun hs => hfree (.inl hs)
          have hstored : ((b1.storeExperts .a k xa.1).storeExperts .b k xb.1).layout = b.layout := by
            simp [Block.addRows_layout b k tables b1 hrows]
          simp only [Block.clearEnergy_layout, Block.setHashes_layout, Block.clearSlot_layout]
          refine Block.modSlot_layoutKept_of_free k (job := job) (fun _ => rfl) (fun i hi => ?_) (hstored ▸ h)
          rw [Block.slot_st_of_layout hstored] at hi
          rw [Block.slot_job_of_layout hstored]
          exact Block.job_ne_of_slotOfJob_none hjob hi

@[simp] theorem Block.cold_layout : b.cold.layout = Block.reset.layout := rfl

@[simp] theorem Block.startUp_layout (straps upNs : Nat) : (b.startUp straps upNs).layout = Block.reset.layout := by
  simp [Block.startUp]

@[simp] theorem Block.trip_layout : b.trip.layout = Block.reset.layout := by
  rw [Block.trip, Block.setRegFld_layout]
  rfl

@[simp] theorem Block.restart_layoutKept (h : LayoutKept x b.layout) : LayoutKept x b.restart.layout := by
  simp only [Block.restart]
  split
  · simp
  · simpa using h

@[simp] theorem Block.heat_layoutKept (was t : Int) (h : LayoutKept x b.layout) : LayoutKept x (b.heat was t).layout := by
  simp only [Block.heat]
  split
  · simp
  · repeat' split
    all_goals simpa using h

@[simp] theorem Block.bindWrite_layoutKept (k job : Nat) (tables : List PageRow) (h : LayoutKept x b.layout) :
    LayoutKept x (b.bindWrite k job tables).block.layout := by
  simp only [Block.bindWrite]
  split
  · simpa using h
  · split
    · simpa using h
    · next e => simpa using Block.bind_layoutKept e h

@[simp] theorem Block.funcCommand_layoutKept (a : Actor) (addr : Nat) (v : Word) (h : LayoutKept x b.layout) :
    LayoutKept x (b.funcCommand a addr v).block.layout := by
  simp only [Block.funcCommand]
  split
  · simpa using h
  · split <;> simp [h]

@[simp] theorem Block.slotCommand_layoutKept (k : Nat) (v : Word) (h : LayoutKept x b.layout) :
    LayoutKept x (b.slotCommand k v).block.layout := by
  simp only [Block.slotCommand]
  split
  · simp [h]
  · split <;> simp [h]

theorem forall_some_of_ite {α : Type} {P : α → Prop} {p : Prop} [Decidable p] {u v : Option α} (hu : ∀ y, u = some y → P y)
    (hv : ∀ y, v = some y → P y) : ∀ y, (if p then u else v) = some y → P y := by
  split
  · exact hu
  · exact hv

theorem Block.halfCommand_layoutKept (a : Actor) (addr : Nat) (v : Word) (h : LayoutKept x b.layout) :
    ∀ y, b.halfCommand a addr v = some y → LayoutKept x y.block.layout := by
  simp only [Block.halfCommand]
  repeat' refine forall_some_of_ite ?_ ?_
  all_goals rintro y ⟨⟩
  all_goals (repeat' split) <;> simp [h]

@[simp] theorem Block.writeReg_layoutKept (a : Actor) (addr : Nat) (v : Word) (h : LayoutKept x b.layout) :
    LayoutKept x (b.writeReg a addr v).block.layout := by
  simp only [Block.writeReg]
  split
  · split <;> simp [h]
  · split
    · simp [h]
    · split
      · simp [h]
      · split
        · simp [h]
        · split
          · simp [h]
          · split
            · next e =>
              split at e
              · exact Block.halfCommand_layoutKept a addr v h _ e
              · exact (Block.moduleCommand_layout b _ _ _ _ _ e) ▸ h
            · split <;> simp [h]

theorem Block.receive_layoutKept (h : HalfId) (p : Packet) (cls : Nat) (ops : List Nat) (f : Block → Block)
    (hf : ∀ c : Block, LayoutKept x c.layout → LayoutKept x (f c).layout) (hb : LayoutKept x b.layout) :
    LayoutKept x (b.receive h p cls ops f).layout := by
  unfold Block.receive
  split
  · exact hb
  · split
    · simpa using hb
    · split
      · simpa using hb
      · dsimp only
        split
        · simpa using hb
        · exact hf _ (by simpa using hb)

theorem Block.recovery_layoutKept (h : HalfId) (p : Packet) (kind : Nat) (f : Block → List Byte → Block)
    (hf : ∀ (c : Block) l, LayoutKept x c.layout → LayoutKept x (f c l).layout) (hb : LayoutKept x b.layout) :
    LayoutKept x (b.recovery h p kind f).layout := by
  unfold Block.recovery
  dsimp only
  split
  · exact hb
  · refine Block.receive_layoutKept _ _ _ _ _ (fun c hc => ?_) hb
    split
    · simpa using hc
    · split
      · split <;> simp [hc]
      · exact hf _ _ (by simpa using hc)

/-- A command acts on the block alone. -/
theorem LayoutKept.ofAct {s s' : State} {f : Block → Block} (e : s.act f = .next s') (hf : LayoutKept s.block.layout (f s.block).layout) :
    LayoutKept s.block.layout s'.block.layout := by
  cases e
  exact hf

end

/-! ## The layout and the commands -/

/-! ### An attempt at a sample -/

theorem exists_of_map_ok {ε α β : Type} {f : α → β} {x : Except ε α} {y : β} (e : x.map f = .ok y) : ∃ a, x = .ok a ∧ f a = y := by
  cases x with
  | error _ => cases e
  | ok a => exact ⟨a, rfl, Except.ok.inj e⟩

theorem Block.tryImage_layout {b : Block} {t : TaskRef} {a : Access} {c : TaskCtx} {unit : Nat} {l : List Byte} {draw : Nat} {r : AttemptOut}
    (e : b.tryImage t a c unit l draw = .ok r) : r.block.layout = b.layout := by
  simp only [Block.tryImage] at e
  split at e
  · cases e; rfl
  · obtain ⟨sc, -, rfl⟩ := exists_of_map_ok e
    simp
  · obtain ⟨sc, -, rfl⟩ := exists_of_map_ok e
    simp

theorem Block.tryVideo_layout {b : Block} {t : TaskRef} {g : Graph} {c : TaskCtx} {p : Nat} {l : List Byte} {draw : Nat} {r : AttemptOut}
    (e : b.tryVideo t g c p l draw = .ok r) : r.block.layout = b.layout := by
  simp only [Block.tryVideo] at e
  split at e
  · cases e; rfl
  · split at e
    · cases e
    · split at e <;> cases e
      simp

@[simp] theorem Block.tryAudio_layout (b : Block) (t : TaskRef) (c : TaskCtx) (l pf : List Byte) : (b.tryAudio t c l pf).block.layout = b.layout := by
  simp only [Block.tryAudio]
  split <;> rfl

@[simp] theorem Block.tryText_layout (b : Block) (t : TaskRef) (c : TaskCtx) (l : List Byte) : (b.tryText t c l).block.layout = b.layout := by
  simp only [Block.tryText]
  split
  · rfl
  · split <;> simp

theorem Block.tryDomain_layout {b : Block} {t : TaskRef} {g : Graph} {c : TaskCtx} {w : BatchWork} {u : Nat} {l pf : List Byte} {draw : Nat}
    {r : AttemptOut} (e : b.tryDomain t g c w u l pf draw = .ok r) : r.block.layout = b.layout := by
  simp only [Block.tryDomain] at e
  obtain ⟨x, hx, rfl⟩ := exists_of_map_ok e
  rw [Block.countPipe_layout]
  split at hx
  · exact Block.tryImage_layout hx
  · cases hx; simp
  · exact Block.tryVideo_layout hx
  · cases hx; simp

/-! ### Saffron -/

theorem execGraphAdmit_layoutKept {h : HalfId} {src : SourceId} {gid : Fin 4096} {s s' : State} (e : execGraphAdmit h src gid s = .next s') :
    LayoutKept s.block.layout s'.block.layout := by
  refine .ofAct e ?_
  dsimp only
  (repeat' split) <;> simp

theorem execGraphSubmit_layoutKept {h : HalfId} {p : Packet} {s s' : State} (e : execGraphSubmit h p s = .next s') :
    LayoutKept s.block.layout s'.block.layout := by
  refine .ofAct e (.ofEq (Block.receive_layout _ _ _ _ _ _ fun y => ?_))
  split
  · simp
  · exact Block.layout_getD (Block.submit_layout _ _ _ _ _ _ _ _ _) rfl

theorem execToken_layoutKept {t : TaskRef} {s s' : State} (e : execToken t s = .next s') :
    LayoutKept s.block.layout s'.block.layout := .ofAct e (by simp)

theorem execCancellation_layoutKept {t : TaskRef} {origin : Nat} {s s' : State} (e : execCancellation t origin s = .next s') :
    LayoutKept s.block.layout s'.block.layout := .ofAct e (by simp)

theorem execFnbTideReached_layoutKept {t : TaskRef} {s s' : State} (e : execFnbTideReached t s = .next s') :
    LayoutKept s.block.layout s'.block.layout := .ofAct e (by simp)

theorem execAgeLimitExpiry_layoutKept {t : TaskRef} {s s' : State} (e : execAgeLimitExpiry t s = .next s') :
    LayoutKept s.block.layout s'.block.layout := by
  refine .ofAct e ?_
  dsimp only
  (repeat' split) <;> simp

theorem execTaskEnd_layoutKept {t : TaskRef} {stalls : List StallCount} {s s' : State} (e : execTaskEnd t stalls s = .next s') :
    LayoutKept s.block.layout s'.block.layout := by
  refine .ofAct e ?_
  (repeat' split) <;> simp

theorem execRecordWrite_layoutKept {t : TaskRef} {s s' : State} (e : execRecordWrite t s = .next s') :
    LayoutKept s.block.layout s'.block.layout := .ofAct e (by simp)

theorem execGraphHeadWrite_layoutKept {h : HalfId} {g : Fin 4096} {head : Word} {s s' : State} (e : execGraphHeadWrite h g head s = .next s') :
    LayoutKept s.block.layout s'.block.layout := .ofAct e (by simp)

theorem execSubGraphLaunch_layoutKept {t : TaskRef} {s s' : State} (e : execSubGraphLaunch t s = .next s') :
    LayoutKept s.block.layout s'.block.layout := by
  refine .ofAct e (.ofEq (Block.onRunning_layout _ _ _ _ fun g c => ?_))
  split
  · rfl
  · exact (Block.layout_getD (fun z hz => (Block.submit_layout _ _ _ _ _ _ _ _ _ z hz).trans (Block.modTask_layout _ _ _)) rfl)

theorem execSubGraphDone_layoutKept {t : TaskRef} {s s' : State} (e : execSubGraphDone t s = .next s') :
    LayoutKept s.block.layout s'.block.layout := .ofAct e (by simp)

theorem execTideWait_layoutKept {t : TaskRef} {s s' : State} (e : execTideWait t s = .next s') :
    LayoutKept s.block.layout s'.block.layout := .ofAct e (by simp)

/-! ### Far -/

theorem execTagGrant_layoutKept {h : HalfId} {dest : Destination} {s s' : State} (e : execTagGrant h dest s = .next s') :
    LayoutKept s.block.layout s'.block.layout := by
  refine .ofAct e ?_
  dsimp only
  (repeat' split) <;> simp

theorem execHomeRequest_layoutKept {h : HalfId} {r : LineRequest} {s s' : State} (e : execHomeRequest h r s = .next s') :
    LayoutKept s.block.layout s'.block.layout := by
  refine .ofAct e ?_
  dsimp only
  (repeat' split) <;> simp

theorem execMemoryAdd_layoutKept {h : HalfId} {r : AddRequest} {s s' : State} (e : execMemoryAdd h r s = .next s') :
    LayoutKept s.block.layout s'.block.layout := by
  refine .ofAct e ?_
  (repeat' split) <;> simp

theorem execRequestResponse_layoutKept {h : HalfId} {tag status : Nat} {data : List Byte} {s s' : State} (e :
    execRequestResponse h tag status data s = .next s') :
    LayoutKept s.block.layout s'.block.layout := by
  refine .ofAct e ?_
  (repeat' split) <;> simp

theorem execFarDeadlineExpiry_layoutKept {h : HalfId} {tag : Nat} {s s' : State} (e : execFarDeadlineExpiry h tag s = .next s') :
    LayoutKept s.block.layout s'.block.layout := by
  refine .ofAct e ?_
  dsimp only
  (repeat' split) <;> simp

/-! ### Matrix -/

theorem execMatrix_layoutKept {t : TaskRef} {parity : Option BankUpset} {s s' : State} (e : execMatrix t parity s = .next s') :
    LayoutKept s.block.layout s'.block.layout := by
  refine .ofAct e (.ofEq (Block.onRunning_layout _ _ _ _ fun g c => ?_))
  dsimp only
  (repeat' split) <;> simp

theorem execDbgHalt_layoutKept {p : Path} {core : Fin 80} {s s' : State} (e : execDbgHalt p core s = .next s') :
    LayoutKept s.block.layout s'.block.layout := .ofAct e (by simp)

theorem execDbgHaltReached_layoutKept {core : Fin 80} {at_ : HaltPoint} {s s' : State} (e : execDbgHaltReached core at_ s = .next s') :
    LayoutKept s.block.layout s'.block.layout := .ofAct e (by simp)

theorem execDbgResume_layoutKept {p : Path} {core : Fin 80} {s s' : State} (e : execDbgResume p core s = .next s') :
    LayoutKept s.block.layout s'.block.layout := .ofAct e (by simp)

/-! ### Vector -/

theorem execLd_layoutKept {core : Fin 80} {f : VecFields} {s s' : State} (e : execLd core f s = .next s') :
    LayoutKept s.block.layout s'.block.layout := .ofAct e (by simp)

theorem execSt_layoutKept {core : Fin 80} {f : VecFields} {s s' : State} (e : execSt core f s = .next s') :
    LayoutKept s.block.layout s'.block.layout := .ofAct e (by simp)

theorem execLdi_layoutKept {core : Fin 80} {f : VecFields} {s s' : State} (e : execLdi core f s = .next s') :
    LayoutKept s.block.layout s'.block.layout := .ofAct e (by simp)

theorem execIota_layoutKept {core : Fin 80} {f : VecFields} {s s' : State} (e : execIota core f s = .next s') :
    LayoutKept s.block.layout s'.block.layout := .ofAct e (by simp)

theorem execAdd_layoutKept {core : Fin 80} {f : VecFields} {s s' : State} (e : execAdd core f s = .next s') :
    LayoutKept s.block.layout s'.block.layout := .ofAct e (by simp)

theorem execSub_layoutKept {core : Fin 80} {f : VecFields} {s s' : State} (e : execSub core f s = .next s') :
    LayoutKept s.block.layout s'.block.layout := .ofAct e (by simp)

theorem execMul_layoutKept {core : Fin 80} {f : VecFields} {s s' : State} (e : execMul core f s = .next s') :
    LayoutKept s.block.layout s'.block.layout := .ofAct e (by simp)

theorem execFma_layoutKept {core : Fin 80} {f : VecFields} {s s' : State} (e : execFma core f s = .next s') :
    LayoutKept s.block.layout s'.block.layout := .ofAct e (by simp)

theorem execMax_layoutKept {core : Fin 80} {f : VecFields} {s s' : State} (e : execMax core f s = .next s') :
    LayoutKept s.block.layout s'.block.layout := .ofAct e (by simp)

theorem execMin_layoutKept {core : Fin 80} {f : VecFields} {s s' : State} (e : execMin core f s = .next s') :
    LayoutKept s.block.layout s'.block.layout := .ofAct e (by simp)

theorem execAbs_layoutKept {core : Fin 80} {f : VecFields} {s s' : State} (e : execAbs core f s = .next s') :
    LayoutKept s.block.layout s'.block.layout := .ofAct e (by simp)

theorem execNeg_layoutKept {core : Fin 80} {f : VecFields} {s s' : State} (e : execNeg core f s = .next s') :
    LayoutKept s.block.layout s'.block.layout := .ofAct e (by simp)

theorem execDiv_layoutKept {core : Fin 80} {f : VecFields} {s s' : State} (e : execDiv core f s = .next s') :
    LayoutKept s.block.layout s'.block.layout := .ofAct e (by simp)

theorem execSqrt_layoutKept {core : Fin 80} {f : VecFields} {s s' : State} (e : execSqrt core f s = .next s') :
    LayoutKept s.block.layout s'.block.layout := .ofAct e (by simp)

theorem execCmp_layoutKept {core : Fin 80} {f : VecFields} {s s' : State} (e : execCmp core f s = .next s') :
    LayoutKept s.block.layout s'.block.layout := .ofAct e (by simp)

theorem execSel_layoutKept {core : Fin 80} {f : VecFields} {s s' : State} (e : execSel core f s = .next s') :
    LayoutKept s.block.layout s'.block.layout := .ofAct e (by simp)

theorem execExp2_layoutKept {core : Fin 80} {f : VecFields} {s s' : State} (e : execExp2 core f s = .next s') :
    LayoutKept s.block.layout s'.block.layout := .ofAct e (by simp)

theorem execLog2_layoutKept {core : Fin 80} {f : VecFields} {s s' : State} (e : execLog2 core f s = .next s') :
    LayoutKept s.block.layout s'.block.layout := .ofAct e (by simp)

theorem execRcp_layoutKept {core : Fin 80} {f : VecFields} {s s' : State} (e : execRcp core f s = .next s') :
    LayoutKept s.block.layout s'.block.layout := .ofAct e (by simp)

theorem execRsqrt_layoutKept {core : Fin 80} {f : VecFields} {s s' : State} (e : execRsqrt core f s = .next s') :
    LayoutKept s.block.layout s'.block.layout := .ofAct e (by simp)

theorem execTanh_layoutKept {core : Fin 80} {f : VecFields} {s s' : State} (e : execTanh core f s = .next s') :
    LayoutKept s.block.layout s'.block.layout := .ofAct e (by simp)

theorem execIadd_layoutKept {core : Fin 80} {f : VecFields} {s s' : State} (e : execIadd core f s = .next s') :
    LayoutKept s.block.layout s'.block.layout := .ofAct e (by simp)

theorem execIsub_layoutKept {core : Fin 80} {f : VecFields} {s s' : State} (e : execIsub core f s = .next s') :
    LayoutKept s.block.layout s'.block.layout := .ofAct e (by simp)

theorem execImul_layoutKept {core : Fin 80} {f : VecFields} {s s' : State} (e : execImul core f s = .next s') :
    LayoutKept s.block.layout s'.block.layout := .ofAct e (by simp)

theorem execImax_layoutKept {core : Fin 80} {f : VecFields} {s s' : State} (e : execImax core f s = .next s') :
    LayoutKept s.block.layout s'.block.layout := .ofAct e (by simp)

theorem execImin_layoutKept {core : Fin 80} {f : VecFields} {s s' : State} (e : execImin core f s = .next s') :
    LayoutKept s.block.layout s'.block.layout := .ofAct e (by simp)

theorem execShl_layoutKept {core : Fin 80} {f : VecFields} {s s' : State} (e : execShl core f s = .next s') :
    LayoutKept s.block.layout s'.block.layout := .ofAct e (by simp)

theorem execShr_layoutKept {core : Fin 80} {f : VecFields} {s s' : State} (e : execShr core f s = .next s') :
    LayoutKept s.block.layout s'.block.layout := .ofAct e (by simp)

theorem execSra_layoutKept {core : Fin 80} {f : VecFields} {s s' : State} (e : execSra core f s = .next s') :
    LayoutKept s.block.layout s'.block.layout := .ofAct e (by simp)

theorem execAnd_layoutKept {core : Fin 80} {f : VecFields} {s s' : State} (e : execAnd core f s = .next s') :
    LayoutKept s.block.layout s'.block.layout := .ofAct e (by simp)

theorem execOr_layoutKept {core : Fin 80} {f : VecFields} {s s' : State} (e : execOr core f s = .next s') :
    LayoutKept s.block.layout s'.block.layout := .ofAct e (by simp)

theorem execXor_layoutKept {core : Fin 80} {f : VecFields} {s s' : State} (e : execXor core f s = .next s') :
    LayoutKept s.block.layout s'.block.layout := .ofAct e (by simp)

theorem execNot_layoutKept {core : Fin 80} {f : VecFields} {s s' : State} (e : execNot core f s = .next s') :
    LayoutKept s.block.layout s'.block.layout := .ofAct e (by simp)

theorem execIcmp_layoutKept {core : Fin 80} {f : VecFields} {s s' : State} (e : execIcmp core f s = .next s') :
    LayoutKept s.block.layout s'.block.layout := .ofAct e (by simp)

theorem execCvt_layoutKept {core : Fin 80} {f : VecFields} {s s' : State} (e : execCvt core f s = .next s') :
    LayoutKept s.block.layout s'.block.layout := .ofAct e (by simp)

theorem execRsum_layoutKept {core : Fin 80} {f : VecFields} {s s' : State} (e : execRsum core f s = .next s') :
    LayoutKept s.block.layout s'.block.layout := .ofAct e (by simp)

theorem execRmax_layoutKept {core : Fin 80} {f : VecFields} {s s' : State} (e : execRmax core f s = .next s') :
    LayoutKept s.block.layout s'.block.layout := .ofAct e (by simp)

theorem execRmin_layoutKept {core : Fin 80} {f : VecFields} {s s' : State} (e : execRmin core f s = .next s') :
    LayoutKept s.block.layout s'.block.layout := .ofAct e (by simp)

theorem execRmean_layoutKept {core : Fin 80} {f : VecFields} {s s' : State} (e : execRmean core f s = .next s') :
    LayoutKept s.block.layout s'.block.layout := .ofAct e (by simp)

theorem execGap_layoutKept {core : Fin 80} {f : VecFields} {s s' : State} (e : execGap core f s = .next s') :
    LayoutKept s.block.layout s'.block.layout := .ofAct e (by simp)

theorem execVectorProgram_layoutKept {t : TaskRef} {s s' : State} (e : execVectorProgram t s = .next s') :
    LayoutKept s.block.layout s'.block.layout := by
  refine .ofAct e (.ofEq (Block.onRunning_layout _ _ _ _ fun g c => ?_))
  dsimp only
  (repeat' split) <;> simp

/-! ### Route -/

theorem execRoute_layoutKept {t : TaskRef} {s s' : State} (e : execRoute t s = .next s') :
    LayoutKept s.block.layout s'.block.layout := by
  refine .ofAct e (.ofEq (Block.onRunning_layout _ _ _ _ fun g c => ?_))
  dsimp only
  (repeat' split) <;> simp

theorem execCombine_layoutKept {t : TaskRef} {s s' : State} (e : execCombine t s = .next s') :
    LayoutKept s.block.layout s'.block.layout := by
  refine .ofAct e (.ofEq (Block.onRunning_layout _ _ _ _ fun g c => ?_))
  dsimp only
  (repeat' split) <;> simp

/-! ### Kv -/

theorem execKvWrite_layoutKept {t : TaskRef} {s s' : State} (e : execKvWrite t s = .next s') :
    LayoutKept s.block.layout s'.block.layout := by
  refine .ofAct e (.ofEq (Block.onRunning_layout _ _ _ _ fun g c => ?_))
  dsimp only
  (repeat' split) <;> simp

/-! ### Attention -/

theorem execAttnForward_layoutKept {t : TaskRef} {parity : Option BankUpset} {s s' : State} (e : execAttnForward t parity s = .next s') :
    LayoutKept s.block.layout s'.block.layout := .ofAct e (by simp)

theorem execAttnForwardPartial_layoutKept {t : TaskRef} {parity : Option BankUpset} {s s' : State} (e :
    execAttnForwardPartial t parity s = .next s') :
    LayoutKept s.block.layout s'.block.layout := .ofAct e (by simp)

theorem execAttnCombine_layoutKept {t : TaskRef} {s s' : State} (e : execAttnCombine t s = .next s') :
    LayoutKept s.block.layout s'.block.layout := .ofAct e (by simp)

theorem execAttnBackwardDkDv_layoutKept {t : TaskRef} {parity : Option BankUpset} {s s' : State} (e : execAttnBackwardDkDv t parity s = .next s') :
    LayoutKept s.block.layout s'.block.layout := .ofAct e (by simp)

theorem execAttnBackwardDq_layoutKept {t : TaskRef} {parity : Option BankUpset} {s s' : State} (e : execAttnBackwardDq t parity s = .next s') :
    LayoutKept s.block.layout s'.block.layout := .ofAct e (by simp)

/-! ### Gate -/

theorem execStepRepeatReadmit_layoutKept {h : HalfId} {k : Fin 16} {s s' : State} (e : execStepRepeatReadmit h k s = .next s') :
    LayoutKept s.block.layout s'.block.layout := by
  refine .ofAct e ?_
  dsimp only
  (repeat' split) <;> simp

theorem execUpdateGateCheck_layoutKept {t : TaskRef} {s s' : State} (e : execUpdateGateCheck t s = .next s') :
    LayoutKept s.block.layout s'.block.layout := by
  refine .ofAct e (.ofEq (Block.onRunning_layout _ _ _ _ fun g c => ?_))
  dsimp only
  (repeat' split) <;> simp

theorem execUpdateGateCheckpoint_layoutKept {t : TaskRef} {s s' : State} (e : execUpdateGateCheckpoint t s = .next s') :
    LayoutKept s.block.layout s'.block.layout := .ofAct e (by simp)

/-! ### Collective -/

theorem execAllReduce_layoutKept {t : TaskRef} {s s' : State} (e : execAllReduce t s = .next s') :
    LayoutKept s.block.layout s'.block.layout := .ofAct e (by simp)

theorem execReduceScatter_layoutKept {t : TaskRef} {s s' : State} (e : execReduceScatter t s = .next s') :
    LayoutKept s.block.layout s'.block.layout := .ofAct e (by simp)

theorem execAllGather_layoutKept {t : TaskRef} {s s' : State} (e : execAllGather t s = .next s') :
    LayoutKept s.block.layout s'.block.layout := .ofAct e (by simp)

theorem execVerdictReduction_layoutKept {t : TaskRef} {s s' : State} (e : execVerdictReduction t s = .next s') :
    LayoutKept s.block.layout s'.block.layout := .ofAct e (by simp)

theorem execEbb_layoutKept {h : HalfId} {p : Packet} {s s' : State} (e : execEbb h p s = .next s') :
    LayoutKept s.block.layout s'.block.layout := by
  refine .ofAct e (.ofEq (Block.receive_layout _ _ _ _ _ _ fun y => ?_))
  (repeat' split) <;> simp

theorem execFlood_layoutKept {h : HalfId} {p : Packet} {s s' : State} (e : execFlood h p s = .next s') :
    LayoutKept s.block.layout s'.block.layout := by
  refine .ofAct e (.ofEq (Block.receive_layout _ _ _ _ _ _ fun y => ?_))
  (repeat' split) <;> simp

theorem execSendToPeer_layoutKept {t : TaskRef} {s s' : State} (e : execSendToPeer t s = .next s') :
    LayoutKept s.block.layout s'.block.layout := .ofAct e (by simp)

theorem execReceiveFromPeer_layoutKept {t : TaskRef} {s s' : State} (e : execReceiveFromPeer t s = .next s') :
    LayoutKept s.block.layout s'.block.layout := .ofAct e (by simp)

theorem execSendBlock_layoutKept {h : HalfId} {p : Packet} {s s' : State} (e : execSendBlock h p s = .next s') :
    LayoutKept s.block.layout s'.block.layout := by
  refine .ofAct e (.ofEq (Block.receive_layout _ _ _ _ _ _ fun y => ?_))
  (repeat' split) <;> simp

theorem execCollEnd_layoutKept {h : HalfId} {p : Packet} {s s' : State} (e : execCollEnd h p s = .next s') :
    LayoutKept s.block.layout s'.block.layout := by
  refine .ofAct e (.ofEq (Block.receive_layout _ _ _ _ _ _ fun y => ?_))
  (repeat' split) <;> simp

theorem execExpertDispatch_layoutKept {t : TaskRef} {s s' : State} (e : execExpertDispatch t s = .next s') :
    LayoutKept s.block.layout s'.block.layout := by
  refine .ofAct e (.ofEq (Block.onRunning_layout _ _ _ _ fun g c => ?_))
  dsimp only
  (repeat' split) <;> simp

theorem execExpertReturn_layoutKept {t : TaskRef} {s s' : State} (e : execExpertReturn t s = .next s') :
    LayoutKept s.block.layout s'.block.layout := by
  refine .ofAct e (.ofEq (Block.onMode_layout _ _ _ _ _ fun g c => ?_))
  split
  · simp
  · refine Block.onColl_layout _ _ _ _ fun _ _ _ p => ?_
    split <;> simp

theorem execExpertReceive_layoutKept {t : TaskRef} {s s' : State} (e : execExpertReceive t s = .next s') :
    LayoutKept s.block.layout s'.block.layout := .ofAct e (by simp)

theorem execExpertReturnReceive_layoutKept {t : TaskRef} {s s' : State} (e : execExpertReturnReceive t s = .next s') :
    LayoutKept s.block.layout s'.block.layout := by
  refine .ofAct e (.ofEq (Block.onRunning_layout _ _ _ _ fun g c => ?_))
  dsimp only
  (repeat' split) <;> simp

theorem execTokenRow_layoutKept {h : HalfId} {p : Packet} {s s' : State} (e : execTokenRow h p s = .next s') :
    LayoutKept s.block.layout s'.block.layout := by
  refine .ofAct e (.ofEq (Block.receive_layout _ _ _ _ _ _ fun y => ?_))
  (repeat' split) <;> simp

theorem execEndRecord_layoutKept {h : HalfId} {p : Packet} {s s' : State} (e : execEndRecord h p s = .next s') :
    LayoutKept s.block.layout s'.block.layout := by
  refine .ofAct e (.ofEq (Block.receive_layout _ _ _ _ _ _ fun y => ?_))
  split
  · rfl
  · split
    · simp
    · refine Block.onColl_layout _ _ _ _ fun g c x q => ?_
      dsimp only
      split
      · simp
      · (repeat' split) <;> simp

theorem execCollReady_layoutKept {h : HalfId} {p : Packet} {s s' : State} (e : execCollReady h p s = .next s') :
    LayoutKept s.block.layout s'.block.layout := by
  refine .ofAct e (.ofEq (Block.receive_layout _ _ _ _ _ _ fun y => ?_))
  (repeat' split) <;> simp

theorem execTravelReady_layoutKept {h : HalfId} {p : Packet} {s s' : State} (e : execTravelReady h p s = .next s') :
    LayoutKept s.block.layout s'.block.layout := by
  refine .ofAct e (.ofEq (Block.receive_layout _ _ _ _ _ _ fun y => ?_))
  (repeat' split) <;> simp

theorem execCredit_layoutKept {h : HalfId} {p : Packet} {s s' : State} (e : execCredit h p s = .next s') :
    LayoutKept s.block.layout s'.block.layout := by
  refine .ofAct e (.ofEq (Block.receive_layout _ _ _ _ _ _ fun y => ?_))
  dsimp only
  (repeat' split) <;> simp

theorem execCollectiveDeadline_layoutKept {t : TaskRef} {s s' : State} (e : execCollectiveDeadline t s = .next s') :
    LayoutKept s.block.layout s'.block.layout := by
  refine .ofAct e (.ofEq (Block.onColl_layout _ _ _ _ fun g c x p => ?_))
  extract_lets d late
  refine Block.layout_of_ite rfl (Block.layout_of_ite ?_ (Block.layout_of_ite ?_ (Block.layout_of_ite ?_ (Block.layout_of_ite ?_
    (Block.layout_of_ite rfl ?_)))))
  · split <;> simp
  · split <;> simp
  · refine Block.layout_foldl _ (fun y q => ?_) _ _
    exact Block.layout_of_ite rfl (by simp)
  · simp
  · split <;> simp

theorem execLateNotice_layoutKept {h : HalfId} {p : Packet} {s s' : State} (e : execLateNotice h p s = .next s') :
    LayoutKept s.block.layout s'.block.layout := by
  refine .ofAct e (.ofEq (Block.receive_layout _ _ _ _ _ _ fun y => ?_))
  dsimp only
  (repeat' split) <;> simp

theorem execLateWaitExpiry_layoutKept {t : TaskRef} {s s' : State} (e : execLateWaitExpiry t s = .next s') :
    LayoutKept s.block.layout s'.block.layout := .ofAct e (by simp)

theorem execLenientWaitExpiry_layoutKept {t : TaskRef} {s s' : State} (e : execLenientWaitExpiry t s = .next s') :
    LayoutKept s.block.layout s'.block.layout := .ofAct e (by simp)

theorem execResolveExpiry_layoutKept {t : TaskRef} {s s' : State} (e : execResolveExpiry t s = .next s') :
    LayoutKept s.block.layout s'.block.layout := .ofAct e (by simp)

/-! ### Tiers -/

theorem execCopy_layoutKept {t : TaskRef} {s s' : State} (e : execCopy t s = .next s') :
    LayoutKept s.block.layout s'.block.layout := .ofAct e (by simp)

theorem execMap_layoutKept {t : TaskRef} {s s' : State} (e : execMap t s = .next s') :
    LayoutKept s.block.layout s'.block.layout := .ofAct e (by simp)

theorem execUnmap_layoutKept {t : TaskRef} {s s' : State} (e : execUnmap t s = .next s') :
    LayoutKept s.block.layout s'.block.layout := .ofAct e (by simp)

theorem execFill_layoutKept {t : TaskRef} {s s' : State} (e : execFill t s = .next s') :
    LayoutKept s.block.layout s'.block.layout := by
  refine .ofAct e (.ofEq (Block.onRunning_layout _ _ _ _ fun g c => ?_))
  dsimp only
  (repeat' split) <;> simp

theorem execDrop_layoutKept {t : TaskRef} {s s' : State} (e : execDrop t s = .next s') :
    LayoutKept s.block.layout s'.block.layout := by
  refine .ofAct e (.ofEq (Block.onRunning_layout _ _ _ _ fun g c => ?_))
  dsimp only
  (repeat' split) <;> simp

theorem execQuery_layoutKept {t : TaskRef} {s s' : State} (e : execQuery t s = .next s') :
    LayoutKept s.block.layout s'.block.layout := by
  refine .ofAct e (.ofEq (Block.onRunning_layout _ _ _ _ fun g c => ?_))
  dsimp only
  (repeat' split) <;> simp

theorem execSetPin_layoutKept {t : TaskRef} {s s' : State} (e : execSetPin t s = .next s') :
    LayoutKept s.block.layout s'.block.layout := by
  refine .ofAct e (.ofEq (Block.onRunning_layout _ _ _ _ fun g c => ?_))
  dsimp only
  (repeat' split) <;> simp

theorem execPublish_layoutKept {t : TaskRef} {s s' : State} (e : execPublish t s = .next s') :
    LayoutKept s.block.layout s'.block.layout := by
  refine .ofAct e (.ofEq (Block.onRunning_layout _ _ _ _ fun g c => ?_))
  dsimp only
  (repeat' split) <;> simp

theorem execRetire_layoutKept {t : TaskRef} {s s' : State} (e : execRetire t s = .next s') :
    LayoutKept s.block.layout s'.block.layout := .ofAct e (by simp)

theorem execGather_layoutKept {t : TaskRef} {s s' : State} (e : execGather t s = .next s') :
    LayoutKept s.block.layout s'.block.layout := .ofAct e (by simp)

theorem execScatter_layoutKept {t : TaskRef} {s s' : State} (e : execScatter t s = .next s') :
    LayoutKept s.block.layout s'.block.layout := .ofAct e (by simp)

theorem execScatterAdd_layoutKept {t : TaskRef} {s s' : State} (e : execScatterAdd t s = .next s') :
    LayoutKept s.block.layout s'.block.layout := .ofAct e (by simp)

theorem execScatterMax_layoutKept {t : TaskRef} {s s' : State} (e : execScatterMax t s = .next s') :
    LayoutKept s.block.layout s'.block.layout := .ofAct e (by simp)

theorem execScatterMin_layoutKept {t : TaskRef} {s s' : State} (e : execScatterMin t s = .next s') :
    LayoutKept s.block.layout s'.block.layout := .ofAct e (by simp)

theorem execFarRead_layoutKept {h : HalfId} {p : Packet} {s s' : State} (e : execFarRead h p s = .next s') :
    LayoutKept s.block.layout s'.block.layout := by
  refine .ofAct e (.ofEq (Block.receive_layout _ _ _ _ _ _ fun y => ?_))
  dsimp only
  (repeat' split) <;> simp

theorem execFarReserve_layoutKept {h : HalfId} {p : Packet} {s s' : State} (e : execFarReserve h p s = .next s') :
    LayoutKept s.block.layout s'.block.layout := by
  refine .ofAct e (.ofEq (Block.receive_layout _ _ _ _ _ _ fun y => ?_))
  dsimp only
  (repeat' split) <;> simp

theorem execFarWrite_layoutKept {h : HalfId} {p : Packet} {s s' : State} (e : execFarWrite h p s = .next s') :
    LayoutKept s.block.layout s'.block.layout := by
  refine .ofAct e (.ofEq (Block.receive_layout _ _ _ _ _ _ fun y => ?_))
  dsimp only
  split
  · simp
  · split
    · have hland := Block.landCells_layout y (((y.window h).addrs (pkAddr p) p.payload.length).zip p.payload)
      split <;> next hb => simpa [hb] using hland
    · simp

theorem execFarCommit_layoutKept {h : HalfId} {p : Packet} {s s' : State} (e : execFarCommit h p s = .next s') :
    LayoutKept s.block.layout s'.block.layout := .ofAct e (by simp)

theorem execFarAbort_layoutKept {h : HalfId} {p : Packet} {s s' : State} (e : execFarAbort h p s = .next s') :
    LayoutKept s.block.layout s'.block.layout := .ofAct e (by simp)

theorem execFarRetire_layoutKept {h : HalfId} {p : Packet} {s s' : State} (e : execFarRetire h p s = .next s') :
    LayoutKept s.block.layout s'.block.layout := .ofAct e (by simp)

theorem execFarQuery_layoutKept {h : HalfId} {p : Packet} {s s' : State} (e : execFarQuery h p s = .next s') :
    LayoutKept s.block.layout s'.block.layout := .ofAct e (by simp)

theorem execPendingReap_layoutKept {h : HalfId} {job : Fin 4096} {object version : Nat} {s s' : State} (e :
    execPendingReap h job object version s = .next s') :
    LayoutKept s.block.layout s'.block.layout := by
  refine .ofAct e ?_
  (repeat' split) <;> simp

theorem execRevocationEnd_layoutKept {h : HalfId} {s s' : State} (e : execRevocationEnd h s = .next s') :
    LayoutKept s.block.layout s'.block.layout := .ofAct e (by simp)

theorem execRevocationDone_layoutKept {h : HalfId} {s s' : State} (e : execRevocationDone h s = .next s') :
    LayoutKept s.block.layout s'.block.layout := .ofAct e (by simp)

theorem execRevocationNotice_layoutKept {h : HalfId} {p : Packet} {s s' : State} (e : execRevocationNotice h p s = .next s') :
    LayoutKept s.block.layout s'.block.layout := .ofAct e (by simp)

theorem execBorrowerDrop_layoutKept {h : HalfId} {lender : Nat} {s s' : State} (e : execBorrowerDrop h lender s = .next s') :
    LayoutKept s.block.layout s'.block.layout := by
  refine .ofAct e ?_
  dsimp only
  (repeat' split) <;> simp

theorem execReadRequest_layoutKept {h : HalfId} {p : Packet} {s s' : State} (e : execReadRequest h p s = .next s') :
    LayoutKept s.block.layout s'.block.layout := by
  refine .ofAct e (.ofEq (Block.receive_layout _ _ _ _ _ _ fun y => Block.localPacket_layout _ _ _ _ _ _ fun z => ?_))
  split <;> simp

theorem execWriteRequest_layoutKept {h : HalfId} {p : Packet} {s s' : State} (e : execWriteRequest h p s = .next s') :
    LayoutKept s.block.layout s'.block.layout := by
  refine .ofAct e (.ofEq (Block.receive_layout _ _ _ _ _ _ fun y => Block.localPacket_layout _ _ _ _ _ _ fun z => ?_))
  have hland := Block.landCells_layout z ((p.payload.zip (List.range p.payload.length)).map (fun q => (pkAddr p + q.2, q.1)))
  split <;> next hb => simpa [hb] using hland

theorem execAdderRequest_layoutKept {h : HalfId} {p : Packet} {s s' : State} (e : execAdderRequest h p s = .next s') :
    LayoutKept s.block.layout s'.block.layout := by
  refine .ofAct e (.ofEq (Block.receive_layout _ _ _ _ _ _ fun y => Block.localPacket_layout _ _ _ _ _ _ fun z => ?_))
  split
  · next hs => simp [(Block.serve_layout z _).2 _ _ hs]
  · next hs => simp [(Block.serve_layout z _).1 _ _ hs]

theorem execResponse_layoutKept {h : HalfId} {p : Packet} {s s' : State} (e : execResponse h p s = .next s') :
    LayoutKept s.block.layout s'.block.layout := by
  refine .ofAct e (.ofEq (Block.receive_layout _ _ _ _ _ _ fun y => ?_))
  (repeat' split) <;> simp

/-! ### HostLink -/

theorem execConfigRequest_layoutKept {dword : Fin 1024} {value : Option (BitVec 32)} {s s' : State} (e : execConfigRequest dword value s = .next s') :
    LayoutKept s.block.layout s'.block.layout := by
  refine .ofAct e ?_
  dsimp only
  (repeat' split) <;> simp

theorem execPcieLinkUp_layoutKept {rate : LinkRate} {width : LinkWidth} {partnerFlit : Bool} {s s' : State} (e :
    execPcieLinkUp rate width partnerFlit s = .next s') :
    LayoutKept s.block.layout s'.block.layout := .ofAct e (by simp)

theorem execPerst_layoutKept {s s' : State} (e : execPerst s = .next s') :
    LayoutKept s.block.layout s'.block.layout := .ofAct e (by simp)

theorem execHotReset_layoutKept {s s' : State} (e : execHotReset s = .next s') :
    LayoutKept s.block.layout s'.block.layout := .ofAct e (by simp)

theorem execLinkDown_layoutKept {s s' : State} (e : execLinkDown s = .next s') :
    LayoutKept s.block.layout s'.block.layout := .ofAct e (by simp)

theorem execFlr_layoutKept {s s' : State} (e : execFlr s = .next s') :
    LayoutKept s.block.layout s'.block.layout := .ofAct e (by simp)

theorem execPerstDeassertion_layoutKept {s s' : State} (e : execPerstDeassertion s = .next s') :
    LayoutKept s.block.layout s'.block.layout := .ofAct e (by simp)

theorem execBar2Read_layoutKept {offset len : Nat} {s s' : State} (e : execBar2Read offset len s = .next s') :
    LayoutKept s.block.layout s'.block.layout := by
  refine .ofAct e ?_
  (repeat' split) <;> simp

theorem execBar2Write_layoutKept {offset : Nat} {data : List Byte} {poisoned : Bool} {s s' : State} (e :
    execBar2Write offset data poisoned s = .next s') :
    LayoutKept s.block.layout s'.block.layout := by
  refine .ofAct e (.ofEq ?_)
  split
  · simp
  · split
    · simp
    · next a _ =>
      have hland := Block.landLines_layout s.block ((data.zip (List.range data.length)).map (fun p => (a + p.2, p.1)))
      split <;> next hb => simpa [hb] using hland

theorem execCqHeadWrite_layoutKept {q : Fin 64} {head : BitVec 32} {s s' : State} (e : execCqHeadWrite q head s = .next s') :
    LayoutKept s.block.layout s'.block.layout := .ofAct e (by simp)

theorem execCoalesceTimer_layoutKept {q : Fin 64} {s s' : State} (e : execCoalesceTimer q s = .next s') :
    LayoutKept s.block.layout s'.block.layout := .ofAct e (by simp)

theorem execSqDoorbell_layoutKept {q : Fin 64} {tail : BitVec 32} {hostWrote : List (Nat × Byte)} {s s' : State} (e :
    execSqDoorbell q tail hostWrote s = .next s') :
    LayoutKept s.block.layout s'.block.layout := .ofAct e (by simp)

theorem execSqFetch_layoutKept {q : Fin 64} {s s' : State} (e : execSqFetch q s = .next s') :
    LayoutKept s.block.layout s'.block.layout := by
  refine .ofAct e (.ofEq ?_)
  dsimp only
  split
  · rfl
  · rw [Block.idleCheck_layout]
    split
    · exact (Block.layout_getD (fun z hz => (Block.entryDone_layout _ _ _ _ _ _ _ z hz)) rfl).trans (Block.modPair_layout _ _ _)
    · split
      · exact (Block.layout_getD (fun z hz => (Block.entryDone_layout _ _ _ _ _ _ _ z hz)) rfl).trans (Block.modPair_layout _ _ _)
      · simp

theorem execSubmitGraph_layoutKept {q : Fin 64} {s s' : State} (e : execSubmitGraph q s = .next s') :
    LayoutKept s.block.layout s'.block.layout := .ofAct e (by simp)

theorem execNoOp_layoutKept {q : Fin 64} {s s' : State} (e : execNoOp q s = .next s') :
    LayoutKept s.block.layout s'.block.layout := .ofAct e (by simp)

theorem execQueuePairCreate_layoutKept {q : Fin 64} {value : Word} {s s' : State} (e : execQueuePairCreate q value s = .next s') :
    LayoutKept s.block.layout s'.block.layout := .ofAct e (by simp)

theorem execQueuePairDestroy_layoutKept {q : Fin 64} {s s' : State} (e : execQueuePairDestroy q s = .next s') :
    LayoutKept s.block.layout s'.block.layout := .ofAct e (by simp)

theorem execHostSignal_layoutKept {t : TaskRef} {s s' : State} (e : execHostSignal t s = .next s') :
    LayoutKept s.block.layout s'.block.layout := by
  refine .ofAct e (.ofEq (Block.onRunning_layout _ _ _ _ fun g c => ?_))
  dsimp only
  split
  · split <;> simp
  · split
    · simp
    · split
      · next hpush => simp [Block.cqPush_layout _ _ _ _ _ hpush]
      · simp

theorem execSlackEnter_layoutKept {p : Path} {s s' : State} (e : execSlackEnter p s = .next s') :
    LayoutKept s.block.layout s'.block.layout := .ofAct e (by simp)

theorem execSlackIdleTimer_layoutKept {s s' : State} (e : execSlackIdleTimer s = .next s') :
    LayoutKept s.block.layout s'.block.layout := by
  refine .ofAct e ?_
  (repeat' split) <;> simp

theorem execSlackEntryDone_layoutKept {s s' : State} (e : execSlackEntryDone s = .next s') :
    LayoutKept s.block.layout s'.block.layout := .ofAct e (by simp)

theorem execSlackWake_layoutKept {p : Path} {s s' : State} (e : execSlackWake p s = .next s') :
    LayoutKept s.block.layout s'.block.layout := .ofAct e (by simp)

theorem execWakeReady_layoutKept {s s' : State} (e : execWakeReady s = .next s') :
    LayoutKept s.block.layout s'.block.layout := .ofAct e (by simp)

/-! ### Start -/

theorem execVinApplied_layoutKept {s s' : State} (e : execVinApplied s = .next s') :
    LayoutKept s.block.layout s'.block.layout := by
  refine .ofAct e ?_
  dsimp only
  (repeat' split) <;> simp

theorem execVinLoss_layoutKept {s s' : State} (e : execVinLoss s = .next s') :
    LayoutKept s.block.layout s'.block.layout := .ofAct e (by simp)

theorem execPowerGood_layoutKept {s0 s1 s2 : StrapSample} {s s' : State} (e : execPowerGood s0 s1 s2 s = .next s') :
    LayoutKept s.block.layout s'.block.layout := by
  refine .ofAct e ?_
  (repeat' split) <;> simp

theorem execZilsyBoot_layoutKept {s s' : State} (e : execZilsyBoot s = .next s') :
    LayoutKept s.block.layout s'.block.layout := by
  refine .ofAct e ?_
  (repeat' split) <;> simp

theorem execImageSelect_layoutKept {s s' : State} (e : execImageSelect s = .next s') :
    LayoutKept s.block.layout s'.block.layout := by
  refine .ofAct e ?_
  dsimp only
  (repeat' split) <;> simp

theorem execBayTrainingDone_layoutKept {r : BayTraining} {s s' : State} (e : execBayTrainingDone r s = .next s') :
    LayoutKept s.block.layout s'.block.layout := .ofAct e (by simp)

theorem execShelfTrainingDone_layoutKept {r : ShelfTraining} {s s' : State} (e : execShelfTrainingDone r s = .next s') :
    LayoutKept s.block.layout s'.block.layout := .ofAct e (by simp)

theorem execIsthmusTrainingDone_layoutKept {faults : List WireFault} {s s' : State} (e : execIsthmusTrainingDone faults s = .next s') :
    LayoutKept s.block.layout s'.block.layout := .ofAct e (by simp)

theorem execSelfTestDone_layoutKept {failing : List (Fin 80)} {s s' : State} (e : execSelfTestDone failing s = .next s') :
    LayoutKept s.block.layout s'.block.layout := .ofAct e (by simp)

theorem execReady_layoutKept {s s' : State} (e : execReady s = .next s') :
    LayoutKept s.block.layout s'.block.layout := .ofAct e (by simp)

/-! ### Zilsy -/

theorem execNonce_layoutKept {c : Channel} {value : Nat} {s s' : State} (e : execNonce c value s = .next s') :
    LayoutKept s.block.layout s'.block.layout := .ofAct e (by simp)

theorem execNonceExpiry_layoutKept {value : Nat} {s s' : State} (e : execNonceExpiry value s = .next s') :
    LayoutKept s.block.layout s'.block.layout := .ofAct e (by simp)

theorem execReadLog_layoutKept {m : Envelope} {seq : Nat} {count : Fin 256} {s s' : State} (e : execReadLog m seq count s = .next s') :
    LayoutKept s.block.layout s'.block.layout := .ofAct e (by simp)

theorem execReadAudit_layoutKept {m : Envelope} {seq : Nat} {count : Fin 256} {s s' : State} (e : execReadAudit m seq count s = .next s') :
    LayoutKept s.block.layout s'.block.layout := .ofAct e (by simp)

theorem execPowerCap_layoutKept {p : Path} {value : Word} {s s' : State} (e : execPowerCap p value s = .next s') :
    LayoutKept s.block.layout s'.block.layout := .ofAct e (by simp)

theorem execResetModule_layoutKept {m : Envelope} {force : Bool} {s s' : State} (e : execResetModule m force s = .next s') :
    LayoutKept s.block.layout s'.block.layout := by
  refine .ofAct e ?_
  dsimp only
  split
  · exact .refl _
  · have hcommand : LayoutKept s.block.layout (s.block.command m [1, 2] 1 (fun a b =>
        if b.recentTrip ∨ ¬ (b.allDisabled ∨ (force ∧ a.role = 2)) then b.refuse 0x0013 (b2n force)
        else b.auditedAnswer a { kind := 0x05, detail := b2n force } (fun b => b))).layout := by
      refine Block.command_layoutKept _ _ _ _ (fun a c hc => ?_) (.refl _)
      split <;> simp [hc]
    split
    · exact hcommand
    · split
      · exact Block.restart_layoutKept hcommand
      · exact hcommand

theorem execConfigWriteDone_layoutKept {verified : Bool} {s s' : State} (e : execConfigWriteDone verified s = .next s') :
    LayoutKept s.block.layout s'.block.layout := by
  refine .ofAct e ?_
  dsimp only
  (repeat' split) <;> simp

theorem execCommit_layoutKept {m : Envelope} {s s' : State} (e : execCommit m s = .next s') :
    LayoutKept s.block.layout s'.block.layout := by
  refine .ofAct e (.ofEq (Block.command_layout _ _ _ _ _ fun a y => ?_))
  dsimp only
  (repeat' split) <;> simp

theorem execStageBegin_layoutKept {m : Envelope} {object length : Nat} {s s' : State} (e : execStageBegin m object length s = .next s') :
    LayoutKept s.block.layout s'.block.layout := by
  refine .ofAct e (.ofEq (Block.command_layout _ _ _ _ _ fun a y => ?_))
  dsimp only
  (repeat' split) <;> simp

theorem execStageData_layoutKept {c : Channel} {offset : Nat} {data : List Byte} {s s' : State} (e : execStageData c offset data s = .next s') :
    LayoutKept s.block.layout s'.block.layout := by
  refine .ofAct e ?_
  dsimp only
  (repeat' split) <;> simp

theorem execStageApply_layoutKept {m : Envelope} {o : StagedObject} {s s' : State} (e : execStageApply m o s = .next s') :
    LayoutKept s.block.layout s'.block.layout := by
  refine .ofAct e (.ofEq (Block.command_layout _ _ _ _ _ fun a y => ?_))
  (repeat' split) <;> simp

theorem execStagingIdle_layoutKept {s s' : State} (e : execStagingIdle s = .next s') :
    LayoutKept s.block.layout s'.block.layout := .ofAct e (by simp)

theorem execKeyEnrol_layoutKept {m : Envelope} {k : KeyBody} {s s' : State} (e : execKeyEnrol m k s = .next s') :
    LayoutKept s.block.layout s'.block.layout := by
  refine .ofAct e (.ofEq (Block.command_layout _ _ _ _ _ fun a y => ?_))
  dsimp only
  (repeat' split) <;> simp

theorem execKeyRevoke_layoutKept {m : Envelope} {keyId : Nat} {s s' : State} (e : execKeyRevoke m keyId s = .next s') :
    LayoutKept s.block.layout s'.block.layout := by
  refine .ofAct e (.ofEq (Block.command_layout _ _ _ _ _ fun a y => ?_))
  (repeat' split) <;> simp

theorem execRepairClear_layoutKept {m : Envelope} {channels : List (Fin 320)} {s s' : State} (e : execRepairClear m channels s = .next s') :
    LayoutKept s.block.layout s'.block.layout := .ofAct e (by simp)

theorem execDiag_layoutKept {m : Envelope} {mode : Nat} {s s' : State} (e : execDiag m mode s = .next s') :
    LayoutKept s.block.layout s'.block.layout := by
  refine .ofAct e (.ofEq (Block.command_layout _ _ _ _ _ fun a y => ?_))
  dsimp only
  (repeat' split) <;> simp

theorem execZilsyRestart_layoutKept {s s' : State} (e : execZilsyRestart s = .next s') :
    LayoutKept s.block.layout s'.block.layout := by
  refine .ofAct e ?_
  dsimp only
  (repeat' split) <;> simp

theorem execLogMergeFlush_layoutKept {s s' : State} (e : execLogMergeFlush s = .next s') :
    LayoutKept s.block.layout s'.block.layout := .ofAct e (by simp)

/-! ### Census -/

theorem execReadyReport_layoutKept {h : HalfId} {p : Packet} {s s' : State} (e : execReadyReport h p s = .next s') :
    LayoutKept s.block.layout s'.block.layout := .ofAct e (by simp)

theorem execCensusDeadline_layoutKept {s s' : State} (e : execCensusDeadline s = .next s') :
    LayoutKept s.block.layout s'.block.layout := by
  refine .ofAct e ?_
  (repeat' split) <;> simp

theorem execCensusResult_layoutKept {h : HalfId} {p : Packet} {s s' : State} (e : execCensusResult h p s = .next s') :
    LayoutKept s.block.layout s'.block.layout := .ofAct e (by simp)

/-! ### Efing -/

theorem execPortTrainingDone_layoutKept {h : HalfId} {port : Fin 9} {passing : List (Fin 5)} {asym : Int} {s s' : State} (e :
    execPortTrainingDone h port passing asym s = .next s') :
    LayoutKept s.block.layout s'.block.layout := .ofAct e (by simp)

theorem execTrainRetry_layoutKept {h : HalfId} {port : Fin 9} {s s' : State} (e : execTrainRetry h port s = .next s') :
    LayoutKept s.block.layout s'.block.layout := .ofAct e (by simp)

theorem execPortRetrainDone_layoutKept {h : HalfId} {port : Fin 9} {passing : List (Fin 5)} {asym : Int} {s s' : State} (e :
    execPortRetrainDone h port passing asym s = .next s') :
    LayoutKept s.block.layout s'.block.layout := .ofAct e (by simp)

theorem execIdentity_layoutKept {h : HalfId} {port : Fin 9} {p : Packet} {s s' : State} (e : execIdentity h port p s = .next s') :
    LayoutKept s.block.layout s'.block.layout := .ofAct e (by simp)

theorem execLinkGroup_layoutKept {h : HalfId} {x : Fin 10} {g : LinkGroup} {s s' : State} (e : execLinkGroup h x g s = .next s') :
    LayoutKept s.block.layout s'.block.layout := .ofAct e (by simp)

theorem execAckTimeout_layoutKept {h : HalfId} {x : Fin 10} {s s' : State} (e : execAckTimeout h x s = .next s') :
    LayoutKept s.block.layout s'.block.layout := by
  refine .ofAct e ?_
  (repeat' split) <;> simp

theorem execNakLimit_layoutKept {h : HalfId} {port : Fin 9} {s s' : State} (e : execNakLimit h port s = .next s') :
    LayoutKept s.block.layout s'.block.layout := .ofAct e (by simp)

theorem execLaneClockLoss_layoutKept {h : HalfId} {port : Fin 9} {_lane : Fin 5} {s s' : State} (e : execLaneClockLoss h port _lane s = .next s') :
    LayoutKept s.block.layout s'.block.layout := .ofAct e (by simp)

theorem execHopTimeout_layoutKept {h : HalfId} {x : Fin 10} {s s' : State} (e : execHopTimeout h x s = .next s') :
    LayoutKept s.block.layout s'.block.layout := .ofAct e (by simp)

theorem execRouteHoldExpiry_layoutKept {h : HalfId} {dest : Fin 16384} {s s' : State} (e : execRouteHoldExpiry h dest s = .next s') :
    LayoutKept s.block.layout s'.block.layout := by
  refine .ofAct e ?_
  dsimp only
  (repeat' split) <;> simp

theorem execPacketForward_layoutKept {h : HalfId} {p : Packet} {s s' : State} (e : execPacketForward h p s = .next s') :
    LayoutKept s.block.layout s'.block.layout := .ofAct e (by simp)

/-! ### Video -/

theorem execContextOpen_layoutKept {t : TaskRef} {s s' : State} (e : execContextOpen t s = .next s') :
    LayoutKept s.block.layout s'.block.layout := .ofAct e (by simp)

theorem execContextClose_layoutKept {t : TaskRef} {s s' : State} (e : execContextClose t s = .next s') :
    LayoutKept s.block.layout s'.block.layout := by
  refine .ofAct e (.ofEq (Block.onRunning_layout _ _ _ _ fun g c => ?_))
  dsimp only
  (repeat' split) <;> simp

theorem execDecode_layoutKept {t : TaskRef} {s s' : State} (e : execDecode t s = .next s') :
    LayoutKept s.block.layout s'.block.layout := by
  refine .ofAct e (.ofEq (Block.onRunning_layout _ _ _ _ fun g c => ?_))
  dsimp only
  (repeat' split) <;> simp

theorem execFrameWatchdog_layoutKept {t : TaskRef} {picture rowsWritten : Nat} {s s' : State} (e :
    execFrameWatchdog t picture rowsWritten s = .next s') :
    LayoutKept s.block.layout s'.block.layout := .ofAct e (by simp)

theorem execEncode_layoutKept {t : TaskRef} {s s' : State} (e : execEncode t s = .next s') :
    LayoutKept s.block.layout s'.block.layout := by
  refine .ofAct e (.ofEq (Block.onRunning_layout _ _ _ _ fun g c => ?_))
  dsimp only
  (repeat' split) <;> simp

/-! ### Media -/

theorem execImageDecode_layoutKept {t : TaskRef} {s s' : State} (e : execImageDecode t s = .next s') :
    LayoutKept s.block.layout s'.block.layout := by
  refine .ofAct e (.ofEq (Block.onRunning_layout _ _ _ _ fun g c => ?_))
  dsimp only
  (repeat' split) <;> simp

theorem execImageWatchdog_layoutKept {t : TaskRef} {rowsWritten : Nat} {s s' : State} (e : execImageWatchdog t rowsWritten s = .next s') :
    LayoutKept s.block.layout s'.block.layout := .ofAct e (by simp)

theorem execAudioDecode_layoutKept {t : TaskRef} {s s' : State} (e : execAudioDecode t s = .next s') :
    LayoutKept s.block.layout s'.block.layout := by
  refine .ofAct e (.ofEq (Block.onRunning_layout _ _ _ _ fun g c => ?_))
  dsimp only
  (repeat' split) <;> simp

theorem execTableLoad_layoutKept {t : TaskRef} {s s' : State} (e : execTableLoad t s = .next s') :
    LayoutKept s.block.layout s'.block.layout := by
  refine .ofAct e (.ofEq (Block.onRunning_layout _ _ _ _ fun g c => ?_))
  dsimp only
  (repeat' split) <;> simp

theorem execTokeniseAndPack_layoutKept {t : TaskRef} {s s' : State} (e : execTokeniseAndPack t s = .next s') :
    LayoutKept s.block.layout s'.block.layout := by
  refine .ofAct e (.ofEq (Block.onRunning_layout _ _ _ _ fun g c => ?_))
  dsimp only
  (repeat' split) <;> simp

theorem execCropAndResize_layoutKept {t : TaskRef} {s s' : State} (e : execCropAndResize t s = .next s') :
    LayoutKept s.block.layout s'.block.layout := by
  refine .ofAct e (.ofEq (Block.onRunning_layout _ _ _ _ fun g c => ?_))
  dsimp only
  (repeat' split) <;> simp

/-! ### Functions -/

theorem execFuncDisable_layoutKept {p : Path} {f : FuncId} {s s' : State} (e : execFuncDisable p f s = .next s') :
    LayoutKept s.block.layout s'.block.layout := .ofAct e (Block.byPath_layoutKept _ _ _ _ (fun a _ hc => Block.disableFunc_layoutKept a f hc) (.refl _))

theorem execFuncEnable_layoutKept {p : Path} {f : FuncId} {s s' : State} (e : execFuncEnable p f s = .next s') :
    LayoutKept s.block.layout s'.block.layout := .ofAct e (by simp)

theorem execDrainDeadline_layoutKept {f : FuncId} {s s' : State} (e : execDrainDeadline f s = .next s') :
    LayoutKept s.block.layout s'.block.layout := by
  refine .ofAct e ?_
  dsimp only
  (repeat' split) <;> simp

theorem execDrainComplete_layoutKept {f : FuncId} {s s' : State} (e : execDrainComplete f s = .next s') :
    LayoutKept s.block.layout s'.block.layout := by
  refine .ofAct e ?_
  dsimp only
  split
  · exact .refl _
  · split
    · simp
    · rw [Block.closePort_layout]
      exact Block.setFunc_layoutKept _ _ (fun _ hk => nomatch hk) (by simp)
    · exact Block.setFunc_layoutKept _ _ (fun _ hk => nomatch hk) (by simp)
    · exact Block.setFunc_layoutKept _ _ (fun _ hk => nomatch hk) (by simp)

theorem execJobSlotBind_layoutKept {p : Path} {k : Fin 16} {job : Fin 4096} {tables : List PageRow} {s s' : State} (e :
    execJobSlotBind p k job tables s = .next s') :
    LayoutKept s.block.layout s'.block.layout := by
  refine .ofAct e ?_
  simp_all

theorem execJobSlotDisable_layoutKept {p : Path} {k : Fin 16} {s s' : State} (e : execJobSlotDisable p k s = .next s') :
    LayoutKept s.block.layout s'.block.layout := .ofAct e (Block.byPath_layoutKept _ _ _ _ (fun _ _ hc => Block.startDrain_layoutKept _ hc) (.refl _))

theorem execStallClear_layoutKept {p : Path} {h : HalfId} {value : Word} {s s' : State} (e : execStallClear p h value s = .next s') :
    LayoutKept s.block.layout s'.block.layout := .ofAct e (by simp)

theorem execKvInval_layoutKept {p : Path} {h : HalfId} {k : Fin 16} {s s' : State} (e : execKvInval p h k s = .next s') :
    LayoutKept s.block.layout s'.block.layout := .ofAct e (by simp)

/-! ### Tide -/

theorem execTideExchange_layoutKept {h : HalfId} {s s' : State} (e : execTideExchange h s = .next s') :
    LayoutKept s.block.layout s'.block.layout := .ofAct e (by simp)

theorem execSync_layoutKept {h : HalfId} {x : Fin 10} {t1 : Nat} {s s' : State} (e : execSync h x t1 s = .next s') :
    LayoutKept s.block.layout s'.block.layout := .ofAct e (by simp)

theorem execEcho_layoutKept {h : HalfId} {x : Fin 10} {t1 t2 t3 : Nat} {locked : Bool} {depth : Nat} {s s' : State} (e :
    execEcho h x t1 t2 t3 locked depth s = .next s') :
    LayoutKept s.block.layout s'.block.layout := by
  refine .ofAct e ?_
  dsimp only
  (repeat' split) <;> simp

theorem execParentSwitch_layoutKept {h : HalfId} {s s' : State} (e : execParentSwitch h s = .next s') :
    LayoutKept s.block.layout s'.block.layout := by
  refine .ofAct e ?_
  (repeat' split) <;> simp

theorem execHoldoverExpiry_layoutKept {h : HalfId} {s s' : State} (e : execHoldoverExpiry h s = .next s') :
    LayoutKept s.block.layout s'.block.layout := by
  refine .ofAct e ?_
  (repeat' split) <;> simp

theorem execClk10mLock_layoutKept {h : HalfId} {s s' : State} (e : execClk10mLock h s = .next s') :
    LayoutKept s.block.layout s'.block.layout := .ofAct e (by simp)

theorem execPpsEdge_layoutKept {h : HalfId} {s s' : State} (e : execPpsEdge h s = .next s') :
    LayoutKept s.block.layout s'.block.layout := .ofAct e (by simp)

theorem execPtpTime_layoutKept {h : HalfId} {ns : Nat} {s s' : State} (e : execPtpTime h ns s = .next s') :
    LayoutKept s.block.layout s'.block.layout := .ofAct e (by simp)

theorem execReferenceLoss_layoutKept {h : HalfId} {s s' : State} (e : execReferenceLoss h s = .next s') :
    LayoutKept s.block.layout s'.block.layout := .ofAct e (by simp)

theorem execRefEdgeTimeout_layoutKept {s s' : State} (e : execRefEdgeTimeout s = .next s') :
    LayoutKept s.block.layout s'.block.layout := .ofAct e (by simp)

/-! ### Lease -/

theorem execLeaseClaim_layoutKept {s s' : State} (e : execLeaseClaim s = .next s') :
    LayoutKept s.block.layout s'.block.layout := .ofAct e (by simp)

theorem execLease_layoutKept {h : HalfId} {p : Packet} {s s' : State} (e : execLease h p s = .next s') :
    LayoutKept s.block.layout s'.block.layout := .ofAct e (by simp)

theorem execLeaseRenewal_layoutKept {s s' : State} (e : execLeaseRenewal s = .next s') :
    LayoutKept s.block.layout s'.block.layout := .ofAct e (by simp)

theorem execLeaseLapse_layoutKept {s s' : State} (e : execLeaseLapse s = .next s') :
    LayoutKept s.block.layout s'.block.layout := .ofAct e (by simp)

theorem execHeartbeatSend_layoutKept {s s' : State} (e : execHeartbeatSend s = .next s') :
    LayoutKept s.block.layout s'.block.layout := by
  refine .ofAct e ?_
  dsimp only
  (repeat' split) <;> simp

theorem execHeartbeat_layoutKept {h : HalfId} {p : Packet} {s s' : State} (e : execHeartbeat h p s = .next s') :
    LayoutKept s.block.layout s'.block.layout := .ofAct e (by simp)

theorem execTrayHeartbeat_layoutKept {h : HalfId} {p : Packet} {s s' : State} (e : execTrayHeartbeat h p s = .next s') :
    LayoutKept s.block.layout s'.block.layout := by
  refine .ofAct e (.ofEq (Block.receive_layout _ _ _ _ _ _ fun y => ?_))
  dsimp only
  (repeat' split) <;> simp

theorem execHeartbeatTimeout_layoutKept {tray : Fin 2048} {s s' : State} (e : execHeartbeatTimeout tray s = .next s') :
    LayoutKept s.block.layout s'.block.layout := .ofAct e (by simp)

theorem execJournalAppend_layoutKept {h : HalfId} {p : Packet} {s s' : State} (e : execJournalAppend h p s = .next s') :
    LayoutKept s.block.layout s'.block.layout := by
  refine .ofAct e ?_
  dsimp only
  (repeat' split) <;> simp

theorem execJournalAcknowledgement_layoutKept {h : HalfId} {p : Packet} {s s' : State} (e : execJournalAcknowledgement h p s = .next s') :
    LayoutKept s.block.layout s'.block.layout := by
  refine .ofAct e ?_
  dsimp only
  (repeat' split) <;> simp

theorem execVerdictQuery_layoutKept {h : HalfId} {p : Packet} {s s' : State} (e : execVerdictQuery h p s = .next s') :
    LayoutKept s.block.layout s'.block.layout := by
  refine .ofAct e (.ofEq (Block.receive_layout _ _ _ _ _ _ fun y => ?_))
  dsimp only
  (repeat' split) <;> simp

theorem execVerdictAnswer_layoutKept {h : HalfId} {p : Packet} {s s' : State} (e : execVerdictAnswer h p s = .next s') :
    LayoutKept s.block.layout s'.block.layout := .ofAct e (by simp)

theorem execCheckpointReport_layoutKept {h : HalfId} {p : Packet} {s s' : State} (e : execCheckpointReport h p s = .next s') :
    LayoutKept s.block.layout s'.block.layout := .ofAct e (by simp)

theorem execLateReport_layoutKept {h : HalfId} {p : Packet} {s s' : State} (e : execLateReport h p s = .next s') :
    LayoutKept s.block.layout s'.block.layout := .ofAct e (by simp)

theorem execRevocationReport_layoutKept {h : HalfId} {p : Packet} {s s' : State} (e : execRevocationReport h p s = .next s') :
    LayoutKept s.block.layout s'.block.layout := .ofAct e (by simp)

theorem execRecoveryLost_layoutKept {h : HalfId} {p : Packet} {s s' : State} (e : execRecoveryLost h p s = .next s') :
    LayoutKept s.block.layout s'.block.layout := .ofAct e (by simp)

theorem execRecoveryAbort_layoutKept {h : HalfId} {p : Packet} {s s' : State} (e : execRecoveryAbort h p s = .next s') :
    LayoutKept s.block.layout s'.block.layout := by
  refine .ofAct e (Block.recovery_layoutKept _ _ _ _ (fun y l hy => ?_) (.refl _))
  split
  · simpa using hy
  · simpa using Block.startDrain_layoutKept _ (by simpa using hy)

theorem execRecoverySubst_layoutKept {h : HalfId} {p : Packet} {s s' : State} (e : execRecoverySubst h p s = .next s') :
    LayoutKept s.block.layout s'.block.layout := by
  refine .ofAct e (.ofEq (Block.recovery_layout _ _ _ _ _ fun y l => ?_))
  dsimp only
  (repeat' split) <;> simp

theorem execRecoveryResume_layoutKept {h : HalfId} {p : Packet} {s s' : State} (e : execRecoveryResume h p s = .next s') :
    LayoutKept s.block.layout s'.block.layout := by
  refine .ofAct e ?_
  dsimp only
  (repeat' split) <;> simp

theorem execNoUpPortTimeout_layoutKept {s s' : State} (e : execNoUpPortTimeout s = .next s') :
    LayoutKept s.block.layout s'.block.layout := by
  refine .ofAct e ?_
  (repeat' split) <;> simp

/-! ### TierRegs -/

theorem execMainRegister_layoutKept {p : Path} {h : HalfId} {job : Fin 4096} {hostWrote : List (Nat × Byte)} {s s' : State} (e :
    execMainRegister p h job hostWrote s = .next s') :
    LayoutKept s.block.layout s'.block.layout := .ofAct e (by simp)

theorem execMainRetire_layoutKept {p : Path} {h : HalfId} {job : Fin 4096} {s s' : State} (e : execMainRetire p h job s = .next s') :
    LayoutKept s.block.layout s'.block.layout := .ofAct e (by simp)

theorem execLendRevoke_layoutKept {p : Path} {h : HalfId} {s s' : State} (e : execLendRevoke p h s = .next s') :
    LayoutKept s.block.layout s'.block.layout := .ofAct e (by simp)

theorem execLendEnClear_layoutKept {p : Path} {h : HalfId} {gib : Fin 256} {s s' : State} (e : execLendEnClear p h gib s = .next s') :
    LayoutKept s.block.layout s'.block.layout := .ofAct e (by simp)

theorem execLendEnSet_layoutKept {m : Envelope} {h : HalfId} {gib : Fin 256} {s s' : State} (e : execLendEnSet m h gib s = .next s') :
    LayoutKept s.block.layout s'.block.layout := .ofAct e (by simp)

/-! ### ShelfBay -/

theorem execRefreshDue_layoutKept {h : HalfId} {chan : Fin 128} {bank : Fin 16} {s s' : State} (e : execRefreshDue h chan bank s = .next s') :
    LayoutKept s.block.layout s'.block.layout := .ofAct e (by simp)

theorem execRefreshBandRelax_layoutKept {h : HalfId} {s s' : State} (e : execRefreshBandRelax h s = .next s') :
    LayoutKept s.block.layout s'.block.layout := by
  refine .ofAct e ?_
  dsimp only
  (repeat' split) <;> simp

theorem execScrubRead_layoutKept {h : HalfId} {upsets : List (Fin 64 × Upset)} {s s' : State} (e : execScrubRead h upsets s = .next s') :
    LayoutKept s.block.layout s'.block.layout := .ofAct e (by simp)

theorem execTgWriteRead_layoutKept {p : Path} {h : HalfId} {ch : Fin 160} {s s' : State} (e : execTgWriteRead p h ch s = .next s') :
    LayoutKept s.block.layout s'.block.layout := .ofAct e (by simp)

theorem execTgReadSweep_layoutKept {p : Path} {h : HalfId} {ch : Fin 160} {s s' : State} (e : execTgReadSweep p h ch s = .next s') :
    LayoutKept s.block.layout s'.block.layout := .ofAct e (by simp)

theorem execTgStop_layoutKept {p : Path} {h : HalfId} {ch : Fin 160} {s s' : State} (e : execTgStop p h ch s = .next s') :
    LayoutKept s.block.layout s'.block.layout := .ofAct e (by simp)

theorem execTgDone_layoutKept {h : HalfId} {ch : Fin 160} {r : TgResult} {s s' : State} (e : execTgDone h ch r s = .next s') :
    LayoutKept s.block.layout s'.block.layout := by
  refine .ofAct e ?_
  dsimp only
  (repeat' split) <;> simp

/-! ### Batch -/

theorem execBatchAssemble_layoutKept {t : TaskRef} {s s' : State} (e : execBatchAssemble t s = .next s') :
    LayoutKept s.block.layout s'.block.layout := by
  refine .ofAct e (.ofEq (Block.onRunning_layout _ _ _ _ fun g c => ?_))
  dsimp only
  (repeat' split) <;> simp

theorem execSampleDone_layoutKept {t : TaskRef} {s s' : State} (e : execSampleDone t s = .next s') :
    LayoutKept s.block.layout s'.block.layout := by
  refine .ofAct e (.ofEq (Block.onRunning_layout _ _ _ _ fun g c => ?_))
  dsimp only
  split
  · rfl
  · split
    · rfl
    · split
      · simp
      · simp
      · split
        · rfl
        · split
          · simp
          · next r hr =>
            have hblock : r.block.layout = s.block.layout :=
              (Block.tryDomain_layout hr).trans (by simp)
            split
            · simp [hblock]
            · simp [hblock]
            · simp [hblock]
            · split <;> simp [hblock]

theorem execResize_layoutKept {t : TaskRef} {s s' : State} (e : execResize t s = .next s') :
    LayoutKept s.block.layout s'.block.layout := .ofAct e (by simp)

theorem execFlip_layoutKept {t : TaskRef} {s s' : State} (e : execFlip t s = .next s') :
    LayoutKept s.block.layout s'.block.layout := .ofAct e (by simp)

theorem execJitter_layoutKept {t : TaskRef} {s s' : State} (e : execJitter t s = .next s') :
    LayoutKept s.block.layout s'.block.layout := .ofAct e (by simp)

theorem execNorm_layoutKept {t : TaskRef} {s s' : State} (e : execNorm t s = .next s') :
    LayoutKept s.block.layout s'.block.layout := .ofAct e (by simp)

theorem execGain_layoutKept {t : TaskRef} {s s' : State} (e : execGain t s = .next s') :
    LayoutKept s.block.layout s'.block.layout := .ofAct e (by simp)

theorem execFmask_layoutKept {t : TaskRef} {s s' : State} (e : execFmask t s = .next s') :
    LayoutKept s.block.layout s'.block.layout := .ofAct e (by simp)

theorem execTmask_layoutKept {t : TaskRef} {s s' : State} (e : execTmask t s = .next s') :
    LayoutKept s.block.layout s'.block.layout := .ofAct e (by simp)

/-! ### Conv -/

theorem execConvForward_layoutKept {t : TaskRef} {parity : Option BankUpset} {s s' : State} (e : execConvForward t parity s = .next s') :
    LayoutKept s.block.layout s'.block.layout := .ofAct e (by simp)

theorem execConvBackwardData_layoutKept {t : TaskRef} {parity : Option BankUpset} {s s' : State} (e : execConvBackwardData t parity s = .next s') :
    LayoutKept s.block.layout s'.block.layout := .ofAct e (by simp)

theorem execConvBackwardFilter_layoutKept {t : TaskRef} {parity : Option BankUpset} {s s' : State} (e :
    execConvBackwardFilter t parity s = .next s') :
    LayoutKept s.block.layout s'.block.layout := .ofAct e (by simp)

theorem execRowsReady_layoutKept {t : TaskRef} {rows : Nat} {s s' : State} (e : execRowsReady t rows s = .next s') :
    LayoutKept s.block.layout s'.block.layout := by
  refine .ofAct e (.ofEq (Block.onRunning_layout _ _ _ _ fun g c => ?_))
  dsimp only
  (repeat' split) <;> simp

/-! ### Detect -/

theorem execBoxDecode_layoutKept {t : TaskRef} {s s' : State} (e : execBoxDecode t s = .next s') :
    LayoutKept s.block.layout s'.block.layout := .ofAct e (by simp)

theorem execNms_layoutKept {t : TaskRef} {s s' : State} (e : execNms t s = .next s') :
    LayoutKept s.block.layout s'.block.layout := by
  refine .ofAct e (.ofEq (Block.onRunning_layout _ _ _ _ fun g c => ?_))
  dsimp only
  (repeat' split) <;> simp

/-! ### Fire -/

theorem execTaskFire_layoutKept {t : TaskRef} {cores : List (Fin 40)} {upset : Upset} {s s' : State} (e : execTaskFire t cores upset s = .next s') :
    LayoutKept s.block.layout s'.block.layout := by
  refine .ofAct e ?_
  dsimp only
  (repeat' split) <;> simp

/-! ### Power -/

theorem execPowerWindow_layoutKept {w : PowerSample} {s s' : State} (e : execPowerWindow w s = .next s') :
    LayoutKept s.block.layout s'.block.layout := .ofAct e (by simp)

theorem execMeterCorrection_layoutKept {m : MeterSample} {s s' : State} (e : execMeterCorrection m s = .next s') :
    LayoutKept s.block.layout s'.block.layout := .ofAct e (by simp)

theorem execPowerHint_layoutKept {t : TaskRef} {s s' : State} (e : execPowerHint t s = .next s') :
    LayoutKept s.block.layout s'.block.layout := .ofAct e (by simp)

theorem execHintWindowOpen_layoutKept {s s' : State} (e : execHintWindowOpen s = .next s') :
    LayoutKept s.block.layout s'.block.layout := .ofAct e (by simp)

theorem execHintWindowClose_layoutKept {s s' : State} (e : execHintWindowClose s = .next s') :
    LayoutKept s.block.layout s'.block.layout := .ofAct e (by simp)

theorem execTjSample_layoutKept {temps channels : List Int} {coolant : Option Int} {s s' : State} (e :
    execTjSample temps channels coolant s = .next s') :
    LayoutKept s.block.layout s'.block.layout := by
  refine .ofAct e ?_
  dsimp only
  (repeat' split) <;> simp

theorem execThermalRecoverStep_layoutKept {s s' : State} (e : execThermalRecoverStep s = .next s') :
    LayoutKept s.block.layout s'.block.layout := by
  refine .ofAct e ?_
  dsimp only
  (repeat' split) <;> simp

theorem execMarginTrim_layoutKept {h : HalfId} {above : Bool} {s s' : State} (e : execMarginTrim h above s = .next s') :
    LayoutKept s.block.layout s'.block.layout := .ofAct e (by simp)

theorem execMarginAlarm_layoutKept {h : HalfId} {s s' : State} (e : execMarginAlarm h s = .next s') :
    LayoutKept s.block.layout s'.block.layout := .ofAct e (by simp)

/-! ### Views -/

theorem execRead_layoutKept {m : Envelope} {addrs : List Nat} {s s' : State} (e : execRead m addrs s = .next s') :
    LayoutKept s.block.layout s'.block.layout := .ofAct e (by simp)

/-! ### RegWrite -/

theorem execRegisterWrite_layoutKept {p : Path} {addr : Nat} {value : Word} {s s' : State} (e : execRegisterWrite p addr value s = .next s') :
    LayoutKept s.block.layout s'.block.layout := by
  refine .ofAct e ?_
  (repeat' split) <;> simp_all

theorem execWrite_layoutKept {m : Envelope} {addr : Nat} {value : Word} {s s' : State} (e : execWrite m addr value s = .next s') :
    LayoutKept s.block.layout s'.block.layout := by
  refine .ofAct e ?_
  simp_all

/-! ### Attest -/

theorem execAttest_layoutKept {m : Envelope} {verifier : Nat} {s s' : State} (e : execAttest m verifier s = .next s') :
    LayoutKept s.block.layout s'.block.layout := .ofAct e (by simp)

theorem execLockstepMismatch_layoutKept {s s' : State} (e : execLockstepMismatch s = .next s') :
    LayoutKept s.block.layout s'.block.layout := .ofAct e (by simp)

/-- Every command keeps the layout. -/
theorem exec_layoutKept {s s' : State} : ∀ i : Instr, exec i s = .next s' → LayoutKept s.block.layout s'.block.layout
  | .vinApplied, e => execVinApplied_layoutKept e
  | .powerGood _ _ _, e => execPowerGood_layoutKept e
  | .vinLoss, e => execVinLoss_layoutKept e
  | .zilsyBoot, e => execZilsyBoot_layoutKept e
  | .imageSelect, e => execImageSelect_layoutKept e
  | .bayTrainingDone _, e => execBayTrainingDone_layoutKept e
  | .shelfTrainingDone _, e => execShelfTrainingDone_layoutKept e
  | .isthmusTrainingDone _, e => execIsthmusTrainingDone_layoutKept e
  | .selfTestDone _, e => execSelfTestDone_layoutKept e
  | .ready, e => execReady_layoutKept e
  | .configRequest _ _, e => execConfigRequest_layoutKept e
  | .pcieLinkUp _ _ _, e => execPcieLinkUp_layoutKept e
  | .perst, e => execPerst_layoutKept e
  | .hotReset, e => execHotReset_layoutKept e
  | .linkDown, e => execLinkDown_layoutKept e
  | .flr, e => execFlr_layoutKept e
  | .bar2Read _ _, e => execBar2Read_layoutKept e
  | .bar2Write _ _ _, e => execBar2Write_layoutKept e
  | .registerWrite _ _ _, e => execRegisterWrite_layoutKept e
  | .queuePairCreate _ _, e => execQueuePairCreate_layoutKept e
  | .queuePairDestroy _, e => execQueuePairDestroy_layoutKept e
  | .sqDoorbell _ _ _, e => execSqDoorbell_layoutKept e
  | .sqFetch _, e => execSqFetch_layoutKept e
  | .submitGraph _, e => execSubmitGraph_layoutKept e
  | .noOp _, e => execNoOp_layoutKept e
  | .cqHeadWrite _ _, e => execCqHeadWrite_layoutKept e
  | .graphHeadWrite _ _ _, e => execGraphHeadWrite_layoutKept e
  | .coalesceTimer _, e => execCoalesceTimer_layoutKept e
  | .graphSubmit _ _, e => execGraphSubmit_layoutKept e
  | .graphAdmit _ _ _, e => execGraphAdmit_layoutKept e
  | .token _, e => execToken_layoutKept e
  | .cancellation _ _, e => execCancellation_layoutKept e
  | .fnbTideReached _, e => execFnbTideReached_layoutKept e
  | .ageLimitExpiry _, e => execAgeLimitExpiry_layoutKept e
  | .taskFire _ _ _, e => execTaskFire_layoutKept e
  | .taskEnd _ _, e => execTaskEnd_layoutKept e
  | .recordWrite _, e => execRecordWrite_layoutKept e
  | .tagGrant _ _, e => execTagGrant_layoutKept e
  | .homeRequest _ _, e => execHomeRequest_layoutKept e
  | .memoryAdd _ _, e => execMemoryAdd_layoutKept e
  | .requestResponse _ _ _ _, e => execRequestResponse_layoutKept e
  | .farDeadlineExpiry _ _, e => execFarDeadlineExpiry_layoutKept e
  | .jobSlotBind _ _ _ _, e => execJobSlotBind_layoutKept e
  | .jobSlotDisable _ _, e => execJobSlotDisable_layoutKept e
  | .funcDisable _ _, e => execFuncDisable_layoutKept e
  | .funcEnable _ _, e => execFuncEnable_layoutKept e
  | .drainDeadline _, e => execDrainDeadline_layoutKept e
  | .drainComplete _, e => execDrainComplete_layoutKept e
  | .stallClear _ _ _, e => execStallClear_layoutKept e
  | .dbgHalt _ _, e => execDbgHalt_layoutKept e
  | .dbgHaltReached _ _, e => execDbgHaltReached_layoutKept e
  | .dbgResume _ _, e => execDbgResume_layoutKept e
  | .matrix _ _, e => execMatrix_layoutKept e
  | .vectorProgram _, e => execVectorProgram_layoutKept e
  | .ld _ _, e => execLd_layoutKept e
  | .st _ _, e => execSt_layoutKept e
  | .ldi _ _, e => execLdi_layoutKept e
  | .iota _ _, e => execIota_layoutKept e
  | .add _ _, e => execAdd_layoutKept e
  | .sub _ _, e => execSub_layoutKept e
  | .mul _ _, e => execMul_layoutKept e
  | .fma _ _, e => execFma_layoutKept e
  | .max _ _, e => execMax_layoutKept e
  | .min _ _, e => execMin_layoutKept e
  | .abs _ _, e => execAbs_layoutKept e
  | .neg _ _, e => execNeg_layoutKept e
  | .div _ _, e => execDiv_layoutKept e
  | .sqrt _ _, e => execSqrt_layoutKept e
  | .cmp _ _, e => execCmp_layoutKept e
  | .sel _ _, e => execSel_layoutKept e
  | .exp2 _ _, e => execExp2_layoutKept e
  | .log2 _ _, e => execLog2_layoutKept e
  | .rcp _ _, e => execRcp_layoutKept e
  | .rsqrt _ _, e => execRsqrt_layoutKept e
  | .tanh _ _, e => execTanh_layoutKept e
  | .iadd _ _, e => execIadd_layoutKept e
  | .isub _ _, e => execIsub_layoutKept e
  | .imul _ _, e => execImul_layoutKept e
  | .imax _ _, e => execImax_layoutKept e
  | .imin _ _, e => execImin_layoutKept e
  | .shl _ _, e => execShl_layoutKept e
  | .shr _ _, e => execShr_layoutKept e
  | .sra _ _, e => execSra_layoutKept e
  | .and _ _, e => execAnd_layoutKept e
  | .or _ _, e => execOr_layoutKept e
  | .xor _ _, e => execXor_layoutKept e
  | .not _ _, e => execNot_layoutKept e
  | .icmp _ _, e => execIcmp_layoutKept e
  | .cvt _ _, e => execCvt_layoutKept e
  | .rsum _ _, e => execRsum_layoutKept e
  | .rmax _ _, e => execRmax_layoutKept e
  | .rmin _ _, e => execRmin_layoutKept e
  | .rmean _ _, e => execRmean_layoutKept e
  | .gap _ _, e => execGap_layoutKept e
  | .route _, e => execRoute_layoutKept e
  | .combine _, e => execCombine_layoutKept e
  | .kvWrite _, e => execKvWrite_layoutKept e
  | .attnForward _ _, e => execAttnForward_layoutKept e
  | .attnForwardPartial _ _, e => execAttnForwardPartial_layoutKept e
  | .attnCombine _, e => execAttnCombine_layoutKept e
  | .attnBackwardDkDv _ _, e => execAttnBackwardDkDv_layoutKept e
  | .attnBackwardDq _ _, e => execAttnBackwardDq_layoutKept e
  | .kvInval _ _ _, e => execKvInval_layoutKept e
  | .convForward _ _, e => execConvForward_layoutKept e
  | .convBackwardData _ _, e => execConvBackwardData_layoutKept e
  | .convBackwardFilter _ _, e => execConvBackwardFilter_layoutKept e
  | .boxDecode _, e => execBoxDecode_layoutKept e
  | .nms _, e => execNms_layoutKept e
  | .rowsReady _ _, e => execRowsReady_layoutKept e
  | .gather _, e => execGather_layoutKept e
  | .scatter _, e => execScatter_layoutKept e
  | .scatterAdd _, e => execScatterAdd_layoutKept e
  | .scatterMax _, e => execScatterMax_layoutKept e
  | .scatterMin _, e => execScatterMin_layoutKept e
  | .copy _, e => execCopy_layoutKept e
  | .map _, e => execMap_layoutKept e
  | .unmap _, e => execUnmap_layoutKept e
  | .fill _, e => execFill_layoutKept e
  | .drop _, e => execDrop_layoutKept e
  | .query _, e => execQuery_layoutKept e
  | .setPin _, e => execSetPin_layoutKept e
  | .publish _, e => execPublish_layoutKept e
  | .retire _, e => execRetire_layoutKept e
  | .pendingReap _ _ _ _, e => execPendingReap_layoutKept e
  | .mainRegister _ _ _ _, e => execMainRegister_layoutKept e
  | .mainRetire _ _ _, e => execMainRetire_layoutKept e
  | .lendRevoke _ _, e => execLendRevoke_layoutKept e
  | .lendEnClear _ _ _, e => execLendEnClear_layoutKept e
  | .revocationEnd _, e => execRevocationEnd_layoutKept e
  | .revocationDone _, e => execRevocationDone_layoutKept e
  | .refreshDue _ _ _, e => execRefreshDue_layoutKept e
  | .refreshBandRelax _, e => execRefreshBandRelax_layoutKept e
  | .scrubRead _ _, e => execScrubRead_layoutKept e
  | .tgWriteRead _ _ _, e => execTgWriteRead_layoutKept e
  | .tgReadSweep _ _ _, e => execTgReadSweep_layoutKept e
  | .tgStop _ _ _, e => execTgStop_layoutKept e
  | .tgDone _ _ _, e => execTgDone_layoutKept e
  | .contextOpen _, e => execContextOpen_layoutKept e
  | .contextClose _, e => execContextClose_layoutKept e
  | .decode _, e => execDecode_layoutKept e
  | .encode _, e => execEncode_layoutKept e
  | .frameWatchdog _ _ _, e => execFrameWatchdog_layoutKept e
  | .imageDecode _, e => execImageDecode_layoutKept e
  | .audioDecode _, e => execAudioDecode_layoutKept e
  | .tokeniseAndPack _, e => execTokeniseAndPack_layoutKept e
  | .tableLoad _, e => execTableLoad_layoutKept e
  | .cropAndResize _, e => execCropAndResize_layoutKept e
  | .batchAssemble _, e => execBatchAssemble_layoutKept e
  | .sampleDone _, e => execSampleDone_layoutKept e
  | .resize _, e => execResize_layoutKept e
  | .flip _, e => execFlip_layoutKept e
  | .jitter _, e => execJitter_layoutKept e
  | .norm _, e => execNorm_layoutKept e
  | .gain _, e => execGain_layoutKept e
  | .fmask _, e => execFmask_layoutKept e
  | .tmask _, e => execTmask_layoutKept e
  | .hostSignal _, e => execHostSignal_layoutKept e
  | .subGraphLaunch _, e => execSubGraphLaunch_layoutKept e
  | .subGraphDone _, e => execSubGraphDone_layoutKept e
  | .tideWait _, e => execTideWait_layoutKept e
  | .powerHint _, e => execPowerHint_layoutKept e
  | .hintWindowOpen, e => execHintWindowOpen_layoutKept e
  | .updateGateCheck _, e => execUpdateGateCheck_layoutKept e
  | .updateGateCheckpoint _, e => execUpdateGateCheckpoint_layoutKept e
  | .allReduce _, e => execAllReduce_layoutKept e
  | .reduceScatter _, e => execReduceScatter_layoutKept e
  | .allGather _, e => execAllGather_layoutKept e
  | .expertDispatch _, e => execExpertDispatch_layoutKept e
  | .expertReceive _, e => execExpertReceive_layoutKept e
  | .expertReturn _, e => execExpertReturn_layoutKept e
  | .expertReturnReceive _, e => execExpertReturnReceive_layoutKept e
  | .sendToPeer _, e => execSendToPeer_layoutKept e
  | .receiveFromPeer _, e => execReceiveFromPeer_layoutKept e
  | .verdictReduction _, e => execVerdictReduction_layoutKept e
  | .ebb _ _, e => execEbb_layoutKept e
  | .flood _ _, e => execFlood_layoutKept e
  | .stepRepeatReadmit _ _, e => execStepRepeatReadmit_layoutKept e
  | .collReady _ _, e => execCollReady_layoutKept e
  | .credit _ _, e => execCredit_layoutKept e
  | .collEnd _ _, e => execCollEnd_layoutKept e
  | .lateNotice _ _, e => execLateNotice_layoutKept e
  | .sendBlock _ _, e => execSendBlock_layoutKept e
  | .collectiveDeadline _, e => execCollectiveDeadline_layoutKept e
  | .lateWaitExpiry _, e => execLateWaitExpiry_layoutKept e
  | .lenientWaitExpiry _, e => execLenientWaitExpiry_layoutKept e
  | .resolveExpiry _, e => execResolveExpiry_layoutKept e
  | .tokenRow _ _, e => execTokenRow_layoutKept e
  | .endRecord _ _, e => execEndRecord_layoutKept e
  | .travelReady _ _, e => execTravelReady_layoutKept e
  | .readRequest _ _, e => execReadRequest_layoutKept e
  | .writeRequest _ _, e => execWriteRequest_layoutKept e
  | .adderRequest _ _, e => execAdderRequest_layoutKept e
  | .farRead _ _, e => execFarRead_layoutKept e
  | .farReserve _ _, e => execFarReserve_layoutKept e
  | .farWrite _ _, e => execFarWrite_layoutKept e
  | .farCommit _ _, e => execFarCommit_layoutKept e
  | .farAbort _ _, e => execFarAbort_layoutKept e
  | .farQuery _ _, e => execFarQuery_layoutKept e
  | .farRetire _ _, e => execFarRetire_layoutKept e
  | .response _ _, e => execResponse_layoutKept e
  | .linkGroup _ _ _, e => execLinkGroup_layoutKept e
  | .packetForward _ _, e => execPacketForward_layoutKept e
  | .ackTimeout _ _, e => execAckTimeout_layoutKept e
  | .nakLimit _ _, e => execNakLimit_layoutKept e
  | .laneClockLoss _ _ lane, e => execLaneClockLoss_layoutKept (_lane := lane) e
  | .portRetrainDone _ _ _ _, e => execPortRetrainDone_layoutKept e
  | .portTrainingDone _ _ _ _, e => execPortTrainingDone_layoutKept e
  | .trainRetry _ _, e => execTrainRetry_layoutKept e
  | .hopTimeout _ _, e => execHopTimeout_layoutKept e
  | .routeHoldExpiry _ _, e => execRouteHoldExpiry_layoutKept e
  | .identity _ _ _, e => execIdentity_layoutKept e
  | .tideExchange _, e => execTideExchange_layoutKept e
  | .sync _ _ _, e => execSync_layoutKept e
  | .echo _ _ _ _ _ _ _, e => execEcho_layoutKept e
  | .parentSwitch _, e => execParentSwitch_layoutKept e
  | .holdoverExpiry _, e => execHoldoverExpiry_layoutKept e
  | .ppsEdge _, e => execPpsEdge_layoutKept e
  | .clk10mLock _, e => execClk10mLock_layoutKept e
  | .ptpTime _ _, e => execPtpTime_layoutKept e
  | .referenceLoss _, e => execReferenceLoss_layoutKept e
  | .refEdgeTimeout, e => execRefEdgeTimeout_layoutKept e
  | .leaseClaim, e => execLeaseClaim_layoutKept e
  | .lease _ _, e => execLease_layoutKept e
  | .leaseRenewal, e => execLeaseRenewal_layoutKept e
  | .leaseLapse, e => execLeaseLapse_layoutKept e
  | .readyReport _ _, e => execReadyReport_layoutKept e
  | .censusDeadline, e => execCensusDeadline_layoutKept e
  | .censusResult _ _, e => execCensusResult_layoutKept e
  | .revocationNotice _ _, e => execRevocationNotice_layoutKept e
  | .heartbeatSend, e => execHeartbeatSend_layoutKept e
  | .heartbeat _ _, e => execHeartbeat_layoutKept e
  | .trayHeartbeat _ _, e => execTrayHeartbeat_layoutKept e
  | .heartbeatTimeout _, e => execHeartbeatTimeout_layoutKept e
  | .journalAppend _ _, e => execJournalAppend_layoutKept e
  | .journalAcknowledgement _ _, e => execJournalAcknowledgement_layoutKept e
  | .verdictQuery _ _, e => execVerdictQuery_layoutKept e
  | .verdictAnswer _ _, e => execVerdictAnswer_layoutKept e
  | .recoveryLost _ _, e => execRecoveryLost_layoutKept e
  | .recoveryAbort _ _, e => execRecoveryAbort_layoutKept e
  | .recoverySubst _ _, e => execRecoverySubst_layoutKept e
  | .recoveryResume _ _, e => execRecoveryResume_layoutKept e
  | .checkpointReport _ _, e => execCheckpointReport_layoutKept e
  | .lateReport _ _, e => execLateReport_layoutKept e
  | .revocationReport _ _, e => execRevocationReport_layoutKept e
  | .noUpPortTimeout, e => execNoUpPortTimeout_layoutKept e
  | .slackEnter _, e => execSlackEnter_layoutKept e
  | .slackIdleTimer, e => execSlackIdleTimer_layoutKept e
  | .slackEntryDone, e => execSlackEntryDone_layoutKept e
  | .slackWake _, e => execSlackWake_layoutKept e
  | .wakeReady, e => execWakeReady_layoutKept e
  | .nonce _ _, e => execNonce_layoutKept e
  | .nonceExpiry _, e => execNonceExpiry_layoutKept e
  | .read _ _, e => execRead_layoutKept e
  | .write _ _ _, e => execWrite_layoutKept e
  | .readLog _ _ _, e => execReadLog_layoutKept e
  | .readAudit _ _ _, e => execReadAudit_layoutKept e
  | .attest _ _, e => execAttest_layoutKept e
  | .powerCap _ _, e => execPowerCap_layoutKept e
  | .resetModule _ _, e => execResetModule_layoutKept e
  | .commit _, e => execCommit_layoutKept e
  | .configWriteDone _, e => execConfigWriteDone_layoutKept e
  | .stageBegin _ _ _, e => execStageBegin_layoutKept e
  | .stageData _ _ _, e => execStageData_layoutKept e
  | .stageApply _ _, e => execStageApply_layoutKept e
  | .stagingIdle, e => execStagingIdle_layoutKept e
  | .keyEnrol _ _, e => execKeyEnrol_layoutKept e
  | .keyRevoke _ _, e => execKeyRevoke_layoutKept e
  | .repairClear _ _, e => execRepairClear_layoutKept e
  | .diag _ _, e => execDiag_layoutKept e
  | .lockstepMismatch, e => execLockstepMismatch_layoutKept e
  | .zilsyRestart, e => execZilsyRestart_layoutKept e
  | .logMergeFlush, e => execLogMergeFlush_layoutKept e
  | .powerWindow _, e => execPowerWindow_layoutKept e
  | .meterCorrection _, e => execMeterCorrection_layoutKept e
  | .tjSample _ _ _, e => execTjSample_layoutKept e
  | .thermalRecoverStep, e => execThermalRecoverStep_layoutKept e
  | .marginTrim _ _, e => execMarginTrim_layoutKept e
  | .marginAlarm _, e => execMarginAlarm_layoutKept e
  | .lendEnSet _ _ _, e => execLendEnSet_layoutKept e
  | .borrowerDrop _ _, e => execBorrowerDrop_layoutKept e
  | .perstDeassertion, e => execPerstDeassertion_layoutKept e
  | .hintWindowClose, e => execHintWindowClose_layoutKept e
  | .imageWatchdog _ _, e => execImageWatchdog_layoutKept e

/-! ## The two invariants and the reset state -/

/-- Every step keeps the layout (R40, R306, R404). -/
theorem step_layoutKept {s t : State} (h : step s = .next t) : LayoutKept s.block.layout t.block.layout := by
  unfold step at h
  split at h
  · cases h
    simp
  · next rest _ => exact exec_layoutKept (s := { s with pending := rest }) _ h

theorem Block.layout_full (b : Block) : b.layout.Full ↔ Shaped b := by
  simp [Layout.Full, Shaped, Block.layout]

/-- Settles O53: a slot is newly bound by a bind alone, which takes a job that no slot holds. -/
theorem jobsHoldOneSlot : Obligations.JobsHoldOneSlot := by
  unfold Obligations.JobsHoldOneSlot
  intro s t hlength hone hstep
  have hkept := step_layoutKept hstep
  have hslots : s.block.layout.slots.length = 16 := by simpa [Block.layout] using hlength
  exact ⟨by simpa [Block.layout] using hkept.length hslots, hkept.oneSlot hslots hone⟩

/-- Settles O55: no operation but a reset changes how many slots, pairs and links there are. -/
theorem blockKeepsItsShape : Obligations.BlockKeepsItsShape := by
  unfold Obligations.BlockKeepsItsShape
  intro s t hshaped hstep
  exact t.block.layout_full.mp ((step_layoutKept hstep).full (s.block.layout_full.mpr hshaped))

/-- Settles O48: at reset nothing is listed and no slot is bound. -/
theorem resetMeetsInvariants : Obligations.ResetMeetsInvariants := by
  unfold Obligations.ResetMeetsInvariants
  refine ⟨rfl, ⟨rfl, rfl, rfl, rfl⟩, fun i r h => ?_, oneSlot_unbound 16⟩
  have hnone : ([] : List AuditRecord)[i]? = some r := h
  rw [List.getElem?_nil] at hnone
  cases hnone

/-! ## Register rows and the reset state (R339, R458, R489) -/

/-- Whether a copy of a row has a register in a range of addresses. -/
def RegRow.reaches (r : RegRow) (lo hi : Nat) : Bool :=
  (List.range r.copies).any (fun c => decide (r.base + c * r.copyStride < hi) &&
    decide (lo ≤ r.base + c * r.copyStride + (r.count - 1) * r.stride))

theorem RegRow.reaches_of_has {r : RegRow} {a lo hi : Nat} (h : r.has a = true) (hlo : lo ≤ a) (hhi : a < hi) : r.reaches lo hi = true := by
  simp only [RegRow.has, Bool.and_eq_true, decide_eq_true_eq] at h
  obtain ⟨hbase, hcopy, hstep, hcount⟩ := h
  simp only [RegRow.reaches, List.any_eq_true, List.mem_range, Bool.and_eq_true, decide_eq_true_eq]
  refine ⟨_, hcopy, ?_⟩
  have hoff := Nat.div_add_mod (a - r.base) r.copyStride
  have hplace := Nat.div_add_mod ((a - r.base) % r.copyStride) r.stride
  have hle : r.stride * ((a - r.base) % r.copyStride / r.stride) ≤ r.stride * (r.count - 1) := Nat.mul_le_mul_left _ (by omega)
  rw [Nat.mul_comm _ r.copyStride, Nat.mul_comm _ r.stride]
  omega

/-- The copy `c` and the place `i` of a row's register. -/
theorem RegRow.has_of_place {r : RegRow} {c i : Nat} (hc : c < r.copies) (hi : i < r.count) (hstride : 0 < r.stride)
    (hin : i * r.stride < r.copyStride) : r.has (r.base + c * r.copyStride + i * r.stride) = true := by
  have hoff : r.base + c * r.copyStride + i * r.stride - r.base = i * r.stride + r.copyStride * c := by
    rw [Nat.add_assoc, Nat.add_sub_cancel_left, Nat.add_comm, Nat.mul_comm c]
  simp only [RegRow.has, hoff, Nat.add_mul_div_left _ _ (Nat.zero_lt_of_lt hin), Nat.div_eq_of_lt hin, Nat.add_mul_mod_self_left,
    Nat.mod_eq_of_lt hin, Nat.mul_mod_left, Nat.mul_div_cancel _ hstride, Bool.and_eq_true, decide_eq_true_eq]
  exact ⟨by omega, by omega, trivial, hi⟩

/-- The row of an address in a range that one row alone reaches. -/
theorem regRow_eq_of_reaches {row : RegRow} {a lo hi : Nat} (honly : ∀ r ∈ regRows, r.reaches lo hi = true → r = row) (hrow : row ∈ regRows)
    (hhas : row.has a = true) (hlo : lo ≤ a) (hhi : a < hi) : regRow a = some row := by
  cases hfind : regRow a with
  | none => exact absurd hhas (List.find?_eq_none.mp hfind row hrow)
  | some r =>
    have hhas' : r.has a = true := by simpa using List.find?_some (p := fun r => RegRow.has r a) hfind
    rw [honly r (List.mem_of_find?_eq_some hfind) (RegRow.reaches_of_has hhas' hlo hhi)]

/-- The row of EF_ROUTE (R339). -/
def routeRow : RegRow := halfRow 0x1C98000 16384 1 0xFF 0 0 0 0

theorem routeRow_alone (h : HalfId) : ∀ r ∈ regRows, r.reaches (efReg h 0x8000) (efReg h 0xC000) = true → r = routeRow := by
  cases h <;> decide +kernel

theorem regReset_route (h : HalfId) {d : Nat} (hd : d < 16384) : regReset (efReg h (0x8000 + d)) = 0xFF := by
  have hmem : routeRow ∈ regRows := by decide +kernel
  have hhas : routeRow.has (efReg h (0x8000 + d)) = true := by
    have hplace : efReg h (0x8000 + d) = routeRow.base + halfNum h * routeRow.copyStride + d * routeRow.stride := by
      have hbase : efReg h 0x8000 = routeRow.base + halfNum h * routeRow.copyStride := by cases h <;> decide +kernel
      rw [← hbase, show routeRow.stride = 1 from rfl, Nat.mul_one]
      simp only [efReg]
      omega
    rw [hplace]
    exact RegRow.has_of_place (by cases h <;> decide) hd (by decide) (show d * 1 < 0x2000000 by omega)
  rw [regReset, regRow_eq_of_reaches (routeRow_alone h) hmem hhas (by simp only [efReg]; omega) (by simp only [efReg]; omega)]
  rfl

theorem Block.reset_byte (a : Nat) : Block.reset.byte a = 0 := by
  have hrest : Block.reset.rest a = 0 := by
    simp only [Block.rest]
    split <;> rfl
  rw [Block.byte, hrest]
  change (0 : Byte) ^^^ 0 = 0
  decide

theorem Block.reset_slot (k : Nat) : Block.reset.slot k = JobSlot.reset := by
  rw [Block.slot, show Block.reset.slots = List.replicate 16 JobSlot.reset from rfl, List.getD_eq_getElem?_getD, List.getElem?_replicate]
  split <;> rfl

/-- Settles O4: nothing is listed at reset, so that every register reads its row's Reset column and every byte 0. -/
theorem resetState : Obligations.ResetState := by
  unfold Obligations.ResetState
  have hreg (a : Nat) : State.reset.block.reg a = regReset a := rfl
  refine ⟨rfl, rfl, rfl, Block.reset_byte, rfl, rfl, fun h => ?_, fun k _ => ?_, hreg, fun h => ⟨?_, ?_, fun d hd => ?_⟩, ?_⟩
  · cases h <;> rfl
  · exact (congrArg (fun s : JobSlot => match s.st with
      | 1 => 0
      | 2 => 1
      | _ => 2) (Block.reset_slot _) : _)
  · rw [hreg]; cases h <;> decide +kernel
  · rw [hreg]; cases h <;> decide +kernel
  · rw [hreg, regReset_route h hd]
  · decide +kernel

end Sys2Proof.Machine

/-! PROOFS. What tasks do (spec/02_saffron_task_graphs.md): the memory and the registers that a task's work changes, the landing of its bytes
and its end, and from these the statements about the types of task, about graphs and tokens, about a task's life, and about the moves between tiers. -/

namespace Sys2Proof.Machine

/-! ## Memory and registers under the task operations

Memory, the host's memory and the queue pairs are read here as one; most of what a task does to its graph, to the cache objects and to the
cores leaves them and the registers alone. -/

/-- What memory and the host's memory hold, and the queue pairs. -/
structure Memory where
  mem : List Host.Cell
  fill : List Nat
  bad : Tab Nat
  hostMem : List Host.Cell
  pairs : List QueuePair

/-- The memory of a block. -/
def Block.memory (b : Block) : Memory :=
  { mem := b.mem, fill := b.fill, bad := b.bad, hostMem := b.hostMem, pairs := b.pairs }

section
variable {b c : Block}

theorem Block.mem_eq_of_memory (h : b.memory = c.memory) : b.mem = c.mem := congrArg Memory.mem h

theorem Block.hostMem_eq_of_memory (h : b.memory = c.memory) : b.hostMem = c.hostMem := congrArg Memory.hostMem h

theorem Block.pair_eq_of_memory (h : b.memory = c.memory) (q : Nat) : b.pair q = c.pair q :=
  congrArg (fun x : Memory => x.pairs.getD q QueuePair.reset) h

theorem Block.rest_eq_of_memory (h : b.memory = c.memory) : b.rest = c.rest := by
  funext a
  simp only [Block.rest, show b.fill = c.fill from congrArg Memory.fill h]

theorem Block.byte_eq_of_memory (h : b.memory = c.memory) (a : Nat) : b.byte a = c.byte a :=
  Block.byte_eq (Block.mem_eq_of_memory h) (congrArg Memory.fill h) a

theorem Block.badHits_eq_of_memory (h : b.memory = c.memory) (cells : List Host.Cell) : b.badHits cells = c.badHits cells := by
  simp only [Block.badHits, show b.bad = c.bad from congrArg Memory.bad h]

theorem Block.regs_ite {x y z : Block} (p : Prop) [Decidable p] (hx : x.regs = z.regs) (hy : y.regs = z.regs) :
    (if p then x else y).regs = z.regs := by
  split
  · exact hx
  · exact hy

theorem Block.memory_foldl {α : Type} (f : Block → α → Block) (hf : ∀ b x, (f b x).memory = b.memory) (l : List α) (b : Block) :
    (l.foldl f b).memory = b.memory := by
  induction l generalizing b with
  | nil => rfl
  | cons x xs ih => rw [List.foldl_cons, ih, hf]

theorem Block.regs_foldl {α : Type} (f : Block → α → Block) (hf : ∀ b x, (f b x).regs = b.regs) (l : List α) (b : Block) :
    (l.foldl f b).regs = b.regs := by
  induction l generalizing b with
  | nil => rfl
  | cons x xs ih => rw [List.foldl_cons, ih, hf]
end

/-! ### Registers alone -/

section
variable (b : Block)

@[simp] theorem Block.setReg_memory (a : Nat) (v : Word) : (b.setReg a v).memory = b.memory := by simp [Block.memory]
@[simp] theorem Block.modReg_memory (a : Nat) (f : Word → Word) : (b.modReg a f).memory = b.memory := by simp [Block.memory]
@[simp] theorem Block.setRegFld_memory (a hi lo v : Nat) : (b.setRegFld a hi lo v).memory = b.memory := by simp [Block.memory]
@[simp] theorem Block.count_memory (a hi lo n : Nat) : (b.count a hi lo n).memory = b.memory := by simp [Block.memory]

/-! ### Halves, cores, slots and the log -/

@[simp] theorem Block.fresh_memory : b.fresh.2.memory = b.memory := by simp [Block.memory]
@[simp] theorem Block.modHalf_memory (h : HalfId) (f : Half → Half) : (b.modHalf h f).memory = b.memory := by simp [Block.memory]
@[simp] theorem Block.modTiers_memory (h : HalfId) (f : Tiers → Tiers) : (b.modTiers h f).memory = b.memory := b.modHalf_memory h _
@[simp] theorem Block.modTiers_regs (h : HalfId) (f : Tiers → Tiers) : (b.modTiers h f).regs = b.regs := b.modHalf_regs h _
@[simp] theorem Block.modCore_memory (n : Nat) (f : CoreEngines → CoreEngines) : (b.modCore n f).memory = b.memory := b.modHalf_memory _ _
@[simp] theorem Block.modCore_regs (n : Nat) (f : CoreEngines → CoreEngines) : (b.modCore n f).regs = b.regs := b.modHalf_regs _ _
@[simp] theorem Block.modSlot_memory (k : Nat) (f : JobSlot → JobSlot) : (b.modSlot k f).memory = b.memory := by simp [Block.memory]
@[simp] theorem Block.setZilsy_memory (x : Zilsy) : (b.setZilsy x).memory = b.memory := by simp [Block.memory]
@[simp] theorem Block.emit_memory (o : Out) : (b.emit o).memory = b.memory := by simp [Block.memory]
@[simp] theorem Block.log_memory (e : Event) : (b.log e).memory = b.memory := by simp [Block.memory]

@[simp] theorem Block.modGraph_memory (h : HalfId) (i : Nat) (f : Graph → Graph) : (b.modGraph h i f).memory = b.memory := by
  rw [Block.modGraph]
  split <;> simp

@[simp] theorem Block.modGraph_regs (h : HalfId) (i : Nat) (f : Graph → Graph) : (b.modGraph h i f).regs = b.regs := by
  rw [Block.modGraph]
  split <;> simp

@[simp] theorem Block.modTask_memory (t : TaskRef) (f : TaskCtx → TaskCtx) : (b.modTask t f).memory = b.memory := b.modGraph_memory _ _ _
@[simp] theorem Block.modTask_regs (t : TaskRef) (f : TaskCtx → TaskCtx) : (b.modTask t f).regs = b.regs := b.modGraph_regs _ _ _

/-! ### Cache objects (R219) -/

@[simp] theorem Block.modObject_memory (i : Nat) (f : CacheObject → CacheObject) : (b.modObject i f).memory = b.memory := by
  rw [Block.modObject]
  split <;> simp

@[simp] theorem Block.modObject_regs (i : Nat) (f : CacheObject → CacheObject) : (b.modObject i f).regs = b.regs := by
  rw [Block.modObject]
  split <;> simp

@[simp] theorem Block.freeFrames_memory (l : List Nat) : (b.freeFrames l).memory = b.memory := by
  induction l generalizing b with
  | nil => rfl
  | cons f fs ih => rw [Block.freeFrames, ih, Block.freeFrame, Block.modTiers_memory]

@[simp] theorem Block.freeFrames_regs (l : List Nat) : (b.freeFrames l).regs = b.regs := by
  induction l generalizing b with
  | nil => rfl
  | cons f fs ih => rw [Block.freeFrames, ih, Block.freeFrame, Block.modTiers_regs]

@[simp] theorem Block.freeObject_memory (i : Nat) : (b.freeObject i).memory = b.memory := by
  rw [Block.freeObject]
  split <;> simp

@[simp] theorem Block.freeObject_regs (i : Nat) : (b.freeObject i).regs = b.regs := by
  rw [Block.freeObject]
  split <;> simp

@[simp] theorem Block.reapObject_memory (i : Nat) : (b.reapObject i).memory = b.memory := by
  rw [Block.reapObject]
  split
  · rfl
  · split <;> simp

@[simp] theorem Block.reapObject_regs (i : Nat) : (b.reapObject i).regs = b.regs := by
  rw [Block.reapObject]
  split
  · rfl
  · split <;> simp

@[simp] theorem Block.reapObjects_memory (l : List Nat) : (b.reapObjects l).memory = b.memory := by
  induction l generalizing b with
  | nil => rfl
  | cons i is ih => rw [Block.reapObjects, ih, Block.reapObject_memory]

@[simp] theorem Block.reapObjects_regs (l : List Nat) : (b.reapObjects l).regs = b.regs := by
  induction l generalizing b with
  | nil => rfl
  | cons i is ih => rw [Block.reapObjects, ih, Block.reapObject_regs]

@[simp] theorem Block.dropRefs_memory (t : TaskRef) : (b.dropRefs t).memory = b.memory := by
  rw [Block.dropRefs, Block.reapObjects_memory]
  exact Block.memory_foldl _ (fun x i => x.modObject_memory i _) _ b

@[simp] theorem Block.dropRefs_regs (t : TaskRef) : (b.dropRefs t).regs = b.regs := by
  rw [Block.dropRefs, Block.reapObjects_regs]
  exact Block.regs_foldl _ (fun x i => x.modObject_regs i _) _ b

@[simp] theorem Block.refObjects_memory (t : TaskRef) (l : List Nat) : (b.refObjects t l).memory = b.memory := by
  induction l generalizing b with
  | nil => rfl
  | cons i is ih => rw [Block.refObjects, ih, Block.refObject, Block.modObject_memory]

@[simp] theorem Block.refObjects_regs (t : TaskRef) (l : List Nat) : (b.refObjects t l).regs = b.regs := by
  induction l generalizing b with
  | nil => rfl
  | cons i is ih => rw [Block.refObjects, ih, Block.refObject, Block.modObject_regs]

@[simp] theorem Block.refObjects_tables (t : TaskRef) (l : List Nat) : (b.refObjects t l).tables = b.tables := by
  induction l generalizing b with
  | nil => rfl
  | cons i is ih => rw [Block.refObjects, ih, Block.refObject, Block.modObject_tables]

@[simp] theorem Block.touchPieces_memory (t : TaskRef) (k : Nat) (ps : List (Nat × Nat)) : (b.touchPieces t k ps).memory = b.memory :=
  Block.memory_foldl _ (fun x _ => x.refObjects_memory t _) ps b

@[simp] theorem Block.touchPieces_regs (t : TaskRef) (k : Nat) (ps : List (Nat × Nat)) : (b.touchPieces t k ps).regs = b.regs :=
  Block.regs_foldl _ (fun x _ => x.refObjects_regs t _) ps b

@[simp] theorem Block.touchPieces_tables (t : TaskRef) (k : Nat) (ps : List (Nat × Nat)) : (b.touchPieces t k ps).tables = b.tables :=
  Block.tables_foldl _ (fun x _ => x.refObjects_tables t _) ps b

/-! ### The end of a task (R46, R47) -/

@[simp] theorem Block.fix_memory (t : TaskRef) (status detail : Nat) : (b.fix t status detail).memory = b.memory := by
  simp only [Block.fix]
  split
  · split
    · split <;> simp
    · rfl
  · rfl

@[simp] theorem Block.fix_regs (t : TaskRef) (status detail : Nat) : (b.fix t status detail).regs = b.regs := by
  simp only [Block.fix]
  split
  · split
    · split <;> simp
    · rfl
  · rfl
end

/-! ### The first use of the operands (R204, R219) -/

section
variable (b : Block)

/-- Noting a run-ahead changes one counter of its half and takes a free value. -/
theorem Block.noteAhead_reg_other (h : HalfId) (k : Nat) (ps : List (Nat × Nat)) {a : Nat} (ha : a ≠ tierReg h 0x28) :
    (b.noteAhead h k ps).reg a = b.reg a := by
  simp only [Block.noteAhead]
  split
  · rfl
  · rw [Block.count_reg_other _ _ _ _ _ _ ha]
    rfl

@[simp] theorem Block.noteAhead_memory (h : HalfId) (k : Nat) (ps : List (Nat × Nat)) : (b.noteAhead h k ps).memory = b.memory := by
  simp only [Block.noteAhead]
  split <;> simp

@[simp] theorem Block.fresh_tables : b.fresh.2.tables = b.tables := rfl

@[simp] theorem Block.noteAhead_tables (h : HalfId) (k : Nat) (ps : List (Nat × Nat)) : (b.noteAhead h k ps).tables = b.tables := by
  simp only [Block.noteAhead]
  split <;> simp

@[simp] theorem Block.touchSlots_memory (t : TaskRef) (g : Graph) (c : TaskCtx) (l : List Nat) : (b.touchSlots t g c l).memory = b.memory := by
  rw [Block.touchSlots, Block.touchPieces_memory]
  split <;> simp

theorem Block.touchSlots_reg_other (t : TaskRef) (g : Graph) (c : TaskCtx) (l : List Nat) {a : Nat} (ha : a ≠ tierReg t.half 0x28) :
    (b.touchSlots t g c l).reg a = b.reg a := by
  rw [Block.touchSlots, Block.reg_eq (Block.touchPieces_regs _ _ _ _)]
  split
  · rfl
  · rw [Block.reg_eq (Block.modTask_regs _ _ _), b.noteAhead_reg_other _ _ _ ha]

/-- A task's first use of its operands marks its context, and changes no other table. -/
theorem Block.touchSlots_task (t u : TaskRef) (g : Graph) (c : TaskCtx) (l : List Nat) :
    (b.touchSlots t g c l).task u = if u = t ∧ c.noted = false then (b.task u).map (fun c => { c with noted := true }) else b.task u := by
  rw [Block.touchSlots, Block.task_eq_of_tables (Block.touchPieces_tables _ _ _ _)]
  by_cases hc : c.noted = true
  · simp [hc]
  · simp only [hc, Bool.false_eq_true, if_false, Block.task_modTask, Block.task_eq_of_tables (Block.noteAhead_tables _ _ _ _)]
    simp

@[simp] theorem Block.touch_memory (t : TaskRef) (g : Graph) (c : TaskCtx) : (b.touch t g c).memory = b.memory := b.touchSlots_memory t g c _

theorem Block.touch_reg_other (t : TaskRef) (g : Graph) (c : TaskCtx) {a : Nat} (ha : a ≠ tierReg t.half 0x28) :
    (b.touch t g c).reg a = b.reg a := b.touchSlots_reg_other t g c _ ha

theorem Block.touch_task (t u : TaskRef) (g : Graph) (c : TaskCtx) :
    (b.touch t g c).task u = if u = t ∧ c.noted = false then (b.task u).map (fun c => { c with noted := true }) else b.task u :=
  b.touchSlots_task t u g c _
end

/-! ### Tasks that run -/

section
variable {b : Block} {t : TaskRef}

/-- A task that has not ended can still take any status. -/
theorem Runs.heads {ty : Nat} {g : Graph} {c : TaskCtx} (h : Runs b t ty g c) (status : Nat) : Heads b t status := by
  obtain ⟨-, htask, hphase, -⟩ := h
  exact ⟨c, htask, .inl (.inr (.inr hphase))⟩

theorem Runs.onRunning {ty : Nat} {g : Graph} {c : TaskCtx} (h : Runs b t ty g c) (f : Graph → TaskCtx → Block) :
    b.onRunning t ty f = f g c := by
  obtain ⟨hgraph, htask, hphase, htype⟩ := h
  simp [Block.onRunning, hgraph, htask, hphase, htype]

theorem Runs.onMode {ty : Nat} {g : Graph} {c : TaskCtx} (h : Runs b t ty g c) (mode : Nat) (hmode : c.desc.pf 0 63 60 = mode)
    (f : Graph → TaskCtx → Block) : b.onMode t ty mode f = f g c := by
  rw [Block.onMode, h.onRunning, if_pos hmode]

/-- A context that keeps its phase and its status heads where it did. -/
theorem Heads.modTask {u : TaskRef} {status : Nat} (h : Heads b u status) {f : TaskCtx → TaskCtx}
    (hf : ∀ c, (f c).phase = c.phase ∧ (f c).status = c.status) : Heads (b.modTask t f) u status := by
  obtain ⟨c, hc, hphase⟩ := h
  by_cases hut : u = t
  · exact ⟨f c, by rw [Block.task_modTask, if_pos hut, hc, Option.map_some], by simpa [hf c] using hphase⟩
  · exact ⟨c, by simp [Block.task_modTask, hut, hc], hphase⟩

theorem Heads.touchSlots {u : TaskRef} {status : Nat} (h : Heads b u status) (g : Graph) (c : TaskCtx) (l : List Nat) :
    Heads (b.touchSlots t g c l) u status := by
  obtain ⟨d, hd, hphase⟩ := h
  by_cases hn : u = t ∧ c.noted = false
  · exact ⟨{ d with noted := true }, by rw [Block.touchSlots_task, if_pos hn, hd, Option.map_some], hphase⟩
  · exact ⟨d, by rw [Block.touchSlots_task, if_neg hn, hd], hphase⟩

theorem Heads.touch {u : TaskRef} {status : Nat} (h : Heads b u status) (g : Graph) (c : TaskCtx) : Heads (b.touch t g c) u status :=
  h.touchSlots g c _
end

/-! ## Landing (R46)

Cells that meet no bad word all land, in order, and none of a run's pieces hinders a later one, as landing only heals words. -/

/-- The value that the last cell of an address gives, or the one before. -/
def landedByte (cells : List Host.Cell) (a : Nat) (old : Byte) : Byte :=
  ((cells.reverse.find? (fun c => decide (c.1 = a))).map (fun c => c.2)).getD old

theorem landed_iff {s t : Block} {cells : List Host.Cell} : Landed s t cells ↔ ∀ a, t.byte a = landedByte cells a (s.byte a) := Iff.rfl

theorem landedByte_append (l m : List Host.Cell) (a : Nat) (x : Byte) : landedByte (l ++ m) a x = landedByte m a (landedByte l a x) := by
  simp only [landedByte, List.reverse_append, List.find?_append]
  cases m.reverse.find? (fun c => decide (c.1 = a)) <;> rfl

theorem landedByte_cons (c : Host.Cell) (l : List Host.Cell) (a : Nat) (x : Byte) :
    landedByte (c :: l) a x = landedByte l a (if c.1 = a then c.2 else x) := by
  rw [← List.singleton_append, landedByte_append]
  by_cases hc : c.1 = a <;> simp [landedByte, hc]

section
variable {s t u : Block} {l m : List Host.Cell}

theorem Landed.trans (h : Landed s t l) (g : Landed t u m) : Landed s u (l ++ m) := by
  intro a
  rw [landed_iff.mp g a, landed_iff.mp h a, ← landedByte_append]
  rfl

theorem Landed.of_memory_left {s' : Block} (h : Landed s t l) (e : s.memory = s'.memory) : Landed s' t l := by
  intro a
  rw [h a, Block.byte_eq_of_memory e]

theorem Landed.of_memory (h : Landed s t l) (e : u.memory = t.memory) : Landed s u l := by
  intro a
  rw [Block.byte_eq_of_memory e, h a]

theorem Landed.of_mem_eq (e : t.memory = s.memory) : Landed s t [] := by
  intro a
  rw [Block.byte_eq_of_memory e]
  rfl
end

/-- Cells put in order: the last of an address counts. -/
theorem memPutCells_xor_get (rest : Nat → Byte) (cells : List Host.Cell) (m : List Host.Cell) (a : Nat) :
    tabGet 0 (cells.foldl (fun m c => memPut m c.1 (c.2 ^^^ rest c.1)) m) a ^^^ rest a = landedByte cells a (tabGet 0 m a ^^^ rest a) := by
  induction cells generalizing m with
  | nil => rfl
  | cons c cs ih =>
    rw [List.foldl_cons, ih, landedByte_cons]
    by_cases hc : c.1 = a
    · subst hc
      rw [if_pos rfl, memPut, tabGet_tabSet_same, BitVec.xor_assoc, BitVec.xor_self, BitVec.xor_zero]
    · rw [if_neg hc, memPut, tabGet_tabSet_other 0 0 m c.1 a _ (Ne.symm hc)]

/-- What a piece that can be made and meets no bad word writes. -/
def Piece.cells (p : Piece) : List Host.Cell := p.out.toOption.getD []

section
variable {b : Block} {cells : List Host.Cell}

theorem Block.landCells_regs (b : Block) (cells : List Host.Cell) : (b.landCells cells).1.regs = b.regs := rfl

theorem Block.landCells_tables (b : Block) (cells : List Host.Cell) : (b.landCells cells).1.tables = b.tables := rfl

theorem Block.landCells_bad_subset (b : Block) (cells : List Host.Cell) : (b.landCells cells).1.bad ⊆ b.bad :=
  fun _ h => (List.mem_filter.mp h).1

theorem Block.landCells_stop (h : b.badHits cells = []) : (b.landCells cells).2 = none := by
  simp only [Block.landCells, h, List.head?_nil]

theorem Block.landCells_mem (h : b.badHits cells = []) :
    (b.landCells cells).1.mem = cells.foldl (fun m c => memPut m c.1 (c.2 ^^^ b.rest c.1)) b.mem := by
  have hall : cells.takeWhile (fun _ => true) = cells := List.takeWhile_eq_self_iff.mpr fun _ _ => rfl
  simp [Block.landCells, h, hall]

theorem Block.landCells_landed (h : b.badHits cells = []) : Landed b (b.landCells cells).1 cells := by
  intro a
  have hrest : (b.landCells cells).1.rest = b.rest := rfl
  rw [Block.byte, Block.landCells_mem h, hrest, memPutCells_xor_get]
  rfl

theorem Block.badHits_eq_nil_of_subset {c : Block} (h : b.badHits cells = []) (hc : c.bad ⊆ b.bad) : c.badHits cells = [] := by
  simp only [Block.badHits, List.map_eq_nil_iff, List.filter_eq_nil_iff] at h ⊢
  exact fun e he => h e (hc he)

/-! ### Runs -/

theorem Block.pieceStop_eq_none {p : Piece} : b.pieceStop p = none ↔ (∃ e, p.out = .ok e) ∧ b.badHits p.cells = [] := by
  simp only [Block.pieceStop, Piece.cells]
  cases p.out with
  | error e => simp
  | ok cs => simp [Block.badWrite, Except.toOption]

theorem Block.landPiece_eq {p : Piece} (h : ∃ e, p.out = .ok e) : b.landPiece p = (b.landCells p.cells).1 := by
  obtain ⟨cs, hcs⟩ := h
  simp [Block.landPiece, Piece.cells, hcs, Except.toOption]

theorem Block.landPiece_regs (b : Block) (p : Piece) : (b.landPiece p).regs = b.regs := by
  rw [Block.landPiece]
  split <;> rfl

theorem Block.landPiece_tables (b : Block) (p : Piece) : (b.landPiece p).tables = b.tables := by
  rw [Block.landPiece]
  split <;> rfl

@[simp] theorem Block.landPieces_regs (b : Block) (ps : List Piece) : (b.landPieces ps).regs = b.regs :=
  Block.regs_foldl _ (fun x p => x.landPiece_regs p) ps b

@[simp] theorem Block.landPieces_tables (b : Block) (ps : List Piece) : (b.landPieces ps).tables = b.tables :=
  Block.tables_foldl _ (fun x p => x.landPiece_tables p) ps b

theorem Block.landPieces_landed {ps : List Piece} (h : ∀ p ∈ ps, b.pieceStop p = none) : Landed b (b.landPieces ps) (ps.flatMap Piece.cells) := by
  induction ps generalizing b with
  | nil => exact Landed.of_mem_eq rfl
  | cons p ps ih =>
    obtain ⟨hok, hhits⟩ := Block.pieceStop_eq_none.mp (h p List.mem_cons_self)
    have hlater : ∀ q ∈ ps, (b.landPiece p).pieceStop q = none := by
      intro q hq
      obtain ⟨hok', hhits'⟩ := Block.pieceStop_eq_none.mp (h q (List.mem_cons_of_mem p hq))
      rw [Block.landPiece_eq hok]
      exact Block.pieceStop_eq_none.mpr ⟨hok', Block.badHits_eq_nil_of_subset hhits' (b.landCells_bad_subset _)⟩
    have hfirst : Landed b (b.landPiece p) p.cells := by
      rw [Block.landPiece_eq hok]
      exact Block.landCells_landed hhits
    exact hfirst.trans (ih hlater)

/-- A whole run lands piece after piece. -/
theorem Whole.landRun {shares : List (List Piece)} (h : Whole b shares cells) {c : Block} (e : c.memory = b.memory) :
    c.landRun shares = (c.landPieces shares.flatten, none) ∧ Landed b (c.landPieces shares.flatten) cells := by
  obtain ⟨hstop, rfl⟩ := h
  have hstop' : ∀ ps ∈ shares, ∀ p ∈ ps, c.pieceStop p = none := by
    intro ps hps p hp
    obtain ⟨hok, hhits⟩ := Block.pieceStop_eq_none.mp (hstop ps hps p hp)
    exact Block.pieceStop_eq_none.mpr ⟨hok, by rw [Block.badHits_eq_of_memory e, hhits]⟩
  constructor
  · have hnone : (shares.zip (List.range shares.length)).findSome?
        (fun s => (s.1.findSome? (fun p => c.pieceStop p)).map (fun e => (s.2, e))) = none := by
      rw [List.findSome?_eq_none_iff]
      intro s hs
      rw [Option.map_eq_none_iff, List.findSome?_eq_none_iff]
      exact hstop' s.1 (List.of_mem_zip hs).1
    simp only [Block.landRun, hnone]
  · refine Landed.of_memory_left (Block.landPieces_landed ?_) e
    intro p hp
    obtain ⟨ps, hps, hp⟩ := List.mem_flatten.mp hp
    exact hstop' ps hps p hp
end

/-! ### Landing and the end of a task -/

/-- A task whose bytes have landed and that can still take a status ends with it, and that is the step. -/
theorem Lands.of_fix {s : State} {b : Block} {k : TaskRef} {cells : List Host.Cell} {status detail : Nat} (hb : Landed s.block b cells)
    (hk : Heads b k status) : Lands s { s with block := b.fix k status detail } k cells status :=
  ⟨rfl, hk.fix detail, hb.of_memory (b.fix_memory k status detail)⟩

section
variable (b : Block) (k : TaskRef) (status detail : Nat)

theorem Block.land_eq {cells : List Host.Cell} (h : b.badHits cells = []) :
    b.land k cells status detail = (b.landCells cells).1.fix k status detail := by
  simp only [Block.land, Block.landCells_stop h]

theorem Block.finishRun_eq {shares : List (List Piece)} (h : b.landRun shares = (b.landPieces shares.flatten, none)) :
    b.finishRun k shares status detail = (b.landPieces shares.flatten).fix k status detail := by
  simp only [Block.finishRun, h]
end

/-! ## Work on a task's operands (R46) -/

/-- A command that acts on the block alone. -/
theorem next_of_act {s : State} {r : Host.Outcome State Fault Refusal} {f : Block → Block} {y : Block} (hr : r = s.act f) (hf : f s.block = y) :
    r = .next { s with block := y } := by
  rw [hr, State.act, hf]

/-- What cores may do besides: their own registers and arrays, and free values. -/
structure CoreWork (b c : Block) : Prop where
  memory : c.memory = b.memory
  tables : c.tables = b.tables
  reg : ∀ a, a < 0x60000000 → c.reg a = b.reg a

section
variable {b c d : Block}

theorem CoreWork.refl (b : Block) : CoreWork b b := ⟨rfl, rfl, fun _ _ => rfl⟩

theorem CoreWork.trans (h : CoreWork b c) (g : CoreWork c d) : CoreWork b d :=
  ⟨g.memory.trans h.memory, g.tables.trans h.tables, fun a ha => (g.reg a ha).trans (h.reg a ha)⟩

theorem CoreWork.foldl {α : Type} (f : Block → α → Block) (hf : ∀ b x, CoreWork b (f b x)) (l : List α) (b : Block) :
    CoreWork b (l.foldl f b) := by
  induction l generalizing b with
  | nil => exact .refl b
  | cons x xs ih => exact (hf b x).trans (ih _)

variable (b)

theorem Block.fresh_coreWork : CoreWork b b.fresh.2 := ⟨b.fresh_memory, b.fresh_tables, fun _ _ => Block.reg_eq b.fresh_regs _⟩

theorem Block.modReg_coreWork (f : Word → Word) {a : Nat} (ha : 0x60000000 ≤ a) : CoreWork b (b.modReg a f) :=
  ⟨by simp, by simp, fun x hx => b.reg_modReg_other a x f (by omega)⟩

theorem Block.count_coreWork (hi lo n : Nat) {a : Nat} (ha : 0x60000000 ≤ a) : CoreWork b (b.count a hi lo n) := b.modReg_coreWork _ ha

theorem Block.modCore_coreWork (n : Nat) (f : CoreEngines → CoreEngines) : CoreWork b (b.modCore n f) :=
  ⟨by simp, by simp, fun _ _ => Block.reg_eq (b.modCore_regs n f) _⟩

theorem mxReg_ge (n off : Nat) : 0x60000000 ≤ mxReg n off := by simp only [mxReg]; omega

theorem vxReg_ge (n off : Nat) : 0x60000000 ≤ vxReg n off := by simp only [vxReg]; omega

theorem Block.clearBanks_coreWork (n : Nat) : CoreWork b (b.clearBanks n) := by
  rw [Block.clearBanks]
  exact b.fresh_coreWork.trans (Block.modCore_coreWork _ n _)

theorem Block.addIssued_coreWork (n issued skipped : Nat) : CoreWork b (b.addIssued n issued skipped) :=
  (b.modReg_coreWork _ (mxReg_ge n 8)).trans (Block.modReg_coreWork _ _ (mxReg_ge n 0x30))

theorem Block.mxCount_coreWork (a : Access) (c : TaskCtx) (q : Pairing) (made : List MxOut) (rank n : Nat) :
    CoreWork b (b.mxCount a c q made rank n) := by
  rw [Block.mxCount]
  exact (b.addIssued_coreWork n _ _).trans (Block.modCore_coreWork _ n _)

theorem Block.mxCountAll_coreWork (a : Access) (c : TaskCtx) (q : Pairing) (run : List (List (List (Res MxOut)))) :
    CoreWork b (b.mxCountAll a c q run) :=
  .foldl _ (fun x _ => x.mxCount_coreWork a c q _ _ _) _ b

theorem Block.mxCountPart_coreWork (c : TaskCtx) (q : Pairing) (rank n : Nat) : CoreWork b (b.mxCountPart c q rank n) := by
  rw [Block.mxCountPart]
  exact b.fresh_coreWork.trans ((Block.fresh_coreWork _).trans ((Block.addIssued_coreWork _ n _ _).trans (Block.clearBanks_coreWork _ n)))

theorem Block.mxCountParts_coreWork (c : TaskCtx) (q : Pairing) : CoreWork b (b.mxCountParts c q) :=
  .foldl _ (fun x _ => x.mxCountPart_coreWork c q _ _) _ b

theorem Block.vxIssuedFree_coreWork (c : TaskCtx) : CoreWork b (b.vxIssuedFree c) :=
  .foldl _ (fun x n => x.fresh_coreWork.trans (Block.modReg_coreWork _ _ (vxReg_ge n 8))) _ b

theorem Block.convCount_coreWork (c : TaskCtx) (q : Pairing) : CoreWork b (b.convCount c q) := by
  rw [Block.convCount]
  refine .foldl _ (fun x p => ?_) _ b
  exact (x.modReg_coreWork _ (mxReg_ge p.1 8)).trans ((Block.modReg_coreWork _ _ (mxReg_ge p.1 0x68)).trans (Block.clearBanks_coreWork _ p.1))
end

/-- How far a task's work has come: the cells landed, no register changed but those that the work owns, and the task not yet ended. -/
structure Worked (own : Nat → Prop) (b y : Block) (k : TaskRef) (cells : List Host.Cell) : Prop where
  landed : Landed b y cells
  reg : ∀ a, ¬ own a → y.reg a = b.reg a
  heads : ∀ status, Heads y k status

/-- The registers that the work of a half's cores may change: the cores' own, and the count of dropped run-aheads (R204). -/
def coreOwn (h : HalfId) (a : Nat) : Prop := 0x60000000 ≤ a ∨ a = tierReg h 0x28

theorem coreOwn_ge (h : HalfId) (a : Nat) (ha : 0x60000000 ≤ a) : coreOwn h a := .inl ha

section
variable {own : Nat → Prop} {b y z : Block} {k : TaskRef} {cells : List Host.Cell} {ty : Nat} {g : Graph} {c : TaskCtx}

theorem Runs.worked (h : Runs b k ty g c) (own : Nat → Prop) : Worked own b b k [] := ⟨.of_mem_eq rfl, fun _ _ => rfl, h.heads⟩

theorem Runs.worked_touch (h : Runs b k ty g c) (ho : own (tierReg k.half 0x28)) : Worked own b (b.touch k g c) k [] :=
  ⟨.of_mem_eq (b.touch_memory k g c), fun _ ha => b.touch_reg_other k g c fun e => ha (e ▸ ho), fun status => (h.heads status).touch g c⟩

theorem Worked.of_regs (h : Worked own b y k cells) (hm : z.memory = y.memory) (ht : z.tables = y.tables)
    (hr : ∀ a, ¬ own a → z.reg a = y.reg a) : Worked own b z k cells :=
  ⟨h.landed.of_memory hm, fun a ha => (hr a ha).trans (h.reg a ha), fun status => (h.heads status).of_tables ht⟩

theorem Worked.coreWork (h : Worked own b y k cells) (ho : ∀ a, 0x60000000 ≤ a → own a) (w : CoreWork y z) : Worked own b z k cells :=
  h.of_regs w.memory w.tables fun a ha => w.reg a (Nat.lt_of_not_le fun hge => ha (ho a hge))

theorem Worked.modTask (h : Worked own b y k cells) (u : TaskRef) {f : TaskCtx → TaskCtx}
    (hf : ∀ c, (f c).phase = c.phase ∧ (f c).status = c.status) : Worked own b (y.modTask u f) k cells :=
  ⟨h.landed.of_memory (y.modTask_memory u f), fun a ha => (Block.reg_eq (y.modTask_regs u f) a).trans (h.reg a ha),
    fun status => (h.heads status).modTask hf⟩

theorem Worked.landPieces (h : Worked own b y k []) {x : Block} {shares : List (List Piece)} (hw : Whole x shares cells)
    (hy : y.memory = x.memory) : Worked own b (y.landPieces shares.flatten) k cells :=
  ⟨List.nil_append cells ▸ h.landed.trans ((hw.landRun hy).2.of_memory_left hy.symm),
    fun a ha => (Block.reg_eq (y.landPieces_regs _) a).trans (h.reg a ha),
    fun status => (h.heads status).of_tables (y.landPieces_tables _)⟩

theorem Worked.landCells (h : Worked own b y k []) (hhits : y.badHits cells = []) : Worked own b (y.landCells cells).1 k cells :=
  ⟨List.nil_append cells ▸ h.landed.trans (Block.landCells_landed hhits), h.reg, h.heads⟩

/-- The end of the work. -/
theorem Worked.fix {s : State} (h : Worked own s.block y k cells) (status detail : Nat) :
    Lands s { s with block := y.fix k status detail } k cells status ∧ ∀ a, ¬ own a → (y.fix k status detail).reg a = s.block.reg a :=
  ⟨.of_fix h.landed (h.heads status), fun a ha => (Block.reg_eq (y.fix_regs k status detail) a).trans (h.reg a ha)⟩

theorem Worked.fix_coresOnly {s : State} (h : Worked (coreOwn k.half) s.block y k cells) (status detail : Nat) :
    Lands s { s with block := y.fix k status detail } k cells status ∧ CoresOnly s.block (y.fix k status detail) k.half := by
  obtain ⟨hlands, hreg⟩ := h.fix status detail
  exact ⟨hlands, fun a hlow ha => hreg a fun ho => ho.elim (Nat.not_le_of_lt hlow) ha⟩
end

/-! ## Matrix, expert, convolution and detection tasks (R42, R46, R90, R183-R193) -/

/-- What a status fixed leaves of the rest of the context. -/
theorem Block.fix_task {b : Block} {t : TaskRef} {c : TaskCtx} (h : b.task t = some c) (hopen : c.phase.Open) (status detail : Nat) :
    (b.fix t status detail).task t =
      some { c with phase := .ended, status := status, detail := detail % 2 ^ 32, endTide := b.tide t.half } := by
  obtain ⟨g, hg⟩ : ∃ g, b.graph t.half t.graph = some g := by
    cases hg : b.graph t.half t.graph with
    | none => simp [Block.task, hg] at h
    | some g => exact ⟨g, rfl⟩
  have hopen' : c.phase = .waiting ∨ c.phase = .ready ∨ c.phase = .running := hopen
  have htables : (b.fix t status detail).tables = (b.modTask t
      (fun c => { c with phase := .ended, status := status, detail := detail % 2 ^ 32, endTide := b.tide t.half })).tables := by
    simp only [Block.fix, hg, h, hopen', if_true]
    split <;> simp
  rw [Block.task_eq_of_tables htables, Block.task_modTask, if_pos rfl, h, Option.map_some]

theorem Block.fix_modTask_task {b : Block} {t : TaskRef} {f : TaskCtx → TaskCtx} {c : TaskCtx} (h : b.task t = some c)
    (hopen : (f c).phase.Open) (status detail : Nat) : ((b.modTask t f).fix t status detail).task t =
      some { f c with phase := .ended, status := status, detail := detail % 2 ^ 32, endTide := (b.modTask t f).tide t.half } :=
  Block.fix_task (by rw [Block.task_modTask, if_pos rfl, h, Option.map_some]) hopen status detail

section
variable {b y : Block} {k : TaskRef} {status : Nat}

@[simp] theorem Block.landSome_tables (b : Block) (shares : List (List Piece)) : (b.landSome shares).tables = b.tables :=
  Block.tables_foldl _ (fun x ps => by simp [Block.landFree]) _ b

theorem Heads.bankError (h : Heads b k stDataError) (u : BankUpset) : Ended (b.bankError k u) k stDataError :=
  (h.of_tables (b.log_tables _)).fix _

/-- The end of a matrix task, with its statistics captured or not. -/
theorem Worked.mxEnd {s : State} {cells : List Host.Cell} (h : Worked (coreOwn k.half) s.block y k cells) (g : Graph) (c : TaskCtx) (st : ConvStats) :
    Lands s { s with block := y.mxEnd k g c st } k cells (emptyOr c) ∧ CoresOnly s.block (y.mxEnd k g c st) k.half := by
  have hcaptured (f : TaskCtx → TaskCtx) (hf : ∀ c, (f c).phase = c.phase ∧ (f c).status = c.status) :
      Worked (coreOwn k.half) s.block (if c.desc.mxStatEn then y.modTask k f else y) k cells := by
    split
    · exact h.modTask k hf
    · exact h
  cases he : c.emptyDetail with
  | none =>
    simp only [Block.mxEnd, emptyOr, he]
    refine Worked.fix_coresOnly ?_ stOk 0
    exact hcaptured _ fun _ => ⟨rfl, rfl⟩
  | some detail =>
    simp only [Block.mxEnd, emptyOr, he]
    refine Worked.fix_coresOnly ?_ stOkEmpty detail
    exact hcaptured _ fun _ => ⟨rfl, rfl⟩

@[simp] theorem Block.mxEnd_memory (b : Block) (t : TaskRef) (g : Graph) (c : TaskCtx) (st : ConvStats) :
    (b.mxEnd t g c st).memory = b.memory := by
  simp only [Block.mxEnd]
  cases c.emptyDetail <;> rw [Block.fix_memory] <;> split <;> simp

@[simp] theorem Block.mxEnd_regs (b : Block) (t : TaskRef) (g : Graph) (c : TaskCtx) (st : ConvStats) :
    (b.mxEnd t g c st).regs = b.regs := by
  simp only [Block.mxEnd]
  cases c.emptyDetail <;> rw [Block.fix_regs] <;> split <;> simp

/-- Sources that are all fixed with a status that fires tokens: none has failed and none is still open. -/
theorem failedSource_eq_none {srcs : List TaskCtx} (h : srcs.all (fun x => !x.fixed || firesTokens x.status) = true) :
    failedSource srcs = none := by
  have hnone : srcs.filter (fun s => s.fixed && !(firesTokens s.status)) = [] := by
    rw [List.filter_eq_nil_iff]
    intro x hx
    have hx' := List.all_eq_true.mp h x hx
    revert hx'
    cases x.fixed <;> simp
  rw [failedSource, hnone]
  rfl

theorem fixed_fires {srcs : List TaskCtx} (h : srcs.all (fun x => x.fixed && firesTokens x.status) = true) :
    failedSource srcs = none ∧ srcs.any (fun s => !s.fixed) = false := by
  have hboth : ∀ x ∈ srcs, x.fixed = true ∧ firesTokens x.status = true := by simpa using h
  exact ⟨failedSource_eq_none (List.all_eq_true.mpr fun x hx => by simp [hboth x hx]),
    List.any_eq_false.mpr fun x hx => by simp [hboth x hx]⟩
end

section
variable {s : State} {k : TaskRef} {g : Graph} {c : TaskCtx} {q : Pairing} {cells : List Host.Cell}

/-- A matrix task whose run is whole. -/
theorem matrix_lands {par : Option BankUpset} (h : Runs s.block k 0x01 g c) (hq : pairing (c.tensor 0).fmt (c.tensor 1).fmt = some q)
    (hhalt : s.block.anyHalted c = false) (hnone : c.mxNone = false) (hpar : c.struck k.half par = none)
    (hw : Whole (s.block.touch k g c) ((s.block.touch k g c).mxWrites (s.block.taskAccess k.half g c) c
      ((s.block.touch k g c).mxRun (s.block.taskAccess k.half g c) c q)) cells) :
    ∃ t, exec (.matrix k par) s = .next t ∧ Lands s t k cells (emptyOr c) ∧ CoresOnly s.block t.block k.half := by
  have hcount := (s.block.touch k g c).mxCountAll_coreWork (s.block.taskAccess k.half g c) c q
    ((s.block.touch k g c).mxRun (s.block.taskAccess k.half g c) c q)
  refine ⟨_, next_of_act (show exec (.matrix k par) s = execMatrix k par s from rfl) ?_,
    (((h.worked_touch (.inr rfl)).coreWork (coreOwn_ge k.half) hcount).landPieces hw hcount.memory).mxEnd g c (mxStats ((s.block.touch k g c).mxRun (s.block.taskAccess k.half g c) c q))⟩
  rw [h.onRunning]
  simp only [hq, hhalt, hnone, hpar, (hw.landRun rfl).1, (hw.landRun hcount.memory).1, Bool.false_eq_true, if_false]

/-- A convolution whose rows are whole. -/
theorem convTask_lands {par : Option BankUpset} (h : Runs s.block k 0x04 g c)
    (hsrc : (sourcesOf g c).all (fun x => x.fixed && firesTokens x.status) = true) (hq : pairing (c.tensor 0).fmt (c.tensor 1).fmt = some q)
    (hhalt : s.block.anyHalted c = false) (hopen : rowsOpen c (sourcesOf g c) (max c.cvRowLo c.rowsReady) c.cvRowHi = true)
    (hpar : c.struck k.half par = none)
    (hw : Whole (s.block.touch k g c) (partShares ((s.block.touch k g c).convRows ((s.block.touch k g c).taskAccess k.half g c) c q
      (max c.cvRowLo c.rowsReady) c.cvRowHi).1) cells) :
    Lands s { s with block := s.block.convTask k g c par } k cells (emptyOr c) ∧ CoresOnly s.block (s.block.convTask k g c par) k.half := by
  obtain ⟨hfailed, hany⟩ := fixed_fires hsrc
  simp only [Block.convTask, hfailed, hq, hhalt, hany, hopen, Block.convLand, hpar, (hw.landRun rfl).1, Bool.false_eq_true, Bool.true_eq_false,
    or_self, if_false]
  refine Worked.fix_coresOnly (Worked.modTask (((h.worked_touch (.inr rfl)).landPieces hw rfl).coreWork (coreOwn_ge k.half) (Block.convCount_coreWork _ c q)) k ?_) _ _
  exact fun _ => ⟨rfl, rfl⟩
end

section
variable {s : State} {k : TaskRef} {g : Graph} {c : TaskCtx} {cells : List Host.Cell}

/-- A routing whose records are whole. -/
theorem route_lands {r : List (Nat × Row × List Val) × Nat} (h : Runs s.block k 0x02 g c) (hmode : c.desc.pf 0 63 60 = 1)
    (hrun : (s.block.touch k g c).rtRun (s.block.taskAccess k.half g c) c = .ok r)
    (hw : Whole (s.block.touch k g c) [(s.block.touch k g c).rtWrites (s.block.taskAccess k.half g c) c r.1] cells) :
    ∃ t, exec (.route k) s = .next t ∧ Lands s t k cells stOk ∧ CoresOnly s.block t.block k.half := by
  have hfree := (s.block.touch k g c).vxIssuedFree_coreWork c
  refine ⟨_, rfl, ?_⟩
  simp only [h.onMode 1 hmode, hrun]
  rw [Block.finishRun_eq _ _ _ _ (hw.landRun ((Block.modTask_memory _ _ _).trans hfree.memory)).1]
  refine Worked.fix_coresOnly (Worked.landPieces (Worked.modTask ((h.worked_touch (.inr rfl)).coreWork (coreOwn_ge k.half) hfree) k ?_) hw ?_) stOk 0
  · exact fun _ => ⟨rfl, rfl⟩
  · exact (Block.modTask_memory _ _ _).trans hfree.memory

/-- A combination whose rows and bitmap are whole. -/
theorem combine_lands (h : Runs s.block k 0x02 g c) (hmode : c.desc.pf 0 63 60 = 2)
    (hw : Whole (s.block.touch k g c) (storedPieces ((s.block.touch k g c).cbRun (s.block.taskAccess k.half g c) c) ++
      [(s.block.touch k g c).storedBitmap (s.block.taskAccess k.half g c) (c.tensor 2)
        ((s.block.touch k g c).cbRun (s.block.taskAccess k.half g c) c)]) cells) :
    ∃ t, exec (.combine k) s = .next t ∧ Lands s t k cells stOk ∧ CoresOnly s.block t.block k.half := by
  refine ⟨_, rfl, ?_⟩
  simp only [h.onMode 2 hmode, (hw.landRun rfl).1]
  refine Worked.fix_coresOnly (Worked.modTask (((h.worked_touch (.inr rfl)).landPieces hw rfl).coreWork (coreOwn_ge k.half) (Block.vxIssuedFree_coreWork _ c)) k ?_) stOk 0
  exact fun _ => ⟨rfl, rfl⟩

/-- A box decoding whose boxes are whole. -/
theorem boxDecode_lands (h : Runs s.block k 0x04 g c) (hmode : c.desc.pf 0 63 60 = 3)
    (hw : Whole (s.block.touch k g c) (partShares ((s.block.touch k g c).bxRun (s.block.taskAccess k.half g c) c)) cells) :
    ∃ t, exec (.boxDecode k) s = .next t ∧ Lands s t k cells stOk ∧ CoresOnly s.block t.block k.half := by
  refine ⟨_, rfl, ?_⟩
  simp only [h.onMode 3 hmode]
  rw [Block.finishRun_eq _ _ _ _ (hw.landRun (Block.modTask_memory _ _ _)).1]
  refine Worked.fix_coresOnly (Worked.landPieces ((h.worked_touch (.inr rfl)).modTask k ?_) hw (Block.modTask_memory _ _ _)) stOk 0
  exact fun _ => ⟨rfl, rfl⟩

/-- The three convolutions are one task. -/
theorem exec_conv {par : Option BankUpset} {i : Instr} (h : Runs s.block k 0x04 g c)
    (hi : i = .convForward k par ∧ c.desc.pf 0 63 60 = 0 ∨ i = .convBackwardData k par ∧ c.desc.pf 0 63 60 = 1 ∨
      i = .convBackwardFilter k par ∧ c.desc.pf 0 63 60 = 2) :
    exec i s = .next { s with block := s.block.convTask k g c par } := by
  obtain ⟨rfl, hmode⟩ | ⟨rfl, hmode⟩ | ⟨rfl, hmode⟩ := hi
  · exact next_of_act (show exec (.convForward k par) s = execConvForward k par s from rfl) (h.onMode 0 hmode _)
  · exact next_of_act (show exec (.convBackwardData k par) s = execConvBackwardData k par s from rfl) (h.onMode 1 hmode _)
  · exact next_of_act (show exec (.convBackwardFilter k par) s = execConvBackwardFilter k par s from rfl) (h.onMode 2 hmode _)

/-- A convolution whose row source failed is cancelled. -/
theorem convTask_cancelled {par : Option BankUpset} {o : Nat} (h : Runs s.block k 0x04 g c) (hfailed : failedSource (sourcesOf g c) = some o)
    (hfixed : (sourcesOf g c).all (fun x => x.fixed) = true) :
    Lands s { s with block := s.block.convTask k g c par } k [] stCancelled ∧ (s.block.convTask k g c par).regs = s.block.regs := by
  have hheads := h.heads stCancelled
  obtain ⟨hgraph, htask, hphase, -⟩ := h
  have hend : s.block.convTask k g c par = (s.block.modTask k (fun c => { c with origin := some o })).fix k stCancelled o := by
    simp only [Block.convTask, hfailed, Block.endConsumer, hgraph, htask, hphase, hfixed, and_self, if_true]
  rw [hend]
  exact ⟨.of_fix (.of_mem_eq (Block.modTask_memory _ _ _)) (hheads.modTask fun _ => ⟨rfl, rfl⟩), by simp⟩

/-- A suppression whose boxes are whole: it counts what it dropped, and gives the greatest number it kept. -/
theorem nms_lands (h : Runs s.block k 0x04 g c) (hmode : c.desc.pf 0 63 60 = 4)
    (hw : Whole (s.block.touch k g c) ((s.block.touch k g c).nmsShares (s.block.taskAccess k.half g c) c
      ((s.block.touch k g c).nmsRun (s.block.taskAccess k.half g c) c)) cells) :
    ∃ t, exec (.nms k) s = .next t ∧ Lands s t k cells stOk ∧
      (∃ d, t.block.task k = some d ∧ d.shapeOut = [((((s.block.touch k g c).nmsRun (s.block.taskAccess k.half g c) c).filterMap
        (fun r => r.toOption)).map (fun o => o.kept.length)).foldl max 0]) ∧
      ∀ a, a ≠ regBase k.half + 0x1C30000 → a ≠ tierReg k.half 0x28 → t.block.reg a = s.block.reg a := by
  obtain ⟨d, hd, hrunning⟩ : ∃ d, (s.block.touch k g c).task k = some d ∧ d.phase = .running := by
    obtain ⟨-, htask, hphase, -⟩ := h
    rw [Block.touch_task, htask]
    split
    · exact ⟨_, rfl, hphase⟩
    · exact ⟨_, rfl, hphase⟩
  have hwork := (h.worked_touch (own := coreOwn k.half) (.inr rfl)).landPieces hw rfl
  refine ⟨_, rfl, ?_⟩
  simp only [h.onMode 4 hmode, (hw.landRun rfl).1]
  refine ⟨.of_fix ?_ ?_, ⟨_, Block.fix_modTask_task (c := d) ?_ ?_ stOk 0, ?_⟩, fun a hnms htier => ?_⟩
  · exact hwork.landed.of_memory ((Block.modTask_memory _ _ _).trans (Block.count_memory _ _ _ _ _))
  · exact ((hwork.heads stOk).of_tables (Block.count_tables _ _ _ _ _)).modTask fun _ => ⟨rfl, rfl⟩
  · rw [Block.task_eq_of_tables (Block.count_tables _ _ _ _ _), Block.task_eq_of_tables (Block.landPieces_tables _ _), hd]
  · exact .inr (.inr hrunning)
  · rfl
  · rw [Block.reg_eq (Block.fix_regs _ _ _ _), Block.reg_eq (Block.modTask_regs _ _ _), Block.count_reg_other _ _ _ _ _ _ hnms,
      Block.reg_eq (Block.landPieces_regs _ _)]
    exact s.block.touch_reg_other k g c htier

/-- Rows made early land, and the count of rows rises (R192). -/
theorem rowsReady_lands {rows : Nat} {q : Pairing} {run : List (Res Stored) × Nat} (h : Runs s.block k 0x04 g c)
    (hq : pairing (c.tensor 0).fmt (c.tensor 1).fmt = some q) (hsource : c.desc.isRowSource = true)
    (hlo : max c.cvRowLo c.rowsReady < rows) (hhi : rows ≤ c.cvRowHi) (height : rows % 8 = 0 ∨ rows = c.cvRowHi)
    (hopen : rowsOpen c (sourcesOf g c) (max c.cvRowLo c.rowsReady) rows = true)
    (hsrc : (sourcesOf g c).all (fun x => !x.fixed || firesTokens x.status) = true) (hhalt : s.block.anyHalted c = false)
    (hrun : run = (s.block.touch k g c).convRows ((s.block.touch k g c).taskAccess k.half g c) c q (max c.cvRowLo c.rowsReady) rows)
    (hw : Whole (s.block.touch k g c) (partShares run.1) cells) :
    ∃ t d, exec (.rowsReady k rows) s = .next t ∧ t.pending = s.pending ∧ Landed s.block t.block cells ∧ t.block.task k = some d ∧
      d.phase = .running ∧ d.rowsReady = rows ∧ d.counts = c.counts.add { partStats run.1 with nf := (partStats run.1).nf + run.2 } ∧
      ∀ a, a ≠ tierReg k.half 0x28 → t.block.reg a = s.block.reg a := by
  obtain ⟨d, hd, hrunning, hcounts⟩ : ∃ d, (s.block.touch k g c).task k = some d ∧ d.phase = .running ∧ d.counts = c.counts := by
    obtain ⟨-, htask, hphase, -⟩ := h
    rw [Block.touch_task, htask]
    split
    · exact ⟨_, rfl, hphase, rfl⟩
    · exact ⟨_, rfl, hphase, rfl⟩
  have hwork := (h.worked_touch (own := coreOwn k.half) (.inr rfl)).landPieces hw rfl
  have hstruck : c.struck k.half none = none := rfl
  refine ⟨_, { d with rowsReady := rows, counts := d.counts.add { partStats run.1 with nf := (partStats run.1).nf + run.2 } }, rfl, ?_⟩
  simp only [h.onRunning, hq, hsource, hlo, hhi, height, hopen, hsrc, hhalt, and_self, if_true, ← hrun, Block.convLand, hstruck,
    (hw.landRun rfl).1]
  refine ⟨trivial, ?_, ?_, hrunning, trivial, by rw [hcounts], fun a ha => ?_⟩
  · exact hwork.landed.of_memory (Block.modTask_memory _ _ _)
  · rw [Block.task_modTask, if_pos rfl, Block.task_eq_of_tables (Block.landPieces_tables _ _), hd]
    rfl
  · rw [Block.reg_eq (Block.modTask_regs _ _ _), Block.reg_eq (Block.landPieces_regs _ _)]
    exact s.block.touch_reg_other k g c ha
end

/-- Settles O17: each task's run lands whole on what its operands' first use left, cores count beside it, and its status is fixed last. -/
theorem engineTasks : Obligations.EngineTasks := by
  unfold Obligations.EngineTasks
  refine ⟨?_, ?_, ?_, ?_, ?_, ?_, ?_, ?_, ?_, ?_⟩
  · rintro s k par g c q _ _ cells h hq hhalt hnone hpar rfl rfl hw
    exact matrix_lands h hq hhalt hnone hpar hw
  · intro s k par g c q h hq hhalt hnone
    refine ⟨{ s with block := s.block.mxEnd k g c ConvStats.zero }, ?_, ((h.worked _).mxEnd g c _).1, Block.mxEnd_regs _ _ _ _ _⟩
    refine next_of_act (show exec (.matrix k par) s = execMatrix k par s from rfl) ?_
    simp only [h.onRunning, hq, hhalt, hnone, Bool.false_eq_true, if_false, if_true]
  · intro s k u g c q h hq hhalt hnone hcore
    have hstruck : c.struck k.half (some u) = some u := by simp only [TaskCtx.struck, Option.bind_some, hcore, if_true]
    refine ⟨_, rfl, rfl, ?_⟩
    simp only [h.onRunning, hq, hhalt, hnone, hstruck, Bool.false_eq_true, if_false]
    refine Heads.bankError (Heads.of_tables ?_ (Block.mxCountParts_coreWork _ c q).tables) u
    exact ((h.heads stDataError).touch g c).of_tables (Block.landSome_tables _ _)
  · rintro s k g c _ _ r cells h hmode rfl rfl hrun hw
    exact route_lands h hmode hrun hw
  · rintro s k g c _ _ cells h hmode rfl rfl hw
    exact combine_lands h hmode hw
  · rintro s k par g c q _ cells i h hi hsrc hq hhalt hopen hpar rfl hw
    exact ⟨_, exec_conv h hi, convTask_lands h hsrc hq hhalt hopen hpar hw⟩
  · intro s k par g c o i h hi hfailed hfixed
    exact ⟨_, exec_conv h hi, convTask_cancelled h hfailed hfixed⟩
  · rintro s k g c _ cells h hmode rfl hw
    exact boxDecode_lands h hmode hw
  · rintro s k g c _ _ cells h hmode rfl rfl hw
    exact nms_lands h hmode hw
  · rintro s k rows g c q _ run cells h hq hsource hlo hhi height hopen hsrc hhalt rfl hrun hw
    exact rowsReady_lands h hq hsource hlo hhi height hopen hsrc hhalt hrun hw

/-! ## Attention and KV tasks (R162-R176) -/

/-- The registers that the work of an attention or KV task may change: those of its half's cores, and the half's KV counters. -/
def attnOwn (h : HalfId) (a : Nat) : Prop := 0x60000000 ≤ a ∨ a = tierReg h 0x28 ∨ a = kvReg h 0x108

theorem attnOwn_ge (h : HalfId) (a : Nat) (ha : 0x60000000 ≤ a) : attnOwn h a := .inl ha

section
variable (b : Block)

theorem Block.addReg_coreWork (n : Nat) {a : Nat} (ha : 0x60000000 ≤ a) : CoreWork b (b.addReg a n) := b.modReg_coreWork _ ha

theorem Block.atCount_coreWork (n : Nat) (l : List AtRun) : CoreWork b (b.atCount n l) := by
  rw [Block.atCount]
  exact (b.addReg_coreWork _ (vxReg_ge n 0x10)).trans ((Block.addReg_coreWork _ _ (vxReg_ge n 0x18)).trans
    ((Block.addReg_coreWork _ _ (vxReg_ge n 0x20)).trans ((Block.addReg_coreWork _ _ (mxReg_ge n 8)).trans (Block.clearBanks_coreWork _ n))))

theorem Block.atCounts_coreWork (c : TaskCtx) (l : List (List (Res AtRun))) : CoreWork b (b.atCounts c l) := by
  rw [Block.atCounts]
  refine .trans (.foldl _ (fun x p => ?_) _ b) (Block.vxIssuedFree_coreWork _ c)
  exact x.atCount_coreWork p.1 p.2

theorem Block.atCountParts_coreWork (c : TaskCtx) : CoreWork b (b.atCountParts c) := by
  rw [Block.atCountParts]
  refine .foldl _ (fun x n => .trans ?_ (Block.clearBanks_coreWork _ n)) _ b
  have hcount (y : Block) (r : Nat) (hr : 0x60000000 ≤ r) : CoreWork y (y.fresh.2.addReg r y.fresh.1) :=
    y.fresh_coreWork.trans (Block.addReg_coreWork _ _ hr)
  exact (hcount x _ (vxReg_ge n 0x10)).trans ((hcount _ _ (vxReg_ge n 0x18)).trans ((hcount _ _ (vxReg_ge n 0x20)).trans (hcount _ _ (mxReg_ge n 8))))

/-- What a walk of the pages leaves in the cores, before the task's own context takes it. -/
theorem Block.kvWalked_coreWork (t : TaskRef) (w : KvWalk) : ∃ x, CoreWork b x ∧ b.kvWalked t w = x.modTask t (fun c => { c with kv := w.held }) := by
  rw [Block.kvWalked]
  refine ⟨_, .trans (.trans (.foldl _ (fun x p => ?_) _ b) (.foldl _ (fun x p => ?_) _ _)) (.foldl _ (fun x p => ?_) _ _), rfl⟩
  · exact x.modCore_coreWork _ _
  · exact x.count_coreWork 63 32 p.2 (vxReg_ge p.1 0x28)
  · exact x.count_coreWork 31 0 p.2 (vxReg_ge p.1 0x28)

/-- A run-ahead changes one KV counter of its half and takes a free value (R173). -/
theorem Block.kvRunAhead_cases (a : Access) (x : KvHeld) : b.kvRunAhead a x = b ∨
    b.kvRunAhead a x = b.fresh.2.count (kvReg a.half 0x108) 63 32 (Config.runAheads b.freeCounter) := by
  simp only [Block.kvRunAhead]
  split
  · exact .inr rfl
  · exact .inl rfl
end

section
variable {own : Nat → Prop} {b y : Block} {k : TaskRef} {cells : List Host.Cell}

theorem Worked.kvWalked (h : Worked own b y k cells) (ho : ∀ a, 0x60000000 ≤ a → own a) (w : KvWalk) : Worked own b (y.kvWalked k w) k cells := by
  obtain ⟨x, hx, hwalked⟩ := y.kvWalked_coreWork k w
  rw [hwalked]
  exact (h.coreWork ho hx).modTask k fun _ => ⟨rfl, rfl⟩

theorem Worked.kvRunAhead (h : Worked own b y k cells) (a : Access) (ho : own (kvReg a.half 0x108)) (x : KvHeld) :
    Worked own b (y.kvRunAhead a x) k cells := by
  obtain hsame | hcount := y.kvRunAhead_cases a x
  · rw [hsame]
    exact h
  · rw [hcount]
    refine h.of_regs (by simp) (by simp) fun e he => ?_
    rw [Block.count_reg_other _ _ _ _ _ _ fun heq => he (by rwa [heq])]
    rfl

/-- The end of an attention task, its statistics captured. -/
theorem Worked.atEnd {s : State} (h : Worked own s.block y k cells) (g : Graph) (c : TaskCtx) (l : List AtRun) :
    Lands s { s with block := y.atEnd k g c l } k cells (emptyOr c) ∧ ∀ a, ¬ own a → (y.atEnd k g c l).reg a = s.block.reg a := by
  cases he : c.emptyDetail with
  | none =>
    simp only [Block.atEnd, emptyOr, he]
    refine Worked.fix (h.modTask k ?_) stOk 0
    exact fun _ => ⟨rfl, rfl⟩
  | some detail =>
    simp only [Block.atEnd, emptyOr, he]
    refine Worked.fix (h.modTask k ?_) stOkEmpty detail
    exact fun _ => ⟨rfl, rfl⟩
end

section
variable {s : State} {k : TaskRef} {g : Graph} {c : TaskCtx} {cells : List Host.Cell}

/-- The run of an attention task, by its command and its mode. -/
theorem exec_attention {par : Option BankUpset} {i : Instr} {run : KvWalk × List (List (Res AtRun))} {b0 : Block} {a : Access}
    (h : Runs s.block k 0x03 g c) (hb0 : b0 = s.block.touch k g c) (ha : a = s.block.taskAccess k.half g c)
    (hi : i = .attnForward k par ∧ c.desc.pf 0 63 60 = 0 ∧ run = c.atRunAll (b0.atForwardUnit a c) ∨
      i = .attnForwardPartial k par ∧ c.desc.pf 0 63 60 = 1 ∧ run = c.atRunAll (b0.atForwardUnit a c) ∨
      i = .attnCombine k ∧ par = none ∧ c.desc.pf 0 63 60 = 2 ∧ run = c.atRunAll (fun w _ u => (w, b0.atCombineUnit a c u)) ∨
      i = .attnBackwardDkDv k par ∧ c.desc.pf 0 63 60 = 3 ∧ c.atLq ≠ 0 ∧ run = c.atRunAll (fun w _ u => (w, b0.atBackKeyUnit a c u)) ∨
      i = .attnBackwardDkDv k par ∧ c.desc.pf 0 63 60 = 3 ∧ c.atLq = 0 ∧ run = c.atRunAll (fun w _ _ =>
        (w, .ok { rows := [], second := [], rescales := 0, skipped := 0, empties := 0, issued := 0 })) ∨
      i = .attnBackwardDq k par ∧ c.desc.pf 0 63 60 = 4 ∧ run = c.atRunAll (fun w _ u => (w, b0.atBackQueryUnit a c u)))
    (hhalt : s.block.anyHalted c = false) : exec i s = .next { s with block := b0.atLand k g c par run } := by
  subst hb0 ha
  have hattn (mode : Nat) (hmode : c.desc.pf 0 63 60 = mode) (f : Block → Access → TaskCtx → KvWalk → Nat → AtUnit → KvWalk × Res AtRun) :
      s.block.attention k mode par f =
        (s.block.touch k g c).atLand k g c par (c.atRunAll (f (s.block.touch k g c) (s.block.taskAccess k.half g c) c)) := by
    simp only [Block.attention, h.onMode mode hmode, hhalt, Bool.false_eq_true, if_false]
  obtain ⟨rfl, hmode, rfl⟩ | ⟨rfl, hmode, rfl⟩ | ⟨rfl, rfl, hmode, rfl⟩ | ⟨rfl, hmode, hlq, rfl⟩ | ⟨rfl, hmode, hlq, rfl⟩ | ⟨rfl, hmode, rfl⟩ := hi
  · exact next_of_act (show exec (.attnForward k par) s = execAttnForward k par s from rfl) (hattn 0 hmode _)
  · exact next_of_act (show exec (.attnForwardPartial k par) s = execAttnForwardPartial k par s from rfl) (hattn 1 hmode _)
  · exact next_of_act (show exec (.attnCombine k) s = execAttnCombine k s from rfl) (hattn 2 hmode _)
  · refine next_of_act (show exec (.attnBackwardDkDv k par) s = execAttnBackwardDkDv k par s from rfl) ((hattn 3 hmode _).trans ?_)
    simp only [hlq, if_false]
  · refine next_of_act (show exec (.attnBackwardDkDv k par) s = execAttnBackwardDkDv k par s from rfl) ((hattn 3 hmode _).trans ?_)
    simp only [hlq, if_true]
  · exact next_of_act (show exec (.attnBackwardDq k par) s = execAttnBackwardDq k par s from rfl) (hattn 4 hmode _)

/-- A whole attention run lands. -/
theorem atLand_lands {par : Option BankUpset} {run : KvWalk × List (List (Res AtRun))} (h : Runs s.block k 0x03 g c)
    (hpar : c.struck k.half par = none) (hw : Whole ((s.block.touch k g c).kvWalked k run.1) (run.2.map (fun l => c.atPieces l)) cells) :
    Lands s { s with block := (s.block.touch k g c).atLand k g c par run } k cells (emptyOr c) ∧
      ∀ a, ¬ attnOwn k.half a → ((s.block.touch k g c).atLand k g c par run).reg a = s.block.reg a := by
  have hwork := (((h.worked_touch (own := attnOwn k.half) (.inr (.inl rfl))).kvWalked (attnOwn_ge k.half) run.1).landPieces hw rfl).coreWork
    (attnOwn_ge k.half) (Block.atCounts_coreWork _ c run.2)
  simp only [Block.atLand, hpar, (hw.landRun rfl).1]
  exact (hwork.kvRunAhead ((s.block.touch k g c).taskAccess k.half g c) (.inr (.inr rfl)) run.1.held).atEnd g c _

/-- A KV write whose rows are whole. -/
theorem kvWrite_lands {run : KvWalk × List (List (Res Stored))} (h : Runs s.block k 0x02 g c) (hmode : c.desc.pf 0 63 60 = 3)
    (hrun : run = (s.block.touch k g c).kvRun (s.block.taskAccess k.half g c) c)
    (hw : Whole ((s.block.touch k g c).kvWalked k run.1) (run.2.map (fun rs => seqPieces (rs.map (fun x => x.map (fun st => st.cells))))) cells) :
    ∃ t, exec (.kvWrite k) s = .next t ∧ Lands s t k cells stOk ∧ ∀ a, ¬ attnOwn k.half a → t.block.reg a = s.block.reg a := by
  have hwork := ((h.worked_touch (own := attnOwn k.half) (.inr (.inl rfl))).kvWalked (attnOwn_ge k.half) run.1).landPieces hw rfl
  refine ⟨_, rfl, ?_⟩
  simp only [h.onMode 3 hmode, ← hrun, (hw.landRun rfl).1]
  refine Worked.fix (Worked.modTask ((hwork.kvRunAhead (s.block.taskAccess k.half g c) (.inr (.inr rfl)) run.1.held).coreWork (attnOwn_ge k.half)
    (Block.vxIssuedFree_coreWork _ c)) k ?_) stOk 0
  exact fun _ => ⟨rfl, rfl⟩
end

/-! ### A KV write that meets an unmapped page (R164, R172) -/

section
variable (b : Block)

theorem Block.landFree_regs (ps : List Piece) (lo hi : Nat) : (b.landFree ps lo hi).regs = b.regs := by
  simp only [Block.landFree, Block.landPieces_regs, Block.fresh_regs]

theorem Block.landFree_tables (ps : List Piece) (lo hi : Nat) : (b.landFree ps lo hi).tables = b.tables := by
  simp only [Block.landFree, Block.landPieces_tables, Block.fresh_tables]

@[simp] theorem Block.landRun_regs (shares : List (List Piece)) : (b.landRun shares).1.regs = b.regs := by
  simp only [Block.landRun]
  split
  · exact b.landPieces_regs _
  · rfl
  · refine Block.regs_foldl _ (fun x p => ?_) _ b
    split <;> simp [Block.landFree_regs]

@[simp] theorem Block.landRun_tables (shares : List (List Piece)) : (b.landRun shares).1.tables = b.tables := by
  simp only [Block.landRun]
  split
  · exact b.landPieces_tables _
  · rfl
  · refine Block.tables_foldl _ (fun x p => ?_) _ b
    split <;> simp [Block.landFree_tables]
end

/-- Of the tasks that fail, those that neither publish nor fill just take the status. -/
theorem Block.fail_eq_fix {b : Block} {t : TaskRef} {c : TaskCtx} (hc : b.task t = some c) (hpublish : c.desc.type ≠ 7)
    (hmove : c.desc.type ≠ 6) (status detail : Nat) : b.fail t status detail = b.fix t status detail := by
  obtain ⟨g, hg⟩ : ∃ g, b.graph t.half t.graph = some g := by
    cases hg : b.graph t.half t.graph with
    | none => simp [Block.task, hg] at hc
    | some g => exact ⟨g, rfl⟩
  simp only [Block.fail, hg, hc, hpublish, hmove, false_and, if_false]
  split <;> rfl

/-- Counting 1 raises a field that does not reach the top. -/
theorem fld_satAdd_same (w : Word) (hi lo : Nat) (h : hi < 64) : fld (satAdd w hi lo 1) hi lo = min (fld w hi lo + 1) (2 ^ (hi + 1 - lo) - 1) := by
  have hpos := Nat.two_pow_pos (hi + 1 - lo)
  rw [satAdd, fld_setFld_same _ _ _ _ h, Nat.mod_eq_of_lt (by split <;> omega)]
  split <;> omega

section
variable {s : State} {k : TaskRef} {g : Graph} {c : TaskCtx}

/-- The context of a task whose operands are touched, its description as it was. -/
theorem Runs.touch_task {b : Block} {ty : Nat} (h : Runs b k ty g c) :
    ∃ d, (b.touch k g c).task k = some d ∧ d.phase = .running ∧ d.desc = c.desc := by
  obtain ⟨-, htask, hphase, -⟩ := h
  rw [Block.touch_task, htask]
  split
  · exact ⟨_, rfl, hphase, rfl⟩
  · exact ⟨_, rfl, hphase, rfl⟩

theorem kvWrite_unmapped {run : KvWalk × List (List (Res Stored))} {d : Nat} (h : Runs s.block k 0x02 g c) (hmode : c.desc.pf 0 63 60 = 3)
    (hrun : run = (s.block.touch k g c).kvRun (s.block.taskAccess k.half g c) c)
    (hstop : (((s.block.touch k g c).kvWalked k run.1).landRun (run.2.map (fun rs => seqPieces (rs.map (fun x => x.map (fun st => st.cells)))))).2 =
      some (.ended stKvUnmapped d)) :
    ∃ t, exec (.kvWrite k) s = .next t ∧ t.pending = s.pending ∧ Ended t.block k stKvUnmapped ∧
      t.block.regFld (kvReg k.half 0x108) 31 0 = min (s.block.regFld (kvReg k.half 0x108) 31 0 + 1) (2 ^ 32 - 1) := by
  have hkv : kvReg k.half 0x108 < 0x60000000 := by cases k.half <;> decide
  have hother : kvReg k.half 0x108 ≠ tierReg k.half 0x28 := by cases k.half <;> decide
  obtain ⟨x, hx, hwalked⟩ := (s.block.touch k g c).kvWalked_coreWork k run.1
  obtain ⟨d0, htouched, hphase, hdesc⟩ := h.touch_task
  refine ⟨_, rfl, rfl, ?_⟩
  simp only [h.onMode 3 hmode, ← hrun, hstop, Block.kvStop, if_true, Block.stop]
  generalize hl : ((s.block.touch k g c).kvWalked k run.1).landRun
    (run.2.map (fun rs => seqPieces (rs.map (fun x => x.map (fun st => st.cells))))) = l
  have hltask : l.1.task k = some { d0 with kv := run.1.held } := by
    rw [← hl, Block.task_eq_of_tables (Block.landRun_tables _ _), hwalked, Block.task_modTask, if_pos rfl,
      Block.task_eq_of_tables hx.tables, htouched, Option.map_some]
  have hlreg : l.1.reg (kvReg k.half 0x108) = s.block.reg (kvReg k.half 0x108) := by
    rw [← hl, Block.reg_eq (Block.landRun_regs _ _), hwalked, Block.reg_eq (Block.modTask_regs _ _ _), hx.reg _ hkv]
    exact s.block.touch_reg_other k g c hother
  generalize hy : l.1.kvRunAhead (s.block.taskAccess k.half g c) run.1.held = y
  have hytables : y.tables = l.1.tables := by
    obtain hsame | hcount := l.1.kvRunAhead_cases (s.block.taskAccess k.half g c) run.1.held
    · rw [← hy, hsame]
    · rw [← hy, hcount, Block.count_tables, Block.fresh_tables]
  have hyreg : fld (y.reg (kvReg k.half 0x108)) 31 0 = fld (l.1.reg (kvReg k.half 0x108)) 31 0 := by
    obtain hsame | hcount := l.1.kvRunAhead_cases (s.block.taskAccess k.half g c) run.1.held
    · rw [← hy, hsame]
    · rw [← hy, hcount, Block.count, show (s.block.taskAccess k.half g c).half = k.half from rfl, Block.reg_modReg_same, satAdd,
        fld_setFld_other _ _ _ _ _ _ (.inl (by decide)), Block.reg_eq (Block.fresh_regs _)]
  have hz := (y.count (kvReg k.half 0x108) 31 0 1).vxIssuedFree_coreWork { c with kv := run.1.held }
  have hztask : ((y.count (kvReg k.half 0x108) 31 0 1).vxIssuedFree { c with kv := run.1.held }).task k =
      some { d0 with kv := run.1.held } := by
    rw [Block.task_eq_of_tables hz.tables, Block.task_eq_of_tables (Block.count_tables _ _ _ _ _), Block.task_eq_of_tables hytables, hltask]
  have htype : d0.desc.type = 2 := by rw [hdesc, h.2.2.2]
  refine ⟨Heads.fail ⟨_, hztask, .inl (.inr (.inr hphase))⟩ d, ?_⟩
  rw [Block.fail_eq_fix hztask (by simp [htype]) (by simp [htype]), Block.regFld, Block.reg_eq (Block.fix_regs _ _ _ _), hz.reg _ hkv, Block.count,
    Block.reg_modReg_same, fld_satAdd_same _ _ _ (by decide), hyreg, hlreg]
  rfl
end

/-- Settles O18: an attention run lands whole on what its page walk left, the cores and the KV counters change beside it, and its status is
fixed last. -/
theorem attentionTasks : Obligations.AttentionTasks := by
  unfold Obligations.AttentionTasks
  have hown {k : TaskRef} {y : Nat} (hlow : y < 0x60000000) (htier : y ≠ tierReg k.half 0x28) (hkv : y ≠ kvReg k.half 0x108) :
      ¬ attnOwn k.half y := fun ho => ho.elim (Nat.not_le_of_lt hlow) fun ho => ho.elim htier hkv
  refine ⟨?_, ?_, ?_, ?_, ?_⟩
  · rintro s k par g c _ a run cells i h rfl ha hi hhalt hpar hw
    obtain ⟨hlands, hreg⟩ := atLand_lands h hpar hw
    exact ⟨_, exec_attention h rfl ha hi hhalt, hlands, fun y hlow htier hkv => hreg y (hown hlow htier hkv)⟩
  · intro s k u g c i h hi hhalt hcore
    have hstruck : c.struck k.half (some u) = some u := by simp only [TaskCtx.struck, Option.bind_some, hcore, if_true]
    have hended (run : KvWalk × List (List (Res AtRun))) : Ended ((s.block.touch k g c).atLand k g c (some u) run) k stDataError := by
      obtain ⟨x, hx, hwalked⟩ := (s.block.touch k g c).kvWalked_coreWork k run.1
      simp only [Block.atLand, hstruck]
      refine Heads.bankError (Heads.of_tables ?_ ((Block.atCountParts_coreWork _ c).trans (Block.vxIssuedFree_coreWork _ c)).tables) u
      rw [hwalked]
      refine Heads.of_tables (Heads.modTask (((h.heads stDataError).touch g c).of_tables hx.tables) ?_) (Block.landSome_tables _ _)
      exact fun _ => ⟨rfl, rfl⟩
    simp only [List.mem_cons, Prod.mk.injEq, List.not_mem_nil, or_false] at hi
    obtain ⟨rfl, hmode⟩ | ⟨rfl, hmode⟩ | ⟨rfl, hmode⟩ | ⟨rfl, hmode⟩ := hi
    · exact ⟨_, exec_attention h rfl rfl (.inl ⟨rfl, hmode, rfl⟩) hhalt, rfl, hended _⟩
    · exact ⟨_, exec_attention h rfl rfl (.inr (.inl ⟨rfl, hmode, rfl⟩)) hhalt, rfl, hended _⟩
    · by_cases hlq : c.atLq = 0
      · exact ⟨_, exec_attention h rfl rfl (.inr (.inr (.inr (.inr (.inl ⟨rfl, hmode, hlq, rfl⟩))))) hhalt, rfl, hended _⟩
      · exact ⟨_, exec_attention h rfl rfl (.inr (.inr (.inr (.inl ⟨rfl, hmode, hlq, rfl⟩)))) hhalt, rfl, hended _⟩
    · exact ⟨_, exec_attention h rfl rfl (.inr (.inr (.inr (.inr (.inr ⟨rfl, hmode, rfl⟩))))) hhalt, rfl, hended _⟩
  · intro s k g c par i h hi hhalt
    have hwaits (mode : Nat) (hmode : c.desc.pf 0 63 60 = mode) (p : Option BankUpset)
        (f : Block → Access → TaskCtx → KvWalk → Nat → AtUnit → KvWalk × Res AtRun) : s.block.attention k mode p f = s.block := by
      simp only [Block.attention, h.onMode mode hmode, hhalt, if_true]
    simp only [List.mem_cons, Prod.mk.injEq, List.not_mem_nil, or_false] at hi
    obtain ⟨rfl, hmode⟩ | ⟨rfl, hmode⟩ | ⟨rfl, hmode⟩ | ⟨rfl, hmode⟩ | ⟨rfl, hmode⟩ := hi
    · exact next_of_act (show exec (.attnForward k par) s = execAttnForward k par s from rfl) (hwaits 0 hmode _ _)
    · exact next_of_act (show exec (.attnForwardPartial k par) s = execAttnForwardPartial k par s from rfl) (hwaits 1 hmode _ _)
    · exact next_of_act (show exec (.attnCombine k) s = execAttnCombine k s from rfl) (hwaits 2 hmode _ _)
    · exact next_of_act (show exec (.attnBackwardDkDv k par) s = execAttnBackwardDkDv k par s from rfl) (hwaits 3 hmode _ _)
    · exact next_of_act (show exec (.attnBackwardDq k par) s = execAttnBackwardDq k par s from rfl) (hwaits 4 hmode _ _)
  · rintro s k g c _ _ run cells h hmode rfl rfl hrun hw
    obtain ⟨t, hexec, hlands, hreg⟩ := kvWrite_lands h hmode hrun hw
    exact ⟨t, hexec, hlands, fun y hlow htier hkv => hreg y (hown hlow htier hkv)⟩
  · rintro s k g c _ _ run d h hmode rfl rfl hrun hstop
    exact kvWrite_unmapped h hmode hrun hstop

/-! ## Gathers and scatters (R221-R226) -/

/-- The one register that the work of a gather may change. -/
def tierOwn (h : HalfId) (a : Nat) : Prop := a = tierReg h 0x28

section
variable {own : Nat → Prop} {b y : Block} {k : TaskRef} {cells : List Host.Cell}

theorem Worked.touchPieces (h : Worked own b y k cells) (t : TaskRef) (n : Nat) (ps : List (Nat × Nat)) :
    Worked own b (y.touchPieces t n ps) k cells :=
  h.of_regs (y.touchPieces_memory t n ps) (y.touchPieces_tables t n ps) fun a _ => Block.reg_eq (y.touchPieces_regs t n ps) a

theorem Worked.touchSlots (h : Worked own b y k cells) (ho : own (tierReg k.half 0x28)) (g : Graph) (c : TaskCtx) (l : List Nat) :
    Worked own b (y.touchSlots k g c l) k cells :=
  ⟨h.landed.of_memory (y.touchSlots_memory k g c l),
    fun a ha => (y.touchSlots_reg_other k g c l (a := a) fun e => ha (e ▸ ho)).trans (h.reg a ha), fun status => (h.heads status).touchSlots g c l⟩

/-- Out-of-range indices and dropped run-aheads are counted in one register (R204, R222). -/
theorem Worked.countAhead (h : Worked own b y k cells) (ho : own (tierReg k.half 0x28)) (table : Tensor) (is : List Int) (n : Nat)
    (ps : List (Nat × Nat)) : Worked own b ((y.countOob k.half table is).noteAhead k.half n ps) k cells := by
  refine h.of_regs ?_ ?_ fun a ha => ?_
  · rw [Block.noteAhead_memory, Block.countOob, Block.count_memory]
  · rw [Block.noteAhead_tables, Block.countOob, Block.count_tables]
  · have hne : a ≠ tierReg k.half 0x28 := fun e => ha (e ▸ ho)
    rw [Block.noteAhead_reg_other _ _ _ _ hne, Block.countOob, Block.count_reg_other _ _ _ _ _ _ hne]

theorem Worked.startGather (h : Worked own b y k cells) (ho : own (tierReg k.half 0x28)) (g : Graph) (c : TaskCtx) (is : List Int) :
    Worked own b (y.startGather k g c is) k cells := by
  have hnoted : Worked own b (if c.noted then y else (y.countOob k.half (c.tensor 0) is).noteAhead k.half g.slot (tablePieces (c.tensor 0) is))
      k cells := by
    split
    · exact h
    · exact h.countAhead ho (c.tensor 0) is g.slot _
  exact (hnoted.touchSlots ho g c [1, 2]).touchPieces k g.slot _

theorem Block.startGather_memory (b : Block) (t : TaskRef) (g : Graph) (c : TaskCtx) (is : List Int) :
    (b.startGather t g c is).memory = b.memory := by
  simp only [Block.startGather, Block.touchPieces_memory, Block.touchSlots_memory]
  split
  · rfl
  · rw [Block.noteAhead_memory, Block.countOob, Block.count_memory]

/-- Rows that were added to: memory alone differs. -/
theorem Block.adderRow_keeps {b x : Block} {a : Access} {op : Nat} {table rows : Tensor} {i j : Nat}
    (h : b.adderRow a op table rows i j = .ok x) : x.regs = b.regs ∧ x.tables = b.tables := by
  simp only [Block.adderRow] at h
  split at h
  · cases h
  · cases h
  · split at h
    · cases h
    · next cells _ =>
      split at h
      · cases h
      · next hland =>
        cases h
        have hx : x = (b.landCells cells).1 := by rw [hland]
        rw [hx]
        exact ⟨rfl, rfl⟩

theorem Block.adderRows_keeps {b x : Block} {a : Access} {op : Nat} {table rows : Tensor} {l : List (Int × Nat)}
    (h : b.adderRows a op table rows l = .ok x) : x.regs = b.regs ∧ x.tables = b.tables := by
  induction l generalizing b with
  | nil =>
    cases h
    exact ⟨rfl, rfl⟩
  | cons p ps ih =>
    simp only [Block.adderRows] at h
    split at h
    · split at h
      · cases h
      · next b1 hone =>
        obtain ⟨hregs, htables⟩ := Block.adderRow_keeps hone
        obtain ⟨hregs', htables'⟩ := ih h
        exact ⟨hregs'.trans hregs, htables'.trans htables⟩
    · exact ih h

theorem Block.freshList_keeps (b : Block) (n : Nat) : (b.freshList n).2.regs = b.regs ∧ (b.freshList n).2.tables = b.tables := by
  induction n generalizing b with
  | zero => exact ⟨rfl, rfl⟩
  | succ n ih => exact ih b.fresh.2

theorem Block.freeRows_keeps (b : Block) (a : Access) (table : Tensor) (is : List Int) :
    (b.freeRows a table is).regs = b.regs ∧ (b.freeRows a table is).tables = b.tables := by
  induction is generalizing b with
  | nil => exact ⟨rfl, rfl⟩
  | cons i is ih =>
    obtain ⟨hregs, htables⟩ := b.freshList_keeps (table.ext 0)
    simp only [Block.freeRows]
    split
    · split
      · exact ⟨(ih _).1.trans hregs, (ih _).2.trans htables⟩
      · exact ⟨(ih _).1.trans hregs, (ih _).2.trans htables⟩
    · exact ih b
end

section
variable {s : State} {k : TaskRef} {g : Graph} {c : TaskCtx} {is : List Int}

/-- What a gather's indices come to: the body runs when none that traps is out of range. -/
theorem runGather_eq (h : Runs s.block k 0x05 g c) {mode : Nat} (hmode : c.desc.pf 0 63 60 = mode)
    (his : (s.block.touchPieces k g.slot (c.tensor 1).pieces).gatherIndices (s.block.taskAccess k.half g c) (c.tensor 1) = .ok is)
    (htrap : c.desc.pf 0 59 59 = 1 → is.all (fun x => inTable (c.tensor 0) x) = true)
    (body : Graph → TaskCtx → Access → List Int → Block → Block) :
    s.block.runGather k mode body = body g c (s.block.taskAccess k.half g c) is
      ((s.block.touchPieces k g.slot (c.tensor 1).pieces).startGather k g c is) := by
  have hnone : (if c.desc.pf 0 59 59 = 1 then is.find? (fun i => !(inTable (c.tensor 0) i)) else none) = none := by
    split
    · next ht =>
      rw [List.find?_eq_none]
      intro x hx
      simp [List.all_eq_true.mp (htrap ht) x hx]
    · rfl
  simp only [Block.runGather, h.onMode mode hmode, his, hnone]

theorem runGather_traps (h : Runs s.block k 0x05 g c) {mode : Nat} (hmode : c.desc.pf 0 63 60 = mode) {x : Int}
    (his : (s.block.touchPieces k g.slot (c.tensor 1).pieces).gatherIndices (s.block.taskAccess k.half g c) (c.tensor 1) = .ok is)
    (htrap : c.desc.pf 0 59 59 = 1) (hfind : is.find? (fun x => !(inTable (c.tensor 0) x)) = some x)
    (body : Graph → TaskCtx → Access → List Int → Block → Block) :
    s.block.runGather k mode body =
      (s.block.touchPieces k g.slot (c.tensor 1).pieces).fix k stShapeOver (8 + twos 24 x * 256) := by
  simp only [Block.runGather, h.onMode mode hmode, his, htrap, if_true, hfind]

/-- The work of a gather up to its rows. -/
theorem Runs.worked_gather (h : Runs s.block k 0x05 g c) (is : List Int) :
    Worked (tierOwn k.half) s.block ((s.block.touchPieces k g.slot (c.tensor 1).pieces).startGather k g c is) k [] :=
  ((h.worked (tierOwn k.half)).touchPieces k g.slot _).startGather rfl g c is

/-- Rows that can all be made, and meet no bad word, land (R221). -/
theorem Worked.finish {own : Nat → Prop} {y : Block} {r : Res (List Host.Cell)} {cells : List Host.Cell} (h : Worked own s.block y k [])
    (hr : r = .ok cells) (hhits : y.badHits cells = []) (status detail : Nat) :
    Lands s { s with block := y.finish k r status detail } k cells status ∧
      ∀ a, ¬ own a → (y.finish k r status detail).reg a = s.block.reg a := by
  rw [hr, Block.finish, Block.land_eq _ _ _ _ hhits]
  exact (h.landCells hhits).fix status detail

/-- The adder's rows, and its task's end (R223, R226). -/
theorem runAdders_ends (h : Runs s.block k 0x05 g c) {mode op : Nat} (hmode : c.desc.pf 0 63 60 = mode)
    (his : (s.block.touchPieces k g.slot (c.tensor 1).pieces).gatherIndices (s.block.taskAccess k.half g c) (c.tensor 1) = .ok is)
    (htrap : c.desc.pf 0 59 59 = 1 → is.all (fun x => inTable (c.tensor 0) x) = true) {b : Block}
    (hrows : ((s.block.touchPieces k g.slot (c.tensor 1).pieces).startGather k g c is).adderRows (s.block.taskAccess k.half g c) op (c.tensor 0)
      (c.tensor 2) ((is.zip (List.range is.length)).drop c.stage) = .ok b) :
    Ended (s.block.runAdders k mode op) k stOk ∧
      (s.block.runAdders k mode op).mem = (if op = 0 ∧ ((c.tensor 0).fmt = 0x00 ∨ (c.tensor 0).fmt = 0x01) ∧ 1 < c.desc.cores then
        b.freeRows (s.block.taskAccess k.half g c) (c.tensor 0) (contested c.desc.cores is) else b).mem ∧
      ∀ a, a ≠ tierReg k.half 0x28 → (s.block.runAdders k mode op).reg a = s.block.reg a := by
  have hwork := h.worked_gather is
  obtain ⟨hregs, htables⟩ := Block.adderRows_keeps hrows
  obtain ⟨hregs', htables'⟩ := b.freeRows_keeps (s.block.taskAccess k.half g c) (c.tensor 0) (contested c.desc.cores is)
  rw [Block.runAdders, runGather_eq h hmode his htrap]
  simp only [hrows]
  refine ⟨Heads.fix ?_ 0, Block.mem_eq_of_memory (Block.fix_memory _ _ _ _), fun a ha => ?_⟩
  · refine (hwork.heads stOk).of_tables (.trans ?_ htables)
    exact Block.tables_ite _ htables' rfl
  · rw [Block.reg_eq (Block.fix_regs _ _ _ _), Block.reg_eq (Block.regs_ite _ hregs' rfl), Block.reg_eq hregs]
    exact hwork.reg a ha
end

/-- Settles O23: rows land on what the counts of R204 and R222 left; the adder's rows change memory alone. -/
theorem gatherTasks : Obligations.GatherTasks := by
  unfold Obligations.GatherTasks
  refine ⟨?_, ?_, ?_⟩
  · intro s k g c is cells i h his htrap hi hhits
    have hwork := h.worked_gather is
    have hhits' : ((s.block.touchPieces k g.slot (c.tensor 1).pieces).startGather k g c is).badHits cells = [] := by
      rw [Block.badHits_eq_of_memory (Block.startGather_memory _ _ _ _ _), Block.badHits_eq_of_memory (Block.touchPieces_memory _ _ _ _), hhits]
    obtain ⟨rfl, hmode, hcells⟩ | ⟨rfl, hmode, hcells⟩ := hi
    · exact ⟨_, next_of_act (show exec (.gather k) s = execGather k s from rfl) (runGather_eq h hmode his htrap _),
        hwork.finish hcells hhits' stOk 0⟩
    · exact ⟨_, next_of_act (show exec (.scatter k) s = execScatter k s from rfl) (runGather_eq h hmode his htrap _),
        hwork.finish hcells hhits' stOk 0⟩
  · intro s k g c is b i op h his htrap hi hrows
    obtain ⟨rfl, hmode, rfl⟩ | ⟨rfl, hmode, rfl⟩ | ⟨rfl, hmode, rfl⟩ := hi
    · exact ⟨_, rfl, rfl, runAdders_ends h hmode his htrap hrows⟩
    · exact ⟨_, rfl, rfl, runAdders_ends h hmode his htrap hrows⟩
    · exact ⟨_, rfl, rfl, runAdders_ends h hmode his htrap hrows⟩
  · intro s k g c is x i h his htrap hfind hi
    have hends (detail : Nat) (y : Block) (hy : y = (s.block.touchPieces k g.slot (c.tensor 1).pieces).fix k stShapeOver detail) :
        Ended y k stShapeOver ∧ y.mem = s.block.mem ∧ y.regs = s.block.regs := by
      subst hy
      refine ⟨Heads.fix (((h.worked (tierOwn k.half)).touchPieces k g.slot _).heads _) _, Block.mem_eq_of_memory ?_, ?_⟩
      · rw [Block.fix_memory, Block.touchPieces_memory]
      · rw [Block.fix_regs, Block.touchPieces_regs]
    simp only [List.mem_cons, Prod.mk.injEq, List.not_mem_nil, or_false] at hi
    obtain ⟨rfl, hmode⟩ | ⟨rfl, hmode⟩ | ⟨rfl, hmode⟩ | ⟨rfl, hmode⟩ | ⟨rfl, hmode⟩ := hi
    · exact ⟨_, next_of_act (show exec (.gather k) s = execGather k s from rfl) (runGather_traps h hmode his htrap hfind _), rfl, hends _ _ rfl⟩
    · exact ⟨_, next_of_act (show exec (.scatter k) s = execScatter k s from rfl) (runGather_traps h hmode his htrap hfind _), rfl, hends _ _ rfl⟩
    · exact ⟨_, next_of_act (show exec (.scatterAdd k) s = execScatterAdd k s from rfl) (runGather_traps h hmode his htrap hfind _), rfl, hends _ _ rfl⟩
    · exact ⟨_, next_of_act (show exec (.scatterMax k) s = execScatterMax k s from rfl) (runGather_traps h hmode his htrap hfind _), rfl, hends _ _ rfl⟩
    · exact ⟨_, next_of_act (show exec (.scatterMin k) s = execScatterMin k s from rfl) (runGather_traps h hmode his htrap hfind _), rfl, hends _ _ rfl⟩

/-! ## Vector programs (R143-R152) -/

theorem Block.badHits_nil (b : Block) : b.badHits [] = [] := by
  simp [Block.badHits]

/-- Pieces that are each empty join to nothing. -/
theorem concatRes_nil {α β : Type} {f : α → Res (List β)} (l : List α) (hf : ∀ x ∈ l, f x = .ok []) : concatRes f l = .ok [] := by
  have hmap : ∃ ls : List (List β), mapRes f l = .ok ls ∧ ls.flatten = [] := by
    induction l with
    | nil => exact ⟨[], rfl, rfl⟩
    | cons x xs ih =>
      obtain ⟨ls, hls, hflat⟩ := ih fun y hy => hf y (List.mem_cons_of_mem x hy)
      exact ⟨[] :: ls, by simp only [mapRes, hf x List.mem_cons_self, hls], by simpa using hflat⟩
  obtain ⟨ls, hls, hflat⟩ := hmap
  simp only [concatRes, hls, hflat]

theorem Block.vecBitmaps_of_plain (b : Block) (a : Access) {c : TaskCtx} (hcomp : ∀ i, (c.tensor i).comp ≠ 7) (slots : List Nat) :
    b.vecBitmaps a c slots = .ok [] := by
  rw [Block.vecBitmaps]
  exact concatRes_nil slots fun i _ => if_pos (hcomp i)

/-- The first use of the operands leaves what an access reads by. -/
theorem Block.touch_taskAccess (b : Block) (k : TaskRef) (g : Graph) (c : TaskCtx) (h : HalfId) (g' : Graph) (c' : TaskCtx) :
    (b.touch k g c).taskAccess h g' c' = b.taskAccess h g' c' := by
  have hne : safReg h (0x600 + 8 * g'.slot.val) ≠ tierReg k.half 0x28 := by
    have hslot := g'.slot.isLt
    cases h <;> cases k.half <;> simp only [safReg, tierReg, regBase, halfNum] <;> omega
  simp only [Block.taskAccess, Block.access, b.touch_reg_other k g c hne]

section
variable {own : Nat → Prop} {b y : Block} {k : TaskRef} {g : Graph} {c : TaskCtx} {cells more : List Host.Cell}

/-- Cells that land once the task's context has taken its results. -/
theorem Worked.land (h : Worked own b y k cells) {f : TaskCtx → TaskCtx} (hf : ∀ c, (f c).phase = c.phase ∧ (f c).status = c.status)
    (hhits : y.badHits more = []) (status detail : Nat) :
    Ended ((y.modTask k f).land k more status detail) k status ∧ Landed b ((y.modTask k f).land k more status detail) (cells ++ more) ∧
      ((y.modTask k f).land k more status detail).regs = y.regs := by
  have hwork := h.modTask k hf
  have hhits' : (y.modTask k f).badHits more = [] := by rw [Block.badHits_eq_of_memory (Block.modTask_memory _ _ _), hhits]
  rw [Block.land_eq _ _ _ _ hhits']
  refine ⟨Heads.fix ((hwork.heads status).of_tables (Block.landCells_tables _ _)) detail, ?_, ?_⟩
  · exact (hwork.landed.trans (Block.landCells_landed hhits')).of_memory (Block.fix_memory _ _ _ _)
  · rw [Block.fix_regs, Block.landCells_regs, Block.modTask_regs]

/-- The end of a vector program: its bitmaps land on what its instructions stored. -/
theorem Worked.vecEnd (h : Worked own b y k cells)
    (hmaps : y.vecBitmaps (y.taskAccess k.half g c) c ((c.prog.filter (fun w => vecOpcode w = 0x02)).map
      (fun w => immN (vecFields w) % 8)).eraseDups = .ok more) (hhits : y.badHits more = []) (status detail : Nat) :
    Ended (y.vecEnd k g c status detail) k status ∧ Landed b (y.vecEnd k g c status detail) (cells ++ more) ∧
      (y.vecEnd k g c status detail).regs = y.regs := by
  simp only [Block.vecEnd, hmaps, Block.finish]
  refine h.land ?_ hhits status detail
  exact fun _ => ⟨rfl, rfl⟩
end

/-- Settles O21: the end of a program adds its bitmaps to what the instructions left, or to the identities of an empty one. -/
theorem vectorProgramCompletes : Obligations.VectorProgramCompletes := by
  unfold Obligations.VectorProgramCompletes
  refine ⟨?_, ?_⟩
  · intro s k g g' c c' b cells h hmode hempty hrun h' hmode' hmaps hhits
    obtain ⟨hend, hlanded, hregs⟩ := (h'.worked fun _ => False).vecEnd hmaps hhits stOk 0
    refine ⟨{ s with block := b.vecEnd k g' c' stOk 0 }, ?_, rfl, hend, hlanded, hregs⟩
    refine next_of_act (show exec (.vectorProgram k) s = execVectorProgram k s from rfl) ?_
    simp only [h.onMode 0 hmode, hempty, hrun, h'.onMode 0 hmode', if_true]
  · intro s k g c d cells h hmode hempty hcomp hstores hhits
    have hhits' : (s.block.touch k g c).badHits cells = [] := by rw [Block.badHits_eq_of_memory (Block.touch_memory _ _ _ _), hhits]
    have hwork := (h.worked_touch (own := tierOwn k.half) rfl).landCells hhits'
    obtain ⟨hend, hlanded, hregs⟩ := hwork.vecEnd (g := g) (Block.vecBitmaps_of_plain _ _ hcomp _) (Block.badHits_nil _) stOkEmpty d
    refine ⟨{ s with block := ((s.block.touch k g c).landCells cells).1.vecEnd k g c stOkEmpty d }, ?_, ⟨rfl, hend, by simpa using hlanded⟩,
      fun a ha => (Block.reg_eq hregs a).trans (hwork.reg a ha)⟩
    refine next_of_act (show exec (.vectorProgram k) s = execVectorProgram k s from rfl) ?_
    simp only [h.onMode 0 hmode, hempty, Block.touch_taskAccess, hstores, Block.landCells_stop hhits']

/-! ## The graphs of a half and those that wait (R26-R29)

While tasks move on, records are told and steps are opened, a half's waiting graphs stay as they are, and each live graph keeps its job, its
ring's head and the number of its tasks. -/

/-- The graphs that wait, and of each live graph its job, its ring's head and the number of its tasks. -/
structure Outline where
  waiting : HalfId → List WaitingGraph
  graphs : HalfId → Nat → Option (Nat × Nat × Nat)

/-- What the outline of a graph tells. -/
def Graph.outline (g : Graph) : Nat × Nat × Nat := (g.job, g.head, g.tasks.length)

/-- The outline of a block. -/
def Block.outline (b : Block) : Outline :=
  { waiting := fun h => (b.half h).waiting, graphs := fun h i => (b.graph h i).map Graph.outline }

section
variable {b c : Block}

theorem Block.waiting_eq_of_outline (e : b.outline = c.outline) (h : HalfId) : (b.half h).waiting = (c.half h).waiting :=
  congrArg (fun x : Outline => x.waiting h) e

theorem Block.graph_outline_of_outline (e : b.outline = c.outline) (h : HalfId) (i : Nat) :
    (b.graph h i).map Graph.outline = (c.graph h i).map Graph.outline := congrArg (fun x : Outline => x.graphs h i) e

theorem Block.outline_eq (hA : b.halfA = c.halfA) (hB : b.halfB = c.halfB) : b.outline = c.outline := by
  simp only [Block.outline, Block.graph, Block.half_eq hA hB]

theorem Block.outline_ite {x y z : Block} (p : Prop) [Decidable p] (hx : x.outline = z.outline) (hy : y.outline = z.outline) :
    (if p then x else y).outline = z.outline := by
  split
  · exact hx
  · exact hy

theorem Block.outline_foldl {α : Type} (f : Block → α → Block) (hf : ∀ b x, (f b x).outline = b.outline) (l : List α) (b : Block) :
    (l.foldl f b).outline = b.outline := by
  induction l generalizing b with
  | nil => rfl
  | cons x xs ih => rw [List.foldl_cons, ih, hf]

/-- A change of a half that keeps its live and its waiting graphs. -/
theorem Block.modHalf_outline (b : Block) (h : HalfId) (f : Half → Half) (hg : ∀ x, (f x).graphs = x.graphs)
    (hw : ∀ x, (f x).waiting = x.waiting) : (b.modHalf h f).outline = b.outline := by
  have hhalf (k : HalfId) : ((b.modHalf h f).half k).graphs = (b.half k).graphs ∧ ((b.modHalf h f).half k).waiting = (b.half k).waiting := by
    by_cases hk : k = h
    · subst hk; simp [hg, hw]
    · simp [Block.half_modHalf_other _ _ _ _ hk]
  simp only [Block.outline, Block.graph, hhalf]
end

/-- A live graph that is changed reads as changed, and every other as before. -/
theorem Block.graph_modGraph (b : Block) (h k : HalfId) (i j : Nat) (f : Graph → Graph) :
    (b.modGraph h i f).graph k j = if k = h ∧ j = i then (b.graph h i).map f else b.graph k j := by
  cases hg : b.graph h i with
  | none =>
    have hsame : b.modGraph h i f = b := by simp [Block.modGraph, hg]
    rw [hsame]
    split
    · next hkj => rw [hkj.1, hkj.2, hg]; rfl
    · rfl
  | some g =>
    simp only [Block.modGraph, hg]
    by_cases hk : k = h
    · subst hk
      by_cases hj : j = i
      · simp [Block.graph, hj]
      · simp [Block.graph, hj, tabFind_tabPut_other _ _ _ _ hj]
    · simp [Block.graph, hk, Block.half_modHalf_other _ _ _ _ hk]

theorem Block.modGraph_waiting (b : Block) (h k : HalfId) (i : Nat) (f : Graph → Graph) :
    ((b.modGraph h i f).half k).waiting = (b.half k).waiting := by
  rw [Block.modGraph]
  split
  · rfl
  · by_cases hk : k = h
    · subst hk; simp
    · rw [Block.half_modHalf_other _ _ _ _ hk]

section
variable (b : Block) (h : HalfId)

theorem Block.modGraph_outline (i : Nat) {f : Graph → Graph} (hf : ∀ g, (f g).outline = g.outline) : (b.modGraph h i f).outline = b.outline := by
  simp only [Block.outline, Block.modGraph_waiting, Outline.mk.injEq, true_and]
  funext k j
  rw [Block.graph_modGraph]
  split
  · next hkj =>
    rw [hkj.1, hkj.2]
    cases b.graph h i with
    | none => rfl
    | some g => exact congrArg some (hf g)
  · rfl

@[simp] theorem Block.modTask_outline (t : TaskRef) (f : TaskCtx → TaskCtx) : (b.modTask t f).outline = b.outline :=
  b.modGraph_outline _ _ fun g => by simp [Graph.outline]

@[simp] theorem Block.setReg_outline (a : Nat) (v : Word) : (b.setReg a v).outline = b.outline := Block.outline_eq (by simp) (by simp)
@[simp] theorem Block.modReg_outline (a : Nat) (f : Word → Word) : (b.modReg a f).outline = b.outline := b.setReg_outline a _
@[simp] theorem Block.setRegFld_outline (a hi lo v : Nat) : (b.setRegFld a hi lo v).outline = b.outline := b.modReg_outline a _
@[simp] theorem Block.count_outline (a hi lo n : Nat) : (b.count a hi lo n).outline = b.outline := b.modReg_outline a _
@[simp] theorem Block.emit_outline (o : Out) : (b.emit o).outline = b.outline := Block.outline_eq (by simp) (by simp)
@[simp] theorem Block.log_outline (e : Event) : (b.log e).outline = b.outline := Block.outline_eq (by simp) (by simp)
@[simp] theorem Block.modSlot_outline (k : Nat) (f : JobSlot → JobSlot) : (b.modSlot k f).outline = b.outline := Block.outline_eq (by simp) (by simp)
@[simp] theorem Block.modPair_outline (q : Nat) (f : QueuePair → QueuePair) : (b.modPair q f).outline = b.outline := Block.outline_eq (by simp) (by simp)
@[simp] theorem Block.hostStore_outline (a : Nat) (l : List Byte) : (b.hostStore a l).outline = b.outline := Block.outline_eq (by simp) (by simp)

@[simp] theorem Block.modTiers_outline (f : Tiers → Tiers) : (b.modTiers h f).outline = b.outline :=
  b.modHalf_outline h _ (fun _ => rfl) (fun _ => rfl)

@[simp] theorem Block.modPort_outline (x : Nat) (f : Port → Port) : (b.modPort h x f).outline = b.outline :=
  b.modHalf_outline h _ (fun _ => rfl) (fun _ => rfl)

/-! ### The end of a task -/

@[simp] theorem Block.modObject_outline (i : Nat) (f : CacheObject → CacheObject) : (b.modObject i f).outline = b.outline := by
  rw [Block.modObject]
  split <;> simp

@[simp] theorem Block.freeFrames_outline (l : List Nat) : (b.freeFrames l).outline = b.outline := by
  induction l generalizing b with
  | nil => rfl
  | cons f fs ih => rw [Block.freeFrames, ih, Block.freeFrame, Block.modTiers_outline]

@[simp] theorem Block.freeObject_outline (i : Nat) : (b.freeObject i).outline = b.outline := by
  rw [Block.freeObject]
  split <;> simp

@[simp] theorem Block.reapObject_outline (i : Nat) : (b.reapObject i).outline = b.outline := by
  rw [Block.reapObject]
  split
  · rfl
  · split <;> simp

@[simp] theorem Block.reapObjects_outline (l : List Nat) : (b.reapObjects l).outline = b.outline := by
  induction l generalizing b with
  | nil => rfl
  | cons i is ih => rw [Block.reapObjects, ih, Block.reapObject_outline]

@[simp] theorem Block.dropRefs_outline (t : TaskRef) : (b.dropRefs t).outline = b.outline := by
  rw [Block.dropRefs, Block.reapObjects_outline]
  exact Block.outline_foldl _ (fun x i => x.modObject_outline i _) _ b

@[simp] theorem Block.fix_outline (t : TaskRef) (status detail : Nat) : (b.fix t status detail).outline = b.outline := by
  simp only [Block.fix]
  split
  · split
    · split <;> simp
    · rfl
  · rfl

/-! ### A task's inputs (R33) -/

@[simp] theorem Block.settle_outline (t : TaskRef) : (b.settle t).outline = b.outline := by
  simp only [Block.settle]
  (repeat' split) <;> simp

@[simp] theorem Block.settle_memory (t : TaskRef) : (b.settle t).memory = b.memory := by
  simp only [Block.settle]
  (repeat' split) <;> simp

@[simp] theorem Block.settleAll_outline (l : List TaskRef) : (b.settleAll l).outline = b.outline := by
  induction l generalizing b with
  | nil => rfl
  | cons t ts ih => rw [Block.settleAll, ih, Block.settle_outline]

@[simp] theorem Block.settleAll_memory (l : List TaskRef) : (b.settleAll l).memory = b.memory := by
  induction l generalizing b with
  | nil => rfl
  | cons t ts ih => rw [Block.settleAll, ih, Block.settle_memory]

/-! ### Packets -/

@[simp] theorem Block.linkSend_outline (x : Nat) (p : Packet) : (b.linkSend h x p).outline = b.outline := by
  simp only [Block.linkSend]
  split <;> simp

@[simp] theorem Block.sendBy_outline (x : Nat) (p : Packet) : (b.sendBy h x p).outline = b.outline := by
  rw [Block.sendBy]
  split <;> simp

@[simp] theorem Block.routeOut_outline (p : Packet) : (b.routeOut h p).outline = b.outline := by
  simp only [Block.routeOut]
  split
  · exact b.modHalf_outline h _ (fun _ => rfl) (fun _ => rfl)
  · split <;> simp

@[simp] theorem Block.send_outline (dest job cls op tag w2 block : Nat) (payload : List Byte) :
    (b.send h dest job cls op tag w2 block payload).outline = b.outline := by
  simp only [Block.send, Block.routeOut_outline, Block.makePacket]
  exact b.modHalf_outline h _ (fun _ => rfl) (fun _ => rfl)

@[simp] theorem Block.unbuffer_outline (p : Packet) : (b.unbuffer h p).outline = b.outline := by
  simp only [Block.unbuffer]
  split
  · rfl
  · simp only [Block.control, Block.emit_outline]
    exact b.modHalf_outline h _ (fun _ => rfl) (fun _ => rfl)

@[simp] theorem Block.takeSeq_outline (p : Packet) : (b.takeSeq h p).outline = b.outline := by
  simp only [Block.takeSeq]
  split
  · exact b.modHalf_outline h _ (fun _ => rfl) (fun _ => rfl)
  · split
    · rw [Block.count_outline]
      exact b.modHalf_outline h _ (fun _ => rfl) (fun _ => rfl)
    · rw [Block.log_outline]
      refine (Block.modHalf_outline _ h _ ?_ ?_).trans ((Block.count_outline _ _ _ _ _).trans (b.modHalf_outline h _ ?_ ?_))
      all_goals exact fun _ => rfl

/-! ### Completion queues and reports (R29, R406-R408) -/

@[simp] theorem Block.raise_outline (vec : Nat) : (b.raise vec).outline = b.outline := by
  rw [Block.raise]
  split <;> simp

@[simp] theorem Block.signalQueue_outline (q : Nat) : (b.signalQueue q).outline = b.outline := by
  rw [Block.signalQueue, Block.raise_outline, Block.modPair_outline]

@[simp] theorem Block.coalesce_outline (q : Nat) : (b.coalesce q).outline = b.outline := by
  simp only [Block.coalesce]
  split <;> simp

theorem Block.signalQueue_mem (q : Nat) : (b.signalQueue q).mem = b.mem := by
  simp [Block.signalQueue]

theorem Block.coalesce_mem (q : Nat) : (b.coalesce q).mem = b.mem := by
  simp only [Block.coalesce]
  split <;> simp [Block.signalQueue_mem]

/-- A completion queue takes an entry while it is enabled and has room. -/
theorem Block.cqPush_isSome {q : Nat} (he : (b.pair q).enabled = true) (hroom : (b.pair q).cqHeld < 2 ^ (b.pair q).cqLog2)
    (entry : Bool → List Byte) (atOnce : Bool) : (b.cqPush q entry atOnce).isSome = true := by
  have hcond : ¬ ((b.pair q).enabled ≠ true ∨ 2 ^ (b.pair q).cqLog2 ≤ (b.pair q).cqHeld) := by
    simp only [he, ne_eq, not_true, false_or]
    omega
  simp only [Block.cqPush]
  rw [if_neg hcond]
  rfl

theorem Block.cqPush_keeps {x : Block} {q : Nat} {entry : Bool → List Byte} {atOnce : Bool} (hx : b.cqPush q entry atOnce = some x) :
    x.mem = b.mem ∧ x.outline = b.outline := by
  simp only [Block.cqPush] at hx
  split at hx
  · cases hx
  · rw [Option.some.injEq] at hx
    rw [← hx]
    split <;> simp [Block.signalQueue_mem, Block.coalesce_mem]

@[simp] theorem Block.endLaunch_outline (t : TaskRef) (status detail : Nat) : (b.endLaunch t status detail).outline = b.outline := by
  simp only [Block.endLaunch]
  split
  · rfl
  · split
    · rw [Block.modSlot_outline]
      exact Block.outline_ite _ (by simp [Block.logAborted]) (by simp)
    · simp

theorem Block.endLaunch_mem (t : TaskRef) (status detail : Nat) : (b.endLaunch t status detail).mem = b.mem := by
  simp only [Block.endLaunch]
  split
  · rfl
  · split
    · rw [Block.modSlot_mem]
      split
      · rw [Block.logAborted, Block.log_mem, Block.mem_eq_of_memory (Block.fix_memory _ _ _ _)]
      · rw [Block.mem_eq_of_memory (Block.fix_memory _ _ _ _)]
    · rw [Block.mem_eq_of_memory (Block.fix_memory _ _ _ _)]

theorem Block.send_mem (dest job cls op tag w2 block : Nat) (payload : List Byte) :
    (b.send h dest job cls op tag w2 block payload).mem = b.mem :=
  Block.mem_eq_of_lasting (Block.send_lasting b h dest job cls op tag w2 block payload)

/-- Telling a source of its graph changes no memory, no waiting graph and no live graph's outline. -/
theorem Block.report_keeps {x : Block} {w : WaitingGraph} {status gid badTask badOffset : Nat}
    (hx : b.report h w status gid badTask badOffset = some x) : x.mem = b.mem ∧ x.outline = b.outline := by
  simp only [Block.report] at hx
  split at hx
  · split at hx
    · exact b.cqPush_keeps hx
    · cases hx
      exact ⟨rfl, rfl⟩
  · cases hx
    exact ⟨b.send_mem h _ _ _ _ _ _ _ _, b.send_outline h _ _ _ _ _ _ _ _⟩
  · split at hx
    · cases hx
      exact ⟨rfl, rfl⟩
    · split at hx
      · cases hx
        exact ⟨Block.mem_eq_of_memory (b.modTask_memory _ _), b.modTask_outline _ _⟩
      · cases hx
        exact ⟨b.endLaunch_mem _ _ _, b.endLaunch_outline _ _ _⟩
end

/-! ### Admission (R26-R29, R38) -/

section
variable (b : Block) (h : HalfId)

@[simp] theorem Block.syncStep_outline (k : Nat) : (b.syncStep h k).outline = b.outline := by
  simp only [Block.syncStep]
  (repeat' split) <;> simp

@[simp] theorem Block.syncStep_memory (k : Nat) : (b.syncStep h k).memory = b.memory := by
  simp only [Block.syncStep]
  (repeat' split) <;> simp

theorem Block.openStep_outline (k step : Nat) : (b.openStep h k step).outline = b.outline := by
  rw [Block.openStep]
  split
  · rfl
  · rw [Block.syncStep_outline]
    exact b.modHalf_outline h _ (fun _ => rfl) (fun _ => rfl)

theorem Block.openStep_memory (k step : Nat) : (b.openStep h k step).memory = b.memory := by
  rw [Block.openStep]
  split
  · rfl
  · rw [Block.syncStep_memory, Block.modHalf_memory]

theorem Block.stepAdmit_outline (w : WaitingGraph) : (b.stepAdmit h w).outline = b.outline := by
  simp only [Block.stepAdmit]
  split
  · rw [← b.openStep_outline h w.graph.slot w.graph.step]
    exact Block.modHalf_outline _ h _ (fun _ => rfl) (fun _ => rfl)
  · exact b.openStep_outline h _ _

theorem Block.stepAdmit_memory (w : WaitingGraph) : (b.stepAdmit h w).memory = b.memory := by
  simp only [Block.stepAdmit]
  split
  · rw [Block.modHalf_memory, Block.openStep_memory]
  · exact b.openStep_memory h _ _

theorem Block.admitTo_memory (gid : Nat) (g : Graph) : (b.admitTo h gid g).memory = b.memory := by
  rw [Block.admitTo, Block.settleAll_memory, Block.modHalf_memory]

theorem Block.admitTo_waiting (gid : Nat) (g : Graph) : ((b.admitTo h gid g).half h).waiting = (b.half h).waiting := by
  rw [Block.admitTo, Block.waiting_eq_of_outline (Block.settleAll_outline _ _), Block.half_modHalf_same]

theorem Block.admitTo_graph (gid : Nat) (g : Graph) : ((b.admitTo h gid g).graph h gid).map Graph.outline = some g.outline := by
  rw [Block.admitTo, Block.graph_outline_of_outline (Block.settleAll_outline _ _), Block.graph, Block.half_modHalf_same,
    tabFind_tabPut_same]
  rfl

/-- The graphs that wait when one has been taken out. -/
theorem Block.dequeue_waiting (w : WaitingGraph) (k : HalfId) :
    ((b.dequeue h w).half k).waiting = if k = h then (b.half h).waiting.filter (fun v => v.seq ≠ w.seq) else (b.half k).waiting := by
  by_cases hk : k = h
  · subst hk
    rw [if_pos rfl, Block.dequeue, Block.half_modHalf_same]
  · rw [if_neg hk, Block.dequeue, Block.half_modHalf_other _ _ _ _ hk]

theorem Block.dequeue_graph (w : WaitingGraph) (k : HalfId) (i : Nat) : (b.dequeue h w).graph k i = b.graph k i := by
  by_cases hk : k = h
  · subst hk
    rw [Block.graph, Block.dequeue, Block.half_modHalf_same, Block.graph]
  · rw [Block.graph, Block.dequeue, Block.half_modHalf_other _ _ _ _ hk, Block.graph]

theorem Block.dequeue_memory (w : WaitingGraph) : (b.dequeue h w).memory = b.memory := b.modHalf_memory h _
end

/-- What the check of the graphs at the front changes: no memory and no live graph's outline, and no graph comes to wait. -/
structure Checked (b c : Block) : Prop where
  mem : c.mem = b.mem
  graph : ∀ h i, (c.graph h i).map Graph.outline = (b.graph h i).map Graph.outline
  waiting : ∀ h, ∀ v ∈ (c.half h).waiting, ∃ u ∈ (b.half h).waiting, u.seq = v.seq

theorem Checked.refl (b : Block) : Checked b b := ⟨rfl, fun _ _ => rfl, fun _ v hv => ⟨v, hv, rfl⟩⟩

theorem Checked.trans {b c d : Block} (h : Checked b c) (g : Checked c d) : Checked b d := by
  refine ⟨g.mem.trans h.mem, fun k i => (g.graph k i).trans (h.graph k i), fun k v hv => ?_⟩
  obtain ⟨u, hu, huv⟩ := g.waiting k v hv
  obtain ⟨x, hx, hxu⟩ := h.waiting k u hu
  exact ⟨x, hx, hxu.trans huv⟩

theorem Checked.of_outline {b c : Block} (hm : c.mem = b.mem) (ho : c.outline = b.outline) : Checked b c :=
  ⟨hm, Block.graph_outline_of_outline ho, fun k v hv => ⟨v, Block.waiting_eq_of_outline ho k ▸ hv, rfl⟩⟩

theorem Block.dequeue_checked (b : Block) (h : HalfId) (w : WaitingGraph) : Checked b (b.dequeue h w) := by
  refine ⟨Block.mem_eq_of_memory (b.dequeue_memory h w), fun k i => by rw [Block.dequeue_graph], fun k v hv => ?_⟩
  rw [Block.dequeue_waiting] at hv
  split at hv
  · next hk => exact ⟨v, hk ▸ (List.mem_filter.mp hv).1, rfl⟩
  · exact ⟨v, hv, rfl⟩

theorem Block.checkSource_checked (b : Block) (h : HalfId) (src : SourceId) (n : Nat) : Checked b (b.checkSource h src n) := by
  induction n generalizing b with
  | zero => exact .refl b
  | succ n ih =>
    rw [Block.checkSource]
    split
    · exact .refl b
    · next w _ =>
      split
      · exact .refl b
      · split
        · refine ⟨Block.modHalf_mem _ _ _, fun k i => ?_, fun k v hv => ?_⟩
          · by_cases hk : k = h
            · subst hk
              rw [Block.graph, Block.half_modHalf_same, Block.graph]
            · rw [Block.graph, Block.half_modHalf_other _ _ _ _ hk, Block.graph]
          · by_cases hk : k = h
            · subst hk
              rw [Block.half_modHalf_same] at hv
              obtain ⟨u, hu, rfl⟩ := List.mem_map.mp hv
              exact ⟨u, hu, by split <;> rfl⟩
            · rw [Block.half_modHalf_other _ _ _ _ hk] at hv
              exact ⟨v, hv, rfl⟩
        · split
          · next x hx =>
            obtain ⟨hmem, houtline⟩ := Block.report_keeps _ _ hx
            exact ((b.dequeue_checked h w).trans (.of_outline hmem houtline)).trans (ih x)
          · exact .refl b

/-- The front graph of a source that has passed its checks needs none. -/
theorem Block.checkHead_eq {b : Block} {h : HalfId} {src : SourceId} {w : WaitingGraph}
    (hfind : (b.half h).waiting.find? (fun w => w.source = src) = some w) (hw : w.checked = true) : b.checkHead h src = b := by
  simp only [Block.checkHead, Block.checkSource, hfind, hw, if_true]

section
variable {b : Block} {h : HalfId} {w : WaitingGraph} {gid : Nat}

/-- What an admission leaves, but for what its source is told: the graph is live, and it waits no longer. -/
theorem Block.admitted_keeps :
    let b1 := ((b.dequeue h w).stepAdmit h w).admitTo h gid w.graph
    b1.memory = b.memory ∧ (b1.graph h gid).map Graph.outline = some w.graph.outline ∧ ∀ v ∈ (b1.half h).waiting, v.seq ≠ w.seq := by
  refine ⟨?_, Block.admitTo_graph _ _ _ _, fun v hv => ?_⟩
  · rw [Block.admitTo_memory, Block.stepAdmit_memory, Block.dequeue_memory]
  · rw [Block.admitTo_waiting, Block.waiting_eq_of_outline (Block.stepAdmit_outline _ _ _), Block.dequeue_waiting, if_pos rfl] at hv
    simpa using (List.mem_filter.mp hv).2

/-- The source of an admitted graph can be told: a queue that is enabled has room (R406). -/
theorem Block.report_isSome {x : Block} (hx : x.memory = b.memory)
    (hroom : ∀ q, w.source = .queue q → (b.pair q).enabled = true → (b.pair q).cqHeld < 2 ^ (b.pair q).cqLog2) (status badTask badOffset : Nat) :
    (x.report h w status gid badTask badOffset).isSome = true := by
  simp only [Block.report]
  split
  · next q hq =>
    have hpair : x.pair q = b.pair q := Block.pair_eq_of_memory hx q
    split
    · next he => exact x.cqPush_isSome he (hpair ▸ hroom q hq (hpair ▸ he)) _ _
    · rfl
  · rfl
  · split
    · rfl
    · split <;> rfl

theorem Block.admitHead_keeps (hbind : b.bindingFault w.graph.job w.graph.job = none) (hfree : b.graph h gid = none)
    (hspace : b.contextsUsed h + w.graph.tasks.length ≤ 524288) (hstep : b.stepAdmits h w = true)
    (hroom : ∀ q, w.source = .queue q → (b.pair q).enabled = true → (b.pair q).cqHeld < 2 ^ (b.pair q).cqLog2) :
    (b.admitHead h w gid).mem = b.mem ∧ ((b.admitHead h w gid).graph h gid).map Graph.outline = some w.graph.outline ∧
      ∀ v ∈ ((b.admitHead h w gid).half h).waiting, v.seq ≠ w.seq := by
  obtain ⟨hmemory, hgraph, hwaiting⟩ := Block.admitted_keeps (b := b) (h := h) (w := w) (gid := gid)
  have hcond : ¬ ((b.graph h gid).isSome = true ∨ 524288 < b.contextsUsed h + w.graph.tasks.length ∨ ¬ b.stepAdmits h w = true) := by
    simp only [hfree, hstep, Option.isSome_none, Bool.false_eq_true, not_true, or_false, false_or]
    omega
  simp only [Block.admitHead, hbind]
  rw [if_neg hcond]
  split
  · exact ⟨Block.mem_eq_of_memory hmemory, hgraph, hwaiting⟩
  · obtain ⟨x, hx⟩ := Option.isSome_iff_exists.mp (Block.report_isSome hmemory hroom (h := h) (gid := gid) stOk 0 0)
    obtain ⟨hmem, houtline⟩ := Block.report_keeps _ _ hx
    rw [hx]
    refine ⟨hmem.trans (Block.mem_eq_of_memory hmemory), (Block.graph_outline_of_outline houtline h gid).trans hgraph, fun v hv => ?_⟩
    exact hwaiting v (Block.waiting_eq_of_outline houtline h ▸ hv)
end

theorem graphAdmit_admits {s : State} {h : HalfId} {src : SourceId} {gid : Fin 4096} {w : WaitingGraph}
    (hfind : (s.block.half h).waiting.find? (fun w => w.source = src) = some w) (hchecked : w.checked = true)
    (hbind : s.block.bindingFault w.graph.job w.graph.job = none) (hfree : s.block.graph h gid.val = none)
    (hspace : s.block.contextsUsed h + w.graph.tasks.length ≤ 524288) (hstep : s.block.stepAdmits h w = true)
    (hroom : ∀ q, src = .queue q → (s.block.pair q).enabled = true → (s.block.pair q).cqHeld < 2 ^ (s.block.pair q).cqLog2) :
    ∃ t g, exec (.graphAdmit h src gid) s = .next t ∧ t.pending = s.pending ∧ t.block.graph h gid.val = some g ∧ g.job = w.graph.job ∧
      g.tasks.length = w.graph.tasks.length ∧ (∀ v ∈ (t.block.half h).waiting, v.seq ≠ w.seq) ∧ t.block.mem = s.block.mem := by
  have hsrc : w.source = src := by simpa using List.find?_some hfind
  subst hsrc
  obtain ⟨hmem, hgraph, hwaiting⟩ := Block.admitHead_keeps hbind hfree hspace hstep hroom
  have hcheck := (s.block.admitHead h w gid.val).checkSource_checked h w.source (((s.block.admitHead h w gid.val).half h).waiting.length + 1)
  obtain ⟨g, hg, houtline⟩ := Option.map_eq_some_iff.mp ((hcheck.graph h gid.val).trans hgraph)
  simp only [Graph.outline, Prod.mk.injEq] at houtline
  obtain ⟨hjob, -, hlength⟩ := houtline
  refine ⟨{ s with block := (s.block.admitHead h w gid.val).checkHead h w.source }, g, ?_, rfl, hg, hjob, hlength, fun v hv => ?_,
    hcheck.mem.trans hmem⟩
  · refine next_of_act (show exec (.graphAdmit h w.source gid) s = execGraphAdmit h w.source gid s from rfl) ?_
    simp only [Block.checkHead_eq hfind hchecked, hfind, hchecked, if_true]
  · obtain ⟨u, hu, huv⟩ := hcheck.waiting h v hv
    exact huv ▸ hwaiting u hu

/-! ### Tokens (R33-R36) -/

section
variable {b : Block} {t : TaskRef} {c : TaskCtx}

theorem Block.graph_isSome_of_task (h : b.task t = some c) : ∃ g, b.graph t.half t.graph = some g := by
  cases hg : b.graph t.half t.graph with
  | none => simp [Block.task, hg] at h
  | some g => exact ⟨g, rfl⟩

theorem Block.modTask_task (h : b.task t = some c) (f : TaskCtx → TaskCtx) : (b.modTask t f).task t = some (f c) := by
  rw [Block.task_modTask, if_pos rfl, h, Option.map_some]

theorem Block.modTask_tide (b : Block) (t : TaskRef) (f : TaskCtx → TaskCtx) (h : HalfId) : (b.modTask t f).tide h = b.tide h := by
  rw [Block.modTask, Block.modGraph]
  split
  · rfl
  · by_cases hk : h = t.half
    · subst hk
      rw [Block.tide, Block.half_modHalf_same, Block.tide]
    · rw [Block.tide, Block.half_modHalf_other _ _ _ _ hk, Block.tide]

theorem Block.modTask_graph_keeps (b : Block) (t : TaskRef) (f : TaskCtx → TaskCtx) {g : Graph} {h : HalfId} {i : Nat} (hg : b.graph h i = some g) :
    ∃ g', (b.modTask t f).graph h i = some g' ∧ g'.slot = g.slot ∧ g'.step = g.step ∧ g'.job = g.job := by
  rw [Block.modTask, Block.graph_modGraph]
  split
  · next hkj =>
    rw [← hkj.1, ← hkj.2, hg]
    exact ⟨_, rfl, rfl, rfl, rfl⟩
  · exact ⟨g, hg, rfl, rfl, rfl⟩

theorem Block.modTask_slots (b : Block) (t : TaskRef) (f : TaskCtx → TaskCtx) : (b.modTask t f).slots = b.slots := by
  rw [Block.modTask, Block.modGraph]
  split
  · rfl
  · simp

/-- A waiting task whose inputs are there and in which a cancellation counts is cancelled. -/
theorem Block.settle_cancelled (h : b.task t = some c) (hphase : c.phase = .waiting) (hin : c.desc.inTokens ≤ c.received)
    (hcancel : 0 < c.cancels) (hexempt : c.desc.cancelExempt = false) :
    (b.settle t).task t = some { c with phase := .ended, status := stCancelled, detail := c.origin.getD 0 % 2 ^ 32, endTide := b.tide t.half } := by
  obtain ⟨g, hg⟩ := Block.graph_isSome_of_task h
  simp only [Block.settle, hg, h, hphase, hin, hcancel, hexempt, Bool.false_eq_true, not_false_eq_true, and_self, if_true]
  exact Block.fix_task h (.inl hphase) _ _

/-- A waiting task whose inputs are there, without a cancellation, whose time has come and whose gate is open is ready. -/
theorem Block.settle_ready {g : Graph} (hg : b.graph t.half t.graph = some g) (h : b.task t = some c) (hphase : c.phase = .waiting)
    (hin : c.desc.inTokens ≤ c.received) (hcancel : c.cancels = 0) (htime : c.desc.fnbValid = false ∨ c.desc.fnbTide ≤ b.tide t.half)
    (hgate : c.desc.gated = false ∨ (b.verdictOf t.half g.slot g.step).isSome = true) (hslot : (b.slot g.slot).st = 1) :
    (b.settle t).task t = some { c with phase := .ready, readyTide := b.tide t.half } := by
  have hopen : (¬ c.desc.fnbValid = true ∨ c.desc.fnbTide ≤ b.tide t.half) ∧
      (¬ c.desc.gated = true ∨ (b.verdictOf t.half g.slot g.step).isSome = true) ∧ (b.slot g.slot).st = 1 :=
    ⟨htime.imp (fun e => by simp [e]) id, hgate.imp (fun e => by simp [e]) id, hslot⟩
  simp only [Block.settle, hg, h]
  rw [if_pos ⟨hphase, hin⟩, if_neg (by simp [hcancel]), if_pos hopen]
  exact Block.modTask_task h _

/-- Settling a task changes its phase and what belongs to its end or its readiness. -/
theorem Block.settle_task (h : b.task t = some c) :
    ∃ d, (b.settle t).task t = some d ∧ d.received = c.received ∧ d.cancels = c.cancels := by
  obtain ⟨g, hg⟩ := Block.graph_isSome_of_task h
  simp only [Block.settle, hg, h]
  split
  · next hwait =>
    split
    · exact ⟨_, Block.fix_task h (.inl hwait.1) _ _, rfl, rfl⟩
    · split
      · exact ⟨_, Block.modTask_task h _, rfl, rfl⟩
      · exact ⟨c, h, rfl, rfl⟩
  · exact ⟨c, h, rfl, rfl⟩
end

/-- A context when a token or a cancellation has come. -/
def TaskCtx.counted (c : TaskCtx) (cancel : Option Nat) : TaskCtx :=
  { c with received := c.received + 1, cancels := c.cancels + b2n cancel.isSome,
           origin := match cancel, c.origin with
             | some o, some p => some (min o p)
             | some o, none => some o
             | none, p => p }

/-- The block when a token's message has been taken. -/
def Block.tokenTaken (b : Block) (t : TaskRef) (cancel : Option Nat) : Block :=
  b.modHalf t.half (fun x => { x with tokens := takeToken x.tokens { graph := t.graph, task := t.task, cancel := cancel } })

section
variable {b : Block} {t : TaskRef} {c : TaskCtx} {cancel : Option Nat}

@[simp] theorem Block.tokenTaken_tables (b : Block) (t : TaskRef) (cancel : Option Nat) : (b.tokenTaken t cancel).tables = b.tables :=
  b.modHalf_tables t.half _ (fun _ => rfl) (fun _ => rfl)

@[simp] theorem Block.tokenTaken_memory (b : Block) (t : TaskRef) (cancel : Option Nat) : (b.tokenTaken t cancel).memory = b.memory :=
  b.modHalf_memory _ _

theorem Block.tokenTaken_tide (b : Block) (t : TaskRef) (cancel : Option Nat) : (b.tokenTaken t cancel).tide t.half = b.tide t.half := by
  rw [Block.tokenTaken, Block.tide, Block.half_modHalf_same, Block.tide]

theorem Block.deliver_eq (h : b.task t = some c) : b.deliver t cancel =
    if c.desc.inTokens ≤ c.received then (b.tokenTaken t cancel).count (safReg t.half 0x18) 63 0 1
    else ((b.tokenTaken t cancel).modTask t (fun c => c.counted cancel)).settle t := by
  have htask : (b.tokenTaken t cancel).task t = some c := by rw [Block.task_eq_of_tables (Block.tokenTaken_tables _ _ _), h]
  simp only [Block.tokenTaken] at htask
  simp only [Block.deliver, htask]
  rfl

theorem exec_token {s : State} {k : TaskRef} {i : Instr}
    (hi : i = (match cancel with
      | none => .token k
      | some o => .cancellation k o)) : exec i s = .next { s with block := s.block.deliver k cancel } := by
  cases cancel with
  | none => rw [hi]; rfl
  | some o => rw [hi]; rfl

/-- A token that is due is counted, and may complete its task's inputs. -/
theorem deliver_counts (h : b.task t = some c) (hdue : c.received < c.desc.inTokens) :
    ∃ d, (b.deliver t cancel).task t = some d ∧ d.received = c.received + 1 ∧ d.cancels = c.cancels + b2n cancel.isSome ∧
      (b.deliver t cancel).mem = b.mem ∧
      (c.phase = .waiting → c.received + 1 = c.desc.inTokens → 0 < d.cancels → c.desc.cancelExempt = false →
        d.phase = .ended ∧ d.status = stCancelled) ∧
      (∀ g, b.graph t.half t.graph = some g → c.phase = .waiting → c.received + 1 = c.desc.inTokens → d.cancels = 0 →
        c.desc.fnbValid = false → c.desc.gated = false → (b.slot g.slot).st = 1 → d.phase = .ready ∧ d.readyTide = b.tide t.half) := by
  have htask : ((b.tokenTaken t cancel).modTask t (fun c => c.counted cancel)).task t = some (c.counted cancel) :=
    Block.modTask_task (by rw [Block.task_eq_of_tables (Block.tokenTaken_tables _ _ _), h]) _
  have hdeliver : b.deliver t cancel = ((b.tokenTaken t cancel).modTask t (fun c => c.counted cancel)).settle t := by
    rw [Block.deliver_eq h, if_neg (by omega)]
  obtain ⟨d, hd, hreceived, hcancels⟩ := Block.settle_task htask
  rw [hdeliver]
  refine ⟨d, hd, hreceived, hcancels, Block.mem_eq_of_memory ?_, fun hphase hfull hcancel hexempt => ?_,
    fun g hg hphase hfull hcancel hfnb hgated hslot => ?_⟩
  · rw [Block.settle_memory, Block.modTask_memory, Block.tokenTaken_memory]
  · have hend := Block.settle_cancelled htask hphase (by simp only [TaskCtx.counted]; omega) (hcancels ▸ hcancel) hexempt
    rw [hend, Option.some.injEq] at hd
    rw [← hd]
    exact ⟨rfl, rfl⟩
  · obtain ⟨g', hg', hgslot, -, -⟩ := Block.modTask_graph_keeps (b.tokenTaken t cancel) t (fun c => c.counted cancel)
      ((Block.graph_eq_of_tables (b.tokenTaken_tables t cancel) t.half t.graph).trans hg)
    have hslot' : (((b.tokenTaken t cancel).modTask t (fun c => c.counted cancel)).slot g'.slot).st = 1 := by
      rw [Block.slot, Block.modTask_slots, ← Block.slot, Block.slot_eq_of_tables (b.tokenTaken_tables t cancel), hgslot, hslot]
    have hready := Block.settle_ready hg' htask hphase (by simp only [TaskCtx.counted]; omega) (hcancels ▸ hcancel) (.inl hfnb) (.inl hgated) hslot'
    rw [hready, Option.some.injEq] at hd
    rw [← hd]
    exact ⟨rfl, by rw [Block.modTask_tide, Block.tokenTaken_tide]⟩

/-- A token too many changes nothing but the count of such (R36). -/
theorem deliver_surplus (h : b.task t = some c) (hfull : c.desc.inTokens ≤ c.received) :
    (b.deliver t cancel).task t = some c ∧
      ((b.deliver t cancel).reg (safReg t.half 0x18)).toNat = min ((b.reg (safReg t.half 0x18)).toNat + 1) (2 ^ 64 - 1) := by
  have hreg : (b.tokenTaken t cancel).reg (safReg t.half 0x18) = b.reg (safReg t.half 0x18) := Block.modHalf_reg _ _ _ _
  have hwhole (w : Word) : fld w 63 0 = w.toNat := by
    have := w.isLt
    simp only [fld, bits, Nat.shiftRight_zero]
    exact Nat.mod_eq_of_lt this
  rw [Block.deliver_eq h, if_pos hfull]
  refine ⟨?_, ?_⟩
  · rw [Block.task_eq_of_tables (Block.count_tables _ _ _ _ _), Block.task_eq_of_tables (Block.tokenTaken_tables _ _ _), h]
  · rw [Block.count, Block.reg_modReg_same, hreg, ← hwhole, fld_satAdd_same _ _ _ (by decide), hwhole]
end

/-! ### Ring heads and launches (R39, R48, R49) -/

/-- Every live graph of a later block was live before, with its ring's head. -/
def HeadsKept (b c : Block) : Prop := ∀ h i g', c.graph h i = some g' → ∃ g, b.graph h i = some g ∧ g'.head = g.head

theorem HeadsKept.refl (b : Block) : HeadsKept b b := fun _ _ g hg => ⟨g, hg, rfl⟩

theorem HeadsKept.trans {b c d : Block} (h : HeadsKept b c) (g : HeadsKept c d) : HeadsKept b d := by
  intro k i x hx
  obtain ⟨y, hy, hxy⟩ := g k i x hx
  obtain ⟨z, hz, hyz⟩ := h k i y hy
  exact ⟨z, hz, hxy.trans hyz⟩

theorem HeadsKept.of_outline {b c : Block} (e : c.outline = b.outline) : HeadsKept b c := by
  intro k i g' hg'
  have hmap := Block.graph_outline_of_outline e k i
  rw [hg', Option.map_some] at hmap
  obtain ⟨g, hg, hgg⟩ := Option.map_eq_some_iff.mp hmap.symm
  simp only [Graph.outline, Prod.mk.injEq] at hgg
  exact ⟨g, hg, hgg.2.1.symm⟩

section
variable (b : Block)

@[simp] theorem Block.storeCells_outline (cells : List Host.Cell) : (b.storeCells cells).outline = b.outline := by
  induction cells generalizing b with
  | nil => rfl
  | cons c cs ih => rw [Block.storeCells, ih]; rfl

theorem Block.modGraph_headsKept (h : HalfId) (i : Nat) {f : Graph → Graph} (hf : ∀ g, (f g).head = g.head) : HeadsKept b (b.modGraph h i f) := by
  intro k j g' hg'
  rw [Block.graph_modGraph] at hg'
  split at hg'
  · next hkj =>
    obtain ⟨g, hg, rfl⟩ := Option.map_eq_some_iff.mp hg'
    exact ⟨g, by rw [hkj.1, hkj.2, hg], hf g⟩
  · exact ⟨g', hg', rfl⟩

theorem Block.tryRecord_headsKept (t : TaskRef) {x : Block} (hx : b.tryRecord t = .written x) : HeadsKept b x := by
  simp only [Block.tryRecord] at hx
  split at hx
  · split at hx
    · split at hx
      · next y hy =>
        cases hx
        exact .of_outline (b.cqPush_keeps hy).2
      · cases hx
    · split at hx
      · cases hx
      · split at hx
        · cases hx
        · cases hx
        · cases hx
        · cases hx
          exact (HeadsKept.of_outline (b.storeCells_outline _)).trans (Block.modGraph_headsKept _ _ _ fun _ => rfl)
  · cases hx

/-- A graph whose tasks all have their records is live no longer; the task that launched it is told. -/
theorem Block.closeGraph_headsKept (h : HalfId) (gid : Nat) : HeadsKept b (b.closeGraph h gid) := by
  have hdel : HeadsKept b (b.modHalf h (fun x =>
      { x with graphs := tabDel x.graphs gid, tokens := x.tokens.filter (fun m => m.graph ≠ gid), harbour := x.harbour.forget gid })) := by
    intro k i g hg
    by_cases hk : k = h
    · subst hk
      rw [Block.graph, Block.half_modHalf_same] at hg
      by_cases hi : i = gid
      · rw [hi, tabFind_tabDel_same] at hg
        cases hg
      · rw [tabFind_tabDel_other _ _ _ hi] at hg
        exact ⟨g, hg, rfl⟩
    · rw [Block.graph, Block.half_modHalf_other _ _ _ _ hk] at hg
      exact ⟨g, hg, rfl⟩
  simp only [Block.closeGraph]
  split
  · exact .refl b
  · split
    · split
      · exact hdel.trans (.of_outline (by rw [Block.tellLauncher, Block.modTask_outline]))
      · exact hdel
    · exact .refl b

theorem Block.afterRecord_headsKept (t : TaskRef) (c : TaskCtx) : HeadsKept b (b.afterRecord t c) := by
  refine HeadsKept.trans (.of_outline ?_) (Block.closeGraph_headsKept _ _ _)
  rw [← b.modTask_outline t (fun c => { c with phase := .recorded })]
  exact Block.modHalf_outline _ t.half _ (fun _ => rfl) (fun _ => rfl)

theorem Block.retryRecord_headsKept (t : TaskRef) : HeadsKept b (b.retryRecord t) := by
  simp only [Block.retryRecord]
  split
  · exact .refl b
  · split
    · split
      · next x hx =>
        exact ((b.tryRecord_headsKept t hx).trans (.of_outline (Block.modReg_outline _ _ _))).trans (Block.afterRecord_headsKept _ _ _)
      · exact .refl b
      · exact .refl b
    · exact .refl b

theorem Block.retryRecords_headsKept (l : List TaskRef) : HeadsKept b (b.retryRecords l) := by
  induction l generalizing b with
  | nil => exact .refl b
  | cons t ts ih => exact (b.retryRecord_headsKept t).trans (ih _)

/-- Where no record waits, none is written. -/
theorem Block.retryRecords_eq_self {l : List TaskRef} (h : ∀ t ∈ l, ∀ c, b.task t = some c → c.phase ≠ .recordWait) : b.retryRecords l = b := by
  induction l with
  | nil => rfl
  | cons t ts ih =>
    have hone : b.retryRecord t = b := by
      simp only [Block.retryRecord]
      split
      · rfl
      · next c hc => rw [if_neg (h t List.mem_cons_self c hc)]
    rw [Block.retryRecords, hone, ih fun u hu => h u (List.mem_cons_of_mem t hu)]
end

/-- A write of a graph's ring head (R48). -/
theorem writeGraphHead_keeps {b : Block} {h : HalfId} {gid v hd n : Nat} {g : Graph} (hg : b.graph h gid = some g) (hq : g.queue = none)
    (hw : headWrite (2 ^ g.ringLog2) g.head g.held (v % 2 ^ 20) = some (hd, n)) :
    (∀ g', (b.writeGraphHead h gid v).graph h gid = some g' → g'.head = v % 2 ^ 20) ∧
      ((∀ c ∈ g.tasks, c.phase ≠ .recordWait) →
        (b.writeGraphHead h gid v).graph h gid = some { g with head := hd, held := n } ∧ (b.writeGraphHead h gid v).mem = b.mem) := by
  have hhead : hd = v % 2 ^ 20 := by
    simp only [headWrite] at hw
    split at hw
    · cases hw
    · split at hw
      · cases hw
      · rw [Option.some.injEq, Prod.mk.injEq] at hw
        exact hw.1.symm
  have hmod : (b.modGraph h gid (fun g => { g with head := hd, held := n })).graph h gid = some { g with head := hd, held := n } := by
    rw [Block.graph_modGraph, if_pos ⟨rfl, rfl⟩, hg, Option.map_some]
  have hring : ¬ g.queue.isSome = true := by simp [hq]
  simp only [Block.writeGraphHead, hg, hw]
  rw [if_neg hring]
  refine ⟨fun g' hg' => ?_, fun hnone => ?_⟩
  · obtain ⟨x, hx, hgx⟩ := Block.retryRecords_headsKept _ _ h gid g' hg'
    rw [hmod, Option.some.injEq] at hx
    rw [hgx, ← hx, ← hhead]
  · rw [Block.retryRecords_eq_self _ ?_]
    · exact ⟨hmod, Block.mem_eq_of_memory (Block.modGraph_memory _ _ _ _)⟩
    · intro t ht c hc
      simp only [Block.waitingRecords, Block.tasksOf, List.mem_map, List.mem_filter, List.mem_filterMap, List.mem_flatten,
        decide_eq_true_eq] at ht
      obtain ⟨p, ⟨⟨q, ⟨l, ⟨e, -, rfl⟩, hq'⟩, hpq⟩, hgraph⟩, rfl⟩ := ht
      obtain ⟨z, -, rfl⟩ := List.mem_map.mp hq'
      split at hpq
      · rw [Option.some.injEq] at hpq
        subst hpq
        simp only at hgraph hc
        subst hgraph
        simp only [Block.task, hmod] at hc
        exact hnone c (List.mem_of_getElem? hc)
      · cases hpq

/-- A change of a context that the context itself tells. -/
theorem Block.modTask_congr {b : Block} {t : TaskRef} {c : TaskCtx} (h : b.task t = some c) {f f' : TaskCtx → TaskCtx} (hf : f c = f' c) :
    b.modTask t f = b.modTask t f' := by
  obtain ⟨g, hg⟩ := Block.graph_isSome_of_task h
  have htask : g.tasks[t.task]? = some c := by simpa only [Block.task, hg] using h
  have hlist : listMod g.tasks t.task f = listMod g.tasks t.task f' := by
    refine List.ext_getElem? fun j => ?_
    rw [getElem?_listMod, getElem?_listMod]
    split
    · next hj => rw [hj, htask, Option.map_some, Option.map_some, hf]
    · rfl
  simp only [Block.modTask, Block.modGraph, hg, hlist]

/-- A submission that passes its checks, from a source of which none waits. -/
theorem Block.submit_eq {b : Block} {h : HalfId} {member va : Nat} {src : SourceId} {depth : Nat} {launcher : Option TaskRef} {n : Graph}
    (hnone : ∀ v ∈ (b.half h).waiting, v.source ≠ src) (hcheck : b.checkGraph h member va src depth launcher = .ok n) (tag sqIndex : Nat) :
    ∃ w, b.submit h member va src depth launcher tag sqIndex = some (b.enqueue h w) ∧ w.graph = n ∧ w.source = src ∧ w.tag = tag ∧
      w.checked = true ∧ w.seq = (b.half h).submitted := by
  have hany : (b.half h).waiting.any (fun v => v.source = src) = false := by simpa using hnone
  refine ⟨{ source := src, graph := n, tag := tag, sqIndex := sqIndex, seq := (b.half h).submitted, again := false, checked := true }, ?_,
    rfl, rfl, rfl, rfl, rfl⟩
  simp only [Block.submit, hany, hcheck, Bool.false_eq_true, if_false]

theorem Block.enqueue_waiting (b : Block) (h : HalfId) (w : WaitingGraph) :
    ((b.enqueue h w).half h).waiting = (b.half h).waiting ++ [w] := by
  rw [Block.enqueue, Block.half_modHalf_same]

theorem Block.modTask_submitted (b : Block) (t : TaskRef) (f : TaskCtx → TaskCtx) (h : HalfId) :
    ((b.modTask t f).half h).submitted = (b.half h).submitted := by
  rw [Block.modTask, Block.modGraph]
  split
  · rfl
  · by_cases hk : h = t.half
    · subst hk
      rw [Block.half_modHalf_same]
    · rw [Block.half_modHalf_other _ _ _ _ hk]

/-- A packet that its half takes goes to its handler. -/
theorem Admits.receive {b : Block} {h : HalfId} {p : Packet} {cls : Nat} {ops : List Nat} (ha : Admits b h p cls ops) (f : Block → Block) :
    b.receive h p cls ops f = f ((b.unbuffer h p).takeSeq h p) := by
  obtain ⟨hdest, hcls, hop, hform, hroster, hcrc⟩ := ha
  have hunbuffer : ((b.unbuffer h p).half h).efing.census = (b.half h).efing.census ∧ (b.unbuffer h p).domain = b.domain := by
    simp only [Block.unbuffer]
    split
    · exact ⟨rfl, rfl⟩
    · simp [Block.control]
  have hmember : ¬ (cls < 4 ∧ ¬ (((b.unbuffer h p).half h).efing.census = 2 ∧ (b.unbuffer h p).domain.roster.contains (pkSrc p / 8) = true)) := by
    rw [hunbuffer.1, hunbuffer.2]
    rintro ⟨hlow, hnot⟩
    obtain ⟨hcensus, hmem⟩ := hroster hlow
    exact hnot ⟨hcensus, by simpa using hmem⟩
  have hfor : ¬ (pkDest p ≠ b.endpoint h ∨ pkClass p ≠ cls ∨ ¬ ops.contains (pkOp p) = true) := by
    simp [hdest, hcls, hop]
  simp only [Block.receive]
  rw [if_neg hfor, if_neg (by simp [hform]), if_neg hmember, if_neg (by simp [hcrc])]

/-- A graph submitted by a packet (R28, R29). -/
theorem graphSubmit_waits {s : State} {h : HalfId} {p : Packet} {g : Graph} (ha : Admits s.block h p 0 [0x20]) (hempty : p.payload = [])
    (hnone : NoneWaits s.block h (.efing (pkSrc p)))
    (hcheck : ((s.block.unbuffer h p).takeSeq h p).checkGraph h (pkJob p) p.w2.toNat (.efing (pkSrc p)) 1 none = .ok g) :
    ∃ t w, exec (.graphSubmit h p) s = .next t ∧ t.pending = s.pending ∧ (t.block.half h).waiting = (s.block.half h).waiting ++ [w] ∧
      w.graph = g ∧ w.source = .efing (pkSrc p) ∧ w.tag = pkTag p ∧ w.checked = true ∧ t.block.mem = s.block.mem := by
  have hwaiting : (((s.block.unbuffer h p).takeSeq h p).half h).waiting = (s.block.half h).waiting :=
    Block.waiting_eq_of_outline ((Block.takeSeq_outline _ h p).trans (Block.unbuffer_outline _ h p)) h
  have hmem : ((s.block.unbuffer h p).takeSeq h p).mem = s.block.mem :=
    Block.mem_eq_of_lasting ((Block.takeSeq_lasting _ h p).trans (Block.unbuffer_lasting _ h p))
  obtain ⟨w, hsubmit, hgraph, hsource, htag, hchecked, -⟩ := Block.submit_eq (hwaiting ▸ hnone) hcheck (pkTag p) 0
  refine ⟨{ s with block := ((s.block.unbuffer h p).takeSeq h p).enqueue h w }, w, ?_, rfl, ?_, hgraph, hsource, htag, hchecked,
    (Block.modHalf_mem _ h _).trans hmem⟩
  · refine next_of_act (show exec (.graphSubmit h p) s = execGraphSubmit h p s from rfl) ?_
    rw [ha.receive, if_neg (by simp [hempty]), hsubmit]
    rfl
  · rw [Block.enqueue_waiting, hwaiting]

/-- A sub-graph launched (R39). -/
theorem subGraphLaunch_waits {s : State} {k : TaskRef} {g n : Graph} {c d : TaskCtx} (h : Runs s.block k 0x0B g c) (hstage : c.stage = 0)
    (hnone : NoneWaits s.block k.half (.launch k)) (hd : d = { c with stage := 4, sent := (s.block.half k.half).submitted + 1 })
    (hcheck : (s.block.modTask k (fun _ => d)).checkGraph k.half g.job (c.desc.param 0).toNat (.launch k) (g.depth + 1) (some k) = .ok n) :
    ∃ t w, exec (.subGraphLaunch k) s = .next t ∧ t.pending = s.pending ∧
      (t.block.half k.half).waiting = (s.block.half k.half).waiting ++ [w] ∧ w.graph = n ∧ w.source = .launch k ∧ w.checked = true ∧
      w.seq = (s.block.half k.half).submitted ∧ t.block.task k = some d := by
  have htask := h.2.1
  have hwaiting := Block.waiting_eq_of_outline (s.block.modTask_outline k (fun _ => d)) k.half
  have hmod : s.block.modTask k (fun x => { x with stage := 4, sent := (s.block.half k.half).submitted + 1 }) = s.block.modTask k (fun _ => d) :=
    Block.modTask_congr htask hd.symm
  obtain ⟨w, hsubmit, hgraph, hsource, -, hchecked, hseq⟩ := Block.submit_eq (hwaiting ▸ hnone) hcheck 0 0
  refine ⟨{ s with block := (s.block.modTask k (fun _ => d)).enqueue k.half w }, w, ?_, rfl, ?_, hgraph, hsource, hchecked,
    hseq.trans (Block.modTask_submitted _ _ _ _), ?_⟩
  · refine next_of_act (show exec (.subGraphLaunch k) s = execSubGraphLaunch k s from rfl) ?_
    simp only [h.onRunning, hstage, ne_eq, not_true, if_false]
    rw [hmod, hsubmit]
    rfl
  · rw [Block.enqueue_waiting, hwaiting]
  · have htables : ((s.block.modTask k (fun _ => d)).enqueue k.half w).tables = (s.block.modTask k (fun _ => d)).tables :=
      Block.modHalf_tables _ k.half _ (fun _ => rfl) (fun _ => rfl)
    rw [Block.task_eq_of_tables htables, Block.modTask_task htask]

/-- Settles O12: each command by the operation of the rule it carries out. -/
theorem graphAndTokenCommands : Obligations.GraphAndTokenCommands := by
  unfold Obligations.GraphAndTokenCommands
  refine ⟨?_, ?_, ?_, ?_, ?_, ?_, ?_, ?_, ?_, ?_⟩
  · intro s h p g ha hempty hnone hcheck
    exact graphSubmit_waits ha hempty hnone hcheck
  · intro s h src gid w hfind hchecked hbind hfree hspace hstep hroom
    exact graphAdmit_admits hfind hchecked hbind hfree hspace hstep hroom
  · intro s k cancel c i hi htask hdue
    obtain ⟨d, hd, hreceived, hcancels, hmem, hcancelled, hready⟩ := deliver_counts (cancel := cancel) htask hdue
    exact ⟨_, d, exec_token hi, rfl, hd, hreceived, hcancels, hmem, hcancelled, hready⟩
  · intro s k c i hi htask hfull
    obtain ⟨cancel, hcancel⟩ : ∃ cancel : Option Nat, i = (match cancel with
        | none => .token k
        | some o => .cancellation k o) := by
      obtain rfl | ⟨o, rfl⟩ := hi
      · exact ⟨none, rfl⟩
      · exact ⟨some o, rfl⟩
    exact ⟨_, exec_token hcancel, deliver_surplus htask hfull⟩
  · intro s k g c hgraph htask hphase hin hcancel htime hgate hslot
    exact ⟨{ s with block := s.block.settle k }, rfl, rfl, Block.settle_ready hgraph htask hphase hin hcancel (.inr htime) hgate hslot,
      Block.mem_eq_of_memory (Block.settle_memory _ _)⟩
  · intro s k c htask hphase hage htime
    have hcond : (c.phase = .ready ∧ ¬ c.aged = true ∧ s.block.regFld (safReg k.half 0x10) 29 0 ≠ 0 ∧
        c.readyTide + s.block.regFld (safReg k.half 0x10) 29 0 ≤ s.block.tide k.half) ↔ ¬ c.aged = true :=
      ⟨fun e => e.2.1, fun e => ⟨hphase, e, hage, htime⟩⟩
    refine ⟨_, rfl, rfl, ?_⟩
    simp only [htask, hcond]
    by_cases haged : c.aged = true
    · rw [if_neg (not_not.mpr haged), if_pos haged]
      exact ⟨htask, rfl, rfl⟩
    · rw [if_pos haged, if_neg haged]
      exact ⟨Block.modTask_task htask _, Block.modTask_regs _ _ _, Block.mem_eq_of_memory (Block.modTask_memory _ _ _)⟩
  · intro s h gid v g hd n hgraph hqueue hw
    exact ⟨{ s with block := s.block.writeGraphHead h gid.val v.toNat }, rfl, rfl, writeGraphHead_keeps hgraph hqueue hw⟩
  · intro s k g n c d h hstage hnone hd hcheck
    exact subGraphLaunch_waits h hstage hnone hd hcheck
  · intro s k g c h hstage
    have hexec : ∃ detail, exec (.subGraphDone k) s =
        .next { s with block := s.block.fix k (if c.stage = 2 then stOk else stCancelled) detail } := by
      obtain htwo | hthree := hstage
      · refine ⟨0, next_of_act (show exec (.subGraphDone k) s = execSubGraphDone k s from rfl) ?_⟩
        simp only [h.onRunning, htwo, if_true]
      · refine ⟨c.detail, next_of_act (show exec (.subGraphDone k) s = execSubGraphDone k s from rfl) ?_⟩
        simp [h.onRunning, hthree]
    obtain ⟨detail, hexec⟩ := hexec
    exact ⟨_, hexec, rfl, (h.heads _).fix detail, Block.mem_eq_of_memory (Block.fix_memory _ _ _ _)⟩
  · intro s k g c h
    refine ⟨{ s with block := s.block.fix k stOk 0 }, ?_, rfl, (h.heads _).fix 0, Block.mem_eq_of_memory (Block.fix_memory _ _ _ _),
      Block.fix_regs _ _ _ _⟩
    exact next_of_act (show exec (.tideWait k) s = execTideWait k s from rfl) (h.onRunning _)

/-! ## Records (R46-R48) -/

section
variable {b c : Block}

theorem Block.slot_eq_of_slots (h : b.slots = c.slots) (k : Nat) : b.slot k = c.slot k := by
  rw [Block.slot, Block.slot, h]

theorem Block.badWrite_eq_of_memory (h : b.memory = c.memory) (cells : List Host.Cell) : b.badWrite cells = c.badWrite cells := by
  rw [Block.badWrite, Block.badWrite, Block.badHits_eq_of_memory h]

/-- A write is translated by the slot's pages alone. -/
theorem Block.wrCells_eq (hs : b.slots = c.slots) {a a' : Access} (ha : a.slot = a'.slot) (who va : Nat) (l : List Byte) :
    b.wrCells a who va l = c.wrCells a' who va l := by
  simp only [Block.wrCells, Block.wr, Block.translate, ha, Block.slot_eq_of_slots hs]

/-- The cells of a record are told by memory's bad words, the slots and the graph's ring. -/
theorem Block.ringCells_eq {g g' : Graph} (hm : b.memory = c.memory) (hs : b.slots = c.slots) (hjob : g'.job = g.job)
    (hbase : g'.ringBase = g.ringBase) (htail : g'.tail = g.tail) (h : HalfId) (l : List Byte) : b.ringCells h g' l = c.ringCells h g l := by
  have hslot : b.slotOfJob g.job = c.slotOfJob g.job := by rw [Block.slotOfJob, Block.slotOfJob, hs]
  simp only [Block.ringCells, hjob, hbase, htail, hslot]
  cases c.slotOfJob g.job with
  | none => rfl
  | some k =>
    have hcells := Block.wrCells_eq hs (a := b.access h k g'.step []) (a' := c.access h k g.step []) rfl 8 (g.ringBase + 32 * g.tail) l
    simp only [hcells, Block.badWrite_eq_of_memory hm]

theorem Block.storeCells_mem_eq (hm : b.memory = c.memory) (cells : List Host.Cell) : (b.storeCells cells).mem = (c.storeCells cells).mem := by
  induction cells generalizing b c with
  | nil => exact Block.mem_eq_of_memory hm
  | cons e es ih =>
    refine ih ?_
    have hrest := Block.rest_eq_of_memory hm
    simp only [Block.memory, Memory.mk.injEq] at hm
    obtain ⟨hmem, hfill, hbad, hhost, hpairs⟩ := hm
    simp only [Block.memory, Block.store, hrest, hmem, hfill, hbad, hhost, hpairs]
end

/-! ### What comes before a record -/

section
variable (b : Block) (h : HalfId)

/-- The registers that the end of a task may change before its record: the statistics, their count, and the gates of its half. -/
def endOwn (h : HalfId) (a : Nat) : Prop := regBase h + 0x1000000 ≤ a ∧ a < regBase h + 0x2000000

/-- What the steps before a record leave: memory, the slots, the task itself, the ring of its graph, and registers but those of `endOwn`. -/
structure RecordReady (b y : Block) (k : TaskRef) (g : Graph) (c : TaskCtx) : Prop where
  memory : y.memory = b.memory
  slots : y.slots = b.slots
  reg : ∀ a, ¬ endOwn k.half a → y.reg a = b.reg a
  task : y.task k = some c
  graph : ∃ g', y.graph k.half k.graph = some g' ∧ { g' with tasks := g.tasks } = g

theorem RecordReady.refl {k : TaskRef} {g : Graph} {c : TaskCtx} (hg : b.graph k.half k.graph = some g) (hc : b.task k = some c) :
    RecordReady b b k g c := ⟨rfl, rfl, fun _ _ => rfl, hc, g, hg, rfl⟩

theorem RecordReady.of_tables {b y z : Block} {k : TaskRef} {g : Graph} {c : TaskCtx} (r : RecordReady b y k g c) (hm : z.memory = y.memory)
    (ht : z.tables = y.tables) (hr : ∀ a, ¬ endOwn k.half a → z.reg a = y.reg a) : RecordReady b z k g c := by
  obtain ⟨hmemory, hslots, hreg, htask, g', hg', hring⟩ := r
  exact ⟨hm.trans hmemory, (congrArg Tables.slots ht).trans hslots, fun a ha => (hr a ha).trans (hreg a ha),
    (Block.task_eq_of_tables ht k).trans htask, g', (Block.graph_eq_of_tables ht _ _).trans hg', hring⟩

/-- The change of another task's context. -/
theorem RecordReady.modTask_other {b y : Block} {k t : TaskRef} {g : Graph} {c : TaskCtx} (r : RecordReady b y k g c) (hne : k ≠ t)
    (f : TaskCtx → TaskCtx) : RecordReady b (y.modTask t f) k g c := by
  obtain ⟨hmemory, hslots, hreg, htask, g', hg', hring⟩ := r
  refine ⟨(y.modTask_memory t f).trans hmemory, (y.modTask_slots t f).trans hslots,
    fun a ha => (Block.reg_eq (y.modTask_regs t f) a).trans (hreg a ha), by rw [Block.task_modTask, if_neg hne, htask], ?_⟩
  rw [Block.modTask, Block.graph_modGraph]
  split
  · next hkj =>
    rw [← hkj.1, ← hkj.2, hg']
    exact ⟨_, rfl, hring⟩
  · exact ⟨g', hg', hring⟩

theorem RecordReady.fix_other {b y : Block} {k t : TaskRef} {g : Graph} {c : TaskCtx} (r : RecordReady b y k g c) (hne : k ≠ t)
    (status detail : Nat) : RecordReady b (y.fix t status detail) k g c := by
  have hkeep {z : Block} (hz : RecordReady b z k g c) (ht : (y.fix t status detail).tables = z.tables) (hm : z.memory = y.memory)
      (hr : z.regs = y.regs) : RecordReady b (y.fix t status detail) k g c :=
    hz.of_tables ((y.fix_memory t status detail).trans hm.symm) ht
      fun a _ => (Block.reg_eq (y.fix_regs t status detail) a).trans (Block.reg_eq hr a).symm
  obtain ⟨hsame, -⟩ | ⟨d, f, -, -, -, -, htables⟩ := y.fix_tables t status detail
  · exact hkeep r hsame rfl rfl
  · exact hkeep (r.modTask_other hne f) htables (y.modTask_memory t f) (y.modTask_regs t f)

/-- The end of a consumer (R137): a task that has ended itself is none that runs. -/
theorem RecordReady.endConsumer {b y : Block} {k t : TaskRef} {g : Graph} {c : TaskCtx} (r : RecordReady b y k g c) (hended : c.phase = .ended) :
    RecordReady b (y.endConsumer t) k g c := by
  by_cases hkt : k = t
  · subst hkt
    obtain ⟨g', hg', -⟩ := r.graph
    have hsame : y.endConsumer k = y := by
      simp only [Block.endConsumer, hg', r.task, hended]
      split
      · rw [if_neg (by simp)]
      · rfl
    rw [hsame]
    exact r
  · simp only [Block.endConsumer]
    split
    · split
      · split
        · exact (r.modTask_other hkt _).fix_other hkt _ _
        · exact r
      · exact r
    · exact r

theorem RecordReady.foldl {α : Type} {b y : Block} {k : TaskRef} {g : Graph} {c : TaskCtx} {f : Block → α → Block}
    (hf : ∀ y x, RecordReady b y k g c → RecordReady b (f y x) k g c) (l : List α) (r : RecordReady b y k g c) :
    RecordReady b (l.foldl f y) k g c := by
  induction l generalizing y with
  | nil => exact r
  | cons x xs ih => exact ih (hf y x r)

@[simp] theorem Block.syncStep_tables (k : Nat) : (b.syncStep h k).tables = b.tables := by
  have hset (x : Block) (a hi lo v : Nat) : (x.setRegFld a hi lo v).tables = x.tables := x.modReg_tables a _
  simp only [Block.syncStep]
  (repeat' split) <;> simp [hset]

theorem Block.syncStep_reg (k : Fin 16) {a : Nat} (ha : ¬ endOwn h a) : (b.syncStep h k).reg a = b.reg a := by
  have hne : a ≠ gateReg h (0x200 + 8 * k) := by
    rintro rfl
    have hk := k.isLt
    exact ha (by cases h <;> simp only [endOwn, gateReg, regBase, halfNum] <;> omega)
  simp only [Block.syncStep]
  (repeat' split) <;> simp [Block.reg_setRegFld_other _ _ _ _ _ _ hne]

theorem RecordReady.noteEnd {b y : Block} {k : TaskRef} {g : Graph} {c : TaskCtx} (r : RecordReady b y k g c) (slot : Fin 16)
    (step status detail : Nat) : RecordReady b (y.noteEnd k.half slot step status detail) k g c := by
  have hstep (f : StepRecord → StepRecord) : RecordReady b (y.modStep k.half slot step f) k g c := by
    refine r.of_tables ?_ ?_ fun a ha => ?_
    · rw [Block.modStep, Block.syncStep_memory, Block.modHalf_memory]
    · rw [Block.modStep, Block.syncStep_tables]
      exact y.modHalf_tables k.half _ (fun _ => rfl) (fun _ => rfl)
    · rw [Block.modStep, Block.syncStep_reg _ _ _ ha, Block.modHalf_reg]
  rw [Block.noteEnd]
  split
  · exact r
  · split
    · exact hstep _
    · exact hstep _

theorem RecordReady.setShape {b y : Block} {k : TaskRef} {g : Graph} {c : TaskCtx} (r : RecordReady b y k g c) (slot i v : Nat) :
    RecordReady b (y.setShape k.half slot i v) k g c :=
  r.of_tables (y.modHalf_memory _ _) (y.modHalf_tables k.half _ (fun _ => rfl) (fun _ => rfl)) fun a _ => y.modHalf_reg _ _ a

theorem RecordReady.writeShapes {b y : Block} {k : TaskRef} {g : Graph} {c : TaskCtx} (r : RecordReady b y k g c) :
    RecordReady b (y.writeShapes k g c) k g c := by
  have hshapes (l : List Nat) (i : Nat) (y : Block) (r : RecordReady b y k g c) : RecordReady b (y.setShapes k.half g.slot i l) k g c := by
    induction l generalizing i y with
    | nil => exact r
    | cons v vs ih => exact ih _ _ (r.setShape g.slot i v)
  have hpairs (l : List Nat) (i : Nat) (y : Block) (r : RecordReady b y k g c) : RecordReady b (y.setPairShapes k.half g.slot i l) k g c := by
    induction l generalizing i y with
    | nil => exact r
    | cons v vs ih => exact ih _ _ ((r.setShape g.slot (i + 1) v).setShape g.slot (i + 11) v)
  rw [Block.writeShapes]
  split
  · exact hpairs _ _ _ r
  · split
    · exact hshapes _ _ _ r
    · split
      · exact hshapes _ _ _ r
      · exact r

theorem RecordReady.setReg {b y : Block} {k : TaskRef} {g : Graph} {c : TaskCtx} (r : RecordReady b y k g c) {a : Nat} (ha : endOwn k.half a)
    (v : Word) : RecordReady b (y.setReg a v) k g c :=
  r.of_tables (y.setReg_memory a v) (y.setReg_tables a v) fun x hx => y.reg_setReg_other a x v fun e => hx (by rwa [e])

theorem RecordReady.mergeStat {b y : Block} {k : TaskRef} {g : Graph} {c : TaskCtx} (r : RecordReady b y k g c) (slot : Fin 16) (s : StatCapture) :
    RecordReady b (y.mergeStat k.half slot s) k g c := by
  have hstat (i : Nat) (hi : i < 8) : endOwn k.half (statReg k.half slot s.slot i) := by
    have hk := slot.isLt
    have hs := s.slot.isLt
    simp only [endOwn, statReg]
    omega
  have hput (l : List Nat) (hl : ∀ i ∈ l, i < 8) (w : Nat → Word) (y : Block) (r : RecordReady b y k g c) :
      RecordReady b (l.foldl (fun x i => x.setReg (statReg k.half slot s.slot i) (w i)) y) k g c := by
    induction l generalizing y with
    | nil => exact r
    | cons i is ih => exact ih (fun j hj => hl j (List.mem_cons_of_mem i hj)) _ (r.setReg (hstat i (hl i List.mem_cons_self)) _)
  have hcount : endOwn k.half (regBase k.half + 0x1C00000) := by
    simp only [endOwn]
    omega
  simp only [Block.mergeStat]
  split
  · exact hput _ (fun i hi => List.mem_range.mp hi) _ y r
  · split
    · exact r.setReg hcount _
    · refine (hput [1, 2, 3, 4, 5, 7] ?_ _ _ (r.setReg (hstat 0 (by decide)) _)).setReg (hstat 6 (by decide)) _
      simp only [List.mem_cons, List.not_mem_nil, or_false]
      omega

theorem RecordReady.mergeStats {b y : Block} {k : TaskRef} {g : Graph} {c : TaskCtx} (r : RecordReady b y k g c) :
    RecordReady b (y.mergeStats k g c) k g c := by
  rw [Block.mergeStats]
  split
  · exact .foldl (fun y s r => r.mergeStat g.slot s) _ r
  · exact r

/-- All that comes before a record but the stall counts. -/
theorem Block.recordReady {k : TaskRef} {g : Graph} {c : TaskCtx} (hg : b.graph k.half k.graph = some g) (hc : b.task k = some c)
    (hended : c.phase = .ended) :
    RecordReady b ((((b.failConsumers k g).noteEnd k.half g.slot g.step c.status c.detail).writeShapes k g c).mergeStats k g c) k g c :=
  (((RecordReady.foldl (fun _ _ r => r.endConsumer hended) _ (.refl b hg hc)).noteEnd g.slot g.step c.status c.detail).writeShapes).mergeStats

@[simp] theorem Block.addStalls_memory (l : List StallCount) : (b.addStalls l).memory = b.memory := by
  induction l generalizing b with
  | nil => rfl
  | cons x xs ih => rw [Block.addStalls, ih, Block.modReg_memory]

@[simp] theorem Block.addStalls_tables (l : List StallCount) : (b.addStalls l).tables = b.tables := by
  induction l generalizing b with
  | nil => rfl
  | cons x xs ih => rw [Block.addStalls, ih, Block.modReg_tables]

/-- Stall counts are registers of the cores. -/
theorem Block.addStalls_reg (l : List StallCount) {a : Nat} (ha : a < 0x60000000) : (b.addStalls l).reg a = b.reg a := by
  induction l generalizing b with
  | nil => rfl
  | cons x xs ih =>
    rw [Block.addStalls, ih, Block.reg_modReg_other _ _ _ _ (by simp only [stallReg]; omega)]
end

/-! ### Writing a record (R47, R48) -/

section
variable (b : Block)

@[simp] theorem Block.raise_tables (vec : Nat) : (b.raise vec).tables = b.tables := by
  rw [Block.raise]
  split <;> simp

@[simp] theorem Block.modPair_tables (q : Nat) (f : QueuePair → QueuePair) : (b.modPair q f).tables = b.tables :=
  Block.tables_eq (by simp) (by simp) (by simp)

@[simp] theorem Block.hostStore_tables (a : Nat) (l : List Byte) : (b.hostStore a l).tables = b.tables :=
  Block.tables_eq (by simp) (by simp) (by simp)

@[simp] theorem Block.storeCells_tables (cells : List Host.Cell) : (b.storeCells cells).tables = b.tables := by
  induction cells generalizing b with
  | nil => rfl
  | cons c cs ih => rw [Block.storeCells, ih]; rfl

@[simp] theorem Block.storeCells_regs (cells : List Host.Cell) : (b.storeCells cells).regs = b.regs := by
  induction cells generalizing b with
  | nil => rfl
  | cons c cs ih => rw [Block.storeCells, ih]; rfl

@[simp] theorem Block.storeCells_hostMem (cells : List Host.Cell) : (b.storeCells cells).hostMem = b.hostMem := by
  induction cells generalizing b with
  | nil => rfl
  | cons c cs ih => rw [Block.storeCells, ih]; rfl

/-- A pair that is enabled is one of the list. -/
theorem Block.pair_modPair {q : Nat} (he : (b.pair q).enabled = true) (f : QueuePair → QueuePair) : (b.modPair q f).pair q = f (b.pair q) := by
  cases hq : b.pairs[q]? with
  | none => simp [Block.pair, List.getD_eq_getElem?_getD, hq, QueuePair.reset] at he
  | some p => simp [Block.pair, Block.modPair, List.getD_eq_getElem?_getD, getElem?_listMod, hq]

/-- What telling the host of a queue's entries keeps: all but what it counts of them (R408). -/
structure Told (b x : Block) (q : Nat) : Prop where
  mem : x.mem = b.mem
  hostMem : x.hostMem = b.hostMem
  tables : x.tables = b.tables
  held : (x.pair q).cqHeld = (b.pair q).cqHeld
  reg : ∀ a, pciReg 0x4000 ≤ a → x.reg a = b.reg a

theorem Block.raise_pair (vec q : Nat) : (b.raise vec).pair q = b.pair q := by
  rw [Block.pair, Block.raise_pairs, Block.pair]

theorem Block.pair_held_modPair (q : Nat) {f : QueuePair → QueuePair} (hf : ∀ p, (f p).cqHeld = p.cqHeld) :
    ((b.modPair q f).pair q).cqHeld = (b.pair q).cqHeld := by
  simp only [Block.pair, Block.modPair, List.getD_eq_getElem?_getD, getElem?_listMod, if_true]
  cases b.pairs[q]? with
  | none => rfl
  | some p => exact hf p

theorem Told.trans {b x y : Block} {q : Nat} (h : Told b x q) (g : Told x y q) : Told b y q :=
  ⟨g.mem.trans h.mem, g.hostMem.trans h.hostMem, g.tables.trans h.tables, g.held.trans h.held, fun a ha => (g.reg a ha).trans (h.reg a ha)⟩

theorem Block.modPair_told (q : Nat) {f : QueuePair → QueuePair} (hf : ∀ p, (f p).cqHeld = p.cqHeld) : Told b (b.modPair q f) q :=
  ⟨by simp, by simp, by simp, b.pair_held_modPair q hf, fun a _ => by simp⟩

theorem Block.signalQueue_told (q : Nat) : Told b (b.signalQueue q) q := by
  rw [Block.signalQueue]
  refine ⟨by simp, by simp, by simp, ?_, fun a ha => ?_⟩
  · rw [Block.raise_pair]
    exact b.pair_held_modPair q fun _ => rfl
  · rw [Block.raise_reg_of_gt _ (b.pair q).vec.isLt ha, Block.modPair_reg]

theorem Block.coalesce_told (q : Nat) : Told b (b.coalesce q) q := by
  simp only [Block.coalesce]
  split
  · refine .trans (b.modPair_told q ?_) (Block.signalQueue_told _ q)
    exact fun _ => rfl
  · refine b.modPair_told q ?_
    exact fun _ => rfl

/-- An entry put into a completion queue with room (R406). -/
theorem Block.cqPush_entry {q : Nat} (he : (b.pair q).enabled = true) (hroom : (b.pair q).cqHeld < 2 ^ (b.pair q).cqLog2)
    (entry : Bool → List Byte) : ∃ x, b.cqPush q entry false = some x ∧
      x.hostMem = hostPutList b.hostMem (b.regFld (pairReg q 8) 59 12 * 4096 + 32 * (b.pair q).cqTail) (entry (b.pair q).cqPhase) ∧
      (x.pair q).cqHeld = (b.pair q).cqHeld + 1 ∧ x.mem = b.mem ∧ x.tables = b.tables ∧ ∀ a, pciReg 0x4000 ≤ a → x.reg a = b.reg a := by
  have hcond : ¬ ((b.pair q).enabled ≠ true ∨ 2 ^ (b.pair q).cqLog2 ≤ (b.pair q).cqHeld) := by
    simp only [he, ne_eq, not_true, false_or]
    omega
  have hput (a : Nat) (l : List Byte) (f : QueuePair → QueuePair) (hf : (f (b.pair q)).cqHeld = (b.pair q).cqHeld + 1) :
      let x := ((b.hostStore a l).modPair q f).coalesce q
      x.hostMem = hostPutList b.hostMem a l ∧ (x.pair q).cqHeld = (b.pair q).cqHeld + 1 ∧ x.mem = b.mem ∧ x.tables = b.tables ∧
        ∀ a, pciReg 0x4000 ≤ a → x.reg a = b.reg a := by
    obtain ⟨hmem, hhost, htables, hheld, hreg⟩ := Block.coalesce_told ((b.hostStore a l).modPair q f) q
    refine ⟨?_, ?_, ?_, ?_, fun a ha => ?_⟩
    · rw [hhost, Block.modPair_hostMem]
      rfl
    · rw [hheld, Block.pair_modPair _ (show ((b.hostStore a l).pair q).enabled = true from he)]
      exact hf
    · rw [hmem, Block.modPair_mem, Block.hostStore_mem]
    · rw [htables, Block.modPair_tables, Block.hostStore_tables]
    · rw [hreg a ha, Block.modPair_reg, Block.hostStore_reg]
  simp only [Block.cqPush]
  rw [if_neg hcond]
  refine ⟨_, rfl, ?_⟩
  rw [if_neg Bool.false_ne_true]
  refine hput _ _ _ ?_
  rfl

/-! ### After a record (R33, R38, R39) -/

theorem Block.tellLauncher_memory (l : TaskRef) (gid stage : Nat) : (b.tellLauncher l gid stage).memory = b.memory := b.modTask_memory l _

theorem Block.closeGraph_memory (h : HalfId) (gid : Nat) : (b.closeGraph h gid).memory = b.memory := by
  simp only [Block.closeGraph]
  split
  · rfl
  · split
    · split
      · rw [Block.tellLauncher_memory, Block.modHalf_memory]
      · exact b.modHalf_memory h _
    · rfl

theorem Block.closeGraph_regs (h : HalfId) (gid : Nat) : (b.closeGraph h gid).regs = b.regs := by
  simp only [Block.closeGraph]
  split
  · rfl
  · split
    · split
      · rw [Block.tellLauncher, Block.modTask_regs, Block.modHalf_regs]
      · exact b.modHalf_regs h _
    · rfl

/-- A task of a graph that stays live is as it was; one of a graph that is closed is no more. -/
theorem Block.closeGraph_task (t : TaskRef) {d : TaskCtx} (hd : (b.closeGraph t.half t.graph).task t = some d) : b.task t = some d := by
  have hgone (f : Half → Half) (hf : ∀ x, (f x).graphs = tabDel x.graphs t.graph) : (b.modHalf t.half f).task t = none := by
    rw [Block.task, Block.graph, Block.half_modHalf_same, hf, tabFind_tabDel_same]
  simp only [Block.closeGraph] at hd
  split at hd
  · exact hd
  · split at hd
    · split at hd
      · rw [Block.tellLauncher, Block.task_modTask, hgone _ fun _ => rfl] at hd
        split at hd <;> cases hd
      · rw [hgone _ fun _ => rfl] at hd
        cases hd
    · exact hd

theorem Block.afterRecord_memory (t : TaskRef) (c : TaskCtx) : (b.afterRecord t c).memory = b.memory := by
  rw [Block.afterRecord, Block.closeGraph_memory, Block.sendTokens, Block.modHalf_memory, Block.modTask_memory]

theorem Block.afterRecord_regs (t : TaskRef) (c : TaskCtx) : (b.afterRecord t c).regs = b.regs := by
  rw [Block.afterRecord, Block.closeGraph_regs, Block.sendTokens, Block.modHalf_regs, Block.modTask_regs]

theorem Block.afterRecord_recorded (t : TaskRef) (c : TaskCtx) {d : TaskCtx} (hd : (b.afterRecord t c).task t = some d) : d.phase = .recorded := by
  have hsent (x : Block) : (x.sendTokens t c).task t = x.task t :=
    Block.task_eq_of_tables (show (x.sendTokens t c).tables = x.tables from x.modHalf_tables t.half _ (fun _ => rfl) (fun _ => rfl)) t
  have hmod := Block.closeGraph_task _ t hd
  rw [hsent, Block.task_modTask, if_pos rfl] at hmod
  obtain ⟨x, -, rfl⟩ := Option.map_eq_some_iff.mp hmod
  rfl
end

/-- What a written record leaves of the rest. -/
theorem Block.written_record {x : Block} {t : TaskRef} {c : TaskCtx} :
    (x.afterRecord t c).mem = x.mem ∧ (x.afterRecord t c).hostMem = x.hostMem ∧ (∀ q, (x.afterRecord t c).pair q = x.pair q) ∧
      (∀ a, (x.afterRecord t c).reg a = x.reg a) ∧ ∀ d, (x.afterRecord t c).task t = some d → d.phase = .recorded :=
  ⟨Block.mem_eq_of_memory (x.afterRecord_memory t c), Block.hostMem_eq_of_memory (x.afterRecord_memory t c),
    Block.pair_eq_of_memory (x.afterRecord_memory t c), Block.reg_eq (x.afterRecord_regs t c), fun _ hd => x.afterRecord_recorded t c hd⟩

/-- What a graph shares with one that differs in its tasks alone. -/
theorem recordBytes_eq {g g' : Graph} (h : { g' with tasks := g.tasks } = g) (gid : Nat) (c : TaskCtx) (phase : Bool) :
    recordBytes gid g' c phase = recordBytes gid g c phase := by
  rw [← h]
  rfl

section
variable {b y : Block} {k : TaskRef} {g : Graph} {c : TaskCtx}

/-- The record of a task whose ring is a completion queue with space. -/
theorem RecordReady.tryRecord_queue (r : RecordReady b y k g c) {q : Fin 64} (hq : g.queue = some q) (he : (b.pair q.val).enabled = true)
    (hroom : (b.pair q.val).cqHeld < 2 ^ (b.pair q.val).cqLog2) : ∃ x, y.tryRecord k = .written x ∧
      x.hostMem = hostPutList b.hostMem (b.regFld (pairReg q.val 8) 59 12 * 4096 + 32 * (b.pair q.val).cqTail)
        (recordBytes k.graph g c (b.pair q.val).cqPhase) ∧ (x.pair q.val).cqHeld = (b.pair q.val).cqHeld + 1 ∧ x.mem = b.mem ∧
      ∀ a, pciReg 0x4000 ≤ a → x.reg a = y.reg a := by
  obtain ⟨hmemory, -, hreg, htask, g', hg', hring⟩ := r
  have hpair := Block.pair_eq_of_memory hmemory q.val
  have hbase : y.regFld (pairReg q.val 8) 59 12 = b.regFld (pairReg q.val 8) 59 12 := by
    have hq' := q.isLt
    rw [Block.regFld, hreg _ ?_, Block.regFld]
    cases k.half <;> simp only [endOwn, pairReg, regBase, halfNum] <;> omega
  have hq' : g'.queue = some q := by rw [← hq, ← hring]
  obtain ⟨x, hx, hhost, hheld, hmem, -, hregs⟩ := y.cqPush_entry (hpair ▸ he) (hpair ▸ hroom) (recordBytes k.graph g' c)
  refine ⟨x, by simp only [Block.tryRecord, hg', htask, hq', hx], ?_, hpair ▸ hheld, hmem.trans (Block.mem_eq_of_memory hmemory), hregs⟩
  rw [hhost, hpair, hbase, Block.hostMem_eq_of_memory hmemory, recordBytes_eq hring]

/-- The record of a task whose graph has a ring of its own with space. -/
theorem RecordReady.tryRecord_ring (r : RecordReady b y k g c) (hq : g.queue = none) (hroom : g.held < 2 ^ g.ringLog2) {cells : List Host.Cell}
    (hcells : b.ringCells k.half g (recordBytes k.graph g c g.phase) = .ok cells) : ∃ x, y.tryRecord k = .written x ∧
      x.mem = (b.storeCells cells).mem ∧ x.hostMem = b.hostMem ∧ ∀ a, x.reg a = y.reg a := by
  obtain ⟨hmemory, hslots, -, htask, g', hg', hring⟩ := r
  have hq' : g'.queue = none := by rw [← hq, ← hring]
  have hroom' : ¬ 2 ^ g'.ringLog2 ≤ g'.held := by
    have h1 : g'.ringLog2 = g.ringLog2 := by rw [← hring]
    have h2 : g'.held = g.held := by rw [← hring]
    rw [h1, h2]
    omega
  have hphase : g'.phase = g.phase := by rw [← hring]
  have hjob : g'.job = g.job := by rw [← hring]
  have hbase : g'.ringBase = g.ringBase := by rw [← hring]
  have htail : g'.tail = g.tail := by rw [← hring]
  have hcells' : y.ringCells k.half g' (recordBytes k.graph g' c g'.phase) = .ok cells := by
    rw [recordBytes_eq hring, hphase, Block.ringCells_eq hmemory hslots hjob hbase htail, hcells]
  have hput (f : Graph → Graph) : ((y.storeCells cells).modGraph k.half k.graph f).mem = (b.storeCells cells).mem ∧
      ((y.storeCells cells).modGraph k.half k.graph f).hostMem = b.hostMem ∧
      ∀ a, ((y.storeCells cells).modGraph k.half k.graph f).reg a = y.reg a := by
    refine ⟨?_, ?_, fun a => ?_⟩
    · rw [Block.mem_eq_of_memory (Block.modGraph_memory _ _ _ _), Block.storeCells_mem_eq hmemory]
    · rw [Block.hostMem_eq_of_memory (Block.modGraph_memory _ _ _ _), Block.storeCells_hostMem, Block.hostMem_eq_of_memory hmemory]
    · rw [Block.reg_eq (Block.modGraph_regs _ _ _ _), Block.reg_eq (Block.storeCells_regs _ _)]
  simp only [Block.tryRecord, hg', htask, hq', hcells']
  rw [if_neg hroom']
  exact ⟨_, rfl, hput _⟩

theorem RecordReady.finishRecord (r : RecordReady b y k g c) {x : Block} (hx : y.tryRecord k = .written x) : y.finishRecord k = x.afterRecord k c := by
  obtain ⟨g', hg', -⟩ := r.graph
  simp only [Block.finishRecord, hg', r.task, hx]

theorem RecordReady.retryRecord (r : RecordReady b y k g c) (hwait : c.phase = .recordWait) {x : Block} (hx : y.tryRecord k = .written x) :
    y.retryRecord k = (x.modReg (safReg k.half 0x20) (fun w => satAdd w 63 0 (cyclesOf (y.tide k.half - c.endTide)))).afterRecord k c := by
  simp only [Block.retryRecord, r.task, hwait, if_true, hx]
end

/-! ## Firing (R35-R37, R42) -/

section
variable (b : Block)

@[simp] theorem Block.setRegFld_tables (a hi lo v : Nat) : (b.setRegFld a hi lo v).tables = b.tables := b.modReg_tables a _

@[simp] theorem Block.pendChannel_tables (h : HalfId) (ch cause : Nat) : (b.pendChannel h ch cause).tables = b.tables := by
  simp only [Block.pendChannel]
  split
  · rfl
  · rw [Block.log_tables]
    split
    · split <;> simp
    · rw [Block.setUsable, Block.setRegFld_tables, Block.modReg_tables]
      split <;> simp

@[simp] theorem Block.checkChannel_tables (h : HalfId) (ch : Nat) : (b.checkChannel h ch).tables = b.tables := by
  simp only [Block.checkChannel]
  (repeat' split) <;> simp

@[simp] theorem Block.noteUe_tables (a : Nat) : (b.noteUe a).tables = b.tables := by
  simp only [Block.noteUe]
  split <;> simp

@[simp] theorem Block.contextUpset_tables (h : HalfId) (u : Upset) : (b.contextUpset h u).tables = b.tables := by
  cases u with
  | none => rfl
  | corrected =>
    simp only [Block.contextUpset, Block.noteTierCe]
    split <;> simp
  | uncorrectable => exact b.count_tables _ _ _ _
  | parity => rfl

@[simp] theorem Block.startConv_tables (c : TaskCtx) : (b.startConv c).tables = b.tables := by
  rw [Block.startConv]
  split
  · exact Block.tables_foldl _ (fun x n => x.count_tables _ _ _ _) _ b
  · rfl

@[simp] theorem Block.modHarbour_tables (h : HalfId) (f : Harbour → Harbour) : (b.modHarbour h f).tables = b.tables :=
  b.modHalf_tables h _ (fun _ => rfl) (fun _ => rfl)

@[simp] theorem Block.assignUnit_tables (t : TaskRef) (p : Nat) : (b.assignUnit t p).tables = b.tables := b.modHarbour_tables _ _

@[simp] theorem Block.joinStream_tables (t : TaskRef) (i : Nat) : (b.joinStream t i).tables = b.tables := by
  rw [Block.joinStream, Block.modStream]
  split <;> simp

@[simp] theorem Block.countCut_tables (h : HalfId) (cut dest n : Nat) : (b.countCut h cut dest n).tables = b.tables := by
  simp only [Block.countCut]
  split <;> simp

@[simp] theorem Block.startMedia_tables (t : TaskRef) (g : Graph) (c : TaskCtx) (htype : c.desc.type = 0x09) :
    (b.startTask t g c).tables = b.tables := by
  have hassign : (match (b.unitsFor t.half g c).bind (fun ps => b.pickUnit t.half ps) with
      | some p => b.assignUnit t p
      | none => b).tables = b.tables := by
    split <;> simp
  simp only [Block.startTask, htype]
  split
  · exact (Block.joinStream_tables _ _ _).trans hassign
  · split
    · exact (Block.tables_foldl _ (fun x p => x.joinStream_tables t _) _ _).trans hassign
    · exact hassign

/-- The start of a task that is neither a matrix nor a collective one changes no context (R37). -/
theorem Block.startTask_tables (t : TaskRef) (g : Graph) (c : TaskCtx) (htype : c.desc.type ∉ [0x01, 0x08]) :
    (b.startTask t g c).tables = b.tables := by
  simp only [List.mem_cons, List.not_mem_nil, or_false, not_or] at htype
  by_cases hmedia : c.desc.type = 0x09
  · exact b.startMedia_tables t g c hmedia
  · simp only [Block.startTask]
    split
    · next h => exact absurd h htype.1
    · simp
    · exact Block.tables_foldl _ (fun x n => x.modCore_tables n _) _ b
    · next h => exact absurd h htype.2
    · next h => exact absurd h hmedia
    · rfl

/-- The start of a matrix task whose mask can be read. -/
theorem Block.startMatrix_tables (t : TaskRef) (g : Graph) (c : TaskCtx) {live : List Bool}
    (hlive : b.liveRows (b.taskAccess t.half g c) c = .ok live) :
    (b.startMatrix t g c).tables = (b.modTask t (fun c => { c with rowMask := live })).tables := by
  simp only [Block.startMatrix, hlive]
  refine Block.tables_foldl _ (fun x n => ?_) _ _
  (repeat' split) <;> simp
end

/-- A task that has fired, on cores and at a Tide, and runs or has ended. -/
def FiredOn (b : Block) (k : TaskRef) (cores : List Nat) (tide : Nat) : Prop :=
  ∃ d, b.task k = some d ∧ d.fired = true ∧ d.cores = cores ∧ d.fireTide = tide ∧ (d.phase = .running ∨ d.phase = .ended)

/-- What no change of a context that has fired touches. -/
def KeepsFiring (f : TaskCtx → TaskCtx) : Prop :=
  ∀ c, (f c).fired = c.fired ∧ (f c).cores = c.cores ∧ (f c).fireTide = c.fireTide ∧ (f c).phase = c.phase

section
variable {b : Block} {k : TaskRef} {cores : List Nat} {tide : Nat}

theorem FiredOn.of_tables {c : Block} (h : FiredOn b k cores tide) (e : c.tables = b.tables) : FiredOn c k cores tide := by
  obtain ⟨d, hd, hfired⟩ := h
  exact ⟨d, (Block.task_eq_of_tables e k).trans hd, hfired⟩

theorem FiredOn.modHalf (h : FiredOn b k cores tide) (i : HalfId) {f : Half → Half} (hg : ∀ x, (f x).graphs = x.graphs)
    (hf : ∀ x, (f x).funcs = x.funcs) : FiredOn (b.modHalf i f) k cores tide := h.of_tables (b.modHalf_tables i f hg hf)

theorem FiredOn.modTask (h : FiredOn b k cores tide) (t : TaskRef) {f : TaskCtx → TaskCtx} (hf : KeepsFiring f) :
    FiredOn (b.modTask t f) k cores tide := by
  obtain ⟨d, hd, hfired, hcores, htide, hphase⟩ := h
  by_cases hkt : k = t
  · obtain ⟨h1, h2, h3, h4⟩ := hf d
    exact ⟨f d, by rw [Block.task_modTask, if_pos hkt, hd, Option.map_some], h1.trans hfired, h2.trans hcores, h3.trans htide, h4 ▸ hphase⟩
  · exact ⟨d, by rw [Block.task_modTask, if_neg hkt, hd], hfired, hcores, htide, hphase⟩

theorem FiredOn.fix (h : FiredOn b k cores tide) (t : TaskRef) (status detail : Nat) : FiredOn (b.fix t status detail) k cores tide := by
  obtain ⟨hsame, -⟩ | ⟨x, f, hx, hopen, -, -, htables⟩ := b.fix_tables t status detail
  · exact h.of_tables hsame
  · obtain ⟨d, hd, hfired, hcores, htide, hphase⟩ := h
    by_cases hkt : k = t
    · subst hkt
      rw [hd, Option.some.injEq] at hx
      subst hx
      exact ⟨_, Block.fix_task hd hopen status detail, hfired, hcores, htide, .inr rfl⟩
    · exact ⟨d, by rw [Block.task_eq_of_tables htables, Block.task_modTask, if_neg hkt, hd], hfired, hcores, htide, hphase⟩

theorem FiredOn.fixAll (h : FiredOn b k cores tide) (status detail : Nat) (ts : List TaskRef) : FiredOn (b.fixAll status detail ts) k cores tide := by
  induction ts generalizing b with
  | nil => exact h
  | cons t ts ih => exact ih (h.fix t status detail)

theorem FiredOn.fail (h : FiredOn b k cores tide) (t : TaskRef) (status detail : Nat) : FiredOn (b.fail t status detail) k cores tide := by
  obtain ⟨ts, hts⟩ := b.fail_tables t status detail
  exact ((h.fix t status detail).fixAll status detail ts).of_tables hts

theorem FiredOn.fixStop (h : FiredOn b k cores tide) (t : TaskRef) (e : Stop) : FiredOn (b.fixStop t e) k cores tide := by
  cases e with
  | ended status detail => exact h.fix t status detail
  | bad a => exact (h.of_tables (b.noteUe_tables a)).fix t _ _
  | need a n => exact h

/-! ### The start of a collective task (R371) -/

theorem FiredOn.sendReadies (h : FiredOn b k cores tide) (t : TaskRef) (g : Graph) (c : TaskCtx) (p : Plan) (n : Nat) (l : List Nat) :
    FiredOn (b.sendReadies t g c p n l) k cores tide := by
  have hsend (b : Block) (h : FiredOn b k cores tide) (ep cls op origin block : Nat) (payload : List Byte) :
      FiredOn (b.collSend t g c.desc p ep cls op origin block payload) k cores tide := by
    rw [Block.collSend]
    split
    · exact h.of_tables (by rw [Block.send_tables, Block.countCut_tables])
    · exact h.fail t _ _
  induction l generalizing b with
  | nil => exact h
  | cons ep l ih =>
    simp only [Block.sendReadies]
    split
    · exact ih (hsend b h _ _ _ _ _ _)
    · exact ih (hsend b h _ _ _ _ _ _)

theorem FiredOn.modColl (h : FiredOn b k cores tide) (t : TaskRef) (f : CollState → CollState) : FiredOn (b.modColl t f) k cores tide :=
  h.modTask t fun _ => ⟨rfl, rfl, rfl, rfl⟩

theorem FiredOn.takeReady (h : FiredOn b k cores tide) (t : TaskRef) (q : Packet) : FiredOn (b.takeReady t q) k cores tide := by
  simp only [Block.takeReady, Block.onColl]
  split
  · split
    · split
      · split
        · exact h.modColl t _
        · split
          · exact h.of_tables (b.count_tables _ _ _ _)
          · split
            · exact h.of_tables (b.count_tables _ _ _ _)
            · split
              · exact (h.of_tables (b.count_tables _ _ _ _)).fail t _ _
              · exact h.modColl t _
      · exact h
    · exact h
  · exact h

theorem FiredOn.takeReadies (h : FiredOn b k cores tide) (t : TaskRef) (l : List Packet) : FiredOn (b.takeReadies t l) k cores tide := by
  induction l generalizing b with
  | nil => exact h
  | cons q l ih => exact ih (h.takeReady t q)

theorem FiredOn.collFire (h : FiredOn b k cores tide) (t : TaskRef) : FiredOn (b.collFire t) k cores tide := by
  have hfresh (x : CollState) : FiredOn (b.modTask t (fun c => { c with coll := some x })) k cores tide :=
    h.modTask t fun _ => ⟨rfl, rfl, rfl, rfl⟩
  simp only [Block.collFire]
  split
  · split
    · exact h
    · split
      · exact h.fail t _ _
      · split
        · exact (hfresh _).sendReadies _ _ _ _ _ _
        · refine FiredOn.takeReadies (FiredOn.modHalf (FiredOn.sendReadies (hfresh _) _ _ _ _ _ _) t.half ?_ ?_) t _
          all_goals exact fun _ => rfl
  · exact h

theorem FiredOn.collLost (h : FiredOn b k cores tide) (t : TaskRef) (lost : List Nat) : FiredOn (b.collLost t lost) k cores tide := by
  simp only [Block.collLost, Block.onColl]
  split
  · split
    · split
      · split
        · exact h
        · exact h.fail t _ _
      · exact h
    · exact h
  · exact h

/-- The start of any task. -/
theorem FiredOn.startTask (h : FiredOn b k cores tide) (t : TaskRef) (g : Graph) (c : TaskCtx) : FiredOn (b.startTask t g c) k cores tide := by
  by_cases htype : c.desc.type ∈ [0x01, 0x08]
  · simp only [List.mem_cons, List.not_mem_nil, or_false] at htype
    obtain hmatrix | hcoll := htype
    · simp only [Block.startTask, hmatrix]
      cases hlive : b.liveRows (b.taskAccess t.half g c) c with
      | ok live =>
        refine FiredOn.of_tables (h.modTask t ?_) (b.startMatrix_tables t g c hlive)
        exact fun _ => ⟨rfl, rfl, rfl, rfl⟩
      | error e =>
        simp only [Block.startMatrix, hlive]
        exact h.fixStop t e
    · simp only [Block.startTask, hcoll]
      exact (h.collFire t).collLost t _
  · exact h.of_tables (b.startTask_tables t g c htype)

/-- The checks of a task that fires (R42). -/
theorem FiredOn.checkFired (h : FiredOn b k cores tide) (g : Graph) {c : TaskCtx} (hc : b.task k = some c) : FiredOn (b.checkFired k g c) k cores tide := by
  have hresolved : FiredOn (b.modTask k (fun _ => b.resolvePolicy k.half g c)) k cores tide := by
    obtain ⟨d, hd, hfired⟩ := h
    rw [hc, Option.some.injEq] at hd
    subst hd
    exact ⟨b.resolvePolicy k.half g c, Block.modTask_task hc _, hfired⟩
  simp only [Block.checkFired]
  split
  · exact h.fix k _ _
  · split
    · exact h.fix k _ _
    · split
      · exact h.fix k _ _
      · split
        · split
          · exact hresolved.startTask k g _
          · refine FiredOn.fix (hresolved.modTask k ?_) k _ _
            exact fun _ => ⟨rfl, rfl, rfl, rfl⟩
        · exact hresolved.startTask k g _
end

section
variable {s : State} {k : TaskRef} {cores : List (Fin 40)} {u : Upset} {ns : List Nat} {g : Graph} {c : TaskCtx}

/-- The words of a vector program that a task reads when it fires. -/
def Block.firedProg (b : Block) (k : TaskRef) (g : Graph) (c : TaskCtx) : Res (List Word) :=
  if c.desc.type = 0x02 ∧ c.desc.mode4 = 0 ∧ c.desc.vxCount ≠ 0 ∧ c.desc.vxCount ≤ 64 then
    b.wordsFire (b.taskAccess k.half g c) 8 c.desc.vxProg c.desc.vxCount else .ok []

/-- A context that starts on its cores. -/
def TaskCtx.firedOn (c : TaskCtx) (cores : List Nat) (tide : Nat) : TaskCtx :=
  { c with phase := .running, fired := true, cores := cores, fireTide := tide }

/-- What a firing leaves: the words of its program and its slots are read, and the checks of R42 follow. -/
def Block.firing (b : Block) (k : TaskRef) (u : Upset) (ns : List Nat) (g : Graph) (c : TaskCtx) : Block :=
  let c1 := c.firedOn ns (b.tide k.half)
  let b1 := (b.modTask k (fun _ => c1)).contextUpset k.half u
  if u = .uncorrectable ∨ u = .parity then b1.fix k stDataError (tierDetail 1)
  else match b.readTensors (b.taskAccess k.half g c) c.desc with
  | .error e => b1.fixStop k e
  | .ok ts => match b.firedProg k g c with
    | .error e => b1.fixStop k e
    | .ok prog =>
      let c2 : TaskCtx := { b.loadCtx k.half g.slot c1 ts with prog := prog }
      let b2 := b1.modTask k (fun _ => c2)
      b2.checkFired k g c2

theorem exec_taskFire (hg : s.block.graph k.half k.graph = some g) (hc : s.block.task k = some c) (hphase : c.phase = .ready)
    (hns : ns = sortBy (fun x y => decide (x ≤ y)) ((cores.map (fun n => 40 * halfNum k.half + n.val)).eraseDups))
    (hlength : cores.length = ns.length) (hmay : s.block.mayFire k g c ns = true) (hheld : s.block.held k g (s.block.preview k g c) = false) :
    exec (.taskFire k cores u) s = .next { s with block := s.block.firing k u ns g c } := by
  subst hns
  refine next_of_act (show exec (.taskFire k cores u) s = execTaskFire k cores u s from rfl) ?_
  simp only [hg, hc]
  rw [if_pos ⟨hphase, hlength, hmay, hheld⟩]
  rfl

theorem Block.loadCtx_keeps (b : Block) (h : HalfId) (n : Nat) (c : TaskCtx) (ts : List (List Word)) :
    (b.loadCtx h n c ts).phase = c.phase ∧ (b.loadCtx h n c ts).fired = c.fired ∧ (b.loadCtx h n c ts).cores = c.cores ∧
      (b.loadCtx h n c ts).fireTide = c.fireTide ∧ (b.loadCtx h n c ts).desc = c.desc := by
  simp only [Block.loadCtx]
  split <;> exact ⟨rfl, rfl, rfl, rfl, rfl⟩

/-- A task that fires takes its cores and its Tide, and runs or has ended. -/
theorem taskFire_fires (hg : s.block.graph k.half k.graph = some g) (hc : s.block.task k = some c) (hphase : c.phase = .ready)
    (hns : ns = sortBy (fun x y => decide (x ≤ y)) ((cores.map (fun n => 40 * halfNum k.half + n.val)).eraseDups))
    (hlength : cores.length = ns.length) (hmay : s.block.mayFire k g c ns = true) (hheld : s.block.held k g (s.block.preview k g c) = false) :
    ∃ t d, exec (.taskFire k cores u) s = .next t ∧ t.pending = s.pending ∧ t.block.task k = some d ∧ d.fired = true ∧ d.cores = ns ∧
      d.fireTide = s.block.tide k.half ∧ (d.phase = .running ∨ d.phase = .ended) := by
  have hexec := exec_taskFire (u := u) hg hc hphase hns hlength hmay hheld
  have htask : (s.block.modTask k (fun _ => c.firedOn ns (s.block.tide k.half))).task k = some (c.firedOn ns (s.block.tide k.half)) :=
    Block.modTask_task hc _
  have hfired : FiredOn ((s.block.modTask k (fun _ => c.firedOn ns (s.block.tide k.half))).contextUpset k.half u) k ns (s.block.tide k.half) :=
    FiredOn.of_tables ⟨_, htask, rfl, rfl, rfl, .inl rfl⟩ (Block.contextUpset_tables _ _ _)
  have hloaded (ts : List (List Word)) (prog : List Word) :
      let c2 : TaskCtx := { s.block.loadCtx k.half g.slot (c.firedOn ns (s.block.tide k.half)) ts with prog := prog }
      FiredOn ((((s.block.modTask k (fun _ => c.firedOn ns (s.block.tide k.half))).contextUpset k.half u).modTask k (fun _ => c2)).checkFired k g c2)
        k ns (s.block.tide k.half) := by
    obtain ⟨hp, hf, hcores, htide, -⟩ := s.block.loadCtx_keeps k.half g.slot (c.firedOn ns (s.block.tide k.half)) ts
    have htask2 := Block.modTask_task ((Block.task_eq_of_tables (Block.contextUpset_tables _ k.half u) k).trans htask)
      (fun _ => { s.block.loadCtx k.half g.slot (c.firedOn ns (s.block.tide k.half)) ts with prog := prog })
    exact FiredOn.checkFired ⟨_, htask2, hf, hcores, htide, .inl hp⟩ g htask2
  refine (fun ⟨d, hd, hrest⟩ => ⟨_, d, hexec, rfl, hd, hrest⟩ : FiredOn _ k ns (s.block.tide k.half) → _) ?_
  unfold Block.firing
  dsimp only
  split
  · exact hfired.fix k _ _
  · split
    · exact hfired.fixStop k _
    · split
      · exact hfired.fixStop k _
      · exact hloaded _ _

/-- A task that fires and meets the checks of R42 starts as its type says. -/
theorem taskFire_starts {c1 c2 c3 : TaskCtx} {ts : List (List Word)} {prog : List Word} {b1 b2 : Block}
    (hg : s.block.graph k.half k.graph = some g) (hc : s.block.task k = some c) (hphase : c.phase = .ready)
    (hns : ns = sortBy (fun x y => decide (x ≤ y)) ((cores.map (fun n => 40 * halfNum k.half + n.val)).eraseDups))
    (hlength : cores.length = ns.length) (hmay : s.block.mayFire k g c ns = true) (hheld : s.block.held k g (s.block.preview k g c) = false)
    (hu : u ≠ .uncorrectable) (hpar : u ≠ .parity) (hts : s.block.readTensors (s.block.taskAccess k.half g c) c.desc = .ok ts)
    (hprog : s.block.firedProg k g c = .ok prog) (hc1 : c1 = c.firedOn ns (s.block.tide k.half))
    (hc2 : c2 = { s.block.loadCtx k.half g.slot c1 ts with prog := prog }) (hb1 : b1 = (s.block.modTask k (fun _ => c1)).contextUpset k.half u)
    (hb2 : b2 = b1.modTask k (fun _ => c2)) (hcheck1 : b2.check1 k g c2 = none) (hcheck2 : c2.check2 = none)
    (hgate : c2.desc.gated = false ∨ b2.verdictOf k.half g.slot g.step ≠ some 2) (hc3 : c3 = b2.resolvePolicy k.half g c2)
    (hempty : c3.emptyDetail = none) :
    ∃ t, exec (.taskFire k cores u) s = .next t ∧ t.pending = s.pending ∧ t.block = (b2.modTask k (fun _ => c3)).startTask k g c3 ∧
      c3.phase = .running ∧ c3.fired = true ∧ c3.cores = ns ∧ c3.fireTide = s.block.tide k.half ∧
      (c3.desc.type ∉ [0x01, 0x08] → t.block.task k = some c3) ∧
      (∀ live, c3.desc.type = 0x01 → (b2.modTask k (fun _ => c3)).liveRows ((b2.modTask k (fun _ => c3)).taskAccess k.half g c3) c3 = .ok live →
        t.block.task k = some { c3 with rowMask := live }) := by
  have htask3 : (b2.modTask k (fun _ => c3)).task k = some c3 := by
    have htask1 : b1.task k = some c1 := by
      rw [hb1, Block.task_eq_of_tables (Block.contextUpset_tables _ _ _), Block.modTask_task hc]
    have htask2 : b2.task k = some c2 := by rw [hb2, Block.modTask_task htask1]
    exact Block.modTask_task htask2 _
  have hgate' : ¬ (c2.desc.gated = true ∧ b2.verdictOf k.half g.slot g.step = some 2) := by
    rintro ⟨hgated, hverdict⟩
    obtain hopen | hother := hgate
    · simp [hopen] at hgated
    · exact hother hverdict
  have hstart : b2.checkFired k g c2 = (b2.modTask k (fun _ => c3)).startTask k g c3 := by
    simp only [Block.checkFired, hcheck1, hcheck2]
    rw [if_neg hgate', ← hc3, hempty]
  obtain ⟨hp, hf, hcores, htide, -⟩ := s.block.loadCtx_keeps k.half g.slot c1 ts
  refine ⟨{ s with block := (b2.modTask k (fun _ => c3)).startTask k g c3 }, ?_, rfl, rfl, ?_, ?_, ?_, ?_, fun htype => ?_,
    fun live htype hlive => ?_⟩
  · rw [exec_taskFire hg hc hphase hns hlength hmay hheld, ← hstart, hb2, hb1, hc2, hc1]
    simp only [Block.firing, hu, hpar, or_self, if_false, hts, hprog]
  · rw [hc3, hc2, hc1] at *
    exact hp
  · rw [hc3, hc2, hc1] at *
    exact hf
  · rw [hc3, hc2, hc1] at *
    exact hcores
  · rw [hc3, hc2, hc1] at *
    exact htide
  · rw [Block.task_eq_of_tables (Block.startTask_tables _ _ _ _ htype), htask3]
  · simp only [Block.startTask, htype]
    rw [Block.task_eq_of_tables (Block.startMatrix_tables _ k g c3 hlive), Block.modTask_task htask3]
end

section
variable {s : State} {k : TaskRef} {g : Graph} {c : TaskCtx}

/-- The stall count of one cause, when nothing after it changes registers of the cores. -/
theorem addStalls_one (b : Block) (x : StallCount) : (b.addStalls [x]).reg (stallReg x.core.val x.engine.val x.cause.val) =
    satAdd (b.reg (stallReg x.core.val x.engine.val x.cause.val)) 63 0 x.cycles := by
  rw [Block.addStalls, Block.addStalls, Block.reg_modReg_same]

theorem stallReg_outside (x : StallCount) (h : HalfId) : ¬ endOwn h (stallReg x.core.val x.engine.val x.cause.val) ∧
    pciReg 0x4000 ≤ stallReg x.core.val x.engine.val x.cause.val := by
  cases h <;> simp only [endOwn, stallReg, pciReg, regBase, halfNum] <;> omega

/-- The steps before a record, from the counts of the stalls on. -/
theorem Block.stallsReady (hg : s.block.graph k.half k.graph = some g) (hc : s.block.task k = some c) (hended : c.phase = .ended)
    (stalls : List StallCount) : RecordReady (s.block.addStalls stalls) (((((s.block.addStalls stalls).failConsumers k g).noteEnd k.half g.slot
      g.step c.status c.detail).writeShapes k g c).mergeStats k g c) k g c :=
  Block.recordReady _ ((Block.graph_eq_of_tables (s.block.addStalls_tables stalls) _ _).trans hg)
    ((Block.task_eq_of_tables (s.block.addStalls_tables stalls) k).trans hc) hended

theorem exec_taskEnd {stalls : List StallCount} (hg : s.block.graph k.half k.graph = some g) (hc : s.block.task k = some c)
    (hended : c.phase = .ended) (hinputs : g.inputsRecorded k.task = true) {x : Block}
    (hx : (((((s.block.addStalls stalls).failConsumers k g).noteEnd k.half g.slot g.step c.status c.detail).writeShapes k g c).mergeStats k g
      c).tryRecord k = .written x) : exec (.taskEnd k stalls) s = .next { s with block := x.afterRecord k c } := by
  refine next_of_act (show exec (.taskEnd k stalls) s = execTaskEnd k stalls s from rfl) ?_
  simp only [hg, hc, hended, hinputs, and_self, if_true]
  exact (Block.stallsReady hg hc hended stalls).finishRecord hx

theorem exec_recordWrite (hg : s.block.graph k.half k.graph = some g) (hc : s.block.task k = some c) (hwait : c.phase = .recordWait) {x : Block}
    (hx : s.block.tryRecord k = .written x) : exec (.recordWrite k) s = .next { s with block := (x.modReg (safReg k.half 0x20)
      (fun w => satAdd w 63 0 (cyclesOf (s.block.tide k.half - c.endTide)))).afterRecord k c } :=
  next_of_act (show exec (.recordWrite k) s = execRecordWrite k s from rfl) ((RecordReady.refl s.block hg hc).retryRecord hwait hx)
end

/-- Settles O13: a firing by its checks and its start; a record by what the steps before it leave and what a ring takes. -/
theorem taskLifeCommands : Obligations.TaskLifeCommands := by
  unfold Obligations.TaskLifeCommands
  refine ⟨?_, ?_, ?_, ?_, ?_, ?_⟩
  · intro s k cores u ns g c c1 c2 c3 ts prog b1 b2 hg hc hphase hns hlength hmay hheld hu hpar hts hprog hc1 hc2 hb1 hb2 hcheck1 hcheck2 hgate
      hc3 hempty
    exact taskFire_starts hg hc hphase hns hlength hmay hheld hu hpar hts hprog hc1 hc2 hb1 hb2 hcheck1 hcheck2 hgate hc3 hempty
  · intro s k cores u ns g c hg hc hphase hns hlength hmay hheld
    exact taskFire_fires hg hc hphase hns hlength hmay hheld
  · intro s k stalls g c q hg hc hended hinputs hq he hroom
    have hready := Block.stallsReady hg hc hended stalls
    have hmemory := s.block.addStalls_memory stalls
    have hpair := Block.pair_eq_of_memory hmemory q.val
    obtain ⟨x, hx, hhost, hheld, hmem, hreg⟩ := hready.tryRecord_queue hq (hpair ▸ he) (hpair ▸ hroom)
    obtain ⟨hmem', hhost', hpair', hreg', hrecorded⟩ := Block.written_record (x := x) (t := k) (c := c)
    have hbase : (s.block.addStalls stalls).regFld (pairReg q.val 8) 59 12 = s.block.regFld (pairReg q.val 8) 59 12 := by
      rw [Block.regFld, s.block.addStalls_reg stalls (by simp only [pairReg]; omega), Block.regFld]
    refine ⟨_, exec_taskEnd hg hc hended hinputs hx, rfl, ?_, ?_, hrecorded, ?_, ?_⟩
    · rw [hhost', hhost, hpair, hbase, Block.hostMem_eq_of_memory hmemory]
    · rw [hpair', hheld, hpair]
    · rw [hmem', hmem, Block.mem_eq_of_memory hmemory]
    · rintro x rfl
      obtain ⟨hown, hhigh⟩ := stallReg_outside x k.half
      rw [hreg', hreg _ hhigh, hready.reg _ hown, addStalls_one]
  · intro s k stalls g c cells hg hc hended hinputs hq hroom hcells
    have hready := Block.stallsReady hg hc hended stalls
    have hmemory := s.block.addStalls_memory stalls
    have hcells' : (s.block.addStalls stalls).ringCells k.half g (recordBytes k.graph g c g.phase) = .ok cells := by
      rw [Block.ringCells_eq hmemory (congrArg Tables.slots (s.block.addStalls_tables stalls)) rfl rfl rfl, hcells]
    obtain ⟨x, hx, hmem, hhost, hreg⟩ := hready.tryRecord_ring hq hroom hcells'
    obtain ⟨hmem', hhost', -, hreg', hrecorded⟩ := Block.written_record (x := x) (t := k) (c := c)
    refine ⟨_, exec_taskEnd hg hc hended hinputs hx, rfl, ?_, ?_, hrecorded, ?_⟩
    · rw [hmem', hmem, Block.storeCells_mem_eq hmemory]
    · rw [hhost', hhost, Block.hostMem_eq_of_memory hmemory]
    · rintro x rfl
      obtain ⟨hown, -⟩ := stallReg_outside x k.half
      rw [hreg', hreg, hready.reg _ hown, addStalls_one]
  · intro s k g c q hg hc hwait hq he hroom
    obtain ⟨x, hx, hhost, hheld, hmem, -⟩ := (RecordReady.refl s.block hg hc).tryRecord_queue hq he hroom
    obtain ⟨hmem', hhost', hpair', -, hrecorded⟩ := Block.written_record (x := x.modReg (safReg k.half 0x20)
      (fun w => satAdd w 63 0 (cyclesOf (s.block.tide k.half - c.endTide)))) (t := k) (c := c)
    refine ⟨_, exec_recordWrite hg hc hwait hx, rfl, ?_, ?_, hrecorded, ?_⟩
    · rw [hhost', Block.modReg_hostMem, hhost]
    · rw [hpair', Block.pair_eq_of_memory (Block.modReg_memory _ _ _), hheld]
    · rw [hmem', Block.modReg_mem, hmem]
  · intro s k g c cells hg hc hwait hq hroom hcells
    obtain ⟨x, hx, hmem, hhost, -⟩ := (RecordReady.refl s.block hg hc).tryRecord_ring hq hroom hcells
    obtain ⟨hmem', hhost', -, -, hrecorded⟩ := Block.written_record (x := x.modReg (safReg k.half 0x20)
      (fun w => satAdd w 63 0 (cyclesOf (s.block.tide k.half - c.endTide)))) (t := k) (c := c)
    refine ⟨_, exec_recordWrite hg hc hwait hx, ?_, ?_, hrecorded⟩
    · rw [hmem', Block.modReg_mem, hmem]
    · rw [hhost', Block.modReg_hostMem, hhost]

/-! ## What a move of pages and frames keeps (R202-R209) -/

/-- A change of translations, frames and cache objects alone: memory, registers, graphs, links, lenders and the host's directory stay. -/
structure Remapped (b c : Block) : Prop where
  memory : c.memory = b.memory
  regs : c.regs = b.regs
  graphs : ∀ h, (c.half h).graphs = (b.half h).graphs
  efing : ∀ h, (c.half h).efing = (b.half h).efing
  mainland : ∀ h, (c.tiers h).mainland = (b.tiers h).mainland
  domain : c.domain = b.domain

section
variable {b c d : Block} {t : TaskRef} {ty status : Nat} {g : Graph} {x : TaskCtx}

theorem Remapped.refl (b : Block) : Remapped b b := ⟨rfl, rfl, fun _ => rfl, fun _ => rfl, fun _ => rfl, rfl⟩

theorem Remapped.trans (m : Remapped b c) (n : Remapped c d) : Remapped b d :=
  ⟨n.memory.trans m.memory, n.regs.trans m.regs, fun h => (n.graphs h).trans (m.graphs h), fun h => (n.efing h).trans (m.efing h),
    fun h => (n.mainland h).trans (m.mainland h), n.domain.trans m.domain⟩

theorem Remapped.graph (m : Remapped b c) (h : HalfId) (i : Nat) : c.graph h i = b.graph h i := by
  rw [Block.graph, Block.graph, m.graphs h]

theorem Remapped.task (m : Remapped b c) (t : TaskRef) : c.task t = b.task t := by
  rw [Block.task, Block.task, m.graph]

theorem Remapped.runs (m : Remapped b c) (h : Runs b t ty g x) : Runs c t ty g x := by
  obtain ⟨hg, hx, hrest⟩ := h
  exact ⟨(m.graph _ _).trans hg, (m.task t).trans hx, hrest⟩

theorem Remapped.tasksOf (m : Remapped b c) (h : HalfId) : c.tasksOf h = b.tasksOf h := by
  rw [Block.tasksOf, Block.tasksOf, m.graphs h]

theorem Remapped.noRecordWaits (m : Remapped b c) {job : Nat} (h : NoRecordWaits b job) : NoRecordWaits c job :=
  fun i p hp => h i p (m.tasksOf i ▸ hp)

/-- A task that ends on what a move left. -/
theorem Remapped.fix (m : Remapped b c) (h : Runs b t ty g x) (status detail : Nat) :
    Ended (c.fix t status detail) t status ∧ (c.fix t status detail).mem = b.mem ∧ (c.fix t status detail).regs = b.regs :=
  ⟨((m.runs h).heads status).fix detail, (Block.mem_eq_of_memory (Block.fix_memory _ _ _ _)).trans (Block.mem_eq_of_memory m.memory),
    (Block.fix_regs _ _ _ _).trans m.regs⟩
end

section
variable (b : Block)

theorem Block.half_modTiers (h i : HalfId) (f : Tiers → Tiers) :
    (b.modTiers h f).half i = if i = h then { b.half i with tiers := f (b.half i).tiers } else b.half i := by
  split
  · next hi =>
    subst hi
    rw [Block.modTiers, Block.half_modHalf_same]
  · next hi => rw [Block.modTiers, Block.half_modHalf_other _ _ _ _ hi]

theorem Block.tiers_modTiers (h i : HalfId) (f : Tiers → Tiers) : (b.modTiers h f).tiers i = if i = h then f (b.tiers i) else b.tiers i := by
  rw [Block.tiers, Block.half_modTiers]
  split <;> rfl

theorem Block.modSlot_remaps (k : Nat) (f : JobSlot → JobSlot) : Remapped b (b.modSlot k f) :=
  ⟨b.modSlot_memory k f, rfl, fun h => congrArg Half.graphs (b.modSlot_half k f h), fun h => congrArg Half.efing (b.modSlot_half k f h),
    fun h => congrArg (fun x => x.tiers.mainland) (b.modSlot_half k f h), rfl⟩

theorem Block.modTiers_remaps (h : HalfId) {f : Tiers → Tiers} (hf : ∀ t, (f t).mainland = t.mainland) : Remapped b (b.modTiers h f) := by
  refine ⟨b.modTiers_memory h f, b.modTiers_regs h f, fun i => ?_, fun i => ?_, fun i => ?_, Block.modHalf_domain _ _ _⟩
  · rw [Block.half_modTiers]
    split <;> rfl
  · rw [Block.half_modTiers]
    split <;> rfl
  · rw [Block.tiers_modTiers]
    split
    · exact hf _
    · rfl

theorem Block.removePages_remaps (k : Nat) (l : List Nat) : Remapped b (b.removePages k l) := by
  induction l generalizing b with
  | nil => exact .refl b
  | cons i is ih => exact (b.modSlot_remaps k _).trans (ih _)

theorem Block.addPages_remaps (k : Nat) (l : List (Nat × Page)) : Remapped b (b.addPages k l) := by
  induction l generalizing b with
  | nil => exact .refl b
  | cons p ps ih => exact (b.modSlot_remaps k _).trans (ih _)

theorem Block.freeFrames_remaps (l : List Nat) : Remapped b (b.freeFrames l) := by
  induction l generalizing b with
  | nil => exact .refl b
  | cons f fs ih =>
    refine Remapped.trans ?_ (ih _)
    exact b.modTiers_remaps _ fun _ => rfl

theorem Block.modObject_remaps (i : Nat) (f : CacheObject → CacheObject) : Remapped b (b.modObject i f) := by
  rw [Block.modObject]
  split
  · exact .refl b
  · exact b.modTiers_remaps _ fun _ => rfl

theorem Block.freeObject_remaps (i : Nat) : Remapped b (b.freeObject i) := by
  rw [Block.freeObject]
  split
  · exact .refl b
  · exact (b.freeFrames_remaps _).trans (Block.modTiers_remaps _ _ fun _ => rfl)

theorem Block.reapObject_remaps (i : Nat) : Remapped b (b.reapObject i) := by
  rw [Block.reapObject]
  split
  · exact .refl b
  · split
    · exact b.freeObject_remaps i
    · exact .refl b

theorem Block.dropMapping_remaps (i : Nat) (m : Nat × Nat) : Remapped b (b.dropMapping i m) := by
  rw [Block.dropMapping]
  split
  · exact .refl b
  · exact ((b.removePages_remaps _ _).trans (Block.modObject_remaps _ _ _)).trans (Block.reapObject_remaps _ _)

theorem Block.dropMappings_remaps (i : Nat) (ms : List (Nat × Nat)) : Remapped b (b.dropMappings i ms) := by
  induction ms generalizing b with
  | nil => exact .refl b
  | cons m ms ih => exact (b.dropMapping_remaps i m).trans (ih _)

theorem Block.unmapObject_remaps (i : Nat) : Remapped b (b.unmapObject i) := by
  rw [Block.unmapObject]
  split
  · exact .refl b
  · exact b.dropMappings_remaps i _

theorem Block.unmapPages_remaps (k : Nat) (l : List Nat) : Remapped b (b.unmapPages k l) := by
  induction l generalizing b with
  | nil => exact .refl b
  | cons key keys ih =>
    rw [Block.unmapPages]
    split
    · exact ih b
    · split
      · exact ((b.modSlot_remaps k _).trans (Block.freeFrames_remaps _ _)).trans (ih _)
      · exact ((b.dropMapping_remaps _ _).trans (Block.modSlot_remaps _ k _)).trans (ih _)
end

/-! ### Allocation (R205, R207) -/

section
variable {b c : Block} {h : HalfId} {tier k owner n : Nat} {big : Bool} {frames : List Nat}

theorem Block.place_mainland {r : List Nat × Tiers} (e : b.place h tier big owner n = some r) : r.2.mainland = (b.tiers h).mainland := by
  simp only [Block.place] at e
  split at e
  · split at e <;> cases e
    rfl
  · split at e <;> cases e
    rfl

theorem Block.placed_remaps {r : List Nat × Tiers} (e : b.place h tier big owner n = some r) : Remapped b (b.modTiers h (fun _ => r.2)) := by
  have hone := b.modTiers_remaps h (f := fun t => { r.2 with mainland := t.mainland }) fun _ => rfl
  have htiers : (b.modTiers h fun _ => r.2) = b.modTiers h fun _ => { r.2 with mainland := (b.tiers h).mainland } := by
    rw [← Block.place_mainland e]
  have hsame : (b.modTiers h fun _ => { r.2 with mainland := (b.tiers h).mainland }) = b.modTiers h fun t => { r.2 with mainland := t.mainland } := by
    cases h <;> rfl
  exact htiers.trans hsame ▸ hone

theorem Block.allocPool_placed {fuel : Nat} (e : b.allocPool h tier big owner n fuel = .ok frames c) :
    ∃ b1 r, Remapped b b1 ∧ b1.place h tier big owner n = some r ∧ frames = r.1 ∧ c = b1.modTiers h fun _ => r.2 := by
  induction fuel generalizing b with
  | zero => cases e
  | succ fuel ih =>
    rw [Block.allocPool] at e
    split at e
    · next r hr =>
      cases e
      exact ⟨b, r, .refl b, hr, rfl, rfl⟩
    · split at e
      · cases e
      · obtain ⟨b1, r, hb1, hr⟩ := ih e
        exact ⟨b1, r, (b.unmapObject_remaps _).trans hb1, hr⟩

/-- What is allocated is placed, once eviction has made room for it. -/
theorem Block.allocate_placed (e : b.allocate h tier k big owner n = .ok frames c) :
    ∃ b1 r, Remapped b b1 ∧ b1.place h tier big owner n = some r ∧ frames = r.1 ∧ c = b1.modTiers h fun _ => r.2 := by
  have hways : (∃ r, b.place h tier big owner n = some r ∧ frames = r.1 ∧ c = b.modTiers h fun _ => r.2) ∨
      b.allocPool h tier big owner n ((b.tiers h).objects.length + 1) = .ok frames c := by
    grind [Block.allocate]
  obtain ⟨r, hr, hframes, hc⟩ | hpool := hways
  · exact ⟨b, r, .refl b, hr, hframes, hc⟩
  · exact Block.allocPool_placed hpool

theorem Block.allocate_remaps (e : b.allocate h tier k big owner n = .ok frames c) : Remapped b c := by
  obtain ⟨b1, r, hb1, hr, -, rfl⟩ := Block.allocate_placed e
  exact hb1.trans (Block.placed_remaps hr)

theorem lowestFree_aligned {fr : Tab Nat} {base m f : Nat} (hbase : frameSize ∣ base) (e : lowestFree fr base m = some f) : frameSize ∣ f := by
  obtain ⟨i, -, rfl⟩ := Option.map_eq_some_iff.mp e
  exact Nat.dvd_add hbase (Nat.dvd_mul_left _ _)

/-! The equations of the two placements, for a count of frames that nothing unfolds. -/

theorem placeShelf_succ (owner base m : Nat) (fr : Tab Nat) : placeShelf owner base (m + 1) fr = (lowestFree fr base 4014).bind
    fun f => (placeShelf owner base m (tabPut fr f owner)).map (fun r => (f :: r.1, r.2)) := by
  delta placeShelf placeShelf._f
  generalize 4014 = count
  generalize hx : lowestFree fr base count = x
  cases x <;> simp [hx]

theorem placeRegions_succ (owner base m : Nat) (fr : Tab Nat) : placeRegions owner base (m + 1) fr =
    ((List.range 7).find? (fun g => (regionFrames (base + g * 0x40000000)).all (fun f => (tabFind fr f).isNone))).bind fun g =>
      (placeRegions owner base m ((regionFrames (base + g * 0x40000000)).foldl (fun t f => tabPut t f owner) fr)).map
        (fun q => ((base + g * 0x40000000) :: q.1, q.2)) := by
  delta placeRegions placeRegions._f
  generalize 0x40000000 = size
  generalize hx : (List.range 7).find? (fun g => (regionFrames (base + g * size)).all (fun f => (tabFind fr f).isNone)) = x
  cases x <;> simp [hx]

theorem placeShelf_aligned {base : Nat} (hbase : frameSize ∣ base) {m : Nat} {fr : Tab Nat} {r : List Nat × Tab Nat}
    (e : placeShelf owner base m fr = some r) : ∀ f ∈ r.1, frameSize ∣ f := by
  induction m generalizing fr r with
  | zero =>
    cases e
    exact fun f hf => nomatch hf
  | succ m ih =>
    rw [placeShelf_succ] at e
    obtain ⟨f, hf, e⟩ := Option.bind_eq_some_iff.mp e
    obtain ⟨q, hq, rfl⟩ := Option.map_eq_some_iff.mp e
    exact List.forall_mem_cons.mpr ⟨lowestFree_aligned hbase hf, ih hq⟩

theorem placeRegions_aligned {base : Nat} (hbase : frameSize ∣ base) {m : Nat} {fr : Tab Nat} {r : List Nat × Tab Nat}
    (e : placeRegions owner base m fr = some r) : ∀ f ∈ r.1, frameSize ∣ f := by
  induction m generalizing fr r with
  | zero =>
    cases e
    exact fun f hf => nomatch hf
  | succ m ih =>
    rw [placeRegions_succ] at e
    obtain ⟨i, -, e⟩ := Option.bind_eq_some_iff.mp e
    obtain ⟨q, hq, rfl⟩ := Option.map_eq_some_iff.mp e
    have hregion : frameSize ∣ i * 0x40000000 := Nat.dvd_mul_left_of_dvd (by decide) i
    exact List.forall_mem_cons.mpr ⟨Nat.dvd_add hbase hregion, ih hq⟩

theorem placeBay_aligned {live : List Nat} {n0 m i last : Nat} {fr : Tab Nat} {r : List Nat × Tab Nat × Nat}
    (e : placeBay owner h live n0 m i last fr = some r) : ∀ f ∈ r.1, frameSize ∣ f := by
  induction m generalizing i last fr r with
  | zero =>
    cases e
    exact fun f hf => nomatch hf
  | succ m ih =>
    rw [placeBay] at e
    split at e
    · cases e
    · next c f hplace =>
      split at e
      · cases e
      · next q hq =>
        cases e
        have hf : frameSize ∣ f := by
          obtain ⟨a, ha, hfree⟩ := List.exists_of_findSome?_eq_some hplace
          obtain ⟨f', hf', he⟩ := Option.map_eq_some_iff.mp hfree
          cases he
          refine lowestFree_aligned ?_ hf'
          exact Nat.dvd_add (by decide) (Nat.dvd_mul_left_of_dvd (by decide) _)
        exact List.forall_mem_cons.mpr ⟨hf, ih hq⟩

/-- Frames are taken whole. -/
theorem Block.place_aligned {r : List Nat × Tiers} (e : b.place h tier big owner n = some r) : ∀ f ∈ r.1, frameSize ∣ f := by
  have hshelf : frameSize ∣ shelfBase h := Nat.dvd_add (by decide) (Nat.dvd_mul_left_of_dvd (by decide) _)
  simp only [Block.place] at e
  split at e
  · split at e <;> cases e
    next q hq =>
    split at hq
    · exact placeRegions_aligned hshelf hq
    · exact placeShelf_aligned hshelf hq
  · split at e <;> cases e
    next q hq => exact placeBay_aligned hq

theorem Block.allocate_aligned (e : b.allocate h tier k big owner n = .ok frames c) : ∀ f ∈ frames, frameSize ∣ f := by
  obtain ⟨b1, r, -, hr, rfl, -⟩ := Block.allocate_placed e
  exact Block.place_aligned hr
end

/-! ### The translations of a slot (R202, R206) -/

section
variable {b c d : Block}

/-- A page that a block does not list, another does not list either. -/
def Unlists (b c : Block) : Prop := ∀ k key, tabFind (b.slot k).pages key = none → tabFind (c.slot k).pages key = none

theorem Unlists.trans (u : Unlists b c) (v : Unlists c d) : Unlists b d := fun k key h => v k key (u k key h)

theorem Unlists.of_slots (e : c.slots = b.slots) : Unlists b c := fun k key h => by rw [Block.slot_eq_of_slots e, h]

variable (b : Block)

theorem Block.slot_removePage (k i key : Nat) :
    ((b.removePage k key).slot i).pages = if i = k then tabDel (b.slot i).pages key else (b.slot i).pages := by
  rw [Block.removePage, Block.slot_modSlot]
  by_cases hik : i = k
  · by_cases hlt : i < b.slots.length
    · rw [if_pos ⟨hik, hlt⟩, if_pos hik]
    · have hout : b.slot i = JobSlot.reset := List.getD_eq_default _ _ (Nat.le_of_not_lt hlt)
      rw [if_neg fun h => hlt h.2, if_pos hik, hout]
      rfl
  · rw [if_neg fun h => hik h.1, if_neg hik]

theorem Block.removePage_unlists (k key : Nat) : Unlists b (b.removePage k key) := by
  intro i j h
  rw [Block.slot_removePage]
  split
  · by_cases hj : j = key
    · rw [hj, tabFind_tabDel_same]
    · rw [tabFind_tabDel_other _ _ _ hj, h]
  · exact h

theorem Block.removePages_unlists (k : Nat) (l : List Nat) : Unlists b (b.removePages k l) := by
  induction l generalizing b with
  | nil => exact fun _ _ h => h
  | cons i is ih => exact (b.removePage_unlists k i).trans (ih _)

theorem Block.removePage_gone (k key : Nat) : tabFind ((b.removePage k key).slot k).pages key = none := by
  rw [Block.slot_removePage, if_pos rfl, tabFind_tabDel_same]

theorem Block.removePages_gone (k : Nat) {l : List Nat} {key : Nat} (h : key ∈ l) : tabFind ((b.removePages k l).slot k).pages key = none := by
  induction l generalizing b with
  | nil => cases h
  | cons i is ih =>
    rcases List.mem_cons.mp h with rfl | hin
    · exact Block.removePages_unlists _ k is k key (b.removePage_gone k key)
    · exact ih _ hin

theorem Block.dropMapping_slots {i : Nat} {o : CacheObject} (ho : b.object i = some o) (m : Nat × Nat) :
    (b.dropMapping i m).slots = (b.removePages m.1 (o.pageKeys m.2)).slots := by
  simp only [Block.dropMapping, ho]
  exact (congrArg Tables.slots (Block.reapObjects_tables _ [i])).trans (congrArg Tables.slots (Block.modObject_tables _ i _))

theorem Block.dropMapping_unlists (i : Nat) (m : Nat × Nat) : Unlists b (b.dropMapping i m) := by
  cases ho : b.object i with
  | none => exact .of_slots (by rw [Block.dropMapping, ho])
  | some o => exact (b.removePages_unlists _ _).trans (.of_slots (b.dropMapping_slots ho m))

theorem Block.freeFrames_slots (l : List Nat) : (b.freeFrames l).slots = b.slots := congrArg Tables.slots (b.freeFrames_tables l)

/-- A page that is unmapped, and what follows from its going. -/
theorem Block.unmapPages_cons (k key : Nat) (keys : List Nat) :
    ∃ c, b.unmapPages k (key :: keys) = c.unmapPages k keys ∧ Unlists b c ∧ tabFind (c.slot k).pages key = none := by
  rw [Block.unmapPages]
  split
  · next h => exact ⟨b, rfl, fun _ _ h => h, h⟩
  · split
    · refine ⟨_, rfl, (b.removePage_unlists k key).trans (.of_slots (Block.freeFrames_slots _ _)), ?_⟩
      rw [Block.slot_eq_of_slots (Block.freeFrames_slots _ _)]
      exact b.removePage_gone k key
    · exact ⟨_, rfl, (b.dropMapping_unlists _ _).trans (Block.removePage_unlists _ k key), Block.removePage_gone _ k key⟩

theorem Block.unmapPages_unlists (k : Nat) (l : List Nat) : Unlists b (b.unmapPages k l) := by
  induction l generalizing b with
  | nil => exact fun _ _ h => h
  | cons key keys ih =>
    obtain ⟨c, hc, hone, -⟩ := b.unmapPages_cons k key keys
    exact hc ▸ hone.trans (ih c)

theorem Block.unmapPages_gone (k : Nat) {l : List Nat} {key : Nat} (h : key ∈ l) : tabFind ((b.unmapPages k l).slot k).pages key = none := by
  induction l generalizing b with
  | nil => cases h
  | cons i is ih =>
    obtain ⟨c, hc, -, hgone⟩ := b.unmapPages_cons k i is
    rw [hc]
    rcases List.mem_cons.mp h with rfl | hin
    · exact c.unmapPages_unlists k is k key hgone
    · exact ih c hin

theorem Block.addPages_other (k : Nat) {l : List (Nat × Page)} {key : Nat} (h : key ∉ l.map Prod.fst) :
    tabFind ((b.addPages k l).slot k).pages key = tabFind (b.slot k).pages key := by
  induction l generalizing b with
  | nil => rfl
  | cons p ps ih =>
    obtain ⟨hp, hps⟩ : key ≠ p.1 ∧ key ∉ ps.map Prod.fst := by simpa using h
    rw [Block.addPages, ih _ hps, Block.slot_modSlot]
    split
    · exact tabFind_tabPut_other _ _ _ _ hp
    · rfl

/-- Pages of different keys are each listed as given. -/
theorem Block.addPages_listed {k : Nat} (hk : k < b.slots.length) {l : List (Nat × Page)} (hl : (l.map Prod.fst).Nodup) {p : Nat × Page}
    (hp : p ∈ l) : tabFind ((b.addPages k l).slot k).pages p.1 = some p.2 := by
  induction l generalizing b with
  | nil => cases hp
  | cons q qs ih =>
    obtain ⟨hq, hqs⟩ : q.1 ∉ qs.map Prod.fst ∧ (qs.map Prod.fst).Nodup := List.nodup_cons.mp hl
    rcases List.mem_cons.mp hp with rfl | hin
    · rw [Block.addPages, Block.addPages_other _ k hq, Block.slot_modSlot, if_pos ⟨rfl, hk⟩, tabFind_tabPut_same]
    · exact ih _ (by rwa [Block.modSlot, length_listMod]) hqs hin

theorem Block.fix_slots (t : TaskRef) (status detail : Nat) : (b.fix t status detail).slots = b.slots := by
  obtain ⟨h, -⟩ | ⟨x, f, -, -, -, -, h⟩ := b.fix_tables t status detail
  · exact congrArg Tables.slots h
  · exact (congrArg Tables.slots h).trans (b.modTask_slots t f)
end

/-! ### The pages of a move -/

section
variable (d : TaskDesc)

/-- A page is a whole number of frames. -/
theorem pageSize_eq : ∃ m, 0 < m ∧ d.pageSize = m * frameSize := by
  rw [TaskDesc.pageSize]
  split
  · exact ⟨512, by decide, rfl⟩
  · exact ⟨1, by decide, (Nat.one_mul _).symm⟩

theorem pageKey_injective : Function.Injective fun i => (d.moveVa + i * d.pageSize) / frameSize := by
  obtain ⟨m, hm, hsize⟩ := pageSize_eq d
  intro i j h
  simp only [hsize, ← Nat.mul_assoc, Nat.add_mul_div_right _ _ (by decide : 0 < frameSize)] at h
  exact Nat.eq_of_mul_eq_mul_right hm (by omega)

theorem farPages_nodup (n : Nat) : ((farPages d n).map Prod.fst).Nodup := by
  rw [farPages, List.map_map]
  exact List.nodup_range.map (pageKey_injective d)

/-- Numbers given to a list's elements. -/
theorem zip_range_map_snd {α β : Type} (l : List α) (f : Nat → β) :
    (l.zip (List.range l.length)).map (fun p => f p.2) = (List.range l.length).map f := by
  have hzip : (l.zip (List.range l.length)).map Prod.snd = List.range l.length := List.map_snd_zip (by simp)
  conv_rhs => rw [← hzip]
  rw [List.map_map]
  rfl

theorem homePages_nodup (frames : List Nat) : ((homePages d frames).map Prod.fst).Nodup := by
  have hkeys : (homePages d frames).map Prod.fst = (List.range frames.length).map fun i => (d.moveVa + i * d.pageSize) / frameSize := by
    rw [homePages, List.map_map]
    exact zip_range_map_snd frames fun i => (d.moveVa + i * d.pageSize) / frameSize
  rw [hkeys]
  exact List.nodup_range.map (pageKey_injective d)

theorem objectPages_nodup (handle va : Nat) (noPf : Bool) (frames : List Nat) : ((objectPages handle va noPf frames).map Prod.fst).Nodup := by
  have hkeys : (objectPages handle va noPf frames).map Prod.fst = (List.range frames.length).map fun i => va / frameSize + i := by
    rw [objectPages, List.map_map]
    exact zip_range_map_snd frames fun i => va / frameSize + i
  rw [hkeys]
  exact List.nodup_range.map fun i j h => Nat.add_left_cancel h
end

/-! ### Records that wait for none (R48) -/

section
variable {b : Block} {job : Nat}

theorem NoRecordWaits.retryJob (h : NoRecordWaits b job) : b.retryJob job = b := by
  have hnone (i : HalfId) : (b.tasksOf i).filter (fun p => p.2.1.job = job && p.2.2.phase = .recordWait) = [] := by
    refine List.filter_eq_nil_iff.mpr fun p hp hwaits => ?_
    obtain ⟨hjob, hphase⟩ : p.2.1.job = job ∧ p.2.2.phase = .recordWait := by simpa using hwaits
    exact h i p hp hjob hphase
  simp only [Block.retryJob, hnone, List.map_nil, Block.retryRecords]

theorem Block.tasksOf_eq_of_tables {c : Block} (e : c.tables = b.tables) (h : HalfId) : c.tasksOf h = b.tasksOf h := by
  rw [Block.tasksOf, Block.tasksOf, show (c.half h).graphs = (b.half h).graphs from congrFun (congrArg Tables.graphs e) h]

/-- A half's tasks are told by its graphs. -/
theorem Block.mem_tasksOf_iff {h : HalfId} {p : TaskRef × Graph × TaskCtx} :
    p ∈ b.tasksOf h ↔ ∃ i, (i, p.2.1) ∈ (b.half h).graphs ∧ p.1.half = h ∧ p.1.graph = i ∧ p.2.1.tasks[p.1.task]? = some p.2.2 := by
  obtain ⟨⟨ph, pg, pt⟩, g, c⟩ := p
  simp only [Block.tasksOf, List.mem_flatten, List.mem_map]
  constructor
  · rintro ⟨l, ⟨e, he, rfl⟩, hin⟩
    obtain ⟨q, hq, hp⟩ := List.mem_map.mp hin
    cases hp
    obtain ⟨n, hn, hval⟩ := List.mem_iff_getElem.mp hq
    simp only [List.getElem_zip, List.getElem_range] at hval
    subst hval
    exact ⟨e.1, he, rfl, rfl, List.getElem?_eq_getElem _⟩
  · rintro ⟨i, hi, rfl, rfl, htask⟩
    obtain ⟨hlt, hval⟩ := List.getElem?_eq_some_iff.mp htask
    refine ⟨_, ⟨_, hi, rfl⟩, List.mem_map.mpr ⟨(c, pt), ?_, rfl⟩⟩
    exact List.mem_iff_getElem.mpr ⟨pt, by simpa using hlt, by simp [hval]⟩

/-- A context that changes otherwise than into a wait leaves none waiting. -/
theorem NoRecordWaits.modTask (h : NoRecordWaits b job) (t : TaskRef) {f : TaskCtx → TaskCtx}
    (hf : ∀ c, b.task t = some c → (f c).phase = .recordWait → c.phase = .recordWait) : NoRecordWaits (b.modTask t f) job := by
  rintro i ⟨u, y, x⟩ hp hjob hwait
  obtain ⟨j, hmem, hhalf, hgraph, htask⟩ := Block.mem_tasksOf_iff.mp hp
  have hold (hin : (j, y) ∈ (b.half i).graphs) : False :=
    h i (u, y, x) (Block.mem_tasksOf_iff.mpr ⟨j, hin, hhalf, hgraph, htask⟩) hjob hwait
  rw [Block.modTask, Block.modGraph] at hmem
  split at hmem
  · exact hold hmem
  · next g hg =>
    by_cases hi : i = t.half
    · subst hi
      rw [Block.half_modHalf_same] at hmem
      rcases mem_tabPut _ _ _ _ hmem with he | hin
      · obtain ⟨rfl, rfl⟩ := Prod.mk.inj he
        have hg' : (t.graph, g) ∈ (b.half t.half).graphs := mem_of_tabFind hg
        simp only [getElem?_listMod] at htask
        split at htask
        · next hut =>
          obtain ⟨z, hz, rfl⟩ := Option.map_eq_some_iff.mp htask
          refine h t.half (u, g, z) (Block.mem_tasksOf_iff.mpr ⟨_, hg', hhalf, hgraph, hz⟩) hjob (hf z ?_ hwait)
          simpa only [Block.task, hg, ← hut] using hz
        · exact h t.half (u, g, x) (Block.mem_tasksOf_iff.mpr ⟨_, hg', hhalf, hgraph, htask⟩) hjob hwait
      · exact hold hin
    · rw [Block.half_modHalf_other _ _ _ _ hi] at hmem
      exact hold hmem

theorem NoRecordWaits.fix (h : NoRecordWaits b job) (t : TaskRef) (status detail : Nat) : NoRecordWaits (b.fix t status detail) job := by
  have hkeep {c : Block} (hc : NoRecordWaits c job) (e : (b.fix t status detail).tables = c.tables) : NoRecordWaits (b.fix t status detail) job :=
    fun i p hp => hc i p (Block.tasksOf_eq_of_tables e i ▸ hp)
  obtain ⟨e, -⟩ | ⟨x, f, hx, -, hended, -, e⟩ := b.fix_tables t status detail
  · exact hkeep h e
  · refine hkeep (h.modTask t fun c hc hwait => ?_) e
    obtain rfl := Option.some.inj (hx.symm.trans hc)
    simp [hended] at hwait
end

/-! ### Frames that become zero (R205) -/

section
variable (b : Block)

theorem Block.zeroFrame_half (f size : Nat) (h : HalfId) : (b.zeroFrame f size).half h = b.half h := by
  cases h <;> rfl

theorem Block.zeroFrames_half (size : Nat) (fs : List Nat) (h : HalfId) : (b.zeroFrames size fs).half h = b.half h := by
  induction fs generalizing b with
  | nil => rfl
  | cons f fs ih => exact (ih _).trans (b.zeroFrame_half f size h)

theorem Block.zeroFrames_regs (size : Nat) (fs : List Nat) : (b.zeroFrames size fs).regs = b.regs := by
  induction fs generalizing b with
  | nil => rfl
  | cons f fs ih => exact ih _

theorem Block.zeroFrames_domain (size : Nat) (fs : List Nat) : (b.zeroFrames size fs).domain = b.domain := by
  induction fs generalizing b with
  | nil => rfl
  | cons f fs ih => exact ih _

theorem Block.zeroFrames_slots (size : Nat) (fs : List Nat) : (b.zeroFrames size fs).slots = b.slots := by
  induction fs generalizing b with
  | nil => rfl
  | cons f fs ih => exact ih _

/-- Zeroed frames change nothing of the graphs. -/
theorem Block.zeroFrames_runs (size : Nat) (fs : List Nat) {t : TaskRef} {ty : Nat} {g : Graph} {c : TaskCtx} (h : Runs b t ty g c) :
    Runs (b.zeroFrames size fs) t ty g c := by
  simp only [Runs, Block.task, Block.graph, Block.zeroFrames_half] at h ⊢
  exact h

theorem Block.zeroFrames_noRecordWaits (size : Nat) (fs : List Nat) {job : Nat} (h : NoRecordWaits b job) :
    NoRecordWaits (b.zeroFrames size fs) job := fun i p hp => h i p (by
  rw [Block.tasksOf, Block.zeroFrames_half] at hp
  exact hp)

/-- A byte of a frame becomes zero, any other stays: a frame is whole lines of the pattern that training left. -/
theorem Block.zeroFrame_byte {f size : Nat} (hf : frameSize ∣ f) (hsize : frameSize ∣ size) (a : Nat) :
    (b.zeroFrame f size).byte a = if f ≤ a ∧ a < f + size then 0 else b.byte a := by
  have hmem : tabFind (b.zeroFrame f size).mem a = if f ≤ a ∧ a < f + size then none else tabFind b.mem a := by
    refine (tabFind_filter_key b.mem (fun x => !(decide (f ≤ x) && decide (x < f + size))) a).trans ?_
    rw [← Bool.decide_and]
    by_cases hin : f ≤ a ∧ a < f + size
    · rw [decide_eq_true hin, if_pos hin]
      rfl
    · rw [decide_eq_false hin, if_neg hin]
      rfl
  have hbase : (f ≤ a / 0x200000 * 0x200000 ∧ a / 0x200000 * 0x200000 < f + size) ↔ (f ≤ a ∧ a < f + size) := by
    obtain ⟨x, rfl⟩ := hf
    obtain ⟨y, rfl⟩ := hsize
    rw [frameSize]
    omega
  have hfill : (b.zeroFrame f size).fill.contains (a / 0x200000 * 0x200000) =
      (b.fill.contains (a / 0x200000 * 0x200000) && !(decide (f ≤ a ∧ a < f + size))) := by
    rw [Bool.eq_iff_iff]
    simp only [Block.zeroFrame, List.contains_iff_mem, List.mem_filter, Bool.and_eq_true, Bool.not_eq_true', Bool.and_eq_false_iff,
      decide_eq_false_iff_not, ← hbase]
    tauto
  have hrest : (b.zeroFrame f size).rest a = if f ≤ a ∧ a < f + size then 0 else b.rest a := by
    simp only [Block.rest, hfill]
    by_cases hin : f ≤ a ∧ a < f + size <;> simp [hin]
  rw [Block.byte, tabGet, hmem, hrest]
  by_cases hin : f ≤ a ∧ a < f + size
  · simp [hin]
  · simp [hin, Block.byte, tabGet]

theorem Block.zeroFrames_byte {size : Nat} (hsize : frameSize ∣ size) {fs : List Nat} (hfs : ∀ f ∈ fs, frameSize ∣ f) (a : Nat) :
    (b.zeroFrames size fs).byte a = if ∃ f ∈ fs, f ≤ a ∧ a < f + size then 0 else b.byte a := by
  induction fs generalizing b with
  | nil => simp [Block.zeroFrames]
  | cons f fs ih =>
    obtain ⟨hf, hrest⟩ := List.forall_mem_cons.mp hfs
    rw [Block.zeroFrames, ih _ hrest, b.zeroFrame_byte hf hsize]
    by_cases hin : f ≤ a ∧ a < f + size <;> simp [hin]
end

/-! ### Maps and unmaps (R205, R206) -/

section
variable {s : State} {k : TaskRef} {g : Graph} {c : TaskCtx}

/-- Pages that are mapped as a MAP ends. -/
theorem Block.mapped_listed {b : Block} {n : Nat} (hn : n < b.slots.length) {l : List (Nat × Page)} (hl : (l.map Prod.fst).Nodup) (status detail : Nat) :
    ∀ p ∈ l, tabFind (((b.addPages n l).fix k status detail).slot n).pages p.1 = some p.2 := fun p hp => by
  rw [Block.slot_eq_of_slots (Block.fix_slots _ k status detail), b.addPages_listed hn hl hp]

theorem Shaped.slot_lt {b : Block} (h : Shaped b) (n : Fin 16) : n.val < b.slots.length := by
  obtain ⟨hslots, -⟩ := h
  rw [hslots]
  exact n.isLt

theorem exec_map (h : Runs s.block k 0x06 g c) (hmode : c.desc.moveMode = 1) {y : Block} (hy : s.block.doMap k g c = y) (hn : NoRecordWaits y g.job) :
    exec (.map k) s = .next { s with block := y } := by
  refine next_of_act (show exec (.map k) s = execMap k s from rfl) ?_
  rw [h.onMode 1 hmode, hy, hn.retryJob]

theorem map_far {i : Nat} (h : Runs s.block k 0x06 g c) (hmode : c.desc.moveMode = 1) (hshaped : Shaped s.block) (hnone : NoRecordWaits s.block g.job)
    (hfree : anyMapped (s.block.slot g.slot).pages c.desc.moveVa c.desc.moveLength = false)
    (hroom : s.block.entriesUsed + c.desc.moveLength / c.desc.pageSize ≤ 4194304) (htier : 3 ≤ c.desc.moveTier)
    (hi : i < c.desc.moveLength / c.desc.pageSize) :
    ∃ t, exec (.map k) s = .next t ∧ t.pending = s.pending ∧ Ended t.block k stOk ∧
      tabFind (t.block.slot g.slot).pages ((c.desc.moveVa + i * c.desc.pageSize) / frameSize) =
        some { target := c.desc.moveFar + i * c.desc.pageSize, big := decide (c.desc.pf 0 56 56 = 1), writable := false,
               noPrefetch := decide (c.desc.pf 0 54 54 = 1), handle := 0 } ∧
      t.block.mem = s.block.mem ∧ t.block.regs = s.block.regs := by
  have hmoved := s.block.addPages_remaps g.slot (farPages c.desc (c.desc.moveLength / c.desc.pageSize))
  obtain ⟨hended, hmem, hregs⟩ := hmoved.fix h stOk 0
  have hy : s.block.doMap k g c = (s.block.addPages g.slot (farPages c.desc (c.desc.moveLength / c.desc.pageSize))).fix k stOk 0 := by
    simp only [Block.doMap, hfree, Bool.false_eq_true, if_false, Nat.not_lt.mpr hroom, htier, if_true]
  refine ⟨_, exec_map h hmode hy ((hmoved.noRecordWaits hnone).fix k stOk 0), rfl, hended, ?_, hmem, hregs⟩
  exact Block.mapped_listed (hshaped.slot_lt g.slot) (farPages_nodup _ _) stOk 0 _ (List.mem_map.mpr ⟨i, List.mem_range.mpr hi, rfl⟩)

theorem map_home {frames : List Nat} {b : Block} (h : Runs s.block k 0x06 g c) (hmode : c.desc.moveMode = 1)
    (hfree : anyMapped (s.block.slot g.slot).pages c.desc.moveVa c.desc.moveLength = false)
    (hroom : s.block.entriesUsed + c.desc.moveLength / c.desc.pageSize ≤ 4194304) (htier : c.desc.moveTier < 3)
    (hframes : s.block.allocate c.desc.moveHalf c.desc.moveTier g.slot (c.desc.pf 0 56 56 = 1) (g.slot.val + 1)
      (c.desc.moveLength / c.desc.pageSize) = .ok frames b)
    (hb : Runs b k 0x06 g c) (hnone : NoRecordWaits b g.job) (hshaped : Shaped b) :
    ∃ t, exec (.map k) s = .next t ∧ t.pending = s.pending ∧ Ended t.block k stOk ∧
      (∀ p ∈ homePages c.desc frames, tabFind (t.block.slot g.slot).pages p.1 = some p.2) ∧
      (∀ f ∈ frames, ∀ a, f ≤ a → a < f + c.desc.pageSize → t.block.byte a = 0) ∧
      (∀ a, (∀ f ∈ frames, ¬(f ≤ a ∧ a < f + c.desc.pageSize)) → t.block.byte a = s.block.byte a) := by
  have hmoved := (b.zeroFrames c.desc.pageSize frames).addPages_remaps g.slot (homePages c.desc frames)
  have hy : s.block.doMap k g c = ((b.zeroFrames c.desc.pageSize frames).addPages g.slot (homePages c.desc frames)).fix k stOk 0 := by
    simp only [Block.doMap, hfree, Bool.false_eq_true, if_false, Nat.not_lt.mpr hroom, Nat.not_le.mpr htier, hframes]
  have hwaits := (hmoved.noRecordWaits (b.zeroFrames_noRecordWaits c.desc.pageSize frames hnone)).fix k stOk 0
  obtain ⟨hended, -, -⟩ := hmoved.fix (b.zeroFrames_runs c.desc.pageSize frames hb) stOk 0
  have hsize : frameSize ∣ c.desc.pageSize := by
    obtain ⟨m, -, hm⟩ := pageSize_eq c.desc
    exact hm ▸ Nat.dvd_mul_left _ _
  have hbyte (a : Nat) : (((b.zeroFrames c.desc.pageSize frames).addPages g.slot (homePages c.desc frames)).fix k stOk 0).byte a =
      if ∃ f ∈ frames, f ≤ a ∧ a < f + c.desc.pageSize then 0 else s.block.byte a := by
    rw [Block.byte_eq_of_memory (Block.fix_memory _ _ _ _), Block.byte_eq_of_memory hmoved.memory,
      b.zeroFrames_byte hsize (Block.allocate_aligned hframes), Block.byte_eq_of_memory (Block.allocate_remaps hframes).memory]
  refine ⟨_, exec_map h hmode hy hwaits, rfl, hended, ?_, fun f hf a hlo hhi => ?_, fun a hout => ?_⟩
  · exact Block.mapped_listed (by rw [Block.zeroFrames_slots]; exact hshaped.slot_lt g.slot) (homePages_nodup _ _) stOk 0
  · exact (hbyte a).trans (if_pos ⟨f, hf, hlo, hhi⟩)
  · exact (hbyte a).trans (if_neg fun ⟨f, hf, hin⟩ => hout f hf hin)

theorem unmap_unlists {keys : List Nat} (h : Runs s.block k 0x06 g c) (hmode : c.desc.moveMode = 2) (hnone : NoRecordWaits s.block g.job)
    (hkeys : pagesIn (s.block.slot g.slot).pages c.desc.moveVa c.desc.moveLength = some keys)
    (hwithin : ∀ key ∈ keys, c.desc.moveVa ≤ key * frameSize ∧ ∃ p, tabFind (s.block.slot g.slot).pages key = some p ∧
      key * frameSize + (if p.big then 0x40000000 else frameSize) ≤ c.desc.moveVa + c.desc.moveLength) :
    ∃ t, exec (.unmap k) s = .next t ∧ t.pending = s.pending ∧ Ended t.block k stOk ∧
      (∀ key ∈ keys, tabFind (t.block.slot g.slot).pages key = none) ∧ t.block.mem = s.block.mem ∧ t.block.regs = s.block.regs := by
  have hmoved := s.block.unmapPages_remaps g.slot keys
  obtain ⟨hended, hmem, hregs⟩ := hmoved.fix h stOk 0
  have hlow : ¬ keys.any (fun k => decide (k * frameSize < c.desc.moveVa)) = true := by
    simpa using fun key hkey => (hwithin key hkey).1
  have hhigh : ¬ keys.any (fun key => decide (c.desc.moveVa + c.desc.moveLength < key * frameSize +
      (if ((tabFind (s.block.slot g.slot).pages key).map (fun p => p.big)).getD false then 0x40000000 else frameSize))) = true := by
    simp only [List.any_eq_true, decide_eq_true_eq, not_exists, not_and, Nat.not_lt]
    intro key hkey
    obtain ⟨-, p, hp, hle⟩ := hwithin key hkey
    simpa only [hp, Option.map_some, Option.getD_some] using hle
  have hy : s.block.doUnmap k g c = (s.block.unmapPages g.slot keys).fix k stOk 0 := by
    simp only [Block.doUnmap, hkeys]
    rw [if_neg hlow, if_neg hhigh]
  refine ⟨{ s with block := (s.block.unmapPages g.slot keys).fix k stOk 0 }, ?_, rfl, hended, fun key hkey => ?_, hmem, hregs⟩
  · refine next_of_act (show exec (.unmap k) s = execUnmap k s from rfl) ?_
    rw [h.onMode 2 hmode, hy, ((hmoved.noRecordWaits hnone).fix k stOk 0).retryJob]
  · rw [Block.slot_eq_of_slots (Block.fix_slots _ k stOk 0), s.block.unmapPages_gone g.slot hkey]

/-- What a mapping found at a VA is: one of its object's, of the slot. -/
theorem Block.mappingAt_spec {b : Block} {n va i : Nat} {m : Nat × Nat} {o : CacheObject} (h : b.mappingAt n va = some (i, m))
    (ho : b.object i = some o) : m.1 = n ∧ m ∈ o.mappings := by
  rw [Block.mappingAt] at h
  split at h
  · cases h
  · next p hp =>
    split at h
    · cases h
    · obtain ⟨o', ho', hm⟩ := Option.bind_eq_some_iff.mp h
      obtain ⟨m', hfind, he⟩ := Option.map_eq_some_iff.mp hm
      obtain ⟨rfl, rfl⟩ := Prod.mk.inj he
      obtain rfl := Option.some.inj (ho.symm.trans ho')
      have hof := List.find?_some hfind
      simp only [Bool.and_eq_true, decide_eq_true_eq] at hof
      exact ⟨hof.1.1, List.mem_of_find?_eq_some hfind⟩

theorem drop_unlists {i : Nat} {m : Nat × Nat} {o : CacheObject} (h : Runs s.block k 0x06 g c) (hmode : c.desc.moveMode = 4)
    (hat : s.block.mappingAt g.slot c.desc.moveVa = some (i, m)) (ho : s.block.object i = some o) :
    ∃ t, exec (.drop k) s = .next t ∧ t.pending = s.pending ∧ Ended t.block k stOk ∧
      (∀ key ∈ o.pageKeys m.2, tabFind (t.block.slot g.slot).pages key = none) ∧ t.block.mem = s.block.mem ∧ t.block.regs = s.block.regs := by
  obtain ⟨hended, hmem, hregs⟩ := (s.block.dropMapping_remaps i m).fix h stOk 0
  refine ⟨{ s with block := (s.block.dropMapping i m).fix k stOk 0 }, ?_, rfl, hended, fun key hkey => ?_, hmem, hregs⟩
  · refine next_of_act (show exec (.drop k) s = execDrop k s from rfl) ?_
    rw [h.onMode 4 hmode]
    simp only [hat]
  · obtain ⟨hslot, -⟩ := Block.mappingAt_spec hat ho
    rw [Block.slot_eq_of_slots (Block.fix_slots _ k stOk 0), Block.slot_eq_of_slots (s.block.dropMapping_slots ho m), hslot]
    exact s.block.removePages_gone _ hkey

theorem unmapped_ends {i : Instr} (h : Runs s.block k 0x06 g c)
    (hi : i = .drop k ∧ c.desc.moveMode = 4 ∨ i = .setPin k ∧ c.desc.moveMode = 6) (hat : s.block.mappingAt g.slot c.desc.moveVa = none) :
    ∃ t, exec i s = .next t ∧ t.pending = s.pending ∧ Ended t.block k stXlate ∧ t.block.mem = s.block.mem := by
  obtain ⟨hended, hmem, -⟩ := (Remapped.refl s.block).fix h stXlate 8
  refine ⟨{ s with block := s.block.fix k stXlate 8 }, ?_, rfl, hended, hmem⟩
  obtain ⟨rfl, hmode⟩ | ⟨rfl, hmode⟩ := hi
  · refine next_of_act (show exec (.drop k) s = execDrop k s from rfl) ?_
    rw [h.onMode 4 hmode]
    simp only [hat]
  · refine next_of_act (show exec (.setPin k) s = execSetPin k s from rfl) ?_
    rw [h.onMode 6 hmode]
    simp only [hat]
end

/-! ### Copies and queries (R203, R219) -/

section
variable {b c : Block}

/-- A read is told by memory and the slots' pages. -/
theorem Block.rd_eq (hm : b.memory = c.memory) (hs : b.slots = c.slots) : b.rd = c.rd := by
  have hbad : b.bad = c.bad := congrArg Memory.bad hm
  funext a who va
  simp only [Block.rd, Block.translate, Block.slot_eq_of_slots hs, hbad, Block.byte_eq_of_memory hm]

theorem Block.rdNat_eq (hm : b.memory = c.memory) (hs : b.slots = c.slots) : b.rdNat = c.rdNat := by
  funext a who va n
  simp only [Block.rdNat, Block.rdN, Block.rdOf, Block.rd_eq hm hs]

theorem Block.rawRow_eq (hm : b.memory = c.memory) (hs : b.slots = c.slots) : b.rawRow = c.rawRow := by
  funext a t r
  simp only [Block.rawRow, Block.elemCode, Block.zrCode, Block.rdNat_eq hm hs]

theorem Block.rowCells_eq (hs : b.slots = c.slots) : b.rowCells = c.rowCells := by
  funext a t r o
  simp only [Block.rowCells, Block.rowCellsAt, Block.wrCells_eq hs rfl]

/-- What a copy writes is told by memory and the slots' pages. -/
theorem Block.copyCells_eq (hm : b.memory = c.memory) (hs : b.slots = c.slots) : b.copyCells = c.copyCells := by
  funext a src dst
  simp only [Block.copyCells, Block.rawRow_eq hm hs, Block.rowCells_eq hs]

theorem Block.touch_slots (b : Block) (t : TaskRef) (g : Graph) (c : TaskCtx) : (b.touch t g c).slots = b.slots := by
  rw [Block.touch, Block.touchSlots]
  refine (congrArg Tables.slots (Block.touchPieces_tables _ t g.slot _)).trans ?_
  split
  · rfl
  · exact (Block.modTask_slots _ t _).trans (congrArg Tables.slots (b.noteAhead_tables _ _ _))
end

section
variable {s : State} {k : TaskRef} {g : Graph} {c : TaskCtx} {cells : List Host.Cell}

theorem copy_lands (h : Runs s.block k 0x06 g c) (hmode : c.desc.moveMode = 0)
    (hcells : (s.block.touch k g c).copyCells (s.block.taskAccess k.half g c) (c.tensor 0) (c.tensor 1) = .ok cells)
    (hhits : s.block.badHits cells = []) :
    ∃ t, exec (.copy k) s = .next t ∧ Lands s t k cells stOk ∧ (∀ a, a ≠ tierReg k.half 0x28 → t.block.reg a = s.block.reg a) := by
  have hmemory := s.block.touch_memory k g c
  have hhits' : (s.block.touch k g c).badHits cells = [] := (Block.badHits_eq_of_memory hmemory cells).trans hhits
  have hsame : s.block.copyCells (s.block.taskAccess k.half g c) (c.tensor 0) (c.tensor 1) = .ok cells :=
    Block.copyCells_eq hmemory (s.block.touch_slots k g c) ▸ hcells
  refine ⟨_, ?_, (h.worked_touch (own := tierOwn k.half) rfl).finish hsame hhits' stOk 0⟩
  exact next_of_act (show exec (.copy k) s = execCopy k s from rfl) (h.onMode 0 hmode _)

theorem query_lands {v : Nat} (h : Runs s.block k 0x06 g c) (hmode : c.desc.moveMode = 5)
    (hv : farTier c.desc.moveFar = 4 ∧
        v = dirState (s.block.tiers k.half).mainland g.job c.desc.moveObject c.desc.moveVersion (c.desc.moveFar % 2 ^ 60) ∨
      farTier c.desc.moveFar ≠ 4 ∧ ∃ x : Byte, tabFind c.farBuf c.desc.moveFar = some x ∧ v = x.toNat)
    (hcells : s.block.rowCells (s.block.taskAccess k.half g c) (c.tensor 0) (0, 0, 0, 0)
      { codes := [v], scales := [], stats := ConvStats.zero } = .ok cells) (hhits : s.block.badHits cells = []) :
    ∃ t, exec (.query k) s = .next t ∧ Lands s t k cells stOk ∧ t.block.regs = s.block.regs := by
  have hwrite : s.block.writeQuery k g c v = (s.block.landCells cells).1.fix k stOk 0 := by
    simp only [Block.writeQuery, hcells, Block.finish, Block.land_eq _ _ _ _ hhits]
  have hexec : exec (.query k) s = .next { s with block := s.block.writeQuery k g c v } := by
    refine next_of_act (show exec (.query k) s = execQuery k s from rfl) ?_
    rw [h.onMode 5 hmode]
    obtain ⟨hmain, rfl⟩ | ⟨hfar, x, hx, rfl⟩ := hv
    · simp only [hmain, if_true]
    · simp only [hfar, if_false, hx]
  obtain ⟨hlands, -⟩ := (h.worked (fun _ => False)).finish (r := .ok cells) rfl hhits stOk 0
  rw [Block.finish, Block.land_eq _ _ _ _ hhits] at hlands
  refine ⟨_, hexec, hwrite ▸ hlands, ?_⟩
  rw [hwrite, Block.fix_regs, Block.landCells_regs]
end

/-! ### Cache objects (R208, R215, R220) -/

/-- An object of given mappings, frames and PIN. -/
def ObjectIs (b : Block) (i : Nat) (ms : List (Nat × Nat)) (fs : List Nat) (pin : Bool) : Prop :=
  ∃ o, b.object i = some o ∧ o.mappings = ms ∧ o.frames = fs ∧ o.pin = pin

section
variable {b c : Block} {i : Nat} {ms : List (Nat × Nat)} {fs : List Nat} {pin : Bool}

theorem ObjectIs.of_objects (h : ObjectIs b i ms fs pin) (e : ∀ h, (c.tiers h).objects = (b.tiers h).objects) : ObjectIs c i ms fs pin := by
  obtain ⟨o, ho, hrest⟩ := h
  exact ⟨o, by rw [Block.object, e]; exact ho, hrest⟩

theorem Block.object_modObject (b : Block) (i j : Nat) (f : CacheObject → CacheObject) :
    (b.modObject i f).object j = if j = i then (b.object j).map f else b.object j := by
  rw [Block.modObject]
  split
  · next hnone =>
    split
    · next hj => rw [hj, hnone, Option.map_none]
    · rfl
  · next o ho =>
    rw [Block.object, Block.tiers_modTiers]
    by_cases hj : j = i
    · subst hj
      rw [if_pos rfl, tabFind_tabPut_same, if_pos rfl, ho, Option.map_some]
    · rw [if_neg hj]
      split
      · rw [tabFind_tabPut_other _ _ _ _ hj, Block.object]
      · rfl

theorem Block.freeFrames_objects (b : Block) (l : List Nat) (h : HalfId) : ((b.freeFrames l).tiers h).objects = (b.tiers h).objects := by
  induction l generalizing b with
  | nil => rfl
  | cons f fs ih =>
    rw [Block.freeFrames, ih, Block.freeFrame, Block.tiers_modTiers]
    split <;> rfl

theorem Block.object_freeObject_other (b : Block) {i j : Nat} (hj : j ≠ i) : (b.freeObject i).object j = b.object j := by
  rw [Block.freeObject]
  split
  · rfl
  · rw [Block.object, Block.tiers_modTiers]
    split
    · rw [tabFind_tabDel_other _ _ _ hj, Block.freeFrames_objects, Block.object]
    · rw [Block.freeFrames_objects, Block.object]

theorem Block.addPages_object (b : Block) (k : Nat) (l : List (Nat × Page)) (i : Nat) : (b.addPages k l).object i = b.object i := by
  induction l generalizing b with
  | nil => rfl
  | cons p ps ih => 
    rw [Block.addPages, ih, Block.object, Block.tiers, Block.modSlot_half, Block.object, Block.tiers]

/-- An object with a mapping is not reaped. -/
theorem ObjectIs.reapObjects (h : ObjectIs b i ms fs pin) (hms : ms ≠ []) (l : List Nat) : ObjectIs (b.reapObjects l) i ms fs pin := by
  induction l generalizing b with
  | nil => exact h
  | cons j js ih =>
    refine ih ?_
    obtain ⟨o, ho, hm, hrest⟩ := h
    by_cases hj : i = j
    · subst hj
      have hmapped : ¬ (o.mappings = [] ∧ o.refs = [] ∧ o.filling = none) := fun hall => hms (hm.symm.trans hall.1)
      refine ⟨o, ?_, hm, hrest⟩
      simp only [Block.reapObject, ho, hmapped, if_false]
    · refine ⟨o, ?_, hm, hrest⟩
      rw [Block.reapObject]
      split
      · exact ho
      · split
        · rw [b.object_freeObject_other hj, ho]
        · exact ho

theorem ObjectIs.modObject (h : ObjectIs b i ms fs pin) (j : Nat) {f : CacheObject → CacheObject}
    (hf : ∀ o, (f o).mappings = o.mappings ∧ (f o).frames = o.frames ∧ (f o).pin = o.pin) : ObjectIs (b.modObject j f) i ms fs pin := by
  obtain ⟨o, ho, hm, hframes, hpin⟩ := h
  obtain ⟨fm, ff, fp⟩ := hf o
  by_cases hj : i = j
  · exact ⟨f o, by rw [Block.object_modObject, if_pos hj, ho, Option.map_some], fm.trans hm, ff.trans hframes, fp.trans hpin⟩
  · exact ⟨o, by rw [Block.object_modObject, if_neg hj, ho], hm, hframes, hpin⟩

theorem ObjectIs.dropRefs (h : ObjectIs b i ms fs pin) (hms : ms ≠ []) (t : TaskRef) : ObjectIs (b.dropRefs t) i ms fs pin := by
  rw [Block.dropRefs]
  refine ObjectIs.reapObjects ?_ hms _
  generalize b.handles.filter _ = held
  induction held generalizing b with
  | nil => exact h
  | cons j js ih =>
    refine ih (h.modObject j ?_)
    exact fun _ => ⟨rfl, rfl, rfl⟩

theorem Block.modTask_tiers (b : Block) (t : TaskRef) (f : TaskCtx → TaskCtx) (h : HalfId) : (b.modTask t f).tiers h = b.tiers h := by
  rw [Block.modTask, Block.modGraph]
  split
  · rfl
  · by_cases hh : h = t.half
    · subst hh
      rw [Block.tiers, Block.half_modHalf_same, Block.tiers]
    · rw [Block.tiers, Block.half_modHalf_other _ _ _ _ hh, Block.tiers]

/-- The end of a task leaves an object that is mapped. -/
theorem ObjectIs.fix (h : ObjectIs b i ms fs pin) (hms : ms ≠ []) (t : TaskRef) (status detail : Nat) :
    ObjectIs (b.fix t status detail) i ms fs pin := by
  simp only [Block.fix]
  split
  · split
    · have hdropped := (h.of_objects fun x => congrArg Tiers.objects (b.modTask_tiers t (fun c => { c with
        phase := .ended, status := status, detail := detail % 2 ^ 32, endTide := b.tide t.half }) x)).dropRefs hms t
      split
      · refine hdropped.of_objects fun x => ?_
        rw [Block.tiers, Block.log_half, Block.tiers]
      · exact hdropped
    · exact h
  · exact h
end

section
variable {s : State} {k : TaskRef} {g : Graph} {c : TaskCtx} {i : Nat} {o : CacheObject}

/-- A block in which an object has a PIN. -/
def Block.pinned (b : Block) (i : Nat) (pin : Bool) : Block := b.modObject i fun o => { o with pin := pin }

/-- A block in which a slot maps an object's frames from a VA on. -/
def Block.mapped (b : Block) (n i va : Nat) (noPf : Bool) (fs : List Nat) : Block :=
  (b.addPages n (objectPages i va noPf fs)).modObject i fun o => { o with mappings := o.mappings ++ [(n, va)] }

theorem setPin_pins {m : Nat × Nat} (h : Runs s.block k 0x06 g c) (hmode : c.desc.moveMode = 6)
    (hat : s.block.mappingAt g.slot c.desc.moveVa = some (i, m)) (ho : s.block.object i = some o) :
    ∃ t x, exec (.setPin k) s = .next t ∧ t.pending = s.pending ∧ Ended t.block k stOk ∧ t.block.object i = some x ∧
      x.pin = decide (c.desc.pf 0 55 55 = 1) ∧ x.frames = o.frames ∧ x.mappings = o.mappings ∧ t.block.mem = s.block.mem ∧
      t.block.regs = s.block.regs := by
  obtain ⟨-, hmem⟩ := Block.mappingAt_spec hat ho
  have hpinned : ObjectIs (s.block.pinned i (decide (c.desc.pf 0 55 55 = 1))) i o.mappings o.frames (decide (c.desc.pf 0 55 55 = 1)) :=
    ⟨{ o with pin := c.desc.pf 0 55 55 = 1 }, by rw [Block.pinned, Block.object_modObject, if_pos rfl, ho, Option.map_some], rfl, rfl, rfl⟩
  obtain ⟨x, hx, hms, hfs, hpin⟩ := hpinned.fix (List.ne_nil_of_mem hmem) k stOk 0
  obtain ⟨hended, hmem', hregs⟩ := (show Remapped s.block (s.block.pinned i _) from s.block.modObject_remaps i _).fix h stOk 0
  refine ⟨{ s with block := (s.block.pinned i (decide (c.desc.pf 0 55 55 = 1))).fix k stOk 0 }, x, ?_, rfl, hended, hx, hpin, hfs, hms, hmem', hregs⟩
  refine next_of_act (show exec (.setPin k) s = execSetPin k s from rfl) ?_
  rw [h.onMode 6 hmode]
  simp only [hat, Block.pinned]

/-- A FILL of what a job's mapping holds already maps it once more (R215). -/
theorem fill_shares (h : Runs s.block k 0x06 g c) (hmode : c.desc.moveMode = 3) (hstage : c.stage = 0) (hshaped : Shaped s.block)
    (hshared : s.block.sharedObject c.desc.moveHalf g.job c.desc.moveObject c.desc.moveVersion c.desc.moveTier = some (i, o))
    (hfilled : o.filling = none) (ho : s.block.object i = some o)
    (hfree : anyMapped (s.block.slot g.slot).pages c.desc.moveVa (o.frames.length * frameSize) = false)
    (hroom : s.block.entriesUsed + o.frames.length ≤ 4194304) :
    ∃ t, exec (.fill k) s = .next t ∧ t.pending = s.pending ∧ Ended t.block k stOk ∧
      (∀ p ∈ objectPages i c.desc.moveVa (c.desc.pf 0 54 54 = 1) o.frames, tabFind (t.block.slot g.slot).pages p.1 = some p.2) ∧
      (∃ x, t.block.object i = some x ∧ x.mappings = o.mappings ++ [(g.slot.val, c.desc.moveVa)] ∧ x.frames = o.frames) ∧
      t.block.mem = s.block.mem ∧ t.block.regs = s.block.regs := by
  obtain ⟨hg, hc, -⟩ := id h
  have hmapped : Remapped s.block (s.block.mapped g.slot i c.desc.moveVa (c.desc.pf 0 54 54 = 1) o.frames) :=
    (s.block.addPages_remaps g.slot _).trans (Block.modObject_remaps _ i _)
  have hobject : ObjectIs (s.block.mapped g.slot i c.desc.moveVa (c.desc.pf 0 54 54 = 1) o.frames) i
      (o.mappings ++ [(g.slot.val, c.desc.moveVa)]) o.frames o.pin :=
    ⟨{ o with mappings := o.mappings ++ [(g.slot.val, c.desc.moveVa)] },
      by rw [Block.mapped, Block.object_modObject, if_pos rfl, Block.addPages_object, ho, Option.map_some], rfl, rfl, rfl⟩
  obtain ⟨x, hx, hms, hfs, -⟩ := hobject.fix (by simp) k stOk 0
  obtain ⟨hended, hmem, hregs⟩ := hmapped.fix h stOk 0
  refine ⟨{ s with block := (s.block.mapped g.slot i c.desc.moveVa (c.desc.pf 0 54 54 = 1) o.frames).fix k stOk 0 }, ?_, rfl, hended,
    fun p hp => ?_, ⟨x, hx, hms, hfs⟩, hmem, hregs⟩
  · refine next_of_act (show exec (.fill k) s = execFill k s from rfl) ?_
    rw [h.onMode 3 hmode]
    simp only [hstage, ne_eq, not_true_eq_false, if_false, hshared, hfilled, Option.isSome_none, Bool.false_eq_true, Block.mapObject, hg, hc, ho, hfree,
      Nat.not_lt.mpr hroom, Block.mapped]
  · rw [Block.slot_eq_of_slots (Block.fix_slots _ k stOk 0), Block.mapped,
      Block.slot_eq_of_slots (congrArg Tables.slots (Block.modObject_tables _ i _))]
    exact s.block.addPages_listed (hshaped.slot_lt g.slot) (objectPages_nodup _ _ _ _) hp
end

/-! ### Requests to far destinations (R216, R224, R225) -/

/-- What tells whether a packet has an exit: the route table, the states of the ports, the holds, and the modules that are lost (R320-R322). -/
structure Ways where
  byte : HalfId → Fin 65536 → Nat
  state : HalfId → Nat → Nat
  hold : HalfId → Nat → Option Bool
  lost : List Nat

/-- The ways out of a block's halves. -/
def Block.ways (b : Block) : Ways :=
  { byte := fun h d => b.routeByte h d, state := fun h x => (b.port h x).st, hold := fun h d => (tabFind (b.half h).efing.holds d).map RouteHold.all,
    lost := b.domain.lost }

section
variable {b c : Block}

theorem Block.ways_eq (hr : ∀ h (d : Fin 65536), c.reg (efReg h (0x8000 + d)) = b.reg (efReg h (0x8000 + d)))
    (he : ∀ h, (c.half h).efing.ports = (b.half h).efing.ports ∧ (c.half h).efing.holds = (b.half h).efing.holds) (hd : c.domain = b.domain) :
    c.ways = b.ways := by
  have hports (h : HalfId) : (c.half h).efing.ports = (b.half h).efing.ports := (he h).1
  have hholds (h : HalfId) : (c.half h).efing.holds = (b.half h).efing.holds := (he h).2
  simp only [Block.ways, Block.routeByte, Block.port, hr, hports, hholds, hd]

theorem Block.routable_eq_of_ways (e : c.ways = b.ways) (h : HalfId) (d : Fin 65536) (cls : Nat) : c.routable h d cls = b.routable h d cls := by
  have hhold (x : Block) : (x.holdFor h d cls).isSome = (x.ways.hold h d).any fun all => decide (cls < 4) || all := by
    simp only [Block.holdFor, Block.ways]
    cases tabFind (x.half h).efing.holds d with
    | none => rfl
    | some q =>
      by_cases hlow : cls < 4
      · simp [hlow]
      · cases hall : q.all <;> simp [hlow, hall]
  have hbyte : c.routeByte h d = b.routeByte h d := congrFun (congrFun (congrArg Ways.byte e) h) d
  have hstate (x : Nat) : (c.port h x).st = (b.port h x).st := congrFun (congrFun (congrArg Ways.state e) h) x
  have hopen (x : Nat) : c.exitOpen h x cls = b.exitOpen h x cls := by simp only [Block.exitOpen, hstate]
  have hexit : c.exitFor h d cls = b.exitFor h d cls := by simp only [Block.exitFor, hbyte, hopen]
  rw [Block.routable, Block.routable, hhold, hhold, e, hexit]

theorem Block.lost_eq_of_ways (e : c.ways = b.ways) : c.domain.lost = b.domain.lost := congrArg Ways.lost e
end

section
variable (b : Block) (h : HalfId)

/-- No register that a request counts in is one of the route table. -/
theorem Block.count_ways {a : Nat} (ha : a = tierReg h 0x28 ∨ a = efReg h 0x18) (hi lo n : Nat) : (b.count a hi lo n).ways = b.ways := by
  refine Block.ways_eq (fun i d => Block.count_reg_other _ _ _ _ _ _ ?_) (fun i => ⟨rfl, rfl⟩) rfl
  have hd := d.isLt
  rcases ha with rfl | rfl <;> cases h <;> cases i <;> simp only [efReg, tierReg, regBase, halfNum] <;> omega

/-- A change of a half that keeps its ports' states and what its holds take. -/
theorem Block.modHalf_ways {f : Half → Half}
    (hs : ∀ x, ((f (b.half h)).efing.ports.getD x Port.reset).st = ((b.half h).efing.ports.getD x Port.reset).st)
    (hh : ∀ d, (tabFind (f (b.half h)).efing.holds d).map RouteHold.all = (tabFind (b.half h).efing.holds d).map RouteHold.all) :
    (b.modHalf h f).ways = b.ways := by
  have hstate (i : HalfId) (x : Nat) : ((b.modHalf h f).port i x).st = (b.port i x).st := by
    by_cases hi : i = h
    · subst hi
      rw [Block.port, Block.half_modHalf_same, hs, Block.port]
    · rw [Block.port, Block.half_modHalf_other _ _ _ _ hi, Block.port]
  have hhold (i : HalfId) (d : Nat) :
      (tabFind ((b.modHalf h f).half i).efing.holds d).map RouteHold.all = (tabFind (b.half i).efing.holds d).map RouteHold.all := by
    by_cases hi : i = h
    · subst hi
      rw [Block.half_modHalf_same, hh]
    · rw [Block.half_modHalf_other _ _ _ _ hi]
  have hbyte (i : HalfId) (d : Nat) : (b.modHalf h f).routeByte i d = b.routeByte i d := by
    rw [Block.routeByte, Block.routeByte, Block.reg_eq (Block.modHalf_regs b h f)]
  simp only [Block.ways, hstate, hhold, hbyte, Block.modHalf_domain]

theorem Block.modTiers_ways (f : Tiers → Tiers) : (b.modTiers h f).ways = b.ways :=
  b.modHalf_ways h (fun _ => rfl) fun _ => rfl

theorem Block.modPort_ways (x : Nat) {f : Port → Port} (hf : ∀ p, (f p).st = p.st) : (b.modPort h x f).ways = b.ways := by
  refine b.modHalf_ways h (fun y => ?_) fun _ => rfl
  simp only [getD_listMod]
  split
  · exact hf _
  · rfl

theorem Block.linkSend_ways (x : Nat) (p : Packet) : (b.linkSend h x p).ways = b.ways := by
  simp only [Block.linkSend]
  split
  · exact b.modPort_ways h x fun _ => rfl
  · exact b.modPort_ways h x fun _ => rfl

theorem Block.routeOut_ways (p : Packet) : (b.routeOut h p).ways = b.ways := by
  rw [Block.routeOut]
  split
  · next q hq =>
    obtain ⟨q', hq', hif⟩ := Option.bind_eq_some_iff.mp hq
    split at hif
    · cases hif
      refine b.modHalf_ways h (fun _ => rfl) fun d => ?_
      by_cases hd : d = pkDest p
      · rw [hd, tabFind_tabPut_same, hq']
        rfl
      · simp only [tabFind_tabPut_other _ _ _ _ hd]
    · cases hif
  · split
    · rw [Block.sendBy]
      split
      · rfl
      · exact b.linkSend_ways h _ p
    · exact b.count_ways h (.inr rfl) _ _ _

theorem Block.makePacket_ways (dest job cls op tag w2 block : Nat) (payload : List Byte) :
    (b.makePacket h dest job cls op tag w2 block payload).2.ways = b.ways :=
  b.modHalf_ways h (fun _ => rfl) fun _ => rfl

theorem Block.send_ways (dest job cls op tag w2 block : Nat) (payload : List Byte) :
    (b.send h dest job cls op tag w2 block payload).ways = b.ways :=
  (Block.routeOut_ways _ h _).trans (b.makePacket_ways h _ _ _ _ _ _ _ _)

theorem Block.modHalf_tiers {f : Half → Half} (hf : ∀ x, (f x).tiers = x.tiers) (i : HalfId) : (b.modHalf h f).tiers i = b.tiers i := by
  by_cases hi : i = h
  · subst hi
    rw [Block.tiers, Block.half_modHalf_same, hf, Block.tiers]
  · rw [Block.tiers, Block.half_modHalf_other _ _ _ _ hi, Block.tiers]

theorem Block.count_tiers (a hi lo n : Nat) (i : HalfId) : (b.count a hi lo n).tiers i = b.tiers i := by
  rw [Block.tiers, Block.count_half, Block.tiers]

theorem Block.modPort_tiers (x : Nat) (f : Port → Port) (i : HalfId) : (b.modPort h x f).tiers i = b.tiers i := by
  refine b.modHalf_tiers h ?_ i
  exact fun _ => rfl

theorem Block.linkSend_tiers (x : Nat) (p : Packet) (i : HalfId) : (b.linkSend h x p).tiers i = b.tiers i := by
  simp only [Block.linkSend]
  split <;> exact b.modPort_tiers h x _ i

theorem Block.routeOut_tiers (p : Packet) (i : HalfId) : (b.routeOut h p).tiers i = b.tiers i := by
  rw [Block.routeOut]
  split
  · refine b.modHalf_tiers h ?_ i
    exact fun _ => rfl
  · split
    · rw [Block.sendBy]
      split
      · rfl
      · exact b.linkSend_tiers h _ p i
    · exact b.count_tiers _ _ _ _ i

/-- A packet that is sent leaves the tiers as they were. -/
theorem Block.send_tiers (dest job cls op tag w2 block : Nat) (payload : List Byte) (i : HalfId) :
    (b.send h dest job cls op tag w2 block payload).tiers i = b.tiers i := by
  rw [Block.send]
  refine (Block.routeOut_tiers _ h _ i).trans (b.modHalf_tiers h ?_ i)
  exact fun _ => rfl
end

section
variable {b c d : Block} {h : HalfId}

/-- A request that is issued: it takes a tag or waits, and no other is lost. -/
structure Issued (h : HalfId) (b c : Block) : Prop where
  tables : c.tables = b.tables
  ways : c.ways = b.ways
  mainland : ∀ i, (c.tiers i).mainland = (b.tiers i).mainland
  objects : ∀ i, (c.tiers i).objects = (b.tiers i).objects
  asked : ∀ r, Asked b h r → Asked c h r

theorem Issued.refl (h : HalfId) (b : Block) : Issued h b b := ⟨rfl, rfl, fun _ => rfl, fun _ => rfl, fun _ h => h⟩

theorem Issued.trans (x : Issued h b c) (y : Issued h c d) : Issued h b d :=
  ⟨y.tables.trans x.tables, y.ways.trans x.ways, fun i => (y.mainland i).trans (x.mainland i), fun i => (y.objects i).trans (x.objects i),
    fun r hr => y.asked r (x.asked r hr)⟩

theorem Asked.of_tiers {r : Request} (hr : Asked b h r) (e : c.tiers h = b.tiers h) : Asked c h r := by
  rw [Asked, e]
  exact hr

theorem Issued.of_tiers (ht : c.tables = b.tables) (hw : c.ways = b.ways) (e : ∀ i, c.tiers i = b.tiers i) : Issued h b c :=
  ⟨ht, hw, fun i => congrArg Tiers.mainland (e i), fun i => congrArg Tiers.objects (e i), fun _ hr => hr.of_tiers (e h)⟩

theorem Issued.modTiers {f : Tiers → Tiers} (hm : ∀ t, (f t).mainland = t.mainland) (ho : ∀ t, (f t).objects = t.objects)
    (hr : ∀ r, Asked b h r → Asked (b.modTiers h f) h r) : Issued h b (b.modTiers h f) := by
  refine ⟨b.modTiers_tables h f, b.modTiers_ways h f, fun i => ?_, fun i => ?_, hr⟩
  · rw [Block.tiers_modTiers]
    split
    · exact hm _
    · rfl
  · rw [Block.tiers_modTiers]
    split
    · exact ho _
    · rfl

variable (b) (h)

theorem Block.await_issued (r : Request) : Issued h b (b.await h r) ∧ Asked (b.await h r) h r := by
  have htiers : (b.await h r).tiers h = { b.tiers h with waiting := (b.tiers h).waiting ++ [r] } := by
    rw [Block.await, Block.tiers_modTiers, if_pos rfl]
  refine ⟨Issued.modTiers (fun _ => rfl) (fun _ => rfl) fun q hq => ?_, .inr ?_⟩
  · show Asked (b.await h r) h q
    rw [Asked, htiers]
    exact hq.imp_right fun hin => List.mem_append_left _ hin
  · rw [htiers]
    exact List.mem_append_right _ (List.mem_singleton.mpr rfl)

variable {b h}

theorem tabFree_free {α : Type} {t : Tab α} {fuel i j : Nat} (e : tabFree t fuel i = some j) : tabFind t j = none := by
  induction fuel generalizing i with
  | zero => cases e
  | succ fuel ih =>
    rw [tabFree] at e
    split at e
    · next hnone =>
      cases e
      exact hnone
    · exact ih e

theorem Tiers.freeTag_free {t : Tiers} {i : Nat} (e : t.freeTag = some i) : tabFind t.tags i = none := by
  rw [Tiers.freeTag] at e
  split at e
  · next j hj =>
    split at e <;> cases e
    exact tabFree_free hj
  · split at e
    · next j hj =>
      split at e <;> cases e
      exact tabFree_free hj
    · cases e

theorem Block.holdTag_issued {i : Nat} (hfree : tabFind (b.tiers h).tags i = none) (r : Request) :
    Issued h b (b.holdTag h i r) ∧ Asked (b.holdTag h i r) h r := by
  have htags : ((b.holdTag h i r).tiers h).tags = tabPut (b.tiers h).tags i { r with issued := b.tide h } := by
    rw [Block.holdTag, Block.tiers_modTiers, if_pos rfl]
  have hwaiting : ((b.holdTag h i r).tiers h).waiting = (b.tiers h).waiting := by
    rw [Block.holdTag, Block.tiers_modTiers, if_pos rfl]
  refine ⟨Issued.modTiers (fun _ => rfl) (fun _ => rfl) fun q hq => ?_, .inl ⟨i, { r with issued := b.tide h }, ?_, rfl⟩⟩
  · show Asked (b.holdTag h i r) h q
    obtain ⟨j, x, hx, hxq⟩ | hin := hq
    · have hj : j ≠ i := fun e => by simp [e, hfree] at hx
      exact .inl ⟨j, x, by rw [htags, tabFind_tabPut_other _ _ _ _ hj, hx], hxq⟩
    · exact .inr (by rwa [hwaiting])
  · rw [htags, tabFind_tabPut_same]

/-- A granted request to a far destination takes a tag or waits for one. -/
theorem Block.grant_issued {r : Request} (hfar : (∃ e, r.dest = .endpoint e) ∨ r.dest = .mainland) :
    Issued h b (b.grant h r) ∧ Asked (b.grant h r) h r := by
  simp only [Block.grant]
  split
  · obtain ⟨hissued, hasked⟩ := (b.count (tierReg h 0x28) 63 40 1).await_issued h r
    have hcount : Issued h b (b.count (tierReg h 0x28) 63 40 1) :=
      .of_tiers (Block.count_tables _ _ _ _ _) (b.count_ways h (.inl rfl) _ _ _) (b.count_tiers _ _ _ _)
    exact ⟨hcount.trans hissued, hasked⟩
  · split
    · exact b.await_issued h r
    · split
      · next i hi =>
        obtain ⟨hissued, hasked⟩ := Block.holdTag_issued (Tiers.freeTag_free hi) r
        obtain ⟨e, he⟩ | he := hfar
        · simp only [Block.launch, he]
          refine ⟨hissued.trans (.of_tiers (Block.send_tables _ h _ _ _ _ _ _ _ _) (Block.send_ways _ h _ _ _ _ _ _ _ _)
            (Block.send_tiers _ h _ _ _ _ _ _ _ _)), hasked.of_tiers (Block.send_tiers _ h _ _ _ _ _ _ _ _ h)⟩
        · simp only [Block.launch, he]
          exact ⟨hissued.trans (.of_tiers (Block.emit_tables _ _) rfl fun _ => rfl), hasked.of_tiers rfl⟩
      · exact b.await_issued h r

/-- A far read that its half may issue: its endpoint has an exit and its module is there, or the host's directory serves it (R212, R216, R224). -/
def Serves (b : Block) (h : HalfId) (r : Request) : Prop :=
  (∃ e : Fin 65536, r.dest = .endpoint e ∧ b.routable h e 0 = true ∧ ¬ b.domain.lost.contains (e / 8)) ∨
    r.dest = .mainland ∧ b.mayIssue h r = true

theorem Serves.far {r : Request} (hr : Serves b h r) : (∃ e, r.dest = .endpoint e) ∨ r.dest = .mainland :=
  hr.imp (fun ⟨e, he, _⟩ => ⟨e, he⟩) And.left

theorem Serves.issue {r : Request} (hr : Serves b h r) : b.issue h r = b.grant h r := by
  obtain ⟨e, he, hroute, hlost⟩ | ⟨he, hmay⟩ := hr
  · simp only [Block.issue, he]
    rw [if_pos ⟨hroute, hlost⟩]
  · simp only [Block.issue, he, hmay, if_true]

theorem Serves.of_issued {r : Request} (hr : Serves b h r) (x : Issued h b c) : Serves c h r := by
  obtain ⟨e, he, hroute, hlost⟩ | ⟨he, hmay⟩ := hr
  · exact .inl ⟨e, he, (Block.routable_eq_of_ways x.ways h e 0).trans hroute, Block.lost_eq_of_ways x.ways ▸ hlost⟩
  · have hjob : c.requestJob r = b.requestJob r := by simp only [Block.requestJob, Block.graph_eq_of_tables x.tables]
    exact .inr ⟨he, by rwa [Block.mayIssue, x.mainland h, hjob, ← Block.mayIssue]⟩

/-- Reads that may all be issued are each asked for. -/
theorem Block.issueAll_issued {l : List Request} (hserves : ∀ r ∈ l, Serves b h r) (hruns : ∀ r ∈ l, r.task.all b.isRunning = true) :
    Issued h b (b.issueAll h l) ∧ ∀ r ∈ l, Asked (b.issueAll h l) h r := by
  induction l generalizing b with
  | nil => exact ⟨.refl h b, fun _ hr => nomatch hr⟩
  | cons r rs ih =>
    obtain ⟨hr, hrs⟩ := List.forall_mem_cons.mp hserves
    obtain ⟨hrun, hruns'⟩ := List.forall_mem_cons.mp hruns
    obtain ⟨hone, hasked⟩ := Block.grant_issued (b := b) (h := h) hr.far
    have hrunning : (b.grant h r).isRunning = b.isRunning := by
      funext t
      rw [Block.isRunning, Block.isRunning, Block.task_eq_of_tables hone.tables]
    obtain ⟨hrest, hall⟩ := ih (b := b.grant h r) (fun q hq => (hrs q hq).of_issued hone) (fun q hq => hrunning ▸ hruns' q hq)
    have heq : b.issueAll h (r :: rs) = (b.grant h r).issueAll h rs := by
      rw [Block.issueAll, if_pos hrun, hr.issue]
    rw [heq]
    exact ⟨hone.trans hrest, List.forall_mem_cons.mpr ⟨hrest.asked r hasked, hall⟩⟩
end

/-! ### A FILL that starts (R215, R216) -/

section
variable {far len : Nat}

/-- The pieces of a far read lie within it. -/
theorem farPieces_within {p : Nat × Nat} (hp : p ∈ farPieces far len) : p.1 < len ∧ p.1 + p.2 ≤ len := by
  rw [farPieces] at hp
  split at hp
  · cases hp
  · obtain ⟨i, hi, rfl⟩ := List.mem_map.mp hp
    rw [List.mem_range, cdiv] at hi
    split <;> simp only <;> omega

theorem fillReads_isEmpty (t : TaskRef) (hlen : 0 < len) : (fillReads t far len).isEmpty = false := by
  have hcount : 0 < cdiv (far % 4096 + len) 4096 := by
    rw [cdiv]
    omega
  rw [List.isEmpty_eq_false_iff, fillReads, farPieces, if_neg (by omega)]
  simp only [ne_eq, List.map_eq_nil_iff, List.range_eq_nil]
  omega

/-- A committed range of a job serves each part of it. -/
theorem dirHolds_serves {d : List FarEntry} {job object version base n : Nat} {p : Nat × Nat} (h : dirHolds d job object version base n = true)
    (hp : p.1 + p.2 ≤ n) : dirServes d job (base + p.1) p.2 = true := by
  rw [dirHolds] at h
  split at h
  · next e he =>
    have hof := List.find?_some he
    simp only [Bool.and_eq_true, decide_eq_true_eq] at h hof
    obtain ⟨⟨hst, hlow⟩, hhigh⟩ := h
    obtain ⟨⟨hjob, -⟩, -⟩ := hof
    refine List.any_eq_true.mpr ⟨e, List.mem_of_find?_eq_some he, ?_⟩
    simp only [Bool.and_eq_true, decide_eq_true_eq]
    exact ⟨⟨⟨hjob, hst⟩, by omega⟩, by omega⟩
  · cases h

/-- A FILL's reads may each be issued where the whole of its range may (R212, R216). -/
theorem fillReads_serve {b : Block} {h : HalfId} {t : TaskRef} {g : Graph} {object version : Nat}
    (hg : b.graph t.half t.graph = some g)
    (hfar : farTier far = 4 ∧ far % 2 ^ 60 + len ≤ 2 ^ 60 ∧ dirHolds (b.tiers h).mainland g.job object version (far % 2 ^ 60) len = true ∨
      farTier far = 3 ∧ far % 2 ^ 44 + len ≤ 2 ^ 44 ∧ b.routable h (bits far 59 44) 0 = true ∧ ¬ b.domain.lost.contains (bits far 59 44 / 8)) :
    ∀ r ∈ fillReads t far len, Serves b h r := by
  intro r hr
  obtain ⟨p, hp, rfl⟩ := List.mem_map.mp hr
  obtain ⟨hlo, hhi⟩ := farPieces_within hp
  obtain ⟨htier, hfit, hholds⟩ | ⟨htier, hfit, hroute, hlost⟩ := hfar
  · have htier' : (far + p.1) / 2 ^ 60 = 4 := by
      rw [farTier] at htier
      omega
    have hbase : (far + p.1) % 2 ^ 60 = far % 2 ^ 60 + p.1 := by omega
    refine .inr ⟨by simp only [farRead, farRequest, farDest, htier']; rfl, ?_⟩
    have hserves := dirHolds_serves hholds hhi
    simp only [Block.mayIssue, farRead, farRequest, Block.requestJob, Option.bind_some, hg, Option.map_some, Option.getD_some, hbase, hserves,
      Bool.or_true]
  · have htier' : (far + p.1) / 2 ^ 60 = 3 := by
      rw [farTier] at htier
      omega
    have hbits : bits (far + p.1) 59 44 = bits far 59 44 := by
      simp only [bits]
      omega
    have hlt : bits far 59 44 < 65536 := Nat.mod_lt _ (by decide)
    exact .inl ⟨⟨bits far 59 44, hlt⟩, by simp only [farRead, farRequest, farDest, htier', if_true, hbits], hroute, hlost⟩
end

section
variable {s : State} {k : TaskRef} {g : Graph} {c : TaskCtx}

/-- The object of a FILL that starts. -/
def Block.fillObject (b : Block) (k : TaskRef) (g : Graph) (d : TaskDesc) (frames : List Nat) : CacheObject :=
  { job := g.job, object := d.moveObject, version := d.moveVersion, tier := d.moveTier, far := d.moveFar, length := d.moveLength,
    frames := frames, pin := d.pf 0 55 55 = 1, lastUse := b.tide k.half, refs := [], mappings := [], filling := some k }

/-- A block whose task waits for the reads of its object. -/
def Block.filling (b : Block) (k : TaskRef) (d : TaskDesc) (o : CacheObject) : Block :=
  ((b.zeroFrames frameSize o.frames).modTiers d.moveHalf (fun x => { x with objects := tabPut x.objects (b.newHandle d.moveHalf) o })).modTask k
    (fun c => { c with stage := 1, sent := (fillReads k d.moveFar d.moveLength).length, acked := 0, refs := [b.newHandle d.moveHalf] })

theorem Block.filling_tiers (b : Block) (k : TaskRef) (d : TaskDesc) (o : CacheObject) (h : HalfId) : (b.filling k d o).tiers h =
    if h = d.moveHalf then { b.tiers h with objects := tabPut (b.tiers h).objects (b.newHandle d.moveHalf) o } else b.tiers h := by
  have hzero : (b.zeroFrames frameSize o.frames).tiers h = b.tiers h := by rw [Block.tiers, Block.zeroFrames_half, Block.tiers]
  rw [Block.filling, Block.modTask_tiers, Block.tiers_modTiers, hzero]

theorem Block.modTask_ways (b : Block) (t : TaskRef) (f : TaskCtx → TaskCtx) : (b.modTask t f).ways = b.ways := by
  rw [Block.modTask, Block.modGraph]
  split
  · rfl
  · exact b.modHalf_ways t.half (fun _ => rfl) fun _ => rfl

theorem Block.filling_ways (b : Block) (k : TaskRef) (d : TaskDesc) (o : CacheObject) : (b.filling k d o).ways = b.ways := by
  rw [Block.filling, Block.modTask_ways, Block.modTiers_ways]
  refine Block.ways_eq (fun _ _ => Block.reg_eq (b.zeroFrames_regs _ _) _) (fun h => ?_) (b.zeroFrames_domain _ _)
  rw [Block.zeroFrames_half]
  exact ⟨rfl, rfl⟩

theorem Block.filling_task {b : Block} (hc : b.task k = some c) (d : TaskDesc) (o : CacheObject) : (b.filling k d o).task k = some { c with
    stage := 1, sent := (fillReads k d.moveFar d.moveLength).length, acked := 0, refs := [b.newHandle d.moveHalf] } := by
  refine Block.modTask_task ?_ _
  rw [Block.task_eq_of_tables (Block.modTiers_tables _ _ _), Block.task, Block.graph, Block.zeroFrames_half, ← Block.graph, ← Block.task, hc]

theorem Block.filling_graph {b : Block} {h : HalfId} {i : Nat} (hg : b.graph h i = some g) (d : TaskDesc) (o : CacheObject) :
    ∃ g', (b.filling k d o).graph h i = some g' ∧ g'.job = g.job := by
  have hkeep : ((b.zeroFrames frameSize o.frames).modTiers d.moveHalf (fun x =>
      { x with objects := tabPut x.objects (b.newHandle d.moveHalf) o })).graph h i = some g := by
    rw [Block.graph_eq_of_tables (Block.modTiers_tables _ _ _), Block.graph, Block.zeroFrames_half, ← Block.graph, hg]
  obtain ⟨g', hg', -, -, hjob⟩ := Block.modTask_graph_keeps _ k (fun c => { c with
    stage := 1, sent := (fillReads k d.moveFar d.moveLength).length, acked := 0, refs := [b.newHandle d.moveHalf] }) hkeep
  exact ⟨g', hg', hjob⟩

theorem fill_starts {frames : List Nat} {b : Block} (h : Runs s.block k 0x06 g c) (hmode : c.desc.moveMode = 3) (hstage : c.stage = 0)
    (hshared : s.block.sharedObject c.desc.moveHalf g.job c.desc.moveObject c.desc.moveVersion c.desc.moveTier = none)
    (hfree : anyMapped (s.block.slot g.slot).pages c.desc.moveVa (cdiv c.desc.moveLength frameSize * frameSize) = false)
    (hfar : farTier c.desc.moveFar = 4 ∧ c.desc.moveFar % 2 ^ 60 + c.desc.moveLength ≤ 2 ^ 60 ∧ dirHolds (s.block.tiers k.half).mainland g.job
        c.desc.moveObject c.desc.moveVersion (c.desc.moveFar % 2 ^ 60) c.desc.moveLength = true ∨
      farTier c.desc.moveFar = 3 ∧ c.desc.moveFar % 2 ^ 44 + c.desc.moveLength ≤ 2 ^ 44 ∧
        s.block.routable k.half (bits c.desc.moveFar 59 44) 0 = true ∧ ¬ s.block.domain.lost.contains (bits c.desc.moveFar 59 44 / 8))
    (hobjects : (s.block.tiers c.desc.moveHalf).objects.length < 65536) (hlen : 0 < c.desc.moveLength)
    (hframes : s.block.allocate c.desc.moveHalf c.desc.moveTier g.slot false (0x200 + g.slot.val) (cdiv c.desc.moveLength frameSize) =
      .ok frames b) (hc : b.task k = some c) :
    ∃ t o, exec (.fill k) s = .next t ∧ t.pending = s.pending ∧
      tabFind (t.block.tiers c.desc.moveHalf).objects (b.newHandle c.desc.moveHalf) = some o ∧ o.frames = frames ∧ o.filling = some k ∧
      o.job = g.job ∧ o.object = c.desc.moveObject ∧ o.version = c.desc.moveVersion ∧ o.length = c.desc.moveLength ∧
      t.block.task k = some { c with stage := 1, sent := (fillReads k c.desc.moveFar c.desc.moveLength).length, acked := 0,
                                               refs := [b.newHandle c.desc.moveHalf] } ∧
      ∀ r ∈ fillReads k c.desc.moveFar c.desc.moveLength, Asked t.block k.half r := by
  have hmoved := Block.allocate_remaps hframes
  obtain ⟨hg, -, hphase, -⟩ := id h
  have htask := Block.filling_task hc c.desc (s.block.fillObject k g c.desc frames)
  obtain ⟨g', hg', hjob⟩ := Block.filling_graph (k := k) ((hmoved.graph _ _).trans hg) c.desc (s.block.fillObject k g c.desc frames)
  have hways : (b.filling k c.desc (s.block.fillObject k g c.desc frames)).ways = s.block.ways := by
    rw [Block.filling_ways]
    exact Block.ways_eq (fun _ _ => Block.reg_eq hmoved.regs _) (fun i => by rw [hmoved.efing i]; exact ⟨rfl, rfl⟩) hmoved.domain
  have hmainland : ((b.filling k c.desc (s.block.fillObject k g c.desc frames)).tiers k.half).mainland = (s.block.tiers k.half).mainland := by
    rw [← hmoved.mainland, Block.filling_tiers]
    split <;> rfl
  have hserves : ∀ r ∈ fillReads k c.desc.moveFar c.desc.moveLength,
      Serves (b.filling k c.desc (s.block.fillObject k g c.desc frames)) k.half r := by
    refine fillReads_serve hg' (object := c.desc.moveObject) (version := c.desc.moveVersion) ?_
    have hroute := Block.routable_eq_of_ways hways k.half ⟨bits c.desc.moveFar 59 44, Nat.mod_lt _ (by decide)⟩ 0
    rw [hmainland, hjob, hroute, Block.lost_eq_of_ways hways]
    exact hfar
  have hruns : ∀ r ∈ fillReads k c.desc.moveFar c.desc.moveLength,
      r.task.all (b.filling k c.desc (s.block.fillObject k g c.desc frames)).isRunning = true := by
    intro r hr
    obtain ⟨p, -, rfl⟩ := List.mem_map.mp hr
    simp [farRead, farRequest, Block.isRunning, htask, hphase]
  obtain ⟨hissued, hasked⟩ := Block.issueAll_issued hserves hruns
  have hpresent : ¬ (farTier c.desc.moveFar = 4 ∧ ¬ dirHolds (s.block.tiers k.half).mainland g.job c.desc.moveObject c.desc.moveVersion
      (c.desc.moveFar % 2 ^ 60) c.desc.moveLength = true) := by
    rintro ⟨htier, hnot⟩
    obtain ⟨-, -, hholds⟩ | ⟨htier', -⟩ := hfar
    · exact hnot hholds
    · omega
  have hstart : s.block.startFill k g c.desc = (b.filling k c.desc (s.block.fillObject k g c.desc frames)).issueAll k.half
      (fillReads k c.desc.moveFar c.desc.moveLength) := by
    simp only [Block.startFill, hfree, Bool.false_eq_true, if_false, hpresent, Nat.not_le.mpr hobjects, hframes, fillReads_isEmpty k hlen]
    rfl
  refine ⟨{ s with block := s.block.startFill k g c.desc }, s.block.fillObject k g c.desc frames, ?_, rfl, ?_, rfl, rfl, rfl, rfl, rfl, rfl, ?_, ?_⟩
  · refine next_of_act (show exec (.fill k) s = execFill k s from rfl) ?_
    rw [h.onMode 3 hmode]
    simp only [hstage, ne_eq, not_true_eq_false, if_false, hshared]
  · rw [hstart, hissued.objects, Block.filling_tiers, if_pos rfl, tabFind_tabPut_same]
  · rw [hstart, Block.task_eq_of_tables hissued.tables, htask]
  · rw [hstart]
    exact hasked
end

/-- Settles O24: each move by what it maps, unmaps, lands or asks for; an allocation changes frames and objects alone. -/
theorem tierMoveTasks : Obligations.TierMoveTasks := by
  unfold Obligations.TierMoveTasks
  refine ⟨?_, ?_, ?_, ?_, ?_, ?_, ?_, ?_, ?_, ?_⟩
  · intro s k g c cells h hmode hcells hhits
    exact copy_lands h hmode hcells hhits
  · intro s k g c i h hmode hshaped hnone hfree hroom htier hi
    exact map_far h hmode hshaped hnone hfree hroom htier hi
  · intro s k g c frames b h hmode _ _ hfree hroom htier hframes hb hnone hshaped
    exact map_home h hmode hfree hroom htier hframes hb hnone hshaped
  · intro s k g c keys h hmode hnone hkeys hwithin
    exact unmap_unlists h hmode hnone hkeys hwithin
  · intro s k g c i o h hmode hstage hshaped hshared hfilled ho hfree hroom
    exact fill_shares h hmode hstage hshaped hshared hfilled ho hfree hroom
  · intro s k g c frames b h hmode hstage hshared hfree hfar hobjects hlen hframes hc
    exact fill_starts h hmode hstage hshared hfree hfar hobjects hlen hframes hc
  · intro s k g c i m o h hmode hat ho
    exact drop_unlists h hmode hat ho
  · intro s k g c v cells h hmode hv hcells hhits
    exact query_lands h hmode hv hcells hhits
  · intro s k g c i m o h hmode hat ho
    exact setPin_pins h hmode hat ho
  · intro s k g c i h hi hat
    exact unmapped_ends h hi hat

end Sys2Proof.Machine

/-! PROOFS. The arrays' debug control (spec/04_matrix_arrays.md R110-R113): a change of MX_DBG_CTRL by who asks for it, what a halt and its
end do to the core and to its debug registers, and from these the statement of this family. -/

namespace Sys2Proof.Machine

/-! ## Registers written for each item of a list -/

section
variable {α : Type} (a : α → Nat) (v : α → Word)

theorem Block.foldl_setReg_eq (l : List α) (b : Block) :
    l.foldl (fun x p => x.setReg (a p) (v p)) b = { b with regs := (l.foldl (fun x p => x.setReg (a p) (v p)) b).regs } := by
  induction l generalizing b with
  | nil => rfl
  | cons p l ih =>
    rw [List.foldl_cons, ih]
    rfl

theorem Block.foldl_setReg_reg_other {l : List α} {c : Nat} (h : ∀ p ∈ l, c ≠ a p) (b : Block) :
    (l.foldl (fun x p => x.setReg (a p) (v p)) b).reg c = b.reg c := by
  induction l generalizing b with
  | nil => rfl
  | cons p l ih =>
    rw [List.foldl_cons, ih (fun q hq => h q (List.mem_cons_of_mem _ hq)), Block.reg_setReg_other _ _ _ _ (h p List.mem_cons_self)]

theorem Block.foldl_setReg_core (l : List α) (b : Block) (n : Nat) :
    (l.foldl (fun x p => x.setReg (a p) (v p)) b).core n = b.core n := by
  rw [Block.foldl_setReg_eq]
  rfl

theorem Block.foldl_setReg_mem (l : List α) (b : Block) : (l.foldl (fun x p => x.setReg (a p) (v p)) b).mem = b.mem := by
  rw [Block.foldl_setReg_eq]
end

/-! ## A core's engines beside other updates -/

section
variable (b : Block) (n : Nat)

@[simp] theorem Block.setReg_core (a : Nat) (v : Word) : (b.setReg a v).core n = b.core n := rfl
@[simp] theorem Block.modReg_core (a : Nat) (f : Word → Word) : (b.modReg a f).core n = b.core n := rfl
@[simp] theorem Block.setZilsy_core (z : Zilsy) : (b.setZilsy z).core n = b.core n := rfl
@[simp] theorem Block.appendAudit_core (a : Actor) (c : Change) (r : Bool) : (b.appendAudit a c r).core n = b.core n := rfl

@[simp] theorem Block.logPermission_core (needed keyId job : Nat) : (b.logPermission needed keyId job).core n = b.core n := by
  rw [Block.core, Block.core, Block.logPermission_half]

@[simp] theorem Block.core_modCore_same (f : CoreEngines → CoreEngines) : (b.modCore n f).core n = f (b.core n) := by
  simp [Block.modCore, Block.core]
end

/-! ## A change of MX_DBG_CTRL (R110, R441) -/

/-- No debug register of an array is the mailbox's. -/
theorem not_mailboxReg_mxReg (n off : Nat) : ¬ mailboxReg (mxReg n off) :=
  not_mailboxReg_of_gt (by simp only [zilReg, mxReg]; omega)

section
variable {b x : Block} {p : Path} {a : Actor}

/-- The maker's change with DIAG_ACCESS set is made after its audit record. -/
theorem Block.debugWrite_of_maker (harr : Arrives b p [3] a x) (hdiag : b.image.diagAccess = true) (hroom : b.flash.audit.length < 64512)
    (n : Nat) (f : Block → Block) : ∃ z c, b.debugWrite p n f = (f ((b.setZilsy z).appendAudit a c)).accept.leave p := by
  obtain ⟨z, rfl⟩ := harr.eq_setZilsy
  have hopen : ¬ ¬ (b.setZilsy z).image.diagAccess = true := by simpa using hdiag
  have hspace : (b.setZilsy z).flash.audit.length < 64512 := by simpa using hroom
  exact ⟨z, _, by rw [Block.debugWrite, Block.byPath_of_arrives harr, Block.debugAnswer, if_neg hopen, Block.auditedAnswer_of_room hspace]⟩

/-- Another role's change, or one without DIAG_ACCESS, is refused for want of the maker's right and logged. -/
theorem Block.debugWrite_denied (harr : Arrives b p [1, 2, 3] a x) (hdenied : a.role ≠ 3 ∨ b.image.diagAccess = false)
    (n : Nat) (f : Block → Block) : b.debugWrite p n f = (x.refuseRole 3 a.keyId).leave p := by
  cases p with
  | host =>
    obtain ⟨hready, -, rfl, rfl⟩ := harr
    simp [Block.debugWrite, Block.byPath, hready, Block.refuseRole, Answer.leave, hostActor]
  | zilsy m =>
    obtain ⟨hears, hverify, -, rfl⟩ := harr
    by_cases hrole : a.role = 3
    · have hclosed : (b.useNonce m.nonce).image.diagAccess = false := hdenied.resolve_left (not_not_intro hrole)
      simp [Block.debugWrite, Block.byPath, Block.command, hears, hverify, hrole, Block.debugAnswer, hclosed, Answer.leave]
    · simp [Block.debugWrite, Block.byPath, Block.command, hears, hverify, hrole, Answer.leave]
end

/-! ## DBG_HALT and the halt reached (R111, R113) -/

theorem exec_dbgHalt_of_maker {s : State} {p : Path} {n : Fin 80} {a : Actor} {x : Block} (harr : Arrives s.block p [3] a x)
    (hdiag : s.block.image.diagAccess = true) (hroom : s.block.flash.audit.length < 64512) :
    ∃ t, exec (.dbgHalt p n) s = .next t ∧ t.pending = s.pending ∧ (t.block.core n.val).haltRequested = true ∧
      (t.block.core n.val).halted = (s.block.core n.val).halted ∧ t.block.flash.audit.length = s.block.flash.audit.length + 1 ∧
      t.block.mem = s.block.mem ∧ Answers t.block p stOk := by
  obtain ⟨z, c, hwrite⟩ := Block.debugWrite_of_maker harr hdiag hroom n.val (fun b => b.requestHalt n.val)
  refine ⟨_, next_of_act (show exec (.dbgHalt p n) s = execDbgHalt p n s from rfl) hwrite, rfl, ?_, ?_, ?_, ?_,
    Answer.answers_leave _ p rfl⟩
  · simp [Block.requestHalt]
  · simp [Block.requestHalt]
  · simp [Block.requestHalt, Block.modCore]
  · simp [Block.requestHalt, Block.modCore]

/-- An array that stands halted with the banks given, its tile at a group: the core's engines and the registers that show them. -/
def Block.haltedWith (b : Block) (n : Nat) (live : List (Option BankTile)) (group : Nat) : Block :=
  let b1 := b.modCore n (fun e => { e with haltRequested := false, halted := true, haltTide := b.tide (halfOf (n / 40)),
                                           banks := (live.zip e.banks).map (fun p => p.1.getD p.2) })
  let ix := live.zip (List.range 4)
  let b2 := ix.foldl (fun x p => x.setReg (mxReg n (0x40 + 8 * p.2)) (BitVec.ofNat 64 (bankWord p.1))) b1
  b2.setReg (mxReg n 0x20) (BitVec.ofNat 64 (2 ^ 32 + (ix.map (fun p => b2n p.1.isSome * 2 ^ (28 + p.2))).sum + group))

theorem exec_dbgHaltReached_of_requested {s : State} {n : Fin 80} (hreq : (s.block.core n.val).haltRequested = true)
    (hrun : (s.block.core n.val).halted = false) (point : HaltPoint) :
    ∃ live group, group < 2 ^ 18 ∧
      exec (.dbgHaltReached n point) s = .next { s with block := s.block.fresh.2.haltedWith n.val live group } := by
  have hgo : ¬ (¬ (s.block.core n.val).haltRequested = true ∨ (s.block.core n.val).halted = true) := by simp [hreq, hrun]
  refine ⟨_, _, ?_, next_of_act (show exec (.dbgHaltReached n point) s = execDbgHaltReached n point s from rfl) (if_neg hgo)⟩
  split
  · exact Nat.mod_lt _ (by decide)
  · decide

section
variable (b : Block) (n : Nat) (live : List (Option BankTile)) (group : Nat)

theorem Block.haltedWith_core : (b.haltedWith n live group).core n = { b.core n with
    haltRequested := false, halted := true, haltTide := b.tide (halfOf (n / 40)),
    banks := (live.zip (b.core n).banks).map (fun p => p.1.getD p.2) } := by
  rw [Block.haltedWith, Block.setReg_core, Block.foldl_setReg_core, Block.core_modCore_same]

theorem Block.haltedWith_mem : (b.haltedWith n live group).mem = b.mem := by
  rw [Block.haltedWith, Block.setReg_mem, Block.foldl_setReg_mem, Block.modCore, Block.modHalf_mem]
end

/-- The bits that show which banks are live stay under the one above them. -/
theorem sum_liveBits_add_le (live : List (Option BankTile)) (k s : Nat) :
    ((live.zip (List.range' s k)).map (fun p => b2n p.1.isSome * 2 ^ (28 + p.2))).sum + 2 ^ (28 + s) ≤ 2 ^ (28 + s + k) := by
  induction k generalizing live s with
  | zero => simp
  | succ k ih =>
    cases live with
    | nil => simpa using Nat.pow_le_pow_right (by decide) (by omega)
    | cons x xs =>
      have hrest := ih xs (s + 1)
      have hbit : b2n x.isSome ≤ 1 := by unfold b2n; split <;> omega
      have hfirst : b2n x.isSome * 2 ^ (28 + s) ≤ 2 ^ (28 + s) := by simpa using Nat.mul_le_mul_right (2 ^ (28 + s)) hbit
      have hdouble : 2 ^ (28 + (s + 1)) = 2 * 2 ^ (28 + s) := by rw [← Nat.add_assoc, Nat.pow_succ, Nat.mul_comm]
      simp only [List.range'_succ, List.zip_cons_cons, List.map_cons, List.sum_cons]
      rw [show 28 + s + (k + 1) = 28 + (s + 1) + k by omega]
      omega

/-- MX_DBG_STAT of an array that stands halted shows it in bit 32 (R112). -/
theorem Block.haltedWith_stat (b : Block) (n : Nat) (live : List (Option BankTile)) {group : Nat} (hgroup : group < 2 ^ 18) :
    (b.haltedWith n live group).regFld (mxReg n 0x20) 32 32 = 1 := by
  have hsum := sum_liveBits_add_le live 4 0
  rw [← List.range_eq_range'] at hsum
  rw [Block.regFld, Block.haltedWith, Block.reg_setReg_same, fld_ofNat _ _ _ (by decide), bits, Nat.shiftRight_eq_div_pow]
  omega

/-! ## DBG_RESUME (R111-R113) -/

section
variable {b : Block} {n : Nat} (h : (b.core n).halted = true)
include h

theorem Block.unhalt_core_of_halted : (b.unhalt n).core n = { b.core n with haltRequested := false, halted := false } := by
  rw [Block.unhalt, if_pos h, Block.foldl_setReg_core, Block.setReg_core, Block.modReg_core, Block.core_modCore_same]

theorem Block.unhalt_stat_of_halted : (b.unhalt n).reg (mxReg n 0x20) = 0 := by
  rw [Block.unhalt, if_pos h, Block.foldl_setReg_reg_other _ _ (by simp only [mxReg]; omega), Block.reg_setReg_same]

theorem Block.unhalt_cycles_of_halted : (b.unhalt n).reg (mxReg n 0x28) =
    b.reg (mxReg n 0x28) + BitVec.ofNat 64 (cyclesOf (b.tide (halfOf (n / 40)) - (b.core n).haltTide)) := by
  rw [Block.unhalt, if_pos h, Block.foldl_setReg_reg_other _ _ (by simp only [mxReg]; omega),
    Block.reg_setReg_other _ _ _ _ (by simp only [mxReg]; omega), Block.reg_modReg_same, Block.modCore, Block.modHalf_reg]
end

theorem exec_dbgResume_of_maker {s : State} {p : Path} {n : Fin 80} {a : Actor} {x : Block} (harr : Arrives s.block p [3] a x)
    (hdiag : s.block.image.diagAccess = true) (hroom : s.block.flash.audit.length < 64512) (hhalted : (s.block.core n.val).halted = true) :
    ∃ t, exec (.dbgResume p n) s = .next t ∧ t.pending = s.pending ∧ (t.block.core n.val).halted = false ∧
      (t.block.core n.val).haltRequested = false ∧ t.block.reg (mxReg n.val 0x20) = 0 ∧
      t.block.reg (mxReg n.val 0x28) = s.block.reg (mxReg n.val 0x28) +
        BitVec.ofNat 64 (cyclesOf (s.block.tide (halfOf (n.val / 40)) - (s.block.core n.val).haltTide)) ∧
      t.block.mem = s.block.mem ∧ t.block.flash.audit.length = s.block.flash.audit.length + 1 ∧ Answers t.block p stOk := by
  obtain ⟨z, c, hwrite⟩ := Block.debugWrite_of_maker harr hdiag hroom n.val (fun b => b.unhalt n.val)
  have hstands : (((s.block.setZilsy z).appendAudit a c).core n.val).halted = true := by simpa using hhalted
  have hcore : ((((s.block.setZilsy z).appendAudit a c).unhalt n.val).accept.leave p).core n.val =
      { s.block.core n.val with haltRequested := false, halted := false } := by
    rw [Answer.leave_core, Block.accept_block, Block.unhalt_core_of_halted hstands, Block.appendAudit_core, Block.setZilsy_core]
  have hlasting := Block.unhalt_lasting ((s.block.setZilsy z).appendAudit a c) n.val
  refine ⟨_, next_of_act (show exec (.dbgResume p n) s = execDbgResume p n s from rfl) hwrite, rfl, ?_, ?_, ?_, ?_, ?_, ?_,
    Answer.answers_leave _ p rfl⟩
  · rw [hcore]
  · rw [hcore]
  · rw [Answer.leave_reg _ _ _ (not_mailboxReg_mxReg _ _), Block.accept_block, Block.unhalt_stat_of_halted hstands]
  · rw [Answer.leave_reg _ _ _ (not_mailboxReg_mxReg _ _), Block.accept_block, Block.unhalt_cycles_of_halted hstands]
    rfl
  · simp [Block.mem_eq_of_lasting hlasting]
  · simp [Block.audit_eq_of_lasting hlasting]

/-! ## A refused change (R110) -/

/-- A refused change leaves the arrays, the audit area and memory alone. -/
theorem act_debugWrite_denied {s : State} {p : Path} {a : Actor} {x : Block} (harr : Arrives s.block p [1, 2, 3] a x)
    (hdenied : a.role ≠ 3 ∨ s.block.image.diagAccess = false) (n : Nat) (f : Block → Block) :
    ∃ t : State, s.act (fun b => b.debugWrite p n f) = .next t ∧ t.block.core n = s.block.core n ∧
      t.block.flash.audit = s.block.flash.audit ∧ t.block.mem = s.block.mem ∧ Answers t.block p stPermission := by
  have hwrite := Block.debugWrite_denied harr hdenied n f
  obtain ⟨z, rfl⟩ := harr.eq_setZilsy
  refine ⟨_, next_of_act rfl hwrite, ?_, ?_, ?_, Answer.answers_leave _ p rfl⟩
  · simp [Block.refuseRole]
  · simp [Block.audit_eq_of_lasting (Block.refuseRole_lasting _ _ _)]
  · simp [Block.mem_eq_of_lasting (Block.refuseRole_lasting _ _ _)]

/-- Settles O16: the maker's halt and resume after their audit record, the halt reached by the state that it shows, and the refusal. -/
theorem debugCommands : Obligations.DebugCommands := by
  unfold Obligations.DebugCommands
  refine ⟨?_, ?_, ?_, ?_⟩
  · intro s p n a x harr hdiag hroom
    exact exec_dbgHalt_of_maker harr hdiag hroom
  · intro s n point hreq hrun
    obtain ⟨live, group, hgroup, hexec⟩ := exec_dbgHaltReached_of_requested hreq hrun point
    have hcore := s.block.fresh.2.haltedWith_core n.val live group
    refine ⟨_, hexec, rfl, ?_, ?_, Block.haltedWith_stat _ _ _ hgroup, ?_, Block.haltedWith_mem _ _ _ _⟩
    · rw [hcore]
    · rw [hcore]
    · rw [hcore]
      rfl
  · intro s p n a x harr hdiag hroom hhalted
    exact exec_dbgResume_of_maker harr hdiag hroom hhalted
  · intro s p n a x c harr hdenied hc
    obtain rfl | rfl := hc
    · exact act_debugWrite_denied harr hdenied n.val _
    · exact act_debugWrite_denied harr hdenied n.val _

end Sys2Proof.Machine

/-! PROOFS. Sends, receives and token travel (R133-R136, R139, R362): the statement of this family takes a send's destination from the slot's
rank table as any number, and a state of the model's type holds one for which the send fails. -/

namespace Sys2Proof.Machine

/-! ## A rank beyond 16 bits (R320, R343, R344, R362)

A destination's route byte is read at its number behind the route table's base, and beyond 16 bits that place can be the half's COL_CUT_BYTES_0,
which a send itself counts in. The exit is open when the block goes out; the count of the block's bytes closes it for the end packet. A bind
copies ranks of 16 bits and leads to no such table, but the statement takes every state. -/

/-- The rank whose route byte is the low byte of half A's COL_CUT_BYTES_0: 98,880. -/
def strayRank : Nat := colReg .a 0x240 - efReg .a 0x8000

/-- The task that sends: task 0 of half A's graph 0. -/
def sendingTask : TaskRef := { half := .a, graph := 0, task := 0 }

/-- The send's state: position 1 is ready and has granted a block. -/
def sendingColl : CollState := { CollState.fresh false with readies := [1], credits := [(1, 1)] }

/-- A SEND_TO_PEER to position 1 of plan 0, of one FP32 value at VA 0x20000. -/
def sending : TaskCtx :=
  { freshCtx { index := 0, job := 9, operands := 1, gated := false, fnbValid := false, cls := 0, type := 0x08, fnbTide := 0, outList := 0,
               outCount := 0, inTokens := 0, shapeOutCount := 0, shapeOutBase := 0, shapeInBase := 0, coveUnits := 0, banks := 0,
               clusterMask := 0, cores := 0, slots := [{ role := 0, bound := 0, tdesc := 0 }],
               params := [BitVec.ofNat 64 (7 * 2 ^ 60), 0, BitVec.ofNat 64 (2 ^ 18), 0] } [] with
    phase := .running, fired := true, exts := [[1, 1, 1, 1, 1]], coll := some sendingColl
    tdescs := [[0x800, BitVec.ofNat 64 (1 + 2 ^ 18 + 2 ^ 36), BitVec.ofNat 64 (1 + 2 ^ 18 + 2 ^ 36), BitVec.ofNat 64 (1 + 4 * 2 ^ 20 + 16 * 2 ^ 40)]] }

/-- Its graph. -/
def sendingGraph : Graph :=
  { job := 9, slot := 0, step := 0, source := .queue 0, header := 0, depth := 1, launcher := none, queue := none, ringBase := 0, ringLog2 := 6,
    tail := 0, phase := true, held := 0, head := 0, ringFaultLogged := false, tasks := [sending] }

/-- Its plan: two ranks in one group. -/
def strayPlan : Plan := { n := 2, g := 2, own := 0, eps := [0, strayRank], cut := 0 }

/-- A block whose half A runs that send: the Isthmus alone is Up, and COL_CUT_BYTES_0 counts 9 bytes, which read as a route byte name the Isthmus. -/
def sendingBlock : Block :=
  { Block.reset with
    regs := [(colReg .a 0x240, 9)]
    slots := { JobSlot.reset with
      st := 1, job := 9, ranks := [[0, strayRank], []], plans := [[BitVec.ofNat 64 (2 ^ 36 + 2 ^ 22)], []]
      pages := [(0, { target := 0x200000000, big := false, writable := true, noPrefetch := false, handle := 0 })] } ::
        List.replicate 15 JobSlot.reset
    halfA := { Half.reset with
      graphs := [(0, sendingGraph)]
      efing := { Half.reset.efing with ports := List.replicate 9 Port.reset ++ [{ Port.reset with st := 2 }] } } }

/-- The block of 4 bytes raises the counter to 13, whose two halves name ports that are down: the end packet is not sent, and the task ends with
ST_ENDPOINT_LOST (R321). -/
theorem sendToPeer_stray_loses_endpoint : ∀ t, exec (.sendToPeer sendingTask) { block := sendingBlock, pending := [] } = .next t →
    (t.block.task sendingTask).map TaskCtx.status = some stEndpointLost := by
  intro t ht
  rw [← Host.Outcome.next.inj ht]
  decide +kernel

/-- Refutes O36, in its first clause: where the destination's route byte lies in COL_CUT_BYTES_0, the count of the block sent closes the way that
the end packet would take, and the send ends with ST_ENDPOINT_LOST. -/
theorem not_peerAndExpertTasks : ¬ Obligations.PeerAndExpertTasks := by
  unfold Obligations.PeerAndExpertTasks
  rintro ⟨hsend, -⟩
  have hruns : Runs sendingBlock sendingTask 0x08 sendingGraph sending := by
    simp only [Runs]; decide +kernel
  have hroutable : sendingBlock.routable .a strayRank 2 = true := by decide +kernel
  obtain ⟨t, hexec, -, ⟨d, hd, -, hok⟩, -⟩ := hsend { block := sendingBlock, pending := [] } sendingTask sendingGraph sending sendingColl
    strayPlan 4 [0, 0, 0, 0] hruns (by decide +kernel) rfl (by decide +kernel) (by decide +kernel) rfl (by decide +kernel) (by decide +kernel)
    (by decide) (by decide) (by decide +kernel) (by decide +kernel) (by decide +kernel) hroutable
  have hlost := sendToPeer_stray_loses_endpoint t hexec
  rw [hd, Option.map_some, hok] at hlost
  exact absurd hlost (by decide)

end Sys2Proof.Machine

/-! PROOFS. The vector engine (spec/06_vector_engine_and_attention.md R142, R144-R154, R176): two's complement on lanes, the block after one
instruction of a program, and from these the statements about the integer lanes, about the lane operations, and about loads, stores and reductions. -/

namespace Sys2Proof.Machine

/-! ## Two's complement (R149)

Reading `n` bits as signed is the library's balanced remainder, whose lemmas give its range and its class modulo 2ⁿ. -/

theorem sext_eq_bmod {n : Nat} (hn : 0 < n) (x : Nat) : sext n x = (x : Int).bmod (2 ^ n) := by
  obtain ⟨m, rfl⟩ := Nat.exists_eq_add_one.mpr hn
  have hhalf : (((2 ^ (m + 1) : Nat) : Int) + 1) / 2 = ((2 ^ m : Nat) : Int) := by omega
  rw [sext, Int.bmod_def, hhalf, Nat.add_sub_cancel]
  norm_cast

theorem sext_mem_range {n : Nat} (hn : 0 < n) (x : Nat) : -(2 : Int) ^ (n - 1) ≤ sext n x ∧ sext n x < 2 ^ (n - 1) := by
  obtain ⟨m, rfl⟩ := Nat.exists_eq_add_one.mpr hn
  have hlo := Int.le_bmod (x := x) (m := 2 ^ (m + 1)) (by positivity)
  have hhi := Int.bmod_lt (x := x) (m := 2 ^ (m + 1)) (by positivity)
  rw [sext_eq_bmod hn, Nat.add_sub_cancel]
  push_cast at *
  omega

theorem sext_modEq {n : Nat} (hn : 0 < n) (x : Nat) : sext n x ≡ x [ZMOD 2 ^ n] := by
  have h := Int.bmod_emod (x := x) (m := 2 ^ n)
  rw [sext_eq_bmod hn]
  push_cast at h
  exact h

theorem twos_cast (n : Nat) (v : Int) : (twos n v : Int) = v % 2 ^ n := Int.toNat_of_nonneg (Int.emod_nonneg _ (by positivity))

/-- An integer of `n` signed bits is read back as it was. -/
theorem sext_twos {n : Nat} (hn : 0 < n) {v : Int} (hlo : -(2 : Int) ^ (n - 1) ≤ v) (hhi : v < 2 ^ (n - 1)) : sext n (twos n v) = v := by
  have hemod : v % 2 ^ n = v % ((2 ^ n : Nat) : Int) := by push_cast; rfl
  rw [sext_eq_bmod hn, twos_cast, hemod, Int.emod_bmod]
  obtain ⟨m, rfl⟩ := Nat.exists_eq_add_one.mpr hn
  rw [Nat.add_sub_cancel] at hlo hhi
  apply Int.bmod_eq_of_le <;> (push_cast; omega)

/-- A quotient by a positive number, rounded down, stays in a range that holds 0. -/
theorem ediv_mem_range {lo hi v d : Int} (hlo : lo ≤ 0) (hhi : 0 < hi) (hd : 0 < d) (hv : lo ≤ v ∧ v < hi) : lo ≤ v / d ∧ v / d < hi := by
  rw [Int.le_ediv_iff_mul_le hd, Int.ediv_lt_iff_lt_mul hd]
  constructor <;> nlinarith

/-! ## The lanes of an integer type (R146) -/

theorem eight_mul_eWidth_pos (e : Nat) : 0 < 8 * eWidth e := by
  unfold eWidth
  split <;> decide

/-- A lane's value lies in its type's range. -/
theorem laneInt_mem_eRange (e x : Nat) : (eRange e).1 ≤ laneInt e x ∧ laneInt e x ≤ (eRange e).2 := by
  by_cases he : eSigned e
  · have hx := sext_mem_range (eight_mul_eWidth_pos e) x
    simp only [eRange, laneInt, he, if_true]
    omega
  · have hx := Nat.mod_lt x (show 0 < 2 ^ (8 * eWidth e) by positivity)
    simp only [eRange, laneInt, he, Bool.false_eq_true, if_false]
    zify at hx ⊢
    omega

/-- A lane's value and its bits agree modulo 2ⁿ. -/
theorem laneInt_modEq (e x : Nat) : laneInt e x ≡ x [ZMOD 2 ^ (8 * eWidth e)] := by
  by_cases he : eSigned e
  · simp only [laneInt, he, if_true]
    exact sext_modEq (eight_mul_eWidth_pos e) x
  · simp only [laneInt, he, Bool.false_eq_true, if_false]
    push_cast
    exact Int.mod_modEq _ _

/-- A value of the type's range is read back as it was. -/
theorem laneInt_twos {e : Nat} {v : Int} (hlo : (eRange e).1 ≤ v) (hhi : v ≤ (eRange e).2) : laneInt e (twos (8 * eWidth e) v) = v := by
  by_cases he : eSigned e
  · simp only [eRange, laneInt, he, if_true] at *
    exact sext_twos (eight_mul_eWidth_pos e) hlo (by omega)
  · simp only [eRange, laneInt, he, Bool.false_eq_true, if_false] at *
    push_cast
    rw [twos_cast, Int.emod_emod, Int.emod_eq_of_lt hlo (by omega)]

/-! ## Integer operations (R149) -/

section
variable (op : Int → Int → Int) (e x y : Nat)

theorem laneI_wrapped : (laneI op false e x y : Int) = op (laneInt e x) (laneInt e y) % 2 ^ (8 * eWidth e) := twos_cast _ _

theorem laneInt_laneI_saturated :
    laneInt e (laneI op true e x y) = max (eRange e).1 (min (eRange e).2 (op (laneInt e x) (laneInt e y))) :=
  laneInt_twos (le_max_left _ _) (max_le ((laneInt_mem_eRange e 0).1.trans (laneInt_mem_eRange e 0).2) (min_le_left _ _))

/-- An operation whose result is in range needs no wrapping. -/
theorem laneInt_laneI_exact (hlo : (eRange e).1 ≤ op (laneInt e x) (laneInt e y)) (hhi : op (laneInt e x) (laneInt e y) ≤ (eRange e).2) :
    laneInt e (laneI op false e x y) = op (laneInt e x) (laneInt e y) := laneInt_twos hlo hhi
end

theorem sext_laneSra (e x y : Nat) :
    sext (8 * eWidth e) (laneSra e x y) = sext (8 * eWidth e) x / (2 : Int) ^ (y % (8 * eWidth e)) := by
  obtain ⟨hlo, hhi⟩ := ediv_mem_range (d := 2 ^ (y % (8 * eWidth e))) (by simp) (by positivity) (by positivity)
    (sext_mem_range (eight_mul_eWidth_pos e) x)
  exact sext_twos (eight_mul_eWidth_pos e) hlo hhi

section
variable {e imm : Nat} (x y z : Nat)

theorem laneOp_wraps (himm : imm % 2 = 0) :
    laneOp 0x30 e imm x y z = (x + y) % 2 ^ (8 * eWidth e) ∧
      ((laneOp 0x31 e imm x y z : Nat) : Int) = ((x : Int) - (y : Int)) % 2 ^ (8 * eWidth e) ∧
      laneOp 0x32 e imm x y z = x * y % 2 ^ (8 * eWidth e) := by
  have hsat : decide (imm % 2 = 1) = false := by simp [himm]
  have hx := laneInt_modEq e x
  have hy := laneInt_modEq e y
  simp only [laneOp, hsat]
  zify
  simp only [laneI_wrapped]
  exact ⟨hx.add hy, hx.sub hy, hx.mul hy⟩

theorem laneOp_saturates (himm : imm % 2 = 1) :
    laneInt e (laneOp 0x30 e imm x y z) = max (eRange e).1 (min (eRange e).2 (laneInt e x + laneInt e y)) ∧
      laneInt e (laneOp 0x31 e imm x y z) = max (eRange e).1 (min (eRange e).2 (laneInt e x - laneInt e y)) ∧
      laneInt e (laneOp 0x32 e imm x y z) = max (eRange e).1 (min (eRange e).2 (laneInt e x * laneInt e y)) := by
  have hsat : decide (imm % 2 = 1) = true := by simp [himm]
  simp only [laneOp, hsat, laneInt_laneI_saturated, and_self]
end

/-- Settles O22: a lane's bits and its value agree modulo 2ⁿ, and what lies in the type's range is read back exactly. -/
theorem integerLanesFollowTwosComplement : Obligations.IntegerLanesFollowTwosComplement := by
  unfold Obligations.IntegerLanesFollowTwosComplement
  intro e imm x y z _ _
  obtain ⟨hxlo, hxhi⟩ := laneInt_mem_eRange e x
  obtain ⟨hylo, hyhi⟩ := laneInt_mem_eRange e y
  refine ⟨laneOp_wraps x y z, laneOp_saturates x y z, ?_, ?_, ?_, sext_laneSra e x y, ?_, ?_⟩
  · exact laneInt_laneI_exact max e x y (le_max_of_le_left hxlo) (max_le hxhi hyhi)
  · exact laneInt_laneI_exact min e x y (le_min hxlo hylo) (min_le_of_left_le hxhi)
  · exact Nat.shiftRight_eq_div_pow _ _
  · intro he
    rw [laneInt, if_pos he]
    exact sext_mem_range (eight_mul_eWidth_pos e) x
  · exact Int.emod_eq_zero_of_dvd (laneInt_modEq e x).symm.dvd

/-! ## One instruction (R142, R147, R176) -/

/-- The block after an instruction whose bytes land whole: the task takes the lanes that wait and the counts, the engine moves on, and the
issuing cycles are counted. -/
def Block.vecStepped (b : Block) (n : Nat) (p : VecPlace) (x : VecEffect) : Block :=
  (((b.landCells x.cells).1.modTask p.t (fun c => { c with lanes := x.lanes, counts := x.counts })).modCore n
    (fun e => { e with vec := p.advance x })).modReg (vxReg n 8)
      (fun w => w + BitVec.ofNat 64 (opCycles (vecOpcode p.word) (p.c.vxLanes p.unit).length))

section
variable {b : Block} {n : Nat} {p : VecPlace} {x : VecEffect}

theorem Block.vecStep_of_effect (hx : p.effect b = .ok x) (hhits : b.badHits x.cells = []) : b.vecStep n p = (b.vecStepped n p x, true) := by
  simp only [Block.vecStep, hx, Block.landCells_stop hhits, Block.vecStepped]

@[simp] theorem Block.vecStepped_vec : ((b.vecStepped n p x).core n).vec = p.advance x := by
  simp [Block.vecStepped]

/-- The core's busy counter goes up by the issuing cycles. -/
theorem Block.vecStepped_reg_busy : (b.vecStepped n p x).reg (vxReg n 8) =
    b.reg (vxReg n 8) + BitVec.ofNat 64 (opCycles (vecOpcode p.word) (p.c.vxLanes p.unit).length) := by
  rw [Block.vecStepped, Block.reg_modReg_same, Block.reg_eq (Block.modCore_regs _ _ _), Block.reg_eq (Block.modTask_regs _ _ _),
    Block.reg_eq (Block.landCells_regs _ _)]

theorem Block.vecStepped_reg_other {a : Nat} (ha : a ≠ vxReg n 8) : (b.vecStepped n p x).reg a = b.reg a := by
  rw [Block.vecStepped, Block.reg_modReg_other _ _ _ _ ha, Block.reg_eq (Block.modCore_regs _ _ _), Block.reg_eq (Block.modTask_regs _ _ _),
    Block.reg_eq (Block.landCells_regs _ _)]

theorem Block.vecStepped_memory : (b.vecStepped n p x).memory = (b.landCells x.cells).1.memory := by
  simp [Block.vecStepped]

theorem Block.vecStepped_landed (hhits : b.badHits x.cells = []) : Landed b (b.vecStepped n p x) x.cells :=
  (Block.landCells_landed hhits).of_memory Block.vecStepped_memory

theorem Block.vecStepped_mem_of_no_cells (hx : x.cells = []) : (b.vecStepped n p x).mem = b.mem := by
  rw [Block.mem_eq_of_memory Block.vecStepped_memory, hx, Block.landCells_mem b.badHits_nil, List.foldl_nil]
end

/-! ## The commands of the instructions -/

/-- A command that stands for one opcode's instruction on a core. -/
def IssuesVec (i : Instr) (n : Fin 80) (op : Nat) (f : VecFields) : Prop := ∀ s, exec i s = s.act (fun b => b.vecOp n.val op f)

/-- It steps an engine that stands at this instruction. -/
theorem IssuesVec.next {i : Instr} {n : Fin 80} {op : Nat} {f : VecFields} (hi : IssuesVec i n op f) {s : State} {p : VecPlace} {x : VecEffect}
    (hp : s.block.vecPlace n.val = some p) (hop : vecOpcode p.word = op) (hf : vecFields p.word = f) (hx : p.effect s.block = .ok x)
    (hhits : s.block.badHits x.cells = []) : exec i s = .next { s with block := s.block.vecStepped n.val p x } :=
  next_of_act (hi s) (by simp only [Block.vecOp, hp, hop, hf, and_self, if_true, Block.vecStep_of_effect hx hhits])

section
variable (n : Fin 80) (f : VecFields)

/-- The commands that write a register lane by lane from A, B and C, each with its opcode (R147). -/
def laneCommands : List (Instr × Nat) :=
  [(Instr.add n f, 0x10), (Instr.sub n f, 0x11), (Instr.mul n f, 0x12), (Instr.fma n f, 0x13), (Instr.max n f, 0x14), (Instr.min n f, 0x15),
    (Instr.abs n f, 0x16), (Instr.neg n f, 0x17), (Instr.div n f, 0x18), (Instr.sqrt n f, 0x19), (Instr.cmp n f, 0x1A),
    (Instr.sel n f, 0x1B), (Instr.exp2 n f, 0x20), (Instr.log2 n f, 0x21), (Instr.rcp n f, 0x22), (Instr.rsqrt n f, 0x23),
    (Instr.tanh n f, 0x24), (Instr.iadd n f, 0x30), (Instr.isub n f, 0x31), (Instr.imul n f, 0x32), (Instr.imax n f, 0x33),
    (Instr.imin n f, 0x34), (Instr.shl n f, 0x35), (Instr.shr n f, 0x36), (Instr.sra n f, 0x37), (Instr.and n f, 0x38),
    (Instr.or n f, 0x39), (Instr.xor n f, 0x3A), (Instr.not n f, 0x3B), (Instr.icmp n f, 0x3C), (Instr.cvt n f, 0x40)]

/-- The reductions' commands, each with its opcode (R152). -/
def reduceCommands : List (Instr × Nat) :=
  [(Instr.rsum n f, 0x50), (Instr.rmax n f, 0x51), (Instr.rmin n f, 0x52), (Instr.rmean n f, 0x53), (Instr.gap n f, 0x54)]

variable {n f} {e : Instr × Nat}

theorem issuesVec_of_mem_laneCommands (he : e ∈ laneCommands n f) : IssuesVec e.1 n e.2 f := by
  intro s
  fin_cases he <;> rfl

theorem opcode_of_mem_laneCommands (he : e ∈ laneCommands n f) : 0x10 ≤ e.2 ∧ e.2 ≤ 0x40 := by
  fin_cases he <;> simp

theorem issuesVec_of_mem_reduceCommands (he : e ∈ reduceCommands n f) : IssuesVec e.1 n e.2 f := by
  intro s
  fin_cases he <;> rfl

theorem isRed_of_mem_reduceCommands (he : e ∈ reduceCommands n f) : isRed e.2 = true := by
  fin_cases he <;> rfl
end

/-! ## What each instruction does (R144, R147, R151-R154) -/

section
variable {p : VecPlace} {b : Block} {f : VecFields} {x : VecEffect} {op : Nat}

section
variable (hop : vecOpcode p.word = op) (hf : vecFields p.word = f)
include hop hf

theorem VecPlace.effect_of_lane (hlo : 0x10 ≤ op) (hhi : op ≤ 0x40) : p.effect b =
    .ok (p.write f.dst.val (dstType op f) (((p.read f.srcA.val).zip ((p.read f.srcB.val).zip (p.read f.srcC.val))).map
      (fun l => laneOp op f.etype (immN f) l.1 l.2.1 l.2.2))) := by
  have hred : isRed op = false := by simp only [isRed, Bool.and_eq_false_iff, decide_eq_false_iff_not]; omega
  have hother : op ≠ 0x01 ∧ op ≠ 0x02 ∧ op ≠ 0x03 ∧ op ≠ 0x04 := by omega
  simp [VecPlace.effect, hop, hf, hred, hother]

theorem VecPlace.effect_of_reduction (hred : isRed op = true) : p.effect b = .ok (p.reduce op f) := by
  have hge : 0x50 ≤ op := by simp only [isRed, Bool.and_eq_true, decide_eq_true_eq] at hred; exact hred.1
  have hother : op ≠ 0x01 ∧ op ≠ 0x02 ∧ op ≠ 0x03 ∧ op ≠ 0x04 := by omega
  simp [VecPlace.effect, hop, hf, hred, hother]
end

theorem VecPlace.effect_of_ld (hop : vecOpcode p.word = 0x01) : p.effect b = p.load b (vecFields p.word) := by
  simp [VecPlace.effect, hop]

theorem VecPlace.effect_of_st (hop : vecOpcode p.word = 0x02) : p.effect b = p.store b (vecFields p.word) := by
  simp [VecPlace.effect, hop]

theorem VecPlace.effect_of_ldi (hop : vecOpcode p.word = 0x03) (hf : vecFields p.word = f) : p.effect b =
    .ok (p.write f.dst.val (dstType 0x03 f) ((p.c.vxLanes p.unit).map (fun _ => laneImm f.etype (immN f)))) := by
  simp [VecPlace.effect, hop, hf, dstType, isRed]

theorem VecPlace.effect_of_iota (hop : vecOpcode p.word = 0x04) (hf : vecFields p.word = f) : p.effect b =
    .ok (p.write f.dst.val (dstType 0x04 f) ((p.c.vxLanes p.unit).map
      (fun l => [l.1, l.2.1.1, l.2.1.2.1, l.2.1.2.2.1, l.2.1.2.2.2].getD (immN f % 8) 0))) := by
  simp [VecPlace.effect, hop, hf, dstType]

/-- A load writes no memory (R144). -/
theorem VecPlace.load_cells (h : p.load b f = .ok x) : x.cells = [] := by
  simp only [VecPlace.load] at h
  split at h
  · cases h
  · cases h
    split <;> rfl

/-- A load writes its destination register in the type that the instruction names (R144). -/
theorem VecPlace.load_register (h : p.load b f = .ok x) :
    ∃ lanes, tabFind x.regs f.dst.val = some { etype := f.etype, lanes := lanes } := by
  simp only [VecPlace.load] at h
  split at h
  · cases h
  · cases h
    split <;> exact ⟨_, tabFind_tabPut_same _ _ _⟩

/-- A store leaves the engine's registers and accumulators alone (R151). -/
theorem VecPlace.advance_store (h : p.store b f = .ok x) : p.advance x = p.advance p.idle := by
  unfold VecPlace.store at h
  extract_lets _ _ _ mine at h
  by_cases hmine : mine = false
  · rw [if_pos hmine] at h
    cases h
    rfl
  · rw [if_neg hmine] at h
    split at h
    · cases h
    · cases h
      rfl

/-- A reduction writes no memory (R153). -/
theorem VecPlace.reduce_cells : (p.reduce op f).cells = [] := by
  simp only [VecPlace.reduce]
  split
  · split <;> rfl
  · rfl
end

/-- Settles O19: each command steps the engine, and the instruction's effect is the write of its lanes. -/
theorem vectorLaneInstructions : Obligations.VectorLaneInstructions := by
  unfold Obligations.VectorLaneInstructions
  intro s n f p i op out hp hop hf hmem
  have hwrite : IssuesVec i n op f ∧ p.effect s.block = .ok (p.write f.dst.val (dstType op f) out) := by
    rw [List.mem_append, List.mem_map] at hmem
    obtain hconst | ⟨e, he, heq⟩ := hmem
    · simp only [List.mem_cons, List.not_mem_nil, or_false, Prod.mk.injEq] at hconst
      obtain ⟨rfl, rfl, rfl⟩ | ⟨rfl, rfl, rfl⟩ := hconst
      · exact ⟨fun _ => rfl, VecPlace.effect_of_ldi hop hf⟩
      · exact ⟨fun _ => rfl, VecPlace.effect_of_iota hop hf⟩
    · cases heq
      obtain ⟨hlo, hhi⟩ := opcode_of_mem_laneCommands he
      exact ⟨issuesVec_of_mem_laneCommands he, VecPlace.effect_of_lane hop hf hlo hhi⟩
  obtain ⟨hissue, heffect⟩ := hwrite
  refine ⟨_, hissue.next hp hop hf heffect (Block.badHits_nil _), rfl, Block.vecStepped_mem_of_no_cells rfl, Block.vecStepped_vec, ?_,
    fun a ha => Block.vecStepped_reg_other ha⟩
  rw [Block.vecStepped_reg_busy, hop]

/-- Settles O20: each command steps the engine; of the effects the store's alone has bytes to land. -/
theorem vectorMemoryAndReductionInstructions : Obligations.VectorMemoryAndReductionInstructions := by
  unfold Obligations.VectorMemoryAndReductionInstructions
  refine ⟨?_, ?_, ?_⟩
  · rintro s n f p x hp hop rfl hload
    have hcells := VecPlace.load_cells hload
    have hissue : IssuesVec (.ld n (vecFields p.word)) n 0x01 (vecFields p.word) := fun _ => rfl
    exact ⟨_, hissue.next hp hop rfl ((VecPlace.effect_of_ld hop).trans hload) (by rw [hcells, Block.badHits_nil]), rfl,
      Block.vecStepped_mem_of_no_cells hcells, Block.vecStepped_vec, VecPlace.load_register hload, fun a ha => Block.vecStepped_reg_other ha⟩
  · rintro s n f p x hp hop rfl hstore hhits
    have hissue : IssuesVec (.st n (vecFields p.word)) n 0x02 (vecFields p.word) := fun _ => rfl
    exact ⟨_, hissue.next hp hop rfl ((VecPlace.effect_of_st hop).trans hstore) hhits, rfl, Block.vecStepped_landed hhits,
      Block.vecStepped_vec.trans (VecPlace.advance_store hstore), fun a ha => Block.vecStepped_reg_other ha⟩
  · intro s n f p i op hp hop hf hmem
    have heffect := VecPlace.effect_of_reduction (b := s.block) hop hf (isRed_of_mem_reduceCommands hmem)
    exact ⟨_, (issuesVec_of_mem_reduceCommands hmem).next hp hop hf heffect (by rw [VecPlace.reduce_cells, Block.badHits_nil]), rfl,
      Block.vecStepped_mem_of_no_cells VecPlace.reduce_cells, Block.vecStepped_vec, fun a ha => Block.vecStepped_reg_other ha⟩

end Sys2Proof.Machine

/-! PROOFS. Media tasks (spec/07_convolution_and_vision_ops.md R191; spec/10_harbour_video.md R257-R279;
spec/11_harbour_images_audio_text.md R281-R305): what the end of a task leaves of the Harbour, what the media units count, the block that a
task's bytes land on, and from these the statement of this family. -/

namespace Sys2Proof.Machine

/-! ## The Harbour under the end of a task (R46, R257) -/

section
variable {b c : Block}

theorem Block.harbour_eq_of_half {i : HalfId} (h : b.half i = c.half i) : b.harbour i = c.harbour i := congrArg Half.harbour h

theorem Block.stream_eq_of_harbour {i : HalfId} (h : b.harbour i = c.harbour i) (n : Nat) : b.stream i n = c.stream i n := by
  rw [Block.stream, Block.stream, h]

variable (b) (i : HalfId)

theorem Block.modHalf_harbour (h : HalfId) {f : Half → Half} (hf : ∀ x, (f x).harbour = x.harbour) :
    (b.modHalf h f).harbour i = b.harbour i := by
  by_cases hi : i = h
  · rw [Block.harbour, hi, Block.half_modHalf_same, hf]
    rfl
  · exact Block.harbour_eq_of_half (Block.half_modHalf_other _ _ _ _ hi)

@[simp] theorem Block.modTiers_harbour (h : HalfId) (f : Tiers → Tiers) : (b.modTiers h f).harbour i = b.harbour i :=
  b.modHalf_harbour i h fun _ => rfl

@[simp] theorem Block.log_harbour (e : Event) : (b.log e).harbour i = b.harbour i := Block.harbour_eq_of_half (b.log_half e i)

@[simp] theorem Block.landCells_harbour (cells : List Host.Cell) : (b.landCells cells).1.harbour i = b.harbour i := rfl

@[simp] theorem Block.modTask_harbour (t : TaskRef) (f : TaskCtx → TaskCtx) : (b.modTask t f).harbour i = b.harbour i := by
  rw [Block.modTask, Block.modGraph]
  split
  · rfl
  · exact b.modHalf_harbour i _ fun _ => rfl

@[simp] theorem Block.modObject_harbour (n : Nat) (f : CacheObject → CacheObject) : (b.modObject n f).harbour i = b.harbour i := by
  rw [Block.modObject]
  split <;> simp

@[simp] theorem Block.freeFrames_harbour (l : List Nat) : (b.freeFrames l).harbour i = b.harbour i := by
  induction l generalizing b with
  | nil => rfl
  | cons f fs ih => rw [Block.freeFrames, ih, Block.freeFrame, Block.modTiers_harbour]

@[simp] theorem Block.freeObject_harbour (n : Nat) : (b.freeObject n).harbour i = b.harbour i := by
  rw [Block.freeObject]
  split <;> simp

@[simp] theorem Block.reapObject_harbour (n : Nat) : (b.reapObject n).harbour i = b.harbour i := by
  rw [Block.reapObject]
  split
  · rfl
  · split <;> simp

@[simp] theorem Block.reapObjects_harbour (l : List Nat) : (b.reapObjects l).harbour i = b.harbour i := by
  induction l generalizing b with
  | nil => rfl
  | cons n ns ih => rw [Block.reapObjects, ih, Block.reapObject_harbour]

theorem Block.harbour_foldl {α : Type} (f : Block → α → Block) (hf : ∀ b x, (f b x).harbour i = b.harbour i) (l : List α) :
    (l.foldl f b).harbour i = b.harbour i := by
  induction l generalizing b with
  | nil => rfl
  | cons x xs ih => rw [List.foldl_cons, ih, hf]

@[simp] theorem Block.dropRefs_harbour (t : TaskRef) : (b.dropRefs t).harbour i = b.harbour i := by
  rw [Block.dropRefs, Block.reapObjects_harbour]
  exact b.harbour_foldl i _ (fun x n => x.modObject_harbour i n _) _

@[simp] theorem Block.fix_harbour (t : TaskRef) (status detail : Nat) : (b.fix t status detail).harbour i = b.harbour i := by
  simp only [Block.fix]
  split
  · split
    · split <;> simp
    · rfl
  · rfl

/-! ### Changes of the Harbour -/

theorem Block.harbour_modHarbour_same (f : Harbour → Harbour) : (b.modHarbour i f).harbour i = f (b.harbour i) := by
  rw [Block.harbour, Block.modHarbour, Block.half_modHalf_same]
  rfl

@[simp] theorem Block.modHarbour_memory (f : Harbour → Harbour) : (b.modHarbour i f).memory = b.memory := b.modHalf_memory i _
@[simp] theorem Block.modHarbour_regs (f : Harbour → Harbour) : (b.modHarbour i f).regs = b.regs := b.modHalf_regs i _

theorem Block.setStream_stream (n : Nat) (x : StreamCtx) : (b.setStream i n x).stream i n = some x := by
  rw [Block.stream, Block.setStream, Block.harbour_modHarbour_same, tabFind_tabPut_same]
end

/-- A task that ends on a changed Harbour: neither memory nor a register changes. -/
theorem Runs.fix_modHarbour {b : Block} {k : TaskRef} {ty : Nat} {g : Graph} {c : TaskCtx} (h : Runs b k ty g c) (f : Harbour → Harbour)
    (status detail : Nat) : Ended ((b.modHarbour k.half f).fix k status detail) k status ∧
      ((b.modHarbour k.half f).fix k status detail).harbour k.half = f (b.harbour k.half) ∧
      ((b.modHarbour k.half f).fix k status detail).mem = b.mem ∧ ((b.modHarbour k.half f).fix k status detail).regs = b.regs := by
  refine ⟨((h.heads status).of_tables (b.modHarbour_tables k.half f)).fix detail, ?_, Block.mem_eq_of_memory ?_, ?_⟩
  · rw [Block.fix_harbour, Block.harbour_modHarbour_same]
  · rw [Block.fix_memory, Block.modHarbour_memory]
  · rw [Block.fix_regs, Block.modHarbour_regs]

/-! ## What the media units count (R279, R305) -/

theorem vidReg_mediaReg (h : HalfId) {off : Nat} (ho : off < 0x10000) : mediaReg h (vidReg h off) := by
  simp only [mediaReg, vidReg]
  omega

theorem inReg_mediaReg (h : HalfId) {off : Nat} (ho : off < 0x10000) : mediaReg h (inReg h off) := by
  simp only [mediaReg, inReg]
  omega

theorem unitCounter_mediaReg (h : HalfId) {p : Nat} (hp : p < 27) : mediaReg h (unitCounter h p) := by
  rw [unitCounter]
  split
  · exact vidReg_mediaReg h (by omega)
  · exact inReg_mediaReg h (by omega)

/-- Of memory, the slots, the halves and the registers, the registers of a half's media units alone differ. -/
structure MediaCount (h : HalfId) (b c : Block) : Prop where
  memory : c.memory = b.memory
  slots : c.slots = b.slots
  half : ∀ i, c.half i = b.half i
  reg : ∀ a, ¬ mediaReg h a → c.reg a = b.reg a

section
variable {h : HalfId} {b c d : Block}

theorem MediaCount.refl (h : HalfId) (b : Block) : MediaCount h b b := ⟨rfl, rfl, fun _ => rfl, fun _ _ => rfl⟩

theorem MediaCount.trans (m : MediaCount h b c) (n : MediaCount h c d) : MediaCount h b d :=
  ⟨n.memory.trans m.memory, n.slots.trans m.slots, fun i => (n.half i).trans (m.half i), fun a ha => (n.reg a ha).trans (m.reg a ha)⟩

theorem MediaCount.tables (m : MediaCount h b c) : c.tables = b.tables := by simp only [Block.tables, m.half, m.slots]

variable (b)

theorem Block.modReg_mediaCount {a : Nat} (ha : mediaReg h a) (f : Word → Word) : MediaCount h b (b.modReg a f) :=
  ⟨b.modReg_memory a f, b.modReg_slots a f, b.modReg_half a f, fun x hx => b.reg_modReg_other a x f fun e => hx (e ▸ ha)⟩

theorem Block.count_mediaCount {a : Nat} (ha : mediaReg h a) (hi lo n : Nat) : MediaCount h b (b.count a hi lo n) := b.modReg_mediaCount ha _

/-- A unit that a task is assigned to counts. -/
theorem Block.countUnit_mediaCount (k : TaskRef) (n : Nat) : MediaCount k.half b (b.countUnit k n) := by
  rw [Block.countUnit]
  split
  · next p hp => exact b.modReg_mediaCount (unitCounter_mediaReg k.half (List.mem_range.mp (List.mem_of_find?_eq_some hp))) _
  · exact .refl _ b

theorem Block.countSample_mediaCount (h : HalfId) (st : Nat) : MediaCount h b (b.countSample h st) := by
  have hreg : mediaReg h (inReg h 0x20) := inReg_mediaReg h (by decide)
  rw [Block.countSample]
  split
  · exact b.count_mediaCount hreg 63 48 1
  · split
    · exact b.count_mediaCount hreg 47 32 1
    · exact .refl h b

theorem Block.countStatus_mediaCount (h : HalfId) (st : Nat) : MediaCount h b (b.countStatus h st) := by
  have hreg : mediaReg h (vidReg h 0x28) := vidReg_mediaReg h (by decide)
  rw [Block.countStatus]
  split
  · exact b.count_mediaCount hreg 63 32 1
  · split
    · exact b.count_mediaCount hreg 31 0 1
    · exact .refl h b

theorem Block.countClip_mediaCount (h : HalfId) (x : Clip) : MediaCount h b (b.countClip h x) := by
  have hreg : mediaReg h (vidReg h 0x20) := vidReg_mediaReg h (by decide)
  exact (b.count_mediaCount hreg 63 48 _).trans ((Block.count_mediaCount _ hreg 47 32 _).trans ((Block.count_mediaCount _ hreg 31 16 _).trans
    ((Block.count_mediaCount _ hreg 15 8 _).trans (Block.count_mediaCount _ hreg 7 0 _))))
end

/-! ## The block that a task's bytes land on (R46) -/

/-- What a running task leaves of a block before its bytes land: memory and the slots stay, of the registers those that the work does not own,
and the task still runs. -/
structure Prepared (own : Nat → Prop) (b y : Block) (k : TaskRef) : Prop where
  memory : y.memory = b.memory
  slots : y.slots = b.slots
  reg : ∀ a, ¬ own a → y.reg a = b.reg a
  task : ∃ d, y.task k = some d ∧ d.phase = .running

/-- The registers that a media task's work may change: those of its half's media units, and the count of dropped run-aheads (R204). -/
def mediaOwn (h : HalfId) (a : Nat) : Prop := mediaReg h a ∨ a = tierReg h 0x28

/-- Those of a crop: the unit's two counters besides (R191). -/
def cropOwn (h : HalfId) (a : Nat) : Prop := mediaOwn h a ∨ a = regBase h + 0x1C30100

section
variable {own : Nat → Prop} {b y z : Block} {k : TaskRef} {ty : Nat} {g : Graph} {c : TaskCtx} {cells : List Host.Cell}

theorem Runs.prepared_touch (h : Runs b k ty g c) (ho : own (tierReg k.half 0x28)) : Prepared own b (b.touch k g c) k := by
  obtain ⟨d, hd, hphase, -⟩ := h.touch_task
  exact ⟨b.touch_memory k g c, b.touch_slots k g c, fun _ ha => b.touch_reg_other k g c fun e => ha (e ▸ ho), d, hd, hphase⟩

theorem Prepared.of_tables (p : Prepared own b y k) (hm : z.memory = y.memory) (ht : z.tables = y.tables)
    (hr : ∀ a, ¬ own a → z.reg a = y.reg a) : Prepared own b z k := by
  obtain ⟨d, hd, hphase⟩ := p.task
  exact ⟨hm.trans p.memory, (congrArg Tables.slots ht).trans p.slots, fun a ha => (hr a ha).trans (p.reg a ha), d,
    (Block.task_eq_of_tables ht k).trans hd, hphase⟩

theorem Prepared.fresh (p : Prepared own b y k) : Prepared own b y.fresh.2 k :=
  p.of_tables y.fresh_memory y.fresh_tables fun a _ => Block.reg_eq y.fresh_regs a

theorem Prepared.modHarbour (p : Prepared own b y k) (h : HalfId) (f : Harbour → Harbour) : Prepared own b (y.modHarbour h f) k :=
  p.of_tables (y.modHarbour_memory h f) (y.modHarbour_tables h f) fun a _ => Block.reg_eq (y.modHarbour_regs h f) a

theorem Prepared.count (p : Prepared own b y k) {a : Nat} (ho : own a) (hi lo n : Nat) : Prepared own b (y.count a hi lo n) k :=
  p.of_tables (y.count_memory a hi lo n) (y.count_tables a hi lo n) fun x hx => y.count_reg_other a hi lo n x fun e => hx (e ▸ ho)

theorem Prepared.mediaCount (p : Prepared own b y k) (ho : ∀ a, mediaReg k.half a → own a) (m : MediaCount k.half y z) : Prepared own b z k :=
  p.of_tables m.memory m.tables fun a ha => m.reg a fun hmedia => ha (ho a hmedia)

theorem Prepared.modTask (p : Prepared own b y k) {f : TaskCtx → TaskCtx} (hf : ∀ c, (f c).phase = c.phase) :
    Prepared own b (y.modTask k f) k := by
  obtain ⟨d, hd, hphase⟩ := p.task
  exact ⟨(y.modTask_memory k f).trans p.memory, (y.modTask_slots k f).trans p.slots,
    fun a ha => (Block.reg_eq (y.modTask_regs k f) a).trans (p.reg a ha), f d, Block.modTask_task hd f, (hf d).trans hphase⟩

theorem Prepared.worked (p : Prepared own b y k) : Worked own b y k [] := by
  obtain ⟨d, hd, hphase⟩ := p.task
  exact ⟨.of_mem_eq p.memory, p.reg, fun _ => ⟨d, hd, .inl (.inr (.inr hphase))⟩⟩

theorem Prepared.badHits (p : Prepared own b y k) (hhits : b.badHits cells = []) : y.badHits cells = [] :=
  (Block.badHits_eq_of_memory p.memory cells).trans hhits

/-- A write is translated as it was before. -/
theorem Prepared.wrCells (p : Prepared own b y k) (h : HalfId) (g : Graph) (c : TaskCtx) (who va : Nat) (l : List Byte) :
    y.wrCells (y.taskAccess h g c) who va l = b.wrCells (b.taskAccess h g c) who va l := Block.wrCells_eq p.slots rfl who va l

/-- The task's bytes land, and it ends. -/
theorem Prepared.lands {s : State} (p : Prepared own s.block y k) (hhits : s.block.badHits cells = []) (status detail : Nat) :
    Lands s { s with block := y.land k cells status detail } k cells status ∧
      ∀ a, ¬ own a → (y.land k cells status detail).reg a = s.block.reg a :=
  p.worked.finish rfl (p.badHits hhits) status detail

/-- What the task's context takes before the landing stays. -/
theorem Prepared.land_modTask_task (p : Prepared own b y k) {f : TaskCtx → TaskCtx} (hf : ∀ c, (f c).phase = c.phase)
    (hhits : b.badHits cells = []) (status detail : Nat) : ∃ d x, ((y.modTask k f).land k cells status detail).task k = some x ∧
      x = { f d with phase := .ended, status := status, detail := x.detail, endTide := x.endTide } := by
  obtain ⟨d, hd, hphase⟩ := p.task
  have htask : ((y.modTask k f).landCells cells).1.task k = some (f d) :=
    (Block.task_eq_of_tables (Block.landCells_tables _ cells) k).trans (Block.modTask_task hd f)
  have hopen : (f d).phase.Open := .inr (.inr ((hf d).trans hphase))
  rw [Block.land_eq _ _ _ _ ((p.modTask hf).badHits hhits)]
  exact ⟨d, _, Block.fix_task htask hopen status detail, rfl⟩

theorem Prepared.land_stream (p : Prepared own b y k) (hhits : b.badHits cells = []) (status detail : Nat) (i : HalfId) (n : Nat) :
    (y.land k cells status detail).stream i n = y.stream i n := by
  rw [Block.land_eq _ _ _ _ (p.badHits hhits)]
  exact Block.stream_eq_of_harbour ((Block.fix_harbour _ i k status detail).trans (Block.landCells_harbour _ i cells)) n
end

/-! ## Stream contexts (R257, R258) -/

section
variable {s : State} {k : TaskRef} {g : Graph} {c : TaskCtx}

/-- The context that an open makes of a task's parameters (R274). -/
def TaskDesc.openedStream (d : TaskDesc) (job : Nat) : StreamCtx :=
  { job := job, codec := d.pf 0 46 44, encoder := d.pf 0 43 43 = 1, maxW := d.pf 1 63 50, maxH := d.pf 1 49 36, bit10 := d.pf 1 35 35 = 1,
    fbBase := d.pf 2 47 0, fbCount := d.pf 1 34 30, live := false, sets := [], buffers := List.replicate (d.pf 1 34 30) none, output := [],
    last := none, pictures := 0, history := [], inputs := [], source := none, vectors := [], queue := [] }

theorem exec_contextOpen (h : Runs s.block k 0x09 g c) (hop : c.desc.mediaOp = 3) (hclosed : s.block.stream k.half c.desc.ctxNo = none)
    (hpool : s.block.scratchOk g.slot (c.desc.pf 2 47 0) (c.desc.openedStream g.job).poolBytes = true) :
    exec (.contextOpen k) s = .next { s with
      block := (s.block.setStream k.half c.desc.ctxNo (c.desc.openedStream g.job)).fix k stOk 0 } := by
  refine next_of_act (show exec (.contextOpen k) s = execContextOpen k s from rfl) ?_
  rw [h.onRunning]
  simp only [hop, hclosed, Option.isSome_none, Bool.false_eq_true, ne_eq, not_true_eq_false, if_false]
  exact if_pos hpool

theorem exec_contextClose {x : StreamCtx} (h : Runs s.block k 0x09 g c) (hop : c.desc.mediaOp = 4)
    (hopen : s.block.stream k.half c.desc.ctxNo = some x) (hjob : x.job = g.job) (hholds : s.block.holder k.half c.desc.ctxNo = some k) :
    exec (.contextClose k) s = .next { s with
      block := (s.block.modHarbour k.half (fun y => { y with streams := tabDel y.streams c.desc.ctxNo })).fix k stOk 0 } := by
  refine next_of_act (show exec (.contextClose k) s = execContextClose k s from rfl) ?_
  simp only [h.onRunning, hop, hopen, hjob, hholds, ne_eq, not_true_eq_false, if_false]

/-- A close, a decode or an encode of a context that is not open (R257). -/
theorem exec_unopened {i : Instr} (h : Runs s.block k 0x09 g c)
    (hi : i = .contextClose k ∧ c.desc.mediaOp = 4 ∨ i = .decode k ∧ c.desc.mediaOp = 1 ∨ i = .encode k ∧ c.desc.mediaOp = 2)
    (hclosed : s.block.stream k.half c.desc.ctxNo = none) :
    exec i s = .next { s with block := s.block.fix k stAdmission (offDesc 101) } := by
  obtain ⟨rfl, hop⟩ | ⟨rfl, hop⟩ | ⟨rfl, hop⟩ := hi
  · refine next_of_act (show exec (.contextClose k) s = execContextClose k s from rfl) ?_
    simp only [h.onRunning, hop, hclosed, ne_eq, not_true_eq_false, if_false]
  · refine next_of_act (show exec (.decode k) s = execDecode k s from rfl) ?_
    simp only [h.onRunning, hop, hclosed, ne_eq, not_true_eq_false, if_false]
  · refine next_of_act (show exec (.encode k) s = execEncode k s from rfl) ?_
    simp only [h.onRunning, hop, hclosed, ne_eq, not_true_eq_false, if_false]

/-! ## Clips (R273, R274) -/

/-- The context that a decode leaves: Live, or Fresh (R273). -/
def DecodeRun.ctx (r : DecodeRun) : StreamCtx := if r.status.2.2 then r.clip.ctx else r.clip.ctx.fresh

/-- The clip's status goes to the task's manifest entry, and the task ends with ST_OK (R273). -/
def DecodeRun.ToManifest (r : DecodeRun) (d : TaskDesc) : Prop := d.pf 0 46 46 = 1 ∧ r.status.1 ∈ [stInputLimit, stInputCorrupt, stConcealed]

/-- The block that a decode's bytes land on: its context set, its pictures counted, its shape registers with the task. -/
def Block.decoded (b : Block) (k : TaskRef) (c : TaskCtx) (r : DecodeRun) : Block :=
  let size := (r.clip.ctx.last.map (fun p => (p.width, p.height))).getD (0, 0)
  ((((b.setStream k.half c.desc.ctxNo r.ctx).countClip k.half r.clip).countStatus k.half r.status.1).countUnit k r.clip.decoded).modTask k
    (fun c => { c with shapeOut := [size.1, size.2, r.frames] })

/-- A context set and what the units count beside it. -/
theorem Prepared.setStream {own : Nat → Prop} {b y z : Block} (p : Prepared own b y k) (ho : ∀ a, mediaReg k.half a → own a) {n : Nat}
    {x : StreamCtx} (m : MediaCount k.half (y.setStream k.half n x) z) {f : TaskCtx → TaskCtx} (hf : ∀ c, (f c).phase = c.phase) :
    Prepared own b (z.modTask k f) k ∧ (z.modTask k f).stream k.half n = some x := by
  refine ⟨((p.modHarbour k.half _).mediaCount ho m).modTask hf, ?_⟩
  rw [Block.stream_eq_of_harbour (Block.modTask_harbour _ _ k f), Block.stream_eq_of_harbour (Block.harbour_eq_of_half (m.half k.half)),
    Block.setStream_stream]

theorem Prepared.decoded {own : Nat → Prop} {b y : Block} (p : Prepared own b y k) (ho : ∀ a, mediaReg k.half a → own a) (c : TaskCtx)
    (r : DecodeRun) : Prepared own b (y.decoded k c r) k ∧ (y.decoded k c r).stream k.half c.desc.ctxNo = some r.ctx :=
  p.setStream ho ((Block.countClip_mediaCount _ k.half r.clip).trans ((Block.countStatus_mediaCount _ k.half r.status.1).trans
    (Block.countUnit_mediaCount _ k r.clip.decoded))) fun _ => rfl

theorem Block.endDecode_of_manifest {b : Block} {r : DecodeRun} {m d : List Host.Cell} (hman : r.ToManifest c.desc)
    (hm : (b.decoded k c r).wrCells ((b.decoded k c r).taskAccess k.half g c) 8 (c.desc.pf 2 47 0 + 20) (leBytes 2 r.status.1) = .ok m)
    (hd : (b.decoded k c r).wrCells ((b.decoded k c r).taskAccess k.half g c) 8 (c.desc.pf 2 47 0 + 28) (leBytes 4 r.status.2.1) = .ok d) :
    b.endDecode k g c r.clip r.frames r.status r.cells = (b.decoded k c r).land k (r.cells ++ m ++ d) stOk 0 := by
  obtain ⟨hbit, hstatus⟩ := hman
  simp only [List.mem_cons, List.not_mem_nil, or_false] at hstatus
  refine (if_pos ⟨hbit, hstatus⟩).trans ?_
  simp only [Block.decoded, DecodeRun.ctx] at hm hd ⊢
  simp only [hm, hd]

theorem Block.endDecode_of_not_manifest {b : Block} {r : DecodeRun} (hman : ¬ r.ToManifest c.desc) :
    b.endDecode k g c r.clip r.frames r.status r.cells = (b.decoded k c r).land k r.cells r.status.1 r.status.2.1 := by
  simp only [DecodeRun.ToManifest, List.mem_cons, List.not_mem_nil, or_false] at hman
  exact if_neg hman

theorem exec_decode {x : StreamCtx} {r : DecodeRun} (h : Runs s.block k 0x09 g c) (hop : c.desc.mediaOp = 1)
    (hopen : s.block.stream k.half c.desc.ctxNo = some x) (hholds : s.block.holder k.half c.desc.ctxNo = some k)
    (hrun : (s.block.touch k g c).fresh.2.decodeRun k g c x (s.block.touch k g c).fresh.1 = .ok r) :
    exec (.decode k) s = .next { s with
      block := (s.block.touch k g c).fresh.2.endDecode k g c r.clip r.frames r.status r.cells } := by
  refine next_of_act (show exec (.decode k) s = execDecode k s from rfl) ?_
  simp only [h.onRunning, hop, hopen, hholds, hrun, ne_eq, not_true_eq_false, if_false]

/-- A decode's bytes land, those of its manifest entry with them, and its context is left (R273). -/
theorem decode_lands {x : StreamCtx} {r : DecodeRun} {cells m d : List Host.Cell} {st : Nat} (h : Runs s.block k 0x09 g c)
    (hop : c.desc.mediaOp = 1) (hopen : s.block.stream k.half c.desc.ctxNo = some x) (hholds : s.block.holder k.half c.desc.ctxNo = some k)
    (hrun : (s.block.touch k g c).fresh.2.decodeRun k g c x (s.block.touch k g c).fresh.1 = .ok r)
    (hcells : ¬ r.ToManifest c.desc ∧ cells = r.cells ∧ st = r.status.1 ∨
      r.ToManifest c.desc ∧ cells = r.cells ++ m ++ d ∧ st = stOk ∧
        s.block.wrCells (s.block.taskAccess k.half g c) 8 (c.desc.pf 2 47 0 + 20) (leBytes 2 r.status.1) = .ok m ∧
        s.block.wrCells (s.block.taskAccess k.half g c) 8 (c.desc.pf 2 47 0 + 28) (leBytes 4 r.status.2.1) = .ok d)
    (hhits : s.block.badHits cells = []) :
    ∃ t, exec (.decode k) s = .next t ∧ Lands s t k cells st ∧ t.block.stream k.half c.desc.ctxNo = some r.ctx ∧
      ∀ a, ¬ mediaOwn k.half a → t.block.reg a = s.block.reg a := by
  have hprep : Prepared (mediaOwn k.half) s.block (s.block.touch k g c).fresh.2 k := (h.prepared_touch (.inr rfl)).fresh
  obtain ⟨hdecoded, hstream⟩ := hprep.decoded (fun _ => .inl) c r
  obtain ⟨detail, hend⟩ : ∃ detail, (s.block.touch k g c).fresh.2.endDecode k g c r.clip r.frames r.status r.cells =
      ((s.block.touch k g c).fresh.2.decoded k c r).land k cells st detail := by
    obtain ⟨hman, rfl, rfl⟩ | ⟨hman, rfl, rfl, hm, hd⟩ := hcells
    · exact ⟨_, Block.endDecode_of_not_manifest hman⟩
    · exact ⟨0, Block.endDecode_of_manifest hman ((hdecoded.wrCells _ g c _ _ _).trans hm) ((hdecoded.wrCells _ g c _ _ _).trans hd)⟩
  obtain ⟨hlands, hreg⟩ := hdecoded.lands hhits st detail
  refine ⟨_, (exec_decode h hop hopen hholds hrun).trans (by rw [hend]), hlands, ?_, hreg⟩
  exact (hdecoded.land_stream hhits st detail k.half c.desc.ctxNo).trans hstream

/-- The block that an encode's bytes land on. -/
def Block.encoded (b : Block) (k : TaskRef) (c : TaskCtx) (r : EncodeRun) : Block :=
  ((b.setStream k.half c.desc.ctxNo r.ctx).countUnit k r.frames).modTask k (fun c => { c with shapeOut := [r.bytes] })

theorem exec_encode {x : StreamCtx} {r : EncodeRun} (h : Runs s.block k 0x09 g c) (hop : c.desc.mediaOp = 2)
    (hopen : s.block.stream k.half c.desc.ctxNo = some x) (hholds : s.block.holder k.half c.desc.ctxNo = some k)
    (hrun : (s.block.touch k g c).encodeRun k g c x = .ok r) : ∃ detail, exec (.encode k) s = .next { s with
      block := ((s.block.touch k g c).encoded k c r).land k r.cells (if r.excess then stShapeOver else stOk) detail } := by
  refine ⟨if r.excess then r.bytes % 2 ^ 24 * 256 + 16 else 0, next_of_act (show exec (.encode k) s = execEncode k s from rfl) ?_⟩
  simp only [h.onRunning, hop, hopen, hholds, hrun, ne_eq, not_true_eq_false, if_false]
  cases r.excess <;> rfl

/-- An encode's bytes land, and its context is left (R274). -/
theorem encode_lands {x : StreamCtx} {r : EncodeRun} (h : Runs s.block k 0x09 g c) (hop : c.desc.mediaOp = 2)
    (hopen : s.block.stream k.half c.desc.ctxNo = some x) (hholds : s.block.holder k.half c.desc.ctxNo = some k)
    (hrun : (s.block.touch k g c).encodeRun k g c x = .ok r) (hhits : s.block.badHits r.cells = []) :
    ∃ t, exec (.encode k) s = .next t ∧ Lands s t k r.cells (if r.excess then stShapeOver else stOk) ∧
      t.block.stream k.half c.desc.ctxNo = some r.ctx ∧ ∀ a, ¬ mediaOwn k.half a → t.block.reg a = s.block.reg a := by
  have htouch : Prepared (mediaOwn k.half) s.block (s.block.touch k g c) k := h.prepared_touch (.inr rfl)
  obtain ⟨hprep, hstream⟩ : Prepared (mediaOwn k.half) s.block ((s.block.touch k g c).encoded k c r) k ∧
      ((s.block.touch k g c).encoded k c r).stream k.half c.desc.ctxNo = some r.ctx :=
    htouch.setStream (fun _ => .inl) (Block.countUnit_mediaCount _ k r.frames) fun _ => rfl
  obtain ⟨detail, hexec⟩ := exec_encode h hop hopen hholds hrun
  obtain ⟨hlands, hreg⟩ := hprep.lands hhits (if r.excess then stShapeOver else stOk) detail
  exact ⟨_, hexec, hlands, (hprep.land_stream hhits _ detail k.half c.desc.ctxNo).trans hstream, hreg⟩
end

/-! ## Watchdogs (R265, R287) -/

section
variable {s : State} {k : TaskRef} {g : Graph} {c : TaskCtx}

/-- A watchdog's command notes the rows written under its picture's number. -/
theorem exec_watchdog {i : Instr} {picture rows key : Nat} (h : Runs s.block k 0x09 g c)
    (hi : i = .frameWatchdog k picture rows ∧ key = picture ∧ (c.desc.mediaOp = 1 ∨ c.desc.mediaOp = 0x14) ∨
      i = .imageWatchdog k rows ∧ key = 0 ∧ (c.desc.mediaOp = 0x10 ∨ c.desc.mediaOp = 0x14)) :
    exec i s = .next { s with block := s.block.modTask k (fun c => { c with watchdogs := tabPut c.watchdogs key rows }) } := by
  obtain ⟨rfl, rfl, hop⟩ | ⟨rfl, rfl, hop⟩ := hi
  · refine next_of_act (show exec (.frameWatchdog k key rows) s = execFrameWatchdog k key rows s from rfl) ?_
    rw [h.onRunning, if_pos hop]
  · refine next_of_act (show exec (.imageWatchdog k rows) s = execImageWatchdog k rows s from rfl) ?_
    rw [h.onRunning, if_pos hop]

/-! ## Single samples (R281-R291, R302) -/

theorem exec_imageDecode {r : SampleRun} (h : Runs s.block k 0x09 g c) (hserved : s.block.served k = true) (hop : c.desc.mediaOp = 0x10)
    (hrun : (s.block.touch k g c).fresh.2.imageRun k (s.block.taskAccess k.half g c) c (s.block.touch k g c).fresh.1 = .ok r) :
    exec (.imageDecode k) s = .next { s with
      block := (s.block.touch k g c).fresh.2.endSample k r.cells r.shapes r.status r.detail } := by
  refine next_of_act (show exec (.imageDecode k) s = execImageDecode k s from rfl) ?_
  simp only [h.onRunning, hop, hserved, hrun, ne_eq, not_true_eq_false, Bool.true_eq_false, or_self, if_false]

theorem exec_audioDecode {r : SampleRun} {pf : List Byte} (h : Runs s.block k 0x09 g c) (hserved : s.block.served k = true)
    (hop : c.desc.mediaOp = 0x11) (hread : (s.block.touch k g c).rdN (s.block.taskAccess k.half g c) 8 (c.desc.pf 2 47 0) 32 = .ok pf)
    (hprofile : profileOk pf = true)
    (hrun : (s.block.touch k g c).audioRun k (s.block.taskAccess k.half g c) c (parseProfile pf) = .ok r) :
    exec (.audioDecode k) s = .next { s with block := (s.block.touch k g c).endSample k r.cells r.shapes r.status r.detail } := by
  refine next_of_act (show exec (.audioDecode k) s = execAudioDecode k s from rfl) ?_
  simp only [h.onRunning, hop, hserved, hread, hprofile, hrun, ne_eq, not_true_eq_false, Bool.true_eq_false, or_self, if_false]

/-- A sample's bytes land, its shape registers stay with the task, and its unit counts it (R302, R305). -/
theorem Prepared.endSample {y : Block} {cells : List Host.Cell} (p : Prepared (mediaOwn k.half) s.block y k)
    (hhits : s.block.badHits cells = []) (shapes : List Nat) (status detail : Nat) :
    Lands s { s with block := y.endSample k cells shapes status detail } k cells status ∧
      (∃ d, (y.endSample k cells shapes status detail).task k = some d ∧ d.shapeOut = shapes) ∧
      ∀ a, ¬ mediaOwn k.half a → (y.endSample k cells shapes status detail).reg a = s.block.reg a := by
  have hcounted : Prepared (mediaOwn k.half) s.block ((y.countSample k.half status).countUnit k 1) k :=
    p.mediaCount (fun _ => .inl) ((y.countSample_mediaCount k.half status).trans (Block.countUnit_mediaCount _ k 1))
  obtain ⟨hlands, hreg⟩ := (hcounted.modTask (f := fun c => { c with shapeOut := shapes }) fun _ => rfl).lands hhits status detail
  obtain ⟨d, x, hx, hfields⟩ := hcounted.land_modTask_task (f := fun c => { c with shapeOut := shapes }) (fun _ => rfl) hhits status detail
  exact ⟨hlands, ⟨x, hx, by rw [hfields]⟩, hreg⟩

/-! ## Text (R294, R295) -/

/-- A tokenise task whose merge table is held lands its sequences. -/
theorem tokenise_lands {r : List Host.Cell × Nat} (h : Runs s.block k 0x09 g c) (hop : c.desc.mediaOp = 0x12)
    (hserved : s.block.served k = true) (hkey : (s.block.harbour k.half).mergeKey = some (c.desc.mergeKey g.job))
    (hrun : (s.block.touch k g c).textRun (s.block.taskAccess k.half g c) c (s.block.harbour k.half).mergeTable
      (s.block.regFld (inReg k.half 0x18) 26 0) = .ok (.ok r)) (hhits : s.block.badHits r.1 = []) :
    ∃ t, exec (.tokeniseAndPack k) s = .next t ∧ Lands s t k r.1 stOk ∧ ∀ a, ¬ mediaOwn k.half a → t.block.reg a = s.block.reg a := by
  have htouch : Prepared (mediaOwn k.half) s.block (s.block.touch k g c) k := h.prepared_touch (.inr rfl)
  have hcounted := ((htouch.modHarbour k.half (fun y => { y with mergeUsers := y.mergeUsers.filter (fun u => u ≠ k) ++ [k] })).count
    (.inl (inReg_mediaReg k.half (by decide : 0x20 < 0x10000))) 7 0 r.2).mediaCount (fun _ => .inl) (Block.countUnit_mediaCount _ k 1)
  refine ⟨_, next_of_act (show exec (.tokeniseAndPack k) s = execTokeniseAndPack k s from rfl) ?_, hcounted.lands hhits stOk 0⟩
  simp only [h.onRunning, hop, hserved, hkey, hrun, ne_eq, not_true_eq_false, Bool.true_eq_false, or_self, if_false]

/-- A merge store that a running task fills with its table (R294). -/
def Harbour.loadTable (y : Harbour) (k : TaskRef) (key : Nat × Nat × Nat) (ws : List Nat) : Harbour :=
  { y with mergeKey := some key, mergeTable := ws.map (fun w => (bits w 50 32, bits w 18 0)), mergeUsers := [k] }

/-- The block whose merge store is filled, HB_TXT_STAT telling whose table it holds (R294, R305). -/
def Block.tableLoaded (b : Block) (k : TaskRef) (job : Nat) (key : Nat × Nat × Nat) (ws : List Nat) : Block :=
  (((((b.setRegFld (inReg k.half 0x28) 63 32 0).modHarbour k.half (fun y => y.loadTable k key ws)).setRegFld (inReg k.half 0x28) 63 52 job).setRegFld
    (inReg k.half 0x28) 51 32 (key.2.2 * 2 + 1)).count (inReg k.half 0x28) 31 0 1)

section
variable (b : Block) (k : TaskRef) (job : Nat) (key : Nat × Nat × Nat) (ws : List Nat)

theorem Block.tableLoaded_memory : (b.tableLoaded k job key ws).memory = b.memory := by simp [Block.tableLoaded]

theorem Block.tableLoaded_tables : (b.tableLoaded k job key ws).tables = b.tables := by simp [Block.tableLoaded, Block.setRegFld]

theorem Block.tableLoaded_harbour : (b.tableLoaded k job key ws).harbour k.half = (b.harbour k.half).loadTable k key ws := by
  have hhalf : (b.tableLoaded k job key ws).half k.half =
      ((b.setRegFld (inReg k.half 0x28) 63 32 0).modHarbour k.half (fun y => y.loadTable k key ws)).half k.half := by simp [Block.tableLoaded]
  rw [Block.harbour_eq_of_half hhalf, Block.harbour_modHarbour_same, Block.harbour_eq_of_half (Block.setRegFld_half _ _ _ _ _ _)]

theorem Block.tableLoaded_reg_other {a : Nat} (ha : a ≠ inReg k.half 0x28) : (b.tableLoaded k job key ws).reg a = b.reg a := by
  rw [Block.tableLoaded, Block.count_reg_other _ _ _ _ _ _ ha, Block.reg_setRegFld_other _ _ _ _ _ _ ha, Block.reg_setRegFld_other _ _ _ _ _ _ ha,
    Block.reg_eq (Block.modHarbour_regs _ _ _), Block.reg_setRegFld_other _ _ _ _ _ _ ha]
end

/-- The first use of the operands leaves the task's context but for the mark of it (R204). -/
theorem Runs.touch_task_eq {b : Block} {ty : Nat} (h : Runs b k ty g c) : (b.touch k g c).task k = some { c with noted := true } := by
  obtain ⟨-, htask, -⟩ := h
  rw [Block.touch_task, htask]
  split
  · rfl
  · next hnoted =>
    have hc : c.noted = true := by simpa using hnoted
    rw [← hc]

/-- A faultless table is loaded once no running task uses another (R294). -/
theorem exec_tableLoad {ws : List Nat} (h : Runs s.block k 0x09 g c) (hop : c.desc.mediaOp = 0x12) (hserved : s.block.served k = true)
    (hkey : (s.block.harbour k.half).mergeKey ≠ some (c.desc.mergeKey g.job))
    (hidle : ∀ u ∈ (s.block.harbour k.half).mergeUsers, s.block.isRunning u = false)
    (hread : mapRes (fun i => (s.block.touch k g c).rdNat ((s.block.touch k g c).taskAccess k.half g c) 8 (c.desc.pf 2 47 0 + 8 * i) 8)
      (List.range (c.desc.mergeKey g.job).2.2) = .ok ws) (hfault : mergeFault ws = none) :
    exec (.tableLoad k) s = .next { s with block := (s.block.touch k g c).tableLoaded k g.job (c.desc.mergeKey g.job) ws } := by
  have hnone : (s.block.harbour k.half).mergeUsers.any (fun u => s.block.isRunning u) = false := by simpa using hidle
  refine next_of_act (show exec (.tableLoad k) s = execTableLoad k s from rfl) ?_
  simp only [h.onRunning, hop, hserved, hkey, hnone, hread, hfault, ne_eq, not_true_eq_false, Bool.true_eq_false, Bool.false_eq_true, or_self,
    if_false]
  rfl

/-! ## Crops (R191) -/

/-- A crop's boxes land, and its bad indices and boxes are counted. -/
theorem cropAndResize_lands {r : CropRun} (h : Runs s.block k 0x09 g c) (hop : c.desc.mediaOp = 0x13) (hserved : s.block.served k = true)
    (hrun : (s.block.touch k g c).cropRun (s.block.taskAccess k.half g c) c = .ok r) (hhits : s.block.badHits r.cells = []) :
    ∃ t, exec (.cropAndResize k) s = .next t ∧ Lands s t k r.cells stOk ∧ ∀ a, ¬ cropOwn k.half a → t.block.reg a = s.block.reg a := by
  have htouch : Prepared (cropOwn k.half) s.block (s.block.touch k g c) k := h.prepared_touch (.inl (.inr rfl))
  have hcounted := ((htouch.count (.inr rfl) 63 32 r.badIndices).count (.inr rfl) 31 0 r.badBoxes).mediaCount (fun _ ha => .inl (.inl ha))
    (Block.countUnit_mediaCount _ k 1)
  refine ⟨_, next_of_act (show exec (.cropAndResize k) s = execCropAndResize k s from rfl) ?_, hcounted.lands hhits stOk 0⟩
  simp only [h.onRunning, hop, hserved, hrun, ne_eq, not_true_eq_false, Bool.true_eq_false, or_self, if_false]
end

/-- Settles O30: each command by its unit's run, whose bytes land on what its counts and its context left. -/
theorem mediaTasks : Obligations.MediaTasks := by
  unfold Obligations.MediaTasks
  have hown {h : HalfId} {a : Nat} (hmedia : ¬ mediaReg h a) (htier : a ≠ tierReg h 0x28) : ¬ mediaOwn h a := fun ho => ho.elim hmedia htier
  refine ⟨?_, ?_, ?_, ?_, ?_, ?_, ?_, ?_, ?_, ?_⟩
  · intro s k g c h hop hclosed hpool
    obtain ⟨hend, hharbour, hmem, hregs⟩ := h.fix_modHarbour
      (fun y => { y with streams := tabPut y.streams c.desc.ctxNo (c.desc.openedStream g.job) }) stOk 0
    refine ⟨_, c.desc.openedStream g.job, exec_contextOpen h hop hclosed (hpool _ rfl rfl rfl rfl), rfl, hend, ?_, rfl, rfl, rfl, rfl, rfl, rfl,
      rfl, rfl, rfl, hmem, hregs⟩
    exact (congrArg (fun y : Harbour => tabFind y.streams c.desc.ctxNo) hharbour).trans (tabFind_tabPut_same _ _ _)
  · intro s k g c x h hop hopen hjob hholds
    obtain ⟨hend, hharbour, hmem, hregs⟩ := h.fix_modHarbour (fun y => { y with streams := tabDel y.streams c.desc.ctxNo }) stOk 0
    refine ⟨_, exec_contextClose h hop hopen hjob hholds, rfl, hend, ?_, hmem, hregs⟩
    exact (congrArg (fun y : Harbour => tabFind y.streams c.desc.ctxNo) hharbour).trans (tabFind_tabDel_same _ _)
  · intro s k g c i h hi hclosed
    exact ⟨_, exec_unopened h hi hclosed, rfl, (Remapped.refl s.block).fix h stAdmission _⟩
  · intro s k g c x r cells m d st h hop hopen hholds hrun hcells hhits
    obtain ⟨t, hexec, hlands, hstream, hreg⟩ := decode_lands h hop hopen hholds hrun hcells hhits
    exact ⟨t, hexec, hlands, hstream, fun a hmedia htier => hreg a (hown hmedia htier)⟩
  · intro s k g c x r h hop hopen hholds hrun hhits
    obtain ⟨t, hexec, hlands, hstream, hreg⟩ := encode_lands h hop hopen hholds hrun hhits
    exact ⟨t, hexec, hlands, hstream, fun a hmedia htier => hreg a (hown hmedia htier)⟩
  · intro s k picture rows g c i key h hi
    exact ⟨_, exec_watchdog h hi, rfl, Block.modTask_task h.2.1 _, Block.mem_eq_of_memory (Block.modTask_memory _ _ _), Block.modTask_regs _ _ _⟩
  · intro s k g c r i h hserved hi hhits
    have htouch : Prepared (mediaOwn k.half) s.block (s.block.touch k g c) k := h.prepared_touch (.inr rfl)
    obtain ⟨rfl, hop, hrun⟩ | ⟨rfl, hop, pf, hread, hprofile, hrun⟩ := hi
    · obtain ⟨hlands, hshapes, hreg⟩ := htouch.fresh.endSample hhits r.shapes r.status r.detail
      exact ⟨_, exec_imageDecode h hserved hop hrun, hlands, hshapes, fun a hmedia htier => hreg a (hown hmedia htier)⟩
    · obtain ⟨hlands, hshapes, hreg⟩ := htouch.endSample hhits r.shapes r.status r.detail
      exact ⟨_, exec_audioDecode h hserved hop hread hprofile hrun, hlands, hshapes, fun a hmedia htier => hreg a (hown hmedia htier)⟩
  · intro s k g c r h hop hserved hkey hrun hhits
    obtain ⟨t, hexec, hlands, hreg⟩ := tokenise_lands h hop hserved hkey hrun hhits
    exact ⟨t, hexec, hlands, fun a hmedia htier => hreg a (hown hmedia htier)⟩
  · intro s k g c ws h hop hserved hkey hidle hread hfault
    refine ⟨_, exec_tableLoad h hop hserved hkey hidle hread hfault, rfl, ?_, ?_, ?_, ?_, fun a htext htier => ?_⟩
    · rw [Block.tableLoaded_harbour]
      rfl
    · rw [Block.tableLoaded_harbour]
      rfl
    · rw [Block.task_eq_of_tables (Block.tableLoaded_tables _ _ _ _ _), h.touch_task_eq]
    · rw [Block.mem_eq_of_memory (Block.tableLoaded_memory _ _ _ _ _), Block.mem_eq_of_memory (Block.touch_memory _ _ _ _)]
    · rw [Block.tableLoaded_reg_other _ _ _ _ _ htext, Block.touch_reg_other _ _ _ _ htier]
  · intro s k g c r h hop hserved hrun hhits
    obtain ⟨t, hexec, hlands, hreg⟩ := cropAndResize_lands h hop hserved hrun hhits
    exact ⟨t, hexec, hlands, fun a hmedia htier hcrop => hreg a fun ho => ho.elim (hown hmedia htier) hcrop⟩

end Sys2Proof.Machine


/-! PROOFS. The lasting state (Laws/Kept.lean) under the model's operations and commands (log entries 8, 9; R40, R437, R444): the operations
that Laws/Kept*.lean do not speak of, one line for each command, and from these that every step keeps the lasting state. -/

namespace Sys2Proof.Machine

/-! ## Choices, commands by a path and the collectives' guard -/

section
variable {base : Lasting}

theorem Kept.ofEq {x y : Lasting} (h : y = x) : Kept x y := h ▸ Kept.refl x

theorem Kept.ite {p : Prop} [Decidable p] {u v : Block} (hu : Kept base u.lasting) (hv : Kept base v.lasting) :
    Kept base (if p then u else v).lasting := by
  split
  · exact hu
  · exact hv

/-- A choice keeps when the branch taken does. -/
@[simp] theorem Kept.ite_iff {p : Prop} [Decidable p] {u v : Lasting} :
    Kept base (if p then u else v) ↔ (p → Kept base u) ∧ (¬ p → Kept base v) := by
  split <;> simp [*]

/-- As `Kept.ite`, for the block of an answer. -/
theorem Kept.ite_answer {p : Prop} [Decidable p] {u v : Answer} (hu : Kept base u.block.lasting)
    (hv : Kept base v.block.lasting) :
    Kept base (if p then u else v).block.lasting := by
  split
  · exact hu
  · exact hv

theorem Kept.getD {b : Block} {o : Option Block} (ho : ∀ z, o = some z → Kept base z.lasting) (hk : Kept base b.lasting) :
    Kept base (o.getD b).lasting := by
  cases o with
  | none => exact hk
  | some z => exact ho z rfl

@[simp] theorem Block.command_kept (b : Block) (m : Envelope) (roles : List Nat) (needed : Nat) (f : Actor → Block → Answer)
    (hf : ∀ a (c : Block), Kept base c.lasting → Kept base (f a c).block.lasting) (hk : Kept base b.lasting) :
    Kept base (b.command m roles needed f).lasting := by
  unfold Block.command
  split
  · exact hk
  · split
    · simp [hk]
    · dsimp only
      split
      · simpa using hf _ _ (by simp [hk])
      · simp [hk]

@[simp] theorem Block.byPath_kept (b : Block) (p : Path) (roles : List Nat) (needed : Nat) (f : Actor → Block → Answer)
    (hf : ∀ a (c : Block), Kept base c.lasting → Kept base (f a c).block.lasting) (hk : Kept base b.lasting) :
    Kept base (b.byPath p roles needed f).lasting := by
  unfold Block.byPath
  split
  · split
    · exact hk
    · split
      · exact hf _ _ hk
      · simp [hk]
  · exact Block.command_kept _ _ _ _ _ hf hk

@[simp] theorem Block.localPacket_kept (b : Block) (h : HalfId) (p : Packet) (ok : Bool) (n : Nat) (f : Block → Block)
    (hf : ∀ c : Block, Kept base c.lasting → Kept base (f c).lasting) (hk : Kept base b.lasting) :
    Kept base (b.localPacket h p ok n f).lasting := by
  unfold Block.localPacket
  (repeat' split) <;> simp [hk, hf]

@[simp] theorem Block.recovery_kept (b : Block) (h : HalfId) (p : Packet) (kind : Nat) (f : Block → List Byte → Block)
    (hf : ∀ (c : Block) l, Kept base c.lasting → Kept base (f c l).lasting) (hk : Kept base b.lasting) :
    Kept base (b.recovery h p kind f).lasting := by
  unfold Block.recovery
  dsimp only
  split
  · exact hk
  · refine Block.receive_kept _ _ _ _ _ _ (fun c hc => ?_) hk
    (repeat' split) <;> simp [hc, hf]

@[simp] theorem Block.onColl_kept (b : Block) (t : TaskRef) (ops : List Nat) (f : Graph → TaskCtx → CollState → Plan → Block)
    (hf : ∀ g c x p, Kept base (f g c x p).lasting) (hk : Kept base b.lasting) : Kept base (b.onColl t ops f).lasting := by
  unfold Block.onColl
  (repeat' split) <;> simp [hk, hf]

/-! ## The operations that reach the lasting state -/

@[simp] theorem Block.auditedAnswer_kept (b : Block) (a : Actor) (c : Change) (f : Block → Block)
    (hf : ∀ c : Block, Kept base c.lasting → Kept base (f c).lasting) (hk : Kept base b.lasting) :
    Kept base (b.auditedAnswer a c f).block.lasting :=
  Block.audited_kept b a c f hf hk

@[simp] theorem Block.landLines_kept (b : Block) (cells : List Host.Cell) (hk : Kept base b.lasting) :
    Kept base (b.landLines cells).1.lasting :=
  hk.ofMem (memPutCells_wf _ b.mem _) rfl rfl rfl

theorem Block.allocPool_lasting {b z : Block} {h : HalfId} {tier : Nat} {big : Bool} {owner n fuel : Nat} {frames : List Nat}
    (e : b.allocPool h tier big owner n fuel = .ok frames z) : z.lasting = b.lasting := by
  induction fuel generalizing b with
  | zero => cases e
  | succ k ih =>
    rw [Block.allocPool] at e
    split at e
    · cases e; simp
    · split at e
      · cases e
      · rw [ih e, Block.unmapObject_lasting]

theorem Block.allocFrames_lasting {b z : Block} {h : HalfId} {tier : Nat} {big : Bool} {owner n : Nat} {frames : List Nat}
    (e : b.allocFrames h tier big owner n = .ok frames z) : z.lasting = b.lasting := by
  rw [Block.allocFrames] at e
  split at e
  · split at e <;> cases e
    simp
  · exact Block.allocPool_lasting e

theorem Block.allocate_lasting {b z : Block} {h : HalfId} {tier k : Nat} {big : Bool} {owner n : Nat} {frames : List Nat}
    (e : b.allocate h tier k big owner n = .ok frames z) : z.lasting = b.lasting := by
  unfold Block.allocate at e
  extract_lets frames quota at e
  split at e
  · split at e
    · cases e
    · split at e <;> cases e
      simp
  · exact Block.allocPool_lasting e

@[simp] theorem Block.debugAnswer_kept (b : Block) (a : Actor) (n : Nat) (f : Block → Block)
    (hf : ∀ c : Block, Kept base c.lasting → Kept base (f c).lasting) (hk : Kept base b.lasting) :
    Kept base (b.debugAnswer a n f).block.lasting := by
  unfold Block.debugAnswer
  split
  · simp [hk]
  · exact Block.auditedAnswer_kept b a _ f hf hk

@[simp] theorem Block.debugWrite_kept (b : Block) (p : Path) (n : Nat) (f : Block → Block)
    (hf : ∀ c : Block, Kept base c.lasting → Kept base (f c).lasting) (hk : Kept base b.lasting) :
    Kept base (b.debugWrite p n f).lasting :=
  Block.byPath_kept b p _ _ _ (fun a c hc => Block.debugAnswer_kept c a n f hf hc) hk

@[simp] theorem Block.vecStep_kept (b : Block) (n : Nat) (p : VecPlace) (hk : Kept base b.lasting) :
    Kept base (b.vecStep n p).1.lasting := by
  simp only [Block.vecStep]
  (repeat' split) <;> simp [hk]

@[simp] theorem Block.vecOp_kept (b : Block) (n op : Nat) (f : VecFields) (hk : Kept base b.lasting) :
    Kept base (b.vecOp n op f).lasting := by
  simp only [Block.vecOp]
  (repeat' split) <;> simp [hk]

@[simp] theorem Block.stopIssued_kept (b : Block) (t : TaskRef) (c : TaskCtx) (e : Stop) (hk : Kept base b.lasting) :
    Kept base (b.stopIssued t c e).lasting := by
  simp only [Block.stopIssued]
  (repeat' split) <;> simp [hk]

@[simp] theorem Block.vecRun_kept (b : Block) (n l : Nat) (hk : Kept base b.lasting) : Kept base (b.vecRun n l).1.lasting := by
  induction l generalizing b with
  | zero => exact hk
  | succ k ih =>
    unfold Block.vecRun
    split
    · exact hk
    · dsimp only
      split
      · exact ih _ (by simp [hk])
      · simp [hk]

@[simp] theorem Block.vecRunAll_kept (b : Block) (c : TaskCtx) (l : List Nat) (hk : Kept base b.lasting) :
    Kept base (b.vecRunAll c l).1.lasting := by
  induction l generalizing b with
  | nil => exact hk
  | cons k ks ih =>
    unfold Block.vecRunAll
    dsimp only
    split
    · exact ih _ (by simp [hk])
    · simp [hk]

@[simp] theorem Block.vecEnd_kept (b : Block) (t : TaskRef) (g : Graph) (c : TaskCtx) (status detail : Nat) (hk : Kept base b.lasting) :
    Kept base (b.vecEnd t g c status detail).lasting := by
  simp [Block.vecEnd, hk]

@[simp] theorem Block.kvStop_kept (b : Block) (t : TaskRef) (a : Access) (c : TaskCtx) (e : Stop) (hk : Kept base b.lasting) :
    Kept base (b.kvStop t a c e).lasting := by
  simp only [Block.kvStop]
  (repeat' split) <;> simp [hk]

@[simp] theorem Block.atLand_kept (b : Block) (t : TaskRef) (g : Graph) (c : TaskCtx) (parity : Option BankUpset)
    (run : KvWalk × List (List (Res AtRun))) (hk : Kept base b.lasting) :
    Kept base (b.atLand t g c parity run).lasting := by
  simp only [Block.atLand]
  (repeat' split) <;> simp [hk]

@[simp] theorem Block.attention_kept (b : Block) (t : TaskRef) (mode : Nat) (parity : Option BankUpset)
    (f : Block → Access → TaskCtx → KvWalk → Nat → AtUnit → KvWalk × Res AtRun) (hk : Kept base b.lasting) :
    Kept base (b.attention t mode parity f).lasting :=
  Block.onMode_kept b t _ _ _ (fun g c => by simp [hk]) hk

@[simp] theorem Block.dropHold_kept (b : Block) (k va : Nat) (hk : Kept base b.lasting) :
    Kept base (b.dropHold k va).lasting := by
  simp only [Block.dropHold]
  (repeat' split) <;> simp [hk]

@[simp] theorem Block.dropHolds_kept (b : Block) (h : HalfId) (k step : Nat) (consumed : Bool) (hk : Kept base b.lasting) :
    Kept base (b.dropHolds h k step consumed).lasting := by
  unfold Block.dropHolds
  split
  · exact hk
  · exact Block.kept_foldl _ (fun c va hc => Block.dropHold_kept c k va hc) _ hk

@[simp] theorem Block.failAllSteps_kept (b : Block) (det : Nat) (l : List TaskRef) (hk : Kept base b.lasting) :
    Kept base (b.failAllSteps det l).lasting := by
  induction l generalizing b <;> simp_all [Block.failAllSteps]

@[simp] theorem Block.repeatStep_kept (b : Block) (h : HalfId) (k step : Nat) (hk : Kept base b.lasting) :
    Kept base (b.repeatStep h k step).lasting := by
  simp [Block.repeatStep, hk]

@[simp] theorem Block.decideStep_kept (b : Block) (h : HalfId) (k : Nat) (v : Verdict) (hk : Kept base b.lasting) :
    Kept base (b.decideStep h k v).lasting := by
  simp [Block.decideStep, hk]

@[simp] theorem Block.applyVerdict_kept (b : Block) (h : HalfId) (k : Nat) (v : Verdict) (hk : Kept base b.lasting) :
    Kept base (b.applyVerdict h k v).lasting := by
  simp only [Block.applyVerdict]
  (repeat' split) <;> simp [hk]

@[simp] theorem Block.collSend_kept (b : Block) (t : TaskRef) (g : Graph) (d : TaskDesc) (p : Plan) (ep cls op origin block : Nat)
    (payload : List Byte) (hk : Kept base b.lasting) :
    Kept base (b.collSend t g d p ep cls op origin block payload).lasting := by
  simp only [Block.collSend]
  (repeat' split) <;> simp [hk]

@[simp] theorem Block.sendReadies_kept (b : Block) (t : TaskRef) (g : Graph) (c : TaskCtx) (p : Plan) (n : Nat) (l : List Nat)
    (hk : Kept base b.lasting) : Kept base (b.sendReadies t g c p n l).lasting := by
  induction l generalizing b with
  | nil => exact hk
  | cons ep l ih => exact ih _ (Kept.ite (by simp [hk]) (by simp [hk]))

@[simp] theorem Block.takeReady_kept (b : Block) (t : TaskRef) (q : Packet) (hk : Kept base b.lasting) :
    Kept base (b.takeReady t q).lasting := by
  refine Block.onColl_kept b t _ _ (fun g c x p => ?_) hk
  simp [hk]

@[simp] theorem Block.takeReadies_kept (b : Block) (t : TaskRef) (l : List Packet) (hk : Kept base b.lasting) :
    Kept base (b.takeReadies t l).lasting := by
  induction l generalizing b <;> simp_all [Block.takeReadies]

@[simp] theorem Block.collFire_kept (b : Block) (t : TaskRef) (hk : Kept base b.lasting) :
    Kept base (b.collFire t).lasting := by
  simp only [Block.collFire]
  (repeat' split) <;> simp [hk]

@[simp] theorem Block.collPump_kept (b : Block) (t : TaskRef) (l : Nat) (hk : Kept base b.lasting) :
    Kept base (b.collPump t l).lasting := by
  induction l generalizing b with
  | zero => exact hk
  | succ n ih =>
    rw [Block.collPump]
    refine Block.onColl_kept b t _ _ (fun g c x p => ?_) hk
    split
    · exact hk
    · split
      · exact hk
      · exact ih _ (by simp [hk])

@[simp] theorem Block.collGo_kept (b : Block) (t : TaskRef) (hk : Kept base b.lasting) :
    Kept base (b.collGo t).lasting := by
  simp [Block.collGo, hk]

@[simp] theorem Block.coLand_kept (b : Block) (t : TaskRef) (i : Nat) (l : List Byte) (origin : Nat) (hk : Kept base b.lasting) :
    Kept base (b.coLand t i l origin).lasting := by
  refine Block.onColl_kept b t _ _ (fun g c x p => ?_) hk
  split
  · simp [hk]
  · dsimp only
    split <;> simp [hk]

@[simp] theorem Block.ownFinal_kept (b : Block) (t : TaskRef) (i : Nat) (l : List Byte) (origin : Nat) (hk : Kept base b.lasting) :
    Kept base (b.ownFinal t i l origin).lasting := by
  refine Block.onColl_kept b t _ _ (fun g c x p => ?_) hk
  simp [hk]

@[simp] theorem Block.emit2_kept (b : Block) (t : TaskRef) (i : Nat) (l : List Byte) (origin : Nat) (hk : Kept base b.lasting) :
    Kept base (b.emit2 t i l origin).lasting := by
  refine Block.onColl_kept b t _ _ (fun g c x p => ?_) hk
  simp [hk]

@[simp] theorem Block.levelOne_kept (b : Block) (t : TaskRef) (i : Nat) (l : List Byte) (origin : Nat) (hk : Kept base b.lasting) :
    Kept base (b.levelOne t i l origin).lasting := by
  refine Block.onColl_kept b t _ _ (fun g c x p => ?_) hk
  dsimp only
  split
  · simp [hk]
  · split
    · simp [hk]
    · split <;> simp [hk]

@[simp] theorem Block.emit1_kept (b : Block) (t : TaskRef) (i : Nat) (l : List Byte) (origin : Nat) (hk : Kept base b.lasting) :
    Kept base (b.emit1 t i l origin).lasting := by
  refine Block.onColl_kept b t _ _ (fun g c x p => ?_) hk
  simp [hk]

@[simp] theorem Block.startChain_kept (b : Block) (t : TaskRef) (q : Nat) (l : List Nat) (hk : Kept base b.lasting) :
    Kept base (b.startChain t q l).lasting := by
  induction l generalizing b with
  | nil => exact hk
  | cons i l ih => exact ih _ (Block.onColl_kept b t _ _ (fun g c x p => by simp [hk]) hk)

@[simp] theorem Block.startFlood_kept (b : Block) (t : TaskRef) (l : List Nat) (hk : Kept base b.lasting) :
    Kept base (b.startFlood t l).lasting := by
  induction l generalizing b with
  | nil => exact hk
  | cons i l ih => exact ih _ (Block.onColl_kept b t _ _ (fun g c x p => by simp [hk]) hk)

@[simp] theorem Block.startChains_kept (b : Block) (t : TaskRef) (hk : Kept base b.lasting) :
    Kept base (b.startChains t).lasting := by
  refine Block.onColl_kept b t _ _ (fun g c x p => ?_) hk
  simp [hk]

@[simp] theorem Block.collStart_kept (b : Block) (t : TaskRef) (hk : Kept base b.lasting) : Kept base (b.collStart t).lasting := by
  refine Block.onColl_kept b t _ _ (fun g c x p => ?_) hk
  dsimp only
  (repeat' split) <;> simp [hk]

@[simp] theorem Block.ebbBlock_kept (b : Block) (t : TaskRef) (two : Bool) (origin i : Nat) (l : List Byte) (hk : Kept base b.lasting) :
    Kept base (b.ebbBlock t two origin i l).lasting := by
  refine Block.onColl_kept b t _ _ (fun g c x p => ?_) hk
  dsimp only
  split
  · split
    · simp [hk]
    · split <;> simp [hk]
  · simp [hk]

@[simp] theorem Block.ebbBlocks_kept (b : Block) (t : TaskRef) (two : Bool) (origin : Nat) (l : List (Nat × List Byte))
    (hk : Kept base b.lasting) :
    Kept base (b.ebbBlocks t two origin l).lasting := by
  induction l generalizing b <;> simp_all [Block.ebbBlocks]

@[simp] theorem Block.startSkipped_kept (b : Block) (t : TaskRef) (nb place g : Nat) (l : List Nat) (hk : Kept base b.lasting) :
    Kept base (b.startSkipped t nb place g l).lasting := by
  induction l generalizing b <;> simp_all [Block.startSkipped]

@[simp] theorem Block.floodBlock_kept (b : Block) (t : TaskRef) (origin i : Nat) (l : List Byte) (hk : Kept base b.lasting) :
    Kept base (b.floodBlock t origin i l).lasting := by
  refine Block.onColl_kept b t _ _ (fun g c x p => ?_) hk
  simp [hk]

@[simp] theorem Block.floodBlocks_kept (b : Block) (t : TaskRef) (origin : Nat) (l : List (Nat × List Byte)) (hk : Kept base b.lasting) :
    Kept base (b.floodBlocks t origin l).lasting := by
  induction l generalizing b <;> simp_all [Block.floodBlocks]

@[simp] theorem Block.verdictLands_kept (b : Block) (t : TaskRef) (l : List Byte) (mine on : Bool) (hk : Kept base b.lasting) :
    Kept base (b.verdictLands t l mine on).lasting := by
  refine Block.onColl_kept b t _ _ (fun g c x p => Kept.ite hk ?_) hk
  have hland : Kept base (b.coLand t 0 l 0xFFFF).lasting := Block.coLand_kept b t 0 l _ hk
  refine Kept.ite (Block.applyVerdict_kept _ _ _ _ (Block.collGo_kept _ t ?_)) hland
  simp [hland]

@[simp] theorem Block.takeBlocks_kept (b : Block) (t : TaskRef) (q : Packet) (hk : Kept base b.lasting) :
    Kept base (b.takeBlocks t q).lasting := by
  refine Block.onColl_kept b t _ _ (fun g c x p => ?_) hk
  extract_lets i away ring near two
  split
  · simp [hk]
  · refine Kept.ite (by simp [hk]) ?_
    extract_lets b1 b2
    have hb1 : Kept base b1.lasting := by simp [b1, hk]
    have hb2 : Kept base b2.lasting := Kept.ite (by simp [hb1]) hb1
    (repeat' split) <;> simp [hb2]

@[simp] theorem Block.collTake_kept (b : Block) (t : TaskRef) (q : Packet) (hk : Kept base b.lasting) :
    Kept base (b.collTake t q).lasting := by
  refine Block.onColl_kept b t _ _ (fun g c x p => ?_) hk
  simp [hk]

@[simp] theorem Block.collDrain_kept (b : Block) (t : TaskRef) (l : List Packet) (hk : Kept base b.lasting) :
    Kept base (b.collDrain t l).lasting := by
  induction l generalizing b <;> simp_all [Block.collDrain]

@[simp] theorem Block.collBegin_kept (b : Block) (t : TaskRef) (hk : Kept base b.lasting) :
    Kept base (b.collBegin t).lasting := by
  have hstart := Block.collStart_kept b t hk
  refine Block.onColl_kept _ t _ _ (fun g c x p => ?_) hstart
  simp [hstart]

@[simp] theorem Block.peerPump_kept (b : Block) (t : TaskRef) (l : Nat) (hk : Kept base b.lasting) :
    Kept base (b.peerPump t l).lasting := by
  induction l generalizing b with
  | zero => exact hk
  | succ n ih =>
    rw [Block.peerPump]
    refine Block.onColl_kept b t _ _ (fun g c x p => Kept.ite hk (Kept.ite (Kept.ite hk ?_) (by simp [hk]))) hk
    split
    · simp [hk]
    · exact ih _ (by simp [hk])

@[simp] theorem Block.peerGo_kept (b : Block) (t : TaskRef) (hk : Kept base b.lasting) :
    Kept base (b.peerGo t).lasting := by
  simp [Block.peerGo, hk]

@[simp] theorem Block.peerEnd_kept (b : Block) (t : TaskRef) (hk : Kept base b.lasting) : Kept base (b.peerEnd t).lasting := by
  refine Block.onColl_kept b t _ _ (fun g c x p => ?_) hk
  dsimp only
  (repeat' split) <;> simp [hk]

@[simp] theorem Block.travelPump_kept (b : Block) (t : TaskRef) (l : Nat) (hk : Kept base b.lasting) :
    Kept base (b.travelPump t l).lasting := by
  induction l generalizing b with
  | zero => exact hk
  | succ n ih =>
    rw [Block.travelPump]
    refine Block.onColl_kept b t _ _ (fun g c x p => Kept.ite hk ?_) hk
    split
    · exact Kept.ite (by simp [hk]) hk
    · exact ih _ (by simp [hk])

@[simp] theorem Block.travelGo_kept (b : Block) (t : TaskRef) (hk : Kept base b.lasting) :
    Kept base (b.travelGo t).lasting := by
  simp [Block.travelGo, hk]

@[simp] theorem Block.landChunk_kept (b : Block) (t : TaskRef) (g : Graph) (c : TaskCtx) (x : CollState) (z : Tensor) (r chunk key : Nat)
    (l : List Byte) (hk : Kept base b.lasting) : Kept base (b.landChunk t g c x z r chunk key l).lasting := by
  unfold Block.landChunk
  dsimp only
  (repeat' split) <;> simp [hk]

@[simp] theorem Block.takeRow_kept (b : Block) (t : TaskRef) (q : Packet) (hk : Kept base b.lasting) :
    Kept base (b.takeRow t q).lasting := by
  refine Block.onColl_kept b t _ _ (fun g c x p => ?_) hk
  extract_lets d n e slot chunk z
  refine Kept.ite (by simp [hk]) (Kept.ite ?_ (Kept.ite (by simp [hk]) (Kept.ite (by simp [hk]) (by simp [hk]))))
  split
  · simp [hk]
  · exact Kept.ite (by simp [hk]) (by simp [hk])

@[simp] theorem Block.takeRows_kept (b : Block) (t : TaskRef) (l : List Packet) (hk : Kept base b.lasting) :
    Kept base (b.takeRows t l).lasting := by
  induction l generalizing b <;> simp_all [Block.takeRows]

@[simp] theorem Block.sendNotices_kept (b : Block) (t : TaskRef) (g : Graph) (d : TaskDesc) (p : Plan) (late : Nat) (l : List Nat)
    (hk : Kept base b.lasting) :
    Kept base (b.sendNotices t g d p late l).lasting := by
  induction l generalizing b <;> simp_all [Block.sendNotices]

@[simp] theorem Block.detectLate_kept (b : Block) (t : TaskRef) (g : Graph) (d : TaskDesc) (p : Plan) (l : List (Nat × Nat))
    (hk : Kept base b.lasting) : Kept base (b.detectLate t g d p l).lasting := by
  unfold Block.detectLate
  split
  · exact hk
  · exact Block.fail_kept _ _ _ _ (Block.kept_foldl _ (fun c q hc => Kept.ite hc (by simp [hc])) _ hk)

@[simp] theorem Block.redirect_kept (b : Block) (t : TaskRef) (old : Nat) (l : List CollOut) (hk : Kept base b.lasting) :
    Kept base (b.redirect t old l).lasting := by
  induction l generalizing b with
  | nil => exact hk
  | cons o l ih => exact ih _ (Block.onColl_kept b t _ _ (fun g c x p => by simp [hk]) hk)

@[simp] theorem Block.skipOver_kept (b : Block) (t : TaskRef) (g : Graph) (n : Nat) (hk : Kept base b.lasting) :
    Kept base (b.skipOver t g n).lasting := by
  refine Block.onColl_kept b t _ _ (fun _ c x p => ?_) hk
  simp [hk]

@[simp] theorem Block.collLost_kept (b : Block) (t : TaskRef) (lost : List Nat) (hk : Kept base b.lasting) :
    Kept base (b.collLost t lost).lasting := by
  refine Block.onColl_kept b t _ _ (fun g c x p => ?_) hk
  split <;> simp [hk]

@[simp] theorem Block.retryJob_kept (b : Block) (job : Nat) (hk : Kept base b.lasting) :
    Kept base (b.retryJob job).lasting := by
  simp [Block.retryJob, hk]

@[simp] theorem Block.doMap_kept (b : Block) (t : TaskRef) (g : Graph) (c : TaskCtx) (hk : Kept base b.lasting) :
    Kept base (b.doMap t g c).lasting := by
  unfold Block.doMap
  dsimp only
  refine Kept.ite (by simp [hk]) (Kept.ite (by simp [hk]) (Kept.ite (by simp [hk]) ?_))
  split
  · simp [hk]
  · next e => simp [hk.ofLasting (Block.allocate_lasting e)]

@[simp] theorem Block.unmapPages_lasting (b : Block) (k : Nat) (l : List Nat) : (b.unmapPages k l).lasting = b.lasting := by
  fun_induction Block.unmapPages <;> simp_all

@[simp] theorem Block.doUnmap_kept (b : Block) (t : TaskRef) (g : Graph) (c : TaskCtx) (hk : Kept base b.lasting) :
    Kept base (b.doUnmap t g c).lasting := by
  simp only [Block.doUnmap]
  (repeat' split) <;> simp [hk]

@[simp] theorem Block.startFill_kept (b : Block) (t : TaskRef) (g : Graph) (d : TaskDesc) (hk : Kept base b.lasting) :
    Kept base (b.startFill t g d).lasting := by
  unfold Block.startFill
  dsimp only
  refine Kept.ite (by simp [hk]) (Kept.ite (by simp [hk]) (Kept.ite (by simp [hk]) ?_))
  split
  · simp [hk]
  · next e =>
    have halloc := hk.ofLasting (Block.allocate_lasting e)
    exact Kept.ite (by simp [halloc]) (by simp [halloc])

@[simp] theorem Block.writeQuery_kept (b : Block) (t : TaskRef) (g : Graph) (c : TaskCtx) (v : Nat) (hk : Kept base b.lasting) :
    Kept base (b.writeQuery t g c v).lasting := by
  simp [Block.writeQuery, hk]

theorem Block.adderRow_kept (b : Block) (a : Access) (op : Nat) (table rows : Tensor) (i j : Nat) (hk : Kept base b.lasting) :
    (∀ z, b.adderRow a op table rows i j = .ok z → Kept base z.lasting) ∧
      ∀ z, b.adderRow a op table rows i j = .error z → Kept base z.1.lasting := by
  unfold Block.adderRow
  split
  · simp [hk]
  · simp [hk]
  · split
    · simp [hk]
    · next cells _ =>
      have hland := Block.landCells_kept cells hk
      split <;> next e => simpa [e] using hland

theorem Block.adderRows_kept (b : Block) (a : Access) (op : Nat) (table rows : Tensor) (l : List (Int × Nat)) (hk : Kept base b.lasting) :
    (∀ z, b.adderRows a op table rows l = .ok z → Kept base z.lasting) ∧
      ∀ z, b.adderRows a op table rows l = .error z → Kept base z.1.lasting := by
  induction l generalizing b with
  | nil => exact ⟨fun z e => by cases e; exact hk, fun z e => (nomatch e)⟩
  | cons p ps ih =>
    unfold Block.adderRows
    have hrow := Block.adderRow_kept b a op table rows p.1.toNat p.2 hk
    split
    · split
      · next e1 => exact ⟨fun z e => (nomatch e), fun z e => by cases e; exact hrow.2 _ e1⟩
      · next b1 e1 => exact ih b1 (hrow.1 _ e1)
    · exact ih b hk

@[simp] theorem Block.freeRows_kept (b : Block) (a : Access) (table : Tensor) (l : List Int) (hk : Kept base b.lasting) :
    Kept base (b.freeRows a table l).lasting := by
  induction l generalizing b with
  | nil => exact hk
  | cons i is ih =>
    simp only [Block.freeRows]
    split
    · split
      · exact ih _ (by simp [hk])
      · exact ih _ (by simpa using Block.landCells_kept _ (by simp [hk]))
    · exact ih b hk

@[simp] theorem Block.runGather_kept (b : Block) (t : TaskRef) (mode : Nat) (body : Graph → TaskCtx → Access → List Int → Block → Block)
    (hbody : ∀ g c a is (z : Block), Kept base z.lasting → Kept base (body g c a is z).lasting) (hk : Kept base b.lasting) :
    Kept base (b.runGather t mode body).lasting := by
  refine Block.onMode_kept b t _ _ _ (fun g c => ?_) hk
  dsimp only
  split
  · simp [hk]
  · split
    · simp [hk]
    · exact hbody _ _ _ _ _ (by simp [hk])

@[simp] theorem Block.runAdders_kept (b : Block) (t : TaskRef) (mode op : Nat) (hk : Kept base b.lasting) :
    Kept base (b.runAdders t mode op).lasting := by
  refine Block.runGather_kept b t _ _ (fun g c a is z hz => ?_) hk
  have hrows := Block.adderRows_kept z a op (c.tensor 0) (c.tensor 2) ((is.zip (List.range is.length)).drop c.stage) hz
  dsimp only
  split
  · next e => simp [hrows.2 _ e]
  · next e => simp [hrows.1 _ e]

@[simp] theorem Block.reserveWindow_kept (b : Block) (h : HalfId) (hk : Kept base b.lasting) : Kept base (b.reserveWindow h).lasting := by
  simp only [Block.reserveWindow]
  split
  · simp [hk]
  · next e => simp [hk.ofLasting (Block.allocFrames_lasting e)]

@[simp] theorem Block.releaseQueue_kept (b : Block) (q : Nat) (hk : Kept base b.lasting) :
    Kept base (b.releaseQueue q).lasting := by
  simp [Block.releaseQueue, hk]

@[simp] theorem Block.writeQueueHead_kept (b : Block) (q v addr : Nat) (hk : Kept base b.lasting) :
    Kept base (b.writeQueueHead q v addr).lasting := by
  simp only [Block.writeQueueHead]
  (repeat' split) <;> simp [hk]

theorem Block.entryDone_kept (b : Block) (q i : Nat) (l : List Byte) (status badTask badOffset : Nat) (hk : Kept base b.lasting) :
    ∀ z, b.entryDone q i l status badTask badOffset = some z → Kept base z.lasting :=
  Block.cqPush_kept b q _ _ hk

@[simp] theorem Block.processEntry_kept (b : Block) (q op : Nat) (hk : Kept base b.lasting) : Kept base (b.processEntry q op).lasting := by
  unfold Block.processEntry
  split
  · exact hk
  · split
    · exact hk
    · dsimp only
      split
      · exact hk
      · next e =>
        rw [Block.modPair_lasting]
        split at e
        · exact Block.entryDone_kept _ _ _ _ _ _ _ hk _ e
        · exact Block.submit_kept _ _ _ _ _ _ _ _ _ hk _ e

@[simp] theorem Block.destroyPair_kept (b : Block) (q : Nat) (hk : Kept base b.lasting) :
    Kept base (b.destroyPair q).lasting := by
  simp [Block.destroyPair, hk]

@[simp] theorem Block.createPair_kept (b : Block) (q : Nat) (v : Word) (hk : Kept base b.lasting) :
    Kept base (b.createPair q v).lasting := by
  simp only [Block.createPair]
  (repeat' split) <;> simp [hk]

@[simp] theorem Block.writePair_kept (b : Block) (q : Nat) (v : Word) (hk : Kept base b.lasting) :
    Kept base (b.writePair q v).lasting := by
  simp only [Block.writePair]
  (repeat' split) <;> simp [hk]

@[simp] theorem Block.pairWrite_kept (b : Block) (q : Nat) (v : Word) (hk : Kept base b.lasting) :
    Kept base (b.pairWrite q v).lasting := by
  simp [Block.pairWrite, hk]

@[simp] theorem Block.enterSlack_kept (b : Block) (a : Actor) (hk : Kept base b.lasting) :
    Kept base (b.enterSlack a).block.lasting := by
  simp only [Block.enterSlack]
  (repeat' split) <;> simp [hk]

@[simp] theorem Block.stopTest_kept (b : Block) (h : HalfId) (ch : Nat) (hk : Kept base b.lasting) :
    Kept base (b.stopTest h ch).lasting := by
  unfold Block.stopTest
  split
  · exact hk
  · extract_lets r u v w done b0 b1
    have hb1 : Kept base b1.lasting := Kept.ite (by simp [b0, w, v, u, hk]) (by simp [b0, w, v, u, hk])
    exact Kept.ite hb1 (Block.kept_foldl _ (fun c i hc => by simpa using Block.store_kept _ _ (by simp [hc])) _ hb1)

@[simp] theorem Block.stopTests_kept (b : Block) (h : HalfId) (hk : Kept base b.lasting) : Kept base (b.stopTests h).lasting :=
  Block.kept_foldl _ (fun c ch hc => Block.stopTest_kept c h ch hc) _ hk

@[simp] theorem Block.wake_kept (b : Block) (a : Actor) (hk : Kept base b.lasting) :
    Kept base (b.wake a).block.lasting := by
  simp only [Block.wake]
  (repeat' split) <;> simp [hk]

@[simp] theorem Block.push_lasting (b : Block) (c : ConfigSlot) : (b.push c).lasting = b.lasting := by
  simp only [Block.push, Block.setImage_lasting]
  split <;> simp only [Block.setReg_lasting, Block.setBoth_lasting, Block.setBothList_lasting]

@[simp] theorem Block.raiseFloor_kept (b : Block) (x : FirmwareSlot) (hk : Kept base b.lasting) : Kept base (b.raiseFloor x).lasting :=
  Kept.ite (Block.audited_kept _ _ _ _ (fun _ hc => hc) hk) hk

@[simp] theorem Block.bootZilsy_kept (b : Block) (isB : Bool) (x : FirmwareSlot) (hk : Kept base b.lasting) :
    Kept base (b.bootZilsy isB x).lasting := by
  simp [Block.bootZilsy, hk]

@[simp] theorem Block.recoverAs_kept (b : Block) (isB : Bool) (c : ConfigSlot) (seq role keyId : Nat) (hk : Kept base b.lasting) :
    Kept base (b.recoverAs isB c seq role keyId).lasting := by
  simp only [Block.recoverAs]
  (repeat' split) <;> simp [hk]

@[simp] theorem Block.recoverCommit_kept (b : Block) (isB : Bool) (c : ConfigSlot) (seq : Nat) (hk : Kept base b.lasting) :
    Kept base (b.recoverCommit isB c seq).lasting := by
  simp only [Block.recoverCommit]
  (repeat' split) <;> simp [hk]

@[simp] theorem Block.trainShelf_kept (b : Block) (h : HalfId) (l : List (Nat × Nat)) (eyes : List Nat) (hk : Kept base b.lasting) :
    Kept base (b.trainShelf h l eyes).lasting := by
  simp [Block.trainShelf, hk]

@[simp] theorem Block.endShelf_kept (b : Block) (h : HalfId) (l : List (Nat × Nat)) (eyes : List Nat) (hk : Kept base b.lasting) :
    Kept base (b.endShelf h l eyes).lasting := by
  simp only [Block.endShelf]
  (repeat' split) <;> simp [hk]

@[simp] theorem Block.lendAtStart_kept (b : Block) (h : HalfId) (hk : Kept base b.lasting) :
    Kept base (b.lendAtStart h).lasting := by
  simp only [Block.lendAtStart]
  (repeat' split) <;> simp [hk]

@[simp] theorem Block.writeCap_kept (b : Block) (a : Actor) (v : Nat) (hk : Kept base b.lasting) :
    Kept base (b.writeCap a v).block.lasting := by
  simp only [Block.writeCap]
  (repeat' split) <;> simp [hk]

@[simp] theorem Block.commitWrite_kept (b : Block) (w : ConfigWrite) (c : ConfigSlot) (hk : Kept base b.lasting) :
    Kept base (b.commitWrite w c).lasting := by
  unfold Block.commitWrite
  extract_lets isB r newest0 old f0 f b1 a ch
  have hb1 : b1.lasting = b.lasting := by
    simp only [b1, f, f0]
    cases isB <;> split <;> rfl
  have haudit : Kept base (b1.appendAudit a ch).lasting := Block.appendAudit_kept a ch false (hk.ofLasting hb1)
  refine Kept.ite ?_ (by simp [hk])
  rw [Block.showSlot_lasting, Block.setZilsy_lasting]
  exact haudit

@[simp] theorem Block.applyFirmware_kept (b : Block) (a : Actor) (x : Staging) (o : StagedObject) (hk : Kept base b.lasting) :
    Kept base (b.applyFirmware a x o).block.lasting := by
  simp only [Block.applyFirmware]
  (repeat' split) <;> simp [hk]

@[simp] theorem Block.stopStream_kept (b : Block) (t : TaskRef) (i : Nat) (e : Stop) (hk : Kept base b.lasting) :
    Kept base (b.stopStream t i e).lasting := by
  simp only [Block.stopStream]
  (repeat' split) <;> simp [hk]

@[simp] theorem Block.endDecode_kept (b : Block) (t : TaskRef) (g : Graph) (c : TaskCtx) (k : Clip) (n : Nat) (r : Nat × Nat × Bool)
    (cells : List Host.Cell) (hk : Kept base b.lasting) :
    Kept base (b.endDecode t g c k n r cells).lasting := by
  simp only [Block.endDecode]
  (repeat' split) <;> simp [hk]

@[simp] theorem Block.endSample_kept (b : Block) (t : TaskRef) (cells : List Host.Cell) (shapes : List Nat) (st det : Nat)
    (hk : Kept base b.lasting) :
    Kept base (b.endSample t cells shapes st det).lasting := by
  simp [Block.endSample, hk]

@[simp] theorem Block.enableFunc_kept (b : Block) (a : Actor) (f : FuncId) (what : Nat) (hk : Kept base b.lasting) :
    Kept base (b.enableFunc a f what).block.lasting := by
  simp only [Block.enableFunc]
  (repeat' split) <;> simp [hk]

@[simp] theorem Block.abortAll_kept (b : Block) (detail : Nat) (l : List TaskRef) (hk : Kept base b.lasting) :
    Kept base (b.abortAll detail l).lasting := by
  induction l generalizing b <;> simp_all [Block.abortAll]

theorem Block.addRow_lasting (b : Block) (k : Nat) (r : PageRow) : ∀ z, b.addRow k r = .ok z → z.lasting = b.lasting := by
  simp only [Block.addRow]
  (repeat' split) <;> simp

theorem Block.addRows_lasting (b : Block) (k : Nat) (l : List PageRow) : ∀ z, b.addRows k l = .ok z → z.lasting = b.lasting := by
  induction l generalizing b with
  | nil => rintro z ⟨⟩; rfl
  | cons r rs ih =>
    intro z e
    rw [Block.addRows] at e
    split at e
    · cases e
    · next e1 => rw [ih _ z e, Block.addRow_lasting b k r _ e1]

@[simp] theorem Block.storeExperts_kept (b : Block) (h : HalfId) (k : Nat) (l : List Nat) (hk : Kept base b.lasting) :
    Kept base (b.storeExperts h k l).lasting := by
  simp [Block.storeExperts, hk]

@[simp] theorem Block.ownerAck_kept (b : Block) (h : HalfId) (l : List Byte) (run : Nat) (hk : Kept base b.lasting) :
    Kept base (b.ownerAck h l run).lasting := by
  simp only [Block.ownerAck]
  (repeat' split) <;> simp [hk]

@[simp] theorem Block.answerTasks_kept (b : Block) (h : HalfId) (w0 w1 : Nat) (l : List (TaskRef × Graph × TaskCtx))
    (hk : Kept base b.lasting) :
    Kept base (b.answerTasks h w0 w1 l).lasting := by
  induction l generalizing b <;> simp_all [Block.answerTasks]

@[simp] theorem Block.loseTray_kept (b : Block) (h : HalfId) (tray : Nat) (hk : Kept base b.lasting) :
    Kept base (b.loseTray h tray).lasting := by
  refine Block.kept_foldl _ (fun c t hc => Block.collLost_kept c t _ hc) _ ?_
  exact Block.kept_foldl _ (fun c q hc => Block.fail_kept c _ _ _ hc) _ hk

@[simp] theorem Block.writeLend_kept (b : Block) (a : Actor) (h : HalfId) (v : Nat) (hk : Kept base b.lasting) :
    Kept base (b.writeLend a h v).block.lasting := by
  unfold Block.writeLend
  dsimp only
  split
  · simp [hk]
  · exact Block.auditedAnswer_kept b a _ _ (fun c hc => by simp [hc]) hk

@[simp] theorem Block.testGo_kept (b : Block) (h : HalfId) (ch mode : Nat) (hk : Kept base b.lasting) :
    Kept base (b.testGo h ch mode).block.lasting := by
  simp only [Block.testGo]
  (repeat' split) <;> simp [hk]

@[simp] theorem Block.nextPosition_kept (b : Block) (t : TaskRef) (a : Access) (c : TaskCtx) (w : BatchWork) (cells : List Host.Cell)
    (hk : Kept base b.lasting) :
    Kept base (b.nextPosition t a c w cells).lasting := by
  simp only [Block.nextPosition]
  (repeat' split) <;> simp [hk]

@[simp] theorem Block.fillPosition_kept (b : Block) (t : TaskRef) (a : Access) (c : TaskCtx) (w : BatchWork) (own : List Host.Cell)
    (hk : Kept base b.lasting) :
    Kept base (b.fillPosition t a c w own).lasting := by
  simp only [Block.fillPosition]
  (repeat' split) <;> simp [hk]

@[simp] theorem Block.failAttempt_kept (b : Block) (t : TaskRef) (a : Access) (c : TaskCtx) (w : BatchWork) (st det : Nat)
    (hk : Kept base b.lasting) :
    Kept base (b.failAttempt t a c w st det).lasting := by
  simp only [Block.failAttempt]
  (repeat' split) <;> simp [hk]

@[simp] theorem Block.onAugment_kept (b : Block) (t : TaskRef) (code : Nat)
    (f : TaskCtx → BatchWork → (Nat → Nat) → AugRecord → BatchWork) (hk : Kept base b.lasting) :
    Kept base (b.onAugment t code f).lasting := by
  refine Block.onRunning_kept b t _ _ (fun g c => ?_) hk
  dsimp only
  (repeat' split) <;> simp [hk]

@[simp] theorem Block.convLand_kept (b : Block) (t : TaskRef) (c : TaskCtx) (parity : Option BankUpset) (run : List (Res Stored) × Nat)
    (f : Block → ConvStats → Block) (hf : ∀ (z : Block) st, Kept base z.lasting → Kept base (f z st).lasting) (hk : Kept base b.lasting) :
    Kept base (b.convLand t c parity run f).lasting := by
  have hrun := Block.landRun_kept b (partShares run.1) hk
  unfold Block.convLand
  dsimp only
  split
  · simpa using Block.landSome_kept b _ hk
  · split
    · simp [hrun]
    · simp [hrun]
    · exact hf _ _ hrun

@[simp] theorem Block.convTask_kept (b : Block) (t : TaskRef) (g : Graph) (c : TaskCtx) (parity : Option BankUpset)
    (hk : Kept base b.lasting) :
    Kept base (b.convTask t g c parity).lasting := by
  simp only [Block.convTask]
  (repeat' split) <;> simp [hk]

@[simp] theorem Block.startTask_kept (b : Block) (t : TaskRef) (g : Graph) (c : TaskCtx) (hk : Kept base b.lasting) :
    Kept base (b.startTask t g c).lasting := by
  simp only [Block.startTask]
  (repeat' split) <;> simp [hk]

@[simp] theorem Block.checkFired_kept (b : Block) (t : TaskRef) (g : Graph) (c : TaskCtx) (hk : Kept base b.lasting) :
    Kept base (b.checkFired t g c).lasting := by
  simp only [Block.checkFired]
  (repeat' split) <;> simp [hk]

@[simp] theorem Block.storeReg_kept (b : Block) (a : Actor) (r : RegRow) (addr : Nat) (v : Word) (hk : Kept base b.lasting) :
    Kept base (b.storeReg a r addr v).block.lasting := by
  simp only [Block.storeReg]
  (repeat' split) <;> simp [hk]

@[simp] theorem Block.debugCommand_kept (b : Block) (a : Actor) (n : Nat) (v : Word) (hk : Kept base b.lasting) :
    Kept base (b.debugCommand a n v).block.lasting := by
  simp only [Block.debugCommand]
  (repeat' split) <;> simp [hk]

@[simp] theorem Block.slackCommand_kept (b : Block) (a : Actor) (v : Word) (hk : Kept base b.lasting) :
    Kept base (b.slackCommand a v).block.lasting := by
  simp only [Block.slackCommand]
  (repeat' split) <;> simp [hk]

@[simp] theorem Block.pairCommand_kept (b : Block) (a : Actor) (q off : Nat) (r : RegRow) (v : Word) (hk : Kept base b.lasting) :
    Kept base (b.pairCommand a q off r v).block.lasting := by
  simp only [Block.pairCommand]
  (repeat' split) <;> simp [hk]

theorem Block.moduleCommand_kept (b : Block) (a : Actor) (addr : Nat) (r : RegRow) (v : Word) (hk : Kept base b.lasting) :
    ∀ y, b.moduleCommand a addr r v = some y → Kept base y.block.lasting := by
  simp only [Block.moduleCommand]
  repeat' refine forall_some_of_ite ?_ ?_
  all_goals rintro y ⟨⟩
  all_goals (repeat' split) <;> simp [hk]

@[simp] theorem Block.startDrain_kept (b : Block) (f : FuncId) (hk : Kept base b.lasting) : Kept base (b.startDrain f).lasting := by
  unfold Block.startDrain
  split
  · exact hk
  · next hst =>
    extract_lets g b1 b2
    have hb1 : Kept base b1.lasting := by
      refine Block.setFunc_kept f _ (fun k e _ => Block.slot_bound_of_func ?_) hk
      subst e; omega
    have hb2 : b2.lasting = b1.lasting := by
      simp only [b2]; split <;> simp
    simp [hb2, hb1]

@[simp] theorem Block.disableFunc_kept (b : Block) (a : Actor) (f : FuncId) (hk : Kept base b.lasting) :
    Kept base (b.disableFunc a f).block.lasting := by
  unfold Block.disableFunc
  split
  · exact hk
  · exact Block.auditedAnswer_kept _ a _ _ (fun c hc => Block.startDrain_kept c f hc) hk

@[simp] theorem Block.abortFor_kept (b : Block) (f : FuncId) (ts : List TaskRef) (hk : Kept base b.lasting) :
    Kept base (b.abortFor f ts).lasting := by
  unfold Block.abortFor
  split
  · exact hk
  · next t _ =>
    extract_lets y b1 b2
    have hb1 : Kept base b1.lasting := by simp [b1, hk]
    have hb2 : Kept base b2.lasting := Kept.ite (by simp [hb1]) hb1
    have hlayout : b2.layout = b.layout := by
      simp only [b2, b1]; split <;> simp
    refine Block.setFunc_kept f _ (fun k e hst => ?_) hb2
    rw [Block.slot_st_of_layout hlayout]
    refine Block.slot_bound_of_func ?_
    subst e
    simp only [y] at hst
    omega

@[simp] theorem Block.closeSlot_kept (b : Block) (k : Nat) (hk : Kept base b.lasting) : Kept base (b.closeSlot k).lasting := by
  simp only [Block.closeSlot, Block.releaseSlot, Block.ackAborts_lasting]
  refine Block.modSlot_kept _ _ (fun _ h0 => absurd rfl h0) ?_
  simp [hk]

@[simp] theorem Block.drainSlots_kept (b : Block) (ks : List Nat) (hk : Kept base b.lasting) : Kept base (b.drainSlots ks).lasting := by
  induction ks generalizing b with
  | nil => exact hk
  | cons k ks ih => exact ih _ (Block.startDrain_kept b _ hk)

/-- A slot that takes a job which no slot holds. -/
theorem Block.modSlot_kept_of_free {b : Block} (k : Nat) {f : JobSlot → JobSlot} {job : Nat} (hf : ∀ s, (f s).job = job)
    (hfree : ∀ i, (b.slot i).st ≠ 0 → (b.slot i).job ≠ job) (hk : Kept base b.lasting) : Kept base (b.modSlot k f).lasting := by
  have hbound (n : Nat) (hn : ((b.modSlot k f).slot n).st ≠ 0) :
      n = k ∧ ((b.modSlot k f).slot n).job = job ∨ (b.slot n).st ≠ 0 ∧ ((b.modSlot k f).slot n).job = (b.slot n).job := by
    rw [Block.slot_modSlot] at hn ⊢
    split
    · next hnk => exact .inl ⟨hnk.1, hf _⟩
    · next hnk => exact .inr ⟨by rwa [if_neg hnk] at hn, rfl⟩
  refine hk.ofSlots (fun hone i j hi hj hij => ?_) rfl rfl rfl
  rw [getD_slots] at hi hj
  rw [getD_slots, getD_slots] at hij
  obtain ⟨hik, hi'⟩ | ⟨hi', hjob⟩ := hbound i hi <;> obtain ⟨hjk, hj'⟩ | ⟨hj', hjob'⟩ := hbound j hj
  · exact hik.trans hjk.symm
  · exact absurd (hjob'.symm.trans (hij.symm.trans hi')) (hfree j hj')
  · exact absurd (hjob.symm.trans (hij.trans hj')) (hfree i hi')
  · exact hone i j (by rwa [getD_slots]) (by rwa [getD_slots]) (by rw [getD_slots, getD_slots]; exact hjob.symm.trans (hij.trans hjob'))

theorem Block.bind_kept {b z : Block} {k job : Nat} {tables : List PageRow} (e : b.bind k job tables = .ok z) (hk : Kept base b.lasting) :
    Kept base z.lasting := by
  unfold Block.bind at e
  split at e
  · cases e
  · next hfree =>
    split at e
    · cases e
    · next b1 hrows =>
      split at e
      · cases e
      · split at e
        · cases e
        · next xa _ _ xb _ =>
          cases e
          have hb1 : Kept base b1.lasting := hk.ofLasting (Block.addRows_lasting b k tables b1 hrows)
          have hlayout : ((b1.storeExperts .a k xa.1).storeExperts .b k xb.1).layout = b.layout := by
            simp [Block.addRows_layout b k tables b1 hrows]
          have hjob : b.slotOfJob job = none := by simpa using fun hs => hfree (.inl hs)
          simp only [Block.clearEnergy_lasting, Block.setHashes_lasting, Block.clearSlot_lasting]
          refine Block.modSlot_kept_of_free k (job := job) (fun _ => rfl) (fun i hi => ?_) (by simp [hb1])
          rw [Block.slot_st_of_layout hlayout] at hi
          rw [Block.slot_job_of_layout hlayout]
          exact Block.job_ne_of_slotOfJob_none hjob hi

@[simp] theorem Block.startUp_kept (b : Block) (straps upNs : Nat) (hk : Kept base b.lasting) :
    Kept base (b.startUp straps upNs).lasting := by
  simpa [Block.startUp] using Block.cold_kept hk

@[simp] theorem Block.trip_kept (b : Block) (hk : Kept base b.lasting) : Kept base b.trip.lasting := by
  rw [Block.trip, Block.setRegFld_lasting]
  exact Block.cold_kept (b := b) hk

@[simp] theorem Block.restart_kept (b : Block) (hk : Kept base b.lasting) : Kept base b.restart.lasting := by
  simp only [Block.restart]
  split
  · simpa using Block.startUp_kept _ _ _ (by simp [hk])
  · simp [hk]

@[simp] theorem Block.heat_kept (b : Block) (was t : Int) (hk : Kept base b.lasting) : Kept base (b.heat was t).lasting := by
  simp only [Block.heat]
  split
  · refine Block.trip_kept _ ?_
    (repeat' split) <;> simp [hk]
  · (repeat' split) <;> simp [hk]

@[simp] theorem Block.bindWrite_kept (b : Block) (k job : Nat) (tables : List PageRow) (hk : Kept base b.lasting) :
    Kept base (b.bindWrite k job tables).block.lasting := by
  simp only [Block.bindWrite]
  split
  · simp [hk]
  · split
    · simp [hk]
    · next e => simpa using Block.bind_kept e hk

@[simp] theorem Block.funcCommand_kept (b : Block) (a : Actor) (addr : Nat) (v : Word) (hk : Kept base b.lasting) :
    Kept base (b.funcCommand a addr v).block.lasting := by
  simp only [Block.funcCommand]
  split
  · simp [hk]
  · split <;> simp [hk]

@[simp] theorem Block.slotCommand_kept (b : Block) (k : Nat) (v : Word) (hk : Kept base b.lasting) :
    Kept base (b.slotCommand k v).block.lasting := by
  simp only [Block.slotCommand]
  split
  · simp [hk]
  · split <;> simp [hk]

theorem Block.halfCommand_kept (b : Block) (a : Actor) (addr : Nat) (v : Word) (hk : Kept base b.lasting) :
    ∀ y, b.halfCommand a addr v = some y → Kept base y.block.lasting := by
  simp only [Block.halfCommand]
  repeat' refine forall_some_of_ite ?_ ?_
  all_goals rintro y ⟨⟩
  all_goals (repeat' split) <;> simp [hk]

@[simp] theorem Block.writeReg_kept (b : Block) (a : Actor) (addr : Nat) (v : Word) (hk : Kept base b.lasting) :
    Kept base (b.writeReg a addr v).block.lasting := by
  simp only [Block.writeReg]
  split
  · split <;> simp [hk]
  · split
    · simp [hk]
    · split
      · simp [hk]
      · split
        · simp [hk]
        · split
          · simp [hk]
          · split
            · next e =>
              split at e
              · exact Block.halfCommand_kept b a addr v hk _ e
              · exact Block.moduleCommand_kept b a addr _ v hk _ e
            · split <;> simp [hk]

theorem Block.tryImage_kept {b : Block} {t : TaskRef} {a : Access} {c : TaskCtx} {unit : Nat} {l : List Byte} {draw : Nat} {r : AttemptOut}
    (e : b.tryImage t a c unit l draw = .ok r) (hk : Kept base b.lasting) : Kept base r.block.lasting := by
  simp only [Block.tryImage] at e
  split at e
  · cases e; exact hk
  · obtain ⟨sc, -, rfl⟩ := exists_of_map_ok e
    exact Block.landCells_kept _ hk
  · obtain ⟨sc, -, rfl⟩ := exists_of_map_ok e
    exact Block.landCells_kept _ hk

theorem Block.tryVideo_kept {b : Block} {t : TaskRef} {g : Graph} {c : TaskCtx} {p : Nat} {l : List Byte} {draw : Nat} {r : AttemptOut}
    (e : b.tryVideo t g c p l draw = .ok r) (hk : Kept base b.lasting) : Kept base r.block.lasting := by
  simp only [Block.tryVideo] at e
  split at e
  · cases e; exact hk
  · split at e
    · cases e
    · split at e <;> cases e
      exact Block.landCells_kept _ (by simp [hk])

theorem Block.tryDomain_kept {b : Block} {t : TaskRef} {g : Graph} {c : TaskCtx} {w : BatchWork} {u : Nat} {l pf : List Byte} {draw : Nat}
    {r : AttemptOut} (e : b.tryDomain t g c w u l pf draw = .ok r) (hk : Kept base b.lasting) : Kept base r.block.lasting := by
  simp only [Block.tryDomain] at e
  obtain ⟨y, hy, rfl⟩ := exists_of_map_ok e
  rw [Block.countPipe_lasting]
  split at hy
  · exact Block.tryImage_kept hy hk
  · cases hy; simp [hk]
  · exact Block.tryVideo_kept hy hk
  · cases hy; simp [hk]
end

/-! ## The commands -/

/-- A command's meaning keeps the lasting state. -/
def KeepsLasting (f : State → Host.Outcome State Fault Refusal) : Prop :=
  ∀ s t, f s = .next t → Kept s.block.lasting t.block.lasting

theorem KeepsLasting.ofAct {f : Block → Block} (hf : ∀ b, Kept b.lasting (f b).lasting) : KeepsLasting (fun s => s.act f) := by
  rintro s t ⟨⟩
  exact hf s.block

theorem KeepsLasting.onRunning {t : TaskRef} {ty : Nat} {f : Block → Graph → TaskCtx → Block}
    (hf : ∀ b g c, Kept b.lasting (f b g c).lasting) : KeepsLasting (fun s => s.act fun b => b.onRunning t ty (f b)) :=
  .ofAct fun b => Block.onRunning_kept b t ty _ (hf b) (.refl _)

theorem KeepsLasting.onMode {t : TaskRef} {ty mode : Nat} {f : Block → Graph → TaskCtx → Block}
    (hf : ∀ b g c, Kept b.lasting (f b g c).lasting) : KeepsLasting (fun s => s.act fun b => b.onMode t ty mode (f b)) :=
  .ofAct fun b => Block.onMode_kept b t ty mode _ (hf b) (.refl _)

theorem KeepsLasting.onColl {t : TaskRef} {ops : List Nat} {f : Block → Graph → TaskCtx → CollState → Plan → Block}
    (hf : ∀ b g c x p, Kept b.lasting (f b g c x p).lasting) : KeepsLasting (fun s => s.act fun b => b.onColl t ops (f b)) :=
  .ofAct fun b => Block.onColl_kept b t ops _ (hf b) (.refl _)

theorem KeepsLasting.receive {h : HalfId} {p : Packet} {cls : Nat} {ops : List Nat} {f : Block → Block}
    (hf : ∀ b, Kept b.lasting (f b).lasting) : KeepsLasting (fun s => s.act fun b => b.receive h p cls ops f) :=
  .ofAct fun b => Block.receive_kept b h p cls ops _ (fun c hc => hc.trans (hf c)) (.refl _)

theorem KeepsLasting.command {m : Envelope} {roles : Block → List Nat} {needed : Block → Nat} {f : Block → Actor → Block → Answer}
    (hf : ∀ c a b, Kept b.lasting (f c a b).block.lasting) :
    KeepsLasting (fun s => s.act fun b => b.command m (roles b) (needed b) (f b)) :=
  .ofAct fun b => Block.command_kept b m _ _ _ (fun a c hc => hc.trans (hf b a c)) (.refl _)

theorem KeepsLasting.byPath {p : Path} {roles : Block → List Nat} {needed : Block → Nat} {f : Block → Actor → Block → Answer}
    (hf : ∀ c a b, Kept b.lasting (f c a b).block.lasting) :
    KeepsLasting (fun s => s.act fun b => b.byPath p (roles b) (needed b) (f b)) :=
  .ofAct fun b => Block.byPath_kept b p _ _ _ (fun a c hc => hc.trans (hf b a c)) (.refl _)

theorem KeepsLasting.recovery {h : HalfId} {p : Packet} {kind : Nat} {f : Block → List Byte → Block}
    (hf : ∀ b l, Kept b.lasting (f b l).lasting) : KeepsLasting (fun s => s.act fun b => b.recovery h p kind f) :=
  .ofAct fun b => Block.recovery_kept b h p kind _ (fun c l hc => hc.trans (hf c l)) (.refl _)

theorem KeepsLasting.runGather {t : TaskRef} {mode : Nat} {body : Graph → TaskCtx → Access → List Int → Block → Block}
    (hf : ∀ g c a is b, Kept b.lasting (body g c a is b).lasting) : KeepsLasting (fun s => s.act fun b => b.runGather t mode body) :=
  .ofAct fun b => Block.runGather_kept b t mode _ (fun g c a is z hz => hz.trans (hf g c a is z)) (.refl _)

theorem execGraphAdmit_kept (h : HalfId) (src : SourceId) (gid : Fin 4096) : KeepsLasting (execGraphAdmit h src gid) := .ofAct fun b => by
  have hhead : Kept b.lasting (b.checkHead h src).lasting := Block.checkHead_kept b h src (.refl _)
  dsimp only
  split
  · exact hhead
  · next w _ => exact Kept.ite (Block.checkHead_kept _ h src (Block.admitHead_kept _ h w gid.val hhead)) hhead

theorem execGraphSubmit_kept (h : HalfId) (p : Packet) : KeepsLasting (execGraphSubmit h p) := .receive fun b =>
  Kept.ite (by simp) (Kept.getD (Block.submit_kept _ _ _ _ _ _ _ _ _ (.refl _)) (.refl _))

theorem execToken_kept (t : TaskRef) : KeepsLasting (execToken t) := .ofAct fun b => by simp

theorem execCancellation_kept (t : TaskRef) (origin : Nat) : KeepsLasting (execCancellation t origin) := .ofAct fun b => by simp

theorem execFnbTideReached_kept (t : TaskRef) : KeepsLasting (execFnbTideReached t) := .ofAct fun b => by simp

theorem execAgeLimitExpiry_kept (t : TaskRef) : KeepsLasting (execAgeLimitExpiry t) := .ofAct fun b => by
  dsimp only
  (repeat' split) <;> simp

theorem execTaskEnd_kept (t : TaskRef) (stalls : List StallCount) : KeepsLasting (execTaskEnd t stalls) := .ofAct fun b => by
  (repeat' split) <;> simp

theorem execRecordWrite_kept (t : TaskRef) : KeepsLasting (execRecordWrite t) := .ofAct fun b => by simp

theorem execGraphHeadWrite_kept (h : HalfId) (g : Fin 4096) (head : Word) :
    KeepsLasting (execGraphHeadWrite h g head) := .ofAct fun b => by simp

theorem execSubGraphLaunch_kept (t : TaskRef) : KeepsLasting (execSubGraphLaunch t) := .onRunning fun b g c =>
  Kept.ite (.refl _) (Kept.getD (Block.submit_kept _ _ _ _ _ _ _ _ _ (by simp)) (.refl _))

theorem execSubGraphDone_kept (t : TaskRef) : KeepsLasting (execSubGraphDone t) := .ofAct fun b => by simp

theorem execTideWait_kept (t : TaskRef) : KeepsLasting (execTideWait t) := .ofAct fun b => by simp

theorem execTagGrant_kept (h : HalfId) (dest : Destination) : KeepsLasting (execTagGrant h dest) := .ofAct fun b => by
  dsimp only
  (repeat' split) <;> simp

theorem execHomeRequest_kept (h : HalfId) (r : LineRequest) : KeepsLasting (execHomeRequest h r) := .ofAct fun b => by
  dsimp only
  (repeat' split) <;> simp

theorem execMemoryAdd_kept (h : HalfId) (r : AddRequest) : KeepsLasting (execMemoryAdd h r) := .ofAct fun b => by
  (repeat' split) <;> simp

theorem execRequestResponse_kept (h : HalfId) (tag status : Nat) (data : List Byte) :
    KeepsLasting (execRequestResponse h tag status data) := .ofAct fun b => by
  (repeat' split) <;> simp

theorem execFarDeadlineExpiry_kept (h : HalfId) (tag : Nat) : KeepsLasting (execFarDeadlineExpiry h tag) := .ofAct fun b => by
  dsimp only
  (repeat' split) <;> simp

theorem execMatrix_kept (t : TaskRef) (parity : Option BankUpset) : KeepsLasting (execMatrix t parity) := .onRunning fun b g c => by
  dsimp only
  (repeat' split) <;> simp

theorem execDbgHalt_kept (p : Path) (core : Fin 80) : KeepsLasting (execDbgHalt p core) := .ofAct fun b => by simp

theorem execDbgHaltReached_kept (core : Fin 80) (at_ : HaltPoint) : KeepsLasting (execDbgHaltReached core at_) := .ofAct fun b => by simp

theorem execDbgResume_kept (p : Path) (core : Fin 80) : KeepsLasting (execDbgResume p core) := .ofAct fun b => by simp

/-- An instruction of the vector engines. -/
theorem KeepsLasting.vecOp {n op : Nat} {f : VecFields} : KeepsLasting (fun s => s.act fun b => b.vecOp n op f) :=
  .ofAct fun b => Block.vecOp_kept b n op f (.refl _)

theorem execVectorProgram_kept (t : TaskRef) : KeepsLasting (execVectorProgram t) := .onMode fun b g c => by
  dsimp only
  split
  · (repeat' split) <;> simp
  · have hrun : Kept b.lasting ((b.touch t g c).vecRunAll c c.cores).1.lasting := by simp
    exact Kept.ite (Block.onMode_kept _ t _ _ _ (fun g c => by simp [hrun]) hrun) hrun

theorem execRoute_kept (t : TaskRef) : KeepsLasting (execRoute t) := .onMode fun b g c => by
  dsimp only
  (repeat' split) <;> simp

theorem execCombine_kept (t : TaskRef) : KeepsLasting (execCombine t) := .onMode fun b g c => by
  dsimp only
  (repeat' split) <;> simp

theorem execKvWrite_kept (t : TaskRef) : KeepsLasting (execKvWrite t) := .onMode fun b g c => by
  dsimp only
  (repeat' split) <;> simp

theorem execAttnForward_kept (t : TaskRef) (parity : Option BankUpset) : KeepsLasting (execAttnForward t parity) := .ofAct fun b => by simp

theorem execAttnForwardPartial_kept (t : TaskRef) (parity : Option BankUpset) :
    KeepsLasting (execAttnForwardPartial t parity) := .ofAct fun b => by simp

theorem execAttnCombine_kept (t : TaskRef) : KeepsLasting (execAttnCombine t) := .ofAct fun b => by simp

theorem execAttnBackwardDkDv_kept (t : TaskRef) (parity : Option BankUpset) :
    KeepsLasting (execAttnBackwardDkDv t parity) := .ofAct fun b => by simp

theorem execAttnBackwardDq_kept (t : TaskRef) (parity : Option BankUpset) :
    KeepsLasting (execAttnBackwardDq t parity) := .ofAct fun b => by simp

theorem execStepRepeatReadmit_kept (h : HalfId) (k : Fin 16) : KeepsLasting (execStepRepeatReadmit h k) := .ofAct fun b => by
  dsimp only
  (repeat' split) <;> simp

theorem execUpdateGateCheck_kept (t : TaskRef) : KeepsLasting (execUpdateGateCheck t) := .onMode fun b g c => by
  dsimp only
  (repeat' split) <;> simp

theorem execUpdateGateCheckpoint_kept (t : TaskRef) : KeepsLasting (execUpdateGateCheckpoint t) := .ofAct fun b => by simp

theorem execAllReduce_kept (t : TaskRef) : KeepsLasting (execAllReduce t) := .ofAct fun b => by simp

theorem execReduceScatter_kept (t : TaskRef) : KeepsLasting (execReduceScatter t) := .ofAct fun b => by simp

theorem execAllGather_kept (t : TaskRef) : KeepsLasting (execAllGather t) := .ofAct fun b => by simp

theorem execVerdictReduction_kept (t : TaskRef) : KeepsLasting (execVerdictReduction t) := .ofAct fun b => by simp

theorem execEbb_kept (h : HalfId) (p : Packet) : KeepsLasting (execEbb h p) := .receive fun b => by
  (repeat' split) <;> simp

theorem execFlood_kept (h : HalfId) (p : Packet) : KeepsLasting (execFlood h p) := .receive fun b => by
  (repeat' split) <;> simp

theorem execSendToPeer_kept (t : TaskRef) : KeepsLasting (execSendToPeer t) := .ofAct fun b => by simp

theorem execReceiveFromPeer_kept (t : TaskRef) : KeepsLasting (execReceiveFromPeer t) := .ofAct fun b => by simp

theorem execSendBlock_kept (h : HalfId) (p : Packet) : KeepsLasting (execSendBlock h p) := .receive fun b => by
  split
  · simp
  · refine Block.onColl_kept b _ _ _ (fun g c x q => Kept.ite (by simp) ?_) (.refl _)
    simp

theorem execCollEnd_kept (h : HalfId) (p : Packet) : KeepsLasting (execCollEnd h p) := .receive fun b => by
  (repeat' split) <;> simp

theorem execExpertDispatch_kept (t : TaskRef) : KeepsLasting (execExpertDispatch t) := .onMode fun b g c => by
  (repeat' split) <;> simp

theorem execExpertReturn_kept (t : TaskRef) : KeepsLasting (execExpertReturn t) := .onMode fun b g c => by
  refine Kept.ite (by simp) (Block.onColl_kept b t _ _ (fun _ _ _ p => ?_) (.refl _))
  split <;> simp

theorem execExpertReceive_kept (t : TaskRef) : KeepsLasting (execExpertReceive t) := .ofAct fun b => by simp

theorem execExpertReturnReceive_kept (t : TaskRef) : KeepsLasting (execExpertReturnReceive t) := .onMode fun b g c => by
  dsimp only
  (repeat' split) <;> simp

theorem execTokenRow_kept (h : HalfId) (p : Packet) : KeepsLasting (execTokenRow h p) := .receive fun b => by
  (repeat' split) <;> simp

theorem execEndRecord_kept (h : HalfId) (p : Packet) : KeepsLasting (execEndRecord h p) := .receive fun b => by
  refine Kept.ite (.refl _) ?_
  split
  · simp
  · refine Block.onColl_kept b _ _ _ (fun g c x q => ?_) (.refl _)
    dsimp only
    split <;> simp

theorem execCollReady_kept (h : HalfId) (p : Packet) : KeepsLasting (execCollReady h p) := .receive fun b => by
  split
  · simp
  · exact Block.peerGo_kept _ _ (Block.collGo_kept _ _ (Block.takeReady_kept _ _ _ (.refl _)))

theorem execTravelReady_kept (h : HalfId) (p : Packet) : KeepsLasting (execTravelReady h p) := .receive fun b => by
  (repeat' split) <;> simp

theorem execCredit_kept (h : HalfId) (p : Packet) : KeepsLasting (execCredit h p) := .receive fun b => by
  split
  · simp
  · exact Block.onColl_kept b _ _ _ (fun g c x q => Kept.ite (by simp) (by simp)) (.refl _)

theorem execCollectiveDeadline_kept (t : TaskRef) : KeepsLasting (execCollectiveDeadline t) := .onColl fun b g c x p => by
  dsimp only
  (repeat' split) <;> simp

theorem execLateNotice_kept (h : HalfId) (p : Packet) : KeepsLasting (execLateNotice h p) := .receive fun b => by
  split
  · simp
  · exact Block.onColl_kept b _ _ _ (fun g c x q => by simp) (.refl _)

theorem execLateWaitExpiry_kept (t : TaskRef) : KeepsLasting (execLateWaitExpiry t) := .ofAct fun b => by simp

theorem execLenientWaitExpiry_kept (t : TaskRef) : KeepsLasting (execLenientWaitExpiry t) := .ofAct fun b => by simp

theorem execResolveExpiry_kept (t : TaskRef) : KeepsLasting (execResolveExpiry t) := .ofAct fun b => by simp

theorem execCopy_kept (t : TaskRef) : KeepsLasting (execCopy t) := .ofAct fun b => by simp

theorem execMap_kept (t : TaskRef) : KeepsLasting (execMap t) := .onMode fun b g c => by simp

theorem execUnmap_kept (t : TaskRef) : KeepsLasting (execUnmap t) := .onMode fun b g c => by simp

theorem execFill_kept (t : TaskRef) : KeepsLasting (execFill t) := .onMode fun b g c => by
  dsimp only
  (repeat' split) <;> simp

theorem execDrop_kept (t : TaskRef) : KeepsLasting (execDrop t) := .onMode fun b g c => by
  (repeat' split) <;> simp

theorem execQuery_kept (t : TaskRef) : KeepsLasting (execQuery t) := .onMode fun b g c => by
  dsimp only
  (repeat' split) <;> simp

theorem execSetPin_kept (t : TaskRef) : KeepsLasting (execSetPin t) := .onMode fun b g c => by
  (repeat' split) <;> simp

theorem execPublish_kept (t : TaskRef) : KeepsLasting (execPublish t) := .onMode fun b g c => by
  dsimp only
  (repeat' split) <;> simp

theorem execRetire_kept (t : TaskRef) : KeepsLasting (execRetire t) := .ofAct fun b => by simp

theorem execGather_kept (t : TaskRef) : KeepsLasting (execGather t) := .runGather fun g c a is b => by simp

theorem execScatter_kept (t : TaskRef) : KeepsLasting (execScatter t) := .runGather fun g c a is b => by simp

theorem execScatterAdd_kept (t : TaskRef) : KeepsLasting (execScatterAdd t) := .ofAct fun b => by simp

theorem execScatterMax_kept (t : TaskRef) : KeepsLasting (execScatterMax t) := .ofAct fun b => by simp

theorem execScatterMin_kept (t : TaskRef) : KeepsLasting (execScatterMin t) := .ofAct fun b => by simp

theorem execFarRead_kept (h : HalfId) (p : Packet) : KeepsLasting (execFarRead h p) := .receive fun b => by
  dsimp only
  (repeat' split) <;> simp

theorem execFarReserve_kept (h : HalfId) (p : Packet) : KeepsLasting (execFarReserve h p) := .receive fun b => by
  dsimp only
  (repeat' split) <;> simp

theorem execFarWrite_kept (h : HalfId) (p : Packet) : KeepsLasting (execFarWrite h p) := .receive fun b => by
  have hland := Block.landCells_kept (((b.window h).addrs (pkAddr p) p.payload.length).zip p.payload) (Kept.refl b.lasting)
  refine Kept.ite (by simp) (Kept.ite ?_ (by simp))
  split <;> next e => simpa [e] using hland

theorem execFarCommit_kept (h : HalfId) (p : Packet) : KeepsLasting (execFarCommit h p) := .ofAct fun b => by simp

theorem execFarAbort_kept (h : HalfId) (p : Packet) : KeepsLasting (execFarAbort h p) := .ofAct fun b => by simp

theorem execFarRetire_kept (h : HalfId) (p : Packet) : KeepsLasting (execFarRetire h p) := .ofAct fun b => by simp

theorem execFarQuery_kept (h : HalfId) (p : Packet) : KeepsLasting (execFarQuery h p) := .ofAct fun b => by simp

theorem execPendingReap_kept (h : HalfId) (job : Fin 4096) (object version : Nat) :
    KeepsLasting (execPendingReap h job object version) := .ofAct fun b => by
  (repeat' split) <;> simp

theorem execRevocationEnd_kept (h : HalfId) : KeepsLasting (execRevocationEnd h) := .ofAct fun b => by simp

theorem execRevocationDone_kept (h : HalfId) : KeepsLasting (execRevocationDone h) := .ofAct fun b => by simp

theorem execRevocationNotice_kept (h : HalfId) (p : Packet) : KeepsLasting (execRevocationNotice h p) := .ofAct fun b => by simp

theorem execBorrowerDrop_kept (h : HalfId) (lender : Nat) : KeepsLasting (execBorrowerDrop h lender) := .ofAct fun b => by
  dsimp only
  (repeat' split) <;> simp

theorem execReadRequest_kept (h : HalfId) (p : Packet) : KeepsLasting (execReadRequest h p) := .receive fun b => by
  refine Block.localPacket_kept b h p _ _ _ (fun c hc => ?_) (.refl _)
  split <;> simp [hc]

theorem execWriteRequest_kept (h : HalfId) (p : Packet) : KeepsLasting (execWriteRequest h p) := .receive fun b => by
  refine Block.localPacket_kept b h p _ _ _ (fun c hc => ?_) (.refl _)
  have hland := Block.landCells_kept ((p.payload.zip (List.range p.payload.length)).map (fun q => (pkAddr p + q.2, q.1))) hc
  split <;> next e => simpa [e] using hland

theorem execAdderRequest_kept (h : HalfId) (p : Packet) : KeepsLasting (execAdderRequest h p) := .receive fun b => by
  refine Block.localPacket_kept b h p _ _ _ (fun c hc => ?_) (.refl _)
  split
  · next e => simp [(Block.serve_kept c _ hc).2 _ _ e]
  · next e => simp [(Block.serve_kept c _ hc).1 _ _ e]

theorem execResponse_kept (h : HalfId) (p : Packet) : KeepsLasting (execResponse h p) := .receive fun b => by
  (repeat' split) <;> simp

theorem execConfigRequest_kept (dword : Fin 1024) (value : Option (BitVec 32)) :
    KeepsLasting (execConfigRequest dword value) := .ofAct fun b => by
  dsimp only
  (repeat' split) <;> simp

theorem execPcieLinkUp_kept (rate : LinkRate) (width : LinkWidth) (partnerFlit : Bool) :
    KeepsLasting (execPcieLinkUp rate width partnerFlit) := .ofAct fun b => by simp

theorem execPerst_kept : KeepsLasting execPerst := .ofAct fun b => by simp

theorem execHotReset_kept : KeepsLasting execHotReset := .ofAct fun b => by simp

theorem execLinkDown_kept : KeepsLasting execLinkDown := .ofAct fun b => by simp

theorem execFlr_kept : KeepsLasting execFlr := .ofAct fun b => by simp

theorem execPerstDeassertion_kept : KeepsLasting execPerstDeassertion := .ofAct fun b => by simp

theorem execBar2Read_kept (offset len : Nat) : KeepsLasting (execBar2Read offset len) := .ofAct fun b => by
  (repeat' split) <;> simp

theorem execBar2Write_kept (offset : Nat) (data : List Byte) (poisoned : Bool) :
    KeepsLasting (execBar2Write offset data poisoned) := .ofAct fun b => by
  refine Kept.ite (by simp) ?_
  split
  · simp
  · next a _ =>
    have hland := Block.landLines_kept b ((data.zip (List.range data.length)).map (fun p => (a + p.2, p.1))) (.refl _)
    split <;> next e => simpa [e] using hland

theorem execCqHeadWrite_kept (q : Fin 64) (head : BitVec 32) : KeepsLasting (execCqHeadWrite q head) := .ofAct fun b => by simp

theorem execCoalesceTimer_kept (q : Fin 64) : KeepsLasting (execCoalesceTimer q) := .ofAct fun b => by simp

theorem execSqDoorbell_kept (q : Fin 64) (tail : BitVec 32) (hostWrote : List (Nat × Byte)) :
    KeepsLasting (execSqDoorbell q tail hostWrote) := .ofAct fun b => by simp

theorem execSqFetch_kept (q : Fin 64) : KeepsLasting (execSqFetch q) := .ofAct fun b => by
  refine Kept.ite (.refl _) ?_
  dsimp only
  rw [Block.idleCheck_lasting]
  refine Kept.ite (Kept.getD (Block.entryDone_kept _ _ _ _ _ _ _ (by simp)) (by simp)) ?_
  split
  · exact Kept.getD (Block.entryDone_kept _ _ _ _ _ _ _ (by simp)) (by simp)
  · simp

theorem execSubmitGraph_kept (q : Fin 64) : KeepsLasting (execSubmitGraph q) := .ofAct fun b => by simp

theorem execNoOp_kept (q : Fin 64) : KeepsLasting (execNoOp q) := .ofAct fun b => by simp

theorem execQueuePairCreate_kept (q : Fin 64) (value : Word) : KeepsLasting (execQueuePairCreate q value) := .ofAct fun b => by simp

theorem execQueuePairDestroy_kept (q : Fin 64) : KeepsLasting (execQueuePairDestroy q) := .ofAct fun b => by simp

theorem execHostSignal_kept (t : TaskRef) : KeepsLasting (execHostSignal t) := .onRunning fun b g c => by
  refine Kept.ite (Kept.ite (.refl _) (by simp)) (Kept.ite (by simp) ?_)
  split
  · next e => simpa using Block.cqPush_kept _ _ _ _ (.refl _) _ e
  · simp

theorem execSlackEnter_kept (p : Path) : KeepsLasting (execSlackEnter p) := .byPath fun _ a b => by simp

theorem execSlackIdleTimer_kept : KeepsLasting execSlackIdleTimer := .ofAct fun b => by
  (repeat' split) <;> simp

theorem execSlackEntryDone_kept : KeepsLasting execSlackEntryDone := .ofAct fun b => by simp

theorem execSlackWake_kept (p : Path) : KeepsLasting (execSlackWake p) := .byPath fun _ a b => by simp

theorem execWakeReady_kept : KeepsLasting execWakeReady := .ofAct fun b => by simp

theorem execVinApplied_kept : KeepsLasting execVinApplied := .ofAct fun b => by simp

theorem execVinLoss_kept : KeepsLasting execVinLoss := .ofAct fun b => by simp

theorem execPowerGood_kept (s0 s1 s2 : StrapSample) : KeepsLasting (execPowerGood s0 s1 s2) := .ofAct fun b => by simp

theorem execZilsyBoot_kept : KeepsLasting execZilsyBoot := .ofAct fun b => by
  (repeat' split) <;> simp

theorem execImageSelect_kept : KeepsLasting execImageSelect := .ofAct fun b => by
  dsimp only
  (repeat' split) <;> simp

theorem execBayTrainingDone_kept (r : BayTraining) : KeepsLasting (execBayTrainingDone r) := .ofAct fun b => by simp

theorem execShelfTrainingDone_kept (r : ShelfTraining) : KeepsLasting (execShelfTrainingDone r) := .ofAct fun b => by simp

theorem execIsthmusTrainingDone_kept (faults : List WireFault) : KeepsLasting (execIsthmusTrainingDone faults) := .ofAct fun b => by simp

theorem execSelfTestDone_kept (failing : List (Fin 80)) : KeepsLasting (execSelfTestDone failing) := .ofAct fun b => by simp

theorem execReady_kept : KeepsLasting execReady := .ofAct fun b => by simp

theorem execNonce_kept (c : Channel) (value : Nat) : KeepsLasting (execNonce c value) := .ofAct fun b => by simp

theorem execNonceExpiry_kept (value : Nat) : KeepsLasting (execNonceExpiry value) := .ofAct fun b => by simp

theorem execReadLog_kept (m : Envelope) (seq : Nat) (count : Fin 256) : KeepsLasting (execReadLog m seq count) := .ofAct fun b => by simp

theorem execReadAudit_kept (m : Envelope) (seq : Nat) (count : Fin 256) :
    KeepsLasting (execReadAudit m seq count) := .ofAct fun b => by simp

theorem execPowerCap_kept (p : Path) (value : Word) : KeepsLasting (execPowerCap p value) := .byPath fun _ a b => by simp

theorem execResetModule_kept (m : Envelope) (force : Bool) : KeepsLasting (execResetModule m force) := .ofAct fun b => by
  refine Kept.ite (.refl _) ?_
  extract_lets go b1
  have hb1 : Kept b.lasting b1.lasting := by
    refine Block.command_kept b m _ _ _ (fun a c hc => ?_) (.refl _)
    split
    · simp [hc]
    · exact Block.auditedAnswer_kept c a _ _ (fun _ hd => hd) hc
  split
  · exact hb1
  · exact Kept.ite (Block.restart_kept _ hb1) hb1

theorem execConfigWriteDone_kept (verified : Bool) : KeepsLasting (execConfigWriteDone verified) := .ofAct fun b => by
  dsimp only
  (repeat' split) <;> simp

theorem execCommit_kept (m : Envelope) : KeepsLasting (execCommit m) := .command fun _ a b => by
  dsimp only
  (repeat' split) <;> simp

theorem execStageBegin_kept (m : Envelope) (object length : Nat) : KeepsLasting (execStageBegin m object length) := .command fun _ a b => by
  dsimp only
  (repeat' split) <;> simp

theorem execStageData_kept (c : Channel) (offset : Nat) (data : List Byte) :
    KeepsLasting (execStageData c offset data) := .ofAct fun b => by
  dsimp only
  (repeat' split) <;> simp

theorem execStageApply_kept (m : Envelope) (o : StagedObject) : KeepsLasting (execStageApply m o) := .command fun c a b => by
  split
  · simp
  · split <;> simp

theorem execStagingIdle_kept : KeepsLasting execStagingIdle := .ofAct fun b => by simp

theorem execKeyEnrol_kept (m : Envelope) (k : KeyBody) : KeepsLasting (execKeyEnrol m k) := .command fun c a b => by
  refine Kept.ite_answer (by simp) ?_
  exact Block.auditedAnswer_kept b a _ _ (fun d hd => Kept.enrol _ hd) (.refl _)

theorem execKeyRevoke_kept (m : Envelope) (keyId : Nat) : KeepsLasting (execKeyRevoke m keyId) := .command fun c a b => by
  split
  · simp
  · exact Block.auditedAnswer_kept b a _ _ (fun d hd => Block.revokeKey_kept keyId hd) (.refl _)

theorem execRepairClear_kept (m : Envelope) (channels : List (Fin 320)) :
    KeepsLasting (execRepairClear m channels) := .command fun _ a b => by simp

theorem execDiag_kept (m : Envelope) (mode : Nat) : KeepsLasting (execDiag m mode) := .command fun _ a b => by
  dsimp only
  (repeat' split) <;> simp

theorem execZilsyRestart_kept : KeepsLasting execZilsyRestart := .ofAct fun b => by
  dsimp only
  (repeat' split) <;> simp

theorem execLogMergeFlush_kept : KeepsLasting execLogMergeFlush := .ofAct fun b => by simp

theorem execReadyReport_kept (h : HalfId) (p : Packet) : KeepsLasting (execReadyReport h p) := .ofAct fun b => by simp

theorem execCensusDeadline_kept : KeepsLasting execCensusDeadline := .ofAct fun b => by
  (repeat' split) <;> simp

theorem execCensusResult_kept (h : HalfId) (p : Packet) : KeepsLasting (execCensusResult h p) := .ofAct fun b => by simp

theorem execPortTrainingDone_kept (h : HalfId) (port : Fin 9) (passing : List (Fin 5)) (asym : Int) :
    KeepsLasting (execPortTrainingDone h port passing asym) := .ofAct fun b => by simp

theorem execTrainRetry_kept (h : HalfId) (port : Fin 9) : KeepsLasting (execTrainRetry h port) := .ofAct fun b => by simp

theorem execPortRetrainDone_kept (h : HalfId) (port : Fin 9) (passing : List (Fin 5)) (asym : Int) :
    KeepsLasting (execPortRetrainDone h port passing asym) := .ofAct fun b => by simp

theorem execIdentity_kept (h : HalfId) (port : Fin 9) (p : Packet) : KeepsLasting (execIdentity h port p) := .ofAct fun b => by simp

theorem execLinkGroup_kept (h : HalfId) (x : Fin 10) (g : LinkGroup) : KeepsLasting (execLinkGroup h x g) := .ofAct fun b => by simp

theorem execAckTimeout_kept (h : HalfId) (x : Fin 10) : KeepsLasting (execAckTimeout h x) := .ofAct fun b => by
  (repeat' split) <;> simp

theorem execNakLimit_kept (h : HalfId) (port : Fin 9) : KeepsLasting (execNakLimit h port) := .ofAct fun b => by simp

theorem execLaneClockLoss_kept (h : HalfId) (port : Fin 9) (_lane : Fin 5) :
    KeepsLasting (execLaneClockLoss h port _lane) := .ofAct fun b => by simp

theorem execHopTimeout_kept (h : HalfId) (x : Fin 10) : KeepsLasting (execHopTimeout h x) := .ofAct fun b => by simp

theorem execRouteHoldExpiry_kept (h : HalfId) (dest : Fin 16384) : KeepsLasting (execRouteHoldExpiry h dest) := .ofAct fun b => by
  dsimp only
  (repeat' split) <;> simp

theorem execPacketForward_kept (h : HalfId) (p : Packet) : KeepsLasting (execPacketForward h p) := .ofAct fun b => by simp

theorem execContextOpen_kept (t : TaskRef) : KeepsLasting (execContextOpen t) := .ofAct fun b => by simp

theorem execContextClose_kept (t : TaskRef) : KeepsLasting (execContextClose t) := .onRunning fun b g c => by
  dsimp only
  (repeat' split) <;> simp

theorem execDecode_kept (t : TaskRef) : KeepsLasting (execDecode t) := .onRunning fun b g c => by
  dsimp only
  (repeat' split) <;> simp

theorem execFrameWatchdog_kept (t : TaskRef) (picture rowsWritten : Nat) :
    KeepsLasting (execFrameWatchdog t picture rowsWritten) := .ofAct fun b => by simp

theorem execEncode_kept (t : TaskRef) : KeepsLasting (execEncode t) := .onRunning fun b g c => by
  dsimp only
  (repeat' split) <;> simp

theorem execImageDecode_kept (t : TaskRef) : KeepsLasting (execImageDecode t) := .onRunning fun b g c => by
  dsimp only
  (repeat' split) <;> simp

theorem execImageWatchdog_kept (t : TaskRef) (rowsWritten : Nat) : KeepsLasting (execImageWatchdog t rowsWritten) := .ofAct fun b => by simp

theorem execAudioDecode_kept (t : TaskRef) : KeepsLasting (execAudioDecode t) := .onRunning fun b g c => by
  dsimp only
  (repeat' split) <;> simp

theorem execTableLoad_kept (t : TaskRef) : KeepsLasting (execTableLoad t) := .onRunning fun b g c => by
  dsimp only
  (repeat' split) <;> simp

theorem execTokeniseAndPack_kept (t : TaskRef) : KeepsLasting (execTokeniseAndPack t) := .onRunning fun b g c => by
  dsimp only
  (repeat' split) <;> simp

theorem execCropAndResize_kept (t : TaskRef) : KeepsLasting (execCropAndResize t) := .onRunning fun b g c => by
  dsimp only
  (repeat' split) <;> simp

theorem execFuncDisable_kept (p : Path) (f : FuncId) : KeepsLasting (execFuncDisable p f) := .byPath fun _ a b => by simp

theorem execFuncEnable_kept (p : Path) (f : FuncId) : KeepsLasting (execFuncEnable p f) := .byPath fun _ a b => by simp

theorem execDrainDeadline_kept (f : FuncId) : KeepsLasting (execDrainDeadline f) := .ofAct fun b => by
  dsimp only
  (repeat' split) <;> simp

theorem execDrainComplete_kept (f : FuncId) : KeepsLasting (execDrainComplete f) := .ofAct fun b => by
  dsimp only
  (repeat' split) <;> simp

theorem execJobSlotBind_kept (p : Path) (k : Fin 16) (job : Fin 4096) (tables : List PageRow) :
    KeepsLasting (execJobSlotBind p k job tables) := .byPath fun _ a b => by simp

theorem execJobSlotDisable_kept (p : Path) (k : Fin 16) : KeepsLasting (execJobSlotDisable p k) := .byPath fun _ a b => by simp

theorem execStallClear_kept (p : Path) (h : HalfId) (value : Word) : KeepsLasting (execStallClear p h value) := .ofAct fun b => by simp

theorem execKvInval_kept (p : Path) (h : HalfId) (k : Fin 16) : KeepsLasting (execKvInval p h k) := .ofAct fun b => by simp

theorem execTideExchange_kept (h : HalfId) : KeepsLasting (execTideExchange h) := .ofAct fun b => by simp

theorem execSync_kept (h : HalfId) (x : Fin 10) (t1 : Nat) : KeepsLasting (execSync h x t1) := .ofAct fun b => by simp

theorem execEcho_kept (h : HalfId) (x : Fin 10) (t1 t2 t3 : Nat) (locked : Bool) (depth : Nat) :
    KeepsLasting (execEcho h x t1 t2 t3 locked depth) := .ofAct fun b => by
  dsimp only
  (repeat' split) <;> simp

theorem execParentSwitch_kept (h : HalfId) : KeepsLasting (execParentSwitch h) := .ofAct fun b => by
  (repeat' split) <;> simp

theorem execHoldoverExpiry_kept (h : HalfId) : KeepsLasting (execHoldoverExpiry h) := .ofAct fun b => by
  (repeat' split) <;> simp

theorem execClk10mLock_kept (h : HalfId) : KeepsLasting (execClk10mLock h) := .ofAct fun b => by simp

theorem execPpsEdge_kept (h : HalfId) : KeepsLasting (execPpsEdge h) := .ofAct fun b => by simp

theorem execPtpTime_kept (h : HalfId) (ns : Nat) : KeepsLasting (execPtpTime h ns) := .ofAct fun b => by simp

theorem execReferenceLoss_kept (h : HalfId) : KeepsLasting (execReferenceLoss h) := .ofAct fun b => by simp

theorem execRefEdgeTimeout_kept : KeepsLasting execRefEdgeTimeout := .ofAct fun b => by simp

theorem execLeaseClaim_kept : KeepsLasting execLeaseClaim := .ofAct fun b => by simp

theorem execLease_kept (h : HalfId) (p : Packet) : KeepsLasting (execLease h p) := .ofAct fun b => by simp

theorem execLeaseRenewal_kept : KeepsLasting execLeaseRenewal := .ofAct fun b => by simp

theorem execLeaseLapse_kept : KeepsLasting execLeaseLapse := .ofAct fun b => by simp

theorem execHeartbeatSend_kept : KeepsLasting execHeartbeatSend := .ofAct fun b => by
  dsimp only
  (repeat' split) <;> simp

theorem execHeartbeat_kept (h : HalfId) (p : Packet) : KeepsLasting (execHeartbeat h p) := .ofAct fun b => by simp

theorem execTrayHeartbeat_kept (h : HalfId) (p : Packet) : KeepsLasting (execTrayHeartbeat h p) := .receive fun b => by
  dsimp only
  (repeat' split) <;> simp

theorem execHeartbeatTimeout_kept (tray : Fin 2048) : KeepsLasting (execHeartbeatTimeout tray) := .ofAct fun b => by simp

theorem execJournalAppend_kept (h : HalfId) (p : Packet) : KeepsLasting (execJournalAppend h p) := .ofAct fun b => by
  dsimp only
  (repeat' split) <;> simp

theorem execJournalAcknowledgement_kept (h : HalfId) (p : Packet) : KeepsLasting (execJournalAcknowledgement h p) := .receive fun b => by
  dsimp only
  (repeat' split) <;> simp

theorem execVerdictQuery_kept (h : HalfId) (p : Packet) : KeepsLasting (execVerdictQuery h p) := .receive fun b => by
  dsimp only
  (repeat' split) <;> simp

theorem execVerdictAnswer_kept (h : HalfId) (p : Packet) : KeepsLasting (execVerdictAnswer h p) := .receive fun b => by simp

theorem execCheckpointReport_kept (h : HalfId) (p : Packet) : KeepsLasting (execCheckpointReport h p) := .ofAct fun b => by simp

theorem execLateReport_kept (h : HalfId) (p : Packet) : KeepsLasting (execLateReport h p) := .ofAct fun b => by simp

theorem execRevocationReport_kept (h : HalfId) (p : Packet) : KeepsLasting (execRevocationReport h p) := .ofAct fun b => by simp

theorem execRecoveryLost_kept (h : HalfId) (p : Packet) : KeepsLasting (execRecoveryLost h p) := .recovery fun b l => by simp

theorem execRecoveryAbort_kept (h : HalfId) (p : Packet) : KeepsLasting (execRecoveryAbort h p) := .recovery fun b l => by
  split <;> simp

theorem execRecoverySubst_kept (h : HalfId) (p : Packet) : KeepsLasting (execRecoverySubst h p) := .recovery fun b l => by
  dsimp only
  split <;> simp

theorem execRecoveryResume_kept (h : HalfId) (p : Packet) : KeepsLasting (execRecoveryResume h p) := .ofAct fun b => by
  dsimp only
  (repeat' split) <;> simp

theorem execNoUpPortTimeout_kept : KeepsLasting execNoUpPortTimeout := .ofAct fun b => by
  (repeat' split) <;> simp

theorem execMainRegister_kept (p : Path) (h : HalfId) (job : Fin 4096) (hostWrote : List (Nat × Byte)) :
    KeepsLasting (execMainRegister p h job hostWrote) := .ofAct fun b => by simp

theorem execMainRetire_kept (p : Path) (h : HalfId) (job : Fin 4096) : KeepsLasting (execMainRetire p h job) := .ofAct fun b => by simp

theorem execLendRevoke_kept (p : Path) (h : HalfId) : KeepsLasting (execLendRevoke p h) := .ofAct fun b => by simp

theorem execLendEnClear_kept (p : Path) (h : HalfId) (gib : Fin 256) :
    KeepsLasting (execLendEnClear p h gib) := .byPath fun _ a b => by simp

theorem execLendEnSet_kept (m : Envelope) (h : HalfId) (gib : Fin 256) :
    KeepsLasting (execLendEnSet m h gib) := .command fun _ a b => by simp

theorem execRefreshDue_kept (h : HalfId) (chan : Fin 128) (bank : Fin 16) :
    KeepsLasting (execRefreshDue h chan bank) := .ofAct fun b => by simp

theorem execRefreshBandRelax_kept (h : HalfId) : KeepsLasting (execRefreshBandRelax h) := .ofAct fun b => by
  dsimp only
  (repeat' split) <;> simp

theorem execScrubRead_kept (h : HalfId) (upsets : List (Fin 64 × Upset)) : KeepsLasting (execScrubRead h upsets) := .ofAct fun b => by simp

theorem execTgWriteRead_kept (p : Path) (h : HalfId) (ch : Fin 160) : KeepsLasting (execTgWriteRead p h ch) := .byPath fun c a b => by simp

theorem execTgReadSweep_kept (p : Path) (h : HalfId) (ch : Fin 160) : KeepsLasting (execTgReadSweep p h ch) := .byPath fun c a b => by simp

theorem execTgStop_kept (p : Path) (h : HalfId) (ch : Fin 160) : KeepsLasting (execTgStop p h ch) := .byPath fun c a b => by simp

theorem execTgDone_kept (h : HalfId) (ch : Fin 160) (r : TgResult) : KeepsLasting (execTgDone h ch r) := .ofAct fun b => by
  refine Kept.ite (.refl _) ?_
  extract_lets x mode fails b1 b2
  have hb1 : Kept b.lasting b1.lasting := Kept.ite (Block.kept_foldl _ (fun c i hc => Block.store_kept _ _ hc) _ (.refl _)) (by simp)
  have hb2 : Kept b.lasting b2.lasting := by simpa [b2] using hb1
  clear_value b2 fails
  cases fails with
  | nil => exact hb2
  | cons w _ => simpa using hb2

theorem execBatchAssemble_kept (t : TaskRef) : KeepsLasting (execBatchAssemble t) := .onRunning fun b g c => by
  dsimp only
  (repeat' split) <;> simp

theorem execSampleDone_kept (t : TaskRef) : KeepsLasting (execSampleDone t) := .onRunning fun b g c => by
  dsimp only
  split
  · exact .refl _
  · refine Kept.ite (.refl _) ?_
    split
    · simp
    · simp
    · split
      · exact .refl _
      · split
        · simp
        · next r e =>
          have hr : Kept b.lasting r.block.lasting := Block.tryDomain_kept e (by simp)
          split
          · simp [hr]
          · simp [hr]
          · simp [hr]
          · split <;> simp [hr]

theorem execResize_kept (t : TaskRef) : KeepsLasting (execResize t) := .ofAct fun b => by simp

theorem execFlip_kept (t : TaskRef) : KeepsLasting (execFlip t) := .ofAct fun b => by simp

theorem execJitter_kept (t : TaskRef) : KeepsLasting (execJitter t) := .ofAct fun b => by simp

theorem execNorm_kept (t : TaskRef) : KeepsLasting (execNorm t) := .ofAct fun b => by simp

theorem execGain_kept (t : TaskRef) : KeepsLasting (execGain t) := .ofAct fun b => by simp

theorem execFmask_kept (t : TaskRef) : KeepsLasting (execFmask t) := .ofAct fun b => by simp

theorem execTmask_kept (t : TaskRef) : KeepsLasting (execTmask t) := .ofAct fun b => by simp

theorem execConvForward_kept (t : TaskRef) (parity : Option BankUpset) : KeepsLasting (execConvForward t parity) := .ofAct fun b => by simp

theorem execConvBackwardData_kept (t : TaskRef) (parity : Option BankUpset) :
    KeepsLasting (execConvBackwardData t parity) := .ofAct fun b => by simp

theorem execConvBackwardFilter_kept (t : TaskRef) (parity : Option BankUpset) :
    KeepsLasting (execConvBackwardFilter t parity) := .ofAct fun b => by simp

theorem execRowsReady_kept (t : TaskRef) (rows : Nat) : KeepsLasting (execRowsReady t rows) := .onRunning fun b g c => by
  dsimp only
  (repeat' split) <;> simp

theorem execBoxDecode_kept (t : TaskRef) : KeepsLasting (execBoxDecode t) := .ofAct fun b => by simp

theorem execNms_kept (t : TaskRef) : KeepsLasting (execNms t) := .onMode fun b g c => by
  dsimp only
  (repeat' split) <;> simp

theorem execTaskFire_kept (t : TaskRef) (cores : List (Fin 40)) (upset : Upset) :
    KeepsLasting (execTaskFire t cores upset) := .ofAct fun b => by
  dsimp only
  (repeat' split) <;> simp

theorem execPowerWindow_kept (w : PowerSample) : KeepsLasting (execPowerWindow w) := .ofAct fun b => by simp

theorem execMeterCorrection_kept (m : MeterSample) : KeepsLasting (execMeterCorrection m) := .ofAct fun b => by simp

theorem execPowerHint_kept (t : TaskRef) : KeepsLasting (execPowerHint t) := .ofAct fun b => by simp

theorem execHintWindowOpen_kept : KeepsLasting execHintWindowOpen := .ofAct fun b => by simp

theorem execHintWindowClose_kept : KeepsLasting execHintWindowClose := .ofAct fun b => by simp

theorem execTjSample_kept (temps channels : List Int) (coolant : Option Int) :
    KeepsLasting (execTjSample temps channels coolant) := .ofAct fun b => by
  dsimp only
  (repeat' split) <;> simp

theorem execThermalRecoverStep_kept : KeepsLasting execThermalRecoverStep := .ofAct fun b => by
  dsimp only
  (repeat' split) <;> simp

theorem execMarginTrim_kept (h : HalfId) (above : Bool) : KeepsLasting (execMarginTrim h above) := .ofAct fun b => by
  refine Kept.ite (.refl _) ?_
  extract_lets lo x held y b1
  have hb1 : b1.lasting = b.lasting := by simp [b1]
  refine Kept.ite (.ofEq ((Block.setFlash_lasting b1 _ ?_ ?_).trans hb1)) (.ofEq hb1) <;> cases h <;> rfl

theorem execMarginAlarm_kept (h : HalfId) : KeepsLasting (execMarginAlarm h) := .ofAct fun b => by simp

theorem execRead_kept (m : Envelope) (addrs : List Nat) : KeepsLasting (execRead m addrs) := .ofAct fun b => by simp

theorem execRegisterWrite_kept (p : Path) (addr : Nat) (value : Word) : KeepsLasting (execRegisterWrite p addr value) := .ofAct fun b => by
  split
  · exact Kept.ite (Block.byPath_kept b _ _ _ _ (fun a c hc => by simp [hc]) (.refl _)) (.refl _)
  · exact Block.command_kept b _ _ _ _ (fun a c hc => by simp [hc]) (.refl _)

theorem execWrite_kept (m : Envelope) (addr : Nat) (value : Word) : KeepsLasting (execWrite m addr value) := .command fun _ a b => by simp

theorem execAttest_kept (m : Envelope) (verifier : Nat) : KeepsLasting (execAttest m verifier) := .ofAct fun b => by simp

theorem execLockstepMismatch_kept : KeepsLasting execLockstepMismatch := .ofAct fun b => by simp

/-- Every command keeps the lasting state (log entries 8, 9; R40, R437, R444). -/
theorem exec_kept : ∀ i : Instr, KeepsLasting (exec i)
  | .vinApplied => execVinApplied_kept
  | .powerGood _ _ _ => execPowerGood_kept _ _ _
  | .vinLoss => execVinLoss_kept
  | .zilsyBoot => execZilsyBoot_kept
  | .imageSelect => execImageSelect_kept
  | .bayTrainingDone _ => execBayTrainingDone_kept _
  | .shelfTrainingDone _ => execShelfTrainingDone_kept _
  | .isthmusTrainingDone _ => execIsthmusTrainingDone_kept _
  | .selfTestDone _ => execSelfTestDone_kept _
  | .ready => execReady_kept
  | .configRequest _ _ => execConfigRequest_kept _ _
  | .pcieLinkUp _ _ _ => execPcieLinkUp_kept _ _ _
  | .perst => execPerst_kept
  | .hotReset => execHotReset_kept
  | .linkDown => execLinkDown_kept
  | .flr => execFlr_kept
  | .bar2Read _ _ => execBar2Read_kept _ _
  | .bar2Write _ _ _ => execBar2Write_kept _ _ _
  | .registerWrite _ _ _ => execRegisterWrite_kept _ _ _
  | .queuePairCreate _ _ => execQueuePairCreate_kept _ _
  | .queuePairDestroy _ => execQueuePairDestroy_kept _
  | .sqDoorbell _ _ _ => execSqDoorbell_kept _ _ _
  | .sqFetch _ => execSqFetch_kept _
  | .submitGraph _ => execSubmitGraph_kept _
  | .noOp _ => execNoOp_kept _
  | .cqHeadWrite _ _ => execCqHeadWrite_kept _ _
  | .graphHeadWrite _ _ _ => execGraphHeadWrite_kept _ _ _
  | .coalesceTimer _ => execCoalesceTimer_kept _
  | .graphSubmit _ _ => execGraphSubmit_kept _ _
  | .graphAdmit _ _ _ => execGraphAdmit_kept _ _ _
  | .token _ => execToken_kept _
  | .cancellation _ _ => execCancellation_kept _ _
  | .fnbTideReached _ => execFnbTideReached_kept _
  | .ageLimitExpiry _ => execAgeLimitExpiry_kept _
  | .taskFire _ _ _ => execTaskFire_kept _ _ _
  | .taskEnd _ _ => execTaskEnd_kept _ _
  | .recordWrite _ => execRecordWrite_kept _
  | .tagGrant _ _ => execTagGrant_kept _ _
  | .homeRequest _ _ => execHomeRequest_kept _ _
  | .memoryAdd _ _ => execMemoryAdd_kept _ _
  | .requestResponse _ _ _ _ => execRequestResponse_kept _ _ _ _
  | .farDeadlineExpiry _ _ => execFarDeadlineExpiry_kept _ _
  | .jobSlotBind _ _ _ _ => execJobSlotBind_kept _ _ _ _
  | .jobSlotDisable _ _ => execJobSlotDisable_kept _ _
  | .funcDisable _ _ => execFuncDisable_kept _ _
  | .funcEnable _ _ => execFuncEnable_kept _ _
  | .drainDeadline _ => execDrainDeadline_kept _
  | .drainComplete _ => execDrainComplete_kept _
  | .stallClear _ _ _ => execStallClear_kept _ _ _
  | .dbgHalt _ _ => execDbgHalt_kept _ _
  | .dbgHaltReached _ _ => execDbgHaltReached_kept _ _
  | .dbgResume _ _ => execDbgResume_kept _ _
  | .matrix _ _ => execMatrix_kept _ _
  | .vectorProgram _ => execVectorProgram_kept _
  | .ld _ _ => .vecOp
  | .st _ _ => .vecOp
  | .ldi _ _ => .vecOp
  | .iota _ _ => .vecOp
  | .add _ _ => .vecOp
  | .sub _ _ => .vecOp
  | .mul _ _ => .vecOp
  | .fma _ _ => .vecOp
  | .max _ _ => .vecOp
  | .min _ _ => .vecOp
  | .abs _ _ => .vecOp
  | .neg _ _ => .vecOp
  | .div _ _ => .vecOp
  | .sqrt _ _ => .vecOp
  | .cmp _ _ => .vecOp
  | .sel _ _ => .vecOp
  | .exp2 _ _ => .vecOp
  | .log2 _ _ => .vecOp
  | .rcp _ _ => .vecOp
  | .rsqrt _ _ => .vecOp
  | .tanh _ _ => .vecOp
  | .iadd _ _ => .vecOp
  | .isub _ _ => .vecOp
  | .imul _ _ => .vecOp
  | .imax _ _ => .vecOp
  | .imin _ _ => .vecOp
  | .shl _ _ => .vecOp
  | .shr _ _ => .vecOp
  | .sra _ _ => .vecOp
  | .and _ _ => .vecOp
  | .or _ _ => .vecOp
  | .xor _ _ => .vecOp
  | .not _ _ => .vecOp
  | .icmp _ _ => .vecOp
  | .cvt _ _ => .vecOp
  | .rsum _ _ => .vecOp
  | .rmax _ _ => .vecOp
  | .rmin _ _ => .vecOp
  | .rmean _ _ => .vecOp
  | .gap _ _ => .vecOp
  | .route _ => execRoute_kept _
  | .combine _ => execCombine_kept _
  | .kvWrite _ => execKvWrite_kept _
  | .attnForward _ _ => execAttnForward_kept _ _
  | .attnForwardPartial _ _ => execAttnForwardPartial_kept _ _
  | .attnCombine _ => execAttnCombine_kept _
  | .attnBackwardDkDv _ _ => execAttnBackwardDkDv_kept _ _
  | .attnBackwardDq _ _ => execAttnBackwardDq_kept _ _
  | .kvInval _ _ _ => execKvInval_kept _ _ _
  | .convForward _ _ => execConvForward_kept _ _
  | .convBackwardData _ _ => execConvBackwardData_kept _ _
  | .convBackwardFilter _ _ => execConvBackwardFilter_kept _ _
  | .boxDecode _ => execBoxDecode_kept _
  | .nms _ => execNms_kept _
  | .rowsReady _ _ => execRowsReady_kept _ _
  | .gather _ => execGather_kept _
  | .scatter _ => execScatter_kept _
  | .scatterAdd _ => execScatterAdd_kept _
  | .scatterMax _ => execScatterMax_kept _
  | .scatterMin _ => execScatterMin_kept _
  | .copy _ => execCopy_kept _
  | .map _ => execMap_kept _
  | .unmap _ => execUnmap_kept _
  | .fill _ => execFill_kept _
  | .drop _ => execDrop_kept _
  | .query _ => execQuery_kept _
  | .setPin _ => execSetPin_kept _
  | .publish _ => execPublish_kept _
  | .retire _ => execRetire_kept _
  | .pendingReap _ _ _ _ => execPendingReap_kept _ _ _ _
  | .mainRegister _ _ _ _ => execMainRegister_kept _ _ _ _
  | .mainRetire _ _ _ => execMainRetire_kept _ _ _
  | .lendRevoke _ _ => execLendRevoke_kept _ _
  | .lendEnClear _ _ _ => execLendEnClear_kept _ _ _
  | .revocationEnd _ => execRevocationEnd_kept _
  | .revocationDone _ => execRevocationDone_kept _
  | .refreshDue _ _ _ => execRefreshDue_kept _ _ _
  | .refreshBandRelax _ => execRefreshBandRelax_kept _
  | .scrubRead _ _ => execScrubRead_kept _ _
  | .tgWriteRead _ _ _ => execTgWriteRead_kept _ _ _
  | .tgReadSweep _ _ _ => execTgReadSweep_kept _ _ _
  | .tgStop _ _ _ => execTgStop_kept _ _ _
  | .tgDone _ _ _ => execTgDone_kept _ _ _
  | .contextOpen _ => execContextOpen_kept _
  | .contextClose _ => execContextClose_kept _
  | .decode _ => execDecode_kept _
  | .encode _ => execEncode_kept _
  | .frameWatchdog _ _ _ => execFrameWatchdog_kept _ _ _
  | .imageDecode _ => execImageDecode_kept _
  | .audioDecode _ => execAudioDecode_kept _
  | .tokeniseAndPack _ => execTokeniseAndPack_kept _
  | .tableLoad _ => execTableLoad_kept _
  | .cropAndResize _ => execCropAndResize_kept _
  | .batchAssemble _ => execBatchAssemble_kept _
  | .sampleDone _ => execSampleDone_kept _
  | .resize _ => execResize_kept _
  | .flip _ => execFlip_kept _
  | .jitter _ => execJitter_kept _
  | .norm _ => execNorm_kept _
  | .gain _ => execGain_kept _
  | .fmask _ => execFmask_kept _
  | .tmask _ => execTmask_kept _
  | .hostSignal _ => execHostSignal_kept _
  | .subGraphLaunch _ => execSubGraphLaunch_kept _
  | .subGraphDone _ => execSubGraphDone_kept _
  | .tideWait _ => execTideWait_kept _
  | .powerHint _ => execPowerHint_kept _
  | .hintWindowOpen => execHintWindowOpen_kept
  | .updateGateCheck _ => execUpdateGateCheck_kept _
  | .updateGateCheckpoint _ => execUpdateGateCheckpoint_kept _
  | .allReduce _ => execAllReduce_kept _
  | .reduceScatter _ => execReduceScatter_kept _
  | .allGather _ => execAllGather_kept _
  | .expertDispatch _ => execExpertDispatch_kept _
  | .expertReceive _ => execExpertReceive_kept _
  | .expertReturn _ => execExpertReturn_kept _
  | .expertReturnReceive _ => execExpertReturnReceive_kept _
  | .sendToPeer _ => execSendToPeer_kept _
  | .receiveFromPeer _ => execReceiveFromPeer_kept _
  | .verdictReduction _ => execVerdictReduction_kept _
  | .ebb _ _ => execEbb_kept _ _
  | .flood _ _ => execFlood_kept _ _
  | .stepRepeatReadmit _ _ => execStepRepeatReadmit_kept _ _
  | .collReady _ _ => execCollReady_kept _ _
  | .credit _ _ => execCredit_kept _ _
  | .collEnd _ _ => execCollEnd_kept _ _
  | .lateNotice _ _ => execLateNotice_kept _ _
  | .sendBlock _ _ => execSendBlock_kept _ _
  | .collectiveDeadline _ => execCollectiveDeadline_kept _
  | .lateWaitExpiry _ => execLateWaitExpiry_kept _
  | .lenientWaitExpiry _ => execLenientWaitExpiry_kept _
  | .resolveExpiry _ => execResolveExpiry_kept _
  | .tokenRow _ _ => execTokenRow_kept _ _
  | .endRecord _ _ => execEndRecord_kept _ _
  | .travelReady _ _ => execTravelReady_kept _ _
  | .readRequest _ _ => execReadRequest_kept _ _
  | .writeRequest _ _ => execWriteRequest_kept _ _
  | .adderRequest _ _ => execAdderRequest_kept _ _
  | .farRead _ _ => execFarRead_kept _ _
  | .farReserve _ _ => execFarReserve_kept _ _
  | .farWrite _ _ => execFarWrite_kept _ _
  | .farCommit _ _ => execFarCommit_kept _ _
  | .farAbort _ _ => execFarAbort_kept _ _
  | .farQuery _ _ => execFarQuery_kept _ _
  | .farRetire _ _ => execFarRetire_kept _ _
  | .response _ _ => execResponse_kept _ _
  | .linkGroup _ _ _ => execLinkGroup_kept _ _ _
  | .packetForward _ _ => execPacketForward_kept _ _
  | .ackTimeout _ _ => execAckTimeout_kept _ _
  | .nakLimit _ _ => execNakLimit_kept _ _
  | .laneClockLoss _ _ lane => execLaneClockLoss_kept _ _ lane
  | .portRetrainDone _ _ _ _ => execPortRetrainDone_kept _ _ _ _
  | .portTrainingDone _ _ _ _ => execPortTrainingDone_kept _ _ _ _
  | .trainRetry _ _ => execTrainRetry_kept _ _
  | .hopTimeout _ _ => execHopTimeout_kept _ _
  | .routeHoldExpiry _ _ => execRouteHoldExpiry_kept _ _
  | .identity _ _ _ => execIdentity_kept _ _ _
  | .tideExchange _ => execTideExchange_kept _
  | .sync _ _ _ => execSync_kept _ _ _
  | .echo _ _ _ _ _ _ _ => execEcho_kept _ _ _ _ _ _ _
  | .parentSwitch _ => execParentSwitch_kept _
  | .holdoverExpiry _ => execHoldoverExpiry_kept _
  | .ppsEdge _ => execPpsEdge_kept _
  | .clk10mLock _ => execClk10mLock_kept _
  | .ptpTime _ _ => execPtpTime_kept _ _
  | .referenceLoss _ => execReferenceLoss_kept _
  | .refEdgeTimeout => execRefEdgeTimeout_kept
  | .leaseClaim => execLeaseClaim_kept
  | .lease _ _ => execLease_kept _ _
  | .leaseRenewal => execLeaseRenewal_kept
  | .leaseLapse => execLeaseLapse_kept
  | .readyReport _ _ => execReadyReport_kept _ _
  | .censusDeadline => execCensusDeadline_kept
  | .censusResult _ _ => execCensusResult_kept _ _
  | .revocationNotice _ _ => execRevocationNotice_kept _ _
  | .heartbeatSend => execHeartbeatSend_kept
  | .heartbeat _ _ => execHeartbeat_kept _ _
  | .trayHeartbeat _ _ => execTrayHeartbeat_kept _ _
  | .heartbeatTimeout _ => execHeartbeatTimeout_kept _
  | .journalAppend _ _ => execJournalAppend_kept _ _
  | .journalAcknowledgement _ _ => execJournalAcknowledgement_kept _ _
  | .verdictQuery _ _ => execVerdictQuery_kept _ _
  | .verdictAnswer _ _ => execVerdictAnswer_kept _ _
  | .recoveryLost _ _ => execRecoveryLost_kept _ _
  | .recoveryAbort _ _ => execRecoveryAbort_kept _ _
  | .recoverySubst _ _ => execRecoverySubst_kept _ _
  | .recoveryResume _ _ => execRecoveryResume_kept _ _
  | .checkpointReport _ _ => execCheckpointReport_kept _ _
  | .lateReport _ _ => execLateReport_kept _ _
  | .revocationReport _ _ => execRevocationReport_kept _ _
  | .noUpPortTimeout => execNoUpPortTimeout_kept
  | .slackEnter _ => execSlackEnter_kept _
  | .slackIdleTimer => execSlackIdleTimer_kept
  | .slackEntryDone => execSlackEntryDone_kept
  | .slackWake _ => execSlackWake_kept _
  | .wakeReady => execWakeReady_kept
  | .nonce _ _ => execNonce_kept _ _
  | .nonceExpiry _ => execNonceExpiry_kept _
  | .read _ _ => execRead_kept _ _
  | .write _ _ _ => execWrite_kept _ _ _
  | .readLog _ _ _ => execReadLog_kept _ _ _
  | .readAudit _ _ _ => execReadAudit_kept _ _ _
  | .attest _ _ => execAttest_kept _ _
  | .powerCap _ _ => execPowerCap_kept _ _
  | .resetModule _ _ => execResetModule_kept _ _
  | .commit _ => execCommit_kept _
  | .configWriteDone _ => execConfigWriteDone_kept _
  | .stageBegin _ _ _ => execStageBegin_kept _ _ _
  | .stageData _ _ _ => execStageData_kept _ _ _
  | .stageApply _ _ => execStageApply_kept _ _
  | .stagingIdle => execStagingIdle_kept
  | .keyEnrol _ _ => execKeyEnrol_kept _ _
  | .keyRevoke _ _ => execKeyRevoke_kept _ _
  | .repairClear _ _ => execRepairClear_kept _ _
  | .diag _ _ => execDiag_kept _ _
  | .lockstepMismatch => execLockstepMismatch_kept
  | .zilsyRestart => execZilsyRestart_kept
  | .logMergeFlush => execLogMergeFlush_kept
  | .powerWindow _ => execPowerWindow_kept _
  | .meterCorrection _ => execMeterCorrection_kept _
  | .tjSample _ _ _ => execTjSample_kept _ _ _
  | .thermalRecoverStep => execThermalRecoverStep_kept
  | .marginTrim _ _ => execMarginTrim_kept _ _
  | .marginAlarm _ => execMarginAlarm_kept _
  | .lendEnSet _ _ _ => execLendEnSet_kept _ _ _
  | .borrowerDrop _ _ => execBorrowerDrop_kept _ _
  | .perstDeassertion => execPerstDeassertion_kept
  | .hintWindowClose => execHintWindowClose_kept
  | .imageWatchdog _ _ => execImageWatchdog_kept _ _

/-- Every step keeps the lasting state. -/
theorem step_kept {s t : State} (h : step s = .next t) : Kept s.block.lasting t.block.lasting := by
  unfold step at h
  split at h
  · cases h
    simp
  · next i rest _ => exact exec_kept i { s with pending := rest } t h

theorem Block.memWf_iff (b : Block) : b.memWf = true ↔ tabWf 0 b.lasting.mem = true ∧ tabSorted b.lasting.hostMem = true := by
  simp [Block.memWf, Block.lasting]

/-- Settles O49: every change of either memory is by its tables' operations, which keep the form. -/
theorem memoryStaysCanonical : Obligations.MemoryStaysCanonical := by
  unfold Obligations.MemoryStaysCanonical
  intro s t hwf hstep
  have hkept := step_kept hstep
  obtain ⟨hmem, hhost⟩ := s.block.memWf_iff.mp hwf
  exact t.block.memWf_iff.mpr ⟨hkept.mem hmem, hkept.host hhost⟩

end Sys2Proof.Machine

/-! PROOFS. The far tiers: the lender's answers (O27). -/

namespace Sys2Proof.Machine

/-! ## What the far tiers rest on

Memory, the halves' tiers and their tides are read here as one: a packet that comes or goes, a count and a record of the log leave them alone. -/

/-- What the far tiers' rules read and change of a block. -/
structure FarView where
  memory : Memory
  tiers : HalfId → Tiers
  tide : HalfId → Nat

/-- The far view of a block. -/
def Block.farView (b : Block) : FarView := { memory := b.memory, tiers := b.tiers, tide := b.tide }

section
variable {b c : Block}

theorem Block.tiers_eq_of_farView (e : c.farView = b.farView) (h : HalfId) : c.tiers h = b.tiers h := congrFun (congrArg FarView.tiers e) h

theorem Block.tide_eq_of_farView (e : c.farView = b.farView) (h : HalfId) : c.tide h = b.tide h := congrFun (congrArg FarView.tide e) h

theorem Block.memory_eq_of_farView (e : c.farView = b.farView) : c.memory = b.memory := congrArg FarView.memory e

theorem Block.mem_eq_of_farView (e : c.farView = b.farView) : c.mem = b.mem := Block.mem_eq_of_memory (Block.memory_eq_of_farView e)

theorem Block.farView_eq (hm : c.memory = b.memory) (hh : c.half = b.half) : c.farView = b.farView := by
  have htiers : c.tiers = b.tiers := funext fun h => by rw [Block.tiers, hh, Block.tiers]
  have htide : c.tide = b.tide := funext fun h => by rw [Block.tide, hh, Block.tide]
  rw [Block.farView, hm, htiers, htide, Block.farView]

variable (b)

@[simp] theorem Block.setReg_farView (a : Nat) (v : Word) : (b.setReg a v).farView = b.farView :=
  Block.farView_eq (b.setReg_memory a v) (funext fun h => b.setReg_half a v h)

@[simp] theorem Block.count_farView (a hi lo n : Nat) : (b.count a hi lo n).farView = b.farView :=
  Block.farView_eq (b.count_memory a hi lo n) (funext fun h => b.count_half a hi lo n h)

@[simp] theorem Block.emit_farView (o : Out) : (b.emit o).farView = b.farView := rfl

@[simp] theorem Block.log_farView (e : Event) : (b.log e).farView = b.farView :=
  Block.farView_eq (b.log_memory e) (funext fun h => b.log_half e h)

variable (h : HalfId) (p : Packet)

@[simp] theorem Block.modHalf_farView {f : Half → Half} (ht : ∀ x, (f x).tiers = x.tiers) (hd : ∀ x, (f x).tide = x.tide) :
    (b.modHalf h f).farView = b.farView := by
  have htiers : (b.modHalf h f).tiers = b.tiers := funext fun i => b.modHalf_tiers h ht i
  have htide : (b.modHalf h f).tide = b.tide := by
    funext i
    by_cases hi : i = h
    · rw [hi, Block.tide, Block.half_modHalf_same, hd, Block.tide]
    · rw [Block.tide, Block.half_modHalf_other _ _ _ _ hi, Block.tide]
  rw [Block.farView, Block.modHalf_memory, htiers, htide, Block.farView]

@[simp] theorem Block.unbuffer_farView : (b.unbuffer h p).farView = b.farView := by
  rw [Block.unbuffer]
  split
  · rfl
  · simp [Block.control]

@[simp] theorem Block.takeSeq_farView : (b.takeSeq h p).farView = b.farView := by
  simp only [Block.takeSeq]
  split
  · simp
  · split <;> simp

@[simp] theorem Block.linkSend_farView (x : Nat) : (b.linkSend h x p).farView = b.farView := by
  simp only [Block.linkSend, Block.modPort]
  split <;> simp

@[simp] theorem Block.routeOut_farView : (b.routeOut h p).farView = b.farView := by
  rw [Block.routeOut]
  split
  · simp
  · split
    · rw [Block.sendBy]
      split <;> simp
    · simp

@[simp] theorem Block.send_farView (dest job cls op tag w2 block : Nat) (payload : List Byte) :
    (b.send h dest job cls op tag w2 block payload).farView = b.farView := by
  simp [Block.send, Block.makePacket]

@[simp] theorem Block.respond_farView (status : Nat) (data : List Byte) : (b.respond h p status data).farView = b.farView :=
  b.send_farView h _ _ _ _ _ _ _ _

/-- A change of a half's tiers, as the far view tells it. -/
theorem Block.modTiers_farView (f : Tiers → Tiers) :
    (b.modTiers h f).farView = { b.farView with tiers := fun i => if i = h then f (b.tiers i) else b.tiers i } := by
  have htide : (b.modTiers h f).tide = b.tide := by
    funext i
    by_cases hi : i = h
    · rw [hi, Block.tide, Block.modTiers, Block.half_modHalf_same, Block.tide]
    · rw [Block.tide, Block.modTiers, Block.half_modHalf_other _ _ _ _ hi, Block.tide]
  have htiers : (b.modTiers h f).tiers = fun i => if i = h then f (b.tiers i) else b.tiers i := funext fun i => b.tiers_modTiers h i f
  rw [Block.farView, Block.modTiers_memory, htiers, htide, Block.farView]

theorem Block.modTiers_tide (f : Tiers → Tiers) (i : HalfId) : (b.modTiers h f).tide i = b.tide i :=
  congrFun (congrArg FarView.tide (b.modTiers_farView h f)) i

@[simp] theorem Block.modWindow_memory (f : LendWindow → LendWindow) : (b.modWindow h f).memory = b.memory := b.modTiers_memory h _

theorem Block.modWindow_window (f : LendWindow → LendWindow) : (b.modWindow h f).window h = f (b.window h) := by
  rw [Block.window, Block.modWindow, Block.tiers_modTiers, if_pos rfl, Block.window]

variable {b h}

theorem Block.window_eq_of_farView (e : c.farView = b.farView) : c.window h = b.window h := congrArg Tiers.window (Block.tiers_eq_of_farView e h)

theorem Block.windowServes_eq_of_farView (e : c.farView = b.farView) : c.windowServes h = b.windowServes h := by
  rw [Block.windowServes, Block.window_eq_of_farView e, Block.tide_eq_of_farView e, Block.windowServes]
end

/-! ## Directories (R211, R212, R220) -/

section
variable {d : List FarEntry} {job obj ver : Nat}

/-- The entry of a version after its state was set. -/
theorem dirFind_dirSet_some (st now : Nat) :
    dirFind (dirSet d job obj ver (some st) now) job obj ver = (dirFind d job obj ver).map (fun e => { e with st := st, lastActive := now }) := by
  induction d with
  | nil => rfl
  | cons e d ih =>
    by_cases he : e.job = job ∧ e.object = obj ∧ e.version = ver
    · simp [dirSet, dirFind, he]
    · have hskip (l : List FarEntry) : dirFind (e :: l) job obj ver = dirFind l job obj ver := by
        simp only [dirFind, List.find?_cons]
        split
        · next heq => exact absurd (by simpa [and_assoc] using heq) he
        · rfl
      have hset : dirSet (e :: d) job obj ver (some st) now = e :: dirSet d job obj ver (some st) now := by
        simp [dirSet, he]
      rw [hset, hskip, ih, hskip]

theorem dirFind_dirSet_none (now : Nat) : dirFind (dirSet d job obj ver none now) job obj ver = none := by
  rw [dirFind, List.find?_eq_none]
  intro e he
  obtain ⟨o, -, ho⟩ := List.mem_filterMap.mp he
  split at ho
  · cases ho
  · next hne =>
    cases ho
    simpa [and_assoc] using hne

/-- An entry that a query answers is in the state that it was set to. -/
theorem dirState_dirSet {base st now : Nat} (h : dirState d job obj ver base ≠ 0) :
    dirState (dirSet d job obj ver (some st) now) job obj ver base = st := by
  rw [dirState] at h ⊢
  rw [dirFind_dirSet_some]
  cases hfind : dirFind d job obj ver with
  | none => simp [hfind] at h
  | some e =>
    have hbase : e.base = base := by
      by_contra hne
      simp [hfind, hne] at h
    simp [hbase]
end

/-! ## What a lender answers (R210-R213, R218, R220, R318) -/

/-- The block on which the command of an arrived packet acts. -/
abbrev Block.taken (b : Block) (h : HalfId) (p : Packet) : Block := (b.unbuffer h p).takeSeq h p

section
variable {s : State} {h : HalfId} {p : Packet} {i : Instr}

theorem Block.taken_farView (b : Block) (h : HalfId) (p : Packet) : (b.taken h p).farView = b.farView := by simp

/-- The step of a packet that its half takes is what its command makes of the block. -/
theorem next_of_receive {cls : Nat} {ops : List Nat} (ha : Admits s.block h p cls ops) {f : Block → Block}
    (he : exec i s = s.act (fun b => b.receive h p cls ops f)) {y : Block} (hf : f (s.block.taken h p) = y) :
    exec i s = .next { s with block := y } :=
  next_of_act he (by rw [ha.receive, hf])

theorem farRead_answered {n : Nat} (ha : Admits s.block h p 0 [0x10]) (hn : readCount p = some n) (hw : s.block.windowServes h = true)
    (hd : dirServes (s.block.window h).dir (pkJob p) (pkAddr p) n = true)
    (hgood : ∀ a ∈ (s.block.window h).addrs (pkAddr p) n, tabFind s.block.bad (granuleBase a) = none) :
    exec (.farRead h p) s =
      .next { s with block := (s.block.taken h p).respond h p stOk (((s.block.window h).addrs (pkAddr p) n).map (fun a => s.block.byte a)) } := by
  have hview := s.block.taken_farView h p
  have hmemory := Block.memory_eq_of_farView hview
  have hnone : ((s.block.window h).addrs (pkAddr p) n).find? (fun a => (tabFind (s.block.taken h p).bad (granuleBase a)).isSome) = none := by
    rw [List.find?_eq_none, show (s.block.taken h p).bad = s.block.bad from congrArg Memory.bad hmemory]
    exact fun a hin => by simp [hgood a hin]
  refine next_of_receive ha rfl ?_
  simp only [hn, Block.windowServes_eq_of_farView hview, Block.window_eq_of_farView hview, hw, hd, hnone, and_self, if_true,
    Block.byte_eq_of_memory hmemory]

theorem farRead_refused {n : Nat} (ha : Admits s.block h p 0 [0x10]) (hn : readCount p = some n)
    (hnot : s.block.windowServes h = false ∨ dirServes (s.block.window h).dir (pkJob p) (pkAddr p) n = false) :
    exec (.farRead h p) s = .next { s with block := (s.block.taken h p).respond h p stFarFail [] } := by
  have hview := s.block.taken_farView h p
  refine next_of_receive ha rfl ?_
  simp only [hn, Block.windowServes_eq_of_farView hview, Block.window_eq_of_farView hview]
  rw [if_neg]
  rintro ⟨hw, hd⟩
  rcases hnot with hnot | hnot <;> simp_all

theorem farReserve_added {l : List FarEntry} (ha : Admits s.block h p 0 [0x11]) (hlen : p.payload.length = 16)
    (hst : (s.block.window h).st = 1) (hroom : pkAddr p + leNat (p.payload.drop 8) ≤ (s.block.window h).frames.length * frameSize)
    (hadd : dirAdd (fun _ => false) (s.block.window h).dir (reservedEntry p (leNat (p.payload.drop 8)) (s.block.tide h)) = .ok l) :
    exec (.farReserve h p) s =
      .next { s with block := ((s.block.taken h p).modWindow h (fun w => { w with dir := l })).respond h p stOk [] } := by
  have hview := s.block.taken_farView h p
  refine next_of_receive ha rfl ?_
  simp only [hlen, ne_eq, not_true, if_false, Block.window_eq_of_farView hview, hst, Nat.not_lt.mpr hroom, Block.tide_eq_of_farView hview, hadd]

theorem farReserve_refused (ha : Admits s.block h p 0 [0x11]) (hlen : p.payload.length = 16) (hst : (s.block.window h).st ≠ 1) :
    exec (.farReserve h p) s = .next { s with block := (s.block.taken h p).respond h p stFarFail [] } := by
  have hview := s.block.taken_farView h p
  refine next_of_receive ha rfl ?_
  simp only [hlen, ne_eq, not_true, if_false, Block.window_eq_of_farView hview, hst, not_false_eq_true, if_true]

/-- Whether an entry takes a FAR_WRITE: it is Pending, of the packet's job, and holds the packet's range. -/
def FarEntry.takes (e : FarEntry) (p : Packet) : Bool :=
  e.job = pkJob p && e.st = farPending && decide (e.base ≤ pkAddr p) && decide (pkAddr p + p.payload.length ≤ e.base + e.length)

/-- The bytes of a FAR_WRITE at the local addresses of its range. -/
def LendWindow.writeCells (w : LendWindow) (p : Packet) : List Host.Cell := (w.addrs (pkAddr p) p.payload.length).zip p.payload

/-- A window whose Pending entries note a write. -/
def LendWindow.noteWrite (w : LendWindow) (p : Packet) (now : Nat) : LendWindow :=
  { w with dir := w.dir.map (fun e => if e.takes p then { e with lastActive := now } else e) }

/-- A block in whose window a FAR_WRITE has landed; the entries that take it are active again. -/
def Block.farWritten (b : Block) (h : HalfId) (p : Packet) : Block :=
  ((b.taken h p).landCells ((b.window h).writeCells p)).1.modWindow h (fun w => w.noteWrite p (b.tide h))

theorem farWrite_lands {e : FarEntry} (ha : Admits s.block h p 0 [0x12]) (hok : writeOk p = true) (hw : s.block.windowServes h = true)
    (he : e ∈ (s.block.window h).dir) (htakes : e.takes p = true) (hgood : s.block.badHits ((s.block.window h).writeCells p) = []) :
    exec (.farWrite h p) s = .next { s with block := (s.block.farWritten h p).respond h p stOk [] } := by
  have hview := s.block.taken_farView h p
  have hstop : ((s.block.taken h p).landCells ((s.block.window h).writeCells p)).2 = none :=
    Block.landCells_stop (by rw [Block.badHits_eq_of_memory (Block.memory_eq_of_farView hview), hgood])
  have hany : (s.block.window h).dir.any (fun e => e.takes p) = true := List.any_eq_true.mpr ⟨e, he, htakes⟩
  refine next_of_receive ha rfl ?_
  simp only [hok, not_true, if_false, Block.windowServes_eq_of_farView hview, Block.window_eq_of_farView hview, hw]
  rw [if_pos ⟨trivial, hany⟩]
  split
  · next hland => rw [LendWindow.writeCells, hland] at hstop; cases hstop
  · next hland =>
    rw [Block.farWritten, LendWindow.writeCells, hland, Block.tide_eq_of_farView hview]
    rfl

theorem farWrite_refused (ha : Admits s.block h p 0 [0x12]) (hok : writeOk p = true) (hw : s.block.windowServes h = false) :
    exec (.farWrite h p) s = .next { s with block := (s.block.taken h p).respond h p stFarFail [] } := by
  refine next_of_receive ha rfl ?_
  simp only [hok, not_true, if_false, Block.windowServes_eq_of_farView (s.block.taken_farView h p), hw, Bool.false_eq_true, false_and]

/-- The state of the entry that a packet's version and place name. -/
def LendWindow.stateAt (w : LendWindow) (p : Packet) : Nat := dirState w.dir (pkJob p) (pkObject p) (pkVersion p) (pkAddr p)

section
variable {op : Nat} {ok : Nat → Bool} {st : Option Nat} (ha : Admits s.block h p 0 [op])
  (he : exec i s = s.act (fun b => b.receive h p 0 [op] (fun b => b.entryPacket h p ok st))) (hlen : p.payload.length = 8)
include ha he hlen

/-- A packet that moves its entry. -/
theorem entryPacket_moves (hw : s.block.windowServes h = true) (hok : ok ((s.block.window h).stateAt p) = true) :
    exec i s = .next { s with block := ((s.block.taken h p).modWindow h (fun w =>
        { w with dir := dirSet w.dir (pkJob p) (pkObject p) (pkVersion p) st (s.block.tide h) })).respond h p stOk [] } := by
  have hview := s.block.taken_farView h p
  refine next_of_receive ha he ?_
  rw [Block.entryPacket, if_neg (by simp [hlen]), if_pos, Block.tide_eq_of_farView hview]
  rw [Block.windowServes_eq_of_farView hview, Block.window_eq_of_farView hview]
  exact ⟨hw, hok⟩

theorem entryPacket_refused (hw : s.block.windowServes h = false) :
    exec i s = .next { s with block := (s.block.taken h p).respond h p stFarFail [] } := by
  refine next_of_receive ha he ?_
  rw [Block.entryPacket, if_neg (by simp [hlen]), if_neg]
  rw [Block.windowServes_eq_of_farView (s.block.taken_farView h p), hw]
  simp
end

theorem farQuery_answered (ha : Admits s.block h p 0 [0x15]) (hlen : p.payload.length = 8) (hw : s.block.windowServes h = true) :
    exec (.farQuery h p) s =
      .next { s with block := (s.block.taken h p).respond h p stOk (leBytes 4 ((s.block.window h).stateAt p)) } := by
  have hview := s.block.taken_farView h p
  refine next_of_receive ha rfl ?_
  simp only [hlen, ne_eq, not_true, if_false, Block.windowServes_eq_of_farView hview, Block.window_eq_of_farView hview, hw, if_true]
  rfl

theorem farQuery_refused (ha : Admits s.block h p 0 [0x15]) (hlen : p.payload.length = 8) (hw : s.block.windowServes h = false) :
    exec (.farQuery h p) s = .next { s with block := (s.block.taken h p).respond h p stFarFail [] } := by
  refine next_of_receive ha rfl ?_
  simp only [hlen, ne_eq, not_true, if_false, Block.windowServes_eq_of_farView (s.block.taken_farView h p), hw, Bool.false_eq_true]
end

section
variable (b : Block) (h : HalfId) (p : Packet) (f : LendWindow → LendWindow) (st : Nat) (l : List Byte)

/-- A window changed before the answer is the window after it, and memory is as it was. -/
theorem Block.modWindow_respond :
    (((b.taken h p).modWindow h f).respond h p st l).window h = f (b.window h) ∧
      (((b.taken h p).modWindow h f).respond h p st l).mem = b.mem := by
  constructor
  · rw [Block.window_eq_of_farView (Block.respond_farView _ h p st l), Block.modWindow_window,
      Block.window_eq_of_farView (b.taken_farView h p)]
  · rw [Block.mem_eq_of_farView (Block.respond_farView _ h p st l), Block.mem_eq_of_memory (Block.modWindow_memory _ h f),
      Block.mem_eq_of_farView (b.taken_farView h p)]
end

/-- Settles O27: each packet by the operation of the rule it carries out. -/
theorem farPackets : Obligations.FarPackets := by
  unfold Obligations.FarPackets
  refine ⟨?_, ?_, ?_, ?_, ?_, ?_, ?_, ?_, ?_⟩
  · intro s h p n ha hn hw hd hgood
    refine ⟨_, farRead_answered ha hn hw hd hgood, rfl, ?_, rfl⟩
    rw [Block.mem_eq_of_farView (Block.respond_farView _ h p _ _), Block.mem_eq_of_farView (s.block.taken_farView h p)]
  · intro s h p n ha hn hnot
    exact ⟨_, farRead_refused ha hn hnot, rfl, rfl⟩
  · intro s h p l ha hlen hst hroom hadd
    obtain ⟨hwindow, hmem⟩ := s.block.modWindow_respond h p (fun w => { w with dir := l }) stOk []
    refine ⟨_, _, farReserve_added ha hlen hst hroom hadd, rfl, rfl, ?_, ?_, hmem⟩
    · rw [Block.modWindow_window, Block.window_eq_of_farView (s.block.taken_farView h p)]
    · rw [hwindow]
  · intro s h p e ha hok hw he hjob hst hlo hhi hgood
    refine ⟨_, _, farWrite_lands ha hok hw he (by simp [FarEntry.takes, hjob, hst, hlo, hhi]) hgood, rfl, rfl, ?_⟩
    have htaken := Block.memory_eq_of_farView (s.block.taken_farView h p)
    refine Landed.of_memory_left (Landed.of_memory (Block.landCells_landed ?_) ?_) htaken
    · rw [Block.badHits_eq_of_memory htaken]
      exact hgood
    · rw [Block.memory_eq_of_farView (Block.respond_farView _ h p _ _), Block.farWritten, Block.modWindow_memory]
      rfl
  · intro s h p i op st ha hlen hw hi
    rcases hi with ⟨rfl, rfl, rfl, hstate⟩ | ⟨rfl, rfl, rfl, hstate⟩
    · obtain ⟨hwindow, hmem⟩ := s.block.modWindow_respond h p
        (fun w => { w with dir := dirSet w.dir (pkJob p) (pkObject p) (pkVersion p) (some farCommitted) (s.block.tide h) }) stOk []
      refine ⟨_, _, entryPacket_moves (ok := fun st => st = farPending) ha rfl hlen hw (decide_eq_true hstate), rfl, rfl, ?_, hmem⟩
      rw [hwindow]
      exact dirState_dirSet (by simp [hstate])
    · obtain ⟨hwindow, hmem⟩ := s.block.modWindow_respond h p
        (fun w => { w with dir := dirSet w.dir (pkJob p) (pkObject p) (pkVersion p) (some farRetired) (s.block.tide h) }) stOk []
      refine ⟨_, _, entryPacket_moves (ok := fun st => st = farCommitted) ha rfl hlen hw (decide_eq_true hstate), rfl, rfl, ?_, hmem⟩
      rw [hwindow]
      exact dirState_dirSet (by simp [hstate])
  · intro s h p ha hlen hw hstate
    obtain ⟨hwindow, hmem⟩ := s.block.modWindow_respond h p
      (fun w => { w with dir := dirSet w.dir (pkJob p) (pkObject p) (pkVersion p) none (s.block.tide h) }) stOk []
    refine ⟨_, _, entryPacket_moves (ok := fun st => st = farPending) ha rfl hlen hw (decide_eq_true hstate), rfl, rfl, ?_, hmem⟩
    rw [hwindow]
    exact dirFind_dirSet_none _
  · intro s h p ha hlen hw
    exact ⟨_, farQuery_answered ha hlen hw, rfl, rfl⟩
  · intro s h p i op ha hlen hw hi
    simp only [List.mem_cons, List.not_mem_nil, or_false, Prod.mk.injEq] at hi
    rcases hi with ⟨rfl, rfl⟩ | ⟨rfl, rfl⟩ | ⟨rfl, rfl⟩ | ⟨rfl, rfl⟩
    · exact ⟨_, entryPacket_refused (ok := fun st => st = farPending) ha rfl hlen hw, rfl, rfl⟩
    · exact ⟨_, entryPacket_refused (ok := fun st => st = farPending) ha rfl hlen hw, rfl, rfl⟩
    · exact ⟨_, farQuery_refused ha hlen hw, rfl, rfl⟩
    · exact ⟨_, entryPacket_refused (ok := fun st => st = farCommitted) ha rfl hlen hw, rfl, rfl⟩
  · intro s h p i hi
    rcases hi with ⟨rfl, ha, hlen, hst⟩ | ⟨rfl, ha, hok, hw⟩
    · exact ⟨_, farReserve_refused ha hlen hst, rfl, rfl⟩
    · exact ⟨_, farWrite_refused ha hok hw, rfl, rfl⟩

end Sys2Proof.Machine

/-! PROOFS. The far tiers: lending, the host's directory and revocation (O26). -/

namespace Sys2Proof.Machine

/-! ## Answers and the far view -/

section
variable (b : Block)

@[simp] theorem Block.setZilsy_farView (z : Zilsy) : (b.setZilsy z).farView = b.farView :=
  Block.farView_eq (b.setZilsy_memory z) (funext fun h => by cases h <;> rfl)

@[simp] theorem Block.appendAudit_farView (a : Actor) (c : Change) (r : Bool) : (b.appendAudit a c r).farView = b.farView :=
  Block.farView_eq rfl (funext fun h => b.appendAudit_half a c r h)

@[simp] theorem Block.reply_farView (c : Channel) (status detail : Nat) (data : List Byte) : (b.reply c status detail data).farView = b.farView := by
  rw [Block.reply_eq]
  exact Block.farView_eq rfl (funext fun h => by cases h <;> rfl)

@[simp] theorem Answer.leave_farView (y : Answer) (p : Path) : (y.leave p).farView = y.block.farView := by
  cases p with
  | host => rfl
  | zilsy m => exact y.block.reply_farView _ _ _ _

/-- A path's block differs in Zilsy's state alone. -/
theorem Arrives.farView {x : Block} {p : Path} {roles : List Nat} {a : Actor} (h : Arrives b p roles a x) : x.farView = b.farView := by
  obtain ⟨z, rfl⟩ := h.eq_setZilsy
  exact b.setZilsy_farView z

theorem Arrives.reg {x : Block} {p : Path} {roles : List Nat} {a : Actor} (h : Arrives b p roles a x) (y : Nat) : x.reg y = b.reg y := by
  obtain ⟨z, rfl⟩ := h.eq_setZilsy
  rfl

theorem Arrives.regFld {x : Block} {p : Path} {roles : List Nat} {a : Actor} (h : Arrives b p roles a x) (y hi lo : Nat) :
    x.regFld y hi lo = b.regFld y hi lo := by
  rw [Block.regFld, h.reg, Block.regFld]
end

/-! ## Registration in the host's directory (R214, R232) -/

section
variable {b : Block} {h : HalfId} {job : Nat}

/-- The entry that the words of TIER_MAIN_REG0 to 2 give. -/
def Block.mainEntry (b : Block) (h : HalfId) (job : Nat) : FarEntry :=
  { job := job, object := b.regFld (tierReg h 0x210) 63 32, version := b.regFld (tierReg h 0x210) 31 0,
    base := b.regFld (tierReg h 0x200) 59 0, length := b.regFld (tierReg h 0x208) 47 0, st := farCommitted, lastActive := b.tide h }

theorem Block.mainGo_registers {l : List FarEntry} (hadd : dirAdd (b.tiers h).reading (b.tiers h).mainland (b.mainEntry h job) = .ok l) :
    b.mainGo h job false = (b.modTiers h (fun x => { x with mainland := l })).accept := by
  rw [Block.mainEntry] at hadd
  simp only [Block.mainGo, Bool.false_eq_true, if_false, hadd]

/-- The state of the version that the words of TIER_MAIN_REG0 and 2 name. -/
def Block.mainState (b d : Block) (h : HalfId) (job : Nat) : Nat :=
  dirState (d.tiers h).mainland job (b.regFld (tierReg h 0x210) 63 32) (b.regFld (tierReg h 0x210) 31 0) (b.regFld (tierReg h 0x200) 59 0)

theorem Block.mainGo_retires (hst : b.mainState b h job = farCommitted) : ∃ d, b.mainGo h job true = d.accept ∧
    b.mainState d h job = farRetired ∧ d.memory = b.memory ∧ d.regs = b.regs := by
  rw [Block.mainState] at hst
  refine ⟨_, by simp only [Block.mainGo, if_true, hst]; rfl, ?_, Block.modTiers_memory _ _ _, Block.modTiers_regs _ _ _⟩
  rw [Block.mainState, Block.tiers_modTiers, if_pos rfl]
  exact dirState_dirSet (by simp [hst])
end

section
variable {s : State} {p : Path} {h : HalfId} {a : Actor} {x : Block}

theorem exec_mainRegister {job : Fin 4096} {w : List (Nat × Byte)} (harr : Arrives (s.block.hostAnnounce w) p [1, 2] a x) :
    exec (.mainRegister p h job w) s = .next { s with block := (x.mainGo h job.val false).leave p } :=
  next_of_act (show exec (.mainRegister p h job w) s = execMainRegister p h job w s from rfl) (Block.byPath_of_arrives harr 1 _)

theorem exec_mainRetire {job : Fin 4096} (harr : Arrives s.block p [1, 2] a x) :
    exec (.mainRetire p h job) s = .next { s with block := (x.mainGo h job.val true).leave p } :=
  next_of_act (show exec (.mainRetire p h job) s = execMainRetire p h job s from rfl) (Block.byPath_of_arrives harr 1 _)

/-- Host memory that a host announces is not the tiers' or the registers'. -/
theorem Block.hostAnnounce_keeps (b : Block) (w : List (Nat × Byte)) : (b.hostAnnounce w).tiers = b.tiers ∧ (b.hostAnnounce w).tide = b.tide ∧
    (b.hostAnnounce w).mem = b.mem ∧ (b.hostAnnounce w).reg = b.reg :=
  ⟨funext fun h => by cases h <;> rfl, funext fun h => by cases h <;> rfl, rfl, rfl⟩

/-- The host's registration of a version (R214). -/
theorem mainRegister_adds {job : Fin 4096} {w : List (Nat × Byte)} {l : List FarEntry}
    (harr : Arrives (s.block.hostAnnounce w) p [1, 2] a x)
    (hadd : dirAdd (s.block.tiers h).reading (s.block.tiers h).mainland (s.block.mainEntry h job.val) = .ok l) :
    ∃ t, exec (.mainRegister p h job w) s = .next t ∧ t.pending = s.pending ∧ (t.block.tiers h).mainland = l ∧ t.block.mem = s.block.mem ∧
      (∀ y, ¬ mailboxReg y → t.block.reg y = s.block.reg y) ∧ Answers t.block p stOk := by
  obtain ⟨htiers, htide, hmem, hreg⟩ := s.block.hostAnnounce_keeps w
  have hview := harr.farView
  have hentry : x.mainEntry h job.val = s.block.mainEntry h job.val := by
    simp only [Block.mainEntry, Block.regFld, harr.reg, hreg, Block.tide_eq_of_farView hview, htide]
  have hgo : x.mainGo h job.val false = _ :=
    Block.mainGo_registers (l := l) (by rw [hentry, Block.tiers_eq_of_farView hview, htiers, hadd])
  refine ⟨_, exec_mainRegister harr, rfl, ?_, ?_, fun y hy => ?_, Answer.answers_leave _ p (by rw [hgo]; rfl)⟩
  · rw [Block.tiers_eq_of_farView (Answer.leave_farView _ p), hgo, Block.accept_block, Block.tiers_modTiers, if_pos rfl]
  · rw [Answer.leave_mem, hgo, Block.accept_block, Block.mem_eq_of_memory (Block.modTiers_memory _ _ _), Block.mem_eq_of_farView hview, hmem]
  · rw [Answer.leave_reg _ _ _ hy, hgo, Block.accept_block, Block.reg_eq (Block.modTiers_regs _ _ _), harr.reg, hreg]

/-- The host's retirement of a version (R214, R232). -/
theorem mainRetire_retires {job : Fin 4096} (harr : Arrives s.block p [1, 2] a x)
    (hst : s.block.mainState s.block h job.val = farCommitted) :
    ∃ t, exec (.mainRetire p h job) s = .next t ∧ t.pending = s.pending ∧ s.block.mainState t.block h job.val = farRetired ∧
      t.block.mem = s.block.mem ∧ (∀ y, ¬ mailboxReg y → t.block.reg y = s.block.reg y) ∧ Answers t.block p stOk := by
  have hview := harr.farView
  have hstate (d : Block) : x.mainState d h job.val = s.block.mainState d h job.val := by simp only [Block.mainState, harr.regFld]
  obtain ⟨d, hgo, hretired, hmemory, hregs⟩ := Block.mainGo_retires (b := x) (h := h) (job := job.val) (by
    rw [hstate, Block.mainState, Block.tiers_eq_of_farView hview]
    exact hst)
  refine ⟨_, exec_mainRetire harr, rfl, ?_, ?_, fun y hy => ?_, Answer.answers_leave _ p (by rw [hgo]; rfl)⟩
  · rw [Block.mainState, Block.tiers_eq_of_farView (Answer.leave_farView _ p), hgo, ← hretired, hstate]
    rfl
  · rw [Answer.leave_mem, hgo, Block.accept_block, Block.mem_eq_of_memory hmemory, Block.mem_eq_of_farView hview]
  · rw [Answer.leave_reg _ _ _ hy, hgo, Block.accept_block, Block.reg_eq hregs, harr.reg]
end

/-! ## Revocation (R218, R391) -/

section
variable (b : Block) (h : HalfId)

/-- A packet that is sent changes of the registers at most its half's count of packets with no exit. -/
theorem Block.send_reg {a : Nat} (ha : a ≠ efReg h 0x18) (dest job cls op tag w2 block : Nat) (payload : List Byte) :
    (b.send h dest job cls op tag w2 block payload).reg a = b.reg a := by
  have hlink (c : Block) (x : Nat) (p : Packet) : (c.linkSend h x p).reg a = c.reg a := by
    simp only [Block.linkSend]
    split <;> simp [Block.modPort]
  simp only [Block.send, Block.routeOut]
  split
  · simp [Block.makePacket]
  · split
    · rw [Block.sendBy]
      split
      · simp [Block.makePacket]
      · simp [hlink, Block.makePacket]
    · rw [Block.count_reg_other _ _ _ _ _ _ ha]
      simp [Block.makePacket]

theorem Block.sendAll_keeps (op w2 : Nat) (payload : List Byte) (l : List Nat) :
    (b.sendAll h op w2 payload l).farView = b.farView ∧ ∀ a, a ≠ efReg h 0x18 → (b.sendAll h op w2 payload l).reg a = b.reg a := by
  induction l generalizing b with
  | nil => exact ⟨rfl, fun _ _ => rfl⟩
  | cons e es ih =>
    obtain ⟨hview, hreg⟩ := ih (if e = b.endpoint h then b else b.send h e 0 5 op 0 w2 0 payload)
    refine ⟨hview.trans ?_, fun a ha => (hreg a ha).trans ?_⟩
    · split
      · rfl
      · exact b.send_farView h _ _ _ _ _ _ _ _
    · split
      · rfl
      · exact b.send_reg h ha _ _ _ _ _ _ _ _

theorem Block.tellLeader_keeps (op : Nat) (payload : List Byte) :
    (b.tellLeader h op payload).farView = b.farView ∧ ∀ a, a ≠ efReg h 0x18 → (b.tellLeader h op payload).reg a = b.reg a := by
  rw [Block.tellLeader]
  split
  · exact ⟨b.send_farView h _ _ _ _ _ _ _ _, fun a ha => b.send_reg h ha _ _ _ _ _ _ _ _⟩
  · exact ⟨rfl, fun _ _ => rfl⟩

/-- A revocation changes its own window, once, and no register but the half's count of packets with no exit. -/
theorem Block.revoke_keeps :
    (b.revoke h).window h = (if (b.window h).st = 1 then { b.window h with st := 2, tEnd := b.tide h + 10000000 } else b.window h) ∧
      ∀ a, a ≠ efReg h 0x18 → (b.revoke h).reg a = b.reg a := by
  rw [Block.revoke]
  split
  · next hst =>
    obtain ⟨hleader, hleaderReg⟩ := Block.tellLeader_keeps (((b.modTiers h (fun t => { t with
      window := { t.window with st := 2, tEnd := b.tide h + 10000000 },
      revoking := tabPut t.revoking (b.endpoint h) (b.tide h + 10000000) })).sendAll h 0x05 0 (leBytes 8 (b.tide h + 10000000)) b.rosterEndpoints))
      h 0x19 (leBytes 8 (b.tide h + 10000000))
    obtain ⟨hall, hallReg⟩ := Block.sendAll_keeps (b.modTiers h (fun t => { t with
      window := { t.window with st := 2, tEnd := b.tide h + 10000000 },
      revoking := tabPut t.revoking (b.endpoint h) (b.tide h + 10000000) })) h 0x05 0 (leBytes 8 (b.tide h + 10000000)) b.rosterEndpoints
    refine ⟨?_, fun a ha => ?_⟩
    · rw [Block.window_eq_of_farView (hleader.trans hall), Block.window, Block.tiers_modTiers, if_pos rfl]
      rfl
    · rw [hleaderReg a ha, hallReg a ha, Block.reg_eq (b.modTiers_regs h _)]
  · exact ⟨rfl, fun _ _ => rfl⟩
end

/-! ## Lending (R217, R218) -/

section
variable {s : State} {p : Path} {m : Envelope} {h : HalfId} {a : Actor} {x y : Block}

/-- LEND_REVOKE of an advertised window (R218). -/
theorem lendRevoke_revokes (harr : Arrives s.block p [1, 2] a x) (hst : (s.block.window h).st = 1) :
    ∃ t, exec (.lendRevoke p h) s = .next t ∧ t.pending = s.pending ∧
      t.block.window h = { s.block.window h with st := 2, tEnd := s.block.tide h + 10000000 } ∧ t.block.mem = s.block.mem ∧
      Answers t.block p stOk := by
  have hview := harr.farView
  obtain ⟨hwindow, -⟩ := x.revoke_keeps h
  refine ⟨_, next_of_act (show exec (.lendRevoke p h) s = execLendRevoke p h s from rfl) (Block.byPath_of_arrives harr 1 _), rfl, ?_, ?_,
    Answer.answers_leave _ p rfl⟩
  · rw [Block.window_eq_of_farView (Answer.leave_farView _ p), Block.accept_block, hwindow, Block.window_eq_of_farView hview, if_pos hst,
      Block.tide_eq_of_farView hview]
  · rw [Answer.leave_mem, Block.accept_block, Block.mem_eq_of_lasting (x.revoke_lasting h), Block.mem_eq_of_farView hview]

/-- No register of the tiers is the mailbox's. -/
theorem not_mailboxReg_tierReg (h : HalfId) {off : Nat} (hoff : off < 0x1000) : ¬ mailboxReg (tierReg h off) := by
  cases h <;> simp only [mailboxReg, tierReg, zilReg, regBase, halfNum] <;> omega

theorem tierReg_ne_efReg (h : HalfId) : tierReg h 0x40 ≠ efReg h 0x18 := by
  cases h <;> simp only [tierReg, efReg, regBase, halfNum] <;> omega

/-- LEND_EN cleared (R218, R441). -/
theorem Block.writeLend_clears {b : Block} {gib : Nat} (hgib : gib ≤ 128) (hroom : b.flash.audit.length < 64512) (a : Actor) :
    ∃ c, b.writeLend a h gib = (((b.appendAudit a c).setReg (tierReg h 0x40) (BitVec.ofNat 64 gib)).revoke h).accept := by
  have hsize : bits gib 7 0 = gib := by simp only [bits, Nat.shiftRight_zero]; omega
  have hword : bits gib 8 0 = gib := by simp only [bits, Nat.shiftRight_zero]; omega
  have hoff : bit gib 8 = false := by
    simp only [bit, Nat.shiftRight_eq_div_pow]
    exact decide_eq_false (by omega)
  refine ⟨{ kind := 0x01, target := tierReg h 0x40, old := (b.reg (tierReg h 0x40)).toNat, new := gib }, ?_⟩
  simp only [Block.writeLend, hsize, hoff]
  rw [if_neg (by simp [Nat.not_lt.mpr hgib]), Block.auditedAnswer_of_room hroom, if_pos (by simp), hword]

theorem lendEnClear_revokes {gib : Fin 256} (harr : Arrives s.block (.zilsy m) [2] a x) (hgib : gib.val ≤ 128)
    (hroom : s.block.flash.audit.length < 64512) :
    ∃ t, exec (.lendEnClear (.zilsy m) h gib) s = .next t ∧ t.pending = s.pending ∧
      t.block.reg (tierReg h 0x40) = BitVec.ofNat 64 gib.val ∧
      (t.block.window h).st = (if (s.block.window h).st = 1 then 2 else (s.block.window h).st) ∧
      t.block.flash.audit.length = s.block.flash.audit.length + 1 ∧ t.block.mem = s.block.mem ∧ Answers t.block (.zilsy m) stOk := by
  have hview := harr.farView
  have haudit : x.flash.audit = s.block.flash.audit := by
    obtain ⟨z, rfl⟩ := harr.eq_setZilsy
    rfl
  obtain ⟨c, hwrite⟩ := Block.writeLend_clears (b := x) (h := h) hgib (haudit ▸ hroom) a
  have hbefore : ((x.appendAudit a c).setReg (tierReg h 0x40) (BitVec.ofNat 64 gib.val)).farView = s.block.farView := by simp [hview]
  obtain ⟨hwindow, hreg⟩ := ((x.appendAudit a c).setReg (tierReg h 0x40) (BitVec.ofNat 64 gib.val)).revoke_keeps h
  have hlasting := ((x.appendAudit a c).setReg (tierReg h 0x40) (BitVec.ofNat 64 gib.val)).revoke_lasting h
  refine ⟨_, next_of_act (show exec (.lendEnClear (.zilsy m) h gib) s = execLendEnClear (.zilsy m) h gib s from rfl)
    ((Block.byPath_of_arrives harr 2 _).trans (congrArg (Answer.leave · (.zilsy m)) hwrite)), rfl, ?_, ?_, ?_, ?_,
    Answer.answers_leave _ (.zilsy m) rfl⟩
  · rw [Answer.leave_reg _ _ _ (not_mailboxReg_tierReg h (by decide)), Block.accept_block, hreg _ (tierReg_ne_efReg h), Block.reg_setReg_same]
  · rw [Block.window_eq_of_farView (Answer.leave_farView _ _), Block.accept_block, hwindow, Block.window_eq_of_farView hbefore]
    split <;> rfl
  · rw [Answer.leave_flash, Block.accept_block, Block.audit_eq_of_lasting hlasting, Block.setReg_flash, Block.appendAudit_audit_length, haudit]
  · rw [Answer.leave_mem, Block.accept_block, Block.mem_eq_of_lasting hlasting, Block.setReg_mem, Block.appendAudit_mem,
      Block.mem_eq_of_farView hview]

/-- An audited change that is made is made of a block that differs in its flash and log alone; a longer change is made of the same block. -/
theorem Block.audited_made {b : Block} {c : Change} {f : Block → Block} (e : b.audited a c f = (y, true)) :
    ∃ w, y = f w ∧ w.farView = b.farView ∧ ∀ g, b.audited a c g = (g w, true) := by
  simp only [Block.audited] at e ⊢
  split at e
  · cases e
    exact ⟨_, rfl, b.appendAudit_farView a c false, fun _ => rfl⟩
  · cases e
    exact ⟨_, rfl, b.log_farView _, fun _ => rfl⟩
  · cases e

/-- LEND_EN set on a window that is neither advertised nor revoking reserves it anew. -/
theorem Block.writeLend_reserves {b : Block} {gib : Nat} (hpos : 0 < gib) (hgib : gib ≤ 128) (hwas : b.regFld (tierReg h 0x40) 8 8 = 0)
    (hadv : (b.window h).st ≠ 1) (hrev : (b.window h).st ≠ 2)
    (haudit : b.audited a { kind := 0x01, target := tierReg h 0x40, old := (b.reg (tierReg h 0x40)).toNat, new := 256 + gib }
      (fun b => b.setReg (tierReg h 0x40) (BitVec.ofNat 64 (256 + gib))) = (y, true)) :
    b.writeLend a h (256 + gib) = (y.reserveWindow h).accept := by
  have hsize : bits (256 + gib) 7 0 = gib := by simp only [bits, Nat.shiftRight_zero]; omega
  have hword : bits (256 + gib) 8 0 = 256 + gib := by simp only [bits, Nat.shiftRight_zero]; omega
  have hon : bit (256 + gib) 8 = true := by
    simp only [bit, Nat.shiftRight_eq_div_pow]
    exact decide_eq_true (by omega)
  obtain ⟨w, rfl, hview, hmade⟩ := Block.audited_made haudit
  rw [Block.regFld] at hwas
  simp only [Block.writeLend, hsize, hon, hword]
  rw [if_neg (by simp [Nat.not_lt.mpr hgib, Nat.pos_iff_ne_zero.mp hpos]), Block.auditedAnswer, hmade]
  simp [hwas, Block.window_eq_of_farView hview, hadv, hrev, Block.accept]

/-- Frames that a window or an expert takes are whole, and placing them moves translations and frames alone. -/
theorem Block.allocFrames_placed {b c : Block} {tier : Nat} {big : Bool} {owner n : Nat} {frames : List Nat}
    (e : b.allocFrames h tier big owner n = .ok frames c) : Remapped b c ∧ ∀ f ∈ frames, frameSize ∣ f := by
  have hways : (∃ r, b.place h tier big owner n = some r ∧ frames = r.1 ∧ c = b.modTiers h fun _ => r.2) ∨
      b.allocPool h tier big owner n ((b.tiers h).objects.length + 1) = .ok frames c := by
    grind [Block.allocFrames]
  obtain ⟨r, hr, rfl, rfl⟩ | hpool := hways
  · exact ⟨Block.placed_remaps hr, Block.place_aligned hr⟩
  · obtain ⟨b1, r, hb1, hr, rfl, rfl⟩ := Block.allocPool_placed hpool
    exact ⟨hb1.trans (Block.placed_remaps hr), Block.place_aligned hr⟩

/-- A window that its pool can supply is advertised over zeroed frames (R217). -/
theorem Block.reserveWindow_of_frames {b c : Block} {frames : List Nat}
    (e : b.allocFrames h 2 false 0x100 (b.regFld (tierReg h 0x40) 7 0 * 512) = .ok frames c) :
    b.reserveWindow h = (c.zeroFrames frameSize frames).modWindow h (fun _ => { st := 1, frames := frames, tEnd := 0, dir := [] }) := by
  simp only [Block.reserveWindow, e]

theorem lendEnSet_reserves {gib : Fin 256} {frames : List Nat} {z : Block} (harr : Arrives s.block (.zilsy m) [2] a x)
    (hpos : 0 < gib.val) (hgib : gib.val ≤ 128) (hwas : s.block.regFld (tierReg h 0x40) 8 8 = 0)
    (hadv : (s.block.window h).st ≠ 1) (hrev : (s.block.window h).st ≠ 2)
    (haudit : x.audited a { kind := 0x01, target := tierReg h 0x40, old := (s.block.reg (tierReg h 0x40)).toNat, new := 256 + gib.val }
      (fun b => b.setReg (tierReg h 0x40) (BitVec.ofNat 64 (256 + gib.val))) = (y, true))
    (halloc : y.allocFrames h 2 false 0x100 (gib.val * 512) = .ok frames z) :
    ∃ t, exec (.lendEnSet m h gib) s = .next t ∧ t.pending = s.pending ∧
      t.block.reg (tierReg h 0x40) = BitVec.ofNat 64 (256 + gib.val) ∧
      t.block.window h = { st := 1, frames := frames, tEnd := 0, dir := [] } ∧
      (∀ f ∈ frames, ∀ i, f ≤ i → i < f + frameSize → t.block.byte i = 0) ∧ Answers t.block (.zilsy m) stOk := by
  have hwindow := Block.window_eq_of_farView (h := h) harr.farView
  have hwrite := Block.writeLend_reserves (b := x) (h := h) hpos hgib (by rw [harr.regFld, hwas]) (hwindow ▸ hadv) (hwindow ▸ hrev)
    (by rw [harr.reg]; exact haudit)
  obtain ⟨w, rfl, -, -⟩ := Block.audited_made haudit
  have hreg : (w.setReg (tierReg h 0x40) (BitVec.ofNat 64 (256 + gib.val))).reg (tierReg h 0x40) = BitVec.ofNat 64 (256 + gib.val) :=
    Block.reg_setReg_same _ _ _
  obtain ⟨hmoved, haligned⟩ := Block.allocFrames_placed halloc
  have hsize : (w.setReg (tierReg h 0x40) (BitVec.ofNat 64 (256 + gib.val))).regFld (tierReg h 0x40) 7 0 = gib.val := by
    rw [Block.regFld, hreg, fld_ofNat _ _ _ (by decide), bits, Nat.shiftRight_zero]
    omega
  have hreserve := Block.reserveWindow_of_frames (by rw [hsize]; exact halloc)
  rw [hreserve] at hwrite
  refine ⟨_, next_of_act (show exec (.lendEnSet m h gib) s = execLendEnSet m h gib s from rfl)
    ((Block.command_of_arrives harr 2 _).trans (congrArg (Answer.leave · (.zilsy m)) hwrite)), rfl, ?_, ?_, ?_,
    Answer.answers_leave _ (.zilsy m) rfl⟩
  · rw [Answer.leave_reg _ _ _ (not_mailboxReg_tierReg h (by decide)), Block.accept_block, Block.modWindow, Block.reg_eq (Block.modTiers_regs _ _ _),
      Block.reg_eq (Block.zeroFrames_regs _ _ _), Block.reg_eq hmoved.regs, hreg]
  · rw [Block.window_eq_of_farView (Answer.leave_farView _ _), Block.accept_block, Block.modWindow_window]
  · intro f hf i hlo hhi
    rw [Answer.leave_byte, Block.accept_block, Block.byte_eq_of_memory (Block.modWindow_memory _ _ _),
      Block.zeroFrames_byte _ (dvd_refl _) haligned, if_pos ⟨f, hf, hlo, hhi⟩]
end

/-! ## T_end (R218 steps 3 and 4) -/

section
variable {s : State} {h : HalfId} {b : Block}

theorem revocationEnd_empties (hst : (s.block.window h).st = 2) (hend : (s.block.window h).tEnd ≤ s.block.tide h) :
    exec (.revocationEnd h) s = .next { s with block := s.block.modWindow h (fun w => { w with dir := [] }) } :=
  next_of_act rfl (if_pos ⟨hst, hend⟩)

theorem revocationDone_frees (hst : (s.block.window h).st = 2) (hend : (s.block.window h).tEnd ≤ s.block.tide h)
    (hdir : (s.block.window h).dir = []) :
    exec (.revocationDone h) s = .next { s with
      block := (s.block.freeFrames (s.block.window h).frames).modWindow h (fun w => { w with st := 3, frames := [] }) } :=
  next_of_act rfl (if_pos ⟨hst, hend, hdir⟩)

theorem Block.freeFrames_window (l : List Nat) : (b.freeFrames l).window h = b.window h := by
  induction l generalizing b with
  | nil => rfl
  | cons f fs ih =>
    rw [Block.freeFrames, ih, Block.freeFrame, Block.window, Block.tiers_modTiers, Block.window]
    split <;> rfl

/-- A frame that is freed has no owner, whatever is freed after it. -/
theorem Block.freeFrames_free {l : List Nat} {f : Nat} (hf : f ∈ l ∨ tabFind (b.tiers (homeOf f)).frames f = none) :
    tabFind ((b.freeFrames l).tiers (homeOf f)).frames f = none := by
  induction l generalizing b with
  | nil => exact hf.resolve_left List.not_mem_nil
  | cons g gs ih =>
    refine ih ?_
    rw [Block.freeFrame, Block.tiers_modTiers]
    by_cases hfg : f = g
    · rw [hfg, if_pos rfl, tabFind_tabDel_same]
      exact .inr rfl
    · refine hf.imp (fun hin => (List.mem_cons.mp hin).resolve_left hfg) fun hnone => ?_
      split
      · rw [tabFind_tabDel_other _ _ _ hfg, hnone]
      · exact hnone
end

/-! ## Cache objects that a borrower drops (R218 step 3) -/

section
variable {b : Block} {i j : Nat} {o : CacheObject}

theorem Block.removePages_object (b : Block) (k : Nat) (l : List Nat) (j : Nat) : (b.removePages k l).object j = b.object j := by
  induction l generalizing b with
  | nil => rfl
  | cons p ps ih =>
    rw [Block.removePages, ih, Block.removePage, Block.object, Block.tiers, Block.modSlot_half, Block.object, Block.tiers]

/-- An object that is still there after another may have been reaped was there before. -/
theorem Block.object_of_reapObject (e : (b.reapObject i).object j = some o) : b.object j = some o := by
  rw [Block.reapObject] at e
  split at e
  · exact e
  · next x hx =>
    split at e
    · by_cases hj : j = i
      · subst hj
        simp only [Block.freeObject, hx] at e
        rw [Block.object, Block.tiers_modTiers, if_pos rfl, tabFind_tabDel_same] at e
        cases e
      · rwa [b.object_freeObject_other hj] at e
    · exact e

/-- An object that is still there after a mapping was dropped has the mappings that it had, without that one if it is its own. -/
theorem Block.object_of_dropMapping {m : Nat × Nat} (e : (b.dropMapping i m).object j = some o) :
    ∃ x, b.object j = some x ∧ o.mappings = if j = i then x.mappings.erase m else x.mappings := by
  rw [Block.dropMapping] at e
  split at e
  · next hnone =>
    refine ⟨o, e, ?_⟩
    rw [if_neg (fun hj => by simp [hj, hnone] at e)]
  · have hreaped := Block.object_of_reapObject e
    rw [Block.object_modObject, Block.removePages_object] at hreaped
    split at hreaped
    · next hj =>
      obtain ⟨x, hx, rfl⟩ := Option.map_eq_some_iff.mp hreaped
      exact ⟨x, hx, by rw [if_pos hj]⟩
    · next hj => exact ⟨o, hreaped, by rw [if_neg hj]⟩

theorem Block.object_of_dropMappings {ms : List (Nat × Nat)} (e : (b.dropMappings i ms).object j = some o) :
    ∃ x, b.object j = some x ∧ o.mappings = if j = i then x.mappings.diff ms else x.mappings := by
  induction ms generalizing b with
  | nil => exact ⟨o, e, by simp⟩
  | cons m ms ih =>
    obtain ⟨y, hy, ho⟩ := ih e
    obtain ⟨x, hx, hxy⟩ := Block.object_of_dropMapping hy
    refine ⟨x, hx, ?_⟩
    rw [ho, hxy]
    split
    · rw [List.diff_cons]
    · rfl

theorem diff_self_eq_nil {α : Type} [BEq α] [LawfulBEq α] (l : List α) : l.diff l = [] := by
  induction l with
  | nil => rfl
  | cons x xs ih => rw [List.diff_cons, List.erase_cons_head, ih]

/-- An object that nothing maps. -/
def Unmapped (b : Block) (i : Nat) : Prop := ∀ o, b.object i = some o → o.mappings = []

theorem Unmapped.of_object {c : Block} (h : Unmapped b i) (e : c.object i = b.object i) : Unmapped c i := fun o ho => h o (e ▸ ho)

theorem Block.unmapObject_unmaps (b : Block) (i : Nat) : Unmapped (b.unmapObject i) i := by
  intro o e
  rw [Block.unmapObject] at e
  split at e
  · next hnone => simp [hnone] at e
  · next x hx =>
    obtain ⟨y, hy, ho⟩ := Block.object_of_dropMappings e
    obtain rfl := Option.some.inj (hx.symm.trans hy)
    rw [ho, if_pos rfl]
    exact diff_self_eq_nil _

theorem Unmapped.unmapObject (h : Unmapped b j) (i : Nat) : Unmapped (b.unmapObject i) j := by
  intro o e
  rw [Block.unmapObject] at e
  split at e
  · exact h o e
  · obtain ⟨y, hy, ho⟩ := Block.object_of_dropMappings e
    rw [ho, h y hy]
    split <;> simp

/-- Each object of a list is unmapped and counted. -/
theorem Block.dropObjects_drops (b : Block) (h : HalfId) (l : List Nat) :
    (∀ i, i ∈ l ∨ Unmapped b i → Unmapped (b.dropObjects h l) i) ∧
      (b.dropObjects h l).regFld (tierReg h 0x58) 63 32 = min (b.regFld (tierReg h 0x58) 63 32 + l.length) (2 ^ 32 - 1) ∧
      ∀ y, y ≠ tierReg h 0x58 → (b.dropObjects h l).reg y = b.reg y := by
  induction l generalizing b with
  | nil =>
    have hlt : b.regFld (tierReg h 0x58) 63 32 < 2 ^ 32 := bits_lt _ 63 32
    refine ⟨fun i hi => hi.resolve_left List.not_mem_nil, ?_, fun _ _ => rfl⟩
    rw [Block.dropObjects, List.length_nil]
    omega
  | cons i is ih =>
    obtain ⟨hun, hcount, hreg⟩ := ih ((b.unmapObject i).count (tierReg h 0x58) 63 32 1)
    have hregs (y : Nat) : (b.unmapObject i).reg y = b.reg y := Block.reg_eq (b.unmapObject_remaps i).regs y
    refine ⟨fun j hj => ?_, ?_, fun y hy => ?_⟩
    · refine hun j ?_
      have hkeep {c : Block} (hc : Unmapped c j) : Unmapped (c.count (tierReg h 0x58) 63 32 1) j :=
        hc.of_object (by rw [Block.object, Block.count_tiers, Block.object])
      by_cases hji : j = i
      · exact .inr (hkeep (hji ▸ b.unmapObject_unmaps i))
      · exact hj.imp (fun hin => (List.mem_cons.mp hin).resolve_left hji) fun hnone => hkeep (hnone.unmapObject i)
    · have hone : ((b.unmapObject i).count (tierReg h 0x58) 63 32 1).regFld (tierReg h 0x58) 63 32 =
          min (b.regFld (tierReg h 0x58) 63 32 + 1) (2 ^ 32 - 1) := by
        rw [Block.regFld, Block.count, Block.reg_modReg_same, fld_satAdd_same _ _ _ (by decide), hregs, Block.regFld]
      rw [Block.dropObjects, hcount, hone, List.length_cons]
      omega
    · rw [Block.dropObjects, hreg y hy, Block.count_reg_other _ _ _ _ _ _ hy, hregs]
end

section
variable {s : State} {h : HalfId}

/-- What a borrower drops at T_end: the filled objects of its Offshore lender. -/
def Block.borrowed (b : Block) (h : HalfId) (lender : Nat) : List Nat :=
  ((b.tiers h).objects.filter (fun p => p.2.filling.isNone && farTier p.2.far = 3 && bits p.2.far 59 44 = lender)).map (fun p => p.1)

theorem borrowerDrop_drops {lender tEnd : Nat} (hrev : tabFind (s.block.tiers h).revoking lender = some tEnd) (hend : tEnd ≤ s.block.tide h) :
    ∃ t, exec (.borrowerDrop h lender) s = .next t ∧ t.pending = s.pending ∧ tabFind (t.block.tiers h).revoking lender = none ∧
      (∀ i ∈ s.block.borrowed h lender, ∀ o, t.block.object i = some o → o.mappings = []) ∧
      t.block.regFld (tierReg h 0x58) 63 32 =
        min (s.block.regFld (tierReg h 0x58) 63 32 + (s.block.borrowed h lender).length) (2 ^ 32 - 1) ∧
      (∀ y, y ≠ tierReg h 0x58 → t.block.reg y = s.block.reg y) ∧ t.block.mem = s.block.mem := by
  obtain ⟨hun, hcount, hreg⟩ := s.block.dropObjects_drops h (s.block.borrowed h lender)
  have hstep : exec (.borrowerDrop h lender) s = .next { s with block :=
      (s.block.dropObjects h (s.block.borrowed h lender)).modTiers h (fun t => { t with revoking := tabDel t.revoking lender }) } := by
    refine next_of_act (show exec (.borrowerDrop h lender) s = execBorrowerDrop h lender s from rfl) ?_
    simp only [hrev, hend, if_true]
    rfl
  have hregs := Block.modTiers_regs (s.block.dropObjects h (s.block.borrowed h lender)) h (fun t => { t with revoking := tabDel t.revoking lender })
  refine ⟨_, hstep, rfl, ?_, fun i hi => (hun i (.inl hi)).of_object ?_, ?_, fun y hy => (Block.reg_eq hregs y).trans (hreg y hy), ?_⟩
  · rw [Block.tiers_modTiers, if_pos rfl, tabFind_tabDel_same]
  · rw [Block.object, Block.tiers_modTiers, Block.object]
    split <;> rfl
  · rw [Block.regFld, Block.reg_eq hregs, ← Block.regFld, hcount]
  · rw [Block.mem_eq_of_memory (Block.modTiers_memory _ _ _), Block.mem_eq_of_lasting (s.block.dropObjects_lasting h _)]

theorem pendingReap_reaps {job : Fin 4096} {obj ver : Nat} {e : FarEntry} (hfind : dirFind (s.block.window h).dir job.val obj ver = some e)
    (hst : e.st = farPending) (hidle : e.lastActive + 100000000 ≤ s.block.tide h) :
    ∃ t, exec (.pendingReap h job obj ver) s = .next t ∧ t.pending = s.pending ∧ dirFind (t.block.window h).dir job.val obj ver = none ∧
      t.block.regFld (tierReg h 0x58) 31 0 = min (s.block.regFld (tierReg h 0x58) 31 0 + 1) (2 ^ 32 - 1) ∧
      (∀ y, y ≠ tierReg h 0x58 → t.block.reg y = s.block.reg y) ∧ t.block.mem = s.block.mem := by
  have hstep : exec (.pendingReap h job obj ver) s = .next { s with block :=
      (s.block.modWindow h (fun w => { w with dir := dirSet w.dir job.val obj ver none 0 })).count (tierReg h 0x58) 31 0 1 } := by
    refine next_of_act (show exec (.pendingReap h job obj ver) s = execPendingReap h job obj ver s from rfl) ?_
    simp only [hfind]
    exact if_pos ⟨hst, hidle⟩
  have hregs (y : Nat) : (s.block.modWindow h (fun w => { w with dir := dirSet w.dir job.val obj ver none 0 })).reg y = s.block.reg y :=
    Block.reg_eq (Block.modTiers_regs _ _ _) y
  refine ⟨_, hstep, rfl, ?_, ?_, fun y hy => ?_, ?_⟩
  · rw [Block.window_eq_of_farView (Block.count_farView _ _ _ _ _), Block.modWindow_window]
    exact dirFind_dirSet_none 0
  · rw [Block.regFld, Block.count, Block.reg_modReg_same, fld_satAdd_same _ _ _ (by decide), hregs, Block.regFld]
  · rw [Block.count_reg_other _ _ _ _ _ _ hy, hregs]
  · rw [Block.count_mem, Block.mem_eq_of_memory (Block.modWindow_memory _ _ _)]

/-- A borrower's note of a lender's T_end (R218). -/
theorem revocationNotice_notes {p : Packet} (ha : Admits s.block h p 5 [0x05]) :
    ∃ t, exec (.revocationNotice h p) s = .next t ∧ t.pending = s.pending ∧
      tabFind (t.block.tiers h).revoking (pkSrc p) = some (leNat (p.payload.take 8)) ∧ t.block.mem = s.block.mem := by
  refine ⟨_, next_of_receive ha rfl rfl, rfl, ?_, ?_⟩
  · rw [Block.tiers_modTiers, if_pos rfl, tabFind_tabPut_same]
  · rw [Block.mem_eq_of_memory (Block.modTiers_memory _ _ _), Block.mem_eq_of_farView (s.block.taken_farView h p)]
end

/-- Settles O26: each command by the operation of the rule it carries out. -/
theorem lendingCommands : Obligations.LendingCommands := by
  unfold Obligations.LendingCommands
  refine ⟨?_, ?_, ?_, ?_, ?_, ?_, ?_, ?_, ?_, ?_⟩
  · intro s p h job w a x l harr hadd
    exact mainRegister_adds harr hadd
  · intro s p h job a x harr hst
    exact mainRetire_retires harr hst
  · intro s p h a x harr hst
    exact lendRevoke_revokes harr hst
  · intro s m h gib a x harr hgib hroom
    exact lendEnClear_revokes harr hgib hroom
  · intro s m h gib a x y frames z harr hpos hgib hwas hadv hrev haudit halloc
    exact lendEnSet_reserves harr hpos hgib hwas hadv hrev haudit halloc
  · intro s h hst hend
    exact ⟨_, revocationEnd_empties hst hend, rfl, s.block.modWindow_window h _, Block.mem_eq_of_memory (s.block.modWindow_memory h _),
      s.block.modTiers_regs h _⟩
  · intro s h hst hend hdir
    refine ⟨_, revocationDone_frees hst hend hdir, rfl, ?_, fun f hf => ?_, ?_, ?_⟩
    · rw [Block.modWindow_window, Block.freeFrames_window]
    · rw [← Block.freeFrames_free (b := s.block) (.inl hf), Block.modWindow, Block.tiers_modTiers]
      split <;> rfl
    · rw [Block.mem_eq_of_memory (Block.modWindow_memory _ _ _), Block.mem_eq_of_memory (Block.freeFrames_memory _ _)]
    · exact (Block.modTiers_regs _ _ _).trans (Block.freeFrames_regs _ _)
  · intro s h p ha
    exact revocationNotice_notes ha
  · intro s h lender tEnd hit hrev hend hhit
    subst hhit
    exact borrowerDrop_drops hrev hend
  · intro s h job obj ver e hfind hst hidle
    exact pendingReap_reaps hfind hst hidle

end Sys2Proof.Machine

/-! PROOFS. The far tiers: publications (O25). -/

namespace Sys2Proof.Machine

/-! ## Requests beside the frames and the cache objects

What holds frames and cache objects changes as tasks end; the requests of a half, its directory, its window and its Tide do not. -/

/-- Each half's tiers without their frames and cache objects, and its Tide. -/
def Block.asking (b : Block) (h : HalfId) : Tiers × Nat := ({ b.tiers h with frames := [], cursor := 0, objects := [] }, b.tide h)

section
variable {b c : Block}

theorem Block.asking_of_farView (e : c.farView = b.farView) : c.asking = b.asking := by
  funext h
  rw [Block.asking, Block.tiers_eq_of_farView e, Block.tide_eq_of_farView e, Block.asking]

theorem Block.tags_eq_of_asking (e : c.asking = b.asking) (h : HalfId) : (c.tiers h).tags = (b.tiers h).tags :=
  congrArg (fun x => x.1.tags) (congrFun e h)

theorem Block.mainland_eq_of_asking (e : c.asking = b.asking) (h : HalfId) : (c.tiers h).mainland = (b.tiers h).mainland :=
  congrArg (fun x => x.1.mainland) (congrFun e h)

theorem Block.tide_eq_of_asking (e : c.asking = b.asking) (h : HalfId) : c.tide h = b.tide h :=
  congrArg Prod.snd (congrFun e h)

variable (b) (t : TaskRef) (i : Nat)

/-- A change of a half's frames and cache objects alone. -/
theorem Block.modTiers_asking (h : HalfId) {f : Tiers → Tiers}
    (hf : ∀ t, { f t with frames := [], cursor := 0, objects := [] } = { t with frames := [], cursor := 0, objects := [] }) :
    (b.modTiers h f).asking = b.asking := by
  funext i
  rw [Block.asking, Block.tiers_modTiers, Block.modTiers_tide, Block.asking]
  split
  · rw [hf]
  · rfl

theorem Block.modTask_asking (f : TaskCtx → TaskCtx) : (b.modTask t f).asking = b.asking := by
  funext h
  rw [Block.asking, Block.modTask_tiers, Block.modTask_tide, Block.asking]

theorem Block.modObject_asking (f : CacheObject → CacheObject) : (b.modObject i f).asking = b.asking := by
  rw [Block.modObject]
  split
  · rfl
  · exact b.modTiers_asking _ fun _ => rfl

theorem Block.freeFrames_asking (l : List Nat) : (b.freeFrames l).asking = b.asking := by
  induction l generalizing b with
  | nil => rfl
  | cons f fs ih =>
    rw [Block.freeFrames, ih, Block.freeFrame]
    exact b.modTiers_asking _ fun _ => rfl

theorem Block.reapObject_asking : (b.reapObject i).asking = b.asking := by
  rw [Block.reapObject]
  split
  · rfl
  · split
    · rw [Block.freeObject]
      split
      · rfl
      · rw [Block.modTiers_asking _ _ (by exact fun _ => rfl), Block.freeFrames_asking]
    · rfl

theorem Block.reapObjects_asking (l : List Nat) : (b.reapObjects l).asking = b.asking := by
  induction l generalizing b with
  | nil => rfl
  | cons i is ih => rw [Block.reapObjects, ih, Block.reapObject_asking]

theorem Block.refObjects_asking (l : List Nat) : (b.refObjects t l).asking = b.asking := by
  induction l generalizing b with
  | nil => rfl
  | cons i is ih => rw [Block.refObjects, ih, Block.refObject, Block.modObject_asking]

theorem Block.dropRefs_asking : (b.dropRefs t).asking = b.asking := by
  have hfold (f : CacheObject → CacheObject) (l : List Nat) (x : Block) : (l.foldl (fun x i => x.modObject i f) x).asking = x.asking := by
    induction l generalizing x with
    | nil => rfl
    | cons i is ih => rw [List.foldl_cons, ih, Block.modObject_asking]
  rw [Block.dropRefs, Block.reapObjects_asking, hfold]

/-- A task that ends leaves the requests and the directory. -/
theorem Block.fix_asking (status detail : Nat) : (b.fix t status detail).asking = b.asking := by
  rw [Block.fix]
  split
  · split
    · split
      · rw [Block.asking_of_farView (Block.log_farView _ _), Block.dropRefs_asking, Block.modTask_asking]
      · rw [Block.dropRefs_asking, Block.modTask_asking]
    · rfl
  · rfl
end

/-! ## Requests of a publication (R212, R214, R216) -/

section
variable {b c : Block} {h : HalfId} {r : Request}

/-- A request to a far destination that is issued, or waits, leaves memory. -/
theorem Block.grant_memory_of_far (hfar : (∃ e, r.dest = .endpoint e) ∨ r.dest = .mainland) : (b.grant h r).memory = b.memory := by
  simp only [Block.grant, Block.await]
  split
  · rw [Block.modTiers_memory, Block.count_memory]
  · split
    · exact b.modTiers_memory h _
    · split
      · obtain ⟨e, he⟩ | he := hfar
        · simp only [Block.launch, he]
          rw [Block.memory_eq_of_farView (Block.send_farView _ _ _ _ _ _ _ _ _ _)]
          exact b.modTiers_memory h _
        · simp only [Block.launch, he]
          exact b.modTiers_memory h _
      · exact b.modTiers_memory h _

/-- A far request of a task that its half may issue is asked for, and its half's directory, its task and memory stay. -/
theorem Serves.issued (hr : Serves b h r) : Issued h b (b.issue h r) ∧ Asked (b.issue h r) h r ∧ (b.issue h r).memory = b.memory := by
  obtain ⟨hissued, hasked⟩ := Block.grant_issued (b := b) (h := h) hr.far
  rw [hr.issue]
  exact ⟨hissued, hasked, Block.grant_memory_of_far hr.far⟩

/-- A request to a lender that an endpoint's route serves. -/
theorem serves_of_route {k : Option TaskRef} {far op n : Nat} {data : List Byte} (htier : farTier far = 3)
    (hroute : b.routable h (bits far 59 44) 0 = true) (hlost : ¬ b.domain.lost.contains (bits far 59 44 / 8)) :
    Serves b h (farRequest k op far n data) := by
  refine .inl ⟨⟨bits far 59 44, Nat.mod_lt _ (by decide)⟩, ?_, hroute, hlost⟩
  rw [farTier] at htier
  simp only [farRequest, farDest, htier, if_true]

/-- A request to the host that is no read. -/
theorem serves_of_mainland {k : Option TaskRef} {far op n : Nat} {data : List Byte} (htier : farTier far = 4) (hop : op ≠ 0x10) :
    Serves b h (farRequest k op far n data) := by
  rw [farTier] at htier
  exact .inr ⟨by simp only [farRequest, farDest, htier]; rfl, by simp [Block.mayIssue, farRequest, hop]⟩
end

section
variable {s : State} {k : TaskRef} {g : Graph} {c : TaskCtx} {i : Instr}

/-- A task that sends its first request to a lender waits for the answer. -/
theorem stage_requests {op n : Nat} {data : List Byte} (htask : s.block.task k = some c)
    (htier : farTier c.desc.moveFar = 3) (hroute : s.block.routable k.half (bits c.desc.moveFar 59 44) 0 = true)
    (hlost : ¬ s.block.domain.lost.contains (bits c.desc.moveFar 59 44 / 8))
    (he : exec i s = .next { s with block :=
      (s.block.modTask k (fun c => { c with stage := 1 })).issue k.half (farRequest (some k) op c.desc.moveFar n data) }) :
    ∃ t, exec i s = .next t ∧ t.pending = s.pending ∧ t.block.task k = some { c with stage := 1 } ∧
      Asked t.block k.half (farRequest (some k) op c.desc.moveFar n data) ∧ t.block.mem = s.block.mem := by
  have hways := s.block.modTask_ways k (fun c => { c with stage := 1 })
  have hserves : Serves (s.block.modTask k (fun c => { c with stage := 1 })) k.half (farRequest (some k) op c.desc.moveFar n data) :=
    serves_of_route htier ((Block.routable_eq_of_ways hways k.half ⟨bits c.desc.moveFar 59 44, Nat.mod_lt _ (by decide)⟩ 0).trans hroute)
      (by rw [Block.lost_eq_of_ways hways]; exact hlost)
  obtain ⟨hissued, hasked, hmemory⟩ := hserves.issued
  refine ⟨_, he, rfl, ?_, hasked, ?_⟩
  · rw [Block.task_eq_of_tables hissued.tables, Block.modTask_task htask]
  · rw [Block.mem_eq_of_memory hmemory, Block.mem_eq_of_memory (Block.modTask_memory _ _ _)]

theorem exec_publish_offshore (h : Runs s.block k 0x07 g c) (hmode : c.desc.moveMode = 0) (hstage : c.stage = 0) (htier : farTier c.desc.moveFar = 3)
    (hhome : s.block.homeSource g.slot c.desc.moveVa c.desc.moveLength = true) :
    exec (.publish k) s =
      .next { s with block := (s.block.modTask k (fun c => { c with stage := 1 })).issue k.half (farRequest (some k) 0x11 c.desc.moveFar 0
        (versionWord c.desc.moveObject c.desc.moveVersion ++ leBytes 8 c.desc.moveLength)) } := by
  refine next_of_act (show exec (.publish k) s = execPublish k s from rfl) ?_
  rw [h.onMode 0 hmode]
  simp only [hstage, ne_eq, not_true, if_false, hhome, htier]
  rfl

theorem exec_retire_offshore (h : Runs s.block k 0x07 g c) (hmode : c.desc.moveMode = 1) (hstage : c.stage = 0) (htier : farTier c.desc.moveFar = 3) :
    exec (.retire k) s =
      .next { s with block := (s.block.modTask k (fun c => { c with stage := 1 })).issue k.half (farRequest (some k) 0x16 c.desc.moveFar 0
        (versionWord c.desc.moveObject c.desc.moveVersion)) } := by
  refine next_of_act (show exec (.retire k) s = execRetire k s from rfl) ?_
  rw [h.onMode 1 hmode]
  simp only [hstage, ne_eq, not_true, if_false, htier]
  rfl

theorem exec_query_offshore (h : Runs s.block k 0x06 g c) (hmode : c.desc.moveMode = 5) (hstage : c.stage = 0) (htier : farTier c.desc.moveFar = 3)
    (hnone : tabFind c.farBuf c.desc.moveFar = none) :
    exec (.query k) s =
      .next { s with block := (s.block.modTask k (fun c => { c with stage := 1 })).issue k.half (farRequest (some k) 0x15 c.desc.moveFar 4
        (versionWord c.desc.moveObject c.desc.moveVersion)) } := by
  refine next_of_act (show exec (.query k) s = execQuery k s from rfl) ?_
  rw [h.onMode 5 hmode]
  simp only [hstage, ne_eq, not_true, if_false, htier, hnone]
  rfl
end

/-! ## A publication in Mainland (R214) -/

section
variable {b : Block} {k : TaskRef} {g : Graph} {c : TaskCtx} {data : List Byte}

/-- The host memory of a Mainland publication: its data, then its commit record. -/
def publishedHost (m : List Host.Cell) (job : Nat) (d : TaskDesc) (data : List Byte) (now : Nat) : List Host.Cell :=
  hostPutList (hostPutList m (d.moveFar % 2 ^ 60) data) (d.moveFar % 2 ^ 60 + d.moveLength)
    (commitRecord job d.moveObject d.moveVersion d.moveLength (crc64 data) now)

/-- A task's context at a step of its move. -/
def TaskCtx.atStage (c : TaskCtx) (n : Nat) : TaskCtx := { c with stage := n }

/-- The block of a Mainland publication whose data and commit record are in the host. -/
def Block.hostPublished (b : Block) (k : TaskRef) (g : Graph) (d : TaskDesc) (data : List Byte) : Block :=
  let x := b.refObjects k (b.objectsIn g.slot d.moveVa d.moveLength)
  (x.hostStore (d.moveFar % 2 ^ 60) data).hostStore (d.moveFar % 2 ^ 60 + d.moveLength)
    (commitRecord g.job d.moveObject d.moveVersion d.moveLength (crc64 data) (x.tide k.half))

theorem Block.hostStore_keeps (b : Block) (a : Nat) (l : List Byte) :
    (b.hostStore a l).tables = b.tables ∧ (b.hostStore a l).asking = b.asking ∧ (b.hostStore a l).mem = b.mem ∧
      (b.hostStore a l).hostMem = hostPutList b.hostMem a l :=
  ⟨Block.tables_eq rfl rfl rfl, funext fun h => by cases h <;> rfl, rfl, rfl⟩

theorem Block.hostPublished_keeps (b : Block) (k : TaskRef) (g : Graph) (d : TaskDesc) (data : List Byte) :
    (b.hostPublished k g d data).tables = b.tables ∧ (b.hostPublished k g d data).asking = b.asking ∧
      (b.hostPublished k g d data).mem = b.mem ∧
      (b.hostPublished k g d data).hostMem = publishedHost b.hostMem g.job d data (b.tide k.half) := by
  have hasking := b.refObjects_asking k (b.objectsIn g.slot d.moveVa d.moveLength)
  have hmemory := b.refObjects_memory k (b.objectsIn g.slot d.moveVa d.moveLength)
  have htables := b.refObjects_tables k (b.objectsIn g.slot d.moveVa d.moveLength)
  simp only [Block.hostPublished, Block.hostStore_keeps, Block.tide_eq_of_asking hasking, Block.hostMem_eq_of_memory hmemory, publishedHost]
  exact ⟨htables, hasking, Block.mem_eq_of_memory hmemory, trivial⟩

/-- Step 2 of a Mainland publication writes its data and its commit record and asks to read the record back. -/
theorem Block.publishData_mainland (hg : b.graph k.half k.graph = some g) (hc : b.task k = some c)
    (hread : b.rdN (b.taskAccess k.half g c) 8 c.desc.moveVa c.desc.moveLength = .ok data) (hbase : farTier c.desc.moveFar = 4)
    (hend : farTier (c.desc.moveFar + c.desc.moveLength) = 4) :
    (b.publishData k).task k = some (c.atStage 4) ∧ ((b.publishData k).tiers k.half).mainland = (b.tiers k.half).mainland ∧
      (b.publishData k).mem = b.mem ∧ (b.publishData k).hostMem = publishedHost b.hostMem g.job c.desc data (b.tide k.half) ∧
      Asked (b.publishData k) k.half (farRequest (some k) 0x13 (c.desc.moveFar + c.desc.moveLength) 64 []) := by
  obtain ⟨htables, hasking, hmem, hhost⟩ := b.hostPublished_keeps k g c.desc data
  have hserves : Serves ((b.hostPublished k g c.desc data).modTask k (fun c => c.atStage 4)) k.half
      (farRequest (some k) 0x13 (c.desc.moveFar + c.desc.moveLength) 64 []) := serves_of_mainland hend (by decide)
  have heq : b.publishData k = ((b.hostPublished k g c.desc data).modTask k (fun c => c.atStage 4)).issue k.half
      (farRequest (some k) 0x13 (c.desc.moveFar + c.desc.moveLength) 64 []) := by
    simp only [Block.publishData, hg, hc, hread, hbase, if_true]
    rfl
  obtain ⟨hissued, hasked, hmemory⟩ := hserves.issued
  rw [heq]
  refine ⟨?_, ?_, ?_, ?_, hasked⟩
  · rw [Block.task_eq_of_tables hissued.tables, Block.modTask_task]
    rw [Block.task_eq_of_tables htables, hc]
  · rw [hissued.mainland, Block.modTask_tiers, Block.mainland_eq_of_asking hasking]
  · rw [Block.mem_eq_of_memory hmemory, Block.mem_eq_of_memory (Block.modTask_memory _ _ _), hmem]
  · rw [Block.hostMem_eq_of_memory hmemory, Block.hostMem_eq_of_memory (Block.modTask_memory _ _ _), hhost]

/-- A read is told by memory, the slots' pages and the access. -/
theorem Block.rdN_eq {x : Block} (hm : x.memory = b.memory) (hs : x.slots = b.slots) : x.rdN = b.rdN := by
  funext a who va n
  simp only [Block.rdN, Block.rdOf, Block.rd_eq hm hs]

/-- The block of a Mainland publication whose directory holds its Pending entry. -/
def Block.reserved (b : Block) (k : TaskRef) (l : List FarEntry) : Block :=
  (b.modTiers k.half (fun x => { x with mainland := l })).modTask k (fun c => c.atStage 2)

theorem Block.reserved_keeps (b : Block) (k : TaskRef) (l : List FarEntry) :
    (b.reserved k l).memory = b.memory ∧ (b.reserved k l).regs = b.regs ∧ (b.reserved k l).slots = b.slots ∧
      (b.reserved k l).tide k.half = b.tide k.half ∧ ((b.reserved k l).tiers k.half).mainland = l := by
  refine ⟨?_, ?_, ?_, ?_, ?_⟩
  · rw [Block.reserved, Block.modTask_memory, Block.modTiers_memory]
  · rw [Block.reserved, Block.modTask_regs, Block.modTiers_regs]
  · rw [Block.reserved, Block.modTask_slots]
    exact congrArg Tables.slots (b.modTiers_tables _ _)
  · rw [Block.reserved, Block.modTask_tide, Block.modTiers_tide]
  · rw [Block.reserved, Block.modTask_tiers, Block.tiers_modTiers, if_pos rfl]

theorem Block.reserved_task (hc : b.task k = some c) (l : List FarEntry) : (b.reserved k l).task k = some (c.atStage 2) := by
  rw [Block.reserved, Block.modTask_task]
  rw [Block.task_eq_of_tables (Block.modTiers_tables _ _ _), hc]

theorem Block.reserved_graph (hg : b.graph k.half k.graph = some g) (l : List FarEntry) :
    ∃ g', (b.reserved k l).graph k.half k.graph = some g' ∧ g'.slot = g.slot ∧ g'.step = g.step ∧ g'.job = g.job :=
  Block.modTask_graph_keeps _ k _ ((Block.graph_eq_of_tables (Block.modTiers_tables _ _ _) _ _).trans hg)

/-- A read of the task finds what it found before its entry was made. -/
theorem Block.reserved_reads (l : List FarEntry) {g' : Graph} (hslot : g'.slot = g.slot) (hstep : g'.step = g.step) (who va n : Nat) :
    (b.reserved k l).rdN ((b.reserved k l).taskAccess k.half g' (c.atStage 2)) who va n = b.rdN (b.taskAccess k.half g c) who va n := by
  obtain ⟨hmemory, hregs, hslots, -⟩ := b.reserved_keeps k l
  rw [Block.rdN_eq hmemory hslots]
  simp only [Block.taskAccess, Block.access, hslot, hstep, Block.reg_eq hregs]
  rfl
end

section
variable {s : State} {k : TaskRef} {g : Graph} {c : TaskCtx}

/-- A Mainland PUBLISH whose directory takes its entry (R214). -/
theorem publish_mainland {l : List FarEntry} {data : List Byte} (h : Runs s.block k 0x07 g c) (hmode : c.desc.moveMode = 0)
    (hstage : c.stage = 0) (hbase : farTier c.desc.moveFar = 4) (hend : farTier (c.desc.moveFar + c.desc.moveLength) = 4)
    (hhome : s.block.homeSource g.slot c.desc.moveVa c.desc.moveLength = true)
    (hadd : dirAdd (s.block.tiers k.half).reading (s.block.tiers k.half).mainland
      { job := g.job, object := c.desc.moveObject, version := c.desc.moveVersion, base := c.desc.moveFar % 2 ^ 60,
        length := c.desc.moveLength, st := farPending, lastActive := s.block.tide k.half } = .ok l)
    (hread : s.block.rdN (s.block.taskAccess k.half g c) 8 c.desc.moveVa c.desc.moveLength = .ok data) :
    ∃ t, exec (.publish k) s = .next t ∧ t.pending = s.pending ∧ t.block.task k = some (c.atStage 4) ∧
      (t.block.tiers k.half).mainland = l ∧ t.block.mem = s.block.mem ∧
      t.block.hostMem = publishedHost s.block.hostMem g.job c.desc data (s.block.tide k.half) ∧
      Asked t.block k.half (farRequest (some k) 0x13 (c.desc.moveFar + c.desc.moveLength) 64 []) := by
  obtain ⟨hg, hc, -⟩ := id h
  have hstart : exec (.publish k) s = .next { s with block := (s.block.reserved k l).publishData k } := by
    refine next_of_act (show exec (.publish k) s = execPublish k s from rfl) ?_
    rw [h.onMode 0 hmode]
    simp only [hstage, ne_eq, not_true, if_false, hhome, hbase, if_true, hadd]
    rfl
  obtain ⟨hmemory, -, -, htide, hmainland⟩ := s.block.reserved_keeps k l
  obtain ⟨g', hg', hslot, hstep, hjob⟩ := Block.reserved_graph hg l
  obtain ⟨hdone, hkept, hmem, hhost, hasked⟩ := Block.publishData_mainland (data := data) hg' (Block.reserved_task hc l)
    ((Block.reserved_reads l hslot hstep _ _ _).trans hread) hbase hend
  refine ⟨_, hstart, rfl, hdone, hkept.trans hmainland, hmem.trans (Block.mem_eq_of_memory hmemory), ?_, hasked⟩
  rw [hhost, hjob, Block.hostMem_eq_of_memory hmemory, htide]
  rfl

/-- A Mainland RETIRE of a Committed version (R220). -/
theorem retire_mainland (h : Runs s.block k 0x07 g c) (hmode : c.desc.moveMode = 1) (hstage : c.stage = 0)
    (hbase : farTier c.desc.moveFar = 4)
    (hst : dirState (s.block.tiers k.half).mainland g.job c.desc.moveObject c.desc.moveVersion (c.desc.moveFar % 2 ^ 60) = farCommitted) :
    ∃ t, exec (.retire k) s = .next t ∧ t.pending = s.pending ∧ Ended t.block k stOk ∧
      dirState (t.block.tiers k.half).mainland g.job c.desc.moveObject c.desc.moveVersion (c.desc.moveFar % 2 ^ 60) = farRetired ∧
      t.block.mem = s.block.mem ∧ t.block.regs = s.block.regs := by
  have hstart : exec (.retire k) s = .next { s with block := (s.block.modTiers k.half (fun x => { x with
      mainland := dirSet x.mainland g.job c.desc.moveObject c.desc.moveVersion (some farRetired) (s.block.tide k.half) })).fix k stOk 0 } := by
    refine next_of_act (show exec (.retire k) s = execRetire k s from rfl) ?_
    rw [h.onMode 1 hmode]
    simp only [hstage, ne_eq, not_true, if_false, hbase, if_true, hst]
  refine ⟨_, hstart, rfl, ((h.heads stOk).of_tables (Block.modTiers_tables _ _ _)).fix 0, ?_, ?_, ?_⟩
  · rw [Block.mainland_eq_of_asking (Block.fix_asking _ _ _ _), Block.tiers_modTiers, if_pos rfl]
    exact dirState_dirSet (hst.trans_ne (by decide))
  · rw [Block.mem_eq_of_memory (Block.fix_memory _ _ _ _), Block.mem_eq_of_memory (Block.modTiers_memory _ _ _)]
  · rw [Block.fix_regs, Block.modTiers_regs]

/-- A tag that is returned. -/
def Block.returnTag (b : Block) (h : HalfId) (tag : Nat) : Block := b.modTiers h (fun t => { t with tags := tabDel t.tags tag })

theorem Block.returnTag_tags (b : Block) (h : HalfId) (tag : Nat) : tabFind ((b.returnTag h tag).tiers h).tags tag = none := by
  rw [Block.returnTag, Block.tiers_modTiers, if_pos rfl, tabFind_tabDel_same]

theorem Block.returnTag_mainland (b : Block) (h : HalfId) (tag : Nat) (i : HalfId) :
    ((b.returnTag h tag).tiers i).mainland = (b.tiers i).mainland := by
  rw [Block.returnTag, Block.tiers_modTiers]
  split <;> rfl

/-- A response to a far request that succeeds goes to its task. -/
theorem exec_requestResponse_answered {h : HalfId} {tag : Nat} {r : Request} {l : List Byte} (htag : tabFind (s.block.tiers h).tags tag = some r)
    (htask : r.task = some k) (hfar : r.dest = .mainland ∨ ∃ e, r.dest = .endpoint e) :
    exec (.requestResponse h tag stOk l) s = .next { s with block := (s.block.returnTag h tag).answered r k l } := by
  refine next_of_act (show exec (.requestResponse h tag stOk l) s = execRequestResponse h tag stOk l s from rfl) ?_
  obtain hdest | ⟨e, hdest⟩ := hfar <;> simp only [Block.completeRequest, htag, htask, hdest, if_true, Block.returnTag]

/-- The answer to the last request of a publication commits a Mainland version and ends the task (R212, R214). -/
theorem Block.answered_publication {b : Block} (h : Runs b k 0x07 g c) (hmode : c.desc.moveMode = 0) (hstage : c.stage = 4) (r : Request)
    (l : List Byte) : ∃ y : Block, b.answered r k l = y.fix k stOk 0 ∧ y.tables = b.tables ∧ y.memory = b.memory ∧
      (∀ i, (y.tiers i).tags = (b.tiers i).tags) ∧
      (farTier c.desc.moveFar = 4 → (y.tiers k.half).mainland = dirSet (b.tiers k.half).mainland g.job c.desc.moveObject
        c.desc.moveVersion (some farCommitted) (b.tide k.half)) := by
  obtain ⟨hg, hc, hphase, htype⟩ := h
  have heq : b.answered r k l = (if farTier c.desc.moveFar = 4 then b.modTiers k.half (fun x => { x with
      mainland := dirSet x.mainland g.job c.desc.moveObject c.desc.moveVersion (some farCommitted) (b.tide k.half) }) else b).fix k stOk 0 := by
    simp [Block.answered, hg, hc, hphase, htype, hmode, hstage]
  refine ⟨_, heq, ?_, ?_, ?_, fun hfar => ?_⟩
  · split
    · exact b.modTiers_tables _ _
    · rfl
  · split
    · exact b.modTiers_memory _ _
    · rfl
  · intro i
    split
    · rw [Block.tiers_modTiers]
      split <;> rfl
    · rfl
  · rw [if_pos hfar, Block.tiers_modTiers, if_pos rfl]

theorem requestResponse_commits {h : HalfId} {tag : Nat} {r : Request} {l : List Byte} (hruns : Runs s.block k 0x07 g c)
    (hmode : c.desc.moveMode = 0) (hstage : c.stage = 4) (htag : tabFind (s.block.tiers h).tags tag = some r) (htask : r.task = some k)
    (hfar : r.dest = .mainland ∨ ∃ e, r.dest = .endpoint e) :
    ∃ t, exec (.requestResponse h tag stOk l) s = .next t ∧ t.pending = s.pending ∧ Ended t.block k stOk ∧
      tabFind (t.block.tiers h).tags tag = none ∧ t.block.mem = s.block.mem ∧
      (farTier c.desc.moveFar = 4 → (t.block.tiers k.half).mainland = dirSet (s.block.tiers k.half).mainland g.job c.desc.moveObject
        c.desc.moveVersion (some farCommitted) (s.block.tide k.half)) := by
  have htables : (s.block.returnTag h tag).tables = s.block.tables := s.block.modTiers_tables h _
  have hruns' : Runs (s.block.returnTag h tag) k 0x07 g c := by
    obtain ⟨hg, hc, hrest⟩ := hruns
    exact ⟨(Block.graph_eq_of_tables htables _ _).trans hg, (Block.task_eq_of_tables htables k).trans hc, hrest⟩
  obtain ⟨y, hy, hytables, hymemory, hytags, hymainland⟩ := Block.answered_publication hruns' hmode hstage r l
  have hasking := y.fix_asking k stOk 0
  refine ⟨_, exec_requestResponse_answered htag htask hfar, rfl, ?_, ?_, ?_, fun htier => ?_⟩
  · rw [hy]
    exact ((hruns'.heads stOk).of_tables hytables).fix 0
  · rw [hy, Block.tags_eq_of_asking hasking, hytags, Block.returnTag_tags]
  · rw [hy, Block.mem_eq_of_memory (Block.fix_memory _ _ _ _), Block.mem_eq_of_memory hymemory]
    exact Block.mem_eq_of_memory (s.block.modTiers_memory h _)
  · rw [hy, Block.mainland_eq_of_asking hasking, hymainland htier, Block.returnTag_mainland, Block.returnTag, Block.modTiers_tide]
end

/-- Settles O25: each task by what its first step asks for or writes, and a publication by what its last answer does. -/
theorem publicationTasks : Obligations.PublicationTasks := by
  unfold Obligations.PublicationTasks
  refine ⟨?_, ?_, ?_, ?_⟩
  · intro s k g c i op n data hstage htier hi hroute hlost
    obtain ⟨rfl, h, hmode, rfl, rfl, hhome, rfl⟩ | ⟨rfl, h, hmode, rfl, rfl, rfl⟩ | ⟨rfl, h, hmode, hnone, rfl, rfl, rfl⟩ := hi
    · exact stage_requests h.2.1 htier hroute hlost (exec_publish_offshore h hmode hstage htier hhome)
    · exact stage_requests h.2.1 htier hroute hlost (exec_retire_offshore h hmode hstage htier)
    · exact stage_requests h.2.1 htier hroute hlost (exec_query_offshore h hmode hstage htier hnone)
  · intro s k g c l data h hmode hstage hbase hend hhome hadd hread
    exact publish_mainland h hmode hstage hbase hend hhome hadd hread
  · intro s k g c h hmode hstage hbase hst
    exact retire_mainland h hmode hstage hbase hst
  · intro s k g c h tag r l hruns hmode hstage htag htask hfar
    exact requestResponse_commits hruns hmode hstage htag htask hfar

end Sys2Proof.Machine

/-! PROOFS. The far tiers: requests, adders, tags and responses (O14). -/

namespace Sys2Proof.Machine

/-! ## What counts and log records leave of the far view -/

section
variable (b : Block)

@[simp] theorem Block.modReg_farView (a : Nat) (f : Word → Word) : (b.modReg a f).farView = b.farView := b.setReg_farView a _
@[simp] theorem Block.setRegFld_farView (a hi lo v : Nat) : (b.setRegFld a hi lo v).farView = b.farView := b.modReg_farView a _

@[simp] theorem Block.setFlash_farView (x : Flash) : (b.setFlash x).farView = b.farView :=
  Block.farView_eq (by simp [Block.memory]) (funext fun h => by cases h <;> rfl)

@[simp] theorem Block.pendChannel_farView (h : HalfId) (ch cause : Nat) : (b.pendChannel h ch cause).farView = b.farView := by
  simp only [Block.pendChannel]
  split
  · rfl
  · rw [Block.log_farView]
    split
    · split <;> simp
    · rw [Block.setUsable, Block.setRegFld_farView, Block.modReg_farView]
      split <;> simp

@[simp] theorem Block.checkChannel_farView (h : HalfId) (ch : Nat) : (b.checkChannel h ch).farView = b.farView := by
  simp only [Block.checkChannel]
  (repeat' split) <;> simp

@[simp] theorem Block.noteCe_farView (a : Nat) : (b.noteCe a).farView = b.farView := by
  have htier (h : HalfId) (tier : Nat) : (b.noteTierCe h tier).farView = b.farView := by
    simp only [Block.noteTierCe]
    split <;> simp
  simp only [Block.noteCe]
  split <;> simp [htier]

/-- An upset leaves the tiers, their Tides and what memory lists. -/
theorem Block.applyUpset_keeps (a : Nat) (u : Upset) :
    (b.applyUpset a u).tiers = b.tiers ∧ (b.applyUpset a u).tide = b.tide ∧ (b.applyUpset a u).mem = b.mem := by
  cases u with
  | none => exact ⟨rfl, rfl, rfl⟩
  | corrected =>
    have hview := b.noteCe_farView a
    exact ⟨congrArg FarView.tiers hview, congrArg FarView.tide hview, Block.mem_eq_of_farView hview⟩
  | uncorrectable => exact ⟨funext fun h => by cases h <;> rfl, funext fun h => by cases h <;> rfl, rfl⟩
  | parity => exact ⟨rfl, rfl, rfl⟩

/-- An upset that the code corrects, or none, leaves memory. -/
theorem Block.applyUpset_memory {u : Upset} (hue : u ≠ .uncorrectable) (a : Nat) : (b.applyUpset a u).memory = b.memory := by
  cases u with
  | none => rfl
  | corrected => exact Block.memory_eq_of_farView (b.noteCe_farView a)
  | uncorrectable => exact absurd rfl hue
  | parity => rfl
end

/-! ## Bytes at consecutive addresses -/

/-- The cells of bytes from an address on. -/
def rangeCells (a : Nat) (l : List Byte) : List Host.Cell := (l.zip (List.range l.length)).map (fun p => (a + p.2, p.1))

theorem zip_range'_cons (x : Byte) (xs : List Byte) (k : Nat) :
    (x :: xs).zip (List.range' k (x :: xs).length) = (x, k) :: xs.zip (List.range' (k + 1) xs.length) := by
  rw [List.length_cons, List.range'_succ, List.zip_cons_cons]

/-- Cells put in the order of their addresses are the bytes put from the first on. -/
theorem foldl_rangeCells (rest : Nat → Byte) (a : Nat) (l : List Byte) (m : List Host.Cell) :
    (rangeCells a l).foldl (fun m c => memPut m c.1 (c.2 ^^^ rest c.1)) m = memPutList rest m a l := by
  have hfrom (k : Nat) : ((l.zip (List.range' k l.length)).map (fun p => (a + p.2, p.1))).foldl
      (fun m c => memPut m c.1 (c.2 ^^^ rest c.1)) m = memPutList rest m (a + k) l := by
    induction l generalizing m k with
    | nil => rfl
    | cons x xs ih =>
      rw [zip_range'_cons, List.map_cons, List.foldl_cons, ih]
      rfl
  rw [rangeCells, List.range_eq_range']
  exact hfrom 0

/-- Bytes that land where no bad word is hit are read back, and every other byte stays. -/
theorem Block.landRange_byte {b : Block} {a : Nat} {l : List Byte} (h : b.badHits (rangeCells a l) = []) (j : Nat) :
    (b.landCells (rangeCells a l)).1.byte j = if a ≤ j ∧ j < a + l.length then l.getD (j - a) 0 else b.byte j := by
  rw [← Block.store_byte, Block.byte, Block.landCells_mem h, foldl_rangeCells]
  rfl

/-- A task's far bytes from an address on. -/
theorem tabFind_foldl_tabPut (m : Tab Byte) (a : Nat) (l : List Byte) (j : Nat) :
    tabFind ((l.zip (List.range l.length)).foldl (fun m p => tabPut m (a + p.2) p.1) m) j =
      if a ≤ j ∧ j < a + l.length then some (l.getD (j - a) 0) else tabFind m j := by
  have hfrom (k : Nat) : tabFind ((l.zip (List.range' k l.length)).foldl (fun m p => tabPut m (a + p.2) p.1) m) j =
      if a + k ≤ j ∧ j < a + k + l.length then some (l.getD (j - (a + k)) 0) else tabFind m j := by
    induction l generalizing m k with
    | nil =>
      rw [if_neg (by simp)]
      rfl
    | cons x xs ih =>
      rw [zip_range'_cons, List.foldl_cons, ih, List.length_cons]
      by_cases hj : j = a + k
      · subst hj
        rw [if_neg (by omega), if_pos (by omega), tabFind_tabPut_same, Nat.sub_self]
        rfl
      · rw [tabFind_tabPut_other _ _ _ _ hj]
        by_cases hin : a + (k + 1) ≤ j ∧ j < a + (k + 1) + xs.length
        · rw [if_pos hin, if_pos (by omega), show j - (a + k) = (j - (a + (k + 1))) + 1 by omega]
          rfl
        · rw [if_neg hin, if_neg (by omega)]
  rw [List.range_eq_range']
  exact hfrom 0

/-! ## Tags and grants (R224, R225) -/

/-- A destination that a home controller serves: a Cove window or a channel of Shelf or Bay. -/
def HomeDest (d : Destination) : Prop := (∃ n, d = .cove n) ∨ (∃ x ch, d = .shelf x ch) ∨ ∃ x ch, d = .bay x ch

theorem homeDest_home {a : Nat} {d : Destination} (e : homeDest a = some d) : HomeDest d := by
  rw [homeDest] at e
  split at e <;> cases e
  · exact .inr (.inl ⟨_, _, rfl⟩)
  · exact .inr (.inl ⟨_, _, rfl⟩)
  · exact .inr (.inr ⟨_, _, rfl⟩)
  · exact .inl ⟨_, rfl⟩

section
variable {b c : Block} {h : HalfId} {r : Request} {d : Destination} {i : Nat}

theorem HomeDest.issue (hd : HomeDest r.dest) (b : Block) (h : HalfId) : b.issue h r = b.grant h r := by
  obtain ⟨n, hn⟩ | ⟨x, ch, hn⟩ | ⟨x, ch, hn⟩ := hd <;> simp only [Block.issue, hn]

theorem HomeDest.launch (hd : HomeDest r.dest) (b : Block) (h : HalfId) (i : Nat) : b.launch h i r = b.launchHome h i r := by
  obtain ⟨n, hn⟩ | ⟨x, ch, hn⟩ | ⟨x, ch, hn⟩ := hd <;> simp only [Block.launch, hn]

theorem HomeDest.mayIssue (hd : HomeDest r.dest) (b : Block) (h : HalfId) : b.mayIssue h r = true := by
  obtain ⟨n, hn⟩ | ⟨x, ch, hn⟩ | ⟨x, ch, hn⟩ := hd <;> simp [Block.mayIssue, hn]

/-- A request that its destination grants goes out under its tag. -/
theorem Grants.grant (hg : Grants b h r.dest i) : b.grant h r = b.launch h i r := by
  obtain ⟨hcap, hnone, hserves, hfree⟩ := hg
  have hany : (b.tiers h).waiting.any (fun q => q.dest = r.dest) = false := by simpa using hnone
  simp only [Block.grant, Nat.not_le.mpr hcap, if_false, hany, hserves, Bool.not_true, Bool.or_self, Bool.false_eq_true, hfree]

/-- A destination is at its cap of tags, takes no requests, or has an older request that waits. -/
def HoldsBack (b : Block) (h : HalfId) (d : Destination) : Prop :=
  b.regFld (tierReg h 0x18) 12 0 ≤ (b.tiers h).tagsAt d ∨ b.destServes d = false ∨ ∃ q ∈ (b.tiers h).waiting, q.dest = d

/-- A request that its destination holds back waits, and is counted at the cap. -/
theorem HoldsBack.grant (hb : HoldsBack b h r.dest) : ∃ y : Block, b.grant h r = y.await h r ∧ y.farView = b.farView := by
  by_cases hcap : b.regFld (tierReg h 0x18) 12 0 ≤ (b.tiers h).tagsAt r.dest
  · exact ⟨b.count (tierReg h 0x28) 63 40 1, by simp only [Block.grant, if_pos hcap], b.count_farView _ _ _ _⟩
  · refine ⟨b, ?_, rfl⟩
    have hwait : ((b.tiers h).waiting.any (fun q => q.dest = r.dest) || !(b.destServes r.dest)) = true := by
      obtain hin | hnot | hq := hb
      · exact absurd hin hcap
      · simp [hnot]
      · simp [hq]
    simp only [Block.grant, if_neg hcap, hwait, if_true]

/-- A half's tag that was just taken. -/
theorem Block.holdTag_keeps (b : Block) (h : HalfId) (i : Nat) (r : Request) :
    tabFind ((b.holdTag h i r).tiers h).tags i = some { r with issued := b.tide h } ∧
      ((b.holdTag h i r).tiers h).waiting = (b.tiers h).waiting ∧ (b.holdTag h i r).memory = b.memory ∧ (b.holdTag h i r).regs = b.regs ∧
      (b.holdTag h i r).tables = b.tables := by
  refine ⟨?_, ?_, b.modTiers_memory h _, b.modTiers_regs h _, b.modTiers_tables h _⟩
  · rw [Block.holdTag, Block.tiers_modTiers, if_pos rfl, tabFind_tabPut_same]
  · rw [Block.holdTag, Block.tiers_modTiers, if_pos rfl]

theorem Block.launchHome_crosses (hhome : homeOf r.addr ≠ h) (hu : r.upset ≠ .parity) : b.launchHome h i r = b.cross h i r := by
  simp only [Block.launchHome, hhome, hu, or_self, if_false]

/-- Serving a request leaves the tiers and their Tides. -/
theorem Block.serve_keeps {y : Block} {l : List Byte} (e : b.serve r = .done y l) : y.tiers = b.tiers ∧ y.tide = b.tide := by
  obtain ⟨htiers, htide, -⟩ := b.applyUpset_keeps r.addr r.upset
  have hhalf {x : Block} (hA : x.halfA = (b.applyUpset r.addr r.upset).halfA) (hB : x.halfB = (b.applyUpset r.addr r.upset).halfB) :
      x.tiers = b.tiers ∧ x.tide = b.tide := by
    have hh := Block.half_eq hA hB
    refine ⟨(funext fun i => ?_).trans htiers, (funext fun i => ?_).trans htide⟩
    · rw [Block.tiers, hh, Block.tiers]
    · rw [Block.tide, hh, Block.tide]
  simp only [Block.serve] at e
  split at e
  · cases e
  · split at e
    · split at e <;> cases e
      exact hhalf rfl rfl
    · split at e
      · split at e <;> cases e
        exact hhalf rfl rfl
      · split at e <;> cases e
        exact hhalf rfl rfl

/-- A request as its tag holds it: with the bytes it came to and the Tide of its issue. -/
def heldRequest (r : Request) (l : List Byte) (now : Nat) : Request := { r with data := l, issued := now }

/-- A request that its own half's controller serves holds its tag with the bytes it came to. -/
theorem Block.launchHome_serves {y : Block} {l : List Byte} (hhome : homeOf r.addr = h) (e : b.serve r = .done y l) (i : Nat) :
    tabFind ((b.launchHome h i r).tiers h).tags i = some (heldRequest r l (b.tide h)) ∧
      ((b.launchHome h i r).tiers h).waiting = (b.tiers h).waiting ∧ (b.launchHome h i r).memory = y.memory ∧
      (b.launchHome h i r).regs = y.regs := by
  have heq : b.launchHome h i r = y.holdTag h i { r with data := l } := by
    simp only [Block.launchHome, hhome, true_or, if_true, Block.serveHere, e]
  obtain ⟨htiers, htide⟩ := Block.serve_keeps e
  obtain ⟨htag, hwaiting, hmemory, hregs, -⟩ := y.holdTag_keeps h i { r with data := l }
  rw [heq]
  refine ⟨htag.trans ?_, hwaiting.trans (by rw [htiers]), hmemory, hregs⟩
  rw [htide]
  rfl
end

/-! ## A request at a home controller (R15, R199, R200, R224) -/

section
variable (b : Block) (d : Destination) (w : Bool) (n : Nat)

/-- Corrected link errors count in Bay's own registers alone (R239, R251). -/
theorem Block.countLink_keeps : (b.countLink d w n).farView = b.farView ∧ (b.countLink d w n).sys = b.sys ∧
    ∀ a, a ≠ bayReg .a 0x10 → a ≠ bayReg .b 0x10 → (b.countLink d w n).reg a = b.reg a := by
  have hcount (x : HalfId) (hi lo : Nat) : (b.count (bayReg x 0x10) hi lo n).farView = b.farView ∧ (b.count (bayReg x 0x10) hi lo n).sys = b.sys ∧
      ∀ a, a ≠ bayReg .a 0x10 → a ≠ bayReg .b 0x10 → (b.count (bayReg x 0x10) hi lo n).reg a = b.reg a := by
    refine ⟨b.count_farView _ _ _ _, b.count_sys _ _ _ _, fun a ha hb => Block.count_reg_other _ _ _ _ _ _ ?_⟩
    cases x
    · exact ha
    · exact hb
  cases d with
  | bay x ch =>
    rw [Block.countLink]
    split
    · exact hcount x _ _
    · exact hcount x _ _
  | cove m => exact ⟨rfl, rfl, fun _ _ _ => rfl⟩
  | shelf x ch => exact ⟨rfl, rfl, fun _ _ _ => rfl⟩
  | endpoint e => exact ⟨rfl, rfl, fun _ _ _ => rfl⟩
  | mainland => exact ⟨rfl, rfl, fun _ _ _ => rfl⟩

theorem tierCap_ne_bayReg (h x : HalfId) : tierReg h 0x18 ≠ bayReg x 0x10 := by
  cases h <;> cases x <;> simp only [tierReg, bayReg, regBase, halfNum] <;> omega

theorem Block.destServes_eq {c : Block} (hview : c.farView = b.farView) (hsys : c.sys = b.sys) (e : Destination) :
    c.destServes e = b.destServes e := by
  cases e <;> simp only [Block.destServes, Block.memoriesServe, hsys, Block.tide_eq_of_farView hview]

/-- What a destination grants or holds back is not told by the link errors. -/
theorem Block.countLink_cap (h : HalfId) : (b.countLink d w n).regFld (tierReg h 0x18) 12 0 = b.regFld (tierReg h 0x18) 12 0 := by
  obtain ⟨-, -, hreg⟩ := b.countLink_keeps d w n
  rw [Block.regFld, hreg _ (tierCap_ne_bayReg h .a) (tierCap_ne_bayReg h .b), Block.regFld]

variable {b} {h : HalfId} {e : Destination} {i : Nat}

theorem Grants.countLink (hg : Grants b h e i) : Grants (b.countLink d w n) h e i := by
  obtain ⟨hview, hsys, -⟩ := b.countLink_keeps d w n
  rw [Grants, Block.countLink_cap, Block.tiers_eq_of_farView hview, Block.destServes_eq b hview hsys]
  exact hg

theorem HoldsBack.countLink (hb : HoldsBack b h e) : HoldsBack (b.countLink d w n) h e := by
  obtain ⟨hview, hsys, -⟩ := b.countLink_keeps d w n
  rw [HoldsBack, Block.countLink_cap, Block.tiers_eq_of_farView hview, Block.destServes_eq b hview hsys]
  exact hb
end

section
variable {s : State} {h : HalfId} {r : LineRequest} {d : Destination} {i : Nat}

/-- The bytes that a line request reads or writes. -/
def lineSize (r : LineRequest) : Nat :=
  match r.data with
  | some l => l.length
  | none => r.len

/-- The request that a line request makes of a destination. -/
def lineRequest (r : LineRequest) (d : Destination) : Request :=
  { dest := d, task := r.task, op := if r.data.isSome then 2 else 1, addr := r.addr, len := lineSize r, issued := 0, data := r.data.getD [],
    upset := r.upset }

/-- The block in which a line request is made: the link errors of its transfer are counted. -/
def Block.linked (b : Block) (d : Destination) (r : LineRequest) : Block := b.countLink d r.data.isSome r.linkCe

theorem exec_homeRequest (hd : homeDest r.addr = some d) (hholds : s.block.holds r.addr = true) (hshape : homeShape r.addr (lineSize r) = true) :
    exec (.homeRequest h r) s = .next { s with block := (s.block.linked d r).grant h (lineRequest r d) } := by
  refine next_of_act (show exec (.homeRequest h r) s = execHomeRequest h r s from rfl) ?_
  simp only [hd]
  exact (if_pos ⟨hholds, hshape⟩).trans (HomeDest.issue (r := lineRequest r d) (homeDest_home hd) _ h)

theorem exec_homeRequest_granted (hd : homeDest r.addr = some d) (hholds : s.block.holds r.addr = true)
    (hshape : homeShape r.addr (lineSize r) = true) (hg : Grants s.block h d i) :
    exec (.homeRequest h r) s = .next { s with block := (s.block.linked d r).launchHome h i (lineRequest r d) } := by
  have hgrant : (s.block.linked d r).grant h (lineRequest r d) = (s.block.linked d r).launch h i (lineRequest r d) :=
    Grants.grant (r := lineRequest r d) (hg.countLink d _ _)
  rw [exec_homeRequest hd hholds hshape, hgrant, HomeDest.launch (r := lineRequest r d) (homeDest_home hd)]

theorem homeRequest_reads (hd : homeDest r.addr = some d) (hholds : s.block.holds r.addr = true) (hdata : r.data = none)
    (hshape : homeShape r.addr r.len = true) (hhome : homeOf r.addr = h) (hue : r.upset ≠ .uncorrectable) (hparity : r.upset ≠ .parity)
    (hgood : s.block.firstBad r.addr r.len = none) (hg : Grants s.block h d i) :
    ∃ t q, exec (.homeRequest h r) s = .next t ∧ t.pending = s.pending ∧ tabFind (t.block.tiers h).tags i = some q ∧
      q.data = s.block.bytes r.addr r.len ∧ q.task = r.task ∧ t.block.mem = s.block.mem := by
  have hsize : lineSize r = r.len := by rw [lineSize, hdata]
  have hmemory : ((s.block.linked d r).applyUpset r.addr r.upset).memory = s.block.memory :=
    (Block.applyUpset_memory _ hue _).trans (Block.memory_eq_of_farView (s.block.countLink_keeps d _ _).1)
  have hbytes : ((s.block.linked d r).applyUpset r.addr r.upset).bytes r.addr r.len = s.block.bytes r.addr r.len := by
    simp only [Block.bytes, Block.byte_eq_of_memory hmemory]
  have hfirst : ((s.block.linked d r).applyUpset r.addr r.upset).firstBad r.addr r.len = none := by
    rw [← hgood]
    simp only [Block.firstBad, show ((s.block.linked d r).applyUpset r.addr r.upset).bad = s.block.bad from congrArg Memory.bad hmemory]
  have hserve : (s.block.linked d r).serve (lineRequest r d) =
      .done ((s.block.linked d r).applyUpset r.addr r.upset) (s.block.bytes r.addr r.len) := by
    simp [Block.serve, lineRequest, hdata, hparity, hsize, hfirst, hbytes]
  obtain ⟨htag, -, hmem, -⟩ := Block.launchHome_serves hhome hserve i
  exact ⟨_, _, exec_homeRequest_granted hd hholds (hsize ▸ hshape) hg, rfl, htag, rfl, rfl, Block.mem_eq_of_memory (hmem.trans hmemory)⟩

theorem homeRequest_writes {l : List Byte} (hd : homeDest r.addr = some d) (hholds : s.block.holds r.addr = true) (hdata : r.data = some l)
    (hshape : homeShape r.addr l.length = true) (hhome : homeOf r.addr = h) (hu : r.upset = .none)
    (hhits : s.block.badHits (rangeCells r.addr l) = []) (hg : Grants s.block h d i) :
    ∃ t q, exec (.homeRequest h r) s = .next t ∧ t.pending = s.pending ∧ tabFind (t.block.tiers h).tags i = some q ∧
      (∀ j, j < l.length → t.block.byte (r.addr + j) = l.getD j 0) ∧
      (∀ a, a < r.addr ∨ r.addr + l.length ≤ a → t.block.byte a = s.block.byte a) ∧
      (∀ a, a ≠ bayReg .a 0x10 → a ≠ bayReg .b 0x10 → t.block.reg a = s.block.reg a) := by
  have hsize : lineSize r = l.length := by rw [lineSize, hdata]
  obtain ⟨hview, -, hreg⟩ := s.block.countLink_keeps d r.data.isSome r.linkCe
  have hmemory := Block.memory_eq_of_farView hview
  have hhits' : (s.block.linked d r).badHits (rangeCells r.addr l) = [] := (Block.badHits_eq_of_memory hmemory _).trans hhits
  have hserve : (s.block.linked d r).serve (lineRequest r d) = .done ((s.block.linked d r).landCells (rangeCells r.addr l)).1 [] := by
    have hstop := Block.landCells_stop hhits'
    rw [rangeCells] at hstop
    simp [Block.serve, lineRequest, hdata, hu, Block.applyUpset, hstop, rangeCells]
  obtain ⟨htag, -, hmem, hregs⟩ := Block.launchHome_serves hhome hserve i
  have hbyte (a : Nat) : ((s.block.linked d r).launchHome h i (lineRequest r d)).byte a =
      if r.addr ≤ a ∧ a < r.addr + l.length then l.getD (a - r.addr) 0 else s.block.byte a := by
    rw [Block.byte_eq_of_memory hmem, Block.landRange_byte hhits', Block.linked, Block.byte_eq_of_memory hmemory]
  refine ⟨_, _, exec_homeRequest_granted hd hholds (hsize ▸ hshape) hg, rfl, htag, fun j hj => ?_, fun a ha => ?_, fun a ha hb => ?_⟩
  · rw [hbyte, if_pos (by omega), Nat.add_sub_cancel_left]
  · rw [hbyte, if_neg (by omega)]
  · rw [Block.reg_eq hregs]
    exact hreg a ha hb

/-- What the answer to a crossing request names is told by registers and graphs. -/
theorem Block.send_names {b c : Block} (hregs : c.regs = b.regs) (htables : c.tables = b.tables) (h : HalfId) {q q' : Request}
    (hq : q'.task = q.task) : c.endpoint h = b.endpoint h ∧ c.requestJob q' = b.requestJob q := by
  constructor
  · simp only [Block.endpoint, Block.regFld, Block.reg_eq hregs]
  · simp only [Block.requestJob, hq, Block.graph_eq_of_tables htables]

/-- A request that crosses the Isthmus and met no upset leaves as a packet of the half that holds its tag (R15). -/
theorem Block.cross_of_none (b : Block) (h : HalfId) (i : Nat) {q : Request} (hu : q.upset = .none) :
    b.cross h i q = (b.holdTag h i q).send h ((b.holdTag h i q).endpoint (otherHalf h))
      ((b.holdTag h i q).requestJob { q with issued := b.tide h }) 0 q.op i q.addr 0 (if q.op = 1 then leBytes 8 q.len else q.data) := by
  obtain ⟨-, -, -, hregs, htables⟩ := b.holdTag_keeps h i q
  obtain ⟨hendpoint, hjob⟩ := Block.send_names hregs htables (otherHalf h) (q := q) (q' := { q with issued := b.tide h }) rfl
  rw [Block.cross, hendpoint, hjob, hu]
  rfl

theorem homeRequest_crosses {l : List Byte} (hd : homeDest r.addr = some d) (hholds : s.block.holds r.addr = true)
    (hl : l = r.data.getD []) (hshape : homeShape r.addr (if r.data.isSome then l.length else r.len) = true) (hhome : homeOf r.addr ≠ h)
    (hu : r.upset = .none) (hg : Grants s.block h d i) :
    ∃ (t : State) (y : Block) (q : Request), exec (.homeRequest h r) s = .next t ∧ t.pending = s.pending ∧
      tabFind (y.tiers h).tags i = some q ∧ q.dest = d ∧ q.addr = r.addr ∧ y.mem = s.block.mem ∧
      t.block = y.send h (y.endpoint (otherHalf h)) (y.requestJob q) 0 (if r.data.isSome then 2 else 1) i r.addr 0
        (if r.data.isSome then l else leBytes 8 r.len) := by
  subst hl
  have hsize : lineSize r = if r.data.isSome then (r.data.getD []).length else r.len := by
    cases hdata : r.data <;> simp [lineSize, hdata]
  have hpayload : (if (lineRequest r d).op = 1 then leBytes 8 (lineRequest r d).len else (lineRequest r d).data) =
      if r.data.isSome then r.data.getD [] else leBytes 8 r.len := by
    cases hdata : r.data <;> simp [lineRequest, lineSize, hdata]
  obtain ⟨htag, -, hmem, -⟩ := (s.block.linked d r).holdTag_keeps h i (lineRequest r d)
  have hpacket := Block.cross_of_none (s.block.linked d r) h i (q := lineRequest r d) hu
  have hparity : (lineRequest r d).upset ≠ .parity := by simp [lineRequest, hu]
  refine ⟨_, (s.block.linked d r).holdTag h i (lineRequest r d), _, exec_homeRequest_granted hd hholds (hsize ▸ hshape) hg, rfl, htag, rfl, rfl,
    ?_, ?_⟩
  · rw [Block.mem_eq_of_memory hmem]
    exact Block.mem_eq_of_farView (s.block.countLink_keeps d _ _).1
  · rw [hpayload] at hpacket
    exact (Block.launchHome_crosses hhome hparity).trans hpacket

/-- A request to a destination that holds it back waits in its place. -/
theorem homeRequest_waits (hd : homeDest r.addr = some d) (hholds : s.block.holds r.addr = true) (hdata : r.data = none)
    (hshape : homeShape r.addr r.len = true) (hb : HoldsBack s.block h d) :
    ∃ t q, exec (.homeRequest h r) s = .next t ∧ (t.block.tiers h).waiting = (s.block.tiers h).waiting ++ [q] ∧ q.dest = d ∧
      q.addr = r.addr ∧ (t.block.tiers h).tags = (s.block.tiers h).tags ∧ t.block.mem = s.block.mem := by
  have hsize : lineSize r = r.len := by rw [lineSize, hdata]
  obtain ⟨y, hgrant, hy⟩ := HoldsBack.grant (r := lineRequest r d) (hb.countLink d r.data.isSome r.linkCe)
  have hview : y.farView = s.block.farView := hy.trans (s.block.countLink_keeps d _ _).1
  have htiers : (y.await h (lineRequest r d)).tiers h = { s.block.tiers h with waiting := (s.block.tiers h).waiting ++ [lineRequest r d] } := by
    rw [Block.await, Block.tiers_modTiers, if_pos rfl, Block.tiers_eq_of_farView hview]
  refine ⟨{ s with block := y.await h (lineRequest r d) }, lineRequest r d, ?_, ?_, rfl, rfl, ?_, ?_⟩
  · rw [exec_homeRequest hd hholds (hsize ▸ hshape), Block.linked, hgrant]
  · rw [htiers]
  · rw [htiers]
  · exact (Block.mem_eq_of_memory (y.modTiers_memory h _)).trans (Block.mem_eq_of_farView hview)
end

/-! ## Memory-side adders (R226) -/

theorem leNat_leBytes (n x : Nat) : leNat (leBytes n x) = x % 256 ^ n := by
  induction n generalizing x with
  | zero => simp [leBytes, leNat, Nat.mod_one]
  | succ n ih =>
    have hpow : 256 ^ (n + 1) = 256 * 256 ^ n := by rw [Nat.pow_succ, Nat.mul_comm]
    rw [leBytes, leNat, ih, BitVec.toNat_ofNat, hpow, Nat.mod_mul]

theorem adderList_length (op fmt eb : Nat) (old x : List Byte) (n : Nat) : (adderList op fmt eb old x n).length = n * eb := by
  induction n generalizing old x with
  | zero => simp [adderList]
  | succ n ih => rw [adderList, List.length_append, leBytes_length, ih, Nat.add_mul, Nat.one_mul, Nat.add_comm]

section
variable {s : State} {h : HalfId} {r : AddRequest} {d : Destination} {i eb : Nat}

/-- What a well-formed adder request is of. -/
theorem adderOk_bounds {addr op fmt n : Nat} (hok : adderOk addr op fmt n = true) (heb : adderBytes fmt = some eb) :
    op < 3 ∧ fmt < 12 ∧ n % eb = 0 := by
  simp only [adderOk, heb, Bool.and_eq_true, decide_eq_true_eq] at hok
  obtain ⟨⟨⟨⟨⟨hop, -⟩, -⟩, hwhole⟩, -⟩, -⟩ := hok
  refine ⟨hop, ?_, hwhole⟩
  unfold adderBytes at heb
  split at heb
  · decide
  · decide
  · decide
  · decide
  · cases heb

/-- The request that an adder request makes of a destination: its word, then its elements (R318). -/
def addRequest (r : AddRequest) (d : Destination) : Request :=
  { dest := d, task := r.task, op := 3, addr := r.addr, len := r.data.length, issued := 0, data := leBytes 8 (r.op + r.format * 256) ++ r.data,
    upset := r.upset }

theorem exec_memoryAdd_granted (hd : homeDest r.addr = some d) (hholds : s.block.holds r.addr = true) (htier : tierOf r.addr ≠ 0)
    (hok : adderOk r.addr r.op r.format r.data.length = true) (hg : Grants s.block h d i) :
    exec (.memoryAdd h r) s = .next { s with block := s.block.launchHome h i (addRequest r d) } := by
  refine next_of_act (show exec (.memoryAdd h r) s = execMemoryAdd h r s from rfl) ?_
  have hhome : HomeDest (addRequest r d).dest := homeDest_home hd
  have hgrant : s.block.grant h (addRequest r d) = s.block.launch h i (addRequest r d) := Grants.grant hg
  simp only [hd]
  rw [if_pos ⟨hholds, htier, hok⟩, ← hhome.launch, ← hgrant]
  exact hhome.issue _ h

/-- An adder request at its controller: each element is combined in its place. -/
theorem Block.serve_adds {b : Block} (hok : adderOk r.addr r.op r.format r.data.length = true) (heb : adderBytes r.format = some eb)
    (hue : r.upset ≠ .uncorrectable) (hparity : r.upset ≠ .parity) (hgood : b.firstBad r.addr r.data.length = none) :
    b.serve (addRequest r d) = .done ((b.applyUpset r.addr r.upset).store r.addr
      (adderList r.op r.format eb (b.bytes r.addr r.data.length) r.data (r.data.length / eb))) [] := by
  obtain ⟨hop, hfmt, -⟩ := adderOk_bounds hok heb
  have hmemory := b.applyUpset_memory hue r.addr
  have hfirst : (b.applyUpset r.addr r.upset).firstBad r.addr r.data.length = none := by
    rw [← hgood]
    simp only [Block.firstBad, show (b.applyUpset r.addr r.upset).bad = b.bad from congrArg Memory.bad hmemory]
  have hbytes : (b.applyUpset r.addr r.upset).bytes r.addr r.data.length = b.bytes r.addr r.data.length := by
    simp only [Block.bytes, Block.byte_eq_of_memory hmemory]
  have hword : leNat ((leBytes 8 (r.op + r.format * 256) ++ r.data).take 8) = r.op + r.format * 256 := by
    rw [List.take_left' (leBytes_length _ _), leNat_leBytes]
    exact Nat.mod_eq_of_lt (by omega)
  have hdrop : (leBytes 8 (r.op + r.format * 256) ++ r.data).drop 8 = r.data := List.drop_left' (leBytes_length _ _)
  have hop' : bits (r.op + r.format * 256) 1 0 = r.op := by simp only [bits, Nat.shiftRight_zero]; omega
  have hfmt' : bits (r.op + r.format * 256) 12 8 = r.format := by simp only [bits, Nat.shiftRight_eq_div_pow]; omega
  have hthree : (3 : Nat) ≠ 1 ∧ (3 : Nat) ≠ 2 := by decide
  simp only [Block.serve, addRequest, hparity, if_false, hthree, hword, hdrop, hop', hfmt', hfirst, hbytes, heb, Option.getD_some]

theorem memoryAdd_combines (hd : homeDest r.addr = some d) (hholds : s.block.holds r.addr = true) (htier : tierOf r.addr ≠ 0)
    (hhome : homeOf r.addr = h) (hok : adderOk r.addr r.op r.format r.data.length = true) (heb : adderBytes r.format = some eb)
    (hue : r.upset ≠ .uncorrectable) (hparity : r.upset ≠ .parity) (hgood : s.block.firstBad r.addr r.data.length = none)
    (hg : Grants s.block h d i) :
    ∃ t q, exec (.memoryAdd h r) s = .next t ∧ t.pending = s.pending ∧ tabFind (t.block.tiers h).tags i = some q ∧
      (∀ j, j < r.data.length → t.block.byte (r.addr + j) =
        (adderList r.op r.format eb (s.block.bytes r.addr r.data.length) r.data (r.data.length / eb)).getD j 0) ∧
      (∀ a, a < r.addr ∨ r.addr + r.data.length ≤ a → t.block.byte a = s.block.byte a) := by
  obtain ⟨-, -, hwhole⟩ := adderOk_bounds hok heb
  obtain ⟨htag, -, hmem, -⟩ := Block.launchHome_serves hhome (Block.serve_adds (d := d) hok heb hue hparity hgood) i
  have hlength : (adderList r.op r.format eb (s.block.bytes r.addr r.data.length) r.data (r.data.length / eb)).length = r.data.length := by
    rw [adderList_length, Nat.div_mul_cancel (Nat.dvd_of_mod_eq_zero hwhole)]
  have hbyte (a : Nat) : (s.block.launchHome h i (addRequest r d)).byte a = if r.addr ≤ a ∧ a < r.addr + r.data.length then
      (adderList r.op r.format eb (s.block.bytes r.addr r.data.length) r.data (r.data.length / eb)).getD (a - r.addr) 0 else s.block.byte a := by
    rw [Block.byte_eq_of_memory hmem, Block.store_byte, hlength, Block.byte_eq_of_memory (s.block.applyUpset_memory hue _)]
  refine ⟨_, _, exec_memoryAdd_granted hd hholds htier hok hg, rfl, htag, fun j hj => ?_, fun a ha => ?_⟩
  · rw [hbyte, if_pos (by omega), Nat.add_sub_cancel_left]
  · rw [hbyte, if_neg (by omega)]
end

/-! ## Tags granted to requests that wait (R225) -/

section
variable {s : State} {h : HalfId} {d : Destination} {r : Request} {i : Nat}

/-- A half's requests without one that waited. -/
def Block.unwait (b : Block) (h : HalfId) (r : Request) : Block := b.modTiers h (fun x => { x with waiting := x.waiting.erase r })

theorem Block.unwait_tiers (b : Block) (h : HalfId) (r : Request) :
    (b.unwait h r).tiers h = { b.tiers h with waiting := (b.tiers h).waiting.erase r } := by
  rw [Block.unwait, Block.tiers_modTiers, if_pos rfl]

theorem exec_tagGrant (hfind : (s.block.tiers h).waiting.find? (fun r => r.dest = d) = some r) (hmay : s.block.mayIssue h r = true)
    (hcap : (s.block.tiers h).tagsAt d < s.block.regFld (tierReg h 0x18) 12 0) (hserves : s.block.destServes d = true)
    (hfree : (s.block.tiers h).freeTag = some i) :
    exec (.tagGrant h d) s = .next { s with block := (s.block.unwait h r).launch h i r } := by
  refine next_of_act (show exec (.tagGrant h d) s = execTagGrant h d s from rfl) ?_
  simp only [hfind, hmay, hserves, hfree, not_true, if_false, Nat.not_le.mpr hcap, or_self]
  rfl

theorem homeDest_or_far (d : Destination) : HomeDest d ∨ (∃ e, d = .endpoint e) ∨ d = .mainland := by
  cases d with
  | cove n => exact .inl (.inl ⟨n, rfl⟩)
  | shelf x ch => exact .inl (.inr (.inl ⟨x, ch, rfl⟩))
  | bay x ch => exact .inl (.inr (.inr ⟨x, ch, rfl⟩))
  | endpoint e => exact .inr (.inl ⟨e, rfl⟩)
  | mainland => exact .inr (.inr rfl)

/-- A request that goes out of the half, to a lender, to the host or across the Isthmus, is one that is held and a packet or a read that
leaves. -/
theorem Block.launch_out (b : Block) (hout : r.dest = .mainland ∨ (∃ e, r.dest = .endpoint e) ∨ homeOf r.addr ≠ h ∧ r.upset ≠ .parity)
    (i : Nat) : ∃ c : Block, c.tiers = b.tiers ∧ c.tide = b.tide ∧ c.mem = b.mem ∧ (b.launch h i r).farView = (c.holdTag h i r).farView := by
  obtain hd | ⟨e, he⟩ | hm := homeDest_or_far r.dest
  · obtain ⟨htiers, htide, hmem⟩ := b.applyUpset_keeps r.addr r.upset
    have hcross : homeOf r.addr ≠ h ∧ r.upset ≠ .parity := by
      obtain ⟨n, hn⟩ | ⟨x, ch, hn⟩ | ⟨x, ch, hn⟩ := hd <;> simpa [hn] using hout
    refine ⟨b.applyUpset r.addr r.upset, htiers, htide, hmem, ?_⟩
    rw [hd.launch, Block.launchHome_crosses hcross.1 hcross.2]
    exact Block.send_farView _ _ _ _ _ _ _ _ _ _
  · refine ⟨b, rfl, rfl, rfl, ?_⟩
    simp only [Block.launch, he]
    exact Block.send_farView _ _ _ _ _ _ _ _ _ _
  · refine ⟨b, rfl, rfl, rfl, ?_⟩
    simp only [Block.launch, hm]
    exact Block.emit_farView _ _

theorem Block.launch_leaves (b : Block) (hout : r.dest = .mainland ∨ (∃ e, r.dest = .endpoint e) ∨ homeOf r.addr ≠ h ∧ r.upset ≠ .parity)
    (i : Nat) : tabFind ((b.launch h i r).tiers h).tags i = some { r with issued := b.tide h } ∧
      ((b.launch h i r).tiers h).waiting = (b.tiers h).waiting ∧ (b.launch h i r).mem = b.mem := by
  obtain ⟨c, htiers, htide, hmem, hview⟩ := b.launch_out hout i
  obtain ⟨htag, hwaiting, hmemory, -⟩ := c.holdTag_keeps h i r
  rw [Block.tiers_eq_of_farView hview, Block.mem_eq_of_farView hview, Block.mem_eq_of_memory hmemory, htag, hwaiting, htiers, htide]
  exact ⟨rfl, rfl, hmem⟩

theorem dest_of_find {l : List Request} (hfind : l.find? (fun r => r.dest = d) = some r) : r.dest = d := by
  simpa using List.find?_some hfind

theorem tagGrant_issues (hfind : (s.block.tiers h).waiting.find? (fun r => r.dest = d) = some r) (hmay : s.block.mayIssue h r = true)
    (hcap : (s.block.tiers h).tagsAt d < s.block.regFld (tierReg h 0x18) 12 0) (hserves : s.block.destServes d = true)
    (hfree : (s.block.tiers h).freeTag = some i) (hout : d = .mainland ∨ (∃ e, d = .endpoint e) ∨ homeOf r.addr ≠ h ∧ r.upset ≠ .parity) :
    ∃ t q, exec (.tagGrant h d) s = .next t ∧ t.pending = s.pending ∧ tabFind (t.block.tiers h).tags i = some q ∧
      q.addr = r.addr ∧ q.issued = s.block.tide h ∧ (t.block.tiers h).waiting = (s.block.tiers h).waiting.erase r ∧
      t.block.mem = s.block.mem := by
  obtain rfl := dest_of_find hfind
  obtain ⟨htag, hwaiting, hmem⟩ := (s.block.unwait h r).launch_leaves hout i
  refine ⟨_, _, exec_tagGrant hfind hmay hcap hserves hfree, rfl, htag, rfl, s.block.modTiers_tide h _ h, ?_, ?_⟩
  · rw [hwaiting, Block.unwait_tiers]
  · rw [hmem]
    exact Block.mem_eq_of_memory (s.block.modTiers_memory h _)

theorem tagGrant_serves {y : Block} {l : List Byte} (hfind : (s.block.tiers h).waiting.find? (fun r => r.dest = d) = some r)
    (hd : HomeDest d) (hcap : (s.block.tiers h).tagsAt d < s.block.regFld (tierReg h 0x18) 12 0) (hserves : s.block.destServes d = true)
    (hfree : (s.block.tiers h).freeTag = some i) (hhome : homeOf r.addr = h) (hserve : (s.block.unwait h r).serve r = .done y l) :
    ∃ t q, exec (.tagGrant h d) s = .next t ∧ t.pending = s.pending ∧ t.block.mem = y.mem ∧ tabFind (t.block.tiers h).tags i = some q ∧
      q.data = l ∧ q.addr = r.addr ∧ q.issued = s.block.tide h ∧ (t.block.tiers h).waiting = (s.block.tiers h).waiting.erase r := by
  obtain rfl := dest_of_find hfind
  obtain ⟨htag, hwaiting, hmem, -⟩ := Block.launchHome_serves hhome hserve i
  have hstep := exec_tagGrant hfind (hd.mayIssue _ h) hcap hserves hfree
  rw [hd.launch] at hstep
  refine ⟨_, _, hstep, rfl, Block.mem_eq_of_memory hmem, htag, rfl, rfl, s.block.modTiers_tide h _ h, ?_⟩
  rw [hwaiting, Block.unwait_tiers]
end

/-! ## Responses and deadlines (R216, R228, R410) -/

section
variable {s : State} {h : HalfId} {tag st : Nat} {l : List Byte} {r : Request} {k : TaskRef} {g : Graph} {c : TaskCtx}

theorem exec_requestResponse (htag : tabFind (s.block.tiers h).tags tag = some r) :
    exec (.requestResponse h tag st l) s = .next { s with block := s.block.completeRequest h tag st l } := by
  refine next_of_act (show exec (.requestResponse h tag st l) s = execRequestResponse h tag st l s from rfl) ?_
  simp only [htag]

/-- Bytes that reach a task are its far bytes at their addresses. -/
theorem Block.deliverFar_task {b : Block} (hc : b.task k = some c) (a : Nat) (m : List Byte) :
    ∃ d, (b.deliverFar k a m).task k = some d ∧ ∀ j, j < m.length → tabFind d.farBuf (a + j) = some (m.getD j 0) := by
  refine ⟨_, Block.modTask_task hc _, fun j hj => ?_⟩
  rw [tabFind_foldl_tabPut, if_pos (by omega), Nat.add_sub_cancel_left]

/-- A response to a request that the half's own controller served gives the task the bytes it came to. -/
theorem requestResponse_delivers (htag : tabFind (s.block.tiers h).tags tag = some r) (htask : r.task = some k) (hd : HomeDest r.dest)
    (hhome : homeOf r.addr = h) (hc : s.block.task k = some c) :
    ∃ t d, exec (.requestResponse h tag st l) s = .next t ∧ t.pending = s.pending ∧ tabFind (t.block.tiers h).tags tag = none ∧
      t.block.task k = some d ∧ (∀ j, j < r.data.length → tabFind d.farBuf (r.addr + j) = some (r.data.getD j 0)) ∧
      t.block.mem = s.block.mem := by
  have heq : s.block.completeRequest h tag st l = (s.block.returnTag h tag).deliverFar k r.addr r.data := by
    obtain ⟨n, hn⟩ | ⟨x, ch, hn⟩ | ⟨x, ch, hn⟩ := hd <;>
      simp only [Block.completeRequest, htag, htask, hn, Block.homeAnswered, hhome, if_true, Block.returnTag]
  have hbefore : (s.block.returnTag h tag).task k = some c := (Block.task_eq_of_tables (s.block.modTiers_tables h _) k).trans hc
  obtain ⟨d, hd', hbytes⟩ := Block.deliverFar_task hbefore r.addr r.data
  refine ⟨_, d, exec_requestResponse htag, rfl, ?_, ?_, hbytes, ?_⟩
  · rw [heq, Block.deliverFar, Block.modTask_tiers, Block.returnTag_tags]
  · rw [heq, hd']
  · rw [heq, Block.deliverFar, Block.mem_eq_of_memory (Block.modTask_memory _ _ _)]
    exact Block.mem_eq_of_memory (s.block.modTiers_memory h _)

/-- A task that fails once its request's tag has returned ends with that status. -/
theorem Block.returnTag_fail (hc : s.block.task k = some c) (hphase : c.phase = .running) (st detail : Nat) :
    Ended ((s.block.returnTag h tag).fail k st detail) k st := by
  refine Heads.fail ?_ detail
  exact ⟨c, (Block.task_eq_of_tables (s.block.modTiers_tables h _) k).trans hc, .inl (.inr (.inr hphase))⟩

/-- An error response of a lender ends the task alone. -/
theorem requestResponse_fails {e : Nat} (htag : tabFind (s.block.tiers h).tags tag = some r) (htask : r.task = some k)
    (hdest : r.dest = .endpoint e) (hnotOk : st ≠ stOk) (hnotQuota : st ≠ stQuota) (hc : s.block.task k = some c) (hphase : c.phase = .running) :
    ∃ t, exec (.requestResponse h tag st l) s = .next t ∧ t.pending = s.pending ∧ Ended t.block k stFarFail := by
  have heq : s.block.completeRequest h tag st l = (s.block.returnTag h tag).fail k stFarFail (tierDetail (farTier r.addr)) := by
    simp only [Block.completeRequest, htag, htask, hdest, hnotOk, if_false, Block.refused, hnotQuota, and_false, Block.returnTag]
  exact ⟨_, exec_requestResponse htag, rfl, heq ▸ Block.returnTag_fail hc hphase _ _⟩

/-- A response to a tag that has returned is counted and changes nothing else of memory. -/
theorem requestResponse_unexpected (htag : tabFind (s.block.tiers h).tags tag = none) :
    ∃ t, exec (.requestResponse h tag st l) s = .next t ∧
      t.block.regFld (pciReg 0x48) 31 16 = min (s.block.regFld (pciReg 0x48) 31 16 + 1) 65535 ∧ t.block.mem = s.block.mem := by
  have hstep : exec (.requestResponse h tag st l) s = .next { s with block := s.block.count (pciReg 0x48) 31 16 1 } := by
    refine next_of_act (show exec (.requestResponse h tag st l) s = execRequestResponse h tag st l s from rfl) ?_
    simp only [htag]
  refine ⟨_, hstep, ?_, s.block.count_mem _ _ _ _⟩
  rw [Block.regFld, Block.count, Block.reg_modReg_same, fld_satAdd_same _ _ _ (by decide), Block.regFld]
  rfl

/-- A far request whose deadline has passed ends its task. -/
theorem farDeadlineExpiry_fails (htag : tabFind (s.block.tiers h).tags tag = some r) (hfar : 3 ≤ farTier r.addr)
    (hlate : r.issued + s.block.regFld (tierReg h 0x10) 26 0 ≤ s.block.tide h) (htask : r.task = some k) (hc : s.block.task k = some c)
    (hphase : c.phase = .running) :
    ∃ t, exec (.farDeadlineExpiry h tag) s = .next t ∧ t.pending = s.pending ∧ Ended t.block k stFarLate := by
  refine ⟨_, next_of_act (show exec (.farDeadlineExpiry h tag) s = execFarDeadlineExpiry h tag s from rfl) rfl, rfl, ?_⟩
  simp only [htag, htask]
  rw [if_pos ⟨hfar, hlate⟩]
  exact Block.returnTag_fail hc hphase _ _
end

/-- Settles O14: each command by the operation of the rule it carries out. -/
theorem requestCommands : Obligations.RequestCommands := by
  unfold Obligations.RequestCommands
  refine ⟨?_, ?_, ?_, ?_, ?_, ?_, ?_, ?_, ?_, ?_, ?_⟩
  · intro s h r d i hd hholds hdata hshape hhome hue hparity hgood hg
    exact homeRequest_reads hd hholds hdata hshape hhome hue hparity hgood hg
  · intro s h r l d i hd hholds hdata hshape hhome hu hhits hg
    exact homeRequest_writes hd hholds hdata hshape hhome hu hhits hg
  · intro s h r l d i hd hholds hl hshape hhome hu hg
    exact homeRequest_crosses hd hholds hl hshape hhome hu hg
  · intro s h r d i eb hd hholds htier hhome hok heb hue hparity hgood hg
    exact memoryAdd_combines hd hholds htier hhome hok heb hue hparity hgood hg
  · intro s h r d hd hholds hdata hshape hb
    exact homeRequest_waits hd hholds hdata hshape hb
  · intro s h d r i hfind hmay hcap hserves hfree hout
    exact tagGrant_issues hfind hmay hcap hserves hfree hout
  · intro s h d r i hfind hd hcap hserves hfree hhome y l hserve
    exact tagGrant_serves hfind hd hcap hserves hfree hhome hserve
  · intro s h tag st l r k c htag htask hd hhome hc
    refine requestResponse_delivers htag htask ?_ hhome hc
    obtain hd | hd | hd := hd
    · exact .inr (.inl hd)
    · exact .inr (.inr hd)
    · exact .inl hd
  · intro s h tag st e l r k g c htag htask hdest hnotOk hnotQuota _ hc hphase
    exact requestResponse_fails htag htask hdest hnotOk hnotQuota hc hphase
  · intro s h tag st l htag
    exact requestResponse_unexpected htag
  · intro s h tag r k g c htag hfar hlate htask _ hc hphase
    exact farDeadlineExpiry_fails htag hfar hlate htask hc hphase

end Sys2Proof.Machine

/-! PROOFS. Refresh, patrol scrub and the traffic generators (spec/09_shelf_and_bay_hardware.md R236, R237, R247-R249, R252): what a row's
refresh, the scrub of a row and a test's run, stop and end change, and from these the statement of this family. -/

namespace Sys2Proof.Machine

/-! ## Refresh (R236) -/

section
variable {s : State} {h : HalfId}

/-- A row's refresh moves the bank's row counter on; data, its errors and the registers stay. -/
theorem refreshDue_advances {ch : Fin 128} {bank : Fin 16} (htrained : s.block.shelfTrained h = true) :
    ∃ t, exec (.refreshDue h ch bank) s = .next t ∧ t.pending = s.pending ∧
      tabGet 0 (t.block.half h).refresh (16 * ch.val + bank.val) = (tabGet 0 (s.block.half h).refresh (16 * ch.val + bank.val) + 1) % 8192 ∧
      t.block.mem = s.block.mem ∧ t.block.bad = s.block.bad ∧ t.block.regs = s.block.regs := by
  refine ⟨_, next_of_act (show exec (.refreshDue h ch bank) s = execRefreshDue h ch bank s from rfl) (if_pos htrained), rfl, ?_,
    Block.modHalf_mem _ _ _, Block.modHalf_bad _ _ _, Block.modHalf_regs _ _ _⟩
  rw [Block.half_modHalf_same]
  exact tabGet_tabSet_same _ _ _ _

/-- 100 ms below its lower bound lower the refresh band by one. -/
theorem refreshBandRelax_lowers {since : Nat} (hband : s.block.regFld (shelfReg h 0) 3 2 ≠ 0)
    (hcool : (s.block.half h).cool.getD (s.block.regFld (shelfReg h 0) 3 2 - 1) none = some since)
    (hlong : since + 100000000 ≤ s.block.sys.upNs) :
    ∃ t, exec (.refreshBandRelax h) s = .next t ∧ t.pending = s.pending ∧
      t.block.regFld (shelfReg h 0) 3 2 = s.block.regFld (shelfReg h 0) 3 2 - 1 ∧
      (∀ a, a ≠ shelfReg h 0 → t.block.reg a = s.block.reg a) ∧ t.block.mem = s.block.mem := by
  have hstep : exec (.refreshBandRelax h) s =
      .next { s with block := s.block.setRegFld (shelfReg h 0) 3 2 (s.block.regFld (shelfReg h 0) 3 2 - 1) } := by
    refine next_of_act (show exec (.refreshBandRelax h) s = execRefreshBandRelax h s from rfl) ?_
    simp only [hband, hcool, hlong, if_true, if_false]
  have hlt : s.block.regFld (shelfReg h 0) 3 2 < 4 := bits_lt _ 3 2
  refine ⟨_, hstep, rfl, ?_, fun a ha => Block.reg_setRegFld_other _ _ _ _ _ _ ha, Block.setRegFld_mem _ _ _ _ _⟩
  rw [Block.regFld_setRegFld_same _ _ _ _ _ (by decide)]
  exact Nat.mod_eq_of_lt (by omega)
end

/-! ## What an error met counts in (R227, R238, R243, R244) -/

/-- The registers in which errors are counted and the channels that they make pending are listed. -/
def errorReg (a : Nat) : Prop :=
  ∃ h, a = tierReg h 0x30 ∨ a = bayReg h 8 ∨ ∃ ch off, ch < 160 ∧ off < 0x100 ∧ a = chanReg h ch off

theorem not_errorReg_shelfReg (h : HalfId) {off : Nat} (hoff : off < 0x100) : ¬ errorReg (shelfReg h off) := by
  rintro ⟨g, htier | hbay | ⟨ch, o, hch, ho, hchan⟩⟩
  · cases h <;> cases g <;> simp only [shelfReg, tierReg, regBase, halfNum] at htier <;> omega
  · cases h <;> cases g <;> simp only [shelfReg, bayReg, regBase, halfNum] at hbay <;> omega
  · cases h <;> cases g <;> simp only [shelfReg, chanReg, regBase, halfNum] at hchan <;> omega

theorem channelOf_lt {a ch : Nat} {h : HalfId} (hc : channelOf a = some (h, ch)) : ch < 160 := by
  have hshelf : shelfChannel a < 128 := Nat.mod_lt _ (by decide)
  have hbay {g : HalfId} {c : Nat} (hr : regionOf a = .bay g c) : c < 32 := by
    simp only [regionOf] at hr
    (repeat' split at hr) <;> cases hr
    exact Nat.mod_lt _ (by decide)
  cases hr : regionOf a with
  | shelf g => simp only [channelOf, hr, Option.some.injEq, Prod.mk.injEq] at hc; omega
  | store g => simp only [channelOf, hr, Option.some.injEq, Prod.mk.injEq] at hc; omega
  | bay g c => have := hbay hr; simp only [channelOf, hr, Option.some.injEq, Prod.mk.injEq] at hc; omega
  | cove _ => simp [channelOf, hr] at hc
  | control => simp [channelOf, hr] at hc
  | hole => simp [channelOf, hr] at hc

section
variable {b : Block} {c ch : Nat} (hc : ¬ errorReg c)
include hc

theorem ne_tierReg_of_not_errorReg (h : HalfId) : c ≠ tierReg h 0x30 := fun e => hc ⟨h, .inl e⟩

theorem ne_bayReg_of_not_errorReg (h : HalfId) : c ≠ bayReg h 8 := fun e => hc ⟨h, .inr (.inl e)⟩

theorem ne_chanReg_of_not_errorReg (h : HalfId) (hch : ch < 160) {off : Nat} (hoff : off < 0x100) : c ≠ chanReg h ch off :=
  fun e => hc ⟨h, .inr (.inr ⟨ch, off, hch, hoff, e⟩)⟩

theorem Block.pendChannel_reg (h : HalfId) (hch : ch < 160) (cause : Nat) : (b.pendChannel h ch cause).reg c = b.reg c := by
  have hstat : (b.setRegFld (chanReg h ch 0x30) 63 62 1).reg c = b.reg c :=
    Block.reg_setRegFld_other _ _ _ _ _ _ (ne_chanReg_of_not_errorReg hc h hch (by decide))
  have hbay := ne_bayReg_of_not_errorReg hc h
  simp only [Block.pendChannel]
  split
  · rfl
  · rw [Block.log_reg]
    split
    · split <;> simp [hstat]
    · rw [Block.setUsable, Block.reg_setRegFld_other _ _ _ _ _ _ hbay, Block.reg_modReg_other _ _ _ _ hbay]
      split <;> simp [hstat]

theorem Block.checkChannel_reg (h : HalfId) (hch : ch < 160) : (b.checkChannel h ch).reg c = b.reg c := by
  have hpend (cause : Nat) := Block.pendChannel_reg (b := b) hc h hch cause
  simp only [Block.checkChannel]
  (repeat' split) <;> simp [hpend]

/-- A channel's two counts of a kind of error, and what their thresholds make of them. -/
theorem Block.countChannel_reg (h : HalfId) (hch : ch < 160) (hi lo : Nat) :
    (((b.count (chanReg h ch 0x28) hi lo 1).count (chanReg h ch 0x38) hi lo 1).checkChannel h ch).reg c = b.reg c := by
  rw [Block.checkChannel_reg hc h hch, Block.count_reg_other _ _ _ _ _ _ (ne_chanReg_of_not_errorReg hc h hch (by decide)),
    Block.count_reg_other _ _ _ _ _ _ (ne_chanReg_of_not_errorReg hc h hch (by decide))]

theorem Block.noteUe_reg (a : Nat) : (b.noteUe a).reg c = b.reg c := by
  have htier : (b.count (tierReg (homeOf a) 0x30) 15 0 1).reg c = b.reg c :=
    Block.count_reg_other _ _ _ _ _ _ (ne_tierReg_of_not_errorReg hc _)
  simp only [Block.noteUe]
  split
  · exact htier
  · next h ch hchan => exact (Block.countChannel_reg hc h (channelOf_lt hchan) _ _).trans htier

theorem Block.noteTierCe_reg (h : HalfId) (tier : Nat) : (b.noteTierCe h tier).reg c = b.reg c := by
  have htier := b.count_reg_other (tierReg h 0x30) (ceLow tier + 15) (ceLow tier) 1 c (ne_tierReg_of_not_errorReg hc h)
  simp only [Block.noteTierCe]
  split <;> simp [htier]

theorem Block.noteCe_reg (a : Nat) : (b.noteCe a).reg c = b.reg c := by
  have htier := Block.noteTierCe_reg (b := b) hc (homeOf a) (tierOf a)
  simp only [Block.noteCe]
  split
  · exact htier
  · next h ch hchan => exact (Block.countChannel_reg hc h (channelOf_lt hchan) _ _).trans htier
end

theorem Block.noteUe_memory (b : Block) (a : Nat) : (b.noteUe a).memory = b.memory := by
  refine Block.memory_eq_of_farView ?_
  simp only [Block.noteUe]
  split <;> simp

/-! ## Patrol scrub (R237) -/

/-- What a scrub read leaves as it was: memory, every register but the counts of errors, and the words known to be uncorrectable. -/
structure ScrubKeeps (b c : Block) : Prop where
  mem : c.mem = b.mem
  reg : ∀ a, ¬ errorReg a → c.reg a = b.reg a
  bad : ∀ a, (tabFind b.bad a).isSome = true → (tabFind c.bad a).isSome = true

section
variable {b c d : Block}

theorem ScrubKeeps.refl (b : Block) : ScrubKeeps b b := ⟨rfl, fun _ _ => rfl, fun _ h => h⟩

theorem ScrubKeeps.trans (h : ScrubKeeps b c) (g : ScrubKeeps c d) : ScrubKeeps b d :=
  ⟨g.mem.trans h.mem, fun a ha => (g.reg a ha).trans (h.reg a ha), fun a ha => g.bad a (h.bad a ha)⟩

theorem ScrubKeeps.of_memory (hm : c.memory = b.memory) (hr : ∀ a, ¬ errorReg a → c.reg a = b.reg a) : ScrubKeeps b c :=
  ⟨Block.mem_eq_of_memory hm, hr, fun a ha => by rwa [show c.bad = b.bad from congrArg Memory.bad hm]⟩

theorem ScrubKeeps.regFld (h : ScrubKeeps b c) {a : Nat} (ha : ¬ errorReg a) (hi lo : Nat) : c.regFld a hi lo = b.regFld a hi lo := by
  rw [Block.regFld, h.reg a ha, Block.regFld]
end

theorem scrubKeeps_scrubBad (b : Block) (h : HalfId) (l : List Nat) : ScrubKeeps b (b.scrubBad h l) := by
  induction l generalizing b with
  | nil => exact .refl b
  | cons a as ih =>
    refine ScrubKeeps.trans (.of_memory ?_ fun c hc => ?_) (ih _)
    · rw [Block.noteUe_memory, Block.log_memory]
    · rw [Block.noteUe_reg hc, Block.log_reg]

theorem scrubKeeps_scrubUpset (b : Block) (a : Nat) (u : Upset) : ScrubKeeps b (b.scrubUpset a u) := by
  cases u with
  | none => exact .refl b
  | parity => exact .refl b
  | corrected =>
    simp only [Block.scrubUpset]
    split
    · exact .refl b
    · exact .of_memory (Block.memory_eq_of_farView (b.noteCe_farView a)) fun c hc => Block.noteCe_reg hc a
  | uncorrectable =>
    refine ⟨rfl, fun _ _ => rfl, fun c hc => ?_⟩
    by_cases hca : c = a
    · subst hca; simp [Block.scrubUpset]
    · simpa [Block.scrubUpset, tabFind_tabPut_other _ _ _ _ hca] using hc

/-- What the reads of a row's words met for the first time, word after word. -/
def Block.scrubUpsets (b : Block) (base : Nat) (l : List (Fin 64 × Upset)) : Block :=
  l.foldl (fun x u => x.scrubUpset (base + 8 * u.1.val) u.2) b

/-- The reads of a row keep what a scrub keeps, and each word they find uncorrectable is remembered. -/
theorem Block.scrubUpsets_found (base : Nat) (l : List (Fin 64 × Upset)) (b : Block) :
    ScrubKeeps b (b.scrubUpsets base l) ∧
      ∀ word, (word, Upset.uncorrectable) ∈ l → (tabFind (b.scrubUpsets base l).bad (base + 8 * word.val)).isSome = true := by
  induction l generalizing b with
  | nil => exact ⟨.refl b, fun _ h => absurd h List.not_mem_nil⟩
  | cons u us ih =>
    obtain ⟨hkeeps, hfound⟩ := ih (b.scrubUpset (base + 8 * u.1.val) u.2)
    refine ⟨(scrubKeeps_scrubUpset b _ _).trans hkeeps, fun word hw => ?_⟩
    rcases List.mem_cons.mp hw with rfl | hw
    · exact hkeeps.bad _ (by simp [Block.scrubUpset])
    · exact hfound word hw

/-- The first address of a row of a half's Shelf, as the scrubber counts them. -/
def scrubRow (h : HalfId) (pos : Nat) : Nat := 0x200000000 + halfNum h * 0x200000000 + pos * 512

/-- The scrub of a row: its reads, then each of its words that are uncorrectable, logged and counted. -/
def Block.scrubReads (b : Block) (base : Nat) (h : HalfId) (l : List (Fin 64 × Upset)) : Block :=
  (b.scrubUpsets base l).scrubBad h
    (((List.range 64).map (fun i => base + 8 * i)).filter (fun x => (tabFind (b.scrubUpsets base l).bad x).isSome))

/-- The scrubber moves on from a row, or ends its pass. -/
def Block.scrubMove (b : Block) (h : HalfId) (pos : Nat) : Block :=
  if pos + 1 < 0x1000000 then b.setRegFld (shelfReg h 0x10) 23 0 (pos + 1)
  else b.setReg (shelfReg h 0x10) (BitVec.ofNat 64 ((b.regFld (shelfReg h 0x10) 63 32 + 1) % 2 ^ 32 * 2 ^ 32))

section
variable (b : Block) (h : HalfId) {pos : Nat}

theorem Block.scrubMove_memory : (b.scrubMove h pos).memory = b.memory := by
  rw [Block.scrubMove]
  split <;> simp

theorem Block.scrubMove_bad : (b.scrubMove h pos).bad = b.bad := congrArg Memory.bad (b.scrubMove_memory h)

theorem Block.scrubMove_next (hpos : pos + 1 < 2 ^ 24) : (b.scrubMove h pos).regFld (shelfReg h 0x10) 23 0 = pos + 1 ∧
    (b.scrubMove h pos).regFld (shelfReg h 0x10) 63 32 = b.regFld (shelfReg h 0x10) 63 32 := by
  rw [Block.scrubMove, if_pos (show pos + 1 < 0x1000000 from hpos)]
  refine ⟨?_, ?_⟩
  · rw [Block.regFld_setRegFld_same _ _ _ _ _ (by decide)]
    exact Nat.mod_eq_of_lt hpos
  · rw [Block.regFld, Block.setRegFld, Block.reg_modReg_same, fld_setFld_other _ _ _ _ _ _ (.inr (by decide)), Block.regFld]

theorem Block.scrubMove_pass (hpos : pos + 1 = 2 ^ 24) : (b.scrubMove h pos).regFld (shelfReg h 0x10) 23 0 = 0 ∧
    (b.scrubMove h pos).regFld (shelfReg h 0x10) 63 32 = (b.regFld (shelfReg h 0x10) 63 32 + 1) % 2 ^ 32 := by
  rw [Block.scrubMove, if_neg (by omega)]
  simp only [Block.regFld, Block.reg_setReg_same, fld_ofNat, bits, Nat.shiftRight_eq_div_pow, Nat.reduceLT]
  omega
end

section
variable {s : State} {h : HalfId} {pos : Nat} {upsets : List (Fin 64 × Upset)}

theorem exec_scrubRead (htrained : s.block.shelfTrained h = true) (hon : s.block.regFld (shelfReg h 8) 32 32 ≠ 0)
    (hslack : s.block.sys.slack ≠ 2) (hwake : s.block.sys.slack ≠ 3) (hpos : s.block.regFld (shelfReg h 0x10) 23 0 = pos) :
    exec (.scrubRead h upsets) s = .next { s with block := (s.block.scrubReads (scrubRow h pos) h upsets).scrubMove h pos } := by
  subst hpos
  exact next_of_act (show exec (.scrubRead h upsets) s = execScrubRead h upsets s from rfl) (if_neg (by simp [htrained, hon, hslack, hwake]))

theorem scrubRead_moves (htrained : s.block.shelfTrained h = true) (hon : s.block.regFld (shelfReg h 8) 32 32 ≠ 0)
    (hslack : s.block.sys.slack ≠ 2) (hwake : s.block.sys.slack ≠ 3) (hpos : s.block.regFld (shelfReg h 0x10) 23 0 = pos) :
    ∃ t, exec (.scrubRead h upsets) s = .next t ∧ t.pending = s.pending ∧ t.block.mem = s.block.mem ∧
      (pos + 1 < 2 ^ 24 → t.block.regFld (shelfReg h 0x10) 23 0 = pos + 1 ∧
        t.block.regFld (shelfReg h 0x10) 63 32 = s.block.regFld (shelfReg h 0x10) 63 32) ∧
      (pos + 1 = 2 ^ 24 → t.block.regFld (shelfReg h 0x10) 23 0 = 0 ∧
        t.block.regFld (shelfReg h 0x10) 63 32 = (s.block.regFld (shelfReg h 0x10) 63 32 + 1) % 2 ^ 32) ∧
      (∀ word, (word, Upset.uncorrectable) ∈ upsets → (tabFind t.block.bad (scrubRow h pos + 8 * word.val)).isSome = true) := by
  obtain ⟨hupsets, hfound⟩ := Block.scrubUpsets_found (scrubRow h pos) upsets s.block
  have hbad : ScrubKeeps _ (s.block.scrubReads (scrubRow h pos) h upsets) := scrubKeeps_scrubBad _ h _
  have hmemory := (s.block.scrubReads (scrubRow h pos) h upsets).scrubMove_memory h (pos := pos)
  rw [← (hupsets.trans hbad).regFld (not_errorReg_shelfReg h (by decide)) 63 32]
  refine ⟨_, exec_scrubRead htrained hon hslack hwake hpos, rfl, (Block.mem_eq_of_memory hmemory).trans (hupsets.trans hbad).mem,
    Block.scrubMove_next _ h, Block.scrubMove_pass _ h, fun word hw => ?_⟩
  rw [Block.scrubMove_bad]
  exact hbad.bad _ (hfound word hw)
end

/-! ## Registers of a traffic generator (R252) -/

section
variable {h : HalfId} {ch : Nat}

theorem chanReg_ne {off off' : Nat} (hne : off ≠ off') : chanReg h ch off ≠ chanReg h ch off' := by
  simp only [chanReg]
  omega

theorem not_mailboxReg_chanReg (hch : ch < 160) {off : Nat} (hoff : off < 0x100) : ¬ mailboxReg (chanReg h ch off) := by
  refine not_mailboxReg_of_lt ?_
  cases h <;> simp only [chanReg, regBase, halfNum, zilReg] <;> omega

theorem Block.testRange_lines (b : Block) : (b.testRange h ch).2 ≤ 0x7C00000 := by
  have hchan : channelLines ch ≤ 0x7C00000 := by
    simp only [channelLines]
    split <;> omega
  simp only [Block.testRange]
  split <;> omega

/-- TG_STAT's state, beside a count of lines and a count of failures. -/
theorem testState_eq {st n m : Nat} (hst : st < 4) (hn : n < 2 ^ 30) (hm : m < 2 ^ 32) :
    fld (BitVec.ofNat 64 (st * 2 ^ 62 + n * 2 ^ 32 + m)) 63 62 = st := by
  rw [fld_ofNat _ _ _ (by decide)]
  simp only [bits, Nat.shiftRight_eq_div_pow]
  omega
end

/-! ## The lines of a channel (R199, R248) -/

/-- No two lines of a channel share a byte. -/
theorem lineAddr_inj {h : HalfId} {ch l m j k : Nat} (hj : j < 64) (hk : k < 64)
    (heq : lineAddr h ch l + j = lineAddr h ch m + k) : l = m := by
  by_cases hshelf : ch < 128
  · have hx : ch ^^^ (l / 8 % 128) < 128 := Nat.xor_lt_two_pow (n := 7) hshelf (by omega)
    have hy : ch ^^^ (m / 8 % 128) < 128 := Nat.xor_lt_two_pow (n := 7) hshelf (by omega)
    simp only [lineAddr, hshelf, if_true] at heq
    have hrow : l / 8 = m / 8 := by omega
    rw [hrow] at heq
    omega
  · simp only [lineAddr, hshelf, if_false] at heq
    omega

theorem patternLine_length (w : Word) (first line : Nat) : (patternLine w first line).length = 64 := by
  simp [patternLine, List.length_flatMap, leBytes_length]

/-- A line stored leaves every byte outside it. -/
theorem Block.store_byte_outside {b : Block} {a y : Nat} {l : List Byte} (hl : l.length = 64) (hy : ∀ j, j < 64 → y ≠ a + j) :
    (b.store a l).byte y = b.byte y := by
  rw [Block.store_byte, hl, if_neg]
  rintro ⟨hle, hlt⟩
  exact hy (y - a) (by omega) (by omega)

theorem Block.byte_foldl {f : Block → Nat → Block} {y : Nat} (l : List Nat) (hf : ∀ z, ∀ i ∈ l, (f z i).byte y = z.byte y) (b : Block) :
    (l.foldl f b).byte y = b.byte y := by
  induction l generalizing b with
  | nil => rfl
  | cons i is ih => rw [List.foldl_cons, ih fun z k hk => hf z k (List.mem_cons_of_mem _ hk), hf b i List.mem_cons_self]

/-- An address that no line of a test's range holds. -/
def Block.OutsideTest (b : Block) (h : HalfId) (ch y : Nat) : Prop :=
  ∀ n, n < (b.testRange h ch).2 → ∀ j, j < 64 → y ≠ lineAddr h ch ((b.testRange h ch).1 + n) + j

theorem Block.OutsideTest.of_reg {b c : Block} {h : HalfId} {ch y : Nat} (hr : c.reg (chanReg h ch 0x10) = b.reg (chanReg h ch 0x10))
    (hy : b.OutsideTest h ch y) : c.OutsideTest h ch y := by
  simpa only [Block.OutsideTest, Block.testRange, hr] using hy

/-! ## A run of a traffic generator (R248) -/

section
variable {s : State} {p : Path} {h : HalfId} {ch : Fin 160} {a : Actor} {x : Block}

theorem exec_tgWriteRead (harr : Arrives s.block p (s.block.testRoles h ch.val 0) a x) :
    exec (.tgWriteRead p h ch) s = .next { s with block := (x.testGo h ch.val 0).leave p } :=
  next_of_act (show exec (.tgWriteRead p h ch) s = execTgWriteRead p h ch s from rfl) (Block.byPath_of_arrives harr _ _)

theorem exec_tgReadSweep (harr : Arrives s.block p (s.block.testRoles h ch.val 1) a x) :
    exec (.tgReadSweep p h ch) s = .next { s with block := (x.testGo h ch.val 1).leave p } :=
  next_of_act (show exec (.tgReadSweep p h ch) s = execTgReadSweep p h ch s from rfl) (Block.byPath_of_arrives harr _ _)

theorem exec_tgStop (harr : Arrives s.block p (s.block.testRoles h ch.val 2) a x) :
    exec (.tgStop p h ch) s = .next { s with block := ((x.stopTest h ch.val).accept).leave p } :=
  next_of_act (show exec (.tgStop p h ch) s = execTgStop p h ch s from rfl) (Block.byPath_of_arrives harr _ _)

/-- The block on which a generator's run has started. -/
def Block.startTest (b : Block) (h : HalfId) (ch mode : Nat) : Block :=
  ((b.setRegFld (chanReg h ch 0) 2 1 mode).setReg (chanReg h ch 0x18) (BitVec.ofNat 64 (2 ^ 62))).setReg (chanReg h ch 0x20) 0

theorem Block.testGo_starts {b : Block} {ch mode : Nat} (hmode : mode = 0 ∧ b.allDisabled = true ∨ mode = 1) :
    b.testGo h ch mode = (b.startTest h ch mode).accept := by
  obtain ⟨rfl, hdisabled⟩ | rfl := hmode
  · simp [Block.testGo, Block.startTest, hdisabled]
  · simp [Block.testGo, Block.startTest]

theorem Block.startTest_regs (b : Block) (h : HalfId) (ch : Nat) {mode : Nat} (hmode : mode < 4) :
    (b.startTest h ch mode).regFld (chanReg h ch 0) 2 1 = mode ∧ (b.startTest h ch mode).regFld (chanReg h ch 0x18) 63 62 = 1 ∧
      (b.startTest h ch mode).reg (chanReg h ch 0x20) = 0 := by
  refine ⟨?_, ?_, Block.reg_setReg_same _ _ _⟩
  · rw [Block.regFld, Block.startTest, Block.reg_setReg_other _ _ _ _ (chanReg_ne (by decide)),
      Block.reg_setReg_other _ _ _ _ (chanReg_ne (by decide)), ← Block.regFld, Block.regFld_setRegFld_same _ _ _ _ _ (by decide)]
    exact Nat.mod_eq_of_lt hmode
  · rw [Block.regFld, Block.startTest, Block.reg_setReg_other _ _ _ _ (chanReg_ne (by decide)), Block.reg_setReg_same]
    decide

theorem Block.startTest_memory (b : Block) (h : HalfId) (ch mode : Nat) : (b.startTest h ch mode).memory = b.memory := by
  simp [Block.startTest]

/-- A request that a generator run is let in by starts it and is answered with ST_OK. -/
theorem testGo_answers {i : Instr} {mode : Nat} (harr : Arrives s.block p (s.block.testRoles h ch.val mode) a x)
    (hstep : exec i s = .next { s with block := (x.testGo h ch.val mode).leave p })
    (hmode : mode = 0 ∧ s.block.allDisabled = true ∨ mode = 1) :
    ∃ t, exec i s = .next t ∧ t.pending = s.pending ∧ t.block.regFld (chanReg h ch.val 0) 2 1 = mode ∧
      t.block.regFld (chanReg h ch.val 0x18) 63 62 = 1 ∧ t.block.reg (chanReg h ch.val 0x20) = 0 ∧ t.block.mem = s.block.mem ∧
      Answers t.block p stOk := by
  have hslots : x.allDisabled = s.block.allDisabled := by
    obtain ⟨z, rfl⟩ := harr.eq_setZilsy
    rfl
  have hleave {off : Nat} (hoff : off < 0x100) := Answer.leave_reg (x.startTest h ch.val mode).accept p _
    (not_mailboxReg_chanReg (h := h) ch.isLt hoff)
  obtain ⟨hctrl, hstat, hfail⟩ := x.startTest_regs h ch.val (mode := mode) (by omega)
  rw [Block.testGo_starts (hslots ▸ hmode)] at hstep
  refine ⟨_, hstep, rfl, ?_, ?_, ?_, ?_, Answer.answers_leave _ p rfl⟩
  · rw [Block.regFld, hleave (by decide)]
    exact hctrl
  · rw [Block.regFld, hleave (by decide)]
    exact hstat
  · rw [hleave (by decide)]
    exact hfail
  · rw [Block.mem_eq_of_farView (Answer.leave_farView _ p), ← Block.mem_eq_of_farView (harr.farView _)]
    exact Block.mem_eq_of_memory (x.startTest_memory h ch.val mode)
end

/-! ## A run stopped (R252) -/

theorem Block.freshList_memory (b : Block) (n : Nat) : (b.freshList n).2.memory = b.memory := by
  induction n generalizing b with
  | zero => rfl
  | succ n ih => exact (ih b.fresh.2).trans b.fresh_memory

theorem Block.freshList_length (b : Block) (n : Nat) : (b.freshList n).1.length = n := by
  induction n generalizing b with
  | zero => rfl
  | succ n ih => simp [Block.freshList, ih]

section
variable {b : Block} {h : HalfId} {ch : Nat}

/-- A generator that does not run is stopped already. -/
theorem Block.stopTest_idle (hidle : b.regFld (chanReg h ch 0x18) 63 62 ≠ 1) : b.stopTest h ch = b := if_pos hidle

/-- What a stopped write test leaves in a line of its range: free values. -/
def Block.stopLine (b : Block) (h : HalfId) (ch first i : Nat) : Block :=
  (b.freshList 64).2.store (lineAddr h ch (first + i)) ((b.freshList 64).1.map (fun n => BitVec.ofNat 8 n))

theorem Block.stopLine_byte {first i y : Nat} (hy : ∀ j, j < 64 → y ≠ lineAddr h ch (first + i) + j) :
    (b.stopLine h ch first i).byte y = b.byte y := by
  rw [Block.stopLine, Block.store_byte_outside (by rw [List.length_map, Block.freshList_length]) hy]
  exact Block.byte_eq_of_memory (b.freshList_memory 64) y

theorem Block.stopLine_regs (b : Block) (first i : Nat) : (b.stopLine h ch first i).regs = b.regs :=
  (Block.store_regs _ _ _).trans (b.freshList_keeps 64).1

/-- A running test that stops reports as stopped with its counts, and a write test leaves free values in its lines. -/
theorem Block.stopTest_cases (hrun : b.regFld (chanReg h ch 0x18) 63 62 = 1) :
    ∃ y n m, y.memory = b.memory ∧ n < 2 ^ 30 ∧ m < 2 ^ 32 ∧ y.reg (chanReg h ch 0x18) = BitVec.ofNat 64 (3 * 2 ^ 62 + n * 2 ^ 32 + m) ∧
      (b.stopTest h ch = y ∨
        b.stopTest h ch = (List.range (b.testRange h ch).2).foldl (fun z i => z.stopLine h ch (b.testRange h ch).1 i) y) := by
  rw [Block.stopTest, if_neg (by simp [hrun])]
  extract_lets r u v w done b0 b1
  have hlines : r.2 ≤ 0x7C00000 := b.testRange_lines
  have hdone : done < r.2 + 1 := Nat.mod_lt _ (Nat.succ_pos _)
  have hcount : v.1 % (done + 1) < done + 1 := Nat.mod_lt _ (Nat.succ_pos _)
  refine ⟨b1, done, v.1 % (done + 1), ?_, by omega, by omega, ?_, ?_⟩
  · simp only [b1]
    split <;> simp [b0, w, v, u]
  · simp only [b1]
    split
    · exact Block.reg_setReg_same _ _ _
    · rw [Block.reg_setReg_other _ _ _ _ (chanReg_ne (by decide))]
      exact Block.reg_setReg_same _ _ _
  · split
    · exact .inl rfl
    · exact .inr rfl

theorem Block.stopTest_state (hrun : b.regFld (chanReg h ch 0x18) 63 62 = 1) :
    (b.stopTest h ch).regFld (chanReg h ch 0x18) 63 62 = 3 := by
  obtain ⟨y, n, m, -, hn, hm, hreg, hstop⟩ := Block.stopTest_cases hrun
  have hstate : y.regFld (chanReg h ch 0x18) 63 62 = 3 := by rw [Block.regFld, hreg, testState_eq (by decide) hn hm]
  obtain hstop | hstop := hstop
  · rw [hstop, hstate]
  · rw [hstop, ← hstate, Block.regFld, Block.reg_eq (Block.regs_foldl _ (fun z i => z.stopLine_regs _ i) _ y), Block.regFld]

/-- A stop leaves every byte outside the test's range. -/
theorem Block.stopTest_byte {y : Nat} (hy : b.OutsideTest h ch y) :
    (b.stopTest h ch).byte y = b.byte y := by
  by_cases hrun : b.regFld (chanReg h ch 0x18) 63 62 = 1
  · obtain ⟨c, n, m, hmemory, -, -, -, hstop | hstop⟩ := Block.stopTest_cases hrun
    · rw [hstop, Block.byte_eq_of_memory hmemory]
    · rw [hstop, ← Block.byte_eq_of_memory hmemory]
      exact Block.byte_foldl _ (fun z i hi => Block.stopLine_byte (hy i (List.mem_range.mp hi))) c
  · rw [Block.stopTest_idle hrun]
end

section
variable {s : State} {p : Path} {h : HalfId} {ch : Fin 160} {a : Actor} {x : Block}

theorem tgStop_stops (harr : Arrives s.block p (s.block.testRoles h ch.val 2) a x) :
    ∃ t, exec (.tgStop p h ch) s = .next t ∧ t.pending = s.pending ∧ Answers t.block p stOk ∧
      (s.block.regFld (chanReg h ch.val 0x18) 63 62 = 1 → t.block.regFld (chanReg h ch.val 0x18) 63 62 = 3) ∧
      (s.block.regFld (chanReg h ch.val 0x18) 63 62 ≠ 1 → t.block.reg (chanReg h ch.val 0x18) = s.block.reg (chanReg h ch.val 0x18)) ∧
      (∀ y, s.block.OutsideTest h ch.val y → t.block.byte y = s.block.byte y) := by
  have hstat := Answer.leave_reg (x.stopTest h ch.val).accept p _ (not_mailboxReg_chanReg (h := h) ch.isLt (off := 0x18) (by decide))
  refine ⟨_, exec_tgStop harr, rfl, Answer.answers_leave _ p rfl, fun hrun => ?_, fun hidle => ?_, fun y hy => ?_⟩
  · rw [Block.regFld, hstat]
    exact Block.stopTest_state (by rwa [harr.regFld])
  · rw [hstat, ← harr.reg, Block.accept, Block.stopTest_idle (by rwa [harr.regFld])]
  · rw [Answer.leave_byte]
    exact (Block.stopTest_byte (hy.of_reg (harr.reg _ _))).trans (Block.byte_eq_of_memory (Block.memory_eq_of_farView (harr.farView _)) y)
end

/-! ## A run done (R248, R252) -/

section
variable (b : Block) (h : HalfId) (ch : Nat) (r : TgResult)

/-- What a write test leaves in a line of its range. -/
def Block.writeLine (w : Word) (first i : Nat) : Block :=
  b.store (lineAddr h ch (first + i)) (patternLine w first (first + i))

/-- What a finished run leaves in memory: a write test its pattern, a read sweep the words it found uncorrectable. -/
def Block.testData : Block :=
  if b.regFld (chanReg h ch 0) 2 1 = 0 then
    (List.range (b.testRange h ch).2).foldl (fun z i => z.writeLine h ch (b.reg (chanReg h ch 8)) (b.testRange h ch).1 i) b
  else b.sweepBad h ch (b.testRange h ch).1 (b.testRange h ch).2 r.lines

/-- The report of a finished run: its lines, how many failed, and the first that did. -/
def Block.reportTest (n : Nat) (fails : List Nat) : Block :=
  let y := b.setReg (chanReg h ch 0x18) (BitVec.ofNat 64 (2 * 2 ^ 62 + n * 2 ^ 32 + min fails.length 0xFFFFFFFF))
  match fails with
  | [] => y
  | w :: _ => y.setReg (chanReg h ch 0x20) (BitVec.ofNat 64 w)

/-- The failing lines that a finished run reports. -/
def Block.foundFails : List Nat :=
  b.testFails h ch (b.regFld (chanReg h ch 0) 2 1) r (b.testRange h ch).1 (b.testRange h ch).2

/-- A read sweep changes what is known of words alone. -/
theorem Block.sweepBad_eq (first n : Nat) (l : List TgLine) :
    b.sweepBad h ch first n l = { b with bad := (b.sweepBad h ch first n l).bad } := by
  induction l generalizing b with
  | nil => rfl
  | cons x xs ih =>
    rw [Block.sweepBad, ih]
    split <;> rfl

theorem Block.testData_regs : (b.testData h ch r).regs = b.regs := by
  rw [Block.testData]
  split
  · exact Block.regs_foldl _ (fun z i => z.store_regs _ _) _ b
  · rw [Block.sweepBad_eq]

theorem Block.reportTest_memory (n : Nat) (fails : List Nat) : (b.reportTest h ch n fails).memory = b.memory := by
  cases fails <;> simp [Block.reportTest]

theorem Block.reportTest_reg {n : Nat} {fails : List Nat} {a : Nat} (hstat : a ≠ chanReg h ch 0x18) (hfirst : a ≠ chanReg h ch 0x20) :
    (b.reportTest h ch n fails).reg a = b.reg a := by
  cases fails <;> simp [Block.reportTest, Block.reg_setReg_other _ _ _ _ hstat, Block.reg_setReg_other _ _ _ _ hfirst]

theorem Block.reportTest_state {n : Nat} (hn : n < 2 ^ 30) (fails : List Nat) :
    (b.reportTest h ch n fails).regFld (chanReg h ch 0x18) 63 62 = 2 := by
  have hreg : (b.reportTest h ch n fails).reg (chanReg h ch 0x18) =
      BitVec.ofNat 64 (2 * 2 ^ 62 + n * 2 ^ 32 + min fails.length 0xFFFFFFFF) := by
    cases fails with
    | nil => exact Block.reg_setReg_same _ _ _
    | cons w ws => exact (Block.reg_setReg_other _ _ _ _ (chanReg_ne (by decide))).trans (Block.reg_setReg_same _ _ _)
  rw [Block.regFld, hreg, testState_eq (by decide) hn (by omega)]
end

section
variable {b : Block} {h : HalfId} {ch : Nat} {r : TgResult}

theorem Block.writeLine_byte {z : Block} {w : Word} {first i y : Nat} (hy : ∀ j, j < 64 → y ≠ lineAddr h ch (first + i) + j) :
    (z.writeLine h ch w first i).byte y = z.byte y :=
  Block.store_byte_outside (patternLine_length _ _ _) hy

/-- Each line written holds its pattern: the lines written after it are others. -/
theorem Block.writeLines_byte (z : Block) (w : Word) (first : Nat) {n i j : Nat} (hi : i < n) (hj : j < 64) :
    ((List.range n).foldl (fun z i => z.writeLine h ch w first i) z).byte (lineAddr h ch (first + i) + j) =
      (patternLine w first (first + i)).getD j 0 := by
  induction n with
  | zero => omega
  | succ n ih =>
    rw [List.range_succ, List.foldl_append, List.foldl_cons, List.foldl_nil]
    by_cases hlast : i = n
    · subst hlast
      rw [Block.writeLine, Block.store_byte, patternLine_length, if_pos (by omega), Nat.add_sub_cancel_left]
    · rw [Block.writeLine_byte, ih (by omega)]
      intro k hk heq
      have := lineAddr_inj hj hk heq
      omega

theorem Block.testData_mem_of_sweep (hmode : b.regFld (chanReg h ch 0) 2 1 ≠ 0) : (b.testData h ch r).mem = b.mem := by
  rw [Block.testData, if_neg hmode, Block.sweepBad_eq]

theorem Block.testData_pattern (hmode : b.regFld (chanReg h ch 0) 2 1 = 0) {n j : Nat} (hn : n < (b.testRange h ch).2) (hj : j < 64) :
    (b.testData h ch r).byte (lineAddr h ch ((b.testRange h ch).1 + n) + j) =
      (patternLine (b.reg (chanReg h ch 8)) (b.testRange h ch).1 ((b.testRange h ch).1 + n)).getD j 0 := by
  rw [Block.testData, if_pos hmode, Block.writeLines_byte _ _ _ hn hj]

theorem Block.testData_byte {y : Nat} (hy : b.OutsideTest h ch y) :
    (b.testData h ch r).byte y = b.byte y := by
  rw [Block.testData]
  split
  · exact Block.byte_foldl _ (fun z i hi => Block.writeLine_byte (hy i (List.mem_range.mp hi))) b
  · rw [Block.sweepBad_eq]
    rfl
end

section
variable {s : State} {h : HalfId} {ch : Fin 160} {r : TgResult}

theorem exec_tgDone (hrun : s.block.regFld (chanReg h ch.val 0x18) 63 62 = 1) (hslack : s.block.sys.slack ≠ 2)
    (hwake : s.block.sys.slack ≠ 3) :
    exec (.tgDone h ch r) s =
      .next { s with block := (s.block.testData h ch.val r).reportTest h ch.val (s.block.testRange h ch.val).2 (s.block.foundFails h ch.val r) } :=
  next_of_act (show exec (.tgDone h ch r) s = execTgDone h ch r s from rfl) (if_neg (by simp [hrun, hslack, hwake]))

theorem tgDone_reports (hrun : s.block.regFld (chanReg h ch.val 0x18) 63 62 = 1) (hslack : s.block.sys.slack ≠ 2)
    (hwake : s.block.sys.slack ≠ 3) :
    ∃ t, exec (.tgDone h ch r) s = .next t ∧ t.pending = s.pending ∧ t.block.regFld (chanReg h ch.val 0x18) 63 62 = 2 ∧
      (s.block.regFld (chanReg h ch.val 0) 2 1 ≠ 0 → t.block.mem = s.block.mem) ∧
      (s.block.regFld (chanReg h ch.val 0) 2 1 = 0 → ∀ n, n < (s.block.testRange h ch.val).2 → ∀ j, j < 64 →
        t.block.byte (lineAddr h ch.val ((s.block.testRange h ch.val).1 + n) + j) =
          (patternLine (s.block.reg (chanReg h ch.val 8)) (s.block.testRange h ch.val).1 ((s.block.testRange h ch.val).1 + n)).getD j 0) ∧
      (∀ y, s.block.OutsideTest h ch.val y → t.block.byte y = s.block.byte y) ∧
      (∀ a, a ≠ chanReg h ch.val 0x18 → a ≠ chanReg h ch.val 0x20 → t.block.reg a = s.block.reg a) := by
  have hlines := s.block.testRange_lines (h := h) (ch := ch.val)
  have hmemory := (s.block.testData h ch.val r).reportTest_memory h ch.val (s.block.testRange h ch.val).2
  refine ⟨_, exec_tgDone hrun hslack hwake, rfl, Block.reportTest_state _ _ _ (by omega) _, fun hmode => ?_,
    fun hmode n hn j hj => ?_, fun y hy => ?_, fun a hstat hfirst => ?_⟩
  · exact (Block.mem_eq_of_memory (hmemory _)).trans (Block.testData_mem_of_sweep hmode)
  · exact (Block.byte_eq_of_memory (hmemory _) _).trans (Block.testData_pattern hmode hn hj)
  · exact (Block.byte_eq_of_memory (hmemory _) y).trans (Block.testData_byte hy)
  · exact (Block.reportTest_reg _ _ _ hstat hfirst).trans (Block.reg_eq (Block.testData_regs _ _ _ _) a)
end

/-- Settles O29: refresh and relaxing by their counter and band, a scrub by what it keeps and where it moves, a test by its start, its stop
and its report, whose lines no other line shares a byte with. -/
theorem refreshScrubAndTestCommands : Obligations.RefreshScrubAndTestCommands := by
  unfold Obligations.RefreshScrubAndTestCommands
  refine ⟨?_, ?_, ?_, ?_, ?_, ?_⟩
  · intro s h ch bank htrained
    exact refreshDue_advances htrained
  · intro s h since hband hcool hlong
    exact refreshBandRelax_lowers hband hcool hlong
  · intro s h upsets htrained hon hslack hwake
    exact scrubRead_moves htrained hon hslack hwake rfl
  · intro s p h ch a x i mode hi harr
    obtain ⟨rfl, rfl, hdisabled⟩ | ⟨rfl, rfl⟩ := hi
    · exact testGo_answers harr (exec_tgWriteRead harr) (.inl ⟨rfl, hdisabled⟩)
    · exact testGo_answers harr (exec_tgReadSweep harr) (.inr rfl)
  · intro s p h ch a x harr
    exact tgStop_stops harr
  · intro s h ch r hrun hslack hwake
    exact tgDone_reports hrun hslack hwake

end Sys2Proof.Machine

/-! PROOFS. Batches (spec/11_harbour_images_audio_text.md R296-R301): what a position counts and what lands of the last one, how a batch
starts, what an attempt comes to, the augmentation commands as one, and from these the statement of this family. That a sample is handed to
its unit when its attempt starts, and that each record is a command of its own, is the model's cut (log entries 42, 46). -/

namespace Sys2Proof.Machine

/-! ## Positions (R299, R301) -/

/-- What the batch counts and the task's unit hold once a position is resolved (R301, R305). -/
def Block.positionCounted (b : Block) (k : TaskRef) (w : BatchWork) : Block :=
  ((b.count (inReg k.half 0x20) 31 16
      (b2n (decide (0 < w.attempt) && decide (w.lastStatus ≠ stInputLimit) && decide (w.lastStatus ≠ stInputCorrupt)))).count
    (inReg k.half 0x20) 15 8 (b2n (decide (w.lastStatus = stInputLimit) || decide (w.lastStatus = stInputCorrupt)))).countUnit k 1

theorem Block.positionCounted_mediaCount (b : Block) (k : TaskRef) (w : BatchWork) : MediaCount k.half b (b.positionCounted k w) := by
  have hreg : mediaReg k.half (inReg k.half 0x20) := inReg_mediaReg k.half (by decide)
  exact (b.count_mediaCount hreg 31 16 _).trans ((Block.count_mediaCount _ hreg 15 8 _).trans (Block.countUnit_mediaCount _ k 1))

section
variable {s : State} {b : Block} {k : TaskRef} {g : Graph} {c : TaskCtx} {w : BatchWork} {a : Access} {own cells : List Host.Cell}

theorem Runs.task_eq {ty : Nat} (h : Runs b k ty g c) : b.task k = some c := by
  obtain ⟨-, htask, -⟩ := h
  exact htask

/-- A block whose task has changed nothing yet. -/
theorem Runs.prepared {ty : Nat} (h : Runs b k ty g c) (owned : Nat → Prop) : Prepared owned b b k := by
  obtain ⟨-, htask, hphase, -⟩ := h
  exact ⟨rfl, rfl, fun _ _ => rfl, c, htask, hphase⟩

/-- After the last position the task's bytes land, and it ends. -/
theorem Block.nextPosition_last (hlast : (c.tensor 0).ext 0 ≤ w.pos + 1) :
    b.nextPosition k a c w cells = (b.positionCounted k w).land k cells stOk 0 :=
  if_neg (Nat.not_lt.mpr hlast)

theorem Block.fillPosition_of_cells (hcells : b.fresh.2.positionCells a c w own b.fresh.1 = .ok cells) :
    b.fillPosition k a c w own = b.fresh.2.nextPosition k a c w cells := by
  simp only [Block.fillPosition, hcells]

/-- The sample of the last position lands, and the task ends with ST_OK (R299, R300). -/
theorem Runs.fillPosition_lands {ty : Nat} (h : Runs s.block k ty g c) (hlast : (c.tensor 0).ext 0 ≤ w.pos + 1)
    (hcells : s.block.fresh.2.positionCells a c w own s.block.fresh.1 = .ok cells) (hhits : s.block.badHits cells = []) :
    Lands s { s with block := s.block.fillPosition k a c w own } k cells stOk ∧
      ∀ x, ¬ mediaReg k.half x → (s.block.fillPosition k a c w own).reg x = s.block.reg x := by
  rw [Block.fillPosition_of_cells hcells, Block.nextPosition_last hlast]
  exact ((h.prepared (mediaReg k.half)).fresh.mediaCount (fun _ => id) (Block.positionCounted_mediaCount _ k w)).lands hhits stOk 0

/-! ## The start of a batch (R298) -/

theorem exec_batchAssemble_starts {i : Nat} (h : Runs s.block k 0x09 g c) (hop : c.desc.mediaOp = 0x14) (hserved : s.block.served k = true)
    (hnone : c.batch = none) (hstart : (s.block.touch k g c).batchStart (s.block.taskAccess k.half g c) c = .ok (.ok i)) :
    exec (.batchAssemble k) s = .next { s with block := (s.block.touch k g c).modTask k (fun d => { d with
      batch := some ((s.block.touch k g c).handOver k.half (s.block.taskAccess k.half g c) c (BatchWork.start 0 i)) }) } := by
  refine next_of_act (show exec (.batchAssemble k) s = execBatchAssemble k s from rfl) ?_
  simp only [h.onRunning, hop, hserved, hnone, hstart, Option.isSome_none, ne_eq, not_true_eq_false, Bool.true_eq_false, Bool.false_eq_true,
    or_self, if_false]

theorem exec_batchAssemble_refused {f : Nat × Nat} (h : Runs s.block k 0x09 g c) (hop : c.desc.mediaOp = 0x14)
    (hserved : s.block.served k = true) (hnone : c.batch = none)
    (hstart : (s.block.touch k g c).batchStart (s.block.taskAccess k.half g c) c = .ok (.error f)) :
    exec (.batchAssemble k) s = .next { s with block := (s.block.touch k g c).fix k f.1 f.2 } := by
  refine next_of_act (show exec (.batchAssemble k) s = execBatchAssemble k s from rfl) ?_
  simp only [h.onRunning, hop, hserved, hnone, hstart, Option.isSome_none, ne_eq, not_true_eq_false, Bool.true_eq_false, Bool.false_eq_true,
    or_self, if_false]

/-! ## Attempts (R299) -/

/-- A position's next substitute after an attempt that failed. -/
def BatchWork.substitute (w : BatchWork) (a : Access) (c : TaskCtx) (plan reserve : List Nat) (st det : Nat) : BatchWork :=
  { w.note st det with
    unit := none, attempt := w.attempt + 1,
    index := attemptIndex plan reserve a.seed (c.desc.pf 1 63 32) (c.desc.pf 1 31 0) w.pos (w.attempt + 1) }

theorem Block.failAttempt_substitutes {st det : Nat} {plan reserve : List Nat} (hmore : w.attempt < 4)
    (hplan : (b.countSample k.half st).indices a (c.tensor 0) = .ok plan)
    (hreserve : (b.countSample k.half st).indices a (c.tensor 3) = .ok reserve) :
    b.failAttempt k a c w st det = (b.countSample k.half st).modTask k (fun d => { d with
      watchdogs := [], batch := some ((b.countSample k.half st).handOver k.half a c (w.substitute a c plan reserve st det)) }) := by
  simp only [Block.failAttempt, hplan, hreserve]
  exact if_pos hmore

/-- A sample whose span lies outside slot 2 fails its attempt. -/
theorem exec_sampleDone_outside {off : Nat} (h : Runs s.block k 0x09 g c) (hop : c.desc.mediaOp = 0x14) (hbatch : c.batch = some w)
    (hwait : w.augment = false) (hin : s.block.sampleInput (s.block.taskAccess k.half g c) c w = .ok (off, none)) :
    exec (.sampleDone k) s = .next { s with block := s.block.failAttempt k (s.block.taskAccess k.half g c) c w stInputCorrupt off } := by
  refine next_of_act (show exec (.sampleDone k) s = execSampleDone k s from rfl) ?_
  simp only [h.onRunning, hop, hbatch, hwait, hin, ne_eq, not_true_eq_false, Bool.false_eq_true, or_self, if_false]

/-- An attempt that its unit has made of the sample of a running batch task. -/
structure Attempted (b : Block) (k : TaskRef) (g : Graph) (c : TaskCtx) (w : BatchWork) (augs : List AugRecord) (r : AttemptOut) : Prop where
  runs : Runs b k 0x09 g c
  op : c.desc.mediaOp = 0x14
  batch : c.batch = some w
  wait : w.augment = false
  tried : ∃ off l pf u, b.sampleInput (b.taskAccess k.half g c) c w = .ok (off, some (l, augs, pf)) ∧
    b.sampleUnit k.half c.desc w l = some u ∧ b.fresh.2.tryDomain k g c w u l pf b.fresh.1 = .ok r

section
variable {augs : List AugRecord} {st det n : Nat}

/-- An accepted sample enters its augmentation list. -/
theorem Attempted.exec_sample {ch wd ht : Nat} {vs : List Nat}
    (t : Attempted s.block k g c w augs { block := b, done := n, res := .sample st det ch wd ht vs }) (haugs : augs ≠ []) :
    exec (.sampleDone k) s = .next { s with block := b.modTask k (fun d => { d with batch := some (Block.enterList c augs
      { w.note st det with unit := none, chans := ch, width := wd, height := ht, values := vs, augment := true }) }) } := by
  obtain ⟨h, hop, hbatch, hwait, off, l, pf, u, hin, hunit, htry⟩ := t
  refine next_of_act (show exec (.sampleDone k) s = execSampleDone k s from rfl) ?_
  simp only [h.onRunning, hop, hbatch, hwait, hin, hunit, htry, List.isEmpty_iff, haugs, ne_eq, not_true_eq_false, Bool.false_eq_true, or_self,
    if_false]

/-- The bytes that an attempt made itself fill its position. -/
theorem Attempted.exec_cells {m : Nat} (t : Attempted s.block k g c w augs { block := b, done := m, res := .cells st det own n }) :
    exec (.sampleDone k) s = .next { s with block := b.fillPosition k (s.block.taskAccess k.half g c) c (w.note st det) own } := by
  obtain ⟨h, hop, hbatch, hwait, off, l, pf, u, hin, hunit, htry⟩ := t
  refine next_of_act (show exec (.sampleDone k) s = execSampleDone k s from rfl) ?_
  simp only [h.onRunning, hop, hbatch, hwait, hin, hunit, htry, ne_eq, not_true_eq_false, Bool.false_eq_true, or_self, if_false]
end

/-! ## Augmentations (R297) -/

/-- The augmentation commands, each with its record's code and what it makes of the sample. -/
def BatchWork.augmentations (w : BatchWork) (k : TaskRef) (c : TaskCtx) (u : Nat → Nat) (r : AugRecord) : List (Instr × Nat × BatchWork) :=
  [(.resize k, 1, w.applyResize u r ((c.tensor 4).ext 1) ((c.tensor 4).ext 2)), (.flip k, 2, w.applyFlip u r),
    (.jitter k, 3, w.applyJitter u r), (.norm k, 4, w.applyNorm r), (.gain k, 5, w.applyGain u r),
    (.fmask k, 6, w.applyMask u r true w.width), (.tmask k, 7, w.applyMask u r false w.height)]

/-- Each augmentation command is one operation under its own code. -/
theorem exec_eq_onAugment {i : Instr} {code : Nat} {u : Nat → Nat} {r : AugRecord} {w' : BatchWork}
    (hi : (i, code, w') ∈ w.augmentations k c u r) :
    ∃ f, exec i s = s.act (fun b => b.onAugment k code f) ∧ f c w u r = w' := by
  simp only [BatchWork.augmentations, List.mem_cons, Prod.mk.injEq, List.not_mem_nil, or_false] at hi
  obtain ⟨rfl, rfl, rfl⟩ | ⟨rfl, rfl, rfl⟩ | ⟨rfl, rfl, rfl⟩ | ⟨rfl, rfl, rfl⟩ | ⟨rfl, rfl, rfl⟩ | ⟨rfl, rfl, rfl⟩ | ⟨rfl, rfl, rfl⟩ := hi <;>
    exact ⟨_, rfl, rfl⟩

/-- The next record applied to an accepted sample: after the last the position is filled. -/
def Block.augmented (b : Block) (k : TaskRef) (a : Access) (c : TaskCtx) (w : BatchWork) (records : Nat) : Block :=
  if w.op = records then b.fillPosition k a c w [] else b.modTask k (fun d => { d with batch := some w })

theorem exec_augmentation {i : Instr} {augs : List AugRecord} {r : AugRecord} {w' : BatchWork} (h : Runs s.block k 0x09 g c)
    (hop : c.desc.mediaOp = 0x14) (hbatch : c.batch = some w) (haugment : w.augment = true)
    (hlist : s.block.augList (s.block.taskAccess k.half g c) c.desc = .ok augs) (hrecord : augs[w.op]? = some r)
    (hi : (i, r.code, w') ∈
      w.augmentations k c (fun n => drawU (s.block.taskAccess k.half g c).seed (c.desc.pf 1 63 32) w.op w.index n) r) :
    exec i s = .next { s with
      block := s.block.augmented k (s.block.taskAccess k.half g c) c { w' with op := w.op + 1 } augs.length } := by
  obtain ⟨f, hexec, rfl⟩ := exec_eq_onAugment (s := s) hi
  refine next_of_act hexec ?_
  simp only [Block.onAugment, h.onRunning, hop, hbatch, haugment, hlist, hrecord, ne_eq, not_true_eq_false, Bool.true_eq_false, or_self, if_false]
  rfl
end

/-- Settles O31: a start by its checks, an attempt by what its unit made of the sample, the augmentation commands as one. -/
theorem batchCommands : Obligations.BatchCommands := by
  unfold Obligations.BatchCommands
  refine ⟨?_, ?_, ?_, ?_, ?_, ?_⟩
  · intro s k g c i h hop hserved hnone hstart
    exact ⟨_, exec_batchAssemble_starts h hop hserved hnone hstart, rfl, Block.modTask_task h.touch_task_eq _,
      (Block.mem_eq_of_memory (Block.modTask_memory _ _ _)).trans (Block.mem_eq_of_memory (s.block.touch_memory k g c)),
      fun a ha => (Block.reg_eq (Block.modTask_regs _ _ _) a).trans (s.block.touch_reg_other k g c ha)⟩
  · intro s k g c f h hop hserved hnone hstart
    exact ⟨_, exec_batchAssemble_refused h hop hserved hnone hstart, rfl, ((h.heads f.1).touch g c).fix f.2,
      (Block.mem_eq_of_memory (Block.fix_memory _ _ _ _)).trans (Block.mem_eq_of_memory (s.block.touch_memory k g c)),
      fun a ha => (Block.reg_eq (Block.fix_regs _ _ _ _) a).trans (s.block.touch_reg_other k g c ha)⟩
  · intro s k g c d w off l pf augs b st det ch wd ht n u vs h hop hbatch hwait hin haugs hunit htry htask
    have hattempt : Attempted s.block k g c w augs { block := b, done := n, res := .sample st det ch wd ht vs } :=
      ⟨h, hop, hbatch, hwait, off, l, pf, u, hin, hunit, htry⟩
    exact ⟨_, hattempt.exec_sample haugs, rfl, Block.mem_eq_of_memory (Block.modTask_memory _ _ _), Block.modTask_task htask _⟩
  · intro s k g c w off plan reserve h hop hbatch hwait hin hmore hplan hreserve
    have hcount := s.block.countSample_mediaCount k.half stInputCorrupt
    have hexec := exec_sampleDone_outside h hop hbatch hwait hin
    rw [Block.failAttempt_substitutes hmore hplan hreserve] at hexec
    refine ⟨_, hexec, rfl, ?_, ?_, fun a hmedia _ => ?_⟩
    · exact (Block.mem_eq_of_memory (Block.modTask_memory _ _ _)).trans (Block.mem_eq_of_memory hcount.memory)
    · exact Block.modTask_task ((Block.task_eq_of_tables hcount.tables k).trans h.task_eq) _
    · exact (Block.reg_eq (Block.modTask_regs _ _ _) a).trans (hcount.reg a hmedia)
  · intro s k g c w off n m st det u l pf augs b own cells h hop hbatch hwait hin hunit htry hb hcells hlast hhits
    have hattempt : Attempted s.block k g c w augs { block := b, done := m, res := .cells st det own n } :=
      ⟨h, hop, hbatch, hwait, off, l, pf, u, hin, hunit, htry⟩
    obtain ⟨⟨-, hended, hlanded⟩, -⟩ := Runs.fillPosition_lands (s := { s with block := b }) (w := w.note st det) hb hlast hcells hhits
    exact ⟨_, hattempt.exec_cells, rfl, hended, hlanded⟩
  · rintro s k g c w augs r i _ w' h hop hbatch haugment hlist hrecord rfl hi
    have hexec := exec_augmentation h hop hbatch haugment hlist hrecord hi
    refine ⟨fun hmore => ?_, fun hend hlast cells hcells hhits => ?_⟩
    · rw [Block.augmented, if_neg hmore] at hexec
      exact ⟨_, hexec, rfl, Block.modTask_task h.task_eq _, Block.mem_eq_of_memory (Block.modTask_memory _ _ _), Block.modTask_regs _ _ _⟩
    · rw [Block.augmented, if_pos hend] at hexec
      obtain ⟨hlands, hreg⟩ := h.fillPosition_lands hlast hcells hhits
      exact ⟨_, hexec, hlands, fun a hmedia _ => hreg a hmedia⟩

end Sys2Proof.Machine

/-! PROOFS. Tide's counters (spec/12_efing_and_tide.md R326, R330, R331): what each of the model's operations does to the two halves' clocks,
and from it that no step but a start anew lowers or stops a Locked counter (O54). -/

namespace Sys2Proof.Machine

/-! ## The two Tide counters and the model's operations -/

/-- The Tide clocks of the two halves. -/
def Block.clocks (b : Block) : TideClock × TideClock := (b.halfA.tide, b.halfB.tide)

/-- Equal clocks are equal at each half. -/
theorem Block.tide_eq_of_clocks {b c : Block} (h : b.clocks = c.clocks) (k : HalfId) : (b.half k).tide = (c.half k).tide := by
  cases k
  · exact congrArg Prod.fst h
  · exact congrArg Prod.snd h

/-- An update of neither half. -/
@[simp] theorem clocks_update (e : Block) (regs mem fill bad hostMem slots pairs sys image flash zilsy power domain out n) :
    Block.clocks ⟨e.halfA, e.halfB, regs, mem, fill, bad, hostMem, slots, pairs, sys, image, flash, zilsy, power, domain, out, n⟩ =
      e.clocks := rfl

/-- A half with the same clock. -/
@[simp] theorem Block.modHalf_clocks (b : Block) (h : HalfId) (f : Half → Half) (hf : ∀ x, (f x).tide = x.tide) :
    (b.modHalf h f).clocks = b.clocks := by
  cases h <;> simp [Block.modHalf, Block.setHalf, Block.clocks, Block.half, hf]

@[simp] theorem Block.modSlot_clocks (b : Block) (k : Nat) (f : JobSlot → JobSlot) : (b.modSlot k f).clocks = b.clocks := rfl

@[simp] theorem Block.clocks_ite (p : Prop) [Decidable p] (x y : Block) : (if p then x else y).clocks = if p then x.clocks else y.clocks := by
  split <;> rfl

@[simp] theorem Block.clocks_foldl {α : Type} (f : Block → α → Block) (hf : ∀ b x, (f b x).clocks = b.clocks) (l : List α) (b : Block) :
    (l.foldl f b).clocks = b.clocks := by
  induction l generalizing b with
  | nil => rfl
  | cons x xs ih => rw [List.foldl_cons, ih, hf]

theorem Block.clocks_of_ite {x y z : Block} {p : Prop} [Decidable p] (hx : x.clocks = z.clocks) (hy : y.clocks = z.clocks) :
    (if p then x else y).clocks = z.clocks := by
  split
  · exact hx
  · exact hy

theorem Block.clocks_getD {b c : Block} {x : Option Block} (hx : ∀ z, x = some z → z.clocks = c.clocks) (hc : c.clocks = b.clocks) :
    (x.getD b).clocks = b.clocks := by
  cases x with
  | none => rfl
  | some z => exact (hx z rfl).trans hc

/-! ### Ops -/

@[simp] theorem Block.setSys_clocks (b : Block) (x : Sys) : (b.setSys x).clocks = b.clocks := by simp [Block.setSys]
@[simp] theorem Block.setImage_clocks (b : Block) (x : Image) : (b.setImage x).clocks = b.clocks := by simp [Block.setImage]
@[simp] theorem Block.setFlash_clocks (b : Block) (x : Flash) : (b.setFlash x).clocks = b.clocks := by simp [Block.setFlash]
@[simp] theorem Block.setZilsy_clocks (b : Block) (x : Zilsy) : (b.setZilsy x).clocks = b.clocks := by simp [Block.setZilsy]
@[simp] theorem Block.setPower_clocks (b : Block) (x : Power) : (b.setPower x).clocks = b.clocks := by simp [Block.setPower]
@[simp] theorem Block.setDomain_clocks (b : Block) (x : Domain) : (b.setDomain x).clocks = b.clocks := by simp [Block.setDomain]
@[simp] theorem Block.setReg_clocks (b : Block) (a : Nat) (v : Word) : (b.setReg a v).clocks = b.clocks := by simp [Block.setReg]
@[simp] theorem Block.modReg_clocks (b : Block) (a : Nat) (f : Word → Word) : (b.modReg a f).clocks = b.clocks := by simp [Block.modReg]
@[simp] theorem Block.count_clocks (b : Block) (a hi lo n : Nat) : (b.count a hi lo n).clocks = b.clocks := by simp [Block.count]
@[simp] theorem Block.setRegFld_clocks (b : Block) (a hi lo v : Nat) : (b.setRegFld a hi lo v).clocks = b.clocks := by simp [Block.setRegFld]
@[simp] theorem Block.store_clocks (b : Block) (a : Nat) (l : List Byte) : (b.store a l).clocks = b.clocks := by simp [Block.store]

@[simp] theorem Block.storeCells_clocks (b : Block) (l : List Host.Cell) : (b.storeCells l).clocks = b.clocks := by
  induction l generalizing b <;> simp_all [Block.storeCells]

@[simp] theorem Block.hostStore_clocks (b : Block) (a : Nat) (l : List Byte) : (b.hostStore a l).clocks = b.clocks := by simp [Block.hostStore]
@[simp] theorem Block.hostAnnounce_clocks (b : Block) (l : List (Nat × Byte)) : (b.hostAnnounce l).clocks = b.clocks := by simp [Block.hostAnnounce]

@[simp] theorem Block.zilsyLog_clocks (b : Block) (r : LogRecord) : (b.zilsyLog r).clocks = b.clocks := by
  simp only [Block.zilsyLog]
  (repeat' split) <;> simp

@[simp] theorem Block.log_clocks (b : Block) (e : Event) : (b.log e).clocks = b.clocks := by simp [Block.log]

@[simp] theorem Block.logPermission_clocks (b : Block) (needed keyId job : Nat) : (b.logPermission needed keyId job).clocks = b.clocks := by
  simp [Block.logPermission]

@[simp] theorem Block.logRefused_clocks (b : Block) (h : HalfId) (what value status kind index job : Nat) :
    (b.logRefused h what value status kind index job).clocks = b.clocks := by
  simp [Block.logRefused]

@[simp] theorem Block.appendAudit_clocks (b : Block) (a : Actor) (c : Change) (recovered : Bool) :
    (b.appendAudit a c recovered).clocks = b.clocks := by
  simp [Block.appendAudit]

@[simp] theorem Block.audited_clocks (b : Block) (a : Actor) (c : Change) (f : Block → Block) (hf : ∀ x : Block, (f x).clocks = x.clocks) :
    (b.audited a c f).1.clocks = b.clocks := by
  unfold Block.audited
  (repeat' split) <;> simp_all

@[simp] theorem Block.emit_clocks (b : Block) (o : Out) : (b.emit o).clocks = b.clocks := by simp [Block.emit]
@[simp] theorem Block.raise_clocks (b : Block) (vec : Nat) : (b.raise vec).clocks = b.clocks := by simp [Block.raise]
@[simp] theorem Block.moduleEvent_clocks (b : Block) (i : Nat) : (b.moduleEvent i).clocks = b.clocks := by simp [Block.moduleEvent]
@[simp] theorem Block.fresh_clocks (b : Block) : (b.fresh).2.clocks = b.clocks := by simp [Block.fresh]

/-! ### Authority -/

@[simp] theorem Block.useNonce_clocks (b : Block) (n : Nat) : (b.useNonce n).clocks = b.clocks := by simp [Block.useNonce]

@[simp] theorem Block.setWords_clocks (b : Block) (a : Nat) (l : List Word) : (b.setWords a l).clocks = b.clocks := by
  induction l generalizing b a <;> simp_all [Block.setWords]

@[simp] theorem Block.reply_clocks (b : Block) (c : Channel) (status detail : Nat) (data : List Byte) :
    (b.reply c status detail data).clocks = b.clocks := by
  simp [Block.reply]

@[simp] theorem Answer.sent_clocks (a : Answer) (c : Channel) : (a.sent c).clocks = a.block.clocks := by simp [Answer.sent]

@[simp] theorem Block.refuse_clocks (b : Block) (what value detail : Nat) : (b.refuse what value detail).block.clocks = b.clocks := by
  simp [Block.refuse]

@[simp] theorem Block.refuseRole_clocks (b : Block) (needed keyId : Nat) : (b.refuseRole needed keyId).block.clocks = b.clocks := by
  simp [Block.refuseRole]

@[simp] theorem Block.accept_clocks (b : Block) : (b.accept).block.clocks = b.clocks := by simp [Block.accept]

@[simp] theorem Block.command_clocks (b : Block) (m : Envelope) (roles : List Nat) (needed : Nat) (f : Actor → Block → Answer) (hf : ∀ a
    (x : Block), (f a x).block.clocks = x.clocks) :
    (b.command m roles needed f).clocks = b.clocks := by
  unfold Block.command
  (repeat' split) <;> simp_all

@[simp] theorem Block.byPath_clocks (b : Block) (p : Path) (roles : List Nat) (needed : Nat) (f : Actor → Block → Answer) (hf : ∀ a (x : Block),
    (f a x).block.clocks = x.clocks) :
    (b.byPath p roles needed f).clocks = b.clocks := by
  unfold Block.byPath
  (repeat' split) <;> simp_all

@[simp] theorem Block.auditedAnswer_clocks (b : Block) (a : Actor) (c : Change) (f : Block → Block) (hf : ∀ x : Block, (f x).clocks = x.clocks) :
    (b.auditedAnswer a c f).block.clocks = b.clocks := by
  unfold Block.auditedAnswer
  simp_all

/-! ### Errors -/

@[simp] theorem Block.setUsable_clocks (b : Block) (h : HalfId) : (b.setUsable h).clocks = b.clocks := by simp [Block.setUsable]

@[simp] theorem Block.pendChannel_clocks (b : Block) (h : HalfId) (ch cause : Nat) : (b.pendChannel h ch cause).clocks = b.clocks := by
  simp [Block.pendChannel]

@[simp] theorem Block.checkChannel_clocks (b : Block) (h : HalfId) (ch : Nat) : (b.checkChannel h ch).clocks = b.clocks := by
  simp [Block.checkChannel]

@[simp] theorem Block.noteUe_clocks (b : Block) (a : Nat) : (b.noteUe a).clocks = b.clocks := by
  simp only [Block.noteUe]
  (repeat' split) <;> simp

@[simp] theorem Block.noteTierCe_clocks (b : Block) (h : HalfId) (tier : Nat) : (b.noteTierCe h tier).clocks = b.clocks := by simp [Block.noteTierCe]

@[simp] theorem Block.noteCe_clocks (b : Block) (a : Nat) : (b.noteCe a).clocks = b.clocks := by
  simp only [Block.noteCe]
  (repeat' split) <;> simp

/-! ### Operands -/

@[simp] theorem Block.landCells_clocks (b : Block) (cells : List Host.Cell) : (b.landCells cells).1.clocks = b.clocks := by simp [Block.landCells]
@[simp] theorem Block.landLines_clocks (b : Block) (cells : List Host.Cell) : (b.landLines cells).1.clocks = b.clocks := by simp [Block.landLines]

/-! ### Frames -/

@[simp] theorem Block.modTiers_clocks (b : Block) (h : HalfId) (f : Tiers → Tiers) : (b.modTiers h f).clocks = b.clocks := by simp [Block.modTiers]
@[simp] theorem Block.zeroFrame_clocks (b : Block) (f size : Nat) : (b.zeroFrame f size).clocks = b.clocks := by simp [Block.zeroFrame]

@[simp] theorem Block.zeroFrames_clocks (b : Block) (size : Nat) (l : List Nat) : (b.zeroFrames size l).clocks = b.clocks := by
  induction l generalizing b size <;> simp_all [Block.zeroFrames]

@[simp] theorem Block.freeFrame_clocks (b : Block) (f : Nat) : (b.freeFrame f).clocks = b.clocks := by simp [Block.freeFrame]

@[simp] theorem Block.freeFrames_clocks (b : Block) (l : List Nat) : (b.freeFrames l).clocks = b.clocks := by
  induction l generalizing b <;> simp_all [Block.freeFrames]

@[simp] theorem Block.removePage_clocks (b : Block) (k key : Nat) : (b.removePage k key).clocks = b.clocks := rfl

@[simp] theorem Block.removePages_clocks (b : Block) (k : Nat) (l : List Nat) : (b.removePages k l).clocks = b.clocks := by
  induction l generalizing b k <;> simp_all [Block.removePages]

@[simp] theorem Block.addPages_clocks (b : Block) (k : Nat) (l : List (Nat × Page)) : (b.addPages k l).clocks = b.clocks := by
  induction l generalizing b with
  | nil => rfl
  | cons p ps ih => rw [Block.addPages, ih, Block.modSlot_clocks]

@[simp] theorem Block.modObject_clocks (b : Block) (handle : Nat) (f : CacheObject → CacheObject) : (b.modObject handle f).clocks = b.clocks := by
  simp only [Block.modObject]
  (repeat' split) <;> simp

@[simp] theorem Block.freeObject_clocks (b : Block) (handle : Nat) : (b.freeObject handle).clocks = b.clocks := by
  simp only [Block.freeObject]
  (repeat' split) <;> simp

@[simp] theorem Block.reapObject_clocks (b : Block) (handle : Nat) : (b.reapObject handle).clocks = b.clocks := by
  simp only [Block.reapObject]
  (repeat' split) <;> simp

@[simp] theorem Block.reapObjects_clocks (b : Block) (l : List Nat) : (b.reapObjects l).clocks = b.clocks := by
  induction l generalizing b <;> simp_all [Block.reapObjects]

@[simp] theorem Block.dropMapping_clocks (b : Block) (handle : Nat) (m : Nat × Nat) : (b.dropMapping handle m).clocks = b.clocks := by
  simp only [Block.dropMapping]
  (repeat' split) <;> simp

@[simp] theorem Block.dropMappings_clocks (b : Block) (handle : Nat) (l : List (Nat × Nat)) : (b.dropMappings handle l).clocks = b.clocks := by
  induction l generalizing b handle <;> simp_all [Block.dropMappings]

@[simp] theorem Block.unmapObject_clocks (b : Block) (handle : Nat) : (b.unmapObject handle).clocks = b.clocks := by
  simp only [Block.unmapObject]
  (repeat' split) <;> simp

/-- Pages are allocated out of a half's pool, whose objects may be evicted. -/
theorem Block.allocPool_clocks {b z : Block} {h : HalfId} {tier : Nat} {big : Bool} {owner n fuel : Nat} {frames : List Nat}
    (e : b.allocPool h tier big owner n fuel = .ok frames z) : z.clocks = b.clocks := by
  induction fuel generalizing b with
  | zero => cases e
  | succ k ih =>
    rw [Block.allocPool] at e
    split at e
    · cases e; simp
    · split at e
      · cases e
      · rw [ih e, Block.unmapObject_clocks]

theorem Block.allocFrames_clocks {b z : Block} {h : HalfId} {tier : Nat} {big : Bool} {owner n : Nat} {frames : List Nat}
    (e : b.allocFrames h tier big owner n = .ok frames z) : z.clocks = b.clocks := by
  rw [Block.allocFrames] at e
  split at e
  · split at e <;> cases e
    simp
  · exact Block.allocPool_clocks e

theorem Block.allocate_clocks {b z : Block} {h : HalfId} {tier k : Nat} {big : Bool} {owner n : Nat} {frames : List Nat}
    (e : b.allocate h tier k big owner n = .ok frames z) : z.clocks = b.clocks := by
  grind [Block.allocate, Block.allocPool_clocks, Block.modTiers_clocks]

@[simp] theorem Block.refObject_clocks (b : Block) (t : TaskRef) (handle : Nat) : (b.refObject t handle).clocks = b.clocks := by
  simp [Block.refObject]

@[simp] theorem Block.refObjects_clocks (b : Block) (t : TaskRef) (l : List Nat) : (b.refObjects t l).clocks = b.clocks := by
  induction l generalizing b t <;> simp_all [Block.refObjects]

@[simp] theorem Block.dropRefs_clocks (b : Block) (t : TaskRef) : (b.dropRefs t).clocks = b.clocks := by simp [Block.dropRefs]

/-! ### Rings -/

@[simp] theorem Block.modGraph_clocks (b : Block) (h : HalfId) (i : Nat) (f : Graph → Graph) : (b.modGraph h i f).clocks = b.clocks := by
  simp only [Block.modGraph]
  (repeat' split) <;> simp

@[simp] theorem Block.modTask_clocks (b : Block) (t : TaskRef) (f : TaskCtx → TaskCtx) : (b.modTask t f).clocks = b.clocks := by simp [Block.modTask]

@[simp] theorem Block.fix_clocks (b : Block) (t : TaskRef) (status detail : Nat) : (b.fix t status detail).clocks = b.clocks := by
  simp only [Block.fix]
  (repeat' split) <;> simp

@[simp] theorem Block.fixStop_clocks (b : Block) (t : TaskRef) (l : Stop) : (b.fixStop t l).clocks = b.clocks := by
  simp only [Block.fixStop]
  (repeat' split) <;> simp

@[simp] theorem Block.modPair_clocks (b : Block) (q : Nat) (f : QueuePair → QueuePair) : (b.modPair q f).clocks = b.clocks := by
  simp [Block.modPair, Block.clocks]

@[simp] theorem Block.signalQueue_clocks (b : Block) (q : Nat) : (b.signalQueue q).clocks = b.clocks := by simp [Block.signalQueue]
@[simp] theorem Block.coalesce_clocks (b : Block) (q : Nat) : (b.coalesce q).clocks = b.clocks := by simp [Block.coalesce]

theorem Block.cqPush_clocks (b : Block) (q : Nat) (entry : Bool → List Byte) (atOnce : Bool) :
    ∀ z, b.cqPush q entry atOnce = some z → z.clocks = b.clocks := by
  simp [Block.cqPush]

@[simp] theorem Block.setShape_clocks (b : Block) (h : HalfId) (k i v : Nat) : (b.setShape h k i v).clocks = b.clocks := by simp [Block.setShape]

@[simp] theorem Block.setShapes_clocks (b : Block) (h : HalfId) (k i : Nat) (l : List Nat) : (b.setShapes h k i l).clocks = b.clocks := by
  induction l generalizing b h k i <;> simp_all [Block.setShapes]

@[simp] theorem Block.setPairShapes_clocks (b : Block) (h : HalfId) (k base : Nat) (l : List Nat) :
    (b.setPairShapes h k base l).clocks = b.clocks := by
  induction l generalizing b h k base <;> simp_all [Block.setPairShapes]

@[simp] theorem Block.writeShapes_clocks (b : Block) (t : TaskRef) (g : Graph) (c : TaskCtx) : (b.writeShapes t g c).clocks = b.clocks := by
  simp [Block.writeShapes]

@[simp] theorem Block.mergeStat_clocks (b : Block) (h : HalfId) (k : Nat) (s : StatCapture) : (b.mergeStat h k s).clocks = b.clocks := by
  simp [Block.mergeStat]

@[simp] theorem Block.mergeStats_clocks (b : Block) (t : TaskRef) (g : Graph) (c : TaskCtx) : (b.mergeStats t g c).clocks = b.clocks := by
  simp [Block.mergeStats]

@[simp] theorem Block.logAborted_clocks (b : Block) (detail : Nat) (t : TaskRef) : (b.logAborted detail t).clocks = b.clocks := by
  simp [Block.logAborted]

@[simp] theorem Block.sendTokens_clocks (b : Block) (t : TaskRef) (c : TaskCtx) : (b.sendTokens t c).clocks = b.clocks := by simp [Block.sendTokens]

@[simp] theorem Block.tellLauncher_clocks (b : Block) (l : TaskRef) (gid stage : Nat) : (b.tellLauncher l gid stage).clocks = b.clocks := by
  simp [Block.tellLauncher]

@[simp] theorem Block.closeGraph_clocks (b : Block) (h : HalfId) (gid : Nat) : (b.closeGraph h gid).clocks = b.clocks := by
  simp only [Block.closeGraph]
  (repeat' split) <;> simp

@[simp] theorem Block.afterRecord_clocks (b : Block) (t : TaskRef) (c : TaskCtx) : (b.afterRecord t c).clocks = b.clocks := by
  simp [Block.afterRecord]

theorem Block.tryRecord_clocks (b : Block) (t : TaskRef) : ∀ z, b.tryRecord t = .written z → z.clocks = b.clocks := by
  intro z e
  unfold Block.tryRecord at e
  split at e
  · split at e
    · split at e
      · next hpush => cases e; exact Block.cqPush_clocks _ _ _ _ _ hpush
      · cases e
    · dsimp only at e
      split at e
      · cases e
      · split at e <;> cases e
        simp
  · cases e

@[simp] theorem Block.finishRecord_clocks (b : Block) (t : TaskRef) : (b.finishRecord t).clocks = b.clocks := by
  unfold Block.finishRecord
  split
  · split
    · next e => rw [Block.afterRecord_clocks, Block.tryRecord_clocks b t _ e]
    · simp
    · simp
  · rfl

/-! ### Net -/

@[simp] theorem Block.makePacket_clocks (b : Block) (h : HalfId) (dest job cls op tag w2 block : Nat) (payload : List Byte) :
    (b.makePacket h dest job cls op tag w2 block payload).2.clocks = b.clocks := by
  simp [Block.makePacket]

@[simp] theorem Block.modPort_clocks (b : Block) (h : HalfId) (x : Nat) (f : Port → Port) : (b.modPort h x f).clocks = b.clocks := by
  simp [Block.modPort]

@[simp] theorem Block.linkSend_clocks (b : Block) (h : HalfId) (x : Nat) (p : Packet) : (b.linkSend h x p).clocks = b.clocks := by
  simp [Block.linkSend]

@[simp] theorem Block.drainLink_clocks (b : Block) (h : HalfId) (x l : Nat) : (b.drainLink h x l).clocks = b.clocks := by
  fun_induction Block.drainLink <;> simp_all

@[simp] theorem Block.sendBy_clocks (b : Block) (h : HalfId) (x : Nat) (p : Packet) : (b.sendBy h x p).clocks = b.clocks := by simp [Block.sendBy]

@[simp] theorem Block.routeOut_clocks (b : Block) (h : HalfId) (p : Packet) : (b.routeOut h p).clocks = b.clocks := by
  simp only [Block.routeOut]
  (repeat' split) <;> simp

@[simp] theorem Block.holdDest_clocks (b old : Block) (h : HalfId) (again : Bool) (dest : Nat) :
    (b.holdDest old h again dest).clocks = b.clocks := by
  simp [Block.holdDest]

@[simp] theorem Block.holdDests_clocks (b old : Block) (h : HalfId) (again : Bool) (l : List Nat) :
    (b.holdDests old h again l).clocks = b.clocks := by
  fun_induction Block.holdDests <;> simp_all

@[simp] theorem Block.rerouted_clocks (b old : Block) (h : HalfId) (again : Bool) : (b.rerouted old h again).clocks = b.clocks := by
  simp [Block.rerouted]

@[simp] theorem Block.send_clocks (b : Block) (h : HalfId) (dest job cls op tag w2 block : Nat) (payload : List Byte) :
    (b.send h dest job cls op tag w2 block payload).clocks = b.clocks := by
  simp [Block.send]

@[simp] theorem Block.respond_clocks (b : Block) (h : HalfId) (p : Packet) (status : Nat) (data : List Byte) :
    (b.respond h p status data).clocks = b.clocks := by
  simp [Block.respond]

@[simp] theorem Block.manage_clocks (b : Block) (h : HalfId) (dest op : Nat) (payload : List Byte) :
    (b.manage h dest op payload).clocks = b.clocks := by
  simp [Block.manage]

@[simp] theorem Block.tellLeader_clocks (b : Block) (h : HalfId) (op : Nat) (payload : List Byte) :
    (b.tellLeader h op payload).clocks = b.clocks := by
  simp only [Block.tellLeader]
  (repeat' split) <;> simp

@[simp] theorem Block.countCut_clocks (b : Block) (h : HalfId) (cut dest n : Nat) : (b.countCut h cut dest n).clocks = b.clocks := by
  simp only [Block.countCut]
  (repeat' split) <;> simp

@[simp] theorem Block.takeSeq_clocks (b : Block) (h : HalfId) (p : Packet) : (b.takeSeq h p).clocks = b.clocks := by simp [Block.takeSeq]

@[simp] theorem Block.control_clocks (b : Block) (h : HalfId) (x kind cls n lstate : Nat) :
    (b.control h x kind cls n lstate).clocks = b.clocks := by
  simp [Block.control]

@[simp] theorem Block.unbuffer_clocks (b : Block) (h : HalfId) (p : Packet) : (b.unbuffer h p).clocks = b.clocks := by
  simp only [Block.unbuffer]
  (repeat' split) <;> simp

@[simp] theorem Block.receive_clocks (b : Block) (h : HalfId) (p : Packet) (cls : Nat) (ops : List Nat) (f : Block → Block) (hf : ∀ x : Block,
    (f x).clocks = x.clocks) :
    (b.receive h p cls ops f).clocks = b.clocks := by
  unfold Block.receive
  (repeat' split) <;> simp_all

/-! ### Steps -/

@[simp] theorem Block.syncStep_clocks (b : Block) (h : HalfId) (k : Nat) : (b.syncStep h k).clocks = b.clocks := by
  simp only [Block.syncStep]
  (repeat' split) <;> simp

@[simp] theorem Block.modStep_clocks (b : Block) (h : HalfId) (k step : Nat) (f : StepRecord → StepRecord) :
    (b.modStep h k step f).clocks = b.clocks := by
  simp [Block.modStep]

@[simp] theorem Block.openStep_clocks (b : Block) (h : HalfId) (k step : Nat) : (b.openStep h k step).clocks = b.clocks := by simp [Block.openStep]
@[simp] theorem Block.clearEnergy_clocks (b : Block) (k : Nat) : (b.clearEnergy k).clocks = b.clocks := by simp [Block.clearEnergy]
@[simp] theorem Block.closeEnergy_clocks (b : Block) (k step : Nat) : (b.closeEnergy k step).clocks = b.clocks := by simp [Block.closeEnergy]

@[simp] theorem Block.noteEnd_clocks (b : Block) (h : HalfId) (k step status detail : Nat) :
    (b.noteEnd h k step status detail).clocks = b.clocks := by
  simp [Block.noteEnd]

@[simp] theorem Block.noteNf_clocks (b : Block) (h : HalfId) (k step origin : Nat) : (b.noteNf h k step origin).clocks = b.clocks := by
  simp [Block.noteNf]

@[simp] theorem Block.stepAdmit_clocks (b : Block) (h : HalfId) (w : WaitingGraph) : (b.stepAdmit h w).clocks = b.clocks := by simp [Block.stepAdmit]

/-! ### Saffron -/

@[simp] theorem Block.settle_clocks (b : Block) (t : TaskRef) : (b.settle t).clocks = b.clocks := by
  simp only [Block.settle]
  (repeat' split) <;> simp

@[simp] theorem Block.settleAll_clocks (b : Block) (l : List TaskRef) : (b.settleAll l).clocks = b.clocks := by
  induction l generalizing b <;> simp_all [Block.settleAll]

@[simp] theorem Block.admitTo_clocks (b : Block) (h : HalfId) (gid : Nat) (g : Graph) : (b.admitTo h gid g).clocks = b.clocks := by
  simp [Block.admitTo]

@[simp] theorem Block.endLaunch_clocks (b : Block) (t : TaskRef) (status detail : Nat) : (b.endLaunch t status detail).clocks = b.clocks := by
  unfold Block.endLaunch
  split
  · rfl
  · split
    · rw [Block.modSlot_clocks]
      split <;> simp
    · simp

theorem Block.report_clocks (b : Block) (h : HalfId) (w : WaitingGraph) (status gid badTask badOffset : Nat) :
    ∀ z, b.report h w status gid badTask badOffset = some z → z.clocks = b.clocks := by
  intro z e
  unfold Block.report at e
  split at e
  · split at e
    · exact Block.cqPush_clocks b _ _ _ z e
    · cases e; rfl
  · cases e; simp
  · split at e
    · cases e; rfl
    · split at e <;> cases e <;> simp

@[simp] theorem Block.enqueue_clocks (b : Block) (h : HalfId) (w : WaitingGraph) : (b.enqueue h w).clocks = b.clocks := by simp [Block.enqueue]

theorem Block.submit_clocks (b : Block) (h : HalfId) (member va : Nat) (src : SourceId) (depth : Nat) (launcher : Option TaskRef)
    (tag sqIndex : Nat) :
    ∀ z, b.submit h member va src depth launcher tag sqIndex = some z → z.clocks = b.clocks := by
  intro z e
  simp only [Block.submit] at e
  split at e
  · cases e; simp
  · split at e
    · cases e; simp
    · exact Block.report_clocks b _ _ _ _ _ _ z e

@[simp] theorem Block.dequeue_clocks (b : Block) (h : HalfId) (w : WaitingGraph) : (b.dequeue h w).clocks = b.clocks := by simp [Block.dequeue]

@[simp] theorem Block.checkSource_clocks (b : Block) (h : HalfId) (src : SourceId) (l : Nat) : (b.checkSource h src l).clocks = b.clocks := by
  induction l generalizing b with
  | zero => rfl
  | succ n ih =>
    unfold Block.checkSource
    split
    · rfl
    · split
      · rfl
      · split
        · simp
        · split
          · next e => rw [ih, Block.report_clocks _ _ _ _ _ _ _ _ e, Block.dequeue_clocks]
          · rfl

@[simp] theorem Block.checkHead_clocks (b : Block) (h : HalfId) (src : SourceId) : (b.checkHead h src).clocks = b.clocks := by simp [Block.checkHead]

@[simp] theorem Block.admitHead_clocks (b : Block) (h : HalfId) (w : WaitingGraph) (gid : Nat) : (b.admitHead h w gid).clocks = b.clocks := by
  unfold Block.admitHead
  split
  · split
    · simp
    · exact (Block.clocks_getD (Block.report_clocks _ _ _ _ _ _ _) (by simp))
  · split
    · rfl
    · dsimp only
      split
      · simp
      · exact (Block.clocks_getD (Block.report_clocks _ _ _ _ _ _ _) (by simp))

@[simp] theorem Block.deliver_clocks (b : Block) (t : TaskRef) (cancel : Option Nat) : (b.deliver t cancel).clocks = b.clocks := by
  simp only [Block.deliver]
  (repeat' split) <;> simp

@[simp] theorem Block.addStalls_clocks (b : Block) (l : List StallCount) : (b.addStalls l).clocks = b.clocks := by
  induction l generalizing b <;> simp_all [Block.addStalls]

@[simp] theorem Block.endConsumer_clocks (b : Block) (t : TaskRef) : (b.endConsumer t).clocks = b.clocks := by
  simp only [Block.endConsumer]
  (repeat' split) <;> simp

@[simp] theorem Block.failConsumers_clocks (b : Block) (t : TaskRef) (g : Graph) : (b.failConsumers t g).clocks = b.clocks := by
  simp [Block.failConsumers]

@[simp] theorem Block.retryRecord_clocks (b : Block) (t : TaskRef) : (b.retryRecord t).clocks = b.clocks := by
  unfold Block.retryRecord
  split
  · rfl
  · split
    · split
      · next e => rw [Block.afterRecord_clocks, Block.modReg_clocks, Block.tryRecord_clocks b t _ e]
      · rfl
      · rfl
    · rfl

@[simp] theorem Block.retryRecords_clocks (b : Block) (l : List TaskRef) : (b.retryRecords l).clocks = b.clocks := by
  induction l generalizing b <;> simp_all [Block.retryRecords]

@[simp] theorem Block.writeGraphHead_clocks (b : Block) (h : HalfId) (gid v : Nat) : (b.writeGraphHead h gid v).clocks = b.clocks := by
  simp only [Block.writeGraphHead]
  (repeat' split) <;> simp

@[simp] theorem Block.onRunning_clocks (b : Block) (t : TaskRef) (ty : Nat) (f : Graph → TaskCtx → Block) (hf : ∀ u0 u1,
    (f u0 u1).clocks = b.clocks) :
    (b.onRunning t ty f).clocks = b.clocks := by
  unfold Block.onRunning
  (repeat' split) <;> simp_all

/-! ### Far -/

@[simp] theorem Block.applyUpset_clocks (b : Block) (a : Nat) (l : Upset) : (b.applyUpset a l).clocks = b.clocks := by
  simp only [Block.applyUpset]
  (repeat' split) <;> simp

@[simp] theorem Block.deliverFar_clocks (b : Block) (t : TaskRef) (addr : Nat) (l : List Byte) : (b.deliverFar t addr l).clocks = b.clocks := by
  simp [Block.deliverFar]

@[simp] theorem Block.holdTag_clocks (b : Block) (h : HalfId) (tag : Nat) (r : Request) : (b.holdTag h tag r).clocks = b.clocks := by
  simp [Block.holdTag]

theorem Block.serve_clocks (b : Block) (r : Request) :
    (∀ z l, b.serve r = .done z l → z.clocks = b.clocks) ∧ ∀ z l, b.serve r = .failed z l → z.clocks = b.clocks := by
  simp only [Block.serve]
  (repeat' split) <;> simp

@[simp] theorem Block.serveHere_clocks (b : Block) (h : HalfId) (tag : Nat) (r : Request) : (b.serveHere h tag r).clocks = b.clocks := by
  unfold Block.serveHere
  split
  · next e => split <;> simp [(Block.serve_clocks b r).2 _ _ e]
  · next e => simp [(Block.serve_clocks b r).1 _ _ e]

@[simp] theorem Block.cross_clocks (b : Block) (h : HalfId) (tag : Nat) (r : Request) : (b.cross h tag r).clocks = b.clocks := by simp [Block.cross]

@[simp] theorem Block.launchHome_clocks (b : Block) (h : HalfId) (tag : Nat) (r : Request) : (b.launchHome h tag r).clocks = b.clocks := by
  simp [Block.launchHome]

@[simp] theorem Block.launch_clocks (b : Block) (h : HalfId) (tag : Nat) (r : Request) : (b.launch h tag r).clocks = b.clocks := by
  simp only [Block.launch]
  (repeat' split) <;> simp

@[simp] theorem Block.await_clocks (b : Block) (h : HalfId) (r : Request) : (b.await h r).clocks = b.clocks := by simp [Block.await]

@[simp] theorem Block.grant_clocks (b : Block) (h : HalfId) (r : Request) : (b.grant h r).clocks = b.clocks := by
  simp only [Block.grant]
  (repeat' split) <;> simp

@[simp] theorem Block.abortPublication_clocks (b : Block) (h : HalfId) (job : Nat) (d : TaskDesc) :
    (b.abortPublication h job d).clocks = b.clocks := by
  simp [Block.abortPublication]

@[simp] theorem Block.fixAll_clocks (b : Block) (st det : Nat) (l : List TaskRef) : (b.fixAll st det l).clocks = b.clocks := by
  induction l generalizing b st det <;> simp_all [Block.fixAll]

@[simp] theorem Block.fail_clocks (b : Block) (t : TaskRef) (st det : Nat) : (b.fail t st det).clocks = b.clocks := by
  simp only [Block.fail]
  (repeat' split) <;> simp

@[simp] theorem Block.failStop_clocks (b : Block) (t : TaskRef) (l : Stop) : (b.failStop t l).clocks = b.clocks := by
  simp only [Block.failStop]
  (repeat' split) <;> simp

@[simp] theorem Block.refuseIssue_clocks (b : Block) (r : Request) : (b.refuseIssue r).clocks = b.clocks := by
  simp only [Block.refuseIssue]
  (repeat' split) <;> simp

@[simp] theorem Block.issue_clocks (b : Block) (h : HalfId) (r : Request) : (b.issue h r).clocks = b.clocks := by
  simp only [Block.issue]
  (repeat' split) <;> simp

@[simp] theorem Block.issueAll_clocks (b : Block) (h : HalfId) (l : List Request) : (b.issueAll h l).clocks = b.clocks := by
  induction l generalizing b h <;> simp_all [Block.issueAll]

@[simp] theorem Block.askFar_clocks (b : Block) (t : TaskRef) (addr len : Nat) : (b.askFar t addr len).clocks = b.clocks := by simp [Block.askFar]

@[simp] theorem Block.stop_clocks (b : Block) (t : TaskRef) (l : Stop) : (b.stop t l).clocks = b.clocks := by
  simp only [Block.stop]
  (repeat' split) <;> simp

@[simp] theorem Block.mapObject_clocks (b : Block) (t : TaskRef) (handle : Nat) : (b.mapObject t handle).clocks = b.clocks := by
  simp only [Block.mapObject]
  (repeat' split) <;> simp

@[simp] theorem Block.mapAll_clocks (b : Block) (handle : Nat) (l : List TaskRef) : (b.mapAll handle l).clocks = b.clocks := by
  induction l generalizing b handle <;> simp_all [Block.mapAll]

@[simp] theorem Block.fillDone_clocks (b : Block) (t : TaskRef) (handle : Nat) : (b.fillDone t handle).clocks = b.clocks := by simp [Block.fillDone]

@[simp] theorem Block.publishData_clocks (b : Block) (t : TaskRef) : (b.publishData t).clocks = b.clocks := by
  simp only [Block.publishData]
  (repeat' split) <;> simp

@[simp] theorem Block.publishCommit_clocks (b : Block) (t : TaskRef) (d : TaskDesc) : (b.publishCommit t d).clocks = b.clocks := by
  simp [Block.publishCommit]

@[simp] theorem Block.answered_clocks (b : Block) (r : Request) (t : TaskRef) (data : List Byte) : (b.answered r t data).clocks = b.clocks := by
  simp only [Block.answered]
  (repeat' split) <;> simp

@[simp] theorem Block.refused_clocks (b : Block) (r : Request) (t : TaskRef) (status : Nat) : (b.refused r t status).clocks = b.clocks := by
  simp [Block.refused]

@[simp] theorem Block.homeAnswered_clocks (b : Block) (h : HalfId) (r : Request) (t : TaskRef) (status : Nat) (data : List Byte) :
    (b.homeAnswered h r t status data).clocks = b.clocks := by
  simp [Block.homeAnswered]

@[simp] theorem Block.completeRequest_clocks (b : Block) (h : HalfId) (tag status : Nat) (data : List Byte) :
    (b.completeRequest h tag status data).clocks = b.clocks := by
  simp only [Block.completeRequest]
  (repeat' split) <;> simp

@[simp] theorem Block.countLink_clocks (b : Block) (d : Destination) (write : Bool) (n : Nat) : (b.countLink d write n).clocks = b.clocks := by
  simp only [Block.countLink]
  (repeat' split) <;> simp

/-! ### Engine -/

@[simp] theorem Block.touchPieces_clocks (b : Block) (t : TaskRef) (k : Nat) (ps : List (Nat × Nat)) :
    (b.touchPieces t k ps).clocks = b.clocks := by
  simp [Block.touchPieces]

@[simp] theorem Block.noteAhead_clocks (b : Block) (h : HalfId) (k : Nat) (ps : List (Nat × Nat)) : (b.noteAhead h k ps).clocks = b.clocks := by
  simp [Block.noteAhead]

@[simp] theorem Block.touchSlots_clocks (b : Block) (t : TaskRef) (g : Graph) (c : TaskCtx) (slots : List Nat) :
    (b.touchSlots t g c slots).clocks = b.clocks := by
  simp [Block.touchSlots]

@[simp] theorem Block.touch_clocks (b : Block) (t : TaskRef) (g : Graph) (c : TaskCtx) : (b.touch t g c).clocks = b.clocks := by simp [Block.touch]

@[simp] theorem Block.land_clocks (b : Block) (t : TaskRef) (cells : List Host.Cell) (status detail : Nat) :
    (b.land t cells status detail).clocks = b.clocks := by
  simp only [Block.land]
  (repeat' split) <;> simp

@[simp] theorem Block.finish_clocks (b : Block) (t : TaskRef) (r : Res (List Host.Cell)) (status detail : Nat) :
    (b.finish t r status detail).clocks = b.clocks := by
  simp only [Block.finish]
  (repeat' split) <;> simp

@[simp] theorem Block.landPiece_clocks (b : Block) (p : Piece) : (b.landPiece p).clocks = b.clocks := by
  simp only [Block.landPiece]
  (repeat' split) <;> simp

@[simp] theorem Block.landPieces_clocks (b : Block) (ps : List Piece) : (b.landPieces ps).clocks = b.clocks := by simp [Block.landPieces]

@[simp] theorem Block.landFree_clocks (b : Block) (ps : List Piece) (lo hi : Nat) : (b.landFree ps lo hi).clocks = b.clocks := by
  simp [Block.landFree]

@[simp] theorem Block.landSome_clocks (b : Block) (shares : List (List Piece)) : (b.landSome shares).clocks = b.clocks := by simp [Block.landSome]

@[simp] theorem Block.landRun_clocks (b : Block) (shares : List (List Piece)) : (b.landRun shares).1.clocks = b.clocks := by
  simp only [Block.landRun]
  (repeat' split) <;> simp

@[simp] theorem Block.finishRun_clocks (b : Block) (t : TaskRef) (shares : List (List Piece)) (status detail : Nat) :
    (b.finishRun t shares status detail).clocks = b.clocks := by
  simp only [Block.finishRun]
  (repeat' split) <;> simp

@[simp] theorem Block.onMode_clocks (b : Block) (t : TaskRef) (ty mode : Nat) (f : Graph → TaskCtx → Block) (hf : ∀ u0 u1,
    (f u0 u1).clocks = b.clocks) :
    (b.onMode t ty mode f).clocks = b.clocks := by
  unfold Block.onMode
  simp_all

/-! ### Matrix -/

@[simp] theorem Block.modCore_clocks (b : Block) (n : Nat) (f : CoreEngines → CoreEngines) : (b.modCore n f).clocks = b.clocks := by
  simp [Block.modCore]

@[simp] theorem Block.clearBanks_clocks (b : Block) (n : Nat) : (b.clearBanks n).clocks = b.clocks := by simp [Block.clearBanks]
@[simp] theorem Block.bankError_clocks (b : Block) (t : TaskRef) (u : BankUpset) : (b.bankError t u).clocks = b.clocks := by simp [Block.bankError]

@[simp] theorem Block.addIssued_clocks (b : Block) (n issued skipped : Nat) : (b.addIssued n issued skipped).clocks = b.clocks := by
  simp [Block.addIssued]

@[simp] theorem Block.mxCount_clocks (b : Block) (a : Access) (c : TaskCtx) (q : Pairing) (made : List MxOut) (rank n : Nat) :
    (b.mxCount a c q made rank n).clocks = b.clocks := by
  simp [Block.mxCount]

@[simp] theorem Block.mxCountAll_clocks (b : Block) (a : Access) (c : TaskCtx) (q : Pairing) (run : List (List (List (Res MxOut)))) :
    (b.mxCountAll a c q run).clocks = b.clocks := by
  simp [Block.mxCountAll]

@[simp] theorem Block.mxCountPart_clocks (b : Block) (c : TaskCtx) (q : Pairing) (rank n : Nat) : (b.mxCountPart c q rank n).clocks = b.clocks := by
  simp [Block.mxCountPart]

@[simp] theorem Block.mxCountParts_clocks (b : Block) (c : TaskCtx) (q : Pairing) : (b.mxCountParts c q).clocks = b.clocks := by
  simp [Block.mxCountParts]

@[simp] theorem Block.startMatrix_clocks (b : Block) (t : TaskRef) (g : Graph) (c : TaskCtx) : (b.startMatrix t g c).clocks = b.clocks := by
  simp only [Block.startMatrix]
  (repeat' split) <;> simp

@[simp] theorem Block.mxEnd_clocks (b : Block) (t : TaskRef) (g : Graph) (c : TaskCtx) (st : ConvStats) : (b.mxEnd t g c st).clocks = b.clocks := by
  simp only [Block.mxEnd]
  (repeat' split) <;> simp

@[simp] theorem Block.debugAnswer_clocks (b : Block) (a : Actor) (n : Nat) (f : Block → Block) (hf : ∀ x : Block, (f x).clocks = x.clocks) :
    (b.debugAnswer a n f).block.clocks = b.clocks := by
  unfold Block.debugAnswer
  (repeat' split) <;> simp_all

@[simp] theorem Block.debugWrite_clocks (b0 : Block) (p : Path) (n : Nat) (f : Block → Block) (hf : ∀ x : Block, (f x).clocks = x.clocks) :
    (b0.debugWrite p n f).clocks = b0.clocks := by
  unfold Block.debugWrite
  simp_all

@[simp] theorem Block.requestHalt_clocks (b : Block) (n : Nat) : (b.requestHalt n).clocks = b.clocks := by simp [Block.requestHalt]
@[simp] theorem Block.unhalt_clocks (b : Block) (n : Nat) : (b.unhalt n).clocks = b.clocks := by simp [Block.unhalt]

/-! ### Vector -/

@[simp] theorem Block.vecStep_clocks (b : Block) (n : Nat) (p : VecPlace) : (b.vecStep n p).1.clocks = b.clocks := by
  simp only [Block.vecStep]
  (repeat' split) <;> simp

@[simp] theorem Block.vecOp_clocks (b : Block) (n op : Nat) (f : VecFields) : (b.vecOp n op f).clocks = b.clocks := by
  simp only [Block.vecOp]
  (repeat' split) <;> simp

@[simp] theorem Block.vxIssuedFree_clocks (b : Block) (c : TaskCtx) : (b.vxIssuedFree c).clocks = b.clocks := by simp [Block.vxIssuedFree]

@[simp] theorem Block.stopIssued_clocks (b : Block) (t : TaskRef) (c : TaskCtx) (e : Stop) : (b.stopIssued t c e).clocks = b.clocks := by
  simp only [Block.stopIssued]
  (repeat' split) <;> simp

@[simp] theorem Block.vecRun_clocks (b : Block) (n l : Nat) : (b.vecRun n l).1.clocks = b.clocks := by
  induction l generalizing b with
  | zero => rfl
  | succ k ih =>
    unfold Block.vecRun
    split
    · rfl
    · dsimp only; split <;> simp [ih]

@[simp] theorem Block.vecRunAll_clocks (b : Block) (c : TaskCtx) (l : List Nat) : (b.vecRunAll c l).1.clocks = b.clocks := by
  induction l generalizing b with
  | nil => rfl
  | cons k ks ih => unfold Block.vecRunAll; dsimp only; split <;> simp [ih]

@[simp] theorem Block.vecEnd_clocks (b : Block) (t : TaskRef) (g : Graph) (c : TaskCtx) (status detail : Nat) :
    (b.vecEnd t g c status detail).clocks = b.clocks := by
  simp [Block.vecEnd]

/-! ### Kv -/

@[simp] theorem Block.kvWalked_clocks (b : Block) (t : TaskRef) (w : KvWalk) : (b.kvWalked t w).clocks = b.clocks := by simp [Block.kvWalked]
@[simp] theorem Block.kvRunAhead_clocks (b : Block) (a : Access) (x : KvHeld) : (b.kvRunAhead a x).clocks = b.clocks := by simp [Block.kvRunAhead]

@[simp] theorem Block.kvStop_clocks (b : Block) (t : TaskRef) (a : Access) (c : TaskCtx) (e : Stop) : (b.kvStop t a c e).clocks = b.clocks := by
  simp only [Block.kvStop]
  (repeat' split) <;> simp

/-! ### Attention -/

@[simp] theorem Block.addReg_clocks (b : Block) (r n : Nat) : (b.addReg r n).clocks = b.clocks := by simp [Block.addReg]
@[simp] theorem Block.atCount_clocks (b : Block) (n : Nat) (l : List AtRun) : (b.atCount n l).clocks = b.clocks := by simp [Block.atCount]

@[simp] theorem Block.atCounts_clocks (b : Block) (c : TaskCtx) (l : List (List (Res AtRun))) : (b.atCounts c l).clocks = b.clocks := by
  simp [Block.atCounts]

@[simp] theorem Block.atCountParts_clocks (b : Block) (c : TaskCtx) : (b.atCountParts c).clocks = b.clocks := by simp [Block.atCountParts]

@[simp] theorem Block.atEnd_clocks (b : Block) (t : TaskRef) (g : Graph) (c : TaskCtx) (l : List AtRun) : (b.atEnd t g c l).clocks = b.clocks := by
  simp only [Block.atEnd]
  (repeat' split) <;> simp

@[simp] theorem Block.atLand_clocks (b : Block) (t : TaskRef) (g : Graph) (c : TaskCtx) (parity : Option BankUpset) (run : KvWalk × List (List
    (Res AtRun))) :
    (b.atLand t g c parity run).clocks = b.clocks := by
  simp only [Block.atLand]
  (repeat' split) <;> simp

@[simp] theorem Block.attention_clocks (b : Block) (t : TaskRef) (mode : Nat) (parity : Option BankUpset)
    (f : Block → Access → TaskCtx → KvWalk → Nat → AtUnit → KvWalk × Res AtRun) :
    (b.attention t mode parity f).clocks = b.clocks := by
  simp [Block.attention]

/-! ### Gate -/

@[simp] theorem Block.updateScale_clocks (b : Block) (h : HalfId) (k : Nat) (closed : Bool) : (b.updateScale h k closed).clocks = b.clocks := by
  simp [Block.updateScale]

@[simp] theorem Block.policyEntry_clocks (b : Block) (h : HalfId) (k step i : Nat) : (b.policyEntry h k step i).clocks = b.clocks := by
  simp [Block.policyEntry]

@[simp] theorem Block.latchEntry_clocks (b : Block) (h : HalfId) (k step i : Nat) : (b.latchEntry h k step i).clocks = b.clocks := by
  simp [Block.latchEntry]

@[simp] theorem Block.decideFormats_clocks (b : Block) (h : HalfId) (k step : Nat) : (b.decideFormats h k step).clocks = b.clocks := by
  simp [Block.decideFormats]

@[simp] theorem Block.dropHold_clocks (b : Block) (k va : Nat) : (b.dropHold k va).clocks = b.clocks := by
  simp only [Block.dropHold]
  (repeat' split) <;> simp

@[simp] theorem Block.dropHolds_clocks (b : Block) (h : HalfId) (k step : Nat) (consumed : Bool) :
    (b.dropHolds h k step consumed).clocks = b.clocks := by
  simp only [Block.dropHolds]
  (repeat' split) <;> simp

@[simp] theorem Block.clearStats_clocks (b : Block) (h : HalfId) (k step : Nat) : (b.clearStats h k step).clocks = b.clocks := by
  simp [Block.clearStats]

@[simp] theorem Block.failAllSteps_clocks (b : Block) (det : Nat) (l : List TaskRef) : (b.failAllSteps det l).clocks = b.clocks := by
  induction l generalizing b det <;> simp_all [Block.failAllSteps]

@[simp] theorem Block.repeatStep_clocks (b : Block) (h : HalfId) (k step : Nat) : (b.repeatStep h k step).clocks = b.clocks := by
  simp [Block.repeatStep]

@[simp] theorem Block.writeRecords_clocks (b : Block) (h : HalfId) (k first : Nat) (l : List (List Nat)) (ms1 : Nat) :
    (b.writeRecords h k first l ms1).clocks = b.clocks := by
  induction l generalizing b h k first ms1 <;> simp_all [Block.writeRecords]

@[simp] theorem Block.decideStep_clocks (b : Block) (h : HalfId) (k : Nat) (v : Verdict) : (b.decideStep h k v).clocks = b.clocks := by
  simp [Block.decideStep]

@[simp] theorem Block.applyVerdict_clocks (b : Block) (h : HalfId) (k : Nat) (v : Verdict) : (b.applyVerdict h k v).clocks = b.clocks := by
  simp [Block.applyVerdict]

/-! ### Collective -/

@[simp] theorem Block.onColl_clocks (b : Block) (t : TaskRef) (ops : List Nat) (f : Graph → TaskCtx → CollState → Plan → Block)
    (hf : ∀ u0 u1 u2 u3, (f u0 u1 u2 u3).clocks = b.clocks) :
    (b.onColl t ops f).clocks = b.clocks := by
  unfold Block.onColl
  (repeat' split) <;> simp_all

@[simp] theorem Block.modColl_clocks (b : Block) (t : TaskRef) (f : CollState → CollState) : (b.modColl t f).clocks = b.clocks := by
  simp [Block.modColl]

@[simp] theorem Block.countStray_clocks (b : Block) (h : HalfId) : (b.countStray h).clocks = b.clocks := by simp [Block.countStray]

@[simp] theorem Block.collSend_clocks (b : Block) (t : TaskRef) (g : Graph) (d : TaskDesc) (p : Plan) (ep cls op origin block : Nat)
    (payload : List Byte) :
    (b.collSend t g d p ep cls op origin block payload).clocks = b.clocks := by
  simp [Block.collSend]

@[simp] theorem Block.sendReadies_clocks (b : Block) (t : TaskRef) (g : Graph) (c : TaskCtx) (p : Plan) (n : Nat) (l : List Nat) :
    (b.sendReadies t g c p n l).clocks = b.clocks := by
  induction l generalizing b t g c p n <;> simp_all [Block.sendReadies]

@[simp] theorem Block.takeReady_clocks (b : Block) (t : TaskRef) (q : Packet) : (b.takeReady t q).clocks = b.clocks := by simp [Block.takeReady]

@[simp] theorem Block.takeReadies_clocks (b : Block) (t : TaskRef) (l : List Packet) : (b.takeReadies t l).clocks = b.clocks := by
  induction l generalizing b t <;> simp_all [Block.takeReadies]

@[simp] theorem Block.collFire_clocks (b : Block) (t : TaskRef) : (b.collFire t).clocks = b.clocks := by
  simp only [Block.collFire]
  (repeat' split) <;> simp

@[simp] theorem Block.collPump_clocks (b : Block) (t : TaskRef) (l : Nat) : (b.collPump t l).clocks = b.clocks := by
  induction l generalizing b with
  | zero => rfl
  | succ n ih =>
    rw [Block.collPump]
    refine b.onColl_clocks t _ _ (fun g c x p => ?_)
    split
    · rfl
    · split <;> simp [ih]

@[simp] theorem Block.collFinish_clocks (b : Block) (t : TaskRef) : (b.collFinish t).clocks = b.clocks := by simp [Block.collFinish]
@[simp] theorem Block.collGo_clocks (b : Block) (t : TaskRef) : (b.collGo t).clocks = b.clocks := by simp [Block.collGo]

@[simp] theorem Block.coLand_clocks (b : Block) (t : TaskRef) (i : Nat) (l : List Byte) (origin : Nat) :
    (b.coLand t i l origin).clocks = b.clocks := by
  refine b.onColl_clocks t _ _ (fun g c x p => ?_)
  split
  · simp
  · dsimp only; split <;> simp

@[simp] theorem Block.floodOn_clocks (b : Block) (t : TaskRef) (i : Nat) (l : List Byte) (origin : Nat) (mine : Bool) :
    (b.floodOn t i l origin mine).clocks = b.clocks := by
  simp [Block.floodOn]

@[simp] theorem Block.appendVerdict_clocks (b : Block) (t : TaskRef) : (b.appendVerdict t).clocks = b.clocks := by
  refine b.onColl_clocks t _ _ (fun g c x p => ?_)
  split <;> simp

@[simp] theorem Block.ownFinal_clocks (b : Block) (t : TaskRef) (i : Nat) (l : List Byte) (origin : Nat) :
    (b.ownFinal t i l origin).clocks = b.clocks := by
  simp [Block.ownFinal]

@[simp] theorem Block.noteBlock_clocks (b : Block) (t : TaskRef) (g : Graph) (origin : Nat) (made : Bool) :
    (b.noteBlock t g origin made).clocks = b.clocks := by
  simp [Block.noteBlock]

@[simp] theorem Block.emit2_clocks (b : Block) (t : TaskRef) (i : Nat) (l : List Byte) (origin : Nat) :
    (b.emit2 t i l origin).clocks = b.clocks := by
  simp [Block.emit2]

@[simp] theorem Block.collLink_clocks (b : Block) (t : TaskRef) (i : Nat) (x y : List Byte × Nat) : (b.collLink t i x y).2.clocks = b.clocks := by
  simp only [Block.collLink]
  (repeat' split) <;> simp

@[simp] theorem Block.levelOne_clocks (b : Block) (t : TaskRef) (i : Nat) (l : List Byte) (origin : Nat) :
    (b.levelOne t i l origin).clocks = b.clocks := by
  refine b.onColl_clocks t _ _ (fun g c x p => ?_)
  dsimp only
  split
  · simp
  · split
    · simp
    · split <;> simp

@[simp] theorem Block.emit1_clocks (b : Block) (t : TaskRef) (i : Nat) (l : List Byte) (origin : Nat) :
    (b.emit1 t i l origin).clocks = b.clocks := by
  simp [Block.emit1]

@[simp] theorem Block.startChain_clocks (b : Block) (t : TaskRef) (q : Nat) (l : List Nat) : (b.startChain t q l).clocks = b.clocks := by
  induction l generalizing b t q <;> simp_all [Block.startChain]

@[simp] theorem Block.noteOwn_clocks (b : Block) (t : TaskRef) (g : Graph) (d : TaskDesc) (l : List (List Byte)) :
    (b.noteOwn t g d l).clocks = b.clocks := by
  induction l generalizing b t g d <;> simp_all [Block.noteOwn]

@[simp] theorem Block.startFlood_clocks (b : Block) (t : TaskRef) (l : List Nat) : (b.startFlood t l).clocks = b.clocks := by
  induction l generalizing b t <;> simp_all [Block.startFlood]

@[simp] theorem Block.startChains_clocks (b : Block) (t : TaskRef) : (b.startChains t).clocks = b.clocks := by simp [Block.startChains]

@[simp] theorem Block.noteHold_clocks (b : Block) (t : TaskRef) (g : Graph) (c : TaskCtx) (late : Bool) (u : HoldUse) (w : Nat) :
    (b.noteHold t g c late u w).clocks = b.clocks := by
  simp only [Block.noteHold]
  (repeat' split) <;> simp

@[simp] theorem Block.collStart_clocks (b : Block) (t : TaskRef) : (b.collStart t).clocks = b.clocks := by
  refine b.onColl_clocks t _ _ (fun g c x p => ?_)
  dsimp only
  split
  · rfl
  · split
    · simp
    · split
      · simp
      · split
        · simp
        · split <;> simp

@[simp] theorem Block.ebbBlock_clocks (b : Block) (t : TaskRef) (two : Bool) (origin i : Nat) (l : List Byte) :
    (b.ebbBlock t two origin i l).clocks = b.clocks := by
  refine b.onColl_clocks t _ _ (fun g c x p => ?_)
  have hnote (p : Prop) [Decidable p] (origin : Nat) : (if p then b.noteBlock t g origin false else b).clocks = b.clocks := by
    split <;> simp
  dsimp only
  split
  · split
    · exact hnote _ _
    · split <;> simp
  · split
    · exact hnote _ _
    · simp

@[simp] theorem Block.ebbBlocks_clocks (b : Block) (t : TaskRef) (two : Bool) (origin : Nat) (l : List (Nat × List Byte)) :
    (b.ebbBlocks t two origin l).clocks = b.clocks := by
  fun_induction Block.ebbBlocks <;> simp_all

@[simp] theorem Block.startSkipped_clocks (b : Block) (t : TaskRef) (nb place g : Nat) (l : List Nat) :
    (b.startSkipped t nb place g l).clocks = b.clocks := by
  induction l generalizing b t nb place g <;> simp_all [Block.startSkipped]

@[simp] theorem Block.floodBlock_clocks (b : Block) (t : TaskRef) (origin i : Nat) (l : List Byte) :
    (b.floodBlock t origin i l).clocks = b.clocks := by
  simp [Block.floodBlock]

@[simp] theorem Block.floodBlocks_clocks (b : Block) (t : TaskRef) (origin : Nat) (l : List (Nat × List Byte)) :
    (b.floodBlocks t origin l).clocks = b.clocks := by
  induction l generalizing b t origin <;> simp_all [Block.floodBlocks]

@[simp] theorem Block.verdictLands_clocks (b : Block) (t : TaskRef) (l : List Byte) (mine on : Bool) :
    (b.verdictLands t l mine on).clocks = b.clocks := by
  simp [Block.verdictLands]

@[simp] theorem Block.takeBlocks_clocks (b : Block) (t : TaskRef) (q : Packet) : (b.takeBlocks t q).clocks = b.clocks := by
  refine b.onColl_clocks t _ _ (fun g c x p => ?_)
  extract_lets i away ring near two
  split
  · simp
  · refine Block.clocks_of_ite (by simp) ?_
    extract_lets b1 b2
    have hb2 : b2.clocks = b.clocks := Block.clocks_of_ite (by simp [b1]) (by simp [b1])
    (repeat' split) <;> simp [hb2]

@[simp] theorem Block.collTake_clocks (b : Block) (t : TaskRef) (q : Packet) : (b.collTake t q).clocks = b.clocks := by simp [Block.collTake]

@[simp] theorem Block.collDrain_clocks (b : Block) (t : TaskRef) (l : List Packet) : (b.collDrain t l).clocks = b.clocks := by
  induction l generalizing b t <;> simp_all [Block.collDrain]

@[simp] theorem Block.collBegin_clocks (b : Block) (t : TaskRef) : (b.collBegin t).clocks = b.clocks := by simp [Block.collBegin]

@[simp] theorem Block.peerPump_clocks (b : Block) (t : TaskRef) (l : Nat) : (b.peerPump t l).clocks = b.clocks := by
  induction l generalizing b with
  | zero => rfl
  | succ n ih =>
    rw [Block.peerPump]
    refine b.onColl_clocks t _ _ (fun g c x p => ?_)
    refine Block.clocks_of_ite rfl (Block.clocks_of_ite (Block.clocks_of_ite rfl ?_) (by simp))
    split <;> simp [ih]

@[simp] theorem Block.peerGo_clocks (b : Block) (t : TaskRef) : (b.peerGo t).clocks = b.clocks := by simp [Block.peerGo]

@[simp] theorem Block.peerEnd_clocks (b : Block) (t : TaskRef) : (b.peerEnd t).clocks = b.clocks := by
  refine b.onColl_clocks t _ _ (fun g c x p => ?_)
  dsimp only
  split
  · rfl
  · (repeat' split) <;> simp

@[simp] theorem Block.travelPump_clocks (b : Block) (t : TaskRef) (l : Nat) : (b.travelPump t l).clocks = b.clocks := by
  induction l generalizing b with
  | zero => rfl
  | succ n ih =>
    rw [Block.travelPump]
    refine b.onColl_clocks t _ _ (fun g c x p => ?_)
    split
    · rfl
    · split
      · split <;> simp
      · simp [ih]

@[simp] theorem Block.travelGo_clocks (b : Block) (t : TaskRef) : (b.travelGo t).clocks = b.clocks := by simp [Block.travelGo]
@[simp] theorem Block.travelEnd_clocks (b : Block) (t : TaskRef) : (b.travelEnd t).clocks = b.clocks := by simp [Block.travelEnd]
@[simp] theorem Block.strayRow_clocks (b : Block) (h : HalfId) (p : Packet) : (b.strayRow h p).clocks = b.clocks := by simp [Block.strayRow]

@[simp] theorem Block.landChunk_clocks (b : Block) (t : TaskRef) (g : Graph) (c : TaskCtx) (x : CollState) (z : Tensor) (r chunk key : Nat)
    (l : List Byte) :
    (b.landChunk t g c x z r chunk key l).clocks = b.clocks := by
  simp only [Block.landChunk]
  (repeat' split) <;> simp

@[simp] theorem Block.takeRow_clocks (b : Block) (t : TaskRef) (q : Packet) : (b.takeRow t q).clocks = b.clocks := by
  refine b.onColl_clocks t _ _ (fun g c x p => ?_)
  extract_lets d n e slot chunk z
  refine Block.clocks_of_ite (by simp) (Block.clocks_of_ite ?_ (Block.clocks_of_ite (by simp) (Block.clocks_of_ite (by simp) (by simp))))
  split
  · simp
  · exact Block.clocks_of_ite (by simp) (by simp)

@[simp] theorem Block.takeRows_clocks (b : Block) (t : TaskRef) (l : List Packet) : (b.takeRows t l).clocks = b.clocks := by
  induction l generalizing b t <;> simp_all [Block.takeRows]

@[simp] theorem Block.keepReady_clocks (b : Block) (h : HalfId) (p : Packet) : (b.keepReady h p).clocks = b.clocks := by simp [Block.keepReady]

@[simp] theorem Block.sendNotices_clocks (b : Block) (t : TaskRef) (g : Graph) (d : TaskDesc) (p : Plan) (late : Nat) (l : List Nat) :
    (b.sendNotices t g d p late l).clocks = b.clocks := by
  induction l generalizing b t g d p late <;> simp_all [Block.sendNotices]

@[simp] theorem Block.detectLate_clocks (b : Block) (t : TaskRef) (g : Graph) (d : TaskDesc) (p : Plan) (l : List (Nat × Nat)) :
    (b.detectLate t g d p l).clocks = b.clocks := by
  simp only [Block.detectLate]
  (repeat' split) <;> simp

@[simp] theorem Block.redirect_clocks (b : Block) (t : TaskRef) (old : Nat) (l : List CollOut) : (b.redirect t old l).clocks = b.clocks := by
  induction l generalizing b t old <;> simp_all [Block.redirect]

@[simp] theorem Block.skipOver_clocks (b : Block) (t : TaskRef) (g : Graph) (n : Nat) : (b.skipOver t g n).clocks = b.clocks := by
  simp [Block.skipOver]

@[simp] theorem Block.collLost_clocks (b : Block) (t : TaskRef) (lost : List Nat) : (b.collLost t lost).clocks = b.clocks := by
  refine b.onColl_clocks t _ _ (fun g c x p => ?_)
  split <;> simp

/-! ### Tiers -/

@[simp] theorem Block.retryJob_clocks (b : Block) (job : Nat) : (b.retryJob job).clocks = b.clocks := by simp [Block.retryJob]

@[simp] theorem Block.doMap_clocks (b : Block) (t : TaskRef) (g : Graph) (c : TaskCtx) : (b.doMap t g c).clocks = b.clocks := by
  simp only [Block.doMap]
  (repeat' split) <;> simp
  next e => exact Block.allocate_clocks e

@[simp] theorem Block.unmapPages_clocks (b : Block) (k : Nat) (l : List Nat) : (b.unmapPages k l).clocks = b.clocks := by
  fun_induction Block.unmapPages <;> simp_all

@[simp] theorem Block.doUnmap_clocks (b : Block) (t : TaskRef) (g : Graph) (c : TaskCtx) : (b.doUnmap t g c).clocks = b.clocks := by
  simp only [Block.doUnmap]
  (repeat' split) <;> simp

@[simp] theorem Block.startFill_clocks (b : Block) (t : TaskRef) (g : Graph) (d : TaskDesc) : (b.startFill t g d).clocks = b.clocks := by
  simp only [Block.startFill]
  (repeat' split) <;> simp <;> exact Block.allocate_clocks ‹_›

@[simp] theorem Block.writeQuery_clocks (b : Block) (t : TaskRef) (g : Graph) (c : TaskCtx) (v : Nat) :
    (b.writeQuery t g c v).clocks = b.clocks := by
  simp [Block.writeQuery]

@[simp] theorem Block.countOob_clocks (b : Block) (h : HalfId) (table : Tensor) (is : List Int) : (b.countOob h table is).clocks = b.clocks := by
  simp [Block.countOob]

theorem Block.adderRow_clocks (b : Block) (a : Access) (op : Nat) (table rows : Tensor) (i j : Nat) :
    (∀ z, b.adderRow a op table rows i j = .ok z → z.clocks = b.clocks) ∧ ∀ z, b.adderRow a op table rows i j = .error z → z.1.clocks = b.clocks := by
  unfold Block.adderRow
  split
  · simp
  · simp
  · split
    · simp
    · next cells _ =>
      have hland := Block.landCells_clocks b cells
      split <;> next e => simpa [e] using hland

theorem Block.adderRows_clocks (b : Block) (a : Access) (op : Nat) (table rows : Tensor) (l : List (Int × Nat)) :
    (∀ z, b.adderRows a op table rows l = .ok z → z.clocks = b.clocks) ∧ ∀ z, b.adderRows a op table rows l = .error z → z.1.clocks = b.clocks := by
  induction l generalizing b with
  | nil => exact ⟨fun z e => by cases e; rfl, fun z e => (nomatch e)⟩
  | cons p ps ih =>
    unfold Block.adderRows
    split
    · split
      · next e1 => exact ⟨fun z e => (nomatch e), fun z e => by cases e; exact (Block.adderRow_clocks _ _ _ _ _ _ _).2 _ e1⟩
      · next b1 e1 =>
        have hrow := (Block.adderRow_clocks _ _ _ _ _ _ _).1 _ e1
        exact ⟨fun z e => ((ih b1).1 z e).trans hrow, fun z e => ((ih b1).2 z e).trans hrow⟩
    · exact ih b

@[simp] theorem Block.freshList_clocks (b : Block) (l : Nat) : (b.freshList l).2.clocks = b.clocks := by
  induction l generalizing b <;> simp_all [Block.freshList]

@[simp] theorem Block.freeRows_clocks (b : Block) (a : Access) (table : Tensor) (l : List Int) : (b.freeRows a table l).clocks = b.clocks := by
  induction l generalizing b with
  | nil => rfl
  | cons i is ih =>
    simp only [Block.freeRows]
    split
    · split <;> simp [ih]
    · exact ih b

@[simp] theorem Block.startGather_clocks (b : Block) (t : TaskRef) (g : Graph) (c : TaskCtx) (is : List Int) :
    (b.startGather t g c is).clocks = b.clocks := by
  simp [Block.startGather]

@[simp] theorem Block.runGather_clocks (b : Block) (t : TaskRef) (mode : Nat) (body : Graph → TaskCtx → Access → List Int → Block → Block)
    (hbody : ∀ u0 u1 u2 u3 (x : Block), (body u0 u1 u2 u3 x).clocks = x.clocks) :
    (b.runGather t mode body).clocks = b.clocks := by
  refine b.onMode_clocks t _ _ _ (fun g c => ?_)
  dsimp only
  split
  · simp
  · split <;> simp [hbody]

@[simp] theorem Block.runAdders_clocks (b : Block) (t : TaskRef) (mode op : Nat) : (b.runAdders t mode op).clocks = b.clocks := by
  refine b.runGather_clocks t _ _ (fun g c a is x => ?_)
  dsimp only
  split
  · next e => simp [(Block.adderRows_clocks _ _ _ _ _ _).2 _ e]
  · next e =>
    rw [Block.fix_clocks, Block.clocks_ite, Block.freeRows_clocks, ite_self, (Block.adderRows_clocks _ _ _ _ _ _).1 _ e]

@[simp] theorem Block.modWindow_clocks (b : Block) (h : HalfId) (f : LendWindow → LendWindow) : (b.modWindow h f).clocks = b.clocks := by
  simp [Block.modWindow]

@[simp] theorem Block.entryPacket_clocks (b : Block) (h : HalfId) (p : Packet) (ok : Nat → Bool) (st : Option Nat) :
    (b.entryPacket h p ok st).clocks = b.clocks := by
  simp [Block.entryPacket]

@[simp] theorem Block.reserveWindow_clocks (b : Block) (h : HalfId) : (b.reserveWindow h).clocks = b.clocks := by
  simp only [Block.reserveWindow]
  split
  · simp
  · next e => simp [Block.allocFrames_clocks e]

@[simp] theorem Block.sendAll_clocks (b : Block) (h : HalfId) (op w2 : Nat) (payload : List Byte) (l : List Nat) :
    (b.sendAll h op w2 payload l).clocks = b.clocks := by
  induction l generalizing b h op w2 payload <;> simp_all [Block.sendAll]

@[simp] theorem Block.revoke_clocks (b : Block) (h : HalfId) : (b.revoke h).clocks = b.clocks := by simp [Block.revoke]

@[simp] theorem Block.dropObjects_clocks (b : Block) (h : HalfId) (l : List Nat) : (b.dropObjects h l).clocks = b.clocks := by
  induction l generalizing b h <;> simp_all [Block.dropObjects]

@[simp] theorem Block.localPacket_clocks (b : Block) (h : HalfId) (p : Packet) (ok : Bool) (n : Nat) (f : Block → Block) (hf : ∀ x : Block,
    (f x).clocks = x.clocks) :
    (b.localPacket h p ok n f).clocks = b.clocks := by
  unfold Block.localPacket
  (repeat' split) <;> simp_all

/-! ### HostLink -/

@[simp] theorem Block.idleCheck_clocks (b : Block) : (b.idleCheck).clocks = b.clocks := by simp [Block.idleCheck]

@[simp] theorem Block.configWord_clocks (b : Block) (i : Nat) : (b.configWord i).2.clocks = b.clocks := by
  simp only [Block.configWord]
  (repeat' split) <;> simp

@[simp] theorem Block.resetLink_clocks (b : Block) : (b.resetLink).clocks = b.clocks := by simp [Block.resetLink, Block.clocks, Block.idleCheck]
@[simp] theorem Block.releaseQueue_clocks (b : Block) (q : Nat) : (b.releaseQueue q).clocks = b.clocks := by simp [Block.releaseQueue]
@[simp] theorem Block.copyHead_clocks (b : Block) (q v : Nat) : (b.copyHead q v).clocks = b.clocks := by simp [Block.copyHead]

@[simp] theorem Block.writeQueueHead_clocks (b : Block) (q v addr : Nat) : (b.writeQueueHead q v addr).clocks = b.clocks := by
  simp only [Block.writeQueueHead]
  (repeat' split) <;> simp

theorem Block.entryDone_clocks (b : Block) (q i : Nat) (l : List Byte) (status badTask badOffset : Nat) :
    ∀ z, b.entryDone q i l status badTask badOffset = some z → z.clocks = b.clocks :=
  Block.cqPush_clocks b q _ _

@[simp] theorem Block.processEntry_clocks (b : Block) (q op : Nat) : (b.processEntry q op).clocks = b.clocks := by
  unfold Block.processEntry
  split
  · rfl
  · split
    · rfl
    · dsimp only
      split
      · rfl
      · next e =>
        rw [Block.modPair_clocks]
        split at e
        · exact Block.entryDone_clocks _ _ _ _ _ _ _ _ e
        · exact Block.submit_clocks _ _ _ _ _ _ _ _ _ _ e

@[simp] theorem Block.writeTail_clocks (b : Block) (q v : Nat) : (b.writeTail q v).clocks = b.clocks := by simp [Block.writeTail]
@[simp] theorem Block.destroyPair_clocks (b : Block) (q : Nat) : (b.destroyPair q).clocks = b.clocks := by simp [Block.destroyPair]
@[simp] theorem Block.createPair_clocks (b : Block) (q : Nat) (v : Word) : (b.createPair q v).clocks = b.clocks := by simp [Block.createPair]
@[simp] theorem Block.writePair_clocks (b : Block) (q : Nat) (v : Word) : (b.writePair q v).clocks = b.clocks := by simp [Block.writePair]
@[simp] theorem Block.resumeAgain_clocks (b : Block) : (b.resumeAgain).clocks = b.clocks := by simp [Block.resumeAgain]
@[simp] theorem Block.pairWrite_clocks (b : Block) (q : Nat) (v : Word) : (b.pairWrite q v).clocks = b.clocks := by simp [Block.pairWrite]
@[simp] theorem Block.startSlack_clocks (b : Block) : (b.startSlack).clocks = b.clocks := by simp [Block.startSlack]

@[simp] theorem Block.enterSlack_clocks (b : Block) (a : Actor) : (b.enterSlack a).block.clocks = b.clocks := by
  simp only [Block.enterSlack]
  (repeat' split) <;> simp

@[simp] theorem Block.portsFromTo_clocks (b : Block) (h : HalfId) (x y : Nat) : (b.portsFromTo h x y).clocks = b.clocks := by simp [Block.portsFromTo]
@[simp] theorem Block.stopTest_clocks (b : Block) (h : HalfId) (ch : Nat) : (b.stopTest h ch).clocks = b.clocks := by simp [Block.stopTest]
@[simp] theorem Block.stopTests_clocks (b : Block) (h : HalfId) : (b.stopTests h).clocks = b.clocks := by simp [Block.stopTests]
@[simp] theorem Block.startWake_clocks (b : Block) : (b.startWake).clocks = b.clocks := by simp [Block.startWake]

@[simp] theorem Block.wake_clocks (b : Block) (a : Actor) : (b.wake a).block.clocks = b.clocks := by
  simp only [Block.wake]
  (repeat' split) <;> simp

/-! ### Image -/

@[simp] theorem Block.setBoth_clocks (b : Block) (f : HalfId → Nat) (v : Nat) : (b.setBoth f v).clocks = b.clocks := by simp [Block.setBoth]

@[simp] theorem Block.setBothList_clocks (b : Block) (f : HalfId → Nat) (l : List Nat) (ms1 : Nat) : (b.setBothList f l ms1).clocks = b.clocks := by
  induction l generalizing b f ms1 <;> simp_all [Block.setBothList]

@[simp] theorem Block.push_clocks (b : Block) (c : ConfigSlot) : (b.push c).clocks = b.clocks := by
  simp only [Block.push, Block.setImage_clocks]
  split <;> simp only [Block.setReg_clocks, Block.setBoth_clocks, Block.setBothList_clocks]

/-! ### Start -/

@[simp] theorem Block.tornWrites_clocks (b : Block) : (b.tornWrites).clocks = b.clocks := by simp [Block.tornWrites]
@[simp] theorem Block.setPhase_clocks (b : Block) (code detail : Nat) : (b.setPhase code detail).clocks = b.clocks := by simp [Block.setPhase]
@[simp] theorem Block.enterStep_clocks (b : Block) (n : Nat) : (b.enterStep n).clocks = b.clocks := by simp [Block.enterStep]
@[simp] theorem Block.failStep_clocks (b : Block) (code detail : Nat) : (b.failStep code detail).clocks = b.clocks := by simp [Block.failStep]

@[simp] theorem Block.logUnsigned_clocks (b : Block) (x : Option FirmwareSlot) : (b.logUnsigned x).clocks = b.clocks := by
  simp only [Block.logUnsigned]
  (repeat' split) <;> simp

@[simp] theorem Block.raiseFloor_clocks (b : Block) (x : FirmwareSlot) : (b.raiseFloor x).clocks = b.clocks := by simp [Block.raiseFloor]
@[simp] theorem Block.flushQueues_clocks (b : Block) : (b.flushQueues).clocks = b.clocks := by simp [Block.flushQueues]

@[simp] theorem Block.bootZilsy_clocks (b : Block) (isB : Bool) (x : FirmwareSlot) : (b.bootZilsy isB x).clocks = b.clocks := by
  simp [Block.bootZilsy]

@[simp] theorem Block.logLayers_clocks (b : Block) (c : Option ConfigSlot) : (b.logLayers c).clocks = b.clocks := by
  simp only [Block.logLayers]
  (repeat' split) <;> simp

@[simp] theorem Block.recoverAs_clocks (b : Block) (isB : Bool) (c : ConfigSlot) (seq role keyId : Nat) :
    (b.recoverAs isB c seq role keyId).clocks = b.clocks := by
  simp [Block.recoverAs]

@[simp] theorem Block.recoverCommit_clocks (b : Block) (isB : Bool) (c : ConfigSlot) (seq : Nat) :
    (b.recoverCommit isB c seq).clocks = b.clocks := by
  simp only [Block.recoverCommit]
  (repeat' split) <;> simp

@[simp] theorem Block.trainedBay_clocks (b : Block) (r : BayTraining) (slow : Bool) (h : HalfId) (c : Nat) :
    (b.trainedBay r slow h c).clocks = b.clocks := by
  simp [Block.trainedBay]

@[simp] theorem Block.trainBay_clocks (b : Block) (r : BayTraining) (slow : Bool) (h : HalfId) : (b.trainBay r slow h).clocks = b.clocks := by
  simp [Block.trainBay]

@[simp] theorem Block.testFill_clocks (b : Block) (l : List Nat) : (b.testFill l).clocks = b.clocks := by simp [Block.testFill]
@[simp] theorem Block.markFailed_clocks (b : Block) (h : HalfId) (l : List Nat) : (b.markFailed h l).clocks = b.clocks := by simp [Block.markFailed]

@[simp] theorem Block.logSpares_clocks (b : Block) (h : HalfId) (l : List (Nat × Nat)) : (b.logSpares h l).clocks = b.clocks := by
  induction l generalizing b h <;> simp_all [Block.logSpares]

@[simp] theorem Block.useSpare_clocks (b : Block) (h : HalfId) (l : List (Nat × Nat)) (layer : Nat) : (b.useSpare h l layer).clocks = b.clocks := by
  simp only [Block.useSpare]
  (repeat' split) <;> simp

@[simp] theorem Block.clearShelf_clocks (b : Block) (h : HalfId) : (b.clearShelf h).clocks = b.clocks := by simp [Block.clearShelf]

@[simp] theorem Block.trainShelf_clocks (b : Block) (h : HalfId) (l : List (Nat × Nat)) (eyes : List Nat) :
    (b.trainShelf h l eyes).clocks = b.clocks := by
  simp [Block.trainShelf]

@[simp] theorem Block.joinStep4_clocks (b : Block) : (b.joinStep4).clocks = b.clocks := by simp [Block.joinStep4]

@[simp] theorem Block.endShelf_clocks (b : Block) (h : HalfId) (l : List (Nat × Nat)) (eyes : List Nat) :
    (b.endShelf h l eyes).clocks = b.clocks := by
  simp [Block.endShelf]

@[simp] theorem Block.startDisabled_clocks (b : Block) (h : HalfId) (key kind index : Nat) (failed : Bool) :
    (b.startDisabled h key kind index failed).clocks = b.clocks := by
  simp [Block.startDisabled]

@[simp] theorem Block.applyDisabled_clocks (b : Block) : (b.applyDisabled).clocks = b.clocks := by simp [Block.applyDisabled]

@[simp] theorem Block.failCores_clocks (b : Block) (l : List (Fin 80)) : (b.failCores l).clocks = b.clocks := by
  induction l generalizing b <;> simp_all [Block.failCores]

@[simp] theorem Block.logTimes_clocks (b : Block) (e : Event) (n : Nat) : (b.logTimes e n).clocks = b.clocks := by simp [Block.logTimes]
@[simp] theorem Block.loadRoutes_clocks (b : Block) (h : HalfId) : (b.loadRoutes h).clocks = b.clocks := by simp [Block.loadRoutes]
@[simp] theorem Block.trainPorts_clocks (b : Block) (h : HalfId) : (b.trainPorts h).clocks = b.clocks := by simp [Block.trainPorts]
@[simp] theorem Block.lendAtStart_clocks (b : Block) (h : HalfId) : (b.lendAtStart h).clocks = b.clocks := by simp [Block.lendAtStart]

/-! ### Zilsy -/

@[simp] theorem Block.writeCap_clocks (b : Block) (a : Actor) (v : Nat) : (b.writeCap a v).block.clocks = b.clocks := by
  simp only [Block.writeCap]
  (repeat' split) <;> simp

@[simp] theorem Block.flushMerging_clocks (b : Block) : (b.flushMerging).clocks = b.clocks := by simp [Block.flushMerging]

@[simp] theorem Block.copyPeaks_clocks (b old : Block) (l : List Nat) : (b.copyPeaks old l).clocks = b.clocks := by
  induction l generalizing b old <;> simp_all [Block.copyPeaks]

@[simp] theorem Block.keepPeaks_clocks (old b : Block) : (old.keepPeaks b).clocks = b.clocks := by simp [Block.keepPeaks]
@[simp] theorem Block.writeBusy_clocks (b : Block) (x : Bool) : (b.writeBusy x).clocks = b.clocks := by simp [Block.writeBusy]
@[simp] theorem Block.startWrite_clocks (b : Block) (w : ConfigWrite) : (b.startWrite w).clocks = b.clocks := by simp [Block.startWrite]

@[simp] theorem Block.nextWrite_clocks (b : Block) : (b.nextWrite).clocks = b.clocks := by
  simp only [Block.nextWrite]
  (repeat' split) <;> simp

@[simp] theorem Block.abandonWrite_clocks (b : Block) (step : Nat) : (b.abandonWrite step).clocks = b.clocks := by simp [Block.abandonWrite]

@[simp] theorem Block.showSlot_clocks (b : Block) (isB : Bool) (c : ConfigSlot) (seq : Nat) : (b.showSlot isB c seq).clocks = b.clocks := by
  simp [Block.showSlot]

@[simp] theorem Block.commitWrite_clocks (b : Block) (w : ConfigWrite) (c : ConfigSlot) : (b.commitWrite w c).clocks = b.clocks := by
  simp [Block.commitWrite]

@[simp] theorem Block.setOtherFirmware_clocks (b : Block) (x : Option FirmwareSlot) : (b.setOtherFirmware x).clocks = b.clocks := by
  simp [Block.setOtherFirmware]

@[simp] theorem Block.closeStaging_clocks (b : Block) : (b.closeStaging).clocks = b.clocks := by simp [Block.closeStaging]

@[simp] theorem Block.applyLayer_clocks (b : Block) (a : Actor) (x : Staging) (which : Nat) (ok : Bool) :
    (b.applyLayer a x which ok).block.clocks = b.clocks := by
  simp only [Block.applyLayer]
  (repeat' split) <;> simp

@[simp] theorem Block.applyFirmware_clocks (b : Block) (a : Actor) (x : Staging) (o : StagedObject) :
    (b.applyFirmware a x o).block.clocks = b.clocks := by
  simp only [Block.applyFirmware]
  (repeat' split) <;> simp

@[simp] theorem Block.revokeKey_clocks (b : Block) (keyId : Nat) : (b.revokeKey keyId).clocks = b.clocks := by simp [Block.revokeKey]

/-! ### Census -/

@[simp] theorem Block.setCensusFld_clocks (b : Block) (hi lo v : Nat) : (b.setCensusFld hi lo v).clocks = b.clocks := by simp [Block.setCensusFld]

@[simp] theorem Block.setCensus_clocks (b : Block) (h : HalfId) (st : Nat) : (b.setCensus h st).clocks = b.clocks := by
  simp only [Block.setCensus]
  (repeat' split) <;> simp

@[simp] theorem Block.startCensus_clocks (b : Block) (h : HalfId) : (b.startCensus h).clocks = b.clocks := by simp [Block.startCensus]
@[simp] theorem Block.setLeader_clocks (b : Block) (m rank : Nat) : (b.setLeader m rank).clocks = b.clocks := by simp [Block.setLeader]

@[simp] theorem Block.fillSubst_clocks (b : Block) (h : HalfId) (l : List (Nat × Nat)) (ms1 : Nat) : (b.fillSubst h l ms1).clocks = b.clocks := by
  induction l generalizing b h ms1 <;> simp_all [Block.fillSubst]

@[simp] theorem Block.applyCensus_clocks (b : Block) (h : HalfId) (done : Nat) (es : List (Nat × Nat)) :
    (b.applyCensus h done es).clocks = b.clocks := by
  simp [Block.applyCensus]

@[simp] theorem Block.manageAll_clocks (b : Block) (h : HalfId) (dest op : Nat) (l : List (List Byte)) :
    (b.manageAll h dest op l).clocks = b.clocks := by
  induction l generalizing b h dest op <;> simp_all [Block.manageAll]

@[simp] theorem Block.completeCensus_clocks (b : Block) : (b.completeCensus).clocks = b.clocks := by simp [Block.completeCensus]
@[simp] theorem Block.censusCheck_clocks (b : Block) : (b.censusCheck).clocks = b.clocks := by simp [Block.censusCheck]
@[simp] theorem Block.holderTakes_clocks (b : Block) (l : List Byte) : (b.holderTakes l).clocks = b.clocks := by simp [Block.holderTakes]

@[simp] theorem Block.reporterTakes_clocks (b : Block) (l : List Byte) : (b.reporterTakes l).clocks = b.clocks := by
  simp only [Block.reporterTakes]
  (repeat' split) <;> simp

@[simp] theorem Block.reportReady_clocks (b : Block) : (b.reportReady).clocks = b.clocks := by
  simp only [Block.reportReady]
  (repeat' split) <;> simp

/-! ### Efing -/

@[simp] theorem Block.countPort_clocks (b : Block) (h : HalfId) (x hi lo n : Nat) : (b.countPort h x hi lo n).clocks = b.clocks := by
  simp [Block.countPort]

@[simp] theorem Block.watchPorts_clocks (b : Block) : (b.watchPorts).clocks = b.clocks := by simp [Block.watchPorts]

@[simp] theorem Block.dropLink_clocks (b : Block) (h : HalfId) (x st cause : Nat) (retraining : Bool) :
    (b.dropLink h x st cause retraining).clocks = b.clocks := by
  simp [Block.dropLink]

@[simp] theorem Block.fencePort_clocks (b : Block) (h : HalfId) (x cause : Nat) : (b.fencePort h x cause).clocks = b.clocks := by
  simp [Block.fencePort]

@[simp] theorem Block.retrain_clocks (b : Block) (h : HalfId) (x : Nat) : (b.retrain h x).clocks = b.clocks := by simp [Block.retrain]

@[simp] theorem Block.riseLink_clocks (b : Block) (h : HalfId) (x : Nat) (again : Bool) : (b.riseLink h x again).clocks = b.clocks := by
  simp [Block.riseLink]

@[simp] theorem Block.sendIdentity_clocks (b : Block) (h : HalfId) (x : Nat) : (b.sendIdentity h x).clocks = b.clocks := by simp [Block.sendIdentity]

@[simp] theorem Block.emitAll_clocks (b : Block) (h : HalfId) (x : Nat) (l : List Packet) : (b.emitAll h x l).clocks = b.clocks := by
  induction l generalizing b h x <;> simp_all [Block.emitAll]

@[simp] theorem Block.replayLink_clocks (b : Block) (h : HalfId) (x : Nat) : (b.replayLink h x).clocks = b.clocks := by simp [Block.replayLink]

@[simp] theorem Block.takeAck_clocks (b : Block) (h : HalfId) (x kind ack : Nat) : (b.takeAck h x kind ack).clocks = b.clocks := by
  simp [Block.takeAck]

@[simp] theorem Block.takeCredits_clocks (b : Block) (h : HalfId) (x cls n : Nat) : (b.takeCredits h x cls n).clocks = b.clocks := by
  simp [Block.takeCredits]

@[simp] theorem Block.orphan_clocks (b : Block) (h : HalfId) (p : Packet) : (b.orphan h p).clocks = b.clocks := by simp [Block.orphan]

@[simp] theorem Block.arrive_clocks (b : Block) (h : HalfId) (x : Nat) (l : List Packet) : (b.arrive h x l).clocks = b.clocks := by
  induction l generalizing b h x <;> simp_all [Block.arrive]

@[simp] theorem Block.takeLstate_clocks (b : Block) (h : HalfId) (x ls : Nat) : (b.takeLstate h x ls).clocks = b.clocks := by simp [Block.takeLstate]

@[simp] theorem Block.takeControl_clocks (b : Block) (h : HalfId) (x : Nat) (w : Word) : (b.takeControl h x w).clocks = b.clocks := by
  simp [Block.takeControl]

@[simp] theorem Block.routeAll_clocks (b : Block) (h : HalfId) (l : List Packet) : (b.routeAll h l).clocks = b.clocks := by
  induction l generalizing b h <;> simp_all [Block.routeAll]

/-! ### Video -/

@[simp] theorem Block.modHarbour_clocks (b : Block) (h : HalfId) (f : Harbour → Harbour) : (b.modHarbour h f).clocks = b.clocks := by
  simp [Block.modHarbour]

@[simp] theorem Block.assignUnit_clocks (b : Block) (t : TaskRef) (p : Nat) : (b.assignUnit t p).clocks = b.clocks := by simp [Block.assignUnit]
@[simp] theorem Block.countPipe_clocks (b : Block) (h : HalfId) (p n : Nat) : (b.countPipe h p n).clocks = b.clocks := by simp [Block.countPipe]

@[simp] theorem Block.countUnit_clocks (b : Block) (t : TaskRef) (n : Nat) : (b.countUnit t n).clocks = b.clocks := by
  simp only [Block.countUnit]
  (repeat' split) <;> simp

@[simp] theorem Block.setStream_clocks (b : Block) (h : HalfId) (i : Nat) (x : StreamCtx) : (b.setStream h i x).clocks = b.clocks := by
  simp [Block.setStream]

@[simp] theorem Block.modStream_clocks (b : Block) (h : HalfId) (i : Nat) (f : StreamCtx → StreamCtx) : (b.modStream h i f).clocks = b.clocks := by
  simp only [Block.modStream]
  (repeat' split) <;> simp

@[simp] theorem Block.joinStream_clocks (b : Block) (t : TaskRef) (i : Nat) : (b.joinStream t i).clocks = b.clocks := by simp [Block.joinStream]
@[simp] theorem Block.closeStreams_clocks (b : Block) (job : Nat) : (b.closeStreams job).clocks = b.clocks := rfl
@[simp] theorem Block.countClip_clocks (b : Block) (h : HalfId) (k : Clip) : (b.countClip h k).clocks = b.clocks := by simp [Block.countClip]
@[simp] theorem Block.countStatus_clocks (b : Block) (h : HalfId) (st : Nat) : (b.countStatus h st).clocks = b.clocks := by simp [Block.countStatus]

@[simp] theorem Block.stopStream_clocks (b : Block) (t : TaskRef) (i : Nat) (e : Stop) : (b.stopStream t i e).clocks = b.clocks := by
  simp only [Block.stopStream]
  (repeat' split) <;> simp

@[simp] theorem Block.endDecode_clocks (b : Block) (t : TaskRef) (g : Graph) (c : TaskCtx) (k : Clip) (n : Nat) (r : Nat × Nat × Bool)
    (cells : List Host.Cell) :
    (b.endDecode t g c k n r cells).clocks = b.clocks := by
  simp only [Block.endDecode]
  (repeat' split) <;> simp

/-! ### Media -/

@[simp] theorem Block.countSample_clocks (b : Block) (h : HalfId) (st : Nat) : (b.countSample h st).clocks = b.clocks := by simp [Block.countSample]

@[simp] theorem Block.endSample_clocks (b : Block) (t : TaskRef) (cells : List Host.Cell) (shapes : List Nat) (st det : Nat) :
    (b.endSample t cells shapes st det).clocks = b.clocks := by
  simp [Block.endSample]

/-! ### Functions -/

@[simp] theorem Block.funcLog_clocks (b : Block) (f : FuncId) (event arg1 : Nat) : (b.funcLog f event arg1).clocks = b.clocks := by
  simp [Block.funcLog]

@[simp] theorem Block.funcRefused_clocks (b : Block) (f : FuncId) (what value status : Nat) :
    (b.funcRefused f what value status).clocks = b.clocks := by
  simp [Block.funcRefused]

@[simp] theorem Block.enablePort_clocks (b : Block) (h : HalfId) (x : Nat) : (b.enablePort h x).clocks = b.clocks := by simp [Block.enablePort]

@[simp] theorem Block.enableFunc_clocks (b : Block) (a : Actor) (f : FuncId) (what : Nat) : (b.enableFunc a f what).block.clocks = b.clocks := by
  simp only [Block.enableFunc]
  (repeat' split) <;> simp

@[simp] theorem Block.freshContext_clocks (b : Block) (t : TaskRef) : (b.freshContext t).clocks = b.clocks := by
  simp only [Block.freshContext]
  (repeat' split) <;> simp

@[simp] theorem Block.abortAll_clocks (b : Block) (detail : Nat) (l : List TaskRef) : (b.abortAll detail l).clocks = b.clocks := by
  induction l generalizing b detail <;> simp_all [Block.abortAll]

@[simp] theorem Block.flushPort_clocks (b : Block) (h : HalfId) (x : Nat) : (b.flushPort h x).clocks = b.clocks := by simp [Block.flushPort]
@[simp] theorem Block.freeArrays_clocks (b : Block) (ts : List TaskRef) : (b.freeArrays ts).clocks = b.clocks := by simp [Block.freeArrays]

@[simp] theorem Block.manageTo_clocks (b : Block) (h : HalfId) (op : Nat) (l : List (Nat × List Byte)) : (b.manageTo h op l).clocks = b.clocks := by
  induction l generalizing b h op <;> simp_all [Block.manageTo]

@[simp] theorem Block.ackAborts_clocks (b : Block) (k : Nat) : (b.ackAborts k).clocks = b.clocks := by simp [Block.ackAborts]
@[simp] theorem Block.closePort_clocks (b : Block) (h : HalfId) (x : Nat) : (b.closePort h x).clocks = b.clocks := by simp [Block.closePort]

theorem Block.addRow_clocks (b : Block) (k : Nat) (r : PageRow) : ∀ z, b.addRow k r = .ok z → z.clocks = b.clocks := by
  simp only [Block.addRow]
  (repeat' split) <;> simp

theorem Block.addRows_clocks (b : Block) (k : Nat) (l : List PageRow) : ∀ z, b.addRows k l = .ok z → z.clocks = b.clocks := by
  induction l generalizing b with
  | nil => rintro z ⟨⟩; rfl
  | cons r rs ih =>
    intro z e
    rw [Block.addRows] at e
    split at e
    · cases e
    · next e1 => rw [ih _ z e, Block.addRow_clocks b k r _ e1]

@[simp] theorem Block.clearRegs_clocks (b : Block) (lo hi : Nat) : (b.clearRegs lo hi).clocks = b.clocks := by simp [Block.clearRegs]
@[simp] theorem Block.clearSlot_clocks (b : Block) (h : HalfId) (k : Nat) : (b.clearSlot h k).clocks = b.clocks := by simp [Block.clearSlot]

@[simp] theorem Block.setHashes_clocks (b : Block) (h : HalfId) (k : Nat) (x : List Nat × List Nat × List Nat) :
    (b.setHashes h k x).clocks = b.clocks := by
  simp [Block.setHashes]

@[simp] theorem Block.storeExperts_clocks (b : Block) (h : HalfId) (k : Nat) (l : List Nat) : (b.storeExperts h k l).clocks = b.clocks := by
  simp [Block.storeExperts]

@[simp] theorem Block.clearStalls_clocks (b : Block) (h : HalfId) (v : Word) : (b.clearStalls h v).clocks = b.clocks := by simp [Block.clearStalls]
@[simp] theorem Block.invalidateKv_clocks (b : Block) (h : HalfId) (k : Nat) : (b.invalidateKv h k).clocks = b.clocks := by simp [Block.invalidateKv]

/-! ### Tide -/

@[simp] theorem Block.setTideStat_clocks (b : Block) (h : HalfId) (hi lo v : Nat) : (b.setTideStat h hi lo v).clocks = b.clocks := by
  simp [Block.setTideStat]

@[simp] theorem Block.sendTime_clocks (b : Block) (h : HalfId) (x op tx : Nat) (payload : List Byte) :
    (b.sendTime h x op tx payload).clocks = b.clocks := by
  simp [Block.sendTime]

@[simp] theorem Block.syncLinks_clocks (b : Block) (h : HalfId) (l : List Nat) : (b.syncLinks h l).clocks = b.clocks := by
  induction l generalizing b h <;> simp_all [Block.syncLinks]

@[simp] theorem Block.unbufferTime_clocks (b : Block) (h : HalfId) (x op : Nat) : (b.unbufferTime h x op).clocks = b.clocks := by
  simp only [Block.unbufferTime]
  (repeat' split) <;> simp

/-! ### Lease -/

@[simp] theorem Block.modDomain_clocks (b : Block) (f : Domain → Domain) : (b.modDomain f).clocks = b.clocks := by simp [Block.modDomain]
@[simp] theorem Block.keepRecord_clocks (b : Block) (l : List Byte) : (b.keepRecord l).clocks = b.clocks := by simp [Block.keepRecord]

@[simp] theorem Block.sendRecord_clocks (b : Block) (l : List Byte) (ms : List Nat) : (b.sendRecord l ms).clocks = b.clocks := by
  induction ms generalizing b <;> simp_all [Block.sendRecord]

@[simp] theorem Block.appendRecord_clocks (b : Block) (draft : List Byte) : (b.appendRecord draft).clocks = b.clocks := by
  rw [Block.appendRecord, Block.sendRecord_clocks, Block.modDomain_clocks, Block.keepRecord_clocks]

@[simp] theorem Block.payOwed_clocks (b : Block) (l : List Byte) (ep word : Nat) : (b.payOwed l ep word).clocks = b.clocks := by simp [Block.payOwed]
@[simp] theorem Block.payAll_clocks (b : Block) (l : List Byte) : (b.payAll l).clocks = b.clocks := by simp [Block.payAll]
@[simp] theorem Block.orderAll_clocks (b : Block) (l : List Byte) : (b.orderAll l).clocks = b.clocks := by simp [Block.orderAll]

@[simp] theorem Block.declareLost_clocks (b : Block) (tray cause : Nat) : (b.declareLost tray cause).clocks = b.clocks := by
  unfold Block.declareLost
  split
  · rfl
  · rw [Block.appendRecord_clocks, Block.clocks_foldl _ (fun x l => Block.sendRecord_clocks x l _), Block.modDomain_clocks]

@[simp] theorem Block.trySubst_clocks (b : Block) : (b.trySubst).clocks = b.clocks := by
  simp only [Block.trySubst]
  (repeat' split) <;> simp

@[simp] theorem Block.resumeJobs_clocks (b : Block) (tray : Nat) : (b.resumeJobs tray).clocks = b.clocks := by
  unfold Block.resumeJobs
  split
  · rfl
  · exact Block.clocks_foldl _ (fun _ _ => by split <;> simp) _ _

@[simp] theorem Block.actOn_clocks (b : Block) (l : List Byte) : (b.actOn l).clocks = b.clocks := by
  simp only [Block.actOn]
  (repeat' split) <;> simp

@[simp] theorem Block.complete_clocks (b : Block) (seq : Nat) : (b.complete seq).clocks = b.clocks := by
  simp only [Block.complete]
  (repeat' split) <;> simp

@[simp] theorem Block.pump_clocks (b : Block) (l : Nat) : (b.pump l).clocks = b.clocks := by
  induction l generalizing b with
  | zero => rfl
  | succ n ih =>
    rw [Block.pump]
    split
    · simp only [ih]; split <;> simp
    · split <;> simp [ih]

@[simp] theorem Block.lead_clocks (b : Block) : (b.lead).clocks = b.clocks := by simp [Block.lead]

@[simp] theorem Block.takeLead_clocks (b : Block) : (b.takeLead).clocks = b.clocks := by
  unfold Block.takeLead
  rw [Block.lead_clocks, Block.appendRecord_clocks, Block.clocks_foldl _ (fun _ _ => by split <;> simp), Block.modDomain_clocks]

@[simp] theorem Block.readReplicas_clocks (b : Block) (old : Option Nat) : (b.readReplicas old).clocks = b.clocks := by simp [Block.readReplicas]

@[simp] theorem Block.readDone_clocks (b : Block) (gone : Nat → Bool) : (b.readDone gone).clocks = b.clocks := by
  simp only [Block.readDone]
  (repeat' split) <;> simp

@[simp] theorem Block.showLease_clocks (b : Block) (rank m t : Nat) : (b.showLease rank m t).clocks = b.clocks := by simp [Block.showLease]
@[simp] theorem Block.sendLease_clocks (b : Block) : (b.sendLease).clocks = b.clocks := by simp [Block.sendLease]
@[simp] theorem Block.dropLease_clocks (b : Block) : (b.dropLease).clocks = b.clocks := by simp [Block.dropLease]
@[simp] theorem Block.reappend_clocks (b : Block) : (b.reappend).clocks = b.clocks := by simp [Block.reappend]
@[simp] theorem Block.hearLease_clocks (b : Block) (rank t m : Nat) : (b.hearLease rank t m).clocks = b.clocks := by simp [Block.hearLease]

@[simp] theorem Block.takeVerdict_clocks (b : Block) (l : List Byte) (ep run : Nat) : (b.takeVerdict l ep run).clocks = b.clocks := by
  simp only [Block.takeVerdict]
  (repeat' split) <;> simp

@[simp] theorem Block.answerBlock_clocks (b : Block) (h : HalfId) (g : Graph) (c : TaskCtx) (w0 w1 : Nat) :
    (b.answerBlock h g c w0 w1).2.clocks = b.clocks := by
  simp only [Block.answerBlock]
  (repeat' split) <;> simp

@[simp] theorem Block.ownerAck_clocks (b : Block) (h : HalfId) (l : List Byte) (run : Nat) : (b.ownerAck h l run).clocks = b.clocks := by
  simp only [Block.ownerAck]
  (repeat' split) <;> simp

@[simp] theorem Block.leaderRepeat_clocks (b : Block) (job step : Nat) : (b.leaderRepeat job step).clocks = b.clocks := by simp [Block.leaderRepeat]

@[simp] theorem Block.answerTasks_clocks (b : Block) (h : HalfId) (w0 w1 : Nat) (l : List (TaskRef × Graph × TaskCtx)) :
    (b.answerTasks h w0 w1 l).clocks = b.clocks := by
  induction l generalizing b h w0 w1 <;> simp_all [Block.answerTasks]

@[simp] theorem Block.ackAction_clocks (b : Block) (h : HalfId) (p : Packet) : (b.ackAction h p).clocks = b.clocks := by simp [Block.ackAction]

@[simp] theorem Block.recovery_clocks (b0 : Block) (h : HalfId) (p : Packet) (kind : Nat) (f : Block → List Byte → Block) (hf : ∀ (x : Block) u0,
    (f x u0).clocks = x.clocks) :
    (b0.recovery h p kind f).clocks = b0.clocks := by
  unfold Block.recovery
  (repeat' split) <;> simp_all

@[simp] theorem Block.fenceTray_clocks (b : Block) (h : HalfId) (tray : Nat) : (b.fenceTray h tray).clocks = b.clocks := by simp [Block.fenceTray]
@[simp] theorem Block.loseTray_clocks (b : Block) (h : HalfId) (tray : Nat) : (b.loseTray h tray).clocks = b.clocks := by simp [Block.loseTray]

/-! ### TierRegs -/

@[simp] theorem Block.mainGo_clocks (b : Block) (h : HalfId) (job : Nat) (retire : Bool) : (b.mainGo h job retire).block.clocks = b.clocks := by
  simp only [Block.mainGo]
  (repeat' split) <;> simp

@[simp] theorem Block.writeLend_clocks (b : Block) (a : Actor) (h : HalfId) (v : Nat) : (b.writeLend a h v).block.clocks = b.clocks := by
  simp only [Block.writeLend]
  (repeat' split) <;> simp

/-! ### ShelfBay -/

@[simp] theorem Block.scrubBad_clocks (b : Block) (h : HalfId) (l : List Nat) : (b.scrubBad h l).clocks = b.clocks := by
  induction l generalizing b h <;> simp_all [Block.scrubBad]

@[simp] theorem Block.scrubUpset_clocks (b : Block) (a : Nat) (l : Upset) : (b.scrubUpset a l).clocks = b.clocks := by
  simp only [Block.scrubUpset]
  (repeat' split) <;> simp

@[simp] theorem Block.testGo_clocks (b : Block) (h : HalfId) (ch mode : Nat) : (b.testGo h ch mode).block.clocks = b.clocks := by
  simp only [Block.testGo]
  (repeat' split) <;> simp

@[simp] theorem Block.sweepBad_clocks (b : Block) (h : HalfId) (ch first n : Nat) (l : List TgLine) :
    (b.sweepBad h ch first n l).clocks = b.clocks := by
  induction l generalizing b h ch first n <;> simp_all [Block.sweepBad]

/-! ### Batch -/

@[simp] theorem Block.nextPosition_clocks (b : Block) (t : TaskRef) (a : Access) (c : TaskCtx) (w : BatchWork) (cells : List Host.Cell) :
    (b.nextPosition t a c w cells).clocks = b.clocks := by
  simp only [Block.nextPosition]
  (repeat' split) <;> simp

@[simp] theorem Block.fillPosition_clocks (b : Block) (t : TaskRef) (a : Access) (c : TaskCtx) (w : BatchWork) (own : List Host.Cell) :
    (b.fillPosition t a c w own).clocks = b.clocks := by
  simp only [Block.fillPosition]
  (repeat' split) <;> simp

@[simp] theorem Block.failAttempt_clocks (b : Block) (t : TaskRef) (a : Access) (c : TaskCtx) (w : BatchWork) (st det : Nat) :
    (b.failAttempt t a c w st det).clocks = b.clocks := by
  simp only [Block.failAttempt]
  (repeat' split) <;> simp

@[simp] theorem Block.onAugment_clocks (b : Block) (t : TaskRef) (code : Nat) (f : TaskCtx → BatchWork → (Nat → Nat) → AugRecord → BatchWork) :
    (b.onAugment t code f).clocks = b.clocks := by
  refine b.onRunning_clocks t _ _ (fun g c => ?_)
  dsimp only
  (repeat' split) <;> simp

/-! ### Conv -/

@[simp] theorem Block.convCount_clocks (b : Block) (c : TaskCtx) (q : Pairing) : (b.convCount c q).clocks = b.clocks := by simp [Block.convCount]
@[simp] theorem Block.convCountParts_clocks (b : Block) (c : TaskCtx) : (b.convCountParts c).clocks = b.clocks := by simp [Block.convCountParts]
@[simp] theorem Block.startConv_clocks (b : Block) (c : TaskCtx) : (b.startConv c).clocks = b.clocks := by simp [Block.startConv]

@[simp] theorem Block.convLand_clocks (b : Block) (t : TaskRef) (c : TaskCtx) (parity : Option BankUpset) (run : List (Res Stored) × Nat)
    (f : Block → ConvStats → Block) (hf : ∀ (x : Block) u0, (f x u0).clocks = x.clocks) :
    (b.convLand t c parity run f).clocks = b.clocks := by
  simp only [Block.convLand]
  (repeat' split) <;> simp [hf]

@[simp] theorem Block.convTask_clocks (b : Block) (t : TaskRef) (g : Graph) (c : TaskCtx) (parity : Option BankUpset) :
    (b.convTask t g c parity).clocks = b.clocks := by
  simp only [Block.convTask]
  (repeat' split) <;> simp

/-! ### Fire -/

@[simp] theorem Block.startTask_clocks (b : Block) (t : TaskRef) (g : Graph) (c : TaskCtx) : (b.startTask t g c).clocks = b.clocks := by
  simp only [Block.startTask]
  (repeat' split) <;> simp

@[simp] theorem Block.checkFired_clocks (b : Block) (t : TaskRef) (g : Graph) (c : TaskCtx) : (b.checkFired t g c).clocks = b.clocks := by
  simp only [Block.checkFired]
  (repeat' split) <;> simp

@[simp] theorem Block.contextUpset_clocks (b : Block) (h : HalfId) (l : Upset) : (b.contextUpset h l).clocks = b.clocks := by
  simp only [Block.contextUpset]
  (repeat' split) <;> simp

/-! ### Power -/

@[simp] theorem Block.rampUp_clocks (b : Block) (issued : Nat) : (b.rampUp issued).clocks = b.clocks := by simp [Block.rampUp]
@[simp] theorem Block.limit_clocks (b : Block) (est want : Nat) : (b.limit est want).clocks = b.clocks := by simp [Block.limit]
@[simp] theorem Block.setRail_clocks (b : Block) (r : Nat) (x : Nat × Nat) : (b.setRail r x).clocks = b.clocks := by simp [Block.setRail]
@[simp] theorem Block.openHints_clocks (b : Block) : (b.openHints).clocks = b.clocks := by simp [Block.openHints]
@[simp] theorem Block.setTemp_clocks (b : Block) (a : Nat) (seen : Bool) (t : Int) : (b.setTemp a seen t).clocks = b.clocks := by simp [Block.setTemp]

@[simp] theorem Block.setTemps_clocks (b : Block) (l : List Int) (ms1 : Nat) : (b.setTemps l ms1).clocks = b.clocks := by
  induction l generalizing b ms1 <;> simp_all [Block.setTemps]

@[simp] theorem Block.setChannels_clocks (b : Block) (l : List Int) (ms1 : Nat) : (b.setChannels l ms1).clocks = b.clocks := by
  induction l generalizing b ms1 <;> simp_all [Block.setChannels]

@[simp] theorem Block.followBand_clocks (b : Block) (h : HalfId) : (b.followBand h).clocks = b.clocks := by simp [Block.followBand]

@[simp] theorem Block.logThermal_clocks (b : Block) (t : Int) (severity : Nat) : (b.logThermal t severity).clocks = b.clocks := by
  simp [Block.logThermal]

@[simp] theorem Block.throttle_clocks (b : Block) (t : Int) : (b.throttle t).clocks = b.clocks := by simp [Block.throttle]

/-! ### RegWrite -/

@[simp] theorem Block.ignoreWrite_clocks (b : Block) (a : Actor) (addr : Nat) (v : Word) (perm : Bool) :
    (b.ignoreWrite a addr v perm).block.clocks = b.clocks := by
  simp [Block.ignoreWrite]

@[simp] theorem Block.storeReg_clocks (b : Block) (a : Actor) (r : RegRow) (addr : Nat) (v : Word) :
    (b.storeReg a r addr v).block.clocks = b.clocks := by
  simp only [Block.storeReg]
  (repeat' split) <;> simp

@[simp] theorem Block.debugCommand_clocks (b : Block) (a : Actor) (n : Nat) (v : Word) : (b.debugCommand a n v).block.clocks = b.clocks := by
  simp only [Block.debugCommand]
  (repeat' split) <;> simp

@[simp] theorem Block.slackCommand_clocks (b : Block) (a : Actor) (v : Word) : (b.slackCommand a v).block.clocks = b.clocks := by
  simp only [Block.slackCommand]
  (repeat' split) <;> simp

@[simp] theorem Block.maskWrite_clocks (b : Block) (vec : Nat) (r : RegRow) (v : Word) : (b.maskWrite vec r v).clocks = b.clocks := by
  simp [Block.maskWrite]

@[simp] theorem Block.mailboxGo_clocks (b : Block) (a : Actor) (v : Word) : (b.mailboxGo a v).block.clocks = b.clocks := by
  simp only [Block.mailboxGo]
  (repeat' split) <;> simp

@[simp] theorem Block.pairCommand_clocks (b : Block) (a : Actor) (q off : Nat) (r : RegRow) (v : Word) :
    (b.pairCommand a q off r v).block.clocks = b.clocks := by
  simp only [Block.pairCommand]
  (repeat' split) <;> simp

theorem Block.moduleCommand_clocks (b : Block) (a : Actor) (addr : Nat) (r : RegRow) (v : Word) :
    ∀ z, b.moduleCommand a addr r v = some z → z.block.clocks = b.clocks := by
  simp only [Block.moduleCommand]
  (repeat' split) <;> simp

@[simp] theorem Block.shapeWrite_clocks (b : Block) (addr : Nat) (v : Word) : (b.shapeWrite addr v).block.clocks = b.clocks := by
  simp [Block.shapeWrite]

/-! ### Attest -/

@[simp] theorem Block.leaveDomain_clocks (b : Block) : (b.leaveDomain).clocks = b.clocks := by simp [Block.leaveDomain]
@[simp] theorem Block.resetZilsy_clocks (b : Block) : (b.resetZilsy).clocks = b.clocks := by simp [Block.resetZilsy]

/-! ### Functions, and writes of registers -/

@[simp] theorem Block.setFunc_clocks (b : Block) (f : FuncId) (x : FuncState) : (b.setFunc f x).clocks = b.clocks := by
  cases f <;> simp [Block.setFunc]

@[simp] theorem Block.startDrain_clocks (b : Block) (f : FuncId) : (b.startDrain f).clocks = b.clocks := by
  simp only [Block.startDrain]
  (repeat' split) <;> simp

@[simp] theorem Block.disableFunc_clocks (b : Block) (a : Actor) (f : FuncId) : (b.disableFunc a f).block.clocks = b.clocks := by
  simp only [Block.disableFunc]
  split <;> simp

@[simp] theorem Block.abortFor_clocks (b : Block) (f : FuncId) (ts : List TaskRef) : (b.abortFor f ts).clocks = b.clocks := by
  simp only [Block.abortFor]
  (repeat' split) <;> simp

@[simp] theorem Block.closeSlot_clocks (b : Block) (k : Nat) : (b.closeSlot k).clocks = b.clocks := by
  simp [Block.closeSlot, Block.releaseSlot]

@[simp] theorem Block.drainSlots_clocks (b : Block) (ks : List Nat) : (b.drainSlots ks).clocks = b.clocks := by
  induction ks generalizing b with
  | nil => rfl
  | cons k ks ih => rw [Block.drainSlots, ih, Block.startDrain_clocks]

theorem Block.bind_clocks {b z : Block} {k job : Nat} {tables : List PageRow} (e : b.bind k job tables = .ok z) : z.clocks = b.clocks := by
  unfold Block.bind at e
  split at e
  · cases e
  · split at e
    · cases e
    · next b1 hrows =>
      split at e
      · cases e
      · split at e <;> cases e
        simp [Block.addRows_clocks b k tables b1 hrows]

@[simp] theorem Block.bindWrite_clocks (b : Block) (k job : Nat) (tables : List PageRow) :
    (b.bindWrite k job tables).block.clocks = b.clocks := by
  simp only [Block.bindWrite]
  split
  · simp
  · split
    · simp
    · next e => simp [Block.bind_clocks e]

@[simp] theorem Block.funcCommand_clocks (b : Block) (a : Actor) (addr : Nat) (v : Word) : (b.funcCommand a addr v).block.clocks = b.clocks := by
  simp only [Block.funcCommand]
  (repeat' split) <;> simp

@[simp] theorem Block.slotCommand_clocks (b : Block) (k : Nat) (v : Word) : (b.slotCommand k v).block.clocks = b.clocks := by
  simp only [Block.slotCommand]
  (repeat' split) <;> simp

theorem Block.halfCommand_clocks (b : Block) (a : Actor) (addr : Nat) (v : Word) :
    ∀ y, b.halfCommand a addr v = some y → y.block.clocks = b.clocks := by
  simp only [Block.halfCommand]
  repeat' refine forall_some_of_ite ?_ ?_
  all_goals rintro y ⟨⟩
  all_goals (repeat' split) <;> simp

@[simp] theorem Block.writeReg_clocks (b : Block) (a : Actor) (addr : Nat) (v : Word) : (b.writeReg a addr v).block.clocks = b.clocks := by
  simp only [Block.writeReg]
  split
  · split <;> simp
  · split
    · simp
    · split
      · simp
      · split
        · simp
        · split
          · simp
          · split
            · next e =>
              split at e
              · exact Block.halfCommand_clocks b a addr v _ e
              · exact Block.moduleCommand_clocks b _ _ _ _ _ e
            · split <;> simp

/-! ## What a step does to the counters -/

/-- What no step but a start anew undoes: lock, running, and from then on how far the counter has come (R326). -/
structure TideClock.Kept (c d : TideClock) : Prop where
  locked : c.everLocked = true → d.everLocked = true
  runs : c.running = true → d.running = true
  rises : c.everLocked = true → c.running = true → c.now ≤ d.now

theorem TideClock.Kept.refl (c : TideClock) : c.Kept c := ⟨id, id, fun _ _ => Nat.le_refl _⟩

theorem TideClock.Kept.trans {c d e : TideClock} (h : c.Kept d) (g : d.Kept e) : c.Kept e :=
  ⟨g.locked ∘ h.locked, g.runs ∘ h.runs, fun hl hr => (h.rises hl hr).trans (g.rises (h.locked hl) (h.runs hr))⟩

/-- Both clocks kept. -/
def ClocksKept (x y : TideClock × TideClock) : Prop := x.1.Kept y.1 ∧ x.2.Kept y.2

theorem ClocksKept.ofEq {x y : TideClock × TideClock} (h : y = x) : ClocksKept x y := h ▸ ⟨.refl _, .refl _⟩

theorem ClocksKept.trans {x y z : TideClock × TideClock} (h : ClocksKept x y) (g : ClocksKept y z) : ClocksKept x z :=
  ⟨h.1.trans g.1, h.2.trans g.2⟩

theorem ClocksKept.half {b c : Block} (h : ClocksKept b.clocks c.clocks) (k : HalfId) : (b.half k).tide.Kept (c.half k).tide := by
  cases k
  · exact h.1
  · exact h.2

/-- One half's clock of the two changed. -/
def changeClock : HalfId → (TideClock → TideClock) → TideClock × TideClock → TideClock × TideClock
  | .a, f, x => (f x.1, x.2)
  | .b, f, x => (x.1, f x.2)

theorem changeClock_changeClock (h : HalfId) (f g : TideClock → TideClock) (x : TideClock × TideClock) :
    changeClock h g (changeClock h f x) = changeClock h (fun c => g (f c)) x := by
  cases h <;> rfl

/-- A change that keeps the half's own clock. -/
theorem Block.clocksKept_change {b : Block} {h : HalfId} {f : TideClock → TideClock} (hf : (b.half h).tide.Kept (f (b.half h).tide)) :
    ClocksKept b.clocks (changeClock h f b.clocks) := by
  cases h
  · exact ⟨hf, .refl _⟩
  · exact ⟨.refl _, hf⟩

/-- A clock with the same lock, count and run. -/
theorem TideClock.Kept.ofSame {c d : TideClock} (hl : d.everLocked = c.everLocked) (hr : d.running = c.running) (hn : d.now = c.now) : c.Kept d :=
  ⟨fun h => hl.trans h, fun h => hr.trans h, fun _ _ => hn.ge⟩

theorem TideClock.Kept.lock (c : TideClock) : c.Kept { c with everLocked := true } := ⟨fun _ => rfl, id, fun _ _ => Nat.le_refl _⟩

/-! ### The operations on Tide -/

@[simp] theorem Block.modTide_clocks (b : Block) (h : HalfId) (f : TideClock → TideClock) : (b.modTide h f).clocks = changeClock h f b.clocks := by
  cases h <;> rfl

theorem Block.slewed_clocksKept (b : Block) (h : HalfId) : ClocksKept b.clocks (b.slewed h).clocks := by
  have hchange : ClocksKept b.fresh.2.clocks (b.slewed h).clocks := by
    simp only [Block.slewed, Block.modTide_clocks]
    exact Block.clocksKept_change (.ofSame rfl rfl rfl)
  rwa [Block.fresh_clocks] at hchange

@[simp] theorem Block.lockTide_clocks (b : Block) (h : HalfId) :
    (b.lockTide h).clocks = changeClock h (fun c => { c with everLocked := true }) b.clocks := by
  simp only [Block.lockTide]
  split <;> simp

theorem Block.lockTide_clocksKept (b : Block) (h : HalfId) : ClocksKept b.clocks (b.lockTide h).clocks := by
  rw [Block.lockTide_clocks]
  exact Block.clocksKept_change (.lock _)

theorem Block.takeParent_clocksKept (b : Block) (h : HalfId) (x : Nat) : ClocksKept b.clocks (b.takeParent h x).clocks := by
  simp only [Block.takeParent, Block.setTideStat_clocks, Block.modTide_clocks]
  exact Block.clocksKept_change (.ofSame rfl rfl rfl)

theorem Block.loseParent_clocksKept (b : Block) (h : HalfId) : ClocksKept b.clocks (b.loseParent h).clocks := by
  simp only [Block.loseParent]
  split
  all_goals
    simp only [Block.setTideStat_clocks, Block.modTide_clocks, changeClock_changeClock]
    exact Block.clocksKept_change (.ofSame rfl rfl rfl)

/-- The one exchange that sets a counter is of a half that was never Locked. -/
theorem Block.steer_clocksKept (b : Block) (h : HalfId) (x t1 t2 t3 : Nat) : ClocksKept b.clocks (b.steer h x t1 t2 t3).clocks := by
  unfold Block.steer
  extract_lets t there back theta delta b1 good b2
  split
  · next hnever =>
    simp only [b1, Block.setTideStat_clocks, Block.setReg_clocks, Block.modTide_clocks]
    exact Block.clocksKept_change ⟨fun hl => absurd hl hnever.1, fun _ => rfl, fun hl => absurd hl hnever.1⟩
  · have hslewed : ClocksKept b.clocks b2.clocks := by
      refine (ClocksKept.ofEq (by simp [b1])).trans ((b1.slewed_clocksKept h).trans ?_)
      simp only [b2, Block.modTide_clocks]
      exact Block.clocksKept_change (.ofSame rfl rfl rfl)
    split
    · exact hslewed.trans (b2.lockTide_clocksKept h)
    · exact hslewed

/-- A root that does not run yet starts at any value. -/
theorem Block.startRoot_clocksKept (b : Block) (h : HalfId) (now ref : Nat) (hrun : ¬ (b.half h).tide.running = true) :
    ClocksKept b.clocks (b.startRoot h now ref).clocks := by
  simp only [Block.startRoot, Block.lockTide_clocks, Block.setTideStat_clocks, Block.modTide_clocks, changeClock_changeClock]
  exact Block.clocksKept_change ⟨fun _ => rfl, fun _ => rfl, fun _ hr => absurd hr hrun⟩

theorem Block.reference_clocksKept (b : Block) (h : HalfId) (now ref : Nat) : ClocksKept b.clocks (b.reference h now ref).clocks := by
  simp only [Block.reference]
  split
  · exact .ofEq rfl
  · split
    · next hrun => exact b.startRoot_clocksKept h now ref hrun
    · simpa using b.slewed_clocksKept h

theorem Block.loseReference_clocksKept (b : Block) (h : HalfId) : ClocksKept b.clocks (b.loseReference h).clocks := by
  simp only [Block.loseReference]
  split
  · simp only [Block.log_clocks, Block.setTideStat_clocks, Block.modTide_clocks]
    exact Block.clocksKept_change (.ofSame rfl rfl rfl)
  · exact .ofEq rfl

theorem Block.backUpRoot_clocksKept (b : Block) (h : HalfId) (tray : Nat) : ClocksKept b.clocks (b.backUpRoot h tray).clocks := by
  simp only [Block.backUpRoot]
  split
  · simp only [Block.lockTide_clocks, Block.setTideStat_clocks, Block.modTide_clocks, changeClock_changeClock]
    exact Block.clocksKept_change ⟨fun _ => rfl, id, fun _ _ => Nat.le_refl _⟩
  · exact .ofEq rfl

theorem TideClock.advance_kept (c : TideClock) : c.Kept c.advance := ⟨id, id, fun _ _ => Nat.le_add_right _ _⟩

theorem Block.tick_clocksKept (b : Block) : ClocksKept b.clocks b.tick.clocks := by
  simp only [Block.tick, Block.clocks]
  split
  · exact ⟨TideClock.advance_kept _, TideClock.advance_kept _⟩
  · exact .ofEq rfl

/-! ### Commands -/

/-- A command's meaning leaves both clocks alone. -/
def KeepsClocks (f : State → Host.Outcome State Fault Refusal) : Prop :=
  ∀ s t, f s = .next t → t.block.clocks = s.block.clocks

/-- A command's meaning keeps both clocks, or starts the module anew. -/
def MovesClocks (f : State → Host.Outcome State Fault Refusal) : Prop :=
  ∀ s t, f s = .next t → t.block.clocks = Block.reset.clocks ∨ ClocksKept s.block.clocks t.block.clocks

theorem KeepsClocks.moves {f : State → Host.Outcome State Fault Refusal} (h : KeepsClocks f) : MovesClocks f :=
  fun s t e => .inr (.ofEq (h s t e))

theorem MovesClocks.ofAct {f : Block → Block} (hf : ∀ b, (f b).clocks = Block.reset.clocks ∨ ClocksKept b.clocks (f b).clocks) :
    MovesClocks (fun s => s.act f) := by
  rintro s t ⟨⟩
  exact hf s.block

theorem KeepsClocks.ofAct {f : Block → Block} (hf : ∀ b, (f b).clocks = b.clocks) : KeepsClocks (fun s => s.act f) := by
  rintro s t ⟨⟩
  exact hf s.block

theorem KeepsClocks.onRunning {t : TaskRef} {ty : Nat} {f : Block → Graph → TaskCtx → Block} (hf : ∀ b g c, (f b g c).clocks = b.clocks) :
    KeepsClocks (fun s => s.act fun b => b.onRunning t ty (f b)) :=
  .ofAct fun b => b.onRunning_clocks t ty _ (hf b)

theorem KeepsClocks.onMode {t : TaskRef} {ty mode : Nat} {f : Block → Graph → TaskCtx → Block} (hf : ∀ b g c, (f b g c).clocks = b.clocks) :
    KeepsClocks (fun s => s.act fun b => b.onMode t ty mode (f b)) :=
  .ofAct fun b => b.onMode_clocks t ty mode _ (hf b)

theorem KeepsClocks.onColl {t : TaskRef} {ops : List Nat} {f : Block → Graph → TaskCtx → CollState → Plan → Block}
    (hf : ∀ b g c x p, (f b g c x p).clocks = b.clocks) : KeepsClocks (fun s => s.act fun b => b.onColl t ops (f b)) :=
  .ofAct fun b => b.onColl_clocks t ops _ (hf b)

theorem KeepsClocks.receive {h : HalfId} {p : Packet} {cls : Nat} {ops : List Nat} {f : Block → Block} (hf : ∀ b, (f b).clocks = b.clocks) :
    KeepsClocks (fun s => s.act fun b => b.receive h p cls ops f) :=
  .ofAct fun b => b.receive_clocks h p cls ops _ hf

theorem KeepsClocks.command {m : Envelope} {roles : Block → List Nat} {needed : Block → Nat} {f : Block → Actor → Block → Answer}
    (hf : ∀ c a b, (f c a b).block.clocks = b.clocks) : KeepsClocks (fun s => s.act fun b => b.command m (roles b) (needed b) (f b)) :=
  .ofAct fun b => b.command_clocks m _ _ _ (hf b)

theorem KeepsClocks.recovery {h : HalfId} {p : Packet} {kind : Nat} {f : Block → List Byte → Block} (hf : ∀ b l, (f b l).clocks = b.clocks) :
    KeepsClocks (fun s => s.act fun b => b.recovery h p kind f) :=
  .ofAct fun b => b.recovery_clocks h p kind _ hf

/-- An instruction of the vector engines. -/
theorem KeepsClocks.vecOp {n op : Nat} {f : VecFields} : KeepsClocks (fun s => s.act fun b => b.vecOp n op f) :=
  .ofAct fun b => b.vecOp_clocks n op f

/-! ### The commands that move a clock -/

theorem execTideExchange_clocks (h : HalfId) : MovesClocks (execTideExchange h) := .ofAct fun b => by
  dsimp only
  split
  · simp only [Block.syncLinks_clocks, Block.modTide_clocks]
    exact .inr (Block.clocksKept_change (.ofSame rfl rfl rfl))
  · exact .inr (.ofEq rfl)

theorem execEcho_clocks (h : HalfId) (x : Fin 10) (t1 t2 t3 : Nat) (locked : Bool) (depth : Nat) :
    MovesClocks (execEcho h x t1 t2 t3 locked depth) := .ofAct fun b => .inr <| by
  dsimp only
  split
  · exact .ofEq (by simp)
  · set b1 := (b.unbufferTime h x.val 0x02).modPort h x.val _ with hb1
    have hrecorded : ClocksKept b.clocks b1.clocks := .ofEq (by simp [hb1])
    refine hrecorded.trans ?_
    clear_value b1
    split
    · exact .ofEq rfl
    · set b2 := if (b1.half h).tide.parent.isNone then _ else b1 with hb2
      have hchosen : ClocksKept b1.clocks b2.clocks := by
        rw [hb2]
        split
        · split
          · exact b1.takeParent_clocksKept h _
          · exact .ofEq rfl
        · exact .ofEq rfl
      refine hchosen.trans ?_
      split
      · exact b2.steer_clocksKept h _ _ _ _
      · exact .ofEq (by simp)

theorem execParentSwitch_clocks (h : HalfId) : MovesClocks (execParentSwitch h) := .ofAct fun b => .inr <| by
  split
  · exact .ofEq rfl
  · split
    · exact .ofEq rfl
    · split
      · exact b.takeParent_clocksKept h _
      · exact b.loseParent_clocksKept h

theorem execClk10mLock_clocks (h : HalfId) : MovesClocks (execClk10mLock h) := .ofAct fun b => .inr <| by
  split
  · rw [Block.modTide_clocks]
    exact Block.clocksKept_change (.ofSame rfl rfl rfl)
  · exact .ofEq rfl

theorem execPpsEdge_clocks (h : HalfId) : MovesClocks (execPpsEdge h) := .ofAct fun b => .inr <| by
  set b1 := if b.sys.powerGood then b.setRegFld (zilReg 0x40) 2 2 1 else b with hb1
  have hseen : ClocksKept b.clocks b1.clocks := .ofEq (by rw [hb1]; split <;> simp)
  dsimp only
  split
  · exact hseen.trans (b1.reference_clocksKept h _ _)
  · exact hseen

theorem execPtpTime_clocks (h : HalfId) (ns : Nat) : MovesClocks (execPtpTime h ns) := .ofAct fun b => .inr <| by
  split
  · exact b.reference_clocksKept h _ _
  · exact .ofEq rfl

theorem execReferenceLoss_clocks (h : HalfId) : MovesClocks (execReferenceLoss h) := .ofAct fun b => .inr (b.loseReference_clocksKept h)

theorem execLockstepMismatch_clocks : MovesClocks execLockstepMismatch := .ofAct fun b => .inr <| by
  split
  · exact .ofEq rfl
  · extract_lets b1
    have hlost (c : Block) (k : HalfId) :
        ClocksKept c.clocks (if b.regFld (tideReg k 8) 51 50 = 2 then c.loseReference k else c).clocks := by
      split
      · exact c.loseReference_clocksKept k
      · exact .ofEq rfl
    have hreset : b1.clocks = b.clocks := by simp [b1]
    exact (ClocksKept.ofEq hreset).trans ((hlost b1 .a).trans (hlost _ .b))

theorem execRefEdgeTimeout_clocks : MovesClocks execRefEdgeTimeout := .ofAct fun b => .inr <| by
  split
  · next hdue =>
    simp only [Block.log_clocks, Block.setTideStat_clocks]
    exact b.startRoot_clocksKept .a _ _ hdue.2.2.1
  · exact .ofEq rfl

theorem Block.receive_clocksKept {b : Block} {h : HalfId} {p : Packet} {cls : Nat} {ops : List Nat} {f : Block → Block}
    (hf : ∀ c : Block, ClocksKept c.clocks (f c).clocks) : ClocksKept b.clocks (b.receive h p cls ops f).clocks := by
  unfold Block.receive
  split
  · exact .ofEq rfl
  · split
    · exact .ofEq (by simp)
    · split
      · exact .ofEq (by simp)
      · dsimp only
        split
        · exact .ofEq (by simp)
        · exact (ClocksKept.ofEq (by simp)).trans (hf _)

theorem Block.recovery_clocksKept {b : Block} {h : HalfId} {p : Packet} {kind : Nat} {f : Block → List Byte → Block}
    (hf : ∀ (c : Block) l, ClocksKept c.clocks (f c l).clocks) : ClocksKept b.clocks (b.recovery h p kind f).clocks := by
  unfold Block.recovery
  dsimp only
  split
  · exact .ofEq rfl
  · refine Block.receive_clocksKept fun c => ?_
    split
    · exact .ofEq (by simp)
    · split
      · exact .ofEq (by split <;> simp)
      · exact (ClocksKept.ofEq (by simp)).trans (hf _ _)

theorem execRecoveryLost_clocks (h : HalfId) (p : Packet) : MovesClocks (execRecoveryLost h p) := .ofAct fun b => .inr <| by
  refine Block.recovery_clocksKept fun c l => ?_
  simp only [Block.ackAction_clocks, Block.log_clocks]
  refine .trans (.ofEq ?_) (Block.backUpRoot_clocksKept _ h _)
  simp

/-! ### The commands that may start the module anew -/

@[simp] theorem Block.cold_clocks (b : Block) : b.cold.clocks = Block.reset.clocks := rfl

@[simp] theorem Block.startUp_clocks (b : Block) (straps upNs : Nat) : (b.startUp straps upNs).clocks = Block.reset.clocks := by
  simp [Block.startUp]

@[simp] theorem Block.trip_clocks (b : Block) : b.trip.clocks = Block.reset.clocks := by
  rw [Block.trip, Block.setRegFld_clocks]
  rfl

theorem Block.restart_clocks (b : Block) : b.restart.clocks = Block.reset.clocks ∨ ClocksKept b.clocks b.restart.clocks := by
  simp only [Block.restart]
  split
  · exact .inl (by simp)
  · exact .inr (.ofEq (by simp))

theorem Block.heat_clocks (b : Block) (was t : Int) : (b.heat was t).clocks = Block.reset.clocks ∨ ClocksKept b.clocks (b.heat was t).clocks := by
  simp only [Block.heat]
  split
  · exact .inl (by simp)
  · exact .inr (.ofEq (by (repeat' split) <;> simp))

theorem execVinApplied_clocks : MovesClocks execVinApplied := .ofAct fun b => by
  split
  · exact .inr (.ofEq rfl)
  · exact .inl rfl

theorem execVinLoss_clocks : MovesClocks execVinLoss := .ofAct fun _ => .inl rfl

theorem execPowerGood_clocks (s0 s1 s2 : StrapSample) : MovesClocks (execPowerGood s0 s1 s2) := .ofAct fun b => by
  split
  · exact .inl (b.startUp_clocks _ _)
  · exact .inr (.ofEq rfl)

theorem execResetModule_clocks (m : Envelope) (force : Bool) : MovesClocks (execResetModule m force) := .ofAct fun b => by
  dsimp only
  split
  · exact .inr (.ofEq rfl)
  · set b1 := b.command m [1, 2] 1 _ with hb1
    have hanswered : b1.clocks = b.clocks := by
      refine b.command_clocks m _ _ _ fun a y => ?_
      split <;> simp
    split
    · exact .inr (.ofEq hanswered)
    · split
      · exact hanswered ▸ b1.restart_clocks
      · exact .inr (.ofEq hanswered)

theorem execTjSample_clocks (temps channels : List Int) (coolant : Option Int) : MovesClocks (execTjSample temps channels coolant) :=
  .ofAct fun b => by
    split
    · exact .inr (.ofEq rfl)
    · extract_lets was b1 b2 p b3
      have hsampled : ((b3.followBand .a).followBand .b).clocks = b.clocks := by
        simp only [Block.followBand_clocks, Block.setPower_clocks, b3, b2]
        split <;> simp [b1]
      exact hsampled ▸ Block.heat_clocks _ _ _

/-! ### Every other command -/

/-! ### An attempt at a sample -/

theorem Block.tryImage_clocks {b : Block} {t : TaskRef} {a : Access} {c : TaskCtx} {unit : Nat} {l : List Byte} {draw : Nat} {r : AttemptOut}
    (e : b.tryImage t a c unit l draw = .ok r) : r.block.clocks = b.clocks := by
  simp only [Block.tryImage] at e
  split at e
  · cases e; rfl
  · obtain ⟨sc, -, rfl⟩ := exists_of_map_ok e
    simp
  · obtain ⟨sc, -, rfl⟩ := exists_of_map_ok e
    simp

theorem Block.tryVideo_clocks {b : Block} {t : TaskRef} {g : Graph} {c : TaskCtx} {p : Nat} {l : List Byte} {draw : Nat} {r : AttemptOut}
    (e : b.tryVideo t g c p l draw = .ok r) : r.block.clocks = b.clocks := by
  simp only [Block.tryVideo] at e
  split at e
  · cases e; rfl
  · split at e
    · cases e
    · split at e <;> cases e
      simp

@[simp] theorem Block.tryAudio_clocks (b : Block) (t : TaskRef) (c : TaskCtx) (l pf : List Byte) : (b.tryAudio t c l pf).block.clocks = b.clocks := by
  simp only [Block.tryAudio]
  split <;> rfl

@[simp] theorem Block.tryText_clocks (b : Block) (t : TaskRef) (c : TaskCtx) (l : List Byte) : (b.tryText t c l).block.clocks = b.clocks := by
  simp only [Block.tryText]
  split
  · rfl
  · split <;> simp

theorem Block.tryDomain_clocks {b : Block} {t : TaskRef} {g : Graph} {c : TaskCtx} {w : BatchWork} {u : Nat} {l pf : List Byte} {draw : Nat}
    {r : AttemptOut} (e : b.tryDomain t g c w u l pf draw = .ok r) : r.block.clocks = b.clocks := by
  simp only [Block.tryDomain] at e
  obtain ⟨x, hx, rfl⟩ := exists_of_map_ok e
  rw [Block.countPipe_clocks]
  split at hx
  · exact Block.tryImage_clocks hx
  · cases hx; simp
  · exact Block.tryVideo_clocks hx
  · cases hx; simp

/-! ### Saffron -/

theorem execGraphAdmit_clocks (h : HalfId) (src : SourceId) (gid : Fin 4096) : KeepsClocks (execGraphAdmit h src gid) := .ofAct fun b => by
  dsimp only
  (repeat' split) <;> simp

theorem execGraphSubmit_clocks (h : HalfId) (p : Packet) : KeepsClocks (execGraphSubmit h p) := .receive fun y => by
  split
  · simp
  · exact Block.clocks_getD (Block.submit_clocks _ _ _ _ _ _ _ _ _) rfl

theorem execToken_clocks (t : TaskRef) : KeepsClocks (execToken t) := .ofAct (by simp)
theorem execCancellation_clocks (t : TaskRef) (origin : Nat) : KeepsClocks (execCancellation t origin) := .ofAct (by simp)
theorem execFnbTideReached_clocks (t : TaskRef) : KeepsClocks (execFnbTideReached t) := .ofAct (by simp)

theorem execAgeLimitExpiry_clocks (t : TaskRef) : KeepsClocks (execAgeLimitExpiry t) := .ofAct fun b => by
  dsimp only
  (repeat' split) <;> simp

theorem execTaskEnd_clocks (t : TaskRef) (stalls : List StallCount) : KeepsClocks (execTaskEnd t stalls) := .ofAct fun b => by
  (repeat' split) <;> simp

theorem execRecordWrite_clocks (t : TaskRef) : KeepsClocks (execRecordWrite t) := .ofAct (by simp)
theorem execGraphHeadWrite_clocks (h : HalfId) (g : Fin 4096) (head : Word) : KeepsClocks (execGraphHeadWrite h g head) := .ofAct (by simp)

theorem execSubGraphLaunch_clocks (t : TaskRef) : KeepsClocks (execSubGraphLaunch t) := .onRunning fun b g c => by
  split
  · rfl
  · exact (Block.clocks_getD (fun z hz => (Block.submit_clocks _ _ _ _ _ _ _ _ _ z hz).trans (Block.modTask_clocks _ _ _)) rfl)

theorem execSubGraphDone_clocks (t : TaskRef) : KeepsClocks (execSubGraphDone t) := .ofAct (by simp)
theorem execTideWait_clocks (t : TaskRef) : KeepsClocks (execTideWait t) := .ofAct (by simp)

/-! ### Far -/

theorem execTagGrant_clocks (h : HalfId) (dest : Destination) : KeepsClocks (execTagGrant h dest) := .ofAct fun b => by
  dsimp only
  (repeat' split) <;> simp

theorem execHomeRequest_clocks (h : HalfId) (r : LineRequest) : KeepsClocks (execHomeRequest h r) := .ofAct fun b => by
  dsimp only
  (repeat' split) <;> simp

theorem execMemoryAdd_clocks (h : HalfId) (r : AddRequest) : KeepsClocks (execMemoryAdd h r) := .ofAct fun b => by
  (repeat' split) <;> simp

theorem execRequestResponse_clocks (h : HalfId) (tag status : Nat) (data : List Byte) : KeepsClocks (execRequestResponse h tag status data) :=
    .ofAct fun b => by
    (repeat' split) <;> simp

theorem execFarDeadlineExpiry_clocks (h : HalfId) (tag : Nat) : KeepsClocks (execFarDeadlineExpiry h tag) := .ofAct fun b => by
  dsimp only
  (repeat' split) <;> simp

/-! ### Matrix -/

theorem execMatrix_clocks (t : TaskRef) (parity : Option BankUpset) : KeepsClocks (execMatrix t parity) := .onRunning fun b g c => by
  dsimp only
  (repeat' split) <;> simp

theorem execDbgHalt_clocks (p : Path) (core : Fin 80) : KeepsClocks (execDbgHalt p core) := .ofAct (by simp)
theorem execDbgHaltReached_clocks (core : Fin 80) (at_ : HaltPoint) : KeepsClocks (execDbgHaltReached core at_) := .ofAct (by simp)
theorem execDbgResume_clocks (p : Path) (core : Fin 80) : KeepsClocks (execDbgResume p core) := .ofAct (by simp)

/-! ### Vector -/

theorem execVectorProgram_clocks (t : TaskRef) : KeepsClocks (execVectorProgram t) := .onRunning fun b g c => by
  dsimp only
  (repeat' split) <;> simp

/-! ### Route -/

theorem execRoute_clocks (t : TaskRef) : KeepsClocks (execRoute t) := .onRunning fun b g c => by
  dsimp only
  (repeat' split) <;> simp

theorem execCombine_clocks (t : TaskRef) : KeepsClocks (execCombine t) := .onRunning fun b g c => by
  dsimp only
  (repeat' split) <;> simp

/-! ### Kv -/

theorem execKvWrite_clocks (t : TaskRef) : KeepsClocks (execKvWrite t) := .onRunning fun b g c => by
  dsimp only
  (repeat' split) <;> simp

/-! ### Attention -/

theorem execAttnForward_clocks (t : TaskRef) (parity : Option BankUpset) : KeepsClocks (execAttnForward t parity) := .ofAct (by simp)
theorem execAttnForwardPartial_clocks (t : TaskRef) (parity : Option BankUpset) : KeepsClocks (execAttnForwardPartial t parity) := .ofAct (by simp)
theorem execAttnCombine_clocks (t : TaskRef) : KeepsClocks (execAttnCombine t) := .ofAct (by simp)
theorem execAttnBackwardDkDv_clocks (t : TaskRef) (parity : Option BankUpset) : KeepsClocks (execAttnBackwardDkDv t parity) := .ofAct (by simp)
theorem execAttnBackwardDq_clocks (t : TaskRef) (parity : Option BankUpset) : KeepsClocks (execAttnBackwardDq t parity) := .ofAct (by simp)

/-! ### Gate -/

theorem execStepRepeatReadmit_clocks (h : HalfId) (k : Fin 16) : KeepsClocks (execStepRepeatReadmit h k) := .ofAct fun b => by
  dsimp only
  (repeat' split) <;> simp

theorem execUpdateGateCheck_clocks (t : TaskRef) : KeepsClocks (execUpdateGateCheck t) := .onRunning fun b g c => by
  dsimp only
  (repeat' split) <;> simp

theorem execUpdateGateCheckpoint_clocks (t : TaskRef) : KeepsClocks (execUpdateGateCheckpoint t) := .ofAct (by simp)

/-! ### Collective -/

theorem execAllReduce_clocks (t : TaskRef) : KeepsClocks (execAllReduce t) := .ofAct (by simp)
theorem execReduceScatter_clocks (t : TaskRef) : KeepsClocks (execReduceScatter t) := .ofAct (by simp)
theorem execAllGather_clocks (t : TaskRef) : KeepsClocks (execAllGather t) := .ofAct (by simp)
theorem execVerdictReduction_clocks (t : TaskRef) : KeepsClocks (execVerdictReduction t) := .ofAct (by simp)

theorem execEbb_clocks (h : HalfId) (p : Packet) : KeepsClocks (execEbb h p) := .receive fun y => by
  (repeat' split) <;> simp

theorem execFlood_clocks (h : HalfId) (p : Packet) : KeepsClocks (execFlood h p) := .receive fun y => by
  (repeat' split) <;> simp

theorem execSendToPeer_clocks (t : TaskRef) : KeepsClocks (execSendToPeer t) := .ofAct (by simp)
theorem execReceiveFromPeer_clocks (t : TaskRef) : KeepsClocks (execReceiveFromPeer t) := .ofAct (by simp)

theorem execSendBlock_clocks (h : HalfId) (p : Packet) : KeepsClocks (execSendBlock h p) := .receive fun y => by
  (repeat' split) <;> simp

theorem execCollEnd_clocks (h : HalfId) (p : Packet) : KeepsClocks (execCollEnd h p) := .receive fun y => by
  (repeat' split) <;> simp

theorem execExpertDispatch_clocks (t : TaskRef) : KeepsClocks (execExpertDispatch t) := .onRunning fun b g c => by
  dsimp only
  (repeat' split) <;> simp

theorem execExpertReturn_clocks (t : TaskRef) : KeepsClocks (execExpertReturn t) := .onMode fun b g c => by
  split
  · simp
  · refine Block.onColl_clocks _ _ _ _ fun _ _ _ p => ?_
    split <;> simp

theorem execExpertReceive_clocks (t : TaskRef) : KeepsClocks (execExpertReceive t) := .ofAct (by simp)

theorem execExpertReturnReceive_clocks (t : TaskRef) : KeepsClocks (execExpertReturnReceive t) := .onRunning fun b g c => by
  dsimp only
  (repeat' split) <;> simp

theorem execTokenRow_clocks (h : HalfId) (p : Packet) : KeepsClocks (execTokenRow h p) := .receive fun y => by
  (repeat' split) <;> simp

theorem execEndRecord_clocks (h : HalfId) (p : Packet) : KeepsClocks (execEndRecord h p) := .receive fun y => by
  split
  · rfl
  · split
    · simp
    · refine Block.onColl_clocks _ _ _ _ fun g c x q => ?_
      dsimp only
      split
      · simp
      · (repeat' split) <;> simp

theorem execCollReady_clocks (h : HalfId) (p : Packet) : KeepsClocks (execCollReady h p) := .receive fun y => by
  (repeat' split) <;> simp

theorem execTravelReady_clocks (h : HalfId) (p : Packet) : KeepsClocks (execTravelReady h p) := .receive fun y => by
  (repeat' split) <;> simp

theorem execCredit_clocks (h : HalfId) (p : Packet) : KeepsClocks (execCredit h p) := .receive fun y => by
  dsimp only
  (repeat' split) <;> simp

theorem execCollectiveDeadline_clocks (t : TaskRef) : KeepsClocks (execCollectiveDeadline t) := .onColl fun b g c x p => by
  extract_lets d late
  refine Block.clocks_of_ite rfl (Block.clocks_of_ite ?_ (Block.clocks_of_ite ?_ (Block.clocks_of_ite ?_ (Block.clocks_of_ite ?_
    (Block.clocks_of_ite rfl ?_)))))
  · split <;> simp
  · split <;> simp
  · refine Block.clocks_foldl _ (fun y q => ?_) _ _
    exact Block.clocks_of_ite rfl (by simp)
  · simp
  · split <;> simp

theorem execLateNotice_clocks (h : HalfId) (p : Packet) : KeepsClocks (execLateNotice h p) := .receive fun y => by
  dsimp only
  (repeat' split) <;> simp

theorem execLateWaitExpiry_clocks (t : TaskRef) : KeepsClocks (execLateWaitExpiry t) := .ofAct (by simp)
theorem execLenientWaitExpiry_clocks (t : TaskRef) : KeepsClocks (execLenientWaitExpiry t) := .ofAct (by simp)
theorem execResolveExpiry_clocks (t : TaskRef) : KeepsClocks (execResolveExpiry t) := .ofAct (by simp)

/-! ### Tiers -/

theorem execCopy_clocks (t : TaskRef) : KeepsClocks (execCopy t) := .ofAct (by simp)
theorem execMap_clocks (t : TaskRef) : KeepsClocks (execMap t) := .ofAct (by simp)
theorem execUnmap_clocks (t : TaskRef) : KeepsClocks (execUnmap t) := .ofAct (by simp)

theorem execFill_clocks (t : TaskRef) : KeepsClocks (execFill t) := .onRunning fun b g c => by
  dsimp only
  (repeat' split) <;> simp

theorem execDrop_clocks (t : TaskRef) : KeepsClocks (execDrop t) := .onRunning fun b g c => by
  dsimp only
  (repeat' split) <;> simp

theorem execQuery_clocks (t : TaskRef) : KeepsClocks (execQuery t) := .onRunning fun b g c => by
  dsimp only
  (repeat' split) <;> simp

theorem execSetPin_clocks (t : TaskRef) : KeepsClocks (execSetPin t) := .onRunning fun b g c => by
  dsimp only
  (repeat' split) <;> simp

theorem execPublish_clocks (t : TaskRef) : KeepsClocks (execPublish t) := .onRunning fun b g c => by
  dsimp only
  (repeat' split) <;> simp

theorem execRetire_clocks (t : TaskRef) : KeepsClocks (execRetire t) := .ofAct (by simp)
theorem execGather_clocks (t : TaskRef) : KeepsClocks (execGather t) := .ofAct (by simp)
theorem execScatter_clocks (t : TaskRef) : KeepsClocks (execScatter t) := .ofAct (by simp)
theorem execScatterAdd_clocks (t : TaskRef) : KeepsClocks (execScatterAdd t) := .ofAct (by simp)
theorem execScatterMax_clocks (t : TaskRef) : KeepsClocks (execScatterMax t) := .ofAct (by simp)
theorem execScatterMin_clocks (t : TaskRef) : KeepsClocks (execScatterMin t) := .ofAct (by simp)

theorem execFarRead_clocks (h : HalfId) (p : Packet) : KeepsClocks (execFarRead h p) := .receive fun y => by
  dsimp only
  (repeat' split) <;> simp

theorem execFarReserve_clocks (h : HalfId) (p : Packet) : KeepsClocks (execFarReserve h p) := .receive fun y => by
  dsimp only
  (repeat' split) <;> simp

theorem execFarWrite_clocks (h : HalfId) (p : Packet) : KeepsClocks (execFarWrite h p) := .receive fun y => by
  dsimp only
  split
  · simp
  · split
    · have hland := Block.landCells_clocks y (((y.window h).addrs (pkAddr p) p.payload.length).zip p.payload)
      split <;> next hb => simpa [hb] using hland
    · simp

theorem execFarCommit_clocks (h : HalfId) (p : Packet) : KeepsClocks (execFarCommit h p) := .ofAct (by simp)
theorem execFarAbort_clocks (h : HalfId) (p : Packet) : KeepsClocks (execFarAbort h p) := .ofAct (by simp)
theorem execFarRetire_clocks (h : HalfId) (p : Packet) : KeepsClocks (execFarRetire h p) := .ofAct (by simp)
theorem execFarQuery_clocks (h : HalfId) (p : Packet) : KeepsClocks (execFarQuery h p) := .ofAct (by simp)

theorem execPendingReap_clocks (h : HalfId) (job : Fin 4096) (object version : Nat) : KeepsClocks (execPendingReap h job object version) :=
    .ofAct fun b => by
    (repeat' split) <;> simp

theorem execRevocationEnd_clocks (h : HalfId) : KeepsClocks (execRevocationEnd h) := .ofAct (by simp)
theorem execRevocationDone_clocks (h : HalfId) : KeepsClocks (execRevocationDone h) := .ofAct (by simp)
theorem execRevocationNotice_clocks (h : HalfId) (p : Packet) : KeepsClocks (execRevocationNotice h p) := .ofAct (by simp)

theorem execBorrowerDrop_clocks (h : HalfId) (lender : Nat) : KeepsClocks (execBorrowerDrop h lender) := .ofAct fun b => by
  dsimp only
  (repeat' split) <;> simp

theorem execReadRequest_clocks (h : HalfId) (p : Packet) : KeepsClocks (execReadRequest h p) :=
  .receive fun b => Block.localPacket_clocks _ _ _ _ _ _ fun z => by split <;> simp

theorem execWriteRequest_clocks (h : HalfId) (p : Packet) : KeepsClocks (execWriteRequest h p) :=
  .receive fun b => Block.localPacket_clocks _ _ _ _ _ _ fun z => by
    have hland := Block.landCells_clocks z ((p.payload.zip (List.range p.payload.length)).map (fun q => (pkAddr p + q.2, q.1)))
    split <;> next hb => simpa [hb] using hland

theorem execAdderRequest_clocks (h : HalfId) (p : Packet) : KeepsClocks (execAdderRequest h p) :=
  .receive fun b => Block.localPacket_clocks _ _ _ _ _ _ fun z => by
    split
    · next hs => simp [(Block.serve_clocks z _).2 _ _ hs]
    · next hs => simp [(Block.serve_clocks z _).1 _ _ hs]

theorem execResponse_clocks (h : HalfId) (p : Packet) : KeepsClocks (execResponse h p) := .receive fun y => by
  (repeat' split) <;> simp

/-! ### HostLink -/

theorem execConfigRequest_clocks (dword : Fin 1024) (value : Option (BitVec 32)) : KeepsClocks (execConfigRequest dword value) := .ofAct fun b => by
  dsimp only
  (repeat' split) <;> simp

theorem execPcieLinkUp_clocks (rate : LinkRate) (width : LinkWidth) (partnerFlit : Bool) : KeepsClocks (execPcieLinkUp rate width partnerFlit) :=
    .ofAct (by simp)

theorem execPerst_clocks : KeepsClocks execPerst := .ofAct (by simp)
theorem execHotReset_clocks : KeepsClocks execHotReset := .ofAct (by simp)
theorem execLinkDown_clocks : KeepsClocks execLinkDown := .ofAct (by simp)
theorem execFlr_clocks : KeepsClocks execFlr := .ofAct (by simp)
theorem execPerstDeassertion_clocks : KeepsClocks execPerstDeassertion := .ofAct (by simp)

theorem execBar2Read_clocks (offset len : Nat) : KeepsClocks (execBar2Read offset len) := .ofAct fun b => by
  (repeat' split) <;> simp

theorem execBar2Write_clocks (offset : Nat) (data : List Byte) (poisoned : Bool) : KeepsClocks (execBar2Write offset data poisoned) :=
    .ofAct fun b => by
    split
    · simp
    · split
      · simp
      · next a _ =>
        have hland := Block.landLines_clocks b ((data.zip (List.range data.length)).map (fun p => (a + p.2, p.1)))
        split <;> next hb => simpa [hb] using hland

theorem execCqHeadWrite_clocks (q : Fin 64) (head : BitVec 32) : KeepsClocks (execCqHeadWrite q head) := .ofAct (by simp)
theorem execCoalesceTimer_clocks (q : Fin 64) : KeepsClocks (execCoalesceTimer q) := .ofAct (by simp)

theorem execSqDoorbell_clocks (q : Fin 64) (tail : BitVec 32) (hostWrote : List (Nat × Byte)) : KeepsClocks (execSqDoorbell q tail hostWrote) :=
    .ofAct (by simp)

theorem execSqFetch_clocks (q : Fin 64) : KeepsClocks (execSqFetch q) := .ofAct fun b => by
  dsimp only
  split
  · rfl
  · rw [Block.idleCheck_clocks]
    split
    · exact (Block.clocks_getD (fun z hz => (Block.entryDone_clocks _ _ _ _ _ _ _ z hz)) rfl).trans (Block.modPair_clocks _ _ _)
    · split
      · exact (Block.clocks_getD (fun z hz => (Block.entryDone_clocks _ _ _ _ _ _ _ z hz)) rfl).trans (Block.modPair_clocks _ _ _)
      · simp

theorem execSubmitGraph_clocks (q : Fin 64) : KeepsClocks (execSubmitGraph q) := .ofAct (by simp)
theorem execNoOp_clocks (q : Fin 64) : KeepsClocks (execNoOp q) := .ofAct (by simp)
theorem execQueuePairCreate_clocks (q : Fin 64) (value : Word) : KeepsClocks (execQueuePairCreate q value) := .ofAct (by simp)
theorem execQueuePairDestroy_clocks (q : Fin 64) : KeepsClocks (execQueuePairDestroy q) := .ofAct (by simp)

theorem execHostSignal_clocks (t : TaskRef) : KeepsClocks (execHostSignal t) := .onRunning fun b g c => by
  dsimp only
  split
  · split <;> simp
  · split
    · simp
    · split
      · next hpush => simp [Block.cqPush_clocks _ _ _ _ _ hpush]
      · simp

theorem execSlackEnter_clocks (p : Path) : KeepsClocks (execSlackEnter p) := .ofAct (by simp)

theorem execSlackIdleTimer_clocks : KeepsClocks execSlackIdleTimer := .ofAct fun b => by
  (repeat' split) <;> simp

theorem execSlackEntryDone_clocks : KeepsClocks execSlackEntryDone := .ofAct (by simp)
theorem execSlackWake_clocks (p : Path) : KeepsClocks (execSlackWake p) := .ofAct (by simp)
theorem execWakeReady_clocks : KeepsClocks execWakeReady := .ofAct (by simp)

/-! ### Start -/

theorem execZilsyBoot_clocks : KeepsClocks execZilsyBoot := .ofAct fun b => by
  (repeat' split) <;> simp

theorem execImageSelect_clocks : KeepsClocks execImageSelect := .ofAct fun b => by
  dsimp only
  (repeat' split) <;> simp

theorem execBayTrainingDone_clocks (r : BayTraining) : KeepsClocks (execBayTrainingDone r) := .ofAct (by simp)
theorem execShelfTrainingDone_clocks (r : ShelfTraining) : KeepsClocks (execShelfTrainingDone r) := .ofAct (by simp)
theorem execIsthmusTrainingDone_clocks (faults : List WireFault) : KeepsClocks (execIsthmusTrainingDone faults) := .ofAct (by simp)
theorem execSelfTestDone_clocks (failing : List (Fin 80)) : KeepsClocks (execSelfTestDone failing) := .ofAct (by simp)
theorem execReady_clocks : KeepsClocks execReady := .ofAct (by simp)

/-! ### Zilsy -/

theorem execNonce_clocks (c : Channel) (value : Nat) : KeepsClocks (execNonce c value) := .ofAct (by simp)
theorem execNonceExpiry_clocks (value : Nat) : KeepsClocks (execNonceExpiry value) := .ofAct (by simp)
theorem execReadLog_clocks (m : Envelope) (seq : Nat) (count : Fin 256) : KeepsClocks (execReadLog m seq count) := .ofAct (by simp)
theorem execReadAudit_clocks (m : Envelope) (seq : Nat) (count : Fin 256) : KeepsClocks (execReadAudit m seq count) := .ofAct (by simp)
theorem execPowerCap_clocks (p : Path) (value : Word) : KeepsClocks (execPowerCap p value) := .ofAct (by simp)

theorem execConfigWriteDone_clocks (verified : Bool) : KeepsClocks (execConfigWriteDone verified) := .ofAct fun b => by
  dsimp only
  (repeat' split) <;> simp

theorem execCommit_clocks (m : Envelope) : KeepsClocks (execCommit m) := .command fun b a y => by
  dsimp only
  (repeat' split) <;> simp

theorem execStageBegin_clocks (m : Envelope) (object length : Nat) : KeepsClocks (execStageBegin m object length) := .command fun b a y => by
  dsimp only
  (repeat' split) <;> simp

theorem execStageData_clocks (c : Channel) (offset : Nat) (data : List Byte) : KeepsClocks (execStageData c offset data) := .ofAct fun b => by
  dsimp only
  (repeat' split) <;> simp

theorem execStageApply_clocks (m : Envelope) (o : StagedObject) : KeepsClocks (execStageApply m o) := .command fun b a y => by
  (repeat' split) <;> simp

theorem execStagingIdle_clocks : KeepsClocks execStagingIdle := .ofAct (by simp)

theorem execKeyEnrol_clocks (m : Envelope) (k : KeyBody) : KeepsClocks (execKeyEnrol m k) := .command fun b a y => by
  dsimp only
  (repeat' split) <;> simp

theorem execKeyRevoke_clocks (m : Envelope) (keyId : Nat) : KeepsClocks (execKeyRevoke m keyId) := .command fun b a y => by
  (repeat' split) <;> simp

theorem execRepairClear_clocks (m : Envelope) (channels : List (Fin 320)) : KeepsClocks (execRepairClear m channels) := .ofAct (by simp)

theorem execDiag_clocks (m : Envelope) (mode : Nat) : KeepsClocks (execDiag m mode) := .command fun b a y => by
  dsimp only
  (repeat' split) <;> simp

theorem execZilsyRestart_clocks : KeepsClocks execZilsyRestart := .ofAct fun b => by
  dsimp only
  (repeat' split) <;> simp

theorem execLogMergeFlush_clocks : KeepsClocks execLogMergeFlush := .ofAct (by simp)

/-! ### Census -/

theorem execReadyReport_clocks (h : HalfId) (p : Packet) : KeepsClocks (execReadyReport h p) := .ofAct (by simp)

theorem execCensusDeadline_clocks : KeepsClocks execCensusDeadline := .ofAct fun b => by
  (repeat' split) <;> simp

theorem execCensusResult_clocks (h : HalfId) (p : Packet) : KeepsClocks (execCensusResult h p) := .ofAct (by simp)

/-! ### Efing -/

theorem execPortTrainingDone_clocks (h : HalfId) (port : Fin 9) (passing : List (Fin 5)) (asym : Int) : KeepsClocks (execPortTrainingDone h port passing asym) :=
    .ofAct (by simp)

theorem execTrainRetry_clocks (h : HalfId) (port : Fin 9) : KeepsClocks (execTrainRetry h port) := .ofAct (by simp)

theorem execPortRetrainDone_clocks (h : HalfId) (port : Fin 9) (passing : List (Fin 5)) (asym : Int) : KeepsClocks (execPortRetrainDone h port passing asym) :=
    .ofAct (by simp)

theorem execIdentity_clocks (h : HalfId) (port : Fin 9) (p : Packet) : KeepsClocks (execIdentity h port p) := .ofAct (by simp)
theorem execLinkGroup_clocks (h : HalfId) (x : Fin 10) (g : LinkGroup) : KeepsClocks (execLinkGroup h x g) := .ofAct (by simp)

theorem execAckTimeout_clocks (h : HalfId) (x : Fin 10) : KeepsClocks (execAckTimeout h x) := .ofAct fun b => by
  (repeat' split) <;> simp

theorem execNakLimit_clocks (h : HalfId) (port : Fin 9) : KeepsClocks (execNakLimit h port) := .ofAct (by simp)
theorem execLaneClockLoss_clocks (h : HalfId) (port : Fin 9) (_lane : Fin 5) : KeepsClocks (execLaneClockLoss h port _lane) := .ofAct (by simp)
theorem execHopTimeout_clocks (h : HalfId) (x : Fin 10) : KeepsClocks (execHopTimeout h x) := .ofAct (by simp)

theorem execRouteHoldExpiry_clocks (h : HalfId) (dest : Fin 16384) : KeepsClocks (execRouteHoldExpiry h dest) := .ofAct fun b => by
  dsimp only
  (repeat' split) <;> simp

theorem execPacketForward_clocks (h : HalfId) (p : Packet) : KeepsClocks (execPacketForward h p) := .ofAct (by simp)

/-! ### Video -/

theorem execContextOpen_clocks (t : TaskRef) : KeepsClocks (execContextOpen t) := .ofAct (by simp)

theorem execContextClose_clocks (t : TaskRef) : KeepsClocks (execContextClose t) := .onRunning fun b g c => by
  dsimp only
  (repeat' split) <;> simp

theorem execDecode_clocks (t : TaskRef) : KeepsClocks (execDecode t) := .onRunning fun b g c => by
  dsimp only
  (repeat' split) <;> simp

theorem execFrameWatchdog_clocks (t : TaskRef) (picture rowsWritten : Nat) : KeepsClocks (execFrameWatchdog t picture rowsWritten) := .ofAct (by simp)

theorem execEncode_clocks (t : TaskRef) : KeepsClocks (execEncode t) := .onRunning fun b g c => by
  dsimp only
  (repeat' split) <;> simp

/-! ### Media -/

theorem execImageDecode_clocks (t : TaskRef) : KeepsClocks (execImageDecode t) := .onRunning fun b g c => by
  dsimp only
  (repeat' split) <;> simp

theorem execImageWatchdog_clocks (t : TaskRef) (rowsWritten : Nat) : KeepsClocks (execImageWatchdog t rowsWritten) := .ofAct (by simp)

theorem execAudioDecode_clocks (t : TaskRef) : KeepsClocks (execAudioDecode t) := .onRunning fun b g c => by
  dsimp only
  (repeat' split) <;> simp

theorem execTableLoad_clocks (t : TaskRef) : KeepsClocks (execTableLoad t) := .onRunning fun b g c => by
  dsimp only
  (repeat' split) <;> simp

theorem execTokeniseAndPack_clocks (t : TaskRef) : KeepsClocks (execTokeniseAndPack t) := .onRunning fun b g c => by
  dsimp only
  (repeat' split) <;> simp

theorem execCropAndResize_clocks (t : TaskRef) : KeepsClocks (execCropAndResize t) := .onRunning fun b g c => by
  dsimp only
  (repeat' split) <;> simp

/-! ### Functions -/

theorem execFuncDisable_clocks (p : Path) (f : FuncId) : KeepsClocks (execFuncDisable p f) := .ofAct (by simp)
theorem execFuncEnable_clocks (p : Path) (f : FuncId) : KeepsClocks (execFuncEnable p f) := .ofAct (by simp)

theorem execDrainDeadline_clocks (f : FuncId) : KeepsClocks (execDrainDeadline f) := .ofAct fun b => by
  dsimp only
  (repeat' split) <;> simp

theorem execDrainComplete_clocks (f : FuncId) : KeepsClocks (execDrainComplete f) := .ofAct fun b => by
  dsimp only
  (repeat' split) <;> simp

theorem execJobSlotBind_clocks (p : Path) (k : Fin 16) (job : Fin 4096) (tables : List PageRow) :
    KeepsClocks (execJobSlotBind p k job tables) := .ofAct (by simp)

theorem execJobSlotDisable_clocks (p : Path) (k : Fin 16) : KeepsClocks (execJobSlotDisable p k) := .ofAct (by simp)
theorem execStallClear_clocks (p : Path) (h : HalfId) (value : Word) : KeepsClocks (execStallClear p h value) := .ofAct (by simp)
theorem execKvInval_clocks (p : Path) (h : HalfId) (k : Fin 16) : KeepsClocks (execKvInval p h k) := .ofAct (by simp)

/-! ### Tide -/

theorem execSync_clocks (h : HalfId) (x : Fin 10) (t1 : Nat) : KeepsClocks (execSync h x t1) := .ofAct (by simp)

theorem execHoldoverExpiry_clocks (h : HalfId) : KeepsClocks (execHoldoverExpiry h) := .ofAct fun b => by
  (repeat' split) <;> simp

/-! ### Lease -/

theorem execLeaseClaim_clocks : KeepsClocks execLeaseClaim := .ofAct (by simp)
theorem execLease_clocks (h : HalfId) (p : Packet) : KeepsClocks (execLease h p) := .ofAct (by simp)
theorem execLeaseRenewal_clocks : KeepsClocks execLeaseRenewal := .ofAct (by simp)
theorem execLeaseLapse_clocks : KeepsClocks execLeaseLapse := .ofAct (by simp)

theorem execHeartbeatSend_clocks : KeepsClocks execHeartbeatSend := .ofAct fun b => by
  dsimp only
  (repeat' split) <;> simp

theorem execHeartbeat_clocks (h : HalfId) (p : Packet) : KeepsClocks (execHeartbeat h p) := .ofAct (by simp)

theorem execTrayHeartbeat_clocks (h : HalfId) (p : Packet) : KeepsClocks (execTrayHeartbeat h p) := .receive fun y => by
  dsimp only
  (repeat' split) <;> simp

theorem execHeartbeatTimeout_clocks (tray : Fin 2048) : KeepsClocks (execHeartbeatTimeout tray) := .ofAct (by simp)

theorem execJournalAppend_clocks (h : HalfId) (p : Packet) : KeepsClocks (execJournalAppend h p) := .ofAct fun b => by
  dsimp only
  (repeat' split) <;> simp

theorem execJournalAcknowledgement_clocks (h : HalfId) (p : Packet) : KeepsClocks (execJournalAcknowledgement h p) := .ofAct fun b => by
  dsimp only
  (repeat' split) <;> simp

theorem execVerdictQuery_clocks (h : HalfId) (p : Packet) : KeepsClocks (execVerdictQuery h p) := .receive fun y => by
  dsimp only
  (repeat' split) <;> simp

theorem execVerdictAnswer_clocks (h : HalfId) (p : Packet) : KeepsClocks (execVerdictAnswer h p) := .ofAct (by simp)
theorem execCheckpointReport_clocks (h : HalfId) (p : Packet) : KeepsClocks (execCheckpointReport h p) := .ofAct (by simp)
theorem execLateReport_clocks (h : HalfId) (p : Packet) : KeepsClocks (execLateReport h p) := .ofAct (by simp)
theorem execRevocationReport_clocks (h : HalfId) (p : Packet) : KeepsClocks (execRevocationReport h p) := .ofAct (by simp)

theorem execRecoveryAbort_clocks (h : HalfId) (p : Packet) : KeepsClocks (execRecoveryAbort h p) := .recovery fun b l => by
  split <;> simp

theorem execRecoverySubst_clocks (h : HalfId) (p : Packet) : KeepsClocks (execRecoverySubst h p) := .recovery fun y l => by
  dsimp only
  (repeat' split) <;> simp

theorem execRecoveryResume_clocks (h : HalfId) (p : Packet) : KeepsClocks (execRecoveryResume h p) := .ofAct fun b => by
  dsimp only
  (repeat' split) <;> simp

theorem execNoUpPortTimeout_clocks : KeepsClocks execNoUpPortTimeout := .ofAct fun b => by
  (repeat' split) <;> simp

/-! ### TierRegs -/

theorem execMainRegister_clocks (p : Path) (h : HalfId) (job : Fin 4096) (hostWrote : List (Nat × Byte)) : KeepsClocks (execMainRegister p h job hostWrote) :=
    .ofAct (by simp)

theorem execMainRetire_clocks (p : Path) (h : HalfId) (job : Fin 4096) : KeepsClocks (execMainRetire p h job) := .ofAct (by simp)
theorem execLendRevoke_clocks (p : Path) (h : HalfId) : KeepsClocks (execLendRevoke p h) := .ofAct (by simp)
theorem execLendEnClear_clocks (p : Path) (h : HalfId) (gib : Fin 256) : KeepsClocks (execLendEnClear p h gib) := .ofAct (by simp)
theorem execLendEnSet_clocks (m : Envelope) (h : HalfId) (gib : Fin 256) : KeepsClocks (execLendEnSet m h gib) := .ofAct (by simp)

/-! ### ShelfBay -/

theorem execRefreshDue_clocks (h : HalfId) (chan : Fin 128) (bank : Fin 16) : KeepsClocks (execRefreshDue h chan bank) := .ofAct (by simp)

theorem execRefreshBandRelax_clocks (h : HalfId) : KeepsClocks (execRefreshBandRelax h) := .ofAct fun b => by
  dsimp only
  (repeat' split) <;> simp

theorem execScrubRead_clocks (h : HalfId) (upsets : List (Fin 64 × Upset)) : KeepsClocks (execScrubRead h upsets) := .ofAct (by simp)
theorem execTgWriteRead_clocks (p : Path) (h : HalfId) (ch : Fin 160) : KeepsClocks (execTgWriteRead p h ch) := .ofAct (by simp)
theorem execTgReadSweep_clocks (p : Path) (h : HalfId) (ch : Fin 160) : KeepsClocks (execTgReadSweep p h ch) := .ofAct (by simp)
theorem execTgStop_clocks (p : Path) (h : HalfId) (ch : Fin 160) : KeepsClocks (execTgStop p h ch) := .ofAct (by simp)

theorem execTgDone_clocks (h : HalfId) (ch : Fin 160) (r : TgResult) : KeepsClocks (execTgDone h ch r) := .ofAct fun b => by
  dsimp only
  (repeat' split) <;> simp

/-! ### Batch -/

theorem execBatchAssemble_clocks (t : TaskRef) : KeepsClocks (execBatchAssemble t) := .onRunning fun b g c => by
  dsimp only
  (repeat' split) <;> simp

theorem execSampleDone_clocks (t : TaskRef) : KeepsClocks (execSampleDone t) := .onRunning fun b g c => by
  dsimp only
  split
  · rfl
  · split
    · rfl
    · split
      · simp
      · simp
      · split
        · rfl
        · split
          · simp
          · next r hr =>
            have hblock : r.block.clocks = b.clocks :=
              (Block.tryDomain_clocks hr).trans (by simp)
            split
            · simp [hblock]
            · simp [hblock]
            · simp [hblock]
            · split <;> simp [hblock]

theorem execResize_clocks (t : TaskRef) : KeepsClocks (execResize t) := .ofAct (by simp)
theorem execFlip_clocks (t : TaskRef) : KeepsClocks (execFlip t) := .ofAct (by simp)
theorem execJitter_clocks (t : TaskRef) : KeepsClocks (execJitter t) := .ofAct (by simp)
theorem execNorm_clocks (t : TaskRef) : KeepsClocks (execNorm t) := .ofAct (by simp)
theorem execGain_clocks (t : TaskRef) : KeepsClocks (execGain t) := .ofAct (by simp)
theorem execFmask_clocks (t : TaskRef) : KeepsClocks (execFmask t) := .ofAct (by simp)
theorem execTmask_clocks (t : TaskRef) : KeepsClocks (execTmask t) := .ofAct (by simp)

/-! ### Conv -/

theorem execConvForward_clocks (t : TaskRef) (parity : Option BankUpset) : KeepsClocks (execConvForward t parity) := .ofAct (by simp)
theorem execConvBackwardData_clocks (t : TaskRef) (parity : Option BankUpset) : KeepsClocks (execConvBackwardData t parity) := .ofAct (by simp)
theorem execConvBackwardFilter_clocks (t : TaskRef) (parity : Option BankUpset) : KeepsClocks (execConvBackwardFilter t parity) := .ofAct (by simp)

theorem execRowsReady_clocks (t : TaskRef) (rows : Nat) : KeepsClocks (execRowsReady t rows) := .onRunning fun b g c => by
  dsimp only
  (repeat' split) <;> simp

/-! ### Detect -/

theorem execBoxDecode_clocks (t : TaskRef) : KeepsClocks (execBoxDecode t) := .ofAct (by simp)

theorem execNms_clocks (t : TaskRef) : KeepsClocks (execNms t) := .onRunning fun b g c => by
  dsimp only
  (repeat' split) <;> simp

/-! ### Fire -/

theorem execTaskFire_clocks (t : TaskRef) (cores : List (Fin 40)) (upset : Upset) : KeepsClocks (execTaskFire t cores upset) := .ofAct fun b => by
  dsimp only
  (repeat' split) <;> simp

/-! ### Power -/

theorem execPowerWindow_clocks (w : PowerSample) : KeepsClocks (execPowerWindow w) := .ofAct (by simp)
theorem execMeterCorrection_clocks (m : MeterSample) : KeepsClocks (execMeterCorrection m) := .ofAct (by simp)
theorem execPowerHint_clocks (t : TaskRef) : KeepsClocks (execPowerHint t) := .ofAct (by simp)
theorem execHintWindowOpen_clocks : KeepsClocks execHintWindowOpen := .ofAct (by simp)
theorem execHintWindowClose_clocks : KeepsClocks execHintWindowClose := .ofAct (by simp)

theorem execThermalRecoverStep_clocks : KeepsClocks execThermalRecoverStep := .ofAct fun b => by
  dsimp only
  (repeat' split) <;> simp

theorem execMarginTrim_clocks (h : HalfId) (above : Bool) : KeepsClocks (execMarginTrim h above) := .ofAct (by simp)
theorem execMarginAlarm_clocks (h : HalfId) : KeepsClocks (execMarginAlarm h) := .ofAct (by simp)

/-! ### Views -/

theorem execRead_clocks (m : Envelope) (addrs : List Nat) : KeepsClocks (execRead m addrs) := .ofAct (by simp)

/-! ### RegWrite -/

theorem execRegisterWrite_clocks (p : Path) (addr : Nat) (value : Word) : KeepsClocks (execRegisterWrite p addr value) := .ofAct fun b => by
  (repeat' split) <;> simp_all

theorem execWrite_clocks (m : Envelope) (addr : Nat) (value : Word) : KeepsClocks (execWrite m addr value) := .ofAct (by simp)

/-! ### Attest -/

theorem execAttest_clocks (m : Envelope) (verifier : Nat) : KeepsClocks (execAttest m verifier) := .ofAct (by simp)

/-- Every command keeps both clocks, or starts the module anew. -/
theorem exec_clocks : ∀ i : Instr, MovesClocks (exec i)
  | .vinApplied => execVinApplied_clocks
  | .powerGood _ _ _ => execPowerGood_clocks _ _ _
  | .vinLoss => execVinLoss_clocks
  | .zilsyBoot => execZilsyBoot_clocks.moves
  | .imageSelect => execImageSelect_clocks.moves
  | .bayTrainingDone _ => (execBayTrainingDone_clocks _).moves
  | .shelfTrainingDone _ => (execShelfTrainingDone_clocks _).moves
  | .isthmusTrainingDone _ => (execIsthmusTrainingDone_clocks _).moves
  | .selfTestDone _ => (execSelfTestDone_clocks _).moves
  | .ready => execReady_clocks.moves
  | .configRequest _ _ => (execConfigRequest_clocks _ _).moves
  | .pcieLinkUp _ _ _ => (execPcieLinkUp_clocks _ _ _).moves
  | .perst => execPerst_clocks.moves
  | .hotReset => execHotReset_clocks.moves
  | .linkDown => execLinkDown_clocks.moves
  | .flr => execFlr_clocks.moves
  | .bar2Read _ _ => (execBar2Read_clocks _ _).moves
  | .bar2Write _ _ _ => (execBar2Write_clocks _ _ _).moves
  | .registerWrite _ _ _ => (execRegisterWrite_clocks _ _ _).moves
  | .queuePairCreate _ _ => (execQueuePairCreate_clocks _ _).moves
  | .queuePairDestroy _ => (execQueuePairDestroy_clocks _).moves
  | .sqDoorbell _ _ _ => (execSqDoorbell_clocks _ _ _).moves
  | .sqFetch _ => (execSqFetch_clocks _).moves
  | .submitGraph _ => (execSubmitGraph_clocks _).moves
  | .noOp _ => (execNoOp_clocks _).moves
  | .cqHeadWrite _ _ => (execCqHeadWrite_clocks _ _).moves
  | .graphHeadWrite _ _ _ => (execGraphHeadWrite_clocks _ _ _).moves
  | .coalesceTimer _ => (execCoalesceTimer_clocks _).moves
  | .graphSubmit _ _ => (execGraphSubmit_clocks _ _).moves
  | .graphAdmit _ _ _ => (execGraphAdmit_clocks _ _ _).moves
  | .token _ => (execToken_clocks _).moves
  | .cancellation _ _ => (execCancellation_clocks _ _).moves
  | .fnbTideReached _ => (execFnbTideReached_clocks _).moves
  | .ageLimitExpiry _ => (execAgeLimitExpiry_clocks _).moves
  | .taskFire _ _ _ => (execTaskFire_clocks _ _ _).moves
  | .taskEnd _ _ => (execTaskEnd_clocks _ _).moves
  | .recordWrite _ => (execRecordWrite_clocks _).moves
  | .tagGrant _ _ => (execTagGrant_clocks _ _).moves
  | .homeRequest _ _ => (execHomeRequest_clocks _ _).moves
  | .memoryAdd _ _ => (execMemoryAdd_clocks _ _).moves
  | .requestResponse _ _ _ _ => (execRequestResponse_clocks _ _ _ _).moves
  | .farDeadlineExpiry _ _ => (execFarDeadlineExpiry_clocks _ _).moves
  | .jobSlotBind _ _ _ _ => (execJobSlotBind_clocks _ _ _ _).moves
  | .jobSlotDisable _ _ => (execJobSlotDisable_clocks _ _).moves
  | .funcDisable _ _ => (execFuncDisable_clocks _ _).moves
  | .funcEnable _ _ => (execFuncEnable_clocks _ _).moves
  | .drainDeadline _ => (execDrainDeadline_clocks _).moves
  | .drainComplete _ => (execDrainComplete_clocks _).moves
  | .stallClear _ _ _ => (execStallClear_clocks _ _ _).moves
  | .dbgHalt _ _ => (execDbgHalt_clocks _ _).moves
  | .dbgHaltReached _ _ => (execDbgHaltReached_clocks _ _).moves
  | .dbgResume _ _ => (execDbgResume_clocks _ _).moves
  | .matrix _ _ => (execMatrix_clocks _ _).moves
  | .vectorProgram _ => (execVectorProgram_clocks _).moves
  | .ld _ _ => KeepsClocks.vecOp.moves
  | .st _ _ => KeepsClocks.vecOp.moves
  | .ldi _ _ => KeepsClocks.vecOp.moves
  | .iota _ _ => KeepsClocks.vecOp.moves
  | .add _ _ => KeepsClocks.vecOp.moves
  | .sub _ _ => KeepsClocks.vecOp.moves
  | .mul _ _ => KeepsClocks.vecOp.moves
  | .fma _ _ => KeepsClocks.vecOp.moves
  | .max _ _ => KeepsClocks.vecOp.moves
  | .min _ _ => KeepsClocks.vecOp.moves
  | .abs _ _ => KeepsClocks.vecOp.moves
  | .neg _ _ => KeepsClocks.vecOp.moves
  | .div _ _ => KeepsClocks.vecOp.moves
  | .sqrt _ _ => KeepsClocks.vecOp.moves
  | .cmp _ _ => KeepsClocks.vecOp.moves
  | .sel _ _ => KeepsClocks.vecOp.moves
  | .exp2 _ _ => KeepsClocks.vecOp.moves
  | .log2 _ _ => KeepsClocks.vecOp.moves
  | .rcp _ _ => KeepsClocks.vecOp.moves
  | .rsqrt _ _ => KeepsClocks.vecOp.moves
  | .tanh _ _ => KeepsClocks.vecOp.moves
  | .iadd _ _ => KeepsClocks.vecOp.moves
  | .isub _ _ => KeepsClocks.vecOp.moves
  | .imul _ _ => KeepsClocks.vecOp.moves
  | .imax _ _ => KeepsClocks.vecOp.moves
  | .imin _ _ => KeepsClocks.vecOp.moves
  | .shl _ _ => KeepsClocks.vecOp.moves
  | .shr _ _ => KeepsClocks.vecOp.moves
  | .sra _ _ => KeepsClocks.vecOp.moves
  | .and _ _ => KeepsClocks.vecOp.moves
  | .or _ _ => KeepsClocks.vecOp.moves
  | .xor _ _ => KeepsClocks.vecOp.moves
  | .not _ _ => KeepsClocks.vecOp.moves
  | .icmp _ _ => KeepsClocks.vecOp.moves
  | .cvt _ _ => KeepsClocks.vecOp.moves
  | .rsum _ _ => KeepsClocks.vecOp.moves
  | .rmax _ _ => KeepsClocks.vecOp.moves
  | .rmin _ _ => KeepsClocks.vecOp.moves
  | .rmean _ _ => KeepsClocks.vecOp.moves
  | .gap _ _ => KeepsClocks.vecOp.moves
  | .route _ => (execRoute_clocks _).moves
  | .combine _ => (execCombine_clocks _).moves
  | .kvWrite _ => (execKvWrite_clocks _).moves
  | .attnForward _ _ => (execAttnForward_clocks _ _).moves
  | .attnForwardPartial _ _ => (execAttnForwardPartial_clocks _ _).moves
  | .attnCombine _ => (execAttnCombine_clocks _).moves
  | .attnBackwardDkDv _ _ => (execAttnBackwardDkDv_clocks _ _).moves
  | .attnBackwardDq _ _ => (execAttnBackwardDq_clocks _ _).moves
  | .kvInval _ _ _ => (execKvInval_clocks _ _ _).moves
  | .convForward _ _ => (execConvForward_clocks _ _).moves
  | .convBackwardData _ _ => (execConvBackwardData_clocks _ _).moves
  | .convBackwardFilter _ _ => (execConvBackwardFilter_clocks _ _).moves
  | .boxDecode _ => (execBoxDecode_clocks _).moves
  | .nms _ => (execNms_clocks _).moves
  | .rowsReady _ _ => (execRowsReady_clocks _ _).moves
  | .gather _ => (execGather_clocks _).moves
  | .scatter _ => (execScatter_clocks _).moves
  | .scatterAdd _ => (execScatterAdd_clocks _).moves
  | .scatterMax _ => (execScatterMax_clocks _).moves
  | .scatterMin _ => (execScatterMin_clocks _).moves
  | .copy _ => (execCopy_clocks _).moves
  | .map _ => (execMap_clocks _).moves
  | .unmap _ => (execUnmap_clocks _).moves
  | .fill _ => (execFill_clocks _).moves
  | .drop _ => (execDrop_clocks _).moves
  | .query _ => (execQuery_clocks _).moves
  | .setPin _ => (execSetPin_clocks _).moves
  | .publish _ => (execPublish_clocks _).moves
  | .retire _ => (execRetire_clocks _).moves
  | .pendingReap _ _ _ _ => (execPendingReap_clocks _ _ _ _).moves
  | .mainRegister _ _ _ _ => (execMainRegister_clocks _ _ _ _).moves
  | .mainRetire _ _ _ => (execMainRetire_clocks _ _ _).moves
  | .lendRevoke _ _ => (execLendRevoke_clocks _ _).moves
  | .lendEnClear _ _ _ => (execLendEnClear_clocks _ _ _).moves
  | .revocationEnd _ => (execRevocationEnd_clocks _).moves
  | .revocationDone _ => (execRevocationDone_clocks _).moves
  | .refreshDue _ _ _ => (execRefreshDue_clocks _ _ _).moves
  | .refreshBandRelax _ => (execRefreshBandRelax_clocks _).moves
  | .scrubRead _ _ => (execScrubRead_clocks _ _).moves
  | .tgWriteRead _ _ _ => (execTgWriteRead_clocks _ _ _).moves
  | .tgReadSweep _ _ _ => (execTgReadSweep_clocks _ _ _).moves
  | .tgStop _ _ _ => (execTgStop_clocks _ _ _).moves
  | .tgDone _ _ _ => (execTgDone_clocks _ _ _).moves
  | .contextOpen _ => (execContextOpen_clocks _).moves
  | .contextClose _ => (execContextClose_clocks _).moves
  | .decode _ => (execDecode_clocks _).moves
  | .encode _ => (execEncode_clocks _).moves
  | .frameWatchdog _ _ _ => (execFrameWatchdog_clocks _ _ _).moves
  | .imageDecode _ => (execImageDecode_clocks _).moves
  | .audioDecode _ => (execAudioDecode_clocks _).moves
  | .tokeniseAndPack _ => (execTokeniseAndPack_clocks _).moves
  | .tableLoad _ => (execTableLoad_clocks _).moves
  | .cropAndResize _ => (execCropAndResize_clocks _).moves
  | .batchAssemble _ => (execBatchAssemble_clocks _).moves
  | .sampleDone _ => (execSampleDone_clocks _).moves
  | .resize _ => (execResize_clocks _).moves
  | .flip _ => (execFlip_clocks _).moves
  | .jitter _ => (execJitter_clocks _).moves
  | .norm _ => (execNorm_clocks _).moves
  | .gain _ => (execGain_clocks _).moves
  | .fmask _ => (execFmask_clocks _).moves
  | .tmask _ => (execTmask_clocks _).moves
  | .hostSignal _ => (execHostSignal_clocks _).moves
  | .subGraphLaunch _ => (execSubGraphLaunch_clocks _).moves
  | .subGraphDone _ => (execSubGraphDone_clocks _).moves
  | .tideWait _ => (execTideWait_clocks _).moves
  | .powerHint _ => (execPowerHint_clocks _).moves
  | .hintWindowOpen => execHintWindowOpen_clocks.moves
  | .updateGateCheck _ => (execUpdateGateCheck_clocks _).moves
  | .updateGateCheckpoint _ => (execUpdateGateCheckpoint_clocks _).moves
  | .allReduce _ => (execAllReduce_clocks _).moves
  | .reduceScatter _ => (execReduceScatter_clocks _).moves
  | .allGather _ => (execAllGather_clocks _).moves
  | .expertDispatch _ => (execExpertDispatch_clocks _).moves
  | .expertReceive _ => (execExpertReceive_clocks _).moves
  | .expertReturn _ => (execExpertReturn_clocks _).moves
  | .expertReturnReceive _ => (execExpertReturnReceive_clocks _).moves
  | .sendToPeer _ => (execSendToPeer_clocks _).moves
  | .receiveFromPeer _ => (execReceiveFromPeer_clocks _).moves
  | .verdictReduction _ => (execVerdictReduction_clocks _).moves
  | .ebb _ _ => (execEbb_clocks _ _).moves
  | .flood _ _ => (execFlood_clocks _ _).moves
  | .stepRepeatReadmit _ _ => (execStepRepeatReadmit_clocks _ _).moves
  | .collReady _ _ => (execCollReady_clocks _ _).moves
  | .credit _ _ => (execCredit_clocks _ _).moves
  | .collEnd _ _ => (execCollEnd_clocks _ _).moves
  | .lateNotice _ _ => (execLateNotice_clocks _ _).moves
  | .sendBlock _ _ => (execSendBlock_clocks _ _).moves
  | .collectiveDeadline _ => (execCollectiveDeadline_clocks _).moves
  | .lateWaitExpiry _ => (execLateWaitExpiry_clocks _).moves
  | .lenientWaitExpiry _ => (execLenientWaitExpiry_clocks _).moves
  | .resolveExpiry _ => (execResolveExpiry_clocks _).moves
  | .tokenRow _ _ => (execTokenRow_clocks _ _).moves
  | .endRecord _ _ => (execEndRecord_clocks _ _).moves
  | .travelReady _ _ => (execTravelReady_clocks _ _).moves
  | .readRequest _ _ => (execReadRequest_clocks _ _).moves
  | .writeRequest _ _ => (execWriteRequest_clocks _ _).moves
  | .adderRequest _ _ => (execAdderRequest_clocks _ _).moves
  | .farRead _ _ => (execFarRead_clocks _ _).moves
  | .farReserve _ _ => (execFarReserve_clocks _ _).moves
  | .farWrite _ _ => (execFarWrite_clocks _ _).moves
  | .farCommit _ _ => (execFarCommit_clocks _ _).moves
  | .farAbort _ _ => (execFarAbort_clocks _ _).moves
  | .farQuery _ _ => (execFarQuery_clocks _ _).moves
  | .farRetire _ _ => (execFarRetire_clocks _ _).moves
  | .response _ _ => (execResponse_clocks _ _).moves
  | .linkGroup _ _ _ => (execLinkGroup_clocks _ _ _).moves
  | .packetForward _ _ => (execPacketForward_clocks _ _).moves
  | .ackTimeout _ _ => (execAckTimeout_clocks _ _).moves
  | .nakLimit _ _ => (execNakLimit_clocks _ _).moves
  | .laneClockLoss _ _ lane => (execLaneClockLoss_clocks _ _ lane).moves
  | .portRetrainDone _ _ _ _ => (execPortRetrainDone_clocks _ _ _ _).moves
  | .portTrainingDone _ _ _ _ => (execPortTrainingDone_clocks _ _ _ _).moves
  | .trainRetry _ _ => (execTrainRetry_clocks _ _).moves
  | .hopTimeout _ _ => (execHopTimeout_clocks _ _).moves
  | .routeHoldExpiry _ _ => (execRouteHoldExpiry_clocks _ _).moves
  | .identity _ _ _ => (execIdentity_clocks _ _ _).moves
  | .tideExchange _ => execTideExchange_clocks _
  | .sync _ _ _ => (execSync_clocks _ _ _).moves
  | .echo _ _ _ _ _ _ _ => execEcho_clocks _ _ _ _ _ _ _
  | .parentSwitch _ => execParentSwitch_clocks _
  | .holdoverExpiry _ => (execHoldoverExpiry_clocks _).moves
  | .ppsEdge _ => execPpsEdge_clocks _
  | .clk10mLock _ => execClk10mLock_clocks _
  | .ptpTime _ _ => execPtpTime_clocks _ _
  | .referenceLoss _ => execReferenceLoss_clocks _
  | .refEdgeTimeout => execRefEdgeTimeout_clocks
  | .leaseClaim => execLeaseClaim_clocks.moves
  | .lease _ _ => (execLease_clocks _ _).moves
  | .leaseRenewal => execLeaseRenewal_clocks.moves
  | .leaseLapse => execLeaseLapse_clocks.moves
  | .readyReport _ _ => (execReadyReport_clocks _ _).moves
  | .censusDeadline => execCensusDeadline_clocks.moves
  | .censusResult _ _ => (execCensusResult_clocks _ _).moves
  | .revocationNotice _ _ => (execRevocationNotice_clocks _ _).moves
  | .heartbeatSend => execHeartbeatSend_clocks.moves
  | .heartbeat _ _ => (execHeartbeat_clocks _ _).moves
  | .trayHeartbeat _ _ => (execTrayHeartbeat_clocks _ _).moves
  | .heartbeatTimeout _ => (execHeartbeatTimeout_clocks _).moves
  | .journalAppend _ _ => (execJournalAppend_clocks _ _).moves
  | .journalAcknowledgement _ _ => (execJournalAcknowledgement_clocks _ _).moves
  | .verdictQuery _ _ => (execVerdictQuery_clocks _ _).moves
  | .verdictAnswer _ _ => (execVerdictAnswer_clocks _ _).moves
  | .recoveryLost _ _ => execRecoveryLost_clocks _ _
  | .recoveryAbort _ _ => (execRecoveryAbort_clocks _ _).moves
  | .recoverySubst _ _ => (execRecoverySubst_clocks _ _).moves
  | .recoveryResume _ _ => (execRecoveryResume_clocks _ _).moves
  | .checkpointReport _ _ => (execCheckpointReport_clocks _ _).moves
  | .lateReport _ _ => (execLateReport_clocks _ _).moves
  | .revocationReport _ _ => (execRevocationReport_clocks _ _).moves
  | .noUpPortTimeout => execNoUpPortTimeout_clocks.moves
  | .slackEnter _ => (execSlackEnter_clocks _).moves
  | .slackIdleTimer => execSlackIdleTimer_clocks.moves
  | .slackEntryDone => execSlackEntryDone_clocks.moves
  | .slackWake _ => (execSlackWake_clocks _).moves
  | .wakeReady => execWakeReady_clocks.moves
  | .nonce _ _ => (execNonce_clocks _ _).moves
  | .nonceExpiry _ => (execNonceExpiry_clocks _).moves
  | .read _ _ => (execRead_clocks _ _).moves
  | .write _ _ _ => (execWrite_clocks _ _ _).moves
  | .readLog _ _ _ => (execReadLog_clocks _ _ _).moves
  | .readAudit _ _ _ => (execReadAudit_clocks _ _ _).moves
  | .attest _ _ => (execAttest_clocks _ _).moves
  | .powerCap _ _ => (execPowerCap_clocks _ _).moves
  | .resetModule _ _ => execResetModule_clocks _ _
  | .commit _ => (execCommit_clocks _).moves
  | .configWriteDone _ => (execConfigWriteDone_clocks _).moves
  | .stageBegin _ _ _ => (execStageBegin_clocks _ _ _).moves
  | .stageData _ _ _ => (execStageData_clocks _ _ _).moves
  | .stageApply _ _ => (execStageApply_clocks _ _).moves
  | .stagingIdle => execStagingIdle_clocks.moves
  | .keyEnrol _ _ => (execKeyEnrol_clocks _ _).moves
  | .keyRevoke _ _ => (execKeyRevoke_clocks _ _).moves
  | .repairClear _ _ => (execRepairClear_clocks _ _).moves
  | .diag _ _ => (execDiag_clocks _ _).moves
  | .lockstepMismatch => execLockstepMismatch_clocks
  | .zilsyRestart => execZilsyRestart_clocks.moves
  | .logMergeFlush => execLogMergeFlush_clocks.moves
  | .powerWindow _ => (execPowerWindow_clocks _).moves
  | .meterCorrection _ => (execMeterCorrection_clocks _).moves
  | .tjSample _ _ _ => execTjSample_clocks _ _ _
  | .thermalRecoverStep => execThermalRecoverStep_clocks.moves
  | .marginTrim _ _ => (execMarginTrim_clocks _ _).moves
  | .marginAlarm _ => (execMarginAlarm_clocks _).moves
  | .lendEnSet _ _ _ => (execLendEnSet_clocks _ _ _).moves
  | .borrowerDrop _ _ => (execBorrowerDrop_clocks _ _).moves
  | .perstDeassertion => execPerstDeassertion_clocks.moves
  | .hintWindowClose => execHintWindowClose_clocks.moves
  | .imageWatchdog _ _ => (execImageWatchdog_clocks _ _).moves

/-- Every step keeps both clocks, or starts the module anew. -/
theorem step_clocks {s t : State} (e : step s = .next t) : t.block.clocks = Block.reset.clocks ∨ ClocksKept s.block.clocks t.block.clocks := by
  unfold step at e
  split at e
  · cases e
    exact .inr s.block.tick_clocksKept
  · next i rest _ => exact exec_clocks i { s with pending := rest } t e

theorem Block.reset_everLocked (h : HalfId) : (Block.reset.half h).tide.everLocked = false := by
  cases h <;> rfl

/-- Settles O54: every step keeps a Locked counter's lock, run and height, or is a start anew, after which nothing counts as Locked. -/
theorem tideNeverDecreases : Obligations.TideNeverDecreases := by
  unfold Obligations.TideNeverDecreases
  intro s t h hstep hlocked hrun hlocked'
  obtain hanew | hkept := step_clocks hstep
  · rw [Block.tide_eq_of_clocks hanew h, Block.reset_everLocked] at hlocked'
    exact absurd hlocked' Bool.false_ne_true
  · exact ⟨(hkept.half h).rises hlocked hrun, (hkept.half h).runs hrun⟩

end Sys2Proof.Machine

/-! PROOFS. A step on an empty queue (spec/00_scope.md; log entry 3): one nanosecond passes (O3). -/

namespace Sys2Proof.Machine

/-- With power good, each half's clock advances and nothing else of it changes. -/
theorem Block.half_tick (b : Block) (h : HalfId) (hgood : b.sys.powerGood = true) :
    b.tick.half h = { b.half h with tide := (b.half h).tide.advance } := by
  cases h <;> simp [Block.tick, Block.half, hgood]

/-- With neither power nor standby, time stands still. -/
theorem Block.tick_unpowered (b : Block) (hgood : b.sys.powerGood = false) (hstandby : b.sys.standby = false) : b.tick = b := by
  have hpower : ¬ b.sys.powerGood = true := by simp [hgood]
  have hpassed : b2n (b.sys.powerGood || b.sys.standby) = 0 := by simp [hgood, hstandby, b2n]
  simp only [Block.tick, hpassed, if_neg hpower]
  rfl

/-- Settles O3: what an empty queue's step leaves alone, and how its clocks run. -/
theorem emptyQueueTick : Obligations.EmptyQueueTick := by
  unfold Obligations.EmptyQueueTick
  intro s hempty
  have hstep : step s = .next { s with block := s.block.tick } := by rw [step, hempty]
  refine ⟨_, hstep, hempty, rfl, rfl, rfl, rfl, rfl, rfl, fun hgood => ⟨?_, fun h => ?_⟩, fun hgood hstandby => ?_⟩
  · simp [Block.tick, hgood, b2n]
  · rw [Block.half_tick _ h hgood]
    rfl
  · rw [Block.tick_unpowered _ hgood hstandby]

end Sys2Proof.Machine

/-! PROOFS. Links (spec/12_efing_and_tide.md R308-R322): what sending, holding and routing packets leave of the block beside the links, of the
links, and of the receive buffers. -/

namespace Sys2Proof.Machine

/-! ## Beside the halves

Packets that come and go change the halves' links, the packets that leave and the values drawn; the rest of the block is its ground. -/

/-- A block with its halves, what has left it and what was drawn blanked. -/
def Block.ground (b : Block) : Block := { b with halfA := Half.reset, halfB := Half.reset, out := [], freeCounter := 0 }

theorem Block.regFld_eq {b c : Block} {a : Nat} (h : b.reg a = c.reg a) (hi lo : Nat) : b.regFld a hi lo = c.regFld a hi lo := by
  rw [Block.regFld, h, Block.regFld]

section
variable {b c : Block}

theorem Block.regs_of_ground (e : c.ground = b.ground) : c.regs = b.regs := (congrArg Block.regs e :)
theorem Block.reg_of_ground (e : c.ground = b.ground) (a : Nat) : c.reg a = b.reg a := Block.reg_eq (Block.regs_of_ground e) a
theorem Block.regFld_of_ground (e : c.ground = b.ground) (a hi lo : Nat) : c.regFld a hi lo = b.regFld a hi lo :=
   Block.regFld_eq (Block.reg_of_ground e a) hi lo
theorem Block.domain_of_ground (e : c.ground = b.ground) : c.domain = b.domain := (congrArg Block.domain e :)
theorem Block.sys_of_ground (e : c.ground = b.ground) : c.sys = b.sys := (congrArg Block.sys e :)
theorem Block.image_of_ground (e : c.ground = b.ground) : c.image = b.image := (congrArg Block.image e :)
theorem Block.mem_of_ground (e : c.ground = b.ground) : c.mem = b.mem := (congrArg Block.mem e :)
theorem Block.slots_of_ground (e : c.ground = b.ground) : c.slots = b.slots := (congrArg Block.slots e :)
theorem Block.flash_of_ground (e : c.ground = b.ground) : c.flash = b.flash := (congrArg Block.flash e :)

theorem Block.endpoint_of_ground (e : c.ground = b.ground) (h : HalfId) : c.endpoint h = b.endpoint h := by
  rw [Block.endpoint, Block.regFld_of_ground e, Block.endpoint]

end

@[simp] theorem Block.modHalf_ground (b : Block) (h : HalfId) (f : Half → Half) : (b.modHalf h f).ground = b.ground := by cases h <;> rfl
@[simp] theorem Block.emit_ground (b : Block) (o : Out) : (b.emit o).ground = b.ground := rfl
@[simp] theorem Block.fresh_ground (b : Block) : b.fresh.2.ground = b.ground := rfl
@[simp] theorem Block.modPort_ground (b : Block) (h : HalfId) (x : Nat) (f : Port → Port) : (b.modPort h x f).ground = b.ground := by
  simp [Block.modPort]
@[simp] theorem Block.modTide_ground (b : Block) (h : HalfId) (f : TideClock → TideClock) : (b.modTide h f).ground = b.ground := by
  simp [Block.modTide]
@[simp] theorem Block.makePacket_ground (b : Block) (h : HalfId) (dest job cls op tag w2 block : Nat) (payload : List Byte) :
    (b.makePacket h dest job cls op tag w2 block payload).2.ground = b.ground := by simp [Block.makePacket]
@[simp] theorem Block.control_ground (b : Block) (h : HalfId) (x kind cls n lstate : Nat) : (b.control h x kind cls n lstate).ground = b.ground := by
  simp [Block.control]

@[simp] theorem Block.linkSend_ground (b : Block) (h : HalfId) (x : Nat) (p : Packet) : (b.linkSend h x p).ground = b.ground := by
  simp only [Block.linkSend]
  split <;> simp

@[simp] theorem Block.unbuffer_ground (b : Block) (h : HalfId) (p : Packet) : (b.unbuffer h p).ground = b.ground := by
  simp only [Block.unbuffer]
  split <;> simp

@[simp] theorem Block.unbufferTime_ground (b : Block) (h : HalfId) (x op : Nat) : (b.unbufferTime h x op).ground = b.ground := by
  simp only [Block.unbufferTime]
  split <;> simp

@[simp] theorem Block.sendTime_ground (b : Block) (h : HalfId) (x op tx : Nat) (payload : List Byte) :
    (b.sendTime h x op tx payload).ground = b.ground := by
  simp [Block.sendTime]

@[simp] theorem Block.syncLinks_ground (b : Block) (h : HalfId) (l : List Nat) : (b.syncLinks h l).ground = b.ground := by
  induction l generalizing b with
  | nil => rfl
  | cons x xs ih =>
    rw [Block.syncLinks, ih]
    split <;> simp

@[simp] theorem Block.fresh_half (b : Block) (k : HalfId) : b.fresh.2.half k = b.half k := by cases k <;> rfl

/-! ## Links -/

/-- The links of a half. -/
def Block.links (b : Block) (h : HalfId) : List Port := (b.half h).efing.ports

theorem Block.port_of_links {b c : Block} {h : HalfId} (e : c.links h = b.links h) (x : Nat) : c.port h x = b.port h x := by
  rw [Block.port, ← Block.links, e, Block.links, Block.port]

theorem Block.links_of_half {b c : Block} {h : HalfId} (e : c.half h = b.half h) : c.links h = b.links h := by
  rw [Block.links, e, Block.links]

theorem Shaped.links {b : Block} (hs : Shaped b) (h : HalfId) : (b.links h).length = 10 := by
  obtain ⟨-, -, hA, hB⟩ := hs
  cases h
  · exact hA
  · exact hB

/-- A link changed. -/
theorem Block.port_modPort (b : Block) (h k : HalfId) (x y : Nat) (f : Port → Port) :
    (b.modPort h x f).port k y = if k = h ∧ y = x ∧ x < (b.links h).length then f (b.port k y) else b.port k y := by
  by_cases hk : k = h
  · subst hk
    simp only [Block.port, Block.modPort, Block.half_modHalf_same, getD_listMod, Block.links, true_and]
    refine if_congr ?_ rfl rfl
    constructor <;> rintro ⟨rfl, hy⟩ <;> exact ⟨rfl, hy⟩
  · rw [if_neg (fun e => hk e.1), Block.port, Block.modPort, Block.half_modHalf_other _ _ _ _ hk, Block.port]

theorem Block.port_modPort_same {b : Block} {h : HalfId} {x : Nat} (hx : x < (b.links h).length) (f : Port → Port) :
    (b.modPort h x f).port h x = f (b.port h x) := by
  rw [Block.port_modPort, if_pos ⟨rfl, rfl, hx⟩]

theorem Block.port_modPort_other (b : Block) (h k : HalfId) {x y : Nat} (hy : y ≠ x) (f : Port → Port) :
    (b.modPort h x f).port k y = b.port k y := by
  rw [Block.port_modPort, if_neg (fun e => hy e.2.1)]

/-- A half whose links stand. -/
theorem Block.modHalf_links (b : Block) (h k : HalfId) (f : Half → Half) (hf : ∀ x, (f x).efing.ports = x.efing.ports) :
    (b.modHalf h f).links k = b.links k := by
  by_cases hk : k = h
  · subst hk
    simp [Block.links, hf]
  · rw [Block.links, Block.half_modHalf_other _ _ _ _ hk, Block.links]

section
variable (b : Block) (h k : HalfId)

@[simp] theorem Block.emit_links (o : Out) : (b.emit o).links k = b.links k := by simp [Block.links]
@[simp] theorem Block.fresh_links : b.fresh.2.links k = b.links k := by simp [Block.links, Block.fresh_half]
@[simp] theorem Block.modTide_links (f : TideClock → TideClock) : (b.modTide h f).links k = b.links k := b.modHalf_links h k _ (fun _ => rfl)
@[simp] theorem Block.control_links (x kind cls n lstate : Nat) : (b.control h x kind cls n lstate).links k = b.links k := by simp [Block.control]
@[simp] theorem Block.makePacket_links (dest job cls op tag w2 block : Nat) (payload : List Byte) :
    (b.makePacket h dest job cls op tag w2 block payload).2.links k = b.links k := b.modHalf_links h k _ (fun _ => rfl)

@[simp] theorem Block.modPort_links_length (x : Nat) (f : Port → Port) : ((b.modPort h x f).links k).length = (b.links k).length := by
  by_cases hk : k = h
  · subst hk
    simp [Block.links, Block.modPort]
  · rw [Block.links, Block.modPort, Block.half_modHalf_other _ _ _ _ hk, Block.links]

@[simp] theorem Block.unbuffer_links (p : Packet) : (b.unbuffer h p).links k = b.links k := by
  simp only [Block.unbuffer]
  split
  · rfl
  · rw [Block.control_links]
    exact b.modHalf_links h k _ (fun _ => rfl)

@[simp] theorem Block.unbufferTime_links (x op : Nat) : (b.unbufferTime h x op).links k = b.links k := by
  simp only [Block.unbufferTime]
  split <;> simp

end

/-- A packet sent on a link changes no other. -/
theorem Block.linkSend_port_other (b : Block) (h k : HalfId) {x y : Nat} (hy : y ≠ x) (p : Packet) :
    (b.linkSend h x p).port k y = b.port k y := by
  simp only [Block.linkSend]
  split
  · rw [Block.port_of_links (Block.emit_links _ _ _), Block.port_modPort_other _ _ _ hy]
  · rw [Block.port_modPort_other _ _ _ hy]

theorem Block.sendTime_port_other (b : Block) (h k : HalfId) {x y : Nat} (hy : y ≠ x) (op tx : Nat) (payload : List Byte) :
    (b.sendTime h x op tx payload).port k y = b.port k y := by
  rw [Block.sendTime, Block.linkSend_port_other _ _ _ hy, Block.port_of_links (Block.makePacket_links _ _ _ _ _ _ _ _ _ _ _)]

end Sys2Proof.Machine

/-! PROOFS. Tide's commands (spec/12_efing_and_tide.md R326-R331; spec/16_configuration_image.md R425): what the operations on a half's clock and
on TIDE_STAT leave, and from it what the root's reference and the exchanges do (O41, O40). -/

namespace Sys2Proof.Machine

/-! ## TIDE_STAT -/

theorem Block.locked_eq (b : Block) (h : HalfId) : b.locked h = decide (b.regFld (tideReg h 8) 63 63 = 1) := by
  simp only [Block.locked, bit, Block.regFld, fld, bits]
  exact beq_eq_decide _ _

section
variable (b : Block) (h : HalfId) (hi lo v : Nat)

@[simp] theorem Block.setTideStat_half (k : HalfId) : (b.setTideStat h hi lo v).half k = b.half k := by simp [Block.setTideStat]
@[simp] theorem Block.setTideStat_sys : (b.setTideStat h hi lo v).sys = b.sys := by simp [Block.setTideStat]
@[simp] theorem Block.setTideStat_image : (b.setTideStat h hi lo v).image = b.image := by simp [Block.setTideStat]
@[simp] theorem Block.setTideStat_domain : (b.setTideStat h hi lo v).domain = b.domain := by simp [Block.setTideStat]

/-- A field of TIDE_STAT as it was just set. -/
theorem Block.tideStat_set (hhi : hi < 64) (hv : v < 2 ^ (hi + 1 - lo)) : (b.setTideStat h hi lo v).regFld (tideReg h 8) hi lo = v :=
  (b.regFld_setRegFld_same _ hi lo v hhi).trans (Nat.mod_eq_of_lt hv)

/-- TIDE_STAT's other fields. -/
theorem Block.tideStat_other (hi' lo' : Nat) (hne : hi' < lo ∨ hi < lo') :
    (b.setTideStat h hi lo v).regFld (tideReg h 8) hi' lo' = b.regFld (tideReg h 8) hi' lo' := by
  simp [Block.setTideStat, Block.setRegFld, Block.regFld, fld_setFld_other _ _ _ _ _ _ hne]

/-- Every other register. -/
theorem Block.tideStat_elsewhere (hi' lo' : Nat) {a : Nat} (ha : a ≠ tideReg h 8) : (b.setTideStat h hi lo v).regFld a hi' lo' = b.regFld a hi' lo' :=
  Block.regFld_eq (b.reg_setRegFld_other _ hi lo v a ha) hi' lo'

@[simp] theorem Block.modTide_reg (f : TideClock → TideClock) (a : Nat) : (b.modTide h f).reg a = b.reg a := by simp [Block.modTide]
@[simp] theorem Block.modTide_regFld (f : TideClock → TideClock) (a : Nat) : (b.modTide h f).regFld a hi lo = b.regFld a hi lo :=
  Block.regFld_eq (b.modTide_reg h f a) hi lo
@[simp] theorem Block.modTide_sys (f : TideClock → TideClock) : (b.modTide h f).sys = b.sys := by simp [Block.modTide]
@[simp] theorem Block.modTide_image (f : TideClock → TideClock) : (b.modTide h f).image = b.image := by simp [Block.modTide]
@[simp] theorem Block.modTide_domain (f : TideClock → TideClock) : (b.modTide h f).domain = b.domain := by simp [Block.modTide]
@[simp] theorem Block.modTide_half (f : TideClock → TideClock) :
    (b.modTide h f).half h = { b.half h with tide := f (b.half h).tide } := by simp [Block.modTide]
@[simp] theorem Block.fresh_regFld (a : Nat) : b.fresh.2.regFld a hi lo = b.regFld a hi lo := rfl
@[simp] theorem Block.log_regFld (e : Event) (a : Nat) : (b.log e).regFld a hi lo = b.regFld a hi lo :=
  Block.regFld_eq (b.log_reg e a) hi lo

end

/-! ## Lock, slew and start -/

/-- The ready report goes once (R334). -/
theorem Block.reportReady_of_reported {b : Block} (hrep : b.domain.reported = true) : b.reportReady = b := by
  simp [Block.reportReady, hrep]

section
variable {b : Block} (h : HalfId) (hrep : b.domain.reported = true)

theorem Block.slewed_half (b : Block) (h : HalfId) : (b.slewed h).half h =
    { b.half h with tide := { (b.half h).tide with slew := ((b.fresh.1 % 400001 : Nat) : Int) - 200000 } } := by
  simp [Block.slewed]

/-- A correction is within 200 ppm (R326). -/
theorem Block.slewed_slew_range (b : Block) (h : HalfId) :
    -200000 ≤ ((b.slewed h).half h).tide.slew ∧ ((b.slewed h).half h).tide.slew ≤ 200000 := by
  rw [Block.slewed_half]
  dsimp only
  omega

@[simp] theorem Block.slewed_regFld (b : Block) (h : HalfId) (a hi lo : Nat) : (b.slewed h).regFld a hi lo = b.regFld a hi lo := by
  simp [Block.slewed]

@[simp] theorem Block.slewed_domain (b : Block) (h : HalfId) : (b.slewed h).domain = b.domain := by simp [Block.slewed]

include hrep

theorem Block.lockTide_half : (b.lockTide h).half h = { b.half h with tide := { (b.half h).tide with everLocked := true } } := by
  simp only [Block.lockTide]
  split <;> rw [Block.reportReady_of_reported (by simp [hrep])] <;> simp

theorem Block.lockTide_regFld (a hi lo : Nat) : (b.lockTide h).regFld a hi lo = (b.setTideStat h 63 63 1).regFld a hi lo := by
  simp only [Block.lockTide]
  split <;> rw [Block.reportReady_of_reported (by simp [hrep])] <;> simp [Block.regFld]

/-- Lock sets one bit of TIDE_STAT. -/
theorem Block.lockTide_tideStat (hi lo : Nat) (hhi : hi < 63) :
    (b.lockTide h).regFld (tideReg h 8) hi lo = b.regFld (tideReg h 8) hi lo := by
  rw [Block.lockTide_regFld h hrep, Block.tideStat_other _ _ _ _ _ _ _ (.inl hhi)]

theorem Block.lockTide_locked : (b.lockTide h).locked h = true := by
  rw [Block.locked_eq, Block.lockTide_regFld h hrep, Block.tideStat_set] <;> decide

theorem Block.startRoot_half (now ref : Nat) : (b.startRoot h now ref).half h = { b.half h with tide := { (b.half h).tide with
    now := now, frac := 0, running := true, lastExchange := now, everLocked := true } } := by
  rw [Block.startRoot, Block.lockTide_half h (by simp [hrep])]
  simp

theorem Block.startRoot_locked (now ref : Nat) : (b.startRoot h now ref).locked h = true :=
  Block.lockTide_locked h (by simp [hrep])

/-- The root at its start: depth 0, its reference as told. -/
theorem Block.startRoot_tideStat (now : Nat) {ref : Nat} (href : ref < 4) :
    (b.startRoot h now ref).regFld (tideReg h 8) 61 61 = 1 ∧ (b.startRoot h now ref).regFld (tideReg h 8) 59 56 = 0 ∧
      (b.startRoot h now ref).regFld (tideReg h 8) 51 50 = ref := by
  simp [Block.startRoot, Block.lockTide_tideStat, Block.tideStat_other, Block.tideStat_set, hrep, href]

end

/-! ## The root's reference (R331, R425) -/

/-- PPS_SEEN is set while power is good (R485, R488). -/
def Block.seePps (b : Block) : Block := if b.sys.powerGood then b.setRegFld (zilReg 0x40) 2 2 1 else b

/-- The block after an edge of the 1 PPS input. -/
def Block.ppsEdge (b : Block) (h : HalfId) : Block :=
  if b.seePps.image.tideRef = 0 ∧ (b.seePps.half h).tide.clk10m then b.seePps.reference h b.seePps.image.tideStartNs 1 else b.seePps

theorem exec_ppsEdge (h : HalfId) (s : State) : exec (.ppsEdge h) s = .next { s with block := s.block.ppsEdge h } := rfl

theorem tideReg_ne_zilReg (h : HalfId) : tideReg h 8 ≠ zilReg 0x40 := by cases h <;> decide

@[simp] theorem Block.seePps_half (b : Block) (h : HalfId) : b.seePps.half h = b.half h := by
  unfold Block.seePps; split <;> simp

@[simp] theorem Block.seePps_image (b : Block) : b.seePps.image = b.image := by
  unfold Block.seePps; split <;> simp

@[simp] theorem Block.seePps_domain (b : Block) : b.seePps.domain = b.domain := by
  unfold Block.seePps; split <;> simp

@[simp] theorem Block.seePps_lasting (b : Block) : b.seePps.lasting = b.lasting := by
  unfold Block.seePps; split <;> simp

@[simp] theorem Block.seePps_tideStat (b : Block) (h : HalfId) (hi lo : Nat) :
    b.seePps.regFld (tideReg h 8) hi lo = b.regFld (tideReg h 8) hi lo := by
  unfold Block.seePps
  split
  · exact Block.regFld_eq (b.reg_setRegFld_other _ _ _ _ _ (tideReg_ne_zilReg h)) hi lo
  · rfl

/-- The straps beside PPS_SEEN. -/
theorem Block.seePps_straps (b : Block) : b.seePps.regFld (zilReg 0x40) 63 51 = b.regFld (zilReg 0x40) 63 51 := by
  unfold Block.seePps
  split
  · simp [Block.setRegFld, Block.regFld, fld_setFld_other]
  · rfl

@[simp] theorem Block.seePps_isRoot (b : Block) (h : HalfId) : b.seePps.isRoot h = b.isRoot h := by
  rw [Block.isRoot, Block.isRoot, Block.endpoint, Block.endpoint, Block.rootEp, Block.rootEp, Block.seePps_straps, Block.seePps_image,
    Block.seePps_tideStat]

theorem Block.seePps_seen {b : Block} (hgood : b.sys.powerGood = true) : b.seePps.regFld (zilReg 0x40) 2 2 = 1 := by
  rw [Block.seePps, if_pos hgood]
  exact b.regFld_setRegFld_same _ 2 2 1 (by decide)

/-- The reference changes registers of Tide alone. -/
theorem Block.reference_regFld_other {b : Block} (h : HalfId) (hrep : b.domain.reported = true) (now ref a hi lo : Nat) (ha : a ≠ tideReg h 8) :
    (b.reference h now ref).regFld a hi lo = b.regFld a hi lo := by
  simp only [Block.reference]
  split
  · rfl
  · split
    · simp [Block.startRoot, Block.lockTide_regFld, hrep, Block.tideStat_elsewhere, ha]
    · simp [Block.tideStat_elsewhere, ha]

/-- What the root's reference does: a counter that does not run starts at `now`, a running one is only slewed (R331). -/
theorem Block.reference_of_root {b : Block} {h : HalfId} (hrep : b.domain.reported = true) (hroot : b.isRoot h = true) (now : Nat) {ref : Nat}
    (href : ref < 4) :
    (b.reference h now ref).regFld (tideReg h 8) 51 50 = ref ∧
      ((b.half h).tide.running = false → (b.reference h now ref).tide h = now ∧ ((b.reference h now ref).half h).tide.running = true ∧
        (b.reference h now ref).locked h = true ∧ (b.reference h now ref).regFld (tideReg h 8) 61 61 = 1 ∧
        (b.reference h now ref).regFld (tideReg h 8) 59 56 = 0) ∧
      ((b.half h).tide.running = true → (b.reference h now ref).tide h = b.tide h ∧ (b.reference h now ref).regFld (tideReg h 8) 60 60 = 0 ∧
        -200000 ≤ ((b.reference h now ref).half h).tide.slew ∧ ((b.reference h now ref).half h).tide.slew ≤ 200000) := by
  cases hrun : (b.half h).tide.running with
  | false =>
    have hstart : b.reference h now ref = b.startRoot h now ref := by simp [Block.reference, hroot, hrun]
    obtain ⟨hdepth, hparent, hsource⟩ := Block.startRoot_tideStat h hrep now href
    rw [hstart, Block.tide, Block.startRoot_half h hrep]
    exact ⟨hsource, fun _ => ⟨rfl, rfl, Block.startRoot_locked h hrep now ref, hdepth, hparent⟩, fun hrun' => absurd hrun' (by decide)⟩
  | true =>
    have hslew : b.reference h now ref = ((b.slewed h).setTideStat h 51 50 ref).setTideStat h 60 60 0 := by simp [Block.reference, hroot, hrun]
    rw [hslew]
    refine ⟨?_, fun hrun' => absurd hrun' (by decide), fun _ => ⟨?_, ?_, ?_⟩⟩
    · rw [Block.tideStat_other _ _ _ _ _ _ _ (by omega), Block.tideStat_set _ _ _ _ _ (by omega) href]
    · simp [Block.tide, Block.slewed_half]
    · rw [Block.tideStat_set] <;> decide
    · simpa using b.slewed_slew_range h

/-- The root meets its reference, by 1 PPS or from Zilsy. -/
theorem exec_reference {s : State} {h : HalfId} {i : Instr} {now ref : Nat} (hroot : s.block.isRoot h = true)
    (hi : (i = .ppsEdge h ∧ s.block.image.tideRef = 0 ∧ (s.block.half h).tide.clk10m = true ∧ now = s.block.image.tideStartNs ∧ ref = 1) ∨
      (∃ ns, i = .ptpTime h ns ∧ s.block.image.tideRef = 1 ∧ s.block.zilsy.up = true ∧ now = ns - s.block.image.domainEpoch ∧ ref = 2)) :
    ref < 4 ∧ ∃ b : Block, b.half h = s.block.half h ∧ b.domain = s.block.domain ∧ b.isRoot h = true ∧ b.lasting = s.block.lasting ∧
      exec i s = .next { s with block := b.reference h now ref } := by
  obtain ⟨rfl, hpps, hclk, rfl, rfl⟩ | ⟨ns, rfl, hptp, hup, rfl, rfl⟩ := hi
  · refine ⟨by decide, s.block.seePps, s.block.seePps_half h, s.block.seePps_domain, by simpa using hroot, by simp, ?_⟩
    rw [exec_ppsEdge, Block.ppsEdge, if_pos (by simp [hpps, hclk]), Block.seePps_image]
  · refine ⟨by decide, s.block, rfl, rfl, hroot, rfl, ?_⟩
    simp [exec, execPtpTime, State.act, hptp, hup]

theorem Block.reference_mem (b : Block) (h : HalfId) (now ref : Nat) : (b.reference h now ref).mem = b.mem :=
  Block.mem_eq_of_lasting (by simp)

/-- A lost reference sets REF_LOST, and steps nothing. -/
theorem Block.loseReference_of_source {b : Block} {h : HalfId} (hroot : b.isRoot h = true) (hsource : b.regFld (tideReg h 8) 51 50 ≠ 0)
    (hheld : b.regFld (tideReg h 8) 60 60 = 0) :
    (b.loseReference h).tide h = b.tide h ∧ (b.loseReference h).locked h = b.locked h ∧
      (b.loseReference h).regFld (tideReg h 8) 60 60 = 1 := by
  rw [Block.loseReference, if_pos ⟨hroot, hsource, hheld⟩]
  refine ⟨by simp [Block.tide], ?_, ?_⟩
  · simp [Block.locked_eq, Block.tideStat_other]
  · rw [Block.log_regFld, Block.tideStat_set] <;> decide

/-- Settles O41: the reference's commands one by one; the root's two ways to its reference are one lemma. -/
theorem tideReferenceCommands : Obligations.TideReferenceCommands := by
  unfold Obligations.TideReferenceCommands
  intro s h hrep
  refine ⟨fun hmay hpps => ?_, fun i now ref hroot hi => ?_, fun hgood => ?_, fun hroot hsource hheld => ?_, fun hbuiltin hready hrun hdue => ?_⟩
  · refine ⟨{ s with block := s.block.modTide h (fun t => { t with clk10m := true }) }, ?_, rfl, ?_, ?_, by simp⟩
    · simp [exec, execClk10mLock, State.act, hmay, hpps]
    · simp [Block.modTide]
    · simp [Block.modTide]
  · obtain ⟨href, b, hhalf, hdomain, hrootb, hlasting, hexec⟩ := exec_reference hroot hi
    refine ⟨_, hexec, rfl, (b.reference_mem h now ref).trans (Block.mem_eq_of_lasting hlasting), ?_⟩
    have hmeets := Block.reference_of_root (hdomain ▸ hrep) hrootb now href
    rw [hhalf, Block.tide, Block.tide, hhalf] at hmeets
    exact hmeets
  · refine ⟨_, exec_ppsEdge h s, rfl, Block.mem_eq_of_lasting ?_, ?_⟩
    · simp only [Block.ppsEdge]
      split <;> simp
    · have hseen := Block.seePps_seen hgood
      simp only [Block.ppsEdge]
      split
      · rwa [Block.reference_regFld_other h (by simp [hrep]) _ _ _ _ _ (tideReg_ne_zilReg h).symm]
      · exact hseen
  · exact ⟨_, rfl, rfl, Block.mem_eq_of_lasting (by simp), Block.loseReference_of_source hroot hsource hheld⟩
  · have hexec : exec .refEdgeTimeout s = .next { s with
        block := ((s.block.startRoot .a 0 0).setTideStat .a 60 60 1).log { event := 0x0041, half := .a, arg0 := 0, arg1 := 2 } } := by
      simp [exec, execRefEdgeTimeout, State.act, hbuiltin, hready, hrun, hdue]
    refine ⟨_, hexec, rfl, Block.mem_eq_of_lasting (by simp), ?_, ?_, ?_, ?_⟩
    · rw [Block.tide, Block.log_half, Block.setTideStat_half, Block.startRoot_half .a hrep]
    · change ((Block.log _ _).half .a).tide.running = true
      rw [Block.log_half, Block.setTideStat_half, Block.startRoot_half .a hrep]
    · rw [Block.locked_eq, Block.log_regFld, Block.tideStat_other _ _ _ _ _ _ _ (by omega), ← Block.locked_eq]
      exact Block.startRoot_locked .a hrep 0 0
    · rw [Block.log_regFld, Block.tideStat_set] <;> decide

/-! ## Exchanges (R327) -/

/-- Links that carry no time get no SYNC. -/
theorem Block.syncLinks_port_untimed {h : HalfId} {x : Nat} (l : List Nat) {b : Block} (hx : (b.port h x).timed = false) :
    (b.syncLinks h l).port h x = b.port h x := by
  induction l generalizing b with
  | nil => rfl
  | cons y ys ih =>
    rw [Block.syncLinks]
    split
    · next hy =>
      have hne : x ≠ y := by
        rintro rfl
        exact absurd hy (by simp [hx])
      have hport : (b.sendTime h y 0x01 (b.tide h) []).port h x = b.port h x := Block.sendTime_port_other b h h hne _ _ _
      rw [ih (by rw [hport]; exact hx), hport]
    · exact ih hx

theorem Block.syncLinks_of_untimed {h : HalfId} (l : List Nat) {b : Block} (hl : ∀ y ∈ l, (b.port h y).timed = false) :
    b.syncLinks h l = b := by
  induction l with
  | nil => rfl
  | cons y ys ih =>
    rw [Block.syncLinks, if_neg (by simp [hl y])]
    exact ih (fun z hz => hl z (List.mem_cons_of_mem _ hz))

/-- Where one link alone carries time, the SYNC goes by it. -/
theorem Block.syncLinks_of_one {h : HalfId} {x : Nat} (l : List Nat) {b : Block} (hnodup : l.Nodup) (hx : x ∈ l)
    (htimed : (b.port h x).timed = true) (hothers : ∀ y ∈ l, y ≠ x → (b.port h y).timed = false) :
    b.syncLinks h l = b.sendTime h x 0x01 (b.tide h) [] := by
  induction l with
  | nil => cases hx
  | cons y ys ih =>
    obtain ⟨hy, hys⟩ := List.nodup_cons.mp hnodup
    rw [Block.syncLinks]
    by_cases hyx : y = x
    · subst hyx
      rw [if_pos htimed]
      refine Block.syncLinks_of_untimed ys fun z hz => ?_
      have hzy : z ≠ y := fun e => hy (e ▸ hz)
      rw [Block.sendTime_port_other b h h hzy]
      exact hothers z (List.mem_cons_of_mem _ hz) hzy
    · rw [if_neg (by simp [hothers y List.mem_cons_self hyx])]
      exact ih hys ((List.mem_cons.mp hx).resolve_left (Ne.symm hyx)) (fun z hz => hothers z (List.mem_cons_of_mem _ hz))

/-! ## The parent (R328, R330) -/

section
variable {b : Block} {h : HalfId} {x t1 t2 t3 : Nat}

/-- The offset and the delay that an exchange shows (R326). -/
def Block.exchangeTheta (b : Block) (h : HalfId) (x t1 t2 t3 : Nat) : Int :=
  halfOfSum ((t2 : Int) - t1 - ((b.tide h : Int) - t3) - (b.port h x).asym)

/-- The count of exchanges in a row within 10 ns after one more. -/
def Block.goodAfter (b : Block) (h : HalfId) (theta : Int) : Nat := if -10 ≤ theta ∧ theta ≤ 10 then (b.half h).tide.good + 1 else 0

/-- The first exchange of a half that was never Locked sets its counter. -/
theorem Block.steer_sets (hlock : (b.half h).tide.everLocked = false) (hsync : (b.half h).tide.synced = false) :
    ((b.steer h x t1 t2 t3).half h).tide = { (b.half h).tide with
      now := ((t3 : Int) + halfOfSum ((t2 : Int) - t1 + ((b.tide h : Int) - t3))).toNat, frac := 0, running := true, synced := true, good := 0,
      lastExchange := ((t3 : Int) + halfOfSum ((t2 : Int) - t1 + ((b.tide h : Int) - t3))).toNat } := by
  simp [Block.steer, hlock, hsync, Block.tide]

/-- The block after an exchange that slews, before it is looked whether it locks. -/
def Block.steered (b : Block) (h : HalfId) (x t1 t2 t3 : Nat) : Block :=
  let theta := b.exchangeTheta h x t1 t2 t3
  let delta := halfOfSum ((t2 : Int) - t1 + ((b.tide h : Int) - t3))
  let b1 := (b.setReg (tideReg h 0x10) (BitVec.ofNat 64 (twos 32 theta * 2 ^ 32 + twos 32 delta))).setTideStat h 59 56 ((b.port h x).nbrDepth + 1)
  (b1.slewed h).modTide h (fun t => { t with synced := true, good := b.goodAfter h theta })

theorem Block.steer_slews (hagain : (b.half h).tide.everLocked = true ∨ (b.half h).tide.synced = true) :
    b.steer h x t1 t2 t3 =
      if 32 ≤ b.goodAfter h (b.exchangeTheta h x t1 t2 t3) ∧ ¬ b.locked h ∧ (b.port h x).nbrDepth + 1 ≤ 15 then
        (b.steered h x t1 t2 t3).lockTide h
      else b.steered h x t1 t2 t3 := by
  rw [Block.steer]
  dsimp only
  rw [if_neg]
  · rfl
  · rintro ⟨hlock, hsync⟩
    exact hagain.elim hlock hsync

theorem tideReg_offset_ne (h : HalfId) : tideReg h 8 ≠ tideReg h 0x10 := by cases h <;> decide

theorem Block.steered_domain : (b.steered h x t1 t2 t3).domain = b.domain := by simp [Block.steered]

theorem Block.steered_half : ∃ slew : Int, -200000 ≤ slew ∧ slew ≤ 200000 ∧ (b.steered h x t1 t2 t3).half h = { b.half h with
    tide := { (b.half h).tide with slew := slew, synced := true, good := b.goodAfter h (b.exchangeTheta h x t1 t2 t3) } } := by
  rw [Block.steered]
  set b1 := (b.setReg (tideReg h 0x10) _).setTideStat h 59 56 _ with hb1
  obtain ⟨hlow, hhigh⟩ := b1.slewed_slew_range h
  rw [Block.slewed_half] at hlow hhigh
  refine ⟨_, hlow, hhigh, ?_⟩
  rw [Block.modTide_half, Block.slewed_half, hb1, Block.setTideStat_half, Block.setReg_half]

theorem Block.steered_locked : (b.steered h x t1 t2 t3).locked h = b.locked h := by
  rw [Block.locked_eq, Block.locked_eq]
  simp only [Block.steered, Block.modTide_regFld, Block.slewed_regFld]
  rw [Block.tideStat_other _ _ _ _ _ _ _ (by omega), Block.regFld_eq (Block.reg_setReg_other _ _ _ _ (tideReg_offset_ne h))]

/-- Later exchanges slew; the 32nd good one in a row locks. -/
theorem Block.steer_slewed (hrep : b.domain.reported = true) (hagain : (b.half h).tide.everLocked = true ∨ (b.half h).tide.synced = true)
    (hdepth : (b.port h x).nbrDepth < 15) :
    (b.steer h x t1 t2 t3).tide h = b.tide h ∧ -200000 ≤ ((b.steer h x t1 t2 t3).half h).tide.slew ∧
      ((b.steer h x t1 t2 t3).half h).tide.slew ≤ 200000 ∧
      ((b.steer h x t1 t2 t3).half h).tide.good = b.goodAfter h (b.exchangeTheta h x t1 t2 t3) ∧
      ((b.steer h x t1 t2 t3).locked h = true ↔ b.locked h = true ∨ 32 ≤ b.goodAfter h (b.exchangeTheta h x t1 t2 t3)) := by
  obtain ⟨slew, hlow, hhigh, hhalf⟩ := b.steered_half (h := h) (x := x) (t1 := t1) (t2 := t2) (t3 := t3)
  have hrep' : (b.steered h x t1 t2 t3).domain.reported = true := by rw [Block.steered_domain, hrep]
  rw [Block.steer_slews hagain]
  split
  · next hlocks =>
    rw [Block.tide, Block.lockTide_half h hrep', hhalf]
    exact ⟨rfl, hlow, hhigh, rfl, fun _ => .inr hlocks.1, fun _ => Block.lockTide_locked h hrep'⟩
  · next hnot =>
    rw [Block.tide, hhalf, Block.steered_locked]
    refine ⟨rfl, hlow, hhigh, rfl, .inl, fun hor => hor.elim id fun hgood => ?_⟩
    by_contra hlock
    exact hnot ⟨hgood, hlock, by omega⟩

/-- An exchange changes no link. -/
theorem Block.steer_links (hrep : b.domain.reported = true) : (b.steer h x t1 t2 t3).links h = b.links h := by
  by_cases hfirst : (b.half h).tide.everLocked = false ∧ (b.half h).tide.synced = false
  · simp [Block.steer, hfirst, Block.links]
  · have hagain : (b.half h).tide.everLocked = true ∨ (b.half h).tide.synced = true := by simpa [or_iff_not_imp_left] using hfirst
    have hlinks : (b.steered h x t1 t2 t3).links h = b.links h := by
      obtain ⟨slew, -, -, hhalf⟩ := b.steered_half (h := h) (x := x) (t1 := t1) (t2 := t2) (t3 := t3)
      rw [Block.links, hhalf, Block.links]
    rw [Block.steer_slews hagain]
    split
    · rw [Block.links, Block.lockTide_half h (by rw [Block.steered_domain, hrep]), ← hlinks, Block.links]
    · exact hlinks

/-- Taking a parent keeps the count and the lock. -/
theorem Block.takeParent_half (y : Nat) : (b.takeParent h y).half h = { b.half h with
    tide := { (b.half h).tide with parent := some y, synced := false, holdoverFrom := none } } := by
  simp [Block.takeParent]

theorem Block.takeParent_domain (y : Nat) : (b.takeParent h y).domain = b.domain := by simp [Block.takeParent]

theorem Block.takeParent_locked (y : Nat) : (b.takeParent h y).locked h = b.locked h := by
  simp [Block.locked_eq, Block.takeParent, Block.tideStat_other]

theorem Block.takeParent_tideStat {y : Nat} (hy : y < 16) (hdepth : (b.port h y).nbrDepth < 15) :
    (b.takeParent h y).regFld (tideReg h 8) 62 62 = 0 ∧ (b.takeParent h y).regFld (tideReg h 8) 59 56 = (b.port h y).nbrDepth + 1 ∧
      (b.takeParent h y).regFld (tideReg h 8) 55 52 = y := by
  have hdepth' : (b.port h y).nbrDepth + 1 < 2 ^ (59 + 1 - 56) := by omega
  have hy' : y < 2 ^ (55 + 1 - 52) := by omega
  refine ⟨?_, ?_, ?_⟩
  · simp [Block.takeParent, Block.tideStat_other, Block.tideStat_set]
  · simp only [Block.takeParent]
    rw [Block.tideStat_other _ _ _ _ _ _ _ (by omega), Block.tideStat_set _ _ _ _ _ (by omega) hdepth']
  · simp only [Block.takeParent]
    rw [Block.tideStat_set _ _ _ _ _ (by omega) hy']

/-- Without a parent: PARENT is 15, and a Locked half is in holdover. -/
theorem Block.loseParent_of (b : Block) (h : HalfId) :
    (b.loseParent h).tide h = b.tide h ∧ (b.loseParent h).locked h = b.locked h ∧ ((b.loseParent h).half h).tide.parent = none ∧
      (b.loseParent h).regFld (tideReg h 8) 55 52 = 15 ∧
      (b.locked h = true → (b.loseParent h).regFld (tideReg h 8) 62 62 = 1 ∧ ((b.loseParent h).half h).tide.holdoverFrom.isSome = true) := by
  simp only [Block.loseParent]
  split
  · refine ⟨by simp [Block.tide], by simp [Block.locked_eq, Block.tideStat_other], by simp, ?_, fun _ => ⟨?_, ?_⟩⟩
    · simp [Block.tideStat_other, Block.tideStat_set]
    · simp [Block.tideStat_set]
    · simp only [Block.setTideStat_half, Block.modTide_half]
      split <;> simp_all
  · next hlock => exact ⟨by simp [Block.tide], by simp [Block.locked_eq, Block.tideStat_other], by simp, by simp [Block.tideStat_set],
      fun hl => absurd hl hlock⟩

end

/-! ## The commands (O40) -/

/-- What an ECHO tells of the neighbour is noted at its link. -/
def Block.echoed (b : Block) (h : HalfId) (x : Nat) (locked : Bool) (depth : Nat) : Block :=
  (b.unbufferTime h x 0x02).modPort h x (fun l => { l with nbrLocked := locked, nbrDepth := depth })

theorem Block.unbufferTime_tide (b : Block) (h : HalfId) (x op : Nat) : ((b.unbufferTime h x op).half h).tide = (b.half h).tide :=
  Block.tide_eq_of_clocks (Block.unbufferTime_clocks b h x op) h

section
variable {b : Block} {h : HalfId} {x : Nat} {locked : Bool} {depth : Nat}

@[simp] theorem Block.echoed_ground : (b.echoed h x locked depth).ground = b.ground := by simp [Block.echoed]

theorem Block.echoed_tide : ((b.echoed h x locked depth).half h).tide = (b.half h).tide :=
  Block.tide_eq_of_clocks (by simp [Block.echoed]) h

theorem Block.echoed_port (hx : x < (b.links h).length) :
    (b.echoed h x locked depth).port h x = { b.port h x with nbrLocked := locked, nbrDepth := depth } := by
  rw [Block.echoed, Block.port_modPort_same (by simpa using hx), Block.port_of_links (Block.unbufferTime_links _ _ _ _ _)]

theorem Block.isRoot_of_ground {b c : Block} (e : c.ground = b.ground) (h : HalfId) : c.isRoot h = b.isRoot h := by
  rw [Block.isRoot, Block.isRoot, Block.endpoint_of_ground e, Block.rootEp, Block.rootEp, Block.image_of_ground e, Block.regFld_of_ground e,
    Block.regFld_of_ground e]

theorem Block.locked_of_ground {b c : Block} (e : c.ground = b.ground) (h : HalfId) : c.locked h = b.locked h := by
  rw [Block.locked, Block.reg_of_ground e, Block.locked]

/-- A half without a parent takes the first eligible one. -/
def Block.chooseParent (b : Block) (h : HalfId) : Block :=
  if (b.half h).tide.parent.isNone then (match b.firstParent h with
    | some y => b.takeParent h y
    | none => b)
  else b

theorem exec_echo {s : State} {h : HalfId} {x : Fin 10} {t1 t2 t3 : Nat} {locked : Bool} {depth : Nat}
    (htimed : (s.block.port h x).timed = true) (hroot : s.block.isRoot h = false) :
    exec (.echo h x t1 t2 t3 locked depth) s = .next { s with
      block := let c := (s.block.echoed h x locked depth).chooseParent h
        if (c.half h).tide.parent = some x.val ∧ c.eligible h x.val then c.steer h x.val t1 t2 t3 else c.reportReady } := by
  have htimed' : ((s.block.unbufferTime h x.val 0x02).port h x.val).timed = true := by
    rw [Block.port_of_links (Block.unbufferTime_links _ _ _ _ _), htimed]
  have hroot' : ¬ (s.block.echoed h x locked depth).isRoot h = true := by simp [Block.isRoot_of_ground Block.echoed_ground, hroot]
  simp only [exec, execEcho, State.act]
  rw [if_neg (by simp [htimed'])]
  change Host.Outcome.next { s with block := if (s.block.echoed h x locked depth).isRoot h then _ else _ } = _
  rw [if_neg hroot']
  rfl

theorem Block.chooseParent_of_some {y : Nat} (hy : (b.half h).tide.parent = some y) : b.chooseParent h = b := by
  simp [Block.chooseParent, hy]

theorem Block.chooseParent_links : (b.chooseParent h).links h = b.links h := by
  simp only [Block.chooseParent]
  split
  · split
    · rw [Block.links, Block.takeParent_half, Block.links]
    · rfl
  · rfl

theorem Block.chooseParent_domain : (b.chooseParent h).domain = b.domain := by
  simp only [Block.chooseParent]
  split
  · split
    · exact Block.takeParent_domain _
    · rfl
  · rfl

end

/-- The links after an ECHO, whatever it does to the counter. -/
theorem Block.echo_links {b : Block} {h : HalfId} {x t1 t2 t3 : Nat} (hrep : b.domain.reported = true) :
    (if (b.half h).tide.parent = some x ∧ b.eligible h x then b.steer h x t1 t2 t3 else b.reportReady).links h = b.links h := by
  split
  · exact Block.steer_links hrep
  · rw [Block.reportReady_of_reported hrep]

@[simp] theorem Block.chooseParent_lasting (b : Block) (h : HalfId) : (b.chooseParent h).lasting = b.lasting := by
  simp only [Block.chooseParent]
  (repeat' split) <;> simp

@[simp] theorem Block.echoed_lasting (b : Block) (h : HalfId) (x : Nat) (locked : Bool) (depth : Nat) :
    (b.echoed h x locked depth).lasting = b.lasting := by simp [Block.echoed]

/-- An ECHO, on the parent's link or another's (R327, R328). -/
theorem echo_exchanges {s : State} {h : HalfId} (hs : Shaped s.block) (hrep : s.block.domain.reported = true) {x : Fin 10}
    {t1 t2 t3 depth : Nat} {locked : Bool} {theta delta : Int} (htimed : (s.block.port h x).timed = true) (hroot : s.block.isRoot h = false)
    (htheta : theta = halfOfSum ((t2 : Int) - t1 - ((s.block.tide h : Int) - t3) - (s.block.port h x).asym))
    (hdelta : delta = halfOfSum ((t2 : Int) - t1 + ((s.block.tide h : Int) - t3))) :
    ∃ t, exec (.echo h x t1 t2 t3 locked depth) s = .next t ∧ t.pending = s.pending ∧ t.block.mem = s.block.mem ∧
      (t.block.port h x).nbrLocked = locked ∧ (t.block.port h x).nbrDepth = depth ∧
      ((s.block.half h).tide.parent = some x.val → locked = true → depth < 15 →
        ((s.block.half h).tide.everLocked = false → (s.block.half h).tide.synced = false →
          (s.block.half h).tide.parent = (t.block.half h).tide.parent ∧ (t.block.half h).tide.running = true ∧
            (t.block.half h).tide.synced = true ∧ t.block.tide h = ((t3 : Int) + delta).toNat) ∧
        ((s.block.half h).tide.everLocked = true ∨ (s.block.half h).tide.synced = true →
          t.block.tide h = s.block.tide h ∧ -200000 ≤ (t.block.half h).tide.slew ∧ (t.block.half h).tide.slew ≤ 200000 ∧
            (t.block.half h).tide.good = (if -10 ≤ theta ∧ theta ≤ 10 then (s.block.half h).tide.good + 1 else 0) ∧
            (s.block.locked h = true → t.block.locked h = true) ∧
            (s.block.locked h = false → (t.block.locked h = true ↔ -10 ≤ theta ∧ theta ≤ 10 ∧ 31 ≤ (s.block.half h).tide.good)))) ∧
      (∀ y, (s.block.half h).tide.parent = some y → y ≠ x.val →
        (t.block.half h).tide = (s.block.half h).tide ∧ t.block.regs = s.block.regs) := by
  have hlen : x.val < (s.block.links h).length := by rw [hs.links]; exact x.isLt
  have hdomain : ((s.block.echoed h x locked depth).chooseParent h).domain.reported = true := by
    rw [Block.chooseParent_domain, Block.domain_of_ground Block.echoed_ground, hrep]
  have hport {c : Block} (hc : c.links h = ((s.block.echoed h x locked depth).chooseParent h).links h) :
      c.port h x = { s.block.port h x with nbrLocked := locked, nbrDepth := depth } := by
    rw [Block.port_of_links (hc.trans Block.chooseParent_links), Block.echoed_port hlen]
  refine ⟨_, exec_echo htimed hroot, rfl, Block.mem_eq_of_lasting ?_, ?_, ?_, fun hparent hlocked hdepth => ?_, fun y hy hyx => ?_⟩
  · dsimp only
    split <;> simp
  · rw [hport (Block.echo_links hdomain)]
  · rw [hport (Block.echo_links hdomain)]
  · have hchoose : (s.block.echoed h x locked depth).chooseParent h = s.block.echoed h x locked depth :=
      Block.chooseParent_of_some (by rw [Block.echoed_tide, hparent])
    have hepport := Block.echoed_port (locked := locked) (depth := depth) hlen
    have heligible : (s.block.echoed h x locked depth).eligible h x = true := by
      simp only [Block.eligible, hepport, Bool.and_eq_true, decide_eq_true_eq]
      exact ⟨⟨⟨x.isLt, htimed⟩, hlocked⟩, hdepth⟩
    have htide : ((s.block.echoed h x locked depth).half h).tide = (s.block.half h).tide := Block.echoed_tide
    have htheta' : (s.block.echoed h x locked depth).exchangeTheta h x t1 t2 t3 = theta := by
      rw [Block.exchangeTheta, hepport, Block.tide, htide, htheta, Block.tide]
    have hgood : (s.block.echoed h x locked depth).goodAfter h theta = if -10 ≤ theta ∧ theta ≤ 10 then (s.block.half h).tide.good + 1 else 0 := by
      rw [Block.goodAfter, htide]
    rw [hchoose] at hdomain
    dsimp only
    rw [hchoose, if_pos ⟨by rw [htide, hparent], heligible⟩]
    refine ⟨fun hlock hsync => ?_, fun hagain => ?_⟩
    · rw [Block.tide, Block.steer_sets (by rw [htide, hlock]) (by rw [htide, hsync])]
      refine ⟨by rw [htide], rfl, rfl, ?_⟩
      rw [Block.tide, htide, hdelta, Block.tide]
    · have hslewed := Block.steer_slewed (x := x.val) (t1 := t1) (t2 := t2) (t3 := t3) hdomain (by rwa [htide]) (by rw [hepport]; exact hdepth)
      rw [htheta', hgood, Block.locked_of_ground Block.echoed_ground] at hslewed
      obtain ⟨hnow, hlow, hhigh, hcount, hlocks⟩ := hslewed
      refine ⟨by rw [hnow, Block.tide, htide, Block.tide], hlow, hhigh, hcount, fun hl => hlocks.mpr (.inl hl), fun hl => hlocks.trans ?_⟩
      rw [hl]
      split <;> simp_all
  · have hchoose : (s.block.echoed h x locked depth).chooseParent h = s.block.echoed h x locked depth :=
      Block.chooseParent_of_some (by rw [Block.echoed_tide, hy])
    have hother : ¬ (((s.block.echoed h x locked depth).half h).tide.parent = some x.val ∧ (s.block.echoed h x locked depth).eligible h x.val) := by
      rw [Block.echoed_tide, hy]
      rintro ⟨e, -⟩
      exact hyx (Option.some.inj e)
    rw [hchoose] at hdomain
    dsimp only
    rw [hchoose, if_neg hother, Block.reportReady_of_reported hdomain]
    exact ⟨Block.echoed_tide, Block.regs_of_ground Block.echoed_ground⟩

theorem Block.eligible_of_firstParent {b : Block} {h : HalfId} {y : Nat} (hy : b.firstParent h = some y) : y < 10 ∧ (b.port h y).nbrDepth < 15 := by
  have heligible : b.eligible h y = true := by
    have := List.find?_some hy
    exact this
  simp only [Block.eligible, Bool.and_eq_true, decide_eq_true_eq] at heligible
  exact ⟨heligible.1.1.1, heligible.2⟩

/-- Settles O40: the exchanges' commands one by one, then the parent's and holdover's. -/
theorem tideExchangesAndParents : Obligations.TideExchangesAndParents := by
  unfold Obligations.TideExchangesAndParents
  intro s h hs hrep
  refine ⟨fun hdue => ?_, fun x t1 htimed => ?_, fun x t1 t2 t3 depth locked theta delta htimed hroot htheta hdelta => ?_,
    fun x hparent hroot hnot => ?_, fun n hfrom hlock hdue => ?_⟩
  · have hexec : exec (.tideExchange h) s = .next { s with
        block := (s.block.modTide h (fun t => { t with lastExchange := t.now })).syncLinks h (List.range 10) } := by
      simp [exec, execTideExchange, State.act, hdue]
    have hport (x : Nat) : (s.block.modTide h (fun t => { t with lastExchange := t.now })).port h x = s.block.port h x :=
      Block.port_of_links (Block.modTide_links _ _ _ _) x
    refine ⟨_, hexec, rfl, Block.mem_eq_of_lasting (by simp), Block.regs_of_ground (by simp), ?_, fun x _ hx => ?_, fun x hx htimed hothers => ?_⟩
    · rw [Block.tide_eq_of_clocks (Block.syncLinks_clocks _ h _), Block.modTide_half]
    · rw [Block.syncLinks_port_untimed _ (by rw [hport, hx]), hport]
    · dsimp only
      rw [Block.syncLinks_of_one (List.range 10) List.nodup_range (List.mem_range.mpr hx) (by rw [hport, htimed])
        (fun y hy hyx => by rw [hport, hothers y (List.mem_range.mp hy) hyx]), Block.tide, Block.modTide_half, Block.tide]
  · have htide : (s.block.unbufferTime h x 0x01).tide h = s.block.tide h := by rw [Block.tide, Block.unbufferTime_tide, Block.tide]
    have hexec : exec (.sync h x t1) s = .next { s with
        block := (s.block.unbufferTime h x 0x01).sendTime h x 0x02 (s.block.tide h) (leBytes 8 t1 ++ leBytes 8 (s.block.tide h)) } := by
      simp [exec, execSync, State.act, Block.port_of_links (Block.unbufferTime_links _ _ _ _ _), htimed, htide]
    refine ⟨_, hexec, rfl, Block.mem_eq_of_lasting (by simp), Block.regs_of_ground (by simp), ?_, rfl⟩
    exact Block.tide_eq_of_clocks (by simp) h
  · exact echo_exchanges hs hrep htimed hroot htheta hdelta
  · cases hfirst : s.block.firstParent h with
    | some y =>
      have hexec : exec (.parentSwitch h) s = .next { s with block := s.block.takeParent h y } := by
        simp [exec, execParentSwitch, State.act, hparent, hroot, hnot, hfirst]
      obtain ⟨hy, hdepth⟩ := Block.eligible_of_firstParent hfirst
      refine ⟨_, hexec, rfl, Block.mem_eq_of_lasting (by simp), ?_, Block.takeParent_locked y, fun z hz => ?_, fun hnone => by cases hnone⟩
      · rw [Block.tide, Block.takeParent_half, Block.tide]
      · cases hz
        rw [Block.takeParent_half]
        exact ⟨rfl, rfl, Block.takeParent_tideStat (by omega) hdepth⟩
    | none =>
      have hexec : exec (.parentSwitch h) s = .next { s with block := s.block.loseParent h } := by
        simp [exec, execParentSwitch, State.act, hparent, hroot, hnot, hfirst]
      obtain ⟨htide, hlock, hlost⟩ := s.block.loseParent_of h
      exact ⟨_, hexec, rfl, Block.mem_eq_of_lasting (by simp), htide, hlock, fun y hy => (nomatch hy), fun _ => hlost⟩
  · have hexec : exec (.holdoverExpiry h) s = .next { s with
        block := (s.block.setTideStat h 63 63 0).log { event := 0x0041, half := h, arg0 := s.block.regFld (tideReg h 8) 59 56, arg1 := 1 } } := by
      simp [exec, execHoldoverExpiry, State.act, hfrom, hlock, hdue]
    refine ⟨_, hexec, rfl, Block.mem_eq_of_lasting (by simp), ?_, by simp⟩
    rw [Block.locked_eq, Block.log_regFld, Block.tideStat_set] <;> decide

end Sys2Proof.Machine

/-! PROOFS. Ports, links and the router (spec/12_efing_and_tide.md R308-R324, R336): what a port's training, retry and fence do (O38), and how
groups arrive, packets go on, and what waits too long is discarded (O39). -/

namespace Sys2Proof.Machine

/-! ## Counters -/

/-- A field that is counted up, as far as its top. -/
theorem fld_satAdd (w : Word) (hi lo n : Nat) (h : hi < 64) : fld (satAdd w hi lo n) hi lo = min (fld w hi lo + n) (2 ^ (hi + 1 - lo) - 1) := by
  have hpos := Nat.two_pow_pos (hi + 1 - lo)
  rw [satAdd, fld_setFld_same _ _ _ _ h, Nat.mod_eq_of_lt (by split <;> omega)]
  split <;> omega

theorem Block.regFld_count (b : Block) (a hi lo n : Nat) (h : hi < 64) :
    (b.count a hi lo n).regFld a hi lo = min (b.regFld a hi lo + n) (2 ^ (hi + 1 - lo) - 1) := by
  rw [Block.regFld, Block.count, Block.reg_modReg_same, fld_satAdd _ _ _ _ h, Block.regFld]

theorem Block.regFld_count_other (b : Block) (a hi lo n hi' lo' : Nat) (h : hi' < lo ∨ hi < lo') :
    (b.count a hi lo n).regFld a hi' lo' = b.regFld a hi' lo' := by
  rw [Block.regFld, Block.count, Block.reg_modReg_same, satAdd, fld_setFld_other _ _ _ _ _ _ h, Block.regFld]

theorem Block.regFld_count_elsewhere (b : Block) {a c : Nat} (hc : c ≠ a) (hi lo n hi' lo' : Nat) :
    (b.count a hi lo n).regFld c hi' lo' = b.regFld c hi' lo' := Block.regFld_eq (b.count_reg_other a hi lo n c hc) hi' lo'

/-- A field is below its top. -/
theorem Block.regFld_le (b : Block) (a hi lo : Nat) : b.regFld a hi lo ≤ 2 ^ (hi + 1 - lo) - 1 := by
  have := bits_lt (b.reg a).toNat hi lo
  rw [Block.regFld, fld]
  omega

/-- A count of a port's error register, by nothing too. -/
theorem Block.regFld_countPort (b : Block) (h : HalfId) {x : Nat} (hx : x < 9) (hi lo n : Nat) (hhi : hi < 64) :
    (b.countPort h x hi lo n).regFld (portErr h x) hi lo = min (b.regFld (portErr h x) hi lo + n) (2 ^ (hi + 1 - lo) - 1) := by
  by_cases hn : n = 0
  · subst hn
    rw [Block.countPort, if_neg (by simp), Nat.add_zero, Nat.min_eq_left (b.regFld_le _ _ _)]
  · rw [Block.countPort, if_pos ⟨hx, hn⟩, Block.regFld_count _ _ _ _ _ hhi]

theorem Block.regFld_countPort_other (b : Block) (h : HalfId) (x hi lo n hi' lo' : Nat) (hne : hi' < lo ∨ hi < lo') :
    (b.countPort h x hi lo n).regFld (portErr h x) hi' lo' = b.regFld (portErr h x) hi' lo' := by
  rw [Block.countPort]
  split
  · exact b.regFld_count_other _ _ _ _ _ _ hne
  · rfl

section
variable (b : Block) (h k : HalfId)

@[simp] theorem Block.countPort_half (x hi lo n : Nat) : (b.countPort h x hi lo n).half k = b.half k := by
  simp only [Block.countPort]
  split <;> simp

@[simp] theorem Block.countPort_links (x hi lo n : Nat) : (b.countPort h x hi lo n).links k = b.links k := by simp [Block.links]

@[simp] theorem Block.countPort_domain (x hi lo n : Nat) : (b.countPort h x hi lo n).domain = b.domain := by
  simp only [Block.countPort]
  split <;> simp

@[simp] theorem Block.countPort_out (x hi lo n : Nat) : (b.countPort h x hi lo n).out = b.out := by
  simp only [Block.countPort]
  split <;> simp

/-! ## Routes that change (R322) -/

@[simp] theorem Block.watchPorts_regs : b.watchPorts.regs = b.regs := by simp [Block.watchPorts]
@[simp] theorem Block.watchPorts_domain : b.watchPorts.domain = b.domain := by simp [Block.watchPorts]
@[simp] theorem Block.watchPorts_half : b.watchPorts.half k = b.half k := by simp [Block.watchPorts]
@[simp] theorem Block.watchPorts_links : b.watchPorts.links k = b.links k := by simp [Block.links]
@[simp] theorem Block.watchPorts_out : b.watchPorts.out = b.out := by simp [Block.watchPorts]

theorem Block.holdDest_keep (old : Block) (again : Bool) (d : Nat) :
    (b.holdDest old h again d).ground = b.ground ∧ (b.holdDest old h again d).out = b.out ∧ (b.holdDest old h again d).links k = b.links k := by
  unfold Block.holdDest
  extract_lets moved
  split
  · exact ⟨by simp, by simp, b.modHalf_links h k _ (fun _ => rfl)⟩
  · exact ⟨rfl, rfl, rfl⟩

/-- Beside the destinations held, rerouting leaves the block. -/
theorem Block.holdDests_keep (old : Block) (again : Bool) (l : List Nat) :
    (b.holdDests old h again l).ground = b.ground ∧ (b.holdDests old h again l).out = b.out ∧
      (b.holdDests old h again l).links k = b.links k := by
  induction l generalizing b with
  | nil => exact ⟨rfl, rfl, rfl⟩
  | cons d ds ih =>
    obtain ⟨hground, hout, hlinks⟩ := ih (b.holdDest old h again d)
    obtain ⟨hground', hout', hlinks'⟩ := b.holdDest_keep h k old again d
    exact ⟨hground.trans hground', hout.trans hout', hlinks.trans hlinks'⟩

@[simp] theorem Block.rerouted_ground (old : Block) (again : Bool) : (b.rerouted old h again).ground = b.ground :=
  (b.holdDests_keep h h old again _).1
@[simp] theorem Block.rerouted_out (old : Block) (again : Bool) : (b.rerouted old h again).out = b.out := (b.holdDests_keep h h old again _).2.1
@[simp] theorem Block.rerouted_links (old : Block) (again : Bool) : (b.rerouted old h again).links k = b.links k :=
  (b.holdDests_keep h k old again _).2.2
@[simp] theorem Block.rerouted_regs (old : Block) (again : Bool) : (b.rerouted old h again).regs = b.regs :=
  Block.regs_of_ground (b.rerouted_ground h old again)
@[simp] theorem Block.rerouted_domain (old : Block) (again : Bool) : (b.rerouted old h again).domain = b.domain :=
  Block.domain_of_ground (b.rerouted_ground h old again)

@[simp] theorem Block.modPort_out (x : Nat) (f : Port → Port) : (b.modPort h x f).out = b.out := by simp [Block.modPort]
@[simp] theorem Block.modPort_regs (x : Nat) (f : Port → Port) : (b.modPort h x f).regs = b.regs := by simp [Block.modPort]
@[simp] theorem Block.modPort_domain (x : Nat) (f : Port → Port) : (b.modPort h x f).domain = b.domain := by simp [Block.modPort]
@[simp] theorem Block.control_regs (x kind cls n lstate : Nat) : (b.control h x kind cls n lstate).regs = b.regs := by simp [Block.control]
@[simp] theorem Block.control_domain (x kind cls n lstate : Nat) : (b.control h x kind cls n lstate).domain = b.domain := by simp [Block.control]
@[simp] theorem Block.control_half (x kind cls n lstate : Nat) : (b.control h x kind cls n lstate).half k = b.half k := by simp [Block.control]
@[simp] theorem Block.log_links (e : Event) : (b.log e).links k = b.links k := by simp [Block.links]

@[simp] theorem Block.startDisabled_links (key kind index : Nat) (failed : Bool) : (b.startDisabled h key kind index failed).links k = b.links k := by
  simp only [Block.startDisabled]
  split
  · exact b.modHalf_links h k _ (fun _ => rfl)
  · rw [Block.log_links]
    exact b.modHalf_links h k _ (fun _ => rfl)

@[simp] theorem Block.startDisabled_domain (key kind index : Nat) (failed : Bool) : (b.startDisabled h key kind index failed).domain = b.domain := by
  simp only [Block.startDisabled]
  split <;> simp

@[simp] theorem Block.startDisabled_regs (key kind index : Nat) (failed : Bool) : (b.startDisabled h key kind index failed).regs = b.regs := by
  simp only [Block.startDisabled]
  split <;> simp

end

/-! ## A port leaves Up, is fenced, or rises (R313, R323, R324) -/

section
variable (b : Block) {h : HalfId} {x : Nat}

@[simp] theorem Block.dropLink_domain (st cause : Nat) (retraining : Bool) : (b.dropLink h x st cause retraining).domain = b.domain := by
  simp [Block.dropLink]

@[simp] theorem Block.dropLink_out (st cause : Nat) (retraining : Bool) : (b.dropLink h x st cause retraining).out = b.out := by
  simp [Block.dropLink]

@[simp] theorem Block.dropLink_links_length (k : HalfId) (st cause : Nat) (retraining : Bool) :
    ((b.dropLink h x st cause retraining).links k).length = (b.links k).length := by
  simp [Block.dropLink]

/-- What is queued is counted (R313). -/
theorem Block.dropLink_regFld (st cause : Nat) (retraining : Bool) (a hi lo : Nat) :
    (b.dropLink h x st cause retraining).regFld a hi lo = (b.countPort h x 15 4 (b.port h x).queue.length).regFld a hi lo := by
  have hregs : (b.dropLink h x st cause retraining).regs = (b.countPort h x 15 4 (b.port h x).queue.length).regs := by
    simp only [Block.dropLink, Block.watchPorts_regs, Block.rerouted_regs, Block.countPort]
    split
    · simp [Block.count, Block.modReg, Block.setReg, Block.reg]
    · simp
  exact Block.regFld_eq (Block.reg_eq hregs a) hi lo

theorem Block.dropLink_port_other (k : HalfId) {y : Nat} (hy : k ≠ h ∨ y ≠ x) (st cause : Nat) (retraining : Bool) :
    (b.dropLink h x st cause retraining).port k y = b.port k y := by
  have hmod (f : Port → Port) : (b.modPort h x f).port k y = b.port k y := by
    rw [Block.port_modPort, if_neg]
    rintro ⟨hk, hyx, -⟩
    exact hy.elim (fun e => e hk) (fun e => e hyx)
  rw [Block.dropLink, Block.port_of_links (Block.watchPorts_links _ _), Block.port_of_links (Block.rerouted_links _ _ _ _ _),
    Block.port_of_links (Block.countPort_links _ _ _ _ _ _ _), hmod]

theorem Block.dropLink_port (hx : x < (b.links h).length) (st cause : Nat) (retraining : Bool) :
    (b.dropLink h x st cause retraining).port h x =
      { b.port h x with st := st, cause := cause, retraining := retraining, trained := false, queue := [], replay := [] } := by
  rw [Block.dropLink, Block.port_of_links (Block.watchPorts_links _ _), Block.port_of_links (Block.rerouted_links _ _ _ _ _),
    Block.port_of_links (Block.countPort_links _ _ _ _ _ _ _), Block.port_modPort_same hx]

@[simp] theorem Block.fencePort_domain (cause : Nat) : (b.fencePort h x cause).domain = b.domain := by
  simp [Block.fencePort]

@[simp] theorem Block.fencePort_links_length (k : HalfId) (cause : Nat) : ((b.fencePort h x cause).links k).length = (b.links k).length := by
  simp [Block.fencePort]

theorem Block.fencePort_port_other (k : HalfId) {y : Nat} (hy : k ≠ h ∨ y ≠ x) (cause : Nat) : (b.fencePort h x cause).port k y = b.port k y := by
  have hmod (c : Block) (f : Port → Port) : (c.modPort h x f).port k y = c.port k y := by
    rw [Block.port_modPort, if_neg]
    rintro ⟨hk, hyx, -⟩
    exact hy.elim (fun e => e hk) (fun e => e hyx)
  rw [Block.fencePort, Block.port_of_links (Block.log_links _ _ _), Block.port_of_links (Block.control_links _ _ _ _ _ _ _ _), hmod,
    Block.port_of_links (Block.startDisabled_links _ _ _ _ _ _ _), Block.dropLink_port_other _ k hy]

/-- A fenced port is Disabled, with its cause. -/
theorem Block.fencePort_port (hx : x < (b.links h).length) (cause : Nat) : (b.fencePort h x cause).port h x =
    { b.port h x with st := 5, cause := cause, retraining := false, trained := false, queue := [], replay := [], attempted := true } := by
  rw [Block.fencePort, Block.port_of_links (Block.log_links _ _ _), Block.port_of_links (Block.control_links _ _ _ _ _ _ _ _),
    Block.port_modPort_same (by simpa using hx), Block.port_of_links (Block.startDisabled_links _ _ _ _ _ _ _), Block.dropLink_port _ hx]

@[simp] theorem Block.riseLink_domain (again : Bool) : (b.riseLink h x again).domain = b.domain := by simp [Block.riseLink]

theorem Block.riseLink_regs (again : Bool) : (b.riseLink h x again).regs = b.regs := by simp [Block.riseLink]

/-- A port that rises starts with fresh credits and sequence numbers. -/
theorem Block.riseLink_port (hx : x < (b.links h).length) (again : Bool) : (b.riseLink h x again).port h x =
    { b.port h x with st := 2, cause := 0, trained := false, retraining := false, sendSeq := 0, recvSeq := 0, replay := [],
                      credits := b.linkCredits h } := by
  rw [Block.riseLink, Block.port_of_links (Block.watchPorts_links _ _), Block.port_of_links (Block.rerouted_links _ _ _ _ _),
    Block.port_modPort_same hx]

theorem Block.linkCredits_of_regs {b c : Block} (e : c.regs = b.regs) (h : HalfId) : c.linkCredits h = b.linkCredits h := by
  simp only [Block.linkCredits, Block.regFld, Block.reg_eq e]

end

/-! ## Control words and packets that leave again (R310, R312) -/

section
variable (seq ack kind cr0c cr0n cr1c cr1n lstate : Nat)

theorem controlWord_lstate : fld (controlWord seq ack kind cr0c cr0n cr1c cr1n lstate) 11 8 = lstate % 16 := by
  rw [controlWord, fld_ofNat _ _ _ (by omega), bits, Nat.shiftRight_eq_div_pow]
  omega

theorem controlWord_kind : fld (controlWord seq ack kind cr0c cr0n cr1c cr1n lstate) 39 38 = kind % 4 := by
  rw [controlWord, fld_ofNat _ _ _ (by omega), bits, Nat.shiftRight_eq_div_pow]
  omega

theorem controlWord_ack : fld (controlWord seq ack kind cr0c cr0n cr1c cr1n lstate) 51 40 = ack % 4096 := by
  rw [controlWord, fld_ofNat _ _ _ (by omega), bits, Nat.shiftRight_eq_div_pow]
  omega

end

/-- What a control word that a link sends asks and acknowledges. -/
theorem Block.control_word (b : Block) (h : HalfId) (x kind cls n lstate : Nat) :
    ∃ w, (b.control h x kind cls n lstate).out = b.out ++ [.control h x w] ∧ fld w 11 8 = lstate % 16 ∧ fld w 39 38 = kind % 4 ∧
      fld w 51 40 = ((b.port h x).recvSeq + 4095) % 4096 :=
  ⟨_, rfl, controlWord_lstate _ _ _ _ _ _ _ _, controlWord_kind _ _ _ _ _ _ _ _, controlWord_ack _ _ _ _ _ _ _ _⟩

theorem Block.emitAll_keep (b : Block) (h : HalfId) (x : Nat) (l : List Packet) :
    (b.emitAll h x l).ground = b.ground ∧ (b.emitAll h x l).out = b.out ++ l.map (fun p => Out.packet h x p) ∧
      ∀ k, (b.emitAll h x l).half k = b.half k := by
  induction l generalizing b with
  | nil => exact ⟨rfl, (List.append_nil _).symm, fun _ => rfl⟩
  | cons p ps ih =>
    obtain ⟨hground, hout, hhalf⟩ := ih (b.emit (.packet h x p))
    exact ⟨hground, by rw [Block.emitAll, hout]; simp, fun k => by rw [Block.emitAll, hhalf, Block.emit_half]⟩

/-! ## Training and identity (R308, R323) -/

/-- A packet made for a neighbour leaves by its port. -/
theorem Block.sendIdentity_keeps (b : Block) (h : HalfId) (x : Nat) :
    (b.sendIdentity h x).ground = b.ground ∧ (b.sendIdentity h x).port h x = b.port h x ∧
      ∃ p : Packet, (b.sendIdentity h x).out = b.out ++ [.packet h x p] ∧ p.payload = b.identityOf h x := by
  refine ⟨by simp [Block.sendIdentity], Block.port_of_links (by simp [Block.sendIdentity]) x,
    (b.makePacket h (2 * entryModule (b.entry b.moduleNo (modulePort h x)) + entryPort (b.entry b.moduleNo (modulePort h x)) / 9) 0 5 0x01 0 0 0
      (b.identityOf h x)).1, ?_, rfl⟩
  simp [Block.sendIdentity, Block.makePacket]

theorem Block.identityOf_of_ground {b c : Block} (e : c.ground = b.ground) (h : HalfId) (x : Nat) : c.identityOf h x = b.identityOf h x := by
  rw [Block.identityOf, Block.identityOf, Block.moduleNo, Block.moduleNo, Block.regFld_of_ground e, Block.image_of_ground e, Block.reg_of_ground e]

/-- A port of a block with ten links. -/
theorem Shaped.lt_links {b : Block} (hs : Shaped b) (h : HalfId) (x : Fin 9) : x.val < (b.links h).length := by
  rw [hs.links]
  omega

section
variable {s : State} {h : HalfId} {x : Fin 9}

/-- Training that passes sends the identity. -/
theorem portTrainingDone_passes {lanes : List (Fin 5)} {asym : Int} (hs : Shaped s.block) (hst : (s.block.port h x).st = 1)
    (hre : (s.block.port h x).retraining = false) (htr : (s.block.port h x).trained = false) (hlanes : 4 ≤ (lanesOf lanes).length) :
    ∃ t p, exec (.portTrainingDone h x lanes asym) s = .next t ∧ t.pending = s.pending ∧ t.block.mem = s.block.mem ∧
      t.block.regs = s.block.regs ∧ t.block.port h x = { (s.block.port h x).withLanes lanes asym with trained := true } ∧
      t.block.out = s.block.out ++ [.packet h x p] ∧ p.payload = s.block.identityOf h x := by
  set b1 := s.block.modPort h x (fun l => { l.withLanes lanes asym with trained := true }) with hb1
  have hexec : exec (.portTrainingDone h x lanes asym) s = .next { s with block := b1.sendIdentity h x } := by
    simp [exec, execPortTrainingDone, State.act, hst, hre, htr, Nat.not_lt.mpr hlanes, hb1]
  obtain ⟨hground, hport, p, hout, hpayload⟩ := b1.sendIdentity_keeps h x
  have hground1 : b1.ground = s.block.ground := by simp [hb1]
  refine ⟨_, p, hexec, rfl, Block.mem_of_ground (hground.trans hground1), Block.regs_of_ground (hground.trans hground1), ?_, ?_, ?_⟩
  · dsimp only
    rw [hport, hb1, Block.port_modPort_same (hs.lt_links h x)]
  · dsimp only
    rw [hout, hb1, Block.modPort_out]
  · rw [hpayload, Block.identityOf_of_ground hground1]

/-- A fenced port, and a ready report that is out already. -/
theorem Block.fencePort_reportReady {b : Block} (hrep : b.domain.reported = true) (h : HalfId) (x cause : Nat) :
    (b.fencePort h x cause).reportReady = b.fencePort h x cause := Block.reportReady_of_reported (by simp [hrep])

/-- Training that fails fences the port. -/
theorem portTrainingDone_fails {lanes : List (Fin 5)} {asym : Int} (hs : Shaped s.block) (hrep : s.block.domain.reported = true)
    (hst : (s.block.port h x).st = 1) (hre : (s.block.port h x).retraining = false) (htr : (s.block.port h x).trained = false)
    (hlanes : (lanesOf lanes).length < 4) :
    ∃ t, exec (.portTrainingDone h x lanes asym) s = .next t ∧ t.pending = s.pending ∧ t.block.mem = s.block.mem ∧
      (t.block.port h x).st = 5 ∧ (t.block.port h x).cause = 1 ∧ (t.block.port h x).queue = [] := by
  have hexec : exec (.portTrainingDone h x lanes asym) s = .next { s with block := s.block.fencePort h x 1 } := by
    simp [exec, execPortTrainingDone, State.act, hst, hre, htr, hlanes, Block.fencePort_reportReady hrep]
  refine ⟨_, hexec, rfl, Block.mem_eq_of_lasting (by simp), ?_⟩
  dsimp only
  rw [Block.fencePort_port _ (hs.lt_links h x)]
  exact ⟨rfl, rfl, rfl⟩

/-- A far end that never started is retried until the census is complete. -/
theorem trainRetry_marks (hs : Shaped s.block) (hrep : s.block.domain.reported = true) (hst : (s.block.port h x).st = 1)
    (hre : (s.block.port h x).retraining = false) (htr : (s.block.port h x).trained = false) :
    ∃ t, exec (.trainRetry h x) s = .next t ∧ t.pending = s.pending ∧ t.block.mem = s.block.mem ∧ t.block.regs = s.block.regs ∧
      t.block.out = s.block.out ∧ (t.block.port h x).attempted = true ∧
      (t.block.port h x).st = if 2 ≤ (s.block.half h).efing.census then 0 else 1 := by
  have hexec : exec (.trainRetry h x) s = .next { s with
      block := s.block.modPort h x (fun l => { l with attempted := true, st := if 2 ≤ (s.block.half h).efing.census then 0 else 1 }) } := by
    simp [exec, execTrainRetry, State.act, hst, hre, htr, Block.reportReady_of_reported, hrep]
  refine ⟨_, hexec, rfl, Block.mem_of_ground (by simp), by simp, by simp, ?_⟩
  dsimp only
  rw [Block.port_modPort_same (hs.lt_links h x)]
  exact ⟨rfl, rfl⟩

/-- An identity packet's neighbour is noted; the hash and the table tell whether the port rises (R323). -/
theorem identity_judges (hs : Shaped s.block) (hrep : s.block.domain.reported = true) {p : Packet} {m half far hash : Nat}
    (hst : (s.block.port h x).st = 1) (htr : (s.block.port h x).trained = true) (hform : malformed p = false) (hcls : pkClass p = 5)
    (hop : pkOp p = 1) (hhops : pkHops p = 0) (hcrc : packetCrc p = pkCrc p) (hm : m = leNat (p.payload.take 2))
    (hhalf : half = leNat ((p.payload.drop 2).take 1)) (hfar : far = leNat ((p.payload.drop 3).take 1))
    (hhash : hash = leNat ((p.payload.drop 24).take 8)) :
    ∃ t, exec (.identity h x p) s = .next t ∧ t.pending = s.pending ∧ t.block.mem = s.block.mem ∧
      (t.block.port h x).nbrEndpoint = 2 * m + half % 2 ∧ (t.block.port h x).nbrPort = far ∧
      (hash = (s.block.reg (cfgReg 8)).toNat → entryModule (s.block.entry s.block.moduleNo (modulePort h x)) = m →
        entryPort (s.block.entry s.block.moduleNo (modulePort h x)) = far → half = far / 9 →
        (t.block.port h x).st = 2 ∧ (t.block.port h x).credits = s.block.linkCredits h ∧ (t.block.port h x).sendSeq = 0 ∧
          (t.block.port h x).recvSeq = 0) ∧
      (hash ≠ (s.block.reg (cfgReg 8)).toNat → (t.block.port h x).st = 5 ∧ (t.block.port h x).cause = 3) ∧
      (hash = (s.block.reg (cfgReg 8)).toNat → (entryModule (s.block.entry s.block.moduleNo (modulePort h x)) ≠ m ∨
        entryPort (s.block.entry s.block.moduleNo (modulePort h x)) ≠ far ∨ half ≠ far / 9) →
        (t.block.port h x).st = 5 ∧ (t.block.port h x).cause = 4) := by
  set e := s.block.entry s.block.moduleNo (modulePort h x)
  set b1 := s.block.modPort h x (fun l => { l with nbrEndpoint := 2 * m + half % 2, nbrPort := far }) with hb1
  have hlen : x.val < (b1.links h).length := by simpa [hb1] using hs.lt_links h x
  have hrep1 : b1.domain.reported = true := by simp [hb1, hrep]
  have hport1 : b1.port h x = { s.block.port h x with nbrEndpoint := 2 * m + half % 2, nbrPort := far } :=
    Block.port_modPort_same (hs.lt_links h x) _
  have hlasting : b1.lasting = s.block.lasting := by simp [hb1]
  have hexec : exec (.identity h x p) s = .next { s with
      block := (if hash ≠ (s.block.reg (cfgReg 8)).toNat then (b1.fencePort h x 3).reportReady
        else if entryModule e ≠ m ∨ entryPort e ≠ far ∨ half ≠ far / 9 then (b1.fencePort h x 4).reportReady
        else (b1.riseLink h x false).reportReady) } := by
    simp only [exec, execIdentity, State.act]
    rw [if_neg (by simp [hst, htr]), if_neg (by simp [hform, hcls, hop, hhops]), if_neg (by simp [hcrc])]
    subst hm hhalf hfar hhash
    rfl
  by_cases hequal : hash = (s.block.reg (cfgReg 8)).toNat
  · by_cases hnbr : entryModule e ≠ m ∨ entryPort e ≠ far ∨ half ≠ far / 9
    · rw [if_neg (not_not.mpr hequal), if_pos hnbr, Block.fencePort_reportReady hrep1] at hexec
      refine ⟨_, hexec, rfl, Block.mem_eq_of_lasting (by simp [hlasting]), ?_⟩
      dsimp only
      rw [Block.fencePort_port _ hlen, hport1]
      exact ⟨rfl, rfl, fun _ h1 h2 h3 => absurd hnbr (by simp [h1, h2, h3]), fun hne => absurd hequal hne, fun _ _ => ⟨rfl, rfl⟩⟩
    · rw [if_neg (not_not.mpr hequal), if_neg hnbr, Block.reportReady_of_reported (by simp [hrep1])] at hexec
      refine ⟨_, hexec, rfl, Block.mem_eq_of_lasting (by simp [hlasting]), ?_⟩
      dsimp only
      rw [Block.riseLink_port _ hlen, hport1, Block.linkCredits_of_regs (by simp [hb1] : b1.regs = s.block.regs)]
      exact ⟨rfl, rfl, fun _ _ _ _ => ⟨rfl, rfl, rfl, rfl⟩, fun hne => absurd hequal hne, fun _ hn => absurd hn hnbr⟩
  · rw [if_pos hequal, Block.fencePort_reportReady hrep1] at hexec
    refine ⟨_, hexec, rfl, Block.mem_eq_of_lasting (by simp [hlasting]), ?_⟩
    dsimp only
    rw [Block.fencePort_port _ hlen, hport1]
    exact ⟨rfl, rfl, fun he => absurd he hequal, fun _ => ⟨rfl, rfl⟩, fun he => absurd he hequal⟩

/-! ## Retry and retraining (R312, R313) -/

/-- A replay sends every group held again, in order. -/
theorem Block.replayLink_keeps (b : Block) {h : HalfId} {y : Nat} (hy : y < (b.links h).length) :
    (b.replayLink h y).ground = b.ground ∧
      ((b.replayLink h y).port h y).replay = (b.port h y).replay.map (fun g => { g with tide := b.tide h, replays := g.replays + 1 }) ∧
      (b.replayLink h y).out = b.out ++ (((b.port h y).replay.map (fun g => g.packets)).flatten).map (fun p => Out.packet h y p) := by
  unfold Block.replayLink
  extract_lets gs
  obtain ⟨hground, hout, hhalf⟩ := Block.emitAll_keep (b.modPort h y
    (fun l => { l with replay := gs.map (fun g => { g with tide := b.tide h, replays := g.replays + 1 }) })) h y (gs.map (fun g => g.packets)).flatten
  refine ⟨hground.trans (by simp), ?_, by rw [hout, Block.modPort_out]⟩
  rw [Block.port_of_links (Block.links_of_half (hhalf h)), Block.port_modPort_same hy]

/-- A port that retrains is out of Up; what was queued and the retrain are counted, and the far end is asked. -/
theorem Block.retrain_of_up (b : Block) {h : HalfId} {x : Nat} (hx : x < 9) (hlen : x < (b.links h).length)
    (hst : (b.port h x).st = 2 ∨ (b.port h x).st = 3) :
    ((b.retrain h x).port h x).st = 1 ∧ ((b.retrain h x).port h x).retraining = true ∧ ((b.retrain h x).port h x).replay = [] ∧
      ((b.retrain h x).port h x).queue = [] ∧
      (b.retrain h x).regFld (portErr h x) 15 4 = min (b.regFld (portErr h x) 15 4 + (b.port h x).queue.length) 4095 ∧
      (b.retrain h x).regFld (portErr h x) 3 0 = min (b.regFld (portErr h x) 3 0 + 1) 15 ∧
      ∃ w, (b.retrain h x).out = b.out ++ [.control h x w] ∧ fld w 11 8 = 1 := by
  have hregFld (hi lo : Nat) (c : Block) : (c.control h x 0 0 0 1).regFld (portErr h x) hi lo = c.regFld (portErr h x) hi lo :=
    Block.regFld_eq (Block.reg_eq (Block.control_regs _ _ _ _ _ _ _) _) hi lo
  rw [Block.retrain, if_pos ⟨hx, hst⟩, Block.port_of_links (Block.control_links _ _ _ _ _ _ _ _), Block.port_of_links (Block.countPort_links _ _ _ _ _ _ _),
    Block.dropLink_port _ hlen]
  obtain ⟨w, hout, hasks, -, -⟩ := ((b.dropLink h x 1 0 true).countPort h x 3 0 1).control_word h x 0 0 0 1
  rw [Block.countPort_out, Block.dropLink_out] at hout
  refine ⟨rfl, rfl, rfl, rfl, ?_, ?_, w, hout, hasks⟩
  · rw [hregFld, Block.regFld_countPort_other _ _ _ _ _ _ _ _ (by omega), Block.dropLink_regFld, Block.regFld_countPort _ _ hx _ _ _ (by omega)]
    rfl
  · rw [hregFld, Block.regFld_countPort _ _ hx _ _ _ (by omega), Block.dropLink_regFld, Block.regFld_countPort_other _ _ _ _ _ _ _ _ (by omega)]
    rfl

/-- A retrained port is Up again, or fenced. -/
theorem portRetrainDone_ends {lanes : List (Fin 5)} {asym : Int} (hs : Shaped s.block) (hst : (s.block.port h x).st = 1)
    (hre : (s.block.port h x).retraining = true) :
    ∃ t, exec (.portRetrainDone h x lanes asym) s = .next t ∧ t.pending = s.pending ∧ t.block.mem = s.block.mem ∧
      (4 ≤ (lanesOf lanes).length → (t.block.port h x).st = 2 ∧ (t.block.port h x).replay = [] ∧
        (t.block.port h x).credits = s.block.linkCredits h ∧ (t.block.port h x).spareUsed = (lanesOf lanes).contains 4 ∧
        t.block.regs = s.block.regs) ∧
      ((lanesOf lanes).length < 4 → (t.block.port h x).st = 5 ∧ (t.block.port h x).cause = 2) := by
  by_cases hlanes : (lanesOf lanes).length < 4
  · have hexec : exec (.portRetrainDone h x lanes asym) s = .next { s with block := s.block.fencePort h x 2 } := by
      simp [exec, execPortRetrainDone, State.act, hst, hre, hlanes]
    refine ⟨_, hexec, rfl, Block.mem_eq_of_lasting (by simp), fun hfour => absurd hlanes (by omega), fun _ => ?_⟩
    dsimp only
    rw [Block.fencePort_port _ (hs.lt_links h x)]
    exact ⟨rfl, rfl⟩
  · set b1 := s.block.modPort h x (fun l => l.withLanes lanes asym) with hb1
    have hexec : exec (.portRetrainDone h x lanes asym) s = .next { s with block := b1.riseLink h x true } := by
      simp [exec, execPortRetrainDone, State.act, hst, hre, hlanes, hb1]
    have hregs : b1.regs = s.block.regs := by simp [hb1]
    refine ⟨_, hexec, rfl, Block.mem_eq_of_lasting (by simp [hb1]), fun _ => ?_, fun hfew => absurd hfew hlanes⟩
    dsimp only
    rw [Block.riseLink_port _ (by simpa [hb1] using hs.lt_links h x), Block.linkCredits_of_regs hregs, hb1,
      Block.port_modPort_same (hs.lt_links h x), Block.riseLink_regs]
    exact ⟨rfl, rfl, rfl, rfl, hregs⟩

end

/-- Settles O38: one lemma for each command of a port. -/
theorem portCommands : Obligations.PortCommands := by
  unfold Obligations.PortCommands
  intro s h x hs hrep
  refine ⟨fun lanes asym => portTrainingDone_passes hs, fun lanes asym => portTrainingDone_fails hs hrep, trainRetry_marks hs hrep,
    fun p m half far hash => identity_judges hs hrep, fun y g gs hreplay hdue => ?_, fun i lane hst hi => ?_,
    fun lanes asym => portRetrainDone_ends hs⟩
  · have hexec : exec (.ackTimeout h y) s = .next { s with block := s.block.replayLink h y } := by
      simp [exec, execAckTimeout, State.act, hreplay, hdue]
    obtain ⟨hground, hport, hout⟩ := s.block.replayLink_keeps (h := h) (y := y) (by rw [hs.links]; exact y.isLt)
    rw [hreplay] at hport hout
    exact ⟨_, hexec, rfl, Block.mem_of_ground hground, Block.regs_of_ground hground, hport, hout⟩
  · have hexec : exec i s = .next { s with block := s.block.retrain h x } := by
      obtain rfl | ⟨rfl, g, hg, hlimit⟩ := hi
      · rfl
      · have hany : (s.block.port h x).replay.any (fun g => decide (s.block.regFld (efReg h 8) 39 32 ≤ g.replays)) = true :=
          List.any_eq_true.mpr ⟨g, hg, by simpa using hlimit⟩
        simp only [exec, execNakLimit, State.act, hany, if_true]
    exact ⟨_, hexec, rfl, Block.mem_eq_of_lasting (by simp), s.block.retrain_of_up x.isLt (hs.lt_links h x) hst⟩

/-! ## Receive buffers (R312, R314) -/

/-- What a half's links have received: the packets in their buffers, and each link's SEQ awaited next. -/
def Block.reception (b : Block) (h : HalfId) : List Arrived × List Nat := ((b.half h).efing.arrived, (b.links h).map (fun l => l.recvSeq))

theorem Block.recvSeq_eq (b : Block) (h : HalfId) (x : Nat) : (b.port h x).recvSeq = (b.reception h).2.getD x 0 := by
  rw [Block.reception, Block.port, ← Block.links]
  simp only [List.getD_eq_getElem?_getD, List.getElem?_map]
  cases (b.links h)[x]? <;> rfl

section
variable (b : Block) (h : HalfId)

theorem Block.reception_of_half {b c : Block} {h : HalfId} (e : c.half h = b.half h) : c.reception h = b.reception h := by
  rw [Block.reception, e, Block.links_of_half e, Block.reception]

@[simp] theorem Block.emit_reception (o : Out) : (b.emit o).reception h = b.reception h := Block.reception_of_half (by simp)
@[simp] theorem Block.control_reception (x kind cls n lstate : Nat) : (b.control h x kind cls n lstate).reception h = b.reception h :=
  Block.reception_of_half (by simp)
@[simp] theorem Block.countPort_reception (x hi lo n : Nat) : (b.countPort h x hi lo n).reception h = b.reception h :=
  Block.reception_of_half (by simp)
@[simp] theorem Block.watchPorts_reception : b.watchPorts.reception h = b.reception h := Block.reception_of_half (by simp)
@[simp] theorem Block.emitAll_reception (x : Nat) (l : List Packet) : (b.emitAll h x l).reception h = b.reception h :=
  Block.reception_of_half ((b.emitAll_keep h x l).2.2 h)

/-- A link changed, but not the SEQ it awaits. -/
@[simp] theorem Block.modPort_reception (x : Nat) (f : Port → Port) (hf : ∀ l, (f l).recvSeq = l.recvSeq) :
    (b.modPort h x f).reception h = b.reception h := by
  simp [Block.reception, Block.links, Block.modPort, listMod_map (fun l : Port => l.recvSeq) f hf]

theorem Block.holdDests_reception (old : Block) (again : Bool) (l : List Nat) : (b.holdDests old h again l).reception h = b.reception h := by
  induction l generalizing b with
  | nil => rfl
  | cons d ds ih =>
    rw [Block.holdDests, ih]
    unfold Block.holdDest
    extract_lets moved
    split
    · simp [Block.reception, Block.links]
    · rfl

@[simp] theorem Block.rerouted_reception (old : Block) (again : Bool) : (b.rerouted old h again).reception h = b.reception h :=
  b.holdDests_reception h old again _

@[simp] theorem Block.dropLink_reception (x st cause : Nat) (retraining : Bool) : (b.dropLink h x st cause retraining).reception h = b.reception h := by
  simp [Block.dropLink]

@[simp] theorem Block.retrain_reception (x : Nat) : (b.retrain h x).reception h = b.reception h := by
  simp only [Block.retrain]
  split <;> simp

@[simp] theorem Block.linkSend_reception (x : Nat) (p : Packet) : (b.linkSend h x p).reception h = b.reception h := by
  simp only [Block.linkSend]
  split <;> simp

@[simp] theorem Block.drainLink_reception (x n : Nat) : (b.drainLink h x n).reception h = b.reception h := by
  induction n generalizing b with
  | zero => rfl
  | succ n ih =>
    rw [Block.drainLink]
    split
    · rfl
    · split
      · rw [ih]
        simp
      · rfl

@[simp] theorem Block.takeCredits_reception (x cls n : Nat) : (b.takeCredits h x cls n).reception h = b.reception h := by
  simp only [Block.takeCredits]
  split <;> simp

@[simp] theorem Block.takeAck_reception (x kind ack : Nat) : (b.takeAck h x kind ack).reception h = b.reception h := by
  simp only [Block.takeAck, Block.replayLink]
  (repeat' split) <;> simp

@[simp] theorem Block.takeLstate_reception (x ls : Nat) : (b.takeLstate h x ls).reception h = b.reception h := by
  simp only [Block.takeLstate]
  (repeat' split) <;> simp

/-- A control word takes no packet. -/
@[simp] theorem Block.takeControl_reception (x : Nat) (w : Word) : (b.takeControl h x w).reception h = b.reception h := by
  simp only [Block.takeControl]
  split <;> simp

/-- A group's packets enter the receive buffer in order. -/
theorem Block.arrive_reception (x : Nat) (l : List Packet) (hl : ∀ p ∈ l, hasRow p = true) :
    (b.arrive h x l).reception h = ((b.reception h).1 ++ l.map (fun p => { exit := x, tide := b.tide h, packet := p }), (b.reception h).2) := by
  induction l generalizing b with
  | nil => simp [Block.arrive]
  | cons p ps ih =>
    rw [Block.arrive]
    dsimp only
    rw [if_pos (by simp [hl p List.mem_cons_self]), ih _ (fun q hq => hl q (List.mem_cons_of_mem _ hq))]
    simp [Block.reception, Block.tide, Block.links]

end

/-! ## Groups (R312) -/

/-- A group that comes in order is delivered whole. -/
theorem linkGroup_delivers {s : State} {h : HalfId} {x : Fin 10} {g : LinkGroup} (hs : Shaped s.block) (hlow : 2 ≤ (s.block.port h x).st)
    (hhigh : (s.block.port h x).st ≤ 4) (hgood : g.correctable = true) (hsome : g.packets ≠ []) (hrows : ∀ p ∈ g.packets, hasRow p = true)
    (hseq : fld g.control 63 52 = (s.block.port h x).recvSeq) :
    ∃ t, exec (.linkGroup h x g) s = .next t ∧ t.pending = s.pending ∧ t.block.mem = s.block.mem ∧
      (t.block.port h x).recvSeq = ((s.block.port h x).recvSeq + 1) % 4096 ∧
      (t.block.half h).efing.arrived = (s.block.half h).efing.arrived ++
        g.packets.map (fun p => { exit := x, tide := s.block.tide h, packet := p }) := by
  set b := s.block.countPort h x.val 63 32 g.corrected with hb
  set b1 := (b.modPort h x.val (fun l => { l with recvSeq := (l.recvSeq + 1) % 4096 })).control h x.val 1 0 0 0 with hb1
  have hexec : exec (.linkGroup h x g) s = .next { s with block := (b1.arrive h x.val g.packets).takeControl h x.val g.control } := by
    simp only [exec, execLinkGroup, State.act]
    rw [if_neg (by omega), if_neg (by simp [hgood]), if_neg hsome, if_neg (not_not.mpr hseq)]
  have hbhalf : b.half h = s.block.half h := by simp [hb]
  have hlen : x.val < (b.links h).length := by
    rw [Block.links_of_half hbhalf, hs.links]
    exact x.isLt
  have hb1half : (b1.half h).efing.arrived = (s.block.half h).efing.arrived ∧ b1.tide h = s.block.tide h := by
    simp [hb1, Block.tide, Block.modPort, hbhalf]
  have hb1seq : (b1.port h x).recvSeq = ((s.block.port h x).recvSeq + 1) % 4096 := by
    rw [hb1, Block.port_of_links (Block.control_links _ _ _ _ _ _ _ _), Block.port_modPort_same hlen,
      Block.port_of_links (Block.links_of_half hbhalf)]
  have hreception := b1.arrive_reception h x g.packets hrows
  rw [← Block.takeControl_reception _ h x.val g.control] at hreception
  refine ⟨_, hexec, rfl, Block.mem_eq_of_lasting (by simp [hb1, hb]), ?_, ?_⟩
  · rw [Block.recvSeq_eq, hreception, ← hb1seq, Block.recvSeq_eq]
  · have harrived := congrArg Prod.fst hreception
    simp only [Block.reception] at harrived
    rw [harrived, hb1half.1, hb1half.2]

/-- A group that cannot be corrected delivers nothing, is counted and answered with a NAK. -/
theorem linkGroup_naks {s : State} {h : HalfId} {x : Fin 9} {g : LinkGroup} (hlow : 2 ≤ (s.block.port h x).st)
    (hhigh : (s.block.port h x).st ≤ 4) (hbad : g.correctable = false) :
    ∃ t w, exec (.linkGroup h ⟨x.val, Nat.lt_succ_of_lt x.isLt⟩ g) s = .next t ∧ t.pending = s.pending ∧ t.block.mem = s.block.mem ∧
      t.block.half h = s.block.half h ∧
      t.block.regFld (portErr h x) 31 16 = min (s.block.regFld (portErr h x) 31 16 + 1) 65535 ∧
      t.block.out = s.block.out ++ [.control h x w] ∧ fld w 39 38 = 2 ∧
      fld w 51 40 = ((s.block.port h x).recvSeq + 4095) % 4096 := by
  set b := (s.block.countPort h x.val 63 32 g.corrected).countPort h x.val 31 16 1 with hb
  have hexec : exec (.linkGroup h ⟨x.val, Nat.lt_succ_of_lt x.isLt⟩ g) s = .next { s with block := b.control h x.val 2 0 0 0 } := by
    simp only [exec, execLinkGroup, State.act]
    rw [if_neg (by omega), if_pos (by simp [hbad])]
  obtain ⟨w, hout, -, hkind, hack⟩ := b.control_word h x 2 0 0 0
  refine ⟨_, w, hexec, rfl, Block.mem_eq_of_lasting (by simp [hb]), by simp [hb], ?_, ?_, hkind, ?_⟩
  · dsimp only
    rw [Block.regFld_eq (Block.reg_eq (Block.control_regs _ _ _ _ _ _ _) _), hb, Block.regFld_countPort _ _ x.isLt _ _ _ (by omega),
      Block.regFld_countPort_other _ _ _ _ _ _ _ _ (by omega)]
    rfl
  · rw [hout, hb, Block.countPort_out, Block.countPort_out]
  · rw [hack, hb, Block.port_of_links (Block.countPort_links _ _ _ _ _ _ _), Block.port_of_links (Block.countPort_links _ _ _ _ _ _ _)]

/-! ## The router (R316, R320-R322, R336) -/

theorem packetCrc_lt (p : Packet) : packetCrc p < 2 ^ 32 := BitVec.isLt _

/-- A field set twice. -/
theorem setFld_setFld (w : Word) (hi lo u v : Nat) : setFld (setFld w hi lo u) hi lo v = setFld w hi lo v := by
  refine BitVec.eq_of_getLsbD_eq fun i hi' => ?_
  simp only [getLsbD_setFld]
  split <;> simp_all

/-- The CRC is over a header whose CRC field is 0 (R316). -/
theorem packetCrc_of_crc (p : Packet) (v : Nat) : packetCrc { p with w3 := setFld p.w3 31 0 v } = packetCrc p := by
  simp only [packetCrc, setFld_setFld]

theorem pkHops_hopOn {p : Packet} (hhops : pkHops p < 7) : pkHops (hopOn p) = pkHops p + 1 := by
  have hset : pkHops (hopOn p) = (pkHops p + 1) % 2 ^ (31 + 1 - 29) := fld_setFld_same _ _ _ _ (by decide)
  rw [hset]
  omega

/-- The CRC that follows the change of HOPS holds where the packet's did. -/
theorem packetCrc_hopOn {p : Packet} (hcrc : packetCrc p = pkCrc p) : packetCrc (hopOn p) = pkCrc (hopOn p) := by
  set q : Packet := { p with w1 := setFld p.w1 31 29 (pkHops p + 1) } with hq
  have hhop : hopOn p = { q with w3 := setFld q.w3 31 0 (pkCrc p ^^^ packetCrc p ^^^ packetCrc q) } := rfl
  have hpk : pkCrc (hopOn p) = (pkCrc p ^^^ packetCrc p ^^^ packetCrc q) % 2 ^ (31 + 1 - 0) := fld_setFld_same _ _ _ _ (by decide)
  rw [hpk, hcrc, Nat.xor_self, Nat.zero_xor, Nat.mod_eq_of_lt (packetCrc_lt q), hhop, packetCrc_of_crc]

theorem Block.unbuffer_census (b : Block) (h : HalfId) (p : Packet) : ((b.unbuffer h p).half h).efing.census = (b.half h).efing.census := by
  simp only [Block.unbuffer]
  split <;> simp

/-- A packet for another endpoint: forwarded, or counted (R320, R336). -/
theorem packetForward_routes {s : State} {h : HalfId} {p : Packet} (hdest : pkDest p ≠ s.block.endpoint h) :
    ∃ t, exec (.packetForward h p) s = .next t ∧ t.pending = s.pending ∧ t.block.mem = s.block.mem ∧
      (malformed p = false → pkHops p < 7 → pkClass p ≠ 4 →
        (pkClass p < 4 → (s.block.half h).efing.census = 2 ∧ pkSrc p / 8 ∈ s.block.domain.roster) →
        t.block = (s.block.unbuffer h p).routeOut h (hopOn p) ∧ pkHops (hopOn p) = pkHops p + 1 ∧
          (packetCrc p = pkCrc p → packetCrc (hopOn p) = pkCrc (hopOn p))) ∧
      (malformed p = false → pkHops p < 7 → pkClass p < 4 →
        ¬ ((s.block.half h).efing.census = 2 ∧ pkSrc p / 8 ∈ s.block.domain.roster) →
        t.block.regFld (efReg h 0x20) 31 0 = min (s.block.regFld (efReg h 0x20) 31 0 + 1) (2 ^ 32 - 1)) ∧
      (pkHops p = 7 → t.block.regFld (efReg h 0x18) 63 48 = min (s.block.regFld (efReg h 0x18) 63 48 + 1) 65535) := by
  set b := s.block.unbuffer h p with hb
  have hground : b.ground = s.block.ground := Block.unbuffer_ground _ _ _
  have hmember : ((b.half h).efing.census = 2 ∧ b.domain.roster.contains (pkSrc p / 8) = true) ↔
      ((s.block.half h).efing.census = 2 ∧ pkSrc p / 8 ∈ s.block.domain.roster) := by
    rw [hb, Block.unbuffer_census, Block.domain_of_ground hground, List.contains_iff_mem]
  have hexec : exec (.packetForward h p) s = .next { s with
      block := (if malformed p ∨ pkHops p = 7 ∨ pkClass p = 4 then b.count (efReg h 0x18) 63 48 1
        else if pkClass p < 4 ∧ ¬ ((b.half h).efing.census = 2 ∧ b.domain.roster.contains (pkSrc p / 8)) then b.count (efReg h 0x20) 31 0 1
        else b.routeOut h (hopOn p)) } := by
    simp only [exec, execPacketForward, State.act, if_neg hdest, hb]
  refine ⟨_, hexec, rfl, Block.mem_eq_of_lasting ?_, fun hform hhops hcls hroster => ?_, fun hform hhops hcls hstranger => ?_, fun hhops => ?_⟩
  · dsimp only
    (repeat' split) <;> simp [hb]
  · dsimp only
    rw [if_neg (by simp [hform]; omega), if_neg]
    · exact ⟨rfl, pkHops_hopOn hhops, packetCrc_hopOn⟩
    · rintro ⟨hlow, hnot⟩
      exact hnot (hmember.mpr (hroster hlow))
  · dsimp only
    rw [if_neg (by simp [hform]; omega), if_pos ⟨hcls, fun hin => hstranger (hmember.mp hin)⟩, Block.regFld_count _ _ _ _ _ (by omega),
      Block.regFld_of_ground hground]
  · dsimp only
    rw [if_pos (.inr (.inl hhops)), Block.regFld_count _ _ _ _ _ (by omega), Block.regFld_of_ground hground]
    rfl

theorem Block.foldl_unbuffer_keeps (h : HalfId) (l : List Arrived) (b : Block) :
    (l.foldl (fun y a => y.unbuffer h a.packet) b).ground = b.ground ∧ (l.foldl (fun y a => y.unbuffer h a.packet) b).links h = b.links h := by
  induction l generalizing b with
  | nil => exact ⟨rfl, rfl⟩
  | cons a l ih =>
    obtain ⟨hground, hlinks⟩ := ih (b.unbuffer h a.packet)
    exact ⟨hground.trans (b.unbuffer_ground h _), hlinks.trans (b.unbuffer_links h h _)⟩

/-- What has waited too long is discarded and counted (R320). -/
theorem hopTimeout_discards {s : State} {h : HalfId} {x : Fin 10} (hs : Shaped s.block) :
    ∃ t, exec (.hopTimeout h x) s = .next t ∧ t.pending = s.pending ∧ t.block.mem = s.block.mem ∧
      (t.block.port h x).queue = (s.block.port h x).queue.filter
        (fun p => decide (s.block.tide h ≤ p.1 + s.block.regFld (efReg h 0x10) 29 0)) ∧
      t.block.regFld (efReg h 0x18) 31 16 = min (s.block.regFld (efReg h 0x18) 31 16 +
        ((s.block.port h x).queue.filter (fun p => decide (p.1 + s.block.regFld (efReg h 0x10) 29 0 < s.block.tide h))).length +
        ((s.block.half h).efing.arrived.filter
          (fun a => a.exit = x.val && decide (a.tide + s.block.regFld (efReg h 0x10) 29 0 < s.block.tide h))).length) 65535 := by
  refine ⟨_, rfl, rfl, Block.mem_eq_of_lasting (by simp), ?_, ?_⟩
  · have hlen : x.val < (s.block.links h).length := by rw [hs.links]; exact x.isLt
    dsimp only
    rw [Block.port_of_links (Block.links_of_half (Block.count_half _ _ _ _ _ h)),
      Block.port_of_links (Block.foldl_unbuffer_keeps h _ _).2, Block.port_modPort_same hlen]
    refine List.filter_congr fun p _ => ?_
    rw [← decide_not, decide_eq_decide]
    omega
  · dsimp only
    rw [Block.regFld_count _ _ _ _ _ (by omega), Block.regFld_of_ground (Block.foldl_unbuffer_keeps h _ _).1,
      Block.regFld_of_ground (Block.modPort_ground _ _ _ _), Nat.add_assoc]
    rfl

/-- Settles O39: groups, the router, and what waits. -/
theorem linkAndRouterCommands : Obligations.LinkAndRouterCommands := by
  unfold Obligations.LinkAndRouterCommands
  refine ⟨fun s h x g => linkGroup_delivers, fun s h x g => linkGroup_naks, fun s h p => packetForward_routes, fun s h x => hopTimeout_discards,
    fun s h d q hheld hdue => ?_⟩
  have hexec : exec (.routeHoldExpiry h d) s = .next { s with
      block := (s.block.modHalf h (fun x => { x with efing := { x.efing with holds := tabDel x.efing.holds d } })).routeAll h q.packets } := by
    simp [exec, execRouteHoldExpiry, State.act, hheld, hdue]
  exact ⟨_, hexec, rfl, Block.mem_eq_of_lasting (by simp), rfl⟩

end Sys2Proof.Machine

/-! PROOFS. Slack (spec/15_host_link_start_and_slack.md R415-R419; R247, R337, R441): what entering it, being in it and waking do (O45); before it,
what a packet that is sent leaves of its block. -/

namespace Sys2Proof.Machine

/-! ## What a packet that is sent leaves

A half that has no exit for a packet counts it; so sending leaves the ground, but for that count. -/

/-- A block's ground without its registers. -/
def Block.base (b : Block) : Block := { b.ground with regs := [] }

section
variable {b c : Block}

theorem Block.base_of_ground (e : c.ground = b.ground) : c.base = b.base := by rw [Block.base, e, Block.base]
theorem Block.domain_of_base (e : c.base = b.base) : c.domain = b.domain := (congrArg Block.domain e :)
theorem Block.sys_of_base (e : c.base = b.base) : c.sys = b.sys := (congrArg Block.sys e :)
theorem Block.flash_of_base (e : c.base = b.base) : c.flash = b.flash := (congrArg Block.flash e :)
theorem Block.slots_of_base (e : c.base = b.base) : c.slots = b.slots := (congrArg Block.slots e :)
theorem Block.image_of_base (e : c.base = b.base) : c.image = b.image := (congrArg Block.image e :)

end

section
variable (b : Block) (h : HalfId)

@[simp] theorem Block.modHalf_base (f : Half → Half) : (b.modHalf h f).base = b.base := Block.base_of_ground (b.modHalf_ground h f)
@[simp] theorem Block.emit_base (o : Out) : (b.emit o).base = b.base := rfl
@[simp] theorem Block.setReg_base (a : Nat) (v : Word) : (b.setReg a v).base = b.base := rfl
@[simp] theorem Block.count_base (a hi lo n : Nat) : (b.count a hi lo n).base = b.base := b.setReg_base _ _
@[simp] theorem Block.setRegFld_base (a hi lo v : Nat) : (b.setRegFld a hi lo v).base = b.base := b.setReg_base _ _
@[simp] theorem Block.modTiers_base (f : Tiers → Tiers) : (b.modTiers h f).base = b.base := by simp [Block.modTiers]
@[simp] theorem Block.linkSend_base (x : Nat) (p : Packet) : (b.linkSend h x p).base = b.base := Block.base_of_ground (b.linkSend_ground h x p)
@[simp] theorem Block.unbuffer_base (p : Packet) : (b.unbuffer h p).base = b.base := Block.base_of_ground (b.unbuffer_ground h p)

@[simp] theorem Block.routeOut_base (p : Packet) : (b.routeOut h p).base = b.base := by
  simp only [Block.routeOut, Block.sendBy]
  (repeat' split) <;> simp

@[simp] theorem Block.send_base (dest job cls op tag w2 block : Nat) (payload : List Byte) :
    (b.send h dest job cls op tag w2 block payload).base = b.base := by
  rw [Block.send, Block.routeOut_base]
  exact Block.base_of_ground (b.makePacket_ground h _ _ _ _ _ _ _ _)

@[simp] theorem Block.manage_base (dest op : Nat) (payload : List Byte) : (b.manage h dest op payload).base = b.base := by simp [Block.manage]

@[simp] theorem Block.tellLeader_base (op : Nat) (payload : List Byte) : (b.tellLeader h op payload).base = b.base := by
  simp only [Block.tellLeader]
  split <;> simp

@[simp] theorem Block.sendAll_base (op w2 : Nat) (payload : List Byte) (l : List Nat) : (b.sendAll h op w2 payload l).base = b.base := by
  induction l generalizing b with
  | nil => rfl
  | cons e es ih =>
    rw [Block.sendAll, ih]
    split <;> simp

@[simp] theorem Block.manageTo_base (op : Nat) (l : List (Nat × List Byte)) : (b.manageTo h op l).base = b.base := by
  induction l generalizing b with
  | nil => rfl
  | cons p ps ih => rw [Block.manageTo, ih, Block.manage_base]

@[simp] theorem Block.manageAll_base (dest op : Nat) (l : List (List Byte)) : (b.manageAll h dest op l).base = b.base := by
  induction l generalizing b with
  | nil => rfl
  | cons p ps ih => rw [Block.manageAll, ih, Block.manage_base]

@[simp] theorem Block.revoke_base : (b.revoke h).base = b.base := by
  simp only [Block.revoke]
  split <;> simp

end

/-! ## Entering Slack (R415, R416) -/

section
variable (y : Answer) (p : Path)

theorem Answer.leave_sys : (y.leave p).sys = y.block.sys := by cases p <;> simp [Answer.leave, Answer.sent]

end

/-- A revocation in one half leaves the other half's window. -/
theorem Block.revoke_window_other (b : Block) {h k : HalfId} (hk : k ≠ h) : (b.revoke h).window k = b.window k := by
  rw [Block.revoke]
  split
  · rw [Block.window_eq_of_farView (Block.tellLeader_keeps _ h _ _).1, Block.window_eq_of_farView (Block.sendAll_keeps _ h _ _ _ _).1, Block.window,
      Block.tiers_modTiers, if_neg hk, Block.window]
  · rfl

theorem Block.window_of_half {b c : Block} {h : HalfId} (e : c.half h = b.half h) : c.window h = b.window h := by
  rw [Block.window, Block.tiers, e, Block.window, Block.tiers]

/-- Slack entry as it starts: the Tide is noted, and an advertised window is being revoked. -/
theorem Block.startSlack_does (b : Block) : b.startSlack.sys.slack = 1 ∧ b.startSlack.sys.slackTide = b.tide .a ∧
    ∀ h, (b.window h).st = 1 → (b.startSlack.window h).st = 2 ∧ (b.startSlack.window h).tEnd = b.tide h + 10000000 := by
  set b1 := b.setSys { b.sys with slack := 1, slackTide := b.tide .a, slackRefused := false, idleFrom := none } with hb1
  have hstart : b.startSlack = (b1.revoke .a).revoke .b := rfl
  have hsys : b.startSlack.sys = b1.sys := by rw [hstart]; exact Block.sys_of_base (by simp)
  have hwindow (h : HalfId) : b1.window h = b.window h := Block.window_of_half (b.setSys_half _ h)
  have htide (h : HalfId) : b1.tide h = b.tide h := by rw [Block.tide, hb1, Block.setSys_half, Block.tide]
  refine ⟨by rw [hsys]; rfl, by rw [hsys]; rfl, fun h hst => ?_⟩
  rw [hstart]
  cases h with
  | a =>
    rw [Block.revoke_window_other _ (by decide), (b1.revoke_keeps .a).1, hwindow, if_pos hst, htide]
    exact ⟨rfl, rfl⟩
  | b =>
    have hother : (b1.revoke .a).window .b = b1.window .b := b1.revoke_window_other (by decide)
    have htideb : (b1.revoke .a).tide .b = b1.tide .b := congrArg TideClock.now (Block.tide_eq_of_clocks (b1.revoke_clocks .a) .b)
    rw [((b1.revoke .a).revoke_keeps .b).1, hother, hwindow, if_pos hst, htideb, htide]
    exact ⟨rfl, rfl⟩

/-- An entry that is asked for is made even where the audit area is full (R442): of a block that differs in its flash and log alone. -/
theorem Block.audited_enter (b : Block) (a : Actor) (old : Nat) (f : Block → Block) : ∃ w : Block,
    b.auditedAnswer a { kind := 0x04, old := old, new := 1 } f = (f w).accept ∧ (∀ h, w.half h = b.half h) ∧ w.mem = b.mem ∧
      (b.flash.audit.length < 64512 → w.flash.audit.length = b.flash.audit.length + 1) := by
  by_cases hroom : b.flash.audit.length < 64512
  · exact ⟨_, Block.auditedAnswer_of_room hroom _ _ _, fun h => by simp [Block.appendAudit], rfl, fun _ => by simp⟩
  · refine ⟨b.log { event := 0x0061, kind := 9, arg0 := 0x12 }, ?_, fun h => by simp, by simp, fun h => absurd h hroom⟩
    simp [Block.auditedAnswer, Block.audited, Flash.auditAnswer, hroom, Block.accept, Change.command]

/-- A request to enter Slack (R415). -/
theorem slackEnter_answers {s : State} {p : Path} {a : Actor} {x : Block} (harr : Arrives s.block p [1, 2] a x) :
    ∃ t, exec (.slackEnter p) s = .next t ∧ t.pending = s.pending ∧ t.block.mem = s.block.mem ∧
      (s.block.slackRefuses = false → t.block.sys.slack = 1 ∧ t.block.sys.slackTide = s.block.tide .a ∧ Answers t.block p stOk ∧
        (∀ h, (s.block.window h).st = 1 → (t.block.window h).st = 2 ∧ (t.block.window h).tEnd = s.block.tide h + 10000000) ∧
        (s.block.flash.audit.length < 64512 → t.block.flash.audit.length = s.block.flash.audit.length + 1)) ∧
      (s.block.slackRefuses = true → t.block.sys = { s.block.sys with slackRefused := true } ∧ t.block.flash.audit = s.block.flash.audit ∧
        Answers t.block p stPermission) := by
  have hexec : exec (.slackEnter p) s = .next { s with block := (x.enterSlack a).leave p } :=
    next_of_act (show exec (.slackEnter p) s = execSlackEnter p s from rfl) (Block.byPath_of_arrives harr 1 _)
  obtain ⟨z, rfl⟩ := harr.eq_setZilsy
  have hrefuses : (s.block.setZilsy z).slackRefuses = s.block.slackRefuses := rfl
  cases hr : s.block.slackRefuses with
  | true =>
    have henter : (s.block.setZilsy z).enterSlack a = _ := if_pos (hrefuses.trans hr)
    refine ⟨_, hexec, rfl, ?_, fun hno => absurd hno (by decide), fun _ => ⟨?_, ?_, Answer.answers_leave _ p (by rw [henter]; rfl)⟩⟩
    · rw [Answer.leave_mem, henter]
      exact Block.mem_eq_of_lasting (by simp)
    · rw [Answer.leave_sys, henter]
      simp [Block.refuse]
    · rw [Answer.leave_flash, henter]
      exact Block.audit_eq_of_lasting (by simp)
  | false =>
    obtain ⟨w, hmade, hhalf, hmem, haudit⟩ := (s.block.setZilsy z).audited_enter a s.block.sys.slack Block.startSlack
    have henter : (s.block.setZilsy z).enterSlack a = w.startSlack.accept := by
      rw [← hmade]
      exact if_neg (by simp [hrefuses, hr])
    have hsame (h : HalfId) : w.half h = s.block.half h := (hhalf h).trans (s.block.setZilsy_half z h)
    have htide (h : HalfId) : w.tide h = s.block.tide h := by rw [Block.tide, hsame, Block.tide]
    obtain ⟨hslack, hnoted, hwindow⟩ := w.startSlack_does
    refine ⟨_, hexec, rfl, ?_, fun _ => ⟨?_, ?_, Answer.answers_leave _ p (by rw [henter]; rfl), fun h hst => ?_, fun hroom => ?_⟩,
      fun hyes => absurd hyes (by decide)⟩
    · rw [Answer.leave_mem, henter, Block.accept_block, Block.mem_eq_of_lasting w.startSlack_lasting, hmem, Block.setZilsy_mem]
    · rw [Answer.leave_sys, henter, Block.accept_block, hslack]
    · rw [Answer.leave_sys, henter, Block.accept_block, hnoted, htide]
    · rw [Block.window_eq_of_farView (Answer.leave_farView _ p), henter, Block.accept_block, ← htide h]
      exact hwindow h (by rw [Block.window_of_half (hsame h), hst])
    · rw [Answer.leave_flash, henter, Block.accept_block, Block.audit_eq_of_lasting w.startSlack_lasting, haudit hroom]
      rfl

/-! ## Ports, tests and events -/

/-- The event's bit of PCI_EVENT. -/
theorem Block.moduleEvent_bit (b : Block) {i : Nat} (hi : i < 64) : bit ((b.moduleEvent i).reg (pciReg 0x28)).toNat i = true := by
  have hraise (c : Block) (v : Nat) : (c.raise v).reg (pciReg 0x28) = c.reg (pciReg 0x28) := by
    simp only [Block.raise]
    split
    · exact Block.reg_modReg_other _ _ _ _ (by simp only [pciReg]; omega)
    · simp
  rw [Block.moduleEvent, hraise, Block.reg_modReg_same, bit_eq, BitVec.testBit_toNat, BitVec.getLsbD_or, BitVec.getLsbD_ofNat]
  simp [hi]

/-- Links that take a state one after another. -/
theorem Block.foldl_setState_st (h k : HalfId) (y ls i : Nat) (l : List Nat) (b : Block) (hl : ∀ j ∈ l, j < (b.links h).length) :
    ((l.foldl (fun z i => (z.modPort h i (fun l => { l with st := y })).control h i 0 0 0 ls) b).port k i).st =
      if k = h ∧ i ∈ l then y else (b.port k i).st := by
  induction l generalizing b with
  | nil => simp
  | cons j js ih =>
    have hj := hl j List.mem_cons_self
    rw [List.foldl_cons, ih _ (fun m hm => by simpa using hl m (List.mem_cons_of_mem _ hm)),
      Block.port_of_links (Block.control_links _ _ _ _ _ _ _ _), Block.port_modPort]
    by_cases hk : k = h <;> by_cases hij : i = j <;> simp [hk, hij, hj]

theorem Block.portsFromTo_st (b : Block) {h : HalfId} (hlen : (b.links h).length = 10) (k : HalfId) (x y : Nat) {i : Nat} (hi : i < 9) :
    ((b.portsFromTo h x y).port k i).st = if k = h ∧ (b.port h i).st = x then y else (b.port k i).st := by
  unfold Block.portsFromTo
  extract_lets hit
  have hmem : i ∈ hit ↔ (b.port h i).st = x := by simp [hit, hi]
  have hall : ∀ j ∈ hit, j < (b.links h).length := fun j hj => by
    have := List.mem_range.mp (List.mem_of_mem_filter hj)
    omega
  rw [Block.port_of_links (Block.rerouted_links _ _ _ _ _), Block.foldl_setState_st _ _ _ _ _ _ _ hall]
  simp only [hmem]

theorem Block.portsFromTo_keeps (b : Block) (h : HalfId) (x y : Nat) : (b.portsFromTo h x y).ground = b.ground ∧
    ∀ k, ((b.portsFromTo h x y).links k).length = (b.links k).length := by
  unfold Block.portsFromTo
  extract_lets hit
  have hfold (l : List Nat) (c : Block) (ls : Nat) :
      (l.foldl (fun z i => (z.modPort h i (fun l => { l with st := y })).control h i 0 0 0 ls) c).ground = c.ground ∧
        ∀ k, ((l.foldl (fun z i => (z.modPort h i (fun l => { l with st := y })).control h i 0 0 0 ls) c).links k).length = (c.links k).length := by
    induction l generalizing c with
    | nil => exact ⟨rfl, fun _ => rfl⟩
    | cons j js ih =>
      obtain ⟨hground, hlinks⟩ := ih ((c.modPort h j (fun l => { l with st := y })).control h j 0 0 0 ls)
      exact ⟨hground.trans (by simp), fun k => (hlinks k).trans (by simp)⟩
  exact ⟨(Block.rerouted_ground _ _ _ _).trans (hfold hit b _).1, fun k => by rw [Block.rerouted_links]; exact (hfold hit b _).2 k⟩

/-- The states of both halves' ports after a change of both. -/
theorem Block.portsBoth_st {b : Block} (hlen : ∀ h, (b.links h).length = 10) (x y : Nat) (h : HalfId) {i : Nat} (hi : i < 9) :
    (((b.portsFromTo .a x y).portsFromTo .b x y).port h i).st = if (b.port h i).st = x then y else (b.port h i).st := by
  have hlen1 : ((b.portsFromTo .a x y).links .b).length = 10 := ((b.portsFromTo_keeps .a x y).2 .b).trans (hlen .b)
  have hb (k : HalfId) := b.portsFromTo_st (hlen .a) k x y hi
  rw [Block.portsFromTo_st _ hlen1 h x y hi]
  cases h
  · simpa using hb .a
  · simp [hb .b]

/-- A block but for its registers, its memory and the values drawn: what tests that stop leave. -/
def Block.offTest (b : Block) : Block := { b with regs := [], mem := [], bad := [], freeCounter := 0 }

section
variable (b : Block) (h : HalfId)

theorem Block.freshList_offTest (n : Nat) : (b.freshList n).2.offTest = b.offTest := by
  induction n generalizing b with
  | zero => rfl
  | succ n ih => exact (ih b.fresh.2).trans rfl

theorem Block.setReg_offTest (a : Nat) (v : Word) : (b.setReg a v).offTest = b.offTest := rfl

theorem Block.stopLine_offTest (ch first i : Nat) : (b.stopLine h ch first i).offTest = b.offTest := (b.freshList_offTest 64 :)

/-- Steps that leave what tests leave, in order. -/
theorem Block.offTest_foldl {α : Type} (f : Block → α → Block) (hf : ∀ c i, (f c i).offTest = c.offTest) (l : List α) :
    (l.foldl f b).offTest = b.offTest := by
  induction l generalizing b with
  | nil => rfl
  | cons i l ih => exact (ih (f b i)).trans (hf b i)

theorem Block.stopTest_offTest (ch : Nat) : (b.stopTest h ch).offTest = b.offTest := by
  rw [Block.stopTest]
  split
  · rfl
  · extract_lets r x y z done b0 b1
    have hb0 : b0.offTest = b.offTest := z.2.setReg_offTest _ _
    have hb1 : b1.offTest = b.offTest := by
      simp only [b1]
      split
      · exact hb0
      · exact (b0.setReg_offTest _ _).trans hb0
    split
    · exact hb1
    · exact (b1.offTest_foldl _ (fun c i => c.stopLine_offTest h ch r.1 i) _).trans hb1

theorem Block.stopTests_offTest : (b.stopTests h).offTest = b.offTest := b.offTest_foldl _ (fun c ch => c.stopTest_offTest h ch) _

/-- Where no test runs, none is stopped. -/
theorem Block.stopTests_idle (hidle : ∀ ch, ch < 160 → b.regFld (chanReg h ch 0x18) 63 62 ≠ 1) : b.stopTests h = b :=
  List.foldlRecOn (motive := fun c => c = b) _ _ rfl (fun _ hc ch hch => by
    rw [hc]
    exact Block.stopTest_idle (hidle ch (List.mem_range.mp hch)))

end

theorem Block.sys_of_offTest {b c : Block} (e : c.offTest = b.offTest) : c.sys = b.sys := (congrArg Block.sys e :)
theorem Block.half_of_offTest {b c : Block} (e : c.offTest = b.offTest) (h : HalfId) : c.half h = b.half h :=
  Block.half_eq (congrArg Block.halfA e :) (congrArg Block.halfB e :) h

/-! ## In Slack and out of it (R416, R417) -/

/-- Both halves' ports, changed. -/
theorem Block.portsBoth_sys (b : Block) (x y : Nat) : ((b.portsFromTo .a x y).portsFromTo .b x y).sys = b.sys :=
  Block.sys_of_ground (((b.portsFromTo .a x y).portsFromTo_keeps .b x y).1.trans (b.portsFromTo_keeps .a x y).1)

theorem Block.portsBoth_mem (b : Block) (x y : Nat) : ((b.portsFromTo .a x y).portsFromTo .b x y).mem = b.mem :=
  Block.mem_of_ground (((b.portsFromTo .a x y).portsFromTo_keeps .b x y).1.trans (b.portsFromTo_keeps .a x y).1)

theorem Block.startSlack_flash (b : Block) : b.startSlack.flash = b.flash := by
  rw [Block.startSlack, Block.flash_of_base (Block.revoke_base _ _), Block.flash_of_base (Block.revoke_base _ _), Block.setSys_flash]

/-- The idle timer starts the entry. -/
theorem slackIdleTimer_enters {s : State} {n : Nat} (hfrom : s.block.sys.idleFrom = some n) (hms : s.block.image.slackIdleMs ≠ 0)
    (hidle : s.block.idle = true) (hdue : n + s.block.image.slackIdleMs * 1000000 ≤ s.block.tide .a) :
    ∃ t, exec .slackIdleTimer s = .next t ∧ t.pending = s.pending ∧ t.block.mem = s.block.mem ∧ t.block.sys.slack = 1 ∧
      t.block.sys.slackTide = s.block.tide .a ∧ t.block.flash = s.block.flash := by
  have hexec : exec .slackIdleTimer s = .next { s with block := s.block.startSlack } := by
    simp only [exec, execSlackIdleTimer, State.act, hfrom]
    rw [if_pos ⟨hms, hidle, hdue⟩]
  obtain ⟨hslack, hnoted, -⟩ := s.block.startSlack_does
  exact ⟨_, hexec, rfl, Block.mem_eq_of_lasting s.block.startSlack_lasting, hslack, hnoted, s.block.startSlack_flash⟩

/-- What an entry whose ports are in Slack comes to: Slack, its event, and the wake that was met on the way in (R416, R419). -/
def Block.asleep (b : Block) : Block :=
  let b2 := (b.setSys { b.sys with slack := 2 }).moduleEvent 3
  if b2.sys.wakePending then b2.startWake else b2

theorem Block.asleep_sys (b : Block) : b.asleep.sys.slack = (if b.sys.wakePending then 3 else 2) ∧ b.asleep.sys.wakePending = false := by
  simp only [Block.asleep, Block.moduleEvent_sys, Block.setSys_sys]
  cases hw : b.sys.wakePending with
  | true => exact ⟨rfl, rfl⟩
  | false => simp

theorem Block.asleep_keeps (b : Block) : b.asleep.mem = b.mem ∧ (∀ h, b.asleep.half h = b.half h) ∧
    bit (b.asleep.reg (pciReg 0x28)).toNat 3 = true := by
  have hbit := (b.setSys { b.sys with slack := 2 }).moduleEvent_bit (i := 3) (by decide)
  simp only [Block.asleep]
  split <;> simpa [Block.startWake] using hbit

/-- The entry is done (R416). -/
theorem slackEntryDone_sleeps {s : State} (hs : Shaped s.block) (hslack : s.block.sys.slack = 1) (hwindow : ∀ h, (s.block.window h).st ≠ 2)
    (hquiet : ∀ h, s.block.homeQuiet h = true) :
    ∃ t, exec .slackEntryDone s = .next t ∧ t.pending = s.pending ∧
      t.block.sys.slack = (if s.block.sys.wakePending then 3 else 2) ∧ t.block.sys.wakePending = false ∧
      (∀ h x, x < 9 → (t.block.port h x).st = if (s.block.port h x).st = 2 then 3 else (s.block.port h x).st) ∧
      bit (t.block.reg (pciReg 0x28)).toNat 3 = true ∧
      ((∀ h ch, ch < 160 → s.block.regFld (chanReg h ch 0x18) 63 62 ≠ 1) → t.block.mem = s.block.mem) := by
  obtain ⟨b0, hb0⟩ : ∃ b0, b0 = (s.block.stopTests .a).stopTests .b := ⟨_, rfl⟩
  obtain ⟨b1, hb1⟩ : ∃ b1, b1 = (b0.portsFromTo .a 2 3).portsFromTo .b 2 3 := ⟨_, rfl⟩
  have hexec : exec .slackEntryDone s = .next { s with block := b1.asleep } := by
    rw [hb1, hb0]
    exact next_of_act (show exec .slackEntryDone s = execSlackEntryDone s from rfl)
      (if_pos ⟨hslack, hwindow .a, hwindow .b, hquiet .a, hquiet .b⟩)
  have hoff : b0.offTest = s.block.offTest := by rw [hb0, Block.stopTests_offTest, Block.stopTests_offTest]
  have hlinks (h : HalfId) : b0.links h = s.block.links h := Block.links_of_half (Block.half_of_offTest hoff h)
  have hsys : b1.sys = s.block.sys := by rw [hb1, Block.portsBoth_sys, Block.sys_of_offTest hoff]
  obtain ⟨hstate, hpending⟩ := b1.asleep_sys
  obtain ⟨hmem, hhalf, hbit⟩ := b1.asleep_keeps
  refine ⟨_, hexec, rfl, by rw [hstate, hsys], hpending, fun h x hx => ?_, hbit, fun hnone => ?_⟩
  · rw [Block.port_of_links (Block.links_of_half (hhalf h)), hb1, Block.portsBoth_st (fun k => by rw [hlinks, hs.links]) 2 3 h hx,
      Block.port_of_links (hlinks h)]
  · rw [hmem, hb1, Block.portsBoth_mem, hb0, Block.stopTests_idle _ _ (hnone .a), Block.stopTests_idle _ _ (hnone .b)]

/-- A wake as it is asked for: what becomes of Slack, and whether it is recorded (R417, R419). -/
theorem Block.wake_does {b : Block} (hroom : b.flash.audit.length < 64512) (a : Actor) :
    (b.wake a).block.mem = b.mem ∧ (b.wake a).status = stOk ∧
      (b.sys.slack = 2 → (b.wake a).block.sys = { b.sys with slack := 3, slackTide := b.tide .a, wakePending := false } ∧
        (b.wake a).block.flash.audit.length = b.flash.audit.length + 1) ∧
      (b.sys.slack = 1 → b.sys.wakePending = false → (b.wake a).block.sys = { b.sys with wakePending := true } ∧
        (b.wake a).block.flash.audit.length = b.flash.audit.length + 1) ∧
      (b.sys.slack = 0 ∨ b.sys.slack = 3 → (b.wake a).block.sys = b.sys ∧ (b.wake a).block.flash.audit = b.flash.audit) := by
  by_cases hasleep : b.sys.slack = 2
  · have hwake : b.wake a = ((b.appendAudit a { kind := 0x04, old := 2, new := 0 }).startWake).accept :=
      (if_pos hasleep).trans (Block.auditedAnswer_of_room hroom _ _ _)
    rw [hwake]
    exact ⟨rfl, rfl, fun _ => ⟨rfl, Block.appendAudit_audit_length _ _ _ _⟩, fun h => by omega, fun h => by omega⟩
  · by_cases hentry : b.sys.slack = 1 ∧ ¬ b.sys.wakePending
    · have hwake : b.wake a = ((b.appendAudit a { kind := 0x04, old := 1, new := 0 }).setSys { b.sys with wakePending := true }).accept :=
        ((if_neg hasleep).trans (if_pos hentry)).trans (Block.auditedAnswer_of_room hroom _ _ _)
      rw [hwake]
      exact ⟨rfl, rfl, fun h => absurd h hasleep, fun _ _ => ⟨rfl, Block.appendAudit_audit_length _ _ _ _⟩, fun h => by omega⟩
    · have hwake : b.wake a = b.accept := (if_neg hasleep).trans (if_neg hentry)
      rw [hwake]
      exact ⟨rfl, rfl, fun h => absurd h hasleep, fun h hw => absurd ⟨h, by simp [hw]⟩ hentry, fun _ => ⟨rfl, rfl⟩⟩

/-- A request to wake (R417, R419). -/
theorem slackWake_wakes {s : State} {p : Path} {a : Actor} {x : Block} (harr : Arrives s.block p [1, 2] a x)
    (hroom : s.block.flash.audit.length < 64512) :
    ∃ t, exec (.slackWake p) s = .next t ∧ t.pending = s.pending ∧ t.block.mem = s.block.mem ∧ Answers t.block p stOk ∧
      (s.block.sys.slack = 2 → t.block.sys = { s.block.sys with slack := 3, slackTide := s.block.tide .a, wakePending := false } ∧
        t.block.flash.audit.length = s.block.flash.audit.length + 1) ∧
      (s.block.sys.slack = 1 → s.block.sys.wakePending = false → t.block.sys = { s.block.sys with wakePending := true } ∧
        t.block.flash.audit.length = s.block.flash.audit.length + 1) ∧
      (s.block.sys.slack = 0 ∨ s.block.sys.slack = 3 → t.block.sys = s.block.sys ∧ t.block.flash.audit = s.block.flash.audit) := by
  have hexec : exec (.slackWake p) s = .next { s with block := (x.wake a).leave p } :=
    next_of_act (show exec (.slackWake p) s = execSlackWake p s from rfl) (Block.byPath_of_arrives harr 1 _)
  obtain ⟨z, rfl⟩ := harr.eq_setZilsy
  obtain ⟨hmem, hstatus, hasleep, hentry, hawake⟩ := (s.block.setZilsy z).wake_does hroom a
  refine ⟨_, hexec, rfl, ?_, Answer.answers_leave _ p hstatus, fun h => ?_, fun h hw => ?_, fun h => ?_⟩
  · rw [Answer.leave_mem, hmem, Block.setZilsy_mem]
  · rw [Answer.leave_sys, Answer.leave_flash]
    exact hasleep h
  · rw [Answer.leave_sys, Answer.leave_flash]
    exact hentry h hw
  · rw [Answer.leave_sys, Answer.leave_flash]
    exact hawake h

/-- Awake again: Ready, its event, and the idle timer (R417). -/
def Block.awake (b : Block) : Block := ((b.setSys { b.sys with slack := 0 }).moduleEvent 4).idleCheck

theorem Block.awake_keeps (b : Block) : b.awake.sys.slack = 0 ∧ b.awake.mem = b.mem ∧ (∀ h, b.awake.half h = b.half h) ∧
    bit (b.awake.reg (pciReg 0x28)).toNat 4 = true := by
  have hbit := (b.setSys { b.sys with slack := 0 }).moduleEvent_bit (i := 4) (by decide)
  simpa [Block.awake, Block.idleCheck] using hbit

/-- The module wakes 30 ms after T_w (R417). -/
theorem wakeReady_wakes {s : State} (hs : Shaped s.block) (hslack : s.block.sys.slack = 3)
    (hdue : s.block.sys.slackTide + 30000000 ≤ s.block.tide .a) :
    ∃ t, exec .wakeReady s = .next t ∧ t.pending = s.pending ∧ t.block.mem = s.block.mem ∧ t.block.sys.slack = 0 ∧
      (∀ h x, x < 9 → (t.block.port h x).st = if (s.block.port h x).st = 3 then 2 else (s.block.port h x).st) ∧
      bit (t.block.reg (pciReg 0x28)).toNat 4 = true := by
  have hexec : exec .wakeReady s = .next { s with block := ((s.block.portsFromTo .a 3 2).portsFromTo .b 3 2).awake } :=
    next_of_act (show exec .wakeReady s = execWakeReady s from rfl) (if_pos ⟨hslack, hdue⟩)
  obtain ⟨hstate, hmem, hhalf, hbit⟩ := ((s.block.portsFromTo .a 3 2).portsFromTo .b 3 2).awake_keeps
  refine ⟨_, hexec, rfl, by rw [hmem, Block.portsBoth_mem], hstate, fun h x hx => ?_, hbit⟩
  rw [Block.port_of_links (Block.links_of_half (hhalf h)), Block.portsBoth_st (fun k => hs.links k) 3 2 h hx]

/-- Settles O45: what entering Slack, being in it and waking do. -/
theorem slackCommands : Obligations.SlackCommands := by
  unfold Obligations.SlackCommands
  exact ⟨fun s p a x => slackEnter_answers, fun s n => slackIdleTimer_enters, fun s => slackEntryDone_sleeps, fun s p a x => slackWake_wakes,
    fun s => wakeReady_wakes⟩

end Sys2Proof.Machine

/-! PROOFS. Recovery commands (spec/14_when_a_step_fails.md R388, R392, R393, R398; R324, R331, R420): what LOST, ABORT, SUBST and RESUME do at a
half, what a repeat does, and the end of the wait for an Up port (O44). -/

namespace Sys2Proof.Machine

/-! ## A command that arrives (R388) -/

/-- A half's gate registers are none of its Efing registers. -/
theorem gateReg_ne_efReg (h k : HalfId) {off off' : Nat} (hoff : off < 0x10000) (hoff' : off' < 0x10000) : gateReg h off ≠ efReg k off' := by
  cases h <;> cases k <;> simp only [gateReg, efReg, regBase, halfNum] <;> omega

section
variable (b : Block) (h : HalfId) (p : Packet)

/-- A packet taken changes of the registers at most the count of gaps. -/
theorem Block.taken_reg {a : Nat} (ha : a ≠ efReg h 0x20) : (b.taken h p).reg a = b.reg a := by
  rw [← Block.reg_of_ground (b.unbuffer_ground h p) a]
  simp only [Block.takeSeq]
  split
  · simp
  · split <;> simp [Block.count_reg_other _ _ _ _ _ _ ha]

theorem Block.takeSeq_domain : (b.takeSeq h p).domain = b.domain := by
  simp only [Block.takeSeq]
  (repeat' split) <;> simp

theorem Block.takeSeq_slots : (b.takeSeq h p).slots = b.slots := by
  simp only [Block.takeSeq]
  (repeat' split) <;> simp

theorem Block.takeSeq_links (k : HalfId) : (b.takeSeq h p).links k = b.links k := by
  have hmod (c : Block) (f : Half → Half) (hf : ∀ x, (f x).efing.ports = x.efing.ports) : (c.modHalf h f).links k = c.links k :=
    c.modHalf_links h k f hf
  have hcount (c : Block) : (c.count (efReg h 0x20) 63 32 1).links k = c.links k := Block.links_of_half (c.count_half _ _ _ _ k)
  simp only [Block.takeSeq]
  (repeat' split) <;> simp [hmod, hcount]

theorem Block.taken_domain : (b.taken h p).domain = b.domain :=
  (Block.takeSeq_domain _ h p).trans (Block.domain_of_ground (b.unbuffer_ground h p))

theorem Block.taken_slots : (b.taken h p).slots = b.slots := (Block.takeSeq_slots _ h p).trans (Block.slots_of_ground (b.unbuffer_ground h p))

theorem Block.taken_links (k : HalfId) : (b.taken h p).links k = b.links k := (Block.takeSeq_links _ h p k).trans (b.unbuffer_links h k p)

theorem Block.taken_mem : (b.taken h p).mem = b.mem := Block.mem_eq_of_lasting (by simp)

/-- The block in which a command's effect begins: the packet taken, its SEQ applied (R398). -/
def Block.adopt : Block := (b.taken h p).setRegFld (gateReg h 0x10) 39 0 (recSeq p.payload)

theorem Block.adopt_reg {a : Nat} (hef : a ≠ efReg h 0x20) (hgate : a ≠ gateReg h 0x10) : (b.adopt h p).reg a = b.reg a :=
  (Block.reg_setRegFld_other _ _ _ _ _ _ hgate).trans (b.taken_reg h p hef)

theorem Block.adopt_applied (hseq : recSeq p.payload < 2 ^ 40) : (b.adopt h p).applied h = recSeq p.payload := by
  rw [Block.applied, Block.adopt, Block.regFld_setRegFld_same _ _ _ _ _ (by decide), Nat.mod_eq_of_lt hseq]

theorem Block.adopt_domain : (b.adopt h p).domain = b.domain := (Block.setRegFld_domain _ _ _ _ _).trans (b.taken_domain h p)
theorem Block.adopt_slots : (b.adopt h p).slots = b.slots := (Block.setRegFld_slots _ _ _ _ _).trans (b.taken_slots h p)
theorem Block.adopt_links (k : HalfId) : (b.adopt h p).links k = b.links k := (Block.links_of_half (by simp [Block.adopt])).trans (b.taken_links h p k)
theorem Block.adopt_mem : (b.adopt h p).mem = b.mem := (Block.setRegFld_mem _ _ _ _ _).trans (b.taken_mem h p)

end

section
variable {b : Block} {h : HalfId} {p : Packet} {kind : Nat} (ha : Admits b h p 5 [0x16]) (hlen : p.payload.length = 64)
  (hkind : recKind p.payload = kind)
include ha hlen hkind

/-- A command not yet applied has its effect (R388). -/
theorem Block.recovery_new (hnew : b.applied h < recSeq p.payload ∨ b.applied h = 0) (f : Block → List Byte → Block) :
    b.recovery h p kind f = f (b.adopt h p) p.payload := by
  have htake : p.payload.take 64 = p.payload := List.take_of_length_le hlen.le
  have happlied : (b.taken h p).applied h = b.applied h := Block.regFld_eq (b.taken_reg h p (gateReg_ne_efReg h h (by decide) (by decide))) 39 0
  rw [Block.recovery, htake, if_neg (not_not.mpr hkind), ha.receive, if_neg (not_not.mpr hlen), happlied, if_neg (by omega)]
  rfl

/-- A command applied already is acknowledged alone (R388). -/
theorem Block.recovery_again (hold : recSeq p.payload ≤ b.applied h) (hany : b.applied h ≠ 0) (hnone : b.domain.aborting = [])
    (f : Block → List Byte → Block) : b.recovery h p kind f = (b.taken h p).ackAction h p := by
  have htake : p.payload.take 64 = p.payload := List.take_of_length_le hlen.le
  have happlied : (b.taken h p).applied h = b.applied h := Block.regFld_eq (b.taken_reg h p (gateReg_ne_efReg h h (by decide) (by decide))) 39 0
  rw [Block.recovery, htake, if_neg (not_not.mpr hkind), ha.receive, if_neg (not_not.mpr hlen), happlied, if_pos ⟨hold, hany⟩,
    Block.taken_domain, hnone]
  rfl

end

section
variable (b : Block) (h : HalfId) (p : Packet)

theorem Block.ackAction_mem : (b.ackAction h p).mem = b.mem := Block.mem_eq_of_lasting (by simp)

theorem Block.ackAction_base : (b.ackAction h p).base = b.base := b.manage_base h _ _ _

theorem Block.ackAction_reg {a : Nat} (ha : a ≠ efReg h 0x18) : (b.ackAction h p).reg a = b.reg a := b.send_reg h ha _ _ _ _ _ _ _ _

theorem Block.ackAction_applied : (b.ackAction h p).applied h = b.applied h :=
  Block.regFld_eq (b.ackAction_reg h p (gateReg_ne_efReg h h (by decide) (by decide))) 39 0

end

/-! ## A repeat (R388) -/

/-- A recovery command's kind, and what it does with a record not yet applied. -/
theorem recovery_exec {s : State} {h : HalfId} {p : Packet} {i : Instr} {kind : Nat}
    (hi : (i, kind) ∈ [(Instr.recoveryLost h p, 3), (.recoveryAbort h p, 4), (.recoverySubst h p, 5), (.recoveryResume h p, 6)]) :
    ∃ f, exec i s = s.act (fun b => b.recovery h p kind f) := by
  simp only [List.mem_cons, Prod.mk.injEq, List.not_mem_nil, or_false] at hi
  obtain ⟨rfl, rfl⟩ | ⟨rfl, rfl⟩ | ⟨rfl, rfl⟩ | ⟨rfl, rfl⟩ := hi <;> exact ⟨_, rfl⟩

theorem recovery_repeats {s : State} {h : HalfId} {p : Packet} {i : Instr} {kind : Nat}
    (hi : (i, kind) ∈ [(Instr.recoveryLost h p, 3), (.recoveryAbort h p, 4), (.recoverySubst h p, 5), (.recoveryResume h p, 6)])
    (ha : Admits s.block h p 5 [0x16]) (hlen : p.payload.length = 64) (hkind : recKind p.payload = kind)
    (hold : recSeq p.payload ≤ s.block.applied h) (hany : s.block.applied h ≠ 0) (hnone : s.block.domain.aborting = []) :
    ∃ t, exec i s = .next t ∧ t.pending = s.pending ∧ t.block.mem = s.block.mem ∧
      t.block = ((s.block.unbuffer h p).takeSeq h p).manage h (pkSrc p) 0x13 (p.payload ++ leBytes 8 1) := by
  obtain ⟨f, hexec⟩ := recovery_exec (s := s) hi
  refine ⟨_, next_of_act hexec (Block.recovery_again ha hlen hkind hold hany hnone f), rfl, Block.mem_eq_of_lasting (by simp), ?_⟩
  rw [Block.ackAction, List.take_of_length_le hlen.le]

/-! ## ABORT (R392 step 3) -/

theorem slotOfJobFrom_le {job : Nat} {l : List JobSlot} {n k : Nat} (h : slotOfJobFrom job l n = some k) : k < n + l.length := by
  induction l generalizing n with
  | nil => cases h
  | cons x xs ih =>
    rw [slotOfJobFrom] at h
    split at h
    · cases h
      simp
    · have := ih h
      simp only [List.length_cons]
      omega

theorem slotOfJobFrom_bound {job : Nat} {l : List JobSlot} {n k : Nat} (h : slotOfJobFrom job l n = some k) :
    n ≤ k ∧ (l.getD (k - n) JobSlot.reset).st ≠ 0 := by
  induction l generalizing n with
  | nil => cases h
  | cons x xs ih =>
    rw [slotOfJobFrom] at h
    split at h
    · next hx =>
      cases h
      exact ⟨le_refl _, by simpa using hx.1⟩
    · obtain ⟨hle, hst⟩ := ih h
      have hsub : k - n = (k - (n + 1)) + 1 := by omega
      exact ⟨by omega, by rw [hsub]; simpa using hst⟩

/-- The slot of a job is bound, and one of the block's. -/
theorem Block.slotOfJob_bound {b : Block} {job k : Nat} (h : b.slotOfJob job = some k) : k < b.slots.length ∧ (b.slot k).st ≠ 0 := by
  have hle := slotOfJobFrom_le h
  obtain ⟨-, hst⟩ := slotOfJobFrom_bound h
  exact ⟨by omega, hst⟩

section
variable (b : Block) (k : Fin 16)

/-- A bound slot that starts to drain: its entry, the log, and the idle timer; another is left alone (R50, R51). -/
theorem Block.startDrain_slot : b.startDrain (.slot k) = if (b.slot k.val).st = 1 then
    ((b.setFunc (.slot k) (b.draining (.slot k))).funcLog (.slot k) 0x0001 0).idleCheck else b := by
  have hfunc : (b.func (.slot k)).st = 0 ↔ (b.slot k.val).st = 1 := by
    simp only [Block.func]
    split <;> simp_all
  by_cases hst : (b.slot k.val).st = 1
  · rw [if_pos hst, Block.startDrain, if_neg (not_not.mpr (hfunc.mpr hst))]
    rfl
  · rw [if_neg hst, Block.startDrain, if_pos (fun e => hst (hfunc.mp e))]

theorem Block.startDrain_slot_st (j : Nat) : ((b.startDrain (.slot k)).slot j).st =
    if j = k.val ∧ (b.slot j).st = 1 then 2 else (b.slot j).st := by
  rw [Block.startDrain_slot]
  by_cases hst : (b.slot k.val).st = 1
  · have hk : k.val < b.slots.length := Block.slot_lt_of_bound (by omega)
    rw [if_pos hst, Block.slot_eq_of_tables (Block.idleCheck_tables _), Block.slot_eq_of_tables (Block.funcLog_tables _ _ _ _), Block.setFunc,
      Block.slot_modSlot]
    by_cases hj : j = k.val
    · subst hj
      rw [if_pos ⟨rfl, hk⟩, if_pos ⟨rfl, hst⟩]
      rfl
    · rw [if_neg (fun e => hj e.1), if_neg (fun e => hj e.1)]
  · rw [if_neg hst, if_neg]
    rintro ⟨rfl, h⟩
    exact hst h

theorem Block.startDrain_slot_domain : (b.startDrain (.slot k)).domain = b.domain := by
  rw [Block.startDrain_slot]
  split
  · simp [Block.idleCheck, Block.funcLog, Block.setFunc, Block.modSlot]
  · rfl

theorem Block.startDrain_slot_reg (a : Nat) : (b.startDrain (.slot k)).reg a = b.reg a := by
  rw [Block.startDrain_slot]
  split
  · simp [Block.idleCheck, Block.funcLog, Block.setFunc, Block.modSlot, Block.reg]
  · rfl

theorem Block.startDrain_slot_mem : (b.startDrain (.slot k)).mem = b.mem := by
  rw [Block.startDrain_slot]
  split
  · simp [Block.idleCheck, Block.funcLog, Block.setFunc, Block.modSlot]
  · rfl

theorem Block.startDrain_slot_length : (b.startDrain (.slot k)).slots.length = b.slots.length := by
  rw [Block.startDrain_slot]
  split
  · simp [Block.idleCheck, Block.funcLog, Block.setFunc, Block.modSlot]
  · rfl

end

section
variable {s : State} {h : HalfId} {p : Packet} (ha : Admits s.block h p 5 [0x16]) (hlen : p.payload.length = 64)
  (hnew : s.block.applied h < recSeq p.payload ∨ s.block.applied h = 0) (hseq : recSeq p.payload < 2 ^ 40)
include ha hlen hnew hseq

/-- ABORT drains the job's slot, and is acknowledged at once where no slot holds it. -/
theorem recoveryAbort_drains (hs : Shaped s.block) (hkind : recKind p.payload = 4) :
    ∃ t, exec (.recoveryAbort h p) s = .next t ∧ t.pending = s.pending ∧ t.block.mem = s.block.mem ∧ t.block.applied h = recSeq p.payload ∧
      (∀ k, s.block.slotOfJob (recJob p.payload) = some k → (s.block.slot k).st ≤ 2 → (t.block.slot k).st = 2 ∧
        t.block.domain.aborting = s.block.domain.aborting ++ [(k, h, p.payload)]) ∧
      (s.block.slotOfJob (recJob p.payload) = none → t.block.slots = s.block.slots ∧ t.block.domain = s.block.domain) := by
  obtain ⟨b, hb⟩ : ∃ b, b = s.block.adopt h p := ⟨_, rfl⟩
  have hfind : b.slotOfJob (recJob p.payload) = s.block.slotOfJob (recJob p.payload) := by
    rw [Block.slotOfJob, hb, Block.adopt_slots, Block.slotOfJob]
  have hslot (k : Nat) : b.slot k = s.block.slot k := by rw [Block.slot, hb, Block.adopt_slots, Block.slot]
  have hexec := next_of_act (show exec (.recoveryAbort h p) s = execRecoveryAbort h p s from rfl)
    (Block.recovery_new ha hlen hkind hnew _)
  rw [← hb] at hexec
  cases hjob : s.block.slotOfJob (recJob p.payload) with
  | none =>
    rw [hfind, hjob] at hexec
    dsimp only at hexec
    refine ⟨_, hexec, rfl, ?_, ?_, fun k hk _ => (nomatch hk), fun _ => ⟨?_, ?_⟩⟩
    · exact (b.ackAction_mem h p).trans (by rw [hb, Block.adopt_mem])
    · dsimp only
      rw [Block.ackAction_applied, hb, Block.adopt_applied _ _ _ hseq]
    · dsimp only
      rw [Block.slots_of_base (b.ackAction_base h p), hb, Block.adopt_slots]
    · dsimp only
      rw [Block.domain_of_base (b.ackAction_base h p), hb, Block.adopt_domain]
  | some k =>
    obtain ⟨hk, hbound⟩ := Block.slotOfJob_bound hjob
    have hk16 : k < 16 := hs.1 ▸ hk
    obtain ⟨b1, hb1⟩ : ∃ b1, b1 = b.modDomain (fun d => { d with aborting := d.aborting ++ [(k, h, p.payload)] }) := ⟨_, rfl⟩
    rw [hfind, hjob] at hexec
    dsimp only at hexec
    rw [← hb1] at hexec
    have hfin : (Fin.ofNat 16 k).val = k := Nat.mod_eq_of_lt hk16
    refine ⟨_, hexec, rfl, ?_, ?_, fun j hj hst => ?_, fun hno => nomatch hno⟩
    · dsimp only
      rw [Block.startDrain_slot_mem, hb1, Block.modDomain, Block.setDomain_mem, hb, Block.adopt_mem]
    · rw [← Block.adopt_applied s.block h p hseq, ← hb]
      refine Block.regFld_eq ?_ 39 0
      dsimp only
      rw [Block.startDrain_slot_reg, hb1, Block.modDomain, Block.setDomain_reg]
    · cases hj
      dsimp only
      have hst1 : (b1.slot k).st = (s.block.slot k).st := by
        rw [← hslot, hb1]
        rfl
      rw [Block.startDrain_slot_st, Block.startDrain_slot_domain, hfin, hst1, hb1, Block.modDomain, Block.setDomain_domain, hb, Block.adopt_domain]
      refine ⟨?_, rfl⟩
      split <;> omega

/-! ## SUBST and RESUME (R392 steps 5 and 6) -/

/-- SUBST writes its entry, and the spare joins the roster. -/
theorem recoverySubst_joins {n : Nat} (hkind : recKind p.payload = 5) (hfree : s.block.freeSubst h = some n) :
    ∃ t, exec (.recoverySubst h p) s = .next t ∧ t.pending = s.pending ∧ t.block.mem = s.block.mem ∧ t.block.applied h = recSeq p.payload ∧
      t.block.reg (gateReg h (0x300 + 8 * n)) = BitVec.ofNat 64 (2 ^ 63 + recArg0 p.payload % 2048 * 2 ^ 52 +
        recArg1 p.payload % 2048 * 2 ^ 41 + recSeq p.payload) ∧
      t.block.domain = { s.block.domain with roster := (s.block.domain.roster ++ [recArg1 p.payload]).eraseDups } := by
  have hn : n < 64 := List.mem_range.mp (List.mem_of_find?_eq_some hfree)
  have hentry (i : Nat) : gateReg h (0x300 + 8 * i) ≠ gateReg h 0x10 := by simp only [gateReg]; omega
  have hfind : (s.block.adopt h p).freeSubst h = some n := by
    rw [← hfree]
    refine List.find?_congr fun i hi => ?_
    have hi64 := List.mem_range.mp hi
    rw [Block.regFld_eq (s.block.adopt_reg h p (gateReg_ne_efReg h h (by omega) (by decide)) (hentry i))]
  obtain ⟨b, hb⟩ : ∃ b, b = s.block.adopt h p := ⟨_, rfl⟩
  obtain ⟨v, hv⟩ : ∃ v, v = BitVec.ofNat 64 (2 ^ 63 + recArg0 p.payload % 2048 * 2 ^ 52 +
    recArg1 p.payload % 2048 * 2 ^ 41 + recSeq p.payload) := ⟨_, rfl⟩
  obtain ⟨b1, hb1⟩ : ∃ b1, b1 = (b.setReg (gateReg h (0x300 + 8 * n)) v).modDomain
    (fun d => { d with roster := (d.roster ++ [recArg1 p.payload]).eraseDups }) := ⟨_, rfl⟩
  have hexec := next_of_act (show exec (.recoverySubst h p) s = execRecoverySubst h p s from rfl)
    (Block.recovery_new ha hlen hkind hnew _)
  rw [hfind, ← hb] at hexec
  dsimp only at hexec
  rw [Nat.mod_eq_of_lt hseq, ← hv, ← hb1] at hexec
  have hreg (a : Nat) : b1.reg a = (b.setReg (gateReg h (0x300 + 8 * n)) v).reg a := by rw [hb1, Block.modDomain, Block.setDomain_reg]
  rw [← hv]
  refine ⟨_, hexec, rfl, ?_, ?_, ?_, ?_⟩
  · dsimp only
    rw [Block.ackAction_mem, hb1, Block.modDomain, Block.setDomain_mem, Block.setReg_mem, hb, Block.adopt_mem]
  · rw [← Block.adopt_applied s.block h p hseq, ← hb]
    refine (Block.ackAction_applied _ h p).trans (Block.regFld_eq ?_ 39 0)
    rw [hreg, Block.reg_setReg_other _ _ _ _ (hentry n).symm]
  · dsimp only
    rw [Block.ackAction_reg _ _ _ (gateReg_ne_efReg h h (by omega) (by decide)), hreg, Block.reg_setReg_same]
  · dsimp only
    rw [Block.domain_of_base (b1.ackAction_base h p), hb1, Block.modDomain, Block.setDomain_domain, Block.setReg_domain, hb, Block.adopt_domain]

end

/-- An event's raise writes no register below its mask words, but for the event's own. -/
theorem Block.moduleEvent_reg_of_lt (b : Block) (i : Nat) {a : Nat} (ha : a < pciReg 0x3000) (hne : a ≠ pciReg 0x28) :
    (b.moduleEvent i).reg a = b.reg a := by
  rw [Block.moduleEvent, Block.raise]
  split
  · rw [Block.reg_modReg_other _ _ _ _ (by simp only [pciReg] at *; omega), Block.reg_modReg_other _ _ _ _ hne]
  · rw [Block.emit_reg, Block.reg_modReg_other _ _ _ _ hne]

/-- RESUME reaches the host through half A. -/
theorem recoveryResume_reports {s : State} {p : Packet} (ha : Admits s.block .a p 5 [0x16]) (hlen : p.payload.length = 64)
    (hkind : recKind p.payload = 6) (hnew : s.block.applied .a < recSeq p.payload ∨ s.block.applied .a = 0) (hseq : recSeq p.payload < 2 ^ 40) :
    ∃ t, exec (.recoveryResume .a p) s = .next t ∧ t.pending = s.pending ∧ t.block.mem = s.block.mem ∧
      t.block.applied .a = recSeq p.payload ∧
      t.block.reg (pciReg 0x38) = BitVec.ofNat 64 (recStep p.payload * 2 ^ 32 + recJob p.payload * 2 ^ 16 + 1) ∧
      t.block.reg (pciReg 0x40) = BitVec.ofNat 64 (recArg0 p.payload) ∧ bit (t.block.reg (pciReg 0x28)).toNat 5 = true := by
  obtain ⟨b, hb⟩ : ∃ b, b = s.block.adopt .a p := ⟨_, rfl⟩
  obtain ⟨v, hv⟩ : ∃ v, v = BitVec.ofNat 64 (recStep p.payload * 2 ^ 32 + recJob p.payload * 2 ^ 16 + 1) := ⟨_, rfl⟩
  obtain ⟨w, hw⟩ : ∃ w, w = BitVec.ofNat 64 (recArg0 p.payload) := ⟨_, rfl⟩
  obtain ⟨b1, hb1⟩ : ∃ b1, b1 = (b.setReg (pciReg 0x38) v).setReg (pciReg 0x40) w := ⟨_, rfl⟩
  have hexec := next_of_act (show exec (.recoveryResume .a p) s = execRecoveryResume .a p s from rfl)
    (Block.recovery_new ha hlen hkind hnew _)
  dsimp only at hexec
  rw [← hb, ← hv, ← hw, ← hb1] at hexec
  rw [← hv, ← hw]
  have hack {a : Nat} (hlt : a < pciReg 0x3000) (hne : a ≠ pciReg 0x28) (hef : a ≠ efReg .a 0x18) :
      (((b1.moduleEvent 5).ackAction .a p).reg a) = b1.reg a :=
    (Block.ackAction_reg _ _ _ hef).trans (b1.moduleEvent_reg_of_lt 5 hlt hne)
  refine ⟨_, hexec, rfl, ?_, ?_, ?_, ?_, ?_⟩
  · dsimp only
    rw [Block.ackAction_mem, Block.moduleEvent_mem, hb1, Block.setReg_mem, Block.setReg_mem, hb, Block.adopt_mem]
  · rw [← Block.adopt_applied s.block .a p hseq, ← hb]
    refine Block.regFld_eq ((hack (by decide) (by decide) (by decide)).trans ?_) 39 0
    rw [hb1, Block.reg_setReg_other _ _ _ _ (by decide), Block.reg_setReg_other _ _ _ _ (by decide)]
  · refine (hack (by decide) (by decide) (by decide)).trans ?_
    rw [hb1, Block.reg_setReg_other _ _ _ _ (by decide), Block.reg_setReg_same]
  · refine (hack (by decide) (by decide) (by decide)).trans ?_
    rw [hb1, Block.reg_setReg_same]
  · dsimp only
    rw [Block.ackAction_reg _ _ _ (by decide)]
    exact Block.moduleEvent_bit _ (by decide)

/-! ## No Up port (R392) -/

/-- The bound slots of a list that are drained. -/
theorem Block.drainSlots_does (b : Block) (l : List Nat) (hl : ∀ k ∈ l, k < 16) :
    (b.drainSlots l).mem = b.mem ∧ ∀ j, ((b.drainSlots l).slot j).st = if j ∈ l ∧ (b.slot j).st = 1 then 2 else (b.slot j).st := by
  induction l generalizing b with
  | nil => exact ⟨rfl, fun j => (if_neg (by simp)).symm⟩
  | cons k ks ih =>
    obtain ⟨hmem, hst⟩ := ih (b.startDrain (.slot (Fin.ofNat 16 k))) (fun j hj => hl j (List.mem_cons_of_mem _ hj))
    have hk : (Fin.ofNat 16 k).val = k := Nat.mod_eq_of_lt (hl k List.mem_cons_self)
    refine ⟨hmem.trans (b.startDrain_slot_mem _), fun j => (hst j).trans ?_⟩
    rw [Block.startDrain_slot_st, hk]
    simp only [List.mem_cons]
    by_cases hone : (b.slot j).st = 1
    · simp only [hone]
      by_cases hj : j = k <;> simp [hj]
    · simp [hone]

/-- After 100 ms with no Up port every bound slot drains. -/
theorem noUpPortTimeout_drains {s : State} {n : Nat} (hfrom : s.block.sys.noUpPortFrom = some n) (hdue : n + 100000000 ≤ s.block.sys.upNs) :
    ∃ t, exec .noUpPortTimeout s = .next t ∧ t.pending = s.pending ∧ t.block.mem = s.block.mem ∧
      ∀ k, k < 16 → (t.block.slot k).st = if (s.block.slot k).st = 1 then 2 else (s.block.slot k).st := by
  obtain ⟨hmem, hst⟩ := s.block.drainSlots_does (List.range 16) (fun k hk => List.mem_range.mp hk)
  have hexec : exec .noUpPortTimeout s = .next { s with block := s.block.drainSlots (List.range 16) } :=
    next_of_act (show exec .noUpPortTimeout s = execNoUpPortTimeout s from rfl) (by
      rw [hfrom]
      exact if_pos hdue)
  refine ⟨_, hexec, rfl, hmem, fun k hk => ?_⟩
  dsimp only
  rw [hst k]
  simp [hk]

end Sys2Proof.Machine

/-! PROOFS. A lost tray (spec/14_when_a_step_fails.md R392 step 2; R324, R331): the marks that a LOST command leaves, which nothing that follows from
it takes back, and the fences. -/

namespace Sys2Proof.Machine

/-! ## Marks

What LOST leaves at a half: its SEQ applied, the tray among the lost, its ports fenced. The tasks that end, the requests that are given up and the
ready report that may follow change none of these. -/

/-- What a port's state says of a fence. -/
def Port.sign (l : Port) : Nat × Nat := (l.st, l.cause)

/-- The marks: a half's SEQ applied, the trays lost, and the ports' states. -/
def Block.marks (b : Block) (g : HalfId) : Word × List Nat × (HalfId → List (Nat × Nat)) :=
  (b.reg (gateReg g 0x10), b.domain.lost, fun k => (b.links k).map Port.sign)

theorem Block.marks_eq {b c : Block} {g : HalfId} (hr : c.reg (gateReg g 0x10) = b.reg (gateReg g 0x10)) (hd : c.domain.lost = b.domain.lost)
    (hl : ∀ k, (c.links k).map Port.sign = (b.links k).map Port.sign) : c.marks g = b.marks g := by
  simp only [Block.marks, hr, hd, hl]

section
variable {b c : Block} {g : HalfId} (e : c.marks g = b.marks g)
include e

theorem Block.applied_of_marks : c.applied g = b.applied g := Block.regFld_eq (congrArg Prod.fst e) 39 0
theorem Block.lost_of_marks : c.domain.lost = b.domain.lost := congrArg (fun x => x.2.1) e

theorem Block.sign_of_marks (k : HalfId) (x : Nat) : (c.port k x).sign = (b.port k x).sign := by
  have hmap : (c.links k).map Port.sign = (b.links k).map Port.sign := congrFun (congrArg (fun x => x.2.2) e) k
  have hget (y : Block) : (y.port k x).sign = ((y.links k).map Port.sign).getD x (Port.sign Port.reset) := by
    rw [Block.port, ← Block.links]
    simp only [List.getD_eq_getElem?_getD, List.getElem?_map]
    cases (y.links k)[x]? <;> rfl
  rw [hget c, hmap, ← hget b]

end

section
variable (k g : HalfId) {off : Nat}

@[simp] theorem efReg_ne_applied (hoff : off < 0x10000) : gateReg g 0x10 ≠ efReg k off := gateReg_ne_efReg g k (by decide) hoff
@[simp] theorem tideReg_ne_applied (hoff : off < 0x10000) : gateReg g 0x10 ≠ tideReg k off := by
  cases g <;> cases k <;> simp only [gateReg, tideReg, regBase, halfNum] <;> omega
@[simp] theorem tierReg_ne_applied (hoff : off < 0x10000) : gateReg g 0x10 ≠ tierReg k off := by
  cases g <;> cases k <;> simp only [gateReg, tierReg, regBase, halfNum] <;> omega
theorem gateReg_ne_applied (hoff : off < 0x10000) (hne : off ≠ 0x10) : gateReg g 0x10 ≠ gateReg k off := by
  cases g <;> cases k <;> simp only [gateReg, regBase, halfNum] <;> omega

end

section
variable (b : Block) {g : HalfId}

/-- A change beside halves, registers and the domain. -/
theorem Block.marks_of_parts {c : Block} (hr : c.regs = b.regs) (hd : c.domain = b.domain) (hh : ∀ k, c.half k = b.half k) :
    c.marks g = b.marks g :=
  Block.marks_eq (Block.reg_eq hr _) (by rw [hd]) (fun k => by rw [Block.links_of_half (hh k)])

@[simp] theorem Block.setDomain_marks (d : Domain) (hd : d.lost = b.domain.lost) : (b.setDomain d).marks g = b.marks g :=
  Block.marks_eq (b.setDomain_reg d _) hd (fun k => by rw [Block.links_of_half (b.setDomain_half d k)])

@[simp] theorem Block.setReg_marks {a : Nat} (v : Word) (ha : gateReg g 0x10 ≠ a) : (b.setReg a v).marks g = b.marks g :=
  Block.marks_eq (b.reg_setReg_other _ _ _ ha) (by simp) (fun k => by rw [Block.links_of_half (b.setReg_half a v k)])

@[simp] theorem Block.count_marks {a : Nat} (hi lo n : Nat) (ha : gateReg g 0x10 ≠ a) : (b.count a hi lo n).marks g = b.marks g :=
  b.setReg_marks _ ha
@[simp] theorem Block.setRegFld_marks {a : Nat} (hi lo v : Nat) (ha : gateReg g 0x10 ≠ a) : (b.setRegFld a hi lo v).marks g = b.marks g :=
  b.setReg_marks _ ha

@[simp] theorem Block.modHalf_marks (h : HalfId) (f : Half → Half) (hf : ∀ x, (f x).efing.ports = x.efing.ports) :
    (b.modHalf h f).marks g = b.marks g :=
  Block.marks_eq (Block.reg_eq (b.modHalf_regs h f) _) (by simp) (fun k => by rw [b.modHalf_links h k f hf])

@[simp] theorem Block.modPort_marks (h : HalfId) (x : Nat) (f : Port → Port) (hf : ∀ l, (f l).sign = l.sign) :
    (b.modPort h x f).marks g = b.marks g := by
  refine Block.marks_eq (Block.reg_eq (b.modPort_regs h x f) _) (by simp) (fun k => ?_)
  by_cases hk : k = h
  · subst hk
    simp [Block.links, Block.modPort, listMod_map Port.sign f hf]
  · rw [Block.links, Block.modPort, Block.half_modHalf_other _ _ _ _ hk, Block.links]

@[simp] theorem Block.emit_marks (o : Out) : (b.emit o).marks g = b.marks g := b.marks_of_parts rfl rfl (fun k => b.emit_half o k)
@[simp] theorem Block.log_marks (e : Event) : (b.log e).marks g = b.marks g :=
  b.marks_of_parts (b.log_regs e) (b.log_domain e) (fun k => b.log_half e k)
@[simp] theorem Block.moduleEvent_marks (i : Nat) : (b.moduleEvent i).marks g = b.marks g :=
  Block.marks_eq (b.moduleEvent_reg_of_lt i (by cases g <;> decide) (by cases g <;> decide)) (by simp)
    (fun k => by rw [Block.links_of_half (b.moduleEvent_half i k)])

/-- Steps that leave the marks, in order. -/
theorem Block.foldl_marks {α : Type} (f : Block → α → Block) (hf : ∀ c x, (f c x).marks g = c.marks g) (l : List α) :
    (l.foldl f b).marks g = b.marks g := by
  induction l generalizing b with
  | nil => rfl
  | cons x xs ih => exact (ih (f b x)).trans (hf b x)

/-! ## Packets -/

@[simp] theorem Block.linkSend_marks (h : HalfId) (x : Nat) (p : Packet) : (b.linkSend h x p).marks g = b.marks g := by
  simp only [Block.linkSend]
  split
  · exact (Block.emit_marks _ _).trans (b.modPort_marks h x _ (fun _ => rfl))
  · exact b.modPort_marks h x _ (fun _ => rfl)

@[simp] theorem Block.send_marks (h : HalfId) (dest job cls op tag w2 block : Nat) (payload : List Byte) :
    (b.send h dest job cls op tag w2 block payload).marks g = b.marks g := by
  simp only [Block.send, Block.routeOut, Block.sendBy, Block.makePacket]
  (repeat' split) <;> simp

@[simp] theorem Block.manage_marks (h : HalfId) (dest op : Nat) (payload : List Byte) : (b.manage h dest op payload).marks g = b.marks g := by
  simp [Block.manage]

@[simp] theorem Block.ackAction_marks (h : HalfId) (p : Packet) : (b.ackAction h p).marks g = b.marks g := by simp [Block.ackAction]

@[simp] theorem Block.manageAll_marks (h : HalfId) (dest op : Nat) (l : List (List Byte)) : (b.manageAll h dest op l).marks g = b.marks g := by
  induction l generalizing b with
  | nil => rfl
  | cons p ps ih => rw [Block.manageAll, ih, Block.manage_marks]

/-! ## Tasks that end (R212, R215) -/

@[simp] theorem Block.modTiers_marks (h : HalfId) (f : Tiers → Tiers) : (b.modTiers h f).marks g = b.marks g := by simp [Block.modTiers]

@[simp] theorem Block.freeFrames_marks (l : List Nat) : (b.freeFrames l).marks g = b.marks g := by
  induction l generalizing b with
  | nil => rfl
  | cons f fs ih => rw [Block.freeFrames, ih, Block.freeFrame, Block.modTiers_marks]

@[simp] theorem Block.freeObject_marks (i : Nat) : (b.freeObject i).marks g = b.marks g := by
  simp only [Block.freeObject]
  split <;> simp

@[simp] theorem Block.reapObjects_marks (l : List Nat) : (b.reapObjects l).marks g = b.marks g := by
  induction l generalizing b with
  | nil => rfl
  | cons i is ih =>
    rw [Block.reapObjects, ih, Block.reapObject]
    (repeat' split) <;> simp

@[simp] theorem Block.dropRefs_marks (t : TaskRef) : (b.dropRefs t).marks g = b.marks g := by
  have hmod (c : Block) (i : Nat) (f : CacheObject → CacheObject) : (c.modObject i f).marks g = c.marks g := by
    simp only [Block.modObject]
    split <;> simp
  rw [Block.dropRefs, Block.reapObjects_marks]
  exact b.foldl_marks _ (fun c i => hmod c i _) _

@[simp] theorem Block.modTask_marks (t : TaskRef) (f : TaskCtx → TaskCtx) : (b.modTask t f).marks g = b.marks g := by
  simp only [Block.modTask, Block.modGraph]
  split <;> simp

@[simp] theorem Block.fix_marks (t : TaskRef) (status detail : Nat) : (b.fix t status detail).marks g = b.marks g := by
  simp only [Block.fix]
  (repeat' split) <;> simp

@[simp] theorem Block.fixAll_marks (st det : Nat) (l : List TaskRef) : (b.fixAll st det l).marks g = b.marks g := by
  induction l generalizing b with
  | nil => rfl
  | cons t ts ih => rw [Block.fixAll, ih, Block.fix_marks]

/-- A request to another endpoint or to the host, granted. -/
theorem Block.grant_marks (h : HalfId) (r : Request) (hr : (∃ e, r.dest = .endpoint e) ∨ r.dest = .mainland) :
    (b.grant h r).marks g = b.marks g := by
  have hawait (c : Block) : (c.await h r).marks g = c.marks g := by simp [Block.await]
  have hlaunch (i : Nat) : (b.launch h i r).marks g = b.marks g := by
    obtain ⟨e, he⟩ | he := hr <;> simp [Block.launch, he, Block.holdTag]
  simp only [Block.grant]
  (repeat' split) <;> simp [hawait, hlaunch]

@[simp] theorem Block.abortPublication_marks (h : HalfId) (job : Nat) (d : TaskDesc) : (b.abortPublication h job d).marks g = b.marks g := by
  have hfar (op addr len : Nat) (data : List Byte) : (b.grant h (farRequest none op addr len data)).marks g = b.marks g := by
    refine b.grant_marks h _ ?_
    simp only [farRequest, farDest]
    split
    · exact .inl ⟨_, rfl⟩
    · exact .inr rfl
  simp only [Block.abortPublication]
  (repeat' split) <;> simp [hfar]

@[simp] theorem Block.fail_marks (t : TaskRef) (st det : Nat) : (b.fail t st det).marks g = b.marks g := by
  simp only [Block.fail]
  (repeat' split) <;> simp

@[simp] theorem Block.collLost_marks (t : TaskRef) (lost : List Nat) : (b.collLost t lost).marks g = b.marks g := by
  simp only [Block.collLost, Block.onColl]
  (repeat' split) <;> simp

/-- Tasks that end with the tray leave the marks. -/
@[simp] theorem Block.loseTray_marks (h : HalfId) (tray : Nat) : (b.loseTray h tray).marks g = b.marks g := by
  rw [Block.loseTray]
  exact (Block.foldl_marks _ _ (fun c t => c.collLost_marks t _) _).trans (b.foldl_marks _ (fun c (q : TaskRef × Nat) => c.fail_marks q.1 _ q.2) _)

/-! ## The backup root and the ready report (R331, R334, R335) -/

theorem assignSpares_filled (l ss : List Nat) (n : Nat) : ((assignSpares l ss n).filter (fun e => e.2 ≠ 0xFFFF)).length ≤ n := by
  induction l generalizing ss n with
  | nil => simp [assignSpares]
  | cons t ts ih =>
    have hnone (ss : List Nat) (n : Nat) : (((t, 0xFFFF) :: assignSpares ts ss n).filter (fun e => e.2 ≠ 0xFFFF)).length ≤ n := ih ss n
    cases ss with
    | nil => exact hnone _ _
    | cons s ss =>
      cases n with
      | zero => exact hnone _ _
      | succ n =>
        rw [assignSpares, List.filter_cons]
        have := ih ss n
        split
        · rw [List.length_cons]
          omega
        · omega

theorem Block.fillSubst_marks (h : HalfId) (l : List (Nat × Nat)) (i : Nat) (hl : i + l.length ≤ 64) : (b.fillSubst h l i).marks g = b.marks g := by
  induction l generalizing b i with
  | nil => rfl
  | cons e es ih =>
    rw [List.length_cons] at hl
    rw [Block.fillSubst, ih _ _ (by omega), Block.setReg_marks _ _ (gateReg_ne_applied h g (by omega) (by omega))]

@[simp] theorem Block.setCensus_marks (h : HalfId) (st : Nat) : (b.setCensus h st).marks g = b.marks g := by
  simp only [Block.setCensus]
  (repeat' split) <;> simp

theorem Block.applyCensus_marks (h : HalfId) (done : Nat) (es : List (Nat × Nat)) (hes : (es.filter (fun e => e.2 ≠ 0xFFFF)).length ≤ 64) :
    (b.applyCensus h done es).marks g = b.marks g := by
  rw [Block.applyCensus]
  dsimp only
  rw [Block.setCensus_marks, Block.setReg_marks _ _ (by simp), Block.setRegFld_marks _ _ _ _ (by simp), Block.setRegFld_marks _ _ _ _ (by simp),
    Block.setRegFld_marks _ _ _ _ (by simp), Block.fillSubst_marks _ _ _ _ (by simpa using hes), Block.setDomain_marks]
  · exact b.modHalf_marks h _ (fun _ => rfl)
  · rfl

@[simp] theorem Block.completeCensus_marks : b.completeCensus.marks g = b.marks g := by
  rw [Block.completeCensus, Block.applyCensus_marks _ _ _ _ (assignSpares_filled _ _ _), Block.applyCensus_marks _ _ _ _ (assignSpares_filled _ _ _)]
  exact b.foldl_marks _ (fun c q => c.manageAll_marks _ _ _ _) _

@[simp] theorem Block.holderTakes_marks (l : List Byte) : (b.holderTakes l).marks g = b.marks g := by
  simp only [Block.holderTakes, Block.censusCheck]
  (repeat' split) <;> simp

@[simp] theorem Block.reporterTakes_marks (l : List Byte) : (b.reporterTakes l).marks g = b.marks g := by
  simp only [Block.reporterTakes]
  (repeat' split) <;> simp

@[simp] theorem Block.reportReady_marks : b.reportReady.marks g = b.marks g := by
  simp only [Block.reportReady]
  (repeat' split) <;> simp

@[simp] theorem Block.setTideStat_marks (h : HalfId) (hi lo v : Nat) : (b.setTideStat h hi lo v).marks g = b.marks g := by simp [Block.setTideStat]
@[simp] theorem Block.modTide_marks (h : HalfId) (f : TideClock → TideClock) : (b.modTide h f).marks g = b.marks g := by simp [Block.modTide]

@[simp] theorem Block.backUpRoot_marks (h : HalfId) (tray : Nat) : (b.backUpRoot h tray).marks g = b.marks g := by
  simp only [Block.backUpRoot, Block.lockTide]
  (repeat' split) <;> simp

end

/-! ## The fences (R324, R392) -/

section
variable (b : Block) {h : HalfId} {tray x : Nat}

/-- One port of a half, as a lost tray finds it. -/
def Block.fenceOne (b : Block) (h : HalfId) (tray i : Nat) : Block :=
  let l := b.port h i
  if l.nbrEndpoint / 8 = tray ∧ (l.st = 2 ∨ l.st = 3 ∨ l.st = 4 ∨ (l.st = 1 ∧ (l.retraining ∨ l.trained))) then b.fencePort h i 5 else b

theorem Block.fenceTray_eq : b.fenceTray h tray = (List.range 9).foldl (fun x i => x.fenceOne h tray i) b := rfl

theorem Block.fenceOne_length (i : Nat) : ((b.fenceOne h tray i).links h).length = (b.links h).length := by
  simp only [Block.fenceOne]
  split <;> simp

/-- A fence changes no port but its own, and not one that is fenced already. -/
theorem Block.fenceOne_port_keeps {i : Nat} (hkeep : x ≠ i ∨ (b.port h x).st = 5) : (b.fenceOne h tray i).port h x = b.port h x := by
  simp only [Block.fenceOne]
  split
  · next hit =>
    obtain hne | hst := hkeep
    · exact b.fencePort_port_other h (.inr hne) 5
    · by_cases hxi : x = i
      · subst hxi
        omega
      · exact b.fencePort_port_other h (.inr hxi) 5
  · rfl

/-- A port to the tray that carries traffic is fenced, with cause commanded. -/
theorem Block.fenceOne_fences (hx : x < (b.links h).length) (hnbr : (b.port h x).nbrEndpoint / 8 = tray)
    (hst : (b.port h x).st = 2 ∨ (b.port h x).st = 3) :
    ((b.fenceOne h tray x).port h x).st = 5 ∧ ((b.fenceOne h tray x).port h x).cause = 5 := by
  simp only [Block.fenceOne]
  rw [if_pos ⟨hnbr, by omega⟩, Block.fencePort_port _ hx]
  exact ⟨rfl, rfl⟩

theorem Block.fenceOnes_keep (l : List Nat) (hst : (b.port h x).st = 5) :
    (l.foldl (fun x i => x.fenceOne h tray i) b).port h x = b.port h x := by
  induction l generalizing b with
  | nil => rfl
  | cons i is ih =>
    have hport := b.fenceOne_port_keeps (tray := tray) (i := i) (.inr hst)
    rw [List.foldl_cons, ih _ (by rw [hport, hst]), hport]

theorem Block.fenceOnes_fence (l : List Nat) (hin : x ∈ l) (hx : x < (b.links h).length) (hnbr : (b.port h x).nbrEndpoint / 8 = tray)
    (hst : (b.port h x).st = 2 ∨ (b.port h x).st = 3) :
    ((l.foldl (fun x i => x.fenceOne h tray i) b).port h x).st = 5 ∧ ((l.foldl (fun x i => x.fenceOne h tray i) b).port h x).cause = 5 := by
  induction l generalizing b with
  | nil => cases hin
  | cons i is ih =>
    rw [List.foldl_cons]
    by_cases hxi : x = i
    · subst hxi
      obtain ⟨hfenced, hcause⟩ := b.fenceOne_fences hx hnbr hst
      rw [Block.fenceOnes_keep _ _ hfenced]
      exact ⟨hfenced, hcause⟩
    · have hport := b.fenceOne_port_keeps (h := h) (tray := tray) (.inl hxi)
      exact ih _ (List.mem_of_ne_of_mem hxi hin) (by rwa [Block.fenceOne_length]) (by rwa [hport]) (by rwa [hport])

/-- The fences leave what SEQ is applied, and the trays lost. -/
theorem Block.fenceOne_keeps (g : HalfId) {i : Nat} (hi : i < 9) :
    (b.fenceOne h tray i).applied g = b.applied g ∧ (b.fenceOne h tray i).domain = b.domain := by
  have hregs : (b.fencePort h i 5).regs = (b.dropLink h i 5 5 false).regs := by simp [Block.fencePort]
  have hcount (n : Nat) : (b.countPort h i 15 4 n).applied g = b.applied g := by
    simp only [Block.countPort]
    split
    · exact b.regFld_count_elsewhere (gateReg_ne_efReg g h (by decide) (by omega)) _ _ _ _ _
    · rfl
  have hfence : (b.fencePort h i 5).applied g = b.applied g :=
    (Block.regFld_eq (Block.reg_eq hregs _) 39 0).trans ((b.dropLink_regFld 5 5 false _ 39 0).trans (hcount _))
  simp only [Block.fenceOne]
  split
  · exact ⟨hfence, b.fencePort_domain 5⟩
  · exact ⟨rfl, rfl⟩

theorem Block.fenceOnes_keeps (g : HalfId) (l : List Nat) (hl : ∀ i ∈ l, i < 9) :
    (l.foldl (fun x i => x.fenceOne h tray i) b).applied g = b.applied g ∧
      (l.foldl (fun x i => x.fenceOne h tray i) b).domain = b.domain := by
  induction l generalizing b with
  | nil => exact ⟨rfl, rfl⟩
  | cons i is ih =>
    obtain ⟨happlied, hdomain⟩ := ih (b.fenceOne h tray i) (fun j hj => hl j (List.mem_cons_of_mem _ hj))
    obtain ⟨happlied', hdomain'⟩ := b.fenceOne_keeps (h := h) (tray := tray) g (hl i List.mem_cons_self)
    exact ⟨happlied.trans happlied', hdomain.trans hdomain'⟩

end

/-! ## LOST and the obligation -/

/-- LOST fences every port to the tray and marks the tray lost (R392 step 2). -/
theorem recoveryLost_fences {s : State} {h : HalfId} {p : Packet} (hs : Shaped s.block) (ha : Admits s.block h p 5 [0x16])
    (hlen : p.payload.length = 64) (hkind : recKind p.payload = 3)
    (hnew : s.block.applied h < recSeq p.payload ∨ s.block.applied h = 0) (hseq : recSeq p.payload < 2 ^ 40) :
    ∃ t, exec (.recoveryLost h p) s = .next t ∧ t.pending = s.pending ∧ t.block.applied h = recSeq p.payload ∧
      recArg0 p.payload ∈ t.block.domain.lost ∧
      (∀ x, x < 9 → (s.block.port h x).nbrEndpoint / 8 = recArg0 p.payload → (s.block.port h x).st = 2 ∨ (s.block.port h x).st = 3 →
        (t.block.port h x).st = 5 ∧ (t.block.port h x).cause = 5) := by
  obtain ⟨b, hb⟩ : ∃ b, b = (s.block.adopt h p).modDomain (fun d => { d with lost := (d.lost ++ [recArg0 p.payload]).eraseDups }) := ⟨_, rfl⟩
  have hlinks : b.links h = s.block.links h := by
    rw [hb, Block.modDomain, Block.links_of_half (Block.setDomain_half _ _ h), Block.adopt_links]
  have happlied : b.applied h = recSeq p.payload := by
    rw [← Block.adopt_applied s.block h p hseq, hb]
    exact Block.regFld_eq (Block.setDomain_reg _ _ _) 39 0
  have hlost : recArg0 p.payload ∈ b.domain.lost := by
    rw [hb, Block.modDomain, Block.setDomain_domain]
    simp
  have hexec := next_of_act (show exec (.recoveryLost h p) s = execRecoveryLost h p s from rfl) (Block.recovery_new ha hlen hkind hnew _)
  dsimp only at hexec
  rw [← hb] at hexec
  obtain ⟨b1, hb1⟩ : ∃ b1, b1 = b.fenceTray h (recArg0 p.payload) := ⟨_, rfl⟩
  rw [← hb1] at hexec
  obtain ⟨happlied1, hdomain1⟩ := b.fenceOnes_keeps (h := h) (tray := recArg0 p.payload) h (List.range 9) (fun i hi => List.mem_range.mp hi)
  rw [← Block.fenceTray_eq, ← hb1] at happlied1 hdomain1
  obtain ⟨b2, hb2⟩ : ∃ b2, b2 = ((((b1.loseTray h (recArg0 p.payload)).backUpRoot h (recArg0 p.payload)).log
    { event := 0x0042, half := h, arg0 := recArg0 p.payload, arg1 := recArg1 p.payload }).ackAction h p) := ⟨_, rfl⟩
  have hmarks : b2.marks h = b1.marks h := by simp [hb2]
  rw [← hb2] at hexec
  refine ⟨_, hexec, rfl, ?_, ?_, fun x hx hnbr hst => ?_⟩
  · exact (Block.applied_of_marks hmarks).trans (happlied1.trans happlied)
  · dsimp only
    rwa [Block.lost_of_marks hmarks, hdomain1]
  · have hport : b.port h x = s.block.port h x := Block.port_of_links hlinks x
    obtain ⟨hfenced, hcause⟩ := b.fenceOnes_fence (h := h) (tray := recArg0 p.payload) (x := x) (List.range 9) (List.mem_range.mpr hx)
      (by rw [hlinks, hs.links]; omega) (by rwa [hport]) (by rwa [hport])
    rw [← Block.fenceTray_eq, ← hb1] at hfenced hcause
    have hsign := Block.sign_of_marks hmarks h x
    exact ⟨(congrArg Prod.fst hsign).trans hfenced, (congrArg Prod.snd hsign).trans hcause⟩

/-- Settles O44: recovery commands, repeats, and the end of the wait for an Up port. -/
theorem recoveryCommands : Obligations.RecoveryCommands := by
  unfold Obligations.RecoveryCommands
  exact ⟨fun s h p i kind => recovery_repeats, fun s h p => recoveryLost_fences,
    fun s h p hs ha hlen hkind hnew hseq => recoveryAbort_drains ha hlen hnew hseq hs hkind,
    fun s h p n ha hlen hkind hnew hseq hfree => recoverySubst_joins ha hlen hnew hseq hkind hfree,
    fun s p => recoveryResume_reports, fun s n _ => noUpPortTimeout_drains⟩

end Sys2Proof.Machine

/-! PROOFS. The lease and the census (spec/12_efing_and_tide.md R333-R336; spec/14_when_a_step_fails.md R388): who holds the lease and since when,
which reports are held, and what the census result leaves at a half (O42). -/

namespace Sys2Proof.Machine

/-! ## The lease's tenure

What a leader goes on to do (R383, R385, R388, R392) touches its journal; who holds the lease, T_L and the reports held stay. -/

/-- Who holds the lease, the first T_L, and the reports held. -/
def Domain.tenure (d : Domain) : Bool × Option Nat × Tab (List Byte) := (d.holder, d.tL, d.reports)

theorem Domain.tenure_roster (d : Domain) (l : List Nat) : ({ d with roster := l } : Domain).tenure = d.tenure := rfl
theorem Domain.holder_of_tenure {d e : Domain} (h : d.tenure = e.tenure) : d.holder = e.holder := congrArg Prod.fst h
theorem Domain.tL_of_tenure {d e : Domain} (h : d.tenure = e.tenure) : d.tL = e.tL := congrArg (fun x => x.2.1) h
theorem Domain.reports_of_tenure {d e : Domain} (h : d.tenure = e.tenure) : d.reports = e.reports := congrArg (fun x => x.2.2) h

section
variable (b : Block)

theorem Block.tenure_of_base {c : Block} (e : c.base = b.base) : c.domain.tenure = b.domain.tenure := by rw [Block.domain_of_base e]

@[simp] theorem Block.modDomain_tenure (f : Domain → Domain) (hf : ∀ d, (f d).tenure = d.tenure) :
    (b.modDomain f).domain.tenure = b.domain.tenure := by
  rw [Block.modDomain, Block.setDomain_domain, hf]

@[simp] theorem Block.manage_tenure (h : HalfId) (dest op : Nat) (payload : List Byte) :
    (b.manage h dest op payload).domain.tenure = b.domain.tenure := b.tenure_of_base (by simp)
@[simp] theorem Block.manageTo_tenure (h : HalfId) (op : Nat) (l : List (Nat × List Byte)) :
    (b.manageTo h op l).domain.tenure = b.domain.tenure := b.tenure_of_base (by simp)
@[simp] theorem Block.manageAll_tenure (h : HalfId) (dest op : Nat) (l : List (List Byte)) :
    (b.manageAll h dest op l).domain.tenure = b.domain.tenure := b.tenure_of_base (by simp)

/-- Steps that leave the tenure, in order. -/
theorem Block.foldl_tenure {α : Type} (f : Block → α → Block) (hf : ∀ c x, (f c x).domain.tenure = c.domain.tenure) (l : List α) :
    (l.foldl f b).domain.tenure = b.domain.tenure := by
  induction l generalizing b with
  | nil => rfl
  | cons x xs ih => exact (ih (f b x)).trans (hf b x)

/-! ### The journal -/

@[simp] theorem Block.sendRecord_tenure (l : List Byte) (ms : List Nat) : (b.sendRecord l ms).domain.tenure = b.domain.tenure := by
  induction ms generalizing b with
  | nil => rfl
  | cons m ms ih =>
    rw [Block.sendRecord, ih]
    split <;> simp

@[simp] theorem Block.appendRecord_tenure (draft : List Byte) : (b.appendRecord draft).domain.tenure = b.domain.tenure := by
  rw [Block.appendRecord, Block.sendRecord_tenure]
  exact (Block.modDomain_tenure _ _ (fun _ => rfl)).trans (b.modDomain_tenure _ (fun _ => rfl))

@[simp] theorem Block.payAll_tenure (l : List Byte) : (b.payAll l).domain.tenure = b.domain.tenure := by
  rw [Block.payAll]
  refine (Block.foldl_tenure _ _ (fun c o => ?_) _).trans (b.modDomain_tenure _ (fun _ => rfl))
  rw [Block.payOwed]
  split <;> simp

@[simp] theorem Block.orderAll_tenure (l : List Byte) : (b.orderAll l).domain.tenure = b.domain.tenure := by simp [Block.orderAll]

@[simp] theorem Block.declareLost_tenure (tray cause : Nat) : (b.declareLost tray cause).domain.tenure = b.domain.tenure := by
  rw [Block.declareLost]
  split
  · rfl
  · dsimp only
    rw [Block.appendRecord_tenure]
    exact (Block.foldl_tenure _ _ (fun c l => c.sendRecord_tenure l _) _).trans (b.modDomain_tenure _ (fun _ => rfl))

@[simp] theorem Block.trySubst_tenure : b.trySubst.domain.tenure = b.domain.tenure := by
  simp only [Block.trySubst]
  (repeat' split) <;> simp

@[simp] theorem Block.resumeJobs_tenure (tray : Nat) : (b.resumeJobs tray).domain.tenure = b.domain.tenure := by
  simp only [Block.resumeJobs]
  split
  · rfl
  · refine b.foldl_tenure _ (fun c l => ?_) _
    split <;> simp

@[simp] theorem Block.actOn_tenure (l : List Byte) : (b.actOn l).domain.tenure = b.domain.tenure := by
  have hcommand : ((b.modDomain (fun d => { d with acks := tabPut d.acks (recSeq l) [] })).orderAll l).domain.tenure = b.domain.tenure := by
    rw [Block.orderAll_tenure]
    exact b.modDomain_tenure _ (fun _ => rfl)
  simp only [Block.actOn]
  split
  · (repeat' split) <;> simp
  · refine (Block.foldl_tenure _ _ (fun c j => ?_) _).trans hcommand
    split <;> simp
  · exact hcommand
  · exact hcommand
  · exact hcommand
  · rfl

@[simp] theorem Block.complete_tenure (seq : Nat) : (b.complete seq).domain.tenure = b.domain.tenure := by
  have hdone (draft : List Byte) : ((b.modDomain (fun d => { d with acks := tabDel d.acks seq })).appendRecord draft).domain.tenure =
      b.domain.tenure := by
    rw [Block.appendRecord_tenure]
    exact b.modDomain_tenure _ (fun _ => rfl)
  simp only [Block.complete]
  (repeat' split) <;> simp only [Block.trySubst_tenure, Block.resumeJobs_tenure, hdone]

@[simp] theorem Block.pump_tenure (fuel : Nat) : (b.pump fuel).domain.tenure = b.domain.tenure := by
  induction fuel generalizing b with
  | zero => rfl
  | succ n ih =>
    rw [Block.pump]
    split
    · next s _ =>
      have hstart := b.modDomain_tenure (fun d => { d with unacted := d.unacted.erase s }) (fun _ => rfl)
      dsimp only
      rw [ih]
      split
      · rw [Block.actOn_tenure, hstart]
      · exact hstart
    · split
      · rw [ih, Block.complete_tenure]
      · rfl

@[simp] theorem Block.lead_tenure : b.lead.domain.tenure = b.domain.tenure := by
  rw [Block.lead]
  split
  · exact b.pump_tenure _
  · rfl

@[simp] theorem Block.takeLead_tenure : b.takeLead.domain.tenure = b.domain.tenure := by
  rw [Block.takeLead, Block.lead_tenure, Block.appendRecord_tenure]
  refine (Block.foldl_tenure _ _ (fun c x => ?_) _).trans (b.modDomain_tenure _ (fun _ => rfl))
  split <;> simp

@[simp] theorem Block.readReplicas_tenure (old : Option Nat) : (b.readReplicas old).domain.tenure = b.domain.tenure := by
  simp only [Block.readReplicas]
  split
  · simp
  · rw [Block.manageTo_tenure]
    exact b.modDomain_tenure _ (fun _ => rfl)

end

/-! ## The census result at a half (R335 step 4, R336) -/

/-- The registers that a census event leaves: all but PCI_EVENT and the mask words. -/
def eventLeaves (a : Nat) : Prop := ∀ (b : Block) (i : Nat), (b.moduleEvent i).reg a = b.reg a

theorem eventLeaves_zilReg (off : Nat) : eventLeaves (zilReg off) := fun b i => b.moduleEvent_reg_of_gt i (by simp only [zilReg, pciReg]; omega)

theorem eventLeaves_tideReg (h : HalfId) {off : Nat} (hoff : off < 0x10000) : eventLeaves (tideReg h off) := fun b i => by
  refine b.moduleEvent_reg_of_lt i ?_ ?_ <;> cases h <;> simp only [tideReg, regBase, halfNum, pciReg] <;> omega

section
variable (b : Block) (h k : HalfId)

@[simp] theorem Block.moduleEvent_base (i : Nat) : (b.moduleEvent i).base = b.base := by
  rw [Block.moduleEvent, Block.raise]
  split
  · exact (Block.setReg_base _ _ _).trans (b.setReg_base _ _)
  · exact b.setReg_base _ _

@[simp] theorem Block.setCensus_base (st : Nat) : (b.setCensus h st).base = b.base := by
  simp only [Block.setCensus]
  (repeat' split) <;> simp

theorem Block.setCensus_half (st : Nat) : (b.setCensus h st).half k =
    if k = h then { b.half h with efing := { (b.half h).efing with census := st } } else b.half k := by
  simp only [Block.setCensus]
  split
  · next hst =>
    split
    · next hk => rw [hk, ← hst]
    · rfl
  · by_cases hk : k = h
    · subst hk
      cases k <;> simp
    · rw [if_neg hk]
      cases h <;> simp [Block.half_modHalf_other _ _ _ _ hk]

theorem Block.setCensus_reg {a : Nat} (ha : a ≠ tideReg h 0x20) (hevent : eventLeaves a) (st : Nat) : (b.setCensus h st).reg a = b.reg a := by
  simp only [Block.setCensus]
  (repeat' split) <;> simp [hevent _ _, Block.reg_setRegFld_other _ _ _ _ _ _ ha]

/-! ### Spares -/

theorem Block.fillSubst_base (l : List (Nat × Nat)) (i : Nat) : (b.fillSubst h l i).base = b.base := by
  induction l generalizing b i with
  | nil => rfl
  | cons e es ih => rw [Block.fillSubst, ih, Block.setReg_base]

theorem Block.fillSubst_half (l : List (Nat × Nat)) (i : Nat) : (b.fillSubst h l i).half k = b.half k := by
  induction l generalizing b i with
  | nil => rfl
  | cons e es ih => rw [Block.fillSubst, ih, Block.setReg_half]

theorem Block.fillSubst_reg {a : Nat} (l : List (Nat × Nat)) (i : Nat) (ha : ∀ j, j < i + l.length → a ≠ gateReg h (0x300 + 8 * j)) :
    (b.fillSubst h l i).reg a = b.reg a := by
  induction l generalizing b i with
  | nil => rfl
  | cons e es ih =>
    rw [List.length_cons] at ha
    rw [Block.fillSubst, ih _ _ (fun j hj => ha j (by omega)), Block.reg_setReg_other _ _ _ _ (ha i (by omega))]

/-! ### The result -/

/-- The roster after the census: the active trays that are there, and the spares that joined. -/
def Block.rosterAfter (b : Block) (es : List (Nat × Nat)) : List Nat :=
  (b.activeTrays.filter (fun y => !((es.map (fun e => e.1)).contains y))) ++ (es.filter (fun e => e.2 ≠ 0xFFFF)).map (fun e => e.2)

/-- A half before its census state changes: the result taken. -/
def Block.censusTaken (b : Block) (h : HalfId) (done : Nat) (es : List (Nat × Nat)) : Block :=
  let spared := es.filter (fun e => e.2 ≠ 0xFFFF)
  let absent := es.map (fun e => e.1)
  let b1 := b.modHalf h (fun x => { x with efing := { x.efing with seqTx := [], seqRx := [], parts := [] } })
  let b2 := (b1.setDomain { b1.domain with roster := b.rosterAfter es }).fillSubst h spared 0
  (((b2.setRegFld (tideReg h 0x20) 31 20 absent.length).setRegFld (tideReg h 0x20) 19 8 spared.length).setRegFld (tideReg h 0x20) 7 7
    (b2n (decide (spared.length < absent.length)))).setReg (tideReg h 0x30) (BitVec.ofNat 64 done)

theorem Block.applyCensus_eq (done : Nat) (es : List (Nat × Nat)) : b.applyCensus h done es =
    (b.censusTaken h done es).setCensus h (if (es.map (fun e => e.1)).contains ((b.censusTaken h done es).moduleNo / 4) then 3 else 2) := rfl

theorem Block.setDomain_base {c : Block} (e : c.base = b.base) (d : Domain) : (c.setDomain d).base = (b.setDomain d).base :=
  congrArg (fun x => x.setDomain d) e

/-- Beside the half and its registers the result changes the roster alone. -/
theorem Block.censusTaken_base (done : Nat) (es : List (Nat × Nat)) :
    (b.censusTaken h done es).base = (b.setDomain { b.domain with roster := b.rosterAfter es }).base := by
  rw [Block.censusTaken]
  dsimp only
  rw [Block.setReg_base, Block.setRegFld_base, Block.setRegFld_base, Block.setRegFld_base, Block.fillSubst_base, Block.modHalf_domain]
  exact Block.setDomain_base b (b.modHalf_base h _) _

theorem Block.censusTaken_half (done : Nat) (es : List (Nat × Nat)) : (b.censusTaken h done es).half k =
    if k = h then { b.half h with efing := { (b.half h).efing with seqTx := [], seqRx := [], parts := [] } } else b.half k := by
  rw [Block.censusTaken]
  dsimp only
  rw [Block.setReg_half, Block.setRegFld_half, Block.setRegFld_half, Block.setRegFld_half, Block.fillSubst_half, Block.setDomain_half]
  by_cases hk : k = h
  · rw [if_pos hk, hk, Block.half_modHalf_same]
  · rw [if_neg hk, Block.half_modHalf_other _ _ _ _ hk]

/-- A register that a census result of so many entries leaves. -/
def censusLeaves (h : HalfId) (n a : Nat) : Prop :=
  a ≠ tideReg h 0x20 ∧ a ≠ tideReg h 0x30 ∧ (∀ j, j < n → a ≠ gateReg h (0x300 + 8 * j)) ∧ eventLeaves a

theorem Block.censusTaken_reg {a : Nat} {es : List (Nat × Nat)} (ha : censusLeaves h es.length a) (done : Nat) :
    (b.censusTaken h done es).reg a = b.reg a := by
  obtain ⟨hstat, hdone, hsubst, -⟩ := ha
  rw [Block.censusTaken]
  dsimp only
  rw [Block.reg_setReg_other _ _ _ _ hdone, Block.reg_setRegFld_other _ _ _ _ _ _ hstat, Block.reg_setRegFld_other _ _ _ _ _ _ hstat,
    Block.reg_setRegFld_other _ _ _ _ _ _ hstat, Block.fillSubst_reg, Block.setDomain_reg, Block.modHalf_reg]
  intro j hj
  have hlen : (es.filter (fun e => e.2 ≠ 0xFFFF)).length ≤ es.length := List.length_filter_le _ _
  exact hsubst j (by omega)

theorem Block.censusTaken_done (done : Nat) (es : List (Nat × Nat)) :
    (b.censusTaken h done es).reg (tideReg h 0x30) = BitVec.ofNat 64 done := by
  rw [Block.censusTaken, Block.reg_setReg_same]

theorem censusLeaves_moduleNo {n : Nat} (hn : n ≤ 8192) : censusLeaves h n (zilReg 0x40) :=
  ⟨by cases h <;> decide, by cases h <;> decide, fun j hj => by cases h <;> simp only [zilReg, gateReg, regBase, halfNum] <;> omega,
    eventLeaves_zilReg 0x40⟩

theorem Block.censusTaken_moduleNo {es : List (Nat × Nat)} (hes : es.length ≤ 8192) (done : Nat) :
    (b.censusTaken h done es).moduleNo = b.moduleNo := Block.regFld_eq (b.censusTaken_reg h (censusLeaves_moduleNo h hes) done) 63 51

/-- A half that has taken the result: its end-to-end sequences start at 0. -/
def Half.withResult (x : Half) (st : Nat) : Half :=
  { x with efing := { x.efing with seqTx := [], seqRx := [], parts := [], census := st } }

theorem Half.withResult_census (x : Half) (st : Nat) : (x.withResult st).efing.census = st := rfl

/-- What a result of at most 8,192 entries leaves at its half, and beside it. -/
theorem Block.applyCensus_does {es : List (Nat × Nat)} (hes : es.length ≤ 8192) (done : Nat) :
    (b.applyCensus h done es).half k =
        (if k = h then (b.half h).withResult (if (es.map (fun e => e.1)).contains (b.moduleNo / 4) then 3 else 2) else b.half k) ∧
      (b.applyCensus h done es).reg (tideReg h 0x30) = BitVec.ofNat 64 done ∧
      (∀ a, censusLeaves h es.length a → (b.applyCensus h done es).reg a = b.reg a) ∧
      (b.applyCensus h done es).base = (b.setDomain { b.domain with roster := b.rosterAfter es }).base := by
  rw [Block.applyCensus_eq, b.censusTaken_moduleNo h hes]
  refine ⟨?_, ?_, fun a ha => ?_, ?_⟩
  · rw [Block.setCensus_half, b.censusTaken_half h h, b.censusTaken_half h k, if_pos rfl]
    by_cases hk : k = h
    · rw [if_pos hk, if_pos hk]
      rfl
    · rw [if_neg hk, if_neg hk, if_neg hk]
  · rw [Block.setCensus_reg _ _ (by simp only [tideReg]; omega) (eventLeaves_tideReg h (by decide)), Block.censusTaken_done]
  · rw [Block.setCensus_reg _ _ ha.1 ha.2.2.2, Block.censusTaken_reg _ _ ha]
  · rw [Block.setCensus_base, Block.censusTaken_base]

end

/-! ### The census completes (R335) -/

theorem assignSpares_absent (l ss : List Nat) (n : Nat) : (assignSpares l ss n).map (fun e => e.1) = l := by
  induction l generalizing ss n with
  | nil => simp [assignSpares]
  | cons t ts ih =>
    have hnone (ss : List Nat) (n : Nat) : ((t, 0xFFFF) :: assignSpares ts ss n).map (fun e => e.1) = t :: ts :=
      congrArg (t :: ·) (ih ss n)
    cases ss with
    | nil => exact hnone _ _
    | cons s ss =>
      cases n with
      | zero => exact hnone _ _
      | succ n => exact congrArg (t :: ·) (ih ss n)

section
variable (b : Block)

/-- The trays that the holder gives up. -/
def Block.absentTrays (b : Block) : List Nat := b.activeTrays.filter (fun y => !(b.trayReported y))

theorem Block.mem_absentTrays (y : Nat) : y ∈ b.absentTrays ↔ y < 2048 ∧ b.trayRole y = 1 ∧ b.trayReported y = false := by
  simp [Block.absentTrays, Block.activeTrays, and_comm]

theorem Block.manageAll_reg (h : HalfId) {a : Nat} (ha : a ≠ efReg h 0x18) (dest op : Nat) (l : List (List Byte)) :
    (b.manageAll h dest op l).reg a = b.reg a := by
  induction l generalizing b with
  | nil => rfl
  | cons p ps ih => rw [Block.manageAll, ih, Block.manage, Block.send_reg _ _ ha]

/-- The census's entries, and the packets that tell the trays. -/
theorem Block.completeCensus_eq : ∃ (c : Block) (es : List (Nat × Nat)),
    b.completeCensus = (c.applyCensus .a (b.tide .a) es).applyCensus .b (b.tide .a) es ∧
    es.map (fun e => e.1) = b.absentTrays ∧ c.base = b.base ∧ (∀ a, a ≠ efReg .a 0x18 → c.reg a = b.reg a) := by
  unfold Block.completeCensus
  extract_lets now absent es own trays heads b1 sent
  refine ⟨b1, es, rfl, assignSpares_absent _ _ _, ?_, fun a ha => ?_⟩
  · refine List.foldlRecOn (motive := fun c : Block => c.base = b.base) _ _ rfl (fun c hc q _ => ?_)
    rw [Block.manageAll_base, hc]
  · refine List.foldlRecOn (motive := fun c : Block => c.reg a = b.reg a) _ _ rfl (fun c hc q _ => ?_)
    rw [Block.manageAll_reg _ _ ha, hc]

theorem Block.activeTrays_eq {c : Block} (himage : c.image = b.image) (hreg : c.reg (zilReg 0x40) = b.reg (zilReg 0x40)) :
    c.activeTrays = b.activeTrays := by
  have hrole (y : Nat) : c.trayRole y = b.trayRole y := by rw [Block.trayRole, himage, Block.regFld_eq hreg, Block.trayRole]
  simp only [Block.activeTrays, hrole]

theorem censusLeaves_done (h k : HalfId) (hk : k ≠ h) {n : Nat} (hn : n ≤ 8192) : censusLeaves h n (tideReg k 0x30) := by
  refine ⟨?_, ?_, fun j hj => ?_, eventLeaves_tideReg k (by decide)⟩ <;> cases h <;> cases k <;>
    simp only [tideReg, gateReg, regBase, halfNum, ne_eq, not_true_eq_false] at * <;> omega

/-- The census completed: both halves take the result, and the reported trays make the roster. -/
theorem Block.completeCensus_does : (∀ k, (b.completeCensus.half k).efing.census =
        (if b.absentTrays.contains (b.moduleNo / 4) then 3 else 2) ∧ b.completeCensus.reg (tideReg k 0x30) = BitVec.ofNat 64 (b.tide .a)) ∧
      b.completeCensus.domain.tenure = b.domain.tenure ∧
      ∀ y, y < 2048 → b.trayRole y = 1 → b.trayReported y = true → y ∈ b.completeCensus.domain.roster := by
  obtain ⟨c, es, hcensus, habsent, hbase, hreg⟩ := b.completeCensus_eq
  have hlen : es.length ≤ 8192 := by
    have hle : b.absentTrays.length ≤ (List.range 2048).length := (List.length_filter_le _ _).trans (List.length_filter_le _ _)
    rw [← List.length_map (fun e => e.1), habsent]
    rw [List.length_range] at hle
    omega
  obtain ⟨c1, hc1⟩ : ∃ c1, c1 = c.applyCensus .a (b.tide .a) es := ⟨_, rfl⟩
  rw [← hc1] at hcensus
  have hhalfA (k : HalfId) := (c.applyCensus_does .a k hlen (b.tide .a)).1
  have hhalfB (k : HalfId) := (c1.applyCensus_does .b k hlen (b.tide .a)).1
  obtain ⟨-, hdoneA, hleavesA, hbaseA⟩ := c.applyCensus_does .a .a hlen (b.tide .a)
  obtain ⟨-, hdoneB, hleavesB, hbaseB⟩ := c1.applyCensus_does .b .b hlen (b.tide .a)
  rw [← hcensus] at hhalfB hdoneB hleavesB hbaseB
  rw [← hc1] at hhalfA hdoneA hleavesA hbaseA
  have hzil : c.reg (zilReg 0x40) = b.reg (zilReg 0x40) := hreg _ (by decide)
  have hzil1 : c1.reg (zilReg 0x40) = b.reg (zilReg 0x40) := (hleavesA _ (censusLeaves_moduleNo .a hlen)).trans hzil
  have hno : c.moduleNo = b.moduleNo := Block.regFld_eq hzil 63 51
  have hno1 : c1.moduleNo = b.moduleNo := Block.regFld_eq hzil1 63 51
  have hdomain1 : c1.domain = { b.domain with roster := c.rosterAfter es } := by
    rw [Block.domain_of_base hbaseA, Block.setDomain_domain, Block.domain_of_base hbase]
  have hdomain : b.completeCensus.domain = { b.domain with roster := c1.rosterAfter es } :=
    (Block.domain_of_base hbaseB).trans (by rw [Block.setDomain_domain, hdomain1])
  have himage1 : c1.image = b.image := by rw [Block.image_of_base hbaseA, Block.setDomain_image, Block.image_of_base hbase]
  rw [habsent, hno] at hhalfA
  rw [habsent, hno1] at hhalfB
  refine ⟨fun k => ?_, (congrArg Domain.tenure hdomain).trans (Domain.tenure_roster _ _), fun y hy hrole hreported => ?_⟩
  · cases k with
    | a =>
      refine ⟨?_, ?_⟩
      · rw [hhalfB .a, if_neg (by decide), hhalfA .a, if_pos rfl, Half.withResult_census]
      · rw [hleavesB _ (censusLeaves_done .b .a (by decide) hlen), hdoneA]
    | b =>
      refine ⟨?_, hdoneB⟩
      rw [hhalfB .b, if_pos rfl, Half.withResult_census]
  · rw [hdomain]
    refine List.mem_append_left _ (List.mem_filter.mpr ⟨?_, ?_⟩)
    · rw [b.activeTrays_eq himage1 hzil1]
      simp [Block.activeTrays, hy, hrole]
    · simp [habsent, Block.mem_absentTrays, hreported]

@[simp] theorem Block.completeCensus_tenure : b.completeCensus.domain.tenure = b.domain.tenure := b.completeCensus_does.2.1

@[simp] theorem Block.censusCheck_tenure : b.censusCheck.domain.tenure = b.domain.tenure := by
  rw [Block.censusCheck]
  split
  · exact b.completeCensus_tenure
  · rfl

end

/-- At the deadline the census completes (R335). -/
theorem censusDeadline_completes {s : State} {n : Nat} (hT : s.block.domain.tL = some n) (hholder : s.block.domain.holder = true)
    (hcensus : s.block.halfA.efing.census = 1) (hdue : n + 60000000000 ≤ s.block.tide .a) :
    ∃ t, exec .censusDeadline s = .next t ∧ t.pending = s.pending ∧ t.block.mem = s.block.mem ∧
      (∀ k, (t.block.half k).efing.census =
        (if s.block.trayRole (s.block.moduleNo / 4) = 1 ∧ s.block.moduleNo / 4 < 2048 ∧ s.block.trayReported (s.block.moduleNo / 4) = false
          then 3 else 2) ∧ t.block.reg (tideReg k 0x30) = BitVec.ofNat 64 (s.block.tide .a)) ∧
      (∀ y, y < 2048 → s.block.trayRole y = 1 → s.block.trayReported y = true → y ∈ t.block.domain.roster) := by
  have hexec : exec .censusDeadline s = .next { s with block := s.block.completeCensus } :=
    next_of_act (show exec .censusDeadline s = execCensusDeadline s from rfl) (by
      rw [hT]
      exact if_pos ⟨hholder, hcensus, hdue⟩)
  obtain ⟨hhalves, -, hroster⟩ := s.block.completeCensus_does
  refine ⟨_, hexec, rfl, Block.mem_eq_of_lasting (by simp), ?_⟩
  dsimp only
  refine ⟨fun k => ?_, hroster⟩
  obtain ⟨hstate, hdone⟩ := hhalves k
  have habsent : s.block.absentTrays.contains (s.block.moduleNo / 4) = true ↔ s.block.trayRole (s.block.moduleNo / 4) = 1 ∧
      s.block.moduleNo / 4 < 2048 ∧ s.block.trayReported (s.block.moduleNo / 4) = false := by
    rw [List.contains_iff_mem, Block.mem_absentTrays, and_left_comm]
  refine ⟨?_, hdone⟩
  rw [hstate]
  simp only [habsent]

/-! ## The lease (R333) -/

section
variable (b : Block)

theorem Block.setLeader_domain (m rank : Nat) : (b.setLeader m rank).domain = { b.domain with coord := some m } := by
  simp [Block.setLeader]

theorem Block.setLeader_half (m rank : Nat) (k : HalfId) : (b.setLeader m rank).half k = b.half k := by simp [Block.setLeader]

theorem Block.setLeader_reg {a : Nat} (ha : ∀ k, a ≠ gateReg k 0x10) (m rank : Nat) : (b.setLeader m rank).reg a = b.reg a := by
  have hset (c : Block) (k : HalfId) (hi lo v : Nat) : (c.setRegFld (gateReg k 0x10) hi lo v).reg a = c.reg a :=
    c.reg_setRegFld_other _ _ _ _ _ (ha k)
  simp only [Block.setLeader, Block.setDomain_reg, hset]

theorem Block.setLeader_tenure (m rank : Nat) : (b.setLeader m rank).domain.tenure = b.domain.tenure := by
  rw [Block.setLeader_domain]
  rfl

theorem Block.setBoth_base (f : HalfId → Nat) (v : Nat) : (b.setBoth f v).base = b.base := (Block.setReg_base _ _ _).trans (b.setReg_base _ _)

theorem Block.setCensusFld_base (hi lo v : Nat) : (b.setCensusFld hi lo v).base = b.base :=
  (Block.setRegFld_base _ _ _ _ _).trans (b.setRegFld_base _ _ _ _)

theorem Block.showLease_base (rank m t : Nat) : (b.showLease rank m t).base = b.base := by
  rw [Block.showLease, Block.setBoth_base, Block.setCensusFld_base, Block.setCensusFld_base]

theorem Block.startCensus_base (h : HalfId) : (b.startCensus h).base = b.base := by
  rw [Block.startCensus]
  split
  · exact b.setCensus_base h 1
  · rfl

/-- The lease as it is shown, and the census that it starts. -/
def Block.leaseShown (b : Block) (rank m t : Nat) : Block := ((b.showLease rank m t).startCensus .a).startCensus .b

theorem Block.leaseShown_base (rank m t : Nat) : (b.leaseShown rank m t).base = b.base := by
  rw [Block.leaseShown, Block.startCensus_base, Block.startCensus_base, Block.showLease_base]

/-- A candidate that may claim holds the lease, with the first T_L kept. -/
theorem leaseClaim_holds {s : State} (hmay : s.block.mayClaim = true) :
    ∃ t, exec .leaseClaim s = .next t ∧ t.pending = s.pending ∧ t.block.mem = s.block.mem ∧ t.block.domain.holder = true ∧
      t.block.domain.tL = some (s.block.domain.tL.getD (s.block.tide .a)) := by
  obtain ⟨x, hexec, hmem, htenure⟩ : ∃ x : Block, exec .leaseClaim s = .next { s with block := x } ∧ x.mem = s.block.mem ∧
      x.domain.tenure = (true, some (s.block.domain.tL.getD (s.block.tide .a)), s.block.domain.reports) := by
    refine ⟨_, next_of_act (show exec .leaseClaim s = execLeaseClaim s from rfl) (if_neg (by simp [hmay])), Block.mem_eq_of_lasting (by simp), ?_⟩
    extract_lets now old b b1 ask
    have hb1 : b1.domain.tenure = (true, some (s.block.domain.tL.getD (s.block.tide .a)), s.block.domain.reports) := by
      refine (Block.manageTo_tenure _ _ _ _).trans ((Block.setLeader_tenure _ _ _).trans ?_)
      exact Block.tenure_of_base b (b.leaseShown_base b.ownRank b.moduleNo (b.domain.tL.getD 0))
    rw [← hb1]
    split
    · rw [Block.lead_tenure, Block.appendRecord_tenure, Block.censusCheck_tenure, Block.manageTo_tenure]
    · rw [Block.readReplicas_tenure, Block.manageTo_tenure]
  exact ⟨_, hexec, rfl, hmem, congrArg Prod.fst htenure, congrArg (fun y => y.2.1) htenure⟩

/-! ### A lease is heard -/

theorem Block.setCensus_tables (h : HalfId) (st : Nat) : (b.setCensus h st).tables = b.tables := by
  have hmod (f : Half → Half) (hg : ∀ x, (f x).graphs = x.graphs) (hf : ∀ x, (f x).funcs = x.funcs) : (b.modHalf h f).tables = b.tables :=
    b.modHalf_tables h f hg hf
  have hevent (c : Block) (i : Nat) : (c.moduleEvent i).tables = c.tables := Block.tables_eq (by simp) (by simp) (by simp)
  simp only [Block.setCensus]
  (repeat' split) <;> simp [hmod, hevent, Block.setRegFld]

theorem Block.leaseShown_tables (rank m t : Nat) : (b.leaseShown rank m t).tables = b.tables := by
  have hstart (c : Block) (h : HalfId) : (c.startCensus h).tables = c.tables := by
    rw [Block.startCensus]
    split
    · exact c.setCensus_tables h 1
    · rfl
  rw [Block.leaseShown, hstart, hstart]
  simp [Block.showLease, Block.setBoth, Block.setCensusFld, Block.setRegFld]

theorem Block.leaseShown_deadline (rank m t : Nat) (k : HalfId) :
    (b.leaseShown rank m t).reg (tideReg k 0x28) = BitVec.ofNat 64 (t + 60000000000) := by
  have hstart (c : Block) (h : HalfId) : (c.startCensus h).reg (tideReg k 0x28) = c.reg (tideReg k 0x28) := by
    rw [Block.startCensus]
    split
    · exact c.setCensus_reg h (by cases h <;> cases k <;> decide) (eventLeaves_tideReg k (by decide)) 1
    · rfl
  rw [Block.leaseShown, hstart, hstart, Block.showLease, Block.setBoth]
  cases k with
  | a => rw [Block.reg_setReg_other _ _ _ _ (by decide), Block.reg_setReg_same]
  | b => rw [Block.reg_setReg_same]

/-- Where no verdict task runs nothing is appended anew to a new leader (R397). -/
theorem Block.reappend_idle (hidle : ∀ k, ∀ q ∈ b.tasksOf k, q.2.2.desc.type ≠ 8) : b.reappend = b := by
  have hnone : (b.tasksOf .a ++ b.tasksOf .b).filter (fun p => p.2.2.phase = .running && p.2.2.desc.type = 8) = [] := by
    refine List.filter_eq_nil_iff.mpr fun q hq => ?_
    obtain hq | hq := List.mem_append.mp hq
    · simp [hidle .a q hq]
    · simp [hidle .b q hq]
  rw [Block.reappend, hnone]
  rfl

/-- A lease that is heeded: the holder it names, its T_L, and the census deadline. -/
theorem Block.hearLease_does (rank t m : Nat)
    (hquiet : b.domain.coord = some m ∨ ∀ k, ∀ q ∈ b.tasksOf k, q.2.2.desc.type ≠ 8) :
    (b.hearLease rank t m).domain = { b.domain with
        holder := false, leaseRank := rank, leaseHeard := b.tide .a, lowHeard := if rank < b.ownRank then b.tide .a else b.domain.lowHeard,
        tL := some (b.domain.tL.getD t), reading := none, coord := some m } ∧
      ∀ k, (b.hearLease rank t m).reg (tideReg k 0x28) = BitVec.ofNat 64 (b.domain.tL.getD t + 60000000000) := by
  obtain ⟨b1, hb1⟩ : ∃ b1, b1 = b.modDomain (fun d => { d with
    holder := false, leaseRank := rank, leaseHeard := b.tide .a, lowHeard := (if rank < b.ownRank then b.tide .a else d.lowHeard),
    tL := some (d.tL.getD t), reading := none }) := ⟨_, rfl⟩
  obtain ⟨b2, hb2⟩ : ∃ b2, b2 = (b1.leaseShown rank m (b1.domain.tL.getD 0)).setLeader m rank := ⟨_, rfl⟩
  have hT : b1.domain.tL = some (b.domain.tL.getD t) := by rw [hb1, Block.modDomain, Block.setDomain_domain]
  have htasks (k : HalfId) : b2.tasksOf k = b.tasksOf k := by
    refine Block.tasksOf_eq_of_tables ?_ k
    have hleader (c : Block) : (c.setLeader m rank).tables = c.tables := by simp [Block.setLeader, Block.setRegFld]
    rw [hb2, hleader, Block.leaseShown_tables, hb1, Block.modDomain, Block.setDomain_tables]
  have hhear : b.hearLease rank t m = b2 := by
    have hsplit : b.hearLease rank t m = if b.domain.coord = some m then b2 else b2.reappend := by
      rw [hb2, hb1]
      rfl
    rw [hsplit]
    split
    · rfl
    · next hnew => exact b2.reappend_idle (fun k => by rw [htasks]; exact hquiet.resolve_left hnew k)
  rw [hhear]
  refine ⟨?_, fun k => ?_⟩
  · rw [hb2, Block.setLeader_domain, Block.domain_of_base (b1.leaseShown_base _ _ _), hb1, Block.modDomain, Block.setDomain_domain]
  · rw [hb2, Block.setLeader_reg _ (fun j => by cases j <;> cases k <;> decide), Block.leaseShown_deadline, hT]
    rfl

theorem Block.ownRank_eq {c : Block} (himage : c.image = b.image) (hreg : c.reg (zilReg 0x40) = b.reg (zilReg 0x40)) : c.ownRank = b.ownRank := by
  have hcands : c.cands = b.cands := by rw [Block.cands, himage, Block.regFld_eq hreg, Block.cands]
  have hno : c.moduleNo = b.moduleNo := Block.regFld_eq hreg 63 51
  rw [Block.ownRank, Block.rankOf, hcands, hno, Block.ownRank, Block.rankOf]

theorem Block.taken_image (h : HalfId) (p : Packet) : (b.taken h p).image = b.image := by
  refine Eq.trans ?_ (Block.image_of_ground (b.unbuffer_ground h p))
  simp only [Block.takeSeq]
  (repeat' split) <;> simp

theorem Block.unbuffer_tables (h : HalfId) (p : Packet) : (b.unbuffer h p).tables = b.tables := by
  rw [Block.unbuffer]
  split
  · rfl
  · exact (Block.control_tables _ _ _ _ _ _ _).trans (b.modHalf_tables h _ (fun _ => rfl) (fun _ => rfl))

theorem Block.takeSeq_tables (h : HalfId) (p : Packet) : (b.takeSeq h p).tables = b.tables := by
  have hmod (c : Block) (f : Half → Half) (hg : ∀ x, (f x).graphs = x.graphs) (hf : ∀ x, (f x).funcs = x.funcs) :
    (c.modHalf h f).tables = c.tables := c.modHalf_tables h f hg hf
  simp only [Block.takeSeq]
  (repeat' split) <;> simp [hmod]

/-- LEASE from a rank that is heeded is noted; one from a higher rank is not (R333). -/
theorem lease_heard {s : State} {h : HalfId} {p : Packet} {rank : Nat} (ha : Admits s.block h p 5 [2]) (hrank : rank = u64At p.payload 0)
    (hquiet : s.block.domain.coord = some (u64At p.payload 16) ∨ ∀ k, ∀ q ∈ s.block.tasksOf k, q.2.2.desc.type ≠ 8) :
    ∃ t, exec (.lease h p) s = .next t ∧ t.pending = s.pending ∧ t.block.mem = s.block.mem ∧
      ((s.block.domain.holder = false → rank ≤ s.block.domain.leaseRank) → (s.block.domain.holder = true → rank < s.block.ownRank) →
        t.block.domain = { s.block.domain with
          holder := false, leaseRank := rank, leaseHeard := s.block.tide .a,
          lowHeard := if rank < s.block.ownRank then s.block.tide .a else s.block.domain.lowHeard, tL := some (s.block.domain.tL.getD (u64At p.payload 8)),
          reading := none, coord := some (u64At p.payload 16) } ∧
        ∀ k, t.block.reg (tideReg k 0x28) = BitVec.ofNat 64 (s.block.domain.tL.getD (u64At p.payload 8) + 60000000000)) ∧
      ((s.block.domain.holder = false ∧ s.block.domain.leaseRank < rank) ∨ (s.block.domain.holder = true ∧ s.block.ownRank ≤ rank) →
        t.block.domain = s.block.domain) := by
  obtain ⟨x, hx⟩ : ∃ x, x = s.block.taken h p := ⟨_, rfl⟩
  have hdomain : x.domain = s.block.domain := by rw [hx, Block.taken_domain]
  have hown : x.ownRank = s.block.ownRank := by
    rw [hx]
    exact s.block.ownRank_eq (s.block.taken_image h p) (s.block.taken_reg h p (by cases h <;> decide))
  have htide : x.tide .a = s.block.tide .a := congrArg TideClock.now (Block.tide_eq_of_clocks (by simp [hx]) .a)
  have htasks (k : HalfId) : x.tasksOf k = s.block.tasksOf k := Block.tasksOf_eq_of_tables (by rw [hx, Block.takeSeq_tables, Block.unbuffer_tables]) k
  obtain ⟨y, hy⟩ : ∃ y, y = (if rank ≤ (if s.block.domain.holder then s.block.ownRank - 1 else s.block.domain.leaseRank) ∧
      (¬ s.block.domain.holder ∨ rank < s.block.ownRank) then x.hearLease rank (u64At p.payload 8) (u64At p.payload 16) else x) := ⟨_, rfl⟩
  have hexec : exec (.lease h p) s = .next { s with block := y } := by
    refine next_of_receive ha (show exec (.lease h p) s = execLease h p s from rfl) ?_
    rw [← hx, hy, ← hdomain, ← hown, hrank]
  obtain ⟨hheard, hdeadline⟩ := x.hearLease_does rank (u64At p.payload 8) (u64At p.payload 16) (by simpa only [hdomain, htasks] using hquiet)
  rw [hdomain, htide, hown] at hheard
  rw [hdomain] at hdeadline
  refine ⟨_, hexec, rfl, ?_, fun hnot hholds => ?_, fun hnot => ?_⟩
  · refine Block.mem_eq_of_lasting ?_
    rw [hy, hx]
    split <;> simp
  · have hheeded : y = x.hearLease rank (u64At p.payload 8) (u64At p.payload 16) := by
      rw [hy, if_pos]
      cases hh : s.block.domain.holder with
      | true =>
        have := hholds hh
        exact ⟨by rw [if_pos rfl]; omega, .inr this⟩
      | false => exact ⟨by simpa using hnot hh, .inl (by simp)⟩
    rw [hheeded]
    exact ⟨hheard, hdeadline⟩
  · have hunheeded : y = x := by
      rw [hy, if_neg]
      obtain ⟨hh, hlow⟩ | ⟨hh, hlow⟩ := hnot
      · rw [hh]
        rintro ⟨hle, -⟩
        simp only [Bool.false_eq_true, if_false] at hle
        omega
      · rw [hh]
        rintro ⟨-, hno | hlt⟩
        · exact hno rfl
        · omega
    rw [hunheeded, ← hdomain]

end

/-! ### Renewal and lapse -/

/-- The holder tells every other candidate again. -/
theorem leaseRenewal_tells {s : State} (hholder : s.block.domain.holder = true) (hdue : s.block.domain.renewed + 500000000 ≤ s.block.tide .a) :
    ∃ t, exec .leaseRenewal s = .next t ∧ t.pending = s.pending ∧ t.block.mem = s.block.mem ∧
      t.block.domain = { s.block.domain with renewed := s.block.tide .a } ∧
      t.block = (s.block.modDomain (fun d => { d with renewed := s.block.tide .a })).manageTo .a 0x02
        ((s.block.candModules.filter (fun m => m ≠ s.block.moduleNo)).map (fun m => (2 * m, s.block.leaseBytes))) := by
  obtain ⟨x, hx⟩ : ∃ x, x = s.block.modDomain (fun d => { d with renewed := s.block.tide .a }) := ⟨_, rfl⟩
  have hdomain : x.domain = { s.block.domain with renewed := s.block.tide .a } := by rw [hx, Block.modDomain, Block.setDomain_domain]
  have hcands : x.candModules = s.block.candModules := by rw [hx]; rfl
  have hno : x.moduleNo = s.block.moduleNo := by rw [hx]; rfl
  have hbytes : x.leaseBytes = s.block.leaseBytes := by rw [hx]; rfl
  have hexec : exec .leaseRenewal s = .next { s with block := x.sendLease } := by
    rw [hx]
    exact next_of_act (show exec .leaseRenewal s = execLeaseRenewal s from rfl) (if_pos ⟨hholder, hdue⟩)
  rw [← hx, ← hcands, ← hno, ← hbytes]
  refine ⟨_, hexec, rfl, Block.mem_eq_of_lasting (by simp [hx]), ?_, rfl⟩
  dsimp only
  rw [Block.sendLease, Block.domain_of_base (Block.manageTo_base _ _ _ _), hdomain]

/-- A field written on both halves. -/
theorem Block.setRegFld_both (b : Block) (f : HalfId → Nat) (hne : f .a ≠ f .b) {hi lo v : Nat} (hhi : hi < 64) (hv : v < 2 ^ (hi + 1 - lo))
    (k : HalfId) : ((b.setRegFld (f .a) hi lo v).setRegFld (f .b) hi lo v).regFld (f k) hi lo = v := by
  cases k with
  | a => rw [Block.regFld_eq (Block.reg_setRegFld_other _ _ _ _ _ _ hne), Block.regFld_setRegFld_same _ _ _ _ _ hhi, Nat.mod_eq_of_lt hv]
  | b => rw [Block.regFld_setRegFld_same _ _ _ _ _ hhi, Nat.mod_eq_of_lt hv]

/-- A lease no longer in force: no leader is known. -/
theorem Block.dropLease_does (b : Block) (k : HalfId) :
    b.dropLease.half k = b.half k ∧ b.dropLease.domain = { b.domain with holder := false, leaseRank := 15, reading := none } ∧
      b.dropLease.regFld (tideReg k 0x20) 59 56 = 15 ∧ b.dropLease.regFld (gateReg k 0x10) 47 47 = 0 := by
  obtain ⟨x, hx⟩ : ∃ x, x = (b.modDomain (fun d => { d with holder := false, leaseRank := 15, reading := none })).setCensusFld 59 56 0xF :=
    ⟨_, rfl⟩
  have hdrop : b.dropLease = (x.setRegFld (gateReg .a 0x10) 47 47 0).setRegFld (gateReg .b 0x10) 47 47 0 := by
    rw [hx]
    rfl
  have hrank : x.regFld (tideReg k 0x20) 59 56 = 15 := by
    rw [hx]
    exact Block.setRegFld_both _ (fun j => tideReg j 0x20) (by decide) (by decide) (by decide) k
  rw [hdrop]
  refine ⟨?_, ?_, ?_, ?_⟩
  · rw [Block.setRegFld_half, Block.setRegFld_half, hx, Block.setCensusFld, Block.setRegFld_half, Block.setRegFld_half, Block.modDomain,
      Block.setDomain_half]
  · rw [Block.setRegFld_domain, Block.setRegFld_domain, hx, Block.domain_of_base (Block.setCensusFld_base _ _ _ _), Block.modDomain,
      Block.setDomain_domain]
  · rw [← hrank]
    exact Block.regFld_eq ((Block.reg_setRegFld_other _ _ _ _ _ _ (by cases k <;> decide)).trans
      (Block.reg_setRegFld_other _ _ _ _ _ _ (by cases k <;> decide))) 59 56
  · exact Block.setRegFld_both _ (fun j => gateReg j 0x10) (by decide) (by decide) (by decide) k

/-- 2 s without a renewal end the lease. -/
theorem leaseLapse_drops {s : State} (hrank : s.block.domain.leaseRank ≠ 15) (hown : s.block.ownRank < 15)
    (hdue : (if s.block.domain.holder then s.block.domain.renewed else s.block.domain.leaseHeard) + 2000000000 ≤ s.block.tide .a) :
    ∃ t, exec .leaseLapse s = .next t ∧ t.pending = s.pending ∧ t.block.mem = s.block.mem ∧ t.block.halfA = s.block.halfA ∧
      t.block.halfB = s.block.halfB ∧ t.block.domain = { s.block.domain with holder := false, leaseRank := 15, reading := none } ∧
      ∀ k, t.block.regFld (tideReg k 0x20) 59 56 = 15 ∧ t.block.regFld (gateReg k 0x10) 47 47 = 0 := by
  have hexec : exec .leaseLapse s = .next { s with block := s.block.dropLease } :=
    next_of_act (show exec .leaseLapse s = execLeaseLapse s from rfl) (if_pos ⟨hrank, hown, hdue⟩)
  obtain ⟨hA, hdomain, -, -⟩ := s.block.dropLease_does .a
  obtain ⟨hB, -, -, -⟩ := s.block.dropLease_does .b
  refine ⟨_, hexec, rfl, Block.mem_eq_of_lasting (by simp), hA, hB, hdomain, fun k => ?_⟩
  obtain ⟨-, -, hfields⟩ := s.block.dropLease_does k
  exact hfields

/-! ## Ready reports (R334) -/

section
variable (b : Block) (l : List Byte)

/-- The holder holds a report that it takes. -/
theorem Block.holderTakes_holds : tabFind (b.holderTakes l).domain.reports (reportModule l) = some l := by
  have hput : (b.holderTakes l).domain.reports = tabPut b.domain.reports (reportModule l) l := by
    simp only [Block.holderTakes]
    (repeat' split) <;> simp [Domain.reports_of_tenure (Block.censusCheck_tenure _)]
  rw [hput, tabFind_tabPut_same]

/-- So does the tray reporter. -/
theorem Block.reporterTakes_holds : tabFind (b.reporterTakes l).domain.reports (reportModule l) = some l := by
  simp only [Block.reporterTakes]
  split
  · exact Block.holderTakes_holds _ l
  · have hput (d : Domain) (hd : d.reports = tabPut b.domain.reports (reportModule l) l) : tabFind d.reports (reportModule l) = some l := by
      rw [hd, tabFind_tabPut_same]
    refine hput _ ?_
    (repeat' split) <;> simp [Domain.reports_of_tenure (Block.manageAll_tenure _ _ _ _ _)]

end

/-- A report, a tray report, or the holder's request for the reports held. -/
theorem readyReport_held {s : State} {h : HalfId} {p : Packet} (ha : Admits s.block h p 5 [3]) :
    ∃ t, exec (.readyReport h p) s = .next t ∧ t.pending = s.pending ∧ t.block.mem = s.block.mem ∧
      (reportKind p.payload = 2 → t.block.domain = { s.block.domain with coord := some (reportModule p.payload) }) ∧
      (reportKind p.payload = 1 → s.block.domain.holder = true →
        tabFind t.block.domain.reports (reportModule p.payload) = some p.payload) ∧
      (reportKind p.payload = 1 → s.block.domain.holder = false → t.block.domain = s.block.domain) ∧
      (reportKind p.payload = 0 → tabFind t.block.domain.reports (reportModule p.payload) = some p.payload) := by
  obtain ⟨x, hx⟩ : ∃ x, x = s.block.taken h p := ⟨_, rfl⟩
  have hdomain : x.domain = s.block.domain := by rw [hx, Block.taken_domain]
  have hmem : x.mem = s.block.mem := by rw [hx, Block.taken_mem]
  have hexec := next_of_receive ha (show exec (.readyReport h p) s = execReadyReport h p s from rfl) rfl
  rw [← hx] at hexec
  by_cases h2 : reportKind p.payload = 2
  · rw [if_pos h2] at hexec
    refine ⟨_, hexec, rfl, (Block.mem_eq_of_lasting (by simp)).trans hmem, fun _ => ?_, fun h1 => by omega, fun h1 => by omega, fun h0 => by omega⟩
    dsimp only
    rw [Block.domain_of_base (Block.manageAll_base _ _ _ _ _), Block.domain_of_base (Block.setCensusFld_base _ _ _ _), Block.setLeader_domain,
      hdomain]
  · rw [if_neg h2] at hexec
    by_cases h1 : reportKind p.payload = 1
    · rw [if_pos h1, hdomain] at hexec
      refine ⟨_, hexec, rfl, ?_, fun h => by omega, fun _ hholder => ?_, fun _ hnot => ?_, fun h0 => by omega⟩
      · dsimp only
        split
        · exact (Block.mem_eq_of_lasting (by simp)).trans hmem
        · exact hmem
      · rw [if_pos hholder]
        exact x.holderTakes_holds _
      · rw [if_neg (by simp [hnot])]
        exact hdomain
    · rw [if_neg h1] at hexec
      exact ⟨_, hexec, rfl, (Block.mem_eq_of_lasting (by simp)).trans hmem, fun h => absurd h h2, fun h => absurd h h1, fun h => absurd h h1,
        fun _ => x.reporterTakes_holds _⟩

/-! ## The census result arrives (R335 step 4) -/

theorem Block.taken_census (b : Block) (h : HalfId) (p : Packet) : ((b.taken h p).half h).efing.census = (b.half h).efing.census ∧
    ((b.taken h p).half h).efing.parts = (b.half h).efing.parts := by
  have hunbuffer : ((b.unbuffer h p).half h).efing.census = (b.half h).efing.census ∧
      ((b.unbuffer h p).half h).efing.parts = (b.half h).efing.parts := by
    simp only [Block.unbuffer]
    split <;> simp
  rw [← hunbuffer.1, ← hunbuffer.2]
  simp only [Block.takeSeq]
  (repeat' split) <;> simp

/-- A part that is passed on without its relay mark holds the same entries. -/
theorem partEntries_plain (l : List Byte) (hl : 16 ≤ l.length) (n : Nat) : partEntries (l.take 8 ++ leBytes 8 n ++ l.drop 16) = partEntries l := by
  have hhead : (l.take 8 ++ leBytes 8 n).length = 16 := by
    rw [List.length_append, List.length_take, leBytes_length]
    omega
  have hlen : (l.take 8 ++ leBytes 8 n ++ l.drop 16).length = l.length := by
    rw [List.length_append, hhead, List.length_drop]
    omega
  have hdrop (k : Nat) : (l.take 8 ++ leBytes 8 n ++ l.drop 16).drop (16 + k) = l.drop (16 + k) := by
    rw [List.drop_append, List.drop_eq_nil_of_le (by omega), hhead, Nat.add_sub_cancel_left, List.drop_drop, List.nil_append]
  have hdrop2 (i : Nat) : (l.take 8 ++ leBytes 8 n ++ l.drop 16).drop (18 + 4 * i) = l.drop (18 + 4 * i) := by
    rw [show 18 + 4 * i = 16 + (2 + 4 * i) by omega]
    exact hdrop _
  simp only [partEntries, hlen, hdrop, hdrop2]

theorem bit_of_bits {x i : Nat} (h : bits x i i = 0) : bit x i = false := by
  have hone : (x >>> i) % 2 = 0 := by simpa [bits, Nat.add_sub_cancel_left] using h
  simp [bit, hone]

/-- A management packet's payload is short. -/
theorem Admits.payload_length {b : Block} {h : HalfId} {p : Packet} {ops : List Nat} (ha : Admits b h p 5 ops) : p.payload.length ≤ 224 := by
  obtain ⟨-, hcls, -, hform, -, -⟩ := ha
  have hmax : pkLength p ≤ classMax (pkClass p) ∧ p.payload.length = pkLength p := by
    simp only [malformed, Bool.or_eq_false_iff, decide_eq_false_iff_not, not_lt, ne_eq, not_not] at hform
    tauto
  rw [hmax.2]
  exact hmax.1.trans (by rw [hcls]; decide)

/-- A result in one part is taken: the census state, the completion Tide, and the end-to-end sequences that start again. -/
theorem censusResult_taken {s : State} {h : HalfId} {p : Packet} (ha : Admits s.block h p 5 [4]) (hlen : 16 ≤ p.payload.length)
    (hcensus : (s.block.half h).efing.census < 2) (hrelay : bits (u64At p.payload 8) 16 16 = 0) (hparts : bits (u64At p.payload 8) 15 8 = 1)
    (hnone : (s.block.half h).efing.parts = []) :
    ∃ t, exec (.censusResult h p) s = .next t ∧ t.pending = s.pending ∧ t.block.mem = s.block.mem ∧
      (t.block.half h).efing.census =
        (if ((partEntries p.payload).map (fun e => e.1)).contains (s.block.moduleNo / 4) then 3 else 2) ∧
      t.block.reg (tideReg h 0x30) = BitVec.ofNat 64 (u64At p.payload 0) ∧ (t.block.half h).efing.seqTx = [] ∧
      (t.block.half h).efing.seqRx = [] := by
  obtain ⟨x, hx⟩ : ∃ x, x = s.block.taken h p := ⟨_, rfl⟩
  obtain ⟨plain, hplain⟩ : ∃ plain, plain = p.payload.take 8 ++ leBytes 8 (u64At p.payload 8 % 2 ^ 16) ++ p.payload.drop 16 := ⟨_, rfl⟩
  obtain ⟨b, hb⟩ : ∃ b, b = x.modHalf h (fun y =>
    { y with efing := { y.efing with parts := tabPut y.efing.parts (u64At p.payload 8 % 256) plain } }) :=
    ⟨_, rfl⟩
  have hno : b.moduleNo = s.block.moduleNo := by
    refine Block.regFld_eq ?_ 63 51
    rw [hb, Block.modHalf_reg, hx]
    exact s.block.taken_reg h p (by cases h <;> decide)
  have hstate : (x.half h).efing.census < 2 := by
    rw [hx, (s.block.taken_census h p).1]
    exact hcensus
  have hpart : (b.half h).efing.parts = [(u64At p.payload 8 % 256, plain)] := by
    rw [hb, Block.half_modHalf_same]
    dsimp only
    rw [hx, (s.block.taken_census h p).2, hnone]
    rfl
  have hentries : ((b.half h).efing.parts.map (fun q => partEntries q.2)).flatten = partEntries p.payload := by
    rw [hpart, hplain, List.map_cons, List.map_nil, List.flatten_cons, List.flatten_nil, List.append_nil, partEntries_plain _ hlen]
  have hexec : exec (.censusResult h p) s = .next { s with
      block := (b.applyCensus h (leNat (p.payload.take 8)) ((b.half h).efing.parts.map (fun q => partEntries q.2)).flatten) } := by
    refine next_of_receive ha (show exec (.censusResult h p) s = execCensusResult h p s from rfl) ?_
    rw [← hx]
    have hw : leNat ((p.payload.drop 8).take 8) = u64At p.payload 8 := rfl
    dsimp only at hb
    simp only [hw, bit_of_bits hrelay, Bool.false_eq_true, if_false, ← hplain]
    rw [if_neg (by omega), ← hb, hparts, if_pos (by rw [hpart]; exact le_refl 1)]
  have hshort : (partEntries p.payload).length ≤ 8192 := by
    have := ha.payload_length
    simp only [partEntries, List.length_map, List.length_range]
    omega
  obtain ⟨hhalf, hdone, -, -⟩ := b.applyCensus_does h h hshort (leNat (p.payload.take 8))
  rw [if_pos rfl, hno] at hhalf
  rw [hentries] at hexec
  refine ⟨_, hexec, rfl, ?_, ?_⟩
  · refine (Block.mem_eq_of_lasting (by simp)).trans (?_ : b.mem = s.block.mem)
    rw [hb, Block.modHalf_mem, hx, Block.taken_mem]
  · dsimp only
    rw [hhalf]
    exact ⟨rfl, hdone, rfl, rfl⟩

/-- Settles O42: the lease, the ready reports and the census. -/
theorem leaseAndCensusCommands : Obligations.LeaseAndCensusCommands := by
  unfold Obligations.LeaseAndCensusCommands
  exact ⟨fun s => leaseClaim_holds, fun s h p rank => lease_heard, fun s => leaseRenewal_tells, fun s => leaseLapse_drops,
    fun s h p => readyReport_held, fun s n hT hholder hcensus _ hdue => censusDeadline_completes hT hholder hcensus hdue,
    fun s h p => censusResult_taken⟩

end Sys2Proof.Machine
